-- ==== Sys2Proof/Word.lean ====
section
/-! DEFINITION. The words of the module: bytes, records and the plain byte strings the interfaces carry (R7, R8).
Quantities the manual counts, indexes or compares are `Nat`; what it treats as bits is a `BitVec`. -/
namespace Sys2Proof

/-- A byte. Byte 0 of a string is the byte at the lowest address (R7). -/
abbrev Byte := BitVec 8

/-- A 64-byte record: a command record (Table 7.2) or an event record (Table 15.10), byte 0 in bits 7 to 0. -/
abbrev Rec := BitVec 512

/-- A 32-byte ring record (Table 7.7), byte 0 in bits 7 to 0. -/
abbrev RingRec := BitVec 256

/-- A byte string, lowest address first. -/
abbrev Bytes := List Byte

end Sys2Proof
end

