-- ==== Sys2Proof/Syntax.lean ====
section
/-! DEFINITION. The commands of the block: one constructor for each row of the opcode table. An operand is what the world
outside supplies with the command: the port it arrives on, the bytes it carries, the reading a sensor gives, the record it
concerns. A window is named 0 to 7, a tile 0 to 191, an optical port 0 to 15; a record is named by its window and sequence. -/
namespace Sys2Proof

/-- The host ports HA and HB. -/
inductive HostPort where
  | ha | hb
  deriving DecidableEq, Repr

/-- Where a dictionary request comes from (R414): a field-network address, or a host port with the requester's endpoint ID. -/
inductive Src where
  | fld (mac : Nat)
  | mctp (p : HostPort) (eid : Nat)
  deriving DecidableEq, Repr

/-- A message between modules (R331, Tables 12.2 and 12.3): the sender its route word names, the collective header and the body. -/
structure Msg where
  src : Nat
  pod : Nat
  mtype : Nat
  level : Nat
  group : Nat
  epoch : Nat
  digest : Nat
  cid : Nat
  step : Nat
  index : Nat
  rank : Nat
  count : Nat
  body : Bytes
  deriving DecidableEq, Repr

/-- What a 64-byte unit of the bank tier holds (Table 9.2): a unit of a region (for a checkpoint image, the layer whose data it is),
cast spill, the journal of a layer, or nothing. -/
inductive BankUnit where
  | region (h : Nat) (page : Nat) (layer : Nat)
  | spill
  | journal (layer : Nat)
  | unused
  deriving DecidableEq, Repr

/-- What a read of a flash unit was for: a data unit of a stream zone, a page of a region (a checkpoint image's too), or the whole die
it stands on has failed (R267). -/
inductive FlashUnit where
  | zone (z : Fin 4) (unit : Nat)
  | page (h p : Nat)
  | die
  deriving DecidableEq, Repr

/-- What a domain's activity counters counted in a millisecond (R363): cells active by matrix mode, vector elements, bytes over each
bridge and each memory channel, flits sent, decoded luma samples. -/
structure Activity where
  cells : List Nat
  vector : Nat
  bridges : List Nat
  channels : List Nat
  flits : Nat
  luma : Nat
  deriving DecidableEq, Repr

/-- The reads of one unit of a page of the bank tier: its place in the page, and the bytes as they came each time (R257, R258). -/
structure UnitReads where
  unit : Fin 1024
  reads : List Bytes
  deriving DecidableEq, Repr

/-- What a clock region reports: its worst margin in taps, and the cycles it has run at the level it is at (R389). -/
structure RegionRun where
  margin : Nat
  cycles : Nat
  deriving DecidableEq, Repr

/-- How reading a flash unit again went: the retry levels tried after the first, and how it ended: read (0), rebuilt from parity (1) or
uncorrectable (2) (R267). -/
structure FlashRetry where
  levels : Fin 7
  outcome : Fin 3
  deriving DecidableEq, Repr

/-- The commands of the block, one for each row of the opcode table. -/
inductive Instr where
  /-- CMD_TRAILER_WRITE (R178): The owner port completes bytes 56 to 63 of a command slot, making a new written version, and the watched slot is evaluated. -/
  | cmdTrailerWrite (p : HostPort) (w : Fin 8) (k : Fin 1024) (off : Nat) (data : Bytes)
  /-- CREDIT (R178): A credit record (kind 0x00) retires at acceptance without a queue entry, after its header checks. -/
  | credit (w : Fin 8)
  /-- ACCEPT_ON_ROOM (R178): A valid record waiting in the watched slot is copied into the queue once a queue entry frees, or once e advances. -/
  | acceptOnRoom (w : Fin 8)
  /-- RECORD_DISPATCH (R180): The sequencer dispatches a window head record once the window is open, the dependency has retired, the class is not deferred and the ring has room. -/
  | recordDispatch
  /-- RING_RECORD_WRITE (R186): A retained ring record is written to host memory once the ring is committed, the link is up and the slot's previous occupant has been credited. -/
  | ringRecordWrite (w : Fin 8)
  /-- RESULT_IRQ (R200): MSI-X vector n is signalled after irq_count records or irq_us from the first unsignalled record. -/
  | resultIrq (w : Fin 8)
  /-- RECORD_RETIRE (R180): A record retires: completed in every tile, reported by its unit, or refused; it frees its queue entry and may form a completion. -/
  | recordRetire (w : Fin 8) (q : Nat)
  /-- MATRIX (R75): A matrix record splits its product over the tile set and accumulates in the fixed order. -/
  | matrix (w : Fin 8) (q : Nat) (t : Fin 192)
  /-- OUTPUT_TILE_DRAIN (R79): A finished output tile drains from member 0 and is converted, pushed, added to a span or held. -/
  | outputTileDrain (w : Fin 8) (q : Nat) (t : Fin 192)
  /-- SPLIT_HANDOFF (R167): Member 0 requests and folds the partial sums of each member once both shares are complete. -/
  | splitHandoff (w : Fin 8) (q : Nat) (t : Fin 192)
  /-- TILE_RECORD_COMPLETE (R156): Every write of a record from a tile is acknowledged; the tile increments sem_done, arrives at its barrier and reports completion. -/
  | tileRecordComplete (w : Fin 8) (q : Nat) (t : Fin 192)
  /-- VECTOR_MAP (R134): A map record streams the stage chain over every element and stores the result. -/
  | vectorMap (w : Fin 8) (q : Nat) (t : Fin 192)
  /-- VECTOR_REDUCE (R137): A reduce record reduces the chain results along the chosen axis in fixed order. -/
  | vectorReduce (w : Fin 8) (q : Nat) (t : Fin 192)
  /-- VMAP (R133): A vmap record applies the chain over plain arrays. -/
  | vmap (w : Fin 8) (q : Nat) (t : Fin 192)
  /-- GATHER (R147): A gather record feeds indexed elements through the chain. -/
  | gather (w : Fin 8) (q : Nat) (t : Fin 192)
  /-- SCATTER (R148): A scatter record applies chain results to indexed output elements in ascending order. -/
  | scatter (w : Fin 8) (q : Nat) (t : Fin 192)
  /-- REDUCE_TILE_FOLD (R138): Tile tile_first folds the partial results in tile order once all have arrived, and returns the combined results. -/
  | reduceTileFold (w : Fin 8) (q : Nat)
  /-- CAST_OPEN (R98): An open record appends a new open cast and seals the previous one. -/
  | castOpen (w : Fin 8) (q : Nat)
  /-- CAST_POP (R101): A pop removes the matching top cast and frees its pages. -/
  | castPop (w : Fin 8) (q : Nat)
  /-- CAST_POP_TO (R101): A pop-to shortens the matching top cast and releases the bytes above the new end. -/
  | castPopTo (w : Fin 8) (q : Nat)
  /-- CAST_ARM (R112): An arm binds a derivative drain to the next matching product record of the window. -/
  | castArm (w : Fin 8) (q : Nat)
  /-- PLAN_RESERVE (R118): A plan-reserve record sets the spill reservation from the next boundary. -/
  | planReserve (w : Fin 8) (q : Nat)
  /-- PLAN_LAYER (R118): A plan-layer record sets a layer's cast lengths and cast count from the next boundary. -/
  | planLayer (w : Fin 8) (q : Nat)
  /-- CAST_PAGE_MOVE_DONE (R103): A spill or refill copy lands and the page changes home; the watermarks are tested again. -/
  | castPageMoveDone (t : Fin 192) (p : Nat)
  /-- SEM_SIGNAL (R164): A sem-signal record sends value to semaphore sem of each destination tile. -/
  | semSignal (w : Fin 8) (q : Nat) (t : Fin 192)
  /-- SEM_SIGNAL_ARRIVE (R159): A remote increment reaches a tile's semaphore and is applied in the cycle order. -/
  | semSignalArrive (u : Fin 192)
  /-- SEM_WAIT (R158): A sem-wait record waits for a count of at least n and subtracts n. -/
  | semWait (w : Fin 8) (q : Nat) (t : Fin 192)
  /-- SEM_SET (R158): A sem-set record sets a semaphore to v. -/
  | semSet (w : Fin 8) (q : Nat) (t : Fin 192)
  /-- BAR_ARM (R161): A bar-arm record sets the channel target at dispatch. -/
  | barArm (w : Fin 8) (q : Nat)
  /-- BAR_ARRIVE (R162): A bar-arrive record adds arrivals to the channel count. -/
  | barArrive (w : Fin 8) (q : Nat) (t : Fin 192)
  /-- BARRIER_RELEASE (R163): A release reaches a tile and increments its release count. -/
  | barrierRelease (t : Fin 192) (c : Fin 64)
  /-- BAR_WAIT (R163): A bar-wait record waits for a release count of at least 1 and decrements it. -/
  | barWait (w : Fin 8) (q : Nat) (t : Fin 192)
  /-- SYNC_TIMEOUT (R168): A semaphore or barrier wait outlasts sync_timeout_ms; a completion is written and the wait continues. -/
  | syncTimeout (w : Fin 8) (q : Nat) (t : Fin 192)
  /-- FABRIC_PARITY (R169): A receiver detects a fabric parity error; the step aborts and the abort is announced to the group. -/
  | fabricParity (network : Nat) (tile : Option Nat) (tree : Nat)
  /-- TIER_CREATE (R235): A create record allocates a region, tested against pin_limit_pages or the free pages of its tier. -/
  | tierCreate (w : Fin 8) (q : Nat)
  /-- TIER_FREE (R232): A free record releases a region once no dispatched record uses it. -/
  | tierFree (w : Fin 8) (q : Nat)
  /-- TIER_MOVE (R238): A move record moves pages of an unpinned region to a named tier. -/
  | tierMove (w : Fin 8) (q : Nat)
  /-- STREAM (R248): A stream record appends runs of a region into a staging ring of each tile. -/
  | stream (w : Fin 8) (q : Nat)
  /-- RING_CONFIG (R246): A ring-config record sets a staging ring's base and size and resets its positions. -/
  | ringConfig (w : Fin 8) (q : Nat)
  /-- STREAM_GATE_OPEN (R249): A gated stream of a working-copy region begins filling once the layer's journal no longer blocks it. -/
  | streamGateOpen (w : Fin 8) (q : Nat)
  /-- STAGE_FILL_DONE (R251): A staging page fill lands and waiting reads proceed. -/
  | stageFillDone (w : Fin 8) (q : Nat) (t : Fin 192)
  /-- STAGE_STALL (R253): A weight wait outlasts sync_timeout_ms and stage-stall is raised. -/
  | stageStall (w : Fin 8) (q : Nat) (t : Fin 192)
  /-- PAGE_MOVE_DONE (R238): A page copy lands; its CRC is checked and either the home switches or the copy is repeated. -/
  | pageMoveDone (h p : Nat) (good : Bool) (phys : Nat)
  /-- EVICTION (R237): Free pages below the low mark, or an allocation with none free, evict the oldest unpinned page. -/
  | eviction (upper : Bool)
  /-- HL_COMMIT (R242): The hl_commit action adds a host-lent region to tier T3. -/
  | hlCommit (src : Src) (n : Fin 2) (arg : Nat)
  /-- HL_RECALL (R244): The hl_recall action starts the return of host-lent pages with notice. -/
  | hlRecall (src : Src) (n : Fin 2) (arg : Nat)
  /-- NB_COMMIT (R243): The nb_commit action starts borrowing a neighbour's bank tier. -/
  | nbCommit (src : Src) (arg : Nat)
  /-- LEND_RECALL (R244): The lend_recall action sends a recall frame with lend_notice_ms. -/
  | lendRecall (src : Src) (arg : Nat)
  /-- RECALL_NOTICE_EXPIRY (R244): The recall notice ends; remaining pages are discarded and the state becomes released. -/
  | recallNoticeExpiry (n : Fin 4)
  /-- LENDER_LOST (R245): A link loss, timeout, poison, stall or withdrawal discards every page homed in the lender. -/
  | lenderLost (n : Fin 3)
  /-- BANK_READ_REPLAY (R258): A bank read whose check byte fails is read again after 100 ns, up to three times. -/
  | bankReadReplay (addr : Nat) (u : BankUnit) (reads : List Bytes) (reader : Option (Nat × Nat))
  /-- BANK_WRITE_RETRY (R258): A write reported with a write-CRC error is repeated. -/
  | bankWriteRetry (addr : Nat) (u : BankUnit) (fails : Nat)
  /-- CA_PARITY_ALERT (R258): A command or address parity alert replays the outstanding commands of the channel. -/
  | caParityAlert (c : Fin 16)
  /-- BANK_TEMP_READ (R259): Each memory module's sensor is read every 10 ms; the refresh interval and the bank-hot limits follow. -/
  | bankTempRead (c : Fin 16) (temp : Int)
  /-- SCRUB (R260): The patrol scrub reads bank units as E2 work and writes back those that needed replay. -/
  | scrub (u : BankUnit) (x : UnitReads)
  /-- UPDATE_MAP (R208): A map record sets one segment of a layer's state from the next boundary. -/
  | updateMap (w : Fin 8) (q : Nat)
  /-- UPDATE (R209): An update record arms the layer's pass for the step of its window. -/
  | update (w : Fin 8) (q : Nat)
  /-- RESTORE (R226): A restore record loads a checkpoint image, checks and reinstates each layer. -/
  | restore (w : Fin 8) (q : Nat)
  /-- UPDATE_PASS_START (R209): An armed pass starts once its step and the layer's previous pass have committed. -/
  | updatePassStart (l : Nat) (n : Nat) (ahead : List Nat)
  /-- LAYER_COMMIT (R221): Every tile of a pass is written; norms, ratio and digest are formed and the journal entry is committed. -/
  | layerCommit (l : Nat)
  /-- UPDATE_WATCHDOG (R223): The update watchdog fires; Plinth restarts the processor and recovers unfinished layers. -/
  | updateWatchdog
  /-- UPDATE_MISSING (R209): The wait for a step commit held by a layer lacking an update record outlasts sync_timeout_ms. -/
  | updateMissing
  /-- STEP_COMMIT (R25): The step commits once its gradient chunks, lagged ratios and armed updates are all in place, and the boundary follows. -/
  | stepCommit
  /-- DIGEST_VERDICT (R353): Once the digest copies are in, the verdict is formed: matched, repair of odd members, or rollback. -/
  | digestVerdict
  /-- REPORT (R191): A report record copies data to host memory, or returns eight bytes inline, with count and CRC. -/
  | report (w : Fin 8) (q : Nat) (delivered : Bool)
  /-- STEP (R192): A step record begins a window's records of a step after last_committed_step. -/
  | step (w : Fin 8) (q : Nat)
  /-- AUDIT (R193): An audit record compares the accepted and dispatched CRCs and counts with the host's. -/
  | audit (w : Fin 8) (q : Nat)
  /-- MODE_PREPARE (R347): A prepare stages the mode-block values and sets prep_epoch and prep_step. -/
  | modePrepare (w : Fin 8) (q : Nat)
  /-- MODE_CANCEL (R347): A cancel clears a pending prepare. -/
  | modeCancel (w : Fin 8) (q : Nat)
  /-- COLLECTIVE_OPEN (R336): An open record opens a span of sum pages. -/
  | collectiveOpen (w : Fin 8) (q : Nat)
  /-- COLLECTIVE_REDUCE (R338): A reduce record cuts its span into chunks once earlier dest-2 records retire, and agrees exponents. -/
  | collectiveReduce (w : Fin 8) (q : Nat)
  /-- COLLECTIVE_GATHER (R333): A gather record performs an all-gather or broadcast of byte parts. -/
  | collectiveGather (w : Fin 8) (q : Nat)
  /-- AGREE (R340): An agree record takes the exponent maximum over up to 224 E8 codes in place. -/
  | agree (w : Fin 8) (q : Nat)
  /-- SCALAR (R340): A scalar record reduces up to 224 G16 values through the anchor, with loss and count vector. -/
  | scalar (w : Fin 8) (q : Nat)
  /-- SUM_PAGE_EVICT (R336): With no buffer page free, the least recently touched sum page is homed in tier T1. -/
  | sumPageEvict
  /-- MSG_CAPABILITY (R330): A capability frame is taken and may let in a joiner or flag a member as failed. -/
  | msgCapability (m : Msg)
  /-- MSG_VIEW (R351): A view message carrying a member's reachable set is received. -/
  | msgView (m : Msg)
  /-- MSG_SURVIVORS (R351): The first survivors message naming the member is adopted, and the group is shrunk or the member stops. -/
  | msgSurvivors (m : Msg)
  /-- MSG_ABORT (R505): An abort message for the current step aborts it with the carried cause. -/
  | msgAbort (m : Msg)
  /-- MSG_EXPONENT (R338): The owner takes block exponents and forms the maximum. -/
  | msgExponent (m : Msg)
  /-- MSG_AGREED (R339): A member receives the agreed exponents and converts and sends its block. -/
  | msgAgreed (m : Msg)
  /-- MSG_DATA (R339): The owner adds a contribution into the chunk sums, or discards it as a duplicate. -/
  | msgData (m : Msg)
  /-- MSG_RESULT (R340): A member writes a received result chunk or part. -/
  | msgResult (m : Msg)
  /-- MSG_RESEND (R342): A resend or result request causes kept messages to be sent again. -/
  | msgResend (m : Msg)
  /-- MSG_GATHER (R333): A gather part is received and written. -/
  | msgGather (m : Msg)
  /-- MSG_SCALAR (R340): Scalar values and count parts are received for summation. -/
  | msgScalar (m : Msg)
  /-- MSG_SCALAR_RESULT (R340): A scalar result is received. -/
  | msgScalarResult (m : Msg)
  /-- MSG_DIGEST (R352): A member's digest message is received for the verdict. -/
  | msgDigest (m : Msg)
  /-- MSG_TWIN_DIGEST (R352): The twin's step digest and mode digest are received. -/
  | msgTwinDigest (m : Msg)
  /-- MSG_STATE_PART (R353): Pages of a state transfer are received and written. -/
  | msgStatePart (m : Msg)
  /-- MSG_STATE_DONE (R353): The transfer ends and the layers are checked against the donor digests. -/
  | msgStateDone (m : Msg)
  /-- MSG_LEND (R243): A lend frame adds neighbour pages to tier T3, or marks them lent-out. -/
  | msgLend (m : Msg)
  /-- MSG_RECALL (R244): A recall frame from a neighbour lender starts the recall. -/
  | msgRecall (m : Msg)
  /-- MSG_RELEASE (R244): A release frame returns lent-out pages to the lender's pool. -/
  | msgRelease (m : Msg)
  /-- MSG_WITHDRAWAL (R245): A withdrawal frame makes the lender lost. -/
  | msgWithdrawal (m : Msg)
  /-- MSG_LENT_READ (R243): A lender serves a read of a lent page. -/
  | msgLentRead (m : Msg)
  /-- MSG_LENT_DATA (R243): A borrower receives lent page data. -/
  | msgLentData (m : Msg)
  /-- CAPABILITY_SEND (R329): A capability frame is sent every 1 s while joining, or after a field change. -/
  | capabilitySend
  /-- JOIN_WAIT (R330): After 10 s without every member answering, join-wait is raised. -/
  | joinWait
  /-- MEMBER_FAIL_DETECT (R343): No pace flit from a member for fail_detect_ms marks it failed; the step aborts and the view procedure starts. -/
  | memberFailDetect (m : Fin 512)
  /-- MEMBER_TIMEOUT (R343): No data message from a member for member_wait_ms marks it failed. -/
  | memberTimeout (m : Fin 512)
  /-- CHUNK_WAIT (R345): A chunk waiting chunk_wait_us sends resend requests to missing members. -/
  | chunkWait (w : Fin 8) (q : Nat) (c : Nat)
  /-- RESULT_REQUEST (R345): A member still lacking its result after chunk_wait_us sends a result request. -/
  | resultRequest (w : Fin 8) (q : Nat) (c : Nat)
  /-- VIEW_LEADER_DECIDE (R351): After 2 × fail_detect_ms the view leader intersects the views and sends survivors. -/
  | viewLeaderDecide
  /-- VIEW_MINORITY_TIMEOUT (R351): Named in no survivors message within 4 × fail_detect_ms, a member stops as minority. -/
  | viewMinorityTimeout
  /-- TWIN_WAIT (R354): No twin digest within twin_wait_ms suspends twin comparison and raises twin-late. -/
  | twinWait
  /-- PORT_TRAINING_START (R322): A port begins training at start-up, on leaving LP2 or LP3, or 1 s after a failed attempt. -/
  | portTrainingStart (p : Fin 16)
  /-- FEC_LOCK (R310): FEC locks and the hello exchange begins. -/
  | fecLock (p : Fin 16)
  /-- FEC_LOCK_TIMEOUT (R310): No FEC lock within 50 ms fails the attempt, which restarts. -/
  | fecLockTimeout (p : Fin 16)
  /-- HELLO_RX (R311): A hello flit measures the round trip during training, or sends an up port into retrain. -/
  | helloRx (p : Fin 16) (f : Bytes) (cor unc : Nat)
  /-- DATA_FLIT_RX (R309): An intact in-order data flit is accepted; otherwise it is discarded and a nak is set. -/
  | dataFlitRx (p : Fin 16) (f : Bytes) (cor unc : Nat)
  /-- LINK_WORD_ACK (R311): An ack_seq or nak in a received link word frees flits or starts a go-back-N replay. -/
  | linkWordAck (p : Fin 16) (f : Bytes) (cor unc : Nat)
  /-- CREDIT_FLIT_RX (R307): Cumulative credits are updated, or a bad count is discarded and may retrain the port. -/
  | creditFlitRx (p : Fin 16) (f : Bytes) (cor unc : Nat)
  /-- PACE_MODE_FLIT_RX (R314): A valid pace-mode flit updates its sender's entry. -/
  | paceModeFlitRx (p : Fin 16) (f : Bytes) (cor unc : Nat)
  /-- LLDP_FLIT_RX (R317): An accepted LLDPDU sets the peer identity and the port's result is classified. -/
  | lldpFlitRx (p : Fin 16) (f : Bytes) (cor unc : Nat)
  /-- POWER_FLIT_RX (R305): A power flit announces the partner's requested power state. -/
  | powerFlitRx (p : Fin 16) (f : Bytes) (cor unc : Nat)
  /-- REPLAY_TIMER (R308): The replay timer expires for the oldest unacknowledged flit and a replay starts. -/
  | replayTimer (p : Fin 16)
  /-- ACK_TIMER (R309): 100 ns after accepted flits, an acknowledgement is sent. -/
  | ackTimer (p : Fin 16)
  /-- CREDIT_SEND (R307): A credit flit is sent after 64 flits freed or 1 µs with credits outstanding. -/
  | creditSend (p : Fin 16)
  /-- PACE_MODE_SEND (R313): Every 10 µs a pace-mode flit is sent on the module's plane. -/
  | paceModeSend
  /-- LLDP_SEND (R316): An LLDPDU is sent on entering identity, every 1 s and after a plan change. -/
  | lldpSend (p : Fin 16)
  /-- LLDP_MISSING (R317): No LLDPDU within 5 s, or the identity's TTL expires; the result becomes missing. -/
  | lldpMissing (p : Fin 16)
  /-- LANE_LOSS (R301): A lane losing signal or FEC lock takes the port down, and its traffic moves to other planes. -/
  | laneLoss (p : Fin 16)
  /-- RETRAIN (R310): Replays without progress, an FEC burst or a protocol error puts the port into retrain. -/
  | retrain (p : Fin 16)
  /-- RETRAIN_DONE (R322): A retrain ends and the port is up again, with replay from ack_seq plus 1. -/
  | retrainDone (p : Fin 16)
  /-- RETRAIN_TIMEOUT (R322): A retrain over 10 ms, or a third retrain within 60 s, fails the port. -/
  | retrainTimeout (p : Fin 16)
  /-- LP1_IDLE (R324): No data flit for lp1_idle_us puts the transmit side in LP1. -/
  | lp1Idle (p : Fin 16)
  /-- LP1_EXIT (R324): A ready data flit returns the port to LP0 after 80 ns. -/
  | lp1Exit (p : Fin 16)
  /-- PORT_SLEEP_WRITE (R324): A port_sleep write puts the port in LP2 or LP3, or wakes it. -/
  | portSleepWrite (src : Src) (p : Fin 16) (v : Nat)
  /-- INPUT_OVP (R358): Above 44 V for 1 µs the hardware comparator opens the input switch. -/
  | inputOvp (mv : Nat)
  /-- INPUT_OVP_RELEASE (R358): After 1 s below 40 V the latch releases and start-up begins again. -/
  | inputOvpRelease (mv : Nat)
  /-- INPUT_HIGH (R358): The input in the 40 to 44 V band raises input-high. -/
  | inputHigh (mv : Nat)
  /-- INPUT_LOW (R358): The input in the 30 to 32 V band lowers the cap through the input limit. -/
  | inputLow (mv : Nat)
  /-- INPUT_LOW_PARK (R358): 28 to 30 V for 1 ms parks the module. -/
  | inputLowPark (mv : Nat)
  /-- INPUT_LOW_RESUME (R358): 100 ms at 31 V or more ends the input-low park. -/
  | inputLowResume (mv : Nat)
  /-- POWER_FAIL (R490): Input below 28 V for 10 µs, or removed, sheds load in order and writes the power-fail record. -/
  | powerFail (mv : Nat)
  /-- STANDBY_POWER_GOOD (R467): The standby rails reach power-good; the drone counter starts and a session begins. -/
  | standbyPowerGood (written : Bool)
  /-- BELLOWS_DEMAND (R367): At tick 0 of an epoch each domain sends its demand. -/
  | bellowsDemand (d : Fin 5) (e0 e1 e2 : Nat) (perOp : List Nat)
  /-- BELLOWS_GRANT (R368): At tick 200 Bellows computes grants, deferrals, operating point and duty, and sends them at tick 300. -/
  | bellowsGrant
  /-- GRANT_TAKE_EFFECT (R362): At tick 1000 grants take effect and an operating-point change starts. -/
  | grantTakeEffect
  /-- OP_CHANGE_DONE (R362): The array rail reaches its target and the operating-point change completes. -/
  | opChangeDone
  /-- BELLOWS_TIMEOUT (R367): A domain silent for 3 epochs falls to its floor. -/
  | bellowsTimeout (d : Fin 5)
  /-- BELLOWS_RESTART (R367): No grant for 100 µs drops every domain to its floor and Bellows is restarted. -/
  | bellowsRestart
  /-- ESTIMATOR_UPDATE (R364): Every 1 ms the calibration gain k moves toward measured over estimated power. -/
  | estimatorUpdate (vin iin : List Nat) (act : Activity)
  /-- CAP_CORRECTION (R365): A 100 ms average above the cap reduces the budget by the excess. -/
  | capCorrection
  /-- PACE_CEILING_UPDATE (R373): Every 10 µs the pace ceiling is recomputed from the group's pace entries. -/
  | paceCeilingUpdate
  /-- BACKGROUND_STARVED (R20): E2 work deferred without a break for 100 s raises background-starved. -/
  | backgroundStarved
  /-- SENSOR_SAMPLE (R376): Every 100 µs each pair is sampled, readings are filtered, pair values are formed and Tj is updated. -/
  | sensorSample (j : Fin 24) (a b : Int) (pw : Nat)
  /-- SENSOR_SUSPECT (R376): A pair disagreeing by more than 8 °C for 100 ms becomes suspect. -/
  | sensorSuspect (j : Fin 24)
  /-- SENSOR_REACCEPT (R375): A discarded sensor with 10 ms of clean readings is accepted again. -/
  | sensorReaccept (k : Fin 48)
  /-- THERMAL_CEILING_STEP (R377): Timed steps lower or raise the thermal ceiling and duty against the thresholds. -/
  | thermalCeilingStep
  /-- THERMAL_TRIP (R378): A sensor at its comparator threshold for 20 µs turns off every rail except standby. -/
  | thermalTrip (k : Fin 48)
  /-- NAND_TEMP_READ (R379): Every 100 ms each NAND package temperature is read and programs are deferred as needed. -/
  | nandTempRead (k : Fin 4) (temp : Int)
  /-- TRAY_REPORT (R380): A tray report is accepted or discarded, filtered, and the heat-removal limit and coolant events are updated. -/
  | trayReport (mac : Nat) (pdu : Bytes)
  /-- COOLANT_REPORTS_LOST (R380): 350 ms without an accepted report applies the reports-lost limit. -/
  | coolantReportsLost
  /-- COOLANT_MISMATCH (R382): Heat carried and input power differing by more than 25 % for 10 s raises coolant-mismatch. -/
  | coolantMismatch
  /-- FLOW_LOSS_ASSERT (R383): flow_loss_n, deglitched, asserts the hardware stop line and enters hold. -/
  | flowLossAssert
  /-- FLOW_LOSS_DEASSERT (R384): flow_loss_n deasserts; hold ends once coolant reports qualify. -/
  | flowLossDeassert
  /-- STRETCH_RISE (R389): A region's worst reed margin below a threshold raises its stretch level. -/
  | stretchRise (r : Fin 12) (run : RegionRun)
  /-- STRETCH_STEP_DOWN (R389): 16 cycles at a level with good margin lowers the stretch by one level. -/
  | stretchStepDown (r : Fin 12) (run : RegionRun)
  /-- REED_MASKED (R395): A monitor deviating or stuck for 1 ms is masked; four masked log the tile. -/
  | reedMasked (row : Fin 12) (col : Fin 17) (mon : Fin 4)
  /-- VOLTAGE_LOOP (R396): Every 10 µs the array rail trim is adjusted from the worst margin. -/
  | voltageLoop (w : Nat)
  /-- MARGIN_LOW (R397): Trim at +15 mV with over 1 % stretched cycles in 1 s raises margin-low. -/
  | marginLow (r : Fin 12) (ppm : Nat)
  /-- AGEING_RECORD_WRITE (R398): An ageing record is written at session start, daily, and at margin events. -/
  | ageingRecordWrite
  /-- DRONE_SYNC (R401): Every 65 536 ticks the sync word corrects the drone counter copies. -/
  | droneSync (skewed : List Nat)
  /-- POWERED_TIME_SAVE (R404): Every 60 s the powered seconds are written to service flash. -/
  | poweredTimeSave
  /-- DICT_READ (R418): A read PDU reads every item in one controller cycle and replies. -/
  | dictRead (src : Src) (pdu : Bytes) (held : Nat)
  /-- DICT_WRITE (R418): A write PDU checks and applies items, atomically when requested, and replies. -/
  | dictWrite (src : Src) (pdu : Bytes) (held : Nat)
  /-- LOG_READ (R429): A log read returns up to max consecutive event records. -/
  | logRead (src : Src) (pdu : Bytes) (held : Nat)
  /-- DISCOVER (R418): A discover request returns identity and node items. -/
  | discover (src : Src) (pdu : Bytes) (held : Nat)
  /-- EVENT_IRQ (R432): evt_irq_us after the first unsignalled record, MSI-X vector 8 is signalled. -/
  | eventIrq (p : HostPort)
  /-- MIRROR_REFRESH (R435): Every 100 µs the BAR2 status block is rewritten between odd and even gen. -/
  | mirrorRefresh
  /-- FIELD_LINK_LOST (R422): 1 s without an intact field-network frame raises field-link-lost. -/
  | fieldLinkLost
  /-- MCTP_REASSEMBLY_TIMEOUT (R424): A message not fully received within 100 ms is discarded. -/
  | mctpReassemblyTimeout (p : HostPort)
  /-- SET_ENDPOINT_ID (R424): MCTP Set Endpoint ID assigns the port's EID. -/
  | setEndpointId (p : HostPort) (op : Nat) (eid : Nat)
  /-- GET_ENDPOINT_ID (R424): MCTP Get Endpoint ID returns the EID. -/
  | getEndpointId (p : HostPort)
  /-- GET_MCTP_VERSION_SUPPORT (R424): MCTP Get MCTP Version Support returns the versions supported. -/
  | getMctpVersionSupport (p : HostPort) (mtype : Nat)
  /-- GET_MESSAGE_TYPE_SUPPORT (R424): MCTP Get Message Type Support returns the message types supported. -/
  | getMessageTypeSupport (p : HostPort)
  /-- GET_VENDOR_MESSAGE_SUPPORT (R424): MCTP Get Vendor Defined Message Support returns the vendor support. -/
  | getVendorMessageSupport (p : HostPort) (selector : Nat)
  /-- CUM_CLEAR (R57): Clears the cumulative numerics counters. -/
  | cumClear (src : Src) (arg : Nat)
  /-- MX_CLEAR (R83): Clears the matrix-engine counters. -/
  | mxClear (src : Src) (arg : Nat)
  /-- CAST_CLEAR (R109): Clears the cast-stack counters. -/
  | castClear (src : Src) (arg : Nat)
  /-- VX_CLEAR (R150): Clears the vector-engine counters. -/
  | vxClear (src : Src) (arg : Nat)
  /-- FABRIC_CLEAR (R171): Clears the fabric counters. -/
  | fabricClear (src : Src) (arg : Nat)
  /-- CMD_CLEAR (R200): Clears the command-stream counters. -/
  | cmdClear (src : Src) (arg : Nat)
  /-- UPD_CLEAR (R228): Clears the update counters. -/
  | updClear (src : Src) (arg : Nat)
  /-- TM_CLEAR (R265): Clears the tier counters. -/
  | tmClear (src : Src) (arg : Nat)
  /-- BANK_CLEAR (R265): Clears the bank counters and the channel replay counts. -/
  | bankClear (src : Src) (arg : Nat)
  /-- ST_CLEAR (R299): Clears the store-tier counters. -/
  | stClear (src : Src) (arg : Nat)
  /-- IN_CLEAR (R299): Clears the ingest counters. -/
  | inClear (src : Src) (arg : Nat)
  /-- LINK_CLEAR (R325): Clears a port's link counters. -/
  | linkClear (src : Src) (port : Fin 16) (arg : Nat)
  /-- COLL_CLEAR (R356): Clears the collective counters. -/
  | collClear (src : Src) (arg : Nat)
  /-- PT_CLEAR (R385): Clears the power and thermal counters and pin_peak_w. -/
  | ptClear (src : Src) (arg : Nat)
  /-- CLK_CLEAR (R405): Clears the clock and time counters. -/
  | clkClear (src : Src) (arg : Nat)
  /-- DICT_CLEAR (R441): Clears the dictionary counters. -/
  | dictClear (src : Src) (arg : Nat)
  /-- CW_CLAIM (R196): Claim value 1 takes a closed window. -/
  | cwClaim (src : Src) (w : Fin 8) (port : Nat)
  /-- CW_TAKEOVER (R198): Claim value 2 takes a window whose lease has expired or whose owner link is down, then enters handover. -/
  | cwTakeover (src : Src) (w : Fin 8) (port : Nat)
  /-- CW_FORCED_TAKEOVER (R196): Claim value 3 takes the window in any case and raises ownership-forced. -/
  | cwForcedTakeover (src : Src) (w : Fin 8) (port : Nat)
  /-- CW_RELEASE (R196): Claim value 4 from the owner releases the window once its queue empties. -/
  | cwRelease (src : Src) (w : Fin 8) (port : Nat)
  /-- CW_RELEASE_DONE (R196): The queue of a released window empties and the window closes. -/
  | cwReleaseDone (w : Fin 8)
  /-- CW_RESUME (R194): cw_control 1 reopens a halted window. -/
  | cwResume (src : Src) (w : Fin 8)
  /-- CW_RESET (R195): cw_control 2 discards undispatched records and clears slots, aborting the step where needed. -/
  | cwReset (src : Src) (w : Fin 8)
  /-- CW_HALT (R194): cw_control 3 halts the window. -/
  | cwHalt (src : Src) (w : Fin 8)
  /-- LEASE_RENEW (R197): cw_control 4 renews the owner's lease. -/
  | leaseRenew (src : Src) (w : Fin 8)
  /-- OWNER_LEASE_EXPIRED (R197): No renewal for cw_lease_ms raises owner-lease-expired. -/
  | ownerLeaseExpired (w : Fin 8)
  /-- STEP_ABORT (R194): The step_abort action aborts the step in progress with cause 0x91. -/
  | stepAbort (src : Src) (arg : Nat)
  /-- RING_COMMIT (R198): ring_commit applies the ring base and order and, after a takeover, re-sends retained records. -/
  | ringCommit (src : Src) (w : Fin 8) (arg : Nat)
  /-- SZ_RESET (R274): sz_reset erases a stream zone and sets its write pointer to 0. -/
  | szReset (src : Src) (z : Fin 4) (arg : Nat)
  /-- SETTINGS_SAVE (R413): settings_save writes the persistent values to service flash in two copies. -/
  | settingsSave (src : Src) (arg : Nat)
  /-- SETTINGS_SAVE_DONE (R413): The read-back of a save succeeds or fails twice, ending the save. -/
  | settingsSaveDone (good : Bool)
  /-- SETTINGS_DEFAULTS (R412): settings_defaults sets every persistent object to its default. -/
  | settingsDefaults (src : Src) (arg : Nat)
  /-- FLAGS_CLEAR (R430): flags_clear clears the masked event flag bits of a block. -/
  | flagsClear (src : Src) (block : Nat) (mask : Nat)
  /-- FW_CONFIRM (R453): fw_confirm confirms a trial image where no step runs. -/
  | fwConfirm (src : Src) (arg : Nat)
  /-- FW_REVERT (R452): fw_revert activates the previous slot. -/
  | fwRevert (src : Src) (arg : Nat)
  /-- ACT_TICK_WRITE (R449): A write of act_tick schedules or cancels a local activation. -/
  | actTickWrite (src : Src) (v : Nat)
  /-- LOCAL_ACTIVATION_TICK (R449): The named drone tick is reached; dispatch is held until the module can activate. -/
  | localActivationTick
  /-- FW_ACTIVATION (R450): An activation holds dispatch, completes passes, restarts the domains and resumes. -/
  | fwActivation
  /-- TRIAL_TIMEOUT (R452): Not operational within 30 s of activation, the module reverts. -/
  | trialTimeout
  /-- BOOT (R447): At a domain start the boot ROM selects the record, verifies the slot, measures and loads. -/
  | boot
  /-- PLDM_QUERY_DEVICE_IDENTIFIERS (R446): PLDM QueryDeviceIdentifiers returns the device identifiers. -/
  | pldmQueryDeviceIdentifiers (p : HostPort)
  /-- PLDM_GET_FIRMWARE_PARAMETERS (R446): PLDM GetFirmwareParameters returns the slot parameters. -/
  | pldmGetFirmwareParameters (p : HostPort)
  /-- PLDM_REQUEST_UPDATE (R446): PLDM RequestUpdate starts an update unless an activation or another update prevents it. -/
  | pldmRequestUpdate (p : HostPort)
  /-- PLDM_PASS_COMPONENT_TABLE (R446): PLDM PassComponentTable accepts the single image component. -/
  | pldmPassComponentTable (p : HostPort)
  /-- PLDM_UPDATE_COMPONENT (R446): PLDM UpdateComponent begins the transfer and makes the inactive slot receiving. -/
  | pldmUpdateComponent (p : HostPort) (size : Nat)
  /-- PLDM_FIRMWARE_DATA (R446): Firmware data returned for RequestFirmwareData is written into the inactive slot. -/
  | pldmFirmwareData (p : HostPort) (off : Nat) (data : Bytes)
  /-- PLDM_GET_STATUS (R446): PLDM GetStatus returns the update status. -/
  | pldmGetStatus (p : HostPort)
  /-- PLDM_CANCEL_UPDATE_COMPONENT (R446): PLDM CancelUpdateComponent cancels the transfer and leaves the slot empty. -/
  | pldmCancelUpdateComponent (p : HostPort)
  /-- PLDM_CANCEL_UPDATE (R446): PLDM CancelUpdate ends the update. -/
  | pldmCancelUpdate (p : HostPort)
  /-- PLDM_ACTIVATE_FIRMWARE (R446): PLDM ActivateFirmware is acknowledged and changes nothing. -/
  | pldmActivateFirmware (p : HostPort)
  /-- SPDM_GET_CERTIFICATE (R456): SPDM returns the certificate chain of slot 0. -/
  | spdmGetCertificate (p : HostPort)
  /-- SPDM_CHALLENGE (R456): SPDM CHALLENGE is answered, signed by the alias key. -/
  | spdmChallenge (p : HostPort)
  /-- SPDM_GET_MEASUREMENTS (R457): SPDM returns the measurement blocks, signed. -/
  | spdmGetMeasurements (p : HostPort)
  /-- SPDM_KEY_EXCHANGE (R456): SPDM KEY_EXCHANGE opens a secured session with ECDHE. -/
  | spdmKeyExchange (p : HostPort)
  /-- SPDM_HEARTBEAT (R456): SPDM HEARTBEAT keeps a secured session alive. -/
  | spdmHeartbeat (p : HostPort)
  /-- IDE_KM (R461): IDE_KM programs or refreshes a port's IDE stream keys. -/
  | ideKm (p : HostPort) (op : Fin 3) (key : Bytes)
  /-- IDE_STOPPED (R461): An owner port's IDE stream stops; the port's link is treated as down. -/
  | ideStopped (p : HostPort)
  /-- DUAL_REPORT (R458): A vendor request with a nonce returns a report signed with ECDSA and HSS. -/
  | dualReport (p : HostPort) (nonce : Bytes)
  /-- VENDOR_TEST_NONCE (R462): In the service state the module issues a fresh unlock nonce. -/
  | vendorTestNonce (p : HostPort)
  /-- VENDOR_TEST_UNLOCK (R462): A valid unlock token erases the stores and enters the vendor test state. -/
  | vendorTestUnlock (p : HostPort) (token : Bytes)
  /-- SAMPLE (R292): An ingest sample record shuffles, reads, decodes and forms the patches of one sample. -/
  | sample (w : Fin 8) (q : Nat)
  /-- FETCH (R297): A fetch record copies a sample's checked bytes into a sample-cache region. -/
  | fetch (w : Fin 8) (q : Nat)
  /-- PROFILE (R291): A profile record sets one of 16 patch-former profiles. -/
  | profile (w : Fin 8) (q : Nat)
  /-- ENGINE_CONFIG (R290): An engine-config record sets the decoder work region and eng_pages. -/
  | engineConfig (w : Fin 8) (q : Nat)
  /-- APPEND (R272): An append record writes host data at a stream zone's write pointer. -/
  | append (w : Fin 8) (q : Nat) (data : Bytes)
  /-- DRAIN (R278): A drain record moves a checkpoint image from tier T1 to tier T2. -/
  | drain (w : Fin 8) (q : Nat)
  /-- SAMPLE_COMPLETE (R293): The patches of a sample land, and sem_done is incremented per tile. -/
  | sampleComplete (w : Fin 8) (q : Nat)
  /-- DECODER_STALL (R289): An engine without progress for 100 ms is reset, and its sample restarts. -/
  | decoderStall (k : Fin 16)
  /-- APPEND_DONE (R272): Every row of an append is programmed and the record completes. -/
  | appendDone (w : Fin 8) (q : Nat)
  /-- DRAIN_COMPLETE (R278): The last page lands and the catalogue entry is written; the checkpoint is taken. -/
  | drainComplete (w : Fin 8) (q : Nat)
  /-- STRIPE_ROW_PROGRAMMED (R270): A stripe row with its parity is programmed and its page writes are acknowledged. -/
  | stripeRowProgrammed (zone : Option (Fin 4)) (pages : List (Nat × Nat))
  /-- FLASH_READ_FAIL (R267): A unit failing LDPC after read-retry is rebuilt from parity or is uncorrectable. -/
  | flashReadFail (u : FlashUnit) (die : Fin 256) (block : Fin 1024) (retry : FlashRetry)
  /-- GARBAGE_COLLECTION (R270): Space in the general zones is reclaimed as E2 work. -/
  | garbageCollection (stripe : Fin 1024) (rows : Nat)
  /-- WEAR_LEVEL_COPY (R275): Erase counts differing by over 200 copy the colder block into the hotter spare. -/
  | wearLevelCopy (die : Fin 256) (cold hot : Fin 1024)
  /-- READ_DISTURB_REFRESH (R276): A block at rd_limit reads, or past retention_days, is refreshed. -/
  | readDisturbRefresh (die : Fin 256) (block : Fin 1024)
  /-- POWER_UP_READ_SCAN (R276): After power-up one unit of every block is read and weak blocks are refreshed. -/
  | powerUpReadScan (weak : List (Nat × Nat))
  /-- TRAY_READY_DEASSERT (R477): tray_ready deasserts while running; the module parks and raises tray-withdrawn. -/
  | trayReadyDeassert
  /-- TRAY_READY_ASSERT (R477): tray_ready asserts; start-up proceeds or the park ends. -/
  | trayReadyAssert
  /-- MOD_RESET (R478): An effective mod_reset_n turns off every rail except standby; on release start-up runs from stage 2. -/
  | modReset
  /-- PERST_ASSERT (R471): x_perst_n asserts; that port's link goes down and its controller is held in reset. -/
  | perstAssert (p : HostPort)
  /-- PERST_RELEASE (R471): x_perst_n releases and link training starts. -/
  | perstRelease (p : HostPort)
  /-- SLOT_ID_SAMPLE (R476): slot_id is sampled until three samples agree, or slot 0 is taken after 1 s. -/
  | slotIdSample (v : Fin 64)
  /-- STARTUP_STAGE_DONE (R486): A start-up stage ends and the next begins; after stage 8 the module is operational. -/
  | startupStageDone (bad : List Nat)
  /-- STARTUP_STAGE_FAULT (R487): A stage fails or overruns; the rails go off, with a retry or the service state. -/
  | startupStageFault (reason : Nat)
  /-- STARTUP_RETRY (R487): 1 s after a stage fault, start-up retries from stage 2. -/
  | startupRetry
  /-- HELLO_EXCHANGE_TIMEOUT (R310): The hello exchange does not finish within 1 ms after FEC lock, so the training attempt fails and the port goes down. -/
  | helloExchangeTimeout (p : Fin 16)
  /-- HOST_LINK_DOWN (R196): A host port's PCI Express link goes down without x_perst_n, so link_state falls, ring writes pause, takeover becomes grantable and a lent region is lost. -/
  | hostLinkDown (p : HostPort)
  /-- HOST_LINK_UP (R186): A host port's link training completes, so link_state reads up and retained ring records and reports may be written through it. -/
  | hostLinkUp (p : HostPort) (rate width : Nat)
  /-- MOD_RESET_RELEASE (R478): mod_reset_n is released, pending tiles are retired and start-up runs from stage 2, waiting if flow_loss_n is asserted. -/
  | modResetRelease
  /-- DOE_DISCOVERY (R456): A DOE Discovery request on a host port's mailbox is answered with the protocols it supports. -/
  | doeDiscovery (p : HostPort) (i : Nat)
  /-- SPDM_GET_VERSION (R456): An SPDM GET_VERSION request is answered with versions 1.2 and 1.3. -/
  | spdmGetVersion (p : HostPort)
  /-- SPDM_GET_CAPABILITIES (R456): An SPDM GET_CAPABILITIES request is answered with the capabilities of Table 16.6. -/
  | spdmGetCapabilities (p : HostPort)
  /-- SPDM_NEGOTIATE_ALGORITHMS (R456): An SPDM NEGOTIATE_ALGORITHMS request selects P-384, SHA-384, secp384r1 and AES-256-GCM. -/
  | spdmNegotiateAlgorithms (p : HostPort)
  /-- SPDM_GET_DIGESTS (R456): An SPDM GET_DIGESTS request returns the digest of the slot 0 certificate chain. -/
  | spdmGetDigests (p : HostPort)
  /-- SPDM_FINISH (R456): An SPDM FINISH request completes the secured session that KEY_EXCHANGE began. -/
  | spdmFinish (p : HostPort)
  /-- SPDM_END_SESSION (R456): An SPDM END_SESSION request closes a secured session. -/
  | spdmEndSession (p : HostPort)
  /-- SPDM_HEARTBEAT_TIMEOUT (R456): A secured session whose heartbeat period passes without a HEARTBEAT is terminated. -/
  | spdmHeartbeatTimeout (p : HostPort)
  deriving DecidableEq, Repr

end Sys2Proof
end

