-- ==== Sys2Proof/Config.lean ====
section
/-! DEFINITION. What the manual leaves open, as constants with no value: each is a free value of the model, and a statement
proved here holds for every choice of it. Each names its entry of the assumption log. -/
namespace Sys2Proof.Config

/-- The element code at index `i` of a NaN block (R40, R41): the manual fixes the scale code 255 and the counting, not the
codes beneath it. Arguments: format number, the block's source values, index. (DESIGN CHOICE: free value, log entry 10.) -/
opaque nanBlockCode : Nat → List Int → Nat → Nat

/-- The values set at the factory or kept in one-time-programmable memory (R438 and the objects "Set at factory"): part of the
module, not of the manual. The argument is the object's key. (DESIGN CHOICE: free value, log entry 11.) -/
opaque factory : Nat → Nat

/-- The factory strings: serial (12 characters) and lot (R438), by key. (DESIGN CHOICE: free value, log entry 11.) -/
opaque factoryStr : Nat → List (BitVec 8)

/-- The transaction number of an event notice (R418 gives a notice no request to take it from), by event sequence.
(DESIGN CHOICE: free value, log entry 12.) -/
opaque noticeTid : Nat → Nat

/-- What a read of an uncorrectable bank-tier unit returns, by region address: the manual fixes the record's status and no content
(R261). (DESIGN CHOICE: free value, log entry 13.) -/
opaque lostByte : Nat → BitVec 8

/-- A sample as a decoder sees it: codec (Table 10.3) and elementary stream. -/
structure Stream where
  codec : Nat
  bytes : List (BitVec 8)
  deriving DecidableEq, Repr

/-- What a stream signals under its codec's standard, and what its decoder finds (R284 to R290). -/
structure DecInfo where
  /-- A non-conformance that the decoder detects (R285). -/
  broken : Bool
  /-- The profile, in the order of Table 10.4 and after those listed the others; the level, times ten for AVC, HEVC and AV1 and 0 Low to 3
  High for MPEG-2; and does the stream use a tool that the last column of Table 10.4 excludes? -/
  profile : Nat
  level : Nat
  tools : Bool
  /-- 0 monochrome, 1 4:2:0, 2 4:2:2, 3 4:4:4; bits of a sample. -/
  chroma : Nat
  depth : Nat
  /-- Size of a coded picture, for AV1 after super-resolution, and the conformance cropping window in it: first column and row, and size. -/
  codedW : Nat
  codedH : Nat
  cropX : Nat
  cropY : Nat
  cropW : Nat
  cropH : Nat
  /-- Signalled maximum picture buffering, MatrixCoefficients where signalled, full range. -/
  buffers : Nat
  matrix : Option Nat
  full : Bool
  /-- Coded frames from the start of the sample. -/
  coded : Nat
  deriving DecidableEq, Repr

/-- What the codec standards, which the manual names and does not hold, find in a stream (R284, R285). The last argument numbers the
fields. (DESIGN CHOICE: free value, log entry 40.) -/
opaque decNum : Stream → Nat → Nat

/-- The free values of `decNum`, one for each field. -/
def decInfo (x : Stream) : DecInfo :=
  let f := decNum x
  { broken := f 0 % 2 == 1, profile := f 1, level := f 2, tools := f 3 % 2 == 1, chroma := f 4 % 4, depth := f 5, codedW := f 6, codedH := f 7,
    cropX := f 8, cropY := f 9, cropW := f 10, cropH := f 11, buffers := f 12, matrix := if f 13 = 0 then none else some (f 13 - 1),
    full := f 14 % 2 == 1, coded := f 15 }

/-- Of a coded frame, by its place in output order: is it a leading picture that references data before the random access point (0), and is
it coded as fields (1)? (DESIGN CHOICE: free value, log entry 40.) -/
opaque frameIs : Stream → Nat → Nat → Bool

/-- A decoded sample: coded frame, field (0 the frame itself or its top field, 1 its bottom field), plane (0 Y, 1 Cb, 2 Cr), column and row, by
the standard's decoding process: the inverse DCT of ISO/IEC 23002-2 for MPEG-2, without AV1 film grain (R285). (DESIGN CHOICE: free value,
log entry 40.) -/
opaque sample : Stream → Nat → Nat → Nat → Nat → Nat → Nat

/-- Pictures a decoder decodes, leading ones included, to output as many as the last argument says, 0 for a sample that fails
(Table 10.11). (DESIGN CHOICE: free value, log entry 40.) -/
opaque pictures : Stream → Nat → Nat

/-- fmt_since of a persistent object: the dictionary version in which its stored format last changed, by the image's fw_version and the
object's key (R454). (DESIGN CHOICE: free value, log entry 60.) -/
opaque fmtSince : Nat → Nat → Nat

/-- SHA-384 (FIPS 180-4) and SHA-256 of a byte string, as the number its little-endian bytes spell: the manual names the standards and does
not hold them. (DESIGN CHOICE: free value, log entry 61.) -/
opaque sha384 : List (BitVec 8) → Nat
opaque sha256 : List (BitVec 8) → Nat

/-- Does a signature verify: public key, message, signature, under ECDSA P-384 with SHA-384 (FIPS 186-5) and under LMS (RFC 8554)?
(DESIGN CHOICE: free value, log entry 61.) -/
opaque ecdsaOk : List (BitVec 8) → List (BitVec 8) → List (BitVec 8) → Bool
opaque lmsOk : List (BitVec 8) → List (BitVec 8) → List (BitVec 8) → Bool

/-- A signature of the device: key (0 IDevID, 1 device LMS key, 2 alias), leaf or draw, message. (DESIGN CHOICE: free value, log entry 61.) -/
opaque signature : Nat → Nat → List (BitVec 8) → List (BitVec 8)

/-- The bytes of a response that the SPDM, DOE and PLDM standards or a random generator fix: kind of response, draw.
(DESIGN CHOICE: free value, log entry 62.) -/
opaque response : Nat → Nat → List (BitVec 8)

/-- The boot ROM's digest, the IDevID certificate and the vendor key hashes in one-time-programmable memory (Table 16.1), by scheme
(0 ECDSA, 1 LMS) and position. (DESIGN CHOICE: free value, log entry 11.) -/
opaque romHash : Nat
opaque idevidCert : List (BitVec 8)
opaque keyHash : Nat → Nat → Nat

/-- The image a slot holds from the factory, by slot and byte. (DESIGN CHOICE: free value, log entry 11.) -/
opaque factoryImage : Nat → Nat → BitVec 8

/-- Does a fuse read burnt at an attempt: fuse (0 to 63 fw_svn, 64 to 71 revocation), draw? (DESIGN CHOICE: free value, log entry 63.) -/
opaque fuseBurns : Nat → Nat → Bool

/-- A fresh 32-byte nonce, by draw (R462). (DESIGN CHOICE: free value, log entry 62.) -/
opaque nonce : Nat → Nat

/-- The region nearest to the core–Chisel edge (0) and to the core–Plinth edge (1), Table 13.9. (DESIGN CHOICE: free value, log entry 70.) -/
opaque edgeRegion : Nat → Nat

/-- The floors of the power domains in watts (Table 13.6), by domain. (DESIGN CHOICE: free value, log entry 71.) -/
opaque floorW : Nat → Nat

/-- Energy of one count in pJ, fixed at factory test: domain, and the place of the count in the list that R363 gives. (DESIGN CHOICE:
free value, log entry 124.) -/
opaque energyCoeff : Nat → Nat → Nat

/-- The leakage term of a domain's estimate in µW, computed from its rail's voltage in mV and the temperatures of its pairs in °C × 10
(R363). (DESIGN CHOICE: free value, log entry 124.) -/
opaque leakage : Nat → Nat → List Int → Nat

/-- What lies past the end of a table's region where its scales run past it, by region address (R503). (DESIGN CHOICE: free value, log
entry 127.) -/
opaque pastEnd : Nat → BitVec 8

/-- Port cycles a vector record loses beside a product, by draw (R130). (DESIGN CHOICE: free value, log entry 72.) -/
opaque portLost : Nat → Nat
/-- Sender cycles waited for a queue credit at a crossing of the array (0xA090.03), by draw: the manual gives no number. (DESIGN CHOICE: free
value, log entry 129.) -/
opaque creditStalls : Nat → Nat

/-- The physical page of tier T1 that the page map chose for a page when it was allocated, by handle × 2^32 + page (R257). (DESIGN CHOICE:
free value, log entry 51.) -/
opaque physPage : Nat → Nat

/-- Does a read of a page of the general zones miss the cache of their page map, by draw (R270)? (DESIGN CHOICE: free value, log entry
128.) -/
opaque mapMiss : Nat → Bool

/-- The step (0) and the step digest (1) that stand in an image region which no pass has written, by its handle: its content is undefined
(R255). (DESIGN CHOICE: free value, log entry 130.) -/
opaque emptyImage : Nat → Nat → Nat

/-- What a decode engine leaves in its pages of the work region, by draw and byte (R290). (DESIGN CHOICE: free value, log entry 40.) -/
opaque workByte : Nat → Nat → BitVec 8

end Sys2Proof.Config
end

