-- ==== Sys2Proof/Machine/Tab.lean ====
section
/-! DEFINITION. Sparse tables in one canonical form: a list of (key, value) pairs with keys strictly rising and, beside a
default, no entry that equals the default. Equal tables are equal data. Memories, register files indexed by a number and the
object dictionary are all tables of this one kind. -/
namespace Sys2Proof.Machine

/-- A sparse table: sorted pairs. A memory is a `Tab Byte`, a list of `Host.Cell`. -/
abbrev Tab (α : Type) := List (Nat × α)

/-- The value listed at key `k`, if one is. -/
def Tab.find {α : Type} : Tab α → Nat → Option α
  | [], _ => none
  | (j, v) :: m, k => if j = k then some v else Tab.find m k

/-- List `v` at key `k`, in order, in place of any entry there. -/
def Tab.insert {α : Type} : Tab α → Nat → α → Tab α
  | [], k, v => [(k, v)]
  | (j, w) :: m, k, v =>
    if j = k then (k, v) :: m else if k < j then (k, v) :: (j, w) :: m else (j, w) :: Tab.insert m k v

/-- Remove the entry at key `k`, if there is one. -/
def Tab.erase {α : Type} (m : Tab α) (k : Nat) : Tab α := m.filter fun e => e.1 ≠ k

/-- The value at key `k`, `d` where nothing is listed. -/
def Tab.get {α : Type} (d : α) (m : Tab α) (k : Nat) : α := (m.find k).getD d

/-- Set key `k` to `v`; setting the default removes the entry, which keeps the form canonical. -/
def Tab.set {α : Type} [DecidableEq α] (d : α) (m : Tab α) (k : Nat) (v : α) : Tab α :=
  if v = d then m.erase k else m.insert k v

/-- Apply `f` to the value at key `k`. -/
def Tab.upd {α : Type} [DecidableEq α] (d : α) (m : Tab α) (k : Nat) (f : α → α) : Tab α :=
  m.set d k (f (m.get d k))

/-- The keys listed, rising. -/
def Tab.keys {α : Type} (m : Tab α) : List Nat := m.map Prod.fst

/-- The canonical form: keys strictly rising, no entry equal to the default. -/
abbrev Tab.wf {α : Type} [DecidableEq α] (d : α) (m : Tab α) : Prop :=
  m.Pairwise (fun a b => a.1 < b.1) ∧ ∀ e ∈ m, e.2 ≠ d

end Sys2Proof.Machine
end

