-- ==== Sys2Proof/Machine/Objects.lean ====
section
/-! DEFINITION. The object dictionary's table (R406 to R408, R437): every object's address, type, access class, default and
range, chapter by chapter as the manual's object tables give them, and the key of each object in the state's table of values.
A key is index * 256 + subindex. Values are numbers: two's complement for I32, little-endian for BLOB. -/
namespace Sys2Proof.Machine

/-- Object types (Table 15.1). -/
inductive ObjTy where
  | u8 | u16 | u32 | u64 | i32 | h16 | bool | enum | str | blob | action
  deriving DecidableEq, Repr

/-- Access classes (Table 15.2); RWL objects stand in range 0xF000 alone and are tested by index (R439). -/
inductive ObjAcc where
  | ro | rw | rws | wa
  deriving DecidableEq, Repr

/-- What an object holds before anything sets it: a number, its own subindex less one, its index's offset in the range, a
factory value (R438), or the field network's MAC address (R422). -/
inductive ObjDflt where
  | const (n : Nat) | sub1 | idx | factory | fldMac
  deriving DecidableEq, Repr

/-- The values a write may carry (the Range column). -/
inductive ObjRng where
  | any
  | span (lo hi : Nat)
  | spanOr (lo hi : Nat) (others : List Nat)
  | mult (n : Nat)
  | claim
  deriving DecidableEq, Repr

/-- One row of an object table: the objects at indices `i0` to `i1`, subindices `s0` to `s1`. -/
structure ObjRow where
  i0 : Nat
  i1 : Nat
  s0 : Nat
  s1 : Nat
  ty : ObjTy
  acc : ObjAcc
  dflt : ObjDflt
  rng : ObjRng
  deriving DecidableEq, Repr

/-- The objects of chapter 2. -/
def objRows2 : List ObjRow := [
  ⟨0x7010, 0x7010, 0x01, 0x01, .u64, .ro, .const 0, .any⟩,
  ⟨0x7010, 0x7010, 0x02, 0x02, .u64, .ro, .const 0, .any⟩,
  ⟨0x7010, 0x7010, 0x03, 0x03, .u64, .ro, .const 0, .any⟩,
  ⟨0x7010, 0x7010, 0x04, 0x04, .u64, .ro, .const 0, .any⟩,
  ⟨0x7010, 0x7010, 0x05, 0x05, .action, .wa, .const 0, .span 1 1⟩,
  ⟨0x7020, 0x7020, 0x01, 0xff, .u64, .ro, .const 0, .any⟩,
  ⟨0x7021, 0x7021, 0x01, 0xff, .u64, .ro, .const 0, .any⟩,
  ⟨0x7022, 0x7022, 0x01, 0x01, .u64, .ro, .const 0, .any⟩]

/-- The objects of chapter 3. -/
def objRows3 : List ObjRow := [
  ⟨0x1020, 0x1020, 0x01, 0x0c, .u8, .ro, .const 0xFF, .any⟩,
  ⟨0x1020, 0x1020, 0x0d, 0x0d, .u8, .ro, .const 0, .any⟩,
  ⟨0xa010, 0xa010, 0x01, 0x01, .u64, .ro, .const 0, .any⟩,
  ⟨0xa010, 0xa010, 0x02, 0x02, .u64, .ro, .const 0, .any⟩,
  ⟨0xa010, 0xa010, 0x03, 0x03, .u64, .ro, .const 0, .any⟩,
  ⟨0xa010, 0xa010, 0x04, 0x04, .u32, .ro, .const 0, .any⟩,
  ⟨0xa010, 0xa010, 0x05, 0x05, .action, .wa, .const 0, .span 1 1⟩,
  ⟨0x7023, 0x7023, 0x01, 0xff, .u64, .ro, .const 0, .any⟩,
  ⟨0x7024, 0x7024, 0x01, 0xff, .u64, .ro, .const 0, .any⟩,
  ⟨0x7025, 0x7025, 0x01, 0xff, .u64, .ro, .const 0, .any⟩,
  ⟨0x7030, 0x7030, 0x01, 0x01, .h16, .rws, .const 8192, .span 1024 16384⟩,
  ⟨0x7030, 0x7030, 0x02, 0x02, .h16, .rws, .const 12288, .span 1024 16384⟩,
  ⟨0x7030, 0x7030, 0x03, 0x03, .u32, .rws, .const 1024, .span 16 65535⟩,
  ⟨0x7030, 0x7030, 0x04, 0x04, .bool, .rws, .const 1, .span 0 1⟩,
  ⟨0x7031, 0x7031, 0x01, 0xff, .enum, .rws, .const 0, .span 0 2⟩,
  ⟨0x7032, 0x7032, 0x01, 0xff, .enum, .ro, .const 0, .any⟩,
  ⟨0x7033, 0x7033, 0x01, 0xff, .u32, .ro, .const 0, .any⟩,
  ⟨0x7034, 0x7034, 0x01, 0x01, .u16, .ro, .const 0, .any⟩]

/-- The objects of chapter 4. -/
def objRows4 : List ObjRow := [
  ⟨0x6040, 0x6040, 0x01, 0x01, .u8, .rw, .const 12, .span 4 15⟩,
  ⟨0x6040, 0x6040, 0x02, 0x02, .u8, .rw, .const 8, .span 1 14⟩,
  ⟨0x6040, 0x6040, 0x03, 0x03, .u8, .rw, .const 4, .span 1 8⟩,
  ⟨0x6040, 0x6040, 0x04, 0x04, .u32, .ro, .const 0, .any⟩,
  ⟨0x6040, 0x6040, 0x05, 0x05, .u32, .ro, .const 0, .any⟩,
  ⟨0xa018, 0xa018, 0x01, 0x01, .u64, .ro, .const 0, .any⟩,
  ⟨0xa018, 0xa018, 0x02, 0x02, .u64, .ro, .const 0, .any⟩,
  ⟨0xa018, 0xa018, 0x03, 0x03, .u64, .ro, .const 0, .any⟩,
  ⟨0xa018, 0xa018, 0x04, 0x04, .u64, .ro, .const 0, .any⟩,
  ⟨0xa018, 0xa018, 0x05, 0x05, .u64, .ro, .const 0, .any⟩,
  ⟨0xa018, 0xa018, 0x06, 0x06, .u32, .ro, .const 0, .any⟩,
  ⟨0xa018, 0xa018, 0x07, 0x07, .action, .wa, .const 0, .span 1 1⟩,
  ⟨0x7035, 0x7035, 0x01, 0x01, .u16, .ro, .const 0, .any⟩,
  ⟨0x7035, 0x7035, 0x02, 0x02, .u64, .ro, .const 1048576, .any⟩,
  ⟨0x7035, 0x7035, 0x03, 0x03, .u64, .ro, .const 0, .any⟩]

/-- The objects of chapter 5. -/
def objRows5 : List ObjRow := [
  ⟨0xa014, 0xa014, 0x01, 0x01, .u64, .ro, .const 0, .any⟩,
  ⟨0xa014, 0xa014, 0x02, 0x02, .u64, .ro, .const 0, .any⟩,
  ⟨0xa014, 0xa014, 0x03, 0x03, .u64, .ro, .const 0, .any⟩,
  ⟨0xa014, 0xa014, 0x04, 0x04, .u32, .ro, .const 0, .any⟩,
  ⟨0xa014, 0xa014, 0x05, 0x05, .u64, .ro, .const 0, .any⟩,
  ⟨0xa014, 0xa014, 0x06, 0x06, .u64, .ro, .const 0, .any⟩,
  ⟨0xa014, 0xa014, 0x07, 0x07, .action, .wa, .const 0, .span 1 1⟩]

/-- The objects of chapter 6. -/
def objRows6 : List ObjRow := [
  ⟨0x4870, 0x4870, 0x01, 0x01, .u32, .rw, .const 10000, .span 100 600000⟩,
  ⟨0xa01c, 0xa01c, 0x01, 0x01, .u64, .ro, .const 0, .any⟩,
  ⟨0xa01c, 0xa01c, 0x02, 0x02, .u64, .ro, .const 0, .any⟩,
  ⟨0xa01c, 0xa01c, 0x03, 0x03, .u64, .ro, .const 0, .any⟩,
  ⟨0xa01c, 0xa01c, 0x04, 0x04, .u64, .ro, .const 0, .any⟩,
  ⟨0xa01c, 0xa01c, 0x05, 0x05, .u32, .ro, .const 0, .any⟩,
  ⟨0xa01c, 0xa01c, 0x06, 0x06, .u32, .ro, .const 0, .any⟩,
  ⟨0xa01c, 0xa01c, 0x07, 0x07, .u32, .ro, .const 0, .any⟩,
  ⟨0xa01c, 0xa01c, 0x08, 0x08, .action, .wa, .const 0, .span 1 1⟩]

/-- The objects of chapter 7. -/
def objRows7 : List ObjRow := [
  ⟨0x4001, 0x4002, 0x01, 0x01, .enum, .ro, .const 0, .any⟩,
  ⟨0x4001, 0x4002, 0x02, 0x02, .enum, .ro, .const 0, .any⟩,
  ⟨0x4001, 0x4002, 0x03, 0x03, .u8, .ro, .const 0, .any⟩,
  ⟨0x4010, 0x4017, 0x01, 0x01, .enum, .ro, .const 0, .any⟩,
  ⟨0x4010, 0x4017, 0x02, 0x02, .action, .wa, .const 0, .claim⟩,
  ⟨0x4010, 0x4017, 0x03, 0x03, .enum, .ro, .const 0, .any⟩,
  ⟨0x4010, 0x4017, 0x04, 0x04, .u32, .ro, .const 0, .any⟩,
  ⟨0x4010, 0x4017, 0x05, 0x05, .u8, .ro, .const 0, .any⟩,
  ⟨0x4010, 0x4017, 0x06, 0x06, .u64, .ro, .const 0, .any⟩,
  ⟨0x4010, 0x4017, 0x07, 0x07, .u32, .ro, .const 0, .any⟩,
  ⟨0x4010, 0x4017, 0x08, 0x08, .u16, .ro, .const 0, .any⟩,
  ⟨0x4010, 0x4017, 0x09, 0x09, .action, .wa, .const 0, .span 1 4⟩,
  ⟨0x4010, 0x4017, 0x0a, 0x0a, .u32, .rw, .const 2000, .span 100 60000⟩,
  ⟨0x4800, 0x4800, 0x01, 0x01, .action, .wa, .const 0, .span 1 1⟩,
  ⟨0x4800, 0x4800, 0x02, 0x02, .u64, .ro, .const 0, .any⟩,
  ⟨0x4810, 0x4817, 0x01, 0x01, .u64, .rw, .const 0, .mult 4096⟩,
  ⟨0x4810, 0x4817, 0x02, 0x02, .u8, .rw, .const 10, .span 8 10⟩,
  ⟨0x4810, 0x4817, 0x03, 0x03, .action, .wa, .const 0, .span 1 1⟩,
  ⟨0x4810, 0x4817, 0x04, 0x04, .u32, .ro, .const 0, .any⟩,
  ⟨0x4810, 0x4817, 0x05, 0x05, .u32, .ro, .const 4294967295, .any⟩,
  ⟨0x4810, 0x4817, 0x06, 0x06, .u16, .ro, .const 0, .any⟩,
  ⟨0x4810, 0x4817, 0x07, 0x07, .u16, .rw, .const 16, .span 0 1024⟩,
  ⟨0x4810, 0x4817, 0x08, 0x08, .u32, .rw, .const 50, .span 1 1000000⟩,
  ⟨0xa020, 0xa020, 0x01, 0x01, .u64, .ro, .const 0, .any⟩,
  ⟨0xa020, 0xa020, 0x02, 0x02, .u64, .ro, .const 0, .any⟩,
  ⟨0xa020, 0xa020, 0x03, 0x03, .u64, .ro, .const 0, .any⟩,
  ⟨0xa020, 0xa020, 0x04, 0x04, .u32, .ro, .const 0, .any⟩,
  ⟨0xa020, 0xa020, 0x05, 0x05, .u64, .ro, .const 0, .any⟩,
  ⟨0xa020, 0xa020, 0x06, 0x06, .u32, .ro, .const 0, .any⟩,
  ⟨0xa020, 0xa020, 0x07, 0x07, .u64, .ro, .const 0, .any⟩,
  ⟨0xa020, 0xa020, 0x08, 0x08, .u32, .ro, .const 0, .any⟩,
  ⟨0xa020, 0xa020, 0x09, 0x09, .action, .wa, .const 0, .span 1 1⟩]

/-- The objects of chapter 8. -/
def objRows8 : List ObjRow := [
  ⟨0x7400, 0x7400, 0x01, 0x01, .u64, .rws, .const 0, .span 0 18446744073709551615⟩,
  ⟨0x7400, 0x7400, 0x02, 0x02, .enum, .rws, .const 0, .span 0 2⟩,
  ⟨0x7400, 0x7400, 0x03, 0x03, .u32, .rw, .const 200, .span 50 10000⟩,
  ⟨0x7401, 0x7401, 0x01, 0xff, .enum, .ro, .const 0, .any⟩,
  ⟨0x7402, 0x7402, 0x01, 0xff, .u64, .ro, .const 0, .any⟩,
  ⟨0x7403, 0x7403, 0x01, 0xff, .u16, .ro, .const 16256, .any⟩,
  ⟨0x7404, 0x7404, 0x01, 0x01, .u64, .ro, .const 0, .any⟩,
  ⟨0x7404, 0x7404, 0x02, 0x02, .u64, .ro, .const 0, .any⟩,
  ⟨0x7040, 0x7040, 0x01, 0x01, .enum, .rws, .const 1, .span 0 2⟩,
  ⟨0x7040, 0x7040, 0x02, 0x02, .h16, .rws, .const 17664, .span 15872 19456⟩,
  ⟨0x7040, 0x7040, 0x03, 0x03, .h16, .rws, .const 13312, .span 10240 15872⟩,
  ⟨0x7040, 0x7040, 0x04, 0x04, .u16, .rws, .const 256, .span 16 65535⟩,
  ⟨0x7040, 0x7040, 0x05, 0x05, .u16, .rws, .const 8, .span 1 1024⟩,
  ⟨0x7040, 0x7040, 0x06, 0x06, .u16, .ro, .const 0, .any⟩,
  ⟨0x7040, 0x7040, 0x07, 0x07, .u16, .ro, .const 0, .any⟩,
  ⟨0x7040, 0x7040, 0x08, 0x08, .u16, .ro, .const 0, .any⟩,
  ⟨0x7040, 0x7040, 0x09, 0x09, .u16, .ro, .const 0, .any⟩,
  ⟨0x7050, 0x7050, 0x01, 0x01, .h16, .rw, .const 13312, .span 1024 16384⟩,
  ⟨0x7050, 0x7050, 0x02, 0x02, .h16, .rw, .const 6144, .span 1024 16384⟩,
  ⟨0x7051, 0x7051, 0x01, 0xff, .u16, .ro, .const 0, .any⟩,
  ⟨0xa030, 0xa030, 0x01, 0x01, .u64, .ro, .const 0, .any⟩,
  ⟨0xa030, 0xa030, 0x02, 0x02, .u64, .ro, .const 0, .any⟩,
  ⟨0xa030, 0xa030, 0x03, 0x03, .u32, .ro, .const 0, .any⟩,
  ⟨0xa030, 0xa030, 0x04, 0x04, .u32, .ro, .const 0, .any⟩,
  ⟨0xa030, 0xa030, 0x05, 0x05, .u64, .ro, .const 0, .any⟩,
  ⟨0xa030, 0xa030, 0x06, 0x06, .u32, .ro, .const 0, .any⟩,
  ⟨0xa030, 0xa030, 0x07, 0x07, .action, .wa, .const 0, .span 1 1⟩]

/-- The objects of chapter 9. -/
def objRows9 : List ObjRow := [
  ⟨0x6000, 0x6000, 0x01, 0x01, .u32, .ro, .const 33488896, .any⟩,
  ⟨0x6000, 0x6000, 0x02, 0x02, .u32, .ro, .const 33488896, .any⟩,
  ⟨0x6000, 0x6000, 0x03, 0x03, .u32, .rw, .const 262144, .span 16384 2097152⟩,
  ⟨0x6000, 0x6000, 0x04, 0x04, .u32, .rw, .const 524288, .span 32768 4194304⟩,
  ⟨0x6000, 0x6000, 0x05, 0x05, .u32, .ro, .const 0, .any⟩,
  ⟨0x6000, 0x6000, 0x06, 0x06, .u32, .ro, .const 0, .any⟩,
  ⟨0x6000, 0x6000, 0x07, 0x07, .u32, .ro, .const 0, .any⟩,
  ⟨0x6000, 0x6000, 0x08, 0x08, .u32, .rw, .const 4096, .span 0 16777216⟩,
  ⟨0x6000, 0x6000, 0x09, 0x09, .u32, .ro, .const 33226752, .any⟩,
  ⟨0x6001, 0x6001, 0x01, 0x0b, .u32, .ro, .const 0, .any⟩,
  ⟨0x6002, 0x6002, 0x01, 0x0b, .u32, .ro, .const 0, .any⟩,
  ⟨0x6003, 0x6003, 0x01, 0x0b, .u32, .ro, .const 0, .any⟩,
  ⟨0x6010, 0x6010, 0x01, 0x01, .u8, .rw, .const 4, .span 1 32⟩,
  ⟨0x6020, 0x6021, 0x01, 0x01, .u32, .rw, .const 0, .span 0 16777216⟩,
  ⟨0x6020, 0x6021, 0x02, 0x02, .u64, .rw, .const 0, .mult 65536⟩,
  ⟨0x6020, 0x6021, 0x03, 0x03, .action, .wa, .const 0, .span 1 1⟩,
  ⟨0x6020, 0x6021, 0x04, 0x04, .enum, .ro, .const 0, .any⟩,
  ⟨0x6020, 0x6021, 0x05, 0x05, .u32, .ro, .const 0, .any⟩,
  ⟨0x6020, 0x6021, 0x06, 0x06, .action, .wa, .const 0, .span 100 600000⟩,
  ⟨0x6030, 0x6030, 0x01, 0x01, .u16, .rw, .const 65535, .spanOr 0 511 [0xFFFF]⟩,
  ⟨0x6030, 0x6030, 0x02, 0x02, .action, .wa, .const 0, .span 1 1⟩,
  ⟨0x6030, 0x6030, 0x03, 0x03, .enum, .ro, .const 0, .any⟩,
  ⟨0x6031, 0x6031, 0x01, 0x01, .bool, .rw, .const 0, .span 0 1⟩,
  ⟨0x6031, 0x6031, 0x02, 0x02, .u32, .rw, .const 0, .span 0 33488896⟩,
  ⟨0x6031, 0x6031, 0x03, 0x03, .u8, .rw, .const 2, .span 1 4⟩,
  ⟨0x6031, 0x6031, 0x04, 0x04, .u32, .rw, .const 5000, .span 100 600000⟩,
  ⟨0x6031, 0x6031, 0x05, 0x05, .action, .wa, .const 0, .span 1 1⟩,
  ⟨0x6400, 0x640f, 0x01, 0x01, .enum, .ro, .const 0, .any⟩,
  ⟨0x6400, 0x640f, 0x02, 0x02, .i32, .ro, .const 0, .any⟩,
  ⟨0x6400, 0x640f, 0x03, 0x03, .u64, .ro, .const 0, .any⟩,
  ⟨0x6400, 0x640f, 0x04, 0x04, .u32, .ro, .const 0, .any⟩,
  ⟨0x6400, 0x640f, 0x05, 0x05, .u32, .ro, .const 0, .any⟩,
  ⟨0x6410, 0x6410, 0x01, 0x01, .u16, .rw, .const 24, .span 1 168⟩,
  ⟨0x6410, 0x6410, 0x02, 0x02, .u32, .ro, .const 0, .any⟩,
  ⟨0x6410, 0x6410, 0x03, 0x03, .u16, .ro, .const 16384, .any⟩,
  ⟨0x6410, 0x6410, 0x04, 0x04, .u16, .ro, .const 3900, .any⟩,
  ⟨0xa040, 0xa040, 0x01, 0x01, .u64, .ro, .const 0, .any⟩,
  ⟨0xa040, 0xa040, 0x02, 0x02, .u64, .ro, .const 0, .any⟩,
  ⟨0xa040, 0xa040, 0x03, 0x03, .u64, .ro, .const 0, .any⟩,
  ⟨0xa040, 0xa040, 0x04, 0x04, .u64, .ro, .const 0, .any⟩,
  ⟨0xa040, 0xa040, 0x05, 0x05, .u64, .ro, .const 0, .any⟩,
  ⟨0xa040, 0xa040, 0x06, 0x06, .u64, .ro, .const 0, .any⟩,
  ⟨0xa040, 0xa040, 0x07, 0x07, .u32, .ro, .const 0, .any⟩,
  ⟨0xa040, 0xa040, 0x08, 0x08, .u32, .ro, .const 0, .any⟩,
  ⟨0xa040, 0xa040, 0x09, 0x09, .u32, .ro, .const 0, .any⟩,
  ⟨0xa040, 0xa040, 0x0a, 0x0a, .action, .wa, .const 0, .span 1 1⟩,
  ⟨0xa044, 0xa044, 0x01, 0x01, .u64, .ro, .const 0, .any⟩,
  ⟨0xa044, 0xa044, 0x02, 0x02, .u64, .ro, .const 0, .any⟩,
  ⟨0xa044, 0xa044, 0x03, 0x03, .u64, .ro, .const 0, .any⟩,
  ⟨0xa044, 0xa044, 0x04, 0x04, .action, .wa, .const 0, .span 1 1⟩]

/-- The objects of chapter 10. -/
def objRows10 : List ObjRow := [
  ⟨0x6800, 0x6800, 0x01, 0x01, .u32, .ro, .const 469762048, .any⟩,
  ⟨0x6800, 0x6800, 0x02, 0x02, .u16, .ro, .const 0, .any⟩,
  ⟨0x6800, 0x6800, 0x03, 0x03, .u16, .ro, .const 0, .any⟩,
  ⟨0x6800, 0x6800, 0x04, 0x04, .u16, .ro, .const 3000, .any⟩,
  ⟨0x6800, 0x6800, 0x05, 0x05, .u32, .rw, .const 200000, .span 50000 1000000⟩,
  ⟨0x6800, 0x6800, 0x06, 0x06, .u16, .rw, .const 180, .span 30 365⟩,
  ⟨0x6800, 0x6800, 0x07, 0x07, .u16, .ro, .factory, .any⟩,
  ⟨0x6800, 0x6800, 0x08, 0x08, .u32, .ro, .factory, .any⟩,
  ⟨0x6800, 0x6800, 0x09, 0x09, .u16, .ro, .const 0, .any⟩,
  ⟨0x6810, 0x6813, 0x01, 0x01, .u16, .rws, .const 0, .span 0 924⟩,
  ⟨0x6810, 0x6813, 0x02, 0x02, .enum, .ro, .const 0, .any⟩,
  ⟨0x6810, 0x6813, 0x03, 0x03, .u64, .ro, .const 0, .any⟩,
  ⟨0x6810, 0x6813, 0x04, 0x04, .action, .wa, .const 0, .span 1 1⟩,
  ⟨0x6820, 0x6820, 0x01, 0x10, .u32, .ro, .const 0, .any⟩,
  ⟨0x6821, 0x6821, 0x01, 0x10, .u64, .ro, .const 0, .any⟩,
  ⟨0x6822, 0x6822, 0x01, 0x10, .u64, .ro, .const 0, .any⟩,
  ⟨0x6823, 0x6823, 0x01, 0x10, .enum, .ro, .const 0, .any⟩,
  ⟨0x7801, 0x7801, 0x01, 0x10, .enum, .ro, .const 0, .any⟩,
  ⟨0x7810, 0x7810, 0x01, 0x01, .u64, .ro, .const 0, .any⟩,
  ⟨0x7810, 0x7810, 0x02, 0x02, .u32, .ro, .const 0, .any⟩,
  ⟨0x7810, 0x7810, 0x03, 0x03, .u8, .ro, .const 0, .any⟩,
  ⟨0xa050, 0xa050, 0x01, 0x01, .u64, .ro, .const 0, .any⟩,
  ⟨0xa050, 0xa050, 0x02, 0x02, .u64, .ro, .const 0, .any⟩,
  ⟨0xa050, 0xa050, 0x03, 0x03, .u64, .ro, .const 0, .any⟩,
  ⟨0xa050, 0xa050, 0x04, 0x04, .u64, .ro, .const 0, .any⟩,
  ⟨0xa050, 0xa050, 0x05, 0x05, .u32, .ro, .const 0, .any⟩,
  ⟨0xa050, 0xa050, 0x06, 0x06, .u32, .ro, .const 0, .any⟩,
  ⟨0xa050, 0xa050, 0x07, 0x07, .u64, .ro, .const 0, .any⟩,
  ⟨0xa050, 0xa050, 0x08, 0x08, .action, .wa, .const 0, .span 1 1⟩,
  ⟨0xa054, 0xa054, 0x01, 0x01, .u64, .ro, .const 0, .any⟩,
  ⟨0xa054, 0xa054, 0x02, 0x02, .u64, .ro, .const 0, .any⟩,
  ⟨0xa054, 0xa054, 0x03, 0x03, .u64, .ro, .const 0, .any⟩,
  ⟨0xa054, 0xa054, 0x04, 0x04, .u32, .ro, .const 0, .any⟩,
  ⟨0xa054, 0xa054, 0x05, 0x05, .u32, .ro, .const 0, .any⟩,
  ⟨0xa054, 0xa054, 0x06, 0x06, .u32, .ro, .const 0, .any⟩,
  ⟨0xa054, 0xa054, 0x07, 0x07, .action, .wa, .const 0, .span 1 1⟩]

/-- The objects of chapter 11. -/
def objRows11 : List ObjRow := [
  ⟨0x5000, 0x500f, 0x01, 0x01, .enum, .ro, .const 0, .any⟩,
  ⟨0x5000, 0x500f, 0x02, 0x02, .enum, .ro, .const 0, .any⟩,
  ⟨0x5000, 0x500f, 0x03, 0x03, .enum, .ro, .const 0, .any⟩,
  ⟨0x5000, 0x500f, 0x04, 0x04, .u64, .ro, .const 0, .any⟩,
  ⟨0x5000, 0x500f, 0x05, 0x05, .u16, .ro, .const 65535, .any⟩,
  ⟨0x5000, 0x500f, 0x06, 0x06, .u8, .ro, .idx, .any⟩,
  ⟨0x5000, 0x500f, 0x07, 0x07, .u32, .ro, .const 0, .any⟩,
  ⟨0x5000, 0x500f, 0x08, 0x08, .enum, .rw, .const 0, .span 0 2⟩,
  ⟨0x5010, 0x5010, 0x01, 0x01, .enum, .rws, .const 0, .span 0 1⟩,
  ⟨0x5010, 0x5010, 0x02, 0x02, .u16, .rws, .const 65535, .spanOr 0 511 [0xFFFF]⟩,
  ⟨0x5010, 0x5010, 0x03, 0x03, .enum, .rws, .const 0, .span 0 1⟩,
  ⟨0x5010, 0x5010, 0x04, 0x04, .u16, .rws, .const 65535, .span 1 65535⟩,
  ⟨0x5010, 0x5010, 0x05, 0x05, .u8, .rw, .const 2, .span 1 64⟩,
  ⟨0x5010, 0x5010, 0x06, 0x06, .u16, .rw, .const 5, .span 0 1000⟩,
  ⟨0x5010, 0x5010, 0x07, 0x07, .u32, .ro, .const 0, .any⟩,
  ⟨0x5011, 0x5011, 0x01, 0x10, .u64, .rws, .const 0, .span 0 281474976710655⟩,
  ⟨0x5012, 0x5012, 0x01, 0x10, .u16, .rws, .const 65535, .span 0 65535⟩,
  ⟨0x5013, 0x5013, 0x01, 0x10, .u8, .ro, .sub1, .any⟩,
  ⟨0xa060, 0xa06f, 0x01, 0x01, .u64, .ro, .const 0, .any⟩,
  ⟨0xa060, 0xa06f, 0x02, 0x02, .u64, .ro, .const 0, .any⟩,
  ⟨0xa060, 0xa06f, 0x03, 0x03, .u64, .ro, .const 0, .any⟩,
  ⟨0xa060, 0xa06f, 0x04, 0x04, .u64, .ro, .const 0, .any⟩,
  ⟨0xa060, 0xa06f, 0x05, 0x05, .u64, .ro, .const 0, .any⟩,
  ⟨0xa060, 0xa06f, 0x06, 0x06, .u64, .ro, .const 0, .any⟩,
  ⟨0xa060, 0xa06f, 0x07, 0x07, .u64, .ro, .const 0, .any⟩,
  ⟨0xa060, 0xa06f, 0x08, 0x08, .u32, .ro, .const 0, .any⟩,
  ⟨0xa060, 0xa06f, 0x09, 0x09, .u64, .ro, .const 0, .any⟩,
  ⟨0xa060, 0xa06f, 0x0a, 0x0a, .action, .wa, .const 0, .span 1 1⟩]

/-- The objects of chapter 12. -/
def objRows12 : List ObjRow := [
  ⟨0x5400, 0x5400, 0x01, 0x01, .u16, .rws, .const 65535, .any⟩,
  ⟨0x5400, 0x5400, 0x02, 0x02, .blob, .rws, .const 0, .any⟩,
  ⟨0x5400, 0x5400, 0x03, 0x03, .enum, .ro, .const 0, .any⟩,
  ⟨0x5400, 0x5400, 0x04, 0x04, .u16, .ro, .const 0, .any⟩,
  ⟨0x5400, 0x5400, 0x05, 0x05, .u16, .ro, .const 65535, .any⟩,
  ⟨0x5400, 0x5400, 0x06, 0x06, .u16, .ro, .const 65535, .any⟩,
  ⟨0x5400, 0x5400, 0x07, 0x07, .u32, .ro, .const 0, .any⟩,
  ⟨0x5400, 0x5400, 0x08, 0x08, .u32, .ro, .const 0, .any⟩,
  ⟨0x5400, 0x5400, 0x09, 0x09, .u32, .ro, .const 0, .any⟩,
  ⟨0x5400, 0x5400, 0x0a, 0x0a, .u32, .ro, .const 0, .any⟩,
  ⟨0x5400, 0x5400, 0x0b, 0x0b, .u64, .ro, .const 0, .any⟩,
  ⟨0x5400, 0x5400, 0x0c, 0x0c, .u8, .ro, .const 1, .any⟩,
  ⟨0x5400, 0x5400, 0x0d, 0x0d, .bool, .ro, .const 0, .any⟩,
  ⟨0x5400, 0x5400, 0x0e, 0x0e, .bool, .rws, .const 1, .span 0 1⟩,
  ⟨0x5401, 0x5401, 0x01, 0x01, .u16, .rw, .const 5, .span 1 1000⟩,
  ⟨0x5401, 0x5401, 0x02, 0x02, .u32, .rw, .const 10000, .span 100 600000⟩,
  ⟨0x5401, 0x5401, 0x03, 0x03, .u32, .rw, .const 200, .span 20 100000⟩,
  ⟨0x5402, 0x5402, 0x01, 0x01, .u16, .rws, .const 64, .span 1 65535⟩,
  ⟨0x5402, 0x5402, 0x02, 0x02, .bool, .rws, .const 0, .span 0 1⟩,
  ⟨0x5402, 0x5402, 0x03, 0x03, .u32, .rw, .const 5000, .span 100 600000⟩,
  ⟨0x5402, 0x5402, 0x04, 0x04, .u64, .ro, .const 0, .any⟩,
  ⟨0x5402, 0x5402, 0x05, 0x05, .enum, .ro, .const 0, .any⟩,
  ⟨0x5402, 0x5402, 0x06, 0x06, .u16, .ro, .const 0, .any⟩,
  ⟨0x5402, 0x5402, 0x07, 0x07, .u32, .ro, .const 0, .any⟩,
  ⟨0x5402, 0x5402, 0x08, 0x08, .u8, .ro, .const 0, .any⟩,
  ⟨0xa070, 0xa070, 0x01, 0x01, .u64, .ro, .const 0, .any⟩,
  ⟨0xa070, 0xa070, 0x02, 0x02, .u64, .ro, .const 0, .any⟩,
  ⟨0xa070, 0xa070, 0x03, 0x03, .u64, .ro, .const 0, .any⟩,
  ⟨0xa070, 0xa070, 0x04, 0x04, .u64, .ro, .const 0, .any⟩,
  ⟨0xa070, 0xa070, 0x05, 0x05, .u32, .ro, .const 0, .any⟩,
  ⟨0xa070, 0xa070, 0x06, 0x06, .u32, .ro, .const 0, .any⟩,
  ⟨0xa070, 0xa070, 0x07, 0x07, .u32, .ro, .const 0, .any⟩,
  ⟨0xa070, 0xa070, 0x08, 0x08, .u32, .ro, .const 0, .any⟩,
  ⟨0xa070, 0xa070, 0x09, 0x09, .action, .wa, .const 0, .span 1 1⟩]

/-- The objects of chapter 13. -/
def objRows13 : List ObjRow := [
  ⟨0x2000, 0x2000, 0x01, 0x01, .u32, .ro, .const 0, .any⟩,
  ⟨0x2000, 0x2000, 0x02, 0x02, .u32, .ro, .const 0, .any⟩,
  ⟨0x2000, 0x2000, 0x03, 0x03, .u16, .ro, .const 0, .any⟩,
  ⟨0x2000, 0x2000, 0x04, 0x04, .u16, .ro, .const 0, .any⟩,
  ⟨0x2000, 0x2000, 0x05, 0x05, .u16, .ro, .const 0, .any⟩,
  ⟨0x2000, 0x2000, 0x06, 0x06, .u64, .ro, .const 0, .any⟩,
  ⟨0x2010, 0x2010, 0x01, 0x01, .u16, .rw, .const 1200, .span 150 1600⟩,
  ⟨0x2010, 0x2010, 0x02, 0x02, .u16, .ro, .const 1200, .any⟩,
  ⟨0x2010, 0x2010, 0x03, 0x03, .enum, .ro, .const 0, .any⟩,
  ⟨0x2010, 0x2010, 0x04, 0x04, .u16, .rw, .const 100, .span 20 1600⟩,
  ⟨0x2010, 0x2010, 0x05, 0x05, .enum, .ro, .const 0, .any⟩,
  ⟨0x2200, 0x2200, 0x01, 0x01, .u8, .ro, .const 0, .any⟩,
  ⟨0x2200, 0x2200, 0x02, 0x02, .u16, .ro, .const 256, .any⟩,
  ⟨0x2200, 0x2200, 0x03, 0x03, .u16, .ro, .const 0, .any⟩,
  ⟨0x2200, 0x2200, 0x04, 0x04, .u8, .ro, .const 0, .any⟩,
  ⟨0x2200, 0x2200, 0x05, 0x05, .u8, .ro, .const 0, .any⟩,
  ⟨0x2200, 0x2200, 0x06, 0x06, .u8, .ro, .const 0, .any⟩,
  ⟨0x2200, 0x2200, 0x07, 0x07, .enum, .ro, .const 0, .any⟩,
  ⟨0x2201, 0x2201, 0x01, 0x05, .u16, .ro, .const 0, .any⟩,
  ⟨0x2202, 0x2202, 0x01, 0x05, .u16, .ro, .const 0, .any⟩,
  ⟨0x2210, 0x2210, 0x01, 0x01, .bool, .rw, .const 1, .span 0 1⟩,
  ⟨0x2210, 0x2210, 0x02, 0x02, .u16, .ro, .const 65535, .any⟩,
  ⟨0x2220, 0x2220, 0x01, 0x01, .u16, .ro, .const 16256, .any⟩,
  ⟨0x2220, 0x2220, 0x02, 0x02, .i32, .ro, .const 0, .any⟩,
  ⟨0x2400, 0x2400, 0x01, 0x18, .i32, .ro, .const 0, .any⟩,
  ⟨0x2401, 0x2401, 0x01, 0x30, .i32, .ro, .const 0, .any⟩,
  ⟨0x2402, 0x2402, 0x01, 0x18, .enum, .ro, .const 0, .any⟩,
  ⟨0x2403, 0x2403, 0x01, 0x18, .u32, .ro, .factory, .any⟩,
  ⟨0x2410, 0x2410, 0x01, 0x01, .i32, .ro, .const 0, .any⟩,
  ⟨0x2410, 0x2410, 0x02, 0x02, .u8, .rw, .const 90, .span 70 90⟩,
  ⟨0x2410, 0x2410, 0x03, 0x03, .u8, .rw, .const 95, .span 75 95⟩,
  ⟨0x2410, 0x2410, 0x04, 0x04, .u8, .ro, .const 110, .any⟩,
  ⟨0x2410, 0x2410, 0x05, 0x05, .u32, .ro, .const 0, .any⟩,
  ⟨0x2420, 0x2420, 0x01, 0x04, .i32, .ro, .const 0, .any⟩,
  ⟨0x2600, 0x2600, 0x01, 0x01, .i32, .ro, .const 0, .any⟩,
  ⟨0x2600, 0x2600, 0x02, 0x02, .i32, .ro, .const 0, .any⟩,
  ⟨0x2600, 0x2600, 0x03, 0x03, .u16, .ro, .const 0, .any⟩,
  ⟨0x2600, 0x2600, 0x04, 0x04, .u16, .ro, .const 65535, .any⟩,
  ⟨0x2600, 0x2600, 0x05, 0x05, .u16, .ro, .const 0, .any⟩,
  ⟨0x2600, 0x2600, 0x06, 0x06, .enum, .ro, .const 0, .any⟩,
  ⟨0x2610, 0x2610, 0x01, 0x01, .u16, .rw, .const 3900, .span 3000 4200⟩,
  ⟨0x2610, 0x2610, 0x02, 0x02, .u32, .ro, .factory, .any⟩,
  ⟨0xa080, 0xa080, 0x01, 0x01, .u64, .ro, .const 0, .any⟩,
  ⟨0xa080, 0xa080, 0x02, 0x02, .u64, .ro, .const 0, .any⟩,
  ⟨0xa080, 0xa080, 0x03, 0x03, .u32, .ro, .const 0, .any⟩,
  ⟨0xa080, 0xa080, 0x04, 0x04, .u32, .ro, .const 0, .any⟩,
  ⟨0xa080, 0xa080, 0x05, 0x05, .u64, .ro, .const 0, .any⟩,
  ⟨0xa080, 0xa080, 0x06, 0x06, .u64, .ro, .const 0, .any⟩,
  ⟨0xa080, 0xa080, 0x07, 0x07, .action, .wa, .const 0, .span 1 1⟩]

/-- The objects of chapter 14. -/
def objRows14 : List ObjRow := [
  ⟨0x1100, 0x1100, 0x01, 0x01, .u32, .ro, .const 0, .any⟩,
  ⟨0x1100, 0x1100, 0x02, 0x02, .u64, .ro, .const 0, .any⟩,
  ⟨0x1100, 0x1100, 0x03, 0x03, .u64, .ro, .const 0, .any⟩,
  ⟨0x1100, 0x1100, 0x04, 0x04, .u64, .ro, .const 0, .any⟩,
  ⟨0x3000, 0x3000, 0x01, 0x01, .u16, .ro, .const 1400, .any⟩,
  ⟨0x3001, 0x3001, 0x01, 0x0c, .u8, .ro, .const 0, .any⟩,
  ⟨0x3002, 0x3002, 0x01, 0x0c, .u32, .ro, .const 0, .any⟩,
  ⟨0x3003, 0x3003, 0x01, 0x0c, .u8, .ro, .const 0, .any⟩,
  ⟨0x3010, 0x3010, 0x01, 0x01, .i32, .ro, .const 0, .any⟩,
  ⟨0x3010, 0x3010, 0x02, 0x02, .u8, .rw, .const 12, .span 8 24⟩,
  ⟨0x3010, 0x3010, 0x03, 0x03, .u8, .rw, .const 4, .span 2 8⟩,
  ⟨0x3011, 0x3011, 0x01, 0x08, .i32, .ro, .const 0, .any⟩,
  ⟨0x3012, 0x3012, 0x01, 0x01, .u16, .ro, .const 0, .any⟩,
  ⟨0x3020, 0x3020, 0x01, 0x01, .u16, .ro, .const 0, .any⟩,
  ⟨0x3020, 0x3020, 0x02, 0x02, .u16, .rw, .const 0, .span 0 4095⟩,
  ⟨0x3020, 0x3020, 0x03, 0x03, .blob, .ro, .const 0, .any⟩,
  ⟨0xa090, 0xa090, 0x01, 0x01, .u64, .ro, .const 0, .any⟩,
  ⟨0xa090, 0xa090, 0x02, 0x02, .u64, .ro, .const 0, .any⟩,
  ⟨0xa090, 0xa090, 0x03, 0x03, .u64, .ro, .const 0, .any⟩,
  ⟨0xa090, 0xa090, 0x04, 0x04, .u32, .ro, .const 0, .any⟩,
  ⟨0xa090, 0xa090, 0x05, 0x05, .u32, .ro, .const 0, .any⟩,
  ⟨0xa090, 0xa090, 0x06, 0x06, .action, .wa, .const 0, .span 1 1⟩]

/-- The objects of chapter 15. -/
def objRows15 : List ObjRow := [
  ⟨0x1000, 0x1000, 0x01, 0x01, .str, .ro, .const 0, .any⟩,
  ⟨0x1000, 0x1000, 0x02, 0x02, .u8, .ro, .factory, .any⟩,
  ⟨0x1000, 0x1000, 0x03, 0x03, .str, .ro, .factory, .any⟩,
  ⟨0x1000, 0x1000, 0x04, 0x04, .u32, .ro, .const 0, .any⟩,
  ⟨0x1000, 0x1000, 0x05, 0x05, .u16, .ro, .const 1, .any⟩,
  ⟨0x1000, 0x1000, 0x06, 0x06, .u8, .ro, .const 1, .any⟩,
  ⟨0x1000, 0x1000, 0x07, 0x07, .u64, .ro, .factory, .any⟩,
  ⟨0x1000, 0x1000, 0x08, 0x08, .u16, .ro, .factory, .any⟩,
  ⟨0x1000, 0x1000, 0x09, 0x09, .u16, .ro, .factory, .any⟩,
  ⟨0x1000, 0x1000, 0x0a, 0x0a, .u32, .ro, .factory, .any⟩,
  ⟨0x1000, 0x1000, 0x0b, 0x0b, .str, .ro, .factory, .any⟩,
  ⟨0x1000, 0x1000, 0x0c, 0x0c, .str, .ro, .const 0, .any⟩,
  ⟨0x1000, 0x1000, 0x0d, 0x0d, .str, .ro, .const 0, .any⟩,
  ⟨0x1010, 0x1010, 0x01, 0x01, .action, .wa, .const 0, .span 1 1⟩,
  ⟨0x1010, 0x1010, 0x02, 0x02, .action, .wa, .const 0, .span 1 1⟩,
  ⟨0x1010, 0x1010, 0x03, 0x03, .enum, .ro, .const 0, .any⟩,
  ⟨0x1030, 0x1030, 0x01, 0x01, .u64, .ro, .fldMac, .any⟩,
  ⟨0x1030, 0x1030, 0x02, 0x02, .u8, .rw, .const 1, .spanOr 1 254 [0xFF]⟩,
  ⟨0x1030, 0x1030, 0x03, 0x03, .bool, .rw, .const 1, .span 0 1⟩,
  ⟨0x1030, 0x1030, 0x04, 0x04, .u64, .rw, .const 0, .span 0 281474976710655⟩,
  ⟨0x1030, 0x1030, 0x05, 0x05, .u64, .ro, .const 0, .any⟩,
  ⟨0x1040, 0x1040, 0x01, 0x02, .u8, .ro, .const 0, .any⟩,
  ⟨0x9000, 0x9000, 0x01, 0x01, .u32, .ro, .const 0, .any⟩,
  ⟨0x9000, 0x9000, 0x02, 0x02, .u32, .ro, .const 0, .any⟩,
  ⟨0x9001, 0x9001, 0x01, 0x01, .enum, .ro, .const 0, .any⟩,
  ⟨0x9003, 0x9003, 0x01, 0x02, .bool, .rw, .const 1, .span 0 1⟩,
  ⟨0x9003, 0x9003, 0x03, 0x03, .u32, .rw, .const 100, .span 1 1000000⟩,
  ⟨0x9004, 0x9004, 0x01, 0x01, .u64, .rw, .const 0, .span 0 281474976710655⟩,
  ⟨0x9004, 0x9004, 0x02, 0x03, .u8, .rw, .const 0, .spanOr 8 254 [0]⟩,
  ⟨0x9100, 0x9100, 0x01, 0x0f, .u32, .ro, .const 0, .any⟩,
  ⟨0x9101, 0x9101, 0x01, 0x0f, .action, .wa, .const 0, .span 1 0xFFFFFFFF⟩,
  ⟨0x9201, 0x920f, 0x01, 0x20, .u32, .ro, .const 0, .any⟩,
  ⟨0xa0a0, 0xa0a0, 0x01, 0x01, .u64, .ro, .const 0, .any⟩,
  ⟨0xa0a0, 0xa0a0, 0x02, 0x02, .u64, .ro, .const 0, .any⟩,
  ⟨0xa0a0, 0xa0a0, 0x03, 0x03, .u32, .ro, .const 0, .any⟩,
  ⟨0xa0a0, 0xa0a0, 0x04, 0x04, .u64, .ro, .const 0, .any⟩,
  ⟨0xa0a0, 0xa0a0, 0x05, 0x05, .u64, .ro, .const 0, .any⟩,
  ⟨0xa0a0, 0xa0a0, 0x06, 0x06, .u64, .ro, .const 0, .any⟩,
  ⟨0xa0a0, 0xa0a0, 0x07, 0x07, .action, .wa, .const 0, .span 1 1⟩]

/-- The objects of chapter 16. -/
def objRows16 : List ObjRow := [
  ⟨0x8000, 0x8000, 0x01, 0x01, .enum, .ro, .const 0, .any⟩,
  ⟨0x8000, 0x8000, 0x02, 0x02, .enum, .ro, .const 0, .any⟩,
  ⟨0x8000, 0x8000, 0x03, 0x03, .u8, .ro, .factory, .any⟩,
  ⟨0x8000, 0x8000, 0x04, 0x04, .action, .wa, .const 0, .span 1 1⟩,
  ⟨0x8000, 0x8000, 0x05, 0x05, .action, .wa, .const 0, .span 1 1⟩,
  ⟨0x8001, 0x8002, 0x01, 0x01, .enum, .ro, .const 0, .any⟩,
  ⟨0x8001, 0x8002, 0x02, 0x02, .u32, .ro, .const 0, .any⟩,
  ⟨0x8001, 0x8002, 0x03, 0x03, .u8, .ro, .const 0, .any⟩,
  ⟨0x8001, 0x8002, 0x04, 0x04, .u16, .ro, .const 0, .any⟩,
  ⟨0x8001, 0x8002, 0x05, 0x05, .blob, .ro, .const 0, .any⟩,
  ⟨0x8001, 0x8002, 0x06, 0x06, .u8, .ro, .const 0, .any⟩,
  ⟨0x8010, 0x8010, 0x01, 0x01, .enum, .ro, .const 0, .any⟩,
  ⟨0x8010, 0x8010, 0x02, 0x02, .u64, .rw, .const 0, .span 0 18446744073709551615⟩,
  ⟨0x8010, 0x8010, 0x03, 0x03, .u64, .ro, .const 0, .any⟩,
  ⟨0x8020, 0x8020, 0x01, 0x01, .u16, .ro, .const 0, .any⟩,
  ⟨0x8020, 0x8020, 0x02, 0x02, .blob, .ro, .const 0, .any⟩,
  ⟨0x8400, 0x8400, 0x01, 0x01, .enum, .ro, .const 1, .any⟩,
  ⟨0x8400, 0x8400, 0x02, 0x02, .u8, .ro, .factory, .any⟩,
  ⟨0x8400, 0x8400, 0x03, 0x03, .u32, .ro, .factory, .any⟩,
  ⟨0x8400, 0x8400, 0x04, 0x04, .u32, .ro, .const 33554432, .any⟩,
  ⟨0x8400, 0x8400, 0x05, 0x05, .u16, .rw, .const 10, .span 10 3600⟩,
  ⟨0x8400, 0x8400, 0x06, 0x06, .u32, .ro, .const 0, .any⟩,
  ⟨0x8400, 0x8400, 0x07, 0x07, .bool, .rw, .const 0, .span 0 1⟩,
  ⟨0x8401, 0x8401, 0x01, 0x02, .enum, .ro, .const 0, .any⟩]

/-- Every row of the dictionary, by chapter. -/
def objRows : List (List ObjRow) :=
  [objRows2, objRows3, objRows4, objRows5, objRows6, objRows7, objRows8, objRows9, objRows10, objRows11, objRows12, objRows13, objRows14, objRows15, objRows16]

/-! ### Keys of the objects, by name -/
namespace Obj
/-- 0x7010.01 cum_saturation (U64, RO). -/
abbrev cumSaturation : Nat := 0x701001
/-- 0x7010.02 cum_underflow (U64, RO). -/
abbrev cumUnderflow : Nat := 0x701002
/-- 0x7010.03 cum_nonfinite (U64, RO). -/
abbrev cumNonfinite : Nat := 0x701003
/-- 0x7010.04 cum_elements (U64, RO). -/
abbrev cumElements : Nat := 0x701004
/-- 0x7010.05 cum_clear (ACTION, WA). -/
abbrev cumClear : Nat := 0x701005
/-- 0x7020.01 to .FF step_sat_layer (U64, RO). -/
abbrev stepSatLayer (k : Nat) : Nat := 0x702000 + k
/-- 0x7021.01 to .FF step_elem_layer (U64, RO). -/
abbrev stepElemLayer (k : Nat) : Nat := 0x702100 + k
/-- 0x7022.01 step_nonfinite (U64, RO). -/
abbrev stepNonfinite : Nat := 0x702201
/-- 0x1020.01 to .0C retired_col (U8, RO). -/
abbrev retiredCol (k : Nat) : Nat := 0x102000 + k
/-- 0x1020.0D retired_count (U8, RO). -/
abbrev retiredCount : Nat := 0x10200d
/-- 0xA010.01 mx_busy_cycles (U64, RO). -/
abbrev mxBusyCycles : Nat := 0xa01001
/-- 0xA010.02 mx_stall_weight (U64, RO). -/
abbrev mxStallWeight : Nat := 0xa01002
/-- 0xA010.03 mx_stall_operand (U64, RO). -/
abbrev mxStallOperand : Nat := 0xa01003
/-- 0xA010.04 mx_rejected (U32, RO). -/
abbrev mxRejected : Nat := 0xa01004
/-- 0xA010.05 mx_clear (ACTION, WA). -/
abbrev mxClear : Nat := 0xa01005
/-- 0x7023.01 to .FF step_unf_layer (U64, RO). -/
abbrev stepUnfLayer (k : Nat) : Nat := 0x702300 + k
/-- 0x7024.01 to .FF step_shadow_sat (U64, RO). -/
abbrev stepShadowSat (k : Nat) : Nat := 0x702400 + k
/-- 0x7025.01 to .FF step_shadow_unf (U64, RO). -/
abbrev stepShadowUnf (k : Nat) : Nat := 0x702500 + k
/-- 0x7030.01 fb_sat_threshold (H16, RWS). -/
abbrev fbSatThreshold : Nat := 0x703001
/-- 0x7030.02 fb_unf_threshold (H16, RWS). -/
abbrev fbUnfThreshold : Nat := 0x703002
/-- 0x7030.03 fb_return_steps (U32, RWS). -/
abbrev fbReturnSteps : Nat := 0x703003
/-- 0x7030.04 fb_enable (BOOL, RWS). -/
abbrev fbEnable : Nat := 0x703004
/-- 0x7031.01 to .FF fb_policy (ENUM, RWS). -/
abbrev fbPolicy (k : Nat) : Nat := 0x703100 + k
/-- 0x7032.01 to .FF fb_state (ENUM, RO). -/
abbrev fbState (k : Nat) : Nat := 0x703200 + k
/-- 0x7033.01 to .FF fb_quiet (U32, RO). -/
abbrev fbQuiet (k : Nat) : Nat := 0x703300 + k
/-- 0x7034.01 fb_h16_layers (U16, RO). -/
abbrev fbH16Layers : Nat := 0x703401
/-- 0x6040.01 cast_high_wm (U8, RW). -/
abbrev castHighWm : Nat := 0x604001
/-- 0x6040.02 cast_low_wm (U8, RW). -/
abbrev castLowWm : Nat := 0x604002
/-- 0x6040.03 cast_moves (U8, RW). -/
abbrev castMoves : Nat := 0x604003
/-- 0x6040.04 cast_reserve_pages (U32, RO). -/
abbrev castReservePages : Nat := 0x604004
/-- 0x6040.05 cast_depth_peak (U32, RO). -/
abbrev castDepthPeak : Nat := 0x604005
/-- 0xA018.01 cast_pages_spilled (U64, RO). -/
abbrev castPagesSpilled : Nat := 0xa01801
/-- 0xA018.02 cast_pages_refilled (U64, RO). -/
abbrev castPagesRefilled : Nat := 0xa01802
/-- 0xA018.03 cast_demand_refills (U64, RO). -/
abbrev castDemandRefills : Nat := 0xa01803
/-- 0xA018.04 cast_stall_cycles (U64, RO). -/
abbrev castStallCycles : Nat := 0xa01804
/-- 0xA018.05 cast_writethrough_bytes (U64, RO). -/
abbrev castWritethroughBytes : Nat := 0xa01805
/-- 0xA018.06 cast_faults (U32, RO). -/
abbrev castFaults : Nat := 0xa01806
/-- 0xA018.07 cast_clear (ACTION, WA). -/
abbrev castClear : Nat := 0xa01807
/-- 0x7035.01 fb_deferred_count (U16, RO). -/
abbrev fbDeferredCount : Nat := 0x703501
/-- 0x7035.02 fb_cast_capacity (U64, RO). -/
abbrev fbCastCapacity : Nat := 0x703502
/-- 0x7035.03 fb_cast_demand (U64, RO). -/
abbrev fbCastDemand : Nat := 0x703503
/-- 0xA014.01 vx_busy_cycles (U64, RO). -/
abbrev vxBusyCycles : Nat := 0xa01401
/-- 0xA014.02 vx_port_lost (U64, RO). -/
abbrev vxPortLost : Nat := 0xa01402
/-- 0xA014.03 vx_wait_cycles (U64, RO). -/
abbrev vxWaitCycles : Nat := 0xa01403
/-- 0xA014.04 vx_rejected (U32, RO). -/
abbrev vxRejected : Nat := 0xa01404
/-- 0xA014.05 vx_index_range (U64, RO). -/
abbrev vxIndexRange : Nat := 0xa01405
/-- 0xA014.06 vx_indexed_elems (U64, RO). -/
abbrev vxIndexedElems : Nat := 0xa01406
/-- 0xA014.07 vx_clear (ACTION, WA). -/
abbrev vxClear : Nat := 0xa01407
/-- 0x4870.01 sync_timeout_ms (U32, RW). -/
abbrev syncTimeoutMs : Nat := 0x487001
/-- 0xA01C.01 dn_bytes (U64, RO). -/
abbrev dnBytes : Nat := 0xa01c01
/-- 0xA01C.02 cn_messages (U64, RO). -/
abbrev cnMessages : Nat := 0xa01c02
/-- 0xA01C.03 sync_wait_cycles (U64, RO). -/
abbrev syncWaitCycles : Nat := 0xa01c03
/-- 0xA01C.04 bar_completions (U64, RO). -/
abbrev barCompletions : Nat := 0xa01c04
/-- 0xA01C.05 sync_faults (U32, RO). -/
abbrev syncFaults : Nat := 0xa01c05
/-- 0xA01C.06 sync_timeouts (U32, RO). -/
abbrev syncTimeouts : Nat := 0xa01c06
/-- 0xA01C.07 fabric_parity (U32, RO). -/
abbrev fabricParity : Nat := 0xa01c07
/-- 0xA01C.08 fabric_clear (ACTION, WA). -/
abbrev fabricClear : Nat := 0xa01c08
/-- 0x4001+n.01 link_state (ENUM, RO). -/
abbrev linkState (n : Nat) : Nat := 0x400101 + 256 * n
/-- 0x4001+n.02 link_rate (ENUM, RO). -/
abbrev linkRate (n : Nat) : Nat := 0x400102 + 256 * n
/-- 0x4001+n.03 link_width (U8, RO). -/
abbrev linkWidth (n : Nat) : Nat := 0x400103 + 256 * n
/-- 0x4010+n.01 cw_owner (ENUM, RO). -/
abbrev cwOwner (n : Nat) : Nat := 0x401001 + 256 * n
/-- 0x4010+n.02 cw_claim (ACTION, WA). -/
abbrev cwClaim (n : Nat) : Nat := 0x401002 + 256 * n
/-- 0x4010+n.03 cw_state (ENUM, RO). -/
abbrev cwState (n : Nat) : Nat := 0x401003 + 256 * n
/-- 0x4010+n.04 cw_next_seq (U32, RO). -/
abbrev cwNextSeq (n : Nat) : Nat := 0x401004 + 256 * n
/-- 0x4010+n.05 cw_queue (U8, RO). -/
abbrev cwQueue (n : Nat) : Nat := 0x401005 + 256 * n
/-- 0x4010+n.06 cw_last_step (U64, RO). -/
abbrev cwLastStep (n : Nat) : Nat := 0x401006 + 256 * n
/-- 0x4010+n.07 cw_last_step_seq (U32, RO). -/
abbrev cwLastStepSeq (n : Nat) : Nat := 0x401007 + 256 * n
/-- 0x4010+n.08 cw_halt_cause (U16, RO). -/
abbrev cwHaltCause (n : Nat) : Nat := 0x401008 + 256 * n
/-- 0x4010+n.09 cw_control (ACTION, WA). -/
abbrev cwControl (n : Nat) : Nat := 0x401009 + 256 * n
/-- 0x4010+n.0A cw_lease_ms (U32, RW). -/
abbrev cwLeaseMs (n : Nat) : Nat := 0x40100a + 256 * n
/-- 0x4800.01 step_abort (ACTION, WA). -/
abbrev stepAbort : Nat := 0x480001
/-- 0x4800.02 last_committed_step (U64, RO). -/
abbrev lastCommittedStep : Nat := 0x480002
/-- 0x4810+n.01 ring_base (U64, RW). -/
abbrev ringBase (n : Nat) : Nat := 0x481001 + 256 * n
/-- 0x4810+n.02 ring_order (U8, RW). -/
abbrev ringOrder (n : Nat) : Nat := 0x481002 + 256 * n
/-- 0x4810+n.03 ring_commit (ACTION, WA). -/
abbrev ringCommit (n : Nat) : Nat := 0x481003 + 256 * n
/-- 0x4810+n.04 ring_next (U32, RO). -/
abbrev ringNext (n : Nat) : Nat := 0x481004 + 256 * n
/-- 0x4810+n.05 ring_credited (U32, RO). -/
abbrev ringCredited (n : Nat) : Nat := 0x481005 + 256 * n
/-- 0x4810+n.06 ring_retained (U16, RO). -/
abbrev ringRetained (n : Nat) : Nat := 0x481006 + 256 * n
/-- 0x4810+n.07 irq_count (U16, RW). -/
abbrev irqCount (n : Nat) : Nat := 0x481007 + 256 * n
/-- 0x4810+n.08 irq_us (U32, RW). -/
abbrev irqUs (n : Nat) : Nat := 0x481008 + 256 * n
/-- 0xA020.01 cmd_accepted (U64, RO). -/
abbrev cmdAccepted : Nat := 0xa02001
/-- 0xA020.02 ring_written (U64, RO). -/
abbrev ringWritten : Nat := 0xa02002
/-- 0xA020.03 foreign_writes (U64, RO). -/
abbrev foreignWrites : Nat := 0xa02003
/-- 0xA020.04 crc_errors (U32, RO). -/
abbrev crcErrors : Nat := 0xa02004
/-- 0xA020.05 stale_writes (U64, RO). -/
abbrev staleWrites : Nat := 0xa02005
/-- 0xA020.06 seq_ahead (U32, RO). -/
abbrev seqAhead : Nat := 0xa02006
/-- 0xA020.07 promotions (U64, RO). -/
abbrev promotions : Nat := 0xa02007
/-- 0xA020.08 credit_range (U32, RO). -/
abbrev creditRange : Nat := 0xa02008
/-- 0xA020.09 cmd_clear (ACTION, WA). -/
abbrev cmdClear : Nat := 0xa02009
/-- 0x7400.01 run_seed (U64, RWS). -/
abbrev runSeed : Nat := 0x740001
/-- 0x7400.02 nf_policy (ENUM, RWS). -/
abbrev nfPolicy : Nat := 0x740002
/-- 0x7400.03 update_watchdog_us (U32, RW). -/
abbrev updateWatchdogUs : Nat := 0x740003
/-- 0x7401.01 to .FF layer_state (ENUM, RO). -/
abbrev layerState (k : Nat) : Nat := 0x740100 + k
/-- 0x7402.01 to .FF layer_digest (U64, RO). -/
abbrev layerDigest (k : Nat) : Nat := 0x740200 + k
/-- 0x7403.01 to .FF layer_rho (U16, RO). -/
abbrev layerRho (k : Nat) : Nat := 0x740300 + k
/-- 0x7404.01 step_digest (U64, RO). -/
abbrev stepDigest : Nat := 0x740401
/-- 0x7404.02 step_digest_step (U64, RO). -/
abbrev stepDigestStep : Nat := 0x740402
/-- 0x7040.01 spike_policy (ENUM, RWS). -/
abbrev spikePolicy : Nat := 0x704001
/-- 0x7040.02 spike_k (H16, RWS). -/
abbrev spikeK : Nat := 0x704002
/-- 0x7040.03 spike_alpha (H16, RWS). -/
abbrev spikeAlpha : Nat := 0x704003
/-- 0x7040.04 spike_warmup (U16, RWS). -/
abbrev spikeWarmup : Nat := 0x704004
/-- 0x7040.05 spike_run_max (U16, RWS). -/
abbrev spikeRunMax : Nat := 0x704005
/-- 0x7040.06 spike_mu (U16, RO). -/
abbrev spikeMu : Nat := 0x704006
/-- 0x7040.07 spike_dev (U16, RO). -/
abbrev spikeDev : Nat := 0x704007
/-- 0x7040.08 spike_seen (U16, RO). -/
abbrev spikeSeen : Nat := 0x704008
/-- 0x7040.09 spike_run (U16, RO). -/
abbrev spikeRun : Nat := 0x704009
/-- 0x7050.01 uw_high (H16, RW). -/
abbrev uwHigh : Nat := 0x705001
/-- 0x7050.02 uw_low (H16, RW). -/
abbrev uwLow : Nat := 0x705002
/-- 0x7051.01 to .FF uw_ratio (U16, RO). -/
abbrev uwRatio (k : Nat) : Nat := 0x705100 + k
/-- 0xA030.01 upd_tiles (U64, RO). -/
abbrev updTiles : Nat := 0xa03001
/-- 0xA030.02 upd_bytes (U64, RO). -/
abbrev updBytes : Nat := 0xa03002
/-- 0xA030.03 upd_restarts (U32, RO). -/
abbrev updRestarts : Nat := 0xa03003
/-- 0xA030.04 upd_recovered (U32, RO). -/
abbrev updRecovered : Nat := 0xa03004
/-- 0xA030.05 upd_skipped (U64, RO). -/
abbrev updSkipped : Nat := 0xa03005
/-- 0xA030.06 upd_rejected (U32, RO). -/
abbrev updRejected : Nat := 0xa03006
/-- 0xA030.07 upd_clear (ACTION, WA). -/
abbrev updClear : Nat := 0xa03007
/-- 0x6000.01 t1_pool_pages (U32, RO). -/
abbrev t1PoolPages : Nat := 0x600001
/-- 0x6000.02 t1_free_pages (U32, RO). -/
abbrev t1FreePages : Nat := 0x600002
/-- 0x6000.03 t1_low (U32, RW). -/
abbrev t1Low : Nat := 0x600003
/-- 0x6000.04 t1_high (U32, RW). -/
abbrev t1High : Nat := 0x600004
/-- 0x6000.05 t2_pool_pages (U32, RO). -/
abbrev t2PoolPages : Nat := 0x600005
/-- 0x6000.06 t2_free_pages (U32, RO). -/
abbrev t2FreePages : Nat := 0x600006
/-- 0x6000.07 t3_pool_pages (U32, RO). -/
abbrev t3PoolPages : Nat := 0x600007
/-- 0x6000.08 t3_low (U32, RW). -/
abbrev t3Low : Nat := 0x600008
/-- 0x6000.09 pin_limit_pages (U32, RO). -/
abbrev pinLimitPages : Nat := 0x600009
/-- 0x6001.01 to .0B class_t1 (U32, RO). -/
abbrev classT1 (k : Nat) : Nat := 0x600100 + k
/-- 0x6002.01 to .0B class_t2 (U32, RO). -/
abbrev classT2 (k : Nat) : Nat := 0x600200 + k
/-- 0x6003.01 to .0B class_t3 (U32, RO). -/
abbrev classT3 (k : Nat) : Nat := 0x600300 + k
/-- 0x6010.01 prefetch_depth (U8, RW). -/
abbrev prefetchDepth : Nat := 0x601001
/-- 0x6020+n.01 hl_pages (U32, RW). -/
abbrev hlPages (n : Nat) : Nat := 0x602001 + 256 * n
/-- 0x6020+n.02 hl_base (U64, RW). -/
abbrev hlBase (n : Nat) : Nat := 0x602002 + 256 * n
/-- 0x6020+n.03 hl_commit (ACTION, WA). -/
abbrev hlCommit (n : Nat) : Nat := 0x602003 + 256 * n
/-- 0x6020+n.04 hl_state (ENUM, RO). -/
abbrev hlState (n : Nat) : Nat := 0x602004 + 256 * n
/-- 0x6020+n.05 hl_notice_left_ms (U32, RO). -/
abbrev hlNoticeLeftMs (n : Nat) : Nat := 0x602005 + 256 * n
/-- 0x6020+n.06 hl_recall (ACTION, WA). -/
abbrev hlRecall (n : Nat) : Nat := 0x602006 + 256 * n
/-- 0x6030.01 nb_module (U16, RW). -/
abbrev nbModule : Nat := 0x603001
/-- 0x6030.02 nb_commit (ACTION, WA). -/
abbrev nbCommit : Nat := 0x603002
/-- 0x6030.03 nb_state (ENUM, RO). -/
abbrev nbState : Nat := 0x603003
/-- 0x6031.01 lend_enable (BOOL, RW). -/
abbrev lendEnable : Nat := 0x603101
/-- 0x6031.02 lend_pages (U32, RW). -/
abbrev lendPages : Nat := 0x603102
/-- 0x6031.03 lend_planes (U8, RW). -/
abbrev lendPlanes : Nat := 0x603103
/-- 0x6031.04 lend_notice_ms (U32, RW). -/
abbrev lendNoticeMs : Nat := 0x603104
/-- 0x6031.05 lend_recall (ACTION, WA). -/
abbrev lendRecall : Nat := 0x603105
/-- 0x6400+n.01 ch_state (ENUM, RO). -/
abbrev chState (n : Nat) : Nat := 0x640001 + 256 * n
/-- 0x6400+n.02 ch_temp (I32, RO). -/
abbrev chTemp (n : Nat) : Nat := 0x640002 + 256 * n
/-- 0x6400+n.03 ch_replays (U64, RO). -/
abbrev chReplays (n : Nat) : Nat := 0x640003 + 256 * n
/-- 0x6400+n.04 ch_uncorrectable (U32, RO). -/
abbrev chUncorrectable (n : Nat) : Nat := 0x640004 + 256 * n
/-- 0x6400+n.05 ch_retired (U32, RO). -/
abbrev chRetired (n : Nat) : Nat := 0x640005 + 256 * n
/-- 0x6410.01 scrub_period_h (U16, RW). -/
abbrev scrubPeriodH : Nat := 0x641001
/-- 0x6410.02 scrub_progress (U32, RO). -/
abbrev scrubProgress : Nat := 0x641002
/-- 0x6410.03 spare_pages (U16, RO). -/
abbrev sparePages : Nat := 0x641003
/-- 0x6410.04 refresh_interval_ns (U16, RO). -/
abbrev refreshIntervalNs : Nat := 0x641004
/-- 0xA040.01 tm_moves (U64, RO). -/
abbrev tmMoves : Nat := 0xa04001
/-- 0xA040.02 tm_evictions (U64, RO). -/
abbrev tmEvictions : Nat := 0xa04002
/-- 0xA040.03 tm_discards (U64, RO). -/
abbrev tmDiscards : Nat := 0xa04003
/-- 0xA040.04 tm_refetches (U64, RO). -/
abbrev tmRefetches : Nat := 0xa04004
/-- 0xA040.05 tm_wait_cycles (U64, RO). -/
abbrev tmWaitCycles : Nat := 0xa04005
/-- 0xA040.06 tm_stage_bytes (U64, RO). -/
abbrev tmStageBytes : Nat := 0xa04006
/-- 0xA040.07 tm_rejected (U32, RO). -/
abbrev tmRejected : Nat := 0xa04007
/-- 0xA040.08 tm_stage_stalls (U32, RO). -/
abbrev tmStageStalls : Nat := 0xa04008
/-- 0xA040.09 tm_move_retries (U32, RO). -/
abbrev tmMoveRetries : Nat := 0xa04009
/-- 0xA040.0A tm_clear (ACTION, WA). -/
abbrev tmClear : Nat := 0xa0400a
/-- 0xA044.01 bank_scrub_bytes (U64, RO). -/
abbrev bankScrubBytes : Nat := 0xa04401
/-- 0xA044.02 bank_ca_alerts (U64, RO). -/
abbrev bankCaAlerts : Nat := 0xa04402
/-- 0xA044.03 bank_write_retries (U64, RO). -/
abbrev bankWriteRetries : Nat := 0xa04403
/-- 0xA044.04 bank_clear (ACTION, WA). -/
abbrev bankClear : Nat := 0xa04404
/-- 0x6800.01 user_pages (U32, RO). -/
abbrev userPages : Nat := 0x680001
/-- 0x6800.02 wear_avg_pe (U16, RO). -/
abbrev wearAvgPe : Nat := 0x680002
/-- 0x6800.03 wear_max_pe (U16, RO). -/
abbrev wearMaxPe : Nat := 0x680003
/-- 0x6800.04 wear_rated_pe (U16, RO). -/
abbrev wearRatedPe : Nat := 0x680004
/-- 0x6800.05 rd_limit (U32, RW). -/
abbrev rdLimit : Nat := 0x680005
/-- 0x6800.06 retention_days (U16, RW). -/
abbrev retentionDays : Nat := 0x680006
/-- 0x6800.07 spare_min_die (U16, RO). -/
abbrev spareMinDie : Nat := 0x680007
/-- 0x6800.08 bad_blocks (U32, RO). -/
abbrev badBlocks : Nat := 0x680008
/-- 0x6800.09 dies_failed (U16, RO). -/
abbrev diesFailed : Nat := 0x680009
/-- 0x6810+n.01 sz_stripe_blocks (U16, RWS). -/
abbrev szStripeBlocks (n : Nat) : Nat := 0x681001 + 256 * n
/-- 0x6810+n.02 sz_state (ENUM, RO). -/
abbrev szState (n : Nat) : Nat := 0x681002 + 256 * n
/-- 0x6810+n.03 sz_wp (U64, RO). -/
abbrev szWp (n : Nat) : Nat := 0x681003 + 256 * n
/-- 0x6810+n.04 sz_reset (ACTION, WA). -/
abbrev szReset (n : Nat) : Nat := 0x681004 + 256 * n
/-- 0x6820.01 to .10 ckpt_handle (U32, RO). -/
abbrev ckptHandle (k : Nat) : Nat := 0x682000 + k
/-- 0x6821.01 to .10 ckpt_step (U64, RO). -/
abbrev ckptStep (k : Nat) : Nat := 0x682100 + k
/-- 0x6822.01 to .10 ckpt_digest (U64, RO). -/
abbrev ckptDigest (k : Nat) : Nat := 0x682200 + k
/-- 0x6823.01 to .10 ckpt_state (ENUM, RO). -/
abbrev ckptState (k : Nat) : Nat := 0x682300 + k
/-- 0x7801.01 to .10 dec_state (ENUM, RO). -/
abbrev decState (k : Nat) : Nat := 0x780100 + k
/-- 0x7810.01 last_position (U64, RO). -/
abbrev lastPosition : Nat := 0x781001
/-- 0x7810.02 last_sample (U32, RO). -/
abbrev lastSample : Nat := 0x781002
/-- 0x7810.03 last_error_cause (U8, RO). -/
abbrev lastErrorCause : Nat := 0x781003
/-- 0xA050.01 st_host_bytes (U64, RO). -/
abbrev stHostBytes : Nat := 0xa05001
/-- 0xA050.02 st_prog_bytes (U64, RO). -/
abbrev stProgBytes : Nat := 0xa05002
/-- 0xA050.03 st_read_bytes (U64, RO). -/
abbrev stReadBytes : Nat := 0xa05003
/-- 0xA050.04 st_retries (U64, RO). -/
abbrev stRetries : Nat := 0xa05004
/-- 0xA050.05 st_rebuilds (U32, RO). -/
abbrev stRebuilds : Nat := 0xa05005
/-- 0xA050.06 st_uncorrectable (U32, RO). -/
abbrev stUncorrectable : Nat := 0xa05006
/-- 0xA050.07 st_refreshes (U64, RO). -/
abbrev stRefreshes : Nat := 0xa05007
/-- 0xA050.08 st_clear (ACTION, WA). -/
abbrev stClear : Nat := 0xa05008
/-- 0xA054.01 in_samples (U64, RO). -/
abbrev inSamples : Nat := 0xa05401
/-- 0xA054.02 in_frames (U64, RO). -/
abbrev inFrames : Nat := 0xa05402
/-- 0xA054.03 in_tokens (U64, RO). -/
abbrev inTokens : Nat := 0xa05403
/-- 0xA054.04 in_sample_errors (U32, RO). -/
abbrev inSampleErrors : Nat := 0xa05404
/-- 0xA054.05 in_engine_resets (U32, RO). -/
abbrev inEngineResets : Nat := 0xa05405
/-- 0xA054.06 in_rejected (U32, RO). -/
abbrev inRejected : Nat := 0xa05406
/-- 0xA054.07 in_clear (ACTION, WA). -/
abbrev inClear : Nat := 0xa05407
/-- 0x5000+n.01 port_state (ENUM, RO). -/
abbrev portState (n : Nat) : Nat := 0x500001 + 256 * n
/-- 0x5000+n.02 port_power_state (ENUM, RO). -/
abbrev portPowerState (n : Nat) : Nat := 0x500002 + 256 * n
/-- 0x5000+n.03 id_result (ENUM, RO). -/
abbrev idResult (n : Nat) : Nat := 0x500003 + 256 * n
/-- 0x5000+n.04 peer_chassis (U64, RO). -/
abbrev peerChassis (n : Nat) : Nat := 0x500004 + 256 * n
/-- 0x5000+n.05 peer_switch_port (U16, RO). -/
abbrev peerSwitchPort (n : Nat) : Nat := 0x500005 + 256 * n
/-- 0x5000+n.06 logical_plane (U8, RO). -/
abbrev logicalPlane (n : Nat) : Nat := 0x500006 + 256 * n
/-- 0x5000+n.07 rtt_ns (U32, RO). -/
abbrev rttNs (n : Nat) : Nat := 0x500007 + 256 * n
/-- 0x5000+n.08 port_sleep (ENUM, RW). -/
abbrev portSleep (n : Nat) : Nat := 0x500008 + 256 * n
/-- 0x5010.01 plan_mode (ENUM, RWS). -/
abbrev planMode : Nat := 0x501001
/-- 0x5010.02 plan_module (U16, RWS). -/
abbrev planModule : Nat := 0x501002
/-- 0x5010.03 plan_pod (ENUM, RWS). -/
abbrev planPod : Nat := 0x501003
/-- 0x5010.04 plan_planes_used (U16, RWS). -/
abbrev planPlanesUsed : Nat := 0x501004
/-- 0x5010.05 replay_timer_us (U8, RW). -/
abbrev replayTimerUs : Nat := 0x501005
/-- 0x5010.06 lp1_idle_us (U16, RW). -/
abbrev lp1IdleUs : Nat := 0x501006
/-- 0x5010.07 remap_count (U32, RO). -/
abbrev remapCount : Nat := 0x501007
/-- 0x5011.01 to .10 plan_chassis (U64, RWS). -/
abbrev planChassis (k : Nat) : Nat := 0x501100 + k
/-- 0x5012.01 to .10 plan_switch_port (U16, RWS). -/
abbrev planSwitchPort (k : Nat) : Nat := 0x501200 + k
/-- 0x5013.01 to .10 plane_port (U8, RO). -/
abbrev planePort (k : Nat) : Nat := 0x501300 + k
/-- 0xA060+n.01 flits_tx (U64, RO). -/
abbrev flitsTx (n : Nat) : Nat := 0xa06001 + 256 * n
/-- 0xA060+n.02 flits_rx (U64, RO). -/
abbrev flitsRx (n : Nat) : Nat := 0xa06002 + 256 * n
/-- 0xA060+n.03 parity_errors (U64, RO). -/
abbrev parityErrors (n : Nat) : Nat := 0xa06003 + 256 * n
/-- 0xA060+n.04 fec_corrected (U64, RO). -/
abbrev fecCorrected (n : Nat) : Nat := 0xa06004 + 256 * n
/-- 0xA060+n.05 fec_uncorrectable (U64, RO). -/
abbrev fecUncorrectable (n : Nat) : Nat := 0xa06005 + 256 * n
/-- 0xA060+n.06 flits_replays (U64, RO). -/
abbrev flitsReplays (n : Nat) : Nat := 0xa06006 + 256 * n
/-- 0xA060+n.07 naks_sent (U64, RO). -/
abbrev naksSent (n : Nat) : Nat := 0xa06007 + 256 * n
/-- 0xA060+n.08 retrains (U32, RO). -/
abbrev retrains (n : Nat) : Nat := 0xa06008 + 256 * n
/-- 0xA060+n.09 ctrl_discards (U64, RO). -/
abbrev ctrlDiscards (n : Nat) : Nat := 0xa06009 + 256 * n
/-- 0xA060+n.0A link_clear (ACTION, WA). -/
abbrev linkClear (n : Nat) : Nat := 0xa0600a + 256 * n
/-- 0x5400.01 group_id (U16, RWS). -/
abbrev groupId : Nat := 0x540001
/-- 0x5400.02 group_members (BLOB, RWS). -/
abbrev groupMembers : Nat := 0x540002
/-- 0x5400.03 group_state (ENUM, RO). -/
abbrev groupState : Nat := 0x540003
/-- 0x5400.04 group_size (U16, RO). -/
abbrev groupSize : Nat := 0x540004
/-- 0x5400.05 group_rank (U16, RO). -/
abbrev groupRank : Nat := 0x540005
/-- 0x5400.06 group_anchor (U16, RO). -/
abbrev groupAnchor : Nat := 0x540006
/-- 0x5400.07 shape_digest (U32, RO). -/
abbrev shapeDigest : Nat := 0x540007
/-- 0x5400.08 mode_epoch (U32, RO). -/
abbrev modeEpoch : Nat := 0x540008
/-- 0x5400.09 mode_digest (U32, RO). -/
abbrev modeDigest : Nat := 0x540009
/-- 0x5400.0A prep_epoch (U32, RO). -/
abbrev prepEpoch : Nat := 0x54000a
/-- 0x5400.0B prep_step (U64, RO). -/
abbrev prepStep : Nat := 0x54000b
/-- 0x5400.0C coll_level (U8, RO). -/
abbrev collLevel : Nat := 0x54000c
/-- 0x5400.0D fw_mixed (BOOL, RO). -/
abbrev fwMixed : Nat := 0x54000d
/-- 0x5400.0E group_sync (BOOL, RWS). -/
abbrev groupSync : Nat := 0x54000e
/-- 0x5401.01 fail_detect_ms (U16, RW). -/
abbrev failDetectMs : Nat := 0x540101
/-- 0x5401.02 member_wait_ms (U32, RW). -/
abbrev memberWaitMs : Nat := 0x540102
/-- 0x5401.03 chunk_wait_us (U32, RW). -/
abbrev chunkWaitUs : Nat := 0x540103
/-- 0x5402.01 digest_interval (U16, RWS). -/
abbrev digestInterval : Nat := 0x540201
/-- 0x5402.02 twin_enable (BOOL, RWS). -/
abbrev twinEnable : Nat := 0x540202
/-- 0x5402.03 twin_wait_ms (U32, RW). -/
abbrev twinWaitMs : Nat := 0x540203
/-- 0x5402.04 last_compared_step (U64, RO). -/
abbrev lastComparedStep : Nat := 0x540204
/-- 0x5402.05 last_verdict (ENUM, RO). -/
abbrev lastVerdict : Nat := 0x540205
/-- 0x5402.06 odd_members (U16, RO). -/
abbrev oddMembers : Nat := 0x540206
/-- 0x5402.07 matched_ckpt (U32, RO). -/
abbrev matchedCkpt : Nat := 0x540207
/-- 0x5402.08 suspects (U8, RO). -/
abbrev suspects : Nat := 0x540208
/-- 0xA070.01 coll_bytes_tx (U64, RO). -/
abbrev collBytesTx : Nat := 0xa07001
/-- 0xA070.02 coll_resends (U64, RO). -/
abbrev collResends : Nat := 0xa07002
/-- 0xA070.03 coll_duplicates (U64, RO). -/
abbrev collDuplicates : Nat := 0xa07003
/-- 0xA070.04 coll_mismatch_cycles (U64, RO). -/
abbrev collMismatchCycles : Nat := 0xa07004
/-- 0xA070.05 member_failures (U32, RO). -/
abbrev memberFailures : Nat := 0xa07005
/-- 0xA070.06 digest_repairs (U32, RO). -/
abbrev digestRepairs : Nat := 0xa07006
/-- 0xA070.07 span_faults (U32, RO). -/
abbrev spanFaults : Nat := 0xa07007
/-- 0xA070.08 coll_rejected (U32, RO). -/
abbrev collRejected : Nat := 0xa07008
/-- 0xA070.09 coll_clear (ACTION, WA). -/
abbrev collClear : Nat := 0xa07009
/-- 0x2000.01 vin_mv (U32, RO). -/
abbrev vinMv : Nat := 0x200001
/-- 0x2000.02 iin_ma (U32, RO). -/
abbrev iinMa : Nat := 0x200002
/-- 0x2000.03 pin_w (U16, RO). -/
abbrev pinW : Nat := 0x200003
/-- 0x2000.04 pin_avg_w (U16, RO). -/
abbrev pinAvgW : Nat := 0x200004
/-- 0x2000.05 pin_peak_w (U16, RO). -/
abbrev pinPeakW : Nat := 0x200005
/-- 0x2000.06 energy_j (U64, RO). -/
abbrev energyJ : Nat := 0x200006
/-- 0x2010.01 cap_w (U16, RW). -/
abbrev capW : Nat := 0x201001
/-- 0x2010.02 cap_in_force_w (U16, RO). -/
abbrev capInForceW : Nat := 0x201002
/-- 0x2010.03 cap_limiter (ENUM, RO). -/
abbrev capLimiter : Nat := 0x201003
/-- 0x2010.04 input_slew (U16, RW). -/
abbrev inputSlew : Nat := 0x201004
/-- 0x2010.05 power_state (ENUM, RO). -/
abbrev powerState : Nat := 0x201005
/-- 0x2200.01 op_in_force (U8, RO). -/
abbrev opInForce : Nat := 0x220001
/-- 0x2200.02 duty (U16, RO). -/
abbrev duty : Nat := 0x220002
/-- 0x2200.03 pace_sent (U16, RO). -/
abbrev paceSent : Nat := 0x220003
/-- 0x2200.04 ceiling_budget (U8, RO). -/
abbrev ceilingBudget : Nat := 0x220004
/-- 0x2200.05 ceiling_thermal (U8, RO). -/
abbrev ceilingThermal : Nat := 0x220005
/-- 0x2200.06 ceiling_pace (U8, RO). -/
abbrev ceilingPace : Nat := 0x220006
/-- 0x2200.07 deferred (ENUM, RO). -/
abbrev deferred : Nat := 0x220007
/-- 0x2201.01 to .05 grant_w (U16, RO). -/
abbrev grantW (k : Nat) : Nat := 0x220100 + k
/-- 0x2202.01 to .05 request_w (U16, RO). -/
abbrev requestW (k : Nat) : Nat := 0x220200 + k
/-- 0x2210.01 pace_follow (BOOL, RW). -/
abbrev paceFollow : Nat := 0x221001
/-- 0x2210.02 pace_source (U16, RO). -/
abbrev paceSource : Nat := 0x221002
/-- 0x2220.01 est_gain (U16, RO). -/
abbrev estGain : Nat := 0x222001
/-- 0x2220.02 est_error_w (I32, RO). -/
abbrev estErrorW : Nat := 0x222002
/-- 0x2400.01 to .18 pair_value (I32, RO). -/
abbrev pairValue (k : Nat) : Nat := 0x240000 + k
/-- 0x2401.01 to .30 sensor_raw (I32, RO). -/
abbrev sensorRaw (k : Nat) : Nat := 0x240100 + k
/-- 0x2402.01 to .18 pair_status (ENUM, RO). -/
abbrev pairStatus (k : Nat) : Nat := 0x240200 + k
/-- 0x2403.01 to .18 pair_coeff (U32, RO). -/
abbrev pairCoeff (k : Nat) : Nat := 0x240300 + k
/-- 0x2410.01 tj (I32, RO). -/
abbrev tj : Nat := 0x241001
/-- 0x2410.02 throttle_c (U8, RW). -/
abbrev throttleC : Nat := 0x241002
/-- 0x2410.03 high_c (U8, RW). -/
abbrev highC : Nat := 0x241003
/-- 0x2410.04 trip_c (U8, RO). -/
abbrev tripC : Nat := 0x241004
/-- 0x2410.05 trips_total (U32, RO). -/
abbrev tripsTotal : Nat := 0x241005
/-- 0x2420.01 to .04 flash_temp (I32, RO). -/
abbrev flashTemp (k : Nat) : Nat := 0x242000 + k
/-- 0x2600.01 inlet (I32, RO). -/
abbrev inlet : Nat := 0x260001
/-- 0x2600.02 outlet (I32, RO). -/
abbrev outlet : Nat := 0x260002
/-- 0x2600.03 flow_ml_min (U16, RO). -/
abbrev flowMlMin : Nat := 0x260003
/-- 0x2600.04 report_age_ms (U16, RO). -/
abbrev reportAgeMs : Nat := 0x260004
/-- 0x2600.05 heat_limit_w (U16, RO). -/
abbrev heatLimitW : Nat := 0x260005
/-- 0x2600.06 flow_state (ENUM, RO). -/
abbrev flowState : Nat := 0x260006
/-- 0x2610.01 coolant_rhoc (U16, RW). -/
abbrev coolantRhoc : Nat := 0x261001
/-- 0x2610.02 theta (U32, RO). -/
abbrev theta : Nat := 0x261002
/-- 0xA080.01 throttled_ms (U64, RO). -/
abbrev throttledMs : Nat := 0xa08001
/-- 0xA080.02 following_ms (U64, RO). -/
abbrev followingMs : Nat := 0xa08002
/-- 0xA080.03 parks (U32, RO). -/
abbrev parks : Nat := 0xa08003
/-- 0xA080.04 report_discards (U32, RO). -/
abbrev reportDiscards : Nat := 0xa08004
/-- 0xA080.05 sensor_discards (U64, RO). -/
abbrev sensorDiscards : Nat := 0xa08005
/-- 0xA080.06 e2_deferred_ms (U64, RO). -/
abbrev e2DeferredMs : Nat := 0xa08006
/-- 0xA080.07 pt_clear (ACTION, WA). -/
abbrev ptClear : Nat := 0xa08007
/-- 0x1100.01 power_session (U32, RO). -/
abbrev powerSession : Nat := 0x110001
/-- 0x1100.02 drone_ticks (U64, RO). -/
abbrev droneTicks : Nat := 0x110002
/-- 0x1100.03 powered_s_total (U64, RO). -/
abbrev poweredSTotal : Nat := 0x110003
/-- 0x1100.04 session_start_powered_s (U64, RO). -/
abbrev sessionStartPoweredS : Nat := 0x110004
/-- 0x3000.01 spine_mhz (U16, RO). -/
abbrev spineMhz : Nat := 0x300001
/-- 0x3001.01 to .0C region_level (U8, RO). -/
abbrev regionLevel (k : Nat) : Nat := 0x300100 + k
/-- 0x3002.01 to .0C region_stretch_ppm (U32, RO). -/
abbrev regionStretchPpm (k : Nat) : Nat := 0x300200 + k
/-- 0x3003.01 to .0C region_margin (U8, RO). -/
abbrev regionMargin (k : Nat) : Nat := 0x300300 + k
/-- 0x3010.01 vtrim_mv (I32, RO). -/
abbrev vtrimMv : Nat := 0x301001
/-- 0x3010.02 margin_target (U8, RW). -/
abbrev marginTarget : Nat := 0x301002
/-- 0x3010.03 stretch_taps (U8, RW). -/
abbrev stretchTaps : Nat := 0x301003
/-- 0x3011.01 to .08 learned_trim (I32, RO). -/
abbrev learnedTrim (k : Nat) : Nat := 0x301100 + k
/-- 0x3012.01 reed_masked (U16, RO). -/
abbrev reedMasked : Nat := 0x301201
/-- 0x3020.01 age_count (U16, RO). -/
abbrev ageCount : Nat := 0x302001
/-- 0x3020.02 age_select (U16, RW). -/
abbrev ageSelect : Nat := 0x302002
/-- 0x3020.03 age_record (BLOB, RO). -/
abbrev ageRecord : Nat := 0x302003
/-- 0xA090.01 stretch_cycles (U64, RO). -/
abbrev stretchCycles : Nat := 0xa09001
/-- 0xA090.02 stretch_episodes (U64, RO). -/
abbrev stretchEpisodes : Nat := 0xa09002
/-- 0xA090.03 dcq_credit_stalls (U64, RO). -/
abbrev dcqCreditStalls : Nat := 0xa09003
/-- 0xA090.04 drone_corrections (U32, RO). -/
abbrev droneCorrections : Nat := 0xa09004
/-- 0xA090.05 margin_low_events (U32, RO). -/
abbrev marginLowEvents : Nat := 0xa09005
/-- 0xA090.06 clk_clear (ACTION, WA). -/
abbrev clkClear : Nat := 0xa09006
/-- 0x1000.01 part_number (STR, RO). -/
abbrev partNumber : Nat := 0x100001
/-- 0x1000.02 hw_revision (U8, RO). -/
abbrev hwRevision : Nat := 0x100002
/-- 0x1000.03 serial (STR, RO). -/
abbrev serial : Nat := 0x100003
/-- 0x1000.04 fw_version (U32, RO). -/
abbrev fwVersion : Nat := 0x100004
/-- 0x1000.05 dict_version (U16, RO). -/
abbrev dictVersion : Nat := 0x100005
/-- 0x1000.06 numerics_level (U8, RO). -/
abbrev numericsLevel : Nat := 0x100006
/-- 0x1000.07 base_mac (U64, RO). -/
abbrev baseMac : Nat := 0x100007
/-- 0x1000.08 pci_vendor (U16, RO). -/
abbrev pciVendor : Nat := 0x100008
/-- 0x1000.09 pci_device (U16, RO). -/
abbrev pciDevice : Nat := 0x100009
/-- 0x1000.0A iana_enterprise (U32, RO). -/
abbrev ianaEnterprise : Nat := 0x10000a
/-- 0x1000.0B lot (STR, RO). -/
abbrev lot : Nat := 0x10000b
/-- 0x1000.0C vendor (STR, RO). -/
abbrev vendor : Nat := 0x10000c
/-- 0x1000.0D family (STR, RO). -/
abbrev family : Nat := 0x10000d
/-- 0x1010.01 settings_save (ACTION, WA). -/
abbrev settingsSave : Nat := 0x101001
/-- 0x1010.02 settings_defaults (ACTION, WA). -/
abbrev settingsDefaults : Nat := 0x101002
/-- 0x1010.03 settings_state (ENUM, RO). -/
abbrev settingsState : Nat := 0x101003
/-- 0x1030.01 fld_mac (U64, RO). -/
abbrev fldMac : Nat := 0x103001
/-- 0x1030.02 fld_node (U8, RW). -/
abbrev fldNode : Nat := 0x103002
/-- 0x1030.03 fld_writes (BOOL, RW). -/
abbrev fldWrites : Nat := 0x103003
/-- 0x1030.04 tray_mac (U64, RW). -/
abbrev trayMac : Nat := 0x103004
/-- 0x1030.05 tray_mac_learned (U64, RO). -/
abbrev trayMacLearned : Nat := 0x103005
/-- 0x1040.01 to .02 mctp_eid (U8, RO). -/
abbrev mctpEid (k : Nat) : Nat := 0x104000 + k
/-- 0x9000.01 event_next (U32, RO). -/
abbrev eventNext : Nat := 0x900001
/-- 0x9000.02 event_oldest (U32, RO). -/
abbrev eventOldest : Nat := 0x900002
/-- 0x9001.01 module_state (ENUM, RO). -/
abbrev moduleState : Nat := 0x900101
/-- 0x9003.01 to .02 evt_irq (BOOL, RW). -/
abbrev evtIrq (k : Nat) : Nat := 0x900300 + k
/-- 0x9003.03 evt_irq_us (U32, RW). -/
abbrev evtIrqUs : Nat := 0x900303
/-- 0x9004.01 evt_sub_mac (U64, RW). -/
abbrev evtSubMac : Nat := 0x900401
/-- 0x9004.02 to .03 evt_sub_eid (U8, RW). -/
abbrev evtSubEid (k : Nat) : Nat := 0x900400 + k
/-- 0x9100.01 to .0F flags (U32, RO). -/
abbrev flags (k : Nat) : Nat := 0x910000 + k
/-- 0x9101.01 to .0F flags_clear (ACTION, WA). -/
abbrev flagsClear (k : Nat) : Nat := 0x910100 + k
/-- 0x9201+n.01 to .20 occurrences (U32, RO). -/
abbrev occurrences (n k : Nat) : Nat := 0x920100 + 256 * n + k
/-- 0xA0A0.01 dict_frames_rx (U64, RO). -/
abbrev dictFramesRx : Nat := 0xa0a001
/-- 0xA0A0.02 dict_frames_tx (U64, RO). -/
abbrev dictFramesTx : Nat := 0xa0a002
/-- 0xA0A0.03 dict_discards (U32, RO). -/
abbrev dictDiscards : Nat := 0xa0a003
/-- 0xA0A0.04 dict_rejected (U64, RO). -/
abbrev dictRejected : Nat := 0xa0a004
/-- 0xA0A0.05 tray_reports (U64, RO). -/
abbrev trayReports : Nat := 0xa0a005
/-- 0xA0A0.06 dict_repeats (U64, RO). -/
abbrev dictRepeats : Nat := 0xa0a006
/-- 0xA0A0.07 dict_clear (ACTION, WA). -/
abbrev dictClear : Nat := 0xa0a007
/-- 0x8000.01 active_slot (ENUM, RO). -/
abbrev activeSlot : Nat := 0x800001
/-- 0x8000.02 boot_state (ENUM, RO). -/
abbrev bootState : Nat := 0x800002
/-- 0x8000.03 fw_svn (U8, RO). -/
abbrev fwSvn : Nat := 0x800003
/-- 0x8000.04 fw_confirm (ACTION, WA). -/
abbrev fwConfirm : Nat := 0x800004
/-- 0x8000.05 fw_revert (ACTION, WA). -/
abbrev fwRevert : Nat := 0x800005
/-- 0x8001+n.01 slot_state (ENUM, RO). -/
abbrev slotState (n : Nat) : Nat := 0x800101 + 256 * n
/-- 0x8001+n.02 slot_fw_version (U32, RO). -/
abbrev slotFwVersion (n : Nat) : Nat := 0x800102 + 256 * n
/-- 0x8001+n.03 slot_svn (U8, RO). -/
abbrev slotSvn (n : Nat) : Nat := 0x800103 + 256 * n
/-- 0x8001+n.04 slot_dict_version (U16, RO). -/
abbrev slotDictVersion (n : Nat) : Nat := 0x800104 + 256 * n
/-- 0x8001+n.05 slot_manifest_hash (BLOB, RO). -/
abbrev slotManifestHash (n : Nat) : Nat := 0x800105 + 256 * n
/-- 0x8001+n.06 slot_reject_reason (U8, RO). -/
abbrev slotRejectReason (n : Nat) : Nat := 0x800106 + 256 * n
/-- 0x8010.01 act_mode (ENUM, RO). -/
abbrev actMode : Nat := 0x801001
/-- 0x8010.02 act_tick (U64, RW). -/
abbrev actTick : Nat := 0x801002
/-- 0x8010.03 act_step (U64, RO). -/
abbrev actStep : Nat := 0x801003
/-- 0x8020.01 settings_reset_count (U16, RO). -/
abbrev settingsResetCount : Nat := 0x802001
/-- 0x8020.02 settings_reset_list (BLOB, RO). -/
abbrev settingsResetList : Nat := 0x802002
/-- 0x8400.01 sec_state (ENUM, RO). -/
abbrev secState : Nat := 0x840001
/-- 0x8400.02 key_revoked (U8, RO). -/
abbrev keyRevoked : Nat := 0x840002
/-- 0x8400.03 lms_remaining (U32, RO). -/
abbrev lmsRemaining : Nat := 0x840003
/-- 0x8400.04 lms_total (U32, RO). -/
abbrev lmsTotal : Nat := 0x840004
/-- 0x8400.05 att_min_interval_s (U16, RW). -/
abbrev attMinIntervalS : Nat := 0x840005
/-- 0x8400.06 att_reports (U32, RO). -/
abbrev attReports : Nat := 0x840006
/-- 0x8400.07 ide_required (BOOL, RW). -/
abbrev ideRequired : Nat := 0x840007
/-- 0x8401.01 to .02 ide_state (ENUM, RO). -/
abbrev ideState (k : Nat) : Nat := 0x840100 + k
end Obj

/-! ### Event codes (R426, R463, R491) -/
namespace Ev
abbrev backgroundStarved : Nat := 0x0101
abbrev tileMapInfeasible : Nat := 0x0102
abbrev nonfiniteSeen : Nat := 0x0201
abbrev fallbackEntered : Nat := 0x0202
abbrev fallbackLeft : Nat := 0x0203
abbrev formatPressure : Nat := 0x0204
abbrev lossSpike : Nat := 0x0205
abbrev spikePersistent : Nat := 0x0206
abbrev uwRatioHigh : Nat := 0x0207
abbrev uwRatioLow : Nat := 0x0208
abbrev descRejected : Nat := 0x0301
abbrev castFault : Nat := 0x0302
abbrev indexRange : Nat := 0x0303
abbrev syncFault : Nat := 0x0304
abbrev syncTimeout : Nat := 0x0305
abbrev fabricParity : Nat := 0x0306
abbrev recordCrc : Nat := 0x0401
abbrev seqAhead : Nat := 0x0402
abbrev windowMismatch : Nat := 0x0403
abbrev creditRange : Nat := 0x0404
abbrev resultsBacklog : Nat := 0x0405
abbrev auditMismatch : Nat := 0x0406
abbrev ownershipForced : Nat := 0x0407
abbrev ownerLeaseExpired : Nat := 0x0408
abbrev updateRejected : Nat := 0x0501
abbrev updateRestart : Nat := 0x0502
abbrev updateJournalFault : Nat := 0x0503
abbrev updateRecovered : Nat := 0x0504
abbrev updateSkipped : Nat := 0x0505
abbrev stateLost : Nat := 0x0506
abbrev restoreFault : Nat := 0x0507
abbrev updateMissing : Nat := 0x0508
abbrev tierFull : Nat := 0x0601
abbrev lenderRecall : Nat := 0x0602
abbrev lenderLost : Nat := 0x0603
abbrev stageStall : Nat := 0x0604
abbrev bankHot : Nat := 0x0605
abbrev scrubLate : Nat := 0x0606
abbrev bankUncorrectable : Nat := 0x0607
abbrev bankSparesLow : Nat := 0x0608
abbrev moveFailed : Nat := 0x0609
abbrev storeDieFailed : Nat := 0x0701
abbrev storeUncorrectable : Nat := 0x0702
abbrev storeSparesLow : Nat := 0x0703
abbrev wearHigh : Nat := 0x0704
abbrev ckptDamaged : Nat := 0x0705
abbrev ckptFault : Nat := 0x0706
abbrev decEngineFailed : Nat := 0x0707
abbrev sampleError : Nat := 0x0708
abbrev linkUp : Nat := 0x0801
abbrev linkDown : Nat := 0x0802
abbrev linkRetrain : Nat := 0x0803
abbrev linkFailed : Nat := 0x0804
abbrev lldpMissing : Nat := 0x0805
abbrev cableSwap : Nat := 0x0806
abbrev cableMisplaced : Nat := 0x0807
abbrev cableForeign : Nat := 0x0808
abbrev cableDuplicate : Nat := 0x0809
abbrev cableSwitchPort : Nat := 0x080A
abbrev cableRemapped : Nat := 0x080B
abbrev levelMismatch : Nat := 0x0901
abbrev fwMixed : Nat := 0x0902
abbrev joinWait : Nat := 0x0903
abbrev memberTimeout : Nat := 0x0904
abbrev groupShrunk : Nat := 0x0905
abbrev modeMismatch : Nat := 0x0906
abbrev modeCancelled : Nat := 0x0907
abbrev minority : Nat := 0x0908
abbrev spanFault : Nat := 0x0909
abbrev digestMismatch : Nat := 0x090A
abbrev twinMode : Nat := 0x090B
abbrev twinLate : Nat := 0x090C
abbrev moduleRetired : Nat := 0x090D
abbrev inputOvp : Nat := 0x0A01
abbrev inputHigh : Nat := 0x0A02
abbrev inputLow : Nat := 0x0A03
abbrev inputLowPark : Nat := 0x0A04
abbrev estimatorDrift : Nat := 0x0A05
abbrev bellowsTimeout : Nat := 0x0A06
abbrev bellowsRestart : Nat := 0x0A07
abbrev capInfeasible : Nat := 0x0A08
abbrev thermalThrottle : Nat := 0x0B01
abbrev thermalHigh : Nat := 0x0B02
abbrev thermalCritical : Nat := 0x0B03
abbrev thermalTrip : Nat := 0x0B04
abbrev sensorWarn : Nat := 0x0B05
abbrev sensorSuspect : Nat := 0x0B06
abbrev sensorDiscarded : Nat := 0x0B07
abbrev coolantReportsLost : Nat := 0x0B08
abbrev flowLow80 : Nat := 0x0B09
abbrev flowLow60 : Nat := 0x0B0A
abbrev flowStopReported : Nat := 0x0B0B
abbrev flowLoss : Nat := 0x0B0C
abbrev holdDeep : Nat := 0x0B0D
abbrev inletHigh : Nat := 0x0B0E
abbrev inletLow : Nat := 0x0B0F
abbrev outletHigh : Nat := 0x0B10
abbrev coolantMismatch : Nat := 0x0B11
abbrev reedMasked : Nat := 0x0C01
abbrev marginLow : Nat := 0x0C02
abbrev marginAged : Nat := 0x0C03
abbrev droneSkew : Nat := 0x0C04
abbrev sessionFault : Nat := 0x0C05
abbrev sessionExhausted : Nat := 0x0C06
abbrev settingsLoadFault : Nat := 0x0D01
abbrev fieldLinkLost : Nat := 0x0D02
abbrev logOverrun : Nat := 0x0D03
abbrev settingsSaveFault : Nat := 0x0D04
abbrev fwStaged : Nat := 0x0E01
abbrev fwStageRejected : Nat := 0x0E02
abbrev fwActivated : Nat := 0x0E03
abbrev fwReverted : Nat := 0x0E04
abbrev fwConfirmed : Nat := 0x0E05
abbrev fwBootFault : Nat := 0x0E06
abbrev settingsReset : Nat := 0x0E07
abbrev keyRevoked : Nat := 0x0E08
abbrev svnFuseFault : Nat := 0x0E09
abbrev lmsLow : Nat := 0x0E0A
abbrev lmsExhausted : Nat := 0x0E0B
abbrev ideStopped : Nat := 0x0E0C
abbrev vendorTestEntered : Nat := 0x0E0D
abbrev trayWithdrawn : Nat := 0x0F01
abbrev powerFail : Nat := 0x0F02
abbrev startupStageFault : Nat := 0x0F03
abbrev selfTestFault : Nat := 0x0F04
abbrev tileRetirePending : Nat := 0x0F05
abbrev tileRetired : Nat := 0x0F06
abbrev lifeWarn : Nat := 0x0F07
abbrev lifeExceeded : Nat := 0x0F08
abbrev joinTransfer : Nat := 0x0F09
end Ev

/-- The highest ordinal of each event block, 0x01 to 0x0F (Table 15.9, Tables 16.10 and 18.8). -/
def evMax (b : Nat) : Nat := [0, 2, 8, 6, 8, 8, 9, 8, 11, 13, 8, 17, 6, 4, 13, 9].getD b 0

/-- Does the row hold the object `idx.sub`? The occurrence counters end at their block's last ordinal (R440). -/
def ObjRow.has (r : ObjRow) (idx sub : Nat) : Bool :=
  r.i0 ≤ idx && idx ≤ r.i1 && r.s0 ≤ sub && sub ≤ r.s1 && (decide (idx / 256 ≠ 0x92) || decide (sub ≤ evMax (idx % 256)))

/-- The row of the object `idx.sub`, none where the address names no object (R406). -/
def objRow (idx sub : Nat) : Option ObjRow := objRows.findSome? fun rs => rs.find? fun r => r.has idx sub

/-- The highest subindex at an index, which subindex 0 returns (R406); 0 where the index holds no object. -/
def objTop (idx : Nat) : Nat :=
  (objRows.flatten.filter fun r => decide (r.i0 ≤ idx ∧ idx ≤ r.i1)).foldl
    (fun m r => max m (if idx / 256 = 0x92 then min r.s1 (evMax (idx % 256)) else r.s1)) 0

/-- Bytes on the wire of a type of fixed width (Table 15.1); a BLOB's width is its object's. -/
def ObjTy.width (t : ObjTy) (key : Nat) : Nat :=
  match t with
  | .u8 | .bool | .enum => 1
  | .u16 | .h16 => 2
  | .u32 | .i32 | .action => 4
  | .u64 => 8
  | .blob => if key / 256 = 0x5400 then 64 else if key / 256 = 0x3020 then 64 else 48
  | .str => 0

/-- A factory value within its object's width; base_mac is below 2^48 with its five low bits zero (R438). -/
def factoryVal (key : Nat) (t : ObjTy) : Nat :=
  if key = Obj.baseMac then Config.factory key / 2 ^ 35 % 2 ^ 6 * 2 ^ 42 + Config.factory key % 2 ^ 35 * 32 else Config.factory key % 256 ^ t.width key

/-- The value an object holds before anything sets it. -/
def objDflt (key : Nat) : Nat :=
  match objRow (key / 256) (key % 256) with
  | none => 0
  | some r =>
    match r.dflt with
    | .const n => n
    | .sub1 => key % 256 - 1
    | .idx => key / 256 - r.i0
    | .factory => factoryVal key r.ty
    | .fldMac => factoryVal Obj.baseMac .u64 + 16

/-- The type code of Table 15.1. -/
def ObjTy.code : ObjTy → Nat
  | .u8 => 1 | .u16 => 2 | .u32 => 3 | .u64 => 4 | .i32 => 5 | .h16 => 6 | .bool => 7 | .enum => 8 | .str => 9
  | .blob => 10 | .action => 11

/-- Is `v` in the object's range (the range check of R411)? A claim word is checked with its source (R423). -/
def ObjRng.ok : ObjRng → Nat → Bool
  | .any, _ => true
  | .span lo hi, v => decide (lo ≤ v ∧ v ≤ hi)
  | .spanOr lo hi o, v => decide (lo ≤ v ∧ v ≤ hi) || o.contains v
  | .mult n, v => v % n == 0
  | .claim, v => decide (v < 64 ∧ 1 ≤ v % 16 ∧ v % 16 ≤ 4 ∧ v / 16 ≤ 2)

end Sys2Proof.Machine
end

