-- ==== Sys2Proof/Machine/Num.lean ====
section
/-! DEFINITION. Exact numbers and the number formats of the module: encodings (R28 to R37), two-level scaling (R38 to R41),
rounding to nearest even (R42), the wide accumulator's rounding (R50) and stochastic rounding (R52). Every arithmetic value of
the model is an exact rational `n / d * 2^e`; a unit narrows it once, where its rule says so. -/
namespace Sys2Proof.Machine

/-- An exact value `n / d * 2^e`, `d` not zero. Not kept in lowest terms; the operations below compare and round by value. -/
structure Ex where
  n : Int
  d : Nat
  e : Int
  deriving DecidableEq, Repr

namespace Ex

def zero : Ex := ⟨0, 1, 0⟩
/-- The integer `i`. -/
def int (i : Int) : Ex := ⟨i, 1, 0⟩
/-- The dyadic value `m * 2^e`. -/
def dy (m e : Int) : Ex := ⟨m, 1, e⟩
def neg (x : Ex) : Ex := ⟨-x.n, x.d, x.e⟩
def abs (x : Ex) : Ex := ⟨x.n.natAbs, x.d, x.e⟩
def mul (x y : Ex) : Ex := ⟨x.n * y.n, x.d * y.d, x.e + y.e⟩
/-- `x * 2^k`. -/
def scale (x : Ex) (k : Int) : Ex := ⟨x.n, x.d, x.e + k⟩
/-- Exact sum, over the smaller of the two powers of two. -/
def add (x y : Ex) : Ex :=
  let e := min x.e y.e
  let a := x.n * 2 ^ (x.e - e).toNat
  let b := y.n * 2 ^ (y.e - e).toNat
  if x.d = y.d then ⟨a + b, x.d, e⟩ else ⟨a * y.d + b * x.d, x.d * y.d, e⟩
def sub (x y : Ex) : Ex := x.add y.neg
/-- Exact quotient; the divisor is not zero where this is used. -/
def div (x y : Ex) : Ex :=
  ⟨if y.n < 0 then -(x.n * y.d) else x.n * y.d, x.d * y.n.natAbs, x.e - y.e⟩
def isZero (x : Ex) : Bool := x.n == 0
def isNeg (x : Ex) : Bool := x.n < 0
/-- The sign of `x - y` decides every comparison. -/
def cmp (x y : Ex) : Ordering := compare (x.sub y).n 0
def lt (x y : Ex) : Bool := (x.sub y).n < 0
def le (x y : Ex) : Bool := (x.sub y).n ≤ 0
def eq (x y : Ex) : Bool := (x.sub y).n == 0
def max (x y : Ex) : Ex := if x.lt y then y else x
def min (x y : Ex) : Ex := if y.lt x then y else x

/-- `|x| / 2^k` as a fraction of naturals. -/
def frac (x : Ex) (k : Int) : Nat × Nat :=
  let j := x.e - k
  if 0 ≤ j then (x.n.natAbs * 2 ^ j.toNat, x.d) else (x.n.natAbs, x.d * 2 ^ (-j).toNat)

/-- `floor(log2 |x|)` for `x` not zero. -/
def log2 (x : Ex) : Int :=
  let k : Int := (Nat.log2 x.n.natAbs : Int) - (Nat.log2 x.d : Int)
  let ge : Bool := if 0 ≤ k then decide (x.d * 2 ^ k.toNat ≤ x.n.natAbs) else decide (x.d ≤ x.n.natAbs * 2 ^ (-k).toNat)
  (if ge then k else k - 1) + x.e

/-- The smallest integer `k` with `|x| ≤ 2^k`, for `x` not zero. -/
def ceilLog2 (x : Ex) : Int :=
  let k := x.log2
  let (p, q) := x.frac k
  if p = q then k else k + 1

/-- `floor(|x| / 2^k)`. -/
def floorAbs (x : Ex) (k : Int) : Nat := let (p, q) := x.frac k; p / q

/-- `round_half_even(|x| / 2^k)` (R42). -/
def roundAbs (x : Ex) (k : Int) : Nat :=
  let (p, q) := x.frac k
  let f := p / q
  let r := 2 * (p % q)
  if q < r ∨ (r = q ∧ f % 2 = 1) then f + 1 else f

/-- `floor(x)`. -/
def floor (x : Ex) : Int :=
  let (p, q) := x.frac 0
  if x.n < 0 then -(((p + q - 1) / q : Nat) : Int) else ((p / q : Nat) : Int)

/-- `round_half_even(x)` as an integer. -/
def round (x : Ex) : Int := if x.n < 0 then -(x.roundAbs 0 : Int) else (x.roundAbs 0 : Int)

/-- Attach the sign of `x` to the magnitude `q * 2^k`. -/
def withSign (x : Ex) (q : Nat) (k : Int) : Ex := ⟨if x.n < 0 then -(q : Int) else q, 1, k⟩

end Ex

/-! ### Element formats -/

/-- The nine element formats, in the code order the descriptors use (R28, R34). -/
inductive Fmt where
  | f8 | g8 | h16 | g16 | q4 | w2 | t1 | a8 | e8
  deriving DecidableEq, Repr

namespace Fmt
/-- The float formats of Table 2.1. -/
def isFloat : Fmt → Bool
  | .f8 | .g8 | .h16 | .g16 | .q4 => true
  | _ => false
/-- Fraction bits (Table 2.1). -/
def frac : Fmt → Nat
  | .f8 => 3 | .g8 => 2 | .h16 => 9 | .g16 => 7 | .q4 => 1 | _ => 0
/-- Exponent bias (Table 2.1). -/
def bias : Fmt → Int
  | .f8 => 8 | .g8 => 16 | .h16 => 32 | .g16 => 127 | .q4 => 1 | _ => 0
/-- Bits of a code, T1 apart (Tables 2.1 and 2.2). -/
def bits : Fmt → Nat
  | .f8 | .g8 | .a8 | .e8 => 8
  | .h16 | .g16 => 16
  | .q4 => 4
  | .w2 => 2
  | .t1 => 2
/-- Bytes of `n` elements in this format (R36); `n` is a multiple of 32 for the block formats. -/
def bytes (f : Fmt) (n : Nat) : Nat :=
  match f with
  | .f8 | .g8 | .a8 | .e8 => n
  | .h16 | .g16 => 2 * n
  | .q4 => (n + 1) / 2
  | .w2 => (n + 3) / 4
  | .t1 => (n + 31) / 32 * 7
/-- Does the format have a NaN code of its own (Table 2.1)? -/
def hasNan : Fmt → Bool
  | .f8 | .g8 | .h16 | .g16 => true
  | _ => false
/-- The NaN code: every magnitude bit set (Table 2.1). -/
def nanCode (f : Fmt) : Nat := 2 ^ (f.bits - 1) - 1
/-- The code of the largest finite magnitude. -/
def maxCode (f : Fmt) : Nat := if f.hasNan then f.nanCode - 1 else 2 ^ (f.bits - 1) - 1
/-- Formats that carry an E8 block scale (R38). -/
def isBlock : Fmt → Bool
  | .f8 | .g8 | .q4 | .w2 | .t1 | .a8 => true
  | _ => false
/-- `M(fmt)` of R41. -/
def maxMag : Fmt → Ex
  | .f8 => .int 224 | .g8 => .int 49152 | .q4 => .int 6 | .w2 => .dy 3 (-1) | .t1 => .int 1 | .a8 => .int 127
  | .h16 => .dy 511 23 | .g16 => .dy 127 122 | .e8 => .dy 1 127
/-- The half-step `h` of Table 2.2. -/
def half : Fmt → Int
  | .q4 | .w2 => 1
  | _ => 0
end Fmt

/-- A decoded element: NaN, or an exact value. -/
inductive Val where
  | nan
  | fin (x : Ex)
  deriving DecidableEq, Repr

namespace Val
def isNan : Val → Bool
  | .nan => true
  | .fin _ => false
def isZero : Val → Bool
  | .nan => false
  | .fin x => x.isZero
/-- The value, zero for a NaN. -/
def ex : Val → Ex
  | .nan => .zero
  | .fin x => x
def map (f : Ex → Ex) : Val → Val
  | .nan => .nan
  | .fin x => .fin (f x)
/-- NaN if either operand is NaN (R32). -/
def map₂ (f : Ex → Ex → Ex) : Val → Val → Val
  | .fin x, .fin y => .fin (f x y)
  | _, _ => .nan
end Val

/-- Decode a float code (R29 to R31): the all-ones magnitude is NaN whatever its sign, the negative zero is zero. -/
def decodeFloat (f : Fmt) (code : Nat) : Val :=
  let half := 2 ^ (f.bits - 1)
  let mag := code % half
  let s : Int := if code / half % 2 = 1 then -1 else 1
  if f.hasNan ∧ mag = f.nanCode then .nan
  else
    let e := mag / 2 ^ f.frac
    let fr := mag % 2 ^ f.frac
    if e = 0 then .fin (.dy (s * fr) (1 - f.bias - f.frac))
    else .fin (.dy (s * ((2 ^ f.frac + fr : Nat) : Int)) ((e : Int) - f.bias - f.frac))

/-- Decode one element code: floats by R29, A8 as two's complement (R34, R35), W2 and T1 as Table 2.2 (T1 by its digit). -/
def decodeCode (f : Fmt) (code : Nat) : Val :=
  match f with
  | .f8 | .g8 | .h16 | .g16 | .q4 => decodeFloat f code
  | .a8 => .fin (.int (if code % 256 < 128 then ((code % 256 : Nat) : Int) else ((code % 256 : Nat) : Int) - 256))
  | .w2 => .fin (.dy (if code / 2 % 2 = 1 then (if code % 2 = 1 then -3 else -1) else (if code % 2 = 1 then 3 else 1)) (-1))
  | .t1 => .fin (.int (((code % 3 : Nat) : Int) - 1))
  | .e8 => if code % 256 = 255 then .nan else .fin (.dy 1 (((code % 256 : Nat) : Int) - 127))

/-- The integer form of a coded element, the value times `2^h` (Table 2.2). -/
def intForm (f : Fmt) (code : Nat) : Int := ((decodeCode f code).ex.scale f.half).floor

/-- How an element is counted at a conversion point (R54). -/
inductive Cls where
  | none | underflow | saturation | nonfinite
  deriving DecidableEq, Repr

/-- `to_float` of R42: one rounding to nearest even, subnormals kept, overflow saturated (R33). -/
def toFloat (f : Fmt) (v : Val) : Nat × Cls :=
  match v with
  | .nan => (f.nanCode, .nonfinite)
  | .fin x =>
    if x.isZero then (0, .none)
    else
      let b := max x.log2 (1 - f.bias)
      let q := x.roundAbs (b - f.frac)
      let s := if x.isNeg then 2 ^ (f.bits - 1) else 0
      if q = 0 then (0, .underflow)
      else
        let c := ((b + f.bias - 1) * 2 ^ f.frac + q).toNat
        if f.maxCode < c then (s + f.maxCode, .saturation) else (s + c, .none)

/-- `sr` of R52: stochastic rounding with the 16-bit draw `r`. -/
def toFloatSR (f : Fmt) (r : Nat) (v : Val) : Nat × Cls :=
  match v with
  | .nan => (f.nanCode, .nonfinite)
  | .fin x =>
    if x.isZero then (0, .none)
    else
      let b := max x.log2 (1 - f.bias)
      let q := (x.floorAbs (b - f.frac - 16) + r) / 65536
      let s := if x.isNeg then 2 ^ (f.bits - 1) else 0
      if q = 0 then (0, .underflow)
      else
        let c := ((b + f.bias - 1) * 2 ^ f.frac + q).toNat
        if f.maxCode < c then (s + f.maxCode, .saturation) else (s + c, .none)

/-- The element rule of Table 2.3 for `y = x / (s * 2^(E8 - 127))`; underflow is not counted for Q4, W2 and T1. -/
def toElem (f : Fmt) (v : Val) : Nat × Cls :=
  match f, v with
  | .q4, v => let (c, k) := toFloat .q4 v; (c, if k = .underflow then .none else k)
  | .a8, .fin y =>
    let q := y.roundAbs 0
    let m := min q 127
    (if y.isNeg then (256 - m) % 256 else m, if 127 < q then .saturation else if q = 0 ∧ ¬ y.isZero then .underflow else .none)
  | .w2, .fin y =>
    ((if y.isNeg then 2 else 0) + (if y.abs.le (.int 1) then 0 else 1), if (Ex.dy 3 (-1)).lt y.abs then .saturation else .none)
  | .t1, .fin y =>
    (if y.abs.le (.dy 1 (-1)) then 1 else if y.isNeg then 0 else 2, if (Ex.int 1).lt y.abs then .saturation else .none)
  | .a8, .nan | .w2, .nan | .t1, .nan => (0, .nonfinite)
  | f, v => toFloat f v

/-- Round to a 41-bit significand with exponents from −510 to 512, the wide accumulator of R50. -/
def roundWide (x : Ex) : Ex :=
  if x.isZero then .zero
  else
    let b := max x.log2 (-510)
    let r := x.withSign (x.roundAbs (b - 40)) (b - 40)
    let top : Ex := .dy (2 ^ 41 - 1) 472
    if top.lt r.abs then x.withSign (2 ^ 41 - 1) 472 else r

/-- A value on its way to a block: finite, NaN, or saturated in one direction (R41, R44, R79). -/
inductive OutVal where
  | nan
  | sat (neg : Bool)
  | fin (x : Ex) (lost : Bool)
  deriving DecidableEq, Repr

def OutVal.ofVal : Val → OutVal
  | .nan => .nan
  | .fin x => .fin x false

/-- The largest magnitude among the finite values of a block. -/
def blockMax : List OutVal → Ex
  | [] => .zero
  | .fin x _ :: r => (x.abs).max (blockMax r)
  | _ :: r => blockMax r

/-- `select_block_scale` of R41 for the positive finite tensor scale `s`. -/
def selectScale (f : Fmt) (s : Ex) (xs : List OutVal) : Nat :=
  if ¬ f.hasNan ∧ xs.any (fun o => o == .nan) then 255
  else
    let m := blockMax xs
    let anySat := xs.any (fun o => match o with | .sat _ => true | _ => false)
    if m.isZero then (if anySat then 254 else 0)
    else
      let c := ((m.div (f.maxMag.mul s)).ceilLog2) + 127
      if 254 < c then 254 else c.toNat

/-- One element of a block at scale code `e8` (not 255), with tensor scale `s`. An underflow of truncated blocks (`lost`, R44)
counts where the element counts as nothing else. -/
def blockElem (f : Fmt) (s : Ex) (e8 : Nat) (o : OutVal) : Nat × Cls :=
  match o with
  | .nan => toElem f .nan
  | .sat neg =>
    let (c, _) := toElem f (.fin (if neg then f.maxMag.neg else f.maxMag))
    (c, .saturation)
  | .fin x lost =>
    let (c, k) := toElem f (.fin (x.div (s.scale ((e8 : Int) - 127))))
    (c, if lost ∧ k = .none then .underflow else k)

/-- Is a tensor scale usable (R40): positive and finite? -/
def goodScale : Val → Bool
  | .nan => false
  | .fin x => 0 < x.n

/-- The number of a format, in descriptor order. -/
def Fmt.no : Fmt → Nat
  | .f8 => 0 | .g8 => 1 | .h16 => 2 | .g16 => 3 | .q4 => 4 | .w2 => 5 | .t1 => 6 | .a8 => 7 | .e8 => 8

/-- Is a code one that no unit produces: the second NaN, the negative zero (R30, R31), and 0x80 in A8 (R35)? -/
def badCode (f : Fmt) (c : Nat) : Bool :=
  f != .w2 && f != .t1 && (c == 2 ^ (f.bits - 1) || f.hasNan && c == 2 ^ f.bits - 1)

/-- A NaN block: scale 255, every element counted non-finite. The manual gives its element codes no value: they are free values among the
codes that units produce. -/
def nanBlock (f : Fmt) (xs : List OutVal) : Nat × List (Nat × Cls) :=
  let key := xs.map (fun o => match o with | .nan => (0 : Int) | .sat b => if b then -1 else 1 | .fin x _ => x.n)
  (255, (List.range xs.length).map fun i =>
    let c := Config.nanBlockCode f.no key i % (if f = .t1 then 3 else 2 ^ f.bits)
    (if badCode f c then 0 else c, Cls.nonfinite))

/-- Convert a block of values into a block format (R41, R42): scale code, element codes with their counting classes. A bad tensor
scale, or a NaN in a format with no NaN code, makes a NaN block (R40, R41, R54). -/
def convBlock (f : Fmt) (s : Val) (xs : List OutVal) : Nat × List (Nat × Cls) :=
  if ¬ goodScale s then nanBlock f xs
  else
    let e8 := selectScale f s.ex xs
    if e8 = 255 then nanBlock f xs
    else (e8, xs.map (blockElem f s.ex e8))

/-- Convert one value into H16 or G16 with tensor scale `s` (R38, R40, R42, R44). -/
def convScalar (f : Fmt) (s : Val) (o : OutVal) : Nat × Cls :=
  if ¬ goodScale s then (f.nanCode, .nonfinite)
  else
    match o with
    | .nan => (f.nanCode, .nonfinite)
    | .sat neg => ((if neg then 2 ^ (f.bits - 1) else 0) + f.maxCode, .saturation)
    | .fin x lost =>
      let (c, k) := toFloat f (.fin (x.div s.ex))
      (c, if lost ∧ k = .none then .underflow else k)

/-! ### Packed tensors -/

/-- The element codes of a packed byte string (R36), T1 digits as 0 to 2 and 3 for every element of a NaN block (R37). -/
def unpackByte (f : Fmt) (b : Nat) : List Nat :=
  match f with
  | .q4 => [b % 16, b / 16 % 16]
  | .w2 => [b % 4, b / 4 % 4, b / 16 % 4, b / 64 % 4]
  | .t1 => [b % 3, b / 3 % 3, b / 9 % 3, b / 27 % 3, b / 81 % 3]
  | _ => [b % 256]

/-- A T1 block of seven bytes is a NaN block when a byte is above 242 (R37). -/
def t1Bad (bs : List Nat) : Bool := bs.any (fun b => decide (242 < b))

/-- Pack the digits of a 32-element T1 block into its seven bytes, padding digit 1 (R36). -/
def packT1 (ds : List Nat) : List Nat :=
  let g := fun i => ds.getD i 1
  (List.range 7).map fun n => g (5*n) + 3 * g (5*n+1) + 9 * g (5*n+2) + 27 * g (5*n+3) + 81 * g (5*n+4)

/-- Pack element codes into bytes (R36), for the formats of a byte or less other than T1. -/
def packSub (f : Fmt) : List Nat → List Nat
  | [] => []
  | a :: b :: c :: d :: r =>
    match f with
    | .q4 => (a + 16 * b) :: (c + 16 * d) :: packSub f r
    | .w2 => (a + 4 * b + 16 * c + 64 * d) :: packSub f r
    | _ => a :: b :: c :: d :: packSub f r
  | a :: r =>
    match f, r with
    | .q4, b :: r' => (a + 16 * b) :: packSub f r'
    | _, r => a :: packSub f r

/-! ### Check values and little-endian fields -/

/-- The `k` low bytes of `n`, little-endian (R8). -/
def le (k n : Nat) : Bytes := (List.range k).map fun i => BitVec.ofNat 8 (n >>> (8 * i))

/-- The number a little-endian byte string spells (R8). -/
def unle : Bytes → Nat
  | [] => 0
  | b :: r => b.toNat + 256 * unle r

/-- One bit of a non-reflected CRC of width `w`. -/
def crcBit (w poly : Nat) (c : Nat) (bit : Nat) : Nat :=
  let top := (c >>> (w - 1)) % 2
  let c' := (c <<< 1) % 2 ^ w
  if (top + bit) % 2 = 1 then c' ^^^ poly else c'

/-- One byte, most significant bit first. -/
def crcByte (w poly : Nat) (c : Nat) (b : Byte) : Nat :=
  [7, 6, 5, 4, 3, 2, 1, 0].foldl (fun c i => crcBit w poly c (b.toNat >>> i % 2)) c

/-- One byte of a reflected CRC. -/
def crcByteR (poly : Nat) (c : Nat) (b : Byte) : Nat :=
  [0, 1, 2, 3, 4, 5, 6, 7].foldl (fun c _ => if c % 2 = 1 then (c >>> 1) ^^^ poly else c >>> 1) (c ^^^ b.toNat)

/-- CRC-16/IBM-3740 (Table 7.5). -/
def crc16 (bs : Bytes) : Nat := bs.foldl (crcByte 16 0x1021) 0xFFFF
/-- The running register of CRC-32/ISO-HDLC, before the final inversion; 0xFFFF_FFFF at the start (R191, R193). -/
def crc32Step (c : Nat) (bs : Bytes) : Nat := bs.foldl (crcByteR 0xEDB88320) c
def crc32Init : Nat := 0xFFFFFFFF
def crc32Fin (c : Nat) : Nat := c ^^^ 0xFFFFFFFF
/-- CRC-32/ISO-HDLC. -/
def crc32 (bs : Bytes) : Nat := crc32Fin (crc32Step crc32Init bs)
/-- CRC-64/ECMA-182: polynomial 0x42F0E1EBA9EA3693, initial value 0, no reflection, no final XOR. -/
def crc64Step (c : Nat) (bs : Bytes) : Nat := bs.foldl (crcByte 64 0x42F0E1EBA9EA3693) c
def crc64 (bs : Bytes) : Nat := crc64Step 0 bs

/-- The bytes of a 64-byte record, lowest first. -/
def recBytes (r : Rec) : Bytes := le 64 r.toNat

/-- A record field of `n` bits from bit `b` of the record, as a number. -/
def fld (r : Rec) (b n : Nat) : Nat := (r.toNat >>> b) % 2 ^ n

end Sys2Proof.Machine
end

