-- ==== Sys2Proof/Machine/State.lean ====
section
/-! DEFINITION. The state of the module: every register, queue, buffer, counter and mode the manual gives it, as plain data.
Values served by the object dictionary that are nothing but a number live in `obj`, keyed by index and subindex (Machine/Objects
names each key); what has a structure of its own stands in the groups below. Times are drone ticks of 10 ns. -/
namespace Sys2Proof.Machine

/-- Why a step ends in a fault. The manual gives no command of the block a behaviour that stops the machine. -/
inductive Fault where
  /-- Raised by no command: the block has no stop of its own. Safe. -/
  | none
  deriving DecidableEq, Repr

/-- Why a command is refused. -/
inductive Refusal where
  /-- The command has no meaning in the model yet: raised by its arm in Dispatch. Safe: nothing follows from it. -/
  | notModelled (mnemonic : String)
  deriving DecidableEq, Repr

/-- What leaves the module, newest first: the model's own record of its outputs. -/
inductive Out where
  /-- A posted write to host memory through a port (R186, R191). -/
  | posted (p : HostPort) (addr : Nat) (data : Bytes)
  /-- An MSI-X vector signalled on a port (R200, R432). -/
  | msix (p : HostPort) (vector : Nat)
  /-- A dictionary reply (R416 to R421). -/
  | reply (dst : Src) (pdu : Bytes)
  /-- The status of an action written as a single item (R411). -/
  | status (dst : Src) (key : Nat) (code : Nat)
  /-- An event notice (R432). -/
  | notice (dst : Src) (pdu : Bytes)
  /-- A collective, capability or lending message handed to the links for a member (R331). -/
  | message (pod : Nat) (dst : Nat) (m : Msg)
  /-- A flit of 256 bytes sent on an optical port (R302). -/
  | flit (port : Nat) (bytes : Bytes)
  /-- A message of a standard protocol answered on a host port: protocol, code, body. -/
  | answer (p : HostPort) (protocol : Nat) (code : Nat) (body : Bytes)
  deriving DecidableEq, Repr

/-! ### Tiles: accumulator banks, shares in progress, cast stacks, synchronisation (chapters 3 to 6) -/

/-- What an accumulator bank is doing (R80, R167). -/
inductive BankUse where
  | free | filling | full | held
  deriving DecidableEq, Repr

/-- One of the two accumulator banks of a tile (R62). Entries are the 64-bit words of R77 on the float path and the 128-bit words
of R78 on the exact path; an entry not listed is zero. -/
structure Bank where
  use : BankUse
  /-- The record that filled it and the output tile it holds. -/
  owner : Nat
  out : Nat
  exact : Bool
  /-- The operands' tensor scales, kept with the bank (R127). -/
  sa : Nat
  sb : Nat
  /-- Members folded into it so far (R167). -/
  folded : Nat
  /-- Passes accumulated, while it is being filled (R76, R78). -/
  pass : Nat
  /-- When it was held, among all holds: the longest held is read first (R127). -/
  order : Nat
  ents : Tab Nat
  deriving DecidableEq, Repr

def Bank.empty : Bank :=
  { use := .free, owner := 0, out := 0, exact := false, sa := 0, sb := 0, folded := 0, pass := 0, order := 0, ents := [] }

/-- How far a dispatched record has come in one tile of its set. -/
structure Share where
  /-- Its semaphore wait is satisfied (R158), or it had none. -/
  started : Bool
  /-- Output tiles accumulated, and output tiles drained or handed off (R75, R167). -/
  next : Nat
  done : Nat
  /-- A vector or sync record, or a skipped one, has run in the tile. -/
  ran : Bool
  /-- The tick at which a semaphore, barrier or weight wait began, the timeout in force then, and whether it was reported
  (R168, R253). -/
  waitFrom : Option Nat
  waitLimit : Nat
  waitTold : Bool
  /-- The ticks at which a wait on cast pages and a wait on a held bank began (R105, R80). -/
  pageFrom : Option Nat
  heldFrom : Option Nat
  /-- Results of a cross-tile reduction on their way to tile_first, and combined results on their way back (R138). -/
  partials : Option (List Nat)
  combined : Option (List Nat)
  deriving DecidableEq, Repr

def Share.fresh : Share :=
  { started := false, next := 0, done := 0, ran := false, waitFrom := none, waitLimit := 0, waitTold := false, pageFrom := none, heldFrom := none, partials := none,
    combined := none }

/-- A cast is open, sealed or partly popped (chapter 4, the directory). -/
inductive CastUse where
  | opened | sealed | cut
  deriving DecidableEq, Repr

/-- One cast of a tile's stack: its directory entry (chapter 4). -/
structure CastEnt where
  base : Nat
  len : Nat
  layer : Nat
  mb : Nat
  /-- 0 F8 form, 1 H16 form, as when it was opened. -/
  form : Nat
  step : Nat
  use : CastUse
  /-- The window, sequence and tag of the open record. -/
  win : Nat
  seq : Nat
  tag : Nat
  deriving DecidableEq, Repr

/-- States of a stack page (Table 4.7); `dropOut` and `dropIn` are moves whose page a pop has freed meanwhile (R106). -/
inductive PageUse where
  | absent | resident | movingOut | spilled | movingIn | dropOut | dropIn
  deriving DecidableEq, Repr

/-- An arm waiting for its product, or bound to one (R112). -/
structure Arm where
  win : Nat
  seq : Nat
  tag : Nat
  tf : Nat
  tl : Nat
  layer : Nat
  kind : Nat
  metaOff : Nat
  tabOff : Nat
  o2Off : Nat
  metaScale : Nat
  aScale : Nat
  o2BsOff : Nat
  step : Nat
  /-- The sequence of the product it is bound to. -/
  bound : Option Nat
  deriving DecidableEq, Repr

/-- The cast plan of one layer (R118). -/
structure PlanLayer where
  f8Len : Nat
  h16Len : Nat
  mbCount : Nat
  deriving DecidableEq, Repr

def PlanLayer.none : PlanLayer := { f8Len := 0, h16Len := 0, mbCount := 0 }

/-- A barrier channel (R161): target, arrival count, generation, and the bar-arm record in force. -/
structure Channel where
  target : Nat
  count : Nat
  gen : Nat
  armWin : Nat
  armSeq : Nat
  armTag : Nat
  deriving DecidableEq, Repr

def Channel.reset : Channel := { target := 0, count := 0, gen := 0, armWin := 0, armSeq := 0, armTag := 0 }

/-- A semaphore signal on its way to a tile (R159, R164). -/
structure Signal where
  tile : Nat
  sem : Nat
  value : Nat
  win : Nat
  seq : Nat
  tag : Nat
  deriving DecidableEq, Repr

/-- Counts of one kind, layer and direction in the step (R54 to R56, R86). -/
structure Counts where
  elem : Nat
  sat : Nat
  unf : Nat
  nonfin : Nat
  shSat : Nat
  shUnf : Nat
  deriving DecidableEq, Repr

def Counts.zero : Counts := { elem := 0, sat := 0, unf := 0, nonfin := 0, shSat := 0, shUnf := 0 }

/-- A 64-byte granule of a staging ring: has its fill landed, its uses value, its use count (R250). -/
structure Granule where
  landed : Bool
  uses : Nat
  count : Nat
  deriving DecidableEq, Repr

def Granule.empty : Granule := { landed := false, uses := 0, count := 0 }

/-- A staging ring of a tile (R246): base and size in pages, fill position in bytes from the base, and its granules. -/
structure Ring where
  base : Nat
  pages : Nat
  fill : Nat
  grans : Tab Granule
  deriving DecidableEq, Repr

def Ring.off : Ring := { base := 0, pages := 0, fill := 0, grans := [] }

/-- The 192 logical tiles. -/
structure TileState where
  /-- The scratchpads, at tile × 2^21 + offset (R62). -/
  scratch : Tab Byte
  /-- Accumulator banks, at 2 × tile + bank. -/
  banks : Tab Bank
  /-- Holds made so far: the order of held banks. -/
  holds : Nat
  /-- Shares in progress, at record key × 256 + tile. -/
  shares : Tab Share
  /-- The sequencer's dispatch count, which orders dispatched records. -/
  dispatches : Nat
  /-- The sequencer's cast directory, one list per tile, top cast first. -/
  dir : Tab (List CastEnt)
  /-- The cast stacks as the tiles hold them, top cast first. -/
  stack : Tab (List CastEnt)
  /-- Bytes of the cast stacks wherever their page is homed, at tile × 2^41 + stack byte. -/
  castMem : Tab Byte
  /-- Stack pages, at tile × 2^25 + page (R103). -/
  pages : Tab PageUse
  /-- The highest stack page count of any tile in the step (0x6040.05). -/
  depth : Nat
  arms : List Arm
  /-- The cast plan in force, and the one that takes force at the next boundary (R118). -/
  reserve : Nat
  plan : Tab PlanLayer
  reserveNext : Option Nat
  planNext : Tab PlanLayer
  /-- Semaphore counts, at tile × 256 + semaphore; release counts, at tile × 64 + channel (R158, R163). -/
  sems : Tab Nat
  rels : Tab Nat
  /-- Barrier channels and releases on their way, at tile × 64 + channel. -/
  chans : Tab Channel
  relFlight : Tab Nat
  /-- Signals on their way, oldest first. -/
  signals : List Signal
  /-- Parity errors attributed to physical tiles in the session, at row × 32 + column (R169). -/
  parity : Tab Nat
  /-- Staging rings, at tile × 4 + ring (R246). -/
  rings : Tab Ring
  /-- The step's counts, at kind × 512 + 2 × layer + direction (R55). -/
  counts : Tab Counts
  /-- Counts of records that run ahead, by their step. -/
  later : Tab (Tab Counts)
  deriving DecidableEq, Repr

def TileState.reset : TileState :=
  { scratch := [], banks := [], holds := 0, shares := [], dispatches := 0, dir := [], stack := [], castMem := [], pages := [],
    depth := 0, arms := [], reserve := 0, plan := [], reserveNext := none, planNext := [], sems := [], rels := [], chans := [],
    relFlight := [], signals := [], parity := [], rings := [], counts := [], later := [] }

/-! ### Collective spans (R335 to R337); the rest of the collective engine stands further below -/

/-- One element of a span: the fixed-point sum, and its flag (0 none, 1 lost, 2 sat, 3 nan) (R337). -/
structure SumCell where
  sum : Int
  flag : Nat
  deriving DecidableEq, Repr

def SumCell.zero : SumCell := { sum := 0, flag := 0 }

/-- An open span of sum pages (R335, R336). -/
structure Span where
  /-- The open record, its layer and the step it belongs to. -/
  win : Nat
  seq : Nat
  layer : Nat
  dir : Nat
  step : Nat
  blocks : Nat
  /-- The local unit u_loc (R336, R337), a G16 code. -/
  uLoc : Nat
  /-- Keys of the dest-2 records that have added into it, rising (R337). -/
  adders : List Nat
  /-- The reduce record dispatched against it, as a record key. -/
  reduce : Option Nat
  /-- Element sums, at 32 × block + index; an element not listed is zero with no flag. -/
  sums : Tab SumCell
  /-- Sum pages homed in tier T1, rising, and the touch order of its pages: page number and touch count (R336). -/
  evicted : List Nat
  touched : Tab Nat
  deriving DecidableEq, Repr

/-! ### Command windows (chapter 7) -/

/-- Window states (Table 7.10). -/
inductive WinState where
  | closed | opened | halted | handover
  deriving DecidableEq, Repr

/-- An accepted record in a window's queue (R180). -/
structure QEntry where
  seq : Nat
  /-- The 64 bytes accepted. -/
  raw : Rec
  /-- The step of the last step record accepted before it on its window, itself included (R192). -/
  step : Option Nat
  /-- The step of the last step record it follows, itself left out (R195). -/
  follows : Option Nat
  /-- Does it enter the dispatched value of R193? One accepted before an abort that it outlived does not. -/
  audited : Bool
  /-- The port through which a report's data goes: the window's owner at dispatch, if its link was up (R191). -/
  port : Option HostPort
  /-- Has the sequencer dispatched it? -/
  disp : Bool
  /-- The tiles of its set that have reported it complete (R156). -/
  tiles : List Nat
  /-- Has its non-tile unit reported it complete (R180)? -/
  unit : Bool
  /-- The status and reason its completion will carry (Table 7.9). -/
  status : Nat
  reason : Nat
  /-- Has it received sync-timeout (R168, R188)? -/
  late : Bool
  /-- A report record's ring value (Table 7.11). -/
  value : Nat
  /-- Accepted and dispatched CRC registers and counts held for an audit record (R193). -/
  accCrc : Nat
  accCount : Nat
  dspCrc : Nat
  dspCount : Nat
  /-- Its place in dispatch order, and whether it runs as skipped-form (R73). -/
  order : Nat
  skip : Bool
  /-- The drone tick at which it was dispatched. -/
  tick : Nat
  /-- Has index-range been raised for it (R147)? -/
  told : Bool
  deriving DecidableEq, Repr

/-- A formed ring record, retained until credited (R185, R187). -/
structure RingEnt where
  rseq : Nat
  cseq : Nat
  ticks : Nat
  session : Nat
  ty : Nat
  status : Nat
  reason : Nat
  win : Nat
  value : Nat
  /-- Has it been written into the committed ring? -/
  written : Bool
  deriving DecidableEq, Repr

/-- A ring record that waits for credit (R185): type, status, reason, value, the command sequence of a completion, and the number of
retained ring records below which it is formed. -/
structure WaitingNotice where
  ty : Nat
  status : Nat
  reason : Nat
  value : Nat
  cseq : Option Nat
  below : Nat
  deriving DecidableEq, Repr

/-- A command window with its queue and its result ring. -/
structure Window where
  owner : Option HostPort
  state : WinState
  /-- Ring records are withheld until the new owner commits its ring (R198); kept through a halt in handover (R194). -/
  withheld : Bool
  /-- Expected command sequence e, next result sequence rnext, credited result sequence rc (R176). -/
  e : Nat
  rnext : Nat
  rc : Nat
  /-- For each slot, the mask of its trailer bytes the owner has written since the slot was cleared (R178). -/
  marks : Tab Nat
  /-- Slots whose written version has had no valid evaluation yet (R178). -/
  fresh : Tab Bool
  /-- The watched slot is to be evaluated again: e advanced, or a full queue lost an entry (R178). -/
  due : Bool
  queue : List QEntry
  /-- Step number and sequence of the last step record accepted (R192). -/
  lastStep : Nat
  lastStepSeq : Nat
  /-- Has a step record been accepted at all? -/
  stepSeen : Bool
  /-- Steps with an accepted step record that have neither committed nor been aborted (R192). -/
  steps : List Nat
  haltCause : Nat
  /-- Tick of the last lease renewal, and whether owner-lease-expired has been raised since (R197). -/
  leaseFrom : Nat
  leaseOver : Bool
  /-- A release waits for the queue to empty (R196). -/
  releasing : Bool
  ring : List RingEnt
  waiting : List WaitingNotice
  ringOn : Bool
  ringBase : Nat
  ringOrder : Nat
  /-- Ring records written and not yet signalled, and the tick of the first (R200). -/
  irqCount : Nat
  irqFrom : Option Nat
  /-- Running CRC-32 registers and counts since the last audit record (R193). -/
  accCrc : Nat
  accCount : Nat
  dspCrc : Nat
  dspCount : Nat
  /-- The sequence for which record-crc was last raised (R178). -/
  crcSeq : Option Nat
  deriving DecidableEq, Repr

/-- A window at power-good (R176). -/
def Window.reset : Window :=
  { owner := none, state := .closed, withheld := false, e := 0, rnext := 0, rc := 0xFFFFFFFF, marks := [], fresh := [],
    due := false, queue := [], lastStep := 0, lastStepSeq := 0, stepSeen := false, steps := [], haltCause := 0, leaseFrom := 0,
    leaseOver := false, releasing := false, ring := [], waiting := [], ringOn := false, ringBase := 0, ringOrder := 10,
    irqCount := 0, irqFrom := none, accCrc := 0xFFFFFFFF, accCount := 0, dspCrc := 0xFFFFFFFF, dspCount := 0, crcSeq := none }

/-- An entry of a port's MSI-X table in BAR4 (R172): message address and data, and its mask bit. -/
structure MsixEnt where
  addr : Nat
  data : Nat
  masked : Bool
  deriving DecidableEq, Repr

def MsixEnt.reset : MsixEnt := { addr := 0, data := 0, masked := false }

/-- The command windows and host ports. -/
structure CmdState where
  /-- CW0 to CW7. -/
  wins : Tab Window
  /-- The slots, at window × 65536 + offset (R173); a byte not listed reads 0. -/
  bar0 : Tab Byte
  /-- The step in progress (R194). -/
  stepNow : Option Nat
  /-- Is dispatch stopped for an activation (R449, R450)? -/
  hold : Bool
  /-- MSI-X tables and pending bits, at port × 16 + vector, and AER status, at port × 2 (uncorrectable) or with 1 added (correctable), of
  HA (1) and HB (2) (R172). -/
  msix : Tab MsixEnt
  pba : Tab Bool
  aer : Tab Nat
  deriving DecidableEq, Repr

def CmdState.reset : CmdState := { wins := [], bar0 := [], stepNow := none, hold := false, msix := [], pba := [], aer := [] }

/-! ### The update processor (chapter 8) -/

/-- One mapped segment of a layer (R207, R208). -/
structure Segment where
  rule : Nat
  wcFmt : Nat
  stateH : Nat
  tiles : Nat
  gradH : Nat
  wcH : Nat
  wScale : Nat
  mScale : Nat
  vScale : Nat
  wcScale : Nat
  deriving DecidableEq, Repr

/-- An update record that arms a layer's pass (R209), and what the commit of its step fixed for it (R214, R216 to R218). -/
structure UpdArm where
  win : Nat
  seq : Nat
  layer : Nat
  step : Nat
  ckpt : Bool
  first : Bool
  eta : Nat
  wd : Nat
  g1 : Nat
  g2 : Nat
  eps : Nat
  c1 : Nat
  c2 : Nat
  gscale : Nat
  phi : Nat
  rhoLo : Nat
  rhoHi : Nat
  rhoInit : Nat
  /-- Has its step committed? -/
  go : Bool
  /-- The run seed, and whether NaN gradients enter as zero, in force at that commit. -/
  seed : Nat
  zero : Bool
  deriving DecidableEq, Repr

/-- A layer's journal entry (Table 8.5), with the pass's progress beside it. -/
structure Journal where
  committed : Nat
  passStep : Nat
  tagStep : Nat
  digest : Nat
  /-- Table 8.6. -/
  state : Nat
  rule : Nat
  ckpt : Bool
  rhoCur : Nat
  rhoNext : Nat
  uwQ : Nat
  tiles : Nat
  restarts : Nat
  /-- State tiles of the pass written whole, and for the tiles in flight behind them how many of the five writes of R222 the channel
  controllers have accepted. -/
  wrote : Nat
  flight : List Nat
  /-- Has the pass been recovered (R224)? -/
  recovered : Bool
  deriving DecidableEq, Repr

/-- An unmapped layer's entry. -/
def Journal.reset : Journal :=
  { committed := 0, passStep := 0, tagStep := 0, digest := 0, state := 0, rule := 0, ckpt := false, rhoCur := 0x3F80, rhoNext := 0x3F80,
    uwQ := 0, tiles := 0, restarts := 0, wrote := 0, flight := [], recovered := false }

/-- What a layer commit writes into the image beside the tensor tiles: journal entry, form and quiet count (R225). -/
structure ImageLayer where
  entry : Journal
  form : Nat
  quiet : Nat
  deriving DecidableEq, Repr

/-- A checkpoint image (R225): its step, its layers, the form and quiet count of every layer (R88), journal entry 0 (mu, dev, seen, run)
and step digest once formed, and its tensor tiles with their tag lines, at (16 × layer + segment) × 2^42 + byte of the segment's state
region. -/
structure Image where
  step : Nat
  layers : Tab ImageLayer
  forms : Tab (Nat × Nat)
  /-- The layers whose passes of the step write into it. -/
  due : List Nat
  watch : Option (Nat × Nat × Nat × Nat)
  digest : Option Nat
  bytes : Tab Byte
  /-- Has a unit of it been lost (R277)? -/
  damaged : Bool
  deriving DecidableEq, Repr

structure UpdState where
  /-- The maps in force and those that take effect at the next boundary (R208), at layer × 16 + segment. -/
  maps : Tab Segment
  mapsNext : Tab Segment
  arms : List UpdArm
  /-- Journal entries of layers 1 to 255 (R221). -/
  journal : Tab Journal
  /-- Checkpoint images, by the handle of their region in tier T1. -/
  images : Tab Image
  /-- The wait of a step's commit on a missing update record (R209): its start, and has it been reported? -/
  waitFrom : Option Nat
  waitTold : Bool
  /-- Steps skipped whole, for which update-skipped has been raised (R218). -/
  skipTold : List Nat
  /-- Layers whose working copy is to be rebuilt from the masters before replay (Table 9.6). -/
  rebuild : List Nat
  deriving DecidableEq, Repr

def UpdState.reset : UpdState :=
  { maps := [], mapsNext := [], arms := [], journal := [], images := [], waitFrom := none, waitTold := false, skipTold := [],
    rebuild := [] }

/-! ### Memory tiers and the bank tier (chapter 9) -/

/-- Where a page is homed: tier T1, T2, host-lent memory through HA or HB, neighbour-lent memory, or nowhere (discarded, R241). -/
inductive Home where
  | t1 | t2 | hostA | hostB | neighbour | gone
  deriving DecidableEq, Repr

/-- What a page move serves: an eviction (R237), a recall (R244), a retirement (R262), or a move record. -/
inductive MoveFor where
  | evict | recall
  | retire (phys : Nat)
  | record (key : Nat)
  deriving DecidableEq, Repr

/-- A page move in flight (R238): destination, copies tried, whether it is the second destination. -/
structure PageMove where
  dst : Home
  tries : Nat
  second : Bool
  why : MoveFor
  deriving DecidableEq, Repr

/-- One page of a region: its home, its touch stamp (R236), a move in flight, its 64-byte units marked uncorrectable (R261),
and whether a refetch is on its way (R241). -/
structure RPage where
  home : Home
  stamp : Nat
  move : Option PageMove
  bad : List Nat
  refetch : Bool
  deriving DecidableEq, Repr

/-- A region (R231). Pages not listed stand at the home and stamp of the creation. -/
structure Region where
  cls : Nat
  size : Nat
  fresh : RPage
  pages : Tab RPage
  /-- The free record that waits for the region's moves and readers, as a record key (R232). -/
  freeing : Option Nat
  deriving DecidableEq, Repr

/-- A stream's fill of one ring: start position in the ring and bytes landed (R248). -/
structure Fill where
  start : Nat
  got : Nat
  deriving DecidableEq, Repr

/-- A lender of tier T3 (R242, R243): pages lent and, while recalled, the tick the notice ends. -/
structure Lender where
  pages : Nat
  noticeEnd : Option Nat
  deriving DecidableEq, Repr

def Lender.none : Lender := { pages := 0, noticeEnd := Option.none }

/-- Memory lent to a neighbour (R243): borrower, pages, and the tick a recall's notice ends. -/
structure LentOut where
  borrower : Nat
  pages : Nat
  noticeEnd : Option Nat
  deriving DecidableEq, Repr

/-- A move record in progress: the next page of its range, and the status found so far (R239, R240). -/
structure MoveJob where
  next : Nat
  status : Nat
  deriving DecidableEq, Repr

/-- A record that waits for pages of a region (R239, R241): since when, which, and the tiles that are gated with it. -/
structure PageWait where
  start : Nat
  h : Nat
  pages : List Nat
  tiles : Nat
  deriving DecidableEq, Repr

structure TierState where
  /-- Regions by handle (R231). -/
  regions : Tab Region
  /-- Bytes of regions wherever their page is homed, at handle × 2^42 + byte. -/
  mem : Tab Byte
  /-- The page map: the physical page of tier T1 that homes a page, at handle × 2^32 + page, where a landing or a failing unit has shown it
  (R257); and records that wait for pages, by record key. -/
  map : Tab Nat
  waits : Tab PageWait
  /-- Streams being filled, at record key × 256 + tile, and streams whose gate has opened, as record keys (R248, R249). -/
  fills : Tab Fill
  gated : List Nat
  hostA : Lender
  hostB : Lender
  neighbour : Lender
  lentOut : Option LentOut
  /-- Memory this module has lent, as its borrower filled it, at page number × 65536 + byte; a commit to borrow is outstanding. -/
  lentMem : Tab Byte
  nbAsked : Bool
  /-- Move records in progress, by record key. -/
  moveLeft : Tab MoveJob
  /-- Is eviction running between the low and the high mark in tier T1 and in T3 (R237)? -/
  evicting1 : Bool
  evicting3 : Bool
  /-- Pages entered for retirement whose move waits for the move in flight: physical page, handle, page. -/
  retiring : List (Nat × Nat × Nat)
  /-- Physical pages on the retired-page list of service flash (R262), rising. -/
  retired : List Nat
  /-- Days in a row in which scrub sweeps needed replay, by physical page, and the day last counted (R262). -/
  replayDays : Tab Nat
  replayDay : Tab Nat
  /-- The tick the current scrub sweep began (R260). -/
  sweepFrom : Nat
  /-- Is the bank tier in self-refresh (R259)? -/
  selfRefresh : Bool
  deriving DecidableEq, Repr

def TierState.reset : TierState :=
  { regions := [], mem := [], map := [], waits := [], fills := [], gated := [], hostA := Lender.none, hostB := Lender.none, neighbour := Lender.none,
    lentOut := none, lentMem := [], nbAsked := false, moveLeft := [], evicting1 := false, evicting3 := false, retiring := [],
    retired := [], replayDays := [], replayDay := [], sweepFrom := 0, selfRefresh := false }

/-! ### Store tier and ingest (chapter 10) -/

/-- A patch-former profile (R291). -/
structure Profile where
  scaledW : Nat
  scaledH : Nat
  cropX : Nat
  cropY : Nat
  cropW : Nat
  cropH : Nat
  pw : Nat
  ph : Nat
  pt : Nat
  frames : Nat
  fstep : Nat
  chan : Nat
  mtx : Nat
  mean : List Nat
  istd : List Nat
  outFmt : Nat
  oScale : Nat
  deriving DecidableEq, Repr

/-- An append in flight (R272): zone, its first row, rows to program and rows programmed, and the bytes taken from the host. -/
structure AppendJob where
  zone : Nat
  base : Nat
  rows : Nat
  done : Nat
  data : Bytes
  deriving DecidableEq, Repr

/-- A sample in progress: its profile, its engine, the tick of its last progress, and the failure cause found (0 none) (R289, R294). -/
structure SampleJob where
  profile : Profile
  index : Nat
  engine : Nat
  progress : Nat
  cause : Nat
  /-- Has its output been formed, or its error handling been done? -/
  formed : Bool
  deriving DecidableEq, Repr

/-- A decode engine: resets in the session, failed (R289). -/
structure Engine where
  resets : Nat
  failed : Bool
  deriving DecidableEq, Repr

def Engine.reset : Engine := { resets := 0, failed := false }

/-- A four-plane block, by die × 1024 + block: erase and read counts, the powered second of its last program (R275, R276). -/
structure Block where
  erases : Nat
  reads : Nat
  programmed : Option Nat
  retired : Bool
  deriving DecidableEq, Repr

def Block.fresh : Block := { erases := 0, reads := 0, programmed := none, retired := false }

structure StoreState where
  /-- Bytes of the stream zones, at zone × 2^46 + byte (R272, R273), and their uncorrectable data units, at zone × 2^30 + unit. -/
  zones : Tab Byte
  badUnits : List Nat
  /-- Appends in flight, by record key; those waiting on the same zone are not listed yet. -/
  appends : Tab AppendJob
  profiles : Tab Profile
  /-- Work region and pages per engine in force (R290). -/
  engineCfg : Option (Nat × Nat)
  samples : Tab SampleJob
  /-- The profile each dispatched sample record found in force, by record key (R297). -/
  fixed : Tab Profile
  engines : Tab Engine
  /-- Drains in progress: record key and image handle (R278). -/
  drains : Tab Nat
  /-- Handles with pages in tier T2 from a drain that failed for want of room (R280). -/
  partDrains : List Nat
  /-- Images of the taken checkpoints, by catalogue entry 1 to 16 (R279). -/
  taken : Tab Image
  blocks : Tab Block
  /-- Spare four-plane blocks used up, by die, and dies failed (R267, R277). -/
  sparesUsed : Tab Nat
  dies : List Nat
  /-- Pages on their way to tier T2 whose stripe row is programmed, at handle × 2^32 + page (R270). -/
  acked : List Nat
  /-- Stripe blocks of each stream zone, in allocation order (R273), and four-plane blocks that a relocation has put elsewhere on their
  die: the block that holds die × 1024 + block of the stripe (R275). -/
  zoneBlocks : Tab (List Nat)
  blockMap : Tab Nat
  /-- The general zones: the data unit of a page homed in tier T2, at handle × 2^32 + page, their stripe blocks in the order drawn, the last
  one open, and its next row (R270). -/
  pageMap : Tab Nat
  genBlocks : List Nat
  genRow : Nat
  deriving DecidableEq, Repr

def StoreState.reset : StoreState :=
  { zones := [], badUnits := [], appends := [], profiles := [], engineCfg := none, samples := [], fixed := [], engines := [], drains := [],
    partDrains := [], taken := [], blocks := [], sparesUsed := [], dies := [], acked := [], zoneBlocks := [], blockMap := [],
    pageMap := [], genBlocks := [], genRow := 0 }

/-! ### Optical links (chapter 11) -/

/-- A message handed to the links, with the pod and module its route word names (R306). -/
structure Mail where
  pod : Nat
  dst : Nat
  msg : Msg
  deriving DecidableEq, Repr

/-- A data flit waiting in a port or sent and not yet acknowledged (R306, R308): sequence, channel, is it a head flit, its content of
248 bytes, and the message it ends, if it is the last of one. -/
structure TxFlit where
  fseq : Nat
  vc : Nat
  head : Bool
  content : Bytes
  ends : Option Mail
  /-- Is it lent traffic, which yields to collective traffic (R243)? -/
  lent : Bool
  deriving DecidableEq, Repr

/-- The settings of the cabling plan that a port goes by (R316, R325): plan_mode, plan_module, plan_pod, plan_planes_used, and plan_chassis
and plan_switch_port of planes 0 to 15. -/
structure Plan where
  mode : Nat
  module : Nat
  pod : Nat
  used : Nat
  chassis : List Nat
  switchPorts : List Nat
  deriving DecidableEq, Repr

/-- The defaults of Table 11.13. -/
def Plan.reset : Plan :=
  { mode := 0, module := 0xFFFF, pod := 0, used := 0xFFFF, chassis := List.replicate 16 0, switchPorts := List.replicate 16 0xFFFF }

/-- An optical port beyond its objects. -/
structure Port where
  /-- The plan in force for it since its last training, or a change while it was up (R325). -/
  plan : Plan
  /-- Tick of the last change of port state, and of the last failed training attempt. -/
  since : Nat
  failedAt : Option Nat
  /-- Has FEC lock been reached in this training (R310)? -/
  locked : Bool
  /-- Next fseq to assign, and the expected sequence (R308, R309). -/
  txSeq : Nat
  rxSeq : Nat
  /-- Flits waiting for credit or buffer, and flits sent and not acknowledged, oldest first. -/
  queue : List TxFlit
  buffer : List TxFlit
  /-- When the replay timer started, and replays without progress (R310). -/
  timerFrom : Option Nat
  stuck : Nat
  /-- A nak has been sent and the expected flit not yet accepted (R309). -/
  nakOut : Bool
  /-- Flits accepted and not acknowledged, the tick of the first, and is an acknowledgement owed for a duplicate? -/
  owed : Nat
  owedFrom : Option Nat
  owedDup : Bool
  /-- Is the message being received on each channel discarded as misrouted (R306)? -/
  drop0 : Bool
  drop1 : Bool
  /-- Flits received on each channel, flits freed since the last credit flit, and the tick of that flit (R307). -/
  rcv0 : Nat
  rcv1 : Nat
  freed : Nat
  creditAt : Option Nat
  /-- Cumulative credits received and flits sent, per channel. -/
  credit0 : Nat
  credit1 : Nat
  sent0 : Nat
  sent1 : Nat
  /-- Ticks of recent bad credit counts, uncorrectable codewords and retrains, and a protocol error seen (R307, R310, R311). -/
  badCredits : List Nat
  badCodes : List Nat
  retrainAt : List Nat
  protocol : Bool
  /-- Identity: tick and Time To Live of the last accepted LLDPDU, the chassis and switch port that the port acts on, and a changed
  identity seen so many times in a row (R317). -/
  idFrom : Option Nat
  idTtl : Nat
  chassis : Nat
  switchPort : Nat
  change : Option (Nat × Nat)
  changeSeen : Nat
  /-- The place of that identity among all identities taken: the lower came first (R318). -/
  idNo : Nat
  /-- Tick of the last LLDPDU sent, and is one due for a change of plan (R316)? -/
  lldpAt : Option Nat
  planDue : Bool
  /-- Tick of the last data flit sent (R324). -/
  dataAt : Nat
  /-- The partner's requested power state, as its last power flit named it (R305). -/
  partner : Nat
  deriving DecidableEq, Repr

def Port.reset : Port :=
  { plan := Plan.reset, since := 0, failedAt := none, locked := false, txSeq := 0, rxSeq := 0, queue := [], buffer := [], timerFrom := none, stuck := 0,
    nakOut := false, owed := 0, owedFrom := none, owedDup := false, drop0 := false, drop1 := false, rcv0 := 0, rcv1 := 0, freed := 0,
    creditAt := none, credit0 := 0, credit1 := 0, sent0 := 0, sent1 := 0, badCredits := [], badCodes := [], retrainAt := [],
    protocol := false, idFrom := none, idTtl := 0, chassis := 0, switchPort := 0xFFFF, change := none, changeSeen := 0, idNo := 0, lldpAt := none, planDue := false, dataAt := 0,
    partner := 0 }

/-- The entry of one sender of pace-mode flits (R314). -/
structure PaceEnt where
  pace : Nat
  op : Nat
  throttled : Bool
  parked : Bool
  seq : Nat
  epoch : Nat
  prepEpoch : Nat
  step : Nat
  group : Nat
  /-- Tick of the last flit accepted. -/
  tick : Nat
  deriving DecidableEq, Repr

structure LinkState where
  /-- P0 to P15. -/
  ports : Tab Port
  /-- Messages that wait for a plane to come up, oldest first. -/
  unsent : List Mail
  /-- Entries by pod × 512 + module. -/
  pace : Tab PaceEnt
  /-- pace_seq of the next pace-mode flit, and the tick of the last (R313). -/
  paceSeq : Nat
  paceAt : Nat
  /-- Identities taken so far, over all ports. -/
  identities : Nat
  deriving DecidableEq, Repr

def LinkState.reset : LinkState := { ports := [], unsent := [], pace := [], paceSeq := 0, paceAt := 0, identities := 0 }

/-! ### The collective engine and the group (chapter 12) -/

/-- A message kept until the record that produced it retires (R342). -/
structure Sent where
  win : Nat
  seq : Nat
  dst : Nat
  msg : Msg
  /-- The logical plane it went out on last. -/
  plane : Nat
  deriving DecidableEq, Repr

/-- One chunk of a reduce (R338 to R340). -/
structure Chunk where
  /-- As owner: ranks whose exponents have come, and their maximum so far, one per block. -/
  expGot : Nat
  expMax : List Nat
  /-- The agreed exponents, once known. -/
  agreed : Option (List Nat)
  /-- As owner: sums S and NaN flags of the elements, the contribution bitmap, the tick of the first contribution and of the last
  resend request. -/
  sums : List Int
  nans : List Bool
  ranks : Nat
  firstAt : Option Nat
  askedAt : Nat
  /-- When the own data went out, or the last result request (R345). -/
  sentAt : Option Nat
  /-- Parts landed, as a bitmap, and the bytes of a part held until the other lands (R340). -/
  parts : Nat
  held : List (Nat × Bytes)
  landed : Bool
  deriving DecidableEq, Repr

def Chunk.fresh : Chunk :=
  { expGot := 0, expMax := [], agreed := none, sums := [], nans := [], ranks := 0, firstAt := none, askedAt := 0, sentAt := none,
    parts := 0, held := [], landed := false }

/-- A collective record that has started (R333): its members' bitmap is the group's. -/
structure Job where
  /-- 1 reduce, 2 gather, 3 agree, 4 scalar (Table 12.4), with the record's bytes. -/
  op : Nat
  raw : Rec
  step : Nat
  /-- Its place among the records of its op in the step, which its messages carry where no span does. -/
  nth : Nat
  /-- Reduce: its length in blocks, its chunks by number, and its span where the record retired before all its data went out. -/
  blocks : Nat
  chunks : Tab Chunk
  kept : Option Span
  /-- Gather, agree, scalar: ranks heard from, the bytes they sent, the ranks or parts done. -/
  heard : Nat
  inputs : Tab Bytes
  result : Option Bytes
  /-- Count-vector parts: contributions by part × 512 + rank, and group sums landed, by part. -/
  countIn : Tab Bytes
  countOut : Tab Bytes
  deriving DecidableEq, Repr

/-- The last capability frame of a member (Table 12.1). -/
structure Peer where
  level : Nat
  numerics : Nat
  dictVersion : Nat
  fwVersion : Nat
  shape : Nat
  epoch : Nat
  digest : Nat
  step : Nat
  flags : Nat
  tick : Nat
  deriving DecidableEq, Repr

/-- A prepare in force (R347). -/
structure Prepare where
  win : Nat
  seq : Nat
  epoch : Nat
  step : Nat
  fwActivate : Bool
  deriving DecidableEq, Repr

/-- A view procedure in progress (R351): its start, own view, the shape before, and has a survivors message been adopted? -/
structure ViewRun where
  start : Nat
  own : Nat
  shape : Nat
  deriving DecidableEq, Repr

/-- A comparison of step digests (R352): own digest, copies by member (digest, and twin's digest and mode digest where reported), the own twin's
digest and mode digest, the start, and has the verdict been formed? -/
structure Compare where
  step : Nat
  start : Nat
  own : Nat
  copies : Tab (Nat × Option (Nat × Nat))
  twin : Option (Nat × Nat)
  twinLate : Bool
  told : Bool
  deriving DecidableEq, Repr

/-- A state transfer to this module (R353, R355, R497): its donor, the step whose state comes, the parts received, and is it a repair? -/
structure Transfer where
  donor : Nat
  step : Nat
  parts : Nat
  repair : Bool
  deriving DecidableEq, Repr

structure CollState where
  /-- Records that have started, by record key, and messages kept for sending again. -/
  jobs : Tab Job
  sent : List Sent
  /-- Messages of records that have not started here, oldest first (R332). -/
  inbox : List Msg
  /-- Records of op agree, scalar and gather started in the step, and the steps whose loss and whose count vector a dispatched record
  carries (R334). -/
  agrees : Nat
  scalars : Nat
  gathers : Nat
  lossSeen : List Nat
  lastSeen : List Nat
  /-- The step's loss as a G16 code (R217), and its group counts once the last record has retired (R56). -/
  loss : Option Nat
  groupCounts : Option (Tab Counts)
  /-- Capability frames by module number; when joining began, and was join-wait raised; when the last frame went out, and its body. -/
  peers : Tab Peer
  joinFrom : Nat
  joinTold : Bool
  capAt : Option Nat
  capLast : Bytes
  prepare : Option Prepare
  /-- The values staged when a prepare was dispatched, by record key (R347). -/
  snaps : Tab (Tab Nat)
  view : Option ViewRun
  /-- Views received, by member (R351); digest messages of a step not yet formed here; members served by a transfer since the last
  boundary. -/
  views : Tab Nat
  digests : List Msg
  served : List Nat
  /-- Members declared failed and not yet cut out (R343). -/
  failed : List Nat
  compare : Option Compare
  /-- Has the step digest been formed since the last comparison began (R352)? -/
  formed : Bool
  transfer : Option Transfer
  /-- State parts that came before this module's own verdict (R353). -/
  early : List Msg
  /-- Steps of the repairs of this module, kept in service flash (R355). -/
  repairs : List Nat
  /-- Has this module reported state-lost (R224, R261)? -/
  stateLost : Bool
  /-- The step of a compare whose twin digest came late and differs; and the digest of the verdict on earlier compare steps whose twin
  digest has not come (R354). -/
  lateTwin : Option Nat
  overdue : Tab Nat
  /-- The step for which every member's pace flit showed equal epochs, and the tick a stall for differing ones began (R349). -/
  agreedFor : Option Nat
  /-- Members whose collective message of the step carried another epoch or mode digest (R349). -/
  differing : Tab (Nat × Nat)
  stallFrom : Option Nat
  /-- The group has restarted, and staged values take force at its first boundary (R409). -/
  restart : Bool
  deriving DecidableEq, Repr

def CollState.reset : CollState :=
  { jobs := [], sent := [], inbox := [], agrees := 0, scalars := 0, gathers := 0, lossSeen := [], lastSeen := [], loss := none,
    groupCounts := none, peers := [], joinFrom := 0, joinTold := false, capAt := none, capLast := [], prepare := none, snaps := [], view := none, views := [],
    digests := [], served := [], failed := [], compare := none, formed := false, transfer := none, early := [], repairs := [], stateLost := false, lateTwin := none, overdue := [], agreedFor := none, differing := [], stallFrom := none, restart := false }

/-! ### Power, thermal and coolant (chapter 13) -/

/-- A domain's latest demand in watts: E0, E1 and E2, the epoch it came in, and has its silence been reported (R367)? -/
structure Demand where
  e0 : Nat
  e1 : Nat
  e2 : Nat
  epoch : Nat
  told : Bool
  deriving DecidableEq, Repr

def Demand.none : Demand := { e0 := 0, e1 := 0, e2 := 0, epoch := 0, told := true }

/-- What Bellows computed in an epoch, which takes effect at its end (R367, R368). -/
structure Grant where
  epoch : Nat
  /-- Watts of compute, links, memory, ingest, service, and their sum in units of 1/256 µW. -/
  watts : List Nat
  total : Nat
  op : Nat
  duty : Nat
  deferred : Nat
  /-- The point the budget allows, whatever the other ceilings. -/
  budgetOp : Nat
  park : Bool
  /-- Is it the fallback of a Bellows restart, which waits for a change in progress (R371)? -/
  fallback : Bool
  deriving DecidableEq, Repr

/-- A thermal sensor (R375): its accepted readings of the last millisecond with the one before, newest first, as tick and °C × 10; is it
discarded, and since when have its readings been clean? -/
structure Sensor where
  accepted : List (Nat × Int)
  discarded : Bool
  cleanFrom : Option Nat
  deriving DecidableEq, Repr

def Sensor.fresh : Sensor := { accepted := [], discarded := false, cleanFrom := none }

/-- A sensor pair (R376): since when its readings have differed by more than 8 °C, or agreed within 3 °C, is it suspect, and the
model value of its last sample. -/
structure PairState where
  overFrom : Option Nat
  calmFrom : Option Nat
  suspect : Bool
  model : Int
  deriving DecidableEq, Repr

def PairState.fresh : PairState := { overFrom := none, calmFrom := none, suspect := false, model := 0 }

/-- Inlet and outlet in °C × 100, flow in mL/min (Table 15.8). -/
structure Coolant where
  inlet : Int
  outlet : Int
  flow : Nat
  deriving DecidableEq, Repr

structure PowerState where
  /-- The over-voltage latch (Table 13.2). -/
  ovp : Bool
  /-- Why the module is parked: input, tray, cap, temperature; is it in hold, in deep hold (R358, R370, R377, R383, R477)? -/
  inputPark : Bool
  trayPark : Bool
  capPark : Bool
  heatPark : Bool
  hold : Bool
  deep : Bool
  /-- Is the hold one that a reported flow stop began (R382)? -/
  stopped : Bool
  /-- Demands by domain, 0 compute to 4 service, and compute's E0 at each operating point and full duty. -/
  demands : Tab Demand
  perOp : List Nat
  /-- The grant that waits for its epoch's end, the last epoch computed and its tick, and the last total granted. -/
  next : Option Grant
  epoch : Nat
  grantAt : Nat
  total : Nat
  /-- The operating point a change in progress goes to (R362). -/
  change : Option Nat
  /-- Reduction of the budget under R365, in µW. -/
  correction : Nat
  /-- The tick at which that reduction ends. -/
  correctionEnd : Nat
  /-- Calibration gain k, as a fraction (R364), and the module's estimate in µW before it, conversion loss added. -/
  kNum : Nat
  kDen : Nat
  est : Nat
  /-- The estimates of the domains in µW before the gain, and the activity counted in the last millisecond (R363). -/
  ests : List Nat
  act : Activity
  /-- The 1 MHz samples of the last millisecond, in mV and mA (R357). -/
  samples : List (Nat × Nat)
  /-- The array rail (Table 13.3): its target, the voltage it moves from and since when it moves, in mV and ticks (Table 13.5). -/
  rail : Nat
  railFrom : Nat
  railAt : Nat
  /-- Measured power of the last 100 ms in µW, newest first, and energy not yet counted as whole joules, in nJ. -/
  pins : List Nat
  energy : Nat
  /-- Sensors 0 to 47 and pairs 0 to 23. -/
  sensors : Tab Sensor
  pairs : Tab PairState
  /-- The duty the thermal controller allows, the tick of its last step and of the rise above high (R377). -/
  heatDuty : Nat
  stepAt : Nat
  highFrom : Option Nat
  /-- The last three accepted reports, newest first, and the filtered quantities (R380). -/
  reports : List Coolant
  coolant : Option Coolant
  /-- Last accepted seq and tick (R425). -/
  seq : Nat
  reportAt : Option Nat
  lost : Bool
  /-- The heat-removal limit as it binds, its rises limited (R381); reports in a row with the outlet above 60 °C, with flow below
  0.4 L/min, and fit to end a hold (R382, R384). -/
  heat : Option Nat
  hotOut : Nat
  stops : Nat
  good : Nat
  mismatchFrom : Option Nat
  /-- Accounting: its last tick, and ticks not yet counted as whole milliseconds, throttled, following and with E2 deferred. -/
  accountAt : Nat
  throttledT : Nat
  followingT : Nat
  e2T : Nat
  /-- Since when E2 has been deferred without a break (R20). -/
  e2From : Option Nat
  deriving DecidableEq, Repr

def PowerState.reset : PowerState :=
  { ovp := false, inputPark := false, trayPark := false, capPark := false, heatPark := false, hold := false, deep := false, stopped := false,
    demands := [], perOp := [], next := none, epoch := 0, grantAt := 0, total := 0, change := none, correction := 0, correctionEnd := 0, kNum := 1, kDen := 1,
    est := 0, ests := [], act := { cells := [], vector := 0, bridges := [], channels := [], flits := 0, luma := 0 }, samples := [],
    rail := 0, railFrom := 0, railAt := 0, pins := [], energy := 0, sensors := [], pairs := [], heatDuty := 256, stepAt := 0, highFrom := none, reports := [],
    coolant := none, seq := 0, reportAt := none, lost := false, heat := none, hotOut := 0, stops := 0, good := 0, mismatchFrom := none,
    accountAt := 0, throttledT := 0, followingT := 0, e2T := 0, e2From := none }

/-! ### Clocks, margin monitors and time (chapter 14) -/

structure ClockState where
  /-- Masked reed monitors, as (row × 32 + column) × 4 + monitor, rising (R395). -/
  masked : List Nat
  /-- The trim is held until this tick after an operating-point change (R396). -/
  trimHold : Nat
  /-- Since the last ageing record: lowest worst margin by operating point, highest stretch in ppm by region, highest Tj (Table 14.4). -/
  margins : Tab Nat
  stretch : Tab Nat
  tjMax : Int
  /-- Ageing records in service flash, oldest first, at most 4096 (R398). -/
  records : List Bytes
  /-- Powered second of the last daily record, has the session's record been written, and records due for an event, by cause. -/
  lastDay : Nat
  sessionRec : Bool
  due : List Nat
  /-- The first operating point the array used in this session, the ticks it has run there, and the tick of the last loop decision (R398). -/
  ranOp : Option Nat
  ran : Nat
  loopAt : Nat
  /-- The PLL in use in every region, 0 or 1, and the operating points the two are locked or locking to (R388). -/
  pll : Nat
  plls : List Nat
  /-- Worst margins of a region in the last millisecond, newest first, with their ticks. -/
  worst : Tab (List (Nat × Nat))
  /-- The copies of the drone counter that have loaded a sync word, by domain (R401). -/
  copies : List Nat
  /-- Daily records in a row with margin-low at the bound (Table 18.5). -/
  lowDays : Nat
  /-- Has margin-low been raised since the last daily record? -/
  lowSeen : Bool
  /-- Tick of the last sync word, and of the last write of powered time (R401, R404). -/
  syncAt : Nat
  savedAt : Nat
  deriving DecidableEq, Repr

def ClockState.reset : ClockState :=
  { masked := [], trimHold := 0, margins := [], stretch := [], tjMax := 0, records := [], lastDay := 0, sessionRec := false, due := [],
    ranOp := none, ran := 0, loopAt := 0, pll := 0, plls := [0, 0], worst := [], copies := [], lowDays := 0, lowSeen := false, syncAt := 0, savedAt := 0 }

/-- A dual-clock queue (R392): its 5-bit Gray pointers, each with the three flip-flops that carry it into the other domain (newest first),
the sender's credits, the entries written and not read, oldest first, and before the queue of a link receiver the flits of its elastic
queue of 64 (Table 14.3). -/
structure Dcq where
  wr : Nat
  rd : Nat
  wrSync : List Nat
  rdSync : List Nat
  credits : Nat
  ents : List Nat
  elastic : List Nat
  deriving DecidableEq, Repr

def Dcq.reset : Dcq := { wr := 0, rd := 0, wrSync := [0, 0, 0], rdSync := [0, 0, 0], credits := 16, ents := [], elastic := [] }

/-- The clock crossings (R391), by crossing; the sender cycles waited for a credit at the crossings of the array (0xA090.03), and the
model's own count of the free values drawn for them: no part of the module. -/
structure CrossState where
  queues : Tab Dcq
  stalls : Nat
  drawn : Nat
  deriving DecidableEq, Repr

def CrossState.reset : CrossState := { queues := [], stalls := 0, drawn := 0 }

/-! ### Events, dictionary access and stored settings (chapter 15) -/

/-- An event record (Table 15.10) held in the log. -/
structure EventRec where
  evseq : Nat
  session : Nat
  ticks : Nat
  code : Nat
  occ : Nat
  params : Bytes
  /-- Has a log read or a notice covered it (R429)? -/
  covered : Bool
  deriving DecidableEq, Repr

/-- A request answered within the last second, with its reply (R420). -/
structure Kept where
  src : Src
  request : Bytes
  reply : Bytes
  tick : Nat
  deriving DecidableEq, Repr

/-- An event kept in service flash until a later session reports it (R433). -/
structure FlashEvent where
  code : Nat
  session : Nat
  ticks : Nat
  params : Bytes
  reported : Bool
  deriving DecidableEq, Repr

/-- The settings record of service flash (R412, R413): the dictionary version and the values written, by key. -/
structure SettingsRec where
  dictVersion : Nat
  values : Tab Nat
  /-- Does its CRC-32 hold? -/
  good : Bool
  deriving DecidableEq, Repr

/-- A settings_save in progress: its start, what settings_state read before it, the record, failed read-backs so far (R413). -/
structure Saving where
  start : Nat
  before : Nat
  rcd : SettingsRec
  fails : Nat
  deriving DecidableEq, Repr

structure DictState where
  /-- The event log, oldest first, at most 4096 records (R429). -/
  log : List EventRec
  /-- The evseq the next record takes (R427). -/
  evseq : Nat
  /-- A log-overrun episode is open (R429). -/
  overrun : Bool
  /-- Tick of the first record not yet signalled on HA and on HB (R432). -/
  irqA : Option Nat
  irqB : Option Nat
  /-- The last requests answered, newest first (R420). -/
  kept : List Kept
  /-- The conditions of "once per episode" events that are open, as keys code × 2^32 + instance, rising (R431). -/
  episodes : List Nat
  /-- Events kept in service flash (R433). -/
  flash : List FlashEvent
  /-- The BAR2 block; a byte not listed reads 0 (R434, R435). -/
  mirror : Tab Byte
  /-- Tick of the last mirror refresh. -/
  mirrorAt : Nat
  /-- Tick of the last intact field-network frame (R422). -/
  fldHeard : Nat
  /-- The stored settings record, a save in progress and the tick the last save completed (R413). -/
  stored : Option SettingsRec
  saving : Option Saving
  savedAt : Option Nat
  /-- The objects reset at the last firmware change, as keys (R454). -/
  resetList : List Nat
  deriving DecidableEq, Repr

def DictState.reset : DictState :=
  { log := [], evseq := 0, overrun := false, irqA := none, irqB := none, kept := [], episodes := [], flash := [], mirror := [],
    mirrorAt := 0, fldHeard := 0, stored := none, saving := none, savedAt := none, resetList := [] }

/-! ### Firmware and security (chapter 16) -/

/-- A copy of the boot record (R447): sequence number, active slot (0 A, 1 B), trial flag, trial boot count, and does its CRC hold? -/
structure BootRec where
  seq : Nat
  active : Nat
  trial : Bool
  count : Nat
  good : Bool
  deriving DecidableEq, Repr

/-- A firmware update over PLDM: its port, how far it has come (1 update requested, 2 component table passed, 3 transfer), the size of the
image and the bytes received (R446). -/
structure Loading where
  port : HostPort
  phase : Nat
  size : Nat
  got : Nat
  deriving DecidableEq, Repr

/-- A secured session (R456): its number, finished, tick of its last message and heartbeat period in seconds. -/
structure Secured where
  id : Nat
  done : Bool
  beat : Nat
  period : Nat
  deriving DecidableEq, Repr

/-- A port's SPDM responder: how far the connection has come (0 none, 1 version, 2 capabilities, 3 algorithms) and its session. -/
structure Spdm where
  phase : Nat
  session : Option Secured
  deriving DecidableEq, Repr

def Spdm.reset : Spdm := { phase := 0, session := none }

structure FwState where
  /-- The two copies of the boot record. -/
  bootA : BootRec
  bootB : BootRec
  /-- Bytes of the slots, at slot × 2^27 + byte, and the slots written since the factory; a slot not written holds its factory image. -/
  slots : Tab Byte
  written : List Nat
  load : Option Loading
  /-- 0 no activation, 1 dispatch held, 2 domains restarting (R450), 3 waiting for the end of a hold (R451). -/
  phase : Nat
  /-- The tick of the restart, the version before it, and the cause where it is a revert (R452). -/
  restartAt : Nat
  oldVersion : Nat
  revert : Option Nat
  /-- SHA-384 of ROM, active manifest and settings record (R447). -/
  measured : List Nat
  /-- LMS leaves of the block reserved in service flash that are not used yet (R459), and has lms-low been raised? -/
  leafLeft : Nat
  lowTold : Bool
  /-- Tick of the last dual report. -/
  reportAt : Option Nat
  /-- The nonce a token must carry, and entries of the vendor test state over the service life (R462). -/
  nonce : Option Bytes
  testEntries : Nat
  spdmA : Spdm
  spdmB : Spdm
  /-- IDE keys programmed on HA and HB (R461). -/
  ideKeyA : Option Bytes
  ideKeyB : Option Bytes
  deriving DecidableEq, Repr

def FwState.reset : FwState :=
  { bootA := { seq := 1, active := 0, trial := false, count := 0, good := true },
    bootB := { seq := 0, active := 0, trial := false, count := 0, good := true }, slots := [], written := [], load := none, phase := 0,
    restartAt := 0, oldVersion := 0, revert := none, measured := [], leafLeft := 0, lowTold := false, reportAt := none,
    nonce := none, testEntries := 0, spdmA := Spdm.reset, spdmB := Spdm.reset,
    ideKeyA := none, ideKeyB := none }

/-! ### Pins and start-up (chapters 17 and 18) -/

/-- An entry of the field log in service flash (R493): session, ticks, cause, what it concerns; for a tile, has it been applied? -/
structure FieldEntry where
  session : Nat
  ticks : Nat
  /-- 1 parity, 2 reed and 3 self-test for a tile; 4 a remap, 5 a retirement of the module. -/
  cause : Nat
  /-- A physical tile as row × 32 + column, a map of planes, a module number. -/
  what : List Nat
  applied : Bool
  deriving DecidableEq, Repr

structure StartState where
  /-- The stage running (Table 18.2), 9 when start-up is complete, 0 before standby power-good; the tick it began. -/
  stage : Nat
  since : Nat
  /-- The power session number in service flash (R403). -/
  sessionNo : Nat
  /-- The stage that has failed once, the tick of a retry, and is this a domain restart (R487, R489)? -/
  failed : Option Nat
  retryAt : Option Nat
  domain : Bool
  /-- Are the rails other than standby on? -/
  rails : Bool
  /-- tray_ready, flow_loss_n and mod_reset_n as they read after their filters: asserted? (Table 17.8). -/
  trayReady : Bool
  flowLoss : Bool
  modReset : Bool
  /-- x_perst_n of each host port: asserted (R471)? -/
  perstA : Bool
  perstB : Bool
  /-- Samples of slot_id and the slot taken (R476). -/
  slotSamples : List Nat
  slot : Option Nat
  /-- Has the self-test restarted the module in this session (R488)? -/
  selfTested : Bool
  /-- The field log, oldest first, at most 1024 entries, and the retired-tile list, as row × 32 + column (R493, R494, R64). -/
  fieldLog : List FieldEntry
  retired : List Nat
  /-- Wear items for which life-warn has been raised in the session, and life-exceeded ever (R498). -/
  warned : List Nat
  exceeded : List Nat
  deriving DecidableEq, Repr

/-- Before input power: an unmated line reads as its safe value (R475). -/
def StartState.reset : StartState :=
  { stage := 0, since := 0, sessionNo := 0, failed := none, retryAt := none, domain := false, rails := false, trayReady := false, flowLoss := true,
    modReset := false, perstA := true, perstB := true, slotSamples := [], slot := none, selfTested := false, fieldLog := [],
    retired := [], warned := [], exceeded := [] }

/-! ### The machine -/

/-- The state of the module. -/
structure State where
  /-- The commands waiting, first in, first out. -/
  pending : List Instr
  /-- Drone ticks since power-good, the master count (R400). -/
  now : Nat
  /-- Are the standby rails good (R467)? -/
  standby : Bool
  /-- Values of the object dictionary that differ from their default, by key (R406). -/
  obj : Tab Nat
  /-- Staged values of the mode block (R409), by key; an unlisted key is staged as in force. -/
  staged : Tab Nat
  /-- Values a pending prepare has staged for its boundary (R347), by key. -/
  prep : Tab Nat
  /-- Command windows, result rings and host ports. -/
  cmd : CmdState
  /-- The logical tiles: memories, banks, casts, semaphores, rings, counts. -/
  tile : TileState
  /-- Open spans of the collective engine, by span number (R336). -/
  spans : Tab Span
  /-- Touches of sum pages so far, the order by which the least recently touched is found (R336). -/
  touches : Nat
  /-- The update processor: maps, armed records, journal, checkpoint images. -/
  upd : UpdState
  /-- Optical ports and the pace-mode entries of their senders. -/
  link : LinkState
  /-- The collective engine and the group: records started, messages kept, members, modes, views, digests. -/
  coll : CollState
  /-- Regions, their pages and homes, lenders, streams and the bank tier. -/
  tier : TierState
  /-- Stream zones, checkpoints, profiles, samples, engines and flash blocks. -/
  store : StoreState
  /-- Power states, Bellows, the estimator, sensors and coolant. -/
  power : PowerState
  /-- Margin monitors, ageing records and the times at which time is kept. -/
  clock : ClockState
  /-- The queues between clock domains. -/
  cross : CrossState
  /-- Boot record, slots, activation, attestation and secured sessions. -/
  fw : FwState
  /-- Pins, start-up, the field log and retired tiles. -/
  start : StartState
  /-- Events, dictionary access and stored settings. -/
  dict : DictState
  /-- The model's own counter of free values drawn: no part of the module. -/
  free : Nat
  /-- The model's own record of what has left the module, newest first. -/
  out : List Out
  deriving DecidableEq, Repr

/-- The module when input power is first applied: standby rails not yet good, every register at its power-up value, nothing
pending. STANDBY_POWER_GOOD starts the first session (R467). -/
def State.reset : State :=
  { pending := [],
    now := 0,
    standby := false,
    obj := [],
    staged := [],
    prep := [],
    cmd := CmdState.reset,
    tile := TileState.reset,
    spans := [],
    touches := 0,
    upd := UpdState.reset,
    link := LinkState.reset,
    coll := CollState.reset,
    tier := TierState.reset,
    store := StoreState.reset,
    power := PowerState.reset,
    clock := ClockState.reset,
    cross := CrossState.reset,
    fw := FwState.reset,
    start := StartState.reset,
    dict := DictState.reset,
    free := 0,
    out := [] }

end Sys2Proof.Machine
end

