-- ==== Sys2Proof/Machine/Ops.lean ====
section
/-! DEFINITION. The named operations every family shares: reading and setting objects and counters, raising events, reading and
writing a memory, and the command windows' rings, credits, halts and retirements. -/
namespace Sys2Proof.Machine

/-! ### Object values and counters -/

/-- The value in force of the object with key `k` (R406). -/
def State.rd (s : State) (k : Nat) : Nat := (s.obj.find k).getD (objDflt k)

/-- Set the object with key `k` to `v`; the table lists only what differs from the default. -/
def State.wr (s : State) (k v : Nat) : State :=
  { s with obj := if v = objDflt k then s.obj.erase k else s.obj.insert k v }

/-- Add `n` to a 64-bit counter. -/
def State.count (s : State) (k n : Nat) : State := s.wr k ((s.rd k + n) % 2 ^ 64)

/-- Add `n` to a saturating 32-bit counter. -/
def State.countSat (s : State) (k n : Nat) : State := s.wr k (min (s.rd k + n) (2 ^ 32 - 1))

/-- Set the objects with keys `ks` to zero: what a clear action does to its counters (R57, R83). -/
def State.clear (s : State) (ks : List Nat) : State := ks.foldl (fun s k => s.wr k 0) s

/-- A signed value from its two's complement code of `b` bits. -/
def toInt (b n : Nat) : Int := if n % 2 ^ b < 2 ^ (b - 1) then ((n % 2 ^ b : Nat) : Int) else ((n % 2 ^ b : Nat) : Int) - 2 ^ b

/-- The two's complement code of `b` bits of a signed value. -/
def ofInt (b : Nat) (i : Int) : Nat := (i % 2 ^ b).toNat

/-- Show a reading in an object: outside the object's range it is shown at the bound (R10). -/
def State.wrIn (s : State) (k : Nat) (lo hi v : Int) : State := s.wr k (ofInt 32 (max lo (min hi v)))

/-- Record an output. -/
def State.emit (s : State) (o : Out) : State := { s with out := o :: s.out }

/-- Signal an MSI-X vector on a port: a masked vector waits in the pending-bit array (R172). -/
def State.interrupt (s : State) (p : HostPort) (v : Nat) : State :=
  let k := 16 * (match p with
    | .ha => 1
    | .hb => 2) + v
  if (s.cmd.msix.get MsixEnt.reset k).masked then { s with cmd := { s.cmd with pba := s.cmd.pba.set false k true } }
  else { s.emit (.msix p v) with cmd := { s.cmd with pba := s.cmd.pba.set false k false } }

/-- A host port starts again: its MSI-X table, pending bits and error status are as at reset (R172). -/
def State.resetPort (s : State) (p : HostPort) : State :=
  let n := match p with
    | .ha => 1
    | .hb => 2
  { s with cmd := { s.cmd with
      msix := s.cmd.msix.filter (fun x => x.1 / 16 != n), pba := s.cmd.pba.filter (fun x => x.1 / 16 != n)
      aer := s.cmd.aer.filter fun x => x.1 / 2 != n } }

/-- Do the tiles and Chisel have their clocks: neither parked nor in hold nor in thermal park, nor restarting (R370, R383, R450)? -/
def State.arrayOn (s : State) : Bool := decide (s.rd Obj.powerState ≤ 1) && s.rd Obj.duty != 0 && s.fw.phase != 2

/-- Is an energy class deferred (R18, 0x2200.07)? -/
def State.classDeferred (s : State) (c : Nat) : Bool :=
  (c == 2 && s.rd Obj.deferred != 0) || (c == 1 && s.rd Obj.deferred == 2)

/-! ### Sorted sets of numbers -/

/-- Put `k` into a rising list. -/
def setIns : List Nat → Nat → List Nat
  | [], k => [k]
  | j :: r, k => if j = k then j :: r else if k < j then k :: j :: r else j :: setIns r k

/-- Take `k` out of a list. -/
def setDel (l : List Nat) (k : Nat) : List Nat := l.filter (· ≠ k)

/-! ### Events -/

/-- Parameter widths of R428. -/
def p8 (n : Nat) : Bytes := le 1 n
def p16 (n : Nat) : Bytes := le 2 n
def p32 (n : Nat) : Bytes := le 4 n
def p64 (n : Nat) : Bytes := le 8 n

/-- Pack parameters without gaps; those that would pass `room` bytes are dropped from the end (R428). -/
def packParams : Nat → List Bytes → Bytes
  | _, [] => []
  | room, p :: ps => if p.length ≤ room then p ++ packParams (room - p.length) ps else []

/-- The 64 bytes of an event record (Table 15.10). -/
def EventRec.bytes (r : EventRec) : Bytes :=
  p32 r.evseq ++ p32 r.session ++ p64 r.ticks ++ p16 r.code ++ p8 r.params.length ++ p8 0 ++ p32 r.occ ++
    r.params ++ List.replicate (40 - r.params.length) 0

/-- Header of a dictionary PDU (Table 15.5). -/
def pduHeader (op tid len count flags : Nat) : Bytes := p8 1 ++ p8 op ++ p16 tid ++ p16 len ++ p8 count ++ p8 flags

/-- The subscribers an event record goes out to as a notice (R432). -/
def State.subscribers (s : State) : List Src :=
  (if s.rd Obj.evtSubMac = 0 then [] else [.fld (s.rd Obj.evtSubMac)]) ++
  (if s.rd (Obj.evtSubEid 2) = 0 then [] else [.mctp .ha (s.rd (Obj.evtSubEid 2))]) ++
  (if s.rd (Obj.evtSubEid 3) = 0 then [] else [.mctp .hb (s.rd (Obj.evtSubEid 3))])

/-- Send the record's notices and start the interrupt timers of the ports that have none running (R432). -/
def State.announce (s : State) (r : EventRec) : State :=
  let pdu := pduHeader 4 (Config.noticeTid r.evseq) 72 0 0 ++ r.bytes
  let s := s.subscribers.foldl (fun s d => (s.emit (.notice d pdu)).count Obj.dictFramesTx 1) s
  { s with dict := { s.dict with
      irqA := if s.rd (Obj.evtIrq 1) = 1 ∧ s.dict.irqA = none then some s.now else s.dict.irqA
      irqB := if s.rd (Obj.evtIrq 2) = 1 ∧ s.dict.irqB = none then some s.now else s.dict.irqB } }

/-- Form the record of one occurrence, count and flag it, log it (at most 4096 records) and announce it (R427 to R432). -/
def State.form (s : State) (code : Nat) (ps : List Bytes) : State :=
  let occ := (s.rd (Obj.occurrences (code / 256 - 1) (code % 256)) + 1) % 2 ^ 32
  let r : EventRec := { evseq := s.dict.evseq, session := s.rd Obj.powerSession, ticks := s.now, code := code, occ := occ,
                        params := packParams 40 ps, covered := !s.subscribers.isEmpty }
  let s := s.wr (Obj.occurrences (code / 256 - 1) (code % 256)) occ
  let s := s.wr (Obj.flags (code / 256)) (s.rd (Obj.flags (code / 256)) ||| 2 ^ (code % 256 - 1))
  let s := { s with dict := { s.dict with
      evseq := (s.dict.evseq + 1) % 2 ^ 32
      log := (if 4096 ≤ s.dict.log.length then s.dict.log.drop 1 else s.dict.log) ++ [r] } }
  s.announce r

/-- Raise an event. Where its record overwrites one that nothing has covered, log-overrun is raised, once per episode (R429). -/
def State.raise (s : State) (code : Nat) (ps : List Bytes) : State :=
  let lost := decide (4096 ≤ s.dict.log.length) && (match s.dict.log with | r :: _ => !r.covered | [] => false)
  let s' := s.form code ps
  if lost ∧ ¬ s.dict.overrun then
    let s' := { s' with dict := { s'.dict with overrun := true } }
    s'.form Ev.logOverrun []
  else s'

/-- The key of an episode of an event: the event, and the instance (port, pair, layer, …) it concerns. -/
def epKey (code inst : Nat) : Nat := code * 2 ^ 32 + inst

/-- Raise an event that is raised once per episode, unless its episode is open, and open it (R431). -/
def State.raiseOnce (s : State) (code inst : Nat) (ps : List Bytes) : State :=
  if s.dict.episodes.contains (epKey code inst) then s
  else
    let s := s.raise code ps
    { s with dict := { s.dict with episodes := setIns s.dict.episodes (epKey code inst) } }

/-- The condition behind an event has ended. -/
def State.endEpisode (s : State) (code inst : Nat) : State :=
  { s with dict := { s.dict with episodes := setDel s.dict.episodes (epKey code inst) } }

def State.inEpisode (s : State) (code inst : Nat) : Bool := s.dict.episodes.contains (epKey code inst)

/-- Raise an event that is kept in service flash as well, to be raised again in the next session (R433). -/
def State.raiseKept (s : State) (code : Nat) (ps : List Bytes) : State :=
  let s := s.raise code ps
  { s with dict := { s.dict with flash := s.dict.flash ++
      [{ code := code, session := s.rd Obj.powerSession, ticks := s.now, params := packParams 40 ps, reported := false }] } }

/-! ### Wear items (R498) -/

/-- A wear item has reached its warning point: life-warn with the item code, once per power session. -/
def State.lifeWarn (s : State) (item : Nat) : State :=
  if s.start.warned.contains item then s
  else
    let s := s.raise Ev.lifeWarn [p8 item]
    { s with start := { s.start with warned := setIns s.start.warned item } }

/-- A wear item has reached its limit: life-exceeded, once. -/
def State.lifeExceed (s : State) (item : Nat) : State :=
  if s.start.exceeded.contains item then s
  else
    let s := s.raise Ev.lifeExceeded [p8 item]
    { s with start := { s.start with exceeded := setIns s.start.exceeded item } }

/-! ### Memories -/

/-- Read `n` bytes of a memory from address `a`; a byte not listed reads 0. -/
def memRead (m : Tab Byte) (a n : Nat) : Bytes := (List.range n).map fun i => m.get 0 (a + i)

/-- Write a byte string into a memory from address `a`. -/
def memWrite (m : Tab Byte) (a : Nat) : Bytes → Tab Byte
  | [] => m
  | b :: r => memWrite (m.set 0 a b) (a + 1) r

/-- Clear the bytes at addresses `a` to `a + n - 1`: they read 0. -/
def memClear (m : Tab Byte) (a n : Nat) : Tab Byte := m.filter fun c => decide (c.1 < a ∨ a + n ≤ c.1)

/-! ### Sequence numbers and windows -/

/-- `after(a, b)`: is `a` later than `b`, over a window of 2^30? -/
def after (a b : Nat) : Bool :=
  let d := (a + 2 ^ 32 - b % 2 ^ 32) % 2 ^ 32
  decide (1 ≤ d ∧ d ≤ 2 ^ 30)

/-- `before(a, b)`. -/
def before (a b : Nat) : Bool := after b a

/-- The next sequence number. -/
def seqNext (a : Nat) : Nat := (a + 1) % 2 ^ 32

def State.win (s : State) (w : Nat) : Window := s.cmd.wins.get Window.reset w

def State.setWin (s : State) (w : Nat) (x : Window) : State :=
  { s with cmd := { s.cmd with wins := s.cmd.wins.set Window.reset w x } }

def State.updWin (s : State) (w : Nat) (f : Window → Window) : State := s.setWin w (f (s.win w))

/-- The port an MCTP source arrives on; none over the field network. -/
def srcPort : Src → Option HostPort
  | .fld _ => none
  | .mctp p _ => some p

/-- Port number in objects and notices: 1 HA, 2 HB. -/
def portNo : HostPort → Nat
  | .ha => 1 | .hb => 2
def ownerNo : Option HostPort → Nat
  | none => 0 | some p => portNo p
def WinState.no : WinState → Nat
  | .closed => 0 | .opened => 1 | .halted => 2 | .handover => 3

/-- Is the port's link up? -/
def State.linkUp (s : State) (p : HostPort) : Bool := s.rd (Obj.linkState (portNo p - 1)) == 2

/-! ### Ring records -/

/-- Retained ring records (R185). -/
def Window.retained (x : Window) : Nat := x.ring.length

/-- The most ring records a window keeps, and the number below which a notice is formed: 128 places are for the records of its queue
(R185). -/
def ringMost : Nat := 1024
def noticeBelow : Nat := 896

/-- Is the reserve full for a notice (R185)? -/
def Window.reserveFull (x : Window) : Bool := decide (noticeBelow ≤ x.ring.length)

/-- A ring record takes the next result sequence and is retained (R176, R187). -/
def Window.place (x : Window) (w now session ty status reason value cseq : Nat) : Window :=
  { x with
    rnext := seqNext x.rnext
    ring := x.ring ++ [{ rseq := x.rnext, cseq := cseq, ticks := now, session := session, ty := ty, status := status, reason := reason,
                         win := w, value := value, written := false }] }

/-- Form one ring record of a record; past 1024 retained it waits for credit behind those that wait already, so that none is dropped
(R185). -/
def State.formRing (s : State) (w ty status reason value cseq : Nat) : State :=
  s.updWin w fun x =>
    if ringMost ≤ x.ring.length ∨ x.waiting.any (fun v => v.below == ringMost) then
      { x with waiting := x.waiting ++
          [{ ty := ty, status := status, reason := reason, value := value, cseq := some cseq, below := ringMost }] }
    else x.place w s.now (s.rd Obj.powerSession) ty status reason value cseq

/-- Form a ring record that takes a place of the reserve; with the reserve full it waits for credit and results-backlog is raised
(R185). A notice's cseq is the window's e when it is formed (Table 7.7), an extra completion has its own (R504). -/
def State.formReserved (s : State) (w ty status reason value : Nat) (cseq : Option Nat) : State :=
  if (s.win w).reserveFull ∨ (s.win w).waiting ≠ [] then
    (s.updWin w fun x => { x with
      waiting := x.waiting ++ [{ ty := ty, status := status, reason := reason, value := value, cseq := cseq, below := noticeBelow }] }).raise
      Ev.resultsBacklog []
  else s.formRing w ty status reason value (cseq.getD (s.win w).e)

/-- Form a step or window notice. -/
def State.formNotice (s : State) (w ty status reason value : Nat) : State := s.formReserved w ty status reason value none

/-- The value of a window notice: owner in bits 1 to 0, state in bits 3 to 2 (Table 7.8). -/
def Window.noticeValue (x : Window) : Nat := ownerNo x.owner + 4 * x.state.no

/-- Form a window notice with its cause (R194). -/
def State.windowNotice (s : State) (w cause : Nat) : State := s.formNotice w 4 0 cause (s.win w).noticeValue

/-- Form the ring records that waited, in order, while each has room. -/
def State.drainWaiting (s : State) (w : Nat) : Nat → State
  | 0 => s
  | n + 1 =>
    match (s.win w).waiting.find? fun v => decide ((s.win w).ring.length < v.below) with
    | none => s
    | some v =>
      (s.updWin w fun x => { x with waiting := x.waiting.erase v }.place w s.now (s.rd Obj.powerSession) v.ty v.status v.reason v.value
        (v.cseq.getD x.e)).drainWaiting w n

/-- Apply a credit word (R184). -/
def State.applyCredit (s : State) (w cr : Nat) (valid : Bool) : State :=
  if ¬ valid then s
  else
    let x := s.win w
    if cr = x.rc ∨ before cr x.rc then s
    else if after cr x.rc ∧ ¬ after cr ((x.rnext + 2 ^ 32 - 1) % 2 ^ 32) then
      let s := s.setWin w { x with rc := cr, ring := x.ring.filter fun r => after r.rseq cr }
      s.drainWaiting w (s.win w).waiting.length
    else (s.raise Ev.creditRange []).countSat Obj.creditRange 1

/-! ### Halting, retiring and refusing -/

/-- Halt a window, recording why and forming a notice where its state changes (R194). -/
def State.haltWin (s : State) (w cause haltCause : Nat) : State :=
  let was := (s.win w).state
  let s := s.updWin w fun x => { x with state := .halted, haltCause := haltCause }
  if was = .halted then s else s.windowNotice w cause

def Rec.kind (r : Rec) : Nat := fld r 56 8
def Rec.eclass (r : Rec) : Nat := fld r 54 2
def Rec.cmpl (r : Rec) : Bool := fld r 53 1 == 1
def Rec.depEn (r : Rec) : Bool := fld r 52 1 == 1
def Rec.depWin (r : Rec) : Nat := fld r 49 3
def Rec.depSeq (r : Rec) : Nat := fld r 17 32
def Rec.tag (r : Rec) : Nat := fld r 1 16
def Rec.crValid (r : Rec) : Bool := fld r (384 + 32) 1 == 1
def Rec.crSeq (r : Rec) : Nat := fld r 384 32
def Rec.seq (r : Rec) : Nat := fld r 448 32
def Rec.win (r : Rec) : Nat := fld r (448 + 32) 3
def Rec.crc (r : Rec) : Nat := fld r (448 + 48) 16
/-- Bits `hi` to `lo` of descriptor word Wi (record bytes 8 + 8i onwards). -/
def Rec.w (r : Rec) (i hi lo : Nat) : Nat := fld r (64 + 64 * i + lo) (hi - lo + 1)

/-- The entry of a window's queue with a sequence number. -/
def State.entry (s : State) (w q : Nat) : Option QEntry := (s.win w).queue.find? fun e => e.seq == q

/-- Change the entry with a sequence number. -/
def State.updEntry (s : State) (w q : Nat) (f : QEntry → QEntry) : State :=
  s.updWin w fun x => { x with queue := x.queue.map fun e => if e.seq = q then f e else e }

/-- The ring records a retiring record forms (R188). -/
def State.complete (s : State) (w : Nat) (e : QEntry) : State :=
  if Rec.kind e.raw = 9 ∧ e.status ≠ 6 ∧ e.status ≠ 7 then s.formRing w 2 e.status e.reason e.value e.seq
  else if (e.status = 0 ∨ e.status = 1) ∧ ¬ Rec.cmpl e.raw ∧ ¬ e.late then s
  else s.formRing w 1 e.status e.reason (Rec.tag e.raw) e.seq

/-- A record retires: its entry frees, and its completion is formed (R180, R188). A full queue that loses an entry has its watched
slot evaluated again (R178). -/
def State.retire (s : State) (w : Nat) (e : QEntry) : State :=
  let full := decide (64 ≤ (s.win w).queue.length)
  let s := s.complete w e
  s.updWin w fun x => { x with queue := x.queue.filter (fun f => f.seq ≠ e.seq), due := x.due || full }

/-- A record is refused: it retires with its status and reason and the window halts (R74, R189, R194). -/
def State.refuse (s : State) (w : Nat) (e : QEntry) (status reason : Nat) : State :=
  (s.retire w { e with status := status, reason := reason }).haltWin w 0xA1 (256 * status + reason)

/-- A non-tile unit reports a record complete with a status and reason (R180). -/
def State.unitDone (s : State) (w q status reason : Nat) : State :=
  s.updEntry w q fun e => { e with unit := true, status := if e.status = 0 then status else e.status,
                                   reason := if e.status = 0 then reason else e.reason }

/-- Form the key of a record, window and sequence, by which the units hold their work. -/
def recKey (w q : Nat) : Nat := w * 2 ^ 32 + q

/-- The key of a record's share in one tile, and the window and sequence that either key names. -/
def tileKey (w q t : Nat) : Nat := (t + 1) * 2 ^ 64 + recKey w q
def keyWin (k : Nat) : Nat := k / 2 ^ 32 % 2 ^ 32
def keySeq (k : Nat) : Nat := k % 2 ^ 32

/-! ### Fields of time -/

/-- Drone ticks in a microsecond and a millisecond (10 ns each, R11). -/
def us : Nat := 100
def ms : Nat := 100000
def sec : Nat := 1000 * ms

/-! ### The array rail (Table 13.3, Table 13.4) -/

/-- The array rail's voltage at an operating point, in mV. -/
def opMv (op : Nat) : Nat := [620, 600, 580, 560, 540, 520, 490, 460].getD op 460

/-- Its voltage at retention. -/
def retentionMv : Nat := 400

/-- V(OPn) with the trim learned there (R396). -/
def State.trimmedMv (s : State) (op : Nat) : Nat := ((opMv op : Int) + toInt 32 (s.rd (Obj.learnedTrim (op + 1)))).toNat

/-- Ticks for the rail to move between two voltages at 5 mV/µs. -/
def railTicks (a b : Nat) : Nat := 20 * ((a : Int) - b).natAbs

/-- The array rail's voltage as it stands: it moves from `railFrom` to its target at 5 mV/µs. -/
def State.railMv (s : State) : Nat :=
  let d := (s.now - s.power.railAt) / 20
  if s.power.railFrom ≤ s.power.rail then min s.power.rail (s.power.railFrom + d) else max s.power.rail (s.power.railFrom - d)

/-- Set the array rail's target, toward which it turns after `d` ticks. -/
def State.turnRail (s : State) (mv d : Nat) : State :=
  { s with power := { s.power with railFrom := s.railMv, railAt := s.now + d, rail := mv } }

/-- Set the array rail's target. -/
def State.setRail (s : State) (mv : Nat) : State := s.turnRail mv 0

/-- The outputs of Table 13.3 in its order, in mV: array, uncore, serdes (2), chisel, bank bus, plinth (2), standby (2), flash (2).
A rail that is off reads 0; deep hold turns the store tier off (R383). -/
def State.railsMv (s : State) : List Nat :=
  let on (b : Bool) (v : Nat) : Nat := if b then v else 0
  let r := s.start.rails
  [if r then s.railMv else 0, on r 700, on r 750, on r 1200, on r 700, on r 12000, on r 750, on r 1800, on s.standby 750, on s.standby 3300,
    on (r && !s.power.deep) 2500, on (r && !s.power.deep) 1200]

/-- Powered seconds over the service life as they stand (R404). -/
def State.poweredS (s : State) : Nat := s.rd Obj.poweredSTotal + (s.now - s.clock.savedAt) / sec

/-- The arithmetic clock of the operating point in force, in MHz (Table 13.4). -/
def opMHz (op : Nat) : Nat := [1400, 1260, 1120, 980, 850, 720, 580, 450].getD op 450

/-- Tile cycles since a tick, at the arithmetic clock in force. -/
def State.cyclesSince (s : State) (f : Nat) : Nat := (s.now - f) * opMHz (s.rd Obj.opInForce) / 100

end Sys2Proof.Machine
end

