-- ==== Sys2Proof/Machine/Operands.lean ====
section
/-! DEFINITION. Operand forms of the tile records: descriptor fields of products, vector, cast-control and sync records (Tables 3.5
to 3.9, 5.1 to 5.6, 4.3 to 4.5, 6.3), the engine-tile layout of a tensor (R67, R68), and the places operands are read from:
scratchpad, cast stack and staging rings. -/
namespace Sys2Proof.Machine

/-- Bytes of a scratchpad (R62). -/
def scratchBytes : Nat := 2 ^ 21

/-- The format a code names (Table 3.9); the vector engine adds 0x8 for E8. -/
def fmtOf (c : Nat) : Option Fmt :=
  match c with
  | 0 => some .f8 | 1 => some .g8 | 2 => some .h16 | 3 => some .g16 | 4 => some .q4 | 5 => some .w2 | 6 => some .t1
  | 7 => some .a8 | 8 => some .e8 | _ => none

/-- An operand word of a product (Table 3.7). -/
structure Opd where
  loc : Nat
  off : Nat
  scale : Nat
  bsOff : Nat
  deriving DecidableEq, Repr

/-- A product descriptor (Tables 3.5 to 3.8). -/
structure Mx where
  aFmt : Nat
  bFmt : Nat
  outFmt : Nat
  aTrans : Bool
  bTrans : Bool
  dest : Nat
  split : Nat
  dir : Nat
  form : Nat
  layer : Nat
  tf : Nat
  tl : Nat
  semDone : Nat
  barCh : Nat
  barEn : Bool
  mEt : Nat
  kBlocks : Nat
  nEt : Nat
  semWait : Nat
  waitEn : Bool
  a : Opd
  b : Opd
  oOff : Nat
  oScale : Nat
  oBsOff : Nat
  oAxis : Nat
  deriving DecidableEq, Repr

def mxOpd (r : Rec) (i : Nat) : Opd :=
  { loc := Rec.w r i 63 62, off := Rec.w r i 61 40, scale := Rec.w r i 39 24, bsOff := Rec.w r i 23 2 }

/-- Read a product descriptor out of its record. -/
def mxOf (r : Rec) : Mx :=
  { aFmt := Rec.w r 0 63 60, bFmt := Rec.w r 0 59 56, outFmt := Rec.w r 0 55 52, aTrans := Rec.w r 0 51 51 == 1,
    bTrans := Rec.w r 0 50 50 == 1, dest := Rec.w r 0 49 48, split := Rec.w r 0 47 45, dir := Rec.w r 0 44 44,
    form := Rec.w r 0 43 42, layer := Rec.w r 0 41 34, tf := Rec.w r 0 33 26, tl := Rec.w r 0 25 18,
    semDone := Rec.w r 0 17 10, barCh := Rec.w r 0 9 4, barEn := Rec.w r 0 3 3 == 1,
    mEt := Rec.w r 1 63 48, kBlocks := Rec.w r 1 47 31, nEt := Rec.w r 1 30 15, semWait := Rec.w r 1 14 7,
    waitEn := Rec.w r 1 6 6 == 1, a := mxOpd r 2, b := mxOpd r 3,
    oOff := Rec.w r 4 63 42, oScale := Rec.w r 4 41 26, oBsOff := Rec.w r 4 25 4, oAxis := Rec.w r 4 3 3 }

/-- The matrix engine's modes (Table 3.4). -/
inductive MxMode where
  | exact2 | exact4 | narrow | wide
  deriving DecidableEq, Repr

namespace MxMode
def rows : MxMode → Nat | .exact2 => 128 | .exact4 => 256 | .narrow => 512 | .wide => 1024
def cols : MxMode → Nat | .exact2 => 256 | .exact4 => 128 | .narrow => 64 | .wide => 32
/-- Extent along the reduction of one pass. -/
def pass : MxMode → Nat | .wide => 64 | _ => 128
def exact : MxMode → Bool | .exact2 | .exact4 => true | _ => false
end MxMode

/-- The mode follows from the operand formats (R70). -/
def Mx.mode (d : Mx) : MxMode :=
  if d.aFmt = 7 then (if d.bFmt = 4 then .exact4 else .exact2)
  else if d.aFmt = 2 ∨ d.aFmt = 3 ∨ d.bFmt = 2 ∨ d.bFmt = 3 then .wide else .narrow

/-- Ceiling of a quotient. -/
def ceilDiv (a b : Nat) : Nat := (a + b - 1) / b

/-- Group members, tiles, groups, row groups and column groups of a product (R75). -/
def Mx.s (d : Mx) : Nat := 2 ^ d.split
def Mx.tiles (d : Mx) : Nat := d.tl - d.tf + 1
def Mx.groups (d : Mx) : Nat := d.tiles / d.s
def Mx.rowGroups (d : Mx) : Nat := ceilDiv (32 * d.mEt) d.mode.rows
def Mx.colGroups (d : Mx) : Nat := ceilDiv (32 * d.nEt) d.mode.cols
/-- Blocks of a member's reduction share (R76). -/
def Mx.share (d : Mx) : Nat := d.kBlocks / d.s
/-- The group and the member number of a tile of the set (R75). -/
def Mx.group (d : Mx) (t : Nat) : Nat := (t - d.tf) / d.s
def Mx.member (d : Mx) (t : Nat) : Nat := (t - d.tf) % d.s
/-- The output tiles of a group, ascending (R75). -/
def Mx.outs (d : Mx) (g : Nat) : List Nat := (List.range (d.rowGroups * d.colGroups)).filter fun t => t % d.groups == g
/-- Rows and columns of an output tile, the last of each direction possibly partial (R75). -/
def Mx.outRows (d : Mx) (t : Nat) : Nat := min d.mode.rows (32 * d.mEt - t % d.rowGroups * d.mode.rows)
def Mx.outCols (d : Mx) (t : Nat) : Nat := min d.mode.cols (32 * d.nEt - t / d.rowGroups * d.mode.cols)
/-- Engine tiles of one output tile. -/
def Mx.outEts (d : Mx) (t : Nat) : Nat := d.outRows t / 32 * (d.outCols t / 32)
/-- The row groups a group works on, ascending (R501). -/
def Mx.groupRows (d : Mx) (g : Nat) : List Nat :=
  (List.range d.rowGroups).filter fun rg => (d.outs g).any fun t => t % d.rowGroups == rg
/-- Engine tiles of the local tensors of R501: operand A, operand B, output. -/
def Mx.aEts (d : Mx) (g : Nat) : Nat := ((d.groupRows g).map fun rg => min d.mode.rows (32 * d.mEt - rg * d.mode.rows) / 32).sum * d.share
def Mx.bEts (d : Mx) : Nat := d.share * d.nEt
def Mx.oEts (d : Mx) (g : Nat) : Nat := ((d.outs g).map d.outEts).sum

/-- A vector descriptor (Tables 5.1 to 5.4). -/
structure Vx where
  kind : Nat
  outFmt : Nat
  dir : Nat
  form : Nat
  layer : Nat
  tf : Nat
  tl : Nat
  semDone : Nat
  barCh : Nat
  barEn : Bool
  waitEn : Bool
  redAxis : Nat
  redTiles : Bool
  redOp : Nat
  oAxis : Nat
  accKeep : Bool
  /-- The four stages: opcode, x, y. -/
  stages : List (Nat × Nat × Nat)
  c0 : Nat
  aLoc : Nat
  aFmt : Nat
  aAxis : Nat
  aOff : Nat
  aScale : Nat
  aBs : Nat
  mEt : Nat
  bLoc : Nat
  bFmt : Nat
  bAxis : Nat
  bOff : Nat
  bScale : Nat
  bBs : Nat
  nEt : Nat
  oLoc : Nat
  oOff : Nat
  oScale : Nat
  oBs : Nat
  semWait : Nat
  bcast : Nat
  deriving DecidableEq, Repr

def vxStage (r : Rec) (hi : Nat) : Nat × Nat × Nat := (Rec.w r 1 hi (hi - 5), Rec.w r 1 (hi - 6) (hi - 8), Rec.w r 1 (hi - 9) (hi - 11))

/-- Read a vector descriptor out of its record; offsets are in bytes. -/
def vxOf (r : Rec) : Vx :=
  { kind := Rec.w r 0 63 60, outFmt := Rec.w r 0 59 56, dir := Rec.w r 0 55 55, form := Rec.w r 0 54 53, layer := Rec.w r 0 52 45,
    tf := Rec.w r 0 44 37, tl := Rec.w r 0 36 29, semDone := Rec.w r 0 28 21, barCh := Rec.w r 0 20 15, barEn := Rec.w r 0 14 14 == 1,
    waitEn := Rec.w r 0 13 13 == 1, redAxis := Rec.w r 0 12 11, redTiles := Rec.w r 0 10 10 == 1, redOp := Rec.w r 0 9 8,
    oAxis := Rec.w r 0 7 7, accKeep := Rec.w r 0 6 6 == 1,
    stages := [vxStage r 63, vxStage r 51, vxStage r 39, vxStage r 27], c0 := Rec.w r 1 15 0,
    aLoc := Rec.w r 2 63 62, aFmt := Rec.w r 2 61 59, aAxis := Rec.w r 2 58 58, aOff := 64 * Rec.w r 2 57 42,
    aScale := Rec.w r 2 41 26, aBs := 32 * Rec.w r 2 25 10, mEt := Rec.w r 2 9 0 + 1,
    bLoc := Rec.w r 3 63 62, bFmt := Rec.w r 3 61 59, bAxis := Rec.w r 3 58 58, bOff := 64 * Rec.w r 3 57 42,
    bScale := Rec.w r 3 41 26, bBs := 32 * Rec.w r 3 25 10, nEt := Rec.w r 3 9 0 + 1,
    oLoc := Rec.w r 4 63 62, oOff := 64 * Rec.w r 4 61 46, oScale := Rec.w r 4 45 30, oBs := 32 * Rec.w r 4 29 14,
    semWait := Rec.w r 4 13 6, bcast := Rec.w r 4 5 4 }

/-- A cast-control descriptor (Tables 4.3 to 4.5). -/
structure Ck where
  op : Nat
  form : Nat
  layer : Nat
  mb : Nat
  tf : Nat
  tl : Nat
  semDone : Nat
  barCh : Nat
  barEn : Bool
  /-- len_64 of open and pop-to, reserve_pages of plan-reserve, f8_len_64 of plan-layer. -/
  len : Nat
  h16Len : Nat
  mbCount : Nat
  kind : Nat
  metaOff : Nat
  tabOff : Nat
  o2Off : Nat
  metaScale : Nat
  aScale : Nat
  o2BsOff : Nat
  deriving DecidableEq, Repr

def ckOf (r : Rec) : Ck :=
  { op := Rec.w r 0 63 60, form := Rec.w r 0 59 58, layer := Rec.w r 0 57 50, mb := Rec.w r 0 49 42, tf := Rec.w r 0 41 34,
    tl := Rec.w r 0 33 26, semDone := Rec.w r 0 25 18, barCh := Rec.w r 0 17 12, barEn := Rec.w r 0 11 11 == 1,
    len := Rec.w r 1 63 40, h16Len := Rec.w r 1 39 16, mbCount := Rec.w r 1 15 8, kind := Rec.w r 1 63 62,
    metaOff := Rec.w r 1 61 40, tabOff := Rec.w r 1 39 18, o2Off := Rec.w r 2 63 42, metaScale := Rec.w r 2 41 26,
    aScale := Rec.w r 2 25 10, o2BsOff := Rec.w r 3 63 42 }

/-- A sync descriptor (Table 6.3). -/
structure Sy where
  op : Nat
  form : Nat
  layer : Nat
  tf : Nat
  tl : Nat
  sem : Nat
  barCh : Nat
  value : Nat
  dstFirst : Nat
  dstLast : Nat
  deriving DecidableEq, Repr

def syOf (r : Rec) : Sy :=
  { op := Rec.w r 0 63 60, form := Rec.w r 0 59 58, layer := Rec.w r 0 57 50, tf := Rec.w r 0 49 42, tl := Rec.w r 0 41 34,
    sem := Rec.w r 0 33 26, barCh := Rec.w r 0 25 20, value := Rec.w r 0 19 4, dstFirst := Rec.w r 1 63 56,
    dstLast := Rec.w r 1 55 48 }

/-- The tile set of a record of a tile kind; a bar-arm has none (Table 6.3). -/
def tileSet (r : Rec) : Option (Nat × Nat) :=
  if Rec.kind r = 1 then some (Rec.w r 0 33 26, Rec.w r 0 25 18)
  else if Rec.kind r = 2 then some (Rec.w r 0 44 37, Rec.w r 0 36 29)
  else if Rec.kind r = 3 then some (Rec.w r 0 41 34, Rec.w r 0 33 26)
  else if Rec.kind r = 4 ∧ Rec.w r 0 63 60 ≠ 3 then some (Rec.w r 0 49 42, Rec.w r 0 41 34)
  else none

/-- Is the tile in the record's set? -/
def inSet (r : Rec) (t : Nat) : Bool :=
  match tileSet r with
  | some (a, b) => decide (a ≤ t ∧ t ≤ b)
  | none => false

/-- The form and layer fields of a record, where its kind has them (R73). -/
def formOf (r : Rec) : Nat × Nat :=
  if Rec.kind r = 1 then (Rec.w r 0 43 42, Rec.w r 0 41 34)
  else if Rec.kind r = 2 then (Rec.w r 0 54 53, Rec.w r 0 52 45)
  else if Rec.kind r = 3 then (Rec.w r 0 59 58, Rec.w r 0 57 50)
  else if Rec.kind r = 4 then (Rec.w r 0 59 58, Rec.w r 0 57 50)
  else if Rec.kind r = 5 then (Rec.w r 0 59 58, Rec.w r 0 57 50)
  else if Rec.kind r = 6 ∨ Rec.kind r = 8 then (Rec.w r 0 59 58, Rec.w r 0 57 50)
  else (0, 0)

/-- The semaphore a matrix or vector record waits on, if it waits. -/
def waitSem (r : Rec) : Option Nat :=
  if Rec.kind r = 1 then (if (mxOf r).waitEn then some (mxOf r).semWait else none)
  else if Rec.kind r = 2 then (if (vxOf r).waitEn then some (vxOf r).semWait else none)
  else none

/-- sem_done and the barrier channel of a completing record (kinds 1 to 3). -/
def doneSem (r : Rec) : Option Nat :=
  if Rec.kind r = 1 then some (mxOf r).semDone
  else if Rec.kind r = 2 then some (vxOf r).semDone
  else if Rec.kind r = 3 then some (ckOf r).semDone
  else none
def doneBar (r : Rec) : Option Nat :=
  if Rec.kind r = 1 then (if (mxOf r).barEn then some (mxOf r).barCh else none)
  else if Rec.kind r = 2 then (if (vxOf r).barEn then some (vxOf r).barCh else none)
  else if Rec.kind r = 3 then (if (ckOf r).barEn then some (ckOf r).barCh else none)
  else none

/-! ### Engine tiles -/

/-- Engine tiles of a vector record's full tensor, and its elements (R133). -/
def Vx.ets (d : Vx) : Nat := d.mEt * d.nEt
def Vx.count (d : Vx) : Nat := if d.kind = 2 then 32 * d.ets else 1024 * d.ets

/-- Bytes of one engine tile (Table 3.3). -/
def etBytes (f : Fmt) : Nat :=
  match f with
  | .f8 | .g8 | .a8 | .e8 => 1024
  | .h16 | .g16 => 2048
  | .q4 => 512
  | .w2 => 256
  | .t1 => 224

/-- Engine tiles in a tile page of a region (Table 3.3). -/
def etsPerPage (f : Fmt) : Nat := 65536 / etBytes f

/-- Byte of a region at which engine tile `et` of a tensor begins: pages hold whole engine tiles (R68, R231, Table 3.3). -/
def regionEt (f : Fmt) (et : Nat) : Nat := 65536 * (et / etsPerPage f) + etBytes f * (et % etsPerPage f)

/-- Engine tiles that lie wholly below byte `b` of a region. -/
def etsBelow (f : Fmt) (b : Nat) : Nat := etsPerPage f * (b / 65536) + min (etsPerPage f) (b % 65536 / etBytes f)

/-- First byte and length of element `c` of line `r` of engine tile `et`, from the tensor's offset (R36, R67). -/
def elemBytes (f : Fmt) (et r c : Nat) : Nat × Nat :=
  let o := et * etBytes f
  match f with
  | .f8 | .g8 | .a8 | .e8 => (o + 32 * ((r + c) % 32) + r, 1)
  | .h16 | .g16 => (o + 64 * ((r + c) % 32) + 2 * r, 2)
  | .q4 => (o + 16 * r + c / 2, 1)
  | .w2 => (o + 8 * r + c / 4, 1)
  | .t1 => (o + 7 * r + c / 5, 1)

/-- Bytes of the scale region of `n` engine tiles (R68). -/
def scaleBytes (f : Fmt) (n : Nat) : Nat := if f.isBlock then 32 * n else 0

/-- The code of element `c` of line `r` of engine tile `et`, reading bytes through `rd` (R36, R67). -/
def etCode (f : Fmt) (rd : Nat → Nat) (et r c : Nat) : Nat :=
  let o := et * etBytes f
  match f with
  | .f8 | .g8 | .a8 | .e8 => rd (o + 32 * ((r + c) % 32) + r)
  | .h16 | .g16 => let p := o + 64 * ((r + c) % 32) + 2 * r; rd p + 256 * rd (p + 1)
  | .q4 => rd (o + 16 * r + c / 2) / 16 ^ (c % 2) % 16
  | .w2 => rd (o + 8 * r + c / 4) / 4 ^ (c % 4) % 4
  | .t1 => rd (o + 7 * r + c / 5) / 3 ^ (c % 5) % 3

/-- Is line `r` of engine tile `et` a T1 NaN block (R37)? -/
def lineBad (f : Fmt) (rd : Nat → Nat) (et r : Nat) : Bool :=
  f == .t1 && (List.range 7).any fun i => decide (242 < rd (et * 224 + 7 * r + i))

/-- Element `c` of line `r` of engine tile `et` times its block scale, exactly (R38); NaN blocks and codes are NaN. -/
def etVal (f : Fmt) (rd sc : Nat → Nat) (et r c : Nat) : Val :=
  if lineBad f rd et r then .nan
  else
    let v := decodeCode f (etCode f rd et r c)
    if f.isBlock then
      let e := sc (32 * et + r)
      if e = 255 then .nan else v.map fun x => x.scale ((e : Int) - 127)
    else v

/-- Engine tile, line and element of matrix position (row, col) in a tensor of `cols` columns (R67); `rowScale` says that the scale
axis runs along the rows. -/
def etPos (rowScale : Bool) (cols row col : Nat) : Nat × Nat × Nat :=
  let et := row / 32 * (cols / 32) + col / 32
  if rowScale then (et, col % 32, row % 32) else (et, row % 32, col % 32)

/-- The tensor scale a descriptor carries: a G16 value that must be positive and finite (R40), NaN otherwise (R124). -/
def tensorScale (code : Nat) : Val :=
  match decodeFloat .g16 code with
  | .nan => .nan
  | .fin x => if 0 < x.n then .fin x else .nan

/-- Position (row, col) of an engine-tile tensor times its tensor scale (R38, R124). -/
def tensorVal (f : Fmt) (rowScale : Bool) (cols : Nat) (rd sc : Nat → Nat) (scale : Val) (row col : Nat) : Val :=
  let (et, r, c) := etPos rowScale cols row col
  (etVal f rd sc et r c).map₂ Ex.mul scale

/-! ### Places operands are read from -/

def State.scratchByte (s : State) (t a : Nat) : Nat := (s.tile.scratch.get 0 (t * 2 ^ 21 + a)).toNat

/-- The stack of a tile, top cast first, and the base of its top cast. -/
def State.casts (s : State) (t : Nat) : List CastEnt := s.tile.stack.get [] t
def State.castBase (s : State) (t : Nat) : Nat := ((s.casts t).head?.map CastEnt.base).getD 0
def State.castByte (s : State) (t a : Nat) : Nat := (s.tile.castMem.get 0 (t * 2 ^ 41 + a)).toNat

def State.ring (s : State) (t r : Nat) : Ring := s.tile.rings.get Ring.off (4 * t + r)
def Ring.size (r : Ring) : Nat := 65536 * r.pages

/-- Ring number and byte offset of a loc 2 offset field (R247). -/
def ringOf (off : Nat) : Nat := off / 2 ^ 20 % 4
def ringOff (off : Nat) : Nat := 2 * (off % 2 ^ 20)

/-- Byte `i` of an operand with location `loc` and offset field `off` in tile `t`: scratchpad, top cast, or staging ring with
wrap-around (R100, R247). -/
def State.opByte (s : State) (t loc off i : Nat) : Nat :=
  match loc with
  | 0 => s.scratchByte t (off + i)
  | 1 => s.castByte t (s.castBase t + off + i)
  | _ =>
    let g := s.ring t (ringOf off)
    s.scratchByte t (65536 * g.base + (ringOff off + i) % g.size)

/-- Index `i` of a gather's or scatter's index stream (R145). -/
def State.indexAt (s : State) (d : Vx) (t i : Nat) : Nat :=
  let n := if d.bFmt = 0 then 2 else 4
  (List.range n).foldl (fun a k => a + 256 ^ k * s.opByte t d.bLoc d.bOff (n * i + k)) 0

/-- Byte ranges, from the base of a top cast, that element number `n` of stream A reads there: code and block scale. -/
def Vx.elemRanges (d : Vx) (n : Nat) : List (Nat × Nat) :=
  match fmtOf d.aFmt with
  | none => []
  | some f =>
    let cols := 32 * d.nEt
    let (et, r, c) := etPos (d.aAxis == 1) cols (n / cols) (n % cols)
    let (o, k) := elemBytes f et r c
    (d.aOff + o, k) :: (if f.isBlock then [(d.aBs + 32 * et + r, 1)] else [])

/-- Byte ranges, from the base of tile `u`'s top cast, that a gather of index kind 1 in tile `t` reads there. -/
def State.gatherRanges (s : State) (d : Vx) (t u : Nat) : List (Nat × Nat) :=
  ((((List.range d.count).map (s.indexAt d t)).filter fun i => i / 2 ^ 24 == u && decide (i % 2 ^ 24 < d.count)).eraseDups).flatMap fun i =>
    d.elemRanges (i % 2 ^ 24)

/-! ### Writing tensors -/

/-- Set byte `a` of tile `t`'s scratchpad, or of its cast stack at stack address `a`. -/
def State.putByte (s : State) (t : Nat) (cast : Bool) (a v : Nat) : State :=
  if cast then { s with tile := { s.tile with castMem := s.tile.castMem.set 0 (t * 2 ^ 41 + a) (BitVec.ofNat 8 v) } }
  else { s with tile := { s.tile with scratch := s.tile.scratch.set 0 (t * 2 ^ 21 + a) (BitVec.ofNat 8 v) } }

/-- Write a list of (address, byte) pairs. -/
def State.putBytes (s : State) (t : Nat) (cast : Bool) (l : List (Nat × Nat)) : State :=
  l.foldl (fun s p => s.putByte t cast p.1 p.2) s

/-- The bytes that hold the codes of one line of an engine tile at byte offset `o` (R36, R67). -/
def lineBytes (f : Fmt) (o r : Nat) (codes : List Nat) : List (Nat × Nat) :=
  match f with
  | .f8 | .g8 | .a8 | .e8 => codes.zipIdx.map fun (v, c) => (o + 32 * ((r + c) % 32) + r, v)
  | .h16 | .g16 => codes.zipIdx.flatMap fun (v, c) =>
      let p := o + 64 * ((r + c) % 32) + 2 * r; [(p, v % 256), (p + 1, v / 256)]
  | .q4 => (packSub .q4 codes).zipIdx.map fun (v, i) => (o + 16 * r + i, v)
  | .w2 => (packSub .w2 codes).zipIdx.map fun (v, i) => (o + 8 * r + i, v)
  | .t1 => (packT1 codes).zipIdx.map fun (v, i) => (o + 7 * r + i, v)

/-- Convert one line of values into an output format: codes, scale code for a block format, counting classes (R41, R42). -/
def convLine (f : Fmt) (scale : Val) (xs : List OutVal) : List Nat × Option Nat × List Cls :=
  if f.isBlock then
    let (e, cs) := convBlock f scale xs
    (cs.map Prod.fst, some e, cs.map Prod.snd)
  else
    let cs := xs.map (convScalar f scale)
    (cs.map Prod.fst, none, cs.map Prod.snd)

end Sys2Proof.Machine
end

