-- ==== Sys2Proof/Machine/Regions.lean ====
section
/-! DEFINITION. Reading and writing the regions of the memory tiers (R231, R239, R241, R261): a record that touches a moving page
waits, a discarded page is refetched first, and a unit marked uncorrectable gives its reader a status and no data. -/
namespace Sys2Proof.Machine

def State.region (s : State) (h : Nat) : Option Region := s.tier.regions.find h

def State.setRegion (s : State) (h : Nat) (r : Region) : State :=
  { s with tier := { s.tier with regions := s.tier.regions.insert h r } }

def Region.page (r : Region) (p : Nat) : RPage := r.pages.get r.fresh p

def Region.setPage (r : Region) (p : Nat) (x : RPage) : Region := { r with pages := r.pages.set r.fresh p x }

/-- Change one page of a region; nothing happens where the handle names none. -/
def State.updPage (s : State) (h p : Nat) (f : RPage → RPage) : State :=
  match s.region h with
  | none => s
  | some r => s.setRegion h (r.setPage p (f (r.page p)))

/-- Address of byte `b` of a region in the tier memory. -/
def regionAddr (h b : Nat) : Nat := h * 2 ^ 42 + b

/-- Is the 64-byte unit that holds byte `b` marked uncorrectable (R261)? -/
def Region.badAt (r : Region) (b : Nat) : Bool := (r.page (b / 65536)).bad.contains (b % 65536 / 64)

/-- Byte `b` of a region; a unit marked uncorrectable returns a free value. -/
def State.regionByte (s : State) (h b : Nat) : Byte :=
  match s.region h with
  | none => 0
  | some r => if r.badAt b then Config.lostByte (regionAddr h b) else s.tier.mem.get 0 (regionAddr h b)

def State.regionBytes (s : State) (h b n : Nat) : Bytes := (List.range n).map fun i => s.regionByte h (b + i)

/-- Touch stamp of the present: drone ticks in units of 2^20 (R236). -/
def State.stampNow (s : State) : Nat := s.now / 2 ^ 20 % 2 ^ 32

/-- Write bytes into a region: the pages' stamps are set, and a unit that is rewritten is good again. -/
def State.regionWrite (s : State) (h b : Nat) (bs : Bytes) : State :=
  let s := { s with tier := { s.tier with mem := memWrite s.tier.mem (regionAddr h b) bs } }
  if bs.isEmpty then s
  else (List.range ((b + bs.length - 1) / 65536 - b / 65536 + 1)).foldl (fun s i =>
    let p := b / 65536 + i
    s.updPage h p fun x => { x with
      stamp := s.stampNow
      bad := x.bad.filter fun u => !(decide (b < 65536 * p + 64 * u + 64) && decide (65536 * p + 64 * u < b + bs.length)) }) s

/-- Pages that `n` bytes from byte `b` touch. -/
def pagesOf (b n : Nat) : List Nat := if n = 0 then [] else (List.range ((b + n - 1) / 65536 - b / 65536 + 1)).map (b / 65536 + ·)

/-- How a read or write of a page can go. -/
inductive Access where
  | ready | waiting
  deriving DecidableEq, Repr

/-- A record waits for pages from now on, or goes on waiting, for others than before. -/
def State.beginPageWait (s : State) (key n h : Nat) (ps : List Nat) : State :=
  let start := ((s.tier.waits.find key).map PageWait.start).getD s.now
  { s with tier := { s.tier with waits := s.tier.waits.insert key { start := start, h := h, pages := ps, tiles := n } } }

/-- A record's wait is over: its tile cycles count (R239, R241). -/
def State.endPageWait (s : State) (key : Nat) : State :=
  match s.tier.waits.find key with
  | none => s
  | some x => { s with tier := { s.tier with waits := s.tier.waits.erase key } }.count Obj.tmWaitCycles (s.cyclesSince x.start * x.tiles)

/-- A read or write of pages completes: their stamps are set (R236). -/
def State.touch (s : State) (h : Nat) (ps : List Nat) : State := ps.foldl (fun s p => s.updPage h p fun x => { x with stamp := s.stampNow }) s

/-- Pages that cannot be read or written now: moving, or discarded. -/
def Region.busy (r : Region) (ps : List Nat) : List Nat := ps.filter fun p => (r.page p).move.isSome || (r.page p).home == .gone

/-- Ask for pages of a region for record `key`, which gates `n` tiles while it waits: a moving page is waited for (R239), a discarded one is
refetched and waited for (R241); once all are ready their stamps are set (R236). -/
def State.access (s : State) (key n h : Nat) (ps : List Nat) : State × Access :=
  match s.region h with
  | none => (s, .ready)
  | some r =>
    let busy := r.busy ps
    if busy.isEmpty then ((s.touch h ps).endPageWait key, .ready)
    else ((busy.foldl (fun s p => if (r.page p).home = .gone then s.updPage h p fun x => { x with refetch := true } else s) s).beginPageWait key n h busy,
      .waiting)

/-- Are all of the pages at hand, each with the handle of its region (R239)? -/
def State.atHand (s : State) (ps : List (Nat × Nat)) : Bool := ps.all fun x => match s.region x.1 with
  | some r => (r.busy [x.2]).isEmpty
  | none => true

/-- A record that writes pages as their bytes come waits while one of them is moving; the Bool says that it can write. -/
def State.writable (s : State) (key : Nat) (ps : List (Nat × Nat)) : State × Bool :=
  match ps.find? fun x => !s.atHand [x] with
  | none => (s.endPageWait key, true)
  | some (h, p) => (s.beginPageWait key 1 h [p], false)

/-- Does a read of `n` bytes from byte `b` hit a marked unit? -/
def State.hitsBad (s : State) (h b n : Nat) : Bool :=
  match s.region h with
  | none => false
  | some r => (pagesOf b n).any fun p => (r.page p).bad.any fun u =>
      decide (b < 65536 * p + 64 * u + 64 ∧ 65536 * p + 64 * u < b + n)

/-- A record's read hit a marked unit of a region: it will complete with status bank-uncorrectable, and in a table or general region
its window halts (R261, Table 9.6). -/
def State.hitStatus (s : State) (w q h : Nat) : State :=
  let s := s.updEntry w q fun e => { e with status := if e.status = 0 then 0x12 else e.status }
  match s.region h with
  | some r => if (r.cls = 6 ∨ r.cls = 7) ∧ (s.win w).state ≠ .halted then s.haltWin w 0xA1 0x1200 else s
  | none => s

end Sys2Proof.Machine
end

