-- ==== Sys2Proof/Machine/Samples.lean ====
section
/-! DEFINITION. What an ingest record says and where its sample lies: the ingest descriptor (Table 10.8), the keyed shuffle (R283), sample
entries (R282) and the sizes a profile gives an output (R291, R293). -/
namespace Sys2Proof.Machine

/-- Arithmetic on u64. -/
def m64 (n : Nat) : Nat := n % 2 ^ 64

/-- `mix` of R215. -/
def mix (z : Nat) : Nat :=
  let z := m64 (z + 0x9E3779B97F4A7C15)
  let z := m64 ((z ^^^ (z >>> 30)) * 0xBF58476D1CE4E5B9)
  let z := m64 ((z ^^^ (z >>> 27)) * 0x94D049BB133111EB)
  z ^^^ (z >>> 31)

/-! ### The keyed shuffle (R283) -/

def feistelRounds (h k : Nat) : Nat → Nat × Nat → Nat × Nat
  | 0, x => x
  | n + 1, (l, r) =>
    let j := 5 - n
    let f := mix (k ^^^ (j <<< 40) ^^^ r) >>> (64 - h)
    feistelRounds h k n (r, l ^^^ f)

def feistel (y h k : Nat) : Nat :=
  let (l, r) := feistelRounds h k 6 (y >>> h, y % 2 ^ h)
  l * 2 ^ h + r

/-- Walk the cycle until the index is below `n`; 4^h rounds reach every value of it. -/
def cycleWalk (h k n : Nat) : Nat → Nat → Nat
  | 0, y => y
  | m + 1, y => let z := feistel y h k; if z < n then z else cycleWalk h k n m z

def halfWidth (n : Nat) : Nat := ((List.range 16).map (· + 1)).find? (fun h => decide (n ≤ 4 ^ h)) |>.getD 16

def sampleOf (p n seed : Nat) : Nat :=
  if n ≤ 1 then 0
  else
    let h := halfWidth n
    let k := mix (mix (seed ^^^ 0x73687566666C6531) ^^^ (p / n))
    cycleWalk h k n (4 ^ h) (p % n)

/-! ### Sample entries (Table 10.3) -/

structure SampleEntry where
  offset : Nat
  length : Nat
  crc : Nat
  zone : Nat
  codec : Nat
  container : Nat
  pid : Nat
  frames : Nat
  matrix : Nat
  range : Nat
  deriving DecidableEq, Repr

/-- Entry `i` of a table. -/
def State.sampleEntry (s : State) (h i : Nat) : SampleEntry :=
  let b := s.regionBytes h (32 * i) 32
  let f (o n : Nat) : Nat := unle ((b.drop o).take n)
  { offset := f 0 8, length := f 8 4, crc := f 12 4, zone := f 16 1, codec := f 17 1 % 16, container := f 17 1 / 16, pid := f 18 2,
    frames := f 20 2, matrix := f 22 1, range := f 23 1 }

/-! ### Sizes of an output (R291, R293) -/

def Profile.chans (p : Profile) : Nat := if p.chan = 0 then 1 else 3
def Profile.tokens (p : Profile) : Nat := p.frames / p.pt * (p.cropH / p.ph) * (p.cropW / p.pw)
def Profile.elems (p : Profile) : Nat := p.pt * p.ph * p.pw * p.chans
/-- E padded to a multiple of 32. -/
def Profile.padded (p : Profile) : Nat := ceilDiv p.elems 32 * 32
def Profile.fmt (p : Profile) : Fmt := (fmtOf p.outFmt).getD .f8
/-- Bytes of `t` tokens: codes, then for F8 the scales from the next multiple of 64 bytes. -/
def Profile.bytes (p : Profile) (t : Nat) : Nat :=
  let n := t / 32 * (p.padded / 32)
  n * etBytes p.fmt + scaleBytes p.fmt n

/-! ### The descriptor (Table 10.8) -/

/-- An ingest descriptor (Table 10.8); offsets in bytes. -/
structure In where
  op : Nat
  form : Nat
  layer : Nat
  prof : Nat
  dest : Nat
  errPol : Nat
  zone : Nat
  tf : Nat
  tl : Nat
  semDone : Nat
  barCh : Nat
  barEn : Bool
  /-- position, or host_addr of append. -/
  position : Nat
  n : Nat
  tableH : Nat
  workH : Nat
  engPages : Nat
  rows : Nat
  outH : Nat
  outOff : Nat
  /-- src_h of sample, dst_h of fetch. -/
  srcH : Nat
  srcOff : Nat
  imgH : Nat
  pf : Profile
  deriving DecidableEq, Repr

def inOf (r : Rec) : In :=
  { op := Rec.w r 0 63 60, form := Rec.w r 0 59 58, layer := Rec.w r 0 57 50, prof := Rec.w r 0 49 46, dest := Rec.w r 0 45 44,
    errPol := Rec.w r 0 43 42, zone := Rec.w r 0 41 40, tf := Rec.w r 0 39 32, tl := Rec.w r 0 31 24, semDone := Rec.w r 0 23 16,
    barCh := Rec.w r 0 15 10, barEn := Rec.w r 0 9 9 == 1, position := Rec.w r 1 63 0, n := Rec.w r 2 63 32, tableH := Rec.w r 2 31 16,
    workH := Rec.w r 2 63 32, engPages := Rec.w r 2 31 0, rows := (Rec.w r 2 63 32 + 30) / 31, outH := Rec.w r 3 63 32,
    outOff := 64 * Rec.w r 3 31 0, srcH := Rec.w r 4 63 32, srcOff := 64 * Rec.w r 4 31 0, imgH := Rec.w r 3 63 32,
    pf := { scaledW := Rec.w r 1 63 48, scaledH := Rec.w r 1 47 32, cropX := Rec.w r 1 31 16, cropY := Rec.w r 1 15 0,
            cropW := Rec.w r 2 63 48, cropH := Rec.w r 2 47 32, pw := Rec.w r 2 31 26, ph := Rec.w r 2 25 20, pt := Rec.w r 2 19 16,
            frames := Rec.w r 2 15 6, fstep := Rec.w r 2 5 3, chan := Rec.w r 2 2 0,
            mean := [Rec.w r 3 63 48, Rec.w r 3 47 32, Rec.w r 3 31 16], oScale := Rec.w r 3 15 0,
            istd := [Rec.w r 4 63 48, Rec.w r 4 47 32, Rec.w r 4 31 16], outFmt := Rec.w r 4 15 12, mtx := Rec.w r 4 11 10 } }

end Sys2Proof.Machine
end

