-- ==== Sys2Proof/Machine/Decoders.lean ====
section
/-! DEFINITION. What the decode engines take from a sample and refuse (R284 to R288, R290): the payload of a transport stream, random access
points, the supported bitstreams, the source matrix and range, the pictures that are output, and the work space. Start codes, packet and
unit headers are those of the standards that Table 10.4 names (PRESUMED, log entry 40). -/
namespace Sys2Proof.Machine

/-! ### Transport streams (R287) -/

/-- Is a packet one of a PID? -/
def tsOf (pid : Nat) (b : Bytes) : Bool := ((b.getD 1 0).toNat % 32) * 256 + (b.getD 2 0).toNat == pid

/-- Does a transport stream break one of the rules of R287 on the sample's PID? `prev` is the last continuity counter seen there. -/
def tsBad (pid : Nat) : Nat → Option Nat → Bytes → Bool
  | 0, _, _ => false
  | n + 1, prev, b =>
    if b.length < 188 then false
    else
      let x (i : Nat) : Nat := (b.getD i 0).toNat
      let rest := b.drop 188
      if ¬ tsOf pid b then tsBad pid n prev rest
      else
        let cc := x 3 % 16
        let payload := x 3 / 16 % 2 = 1
        let follows : Bool := match prev with
          | none => true
          | some p => if payload then cc == (p + 1) % 16 || cc == p else cc == p
        if x 0 ≠ 0x47 ∨ 128 ≤ x 1 ∨ 64 ≤ x 3 ∨ ¬ follows then true else tsBad pid n (some cc) rest

/-- The PES payload of a PID, packet after packet: adaptation fields, PES headers, duplicates and other PIDs are left out. -/
def tsPayload (pid : Nat) : Nat → Option Nat → Bytes → Bytes
  | 0, _, _ => []
  | n + 1, prev, b =>
    if b.length < 188 then []
    else
      let x (i : Nat) : Nat := (b.getD i 0).toNat
      let rest := b.drop 188
      if ¬ tsOf pid b then tsPayload pid n prev rest
      else
        let cc := x 3 % 16
        let has := x 3 / 16 % 2 = 1
        let body := if has ∧ prev ≠ some cc then (b.take 188).drop (4 + (if x 3 / 32 % 2 = 1 then 1 + x 4 else 0)) else []
        let body := if x 1 / 64 % 2 = 1 then body.drop (9 + (body.getD 8 0).toNat) else body
        body ++ tsPayload pid n (some cc) rest

/-- The elementary stream of a sample. -/
def SampleEntry.stream (e : SampleEntry) (bs : Bytes) : Config.Stream :=
  { codec := e.codec, bytes := if e.container = 1 then tsPayload e.pid bs.length none bs else bs }

/-! ### Random access points (R286) -/

/-- What follows each start code 00 00 01 of a stream, in order. -/
def startCodes : Bytes → List Bytes
  | [] => []
  | a :: r =>
    match r with
    | b :: c :: t => if a = 0 ∧ b = 0 ∧ c = 1 then t :: startCodes r else startCodes r
    | _ => []

/-- MPEG-2: a sequence header, a GOP header and an I picture, with extensions and user data between. -/
def mpegStarts (b : Bytes) : Bool :=
  match (startCodes b).filter fun u => u.head? != some 0xB5 && u.head? != some 0xB2 with
  | q :: g :: p :: _ => q.head? == some 0xB3 && g.head? == some 0xB8 && p.head? == some 0x00 && (p.getD 2 0).toNat / 8 % 8 == 1
  | _ => false

/-- AVC and HEVC: is the first coded slice one of a random access point? The functions give a unit's type and say which types are slices, and
which of those are of a random access point. -/
def nalStarts (ty : Nat → Nat) (slice point : Nat → Bool) (b : Bytes) : Bool :=
  match ((startCodes b).map fun u => ty (u.getD 0 0).toNat).find? slice with
  | some k => point k
  | none => false

/-- A number in leb128, and the bytes behind it. -/
def leb128 : Nat → Bytes → Nat × Bytes
  | 0, b => (0, b)
  | n + 1, b =>
    let x := (b.getD 0 0).toNat
    if x < 128 then (x, b.drop 1)
    else
      let (v, r) := leb128 n (b.drop 1)
      (x % 128 + 128 * v, r)

/-- The units of an AV1 stream: type and payload of each. -/
def obus : Nat → Bytes → List (Nat × Bytes)
  | 0, _ => []
  | n + 1, b =>
    match b with
    | [] => []
    | h :: r =>
      let x := h.toNat
      let r := if x / 4 % 2 = 1 then r.drop 1 else r
      let (size, r) := if x / 2 % 2 = 1 then leb128 8 r else (r.length, r)
      (x / 8 % 16, r.take size) :: obus n (r.drop size)

/-- AV1: the first temporal unit has a sequence header before its first frame, and that is a key frame, shown. -/
def av1Starts (b : Bytes) : Bool :=
  match (obus b.length b).find? (fun u => u.1 == 1 || u.1 == 3 || u.1 == 6), (obus b.length b).find? fun u => u.1 == 3 || u.1 == 6 with
  | some (1, q), some (_, f) => (q.getD 0 0).toNat / 8 % 2 == 1 || (f.getD 0 0).toNat / 16 == 1
  | _, _ => false

/-- Does a stream begin at a random access point of its codec (R286)? -/
def streamStarts (x : Config.Stream) : Bool :=
  match x.codec with
  | 0 => mpegStarts x.bytes
  | 1 => nalStarts (· % 32) (fun k => decide (1 ≤ k ∧ k ≤ 5)) (· == 5) x.bytes
  | 2 => nalStarts (· / 2 % 64) (fun k => decide (k ≤ 31)) (fun k => decide (16 ≤ k ∧ k ≤ 23)) x.bytes
  | _ => av1Starts x.bytes

/-! ### Supported bitstreams (Table 10.4) -/

/-- Is a stream outside its row of Table 10.4? -/
def unsupported (codec : Nat) (d : Config.DecInfo) : Bool :=
  let small : Bool := if codec = 0 then decide (d.cropW ≤ 1920 ∧ d.cropH ≤ 1088) else decide (d.cropW ≤ 4096 ∧ d.cropH ≤ 2304)
  let deep : Bool := d.depth == 8 || d.depth == 10
  d.tools || !small ||
  (match codec with
    | 0 => decide (2 < d.profile ∨ 3 < d.level) || d.depth != 8 || !(d.chroma == 1 || (d.chroma == 2 && d.profile == 2))
    | 1 => decide (4 < d.profile ∨ 51 < d.level) || !deep || decide (2 < d.chroma) || (d.chroma == 2 && d.profile != 4) ||
        (d.depth == 10 && decide (d.profile < 3)) || (d.chroma == 0 && decide (d.profile < 2))
    | 2 => decide (2 < d.profile ∨ 51 < d.level) || !deep || !(d.chroma == 1 || (d.chroma == 2 && d.profile == 2)) ||
        (d.depth == 10 && d.profile == 0)
    | _ => decide (0 < d.profile ∨ 51 < d.level) || !deep || decide (1 < d.chroma))

/-! ### Matrix and range (R288) -/

/-- The source matrix (R288): 0 BT.601, 1 BT.709, 2 BT.2020; none for any other. -/
def sourceMatrix (e : SampleEntry) (d : Config.DecInfo) : Option Nat :=
  if e.matrix ≠ 0 then some (e.matrix - 1)
  else match d.matrix with
    | some 1 => some 1
    | some 5 => some 0
    | some 6 => some 0
    | some 9 => some 2
    | some 2 => some (if d.cropH ≤ 576 then 0 else 1)
    | none => some (if d.cropH ≤ 576 then 0 else 1)
    | some _ => none

/-- Is the source full range (R288)? MPEG-2 is always limited range. -/
def sourceFull (e : SampleEntry) (d : Config.DecInfo) : Bool :=
  if e.codec = 0 then false else if e.range ≠ 0 then e.range == 2 else d.full

/-! ### Work space (R290) -/

/-- Pages of work space a sample needs (R290). -/
def workPages (e : SampleEntry) (d : Config.DecInfo) : Nat :=
  let twoC := if d.chroma = 1 then 3 else if d.chroma = 2 then 4 else 2
  let f := ceilDiv d.cropW 64 * 64 * (ceilDiv d.cropH 64 * 64) * twoC * (if d.depth = 10 then 2 else 1) / 2
  let n := if e.codec = 0 then 2 else if e.codec = 3 then 8 else d.buffers
  (n + 2) * ceilDiv f 65536

/-! ### Output frames (R285, R286) -/

/-- The coded frames that are output, in order: leading pictures that reference data before the random access point never are (R286). -/
def outputs (x : Config.Stream) : List Nat := (List.range (Config.decInfo x).coded).filter fun i => !Config.frameIs x i 0

/-- Sample (i, j) of plane `q` of output frame `f`: fields are woven, the top field on even lines, and the cropping window applies (R285). -/
def pictureAt (x : Config.Stream) (f q i j : Nat) : Nat :=
  let d := Config.decInfo x
  let n := (outputs x).getD f 0
  let half := q ≠ 0 ∧ d.chroma ≠ 3
  let col := i + (if half then d.cropX / 2 else d.cropX)
  let row := j + (if half ∧ d.chroma = 1 then d.cropY / 2 else d.cropY)
  (if Config.frameIs x n 1 then Config.sample x n (row % 2) q col (row / 2) else Config.sample x n 0 q col row) % 2 ^ d.depth

/-! ### What decoding meets first (Table 10.7) -/

/-- Output frames a profile needs. -/
def Profile.need (p : Profile) : Nat := (p.frames - 1) * p.fstep + 1

/-- The first failure of Table 10.7 that decoding a sample's bytes meets, 0 if none. -/
def decodeCause (e : SampleEntry) (p : Profile) (engPages : Nat) (bs : Bytes) : Nat :=
  let x := e.stream bs
  let d := Config.decInfo x
  if 3 < e.codec ∨ 1 < e.container ∨ 3 < e.matrix ∨ 2 < e.range ∨ (e.codec = 3 ∧ e.container = 1) then 0xE4
  else if e.container = 1 ∧ tsBad e.pid bs.length none bs then 0xE7
  else if ¬ streamStarts x then 0xE3
  else if unsupported e.codec d ∨ (sourceMatrix e d).isNone then 0xE4
  else if d.broken then 0xE3
  else if engPages < workPages e d then 0xE6
  else if (outputs x).length < p.need ∨ 4 * d.cropW < p.scaledW ∨ 4 * d.cropH < p.scaledH then 0xE5
  else 0

end Sys2Proof.Machine
end

