-- ==== Sys2Proof/Machine/Access.lean ====
section
/-! DEFINITION. Writes that reach an object (R408, R411, R423): the checks every write shares, and how a single action write is
answered. -/
namespace Sys2Proof.Machine

/-- Is a port without the active link stream that ide_required asks for (R461)? -/
def State.ideBlocked (s : State) (p : HostPort) : Bool := s.rd Obj.ideRequired == 1 && s.rd (Obj.ideState (portNo p)) != 2

/-- Is the write denied to its source (R423, R461)? -/
def State.fldDenied (s : State) (src : Src) (key : Nat) : Bool :=
  match src with
  | .fld _ => s.rd Obj.fldWrites == 0 || key == Obj.fldWrites
  | .mctp p _ => s.ideBlocked p

/-- Is the source a host port that owns window `w` (the owner-only actions of Table 7.12)? -/
def State.isOwner (s : State) (src : Src) (w : Nat) : Bool := srcPort src != none && srcPort src == (s.win w).owner

/-- Is the module in the vendor test state (R439, R462)? -/
def State.vendorTest (s : State) : Bool := s.rd Obj.moduleState == 3

/-- The status of a write of `v` to an object, in the order of Table 15.4, its type apart: `deny` says that the source may not
write it for another reason than R423, `cond` is the status of the checks from not-stopped onwards. -/
def State.writeStatus (s : State) (src : Src) (key v : Nat) (deny : Bool) (cond : Nat) : Nat :=
  match objRow (key / 256) (key % 256) with
  | none => if 0xF000 ≤ key / 256 ∧ ¬ s.vendorTest then 0x07 else 0x01
  | some r =>
    if r.acc = .ro then 0x03
    else if deny ∨ s.fldDenied src key then 0x0B
    else if ¬ r.rng.ok v then 0x05
    else cond

/-- A write of one action: applied where its checks pass, counted in dict_rejected where not, and answered with its status (R411,
R421). -/
def State.act (s : State) (src : Src) (key v : Nat) (deny : Bool) (cond : Nat) (f : State → State) : State :=
  let st := s.writeStatus src key v deny cond
  (if st = 0 then f s else s.count Obj.dictRejected 1).emit (.status src key st)

end Sys2Proof.Machine
end

