-- ==== Sys2Proof/Machine/Crossing.lean ====
section
/-! DEFINITION. Clock crossings (R391 to R393): dual-clock queues with Gray pointers, synchronisers and credits, and what passes through
them. Each command passes its entries whole: what it writes is read before it ends. -/
namespace Sys2Proof.Machine

/-! ### A dual-clock queue (R392) -/

/-- The Gray code of a pointer. -/
def gray (n : Nat) : Nat := n ^^^ (n >>> 1)

/-- The pointer a 5-bit Gray code stands for. -/
def ungray (g : Nat) : Nat := g ^^^ (g >>> 1) ^^^ (g >>> 2) ^^^ (g >>> 3) ^^^ (g >>> 4)

/-- The next pointer: one bit of the code changes. -/
def grayNext (g : Nat) : Nat := gray ((ungray g + 1) % 32)

/-- The sender writes an entry, if it holds a credit. -/
def Dcq.write (d : Dcq) (v : Nat) : Dcq :=
  if d.credits = 0 then d else { d with wr := grayNext d.wr, ents := d.ents ++ [v], credits := d.credits - 1 }

/-- A cycle of the receiving clock: the write pointer goes one flip-flop on. -/
def Dcq.rxClock (d : Dcq) : Dcq := { d with wrSync := d.wr :: d.wrSync.take 2 }

/-- Does the synchronised write pointer show an entry to read? -/
def Dcq.ready (d : Dcq) : Bool := d.wrSync.getD 2 0 != d.rd

/-- The receiver reads the oldest entry, if one is shown. -/
def Dcq.read (d : Dcq) : Dcq := if d.ready then { d with rd := grayNext d.rd, ents := d.ents.drop 1 } else d

/-- A cycle of the sending clock: the read pointer goes one flip-flop on, and the credits of the entries it shows as read return. -/
def Dcq.txClock (d : Dcq) : Dcq :=
  let seen := d.rd :: d.rdSync.take 2
  { d with rdSync := seen, credits := d.credits + (ungray (seen.getD 2 0) + 32 - ungray (d.rdSync.getD 2 0)) % 32 }

/-- One entry passes: it is readable after three cycles of the receiving clock, and its credit is back after three of the sending one
(R393). -/
def Dcq.pass (d : Dcq) (v : Nat) : Dcq := (d.write v).rxClock.rxClock.rxClock.read.txClock.txClock.txClock

/-- A flit passes the elastic queue of 64 of a link receiver, then its dual-clock queue. -/
def Dcq.passElastic (d : Dcq) (v : Nat) : Dcq :=
  let l := if d.elastic.length < 64 then d.elastic ++ [v] else d.elastic
  match l with
  | [] => d
  | x :: r => { d with elastic := r }.pass x

/-- Is the queue empty, every credit with the sender and both pointers seen on both sides? -/
def Dcq.atRest (d : Dcq) : Bool :=
  d.ents == [] && d.elastic == [] && d.credits == 16 && d.wr == d.rd && decide (ungray d.wr < 32 ∧ gray (ungray d.wr) = d.wr) &&
  d.wrSync == [d.wr, d.wr, d.wr] && d.rdSync == [d.rd, d.rd, d.rd]

/-! ### The crossings of Table 14.3 -/

/-- A crossing that is a dual-clock queue: between two regions, or a region and the spine, on the data (0), control (1) or barrier (2)
network; a bridge or an on-die crossing by its two ends; the flits of a port; Plinth and the standby domain. -/
inductive Crossing where
  | regions (a b net : Nat)
  | toSpine (r net : Nat)
  | fromSpine (r net : Nat)
  | spineLanes | lanesSpine | spineChannels | channelsSpine | spinePlinth | plinthSpine
  | lanesChannels | channelsLanes | chiselPlinth | plinthChisel
  | plinthStandby | standbyPlinth
  | linkRx (p : Nat)
  | linkTx (p : Nat)
  deriving DecidableEq, Repr

/-- The number of a crossing; those into or out of the array lie below 0x4000. -/
def Crossing.key : Crossing → Nat
  | .regions a b n => 0x1000 + 256 * n + 16 * a + b
  | .toSpine r n => 0x2000 + 16 * n + r
  | .fromSpine r n => 0x3000 + 16 * n + r
  | .spineLanes => 0x4000 | .lanesSpine => 0x4001 | .spineChannels => 0x4002 | .channelsSpine => 0x4003 | .spinePlinth => 0x4004
  | .plinthSpine => 0x4005 | .lanesChannels => 0x4006 | .channelsLanes => 0x4007 | .chiselPlinth => 0x4008 | .plinthChisel => 0x4009
  | .plinthStandby => 0x400A | .standbyPlinth => 0x400B
  | .linkRx p => 0x5000 + p
  | .linkTx p => 0x5010 + p

def arrayKey (k : Nat) : Bool := decide (k < 0x4000)

def State.queue (s : State) (k : Nat) : Dcq := s.cross.queues.get Dcq.reset k

/-- One entry passes a crossing; at a crossing of the array its sender's wait for a credit counts, a free value. -/
def State.pass (s : State) (c : Crossing) (v : Nat) : State :=
  let k := c.key
  let d := match c with
    | .linkRx _ => (s.queue k).passElastic v
    | _ => (s.queue k).pass v
  { s with cross := { s.cross with
      queues := s.cross.queues.set Dcq.reset k d
      stalls := if arrayKey k then (s.cross.stalls + Config.creditStalls s.cross.drawn) % 2 ^ 64 else s.cross.stalls
      drawn := if arrayKey k then s.cross.drawn + 1 else s.cross.drawn } }

/-- Leaving retention, every queue of the array starts empty with both pointers at zero (R393). -/
def State.freshArrayQueues (s : State) : State :=
  { s with cross := { s.cross with queues := s.cross.queues.filter fun x => !arrayKey x.1 } }

/-! ### Regions (R386) and the tile map (R63) -/

/-- Retired tiles of a physical row, as columns, in the order of the list. -/
def State.retiredIn (s : State) (row : Nat) : List Nat := (s.start.retired.filter fun x => x / 32 == row).map (· % 32)

/-- The physical column of a logical tile (R63). -/
def State.physCol (s : State) (t : Nat) : Nat :=
  let xr := (s.retiredIn (t / 16)).headD 16
  if t % 16 < xr then t % 16 else t % 16 + 1

/-- The clock region of a physical row and column (R386). -/
def regionAt (row col : Nat) : Nat := row / 4 * 4 + min 3 (col / 4)

/-- The clock region of a logical tile. -/
def State.regionOf (s : State) (t : Nat) : Nat := regionAt (t / 16) (s.physCol t)

/-- Numbers from `a` to `b`, up or down. -/
def stepsTo (a b : Nat) : List Nat := if a ≤ b then (List.range (b - a + 1)).map (a + ·) else ((List.range (a - b + 1)).map (b + ·)).reverse

/-- The regions a packet passes from a region to another: along the row, then along the column (R153). -/
def regionPath (a b : Nat) : List Nat :=
  ((stepsTo (a % 4) (b % 4)).map fun c => a / 4 * 4 + c) ++ ((stepsTo (a / 4) (b / 4)).drop 1).map fun r => 4 * r + b % 4

/-- A message passes from tile to tile over the crossings between the regions on its way. -/
def State.passTiles (s : State) (a b net v : Nat) : State :=
  let l := regionPath (s.regionOf a) (s.regionOf b)
  (l.zip (l.drop 1)).foldl (fun s x => s.pass (.regions x.1 x.2 net) v) s

/-- A message passes between the spine and the regions of some tiles, once for each region. -/
def State.passArray (s : State) (c : Nat → Crossing) (ts : List Nat) (v : Nat) : State :=
  (ts.map s.regionOf).eraseDups.foldl (fun s r => s.pass (c r) v) s

end Sys2Proof.Machine
end

