-- ==== Sys2Proof/Machine/Links.lean ====
section
/-! DEFINITION. Optical links (chapter 11): flits and their parity (R302 to R304), messages cut into flits (R306), credits (R307),
replay (R308 to R311), the pace sideband (R313), identity and the cabling plan (R316 to R321), port and power states (R322 to R324). -/
namespace Sys2Proof.Machine

/-! ### Flits (R302 to R305) -/

/-- Is the number of ones of the low `w` bits of `n` odd? -/
def oddOnes (w n : Nat) : Bool := (List.range w).foldl (fun b i => b != (n >>> i % 2 == 1)) false

/-- Word `i` of a flit. -/
def flitWord (f : Bytes) (i : Nat) : Nat := unle ((f.drop (8 * i)).take 8)

/-- Fields of a link word (Table 11.2). -/
structure LinkWord where
  ftype : Nat
  fseq : Nat
  ackSeq : Nat
  ackV : Bool
  nak : Bool
  vc : Nat
  deriving DecidableEq, Repr

def linkWord (f : Bytes) : LinkWord :=
  let w := flitWord f 31
  { ftype := w >>> 60 % 16, fseq := w >>> 48 % 4096, ackSeq := w >>> 36 % 4096, ackV := w >>> 35 % 2 == 1, nak := w >>> 34 % 2 == 1,
    vc := w >>> 33 % 2 }

/-- Is the flit intact (R303), with no uncorrectable codeword in it? An invalid type counts as not intact. -/
def flitIntact (f : Bytes) (unc : Nat) : Bool :=
  unc == 0 && f.length == 256 && !oddOnes 64 (flitWord f 31) && decide ((linkWord f).ftype ≤ 8) &&
  (List.range 31).all fun i => oddOnes 64 (flitWord f i) == (flitWord f 31 >>> i % 2 == 1)

/-- The bytes of a flit: content padded to 248 bytes, then the link word with its parities. -/
def flitBytes (l : LinkWord) (content : Bytes) : Bytes :=
  let c := content.take 248 ++ List.replicate (248 - content.length) 0
  let par := (List.range 31).foldl (fun a i => if oddOnes 64 (flitWord c i) then a + 2 ^ i else a) 0
  let w := l.ftype * 2 ^ 60 + l.fseq % 4096 * 2 ^ 48 + l.ackSeq % 4096 * 2 ^ 36 + (if l.ackV then 2 ^ 35 else 0) +
    (if l.nak then 2 ^ 34 else 0) + l.vc % 2 * 2 ^ 33 + par
  c ++ le 8 (if oddOnes 64 w then w + 2 ^ 31 else w)

/-! ### Ports -/

def State.port (s : State) (p : Nat) : Port := s.link.ports.get Port.reset p
def State.setPort (s : State) (p : Nat) (x : Port) : State :=
  { s with link := { s.link with ports := s.link.ports.set Port.reset p x } }
def State.updPort (s : State) (p : Nat) (f : Port → Port) : State := s.setPort p (f (s.port p))

/-- Port states (Table 11.11). -/
def psDown : Nat := 0
def psTraining : Nat := 1
def psIdentity : Nat := 2
def psUp : Nat := 3
def psHeld : Nat := 4
def psRetrain : Nat := 5
def psFailed : Nat := 6

def State.portIs (s : State) (p st : Nat) : Bool := s.rd (Obj.portState p) == st

/-- The plan as the settings stand (Table 11.13). -/
def State.planNow (s : State) : Plan :=
  { mode := s.rd Obj.planMode, module := s.rd Obj.planModule, pod := s.rd Obj.planPod, used := s.rd Obj.planPlanesUsed
    chassis := (List.range 16).map fun b => s.rd (Obj.planChassis (b + 1))
    switchPorts := (List.range 16).map fun b => s.rd (Obj.planSwitchPort (b + 1)) }

def Plan.uses (x : Plan) (b : Nat) : Bool := x.used >>> b % 2 == 1
def Plan.switchPort (x : Plan) (b : Nat) : Nat := x.switchPorts.getD b 0xFFFF
/-- The used plane whose plan_chassis a chassis equals. -/
def Plan.planeOf (x : Plan) (c : Nat) : Option Nat :=
  (List.range 16).find? fun b => x.uses b && x.chassis.getD b 0 != 0 && x.chassis.getD b 0 == c

/-- Send one flit; its link word carries the acknowledgement that is owed (R309). -/
def State.sendFlit (s : State) (p ftype fseq vc : Nat) (content : Bytes) (nak : Bool) : State :=
  let x := s.port p
  let l : LinkWord := { ftype := ftype, fseq := fseq, ackSeq := (x.rxSeq + 4095) % 4096,
                        ackV := nak || decide (0 < x.owed) || x.owedDup, nak := nak, vc := vc }
  ((s.pass (.linkTx p) (unle (flitBytes l content))).emit (.flit p (flitBytes l content))).updPort p fun x => { x with
    owed := 0, owedFrom := none, owedDup := false }

/-- Set a nak once, on a port that carries acknowledgements (R309, Table 11.11). -/
def State.sendNak (s : State) (p : Nat) : State :=
  if (s.port p).nakOut ∨ ¬ (s.portIs p psUp ∨ s.portIs p psHeld ∨ s.portIs p psRetrain) then s
  else ((s.updPort p fun x => { x with nakOut := true }).count (Obj.naksSent p) 1).sendFlit p 7 0 0 [] true

/-! ### Sending messages -/

/-- Virtual channel of a message type (Table 12.3). -/
def msgVc (mtype : Nat) : Nat := if 0x10 ≤ mtype ∧ mtype ≤ 0x17 then 0 else 1

/-- Is a message of the lending exchange lent traffic (Table 12.3)? -/
def isLent (mtype : Nat) : Bool := decide (0x30 ≤ mtype ∧ mtype ≤ 0x35)

/-- The bytes of a message from the collective header on (Table 12.2). -/
def msgBytes (m : Msg) : Bytes :=
  p64 (m.mtype * 2 ^ 56 + m.level * 2 ^ 48 + m.group % 2 ^ 16 * 2 ^ 32 + m.epoch % 2 ^ 32) ++ p64 (m.digest % 2 ^ 32 * 2 ^ 32 + m.cid % 2 ^ 32) ++
  p64 m.step ++ p64 (m.index % 2 ^ 32 * 2 ^ 32 + m.rank % 2 ^ 16 * 2 ^ 16 + m.count % 2 ^ 16) ++ m.body

/-- Cut a byte string into pieces of at most 248 bytes. -/
def chop248 : Nat → Bytes → List Bytes
  | 0, _ => []
  | n + 1, b => if b.length ≤ 248 then [b] else b.take 248 :: chop248 n (b.drop 248)

/-- The data flits of a message (R306): the route word heads the first. -/
def mailFlits (m : Mail) : List TxFlit :=
  let all := msgBytes m.msg
  let n := (all.length + 8 + 247) / 248
  let vc := msgVc m.msg.mtype
  let route := m.dst % 512 * 2 ^ 55 + m.pod % 2 * 2 ^ 54 + m.msg.src % 512 * 2 ^ 45 + m.msg.pod % 2 * 2 ^ 44 + vc * 2 ^ 43 +
    m.msg.cid % 2048 * 2 ^ 32 + (n - 1) * 2 ^ 27
  (chop248 n (p64 route ++ all)).zipIdx.map fun (b, i) =>
    { fseq := 0, vc := vc, head := i == 0, content := b, ends := if i + 1 = n then some m else none, lent := isLent m.msg.mtype }

/-- Has the partner granted credit for one more flit on a channel (R307)? -/
def Port.hasCredit (x : Port) (vc : Nat) : Bool := if vc = 0 then decide (x.sent0 < x.credit0) else decide (x.sent1 < x.credit1)

/-- The rest of the messages that a port has begun to send, and the messages it has not begun: the flits of one channel and kind of traffic go
out in order. -/
def Port.begun (x : Port) : List TxFlit :=
  [(false, false), (true, false), (true, true)].flatMap fun k =>
    (x.queue.filter fun f => (f.vc != 0) == k.1 && f.lent == k.2).takeWhile fun f => !f.head
def Port.whole (x : Port) : List TxFlit :=
  [(false, false), (true, false), (true, true)].flatMap fun k =>
    (x.queue.filter fun f => (f.vc != 0) == k.1 && f.lent == k.2).dropWhile fun f => !f.head

/-- The flit that goes next: in queue order among the channels with credit, but lent messages yield to collective traffic (R243), within a
channel between messages. -/
def Port.nextFlit (x : Port) : Option TxFlit :=
  let q := x.queue.filter fun f => f.vc != 0
  let next1 := q.head?.map fun f => if f.head && f.lent then (q.find? fun g => !g.lent).getD f else f
  let ready (o : Option TxFlit) : Option TxFlit := o.filter fun f => x.hasCredit f.vc
  match ready (x.queue.find? fun f => f.vc == 0), ready next1 with
  | some a, some b => if b.lent then some a else x.queue.find? fun f => f == a || f == b
  | some a, none => some a
  | none, b => b

/-- Put one waiting flit on the line, if the port is up and active, its replay buffer has room and its channel has credit. -/
def State.pumpOne (s : State) (p : Nat) : State :=
  let x := s.port p
  if ¬ s.portIs p psUp ∨ s.rd (Obj.portPowerState p) ≠ 0 ∨ 256 ≤ x.buffer.length then s
  else
    match x.nextFlit with
    | none => s
    | some e =>
      let f := { e with fseq := x.txSeq }
      let s := s.setPort p { x with
        queue := x.queue.erase e, buffer := x.buffer ++ [f], txSeq := (x.txSeq + 1) % 4096
        sent0 := if e.vc = 0 then x.sent0 + 1 else x.sent0
        sent1 := if e.vc = 0 then x.sent1 else x.sent1 + 1
        timerFrom := if x.timerFrom = none then some s.now else x.timerFrom
        dataAt := s.now }
      (s.count (Obj.flitsTx p) 1).sendFlit p (if e.head then 1 else 2) f.fseq e.vc e.content false

def State.pump (s : State) (p : Nat) : State := (s.port p).queue.foldl (fun s _ => s.pumpOne p) s

/-- The up port that carries logical plane `b`. -/
def State.planeUp (s : State) (b : Nat) : Option Nat :=
  let p := s.rd (Obj.planePort (b + 1))
  if p < 16 ∧ s.portIs p psUp then some p else none

/-- The up port of the first logical plane that is up, from `b` in ascending order modulo 16. -/
def State.pickPlane (s : State) (b : Nat) : Option Nat := ((List.range 16).map fun (i : Nat) => (b + i) % 16).findSome? s.planeUp

/-- The port a message goes out on, from logical plane `b`; lent traffic keeps to the first lend_planes planes that are up (R243). -/
def State.pickFor (s : State) (m : Mail) (b : Nat) : Option Nat :=
  if isLent m.msg.mtype then
    let ps := ((List.range 16).filterMap s.planeUp).take (s.rd Obj.lendPlanes)
    ps[b % ps.length]?
  else s.pickPlane b

/-- A kept message has gone out on a port: its plane is the one that a further sending comes after (R342). -/
def State.sentOn (s : State) (m : Mail) (p : Nat) : State :=
  let b := s.rd (Obj.logicalPlane p)
  { s with coll := { s.coll with sent := s.coll.sent.map fun x => if x.dst = m.dst ∧ x.msg = m.msg then { x with plane := b } else x } }

/-- Hand a message to the links, from logical plane `b` on. -/
def State.mailFrom (s : State) (m : Mail) (b : Nat) : State :=
  match s.pickFor m (b % 16) with
  | none => { s with link := { s.link with unsent := s.link.unsent ++ [m] } }
  | some p => ((s.updPort p fun x => { x with queue := x.queue ++ mailFlits m }).sentOn m p).pump p

/-- Hand a message to the links: plane (index + source rank) mod 16 or the next up (R341). -/
def State.mail (s : State) (m : Mail) : State := s.mailFrom m (m.msg.index + m.msg.rank)

/-- Send a message again, on the next up plane after `b` (R342). -/
def State.mailAgain (s : State) (m : Mail) (b : Nat) : State :=
  (if isLent m.msg.mtype then s else (s.count Obj.collResends 1).count Obj.collBytesTx (msgBytes m.msg).length).mailFrom m (b + 1)

/-- Messages that waited for a plane go out. -/
def State.mailWaiting (s : State) : State :=
  let ms := s.link.unsent
  ms.foldl (fun s m => s.mail m) { s with link := { s.link with unsent := [] } }

/-! ### Port transitions (R322) -/

/-- The logical plane of a port, for events. -/
def State.planeOf (s : State) (p : Nat) : Nat := s.rd (Obj.logicalPlane p)

/-- Move a port to a state, with the event of the transition. -/
def State.portTo (s : State) (p st : Nat) : State :=
  let was := s.rd (Obj.portState p)
  let s := (s.wr (Obj.portState p) st).updPort p fun x => { x with since := s.now }
  let ps := [p8 p, p8 (s.planeOf p)]
  if was = st then s
  else if st = psUp then s.raise Ev.linkUp ps
  else if st = psDown then s.raise Ev.linkDown ps
  else if st = psRetrain then s.raise Ev.linkRetrain ps
  else if st = psFailed then s.raise Ev.linkFailed ps
  else s

/-- Unacknowledged messages of a port that leaves service, those begun among them, are handed back and sent again on the next plane; the
waiting ones go out on other planes; both sequences restart (R311, R342). -/
def State.handBack (s : State) (p : Nat) : State :=
  let x := s.port p
  let b := s.rd (Obj.logicalPlane p)
  let lost := (x.buffer ++ x.begun).filterMap TxFlit.ends
  let kept := x.whole.filterMap TxFlit.ends
  let s := s.setPort p { x with
    queue := [], buffer := [], txSeq := 0, rxSeq := 0, timerFrom := none, stuck := 0, nakOut := false, owed := 0, owedFrom := none,
    owedDup := false, drop0 := false, drop1 := false, rcv0 := 0, rcv1 := 0, freed := 0, creditAt := none, credit0 := 0, credit1 := 0,
    sent0 := 0, sent1 := 0, badCredits := [], badCodes := [], protocol := false, locked := false }
  let s := lost.foldl (fun s m => s.mailAgain m b) s
  kept.foldl (fun s m => s.mail m) s

/-- A port leaves up and keeps its lock (held or identity): what waits unsent goes to the other planes in whole messages; the sequences,
the flits not acknowledged and the rest of a message begun stay with the port (R308, R341). -/
def State.setAside (s : State) (p : Nat) : State :=
  let x := s.port p
  (x.whole.filterMap TxFlit.ends).foldl (fun s m => s.mail m) (s.setPort p { x with queue := x.begun })

/-- One entry of the field log (R493): at most 1024, a tile already entered and not applied is not entered twice. -/
def State.fieldEntry (s : State) (cause : Nat) (what : List Nat) : State :=
  let e : FieldEntry := { session := s.rd Obj.powerSession, ticks := s.now, cause := cause, what := what, applied := false }
  { s with start := { s.start with fieldLog :=
      (if 1024 ≤ s.start.fieldLog.length then s.start.fieldLog.drop 1 else s.start.fieldLog) ++ [e] } }

/-- The map of planes as it stands. -/
def State.planeMap (s : State) : List Nat := (List.range 16).map fun b => s.rd (Obj.planePort (b + 1))

/-- A change of the map of planes is counted, entered in the field log and raised (R321). -/
def State.remapped (s : State) (old : List Nat) : State :=
  if s.planeMap = old then s else ((s.count Obj.remapCount 1).fieldEntry 4 (old ++ s.planeMap)).raise Ev.cableRemapped []

/-- Free the plane a port carries: the map holds until the port goes down (R321). -/
def State.unmap (s : State) (p : Nat) : State :=
  let old := s.planeMap
  let b := s.planeOf p
  let s := if b < 16 ∧ s.rd (Obj.planePort (b + 1)) = p ∧ b ≠ p then s.wr (Obj.planePort (b + 1)) 0xFF else s
  let s := s.wr (Obj.logicalPlane p) p
  (if s.rd (Obj.planePort (p + 1)) = 0xFF then s.wr (Obj.planePort (p + 1)) p else s).remapped old

/-- A port goes down. -/
def State.goDown (s : State) (p : Nat) : State :=
  let s := ((s.portTo p psDown).wr (Obj.idResult p) 0).updPort p fun x => { x with idFrom := none, change := none, changeSeen := 0 }
  (s.handBack p).unmap p

/-- A port fails: nothing is carried, lasers off. -/
def State.portFail (s : State) (p : Nat) : State :=
  (((s.portTo p psFailed).wr (Obj.idResult p) 0).handBack p).unmap p

/-- Send a hello flit with an echo value and the value it echoes (Table 11.3). -/
def State.sendHello (s : State) (p echo : Nat) : State :=
  s.sendFlit p 6 0 0 (p64 (2 ^ 56 + p * 2 ^ 48 + s.now % 2 ^ 48) ++ p64 echo) false

/-- Enter retrain: hello goes out, sequences and replay buffer are kept (R311, Table 11.11). -/
def State.enterRetrain (s : State) (p : Nat) : State :=
  if s.portIs p psUp then
    (((s.portTo p psRetrain).countSat (Obj.retrains p) 1).updPort p fun x => { x with
      retrainAt := (x.retrainAt.filter fun t => decide (s.now - t ≤ 60000 * ms)) ++ [s.now], stuck := 0, badCodes := [], badCredits := [],
      protocol := false }).sendHello p 0
  else s

/-! ### Receiving (R303, R309, R311) -/

/-- Send every buffered flit again, in order (R308). Only an up port sends data flits (R311, R320); one in LP1 returns to LP0 for them
(R324). -/
def State.replay (s : State) (p : Nat) : State :=
  let x := s.port p
  if x.buffer.isEmpty ∨ ¬ s.portIs p psUp then s
  else
    let s := (s.wr (Obj.portPowerState p) 0).count (Obj.flitsReplays p) 1
    let s := s.setPort p { x with timerFrom := some s.now, stuck := x.stuck + 1, dataAt := s.now }
    x.buffer.foldl (fun s f => (s.count (Obj.flitsTx p) 1).sendFlit p (if f.head then 1 else 2) f.fseq f.vc f.content false) s

/-- The acknowledgement and nak of a received link word: flits up to ack_seq are freed first, then a replay starts; an ack_seq not
yet sent is a protocol error (R311). -/
def State.takeAck (s : State) (p : Nat) (l : LinkWord) : State :=
  if ¬ l.ackV then s
  else
    let x := s.port p
    let base := (x.txSeq + 4096 - x.buffer.length % 4096) % 4096
    let n := (l.ackSeq + 1 + 4096 - base) % 4096
    if x.buffer.length < n ∧ n < 2048 then s.updPort p fun x => { x with protocol := true }
    else
      let s := if 0 < n ∧ n ≤ x.buffer.length then
          s.setPort p { x with buffer := x.buffer.drop n, stuck := 0, timerFrom := if n = x.buffer.length then none else some s.now }
        else s
      let s := if l.nak ∧ n ≤ x.buffer.length then s.replay p else s
      s.pump p

/-- Take one received flit on a port: codeword counts, intactness, the link word, then what its type does (R303, R305, R309). A port
that is down or failed takes nothing. -/
def State.takeFlit (s : State) (p : Nat) (f : Bytes) (cor unc : Nat) (g : LinkWord → State → State) : State :=
  if s.portIs p psDown ∨ s.portIs p psFailed then s
  else
    let s := s.pass (.linkRx p) (unle f)
    let s := (s.count (Obj.fecCorrected p) cor).count (Obj.fecUncorrectable p) unc
    let s := s.updPort p fun x => { x with
      badCodes := (x.badCodes.filter fun t => decide (s.now - t < ms)) ++ List.replicate unc s.now }
    if ¬ flitIntact f unc then (s.count (Obj.parityErrors p) 1).sendNak p
    else
      let l := linkWord f
      g l (s.takeAck p l)

def State.ctrlDiscard (s : State) (p : Nat) : State := s.count (Obj.ctrlDiscards p) 1

/-- The message types of Table 12.3. -/
def validMtype (t : Nat) : Bool :=
  decide ((1 ≤ t ∧ t ≤ 4) ∨ (0x10 ≤ t ∧ t ≤ 0x17) ∨ (0x20 ≤ t ∧ t ≤ 0x23) ∨ (0x30 ≤ t ∧ t ≤ 0x35))

/-- An accepted data flit: the head flit of a message for another module or pod, or of a type of none, makes the message discarded,
counted once (R306, R331). -/
def State.acceptFlit (s : State) (p : Nat) (l : LinkWord) (f : Bytes) : State :=
  let route := flitWord f 0
  let plan := (s.port p).plan
  let wrong := l.ftype == 1 && !(route >>> 55 % 512 == plan.module && route >>> 54 % 2 == plan.pod && validMtype (flitWord f 1 >>> 56))
  let s := (s.count (Obj.flitsRx p) 1).updPort p fun x => { x with
    rxSeq := (x.rxSeq + 1) % 4096, nakOut := false, owed := x.owed + 1
    owedFrom := if x.owedFrom = none then some s.now else x.owedFrom
    freed := x.freed + 1
    rcv0 := if l.vc = 0 then x.rcv0 + 1 else x.rcv0
    rcv1 := if l.vc = 0 then x.rcv1 else x.rcv1 + 1
    drop0 := if l.vc = 0 ∧ l.ftype = 1 then wrong else x.drop0
    drop1 := if l.vc = 1 ∧ l.ftype = 1 then wrong else x.drop1 }
  let s := if wrong then s.ctrlDiscard p else s
  if 32 ≤ (s.port p).owed then s.sendFlit p 7 0 0 [] false else s

/-- DATA_FLIT_RX (R309, R311): the expected flit is accepted; a duplicate is discarded and acknowledged; any other sets a nak. -/
def State.dataFlit (s : State) (p : Nat) (f : Bytes) (l : LinkWord) : State :=
  if ¬ s.portIs p psUp ∨ ¬ (l.ftype = 1 ∨ l.ftype = 2) then s
  else
    let x := s.port p
    if l.fseq = x.rxSeq then s.acceptFlit p l f
    else if (x.rxSeq + 4096 - l.fseq) % 4096 ≤ 2048 then s.updPort p fun x => { x with owedDup := true }
    else s.sendNak p

def execDataFlitRx (p : Fin 16) (f : Bytes) (cor unc : Nat) (s : State) : Host.Outcome State Fault Refusal :=
  .next (s.takeFlit p f cor unc fun l s => s.dataFlit p f l)

def execLinkWordAck (p : Fin 16) (f : Bytes) (cor unc : Nat) (s : State) : Host.Outcome State Fault Refusal :=
  .next (s.takeFlit p f cor unc fun _ s => s)

/-- REPLAY_TIMER (R308, R310): max(replay_timer_us, twice the round trip) since the oldest unacknowledged flit. -/
def State.replayTimer (s : State) (p : Nat) : State :=
  match (s.port p).timerFrom with
  | none => s
  | some f =>
    if s.portIs p psUp ∧ max (s.rd Obj.replayTimerUs * us) (2 * s.rd (Obj.rttNs p) / 10) ≤ s.now - f then s.replay p else s

def execReplayTimer (p : Fin 16) (s : State) : Host.Outcome State Fault Refusal := .next (s.replayTimer p)

/-- ACK_TIMER (R309): an acknowledgement leaves 100 ns after the first flit it covers, from every state that carries ack flits. -/
def State.ackTimer (s : State) (p : Nat) : State :=
  match (s.port p).owedFrom with
  | none => s
  | some f => if (s.portIs p psUp ∨ s.portIs p psHeld ∨ s.portIs p psRetrain) ∧ 10 ≤ s.now - f then s.sendFlit p 7 0 0 [] false else s

def execAckTimer (p : Fin 16) (s : State) : Host.Outcome State Fault Refusal := .next (s.ackTimer p)

/-! ### Credits (R307) -/

/-- Is a received cumulative count acceptable: not lower than the last, and at most a buffer of 512 ahead of the flits sent? -/
def creditOk (last new sent : Nat) : Bool :=
  decide ((new + 2 ^ 32 - last % 2 ^ 32) % 2 ^ 32 < 2 ^ 31) &&
  decide ((new + 2 ^ 32 - sent % 2 ^ 32) % 2 ^ 32 ≤ 512 ∨ 2 ^ 31 ≤ (new + 2 ^ 32 - sent % 2 ^ 32) % 2 ^ 32)

/-- A 32-bit count continued from the last one. -/
def extend32 (last new : Nat) : Nat := last + (new + 2 ^ 32 - last % 2 ^ 32) % 2 ^ 32

def State.creditFlit (s : State) (p : Nat) (f : Bytes) (l : LinkWord) : State :=
  if ¬ (s.portIs p psUp ∨ s.portIs p psHeld) ∨ l.ftype ≠ 3 then s
  else
    let x := s.port p
    let w := flitWord f 0
    let ok0 := creditOk x.credit0 (w >>> 32) x.sent0
    let ok1 := creditOk x.credit1 (w % 2 ^ 32) x.sent1
    let bad := (if ok0 then 0 else 1) + (if ok1 then 0 else 1)
    let s := s.setPort p { x with
      credit0 := if ok0 then extend32 x.credit0 (w >>> 32) else x.credit0
      credit1 := if ok1 then extend32 x.credit1 (w % 2 ^ 32) else x.credit1
      badCredits := (x.badCredits.filter fun t => decide (s.now - t < ms)) ++ List.replicate bad s.now }
    (s.count (Obj.ctrlDiscards p) bad).pump p

def execCreditFlitRx (p : Fin 16) (f : Bytes) (cor unc : Nat) (s : State) : Host.Outcome State Fault Refusal :=
  .next (s.takeFlit p f cor unc fun l s => s.creditFlit p f l)

/-- CREDIT_SEND: 512 flits of buffer per channel beyond those received, after 64 flits freed or 1 µs. -/
def State.creditSend (s : State) (p : Nat) : State :=
  let x := s.port p
  let due := decide (64 ≤ x.freed) || (match x.creditAt with
    | none => true
    | some t => decide (us ≤ s.now - t))
  if (s.portIs p psUp ∨ s.portIs p psHeld) ∧ due then
    (s.setPort p { x with freed := 0, creditAt := some s.now }).sendFlit p 3 0 0
      (p64 ((512 + x.rcv0) % 2 ^ 32 * 2 ^ 32 + (512 + x.rcv1) % 2 ^ 32)) false
  else s

def execCreditSend (p : Fin 16) (s : State) : Host.Outcome State Fault Refusal := .next (s.creditSend p)

/-! ### The pace sideband (R313, R372) -/

/-- Is compute held below OP0 at full duty by the budget or the thermal ceiling (R372)? -/
def State.isThrottled (s : State) : Bool :=
  s.rd Obj.ceilingBudget != 0 || s.rd Obj.ceilingThermal != 0 || decide (s.rd Obj.duty < 256)

/-- Parked, in hold, deep hold or thermal park, or restarting for an activation (R372, R450). -/
def State.isParked (s : State) : Bool := decide (2 ≤ s.rd Obj.powerState) || s.fw.phase == 2

def mhzOf (op : Nat) : Nat := [1400, 1260, 1120, 980, 850, 720, 580, 450].getD op 450

/-- The pace the module sends: round_half_even(32 768 × f × d / 1.4 GHz), 0 while parked (R372, Table 11.8). -/
def State.paceNow (s : State) : Nat :=
  if s.isParked then 0 else (Ex.mk (Int.ofNat (32768 * mhzOf (s.rd Obj.opInForce) * s.rd Obj.duty)) (1400 * 256) 0).roundAbs 0

/-- Words 0 to 3 of a pace-mode flit (Table 11.8). -/
def State.paceFlit (s : State) : Bytes :=
  p64 (s.rd Obj.planModule % 512 * 2 ^ 55 + s.rd Obj.planPod % 2 * 2 ^ 54 + s.paceNow * 2 ^ 38 + s.rd Obj.opInForce * 2 ^ 35 +
    (if s.isThrottled then 2 ^ 34 else 0) + (if s.isParked then 2 ^ 33 else 0) + s.link.paceSeq % 2 ^ 32) ++
  p64 (s.rd Obj.modeEpoch * 2 ^ 32 + s.rd Obj.prepEpoch) ++ p64 (s.rd Obj.lastCommittedStep) ++ p64 (s.rd Obj.groupId * 2 ^ 48 + 2 ^ 40)

/-- PACE_MODE_SEND: every 1000 drone ticks, on the module's plane or the next up (R313). -/
def State.paceSend (s : State) : State :=
  if s.now - s.link.paceAt < 1000 then s
  else
    match s.pickPlane (s.rd Obj.planModule % 16) with
    | none => s
    | some p =>
      let s' := (s.wr Obj.paceSent s.paceNow).sendFlit p 4 0 0 s.paceFlit false
      { s' with link := { s'.link with paceSeq := (s.link.paceSeq + 1) % 2 ^ 32, paceAt := s.now } }

def execPaceModeSend (s : State) : Host.Outcome State Fault Refusal := .next s.paceSend

/-- A pace-mode flit's fields. -/
def paceEntOf (f : Bytes) (now : Nat) : PaceEnt :=
  let w := flitWord f 0
  { pace := w >>> 38 % 2 ^ 16, op := w >>> 35 % 8, throttled := w >>> 34 % 2 == 1, parked := w >>> 33 % 2 == 1, seq := w % 2 ^ 32,
    epoch := flitWord f 1 >>> 32, prepEpoch := flitWord f 1 % 2 ^ 32, step := flitWord f 2, group := flitWord f 3 >>> 48, tick := now }

/-- Key of a sender's entry. -/
def paceKey (f : Bytes) : Nat := flitWord f 0 >>> 54 % 2 * 512 + flitWord f 0 >>> 55

/-- Update the sender's entry, or count a control discard (R314). -/
def State.paceFlitRx (s : State) (p : Nat) (f : Bytes) (l : LinkWord) : State :=
  if ¬ s.portIs p psUp ∨ l.ftype ≠ 4 then s
  else
    let e := paceEntOf f s.now
    let fresh : Bool := match s.link.pace.find (paceKey f) with
      | none => true
      | some o => after e.seq o.seq || decide (100 * us ≤ s.now - o.tick)
    if e.pace ≤ 0x8000 ∧ flitWord f 3 >>> 40 % 256 = 1 ∧ fresh then
      { s with link := { s.link with pace := s.link.pace.insert (paceKey f) e } }
    else s.ctrlDiscard p

/-! ### Identity (R316 to R321) -/

/-- The TLVs of an LLDPDU up to its end; none where a length leaves the frame. -/
def tlvs : Nat → Bytes → Option (List (Nat × Bytes))
  | 0, _ => none
  | _ + 1, [] => some []
  | _ + 1, [_] => none
  | n + 1, a :: b :: r =>
    let t := a.toNat / 2
    let k := a.toNat % 2 * 256 + b.toNat
    if t = 0 then some []
    else if r.length < k then none
    else (tlvs n (r.drop k)).map fun l => (t, r.take k) :: l

/-- A big-endian number. -/
def unbe (b : Bytes) : Nat := b.foldl (fun a x => 256 * a + x.toNat) 0
def be (k n : Nat) : Bytes := (le k n).reverse

/-- ASCII digits as a number, none where a byte is no digit. -/
def unDigits (b : Bytes) : Option Nat :=
  if b.isEmpty ∨ 5 < b.length ∨ b.any (fun x => decide (x.toNat < 48 ∨ 57 < x.toNat)) then none
  else some (b.foldl (fun a x => 10 * a + (x.toNat - 48)) 0)

/-- The chassis, switch port and Time To Live of an acceptable LLDPDU (R317). -/
def lldpOf (f : Bytes) : Option (Nat × Nat × Nat) :=
  let n := unle (f.take 2)
  let frame := (f.drop 2).take n
  if ¬ (60 ≤ n ∧ n ≤ 246) then none
  else
    match tlvs 130 (frame.drop 14) with
    | none => none
    | some l =>
      match l.find? (fun t => t.1 == 1), l.find? (fun t => t.1 == 2), l.find? (fun t => t.1 == 3) with
      | some (_, c), some (_, q), some (_, t) =>
        match unDigits (q.drop 1) with
        | some v =>
          if c.length = 7 ∧ c.head? = some 4 ∧ q.head? = some 7 ∧ v ≤ 65535 ∧ t.length = 2 ∧ 1 ≤ unbe t ∧ unbe t ≤ 120 then
            some (unbe (c.drop 1), v, unbe t)
          else none
        | none => none
      | _, _, _ => none

/-- The used plane whose plan_chassis a port's peer carries, by the plan the port goes by (R318, R325). -/
def State.peerPlane (s : State) (p : Nat) : Option Nat := (s.port p).plan.planeOf (s.port p).chassis

/-- Has the port a valid identity (R317)? -/
def State.idValid (s : State) (p : Nat) : Bool :=
  match (s.port p).idFrom with
  | none => false
  | some t => decide (s.now - t ≤ (s.port p).idTtl * 1000 * ms)

/-- Does the port report plane `b`? -/
def State.reports (s : State) (p b : Nat) : Bool := s.idValid p && s.peerPlane p == some b

/-- May the port be classified at all: its nominal plane is used and the module has a plan (R318)? -/
def State.inPlan (s : State) (p : Nat) : Bool := (s.port p).plan.uses p && (s.port p).plan.module != 0xFFFF

/-- Another port, up or held, that reported plane `b` before this port did (Table 11.10, rule 5). -/
def State.rival (s : State) (p b : Nat) : Option Nat :=
  (List.range 16).find? fun q => q != p && (s.portIs q psUp || s.portIs q psHeld) && s.reports q b && decide ((s.port q).idNo < (s.port p).idNo)

/-- The identity result of a port (Table 11.10), rules in order. -/
def State.idClass (s : State) (p : Nat) : Nat :=
  if ¬ s.inPlan p then 0
  else if ¬ s.idValid p then 7
  else
    match s.peerPlane p with
    | none => 4
    | some b =>
      let wrongPort (c : Nat) : Bool := (s.port p).switchPort != (s.port p).plan.switchPort c
      if b = p ∧ wrongPort p then 6
      else if (s.rival p b).isSome then 5
      else if b ≠ p ∧ s.reports b p then 2
      else if b ≠ p then (if wrongPort b then 6 else 3)
      else 1

/-- The event of a changed result (R319); a pair in swap raises one. -/
def State.idEvent (s : State) (p r : Nat) : State :=
  let b := (s.peerPlane p).getD 0xFF
  if r = 2 then (if s.rd (Obj.idResult b) = 2 ∧ s.reports b p then s else s.raise Ev.cableSwap [p8 (min p b), p8 (max p b)])
  else if r = 3 then s.raise Ev.cableMisplaced [p8 p, p8 b]
  else if r = 4 then s.raise Ev.cableForeign [p8 p, p64 (s.port p).chassis]
  else if r = 5 then
    s.raise Ev.cableDuplicate [p8 p, p8 ((s.rival p b).getD 0xFF)]
  else if r = 6 then
    s.raise Ev.cableSwitchPort [p8 p, p8 b, p16 (s.port p).switchPort, p16 ((s.port p).plan.switchPort b)]
  else if r = 7 then s.raise Ev.lldpMissing [p8 p]
  else s

/-- Carry logical plane `b` on port `p`; a change of the map is counted, logged and raised (R321). -/
def State.carry (s : State) (p b : Nat) : State :=
  let old := s.planeMap
  let a := s.planeOf p
  let s' := if a ≠ b ∧ a < 16 ∧ s.rd (Obj.planePort (a + 1)) = p then s.wr (Obj.planePort (a + 1)) 0xFF else s
  let s' := (s'.wr (Obj.logicalPlane p) b).wr (Obj.planePort (b + 1)) p
  s'.remapped old

/-- Does another up port carry logical plane `b`? -/
def State.carried (s : State) (p b : Nat) : Bool := (List.range 16).any fun q => q != p && s.portIs q psUp && s.planeOf q == b

/-- Put a port where its identity result takes it (R320, R321). -/
def State.idSettle (s : State) (p r : Nat) : State :=
  let b := (s.peerPlane p).getD 0xFF
  let mode := (s.port p).plan.mode
  let adopt := mode == 1 && (r == 2 || r == 3) && !s.carried p b
  let already := s.portIs p psUp && ((r == 1 && s.planeOf p == p) || ((r == 2 || r == 3) && mode == 1 && s.planeOf p == b))
  if r = 0 then (if s.portIs p psIdentity then s else (s.portTo p psIdentity).setAside p)
  else if already then s
  else if r = 1 then ((((s.carry p p).portTo p psUp).updPort p fun x => { x with dataAt := s.now }).pump p).mailWaiting
  else if adopt then ((((s.carry p b).portTo p psUp).updPort p fun x => { x with dataAt := s.now }).pump p).mailWaiting
  else if s.portIs p psHeld then s
  else (s.portTo p psHeld).setAside p

/-- Re-evaluate one port, in the states where an identity counts. -/
def State.idOne (s : State) (p : Nat) : State :=
  if s.portIs p psIdentity ∨ s.portIs p psUp ∨ s.portIs p psHeld then
    let x := s.port p
    if s.portIs p psIdentity ∧ x.idFrom = none ∧ s.rd (Obj.idResult p) = 0 then s
    else
      let r := s.idClass p
      let s := if r = s.rd (Obj.idResult p) then s else (s.idEvent p r).wr (Obj.idResult p) r
      s.idSettle p r
  else s

/-- Re-evaluate every port until nothing changes (R318). -/
def State.classify (s : State) : State :=
  (List.range 4).foldl (fun s _ => (List.range 16).foldl (fun s p => s.idOne p) s) s

/-- An accepted LLDPDU sets peer_chassis and peer_switch_port. The port acts on the first in identity, and on a changed one only the third
time in a row when up or held (R317). -/
def State.lldpTake (s : State) (p c v t : Nat) : State :=
  let x := s.port p
  let s := (s.wr (Obj.peerChassis p) c).wr (Obj.peerSwitchPort p) v
  let n := if x.change = some (c, v) then x.changeSeen + 1 else 1
  if s.portIs p psIdentity ∨ x.idFrom = none ∨ (x.chassis = c ∧ x.switchPort = v) ∨ 3 ≤ n then
    let new := x.idFrom = none ∨ ¬ (x.chassis = c ∧ x.switchPort = v)
    let s := s.setPort p { x with
      idFrom := some s.now, idTtl := t, chassis := c, switchPort := v, change := none, changeSeen := 0
      idNo := if new then s.link.identities + 1 else x.idNo }
    { s with link := { s.link with identities := if new then s.link.identities + 1 else s.link.identities } }.classify
  else s.setPort p { x with idFrom := some s.now, idTtl := t, change := some (c, v), changeSeen := n }

def State.lldpFlit (s : State) (p : Nat) (f : Bytes) (l : LinkWord) : State :=
  if ¬ (s.portIs p psIdentity ∨ s.portIs p psUp ∨ s.portIs p psHeld ∨ s.portIs p psRetrain) ∨ l.ftype ≠ 5 then s
  else
    match lldpOf f with
    | none => s.ctrlDiscard p
    | some (c, v, t) => s.lldpTake p c v t

def execLldpFlitRx (p : Fin 16) (f : Bytes) (cor unc : Nat) (s : State) : Host.Outcome State Fault Refusal :=
  .next (s.takeFlit p f cor unc fun l s => s.lldpFlit p f l)

/-- LLDP_MISSING: 5 s in identity without an accepted LLDPDU, or an identity that outlived its Time To Live (R317). -/
def State.lldpMissing (s : State) (p : Nat) : State :=
  let x := s.port p
  let late := s.portIs p psIdentity && x.idFrom == none && decide (5000 * ms ≤ s.now - x.since)
  let old := x.idFrom != none && !s.idValid p
  if s.inPlan p ∧ (late ∨ old) ∧ (s.portIs p psIdentity ∨ s.portIs p psUp ∨ s.portIs p psHeld) ∧ s.rd (Obj.idResult p) ≠ 7 then
    (((s.updPort p fun x => { x with idFrom := none }).raise Ev.lldpMissing [p8 p]).wr (Obj.idResult p) 7).idSettle p 7 |>.classify
  else s

def execLldpMissing (p : Fin 16) (s : State) : Host.Outcome State Fault Refusal := .next (s.lldpMissing p)

/-- Decimal digits of a number, at least three. -/
def digits3 (n : Nat) : Bytes :=
  (if 9999 < n then [n / 10000 % 10] else []) ++ (if 999 < n then [n / 1000 % 10] else []) ++ [n / 100 % 10, n / 10 % 10, n % 10]
    |>.map fun d => BitVec.ofNat 8 (48 + d)

/-- ASCII "JZB-1480-L ". -/
def nameBytes : Bytes := [0x4A, 0x5A, 0x42, 0x2D, 0x31, 0x34, 0x38, 0x30, 0x2D, 0x4C, 0x20]

/-- The LLDPDU of a port (R316), at least 60 bytes. -/
def State.lldpFrame (s : State) (p : Nat) : Bytes :=
  let mac := s.rd Obj.baseMac
  let portName : Bytes := [0x50] ++ (if 9 < p then [BitVec.ofNat 8 (48 + p / 10)] else []) ++ [BitVec.ofNat 8 (48 + p % 10)]
  let sys := nameBytes ++ [BitVec.ofNat 8 (0x41 + s.rd Obj.planPod)] ++ digits3 (s.rd Obj.planModule)
  let f : Bytes := [0x01, 0x80, 0xC2, 0x00, 0x00, 0x0E] ++ be 6 (mac + p) ++ [0x88, 0xCC] ++
    [0x02, 0x07, 0x04] ++ be 6 mac ++ [0x04, BitVec.ofNat 8 (portName.length + 1), 0x07] ++ portName ++
    [0x06, 0x02, 0x00, 0x04] ++ [0x0A, BitVec.ofNat 8 sys.length] ++ sys ++ [0x00, 0x00]
  f ++ List.replicate (60 - f.length) 0

/-- LLDP_SEND: on entering identity, every 1 s, and after a change of plan (R316). -/
def State.lldpSend (s : State) (p : Nat) : State :=
  let x := s.port p
  let due := x.planDue || (match x.lldpAt with
    | none => true
    | some t => decide (1000 * ms ≤ s.now - t) || decide (t < x.since ∧ s.portIs p psIdentity))
  if (s.portIs p psIdentity ∨ s.portIs p psUp ∨ s.portIs p psHeld ∨ s.portIs p psRetrain) ∧ due then
    (s.setPort p { x with lldpAt := some s.now, planDue := false }).sendFlit p 5 0 0
      (p16 (s.lldpFrame p).length ++ s.lldpFrame p) false
  else s

def execLldpSend (p : Fin 16) (s : State) : Host.Outcome State Fault Refusal := .next (s.lldpSend p)

/-! ### Training, retraining and sleep (R310, R322, R324) -/

/-- May the optical ports be active: rails up, firmware running (Table 18.2), not in deep hold (R324)? -/
def State.opticsOn (s : State) : Bool := s.start.rails && decide (5 ≤ s.start.stage) && s.rd Obj.powerState != 4

/-- PORT_TRAINING_START: from down, at start-up, after LP2 or LP3, or 1 s after a failed attempt; the plane map is formed again, and the
plan settings take force for the port (R325). -/
def State.trainStart (s : State) (p : Nat) : State :=
  let x := s.port p
  let rested : Bool := match x.failedAt with
    | none => true
    | some t => decide (1000 * ms ≤ s.now - t)
  if s.opticsOn ∧ s.portIs p psDown ∧ s.rd (Obj.portSleep p) = 0 ∧ rested then
    (((s.unmap p).portTo p psTraining).wr (Obj.portPowerState p) 0).updPort p fun x => { x with locked := false, plan := s.planNow }
  else s

def execPortTrainingStart (p : Fin 16) (s : State) : Host.Outcome State Fault Refusal := .next (s.trainStart p)

/-- FEC_LOCK: the hello exchange begins. -/
def State.fecLock (s : State) (p : Nat) : State :=
  if s.portIs p psTraining ∧ ¬ (s.port p).locked then
    (s.updPort p fun x => { x with locked := true, since := s.now }).sendHello p 0
  else s

def execFecLock (p : Fin 16) (s : State) : Host.Outcome State Fault Refusal := .next (s.fecLock p)

/-- A training attempt fails, and is tried again 1 s later. -/
def State.trainFail (s : State) (p : Nat) : State := (s.goDown p).updPort p fun x => { x with failedAt := some s.now }

/-- FEC_LOCK_TIMEOUT: no lock within 50 ms. -/
def State.fecTimeout (s : State) (p : Nat) : State :=
  if s.portIs p psTraining ∧ ¬ (s.port p).locked ∧ 50 * ms < s.now - (s.port p).since then s.trainFail p else s

def execFecLockTimeout (p : Fin 16) (s : State) : Host.Outcome State Fault Refusal := .next (s.fecTimeout p)

/-- HELLO_EXCHANGE_TIMEOUT: no hello within 1 ms after lock. -/
def State.helloTimeout (s : State) (p : Nat) : State :=
  if s.portIs p psTraining ∧ (s.port p).locked ∧ ms < s.now - (s.port p).since then s.trainFail p else s

def execHelloExchangeTimeout (p : Fin 16) (s : State) : Host.Outcome State Fault Refusal := .next (s.helloTimeout p)

/-- HELLO_RX: in training it gives the round trip and ends the exchange; while up it says that the partner retrains; in retrain a hello that
echoes nothing is echoed (R311, R322). -/
def State.helloFlit (s : State) (p : Nat) (f : Bytes) (l : LinkWord) : State :=
  if l.ftype ≠ 6 then s
  else if s.portIs p psTraining ∧ (s.port p).locked then
    let rtt := (s.now + 2 ^ 48 - flitWord f 1 % 2 ^ 48) % 2 ^ 48 * 10
    let s := s.sendHello p (flitWord f 0 % 2 ^ 48)
    if flitWord f 1 = 0 ∨ 10000 < rtt then s
    else ((s.wr (Obj.rttNs p) rtt).portTo p psIdentity).updPort p fun x => { x with idFrom := none, change := none, changeSeen := 0 }
  else if s.portIs p psUp then s.enterRetrain p
  else if s.portIs p psRetrain ∧ flitWord f 1 = 0 then s.sendHello p (flitWord f 0 % 2 ^ 48)
  else s

def execHelloRx (p : Fin 16) (f : Bytes) (cor unc : Nat) (s : State) : Host.Outcome State Fault Refusal :=
  .next (s.takeFlit p f cor unc fun l s => s.helloFlit p f l)

/-- POWER_FLIT_RX: the partner's requested power state (R305). -/
def State.powerFlit (s : State) (p : Nat) (f : Bytes) (l : LinkWord) : State :=
  if s.portIs p psUp ∧ l.ftype = 8 ∧ flitWord f 0 >>> 60 ≤ 3 then s.updPort p fun x => { x with partner := flitWord f 0 >>> 60 } else s

def execPowerFlitRx (p : Fin 16) (f : Bytes) (cor unc : Nat) (s : State) : Host.Outcome State Fault Refusal :=
  .next (s.takeFlit p f cor unc fun l s => s.powerFlit p f l)

/-- LANE_LOSS: a lane loses signal or lock, and the whole port goes down (R301); retrain ends only in up or failed (R322). -/
def State.laneLoss (s : State) (p : Nat) : State :=
  if s.portIs p psDown ∨ s.portIs p psFailed ∨ s.portIs p psRetrain then s
  else ((s.goDown p).updPort p fun x => { x with failedAt := some s.now }).classify

def execLaneLoss (p : Fin 16) (s : State) : Host.Outcome State Fault Refusal := .next (s.laneLoss p)

/-- RETRAIN: four replays without progress, more than 16 uncorrectable codewords or three bad credit counts within 1 ms, or a protocol
error (R307, R310, R311). -/
def State.retrain (s : State) (p : Nat) : State :=
  let x := s.port p
  let recent (l : List Nat) : Nat := (l.filter fun t => decide (s.now - t < ms)).length
  if s.portIs p psUp ∧ (4 ≤ x.stuck ∨ 16 < recent x.badCodes ∨ 3 ≤ recent x.badCredits ∨ x.protocol) then s.enterRetrain p else s

def execRetrain (p : Fin 16) (s : State) : Host.Outcome State Fault Refusal := .next (s.retrain p)

/-- Retrains within the last 60 s. -/
def State.recentRetrains (s : State) (p : Nat) : Nat := ((s.port p).retrainAt.filter fun t => decide (s.now - t ≤ 60000 * ms)).length

/-- RETRAIN_DONE: up again, replaying from ack_seq + 1 (R311, R322). -/
def State.retrainDone (s : State) (p : Nat) : State :=
  if s.portIs p psRetrain ∧ s.recentRetrains p < 3 ∧ s.now - (s.port p).since ≤ 10 * ms then
    (((s.portTo p psUp).updPort p fun x => { x with dataAt := s.now }).replay p).pump p
  else s

def execRetrainDone (p : Fin 16) (s : State) : Host.Outcome State Fault Refusal := .next (s.retrainDone p)

/-- RETRAIN_TIMEOUT: more than 10 ms, or the third retrain within 60 s, fails the port (R310, R322). -/
def State.retrainTimeout (s : State) (p : Nat) : State :=
  if s.portIs p psRetrain ∧ (3 ≤ s.recentRetrains p ∨ 10 * ms < s.now - (s.port p).since) then (s.portFail p).classify else s

def execRetrainTimeout (p : Fin 16) (s : State) : Host.Outcome State Fault Refusal := .next (s.retrainTimeout p)

/-- LP1_IDLE: no data flit for lp1_idle_us, 0 disabling it (R324). -/
def State.lp1Idle (s : State) (p : Nat) : State :=
  let n := s.rd Obj.lp1IdleUs
  if s.portIs p psUp ∧ s.rd (Obj.portPowerState p) = 0 ∧ n ≠ 0 ∧ n * us ≤ s.now - (s.port p).dataAt then s.wr (Obj.portPowerState p) 1 else s

def execLp1Idle (p : Fin 16) (s : State) : Host.Outcome State Fault Refusal := .next (s.lp1Idle p)

/-- LP1_EXIT: a data flit is ready. -/
def State.lp1Exit (s : State) (p : Nat) : State :=
  if s.portIs p psUp ∧ s.rd (Obj.portPowerState p) = 1 ∧ (s.port p).queue ≠ [] then
    ((s.wr (Obj.portPowerState p) 0).updPort p fun x => { x with dataAt := s.now }).pump p
  else s

def execLp1Exit (p : Fin 16) (s : State) : Host.Outcome State Fault Refusal := .next (s.lp1Exit p)

/-- Status of a port_sleep write from the state check on (R324). -/
def State.sleepCond (s : State) (p : Nat) : Nat :=
  if s.portIs p psDown ∨ s.portIs p psHeld ∨ s.portIs p psFailed ∨ s.rd Obj.moduleState = 1 then 0 else 0x09

/-- A port goes to a sleeping power state and counts as down; a failed one stays failed until port_sleep is written to 0 (R322, R324). -/
def State.sleepPort (s : State) (p v : Nat) : State := (if s.portIs p psFailed then s else s.goDown p).wr (Obj.portPowerState p) v

/-- Apply a port_sleep write: LP2 is announced by a power flit, 0 wakes a sleeping port (deep hold keeps it in LP3) or leaves failed (R322,
R324). -/
def State.sleepApply (s : State) (p v : Nat) : State :=
  let slept := s.rd (Obj.portSleep p)
  let s := s.wr (Obj.portSleep p) v
  if v = 0 then
    if slept = 0 ∧ ¬ s.portIs p psFailed then s
    else ((s.goDown p).wr (Obj.portPowerState p) (if s.rd Obj.powerState = 4 then 3 else 0)).updPort p fun x => { x with failedAt := none }
  else
    let s := if v = 1 ∧ ¬ s.portIs p psDown ∧ ¬ s.portIs p psFailed then s.sendFlit p 8 0 0 (p64 (2 * 2 ^ 60)) false else s
    (s.sleepPort p (v + 1)).classify

def execPortSleepWrite (src : Src) (p : Fin 16) (v : Nat) (s : State) : Host.Outcome State Fault Refusal :=
  .next (s.act src (Obj.portSleep p) v false (s.sleepCond p) fun s => s.sleepApply p v)

end Sys2Proof.Machine
end

