-- ==== Sys2Proof/Machine/Park.lean ====
section
/-! DEFINITION. Entering and leaving park, hold, deep hold and thermal park (R370, R377, R383, R384, R477), which the causes in `power`
call for. -/
namespace Sys2Proof.Machine

/-- The power state the causes call for (0x2010.05); all are states of an operational module (R485). Hold supersedes park (R371). -/
def State.wantPower (s : State) : Nat :=
  let p := s.power
  if s.rd Obj.moduleState ≠ 2 then 0
  else if p.deep then 4
  else if p.hold then 3
  else if p.heatPark then 5
  else if p.inputPark ∨ p.trayPark ∨ p.capPark then 2
  else if s.rd Obj.duty < 256 then 1
  else 0

/-- Up ports fall to LP1, or every port to LP3 in deep hold. -/
def State.parkPorts (s : State) (deep : Bool) : State :=
  (List.range 16).foldl (fun s p =>
    if deep then s.sleepPort p 3
    else if s.portIs p psUp then s.wr (Obj.portPowerState p) 1
    else s) s

/-- Deep hold is left: a port that port_sleep keeps in LP2 is in LP2 again; those it does not keep train (R324). -/
def State.leaveDeep (s : State) : State :=
  (List.range 16).foldl (fun s p => if s.rd (Obj.portSleep p) = 1 then s.wr (Obj.portPowerState p) 2 else s) s

/-- The floors of Table 13.6, in units of 1/256 µW. -/
def floorQ : Nat := ((List.range 5).map Config.floorW).sum * 256000000

/-- The frequency of every region turns to an operating point: the idle PLL of each, locked to it, takes over (R388). -/
def State.clockTo (s : State) (op : Nat) : State :=
  let c := s.clock
  let s := s.wr Obj.opInForce op
  if c.plls.getD c.pll 0 = op then s
  else { s with clock := { c with pll := 1 - c.pll, plls := c.plls.set (1 - c.pll) op } }

/-- The array and the bank tier run again: self-refresh is left, and until the next grant compute is at OP7 and the least duty over the floors,
from which the slew of R369 raises it (R370, R384, R450). -/
def State.runArray (s : State) : State :=
  let s := { s with tier := { s.tier with selfRefresh := false }, power := { s.power with change := none, next := none, total := floorQ } }
  (((s.clockTo 7).wr Obj.duty 1).wr Obj.vtrimMv (s.rd (Obj.learnedTrim 8))).setRail (s.trimmedMv 7)

/-- Park, hold or thermal park ends. -/
def State.wake (s : State) : State := s.runArray.wr Obj.powerState 1

/-- The array rail falls to retention in hold and returns to V(OP7) after it (R383, R384), with its queues empty (R393). -/
def State.railForHold (s : State) (was new : Nat) : State :=
  let held (n : Nat) : Bool := n == 3 || n == 4
  if held new && !held was then s.setRail retentionMv
  else if held was && !held new then (s.setRail (s.trimmedMv 7)).freshArrayQueues
  else s

/-- Take the power state that the causes call for: each entry into park, hold or thermal park is counted (0xA080.03), the bank tier enters
self-refresh, and the last cause to end lets every record go on where it stopped. -/
def State.repower (s : State) : State :=
  let was := s.rd Obj.powerState
  let new := s.wantPower
  let s := (s.wr Obj.powerState new).railForHold was new
  let s := if new ≠ was ∧ (new = 2 ∨ new = 3 ∨ new = 5) then s.countSat Obj.parks 1 else s
  let s := if was < 2 ∧ 2 ≤ new then { s with tier := { s.tier with selfRefresh := true } }.parkPorts false else s
  let s := if was ≠ 4 ∧ new = 4 then s.parkPorts true else if was = 4 ∧ new ≠ 4 then s.leaveDeep else s
  if 2 ≤ was ∧ new < 2 then s.wake else s

end Sys2Proof.Machine
end

