-- ==== Sys2Proof/Machine/Flash.lean ====
section
/-! DEFINITION. The flash array as its readers see it (R266, R270, R273, R276): four-plane blocks, the place of a data unit in a stripe block,
read counts, and reads of the general zones through their page map. -/
namespace Sys2Proof.Machine

/-- Data units and rows of a stripe block. -/
def sbUnits : Nat := 507904
def rowBytes : Nat := 2031616

/-- Bytes of a four-plane block and of a stripe row as programmed, parity included. -/
def blockBytes : Nat := 134217728
def rowProgBytes : Nat := 32 * 65536

def blockKey (die block : Nat) : Nat := die * 1024 + block
def State.block (s : State) (k : Nat) : Block := s.store.blocks.get Block.fresh k
def State.setBlock (s : State) (k : Nat) (x : Block) : State :=
  { s with store := { s.store with blocks := s.store.blocks.set Block.fresh k x } }

/-- The four-plane block that holds a block of a stripe on a die (R275). -/
def State.physBlock (s : State) (die stripe : Nat) : Nat := (s.store.blockMap.find (blockKey die stripe)).getD (blockKey die stripe)

/-- Where a data unit stands (R273): stripe block, channel, die within the channel, unit within the die's four-plane block, and the channel
of its row's parity unit. -/
structure Place where
  sbk : Nat
  channel : Nat
  die : Nat
  unit : Nat
  parity : Nat
  deriving DecidableEq, Repr

/-- The place of data unit `v` of a stripe block (R273). -/
def placeOf (sbk v : Nat) : Place :=
  let r := v / 31
  { sbk := sbk, channel := (r + 1 + v % 31) % 32, die := r % 8, unit := r / 8, parity := r % 32 }

/-- The four-plane block a place lies in. -/
def State.placeBlock (s : State) (x : Place) : Nat := s.physBlock (8 * x.channel + x.die) x.sbk

/-- The place of a page of the general zones, where its map holds it (R270). -/
def State.pagePlace (s : State) (h p : Nat) : Option Place :=
  (s.store.pageMap.find (h * 2 ^ 32 + p)).map fun g => placeOf (g / sbUnits) (g % sbUnits)

/-- The blocks of the other 31 units of a place's row (R267). -/
def State.rowOthers (s : State) (x : Place) : List Nat :=
  ((List.range 32).filter (· ≠ x.channel)).map fun c => s.physBlock (8 * c + x.die) x.sbk

/-- A unit of a block is read: it counts (R276). -/
def State.readBlock (s : State) (k : Nat) : State :=
  (s.setBlock k { s.block k with reads := (s.block k).reads + 1 }).count Obj.stReadBytes 65536

/-- A unit is rebuilt as the XOR of the other 31 units of its row, which are read for it (R267). -/
def State.rebuildUnit (s : State) (x : Place) : State := ((s.rowOthers x).foldl (fun s k => s.readBlock k) s).countSat Obj.stRebuilds 1

/-- A page of the general zones is read; a miss of the page map's cache reads one unit more (R270). Which reads miss is a free value. -/
def State.readGeneral (s : State) (h p : Nat) : State :=
  let s := match s.pagePlace h p with
    | some x => s.readBlock (s.placeBlock x)
    | none => s.count Obj.stReadBytes 65536
  let s := if Config.mapMiss s.free then s.count Obj.stReadBytes 65536 else s
  { s with free := s.free + 1 }

end Sys2Proof.Machine
end

