-- ==== Sys2Proof/Machine/Tiles.lean ====
section
/-! DEFINITION. What the tile families share: dispatched records and their shares, starting in order (R115, R131, R157), waiting on
a semaphore (R158, R159), semaphore increments and barrier arrivals (R160 to R163), counting at conversion points (R54 to R56, R86)
and completing in a tile (R156). -/
namespace Sys2Proof.Machine

/-! ### Dispatched records -/

/-- Every dispatched record still in a queue, with its window. -/
def State.running (s : State) : List (Nat × QEntry) :=
  (List.range 8).flatMap fun w => ((s.win w).queue.filter QEntry.disp).map fun e => (w, e)

def shareKey (w q t : Nat) : Nat := recKey w q * 256 + t

def State.share (s : State) (w q t : Nat) : Share := s.tile.shares.get Share.fresh (shareKey w q t)

def State.setShare (s : State) (w q t : Nat) (x : Share) : State :=
  { s with tile := { s.tile with shares := s.tile.shares.set Share.fresh (shareKey w q t) x } }

/-- The records dispatched before `e` that are not complete in tile `t`. -/
def State.earlier (s : State) (e : QEntry) (t : Nat) : List (Nat × QEntry) :=
  s.running.filter fun p => decide (p.2.order < e.order) && inSet p.2.raw t && !p.2.tiles.contains t

/-- Does the record read or write the cast stack? -/
def usesCast (r : Rec) : Bool :=
  if Rec.kind r = 1 then
    (mxOf r).a.loc == 1 || (mxOf r).b.loc == 1 || (mxOf r).dest == 1
  else if Rec.kind r = 2 then (vxOf r).aLoc == 1 || (vxOf r).bLoc == 1 || (vxOf r).oLoc == 1
  else false

/-- Is an arm bound to the record (R112)? -/
def State.armed (s : State) (w q : Nat) : Bool := s.tile.arms.any fun a => a.win == w && a.bound == some q

/-- Does the record read or write the cast stack, an arm's metadata among it? -/
def State.castUser (s : State) (w : Nat) (e : QEntry) : Bool := usesCast e.raw || s.armed w e.seq

/-- May the record run in the tile now? It is dispatched, its set holds the tile, it is not complete there, and everything it must
follow is: a sync record is a fence (R157); vector records, products and cast operations keep dispatch order (R115, R131). -/
def State.mayRun (s : State) (w : Nat) (e : QEntry) (t : Nat) : Bool :=
  e.disp && inSet e.raw t && !e.tiles.contains t &&
  (s.earlier e t).all fun p =>
    let k := Rec.kind p.2.raw
    let own := Rec.kind e.raw
    own != 4 && k != 4 &&
    !(own == 2 && k == 2) &&
    !(own == 1 && k == 1 && (s.share p.1 p.2.seq t).next < ((mxOf p.2.raw).outs ((mxOf p.2.raw).group t)).length) &&
    !(own == 3 && (k == 3 || s.castUser p.1 p.2)) && !(k == 3 && s.castUser w e)

/-! ### Semaphores -/

def State.sem (s : State) (t i : Nat) : Nat := s.tile.sems.get 0 (256 * t + i)
def State.setSem (s : State) (t i v : Nat) : State := { s with tile := { s.tile with sems := s.tile.sems.set 0 (256 * t + i) v } }

/-- A sync-fault found while records run (R504): one extra completion naming the record, the event, the count, a halted window. -/
def State.syncFault (s : State) (w q tag reason : Nat) (ps : List Bytes) : State :=
  let s := s.formReserved w 1 4 reason tag (some q)
  let s := (s.raise Ev.syncFault ps).countSat Obj.syncFaults 1
  s.haltWin w 0xA1 (256 * 4 + reason)

/-- Add `v` to a semaphore for the record `q` of window `w`, of tag `tag`; past 65 535 it is not applied and faults (R160). -/
def State.semAdd (s : State) (t i v w q tag : Nat) : State :=
  if 65535 < s.sem t i + v then s.syncFault w q tag 0x68 [p8 0x68, p8 t, p8 i] else s.setSem t i (s.sem t i + v)

/-- Begin counting a wait in a tile, under the timeout in force now (R168, R171). -/
def State.beginWait (s : State) (w q t : Nat) : State :=
  let x := s.share w q t
  if x.waitFrom.isSome then s
  else s.setShare w q t { x with waitFrom := some s.now, waitLimit := s.rd Obj.syncTimeoutMs, waitTold := false }

/-- Tile cycles since a wait began. -/
def State.waited (s : State) (x : Share) : Nat :=
  match x.waitFrom with
  | none => 0
  | some f => s.cyclesSince f

/-- A wait in a tile is over: its cycles count. -/
def State.endWait (s : State) (w q t counter : Nat) : State :=
  let x := s.share w q t
  match x.waitFrom with
  | none => s
  | some f => (s.count counter (s.cyclesSince f)).setShare w q t { x with waitFrom := none, waitTold := false }

/-- Payload bytes that the data network delivers (Table 6.7). -/
def State.delivered (s : State) (n : Nat) : State := s.count Obj.dnBytes n

/-- Does a record dispatched earlier that could start in the tile still wait on the same semaphore (R159)? -/
def State.earlierWaiter (s : State) (e : QEntry) (t i : Nat) : Bool :=
  (s.earlier e t).any fun p => waitSem p.2.raw == some i && s.mayRun p.1 p.2 t && !(s.share p.1 p.2.seq t).started

/-- Start a matrix or vector share: satisfy its semaphore wait, or begin waiting. The Bool says whether it has started (R158). -/
def State.startShare (s : State) (w : Nat) (e : QEntry) (t : Nat) (counter : Nat) : State × Bool :=
  let x := s.share w e.seq t
  if x.started then (s, true)
  else
    match waitSem e.raw with
    | none => (s.setShare w e.seq t { x with started := true }, true)
    | some i =>
      if s.earlierWaiter e t i ∨ s.sem t i = 0 then (s.beginWait w e.seq t, false)
      else
        let s := s.count counter (s.waited x)
        ((s.setSem t i (s.sem t i - 1)).setShare w e.seq t { x with started := true, waitFrom := none, waitTold := false }, true)

/-! ### Barriers -/

def State.chan (s : State) (c : Nat) : Channel := s.tile.chans.get Channel.reset c
def State.setChan (s : State) (c : Nat) (x : Channel) : State :=
  { s with tile := { s.tile with chans := s.tile.chans.set Channel.reset c x } }

/-- One arrival of a record at a channel. A disarmed channel faults and discards it; the arrival that reaches the target completes
the channel, begins the next generation and releases every tile (R162). The sync-fault event carries the reason alone (DESIGN CHOICE, log
entry 127: the rule names no parameters). -/
def State.arrive (s : State) (c w q tag : Nat) : State :=
  let x := s.chan c
  if x.target = 0 then s.syncFault w q tag 0x67 [p8 0x67]
  else if x.count + 1 = x.target then
    let s := (s.setChan c { x with count := 0, gen := (x.gen + 1) % 65536 }).count Obj.barCompletions 1
    { s with tile := { s.tile with
        relFlight := (List.range 192).foldl (fun m t => m.upd 0 (64 * t + c) (· + 1)) s.tile.relFlight } }
  else s.setChan c { x with count := x.count + 1 }

/-! ### Counting -/

/-- Kinds of conversion points (Table 2.6). -/
def kPatch : Nat := 0
def kMatrix : Nat := 1
def kVector : Nat := 2
def kCast : Nat := 3
def kWire : Nat := 4
def kReadout : Nat := 5
def kState : Nat := 6

def countKey (kind layer dir : Nat) : Nat := 512 * kind + 2 * layer + dir

def numOf (c : Cls) (l : List Cls) : Nat := (l.filter (· == c)).length

/-- Count the elements of one conversion point: the step's counts of its kind, layer and direction with their shadow classes, and
the cumulative objects (R54 to R57, R86). -/
def State.tally (s : State) (kind layer dir : Nat) (cs shadow : List Cls) : State :=
  let s := { s with tile := { s.tile with counts := s.tile.counts.upd Counts.zero (countKey kind layer dir) fun c =>
    { elem := c.elem + cs.length, sat := c.sat + numOf .saturation cs, unf := c.unf + numOf .underflow cs,
      nonfin := c.nonfin + numOf .nonfinite cs, shSat := c.shSat + numOf .saturation shadow,
      shUnf := c.shUnf + numOf .underflow shadow } } }
  (((s.count Obj.cumSaturation (numOf .saturation cs)).count Obj.cumUnderflow (numOf .underflow cs)).count
    Obj.cumNonfinite (numOf .nonfinite cs)).count Obj.cumElements cs.length

/-- Run `f` on work of step `m`: what a record counts ahead of the step in progress belongs to its own step (R55). -/
def State.inStep (s : State) (m : Option Nat) (f : State → State) : State :=
  match m, s.cmd.stepNow with
  | some m, some n =>
    if n < m then
      let t := f { s with tile := { s.tile with counts := s.tile.later.get [] m } }
      { t with tile := { t.tile with counts := s.tile.counts, later := t.tile.later.set [] m t.tile.counts } }
    else f s
  | _, _ => f s

/-- Is a layer in H16 form (R84)? Layer 0 has no form of its own. -/
def State.h16Form (s : State) (layer : Nat) : Bool := layer != 0 && s.rd (Obj.fbState layer) == 1

/-- Does a record's form field match its layer's form (R73)? -/
def State.formMatch (s : State) (form layer : Nat) : Bool :=
  form == 0 || (form == 1 && !s.h16Form layer) || (form == 2 && s.h16Form layer)

/-- The shadow classes of a line converted forward into H16 for a layer in H16 form (R86). -/
def State.shadowLine (s : State) (f : Fmt) (layer dir : Nat) (scale : Val) (xs : List OutVal) : List Cls :=
  if f = .h16 ∧ dir = 0 ∧ s.h16Form layer then (convBlock .f8 scale xs).2.map Prod.snd else []

/-! ### Cast stacks: pages and watermarks (R103 to R107) -/

def State.page (s : State) (t p : Nat) : PageUse := s.tile.pages.get .absent (t * 2 ^ 25 + p)
def State.setPage (s : State) (t p : Nat) (x : PageUse) : State :=
  { s with tile := { s.tile with pages := s.tile.pages.set .absent (t * 2 ^ 25 + p) x } }

/-- The listed pages of a tile, lowest first. -/
def State.tilePages (s : State) (t : Nat) : List (Nat × PageUse) :=
  (s.tile.pages.filter fun p => p.1 / 2 ^ 25 == t).map fun p => (p.1 % 2 ^ 25, p.2)

def pageCount (l : List (Nat × PageUse)) (us : List PageUse) : Nat := (l.filter fun p => us.contains p.2).length

/-- Frames of the slice that hold a page. -/
def State.frames (s : State) (t : Nat) : Nat := pageCount (s.tilePages t) [.resident, .movingOut, .movingIn, .dropOut, .dropIn]
/-- N of R104: resident and moving-in pages. -/
def State.inFrames (s : State) (t : Nat) : Nat := pageCount (s.tilePages t) [.resident, .movingIn]
def State.moves (s : State) (t : Nat) : Nat := pageCount (s.tilePages t) [.movingOut, .movingIn, .dropOut, .dropIn]

/-- Byte ranges (offset from the top cast, length) that a record reads and writes in a tile's cast stack (R99, R100, R112). -/
def castReads (r : Rec) (t : Nat) : List (Nat × Nat) :=
  if Rec.kind r = 1 then
    let d := mxOf r
    let rng (o : Opd) (f : Nat) (n : Nat) : List (Nat × Nat) :=
      match fmtOf f with
      | none => []
      | some f => if o.loc = 1 then (o.off, n * etBytes f) :: (if f.isBlock then [(o.bsOff, 32 * n)] else []) else []
    rng d.a d.aFmt (d.aEts (d.group t)) ++ rng d.b d.bFmt d.bEts
  else if Rec.kind r = 2 then
    let d := vxOf r
    let n := d.mEt * d.nEt
    let rng (loc f off bs : Nat) : List (Nat × Nat) :=
      match fmtOf f with
      | none => []
      | some f => if loc = 1 then
          (if d.kind = 2 then [(off, 64 * n)] else (off, n * etBytes f) :: (if f.isBlock then [(bs, 32 * n)] else [])) else []
    let bLen := if d.kind = 3 ∨ d.kind = 4 then (if d.bFmt = 0 then 2 else 4) * 1024 * n
      else if d.bcast = 1 then 64 * d.nEt else if d.bcast = 2 then 64 * d.mEt else if d.bcast = 3 then 2 else 0
    rng d.aLoc d.aFmt d.aOff d.aBs ++
      (if bLen = 0 then rng d.bLoc d.bFmt d.bOff d.bBs else if d.bLoc = 1 then [(d.bOff, bLen)] else [])
  else []

def castWrites (r : Rec) (t : Nat) : List (Nat × Nat) :=
  if Rec.kind r = 1 then
    let d := mxOf r
    if d.dest = 1 ∧ d.member t = 0 then
      match fmtOf d.outFmt with
      | none => []
      | some f => let n := d.oEts (d.group t)
        (d.oOff, n * etBytes f) :: (if f.isBlock then [(d.oBsOff, 32 * n)] else [])
    else []
  else if Rec.kind r = 2 then
    let d := vxOf r
    if d.oLoc = 1 then
      let n := d.mEt * d.nEt
      if d.kind = 1 then
        [(d.oOff, if d.redAxis = 1 then 64 * d.mEt else if d.redAxis = 2 then 64 * d.nEt else 2)]
      else if d.kind = 2 then [(d.oOff, if d.outFmt = 8 then 32 * n else 64 * n)]
      else
        match fmtOf d.outFmt with
        | none => []
        | some f => (d.oOff, n * etBytes f) :: (if f.isBlock then [(d.oBs, 32 * n)] else [])
    else []
  else []

/-- The stack pages that byte ranges at offsets from `base` touch. -/
def rangePages (base : Nat) (l : List (Nat × Nat)) : List Nat :=
  l.flatMap fun (o, n) => if n = 0 then [] else
    (List.range ((base + o + n - 1) / 65536 - (base + o) / 65536 + 1)).map fun i => (base + o) / 65536 + i

/-- Metadata bytes of an arm's section for `n` engine tiles (R110). -/
def metaBytes (kind : Nat) (h16 : Bool) (n : Nat) : Nat :=
  if kind = 1 then 128 * n else (if h16 then 2048 else 1056) * n * (if kind = 3 then 2 else 1)

/-- Bytes of the stack in use: the end of the top cast. -/
def stackEnd : List CastEnt → Nat
  | [] => 0
  | c :: _ => c.base + c.len

/-- Append an open cast; the one that was open is sealed. -/
def castPush (c : CastEnt) (l : List CastEnt) : List CastEnt :=
  c :: (match l with
    | p :: r => (if p.use = .opened then { p with use := .sealed } else p) :: r
    | [] => [])

/-- Shorten the top cast to `n` bytes; length 0 removes it. -/
def castCut (n : Nat) : List CastEnt → List CastEnt
  | [] => []
  | c :: r => if n = 0 then r else if n < c.len then { c with len := n, use := .cut } :: r else c :: r

/-- Apply a cast-control record to a stack or directory. -/
def castApply (d : Ck) (h16 : Bool) (step w q tag : Nat) (l : List CastEnt) : List CastEnt :=
  match d.op with
  | 0 => castPush { base := stackEnd l, len := 64 * d.len, layer := d.layer, mb := d.mb, form := if h16 then 1 else 0,
                    step := step, use := .opened, win := w, seq := q, tag := tag } l
  | 1 => castCut 0 l
  | 2 => castCut (64 * d.len) l
  | _ => l

/-- The tile's stack as a dispatched record will find it: the cast operations dispatched before it have run (R115). -/
def State.castsAt (s : State) (e : QEntry) (t : Nat) : List CastEnt :=
  let ops : Tab (Nat × QEntry) := ((s.earlier e t).filter fun p => Rec.kind p.2.raw == 3 && !p.2.skip).foldl (fun m p => m.insert p.2.order p) []
  ops.foldl (fun l c => castApply (ckOf c.2.2.raw) (s.h16Form (ckOf c.2.2.raw).layer) (c.2.2.step.getD 0) c.2.1 c.2.2.seq
    (Rec.tag c.2.2.raw) l) (s.casts t)

/-- Pages that some dispatched record, not yet complete, reads or writes: those of the tile's own records, and what gathers of index kind
1 read here for other tiles (R106). -/
def State.usedPages (s : State) (t : Nat) : List Nat :=
  ((s.running.filter fun p => inSet p.2.raw t && !p.2.tiles.contains t && !p.2.skip).flatMap fun p =>
    let base := ((s.castsAt p.2 t).head?.map CastEnt.base).getD 0
    rangePages base (castReads p.2.raw t ++ castWrites p.2.raw t) ++
      (s.tile.arms.filter fun a => a.win == p.1 && a.bound == some p.2.seq).flatMap fun a =>
        rangePages base [(a.metaOff, metaBytes a.kind (s.h16Form a.layer) ((mxOf p.2.raw).mEt * (mxOf p.2.raw).nEt))]) ++
  (s.running.filter fun p => Rec.kind p.2.raw == 2 && !p.2.skip).flatMap fun p =>
    let d := vxOf p.2.raw
    if d.kind = 3 ∧ d.bFmt = 1 ∧ d.aLoc = 1 then
      ((List.range 192).filter fun v => inSet p.2.raw v && !p.2.tiles.contains v).flatMap fun v =>
        rangePages (s.castBase t) (s.gatherRanges d v t)
    else []

/-- Pages of a tile homed in tier T1, or on their way there or back. -/
def State.t1Pages (s : State) (t : Nat) : Nat := pageCount (s.tilePages t) [.movingOut, .spilled, .movingIn, .dropOut, .dropIn]

/-- May the tile start another move (R104)? -/
def State.moveRoom (s : State) (t : Nat) : Bool := decide (s.moves t < s.rd Obj.castMoves)

/-- Does the plan's reservation hold another spilled page of the tile (R107)? -/
def State.reserveRoom (s : State) (t : Nat) : Bool := decide (s.t1Pages t < s.tile.reserve)

/-- Start one move if the watermarks call for it (R104): spill the lowest resident page no record uses while N > H, refill the
highest spilled page below the stack's highest page while N < W and a frame is free, at most cast_moves in flight. -/
def State.castMove (s : State) (t : Nat) : State :=
  let ps := s.tilePages t
  let used := s.usedPages t
  if ¬ s.moveRoom t then s
  else if s.rd Obj.castHighWm < s.inFrames t ∧ s.reserveRoom t then
    match ps.find? fun p => p.2 == .resident && !used.contains p.1 with
    | some p => s.setPage t p.1 .movingOut
    | none => s
  else if s.inFrames t < s.rd Obj.castLowWm ∧ s.frames t < 16 then
    match ps.reverse.find? fun p => p.2 == .spilled && decide (65536 * (p.1 + 1) < stackEnd (s.casts t)) with
    | some p => s.setPage t p.1 .movingIn
    | none => s
  else s

/-- The watermark test of a tile (R104): starts moves until none is called for. -/
def State.castTest (s : State) (t : Nat) : State := (List.range 8).foldl (fun s _ => s.castMove t) s

/-- With no frame free, spill the lowest resident page that no record uses, unless a page is already on its way out (R105). A spill
for a demand refill takes the place of the page it makes room for (R107). -/
def State.spillOne (s : State) (t : Nat) (refill : Bool) : State :=
  let ps := s.tilePages t
  if ps.any fun x => x.2 == .movingOut || x.2 == .dropOut then s
  else if ¬ s.moveRoom t ∨ ¬ (refill ∨ s.reserveRoom t) then s
  else
    match ps.find? fun x => x.2 == .resident && !(s.usedPages t).contains x.1 with
    | some x => s.setPage t x.1 .movingOut
    | none => s

/-- Make a page readable: a spilled page starts a demand refill (R105), spilling the lowest unused resident page first when no
frame is free; a moving page is waited for (R106). The Bool says whether it can be read now. -/
def State.needRead (s : State) (t p : Nat) : State × Bool :=
  match s.page t p with
  | .absent | .resident => (s, true)
  | .spilled =>
    if s.frames t < 16 then (if s.moveRoom t then ((s.setPage t p .movingIn).count Obj.castDemandRefills 1, false) else (s, false))
    else (s.spillOne t true, false)
  | _ => (s, false)

/-- Pages of a list that no cast byte has been written into. -/
def State.newPages (s : State) (t : Nat) (ps : List Nat) : List Nat := ps.eraseDups.filter fun p => s.page t p == .absent

/-- Can the pages be written: none is moving, and the new ones find frames? Spilled pages are written through (R105, R106). -/
def State.needWrites (s : State) (t : Nat) (ps : List Nat) : State × Bool :=
  if ps.any fun p => s.page t p == .movingOut || s.page t p == .movingIn || s.page t p == .dropOut || s.page t p == .dropIn then (s, false)
  else if s.frames t + (s.newPages t ps).length ≤ 16 then (s, true)
  else (s.spillOne t false, false)

/-- Ask for every page of two lists; the Bool says whether all are ready. -/
def State.needPages (s : State) (t : Nat) (reads writes : List Nat) : State × Bool :=
  let (s, a) := reads.foldl (fun (x : State × Bool) p => let (s, ok) := x.1.needRead t p; (s, x.2 && ok)) (s, true)
  let (s, b) := s.needWrites t writes
  (s, a && b)

/-- Begin or end a record's wait on cast pages in a tile: it counts in cast_stall_cycles when it ends (R105). -/
def State.pageGate (s : State) (w q t : Nat) (ok : Bool) : State :=
  let x := s.share w q t
  match ok, x.pageFrom with
  | true, some f => (s.count Obj.castStallCycles (s.cyclesSince f)).setShare w q t { x with pageFrom := none }
  | false, none => s.setShare w q t { x with pageFrom := some s.now }
  | _, _ => s

/-- Pages of a tile's cast stack, wherever they are homed. -/
def State.pagesHeld (s : State) (t : Nat) : Nat := pageCount (s.tilePages t) [.resident, .movingOut, .spilled, .movingIn]

/-- Create the pages of a list that are written now for the first time: resident, each in a frame (R103). The highest count of pages
in a stack is kept for the step (Table 4.8). -/
def State.createPages (s : State) (t : Nat) (ps : List Nat) : State :=
  let s := (s.newPages t ps).foldl (fun s p => s.setPage t p .resident) s
  { s with tile := { s.tile with depth := max s.tile.depth (s.pagesHeld t) } }

/-- The pages a record reads and writes now in a tile: asked for, and where all are ready the written ones are created. The Bool says
that all are ready. -/
def State.pagesFor (s : State) (w q t : Nat) (reads writes : List Nat) : State × Bool :=
  let (s, ok) := s.needPages t reads writes
  let s := s.pageGate w q t ok
  (if ok then s.createPages t writes else s, ok)

/-- Bytes written into spilled pages, written through to tier T1 (R105). -/
def State.throughBytes (s : State) (t : Nat) (addrs : List Nat) : Nat :=
  (addrs.filter fun a => s.page t (a / 65536) == .spilled).length

/-- Count the bytes at stack addresses that are written through. -/
def State.castThrough (s : State) (t : Nat) (addrs : List Nat) : State :=
  (s.count Obj.castWritethroughBytes (s.throughBytes t addrs)).delivered (s.throughBytes t addrs)

/-- Does a cast of the list hold a byte of stack page `p`? -/
def holdsPage (l : List CastEnt) (p : Nat) : Bool := l.any fun c => decide (c.base < 65536 * (p + 1) ∧ 65536 * p < c.base + c.len)

/-- Free the pages of bytes `lo` up to `hi` that no remaining cast of the tile holds: a moving page completes its move first (R101,
R106). -/
def State.freePages (s : State) (t lo hi : Nat) : State :=
  ((rangePages lo [(0, hi - lo)]).filter fun p => !holdsPage (s.casts t) p).foldl (fun s p =>
    match s.page t p with
    | .movingOut => s.setPage t p .dropOut
    | .movingIn => s.setPage t p .dropIn
    | .dropOut => s
    | .dropIn => s
    | _ => s.setPage t p .absent) s

/-! ### Completing in a tile (R156) -/

/-- Mark the record complete in the tile. -/
def State.reportTile (s : State) (w q t : Nat) : State := s.updEntry w q fun e => { e with tiles := setIns e.tiles t }

/-- Is the record complete in every tile of its set? -/
def QEntry.allTiles (e : QEntry) : Bool :=
  match tileSet e.raw with
  | some (a, b) => (List.range 192).all fun t => !(decide (a ≤ t ∧ t ≤ b)) || e.tiles.contains t
  | none => true

end Sys2Proof.Machine
end

