-- ==== Sys2Proof/Machine/Matrix.lean ====
section
/-! DEFINITION. Products: descriptor checks (Table 3.10), the float and exact paths of an output tile (R44, R49, R75 to R78, R501),
the split-reduction handoff (R77, R78, R167), and the drain into scratchpad, cast, span or a held bank (R79, R113, R335, R337). -/
namespace Sys2Proof.Machine

/-! ### Descriptor checks -/

def isNarrow (c : Nat) : Bool := c == 0 || c == 1
def isWide (c : Nat) : Bool := c == 2 || c == 3
def isCoded (c : Nat) : Bool := c == 4 || c == 5 || c == 6

/-- The operand combinations of Table 2.5 (R47). -/
def comboOk (a b : Nat) : Bool :=
  (a == 7 && isCoded b) || (isNarrow a && (isNarrow b || isCoded b)) || (isCoded a && isNarrow b) ||
  (isWide a && (isNarrow b || isWide b || isCoded b)) || (isWide b && (isNarrow a || isCoded a))

/-- The tiles of the set. -/
def Mx.set (d : Mx) : List Nat := (List.range d.tiles).map (d.tf + ·)

/-- An operand lies within its region and meets its alignment in a tile (reason 0x09, R247); a cast operand's extent is tested under
reason 0x25. -/
def State.opdOk (s : State) (t : Nat) (o : Opd) (f : Nat) (ets : Nat) : Bool :=
  match fmtOf f with
  | none => false
  | some f =>
    match o.loc with
    | 0 => o.off % 64 == 0 && decide (o.off + ets * etBytes f ≤ scratchBytes) &&
        (!f.isBlock || (o.bsOff % 32 == 0 && decide (o.bsOff + 32 * ets ≤ scratchBytes)))
    | 1 => o.off % 64 == 0 && (!f.isBlock || o.bsOff % 32 == 0)
    | 2 => ringOff o.off % 64 == 0 && decide (ringOff o.off < (s.ring t (ringOf o.off)).size) &&
        (!f.isBlock || (ringOff o.bsOff % 32 == 0 && decide (ringOff o.bsOff < (s.ring t (ringOf o.bsOff)).size)))
    | _ => false

/-- The output lies within its region and meets its alignment (reason 0x09); a dest-2 output names a span (R335). -/
def Mx.outOk (d : Mx) (t : Nat) : Bool :=
  match d.dest with
  | 2 => d.oOff / 1024 == 0
  | 3 => true
  | _ =>
    if d.member t ≠ 0 then true
    else
      match fmtOf d.outFmt with
      | none => false
      | some f =>
        let n := d.oEts (d.group t)
        d.oOff % 64 == 0 && (!f.isBlock || d.oBsOff % 32 == 0) &&
          (d.dest == 1 || (decide (d.oOff + n * etBytes f ≤ scratchBytes) &&
            (!f.isBlock || decide (d.oBsOff + 32 * n ≤ scratchBytes))))

/-- The lowest failing reason of Table 3.10, 0 if none fails. -/
def State.mxCheck (s : State) (d : Mx) : Nat :=
  if ¬ comboOk d.aFmt d.bFmt then 0x01
  else if isCoded d.aFmt then 0x02
  else if d.kBlocks = 0 ∨ 65536 < d.kBlocks then 0x03
  else if d.aFmt = 7 ∧ (d.aTrans ∨ d.bTrans) then 0x04
  else if ¬ (if d.dest ≤ 1 then decide (d.outFmt ≤ 3) else d.outFmt == 15) then 0x05
  else if ¬ (d.tf ≤ d.tl ∧ d.tl ≤ 191) then 0x06
  else if ¬ (d.split ≤ 4 ∧ d.tiles % d.s = 0 ∧ d.kBlocks % d.s = 0) then 0x07
  else if d.mEt = 0 ∨ d.nEt = 0 then 0x08
  else if ¬ d.set.all (fun t => s.opdOk t d.a d.aFmt (d.aEts (d.group t)) && s.opdOk t d.b d.bFmt d.bEts && d.outOk t) then 0x09
  else if d.form = 3 ∨ (d.layer = 0 ∧ d.form ≠ 0) then 0x0A
  else 0

/-! ### Words of the accumulator file -/

/-- The 64-bit word of a wide accumulator (R77). -/
def wideWord : Val → Nat
  | .nan => 2 ^ 12
  | .fin x =>
    if x.isZero then 0
    else
      let b : Int := max x.log2 (-510)
      (if x.isNeg then 2 ^ 63 else 0) + ((b + 510).toNat * 2 ^ 40 + x.floorAbs (b - 40)) * 2 ^ 13

/-- Read a wide accumulator's word. -/
def wordWide (w : Nat) : Val :=
  if w / 2 ^ 12 % 2 = 1 then .nan
  else
    let m : Nat := w / 2 ^ 13 % 2 ^ 50
    let f : Nat := m % 2 ^ 40
    let e : Nat := m / 2 ^ 40
    let sg : Int := if w / 2 ^ 63 % 2 = 1 then -1 else 1
    if e = 0 then .fin (.dy (sg * Int.ofNat f) (-550)) else .fin (.dy (sg * Int.ofNat (2 ^ 40 + f)) (Int.ofNat e - 551))

/-- A long accumulator with its flags (R44). -/
structure Long where
  l : Int
  nan : Bool
  pos : Bool
  neg : Bool
  lost : Bool
  deriving DecidableEq, Repr

/-- The 128-bit word of a long accumulator (R78): 96 bits, then nan, pos_sat, neg_sat, lost in bits 99 to 96. -/
def longWord (x : Long) : Nat :=
  ofInt 96 x.l + 2 ^ 96 * ((if x.nan then 8 else 0) + (if x.pos then 4 else 0) + (if x.neg then 2 else 0) + (if x.lost then 1 else 0))

def wordLong (w : Nat) : Long :=
  { l := toInt 96 w, nan := w / 2 ^ 99 % 2 == 1, pos := w / 2 ^ 98 % 2 == 1, neg := w / 2 ^ 97 % 2 == 1,
    lost := w / 2 ^ 96 % 2 == 1 }

/-! ### One output element -/

/-- One run of at most 16 products: none if no product is nonzero and finite (R49). -/
def runSum (ps : List Val) : Option Ex :=
  let fs := (ps.filter fun v => !v.isNan && !v.isZero).map Val.ex
  match fs with
  | [] => none
  | x :: r =>
    let t := r.foldl (fun t y => max t y.log2) x.log2
    let sum := fs.foldl (fun (a : Int) y => let m : Int := y.floorAbs (t - 24); if y.isNeg then a - m else a + m) 0
    some (.dy sum (t - 24))

/-- The wide accumulator `a` after `n` more products `f 0, f 1, …` in runs of 16 (R49, R50, R76). -/
def floatSum (a : Val) (f : Nat → Val) (n : Nat) : Val :=
  let a0 : Ex × Bool := match a with
    | .nan => (Ex.zero, true)
    | .fin x => (x, false)
  let (acc, nan) := (List.range (ceilDiv n 16)).foldl (fun (a : Ex × Bool) j =>
    let ps := (List.range (min 16 (n - 16 * j))).map fun i => f (16 * j + i)
    let bad := a.2 || ps.any Val.isNan
    match runSum ps with
    | none => (a.1, bad)
    | some r => (roundWide (a.1.add r), bad)) a0
  if nan then .nan else .fin acc

/-- Add one block's sum into a long accumulator (R44): `bsum`, and the combined shift; none for a NaN block. -/
def longAdd (x : Long) (blk : Option (Int × Int)) : Long :=
  match blk with
  | none => { x with nan := true }
  | some (bsum, sh) =>
    if 62 < sh then { x with pos := x.pos || decide (0 < bsum), neg := x.neg || decide (bsum < 0) }
    else if 0 ≤ sh then { x with l := x.l + bsum * (2 : Int) ^ sh.toNat }
    else { x with lost := x.lost || decide (bsum % (2 : Int) ^ (-sh).toNat ≠ 0), l := x.l + bsum / (2 : Int) ^ (-sh).toNat }

/-- Join two long accumulators: exact sum, flags or-ed (R78). -/
def longJoin (x y : Long) : Long :=
  { l := x.l + y.l, nan := x.nan || y.nan, pos := x.pos || y.pos, neg := x.neg || y.neg, lost := x.lost || y.lost }

/-! ### The operands of an output tile (R501) -/

/-- Ordinal of a row group among the row groups of a group. -/
def Mx.rowOrd (d : Mx) (g rg : Nat) : Nat := ((d.groupRows g).filter (· < rg)).length

/-- Engine tiles of operand A and B a staging ring has delivered before output tile `o` of group `g` (R501). -/
def Mx.aBefore (d : Mx) (g o : Nat) : Nat := (((d.outs g).filter (· < o)).map fun t => d.outRows t / 32 * d.share).sum
def Mx.bBefore (d : Mx) (g o : Nat) : Nat := (((d.outs g).filter (· < o)).map fun t => d.share * (d.outCols t / 32)).sum
/-- Engine tiles of the output before output tile `o` (R501). -/
def Mx.oBefore (d : Mx) (g o : Nat) : Nat := (((d.outs g).filter (· < o)).map d.outEts).sum

/-- Where element (row m, reduction index k) of operand A of output tile `o` lies: engine tile, line, element. -/
def Mx.aPos (d : Mx) (g o m k : Nat) : Nat × Nat × Nat :=
  if d.a.loc = 2 then
    let (et, r, c) := etPos d.aTrans (32 * d.share) m k
    (d.aBefore g o + et, r, c)
  else etPos d.aTrans (32 * d.share) (d.rowOrd g (o % d.rowGroups) * d.mode.rows + m) k

/-- Where element (reduction index k, column n) of operand B of output tile `o` lies. -/
def Mx.bPos (d : Mx) (g o k n : Nat) : Nat × Nat × Nat :=
  if d.b.loc = 2 then
    let (et, r, c) := etPos (!d.bTrans) (d.outCols o) k n
    (d.bBefore g o + et, r, c)
  else etPos (!d.bTrans) (32 * d.nEt) k (o / d.rowGroups * d.mode.cols + n)

/-- Passes of a member's share (R76, R78), and the first block and the number of blocks of one. -/
def Mx.passes (d : Mx) : Nat := ceilDiv (32 * d.share) d.mode.pass
def Mx.passBlocks (d : Mx) (p : Nat) : Nat × Nat :=
  let k := d.mode.pass / 32
  (p * k, min k (d.share - p * k))

/-- The accumulator word `acc` of output element (m, n) of output tile `o` after pass `p` of the member in tile `t`. -/
def State.mxElem (s : State) (d : Mx) (t o p m n acc : Nat) : Nat :=
  let g := d.group t
  let (first, blocks) := d.passBlocks p
  let fa := (fmtOf d.aFmt).getD .f8
  let fb := (fmtOf d.bFmt).getD .f8
  let ra := s.opByte t d.a.loc d.a.off
  let sa := s.opByte t d.a.loc d.a.bsOff
  let rb := s.opByte t d.b.loc d.b.off
  let sb := s.opByte t d.b.loc d.b.bsOff
  if d.mode.exact then
    longWord ((List.range blocks).foldl (fun x i =>
      let b := first + i
      let (ea, la, _) := d.aPos g o m (32 * b)
      let (eb, lb, _) := d.bPos g o (32 * b) n
      let ca := sa (32 * ea + la)
      let cb := sb (32 * eb + lb)
      if ca = 255 ∨ cb = 255 ∨ lineBad fb rb eb lb then longAdd x none
      else
        let bsum := (List.range 32).foldl (fun (a : Int) i => a + intForm fa (etCode fa ra ea la i) * intForm fb (etCode fb rb eb lb i)) 0
        longAdd x (some (bsum, ((cb : Int) - 127) + ((ca : Int) - 127) - fb.half + 48))) (wordLong acc))
  else
    wideWord (floatSum (wordWide acc) (fun i =>
      let k := 32 * first + i
      let (ea, la, ia) := d.aPos g o m k
      let (eb, lb, ib) := d.bPos g o k n
      (etVal fa ra sa ea la ia).map₂ Ex.mul (etVal fb rb sb eb lb ib)) (32 * blocks))

/-- The entries `ents` of output tile `o` after pass `p` in tile `t`: entry columns × row + column, zero words left out (R128). -/
def State.mxEntries (s : State) (d : Mx) (t o p : Nat) (ents : Tab Nat) : Tab Nat :=
  (List.range (d.outRows o)).flatMap fun m => (List.range (d.outCols o)).filterMap fun n =>
    let w := s.mxElem d t o p m n (ents.get 0 (d.mode.cols * m + n))
    if w = 0 then none else some (d.mode.cols * m + n, w)

/-! ### The bytes a pass reads (R75, R501) -/

/-- Runs of engine tiles (first, count) of operand A that pass `p` of output tile `o` reads. -/
def Mx.aRuns (d : Mx) (g o p : Nat) : List (Nat × Nat) :=
  let (first, n) := d.passBlocks p
  let base := if d.a.loc = 2 then d.aBefore g o else d.rowOrd g (o % d.rowGroups) * (d.mode.rows / 32) * d.share
  (List.range (d.outRows o / 32)).map fun i => (base + i * d.share + first, n)

/-- The same of operand B: in a staging ring the blocks of the passes stand one after another. -/
def Mx.bRuns (d : Mx) (g o p : Nat) : List (Nat × Nat) :=
  let (first, n) := d.passBlocks p
  let cols := d.outCols o / 32
  if d.b.loc = 2 then [(d.bBefore g o + first * cols, n * cols)]
  else (List.range n).map fun i => ((first + i) * d.nEt + o / d.rowGroups * (d.mode.cols / 32), cols)

/-- Byte ranges (offset field, first byte, length) of runs of an operand's engine tiles: codes and scales. -/
def Opd.ranges (x : Opd) (f : Nat) (runs : List (Nat × Nat)) : List (Nat × Nat × Nat) :=
  match fmtOf f with
  | none => []
  | some f => runs.flatMap fun (e, n) => (x.off, e * etBytes f, n * etBytes f) :: (if f.isBlock then [(x.bsOff, 32 * e, 32 * n)] else [])

/-- Byte ranges that pass `p` of output tile `o` reads in a location (Table 3.7). -/
def Mx.reads (d : Mx) (g o p loc : Nat) : List (Nat × Nat × Nat) :=
  (if d.a.loc = loc then d.a.ranges d.aFmt (d.aRuns g o p) else []) ++ (if d.b.loc = loc then d.b.ranges d.bFmt (d.bRuns g o p) else [])

/-! ### Staging rings under a product (R250, R252) -/

def State.setRing (s : State) (t r : Nat) (x : Ring) : State :=
  { s with tile := { s.tile with rings := s.tile.rings.set Ring.off (4 * t + r) x } }

/-- The granules that `n` bytes from ring offset `o` touch. -/
def Ring.granules (g : Ring) (o n : Nat) : List Nat :=
  if n = 0 ∨ g.size = 0 then [] else ((List.range ((o + n - 1) / 64 - o / 64 + 1)).map fun i => (o / 64 + i) % (g.size / 64)).eraseDups

/-- The load of operand A that ends with output tile `o`, and of operand B that ends with its pass `p` (R250). -/
def Mx.aLoad (d : Mx) (g o : Nat) : List (Nat × Nat × Nat) :=
  if d.a.loc = 2 then d.a.ranges d.aFmt [(d.aBefore g o, d.outRows o / 32 * d.share)] else []
def Mx.bLoad (d : Mx) (g o p : Nat) : List (Nat × Nat × Nat) := if d.b.loc = 2 then d.b.ranges d.bFmt (d.bRuns g o p) else []

/-- Have the staged bytes that pass `p` of an output tile reads landed (R252)? -/
def State.stagedReady (s : State) (d : Mx) (t o p : Nat) : Bool :=
  (d.reads (d.group t) o p 2).all fun (fld, first, n) =>
    let g := s.ring t (ringOf fld)
    (g.granules (ringOff fld + first) n).all fun i => (g.grans.get Granule.empty i).landed

/-- Release the pages of a ring whose filled granules have all reached their uses value (R250). -/
def Ring.release (g : Ring) : Ring :=
  { g with grans := (List.range g.pages).foldl (fun (m : Tab Granule) p =>
      let mine := m.filter fun e => e.1 / 1024 == p && e.2.landed
      if mine ≠ [] ∧ mine.all (fun e => decide (e.2.uses ≤ e.2.count)) then m.filter fun e => !(e.1 / 1024 == p && e.2.landed)
      else m) g.grans }

/-- Granules of a tile's ring `r` that pass `p` of an output tile reads. -/
def State.wantsOf (s : State) (d : Mx) (t o p r : Nat) : List Nat :=
  ((d.reads (d.group t) o p 2).filter fun x => ringOf x.1 == r).flatMap fun (fld, first, n) => (s.ring t r).granules (ringOff fld + first) n

/-- Count a load against the granules it read, and release finished pages (R250). -/
def State.countLoad (s : State) (t : Nat) (load : List (Nat × Nat × Nat)) : State :=
  load.foldl (fun s (fld, first, n) =>
    let r := ringOf fld
    let g := s.ring t r
    let m := (g.granules (ringOff fld + first) n).foldl (fun m i => m.upd Granule.empty i fun x => { x with count := x.count + 1 }) g.grans
    s.setRing t r ({ g with grans := m }).release) s

/-- Count the loads of a whole output tile, as an executing record would make them (R250). -/
def State.countLoads (s : State) (d : Mx) (t o : Nat) : State :=
  ((List.range d.passes).foldl (fun s p => s.countLoad t (d.bLoad (d.group t) o p)) s).countLoad t (d.aLoad (d.group t) o)

/-! ### MATRIX: an output tile of a share, pass by pass -/

def State.bank (s : State) (t i : Nat) : Bank := s.tile.banks.get Bank.empty (2 * t + i)
def State.setBank (s : State) (t i : Nat) (b : Bank) : State :=
  { s with tile := { s.tile with banks := s.tile.banks.set Bank.empty (2 * t + i) b } }

/-- A free bank of the tile (R80). -/
def State.freeBank (s : State) (t : Nat) : Option Nat := [0, 1].find? fun i => (s.bank t i).use == .free

/-- The bank of the tile that holds output tile `o` of a record. -/
def State.bankOf (s : State) (t key o : Nat) : Option Nat :=
  [0, 1].find? fun i => (s.bank t i).use == .full && (s.bank t i).owner == key && (s.bank t i).out == o

/-- The bank that a record is filling in a tile, and the pass that comes next. -/
def State.fillingBank (s : State) (t key : Nat) : Option Nat := [0, 1].find? fun i => (s.bank t i).use == .filling && (s.bank t i).owner == key
def State.passNow (s : State) (t key : Nat) : Nat :=
  match s.fillingBank t key with
  | some b => (s.bank t b).pass
  | none => 0

/-- Cycles with cells active for one output tile: passes × max(rows, L), a short last pass like the others (R81, Table 3.11; DESIGN CHOICE,
log entry 127). -/
def Mx.busy (d : Mx) (o : Nat) : Nat :=
  let k := d.mode.pass
  let n := d.outCols o
  let l := match fmtOf d.bFmt with
    | some .q4 => if d.bTrans then k * n / 32 else k * n / 2 / 128
    | some .w2 => if d.bTrans then k * n / 32 else k * n / 4 / 128
    | some .t1 => if d.bTrans then k * n / 32 else k * n * 7 / 32 / 128
    | some f => k * n * f.bits / 8 / 128
    | none => 0
  ceilDiv (32 * d.share) k * max (d.outRows o) l

/-- The output tile a share would begin next, if one is left. -/
def State.nextOut (s : State) (d : Mx) (w q t : Nat) : Option Nat := (d.outs (d.group t))[(s.share w q t).next]?

/-- The cast pages that pass `p` of an output tile reads. -/
def State.mxReads (s : State) (d : Mx) (t o p : Nat) : List Nat :=
  rangePages (s.castBase t) ((d.reads (d.group t) o p 1).map fun (off, first, n) => (off + first, n))

/-- A product waits while neither bank is free; cycles on a held bank count once it has one (R80, R82). -/
def State.bankWait (s : State) (w q t : Nat) : State :=
  let x := s.share w q t
  if x.heldFrom = none ∧ [0, 1].any (fun i => (s.bank t i).use == .held) then s.setShare w q t { x with heldFrom := some s.now } else s

def State.bankWaitEnd (s : State) (w q t : Nat) : State :=
  let x := s.share w q t
  match x.heldFrom with
  | none => s
  | some f => (s.count Obj.mxStallOperand (s.cyclesSince f)).setShare w q t { x with heldFrom := none }

/-- The output tile takes a free bank when it begins, and keeps it through its passes; none while neither is free (R80). -/
def State.takeBank (s : State) (w : Nat) (e : QEntry) (d : Mx) (t o : Nat) : State × Option Nat :=
  match s.fillingBank t (recKey w e.seq) with
  | some b => (s, some b)
  | none =>
    match s.freeBank t with
    | none => (s.bankWait w e.seq t, none)
    | some b =>
      ((s.bankWaitEnd w e.seq t).setBank t b
        { use := .filling, owner := recKey w e.seq, out := o, exact := d.mode.exact, sa := d.a.scale, sb := d.b.scale,
          folded := 0, pass := 0, order := 0, ents := [] }, some b)

/-- One pass of an output tile: its blocks are accumulated, and operand B's load is counted (R76, R78, R250). -/
def State.onePass (s : State) (d : Mx) (t o b : Nat) : State :=
  let x := s.bank t b
  (s.setBank t b { x with pass := x.pass + 1, ents := s.mxEntries d t o x.pass x.ents }).countLoad t (d.bLoad (d.group t) o x.pass)

/-- Every pass is done: the bank is full, operand A's load is counted, the share moves on. -/
def State.outFull (s : State) (w : Nat) (e : QEntry) (d : Mx) (t o b : Nat) : State :=
  let s := s.countLoad t (d.aLoad (d.group t) o)
  let x := s.share w e.seq t
  let s := (s.setShare w e.seq t { x with next := x.next + 1 }).count Obj.mxBusyCycles (d.busy o)
  s.setBank t b { s.bank t b with use := .full, pass := 0 }

/-- The passes that are left, `n` of them, as far as staged weights and cast pages are there (R105, R252). -/
def State.runPasses (s : State) (w : Nat) (e : QEntry) (d : Mx) (t o b : Nat) : Nat → State
  | 0 => s.outFull w e d t o b
  | n + 1 =>
    let p := (s.bank t b).pass
    if ¬ s.stagedReady d t o p then s.beginWait w e.seq t
    else
      let (s, ready) := (s.endWait w e.seq t Obj.mxStallWeight).pagesFor w e.seq t (s.mxReads d t o p) []
      if ready then (s.onePass d t o b).runPasses w e d t o b n else s

/-- Tile `t` runs the next output tile of its share of product `q` of window `w`: it takes a bank and accumulates pass by pass. It waits
on its semaphore, on a bank, on staged weights or on cast pages, keeping the passes done (R75, R76, R80, R82, R105, R252). -/
def State.runMatrix (s : State) (w : Nat) (e : QEntry) (t : Nat) : State :=
  let d := mxOf e.raw
  if ¬ s.mayRun w e t ∨ e.skip then s
  else
    let (s, ok) := s.startShare w e t Obj.mxStallOperand
    if ¬ ok then s
    else
      match s.nextOut d w e.seq t with
      | none => s
      | some o =>
        match s.takeBank w e d t o with
        | (s, none) => s
        | (s, some b) => s.runPasses w e d t o b (d.passes - (s.bank t b).pass)

def execMatrix (w : Fin 8) (q : Nat) (t : Fin 192) (s : State) : Host.Outcome State Fault Refusal :=
  match s.entry w q with
  | some e => if Rec.kind e.raw = 1 ∧ s.arrayOn then .next (s.runMatrix w e t) else .next s
  | none => .next s

/-! ### SPLIT_HANDOFF -/

/-- Fold member words into member 0's, entry by entry (R77, R78). -/
def foldWord (exact : Bool) (a b : Nat) : Nat :=
  if exact then longWord (longJoin (wordLong a) (wordLong b))
  else
    match wordWide a, wordWide b with
    | .fin x, .fin y => wideWord (.fin (roundWide (x.add y)))
    | _, _ => wideWord .nan

def foldBanks (exact : Bool) (n : Nat) (a b : Tab Nat) : Tab Nat :=
  (List.range n).filterMap fun i =>
    let w := foldWord exact (a.get 0 i) (b.get 0 i)
    if w = 0 then none else some (i, w)

/-- Member 0, in tile `t`, folds the next member's share of its oldest finished output tile once both are complete, and that member's
bank frees (R77, R78, R167). -/
def State.handoff (s : State) (w : Nat) (e : QEntry) (t : Nat) : State :=
  let d := mxOf e.raw
  let key := recKey w e.seq
  if d.s ≤ 1 ∨ d.member t ≠ 0 ∨ e.skip then s
  else
    match (d.outs (d.group t))[(s.share w e.seq t).done]? with
    | none => s
    | some o =>
      match s.bankOf t key o with
      | none => s
      | some i =>
        let b := s.bank t i
        let m := t + b.folded + 1
        if d.s ≤ b.folded + 1 then s
        else
          match s.bankOf m key o with
          | none => s
          | some j =>
            let c := s.bank m j
            let s := s.setBank t i { b with folded := b.folded + 1, ents := foldBanks b.exact 32768 b.ents c.ents }
            let s := s.setBank m j Bank.empty
            let y := s.share w e.seq m
            ((s.setShare w e.seq m { y with done := y.done + 1 }).count Obj.cnMessages 1).delivered (32768 * (if b.exact then 16 else 8))

def execSplitHandoff (w : Fin 8) (q : Nat) (t : Fin 192) (s : State) : Host.Outcome State Fault Refusal :=
  match s.entry w q with
  | some e => if Rec.kind e.raw = 1 ∧ e.disp ∧ s.arrayOn then .next (s.handoff w e t) else .next s
  | none => .next s

/-! ### OUTPUT_TILE_DRAIN -/

/-- The value of an accumulator word before conversion (R44, R49, R77, R79). -/
def accOut (exact : Bool) (sa sb : Val) (w : Nat) : OutVal :=
  match sa, sb with
  | .fin x, .fin y =>
    if exact then
      let l := wordLong w
      if l.nan ∨ (l.pos ∧ l.neg) then .nan
      else if l.pos then .sat false
      else if l.neg then .sat true
      else .fin ((Ex.dy l.l (-48)).mul (x.mul y)) l.lost
    else
      match wordWide w with
      | .nan => .nan
      | .fin v => .fin (v.mul (x.mul y)) false
  | _, _ => .nan

/-- Multiply an output by a factor of a fused drain (R113). A lost flag stays with a product that is zero (DESIGN CHOICE, log entry 127). -/
def OutVal.times (o : OutVal) (f : Val) : OutVal :=
  match o, f with
  | .nan, _ => .nan
  | _, .nan => .nan
  | .fin x lost, .fin y => .fin (x.mul y) lost
  | .sat neg, .fin y => if y.isZero then .fin .zero false else .sat (neg != y.isNeg)

/-- The derivative table of an arm (Table 4.10), read from the scratchpad when the product drains. -/
structure DTable where
  zmin : Val
  dlog : Int
  hasVk : Bool
  dk : Nat → Val
  vk : Nat → Val

def State.dTable (s : State) (t off : Nat) : DTable :=
  let h (a : Nat) : Val := decodeFloat .h16 (s.scratchByte t (off + a) + 256 * s.scratchByte t (off + a + 1))
  { zmin := h 0, dlog := toInt 8 (s.scratchByte t (off + 2)), hasVk := s.scratchByte t (off + 3) % 2 == 1,
    dk := fun i => h (4 + 2 * i), vk := fun i => h (134 + 2 * i) }

/-- `pwl` of R113: piecewise linear, rounded once to H16, uncounted. -/
def pwl (z : Val) (tab : DTable) (k : Nat → Val) : Val :=
  match z, tab.zmin with
  | .fin z, .fin zm =>
    if tab.dlog < -16 ∨ 15 < tab.dlog then .nan
    else
      let u := (z.sub zm).scale (-tab.dlog)
      let (i, t) : Nat × Ex := if u.le .zero then (0, .zero) else if (Ex.int 64).le u then (63, .int 1)
        else (u.floor.toNat, u.sub (.int u.floor))
      match k i, k (i + 1) with
      | .fin a, .fin b => decodeFloat .h16 (toFloat .h16 (.fin (a.add (t.mul (b.sub a))))).1
      | _, _ => .nan
  | _, _ => .nan

/-- The outputs of one position of an armed drain: one, or two for a gated pair (R113). `mp` is the position's engine tile in the
section, its line and element. -/
def State.armOut (s : State) (t : Nat) (a : Arm) (h16 : Bool) (ets : Nat) (et r c : Nat) (g : OutVal) : OutVal × Option OutVal :=
  let base := a.metaOff
  let rd (o i : Nat) : Nat := s.castByte t (s.castBase t + base + o + i)
  let pre (o : Nat) (scale : Nat) : Val :=
    let f : Fmt := if h16 then .h16 else .f8
    (etVal f (rd o) (rd (o + ets * etBytes f)) et r c).map₂ Ex.mul (tensorScale scale)
  if a.kind = 1 then
    let bit := rd 0 (128 * et + 4 * r + c / 8) / 2 ^ (c % 8) % 2
    (g.times (.fin (.int bit)), none)
  else
    let tab := s.dTable t a.tabOff
    if a.kind = 2 then (g.times (pwl (pre 0 a.metaScale) tab tab.dk), none)
    else
      let va := pre 0 a.aScale
      let vb := pre (metaBytes 2 h16 ets) a.metaScale
      let val := if tab.hasVk then pwl vb tab tab.vk else .nan
      (g.times val, some (g.times (va.map₂ Ex.mul (pwl vb tab tab.dk))))

/-- Store one line of converted values at engine tile `et`, line `r`, of a tensor whose codes and scales stand at the given bytes:
converts, writes, counts (R41, R42, R54). -/
def State.storeLine (s : State) (t : Nat) (cast : Bool) (f : Fmt) (scale : Val) (codes scales et r : Nat) (kind layer dir : Nat)
    (xs : List OutVal) : State :=
  let (cs, e, cl) := convLine f scale xs
  let s := s.tally kind layer dir cl (s.shadowLine f layer dir scale xs)
  let bytes := lineBytes f (codes + et * etBytes f) r cs ++ (match e with | some e => [(scales + 32 * et + r, e)] | none => [])
  let s := if cast then s.castThrough t (bytes.map Prod.fst) else s
  s.putBytes t cast bytes

/-- The 32 values of line `r` of engine tile (I, J) of an output tile. -/
def lineVals (oAxis : Nat) (i j r : Nat) (g : Nat → Nat → OutVal) : List OutVal :=
  (List.range 32).map fun c => if oAxis = 0 then g (32 * i + r) (32 * j + c) else g (32 * i + c) (32 * j + r)

/-- The kind of conversion point of a drain: a push into a cast format narrower than the accumulator value, which F8, G8 and H16 are, is of
kind cast (Table 2.6; DEDUCED, log entry 18). -/
def Mx.pushKind (d : Mx) : Nat := if d.dest = 1 ∧ d.outFmt ≠ 3 then kCast else kMatrix

/-- Byte ranges, from the base of the cast, that the drain of output tile `o` of group `g` writes. -/
def Mx.drainRanges (d : Mx) (g o : Nat) : List (Nat × Nat) :=
  match fmtOf d.outFmt with
  | none => []
  | some f =>
    let b := d.oBefore g o
    let n := d.outEts o
    if d.dest ≠ 1 then []
    else (d.oOff + b * etBytes f, n * etBytes f) :: (if f.isBlock then [(d.oBsOff + 32 * b, 32 * n)] else [])

/-- Drain an output tile into scratchpad or cast (R79, R113). -/
def State.drainStore (s : State) (d : Mx) (arm : Option Arm) (t o : Nat) (b : Bank) : State :=
  let f := (fmtOf d.outFmt).getD .f8
  let scale := tensorScale d.oScale
  let sa := tensorScale b.sa
  let sb := tensorScale b.sb
  let base := if d.dest = 1 then s.castBase t else 0
  let kind := d.pushKind
  let before := d.oBefore (d.group t) o
  let ncols := d.outCols o / 32
  let g (m n : Nat) : OutVal := accOut b.exact sa sb (b.ents.get 0 (d.mode.cols * m + n))
  let rg := o % d.rowGroups
  let cg := o / d.rowGroups
  let h16 := (arm.map fun a => s.h16Form a.layer).getD false
  let ets := d.mEt * d.nEt
  (List.range (d.outRows o / 32)).foldl (fun s i => (List.range ncols).foldl (fun s j => (List.range 32).foldl (fun s r =>
    let et := before + i * ncols + j
    match arm with
    | none => s.storeLine t (d.dest == 1) f scale (base + d.oOff) (base + d.oBsOff) et r kind d.layer d.dir (lineVals d.oAxis i j r g)
    | some a =>
      let met := (rg * d.mode.rows / 32 + i) * d.nEt + cg * d.mode.cols / 32 + j
      let outs := (lineVals d.oAxis i j r g).zipIdx.map fun (v, c) => s.armOut t a h16 ets met r c v
      let s := s.storeLine t false f scale d.oOff d.oBsOff et r kMatrix d.layer d.dir (outs.map Prod.fst)
      if a.kind = 3 then
        s.storeLine t false f scale a.o2Off a.o2BsOff et r kMatrix d.layer d.dir (outs.map fun p => p.2.getD .nan)
      else s) s) s) s

/-! ### Spans (R335 to R337) -/

def Span.absent : Span :=
  { win := 0, seq := 0, layer := 0, dir := 0, step := 0, blocks := 0, uLoc := 0, adders := [], reduce := none, sums := [],
    evicted := [], touched := [] }

/-- Add one output element into a span element (R337). -/
def SumCell.add (x : SumCell) (u : Val) (g : OutVal) : SumCell :=
  match u, g with
  | .nan, _ => { x with flag := 3 }
  | _, .nan => { x with flag := 3 }
  | _, .sat neg => { sum := x.sum + (if neg then -(2 ^ 26 - 1) else 2 ^ 26 - 1), flag := max x.flag 2 }
  | .fin u, .fin v _ =>
    let c := (v.div u).round
    if 2 ^ 26 - 1 < c then { sum := x.sum + (2 ^ 26 - 1), flag := max x.flag 2 }
    else if c < -(2 ^ 26 - 1) then { sum := x.sum - (2 ^ 26 - 1), flag := max x.flag 2 }
    else if c = 0 ∧ ¬ v.isZero then { x with flag := max x.flag 1 }
    else { x with sum := x.sum + c }

/-- Touch sum pages of a span: they come into buffers and become the most recently touched (R336). -/
def State.touchPages (s : State) (n : Nat) (x : Span) (pages : List Nat) : State :=
  { s with touches := s.touches + 1,
           spans := s.spans.insert n { x with touched := pages.foldl (fun m p => m.insert p (s.touches + 1)) x.touched,
                                              evicted := x.evicted.filter fun p => !pages.contains p } }

/-- The sum pages, of 480 blocks each, that blocks `lo` to `hi` lie in. -/
def blockPages (lo hi : Nat) : List Nat := (List.range (hi / 480 - lo / 480 + 1)).map (lo / 480 + ·)

/-- Drain an output tile into a span: exact addition, or NaN flags and span-fault where the span cannot take it (R335, R337). -/
def State.drainSpan (s : State) (w : Nat) (e : QEntry) (d : Mx) (o : Nat) (b : Bank) : State :=
  let n := d.oOff % 1024
  let sa := tensorScale b.sa
  let sb := tensorScale b.sb
  let rg := o % d.rowGroups
  let cg := o / d.rowGroups
  let key := recKey w e.seq
  let ets := (List.range (d.outRows o / 32)).flatMap fun i => (List.range (d.outCols o / 32)).map fun j =>
    (i, j, d.oBsOff + (rg * d.mode.rows / 32 + i) * d.nEt + cg * d.mode.cols / 32 + j)
  match s.spans.find n with
  | none => (s.raise Ev.spanFault []).countSat Obj.spanFaults 1
  | some x =>
    let adders := setIns x.adders key
    let bad := decide (32 < adders.length) || x.reduce.isSome || ets.any fun p => decide (x.blocks ≤ 32 * p.2.2 + 31)
    let u := tensorScale x.uLoc
    let sums := ets.foldl (fun m (i, j, et) => (List.range 32).foldl (fun m r => (List.range 32).foldl (fun m c =>
      let k := 1024 * et + 32 * r + c
      if 32 * x.blocks ≤ k then m
      else m.upd SumCell.zero k fun y =>
        if bad then { y with flag := 3 }
        else y.add u (accOut b.exact sa sb (b.ents.get 0 (d.mode.cols * (32 * i + r) + (32 * j + c))))) m) m) x.sums
    let pages := ((ets.filter fun p => decide (32 * p.2.2 < x.blocks)).flatMap fun p => blockPages (32 * p.2.2) (32 * p.2.2 + 31)).eraseDups
    let s := (s.touchPages n { x with adders := adders, sums := sums } pages).delivered (d.outRows o * d.outCols o * (if b.exact then 16 else 8))
    if bad then (s.raise Ev.spanFault []).countSat Obj.spanFaults 1 else s

/-- The arm bound to a product, if any. -/
def State.armOf (s : State) (w q : Nat) : Option Arm := s.tile.arms.find? fun a => a.win == w && a.bound == some q

/-- The bank moves on after its drain: freed, or held for the vector engine with the operands' scales (R79, R80, R127). -/
def State.drained (s : State) (w : Nat) (e : QEntry) (d : Mx) (t i : Nat) (b : Bank) : State :=
  let x := s.share w e.seq t
  let s := s.setShare w e.seq t { x with done := x.done + 1 }
  if d.dest = 3 then
    let s := { s with tile := { s.tile with holds := s.tile.holds + 1 } }
    s.setBank t i { b with use := .held, order := s.tile.holds }
  else s.setBank t i Bank.empty

/-- Ask for the cast pages a drain needs: an arm's metadata to read, the cast's own bytes to write (R105, R112). -/
def State.drainPages (s : State) (w : Nat) (e : QEntry) (t o : Nat) : State × Bool :=
  let d := mxOf e.raw
  let reads := match s.armOf w e.seq with
    | none => []
    | some a => rangePages (s.castBase t) [(a.metaOff, metaBytes a.kind (s.h16Form a.layer) (d.mEt * d.nEt))]
  s.pagesFor w e.seq t reads (rangePages (s.castBase t) (d.drainRanges (d.group t) o))

/-- Member 0, in tile `t`, drains its oldest finished output tile (R79). A cast output or an arm's metadata waits for its pages. -/
def State.drain (s : State) (w : Nat) (e : QEntry) (t : Nat) : State :=
  let d := mxOf e.raw
  if d.member t ≠ 0 ∨ e.skip then s
  else
    match (d.outs (d.group t))[(s.share w e.seq t).done]? with
    | none => s
    | some o =>
      match s.bankOf t (recKey w e.seq) o with
      | none => s
      | some i =>
        let b := s.bank t i
        if b.folded + 1 < d.s then s
        else
          match d.dest with
          | 2 => (s.drainSpan w e d o b).drained w e d t i b
          | 3 => s.drained w e d t i b
          | _ =>
            let arm := s.armOf w e.seq
            let (s, ok) := s.drainPages w e t o
            if ¬ ok then s
            else ((s.inStep e.step fun s => s.drainStore d arm t o b).drained w e d t i b).castTest t

def execOutputTileDrain (w : Fin 8) (q : Nat) (t : Fin 192) (s : State) : Host.Outcome State Fault Refusal :=
  match s.entry w q with
  | some e => if Rec.kind e.raw = 1 ∧ e.disp ∧ s.arrayOn then .next (s.drain w e t) else .next s
  | none => .next s

/-- Has the tile finished its part of a product: every output tile accumulated and drained or handed off? -/
def State.mxShareDone (s : State) (w : Nat) (e : QEntry) (t : Nat) : Bool :=
  let d := mxOf e.raw
  let n := (d.outs (d.group t)).length
  let x := s.share w e.seq t
  x.started && decide (n ≤ x.next) && decide (n ≤ x.done)

end Sys2Proof.Machine
end

