-- ==== Sys2Proof/Machine/Transcend.lean ====
section
/-! DEFINITION. The divide unit and the function unit of the vector engine (R134, R135). Roots carry a sticky bit below 200 exact
bits, so one rounding of them is the rounding of the exact root. Each transcendental function is evaluated in fixed point with 240
fraction bits, far below half a spacing of H16 for every one of its at most 65 536 operands, and rounded once to H16. -/
namespace Sys2Proof.Machine

/-- Integer square root by binary digits. -/
def isqrt (n : Nat) : Nat :=
  (List.range (Nat.log2 n / 2 + 1)).foldl (fun r i =>
    let b := 2 ^ (Nat.log2 n / 2 - i)
    if (r + b) * (r + b) ≤ n then r + b else r) 0

/-- √x for x ≥ 0, exact or with a sticky bit below at least 150 exact bits. -/
def exSqrt (x : Ex) : Ex :=
  if x.isZero then .zero
  else
    let k := 400 + (x.e % 2).toNat
    let num := x.n.natAbs * 2 ^ k
    let q := num / x.d
    let r := isqrt q
    let sticky := decide (r * r ≠ q) || decide (num % x.d ≠ 0)
    ⟨(2 * r + (if sticky then 1 else 0) : Nat), 1, (x.e - (k : Int)) / 2 - 1⟩

/-- 1/√x for x > 0, exact or with a sticky bit. -/
def exRsqrt (x : Ex) : Ex := exSqrt ((Ex.int 1).div x)

namespace Fx
/-- Fraction bits of the fixed-point values below. -/
def bits : Nat := 240
def one : Int := 2 ^ 240
def mul (a b : Int) : Int := a * b / 2 ^ 240
def ofEx (x : Ex) : Int := let m : Int := x.floorAbs (-240); if x.isNeg then -m else m
def toEx (i : Int) : Ex := .dy i (-240)
/-- Σ of `n` terms, each made from the one before. -/
def series : Nat → (Nat → Int → Int) → Int → Nat → Int → Int
  | 0, _, _, _, acc => acc
  | n + 1, f, t, k, acc => series n f (f k t) (k + 1) (acc + t)
/-- ln 2 = 2 atanh(1/3). -/
def atanhQ (p q : Int) : Int :=
  let z := p * one / q
  (List.range 90).foldl (fun (a : Int × Int) (k : Nat) => (a.1 + a.2 / (2 * Int.ofNat k + 1), mul (mul a.2 z) z)) (0, z) |>.1
def ln2 : Int := 2 * atanhQ 1 3
/-- π by Machin's formula. -/
def atanInv (q : Int) : Int :=
  (List.range 120).foldl (fun (a : Int × Int) (k : Nat) =>
    (if k % 2 = 0 then a.1 + a.2 / (2 * Int.ofNat k + 1) else a.1 - a.2 / (2 * Int.ofNat k + 1), a.2 / (q * q))) (0, one / q) |>.1
def pi : Int := 16 * atanInv 5 - 4 * atanInv 239
/-- exp of a fixed-point value in [0, 1). -/
def expSmall (z : Int) : Int := series 70 (fun k t => mul t z / ((k : Int) + 1)) one 0 0
/-- 2^f for f in [0, 1). -/
def exp2Frac (f : Int) : Int := expSmall (mul f ln2)
end Fx

/-- 2^x; operands far outside H16's range answer a value that rounds as the true one. -/
def fnExp2 (x : Ex) : Ex :=
  if (Ex.int 40).lt x then .dy 1 40
  else if x.lt (.int (-60)) then .dy 1 (-60)
  else
    let i := x.floor
    (Fx.toEx (Fx.exp2Frac (Fx.ofEx (x.sub (.int i))))).scale i

/-- e^x for |x| below 64. -/
def fnExp (x : Ex) : Ex :=
  let z := Fx.ofEx x
  let i := z / Fx.ln2
  (Fx.toEx (Fx.expSmall (z - i * Fx.ln2))).scale i

/-- log₂ x for x > 0. -/
def fnLog2 (x : Ex) : Ex :=
  let k := x.log2
  let m := Fx.ofEx (x.scale (-k))
  (Ex.int k).add (Fx.toEx (2 * Fx.atanhQ (m - Fx.one) (m + Fx.one) * Fx.one / Fx.ln2))

/-- tanh x; the sign is applied to the result for |x|. -/
def fnTanh (x : Ex) : Ex :=
  let a := x.abs
  let v : Ex := if (Ex.int 30).lt a then .int 1
    else let e := fnExp (a.scale 1); (e.sub (.int 1)).div (e.add (.int 1))
  if x.isNeg then v.neg else v

/-- The logistic function. -/
def fnSigmoid (x : Ex) : Ex :=
  if (Ex.int 50).lt x then .int 1
  else if x.lt (.int (-50)) then .dy 1 (-72)
  else (Ex.int 1).div ((Ex.int 1).add (fnExp x.neg))

/-- erf x by its series; it rounds to ±1 in H16 from |x| = 5 on. -/
def fnErf (x : Ex) : Ex :=
  let a := x.abs
  let v : Ex := if (Ex.int 5).lt a then .int 1
    else
      let z := Fx.ofEx a
      let z2 := Fx.mul z z
      let s := (List.range 160).foldl (fun (p : Int × Int) (k : Nat) =>
        (p.1 + p.2 / (2 * Int.ofNat k + 1), -(Fx.mul p.2 z2) / (Int.ofNat k + 1))) (0, z) |>.1
      (Fx.toEx (2 * s)).mul ((Ex.int 1).div (exSqrt (Fx.toEx Fx.pi)))
  if x.isNeg then v.neg else v

/-- sin(πr) for r in [0, 1/2], with 0 and 1/2 exact. -/
def sinQuarter (r : Ex) : Ex :=
  if r.isZero then .zero
  else if r.eq (.dy 1 (-1)) then .int 1
  else
    let z := Fx.mul (Fx.ofEx r) Fx.pi
    let z2 := Fx.mul z z
    Fx.toEx ((List.range 60).foldl (fun (p : Int × Int) (k : Nat) =>
      (p.1 + p.2, -(Fx.mul p.2 z2) / ((2 * Int.ofNat k + 2) * (2 * Int.ofNat k + 3)))) (0, z) |>.1)

/-- sin(πx), the argument reduced exactly. -/
def fnSinpi (x : Ex) : Ex :=
  let f := x.scale (-1)
  let r := (f.sub (.int f.floor)).scale 1
  if r.le (.dy 1 (-1)) then sinQuarter r
  else if r.le (.dy 3 (-1)) then
    (if r.le (.int 1) then sinQuarter ((Ex.int 1).sub r) else (sinQuarter (r.sub (.int 1))).neg)
  else (sinQuarter ((Ex.int 2).sub r)).neg

/-- cos(πx) = sin(π(x + 1/2)). -/
def fnCospi (x : Ex) : Ex := fnSinpi (x.add (.dy 1 (-1)))

/-- The function unit (R135): operand rounded to H16, exact function, result rounded to H16. -/
def fnUnit (f : Ex → Ex) (defined : Ex → Bool) (v : Val) : Val :=
  match decodeFloat .h16 (toFloat .h16 v).1 with
  | .nan => .nan
  | .fin x => if defined x then decodeFloat .h16 (toFloat .h16 (.fin (f x))).1 else .nan

end Sys2Proof.Machine
end

