-- ==== Sys2Proof/Machine/Vector.lean ====
section
/-! DEFINITION. The vector engine (chapter 5): descriptor checks (Table 5.7), the lane format and the stage chain (R123 to R136),
streams and accumulator reads (R126 to R128), reductions (R137 to R139), output conversion (R140) and the indexed modes
(R145 to R148, R503). -/
namespace Sys2Proof.Machine

/-! ### The lane format and the chain -/

/-- A value in the lane format: exact value or NaN, and the lost flag (R123). -/
structure Lane where
  v : Val
  lost : Bool
  deriving DecidableEq, Repr

def Lane.zero : Lane := ⟨.fin .zero, false⟩
def Lane.nan : Lane := ⟨.nan, false⟩
def Lane.ofInt (i : Int) : Lane := ⟨.fin (.int i), false⟩
def Lane.out (x : Lane) : OutVal :=
  match x.v with
  | .nan => .nan
  | .fin e => .fin e x.lost

/-- A lane value as the 64-bit word the model keeps it in: the word of R77, with the lost flag in bit 11. -/
def Lane.word (x : Lane) : Nat := wideWord x.v + (if x.lost then 2 ^ 11 else 0)
def wordLane (w : Nat) : Lane := ⟨wordWide w, w / 2 ^ 11 % 2 == 1⟩

/-- A value that a lane operation computes: exact, then one rounding (R125). -/
def laneRound : Val → Val := Val.map roundWide

/-- A comparison's result (R136). -/
def cmpVal (p : Ex → Ex → Bool) : Val → Val → Val := Val.map₂ fun x y => if p x y then .int 1 else .zero

/-- A partial function of one operand: NaN outside its domain. -/
def partialVal (dom : Ex → Bool) (f : Ex → Ex) : Val → Val
  | .nan => .nan
  | .fin x => if dom x then .fin (roundWide (f x)) else .nan

def isPos (x : Ex) : Bool := decide (0 < x.n)
def notNeg (x : Ex) : Bool := decide (0 ≤ x.n)

/-- The operands an operation takes: x, y, prev (Table 5.5). -/
def opTakes (opc : Nat) : Bool × Bool × Bool :=
  if opc = 0x0F ∨ opc = 0x10 then (false, false, false)
  else if opc = 0x00 ∨ (0x07 ≤ opc ∧ opc ≤ 0x0A) ∨ 0x12 ≤ opc then (true, false, false)
  else if opc = 0x04 ∨ opc = 0x0E then (true, true, true)
  else (true, true, false)

/-- The value of one operation (Table 5.5, R135, R136). -/
def opVal (opc : Nat) (x y prev : Val) (row col : Nat) : Val :=
  match opc with
  | 0x00 => x
  | 0x01 => laneRound (x.map₂ Ex.add y)
  | 0x02 => laneRound (x.map₂ Ex.sub y)
  | 0x03 => laneRound (x.map₂ Ex.mul y)
  | 0x04 => laneRound ((x.map₂ Ex.mul y).map₂ Ex.add prev)
  | 0x05 => x.map₂ Ex.max y
  | 0x06 => x.map₂ Ex.min y
  | 0x07 => x.map Ex.abs
  | 0x08 => x.map Ex.neg
  | 0x09 => x.map fun v => .int v.floor
  | 0x0A => x.map fun v => .int v.round
  | 0x0B => cmpVal (fun a b => b.lt a) x y
  | 0x0C => cmpVal (fun a b => b.le a) x y
  | 0x0D => cmpVal Ex.eq x y
  | 0x0E => match prev with
    | .nan => .nan
    | .fin p => if p.isZero then x.map₂ (fun _ b => b) y else x.map₂ (fun a _ => a) y
  | 0x0F => .fin (.int (Int.ofNat row))
  | 0x10 => .fin (.int (Int.ofNat col))
  | 0x11 => match x, y with
    | .fin a, .fin b => if b.isZero then .nan else .fin (roundWide (a.div b))
    | _, _ => .nan
  | 0x12 => partialVal (fun a => !a.isZero) (fun a => (Ex.int 1).div a) x
  | 0x13 => partialVal notNeg exSqrt x
  | 0x14 => partialVal isPos exRsqrt x
  | 0x15 => fnUnit fnExp2 (fun _ => true) x
  | 0x16 => fnUnit fnLog2 isPos x
  | 0x17 => fnUnit fnTanh (fun _ => true) x
  | 0x18 => fnUnit fnSigmoid (fun _ => true) x
  | 0x19 => fnUnit fnErf (fun _ => true) x
  | 0x1A => fnUnit fnSinpi (fun _ => true) x
  | _ => fnUnit fnCospi (fun _ => true) x

/-- One lane operation; the lost flag is the OR of its operands' (R136). -/
def laneOp (opc : Nat) (x y prev : Lane) (row col : Nat) : Lane :=
  let (tx, ty, tp) := opTakes opc
  ⟨opVal opc x.v y.v prev.v row col, (tx && x.lost) || (ty && y.lost) || (tp && prev.lost)⟩

/-- The chain of four stages over one element (R134, Table 5.6). -/
def chain (stages : List (Nat × Nat × Nat)) (c0 a b : Lane) (row col : Nat) : Lane :=
  (stages.foldl (fun (outs : List Lane) (opc, x, y) =>
    let prev := outs.getLastD Lane.zero
    let src (c : Nat) : Lane :=
      match c with
      | 0 => Lane.zero
      | 1 => a
      | 2 => b
      | 3 => c0
      | 4 => prev
      | 5 => outs.getD 0 Lane.zero
      | 6 => Lane.ofInt 1
      | _ => outs.getD 1 Lane.zero
    outs ++ [laneOp opc (src x) (src y) prev row col]) []).getLastD Lane.zero

/-! ### Descriptor checks (Table 5.7) -/

/-- The sources a stage reads. -/
def stageReads (st : Nat × Nat × Nat) : List Nat :=
  let (tx, ty, _) := opTakes st.1
  (if tx then [st.2.1] else []) ++ (if ty then [st.2.2] else [])

def Vx.reads (d : Vx) (c : Nat) : Bool := d.stages.any fun st => (stageReads st).contains c

/-- Results of a reduce (R137). -/
def Vx.results (d : Vx) : Nat := if d.redAxis = 1 then 32 * d.mEt else if d.redAxis = 2 then 32 * d.nEt else 1
/-- Bytes of stream B where it is a plain array or an index stream; 0 where it is a full tensor (R133, R145). -/
def Vx.bPlain (d : Vx) : Nat :=
  if d.kind = 3 ∨ d.kind = 4 then (if d.bFmt = 0 then 2 else 4) * 1024 * d.ets
  else if d.kind = 2 then 64 * d.ets
  else if d.bcast = 1 then 64 * d.nEt else if d.bcast = 2 then 64 * d.mEt else if d.bcast = 3 then 2 else 0

/-- Does a tensor's byte range lie within the scratchpad? -/
def tensorFits (f : Nat) (off bs ets : Nat) : Bool :=
  match fmtOf f with
  | none => false
  | some f => decide (off + ets * etBytes f ≤ scratchBytes) && (!f.isBlock || decide (bs + 32 * ets ≤ scratchBytes))

/-- Does everything in the scratchpad lie within it (reason 0x46)? -/
def Vx.fits (d : Vx) : Bool :=
  (d.aLoc != 0 || (d.kind == 3 && d.bFmt == 2) ||
    (if d.kind = 2 then decide (d.aOff + 64 * d.ets ≤ scratchBytes) else tensorFits d.aFmt d.aOff d.aBs d.ets)) &&
  (d.bLoc != 0 || (if d.bPlain = 0 then tensorFits d.bFmt d.bOff d.bBs d.ets else decide (d.bOff + d.bPlain ≤ scratchBytes))) &&
  (d.oLoc != 0 ||
    (if d.kind = 1 then decide (d.oOff + 2 * d.results ≤ scratchBytes)
     else if d.kind = 2 then decide (d.oOff + (if d.outFmt = 8 then 32 else 64) * d.ets ≤ scratchBytes)
     else tensorFits d.outFmt d.oOff d.oBs d.ets)) && d.oLoc != 3

/-- Does out_fmt suit the kind (reason 0x42)? -/
def Vx.fmtOk (d : Vx) : Bool :=
  if d.outFmt = 15 then d.kind != 4 && d.oLoc == 2
  else d.oLoc != 2 &&
    (match d.kind with
     | 0 | 3 => d.outFmt ≤ 4 || d.outFmt == 7
     | 1 | 4 => d.outFmt == 2 || d.outFmt == 3
     | 2 => d.outFmt == 2 || d.outFmt == 3 || d.outFmt == 8
     | _ => true)

/-- The table handle of a gather of index kind 2, as A.off_64 holds it. -/
def Vx.handle (d : Vx) : Nat := d.aOff / 64

/-- Engine tiles of the table of index kind 2: those wholly below its scales, or within the region (R503). -/
def Vx.tableEts (d : Vx) (size : Nat) : Nat :=
  match fmtOf d.aFmt with
  | none => 0
  | some f => etsBelow f (if f.isBlock then d.aBs else 65536 * size)

/-- Do index kind, source locations and table meet R145 and R503 (reason 0x4A)? -/
def State.indexOk (s : State) (d : Vx) : Bool :=
  if d.kind ≠ 3 ∧ d.kind ≠ 4 then true
  else
    (if d.kind = 4 then d.bFmt == 0 && d.oLoc == 0 else decide (d.bFmt ≤ 2)) && decide (d.bLoc ≤ 1) &&
    (if d.bFmt = 2 then d.aLoc == 0 else decide (d.aLoc ≤ 1)) &&
    (d.kind != 3 || d.bFmt != 2 ||
      (match s.region d.handle with
       | none => false
       | some r => r.cls == 6 && (match fmtOf d.aFmt with
          | none => false
          | some f => !f.isBlock || decide (d.aBs < 65536 * r.size))))

/-- The lowest failing reason of Table 5.7, 0 if none fails. Where check 0x49 passes a gather or scatter with b_bcast 1 to 3, b_bcast has no
further effect (DESIGN CHOICE, log entry 127). -/
def State.vxCheck (s : State) (d : Vx) : Nat :=
  if 4 < d.kind ∨ d.stages.any (fun st => decide (0x1B < st.1)) ∨
      d.stages.zipIdx.any (fun (st, i) => ((stageReads st).contains 5 && i == 0) || ((stageReads st).contains 7 && decide (i < 2)))
    then 0x41
  else if ¬ d.fmtOk then 0x42
  else if (d.aLoc = 3 ∧ d.reads 1) ∨ (d.bLoc = 3 ∧ d.reads 2) ∨ ((d.kind = 3 ∨ d.kind = 4) ∧ d.reads 2) ∨ d.bLoc = 2 ∨
      (d.aLoc = 2 ∧ (1 < d.kind ∨ d.aOff ≠ 0 ∨ d.aScale ≠ 0 ∨ d.aBs ≠ 0 ∨ d.aAxis ≠ 0)) then 0x43
  else if d.aLoc = 2 ∧ ¬ [(4, 8), (8, 4), (16, 2), (32, 1)].contains (d.mEt, d.nEt) then 0x44
  else if ¬ (d.tf ≤ d.tl ∧ d.tl ≤ 191) then 0x45
  else if ¬ d.fits then 0x46
  else if d.form = 3 ∨ (d.layer = 0 ∧ d.form ≠ 0) then 0x47
  else if (if d.kind = 1 then d.redAxis = 0 ∨ d.redOp = 3 else d.redAxis ≠ 0 ∨ d.redTiles ∨ (d.kind ≠ 4 ∧ d.redOp ≠ 0)) then 0x48
  else if (d.kind = 2 ∧ (d.bcast ≠ 0 ∨ (d.aLoc ≠ 3 ∧ ¬ isWide d.aFmt) ∨ (d.bLoc ≠ 3 ∧ ¬ isWide d.bFmt))) ∨
      (d.bcast ≠ 0 ∧ d.bLoc ≠ 3 ∧ ¬ isWide d.bFmt) then 0x49
  else if ¬ s.indexOk d then 0x4A
  else if d.accKeep ∧ d.aLoc ≠ 2 then 0x4B
  else 0

/-! ### Streams (R124 to R128, R133) -/

/-- An accumulator entry in the lane format (R127). -/
def accLane (exact : Bool) (sa sb : Val) (w : Nat) : Lane :=
  let top : Ex := .dy (2 ^ 41 - 1) 472
  let lost := exact && (wordLong w).lost
  match accOut exact sa sb w with
  | .nan => ⟨.nan, lost⟩
  | .sat neg => ⟨.fin (if neg then top.neg else top), lost⟩
  | .fin x l => ⟨.fin (roundWide x), l⟩

/-- The bank held longest in a tile (R127). -/
def State.heldBank (s : State) (t : Nat) : Option Nat :=
  let b0 := s.bank t 0
  let b1 := s.bank t 1
  if b0.use = .held ∧ (b1.use ≠ .held ∨ b0.order < b1.order) then some 0
  else if b1.use = .held then some 1 else none

/-- Element (row, col) of a full tensor at a scratchpad or cast offset of a tile. -/
def State.tensorLane (s : State) (t loc f axis off bs scale cols row col : Nat) : Lane :=
  match fmtOf f with
  | none => Lane.nan
  | some f => ⟨tensorVal f (axis == 1) cols (s.opByte t loc off) (s.opByte t loc bs) (tensorScale scale) row col, false⟩

/-- Element `i` of a plain array. -/
def State.plainLane (s : State) (t loc f off scale i : Nat) : Lane :=
  match fmtOf f with
  | none => Lane.nan
  | some f => ⟨(decodeFloat f (s.opByte t loc off (2 * i) + 256 * s.opByte t loc off (2 * i + 1))).map₂ Ex.mul (tensorScale scale), false⟩

/-- Stream A at (row, col) of tile `t`; for a vmap, its element 32 n_et × row + col. -/
def State.laneA (s : State) (d : Vx) (t row col : Nat) : Lane :=
  if d.aLoc = 3 then Lane.zero
  else if d.aLoc = 2 then
    match s.heldBank t with
    | none => Lane.zero
    | some i => let b := s.bank t i; accLane b.exact (tensorScale b.sa) (tensorScale b.sb) (b.ents.get 0 (32 * d.nEt * row + col))
  else if d.kind = 2 then s.plainLane t d.aLoc d.aFmt d.aOff d.aScale (32 * d.nEt * row + col)
  else s.tensorLane t d.aLoc d.aFmt d.aAxis d.aOff d.aBs d.aScale (32 * d.nEt) row col

/-- Stream B at (row, col), broadcast as b_bcast names. -/
def State.laneB (s : State) (d : Vx) (t row col : Nat) : Lane :=
  if d.bLoc = 3 ∨ d.kind = 3 ∨ d.kind = 4 then Lane.zero
  else if d.kind = 2 then s.plainLane t d.bLoc d.bFmt d.bOff d.bScale (32 * d.nEt * row + col)
  else
    match d.bcast with
    | 0 => s.tensorLane t d.bLoc d.bFmt d.bAxis d.bOff d.bBs d.bScale (32 * d.nEt) row col
    | 1 => s.plainLane t d.bLoc d.bFmt d.bOff d.bScale col
    | 2 => s.plainLane t d.bLoc d.bFmt d.bOff d.bScale row
    | _ => s.plainLane t d.bLoc d.bFmt d.bOff d.bScale 0

def Vx.c0Lane (d : Vx) : Lane := ⟨decodeFloat .h16 d.c0, false⟩

/-- The chain result at (row, col) of tile `t`, for a given element of stream A. -/
def State.chainAt (s : State) (d : Vx) (t row col : Nat) (a : Lane) : Lane :=
  chain d.stages d.c0Lane a (s.laneB d t row col) (row + 32 * d.mEt * (t - d.tf)) col

/-- The chain result with stream A itself. -/
def State.mapAt (s : State) (d : Vx) (t row col : Nat) : Lane := s.chainAt d t row col (s.laneA d t row col)

/-! ### Storing results (R139 to R141) -/

/-- The base the output offset counts from: the open cast, or the scratchpad (R99). -/
def State.outBase (s : State) (d : Vx) (t : Nat) : Nat := if d.oLoc = 1 then s.castBase t else 0

/-- Store a tensor of results in engine-tile layout, line by line along o_axis (R140). -/
def State.storeTensor (s : State) (d : Vx) (t : Nat) (g : Nat → Nat → Lane) : State :=
  if d.oLoc = 2 then s
  else
    let f := (fmtOf d.outFmt).getD .h16
    let b := s.outBase d t
    (List.range d.mEt).foldl (fun s i => (List.range d.nEt).foldl (fun s j => (List.range 32).foldl (fun s r =>
      s.storeLine t (d.oLoc == 1) f (tensorScale d.oScale) (b + d.oOff) (b + d.oBs) (i * d.nEt + j) r kVector d.layer d.dir
        (lineVals d.oAxis i j r fun m n => (g m n).out)) s) s) s

/-- The E8 code of a lane value (R140). -/
def e8Code (x : Lane) : Nat × Cls :=
  match x.v with
  | .nan => (255, .nonfinite)
  | .fin v =>
    let lost := if x.lost then Cls.underflow else Cls.none
    if v.isZero then (0, lost)
    else
      let k := v.log2
      let mid : Ex := .dy 3 (k - 1)
      let c : Int := if v.abs.lt mid then k + 127 else if mid.lt v.abs then k + 128 else if (k + 127) % 2 = 0 then k + 127 else k + 128
      if 254 < c then (254, .saturation) else if c < 0 then (0, .underflow) else (c.toNat, lost)

/-- Store results as a plain array; plain arrays take no shadow counts (R86, R133). -/
def State.storePlain (s : State) (d : Vx) (t : Nat) (xs : List Lane) : State :=
  if d.oLoc = 2 then s
  else
    let b := s.outBase d t + d.oOff
    let (bytes, cl) : List (Nat × Nat) × List Cls :=
      if d.outFmt = 8 then
        let cs := xs.map e8Code
        (cs.zipIdx.map fun (c, i) => (b + i, c.1), cs.map Prod.snd)
      else
        let cs := xs.map fun x => convScalar ((fmtOf d.outFmt).getD .h16) (tensorScale d.oScale) x.out
        (cs.zipIdx.flatMap fun (c, i) => [(b + 2 * i, c.1 % 256), (b + 2 * i + 1, c.1 / 256)], cs.map Prod.snd)
    let s := s.tally kVector d.layer d.dir cl []
    let s := if d.oLoc = 1 then s.castThrough t (bytes.map Prod.fst) else s
    s.putBytes t (d.oLoc == 1) bytes

/-! ### Running a vector record in a tile -/

/-- Tile-cycles with the record producing elements (R143, Table 5.9), ports uncontested. -/
def Vx.busy (d : Vx) : Nat :=
  let live := (d.stages.reverse.dropWhile fun st => st.1 == 0 && st.2.1 == 4)
  let nd := (live.filter fun st => decide (0x11 ≤ st.1 ∧ st.1 ≤ 0x14)).length
  let nf := (live.filter fun st => decide (0x15 ≤ st.1)).length
  let e := d.count
  let base := max (ceilDiv e 64) (max (ceilDiv (e * nd) 8) (ceilDiv (e * nf) 16))
  if d.kind = 4 then max base e
  else if d.kind = 3 then max base (if d.bFmt = 1 then 4 * e else e) else base

/-- Begin a vector record in a tile: its order, its semaphore, its held bank, its cast pages (R126, R127, R131, R158). The Bool says
that it runs now. -/
def State.startVector (s : State) (w : Nat) (e : QEntry) (t : Nat) : State × Bool :=
  let d := vxOf e.raw
  if ¬ s.mayRun w e t ∨ e.skip ∨ (s.share w e.seq t).ran then (s, false)
  else
    let (s, ok) := s.startShare w e t Obj.vxWaitCycles
    if ¬ ok then (s, false)
    else if d.aLoc = 2 ∧ s.heldBank t = none then (s.beginWait w e.seq t, false)
    else
      let (s, ready) := s.pagesFor w e.seq t (rangePages (s.castBase t) (castReads e.raw t)) (rangePages (s.castBase t) (castWrites e.raw t))
      if ¬ ready then (s, false)
      else
        (s.endWait w e.seq t Obj.vxWaitCycles, true)

/-- Does a product run in the tile: is one of its banks being filled (R130)? -/
def State.productRuns (s : State) (t : Nat) : Bool := [0, 1].any fun i => (s.bank t i).use == .filling

/-- A vector record loses port cycles to a product, as many as the arbitration of the two gives (R130; a free value, log entry 72). -/
def State.losePort (s : State) : State := { s.count Obj.vxPortLost (Config.portLost s.free) with free := s.free + 1 }

/-- The record has run in the tile, beside a product or not. -/
def State.ranVector (s : State) (w : Nat) (e : QEntry) (t : Nat) : State :=
  let d := vxOf e.raw
  let s := s.setShare w e.seq t { s.share w e.seq t with ran := true }
  let s := s.count Obj.vxBusyCycles d.busy
  let s := if s.productRuns t then s.losePort else s
  if d.oLoc = 1 then s.castTest t else s

/-- Run a command of a vector kind on a tile when its record is a dispatched vector record of that kind. -/
def onVector (w : Fin 8) (q : Nat) (kind : Nat) (s : State) (f : State → QEntry → State) : Host.Outcome State Fault Refusal :=
  match s.entry w q with
  | some e => if Rec.kind e.raw = 2 ∧ (vxOf e.raw).kind = kind ∧ s.arrayOn then .next (s.inStep e.step fun s => f s e) else .next s
  | none => .next s

/-- VECTOR_MAP: the chain over every element, stored in engine-tile layout (R133, R134, R140). -/
def State.vectorMap (s : State) (w : Nat) (e : QEntry) (t : Nat) : State :=
  let d := vxOf e.raw
  let (s, go) := s.startVector w e t
  if ¬ go then s else (s.storeTensor d t fun r c => s.mapAt d t r c).ranVector w e t

def execVectorMap (w : Fin 8) (q : Nat) (t : Fin 192) (s : State) : Host.Outcome State Fault Refusal :=
  onVector w q 0 s fun s e => s.vectorMap w e t

/-- VMAP: the chain over plain arrays (R133). -/
def State.vmap (s : State) (w : Nat) (e : QEntry) (t : Nat) : State :=
  let d := vxOf e.raw
  let (s, go) := s.startVector w e t
  if ¬ go then s
  else (s.storePlain d t ((List.range d.count).map fun i => s.mapAt d t (i / (32 * d.nEt)) (i % (32 * d.nEt)))).ranVector w e t

def execVmap (w : Fin 8) (q : Nat) (t : Fin 192) (s : State) : Host.Outcome State Fault Refusal :=
  onVector w q 2 s fun s e => s.vmap w e t

/-! ### Reductions (R137, R138) -/

/-- One step of a reduction. -/
def redStep (op : Nat) (a v : Lane) : Lane := laneOp (if op = 0 then 1 else if op = 1 then 5 else 6) a v Lane.zero 0 0

/-- Reduce a list in order: from zero for a sum, from the first element for max and min. -/
def redList (op : Nat) (xs : List Lane) : Lane :=
  match op, xs with
  | 0, xs => xs.foldl (redStep 0) Lane.zero
  | op, x :: r => r.foldl (redStep op) x
  | _, [] => Lane.zero

/-- The results of a reduce in one tile. -/
def State.reduceOf (s : State) (d : Vx) (t : Nat) : List Lane :=
  let rows := 32 * d.mEt
  let cols := 32 * d.nEt
  let row (r : Nat) : Lane := redList d.redOp ((List.range cols).map fun c => s.mapAt d t r c)
  if d.redAxis = 1 then (List.range rows).map row
  else if d.redAxis = 2 then (List.range cols).map fun c => redList d.redOp ((List.range rows).map fun r => s.mapAt d t r c)
  else [redList d.redOp ((List.range rows).map row)]

/-- VECTOR_REDUCE: reduce in the tile; with red_tiles the results go to tile_first, and a later run stores what comes back. -/
def State.vectorReduce (s : State) (w : Nat) (e : QEntry) (t : Nat) : State :=
  let d := vxOf e.raw
  let x := s.share w e.seq t
  match x.combined with
  | some l =>
    let (s, ok) := s.pagesFor w e.seq t [] (rangePages (s.castBase t) (castWrites e.raw t))
    if x.ran ∨ ¬ ok then s else (s.storePlain d t (l.map wordLane)).ranVector w e t
  | none =>
    if x.partials.isSome then s
    else
      let (s, go) := s.startVector w e t
      if ¬ go then s
      else if d.redTiles then s.setShare w e.seq t { s.share w e.seq t with partials := some ((s.reduceOf d t).map Lane.word) }
      else (s.storePlain d t (s.reduceOf d t)).ranVector w e t

def execVectorReduce (w : Fin 8) (q : Nat) (t : Fin 192) (s : State) : Host.Outcome State Fault Refusal :=
  onVector w q 1 s fun s e => s.vectorReduce w e t

/-- REDUCE_TILE_FOLD: once the results of every tile of the set have arrived, tile_first folds them in ascending tile order and
returns the combined results to each (R138). -/
def State.tileFold (s : State) (w : Nat) (e : QEntry) : State :=
  let d := vxOf e.raw
  let tiles := (List.range (d.tl - d.tf + 1)).map (d.tf + ·)
  let parts := tiles.map fun t => (s.share w e.seq t).partials
  if ¬ d.redTiles ∨ ¬ e.disp ∨ parts.any Option.isNone ∨ (s.share w e.seq d.tf).combined.isSome then s
  else
    match parts.filterMap id with
    | [] => s
    | p :: r =>
      let acc := r.foldl (fun a b => List.zipWith (fun x y => (redStep d.redOp (wordLane x) (wordLane y)).word) a b) p
      (tiles.foldl (fun s t => s.setShare w e.seq t { s.share w e.seq t with combined := some acc }) s).delivered
        (2 * 8 * (tiles.length - 1) * acc.length)

def execReduceTileFold (w : Fin 8) (q : Nat) (s : State) : Host.Outcome State Fault Refusal :=
  onVector w q 1 s fun s e => s.tileFold w e

/-! ### Gather and scatter (R145 to R148, R503) -/

/-- Do the bytes of element number `n` of stream A, code and block scale, lie within the top cast of tile `u` (R147)? -/
def State.inTopCast (s : State) (d : Vx) (u n : Nat) : Bool :=
  match s.casts u with
  | c :: _ => (d.elemRanges n).all fun p => decide (p.1 + p.2 ≤ c.len)
  | [] => false

/-- A byte of the table of index kind 2; where the scales run past the region's end, what lies there is a free value (R503). -/
def State.tableByte (s : State) (h size b : Nat) : Nat :=
  if b < 65536 * size then (s.regionByte h b).toNat else (Config.pastEnd (h * 2 ^ 42 + b)).toNat

/-- Element number `x` of the table: engine tiles stand in its pages as Table 3.3 gives (R231, R503). -/
def State.tableVal (s : State) (d : Vx) (f : Fmt) (size x : Nat) : Val :=
  let (_, r, c) := etPos (d.aAxis == 1) 32 (x / 32) (x % 32)
  let et := x / 1024
  (etVal f (fun b => s.tableByte d.handle size (regionEt f et + b)) (fun b => s.tableByte d.handle size (d.aBs + 32 * et + b)) 0 r c).map₂ Ex.mul
    (tensorScale d.aScale)

/-- The element a gather's index names; none where it lies outside the source (R147). -/
def State.gathered (s : State) (d : Vx) (t i : Nat) : Option Lane :=
  let x := s.indexAt d t i
  let cols := 32 * d.nEt
  match d.bFmt with
  | 0 => if x < d.count then some (s.laneA d t (x / cols) (x % cols)) else none
  | 1 =>
    let u := x / 2 ^ 24
    let n := x % 2 ^ 24
    if u ≤ 191 ∧ n < d.count ∧ (d.aLoc = 0 ∨ s.inTopCast d u n) then some (s.laneA d u (n / cols) (n % cols)) else none
  | _ =>
    match s.region d.handle, fmtOf d.aFmt with
    | some r, some f =>
      if x < 1024 * d.tableEts r.size then some ⟨s.tableVal d f r.size x, false⟩ else none
    | _, _ => none

/-- Byte ranges of the table of index kind 2 that element `x` reads. -/
def Vx.tableRanges (d : Vx) (x : Nat) : List (Nat × Nat) :=
  match fmtOf d.aFmt with
  | none => []
  | some f => (regionEt f (x / 1024), etBytes f) :: (if f.isBlock then [(d.aBs + 32 * (x / 1024), 32)] else [])

/-- Ask for what a gather reads beyond its own tile: table pages (R233, R239) or the named tiles' cast pages (R105). The Bool says
that all can be read now. -/
def State.gatherReady (s : State) (w q : Nat) (d : Vx) (t : Nat) : State × Bool :=
  let idx := (List.range d.count).map (s.indexAt d t)
  if d.bFmt = 2 then
    match s.region d.handle with
    | none => (s, true)
    | some r =>
      let rs := ((idx.filter fun x => decide (x < 1024 * d.tableEts r.size)).map fun x => x / 1024 * 1024).eraseDups.flatMap d.tableRanges
      let (s, a) := s.access (tileKey w q t) 1 d.handle ((rs.flatMap fun p => pagesOf p.1 p.2).eraseDups)
      if a = .waiting then (s, false)
      else if rs.any fun p => s.hitsBad d.handle p.1 p.2 then (s.hitStatus w q d.handle, true)
      else (s, true)
  else if d.bFmt = 1 ∧ d.aLoc = 1 then
    let (s, ok) := (List.range 192).foldl (fun (x : State × Bool) u =>
      let (s, ok) := x.1.needPages u (rangePages (x.1.castBase u) (x.1.gatherRanges d t u)).eraseDups []
      (s, x.2 && ok)) (s, true)
    (s.pageGate w q t ok, ok)
  else (s, true)

/-- Count indexed elements, those of dropped indices among them (DESIGN CHOICE, log entry 127), and indices outside; index-range is
raised once per record (R147, R148). -/
def State.indexed (s : State) (w : Nat) (e : QEntry) (n bad : Nat) : State :=
  let s := s.count Obj.vxIndexedElems n
  let s := s.count Obj.vxIndexRange bad
  let told := ((s.entry w e.seq).map QEntry.told).getD true
  if bad = 0 ∨ told then s else (s.raise Ev.indexRange []).updEntry w e.seq fun e => { e with told := true }

/-- Payload bytes a gather takes from beyond its tile: the elements read in other tiles, or one 64-byte unit of tier T1 for each element
(R149, R151, R152). -/
def State.gatherBytes (s : State) (d : Vx) (t : Nat) : Nat :=
  let got := (List.range d.count).filter fun i => (s.gathered d t i).isSome
  match d.bFmt with
  | 0 => 0
  | 1 => ((got.filter fun i => s.indexAt d t i / 2 ^ 24 != t).map fun i =>
      ((d.elemRanges (s.indexAt d t i % 2 ^ 24)).map Prod.snd).sum).sum
  | _ => 64 * got.length

/-- GATHER: indexed elements feed the chain as source 1 (R145, R147). -/
def State.gather (s : State) (w : Nat) (e : QEntry) (t : Nat) : State :=
  let d := vxOf e.raw
  let (s, go) := s.startVector w e t
  if ¬ go then s
  else
    let (s, ready) := s.gatherReady w e.seq d t
    if ¬ ready then s
    else
      let cols := 32 * d.nEt
      let bad := ((List.range d.count).filter fun i => (s.gathered d t i).isNone).length
      let s := s.delivered (s.gatherBytes d t)
      let s' := s.storeTensor d t fun r c => s.chainAt d t r c ((s.gathered d t (cols * r + c)).getD Lane.nan)
      (s'.indexed w e d.count bad).ranVector w e t

def execGather (w : Fin 8) (q : Nat) (t : Fin 192) (s : State) : Host.Outcome State Fault Refusal :=
  onVector w q 3 s fun s e => s.gather w e t

/-- The two bytes of element `j` of the scatter's output, and where they stand. -/
def Vx.outAt (d : Vx) (j : Nat) : Nat :=
  let cols := 32 * d.nEt
  let (et, r, c) := etPos (d.oAxis == 1) cols (j / cols) (j % cols)
  d.oOff + 2048 * et + 64 * ((r + c) % 32) + 2 * r

/-- Apply a result to the stored element (R148). -/
def scatterVal (op : Nat) (old v : Val) : Val :=
  match op with
  | 0 => old.map₂ Ex.add v
  | 1 => old.map₂ Ex.max v
  | 2 => old.map₂ Ex.min v
  | _ => v

/-- The shadow class of one scattered element: its line of the output with the new value in its place, converted into F8 (R86). -/
def State.scatterShadow (s : State) (d : Vx) (t j : Nat) (v : OutVal) : List Cls :=
  let cols := 32 * d.nEt
  let (et, r, c) := etPos (d.oAxis == 1) cols (j / cols) (j % cols)
  let at_ (k : Nat) : Nat := d.oOff + 2048 * et + 64 * ((r + k) % 32) + 2 * r
  let xs := (List.range 32).map fun k => if k = c then v else
    match (decodeFloat .h16 (s.scratchByte t (at_ k) + 256 * s.scratchByte t (at_ k + 1))).map₂ Ex.mul (tensorScale d.oScale) with
    | .nan => OutVal.nan
    | .fin x => .fin x false
  ((s.shadowLine ((fmtOf d.outFmt).getD .h16) d.layer d.dir (tensorScale d.oScale) xs).drop c).take 1

/-- The stored results of a scatter, with the classes of its conversions and their shadow classes: chain results applied to indexed output
elements in ascending element order (R148). -/
def State.scatterStore (s : State) (d : Vx) (t : Nat) : State × List Cls × List Cls :=
  let f := (fmtOf d.outFmt).getD .h16
  let cols := 32 * d.nEt
  let idx := (List.range d.count).map (s.indexAt d t)
  let res := (List.range d.count).map fun i => s.mapAt d t (i / cols) (i % cols)
  (idx.zip res).foldl (fun (x : State × List Cls × List Cls) (j, v) =>
    if d.count ≤ j then x
    else
      let a := d.outAt j
      let old := (decodeFloat f (x.1.scratchByte t a + 256 * x.1.scratchByte t (a + 1))).map₂ Ex.mul (tensorScale d.oScale)
      let new := Lane.out ⟨scatterVal d.redOp old v.v, v.lost⟩
      let (c, k) := convScalar f (tensorScale d.oScale) new
      (x.1.putBytes t false [(a, c % 256), (a + 1, c / 256)], x.2.1 ++ [k], x.2.2 ++ x.1.scatterShadow d t j new)) (s, [], [])

/-- SCATTER: chain results applied to indexed output elements in ascending element order (R148). -/
def State.scatter (s : State) (w : Nat) (e : QEntry) (t : Nat) : State :=
  let d := vxOf e.raw
  let (s, go) := s.startVector w e t
  if ¬ go then s
  else
    let idx := (List.range d.count).map (s.indexAt d t)
    let (s', cl, sh) := s.scatterStore d t
    let s' := s'.tally kVector d.layer d.dir cl sh
    (s'.indexed w e d.count (idx.filter fun j => decide (d.count ≤ j)).length).ranVector w e t

def execScatter (w : Fin 8) (q : Nat) (t : Fin 192) (s : State) : Host.Outcome State Fault Refusal :=
  onVector w q 4 s fun s e => s.scatter w e t

end Sys2Proof.Machine
end

