-- ==== Sys2Proof/Machine/Cast.lean ====
section
/-! DEFINITION. Cast control (chapter 4): the checks of Table 4.6, the sequencer's directory and the tiles' stacks, arms and their
binding (R98 to R102, R112), plan records (R118), and page moves (R103 to R106). -/
namespace Sys2Proof.Machine

/-! ### Checks (R97, R102) -/

def State.dir (s : State) (t : Nat) : List CastEnt := s.tile.dir.get [] t

/-- Is a field outside its range or alignment (reason 0x21)? -/
def Ck.badField (d : Ck) : Bool :=
  decide (5 < d.op) || d.form == 3 || (decide (4 ≤ d.op) && d.form != 0) || (d.layer == 0 && (d.op != 4 || d.form != 0)) ||
  !decide (d.tf ≤ d.tl ∧ d.tl ≤ 191) || (d.op == 0 && d.len == 0) ||
  (d.op == 3 && (d.kind == 0 || d.metaOff % 64 != 0 || (d.kind != 1 && d.tabOff % 64 != 0) || d.o2Off % 64 != 0 || d.o2BsOff % 32 != 0)) ||
  (d.op == 5 && (decide (d.h16Len < d.len) || d.mbCount == 0))

/-- Tiles `tf` to `tl`. -/
def tileRange (tf tl : Nat) : List Nat := (List.range (tl + 1 - tf)).map (tf + ·)

/-- Cast capacity per tile of the plan in force, in bytes (R118). -/
def State.castCapacity (s : State) : Nat := (16 + s.tile.reserve) * 65536

/-- The lowest failing reason of an executing cast-control record against the directory (0x22 to 0x27), 0 if none fails. -/
def State.dirFault (s : State) (d : Ck) (t : Nat) : Nat :=
  let l := s.dir t
  match d.op with
  | 0 => if 1024 ≤ l.length then 0x22 else if s.castCapacity < stackEnd l + 64 * d.len then 0x23 else 0
  | 1 => match l with
    | c :: _ => if c.layer = d.layer ∧ c.mb = d.mb then 0 else 0x26
    | [] => 0x26
  | 2 => match l with
    | c :: _ => if c.layer = d.layer ∧ c.mb = d.mb ∧ 64 * d.len ≤ c.len then 0 else 0x26
    | [] => 0x26
  | 3 => match l with
    | c :: _ => if c.len ≤ d.metaOff then 0x25 else if s.tile.arms.any (fun a => a.tf == d.tf && a.tl == d.tl) then 0x27 else 0
    | [] => 0x25
  | _ => 0

/-- The lowest nonzero number of a list, 0 if there is none. -/
def lowest (l : List Nat) : Nat := l.foldl (fun a b => if b = 0 then a else if a = 0 then b else min a b) 0

/-- Status and reason with which a cast-control record is refused; (0, 0) if it passes. -/
def State.ckCheck (s : State) (d : Ck) (skip : Bool) : Nat × Nat :=
  if d.badField then (3, 0x21)
  else if skip then (0, 0)
  else
    let r := lowest ((tileRange d.tf d.tl).map (s.dirFault d))
    if r = 0 then (0, 0) else (3, r)

/-- The cast-stack checks of a product or vector record (reasons 0x24 and 0x25): every byte written lies in an open cast, every byte
read in the top cast, of each tile of the set. -/
def State.castFault (s : State) (r : Rec) : Nat :=
  match tileSet r with
  | none => 0
  | some (tf, tl) => lowest ((tileRange tf tl).map fun t =>
      let top := (s.dir t).head?
      let inside (p : Nat × Nat) : Bool := match top with
        | some c => decide (p.1 + p.2 ≤ c.len)
        | none => false
      let opened : Bool := match top with
        | some c => c.use == .opened
        | none => false
      let ws := castWrites r t
      let rs := castReads r t
      if ws ≠ [] ∧ ¬ (opened ∧ ws.all inside) then 0x24 else if ¬ rs.all inside then 0x25 else 0)

/-! ### Arms (R112) -/

/-- The arm that binds to a product of window `w`: issued earlier in the window, the same tile set, not yet bound. -/
def State.pendingArm (s : State) (w : Nat) (d : Mx) : Option Arm :=
  s.tile.arms.find? fun a => a.win == w && a.bound == none && a.tf == d.tf && a.tl == d.tl

/-- Does the product satisfy the binding rule and the shape check (reason 0x27)? -/
def State.armFits (s : State) (a : Arm) (d : Mx) : Bool :=
  d.dir == 1 && d.dest == 0 && (d.outFmt == 1 || d.outFmt == 3) &&
  (let n := metaBytes a.kind (s.h16Form a.layer) (d.mEt * d.nEt)
   (tileRange d.tf d.tl).all fun t =>
    (match (s.dir t).head? with
     | some c => decide (a.metaOff + n ≤ c.len)
     | none => false) &&
    (a.kind == 1 || decide (a.tabOff + 320 ≤ scratchBytes)) &&
    (a.kind != 3 || d.member t != 0 || tensorFits d.outFmt a.o2Off a.o2BsOff (d.oEts (d.group t))))

/-- Status and reason with which a product is refused; (0, 0) if it passes. -/
def State.mxRefusal (s : State) (w : Nat) (r : Rec) (skip : Bool) : Nat × Nat :=
  let d := mxOf r
  let c := s.mxCheck d
  if c ≠ 0 then (2, c)
  else if skip then (0, 0)
  else
    let f := s.castFault r
    if f ≠ 0 then (3, f)
    else
      match s.pendingArm w d with
      | some a => if s.armFits a d then (0, 0) else (3, 0x27)
      | none => (0, 0)

/-- Status and reason with which a vector record is refused; (0, 0) if it passes. -/
def State.vxRefusal (s : State) (r : Rec) (skip : Bool) : Nat × Nat :=
  let c := s.vxCheck (vxOf r)
  if c ≠ 0 then (2, c)
  else if skip then (0, 0)
  else
    let f := s.castFault r
    if f ≠ 0 then (3, f) else (0, 0)

/-- Bind the pending arm to a dispatched product. -/
def State.bindArm (s : State) (w q : Nat) (d : Mx) : State :=
  match s.pendingArm w d with
  | none => s
  | some a => { s with tile := { s.tile with arms := s.tile.arms.map fun b => if b = a then { b with bound := some q } else b } }

/-- The arm bound to a record is consumed when the record retires. -/
def State.consumeArm (s : State) (w q : Nat) : State :=
  { s with tile := { s.tile with arms := s.tile.arms.filter fun a => !(a.win == w && a.bound == some q) } }

/-- A product refused before its dispatch consumes the arm it would have bound (R112). -/
def State.consumePending (s : State) (w : Nat) (d : Mx) : State :=
  match s.pendingArm w d with
  | none => s
  | some a => { s with tile := { s.tile with arms := s.tile.arms.filter fun b => decide (b ≠ a) } }

/-! ### The directory and the tiles' stacks -/

def State.setDir (s : State) (t : Nat) (l : List CastEnt) : State := { s with tile := { s.tile with dir := s.tile.dir.set [] t l } }
def State.setStack (s : State) (t : Nat) (l : List CastEnt) : State :=
  { s with tile := { s.tile with stack := s.tile.stack.set [] t l } }

/-- Update the sequencer's directory for a dispatched record. -/
def State.applyDir (s : State) (d : Ck) (e : QEntry) (w : Nat) : State :=
  (tileRange d.tf d.tl).foldl (fun s t =>
    let l := castApply d (s.h16Form d.layer) (e.step.getD 0) w e.seq (Rec.tag e.raw) (s.dir t)
    s.setDir t l) s

/-- Update a tile's own stack when the record completes there: the bytes released are dropped and their pages freed (R101). -/
def State.applyStack (s : State) (d : Ck) (e : QEntry) (w t : Nat) : State :=
  let old := s.casts t
  let new := castApply d (s.h16Form d.layer) (e.step.getD 0) w e.seq (Rec.tag e.raw) old
  let s := s.setStack t new
  let lo := stackEnd new
  let hi := stackEnd old
  if hi ≤ lo then s
  else
    let s := { s with tile := { s.tile with castMem := memClear s.tile.castMem (t * 2 ^ 41 + lo) (hi - lo) } }
    (s.freePages t lo hi).castTest t

/-! ### The commands: run at the sequencer on a dispatched record -/

/-- Run a sequencer command on a record of a kind and op, once, unless it is skipped. -/
def onSeq (w : Fin 8) (q kind : Nat) (op : Rec → Bool) (s : State) (f : QEntry → State) : Host.Outcome State Fault Refusal :=
  match s.entry w q with
  | some e =>
    if e.disp ∧ ¬ e.unit ∧ Rec.kind e.raw = kind ∧ op e.raw then
      .next ((if e.skip then s else f e).updEntry w q fun e => { e with unit := true })
    else .next s
  | none => .next s

def execCastOpen (w : Fin 8) (q : Nat) (s : State) : Host.Outcome State Fault Refusal :=
  onSeq w q 3 (fun r => (ckOf r).op == 0) s fun e => s.applyDir (ckOf e.raw) e w

def execCastPop (w : Fin 8) (q : Nat) (s : State) : Host.Outcome State Fault Refusal :=
  onSeq w q 3 (fun r => (ckOf r).op == 1) s fun e => s.applyDir (ckOf e.raw) e w

def execCastPopTo (w : Fin 8) (q : Nat) (s : State) : Host.Outcome State Fault Refusal :=
  onSeq w q 3 (fun r => (ckOf r).op == 2) s fun e => s.applyDir (ckOf e.raw) e w

/-- Record a pending arm (R112). -/
def State.addArm (s : State) (d : Ck) (e : QEntry) (w : Nat) : State :=
  { s with tile := { s.tile with arms := s.tile.arms ++
      [{ win := w, seq := e.seq, tag := Rec.tag e.raw, tf := d.tf, tl := d.tl, layer := d.layer, kind := d.kind, metaOff := d.metaOff, tabOff := d.tabOff,
         o2Off := d.o2Off, metaScale := d.metaScale, aScale := d.aScale, o2BsOff := d.o2BsOff, step := e.step.getD 0,
         bound := none }] } }

def execCastArm (w : Fin 8) (q : Nat) (s : State) : Host.Outcome State Fault Refusal :=
  onSeq w q 3 (fun r => (ckOf r).op == 3) s fun e => s.addArm (ckOf e.raw) e w

/-- The reservation from the next step boundary (R118). -/
def execPlanReserve (w : Fin 8) (q : Nat) (s : State) : Host.Outcome State Fault Refusal :=
  onSeq w q 3 (fun r => (ckOf r).op == 4) s fun e =>
    { s with tile := { s.tile with reserveNext := some (ckOf e.raw).len } }

/-- A layer's cast lengths and count from the next step boundary (R118). -/
def execPlanLayer (w : Fin 8) (q : Nat) (s : State) : Host.Outcome State Fault Refusal :=
  onSeq w q 3 (fun r => (ckOf r).op == 5) s fun e =>
    let d := ckOf e.raw
    let x : PlanLayer := { f8Len := d.len, h16Len := d.h16Len, mbCount := d.mbCount }
    { s with tile := { s.tile with planNext := s.tile.planNext.insert d.layer x } }

/-! ### Page moves -/

/-- A spill or refill copy lands: the page's home changes, or the page is discarded at its new home where a pop has freed it
meanwhile; the watermarks are tested again (R103, R104, R106). -/
def State.castMoveDone (s : State) (t p : Nat) : State :=
  match s.page t p with
  | .movingOut => (((s.setPage t p .spilled).count Obj.castPagesSpilled 1).delivered 65536).castTest t
  | .movingIn => (((s.setPage t p .resident).count Obj.castPagesRefilled 1).delivered 65536).castTest t
  | .dropOut => (((s.setPage t p .absent).count Obj.castPagesSpilled 1).delivered 65536).castTest t
  | .dropIn => (((s.setPage t p .absent).count Obj.castPagesRefilled 1).delivered 65536).castTest t
  | _ => s

def execCastPageMoveDone (t : Fin 192) (p : Nat) (s : State) : Host.Outcome State Fault Refusal := .next (s.castMoveDone t p)

end Sys2Proof.Machine
end

