-- ==== Sys2Proof/Machine/Sync.lean ====
section
/-! DEFINITION. Sync records, semaphores, barriers and completion in a tile (R156 to R168). -/
namespace Sys2Proof.Machine

/-! ### Checks (Table 6.4) -/

/-- The lowest failing reason among 0x61 to 0x64, 0 if none fails. -/
def Sy.check (d : Sy) : Nat :=
  if 5 < d.op then 0x61
  else if (d.op ≠ 3 ∧ ¬ (d.tf ≤ d.tl ∧ d.tl ≤ 191)) ∨ (d.op = 0 ∧ ¬ (d.dstFirst ≤ d.dstLast ∧ d.dstLast ≤ 191)) then 0x62
  else if d.op ≤ 1 ∧ d.value = 0 then 0x63
  else if d.form = 3 ∨ (d.layer = 0 ∧ d.form ≠ 0) then 0x64
  else 0

/-- A sync record fails a check: it is refused with status sync-fault, and the event and counter follow (R165). -/
def State.syncRefuse (s : State) (w : Nat) (e : QEntry) (reason : Nat) : State :=
  ((s.raise Ev.syncFault []).countSat Obj.syncFaults 1).refuse w e 4 reason

/-- Run a sync command in a tile on a record of an op, where it may run and has not yet (R157). -/
def onSync (w : Fin 8) (q : Nat) (t : Fin 192) (op : Nat) (s : State) (f : QEntry → Sy → State) : Host.Outcome State Fault Refusal :=
  match s.entry w q with
  | some e =>
    if Rec.kind e.raw = 4 ∧ (syOf e.raw).op = op ∧ s.mayRun w e t ∧ s.arrayOn ∧ ¬ e.skip ∧ ¬ (s.share w q t).ran then .next (f e (syOf e.raw))
    else .next s
  | none => .next s

/-- The record has done its part in the tile. -/
def State.ranSync (s : State) (w q t : Nat) : State :=
  s.setShare w q t { s.share w q t with ran := true, started := true, waitFrom := none, waitTold := false }

/-- SEM_SIGNAL: from a source tile, `value` for semaphore `sem` of each destination sets out on the control network (R151, R164). -/
def execSemSignal (w : Fin 8) (q : Nat) (t : Fin 192) (s : State) : Host.Outcome State Fault Refusal :=
  onSync w q t 0 s fun e d =>
    let s := (tileRange d.dstFirst d.dstLast).foldl (fun s u => s.passTiles t u 1 (recKey w q)) (s.ranSync w q t)
    { s with tile := { s.tile with signals := s.tile.signals ++
        (tileRange d.dstFirst d.dstLast).map fun u => { tile := u, sem := d.sem, value := d.value, win := w, seq := q, tag := Rec.tag e.raw } } }

/-- The oldest signal on its way to a tile reaches it and is added (R158 to R160). -/
def State.signalArrive (s : State) (u : Nat) : State :=
  match s.tile.signals.find? fun g => g.tile == u with
  | none => s
  | some g =>
    let s := { s with tile := { s.tile with signals := s.tile.signals.erase g } }
    (s.count Obj.cnMessages 1).semAdd u g.sem g.value g.win g.seq g.tag

def execSemSignalArrive (u : Fin 192) (s : State) : Host.Outcome State Fault Refusal := .next (s.signalArrive u)

/-- SEM_WAIT: once the count is at least n, n is subtracted (R158). -/
def execSemWait (w : Fin 8) (q : Nat) (t : Fin 192) (s : State) : Host.Outcome State Fault Refusal :=
  onSync w q t 1 s fun _ d =>
    if s.sem t d.sem < d.value then s.beginWait w q t
    else ((s.count Obj.syncWaitCycles (s.waited (s.share w q t))).setSem t d.sem (s.sem t d.sem - d.value)).ranSync w q t

/-- Does any dispatched record wait on the semaphore in tile `t`? -/
def State.waitedOn (s : State) (t i : Nat) : Bool :=
  s.running.any fun p => (s.share p.1 p.2.seq t).waitFrom.isSome && !(s.share p.1 p.2.seq t).started &&
    (waitSem p.2.raw == some i || (Rec.kind p.2.raw == 4 && (syOf p.2.raw).op == 1 && (syOf p.2.raw).sem == i))

/-- SEM_SET: the count becomes v; reason 0x66 is checked when the record starts (R165). -/
def execSemSet (w : Fin 8) (q : Nat) (t : Fin 192) (s : State) : Host.Outcome State Fault Refusal :=
  onSync w q t 2 s fun e d =>
    let tiles := tileRange d.tf d.tl
    if tiles.all (fun u => !(s.share w q u).ran && !e.tiles.contains u) ∧ tiles.any (fun u => s.waitedOn u d.sem) then
      s.syncRefuse w e 0x66
    else (s.setSem t d.sem d.value).ranSync w q t

/-- BAR_ARM: the target is set at dispatch; reason 0x65 is checked then (R161, R165). -/
def State.barArm (s : State) (w : Nat) (e : QEntry) : State :=
  let d := syOf e.raw
  let x := s.chan d.barCh
  if x.count ≠ 0 then s.syncRefuse w e 0x65
  else s.setChan d.barCh { x with target := d.value, armWin := w, armSeq := e.seq, armTag := Rec.tag e.raw }

def execBarArm (w : Fin 8) (q : Nat) (s : State) : Host.Outcome State Fault Refusal :=
  onSeq w q 4 (fun r => (syOf r).op == 3) s fun e => s.barArm w e

/-- BAR_ARRIVE: one arrival from the tile (R162). -/
def execBarArrive (w : Fin 8) (q : Nat) (t : Fin 192) (s : State) : Host.Outcome State Fault Refusal :=
  onSync w q t 4 s fun e d => ((s.ranSync w q t).passArray (fun r => .toSpine r 2) [t] (recKey w q)).arrive d.barCh w q (Rec.tag e.raw)

/-- A release reaches a tile; past 65 535 it is not counted and faults against the window that armed the channel (R163, R504). The
sync-fault event carries reason, tile and channel (DESIGN CHOICE, log entry 127: R160 names tile and semaphore). -/
def State.release (s : State) (t c : Nat) : State :=
  if s.tile.relFlight.get 0 (64 * t + c) = 0 then s
  else
    let s := { s with tile := { s.tile with relFlight := s.tile.relFlight.upd 0 (64 * t + c) (· - 1) } }
    let s := s.passArray (fun r => .fromSpine r 2) [t] c
    let n := s.tile.rels.get 0 (64 * t + c)
    if 65535 ≤ n then s.syncFault (s.chan c).armWin (s.chan c).armSeq (s.chan c).armTag 0x68 [p8 0x68, p8 t, p8 c]
    else { s with tile := { s.tile with rels := s.tile.rels.set 0 (64 * t + c) (n + 1) } }

def execBarrierRelease (t : Fin 192) (c : Fin 64) (s : State) : Host.Outcome State Fault Refusal := .next (s.release t c)

/-- BAR_WAIT: once the tile's release count is at least 1, it is decremented (R163). -/
def execBarWait (w : Fin 8) (q : Nat) (t : Fin 192) (s : State) : Host.Outcome State Fault Refusal :=
  onSync w q t 5 s fun _ d =>
    let k := 64 * t.val + d.barCh
    let n := s.tile.rels.get 0 k
    if n = 0 then s.beginWait w q t
    else
      let s := s.count Obj.syncWaitCycles (s.waited (s.share w q t))
      { s with tile := { s.tile with rels := s.tile.rels.set 0 k (n - 1) } }.ranSync w q t

/-! ### The sync watchdog (R168) -/

/-- What the record waits on: selector and number, the semaphore or the channel. -/
def waitsOn (r : Rec) : List Bytes :=
  if Rec.kind r = 4 then
    (if (syOf r).op = 5 then [p8 1, p8 (syOf r).barCh] else [p8 0, p8 (syOf r).sem])
  else [p8 0, p8 ((waitSem r).getD 0)]

/-- A semaphore or barrier wait that has outlasted the timeout in force when it began is reported, and goes on (R168, R188). -/
def State.syncTimeout (s : State) (w : Nat) (e : QEntry) (t : Nat) : State :=
  let x := s.share w e.seq t
  match x.waitFrom with
  | none => s
  | some f =>
    if x.started ∨ x.waitTold ∨ s.now - f ≤ x.waitLimit * ms then s
    else
      let s := s.setShare w e.seq t { x with waitTold := true }
      let s := (s.raise Ev.syncTimeout ([p8 t, p32 e.seq] ++ waitsOn e.raw)).countSat Obj.syncTimeouts 1
      if e.late then s
      else (s.updEntry w e.seq fun e => { e with late := true }).formRing w 1 5 0 (Rec.tag e.raw) e.seq

def execSyncTimeout (w : Fin 8) (q : Nat) (t : Fin 192) (s : State) : Host.Outcome State Fault Refusal :=
  match s.entry w q with
  | some e => if e.disp then .next (s.syncTimeout w e t) else .next s
  | none => .next s

/-! ### Completion in a tile (R156) -/

/-- Has the record done its work in the tile, so that it completes once its writes are acknowledged? A skipped record only waits on its
semaphore (R73). -/
def State.tileDone (s : State) (w : Nat) (e : QEntry) (t : Nat) : Bool :=
  let x := s.share w e.seq t
  if e.skip then (waitSem e.raw).isNone || x.started
  else if Rec.kind e.raw = 1 then s.mxShareDone w e t
  else if Rec.kind e.raw = 3 then e.unit
  else x.ran

/-- What completing in the tile does beyond reporting: the stack changes, a bank read through loc 2 is released (R101, R129); a skipped
product counts the loads it would have made (R250). -/
def State.tileEffect (s : State) (w : Nat) (e : QEntry) (t : Nat) : State :=
  if e.skip then
    if Rec.kind e.raw = 1 then
      let d := mxOf e.raw
      (d.outs (d.group t)).foldl (fun s o => s.countLoads d t o) s
    else s
  else if Rec.kind e.raw = 3 then s.applyStack (ckOf e.raw) e w t
  else if Rec.kind e.raw = 2 ∧ (vxOf e.raw).aLoc = 2 ∧ ¬ (vxOf e.raw).accKeep then
    match s.heldBank t with
    | some i => s.setBank t i Bank.empty
    | none => s
  else s

/-- The tile increments sem_done, arrives at its barrier and reports (R156, R158, R162). -/
def State.tileReport (s : State) (w : Nat) (e : QEntry) (t : Nat) : State :=
  let s := ((s.reportTile w e.seq t).count Obj.cnMessages 1).passArray (fun r => .toSpine r 1) [t] (recKey w e.seq)
  let s := s.setShare w e.seq t Share.fresh
  let s := match doneSem e.raw with
    | some i => s.semAdd t i 1 w e.seq (Rec.tag e.raw)
    | none => s
  match doneBar e.raw with
  | some c => (s.passArray (fun r => .toSpine r 2) [t] (recKey w e.seq)).arrive c w e.seq (Rec.tag e.raw)
  | none => s

def State.tileComplete (s : State) (w : Nat) (e : QEntry) (t : Nat) : State :=
  if ¬ s.mayRun w e t then s
  else
    let s := if e.skip then
        (s.startShare w e t (if Rec.kind e.raw = 1 then Obj.mxStallOperand else Obj.vxWaitCycles)).1 else s
    if s.tileDone w e t then (s.tileEffect w e t).tileReport w e t else s

def execTileRecordComplete (w : Fin 8) (q : Nat) (t : Fin 192) (s : State) : Host.Outcome State Fault Refusal :=
  match s.entry w q with
  | some e => .next (s.tileComplete w e t)
  | none => .next s

end Sys2Proof.Machine
end

