-- ==== Sys2Proof/Machine/Windows.lean ====
section
/-! DEFINITION. Command windows (chapter 7): trailer writes and acceptance (R178), credit (R184), ring writes and interrupts (R186,
R200), ownership and leases (R196 to R198), halting and resuming (R194). -/
namespace Sys2Proof.Machine

/-! ### Slots -/

/-- Address of byte `i` of slot `k` of window `w` in BAR0 (R173). -/
def slotAddr (w k i : Nat) : Nat := 65536 * w + 64 * k + i

/-- The 64 bytes a slot holds, as a record. -/
def State.slot (s : State) (w k : Nat) : Rec := BitVec.ofNat 512 (unle (memRead s.cmd.bar0 (slotAddr w k 0) 64))

/-- Is the slot written: every trailer byte marked (R178)? -/
def Window.isWritten (x : Window) (k : Nat) : Bool := x.marks.get 0 k == 255

/-- Clear every slot of a window: bytes read zero, no byte is marked (R178, R194). -/
def State.clearSlots (s : State) (w : Nat) : State :=
  let s := { s with cmd := { s.cmd with bar0 := memClear s.cmd.bar0 (65536 * w) 65536 } }
  s.updWin w fun x => { x with marks := [], fresh := [], due := false }

/-- The bytes 0 to 61 that a record's CRC covers (Table 7.5). -/
def crcOk (r : Rec) : Bool := crc16 ((recBytes r).take 62) == Rec.crc r

/-- Renew a window's lease (R197). -/
def State.renewLease (s : State) (w : Nat) : State := s.updWin w fun x => { x with leaseFrom := s.now, leaseOver := false }

/-! ### Acceptance (R178, R192, R193) -/

/-- The step a step record names (R192). -/
def stepOf (r : Rec) : Nat := Rec.w r 0 63 0

/-- Bookkeeping of an accepted step record: the last step accepted, and the step in progress (R192, R194). -/
def State.acceptStep (s : State) (w : Nat) (r : Rec) : State :=
  let n := stepOf r
  let s := s.updWin w fun x => { x with lastStep := n, lastStepSeq := Rec.seq r, stepSeen := true }
  if s.rd Obj.lastCommittedStep < n then
    let s := s.updWin w fun x => { x with steps := setIns x.steps n }
    if s.cmd.stepNow = none then { s with cmd := { s.cmd with stepNow := some n } } else s
  else s

/-- A queue entry for an accepted record. -/
def QEntry.new (r : Rec) (step : Option Nat) (x : Window) : QEntry :=
  { seq := Rec.seq r, raw := r, step := step, follows := if x.stepSeen then some x.lastStep else none, audited := true, port := none,
    disp := false, tiles := [], unit := false, status := 0, reason := 0, late := false,
    value := 0, accCrc := crc32Fin x.accCrc, accCount := x.accCount, dspCrc := 0, dspCount := 0, order := 0, skip := false,
    tick := 0, told := false }

/-- Copy the watched slot into the queue; the accepted CRC and count go on, or restart after an audit record (R193). -/
def State.accept (s : State) (w : Nat) (r : Rec) : State :=
  let before := s.win w
  let s := if Rec.kind r = 0x0B then s.acceptStep w r else s
  let x := s.win w
  let step := if x.stepSeen then some x.lastStep else none
  let e := QEntry.new r step before
  let s := s.updWin w fun x => { x with
    queue := x.queue ++ [e], e := seqNext x.e, due := true
    accCrc := if Rec.kind r = 0x0C then crc32Init else crc32Step x.accCrc (recBytes r)
    accCount := if Rec.kind r = 0x0C then 0 else (x.accCount + 1) % 2 ^ 32 }
  s.count Obj.cmdAccepted 1

/-- Checks 0x82 and 0x84 of a credit record (R189), 0 if both hold. -/
def creditCheck (r : Rec) : Nat :=
  if Rec.eclass r = 3 then 0x82 else if Rec.cmpl r ∨ Rec.depEn r then 0x84 else 0

/-- A credit record retires at acceptance: e advances, and a failed check is completed and halts the window (R178, R189). -/
def State.acceptCredit (s : State) (w : Nat) (r : Rec) : State :=
  let s := (s.updWin w fun x => { x with e := seqNext x.e, due := true }).count Obj.cmdAccepted 1
  let c := creditCheck r
  if c = 0 then s else (s.formReserved w 1 6 c (Rec.tag r) (some (Rec.seq r))).haltWin w 0xA1 (256 * 6 + c)

/-- A watched slot whose trailer names another sequence (R178). -/
def State.wrongSeq (s : State) (w : Nat) (r : Rec) : State :=
  if before (Rec.seq r) (s.win w).e then s.count Obj.staleWrites 1
  else (s.raise Ev.seqAhead [p8 w, p32 (s.win w).e, p32 (Rec.seq r)]).countSat Obj.seqAhead 1

/-- A watched slot whose CRC fails: counted each time, raised once per sequence (R178). -/
def State.badCrc (s : State) (w : Nat) : State :=
  let x := s.win w
  let s := s.countSat Obj.crcErrors 1
  if x.crcSeq = some x.e then s
  else (s.raise Ev.recordCrc [p8 w, p32 x.e]).updWin w fun x => { x with crcSeq := some x.e }

/-- The first valid evaluation of a written version: its credit word is applied and the lease renewed (R178). -/
def State.firstEvaluation (s : State) (w k : Nat) (r : Rec) : State :=
  if (s.win w).fresh.get false k then
    let s := (s.applyCredit w (Rec.crSeq r) (Rec.crValid r)).renewLease w
    s.updWin w fun x => { x with fresh := x.fresh.set false k false }
  else s

/-- `evaluate(w)` of R178, once. A closed window accepts nothing (Table 7.10). A module that is not operational accepts no record; the slot
stays to be evaluated (R485). -/
def State.evaluate (s : State) (w : Nat) : State :=
  let x := s.win w
  let k := x.e % 1024
  let s := s.updWin w fun x => { x with due := false }
  if ¬ x.isWritten k ∨ x.state = .closed then s
  else if s.rd Obj.moduleState ≠ 2 then s.updWin w fun x => { x with due := true }
  else
    let r := s.slot w k
    if Rec.seq r ≠ x.e then s.wrongSeq w r
    else if ¬ crcOk r then s.badCrc w
    else if Rec.win r ≠ w then s.raise Ev.windowMismatch [p8 w, p32 x.e]
    else
      let s := s.firstEvaluation w k r
      if Rec.kind r = 0 then s.acceptCredit w r
      else if 64 ≤ (s.win w).queue.length then s
      else s.accept w r

/-- Bytes of a slot that a write covers: those from `off` that lie within it. -/
def inSlot (off : Nat) (data : Bytes) : Bytes := data.take (64 - off)

/-- The mask of trailer bytes a write covers. -/
def trailerMask (off : Nat) (data : Bytes) : Nat :=
  (List.range 8).foldl (fun m i => if off ≤ 56 + i ∧ 56 + i < off + (inSlot off data).length then m ||| 2 ^ i else m) 0

/-- A write to slot `k` of window `w` through port `p` (R177, R178). A port whose link is down passes nothing. -/
def State.slotWrite (s : State) (p : HostPort) (w k off : Nat) (data : Bytes) : State :=
  let m := trailerMask off data
  if ¬ s.linkUp p then s
  else if s.ideBlocked p then s.count Obj.foreignWrites 1
  else if (s.win w).owner ≠ some p then (if m = 0 then s else s.count Obj.foreignWrites 1)
  else
    let s := { s with cmd := { s.cmd with bar0 := memWrite s.cmd.bar0 (slotAddr w k off) (inSlot off data) } }
    if m = 0 then s
    else
      let s := s.updWin w fun x => { x with marks := x.marks.upd 0 k (· ||| m) }
      if ¬ (s.win w).isWritten k then s
      else
        let s := s.updWin w fun x => { x with fresh := x.fresh.set false k true }
        if k = (s.win w).e % 1024 then s.evaluate w else s

def execCmdTrailerWrite (p : HostPort) (w : Fin 8) (k : Fin 1024) (off : Nat) (data : Bytes) (s : State) :
    Host.Outcome State Fault Refusal := .next (s.slotWrite p w k off data)

/-- Is the record in the watched slot a credit record? -/
def State.watchedCredit (s : State) (w : Nat) : Bool := Rec.kind (s.slot w ((s.win w).e % 1024)) == 0

/-- CREDIT: the slot that became watched holds a credit record, which retires at acceptance (R178). -/
def execCredit (w : Fin 8) (s : State) : Host.Outcome State Fault Refusal :=
  .next (if (s.win w).due ∧ s.watchedCredit w then s.evaluate w else s)

/-- ACCEPT_ON_ROOM: the slot that became watched, or whose queue has room again, is evaluated (R178). -/
def execAcceptOnRoom (w : Fin 8) (s : State) : Host.Outcome State Fault Refusal :=
  .next (if (s.win w).due ∧ ¬ s.watchedCredit w then s.evaluate w else s)

/-! ### Result rings (R185 to R187, R200) -/

/-- The 32 bytes of a ring record (Table 7.7). -/
def RingEnt.bytes (r : RingEnt) : Bytes :=
  p32 r.rseq ++ p32 r.cseq ++ p64 r.ticks ++ p32 r.session ++ p8 r.ty ++ p8 r.status ++ p8 r.reason ++ p8 r.win ++ p64 r.value

/-- The next ring record to write: the first not yet written, once R186 allows it. -/
def State.ringReady (s : State) (w : Nat) : Option (HostPort × RingEnt) :=
  let x := s.win w
  match x.owner, x.ring.find? (fun r => !r.written) with
  | some p, some r =>
    if x.ringOn ∧ ¬ x.withheld ∧ s.linkUp p ∧ ¬ after ((r.rseq + 2 ^ 32 - 2 ^ x.ringOrder) % 2 ^ 32) x.rc then some (p, r) else none
  | _, _ => none

/-- Write one ring record, bytes 4 to 31 first, then its sequence number (R186). -/
def State.writeRing (s : State) (w : Nat) (p : HostPort) (r : RingEnt) : State :=
  let a := (s.win w).ringBase + 32 * (r.rseq % 2 ^ (s.win w).ringOrder)
  let s := (s.emit (.posted p (a + 4) (r.bytes.drop 4))).emit (.posted p a (r.bytes.take 4))
  let s := s.count Obj.ringWritten 1
  s.updWin w fun x => { x with
    ring := x.ring.map fun y => if y.rseq = r.rseq then { y with written := true } else y
    irqCount := x.irqCount + 1
    irqFrom := if x.irqFrom = none then some s.now else x.irqFrom }

def execRingRecordWrite (w : Fin 8) (s : State) : Host.Outcome State Fault Refusal :=
  .next (match s.ringReady w with
    | some (p, r) => s.writeRing w p r
    | none => s)

/-- Is the window's interrupt due (Table 7.12)? -/
def State.irqDue (s : State) (w : Nat) : Bool :=
  let x := s.win w
  let n := s.rd (Obj.irqCount w)
  match x.irqFrom with
  | none => false
  | some f => (n != 0 && decide (n ≤ x.irqCount)) || decide (s.rd (Obj.irqUs w) * us ≤ s.now - f)

/-- RESULT_IRQ: vector n on the owner's port. -/
def State.resultIrq (s : State) (w : Nat) : State :=
  if ¬ s.irqDue w then s
  else
    match (s.win w).owner with
    | none => s
    | some p => (s.interrupt p w).updWin w fun x => { x with irqCount := 0, irqFrom := none }

def execResultIrq (w : Fin 8) (s : State) : Host.Outcome State Fault Refusal := .next (s.resultIrq w)

/-! ### Ownership (R196 to R198, R423) -/

/-- The port number a claim word names: over MCTP 0 or the arrival port, over the field network 1 or 2; none where it is out of
range (R423). -/
def claimPort (src : Src) (n : Nat) : Option HostPort :=
  match src with
  | .fld _ => if n = 1 then some .ha else if n = 2 then some .hb else none
  | .mctp p _ => if n = 0 ∨ n = portNo p then some p else none

/-- Has the owner's lease run out (R196, R197)? -/
def State.leaseExpired (s : State) (w : Nat) : Bool := decide (s.rd (Obj.cwLeaseMs w) * ms ≤ s.now - (s.win w).leaseFrom)

/-- Status of a claim after its range check: 5 for a port it may not name, 8 owned where it is not granted. -/
def State.claimCond (s : State) (src : Src) (w v : Nat) : Nat :=
  match claimPort src (v / 16) with
  | none => 0x05
  | some p =>
    let x := s.win w
    let granted : Bool := match v % 16 with
      | 1 => x.state == .closed
      | 2 => (match x.owner with
        | some o => s.leaseExpired w || !s.linkUp o || s.rd (Obj.ideState (portNo o)) == 3
        | none => false)
      | 3 => true
      | _ => x.owner == some p
    bif granted then 0 else 0x08

/-- A claim takes a closed window (R196). -/
def State.claim (s : State) (w : Nat) (p : HostPort) : State :=
  (s.updWin w fun x => { x with
    owner := some p, state := .opened, leaseFrom := s.now, leaseOver := false, releasing := false, withheld := false }).windowNotice w 0xA3

/-- A takeover: new owner, slots cleared, ring records withheld, state handover, notice (R198). -/
def State.takeover (s : State) (w : Nat) (p : HostPort) : State :=
  let s := s.updWin w fun x => { x with
    owner := some p, state := .handover, withheld := true, leaseFrom := s.now, leaseOver := false, releasing := false }
  (s.clearSlots w).windowNotice w 0xA3

/-- Apply a granted claim word. -/
def State.claimApply (s : State) (src : Src) (w v : Nat) : State :=
  match claimPort src (v / 16) with
  | none => s
  | some p =>
    match v % 16 with
    | 1 => s.claim w p
    | 2 => s.takeover w p
    | 3 => (s.raise Ev.ownershipForced []).takeover w p
    | _ => s.updWin w fun x => { x with releasing := true }

/-- A write of cw_claim. -/
def State.writeClaim (s : State) (src : Src) (w v : Nat) : State :=
  s.act src (Obj.cwClaim w) v false (s.claimCond src w v) fun s => s.claimApply src w v

def execCwClaim (src : Src) (w : Fin 8) (port : Nat) (s : State) : Host.Outcome State Fault Refusal :=
  .next (s.writeClaim src w (1 + 16 * port))
def execCwTakeover (src : Src) (w : Fin 8) (port : Nat) (s : State) : Host.Outcome State Fault Refusal :=
  .next (s.writeClaim src w (2 + 16 * port))
def execCwForcedTakeover (src : Src) (w : Fin 8) (port : Nat) (s : State) : Host.Outcome State Fault Refusal :=
  .next (s.writeClaim src w (3 + 16 * port))
def execCwRelease (src : Src) (w : Fin 8) (port : Nat) (s : State) : Host.Outcome State Fault Refusal :=
  .next (s.writeClaim src w (4 + 16 * port))

/-- CW_RELEASE_DONE: the queue of a released window is empty, and the window closes (R196). -/
def State.releaseDone (s : State) (w : Nat) : State :=
  let x := s.win w
  if x.releasing ∧ x.queue = [] then
    (s.updWin w fun x => { x with owner := none, state := .closed, releasing := false, ringOn := false, withheld := false, due := false }).windowNotice
      w 0xA3
  else s

def execCwReleaseDone (w : Fin 8) (s : State) : Host.Outcome State Fault Refusal := .next (s.releaseDone w)

/-- OWNER_LEASE_EXPIRED: raised once per lapse (R197). -/
def State.leaseLapse (s : State) (w : Nat) : State :=
  let x := s.win w
  if x.owner = none ∨ x.leaseOver ∨ ¬ s.leaseExpired w then s
  else (s.raise Ev.ownerLeaseExpired [p8 w]).updWin w fun x => { x with leaseOver := true }

def execOwnerLeaseExpired (w : Fin 8) (s : State) : Host.Outcome State Fault Refusal := .next (s.leaseLapse w)

/-! ### Resume, halt, renew (R194, R197) -/

/-- Status of a cw_control word from the state check on: resume needs a halted window, reset a halted one or one in handover. -/
def State.controlCond (s : State) (w v : Nat) : Nat :=
  let st := (s.win w).state
  if v = 1 ∧ st ≠ .halted then 0x09
  else if v = 2 ∧ st ≠ .halted ∧ st ≠ .handover then 0x09
  else 0

def State.resume (s : State) (w : Nat) : State := (s.updWin w fun x => { x with state := .opened }).windowNotice w 0xA2

/-- A write of cw_control other than reset. -/
def State.writeControl (s : State) (src : Src) (w v : Nat) (f : State → State) : State :=
  s.act src (Obj.cwControl w) v (!s.isOwner src w) (s.controlCond w v) f

def execCwResume (src : Src) (w : Fin 8) (s : State) : Host.Outcome State Fault Refusal :=
  .next (s.writeControl src w 1 fun s => s.resume w)
def execCwHalt (src : Src) (w : Fin 8) (s : State) : Host.Outcome State Fault Refusal :=
  .next (s.writeControl src w 3 fun s => s.haltWin w 0xA6 0x00A6)
def execLeaseRenew (src : Src) (w : Fin 8) (s : State) : Host.Outcome State Fault Refusal :=
  .next (s.writeControl src w 4 fun s => s.renewLease w)

/-- Apply the ring objects; retained records are to be written into the new ring, and after a takeover the notice 0xA7 follows and
the window opens unless it is halted (R198). -/
def State.ringCommit (s : State) (w : Nat) : State :=
  let s := s.updWin w fun x => { x with
    ringOn := true, ringBase := s.rd (Obj.ringBase w), ringOrder := s.rd (Obj.ringOrder w)
    ring := x.ring.map fun r => { r with written := false } }
  if (s.win w).withheld then
    (s.windowNotice w 0xA7).updWin w fun x => { x with withheld := false, state := if x.state = .handover then .opened else x.state }
  else s

def execRingCommit (src : Src) (w : Fin 8) (arg : Nat) (s : State) : Host.Outcome State Fault Refusal :=
  .next (s.act src (Obj.ringCommit w) arg (!s.isOwner src w) 0 fun s => s.ringCommit w)

end Sys2Proof.Machine
end

