-- ==== Sys2Proof/Machine/Group.lean ====
section
/-! DEFINITION. The group a module belongs to (R326 to R328), its mode block and digests (R327), messages to its members (R331), and
the step abort (R194) with its announcement to the group (R505). -/
namespace Sys2Proof.Machine

/-! ### Members, ranks and the anchor (R326) -/

/-- Module numbers of a member bitmap, rising. -/
def membersOf (b : Nat) : List Nat := (List.range 512).filter fun m => b >>> m % 2 == 1

/-- The member bitmap in force. -/
def State.bitmap (s : State) : Nat := s.rd Obj.groupMembers
def State.members (s : State) : List Nat := membersOf s.bitmap
def State.groupN (s : State) : Nat := s.members.length
def State.ownModule (s : State) : Nat := s.rd Obj.planModule
/-- The rank of a module in a bitmap: the members with a lower number. -/
def rankIn (b m : Nat) : Nat := ((membersOf b).filter (· < m)).length
def State.rankOf (s : State) (m : Nat) : Nat := rankIn s.bitmap m
/-- The module number of a rank. -/
def State.memberAt (s : State) (r : Nat) : Nat := s.members.getD r 0xFFFF
def State.others (s : State) : List Nat := s.members.filter (· ≠ s.ownModule)
def State.isMember (s : State) (m : Nat) : Bool := s.bitmap >>> m % 2 == 1
def State.anchor (s : State) : Nat := s.members.headD 0xFFFF

/-- CRC-32 of the 64-byte bitmap (R327). -/
def shapeOf (b : Nat) : Nat := crc32 (le 64 b)

/-- Set what follows from the members in force: size, own rank, anchor, shape digest (R326 to R328). -/
def State.applyShape (s : State) : State :=
  if s.bitmap = 0 then
    (((s.wr Obj.groupSize 0).wr Obj.groupRank 0xFFFF).wr Obj.groupAnchor 0xFFFF).wr Obj.shapeDigest 0
  else
    (((s.wr Obj.groupSize s.groupN).wr Obj.groupRank (s.rankOf s.ownModule)).wr Obj.groupAnchor s.anchor).wr Obj.shapeDigest
      (shapeOf s.bitmap)

/-! ### The mode block (R327, R409) -/

/-- Is the object an RWS object of the mode block's index ranges? -/
def inModeBlock (idx : Nat) (r : ObjRow) : Bool := r.acc == .rws && (idx / 256 == 0x54 || idx / 256 == 0x70 || idx / 256 == 0x74)

/-- Keys of the mode block, rising. -/
def modeKeys : List Nat :=
  (objRows.flatten.flatMap fun r => if inModeBlock r.i0 r then (List.range (r.s1 + 1 - r.s0)).map fun k => 256 * r.i0 + r.s0 + k else []).foldl
    setIns []

/-- Stored bytes of an object. -/
def objBytes (key v : Nat) : Bytes :=
  match objRow (key / 256) (key % 256) with
  | some r => le (r.ty.width key) v
  | none => []

/-- The mode block in force: the objects' bytes, then the form of every layer (R327). -/
def State.modeBlock (s : State) : Bytes :=
  (modeKeys.flatMap fun k => objBytes k (s.rd k)) ++ (List.range 255).flatMap fun l => p8 (s.rd (Obj.fbState (l + 1)))

def State.modeCrc (s : State) : Nat := crc32 s.modeBlock

/-- The staged value of a mode-block object: as in force where nothing is staged (R409). -/
def State.stagedVal (s : State) (k : Nat) : Nat := (s.staged.find k).getD (s.rd k)

/-! ### Messages to members (R331) -/

/-- A message of this module. -/
def State.msg (s : State) (mtype cid step index count : Nat) (body : Bytes) : Msg :=
  { src := s.ownModule, pod := s.rd Obj.planPod, mtype := mtype, level := s.rd Obj.collLevel, group := s.rd Obj.groupId,
    epoch := s.rd Obj.modeEpoch, digest := s.modeCrc, cid := cid, step := step, index := index, rank := s.rd Obj.groupRank, count := count,
    body := body }

/-- Send a message to a module of a pod. -/
def State.sendPod (s : State) (pod dst : Nat) (m : Msg) : State :=
  let s := s.emit (.message pod dst m)
  let s := if m.mtype < 0x30 then s.count Obj.collBytesTx (msgBytes m).length else s
  s.mail { pod := pod, dst := dst, msg := m }

def State.send (s : State) (dst : Nat) (m : Msg) : State := s.sendPod (s.rd Obj.planPod) dst m

/-- Send to every other member. -/
def State.sendAll (s : State) (m : Msg) : State := s.others.foldl (fun s d => s.send d m) s

/-! ### Joining -/

/-- Recall the memory this module has lent, with lend_notice_ms (R244). -/
def State.recallLent (s : State) : State :=
  match s.tier.lentOut with
  | none => s
  | some l =>
    if l.noticeEnd.isSome then s
    else
      let n := s.rd Obj.lendNoticeMs
      let s := { s with tier := { s.tier with lentOut := some { l with noticeEnd := some (s.now + n * ms) } } }
      s.send l.borrower (s.msg 0x31 0 0 0 4 (p32 n))

/-- Start joining: nothing is held from any member yet, and memory lent to a neighbour is recalled (R244, R329, R330). A group of one has no other member to wait for. -/
def State.startJoin (s : State) : State :=
  let s := s.applyShape
  let st := if s.bitmap = 0 then 0 else if s.others.isEmpty then 2 else 1
  let s := s.wr Obj.groupState st
  let s := if st = 1 then s.recallLent else s
  { s with coll := { s.coll with peers := [], joinFrom := s.now, joinTold := false, capAt := none, capLast := [], served := [], restart := st == 2 } }

/-- Let values take force in the mode block; what they equal leaves the staged table. -/
def State.takeForce (s : State) (vs : Tab Nat) : State :=
  let was := s.bitmap
  let s := vs.foldl (fun s (k, v) => { s.wr k v with staged := if s.stagedVal k = v then s.staged.erase k else s.staged }) s
  if s.bitmap = was then s else s.startJoin

/-! ### The step abort (R194) -/

/-- The step an abort concerns: the one in progress, else the next. -/
def State.abortTarget (s : State) : Nat := s.cmd.stepNow.getD (s.rd Obj.lastCommittedStep + 1)

/-- op of a record's descriptor, bits 63 to 60 of its first word. -/
def Rec.op (r : Rec) : Nat := Rec.w r 0 63 60

/-- Does an abort of step `n` discard the record? Those of step n and later, every stream (R254) and every collective whose span it
frees (R336); never a drain (R280). -/
def QEntry.aborted (e : QEntry) (n : Nat) : Bool :=
  let k := Rec.kind e.raw
  if k = 8 ∧ Rec.op e.raw = 5 then false
  else (match e.step with
    | some m => decide (n ≤ m)
    | none => false) || (k == 5 && Rec.op e.raw == 3) || k == 6

/-- Discard one record: its completion carries status discarded (R188). -/
def State.discard (s : State) (w : Nat) (e : QEntry) : State := s.retire w { e with status := 7, reason := 0 }

/-- Discard the records of a window that an abort of step `n` takes. -/
def State.discardWin (s : State) (n w : Nat) : State :=
  ((s.win w).queue.filter fun e => e.aborted n).foldl (fun s e => s.discard w e) s

/-- Is a record still held in its window's queue? -/
def State.held (s : State) (key : Nat) : Bool := (s.entry (keyWin key) (keySeq key)).isSome

/-- A record that outlives a restart of the audit enters no value after it; an audit record finds both accepted values restarted (R193). -/
def QEntry.restartAudit (e : QEntry) : QEntry := { e with audited := false, accCrc := crc32Fin crc32Init, accCount := 0 }

/-- Restart a window's audit values (R193). -/
def Window.restartAudit (x : Window) : Window :=
  { x with accCrc := crc32Init, accCount := 0, dspCrc := crc32Init, dspCount := 0
           queue := x.queue.map fun e => if e.disp then e else e.restartAudit }

/-- Empty the cast stacks, semaphores, releases, arrivals and staging rings; barrier targets and generations stay (R108, R170, R254).
The counts of passes of committed steps stay (R223). -/
def State.clearTiles (s : State) : State :=
  { s with tile := { s.tile with
      banks := [], shares := s.tile.shares.filter fun x => s.held (x.1 / 256)
      dir := [], stack := [], castMem := [], pages := [], depth := 0, arms := [], sems := [], rels := [], relFlight := [], signals := []
      chans := s.tile.chans.map fun c => (c.1, { c.2 with count := 0 })
      rings := s.tile.rings.map fun r => (r.1, { r.2 with fill := 0, grans := [] })
      counts := (s.tile.counts.filter fun c => decide (c.1 / 512 = kState)), later := [] } }

/-- Engines whose sample is gone are idle. -/
def State.freeEngines (s : State) : State :=
  (List.range 16).foldl (fun s k =>
    if s.rd (Obj.decState (k + 1)) = 1 ∧ ¬ s.store.samples.any (fun x => x.2.engine == k && !x.2.formed) then s.wr (Obj.decState (k + 1)) 0
    else s) s

/-- A stall for differing modes ends: its cycles are counted, the group is active again, and the episode closes (R349). -/
def State.endStall (s : State) : State :=
  let s := match s.coll.stallFrom with
    | some f => (s.count Obj.collMismatchCycles ((s.now - f) * 14)).endEpisode Ev.modeMismatch 0
    | none => s
  let s := if s.rd Obj.groupState = 3 then s.wr Obj.groupState 2 else s
  { s with coll := { s.coll with differing := [], stallFrom := none } }

/-- Page waits of records that are gone end, and their cycles count (R239). -/
def State.endWaits (s : State) : State :=
  (s.tier.waits.filter fun x => !s.held x.1).foldl (fun s x => s.endPageWait x.1) s

/-- Drop what the units hold for records that are gone. -/
def State.clearUnits (s : State) (n : Nat) : State :=
  let s := s.endStall.endWaits
  let s := { s with
    spans := []
    coll := { s.coll with
      jobs := s.coll.jobs.filter fun j => s.held j.1
      sent := s.coll.sent.filter fun x => s.held (recKey x.win x.seq)
      inbox := s.coll.inbox.filter fun m => decide (m.step < n)
      snaps := s.coll.snaps.filter fun x => s.held x.1
      lossSeen := s.coll.lossSeen.filter fun m => decide (m < n)
      lastSeen := s.coll.lastSeen.filter fun m => decide (m < n)
      agrees := 0, scalars := 0, gathers := 0, loss := none, groupCounts := none, agreedFor := none }
    tier := { s.tier with
      fills := s.tier.fills.filter fun x => s.held (x.1 / 256)
      gated := s.tier.gated.filter s.held
      moveLeft := s.tier.moveLeft.filter fun x => s.held x.1
      regions := s.tier.regions.map fun ((h, r) : Nat × Region) => (h, { r with freeing := r.freeing.filter s.held }) }
    store := { s.store with
      appends := s.store.appends.filter fun x => s.held x.1
      fixed := s.store.fixed.filter fun x => s.held x.1
      samples := s.store.samples.filter fun x => s.held x.1 } }
  let s := s.freeEngines
  let gone := s.upd.arms.filter fun (a : UpdArm) => decide (n ≤ a.step)
  let s := { s with upd := { s.upd with
    arms := s.upd.arms.filter fun a => decide (a.step < n), waitFrom := none, waitTold := false
    journal := s.upd.journal.map fun ((l, j) : Nat × Journal) =>
      if j.state = 2 ∧ gone.any (fun a => a.layer == l && a.step == j.passStep) then
        (l, { j with state := 1, passStep := j.committed }) else (l, j) } }
  match s.coll.prepare with
  | some p => if s.held (recKey p.win p.seq) then s
    else
      let s := if p.fwActivate then (s.wr Obj.actMode 0).wr Obj.actStep 0 else s
      { ((s.wr Obj.prepEpoch 0).wr Obj.prepStep 0) with coll := { s.coll with prepare := none }, prep := [] }
  | none => s

/-- What an abort of step `n` does to one window: slots cleared, audit restarted, its steps forgotten, a step notice where it holds n,
and an owned window halts with reason 0xA5. -/
def State.abortWin (s : State) (n cause w : Nat) : State :=
  let s := s.clearSlots w
  let had := (s.win w).steps.contains n
  let s := s.updWin w fun x => { x.restartAudit with steps := x.steps.filter (· < n) }
  let s := if had then s.formNotice w 3 7 cause n else s
  if (s.win w).owner = none then s
  else (s.updWin w fun x => { x with state := .halted, haltCause := 0x0700 + cause }).windowNotice w 0xA5

/-- The step abort with its cause (R194). -/
def State.abortStep (s : State) (cause : Nat) : State :=
  let n := s.abortTarget
  let s := (List.range 8).foldl (fun s w => s.discardWin n w) s
  let s := (s.clearTiles.clearUnits n)
  let s := (List.range 8).foldl (fun s w => s.abortWin n cause w) s
  { s with cmd := { s.cmd with stepNow := none } }

/-- The module's abort for a fault that leaves it a sound member is announced to its group (R505). -/
def State.abortAnnounce (s : State) (cause : Nat) : State :=
  let n := s.abortTarget
  let s := s.abortStep cause
  if s.bitmap = 0 then s
  else s.sendAll (s.msg 0x04 0 n 0 16 (p64 n ++ p8 cause ++ List.replicate 7 0))

/-- STEP_ABORT: the host's action, refused with status state where no step is in progress. -/
def execStepAbort (src : Src) (arg : Nat) (s : State) : Host.Outcome State Fault Refusal :=
  .next (s.act src Obj.stepAbort arg false (if s.cmd.stepNow = none then 0x09 else 0) fun s => s.abortStep 0x91)

/-! ### Window reset (R195) -/

/-- Is a reset of the window during a step: does it hold a record that follows a step record of a step not committed? -/
def State.resetInStep (s : State) (w : Nat) : Bool :=
  (s.win w).queue.any fun e => match e.follows with
    | some m => decide (s.rd Obj.lastCommittedStep < m)
    | none => false

/-- Discard the records accepted and not dispatched, clear the slots and restart the audit (R193, R195). -/
def State.resetWin (s : State) (w : Nat) : State :=
  let s := if s.resetInStep w then s.abortStep 0x96 else s
  let s := ((s.win w).queue.filter fun e => !e.disp).foldl (fun s e => s.discard w e) s
  let s := (s.clearSlots w).updWin w Window.restartAudit
  s.windowNotice w 0xA4

def execCwReset (src : Src) (w : Fin 8) (s : State) : Host.Outcome State Fault Refusal :=
  .next (s.writeControl src w 2 fun s => s.resetWin w)

/-! ### Fabric parity (R169) -/

/-- The number of a physical tile, row × 17 + column, from its key row × 32 + column. -/
def physNo (x : Nat) : Nat := x / 32 * 17 + x % 32

/-- Physical tiles with an entry of the field log or the retired list that has not been taken out. -/
def State.tileEntered (s : State) (x : Nat) : Bool :=
  s.start.retired.contains x || s.start.fieldLog.any fun e => decide (e.cause ≤ 3) && e.what == [x]

/-- Enter a physical tile in the field log, once, with tile-retire-pending (R493). -/
def State.tileEntry (s : State) (x cause : Nat) : State :=
  if s.tileEntered x then s else (s.fieldEntry cause [x]).raiseKept Ev.tileRetirePending [p8 (x / 32), p8 (x % 32), p8 cause]

/-- FABRIC_PARITY: event, count, the third error attributed to a tile enters it in the field log, and the step aborts with cause 0x92
in the whole group. -/
def State.fabricParity (s : State) (network : Nat) (tile : Option Nat) (tree : Nat) : State :=
  let s := match tile with
    | some x => s.raise Ev.fabricParity [p8 network, p8 0, p8 (physNo x)]
    | none => s.raise Ev.fabricParity [p8 network, p8 1, p8 tree]
  let s := s.countSat Obj.fabricParity 1
  let s := match tile with
    | some x =>
      let n := s.tile.parity.get 0 x + 1
      let s := { s with tile := { s.tile with parity := s.tile.parity.insert x n } }
      if n = 3 then s.tileEntry x 1 else s
    | none => s
  s.abortAnnounce 0x92

def execFabricParity (network : Nat) (tile : Option Nat) (tree : Nat) (s : State) : Host.Outcome State Fault Refusal :=
  .next (s.fabricParity network tile tree)

end Sys2Proof.Machine
end

