-- ==== Sys2Proof/Machine/Tier.lean ====
section
/-! DEFINITION. The tier manager (chapter 9): pools and allocation classes (R229 to R235), eviction (R236, R237), single-home moves
(R238 to R241), regions, and the tier records with their checks (R232, R255, R256). -/
namespace Sys2Proof.Machine

/-! ### Descriptor (Table 9.4) -/

/-- A tier descriptor; offsets and lengths are in bytes. -/
structure Tm where
  op : Nat
  form : Nat
  layer : Nat
  tf : Nat
  tl : Nat
  cls : Nat
  tier : Nat
  ring : Nat
  bcast : Bool
  basePage : Nat
  ringPages : Nat
  uses : Nat
  handle : Nat
  /-- size_pages of create, first_page of move, run_count of stream. -/
  low : Nat
  pageCount : Nat
  srcOff : Nat
  runBytes : Nat
  stride : Nat
  tileStride : Nat
  deriving DecidableEq, Repr

def tmOf (r : Rec) : Tm :=
  { op := Rec.w r 0 63 60, form := Rec.w r 0 59 58, layer := Rec.w r 0 57 50, tf := Rec.w r 0 49 42, tl := Rec.w r 0 41 34,
    cls := Rec.w r 0 33 30, tier := Rec.w r 0 29 28, ring := Rec.w r 0 27 26, bcast := Rec.w r 0 25 25 == 1,
    basePage := Rec.w r 0 24 20, ringPages := Rec.w r 0 19 14, uses := Rec.w r 0 13 6, handle := Rec.w r 1 63 32,
    low := Rec.w r 1 31 0, pageCount := Rec.w r 2 63 32, srcOff := 64 * Rec.w r 2 63 24, runBytes := 64 * Rec.w r 2 23 0,
    stride := 64 * Rec.w r 3 63 24, tileStride := 64 * Rec.w r 3 23 0 }

/-! ### Pools (R229, R234) -/

/-- Pages of a region whose state satisfies `f`; pages not listed stand as `fresh`. -/
def Region.count (r : Region) (f : RPage → Bool) : Nat :=
  (r.pages.filter fun p => f p.2).length + (if f r.fresh then r.size - r.pages.length else 0)

/-- The tier of a home: 1 tier T1, 2 T2, 3 T3, 0 discarded. -/
def Home.tier : Home → Nat
  | .t1 => 1 | .t2 => 2 | .hostA => 3 | .hostB => 3 | .neighbour => 3 | .gone => 0

/-- Is a region an image whose drain has begun and whose checkpoint is not taken? The tier T1 pages it has vacated stay allocated to it
(R278). -/
def State.notTaken (s : State) (h : Nat) : Bool := s.store.partDrains.contains h || s.store.drains.any fun d => d.2 == h

/-- Pages of a class homed in a tier (0x6001 to 0x6003): regions, the cast-spill reservation (class 3), memory lent out (class 10). -/
def State.classIn (s : State) (t cls : Nat) : Nat :=
  ((s.tier.regions.filter fun r => r.2.cls == cls).map fun r => r.2.count fun p => p.home.tier == t).sum +
  (if t = 1 ∧ cls = 4 then
    ((s.tier.regions.filter fun r => r.2.cls == 4 && s.notTaken r.1).map fun r => r.2.count fun p => p.home == .t2).sum else 0) +
  (if t = 1 ∧ cls = 3 then 192 * s.tile.reserve else 0) +
  (if t = 1 ∧ cls = 10 then (s.tier.lentOut.map LentOut.pages).getD 0 else 0)

/-- Does a move take a pool page of tier `t`? A retirement goes to a spare page and takes none (R262). -/
def RPage.taking (t : Nat) (p : RPage) : Bool :=
  match p.move with
  | some m => m.dst.tier == t && (match m.why with
    | .retire _ => false
    | _ => true)
  | none => false

/-- Is a move taking the page out of tier `t`? -/
def RPage.leaving (t : Nat) (p : RPage) : Bool := p.home.tier == t && (match p.move with
  | some m => m.dst.tier != t
  | none => false)

def State.pagesThat (s : State) (f : RPage → Bool) : Nat := (s.tier.regions.map fun r => r.2.count f).sum

/-- Sum pages of the collective engine homed in tier T1 (R336). -/
def State.sumPagesT1 (s : State) : Nat := (s.spans.map fun x => x.2.evicted.length).sum

/-- The three lenders of tier T3: 0 HA, 1 HB, 2 a neighbour. -/
def State.lender (s : State) (n : Nat) : Lender :=
  match n with
  | 0 => s.tier.hostA | 1 => s.tier.hostB | _ => s.tier.neighbour
def State.setLender (s : State) (n : Nat) (x : Lender) : State :=
  match n with
  | 0 => { s with tier := { s.tier with hostA := x } }
  | 1 => { s with tier := { s.tier with hostB := x } }
  | _ => { s with tier := { s.tier with neighbour := x } }
def lenderHome : Nat → Home
  | 0 => .hostA | 1 => .hostB | _ => .neighbour
/-- The key of a lender's state: 0 none, 1 lent, 2 recalling, 3 released, 4 lost (Table 9.7). -/
def lenderKey (n : Nat) : Nat := if n < 2 then Obj.hlState n else Obj.nbState

/-- Pages of a pool, pages in use, free pages. Tier T2 has every user page that no stream zone holds, 31 GiB for each stripe block (R269). -/
def State.pool (s : State) (t : Nat) : Nat :=
  match t with
  | 1 => s.rd Obj.t1PoolPages
  | 2 => s.rd Obj.userPages - 507904 * (s.store.zoneBlocks.map fun z => z.2.length).sum
  | _ => (s.lender 0).pages + (s.lender 1).pages + (s.lender 2).pages
def State.used (s : State) (t : Nat) : Nat :=
  ((List.range 11).map (s.classIn t)).sum + s.pagesThat (RPage.taking t) + (if t = 1 then s.sumPagesT1 else 0)
def State.freeIn (s : State) (t : Nat) : Nat := s.pool t - s.used t

/-- Pinned pages in tier T1 (R235). -/
def State.pinned (s : State) : Nat := ([0, 1, 2, 3, 4, 6, 10].map (s.classIn 1)).sum

/-- Free pages of one lender that takes new pages: it is lent and not being recalled (R244). -/
def State.lenderFree (s : State) (n : Nat) : Nat :=
  if s.rd (lenderKey n) = 1 then
    (s.lender n).pages - s.pagesThat (fun p => p.home == lenderHome n || (match p.move with
      | some m => m.dst == lenderHome n
      | none => false))
  else 0

/-- The home a new page of a tier takes, if the tier has a free page. -/
def State.placeIn (s : State) (t : Nat) : Option Home :=
  match t with
  | 1 => if 0 < s.freeIn 1 then some .t1 else none
  | 2 => if 0 < s.freeIn 2 then some .t2 else none
  | _ => ([0, 1, 2].find? fun n => decide (0 < s.lenderFree n)).map lenderHome

/-- Tiers that may home a class (Table 9.2), and the classes a create record may name. -/
def classTiers (cls : Nat) : List Nat :=
  match cls with
  | 0 | 1 | 2 | 6 => [1]
  | 4 | 7 => [1, 2]
  | 8 | 9 => [1, 3]
  | _ => []

/-- Is a page of the class pinned in the tier? -/
def classPinned (cls t : Nat) : Bool := cls == 0 || cls == 1 || cls == 2 || cls == 6 || (cls == 4 && t == 1)

/-! ### Who uses a region (R232, R237) -/

/-- Regions that a dispatched record reads or writes, by the handles its descriptor names. -/
def handlesOf (r : Rec) : List Nat :=
  let k := Rec.kind r
  let op := Rec.op r
  if k = 5 ∧ op = 3 then [(tmOf r).handle]
  else if k = 2 ∧ (vxOf r).kind = 3 ∧ (vxOf r).bFmt = 2 then [(vxOf r).handle]
  else if k = 9 ∧ Rec.w r 0 63 62 = 1 then [Rec.w r 1 63 32]
  else if k = 6 ∧ op = 1 then [Rec.w r 1 63 32]
  else if k = 6 ∧ op = 2 then [Rec.w r 1 63 32, Rec.w r 2 63 32]
  else if k = 8 ∧ op = 0 then [Rec.w r 2 31 16, Rec.w r 3 63 32, Rec.w r 4 63 32]
  else if k = 8 ∧ op = 1 then [Rec.w r 2 31 16, Rec.w r 4 63 32]
  else if k = 8 ∧ op = 5 then [Rec.w r 3 63 32]
  else if k = 7 ∧ op = 2 then [Rec.w r 1 63 32]
  else []

/-- Regions of a mapped layer. -/
def State.layerHandles (s : State) (l : Nat) : List Nat :=
  (s.upd.maps.filter fun m => m.1 / 16 == l).flatMap fun m => [m.2.stateH, m.2.gradH, m.2.wcH]

/-- Dispatched records, not skipped, that use a region. -/
def State.regionUsers (s : State) (h : Nat) : List (Nat × QEntry) :=
  s.running.filter fun p => !p.2.skip && ((handlesOf p.2.raw).contains h ||
    (Rec.kind p.2.raw == 7 && s.upd.arms.any (fun a => a.win == p.1 && a.seq == p.2.seq && (s.layerHandles a.layer).contains h)))

/-- Does the run of `n` bytes from byte `b` touch page `p`? -/
def meetsPage (b n p : Nat) : Bool := decide (0 < n ∧ b < 65536 * (p + 1) ∧ 65536 * p < b + n)

/-- Does some run of a stream touch page `p` of its source (R248)? -/
def Tm.readsPage (d : Tm) (p : Nat) : Bool :=
  (tileRange d.tf (if d.bcast then d.tf else d.tl)).any fun t => (List.range d.low).any fun k =>
    meetsPage (d.srcOff + k * d.stride + (t - d.tf) * d.tileStride) d.runBytes p

/-- Does an ingest record read or write page `p` of a region: its table, the sample-cache extent of its sample, its output? -/
def State.ingestPage (s : State) (key : Nat) (d : In) (h p : Nat) : Bool :=
  let x := s.sampleEntry d.tableH (sampleOf d.position d.n (s.rd Obj.runSeed))
  let pf := s.store.fixed.get d.pf key
  if d.op = 0 then h == d.tableH || (h == d.srcH && meetsPage d.srcOff x.length p) ||
    (h == d.outH && meetsPage d.outOff (pf.bytes pf.tokens) p)
  else if d.op = 1 then h == d.tableH || (h == d.srcH && meetsPage d.srcOff x.length p)
  else true

/-- Does a dispatched record read or write page `p` of a region that it uses (R237)? -/
def State.usesPage (s : State) (w : Nat) (e : QEntry) (h p : Nat) : Bool :=
  let r := e.raw
  match Rec.kind r, Rec.op r with
  | 5, 3 => (tmOf r).readsPage p
  | 6, 2 =>
    let part := 64 * Rec.w r 3 63 32
    (h == Rec.w r 1 63 32 && meetsPage (64 * Rec.w r 1 31 0) part p) ||
      (h == Rec.w r 2 63 32 && meetsPage (64 * Rec.w r 2 31 0) (if Rec.w r 0 36 28 = 0x1FF then part * s.groupN else part) p)
  | 8, _ => s.ingestPage (recKey w e.seq) (inOf r) h p
  | _, _ => true

/-- Is page `p` of a region read or written by a dispatched record (R237)? -/
def State.pageUsed (s : State) (h p : Nat) : Bool := (s.regionUsers h).any fun u => s.usesPage u.1 u.2 h p

/-! ### The page map (R257) -/

/-- The key of a page: its handle and its number; by it a lender names a page it holds for its borrower. -/
def lentPage (h p : Nat) : Nat := h * 2 ^ 32 + p

/-- The physical page that homes a page in tier T1. Which one the map chose at the allocation is a free value. -/
def State.physOf (s : State) (h p : Nat) : Nat := (s.tier.map.find (lentPage h p)).getD (Config.physPage (lentPage h p))

/-- A page is homed in physical page `x` from now on, which homes no other. -/
def State.mapTo (s : State) (h p x : Nat) : State :=
  { s with tier := { s.tier with map := Tab.insert (s.tier.map.filter fun y => y.2 != x) (lentPage h p) x } }

/-- A page has no physical page of tier T1 any more. -/
def State.unmapPage (s : State) (h p : Nat) : State := { s with tier := { s.tier with map := s.tier.map.erase (lentPage h p) } }

/-! ### Moves (R238, R240) -/

/-- Phases 1 and 2: the page is moving, its home still the source. -/
def State.startMove (s : State) (h p : Nat) (dst : Home) (why : MoveFor) : State :=
  s.updPage h p fun x => { x with move := some { dst := dst, tries := 0, second := false, why := why } }

/-- A page loses its home (R241): it is discarded. Its bytes are what a refetch brings back. -/
def State.discardPage (s : State) (h p : Nat) : State :=
  ((s.updPage h p fun x => { x with home := .gone, move := none, bad := [], refetch := false }).unmapPage h p).count Obj.tmDiscards 1

/-! ### What a lost page costs by its class (Table 9.6) -/

def State.journal (s : State) (l : Nat) : Journal := s.upd.journal.get Journal.reset l

/-- The module has lost state that only a group can restore: its capability frame says so at once (R343). -/
def State.loseState (s : State) : State :=
  let s := s.raise Ev.stateLost []
  { s with coll := { s.coll with stateLost := true } }

/-- A layer's journal enters fault; its update record, if one waits, completes with status state-lost (Table 8.6, R224). -/
def State.layerFault (s : State) (l : Nat) : State :=
  let mine := s.upd.arms.filter fun a => a.layer == l
  let s := mine.foldl (fun s a => s.unitDone a.win a.seq 0x1C 0) s
  { s with upd := { s.upd with
      arms := s.upd.arms.filter fun a => a.layer != l
      journal := s.upd.journal.insert l { s.journal l with state := 6 } } }

/-- Layers whose mapped state, tags included, lies in a region. -/
def State.layersOf (s : State) (h : Nat) : List Nat :=
  ((s.upd.maps.filter fun m => m.2.stateH == h).map fun m => m.1 / 16).eraseDups

/-- Layers whose working copy lies in a region. -/
def State.layersFrom (s : State) (h : Nat) : List Nat := ((s.upd.maps.filter fun m => m.2.wcH == h).map fun m => m.1 / 16).eraseDups

/-- The response to a unit of page `p` of a region of class 0, 1, 2, 8 or 9 that cannot be read; other classes answer through the reading
record or the image's layer. -/
def State.classResponse (s : State) (h p cls : Nat) : State :=
  if cls = 8 ∨ cls = 9 then s.discardPage h p
  else if cls = 2 then s.abortAnnounce 0x94
  else if cls = 1 then
    { s with upd := { s.upd with rebuild := (s.layersFrom h).foldl setIns s.upd.rebuild } }.abortAnnounce 0x94
  else if cls = 0 then ((s.layersOf h).foldl (fun s l => s.layerFault l) s).loseState
  else s

/-! ### Eviction (R236, R237) -/

/-- A page that may be evicted. -/
structure Cand where
  h : Nat
  p : Nat
  cls : Nat
  stamp : Nat
  deriving DecidableEq, Repr

/-- Does `a` go before `b`: the older stamp, then class, handle, page? -/
def Cand.first (a b : Cand) : Bool :=
  if after b.stamp a.stamp then true
  else if after a.stamp b.stamp then false
  else decide (a.cls < b.cls ∨ (a.cls = b.cls ∧ (a.h < b.h ∨ (a.h = b.h ∧ a.p < b.p))))

/-- The lowest number from `p` on, among the next `n`, that satisfies `f`. -/
def firstWhere (f : Nat → Bool) : Nat → Nat → Option Nat
  | 0, _ => none
  | n + 1, p => if f p then some p else firstWhere f n (p + 1)

/-- The lowest page of a region that is not listed and that `used` does not bar. -/
def Region.firstFresh (r : Region) (used : Nat → Bool) : Option Nat := firstWhere (fun p => (r.pages.find p).isNone && !used p) r.size 0

/-- Candidates of one region in a tier: no page that a dispatched record reads or writes, none moving, none with a refetch pending (R237). -/
def State.cands (s : State) (t h : Nat) (r : Region) : List Cand :=
  if r.cls = 7 ∨ r.cls = 8 ∨ r.cls = 9 then
    let ok (x : RPage) : Bool := x.home.tier == t && x.move.isNone && !x.refetch
    ((r.pages.filter fun p => ok p.2 && !s.pageUsed h p.1).map fun p => { h := h, p := p.1, cls := r.cls, stamp := p.2.stamp }) ++
      (if ok r.fresh then
        (match r.firstFresh (s.pageUsed h) with
         | some p => [{ h := h, p := p, cls := r.cls, stamp := r.fresh.stamp }]
         | none => [])
      else [])
  else []

/-- Where an evicted page goes: T2 or T3 where that pool is not at its low mark, nowhere from T3; none where it cannot go. -/
def State.evictDst (s : State) (t cls : Nat) : Option Home :=
  if t = 3 then some .gone
  else if cls = 7 then s.placeIn 2
  else if s.rd Obj.t3Low < s.freeIn 3 then s.placeIn 3
  else none

/-- The candidate of a tier that eviction takes. -/
def State.evictPick (s : State) (t : Nat) : Option Cand :=
  ((s.tier.regions.flatMap fun r => s.cands t r.1 r.2).filter fun c => (s.evictDst t c.cls).isSome).foldl (fun b c =>
    match b with
    | none => some c
    | some x => if c.first x then some c else some x) none

/-- Evict one page of a tier; the Bool says whether one could be taken. -/
def State.evictOne (s : State) (t : Nat) : State × Bool :=
  match s.evictPick t with
  | none => (s, false)
  | some c =>
    match s.evictDst t c.cls with
    | none => (s, false)
    | some .gone => (((s.updPage c.h c.p fun x => { x with home := .gone, move := none, bad := [], refetch := false })).count Obj.tmEvictions 1,
        true)
    | some d => (s.startMove c.h c.p d .evict, true)

/-- Evict until `n` pages of a tier are free or on their way out; the Bool says whether that many could be found. -/
def State.evictFor (s : State) (t n : Nat) : State × Bool :=
  (List.range (n - (s.freeIn t + s.pagesThat (RPage.leaving t)))).foldl (fun (x : State × Bool) _ =>
    if x.2 then x.1.evictOne t else x) (s, true)

/-- Low and high mark of a pool with marks. -/
def State.lowMark (s : State) (t : Nat) : Nat := if t = 1 then s.rd Obj.t1Low else s.rd Obj.t3Low
def State.highMark (s : State) (t : Nat) : Nat := if t = 1 then s.rd Obj.t1High else 2 * s.rd Obj.t3Low

def State.evicting (s : State) (t : Nat) : Bool := if t = 1 then s.tier.evicting1 else s.tier.evicting3
def State.setEvicting (s : State) (t : Nat) (b : Bool) : State :=
  if t = 1 then { s with tier := { s.tier with evicting1 := b } } else { s with tier := { s.tier with evicting3 := b } }

/-- Is E2 work deferred (R18, R368)? -/
def State.e2Deferred (s : State) : Bool := s.rd Obj.deferred != 0

/-- EVICTION: below the low mark pages are evicted, one for each command, until the high mark is reached or on its way. -/
def State.eviction (s : State) (t : Nat) : State :=
  let free := s.freeIn t + s.pagesThat (RPage.leaving t)
  if s.e2Deferred ∨ s.pool t = 0 then s
  else if s.highMark t ≤ free then (s.setEvicting t false).endEpisode Ev.tierFull t
  else if free < s.lowMark t ∨ s.evicting t then
    let (s, ok) := s.evictOne t
    if ok then s.setEvicting t true else (s.setEvicting t false).raiseOnce Ev.tierFull t []
  else s

def execEviction (upper : Bool) (s : State) : Host.Outcome State Fault Refusal := .next (s.eviction (if upper then 1 else 3))

/-! ### Retirement (R262) -/

/-- Pages of the pool taken by retirement, once the spares were used. -/
def State.poolTaken (s : State) : Nat := 33488896 - s.rd Obj.t1PoolPages

/-- A physical page goes on the retired-page list; a spare, or a page of the pool, takes its place. -/
def State.retirePhys (s : State) (x : Nat) : State :=
  if s.tier.retired.contains x then s
  else
    let s := { s with tier := { s.tier with retired := setIns s.tier.retired x } }
    let s := s.wr (Obj.chRetired (x % 16)) (s.rd (Obj.chRetired (x % 16)) + 1)
    let n := s.rd Obj.sparePages
    if n = 0 then
      let s := s.wr Obj.t1PoolPages (s.rd Obj.t1PoolPages - 1)
      if s.poolTaken = 32768 then s.lifeExceed 3 else s
    else
      let s := s.wr Obj.sparePages (n - 1)
      if n - 1 < 1024 then (s.raiseOnce Ev.bankSparesLow 0 []).lifeWarn 3 else s

/-- Enter the page of a region for retirement: it is moved to a spare page; where it is moving already, that move ends first (R240). -/
def State.enterRetire (s : State) (x h p : Nat) : State :=
  match s.region h with
  | none => s.retirePhys x
  | some r =>
    let pg := r.page p
    if s.tier.retired.contains x ∨ s.tier.retiring.any (fun e => e.1 == x) then s
    else if pg.move.isSome then { s with tier := { s.tier with retiring := s.tier.retiring ++ [(x, h, p)] } }
    else if pg.home = .t1 then s.startMove h p .t1 (.retire x)
    else s.retirePhys x

/-! ### The end of a move -/

/-- Records that wait on a page, by their keys. -/
def State.waitersOn (s : State) (h p : Nat) : List Nat := (s.tier.waits.filter fun x => x.2.h == h && x.2.pages.contains p).map Prod.fst

/-- bank-uncorrectable with channel, class, handle and page (R261). -/
def State.tellBad (s : State) (x cls h p : Nat) : State := s.raise Ev.bankUncorrectable [p8 (x % 16), p8 cls, p32 h, p32 p]

/-- The records that wait on a move that is abandoned are answered as though their read had hit an uncorrectable unit of the page's class:
status 0x12, bank-uncorrectable, the retirement of the page where tier T1 homes it, and the response of its class (R238, R261); for an image
the layers whose passes wait. -/
def State.failReaders (s : State) (h p cls : Nat) : State :=
  let ks := s.waitersOn h p
  if ks.isEmpty then s
  else
    let x := s.physOf h p
    let here : Bool := match s.region h with
      | some r => (r.page p).home == .t1
      | none => false
    let ls := (s.upd.arms.filter fun a => ks.contains (recKey a.win a.seq)).map UpdArm.layer
    let s := (ks.foldl (fun s k => (s.endPageWait k).hitStatus (keyWin k) (keySeq k) h) s).tellBad x cls h p
    if cls = 8 ∨ cls = 9 then (if here then (s.discardPage h p).retirePhys x else s.discardPage h p)
    else
      let s := if here then s.enterRetire x h p else s
      if cls = 4 then (ls.foldl (fun s l => s.layerFault l) s).loseState else s.classResponse h p cls

/-- A move record goes on to its next page, keeping the first status that is not done. -/
def State.moveNext (s : State) (key status : Nat) : State :=
  match s.tier.moveLeft.find key with
  | none => s
  | some j =>
    let j' : MoveJob := { next := j.next + 1, status := if j.status = 0 then status else j.status }
    { s with tier := { s.tier with moveLeft := s.tier.moveLeft.insert key j' } }

/-- Pages homed in a lender or on their way out of it. -/
def State.inLender (s : State) (n : Nat) : Nat := s.pagesThat fun p => p.home == lenderHome n

/-- A recalled lender with no page left is released; a neighbour is told (R244). -/
def State.recallDone (s : State) (n : Nat) : State :=
  if s.rd (lenderKey n) = 2 ∧ s.inLender n = 0 then
    let s := (s.wr (lenderKey n) 3).setLender n Lender.none
    if n = 2 then s.send (s.rd Obj.nbModule) (s.msg 0x32 0 0 0 0 []) else s
  else s

/-- Retirements that waited for a move of the page: the page left its physical page, or is moved now. -/
def State.retireWaiting (s : State) (h p : Nat) (left : Bool) : State :=
  let ws := s.tier.retiring.filter fun e => e.2.1 == h && e.2.2 == p
  let s := { s with tier := { s.tier with retiring := s.tier.retiring.filter fun e => !(e.2.1 == h && e.2.2 == p) } }
  ws.foldl (fun s e => if left then s.retirePhys e.1 else s.enterRetire e.1 h p) s

/-- Bytes of a page that a body of lent data holds beside the page's number. -/
def lentPiece : Nat := 7888

/-- Send a lent page to a module, in messages that each fit a body: its number, then a piece (R306, R331). -/
def State.sendPage (s : State) (dst n : Nat) (bs : Bytes) : State :=
  (List.range (ceilDiv bs.length lentPiece)).foldl (fun s i =>
    let b := (bs.drop (lentPiece * i)).take lentPiece
    s.send dst (s.msg 0x35 0 0 i b.length (p64 n ++ b))) s

/-- The move succeeds: the home becomes the destination in one update of the page map (R238); `phys` homes it in tier T1. -/
def State.moveLands (s : State) (h p : Nat) (m : PageMove) (src : Home) (phys : Nat) : State :=
  let s := if src = .t2 then s.readGeneral h p else s
  let s := (s.updPage h p fun x => { x with home := m.dst, move := none, stamp := s.stampNow }).count Obj.tmMoves 1
  let s := if m.dst = .t1 then s.mapTo h p phys else s.unmapPage h p
  let s := { s with store := { s.store with acked := setDel s.store.acked (lentPage h p) } }
  let s := if m.dst = .t2 then s else { s with store := { s.store with pageMap := s.store.pageMap.erase (lentPage h p) } }
  let s := if m.dst = .neighbour then s.sendPage (s.rd Obj.nbModule) (lentPage h p) (s.regionBytes h (65536 * p) 65536) else s
  let s := match m.why with
    | .evict => s.count Obj.tmEvictions 1
    | .retire x => s.retirePhys x
    | .record key => s.moveNext key 0
    | .recall => s
  let s := s.retireWaiting h p (src == .t1)
  s.recallDone (match src with
    | .hostA => 0
    | .hostB => 1
    | _ => 2)

/-- The move is abandoned: the page keeps its home, move-failed is raised, and what waits on it is answered (R238). -/
def State.moveAbandoned (s : State) (h p : Nat) (m : PageMove) (cls t : Nat) : State :=
  let s := s.raise Ev.moveFailed [p8 cls, p32 h, p32 p]
  -- the next candidate is found while this page still counts as moving
  let s := match m.why with
    | .evict => (s.evictOne t).1
    | .record key => s.moveNext key 0x12
    | _ => s
  ((s.updPage h p fun x => { x with move := none }).failReaders h p cls).retireWaiting h p false

/-- A move fails against one destination: it is tried once more against another (R238, R240). -/
def State.moveFails (s : State) (h p : Nat) (m : PageMove) (cls t : Nat) : State :=
  if m.second then s.moveAbandoned h p m cls t
  else s.updPage h p fun x => { x with move := some { m with tries := 0, second := true } }

/-- The destination of a move in tier T3 is lost or takes no new page: the move is tried once more against another (R240, R244). -/
def State.dstLost (s : State) (h p : Nat) (m : PageMove) (cls t : Nat) : State :=
  match s.placeIn 3 with
  | some d => if m.second then s.moveAbandoned h p m cls t
      else s.updPage h p fun x => { x with move := some { m with dst := d, tries := 0, second := true } }
  | none => s.moveAbandoned h p m cls t

/-- PAGE_MOVE_DONE: the copy of a page lands and its CRC is compared; `phys` is the physical page it landed in, where that is in tier
T1. A refetched page lands the same way (R241). -/
def State.pageMoveDone (s : State) (h p : Nat) (good : Bool) (phys : Nat) : State :=
  match s.region h with
  | none => s
  | some r =>
    let pg := r.page p
    match pg.move with
    | some m =>
      if good ∧ m.dst = .t2 ∧ ¬ s.store.acked.contains (lentPage h p) then s
      else if good then s.moveLands h p m pg.home phys
      else
        if m.tries < 2 then
          (s.updPage h p fun x => { x with move := some { m with tries := m.tries + 1 } }).countSat Obj.tmMoveRetries 1
        else
          let s := if m.dst = .t1 ∧ ¬ m.second then s.retirePhys phys else s
          s.moveFails h p m r.cls pg.home.tier
    | none =>
      if pg.home = .gone ∧ pg.refetch ∧ p < r.size then
        match s.placeIn 1 with
        | some d => ((s.updPage h p fun x => { x with home := d, refetch := false, stamp := s.stampNow }).mapTo h p phys).count Obj.tmRefetches 1
        | none => (s.evictOne 1).1
      else s

/-! ### Record checks (Table 9.5) -/

/-- Does some dispatched stream of the ring remain in a tile? -/
def State.ringStreams (s : State) (t ring : Nat) : List (Nat × QEntry) :=
  s.running.filter fun p => Rec.kind p.2.raw == 5 && !p.2.skip && !p.2.unit &&
    (let d := tmOf p.2.raw
     d.op == 3 && d.ring == ring && decide (d.tf ≤ t ∧ t ≤ d.tl))

/-- Does the ring of a tile have a stream that has not retired (reason 0xC5)? -/
def State.ringHeld (s : State) (t ring : Nat) : Bool :=
  s.running.any fun p => Rec.kind p.2.raw == 5 && !p.2.skip &&
    (let d := tmOf p.2.raw
     d.op == 3 && d.ring == ring && decide (d.tf ≤ t ∧ t ≤ d.tl))

/-- Does every run of a stream lie within `n` bytes? -/
def Tm.runsFit (d : Tm) (n : Nat) : Bool :=
  d.low == 0 || decide (d.srcOff + (d.low - 1) * d.stride + d.runBytes + (if d.bcast then 0 else (d.tl - d.tf) * d.tileStride) ≤ n)

/-- Checks 0xC3 and 0xC4 against the region the handle names. -/
def Tm.inRegion (d : Tm) (reg : Option Region) : Bool :=
  match reg with
  | none => false
  | some r =>
    if d.op = 2 then d.pageCount != 0 && decide (d.low + d.pageCount ≤ r.size)
    else if d.op = 3 then d.runsFit (65536 * r.size)
    else true
def Tm.movable (d : Tm) (reg : Option Region) : Bool :=
  match reg with
  | none => false
  | some r => (r.cls == 7 || r.cls == 8 || r.cls == 9) && (classTiers r.cls).contains d.tier

/-- Is a handle that of a create record dispatched and not complete? It is in use from its dispatch on (0xC2). -/
def State.creating (s : State) (h : Nat) : Bool :=
  s.running.any fun p => Rec.kind p.2.raw == 5 && Rec.op p.2.raw == 0 && !p.2.skip && !p.2.unit && (tmOf p.2.raw).handle == h

/-- The lowest failing reason of Table 9.5, 0 if none fails. -/
def State.tmCheck (s : State) (d : Tm) : Nat :=
  let tiles := tileRange d.tf d.tl
  let badSet := (d.op == 3 || d.op == 4) && !decide (d.tf ≤ d.tl ∧ d.tl ≤ 191)
  let reg := s.region d.handle
  if 4 < d.op ∨ ((d.op = 0 ∨ d.op = 2) ∧ d.tier = 0) then 0xC1
  else if d.op = 0 ∧ ¬ ((classTiers d.cls).contains d.tier ∧ reg = none ∧ ¬ s.creating d.handle ∧ 1 ≤ d.handle ∧ d.handle ≤ 0xFFFFFFFE ∧
      (d.cls = 6 → d.handle ≤ 65535) ∧ 1 ≤ d.low ∧ d.low ≤ 33488896) then 0xC2
  else if (d.op = 1 ∨ d.op = 2 ∨ d.op = 3) ∧ ¬ d.inRegion reg then 0xC3
  else if d.op = 2 ∧ ¬ d.movable reg then 0xC4
  else if d.op = 4 ∧ (32 < d.basePage + d.ringPages ∨
      tiles.any (fun t => s.ringHeld t d.ring || (s.ring t d.ring).grans.any (fun g => g.2.landed))) then 0xC5
  else if d.op = 3 ∧ (d.uses = 0 ∨ d.low = 0 ∨ d.runBytes = 0 ∨
      tiles.any (fun t => (s.ring t d.ring).pages == 0 || decide ((s.ring t d.ring).size < d.runBytes))) then 0xC6
  else if badSet then 0xC7
  else if d.form = 3 ∨ (d.layer = 0 ∧ d.form ≠ 0) ∨ (d.op = 3 ∧ d.layer = 0 ∧ (reg.map Region.cls).getD 0 = 1) then 0xC8
  else 0

/-! ### TIER_CREATE, TIER_FREE (R232, R235, R255) -/

/-- Run a unit's command on a dispatched record of a kind and op that its unit has not finished. -/
def onUnit (w : Fin 8) (q kind op : Nat) (s : State) (f : QEntry → State) : Host.Outcome State Fault Refusal :=
  match s.entry w q with
  | some e => if e.disp ∧ ¬ e.unit ∧ ¬ e.skip ∧ Rec.kind e.raw = kind ∧ Rec.op e.raw = op then .next (f e) else .next s
  | none => .next s

/-- The homes of the pages of a new region of `n` pages in a tier: one home for all, or for T3 lender by lender. -/
def State.newRegion (s : State) (cls t n : Nat) : Region :=
  let pg (h : Home) : RPage := { home := h, stamp := s.stampNow, move := none, bad := [], refetch := false }
  if t = 1 then { cls := cls, size := n, fresh := pg .t1, pages := [], freeing := none }
  else if t = 2 then { cls := cls, size := n, fresh := pg .t2, pages := [], freeing := none }
  else
    let a := s.lenderFree 0
    let b := s.lenderFree 1
    let home (p : Nat) : Home := if p < a then .hostA else if p < a + b then .hostB else .neighbour
    { cls := cls, size := n, fresh := pg (home 0), freeing := none,
      pages := (List.range n).filterMap fun p => if home p = home 0 then none else some (p, pg (home p)) }

/-- A create record that finds no room completes with status tier-full and its window halts (R235, R237). -/
def State.tierFull (s : State) (w : Nat) (e : QEntry) : State :=
  (s.unitDone w e.seq 0x11 0).haltWin w 0xA1 0x1100

/-- TIER_CREATE: allocate the pages, evicting first where the tier has too few free. -/
def State.tierCreate (s : State) (w : Nat) (e : QEntry) : State :=
  let d := tmOf e.raw
  let pin := classPinned d.cls d.tier
  if pin ∧ s.rd Obj.pinLimitPages < s.pinned + d.low then s.tierFull w e
  else if d.low ≤ s.freeIn d.tier then
    (s.setRegion d.handle (s.newRegion d.cls d.tier d.low)).unitDone w e.seq 0 0
  else
    let lacking := d.low - s.freeIn d.tier
    let (s', ok) := if d.tier = 2 then (s, false) else s.evictFor d.tier d.low
    if ok then s'
    else if pin then s.tierFull w e
    else (s.raise Ev.tierFull [p32 lacking]).tierFull w e

def execTierCreate (w : Fin 8) (q : Nat) (s : State) : Host.Outcome State Fault Refusal :=
  onUnit w q 5 0 s fun e => s.tierCreate w e

/-- Erase the catalogue entries of a handle (R279). -/
def State.clearCatalogue (s : State) (h : Nat) : State :=
  (List.range 16).foldl (fun s i =>
    let k := i + 1
    if s.rd (Obj.ckptState k) ≠ 0 ∧ s.rd (Obj.ckptHandle k) = h then
      let s := (((s.wr (Obj.ckptHandle k) 0).wr (Obj.ckptStep k) 0).wr (Obj.ckptDigest k) 0).wr (Obj.ckptState k) 0
      { s with store := { s.store with taken := s.store.taken.erase k } }
    else s) s

/-- Take a region away: its pages are discarded at their homes, a checkpoint image in it is gone. -/
def State.dropRegion (s : State) (h : Nat) : State :=
  { s with
    tier := { s.tier with
      regions := s.tier.regions.erase h
      mem := memClear s.tier.mem (regionAddr h 0) (2 ^ 42)
      map := s.tier.map.filter fun x => x.1 / 2 ^ 32 != h
      retiring := s.tier.retiring.filter fun e => e.2.1 != h }
    upd := { s.upd with images := s.upd.images.erase h }
    store := { s.store with partDrains := setDel s.store.partDrains h, pageMap := s.store.pageMap.filter fun x => x.1 / 2 ^ 32 != h } }.clearCatalogue h

/-- Is a move record of the region dispatched and not complete? -/
def State.movesOf (s : State) (h : Nat) : Bool :=
  s.running.any fun p => Rec.kind p.2.raw == 5 && Rec.op p.2.raw == 2 && !p.2.skip && !p.2.unit && (tmOf p.2.raw).handle == h

/-- TIER_FREE: waits for the region's readers and writers and for its moves. -/
def State.tierFree (s : State) (w : Nat) (e : QEntry) : State :=
  let d := tmOf e.raw
  match s.region d.handle with
  | none => s.unitDone w e.seq 0 0
  | some r =>
    if (s.regionUsers d.handle).isEmpty ∧ r.count (fun p => p.move.isSome) = 0 ∧ ¬ s.movesOf d.handle then
      (s.dropRegion d.handle).unitDone w e.seq 0 0
    else s.setRegion d.handle { r with freeing := some (recKey w e.seq) }

def execTierFree (w : Fin 8) (q : Nat) (s : State) : Host.Outcome State Fault Refusal :=
  onUnit w q 5 1 s fun e => s.tierFree w e

/-! ### TIER_MOVE (R238 to R240, R255) -/

/-- The next page of the range, from the `i`th on, that is not settled at the tier. -/
def Region.nextMove (r : Region) (t first n i : Nat) : Option Nat :=
  ((List.range (n - i)).map (i + ·)).find? fun j =>
    let pg := r.page (first + j)
    pg.move.isSome || pg.home.tier != t && pg.home != .gone

/-- TIER_MOVE: one page after another. A page already homed in the tier is left as it is, a page that is moving is waited for. -/
def State.tierMove (s : State) (w : Nat) (e : QEntry) : State :=
  let d := tmOf e.raw
  let key := recKey w e.seq
  let j : MoveJob := (s.tier.moveLeft.find key).getD { next := 0, status := 0 }
  let done (s : State) (status : Nat) : State :=
    ({ s with tier := { s.tier with moveLeft := s.tier.moveLeft.erase key } }).unitDone w e.seq status 0
  match s.region d.handle with
  | none => done s j.status
  | some r =>
    match r.nextMove d.tier d.low d.pageCount j.next with
    | none => done s j.status
    | some i =>
      let s := { s with tier := { s.tier with moveLeft := s.tier.moveLeft.insert key { j with next := i } } }
      if (r.page (d.low + i)).move.isSome then s
      else
        match s.placeIn d.tier with
        | some h => s.startMove d.handle (d.low + i) h (.record key)
        | none =>
          let (s', ok) := if d.tier = 2 then (s, false) else s.evictFor d.tier 1
          if ok then s' else done (s.raise Ev.tierFull [p32 (d.pageCount - i)]) 0x11

def execTierMove (w : Fin 8) (q : Nat) (s : State) : Host.Outcome State Fault Refusal :=
  onUnit w q 5 2 s fun e => s.tierMove w e

/-! ### Staging rings and streams (R246 to R253) -/

/-- RING_CONFIG: base and size of the ring in every tile of the set; both positions go to the base. -/
def execRingConfig (w : Fin 8) (q : Nat) (s : State) : Host.Outcome State Fault Refusal :=
  onUnit w q 5 4 s fun e =>
    let d := tmOf e.raw
    let s := (tileRange d.tf d.tl).foldl (fun s t =>
      s.setRing t d.ring { base := d.basePage, pages := d.ringPages, fill := 0, grans := [] }) s
    s.unitDone w e.seq 0 0

/-- May a stream of step `n` read the working copy of layer `l` (R249)? -/
def State.gateOpen (s : State) (l n : Nat) : Bool :=
  let j := s.journal l
  j.state == 0 || (!decide (j.committed + 1 < n) && !(j.state == 2 && decide (j.passStep < n)) && decide (j.state < 3))

/-- Is the stream's source a working copy? -/
def State.isGated (s : State) (d : Tm) : Bool := ((s.region d.handle).map Region.cls).getD 0 == 1

def State.openGate (s : State) (key : Nat) : State := { s with tier := { s.tier with gated := setIns s.tier.gated key } }

/-- STREAM: the fills of the record are taken up in each tile of its set; a stream that nothing gates may fill at once. -/
def State.stream (s : State) (w : Nat) (e : QEntry) : State :=
  let d := tmOf e.raw
  let key := recKey w e.seq
  let s := (tileRange d.tf d.tl).foldl (fun s t =>
    if (s.tier.fills.find (256 * key + t)).isSome then s
    else { s with tier := { s.tier with fills := s.tier.fills.insert (256 * key + t) { start := 0, got := 0 } } }) s
  if ¬ s.isGated d ∨ s.gateOpen d.layer (e.step.getD 0) then s.openGate key else s

def execStream (w : Fin 8) (q : Nat) (s : State) : Host.Outcome State Fault Refusal :=
  onUnit w q 5 3 s fun e => s.stream w e

/-- STREAM_GATE_OPEN: the layer's journal no longer blocks the stream (R249). -/
def execStreamGateOpen (w : Fin 8) (q : Nat) (s : State) : Host.Outcome State Fault Refusal :=
  onUnit w q 5 3 s fun e =>
    let d := tmOf e.raw
    if s.isGated d ∧ s.gateOpen d.layer (e.step.getD 0) then s.openGate (recKey w e.seq) else s

/-- Source byte of byte `k` of a stream for tile `t` (R248). -/
def Tm.srcByte (d : Tm) (t k : Nat) : Nat :=
  d.srcOff + k / d.runBytes * d.stride + k % d.runBytes + (if d.bcast then 0 else (t - d.tf) * d.tileStride)

def Tm.total (d : Tm) : Nat := d.low * d.runBytes

/-- Pages of a ring filled or filling and not yet released. -/
def Ring.heldPages (g : Ring) : List Nat := ((g.grans.filter fun x => x.2.landed).map fun x => x.1 / 1024).eraseDups

/-- May the page at the fill position be filled: released, and within min(prefetch_depth, ring_pages) (R251)? -/
def State.mayFill (s : State) (g : Ring) : Bool :=
  let p := g.fill / 65536
  let held := g.heldPages
  if held.contains p then !(g.grans.any fun x => x.2.landed && decide (g.fill / 64 ≤ x.1) && x.1 / 1024 == p)
  else decide (held.length < min (s.rd Obj.prefetchDepth) g.pages)

/-- Bytes the next page fill of a stream lands in a tile, 0 where it may not fill now: streams of one ring fill in dispatch order. -/
def State.fillLen (s : State) (w : Nat) (e : QEntry) (d : Tm) (t : Nat) : Nat :=
  match s.tier.fills.find (256 * recKey w e.seq + t) with
  | none => 0
  | some x =>
    let g := s.ring t d.ring
    let earlier := (s.ringStreams t d.ring).any fun p => decide (p.2.order < e.order) && !p.2.tiles.contains t
    if e.tiles.contains t ∨ earlier ∨ g.pages = 0 ∨ ¬ s.mayFill g then 0 else min (65536 - g.fill % 65536) (d.total - x.got)

/-- Land `n` bytes of the stream at the fill position of the ring of a tile. -/
def State.fillTile (s : State) (w : Nat) (e : QEntry) (d : Tm) (t n : Nat) : State :=
  let key := 256 * recKey w e.seq + t
  let x := (s.tier.fills.find key).getD { start := 0, got := 0 }
  let g := s.ring t d.ring
  let s := s.putBytes t false ((List.range n).map fun i =>
    (65536 * g.base + g.fill + i, (s.regionByte d.handle (d.srcByte t (x.got + i))).toNat))
  let grans := (List.range (n / 64)).foldl (fun m i => m.upd Granule.empty (g.fill / 64 + i) fun y => { y with landed := true, uses := d.uses }) g.grans
  let s := s.setRing t d.ring ({ g with fill := (g.fill + n) % g.size, grans := grans }).release
  if x.got + n = d.total then
    let s := { s with tier := { s.tier with fills := s.tier.fills.erase key } }
    s.updEntry w e.seq fun e => { e with tiles := setIns e.tiles t }
  else { s with tier := { s.tier with fills := s.tier.fills.insert key { x with got := x.got + n } } }

/-- The pages of the source that a fill reads. -/
def Tm.fillPages (d : Tm) (t got n : Nat) : List Nat :=
  ((List.range (n / 64)).map fun i => d.srcByte t (got + 64 * i) / 65536).eraseDups

/-- May a stream fill now: its gate has opened, and its layer's journal does not close it again (R249)? -/
def State.streamOpen (s : State) (w : Nat) (e : QEntry) (d : Tm) : Bool :=
  s.tier.gated.contains (recKey w e.seq) && (!s.isGated d || s.gateOpen d.layer (e.step.getD 0))

/-- Does a dispatched product wait on one of the `n` bytes at the ring's fill position in the tile, so that the fill runs as E0 (R251)? -/
def State.fillWanted (s : State) (d : Tm) (t n : Nat) : Bool :=
  let lo := (s.ring t d.ring).fill / 64
  s.running.any fun p =>
    let x := s.share p.1 p.2.seq t
    let m := mxOf p.2.raw
    Rec.kind p.2.raw == 1 && inSet p.2.raw t && x.started && x.waitFrom.isSome &&
    (match s.nextOut m p.1 p.2.seq t, s.fillingBank t (recKey p.1 p.2.seq) with
     | some o, some b => (s.wantsOf m t o (s.bank t b).pass d.ring).any fun i => decide (lo ≤ i ∧ i < lo + n / 64)
     | _, _ => false)

/-- STAGE_FILL_DONE: one page fill lands in tile `t`, or, for a multicast named by its first tile, in every tile of the set. The stream
ends when its last byte has landed in every tile. -/
def State.stageFill (s : State) (w : Nat) (e : QEntry) (t : Nat) : State :=
  let d := tmOf e.raw
  let tiles := if d.bcast then (if t = d.tf then tileRange d.tf d.tl else []) else if d.tf ≤ t ∧ t ≤ d.tl then [t] else []
  let ns := tiles.map (s.fillLen w e d)
  let n := ns.foldl min (ns.headD 0)
  if ¬ s.streamOpen w e d ∨ n = 0 ∨ (s.classDeferred (Rec.eclass e.raw) ∧ ¬ tiles.any fun t => s.fillWanted d t n) then s
  else
    let got := ((s.tier.fills.find (256 * recKey w e.seq + t)).map Fill.got).getD 0
    let ps := d.fillPages t got n
    let (s, a) := s.access (recKey w e.seq) tiles.length d.handle ps
    if a = .waiting then s
    else
      let hit := (List.range (n / 64)).any fun i => s.hitsBad d.handle (d.srcByte t (got + 64 * i)) 64
      let s := if hit then s.hitStatus w e.seq d.handle else s
      let s := ((tiles.foldl (fun s t => s.fillTile w e d t n) s).count Obj.tmStageBytes n).delivered (n * tiles.length)
      let done := match s.entry w e.seq with
        | some e => (tileRange d.tf d.tl).all e.tiles.contains
        | none => false
      if done then s.unitDone w e.seq 0 0 else s

def execStageFillDone (w : Fin 8) (q : Nat) (t : Fin 192) (s : State) : Host.Outcome State Fault Refusal :=
  onUnit w q 5 3 s fun e => s.stageFill w e t

/-- STAGE_STALL: a weight wait longer than sync_timeout_ms is reported once and goes on (R253). -/
def State.stageStall (s : State) (w : Nat) (e : QEntry) (t : Nat) : State :=
  let x := s.share w e.seq t
  match x.waitFrom with
  | none => s
  | some f =>
    if ¬ x.started ∨ x.waitTold ∨ s.now - f ≤ x.waitLimit * ms then s
    else
      let d := mxOf e.raw
      let ring := match s.nextOut d w e.seq t with
        | some o => (((d.reads (d.group t) o (s.passNow t (recKey w e.seq)) 2).find? fun (fld, first, n) =>
            let g := s.ring t (ringOf fld)
            !((g.granules (ringOff fld + first) n).all fun i => (g.grans.get Granule.empty i).landed)).map fun y => ringOf y.1).getD 0
        | none => 0
      ((s.setShare w e.seq t { x with waitTold := true }).raise Ev.stageStall [p8 t, p8 ring, p32 e.seq]).countSat Obj.tmStageStalls 1

def execStageStall (w : Fin 8) (q : Nat) (t : Fin 192) (s : State) : Host.Outcome State Fault Refusal :=
  match s.entry w q with
  | some e => if e.disp ∧ Rec.kind e.raw = 1 then .next (s.stageStall w e t) else .next s
  | none => .next s

end Sys2Proof.Machine
end

