-- ==== Sys2Proof/Machine/Lend.lean ====
section
/-! DEFINITION. Borrowed memory (R242 to R245) and the bank tier: replays, retries, temperature, scrub and the response to an
uncorrectable unit (R257 to R262). -/
namespace Sys2Proof.Machine

/-! ### Lenders of tier T3 -/

/-- Is a region of the lender in force: lent or being recalled? -/
def State.lenderOn (s : State) (n : Nat) : Bool := s.rd (lenderKey n) == 1 || s.rd (lenderKey n) == 2

/-- HL_COMMIT: rejected while hl_pages is 0 or a region is in force; else its pages join the pool of T3 (R242). -/
def State.hlCommit (s : State) (n : Nat) : State :=
  (s.wr (Obj.hlState n) 1).setLender n { pages := s.rd (Obj.hlPages n), noticeEnd := none }

def execHlCommit (src : Src) (n : Fin 2) (arg : Nat) (s : State) : Host.Outcome State Fault Refusal :=
  .next (s.act src (Obj.hlCommit n) arg false (if s.rd (Obj.hlPages n) = 0 ∨ s.lenderOn n then 0x09 else 0) fun s => s.hlCommit n)

/-- The pages homed in a lender, youngest stamp first. -/
def State.lenderPages (s : State) (n : Nat) : List Cand :=
  let all : List Cand := s.tier.regions.flatMap fun r =>
    ((List.range r.2.size).filter fun p => (r.2.page p).home == lenderHome n).map fun p =>
      { h := r.1, p := p, cls := r.2.cls, stamp := (r.2.page p).stamp }
  all.foldl (fun l c => (l.takeWhile fun x => !x.first c) ++ c :: (l.dropWhile fun x => !x.first c)) []

/-- Moves on their way into a lender that takes no new page go elsewhere (R244). -/
def State.redirect (s : State) (home : Home) : State :=
  s.tier.regions.foldl (fun s r =>
    (r.2.pages.filter fun x => decide (x.1 < r.2.size)).foldl (fun s x =>
      match x.2.move with
      | some m => if m.dst = home then s.dstLost r.1 x.1 m r.2.cls x.2.home.tier else s
      | none => s) s) s

/-- Start the return of a lender's pages with a notice in ms (R244): youngest first to tier T1, a page for which no page is free there
is discarded. -/
def State.recall (s : State) (n notice : Nat) : State :=
  let ps := s.lenderPages n
  let s := (s.wr (lenderKey n) 2).setLender n { s.lender n with noticeEnd := some (s.now + notice * ms) }
  let s := s.raise Ev.lenderRecall [p32 notice, p32 ps.length]
  let s := ps.foldl (fun s c =>
    match (s.region c.h).map fun r => r.page c.p with
    | none => s
    | some pg =>
      if pg.move.isSome then s
      else
        match s.placeIn 1 with
        | some d =>
          let s := if n = 2 then s.send (s.rd Obj.nbModule) (s.msg 0x34 0 0 0 8 (p64 (lentPage c.h c.p))) else s
          s.startMove c.h c.p d .recall
        | none => s.discardPage c.h c.p) s
  (s.redirect (lenderHome n)).recallDone n

def execHlRecall (src : Src) (n : Fin 2) (arg : Nat) (s : State) : Host.Outcome State Fault Refusal :=
  .next (s.act src (Obj.hlRecall n) arg false (if s.rd (Obj.hlState n) = 1 then 0 else 0x09) fun s => s.recall n arg)

/-- Every page homed in a lender is discarded, and moves to or out of it fail (R240, R244, R245). -/
def State.dropLender (s : State) (n : Nat) : State :=
  let home := lenderHome n
  s.tier.regions.foldl (fun s r =>
    (List.range r.2.size).foldl (fun s p =>
      let pg := r.2.page p
      if pg.home = home then
        let s := match pg.move with
          | some m => (match m.why with
            | .record key => s.moveNext key 0
            | _ => s)
          | none => s
        s.discardPage r.1 p
      else
        match pg.move with
        | some m => if m.dst = home then s.dstLost r.1 p m r.2.cls pg.home.tier else s
        | none => s) s) s

/-- LENDER_LOST: its pages are discarded at once, lender-lost is raised, the state reads lost (R245). -/
def State.lenderLost (s : State) (n : Nat) : State :=
  if ¬ s.lenderOn n then s
  else
    let k := s.inLender n
    let s := (s.wr (lenderKey n) 4).setLender n Lender.none
    (s.dropLender n).raise Ev.lenderLost [p32 k]

def execLenderLost (n : Fin 3) (s : State) : Host.Outcome State Fault Refusal := .next (s.lenderLost n)

/-- RECALL_NOTICE_EXPIRY: of a lender, whose remaining pages are discarded; or (3) of the memory this module lends, which returns to its
own pool (R244). -/
def State.noticeExpiry (s : State) (n : Nat) : State :=
  if n = 3 then
    match s.tier.lentOut with
    | some l => (match l.noticeEnd with
      | some t => if t ≤ s.now then { s with tier := { s.tier with lentOut := none, lentMem := [] } } else s
      | none => s)
    | none => s
  else
    match (s.lender n).noticeEnd with
    | some t =>
      if s.rd (lenderKey n) = 2 ∧ t ≤ s.now then ((s.wr (lenderKey n) 3).setLender n Lender.none).dropLender n else s
    | none => s

def execRecallNoticeExpiry (n : Fin 4) (s : State) : Host.Outcome State Fault Refusal := .next (s.noticeExpiry n)

/-- Ask the neighbour named by nb_module for its memory. -/
def State.nbAsk (s : State) : State :=
  { s with tier := { s.tier with nbAsked := true } }.send (s.rd Obj.nbModule) (s.msg 0x30 0 0 0 4 (p32 0))

/-- NB_COMMIT: ask the neighbour for its memory with a lend frame (R243). -/
def execNbCommit (src : Src) (arg : Nat) (s : State) : Host.Outcome State Fault Refusal :=
  .next (s.act src Obj.nbCommit arg false (if s.rd Obj.nbModule = 0xFFFF ∨ s.lenderOn 2 then 0x09 else 0) State.nbAsk)

/-- May this module lend (R243): lend_enable, no group with mapped layers, enough free pages, no borrower yet? -/
def State.mayLend (s : State) : Bool :=
  s.rd Obj.lendEnable == 1 && (s.bitmap == 0 || s.upd.maps.isEmpty) && decide (s.rd Obj.lendPages ≤ s.freeIn 1) &&
  s.rd Obj.lendPages != 0 && s.tier.lentOut.isNone

/-- MSG_LEND: a frame that offers no pages asks for memory, and is answered with what this module lends; a frame that offers pages
answers this module's own commit (R243). -/
def State.msgLend (s : State) (m : Msg) : State :=
  let n := unle (m.body.take 4)
  if n = 0 then
    if s.mayLend then
      let k := s.rd Obj.lendPages
      let s := { s with tier := { s.tier with lentOut := some { borrower := m.src, pages := k, noticeEnd := none }, lentMem := [] } }
      s.send m.src (s.msg 0x30 0 0 0 4 (p32 k))
    else s
  else if s.tier.nbAsked ∧ m.src = s.rd Obj.nbModule then
    let s := { s with tier := { s.tier with nbAsked := false } }
    (s.wr Obj.nbState 1).setLender 2 { pages := n, noticeEnd := none }
  else s

def execMsgLend (m : Msg) (s : State) : Host.Outcome State Fault Refusal := .next (s.msgLend m)

/-- Is the message from the neighbour that lends to this module? -/
def State.fromLender (s : State) (m : Msg) : Bool := m.src == s.rd Obj.nbModule && s.lenderOn 2

def execMsgRecall (m : Msg) (s : State) : Host.Outcome State Fault Refusal :=
  .next (if s.fromLender m ∧ s.rd Obj.nbState = 1 then s.recall 2 (unle (m.body.take 4)) else s)

def execMsgWithdrawal (m : Msg) (s : State) : Host.Outcome State Fault Refusal :=
  .next (if s.fromLender m then s.lenderLost 2 else s)

/-- Is the message from the module that borrows from this one? -/
def State.fromBorrower (s : State) (m : Msg) : Bool := match s.tier.lentOut with
  | some l => l.borrower == m.src
  | none => false

/-- MSG_RELEASE: the lent-out pages return to the pool (R244). -/
def execMsgRelease (m : Msg) (s : State) : Host.Outcome State Fault Refusal :=
  .next (if s.fromBorrower m then { s with tier := { s.tier with lentOut := none, lentMem := [] } } else s)

/-- MSG_LENT_READ: serve a page this module holds for its borrower (R243). -/
def execMsgLentRead (m : Msg) (s : State) : Host.Outcome State Fault Refusal :=
  .next (if s.fromBorrower m then
      let n := unle (m.body.take 8)
      s.sendPage m.src n (memRead s.tier.lentMem (65536 * n) 65536)
    else s)

/-- Is the page homed in the neighbour's memory? -/
def State.lentHere (s : State) (h p : Nat) : Bool :=
  match s.region h with
  | some r => (r.page p).home == .neighbour && decide (p < r.size)
  | none => false

/-- MSG_LENT_DATA: a piece, named by the index, of a page that the borrower gives to hold, or that comes back from the lender (R243). -/
def execMsgLentData (m : Msg) (s : State) : Host.Outcome State Fault Refusal :=
  let n := unle (m.body.take 8)
  let o := lentPiece * m.index
  let data := (m.body.drop 8).take (min lentPiece (65536 - o))
  .next (if s.fromBorrower m then { s with tier := { s.tier with lentMem := memWrite s.tier.lentMem (65536 * n + o) data } }
    else if s.fromLender m ∧ s.lentHere (n / 2 ^ 32) (n % 2 ^ 32) then
      s.regionWrite (n / 2 ^ 32) (65536 * (n % 2 ^ 32) + o) data
    else s)

/-- LEND_RECALL: recall the memory this module lends (R244). -/
def execLendRecall (src : Src) (arg : Nat) (s : State) : Host.Outcome State Fault Refusal :=
  .next (s.act src Obj.lendRecall arg false (if s.tier.lentOut.isNone then 0x09 else 0) fun s => s.recallLent)

/-! ### Uncorrectable units (R261, Table 9.6) -/

/-- The address fold of a unit address: the XOR of its 8-bit groups (R257). -/
def addressFold (a : Nat) : Nat := (List.range 8).foldl (fun x i => x ^^^ (a / 256 ^ i % 256)) 0

/-- The even-parity bit of a byte. -/
def evenParity (b : Byte) : Bool := (List.range 8).foldl (fun x i => x ^^ b.toNat.testBit i) false

/-- The check byte of a 64-bit word at a unit address: bit i is the even parity of byte i XOR bit i of the address fold (R257). -/
def checkByte (a : Nat) (word : Bytes) : Byte :=
  BitVec.ofNat 8 (((List.range 8).map fun i => if evenParity (word.getD i 0) != (addressFold a).testBit i then 2 ^ i else 0).sum)

/-- A unit as the controller stores it: its 64 data bytes, then the check bytes of its eight words (R257). -/
def unitStored (a : Nat) (data : Bytes) : Bytes := data ++ (List.range 8).map fun k => checkByte a ((data.drop (8 * k)).take 8)

/-- Does a unit as read pass its check bytes? -/
def unitPasses (a : Nat) (raw : Bytes) : Bool := unitStored a (raw.take 64) == raw

/-- Reads that fail before one passes. -/
def failedReads (a : Nat) (reads : List Bytes) : Nat := (reads.takeWhile fun r => !unitPasses a r).length

/-- Mark a unit of a page uncorrectable. -/
def State.markBad (s : State) (h p unit : Nat) : State := s.updPage h p fun x => { x with bad := setIns x.bad unit }

/-- What physical page `x` holds, by the page map: a page that the map homes elsewhere, or that tier T1 does not home, is not it; one whose
place was not known yet stands there from now on (R257). -/
def State.located (s : State) (x : Nat) (u : BankUnit) : State × BankUnit :=
  match u with
  | .region h p _ =>
    match s.tier.map.find (lentPage h p), s.region h with
    | some y, _ => (s, if y = x then u else .unused)
    | none, some r => if (r.page p).home = .t1 ∧ p < r.size then (s.mapTo h p x, u) else (s, .unused)
    | none, none => (s, .unused)
  | _ => (s, u)

/-- The response to an uncorrectable unit at a unit address (Table 9.6); a reading record completes with status 0x12. -/
def State.uncorrectable (s : State) (addr : Nat) (u : BankUnit) (reader : Option (Nat × Nat)) : State :=
  let x := addr / 1024
  let s := s.countSat (Obj.chUncorrectable (x % 16)) 1
  let (s, u) := s.located x u
  let hit (s : State) (h : Nat) : State := match reader with
    | some (w, q) => s.hitStatus w q h
    | none => s
  match u with
  | .unused => s.retirePhys x
  | .spill => ((s.raise Ev.bankUncorrectable [p8 (x % 16), p8 3, p32 0, p32 0]).retirePhys x).abortAnnounce 0x94
  | .journal l => (((s.raise Ev.bankUncorrectable [p8 (x % 16), p8 5, p32 0, p32 0]).retirePhys x).layerFault l).loseState
  | .region h p l =>
    match s.region h with
    | none => s.retirePhys x
    | some r =>
      let s := s.tellBad x r.cls h p
      if r.cls = 8 ∨ r.cls = 9 then
        (hit (s.discardPage h p) h).retirePhys x
      else
        let s := hit ((s.markBad h p (addr % 1024)).enterRetire x h p) h
        if r.cls = 4 then (s.layerFault l).loseState else s.classResponse h p r.cls

/-! ### The bank tier's own commands -/

/-- BANK_READ_REPLAY: a unit whose check bytes fail is read again, up to three times, and the first read that passes is delivered; after a
fourth failure it is uncorrectable (R258). `reads` are the reads of the unit, as they came. -/
def State.bankRead (s : State) (addr : Nat) (u : BankUnit) (reads : List Bytes) (reader : Option (Nat × Nat)) : State :=
  let n := failedReads addr reads
  if n = 0 then s
  else if n ≤ 3 then (if n < reads.length then s.count (Obj.chReplays (addr / 1024 % 16)) 1 else s)
  else s.uncorrectable addr u reader

def execBankReadReplay (addr : Nat) (u : BankUnit) (reads : List Bytes) (reader : Option (Nat × Nat)) (s : State) :
    Host.Outcome State Fault Refusal := .next (s.bankRead addr u reads reader)

/-- BANK_WRITE_RETRY: a write reported with a write-CRC error is repeated, up to three times; after a fourth failure its unit is
uncorrectable, and where a move was filling the page, the move fails (R240, R258, R261). -/
def State.bankWrite (s : State) (addr : Nat) (u : BankUnit) (fails : Nat) : State :=
  let x := addr / 1024
  let s := s.count Obj.bankWriteRetries (min fails 3)
  if fails = 0 then s
  else if fails ≤ 3 then s.count (Obj.chReplays (x % 16)) 1
  else
    match u with
    | .region h p _ =>
      (match s.region h with
       | some r =>
         let pg := r.page p
         (match pg.move with
          | some m => if m.dst = .t1 ∧ s.tier.map.find (lentPage h p) ≠ some x then
                (((s.countSat (Obj.chUncorrectable (x % 16)) 1).tellBad x r.cls h p).retirePhys x).moveFails h p m r.cls pg.home.tier
              else s.uncorrectable addr u none
          | none => s.uncorrectable addr u none)
       | none => s.uncorrectable addr u none)
    | _ => s.uncorrectable addr u none

def execBankWriteRetry (addr : Nat) (u : BankUnit) (fails : Nat) (s : State) : Host.Outcome State Fault Refusal :=
  .next (s.bankWrite addr u fails)

/-- CA_PARITY_ALERT: the outstanding commands of the channel are replayed; only timing changes (R258). -/
def execCaParityAlert (_c : Fin 16) (s : State) : Host.Outcome State Fault Refusal := .next (s.count Obj.bankCaAlerts 1)

/-- BANK_TEMP_READ: the sensor of a channel is read; the refresh interval follows 85 °C, bank-hot 95 °C, until 92 °C; above 105 °C the
module takes thermal park (R259, R379). -/
def State.bankTemp (s : State) (c : Nat) (temp : Int) : State :=
  let s := s.wrIn (Obj.chTemp c) (-40) 150 temp
  let hot := (List.range 16).any fun c => decide (85 < toInt 32 (s.rd (Obj.chTemp c)))
  let s := s.wr Obj.refreshIntervalNs (if hot then 1950 else 3900)
  let s := if 105 < temp then { s with power := { s.power with heatPark := true, heatDuty := 0 } }.repower else s
  if 95 < temp then s.raiseOnce Ev.bankHot c []
  else if temp < 92 then s.endEpisode Ev.bankHot c
  else s

def execBankTempRead (c : Fin 16) (temp : Int) (s : State) : Host.Outcome State Fault Refusal := .next (s.bankTemp c temp)

/-- Ticks of a day and of an hour. -/
def day : Nat := 86400 * 1000 * ms
def hour : Nat := 3600 * 1000 * ms

/-- Replay was needed in physical page `x` by a sweep: days in a row are counted, and the seventh enters the page for retirement (R262). -/
def State.replayed (s : State) (x : Nat) (u : BankUnit) : State :=
  let (s, u) := s.located x u
  let d := s.now / day
  let last := s.tier.replayDay.get 0 x
  let n := s.tier.replayDays.get 0 x
  let n' := if n = 0 then 1 else if last = d then n else if last + 1 = d then n + 1 else 1
  let s := { s with tier := { s.tier with replayDays := s.tier.replayDays.set 0 x n', replayDay := s.tier.replayDay.set 0 x d } }
  if 7 ≤ n' then
    match u with
    | .region h p _ => s.enterRetire x h p
    | _ => s.retirePhys x
  else s

/-- scrub-late, once per episode, where the sweep has taken more than twice scrub_period_h (R260). -/
def State.scrubLate (s : State) : State :=
  if 2 * s.rd Obj.scrubPeriodH * hour < s.now - s.tier.sweepFrom then s.raiseOnce Ev.scrubLate 0 [] else s

/-- The last unit of a sweep has been read: the next sweep begins. -/
def State.sweepEnd (s : State) : State :=
  let s := (s.wr Obj.scrubProgress 0).scrubLate.endEpisode Ev.scrubLate 0
  { s with tier := { s.tier with sweepFrom := s.now } }

/-- SCRUB: the patrol scrub reads the next physical page as E2 work; a unit that needed replay is written back; a sweep longer than
twice scrub_period_h is late (R260). `u` is what the page holds, `reads` the reads of its worst unit. -/
def State.scrub (s : State) (u : BankUnit) (unit : Nat) (reads : List Bytes) : State :=
  if s.e2Deferred then s.scrubLate
  else
    let x := s.rd Obj.scrubProgress
    let s := s.count Obj.bankScrubBytes 65536
    let n := failedReads (1024 * x + unit) reads
    let s := if n = 0 then s else if n ≤ 3 then (s.count (Obj.chReplays (x % 16)) 1).replayed x u else s.uncorrectable (1024 * x + unit) u none
    if x + 1 < 33554432 then (s.wr Obj.scrubProgress (x + 1)).scrubLate else s.sweepEnd

def execScrub (u : BankUnit) (x : UnitReads) (s : State) : Host.Outcome State Fault Refusal := .next (s.scrub u x.unit x.reads)

end Sys2Proof.Machine
end

