-- ==== Sys2Proof/Machine/Update.lean ====
section
/-! DEFINITION. The update processor (chapter 8): update records and their checks (R207 to R210), the update rules and draws (R211 to
R215), digests (R219, R220), the layer journal and passes (R221, R222), restarts and recovery (R223, R224), checkpoint images and
restore (R225, R226), the update-to-weight watch (R227). -/
namespace Sys2Proof.Machine

/-! ### Descriptor (Table 8.3) -/

/-- An update descriptor; the fields of all three ops. -/
structure Up where
  op : Nat
  layer : Nat
  seg : Nat
  rule : Nat
  wcFmt : Nat
  ckpt : Bool
  first : Bool
  stateH : Nat
  tiles : Nat
  gradH : Nat
  wcH : Nat
  wScale : Nat
  mScale : Nat
  vScale : Nat
  wcScale : Nat
  eta : Nat
  wd : Nat
  g1 : Nat
  g2 : Nat
  eps : Nat
  c1 : Nat
  c2 : Nat
  gscale : Nat
  phi : Nat
  rhoLo : Nat
  rhoHi : Nat
  rhoInit : Nat
  imageH : Nat
  deriving DecidableEq, Repr

def upOf (r : Rec) : Up :=
  { op := Rec.w r 0 63 60, layer := Rec.w r 0 59 52, seg := Rec.w r 0 51 48, rule := Rec.w r 0 47 46, wcFmt := Rec.w r 0 45 42,
    ckpt := Rec.w r 0 41 41 == 1, first := Rec.w r 0 40 40 == 1, stateH := Rec.w r 1 63 32, tiles := Rec.w r 1 31 0,
    gradH := Rec.w r 2 63 32, wcH := Rec.w r 2 31 0, wScale := Rec.w r 3 63 48, mScale := Rec.w r 3 47 32, vScale := Rec.w r 3 31 16,
    wcScale := Rec.w r 3 15 0, eta := Rec.w r 1 63 48, wd := Rec.w r 1 47 32, g1 := Rec.w r 1 31 16, g2 := Rec.w r 1 15 0,
    eps := Rec.w r 2 63 48, c1 := Rec.w r 2 47 32, c2 := Rec.w r 2 31 16, gscale := Rec.w r 2 15 0, phi := Rec.w r 3 63 48,
    rhoLo := Rec.w r 3 47 32, rhoHi := Rec.w r 3 31 16, rhoInit := Rec.w r 3 15 0, imageH := Rec.w r 1 63 32 }

/-- The value of a G16 code. -/
def g16 (c : Nat) : Val := decodeFloat .g16 c
/-- The G16 code nearest to a value (`g16_rne`). -/
def g16Code (v : Val) : Nat := (toFloat .g16 v).1

/-! ### Layout of a segment's regions (R201 to R203, R231, Table 3.3) -/

/-- Byte offsets of a tensor's codes, block scales and tag lines in the state region of a segment: m, then v, then w, each with its code
pages, its scale pages (none for w) and its tag pages. -/
def Segment.offs (g : Segment) (tensor : Nat) : Nat × Nat × Nat :=
  let n := g.tiles
  let gp := ceilDiv n 64 + 2 * ceilDiv n 2048
  let b := if tensor = 0 then 0 else if tensor = 1 then gp else if g.rule = 1 then gp else 2 * gp
  let cp := if tensor = 2 then ceilDiv n 32 else ceilDiv n 64
  let sp := if tensor = 2 then 0 else ceilDiv n 2048
  (65536 * b, 65536 * (b + cp), 65536 * (b + cp + sp))

/-- Pages of the state region of `n` tiles under a rule. -/
def statePages (rule n : Nat) : Nat :=
  (if rule = 1 then 1 else 2) * (ceilDiv n 64 + 2 * ceilDiv n 2048) + ceilDiv n 32 + ceilDiv n 2048

/-- Engine tiles of a format in a page (Table 3.3). -/
def perPage (f : Fmt) : Nat := 65536 / etBytes f

/-- Pages of the working copy of `n` tiles: codes, then block scales. -/
def wcPages (f : Fmt) (n : Nat) : Nat := ceilDiv n (perPage f) + (if f.isBlock then ceilDiv n 2048 else 0)
/-- Where engine tile `t` of a working copy of `n` tiles and its scales begin. -/
def wcOffs (f : Fmt) (n t : Nat) : Nat × Nat :=
  (t / perPage f * 65536 + t % perPage f * etBytes f, 65536 * ceilDiv n (perPage f) + 32 * t)

/-- Code pages of a gradient region of `p` pages: the most whose block scales fit the rest. -/
def gradCodePages (p : Nat) : Nat := p - ceilDiv p 33
/-- Where element `c` of block `b` of a gradient region of `p` pages lies, and the block's scale: engine tiles under R67. -/
def gradCode (b c : Nat) : Nat := 1024 * (b / 32) + 32 * ((b % 32 + c) % 32) + b % 32
def gradScale (p b : Nat) : Nat := 65536 * gradCodePages p + b

/-- The segments of a layer in force, in order, and its tiles. -/
def State.segsOf (s : State) (l : Nat) : List (Nat × Segment) :=
  (s.upd.maps.filter fun m => m.1 / 16 == l).map fun m => (m.1 % 16, m.2)
def State.layerTiles (s : State) (l : Nat) : Nat := ((s.segsOf l).map fun g => g.2.tiles).sum
def State.mapped (s : State) (l : Nat) : Bool := (s.upd.maps.find (16 * l)).isSome
def State.mappedLayers (s : State) : List Nat := (List.range 256).filter s.mapped
/-- The rule of a layer: that of segment 0. -/
def State.layerRule (s : State) (l : Nat) : Nat := ((s.upd.maps.find (16 * l)).map Segment.rule).getD 0

/-- Every state tile of a layer in ascending index: segment number, segment, tile within it. -/
def State.tilesOf (s : State) (l : Nat) : List (Nat × Segment × Nat) :=
  (s.segsOf l).flatMap fun g => (List.range g.2.tiles).map fun t => (g.1, g.2, t)

/-! ### Draws (R215) -/

/-- `next_draw`: the draw and the next state. -/
def nextDraw (x : Nat) : Nat × Nat :=
  let x := x ^^^ (x >>> 12)
  let x := m64 (x ^^^ (x <<< 25))
  let x := x ^^^ (x >>> 27)
  (m64 (x * 0x2545F4914F6CDD1D) >>> 48, x)

def seedOf (run step layer tile lane : Nat) : Nat :=
  let h := mix (m64 run)
  let h := mix (h ^^^ m64 step)
  let h := mix (h ^^^ m64 (layer <<< 32) ^^^ tile)
  let h := mix (h ^^^ lane)
  if h = 0 then 1 else h

/-- The first `n` draws of a lane. -/
def drawList : Nat → Nat → List Nat
  | 0, _ => []
  | n + 1, x => let (d, y) := nextDraw x; d :: drawList n y

/-- The draws of one line: for element `c` the draw of tensor 0 (m), 1 (v) or 2 (w). -/
def lineDraw (rule : Nat) (ds : List Nat) (tensor c : Nat) : Nat :=
  if rule = 1 then ds.getD (2 * c + (if tensor = 0 then 0 else 1)) 0 else ds.getD (3 * c + tensor) 0

/-! ### Reading and writing state tiles -/

/-- Codes of line `j` of tile `t` of a tensor, and their block scale code (127 for w, which has none). -/
def State.stCodes (s : State) (g : Segment) (tensor t j : Nat) : List Nat × Nat :=
  let (c, k, _) := g.offs tensor
  let f : Fmt := if tensor = 2 then .h16 else .g8
  let rd (o : Nat) : Nat := (s.regionByte g.stateH (c + t * etBytes f + o)).toNat
  ((List.range 32).map fun i => etCode f rd 0 j i, if tensor = 2 then 127 else (s.regionByte g.stateH (k + 32 * t + j)).toNat)

/-- Values of codes under a block scale and a tensor scale (R38). -/
def decVals (f : Fmt) (e8 : Nat) (scale : Val) (cs : List Nat) : List Val :=
  cs.map fun c => if e8 = 255 then .nan else ((decodeCode f c).map fun x => x.scale ((e8 : Int) - 127)).map₂ Ex.mul scale

def Segment.scaleOf (g : Segment) (tensor : Nat) : Val := tensorScale (if tensor = 0 then g.mScale else if tensor = 1 then g.vScale else g.wScale)

def State.stVals (s : State) (g : Segment) (tensor t j : Nat) : List Val :=
  let (cs, e) := s.stCodes g tensor t j
  decVals (if tensor = 2 then .h16 else .g8) e (g.scaleOf tensor) cs

/-- The bytes of an engine tile from the codes of its lines (R36, R67). -/
def tileBytes (f : Fmt) (ls : List (List Nat)) : Bytes :=
  let code (r c : Nat) : Nat := (ls.getD r []).getD c 0
  match f with
  | .f8 | .g8 | .a8 | .e8 => (List.range 1024).map fun o => BitVec.ofNat 8 (code (o % 32) ((o / 32 + 32 - o % 32) % 32))
  | .h16 | .g16 => (List.range 2048).map fun o =>
      let r := o % 64 / 2
      BitVec.ofNat 8 (code r ((o / 64 + 32 - r) % 32) / 256 ^ (o % 2))
  | .t1 => ls.flatMap fun l => (packT1 l).map fun b => BitVec.ofNat 8 b
  | f => ls.flatMap fun l => (packSub f l).map fun b => BitVec.ofNat 8 b

/-- A tag line (Table 8.2). -/
def tagLine (step tile layer tensor crc : Nat) : Bytes :=
  p64 step ++ p32 tile ++ p8 layer ++ p8 tensor ++ [0, 0] ++ p32 crc ++ List.replicate 12 0

/-- Write a tensor tile: codes, block scales, then its tag line (R203). -/
def State.putTile (s : State) (g : Segment) (tensor t : Nat) (ls : List (List Nat × Nat)) (step layer index : Nat) : State :=
  let (c, k, a) := g.offs tensor
  let f : Fmt := if tensor = 2 then .h16 else .g8
  let codes := tileBytes f (ls.map Prod.fst)
  let scales : Bytes := if tensor = 2 then [] else ls.map fun l => BitVec.ofNat 8 l.2
  let s := s.regionWrite g.stateH (c + t * etBytes f) codes
  let s := s.regionWrite g.stateH (k + 32 * t) scales
  s.regionWrite g.stateH (a + 32 * t) (tagLine step index layer tensor (crc32 (codes ++ scales)))

/-- The bytes the digest and the tag's CRC take from a tensor tile: codes, then scales (R203, R219). -/
def State.tensorBytes (s : State) (g : Segment) (tensor t : Nat) : Bytes :=
  let (c, k, _) := g.offs tensor
  let f : Fmt := if tensor = 2 then .h16 else .g8
  s.regionBytes g.stateH (c + t * etBytes f) (etBytes f) ++ (if tensor = 2 then [] else s.regionBytes g.stateH (k + 32 * t) 32)

def State.tagBytes (s : State) (g : Segment) (tensor t : Nat) : Bytes :=
  let (_, _, a) := g.offs tensor
  s.regionBytes g.stateH (a + 32 * t) 32

/-- Is a tag line sound: tile, layer, tensor and CRC (R224)? -/
def State.tagOk (s : State) (g : Segment) (tensor t layer index : Nat) : Bool :=
  let b := s.tagBytes g tensor t
  unle ((b.drop 8).take 4) == index && unle ((b.drop 12).take 1) == layer && unle ((b.drop 13).take 1) == tensor &&
  unle ((b.drop 16).take 4) == crc32 (s.tensorBytes g tensor t)

def State.tagStep (s : State) (g : Segment) (tensor t : Nat) : Nat := unle ((s.tagBytes g tensor t).take 8)

/-- Tensors a rule holds (Table 8.1). -/
def ruleTensors (rule : Nat) : List Nat := if rule = 1 then [0, 2] else [0, 1, 2]

/-! ### The update of one line (R211) -/

def rw1 (v : Val) : Val := v.map roundWide
def Val.add (a b : Val) : Val := a.map₂ Ex.add b
def Val.sub (a b : Val) : Val := a.map₂ Ex.sub b
def Val.mul (a b : Val) : Val := a.map₂ Ex.mul b
/-- √x; NaN below zero, as the lanes' square-root unit answers (R134). -/
def Val.sqrt (a : Val) : Val := match a with
  | .fin x => if x.isNeg then .nan else .fin (exSqrt x)
  | .nan => .nan
def Val.div (a b : Val) : Val := match a, b with
  | .fin x, .fin y => if y.isZero then .nan else .fin (x.div y)
  | _, _ => .nan

/-- The gradient of line `j` of tile `t` (R211): a block of the gradient region, times gscale; NaN enters as zero under policy 2. -/
def State.gradVals (s : State) (g : Segment) (a : UpdArm) (t j : Nat) : List Val :=
  let p := ((s.region g.gradH).map Region.size).getD 0
  let b := 32 * t + j
  let e := (s.regionByte g.gradH (gradScale p b)).toNat
  let cs := (List.range 32).map fun c => (s.regionByte g.gradH (gradCode b c)).toNat
  (decVals .g8 e (g16 a.gscale) cs).map fun v => if v.isNan ∧ a.zero then .fin .zero else v

/-- Round a line stochastically into G8 under a tensor scale: the line's scale by R41, then every element (R52). -/
def srLine (scale : Val) (xs : List Val) (ds : List Nat) : List Nat × Nat × List Cls :=
  let e := selectScale .g8 scale.ex (xs.map OutVal.ofVal)
  let cs := (xs.zip ds).map fun (x, d) => toFloatSR .g8 d (x.map fun y => y.div (scale.ex.scale ((e : Int) - 127)))
  (cs.map Prod.fst, e, cs.map Prod.snd)

/-- The draws of line `j` of a tile of the pass of an arm. -/
def UpdArm.draws (a : UpdArm) (rule index j : Nat) : List Nat :=
  drawList (if rule = 1 then 64 else 96) (seedOf a.seed a.step a.layer index j)

/-- New moment codes of line `j`: m (tensor 0) or v (tensor 1). -/
def State.newMoment (s : State) (g : Segment) (a : UpdArm) (tensor t index j : Nat) : List Nat × Nat × List Cls :=
  let old := s.stVals g tensor t j
  let gs := s.gradVals g a t j
  let y := g16 (if tensor = 0 then a.g1 else a.g2)
  let new := (old.zip gs).map fun (o, x) =>
    let x := if tensor = 0 then x else x.mul x
    rw1 (o.add (y.mul (x.sub o)))
  let ds := a.draws g.rule index j
  srLine (g.scaleOf tensor) new ((List.range 32).map (lineDraw g.rule ds tensor))

/-- u of R211 for line `j`, from the stored moments. -/
def State.uVals (s : State) (g : Segment) (a : UpdArm) (t j : Nat) : List Val :=
  let ms := s.stVals g 0 t j
  if g.rule = 1 then ms
  else
    (ms.zip (s.stVals g 1 t j)).map fun (m, v) =>
      let r := rw1 (rw1 ((g16 a.c2).mul v)).sqrt
      let b := rw1 (r.add (g16 a.eps))
      rw1 (((g16 a.c1).mul m).div b)

/-- k of R211 under a ratio code. -/
def UpdArm.k (a : UpdArm) (rho : Nat) : Val := rw1 ((g16 a.eta).mul (g16 rho))

/-- New master codes of line `j`, from the old weight and the stored new moments. -/
def State.newMaster (s : State) (g : Segment) (a : UpdArm) (rho t index j : Nat) : List Nat × Nat × List Cls :=
  let ws := s.stVals g 2 t j
  let us := s.uVals g a t j
  let k := a.k rho
  let ds := a.draws g.rule index j
  let cs := (ws.zip us).zipIdx.map fun ((w, u), c) =>
    let w1 := rw1 ((w.sub ((g16 a.wd).mul w)).sub (k.mul u))
    toFloatSR .h16 (lineDraw g.rule ds 2 c) (w1.map fun x => x.div (g.scaleOf 2).ex)
  (cs.map Prod.fst, 127, cs.map Prod.snd)

/-- Write tensor `tensor` of a tile, counting its conversions at the layer, backward (R212). -/
def State.writeTensor (s : State) (g : Segment) (a : UpdArm) (rho tensor t index : Nat) : State :=
  let ls := (List.range 32).map fun j => if tensor = 2 then s.newMaster g a rho t index j else s.newMoment g a tensor t index j
  let s := s.putTile g tensor t (ls.map fun l => (l.1, l.2.1)) a.step a.layer index
  s.tally kState a.layer 1 (ls.flatMap fun l => l.2.2) []

/-! ### Pages of a pass (R206, R236, R239) -/

/-- Pages of the state region that tile `t` of a segment lies in: codes, block scales and tag lines of its tensors. -/
def Segment.statePagesOf (g : Segment) (t : Nat) : List Nat :=
  ((ruleTensors g.rule).flatMap fun k =>
    let (c, e, a) := g.offs k
    [(c + t * etBytes (if k = 2 then .h16 else .g8)) / 65536, (a + 32 * t) / 65536] ++ (if k = 2 then [] else [(e + 32 * t) / 65536])).eraseDups

/-- Pages of the gradient region that tile `t` of a segment reads. -/
def State.gradPagesOf (s : State) (g : Segment) (t : Nat) : List Nat :=
  let p := ((s.region g.gradH).map Region.size).getD 0
  [gradCode (32 * t) 0 / 65536, gradScale p (32 * t) / 65536]

/-- Pages of the working copy that tile `t` of a segment lies in. -/
def Segment.wcPagesOf (g : Segment) (t : Nat) : List Nat :=
  match fmtOf g.wcFmt with
  | none => []
  | some f =>
    let (o, k) := wcOffs f g.tiles t
    o / 65536 :: if f.isBlock then [k / 65536] else []

/-- Every page that a pass reads or writes for tile `t` of a segment, with its handle. -/
def State.pagesOfTile (s : State) (g : Segment) (t : Nat) : List (Nat × Nat) :=
  ((g.statePagesOf t).map fun p => (g.stateH, p)) ++ ((s.gradPagesOf g t).map fun p => (g.gradH, p)) ++
    (g.wcPagesOf t).map fun p => (g.wcH, p)

/-- The pages of a whole layer that its passes read or write. -/
def State.layerPages (s : State) (l : Nat) : List (Nat × Nat) := ((s.tilesOf l).flatMap fun x => s.pagesOfTile x.2.1 x.2.2).eraseDups

/-- Write the working copy of a tile from the stored masters (R212); each conversion counts at the layer, backward (R54). -/
def State.writeWc (s : State) (g : Segment) (l t : Nat) : State :=
  match fmtOf g.wcFmt with
  | none => s
  | some f =>
    let s := s.touch g.stateH [((g.offs 2).1 + t * etBytes .h16) / 65536]
    let ls := (List.range 32).map fun j => convLine f (tensorScale g.wcScale) ((s.stVals g 2 t j).map OutVal.ofVal)
    let (o, k) := wcOffs f g.tiles t
    let s := s.regionWrite g.wcH o (tileBytes f (ls.map Prod.fst))
    let s := if f.isBlock then s.regionWrite g.wcH k (ls.map fun x => BitVec.ofNat 8 (x.2.1.getD 0)) else s
    s.tally kState l 1 (ls.flatMap fun x => x.2.2) []

/-! ### Checkpoint images (R225) -/

/-- Key of a byte of a layer's segment in an image. -/
def imageKey (l seg b : Nat) : Nat := (16 * l + seg) * 2 ^ 42 + b

/-- The image of step `n`, by the handle of its region. -/
def State.imageOf (s : State) (n : Nat) : Option Nat := (s.upd.images.find? fun x => x.2.step == n).map Prod.fst

/-- The region a new image takes: the lowest class 4 region homed in tier T1 that holds no image. -/
def State.imageRoom (s : State) : Option Nat :=
  (s.tier.regions.find? fun r => r.2.cls == 4 && r.2.count (fun p => p.home == .t1) == r.2.size && (s.upd.images.find r.1).isNone).map Prod.fst

/-- The form and quiet count of every layer (R88). -/
def State.formsNow (s : State) : Tab (Nat × Nat) := (List.range 255).map fun i => (i + 1, s.rd (Obj.fbState (i + 1)), s.rd (Obj.fbQuiet (i + 1)))

/-- Begin the image of step `n` for layer `l`, if it has none; it takes the forms that the boundary after the step has set, and is whole
once every layer whose record of the step has ckpt set stands in it (R27). -/
def State.openImage (s : State) (n l : Nat) : State :=
  if (s.imageOf n).isSome then s
  else
    match s.imageRoom with
    | none => s
    | some h =>
      let due := setIns (((s.upd.arms.filter fun (a : UpdArm) => a.step == n && a.ckpt).map UpdArm.layer).foldl setIns []) l
      let x : Image := { step := n, layers := [], forms := s.formsNow, due := due, watch := none, digest := none, bytes := [], damaged := false }
      { s with upd := { s.upd with images := s.upd.images.insert h x } }

/-- Is an image whole: every layer due and the step digest stand in it (R27, R225)? -/
def Image.whole (x : Image) : Bool := x.digest.isSome && x.due.all fun l => (x.layers.find l).isSome

def State.updImage (s : State) (n : Nat) (f : Image → Image) : State :=
  match s.imageOf n with
  | none => s
  | some h =>
    match s.upd.images.find h with
    | none => s
    | some x => { s with upd := { s.upd with images := s.upd.images.insert h (f x) } }

/-- Copy a state tile, tag lines included, into the image of step `n`. -/
def State.imageTile (s : State) (n l seg : Nat) (g : Segment) (t : Nat) : State :=
  let parts := (ruleTensors g.rule).flatMap fun k =>
    let (c, e, a) := g.offs k
    let f : Fmt := if k = 2 then .h16 else .g8
    (c + t * etBytes f, etBytes f) :: (if k = 2 then [] else [(e + 32 * t, 32)]) ++ [(a + 32 * t, 32)]
  let bs := parts.map fun p => (p.1, s.regionBytes g.stateH p.1 p.2)
  (s.touch g.stateH (g.statePagesOf t)).updImage n fun x => { x with bytes := bs.foldl (fun m p => memWrite m (imageKey l seg p.1) p.2) x.bytes }

/-- Write a layer's journal entry, form and quiet count into the image. -/
def State.imageLayer (s : State) (n l : Nat) : State :=
  let y : ImageLayer := { entry := s.journal l, form := s.rd (Obj.fbState l), quiet := s.rd (Obj.fbQuiet l) }
  s.updImage n fun x => { x with layers := x.layers.insert l y }

/-! ### Digests (R219, R220) -/

/-- The digest of a layer over its state as stored. -/
def State.digestOf (s : State) (l : Nat) : Nat :=
  (s.tilesOf l).foldl (fun c (_, g, t) => (ruleTensors g.rule).foldl (fun c k => crc64Step c (s.tensorBytes g k t)) c) 0

/-- The step digest over the layer digests of every mapped layer. -/
def State.stepDigestNow (s : State) : Nat := crc64 (s.mappedLayers.flatMap fun l => p64 (s.journal l).digest)

/-- Once the last mapped layer of step `n` commits, the step digest is formed, and the image of the step gets it with entry 0. -/
def State.formDigest (s : State) (n : Nat) : State :=
  if s.mappedLayers ≠ [] ∧ s.mappedLayers.all (fun l => (s.journal l).committed == n && (s.journal l).state != 6) then
    let d := s.stepDigestNow
    let s := (s.wr Obj.stepDigest d).wr Obj.stepDigestStep n
    let s := { s with coll := { s.coll with formed := true } }
    s.updImage n fun x => { x with
      watch := some (s.rd Obj.spikeMu, s.rd Obj.spikeDev, s.rd Obj.spikeSeen, s.rd Obj.spikeRun), digest := some d }
  else s

/-! ### Record checks (Table 8.4) -/

/-- Does a handle name a region of a class with at least `n` pages? -/
def State.hasRegion (s : State) (h cls n : Nat) : Bool :=
  match s.region h with
  | some r => r.cls == cls && decide (n ≤ r.size)
  | none => false

/-- Checks 0xB1 to 0xB3 and 0xB6 of a map record. -/
def State.mapCheck (s : State) (d : Up) : Nat :=
  let segs := (List.range 16).filter fun g => g == d.seg || (s.upd.maps.find (16 * d.layer + g)).isSome ||
    (s.upd.mapsNext.find (16 * d.layer + g)).isSome
  if d.rule = 3 ∨ ¬ [0, 2, 4, 5, 6].contains d.wcFmt then 0xB1
  else if d.layer = 0 ∨ segs ≠ List.range segs.length then 0xB2
  else if ¬ (1 ≤ d.tiles ∧ d.tiles ≤ 2 ^ 24 ∧ s.hasRegion d.stateH 0 (statePages d.rule d.tiles) ∧
      (s.region d.gradH).any (fun r => r.cls == 2 && decide (d.tiles ≤ 64 * gradCodePages r.size)) ∧
      s.hasRegion d.wcH 1 (wcPages ((fmtOf d.wcFmt).getD .f8) d.tiles)) then 0xB3
  else if ¬ [d.wScale, d.mScale, d.vScale, d.wcScale].all (fun c => goodScale (g16 c)) then 0xB6
  else 0

/-- Values of check 0xB6 of an update record. -/
def Up.valuesOk (d : Up) : Bool :=
  let nonneg (c : Nat) : Bool := match g16 c with
    | .fin x => !x.isNeg
    | .nan => false
  let pos (c : Nat) : Bool := goodScale (g16 c)
  let unit (c : Nat) : Bool := match g16 c with
    | .fin x => decide (0 < x.n) && x.le (.int 1)
    | .nan => false
  nonneg d.eta && nonneg d.wd && unit d.g1 && unit d.g2 && [d.eps, d.c1, d.c2, d.gscale, d.phi, d.rhoInit, d.rhoLo, d.rhoHi].all pos &&
  (g16 d.rhoLo).ex.le (g16 d.rhoHi).ex

/-- Is the layer mapped at the boundary of step `n`: now, or by a map that takes effect before it? -/
def State.mappedAt (s : State) (l n : Nat) : Bool :=
  s.mapped l || ((s.upd.mapsNext.find (16 * l)).isSome && decide (s.abortTarget < n))

/-- Has an update record of the layer for step `n`, or the one after, been dispatched already? -/
def State.updateSeen (s : State) (l n : Nat) : Bool :=
  s.upd.arms.any (fun a => a.layer == l && (a.step == n || a.step == n + 1)) ||
  ((s.journal l).state != 0 && decide (n ≤ (s.journal l).committed))

def State.updCheck (s : State) (d : Up) (n : Nat) : Nat :=
  if d.layer = 0 then 0xB2
  else if ¬ s.mappedAt d.layer n then 0xB4
  else if s.updateSeen d.layer n then 0xB5
  else if ¬ d.valuesOk then 0xB6
  else 0

/-- The taken, undamaged checkpoint under a handle (R279, R281). -/
def State.takenImage (s : State) (h : Nat) : Option Image :=
  ((List.range 16).find? fun k => s.rd (Obj.ckptHandle (k + 1)) == h && s.rd (Obj.ckptState (k + 1)) == 2).bind fun k => s.store.taken.find (k + 1)

/-- The lowest failing reason of Table 8.4, 0 if none fails. -/
def State.upCheck (s : State) (d : Up) (step : Option Nat) : Nat :=
  if 2 < d.op then 0xB1
  else if d.op = 0 then s.mapCheck d
  else if d.op = 1 then s.updCheck d (step.getD 0)
  else if (s.takenImage d.imageH).isNone then 0xB3
  else 0

/-! ### UPDATE_MAP and UPDATE (R208, R209) -/

/-- UPDATE_MAP: one segment, from the next boundary. -/
def execUpdateMap (w : Fin 8) (q : Nat) (s : State) : Host.Outcome State Fault Refusal :=
  onUnit w q 7 0 s fun e =>
    let d := upOf e.raw
    let g : Segment := { rule := d.rule, wcFmt := d.wcFmt, stateH := d.stateH, tiles := d.tiles, gradH := d.gradH, wcH := d.wcH,
                         wScale := d.wScale, mScale := d.mScale, vScale := d.vScale, wcScale := d.wcScale }
    { s with upd := { s.upd with mapsNext := s.upd.mapsNext.insert (16 * d.layer + d.seg) g } }.unitDone w e.seq 0 0

def State.setJournal (s : State) (l : Nat) (j : Journal) : State := { s with upd := { s.upd with journal := s.upd.journal.set Journal.reset l j } }

/-- A committed layer with an update record armed: armed for the lowest such step (Table 8.6). -/
def State.armLayer (s : State) (l : Nat) : State :=
  let j := s.journal l
  if j.state ≠ 1 then s
  else
    match (s.upd.arms.filter fun a => a.layer == l).foldl (fun (b : Option UpdArm) a => match b with
        | none => some a
        | some x => if a.step < x.step then some a else some x) none with
    | some a => s.setJournal l { j with state := 2, passStep := a.step, ckpt := a.ckpt }
    | none => s

/-- Maps take effect at a boundary after the commit of step `n`: a layer mapped for the first time counts as committed at it. -/
def State.applyMaps (s : State) (n : Nat) : State :=
  let next := s.upd.mapsNext
  let s := { s with upd := { s.upd with maps := next.foldl (fun m (k, g) => m.insert k g) s.upd.maps, mapsNext := [] } }
  (next.map fun m => m.1 / 16).eraseDups.foldl (fun s l =>
    let j := s.journal l
    let j := if j.state = 0 then { j with state := 1, committed := n, passStep := n, tagStep := n } else j
    (s.setJournal l { j with rule := s.layerRule l, tiles := s.layerTiles l }).armLayer l) s

/-- UPDATE: arms the layer's pass for the step of its window; the record waits for the layer's commit. That of a layer in fault completes
with status state-lost (R224). -/
def execUpdate (w : Fin 8) (q : Nat) (s : State) : Host.Outcome State Fault Refusal :=
  onUnit w q 7 1 s fun e =>
    let d := upOf e.raw
    if s.upd.arms.any fun a => a.win == w.val && a.seq == q then s
    else if (s.journal d.layer).state = 6 then s.unitDone w e.seq 0x1C 0
    else
      let a : UpdArm := { win := w, seq := q, layer := d.layer, step := e.step.getD 0, ckpt := d.ckpt, first := d.first, eta := d.eta,
                          wd := d.wd, g1 := d.g1, g2 := d.g2, eps := d.eps, c1 := d.c1, c2 := d.c2, gscale := d.gscale, phi := d.phi,
                          rhoLo := d.rhoLo, rhoHi := d.rhoHi, rhoInit := d.rhoInit, go := false, seed := 0, zero := false }
      ({ s with upd := { s.upd with arms := s.upd.arms ++ [a] } }).armLayer d.layer

/-! ### Passes (R205, R222) -/

/-- The arm of a layer's pass of step `n`. -/
def State.passArm (s : State) (l n : Nat) : Option UpdArm := s.upd.arms.find? fun a => a.layer == l && a.step == n

/-- The ratio of the pass (R213). -/
def State.rhoFor (s : State) (a : UpdArm) : Nat :=
  if s.layerRule a.layer = 2 then 0x3F80 else if a.first then a.rhoInit else (s.journal a.layer).rhoNext

/-- Bytes of the state of a tile, of a tensor of it, of its gradient blocks and of its working copy (R206). -/
def Segment.stateBytes (g : Segment) : Nat := if g.rule = 1 then 3168 else 4256
def tensorSize (tensor : Nat) : Nat := if tensor = 2 then 2080 else 1088
def gradBytes : Nat := 1056
def Segment.wcBytes (g : Segment) : Nat := match fmtOf g.wcFmt with
  | some f => etBytes f + scaleBytes f 1
  | none => 0

/-- Bytes one state tile of a pass moves (R206). -/
def State.tileTraffic (g : Segment) (ckpt : Bool) : Nat :=
  2 * g.stateBytes + gradBytes + g.wcBytes + (if ckpt then g.stateBytes else 0)

/-- Bank-tier bytes that the update processor moves (0xA030.02). -/
def State.moved (s : State) (n : Nat) : State := s.count Obj.updBytes n

/-- Write number `i` of a state tile (R222): m, for which state and gradient are read, v, w, the working copy, the checkpoint image. The
write of w makes it a state tile written; every write counts its bytes (Table 8.8). -/
def State.tileWrite (s : State) (a : UpdArm) (rho index : Nat) (x : Nat × Segment × Nat) (i : Nat) : State :=
  let (seg, g, t) := x
  if i = 0 then ((s.touch g.gradH (s.gradPagesOf g t)).writeTensor g a rho 0 t index).moved (g.stateBytes + gradBytes + tensorSize 0)
  else if i = 1 then (if g.rule = 1 then s else (s.writeTensor g a rho 1 t index).moved (tensorSize 1))
  else if i = 2 then ((s.writeTensor g a rho 2 t index).moved (tensorSize 2)).count Obj.updTiles 1
  else if i = 3 then (s.writeWc g a.layer t).moved g.wcBytes
  else if a.ckpt then (s.imageTile a.step a.layer seg g t).moved g.stateBytes
  else s

/-- Take the tiles of a pass from index `lo` on to the counts of accepted writes that `want` names, from the counts they have. -/
def State.passWrites (s : State) (a : UpdArm) (rho lo : Nat) (got want : List Nat) : State :=
  let ts := s.tilesOf a.layer
  want.zipIdx.foldl (fun s (n, i) =>
    match ts[lo + i]? with
    | none => s
    | some x => (List.range n).foldl (fun s k => if got.getD i 0 ≤ k then s.tileWrite a rho (lo + i) x k else s) s) s

/-- Lane groups, each with one state tile at a time (R204). -/
def laneGroups : Nat := 16

/-- Tiles from index `lo` on that a pass can work on now: up to the first with a page that is moving (R239). -/
def State.clearTo (s : State) (l lo : Nat) : Nat := (((s.tilesOf l).drop lo).takeWhile fun x => s.atHand (s.pagesOfTile x.2.1 x.2.2)).length

/-- The record of a pass waits for the moving pages of the tile it has come to, if it was to go beyond it. -/
def State.passWait (s : State) (a : UpdArm) (index : Nat) : State :=
  match (s.tilesOf a.layer)[index]? with
  | some x => (s.writable (recKey a.win a.seq) (s.pagesOfTile x.2.1 x.2.2)).1
  | none => s.endPageWait (recKey a.win a.seq)

/-- Bring a running pass to `n` whole tiles with the writes of `ahead` accepted in the tiles behind them, at most one tile for each lane
group; nothing is taken back. A tile with a page that is moving is waited for (R239). -/
def State.passTo (s : State) (a : UpdArm) (n : Nat) (ahead : List Nat) : State :=
  let j := s.journal a.layer
  let total := s.layerTiles a.layer
  let clear := s.clearTo a.layer j.wrote
  let n := min (max n j.wrote) (j.wrote + clear)
  let want := (List.range (n - j.wrote + laneGroups)).map fun i =>
    if i < n - j.wrote then 5
    else if i < clear then max (min 5 (ahead.getD (i - (n - j.wrote)) 0)) (j.flight.getD i 0)
    else j.flight.getD i 0
  let s := s.passWait a (j.wrote + clear)
  let s := s.passWrites a j.rhoCur j.wrote j.flight want
  s.setJournal a.layer { j with wrote := n, flight := (want.drop (n - j.wrote)).take (total - n) }

/-- Tiles that a pass has written in full. -/
def State.passDone (s : State) (l : Nat) : Bool := (s.journal l).wrote == s.layerTiles l

/-- Is the processor free: no pass running, written or recovering? -/
def State.chiselFree (s : State) : Bool := s.upd.journal.all fun j => !(decide (3 ≤ j.2.state ∧ j.2.state ≤ 5))

/-- May passes run: neither parked nor in hold (R370, R383)? -/
def State.chiselOn (s : State) : Bool := s.arrayOn

/-! ### Layer commit (R213, R219 to R221, R225, R227) -/

/-- The norm sums of a layer over its stored state, element by element in the order of R205. -/
def State.norms (s : State) (a : UpdArm) : Val × Val :=
  (s.tilesOf a.layer).foldl (fun acc (_, g, t) =>
    (List.range 32).foldl (fun acc j =>
      ((s.stVals g 2 t j).zip (s.uVals g a t j)).foldl (fun (acc : Val × Val) (w, u) =>
        (rw1 (acc.1.add (w.mul w)), rw1 (acc.2.add (u.mul u)))) acc) acc) (.fin .zero, .fin .zero)

/-- The next ratio and the update-to-weight ratio (R213). -/
def State.ratios (s : State) (a : UpdArm) (rho : Nat) : Nat × Nat :=
  let (sw, su) := s.norms a
  let nw := rw1 sw.sqrt
  let nu := rw1 su.sqrt
  let next := if s.layerRule a.layer = 2 ∨ nw.isZero ∨ nu.isZero ∨ nw.isNan ∨ nu.isNan then 0x3F80
    else g16Code ((rw1 (((g16 a.phi).mul nw).div nu)).map fun x => (x.max (g16 a.rhoLo).ex).min (g16 a.rhoHi).ex)
  let uw := if nw.isZero ∨ nw.isNan ∨ nu.isNan then Fmt.g16.nanCode else g16Code (rw1 (((a.k rho).mul nu).div nw))
  (next, uw)

/-- The update-to-weight watch: each event once per episode, which ends at the first commit back within bounds (R227). -/
def State.uwWatch (s : State) (l n uw : Nat) : State :=
  let v := g16 uw
  let high : Bool := match v with
    | .nan => true
    | .fin x => ((decodeFloat .h16 (s.rd Obj.uwHigh)).ex).lt x
  let low : Bool := match v with
    | .nan => false
    | .fin x => x.lt (decodeFloat .h16 (s.rd Obj.uwLow)).ex
  let ps := [p8 l, p64 n, p16 uw]
  let s := if high then s.raiseOnce Ev.uwRatioHigh l ps else s
  let s := if low then s.raiseOnce Ev.uwRatioLow l ps else s
  if high ∨ low then s else (s.endEpisode Ev.uwRatioHigh l).endEpisode Ev.uwRatioLow l

/-- The journal entry of the commit is written, the record completes, the image gets the layer's entry, the step digest may follow. -/
def State.commitLayer (s : State) (a : UpdArm) : State :=
  let l := a.layer
  let j := s.journal l
  let (next, uw) := s.ratios a j.rhoCur
  let s := s.setJournal l { j with committed := a.step, passStep := a.step, tagStep := a.step, digest := s.digestOf l, state := 1,
                                   rhoNext := next, uwQ := uw, wrote := 0, flight := [] }
  let s := { s with upd := { s.upd with arms := s.upd.arms.erase a } }
  let s := s.unitDone a.win a.seq (if j.recovered then 0x1A else 0) 0
  let s := if a.ckpt then s.imageLayer a.step l else s
  let s := s.uwWatch l a.step uw
  (s.formDigest a.step).armLayer l

/-- LAYER_COMMIT: the last tile of a running pass is written, and the layer commits; the pass goes on where a page it needs is moving. -/
def State.layerCommit (s : State) (l : Nat) : State :=
  let j := s.journal l
  match s.passArm l j.passStep with
  | none => s
  | some a =>
    if j.state = 3 ∧ s.chiselOn then
      let s := s.passTo a (s.layerTiles l) []
      if s.passDone l then (s.setJournal l { s.journal l with state := 4 }).commitLayer a else s
    else s

/-! ### Skips (R218) -/

/-- A layer that is skipped enters the image of its step as it stands. -/
def State.skipImage (s : State) (step l : Nat) : State :=
  let s := s.openImage step l
  let s := (s.tilesOf l).foldl (fun s (seg, g, t) => s.imageTile step l seg g t) s
  s.imageLayer step l

/-- A layer's update of its armed step is skipped. A layer in fault is left only by restore or repair (Table 8.6): its record completes
with status state-lost. -/
def State.skipLayer (s : State) (a : UpdArm) : State :=
  let l := a.layer
  let j := s.journal l
  if j.state = 6 then ({ s with upd := { s.upd with arms := s.upd.arms.erase a } }).unitDone a.win a.seq 0x1C 0
  else
  let rho := s.rhoFor a
  let s := s.setJournal l { j with committed := a.step, passStep := a.step, state := 1, rhoCur := rho, rhoNext := rho, ckpt := a.ckpt }
  let s := { s with upd := { s.upd with arms := s.upd.arms.erase a } }
  let s := (s.unitDone a.win a.seq 0x19 0).count Obj.updSkipped 1
  let s := if a.ckpt then s.skipImage a.step l else s
  (s.formDigest a.step).armLayer l

/-! ### Restart and recovery (R223, R224) -/

/-- What the tag lines of a tile say: the steps of m, v and w (v as m under rule 1), none where a line is unsound or out of order. -/
def State.tileTags (s : State) (g : Segment) (t l index step prev : Nat) : Option (Bool × Bool × Bool) :=
  let ok := (ruleTensors g.rule).all fun k => s.tagOk g k t l index && (s.tagStep g k t == step || s.tagStep g k t == prev)
  let m := s.tagStep g 0 t == step
  let v := if g.rule = 1 then m else s.tagStep g 1 t == step
  let w := s.tagStep g 2 t == step
  if ¬ ok ∨ (w ∧ ¬ (m ∧ v)) then none else some (m, v, w)

/-- Rewrite a layer's working copy from its masters (the rebuild pass). -/
def State.rebuildWc (s : State) (l : Nat) : State := (s.tilesOf l).foldl (fun s (_, g, t) => s.writeWc g l t) s

/-- One tile of a recovery: the tensors that do not carry the pass's step are redone, in the order of R222; the second part says which of
m, v and w carried it, none where a tag line is unsound. -/
def State.redoTile (s : State) (a : UpdArm) (rho prev i : Nat) (g : Segment) (t : Nat) : State × Option (Bool × Bool × Bool) :=
  match s.tileTags g t a.layer i a.step prev with
  | none => (s, none)
  | some (m, v, w) =>
    if w then (s, some (m, v, w))
    else
      let s := s.moved (g.stateBytes + (if m && v then 0 else gradBytes))
      let s := if m && v then s else s.touch g.gradH (s.gradPagesOf g t)
      let s := if m then s else (s.writeTensor g a rho 0 t i).moved (tensorSize 0)
      let s := if v ∨ g.rule = 1 then s else (s.writeTensor g a rho 1 t i).moved (tensorSize 1)
      (((s.writeTensor g a rho 2 t i).moved (tensorSize 2)).count Obj.updTiles 1, some (m, v, w))

/-- Tile after tile from index `i`: what each one's tags said, or the index of the first that is unsound, at which the recovery stops
(R224). -/
def State.redoTiles (s : State) (a : UpdArm) (rho prev : Nat) : Nat → List (Nat × Segment × Nat) → State × List (Bool × Bool × Bool) × Option Nat
  | _, [] => (s, [], none)
  | i, (_, g, t) :: r =>
    match s.redoTile a rho prev i g t with
    | (s, none) => (s, [], some i)
    | (s, some k) =>
      let (s, ks, bad) := s.redoTiles a rho prev (i + 1) r
      (s, k :: ks, bad)

/-- The rebuild pass: state read, working copy and image tile rewritten. -/
def State.rebuildPass (s : State) (a : UpdArm) : State :=
  (s.tilesOf a.layer).foldl (fun s (seg, g, t) =>
    let s := (s.writeWc g a.layer t).moved (g.stateBytes + g.wcBytes)
    if a.ckpt then (s.imageTile a.step a.layer seg g t).moved g.stateBytes else s) s

/-- The recovery of a layer, once no page that it reads or writes is moving (R224, R239). -/
def State.recoverOn (s : State) (l : Nat) : State :=
  let j := s.journal l
  match s.passArm l j.passStep with
  | none => s
  | some a =>
  match s.writable (recKey a.win a.seq) (s.layerPages l) with
  | (s, false) => s
  | (s, true) =>
    let (s, tags, bad) := s.redoTiles a j.rhoCur j.tagStep 0 (s.tilesOf l)
    match bad with
    | some i => ((s.layerFault l).raise Ev.updateJournalFault [p8 l, p32 i]).loseState
    | none =>
      let s := s.rebuildPass a
      let n (f : Bool → Bool → Bool → Bool) : Nat := (tags.filter fun (m, v, w) => f m v w).length
      let s := s.raise Ev.updateRecovered [p8 l, p64 a.step, p32 (n fun m _ w => !m && !w), p32 (n fun m v w => m && v && !w),
        p32 (n fun m v w => m && !v && !w)]
      (s.countSat Obj.updRecovered 1).commitLayer a

/-- Recover a layer whose pass was interrupted: the recovery starts from the beginning. -/
def State.recover (s : State) (l : Nat) : State :=
  let j := s.journal l
  (s.setJournal l { j with state := 5, restarts := min 65535 (j.restarts + 1), recovered := true }).recoverOn l

/-! ### UPDATE_PASS_START (R209, R222) -/

/-- UPDATE_PASS_START: an armed pass whose step has committed starts; the command says how far its writes have come, so a further one
takes a running pass on. A recovery that waits for a page that was moving goes on. -/
def State.passStart (s : State) (l n : Nat) (ahead : List Nat) : State :=
  let j := s.journal l
  match s.passArm l j.passStep with
  | none => s
  | some a =>
    if ¬ s.chiselOn then s
    else if j.state = 5 then s.recoverOn l
    else if j.state = 3 then s.passTo a n ahead
    else if j.state = 2 ∧ a.go ∧ s.chiselFree then
      let s := s.setJournal l { j with state := 3, ckpt := a.ckpt, rhoCur := s.rhoFor a, restarts := 0, wrote := 0, flight := [],
                                       recovered := false }
      let s := if a.ckpt then s.openImage a.step l else s
      s.passTo a n ahead
    else s

/-! ### UPDATE_WATCHDOG (R223) -/

/-- UPDATE_WATCHDOG: Plinth restarts the processor, and every layer found running, written or recovering is recovered. It fires with no
such layer too where a pass could start and none does (R223). -/
def State.updateWatchdog (s : State) : State :=
  let ls := (s.upd.journal.filter fun j => decide (3 ≤ j.2.state ∧ j.2.state ≤ 5)).map Prod.fst
  if ls.isEmpty ∧ ¬ s.arrayOn then s
  else ls.foldl (fun s l => s.recover l) ((s.raise Ev.updateRestart []).countSat Obj.updRestarts 1)

/-! ### Working copies to rebuild after an uncorrectable unit (Table 9.6) -/

/-- Rewrite the working copies of the layers that lost one, from their masters. -/
def State.rebuildLost (s : State) : State :=
  s.upd.rebuild.foldl (fun s l => s.rebuildWc l) { s with upd := { s.upd with rebuild := [] } }

/-- The pages that the rewriting needs. -/
def State.rebuildPages (s : State) : List (Nat × Nat) := s.upd.rebuild.flatMap s.layerPages

/-! ### Restore (R226) -/

/-- The page of an image's region from which a segment's state stands: the segments follow one another in the order of the maps (DESIGN
CHOICE, log entry 51). -/
def State.imagePage (s : State) (l seg : Nat) : Nat :=
  ((s.upd.maps.filter fun m => decide (m.1 < 16 * l + seg)).map fun m => statePages m.2.rule m.2.tiles).sum

/-- Put a layer's tiles from an image into its state regions, and check and reinstate it: every tag line carries the image's step (R226).
The Bool says whether it matched. fb_h16_layers follows at the next boundary, when it changes with the other objects of Table 3.14 (DESIGN
CHOICE, log entry 127). -/
def State.restoreLayer (s : State) (h : Nat) (x : Image) (l : Nat) : State × Bool :=
  match x.layers.find l with
  | none => (s.layerFault l, false)
  | some y =>
    let s := (s.segsOf l).foldl (fun s (seg, g) =>
      let n := statePages g.rule g.tiles
      ((List.range n).foldl (fun s p => s.readGeneral h (s.imagePage l seg + p)) s).regionWrite g.stateH 0
        (memRead x.bytes (imageKey l seg 0) (65536 * n))) s
    let ok := (s.tilesOf l).zipIdx.all fun ((_, g, t), i) => (s.tileTags g t l i x.step x.step).isSome
    if ok ∧ s.digestOf l = y.entry.digest then
      let s := s.rebuildWc l
      let s := (s.wr (Obj.fbState l) y.form).wr (Obj.fbQuiet l) y.quiet
      ((s.setJournal l { y.entry with state := 1, passStep := y.entry.committed, wrote := 0, flight := [] }).armLayer l, true)
    else (s.layerFault l, false)

/-- Put several layers back from an image; the second part names those that did not match. -/
def State.restoreLayers (s : State) (h : Nat) (x : Image) (ls : List Nat) : State × List Nat :=
  ls.foldl (fun (a : State × List Nat) l =>
    let (s, ok) := a.1.restoreLayer h x l
    (s, if ok then a.2 else a.2 ++ [l])) (s, [])

/-- A rollback abandons a layer's pass of a committed step: its update record is discarded (R223). -/
def State.abandonPass (s : State) (l : Nat) : State :=
  let gone := s.upd.arms.filter fun a => a.layer == l && a.go
  gone.foldl (fun s a => match s.entry a.win a.seq with
    | some e => s.discard a.win e
    | none => s) { s with upd := { s.upd with arms := s.upd.arms.filter fun a => !(a.layer == l && a.go) } }

/-- RESTORE: reinstate one layer, or every mapped layer with the spike detector and last_committed_step, once no page of them is moving
(R239). A checkpoint that has lost a unit by then counts as a mismatch of every layer it loads (R281). -/
def State.restore (s : State) (w : Nat) (e : QEntry) : State :=
  let d := upOf e.raw
  let ls := if d.layer = 0 then s.mappedLayers else [d.layer]
  match s.takenImage d.imageH with
  | none =>
    (ls.foldl (fun s l => ((s.abandonPass l).layerFault l).raise Ev.restoreFault [p8 l]) s).unitDone w e.seq 0x1B 0
  | some x =>
  match s.writable (recKey w e.seq) ((ls.flatMap s.layerPages).eraseDups) with
  | (s, false) => s
  | (s, true) =>
    let s := ls.foldl (fun s l => s.abandonPass l) s
    let (s, bad) := s.restoreLayers d.imageH x ls
    let s := bad.foldl (fun s l => s.raise Ev.restoreFault [p8 l]) s
    if bad ≠ [] then s.unitDone w e.seq 0x1B 0
    else if d.layer ≠ 0 then s.unitDone w e.seq 0 0
    else if x.digest ≠ some s.stepDigestNow then (s.raise Ev.restoreFault [p8 0]).unitDone w e.seq 0x1B 0
    else
      let s := match x.watch with
        | some (mu, dev, seen, run) => (((s.wr Obj.spikeMu mu).wr Obj.spikeDev dev).wr Obj.spikeSeen seen).wr Obj.spikeRun run
        | none => s
      let s := (x.forms.filter fun f => (x.layers.find f.1).isNone).foldl (fun s (l, f, q) => (s.wr (Obj.fbState l) f).wr (Obj.fbQuiet l) q) s
      let s := ((s.wr Obj.stepDigest (x.digest.getD 0)).wr Obj.stepDigestStep x.step).wr Obj.lastCommittedStep x.step
      s.unitDone w e.seq 0 0

def execRestore (w : Fin 8) (q : Nat) (s : State) : Host.Outcome State Fault Refusal :=
  onUnit w q 7 2 s fun e => s.restore w e

end Sys2Proof.Machine
end

