-- ==== Sys2Proof/Machine/Store.lean ====
section
/-! DEFINITION. The store tier (chapter 10): the flash array and its wear (R266 to R268, R275 to R277), stream zones and appends (R269,
R272 to R274), general zones (R270), drains and the checkpoint catalogue (R278 to R280). -/
namespace Sys2Proof.Machine

/-! ### The flash array (R266, R268, R275 to R277) -/

/-- The mean and highest erase counts, with what they raise (R277, R498). -/
def State.wearNow (s : State) : State :=
  let sum := (s.store.blocks.map fun b => b.2.erases).sum
  let top := s.store.blocks.foldl (fun m b => max m b.2.erases) 0
  let s := (s.wr Obj.wearAvgPe (min 65535 (sum / 262144))).wr Obj.wearMaxPe (min 65535 top)
  let avg := sum / 262144
  let s := if 2700 ≤ avg then (s.raiseOnce Ev.wearHigh 0 []).lifeWarn 1 else s
  if 3000 ≤ avg then s.lifeExceed 1 else s

/-- Erase a block: its count goes up and it holds nothing. -/
def State.eraseBlock (s : State) (k : Nat) : State :=
  let b := s.block k
  s.setBlock k { b with erases := b.erases + 1, reads := 0, programmed := none }

/-- A unit of a block is programmed now, in powered time. A retired block, and one of a failed die, takes nothing. -/
def State.programBlock (s : State) (k : Nat) : State :=
  if (s.block k).retired ∨ s.store.dies.contains (k / 1024) then s else s.setBlock k { s.block k with programmed := some (s.poweredS) }

/-- A relocated block: read, programmed elsewhere, counted (R275, R276). -/
def State.countRelocation (s : State) : State :=
  ((s.count Obj.stRefreshes 1).count Obj.stReadBytes blockBytes).count Obj.stProgBytes blockBytes

/-- The block of lowest erase count on a die, the lowest number first, among those that hold nothing and are sound, `k` apart; none on a failed
die (R275). -/
def State.drawBlock (s : State) (die : Nat) (k : Option Nat) : Option Nat :=
  if s.store.dies.contains die then none
  else
    let listed := (s.store.blocks.filter fun x => x.1 / 1024 == die && some x.1 != k && !x.2.retired && x.2.programmed.isNone).map fun x =>
      (x.2.erases, x.1)
    let fresh := (firstWhere (fun b => (s.store.blocks.find (blockKey die b)).isNone && some (blockKey die b) != k) 1024 0).map fun b =>
      (0, blockKey die b)
    ((listed ++ fresh.toList).foldl (fun (best : Option (Nat × Nat)) x => match best with
      | none => some x
      | some y => if x.1 < y.1 ∨ (x.1 = y.1 ∧ x.2 < y.2) then some x else best) none).map Prod.snd

/-- The block that a refresh of `k`, or its replacement, goes to, on its die. -/
def State.spareFor (s : State) (k : Nat) : Option Nat := s.drawBlock (k / 1024) (some k)

/-- The place of a stripe, die × 1024 + block, at which a four-plane block stands. -/
def State.stripeAt (s : State) (k : Nat) : Nat := ((s.store.blockMap.find? fun x => x.2 == k).map Prod.fst).getD k

/-- Put block `k` at a place of a stripe. -/
def State.standAt (s : State) (l k : Nat) : State :=
  { s with store := { s.store with blockMap := if l = k then s.store.blockMap.erase l else s.store.blockMap.insert l k } }

/-- Two blocks change places, in one update of the map (R275). -/
def State.swapBlocks (s : State) (k c : Nat) : State :=
  let a := s.stripeAt k
  let b := s.stripeAt c
  if k = c then s else (s.standAt a c).standAt b k

/-- Move a block's content to `c` on its die: the map switches in one update, then the old block is erased (R275). -/
def State.relocate (s : State) (k c : Nat) : State := (((s.swapBlocks k c).programBlock c).eraseBlock k).countRelocation.wearNow

/-- Refresh a block by relocation, where a spare stands ready (R276). -/
def State.refreshBlock (s : State) (k : Nat) : State :=
  if (s.block k).programmed.isNone then s
  else match s.spareFor k with
    | some c => s.relocate k c
    | none => s

/-- A spare takes the place of a block that is to be retired, with the units of it that can be read (R277). -/
def State.replaceBlock (s : State) (k : Nat) : State :=
  match s.spareFor k with
  | none => s
  | some c =>
    let s := s.swapBlocks k c
    if (s.block k).programmed.isNone then s
    else (s.setBlock k { s.block k with programmed := none }).programBlock c |>.countRelocation

/-- A block is retired: a spare takes its place (R277). -/
def State.retireBlock (s : State) (k : Nat) : State :=
  if (s.block k).retired then s
  else
    let die := k / 1024
    let s := s.replaceBlock k
    let s := s.setBlock k { s.block k with retired := true }
    let s := s.wr Obj.badBlocks (min 262144 (s.rd Obj.badBlocks + 1))
    let used := s.store.sparesUsed.get 0 die + 1
    let s := { s with store := { s.store with sparesUsed := s.store.sparesUsed.insert die used } }
    let left := objDflt Obj.spareMinDie - s.store.sparesUsed.foldl (fun m d => max m d.2) 0
    let s := s.wr Obj.spareMinDie left
    let s := if left < 4 then (s.raiseOnce Ev.storeSparesLow 0 []).lifeWarn 2 else s
    if left = 0 then s.lifeExceed 2 else s

/-! ### Stream zones (R269, R272 to R274) -/

def zoneAddr (z b : Nat) : Nat := z * 2 ^ 46 + b

/-- Bytes a zone holds when full. -/
def State.zoneSize (s : State) (z : Nat) : Nat := s.rd (Obj.szStripeBlocks z) * sbUnits * 65536

/-- Physical place of data unit `u` of a zone. -/
def State.unitPlace (s : State) (z u : Nat) : Place := placeOf ((s.store.zoneBlocks.get [] z).getD (u / sbUnits) 0) (u % sbUnits)

def State.unitBlock (s : State) (z u : Nat) : Nat := s.placeBlock (s.unitPlace z u)

/-- On every die a sound block stands in stripe block `b`: where a retired one stands, or `pick` says so, a block of lowest erase count takes
its place (R275, R277). -/
def State.drawStripe (s : State) (b : Nat) (pick : Bool) : State :=
  (List.range 256).foldl (fun s die =>
    let k := s.physBlock die b
    if pick ∨ (s.block k).retired then
      (match s.drawBlock die none with
       | some c => s.swapBlocks k c
       | none => s)
    else s) s

/-- Stripe blocks in use: by zones other than `z`, and by the general zones. -/
def State.stripesHeld (s : State) (z : Option Nat) : List Nat :=
  ((s.store.zoneBlocks.filter fun x => some x.1 != z).flatMap Prod.snd) ++ s.store.genBlocks

/-- Give a zone `n` stripe blocks: the lowest that nothing else holds. -/
def State.sizeZone (s : State) (z n : Nat) : State :=
  let held := s.stripesHeld (some z)
  let bs := ((List.range 1024).filter fun b => !held.contains b).take n
  let s := bs.foldl (fun s b => s.drawStripe b false) s
  let s := { s with store := { s.store with zoneBlocks := s.store.zoneBlocks.set [] z bs } }
  s.wr (Obj.szState z) (if n = 0 then 0 else 1)

/-- Append records of a zone dispatched and not complete. -/
def State.zoneAppends (s : State) (z : Nat) : List (Nat × QEntry) :=
  s.running.filter fun p => Rec.kind p.2.raw == 8 && Rec.op p.2.raw == 4 && !p.2.skip && !p.2.unit && (inOf p.2.raw).zone == z

/-- Does a zone hold data: written, or on its way by an append in flight (R269)? -/
def State.zoneHolds (s : State) (z : Nat) : Bool := s.rd (Obj.szWp z) != 0 || !(s.zoneAppends z).isEmpty

/-- Status of a write of sz_stripe_blocks from the not-stopped check on: the zone holds data (Table 15.3), or the total exceeds 924 (R269). -/
def State.sizeCond (s : State) (z n : Nat) : Nat :=
  let total := (((List.range 4).filter (· ≠ z)).map fun k => s.rd (Obj.szStripeBlocks k)).sum + n
  if s.zoneHolds z then 0x06 else if 924 < total then 0x09 else 0

/-- Data bytes that the appends of a zone before a record in dispatch order will take of it. -/
def State.zoneTaken (s : State) (z : Nat) : Nat := (((s.zoneAppends z).map fun p => (inOf p.2.raw).rows).sum) * rowBytes

/-- APPEND: host data of len_64k pages for the write pointer, through the owner port; one append of a zone at a time, in dispatch
order (R272). -/
def State.append (s : State) (w : Nat) (e : QEntry) (data : Bytes) : State :=
  let d := inOf e.raw
  let key := recKey w e.seq
  let up : Bool := match (s.win w).owner with
    | some p => s.linkUp p
    | none => false
  if (s.store.appends.find key).isSome ∨ (s.zoneAppends d.zone).any (fun p => decide (p.2.order < e.order)) ∨ ¬ up ∨
      data.length ≠ 65536 * Rec.w e.raw 2 63 32 then s
  else
    let j : AppendJob := { zone := d.zone, base := s.rd (Obj.szWp d.zone), rows := d.rows, done := 0, data := data }
    { s with store := { s.store with appends := s.store.appends.insert key j } }.count Obj.stHostBytes data.length

def execAppend (w : Fin 8) (q : Nat) (data : Bytes) (s : State) : Host.Outcome State Fault Refusal :=
  onUnit w q 8 4 s fun e => s.append w e data

/-- The blocks that row `r` of a zone, counted from its start, stands on are programmed: one block on each channel. -/
def State.programRow (s : State) (z r : Nat) : State :=
  let sbk := (s.store.zoneBlocks.get [] z).getD (r / 16384) 0
  (List.range 32).foldl (fun s c => s.programBlock (s.physBlock (c * 8 + r % 16384 % 8) sbk)) s

/-! ### The general zones (R270, R275) -/

/-- The lowest stripe block that nothing holds. -/
def State.freeStripe (s : State) : Option Nat := firstWhere (fun b => !(s.stripesHeld none).contains b) 1024 0

/-- Rows of the open stripe block that are not programmed yet. -/
def State.openRows (s : State) : Nat := if s.store.genBlocks.isEmpty then 0 else 16384 - s.store.genRow

/-- Open a stripe block for the general zones; on every die a block of lowest erase count is drawn for it (R275). -/
def State.openStripe (s : State) : State :=
  match s.freeStripe with
  | none => s
  | some b =>
    let s := s.drawStripe b true
    { s with store := { s.store with genBlocks := s.store.genBlocks ++ [b], genRow := 0 } }

/-- Program one row of the general zones with up to 31 pages, by their keys: a block on each channel, and the map of the pages. -/
def State.writeRow (s : State) (pages : List Nat) : State :=
  let s := if s.openRows = 0 then s.openStripe else s
  let r := s.store.genRow
  match s.store.genBlocks.getLast? with
  | none => s
  | some sbk =>
    let s := (List.range 32).foldl (fun s c => s.programBlock (s.physBlock (8 * c + r % 8) sbk)) s
    { s with store := { s.store with
        genRow := r + 1
        pageMap := pages.zipIdx.foldl (fun (m : Tab Nat) (x : Nat × Nat) => Tab.insert m x.1 (sbk * sbUnits + 31 * r + x.2)) s.store.pageMap } }.count Obj.stProgBytes rowProgBytes

/-- Have the general zones room for `n` more rows? -/
def State.rowRoom (s : State) (n : Nat) : Bool := decide (n ≤ s.openRows) || s.freeStripe.isSome

/-- STRIPE_ROW_PROGRAMMED: a row of the append in flight on a zone, or a row of the general zones, whose page writes are acknowledged
(R270, R272). -/
def State.rowProgrammed (s : State) (zone : Option (Fin 4)) (pages : List (Nat × Nat)) : State :=
  match zone with
  | some z =>
    match s.store.appends.find? fun a => a.2.zone == z.val && decide (a.2.done < a.2.rows) with
    | none => s
    | some (key, j) =>
      let s := { s with store := { s.store with appends := s.store.appends.insert key { j with done := j.done + 1 } } }
      (s.programRow z (j.base / rowBytes + j.done)).count Obj.stProgBytes rowProgBytes
  | none =>
    let moving := pages.filter fun x => match s.region x.1 with
      | some r => (match (r.page x.2).move with
        | some m => m.dst == .t2
        | none => false)
      | none => false
    let keys := moving.map fun x => lentPage x.1 x.2
    if 31 < pages.length ∨ moving.isEmpty ∨ ¬ s.rowRoom 1 then s
    else ({ s with store := { s.store with acked := keys.foldl setIns s.store.acked } }).writeRow keys

def execStripeRowProgrammed (zone : Option (Fin 4)) (pages : List (Nat × Nat)) (s : State) : Host.Outcome State Fault Refusal :=
  .next (s.rowProgrammed zone pages)

/-- APPEND_DONE: every row is programmed; the data and the zero units of the last row stand in the zone and the write pointer has
advanced in whole rows (R272). -/
def State.appendDone (s : State) (w : Nat) (e : QEntry) : State :=
  match s.store.appends.find (recKey w e.seq) with
  | none => s
  | some j =>
    if j.done < j.rows then s
    else
      let wp := j.base + j.rows * rowBytes
      let zones := memWrite (memClear s.store.zones (zoneAddr j.zone j.base) (j.rows * rowBytes)) (zoneAddr j.zone j.base) j.data
      let s := { s with store := { s.store with zones := zones, appends := s.store.appends.erase (recKey w e.seq) } }
      let s := s.wr (Obj.szWp j.zone) wp
      let s := if s.zoneSize j.zone ≤ wp ∧ s.rd (Obj.szState j.zone) ≠ 3 then s.wr (Obj.szState j.zone) 2 else s
      s.unitDone w e.seq 0 0

def execAppendDone (w : Fin 8) (q : Nat) (s : State) : Host.Outcome State Fault Refusal :=
  onUnit w q 8 4 s fun e => s.appendDone w e

/-! ### Drains and the catalogue (R278 to R280) -/

/-- The lowest catalogue entry with a state, 1 to 16. -/
def ckptEntry (f : Nat → Bool) : Option Nat := ((List.range 16).map (· + 1)).find? f

def State.entryOf (s : State) (h : Nat) : Option Nat :=
  ckptEntry fun k => s.rd (Obj.ckptState k) != 0 && s.rd (Obj.ckptHandle k) == h

/-- Taken checkpoints, damaged ones included. -/
def State.takenCount (s : State) : Nat := ((List.range 16).filter fun i => decide (2 ≤ s.rd (Obj.ckptState (i + 1)))).length

/-- Begin a drain: an empty catalogue entry reads draining under the image's handle. -/
def State.beginDrain (s : State) (key h : Nat) : State :=
  let s := { s with
    store := { s.store with drains := s.store.drains.insert key h }
    tier := { s.tier with moveLeft := s.tier.moveLeft.insert key { next := 0, status := 0 } } }
  match ckptEntry fun k => s.rd (Obj.ckptState k) == 0 with
  | some k => (s.wr (Obj.ckptState k) 1).wr (Obj.ckptHandle k) h
  | none => s

/-- A drain ends without a checkpoint: the pages that have landed stay in tier T2 (R280). -/
def State.drainFails (s : State) (w : Nat) (e : QEntry) (status : Nat) : State :=
  let h := (inOf e.raw).imgH
  let key := recKey w e.seq
  let s := { s with
    store := { s.store with drains := s.store.drains.erase key, partDrains := setIns s.store.partDrains h }
    tier := { s.tier with moveLeft := s.tier.moveLeft.erase key } }
  let s := match s.entryOf h with
    | some k => if s.rd (Obj.ckptState k) = 1 then (s.wr (Obj.ckptState k) 0).wr (Obj.ckptHandle k) 0 else s
    | none => s
  (s.raise Ev.ckptFault []).unitDone w e.seq status 0

/-- DRAIN: every page of the image goes to tier T2, one after another. -/
def State.drainImage (s : State) (w : Nat) (e : QEntry) : State :=
  let h := (inOf e.raw).imgH
  let key := recKey w e.seq
  let s := if (s.store.drains.find key).isSome then s else s.beginDrain key h
  let j : MoveJob := (s.tier.moveLeft.find key).getD { next := 0, status := 0 }
  match s.region h with
  | none => s.drainFails w e 0
  | some r =>
    if j.status ≠ 0 then s.drainFails w e j.status
    else
      match r.nextMove 2 0 r.size j.next with
      | none => s
      | some i =>
        let s := { s with tier := { s.tier with moveLeft := s.tier.moveLeft.insert key { j with next := i } } }
        if (r.page i).move.isSome then s
        else
          match s.placeIn 2 with
          | some d => s.startMove h i d (.record key)
          | none => s.drainFails w e 0x22

def execDrain (w : Fin 8) (q : Nat) (s : State) : Host.Outcome State Fault Refusal := onUnit w q 8 5 s fun e => s.drainImage w e

/-- The image in a region. One that no pass has written is undefined: its step and step digest are free values. -/
def State.imageIn (s : State) (h : Nat) : Image :=
  (s.upd.images.find h).getD { step := Config.emptyImage h 0, layers := [], forms := [], due := [], watch := none,
                               digest := some (Config.emptyImage h 1), bytes := [], damaged := false }

/-- The checkpoint is taken once every page has landed and the image is whole, its layers' digests and the step digest in it (R27): the
catalogue entry is written with the handle and with the step and step digest of the image, and the tier T1 pages return to the pool
(R278). -/
def State.drainComplete (s : State) (w : Nat) (e : QEntry) : State :=
  let h := (inOf e.raw).imgH
  let key := recKey w e.seq
  match s.store.drains.find key, s.region h, (match s.entryOf h with
    | some k => some k
    | none => ckptEntry fun k => s.rd (Obj.ckptState k) == 0) with
  | some _, some r, some k =>
    let x := s.imageIn h
    if r.count (fun p => p.home == .t2 && p.move.isNone) ≠ r.size ∨ ¬ x.whole then s
    else
      let s := (((s.wr (Obj.ckptHandle k) h).wr (Obj.ckptStep k) x.step).wr (Obj.ckptDigest k) (x.digest.getD 0)).wr (Obj.ckptState k)
        (if x.damaged then 3 else 2)
      let s := { s with
        store := { s.store with taken := s.store.taken.insert k x, drains := s.store.drains.erase key,
                                partDrains := setDel s.store.partDrains h }
        upd := { s.upd with images := s.upd.images.erase h }
        tier := { s.tier with moveLeft := s.tier.moveLeft.erase key } }
      s.unitDone w e.seq 0 0
  | _, _, _ => s

def execDrainComplete (w : Fin 8) (q : Nat) (s : State) : Host.Outcome State Fault Refusal := onUnit w q 8 5 s fun e => s.drainComplete w e

/-- A checkpoint page is lost: the catalogue entry becomes damaged (R277, R281). -/
def State.damage (s : State) (h : Nat) : State :=
  let s := { s with upd := { s.upd with images := s.upd.images.map fun ((k, x) : Nat × Image) => if k = h then (k, { x with damaged := true }) else (k, x) } }
  match s.entryOf h with
  | none => s
  | some k =>
    let s := s.raise Ev.ckptDamaged []
    if s.rd (Obj.ckptState k) = 2 then
      let s := s.wr (Obj.ckptState k) 3
      { s with store := { s.store with taken := s.store.taken.map fun ((i, x) : Nat × Image) => if i = k then (i, { x with damaged := true }) else (i, x) } }
    else s

/-! ### Failing reads and relocation (R267, R275 to R277) -/

/-- An uncorrectable unit is handled by what it holds (R277); a zone that holds one reads failed (DESIGN CHOICE, log entry 52: Table 10.10
names the state and no rule says when a zone enters it). -/
def State.storeLost (s : State) (u : FlashUnit) : State :=
  match u with
  | .zone z n =>
    let s := (s.raise Ev.storeUncorrectable [p8 z, p32 n, p8 255]).wr (Obj.szState z) 3
    { s with store := { s.store with badUnits := setIns s.store.badUnits (z.val * 2 ^ 30 + n) } }
  | .page h p =>
    match s.region h with
    | none => s
    | some r =>
      let s := s.raise Ev.storeUncorrectable [p8 255, p32 p, p8 r.cls]
      if r.cls = 4 then s.damage h
      else s.updPage h p fun x => { x with bad := List.range 1024 }
  | .die => s

/-- Rows of a stripe block that are programmed: by a zone up to its write pointer and the append in flight, by the general zones up to the
open row. -/
def State.rowsIn (s : State) (stripe : Nat) : Nat :=
  match s.store.zoneBlocks.find? fun z => z.2.contains stripe with
  | some (z, bs) =>
    let done := ((s.store.appends.filter fun a => a.2.zone == z).map fun a => a.2.done).sum
    min 16384 (s.rd (Obj.szWp z) / rowBytes + done - 16384 * bs.idxOf stripe)
  | none =>
    if ¬ s.store.genBlocks.contains stripe then 0 else if s.store.genBlocks.getLast? = some stripe then s.store.genRow else 16384

/-- Units that a four-plane block holds (R273). -/
def State.unitsIn (s : State) (k : Nat) : Nat :=
  let l := s.stripeAt k
  (s.rowsIn (l % 1024) + 7 - l / 1024 % 8) / 8

/-- A block of a failed die is rebuilt, row by row: each unit from the other 31 of its row, into a block drawn on another die of the channel
(R267; where the rebuilt units go is a DESIGN CHOICE, log entry 52). -/
def State.rebuildBlock (s : State) (k : Nat) : State :=
  let l := s.stripeAt k
  let n := s.unitsIn k
  let others := s.rowOthers { sbk := l % 1024, channel := l / 8192, die := l / 1024 % 8, unit := 0, parity := 0 }
  match ((List.range 8).map fun d => k / 8192 * 8 + d).findSome? fun die => s.drawBlock die (some k) with
  | none => s
  | some c =>
    let s := others.foldl (fun s o => s.setBlock o { s.block o with reads := (s.block o).reads + n }) s
    let s := ((s.count Obj.stReadBytes (31 * 65536 * n)).countSat Obj.stRebuilds n).count Obj.stProgBytes (65536 * n)
    ((s.swapBlocks k c).setBlock k { s.block k with programmed := none }).programBlock c

/-- A die fails entirely: store-die-failed, its count, and every block of it that holds units is rebuilt (R267). -/
def State.dieFails (s : State) (die : Nat) : State :=
  if s.store.dies.contains die then s
  else
    let s := { s with store := { s.store with dies := setIns s.store.dies die } }
    let s := (s.wr Obj.diesFailed s.store.dies.length).raise Ev.storeDieFailed []
    ((s.store.blocks.filter fun x => x.1 / 1024 == die && x.2.programmed.isSome).map Prod.fst).foldl (fun s k => s.rebuildBlock k) s

/-- Where a failing unit stands, as far as the maps hold it. -/
def State.failPlace (s : State) (u : FlashUnit) : Option Place :=
  match u with
  | .zone z n => some (s.unitPlace z n)
  | .page h p => s.pagePlace h p
  | .die => none

/-- A unit of block `k` that fails LDPC has been read at `levels` retry levels; where they fail it is rebuilt from its stripe row and its
block refreshed (outcome 1), or it is uncorrectable and its block retired (2) (R267, R277). -/
def State.unitFails (s : State) (u : FlashUnit) (k levels outcome : Nat) : State :=
  let x := s.failPlace u
  let s := (List.range (if outcome = 0 then levels else 7)).foldl (fun s _ => s.readBlock k) (s.count Obj.stRetries 1)
  if outcome = 0 then s
  else if outcome = 1 then
    ((match x with
      | some x => s.rebuildUnit x
      | none => (s.count Obj.stReadBytes (31 * 65536)).countSat Obj.stRebuilds 1).refreshBlock k)
  else
    let s := match x with
      | some x => (s.rowOthers x).foldl (fun (s : State) o => s.readBlock o) s
      | none => s.count Obj.stReadBytes (31 * 65536)
    ((s.countSat Obj.stUncorrectable 1).storeLost u).retireBlock k

/-- FLASH_READ_FAIL: a unit fails, or a whole die. The command says at how many retry levels the unit was read, and how that ended. -/
def State.flashReadFail (s : State) (u : FlashUnit) (die block levels outcome : Nat) : State :=
  match u with
  | .die => s.dieFails die
  | _ => s.unitFails u (((s.failPlace u).map s.placeBlock).getD (blockKey die block)) levels outcome

def execFlashReadFail (u : FlashUnit) (die : Fin 256) (block : Fin 1024) (retry : FlashRetry) (s : State) :
    Host.Outcome State Fault Refusal :=
  .next (s.flashReadFail u die block (retry.levels + 1) retry.outcome)

/-- GARBAGE_COLLECTION: a stripe block of the general zones that is full is reclaimed as E2 work, which other work may interrupt: its pages
still in use are read and written again, at most `most` rows of them, and with none left the block is erased on every die (R270). -/
def State.garbage (s : State) (stripe most : Nat) : State :=
  let used := (s.store.pageMap.filter fun x => x.2 / sbUnits == stripe).map Prod.fst
  let live := used.take (31 * most)
  let rows := ceilDiv live.length 31
  if s.e2Deferred ∨ ¬ s.store.genBlocks.contains stripe ∨ s.store.genBlocks.getLast? = some stripe ∨ ¬ s.rowRoom rows then s
  else
    let s := live.foldl (fun s x => match s.pagePlace (x / 2 ^ 32) (x % 2 ^ 32) with
      | some y => s.readBlock (s.placeBlock y)
      | none => s) s
    let s := (List.range rows).foldl (fun s i => s.writeRow ((live.drop (31 * i)).take 31)) s
    if live.length < used.length then s
    else
    let s := ((List.range 256).foldl (fun s die => s.eraseBlock (s.physBlock die stripe)) s).wearNow
    { s with store := { s.store with genBlocks := s.store.genBlocks.filter (· ≠ stripe) } }

def execGarbageCollection (stripe : Fin 1024) (rows : Nat) (s : State) : Host.Outcome State Fault Refusal := .next (s.garbage stripe rows)

/-- WEAR_LEVEL_COPY: the colder block goes into the hotter spare of the die, where their counts differ by more than 200 (R275). -/
def State.wearCopy (s : State) (die cold hot : Nat) : State :=
  let a := s.block (blockKey die cold)
  let b := s.block (blockKey die hot)
  if s.e2Deferred ∨ a.programmed.isNone ∨ a.retired ∨ b.programmed.isSome ∨ b.retired ∨ s.store.dies.contains die ∨
      b.erases ≤ a.erases + 200 then s
  else s.relocate (blockKey die cold) (blockKey die hot)

def execWearLevelCopy (die : Fin 256) (cold hot : Fin 1024) (s : State) : Host.Outcome State Fault Refusal := .next (s.wearCopy die cold hot)

/-- READ_DISTURB_REFRESH: a block at rd_limit reads, or programmed more than retention_days of powered time ago (R276). -/
def State.readDisturb (s : State) (die block : Nat) : State :=
  let k := blockKey die block
  let b := s.block k
  let old : Bool := match b.programmed with
    | some t => decide (s.rd Obj.retentionDays * 86400 < s.poweredS - t)
    | none => false
  if s.rd Obj.rdLimit ≤ b.reads ∨ old then s.refreshBlock k else s

def execReadDisturbRefresh (die : Fin 256) (block : Fin 1024) (s : State) : Host.Outcome State Fault Refusal := .next (s.readDisturb die block)

/-- POWER_UP_READ_SCAN: one unit of every programmed block is read, and the weak ones, which the command names by die and block, are
refreshed (R276). -/
def State.readScan (s : State) (weak : List (Nat × Nat)) : State :=
  if s.e2Deferred then s
  else
    let n := (s.store.blocks.filter fun b => b.2.programmed.isSome).length
    let blocks := s.store.blocks.map fun ((k, b) : Nat × Block) => if b.programmed.isSome then (k, { b with reads := b.reads + 1 }) else (k, b)
    let s := { s with store := { s.store with blocks := blocks } }.count Obj.stReadBytes (65536 * n)
    weak.foldl (fun s x => s.refreshBlock (blockKey (x.1 % 256) (x.2 % 1024))) s

def execPowerUpReadScan (weak : List (Nat × Nat)) (s : State) : Host.Outcome State Fault Refusal := .next (s.readScan weak)

end Sys2Proof.Machine
end

