-- ==== Sys2Proof/Machine/Ingest.lean ====
section
/-! DEFINITION. Media ingest (chapter 10): sample tables and the keyed shuffle (R282, R283), decoders (R284 to R290), the patch former
(R291 to R293), sample errors (R294, R295), ingest records and their checks (R296 to R298). -/
namespace Sys2Proof.Machine

/-! ### Reading a sample -/

/-- The bytes of a sample as its stream zone or sample-cache region holds them. -/
def State.sampleBytes (s : State) (e : SampleEntry) (srcH srcOff : Nat) : Bytes :=
  if srcH = 0 then memRead s.store.zones (zoneAddr e.zone e.offset) e.length else s.regionBytes srcH srcOff e.length

/-- Data units a sample of a stream zone touches. -/
def SampleEntry.units (e : SampleEntry) : List Nat := pagesOf e.offset e.length

/-- Failures of reading (R272, R277, R294): beyond the write pointer, an uncorrectable unit, a CRC mismatch. -/
def State.readCause (s : State) (e : SampleEntry) (srcH : Nat) (bs : Bytes) : Nat :=
  if srcH = 0 ∧ (3 < e.zone ∨ s.rd (Obj.szWp e.zone) < e.offset + e.length) then 0xE8
  else if srcH = 0 ∧ e.units.any (fun u => s.store.badUnits.contains (e.zone * 2 ^ 30 + u)) then 0xE1
  else if e.length = 0 ∨ crc32 bs ≠ e.crc then 0xE2
  else 0

/-- Reading a sample out of a stream zone counts in the bytes read and in the blocks' read counts (R276). -/
def State.countZoneRead (s : State) (e : SampleEntry) : State :=
  if 3 < e.zone ∨ s.rd (Obj.szWp e.zone) < e.offset + e.length then s
  else
    e.units.foldl (fun s u => s.readBlock (s.unitBlock e.zone u)) s

/-- A CRC mismatch is confirmed by one more read, in which every unit is rebuilt from the others of its row (R294). The bytes are the same:
they are those the zone holds. -/
def State.confirmRead (s : State) (e : SampleEntry) (srcH cause : Nat) : State :=
  if srcH = 0 ∧ cause = 0xE2 then e.units.foldl (fun s u => s.rebuildUnit (s.unitPlace e.zone u)) s else s

/-! ### The patch former (R291 to R293) -/

/-- The overlap `ov` of R292. -/
def overlap (i x win wout : Nat) : Nat := min ((i + 1) * wout) ((x + 1) * win) - max (i * wout) (x * win)

/-- A decoded plane scaled to pixel (xs, ys) (R292): the exact mean of the codes it overlaps. -/
def scalePixel (code : Nat → Nat → Nat) (wq hq sw sh xs ys : Nat) : Ex :=
  let span (x win wout : Nat) : List Nat := (List.range (((x + 1) * win - 1) / wout + 1 - x * win / wout)).map (x * win / wout + ·)
  let sum := ((span xs wq sw).map fun i => ((span ys hq sh).map fun j => code i j * overlap i xs wq sw * overlap j ys hq sh).sum).sum
  ⟨sum, wq * hq, 0⟩

/-- Table 10.6: range normalisation of a luma or chroma sample at `b` bits. -/
def normalise (full chroma : Bool) (b : Nat) (x : Ex) : Ex :=
  if full then (x.sub (.int (if chroma then 2 ^ (b - 1) else 0))).div (.int (2 ^ b - 1))
  else (x.sub (.int ((if chroma then 128 else 16) * 2 ^ (b - 8)))).div (.int ((if chroma then 224 else 219) * 2 ^ (b - 8)))

/-- Kr, Kb, Kg of a matrix (Table 10.6). -/
def krbg (m : Nat) : Ex × Ex × Ex :=
  if m = 0 then (⟨299, 1000, 0⟩, ⟨114, 1000, 0⟩, ⟨587, 1000, 0⟩)
  else if m = 1 then (⟨2126, 10000, 0⟩, ⟨722, 10000, 0⟩, ⟨7152, 10000, 0⟩)
  else (⟨2627, 10000, 0⟩, ⟨593, 10000, 0⟩, ⟨6780, 10000, 0⟩)

/-- `matrix` of R292: channel `ch` of the target. -/
def colour (y cb cr : Ex) (src mtx chan ch : Nat) : Ex :=
  if chan ≠ 2 ∧ src = mtx then (if ch = 0 then y else if ch = 1 then cb else cr)
  else
    let one := Ex.int 1
    let two := Ex.int 2
    let (kr, kb, kg) := krbg src
    let r := y.add ((two.mul (one.sub kr)).mul cr)
    let b := y.add ((two.mul (one.sub kb)).mul cb)
    let g := ((y.sub (kr.mul r)).sub (kb.mul b)).div kg
    if chan = 2 then (if ch = 0 then r else if ch = 1 then g else b)
    else
      let (tr, tb, tg) := krbg mtx
      let y' := ((tr.mul r).add (tg.mul g)).add (tb.mul b)
      if ch = 0 then y'
      else if ch = 1 then (b.sub y').div (two.mul (one.sub tb))
      else (r.sub y').div (two.mul (one.sub tr))

/-- A sample as decoded, with what the patch former needs of it. -/
structure Clip where
  entry : SampleEntry
  info : Config.DecInfo
  bytes : Bytes

/-- Plane `q` of frame `f` scaled to pixel (xs, ys). -/
def Clip.plane (c : Clip) (p : Profile) (f q xs ys : Nat) : Ex :=
  let wq := if q = 0 ∨ c.info.chroma = 0 then c.info.cropW else (c.info.cropW + 1) / 2
  let hq := if q ≠ 0 ∧ c.info.chroma = 1 then (c.info.cropH + 1) / 2 else c.info.cropH
  scalePixel (pictureAt (c.entry.stream c.bytes) f q) wq hq p.scaledW p.scaledH xs ys

/-- Element `e` of token `row` before conversion (R291, R292). -/
def Clip.elem (c : Clip) (p : Profile) (row e : Nat) : Ex :=
  let cols := p.cropW / p.pw
  let rows := p.cropH / p.ph
  let px := row % cols
  let py := row / cols % rows
  let g := row / (cols * rows)
  let ch := e % p.chans
  let x := e / p.chans % p.pw
  let y := e / p.chans / p.pw % p.ph
  let t := e / p.chans / p.pw / p.ph
  let f := (g * p.pt + t) * p.fstep
  let xs := p.cropX + px * p.pw + x
  let ys := p.cropY + py * p.ph + y
  let b := c.info.depth
  let full := sourceFull c.entry c.info
  let yv := normalise full false b (c.plane p f 0 xs ys)
  let chroma (q : Nat) : Ex := if c.info.chroma = 0 then .zero else normalise full true b (c.plane p f q xs ys)
  let v := colour yv (chroma 1) (chroma 2) ((sourceMatrix c.entry c.info).getD 0) p.mtx p.chan ch
  (v.sub (decodeFloat .h16 (p.mean.getD ch 0)).ex).mul (decodeFloat .h16 (p.istd.getD ch 0)).ex

/-- What one line of the output holds: element codes, scale code, counting classes. -/
abbrev PatchLine := List Nat × Nat × List Cls

/-- The 32 elements of token `row` from column 32 j: converted once (R292); padding columns hold zero codes and are not counted. -/
def Clip.line (c : Clip) (p : Profile) (row j : Nat) : PatchLine :=
  let xs := (List.range 32).map fun k => if 32 * j + k < p.elems then OutVal.fin (c.elem p row (32 * j + k)) false else .fin .zero false
  let (cs, e, cl) := convLine p.fmt (tensorScale p.oScale) xs
  (cs, e.getD 0, cl.take (p.elems - 32 * j))

/-- The output of a failed sample under err_pol 0 or 1 (R295). -/
def failLine (p : Profile) (pol j : Nat) : PatchLine :=
  let n := min 32 (p.elems - 32 * j)
  if pol = 0 then (List.replicate 32 0, 0, List.replicate n .none)
  else
    let cs := if p.fmt = .h16 then List.replicate n Fmt.h16.nanCode else (nanBlock p.fmt (List.replicate n .nan)).2.map Prod.fst
    (cs ++ List.replicate (32 - n) 0, 255, List.replicate n .nonfinite)

/-- Write `t` tokens from token `first` in engine-tile layout through `put`, from byte offset 0 (R293). -/
def State.putTokens (s : State) (p : Profile) (layer first t : Nat) (line : Nat → Nat → PatchLine) (put : State → Nat → Bytes → State) : State :=
  let nc := p.padded / 32
  let scales := t / 32 * nc * etBytes p.fmt
  (List.range (t / 32)).foldl (fun s i => (List.range nc).foldl (fun s j =>
    let ls := (List.range 32).map fun r => line (first + 32 * i + r) j
    let et := i * nc + j
    let s := put s (et * etBytes p.fmt) (tileBytes p.fmt (ls.map Prod.fst))
    let s := if p.fmt.isBlock then put s (scales + 32 * et) (ls.map fun l => BitVec.ofNat 8 l.2.1) else s
    s.tally kPatch layer 0 (ls.flatMap fun l => l.2.2) []) s) s

/-- Where the output of a sample record goes: a class 9 region, or an equal share of the tokens to each tile of its set. -/
def State.putSample (s : State) (d : In) (p : Profile) (line : Nat → Nat → PatchLine) : State :=
  if d.dest = 0 then s.putTokens p d.layer 0 p.tokens line fun s o bs => s.regionWrite d.outH (d.outOff + o) bs
  else
    let n := p.tokens / (d.tl - d.tf + 1)
    (tileRange d.tf d.tl).foldl (fun s t =>
      s.putTokens p d.layer ((t - d.tf) * n) n line fun s o bs =>
        s.putBytes t false (bs.zipIdx.map fun x => (d.outOff + o + x.2, x.1.toNat))) s

/-! ### Record checks (Table 10.9) -/

/-- Is the region of a class, with at least `n` bytes? -/
def State.regionHolds (s : State) (h cls n : Nat) : Bool := s.hasRegion h cls (ceilDiv n 65536)

/-- Check 0xD5. -/
def Profile.ok (p : Profile) : Bool :=
  decide (16 ≤ p.scaledW ∧ p.scaledW ≤ 8192 ∧ 16 ≤ p.scaledH ∧ p.scaledH ≤ 8192) &&
  decide (p.cropX + p.cropW ≤ p.scaledW ∧ p.cropY + p.cropH ≤ p.scaledH) &&
  decide (1 ≤ p.pw ∧ p.pw ≤ 32 ∧ 1 ≤ p.ph ∧ p.ph ≤ 32 ∧ 1 ≤ p.pt ∧ p.pt ≤ 8 ∧ 1 ≤ p.frames ∧ 1 ≤ p.fstep ∧ 1 ≤ p.cropW ∧ 1 ≤ p.cropH) &&
  p.cropW % p.pw == 0 && p.cropH % p.ph == 0 && p.frames % p.pt == 0 && p.tokens % 32 == 0 && decide (p.chan ≤ 2 ∧ p.mtx ≤ 2) &&
  (p.outFmt == 0 || p.outFmt == 2) && (p.mean ++ p.istd).all (fun c => !(decodeFloat .h16 c).isNan) && goodScale (decodeFloat .g16 p.oScale)

/-- Check 0xD4 of a sample record. -/
def State.sampleFits (s : State) (d : In) : Bool :=
  let p := (s.store.profiles.find d.prof).getD d.pf
  let n := d.tl - d.tf + 1
  (if d.dest = 0 then s.regionHolds d.outH 9 (d.outOff + p.bytes p.tokens)
   else decide (d.tf ≤ d.tl ∧ d.tl ≤ 191) && p.tokens % (32 * n) == 0 && decide (d.outOff + p.bytes (p.tokens / n) ≤ scratchBytes)) &&
  (d.srcH == 0 || s.hasRegion d.srcH 8 0)

/-- Is a sample record dispatched and not retired? -/
def State.samplesRunning (s : State) : Bool := s.running.any fun p => Rec.kind p.2.raw == 8 && Rec.op p.2.raw == 0

/-- Check 0xD8 of a drain record. -/
def State.drainOk (s : State) (d : In) : Bool :=
  (match s.region d.imgH with
   | some r => r.cls == 4 && (r.count (fun p => p.home == .t2) == 0 || s.store.partDrains.contains d.imgH)
   | none => false) &&
  !(s.store.drains.any fun x => x.2 == d.imgH) &&
  !(s.running.any fun p => Rec.kind p.2.raw == 8 && Rec.op p.2.raw == 5 && !p.2.skip && !p.2.unit && (inOf p.2.raw).imgH == d.imgH) &&
  decide (s.takenCount < 16)

/-- The lowest failing reason of Table 10.9, 0 if none fails. -/
def State.inCheck (s : State) (d : In) : Nat :=
  let smp := d.op == 0
  if 5 < d.op ∨ (smp ∧ (2 ≤ d.dest ∨ d.errPol = 3)) ∨ d.form = 3 ∨ (d.layer = 0 ∧ d.form ≠ 0) then 0xD1
  else if (smp ∨ d.op = 1) ∧ ¬ (1 ≤ d.n ∧ s.regionHolds d.tableH 6 (32 * d.n)) then 0xD2
  else if smp ∧ ((s.store.profiles.find d.prof).isNone ∨ s.store.engineCfg.isNone) then 0xD3
  else if (smp ∧ ¬ s.sampleFits d) ∨ (d.op = 1 ∧ ¬ s.hasRegion d.srcH 8 0) then 0xD4
  else if d.op = 2 ∧ ¬ d.pf.ok then 0xD5
  else if d.op = 3 ∧ (¬ s.hasRegion d.workH 6 (16 * d.engPages) ∨ s.samplesRunning) then 0xD6
  else if d.op = 4 ∧ (s.rd (Obj.szStripeBlocks d.zone) = 0 ∨ d.n = 0 ∨ 16384 < d.n ∨
      s.zoneSize d.zone < s.rd (Obj.szWp d.zone) + s.zoneTaken d.zone + d.rows * rowBytes ∨ d.position % 4096 ≠ 0) then 0xD7
  else if d.op = 5 ∧ ¬ s.drainOk d then 0xD8
  else 0

/-! ### PROFILE, ENGINE_CONFIG (R297) -/

/-- A profile or engine-config record takes effect in dispatch order, and a sample keeps the profile in force at its dispatch (R297). -/
def State.inDispatch (s : State) (w : Nat) (e : QEntry) : State :=
  let d := inOf e.raw
  match d.op with
  | 0 => { s with store := { s.store with fixed := s.store.fixed.insert (recKey w e.seq) ((s.store.profiles.find d.prof).getD d.pf) } }
  | 2 => { s with store := { s.store with profiles := s.store.profiles.insert d.prof d.pf } }
  | 3 => { s with store := { s.store with engineCfg := some (d.workH, d.engPages) } }
  | _ => s

/-- PROFILE, ENGINE_CONFIG: the record, in force since its dispatch, completes. -/
def execProfile (w : Fin 8) (q : Nat) (s : State) : Host.Outcome State Fault Refusal := onUnit w q 8 2 s fun e => s.unitDone w e.seq 0 0

def execEngineConfig (w : Fin 8) (q : Nat) (s : State) : Host.Outcome State Fault Refusal := onUnit w q 8 3 s fun e => s.unitDone w e.seq 0 0

/-! ### SAMPLE, FETCH and their ends -/

/-- The lowest-numbered free engine (R289). -/
def State.freeEngine (s : State) : Option Nat := (List.range 16).find? fun k => s.rd (Obj.decState (k + 1)) == 0

def State.setJob (s : State) (key : Nat) (j : SampleJob) : State :=
  { s with store := { s.store with samples := s.store.samples.insert key j } }

/-- Tiles that a sample record gates while it waits: those of its set, for dest 1. -/
def In.gated (d : In) : Nat := if d.op = 0 ∧ d.dest = 1 then d.tl - d.tf + 1 else 1

/-- Pages of the table and of the sample-cache region a sample reads: are they at hand (R239, R241)? -/
def State.sampleAccess (s : State) (key : Nat) (d : In) (i : Nat) (read : Bool) : State × Access :=
  let (s, a) := s.access key d.gated d.tableH (pagesOf (32 * i) 32)
  if a = .waiting ∨ ¬ read ∨ d.srcH = 0 then (s, a) else s.access key d.gated d.srcH (pagesOf d.srcOff (s.sampleEntry d.tableH i).length)

/-- The pictures of a sample go through the engine's pages of the work region (R290): `n` pages of them are written, with what is a free
value. -/
def State.writeWork (s : State) (k n : Nat) : State :=
  match s.store.engineCfg with
  | none => s
  | some (h, pages) =>
    let bs : Bytes := (List.range (65536 * min n pages)).map fun i => Config.workByte s.free i
    { s.regionWrite h (65536 * pages * k) bs with free := s.free + 1 }

/-- The pages an engine may write, with the handle of the work region. -/
def State.enginePages (s : State) (k : Nat) : List (Nat × Nat) :=
  match s.store.engineCfg with
  | none => []
  | some (h, pages) => (List.range pages).map fun i => (h, pages * k + i)

/-- Do the decoders run: the stop line of a hold gates them (R383)? -/
def State.decodersOn (s : State) : Bool := s.rd Obj.powerState != 3 && s.rd Obj.powerState != 4 && s.fw.phase != 2

/-- A sample starts on the lowest-numbered free engine: it is read, checked and decoded, under the profile in force at its dispatch. -/
def State.startSample (s : State) (w : Nat) (e : QEntry) : State :=
  let d := inOf e.raw
  let i := sampleOf d.position d.n (s.rd Obj.runSeed)
  let key := recKey w e.seq
  let (s, a) := s.sampleAccess key d i true
  if a = .waiting then s
  else if s.hitsBad d.tableH (32 * i) 32 then (s.hitStatus w e.seq d.tableH).unitDone w e.seq 0x12 0
  else
    match s.freeEngine with
    | none => s
    | some k =>
    match s.writable key (s.enginePages k) with
    | (s, false) => s
    | (s, true) =>
      let x := s.sampleEntry d.tableH i
      let bs := s.sampleBytes x d.srcH d.srcOff
      let p := s.store.fixed.get d.pf key
      let r := s.readCause x d.srcH bs
      let c := if r ≠ 0 then r else decodeCause x p ((s.store.engineCfg.map Prod.snd).getD 0) bs
      let s := if d.srcH = 0 then (s.countZoneRead x).confirmRead x d.srcH r else s
      let s := if c = 0 ∨ c = 0xE3 ∨ c = 0xE5 then s.writeWork k (workPages x (Config.decInfo (x.stream bs))) else s
      (s.wr (Obj.decState (k + 1)) 1).setJob key { profile := p, index := i, engine := k, progress := s.now, cause := c, formed := false }

/-- SAMPLE: the sample starts, or, once running, its engine makes progress (R289). -/
def State.sample (s : State) (w : Nat) (e : QEntry) : State :=
  match s.store.samples.find (recKey w e.seq) with
  | some j => s.setJob (recKey w e.seq) { j with progress := s.now }
  | none => if s.decodersOn then s.startSample w e else s

def execSample (w : Fin 8) (q : Nat) (s : State) : Host.Outcome State Fault Refusal := onUnit w q 8 0 s fun e => s.sample w e

/-- The tiles of a dest 1 sample have their share: sem_done goes up and the channel takes an arrival, in each (R293, R156). -/
def State.sampleTiles (s : State) (w q tag : Nat) (d : In) : State :=
  if d.dest = 0 then s
  else (tileRange d.tf d.tl).foldl (fun s t =>
    let s := s.semAdd t d.semDone 1 w q tag
    if d.barEn then s.arrive d.barCh w q tag else s) s

/-- A sample fails: event, counter, cause (R295). -/
def State.sampleFails (s : State) (d : In) (index cause : Nat) : State :=
  ((s.raise Ev.sampleError [p64 d.position, p32 index]).countSat Obj.inSampleErrors 1).wr Obj.lastErrorCause cause

/-- SAMPLE_COMPLETE: the patches land, or the failure is handled under err_pol (R293, R295). -/
def State.sampleComplete (s : State) (w : Nat) (e : QEntry) : State :=
  let d := inOf e.raw
  let key := recKey w e.seq
  match s.store.samples.find key with
  | none => s
  | some j =>
    let p := j.profile
    let (s, a) := if d.dest = 0 then s.access key d.gated d.outH (pagesOf d.outOff (p.bytes p.tokens)) else (s, .ready)
    if j.formed ∨ a = .waiting then s
    else
      let x := s.sampleEntry d.tableH j.index
      let bs := s.sampleBytes x d.srcH d.srcOff
      let s := ((s.setJob key { j with formed := true }).wr (Obj.decState (j.engine + 1)) 0).count Obj.inSamples 1
      let pics := if j.cause = 0xE8 ∨ j.cause = 0xE1 ∨ j.cause = 0xE2 then 0
        else Config.pictures (x.stream bs) (if j.cause = 0 then p.need else 0)
      let s := s.count Obj.inFrames pics
      if j.cause = 0 then
        let c : Clip := { entry := x, info := Config.decInfo (x.stream bs), bytes := bs }
        (((s.inStep e.step fun s => s.putSample d p (c.line p)).count Obj.inTokens p.tokens).sampleTiles w e.seq (Rec.tag e.raw) d).unitDone w e.seq 0 0
      else
        let s := s.sampleFails d j.index j.cause
        if d.errPol = 2 then (s.unitDone w e.seq 0x21 j.cause).haltWin w 0xA1 (0x2100 + j.cause)
        else (((s.inStep e.step fun s => s.putSample d p fun _ j => failLine p d.errPol j).count Obj.inTokens p.tokens).sampleTiles w e.seq (Rec.tag e.raw) d).unitDone w e.seq 0x21 j.cause

def execSampleComplete (w : Fin 8) (q : Nat) (s : State) : Host.Outcome State Fault Refusal := onUnit w q 8 0 s fun e => s.sampleComplete w e

/-- DECODER_STALL: an engine without progress for 100 ms is reset; its sample starts again on the lowest-numbered free engine. The third
reset of a session marks the engine failed (R289). -/
def State.decoderStall (s : State) (k : Nat) : State :=
  match s.store.samples.find? fun x => x.2.engine == k && !x.2.formed with
  | none => s
  | some (key, j) =>
    if s.now - j.progress < 100 * ms then s
    else
      let n := (s.store.engines.get Engine.reset k).resets + 1
      let s := s.countSat Obj.inEngineResets 1
      let s := { s with store := { s.store with
        engines := s.store.engines.set Engine.reset k { resets := n, failed := decide (3 ≤ n) }, samples := s.store.samples.erase key } }
      let s := s.wr (Obj.decState (k + 1)) (if 3 ≤ n then 2 else 0)
      let s := if n = 3 then s.raise Ev.decEngineFailed [] else s
      match s.entry (key / 2 ^ 32) (key % 2 ^ 32) with
      | some e => s.startSample (key / 2 ^ 32) e
      | none => s

def execDecoderStall (k : Fin 16) (s : State) : Host.Outcome State Fault Refusal := .next (s.decoderStall k)

/-- FETCH: a sample's bytes, after its CRC check, into a class 8 region; bytes past its end are not written (R297). -/
def State.fetch (s : State) (w : Nat) (e : QEntry) : State :=
  let d := inOf e.raw
  let i := sampleOf d.position d.n (s.rd Obj.runSeed)
  let key := recKey w e.seq
  let (s, a) := s.sampleAccess key d i false
  if a = .waiting then s
  else if s.hitsBad d.tableH (32 * i) 32 then (s.hitStatus w e.seq d.tableH).unitDone w e.seq 0x12 0
  else
    let x := s.sampleEntry d.tableH i
    let bs := s.sampleBytes x 0 0
    let room := 65536 * ((s.region d.srcH).map Region.size).getD 0 - d.srcOff
    let (s, b) := s.access key 1 d.srcH (pagesOf d.srcOff (min room bs.length))
    if b = .waiting then s
    else
      let c := s.readCause x 0 bs
      let s := (s.countZoneRead x).confirmRead x 0 c
      if c ≠ 0 then (s.sampleFails d i c).unitDone w e.seq 0x21 c
      else (s.regionWrite d.srcH d.srcOff (bs.take room)).unitDone w e.seq 0 0

def execFetch (w : Fin 8) (q : Nat) (s : State) : Host.Outcome State Fault Refusal := onUnit w q 8 1 s fun e => s.fetch w e

/-! ### SZ_RESET (R274) -/

/-- The zone an ingest record reads: that of its sample's entry, none for a sample read from a sample cache. -/
def State.readsZone (s : State) (r : Rec) : Option Nat :=
  let d := inOf r
  if d.op = 0 ∧ d.srcH = 0 ∨ d.op = 1 then some (s.sampleEntry d.tableH (sampleOf d.position d.n (s.rd Obj.runSeed))).zone else none

/-- Is the action rejected: an ingest record that reads the zone is dispatched and not retired, or an append to it is in flight? -/
def State.zoneBusy (s : State) (z : Nat) : Bool :=
  (s.running.any fun p => Rec.kind p.2.raw == 8 && !p.2.skip && s.readsZone p.2.raw == some z) || !(s.zoneAppends z).isEmpty

/-- Erase a zone: its blocks, its bytes, its write pointer. -/
def State.eraseZone (s : State) (z : Nat) : State :=
  let ks := (s.store.zoneBlocks.get [] z).flatMap fun b => (List.range 256).map fun die => s.physBlock die b
  let s := (ks.foldl (fun s k => if (s.block k).programmed.isSome then s.eraseBlock k else s) s).wearNow
  let s := { s with store := { s.store with
    zones := memClear s.store.zones (zoneAddr z 0) (2 ^ 46)
    badUnits := s.store.badUnits.filter fun u => decide (u / 2 ^ 30 ≠ z) } }
  (s.wr (Obj.szWp z) 0).wr (Obj.szState z) (if s.rd (Obj.szStripeBlocks z) = 0 then 0 else 1)

def execSzReset (src : Src) (z : Fin 4) (arg : Nat) (s : State) : Host.Outcome State Fault Refusal :=
  .next (s.act src (Obj.szReset z) arg false (if s.zoneBusy z then 0x09 else 0) fun s => s.eraseZone z)

end Sys2Proof.Machine
end

