-- ==== Sys2Proof/Machine/Collective.lean ====
section
/-! DEFINITION. The collective engine (chapter 12): collective records and their checks (R333 to R336), the wait for equal epochs
(R349), exact reduction (R338 to R341), gathers, agree and scalar records (R340), messages between members (R331, R332), sending
again (R342, R345). -/
namespace Sys2Proof.Machine

/-! ### Descriptor (Table 12.4) -/

structure Co where
  op : Nat
  form : Nat
  layer : Nat
  span : Nat
  scatter : Bool
  loss : Bool
  last : Bool
  root : Nat
  members : Nat
  rfmt : Nat
  len : Nat
  uLoc : Nat
  dstH : Nat
  sW : Nat
  sR : Nat
  srcH : Nat
  srcOff : Nat
  tile : Nat
  off : Nat
  count : Nat
  dstOff : Nat
  gDstH : Nat
  gDstOff : Nat
  part : Nat
  deriving DecidableEq, Repr

def coOf (r : Rec) : Co :=
  { op := Rec.w r 0 63 60, form := Rec.w r 0 59 58, layer := Rec.w r 0 57 50, span := Rec.w r 0 49 40, scatter := Rec.w r 0 39 39 == 1,
    loss := Rec.w r 0 38 38 == 1, last := Rec.w r 0 37 37 == 1, root := Rec.w r 0 36 28, members := Rec.w r 0 27 18,
    rfmt := Rec.w r 0 17 16, len := Rec.w r 1 63 32, uLoc := Rec.w r 1 31 16, dstH := Rec.w r 1 63 32, sW := Rec.w r 1 31 16,
    sR := Rec.w r 1 15 0, srcH := Rec.w r 1 63 32, srcOff := 64 * Rec.w r 1 31 0, tile := Rec.w r 1 63 56, off := 64 * Rec.w r 1 55 34,
    count := Rec.w r 1 33 26, dstOff := Rec.w r 2 63 32, gDstH := Rec.w r 2 63 32, gDstOff := 64 * Rec.w r 2 31 0,
    part := 64 * Rec.w r 3 63 32 }

/-! ### Record checks (Table 12.5) -/

/-- Sum pages of every open span (R336). -/
def State.spanPages (s : State) : Nat := (s.spans.map fun x => ceilDiv x.2.blocks 480).sum

/-- Blocks a gradient region of `p` pages holds in a readout format: G8 with its scales, or G16. -/
def blockRoom (rfmt p : Nat) : Nat := if rfmt = 1 then 1024 * p else 2048 * gradCodePages p

/-- Check 0xF4 of a reduce. -/
def State.reduceOk (s : State) (d : Co) : Bool :=
  match s.spans.find d.span, s.region d.dstH with
  | some x, some r =>
    x.reduce.isNone && r.cls == 2 && decide (d.rfmt ≤ 1) && decide (d.dstOff + x.blocks ≤ blockRoom d.rfmt r.size) &&
      goodScale (g16 d.sW) && goodScale (g16 d.sR)
  | _, _ => false

/-- The lowest failing reason of Table 12.5 for a record of a step, 0 if none fails. -/
def State.coCheck (s : State) (d : Co) (step : Nat) : Nat :=
  let n := s.groupN
  let whole := d.part * (if d.root = 0x1FF then n else 1)
  let holds (h off : Nat) : Bool := match s.region h with
    | some r => decide (off + whole ≤ 65536 * r.size)
    | none => false
  if 4 < d.op ∨ d.form = 3 ∨ (d.layer = 0 ∧ d.form ≠ 0) then 0xF1
  else if s.rd Obj.groupState ≠ 2 ∨ d.members ≠ n then 0xF2
  else if d.op = 0 ∧ ((s.spans.find d.span).isSome ∨ d.len = 0 ∨ 2 ^ 26 < d.len ∨ ¬ goodScale (g16 d.uLoc) ∨
      230400 < s.spanPages + ceilDiv d.len 480) then 0xF3
  else if d.op = 1 ∧ ¬ s.reduceOk d then 0xF4
  else if d.op = 2 ∧ ¬ (holds d.srcH d.srcOff ∧ holds d.gDstH d.gDstOff ∧ (d.root = 0x1FF ∨ d.root < n)) then 0xF5
  else if (d.op = 3 ∨ d.op = 4) ∧ (191 < d.tile ∨ d.count = 0 ∨ 224 < d.count ∨
      scratchBytes < d.off + d.count * (if d.op = 4 then 2 else 1) ∨ (d.op = 3 ∧ (d.loss ∨ d.last)) ∨
      (d.loss ∧ s.coll.lossSeen.contains step) ∨ (d.last ∧ s.coll.lastSeen.contains step)) then 0xF6
  else 0

/-! ### Equal epochs (R349) -/

def State.paceOf (s : State) (m : Nat) : Option PaceEnt := s.link.pace.find (s.rd Obj.planPod * 512 + m)

/-- Does a member's flit of this step show another epoch, or another prepare? -/
def State.epochDiffers (s : State) (m : Nat) : Bool :=
  match s.paceOf m with
  | some e => e.step == s.rd Obj.lastCommittedStep && (e.epoch != s.rd Obj.modeEpoch || e.prepEpoch != s.rd Obj.prepEpoch)
  | none => false

/-- Has a member's flit of this step come? -/
def State.paceHeard (s : State) (m : Nat) : Bool :=
  match s.paceOf m with
  | some e => decide (s.rd Obj.lastCommittedStep ≤ e.step)
  | none => false

/-- The group does not proceed: group_state reads 3, mode-mismatch once (R349). -/
def State.modeMismatch (s : State) (m epoch digest : Nat) : State :=
  let s := if s.rd Obj.groupState = 2 then s.wr Obj.groupState 3 else s
  let s := s.raiseOnce Ev.modeMismatch 0 [p16 m, p32 epoch, p32 digest]
  if s.coll.stallFrom.isSome then s else { s with coll := { s.coll with stallFrom := some s.now } }

/-- The members agree for a step: a stall ends. -/
def State.modeMatched (s : State) (step : Nat) : State :=
  let s := s.endStall
  { s with coll := { s.coll with agreedFor := some step } }

/-- Does a message carry this module's epoch and mode digest? -/
def State.sameMode (s : State) (m : Msg) : Bool := m.epoch == s.rd Obj.modeEpoch && m.digest == s.modeCrc

/-- A stall is over once no member's messages and no member's pace flit of the step show another mode (R349). -/
def State.resumeReduces (s : State) : State :=
  if s.coll.stallFrom.isSome ∧ s.coll.differing.isEmpty ∧ ¬ s.others.any s.epochDiffers then s.endStall else s

/-- Act on a message of the current step, if its sender's mode is this module's; another counts as mode-mismatch, and the collective records
wait until the sender's messages match (R332, R349). -/
def State.onMode (s : State) (m : Msg) (f : State → State) : State :=
  if s.sameMode m then f ({ s with coll := { s.coll with differing := s.coll.differing.erase m.src } }).resumeReduces
  else { s with coll := { s.coll with differing := s.coll.differing.insert m.src (m.epoch, m.digest) } }.modeMismatch m.src m.epoch m.digest

/-- The digest a member's last capability frame named. -/
def State.peerDigest (s : State) (m : Nat) : Nat := ((s.coll.peers.find m).map Peer.digest).getD 0

/-- The wait before the first collective of a step, and while a member's messages carry another mode; the Bool says whether it is over. -/
def State.epochWait (s : State) (step : Nat) : State × Bool :=
  if ¬ s.coll.differing.isEmpty then (s, false)
  else if s.coll.agreedFor = some step then (s.modeMatched step, true)
  else
    match s.others.find? s.epochDiffers with
    | some m => (s.modeMismatch m (((s.paceOf m).map PaceEnt.epoch).getD 0) (s.peerDigest m), false)
    | none => if s.others.all s.paceHeard then (s.modeMatched step, true) else (s, false)

/-- Run a collective command on a dispatched record of its op, once the members' epochs agree. -/
def onColl (w : Fin 8) (q op : Nat) (s : State) (f : State → QEntry → State) : Host.Outcome State Fault Refusal :=
  onUnit w q 6 op s fun e =>
    let (s, ok) := s.epochWait (e.step.getD 0)
    if ok then f s e else s

/-! ### Opening a span (R336) -/

/-- A span opens with zero sums. -/
def State.openSpan (s : State) (w : Nat) (e : QEntry) : State :=
  let d := coOf e.raw
  if (s.spans.find d.span).isSome then s
  else
    let x : Span := { win := w, seq := e.seq, layer := d.layer, dir := 1, step := e.step.getD 0, blocks := d.len, uLoc := d.uLoc,
                      adders := [], reduce := none, sums := [], evicted := [], touched := [] }
    { s with spans := s.spans.insert d.span x }

def execCollectiveOpen (w : Fin 8) (q : Nat) (s : State) : Host.Outcome State Fault Refusal :=
  onColl w q 0 s fun s e => (s.openSpan w e).unitDone w e.seq 0 0

/-- Sum pages in the buffers: the touched ones that are not homed in tier T1. -/
def State.bufferPages (s : State) : List (Nat × Nat × Nat) :=
  s.spans.flatMap fun ((n, x) : Nat × Span) => (x.touched.filter fun p => !x.evicted.contains p.1).map fun p => (p.2, n, p.1)

/-- SUM_PAGE_EVICT: with all 1024 buffer pages taken, the least recently touched sum page goes to tier T1 (R336). -/
def State.sumEvict (s : State) : State :=
  if s.bufferPages.length < 1024 then s
  else
    match s.bufferPages.foldl (fun (b : Option (Nat × Nat × Nat)) p => match b with
        | none => some p
        | some x => if p.1 < x.1 then some p else some x) none with
    | some (_, n, p) =>
      (match s.spans.find n with
       | some x => { s with spans := s.spans.insert n { x with evicted := setIns x.evicted p } }
       | none => s)
    | none => s

def execSumPageEvict (s : State) : Host.Outcome State Fault Refusal := .next s.sumEvict

/-! ### Jobs and their messages -/

def State.job (s : State) (key : Nat) : Option Job := s.coll.jobs.find key
def State.putJob (s : State) (key : Nat) (j : Job) : State := { s with coll := { s.coll with jobs := s.coll.jobs.insert key j } }
def State.dropJob (s : State) (key : Nat) : State := { s with coll := { s.coll with jobs := s.coll.jobs.erase key } }

/-- A record that starts. -/
def Job.new (op : Nat) (r : Rec) (step nth blocks : Nat) : Job :=
  { op := op, raw := r, step := step, nth := nth, blocks := blocks, chunks := [], kept := none, heard := 0, inputs := [], result := none,
    countIn := [], countOut := [] }

/-- The flow identity of a job's messages: its span, 0 where no span ties them (Table 12.2). -/
def Job.cid (j : Job) : Nat := if j.op = 1 then (coOf j.raw).span else 0

/-- Send a message of a job to a rank, keeping exponent, data and result messages until its record retires (R342). -/
def State.sendJob (s : State) (key : Nat) (j : Job) (rank mtype index count : Nat) (body : Bytes) : State :=
  let dst := s.memberAt rank
  let m := s.msg mtype j.cid j.step index count body
  let x : Sent := { win := key / 2 ^ 32, seq := key % 2 ^ 32, dst := dst, msg := m, plane := (m.index + m.rank) % 16 }
  let s := if mtype = 0x10 ∨ mtype = 0x12 ∨ mtype = 0x13 then { s with coll := { s.coll with sent := s.coll.sent ++ [x] } } else s
  s.send dst m

def State.ownRank (s : State) : Nat := s.rankOf s.ownModule

/-- Ranks other than this module's own. -/
def State.otherRanks (s : State) : List Nat := (List.range s.groupN).filter (· ≠ s.ownRank)

/-- The bitmap of all ranks. -/
def State.allRanks (s : State) : Nat := 2 ^ s.groupN - 1

def hasBit (b i : Nat) : Bool := b >>> i % 2 == 1

/-! ### Reduce: chunks (R338, R341) -/

def Job.nChunks (j : Job) : Nat := ceilDiv j.blocks 224
/-- Blocks of chunk `c`. -/
def Job.size (j : Job) (c : Nat) : Nat := min 224 (j.blocks - 224 * c)
def Job.chunk (j : Job) (c : Nat) : Chunk := (j.chunks.find c).getD Chunk.fresh
def Job.setChunk (j : Job) (c : Nat) (x : Chunk) : Job := { j with chunks := j.chunks.insert c x }

/-- The chunks an exponent or agreed message covers: up to 32 of one owner, from the first it names. -/
def Job.batch (j : Job) (n first : Nat) : List Nat := ((List.range 32).map fun i => first + i * n).filter (· < j.nChunks)
/-- The first chunk of each message of owner `r`. -/
def Job.firsts (j : Job) (n r : Nat) : List Nat := ((List.range (j.nChunks / (32 * n) + 1)).map fun k => r + 32 * k * n).filter (· < j.nChunks)

/-- Bring back the sum pages of a reduce's blocks `lo` to `hi` that stand in tier T1, as its reading them touches them (R336). -/
def State.touchSums (s : State) (j : Job) (lo hi : Nat) : State :=
  let n := (coOf j.raw).span
  match j.kept, s.spans.find n with
  | none, some x => s.touchPages n x (blockPages lo hi)
  | _, _ => s

/-- The span a reduce works on. -/
def State.jobSpan (s : State) (j : Job) : Span := (j.kept.orElse fun _ => s.spans.find (coOf j.raw).span).getD Span.absent

/-- Cut a byte string into the parts of the chunks it covers. -/
def Job.cut (j : Job) (per : Nat) : List Nat → Bytes → List (Nat × Bytes)
  | [], _ => []
  | c :: r, b => (c, b.take (per * j.size c)) :: Job.cut j per r (b.drop (per * j.size c))

/-- The local exponents of a chunk (R338). -/
def State.localExps (s : State) (j : Job) (c : Nat) : Bytes :=
  let x := s.jobSpan j
  let u := (g16 x.uLoc).ex
  (List.range (j.size c)).map fun b =>
    let vs := (List.range 32).map fun i =>
      let y := x.sums.get SumCell.zero (32 * (224 * c + b) + i)
      if y.flag = 3 then OutVal.nan else .fin (u.mul (.int y.sum)) false
    BitVec.ofNat 8 (selectScale .g8 (g16 (coOf j.raw).sW).ex vs)

/-- One element on the wire: its G8 code and its class (R339). -/
def wireElem (u unit : Ex) (y : SumCell) : Nat × Cls :=
  if y.flag = 3 then (Fmt.g8.nanCode, .nonfinite)
  else if y.flag = 2 then ((if y.sum < 0 then 128 else 0) + Fmt.g8.maxCode, .saturation)
  else
    let v := (u.mul (.int y.sum)).div unit
    let small := v.abs.lt (.dy 1 (-4))
    let q := (v.scale 6).round
    let (c, k) := if small then ((toFloat .g8 (.fin (.dy q (-6)))).1, if q = 0 ∧ ¬ v.isZero then Cls.underflow else .none) else toFloat .g8 (.fin v)
    (c, if y.flag = 1 ∧ k = .none then .underflow else k)

/-- The wire codes of a chunk under its agreed exponents, block by block, and their classes. -/
def State.wireChunk (s : State) (j : Job) (c : Nat) (agreed : Bytes) : List (Nat × Cls) :=
  let x := s.jobSpan j
  let u := (g16 x.uLoc).ex
  let sw := (g16 (coOf j.raw).sW).ex
  (List.range (j.size c)).flatMap fun b =>
    let unit := sw.scale (((agreed.getD b 0).toNat : Int) - 127)
    (List.range 32).map fun i => wireElem u unit (x.sums.get SumCell.zero (32 * (224 * c + b) + i))

/-! ### Reduce: writing results (R340, R26) -/

/-- May the collective engine write the gradient region in this step: has every layer that maps it committed the step before (R26)? -/
def State.gradFree (s : State) (h step : Nat) : Bool :=
  s.upd.maps.all fun m => m.2.gradH != h || decide (step ≤ (s.journal (m.1 / 16)).committed + 1)

/-- Chunks a reduce must write here: all, or with scatter its own. -/
def State.mustLand (s : State) (j : Job) (c : Nat) : Bool := !(coOf j.raw).scatter || c % s.groupN == s.ownRank

/-- A reduce whose chunks have all landed completes. -/
def State.reduceDone (s : State) (key : Nat) : State :=
  match s.job key with
  | none => s
  | some j =>
    if (List.range j.nChunks).all (fun c => !s.mustLand j c || (j.chunk c).landed) then s.unitDone (key / 2 ^ 32) (key % 2 ^ 32) 0 0 else s

/-- Bytes of a chunk's result as they stand in the region: G8 codes in engine tiles with their scales, or G16 codes in engine tiles. -/
def Job.places (j : Job) (pages c : Nat) (bs : Bytes) : List (Nat × Bytes) :=
  let d := coOf j.raw
  let nb := j.size c
  (List.range nb).flatMap fun b =>
    let at_ := d.dstOff + 224 * c + b
    if d.rfmt = 1 then
      (List.range 32).map fun i => (2048 * (at_ / 32) + 64 * ((at_ % 32 + i) % 32) + 2 * (at_ % 32), (bs.drop (64 * b + 2 * i)).take 2)
    else
      ((List.range 32).map fun i => (gradCode at_ i, (bs.drop (32 * b + i)).take 1)) ++ [(gradScale pages at_, (bs.drop (32 * nb + b)).take 1)]

/-- Write a chunk whose parts have all come, where its region is free and no page of it is moving; it lands (R26, R239). -/
def State.landChunk (s : State) (key c : Nat) : State :=
  match s.job key with
  | none => s
  | some j =>
    let d := coOf j.raw
    let x := j.chunk c
    let need := if d.rfmt = 1 then 3 else 1
    if x.landed ∨ x.parts ≠ need ∨ ¬ s.gradFree d.dstH j.step then s
    else
      let bs := (x.held.find? fun h => h.1 == 0).elim [] Prod.snd ++ (x.held.find? fun h => h.1 == 1).elim [] Prod.snd
      let pages := ((s.region d.dstH).map Region.size).getD 0
      let ps := j.places pages c bs
      match s.writable key ((ps.map fun p => p.1 / 65536).eraseDups.map fun p => (d.dstH, p)) with
      | (s, false) => s
      | (s, true) =>
        let s := ps.foldl (fun s p => s.regionWrite d.dstH p.1 p.2) s
        (s.putJob key (j.setChunk c { x with landed := true, held := [] })).reduceDone key

/-- A part of a chunk's result comes: kept until it can be written; one that has come before is discarded and counted (R342). -/
def State.takeResult (s : State) (key c part : Nat) (bs : Bytes) : State :=
  match s.job key with
  | none => s
  | some j =>
    let x := j.chunk c
    if x.landed ∨ hasBit x.parts part then s.count Obj.collDuplicates 1
    else
      (s.putJob key (j.setChunk c { x with parts := x.parts ||| 2 ^ part, held := x.held ++ [(part, bs)] })).landChunk key c

/-- The readout of a chunk whose ranks are all in: converted once, written here, sent to every other member (R340). -/
def State.readout (s : State) (key c : Nat) : State :=
  match s.job key with
  | none => s
  | some j =>
    let d := coOf j.raw
    let x := j.chunk c
    let sw := (g16 d.sW).ex
    let val (b i : Nat) : OutVal :=
      if x.nans.getD (32 * b + i) false then .nan
      else .fin ((sw.scale (((x.agreed.getD []).getD b 0 : Int) - 133)).mul (.int (x.sums.getD (32 * b + i) 0))) false
    let rows := (List.range (j.size c)).map fun b => convLine (if d.rfmt = 1 then .g16 else .g8) (tensorScale d.sR) ((List.range 32).map (val b))
    let s := s.inStep (some j.step) fun s => s.tally kReadout d.layer 1 (rows.flatMap fun l => l.2.2) []
    let map := le 64 x.ranks
    if d.rfmt = 1 then
      let code (l : List (List Nat × Option Nat × List Cls)) : Bytes := l.flatMap fun y => y.1.flatMap p16
      let lo := rows.take 112
      let hi := rows.drop 112
      let s := if d.scatter then s else s.otherRanks.foldl (fun s r =>
        (s.sendJob key j r 0x13 (2 * c) lo.length (code lo ++ map)).sendJob key j r 0x13 (2 * c + 1) hi.length (code hi ++ map)) s
      (s.takeResult key c 0 (code lo)).takeResult key c 1 (code hi)
    else
      let bs : Bytes := (rows.flatMap fun l => l.1.map (BitVec.ofNat 8)) ++ rows.map fun l => BitVec.ofNat 8 (l.2.1.getD 0)
      let s := if d.scatter then s else s.otherRanks.foldl (fun s r => s.sendJob key j r 0x13 c rows.length (bs ++ map)) s
      s.takeResult key c 0 bs

/-! ### Reduce: the owner's sums and the agreement (R338, R339) -/

/-- A contribution of a rank to a chunk: added once (R339); with the last the chunk is read out. -/
def State.takeData (s : State) (key c rank : Nat) (bs : Bytes) : State :=
  match s.job key with
  | none => s
  | some j =>
    let x := j.chunk c
    let n := 32 * j.size c
    if hasBit x.ranks rank then s.count Obj.collDuplicates 1
    else
      let vs := (bs.take n).map fun b => decodeFloat .g8 b.toNat
      let old (i : Nat) : Int := x.sums.getD i 0
      let x' : Chunk := { x with
        sums := vs.zipIdx.map fun (v, i) => old i + (v.ex.scale 6).floor
        nans := vs.zipIdx.map fun (v, i) => v.isNan || x.nans.getD i false
        agreed := some ((bs.drop n).map BitVec.toNat)
        ranks := x.ranks ||| 2 ^ rank
        firstAt := some (x.firstAt.getD s.now) }
      let s := s.putJob key (j.setChunk c x')
      if x'.ranks = s.allRanks then s.readout key c else s

/-- The agreed exponents of one chunk are known: its codes go to the owner, once (R339). -/
def State.wireOne (s : State) (key c : Nat) (agreed : Bytes) : State :=
  match s.job key with
  | none => s
  | some j =>
    let x := j.chunk c
    if x.sentAt.isSome then s
    else
      let d := coOf j.raw
      let cs := s.wireChunk j c agreed
      let s := s.touchSums j (224 * c) (224 * c + j.size c - 1)
      let s := s.inStep (some j.step) fun s => s.tally kWire d.layer 1 (cs.map Prod.snd) []
      let bs : Bytes := cs.map (fun y => BitVec.ofNat 8 y.1) ++ agreed
      let s := s.putJob key (j.setChunk c { x with sentAt := some s.now })
      if c % s.groupN = s.ownRank then s.takeData key c s.ownRank bs
      else s.sendJob key j (c % s.groupN) 0x12 c (j.size c) bs

/-- A record that retired before all its data had gone out ends with the last of it. -/
def State.sweepJob (s : State) (key : Nat) : State :=
  match s.job key with
  | some j => if j.kept.isSome ∧ (List.range j.nChunks).all (fun c => (j.chunk c).sentAt.isSome) then s.dropJob key else s
  | none => s

/-- Agreed exponents of the chunks from `first` on. -/
def State.takeAgreed (s : State) (key first : Nat) (bs : Bytes) : State :=
  match s.job key with
  | none => s
  | some j => ((j.cut 1 (j.batch s.groupN first) bs).foldl (fun s c => s.wireOne key c.1 c.2) s).sweepJob key

/-- The exponents of a rank for this module's chunks from `first` on; with the last rank's the maximum goes back (R338). -/
def State.takeExps (s : State) (key first rank : Nat) (bs : Bytes) : State :=
  match s.job key with
  | none => s
  | some j =>
    if hasBit (j.chunk first).expGot rank then s
    else
      let j := (j.cut 1 (j.batch s.groupN first) bs).foldl (fun (j : Job) c =>
        let x := j.chunk c.1
        j.setChunk c.1 { x with
          expGot := x.expGot ||| 2 ^ rank
          expMax := (c.2.map BitVec.toNat).zipIdx.map fun (e, i) => max e (x.expMax.getD i 0) }) j
      let s := s.putJob key j
      if (j.chunk first).expGot = s.allRanks then
        let out : Bytes := (j.batch s.groupN first).flatMap fun c => (j.chunk c).expMax.map (BitVec.ofNat 8)
        let s := s.otherRanks.foldl (fun s r => s.sendJob key j r 0x11 first out.length out) s
        s.takeAgreed key first out
      else s

/-! ### Gather, agree, scalar (R333, R340) -/

/-- Pieces of a gather part: bodies of at most 7896 bytes (R331). -/
def pieces : Nat → Bytes → List Bytes
  | 0, _ => []
  | n + 1, b => if b.isEmpty then [] else b.take 7896 :: pieces n (b.drop 7896)

def Co.senders (d : Co) (n : Nat) : List Nat := if d.root = 0x1FF then List.range n else [d.root]

/-- A gather whose pieces have all come and landed completes. -/
def State.gatherDone (s : State) (key : Nat) : State :=
  match s.job key with
  | none => s
  | some j =>
    let d := coOf j.raw
    if j.inputs.length = (d.senders s.groupN).length * ceilDiv d.part 7896 ∧ j.inputs.all (fun x => x.2.isEmpty) then
      (s.dropJob key).unitDone (key / 2 ^ 32) (key % 2 ^ 32) 0 0
    else s

/-- Write piece `k`, rank × 2^20 + piece, where no page of it is moving (R239); a piece that has landed keeps no bytes. -/
def State.landPiece (s : State) (key k : Nat) : State :=
  match s.job key with
  | none => s
  | some j =>
    let d := coOf j.raw
    let bs := j.inputs.get [] k
    let o := d.gDstOff + (if d.root = 0x1FF then k / 2 ^ 20 * d.part else 0) + 7896 * (k % 2 ^ 20)
    if bs.isEmpty then s
    else match s.writable key ((pagesOf o bs.length).map fun p => (d.gDstH, p)) with
      | (s, false) => s
      | (s, true) => ((s.regionWrite d.gDstH o bs).putJob key { j with inputs := j.inputs.insert k [] }).gatherDone key

/-- A piece of a rank's part comes: kept until it can be written. -/
def State.takeGather (s : State) (key rank piece : Nat) (bs : Bytes) : State :=
  match s.job key with
  | none => s
  | some j =>
    let k := rank * 2 ^ 20 + piece
    if (j.inputs.find k).isSome then s.count Obj.collDuplicates 1
    else (s.putJob key { j with inputs := j.inputs.insert k bs }).landPiece key k

/-- Chunks and pieces that waited, for their gradient region or for a page that was moving. -/
def State.landHeld (s : State) : State :=
  s.coll.jobs.foldl (fun s j =>
    if j.2.op = 1 then j.2.chunks.foldl (fun s c => s.landChunk j.1 c.1) s
    else if j.2.op = 2 then j.2.inputs.foldl (fun s x => s.landPiece j.1 x.1) s
    else s) s

/-- The result of an agree record: written in place. -/
def State.agreeDone (s : State) (key : Nat) (bs : Bytes) : State :=
  match s.job key with
  | none => s
  | some j =>
    let d := coOf j.raw
    let s := s.putBytes d.tile false (bs.zipIdx.map fun x => (d.off + x.2, x.1.toNat))
    (s.dropJob key).unitDone (key / 2 ^ 32) (key % 2 ^ 32) 0 0

/-- The anchor takes the codes of a rank; with the last it sends the maximum. -/
def State.takeAgree (s : State) (key rank : Nat) (bs : Bytes) : State :=
  match s.job key with
  | none => s
  | some j =>
    if hasBit j.heard rank then s.count Obj.collDuplicates 1
    else
      let j := { j with heard := j.heard ||| 2 ^ rank, inputs := j.inputs.insert rank bs }
      let s := s.putJob key j
      if j.heard = s.allRanks then
        let out : Bytes := (List.range (coOf j.raw).count).map fun i => BitVec.ofNat 8 (j.inputs.foldl (fun m x => max m (x.2.getD i 0).toNat) 0)
        let s := s.otherRanks.foldl (fun s r => s.sendJob key j r 0x11 (0xFFFF0000 + j.nth) out.length out) s
        s.agreeDone key out
      else s

/-- Sum values of one entry over the members on the grid of the agreed exponent (R340). -/
def scalarSum (vs : List Val) : Val :=
  if vs.any Val.isNan then .nan
  else
    let xs := (vs.map Val.ex).filter fun x => !x.isZero
    match xs with
    | [] => .fin .zero
    | x :: r =>
      let k := r.foldl (fun m y => max m y.ceilLog2) x.ceilLog2 - 21
      .fin (.dy ((vs.map fun v => (v.ex.scale (-k)).round).foldl (· + ·) 0) k)

/-- Count-vector parts: 16 of 224 count keys with four counts each, 8 of 448 keys with the two shadow counts (R54, R86, R340). -/
def countPart (t : Tab Counts) (k : Nat) : Bytes :=
  if k < 16 then
    (List.range 224).flatMap fun i => let c := t.get Counts.zero (224 * k + i); p64 c.elem ++ p64 c.sat ++ p64 c.unf ++ p64 c.nonfin
  else (List.range 448).flatMap fun i => let c := t.get Counts.zero (448 * (k - 16) + i); p64 c.shSat ++ p64 c.shUnf

def u64s (b : Bytes) : Nat → List Nat
  | 0 => []
  | n + 1 => unle (b.take 8) :: u64s (b.drop 8) n

/-- Group counts from the 24 parts. -/
def countsOf (parts : Tab Bytes) : Tab Counts :=
  (List.range 24).foldl (fun (t : Tab Counts) k =>
    let xs := u64s (parts.get [] k) 896
    let g (i : Nat) : Nat := xs.getD i 0
    if k < 16 then (List.range 224).foldl (fun t i => t.upd Counts.zero (224 * k + i) fun c =>
      { c with elem := g (4 * i), sat := g (4 * i + 1), unf := g (4 * i + 2), nonfin := g (4 * i + 3) }) t
    else (List.range 448).foldl (fun t i => t.upd Counts.zero (448 * (k - 16) + i) fun c => { c with shSat := g (2 * i), shUnf := g (2 * i + 1) }) t) []

/-- A scalar record completes when its values have come back and, with last set, every count part. -/
def State.scalarDone (s : State) (key : Nat) : State :=
  match s.job key with
  | none => s
  | some j =>
    let d := coOf j.raw
    if j.result.isNone ∨ (d.last ∧ j.countOut.length < 24) then s
    else
      let s := if d.last then { s with coll := { s.coll with groupCounts := some (countsOf j.countOut) } } else s
      (s.dropJob key).unitDone (key / 2 ^ 32) (key % 2 ^ 32) 0 0

/-- The result of a scalar record: written in place; element 0 may be the step's loss (R217). -/
def State.scalarResult (s : State) (key : Nat) (bs : Bytes) : State :=
  match s.job key with
  | none => s
  | some j =>
    let d := coOf j.raw
    if j.result.isSome then s.count Obj.collDuplicates 1
    else
      let s := s.putBytes d.tile false (bs.zipIdx.map fun x => (d.off + x.2, x.1.toNat))
      let s := if d.loss then { s with coll := { s.coll with loss := some (unle (bs.take 2)) } } else s
      (s.putJob key { j with result := some bs }).scalarDone key

/-- The anchor takes the values of a rank; with the last it converts the sums, counted as readout, and sends them (R340). -/
def State.takeScalar (s : State) (key rank : Nat) (bs : Bytes) : State :=
  match s.job key with
  | none => s
  | some j =>
    if hasBit j.heard rank then s.count Obj.collDuplicates 1
    else
      let d := coOf j.raw
      let j := { j with heard := j.heard ||| 2 ^ rank, inputs := j.inputs.insert rank bs }
      let s := s.putJob key j
      if j.heard = s.allRanks then
        let cs := (List.range d.count).map fun i => toFloat .g16 (scalarSum (j.inputs.map fun x => g16 (unle ((x.2.drop (2 * i)).take 2))))
        let s := s.inStep (some j.step) fun s => s.tally kReadout d.layer 1 (cs.map Prod.snd) []
        let out : Bytes := cs.flatMap fun c => p16 c.1
        let s := s.otherRanks.foldl (fun s r => s.sendJob key j r 0x17 (65536 * j.nth) d.count out) s
        s.scalarResult key out
      else s

/-- The group sums of count part `k` have come. -/
def State.takeCountOut (s : State) (key k : Nat) (bs : Bytes) : State :=
  match s.job key with
  | none => s
  | some j =>
    if (j.countOut.find k).isSome then s.count Obj.collDuplicates 1
    else (s.putJob key { j with countOut := j.countOut.insert k bs }).scalarDone key

/-- The owner of count part `k` takes a rank's counts; with the last it sends their sums. -/
def State.takeCountIn (s : State) (key k rank : Nat) (bs : Bytes) : State :=
  match s.job key with
  | none => s
  | some j =>
    if (j.countIn.find (512 * k + rank)).isSome then s.count Obj.collDuplicates 1
    else
      let j := { j with countIn := j.countIn.insert (512 * k + rank) bs }
      let s := s.putJob key j
      let mine := j.countIn.filter fun x => x.1 / 512 == k
      if mine.length = s.groupN then
        let out : Bytes := (List.range 896).flatMap fun i => p64 ((mine.map fun x => unle ((x.2.drop (8 * i)).take 8)).sum % 2 ^ 64)
        let s := s.otherRanks.foldl (fun s r => s.sendJob key j r 0x17 (65536 * j.nth + 1 + k) 896 out) s
        s.takeCountOut key k out
      else s

/-! ### Messages (R331, R332) -/

/-- The job a message is for. -/
def State.jobOf (s : State) (m : Msg) : Option Nat :=
  let pick (f : Job → Bool) : Option Nat := (s.coll.jobs.find? fun x => x.2.step == m.step && f x.2).map Prod.fst
  if m.mtype = 0x15 then pick fun j => j.op == 2 && j.nth == m.index / 2 ^ 20
  else if m.mtype = 0x16 ∨ m.mtype = 0x17 then pick fun j => j.op == 4 && j.nth == m.index / 65536
  else if 0xFFFF0000 ≤ m.index then pick fun j => j.op == 3 && j.nth == m.index - 0xFFFF0000
  else (pick fun j => j.op == 1 && (coOf j.raw).span == m.cid && j.kept.isNone).orElse fun _ => pick fun j => j.op == 1 && (coOf j.raw).span == m.cid

/-- Act on a message of a record that has started. -/
def State.onMsg (s : State) (key rank : Nat) (m : Msg) : State :=
  let rf := ((s.job key).map fun j => (coOf j.raw).rfmt).getD 0
  match m.mtype with
  | 0x10 => if 0xFFFF0000 ≤ m.index then s.takeAgree key rank m.body else s.takeExps key m.index rank m.body
  | 0x11 => if 0xFFFF0000 ≤ m.index then s.agreeDone key m.body else s.takeAgreed key m.index m.body
  | 0x12 => s.takeData key m.index rank m.body
  | 0x13 => if rf = 1 then s.takeResult key (m.index / 2) (m.index % 2) (m.body.take (64 * m.count)) else s.takeResult key m.index 0 (m.body.take (33 * m.count))
  | 0x15 => s.takeGather key rank (m.index % 2 ^ 20) m.body
  | 0x16 => if m.index % 65536 = 0 then s.takeScalar key rank m.body else s.takeCountIn key (m.index % 65536 - 1) rank m.body
  | 0x17 => if m.index % 65536 = 0 then s.scalarResult key m.body else s.takeCountOut key (m.index % 65536 - 1) m.body
  | _ => s

def State.keepMsg (s : State) (m : Msg) : State := { s with coll := { s.coll with inbox := s.coll.inbox ++ [m] } }

/-- Is the message one of this module's group, from another member? -/
def State.fromMember (s : State) (m : Msg) : Bool :=
  m.pod == s.rd Obj.planPod && m.group == s.rd Obj.groupId && s.isMember m.src && m.src != s.ownModule

/-- The cause an abort message carries. -/
def abortCause (m : Msg) : Nat := unle ((m.body.drop 8).take 1)

/-- Receive a collective message: only of the current step or the one after it; one of the next step, or of a record not started here, is
kept; another epoch or digest counts as mode-mismatch (R332, R349). An abort ends the step, unless it has been aborted already (R505). -/
def State.collMsg (s : State) (m : Msg) : State :=
  if ¬ s.fromMember m then s
  else if m.step = s.abortTarget + 1 then s.keepMsg m
  else if m.step ≠ s.abortTarget then s
  else s.onMode m fun s =>
    if m.mtype = 0x04 then (if s.cmd.stepNow.isSome then s.abortStep (abortCause m) else s)
    else match s.jobOf m with
      | none => s.keepMsg m
      | some key => s.onMsg key (s.rankOf m.src) m

/-- Take up the messages that waited for a record, or for this step. -/
def State.openInbox (s : State) : State :=
  s.coll.inbox.foldl (fun s m => s.collMsg m) { s with coll := { s.coll with inbox := [] } }

def execMsgExponent (m : Msg) (s : State) : Host.Outcome State Fault Refusal := .next (s.collMsg { m with mtype := 0x10 })
def execMsgAgreed (m : Msg) (s : State) : Host.Outcome State Fault Refusal := .next (s.collMsg { m with mtype := 0x11 })
def execMsgData (m : Msg) (s : State) : Host.Outcome State Fault Refusal := .next (s.collMsg { m with mtype := 0x12 })
def execMsgResult (m : Msg) (s : State) : Host.Outcome State Fault Refusal := .next (s.collMsg { m with mtype := 0x13 })
def execMsgGather (m : Msg) (s : State) : Host.Outcome State Fault Refusal := .next (s.collMsg { m with mtype := 0x15 })
def execMsgScalar (m : Msg) (s : State) : Host.Outcome State Fault Refusal := .next (s.collMsg { m with mtype := 0x16 })
def execMsgScalarResult (m : Msg) (s : State) : Host.Outcome State Fault Refusal := .next (s.collMsg { m with mtype := 0x17 })

/-! ### Records that start -/

/-- COLLECTIVE_REDUCE: once every dest 2 record dispatched before it on its span has retired, its exponents go to the owners (R338). Where
it must write no chunk, with scatter at a member that owns none, it is complete at once (R340). -/
def State.reduce (s : State) (w : Nat) (e : QEntry) : State :=
  let d := coOf e.raw
  let key := recKey w e.seq
  let adding := s.running.any fun p => Rec.kind p.2.raw == 1 && !p.2.skip && decide (p.2.order < e.order) && (mxOf p.2.raw).dest == 2 &&
    (mxOf p.2.raw).oOff % 1024 == d.span
  match s.spans.find d.span with
  | none => s
  | some x =>
    if adding ∨ (s.job key).isSome then s
    else
      let j := Job.new 1 e.raw (e.step.getD 0) 0 x.blocks
      let s := (s.putJob key j).touchSums j 0 (x.blocks - 1)
      let n := s.groupN
      let s := (List.range n).foldl (fun s r => (j.firsts n r).foldl (fun s f =>
        let bs := (j.batch n f).flatMap fun c => s.localExps j c
        if r = s.ownRank then s.takeExps key f r bs else s.sendJob key j r 0x10 f bs.length bs) s) s
      s.openInbox.reduceDone key

def execCollectiveReduce (w : Fin 8) (q : Nat) (s : State) : Host.Outcome State Fault Refusal := onColl w q 1 s fun s e => s.reduce w e

/-- COLLECTIVE_GATHER: this member's part, where it has one, goes to every member. -/
def State.gatherOut (s : State) (w : Nat) (e : QEntry) : State :=
  let d := coOf e.raw
  let key := recKey w e.seq
  let sends := d.root = 0x1FF ∨ d.root = s.ownRank
  let (s, a) := if sends then s.access key 1 d.srcH (pagesOf d.srcOff d.part) else (s, .ready)
  if a = .waiting then s
  else
  let (s, b) := s.access key 1 d.gDstH (pagesOf d.gDstOff (d.part * (d.senders s.groupN).length))
  if b = .waiting ∨ (s.job key).isSome then s
  else
    let s := if sends ∧ s.hitsBad d.srcH d.srcOff d.part then s.hitStatus w e.seq d.srcH else s
    let j := Job.new 2 e.raw (e.step.getD 0) s.coll.gathers 0
    let s := s.putJob key j
    let s := { s with coll := { s.coll with gathers := s.coll.gathers + 1 } }
    if d.part = 0 then (s.dropJob key).unitDone w e.seq 0 0
    else
      let ps := if sends then pieces (d.part / 7896 + 1) (s.regionBytes d.srcH d.srcOff d.part) else []
      let s := ps.zipIdx.foldl (fun s (b, i) =>
        (s.otherRanks.foldl (fun s r => s.sendJob key j r 0x15 ((j.nth * 2 ^ 20 + i) % 2 ^ 32) b.length b) s).takeGather key s.ownRank i b) s
      s.openInbox

def execCollectiveGather (w : Fin 8) (q : Nat) (s : State) : Host.Outcome State Fault Refusal := onColl w q 2 s fun s e => s.gatherOut w e

/-- The bytes of a scratchpad. -/
def State.scratchBytesAt (s : State) (t a n : Nat) : Bytes := (List.range n).map fun i => BitVec.ofNat 8 (s.scratchByte t (a + i))

/-- AGREE: this member's codes go to the anchor. -/
def State.agreeOut (s : State) (w : Nat) (e : QEntry) : State :=
  let d := coOf e.raw
  let key := recKey w e.seq
  if (s.job key).isSome then s
  else
    let j := Job.new 3 e.raw (e.step.getD 0) s.coll.agrees 0
    let s := s.putJob key j
    let s := { s with coll := { s.coll with agrees := s.coll.agrees + 1 } }
    let bs := s.scratchBytesAt d.tile d.off d.count
    let s := if s.ownRank = 0 then s.takeAgree key 0 bs else s.sendJob key j 0 0x10 (0xFFFF0000 + j.nth) d.count bs
    s.openInbox

def execAgree (w : Fin 8) (q : Nat) (s : State) : Host.Outcome State Fault Refusal := onColl w q 3 s fun s e => s.agreeOut w e

/-- This member's counts go to the owners of the count parts. -/
def State.scalarCounts (s : State) (key : Nat) (j : Job) (counts : Tab Counts) : State :=
  (List.range 24).foldl (fun s k =>
    let bs := countPart counts k
    if k % s.groupN = s.ownRank then s.takeCountIn key k s.ownRank bs
    else s.sendJob key j (k % s.groupN) 0x16 (65536 * j.nth + 1 + k) 896 bs) s

/-- This member's values go to the anchor. -/
def State.scalarValues (s : State) (key : Nat) (j : Job) (n : Nat) (bs : Bytes) : State :=
  if s.ownRank = 0 then s.takeScalar key 0 bs else s.sendJob key j 0 0x16 (65536 * j.nth) n bs

/-- SCALAR: the values go to the anchor, and with last set the counts to the owners of the count parts. The counts are those of the
step's conversions so far: a conversion of the step made after this one, the record's own readout at the anchor or that of an update
pass still running, enters no group counts (DESIGN CHOICE, log entry 17). -/
def State.scalarOut (s : State) (w : Nat) (e : QEntry) : State :=
  let d := coOf e.raw
  let key := recKey w e.seq
  if (s.job key).isSome then s
  else
    let j := Job.new 4 e.raw (e.step.getD 0) s.coll.scalars 0
    let counts := if s.cmd.stepNow = some j.step then s.tile.counts else s.tile.later.get [] j.step
    let bs := s.scratchBytesAt d.tile d.off (2 * d.count)
    let s := s.putJob key j
    let s := { s with coll := { s.coll with scalars := s.coll.scalars + 1 } }
    ((if d.last then s.scalarCounts key j counts else s).scalarValues key j d.count bs).openInbox

def execScalar (w : Fin 8) (q : Nat) (s : State) : Host.Outcome State Fault Refusal := onColl w q 4 s fun s e => s.scalarOut w e

/-! ### Dispatch and retirement of collective records -/

/-- A collective record is dispatched: an open opens its span, a reduce closes it to further adds, loss and last are taken (R336, R337,
R334). -/
def State.collDispatch (s : State) (w : Nat) (e : QEntry) : State :=
  let d := coOf e.raw
  if d.op = 0 then s.openSpan w e
  else if d.op = 1 then
    (match s.spans.find d.span with
     | some x => { s with spans := s.spans.insert d.span { x with reduce := some (recKey w e.seq) } }
     | none => s)
  else if d.op = 4 then
    let n := e.step.getD 0
    { s with coll := { s.coll with
        lossSeen := if d.loss then setIns s.coll.lossSeen n else s.coll.lossSeen
        lastSeen := if d.last then setIns s.coll.lastSeen n else s.coll.lastSeen } }
  else s

/-- A collective record retires: its messages are kept no longer, a reduce closes its span (R336, R342). -/
def State.collRetire (s : State) (w q : Nat) : State :=
  let key := recKey w q
  let s := { s with coll := { s.coll with sent := s.coll.sent.filter fun x => !(x.win == w && x.seq == q) } }
  match s.job key with
  | some j =>
    if j.op = 1 then
      let n := (coOf j.raw).span
      let s := (s.putJob key { j with kept := some (s.jobSpan j) }).sweepJob key
      { s with spans := s.spans.erase n }
    else s.dropJob key
  | none => s

/-! ### Sending again (R342, R345) -/

/-- Send a kept message again, on the next up plane after the one it went out on last. -/
def State.sendAgain (s : State) (x : Sent) : State :=
  (s.emit (.message x.msg.pod x.dst x.msg)).mailAgain { pod := x.msg.pod, dst := x.dst, msg := x.msg } x.plane

/-- The 32-bit indices a resend or result request lists. -/
def listed (b : Bytes) : Nat → List Nat
  | 0 => []
  | n + 1 => if b.length < 4 then [] else unle (b.take 4) :: listed (b.drop 4) n

/-- MSG_RESEND, of the current step and this module's mode (R332): index 0 asks for data of the chunks listed, index 1 for results. What has not been sent is ignored. -/
def State.msgResend (s : State) (m : Msg) : State :=
  if ¬ s.fromMember m ∨ m.step ≠ s.abortTarget then s
  else s.onMode m fun s =>
    let want := listed m.body (m.body.length / 4)
    let ty := if m.index = 0 then 0x12 else 0x13
    (s.coll.sent.filter fun x => x.dst == m.src && x.msg.cid == m.cid && x.msg.step == m.step && x.msg.mtype == ty && want.contains x.msg.index).foldl
      (fun s x => s.sendAgain x) s

def execMsgResend (m : Msg) (s : State) : Host.Outcome State Fault Refusal := .next (s.msgResend m)

/-- CHUNK_WAIT: the owner of a chunk that has waited chunk_wait_us since its first contribution asks the missing members (R345). -/
def State.chunkWait (s : State) (key c : Nat) : State :=
  match s.job key with
  | none => s
  | some j =>
    let x := j.chunk c
    let wait := s.rd Obj.chunkWaitUs * us
    let due : Bool := match x.firstAt with
      | some f => decide (wait ≤ s.now - f ∧ wait ≤ s.now - x.askedAt)
      | none => false
    if j.op ≠ 1 ∨ c % s.groupN ≠ s.ownRank ∨ ¬ due ∨ x.ranks = s.allRanks then s
    else
      let s := s.putJob key (j.setChunk c { x with askedAt := s.now })
      (s.otherRanks.filter fun r => !hasBit x.ranks r).foldl (fun s r => s.sendJob key j r 0x14 0 1 (p32 c)) s

def execChunkWait (w : Fin 8) (q : Nat) (c : Nat) (s : State) : Host.Outcome State Fault Refusal := .next (s.chunkWait (recKey w q) c)

/-- RESULT_REQUEST: a member that has sent a chunk and waited chunk_wait_us without its result asks the owner (R345). -/
def State.resultRequest (s : State) (key c : Nat) : State :=
  match s.job key with
  | none => s
  | some j =>
    let x := j.chunk c
    let d := coOf j.raw
    match x.sentAt with
    | none => s
    | some f =>
      if j.op ≠ 1 ∨ c % s.groupN = s.ownRank ∨ d.scatter ∨ x.parts = (if d.rfmt = 1 then 3 else 1) ∨ x.landed ∨
          s.now - f < s.rd Obj.chunkWaitUs * us then s
      else
        let s := s.putJob key (j.setChunk c { x with sentAt := some s.now })
        let want := if d.rfmt = 1 then ([0, 1].filter fun p => !hasBit x.parts p).map fun p => 2 * c + p else [c]
        s.sendJob key j (c % s.groupN) 0x14 1 want.length (want.flatMap p32)

def execResultRequest (w : Fin 8) (q : Nat) (c : Nat) (s : State) : Host.Outcome State Fault Refusal := .next (s.resultRequest (recKey w q) c)

/-- PAGE_MOVE_DONE: a page lands or its copy is repeated; chunks and parts that waited for it can be written now (R238, R239). -/
def execPageMoveDone (h p : Nat) (good : Bool) (phys : Nat) (s : State) : Host.Outcome State Fault Refusal :=
  .next (s.pageMoveDone h p good phys).landHeld

/-! ### PACE_MODE_FLIT_RX (R314, R349) -/

/-- The first collective record of the step that is dispatched and has not started. -/
def State.collWaiting (s : State) : Option Nat := (s.running.find? fun p => Rec.kind p.2.raw == 6 && !p.2.unit && !p.2.skip).bind fun p => p.2.step

/-- A valid pace-mode flit updates its sender's entry; a collective that waits on it looks again. One that is not intact counts as a
control discard too (R314). -/
def State.paceRx (s : State) (p : Nat) (f : Bytes) (cor unc : Nat) : State :=
  let s := if flitIntact f unc ∨ s.portIs p psDown ∨ s.portIs p psFailed then s else s.ctrlDiscard p
  let s := s.takeFlit p f cor unc fun l s => s.paceFlitRx p f l
  match s.collWaiting with
  | some n => (s.epochWait n).1
  | none => s.resumeReduces

def execPaceModeFlitRx (p : Fin 16) (f : Bytes) (cor unc : Nat) (s : State) : Host.Outcome State Fault Refusal := .next (s.paceRx p f cor unc)

end Sys2Proof.Machine
end

