-- ==== Sys2Proof/Machine/Members.lean ====
section
/-! DEFINITION. The life of a group (chapter 12): capability frames and joining (R329, R330), mode records (R346, R347), member failure,
views and split groups (R343, R344, R350, R351), aborts of other members (R505), replica digests, verdicts and state transfers (R352 to
R355, R497). -/
namespace Sys2Proof.Machine

/-! ### State transfers (R353, R497, Table 8.5) -/

/-- The 64 bytes of a journal entry (Table 8.5). -/
def Journal.bytes (j : Journal) (l : Nat) : Bytes :=
  p64 j.committed ++ p64 j.passStep ++ p64 j.tagStep ++ p64 j.digest ++
    p64 (j.state * 2 ^ 60 + l * 2 ^ 52 + j.rule * 2 ^ 50 + (if j.ckpt then 2 ^ 49 else 0) + j.rhoCur * 2 ^ 32 + j.rhoNext * 2 ^ 16 + j.uwQ) ++
    p64 (j.tiles * 2 ^ 32 + j.restarts * 2 ^ 16) ++ List.replicate 16 0

/-- Read a journal entry back. -/
def journalOf (b : Bytes) : Journal :=
  let w (i : Nat) : Nat := unle ((b.drop (8 * i)).take 8)
  { committed := w 0, passStep := w 1, tagStep := w 2, digest := w 3, state := w 4 >>> 60, rule := w 4 >>> 50 % 4, ckpt := w 4 >>> 49 % 2 == 1,
    rhoCur := w 4 >>> 32 % 65536, rhoNext := w 4 >>> 16 % 65536, uwQ := w 4 % 65536, tiles := w 5 >>> 32, restarts := w 5 >>> 16 % 65536,
    wrote := 0, flight := [], recovered := false }

/-- The spike detector's state, journal entry 0. -/
def State.watchWord (s : State) : Nat :=
  s.rd Obj.spikeMu * 2 ^ 48 + s.rd Obj.spikeDev * 2 ^ 32 + s.rd Obj.spikeSeen * 2 ^ 16 + s.rd Obj.spikeRun

/-- The parts of this module's step state: 4096-byte pieces of the state regions of every mapped layer; the journal entries; the form and quiet
count of every layer (R88); entry 0; the mode settings in force. A part names what it holds by a handle and a number. -/
def State.stateParts (s : State) : List (Nat × Nat × Bytes) :=
  let hs := (s.upd.maps.map fun m => (m.2.stateH, 16 * statePages m.2.rule m.2.tiles)).foldl (fun l x => if l.contains x then l else l ++ [x]) []
  (hs.flatMap fun h => (List.range h.2).map fun i => (h.1, i, s.regionBytes h.1 (4096 * i) 4096)) ++
  (s.mappedLayers.map fun l => (0xFFFFFFFF, l, (s.journal l).bytes l)) ++
  ((List.range 255).map fun i => (0xFFFFFFFD, i + 1, p8 (s.rd (Obj.fbState (i + 1))) ++ p32 (s.rd (Obj.fbQuiet (i + 1))))) ++
  [(0xFFFFFFFF, 0, p64 s.watchWord)] ++
  modeKeys.map fun k => (0xFFFFFFFE, k, objBytes k (s.rd k))

/-- Send the whole step state to a member, then state done with the count of parts and the layer digests. -/
def State.sendState (s : State) (dst : Nat) : State :=
  let n := s.rd Obj.lastCommittedStep
  let ps := s.stateParts
  let s := ps.zipIdx.foldl (fun s ((h, k, b), i) => s.send dst (s.msg 0x22 0 n i b.length (p32 h ++ p32 k ++ b))) s
  let s := s.send dst (s.msg 0x23 0 n ps.length s.mappedLayers.length (p32 ps.length ++ s.mappedLayers.flatMap fun l => p64 (s.journal l).digest))
  { s with coll := { s.coll with served := setIns s.coll.served dst } }

/-- Take one part of a transfer. -/
def State.takePart (s : State) (h k : Nat) (b : Bytes) : State :=
  if h = 0xFFFFFFFF then
    if k = 0 then
      let x := unle (b.take 8)
      (((s.wr Obj.spikeMu (x >>> 48)).wr Obj.spikeDev (x >>> 32 % 65536)).wr Obj.spikeSeen (x >>> 16 % 65536)).wr Obj.spikeRun (x % 65536)
    else s.setJournal k (journalOf (b.take 64))
  else if h = 0xFFFFFFFD then (s.wr (Obj.fbState k) (unle (b.take 1))).wr (Obj.fbQuiet k) (unle ((b.drop 1).take 4))
  else if h = 0xFFFFFFFE then s.wr k (unle b)
  else s.regionWrite h (4096 * k) b

/-- Is a message of a transfer early: of the compare step whose verdict has not been formed here yet (R353)? -/
def State.isEarly (s : State) (m : Msg) : Bool :=
  s.coll.transfer.isNone && (match s.coll.compare with
    | some c => c.step == m.step && !c.told
    | none => false)

/-- MSG_STATE_PART: from the donor of the transfer in progress, or from a member whose step is above this module's own, which starts one. One
that comes before this module's own verdict is kept for it (R353). -/
def State.msgStatePart (s : State) (m : Msg) : State :=
  let own : Bool := match s.coll.transfer with
    | some t => t.donor == m.src && t.step == m.step
    | none => decide (s.rd Obj.lastCommittedStep < m.step) && s.cmd.stepNow.isNone
  if ¬ s.fromMember m ∨ s.rd Obj.groupState = 5 then s
  else if s.isEarly m then { s with coll := { s.coll with early := s.coll.early ++ [m] } }
  else if ¬ own then s
  else
    let t : Transfer := s.coll.transfer.getD { donor := m.src, step := m.step, parts := 0, repair := false }
    let s := { s with coll := { s.coll with transfer := some { t with parts := t.parts + 1 } } }
    s.takePart (unle (m.body.take 4)) (unle ((m.body.drop 4).take 4)) (m.body.drop 8)

def execMsgStatePart (m : Msg) (s : State) : Host.Outcome State Fault Refusal := .next (s.msgStatePart { m with mtype := 0x22 })

/-- Check a layer as in R226 against the donor's digest, and rebuild its working copy; the Bool says whether it matched. -/
def State.checkLayer (s : State) (l digest : Nat) : State × Bool :=
  let j := s.journal l
  let ok := (s.tilesOf l).zipIdx.all fun ((_, g, t), i) => (s.tileTags g t l i j.tagStep j.tagStep).isSome
  if ok ∧ s.digestOf l = digest then (s.rebuildWc l, true) else (s.layerFault l, false)

/-- MSG_STATE_DONE: every part has come; the layers are checked against the donor's digests, and the module stands at the donor's step. A
repair is no longer odd; a joiner or a member that was behind raises join-transfer (R353, R497). -/
def State.msgStateDone (s : State) (m : Msg) : State :=
  match s.coll.transfer with
  | none => if s.fromMember m ∧ s.isEarly m then { s with coll := { s.coll with early := s.coll.early ++ [m] } } else s
  | some t =>
    if ¬ s.fromMember m ∨ t.donor ≠ m.src ∨ t.step ≠ m.step ∨ t.parts < unle (m.body.take 4) then s
    else
      let ds := u64s (m.body.drop 4) s.mappedLayers.length
      let (s, bad) := (s.mappedLayers.zip ds).foldl (fun (a : State × List Nat) (l, d) =>
        let (s, ok) := a.1.checkLayer l d
        (s, if ok then a.2 else a.2 ++ [l])) (s, [])
      let s := { s with coll := { s.coll with transfer := none } }
      if bad ≠ [] then bad.foldl (fun s l => s.raise Ev.restoreFault [p8 l]) s
      else
        let s := ((s.wr Obj.lastCommittedStep t.step).wr Obj.modeEpoch m.epoch).applyShape
        let s := { s with coll := { s.coll with stateLost := false } }
        let s := (s.wr Obj.stepDigest s.stepDigestNow).wr Obj.stepDigestStep t.step
        if t.repair then s else s.raise Ev.joinTransfer [p16 t.donor, p64 t.step]

def execMsgStateDone (m : Msg) (s : State) : Host.Outcome State Fault Refusal := .next (s.msgStateDone { m with mtype := 0x23 })

/-! ### Capability frames (R329, R330, Table 12.1) -/

/-- The body of this module's capability frame. -/
def State.capBody (s : State) : Bytes :=
  p8 1 ++ p8 (s.rd Obj.numericsLevel) ++ p16 (s.rd Obj.dictVersion) ++ p32 (s.rd Obj.fwVersion) ++ p32 (s.rd Obj.shapeDigest) ++
    p32 (s.rd Obj.modeEpoch) ++ p32 s.modeCrc ++ p64 (s.rd Obj.lastCommittedStep) ++
    p8 (s.rd Obj.twinEnable + (if s.rd Obj.groupState = 5 then 2 else 0) + (if s.rd Obj.groupState = 4 then 4 else 0) +
      (if s.coll.stateLost then 8 else 0)) ++ [0, 0, 0]

def peerOf (b : Bytes) (now : Nat) : Peer :=
  let f (o n : Nat) : Nat := unle ((b.drop o).take n)
  { level := f 0 1, numerics := f 1 1, dictVersion := f 2 2, fwVersion := f 4 4, shape := f 8 4, epoch := f 12 4, digest := f 16 4, step := f 20 8,
    flags := f 28 1, tick := now }

/-- Does a member's frame let this module become active (R330)? -/
def State.peerFits (s : State) (m : Nat) : Bool :=
  match s.coll.peers.find m with
  | some p => p.numerics == s.rd Obj.numericsLevel && p.shape == s.rd Obj.shapeDigest && p.epoch == s.rd Obj.modeEpoch && p.digest == s.modeCrc &&
      p.flags / 2 % 4 == 0
  | none => false

/-- A joining member that holds a fitting frame from every other becomes active, unless a transfer is still due to it (R330, R497). -/
def State.tryActive (s : State) : State :=
  let behind := s.others.any fun m => match s.coll.peers.find m with
    | some p => decide (s.rd Obj.lastCommittedStep < p.step)
    | none => false
  if s.rd Obj.groupState = 1 ∧ s.others.all s.peerFits ∧ ¬ behind ∧ s.coll.transfer.isNone then
    { s.wr Obj.groupState 2 with coll := { s.coll with restart := true } }
  else s

/-- Send a capability frame to every other member, if one is due (R329): the first since the joining began, one every second while joining,
and one after a change of a field. -/
def State.capFrame (s : State) : State :=
  let body := s.capBody
  let due : Bool := match s.coll.capAt with
    | none => true
    | some t => (s.rd Obj.groupState == 1 && decide (1000 * ms ≤ s.now - t)) || body != s.coll.capLast
  if s.bitmap = 0 ∨ ¬ due then s
  else
    let s := s.sendAll (s.msg 0x01 0 (s.rd Obj.lastCommittedStep) 0 32 body)
    { s with coll := { s.coll with capAt := some s.now, capLast := body } }

/-- CAPABILITY_SEND: a frame that is due goes out; a change of this module's own fields may make the frames it holds fit (R330). -/
def execCapabilitySend (s : State) : Host.Outcome State Fault Refusal := .next s.capFrame.tryActive

/-- Levels and versions of a frame: level-mismatch for another numerics level, fw-mixed once, the lowest collective level. -/
def State.capNotes (s : State) (m : Nat) (p : Peer) : State :=
  let s := if p.numerics ≠ s.rd Obj.numericsLevel then s.raiseOnce Ev.levelMismatch m [p16 m] else s.endEpisode Ev.levelMismatch m
  let s := if p.fwVersion ≠ s.rd Obj.fwVersion then (s.raiseOnce Ev.fwMixed 0 []).wr Obj.fwMixed 1 else s
  if p.level < s.rd Obj.collLevel then s.wr Obj.collLevel p.level else s

/-- Members whose last committed step a member knows: pace flits, or capability frames. -/
def State.stepOfMember (s : State) (m : Nat) : Nat :=
  if m = s.ownModule then s.rd Obj.lastCommittedStep
  else max (((s.paceOf m).map PaceEnt.step).getD 0) (((s.coll.peers.find m).map Peer.step).getD 0)

/-- Joiners that are behind are brought to state at a boundary by the anchor (R497). -/
def State.joinTransfers (s : State) : State :=
  let n := s.rd Obj.lastCommittedStep
  if s.ownModule ≠ s.anchor ∨ s.cmd.stepNow.isSome ∨ n = 0 then s
  else (s.others.filter fun m => !s.coll.served.contains m && (match s.coll.peers.find m with
    | some p => decide (p.step < n) && p.flags / 2 % 4 == 0
    | none => false)).foldl (fun s m => s.sendState m) s

/-! ### Member failure and views (R343, R344, R350, R351) -/

/-- Has a member's pace flit been accepted within fail_detect_ms? -/
def State.paceFresh (s : State) (m : Nat) : Bool :=
  match s.paceOf m with
  | some e => decide (s.now - e.tick < s.rd Obj.failDetectMs * ms)
  | none => false

/-- The members this module can reach, itself included. -/
def State.ownView (s : State) : Nat :=
  (s.members.filter fun m => m == s.ownModule || (s.paceFresh m && !s.coll.failed.contains m)).foldl (fun b m => b ||| 2 ^ m) 0

/-- The step that messages of the view procedure belong to: the one after the highest that any member has committed, so that every member,
at most one step apart, takes them as of its current or its next step (R332; DEDUCED, log entry 131). -/
def State.groupStep (s : State) : Nat := s.members.foldl (fun t m => max t (s.stepOfMember m)) 0 + 1

/-- Send the own view to every member it names. -/
def State.sendView (s : State) (view : Nat) : State :=
  (membersOf view).foldl (fun s m => if m = s.ownModule then s else s.send m (s.msg 0x02 0 s.groupStep 0 64 (le 64 view))) s

/-- Act on a message of the view procedure, of the current step or the next one (R332). For the next one the epoch that will be in force is
the present one, with its digest, or the one after it, whose digest is not known yet. -/
def State.onGroup (s : State) (m : Msg) (f : State → State) : State :=
  if ¬ s.fromMember m then s
  else if m.step = s.abortTarget then s.onMode m f
  else if m.step = s.abortTarget + 1 ∧ (s.sameMode m ∨ m.epoch = (s.rd Obj.modeEpoch + 1) % 2 ^ 32) then f s
  else s

/-- The step state is brought level: the lowest-ranked member that holds the highest step serves every member below it (R344, R505). -/
def State.levelUp (s : State) : State :=
  let top := s.members.foldl (fun t m => max t (s.stepOfMember m)) 0
  let holders := s.members.filter fun m => s.stepOfMember m == top
  if holders.head? ≠ some s.ownModule then s
  else (s.others.filter fun m => decide (s.stepOfMember m < top) && !s.coll.served.contains m).foldl (fun s m => s.sendState m) s

/-- The lowest-ranked member, none that has failed, that holds the verdict's digest. -/
def State.donorOf (s : State) : Option Nat :=
  match s.coll.compare with
  | some c => ((c.copies.filter fun x => x.2.1 == c.own && s.isMember x.1 && !s.coll.failed.contains x.1).map Prod.fst).head?
  | none => none

/-- The donor of a transfer to this module fails: a repair starts again from the next-ranked member that holds the digest, and ends where none
is left; another transfer is dropped (R355). -/
def State.donorFailed (s : State) (m : Nat) : State :=
  match s.coll.transfer with
  | none => s
  | some t =>
    if t.donor ≠ m then s
    else
      { s with coll := { s.coll with transfer :=
          if t.repair then s.donorOf.map fun d => { t with donor := d, parts := 0 } else none } }

/-- A member is failed: the step aborts with cause 0x94, and the view procedure starts, or takes it in where it runs already (R344). -/
def State.memberFailed (s : State) (m : Nat) : State :=
  if s.rd Obj.groupState ≠ 2 ∧ s.rd Obj.groupState ≠ 3 ∨ s.coll.failed.contains m then s
  else
    let s := ({ s with coll := { s.coll with failed := setIns s.coll.failed m } }).donorFailed m
    match s.coll.view with
    | some v =>
      let own := s.ownView
      ({ s with coll := { s.coll with view := some { v with own := own } } }).sendView own
    | none =>
      let s := (s.abortStep 0x94).countSat Obj.memberFailures 1
      let own := s.ownView
      let v : ViewRun := { start := s.now, own := own, shape := s.bitmap }
      ({ s with coll := { s.coll with view := some v } }).sendView own

/-- MSG_CAPABILITY: taken; it may let in a joiner, or make its sender a failed member (R330, R343). -/
def State.msgCapability (s : State) (m : Msg) : State :=
  if ¬ (m.pod = s.rd Obj.planPod ∧ m.group = s.rd Obj.groupId ∧ s.isMember m.src ∧ m.src ≠ s.ownModule) then s
  else
    let p := peerOf m.body s.now
    let s := { s with coll := { s.coll with peers := s.coll.peers.insert m.src p } }
    let s := s.capNotes m.src p
    if p.flags / 2 % 2 = 1 ∨ p.flags / 8 % 2 = 1 then s.memberFailed m.src
    else s.joinTransfers.tryActive

def execMsgCapability (m : Msg) (s : State) : Host.Outcome State Fault Refusal := .next (s.msgCapability m)

/-- JOIN_WAIT: not every member has answered after 10 s; once, with the members missing. -/
def State.joinWait (s : State) : State :=
  let missing := s.others.filter fun m => (s.coll.peers.find m).isNone
  if s.rd Obj.groupState ≠ 1 ∨ s.coll.joinTold ∨ missing = [] ∨ s.now - s.coll.joinFrom < 10000 * ms then s
  else ({ s with coll := { s.coll with joinTold := true } }).raise Ev.joinWait (missing.map p16)

def execJoinWait (s : State) : Host.Outcome State Fault Refusal := .next s.joinWait

/-- MEMBER_FAIL_DETECT: no pace flit of the member for fail_detect_ms. -/
def State.failDetect (s : State) (m : Nat) : State := if s.isMember m ∧ m ≠ s.ownModule ∧ ¬ s.paceFresh m then s.memberFailed m else s

def execMemberFailDetect (m : Fin 512) (s : State) : Host.Outcome State Fault Refusal := .next (s.failDetect m)

/-- Has a member sent no data of a reduce for member_wait_ms since the first contribution to it came here (R343)? -/
def State.dataLate (s : State) (m : Nat) : Bool :=
  s.coll.jobs.any fun x => x.2.op == 1 && x.2.chunks.all (fun c => !hasBit c.2.ranks (s.rankOf m)) && x.2.chunks.any fun c =>
    match c.2.firstAt with
    | some f => decide (s.rd Obj.memberWaitMs * ms ≤ s.now - f)
    | none => false

/-- MEMBER_TIMEOUT: a live member that sends no data of a reduce is failed too, with member-timeout (R343). -/
def State.memberTimeout (s : State) (m : Nat) : State :=
  if s.isMember m ∧ m ≠ s.ownModule ∧ s.dataLate m ∧ ¬ s.coll.failed.contains m then (s.raise Ev.memberTimeout [p16 m]).memberFailed m else s

def execMemberTimeout (m : Fin 512) (s : State) : Host.Outcome State Fault Refusal := .next (s.memberTimeout m)

/-- The view of another module arrives (R350). -/
def State.viewFrom (s : State) (m : Msg) : State :=
  s.onGroup m fun s => { s with coll := { s.coll with views := s.coll.views.insert m.src (unle (m.body.take 64)) } }

def execMsgView (m : Msg) (s : State) : Host.Outcome State Fault Refusal := .next (s.viewFrom m)

/-- This half stops and holds its state (R350). -/
def State.goMinority (s : State) : State :=
  let s := { s with coll := { s.coll with view := none, views := [], failed := [] } }
  (s.wr Obj.groupState 4).raise Ev.minority []

/-- Members of this group whose step digest differs from the verdict's. -/
def State.oddOnes (s : State) : List Nat :=
  match s.coll.compare with
  | some c => (c.copies.filter fun x => x.2.1 != c.own && s.isMember x.1).map Prod.fst
  | none => []

/-- No majority, too few copies or no donor: abort, digest-mismatch with the last matched checkpoint (R353). -/
def State.rollbackVerdict (s : State) : State :=
  let s := ((s.wr Obj.lastVerdict 3).countSat Obj.digestRepairs 1).abortStep 0x95
  s.raise Ev.digestMismatch [p32 (s.rd Obj.matchedCkpt)]

/-- A repair of the last committed step goes on after a failure: the next-ranked member that holds the digest donates; with none left the
group follows the no-majority case (R355). -/
def State.donateAgain (s : State) : State :=
  match s.coll.compare with
  | some c =>
    if ¬ c.told ∨ s.rd Obj.lastVerdict ≠ 2 ∨ s.rd Obj.lastCommittedStep ≠ c.step ∨ s.oddOnes = [] then s
    else match s.donorOf with
      | some d => if d = s.ownModule then (s.oddOnes.filter fun m => !s.coll.served.contains m).foldl (fun s m => s.sendState m) s else s
      | none => s.rollbackVerdict
  | none => s

/-- The group shrinks to a set at the boundary after the abort: ranks, anchor and shape anew, the next epoch, group-shrunk (R344). -/
def State.shrink (s : State) (set : Nat) : State :=
  let gone := s.members.filter fun m => set >>> m % 2 == 0
  let s := ((s.wr Obj.groupMembers set).wr Obj.modeEpoch (s.rd Obj.modeEpoch + 1)).applyShape
  let s := { s with
    coll := { s.coll with
      view := none, views := [], failed := [], served := [], peers := (s.coll.peers.filter fun x => !gone.contains x.1)
      compare := s.coll.compare.map fun (c : Compare) => { c with copies := c.copies.filter fun x => !gone.contains x.1 } } }
  let s := s.raise Ev.groupShrunk (gone.map p16)
  s.levelUp.donateAgain

/-- Adopt a survivors set that names this module, of a group of the given shape (R350, R351). -/
def State.adoptIn (s : State) (set shape : Nat) : State :=
  if set >>> s.ownModule % 2 = 0 then s
  else
    let k := (membersOf (set &&& shape)).length
    let n := (membersOf shape).length
    let anchor := (membersOf shape).headD 0
    if n < 2 * k ∨ (n = 2 * k ∧ set >>> anchor % 2 = 1) then s.shrink (set &&& shape) else s.goMinority

/-- Adopt the first survivors set that names this module while its view procedure runs. -/
def State.adopt (s : State) (set : Nat) : State :=
  match s.coll.view with
  | none => s
  | some v => s.adoptIn set v.shape

/-- A survivors set reaches a module that has not found the failure itself: its step aborts first, as on any member failure (R344, R351). A
set that removes no member is an old one. -/
def State.adoptUnseen (s : State) (set : Nat) : State :=
  if s.rd Obj.groupState ≠ 2 ∧ s.rd Obj.groupState ≠ 3 ∨ set >>> s.ownModule % 2 = 0 ∨ s.members.all (fun x => set >>> x % 2 == 1) then s
  else ((s.abortStep 0x94).countSat Obj.memberFailures 1).adoptIn set s.bitmap

def execMsgSurvivors (m : Msg) (s : State) : Host.Outcome State Fault Refusal :=
  let set := unle (m.body.take 64)
  .next (s.onGroup m fun s => if s.coll.view.isSome then s.adopt set else s.adoptUnseen set)

/-- VIEW_LEADER_DECIDE: after 2 × fail_detect_ms the lowest module of its own view intersects the views it has and sends the result. -/
def State.leaderDecide (s : State) : State :=
  match s.coll.view with
  | none => s
  | some v =>
    if (membersOf v.own).head? ≠ some s.ownModule ∨ s.now - v.start < 2 * s.rd Obj.failDetectMs * ms then s
    else
      let set := (s.coll.views.filter fun x => v.own >>> x.1 % 2 == 1).foldl (fun b x => b &&& x.2) v.own
      let s := (membersOf set).foldl (fun s m => if m = s.ownModule then s else s.send m (s.msg 0x03 0 s.groupStep 0 64 (le 64 set))) s
      s.adopt set

def execViewLeaderDecide (s : State) : Host.Outcome State Fault Refusal := .next s.leaderDecide

/-- VIEW_MINORITY_TIMEOUT: named in no survivors message within 4 × fail_detect_ms. -/
def State.viewTimeout (s : State) : State :=
  match s.coll.view with
  | none => s
  | some v => if s.now - v.start < 4 * s.rd Obj.failDetectMs * ms then s else s.goMinority

def execViewMinorityTimeout (s : State) : Host.Outcome State Fault Refusal := .next s.viewTimeout

/-- MSG_ABORT: a member aborts its step; this one aborts the same step, or the next where it has committed that one already, and the members
that are behind are brought level (R505). One of its next step waits for it (R332). -/
def State.msgAbort (s : State) (m : Msg) : State :=
  if s.fromMember m ∧ m.step = s.rd Obj.lastCommittedStep ∧ m.step ≠ s.abortTarget then (s.abortStep (abortCause m)).levelUp
  else s.collMsg m

def execMsgAbort (m : Msg) (s : State) : Host.Outcome State Fault Refusal :=
  .next (s.msgAbort { m with mtype := 0x04, step := unle (m.body.take 8) })

/-! ### Mode records (R346 to R348) -/

/-- May the inactive slot be activated: staged, and not older than the active image (R449, reason 0x0A of Table 16.3)? -/
def State.mayActivate (s : State) : Bool :=
  let n := 1 - s.rd Obj.activeSlot
  s.rd (Obj.slotState n) == 2 && decide (s.rd Obj.fwVersion ≤ s.rd (Obj.slotFwVersion n) ∧ s.rd Obj.dictVersion ≤ s.rd (Obj.slotDictVersion n))

/-- Check of a mode record: the lowest failing reason, 0xF9 (R347) or 0xFA (R449), or 0. -/
def State.modeCheck (s : State) (r : Rec) : Nat :=
  let ok : Bool := match Rec.op r with
    | 0 => Rec.w r 1 63 32 == s.rd Obj.modeEpoch + 1 && decide (s.cmd.stepNow.getD (s.rd Obj.lastCommittedStep) < Rec.w r 2 63 0) &&
        s.coll.prepare.isNone && !(s.running.any fun p => Rec.kind p.2.raw == 10 && Rec.op p.2.raw == 0 && !p.2.unit)
    | 1 => true
    | _ => false
  bif !ok then 0xF9 else if Rec.op r = 0 ∧ Rec.w r 0 59 59 = 1 ∧ ¬ s.mayActivate then 0xFA else 0

/-- MODE_PREPARE: the values staged at the record's dispatch are prepared for the boundary before the step; the record waits for that
boundary (R347). -/
def State.modePrepare (s : State) (w : Nat) (e : QEntry) : State :=
  if s.coll.prepare.isSome then s
  else
    let p : Prepare := { win := w, seq := e.seq, epoch := Rec.w e.raw 1 63 32, step := Rec.w e.raw 2 63 0, fwActivate := Rec.w e.raw 0 59 59 == 1 }
    let key := recKey w e.seq
    let s := { s with prep := (s.coll.snaps.find key).getD s.staged, coll := { s.coll with prepare := some p, snaps := s.coll.snaps.erase key } }
    let s := if p.fwActivate then (s.wr Obj.actMode 1).wr Obj.actStep p.step else s
    (s.wr Obj.prepEpoch p.epoch).wr Obj.prepStep p.step

def execModePrepare (w : Fin 8) (q : Nat) (s : State) : Host.Outcome State Fault Refusal := onUnit w q 10 0 s fun e => s.modePrepare w e

/-- A pending prepare ends with a status. -/
def State.endPrepare (s : State) (status : Nat) : State :=
  match s.coll.prepare with
  | none => s
  | some p =>
    let s := { s with prep := [], coll := { s.coll with prepare := none } }
    let s := if p.fwActivate then (s.wr Obj.actMode 0).wr Obj.actStep 0 else s
    ((s.wr Obj.prepEpoch 0).wr Obj.prepStep 0).unitDone p.win p.seq status 0

/-- MODE_CANCEL: a pending prepare is cleared; its record completes as cancelled. -/
def execModeCancel (w : Fin 8) (q : Nat) (s : State) : Host.Outcome State Fault Refusal :=
  onUnit w q 10 1 s fun e => (s.endPrepare 0x2A).unitDone w e.seq 0 0

/-! ### Replica digests (R352 to R355) -/

/-- A twin's step digest and mode digest. -/
abbrev TwinPair := Nat × Nat

/-- The twins' digests reported so far: the own twin's and those that members have passed on. -/
def Compare.twins (c : Compare) : List TwinPair := c.twin.toList ++ c.copies.filterMap fun x => x.2.2

/-- Is comparison with the twin on (R354): enabled, not late, and no twin's mode digest differs? -/
def State.twinOn (s : State) (c : Compare) : Bool :=
  s.rd Obj.twinEnable == 1 && !c.twinLate && c.twins.all fun t => t.2 == s.modeCrc

/-- The body of a digest message: own digest, twin's digest, twin-present flag, twin's mode digest. -/
def digestBody (own : Nat) (t : Option TwinPair) : Bytes :=
  let (d, md) := t.getD (0, 0)
  p64 own ++ p64 d ++ p8 (if t.isSome then 1 else 0) ++ p32 md

/-- Send this module's digest, with its twin's once that has come, to every other member (R352). -/
def State.sendDigest (s : State) (step own : Nat) (t : Option TwinPair) : State := s.sendAll (s.msg 0x20 0 step 0 21 (digestBody own t))

/-- The twin's pair in a twin digest message, and in a digest message where its flag is set. -/
def twinOf (m : Msg) : Option TwinPair :=
  if m.mtype = 0x21 then some (unle (m.body.take 8), unle ((m.body.drop 8).take 4))
  else if unle ((m.body.drop 16).take 1) = 1 then some (unle ((m.body.drop 8).take 8), unle ((m.body.drop 17).take 4))
  else none

/-- What a twin's pair says beside its digest: with other settings the comparison is suspended with twin-mode; a late digest that differs from
`v` is handled at the next boundary (R354). -/
def State.noteTwin (s : State) (step v : Nat) (late : Bool) (t : TwinPair) : State :=
  let s := if t.2 ≠ s.modeCrc then s.raiseOnce Ev.twinMode 0 [] else s.endEpisode Ev.twinMode 0
  if late ∧ t.2 = s.modeCrc ∧ t.1 ≠ v ∧ s.rd Obj.twinEnable = 1 then { s with coll := { s.coll with lateTwin := some step } } else s

/-- A digest message of a member on the compare in progress. -/
def State.takeDigest (s : State) (m : Msg) : State :=
  match s.coll.compare with
  | none => s
  | some c =>
    let known : Bool := match c.copies.find m.src with
      | some (_, t) => t.isSome
      | none => false
    let s := { s with coll := { s.coll with compare := some { c with copies := c.copies.insert m.src (unle (m.body.take 8), twinOf m) } } }
    match twinOf m with
    | some t => if known then s else s.noteTwin c.step c.own c.twinLate t
    | none => s

/-- The twin's digests on the compare in progress; they are passed on to every other member (R352). -/
def State.takeTwin (s : State) (m : Msg) : State :=
  match s.coll.compare, twinOf m with
  | some c, some t =>
    let s := { s with coll := { s.coll with compare := some { c with twin := some t } } }
    let own := ((c.copies.find s.ownModule).map Prod.fst).getD c.own
    (s.noteTwin c.step c.own c.twinLate t).sendDigest c.step own (some t)
  | _, _ => s

/-- A twin's digest of an earlier compare step: one that differs from that step's verdict is handled at the next boundary (R354). What comes
from the own twin is passed on. -/
def State.overdueTwin (s : State) (m : Msg) : State :=
  match s.coll.overdue.find m.step, twinOf m with
  | some v, some t =>
    let s := s.noteTwin m.step v true t
    if m.mtype = 0x21 then
      ({ s with coll := { s.coll with overdue := s.coll.overdue.erase m.step } }).sendDigest m.step v (some t)
    else s
  | _, _ => s

/-- A digest message: of the compare in progress, kept until the step's digest is formed here, or late. -/
def State.digestMsg (s : State) (m : Msg) : State :=
  match s.coll.compare with
  | some c =>
    if m.step = c.step then (if m.mtype = 0x21 then s.takeTwin m else s.takeDigest m)
    else if c.step < m.step then { s with coll := { s.coll with digests := s.coll.digests ++ [m] } }
    else s.overdueTwin m
  | none => { s with coll := { s.coll with digests := s.coll.digests ++ [m] } }

def execMsgDigest (m : Msg) (s : State) : Host.Outcome State Fault Refusal :=
  .next (if s.fromMember m then s.digestMsg { m with mtype := 0x20 } else s)

/-- MSG_TWIN_DIGEST: from the module of the same number in the other pod. -/
def execMsgTwinDigest (m : Msg) (s : State) : Host.Outcome State Fault Refusal :=
  .next (if m.pod ≠ s.rd Obj.planPod ∧ m.src = s.ownModule ∧ s.bitmap ≠ 0 then s.digestMsg { m with mtype := 0x21 } else s)

/-- The digest of a compare step has been formed, for the first time or again after a rollback: it goes to the twin and to every other
member (R352). -/
def State.compareStart (s : State) : State :=
  let n := s.rd Obj.stepDigestStep
  let due := s.coll.formed && s.bitmap != 0 && n != 0 && n % s.rd Obj.digestInterval == 0
  let s := { s with coll := { s.coll with formed := false } }
  if ¬ due then s
  else
    let d := s.rd Obj.stepDigest
    let c : Compare := { step := n, start := s.now, own := d, copies := [(s.ownModule, (d, none))], twin := none, twinLate := false, told := false }
    let ms := s.coll.digests
    let overdue := match s.coll.compare with
      | some o => if o.twinLate then s.coll.overdue.insert o.step o.own else s.coll.overdue
      | none => s.coll.overdue
    let s := { s with coll := { s.coll with compare := some c, digests := [], overdue := overdue } }
    let s := if s.rd Obj.twinEnable = 1 then
        s.sendPod (1 - s.rd Obj.planPod) s.ownModule { s.msg 0x21 0 n 0 12 (p64 d ++ p32 s.modeCrc) with rank := 0xFFFF } else s
    let s := s.sendDigest n d none
    ms.foldl (fun s m => s.digestMsg m) s

/-- Are the twin digests in: the own twin's and, through them, every other member's twin's? -/
def State.twinsIn (s : State) (c : Compare) : Bool :=
  c.twin.isSome && s.others.all fun m => match c.copies.find m with
    | some (_, t) => t.isSome
    | none => false

/-- TWIN_WAIT: a twin digest is missing after twin_wait_ms; the comparison with the twin is suspended and twin-late raised. -/
def State.twinWait (s : State) : State :=
  match s.coll.compare with
  | none => s
  | some c =>
    if s.rd Obj.twinEnable = 0 ∨ s.twinsIn c ∨ c.twinLate ∨ c.told ∨ s.now - c.start < s.rd Obj.twinWaitMs * ms then s
    else ({ s with coll := { s.coll with compare := some { c with twinLate := true } } }).raise Ev.twinLate []

def execTwinWait (s : State) : Host.Outcome State Fault Refusal := .next s.twinWait

/-- The copies of the step: the group's digests and, where the comparison with the twin is on, the twin digests reported. -/
def State.copiesOf (s : State) (c : Compare) : List Nat :=
  let own := (c.copies.filter fun x => s.isMember x.1).map fun x => x.2.1
  if s.twinOn c then
    own ++ ((c.copies.filter fun x => s.isMember x.1 && x.1 != s.ownModule).filterMap fun x => x.2.2.map Prod.fst) ++
      (c.twin.map fun t => [t.1]).getD []
  else own

/-- Are the copies in: from every member, with every twin's where the comparison is on? -/
def State.copiesIn (s : State) (c : Compare) : Bool :=
  s.others.all (fun m => (c.copies.find m).isSome) &&
  (!s.twinOn c || s.twinsIn c)

/-- The value that more than half of the copies hold. -/
def majority (cs : List Nat) : Option Nat := cs.find? fun v => decide (cs.length < 2 * (cs.filter (· == v)).length)

/-- This member is odd: it takes the transfer, what has come of it already included, or retires at its third repair within 10^6 steps (R355). -/
def State.beOdd (s : State) (step donor : Nat) : State :=
  let past := s.coll.repairs.filter fun r => decide (step < r + 1000000)
  let s := ({ s with coll := { s.coll with repairs := past ++ [step] } }).wr Obj.suspects (min 3 (past.length + 1))
  if 3 ≤ past.length + 1 then
    ((s.wr Obj.groupState 5).raise Ev.moduleRetired []).fieldEntry 5 [s.ownModule]
  else
    let ms := s.coll.early
    let s := { s with coll := { s.coll with early := [], transfer := some { donor := donor, step := step, parts := 0, repair := true } } }
    ms.foldl (fun s m => if m.mtype = 0x22 then s.msgStatePart m else s.msgStateDone m) s

/-- The verdict on a compare step (R353). -/
def State.verdict (s : State) (c : Compare) : State :=
  let cs := s.copiesOf c
  let v := majority cs
  let odd := (c.copies.filter fun x => some x.2.1 != v && s.isMember x.1).map Prod.fst
  let donor := ((c.copies.filter fun x => some x.2.1 == v && s.isMember x.1).map Prod.fst).head?
  let s := { s with coll := { s.coll with compare := some { c with told := true, own := v.getD c.own } } }
  let s := (s.wr Obj.lastComparedStep c.step).wr Obj.oddMembers odd.length
  match v, donor with
  | some _, some d =>
    if odd = [] ∧ (cs.all (fun x => some x == v) ∨ 3 ≤ cs.length) then
      let s := s.wr Obj.lastVerdict 1
      (match ckptEntry fun k => s.rd (Obj.ckptState k) == 2 && s.rd (Obj.ckptStep k) == c.step with
       | some k => s.wr Obj.matchedCkpt (s.rd (Obj.ckptHandle k))
       | none => s)
    else if cs.length < 3 then s.rollbackVerdict
    else
      let s := ((s.wr Obj.lastVerdict 2).countSat Obj.digestRepairs 1).abortStep 0x95
      if odd.contains s.ownModule then s.beOdd c.step d
      else if d = s.ownModule then odd.foldl (fun s m => s.sendState m) s
      else s
  | _, _ => s.rollbackVerdict

/-- DIGEST_VERDICT: once the copies are in. -/
def State.digestVerdict (s : State) : State :=
  match s.coll.compare with
  | none => s
  | some c =>
    if c.told ∨ ¬ s.copiesIn c then s
    else
      let s := s.verdict c
      { s with coll := { s.coll with early := [] } }

def execDigestVerdict (s : State) : Host.Outcome State Fault Refusal := .next s.digestVerdict

/-! ### Commits that form a step digest (R220, R26) -/

/-- LAYER_COMMIT: the layer commits; chunks that waited for its gradient region land, and a digest formed goes out. -/
def execLayerCommit (l : Nat) (s : State) : Host.Outcome State Fault Refusal := .next (s.layerCommit l).landHeld.compareStart

/-- UPDATE_PASS_START: a pass starts or goes on; a recovery that goes on may commit its layer. -/
def execUpdatePassStart (l : Nat) (n : Nat) (ahead : List Nat) (s : State) : Host.Outcome State Fault Refusal :=
  .next (s.passStart l n ahead).landHeld.compareStart

/-- UPDATE_WATCHDOG: restart and recovery, with the commits they bring. -/
def execUpdateWatchdog (s : State) : Host.Outcome State Fault Refusal := .next s.updateWatchdog.landHeld.compareStart

end Sys2Proof.Machine
end

