-- ==== Sys2Proof/Machine/Sequencer.lean ====
section
/-! DEFINITION. The sequencer (chapter 7): which head record dispatches (R180 to R183), the header checks (R189) and the checks of each
kind (R74 and the tables of its chapter), skipped records (R73), retirement (R180, R188), and the report, step and audit records
(R191 to R193). -/
namespace Sys2Proof.Machine

/-! ### Dependencies, energy classes and promotion (R180, R181, R183) -/

/-- Has record `q` of window `w` retired? It has been accepted, and no record at or before it is held in the queue (R181). -/
def State.depRetired (s : State) (w q : Nat) : Bool := before q (s.win w).e && (s.win w).queue.all fun e => after e.seq q

/-- The head record of a window: the first accepted one not yet dispatched. -/
def State.head (s : State) (w : Nat) : Option QEntry := (s.win w).queue.find? fun e => !e.disp

/-- Does the head record `f` of a window name, by dep_en, record `e` of window `w` or a later one? -/
def QEntry.waitsFor (f : QEntry) (w : Nat) (e : QEntry) : Bool :=
  Rec.depEn f.raw && Rec.depWin f.raw == w && (Rec.depSeq f.raw == e.seq || after (Rec.depSeq f.raw) e.seq)

/-- The class at which a head record runs: its own, or that of a head record that waits on it, if that is more critical (R183). A
waiting record may itself be promoted; eight windows bound the chain. -/
def State.runClass (s : State) (w : Nat) (e : QEntry) : Nat → Nat
  | 0 => Rec.eclass e.raw
  | n + 1 => (List.range 8).foldl (fun c v => match s.head v with
      | some f => if v ≠ w ∧ f.waitsFor w e then min c (s.runClass v f n) else c
      | none => c) (Rec.eclass e.raw)

/-- Is the sequencer still acting on a dispatched record whose effect the checks of the next one read: a cast-control or bar-arm
record, a ring-config, a map or update, a profile, an engine configuration, a mode record? -/
def State.sequencing (s : State) : Bool :=
  s.running.any fun p =>
    let r := p.2.raw
    let k := Rec.kind r
    !p.2.unit && (k == 3 || (k == 4 && Rec.op r == 3) || (k == 5 && Rec.op r == 4) || (k == 7 && Rec.op r == 0) ||
      (k == 7 && Rec.op r == 1 && !s.upd.arms.any (fun a => a.win == p.1 && a.seq == p.2.seq)) ||
      (k == 8 && (Rec.op r == 2 || Rec.op r == 3) && !p.2.skip) ||
      (k == 10 && !(match s.coll.prepare with
        | some m => m.win == p.1 && m.seq == p.2.seq
        | none => false)))

/-- May records be dispatched at all: no activation holds dispatch (R450), the module is neither parked nor in hold (R370, R383)? -/
def State.mayDispatch (s : State) : Bool :=
  !s.cmd.hold && s.rd Obj.moduleState == 2 && decide (s.rd Obj.powerState ≤ 1) && !s.sequencing

/-- The four conditions of R180 on a window's head record. -/
def State.dispatchable (s : State) (w : Nat) (e : QEntry) : Bool :=
  let x := s.win w
  (x.state == .opened || x.state == .handover) &&
  -- a dependency on its own window that does not name an earlier record is refused instead (0x83)
  (!Rec.depEn e.raw || s.depRetired (Rec.depWin e.raw) (Rec.depSeq e.raw) ||
    (Rec.depWin e.raw == w && !before (Rec.depSeq e.raw) e.seq)) &&
  !s.classDeferred (s.runClass w e 8) && decide (x.retained < 880)

/-- The record to dispatch: among the dispatchable heads, the lowest class, then the lowest window (R182). -/
def State.nextRecord (s : State) : Option (Nat × QEntry) :=
  let heads := (List.range 8).filterMap fun w => (s.head w).bind fun e => if s.dispatchable w e then some (w, e) else none
  heads.foldl (fun (b : Option (Nat × QEntry)) p => match b with
    | none => some p
    | some a => if s.runClass p.1 p.2 8 < s.runClass a.1 a.2 8 then some p else some a) none

/-! ### Checks before dispatch (R189, R191, R74) -/

/-- A report descriptor (Table 7.11). -/
structure Rp where
  loc : Nat
  tile : Nat
  len64 : Nat
  off : Nat
  host : Nat
  deriving DecidableEq, Repr

def rpOf (r : Rec) : Rp :=
  { loc := Rec.w r 0 63 62, tile := Rec.w r 0 61 54, len64 := Rec.w r 0 53 33, off := Rec.w r 1 63 0, host := Rec.w r 2 63 0 }

/-- Bytes of the source range: 8 when inline. -/
def Rp.bytes (d : Rp) : Nat := if d.len64 = 0 then 8 else 64 * d.len64
/-- Region and byte offset of a table source. -/
def Rp.handle (d : Rp) : Nat := d.off / 2 ^ 32
def Rp.tableOff (d : Rp) : Nat := d.off % 2 ^ 32

/-- The check of R191. -/
def State.reportOk (s : State) (d : Rp) : Bool :=
  decide (d.len64 ≤ 16384) && (d.len64 == 0 || d.host % 64 == 0) &&
  (if d.loc = 0 then decide (d.tile ≤ 191 ∧ d.off % 64 = 0 ∧ d.off + d.bytes ≤ scratchBytes)
   else d.loc == 1 && (match s.region d.handle with
     | some r => r.cls == 6 && decide (d.tableOff + d.bytes ≤ 65536 * r.size)
     | none => false))

/-- The lowest failing reason of Table 7.10a, 0 if none fails. -/
def State.headerCheck (s : State) (w : Nat) (e : QEntry) : Nat :=
  let r := e.raw
  let k := Rec.kind r
  if 12 < k then 0x81
  else if Rec.eclass r = 3 then 0x82
  else if Rec.depEn r ∧ Rec.depWin r = w ∧ ¬ before (Rec.depSeq r) e.seq then 0x83
  else if (k = 11 ∨ k = 12) ∧ (Rec.cmpl r ∨ Rec.depEn r) then 0x84
  else if k = 9 ∧ ¬ s.reportOk (rpOf r) then 0x85
  else if k = 11 ∧ stepOf r ≤ s.rd Obj.lastCommittedStep then 0x86
  else 0

/-- A status with a reason, where there is a reason. -/
def failWith (status reason : Nat) : Nat × Nat := if reason = 0 then (0, 0) else (status, reason)

/-- Status and lowest failing reason of the checks of a record's kind; (0, 0) if it passes. -/
def State.kindCheck (s : State) (w : Nat) (e : QEntry) (skip : Bool) : Nat × Nat :=
  let r := e.raw
  match Rec.kind r with
  | 1 => s.mxRefusal w r skip
  | 2 => s.vxRefusal r skip
  | 3 => s.ckCheck (ckOf r) skip
  | 4 => failWith 4 (syOf r).check
  | 5 => failWith 0x10 (s.tmCheck (tmOf r))
  | 6 => failWith 0x28 (s.coCheck (coOf r) (e.step.getD 0))
  | 7 => failWith 0x18 (s.upCheck (upOf r) e.step)
  | 8 => failWith 0x20 (s.inCheck (inOf r))
  | 10 => failWith 0x29 (s.modeCheck r)
  | _ => (0, 0)

/-- The event and the counter that go with a refusal (R74, R102, R142, R165, R210, R256, R298, R334). The events of a refused record
carry no parameters (DESIGN CHOICE, log entry 127: the rules name none). -/
def State.refusalNote (s : State) (kind status : Nat) : State :=
  if status = 2 then (s.raise Ev.descRejected []).countSat (if kind = 1 then Obj.mxRejected else Obj.vxRejected) 1
  else if status = 3 then (s.raise Ev.castFault []).countSat Obj.castFaults 1
  else if status = 4 then (s.raise Ev.syncFault []).countSat Obj.syncFaults 1
  else if status = 0x10 then s.countSat Obj.tmRejected 1
  else if status = 0x18 then (s.raise Ev.updateRejected []).countSat Obj.updRejected 1
  else if status = 0x20 then s.countSat Obj.inRejected 1
  else if status = 0x28 then s.countSat Obj.collRejected 1
  else if status = 0x29 then s.countSat Obj.collRejected 1
  else s

/-- A refused product consumes the arm it would have bound (R112). -/
def State.refuseArm (s : State) (w : Nat) (e : QEntry) : State :=
  if Rec.kind e.raw = 1 then s.consumePending w (mxOf e.raw) else s

/-- A record fails a check: no unit sees it, it completes with its status and reason, and the window halts. -/
def State.refuseChecked (s : State) (w : Nat) (e : QEntry) (status reason : Nat) : State :=
  ((s.refusalNote (Rec.kind e.raw) status).refuse w e status reason).refuseArm w e

/-! ### RECORD_DISPATCH (R180, R193) -/

/-- The record goes to its units: its place in the order, and the dispatched CRC and count of its window go on, or stand in an audit
record and start again. A record of tiles passes into their regions (Table 14.3). -/
def State.markDispatched (s : State) (w : Nat) (e : QEntry) (skip : Bool) : State :=
  let n := s.tile.dispatches
  let x := s.win w
  let audit := Rec.kind e.raw == 12
  let s := { s with tile := { s.tile with dispatches := n + 1 } }
  let port := x.owner.filter s.linkUp
  let s := s.updWin w fun x => { x with
    dspCrc := if audit then crc32Init else if e.audited then crc32Step x.dspCrc (recBytes e.raw) else x.dspCrc
    dspCount := if audit then 0 else if e.audited then (x.dspCount + 1) % 2 ^ 32 else x.dspCount }
  let s := (s.updEntry w e.seq fun y => { y with
    disp := true, order := n, tick := s.now, skip := skip, dspCrc := crc32Fin x.dspCrc, dspCount := x.dspCount, port := port }).count
      Obj.cnMessages 2
  match tileSet e.raw with
  | some (a, b) => s.passArray (fun r => .fromSpine r 1) (tileRange a b) (recKey w e.seq)
  | none => s

/-- What the sequencer itself does as it dispatches: it binds an arm to a product, a skipped one too, opens or closes a span, stages the
values of a prepare, puts a profile in force or gives a sample the one in force; a skipped record of a unit is complete at once, and a skipped
sample still signals its tiles (R73, R112, R297, R336, R347). -/
def State.dispatchEffect (s : State) (w : Nat) (e : QEntry) (skip : Bool) : State :=
  let k := Rec.kind e.raw
  if skip then
    if k = 5 ∨ k = 6 ∨ k = 8 then
      let s := if k = 8 ∧ Rec.op e.raw = 0 then s.sampleTiles w e.seq (Rec.tag e.raw) (inOf e.raw) else s
      s.updEntry w e.seq fun y => { y with unit := true }
    else if k = 1 then s.bindArm w e.seq (mxOf e.raw)
    else s
  else if k = 1 then s.bindArm w e.seq (mxOf e.raw)
  else if k = 6 then s.collDispatch w e
  else if k = 8 then s.inDispatch w e
  else if k = 10 ∧ Rec.op e.raw = 0 then
    { s with coll := { s.coll with snaps := s.coll.snaps.insert (recKey w e.seq) s.staged } }
  else s

/-- Dispatch a record, or refuse it. -/
def State.dispatch (s : State) (w : Nat) (e : QEntry) : State :=
  let h := s.headerCheck w e
  if h ≠ 0 then (s.refuse w e 6 h).refuseArm w e
  else
    let (form, layer) := formOf e.raw
    let skip := !s.formMatch form layer
    let (status, reason) := s.kindCheck w e skip
    if status ≠ 0 then s.refuseChecked w e status reason
    else
      let promoted := s.classDeferred (Rec.eclass e.raw)
      let s := (s.markDispatched w e skip).dispatchEffect w e skip
      if promoted then s.count Obj.promotions 1 else s

/-- RECORD_DISPATCH. -/
def State.recordDispatch (s : State) : State :=
  if ¬ s.mayDispatch then s
  else match s.nextRecord with
    | some (w, e) => s.dispatch w e
    | none => s

def execRecordDispatch (s : State) : Host.Outcome State Fault Refusal := .next s.recordDispatch

/-! ### What holds back the commit of a step (R25, R209) -/

/-- Does a queued record hold back the commit of step `n`? Every record of the step does until it retires, but for ingest records, and
dispatched updates, mode records and frees that wait (R209, R232, R347). -/
def QEntry.holdsCommit (e : QEntry) (n : Nat) : Bool :=
  let k := Rec.kind e.raw
  (match e.step with
    | some m => decide (m ≤ n)
    | none => false) &&
  k != 8 && !(e.disp && ((k == 7 && Rec.op e.raw == 1) || k == 10 || (k == 5 && Rec.op e.raw == 1)))

/-- Are the records of step `n` done, its spans closed and its messages' transfers over? -/
def State.recordsDone (s : State) (n : Nat) : Bool :=
  ((List.range 8).all fun w => (s.win w).queue.all fun e => !e.holdsCommit n) &&
  s.spans.all (fun x => decide (n < x.2.step)) && s.coll.transfer.isNone

/-- Has a mapped layer its update record armed for step `n`, with the pass before it committed, so that its ratio stands in the journal? -/
def State.layerReady (s : State) (n l : Nat) : Bool :=
  s.upd.arms.any (fun a => a.layer == l && a.step == n) && !s.upd.arms.any fun a => a.layer == l && a.go

/-- The lowest mapped layer that lacks a record armed for step `n` (R209). -/
def State.lacking (s : State) (n : Nat) : Option Nat :=
  s.mappedLayers.find? fun l => !s.upd.arms.any fun a => a.layer == l && a.step == n

/-- May steps commit here at all: operational, neither minority nor retired (R350, R355)? -/
def State.maySettle (s : State) : Bool := s.rd Obj.moduleState == 2 && s.rd Obj.groupState != 4 && s.rd Obj.groupState != 5

/-- Is the commit of step `n` held back by nothing but a missing update record? Then the lowest layer that lacks one. -/
def State.heldBack (s : State) (n : Nat) : Option Nat := if s.maySettle ∧ s.recordsDone n then s.lacking n else none

/-- The wait of the commit begins when nothing but a missing update record holds it back, and ends with that. -/
def State.noteHeld (s : State) : State :=
  let held : Bool := match s.cmd.stepNow with
    | some n => (s.heldBack n).isSome
    | none => false
  { s with upd := { s.upd with waitFrom := if held then some (s.upd.waitFrom.getD s.now) else none } }

/-! ### RECORD_RETIRE (R180, R188) -/

/-- Has a dispatched record completed in every tile of its set, or been reported by its unit? -/
def QEntry.complete (e : QEntry) : Bool := e.disp && (if (tileSet e.raw).isSome then e.allTiles else e.unit)

/-- What a retirement leaves behind in the units: its arm is consumed, its messages are dropped, a sample is the last one (R112, R342,
Table 10.10). -/
def State.retireEffect (s : State) (w : Nat) (e : QEntry) : State :=
  let key := recKey w e.seq
  match Rec.kind e.raw with
  | 1 => s.consumeArm w e.seq
  | 5 => { s with tier := { s.tier with fills := s.tier.fills.filter (fun x => x.1 / 256 ≠ key), gated := setDel s.tier.gated key } }
  | 6 => if e.skip then s else s.collRetire w e.seq
  | 8 =>
    let s := { s with store := { s.store with fixed := s.store.fixed.erase key } }
    match s.store.samples.find key with
    | some j =>
      let s := (s.wr Obj.lastPosition (inOf e.raw).position).wr Obj.lastSample j.index
      { s with store := { s.store with samples := s.store.samples.erase key } }
    | none => s
  | 10 => { s with coll := { s.coll with snaps := s.coll.snaps.erase key } }
  | _ => s

/-- RECORD_RETIRE: a complete record retires; one whose form did not match carries status skipped-form (R73). With the last record of a
step the wait for a missing update record may begin (R209). -/
def State.recordRetire (s : State) (w q : Nat) : State :=
  match s.entry w q with
  | none => s
  | some e =>
    if ¬ e.complete then s
    else ((s.retireEffect w e).retire w { e with status := if e.skip ∧ e.status = 0 then 1 else e.status }).noteHeld

/-! ### REPORT (R191) -/

/-- The bytes a report reads. -/
def State.reportBytes (s : State) (d : Rp) : Bytes :=
  if d.loc = 0 then s.scratchBytesAt d.tile d.off d.bytes else s.regionBytes d.handle d.tableOff d.bytes

/-- The ring value of a report: the eight bytes inline, else byte count and CRC-32. -/
def Rp.value (d : Rp) (bs : Bytes) : Nat := if d.len64 = 0 then unle bs else d.bytes * 2 ^ 32 + crc32 bs

/-- REPORT: the data goes out through the port that owned the window at dispatch with its link up, if the write is delivered; the ring record
carries count and CRC in any case. A table read that hits a lost unit ends with its status (R261). -/
def State.report (s : State) (w : Nat) (e : QEntry) (delivered : Bool) : State :=
  let d := rpOf e.raw
  let (s, a) := if d.loc = 1 then s.access (recKey w e.seq) 1 d.handle (pagesOf d.tableOff d.bytes) else (s, .ready)
  if a = .waiting then s
  else
    let bad := d.loc == 1 && s.hitsBad d.handle d.tableOff d.bytes
    let bs := s.reportBytes d
    let s := match e.port with
      | some p => if d.len64 ≠ 0 ∧ delivered ∧ ¬ bad ∧ s.linkUp p then s.emit (.posted p d.host bs) else s
      | none => s
    let s := if bad then s.hitStatus w e.seq d.handle else s
    s.updEntry w e.seq fun y => { y with unit := true, value := d.value bs }

/-- Run a command of the sequencer on a dispatched record of a kind that has not run yet. -/
def onKind (w : Fin 8) (q kind : Nat) (s : State) (f : QEntry → State) : Host.Outcome State Fault Refusal :=
  match s.entry w q with
  | some e => if e.disp ∧ ¬ e.unit ∧ Rec.kind e.raw = kind then .next (f e) else .next s
  | none => .next s

def execReport (w : Fin 8) (q : Nat) (delivered : Bool) (s : State) : Host.Outcome State Fault Refusal :=
  onKind w q 9 s fun e => s.report w e delivered

/-! ### STEP (R192) -/

/-- STEP: the window's records of the step begin; a working copy lost with its units is rebuilt before they replay (Table 9.6), once no page of
it is moving (R239), and messages that came early for the step are taken up (R332). -/
def execStep (w : Fin 8) (q : Nat) (s : State) : Host.Outcome State Fault Refusal :=
  onKind w q 11 s fun e =>
    match s.writable (recKey w e.seq) s.rebuildPages with
    | (s, false) => s
    | (s, true) => (s.rebuildLost.openInbox).unitDone w e.seq 0 0

/-! ### AUDIT (R193) -/

/-- Do the module's counts and CRCs equal the host's, on both sides? -/
def QEntry.auditOk (e : QEntry) : Bool :=
  let n := Rec.w e.raw 0 63 32
  let c := Rec.w e.raw 0 31 0
  e.accCount == n && e.dspCount == n && e.accCrc == c && e.dspCrc == c

/-- AUDIT: on any difference the record completes with audit-mismatch, the window halts and the step aborts with cause 0x93. -/
def State.audit (s : State) (w : Nat) (e : QEntry) : State :=
  if e.auditOk then s.unitDone w e.seq 0 0
  else (((s.retire w { e with status := 8 }).raise Ev.auditMismatch []).haltWin w 0xA1 0x0800).abortStep 0x93

def execAudit (w : Fin 8) (q : Nat) (s : State) : Host.Outcome State Fault Refusal := onKind w q 12 s fun e => s.audit w e

def execRecordRetire (w : Fin 8) (q : Nat) (s : State) : Host.Outcome State Fault Refusal := .next (s.recordRetire w q)

end Sys2Proof.Machine
end

