-- ==== Sys2Proof/Machine/Settings.lean ====
section
/-! DEFINITION. What is kept and what is lost: persistent and volatile objects (R412), the stored settings record (R413), its migration
across dictionary versions (R454), and the loss of state at a power loss, a module reset or a hardware trip (R478, R490, R378). -/
namespace Sys2Proof.Machine

/-! ### Persistent objects (R412) -/

/-- The volatile RW objects of R412. -/
def isVolatile (k : Nat) : Bool :=
  let i := k / 256
  let j := k % 256
  (decide (0x4810 ≤ i ∧ i ≤ 0x4817) && (j == 1 || j == 2)) || (decide (0x6020 ≤ i ∧ i ≤ 0x6021) && (j == 1 || j == 2)) ||
    k == Obj.nbModule || k == Obj.actTick || (decide (0x5000 ≤ i ∧ i ≤ 0x500F) && j == 8) || k == Obj.ageSelect || i == 0x9004

/-- The keys of a row of an object table. -/
def ObjRow.keys (r : ObjRow) : List Nat :=
  (List.range (r.i1 + 1 - r.i0)).flatMap fun i => (List.range (r.s1 + 1 - r.s0)).map fun j => 256 * (r.i0 + i) + r.s0 + j

/-- The persistent objects: every RW and RWS object that is not volatile. -/
def persistentKeys : List Nat :=
  objRows.flatten.flatMap fun r => if r.acc = .rw ∨ r.acc = .rws then r.keys.filter fun k => !isVolatile k else []

/-- Is the object an RWS object of the mode block? -/
def isMode (k : Nat) : Bool :=
  match objRow (k / 256) (k % 256) with
  | some r => inModeBlock (k / 256) r
  | none => false

/-- The default of an object: fld_node's follows the tray slot (R480). -/
def State.dflt (s : State) (k : Nat) : Nat := if k = Obj.fldNode then 1 + s.start.slot.getD 0 else objDflt k

/-- The current value of a persistent object: the staged one where there is one (R412). -/
def State.saved (s : State) (k : Nat) : Nat := if isMode k then s.stagedVal k else s.rd k

/-- Stage a value of the mode block; it takes force at a boundary (R409). -/
def State.stage (s : State) (k v : Nat) : State :=
  { s with staged := if v = s.rd k then s.staged.erase k else s.staged.insert k v }

/-! ### The stored record (R413, R454) -/

/-- The record of the values as they stand. -/
def State.settingsNow (s : State) : SettingsRec :=
  { dictVersion := s.rd Obj.dictVersion, values := persistentKeys.foldl (fun m k => Tab.insert m k (s.saved k)) [], good := true }

/-- The bytes of a record: dictionary version, then key and value of every object. -/
def SettingsRec.bytes (r : SettingsRec) : Bytes := p16 r.dictVersion ++ r.values.flatMap fun x => le 3 x.1 ++ objBytes x.1 x.2

/-- Set a persistent object in force, and staged, which nothing then differs from. -/
def State.put (s : State) (k v : Nat) : State := { s.wr k v with staged := s.staged.erase k }

/-- Is the object the size of a stream zone that holds data? No load and no reset of the settings changes it (R269; DEDUCED, log entry 52). -/
def State.keepsSize (s : State) (k : Nat) : Bool := decide (0x6810 ≤ k / 256 ∧ k / 256 ≤ 0x6813) && k % 256 == 1 && s.zoneHolds (k / 256 - 0x6810)

/-- Set persistent objects together; the zones that hold no data take their size. -/
def State.putAll (s : State) (ks : List Nat) (v : Nat → Nat) : State :=
  let now := s
  let s := ks.foldl (fun s k => if now.keepsSize k then s else s.put k (v k)) s
  (List.range 4).foldl (fun s z =>
    let n := s.rd (Obj.szStripeBlocks z)
    if (s.store.zoneBlocks.get [] z).length = n then s else s.sizeZone z n) s

/-- Every persistent object takes its default. -/
def State.allDefaults (s : State) : State := s.putAll persistentKeys s.dflt

/-- The objects whose stored format is newer than a record of dictionary version `v` (R454). -/
def State.outdated (s : State) (v : Nat) (ks : List Nat) : List Nat := ks.filter fun k => decide (v < Config.fmtSince (s.rd Obj.fwVersion) k)

/-- Objects are reset: event with the count, the list, and a new stored record at once (R454). -/
def State.noteReset (s : State) (ks : List Nat) : State :=
  if ks = [] then s
  else
    let s := (s.wr Obj.settingsResetCount ks.length).raise Ev.settingsReset [p16 ks.length]
    { s with dict := { s.dict with resetList := ks.take 85, stored := some s.settingsNow } }

/-- The settings record is read at power-up (R413). A mode-block object takes its value both in force and staged. -/
def State.loadSettings (s : State) : State :=
  match s.dict.stored with
  | none => s.allDefaults.wr Obj.settingsState 0
  | some r =>
    if ¬ r.good then (s.allDefaults.wr Obj.settingsState 3).raise Ev.settingsLoadFault []
    else
      let old := if r.dictVersion = s.rd Obj.dictVersion then [] else s.outdated r.dictVersion persistentKeys
      let s := s.putAll persistentKeys fun k => if old.contains k then s.dflt k else (r.values.find k).getD (s.dflt k)
      (s.wr Obj.settingsState 1).noteReset old

/-- The values held are kept across a change of dictionary version by an activation (R454). -/
def State.migrate (s : State) (was : Nat) : State :=
  if was = s.rd Obj.dictVersion then s
  else
    let old := s.outdated was persistentKeys
    (s.putAll old s.dflt).noteReset old

/-- Status of a settings_save from the busy check on. -/
def State.saveCond (s : State) : Nat :=
  let recent : Bool := match s.dict.savedAt with
    | some t => decide (s.now - t < 10000 * ms)
    | none => false
  if s.dict.saving.isSome ∨ recent then 0x0A else 0

/-- settings_save is accepted: the record is being written. -/
def State.saveStart (s : State) : State :=
  let v : Saving := { start := s.now, before := s.rd Obj.settingsState, rcd := s.settingsNow, fails := 0 }
  let s := { s with dict := { s.dict with saving := some v } }
  s.wr Obj.settingsState 2

def execSettingsSave (src : Src) (arg : Nat) (s : State) : Host.Outcome State Fault Refusal :=
  .next (s.act src Obj.settingsSave arg false s.saveCond State.saveStart)

/-- SETTINGS_SAVE_DONE: the read-back succeeds, or fails; at the second failure the earlier record stays (R413). -/
def State.saveDone (s : State) (good : Bool) : State :=
  match s.dict.saving with
  | none => s
  | some v =>
    if good then
      let s := { s with dict := { s.dict with saving := none, stored := some v.rcd, savedAt := some s.now } }
      s.wr Obj.settingsState 1
    else if v.fails = 0 then { s with dict := { s.dict with saving := some { v with fails := 1 } } }
    else
      let s := { s with dict := { s.dict with saving := none } }
      (s.wr Obj.settingsState v.before).raise Ev.settingsSaveFault []

def execSettingsSaveDone (good : Bool) (s : State) : Host.Outcome State Fault Refusal := .next (s.saveDone good)

/-- Are the plan objects of Table 15.3 stopped? -/
def State.planStopped (s : State) : Bool := let g := s.rd Obj.groupState; g == 0 || g == 1 || g == 4 || g == 5

/-- Is the object a setting of the plan (Table 15.3, first row)? -/
def isPlan (k : Nat) : Bool :=
  let i := k / 256
  (i == 0x5010 && decide (k % 256 ≤ 4)) || i == 0x5011 || i == 0x5012

/-- A plan object is written: LLDPDUs follow; a port that is up goes by it and evaluates its identity again, with what follows from that
for the other ports; the rest go by it from their next training (R316, R318, R325). -/
def State.planWrite (s : State) (k v : Nat) : State :=
  let s := s.wr k v
  ((List.range 16).foldl (fun s p =>
    let up := s.portIs p psUp
    s.updPort p fun x => { x with planDue := true, plan := if up then s.planNow else x.plan }) s).classify

/-- An object takes its default at settings_defaults: staged for the mode block; a zone that holds data keeps its size, and where the plan's
objects are not stopped the ports go by theirs from their next training (R412; DEDUCED from R269 and R410, log entry 52). -/
def State.defaultOf (s : State) (k : Nat) : State :=
  if isMode k then s.stage k (s.dflt k)
  else if isPlan k ∧ s.planStopped then s.planWrite k (s.dflt k)
  else if decide (0x6810 ≤ k / 256 ∧ k / 256 ≤ 0x6813) && k % 256 == 1 then
    (if s.keepsSize k then s else (s.wr k (s.dflt k)).sizeZone (k / 256 - 0x6810) (s.dflt k))
  else s.wr k (s.dflt k)

/-- settings_defaults: every persistent object, the mode block as staged values; the stored record stays (R412). -/
def State.defaults (s : State) : State :=
  let s := persistentKeys.foldl State.defaultOf s
  match s.dict.saving with
  | some v => { s with dict := { s.dict with saving := some { v with before := 0 } } }
  | none => s.wr Obj.settingsState 0

def execSettingsDefaults (src : Src) (arg : Nat) (s : State) : Host.Outcome State Fault Refusal :=
  .next (s.act src Obj.settingsDefaults arg false 0 State.defaults)

/-! ### What a loss takes (R271, R378, R478, R490) -/

/-- How much is lost: power gone, mod_reset_n, or the domains other than standby alone. -/
inductive Loss where
  | power | reset | domains
  deriving DecidableEq, Repr

/-- Objects held in service flash, the store tier or fuses. -/
def inFlash (k : Nat) : Bool :=
  let i := k / 256
  let ro : Bool := match objRow i (k % 256) with
    | some r => r.acc == .ro
    | none => false
  ro && ([Obj.t1PoolPages, Obj.sparePages, Obj.poweredSTotal, Obj.powerSession, Obj.tripsTotal, Obj.ageCount, Obj.fwSvn,
      Obj.activeSlot, Obj.keyRevoked, Obj.lmsRemaining, Obj.matchedCkpt, Obj.suspects].contains k ||
    i == 0x6800 || decide (0x6810 ≤ i ∧ i ≤ 0x6813) || decide (0x6820 ≤ i ∧ i ≤ 0x6823) || (decide (0x6400 ≤ i ∧ i ≤ 0x640F) && k % 256 == 5) ||
    i == 0x8001 || i == 0x8002 || i == 0x1020)

/-- Objects of events and time, which live as long as the power session (R400, R429, R431). -/
def inSession (k : Nat) : Bool :=
  let i := k / 256
  i == 0x9000 || i == 0x9100 || decide (0x9201 ≤ i ∧ i ≤ 0x920F) || i == 0x1100

/-- Objects the standby domain holds beside those: settings, counters, identity on the networks, security (R378, R414). -/
def inStandby (k : Nat) : Bool :=
  let i := k / 256
  let set : Bool := match objRow i (k % 256) with
    | some r => r.acc == .rw || r.acc == .rws
    | none => false
  set || i / 256 == 0xA0 || i == 0x1010 || i == 0x1030 || i == 0x1040 || i == 0x8000 || i == 0x8010 || i == 0x8020 || i == 0x8400

def Loss.keeps (l : Loss) (k : Nat) : Bool :=
  inFlash k || (match l with
    | .power => false
    | .reset => inSession k
    | .domains => inSession k || inStandby k)

/-- A window whose session goes on: it loses all but its sequence numbers, which never go back within one (R176). -/
def Window.afterReset (x : Window) : Window := { Window.reset with e := x.e, rnext := x.rnext, rc := x.rc }

/-- The bank tier, the tiles and every unit lose what they hold; the store tier keeps its zones, its taken checkpoints and its wear. What
counts over the power session goes on with it: sequence numbers (R176), parity errors (R169), resets of the decode engines (R289). -/
def State.loseUnits (s : State) (l : Loss) : State :=
  let ends := l = Loss.power
  { s with
    tile := { TileState.reset with parity := if ends then [] else s.tile.parity }
    spans := [], touches := 0, prep := [], upd := UpdState.reset, link := LinkState.reset
    cmd := { CmdState.reset with
      wins := if ends then []
        else (s.cmd.wins.map fun x => (x.1, Window.afterReset x.2)).filter fun x => x.2 != Window.reset }
    cross := { CrossState.reset with stalls := if l = Loss.domains then s.cross.stalls else 0, drawn := s.cross.drawn }
    coll := { CollState.reset with repairs := s.coll.repairs }
    tier := { TierState.reset with
      regions := (s.tier.regions.filter fun x => s.store.taken.any fun t => s.rd (Obj.ckptHandle t.1) == x.1).map fun ((h, r) : Nat × Region) =>
        (h, { r with freeing := none, pages := r.pages.map fun ((p, v) : Nat × RPage) => (p, { v with move := none, refetch := false }) })
      retired := s.tier.retired }
    store := { StoreState.reset with
      engines := if ends then [] else s.store.engines
      zones := s.store.zones, badUnits := s.store.badUnits, taken := s.store.taken, blocks := s.store.blocks, sparesUsed := s.store.sparesUsed
      dies := s.store.dies, zoneBlocks := s.store.zoneBlocks, blockMap := s.store.blockMap
      pageMap := s.store.pageMap.filter fun x => s.store.taken.any fun t => s.rd (Obj.ckptHandle t.1) == x.1 / 2 ^ 32
      genBlocks := s.store.genBlocks, genRow := s.store.genRow } }

/-- Catalogue entries of checkpoints not yet taken leave nothing behind (R280). -/
def State.dropUntaken (s : State) : State :=
  (List.range 16).foldl (fun s i =>
    let k := i + 1
    if (s.store.taken.find k).isSome then s
    else (((s.wr (Obj.ckptHandle k) 0).wr (Obj.ckptStep k) 0).wr (Obj.ckptDigest k) 0).wr (Obj.ckptState k) 0) s

/-- A slot that was receiving is empty (Table 16.4); the block of leaves in use is wasted (R459); no session lives on. -/
def State.loseFirmware (s : State) (l : Loss) : State :=
  let s := (List.range 2).foldl (fun s n => if s.rd (Obj.slotState n) = 1 then s.wr (Obj.slotState n) 0 else s) s
  { s with fw := { s.fw with
      load := none, phase := 0, revert := none, nonce := none, measured := [], spdmA := Spdm.reset, spdmB := Spdm.reset
      leafLeft := if l = Loss.domains then s.fw.leafLeft else 0, ideKeyA := none, ideKeyB := none
      reportAt := if l = Loss.power then none else s.fw.reportAt } }

/-- What the dictionary keeps: its flash in any case, the log and the kept replies with the session. -/
def State.loseDict (s : State) (l : Loss) : State :=
  match l with
  | .power => { s with dict := { DictState.reset with flash := s.dict.flash, stored := s.dict.stored } }
  | .reset => { s with dict := { s.dict with episodes := [], saving := none, irqA := none, irqB := none } }
  | .domains => { s with dict := { s.dict with irqA := none, irqB := none } }

/-- Start-up goes back before its first stage, rails off. -/
def State.loseStart (s : State) (l : Loss) : State :=
  { s with start := { s.start with
      stage := 0, since := s.now, retryAt := none, domain := false, rails := false
      failed := if l = Loss.domains then s.start.failed else none
      slotSamples := if l = Loss.domains then s.start.slotSamples else []
      slot := if l = Loss.domains then s.start.slot else none
      selfTested := if l = Loss.power then false else s.start.selfTested
      warned := if l = Loss.power then [] else s.start.warned } }

/-- The rails go off and the state that the loss takes is gone. -/
def State.lose (s : State) (l : Loss) : State :=
  let s := (s.loseUnits l).dropUntaken
  let s := { s with
    power := { PowerState.reset with ovp := s.power.ovp }
    clock := { s.clock with masked := [], margins := [], stretch := [], due := [], ranOp := none, ran := 0, tjMax := 0, trimHold := 0, pll := 0, plls := [0, 0], worst := [], copies := [] }
    staged := if l = Loss.domains then s.staged else [] }
  let s := ((s.loseFirmware l).loseDict l).loseStart l
  { s with obj := s.obj.filter fun x => l.keeps x.1 }

/-- mod_fault_n: asserted unless the module is operational and neither in hold nor in thermal park (R479). An unpowered module cannot
assert it. -/
def State.modFault (s : State) : Bool := s.standby && (s.rd Obj.moduleState != 2 || decide (3 ≤ s.rd Obj.powerState))

end Sys2Proof.Machine
end

