-- ==== Sys2Proof/Machine/Firmware.lean ====
section
/-! DEFINITION. Firmware and security (chapter 16): image checks and slots (R443 to R445), loading over PLDM (R446), boot (R447, R448),
activation, trial, revert and confirmation (R449 to R453), SPDM (R456, R457), dual reports (R458 to R460), link encryption (R461) and the
vendor test state (R462). -/
namespace Sys2Proof.Machine

/-! ### Slots and images (R443, R444) -/

/-- Bytes of a slot. -/
def State.slotByte (s : State) (n i : Nat) : Byte :=
  if s.fw.written.contains n then s.fw.slots.get 0 (n * 2 ^ 27 + i) else Config.factoryImage n i

def State.slotBytes (s : State) (n off len : Nat) : Bytes := (List.range len).map fun i => s.slotByte n (off + i)

/-- A little-endian field of a slot's manifest (Table 16.2). -/
def State.mf (s : State) (n off len : Nat) : Nat := unle (s.slotBytes n off len)

def allZero (b : Bytes) : Bool := b.all (· == 0)

def State.mfBodyLen (s : State) (n : Nat) : Nat := s.mf n 24 4

/-- Is a vendor key position, ECDSA (0) or LMS (1), not revoked? -/
def State.keyLive (s : State) (scheme pos : Nat) : Bool := decide (pos ≤ 3) && s.rd Obj.keyRevoked >>> (4 * scheme + pos) % 2 == 0

/-- SHA-384 of a slot's manifest. -/
def State.manifestHash (s : State) (n : Nat) : Nat := Config.sha384 (s.slotBytes n 0 4096)

/-- The checks of Table 16.3 on a slot, as reason and outcome, in order; reason 0x0A is checked where `versions` says so. -/
def State.imageChecks (s : State) (n : Nat) (versions : Bool) : List (Nat × Bool) :=
  let ek := s.mf n 18 1
  let lk := s.mf n 19 1
  let head := s.slotBytes n 0 256
  let epub := s.slotBytes n 80 96
  let lpub := s.slotBytes n 176 56
  let len := s.mfBodyLen n
  [(1, s.mf n 0 4 == 0x4A5A4631 && s.mf n 4 2 == 1 && len % 4096 == 0 && decide (4096 ≤ len ∧ len ≤ 125829120) &&
      allZero (s.slotBytes n 6 2 ++ s.slotBytes n 21 3 ++ s.slotBytes n 28 4 ++ s.slotBytes n 232 24 ++ s.slotBytes n 1964 2132)),
   (2, s.keyLive 0 ek && Config.sha384 epub == Config.keyHash 0 ek),
   (3, s.keyLive 1 lk && Config.sha256 lpub == Config.keyHash 1 lk),
   (4, Config.ecdsaOk epub head (s.slotBytes n 256 96)),
   (5, Config.lmsOk lpub head (s.slotBytes n 352 1612)),
   (6, Config.sha384 (s.slotBytes n 4096 len) == s.mf n 32 48),
   (7, decide (s.rd Obj.fwSvn ≤ s.mf n 12 1)),
   (8, decide (s.mf n 16 1 ≤ s.rd Obj.hwRevision ∧ s.rd Obj.hwRevision ≤ s.mf n 17 1)),
   (9, s.mf n 13 1 == 1),
   (10, !versions || decide (s.rd Obj.fwVersion ≤ s.mf n 8 4 ∧ s.rd Obj.dictVersion ≤ s.mf n 14 2)),
   (11, s.mf n 20 1 >>> ek % 2 == 0 && s.mf n 20 1 >>> (4 + lk) % 2 == 0)]

/-- The lowest failing reason, 0 for a valid image. -/
def State.imageReject (s : State) (n : Nat) (versions : Bool) : Nat :=
  match (s.imageChecks n versions).find? fun c => !c.2 with
  | some c => c.1
  | none => 0

/-- The slot's objects, from its manifest where it holds a valid image, else 0. -/
def State.slotInfo (s : State) (n : Nat) (holds : Bool) : State :=
  if holds then
    (((s.wr (Obj.slotFwVersion n) (s.mf n 8 4)).wr (Obj.slotSvn n) (s.mf n 12 1)).wr (Obj.slotDictVersion n) (s.mf n 14 2)).wr
      (Obj.slotManifestHash n) (s.manifestHash n)
  else (((s.wr (Obj.slotFwVersion n) 0).wr (Obj.slotSvn n) 0).wr (Obj.slotDictVersion n) 0).wr (Obj.slotManifestHash n) 0

/-- Is the module in recovery (R448)? -/
def State.inRecovery (s : State) : Bool := s.rd Obj.bootState == 3

/-- The slot an image is loaded into: the inactive one, in recovery the one that failed. -/
def State.loadSlot (s : State) : Nat := if s.inRecovery then s.rd Obj.activeSlot else 1 - s.rd Obj.activeSlot

/-- FW_STAGE: the complete image is checked; the slot becomes staged or invalid. In recovery no image is active to be compared with. -/
def State.stageSlot (s : State) (n : Nat) : State :=
  let r := s.imageReject n (!s.inRecovery)
  if r = 0 then
    (((s.wr (Obj.slotState n) 2).wr (Obj.slotRejectReason n) 0).slotInfo n true).raise Ev.fwStaged [p32 (s.mf n 8 4), p8 (s.mf n 12 1)]
  else (((s.wr (Obj.slotState n) 4).wr (Obj.slotRejectReason n) r).slotInfo n false).raise Ev.fwStageRejected [p8 r]

/-! ### PLDM for Firmware Update (R446); completion codes and states as DSP0267 gives them -/

/-- A response of a protocol on a port. -/
def State.reply (s : State) (p : HostPort) (protocol code : Nat) (body : Bytes) : State := s.emit (.answer p protocol code body)

/-- Run the handler of a message that came through a port whose link is up. -/
def onPort (p : HostPort) (s : State) (f : State → State) : Host.Outcome State Fault Refusal := if s.linkUp p then .next (f s) else .next s

/-- Protocols of the responses: PLDM, DOE Discovery, SPDM, vendor-defined messages in SPDM, MCTP control. -/
def prPldm : Nat := 1
def prDoe : Nat := 2
def prSpdm : Nat := 3
def prVendor : Nat := 4
def prMctp : Nat := 5

def State.setLoad (s : State) (l : Option Loading) : State := { s with fw := { s.fw with load := l } }

/-- Is an activation pending or under way? -/
def State.activating (s : State) : Bool := s.rd Obj.actMode != 0 || s.fw.phase != 0

/-- Handle a message of the update that the port runs, in the phase it belongs to. -/
def State.inUpdate (s : State) (p : HostPort) (phase : Nat) (f : Loading → State) : State :=
  match s.fw.load with
  | none => s.reply p prPldm 0x80 []
  | some l => if l.port ≠ p then s.reply p prPldm 0x80 [] else if l.phase ≠ phase then s.reply p prPldm 0x84 [] else f l

def execPldmQueryDeviceIdentifiers (p : HostPort) (s : State) : Host.Outcome State Fault Refusal :=
  onPort p s fun s => s.reply p prPldm 0 (p32 (s.rd Obj.ianaEnterprise) ++ p16 (s.rd Obj.pciVendor) ++ p16 (s.rd Obj.pciDevice))

/-- GetFirmwareParameters: the version of the active slot, and of the staged one. -/
def execPldmGetFirmwareParameters (p : HostPort) (s : State) : Host.Outcome State Fault Refusal :=
  onPort p s fun s => s.reply p prPldm 0 (p32 (s.rd Obj.fwVersion) ++
    p32 (if s.rd (Obj.slotState s.loadSlot) = 2 then s.rd (Obj.slotFwVersion s.loadSlot) else 0))

/-- RequestUpdate: refused while an activation is pending or under way, or while another update is in progress on either port. -/
def execPldmRequestUpdate (p : HostPort) (s : State) : Host.Outcome State Fault Refusal :=
  onPort p s fun s =>
    if s.fw.load.isSome then s.reply p prPldm 0x81 []
    else if s.activating then s.reply p prPldm 0x8A []
    else (s.setLoad (some { port := p, phase := 1, size := 0, got := 0 })).reply p prPldm 0 []

def execPldmPassComponentTable (p : HostPort) (s : State) : Host.Outcome State Fault Refusal :=
  onPort p s fun s => s.inUpdate p 1 fun l => (s.setLoad (some { l with phase := 2 })).reply p prPldm 0 []

/-- The inactive slot is erased and receives. -/
def State.beginTransfer (s : State) (n : Nat) : State :=
  let s := ((s.wr (Obj.slotState n) 1).wr (Obj.slotRejectReason n) 0).slotInfo n false
  { s with fw := { s.fw with slots := memClear s.fw.slots (n * 2 ^ 27) (2 ^ 27), written := setIns s.fw.written n } }

/-- Ask for the next piece of the image: RequestFirmwareData, at most 4096 bytes at a time. -/
def State.askData (s : State) (l : Loading) : State := s.reply l.port prPldm 0x15 (p32 l.got ++ p32 (min 4096 (l.size - l.got)))

/-- UpdateComponent: the transfer begins, unless the image is larger than a slot or an activation has been scheduled meanwhile. -/
def execPldmUpdateComponent (p : HostPort) (size : Nat) (s : State) : Host.Outcome State Fault Refusal :=
  onPort p s fun s => s.inUpdate p 2 fun l =>
    if s.activating then s.reply p prPldm 0x84 []
    else if size = 0 ∨ 2 ^ 27 < size then s.reply p prPldm 0 [1]
    else
      let l := { l with phase := 3, size := size, got := 0 }
      (((s.beginTransfer s.loadSlot).setLoad (some l)).reply p prPldm 0 [0]).askData l

/-- The image is whole: TransferComplete, the checks, VerifyComplete, ApplyComplete; the update is over. -/
def State.imageWhole (s : State) (p : HostPort) : State :=
  let s := ((s.reply p prPldm 0x16 [0]).stageSlot s.loadSlot).setLoad none
  let bad := s.rd (Obj.slotState s.loadSlot) != 2
  (s.reply p prPldm 0x17 [if bad then 1 else 0]).reply p prPldm 0x18 [if bad then 1 else 0]

/-- Firmware data: written as it arrives, in order. -/
def State.firmwareData (s : State) (p : HostPort) (off : Nat) (data : Bytes) : State :=
  s.inUpdate p 3 fun l =>
    if off ≠ l.got then s
    else
      let d := data.take (l.size - l.got)
      let s := { s with fw := { s.fw with slots := memWrite s.fw.slots (s.loadSlot * 2 ^ 27 + off) d } }
      let l := { l with got := l.got + d.length }
      if l.got < l.size then (s.setLoad (some l)).askData l else s.imageWhole p

def execPldmFirmwareData (p : HostPort) (off : Nat) (data : Bytes) (s : State) : Host.Outcome State Fault Refusal :=
  onPort p s fun s => s.firmwareData p off data

/-- GetStatus: the phase of the update, 0 where none runs, and the slot's last reject reason. -/
def execPldmGetStatus (p : HostPort) (s : State) : Host.Outcome State Fault Refusal :=
  onPort p s fun s => s.reply p prPldm 0 (p8 ((s.fw.load.map Loading.phase).getD 0) ++ p8 (s.rd (Obj.slotRejectReason s.loadSlot)))

/-- A transfer is dropped: the slot is empty. -/
def State.dropTransfer (s : State) : State := (s.wr (Obj.slotState s.loadSlot) 0).slotInfo s.loadSlot false

def execPldmCancelUpdateComponent (p : HostPort) (s : State) : Host.Outcome State Fault Refusal :=
  onPort p s fun s => s.inUpdate p 3 fun l => (s.dropTransfer.setLoad (some { l with phase := 2 })).reply p prPldm 0 []

def execPldmCancelUpdate (p : HostPort) (s : State) : Host.Outcome State Fault Refusal :=
  onPort p s fun s =>
    match s.fw.load with
    | none => s.reply p prPldm 0x80 []
    | some l =>
      if l.port ≠ p then s.reply p prPldm 0x80 []
      else ((if l.phase = 3 then s.dropTransfer else s).setLoad none).reply p prPldm 0 []

/-- ActivateFirmware: acknowledged, and nothing changes. -/
def execPldmActivateFirmware (p : HostPort) (s : State) : Host.Outcome State Fault Refusal := onPort p s fun s => s.reply p prPldm 0 []

/-! ### The boot record and boot (R447, R448) -/

/-- The current copy: valid CRC, later sequence number. -/
def State.bootRec (s : State) : BootRec :=
  let a := s.fw.bootA
  let b := s.fw.bootB
  if a.good ∧ (¬ b.good ∨ b.seq ≤ a.seq) then a else b

/-- Change the boot record: the older copy is written and read back, and only then current. -/
def State.setBoot (s : State) (f : BootRec → BootRec) : State :=
  let c := s.bootRec
  let n : BootRec := { f c with seq := c.seq + 1, good := true }
  if c = s.fw.bootA then { s with fw := { s.fw with bootB := n } } else { s with fw := { s.fw with bootA := n } }

/-- Versions of the firmware in the active slot. -/
def State.readVersions (s : State) (n : Nat) : State :=
  ((s.wr Obj.activeSlot n).wr Obj.fwVersion (s.mf n 8 4)).wr Obj.dictVersion (s.mf n 14 2)

/-- The boot record goes back to the other slot (R452); a slot that failed a check is invalid, another stays staged. -/
def State.revertBoot (s : State) (cause reason : Nat) : State :=
  let n := s.bootRec.active
  let s := s.setBoot fun b => { b with active := 1 - n, trial := false, count := 0 }
  let s := if reason = 0 then s.wr (Obj.slotState n) 2
    else ((s.wr (Obj.slotState n) 4).wr (Obj.slotRejectReason n) reason).slotInfo n false
  (((s.wr Obj.activeSlot (1 - n)).wr (Obj.slotState (1 - n)) 3).wr Obj.bootState 2).raise Ev.fwReverted [p8 cause]

/-- The active slot fails outside trial: service state, recovery, fw-boot-fault (R448). -/
def State.bootFault (s : State) (n reason : Nat) : State :=
  let s := ((((s.wr Obj.activeSlot n).wr (Obj.slotState n) 4).wr (Obj.slotRejectReason n) reason).slotInfo n false).wr Obj.bootState 3
  (s.wr Obj.moduleState 1).raiseKept Ev.fwBootFault [p8 n, p8 reason]

/-- A valid slot is measured and loaded, and settings follow a change of dictionary version (R454). -/
def State.bootLoad (s : State) (n : Nat) : State :=
  let was := s.rd Obj.dictVersion
  let s := ((s.readVersions n).wr (Obj.slotState n) 3).slotInfo n true
  let s := if s.rd (Obj.slotState (1 - n)) = 3 then s.wr (Obj.slotState (1 - n)) 2 else s
  let s := if s.bootRec.trial then s.wr Obj.bootState 1 else if s.rd Obj.bootState = 2 then s else s.wr Obj.bootState 0
  let settings := (s.dict.stored.map SettingsRec.bytes).getD []
  let s := { s with fw := { s.fw with measured := [Config.romHash, s.manifestHash n, Config.sha384 settings] } }
  if s.start.domain then s.migrate was else s

/-- Steps 2 to 5 of R447; `tries` bounds the one revert a start can hold. -/
def State.bootSlot (s : State) : Nat → State
  | 0 => s
  | tries + 1 =>
    let b := s.bootRec
    let n := b.active
    let r := s.imageReject n false
    if r = 0 then s.bootLoad n
    else if b.trial then (s.revertBoot 1 r).bootSlot tries
    else s.bootFault n r

/-- BOOT: at a start of the domains, in stage 4. -/
def State.boot (s : State) : State :=
  if s.start.stage ≠ 4 ∨ s.rd Obj.moduleState ≠ 0 ∨ s.fw.measured ≠ [] then s
  else
    let s := if s.bootRec.trial then s.setBoot fun b => { b with count := b.count + 1 } else s
    let s := if s.bootRec.trial ∧ 3 < s.bootRec.count then s.revertBoot 3 0 else s
    s.bootSlot 2

def execBoot (s : State) : Host.Outcome State Fault Refusal := .next s.boot

/-! ### Activation (R449 to R451) -/

/-- Status of a write of act_tick from the state check on. -/
def State.actTickCond (s : State) (v : Nat) : Nat :=
  let g := s.rd Obj.groupState
  let pending : Bool := match s.coll.prepare with
    | some p => p.fwActivate
    | none => false
  if v = 0 then 0
  else if ¬ s.mayActivate ∨ s.inRecovery ∨ pending ∨ s.fw.phase ≠ 0 ∨ (1 ≤ g ∧ g ≤ 3) then 0x09
  else 0

/-- A tick schedules a local activation, 0 cancels one that has not begun to restart. -/
def State.actTickApply (s : State) (v : Nat) : State :=
  if v ≠ 0 then (s.wr Obj.actTick v).wr Obj.actMode 2
  else
    let s := s.wr Obj.actTick 0
    if s.rd Obj.actMode ≠ 2 then s
    else
      let s := s.wr Obj.actMode 0
      if s.fw.phase = 1 then { s with fw := { s.fw with phase := 0 }, cmd := { s.cmd with hold := false } } else s

def execActTickWrite (src : Src) (v : Nat) (s : State) : Host.Outcome State Fault Refusal :=
  .next (s.act src Obj.actTick v false (s.actTickCond v) fun s => s.actTickApply v)

/-- Step 1 of an activation: dispatch is held from every window. -/
def State.holdDispatch (s : State) : State := { s with cmd := { s.cmd with hold := true }, fw := { s.fw with phase := 1 } }

/-- LOCAL_ACTIVATION_TICK. -/
def State.localTick (s : State) : State :=
  if s.rd Obj.actMode = 2 ∧ s.rd Obj.actTick ≤ s.now ∧ s.fw.phase = 0 ∧ s.rd Obj.moduleState = 2 then s.holdDispatch else s

def execLocalActivationTick (s : State) : Host.Outcome State Fault Refusal := .next s.localTick

/-- Have the passes of committed steps committed, and for a local activation every dispatched record retired, drains apart? -/
def State.quiet (s : State) : Bool :=
  s.upd.arms.all (fun a => !a.go) &&
  (s.rd Obj.actMode == 1 || (List.range 8).all fun w => (s.win w).queue.all fun e =>
    !e.disp || (s.store.drains.find (recKey w e.seq)).isSome)

/-- The core, Chisel and Plinth main domains restart: stages 4, 5 and 8, the bank tier in self-refresh (R450, R452, R489). -/
def State.restartDomains (s : State) : State :=
  let s := ((s.wr Obj.moduleState 0).setRail retentionMv).freshArrayQueues
  { s with
    fw := { s.fw with phase := 2, restartAt := s.now, measured := [] }
    cmd := { s.cmd with hold := true }
    tier := { s.tier with selfRefresh := true }
    start := { s.start with stage := 4, since := s.now, domain := true } }

/-- FW_ACTIVATION: with dispatch held and the module quiet, the boot record names the new slot in trial, and the domains restart. -/
def State.activate (s : State) : State :=
  if s.fw.phase ≠ 1 ∨ ¬ s.quiet then s
  else
    let n := s.bootRec.active
    let s := s.setBoot fun b => { b with active := 1 - n, trial := true, count := 0 }
    let s := { s with fw := { s.fw with oldVersion := s.rd Obj.fwVersion, revert := none } }
    let s := ((s.wr (Obj.slotState n) 2).wr (Obj.slotState (1 - n)) 3).wr Obj.activeSlot (1 - n)
    (((s.wr Obj.actMode 0).wr Obj.actTick 0).wr Obj.actStep 0).restartDomains

def execFwActivation (s : State) : Host.Outcome State Fault Refusal := .next s.activate

/-- Steps 7 and 8: self-refresh is left, the array returns to OP7 and the grant rises from the floors; dispatch resumes, and an
activation is reported (R450). -/
def State.restartDone (s : State) : State :=
  let s := s.runArray
  let s := { s with
    fw := { s.fw with phase := 0 }, cmd := { s.cmd with hold := false }, start := { s.start with domain := false } }
  if s.fw.revert.isSome ∨ s.rd Obj.bootState ≠ 1 then s else s.raise Ev.fwActivated [p32 s.fw.oldVersion, p32 (s.rd Obj.fwVersion)]

/-! ### Trial, revert and confirmation (R452, R453) -/

/-- A revert with its cause: the boot record goes back, and the domains restart, from stage 2 where a fault has turned the rails off. In recovery the image staged in the failed slot is
booted, and start-up goes on from stage 4. -/
def State.revertTo (s : State) (cause : Nat) : State :=
  if s.inRecovery then
    let n := s.rd Obj.activeSlot
    let s := (((s.wr (Obj.slotState n) 3).wr Obj.bootState 2).raise Ev.fwReverted [p8 cause]).wr Obj.moduleState 0
    { s with fw := { s.fw with measured := [] }, start := { s.start with stage := 4, since := s.now } }
  else
    let s := s.revertBoot cause 0
    let s := { s with fw := { s.fw with revert := some cause } }
    if s.start.rails then s.restartDomains
    else { s.wr Obj.moduleState 0 with start := { s.start with stage := if s.start.trayReady then 2 else 1, since := s.now, domain := false } }

/-- Status of fw_revert from the state check on. -/
def State.revertCond (s : State) : Nat :=
  let g := s.rd Obj.groupState
  let b := s.rd Obj.bootState
  if (b = 1 ∨ (b = 3 ∧ s.rd (Obj.slotState s.loadSlot) = 2)) ∧ (g = 0 ∨ g = 4 ∨ g = 5) then 0 else 0x09

def execFwRevert (src : Src) (arg : Nat) (s : State) : Host.Outcome State Fault Refusal :=
  .next (s.act src Obj.fwRevert arg false s.revertCond fun s => s.revertTo 4)

/-- TRIAL_TIMEOUT: not operational 30 s after the restart. -/
def State.trialTimeout (s : State) : State :=
  if s.rd Obj.bootState ≤ 1 ∧ s.bootRec.trial ∧ s.rd Obj.moduleState ≤ 1 ∧ 30000 * ms ≤ s.now - s.fw.restartAt then s.revertTo 2 else s

def execTrialTimeout (s : State) : Host.Outcome State Fault Refusal := .next s.trialTimeout

/-- Burn a fuse, retried once: does it read back burnt? -/
def State.burn (s : State) (fuse : Nat) : State × Bool :=
  let a := Config.fuseBurns fuse s.free
  let b := a || Config.fuseBurns fuse (s.free + 1)
  ({ s with free := s.free + 2 }, b)

/-- Burn a list of fuses; the number of the burnt, in order, and did one fail? -/
def State.burnAll (s : State) (fs : List Nat) : State × List Nat × Bool :=
  fs.foldl (fun (a : State × List Nat × Bool) f =>
    let (s, ok) := a.1.burn f
    (s, if ok then a.2.1 ++ [f] else a.2.1, a.2.2 || !ok)) (s, [], false)

/-- Confirmation: trial cleared, fw_svn and revocation fuses burnt, fw-confirmed and key-revoked raised (R453, R498 item 8). -/
def State.confirm (s : State) : State :=
  let n := s.bootRec.active
  let s := (s.setBoot fun b => { b with trial := false, count := 0 }).wr Obj.bootState 0
  let svn := s.rd Obj.fwSvn
  let (s, burnt, bad1) := s.burnAll ((List.range (s.mf n 12 1 - svn)).map (svn + ·))
  let s := s.wr Obj.fwSvn (svn + burnt.length)
  let new := (List.range 8).filter fun i => s.mf n 20 1 >>> i % 2 == 1 && s.rd Obj.keyRevoked >>> i % 2 == 0
  let (s, gone, bad2) := s.burnAll (new.map (64 + ·))
  let s := s.wr Obj.keyRevoked (gone.foldl (fun v f => v ||| 2 ^ (f - 64)) (s.rd Obj.keyRevoked))
  let s := if bad1 ∨ bad2 then s.raiseKept Ev.svnFuseFault [] else s
  let s := gone.foldl (fun s f => s.raise Ev.keyRevoked [p8 (f - 64)]) (s.raise Ev.fwConfirmed [])
  if 64 ≤ s.rd Obj.fwSvn then s.lifeExceed 8 else if 56 ≤ s.rd Obj.fwSvn then s.lifeWarn 8 else s

/-- The first step commit under a trial confirms it. -/
def State.confirmAtCommit (s : State) : State := if s.rd Obj.bootState = 1 then s.confirm else s

def execFwConfirm (src : Src) (arg : Nat) (s : State) : Host.Outcome State Fault Refusal :=
  .next (s.act src Obj.fwConfirm arg false (if s.rd Obj.bootState = 1 ∧ s.cmd.stepNow = none then 0 else 0x09) State.confirm)

/-! ### SPDM on the DOE mailbox (R456, R457); codes as DSP0274 gives them -/

/-- The measurement blocks of Table 16.7. -/
def State.measurement (s : State) (i : Nat) : Bytes :=
  let n := s.rd Obj.activeSlot
  match i with
  | 1 => le 48 (s.fw.measured.getD 0 Config.romHash)
  | 2 => le 48 (s.fw.measured.getD 1 0)
  | 3 => if s.rd (Obj.slotState (1 - n)) = 0 ∨ s.rd (Obj.slotState (1 - n)) = 4 then List.replicate 48 0 else le 48 (s.manifestHash (1 - n))
  | 4 => p8 (s.rd Obj.fwSvn) ++ p8 (s.rd Obj.keyRevoked) ++ p8 (s.rd Obj.secState) ++ p8 (s.rd Obj.bootState) ++ p32 s.fw.testEntries
  | _ => le 48 (s.fw.measured.getD 2 (Config.sha384 ((s.dict.stored.map SettingsRec.bytes).getD [])))

def State.spdm (s : State) (p : HostPort) : Spdm :=
  match p with
  | .ha => s.fw.spdmA
  | .hb => s.fw.spdmB

def State.setSpdm (s : State) (p : HostPort) (x : Spdm) : State :=
  match p with
  | .ha => { s with fw := { s.fw with spdmA := x } }
  | .hb => { s with fw := { s.fw with spdmB := x } }

/-- Bytes of a response that a standard or a random draw fixes, from the model's counter of free values. -/
def State.fresh (s : State) (kind : Nat) : State × Bytes := ({ s with free := s.free + 1 }, Config.response kind s.free)

/-- A request out of its place: ERROR, UnexpectedRequest. -/
def State.spdmError (s : State) (p : HostPort) : State := s.reply p prSpdm 0x7F [4]

/-- A request that needs the connection at a phase. -/
def State.spdmAt (s : State) (p : HostPort) (phase : Nat) (f : State) : State := if phase ≤ (s.spdm p).phase then f else s.spdmError p

/-- A signed response: content, a fresh part, and the alias key's signature over both. -/
def State.signed (s : State) (p : HostPort) (code : Nat) (body : Bytes) : State :=
  let (s, r) := s.fresh code
  s.reply p prSpdm code (body ++ r ++ Config.signature 2 s.free (body ++ r))

/-- GET_VERSION: the connection starts again; versions 1.2 and 1.3. -/
def execSpdmGetVersion (p : HostPort) (s : State) : Host.Outcome State Fault Refusal :=
  onPort p s fun s => (s.setSpdm p { phase := 1, session := none }).reply p prSpdm 0x04 [0x12, 0x13]

/-- The capability flags of Table 16.6: CERT, CHAL, MEAS with signature, ENCRYPT, MAC, KEY_EX, HBEAT. -/
def spdmCaps : Nat := 0x22D6

def execSpdmGetCapabilities (p : HostPort) (s : State) : Host.Outcome State Fault Refusal :=
  onPort p s fun s => s.spdmAt p 1 ((s.setSpdm p { (s.spdm p) with phase := max 2 (s.spdm p).phase }).reply p prSpdm 0x61 (p32 spdmCaps))

/-- NEGOTIATE_ALGORITHMS: ECDSA P-384, SHA-384, secp384r1, AES-256-GCM, measurement hash SHA-384. -/
def execSpdmNegotiateAlgorithms (p : HostPort) (s : State) : Host.Outcome State Fault Refusal :=
  onPort p s fun s => s.spdmAt p 2 ((s.setSpdm p { (s.spdm p) with phase := 3 }).reply p prSpdm 0x63
    (p32 0x80 ++ p32 0x02 ++ p16 0x10 ++ p16 0x02 ++ p32 0x04))

/-- The certificate chain of slot 0: the alias certificate changes with the image. -/
def State.certChain (s : State) : Bytes := Config.idevidCert ++ Config.response 0x02 (s.fw.measured.getD 1 0)

def execSpdmGetDigests (p : HostPort) (s : State) : Host.Outcome State Fault Refusal :=
  onPort p s fun s => s.spdmAt p 3 (s.reply p prSpdm 0x01 (le 48 (Config.sha384 s.certChain)))

def execSpdmGetCertificate (p : HostPort) (s : State) : Host.Outcome State Fault Refusal :=
  onPort p s fun s => s.spdmAt p 3 (s.reply p prSpdm 0x02 s.certChain)

def execSpdmChallenge (p : HostPort) (s : State) : Host.Outcome State Fault Refusal :=
  onPort p s fun s => s.spdmAt p 3 (s.signed p 0x03 (le 48 (Config.sha384 s.certChain)))

def execSpdmGetMeasurements (p : HostPort) (s : State) : Host.Outcome State Fault Refusal :=
  onPort p s fun s => s.spdmAt p 3 (s.signed p 0x60 ([1, 2, 3, 4, 5].flatMap s.measurement))

/-- KEY_EXCHANGE: a secured session opens, its number and heartbeat period from the responder. -/
def execSpdmKeyExchange (p : HostPort) (s : State) : Host.Outcome State Fault Refusal :=
  onPort p s fun s => s.spdmAt p 3 (
    let id := unle ((Config.response 0x64 s.free).take 2)
    let v : Secured := { id := id, done := false, beat := s.now, period := unle ((Config.response 0x65 0).take 1) % 255 + 1 }
    (s.setSpdm p { (s.spdm p) with session := some v }).signed p 0x64 (p16 id ++ p8 v.period))

/-- A message of the secured session of a port. -/
def State.inSession (s : State) (p : HostPort) (done : Bool) (f : Secured → State) : State :=
  match (s.spdm p).session with
  | some v => if v.done = done then f v else s.spdmError p
  | none => s.spdmError p

def State.setSession (s : State) (p : HostPort) (v : Option Secured) : State := s.setSpdm p { (s.spdm p) with session := v }

def execSpdmFinish (p : HostPort) (s : State) : Host.Outcome State Fault Refusal :=
  onPort p s fun s => s.inSession p false fun v => (s.setSession p (some { v with done := true, beat := s.now })).reply p prSpdm 0x65 []

def execSpdmHeartbeat (p : HostPort) (s : State) : Host.Outcome State Fault Refusal :=
  onPort p s fun s => s.inSession p true fun v => (s.setSession p (some { v with beat := s.now })).reply p prSpdm 0x68 []

def execSpdmEndSession (p : HostPort) (s : State) : Host.Outcome State Fault Refusal :=
  onPort p s fun s => s.inSession p true fun _ => (s.setSession p none).reply p prSpdm 0x6C []

/-- SPDM_HEARTBEAT_TIMEOUT: a session whose period passes without a HEARTBEAT ends. -/
def State.heartbeatTimeout (s : State) (p : HostPort) : State :=
  match (s.spdm p).session with
  | some v => if v.period * 1000 * ms ≤ s.now - v.beat then s.setSession p none else s
  | none => s

def execSpdmHeartbeatTimeout (p : HostPort) (s : State) : Host.Outcome State Fault Refusal := .next (s.heartbeatTimeout p)

/-- DOE Discovery: entry `i` of the protocols of the mailbox, and the next index, 0 after the last. -/
def execDoeDiscovery (p : HostPort) (i : Nat) (s : State) : Host.Outcome State Fault Refusal :=
  onPort p s fun s => if i ≤ 2 then s.reply p prDoe 0 (p16 1 ++ p8 i ++ p8 ((i + 1) % 3)) else s.reply p prDoe 0 (p16 0xFFFF ++ p8 0 ++ p8 0)

/-! ### Dual reports (R458 to R460) -/

/-- A byte string made `n` bytes long. -/
def fit (n : Nat) (b : Bytes) : Bytes := (b ++ List.replicate n 0).take n

/-- A block of 16 leaves is reserved in service flash before its first leaf is used (R459). -/
def State.reserveLeaves (s : State) : State :=
  let k := min 16 (s.rd Obj.lmsRemaining)
  let s := { s with fw := { s.fw with leafLeft := k } }
  s.wr Obj.lmsRemaining (s.rd Obj.lmsRemaining - k)

/-- Take a leaf: a block of 16 is reserved in service flash when the last is used up (R459). -/
def State.takeLeaf (s : State) : State × Nat :=
  let s := if s.fw.leafLeft ≠ 0 then s else s.reserveLeaves
  let leaf := s.rd Obj.lmsTotal - s.rd Obj.lmsRemaining - s.fw.leafLeft
  ({ s with fw := { s.fw with leafLeft := s.fw.leafLeft - 1 } }, leaf)

/-- lms-low once, and lms-exhausted when the count reaches 0 (R460, R498 item 6). -/
def State.leafNotes (s : State) (before : Nat) : State :=
  let n := s.rd Obj.lmsRemaining
  let s := if n < 1048576 ∧ ¬ s.fw.lowTold then
      (({ s with fw := { s.fw with lowTold := true } }).raise Ev.lmsLow []).lifeWarn 6 else s
  if n = 0 ∧ before ≠ 0 then (s.raise Ev.lmsExhausted []).lifeExceed 6 else s

/-- `n` printable characters of a factory string (R438). -/
def factoryText (k n : Nat) : Bytes := (List.range n).map fun i => BitVec.ofNat 8 (0x20 + ((Config.factoryStr k).getD i 0).toNat % 95)

/-- Bytes 0 to 319 of a dual report (Table 16.8). -/
def State.dualBody (s : State) (nonce : Bytes) : Bytes :=
  let i := 1 - s.rd Obj.activeSlot
  let ide (p : HostPort) : Nat := if s.rd (Obj.ideState (portNo p)) = 2 then 1 else 0
  p16 1 ++ p16 3540 ++ fit 32 nonce ++ factoryText Obj.serial 12 ++ p8 (s.rd Obj.hwRevision) ++ p8 (s.rd Obj.numericsLevel) ++
    p16 (s.rd Obj.dictVersion) ++ p32 (s.rd Obj.fwVersion) ++ p32 (s.rd (Obj.slotFwVersion i)) ++ p8 (s.rd (Obj.slotState i)) ++
    p8 (s.rd Obj.fwSvn) ++ p8 (s.rd Obj.secState) ++
    p8 ((if s.rd Obj.bootState = 1 then 1 else 0) + 2 * ide .ha + 4 * ide .hb + (if s.rd Obj.lmsRemaining < 1048576 then 8 else 0)) ++
    p32 (s.rd Obj.powerSession) ++ p64 s.now ++ p32 (s.rd Obj.lmsRemaining) ++ s.measurement 1 ++ s.measurement 2 ++ s.measurement 3 ++ s.measurement 5 ++
    le 48 (Config.sha384 Config.idevidCert)

/-- A dual report: both signatures over the same bytes. Vendor statuses: 0 report, 1 busy with the milliseconds left, 2 exhausted. -/
def State.dualReport (s : State) (p : HostPort) (nonce : Bytes) : State :=
  let wait := match s.fw.reportAt with
    | some t => s.rd Obj.attMinIntervalS * 1000 * ms - (s.now - t)
    | none => 0
  if s.rd Obj.lmsRemaining = 0 then s.reply p prVendor 2 []
  else if wait ≠ 0 then s.reply p prVendor 1 (p32 ((wait + ms - 1) / ms))
  else
    let before := s.rd Obj.lmsRemaining
    let (s, leaf) := s.takeLeaf
    let s := (s.countSat Obj.attReports 1).leafNotes before
    let b := s.dualBody nonce
    let s := s.reply p prVendor 0 (b ++ fit 96 (Config.signature 0 s.free b) ++ fit 3124 (Config.signature 1 leaf b))
    { s with free := s.free + 1, fw := { s.fw with reportAt := some s.now } }

def execDualReport (p : HostPort) (nonce : Bytes) (s : State) : Host.Outcome State Fault Refusal := onPort p s fun s => s.dualReport p nonce

/-! ### Link encryption (R461) -/

def State.ideKey (s : State) (p : HostPort) : Option Bytes :=
  match p with
  | .ha => s.fw.ideKeyA
  | .hb => s.fw.ideKeyB

def State.setIdeKey (s : State) (p : HostPort) (k : Option Bytes) : State :=
  match p with
  | .ha => { s with fw := { s.fw with ideKeyA := k } }
  | .hb => { s with fw := { s.fw with ideKeyB := k } }

/-- The link stream of a port stops; for an owner port ide-stopped is raised, and R196 takes its link as down. -/
def State.ideStop (s : State) (p : HostPort) : State :=
  if s.rd (Obj.ideState (portNo p)) ≠ 2 then s
  else
    let s := s.wr (Obj.ideState (portNo p)) 3
    if (List.range 8).any fun w => (s.win w).owner == some p then s.raise Ev.ideStopped [p8 (portNo p)] else s

def execIdeStopped (p : HostPort) (s : State) : Host.Outcome State Fault Refusal := .next (s.ideStop p)

/-- IDE_KM inside a secured session: 0 a key is programmed, 1 the stream goes, 2 it stops. A key programmed while the stream is active
refreshes it. -/
def State.ideKm (s : State) (p : HostPort) (op : Nat) (key : Bytes) : State :=
  s.inSession p true fun _ =>
    let st := s.rd (Obj.ideState (portNo p))
    let s := match op with
      | 0 => (if st = 2 then s else s.wr (Obj.ideState (portNo p)) 1).setIdeKey p (some key)
      | 1 => if (s.ideKey p).isSome then s.wr (Obj.ideState (portNo p)) 2 else s
      | _ => (s.ideStop p).setIdeKey p none
    s.reply p prSpdm 0xFE (p8 op)

def execIdeKm (p : HostPort) (op : Fin 3) (key : Bytes) (s : State) : Host.Outcome State Fault Refusal := onPort p s fun s => s.ideKm p op key

/-! ### The vendor test state (R462) -/

/-- VENDOR_TEST_NONCE: in the service state, a fresh nonce of 32 bytes. -/
def State.vendorNonce (s : State) (p : HostPort) : State :=
  if s.rd Obj.moduleState ≠ 1 then s.reply p prVendor 3 []
  else
    let n := le 32 (Config.nonce s.free)
    ({ s with free := s.free + 1, fw := { s.fw with nonce := some n } }).reply p prVendor 0 n

def execVendorTestNonce (p : HostPort) (s : State) : Host.Outcome State Fault Refusal := onPort p s fun s => s.vendorNonce p

/-- Does a token unlock: serial, nonce, key positions, both public keys and both signatures over what stands before them? -/
def State.tokenOk (s : State) (t nonce : Bytes) : Bool :=
  let f (o n : Nat) : Bytes := (t.drop o).take n
  let head := f 0 198
  f 0 12 == factoryText Obj.serial 12 && f 12 32 == nonce && t.length == 1906 &&
    s.keyLive 0 (unle (f 44 1)) && Config.sha384 (f 46 96) == Config.keyHash 0 (unle (f 44 1)) &&
    s.keyLive 1 (unle (f 45 1)) && Config.sha256 (f 142 56) == Config.keyHash 1 (unle (f 45 1)) &&
    Config.ecdsaOk (f 46 96) head (f 198 96) && Config.lmsOk (f 142 56) head (f 294 1612)

/-- Entry: tier T1, stream zones, general zones and catalogue are erased, persistent objects take their defaults. -/
def State.enterVendorTest (s : State) : State :=
  let s := (List.range 4).foldl (fun s z => (s.wr (Obj.szWp z) 0).wr (Obj.szState z) 0) s
  let s := { s with
    tier := { s.tier with regions := [], mem := [], map := [], waits := [] }
    store := { StoreState.reset with blocks := s.store.blocks, sparesUsed := s.store.sparesUsed, dies := s.store.dies, blockMap := s.store.blockMap }
    upd := UpdState.reset
    fw := { s.fw with nonce := none, testEntries := s.fw.testEntries + 1 } }
  let s := s.dropUntaken.allDefaults.raiseKept Ev.vendorTestEntered []
  (s.wr Obj.secState 2).wr Obj.moduleState 3

/-- VENDOR_TEST_UNLOCK: each nonce serves one token. -/
def State.vendorUnlock (s : State) (p : HostPort) (token : Bytes) : State :=
  match s.fw.nonce with
  | none => s.reply p prVendor 3 []
  | some n =>
    let s := { s with fw := { s.fw with nonce := none } }
    if s.rd Obj.moduleState = 1 ∧ s.tokenOk token n then (s.enterVendorTest).reply p prVendor 0 [] else s.reply p prVendor 3 []

def execVendorTestUnlock (p : HostPort) (token : Bytes) (s : State) : Host.Outcome State Fault Refusal :=
  onPort p s fun s => s.vendorUnlock p token

end Sys2Proof.Machine
end

