-- ==== Sys2Proof/Machine/Power.lean ====
section
/-! DEFINITION. Power, thermal and coolant (chapter 13): input bands (R358), Bellows (R366 to R371), the estimator (R363 to R365), pace
following (R373), sensors (R374 to R376), the thermal ceiling and trip (R377 to R379), coolant (R380 to R384). -/
namespace Sys2Proof.Machine

def State.setPower (s : State) (f : PowerState → PowerState) : State := { s with power := f s.power }

/-! ### Input voltage (R358, Table 13.2); each command carries its average in mV -/

/-- INPUT_OVP: above 44 V for 1 µs every rail goes off and the opening is latched; input-ovp is kept for the next session (R433). -/
def State.inputOvp (s : State) (mv : Nat) : State :=
  if mv ≤ 44000 ∨ s.power.ovp then s
  else
    let e : FlashEvent := { code := Ev.inputOvp, session := s.rd Obj.powerSession, ticks := s.now, params := [], reported := false }
    let s := { s with dict := { s.dict with flash := s.dict.flash ++ [e] } }
    { (s.lose .power).setPower fun (p : PowerState) => { p with ovp := true } with standby := false }

def execInputOvp (mv : Nat) (s : State) : Host.Outcome State Fault Refusal := .next (s.inputOvp mv)

/-- INPUT_OVP_RELEASE: after 1 s below 40 V the latch releases; standby power-good begins start-up again. -/
def execInputOvpRelease (mv : Nat) (s : State) : Host.Outcome State Fault Refusal :=
  .next (if mv < 40000 then s.setPower fun (p : PowerState) => { p with ovp := false } else s)

def execInputHigh (mv : Nat) (s : State) : Host.Outcome State Fault Refusal :=
  .next (if s.standby ∧ 40000 < mv ∧ mv ≤ 44000 then s.raiseOnce Ev.inputHigh 0 [] else s)

def execInputLow (mv : Nat) (s : State) : Host.Outcome State Fault Refusal :=
  .next (if s.standby ∧ 28000 ≤ mv ∧ mv < 32000 then s.raiseOnce Ev.inputLow 0 [] else s)

/-- INPUT_LOW_PARK: 28 to 30 V for 1 ms. -/
def execInputLowPark (mv : Nat) (s : State) : Host.Outcome State Fault Refusal :=
  .next (if s.standby ∧ 28000 ≤ mv ∧ mv < 30000 then
    ((s.raiseOnce Ev.inputLowPark 0 []).setPower fun (p : PowerState) => { p with inputPark := true }).repower else s)

/-- INPUT_LOW_RESUME: 31 V or more for 100 ms. -/
def execInputLowResume (mv : Nat) (s : State) : Host.Outcome State Fault Refusal :=
  .next (if s.standby ∧ 31000 ≤ mv then
    ((s.endEpisode Ev.inputLowPark 0).setPower fun (p : PowerState) => { p with inputPark := false }).repower else s)

/-- POWER_FAIL: the input is below 28 V for 10 µs or removed; power-fail is kept with session, ticks and voltage, and every volatile
state is lost (R490). -/
def State.powerFail (s : State) (mv : Nat) : State :=
  if ¬ s.standby ∨ 28000 ≤ mv then s
  else { (s.raiseKept Ev.powerFail [p16 mv]).lose .power with standby := false }

def execPowerFail (mv : Nat) (s : State) : Host.Outcome State Fault Refusal := .next (s.powerFail mv)

/-! ### Bellows (R366 to R369) -/

/-- Does Bellows run: the rails are up and start-up has reached stage 5 (Table 18.2)? -/
def State.bellowsOn (s : State) : Bool := s.start.rails && decide (5 ≤ s.start.stage)

def State.demand (s : State) (d : Nat) : Demand := s.power.demands.get Demand.none d

/-- Calibration gain k as an exact value. -/
def PowerState.gain (p : PowerState) : Ex := ⟨p.kNum, p.kDen, 0⟩

/-- An estimate in whole watts times the calibration gain (R363). -/
def State.gained (s : State) (w : Nat) : Nat := (s.power.gain.mul (Ex.int w)).round.toNat

/-- BELLOWS_DEMAND: a domain's request for the next epoch, compute's with its E0 power at each operating point; the domain's estimates
come before the gain, and count with it. -/
def State.takeDemand (s : State) (d e0 e1 e2 : Nat) (perOp : List Nat) : State :=
  if ¬ s.bellowsOn then s
  else
    let x : Demand := { e0 := s.gained e0, e1 := s.gained e1, e2 := s.gained e2, epoch := s.now / 1000, told := false }
    (s.setPower fun (p : PowerState) => { p with
      demands := p.demands.set Demand.none d x, perOp := if d = 0 then perOp.map s.gained else p.perOp }).wr (Obj.requestW (d + 1))
        (min 1800 (x.e0 + x.e1 + x.e2))

def execBellowsDemand (d : Fin 5) (e0 e1 e2 : Nat) (perOp : List Nat) (s : State) : Host.Outcome State Fault Refusal :=
  .next (s.takeDemand d e0 e1 e2 perOp)

/-- The limits of R366 with their codes. -/
def State.capLimits (s : State) : List (Nat × Nat) :=
  [(s.rd Obj.capW, 0)] ++ (match s.power.heat with
    | some h => [(h, if s.power.lost then 3 else 1)]
    | none => []) ++
  (if s.rd Obj.vinMv = 0 then [] else [(s.rd Obj.vinMv / 20, 2)])

/-- The cap in force and the limit that binds. -/
def State.capNow (s : State) : Nat × Nat :=
  s.capLimits.foldl (fun b x => if x.1 < b.1 then x else b) (s.rd Obj.capW, 0)

/-- Budget arithmetic is exact in units of 1/256 µW: a watt, and a watt at a duty of 1/256. -/
def wattQ : Nat := 256000000
def dutyQ : Nat := 1000000

/-- Admit demands in order while they fit: the total, and the demands admitted. -/
def readmit (b : Nat) : Nat → List (Nat × Nat) → Nat × List (Nat × Nat)
  | tot, [] => (tot, [])
  | tot, (d, e) :: r =>
    if e = 0 ∨ tot + e * wattQ ≤ b then
      let (t, l) := readmit b (tot + e * wattQ) r
      (t, (d, e) :: l)
    else (tot, [])

/-- E0 of compute at an operating point and duty. -/
def State.computeQ (s : State) (op d : Nat) : Nat :=
  if op < 7 then s.power.perOp.getD op 0 * wattQ else s.power.perOp.getD 7 0 * d * dutyQ

/-- Floors of every domain, and E0 of links, memory and ingest, which is never reduced. -/
def State.baseQ (s : State) : Nat :=
  (((List.range 5).map Config.floorW).sum + (s.demand 1).e0 + (s.demand 2).e0 + (s.demand 3).e0) * wattQ

/-- The lowest operating point, from `op` on, whose E0 fits the budget over a base; 7 at last. -/
def State.fitOp (s : State) (b base : Nat) : Nat → Nat → Nat
  | 0, op => op
  | n + 1, op => if op < 7 ∧ b < base + s.computeQ op 256 then s.fitOp b base n (op + 1) else op

/-- The largest duty at OP7 that fits, at least 1/256. -/
def State.fitDuty (s : State) (b base : Nat) : Nat :=
  let u := s.power.perOp.getD 7 0 * dutyQ
  if u = 0 then 256 else max 1 (min 256 ((b - base) / u))

/-- The order in which classes are readmitted: ingest, memory, links, compute. -/
def admitOrder : List Nat := [3, 2, 1, 0]

/-- The operating point and duty that compute runs at when its E0 alone is fitted. Without a request it is at its floor, clock-gated at OP7
(Table 13.6). -/
def State.fitCompute (s : State) (b base top d0 : Nat) : Nat × Nat :=
  if s.power.perOp.isEmpty then (7, 0)
  else
    let op := s.fitOp b base 7 top
    (op, if op = 7 then min d0 (s.fitDuty b base) else 256)

/-- The grants of R368 over a budget `b` and compute ceiling `top` at duty `d0`; `b0` is the budget before its slew. -/
def State.bellows (s : State) (b b0 top d0 : Nat) : Grant :=
  let base := s.baseQ
  let e1 := admitOrder.map fun d => (d, (s.demand d).e1)
  let e2 := admitOrder.map fun d => (d, (s.demand d).e2)
  let (op, d) := s.fitCompute b base top d0
  let (tot, a1) := readmit b (base + s.computeQ op d) e1
  let (tot, a2) := readmit b tot e2
  let left (l a : List (Nat × Nat)) : Bool := l.any fun x => x.2 != 0 && !a.contains x
  let of (l : List (Nat × Nat)) (d : Nat) : Nat := ((l.filter fun x => x.1 == d).map Prod.snd).sum
  { epoch := s.now / 1000
    watts := (List.range 5).map fun k => Config.floorW k + (if k = 0 then s.computeQ op d / wattQ else if k = 4 then 0 else (s.demand k).e0) +
      of a1 k + of a2 k
    total := tot, op := op, duty := d, deferred := if left e1 a1 then 2 else if left e2 a2 then 1 else 0
    budgetOp := s.fitOp b0 base 7 0, park := false, fallback := false }

/-- A grant of floors alone. -/
def State.floorGrant (s : State) (duty : Nat) (park : Bool) : Grant :=
  { epoch := s.now / 1000, watts := (List.range 5).map Config.floorW, total := floorQ, op := 7,
    duty := duty, deferred := 2, budgetOp := 7, park := park, fallback := false }

/-- Is the module parked for a cause other than its cap? -/
def State.heldDown (s : State) : Bool := s.power.hold || s.power.heatPark || s.power.inputPark || s.power.trayPark

/-- BELLOWS_GRANT: once per epoch, from tick 200. A cap below 210 W parks (R370); while parked every domain stays at its floor, and compute
comes out of it at the least duty, or at none where the thermal controller allows none. -/
def State.bellowsGrant (s : State) : State :=
  if ¬ s.bellowsOn ∨ s.now % 1000 < 200 ∨ s.now / 1000 ≤ s.power.epoch then s
  else
    let (cap, lim) := s.capNow
    let b0 := 256 * (980000 * cap - (if s.now < s.power.correctionEnd then s.power.correction else 0))
    let rise := (s.now - s.power.grantAt) * s.rd Obj.inputSlew * 2560
    let b := min b0 (max s.power.total floorQ + rise)
    let top := max (s.rd Obj.ceilingThermal) (s.rd Obj.ceilingPace)
    let d0 := if top = 7 then s.power.heatDuty else 256
    let g := if cap < 210 ∨ s.heldDown then s.floorGrant (if s.power.heatPark then 0 else 1) (decide (cap < 210)) else s.bellows b b0 top d0
    let s := { s with clock := { s.clock with plls := s.clock.plls.set (1 - s.clock.pll) g.op } }
    ((s.wr Obj.capInForceW (min 1800 cap)).wr Obj.capLimiter lim).setPower fun (p : PowerState) => { p with
      next := some g, epoch := s.now / 1000, grantAt := s.now }

def execBellowsGrant (s : State) : Host.Outcome State Fault Refusal := .next s.bellowsGrant

/-! ### Time counted (Table 13.13) -/

/-- Add the time since the last accounting to the counters of Table 13.13 whose condition has held. -/
def State.account (s : State) : State :=
  let dt := s.now - s.power.accountAt
  let add (on : Bool) (t : Nat) : Nat := if on then t + dt else t
  let thr := add s.isThrottled s.power.throttledT
  let fol := add (s.rd Obj.ceilingPace != 0 && s.rd Obj.opInForce == s.rd Obj.ceilingPace) s.power.followingT
  let e2 := add (s.rd Obj.deferred != 0) s.power.e2T
  let s := ((s.count Obj.throttledMs (thr / ms)).count Obj.followingMs (fol / ms)).count Obj.e2DeferredMs (e2 / ms)
  s.setPower fun (p : PowerState) => { p with accountAt := s.now, throttledT := thr % ms, followingT := fol % ms, e2T := e2 % ms }

/-! ### Operating points (R362) -/

/-- The rail turns to a point after `d` ticks: its learned trim is the trim in force (R396). -/
def State.railTo (s : State) (op d : Nat) : State :=
  ((s.wr Obj.vtrimMv (s.rd (Obj.learnedTrim (op + 1)))).turnRail (s.trimmedMv op) d).setPower fun (p : PowerState) => { p with change := some op }

/-- Has the rail reached its target, and settled for 1 µs (Table 13.5)? -/
def State.railSettled (s : State) : Bool :=
  decide (s.power.railAt + railTicks s.power.railFrom s.power.rail + us ≤ s.now)

/-- Start a change to a point: lowering switches the frequency at once, raising after the rail has risen; a lower point abandons a raise
in progress, and any other request waits for the change in progress. -/
def State.opTo (s : State) (op : Nat) : State :=
  let cur := s.rd Obj.opInForce
  let lower (s : State) : State := (s.clockTo op).railTo op 10
  match s.power.change with
  | some c =>
    if cur ≤ c ∨ op ≤ c then s
    else if cur < op then lower s
    else s.railTo op 0
  | none => if cur < op then lower s else if op < cur then s.railTo op 0 else s

/-- OP_CHANGE_DONE: the rail has settled; the trim is held for 10 µs more (R396). -/
def State.opDone (s : State) : State :=
  match s.power.change with
  | none => s
  | some c =>
    if ¬ s.railSettled then s
    else
    let s := s.account
    let s := (s.clockTo c).setPower fun (p : PowerState) => { p with change := none }
    { s with clock := { s.clock with trimHold := s.now + 1000 } }

def execOpChangeDone (s : State) : Host.Outcome State Fault Refusal := .next s.opDone

/-! ### Grants take effect -/

/-- cap-infeasible once, with the cap in force and the limit that binds (R370). -/
def State.capNote (s : State) (park : Bool) : State :=
  if park then s.raiseOnce Ev.capInfeasible 0 [p32 (s.rd Obj.capInForceW), p8 (s.rd Obj.capLimiter)] else s.endEpisode Ev.capInfeasible 0

/-- Put a grant in force. -/
def State.applyGrant (s : State) (g : Grant) : State :=
  let s := ((s.account.capNote g.park).setPower fun (p : PowerState) => { p with capPark := g.park }).repower
  let s := (List.range 5).foldl (fun s d => s.wr (Obj.grantW (d + 1)) (min 1800 (g.watts.getD d 0))) s
  let s := (((s.wr Obj.duty g.duty).wr Obj.deferred g.deferred).wr Obj.ceilingBudget g.budgetOp).opTo g.op
  let s := if g.deferred = 0 then s.endEpisode Ev.backgroundStarved 0 else s
  (s.setPower fun (p : PowerState) => { p with
    next := none, total := g.total
    e2From := if g.deferred = 0 then none else some (p.e2From.getD s.now) }).repower

/-- GRANT_TAKE_EFFECT: at the end of the grant's epoch; the fallback of a restart waits for a change in progress (R371). -/
def State.grantTake (s : State) : State :=
  match s.power.next with
  | none => s
  | some g =>
    if (g.fallback ∧ s.power.change.isSome) ∨ (¬ g.fallback ∧ s.now < 1000 * (g.epoch + 1)) then s else s.applyGrant g

def execGrantTakeEffect (s : State) : Host.Outcome State Fault Refusal := .next s.grantTake

/-- BELLOWS_TIMEOUT: three epochs without a request, and the domain falls to its floor (R367). -/
def State.bellowsTimeout (s : State) (d : Nat) : State :=
  let x := s.demand d
  if ¬ s.bellowsOn ∨ x.told ∨ s.now / 1000 < x.epoch + 4 then s
  else
    (s.setPower fun (p : PowerState) => { p with
      demands := p.demands.erase d, perOp := if d = 0 then [] else p.perOp }).raise Ev.bellowsTimeout [p8 d]

def execBellowsTimeout (d : Fin 5) (s : State) : Host.Outcome State Fault Refusal := .next (s.bellowsTimeout d)

/-- BELLOWS_RESTART: no grant for 100 µs; floors, compute at OP7 at its duty there, or parked if it was (R367). -/
def State.bellowsRestart (s : State) : State :=
  if ¬ s.bellowsOn ∨ s.now - s.power.grantAt < 100 * us then s
  else
    let (op, duty) := match s.power.next with
      | some g => (g.op, g.duty)
      | none => (s.power.change.getD (s.rd Obj.opInForce), s.rd Obj.duty)
    let g := { s.floorGrant (if op = 7 then duty else 256) s.power.capPark with fallback := true }
    ((s.setPower fun (p : PowerState) => { p with next := some g, grantAt := s.now }).grantTake).raise Ev.bellowsRestart []

def execBellowsRestart (s : State) : Host.Outcome State Fault Refusal := .next s.bellowsRestart

/-- BACKGROUND_STARVED: E2 work deferred without a break for 100 s (R20). -/
def State.starved (s : State) : State :=
  match s.power.e2From with
  | none => s.endEpisode Ev.backgroundStarved 0
  | some t => if 100000 * ms ≤ s.now - t then s.raiseOnce Ev.backgroundStarved 0 [] else s.endEpisode Ev.backgroundStarved 0

def execBackgroundStarved (s : State) : Host.Outcome State Fault Refusal := .next s.starved

/-! ### The estimator and the measured power (R357, R364, R365) -/

/-- k after one update: (1023 k + measured / estimated) / 1024, held from 0.85 to 1.15; the Bool says that it would have left them. -/
def nextGain (kNum kDen meas est : Nat) : Nat × Nat × Bool :=
  let n := 1023 * kNum * est + meas * kDen
  let d := 1024 * kDen * est
  if 100 * n < 85 * d then (85, 100, true)
  else if 115 * d < 100 * n then (115, 100, true)
  else (n / Nat.gcd n d, d / Nat.gcd n d, false)

/-- The averages of the 1 MHz samples of a window: voltage in mV, current in mA, and power in µW as the average of their products
(R357). -/
def sampleMeans (xs : List (Nat × Nat)) : Nat × Nat × Nat :=
  let n := max 1 xs.length
  ((xs.map fun x => x.1).sum / n, (xs.map fun x => x.2).sum / n, (xs.map fun x => x.1 * x.2).sum / n)

/-- The measured quantities of one millisecond: voltage, current, power, its average, peak and energy. -/
def State.measure (s : State) (xs : List (Nat × Nat)) : State :=
  let (vin, iin, uw) := sampleMeans xs
  let pins := (uw :: s.power.pins).take 100
  let e := s.power.energy + uw
  let w := min 2400 (uw / 1000000)
  let s := ((((s.wr Obj.vinMv (min 60000 vin)).wr Obj.iinMa (min 60000 iin)).wr Obj.pinW w).wr Obj.pinAvgW
    (min 2400 (pins.sum / (pins.length * 1000000)))).wr Obj.pinPeakW (max w (s.rd Obj.pinPeakW))
  let s := s.wr Obj.energyJ (s.rd Obj.energyJ + e / 1000000000)
  let s := s.setPower fun (p : PowerState) => { p with samples := xs, pins := pins, energy := e % 1000000000 }
  let s := if 40000 < vin ∧ vin ≤ 44000 then s else s.endEpisode Ev.inputHigh 0
  if 28000 ≤ vin ∧ vin < 32000 then s else s.endEpisode Ev.inputLow 0

/-- The value of a pair, in °C × 10. -/
def State.pairTemp (s : State) (j : Nat) : Int := toInt 32 (s.rd (Obj.pairValue (j + 1)))

/-- The counts of R363 in the order of its list. -/
def activityCounts (a : Activity) : List Nat := a.cells ++ [a.vector] ++ a.bridges ++ a.channels ++ [a.flits, a.luma]

/-- The sensor pairs over a domain's units (Table 13.9, Table 13.6). -/
def domainPairs (d : Nat) : List Nat :=
  match d with
  | 0 => List.range 14 ++ [20, 21]
  | 1 => [14, 15]
  | 2 => [16, 17]
  | 3 => [18]
  | _ => [19]

/-- The rail whose voltage a domain's leakage follows, by its place in `railsMv`: array, uncore, chisel, plinth, plinth. -/
def domainRail (d : Nat) : Nat := [0, 1, 4, 6, 6].getD d 6

/-- A domain's estimate over a millisecond in µW, before the gain: counts times coefficients, and leakage (R363). -/
def State.domainEst (s : State) (a : Activity) (d : Nat) : Nat :=
  ((List.range (activityCounts a).length).map fun i => (activityCounts a).getD i 0 * Config.energyCoeff d i).sum / 1000 +
    Config.leakage d (s.railsMv.getD (domainRail d) 0) ((domainPairs d).map s.pairTemp)

/-- The largest `v` below 2^`n` with `ok v`, for a property that holds up to a bound. -/
def largest (ok : Nat → Bool) (n : Nat) : Nat :=
  (List.range n).foldl (fun v i => if ok (v + 2 ^ (n - 1 - i)) then v + 2 ^ (n - 1 - i) else v) 0

/-- Conversion loss in µW over a load in µW: 85 W × (load / 1065 W)^1.2, rounded down (R361). -/
def convLoss (load : Nat) : Nat := largest (fun v => decide (v ^ 5 * 1065000000 ^ 6 ≤ 85000000 ^ 5 * load ^ 6)) 36

/-- ESTIMATOR_UPDATE: every 1 ms the input is measured (R357), and compared with the sum of the domain estimates before the gain,
conversion loss added (R364). -/
def State.estimate (s : State) (xs : List (Nat × Nat)) (a : Activity) : State :=
  if ¬ s.bellowsOn then (if s.standby then s.measure xs else s)
  else
    let uw := (sampleMeans xs).2.2
    let ests := (List.range 5).map (s.domainEst a)
    let est := ests.sum + convLoss ests.sum
    let err := ((s.power.gain.mul ⟨est, 1000000, 0⟩).sub ⟨uw, 1000000, 0⟩).round
    let s := (s.measure xs).wrIn Obj.estErrorW (-2400) 2400 err
    let s := s.setPower fun (p : PowerState) => { p with est := est, ests := ests, act := a }
    if est = 0 then s
    else
      let (n, d, out) := nextGain s.power.kNum s.power.kDen uw est
      let s := (s.setPower fun (p : PowerState) => { p with kNum := n, kDen := d }).wr Obj.estGain (toFloat .g16 (.fin ⟨n, d, 0⟩)).1
      if out then s.raiseOnce Ev.estimatorDrift 0 [p32 (uw / 1000000), p32 (est / 1000000)] else s.endEpisode Ev.estimatorDrift 0

def execEstimatorUpdate (vin iin : List Nat) (act : Activity) (s : State) : Host.Outcome State Fault Refusal :=
  .next (s.estimate (vin.zip iin) act)

/-- CAP_CORRECTION: a 100 ms average above the cap in force by more than the larger of 1 % and 5 W reduces the next budget by the
excess over the cap (R365, R368). -/
def State.capCorrection (s : State) : State :=
  let cap := s.rd Obj.capInForceW * 1000000
  let avg := if s.power.pins = [] then 0 else s.power.pins.sum / s.power.pins.length
  let tol := max (cap / 100) 5000000
  s.setPower fun (p : PowerState) => { p with correction := if cap + tol < avg then avg - cap else 0, correctionEnd := s.now + 100 * ms }

def execCapCorrection (s : State) : Host.Outcome State Fault Refusal := .next s.capCorrection

/-! ### Pace following (R21, R373) -/

/-- Full-duty paces of Table 13.4. -/
def paceOfOp (op : Nat) : Nat := [32768, 29491, 26214, 22938, 19895, 16852, 13575, 10533].getD op 10533

/-- The pace at which a member counts, where it reports a limit and its flit is fresh. -/
def State.limitOf (s : State) (m : Nat) : Option Nat :=
  match s.paceOf m with
  | some e => if (e.throttled ∨ e.parked) ∧ s.now - e.tick < 100 * us then some (max e.pace 10533) else none
  | none => none

/-- PACE_CEILING_UPDATE. -/
def State.paceCeiling (s : State) : State :=
  let s := s.account
  let ls := s.others.filterMap fun m => (s.limitOf m).map fun v => (v, m)
  let on := s.rd Obj.paceFollow == 1 && s.rd Obj.groupSync == 1
  match if on then ls else [] with
  | [] => (s.wr Obj.ceilingPace 0).wr Obj.paceSource 0xFFFF
  | x :: r =>
    let b := r.foldl (fun b y => if y.1 < b.1 then y else b) x
    let op := ((List.range 8).filter fun i => decide (b.1 ≤ paceOfOp i)).getLastD 0
    (s.wr Obj.ceilingPace op).wr Obj.paceSource b.2

def execPaceCeilingUpdate (s : State) : Host.Outcome State Fault Refusal := .next s.paceCeiling

/-! ### Thermal sensors (R374 to R376); temperatures in °C × 10 -/

def State.sensor (s : State) (k : Nat) : Sensor := s.power.sensors.get Sensor.fresh k
def State.setSensor (s : State) (k : Nat) (x : Sensor) : State :=
  s.setPower fun (p : PowerState) => { p with sensors := p.sensors.set Sensor.fresh k x }
def State.pair (s : State) (j : Nat) : PairState := s.power.pairs.get PairState.fresh j
def State.setPair (s : State) (j : Nat) (x : PairState) : State :=
  s.setPower fun (p : PowerState) => { p with pairs := p.pairs.set PairState.fresh j x }

/-- The last accepted reading of at least 1 ms before. -/
def Sensor.before (x : Sensor) (now : Nat) : Option Int := (x.accepted.find? fun a => decide (ms ≤ now - a.1)).map Prod.snd

/-- Does a reading meet both conditions of R375? -/
def Sensor.good (x : Sensor) (now : Nat) (v : Int) : Bool :=
  decide (-200 ≤ v ∧ v ≤ 1500) && (match x.before now with
    | some b => decide ((v - b).natAbs ≤ 50)
    | none => true)

/-- Keep the accepted readings that R375 still needs: those of the last millisecond and the one before them. -/
def keepReadings (now : Nat) : List (Nat × Int) → List (Nat × Int)
  | [] => []
  | a :: r => if ms ≤ now - a.1 then [a] else a :: keepReadings now r

/-- Take one reading of a sensor. -/
def State.reading (s : State) (k : Nat) (v : Int) : State :=
  let x := s.sensor k
  let s := s.wrIn (Obj.sensorRaw (k + 1)) (-400) 2000 v
  if ¬ x.good s.now v then
    (s.count Obj.sensorDiscards 1).setSensor k { x with discarded := true, cleanFrom := none }
  else if x.discarded then s.setSensor k { x with cleanFrom := some (x.cleanFrom.getD s.now) }
  else s.setSensor k { x with accepted := (s.now, v) :: keepReadings s.now x.accepted }

/-- The accepted reading of a sensor, none where it is discarded. -/
def State.acceptedOf (s : State) (k : Nat) : Option Int :=
  let x := s.sensor k
  if x.discarded then none else x.accepted.head?.map Prod.snd

/-- The neighbours of Table 13.9: regions stand in 3 rows of 4. -/
def pairNeighbours (j : Nat) : List Nat :=
  if j < 12 then
    (if j % 4 = 0 then [] else [j - 1]) ++ (if j % 4 = 3 then [] else [j + 1]) ++ (if j < 4 then [] else [j - 4]) ++
      (if 8 ≤ j then [] else [j + 4])
  else
    match j with
    | 12 => [13, 0, 1, 2, 3]
    | 13 => [12, 4, 5, 6, 7]
    | 14 => [15, 12]
    | 15 => [14, 12]
    | 16 => [17]
    | 17 => [16]
    | 18 => [19]
    | 19 => [18]
    | 20 => [16, Config.edgeRegion 0 % 12]
    | 21 => [18, Config.edgeRegion 1 % 12]
    | 22 => [23]
    | _ => [22]

/-- The model value of a pair: T_in + a_i × P_i + b_i × P_mod, in °C × 10 (R374). -/
def State.pairModel (s : State) (j pw : Nat) : Int :=
  let c := s.rd (Obj.pairCoeff (j + 1))
  let inlet : Ex := ⟨(s.power.coolant.map Coolant.inlet).getD 0, 10, 0⟩
  let pmod := s.power.gain.mul ⟨s.power.est, 1000000, 0⟩
  let pi := s.power.gain.mul (Ex.int pw)
  ((((g16 (c / 65536)).ex.mul (pi.mul (Ex.int 10))).add ((g16 (c % 65536)).ex.mul (pmod.mul (Ex.int 10)))).add inlet).round

/-- Set a pair's value and status. -/
def State.setPairObj (s : State) (j : Nat) (v : Int) (st : Nat) : State :=
  (s.wrIn (Obj.pairValue (j + 1)) (-200) 1550 v).wr (Obj.pairStatus (j + 1)) st

/-- Two accepted readings: agree, warn or suspect. -/
def State.pairBoth (s : State) (j : Nat) (a b : Int) : State :=
  let x := s.pair j
  let d := (a - b).natAbs
  let far := if 80 < d then some (x.overFrom.getD s.now) else none
  let calm := if d ≤ 30 then some (x.calmFrom.getD s.now) else none
  let suspect := x.suspect && !(match calm with
    | some t => decide (10000 * ms ≤ s.now - t)
    | none => false)
  let s := s.setPair j { x with overFrom := far, calmFrom := calm, suspect := suspect }
  let s := if suspect then s else s.endEpisode Ev.sensorSuspect j
  let s := if d ≤ 30 then s.endEpisode Ev.sensorWarn j else s
  if suspect then s.setPairObj j (max (max a b) x.model) 2
  else if d ≤ 30 then s.setPairObj j (max a b) 0
  else (s.raiseOnce Ev.sensorWarn j [p8 j, p16 (ofInt 16 a), p16 (ofInt 16 b)]).setPairObj j (max a b) 1

/-- One reading of a pair is missing: neither span of R376 runs. -/
def State.unpaired (s : State) (j : Nat) : State := s.setPair j { s.pair j with overFrom := none, calmFrom := none }

/-- The pair's value and status (R376); sensor-discarded names a sensor (choice 0) or a pair (choice 1). -/
def State.formPair (s : State) (j : Nat) : State :=
  let m := (s.pair j).model
  match s.acceptedOf (2 * j), s.acceptedOf (2 * j + 1) with
  | some a, some b => s.pairBoth j a b
  | some a, none => (s.unpaired j |>.raiseOnce Ev.sensorDiscarded (2 * j + 1) [p8 0, p8 (2 * j + 1)]).setPairObj j (max a m) 3
  | none, some b => (s.unpaired j |>.raiseOnce Ev.sensorDiscarded (2 * j) [p8 0, p8 (2 * j)]).setPairObj j (max b m) 3
  | none, none =>
    let n := (pairNeighbours j).foldl (fun v k => max v (s.pairTemp k)) m
    (s.unpaired j |>.raiseOnce Ev.sensorDiscarded (64 + j) [p8 1, p8 j]).setPairObj j (n + 50) 4

/-! ### The thermal ceiling (R377) -/

/-- Tj: the largest value of the die pairs. -/
def State.tjNow (s : State) : Int := (List.range 21).foldl (fun v k => max v (s.pairTemp (k + 1))) (s.pairTemp 0)

/-- The temperature the table is entered with: the power-stage pairs follow it 10 °C higher. -/
def State.heatTemp (s : State) : Int := max s.tjNow (max (s.pairTemp 22) (s.pairTemp 23) - 100)

def State.throttleT (s : State) : Int := 10 * (s.rd Obj.throttleC : Int)
def State.highT (s : State) : Int := 10 * (s.rd Obj.highC : Int)

/-- The responses that do not wait: OP7 above high, thermal park above 105 °C, the events and their ends, deep hold at 100 °C. -/
def State.thermalNow (s : State) : State :=
  let t := s.heatTemp
  let s := s.account
  let s := s.wrIn Obj.tj (-200) 1550 s.tjNow
  let s := { s with clock := { s.clock with tjMax := max s.clock.tjMax s.tjNow } }
  let s := if s.throttleT < t then s.raiseOnce Ev.thermalThrottle 0 [] else s
  let s := if s.highT < t then
      ((s.raiseOnce Ev.thermalHigh 0 []).wr Obj.ceilingThermal 7).setPower fun (p : PowerState) => { p with highFrom := some (p.highFrom.getD s.now) }
    else s.setPower fun (p : PowerState) => { p with highFrom := none }
  let s := if 1050 < t then
      (s.raiseOnce Ev.thermalCritical 0 []).setPower fun (p : PowerState) => { p with heatPark := true, heatDuty := 0 } else s
  let s := if t ≤ s.throttleT - 20 then
      ((s.endEpisode Ev.thermalThrottle 0).endEpisode Ev.thermalHigh 0).endEpisode Ev.thermalCritical 0 else s
  let s := if s.power.hold ∧ ¬ s.power.deep ∧ 1000 ≤ s.tjNow then
      (s.raiseOnce Ev.holdDeep 0 []).setPower fun (p : PowerState) => { p with deep := true } else s
  s.repower

/-- SENSOR_SAMPLE: the readings of pair `j`, with the estimated power of the units under it. -/
def State.sensorSample (s : State) (j : Nat) (a b : Int) (pw : Nat) : State :=
  let s := (s.reading (2 * j) a).reading (2 * j + 1) b
  let s := s.setPair j { s.pair j with model := s.pairModel j pw }
  (s.formPair j).thermalNow

def execSensorSample (j : Fin 24) (a b : Int) (pw : Nat) (s : State) : Host.Outcome State Fault Refusal := .next (s.sensorSample j a b pw)

/-- SENSOR_SUSPECT: more than 8 °C apart for 100 ms. -/
def State.sensorSuspect (s : State) (j : Nat) : State :=
  let x := s.pair j
  match x.overFrom with
  | some t =>
    if x.suspect ∨ s.now - t < 100 * ms then s
    else (((s.setPair j { x with suspect := true }).raiseOnce Ev.sensorSuspect j [p8 j]).formPair j).thermalNow
  | none => s

def execSensorSuspect (j : Fin 24) (s : State) : Host.Outcome State Fault Refusal := .next (s.sensorSuspect j)

/-- SENSOR_REACCEPT: 10 ms of clean readings. -/
def State.reaccept (s : State) (k : Nat) : State :=
  let x := s.sensor k
  match x.cleanFrom with
  | some t =>
    if ¬ x.discarded ∨ s.now - t < 10 * ms then s
    else
      let s := s.setSensor k { accepted := [(s.now, toInt 32 (s.rd (Obj.sensorRaw (k + 1))))], discarded := false, cleanFrom := none }
      (((s.endEpisode Ev.sensorDiscarded k).endEpisode Ev.sensorDiscarded (64 + k / 2)).formPair (k / 2)).thermalNow
  | none => s

def execSensorReaccept (k : Fin 48) (s : State) : Host.Outcome State Fault Refusal := .next (s.reaccept k)

/-- A thermal step: its time, ceiling and duty. Duty 0 is thermal park, and a duty above 0 ends it. -/
def State.heatStep (s : State) (ceiling duty : Nat) : State :=
  ((s.account.wr Obj.ceilingThermal ceiling).setPower fun (p : PowerState) => { p with
    heatDuty := duty, heatPark := duty == 0, stepAt := s.now }).repower

/-- Is a channel of the bank tier above 105 °C, for which the module takes thermal park (R379)? -/
def State.bankOver (s : State) : Bool := (List.range 16).any fun c => decide (105 < toInt 32 (s.rd (Obj.chTemp c)))

/-- THERMAL_CEILING_STEP: the timed steps of Table 13.10. -/
def State.ceilingStep (s : State) : State :=
  let t := s.heatTemp
  let c := s.rd Obj.ceilingThermal
  let d := s.power.heatDuty
  let since := s.now - s.power.stepAt
  if s.highT < t then
    match s.power.highFrom with
    | some f => if 10 * ms ≤ s.now - f ∧ 10 * ms ≤ since then s.heatStep 7 (d - 32) else s
    | none => s
  else if s.throttleT < t then (if ms ≤ since ∧ c < 7 then s.heatStep (c + 1) d else s)
  else if t ≤ s.throttleT - 20 ∧ ¬ s.bankOver then (if 10 * ms ≤ since ∧ (c ≠ 0 ∨ d < 256) then s.heatStep (c - 1) (min 256 (d + 32)) else s)
  else s

def execThermalCeilingStep (s : State) : Host.Outcome State Fault Refusal := .next s.ceilingStep

/-- THERMAL_TRIP: the comparator of a sensor turns off every rail except standby; thermal-trip is kept with sensor and session, and
counted over the service life (R378, R498 item 7). -/
def State.thermalTrip (s : State) (k : Nat) : State :=
  if ¬ s.start.rails then s
  else
    let s := (s.raiseKept Ev.thermalTrip [p8 k, p32 (s.rd Obj.powerSession)]).countSat Obj.tripsTotal 1
    let n := s.rd Obj.tripsTotal
    let s := if 10 ≤ n then s.lifeExceed 7 else if 3 ≤ n then s.lifeWarn 7 else s
    (s.lose .domains).wr Obj.moduleState 4

def execThermalTrip (k : Fin 48) (s : State) : Host.Outcome State Fault Refusal := .next (s.thermalTrip k)

/-- NAND_TEMP_READ: the package's temperature; programs and erases it defers change only timing (R379). -/
def execNandTempRead (k : Fin 4) (temp : Int) (s : State) : Host.Outcome State Fault Refusal :=
  .next (s.wrIn (Obj.flashTemp (k + 1)) (-40) 150 temp)

/-! ### Coolant (R380 to R384) -/

/-- Is `p` watts, raised by 20/19 for each report with a hot outlet, within both limits of R381, inlet in °C × 100 and flow in mL/min? -/
def State.heatFits (s : State) (inlet : Int) (flow cuts p : Nat) : Bool :=
  let q : Ex := ⟨(p * 20 ^ cuts : Nat), 19 ^ cuts, 0⟩
  let out : Ex := ⟨(flow * s.rd Obj.coolantRhoc : Nat) * (6000 - inlet), 6000000, 0⟩
  let th := s.rd Obj.theta
  let c := (g16 (th / 65536)).ex
  let f := (g16 (th % 65536)).ex
  let d : Ex := ⟨100 * (s.rd Obj.throttleC : Int) - inlet, 100, 0⟩
  let rest := d.sub (q.mul c)
  let pow (x : Ex) (n : Nat) : Ex := (List.range n).foldl (fun a _ => a.mul x) (.int 1)
  q.le out && (p == 0 || (!rest.isNeg && flow != 0 && ((pow (q.mul f) 5).mul (pow ⟨2000, flow, 0⟩ 4)).le (pow rest 5)))

/-- P_hr: the largest whole number of watts that fits. -/
def State.heatLimit (s : State) (inlet : Int) (flow cuts : Nat) : Nat :=
  largest (s.heatFits inlet flow cuts) 16

/-- The median of three. -/
def median (a b c : Int) : Int := max (min a b) (min (max a b) c)

/-- The asymmetric filter of R380: `worse` says that the latest value moves toward less cooling; before three reports the filtered value
stays. -/
def filtered (prev : Option Int) (vs : List Int) (worse : Int → Int → Bool) : Int :=
  let x := vs.headD 0
  match prev with
  | none => x
  | some p =>
    if x = p ∨ worse x p then x
    else
      match vs with
      | [a, b, c] => median a b c
      | _ => p

/-- The filtered quantities after the reports `rs`, newest first. -/
def filterReports (prev : Option Coolant) (rs : List Coolant) : Coolant :=
  { inlet := filtered (prev.map Coolant.inlet) (rs.map Coolant.inlet) fun x p => decide (p < x)
    outlet := filtered (prev.map Coolant.outlet) (rs.map Coolant.outlet) fun x p => decide (p < x)
    flow := (filtered (prev.map fun c => (c.flow : Int)) (rs.map fun c => (c.flow : Int)) fun x p => decide (x < p)).toNat }

/-- The ranges of R380. -/
def Coolant.inRange (c : Coolant) : Bool :=
  decide (-1000 ≤ c.inlet ∧ c.inlet ≤ 8000 ∧ -1000 ≤ c.outlet ∧ c.outlet ≤ 9000 ∧ c.flow ≤ 10000 ∧ c.inlet - 200 ≤ c.outlet)

/-- Raise an event once while its condition holds. -/
def State.while (s : State) (code : Nat) (on : Bool) : State := if on then s.raiseOnce code 0 [] else s.endEpisode code 0

/-- flow_state (0x2600.06). -/
def State.flowStateNow (s : State) : Nat :=
  let f := (s.power.coolant.map Coolant.flow).getD 2000
  if s.power.lost then 4
  else if s.start.flowLoss ∨ 2 ≤ s.power.stops then 3
  else if f < 1200 then 2
  else if f < 1600 then 1
  else 0

/-- Enter hold (R383), deep at once where Tj is 100 °C. -/
def State.enterHold (s : State) (stop : Bool) : State :=
  let s := s.setPower fun (p : PowerState) => { p with hold := true, stopped := p.stopped || stop, good := if p.hold then p.good else 0 }
  s.thermalNow

/-- The coolant has stopped: an operational module enters hold; one that is activating does so once its domains run again (R451). -/
def State.stopHold (s : State) (stop : Bool) : State := if s.rd Obj.moduleState = 2 ∧ s.fw.phase = 0 then s.enterHold stop else s

/-- HOLD_EXIT: flow_loss_n is deasserted and three reports in a row qualify (R384); an activation that the hold kept waiting completes
(R451). -/
def State.holdExit (s : State) : State :=
  if s.power.hold ∧ ¬ s.start.flowLoss ∧ 3 ≤ s.power.good then
    let s := ((s.setPower fun (p : PowerState) => { p with hold := false, deep := false, stopped := false }).endEpisode Ev.holdDeep 0).repower
    if s.fw.phase = 3 then s.restartDone.repower else s
  else s

/-- Does the heat carried differ from the measured input power by more than 25 %? -/
def State.mismatched (s : State) (c : Coolant) : Bool :=
  let heat : Int := (c.flow * s.rd Obj.coolantRhoc : Nat) * (c.outlet - c.inlet)
  let pin : Int := 6000000 * (s.rd Obj.pinW : Int)
  decide (pin < 4 * ((heat - pin).natAbs : Int))

/-- The heat-removal limit after a report: a fall applies, a rise raises it by at most 20 W. -/
def State.takeLimit (s : State) (p : Nat) : State :=
  let h := match s.power.heat with
    | some old => if p ≤ old then p else min p (old + 20)
    | none => p
  (s.wr Obj.heatLimitW p).setPower fun (q : PowerState) => { q with heat := some h }

/-- An accepted report: filtered, the limit and the events of Table 13.11, hold and its end. -/
def State.coolantReport (s : State) (r : Coolant) : State :=
  let rs := (r :: s.power.reports).take 3
  let c := filterReports s.power.coolant rs
  let hot := if 6000 < c.outlet then s.power.hotOut + 1 else 0
  let stops := if c.flow < 400 then s.power.stops + 1 else 0
  let good := if 1200 ≤ r.flow ∧ r.inlet ≤ 4500 then s.power.good + 1 else 0
  let bad := s.mismatched c
  let s := (s.endEpisode Ev.coolantReportsLost 0).setPower fun (p : PowerState) => { p with
    reports := rs, coolant := some c, reportAt := some s.now, lost := false, hotOut := hot, stops := stops, good := good
    mismatchFrom := if bad then some (p.mismatchFrom.getD s.now) else none }
  let s := ((s.wrIn Obj.inlet (-100) 800 (c.inlet / 10)).wrIn Obj.outlet (-100) 900 (c.outlet / 10)).wr Obj.flowMlMin c.flow
  let s := s.takeLimit (s.heatLimit c.inlet c.flow hot)
  let s := (((s.while Ev.flowLow80 (c.flow < 1600)).while Ev.flowLow60 (c.flow < 1200)).while Ev.inletHigh (4500 < c.inlet)).while
    Ev.inletLow (c.inlet < 2000)
  let s := (s.while Ev.outletHigh (6000 < c.outlet)).while Ev.flowStopReported (2 ≤ stops)
  let s := if bad then s else s.endEpisode Ev.coolantMismatch 0
  let s := s.wr Obj.flowState s.flowStateNow
  if 2 ≤ stops then s.stopHold true else s.holdExit

/-- The tray's address: tray_mac, or the one learned (R425). -/
def State.trayAddr (s : State) : Nat := if s.rd Obj.trayMac = 0 then s.rd Obj.trayMacLearned else s.rd Obj.trayMac

/-- An intact frame of any kind on the field network (R422). -/
def State.fldFrame (s : State) : State :=
  let s := s.endEpisode Ev.fieldLinkLost 0
  { s with dict := { s.dict with fldHeard := s.now } }

/-- Is a tray report PDU well formed (R419, Table 15.8)? -/
def trayPduOk (pdu : Bytes) : Bool :=
  pdu.length == 24 && pdu.take 2 == [1, 3] && unle ((pdu.drop 4).take 2) == 24 && allZero ((pdu.drop 6).take 2) && allZero (pdu.drop 16)

/-- The checks of R425 on a report: source, sequence, 20 ms. -/
def State.trayDue (s : State) (mac seq : Nat) : Bool :=
  (s.trayAddr == 0 || mac == s.trayAddr) && (match s.power.reportAt with
    | some t =>
      let d := (seq + 65536 - s.power.seq) % 65536
      decide (1 ≤ d ∧ d ≤ 2 ^ 14 ∧ 20 * ms ≤ s.now - t)
    | none => true)

/-- TRAY_REPORT: a tray report PDU from a source address. -/
def State.trayReport (s : State) (mac : Nat) (pdu : Bytes) : State :=
  let s := s.fldFrame.count Obj.dictFramesRx 1
  let f (o : Nat) : Nat := unle ((pdu.drop (8 + o)).take 2)
  let c : Coolant := { inlet := toInt 16 (f 2), outlet := toInt 16 (f 4), flow := f 6 }
  if ¬ trayPduOk pdu then s.countSat Obj.dictDiscards 1
  else if ¬ s.trayDue mac (f 0) ∨ ¬ c.inRange then s.countSat Obj.reportDiscards 1
  else
    let s := if s.rd Obj.trayMac = 0 ∧ s.rd Obj.trayMacLearned = 0 then s.wr Obj.trayMacLearned mac else s
    ((s.count Obj.trayReports 1).setPower fun (p : PowerState) => { p with seq := f 0 }).coolantReport c

def execTrayReport (mac : Nat) (pdu : Bytes) (s : State) : Host.Outcome State Fault Refusal := .next (if s.standby then s.trayReport mac pdu else s)

/-- COOLANT_REPORTS_LOST: 350 ms without an accepted report; the limit is that of 45 °C and 1.2 L/min. -/
def State.reportsLost (s : State) : State :=
  if s.power.lost ∨ s.now - s.power.reportAt.getD 0 < 350 * ms then s
  else
    let h := s.heatLimit 4500 1200 0
    let s := (s.raiseOnce Ev.coolantReportsLost 0 []).setPower fun (p : PowerState) => { p with lost := true, heat := some h, good := 0 }
    (s.wr Obj.heatLimitW h).wr Obj.flowState 4

def execCoolantReportsLost (s : State) : Host.Outcome State Fault Refusal := .next (if s.standby then s.reportsLost else s)

/-- COOLANT_MISMATCH: for 10 s. -/
def State.coolantMismatch (s : State) : State :=
  match s.power.mismatchFrom with
  | some t => if 10000 * ms ≤ s.now - t then s.raiseOnce Ev.coolantMismatch 0 [] else s
  | none => s

def execCoolantMismatch (s : State) : Host.Outcome State Fault Refusal := .next s.coolantMismatch

/-- FLOW_LOSS_ASSERT: the stop line; an operational module enters hold with flow-loss (R383). -/
def State.flowLossOn (s : State) : State :=
  let s := { s with start := { s.start with flowLoss := true } }
  let s := s.wr Obj.flowState s.flowStateNow
  if s.rd Obj.moduleState = 2 ∧ s.fw.phase = 0 then (s.raiseOnce Ev.flowLoss 0 []).enterHold false else s

def execFlowLossAssert (s : State) : Host.Outcome State Fault Refusal := .next s.flowLossOn

/-- FLOW_LOSS_DEASSERT: hold ends once the reports qualify. -/
def State.flowLossOff (s : State) : State :=
  let s := { s with start := { s.start with flowLoss := false } }
  ((s.wr Obj.flowState s.flowStateNow).endEpisode Ev.flowLoss 0).holdExit

def execFlowLossDeassert (s : State) : Host.Outcome State Fault Refusal := .next s.flowLossOff

end Sys2Proof.Machine
end

