-- ==== Sys2Proof/Machine/Clocks.lean ====
section
/-! DEFINITION. Clocks, margin monitors and elapsed time (chapter 14): stretch (R389), reed monitors (R395), the voltage loop (R396, R397),
ageing records (R398, R399), the sync word (R401) and powered time (R404). -/
namespace Sys2Proof.Machine

def State.setClock (s : State) (f : ClockState → ClockState) : State := { s with clock := f s.clock }

/-- Are all four monitors of a physical tile masked? -/
def State.allMasked (s : State) (x : Nat) : Bool := (List.range 4).all fun m => s.clock.masked.contains (4 * x + m)

/-- The lowest stretch level a region may take: 1 where a tile of it has all four monitors masked (R395). -/
def State.levelFloor (s : State) (r : Nat) : Nat :=
  if s.clock.masked.any fun k => s.allMasked (k / 4) && regionAt (k / 128) (k / 4 % 32) == r then 1 else 0

/-- A region reports its worst margin, and the cycles it has run at the level it is at; the lowest of the last millisecond shows, and the cycles
count at level 1 or above (R389, Table 14.5). -/
def State.margin (s : State) (r margin cycles : Nat) : State :=
  let l := (s.now, min 63 margin) :: ((s.clock.worst.find r).getD []).filter fun x => decide (s.now - x.1 < ms)
  let s := s.setClock fun (c : ClockState) => { c with worst := c.worst.insert r l }
  let s := s.wr (Obj.regionMargin (r + 1)) (l.foldl (fun v x => min v x.2) 63)
  if s.rd (Obj.regionLevel (r + 1)) = 0 then s else s.count Obj.stretchCycles cycles

/-- STRETCH_RISE: the worst margin of a region falls below a threshold of Table 14.2; the level rises at once. -/
def State.stretchRise (s : State) (r margin cycles : Nat) : State :=
  let was := s.rd (Obj.regionLevel (r + 1))
  let new := if margin < 1 then 3 else if margin < s.rd Obj.stretchTaps then 2 else was
  let s := s.margin r margin cycles
  if new ≤ was then s
  else
    let s := s.wr (Obj.regionLevel (r + 1)) new
    if was = 0 then s.count Obj.stretchEpisodes 1 else s

def execStretchRise (r : Fin 12) (run : RegionRun) (s : State) : Host.Outcome State Fault Refusal :=
  .next (s.stretchRise r run.margin run.cycles)

/-- STRETCH_STEP_DOWN: 16 cycles at the level with the margin at or above stretch_taps; one level at a time. -/
def State.stretchDown (s : State) (r margin cycles : Nat) : State :=
  let was := s.rd (Obj.regionLevel (r + 1))
  let s := s.margin r margin cycles
  if margin < s.rd Obj.stretchTaps ∨ cycles < 16 ∨ was ≤ s.levelFloor r then s else s.wr (Obj.regionLevel (r + 1)) (was - 1)

def execStretchStepDown (r : Fin 12) (run : RegionRun) (s : State) : Host.Outcome State Fault Refusal :=
  .next (s.stretchDown r run.margin run.cycles)

/-- REED_MASKED: a monitor is masked until the next reset; a tile with all four masked is entered in the field log, and its region is
held at level 1 or higher (R395). The monitors of a retired tile are ignored (R394). -/
def State.reedMask (s : State) (row col mon : Nat) : State :=
  let x := 32 * row + col
  if s.clock.masked.contains (4 * x + mon) ∨ s.start.retired.contains x then s
  else
    let s := s.setClock fun (c : ClockState) => { c with masked := setIns c.masked (4 * x + mon), due := c.due ++ [3] }
    let s := (s.wr Obj.reedMasked s.clock.masked.length).raise Ev.reedMasked [p8 (physNo x), p8 mon]
    if ¬ s.allMasked x then s
    else
      let k := Obj.regionLevel (regionAt row col + 1)
      let s := s.tileEntry x 2
      if s.rd k = 0 then (s.wr k 1).count Obj.stretchEpisodes 1 else s

def execReedMasked (row : Fin 12) (col : Fin 17) (mon : Fin 4) (s : State) : Host.Outcome State Fault Refusal := .next (s.reedMask row col mon)

/-- Is the voltage loop running: not at retention, and 10 µs after the last change of operating point (R396)? -/
def State.loopOn (s : State) : Bool :=
  s.bellowsOn && s.rd Obj.powerState != 3 && s.rd Obj.powerState != 4 && s.fw.phase != 2 && s.power.change.isNone &&
    decide (s.clock.trimHold ≤ s.now)

/-- The trim after one decision. -/
def State.trimNext (s : State) (w : Nat) : Int :=
  let t := toInt 32 (s.rd Obj.vtrimMv)
  let target := s.rd Obj.marginTarget
  if w + 2 < target then min (t + 1) 15 else if target + 2 < w then max (t - 1) (-15) else t

/-- VOLTAGE_LOOP: the lowest of ten samples adjusts the trim, which the operating point in force remembers. -/
def State.voltageLoop (s : State) (w : Nat) : State :=
  if ¬ s.loopOn then s
  else
    let op := s.rd Obj.opInForce
    let t := ofInt 32 (s.trimNext w)
    let s := (s.wr Obj.vtrimMv t).wr (Obj.learnedTrim (op + 1)) t
    let s := s.setRail (s.trimmedMv op)
    s.setClock fun (c : ClockState) => { c with
      margins := c.margins.insert op (min w (c.margins.get 0xFF op)), ranOp := some (c.ranOp.getD op), loopAt := s.now
      ran := if c.ranOp = some op then c.ran + (s.now - c.loopAt) else c.ran }

def execVoltageLoop (w : Nat) (s : State) : Host.Outcome State Fault Refusal := .next (s.voltageLoop w)

/-- MARGIN_LOW: the cycles at level 1 or above of a region over 1 s, in ppm; with the trim at +15 mV and more than 1 %, margin-low once per
episode (R397). -/
def State.marginLow (s : State) (r ppm : Nat) : State :=
  let s := (s.wr (Obj.regionStretchPpm (r + 1)) (min 1000000 ppm)).setClock fun (c : ClockState) => { c with
    stretch := c.stretch.insert r (max ppm (c.stretch.get 0 r)) }
  let bound := toInt 32 (s.rd Obj.vtrimMv) == 15
  if bound ∧ 10000 < ppm then
    if s.inEpisode Ev.marginLow 0 then s
    else
      let s := (s.raiseOnce Ev.marginLow 0 [p8 r, p32 ppm]).countSat Obj.marginLowEvents 1
      s.setClock fun (c : ClockState) => { c with due := c.due ++ [2], lowSeen := true }
  else if bound ∧ (List.range 12).any fun k => decide (10000 < s.rd (Obj.regionStretchPpm (k + 1))) then s
  else s.endEpisode Ev.marginLow 0

def execMarginLow (r : Fin 12) (ppm : Nat) (s : State) : Host.Outcome State Fault Refusal := .next (s.marginLow r ppm)

/-- The 64 bytes of an ageing record (Table 14.4). -/
def State.ageBytes (s : State) (cause : Nat) : Bytes :=
  let b := p32 (s.rd Obj.powerSession) ++ p64 s.now ++ p32 (s.poweredS / 3600) ++
    ((List.range 8).flatMap fun n => p8 (s.rd (Obj.learnedTrim (n + 1)))) ++ ((List.range 8).flatMap fun n => p8 (s.clock.margins.get 0xFF n)) ++
    ((List.range 12).flatMap fun r => p16 (min 65535 (s.clock.stretch.get 0 r))) ++ p16 (ofInt 16 s.clock.tjMax) ++
    p8 (min 255 (s.rd Obj.reedMasked)) ++ p8 cause
  b ++ p32 (crc32 b)

/-- Write one record; what is counted since the last record starts again. -/
def State.ageWrite (s : State) (cause : Nat) : State :=
  let b := s.ageBytes cause
  let rs := (if 4096 ≤ s.clock.records.length then s.clock.records.drop 1 else s.clock.records) ++ [b]
  let s := (s.setClock fun (c : ClockState) => { c with records := rs, margins := [], stretch := [], tjMax := s.tjNow }).wr Obj.ageCount rs.length
  let t := toInt 32 (s.rd (Obj.learnedTrim 1))
  let s := if 12 ≤ t ∧ ¬ s.start.warned.contains 5 then (s.raise Ev.marginAged []).lifeWarn 5 else s
  if cause ≠ 0 then s
  else
    let n := if t = 15 ∧ s.clock.lowSeen then s.clock.lowDays + 1 else 0
    let s := s.setClock fun (c : ClockState) => { c with lastDay := s.poweredS, lowDays := n, lowSeen := false }
    if 7 ≤ n then s.lifeExceed 5 else s

/-- AGEING_RECORD_WRITE: the record that is due: at session start once the array has run for 1 s, daily, or for an event (R398). -/
def State.ageDue (s : State) : State :=
  if ¬ s.clock.sessionRec ∧ sec ≤ s.clock.ran then (s.setClock fun (c : ClockState) => { c with sessionRec := true }).ageWrite 1
  else if 86400 ≤ s.poweredS - s.clock.lastDay then s.ageWrite 0
  else
    match s.clock.due with
    | c :: r => (s.setClock fun (x : ClockState) => { x with due := r }).ageWrite c
    | [] => s

def execAgeingRecordWrite (s : State) : Host.Outcome State Fault Refusal := .next (if s.standby then s.ageDue else s)

/-- The learned trims are loaded from the newest record whose CRC matches (R396, R399). -/
def State.loadTrims (s : State) : State :=
  match s.clock.records.reverse.find? fun b => unle (b.drop 60) == crc32 (b.take 60) with
  | none => s
  | some b => (List.range 8).foldl (fun s n => s.wr (Obj.learnedTrim (n + 1)) (ofInt 32 (toInt 8 (unle ((b.drop (16 + n)).take 1))))) s

/-- The domains that hold a copy of the drone counter: 0 to 11 the regions, 12 the spine, 13 the Chisel lanes, 14 Plinth main, and 16 + `t` the
tiles (R401; the numbers are a DESIGN CHOICE, log entry 132). -/
def copyDomains : List Nat := List.range 15 ++ (List.range 192).map (16 + ·)

/-- What a domain's copy of the drone counter reports: no time until it has loaded a sync word, and then the master's value, which it holds
within one tick (R401). -/
def State.copyTime (s : State) (d : Nat) : Option Nat := if s.clock.copies.contains d then some s.now else none

/-- DRONE_SYNC: every 65 536 ticks every copy of a domain with power takes the master's value; one that had loaded before and differed by more
than a tick is counted and named (R401). -/
def State.droneSync (s : State) (skewed : List Nat) : State :=
  if ¬ s.standby ∨ s.now / 65536 ≤ s.clock.syncAt / 65536 then s
  else
    let bad := skewed.filter s.clock.copies.contains
    let s := s.setClock fun (c : ClockState) => { c with syncAt := s.now, copies := if s.start.rails then copyDomains else c.copies }
    bad.foldl (fun s d => (s.countSat Obj.droneCorrections 1).raise Ev.droneSkew [p8 d]) s

def execDroneSync (skewed : List Nat) (s : State) : Host.Outcome State Fault Refusal := .next (s.droneSync skewed)

/-- POWERED_TIME_SAVE: every 60 s (R404, R498 item 9). -/
def State.saveTime (s : State) : State :=
  let n := (s.now - s.clock.savedAt) / sec
  if ¬ s.standby ∨ n < 60 then s
  else
    let s := (s.count Obj.poweredSTotal n).setClock fun (c : ClockState) => { c with savedAt := c.savedAt + n * sec }
    let t := s.rd Obj.poweredSTotal
    if 87660 * 3600 ≤ t then s.lifeExceed 9 else if 78894 * 3600 ≤ t then s.lifeWarn 9 else s

def execPoweredTimeSave (s : State) : Host.Outcome State Fault Refusal := .next s.saveTime

end Sys2Proof.Machine
end

