-- ==== Sys2Proof/Machine/Startup.lean ====
section
/-! DEFINITION. Pins, start-up and reset (chapters 17 and 18): the power session (R403), the cold start and its stages (R486 to R489), the
tile map and retired tiles (R63, R64, R494), the tray discretes (R476 to R478) and the host links (R471). -/
namespace Sys2Proof.Machine

def State.setStart (s : State) (f : StartState → StartState) : State := { s with start := f s.start }

/-! ### Retired tiles and the tile map (R63, R64, R66, R494) -/

/-- The objects of Table 3.2, and wear item 4 (R498). retired_col of a row that holds more than one retired tile shows the one listed
first (DESIGN CHOICE, log entry 127). -/
def State.mapObjects (s : State) : State :=
  let s := (List.range 12).foldl (fun s y => s.wr (Obj.retiredCol (y + 1)) ((s.retiredIn y).headD 0xFF)) s
  let rows := ((List.range 12).filter fun y => s.retiredIn y != []).length
  let s := s.wr Obj.retiredCount rows
  let s := if 8 ≤ rows then s.lifeWarn 4 else s
  if (List.range 12).any fun y => decide (2 ≤ (s.retiredIn y).length) then s.lifeExceed 4 else s

/-- TILE_RETIRED: pending tiles of the field log join the retired list, and are marked applied (R494). -/
def State.retireTiles (s : State) : State :=
  let pend := s.start.fieldLog.filter fun e => decide (e.cause ≤ 3) && !e.applied
  let s := s.setStart fun (x : StartState) => { x with
    retired := pend.foldl (fun l e => e.what.foldl setIns l) x.retired
    fieldLog := x.fieldLog.map fun (e : FieldEntry) => if e.cause ≤ 3 then { e with applied := true } else e }
  let s := pend.foldl (fun s e => match e.what with
    | x :: _ => s.raise Ev.tileRetired [p8 (x / 32), p8 (x % 32), p8 e.cause]
    | [] => s) s
  s.mapObjects

/-- Can the map be built: no row holds two retired tiles (R64)? -/
def State.mapOk (s : State) : Bool := (List.range 12).all fun y => decide ((s.retiredIn y).length ≤ 1)

/-! ### Standby power-good (R400, R403, R433, R467) -/

/-- Events kept in service flash are raised again, with the stored session and ticks first, and marked reported (R433). -/
def State.reportFlash (s : State) : State :=
  let s := (s.dict.flash.filter fun f => !f.reported).foldl (fun s f => s.raise f.code [p32 f.session, p64 f.ticks, f.params]) s
  { s with dict := { s.dict with flash := s.dict.flash.map fun (f : FlashEvent) => { f with reported := true } } }

/-- STANDBY_POWER_GOOD: the drone counter starts at 0 and a session begins; `written` says that its number was written and read back. -/
def State.powerGood (s : State) (written : Bool) : State :=
  if s.standby ∨ s.power.ovp then s
  else
    let s := { s with standby := true, now := 0 }
    let s := s.setClock fun (c : ClockState) => { c with savedAt := 0, syncAt := 0, sessionRec := false }
    let n := s.start.sessionNo
    let no := if n = 0xFFFFFFFF then n else n + 1
    let s := s.setStart fun (x : StartState) => { x with stage := 1, since := 0, sessionNo := if written then no else n }
    let s := ((s.wr Obj.powerSession (if written then no else 0)).wr Obj.sessionStartPoweredS (s.rd Obj.poweredSTotal)).wr Obj.moduleState
      (if written then 0 else 1)
    let s := ((s.readVersions s.bootRec.active).loadSettings).retireTiles
    let s := if written then (if n = 0xFFFFFFFF then s.raise Ev.sessionExhausted [] else s) else s.raise Ev.sessionFault []
    s.reportFlash

def execStandbyPowerGood (written : Bool) (s : State) : Host.Outcome State Fault Refusal := .next (s.powerGood written)

/-- SLOT_ID_SAMPLE: three samples that agree give the slot; after 1 s slot 0 is taken. The slot sets the default of fld_node (R476,
R480). -/
def State.slotSample (s : State) (v : Nat) : State :=
  if ¬ s.standby ∨ s.start.slot.isSome then s
  else
    let l := (s.start.slotSamples ++ [v]).reverse.take 3
    let slot := if l.length = 3 ∧ l.all (· == v) then some v else if sec ≤ s.now - s.start.since then some 0 else none
    let s := s.setStart fun (x : StartState) => { x with slotSamples := l.reverse, slot := slot }
    match slot with
    | some n => if s.rd Obj.settingsState = 1 then s else s.wr Obj.fldNode (1 + n)
    | none => s

def execSlotIdSample (v : Fin 64) (s : State) : Host.Outcome State Fault Refusal := .next (s.slotSample v)

/-! ### Host links (R471, R245, R461) -/

/-- A host port's link falls: memory lent through it is lost, its link stream stops, its mailbox starts again. -/
def State.hostDown (s : State) (p : HostPort) : State :=
  let n := portNo p - 1
  let s := ((s.wr (Obj.linkState n) 0).wr (Obj.linkRate n) 0).wr (Obj.linkWidth n) 0
  let s := if s.lenderOn n then s.lenderLost n else s
  let s := ((s.ideStop p).setIdeKey p none).resetPort p
  let s := if s.rd (Obj.ideState (n + 1)) = 1 then s.wr (Obj.ideState (n + 1)) 0 else s
  s.setSpdm p Spdm.reset

/-- HOST_LINK_DOWN. -/
def execHostLinkDown (p : HostPort) (s : State) : Host.Outcome State Fault Refusal :=
  .next (if s.rd (Obj.linkState (portNo p - 1)) = 0 then s else s.hostDown p)

/-- May a host port train: x_perst_n is released, and start-up has reached stage 5, or the module serves its hosts in the service state? -/
def State.hostOn (s : State) (p : HostPort) : Bool :=
  s.standby && !(match p with
    | .ha => s.start.perstA
    | .hb => s.start.perstB) && (decide (5 ≤ s.start.stage) || s.rd Obj.moduleState == 1)

/-- HOST_LINK_UP: training completes at a rate and width. -/
def execHostLinkUp (p : HostPort) (rate width : Nat) (s : State) : Host.Outcome State Fault Refusal :=
  .next (
    let n := portNo p - 1
    if s.hostOn p then ((s.wr (Obj.linkState n) 2).wr (Obj.linkRate n) rate).wr (Obj.linkWidth n) width else s)

/-- Link training starts on a port that may train. -/
def State.hostTrain (s : State) (p : HostPort) : State :=
  let n := portNo p - 1
  if s.hostOn p ∧ s.rd (Obj.linkState n) = 0 then s.wr (Obj.linkState n) 1 else s

def State.setPerst (s : State) (p : HostPort) (v : Bool) : State :=
  s.setStart fun (x : StartState) => match p with
    | .ha => { x with perstA := v }
    | .hb => { x with perstB := v }

/-- PERST_ASSERT: that port's link goes down, and nothing else. -/
def execPerstAssert (p : HostPort) (s : State) : Host.Outcome State Fault Refusal := .next ((s.setPerst p true).hostDown p)

def execPerstRelease (p : HostPort) (s : State) : Host.Outcome State Fault Refusal := .next ((s.setPerst p false).hostTrain p)

/-! ### Start-up (R486 to R489) -/

def State.toStage (s : State) (k : Nat) : State := s.setStart fun (x : StartState) => { x with stage := k, since := s.now }

/-- Start-up begins again at stage 2, which tray_ready may keep waiting (R477). -/
def State.fromStage2 (s : State) : State := (s.wr Obj.moduleState 0).toStage (if s.start.trayReady then 2 else 1)

/-- Stage 5 ends: firmware runs, Bellows starts at OP7, trims are loaded; a map that cannot be built keeps the module in service (R64). -/
def State.stage5 (s : State) : State :=
  let s := (s.wr Obj.opInForce 7).setPower fun (p : PowerState) => { p with grantAt := s.now, epoch := s.now / 1000, accountAt := s.now }
  if s.start.domain then s.toStage 8
  else if ¬ s.mapOk then (s.raise Ev.tileMapInfeasible []).wr Obj.moduleState 1
  else s.loadTrims.toStage 6

/-- Start-up is complete: operational; the group is joined, and what the pins and the coolant ask for takes force (R383, R477); a hold keeps an
activation from completing (R451). -/
def State.operational (s : State) : State :=
  let domain := s.start.domain
  let s := (s.wr Obj.moduleState 2).setStart fun (x : StartState) => { x with stage := 9, since := s.now, failed := none, domain := false }
  let stop := s.start.flowLoss || decide (2 ≤ s.power.stops)
  let s := if domain then (if stop then { s with fw := { s.fw with phase := 3 } } else s.restartDone) else if s.bitmap = 0 then s else s.startJoin
  let s := if s.start.trayReady then s else (s.raise Ev.trayWithdrawn []).setPower fun (p : PowerState) => { p with trayPark := true }
  let s := if s.start.flowLoss then s.raiseOnce Ev.flowLoss 0 [] else s
  let s := if stop then s.enterHold (!s.start.flowLoss) else s
  s.repower

/-- A tile fails its self-test: field log and self-test-fault with its physical row and column. -/
def State.selfTestFault (s : State) (x : Nat) : State := (s.tileEntry x 3).raise Ev.selfTestFault [p8 (x / 32), p8 (x % 32)]

/-- A stage fails: event with stage and reason, rails off; the same stage failing again is final (R487). -/
def State.stageFault (s : State) (reason : Nat) (final : Bool) : State :=
  let k := s.start.stage
  let again := s.start.failed == some k || final
  let s := (s.raise Ev.startupStageFault [p8 k, p8 reason]).lose .domains
  if again then s.wr Obj.moduleState 1
  else (s.wr Obj.moduleState 0).setStart fun (x : StartState) => { x with failed := some k, retryAt := some (s.now + sec) }

/-- Stage 8 ends: the self-test's mismatching physical tiles, as row × 32 + column (R488, R489). -/
def State.selfTest (s : State) (bad : List Nat) : State :=
  let again := s.start.selfTested
  let s := bad.foldl (fun s x => s.selfTestFault x) s
  if bad = [] ∨ s.start.domain then s.operational
  else if again then s.stageFault 1 true
  else
    let s := (s.lose .domains).setStart fun (x : StartState) => { x with selfTested := true }
    s.retireTiles.fromStage2

/-- STARTUP_STAGE_DONE: the stage that runs has ended, and the next begins once what it waits for is there. -/
def State.stageDone (s : State) (bad : List Nat) : State :=
  if s.rd Obj.moduleState ≠ 0 ∨ s.start.modReset then s
  else
    match s.start.stage with
    | 1 => if s.start.trayReady then s.toStage 2 else s
    | 2 => if s.start.flowLoss then s else s.toStage 3
    | 3 => (((s.setStart fun (x : StartState) => { x with rails := true }).wr Obj.opInForce 7).setRail (s.trimmedMv 7)).toStage 4
    | 4 =>
      if s.fw.measured = [] then s
      else (((s.toStage 5).hostTrain .ha).hostTrain .hb)
    | 5 => s.stage5
    | 6 => s.toStage 7
    | 7 => s.toStage 8
    | 8 => s.selfTest bad
    | _ => s

def execStartupStageDone (bad : List Nat) (s : State) : Host.Outcome State Fault Refusal := .next (s.stageDone bad)

/-- STARTUP_STAGE_FAULT: the running stage fails or overruns. -/
def execStartupStageFault (reason : Nat) (s : State) : Host.Outcome State Fault Refusal :=
  .next (if s.rd Obj.moduleState = 0 ∧ 1 ≤ s.start.stage ∧ s.start.stage ≤ 8 then s.stageFault reason false else s)

/-- STARTUP_RETRY: 1 s after the fault, from stage 2. -/
def State.startupRetry (s : State) : State :=
  match s.start.retryAt with
  | some t => if t ≤ s.now then (s.setStart fun (x : StartState) => { x with retryAt := none }).fromStage2 else s
  | none => s

def execStartupRetry (s : State) : Host.Outcome State Fault Refusal := .next s.startupRetry

/-! ### Tray discretes (R477, R478) -/

def execTrayReadyAssert (s : State) : Host.Outcome State Fault Refusal :=
  .next (((s.setStart fun (x : StartState) => { x with trayReady := true }).setPower fun (p : PowerState) => { p with trayPark := false }).repower)

/-- TRAY_READY_DEASSERT: an operational module parks, with tray-withdrawn. -/
def State.trayOff (s : State) : State :=
  let s := s.setStart fun (x : StartState) => { x with trayReady := false }
  if s.rd Obj.moduleState = 2 ∧ ¬ s.power.trayPark then
    ((s.raise Ev.trayWithdrawn []).setPower fun (p : PowerState) => { p with trayPark := true }).repower
  else s

def execTrayReadyDeassert (s : State) : Host.Outcome State Fault Refusal := .next s.trayOff

/-- MOD_RESET: the rails go off, and every state but the session's is lost as at power-up; settings take their stored values. -/
def State.modResetOn (s : State) : State :=
  if ¬ s.standby then s
  else
    let s := (s.lose .reset).setStart fun (x : StartState) => { x with modReset := true }
    (s.readVersions s.bootRec.active).loadSettings

def execModReset (s : State) : Host.Outcome State Fault Refusal := .next s.modResetOn

/-- MOD_RESET_RELEASE: pending tiles are retired, and start-up runs from stage 2 in the same session. -/
def State.modResetOff (s : State) : State :=
  if ¬ s.start.modReset then s
  else ((s.setStart fun (x : StartState) => { x with modReset := false }).retireTiles).fromStage2

def execModResetRelease (s : State) : Host.Outcome State Fault Refusal := .next s.modResetOff

end Sys2Proof.Machine
end

