-- ==== Sys2Proof/Machine/Commit.lean ====
section
/-! DEFINITION. The commit of a step and the boundary that follows it (R25): the group counts (R56, R58), form decisions and grants (R85 to
R90, R118 to R121), the skip policies (R216 to R218), leftover casts (R502), step notices (R192), mode epochs and staged settings (R348,
R409), and the wait for a missing update record (R209). -/
namespace Sys2Proof.Machine

/-! ### When a step commits (R25) -/

/-- Has the verdict on a compare step `n - 1` been formed (R353)? A step formed again after a rollback waits for a verdict of its own. -/
def State.verdictIn (s : State) (n : Nat) : Bool :=
  match s.coll.compare with
  | some c => c.step + 1 != n || c.told
  | none => true

/-- Is a dispatched record of a map or of the cast plan still to be acted on? It takes effect at the boundary after its dispatch (R118,
R208). -/
def State.planActing (s : State) : Bool :=
  s.running.any fun p =>
    let k := Rec.kind p.2.raw
    let op := Rec.op p.2.raw
    !p.2.unit && !p.2.skip && ((k == 7 && op == 0) || (k == 3 && (op == 4 || op == 5)))

def State.commitReady (s : State) (n : Nat) : Bool :=
  s.maySettle && s.recordsDone n && !s.planActing && s.mappedLayers.all (s.layerReady n) && s.verdictIn n

/-! ### Group counts (R56, R58) -/

/-- Add up one count over keys of the counts table. -/
def sumOver (g : Tab Counts) (keep : Nat → Nat → Nat → Bool) (f : Counts → Nat) : Nat :=
  ((g.filter fun x => keep (x.1 / 512) (x.1 % 512 / 2) (x.1 % 2)).map fun x => f x.2).sum

/-- Forward matrix, cast and vector points of a layer: what the per-layer objects and the fallback count. -/
def layerCount (g : Tab Counts) (l : Nat) (f : Counts → Nat) : Nat :=
  sumOver g (fun k m d => (k == kMatrix || k == kCast || k == kVector) && m == l && d == 0) f

/-- Publish the group counts of the step; nonfinite-seen carries the lowest layer and direction with a non-finite element. -/
def State.publishCounts (s : State) (g : Tab Counts) : State :=
  let s := (List.range 255).foldl (fun s i =>
    let l := i + 1
    ((((s.wr (Obj.stepSatLayer l) (layerCount g l Counts.sat)).wr (Obj.stepElemLayer l) (layerCount g l Counts.elem)).wr (Obj.stepUnfLayer l)
      (layerCount g l Counts.unf)).wr (Obj.stepShadowSat l) (layerCount g l Counts.shSat)).wr (Obj.stepShadowUnf l) (layerCount g l Counts.shUnf)) s
  let n := sumOver g (fun _ _ _ => true) Counts.nonfin
  let s := s.wr Obj.stepNonfinite n
  match (List.range 512).find? fun i => decide (0 < sumOver g (fun _ m d => 2 * m + d == i) Counts.nonfin) with
  | some i => s.raise Ev.nonfiniteSeen [p8 (i / 2), p8 (i % 2)]
  | none => s

/-! ### Form decisions (R85) -/

/-- The value of an H16 setting. -/
def State.h16Set (s : State) (k : Nat) : Ex := (decodeFloat .h16 (s.rd k)).ex

/-- Is `a` times a count above a threshold times the layer's elements? -/
def aboveShare (a count elem : Nat) (t : Ex) : Bool := (t.mul (.int elem)).lt (.int (a * count : Nat))

/-- The form in force: 1 H16, 0 F8 (a deferred request stands in F8). -/
def State.formNow (s : State) (l : Nat) : Nat := if s.rd (Obj.fbState l) = 1 then 1 else 0

/-- The wanted form and the new quiet count of a layer; none where it has no elements, and keeps both. -/
def State.wanted (s : State) (l : Nat) : Option (Nat × Nat) :=
  let e := s.rd (Obj.stepElemLayer l)
  let sat := s.h16Set Obj.fbSatThreshold
  let unf := s.h16Set Obj.fbUnfThreshold
  let q := s.rd (Obj.fbQuiet l)
  if e = 0 then none
  else if s.rd (Obj.fbPolicy l) = 1 then some (0, 0)
  else if s.rd (Obj.fbPolicy l) = 2 then some (1, 0)
  else if s.rd Obj.fbEnable = 0 then some (s.formNow l, q)
  else if s.formNow l = 0 then
    some (if aboveShare 1 (s.rd (Obj.stepSatLayer l)) e sat ∨ aboveShare 1 (s.rd (Obj.stepUnfLayer l)) e unf then 1 else 0, q)
  else
    let q' := if aboveShare 2 (s.rd (Obj.stepShadowSat l)) e sat ∨ aboveShare 2 (s.rd (Obj.stepShadowUnf l)) e unf then 0 else q + 1
    some (if s.rd Obj.fbReturnSteps ≤ q' then 0 else 1, q')

/-! ### The plan of the next step (R118, R235) -/

/-- The plan records dispatched since the last boundary take effect. A reservation that does not fit is not taken, with tier-full and the
pages lacking. -/
def State.takePlan (s : State) : State :=
  let s := { s with tile := { s.tile with
    plan := s.tile.planNext.foldl (fun m ((l, p) : Nat × PlanLayer) => m.insert l p) s.tile.plan, planNext := [] } }
  match s.tile.reserveNext with
  | none => s
  | some r =>
    let more := 192 * r - 192 * s.tile.reserve
    let s := { s with tile := { s.tile with reserveNext := none } }
    let take (s : State) : State := { s with tile := { s.tile with reserve := r } }
    if r ≤ s.tile.reserve then take s
    else if s.rd Obj.pinLimitPages < s.pinned + more then s.raise Ev.tierFull [p32 (s.pinned + more - s.rd Obj.pinLimitPages)]
    else
      let (s', ok) := s.evictFor 1 more
      if ok then take s' else s.raise Ev.tierFull [p32 (more - s.freeIn 1)]

/-- Bytes per tile of a layer's casts in a form. -/
def State.castNeed (s : State) (l form : Nat) : Nat :=
  let p := s.tile.plan.get PlanLayer.none l
  p.mbCount * 64 * (if form = 1 then p.h16Len else p.f8Len)

/-- The demand of a set of forms (R118). -/
def State.castDemand (s : State) (form : Nat → Nat) : Nat := ((s.tile.plan.map Prod.fst).map fun l => s.castNeed l (form l)).sum

/-! ### Grants (R119, R120) -/

/-- Does layer `a` rank before layer `b`: saturation fraction, then underflow fraction, falling, then layer number? -/
def State.ranksBefore (s : State) (a b : Nat) : Bool :=
  let ea := s.rd (Obj.stepElemLayer a)
  let eb := s.rd (Obj.stepElemLayer b)
  let x := s.rd (Obj.stepSatLayer a) * eb
  let y := s.rd (Obj.stepSatLayer b) * ea
  let u := s.rd (Obj.stepUnfLayer a) * eb
  let v := s.rd (Obj.stepUnfLayer b) * ea
  decide (y < x) || (x == y && (decide (v < u) || (u == v && decide (a < b))))

/-- Put a layer into a list in rank order. -/
def State.rankIns (s : State) (l : Nat) : List Nat → List Nat
  | [] => [l]
  | m :: r => if s.ranksBefore l m then l :: m :: r else m :: s.rankIns l r

/-- Grant requests in order while they fit; the scan stops at the first that does not. Granted layers, demand, deferred layers. -/
def State.grantForms (s : State) (c : Nat) : List Nat → Nat → List Nat × Nat × List Nat
  | [], d => ([], d, [])
  | l :: r, d =>
    let e := s.castNeed l 1 - s.castNeed l 0
    if d + e ≤ c then
      let (g, d', x) := s.grantForms c r (d + e)
      (l :: g, d', x)
    else ([], d, l :: r)

/-- Layers 1 to 255. -/
def layers : List Nat := (List.range 255).map (· + 1)

/-- What the commit decides: forms and quiet counts, the layers deferred, capacity and demand. -/
structure Forms where
  want : Tab (Nat × Nat)
  h16 : List Nat
  deferred : List Nat
  cap : Nat
  demand : Nat
  deriving DecidableEq, Repr

/-- The forms of the next step, against the plan that will be in force (R118, R119). -/
def State.decideForms (s : State) : Forms :=
  let want : Tab (Nat × Nat) := layers.filterMap fun l => (s.wanted l).map fun x => (l, x)
  let base (l : Nat) : Nat := match want.find l with
    | some (0, _) => 0
    | some _ => if s.rd (Obj.fbPolicy l) = 2 then 1 else s.formNow l
    | none => s.formNow l
  let req := (layers.filter fun l => base l == 0 && s.rd (Obj.fbPolicy l) == 0 && (match want.find l with
    | some (f, _) => f == 1
    | none => false)).foldl (fun r l => s.rankIns l r) []
  let (granted, d, deferred) := s.grantForms s.castCapacity req (s.castDemand base)
  { want := want, h16 := layers.filter fun l => base l == 1 || granted.contains l, deferred := deferred, cap := s.castCapacity, demand := d }

/-- The state one layer stands in after the boundary: 0 F8, 1 H16, 2 deferred. -/
def Forms.stateOf (f : Forms) (s : State) (l : Nat) : Nat :=
  if f.deferred.contains l then 2
  else
    let next := if f.h16.contains l then 1 else 0
    if (f.want.find l).isSome ∨ next ≠ s.formNow l then next else s.rd (Obj.fbState l)

/-- Quiet count of one layer after the boundary; one that enters H16 form starts at 0 (R86). -/
def Forms.quietOf (f : Forms) (s : State) (l : Nat) : Nat :=
  if f.h16.contains l ∧ s.formNow l = 0 then 0
  else match f.want.find l with
    | some (_, q) => q
    | none => s.rd (Obj.fbQuiet l)

/-- Layers that change form at the boundary. -/
def Forms.changed (f : Forms) (s : State) : List Nat := layers.filter fun l => (if f.h16.contains l then 1 else 0) != s.formNow l

/-- The forms take force: events in layer order, the objects together (R90, R120, R121). -/
def State.applyForms (s : State) (n : Nat) (f : Forms) : State :=
  let s := if f.deferred = [] then s
    else s.raise Ev.formatPressure [p64 n, p16 f.deferred.length, p8 (f.deferred.headD 0), p64 f.cap, p64 f.demand]
  let now := s
  let s := (f.changed now).foldl (fun s l =>
    s.raise (if f.h16.contains l then Ev.fallbackEntered else Ev.fallbackLeft) [p8 l, p64 n]) s
  let s := layers.foldl (fun s l => (s.wr (Obj.fbState l) (f.stateOf now l)).wr (Obj.fbQuiet l) (f.quietOf now l)) s
  ((((s.wr Obj.fbH16Layers f.h16.length).wr Obj.fbDeferredCount f.deferred.length).wr Obj.fbCastCapacity f.cap).wr Obj.fbCastDemand
    f.demand).wr Obj.castReservePages s.tile.reserve

/-! ### Skip policies (R216 to R218) -/

/-- The loss-spike detector of R217; the Bool says whether the step is a spike to skip. -/
def State.spikeTest (s : State) (n : Nat) : State × Bool :=
  if s.rd Obj.spikePolicy = 0 then (s, false)
  else
    let mu := (g16 (s.rd Obj.spikeMu)).ex
    let dev := (g16 (s.rd Obj.spikeDev)).ex
    let seen := s.rd Obj.spikeSeen
    let run := s.rd Obj.spikeRun
    let loss : Option Ex := match s.coll.loss.map g16 with
      | some (.fin x) => some x
      | _ => none
    let limit := mu.add ((s.h16Set Obj.spikeK).mul dev)
    let high : Bool := match loss with
      | some x => decide (s.rd Obj.spikeWarmup ≤ seen) && limit.lt x
      | none => false
    let spike := high && decide (run + 1 ≤ s.rd Obj.spikeRunMax)
    let s := if high ∧ ¬ spike then s.raise Ev.spikePersistent [p64 n] else s
    if spike then
      let s := s.raise Ev.lossSpike [p64 n, p16 (s.coll.loss.getD 0), p16 (g16Code (.fin limit))]
      (s.wr Obj.spikeRun (run + 1), s.rd Obj.spikePolicy == 2)
    else
      let s := s.wr Obj.spikeRun 0
      match loss with
      | none => (s, false)
      | some x =>
        let a := s.h16Set Obj.spikeAlpha
        let e := x.sub mu
        let s := if seen = 0 then (s.wr Obj.spikeMu (g16Code (.fin x))).wr Obj.spikeDev 0
          else (s.wr Obj.spikeMu (g16Code (.fin (mu.add (a.mul e))))).wr Obj.spikeDev (g16Code (.fin (dev.add (a.mul (e.abs.sub dev)))))
        (s.wr Obj.spikeSeen (min (seen + 1) 65535), false)

/-- Has a layer non-finite gradient elements on the wire or read out (R216)? -/
def gradNonfinite (g : Tab Counts) (l : Nat) : Bool :=
  decide (0 < sumOver g (fun k m d => (k == kWire || k == kReadout) && m == l && d == 1) Counts.nonfin)

/-- The cause of a step skip: 1 non-finite, 2 spike, 0 none. -/
def State.skipCause (s : State) (spike : Bool) : Nat :=
  if s.rd Obj.nfPolicy = 0 ∧ 0 < s.rd Obj.stepNonfinite then 1 else if spike then 2 else 0

/-- The armed records of step `n` are skipped, or their passes may start with the seed and the policy in force (R214, R216, R218). -/
def State.settleArms (s : State) (n : Nat) (g : Tab Counts) (spike : Bool) : State :=
  let cause := s.skipCause spike
  let s := if cause = 0 ∨ s.mappedLayers = [] then s else s.raise Ev.updateSkipped [p64 n, p8 cause]
  let s := { s with upd := { s.upd with arms := s.upd.arms.map fun (a : UpdArm) =>
    if a.step = n then { a with go := true, seed := s.rd Obj.runSeed, zero := s.rd Obj.nfPolicy == 2 } else a } }
  (s.upd.arms.filter fun (a : UpdArm) => a.step == n && (cause != 0 || (s.rd Obj.nfPolicy == 1 && gradNonfinite g a.layer))).foldl
    (fun s a => s.skipLayer a) s

/-! ### Leftover casts and arms (R502) -/

/-- The records of a window that opened a cast of step `n` still on a stack, or issued an arm of it that is pending: sequence and tag. -/
def State.leftBy (s : State) (n w : Nat) : List (Nat × Nat) :=
  ((s.tile.dir ++ s.tile.stack).flatMap fun x => (x.2.filter fun c => c.step == n && c.win == w).map fun c => (c.seq, c.tag)) ++
  (s.tile.arms.filter fun a => a.step == n && a.win == w).map fun a => (a.seq, a.tag)

/-- The earliest of some records of a window. -/
def earliest (l : List (Nat × Nat)) : Option (Nat × Nat) :=
  l.foldl (fun b x => match b with
    | none => some x
    | some y => if before x.1 y.1 then some x else some y) none

/-- A tile releases its casts of step `n` wherever they stand in the stack, with the pages that no cast of another step holds. -/
def State.releaseCasts (s : State) (n t : Nat) : State :=
  let gone := (s.casts t).filter fun c => c.step == n
  let s := (s.setDir t ((s.dir t).filter fun c => c.step != n)).setStack t ((s.casts t).filter fun c => c.step != n)
  gone.foldl (fun s c =>
    ({ s with tile := { s.tile with castMem := memClear s.tile.castMem (t * 2 ^ 41 + c.base) c.len } }).freePages t c.base (c.base + c.len)) s

/-- Reason 0x28: each window concerned gets one completion and halts; then the tiles release what is left. -/
def State.leftover (s : State) (n : Nat) : State :=
  let s := (List.range 8).foldl (fun s w => match earliest (s.leftBy n w) with
    | some (q, tag) => (((s.formReserved w 1 3 0x28 tag (some q)).raise Ev.castFault []).countSat Obj.castFaults 1).haltWin w 0xA1 0x0328
    | none => s) s
  let s := { s with tile := { s.tile with arms := s.tile.arms.filter fun a => a.step != n } }
  (List.range 192).foldl (fun s t => s.releaseCasts n t) s

/-! ### The boundary (R25, R348, R409) -/

/-- The windows that hold a step record of the step get their notice, and the next step in progress is the lowest accepted (R192). -/
def State.closeStep (s : State) (n : Nat) : State :=
  let s := s.wr Obj.lastCommittedStep n
  let s := (List.range 8).foldl (fun s w =>
    let had := (s.win w).steps.contains n
    let s := s.updWin w fun x => { x with steps := x.steps.filter fun m => decide (n < m) }
    if had then s.formNotice w 3 0 0 n else s) s
  let next := ((List.range 8).flatMap fun w => (s.win w).steps).foldl (fun (b : Option Nat) m => match b with
    | none => some m
    | some x => some (min x m)) none
  { s with cmd := { s.cmd with stepNow := next } }

/-- What the units keep for one step starts again; counts taken ahead for the next step become its counts. -/
def State.freshStep (s : State) : State :=
  let s := s.endStall
  let k := s.cmd.stepNow.getD (s.rd Obj.lastCommittedStep + 1)
  { s with
    tile := { s.tile with counts := s.tile.later.get [] k, later := s.tile.later.erase k
                          depth := (List.range 192).foldl (fun n t => max n (s.pagesHeld t)) 0 }
    upd := { s.upd with waitFrom := none, waitTold := false }
    coll := { s.coll with agrees := 0, scalars := 0, gathers := 0, loss := none, groupCounts := none, served := [], agreedFor := none
                          lossSeen := s.coll.lossSeen.filter fun m => decide (k ≤ m)
                          lastSeen := s.coll.lastSeen.filter fun m => decide (k ≤ m) } }

/-- A prepare that names this boundary takes force, or is cancelled where its epoch has passed; the Bool says whether it took force. -/
def State.boundaryPrepare (s : State) (n : Nat) : State × Bool :=
  match s.coll.prepare with
  | none => (s, false)
  | some p =>
    if n + 1 < p.step then (s, false)
    else if p.epoch ≠ s.rd Obj.modeEpoch + 1 then ((s.endPrepare 0x2A).raise Ev.modeCancelled [], false)
    else
      let vs := s.prep
      let s := (s.takeForce vs).endPrepare 0
      (if p.fwActivate then (s.wr Obj.actMode 1).holdDispatch else s, true)

/-- Staged values that no prepare carries take force at the first boundary after a restart of the group, and where there is no group; the
Bool says whether any did. -/
def State.promoteStaged (s : State) : State × Bool :=
  if s.coll.restart ∨ s.rd Obj.groupState = 0 then
    let vs := s.staged
    let s := { s with coll := { s.coll with restart := false } }
    (s.takeForce vs, !vs.isEmpty)
  else (s, false)

/-- The boundary after the commit of step `n`: settings, epoch, maps, transfers to joiners, a twin digest that came late. -/
def State.boundary (s : State) (n : Nat) (formChange : Bool) : State :=
  let (s, a) := s.boundaryPrepare n
  let (s, b) := if a then (s, false) else s.promoteStaged
  let s := if a ∨ b ∨ formChange then s.wr Obj.modeEpoch ((s.rd Obj.modeEpoch + 1) % 2 ^ 32) else s
  let s := (s.applyMaps n).freshStep
  let s := s.joinTransfers
  match s.coll.lateTwin with
  | some _ => ({ s with coll := { s.coll with lateTwin := none } }).rollbackVerdict
  | none => s.openInbox

/-- The commit of step `n`. Skipped layers enter their image with the forms that the boundary sets (R88, R218). -/
def State.commit (s : State) (n : Nat) : State :=
  let g := s.coll.groupCounts.getD s.tile.counts
  let s := (s.publishCounts g).takePlan
  let f := s.decideForms
  let (s, spike) := s.spikeTest n
  let s := (s.leftover n).wr Obj.castDepthPeak s.tile.depth
  let change := f.changed s != []
  let s := (((s.closeStep n).applyForms n f).settleArms n g spike).boundary n change
  s.confirmAtCommit.landHeld.compareStart

/-- STEP_COMMIT: the step in progress commits once everything it needs is in place. -/
def State.stepCommit (s : State) : State :=
  match s.cmd.stepNow with
  | some n => if s.commitReady n then s.commit n else s.noteHeld
  | none => s

def execStepCommit (s : State) : Host.Outcome State Fault Refusal := .next s.stepCommit

/-! ### UPDATE_MISSING (R209) -/

/-- UPDATE_MISSING: once the commit has been held back for sync_timeout_ms it is reported, once, and the wait goes on. -/
def State.updateMissing (s : State) : State :=
  match s.cmd.stepNow with
  | none => s
  | some n =>
    let s := s.noteHeld
    match s.heldBack n with
    | none => s
    | some l =>
      let f := s.upd.waitFrom.getD s.now
      if s.upd.waitTold ∨ s.now - f < s.rd Obj.syncTimeoutMs * ms then s
      else ({ s with upd := { s.upd with waitTold := true } }).raise Ev.updateMissing [p64 n, p8 l]

def execUpdateMissing (s : State) : Host.Outcome State Fault Refusal := .next s.updateMissing

end Sys2Proof.Machine
end

