-- ==== Sys2Proof/Machine/Flags.lean ====
section
/-! DEFINITION. Flag words and counters: what clears them (R57, R83, R430) and which ports and subscribers an event still has to reach
(R432). Setting a flag is part of raising an event (Machine/Ops). -/
namespace Sys2Proof.Machine

/-- A write of mask `m` to flags_clear of block `b`: the bits of `m` that are set clear (R430). -/
def State.clearFlags (s : State) (b m : Nat) : State := s.wr (Obj.flags b) (s.rd (Obj.flags b) - (s.rd (Obj.flags b) &&& m))

/-- Subindices `a` to `b` of an index. -/
def subs (idx a b : Nat) : List Nat := (List.range (b + 1 - a)).map fun i => 256 * idx + a + i

/-- The counters that each clear action sets to zero, by the action's key; none for a key that is no such action. -/
def clearSet (key : Nat) : Option (List Nat) :=
  let i := key / 256
  if key = Obj.cumClear then some (subs 0x7010 1 4)
  else if key = Obj.mxClear then some (subs 0xA010 1 4)
  else if key = Obj.castClear then some (subs 0xA018 1 6)
  else if key = Obj.vxClear then some (subs 0xA014 1 6)
  else if key = Obj.fabricClear then some (subs 0xA01C 1 7)
  else if key = Obj.cmdClear then some (subs 0xA020 1 8)
  else if key = Obj.updClear then some (subs 0xA030 1 6)
  else if key = Obj.tmClear then some (subs 0xA040 1 9)
  else if key = Obj.bankClear then some (subs 0xA044 1 3 ++ (List.range 16).map Obj.chReplays)
  else if key = Obj.stClear then some (subs 0xA050 1 7)
  else if key = Obj.inClear then some (subs 0xA054 1 6)
  else if 0xA060 ≤ i ∧ i ≤ 0xA06F ∧ key % 256 = 0x0A then some (subs i 1 9)
  else if key = Obj.collClear then some (subs 0xA070 1 8)
  else if key = Obj.ptClear then some (subs 0xA080 1 6 ++ [0x200005])
  else if key = Obj.clkClear then some (subs 0xA090 1 5)
  else if key = Obj.dictClear then some (subs 0xA0A0 1 6)
  else none

/-- Apply a clear action. -/
def State.clearBy (s : State) (key : Nat) : State := s.clear ((clearSet key).getD [])

/-- Apply clk_clear: the credit stalls counted go too (R405). -/
def State.clearClocks (s : State) : State := { s.clearBy Obj.clkClear with cross := { s.cross with stalls := 0 } }

/-- Apply pt_clear: the parts of a second counted so far go too (R385). -/
def State.clearPower (s : State) : State :=
  { s.clearBy Obj.ptClear with power := { s.power with throttledT := 0, followingT := 0, e2T := 0 } }

/-- A write of a clear action, whose value is 1 (R57, R83). -/
def State.writeClear (s : State) (src : Src) (key arg : Nat) : State := s.act src key arg false 0 fun s => s.clearBy key

end Sys2Proof.Machine
end

