-- ==== Sys2Proof/Machine/Dict.lean ====
section
/-! DEFINITION. The object dictionary (chapter 15): the values it serves (R406, R409, R415), the PDU (R416 to R419), its checks and frames
(R411, R414, R418, R420), log reads and discovery (R429), MCTP (R424), event interrupts (R432) and the status mirror (R434, R435). -/
namespace Sys2Proof.Machine

/-! ### Values served -/

/-- The objects of a command window and its ring (Table 7.12). -/
def State.winValue (s : State) (w j : Nat) : Option Nat :=
  let x := s.win w
  match j with
  | 1 => some (ownerNo x.owner) | 3 => some x.state.no | 4 => some x.e | 5 => some x.queue.length | 6 => some x.lastStep
  | 7 => some x.lastStepSeq | 8 => some x.haltCause | _ => none

def State.ringValue (s : State) (w j : Nat) : Option Nat :=
  let x := s.win w
  match j with
  | 4 => some x.rnext | 5 => some x.rc | 6 => some x.retained | _ => none

/-- Time left of a recall in ms (Table 9.7). -/
def State.noticeLeft (s : State) (n : Nat) : Nat :=
  match (s.lender n).noticeEnd with
  | some t => if s.rd (lenderKey n) = 2 then (t - s.now + ms - 1) / ms else 0
  | none => 0

/-- State of a bank-tier channel: untrained before stage 7 of a start-up, else self-refresh or active (Table 9.8). -/
def State.channelState (s : State) : Nat :=
  if s.tier.selfRefresh then 2 else if ¬ s.start.domain ∧ s.start.stage < 7 then 0 else 1

/-- A tier object (Table 9.7). -/
def State.tierValue (s : State) (k : Nat) : Option Nat :=
  let i := k / 256
  let j := k % 256
  if k = Obj.t1FreePages then some (s.freeIn 1)
  else if k = Obj.t2PoolPages then some (s.pool 2)
  else if k = Obj.t2FreePages then some (s.freeIn 2)
  else if k = Obj.t3PoolPages then some (s.pool 3)
  else if 0x6001 ≤ i ∧ i ≤ 0x6003 then some (s.classIn (i - 0x6000) (j - 1))
  else if (i = 0x6020 ∨ i = 0x6021) ∧ j = 5 then some (s.noticeLeft (i - 0x6020))
  else if 0x6400 ≤ i ∧ i ≤ 0x640F ∧ j = 1 then some s.channelState
  else none

/-- The value of an object that follows from what the state holds elsewhere; none where the object has a value of its own. -/
def State.derived (s : State) (k : Nat) : Option Nat :=
  let i := k / 256
  let j := k % 256
  if 0x4010 ≤ i ∧ i ≤ 0x4017 then s.winValue (i - 0x4010) j
  else if 0x4810 ≤ i ∧ i ≤ 0x4817 then s.ringValue (i - 0x4810) j
  else if i = 0x7401 then some (s.journal j).state
  else if i = 0x7402 then some (s.journal j).digest
  else if i = 0x7403 then some (s.journal j).rhoNext
  else if i = 0x7051 then some (s.journal j).uwQ
  else if k = Obj.modeDigest then some s.modeCrc
  else if k = Obj.reportAgeMs then some ((s.power.reportAt.map fun t => min 65535 ((s.now - t) / ms)).getD 0xFFFF)
  else if k = Obj.droneTicks then some s.now
  else if k = Obj.poweredSTotal then some s.poweredS
  else if k = Obj.eventNext then some s.dict.evseq
  else if k = Obj.eventOldest then some ((s.dict.log.head?.map EventRec.evseq).getD s.dict.evseq)
  else if k = Obj.trayMacLearned then some s.trayAddr
  else if k = Obj.ageRecord then some (unle (s.clock.records.reverse.getD (s.rd Obj.ageSelect) []))
  else if k = Obj.dcqCreditStalls then some s.cross.stalls
  else s.tierValue k

/-- The value in force of any object of a fixed width. -/
def State.view (s : State) (k : Nat) : Nat := (s.derived k).getD (s.rd k)

/-- Bytes of an ASCII string. -/
def ascii (x : String) : Bytes := x.toList.map fun c => BitVec.ofNat 8 c.toNat

/-- The string objects (Table 15.14). -/
def strValue (k : Nat) : Bytes :=
  if k = Obj.partNumber then ascii "JZB-1480-L"
  else if k = Obj.vendor then ascii "Oxtalys"
  else if k = Obj.family then ascii "Jorilaoz"
  else if k = Obj.serial then factoryText k 12
  else factoryText k (1 + (Config.factory k) % 16)

/-- The list of reset objects: index and subindex of each (R454). -/
def State.resetBytes (s : State) : Bytes := s.dict.resetList.flatMap fun k => p16 (k / 256) ++ p8 (k % 256)

/-- Does an address name an object: its type and access (R406)? Subindex 0 is a U8 of access RO at every index in use. -/
def objMeta (idx sub : Nat) : Option (ObjTy × ObjAcc × ObjRng) :=
  if sub = 0 then (if objTop idx = 0 then none else some (.u8, .ro, .any))
  else (objRow idx sub).map fun r => (r.ty, r.acc, r.rng)

/-- The bytes a read returns: the value in force, or the staged value of a mode-block object where it is asked for (R408, R416). -/
def State.readBytes (s : State) (idx sub : Nat) (ty : ObjTy) (staged : Bool) : Bytes :=
  let k := 256 * idx + sub
  if sub = 0 then p8 (objTop idx)
  else if ty = .str then strValue k
  else if k = Obj.settingsResetList then s.resetBytes
  else le (ty.width k) (if staged && isMode k then s.stagedVal k else s.view k)

/-! ### Writes: conditions and effects (R410, R411) -/

/-- Does a bitmap omit the module it should hold (R326)? -/
def omits (bitmap m : Nat) : Bool := bitmap != 0 && (m == 0xFFFF || bitmap >>> m % 2 == 0)

/-- Is the object a lending object of the borrower whose lender is lent or being recalled, or lend_enable or lend_pages while this module lends
(R263)? -/
def State.lendingHeld (s : State) (k : Nat) : Bool :=
  let busy (n : Nat) : Bool := s.rd (lenderKey n) == 1 || s.rd (lenderKey n) == 2
  if k = Obj.hlPages 0 ∨ k = Obj.hlBase 0 then busy 0
  else if k = Obj.hlPages 1 ∨ k = Obj.hlBase 1 then busy 1
  else if k = Obj.nbModule then busy 2
  else if k = Obj.lendEnable ∨ k = Obj.lendPages then s.tier.lentOut.isSome
  else false

/-- Relations between objects: the status of a write that would break one (R411). -/
def State.relation (s : State) (k v : Nat) : Nat :=
  let bad : Bool :=
    if k = Obj.castHighWm then decide (v ≤ s.rd Obj.castLowWm)
    else if k = Obj.castLowWm then decide (s.rd Obj.castHighWm ≤ v)
    else if k = Obj.uwHigh then !(s.h16Set Obj.uwLow).lt (decodeFloat .h16 v).ex
    else if k = Obj.uwLow then !(decodeFloat .h16 v).ex.lt (s.h16Set Obj.uwHigh)
    else if k = Obj.t1Low then decide (s.rd Obj.t1High ≤ v)
    else if k = Obj.t1High then decide (v ≤ s.rd Obj.t1Low)
    else if k = Obj.lendPages then decide (s.freeIn 1 < v)
    else if k = Obj.throttleC then decide (s.rd Obj.highC < v + 3)
    else if k = Obj.highC then decide (v < s.rd Obj.throttleC + 3)
    else if k = Obj.marginTarget then decide (v ≤ s.rd Obj.stretchTaps + 2)
    else if k = Obj.stretchTaps then decide (s.rd Obj.marginTarget ≤ v + 2)
    else if k = Obj.planModule then omits s.bitmap v || omits (s.stagedVal Obj.groupMembers) v
    else if k = Obj.groupMembers then omits v (s.rd Obj.planModule)
    else false
  if bad then 0x09 else 0

/-- Status of an action from the not-stopped check on. -/
def State.actionCond (s : State) (src : Src) (k v : Nat) : Nat :=
  let i := k / 256
  let j := k % 256
  let needs (b : Bool) : Nat := if b then 0 else 0x09
  if 0x4010 ≤ i ∧ i ≤ 0x4017 then (if j = 2 then s.claimCond src (i - 0x4010) v else s.controlCond (i - 0x4010) v)
  else if k = Obj.stepAbort then needs s.cmd.stepNow.isSome
  else if i = 0x6020 ∨ i = 0x6021 then
    let n := i - 0x6020
    (if j = 3 then needs (s.rd (Obj.hlPages n) != 0 && !s.lenderOn n) else needs (s.rd (Obj.hlState n) == 1))
  else if k = Obj.nbCommit then needs (s.rd Obj.nbModule != 0xFFFF && !s.lenderOn 2)
  else if k = Obj.lendRecall then needs s.tier.lentOut.isSome
  else if 0x6810 ≤ i ∧ i ≤ 0x6813 then needs (!s.zoneBusy (i - 0x6810))
  else if k = Obj.settingsSave then s.saveCond
  else if k = Obj.fwConfirm then needs (s.rd Obj.bootState == 1 && s.cmd.stepNow.isNone)
  else if k = Obj.fwRevert then s.revertCond
  else 0

/-- Status of a write from the not-stopped check on. -/
def State.writeCond (s : State) (src : Src) (k v : Nat) (acc : ObjAcc) : Nat :=
  let i := k / 256
  if acc = .wa then s.actionCond src k v
  else if isPlan k ∧ ¬ s.planStopped then 0x06
  else if 0x6810 ≤ i ∧ i ≤ 0x6813 then s.sizeCond (i - 0x6810) v
  else if 0x5000 ≤ i ∧ i ≤ 0x500F then s.sleepCond (i - 0x5000)
  else if k = Obj.actTick then s.actTickCond v
  else if s.lendingHeld k then 0x09
  else s.relation k v

/-- May only the owner of a window write it, and is the source another (Table 7.12)? -/
def State.notOwner (s : State) (src : Src) (k : Nat) : Bool :=
  let i := k / 256
  (decide (0x4010 ≤ i ∧ i ≤ 0x4017) && k % 256 == 9 && !s.isOwner src (i - 0x4010)) ||
  (decide (0x4810 ≤ i ∧ i ≤ 0x4817) && k % 256 == 3 && !s.isOwner src (i - 0x4810))

/-- What an action does, by its key. -/
def State.doAction (s : State) (src : Src) (k v : Nat) : State :=
  let i := k / 256
  let j := k % 256
  if 0x4010 ≤ i ∧ i ≤ 0x4017 then
    let w := i - 0x4010
    if j = 2 then s.claimApply src w v
    else (match v with
      | 1 => s.resume w | 2 => s.resetWin w | 3 => s.haltWin w 0xA6 0x00A6 | _ => s.renewLease w)
  else if 0x4810 ≤ i ∧ i ≤ 0x4817 then s.ringCommit (i - 0x4810)
  else if k = Obj.stepAbort then s.abortStep 0x91
  else if i = 0x6020 ∨ i = 0x6021 then (if j = 3 then s.hlCommit (i - 0x6020) else s.recall (i - 0x6020) v)
  else if k = Obj.nbCommit then s.nbAsk
  else if k = Obj.lendRecall then s.recallLent
  else if 0x6810 ≤ i ∧ i ≤ 0x6813 then s.eraseZone (i - 0x6810)
  else if k = Obj.settingsSave then s.saveStart
  else if k = Obj.settingsDefaults then s.defaults
  else if i = 0x9101 then s.clearFlags j v
  else if k = Obj.fwConfirm then s.confirm
  else if k = Obj.fwRevert then s.revertTo 4
  else if k = Obj.clkClear then s.clearClocks
  else if k = Obj.ptClear then s.clearPower
  else s.clearBy k

/-- Set the value of an object that is no action: staged for the mode block, in force for the rest. -/
def State.setValue (s : State) (k v : Nat) : State :=
  let i := k / 256
  if isMode k then s.stage k v
  else if isPlan k then s.planWrite k v
  else if 0x6810 ≤ i ∧ i ≤ 0x6813 then (s.wr k v).sizeZone (i - 0x6810) v
  else if 0x5000 ≤ i ∧ i ≤ 0x500F then s.sleepApply (i - 0x5000) v
  else if k = Obj.actTick then s.actTickApply v
  else s.wr k v

/-- Apply an accepted write. -/
def State.applyWrite (s : State) (src : Src) (k v : Nat) (acc : ObjAcc) : State :=
  if acc = .wa then s.doAction src k v else s.setValue k v

/-- The value alone, without what the write sets going: what later items of an atomic frame are checked against (R418). -/
def State.holdValue (s : State) (k v : Nat) (acc : ObjAcc) : State :=
  if acc = .wa then s else if isMode k then { s with staged := s.staged.insert k v } else s.wr k v

/-! ### The PDU (R416 to R419) -/

structure Item where
  idx : Nat
  sub : Nat
  ty : Nat
  status : Nat
  reserved : Nat
  value : Bytes
  deriving DecidableEq, Repr

def Item.key (x : Item) : Nat := 256 * x.idx + x.sub

/-- Zero bytes up to a multiple of 4. -/
def pad4 (n : Nat) : Nat := (4 - n % 4) % 4

/-- The items of a PDU body; none where one runs past its end, or something is left over. -/
def parseItems : Nat → Bytes → Option (List Item)
  | 0, b => if b = [] then some [] else none
  | n + 1, b =>
    let f (o k : Nat) : Nat := unle ((b.drop o).take k)
    let len := f 4 2
    if b.length < 8 + len + pad4 len then none
    else (parseItems n (b.drop (8 + len + pad4 len))).map fun r =>
      { idx := f 0 2, sub := f 2 1, ty := f 3 1, status := f 6 1, reserved := f 7 1, value := (b.drop 8).take len } :: r

def pduField (pdu : Bytes) (o k : Nat) : Nat := unle ((pdu.drop o).take k)

/-- The header checks of R419 for an op, and the flags it may carry. -/
def headerOk (pdu : Bytes) (op : Nat) : Bool :=
  decide (8 ≤ pdu.length ∧ pdu.length ≤ 1024) && pduField pdu 0 1 == 1 && pduField pdu 1 1 == op && pduField pdu 4 2 == pdu.length &&
    decide (pduField pdu 6 1 ≤ 64) && decide (pduField pdu 7 1 ≤ 3)

/-- The items of a well-formed read or write request. -/
def requestItems (pdu : Bytes) (op : Nat) : Option (List Item) :=
  if ¬ headerOk pdu op then none
  else (parseItems (pduField pdu 6 1) (pdu.drop 8)).filter fun xs =>
    xs.all fun x => x.status == 0 && x.reserved == 0 && (op != 1 || x.value.isEmpty)

/-- First sequence and count of a well-formed log read. -/
def logRequest (pdu : Bytes) : Option (Nat × Nat) :=
  if headerOk pdu 5 ∧ pdu.length = 16 ∧ pduField pdu 6 1 = 0 ∧ pduField pdu 13 3 = 0 ∧ 1 ≤ pduField pdu 12 1 ∧ pduField pdu 12 1 ≤ 15 then
    some (pduField pdu 8 4, pduField pdu 12 1)
  else none

/-- An item of a reply (Table 15.6). -/
def itemBytes (idx sub ty status : Nat) (value : Bytes) : Bytes :=
  p16 idx ++ p8 sub ++ p8 ty ++ p16 value.length ++ p8 status ++ p8 0 ++ value ++ List.replicate (pad4 value.length) 0

/-- A reply to a request: the op with bit 7 set, its tid, its items. -/
def replyPdu (pdu : Bytes) (count flags : Nat) (body : Bytes) : Bytes :=
  pduHeader (pduField pdu 1 1 + 0x80) (pduField pdu 2 2) (8 + body.length) count flags ++ body

/-! ### Frames (R414, R420) -/

/-- Send a reply. -/
def State.sendReply (s : State) (src : Src) (reply : Bytes) : State :=
  let s := match src with
    | .mctp _ _ => s.pass .standbyPlinth (unle reply)
    | .fld _ => s
  (s.emit (.reply src reply)).count Obj.dictFramesTx 1

/-- Send a reply, and keep request and reply; the last 8 of a source are kept. -/
def State.answer (s : State) (src : Src) (pdu reply : Bytes) : State :=
  let s := s.sendReply src reply
  let mine := (s.dict.kept.filter fun k => k.src == src).take 7
  let rest := s.dict.kept.filter fun k => k.src != src
  { s with dict := { s.dict with kept := { src := src, request := pdu, reply := reply, tick := s.now } :: mine ++ rest } }

/-- A malformed request: counted, and answered where its ver and op can be told (R419). -/
def State.malformed (s : State) (src : Src) (pdu : Bytes) : State :=
  let s := s.countSat Obj.dictDiscards 1
  let op := pduField pdu 1 1
  if 4 ≤ pdu.length ∧ pduField pdu 0 1 = 1 ∧ (op = 1 ∨ op = 2 ∨ op = 5 ∨ op = 6) then s.answer src pdu (replyPdu pdu 0 0x80 []) else s

/-- The kept reply to a request repeated within 1 s (R420). -/
def State.keptReply (s : State) (src : Src) (pdu : Bytes) : Option Bytes :=
  (s.dict.kept.find? fun k => k.src == src && k.request == pdu && decide (s.now - k.tick < sec)).map Kept.reply

/-- A request frame of a source that holds `held` places. The dictionary serves it in the standby domain; a ninth frame is discarded
(R414), a repeated one answered from the kept replies, a malformed one refused; else `f` gives the new state and the reply. -/
def State.receive (s : State) (src : Src) (pdu : Bytes) (held : Nat) (f : State → Option (State × Bytes)) : State :=
  if ¬ s.standby then s
  else
    let s := match src with
      | .fld _ => s.fldFrame
      | .mctp _ _ => s.pass .plinthStandby (unle pdu)
    let s := s.count Obj.dictFramesRx 1
    if 8 ≤ held then s.countSat Obj.dictDiscards 1
    else
      match s.keptReply src pdu with
      | some r => (s.sendReply src r).count Obj.dictRepeats 1
      | none =>
        match f s with
        | some (s, r) => s.answer src pdu r
        | none => s.malformed src pdu

/-! ### DICT_READ (R411, R415, R416) -/

/-- Type, status and value with which one item is read. -/
def State.readItem (s : State) (staged : Bool) (x : Item) : Nat × Nat × Bytes :=
  match objMeta x.idx x.sub with
  | none => (x.ty, if 0xF000 ≤ x.idx ∧ ¬ s.vendorTest then 0x07 else 0x01, [])
  | some (ty, acc, _) =>
    if acc = .wa then (x.ty, 0x04, [])
    else if x.ty ≠ 0 ∧ x.ty ≠ ty.code then (x.ty, 0x02, [])
    else (ty.code, 0, s.readBytes x.idx x.sub ty staged)

/-- Fill a read reply item by item; `room` is what its 1024 bytes leave for values once every header has its place. -/
def State.fillReply (s : State) (staged : Bool) : Nat → List Item → Bytes
  | _, [] => []
  | room, x :: r =>
    let (ty, st, v) := s.readItem staged x
    let n := v.length + pad4 v.length
    if n ≤ room then itemBytes x.idx x.sub ty st v ++ s.fillReply staged (room - n) r
    else itemBytes x.idx x.sub ty 0x0D [] ++ s.fillReply staged room r

/-- A read frame: every item is read in one controller cycle. -/
def State.readFrame (s : State) (pdu : Bytes) : Option (State × Bytes) :=
  (requestItems pdu 1).map fun xs =>
    let s := s.account
    (s, replyPdu pdu xs.length 0 (s.fillReply (pduField pdu 7 1 / 2 % 2 == 1) (1016 - 8 * xs.length) xs))

def execDictRead (src : Src) (pdu : Bytes) (held : Nat) (s : State) : Host.Outcome State Fault Refusal :=
  .next (s.receive src pdu held fun s => s.readFrame pdu)

/-! ### DICT_WRITE (R411, R418) -/

/-- The status of a write item, in the order of Table 15.4. -/
def State.itemStatus (s : State) (src : Src) (x : Item) : Nat :=
  match objMeta x.idx x.sub with
  | none => if 0xF000 ≤ x.idx ∧ ¬ s.vendorTest then 0x07 else 0x01
  | some (ty, acc, rng) =>
    if acc = .ro then 0x03
    else if s.notOwner src x.key ∨ s.fldDenied src x.key then 0x0B
    else if x.ty ≠ ty.code ∨ x.value.length ≠ ty.width x.key then 0x02
    else if ¬ rng.ok (unle x.value) then 0x05
    else s.writeCond src x.key (unle x.value) acc

def Item.acc (x : Item) : ObjAcc := ((objMeta x.idx x.sub).map fun m => m.2.1).getD .ro

/-- Apply an item that has passed its checks. -/
def State.applyItem (s : State) (src : Src) (x : Item) : State := s.applyWrite src x.key (unle x.value) x.acc

/-- A frame with atomic 0: each item in turn, against what the items before it have left. -/
def State.writeEach (s : State) (src : Src) : List Item → State × List Nat
  | [] => (s, [])
  | x :: r =>
    let st := s.itemStatus src x
    let (t, sts) := (if st = 0 then s.applyItem src x else s.count Obj.dictRejected 1).writeEach src r
    (t, st :: sts)

/-- The statuses of an atomic frame's items, each against the module's state and the values the earlier items would set. -/
def State.checkAll (s : State) (src : Src) : List Item → List Nat
  | [] => []
  | x :: r =>
    let st := s.itemStatus src x
    st :: (if st = 0 then s.holdValue x.key (unle x.value) x.acc else s).checkAll src r

/-- A frame with atomic 1: all items or none. -/
def State.writeAll (s : State) (src : Src) (xs : List Item) : State × List Nat :=
  let sts := s.checkAll src xs
  if sts.all (· == 0) then (xs.foldl (fun s x => s.applyItem src x) s, sts)
  else (s.count Obj.dictRejected (sts.filter (· != 0)).length, sts.map fun st => if st = 0 then 0x0C else st)

/-- A write frame. -/
def State.writeFrame (s : State) (src : Src) (pdu : Bytes) : Option (State × Bytes) :=
  (requestItems pdu 2).map fun xs =>
    let (t, sts) := if pduField pdu 7 1 % 2 = 1 then s.account.writeAll src xs else s.account.writeEach src xs
    (t, replyPdu pdu xs.length 0 ((xs.zip sts).flatMap fun (x, st) => itemBytes x.idx x.sub x.ty st []))

def execDictWrite (src : Src) (pdu : Bytes) (held : Nat) (s : State) : Host.Outcome State Fault Refusal :=
  .next (s.receive src pdu held fun s => s.writeFrame src pdu)

/-! ### LOG_READ (R429) -/

/-- The records a log read returns, with the sequence it starts from: those from `first`, or from the oldest held where `first` is no
longer held; none where no such record has been formed yet. -/
def State.logFrom (s : State) (first n : Nat) : Nat × List EventRec :=
  let rs := s.dict.log.dropWhile fun r => r.evseq != first
  if rs ≠ [] then (first, rs.take n)
  else if first = s.dict.evseq ∨ after first s.dict.evseq then (first, [])
  else ((s.dict.log.head?.map EventRec.evseq).getD first, s.dict.log.take n)

/-- A log read covers the records it returns; one that reaches the newest ends an episode of log-overrun. -/
def State.logRead (s : State) (pdu : Bytes) : Option (State × Bytes) :=
  (logRequest pdu).map fun (first, n) =>
    let (a, rs) := s.logFrom first n
    let log := s.dict.log.map fun r => if rs.any fun x => x.evseq == r.evseq then { r with covered := true } else r
    let newest : Bool := match rs.getLast? with
      | some r => seqNext r.evseq == s.dict.evseq
      | none => false
    ({ s with dict := { s.dict with log := log, overrun := s.dict.overrun && !newest } },
      replyPdu pdu 0 0 (p32 a ++ p8 rs.length ++ [0, 0, 0] ++ rs.flatMap EventRec.bytes))

def execLogRead (src : Src) (pdu : Bytes) (held : Nat) (s : State) : Host.Outcome State Fault Refusal :=
  .next (s.receive src pdu held fun s => s.logRead pdu)

/-! ### DISCOVER (Table 15.7) -/

/-- The items of a discover reply. -/
def discoverItems : List Item :=
  [Obj.partNumber, Obj.serial, Obj.baseMac, Obj.fldNode].map fun k =>
    { idx := k / 256, sub := k % 256, ty := 0, status := 0, reserved := 0, value := [] }

def State.discover (s : State) (pdu : Bytes) : Option (State × Bytes) :=
  if headerOk pdu 6 ∧ pdu.length = 8 ∧ pduField pdu 6 1 = 0 then
    some (s, replyPdu pdu 4 0 (s.fillReply false (1016 - 32) discoverItems))
  else none

def execDiscover (src : Src) (pdu : Bytes) (held : Nat) (s : State) : Host.Outcome State Fault Refusal :=
  .next (s.receive src pdu held fun s => s.discover pdu)

/-! ### Event interrupts, silence, reassembly (R422, R424, R432) -/

/-- EVENT_IRQ: vector 8, once evt_irq_us has passed since the first record not yet signalled on the port. -/
def State.eventIrq (s : State) (p : HostPort) : State :=
  let f := match p with
    | .ha => s.dict.irqA
    | .hb => s.dict.irqB
  match f with
  | none => s
  | some t =>
    if s.now - t < s.rd Obj.evtIrqUs * us ∨ s.rd (Obj.evtIrq (portNo p)) ≠ 1 then s
    else
      let s := s.interrupt p 8
      match p with
      | .ha => { s with dict := { s.dict with irqA := none } }
      | .hb => { s with dict := { s.dict with irqB := none } }

def execEventIrq (p : HostPort) (s : State) : Host.Outcome State Fault Refusal := .next (s.eventIrq p)

/-- FIELD_LINK_LOST: no intact frame for 1 s, once until the next. -/
def State.fieldSilent (s : State) : State :=
  if s.standby ∧ sec ≤ s.now - s.dict.fldHeard then s.raiseOnce Ev.fieldLinkLost 0 [] else s

def execFieldLinkLost (s : State) : Host.Outcome State Fault Refusal := .next s.fieldSilent

/-- MCTP_REASSEMBLY_TIMEOUT: the packets of a message were not all received within 100 ms; it is discarded and counted. -/
def execMctpReassemblyTimeout (_p : HostPort) (s : State) : Host.Outcome State Fault Refusal :=
  .next (if s.standby then s.countSat Obj.dictDiscards 1 else s)

/-! ### MCTP control (R424); codes as DSP0236 gives them -/

/-- An answer to an MCTP control command: its code, its completion code, its data. -/
def State.mctpAnswer (s : State) (p : HostPort) (code cc : Nat) (body : Bytes) : State :=
  if s.standby then s.emit (.answer p prMctp code (p8 cc ++ body)) else s

/-- SET_ENDPOINT_ID: operations 0 and 1 set the port's EID, which lies in 8 to 254; the others change nothing. -/
def State.setEid (s : State) (p : HostPort) (op eid : Nat) : State :=
  if ¬ s.standby then s
  else if op ≤ 1 ∧ 8 ≤ eid ∧ eid ≤ 254 then (s.wr (Obj.mctpEid (portNo p)) eid).mctpAnswer p 1 0 [0, BitVec.ofNat 8 eid, 0]
  else s.mctpAnswer p 1 (if op = 3 then 0 else 2) [0, BitVec.ofNat 8 (s.rd (Obj.mctpEid (portNo p))), 0]

def execSetEndpointId (p : HostPort) (op eid : Nat) (s : State) : Host.Outcome State Fault Refusal := .next (s.setEid p op eid)

def execGetEndpointId (p : HostPort) (s : State) : Host.Outcome State Fault Refusal :=
  .next (s.mctpAnswer p 2 0 [BitVec.ofNat 8 (s.rd (Obj.mctpEid (portNo p))), 0, 0])

/-- The message types served over MCTP beside control: PLDM (1) and vendor defined by IANA number (0x7F) (R424, R446). -/
def mctpTypes : List Nat := [1, 0x7F]

/-- GET_MCTP_VERSION_SUPPORT: the version entries of the base specification (0xFF), of control (0) or of a type served; the manual gives
no versions. -/
def execGetMctpVersionSupport (p : HostPort) (mtype : Nat) (s : State) : Host.Outcome State Fault Refusal :=
  .next (if mtype = 0xFF ∨ mtype = 0 ∨ mctpTypes.contains mtype then s.mctpAnswer p 4 0 (p8 1 ++ fit 4 (Config.response 40 mtype))
    else s.mctpAnswer p 4 0x80 (p8 0))

def execGetMessageTypeSupport (p : HostPort) (s : State) : Host.Outcome State Fault Refusal :=
  .next (s.mctpAnswer p 5 0 (p8 mctpTypes.length ++ mctpTypes.flatMap p8))

/-- GET_VENDOR_MESSAGE_SUPPORT: the one vendor set, by IANA number in the byte order of MCTP, the last one. -/
def execGetVendorMessageSupport (p : HostPort) (selector : Nat) (s : State) : Host.Outcome State Fault Refusal :=
  .next (if selector = 0 then s.mctpAnswer p 6 0 (p8 0xFF ++ p8 1 ++ (p32 (s.rd Obj.ianaEnterprise)).reverse ++ fit 2 (Config.response 41 0))
    else s.mctpAnswer p 6 2 [])

/-! ### The status mirror (R434, R435) -/

/-- The 4096 bytes of Table 15.11 with a generation number. -/
def State.mirrorBytes (s : State) (gen : Nat) : Bytes :=
  let b1 (k : Nat) : Bytes := p8 (s.view k)
  let b2 (k : Nat) : Bytes := p16 (s.view k)
  let b4 (k : Nat) : Bytes := p32 (s.view k)
  let b8 (k : Nat) : Bytes := p64 (s.view k)
  let zero (n : Nat) : Bytes := List.replicate n 0
  let win (w : Nat) : Bytes :=
    let x := s.win w
    p8 (ownerNo x.owner) ++ p8 x.state.no ++ p8 x.queue.length ++ p8 0 ++ p32 x.e ++ p32 x.rnext ++ p32 x.rc
  let host (n : Nat) : Bytes := b1 (Obj.linkState n) ++ b1 (Obj.linkRate n) ++ b1 (Obj.linkWidth n) ++ b1 (Obj.hlState n)
  let port (p : Nat) : Bytes := b1 (Obj.portState p) ++ b1 (Obj.portPowerState p) ++ b1 (Obj.logicalPlane p) ++ b1 (Obj.idResult p)
  p32 gen ++ p16 1 ++ b2 Obj.dictVersion ++ b4 Obj.powerSession ++
  b1 Obj.moduleState ++ b1 Obj.groupState ++ b1 Obj.powerState ++ b1 Obj.flowState ++
  p64 s.now ++ b8 Obj.lastCommittedStep ++ b8 Obj.stepDigest ++ b8 Obj.stepDigestStep ++ b8 Obj.lastComparedStep ++ b8 Obj.stepNonfinite ++
  b4 Obj.modeEpoch ++ b4 Obj.prepEpoch ++ b4 Obj.eventNext ++ b4 Obj.eventOldest ++
  b2 Obj.groupSize ++ b2 Obj.groupRank ++ b2 Obj.groupAnchor ++ b1 Obj.lastVerdict ++ b1 Obj.suspects ++
  b2 Obj.pinW ++ b2 Obj.pinAvgW ++ b2 Obj.capInForceW ++ b2 Obj.paceSent ++
  b2 Obj.duty ++ b1 Obj.opInForce ++ b1 Obj.capLimiter ++ b1 Obj.deferred ++ b1 Obj.ceilingThermal ++ b1 Obj.ceilingPace ++ p8 0 ++
  b2 Obj.tj ++ b2 Obj.inlet ++ b2 Obj.outlet ++ b2 Obj.flowMlMin ++
  b2 Obj.fbH16Layers ++ b2 Obj.fbDeferredCount ++ b2 Obj.vtrimMv ++ b2 Obj.reedMasked ++
  b4 Obj.t1FreePages ++ b4 Obj.t3PoolPages ++
  zero 4 ++ ((List.range 15).flatMap fun b => b4 (Obj.flags (b + 1))) ++
  host 0 ++ host 1 ++ b1 Obj.nbState ++ zero 55 ++
  ((List.range 8).flatMap win) ++ ((List.range 16).flatMap port) ++ zero 64 ++
  zero 1 ++ ((List.range 255).flatMap fun l => p8 (s.journal (l + 1)).state) ++
  zero 1 ++ ((List.range 255).flatMap fun l => p8 (s.rd (Obj.fbState (l + 1)))) ++
  ((List.range 24).flatMap fun j => b2 (Obj.pairValue (j + 1))) ++ zero 3024

/-- MIRROR_REFRESH: every 100 µs the whole block is written, and gen goes to the next even value; the odd value between stands only while
the fields are written. -/
def State.mirrorRefresh (s : State) : State :=
  if ¬ s.standby ∨ s.now - s.dict.mirrorAt < 100 * us then s
  else
    let s := s.account
    let gen := (unle (memRead s.dict.mirror 0 4) + 2) % 2 ^ 32
    let s := s.pass .standbyPlinth gen
    { s with dict := { s.dict with mirror := memWrite [] 0 (s.mirrorBytes gen), mirrorAt := s.now } }

def execMirrorRefresh (s : State) : Host.Outcome State Fault Refusal := .next s.mirrorRefresh

/-! ### Clear actions (R57, R83, R430) -/

def execCumClear (src : Src) (arg : Nat) (s : State) : Host.Outcome State Fault Refusal := .next (s.writeClear src Obj.cumClear arg)
def execMxClear (src : Src) (arg : Nat) (s : State) : Host.Outcome State Fault Refusal := .next (s.writeClear src Obj.mxClear arg)
def execCastClear (src : Src) (arg : Nat) (s : State) : Host.Outcome State Fault Refusal := .next (s.writeClear src Obj.castClear arg)
def execVxClear (src : Src) (arg : Nat) (s : State) : Host.Outcome State Fault Refusal := .next (s.writeClear src Obj.vxClear arg)
def execFabricClear (src : Src) (arg : Nat) (s : State) : Host.Outcome State Fault Refusal := .next (s.writeClear src Obj.fabricClear arg)
def execCmdClear (src : Src) (arg : Nat) (s : State) : Host.Outcome State Fault Refusal := .next (s.writeClear src Obj.cmdClear arg)
def execUpdClear (src : Src) (arg : Nat) (s : State) : Host.Outcome State Fault Refusal := .next (s.writeClear src Obj.updClear arg)
def execTmClear (src : Src) (arg : Nat) (s : State) : Host.Outcome State Fault Refusal := .next (s.writeClear src Obj.tmClear arg)
def execBankClear (src : Src) (arg : Nat) (s : State) : Host.Outcome State Fault Refusal := .next (s.writeClear src Obj.bankClear arg)
def execStClear (src : Src) (arg : Nat) (s : State) : Host.Outcome State Fault Refusal := .next (s.writeClear src Obj.stClear arg)
def execInClear (src : Src) (arg : Nat) (s : State) : Host.Outcome State Fault Refusal := .next (s.writeClear src Obj.inClear arg)
def execLinkClear (src : Src) (port : Fin 16) (arg : Nat) (s : State) : Host.Outcome State Fault Refusal :=
  .next (s.writeClear src (Obj.linkClear port) arg)
def execCollClear (src : Src) (arg : Nat) (s : State) : Host.Outcome State Fault Refusal := .next (s.writeClear src Obj.collClear arg)
/-- pt_clear: the counters of time are brought up to the cycle of the clear first. -/
def execPtClear (src : Src) (arg : Nat) (s : State) : Host.Outcome State Fault Refusal := .next (s.account.act src Obj.ptClear arg false 0 State.clearPower)
def execClkClear (src : Src) (arg : Nat) (s : State) : Host.Outcome State Fault Refusal := .next (s.act src Obj.clkClear arg false 0 State.clearClocks)
def execDictClear (src : Src) (arg : Nat) (s : State) : Host.Outcome State Fault Refusal := .next (s.writeClear src Obj.dictClear arg)

/-- FLAGS_CLEAR: a write of a mask to flags_clear of a block. -/
def execFlagsClear (src : Src) (block mask : Nat) (s : State) : Host.Outcome State Fault Refusal :=
  .next (s.act src (Obj.flagsClear block) mask false 0 fun s => s.clearFlags block mask)

end Sys2Proof.Machine
end

