-- ==== Sys2Proof/Machine/Dispatch.lean ====
section
/-! DEFINITION. The meaning of every command, one arm for each constructor. -/
namespace Sys2Proof.Machine

def exec (i : Instr) (s : State) : Host.Outcome State Fault Refusal :=
  match i with
  | .cmdTrailerWrite p w k off data => Sys2Proof.Machine.execCmdTrailerWrite p w k off data s
  | .credit w => Sys2Proof.Machine.execCredit w s
  | .acceptOnRoom w => Sys2Proof.Machine.execAcceptOnRoom w s
  | .recordDispatch => Sys2Proof.Machine.execRecordDispatch s
  | .ringRecordWrite w => Sys2Proof.Machine.execRingRecordWrite w s
  | .resultIrq w => Sys2Proof.Machine.execResultIrq w s
  | .recordRetire w q => Sys2Proof.Machine.execRecordRetire w q s
  | .matrix w q t => Sys2Proof.Machine.execMatrix w q t s
  | .outputTileDrain w q t => Sys2Proof.Machine.execOutputTileDrain w q t s
  | .splitHandoff w q t => Sys2Proof.Machine.execSplitHandoff w q t s
  | .tileRecordComplete w q t => Sys2Proof.Machine.execTileRecordComplete w q t s
  | .vectorMap w q t => Sys2Proof.Machine.execVectorMap w q t s
  | .vectorReduce w q t => Sys2Proof.Machine.execVectorReduce w q t s
  | .vmap w q t => Sys2Proof.Machine.execVmap w q t s
  | .gather w q t => Sys2Proof.Machine.execGather w q t s
  | .scatter w q t => Sys2Proof.Machine.execScatter w q t s
  | .reduceTileFold w q => Sys2Proof.Machine.execReduceTileFold w q s
  | .castOpen w q => Sys2Proof.Machine.execCastOpen w q s
  | .castPop w q => Sys2Proof.Machine.execCastPop w q s
  | .castPopTo w q => Sys2Proof.Machine.execCastPopTo w q s
  | .castArm w q => Sys2Proof.Machine.execCastArm w q s
  | .planReserve w q => Sys2Proof.Machine.execPlanReserve w q s
  | .planLayer w q => Sys2Proof.Machine.execPlanLayer w q s
  | .castPageMoveDone t p => Sys2Proof.Machine.execCastPageMoveDone t p s
  | .semSignal w q t => Sys2Proof.Machine.execSemSignal w q t s
  | .semSignalArrive u => Sys2Proof.Machine.execSemSignalArrive u s
  | .semWait w q t => Sys2Proof.Machine.execSemWait w q t s
  | .semSet w q t => Sys2Proof.Machine.execSemSet w q t s
  | .barArm w q => Sys2Proof.Machine.execBarArm w q s
  | .barArrive w q t => Sys2Proof.Machine.execBarArrive w q t s
  | .barrierRelease t c => Sys2Proof.Machine.execBarrierRelease t c s
  | .barWait w q t => Sys2Proof.Machine.execBarWait w q t s
  | .syncTimeout w q t => Sys2Proof.Machine.execSyncTimeout w q t s
  | .fabricParity network tile tree => Sys2Proof.Machine.execFabricParity network tile tree s
  | .tierCreate w q => Sys2Proof.Machine.execTierCreate w q s
  | .tierFree w q => Sys2Proof.Machine.execTierFree w q s
  | .tierMove w q => Sys2Proof.Machine.execTierMove w q s
  | .stream w q => Sys2Proof.Machine.execStream w q s
  | .ringConfig w q => Sys2Proof.Machine.execRingConfig w q s
  | .streamGateOpen w q => Sys2Proof.Machine.execStreamGateOpen w q s
  | .stageFillDone w q t => Sys2Proof.Machine.execStageFillDone w q t s
  | .stageStall w q t => Sys2Proof.Machine.execStageStall w q t s
  | .pageMoveDone h p good phys => Sys2Proof.Machine.execPageMoveDone h p good phys s
  | .eviction upper => Sys2Proof.Machine.execEviction upper s
  | .hlCommit src n arg => Sys2Proof.Machine.execHlCommit src n arg s
  | .hlRecall src n arg => Sys2Proof.Machine.execHlRecall src n arg s
  | .nbCommit src arg => Sys2Proof.Machine.execNbCommit src arg s
  | .lendRecall src arg => Sys2Proof.Machine.execLendRecall src arg s
  | .recallNoticeExpiry n => Sys2Proof.Machine.execRecallNoticeExpiry n s
  | .lenderLost n => Sys2Proof.Machine.execLenderLost n s
  | .bankReadReplay addr u reads reader => Sys2Proof.Machine.execBankReadReplay addr u reads reader s
  | .bankWriteRetry addr u fails => Sys2Proof.Machine.execBankWriteRetry addr u fails s
  | .caParityAlert c => Sys2Proof.Machine.execCaParityAlert c s
  | .bankTempRead c temp => Sys2Proof.Machine.execBankTempRead c temp s
  | .scrub u x => Sys2Proof.Machine.execScrub u x s
  | .updateMap w q => Sys2Proof.Machine.execUpdateMap w q s
  | .update w q => Sys2Proof.Machine.execUpdate w q s
  | .restore w q => Sys2Proof.Machine.execRestore w q s
  | .updatePassStart l n ahead => Sys2Proof.Machine.execUpdatePassStart l n ahead s
  | .layerCommit l => Sys2Proof.Machine.execLayerCommit l s
  | .updateWatchdog => Sys2Proof.Machine.execUpdateWatchdog s
  | .updateMissing => Sys2Proof.Machine.execUpdateMissing s
  | .stepCommit => Sys2Proof.Machine.execStepCommit s
  | .digestVerdict => Sys2Proof.Machine.execDigestVerdict s
  | .report w q delivered => Sys2Proof.Machine.execReport w q delivered s
  | .step w q => Sys2Proof.Machine.execStep w q s
  | .audit w q => Sys2Proof.Machine.execAudit w q s
  | .modePrepare w q => Sys2Proof.Machine.execModePrepare w q s
  | .modeCancel w q => Sys2Proof.Machine.execModeCancel w q s
  | .collectiveOpen w q => Sys2Proof.Machine.execCollectiveOpen w q s
  | .collectiveReduce w q => Sys2Proof.Machine.execCollectiveReduce w q s
  | .collectiveGather w q => Sys2Proof.Machine.execCollectiveGather w q s
  | .agree w q => Sys2Proof.Machine.execAgree w q s
  | .scalar w q => Sys2Proof.Machine.execScalar w q s
  | .sumPageEvict => Sys2Proof.Machine.execSumPageEvict s
  | .msgCapability m => Sys2Proof.Machine.execMsgCapability m s
  | .msgView m => Sys2Proof.Machine.execMsgView m s
  | .msgSurvivors m => Sys2Proof.Machine.execMsgSurvivors m s
  | .msgAbort m => Sys2Proof.Machine.execMsgAbort m s
  | .msgExponent m => Sys2Proof.Machine.execMsgExponent m s
  | .msgAgreed m => Sys2Proof.Machine.execMsgAgreed m s
  | .msgData m => Sys2Proof.Machine.execMsgData m s
  | .msgResult m => Sys2Proof.Machine.execMsgResult m s
  | .msgResend m => Sys2Proof.Machine.execMsgResend m s
  | .msgGather m => Sys2Proof.Machine.execMsgGather m s
  | .msgScalar m => Sys2Proof.Machine.execMsgScalar m s
  | .msgScalarResult m => Sys2Proof.Machine.execMsgScalarResult m s
  | .msgDigest m => Sys2Proof.Machine.execMsgDigest m s
  | .msgTwinDigest m => Sys2Proof.Machine.execMsgTwinDigest m s
  | .msgStatePart m => Sys2Proof.Machine.execMsgStatePart m s
  | .msgStateDone m => Sys2Proof.Machine.execMsgStateDone m s
  | .msgLend m => Sys2Proof.Machine.execMsgLend m s
  | .msgRecall m => Sys2Proof.Machine.execMsgRecall m s
  | .msgRelease m => Sys2Proof.Machine.execMsgRelease m s
  | .msgWithdrawal m => Sys2Proof.Machine.execMsgWithdrawal m s
  | .msgLentRead m => Sys2Proof.Machine.execMsgLentRead m s
  | .msgLentData m => Sys2Proof.Machine.execMsgLentData m s
  | .capabilitySend => Sys2Proof.Machine.execCapabilitySend s
  | .joinWait => Sys2Proof.Machine.execJoinWait s
  | .memberFailDetect m => Sys2Proof.Machine.execMemberFailDetect m s
  | .memberTimeout m => Sys2Proof.Machine.execMemberTimeout m s
  | .chunkWait w q c => Sys2Proof.Machine.execChunkWait w q c s
  | .resultRequest w q c => Sys2Proof.Machine.execResultRequest w q c s
  | .viewLeaderDecide => Sys2Proof.Machine.execViewLeaderDecide s
  | .viewMinorityTimeout => Sys2Proof.Machine.execViewMinorityTimeout s
  | .twinWait => Sys2Proof.Machine.execTwinWait s
  | .portTrainingStart p => Sys2Proof.Machine.execPortTrainingStart p s
  | .fecLock p => Sys2Proof.Machine.execFecLock p s
  | .fecLockTimeout p => Sys2Proof.Machine.execFecLockTimeout p s
  | .helloRx p f cor unc => Sys2Proof.Machine.execHelloRx p f cor unc s
  | .dataFlitRx p f cor unc => Sys2Proof.Machine.execDataFlitRx p f cor unc s
  | .linkWordAck p f cor unc => Sys2Proof.Machine.execLinkWordAck p f cor unc s
  | .creditFlitRx p f cor unc => Sys2Proof.Machine.execCreditFlitRx p f cor unc s
  | .paceModeFlitRx p f cor unc => Sys2Proof.Machine.execPaceModeFlitRx p f cor unc s
  | .lldpFlitRx p f cor unc => Sys2Proof.Machine.execLldpFlitRx p f cor unc s
  | .powerFlitRx p f cor unc => Sys2Proof.Machine.execPowerFlitRx p f cor unc s
  | .replayTimer p => Sys2Proof.Machine.execReplayTimer p s
  | .ackTimer p => Sys2Proof.Machine.execAckTimer p s
  | .creditSend p => Sys2Proof.Machine.execCreditSend p s
  | .paceModeSend => Sys2Proof.Machine.execPaceModeSend s
  | .lldpSend p => Sys2Proof.Machine.execLldpSend p s
  | .lldpMissing p => Sys2Proof.Machine.execLldpMissing p s
  | .laneLoss p => Sys2Proof.Machine.execLaneLoss p s
  | .retrain p => Sys2Proof.Machine.execRetrain p s
  | .retrainDone p => Sys2Proof.Machine.execRetrainDone p s
  | .retrainTimeout p => Sys2Proof.Machine.execRetrainTimeout p s
  | .lp1Idle p => Sys2Proof.Machine.execLp1Idle p s
  | .lp1Exit p => Sys2Proof.Machine.execLp1Exit p s
  | .portSleepWrite src p v => Sys2Proof.Machine.execPortSleepWrite src p v s
  | .inputOvp mv => Sys2Proof.Machine.execInputOvp mv s
  | .inputOvpRelease mv => Sys2Proof.Machine.execInputOvpRelease mv s
  | .inputHigh mv => Sys2Proof.Machine.execInputHigh mv s
  | .inputLow mv => Sys2Proof.Machine.execInputLow mv s
  | .inputLowPark mv => Sys2Proof.Machine.execInputLowPark mv s
  | .inputLowResume mv => Sys2Proof.Machine.execInputLowResume mv s
  | .powerFail mv => Sys2Proof.Machine.execPowerFail mv s
  | .standbyPowerGood written => Sys2Proof.Machine.execStandbyPowerGood written s
  | .bellowsDemand d e0 e1 e2 perOp => Sys2Proof.Machine.execBellowsDemand d e0 e1 e2 perOp s
  | .bellowsGrant => Sys2Proof.Machine.execBellowsGrant s
  | .grantTakeEffect => Sys2Proof.Machine.execGrantTakeEffect s
  | .opChangeDone => Sys2Proof.Machine.execOpChangeDone s
  | .bellowsTimeout d => Sys2Proof.Machine.execBellowsTimeout d s
  | .bellowsRestart => Sys2Proof.Machine.execBellowsRestart s
  | .estimatorUpdate vin iin act => Sys2Proof.Machine.execEstimatorUpdate vin iin act s
  | .capCorrection => Sys2Proof.Machine.execCapCorrection s
  | .paceCeilingUpdate => Sys2Proof.Machine.execPaceCeilingUpdate s
  | .backgroundStarved => Sys2Proof.Machine.execBackgroundStarved s
  | .sensorSample j a b pw => Sys2Proof.Machine.execSensorSample j a b pw s
  | .sensorSuspect j => Sys2Proof.Machine.execSensorSuspect j s
  | .sensorReaccept k => Sys2Proof.Machine.execSensorReaccept k s
  | .thermalCeilingStep => Sys2Proof.Machine.execThermalCeilingStep s
  | .thermalTrip k => Sys2Proof.Machine.execThermalTrip k s
  | .nandTempRead k temp => Sys2Proof.Machine.execNandTempRead k temp s
  | .trayReport mac pdu => Sys2Proof.Machine.execTrayReport mac pdu s
  | .coolantReportsLost => Sys2Proof.Machine.execCoolantReportsLost s
  | .coolantMismatch => Sys2Proof.Machine.execCoolantMismatch s
  | .flowLossAssert => Sys2Proof.Machine.execFlowLossAssert s
  | .flowLossDeassert => Sys2Proof.Machine.execFlowLossDeassert s
  | .stretchRise r run => Sys2Proof.Machine.execStretchRise r run s
  | .stretchStepDown r run => Sys2Proof.Machine.execStretchStepDown r run s
  | .reedMasked row col mon => Sys2Proof.Machine.execReedMasked row col mon s
  | .voltageLoop w => Sys2Proof.Machine.execVoltageLoop w s
  | .marginLow r ppm => Sys2Proof.Machine.execMarginLow r ppm s
  | .ageingRecordWrite => Sys2Proof.Machine.execAgeingRecordWrite s
  | .droneSync skewed => Sys2Proof.Machine.execDroneSync skewed s
  | .poweredTimeSave => Sys2Proof.Machine.execPoweredTimeSave s
  | .dictRead src pdu held => Sys2Proof.Machine.execDictRead src pdu held s
  | .dictWrite src pdu held => Sys2Proof.Machine.execDictWrite src pdu held s
  | .logRead src pdu held => Sys2Proof.Machine.execLogRead src pdu held s
  | .discover src pdu held => Sys2Proof.Machine.execDiscover src pdu held s
  | .eventIrq p => Sys2Proof.Machine.execEventIrq p s
  | .mirrorRefresh => Sys2Proof.Machine.execMirrorRefresh s
  | .fieldLinkLost => Sys2Proof.Machine.execFieldLinkLost s
  | .mctpReassemblyTimeout p => Sys2Proof.Machine.execMctpReassemblyTimeout p s
  | .setEndpointId p op eid => Sys2Proof.Machine.execSetEndpointId p op eid s
  | .getEndpointId p => Sys2Proof.Machine.execGetEndpointId p s
  | .getMctpVersionSupport p mtype => Sys2Proof.Machine.execGetMctpVersionSupport p mtype s
  | .getMessageTypeSupport p => Sys2Proof.Machine.execGetMessageTypeSupport p s
  | .getVendorMessageSupport p selector => Sys2Proof.Machine.execGetVendorMessageSupport p selector s
  | .cumClear src arg => Sys2Proof.Machine.execCumClear src arg s
  | .mxClear src arg => Sys2Proof.Machine.execMxClear src arg s
  | .castClear src arg => Sys2Proof.Machine.execCastClear src arg s
  | .vxClear src arg => Sys2Proof.Machine.execVxClear src arg s
  | .fabricClear src arg => Sys2Proof.Machine.execFabricClear src arg s
  | .cmdClear src arg => Sys2Proof.Machine.execCmdClear src arg s
  | .updClear src arg => Sys2Proof.Machine.execUpdClear src arg s
  | .tmClear src arg => Sys2Proof.Machine.execTmClear src arg s
  | .bankClear src arg => Sys2Proof.Machine.execBankClear src arg s
  | .stClear src arg => Sys2Proof.Machine.execStClear src arg s
  | .inClear src arg => Sys2Proof.Machine.execInClear src arg s
  | .linkClear src port arg => Sys2Proof.Machine.execLinkClear src port arg s
  | .collClear src arg => Sys2Proof.Machine.execCollClear src arg s
  | .ptClear src arg => Sys2Proof.Machine.execPtClear src arg s
  | .clkClear src arg => Sys2Proof.Machine.execClkClear src arg s
  | .dictClear src arg => Sys2Proof.Machine.execDictClear src arg s
  | .cwClaim src w port => Sys2Proof.Machine.execCwClaim src w port s
  | .cwTakeover src w port => Sys2Proof.Machine.execCwTakeover src w port s
  | .cwForcedTakeover src w port => Sys2Proof.Machine.execCwForcedTakeover src w port s
  | .cwRelease src w port => Sys2Proof.Machine.execCwRelease src w port s
  | .cwReleaseDone w => Sys2Proof.Machine.execCwReleaseDone w s
  | .cwResume src w => Sys2Proof.Machine.execCwResume src w s
  | .cwReset src w => Sys2Proof.Machine.execCwReset src w s
  | .cwHalt src w => Sys2Proof.Machine.execCwHalt src w s
  | .leaseRenew src w => Sys2Proof.Machine.execLeaseRenew src w s
  | .ownerLeaseExpired w => Sys2Proof.Machine.execOwnerLeaseExpired w s
  | .stepAbort src arg => Sys2Proof.Machine.execStepAbort src arg s
  | .ringCommit src w arg => Sys2Proof.Machine.execRingCommit src w arg s
  | .szReset src z arg => Sys2Proof.Machine.execSzReset src z arg s
  | .settingsSave src arg => Sys2Proof.Machine.execSettingsSave src arg s
  | .settingsSaveDone good => Sys2Proof.Machine.execSettingsSaveDone good s
  | .settingsDefaults src arg => Sys2Proof.Machine.execSettingsDefaults src arg s
  | .flagsClear src block mask => Sys2Proof.Machine.execFlagsClear src block mask s
  | .fwConfirm src arg => Sys2Proof.Machine.execFwConfirm src arg s
  | .fwRevert src arg => Sys2Proof.Machine.execFwRevert src arg s
  | .actTickWrite src v => Sys2Proof.Machine.execActTickWrite src v s
  | .localActivationTick => Sys2Proof.Machine.execLocalActivationTick s
  | .fwActivation => Sys2Proof.Machine.execFwActivation s
  | .trialTimeout => Sys2Proof.Machine.execTrialTimeout s
  | .boot => Sys2Proof.Machine.execBoot s
  | .pldmQueryDeviceIdentifiers p => Sys2Proof.Machine.execPldmQueryDeviceIdentifiers p s
  | .pldmGetFirmwareParameters p => Sys2Proof.Machine.execPldmGetFirmwareParameters p s
  | .pldmRequestUpdate p => Sys2Proof.Machine.execPldmRequestUpdate p s
  | .pldmPassComponentTable p => Sys2Proof.Machine.execPldmPassComponentTable p s
  | .pldmUpdateComponent p size => Sys2Proof.Machine.execPldmUpdateComponent p size s
  | .pldmFirmwareData p off data => Sys2Proof.Machine.execPldmFirmwareData p off data s
  | .pldmGetStatus p => Sys2Proof.Machine.execPldmGetStatus p s
  | .pldmCancelUpdateComponent p => Sys2Proof.Machine.execPldmCancelUpdateComponent p s
  | .pldmCancelUpdate p => Sys2Proof.Machine.execPldmCancelUpdate p s
  | .pldmActivateFirmware p => Sys2Proof.Machine.execPldmActivateFirmware p s
  | .spdmGetCertificate p => Sys2Proof.Machine.execSpdmGetCertificate p s
  | .spdmChallenge p => Sys2Proof.Machine.execSpdmChallenge p s
  | .spdmGetMeasurements p => Sys2Proof.Machine.execSpdmGetMeasurements p s
  | .spdmKeyExchange p => Sys2Proof.Machine.execSpdmKeyExchange p s
  | .spdmHeartbeat p => Sys2Proof.Machine.execSpdmHeartbeat p s
  | .ideKm p op key => Sys2Proof.Machine.execIdeKm p op key s
  | .ideStopped p => Sys2Proof.Machine.execIdeStopped p s
  | .dualReport p nonce => Sys2Proof.Machine.execDualReport p nonce s
  | .vendorTestNonce p => Sys2Proof.Machine.execVendorTestNonce p s
  | .vendorTestUnlock p token => Sys2Proof.Machine.execVendorTestUnlock p token s
  | .sample w q => Sys2Proof.Machine.execSample w q s
  | .fetch w q => Sys2Proof.Machine.execFetch w q s
  | .profile w q => Sys2Proof.Machine.execProfile w q s
  | .engineConfig w q => Sys2Proof.Machine.execEngineConfig w q s
  | .append w q data => Sys2Proof.Machine.execAppend w q data s
  | .drain w q => Sys2Proof.Machine.execDrain w q s
  | .sampleComplete w q => Sys2Proof.Machine.execSampleComplete w q s
  | .decoderStall k => Sys2Proof.Machine.execDecoderStall k s
  | .appendDone w q => Sys2Proof.Machine.execAppendDone w q s
  | .drainComplete w q => Sys2Proof.Machine.execDrainComplete w q s
  | .stripeRowProgrammed zone pages => Sys2Proof.Machine.execStripeRowProgrammed zone pages s
  | .flashReadFail u die block retry => Sys2Proof.Machine.execFlashReadFail u die block retry s
  | .garbageCollection stripe rows => Sys2Proof.Machine.execGarbageCollection stripe rows s
  | .wearLevelCopy die cold hot => Sys2Proof.Machine.execWearLevelCopy die cold hot s
  | .readDisturbRefresh die block => Sys2Proof.Machine.execReadDisturbRefresh die block s
  | .powerUpReadScan weak => Sys2Proof.Machine.execPowerUpReadScan weak s
  | .trayReadyDeassert => Sys2Proof.Machine.execTrayReadyDeassert s
  | .trayReadyAssert => Sys2Proof.Machine.execTrayReadyAssert s
  | .modReset => Sys2Proof.Machine.execModReset s
  | .perstAssert p => Sys2Proof.Machine.execPerstAssert p s
  | .perstRelease p => Sys2Proof.Machine.execPerstRelease p s
  | .slotIdSample v => Sys2Proof.Machine.execSlotIdSample v s
  | .startupStageDone bad => Sys2Proof.Machine.execStartupStageDone bad s
  | .startupStageFault reason => Sys2Proof.Machine.execStartupStageFault reason s
  | .startupRetry => Sys2Proof.Machine.execStartupRetry s
  | .helloExchangeTimeout p => Sys2Proof.Machine.execHelloExchangeTimeout p s
  | .hostLinkDown p => Sys2Proof.Machine.execHostLinkDown p s
  | .hostLinkUp p rate width => Sys2Proof.Machine.execHostLinkUp p rate width s
  | .modResetRelease => Sys2Proof.Machine.execModResetRelease s
  | .doeDiscovery p n => Sys2Proof.Machine.execDoeDiscovery p n s
  | .spdmGetVersion p => Sys2Proof.Machine.execSpdmGetVersion p s
  | .spdmGetCapabilities p => Sys2Proof.Machine.execSpdmGetCapabilities p s
  | .spdmNegotiateAlgorithms p => Sys2Proof.Machine.execSpdmNegotiateAlgorithms p s
  | .spdmGetDigests p => Sys2Proof.Machine.execSpdmGetDigests p s
  | .spdmFinish p => Sys2Proof.Machine.execSpdmFinish p s
  | .spdmEndSession p => Sys2Proof.Machine.execSpdmEndSession p s
  | .spdmHeartbeatTimeout p => Sys2Proof.Machine.execSpdmHeartbeatTimeout p s

end Sys2Proof.Machine
end

