-- ==== Sys2Proof/Machine/Step.lean ====
section
/-! DEFINITION. One step of the block: the command at the front of the queue takes effect; with none waiting, a drone tick passes. -/
namespace Sys2Proof.Machine

/-- A drone tick of 10 ns passes while nothing is commanded: the master count advances by one with the standby rails good (R400), and
before that nothing does. (DESIGN CHOICE, log entry 1.) -/
def State.tick (s : State) : State := if s.standby then { s with now := s.now + 1 } else s

/-- One step: the command at the front of the queue, with the queue's rest left waiting; on an empty queue, a tick. -/
def step (s : State) : Host.Outcome State Fault Refusal :=
  match s.pending with
  | [] => .next s.tick
  | c :: r => exec c { s with pending := r }

/-- The state with the command that a word spells put in front of its queue; a word spells none (Decode.lean). -/
def State.withFetchWord (s : State) (nbits w : Nat) : State :=
  match decodeTableWord nbits w with
  | none => s
  | some c => { s with pending := c :: s.pending }

end Sys2Proof.Machine
end

