-- ==== Sys2Proof/Safety.lean ====
section
/-! DEFINITION. What the statements speak of: the parts of the module that a command may change, the form every reachable state keeps, and
the relation of a state to one that a command has made of it. -/
namespace Sys2Proof.Machine

/-- The parts of the module apart from its commands waiting and its dictionary (object values, event log, outputs). The memories stand by
themselves: command slots, scratchpads, cast stack bytes, region bytes, stream zone bytes, the BAR2 block and the firmware slots. -/
inductive Part where
  | now | standby | staged | prep
  | bar0 | cmd
  | scratch | castMem | tile
  | spans | touches | upd | link | coll
  | mem | tier
  | zones | store
  | power | clock | cross
  | slots | fw
  | start | mirror | free
  deriving DecidableEq, Repr

/-- Is a part of `t` what it is in `s`? A group whose memory is a part of its own is compared with that memory left aside. -/
def Part.same (s t : State) : Part → Prop
  | .now => t.now = s.now
  | .standby => t.standby = s.standby
  | .staged => t.staged = s.staged
  | .prep => t.prep = s.prep
  | .bar0 => t.cmd.bar0 = s.cmd.bar0
  | .cmd => { t.cmd with bar0 := [] } = { s.cmd with bar0 := [] }
  | .scratch => t.tile.scratch = s.tile.scratch
  | .castMem => t.tile.castMem = s.tile.castMem
  | .tile => { t.tile with scratch := [], castMem := [] } = { s.tile with scratch := [], castMem := [] }
  | .spans => t.spans = s.spans
  | .touches => t.touches = s.touches
  | .upd => t.upd = s.upd
  | .link => t.link = s.link
  | .coll => t.coll = s.coll
  | .mem => t.tier.mem = s.tier.mem
  | .tier => { t.tier with mem := [] } = { s.tier with mem := [] }
  | .zones => t.store.zones = s.store.zones
  | .store => { t.store with zones := [] } = { s.store with zones := [] }
  | .power => t.power = s.power
  | .clock => t.clock = s.clock
  | .cross => t.cross = s.cross
  | .slots => t.fw.slots = s.fw.slots
  | .fw => { t.fw with slots := [] } = { s.fw with slots := [] }
  | .start => t.start = s.start
  | .mirror => t.dict.mirror = s.dict.mirror
  | .free => t.free = s.free

/-- The objects that forming an event record may change: flag words (R430), occurrence counts (R431) and the count of frames sent (R432). -/
def eventKey (k : Nat) : Bool := decide (k / 256 = 0x9100) || decide (0x9201 ≤ k / 256 ∧ k / 256 ≤ 0x920F) || decide (k = Obj.dictFramesTx)

/-- The state that the work of step `m` sees: its counts are those of its own step (R55). -/
def State.seen (s : State) (m : Option Nat) : State :=
  match m, s.cmd.stepNow with
  | some m, some n => if n < m then { s with tile := { s.tile with counts := s.tile.later.get [] m } } else s
  | _, _ => s

/-- Is a code that of an event: category 1 to 15 (R427)? -/
def evOk (code : Nat) : Bool := decide (256 ≤ code ∧ code < 4096)

/-- The state in which a flit taken on a port meets what its type does: codewords counted, the acknowledgement of its link word applied (R303, R309). -/
def State.acked (s : State) (p : Nat) (f : Bytes) (cor unc : Nat) : State :=
  ((((s.pass (.linkRx p) (unle f)).count (Obj.fecCorrected p) cor).count (Obj.fecUncorrectable p) unc).updPort p fun x => { x with
    badCodes := (x.badCodes.filter fun t => decide (s.now - t < ms)) ++ List.replicate unc s.now }).takeAck p (linkWord f)

/-- The state in which a request frame of a source is served: an intact field frame noted, a frame of a host port across from Plinth, the frame
counted (R391, R414, R422). -/
def State.heard (s : State) (src : Src) (pdu : Bytes) : State :=
  (match src with
    | .fld _ => s.fldFrame
    | .mctp _ _ => s.pass .plinthStandby (unle pdu)).count Obj.dictFramesRx 1

/-- The object table lists only values that differ from their default, with keys rising. -/
def ObjForm (m : Tab Nat) : Prop := m.Pairwise (fun a b => a.1 < b.1) ∧ ∀ e ∈ m, e.2 ≠ objDflt e.1

/-- The windows are listed canonically, and no queue holds more than 64 records (R180). -/
def WinsForm (m : Tab Window) : Prop := Tab.wf Window.reset m ∧ ∀ e ∈ m, e.2.queue.length ≤ 64

/-- Every crossing's queue is at rest: empty, its 16 credits with the sender, its pointers equal and seen on both sides (R392, R393). -/
def CrossForm (m : Tab Dcq) : Prop := Tab.wf Dcq.reset m ∧ ∀ e ∈ m, e.2.atRest = true

/-- The form every state of the module keeps: the object table and every memory are canonical, so that equal contents are equal data; the event
log holds at most 4096 records (R429); no window's queue holds more than 64 (R180); what a command wrote into a crossing has been read (R392). -/
structure State.Form (s : State) : Prop where
  obj : ObjForm s.obj
  bar0 : Tab.wf 0 s.cmd.bar0
  scratch : Tab.wf 0 s.tile.scratch
  castMem : Tab.wf 0 s.tile.castMem
  mem : Tab.wf 0 s.tier.mem
  lentMem : Tab.wf 0 s.tier.lentMem
  zones : Tab.wf 0 s.store.zones
  mirror : Tab.wf 0 s.dict.mirror
  slots : Tab.wf 0 s.fw.slots
  log : s.dict.log.length ≤ 4096
  wins : WinsForm s.cmd.wins
  cross : CrossForm s.cross.queues

/-- What a command may change: parts of the module, and object values by key. -/
structure Scope where
  parts : List Part
  keys : Nat → Prop

/-- `t` is what a command may make of `s` that changes only what `g` lists: the commands waiting are as they were, every part that `g` does not
list is as it was, every object that `g` does not list reads as it did, but for those that an event record changes, and the form is kept. The event
log and the outputs may always grow. -/
structure Within (g : Scope) (s t : State) : Prop where
  pending : t.pending = s.pending
  same : ∀ p, p ∈ g.parts ∨ p.same s t
  form : s.Form → t.Form
  objs : ∀ k, g.keys k ∨ eventKey k = true ∨ t.rd k = s.rd k

/-! ### A dual-clock queue under any two clocks (R392) -/

/-- What can happen at a dual-clock queue: the sender offers an entry, the receiver asks for one, a cycle of either clock. -/
inductive DcqEvent where
  | write (v : Nat)
  | read
  | rxClock
  | txClock
  deriving DecidableEq, Repr

/-- The queue after an event, with the entries read and the entries written so far, oldest first. -/
def Dcq.event : Dcq × List Nat × List Nat → DcqEvent → Dcq × List Nat × List Nat
  | (d, taken, put), .write v => (d.write v, taken, if d.credits = 0 then put else put ++ [v])
  | (d, taken, put), .read => (d.read, if d.ready then taken ++ d.ents.take 1 else taken, put)
  | (d, taken, put), .rxClock => (d.rxClock, taken, put)
  | (d, taken, put), .txClock => (d.txClock, taken, put)

end Sys2Proof.Machine
end

