-- ==== Sys2Proof/Certificates/Slice0/Obligations.lean ====
section
/-! DEFINITION. The statements: what the module does, command family by command family, and what every command leaves as it is. -/
section
open Sys2Proof Sys2Proof.Machine

/-- A valid record in the watched slot is accepted. Each clause concludes that exec answers a next state, under conditions on the state and the
operands alone. Completes: cmdTrailerWrite, credit, acceptOnRoom. -/
def Obligations.ValidRecordsAreAccepted : Prop :=
  (∀ (s : State) (p : HostPort) (w : Fin 8) (k : Fin 1024) (r : Rec),
    s.linkUp p = true → s.ideBlocked p = false → (s.win w).owner = some p → (s.win w).state ≠ .closed → s.rd Obj.moduleState = 2 →
    k.val = (s.win w).e % 1024 → (s.win w).marks.get 0 k < 256 → Rec.seq r = (s.win w).e → Rec.win r = w → crcOk r = true → Rec.kind r ≠ 0 →
    (s.win w).queue.length < 64 →
    ∃ t, exec (.cmdTrailerWrite p w k 0 (recBytes r)) s = .next t ∧
      (t.win w).e = seqNext (s.win w).e ∧ (t.win w).queue.map QEntry.raw = (s.win w).queue.map QEntry.raw ++ [r] ∧ t.slot w k = r ∧
      (∀ a, a < slotAddr w k 0 ∨ slotAddr w k 0 + 64 ≤ a → t.cmd.bar0.get 0 a = s.cmd.bar0.get 0 a)) ∧
  (∀ (s : State) (p : HostPort) (w : Fin 8) (k : Fin 1024) (off : Nat) (data : Bytes),
    s.linkUp p = true → s.ideBlocked p = false → (s.win w).owner = some p → (s.win w).marks.get 0 k ||| trailerMask off data ≠ 255 →
    ∃ t, exec (.cmdTrailerWrite p w k off data) s = .next t ∧
      t.cmd.bar0 = memWrite s.cmd.bar0 (slotAddr w k off) (inSlot off data) ∧
      (t.win w).marks.get 0 k = (s.win w).marks.get 0 k ||| trailerMask off data ∧ (t.win w).queue = (s.win w).queue ∧ (t.win w).e = (s.win w).e) ∧
  (∀ (s : State) (p : HostPort) (w : Fin 8) (k : Fin 1024) (off : Nat) (data : Bytes),
    s.linkUp p = true → ((s.win w).owner ≠ some p ∨ s.ideBlocked p = true) → trailerMask off data ≠ 0 →
    ∃ t, exec (.cmdTrailerWrite p w k off data) s = .next t ∧
      t.cmd = s.cmd ∧ t.rd Obj.foreignWrites = (s.rd Obj.foreignWrites + 1) % 2 ^ 64) ∧
  (∀ (s : State) (w : Fin 8) (r : Rec),
    (s.win w).due = true → (s.win w).state ≠ .closed → (s.win w).isWritten ((s.win w).e % 1024) = true → s.rd Obj.moduleState = 2 →
    r = s.slot w ((s.win w).e % 1024) → Rec.seq r = (s.win w).e → Rec.win r = w → crcOk r = true → Rec.kind r = 0 → creditCheck r = 0 →
    ∃ t, exec (.credit w) s = .next t ∧
      (t.win w).e = seqNext (s.win w).e ∧ (t.win w).queue = (s.win w).queue ∧ (t.win w).state = (s.win w).state) ∧
  (∀ (s : State) (w : Fin 8) (r : Rec),
    (s.win w).due = true → (s.win w).state ≠ .closed → (s.win w).isWritten ((s.win w).e % 1024) = true → s.rd Obj.moduleState = 2 →
    r = s.slot w ((s.win w).e % 1024) → Rec.seq r = (s.win w).e → Rec.win r = w → crcOk r = true → Rec.kind r = 0 → creditCheck r ≠ 0 →
    ∃ t, exec (.credit w) s = .next t ∧
      (t.win w).e = seqNext (s.win w).e ∧ (t.win w).queue = (s.win w).queue ∧ (t.win w).state = .halted) ∧
  (∀ (s : State) (w : Fin 8) (r : Rec),
    (s.win w).due = true → (s.win w).state ≠ .closed → (s.win w).isWritten ((s.win w).e % 1024) = true → s.rd Obj.moduleState = 2 →
    r = s.slot w ((s.win w).e % 1024) → Rec.seq r = (s.win w).e → Rec.win r = w → crcOk r = true → Rec.kind r ≠ 0 → (s.win w).queue.length < 64 →
    ∃ t, exec (.acceptOnRoom w) s = .next t ∧
      (t.win w).e = seqNext (s.win w).e ∧ (t.win w).queue.map QEntry.raw = (s.win w).queue.map QEntry.raw ++ [r])

/-- Ring records are written in two parts, signalled, and written anew after a ring commit. Each clause concludes that exec answers a next
state, under conditions on the state and the operands alone. Completes: ringRecordWrite, resultIrq, ringCommit. -/
def Obligations.ResultRingIsWritten : Prop :=
  (∀ (s : State) (w : Fin 8) (p : HostPort) (r : RingEnt) (a : Nat),
    s.ringReady w = some (p, r) → a = (s.win w).ringBase + 32 * (r.rseq % 2 ^ (s.win w).ringOrder) →
    ∃ t, exec (.ringRecordWrite w) s = .next t ∧
      t.out = .posted p a (r.bytes.take 4) :: .posted p (a + 4) (r.bytes.drop 4) :: s.out ∧
      (t.win w).ring = (s.win w).ring.map (fun y => if y.rseq = r.rseq then { y with written := true } else y) ∧
      (t.win w).irqCount = (s.win w).irqCount + 1 ∧ t.rd Obj.ringWritten = (s.rd Obj.ringWritten + 1) % 2 ^ 64) ∧
  (∀ (s : State) (w : Fin 8) (p : HostPort),
    s.irqDue w = true → (s.win w).owner = some p → (s.cmd.msix.get MsixEnt.reset (16 * portNo p + w)).masked = true →
    ∃ t, exec (.resultIrq w) s = .next t ∧
      t.out = s.out ∧ t.cmd.pba.get false (16 * portNo p + w) = true ∧ (t.win w).irqCount = 0 ∧ (t.win w).irqFrom = none) ∧
  (∀ (s : State) (w : Fin 8) (p : HostPort),
    s.irqDue w = true → (s.win w).owner = some p → (s.cmd.msix.get MsixEnt.reset (16 * portNo p + w)).masked = false →
    ∃ t, exec (.resultIrq w) s = .next t ∧
      t.out = .msix p w :: s.out ∧ (t.win w).irqCount = 0 ∧ (t.win w).irqFrom = none) ∧
  (∀ (s : State) (src : Src) (w : Fin 8) (arg : Nat),
    arg = 1 → s.isOwner src w = true → s.fldDenied src (Obj.ringCommit w) = false →
    ∃ t, exec (.ringCommit src w arg) s = .next t ∧
      t.out.head? = some (.status src (Obj.ringCommit w) 0) ∧ (t.win w).ringOn = true ∧ (t.win w).ringBase = s.rd (Obj.ringBase w) ∧
      (t.win w).ringOrder = s.rd (Obj.ringOrder w) ∧ (t.win w).withheld = false ∧
      (∀ e ∈ (s.win w).ring, ∃ f ∈ (t.win w).ring, f = { e with written := false }))

/-- Claims, takeovers, releases and lapsed leases of a window. Each clause concludes that exec answers a next state, under conditions on the
state and the operands alone. Completes: cwClaim, cwTakeover, cwForcedTakeover, cwRelease, cwReleaseDone, ownerLeaseExpired. -/
def Obligations.WindowOwnershipChanges : Prop :=
  (∀ (s : State) (src : Src) (w : Fin 8) (port : Nat) (p : HostPort),
    s.fldDenied src (Obj.cwClaim w) = false → port ≤ 2 → claimPort src port = some p → (s.win w).state = .closed →
    ∃ t, exec (.cwClaim src w port) s = .next t ∧
      t.out.head? = some (.status src (Obj.cwClaim w) 0) ∧ (t.win w).owner = some p ∧ (t.win w).state = .opened ∧ (t.win w).leaseFrom = s.now) ∧
  (∀ (s : State) (src : Src) (w : Fin 8) (port : Nat) (p q : HostPort),
    s.fldDenied src (Obj.cwClaim w) = false → port ≤ 2 → claimPort src port = some p → (s.win w).owner = some q →
    (s.leaseExpired w = true ∨ s.linkUp q = false) →
    ∃ t, exec (.cwTakeover src w port) s = .next t ∧
      t.out.head? = some (.status src (Obj.cwClaim w) 0) ∧ (t.win w).owner = some p ∧ (t.win w).state = .handover ∧ (t.win w).withheld = true ∧
      (t.win w).queue = (s.win w).queue ∧ (t.win w).e = (s.win w).e ∧ (t.win w).rc = (s.win w).rc ∧
      (∀ a, 65536 * w.val ≤ a ∧ a < 65536 * w.val + 65536 → t.cmd.bar0.get 0 a = 0) ∧
      (∀ a, a < 65536 * w.val ∨ 65536 * w.val + 65536 ≤ a → t.cmd.bar0.get 0 a = s.cmd.bar0.get 0 a)) ∧
  (∀ (s : State) (src : Src) (w : Fin 8) (port : Nat) (p : HostPort),
    s.fldDenied src (Obj.cwClaim w) = false → port ≤ 2 → claimPort src port = some p →
    ∃ t, exec (.cwForcedTakeover src w port) s = .next t ∧
      t.out.head? = some (.status src (Obj.cwClaim w) 0) ∧ (t.win w).owner = some p ∧ (t.win w).state = .handover ∧ (t.win w).withheld = true ∧
      (t.win w).queue = (s.win w).queue ∧ (t.win w).e = (s.win w).e ∧ (t.win w).rc = (s.win w).rc ∧
      (∀ a, 65536 * w.val ≤ a ∧ a < 65536 * w.val + 65536 → t.cmd.bar0.get 0 a = 0) ∧
      (∀ a, a < 65536 * w.val ∨ 65536 * w.val + 65536 ≤ a → t.cmd.bar0.get 0 a = s.cmd.bar0.get 0 a)) ∧
  (∀ (s : State) (src : Src) (w : Fin 8) (port : Nat) (p : HostPort),
    s.fldDenied src (Obj.cwClaim w) = false → port ≤ 2 → claimPort src port = some p → (s.win w).owner = some p →
    ∃ t, exec (.cwRelease src w port) s = .next t ∧
      t.out.head? = some (.status src (Obj.cwClaim w) 0) ∧ (t.win w).releasing = true ∧ (t.win w).owner = some p ∧
      (t.win w).state = (s.win w).state ∧ (t.win w).queue = (s.win w).queue) ∧
  (∀ (s : State) (w : Fin 8),
    (s.win w).releasing = true → (s.win w).queue = [] →
    ∃ t, exec (.cwReleaseDone w) s = .next t ∧
      (t.win w).owner = none ∧ (t.win w).state = .closed ∧ (t.win w).releasing = false ∧ (t.win w).e = (s.win w).e) ∧
  (∀ (s : State) (w : Fin 8),
    (s.win w).owner ≠ none → (s.win w).leaseOver = false → s.leaseExpired w = true →
    ∃ t, exec (.ownerLeaseExpired w) s = .next t ∧
      t.win w = { s.win w with leaseOver := true } ∧
      t.rd (Obj.occurrences (Ev.ownerLeaseExpired / 256 - 1) (Ev.ownerLeaseExpired % 256)) = (s.rd (Obj.occurrences (Ev.ownerLeaseExpired / 256 - 1) (Ev.ownerLeaseExpired % 256)) + 1) % 2 ^ 32)

/-- Resume, reset, halt and lease renewal by the owner; the abort of the step in progress. Each clause concludes that exec answers a next state,
under conditions on the state and the operands alone. Completes: cwResume, cwReset, cwHalt, leaseRenew, stepAbort. -/
def Obligations.WindowControlActions : Prop :=
  (∀ (s : State) (src : Src) (w : Fin 8),
    s.isOwner src w = true → s.fldDenied src (Obj.cwControl w) = false → (s.win w).state = .halted →
    ∃ t, exec (.cwResume src w) s = .next t ∧
      t.out.head? = some (.status src (Obj.cwControl w) 0) ∧ (t.win w).state = .opened ∧ (t.win w).queue = (s.win w).queue) ∧
  (∀ (s : State) (src : Src) (w : Fin 8),
    s.isOwner src w = true → s.fldDenied src (Obj.cwControl w) = false → ((s.win w).state = .halted ∨ (s.win w).state = .handover) →
    s.resetInStep w = false → ((s.win w).queue.map QEntry.seq).Nodup →
    ∃ t, exec (.cwReset src w) s = .next t ∧
      t.out.head? = some (.status src (Obj.cwControl w) 0) ∧ (t.win w).queue = (s.win w).queue.filter (fun e => e.disp) ∧ (t.win w).e = (s.win w).e ∧
      (t.win w).state = (s.win w).state ∧ (∀ a, 65536 * w.val ≤ a ∧ a < 65536 * w.val + 65536 → t.cmd.bar0.get 0 a = 0)) ∧
  (∀ (s : State) (src : Src) (w : Fin 8),
    s.isOwner src w = true → s.fldDenied src (Obj.cwControl w) = false → ((s.win w).state = .halted ∨ (s.win w).state = .handover) →
    s.resetInStep w = true →
    ∃ t, exec (.cwReset src w) s = .next t ∧
      t.out.head? = some (.status src (Obj.cwControl w) 0) ∧ t.cmd.stepNow = none ∧ (t.win w).state = .halted ∧
      (∀ e ∈ (t.win w).queue, e.disp = true)) ∧
  (∀ (s : State) (src : Src) (w : Fin 8),
    s.isOwner src w = true → s.fldDenied src (Obj.cwControl w) = false →
    ∃ t, exec (.cwHalt src w) s = .next t ∧
      t.out.head? = some (.status src (Obj.cwControl w) 0) ∧ (t.win w).state = .halted ∧ (t.win w).haltCause = 0xA6 ∧
      (t.win w).queue = (s.win w).queue) ∧
  (∀ (s : State) (src : Src) (w : Fin 8),
    s.isOwner src w = true → s.fldDenied src (Obj.cwControl w) = false →
    ∃ t, exec (.leaseRenew src w) s = .next t ∧
      t.out.head? = some (.status src (Obj.cwControl w) 0) ∧ t.win w = { s.win w with leaseFrom := s.now, leaseOver := false }) ∧
  (∀ (s : State) (src : Src) (arg : Nat),
    arg = 1 → s.cmd.stepNow.isSome = true → s.fldDenied src Obj.stepAbort = false →
    ∃ t, exec (.stepAbort src arg) s = .next t ∧
      t.out.head? = some (.status src Obj.stepAbort 0) ∧ t.cmd.stepNow = none ∧ t.spans = [] ∧
      (∀ w : Fin 8, (s.win w).owner ≠ none → (t.win w).state = .halted))

/-- The sequencer dispatches a record, runs report, step and audit records, and retires a complete one. Each clause concludes that exec answers
a next state, under conditions on the state and the operands alone. Completes: recordDispatch, report, step, audit, recordRetire. -/
def Obligations.RecordsDispatchAndRetire : Prop :=
  (∀ (s : State) (w : Nat) (e : QEntry) (skip : Bool),
    s.mayDispatch = true → s.nextRecord = some (w, e) → s.headerCheck w e = 0 → skip = !s.formMatch (formOf e.raw).1 (formOf e.raw).2 →
    s.kindCheck w e skip = (0, 0) →
    ∃ t, exec (.recordDispatch) s = .next t ∧
      (∃ y ∈ (t.win w).queue, y.seq = e.seq ∧ y.disp = true ∧ y.order = s.tile.dispatches ∧ y.skip = skip) ∧
      t.tile.dispatches = s.tile.dispatches + 1) ∧
  (∀ (s : State) (w : Nat) (e : QEntry),
    s.mayDispatch = true → s.nextRecord = some (w, e) → s.headerCheck w e ≠ 0 →
    ∃ t, exec (.recordDispatch) s = .next t ∧
      t.entry w e.seq = none ∧ (t.win w).state = .halted ∧ (t.win w).haltCause = 256 * 6 + s.headerCheck w e ∧ t.tile.dispatches = s.tile.dispatches) ∧
  (∀ (s : State) (w : Nat) (e : QEntry) (skip : Bool) (status reason : Nat),
    s.mayDispatch = true → s.nextRecord = some (w, e) → s.headerCheck w e = 0 → skip = !s.formMatch (formOf e.raw).1 (formOf e.raw).2 →
    s.kindCheck w e skip = (status, reason) → status ≠ 0 →
    ∃ t, exec (.recordDispatch) s = .next t ∧
      t.entry w e.seq = none ∧ (t.win w).state = .halted ∧ (t.win w).haltCause = 256 * status + reason ∧ t.tile.dispatches = s.tile.dispatches) ∧
  (∀ (s : State) (w : Fin 8) (q : Nat) (e : QEntry) (delivered : Bool),
    s.entry w q = some e → e.disp = true → e.unit = false → Rec.kind e.raw = 9 → (rpOf e.raw).loc ≠ 1 →
    ∃ t, exec (.report w q delivered) s = .next t ∧
      (∃ y, t.entry w q = some y ∧ y.unit = true ∧ y.value = (rpOf e.raw).value (s.reportBytes (rpOf e.raw))) ∧
      (∀ p, e.port = some p → (rpOf e.raw).len64 ≠ 0 → delivered = true → s.linkUp p = true → t.out = .posted p (rpOf e.raw).host (s.reportBytes (rpOf e.raw)) :: s.out) ∧
      (rpOf e.raw).len64 = 0 ∨ delivered = false ∨ e.port = none → t.out = s.out) ∧
  (∀ (s : State) (w : Fin 8) (q : Nat) (e : QEntry) (delivered : Bool),
    s.entry w q = some e → e.disp = true → e.unit = false → Rec.kind e.raw = 9 → (rpOf e.raw).loc = 1 →
    (s.access (recKey w q) 1 (rpOf e.raw).handle (pagesOf (rpOf e.raw).tableOff (rpOf e.raw).bytes)).2 ≠ .waiting →
    ∃ t, exec (.report w q delivered) s = .next t ∧
      (∃ y, t.entry w q = some y ∧ y.unit = true ∧ y.value = (rpOf e.raw).value (s.regionBytes (rpOf e.raw).handle (rpOf e.raw).tableOff (rpOf e.raw).bytes))) ∧
  (∀ (s : State) (w : Fin 8) (q : Nat) (e : QEntry),
    s.entry w q = some e → e.disp = true → e.unit = false → Rec.kind e.raw = 11 → s.coll.inbox = [] →
    (s.writable (recKey w q) s.rebuildPages).2 = true →
    ∃ t, exec (.step w q) s = .next t ∧
      (t.entry w q).map QEntry.unit = some true ∧ t.upd.rebuild = [] ∧ t.cmd.stepNow = s.cmd.stepNow) ∧
  (∀ (s : State) (w : Fin 8) (q : Nat) (e : QEntry),
    s.entry w q = some e → e.disp = true → e.unit = false → Rec.kind e.raw = 11 → (s.writable (recKey w q) s.rebuildPages).2 = true →
    ∃ t, exec (.step w q) s = .next t ∧
      t = (((s.writable (recKey w q) s.rebuildPages).1.rebuildLost).openInbox).unitDone w q 0 0) ∧
  (∀ (s : State) (w : Fin 8) (q : Nat) (e : QEntry),
    s.entry w q = some e → e.disp = true → e.unit = false → Rec.kind e.raw = 12 → e.auditOk = true →
    ∃ t, exec (.audit w q) s = .next t ∧
      (t.entry w q).map QEntry.unit = some true ∧ (t.win w).state = (s.win w).state) ∧
  (∀ (s : State) (w : Fin 8) (q : Nat) (e : QEntry),
    s.entry w q = some e → e.disp = true → e.unit = false → Rec.kind e.raw = 12 → e.auditOk = false →
    ∃ t, exec (.audit w q) s = .next t ∧
      t.entry w q = none ∧ (t.win w).state = .halted ∧ t.cmd.stepNow = none) ∧
  (∀ (s : State) (w : Fin 8) (q : Nat) (e : QEntry),
    s.entry w q = some e → e.complete = true → (s.win w).ring.length < ringMost → (s.win w).waiting.any (fun v => v.below == ringMost) = false →
    ∃ t, exec (.recordRetire w q) s = .next t ∧
      (t.win w).queue = (s.win w).queue.filter (fun f => f.seq ≠ q) ∧
      (Rec.cmpl e.raw = true → (t.win w).ring.length = (s.win w).ring.length + 1 ∧ (t.win w).rnext = seqNext (s.win w).rnext)) ∧
  (∀ (s : State) (w : Nat) (e : QEntry),
    s.mayDispatch = true → s.nextRecord = some (w, e) → s.headerCheck w e = 0 → s.formMatch (formOf e.raw).1 (formOf e.raw).2 = true →
    s.kindCheck w e false = (0, 0) → Rec.kind e.raw = 8 → Rec.op e.raw = 2 →
    ∃ t, exec (.recordDispatch) s = .next t ∧
      t.store.profiles = s.store.profiles.insert (inOf e.raw).prof (inOf e.raw).pf ∧ t.store.fixed = s.store.fixed ∧
      t.store.engineCfg = s.store.engineCfg) ∧
  (∀ (s : State) (w : Nat) (e : QEntry),
    s.mayDispatch = true → s.nextRecord = some (w, e) → s.headerCheck w e = 0 → s.formMatch (formOf e.raw).1 (formOf e.raw).2 = true →
    s.kindCheck w e false = (0, 0) → Rec.kind e.raw = 8 → Rec.op e.raw = 3 →
    ∃ t, exec (.recordDispatch) s = .next t ∧
      t.store.engineCfg = some ((inOf e.raw).workH, (inOf e.raw).engPages) ∧ t.store.profiles = s.store.profiles ∧ t.store.fixed = s.store.fixed) ∧
  (∀ (s : State) (w : Nat) (e : QEntry),
    s.mayDispatch = true → s.nextRecord = some (w, e) → s.headerCheck w e = 0 → s.formMatch (formOf e.raw).1 (formOf e.raw).2 = true →
    s.kindCheck w e false = (0, 0) → Rec.kind e.raw = 8 → Rec.op e.raw = 0 →
    ∃ t, exec (.recordDispatch) s = .next t ∧
      t.store.fixed = s.store.fixed.insert (recKey w e.seq) ((s.store.profiles.find (inOf e.raw).prof).getD (inOf e.raw).pf) ∧
      t.store.profiles = s.store.profiles ∧ t.store.engineCfg = s.store.engineCfg) ∧
  (∀ (s : State) (w : Nat) (e : QEntry),
    s.mayDispatch = true → s.nextRecord = some (w, e) → s.headerCheck w e = 0 → s.formMatch (formOf e.raw).1 (formOf e.raw).2 = true →
    s.kindCheck w e false = (0, 0) → Rec.kind e.raw = 10 → Rec.op e.raw = 0 →
    ∃ t, exec (.recordDispatch) s = .next t ∧
      t.coll.snaps = s.coll.snaps.insert (recKey w e.seq) s.staged ∧ t.staged = s.staged ∧ t.prep = s.prep ∧ t.coll.prepare = s.coll.prepare)

/-- Semaphore signals, their arrival, waits and sets, and the sync watchdog. Each clause concludes that exec answers a next state, under
conditions on the state and the operands alone. Completes: semSignal, semSignalArrive, semWait, semSet, syncTimeout. -/
def Obligations.SemaphoresCountAndWait : Prop :=
  (∀ (s : State) (w : Fin 8) (q : Nat) (u : Fin 192) (e : QEntry),
    s.entry w q = some e → Rec.kind e.raw = 4 → (syOf e.raw).op = 0 → s.mayRun w e u = true → s.arrayOn = true → e.skip = false →
    (s.share w q u).ran = false →
    ∃ t, exec (.semSignal w q u) s = .next t ∧
      t.tile.signals = s.tile.signals ++ (tileRange (syOf e.raw).dstFirst (syOf e.raw).dstLast).map (fun v => { tile := v, sem := (syOf e.raw).sem, value := (syOf e.raw).value, win := w, seq := q, tag := Rec.tag e.raw }) ∧
      (t.share w q u).ran = true) ∧
  (∀ (s : State) (u : Fin 192) (g : Signal),
    s.tile.signals.find? (fun g => g.tile == u.val) = some g → s.sem u g.sem + g.value ≤ 65535 →
    ∃ t, exec (.semSignalArrive u) s = .next t ∧
      t.sem u g.sem = s.sem u g.sem + g.value ∧ t.tile.signals = s.tile.signals.erase g ∧
      (∀ v i, 256 * v + i ≠ 256 * u.val + g.sem → t.sem v i = s.sem v i)) ∧
  (∀ (s : State) (u : Fin 192) (g : Signal),
    s.tile.signals.find? (fun g => g.tile == u.val) = some g → 65535 < s.sem u g.sem + g.value →
    ∃ t, exec (.semSignalArrive u) s = .next t ∧
      (∀ v i, t.sem v i = s.sem v i) ∧ t.tile.signals = s.tile.signals.erase g ∧ (t.win g.win).state = .halted ∧
      t.rd Obj.syncFaults = min (s.rd Obj.syncFaults + 1) (2 ^ 32 - 1)) ∧
  (∀ (s : State) (w : Fin 8) (q : Nat) (u : Fin 192) (e : QEntry),
    s.entry w q = some e → Rec.kind e.raw = 4 → (syOf e.raw).op = 1 → s.mayRun w e u = true → s.arrayOn = true → e.skip = false →
    (s.share w q u).ran = false → s.sem u (syOf e.raw).sem < (syOf e.raw).value →
    ∃ t, exec (.semWait w q u) s = .next t ∧
      (t.share w q u).waitFrom.isSome = true ∧ (t.share w q u).ran = false ∧ (∀ v i, t.sem v i = s.sem v i)) ∧
  (∀ (s : State) (w : Fin 8) (q : Nat) (u : Fin 192) (e : QEntry),
    s.entry w q = some e → Rec.kind e.raw = 4 → (syOf e.raw).op = 1 → s.mayRun w e u = true → s.arrayOn = true → e.skip = false →
    (s.share w q u).ran = false → (syOf e.raw).value ≤ s.sem u (syOf e.raw).sem →
    ∃ t, exec (.semWait w q u) s = .next t ∧
      t.sem u (syOf e.raw).sem = s.sem u (syOf e.raw).sem - (syOf e.raw).value ∧ (t.share w q u).ran = true) ∧
  (∀ (s : State) (w : Fin 8) (q : Nat) (u : Fin 192) (e : QEntry),
    s.entry w q = some e → Rec.kind e.raw = 4 → (syOf e.raw).op = 2 → s.mayRun w e u = true → s.arrayOn = true → e.skip = false →
    (s.share w q u).ran = false →
    (((tileRange (syOf e.raw).tf (syOf e.raw).tl).all fun v => !(s.share w q v).ran && !e.tiles.contains v) = false ∨ ((tileRange (syOf e.raw).tf (syOf e.raw).tl).any fun v => s.waitedOn v (syOf e.raw).sem) = false) →
    ∃ t, exec (.semSet w q u) s = .next t ∧
      t.sem u (syOf e.raw).sem = (syOf e.raw).value ∧ (t.share w q u).ran = true) ∧
  (∀ (s : State) (w : Fin 8) (q : Nat) (u : Fin 192) (e : QEntry),
    s.entry w q = some e → Rec.kind e.raw = 4 → (syOf e.raw).op = 2 → s.mayRun w e u = true → s.arrayOn = true → e.skip = false →
    (s.share w q u).ran = false → ((tileRange (syOf e.raw).tf (syOf e.raw).tl).all fun v => !(s.share w q v).ran && !e.tiles.contains v) = true →
    ((tileRange (syOf e.raw).tf (syOf e.raw).tl).any fun v => s.waitedOn v (syOf e.raw).sem) = true →
    ∃ t, exec (.semSet w q u) s = .next t ∧
      t.entry w q = none ∧ (t.win w).state = .halted ∧ (∀ v i, t.sem v i = s.sem v i)) ∧
  (∀ (s : State) (w : Fin 8) (q : Nat) (u : Fin 192) (e : QEntry) (f : Nat),
    s.entry w q = some e → e.disp = true → (s.share w q u).waitFrom = some f → (s.share w q u).started = false → (s.share w q u).waitTold = false →
    (s.share w q u).waitLimit * ms < s.now - f → (s.win w).ring.length < ringMost → (s.win w).waiting.any (fun v => v.below == ringMost) = false →
    ∃ t, exec (.syncTimeout w q u) s = .next t ∧
      (t.share w q u).waitTold = true ∧ t.rd Obj.syncTimeouts = min (s.rd Obj.syncTimeouts + 1) (2 ^ 32 - 1) ∧ (t.entry w q).isSome = true ∧
      (e.late = false → (t.entry w q).map QEntry.late = some true ∧ (t.win w).ring.length = (s.win w).ring.length + 1))

/-- Barrier channels are armed, counted, completed, released and waited on; fabric parity aborts the step. Each clause concludes that exec
answers a next state, under conditions on the state and the operands alone. Completes: barArm, barArrive, barrierRelease, barWait,
fabricParity. -/
def Obligations.BarriersCountAndRelease : Prop :=
  (∀ (s : State) (w : Fin 8) (q : Nat) (e : QEntry),
    s.entry w q = some e → e.disp = true → e.unit = false → Rec.kind e.raw = 4 → (syOf e.raw).op = 3 → e.skip = false →
    (s.chan (syOf e.raw).barCh).count = 0 →
    ∃ t, exec (.barArm w q) s = .next t ∧
      t.chan (syOf e.raw).barCh = { s.chan (syOf e.raw).barCh with target := (syOf e.raw).value, armWin := w, armSeq := q, armTag := Rec.tag e.raw } ∧
      (t.entry w q).map QEntry.unit = some true ∧ (∀ c, c ≠ (syOf e.raw).barCh → t.chan c = s.chan c)) ∧
  (∀ (s : State) (w : Fin 8) (q : Nat) (e : QEntry),
    s.entry w q = some e → e.disp = true → e.unit = false → Rec.kind e.raw = 4 → (syOf e.raw).op = 3 → e.skip = false →
    (s.chan (syOf e.raw).barCh).count ≠ 0 →
    ∃ t, exec (.barArm w q) s = .next t ∧
      t.entry w q = none ∧ (t.win w).state = .halted ∧ (∀ c, t.chan c = s.chan c)) ∧
  (∀ (s : State) (w : Fin 8) (q : Nat) (u : Fin 192) (e : QEntry),
    s.entry w q = some e → Rec.kind e.raw = 4 → (syOf e.raw).op = 4 → s.mayRun w e u = true → s.arrayOn = true → e.skip = false →
    (s.share w q u).ran = false → (s.chan (syOf e.raw).barCh).target = 0 →
    ∃ t, exec (.barArrive w q u) s = .next t ∧
      (∀ c, t.chan c = s.chan c) ∧ (t.share w q u).ran = true ∧ (t.win w).state = .halted ∧
      t.rd Obj.syncFaults = min (s.rd Obj.syncFaults + 1) (2 ^ 32 - 1)) ∧
  (∀ (s : State) (w : Fin 8) (q : Nat) (u : Fin 192) (e : QEntry),
    s.entry w q = some e → Rec.kind e.raw = 4 → (syOf e.raw).op = 4 → s.mayRun w e u = true → s.arrayOn = true → e.skip = false →
    (s.share w q u).ran = false → (s.chan (syOf e.raw).barCh).target ≠ 0 →
    (s.chan (syOf e.raw).barCh).count + 1 ≠ (s.chan (syOf e.raw).barCh).target →
    ∃ t, exec (.barArrive w q u) s = .next t ∧
      (t.chan (syOf e.raw).barCh) = { (s.chan (syOf e.raw).barCh) with count := (s.chan (syOf e.raw).barCh).count + 1 } ∧ (t.share w q u).ran = true) ∧
  (∀ (s : State) (w : Fin 8) (q : Nat) (u : Fin 192) (e : QEntry),
    s.entry w q = some e → Rec.kind e.raw = 4 → (syOf e.raw).op = 4 → s.mayRun w e u = true → s.arrayOn = true → e.skip = false →
    (s.share w q u).ran = false → (s.chan (syOf e.raw).barCh).target ≠ 0 →
    (s.chan (syOf e.raw).barCh).count + 1 = (s.chan (syOf e.raw).barCh).target →
    ∃ t, exec (.barArrive w q u) s = .next t ∧
      (t.chan (syOf e.raw).barCh) = { (s.chan (syOf e.raw).barCh) with count := 0, gen := ((s.chan (syOf e.raw).barCh).gen + 1) % 65536 } ∧
      (t.share w q u).ran = true ∧
      (∀ v, v < 192 → t.tile.relFlight.get 0 (64 * v + (syOf e.raw).barCh) = s.tile.relFlight.get 0 (64 * v + (syOf e.raw).barCh) + 1)) ∧
  (∀ (s : State) (u : Fin 192) (c : Fin 64),
    s.tile.relFlight.get 0 (64 * u + c) ≠ 0 → s.tile.rels.get 0 (64 * u + c) < 65535 →
    ∃ t, exec (.barrierRelease u c) s = .next t ∧
      t.tile.rels.get 0 (64 * u + c) = s.tile.rels.get 0 (64 * u + c) + 1 ∧
      t.tile.relFlight.get 0 (64 * u + c) = s.tile.relFlight.get 0 (64 * u + c) - 1) ∧
  (∀ (s : State) (u : Fin 192) (c : Fin 64),
    s.tile.relFlight.get 0 (64 * u + c) ≠ 0 → 65535 ≤ s.tile.rels.get 0 (64 * u + c) →
    ∃ t, exec (.barrierRelease u c) s = .next t ∧
      t.tile.rels = s.tile.rels ∧ t.tile.relFlight.get 0 (64 * u + c) = s.tile.relFlight.get 0 (64 * u + c) - 1 ∧
      (t.win (s.chan c).armWin).state = .halted ∧ t.rd Obj.syncFaults = min (s.rd Obj.syncFaults + 1) (2 ^ 32 - 1)) ∧
  (∀ (s : State) (w : Fin 8) (q : Nat) (u : Fin 192) (e : QEntry),
    s.entry w q = some e → Rec.kind e.raw = 4 → (syOf e.raw).op = 5 → s.mayRun w e u = true → s.arrayOn = true → e.skip = false →
    (s.share w q u).ran = false → s.tile.rels.get 0 (64 * u + (syOf e.raw).barCh) = 0 →
    ∃ t, exec (.barWait w q u) s = .next t ∧
      (t.share w q u).waitFrom.isSome = true ∧ (t.share w q u).ran = false ∧ t.tile.rels = s.tile.rels) ∧
  (∀ (s : State) (w : Fin 8) (q : Nat) (u : Fin 192) (e : QEntry),
    s.entry w q = some e → Rec.kind e.raw = 4 → (syOf e.raw).op = 5 → s.mayRun w e u = true → s.arrayOn = true → e.skip = false →
    (s.share w q u).ran = false → s.tile.rels.get 0 (64 * u + (syOf e.raw).barCh) ≠ 0 →
    ∃ t, exec (.barWait w q u) s = .next t ∧
      t.tile.rels.get 0 (64 * u + (syOf e.raw).barCh) = s.tile.rels.get 0 (64 * u + (syOf e.raw).barCh) - 1 ∧ (t.share w q u).ran = true) ∧
  (∀ (s : State) (network : Nat) (tile : Option Nat) (tree : Nat),
    ∃ t, exec (.fabricParity network tile tree) s = .next t ∧
      t.cmd.stepNow = none ∧ t.spans = [] ∧ t.rd Obj.fabricParity = min (s.rd Obj.fabricParity + 1) (2 ^ 32 - 1) ∧
      (∀ x, tile = some x → t.tile.parity.get 0 x = s.tile.parity.get 0 x + 1))

/-- Cast-control records change the directory, the arms and the plans; a landed page move changes a page. Each clause concludes that exec
answers a next state, under conditions on the state and the operands alone. Completes: castOpen, castPop, castPopTo, castArm, planReserve,
planLayer, castPageMoveDone. -/
def Obligations.CastControlRecordsRun : Prop :=
  (∀ (s : State) (w : Fin 8) (q : Nat) (e : QEntry),
    s.entry w q = some e → e.disp = true → e.unit = false → Rec.kind e.raw = 3 → (ckOf e.raw).op = 0 → e.skip = false →
    ∃ t, exec (.castOpen w q) s = .next t ∧
      (∀ v, (ckOf e.raw).tf ≤ v → v ≤ (ckOf e.raw).tl → ∃ c l, t.dir v = c :: l ∧ c.base = stackEnd (s.dir v) ∧ c.len = 64 * (ckOf e.raw).len ∧ c.layer = (ckOf e.raw).layer ∧ c.use = .opened ∧ l.length = (s.dir v).length ∧ (∀ x ∈ l, x.use ≠ .opened ∨ x ∈ (s.dir v).drop 1)) ∧
      (t.entry w q).map QEntry.unit = some true ∧ (∀ v, v < (ckOf e.raw).tf ∨ (ckOf e.raw).tl < v → t.dir v = s.dir v)) ∧
  (∀ (s : State) (w : Fin 8) (q : Nat) (e : QEntry),
    s.entry w q = some e → e.disp = true → e.unit = false → Rec.kind e.raw = 3 → (ckOf e.raw).op = 1 → e.skip = false →
    ∃ t, exec (.castPop w q) s = .next t ∧
      (∀ v, (ckOf e.raw).tf ≤ v → v ≤ (ckOf e.raw).tl → t.dir v = (s.dir v).drop 1) ∧ (t.entry w q).map QEntry.unit = some true) ∧
  (∀ (s : State) (w : Fin 8) (q : Nat) (e : QEntry),
    s.entry w q = some e → e.disp = true → e.unit = false → Rec.kind e.raw = 3 → (ckOf e.raw).op = 2 → e.skip = false → (ckOf e.raw).len ≠ 0 →
    ∃ t, exec (.castPopTo w q) s = .next t ∧
      (∀ v, (ckOf e.raw).tf ≤ v → v ≤ (ckOf e.raw).tl → ∀ c l, s.dir v = c :: l → t.dir v = (if 64 * (ckOf e.raw).len < c.len then { c with len := 64 * (ckOf e.raw).len, use := .cut } :: l else c :: l)) ∧
      (t.entry w q).map QEntry.unit = some true) ∧
  (∀ (s : State) (w : Fin 8) (q : Nat) (e : QEntry),
    s.entry w q = some e → e.disp = true → e.unit = false → Rec.kind e.raw = 3 → (ckOf e.raw).op = 2 → e.skip = false → (ckOf e.raw).len = 0 →
    ∃ t, exec (.castPopTo w q) s = .next t ∧
      (∀ v, (ckOf e.raw).tf ≤ v → v ≤ (ckOf e.raw).tl → t.dir v = (s.dir v).drop 1) ∧ (t.entry w q).map QEntry.unit = some true) ∧
  (∀ (s : State) (w : Fin 8) (q : Nat) (e : QEntry),
    s.entry w q = some e → e.disp = true → e.unit = false → Rec.kind e.raw = 3 → (ckOf e.raw).op = 3 → e.skip = false →
    ∃ t, exec (.castArm w q) s = .next t ∧
      (∃ a, t.tile.arms = s.tile.arms ++ [a] ∧ a.win = w.val ∧ a.seq = q ∧ a.tf = (ckOf e.raw).tf ∧ a.tl = (ckOf e.raw).tl ∧ a.kind = (ckOf e.raw).kind ∧ a.metaOff = (ckOf e.raw).metaOff ∧ a.bound = none) ∧
      (t.entry w q).map QEntry.unit = some true) ∧
  (∀ (s : State) (w : Fin 8) (q : Nat) (e : QEntry),
    s.entry w q = some e → e.disp = true → e.unit = false → Rec.kind e.raw = 3 → (ckOf e.raw).op = 4 → e.skip = false →
    ∃ t, exec (.planReserve w q) s = .next t ∧
      t.tile.reserveNext = some (ckOf e.raw).len ∧ t.tile.reserve = s.tile.reserve ∧ (t.entry w q).map QEntry.unit = some true) ∧
  (∀ (s : State) (w : Fin 8) (q : Nat) (e : QEntry),
    s.entry w q = some e → e.disp = true → e.unit = false → Rec.kind e.raw = 3 → (ckOf e.raw).op = 5 → e.skip = false →
    ∃ t, exec (.planLayer w q) s = .next t ∧
      t.tile.planNext.find (ckOf e.raw).layer = some { f8Len := (ckOf e.raw).len, h16Len := (ckOf e.raw).h16Len, mbCount := (ckOf e.raw).mbCount } ∧
      t.tile.plan = s.tile.plan ∧ (t.entry w q).map QEntry.unit = some true) ∧
  (∀ (s : State) (u : Fin 192) (p : Nat),
    s.page u p = .movingOut →
    ∃ t, exec (.castPageMoveDone u p) s = .next t ∧
      (t.page u p = .spilled ∨ t.page u p = .movingIn) ∧ t.rd Obj.castPagesSpilled = (s.rd Obj.castPagesSpilled + 1) % 2 ^ 64 ∧
      t.tile.castMem = s.tile.castMem) ∧
  (∀ (s : State) (u : Fin 192) (p : Nat),
    s.page u p = .movingIn →
    ∃ t, exec (.castPageMoveDone u p) s = .next t ∧
      (t.page u p = .resident ∨ t.page u p = .movingOut) ∧ t.rd Obj.castPagesRefilled = (s.rd Obj.castPagesRefilled + 1) % 2 ^ 64 ∧
      t.tile.castMem = s.tile.castMem) ∧
  (∀ (s : State) (u : Fin 192) (p : Nat),
    (s.page u p = .dropOut ∨ s.page u p = .dropIn) →
    ∃ t, exec (.castPageMoveDone u p) s = .next t ∧
      t.page u p = .absent ∧ t.tile.castMem = s.tile.castMem) ∧
  (∀ (s : State) (w : Fin 8) (q : Nat) (e : QEntry),
    s.entry w q = some e → e.disp = true → e.unit = false → Rec.kind e.raw = 3 → (ckOf e.raw).op = 0 → e.skip = true →
    ∃ t, exec (.castOpen w q) s = .next t ∧
      (t.entry w q).map QEntry.unit = some true ∧ t.tile = s.tile) ∧
  (∀ (s : State) (w : Fin 8) (q : Nat) (e : QEntry),
    s.entry w q = some e → e.disp = true → e.unit = false → Rec.kind e.raw = 3 → (ckOf e.raw).op = 1 → e.skip = true →
    ∃ t, exec (.castPop w q) s = .next t ∧
      (t.entry w q).map QEntry.unit = some true ∧ t.tile = s.tile) ∧
  (∀ (s : State) (w : Fin 8) (q : Nat) (e : QEntry),
    s.entry w q = some e → e.disp = true → e.unit = false → Rec.kind e.raw = 3 → (ckOf e.raw).op = 2 → e.skip = true →
    ∃ t, exec (.castPopTo w q) s = .next t ∧
      (t.entry w q).map QEntry.unit = some true ∧ t.tile = s.tile) ∧
  (∀ (s : State) (w : Fin 8) (q : Nat) (e : QEntry),
    s.entry w q = some e → e.disp = true → e.unit = false → Rec.kind e.raw = 3 → (ckOf e.raw).op = 3 → e.skip = true →
    ∃ t, exec (.castArm w q) s = .next t ∧
      (t.entry w q).map QEntry.unit = some true ∧ t.tile = s.tile) ∧
  (∀ (s : State) (w : Fin 8) (q : Nat) (e : QEntry),
    s.entry w q = some e → e.disp = true → e.unit = false → Rec.kind e.raw = 3 → (ckOf e.raw).op = 4 → e.skip = true →
    ∃ t, exec (.planReserve w q) s = .next t ∧
      (t.entry w q).map QEntry.unit = some true ∧ t.tile = s.tile) ∧
  (∀ (s : State) (w : Fin 8) (q : Nat) (e : QEntry),
    s.entry w q = some e → e.disp = true → e.unit = false → Rec.kind e.raw = 3 → (ckOf e.raw).op = 5 → e.skip = true →
    ∃ t, exec (.planLayer w q) s = .next t ∧
      (t.entry w q).map QEntry.unit = some true ∧ t.tile = s.tile)

/-- A tile accumulates an output tile of a product, members fold, and the oldest finished output drains. Each clause concludes that exec answers
a next state, under conditions on the state and the operands alone. Completes: matrix, splitHandoff, outputTileDrain, tileRecordComplete. -/
def Obligations.ProductsAccumulateAndDrain : Prop :=
  (∀ (s : State) (w : Fin 8) (q : Nat) (u : Fin 192) (e : QEntry) (o b : Nat),
    s.entry w q = some e → Rec.kind e.raw = 1 → s.arrayOn = true → s.mayRun w e u = true → e.skip = false →
    (s.startShare w e u Obj.mxStallOperand).2 = true → (s.startShare w e u Obj.mxStallOperand).1.nextOut (mxOf e.raw) w q u = some o →
    s.fillingBank u (recKey w q) = none → s.freeBank u = some b → (mxOf e.raw).a.loc = 0 → (mxOf e.raw).b.loc = 0 →
    ∃ t, exec (.matrix w q u) s = .next t ∧
      t.bank u b = { use := .full, owner := recKey w q, out := o, exact := (mxOf e.raw).mode.exact, sa := (mxOf e.raw).a.scale, sb := (mxOf e.raw).b.scale, folded := 0, pass := 0, order := 0, ents := (List.range (mxOf e.raw).passes).foldl (fun m p => s.mxEntries (mxOf e.raw) u o p m) [] } ∧
      (t.share w q u).next = (s.share w q u).next + 1 ∧ t.tile.scratch = s.tile.scratch ∧ t.tile.castMem = s.tile.castMem) ∧
  (∀ (s : State) (w : Fin 8) (q : Nat) (u : Fin 192) (e : QEntry) (o b : Nat),
    s.entry w q = some e → Rec.kind e.raw = 1 → s.arrayOn = true → s.mayRun w e u = true → e.skip = false →
    (s.startShare w e u Obj.mxStallOperand).2 = true → (s.startShare w e u Obj.mxStallOperand).1.nextOut (mxOf e.raw) w q u = some o →
    ((s.startShare w e u Obj.mxStallOperand).1.takeBank w e (mxOf e.raw) u o).2 = some b →
    ∃ t, exec (.matrix w q u) s = .next t ∧
      t = (((s.startShare w e u Obj.mxStallOperand).1.takeBank w e (mxOf e.raw) u o).1).runPasses w e (mxOf e.raw) u o b ((mxOf e.raw).passes - (((s.startShare w e u Obj.mxStallOperand).1.takeBank w e (mxOf e.raw) u o).1.bank u b).pass) ∧
      t.tile.scratch = s.tile.scratch ∧ t.tile.castMem = s.tile.castMem) ∧
  (∀ (s : State) (w : Fin 8) (q : Nat) (u : Fin 192) (e : QEntry) (o : Nat),
    s.entry w q = some e → Rec.kind e.raw = 1 → s.arrayOn = true → s.mayRun w e u = true → e.skip = false →
    (s.startShare w e u Obj.mxStallOperand).2 = true → s.fillingBank u (recKey w q) = none → s.freeBank u = none →
    ∃ t, exec (.matrix w q u) s = .next t ∧
      t.tile.banks = s.tile.banks ∧ (t.share w q u).next = (s.share w q u).next ∧ t.tile.scratch = s.tile.scratch ∧ t.tile.castMem = s.tile.castMem) ∧
  (∀ (s : State) (w : Fin 8) (q : Nat) (u : Fin 192) (e : QEntry),
    s.entry w q = some e → Rec.kind e.raw = 1 → s.arrayOn = true → s.mayRun w e u = true → e.skip = false →
    (s.startShare w e u Obj.mxStallOperand).2 = false →
    ∃ t, exec (.matrix w q u) s = .next t ∧
      t.tile.banks = s.tile.banks ∧ (t.share w q u).next = (s.share w q u).next ∧ t.tile.scratch = s.tile.scratch ∧ t.tile.castMem = s.tile.castMem) ∧
  (∀ (s : State) (w : Fin 8) (q : Nat) (u : Fin 192) (e : QEntry) (o i j : Nat),
    s.entry w q = some e → Rec.kind e.raw = 1 → e.disp = true → s.arrayOn = true → e.skip = false → 1 < (mxOf e.raw).s → (mxOf e.raw).member u = 0 →
    ((mxOf e.raw).outs ((mxOf e.raw).group u))[(s.share w q u).done]? = some o → s.bankOf u (recKey w q) o = some i →
    (s.bank u i).folded + 1 < (mxOf e.raw).s → s.bankOf (u.val + (s.bank u i).folded + 1) (recKey w q) o = some j →
    ∃ t, exec (.splitHandoff w q u) s = .next t ∧
      t.bank (u.val + (s.bank u i).folded + 1) j = Bank.empty ∧
      (t.share w q (u.val + (s.bank u i).folded + 1)).done = (s.share w q (u.val + (s.bank u i).folded + 1)).done + 1 ∧
      t.bank u i = { s.bank u i with folded := (s.bank u i).folded + 1, ents := foldBanks (s.bank u i).exact 32768 (s.bank u i).ents (s.bank (u.val + (s.bank u i).folded + 1) j).ents } ∧
      t.tile.scratch = s.tile.scratch ∧ t.tile.castMem = s.tile.castMem) ∧
  (∀ (s : State) (w : Fin 8) (q : Nat) (u : Fin 192) (e : QEntry) (o i : Nat),
    s.entry w q = some e → Rec.kind e.raw = 1 → e.disp = true → s.arrayOn = true → e.skip = false → (mxOf e.raw).member u = 0 →
    ((mxOf e.raw).outs ((mxOf e.raw).group u))[(s.share w q u).done]? = some o → s.bankOf u (recKey w q) o = some i →
    (mxOf e.raw).s ≤ (s.bank u i).folded + 1 → (mxOf e.raw).dest = 3 →
    ∃ t, exec (.outputTileDrain w q u) s = .next t ∧
      t.bank u i = { s.bank u i with use := .held, order := s.tile.holds + 1 } ∧ (t.share w q u).done = (s.share w q u).done + 1 ∧
      t.tile.scratch = s.tile.scratch ∧ t.tile.castMem = s.tile.castMem) ∧
  (∀ (s : State) (w : Fin 8) (q : Nat) (u : Fin 192) (e : QEntry) (o i : Nat),
    s.entry w q = some e → Rec.kind e.raw = 1 → e.disp = true → s.arrayOn = true → e.skip = false → (mxOf e.raw).member u = 0 →
    ((mxOf e.raw).outs ((mxOf e.raw).group u))[(s.share w q u).done]? = some o → s.bankOf u (recKey w q) o = some i →
    (mxOf e.raw).s ≤ (s.bank u i).folded + 1 → (mxOf e.raw).dest = 2 →
    ∃ t, exec (.outputTileDrain w q u) s = .next t ∧
      t.bank u i = Bank.empty ∧ (t.share w q u).done = (s.share w q u).done + 1 ∧ t.spans = (s.drainSpan w e (mxOf e.raw) o (s.bank u i)).spans ∧
      t.tile.scratch = s.tile.scratch ∧ t.tile.castMem = s.tile.castMem) ∧
  (∀ (s : State) (w : Fin 8) (q : Nat) (u : Fin 192) (e : QEntry) (o i : Nat),
    s.entry w q = some e → Rec.kind e.raw = 1 → e.disp = true → s.arrayOn = true → e.skip = false → (mxOf e.raw).member u = 0 →
    ((mxOf e.raw).outs ((mxOf e.raw).group u))[(s.share w q u).done]? = some o → s.bankOf u (recKey w q) o = some i →
    (mxOf e.raw).s ≤ (s.bank u i).folded + 1 → (mxOf e.raw).dest = 0 → (s.drainPages w e u o).2 = true →
    ∃ t, exec (.outputTileDrain w q u) s = .next t ∧
      t.bank u i = Bank.empty ∧ (t.share w q u).done = (s.share w q u).done + 1 ∧
      t.tile.scratch = ((s.drainPages w e u o).1.inStep e.step (fun v => v.drainStore (mxOf e.raw) (s.armOf w q) u o (s.bank u i))).tile.scratch ∧
      t.tile.castMem = ((s.drainPages w e u o).1.inStep e.step (fun v => v.drainStore (mxOf e.raw) (s.armOf w q) u o (s.bank u i))).tile.castMem ∧
      t.tile.castMem = s.tile.castMem) ∧
  (∀ (s : State) (w : Fin 8) (q : Nat) (u : Fin 192) (e : QEntry) (o i : Nat),
    s.entry w q = some e → Rec.kind e.raw = 1 → e.disp = true → s.arrayOn = true → e.skip = false → (mxOf e.raw).member u = 0 →
    ((mxOf e.raw).outs ((mxOf e.raw).group u))[(s.share w q u).done]? = some o → s.bankOf u (recKey w q) o = some i →
    (mxOf e.raw).s ≤ (s.bank u i).folded + 1 → (mxOf e.raw).dest = 1 → s.armOf w q = none → (s.drainPages w e u o).2 = true →
    ∃ t, exec (.outputTileDrain w q u) s = .next t ∧
      t.bank u i = Bank.empty ∧ (t.share w q u).done = (s.share w q u).done + 1 ∧
      t.tile.scratch = ((s.drainPages w e u o).1.inStep e.step (fun v => v.drainStore (mxOf e.raw) (s.armOf w q) u o (s.bank u i))).tile.scratch ∧
      t.tile.castMem = ((s.drainPages w e u o).1.inStep e.step (fun v => v.drainStore (mxOf e.raw) (s.armOf w q) u o (s.bank u i))).tile.castMem ∧
      t.tile.scratch = s.tile.scratch) ∧
  (∀ (s : State) (w : Fin 8) (q : Nat) (u : Fin 192) (e : QEntry) (o i : Nat),
    s.entry w q = some e → Rec.kind e.raw = 1 → e.disp = true → s.arrayOn = true → e.skip = false → (mxOf e.raw).member u = 0 →
    ((mxOf e.raw).outs ((mxOf e.raw).group u))[(s.share w q u).done]? = some o → s.bankOf u (recKey w q) o = some i →
    (mxOf e.raw).s ≤ (s.bank u i).folded + 1 → ((mxOf e.raw).dest = 0 ∨ (mxOf e.raw).dest = 1) → (s.drainPages w e u o).2 = false →
    ∃ t, exec (.outputTileDrain w q u) s = .next t ∧
      t.bank u i = s.bank u i ∧ (t.share w q u).done = (s.share w q u).done ∧ t.tile.scratch = s.tile.scratch) ∧
  (∀ (s : State) (w : Fin 8) (q : Nat) (u : Fin 192) (e : QEntry),
    s.entry w q = some e → s.mayRun w e u = true → e.skip = false → s.tileDone w e u = true →
    ∃ t, exec (.tileRecordComplete w q u) s = .next t ∧
      (t.entry w q).map QEntry.tiles = some (setIns e.tiles u) ∧ t.share w q u = Share.fresh) ∧
  (∀ (s : State) (w : Fin 8) (q : Nat) (u : Fin 192) (e : QEntry),
    s.entry w q = some e → s.mayRun w e u = true → e.skip = true →
    ((s.startShare w e u (if Rec.kind e.raw = 1 then Obj.mxStallOperand else Obj.vxWaitCycles)).1).tileDone w e u = true →
    ∃ t, exec (.tileRecordComplete w q u) s = .next t ∧
      (t.entry w q).map QEntry.tiles = some (setIns e.tiles u) ∧ t.share w q u = Share.fresh) ∧
  (∀ (s : State) (w : Fin 8) (q : Nat) (u : Fin 192) (e : QEntry),
    s.entry w q = some e → s.mayRun w e u = true → e.skip = false → s.tileDone w e u = false →
    ∃ t, exec (.tileRecordComplete w q u) s = .next t ∧
      t = s)

/-- Vector records run in a tile: map, plain map, reduction with its cross-tile fold, gather and scatter. Each clause concludes that exec
answers a next state, under conditions on the state and the operands alone. Completes: vectorMap, vmap, vectorReduce, reduceTileFold,
gather, scatter. -/
def Obligations.VectorRecordsRun : Prop :=
  (∀ (s : State) (w : Fin 8) (q : Nat) (u : Fin 192) (e : QEntry),
    s.entry w q = some e → Rec.kind e.raw = 2 → (vxOf e.raw).kind = 0 → s.arrayOn = true → ((s.seen e.step).startVector w e u).2 = true →
    ∃ t, exec (.vectorMap w q u) s = .next t ∧
      (t.share w q u).ran = true ∧
      t.tile.scratch = (((s.seen e.step).startVector w e u).1.storeTensor (vxOf e.raw) u fun i j => ((s.seen e.step).startVector w e u).1.mapAt (vxOf e.raw) u i j).tile.scratch ∧
      t.tile.castMem = (((s.seen e.step).startVector w e u).1.storeTensor (vxOf e.raw) u fun i j => ((s.seen e.step).startVector w e u).1.mapAt (vxOf e.raw) u i j).tile.castMem) ∧
  (∀ (s : State) (w : Fin 8) (q : Nat) (u : Fin 192) (e : QEntry),
    s.entry w q = some e → Rec.kind e.raw = 2 → (vxOf e.raw).kind = 0 → s.arrayOn = true → ((s.seen e.step).startVector w e u).2 = false →
    (s.share w q u).ran = false →
    ∃ t, exec (.vectorMap w q u) s = .next t ∧
      (t.share w q u).ran = false ∧ t.tile.scratch = s.tile.scratch) ∧
  (∀ (s : State) (w : Fin 8) (q : Nat) (u : Fin 192) (e : QEntry),
    s.entry w q = some e → Rec.kind e.raw = 2 → (vxOf e.raw).kind = 2 → s.arrayOn = true → ((s.seen e.step).startVector w e u).2 = true →
    ∃ t, exec (.vmap w q u) s = .next t ∧
      (t.share w q u).ran = true ∧
      t.tile.scratch = (((s.seen e.step).startVector w e u).1.storePlain (vxOf e.raw) u ((List.range (vxOf e.raw).count).map fun i => ((s.seen e.step).startVector w e u).1.mapAt (vxOf e.raw) u (i / (32 * (vxOf e.raw).nEt)) (i % (32 * (vxOf e.raw).nEt)))).tile.scratch ∧
      t.tile.castMem = (((s.seen e.step).startVector w e u).1.storePlain (vxOf e.raw) u ((List.range (vxOf e.raw).count).map fun i => ((s.seen e.step).startVector w e u).1.mapAt (vxOf e.raw) u (i / (32 * (vxOf e.raw).nEt)) (i % (32 * (vxOf e.raw).nEt)))).tile.castMem) ∧
  (∀ (s : State) (w : Fin 8) (q : Nat) (u : Fin 192) (e : QEntry),
    s.entry w q = some e → Rec.kind e.raw = 2 → (vxOf e.raw).kind = 2 → s.arrayOn = true → ((s.seen e.step).startVector w e u).2 = false →
    (s.share w q u).ran = false →
    ∃ t, exec (.vmap w q u) s = .next t ∧
      (t.share w q u).ran = false ∧ t.tile.scratch = s.tile.scratch) ∧
  (∀ (s : State) (w : Fin 8) (q : Nat) (u : Fin 192) (e : QEntry),
    s.entry w q = some e → Rec.kind e.raw = 2 → (vxOf e.raw).kind = 1 → s.arrayOn = true → ((s.seen e.step).startVector w e u).2 = true →
    (s.share w q u).combined = none → (s.share w q u).partials = none → (vxOf e.raw).redTiles = false →
    ∃ t, exec (.vectorReduce w q u) s = .next t ∧
      (t.share w q u).ran = true ∧
      t.tile.scratch = (((s.seen e.step).startVector w e u).1.storePlain (vxOf e.raw) u (((s.seen e.step).startVector w e u).1.reduceOf (vxOf e.raw) u)).tile.scratch ∧
      t.tile.castMem = (((s.seen e.step).startVector w e u).1.storePlain (vxOf e.raw) u (((s.seen e.step).startVector w e u).1.reduceOf (vxOf e.raw) u)).tile.castMem) ∧
  (∀ (s : State) (w : Fin 8) (q : Nat) (u : Fin 192) (e : QEntry),
    s.entry w q = some e → Rec.kind e.raw = 2 → (vxOf e.raw).kind = 1 → s.arrayOn = true → (s.share w q u).combined = none →
    ((s.seen e.step).startVector w e u).2 = false → (s.share w q u).ran = false →
    ∃ t, exec (.vectorReduce w q u) s = .next t ∧
      (t.share w q u).ran = false ∧ t.tile.scratch = s.tile.scratch) ∧
  (∀ (s : State) (w : Fin 8) (q : Nat) (u : Fin 192) (e : QEntry),
    s.entry w q = some e → Rec.kind e.raw = 2 → (vxOf e.raw).kind = 1 → s.arrayOn = true → ((s.seen e.step).startVector w e u).2 = true →
    (s.share w q u).combined = none → (s.share w q u).partials = none → (vxOf e.raw).redTiles = true →
    ∃ t, exec (.vectorReduce w q u) s = .next t ∧
      (t.share w q u).partials = some ((((s.seen e.step).startVector w e u).1.reduceOf (vxOf e.raw) u).map Lane.word) ∧ (t.share w q u).ran = false ∧
      t.tile.scratch = s.tile.scratch) ∧
  (∀ (s : State) (w : Fin 8) (q : Nat) (u : Fin 192) (e : QEntry) (l : List Nat),
    s.entry w q = some e → Rec.kind e.raw = 2 → (vxOf e.raw).kind = 1 → s.arrayOn = true → (s.share w q u).combined = some l →
    (s.share w q u).ran = false → ((s.seen e.step).pagesFor w q u [] (rangePages (s.castBase u) (castWrites e.raw u))).2 = true →
    ∃ t, exec (.vectorReduce w q u) s = .next t ∧
      (t.share w q u).ran = true ∧
      t.tile.scratch = (((s.seen e.step).pagesFor w q u [] (rangePages (s.castBase u) (castWrites e.raw u))).1.storePlain (vxOf e.raw) u (l.map wordLane)).tile.scratch ∧
      t.tile.castMem = (((s.seen e.step).pagesFor w q u [] (rangePages (s.castBase u) (castWrites e.raw u))).1.storePlain (vxOf e.raw) u (l.map wordLane)).tile.castMem) ∧
  (∀ (s : State) (w : Fin 8) (q : Nat) (e : QEntry) (p : List Nat) (r : List (List Nat)),
    s.entry w q = some e → Rec.kind e.raw = 2 → (vxOf e.raw).kind = 1 → s.arrayOn = true → (vxOf e.raw).redTiles = true → e.disp = true →
    (s.share w q (vxOf e.raw).tf).combined = none →
    ((List.range ((vxOf e.raw).tl - (vxOf e.raw).tf + 1)).map fun i => (s.share w q ((vxOf e.raw).tf + i)).partials) = (p :: r).map some →
    ∃ t, exec (.reduceTileFold w q) s = .next t ∧
      (∀ i, i ≤ (vxOf e.raw).tl - (vxOf e.raw).tf → (t.share w q ((vxOf e.raw).tf + i)).combined = some (r.foldl (fun a b => List.zipWith (fun x y => (redStep (vxOf e.raw).redOp (wordLane x) (wordLane y)).word) a b) p))) ∧
  (∀ (s : State) (w : Fin 8) (q : Nat) (u : Fin 192) (e : QEntry),
    s.entry w q = some e → Rec.kind e.raw = 2 → (vxOf e.raw).kind = 3 → s.arrayOn = true → ((s.seen e.step).startVector w e u).2 = true →
    (((s.seen e.step).startVector w e u).1.gatherReady w q (vxOf e.raw) u).2 = true →
    ∃ t, exec (.gather w q u) s = .next t ∧
      (t.share w q u).ran = true ∧
      t.tile.scratch = ((((s.seen e.step).startVector w e u).1.gatherReady w q (vxOf e.raw) u).1.storeTensor (vxOf e.raw) u fun i j => (((s.seen e.step).startVector w e u).1.gatherReady w q (vxOf e.raw) u).1.chainAt (vxOf e.raw) u i j (((((s.seen e.step).startVector w e u).1.gatherReady w q (vxOf e.raw) u).1.gathered (vxOf e.raw) u (32 * (vxOf e.raw).nEt * i + j)).getD Lane.nan)).tile.scratch ∧
      t.tile.castMem = ((((s.seen e.step).startVector w e u).1.gatherReady w q (vxOf e.raw) u).1.storeTensor (vxOf e.raw) u fun i j => (((s.seen e.step).startVector w e u).1.gatherReady w q (vxOf e.raw) u).1.chainAt (vxOf e.raw) u i j (((((s.seen e.step).startVector w e u).1.gatherReady w q (vxOf e.raw) u).1.gathered (vxOf e.raw) u (32 * (vxOf e.raw).nEt * i + j)).getD Lane.nan)).tile.castMem) ∧
  (∀ (s : State) (w : Fin 8) (q : Nat) (u : Fin 192) (e : QEntry),
    s.entry w q = some e → Rec.kind e.raw = 2 → (vxOf e.raw).kind = 3 → s.arrayOn = true → ((s.seen e.step).startVector w e u).2 = false →
    (s.share w q u).ran = false →
    ∃ t, exec (.gather w q u) s = .next t ∧
      (t.share w q u).ran = false ∧ t.tile.scratch = s.tile.scratch) ∧
  (∀ (s : State) (w : Fin 8) (q : Nat) (u : Fin 192) (e : QEntry),
    s.entry w q = some e → Rec.kind e.raw = 2 → (vxOf e.raw).kind = 3 → s.arrayOn = true → ((s.seen e.step).startVector w e u).2 = true →
    (((s.seen e.step).startVector w e u).1.gatherReady w q (vxOf e.raw) u).2 = false →
    ∃ t, exec (.gather w q u) s = .next t ∧
      (t.share w q u).ran = false ∧ t.tile.scratch = s.tile.scratch) ∧
  (∀ (s : State) (w : Fin 8) (q : Nat) (u : Fin 192) (e : QEntry),
    s.entry w q = some e → Rec.kind e.raw = 2 → (vxOf e.raw).kind = 4 → s.arrayOn = true → ((s.seen e.step).startVector w e u).2 = true →
    ∃ t, exec (.scatter w q u) s = .next t ∧
      (t.share w q u).ran = true ∧ t.tile.scratch = (((s.seen e.step).startVector w e u).1.scatterStore (vxOf e.raw) u).1.tile.scratch ∧
      (∀ a, (∀ j, j < (vxOf e.raw).count → a ≠ u * 2 ^ 21 + (vxOf e.raw).outAt j ∧ a ≠ u * 2 ^ 21 + (vxOf e.raw).outAt j + 1) → t.tile.scratch.get 0 a = s.tile.scratch.get 0 a) ∧
      t.tile.castMem = s.tile.castMem) ∧
  (∀ (s : State) (w : Fin 8) (q : Nat) (u : Fin 192) (e : QEntry),
    s.entry w q = some e → Rec.kind e.raw = 2 → (vxOf e.raw).kind = 4 → s.arrayOn = true → ((s.seen e.step).startVector w e u).2 = false →
    (s.share w q u).ran = false →
    ∃ t, exec (.scatter w q u) s = .next t ∧
      (t.share w q u).ran = false ∧ t.tile.scratch = s.tile.scratch)

/-- Tier records create, free and move regions, configure staging rings and stream into them. Each clause concludes that exec answers a next
state, under conditions on the state and the operands alone. Completes: tierCreate, tierFree, tierMove, ringConfig, stream, streamGateOpen,
stageFillDone, stageStall. -/
def Obligations.TierRecordsRun : Prop :=
  (∀ (s : State) (w : Fin 8) (q : Nat) (e : QEntry),
    s.entry w q = some e → e.disp = true → e.unit = false → e.skip = false → Rec.kind e.raw = 5 → Rec.op e.raw = 0 →
    (classPinned (tmOf e.raw).cls (tmOf e.raw).tier = true → s.pinned + (tmOf e.raw).low ≤ s.rd Obj.pinLimitPages) →
    (tmOf e.raw).low ≤ s.freeIn (tmOf e.raw).tier →
    ∃ t, exec (.tierCreate w q) s = .next t ∧
      t.region (tmOf e.raw).handle = some (s.newRegion (tmOf e.raw).cls (tmOf e.raw).tier (tmOf e.raw).low) ∧
      (t.entry w q).map QEntry.unit = some true ∧ (∀ h, h ≠ (tmOf e.raw).handle → t.region h = s.region h)) ∧
  (∀ (s : State) (w : Fin 8) (q : Nat) (e : QEntry),
    s.entry w q = some e → e.disp = true → e.unit = false → e.skip = false → Rec.kind e.raw = 5 → Rec.op e.raw = 0 →
    classPinned (tmOf e.raw).cls (tmOf e.raw).tier = true → s.rd Obj.pinLimitPages < s.pinned + (tmOf e.raw).low →
    ∃ t, exec (.tierCreate w q) s = .next t ∧
      (t.entry w q).map (fun x => (x.unit, x.status)) = some (true, if e.status = 0 then 0x11 else e.status) ∧ (t.win w).state = .halted ∧
      t.tier = s.tier) ∧
  (∀ (s : State) (w : Fin 8) (q : Nat) (e : QEntry),
    s.entry w q = some e → e.disp = true → e.unit = false → e.skip = false → Rec.kind e.raw = 5 → Rec.op e.raw = 0 →
    (classPinned (tmOf e.raw).cls (tmOf e.raw).tier = true → s.pinned + (tmOf e.raw).low ≤ s.rd Obj.pinLimitPages) →
    s.freeIn (tmOf e.raw).tier < (tmOf e.raw).low → ((tmOf e.raw).tier = 2 ∨ (s.evictFor (tmOf e.raw).tier (tmOf e.raw).low).2 = false) →
    ∃ t, exec (.tierCreate w q) s = .next t ∧
      (t.entry w q).map (fun x => (x.unit, x.status)) = some (true, if e.status = 0 then 0x11 else e.status) ∧ (t.win w).state = .halted) ∧
  (∀ (s : State) (w : Fin 8) (q : Nat) (e : QEntry),
    s.entry w q = some e → e.disp = true → e.unit = false → e.skip = false → Rec.kind e.raw = 5 → Rec.op e.raw = 0 →
    (classPinned (tmOf e.raw).cls (tmOf e.raw).tier = true → s.pinned + (tmOf e.raw).low ≤ s.rd Obj.pinLimitPages) →
    s.freeIn (tmOf e.raw).tier < (tmOf e.raw).low → (tmOf e.raw).tier ≠ 2 → (s.evictFor (tmOf e.raw).tier (tmOf e.raw).low).2 = true →
    ∃ t, exec (.tierCreate w q) s = .next t ∧
      t = (s.evictFor (tmOf e.raw).tier (tmOf e.raw).low).1 ∧ t.tier.mem = s.tier.mem ∧ t.cmd = s.cmd) ∧
  (∀ (s : State) (w : Fin 8) (q : Nat) (e : QEntry) (r : Region),
    s.entry w q = some e → e.disp = true → e.unit = false → e.skip = false → Rec.kind e.raw = 5 → Rec.op e.raw = 1 →
    s.region (tmOf e.raw).handle = some r → s.regionUsers (tmOf e.raw).handle = [] → r.count (fun p => p.move.isSome) = 0 →
    s.movesOf (tmOf e.raw).handle = false →
    ∃ t, exec (.tierFree w q) s = .next t ∧
      t.region (tmOf e.raw).handle = none ∧ (t.entry w q).map QEntry.unit = some true ∧
      (∀ b, b < 2 ^ 42 → t.tier.mem.get 0 (regionAddr (tmOf e.raw).handle b) = 0) ∧
      (∀ h b, h ≠ (tmOf e.raw).handle → b < 2 ^ 42 → t.tier.mem.get 0 (regionAddr h b) = s.tier.mem.get 0 (regionAddr h b))) ∧
  (∀ (s : State) (w : Fin 8) (q : Nat) (e : QEntry) (r : Region),
    s.entry w q = some e → e.disp = true → e.unit = false → e.skip = false → Rec.kind e.raw = 5 → Rec.op e.raw = 1 →
    s.region (tmOf e.raw).handle = some r →
    (s.regionUsers (tmOf e.raw).handle ≠ [] ∨ r.count (fun p => p.move.isSome) ≠ 0 ∨ s.movesOf (tmOf e.raw).handle = true) →
    ∃ t, exec (.tierFree w q) s = .next t ∧
      t.region (tmOf e.raw).handle = some { r with freeing := some (recKey w q) } ∧ t.tier.mem = s.tier.mem ∧ t.cmd = s.cmd) ∧
  (∀ (s : State) (w : Fin 8) (q : Nat) (e : QEntry),
    s.entry w q = some e → e.disp = true → e.unit = false → e.skip = false → Rec.kind e.raw = 5 → Rec.op e.raw = 1 →
    s.region (tmOf e.raw).handle = none →
    ∃ t, exec (.tierFree w q) s = .next t ∧
      (t.entry w q).map QEntry.unit = some true ∧ t.tier = s.tier) ∧
  (∀ (s : State) (w : Fin 8) (q : Nat) (e : QEntry) (r : Region) (i : Nat) (d : Home),
    s.entry w q = some e → e.disp = true → e.unit = false → e.skip = false → Rec.kind e.raw = 5 → Rec.op e.raw = 2 →
    s.region (tmOf e.raw).handle = some r →
    r.nextMove (tmOf e.raw).tier (tmOf e.raw).low (tmOf e.raw).pageCount ((s.tier.moveLeft.find (recKey w q)).getD { next := 0, status := 0 }).next = some i →
    (r.page ((tmOf e.raw).low + i)).move = none → s.placeIn (tmOf e.raw).tier = some d →
    ∃ t, exec (.tierMove w q) s = .next t ∧
      (∃ r₂, t.region (tmOf e.raw).handle = some r₂ ∧ r₂.page ((tmOf e.raw).low + i) = { r.page ((tmOf e.raw).low + i) with move := some { dst := d, tries := 0, second := false, why := .record (recKey w q) } }) ∧
      t.tier.mem = s.tier.mem) ∧
  (∀ (s : State) (w : Fin 8) (q : Nat) (e : QEntry) (r : Region),
    s.entry w q = some e → e.disp = true → e.unit = false → e.skip = false → Rec.kind e.raw = 5 → Rec.op e.raw = 2 →
    s.region (tmOf e.raw).handle = some r →
    r.nextMove (tmOf e.raw).tier (tmOf e.raw).low (tmOf e.raw).pageCount ((s.tier.moveLeft.find (recKey w q)).getD { next := 0, status := 0 }).next = none →
    ∃ t, exec (.tierMove w q) s = .next t ∧
      (t.entry w q).map QEntry.unit = some true ∧ t.tier.regions = s.tier.regions) ∧
  (∀ (s : State) (w : Fin 8) (q : Nat) (e : QEntry),
    s.entry w q = some e → e.disp = true → e.unit = false → e.skip = false → Rec.kind e.raw = 5 → Rec.op e.raw = 2 →
    s.region (tmOf e.raw).handle = none →
    ∃ t, exec (.tierMove w q) s = .next t ∧
      (t.entry w q).map QEntry.unit = some true ∧ t.tier.regions = s.tier.regions) ∧
  (∀ (s : State) (w : Fin 8) (q : Nat) (e : QEntry) (r : Region) (i : Nat),
    s.entry w q = some e → e.disp = true → e.unit = false → e.skip = false → Rec.kind e.raw = 5 → Rec.op e.raw = 2 →
    s.region (tmOf e.raw).handle = some r →
    r.nextMove (tmOf e.raw).tier (tmOf e.raw).low (tmOf e.raw).pageCount ((s.tier.moveLeft.find (recKey w q)).getD { next := 0, status := 0 }).next = some i →
    (r.page ((tmOf e.raw).low + i)).move.isSome = true →
    ∃ t, exec (.tierMove w q) s = .next t ∧
      t.tier.regions = s.tier.regions ∧ t.tier.mem = s.tier.mem ∧ t.cmd = s.cmd) ∧
  (∀ (s : State) (w : Fin 8) (q : Nat) (e : QEntry) (r : Region) (i : Nat),
    s.entry w q = some e → e.disp = true → e.unit = false → e.skip = false → Rec.kind e.raw = 5 → Rec.op e.raw = 2 →
    s.region (tmOf e.raw).handle = some r →
    r.nextMove (tmOf e.raw).tier (tmOf e.raw).low (tmOf e.raw).pageCount ((s.tier.moveLeft.find (recKey w q)).getD { next := 0, status := 0 }).next = some i →
    (r.page ((tmOf e.raw).low + i)).move = none → s.placeIn (tmOf e.raw).tier = none →
    ((tmOf e.raw).tier = 2 ∨ (State.evictFor { s with tier := { s.tier with moveLeft := s.tier.moveLeft.insert (recKey w q) { ((s.tier.moveLeft.find (recKey w q)).getD { next := 0, status := 0 }) with next := i } } } (tmOf e.raw).tier 1).2 = false) →
    ∃ t, exec (.tierMove w q) s = .next t ∧
      (t.entry w q).map (fun x => (x.unit, x.status)) = some (true, if e.status = 0 then 0x11 else e.status) ∧
      t.region (tmOf e.raw).handle = some r ∧ t.tier.mem = s.tier.mem) ∧
  (∀ (s : State) (w : Fin 8) (q : Nat) (e : QEntry) (r : Region) (i : Nat),
    s.entry w q = some e → e.disp = true → e.unit = false → e.skip = false → Rec.kind e.raw = 5 → Rec.op e.raw = 2 →
    s.region (tmOf e.raw).handle = some r →
    r.nextMove (tmOf e.raw).tier (tmOf e.raw).low (tmOf e.raw).pageCount ((s.tier.moveLeft.find (recKey w q)).getD { next := 0, status := 0 }).next = some i →
    (r.page ((tmOf e.raw).low + i)).move = none → s.placeIn (tmOf e.raw).tier = none → (tmOf e.raw).tier ≠ 2 →
    (State.evictFor { s with tier := { s.tier with moveLeft := s.tier.moveLeft.insert (recKey w q) { ((s.tier.moveLeft.find (recKey w q)).getD { next := 0, status := 0 }) with next := i } } } (tmOf e.raw).tier 1).2 = true →
    ∃ t, exec (.tierMove w q) s = .next t ∧
      t = (State.evictFor { s with tier := { s.tier with moveLeft := s.tier.moveLeft.insert (recKey w q) { ((s.tier.moveLeft.find (recKey w q)).getD { next := 0, status := 0 }) with next := i } } } (tmOf e.raw).tier 1).1 ∧
      t.tier.mem = s.tier.mem ∧ t.cmd = s.cmd) ∧
  (∀ (s : State) (w : Fin 8) (q : Nat) (e : QEntry),
    s.entry w q = some e → e.disp = true → e.unit = false → e.skip = false → Rec.kind e.raw = 5 → Rec.op e.raw = 4 →
    ∃ t, exec (.ringConfig w q) s = .next t ∧
      (∀ v, (tmOf e.raw).tf ≤ v → v ≤ (tmOf e.raw).tl → t.ring v (tmOf e.raw).ring = { base := (tmOf e.raw).basePage, pages := (tmOf e.raw).ringPages, fill := 0, grans := [] }) ∧
      (t.entry w q).map QEntry.unit = some true) ∧
  (∀ (s : State) (w : Fin 8) (q : Nat) (e : QEntry),
    s.entry w q = some e → e.disp = true → e.unit = false → e.skip = false → Rec.kind e.raw = 5 → Rec.op e.raw = 3 →
    ∃ t, exec (.stream w q) s = .next t ∧
      (∀ v, (tmOf e.raw).tf ≤ v → v ≤ (tmOf e.raw).tl → (t.tier.fills.find (256 * recKey w q + v)).isSome = true) ∧
      (s.isGated (tmOf e.raw) = false ∨ s.gateOpen (tmOf e.raw).layer (e.step.getD 0) = true → t.tier.gated.contains (recKey w q) = true) ∧
      t.tier.mem = s.tier.mem) ∧
  (∀ (s : State) (w : Fin 8) (q : Nat) (e : QEntry),
    s.entry w q = some e → e.disp = true → e.unit = false → e.skip = false → Rec.kind e.raw = 5 → Rec.op e.raw = 3 → s.isGated (tmOf e.raw) = true →
    s.gateOpen (tmOf e.raw).layer (e.step.getD 0) = true →
    ∃ t, exec (.streamGateOpen w q) s = .next t ∧
      t.tier.gated.contains (recKey w q) = true ∧ t.tier.mem = s.tier.mem) ∧
  (∀ (s : State) (w : Fin 8) (q : Nat) (e : QEntry),
    s.entry w q = some e → e.disp = true → e.unit = false → e.skip = false → Rec.kind e.raw = 5 → Rec.op e.raw = 3 →
    (s.isGated (tmOf e.raw) = false ∨ s.gateOpen (tmOf e.raw).layer (e.step.getD 0) = false) →
    ∃ t, exec (.streamGateOpen w q) s = .next t ∧
      t = s) ∧
  (∀ (s : State) (w : Fin 8) (q : Nat) (u : Fin 192) (e : QEntry) (n : Nat) (l : List Nat),
    s.entry w q = some e → e.disp = true → e.unit = false → e.skip = false → Rec.kind e.raw = 5 → Rec.op e.raw = 3 →
    (l = (if (tmOf e.raw).bcast then (if u.val = (tmOf e.raw).tf then tileRange (tmOf e.raw).tf (tmOf e.raw).tl else []) else if (tmOf e.raw).tf ≤ u.val ∧ u.val ≤ (tmOf e.raw).tl then [u.val] else [])) →
    n = (l.map (s.fillLen w e (tmOf e.raw))).foldl min ((l.map (s.fillLen w e (tmOf e.raw))).headD 0) → s.streamOpen w e (tmOf e.raw) = true →
    n ≠ 0 → (s.classDeferred (Rec.eclass e.raw) = false ∨ l.any (fun v => s.fillWanted (tmOf e.raw) v n) = true) → (tmOf e.raw).tl < 192 →
    (∀ v ∈ l, 65536 * (s.ring v (tmOf e.raw).ring).base + (s.ring v (tmOf e.raw).ring).fill + n ≤ scratchBytes) →
    (s.access (recKey w q) l.length (tmOf e.raw).handle ((tmOf e.raw).fillPages u ((s.tier.fills.find (256 * recKey w q + u)).map Fill.got |>.getD 0) n)).2 = .ready →
    ∃ t, exec (.stageFillDone w q u) s = .next t ∧
      (∀ v ∈ l, ∀ i, i < n → t.tile.scratch.get 0 (v * 2 ^ 21 + (65536 * (s.ring v (tmOf e.raw).ring).base + (s.ring v (tmOf e.raw).ring).fill + i)) = s.regionByte (tmOf e.raw).handle ((tmOf e.raw).srcByte v (((s.tier.fills.find (256 * recKey w q + v)).getD { start := 0, got := 0 }).got + i))) ∧
      t.rd Obj.tmStageBytes = (s.rd Obj.tmStageBytes + n) % 2 ^ 64 ∧ t.tier.mem = s.tier.mem) ∧
  (∀ (s : State) (w : Fin 8) (q : Nat) (u : Fin 192) (e : QEntry) (n : Nat) (l : List Nat),
    s.entry w q = some e → e.disp = true → e.unit = false → e.skip = false → Rec.kind e.raw = 5 → Rec.op e.raw = 3 →
    (l = (if (tmOf e.raw).bcast then (if u.val = (tmOf e.raw).tf then tileRange (tmOf e.raw).tf (tmOf e.raw).tl else []) else if (tmOf e.raw).tf ≤ u.val ∧ u.val ≤ (tmOf e.raw).tl then [u.val] else [])) →
    n = (l.map (s.fillLen w e (tmOf e.raw))).foldl min ((l.map (s.fillLen w e (tmOf e.raw))).headD 0) →
    (s.streamOpen w e (tmOf e.raw) = false ∨ n = 0 ∨ (s.classDeferred (Rec.eclass e.raw) = true ∧ l.any (fun v => s.fillWanted (tmOf e.raw) v n) = false)) →
    ∃ t, exec (.stageFillDone w q u) s = .next t ∧
      t = s) ∧
  (∀ (s : State) (w : Fin 8) (q : Nat) (u : Fin 192) (e : QEntry) (n : Nat) (l : List Nat),
    s.entry w q = some e → e.disp = true → e.unit = false → e.skip = false → Rec.kind e.raw = 5 → Rec.op e.raw = 3 →
    (l = (if (tmOf e.raw).bcast then (if u.val = (tmOf e.raw).tf then tileRange (tmOf e.raw).tf (tmOf e.raw).tl else []) else if (tmOf e.raw).tf ≤ u.val ∧ u.val ≤ (tmOf e.raw).tl then [u.val] else [])) →
    n = (l.map (s.fillLen w e (tmOf e.raw))).foldl min ((l.map (s.fillLen w e (tmOf e.raw))).headD 0) → s.streamOpen w e (tmOf e.raw) = true →
    n ≠ 0 → (s.classDeferred (Rec.eclass e.raw) = false ∨ l.any (fun v => s.fillWanted (tmOf e.raw) v n) = true) →
    (s.access (recKey w q) l.length (tmOf e.raw).handle ((tmOf e.raw).fillPages u ((s.tier.fills.find (256 * recKey w q + u)).map Fill.got |>.getD 0) n)).2 = .waiting →
    ∃ t, exec (.stageFillDone w q u) s = .next t ∧
      t.tile = s.tile ∧ t.tier.mem = s.tier.mem ∧ t.cmd = s.cmd) ∧
  (∀ (s : State) (w : Fin 8) (q : Nat) (u : Fin 192) (e : QEntry) (f : Nat),
    s.entry w q = some e → e.disp = true → Rec.kind e.raw = 1 → (s.share w q u).waitFrom = some f → (s.share w q u).started = true →
    (s.share w q u).waitTold = false → (s.share w q u).waitLimit * ms < s.now - f →
    ∃ t, exec (.stageStall w q u) s = .next t ∧
      t.share w q u = { s.share w q u with waitTold := true } ∧ t.rd Obj.tmStageStalls = min (s.rd Obj.tmStageStalls + 1) (2 ^ 32 - 1) ∧
      t.cmd = s.cmd) ∧
  (∀ (s : State) (w : Fin 8) (q : Nat) (u : Fin 192) (e : QEntry),
    s.entry w q = some e → e.disp = true → Rec.kind e.raw = 1 →
    ((s.share w q u).waitFrom = none ∨ (s.share w q u).started = false ∨ (s.share w q u).waitTold = true) →
    ∃ t, exec (.stageStall w q u) s = .next t ∧
      t = s) ∧
  (∀ (s : State) (w : Fin 8) (q : Nat),
    (s.entry w q).all (fun e => !(e.disp && !e.unit && !e.skip && Rec.kind e.raw == 5 && Rec.op e.raw == 0)) = true →
    ∃ t, exec (.tierCreate w q) s = .next t ∧
      t = s) ∧
  (∀ (s : State) (w : Fin 8) (q : Nat),
    (s.entry w q).all (fun e => !(e.disp && !e.unit && !e.skip && Rec.kind e.raw == 5 && Rec.op e.raw == 1)) = true →
    ∃ t, exec (.tierFree w q) s = .next t ∧
      t = s) ∧
  (∀ (s : State) (w : Fin 8) (q : Nat),
    (s.entry w q).all (fun e => !(e.disp && !e.unit && !e.skip && Rec.kind e.raw == 5 && Rec.op e.raw == 2)) = true →
    ∃ t, exec (.tierMove w q) s = .next t ∧
      t = s) ∧
  (∀ (s : State) (w : Fin 8) (q : Nat),
    (s.entry w q).all (fun e => !(e.disp && !e.unit && !e.skip && Rec.kind e.raw == 5 && Rec.op e.raw == 4)) = true →
    ∃ t, exec (.ringConfig w q) s = .next t ∧
      t = s) ∧
  (∀ (s : State) (w : Fin 8) (q : Nat),
    (s.entry w q).all (fun e => !(e.disp && !e.unit && !e.skip && Rec.kind e.raw == 5 && Rec.op e.raw == 3)) = true →
    ∃ t, exec (.stream w q) s = .next t ∧
      t = s) ∧
  (∀ (s : State) (w : Fin 8) (q : Nat),
    (s.entry w q).all (fun e => !(e.disp && !e.unit && !e.skip && Rec.kind e.raw == 5 && Rec.op e.raw == 3)) = true →
    ∃ t, exec (.streamGateOpen w q) s = .next t ∧
      t = s) ∧
  (∀ (s : State) (w : Fin 8) (q : Nat) (u : Fin 192),
    (s.entry w q).all (fun e => !(e.disp && !e.unit && !e.skip && Rec.kind e.raw == 5 && Rec.op e.raw == 3)) = true →
    ∃ t, exec (.stageFillDone w q u) s = .next t ∧
      t = s)

/-- A page keeps its home until its copy lands; a failed copy is tried again; eviction starts a move. Each clause concludes that exec answers a
next state, under conditions on the state and the operands alone. Completes: pageMoveDone, eviction. -/
def Obligations.PagesMoveOneHome : Prop :=
  (∀ (s : State) (h p phys : Nat) (r : Region) (m : PageMove),
    s.region h = some r → (r.page p).move = some m → (m.dst = .t2 → s.store.acked.contains (lentPage h p) = true) →
    ∃ t, exec (.pageMoveDone h p true phys) s = .next t ∧
      (∃ r₂, (s.pageMoveDone h p true phys).region h = some r₂ ∧ (r₂.page p).home = m.dst) ∧ (s.pageMoveDone h p true phys).tier.mem = s.tier.mem ∧
      t = (s.pageMoveDone h p true phys).landHeld) ∧
  (∀ (s : State) (h p phys : Nat) (r : Region) (m : PageMove),
    s.region h = some r → (r.page p).move = some m → m.tries < 2 →
    ∃ t, exec (.pageMoveDone h p false phys) s = .next t ∧
      (∃ r₂, (s.pageMoveDone h p false phys).region h = some r₂ ∧ r₂.page p = { r.page p with move := some { m with tries := m.tries + 1 } }) ∧
      (s.pageMoveDone h p false phys).rd Obj.tmMoveRetries = min (s.rd Obj.tmMoveRetries + 1) (2 ^ 32 - 1) ∧
      (s.pageMoveDone h p false phys).tier.mem = s.tier.mem ∧ t = (s.pageMoveDone h p false phys).landHeld) ∧
  (∀ (s : State) (h p phys : Nat) (r : Region) (m : PageMove),
    s.region h = some r → (r.page p).move = some m → m.dst = .t2 → s.store.acked.contains (lentPage h p) = false →
    ∃ t, exec (.pageMoveDone h p true phys) s = .next t ∧
      t = s.landHeld) ∧
  (∀ (s : State) (h p phys : Nat) (r : Region) (m : PageMove),
    s.region h = some r → (r.page p).move = some m → 2 ≤ m.tries → m.second = false →
    ∃ t, exec (.pageMoveDone h p false phys) s = .next t ∧
      (∃ r₂, (s.pageMoveDone h p false phys).region h = some r₂ ∧ r₂.page p = { r.page p with move := some { m with tries := 0, second := true } }) ∧
      (m.dst = .t1 → phys ∈ (s.pageMoveDone h p false phys).tier.retired) ∧ (s.pageMoveDone h p false phys).tier.mem = s.tier.mem ∧
      t = (s.pageMoveDone h p false phys).landHeld) ∧
  (∀ (s : State) (h p phys : Nat) (r : Region) (m : PageMove),
    s.region h = some r → (r.page p).move = some m → 2 ≤ m.tries → m.second = true →
    ∃ t, exec (.pageMoveDone h p false phys) s = .next t ∧
      t = (s.moveAbandoned h p m r.cls (r.page p).home.tier).landHeld ∧ (s.moveAbandoned h p m r.cls (r.page p).home.tier).tier.mem = s.tier.mem) ∧
  (∀ (s : State) (h p phys : Nat) (good : Bool) (r : Region),
    s.region h = some r → (r.page p).move = none → (r.page p).home = .gone → (r.page p).refetch = true → p < r.size → s.freeIn 1 = 0 →
    ∃ t, exec (.pageMoveDone h p good phys) s = .next t ∧
      t = (s.evictOne 1).1.landHeld ∧ (s.evictOne 1).1.tier.mem = s.tier.mem) ∧
  (∀ (s : State) (h p phys : Nat) (good : Bool) (r : Region),
    s.region h = some r → (r.page p).move = none → ((r.page p).home ≠ .gone ∨ (r.page p).refetch = false) →
    ∃ t, exec (.pageMoveDone h p good phys) s = .next t ∧
      t = s.landHeld) ∧
  (∀ (s : State) (h p phys : Nat) (good : Bool) (r : Region),
    s.region h = some r → (r.page p).move = none → (r.page p).home = .gone → (r.page p).refetch = true → p < r.size → 0 < s.freeIn 1 →
    ∃ t, exec (.pageMoveDone h p good phys) s = .next t ∧
      (∃ r₂, (s.pageMoveDone h p good phys).region h = some r₂ ∧ r₂.page p = { r.page p with home := .t1, refetch := false, stamp := s.stampNow }) ∧
      (s.pageMoveDone h p good phys).rd Obj.tmRefetches = (s.rd Obj.tmRefetches + 1) % 2 ^ 64 ∧
      (s.pageMoveDone h p good phys).tier.mem = s.tier.mem ∧ t = (s.pageMoveDone h p good phys).landHeld) ∧
  (∀ (s : State) (upper : Bool) (n : Nat) (c : Cand) (d : Home) (r : Region),
    n = (if upper then 1 else 3) → s.e2Deferred = false → s.pool n ≠ 0 → s.freeIn n + s.pagesThat (RPage.leaving n) < s.highMark n →
    (s.freeIn n + s.pagesThat (RPage.leaving n) < s.lowMark n ∨ s.evicting n = true) → s.evictPick n = some c → s.evictDst n c.cls = some d →
    d ≠ .gone → s.region c.h = some r →
    ∃ t, exec (.eviction upper) s = .next t ∧
      (∃ r₂, t.region c.h = some r₂ ∧ r₂.page c.p = { r.page c.p with move := some { dst := d, tries := 0, second := false, why := .evict } }) ∧
      t.evicting n = true ∧ t.tier.mem = s.tier.mem) ∧
  (∀ (s : State) (upper : Bool) (n : Nat) (c : Cand) (r : Region),
    n = (if upper then 1 else 3) → s.e2Deferred = false → s.pool n ≠ 0 → s.freeIn n + s.pagesThat (RPage.leaving n) < s.highMark n →
    (s.freeIn n + s.pagesThat (RPage.leaving n) < s.lowMark n ∨ s.evicting n = true) → s.evictPick n = some c → s.evictDst n c.cls = some .gone →
    s.region c.h = some r →
    ∃ t, exec (.eviction upper) s = .next t ∧
      (∃ r₂, t.region c.h = some r₂ ∧ (r₂.page c.p).home = .gone ∧ (r₂.page c.p).move = none) ∧ t.evicting n = true ∧ t.tier.mem = s.tier.mem) ∧
  (∀ (s : State) (upper : Bool) (n : Nat),
    n = (if upper then 1 else 3) → (s.e2Deferred = true ∨ s.pool n = 0) →
    ∃ t, exec (.eviction upper) s = .next t ∧
      t = s) ∧
  (∀ (s : State) (upper : Bool) (n : Nat),
    n = (if upper then 1 else 3) → s.e2Deferred = false → s.pool n ≠ 0 → s.highMark n ≤ s.freeIn n + s.pagesThat (RPage.leaving n) →
    ∃ t, exec (.eviction upper) s = .next t ∧
      t.evicting n = false ∧ t.tier.regions = s.tier.regions ∧ t.tier.mem = s.tier.mem) ∧
  (∀ (s : State) (upper : Bool) (n : Nat),
    n = (if upper then 1 else 3) → s.e2Deferred = false → s.pool n ≠ 0 → s.freeIn n + s.pagesThat (RPage.leaving n) < s.highMark n →
    (s.freeIn n + s.pagesThat (RPage.leaving n) < s.lowMark n ∨ s.evicting n = true) → s.evictPick n = none →
    ∃ t, exec (.eviction upper) s = .next t ∧
      t.evicting n = false ∧ t.tier.regions = s.tier.regions ∧ t.tier.mem = s.tier.mem) ∧
  (∀ (s : State) (upper : Bool) (n : Nat),
    n = (if upper then 1 else 3) → s.e2Deferred = false → s.pool n ≠ 0 → s.freeIn n + s.pagesThat (RPage.leaving n) < s.highMark n →
    s.lowMark n ≤ s.freeIn n + s.pagesThat (RPage.leaving n) → s.evicting n = false →
    ∃ t, exec (.eviction upper) s = .next t ∧
      t = s)

/-- Memory borrowed from hosts and a neighbour, and memory lent to a neighbour. Each clause concludes that exec answers a next state, under
conditions on the state and the operands alone. Completes: hlCommit, hlRecall, nbCommit, lendRecall, recallNoticeExpiry, lenderLost,
msgLend, msgRecall, msgWithdrawal, msgRelease, msgLentRead, msgLentData. -/
def Obligations.MemoryIsLentAndRecalled : Prop :=
  (∀ (s : State) (src : Src) (n : Fin 2) (arg : Nat),
    arg = 1 → s.fldDenied src (Obj.hlCommit n) = false → s.rd (Obj.hlPages n) ≠ 0 → s.lenderOn n = false →
    ∃ t, exec (.hlCommit src n arg) s = .next t ∧
      t.out.head? = some (.status src (Obj.hlCommit n) 0) ∧ t.rd (Obj.hlState n) = 1 ∧
      t.lender n = { pages := s.rd (Obj.hlPages n), noticeEnd := none }) ∧
  (∀ (s : State) (src : Src) (n : Fin 2) (arg : Nat),
    (100 ≤ arg ∧ arg ≤ 600000) → s.fldDenied src (Obj.hlRecall n) = false → s.rd (Obj.hlState n) = 1 →
    ∃ t, exec (.hlRecall src n arg) s = .next t ∧
      t.out.head? = some (.status src (Obj.hlRecall n) 0) ∧
      (t.rd (Obj.hlState n) = 2 ∧ (t.lender n).noticeEnd = some (s.now + arg * ms)) ∨ (t.rd (Obj.hlState n) = 3 ∧ t.lender n = Lender.none)) ∧
  (∀ (s : State) (src : Src) (arg : Nat),
    arg = 1 → s.fldDenied src Obj.nbCommit = false → s.rd Obj.nbModule ≠ 0xFFFF → s.lenderOn 2 = false →
    ∃ t, exec (.nbCommit src arg) s = .next t ∧
      t.out.head? = some (.status src (Obj.nbCommit) 0) ∧ t.tier.nbAsked = true ∧
      (∃ m, m.mtype = 0x30 ∧ Out.message (s.rd Obj.planPod) (s.rd Obj.nbModule) m ∈ t.out)) ∧
  (∀ (s : State) (src : Src) (arg : Nat) (l : LentOut),
    arg = 1 → s.fldDenied src Obj.lendRecall = false → s.tier.lentOut = some l →
    ∃ t, exec (.lendRecall src arg) s = .next t ∧
      t.out.head? = some (.status src (Obj.lendRecall) 0) ∧
      (l.noticeEnd = none → t.tier.lentOut = some { l with noticeEnd := some (s.now + s.rd Obj.lendNoticeMs * ms) }) ∧
      (l.noticeEnd ≠ none → t.tier.lentOut = some l)) ∧
  (∀ (s : State) (n : Fin 4) (l : LentOut) (f : Nat),
    n = 3 → s.tier.lentOut = some l → l.noticeEnd = some f → f ≤ s.now →
    ∃ t, exec (.recallNoticeExpiry n) s = .next t ∧
      t.tier.lentOut = none ∧ t.tier.lentMem = [] ∧ t.tier.regions = s.tier.regions) ∧
  (∀ (s : State) (n : Fin 4) (f : Nat),
    n ≠ 3 → (s.lender n).noticeEnd = some f → s.rd (lenderKey n) = 2 → f ≤ s.now →
    ∃ t, exec (.recallNoticeExpiry n) s = .next t ∧
      t.rd (lenderKey n) = 3 ∧ t.lender n = Lender.none ∧ t.tier.mem = s.tier.mem) ∧
  (∀ (s : State) (n : Fin 3),
    s.lenderOn n = true →
    ∃ t, exec (.lenderLost n) s = .next t ∧
      t.rd (lenderKey n) = 4 ∧ t.lender n = Lender.none ∧ t.tier.mem = s.tier.mem) ∧
  (∀ (s : State) (m : Msg),
    unle (m.body.take 4) = 0 → s.mayLend = true →
    ∃ t, exec (.msgLend m) s = .next t ∧
      t.tier.lentOut = some { borrower := m.src, pages := s.rd Obj.lendPages, noticeEnd := none } ∧ t.tier.lentMem = [] ∧
      (∃ a, a.mtype = 0x30 ∧ a.body = p32 (s.rd Obj.lendPages) ∧ Out.message (s.rd Obj.planPod) m.src a ∈ t.out)) ∧
  (∀ (s : State) (m : Msg),
    unle (m.body.take 4) ≠ 0 → s.tier.nbAsked = true → m.src = s.rd Obj.nbModule →
    ∃ t, exec (.msgLend m) s = .next t ∧
      t.rd Obj.nbState = 1 ∧ t.lender 2 = { pages := unle (m.body.take 4), noticeEnd := none } ∧ t.tier.nbAsked = false) ∧
  (∀ (s : State) (m : Msg),
    s.fromLender m = true → s.rd Obj.nbState = 1 →
    ∃ t, exec (.msgRecall m) s = .next t ∧
      (t.rd Obj.nbState = 2 ∧ (t.lender 2).noticeEnd = some (s.now + unle (m.body.take 4) * ms)) ∨ (t.rd Obj.nbState = 3 ∧ t.lender 2 = Lender.none)) ∧
  (∀ (s : State) (m : Msg),
    s.fromLender m = true →
    ∃ t, exec (.msgWithdrawal m) s = .next t ∧
      t.rd Obj.nbState = 4 ∧ t.lender 2 = Lender.none) ∧
  (∀ (s : State) (m : Msg),
    s.fromBorrower m = true →
    ∃ t, exec (.msgRelease m) s = .next t ∧
      t.tier.lentOut = none ∧ t.tier.lentMem = [] ∧ t.obj = s.obj) ∧
  (∀ (s : State) (m : Msg),
    s.fromBorrower m = true →
    ∃ t, exec (.msgLentRead m) s = .next t ∧
      (∀ i, i < 9 → ∃ a, a.mtype = 0x35 ∧ a.index = i ∧ a.body = p64 (unle (m.body.take 8)) ++ ((memRead s.tier.lentMem (65536 * unle (m.body.take 8)) 65536).drop (lentPiece * i)).take lentPiece ∧ Out.message (s.rd Obj.planPod) m.src a ∈ t.out) ∧
      t.tier.lentMem = s.tier.lentMem) ∧
  (∀ (s : State) (m : Msg),
    s.fromBorrower m = true →
    ∃ t, exec (.msgLentData m) s = .next t ∧
      memRead t.tier.lentMem (65536 * unle (m.body.take 8) + lentPiece * m.index) ((m.body.drop 8).take (min lentPiece (65536 - lentPiece * m.index))).length = ((m.body.drop 8).take (min lentPiece (65536 - lentPiece * m.index))) ∧
      t.tier.mem = s.tier.mem ∧
      (∀ a, a < 65536 * unle (m.body.take 8) + lentPiece * m.index ∨ 65536 * unle (m.body.take 8) + lentPiece * m.index + ((m.body.drop 8).take (min lentPiece (65536 - lentPiece * m.index))).length ≤ a → t.tier.lentMem.get 0 a = s.tier.lentMem.get 0 a)) ∧
  (∀ (s : State) (m : Msg),
    s.fromBorrower m = false → s.fromLender m = true → s.lentHere (unle (m.body.take 8) / 2 ^ 32) (unle (m.body.take 8) % 2 ^ 32) = true →
    ∃ t, exec (.msgLentData m) s = .next t ∧
      t.tier.mem = memWrite s.tier.mem (regionAddr (unle (m.body.take 8) / 2 ^ 32) (65536 * (unle (m.body.take 8) % 2 ^ 32) + lentPiece * m.index)) ((m.body.drop 8).take (min lentPiece (65536 - lentPiece * m.index))) ∧
      t.tier.lentMem = s.tier.lentMem) ∧
  (∀ (s : State) (m : Msg),
    unle (m.body.take 4) = 0 → s.mayLend = false →
    ∃ t, exec (.msgLend m) s = .next t ∧
      t = s) ∧
  (∀ (s : State) (m : Msg),
    unle (m.body.take 4) ≠ 0 → (s.tier.nbAsked = false ∨ m.src ≠ s.rd Obj.nbModule) →
    ∃ t, exec (.msgLend m) s = .next t ∧
      t = s) ∧
  (∀ (s : State) (m : Msg),
    (s.fromLender m = false ∨ s.rd Obj.nbState ≠ 1) →
    ∃ t, exec (.msgRecall m) s = .next t ∧
      t = s) ∧
  (∀ (s : State) (m : Msg),
    s.fromLender m = false →
    ∃ t, exec (.msgWithdrawal m) s = .next t ∧
      t = s) ∧
  (∀ (s : State) (m : Msg),
    s.fromBorrower m = false →
    ∃ t, exec (.msgRelease m) s = .next t ∧
      t = s) ∧
  (∀ (s : State) (m : Msg),
    s.fromBorrower m = false →
    ∃ t, exec (.msgLentRead m) s = .next t ∧
      t = s) ∧
  (∀ (s : State) (m : Msg),
    s.fromBorrower m = false → (s.fromLender m = false ∨ s.lentHere (unle (m.body.take 8) / 2 ^ 32) (unle (m.body.take 8) % 2 ^ 32) = false) →
    ∃ t, exec (.msgLentData m) s = .next t ∧
      t = s)

/-- Bank-tier replays, retries, alerts, temperatures and the patrol scrub are counted and acted on. Each clause concludes that exec answers a
next state, under conditions on the state and the operands alone. Completes: bankReadReplay, bankWriteRetry, caParityAlert, bankTempRead,
scrub. -/
def Obligations.BankTierRepairs : Prop :=
  (∀ (s : State) (addr : Nat) (u : BankUnit) (reads : List Bytes) (reader : Option (Nat × Nat)),
    failedReads addr reads = 0 →
    ∃ t, exec (.bankReadReplay addr u reads reader) s = .next t ∧
      t = s) ∧
  (∀ (s : State) (addr : Nat) (u : BankUnit) (reads : List Bytes) (reader : Option (Nat × Nat)),
    0 < failedReads addr reads → failedReads addr reads ≤ 3 → failedReads addr reads < reads.length →
    ∃ t, exec (.bankReadReplay addr u reads reader) s = .next t ∧
      t.rd (Obj.chReplays (addr / 1024 % 16)) = (s.rd (Obj.chReplays (addr / 1024 % 16)) + 1) % 2 ^ 64 ∧ t.tier = s.tier ∧ t.cmd = s.cmd) ∧
  (∀ (s : State) (addr : Nat) (u : BankUnit) (reads : List Bytes) (reader : Option (Nat × Nat)),
    3 < failedReads addr reads →
    ∃ t, exec (.bankReadReplay addr u reads reader) s = .next t ∧
      t = s.uncorrectable addr u reader ∧ (u = .unused → addr / 1024 ∈ t.tier.retired ∧ t.cmd = s.cmd) ∧ t.tier.mem = s.tier.mem) ∧
  (∀ (s : State) (addr : Nat) (reads : List Bytes) (reader : Option (Nat × Nat)) (h p l : Nat) (r : Region) (u : BankUnit),
    u = .region h p l → 3 < failedReads addr reads → s.tier.map.find (lentPage h p) = some (addr / 1024) → s.region h = some r →
    (r.cls = 6 ∨ r.cls = 7) →
    ∃ t, exec (.bankReadReplay addr u reads reader) s = .next t ∧
      (∃ r₂, t.region h = some r₂ ∧ addr % 1024 ∈ (r₂.page p).bad) ∧ t.tier.mem = s.tier.mem) ∧
  (∀ (s : State) (addr : Nat) (u : BankUnit) (fails : Nat),
    0 < fails → fails ≤ 3 →
    ∃ t, exec (.bankWriteRetry addr u fails) s = .next t ∧
      t.rd Obj.bankWriteRetries = (s.rd Obj.bankWriteRetries + fails) % 2 ^ 64 ∧
      t.rd (Obj.chReplays (addr / 1024 % 16)) = (s.rd (Obj.chReplays (addr / 1024 % 16)) + 1) % 2 ^ 64 ∧ t.tier = s.tier) ∧
  (∀ (s : State) (addr : Nat) (u : BankUnit) (fails : Nat),
    3 < fails → u = .unused →
    ∃ t, exec (.bankWriteRetry addr u fails) s = .next t ∧
      addr / 1024 ∈ t.tier.retired ∧ t.rd Obj.bankWriteRetries = (s.rd Obj.bankWriteRetries + 3) % 2 ^ 64 ∧ t.tier.mem = s.tier.mem) ∧
  (∀ (s : State) (c : Fin 16),
    ∃ t, exec (.caParityAlert c) s = .next t ∧
      t = s.count Obj.bankCaAlerts 1 ∧ t.rd Obj.bankCaAlerts = (s.rd Obj.bankCaAlerts + 1) % 2 ^ 64 ∧ (∀ k, k ≠ Obj.bankCaAlerts → t.rd k = s.rd k)) ∧
  (∀ (s : State) (c : Fin 16) (temp : Int),
    temp ≤ 105 →
    ∃ t, exec (.bankTempRead c temp) s = .next t ∧
      t.rd (Obj.chTemp c) = ofInt 32 (max (-40) (min 150 temp)) ∧
      t.rd Obj.refreshIntervalNs = (if (List.range 16).any (fun d => decide (85 < toInt 32 ((s.wr (Obj.chTemp c) (ofInt 32 (max (-40) (min 150 temp)))).rd (Obj.chTemp d)))) then 1950 else 3900) ∧
      t.power = s.power) ∧
  (∀ (s : State) (c : Fin 16) (temp : Int),
    105 < temp →
    ∃ t, exec (.bankTempRead c temp) s = .next t ∧
      t.rd (Obj.chTemp c) = ofInt 32 (max (-40) (min 150 temp)) ∧ t.power.heatPark = true) ∧
  (∀ (s : State) (u : BankUnit) (unit : Fin 1024) (reads : List Bytes),
    s.e2Deferred = false → failedReads (1024 * s.rd Obj.scrubProgress + unit) reads = 0 → s.rd Obj.scrubProgress + 1 < 33554432 →
    ∃ t, exec (.scrub u ⟨unit, reads⟩) s = .next t ∧
      t.rd Obj.scrubProgress = s.rd Obj.scrubProgress + 1 ∧ t.rd Obj.bankScrubBytes = (s.rd Obj.bankScrubBytes + 65536) % 2 ^ 64 ∧ t.tier = s.tier) ∧
  (∀ (s : State) (u : BankUnit) (unit : Fin 1024) (reads : List Bytes),
    s.e2Deferred = false → 0 < failedReads (1024 * s.rd Obj.scrubProgress + unit) reads → s.rd Obj.scrubProgress + 1 < 33554432 →
    ∃ t, exec (.scrub u ⟨unit, reads⟩) s = .next t ∧
      t.rd Obj.scrubProgress = s.rd Obj.scrubProgress + 1 ∧ t.rd Obj.bankScrubBytes = (s.rd Obj.bankScrubBytes + 65536) % 2 ^ 64 ∧
      t.tier.mem = s.tier.mem) ∧
  (∀ (s : State) (u : BankUnit) (unit : Fin 1024) (reads : List Bytes),
    s.e2Deferred = false → 33554432 ≤ s.rd Obj.scrubProgress + 1 →
    ∃ t, exec (.scrub u ⟨unit, reads⟩) s = .next t ∧
      t.rd Obj.scrubProgress = 0 ∧ t.tier.sweepFrom = s.now ∧ t.tier.mem = s.tier.mem) ∧
  (∀ (s : State) (u : BankUnit) (unit : Fin 1024) (reads : List Bytes),
    s.e2Deferred = true →
    ∃ t, exec (.scrub u ⟨unit, reads⟩) s = .next t ∧
      t.rd Obj.scrubProgress = s.rd Obj.scrubProgress ∧ t.tier = s.tier)

/-- Map, update and restore records of the update processor. Each clause concludes that exec answers a next state, under conditions on the state
and the operands alone. Completes: updateMap, update, restore. -/
def Obligations.UpdateRecordsRun : Prop :=
  (∀ (s : State) (w : Fin 8) (q : Nat) (e : QEntry),
    s.entry w q = some e → e.disp = true → e.unit = false → e.skip = false → Rec.kind e.raw = 7 → Rec.op e.raw = 0 →
    ∃ t, exec (.updateMap w q) s = .next t ∧
      t.upd = { s.upd with mapsNext := s.upd.mapsNext.insert (16 * (upOf e.raw).layer + (upOf e.raw).seg) { rule := (upOf e.raw).rule, wcFmt := (upOf e.raw).wcFmt, stateH := (upOf e.raw).stateH, tiles := (upOf e.raw).tiles, gradH := (upOf e.raw).gradH, wcH := (upOf e.raw).wcH, wScale := (upOf e.raw).wScale, mScale := (upOf e.raw).mScale, vScale := (upOf e.raw).vScale, wcScale := (upOf e.raw).wcScale } } ∧
      (t.entry w q).map QEntry.unit = some true) ∧
  (∀ (s : State) (w : Fin 8) (q : Nat) (e : QEntry),
    s.entry w q = some e → e.disp = true → e.unit = false → e.skip = false → Rec.kind e.raw = 7 → Rec.op e.raw = 1 →
    s.upd.arms.any (fun a => a.win == w.val && a.seq == q) = true →
    ∃ t, exec (.update w q) s = .next t ∧
      t = s) ∧
  (∀ (s : State) (w : Fin 8) (q : Nat) (e : QEntry),
    s.entry w q = some e → e.disp = true → e.unit = false → e.skip = false → Rec.kind e.raw = 7 → Rec.op e.raw = 1 →
    s.upd.arms.any (fun a => a.win == w.val && a.seq == q) = false → (s.journal (upOf e.raw).layer).state = 6 →
    ∃ t, exec (.update w q) s = .next t ∧
      (∃ f, t.entry w q = some f ∧ f.unit = true ∧ f.status = (if e.status = 0 then 0x1C else e.status)) ∧ t.upd = s.upd) ∧
  (∀ (s : State) (w : Fin 8) (q : Nat) (e : QEntry),
    s.entry w q = some e → e.disp = true → e.unit = false → e.skip = false → Rec.kind e.raw = 7 → Rec.op e.raw = 1 →
    s.upd.arms.any (fun a => a.win == w.val && a.seq == q) = false → (s.journal (upOf e.raw).layer).state ≠ 6 →
    ∃ t, exec (.update w q) s = .next t ∧
      (∃ a, t.upd.arms = s.upd.arms ++ [a] ∧ a.win = w.val ∧ a.seq = q ∧ a.layer = (upOf e.raw).layer ∧ a.step = e.step.getD 0 ∧ a.eta = (upOf e.raw).eta ∧ a.wd = (upOf e.raw).wd ∧ a.g1 = (upOf e.raw).g1 ∧ a.g2 = (upOf e.raw).g2 ∧ a.ckpt = (upOf e.raw).ckpt ∧ a.go = false) ∧
      (s.journal (upOf e.raw).layer).state = 1 → (t.journal (upOf e.raw).layer).state = 2 ∧ t.upd.maps = s.upd.maps ∧ t.cmd = s.cmd) ∧
  (∀ (s : State) (w : Fin 8) (q : Nat) (e : QEntry) (x : Image) (y : ImageLayer),
    s.entry w q = some e → e.disp = true → e.unit = false → e.skip = false → Rec.kind e.raw = 7 → Rec.op e.raw = 2 → (upOf e.raw).layer ≠ 0 →
    s.takenImage (upOf e.raw).imageH = some x →
    (s.writable (recKey w q) (((if (upOf e.raw).layer = 0 then s.mappedLayers else [(upOf e.raw).layer]).flatMap s.layerPages).eraseDups)).2 = true →
    (∀ a ∈ s.upd.arms, ¬ (a.win = w.val ∧ a.seq = q)) → x.layers.find (upOf e.raw).layer = some y →
    (((s.writable (recKey w q) (((if (upOf e.raw).layer = 0 then s.mappedLayers else [(upOf e.raw).layer]).flatMap s.layerPages).eraseDups)).1.abandonPass (upOf e.raw).layer).restoreLayer (upOf e.raw).imageH x (upOf e.raw).layer).2 = true →
    ∃ t, exec (.restore w q) s = .next t ∧
      (t.journal (upOf e.raw).layer).committed = y.entry.committed ∧ (t.journal (upOf e.raw).layer).digest = y.entry.digest ∧
      t.rd (Obj.fbState (upOf e.raw).layer) = y.form ∧ t.rd (Obj.fbQuiet (upOf e.raw).layer) = y.quiet ∧ (t.entry w q).map QEntry.unit = some true) ∧
  (∀ (s : State) (w : Fin 8) (q : Nat) (e : QEntry) (x : Image),
    s.entry w q = some e → e.disp = true → e.unit = false → e.skip = false → Rec.kind e.raw = 7 → Rec.op e.raw = 2 → (upOf e.raw).layer ≠ 0 →
    s.takenImage (upOf e.raw).imageH = some x →
    (s.writable (recKey w q) (((if (upOf e.raw).layer = 0 then s.mappedLayers else [(upOf e.raw).layer]).flatMap s.layerPages).eraseDups)).2 = true →
    (∀ a ∈ s.upd.arms, ¬ (a.win = w.val ∧ a.seq = q)) →
    (((s.writable (recKey w q) (((if (upOf e.raw).layer = 0 then s.mappedLayers else [(upOf e.raw).layer]).flatMap s.layerPages).eraseDups)).1.abandonPass (upOf e.raw).layer).restoreLayer (upOf e.raw).imageH x (upOf e.raw).layer).2 = false →
    ∃ t, exec (.restore w q) s = .next t ∧
      (t.journal (upOf e.raw).layer).state = 6 ∧ (∃ f, t.entry w q = some f ∧ f.unit = true ∧ f.status = (if e.status = 0 then 0x1B else e.status))) ∧
  (∀ (s : State) (w : Fin 8) (q : Nat) (e : QEntry) (x : Image),
    s.entry w q = some e → e.disp = true → e.unit = false → e.skip = false → Rec.kind e.raw = 7 → Rec.op e.raw = 2 → (upOf e.raw).layer ≠ 0 →
    s.takenImage (upOf e.raw).imageH = some x →
    (s.writable (recKey w q) (((if (upOf e.raw).layer = 0 then s.mappedLayers else [(upOf e.raw).layer]).flatMap s.layerPages).eraseDups)).2 = true →
    ∃ t, exec (.restore w q) s = .next t ∧
      (∀ a ∈ t.upd.arms, a ∈ s.upd.arms ∧ (a.layer = (upOf e.raw).layer → a.go = false))) ∧
  (∀ (s : State) (w : Fin 8) (q : Nat) (e : QEntry) (x : Image),
    s.entry w q = some e → e.disp = true → e.unit = false → e.skip = false → Rec.kind e.raw = 7 → Rec.op e.raw = 2 → (upOf e.raw).layer = 0 →
    s.takenImage (upOf e.raw).imageH = some x →
    (s.writable (recKey w q) (((if (upOf e.raw).layer = 0 then s.mappedLayers else [(upOf e.raw).layer]).flatMap s.layerPages).eraseDups)).2 = true →
    (∀ a ∈ s.upd.arms, ¬ (a.win = w.val ∧ a.seq = q)) →
    (((if (upOf e.raw).layer = 0 then s.mappedLayers else [(upOf e.raw).layer]).foldl (fun v l => v.abandonPass l) (s.writable (recKey w q) (((if (upOf e.raw).layer = 0 then s.mappedLayers else [(upOf e.raw).layer]).flatMap s.layerPages).eraseDups)).1).restoreLayers (upOf e.raw).imageH x s.mappedLayers).2 = [] →
    x.digest = some (((if (upOf e.raw).layer = 0 then s.mappedLayers else [(upOf e.raw).layer]).foldl (fun v l => v.abandonPass l) (s.writable (recKey w q) (((if (upOf e.raw).layer = 0 then s.mappedLayers else [(upOf e.raw).layer]).flatMap s.layerPages).eraseDups)).1).restoreLayers (upOf e.raw).imageH x s.mappedLayers).1.stepDigestNow →
    ∃ t, exec (.restore w q) s = .next t ∧
      t.rd Obj.lastCommittedStep = x.step ∧ t.rd Obj.stepDigestStep = x.step ∧ some (t.rd Obj.stepDigest) = x.digest ∧
      (t.entry w q).map QEntry.unit = some true) ∧
  (∀ (s : State) (w : Fin 8) (q : Nat) (e : QEntry) (x : Image),
    s.entry w q = some e → e.disp = true → e.unit = false → e.skip = false → Rec.kind e.raw = 7 → Rec.op e.raw = 2 → (upOf e.raw).layer = 0 →
    s.takenImage (upOf e.raw).imageH = some x →
    (s.writable (recKey w q) (((if (upOf e.raw).layer = 0 then s.mappedLayers else [(upOf e.raw).layer]).flatMap s.layerPages).eraseDups)).2 = true →
    (∀ a ∈ s.upd.arms, ¬ (a.win = w.val ∧ a.seq = q)) →
    ((((if (upOf e.raw).layer = 0 then s.mappedLayers else [(upOf e.raw).layer]).foldl (fun v l => v.abandonPass l) (s.writable (recKey w q) (((if (upOf e.raw).layer = 0 then s.mappedLayers else [(upOf e.raw).layer]).flatMap s.layerPages).eraseDups)).1).restoreLayers (upOf e.raw).imageH x s.mappedLayers).2 ≠ [] ∨ x.digest ≠ some (((if (upOf e.raw).layer = 0 then s.mappedLayers else [(upOf e.raw).layer]).foldl (fun v l => v.abandonPass l) (s.writable (recKey w q) (((if (upOf e.raw).layer = 0 then s.mappedLayers else [(upOf e.raw).layer]).flatMap s.layerPages).eraseDups)).1).restoreLayers (upOf e.raw).imageH x s.mappedLayers).1.stepDigestNow) →
    ∃ t, exec (.restore w q) s = .next t ∧
      t.rd Obj.lastCommittedStep = s.rd Obj.lastCommittedStep ∧
      (∃ f, t.entry w q = some f ∧ f.unit = true ∧ f.status = (if e.status = 0 then 0x1B else e.status))) ∧
  (∀ (s : State) (w : Fin 8) (q : Nat) (e : QEntry) (x : Image),
    s.entry w q = some e → e.disp = true → e.unit = false → e.skip = false → Rec.kind e.raw = 7 → Rec.op e.raw = 2 →
    s.takenImage (upOf e.raw).imageH = some x →
    (s.writable (recKey w q) (((if (upOf e.raw).layer = 0 then s.mappedLayers else [(upOf e.raw).layer]).flatMap s.layerPages).eraseDups)).2 = false →
    ∃ t, exec (.restore w q) s = .next t ∧
      t.upd = s.upd ∧ t.tier.mem = s.tier.mem ∧ t.cmd = s.cmd) ∧
  (∀ (s : State) (w : Fin 8) (q : Nat) (e : QEntry),
    s.entry w q = some e → e.disp = true → e.unit = false → e.skip = false → Rec.kind e.raw = 7 → Rec.op e.raw = 2 →
    s.takenImage (upOf e.raw).imageH = none → (∀ a ∈ s.upd.arms, ¬ (a.win = w.val ∧ a.seq = q)) →
    ∃ t, exec (.restore w q) s = .next t ∧
      (∃ f, t.entry w q = some f ∧ f.unit = true ∧ f.status = (if e.status = 0 then 0x1B else e.status)) ∧
      (∀ l ∈ (if (upOf e.raw).layer = 0 then s.mappedLayers else [(upOf e.raw).layer]), (t.journal l).state = 6) ∧ t.tier = s.tier) ∧
  (∀ (s : State) (w : Fin 8) (q : Nat),
    (s.entry w q).all (fun e => !(e.disp && !e.unit && !e.skip && Rec.kind e.raw == 7 && Rec.op e.raw == 0)) = true →
    ∃ t, exec (.updateMap w q) s = .next t ∧
      t = s) ∧
  (∀ (s : State) (w : Fin 8) (q : Nat),
    (s.entry w q).all (fun e => !(e.disp && !e.unit && !e.skip && Rec.kind e.raw == 7 && Rec.op e.raw == 1)) = true →
    ∃ t, exec (.update w q) s = .next t ∧
      t = s) ∧
  (∀ (s : State) (w : Fin 8) (q : Nat),
    (s.entry w q).all (fun e => !(e.disp && !e.unit && !e.skip && Rec.kind e.raw == 7 && Rec.op e.raw == 2)) = true →
    ∃ t, exec (.restore w q) s = .next t ∧
      t = s)

/-- A pass starts, its layer commits, interrupted passes are recovered and a missing record is reported. Each clause concludes that exec answers
a next state, under conditions on the state and the operands alone. Completes: updatePassStart, layerCommit, updateWatchdog, updateMissing. -/
def Obligations.LayersUpdateAndCommit : Prop :=
  (∀ (s : State) (l n : Nat) (ahead : List Nat) (a : UpdArm),
    s.passArm l (s.journal l).passStep = some a → s.chiselOn = true → (s.journal l).state = 2 → a.go = true → s.chiselFree = true →
    ∃ t, exec (.updatePassStart l n ahead) s = .next t ∧
      (t.journal l).state = 3 ∧ (t.journal l).rhoCur = s.rhoFor a ∧ (t.journal l).wrote = min n (s.clearTo l 0) ∧ (t.journal l).restarts = 0 ∧
      t.upd.arms = s.upd.arms) ∧
  (∀ (s : State) (l n : Nat) (ahead : List Nat) (a : UpdArm),
    s.passArm l (s.journal l).passStep = some a → s.chiselOn = true → (s.journal l).state = 3 →
    ∃ t, exec (.updatePassStart l n ahead) s = .next t ∧
      t = (s.passTo a n ahead).landHeld.compareStart ∧ (t.journal l).state = 3 ∧
      (t.journal l).wrote = min (max n (s.journal l).wrote) ((s.journal l).wrote + s.clearTo l (s.journal l).wrote) ∧ t.upd.arms = s.upd.arms) ∧
  (∀ (s : State) (l n : Nat) (ahead : List Nat) (a : UpdArm),
    s.passArm l (s.journal l).passStep = some a → s.chiselOn = true → (s.journal l).state = 5 →
    ∃ t, exec (.updatePassStart l n ahead) s = .next t ∧
      t = (s.recoverOn l).landHeld.compareStart) ∧
  (∀ (s : State) (l n : Nat) (ahead : List Nat) (a : UpdArm),
    s.passArm l (s.journal l).passStep = some a →
    (s.chiselOn = false ∨ ((s.journal l).state ≠ 3 ∧ (s.journal l).state ≠ 5 ∧ ((s.journal l).state ≠ 2 ∨ a.go = false ∨ s.chiselFree = false))) →
    ∃ t, exec (.updatePassStart l n ahead) s = .next t ∧
      t.upd = s.upd) ∧
  (∀ (s : State) (l n : Nat) (ahead : List Nat),
    s.passArm l (s.journal l).passStep = none →
    ∃ t, exec (.updatePassStart l n ahead) s = .next t ∧
      t.upd = s.upd) ∧
  (∀ (s : State) (l : Nat) (a : UpdArm),
    s.passArm l (s.journal l).passStep = some a → s.chiselOn = true → (s.journal l).state = 3 → (s.passTo a (s.layerTiles l) []).passDone l = true →
    ∃ t, exec (.layerCommit l) s = .next t ∧
      (t.journal l).committed = a.step ∧ (t.journal l).digest = (s.passTo a (s.layerTiles l) []).digestOf l ∧ t.upd.arms = s.upd.arms.erase a ∧
      (∀ f, s.entry a.win a.seq = some f → (t.entry a.win a.seq).map QEntry.unit = some true)) ∧
  (∀ (s : State) (l : Nat) (a : UpdArm),
    s.passArm l (s.journal l).passStep = some a → s.chiselOn = true → (s.journal l).state = 3 → (s.passTo a (s.layerTiles l) []).passDone l = false →
    ∃ t, exec (.layerCommit l) s = .next t ∧
      t = (s.passTo a (s.layerTiles l) []).landHeld.compareStart ∧ (t.journal l).state = 3 ∧ t.upd.arms = s.upd.arms) ∧
  (∀ (s : State) (l : Nat),
    (s.passArm l (s.journal l).passStep = none ∨ (s.journal l).state ≠ 3 ∨ s.chiselOn = false) →
    ∃ t, exec (.layerCommit l) s = .next t ∧
      t.upd = s.upd) ∧
  (∀ (s : State) (l : Nat) (a : UpdArm),
    ((s.upd.journal.filter fun j => decide (3 ≤ j.2.state ∧ j.2.state ≤ 5)).map Prod.fst = [l]) → s.passArm l (s.journal l).passStep = some a →
    (s.writable (recKey a.win a.seq) (s.layerPages l)).2 = true →
    ∃ t, exec (.updateWatchdog) s = .next t ∧
      t.rd Obj.updRestarts = min (s.rd Obj.updRestarts + 1) (2 ^ 32 - 1) ∧
      (t.journal l).state = 1 ∨ (t.journal l).state = 2 ∨ (t.journal l).state = 6) ∧
  (∀ (s : State),
    ((s.upd.journal.filter fun j => decide (3 ≤ j.2.state ∧ j.2.state ≤ 5)).map Prod.fst ≠ [] ∨ s.arrayOn = true) →
    ∃ t, exec (.updateWatchdog) s = .next t ∧
      t = (((s.upd.journal.filter fun j => decide (3 ≤ j.2.state ∧ j.2.state ≤ 5)).map Prod.fst).foldl (fun v l => v.recover l) ((s.raise Ev.updateRestart []).countSat Obj.updRestarts 1)).landHeld.compareStart) ∧
  (∀ (s : State),
    ((s.upd.journal.filter fun j => decide (3 ≤ j.2.state ∧ j.2.state ≤ 5)).map Prod.fst = []) → s.arrayOn = false →
    ∃ t, exec (.updateWatchdog) s = .next t ∧
      t.upd = s.upd ∧ t.rd Obj.updRestarts = s.rd Obj.updRestarts) ∧
  (∀ (s : State) (n l f : Nat),
    s.cmd.stepNow = some n → s.heldBack n = some l → s.upd.waitFrom = some f → s.upd.waitTold = false → s.rd Obj.syncTimeoutMs * ms ≤ s.now - f →
    ∃ t, exec (.updateMissing) s = .next t ∧
      t.upd = { s.upd with waitTold := true } ∧ t.cmd = s.cmd ∧
      t.rd (Obj.occurrences (Ev.updateMissing / 256 - 1) (Ev.updateMissing % 256)) = (s.rd (Obj.occurrences (Ev.updateMissing / 256 - 1) (Ev.updateMissing % 256)) + 1) % 2 ^ 32) ∧
  (∀ (s : State) (n : Nat),
    s.cmd.stepNow = some n → (s.heldBack n = none ∨ s.upd.waitTold = true ∨ s.now - s.upd.waitFrom.getD s.now < s.rd Obj.syncTimeoutMs * ms) →
    ∃ t, exec (.updateMissing) s = .next t ∧
      t = s.noteHeld) ∧
  (∀ (s : State),
    s.cmd.stepNow = none →
    ∃ t, exec (.updateMissing) s = .next t ∧
      t = s)

/-- A step commits when everything it needs is in place. Each clause concludes that exec answers a next state, under conditions on the state and
the operands alone. Completes: stepCommit. -/
def Obligations.StepsCommit : Prop :=
  (∀ (s : State) (n : Nat),
    s.cmd.stepNow = some n → s.commitReady n = true → (∀ x ∈ s.staged ++ s.prep, x.1 ≠ Obj.lastCommittedStep) →
    ∃ t, exec (.stepCommit) s = .next t ∧
      t.rd Obj.lastCommittedStep = n ∧ (∀ (w : Fin 8) (m : Nat), m ∈ (t.win w).steps → n < m) ∧ t.cmd.stepNow ≠ some n) ∧
  (∀ (s : State) (n : Nat),
    s.cmd.stepNow = some n → s.commitReady n = false →
    ∃ t, exec (.stepCommit) s = .next t ∧
      t = s.noteHeld ∧ t.rd Obj.lastCommittedStep = s.rd Obj.lastCommittedStep ∧ t.cmd = s.cmd) ∧
  (∀ (s : State),
    s.cmd.stepNow = none →
    ∃ t, exec (.stepCommit) s = .next t ∧
      t = s)

/-- Mode records prepare and cancel; digests are compared and a verdict is reached. Each clause concludes that exec answers a next state, under
conditions on the state and the operands alone. Completes: modePrepare, modeCancel, digestVerdict. -/
def Obligations.ModeRecordsAndVerdicts : Prop :=
  (∀ (s : State) (w : Fin 8) (q : Nat) (e : QEntry),
    s.entry w q = some e → e.disp = true → e.unit = false → e.skip = false → Rec.kind e.raw = 10 → Rec.op e.raw = 0 → s.coll.prepare = none →
    ∃ t, exec (.modePrepare w q) s = .next t ∧
      t.coll.prepare = some { win := w, seq := e.seq, epoch := Rec.w e.raw 1 63 32, step := Rec.w e.raw 2 63 0, fwActivate := Rec.w e.raw 0 59 59 == 1 } ∧
      t.prep = (s.coll.snaps.find (recKey w q)).getD s.staged ∧ t.rd Obj.prepEpoch = Rec.w e.raw 1 63 32 ∧ t.rd Obj.prepStep = Rec.w e.raw 2 63 0 ∧
      t.cmd = s.cmd) ∧
  (∀ (s : State) (w : Fin 8) (q : Nat) (e : QEntry),
    s.entry w q = some e → e.disp = true → e.unit = false → e.skip = false → Rec.kind e.raw = 10 → Rec.op e.raw = 0 → s.coll.prepare.isSome = true →
    ∃ t, exec (.modePrepare w q) s = .next t ∧
      t = s) ∧
  (∀ (s : State) (w : Fin 8) (q : Nat) (e : QEntry),
    s.entry w q = some e → e.disp = true → e.unit = false → e.skip = false → Rec.kind e.raw = 10 → Rec.op e.raw = 1 → s.coll.prepare = none →
    ∃ t, exec (.modeCancel w q) s = .next t ∧
      (t.entry w q).map QEntry.unit = some true ∧ t.coll = s.coll ∧ t.prep = s.prep) ∧
  (∀ (s : State) (w : Fin 8) (q : Nat) (e : QEntry) (p : Prepare),
    s.entry w q = some e → e.disp = true → e.unit = false → e.skip = false → Rec.kind e.raw = 10 → Rec.op e.raw = 1 → s.coll.prepare = some p →
    ∃ t, exec (.modeCancel w q) s = .next t ∧
      t.coll.prepare = none ∧ t.prep = [] ∧ t.rd Obj.prepEpoch = 0 ∧ t.rd Obj.prepStep = 0 ∧ (t.entry w q).map QEntry.unit = some true ∧
      (∀ f, s.entry p.win p.seq = some f → (t.entry p.win p.seq).map QEntry.unit = some true)) ∧
  (∀ (s : State) (c : Compare) (v : Nat),
    s.coll.compare = some c → c.told = false → s.copiesIn c = true → majority (s.copiesOf c) = some v →
    (c.copies.filter fun x => some x.2.1 != some v && s.isMember x.1) = [] → (c.copies.any fun x => x.2.1 == v && s.isMember x.1) = true →
    ((∀ x ∈ s.copiesOf c, x = v) ∨ 3 ≤ (s.copiesOf c).length) →
    ∃ t, exec (.digestVerdict) s = .next t ∧
      t.rd Obj.lastVerdict = 1 ∧ t.rd Obj.lastComparedStep = c.step ∧ t.rd Obj.oddMembers = 0 ∧ t.cmd = s.cmd ∧
      t.coll.compare = some { c with told := true, own := v }) ∧
  (∀ (s : State) (c : Compare),
    s.coll.compare = some c → c.told = false → s.copiesIn c = true → majority (s.copiesOf c) = none →
    ∃ t, exec (.digestVerdict) s = .next t ∧
      t.rd Obj.lastVerdict = 3 ∧ t.rd Obj.lastComparedStep = c.step ∧ t.cmd.stepNow = none ∧ t.spans = []) ∧
  (∀ (s : State) (c : Compare) (v : Nat),
    s.coll.compare = some c → c.told = false → s.copiesIn c = true → majority (s.copiesOf c) = some v →
    (c.copies.any fun x => x.2.1 == v && s.isMember x.1) = true →
    ((c.copies.filter fun x => some x.2.1 != majority (s.copiesOf c) && s.isMember x.1).map Prod.fst) ≠ [] → 3 ≤ (s.copiesOf c).length →
    (((c.copies.filter fun x => some x.2.1 != majority (s.copiesOf c) && s.isMember x.1).map Prod.fst).contains s.ownModule = false ∨ s.coll.early = []) →
    ∃ t, exec (.digestVerdict) s = .next t ∧
      t.rd Obj.lastVerdict = 2 ∧ t.rd Obj.lastComparedStep = c.step ∧
      t.rd Obj.oddMembers = ((c.copies.filter fun x => some x.2.1 != majority (s.copiesOf c) && s.isMember x.1).map Prod.fst).length ∧
      t.rd Obj.digestRepairs = min (s.rd Obj.digestRepairs + 1) (2 ^ 32 - 1) ∧ t.cmd.stepNow = none) ∧
  (∀ (s : State) (c : Compare),
    s.coll.compare = some c → (c.told = true ∨ s.copiesIn c = false) →
    ∃ t, exec (.digestVerdict) s = .next t ∧
      t = s) ∧
  (∀ (s : State),
    s.coll.compare = none →
    ∃ t, exec (.digestVerdict) s = .next t ∧
      t = s) ∧
  (∀ (s : State) (w : Fin 8) (q : Nat),
    (s.entry w q).all (fun e => !(e.disp && !e.unit && !e.skip && Rec.kind e.raw == 10 && Rec.op e.raw == 0)) = true →
    ∃ t, exec (.modePrepare w q) s = .next t ∧
      t = s) ∧
  (∀ (s : State) (w : Fin 8) (q : Nat),
    (s.entry w q).all (fun e => !(e.disp && !e.unit && !e.skip && Rec.kind e.raw == 10 && Rec.op e.raw == 1)) = true →
    ∃ t, exec (.modeCancel w q) s = .next t ∧
      t = s)

/-- Collective records start once the epochs of the members agree. Each clause concludes that exec answers a next state, under conditions on the
state and the operands alone. Completes: collectiveOpen, collectiveReduce, collectiveGather, agree, scalar, sumPageEvict. -/
def Obligations.CollectiveRecordsStart : Prop :=
  (∀ (s : State) (w : Fin 8) (q : Nat) (e : QEntry),
    s.entry w q = some e → e.disp = true → e.unit = false → e.skip = false → Rec.kind e.raw = 6 → Rec.op e.raw = 0 →
    (s.epochWait (e.step.getD 0)).2 = true →
    ∃ t, exec (.collectiveOpen w q) s = .next t ∧
      (t.entry w q).map QEntry.unit = some true ∧
      (∃ x, t.spans.find (coOf e.raw).span = some x ∧ (s.spans.find (coOf e.raw).span = none → x.blocks = (coOf e.raw).len ∧ x.uLoc = (coOf e.raw).uLoc ∧ x.sums = [] ∧ x.win = w.val ∧ x.seq = q))) ∧
  (∀ (s : State) (w : Fin 8) (q : Nat) (e : QEntry),
    s.entry w q = some e → e.disp = true → e.unit = false → e.skip = false → Rec.kind e.raw = 6 → Rec.op e.raw = 0 →
    (s.epochWait (e.step.getD 0)).2 = false →
    ∃ t, exec (.collectiveOpen w q) s = .next t ∧
      t = (s.epochWait (e.step.getD 0)).1 ∧ t.spans = s.spans ∧ t.coll.jobs = s.coll.jobs ∧ t.cmd = s.cmd) ∧
  (∀ (s : State) (w : Fin 8) (q : Nat) (e : QEntry) (x : Span),
    s.entry w q = some e → e.disp = true → e.unit = false → e.skip = false → Rec.kind e.raw = 6 → Rec.op e.raw = 1 →
    (s.epochWait (e.step.getD 0)).2 = true → s.spans.find (coOf e.raw).span = some x →
    (s.running.any fun p => Rec.kind p.2.raw == 1 && !p.2.skip && decide (p.2.order < e.order) && (mxOf p.2.raw).dest == 2 && (mxOf p.2.raw).oOff % 1024 == (coOf e.raw).span) = false →
    s.job (recKey w q) = none →
    ∃ t, exec (.collectiveReduce w q) s = .next t ∧
      (∃ u : State, (∃ j, u.job (recKey w q) = some j ∧ j.op = 1 ∧ j.raw = e.raw ∧ j.blocks = x.blocks ∧ j.step = e.step.getD 0) ∧ t = u.openInbox.reduceDone (recKey w q))) ∧
  (∀ (s : State) (w : Fin 8) (q : Nat) (e : QEntry),
    s.entry w q = some e → e.disp = true → e.unit = false → e.skip = false → Rec.kind e.raw = 6 → Rec.op e.raw = 1 →
    (s.epochWait (e.step.getD 0)).2 = true →
    (s.spans.find (coOf e.raw).span = none ∨ (s.running.any fun p => Rec.kind p.2.raw == 1 && !p.2.skip && decide (p.2.order < e.order) && (mxOf p.2.raw).dest == 2 && (mxOf p.2.raw).oOff % 1024 == (coOf e.raw).span) = true ∨ (s.job (recKey w q)).isSome = true) →
    ∃ t, exec (.collectiveReduce w q) s = .next t ∧
      t = (s.epochWait (e.step.getD 0)).1 ∧ t.spans = s.spans ∧ t.coll.jobs = s.coll.jobs ∧ t.cmd = s.cmd) ∧
  (∀ (s : State) (w : Fin 8) (q : Nat) (e : QEntry),
    s.entry w q = some e → e.disp = true → e.unit = false → e.skip = false → Rec.kind e.raw = 6 → Rec.op e.raw = 1 →
    (s.epochWait (e.step.getD 0)).2 = false →
    ∃ t, exec (.collectiveReduce w q) s = .next t ∧
      t = (s.epochWait (e.step.getD 0)).1 ∧ t.spans = s.spans ∧ t.coll.jobs = s.coll.jobs ∧ t.cmd = s.cmd) ∧
  (∀ (s : State) (w : Fin 8) (q : Nat) (e : QEntry),
    s.entry w q = some e → e.disp = true → e.unit = false → e.skip = false → Rec.kind e.raw = 6 → Rec.op e.raw = 2 →
    (s.epochWait (e.step.getD 0)).2 = true → s.job (recKey w q) = none →
    ((if (coOf e.raw).root = 0x1FF ∨ (coOf e.raw).root = (s.epochWait (e.step.getD 0)).1.ownRank then (s.epochWait (e.step.getD 0)).1.access (recKey w q) 1 (coOf e.raw).srcH (pagesOf (coOf e.raw).srcOff (coOf e.raw).part) else ((s.epochWait (e.step.getD 0)).1, .ready)).2 = .ready) →
    (((if (coOf e.raw).root = 0x1FF ∨ (coOf e.raw).root = (s.epochWait (e.step.getD 0)).1.ownRank then (s.epochWait (e.step.getD 0)).1.access (recKey w q) 1 (coOf e.raw).srcH (pagesOf (coOf e.raw).srcOff (coOf e.raw).part) else ((s.epochWait (e.step.getD 0)).1, .ready)).1.access (recKey w q) 1 (coOf e.raw).gDstH (pagesOf (coOf e.raw).gDstOff ((coOf e.raw).part * ((coOf e.raw).senders (if (coOf e.raw).root = 0x1FF ∨ (coOf e.raw).root = (s.epochWait (e.step.getD 0)).1.ownRank then (s.epochWait (e.step.getD 0)).1.access (recKey w q) 1 (coOf e.raw).srcH (pagesOf (coOf e.raw).srcOff (coOf e.raw).part) else ((s.epochWait (e.step.getD 0)).1, .ready)).1.groupN).length))).2 = .ready) →
    (coOf e.raw).part = 0 →
    ∃ t, exec (.collectiveGather w q) s = .next t ∧
      t.coll.gathers = s.coll.gathers + 1 ∧ (t.entry w q).map QEntry.unit = some true) ∧
  (∀ (s : State) (w : Fin 8) (q : Nat) (e : QEntry),
    s.entry w q = some e → e.disp = true → e.unit = false → e.skip = false → Rec.kind e.raw = 6 → Rec.op e.raw = 2 →
    (s.epochWait (e.step.getD 0)).2 = true → s.job (recKey w q) = none →
    ((if (coOf e.raw).root = 0x1FF ∨ (coOf e.raw).root = (s.epochWait (e.step.getD 0)).1.ownRank then (s.epochWait (e.step.getD 0)).1.access (recKey w q) 1 (coOf e.raw).srcH (pagesOf (coOf e.raw).srcOff (coOf e.raw).part) else ((s.epochWait (e.step.getD 0)).1, .ready)).2 = .ready) →
    (((if (coOf e.raw).root = 0x1FF ∨ (coOf e.raw).root = (s.epochWait (e.step.getD 0)).1.ownRank then (s.epochWait (e.step.getD 0)).1.access (recKey w q) 1 (coOf e.raw).srcH (pagesOf (coOf e.raw).srcOff (coOf e.raw).part) else ((s.epochWait (e.step.getD 0)).1, .ready)).1.access (recKey w q) 1 (coOf e.raw).gDstH (pagesOf (coOf e.raw).gDstOff ((coOf e.raw).part * ((coOf e.raw).senders (if (coOf e.raw).root = 0x1FF ∨ (coOf e.raw).root = (s.epochWait (e.step.getD 0)).1.ownRank then (s.epochWait (e.step.getD 0)).1.access (recKey w q) 1 (coOf e.raw).srcH (pagesOf (coOf e.raw).srcOff (coOf e.raw).part) else ((s.epochWait (e.step.getD 0)).1, .ready)).1.groupN).length))).2 = .ready) →
    (coOf e.raw).part ≠ 0 →
    ∃ t, exec (.collectiveGather w q) s = .next t ∧
      (∃ u : State, u.coll.gathers = s.coll.gathers + 1 ∧ (q < 2 ^ 32 → ((u.job (recKey w q)).isSome = true ∨ (u.entry w q).map QEntry.unit = some true)) ∧ t = u.openInbox)) ∧
  (∀ (s : State) (w : Fin 8) (q : Nat) (e : QEntry),
    s.entry w q = some e → e.disp = true → e.unit = false → e.skip = false → Rec.kind e.raw = 6 → Rec.op e.raw = 2 →
    (s.epochWait (e.step.getD 0)).2 = true →
    ((if (coOf e.raw).root = 0x1FF ∨ (coOf e.raw).root = (s.epochWait (e.step.getD 0)).1.ownRank then (s.epochWait (e.step.getD 0)).1.access (recKey w q) 1 (coOf e.raw).srcH (pagesOf (coOf e.raw).srcOff (coOf e.raw).part) else ((s.epochWait (e.step.getD 0)).1, .ready)).2 = .waiting ∨ ((if (coOf e.raw).root = 0x1FF ∨ (coOf e.raw).root = (s.epochWait (e.step.getD 0)).1.ownRank then (s.epochWait (e.step.getD 0)).1.access (recKey w q) 1 (coOf e.raw).srcH (pagesOf (coOf e.raw).srcOff (coOf e.raw).part) else ((s.epochWait (e.step.getD 0)).1, .ready)).1.access (recKey w q) 1 (coOf e.raw).gDstH (pagesOf (coOf e.raw).gDstOff ((coOf e.raw).part * ((coOf e.raw).senders (if (coOf e.raw).root = 0x1FF ∨ (coOf e.raw).root = (s.epochWait (e.step.getD 0)).1.ownRank then (s.epochWait (e.step.getD 0)).1.access (recKey w q) 1 (coOf e.raw).srcH (pagesOf (coOf e.raw).srcOff (coOf e.raw).part) else ((s.epochWait (e.step.getD 0)).1, .ready)).1.groupN).length))).2 = .waiting ∨ (s.job (recKey w q)).isSome = true) →
    ∃ t, exec (.collectiveGather w q) s = .next t ∧
      t.coll.gathers = s.coll.gathers ∧ t.coll.jobs = s.coll.jobs ∧ t.tier.mem = s.tier.mem ∧ t.cmd = s.cmd) ∧
  (∀ (s : State) (w : Fin 8) (q : Nat) (e : QEntry),
    s.entry w q = some e → e.disp = true → e.unit = false → e.skip = false → Rec.kind e.raw = 6 → Rec.op e.raw = 2 →
    (s.epochWait (e.step.getD 0)).2 = false →
    ∃ t, exec (.collectiveGather w q) s = .next t ∧
      t = (s.epochWait (e.step.getD 0)).1 ∧ t.spans = s.spans ∧ t.coll.jobs = s.coll.jobs ∧ t.cmd = s.cmd) ∧
  (∀ (s : State) (w : Fin 8) (q : Nat) (e : QEntry),
    s.entry w q = some e → e.disp = true → e.unit = false → e.skip = false → Rec.kind e.raw = 6 → Rec.op e.raw = 3 →
    (s.epochWait (e.step.getD 0)).2 = true → s.job (recKey w q) = none →
    ∃ t, exec (.agree w q) s = .next t ∧
      (∃ u : State, u.coll.agrees = s.coll.agrees + 1 ∧ (q < 2 ^ 32 → ((u.job (recKey w q)).isSome = true ∨ (u.entry w q).map QEntry.unit = some true)) ∧ t = u.openInbox)) ∧
  (∀ (s : State) (w : Fin 8) (q : Nat) (e : QEntry),
    s.entry w q = some e → e.disp = true → e.unit = false → e.skip = false → Rec.kind e.raw = 6 → Rec.op e.raw = 3 →
    (s.epochWait (e.step.getD 0)).2 = true → (s.job (recKey w q)).isSome = true →
    ∃ t, exec (.agree w q) s = .next t ∧
      t = (s.epochWait (e.step.getD 0)).1 ∧ t.coll.jobs = s.coll.jobs ∧ t.cmd = s.cmd) ∧
  (∀ (s : State) (w : Fin 8) (q : Nat) (e : QEntry),
    s.entry w q = some e → e.disp = true → e.unit = false → e.skip = false → Rec.kind e.raw = 6 → Rec.op e.raw = 3 →
    (s.epochWait (e.step.getD 0)).2 = false →
    ∃ t, exec (.agree w q) s = .next t ∧
      t = (s.epochWait (e.step.getD 0)).1 ∧ t.spans = s.spans ∧ t.coll.jobs = s.coll.jobs ∧ t.cmd = s.cmd) ∧
  (∀ (s : State) (w : Fin 8) (q : Nat) (e : QEntry),
    s.entry w q = some e → e.disp = true → e.unit = false → e.skip = false → Rec.kind e.raw = 6 → Rec.op e.raw = 4 →
    (s.epochWait (e.step.getD 0)).2 = true → s.job (recKey w q) = none →
    ∃ t, exec (.scalar w q) s = .next t ∧
      (∃ u : State, u.coll.scalars = s.coll.scalars + 1 ∧ (q < 2 ^ 32 → ((u.job (recKey w q)).isSome = true ∨ (u.entry w q).map QEntry.unit = some true)) ∧ t = u.openInbox)) ∧
  (∀ (s : State) (w : Fin 8) (q : Nat) (e : QEntry),
    s.entry w q = some e → e.disp = true → e.unit = false → e.skip = false → Rec.kind e.raw = 6 → Rec.op e.raw = 4 →
    (s.epochWait (e.step.getD 0)).2 = true → (s.job (recKey w q)).isSome = true →
    ∃ t, exec (.scalar w q) s = .next t ∧
      t = (s.epochWait (e.step.getD 0)).1 ∧ t.coll.jobs = s.coll.jobs ∧ t.cmd = s.cmd) ∧
  (∀ (s : State) (w : Fin 8) (q : Nat) (e : QEntry),
    s.entry w q = some e → e.disp = true → e.unit = false → e.skip = false → Rec.kind e.raw = 6 → Rec.op e.raw = 4 →
    (s.epochWait (e.step.getD 0)).2 = false →
    ∃ t, exec (.scalar w q) s = .next t ∧
      t = (s.epochWait (e.step.getD 0)).1 ∧ t.spans = s.spans ∧ t.coll.jobs = s.coll.jobs ∧ t.cmd = s.cmd) ∧
  (∀ (s : State),
    1024 ≤ s.bufferPages.length →
    ∃ t, exec (.sumPageEvict) s = .next t ∧
      (∃ b ∈ s.bufferPages, (∀ y ∈ s.bufferPages, b.1 ≤ y.1) ∧ ∀ x, s.spans.find b.2.1 = some x → t.spans.find b.2.1 = some { x with evicted := setIns x.evicted b.2.2 }) ∧
      t.tier = s.tier) ∧
  (∀ (s : State),
    s.bufferPages.length < 1024 →
    ∃ t, exec (.sumPageEvict) s = .next t ∧
      t = s) ∧
  (∀ (s : State) (w : Fin 8) (q : Nat),
    (s.entry w q).all (fun e => !(e.disp && !e.unit && !e.skip && Rec.kind e.raw == 6 && Rec.op e.raw == 0)) = true →
    ∃ t, exec (.collectiveOpen w q) s = .next t ∧
      t = s) ∧
  (∀ (s : State) (w : Fin 8) (q : Nat),
    (s.entry w q).all (fun e => !(e.disp && !e.unit && !e.skip && Rec.kind e.raw == 6 && Rec.op e.raw == 1)) = true →
    ∃ t, exec (.collectiveReduce w q) s = .next t ∧
      t = s) ∧
  (∀ (s : State) (w : Fin 8) (q : Nat),
    (s.entry w q).all (fun e => !(e.disp && !e.unit && !e.skip && Rec.kind e.raw == 6 && Rec.op e.raw == 2)) = true →
    ∃ t, exec (.collectiveGather w q) s = .next t ∧
      t = s) ∧
  (∀ (s : State) (w : Fin 8) (q : Nat),
    (s.entry w q).all (fun e => !(e.disp && !e.unit && !e.skip && Rec.kind e.raw == 6 && Rec.op e.raw == 3)) = true →
    ∃ t, exec (.agree w q) s = .next t ∧
      t = s) ∧
  (∀ (s : State) (w : Fin 8) (q : Nat),
    (s.entry w q).all (fun e => !(e.disp && !e.unit && !e.skip && Rec.kind e.raw == 6 && Rec.op e.raw == 4)) = true →
    ∃ t, exec (.scalar w q) s = .next t ∧
      t = s)

/-- A message of the current step and mode from a member is taken by the record it is for. Each clause concludes that exec answers a next state,
under conditions on the state and the operands alone. Completes: msgExponent, msgAgreed, msgData, msgResult, msgGather, msgScalar,
msgScalarResult, msgResend, chunkWait, resultRequest. -/
def Obligations.CollectiveMessagesAreTaken : Prop :=
  (∀ (s : State) (m : Msg) (key : Nat) (j : Job),
    s.fromMember m = true → m.step = s.abortTarget → m.epoch = s.rd Obj.modeEpoch → m.digest = s.modeCrc →
    s.jobOf { m with mtype := 0x10 } = some key → s.job key = some j → m.index < 0xFFFF0000 → m.index < j.nChunks →
    hasBit (j.chunk m.index).expGot (s.rankOf m.src) = false →
    ∃ t, exec (.msgExponent m) s = .next t ∧
      (t.job key = none ∨ (∃ y, t.job key = some y ∧ hasBit (y.chunk m.index).expGot (s.rankOf m.src) = true))) ∧
  (∀ (s : State) (m : Msg) (key : Nat) (j : Job),
    s.fromMember m = true → m.step = s.abortTarget → m.epoch = s.rd Obj.modeEpoch → m.digest = s.modeCrc →
    s.jobOf { m with mtype := 0x10 } = some key → s.job key = some j → m.index < 0xFFFF0000 →
    hasBit (j.chunk m.index).expGot (s.rankOf m.src) = true →
    ∃ t, exec (.msgExponent m) s = .next t ∧
      t.coll.jobs = s.coll.jobs ∧ t.tier.mem = s.tier.mem) ∧
  (∀ (s : State) (m : Msg) (key : Nat) (j : Job),
    s.fromMember m = true → m.step = s.abortTarget → m.epoch = s.rd Obj.modeEpoch → m.digest = s.modeCrc →
    s.jobOf { m with mtype := 0x10 } = some key → s.job key = some j → 0xFFFF0000 ≤ m.index → hasBit j.heard (s.rankOf m.src) = false →
    ∃ t, exec (.msgExponent m) s = .next t ∧
      (t.job key = none ∨ (∃ y, t.job key = some y ∧ hasBit y.heard (s.rankOf m.src) = true))) ∧
  (∀ (s : State) (m : Msg) (key : Nat) (j : Job),
    s.fromMember m = true → m.step = s.abortTarget → m.epoch = s.rd Obj.modeEpoch → m.digest = s.modeCrc →
    s.jobOf { m with mtype := 0x10 } = some key → s.job key = some j → 0xFFFF0000 ≤ m.index → hasBit j.heard (s.rankOf m.src) = true →
    ∃ t, exec (.msgExponent m) s = .next t ∧
      t.coll.jobs = s.coll.jobs ∧ t.rd Obj.collDuplicates = (s.rd Obj.collDuplicates + 1) % 2 ^ 64 ∧ t.tier.mem = s.tier.mem) ∧
  (∀ (s : State) (m : Msg) (key : Nat) (j : Job),
    s.fromMember m = true → m.step = s.abortTarget → m.epoch = s.rd Obj.modeEpoch → m.digest = s.modeCrc →
    s.jobOf { m with mtype := 0x11 } = some key → s.job key = some j → m.index < 0xFFFF0000 → m.index < j.nChunks →
    ∃ t, exec (.msgAgreed m) s = .next t ∧
      (t.job key = none ∨ (∃ y, t.job key = some y ∧ (y.chunk m.index).sentAt.isSome = true))) ∧
  (∀ (s : State) (m : Msg) (key : Nat) (j : Job),
    s.fromMember m = true → m.step = s.abortTarget → m.epoch = s.rd Obj.modeEpoch → m.digest = s.modeCrc →
    s.jobOf { m with mtype := 0x11 } = some key → s.job key = some j → 0xFFFF0000 ≤ m.index →
    ∃ t, exec (.msgAgreed m) s = .next t ∧
      t.job key = none ∧
      t.tile.scratch = (s.putBytes (coOf j.raw).tile false (m.body.zipIdx.map fun x => ((coOf j.raw).off + x.2, x.1.toNat))).tile.scratch) ∧
  (∀ (s : State) (m : Msg) (key : Nat) (j : Job),
    s.fromMember m = true → m.step = s.abortTarget → m.epoch = s.rd Obj.modeEpoch → m.digest = s.modeCrc →
    s.jobOf { m with mtype := 0x12 } = some key → s.job key = some j → m.index < 0xFFFF0000 →
    hasBit (j.chunk m.index).ranks (s.rankOf m.src) = false →
    ∃ t, exec (.msgData m) s = .next t ∧
      (∃ y, t.job key = some y ∧ hasBit (y.chunk m.index).ranks (s.rankOf m.src) = true ∧ (y.chunk m.index).firstAt.isSome = true)) ∧
  (∀ (s : State) (m : Msg) (key : Nat) (j : Job),
    s.fromMember m = true → m.step = s.abortTarget → m.epoch = s.rd Obj.modeEpoch → m.digest = s.modeCrc →
    s.jobOf { m with mtype := 0x12 } = some key → s.job key = some j → hasBit (j.chunk m.index).ranks (s.rankOf m.src) = true →
    ∃ t, exec (.msgData m) s = .next t ∧
      t.coll.jobs = s.coll.jobs ∧ t.rd Obj.collDuplicates = (s.rd Obj.collDuplicates + 1) % 2 ^ 64 ∧ t.tier.mem = s.tier.mem) ∧
  (∀ (s : State) (m : Msg) (key : Nat) (j : Job),
    s.fromMember m = true → m.step = s.abortTarget → m.epoch = s.rd Obj.modeEpoch → m.digest = s.modeCrc →
    s.jobOf { m with mtype := 0x13 } = some key → s.job key = some j → (coOf j.raw).rfmt ≠ 1 → (j.chunk m.index).landed = false →
    hasBit (j.chunk m.index).parts 0 = false →
    ∃ t, exec (.msgResult m) s = .next t ∧
      (∃ y, t.job key = some y ∧ hasBit (y.chunk m.index).parts 0 = true)) ∧
  (∀ (s : State) (m : Msg) (key : Nat) (j : Job),
    s.fromMember m = true → m.step = s.abortTarget → m.epoch = s.rd Obj.modeEpoch → m.digest = s.modeCrc →
    s.jobOf { m with mtype := 0x13 } = some key → s.job key = some j → (coOf j.raw).rfmt = 1 → (j.chunk (m.index / 2)).landed = false →
    hasBit (j.chunk (m.index / 2)).parts (m.index % 2) = false →
    ∃ t, exec (.msgResult m) s = .next t ∧
      (∃ y, t.job key = some y ∧ hasBit (y.chunk (m.index / 2)).parts (m.index % 2) = true)) ∧
  (∀ (s : State) (m : Msg) (key : Nat) (j : Job),
    s.fromMember m = true → m.step = s.abortTarget → m.epoch = s.rd Obj.modeEpoch → m.digest = s.modeCrc →
    s.jobOf { m with mtype := 0x13 } = some key → s.job key = some j →
    (((coOf j.raw).rfmt ≠ 1 ∧ ((j.chunk m.index).landed = true ∨ hasBit (j.chunk m.index).parts 0 = true)) ∨ ((coOf j.raw).rfmt = 1 ∧ ((j.chunk (m.index / 2)).landed = true ∨ hasBit (j.chunk (m.index / 2)).parts (m.index % 2) = true))) →
    ∃ t, exec (.msgResult m) s = .next t ∧
      t.coll.jobs = s.coll.jobs ∧ t.rd Obj.collDuplicates = (s.rd Obj.collDuplicates + 1) % 2 ^ 64 ∧ t.tier.mem = s.tier.mem) ∧
  (∀ (s : State) (m : Msg) (key : Nat) (j : Job),
    s.fromMember m = true → m.step = s.abortTarget → m.epoch = s.rd Obj.modeEpoch → m.digest = s.modeCrc →
    s.jobOf { m with mtype := 0x15 } = some key → s.job key = some j → j.inputs.find ((s.rankOf m.src) * 2 ^ 20 + m.index % 2 ^ 20) = none →
    (s.writable key ((pagesOf ((coOf j.raw).gDstOff + (if (coOf j.raw).root = 0x1FF then ((s.rankOf m.src) * 2 ^ 20 + m.index % 2 ^ 20) / 2 ^ 20 * (coOf j.raw).part else 0) + 7896 * (((s.rankOf m.src) * 2 ^ 20 + m.index % 2 ^ 20) % 2 ^ 20)) m.body.length).map fun p => ((coOf j.raw).gDstH, p))).2 = true →
    ∃ t, exec (.msgGather m) s = .next t ∧
      t.tier.mem = memWrite s.tier.mem (regionAddr (coOf j.raw).gDstH ((coOf j.raw).gDstOff + (if (coOf j.raw).root = 0x1FF then ((s.rankOf m.src) * 2 ^ 20 + m.index % 2 ^ 20) / 2 ^ 20 * (coOf j.raw).part else 0) + 7896 * (((s.rankOf m.src) * 2 ^ 20 + m.index % 2 ^ 20) % 2 ^ 20))) m.body ∧
      (t.job key = none) ∨ (∃ y, t.job key = some y ∧ (y.inputs.find ((s.rankOf m.src) * 2 ^ 20 + m.index % 2 ^ 20)).isSome = true)) ∧
  (∀ (s : State) (m : Msg) (key : Nat) (j : Job),
    s.fromMember m = true → m.step = s.abortTarget → m.epoch = s.rd Obj.modeEpoch → m.digest = s.modeCrc →
    s.jobOf { m with mtype := 0x15 } = some key → s.job key = some j → j.inputs.find ((s.rankOf m.src) * 2 ^ 20 + m.index % 2 ^ 20) = none →
    (s.writable key ((pagesOf ((coOf j.raw).gDstOff + (if (coOf j.raw).root = 0x1FF then ((s.rankOf m.src) * 2 ^ 20 + m.index % 2 ^ 20) / 2 ^ 20 * (coOf j.raw).part else 0) + 7896 * (((s.rankOf m.src) * 2 ^ 20 + m.index % 2 ^ 20) % 2 ^ 20)) m.body.length).map fun p => ((coOf j.raw).gDstH, p))).2 = false →
    m.body ≠ [] →
    ∃ t, exec (.msgGather m) s = .next t ∧
      t.tier.mem = s.tier.mem ∧ (∃ y, t.job key = some y ∧ y.inputs.find ((s.rankOf m.src) * 2 ^ 20 + m.index % 2 ^ 20) = some m.body)) ∧
  (∀ (s : State) (m : Msg) (key : Nat) (j : Job),
    s.fromMember m = true → m.step = s.abortTarget → m.epoch = s.rd Obj.modeEpoch → m.digest = s.modeCrc →
    s.jobOf { m with mtype := 0x15 } = some key → s.job key = some j → (j.inputs.find ((s.rankOf m.src) * 2 ^ 20 + m.index % 2 ^ 20)).isSome = true →
    ∃ t, exec (.msgGather m) s = .next t ∧
      t.coll.jobs = s.coll.jobs ∧ t.rd Obj.collDuplicates = (s.rd Obj.collDuplicates + 1) % 2 ^ 64 ∧ t.tier.mem = s.tier.mem) ∧
  (∀ (s : State) (m : Msg) (key : Nat) (j : Job),
    s.fromMember m = true → m.step = s.abortTarget → m.epoch = s.rd Obj.modeEpoch → m.digest = s.modeCrc →
    s.jobOf { m with mtype := 0x16 } = some key → s.job key = some j → m.index % 65536 = 0 → hasBit j.heard (s.rankOf m.src) = false →
    ∃ t, exec (.msgScalar m) s = .next t ∧
      (t.job key = none) ∨ (∃ y, t.job key = some y ∧ hasBit y.heard (s.rankOf m.src) = true)) ∧
  (∀ (s : State) (m : Msg) (key : Nat) (j : Job),
    s.fromMember m = true → m.step = s.abortTarget → m.epoch = s.rd Obj.modeEpoch → m.digest = s.modeCrc →
    s.jobOf { m with mtype := 0x16 } = some key → s.job key = some j → m.index % 65536 ≠ 0 →
    j.countIn.find (512 * (m.index % 65536 - 1) + (s.rankOf m.src)) = none →
    ∃ t, exec (.msgScalar m) s = .next t ∧
      (t.job key = none) ∨ (∃ y, t.job key = some y ∧ y.countIn.find (512 * (m.index % 65536 - 1) + (s.rankOf m.src)) = some m.body)) ∧
  (∀ (s : State) (m : Msg) (key : Nat) (j : Job),
    s.fromMember m = true → m.step = s.abortTarget → m.epoch = s.rd Obj.modeEpoch → m.digest = s.modeCrc →
    s.jobOf { m with mtype := 0x16 } = some key → s.job key = some j →
    ((m.index % 65536 = 0 ∧ hasBit j.heard (s.rankOf m.src) = true) ∨ (m.index % 65536 ≠ 0 ∧ (j.countIn.find (512 * (m.index % 65536 - 1) + (s.rankOf m.src))).isSome = true)) →
    ∃ t, exec (.msgScalar m) s = .next t ∧
      t.coll.jobs = s.coll.jobs ∧ t.rd Obj.collDuplicates = (s.rd Obj.collDuplicates + 1) % 2 ^ 64 ∧ t.tier.mem = s.tier.mem) ∧
  (∀ (s : State) (m : Msg) (key : Nat) (j : Job),
    s.fromMember m = true → m.step = s.abortTarget → m.epoch = s.rd Obj.modeEpoch → m.digest = s.modeCrc →
    s.jobOf { m with mtype := 0x17 } = some key → s.job key = some j → m.index % 65536 = 0 → j.result = none →
    ∃ t, exec (.msgScalarResult m) s = .next t ∧
      (t.job key = none) ∨ (∃ y, t.job key = some y ∧ y.result = some m.body) ∧
      (coOf j.raw).loss = true → t.coll.loss = some (unle (m.body.take 2)) ∧
      t.tile.scratch = (s.putBytes (coOf j.raw).tile false (m.body.zipIdx.map fun x => ((coOf j.raw).off + x.2, x.1.toNat))).tile.scratch) ∧
  (∀ (s : State) (m : Msg) (key : Nat) (j : Job),
    s.fromMember m = true → m.step = s.abortTarget → m.epoch = s.rd Obj.modeEpoch → m.digest = s.modeCrc →
    s.jobOf { m with mtype := 0x17 } = some key → s.job key = some j → m.index % 65536 ≠ 0 → j.countOut.find (m.index % 65536 - 1) = none →
    ∃ t, exec (.msgScalarResult m) s = .next t ∧
      (t.job key = none) ∨ (∃ y, t.job key = some y ∧ y.countOut.find (m.index % 65536 - 1) = some m.body)) ∧
  (∀ (s : State) (m : Msg) (key : Nat) (j : Job),
    s.fromMember m = true → m.step = s.abortTarget → m.epoch = s.rd Obj.modeEpoch → m.digest = s.modeCrc →
    s.jobOf { m with mtype := 0x17 } = some key → s.job key = some j →
    ((m.index % 65536 = 0 ∧ j.result.isSome = true) ∨ (m.index % 65536 ≠ 0 ∧ (j.countOut.find (m.index % 65536 - 1)).isSome = true)) →
    ∃ t, exec (.msgScalarResult m) s = .next t ∧
      t.coll.jobs = s.coll.jobs ∧ t.rd Obj.collDuplicates = (s.rd Obj.collDuplicates + 1) % 2 ^ 64 ∧ t.tier.mem = s.tier.mem) ∧
  (∀ (s : State) (m : Msg),
    (s.fromMember m = false ∨ (m.step ≠ s.abortTarget ∧ m.step ≠ s.abortTarget + 1)) →
    ∃ t, exec (.msgExponent m) s = .next t ∧
      t = s) ∧
  (∀ (s : State) (m : Msg),
    s.fromMember m = true → m.step = s.abortTarget + 1 →
    ∃ t, exec (.msgExponent m) s = .next t ∧
      t = { s with coll := { s.coll with inbox := s.coll.inbox ++ [{ m with mtype := 0x10 }] } }) ∧
  (∀ (s : State) (m : Msg),
    s.fromMember m = true → m.step = s.abortTarget → m.epoch ≠ s.rd Obj.modeEpoch →
    ∃ t, exec (.msgExponent m) s = .next t ∧
      t.coll.differing.find m.src = some (m.epoch, m.digest) ∧ t.coll.jobs = s.coll.jobs ∧ t.coll.inbox = s.coll.inbox ∧
      (s.rd Obj.groupState = 2 → t.rd Obj.groupState = 3)) ∧
  (∀ (s : State) (m : Msg),
    s.fromMember m = true → m.step = s.abortTarget → m.epoch = s.rd Obj.modeEpoch → m.digest = s.modeCrc → s.jobOf { m with mtype := 0x10 } = none →
    ∃ t, exec (.msgExponent m) s = .next t ∧
      t.coll.inbox = s.coll.inbox ++ [{ m with mtype := 0x10 }] ∧ t.coll.jobs = s.coll.jobs) ∧
  (∀ (s : State) (m : Msg),
    (s.fromMember m = false ∨ (m.step ≠ s.abortTarget ∧ m.step ≠ s.abortTarget + 1)) →
    ∃ t, exec (.msgAgreed m) s = .next t ∧
      t = s) ∧
  (∀ (s : State) (m : Msg),
    s.fromMember m = true → m.step = s.abortTarget + 1 →
    ∃ t, exec (.msgAgreed m) s = .next t ∧
      t = { s with coll := { s.coll with inbox := s.coll.inbox ++ [{ m with mtype := 0x11 }] } }) ∧
  (∀ (s : State) (m : Msg),
    s.fromMember m = true → m.step = s.abortTarget → m.epoch ≠ s.rd Obj.modeEpoch →
    ∃ t, exec (.msgAgreed m) s = .next t ∧
      t.coll.differing.find m.src = some (m.epoch, m.digest) ∧ t.coll.jobs = s.coll.jobs ∧ t.coll.inbox = s.coll.inbox ∧
      (s.rd Obj.groupState = 2 → t.rd Obj.groupState = 3)) ∧
  (∀ (s : State) (m : Msg),
    s.fromMember m = true → m.step = s.abortTarget → m.epoch = s.rd Obj.modeEpoch → m.digest = s.modeCrc → s.jobOf { m with mtype := 0x11 } = none →
    ∃ t, exec (.msgAgreed m) s = .next t ∧
      t.coll.inbox = s.coll.inbox ++ [{ m with mtype := 0x11 }] ∧ t.coll.jobs = s.coll.jobs) ∧
  (∀ (s : State) (m : Msg),
    (s.fromMember m = false ∨ (m.step ≠ s.abortTarget ∧ m.step ≠ s.abortTarget + 1)) →
    ∃ t, exec (.msgData m) s = .next t ∧
      t = s) ∧
  (∀ (s : State) (m : Msg),
    s.fromMember m = true → m.step = s.abortTarget + 1 →
    ∃ t, exec (.msgData m) s = .next t ∧
      t = { s with coll := { s.coll with inbox := s.coll.inbox ++ [{ m with mtype := 0x12 }] } }) ∧
  (∀ (s : State) (m : Msg),
    s.fromMember m = true → m.step = s.abortTarget → m.epoch ≠ s.rd Obj.modeEpoch →
    ∃ t, exec (.msgData m) s = .next t ∧
      t.coll.differing.find m.src = some (m.epoch, m.digest) ∧ t.coll.jobs = s.coll.jobs ∧ t.coll.inbox = s.coll.inbox ∧
      (s.rd Obj.groupState = 2 → t.rd Obj.groupState = 3)) ∧
  (∀ (s : State) (m : Msg),
    s.fromMember m = true → m.step = s.abortTarget → m.epoch = s.rd Obj.modeEpoch → m.digest = s.modeCrc → s.jobOf { m with mtype := 0x12 } = none →
    ∃ t, exec (.msgData m) s = .next t ∧
      t.coll.inbox = s.coll.inbox ++ [{ m with mtype := 0x12 }] ∧ t.coll.jobs = s.coll.jobs) ∧
  (∀ (s : State) (m : Msg),
    (s.fromMember m = false ∨ (m.step ≠ s.abortTarget ∧ m.step ≠ s.abortTarget + 1)) →
    ∃ t, exec (.msgResult m) s = .next t ∧
      t = s) ∧
  (∀ (s : State) (m : Msg),
    s.fromMember m = true → m.step = s.abortTarget + 1 →
    ∃ t, exec (.msgResult m) s = .next t ∧
      t = { s with coll := { s.coll with inbox := s.coll.inbox ++ [{ m with mtype := 0x13 }] } }) ∧
  (∀ (s : State) (m : Msg),
    s.fromMember m = true → m.step = s.abortTarget → m.epoch ≠ s.rd Obj.modeEpoch →
    ∃ t, exec (.msgResult m) s = .next t ∧
      t.coll.differing.find m.src = some (m.epoch, m.digest) ∧ t.coll.jobs = s.coll.jobs ∧ t.coll.inbox = s.coll.inbox ∧
      (s.rd Obj.groupState = 2 → t.rd Obj.groupState = 3)) ∧
  (∀ (s : State) (m : Msg),
    s.fromMember m = true → m.step = s.abortTarget → m.epoch = s.rd Obj.modeEpoch → m.digest = s.modeCrc → s.jobOf { m with mtype := 0x13 } = none →
    ∃ t, exec (.msgResult m) s = .next t ∧
      t.coll.inbox = s.coll.inbox ++ [{ m with mtype := 0x13 }] ∧ t.coll.jobs = s.coll.jobs) ∧
  (∀ (s : State) (m : Msg),
    (s.fromMember m = false ∨ (m.step ≠ s.abortTarget ∧ m.step ≠ s.abortTarget + 1)) →
    ∃ t, exec (.msgGather m) s = .next t ∧
      t = s) ∧
  (∀ (s : State) (m : Msg),
    s.fromMember m = true → m.step = s.abortTarget + 1 →
    ∃ t, exec (.msgGather m) s = .next t ∧
      t = { s with coll := { s.coll with inbox := s.coll.inbox ++ [{ m with mtype := 0x15 }] } }) ∧
  (∀ (s : State) (m : Msg),
    s.fromMember m = true → m.step = s.abortTarget → m.epoch ≠ s.rd Obj.modeEpoch →
    ∃ t, exec (.msgGather m) s = .next t ∧
      t.coll.differing.find m.src = some (m.epoch, m.digest) ∧ t.coll.jobs = s.coll.jobs ∧ t.coll.inbox = s.coll.inbox ∧
      (s.rd Obj.groupState = 2 → t.rd Obj.groupState = 3)) ∧
  (∀ (s : State) (m : Msg),
    s.fromMember m = true → m.step = s.abortTarget → m.epoch = s.rd Obj.modeEpoch → m.digest = s.modeCrc → s.jobOf { m with mtype := 0x15 } = none →
    ∃ t, exec (.msgGather m) s = .next t ∧
      t.coll.inbox = s.coll.inbox ++ [{ m with mtype := 0x15 }] ∧ t.coll.jobs = s.coll.jobs) ∧
  (∀ (s : State) (m : Msg),
    (s.fromMember m = false ∨ (m.step ≠ s.abortTarget ∧ m.step ≠ s.abortTarget + 1)) →
    ∃ t, exec (.msgScalar m) s = .next t ∧
      t = s) ∧
  (∀ (s : State) (m : Msg),
    s.fromMember m = true → m.step = s.abortTarget + 1 →
    ∃ t, exec (.msgScalar m) s = .next t ∧
      t = { s with coll := { s.coll with inbox := s.coll.inbox ++ [{ m with mtype := 0x16 }] } }) ∧
  (∀ (s : State) (m : Msg),
    s.fromMember m = true → m.step = s.abortTarget → m.epoch ≠ s.rd Obj.modeEpoch →
    ∃ t, exec (.msgScalar m) s = .next t ∧
      t.coll.differing.find m.src = some (m.epoch, m.digest) ∧ t.coll.jobs = s.coll.jobs ∧ t.coll.inbox = s.coll.inbox ∧
      (s.rd Obj.groupState = 2 → t.rd Obj.groupState = 3)) ∧
  (∀ (s : State) (m : Msg),
    s.fromMember m = true → m.step = s.abortTarget → m.epoch = s.rd Obj.modeEpoch → m.digest = s.modeCrc → s.jobOf { m with mtype := 0x16 } = none →
    ∃ t, exec (.msgScalar m) s = .next t ∧
      t.coll.inbox = s.coll.inbox ++ [{ m with mtype := 0x16 }] ∧ t.coll.jobs = s.coll.jobs) ∧
  (∀ (s : State) (m : Msg),
    (s.fromMember m = false ∨ (m.step ≠ s.abortTarget ∧ m.step ≠ s.abortTarget + 1)) →
    ∃ t, exec (.msgScalarResult m) s = .next t ∧
      t = s) ∧
  (∀ (s : State) (m : Msg),
    s.fromMember m = true → m.step = s.abortTarget + 1 →
    ∃ t, exec (.msgScalarResult m) s = .next t ∧
      t = { s with coll := { s.coll with inbox := s.coll.inbox ++ [{ m with mtype := 0x17 }] } }) ∧
  (∀ (s : State) (m : Msg),
    s.fromMember m = true → m.step = s.abortTarget → m.epoch ≠ s.rd Obj.modeEpoch →
    ∃ t, exec (.msgScalarResult m) s = .next t ∧
      t.coll.differing.find m.src = some (m.epoch, m.digest) ∧ t.coll.jobs = s.coll.jobs ∧ t.coll.inbox = s.coll.inbox ∧
      (s.rd Obj.groupState = 2 → t.rd Obj.groupState = 3)) ∧
  (∀ (s : State) (m : Msg),
    s.fromMember m = true → m.step = s.abortTarget → m.epoch = s.rd Obj.modeEpoch → m.digest = s.modeCrc → s.jobOf { m with mtype := 0x17 } = none →
    ∃ t, exec (.msgScalarResult m) s = .next t ∧
      t.coll.inbox = s.coll.inbox ++ [{ m with mtype := 0x17 }] ∧ t.coll.jobs = s.coll.jobs) ∧
  (∀ (s : State) (m : Msg),
    s.fromMember m = true → m.step = s.abortTarget → m.epoch = s.rd Obj.modeEpoch → m.digest = s.modeCrc →
    ∃ t, exec (.msgResend m) s = .next t ∧
      (∀ x ∈ s.coll.sent, x.dst = m.src → x.msg.cid = m.cid → x.msg.step = m.step → x.msg.mtype = (if m.index = 0 then 0x12 else 0x13) → x.msg.index ∈ listed m.body (m.body.length / 4) → Out.message x.msg.pod x.dst x.msg ∈ t.out) ∧
      t.coll.jobs = s.coll.jobs) ∧
  (∀ (s : State) (m : Msg),
    (s.fromMember m = false ∨ m.step ≠ s.abortTarget) →
    ∃ t, exec (.msgResend m) s = .next t ∧
      t = s) ∧
  (∀ (s : State) (w : Fin 8) (q c f : Nat) (j : Job),
    s.job (recKey w q) = some j → j.op = 1 → c % s.groupN = s.ownRank → (j.chunk c).firstAt = some f → s.rd Obj.chunkWaitUs * us ≤ s.now - f →
    s.rd Obj.chunkWaitUs * us ≤ s.now - (j.chunk c).askedAt → (j.chunk c).ranks ≠ s.allRanks →
    ∃ t, exec (.chunkWait w q c) s = .next t ∧
      (∃ y, t.job (recKey w q) = some y ∧ (y.chunk c).askedAt = s.now) ∧
      (∀ r ∈ s.otherRanks, hasBit (j.chunk c).ranks r = false → ∃ a, a.mtype = 0x14 ∧ a.index = 0 ∧ a.body = p32 c ∧ Out.message (s.rd Obj.planPod) (s.memberAt r) a ∈ t.out)) ∧
  (∀ (s : State) (w : Fin 8) (q c f : Nat) (j : Job),
    s.job (recKey w q) = some j → j.op = 1 → c % s.groupN ≠ s.ownRank → (coOf j.raw).scatter = false → (j.chunk c).sentAt = some f →
    (j.chunk c).parts ≠ (if (coOf j.raw).rfmt = 1 then 3 else 1) → (j.chunk c).landed = false → s.rd Obj.chunkWaitUs * us ≤ s.now - f →
    ∃ t, exec (.resultRequest w q c) s = .next t ∧
      (∃ y, t.job (recKey w q) = some y ∧ (y.chunk c).sentAt = some s.now) ∧
      (∃ a, a.mtype = 0x14 ∧ a.index = 1 ∧ Out.message (s.rd Obj.planPod) (s.memberAt (c % s.groupN)) a ∈ t.out)) ∧
  (∀ (s : State) (w : Fin 8) (q c : Nat),
    s.job (recKey w q) = none →
    ∃ t, exec (.chunkWait w q c) s = .next t ∧
      t = s) ∧
  (∀ (s : State) (w : Fin 8) (q c : Nat) (j : Job),
    s.job (recKey w q) = some j → (j.op ≠ 1 ∨ c % s.groupN ≠ s.ownRank ∨ (j.chunk c).firstAt = none ∨ (j.chunk c).ranks = s.allRanks) →
    ∃ t, exec (.chunkWait w q c) s = .next t ∧
      t = s) ∧
  (∀ (s : State) (w : Fin 8) (q c : Nat),
    s.job (recKey w q) = none →
    ∃ t, exec (.resultRequest w q c) s = .next t ∧
      t = s) ∧
  (∀ (s : State) (w : Fin 8) (q c : Nat) (j : Job),
    s.job (recKey w q) = some j → (j.op ≠ 1 ∨ c % s.groupN = s.ownRank ∨ (j.chunk c).sentAt = none ∨ (j.chunk c).landed = true) →
    ∃ t, exec (.resultRequest w q c) s = .next t ∧
      t = s)

/-- Capability frames, join wait, member failure, views and survivors. Each clause concludes that exec answers a next state, under conditions on
the state and the operands alone. Completes: capabilitySend, joinWait, msgCapability, memberFailDetect, memberTimeout, msgView,
viewLeaderDecide, msgSurvivors, viewMinorityTimeout, msgAbort. -/
def Obligations.MembersJoinFailAndShrink : Prop :=
  (∀ (s : State),
    s.bitmap ≠ 0 → s.coll.capAt = none →
    ∃ t, exec (.capabilitySend) s = .next t ∧
      (∀ d ∈ s.others, ∃ a, a.mtype = 0x01 ∧ a.body = s.capBody ∧ Out.message (s.rd Obj.planPod) (d) a ∈ t.out) ∧ t.coll.capAt = some s.now ∧
      t.coll.capLast = s.capBody) ∧
  (∀ (s : State) (f : Nat),
    s.bitmap ≠ 0 → s.coll.capAt = some f → (((s.rd Obj.groupState = 1 ∧ 1000 * ms ≤ s.now - f) ∨ s.capBody ≠ s.coll.capLast)) →
    ∃ t, exec (.capabilitySend) s = .next t ∧
      (∀ d ∈ s.others, ∃ a, a.mtype = 0x01 ∧ a.body = s.capBody ∧ Out.message (s.rd Obj.planPod) (d) a ∈ t.out) ∧ t.coll.capAt = some s.now ∧
      t.coll.capLast = s.capBody) ∧
  (∀ (s : State),
    (s.bitmap = 0 ∨ ∃ f, s.coll.capAt = some f ∧ ¬ (s.rd Obj.groupState = 1 ∧ 1000 * ms ≤ s.now - f) ∧ s.capBody = s.coll.capLast) →
    ∃ t, exec (.capabilitySend) s = .next t ∧
      t = s.tryActive ∧ t.coll.capAt = s.coll.capAt ∧ t.out = s.out) ∧
  (∀ (s : State),
    s.rd Obj.groupState = 1 → s.coll.joinTold = false → (s.others.filter fun m => (s.coll.peers.find m).isNone) ≠ [] →
    10000 * ms ≤ s.now - s.coll.joinFrom →
    ∃ t, exec (.joinWait) s = .next t ∧
      t.coll = { s.coll with joinTold := true } ∧
      t.rd (Obj.occurrences (Ev.joinWait / 256 - 1) (Ev.joinWait % 256)) = (s.rd (Obj.occurrences (Ev.joinWait / 256 - 1) (Ev.joinWait % 256)) + 1) % 2 ^ 32 ∧
      t.rd Obj.groupState = 1) ∧
  (∀ (s : State),
    (s.rd Obj.groupState ≠ 1 ∨ s.coll.joinTold = true ∨ (s.others.filter fun m => (s.coll.peers.find m).isNone) = [] ∨ s.now - s.coll.joinFrom < 10000 * ms) →
    ∃ t, exec (.joinWait) s = .next t ∧
      t = s) ∧
  (∀ (s : State) (m : Msg),
    m.pod = s.rd Obj.planPod → m.group = s.rd Obj.groupId → s.isMember m.src = true → m.src ≠ s.ownModule →
    ∃ t, exec (.msgCapability m) s = .next t ∧
      t.coll.peers.find m.src = some (peerOf m.body s.now)) ∧
  (∀ (s : State) (m : Msg),
    (m.pod ≠ s.rd Obj.planPod ∨ m.group ≠ s.rd Obj.groupId ∨ s.isMember m.src = false ∨ m.src = s.ownModule) →
    ∃ t, exec (.msgCapability m) s = .next t ∧
      t = s) ∧
  (∀ (s : State) (m : Fin 512),
    s.isMember m = true → m.val ≠ s.ownModule → (s.rd Obj.groupState = 2 ∨ s.rd Obj.groupState = 3) → s.coll.failed.contains m.val = false →
    s.coll.view = none → s.paceFresh m = false →
    ∃ t, exec (.memberFailDetect m) s = .next t ∧
      t.coll.failed.contains m.val = true ∧ t.cmd.stepNow = none ∧ (∃ v, t.coll.view = some v ∧ v.start = s.now ∧ v.shape = s.bitmap) ∧
      t.rd Obj.memberFailures = min (s.rd Obj.memberFailures + 1) (2 ^ 32 - 1) ∧ (∀ w : Fin 8, (s.win w).owner ≠ none → (t.win w).state = .halted)) ∧
  (∀ (s : State) (m : Fin 512),
    s.isMember m = true → m.val ≠ s.ownModule → (s.rd Obj.groupState = 2 ∨ s.rd Obj.groupState = 3) → s.coll.failed.contains m.val = false →
    s.coll.view = none → s.dataLate m = true →
    ∃ t, exec (.memberTimeout m) s = .next t ∧
      t.coll.failed.contains m.val = true ∧ t.cmd.stepNow = none ∧ (∃ v, t.coll.view = some v ∧ v.start = s.now ∧ v.shape = s.bitmap) ∧
      t.rd Obj.memberFailures = min (s.rd Obj.memberFailures + 1) (2 ^ 32 - 1) ∧ (∀ w : Fin 8, (s.win w).owner ≠ none → (t.win w).state = .halted)) ∧
  (∀ (s : State) (m : Fin 512) (v : ViewRun),
    s.isMember m = true → m.val ≠ s.ownModule → (s.rd Obj.groupState = 2 ∨ s.rd Obj.groupState = 3) → s.coll.failed.contains m.val = false →
    s.coll.view = some v → s.paceFresh m = false →
    ∃ t, exec (.memberFailDetect m) s = .next t ∧
      t.coll.failed.contains m.val = true ∧ (∃ y, t.coll.view = some y ∧ y.start = v.start ∧ y.shape = v.shape) ∧ t.cmd.stepNow = s.cmd.stepNow) ∧
  (∀ (s : State) (m : Fin 512),
    (s.isMember m = false ∨ m.val = s.ownModule ∨ s.paceFresh m = true ∨ s.coll.failed.contains m.val = true) →
    ∃ t, exec (.memberFailDetect m) s = .next t ∧
      t = s) ∧
  (∀ (s : State) (m : Fin 512) (v : ViewRun),
    s.isMember m = true → m.val ≠ s.ownModule → (s.rd Obj.groupState = 2 ∨ s.rd Obj.groupState = 3) → s.coll.failed.contains m.val = false →
    s.coll.view = some v → s.dataLate m = true →
    ∃ t, exec (.memberTimeout m) s = .next t ∧
      t.coll.failed.contains m.val = true ∧ (∃ y, t.coll.view = some y ∧ y.start = v.start ∧ y.shape = v.shape) ∧ t.cmd.stepNow = s.cmd.stepNow) ∧
  (∀ (s : State) (m : Fin 512),
    (s.isMember m = false ∨ m.val = s.ownModule ∨ s.dataLate m = false ∨ s.coll.failed.contains m.val = true) →
    ∃ t, exec (.memberTimeout m) s = .next t ∧
      t = s) ∧
  (∀ (s : State) (m : Msg),
    s.fromMember m = true → m.step = s.abortTarget → m.epoch = s.rd Obj.modeEpoch → m.digest = s.modeCrc →
    ∃ t, exec (.msgView m) s = .next t ∧
      t.coll.views.find m.src = some (unle (m.body.take 64)) ∧ t.coll.jobs = s.coll.jobs) ∧
  (∀ (s : State) (m : Msg),
    s.fromMember m = true → m.step = s.abortTarget + 1 → m.epoch = (s.rd Obj.modeEpoch + 1) % 2 ^ 32 →
    ∃ t, exec (.msgView m) s = .next t ∧
      t = { s with coll := { s.coll with views := s.coll.views.insert m.src (unle (m.body.take 64)) } }) ∧
  (∀ (s : State) (m : Msg),
    (s.fromMember m = false ∨ (m.step ≠ s.abortTarget ∧ m.step ≠ s.abortTarget + 1)) →
    ∃ t, exec (.msgView m) s = .next t ∧
      t = s) ∧
  (∀ (s : State) (v : ViewRun) (set : Nat),
    s.coll.view = some v → (membersOf v.own).head? = some s.ownModule → 2 * s.rd Obj.failDetectMs * ms ≤ s.now - v.start →
    set = (s.coll.views.filter fun x => v.own >>> x.1 % 2 == 1).foldl (fun b x => b &&& x.2) v.own →
    ∃ t, exec (.viewLeaderDecide) s = .next t ∧
      (∀ d ∈ membersOf set, d ≠ s.ownModule → ∃ a, a.mtype = 0x03 ∧ a.body = le 64 set ∧ Out.message (s.rd Obj.planPod) (d) a ∈ t.out) ∧
      (set >>> s.ownModule % 2 = 1 → t.coll.view = none)) ∧
  (∀ (s : State) (v : ViewRun),
    s.coll.view = some v → ((membersOf v.own).head? ≠ some s.ownModule ∨ s.now - v.start < 2 * s.rd Obj.failDetectMs * ms) →
    ∃ t, exec (.viewLeaderDecide) s = .next t ∧
      t = s) ∧
  (∀ (s : State),
    s.coll.view = none →
    ∃ t, exec (.viewLeaderDecide) s = .next t ∧
      t = s) ∧
  (∀ (s : State) (m : Msg) (v : ViewRun) (set : Nat),
    s.fromMember m = true → m.step = s.abortTarget → m.epoch = s.rd Obj.modeEpoch → m.digest = s.modeCrc → s.coll.view = some v →
    set = unle (m.body.take 64) → set >>> s.ownModule % 2 = 1 →
    ((membersOf v.shape).length < 2 * (membersOf (set &&& v.shape)).length ∨ ((membersOf v.shape).length = 2 * (membersOf (set &&& v.shape)).length ∧ set >>> (membersOf v.shape).headD 0 % 2 = 1)) →
    ∃ t, exec (.msgSurvivors m) s = .next t ∧
      t.rd Obj.groupMembers = set &&& v.shape ∧ t.rd Obj.modeEpoch = s.rd Obj.modeEpoch + 1 ∧ t.coll.view = none) ∧
  (∀ (s : State) (m : Msg) (v : ViewRun) (set : Nat),
    s.fromMember m = true → m.step = s.abortTarget → m.epoch = s.rd Obj.modeEpoch → m.digest = s.modeCrc → s.coll.view = some v →
    set = unle (m.body.take 64) → set >>> s.ownModule % 2 = 1 →
    (2 * (membersOf (set &&& v.shape)).length < (membersOf v.shape).length ∨ ((membersOf v.shape).length = 2 * (membersOf (set &&& v.shape)).length ∧ set >>> (membersOf v.shape).headD 0 % 2 ≠ 1)) →
    ∃ t, exec (.msgSurvivors m) s = .next t ∧
      t.rd Obj.groupState = 4 ∧ t.rd Obj.groupMembers = s.rd Obj.groupMembers ∧ t.coll.view = none) ∧
  (∀ (s : State) (m : Msg) (set : Nat),
    s.fromMember m = true → m.step = s.abortTarget → m.epoch = s.rd Obj.modeEpoch → m.digest = s.modeCrc → s.coll.view = none →
    set = unle (m.body.take 64) → set >>> s.ownModule % 2 = 1 → s.rd Obj.groupState = 2 → s.members.all (fun x => set >>> x % 2 == 1) = false →
    ∃ t, exec (.msgSurvivors m) s = .next t ∧
      t.cmd.stepNow = none ∧ t.spans = [] ∧ t.rd Obj.memberFailures = min (s.rd Obj.memberFailures + 1) (2 ^ 32 - 1) ∧ t.coll.view = none) ∧
  (∀ (s : State) (m : Msg),
    (s.fromMember m = false ∨ (m.step ≠ s.abortTarget ∧ m.step ≠ s.abortTarget + 1)) →
    ∃ t, exec (.msgSurvivors m) s = .next t ∧
      t = s) ∧
  (∀ (s : State) (v : ViewRun),
    s.coll.view = some v → 4 * s.rd Obj.failDetectMs * ms ≤ s.now - v.start →
    ∃ t, exec (.viewMinorityTimeout) s = .next t ∧
      t.rd Obj.groupState = 4 ∧ t.coll.view = none ∧
      t.rd (Obj.occurrences (Ev.minority / 256 - 1) (Ev.minority % 256)) = (s.rd (Obj.occurrences (Ev.minority / 256 - 1) (Ev.minority % 256)) + 1) % 2 ^ 32) ∧
  (∀ (s : State) (v : ViewRun),
    s.coll.view = some v → s.now - v.start < 4 * s.rd Obj.failDetectMs * ms →
    ∃ t, exec (.viewMinorityTimeout) s = .next t ∧
      t = s) ∧
  (∀ (s : State),
    s.coll.view = none →
    ∃ t, exec (.viewMinorityTimeout) s = .next t ∧
      t = s) ∧
  (∀ (s : State) (m : Msg),
    s.fromMember m = true → unle (m.body.take 8) = s.abortTarget → unle (m.body.take 8) ≠ s.rd Obj.lastCommittedStep → m.epoch = s.rd Obj.modeEpoch →
    m.digest = s.modeCrc → s.cmd.stepNow.isSome = true →
    ∃ t, exec (.msgAbort m) s = .next t ∧
      t.cmd.stepNow = none ∧ t.spans = [] ∧ (∀ w : Fin 8, (s.win w).owner ≠ none → (t.win w).state = .halted)) ∧
  (∀ (s : State) (m : Msg),
    s.fromMember m = true → unle (m.body.take 8) = s.rd Obj.lastCommittedStep → unle (m.body.take 8) ≠ s.abortTarget →
    ∃ t, exec (.msgAbort m) s = .next t ∧
      t.cmd.stepNow = none ∧ t.spans = [] ∧ (∀ w : Fin 8, (s.win w).owner ≠ none → (t.win w).state = .halted)) ∧
  (∀ (s : State) (m : Msg),
    s.fromMember m = true → unle (m.body.take 8) = s.abortTarget + 1 → unle (m.body.take 8) ≠ s.rd Obj.lastCommittedStep →
    ∃ t, exec (.msgAbort m) s = .next t ∧
      t = { s with coll := { s.coll with inbox := s.coll.inbox ++ [{ m with mtype := 0x04, step := unle (m.body.take 8) }] } }) ∧
  (∀ (s : State) (m : Msg),
    (s.fromMember m = false ∨ (unle (m.body.take 8) ≠ s.abortTarget ∧ unle (m.body.take 8) ≠ s.abortTarget + 1 ∧ unle (m.body.take 8) ≠ s.rd Obj.lastCommittedStep)) →
    ∃ t, exec (.msgAbort m) s = .next t ∧
      t = s)

/-- Digest messages, the wait for the twin, and state transfers. Each clause concludes that exec answers a next state, under conditions on the
state and the operands alone. Completes: msgDigest, msgTwinDigest, twinWait, msgStatePart, msgStateDone. -/
def Obligations.DigestsAndTransfersArrive : Prop :=
  (∀ (s : State) (m : Msg) (c : Compare),
    s.fromMember m = true → s.coll.compare = some c → m.step = c.step →
    ∃ t, exec (.msgDigest m) s = .next t ∧
      t.coll.compare = some { c with copies := c.copies.insert m.src (unle (m.body.take 8), twinOf { m with mtype := 0x20 }) } ∧
      t.coll.digests = s.coll.digests) ∧
  (∀ (s : State) (m : Msg) (c : Compare),
    s.fromMember m = true → s.coll.compare = some c → c.step < m.step →
    ∃ t, exec (.msgDigest m) s = .next t ∧
      t = { s with coll := { s.coll with digests := s.coll.digests ++ [{ m with mtype := 0x20 }] } }) ∧
  (∀ (s : State) (m : Msg) (c : Compare),
    s.fromMember m = true → s.coll.compare = some c → m.step < c.step → s.coll.overdue.find m.step = none →
    ∃ t, exec (.msgDigest m) s = .next t ∧
      t = s) ∧
  (∀ (s : State) (m : Msg) (c : Compare),
    s.fromMember m = true → s.coll.compare = some c → m.step < c.step →
    ∃ t, exec (.msgDigest m) s = .next t ∧
      t.coll.compare = s.coll.compare ∧ t.coll.digests = s.coll.digests) ∧
  (∀ (s : State) (m : Msg),
    s.fromMember m = true → s.coll.compare = none →
    ∃ t, exec (.msgDigest m) s = .next t ∧
      t = { s with coll := { s.coll with digests := s.coll.digests ++ [{ m with mtype := 0x20 }] } }) ∧
  (∀ (s : State) (m : Msg),
    s.fromMember m = false →
    ∃ t, exec (.msgDigest m) s = .next t ∧
      t = s) ∧
  (∀ (s : State) (m : Msg) (c : Compare),
    m.pod ≠ s.rd Obj.planPod → m.src = s.ownModule → s.bitmap ≠ 0 → s.coll.compare = some c → m.step = c.step →
    ∃ t, exec (.msgTwinDigest m) s = .next t ∧
      t.coll.compare = some { c with twin := some (unle (m.body.take 8), unle ((m.body.drop 8).take 4)) } ∧
      (∀ d ∈ s.others, ∃ a, a.mtype = 0x20 ∧ a.step = c.step ∧ Out.message (s.rd Obj.planPod) (d) a ∈ t.out)) ∧
  (∀ (s : State) (m : Msg) (c : Compare),
    m.pod ≠ s.rd Obj.planPod → m.src = s.ownModule → s.bitmap ≠ 0 → s.coll.compare = some c → c.step < m.step →
    ∃ t, exec (.msgTwinDigest m) s = .next t ∧
      t = { s with coll := { s.coll with digests := s.coll.digests ++ [{ m with mtype := 0x21 }] } }) ∧
  (∀ (s : State) (m : Msg) (c : Compare),
    m.pod ≠ s.rd Obj.planPod → m.src = s.ownModule → s.bitmap ≠ 0 → s.coll.compare = some c → m.step < c.step →
    ∃ t, exec (.msgTwinDigest m) s = .next t ∧
      t.coll.compare = s.coll.compare ∧ t.coll.digests = s.coll.digests) ∧
  (∀ (s : State) (m : Msg),
    (m.pod = s.rd Obj.planPod ∨ m.src ≠ s.ownModule ∨ s.bitmap = 0) →
    ∃ t, exec (.msgTwinDigest m) s = .next t ∧
      t = s) ∧
  (∀ (s : State) (c : Compare),
    s.coll.compare = some c → s.rd Obj.twinEnable ≠ 0 → s.twinsIn c = false → c.twinLate = false → c.told = false →
    s.rd Obj.twinWaitMs * ms ≤ s.now - c.start →
    ∃ t, exec (.twinWait) s = .next t ∧
      t.coll = { s.coll with compare := some { c with twinLate := true } } ∧
      t.rd (Obj.occurrences (Ev.twinLate / 256 - 1) (Ev.twinLate % 256)) = (s.rd (Obj.occurrences (Ev.twinLate / 256 - 1) (Ev.twinLate % 256)) + 1) % 2 ^ 32) ∧
  (∀ (s : State) (c : Compare),
    s.coll.compare = some c →
    (s.rd Obj.twinEnable = 0 ∨ s.twinsIn c = true ∨ c.twinLate = true ∨ c.told = true ∨ s.now - c.start < s.rd Obj.twinWaitMs * ms) →
    ∃ t, exec (.twinWait) s = .next t ∧
      t = s) ∧
  (∀ (s : State),
    s.coll.compare = none →
    ∃ t, exec (.twinWait) s = .next t ∧
      t = s) ∧
  (∀ (s : State) (m : Msg) (x : Transfer),
    s.fromMember m = true → s.coll.transfer = some x → x.donor = m.src → x.step = m.step → s.rd Obj.groupState ≠ 5 →
    unle (m.body.take 4) < 0xFFFFFFFD →
    ∃ t, exec (.msgStatePart m) s = .next t ∧
      t.coll = { s.coll with transfer := some { x with parts := x.parts + 1 } } ∧
      t.tier.mem = memWrite s.tier.mem (regionAddr (unle (m.body.take 4)) (4096 * unle ((m.body.drop 4).take 4))) (m.body.drop 8)) ∧
  (∀ (s : State) (m : Msg) (x : Transfer),
    s.fromMember m = true → s.coll.transfer = some x → x.donor = m.src → x.step = m.step → s.rd Obj.groupState ≠ 5 →
    ∃ t, exec (.msgStatePart m) s = .next t ∧
      t = State.takePart { s with coll := { s.coll with transfer := some { x with parts := x.parts + 1 } } } (unle (m.body.take 4)) (unle ((m.body.drop 4).take 4)) (m.body.drop 8)) ∧
  (∀ (s : State) (m : Msg),
    s.fromMember m = true → s.rd Obj.groupState ≠ 5 → s.isEarly m = true →
    ∃ t, exec (.msgStatePart m) s = .next t ∧
      t = { s with coll := { s.coll with early := s.coll.early ++ [{ m with mtype := 0x22 }] } }) ∧
  (∀ (s : State) (m : Msg),
    s.fromMember m = true → s.rd Obj.groupState ≠ 5 → s.isEarly m = false → s.coll.transfer = none → s.rd Obj.lastCommittedStep < m.step →
    s.cmd.stepNow = none →
    ∃ t, exec (.msgStatePart m) s = .next t ∧
      t = State.takePart { s with coll := { s.coll with transfer := some { donor := m.src, step := m.step, parts := 1, repair := false } } } (unle (m.body.take 4)) (unle ((m.body.drop 4).take 4)) (m.body.drop 8)) ∧
  (∀ (s : State) (m : Msg),
    (s.fromMember m = false ∨ s.rd Obj.groupState = 5) →
    ∃ t, exec (.msgStatePart m) s = .next t ∧
      t = s) ∧
  (∀ (s : State) (m : Msg) (x : Transfer),
    s.fromMember m = true → s.coll.transfer = some x → x.donor = m.src → x.step = m.step → unle (m.body.take 4) ≤ x.parts →
    ((s.mappedLayers.zip (u64s (m.body.drop 4) s.mappedLayers.length)).foldl (fun (a : State × List Nat) (y : Nat × Nat) => ((a.1.checkLayer y.1 y.2).1, if (a.1.checkLayer y.1 y.2).2 then a.2 else a.2 ++ [y.1])) (s, [])).2 = [] →
    ∃ t, exec (.msgStateDone m) s = .next t ∧
      t.rd Obj.lastCommittedStep = x.step ∧ t.rd Obj.modeEpoch = m.epoch ∧ t.coll.transfer = none ∧ t.coll.stateLost = false) ∧
  (∀ (s : State) (m : Msg) (x : Transfer),
    s.fromMember m = true → s.coll.transfer = some x → x.donor = m.src → x.step = m.step → unle (m.body.take 4) ≤ x.parts →
    ((s.mappedLayers.zip (u64s (m.body.drop 4) s.mappedLayers.length)).foldl (fun (a : State × List Nat) (y : Nat × Nat) => ((a.1.checkLayer y.1 y.2).1, if (a.1.checkLayer y.1 y.2).2 then a.2 else a.2 ++ [y.1])) (s, [])).2 ≠ [] →
    ∃ t, exec (.msgStateDone m) s = .next t ∧
      t.rd Obj.lastCommittedStep = s.rd Obj.lastCommittedStep ∧ t.coll.transfer = none) ∧
  (∀ (s : State) (m : Msg) (x : Transfer),
    s.coll.transfer = some x → (s.fromMember m = false ∨ x.donor ≠ m.src ∨ x.step ≠ m.step ∨ x.parts < unle (m.body.take 4)) →
    ∃ t, exec (.msgStateDone m) s = .next t ∧
      t = s) ∧
  (∀ (s : State) (m : Msg),
    s.coll.transfer = none → s.fromMember m = true → s.isEarly m = true →
    ∃ t, exec (.msgStateDone m) s = .next t ∧
      t = { s with coll := { s.coll with early := s.coll.early ++ [{ m with mtype := 0x23 }] } }) ∧
  (∀ (s : State) (m : Msg),
    s.coll.transfer = none → (s.fromMember m = false ∨ s.isEarly m = false) →
    ∃ t, exec (.msgStateDone m) s = .next t ∧
      t = s)

/-- Data flits, acknowledgements, replays and credits of a port. Each clause concludes that exec answers a next state, under conditions on the
state and the operands alone. Completes: dataFlitRx, linkWordAck, replayTimer, ackTimer, creditFlitRx, creditSend. -/
def Obligations.PortsExchangeFlits : Prop :=
  (∀ (s : State) (p : Fin 16) (f : Bytes) (cor unc : Nat),
    s.portIs p psUp = true → flitIntact f unc = true → ((linkWord f).ftype = 1 ∨ (linkWord f).ftype = 2) → (linkWord f).fseq = (s.port p).rxSeq →
    ∃ t, exec (.dataFlitRx p f cor unc) s = .next t ∧
      (t.port p).rxSeq = ((s.port p).rxSeq + 1) % 4096 ∧ (t.port p).freed = (s.port p).freed + 1 ∧ (t.port p).nakOut = false ∧
      t.rd (Obj.flitsRx p) = (s.rd (Obj.flitsRx p) + 1) % 2 ^ 64) ∧
  (∀ (s : State) (p : Fin 16) (f : Bytes) (cor unc : Nat),
    s.portIs p psUp = true → flitIntact f unc = true → ((linkWord f).ftype = 1 ∨ (linkWord f).ftype = 2) → (linkWord f).fseq ≠ (s.port p).rxSeq →
    ((s.port p).rxSeq + 4096 - (linkWord f).fseq) % 4096 ≤ 2048 →
    ∃ t, exec (.dataFlitRx p f cor unc) s = .next t ∧
      t = (s.acked p f cor unc).updPort p (fun x => { x with owedDup := true }) ∧ (t.port p).rxSeq = (s.port p).rxSeq ∧ (t.port p).owedDup = true) ∧
  (∀ (s : State) (p : Fin 16) (f : Bytes) (cor unc : Nat),
    s.portIs p psUp = true → flitIntact f unc = true → ((linkWord f).ftype = 1 ∨ (linkWord f).ftype = 2) → (linkWord f).fseq ≠ (s.port p).rxSeq →
    2048 < ((s.port p).rxSeq + 4096 - (linkWord f).fseq) % 4096 →
    ∃ t, exec (.dataFlitRx p f cor unc) s = .next t ∧
      t = (s.acked p f cor unc).sendNak p ∧ (t.port p).rxSeq = (s.port p).rxSeq ∧ (t.port p).nakOut = true) ∧
  (∀ (s : State) (p : Fin 16) (f : Bytes) (cor unc : Nat),
    s.portIs p psDown = false → s.portIs p psFailed = false → flitIntact f unc = true →
    (s.portIs p psUp = false ∨ ((linkWord f).ftype ≠ 1 ∧ (linkWord f).ftype ≠ 2)) →
    ∃ t, exec (.dataFlitRx p f cor unc) s = .next t ∧
      t = (s.acked p f cor unc)) ∧
  (∀ (s : State) (p : Fin 16) (f : Bytes) (cor unc : Nat),
    (s.portIs p psDown = true ∨ s.portIs p psFailed = true) →
    ∃ t, exec (.dataFlitRx p f cor unc) s = .next t ∧
      t = s) ∧
  (∀ (s : State) (p : Fin 16) (f : Bytes) (cor unc : Nat),
    s.portIs p psDown = false → s.portIs p psFailed = false → flitIntact f unc = false →
    ∃ t, exec (.dataFlitRx p f cor unc) s = .next t ∧
      t.rd (Obj.parityErrors p) = (s.rd (Obj.parityErrors p) + 1) % 2 ^ 64 ∧ (t.port p).rxSeq = (s.port p).rxSeq ∧
      (t.port p).buffer = (s.port p).buffer ∧ (t.port p).queue = (s.port p).queue ∧
      t.rd (Obj.fecUncorrectable p) = (s.rd (Obj.fecUncorrectable p) + unc) % 2 ^ 64 ∧ t.rd (Obj.portState p) = s.rd (Obj.portState p) ∧
      (s.portIs p psUp = true ∨ s.portIs p psHeld = true ∨ s.portIs p psRetrain = true → (t.port p).nakOut = true)) ∧
  (∀ (s : State) (p : Fin 16) (f : Bytes) (cor unc : Nat),
    s.portIs p psDown = false → s.portIs p psFailed = false → flitIntact f unc = true → (linkWord f).ackV = true → (linkWord f).nak = false →
    0 < (((linkWord f).ackSeq + 1 + 4096 - ((s.port p).txSeq + 4096 - (s.port p).buffer.length % 4096) % 4096) % 4096) →
    (((linkWord f).ackSeq + 1 + 4096 - ((s.port p).txSeq + 4096 - (s.port p).buffer.length % 4096) % 4096) % 4096) ≤ (s.port p).buffer.length →
    ∃ t, exec (.linkWordAck p f cor unc) s = .next t ∧
      (∃ l, (t.port p).buffer = (s.port p).buffer.drop (((linkWord f).ackSeq + 1 + 4096 - ((s.port p).txSeq + 4096 - (s.port p).buffer.length % 4096) % 4096) % 4096) ++ l) ∧
      (t.port p).stuck = 0 ∧ (t.port p).rxSeq = (s.port p).rxSeq) ∧
  (∀ (s : State) (p : Fin 16) (f : Bytes) (cor unc : Nat),
    s.portIs p psUp = true → flitIntact f unc = true → (linkWord f).ackV = true → (linkWord f).nak = true →
    (((linkWord f).ackSeq + 1 + 4096 - ((s.port p).txSeq + 4096 - (s.port p).buffer.length % 4096) % 4096) % 4096) ≤ (s.port p).buffer.length →
    (s.port p).buffer.drop (((linkWord f).ackSeq + 1 + 4096 - ((s.port p).txSeq + 4096 - (s.port p).buffer.length % 4096) % 4096) % 4096) ≠ [] →
    ∃ t, exec (.linkWordAck p f cor unc) s = .next t ∧
      (∃ l, (t.port p).buffer = (s.port p).buffer.drop (((linkWord f).ackSeq + 1 + 4096 - ((s.port p).txSeq + 4096 - (s.port p).buffer.length % 4096) % 4096) % 4096) ++ l) ∧
      (t.port p).stuck = (if 0 < (((linkWord f).ackSeq + 1 + 4096 - ((s.port p).txSeq + 4096 - (s.port p).buffer.length % 4096) % 4096) % 4096) then 1 else (s.port p).stuck + 1) ∧
      t.rd (Obj.flitsReplays p) = (s.rd (Obj.flitsReplays p) + 1) % 2 ^ 64 ∧ t.rd (Obj.portPowerState p) = 0) ∧
  (∀ (s : State) (p : Fin 16) (f : Bytes) (cor unc : Nat),
    s.portIs p psDown = false → s.portIs p psFailed = false → flitIntact f unc = true → (linkWord f).ackV = true →
    (s.port p).buffer.length < (((linkWord f).ackSeq + 1 + 4096 - ((s.port p).txSeq + 4096 - (s.port p).buffer.length % 4096) % 4096) % 4096) →
    (((linkWord f).ackSeq + 1 + 4096 - ((s.port p).txSeq + 4096 - (s.port p).buffer.length % 4096) % 4096) % 4096) < 2048 →
    ∃ t, exec (.linkWordAck p f cor unc) s = .next t ∧
      (t.port p).protocol = true ∧ (t.port p).buffer = (s.port p).buffer ∧ (t.port p).queue = (s.port p).queue) ∧
  (∀ (s : State) (p : Fin 16) (f : Bytes) (cor unc : Nat),
    s.portIs p psDown = false → s.portIs p psFailed = false → flitIntact f unc = true → (linkWord f).ackV = false →
    ∃ t, exec (.linkWordAck p f cor unc) s = .next t ∧
      (t.port p).buffer = (s.port p).buffer ∧ (t.port p).queue = (s.port p).queue ∧ (t.port p).stuck = (s.port p).stuck) ∧
  (∀ (s : State) (p : Fin 16) (f : Bytes) (cor unc : Nat),
    (s.portIs p psDown = true ∨ s.portIs p psFailed = true) →
    ∃ t, exec (.linkWordAck p f cor unc) s = .next t ∧
      t = s) ∧
  (∀ (s : State) (p : Fin 16) (f : Bytes) (cor unc : Nat),
    s.portIs p psDown = false → s.portIs p psFailed = false → flitIntact f unc = false →
    ∃ t, exec (.linkWordAck p f cor unc) s = .next t ∧
      t.rd (Obj.parityErrors p) = (s.rd (Obj.parityErrors p) + 1) % 2 ^ 64 ∧ (t.port p).rxSeq = (s.port p).rxSeq ∧
      (t.port p).buffer = (s.port p).buffer ∧ (t.port p).queue = (s.port p).queue ∧
      t.rd (Obj.fecUncorrectable p) = (s.rd (Obj.fecUncorrectable p) + unc) % 2 ^ 64 ∧ t.rd (Obj.portState p) = s.rd (Obj.portState p) ∧
      (s.portIs p psUp = true ∨ s.portIs p psHeld = true ∨ s.portIs p psRetrain = true → (t.port p).nakOut = true)) ∧
  (∀ (s : State) (p : Fin 16) (f : Nat),
    s.portIs p psUp = true → (s.port p).timerFrom = some f → max (s.rd Obj.replayTimerUs * us) (2 * s.rd (Obj.rttNs p) / 10) ≤ s.now - f →
    (s.port p).buffer ≠ [] →
    ∃ t, exec (.replayTimer p) s = .next t ∧
      t.rd (Obj.flitsReplays p) = (s.rd (Obj.flitsReplays p) + 1) % 2 ^ 64 ∧ (t.port p).timerFrom = some s.now ∧
      (t.port p).stuck = (s.port p).stuck + 1 ∧ (t.port p).buffer = (s.port p).buffer ∧ t.out.length = s.out.length + (s.port p).buffer.length ∧
      t.rd (Obj.portPowerState p) = 0) ∧
  (∀ (s : State) (p : Fin 16),
    ((s.port p).timerFrom = none ∨ s.portIs p psUp = false ∨ (s.port p).buffer = [] ∨ s.now - (s.port p).timerFrom.getD 0 < max (s.rd Obj.replayTimerUs * us) (2 * s.rd (Obj.rttNs p) / 10)) →
    ∃ t, exec (.replayTimer p) s = .next t ∧
      t = s) ∧
  (∀ (s : State) (p : Fin 16) (f : Nat),
    (s.portIs p psUp = true ∨ s.portIs p psHeld = true ∨ s.portIs p psRetrain = true) → (s.port p).owedFrom = some f → 10 ≤ s.now - f →
    ∃ t, exec (.ackTimer p) s = .next t ∧
      t.out = .flit p (flitBytes { ftype := 7, fseq := 0, ackSeq := ((s.port p).rxSeq + 4095) % 4096, ackV := (decide (0 < (s.port p).owed) || (s.port p).owedDup), nak := false, vc := 0 } ([])) :: s.out ∧
      (t.port p).owed = 0 ∧ (t.port p).owedFrom = none) ∧
  (∀ (s : State) (p : Fin 16),
    ((s.port p).owedFrom = none ∨ (s.portIs p psUp = false ∧ s.portIs p psHeld = false ∧ s.portIs p psRetrain = false) ∨ s.now - (s.port p).owedFrom.getD 0 < 10) →
    ∃ t, exec (.ackTimer p) s = .next t ∧
      t = s) ∧
  (∀ (s : State) (p : Fin 16) (f : Bytes) (cor unc : Nat),
    (s.portIs p psUp = true ∨ s.portIs p psHeld = true) → flitIntact f unc = true → (linkWord f).ftype = 3 →
    ∃ t, exec (.creditFlitRx p f cor unc) s = .next t ∧
      (t.port p).credit0 = (if creditOk ((s.acked p f cor unc).port p).credit0 (flitWord f 0 >>> 32) ((s.acked p f cor unc).port p).sent0 = true then extend32 ((s.acked p f cor unc).port p).credit0 (flitWord f 0 >>> 32) else ((s.acked p f cor unc).port p).credit0) ∧
      (t.port p).credit1 = (if creditOk ((s.acked p f cor unc).port p).credit1 (flitWord f 0 % 2 ^ 32) ((s.acked p f cor unc).port p).sent1 = true then extend32 ((s.acked p f cor unc).port p).credit1 (flitWord f 0 % 2 ^ 32) else ((s.acked p f cor unc).port p).credit1) ∧
      t.rd (Obj.ctrlDiscards p) = (s.rd (Obj.ctrlDiscards p) + ((if creditOk ((s.acked p f cor unc).port p).credit0 (flitWord f 0 >>> 32) ((s.acked p f cor unc).port p).sent0 = true then 0 else 1) + (if creditOk ((s.acked p f cor unc).port p).credit1 (flitWord f 0 % 2 ^ 32) ((s.acked p f cor unc).port p).sent1 = true then 0 else 1))) % 2 ^ 64) ∧
  (∀ (s : State) (p : Fin 16) (f : Bytes) (cor unc : Nat),
    s.portIs p psDown = false → s.portIs p psFailed = false → flitIntact f unc = true →
    ((s.portIs p psUp = false ∧ s.portIs p psHeld = false) ∨ (linkWord f).ftype ≠ 3) →
    ∃ t, exec (.creditFlitRx p f cor unc) s = .next t ∧
      t = (s.acked p f cor unc)) ∧
  (∀ (s : State) (p : Fin 16) (f : Bytes) (cor unc : Nat),
    (s.portIs p psDown = true ∨ s.portIs p psFailed = true) →
    ∃ t, exec (.creditFlitRx p f cor unc) s = .next t ∧
      t = s) ∧
  (∀ (s : State) (p : Fin 16) (f : Bytes) (cor unc : Nat),
    s.portIs p psDown = false → s.portIs p psFailed = false → flitIntact f unc = false →
    ∃ t, exec (.creditFlitRx p f cor unc) s = .next t ∧
      t.rd (Obj.parityErrors p) = (s.rd (Obj.parityErrors p) + 1) % 2 ^ 64 ∧ (t.port p).rxSeq = (s.port p).rxSeq ∧
      (t.port p).buffer = (s.port p).buffer ∧ (t.port p).queue = (s.port p).queue ∧
      t.rd (Obj.fecUncorrectable p) = (s.rd (Obj.fecUncorrectable p) + unc) % 2 ^ 64 ∧ t.rd (Obj.portState p) = s.rd (Obj.portState p) ∧
      (s.portIs p psUp = true ∨ s.portIs p psHeld = true ∨ s.portIs p psRetrain = true → (t.port p).nakOut = true)) ∧
  (∀ (s : State) (p : Fin 16),
    (s.portIs p psUp = true ∨ s.portIs p psHeld = true) →
    (64 ≤ (s.port p).freed ∨ (s.port p).creditAt = none ∨ us ≤ s.now - (s.port p).creditAt.getD 0) →
    ∃ t, exec (.creditSend p) s = .next t ∧
      t.out = .flit p (flitBytes { ftype := 3, fseq := 0, ackSeq := ((s.port p).rxSeq + 4095) % 4096, ackV := (decide (0 < (s.port p).owed) || (s.port p).owedDup), nak := false, vc := 0 } (p64 ((512 + (s.port p).rcv0) % 2 ^ 32 * 2 ^ 32 + (512 + (s.port p).rcv1) % 2 ^ 32))) :: s.out ∧
      (t.port p).freed = 0 ∧ (t.port p).creditAt = some s.now) ∧
  (∀ (s : State) (p : Fin 16),
    ((s.portIs p psUp = false ∧ s.portIs p psHeld = false) ∨ ((s.port p).freed < 64 ∧ (s.port p).creditAt ≠ none ∧ s.now - (s.port p).creditAt.getD 0 < us)) →
    ∃ t, exec (.creditSend p) s = .next t ∧
      t = s)

/-- Pace-mode flits, identities and the LLDPDUs of a port. Each clause concludes that exec answers a next state, under conditions on the state
and the operands alone. Completes: paceModeSend, paceModeFlitRx, lldpFlitRx, lldpMissing, lldpSend. -/
def Obligations.PaceAndIdentityOfPorts : Prop :=
  (∀ (s : State) (p : Nat),
    1000 ≤ s.now - s.link.paceAt → s.pickPlane (s.rd Obj.planModule % 16) = some p →
    ∃ t, exec (.paceModeSend) s = .next t ∧
      (∃ l, l.ftype = 4 ∧ t.out = .flit p (flitBytes l s.paceFlit) :: s.out) ∧ t.link.paceSeq = (s.link.paceSeq + 1) % 2 ^ 32 ∧
      t.link.paceAt = s.now ∧ t.rd Obj.paceSent = s.paceNow) ∧
  (∀ (s : State),
    (s.now - s.link.paceAt < 1000 ∨ s.pickPlane (s.rd Obj.planModule % 16) = none) →
    ∃ t, exec (.paceModeSend) s = .next t ∧
      t = s) ∧
  (∀ (s : State) (p : Fin 16) (f : Bytes) (cor unc : Nat),
    s.portIs p psUp = true → flitIntact f unc = true → (linkWord f).ftype = 4 → (paceEntOf f s.now).pace ≤ 0x8000 → flitWord f 3 >>> 40 % 256 = 1 →
    ((s.link.pace.find (paceKey f)).all fun y => after (paceEntOf f s.now).seq y.seq || decide (100 * us ≤ s.now - y.tick)) = true →
    ∃ t, exec (.paceModeFlitRx p f cor unc) s = .next t ∧
      t.link.pace.find (paceKey f) = some (paceEntOf f s.now)) ∧
  (∀ (s : State) (p : Fin 16) (f : Bytes) (cor unc : Nat),
    s.portIs p psUp = true → flitIntact f unc = true → (linkWord f).ftype = 4 →
    (0x8000 < (paceEntOf f s.now).pace ∨ flitWord f 3 >>> 40 % 256 ≠ 1 ∨ ((s.link.pace.find (paceKey f)).all fun y => after (paceEntOf f s.now).seq y.seq || decide (100 * us ≤ s.now - y.tick)) = false) →
    ∃ t, exec (.paceModeFlitRx p f cor unc) s = .next t ∧
      t.link.pace = s.link.pace ∧ t.rd (Obj.ctrlDiscards p) = (s.rd (Obj.ctrlDiscards p) + 1) % 2 ^ 64) ∧
  (∀ (s : State) (p : Fin 16) (f : Bytes) (cor unc : Nat),
    s.portIs p psDown = false → s.portIs p psFailed = false → flitIntact f unc = true → (s.portIs p psUp = false ∨ (linkWord f).ftype ≠ 4) →
    ∃ t, exec (.paceModeFlitRx p f cor unc) s = .next t ∧
      t.link.pace = s.link.pace ∧ t.rd (Obj.ctrlDiscards p) = s.rd (Obj.ctrlDiscards p)) ∧
  (∀ (s : State) (p : Fin 16) (f : Bytes) (cor unc : Nat),
    s.portIs p psDown = false → s.portIs p psFailed = false → flitIntact f unc = false →
    ∃ t, exec (.paceModeFlitRx p f cor unc) s = .next t ∧
      t.link.pace = s.link.pace ∧ t.rd (Obj.ctrlDiscards p) = (s.rd (Obj.ctrlDiscards p) + 1) % 2 ^ 64 ∧
      t.rd (Obj.parityErrors p) = (s.rd (Obj.parityErrors p) + 1) % 2 ^ 64) ∧
  (∀ (s : State) (p : Fin 16) (f : Bytes) (cor unc : Nat),
    (s.portIs p psDown = true ∨ s.portIs p psFailed = true) →
    ∃ t, exec (.paceModeFlitRx p f cor unc) s = .next t ∧
      t.link.pace = s.link.pace ∧ t.rd (Obj.ctrlDiscards p) = s.rd (Obj.ctrlDiscards p) ∧ t.rd (Obj.parityErrors p) = s.rd (Obj.parityErrors p)) ∧
  (∀ (s : State) (p : Fin 16) (f : Bytes) (cor unc : Nat) (c v n : Nat),
    (s.portIs p psIdentity = true ∨ s.portIs p psUp = true ∨ s.portIs p psHeld = true ∨ s.portIs p psRetrain = true) → flitIntact f unc = true →
    (linkWord f).ftype = 5 → lldpOf f = some (c, v, n) →
    ∃ t, exec (.lldpFlitRx p f cor unc) s = .next t ∧
      t.rd (Obj.peerChassis p) = c ∧ t.rd (Obj.peerSwitchPort p) = v ∧ (t.port p).idFrom = some s.now ∧ (t.port p).idTtl = n ∧
      (s.portIs p psIdentity = true ∨ (s.port p).idFrom = none ∨ ((s.port p).change = some (c, v) ∧ 2 ≤ (s.port p).changeSeen) → (t.port p).chassis = c ∧ (t.port p).switchPort = v)) ∧
  (∀ (s : State) (p : Fin 16) (f : Bytes) (cor unc : Nat),
    (s.portIs p psIdentity = true ∨ s.portIs p psUp = true ∨ s.portIs p psHeld = true ∨ s.portIs p psRetrain = true) → flitIntact f unc = true →
    (linkWord f).ftype = 5 → lldpOf f = none →
    ∃ t, exec (.lldpFlitRx p f cor unc) s = .next t ∧
      t = (s.acked p f cor unc).ctrlDiscard p ∧ t.rd (Obj.ctrlDiscards p) = (s.rd (Obj.ctrlDiscards p) + 1) % 2 ^ 64) ∧
  (∀ (s : State) (p : Fin 16) (f : Bytes) (cor unc : Nat),
    s.portIs p psDown = false → s.portIs p psFailed = false → flitIntact f unc = true →
    ((s.portIs p psIdentity = false ∧ s.portIs p psUp = false ∧ s.portIs p psHeld = false ∧ s.portIs p psRetrain = false) ∨ (linkWord f).ftype ≠ 5) →
    ∃ t, exec (.lldpFlitRx p f cor unc) s = .next t ∧
      t = (s.acked p f cor unc)) ∧
  (∀ (s : State) (p : Fin 16) (f : Bytes) (cor unc : Nat),
    (s.portIs p psDown = true ∨ s.portIs p psFailed = true) →
    ∃ t, exec (.lldpFlitRx p f cor unc) s = .next t ∧
      t = s) ∧
  (∀ (s : State) (p : Fin 16) (f : Bytes) (cor unc : Nat),
    s.portIs p psDown = false → s.portIs p psFailed = false → flitIntact f unc = false →
    ∃ t, exec (.lldpFlitRx p f cor unc) s = .next t ∧
      t.rd (Obj.parityErrors p) = (s.rd (Obj.parityErrors p) + 1) % 2 ^ 64 ∧ (t.port p).rxSeq = (s.port p).rxSeq ∧
      (t.port p).buffer = (s.port p).buffer ∧ (t.port p).queue = (s.port p).queue ∧
      t.rd (Obj.fecUncorrectable p) = (s.rd (Obj.fecUncorrectable p) + unc) % 2 ^ 64 ∧ t.rd (Obj.portState p) = s.rd (Obj.portState p) ∧
      (s.portIs p psUp = true ∨ s.portIs p psHeld = true ∨ s.portIs p psRetrain = true → (t.port p).nakOut = true)) ∧
  (∀ (s : State) (p : Fin 16),
    s.inPlan p = true →
    (((s.portIs p psIdentity = true ∧ (s.port p).idFrom = none ∧ 5000 * ms ≤ s.now - (s.port p).since) ∨ ((s.port p).idFrom ≠ none ∧ s.idValid p = false ∧ (s.portIs p psIdentity = true ∨ s.portIs p psUp = true ∨ s.portIs p psHeld = true)))) →
    s.rd (Obj.idResult p) ≠ 7 →
    ∃ t, exec (.lldpMissing p) s = .next t ∧
      t.rd (Obj.idResult p) = 7 ∧ t.rd (Obj.portState p) = psHeld ∧ (t.port p).idFrom = none) ∧
  (∀ (s : State) (p : Fin 16),
    (s.inPlan p = false ∨ ¬ ((s.portIs p psIdentity = true ∧ (s.port p).idFrom = none ∧ 5000 * ms ≤ s.now - (s.port p).since) ∨ ((s.port p).idFrom ≠ none ∧ s.idValid p = false ∧ (s.portIs p psIdentity = true ∨ s.portIs p psUp = true ∨ s.portIs p psHeld = true))) ∨ s.rd (Obj.idResult p) = 7) →
    ∃ t, exec (.lldpMissing p) s = .next t ∧
      t = s) ∧
  (∀ (s : State) (p : Fin 16),
    (s.portIs p psIdentity = true ∨ s.portIs p psUp = true ∨ s.portIs p psHeld = true ∨ s.portIs p psRetrain = true) →
    (((s.port p).planDue = true ∨ (s.port p).lldpAt = none ∨ 1000 * ms ≤ s.now - (s.port p).lldpAt.getD 0 ∨ ((s.port p).lldpAt.getD 0 < (s.port p).since ∧ s.portIs p psIdentity = true))) →
    ∃ t, exec (.lldpSend p) s = .next t ∧
      t.out = .flit p (flitBytes { ftype := 5, fseq := 0, ackSeq := ((s.port p).rxSeq + 4095) % 4096, ackV := (decide (0 < (s.port p).owed) || (s.port p).owedDup), nak := false, vc := 0 } (p16 (s.lldpFrame p).length ++ s.lldpFrame p)) :: s.out ∧
      (t.port p).lldpAt = some s.now ∧ (t.port p).planDue = false) ∧
  (∀ (s : State) (p : Fin 16),
    ((s.portIs p psIdentity = false ∧ s.portIs p psUp = false ∧ s.portIs p psHeld = false ∧ s.portIs p psRetrain = false) ∨ ¬ ((s.port p).planDue = true ∨ (s.port p).lldpAt = none ∨ 1000 * ms ≤ s.now - (s.port p).lldpAt.getD 0 ∨ ((s.port p).lldpAt.getD 0 < (s.port p).since ∧ s.portIs p psIdentity = true))) →
    ∃ t, exec (.lldpSend p) s = .next t ∧
      t = s)

/-- Training, retraining, failure and sleep of a port. Each clause concludes that exec answers a next state, under conditions on the state and
the operands alone. Completes: portTrainingStart, fecLock, fecLockTimeout, helloExchangeTimeout, helloRx, powerFlitRx, laneLoss, retrain,
retrainDone, retrainTimeout, lp1Idle, lp1Exit, portSleepWrite. -/
def Obligations.PortsTrainRetrainAndSleep : Prop :=
  (∀ (s : State) (p : Fin 16),
    s.opticsOn = true → s.portIs p psDown = true → s.rd (Obj.portSleep p) = 0 →
    ((s.port p).failedAt = none ∨ 1000 * ms ≤ s.now - (s.port p).failedAt.getD 0) →
    ∃ t, exec (.portTrainingStart p) s = .next t ∧
      t.rd (Obj.portState p) = psTraining ∧ t.rd (Obj.portPowerState p) = 0 ∧ (t.port p).locked = false ∧ (t.port p).since = s.now ∧
      (t.port p).plan.mode = s.rd Obj.planMode ∧ (t.port p).plan.module = s.rd Obj.planModule ∧ (t.port p).plan.pod = s.rd Obj.planPod ∧ (t.port p).plan.used = s.rd Obj.planPlanesUsed) ∧
  (∀ (s : State) (p : Fin 16),
    (s.opticsOn = false ∨ s.portIs p psDown = false ∨ s.rd (Obj.portSleep p) ≠ 0 ∨ ((s.port p).failedAt ≠ none ∧ s.now - (s.port p).failedAt.getD 0 < 1000 * ms)) →
    ∃ t, exec (.portTrainingStart p) s = .next t ∧
      t = s) ∧
  (∀ (s : State) (p : Fin 16),
    s.portIs p psTraining = true → (s.port p).locked = false →
    ∃ t, exec (.fecLock p) s = .next t ∧
      t.out = .flit p (flitBytes { ftype := 6, fseq := 0, ackSeq := ((s.port p).rxSeq + 4095) % 4096, ackV := (decide (0 < (s.port p).owed) || (s.port p).owedDup), nak := false, vc := 0 } (p64 (2 ^ 56 + p.val * 2 ^ 48 + s.now % 2 ^ 48) ++ p64 0)) :: s.out ∧
      (t.port p).locked = true ∧ (t.port p).since = s.now) ∧
  (∀ (s : State) (p : Fin 16),
    (s.portIs p psTraining = false ∨ (s.port p).locked = true) →
    ∃ t, exec (.fecLock p) s = .next t ∧
      t = s) ∧
  (∀ (s : State) (p : Fin 16),
    s.portIs p psTraining = true → (s.port p).locked = false → 50 * ms < s.now - (s.port p).since →
    ∃ t, exec (.fecLockTimeout p) s = .next t ∧
      t.rd (Obj.portState p) = psDown ∧ t.rd (Obj.idResult p) = 0 ∧ (t.port p).queue = [] ∧ (t.port p).buffer = [] ∧
      (t.port p).txSeq = 0 ∧ (t.port p).rxSeq = 0 ∧ (t.port p).failedAt = some s.now) ∧
  (∀ (s : State) (p : Fin 16),
    (s.portIs p psTraining = false ∨ (s.port p).locked = true ∨ s.now - (s.port p).since ≤ 50 * ms) →
    ∃ t, exec (.fecLockTimeout p) s = .next t ∧
      t = s) ∧
  (∀ (s : State) (p : Fin 16),
    s.portIs p psTraining = true → (s.port p).locked = true → ms < s.now - (s.port p).since →
    ∃ t, exec (.helloExchangeTimeout p) s = .next t ∧
      t.rd (Obj.portState p) = psDown ∧ t.rd (Obj.idResult p) = 0 ∧ (t.port p).queue = [] ∧ (t.port p).buffer = [] ∧
      (t.port p).txSeq = 0 ∧ (t.port p).rxSeq = 0 ∧ (t.port p).failedAt = some s.now) ∧
  (∀ (s : State) (p : Fin 16),
    (s.portIs p psTraining = false ∨ (s.port p).locked = false ∨ s.now - (s.port p).since ≤ ms) →
    ∃ t, exec (.helloExchangeTimeout p) s = .next t ∧
      t = s) ∧
  (∀ (s : State) (p : Fin 16) (f : Bytes) (cor unc : Nat),
    s.portIs p psTraining = true → (s.port p).locked = true → flitIntact f unc = true → (linkWord f).ftype = 6 → flitWord f 1 ≠ 0 →
    ((s.now + 2 ^ 48 - flitWord f 1 % 2 ^ 48) % 2 ^ 48 * 10) ≤ 10000 →
    ∃ t, exec (.helloRx p f cor unc) s = .next t ∧
      t.rd (Obj.rttNs p) = ((s.now + 2 ^ 48 - flitWord f 1 % 2 ^ 48) % 2 ^ 48 * 10) ∧ t.rd (Obj.portState p) = psIdentity ∧
      (t.port p).idFrom = none ∧
      t.out.head? = some (.flit p (flitBytes { ftype := 6, fseq := 0, ackSeq := ((s.port p).rxSeq + 4095) % 4096, ackV := (decide (0 < (s.port p).owed) || (s.port p).owedDup), nak := false, vc := 0 } (p64 (2 ^ 56 + p.val * 2 ^ 48 + s.now % 2 ^ 48) ++ p64 (flitWord f 0 % 2 ^ 48))))) ∧
  (∀ (s : State) (p : Fin 16) (f : Bytes) (cor unc : Nat),
    s.portIs p psTraining = true → (s.port p).locked = true → flitIntact f unc = true → (linkWord f).ftype = 6 →
    (flitWord f 1 = 0 ∨ 10000 < ((s.now + 2 ^ 48 - flitWord f 1 % 2 ^ 48) % 2 ^ 48 * 10)) →
    ∃ t, exec (.helloRx p f cor unc) s = .next t ∧
      t.rd (Obj.rttNs p) = s.rd (Obj.rttNs p) ∧ t.rd (Obj.portState p) = psTraining ∧
      t.out.head? = some (.flit p (flitBytes { ftype := 6, fseq := 0, ackSeq := ((s.port p).rxSeq + 4095) % 4096, ackV := (decide (0 < (s.port p).owed) || (s.port p).owedDup), nak := false, vc := 0 } (p64 (2 ^ 56 + p.val * 2 ^ 48 + s.now % 2 ^ 48) ++ p64 (flitWord f 0 % 2 ^ 48))))) ∧
  (∀ (s : State) (p : Fin 16) (f : Bytes) (cor unc : Nat),
    s.portIs p psUp = true → flitIntact f unc = true → (linkWord f).ftype = 6 →
    ∃ t, exec (.helloRx p f cor unc) s = .next t ∧
      t.rd (Obj.portState p) = psRetrain ∧ t.rd (Obj.retrains p) = min (s.rd (Obj.retrains p) + 1) (2 ^ 32 - 1)) ∧
  (∀ (s : State) (p : Fin 16) (f : Bytes) (cor unc : Nat),
    s.portIs p psRetrain = true → flitIntact f unc = true → (linkWord f).ftype = 6 → flitWord f 1 = 0 →
    ∃ t, exec (.helloRx p f cor unc) s = .next t ∧
      t.rd (Obj.portState p) = psRetrain ∧
      t.out.head? = some (.flit p (flitBytes { ftype := 6, fseq := 0, ackSeq := ((s.port p).rxSeq + 4095) % 4096, ackV := (decide (0 < (s.port p).owed) || (s.port p).owedDup), nak := false, vc := 0 } (p64 (2 ^ 56 + p.val * 2 ^ 48 + s.now % 2 ^ 48) ++ p64 (flitWord f 0 % 2 ^ 48))))) ∧
  (∀ (s : State) (p : Fin 16) (f : Bytes) (cor unc : Nat),
    s.portIs p psDown = false → s.portIs p psFailed = false → flitIntact f unc = true →
    ((linkWord f).ftype ≠ 6 ∨ ((s.portIs p psTraining = false ∨ (s.port p).locked = false) ∧ s.portIs p psUp = false ∧ (s.portIs p psRetrain = false ∨ flitWord f 1 ≠ 0))) →
    ∃ t, exec (.helloRx p f cor unc) s = .next t ∧
      t = (s.acked p f cor unc)) ∧
  (∀ (s : State) (p : Fin 16) (f : Bytes) (cor unc : Nat),
    (s.portIs p psDown = true ∨ s.portIs p psFailed = true) →
    ∃ t, exec (.helloRx p f cor unc) s = .next t ∧
      t = s) ∧
  (∀ (s : State) (p : Fin 16) (f : Bytes) (cor unc : Nat),
    s.portIs p psDown = false → s.portIs p psFailed = false → flitIntact f unc = false →
    ∃ t, exec (.helloRx p f cor unc) s = .next t ∧
      t.rd (Obj.parityErrors p) = (s.rd (Obj.parityErrors p) + 1) % 2 ^ 64 ∧ (t.port p).rxSeq = (s.port p).rxSeq ∧
      (t.port p).buffer = (s.port p).buffer ∧ (t.port p).queue = (s.port p).queue ∧
      t.rd (Obj.fecUncorrectable p) = (s.rd (Obj.fecUncorrectable p) + unc) % 2 ^ 64 ∧ t.rd (Obj.portState p) = s.rd (Obj.portState p) ∧
      (s.portIs p psUp = true ∨ s.portIs p psHeld = true ∨ s.portIs p psRetrain = true → (t.port p).nakOut = true)) ∧
  (∀ (s : State) (p : Fin 16) (f : Bytes) (cor unc : Nat),
    s.portIs p psUp = true → flitIntact f unc = true → (linkWord f).ftype = 8 → flitWord f 0 >>> 60 ≤ 3 →
    ∃ t, exec (.powerFlitRx p f cor unc) s = .next t ∧
      (t.port p).partner = flitWord f 0 >>> 60 ∧ t.rd (Obj.portState p) = psUp) ∧
  (∀ (s : State) (p : Fin 16) (f : Bytes) (cor unc : Nat),
    s.portIs p psDown = false → s.portIs p psFailed = false → flitIntact f unc = true →
    (s.portIs p psUp = false ∨ (linkWord f).ftype ≠ 8 ∨ 3 < flitWord f 0 >>> 60) →
    ∃ t, exec (.powerFlitRx p f cor unc) s = .next t ∧
      t = (s.acked p f cor unc)) ∧
  (∀ (s : State) (p : Fin 16) (f : Bytes) (cor unc : Nat),
    (s.portIs p psDown = true ∨ s.portIs p psFailed = true) →
    ∃ t, exec (.powerFlitRx p f cor unc) s = .next t ∧
      t = s) ∧
  (∀ (s : State) (p : Fin 16) (f : Bytes) (cor unc : Nat),
    s.portIs p psDown = false → s.portIs p psFailed = false → flitIntact f unc = false →
    ∃ t, exec (.powerFlitRx p f cor unc) s = .next t ∧
      t.rd (Obj.parityErrors p) = (s.rd (Obj.parityErrors p) + 1) % 2 ^ 64 ∧ (t.port p).rxSeq = (s.port p).rxSeq ∧
      (t.port p).buffer = (s.port p).buffer ∧ (t.port p).queue = (s.port p).queue ∧
      t.rd (Obj.fecUncorrectable p) = (s.rd (Obj.fecUncorrectable p) + unc) % 2 ^ 64 ∧ t.rd (Obj.portState p) = s.rd (Obj.portState p) ∧
      (s.portIs p psUp = true ∨ s.portIs p psHeld = true ∨ s.portIs p psRetrain = true → (t.port p).nakOut = true)) ∧
  (∀ (s : State) (p : Fin 16),
    s.portIs p psDown = false → s.portIs p psFailed = false → s.portIs p psRetrain = false →
    ∃ t, exec (.laneLoss p) s = .next t ∧
      t.rd (Obj.portState p) = psDown ∧ t.rd (Obj.idResult p) = 0 ∧ (t.port p).queue = [] ∧ (t.port p).buffer = [] ∧
      (t.port p).txSeq = 0 ∧ (t.port p).rxSeq = 0 ∧ (t.port p).failedAt = some s.now) ∧
  (∀ (s : State) (p : Fin 16),
    (s.portIs p psDown = true ∨ s.portIs p psFailed = true ∨ s.portIs p psRetrain = true) →
    ∃ t, exec (.laneLoss p) s = .next t ∧
      t = s) ∧
  (∀ (s : State) (p : Fin 16),
    s.portIs p psUp = true →
    ((4 ≤ (s.port p).stuck ∨ 16 < ((s.port p).badCodes.filter fun y => decide (s.now - y < ms)).length ∨ 3 ≤ ((s.port p).badCredits.filter fun y => decide (s.now - y < ms)).length ∨ (s.port p).protocol = true)) →
    ∃ t, exec (.retrain p) s = .next t ∧
      t.rd (Obj.portState p) = psRetrain ∧ t.rd (Obj.retrains p) = min (s.rd (Obj.retrains p) + 1) (2 ^ 32 - 1) ∧
      (t.port p).buffer = (s.port p).buffer ∧ (t.port p).queue = (s.port p).queue ∧ (t.port p).txSeq = (s.port p).txSeq ∧
      (t.port p).rxSeq = (s.port p).rxSeq ∧
      t.out.head? = some (.flit p (flitBytes { ftype := 6, fseq := 0, ackSeq := ((s.port p).rxSeq + 4095) % 4096, ackV := (decide (0 < (s.port p).owed) || (s.port p).owedDup), nak := false, vc := 0 } (p64 (2 ^ 56 + p.val * 2 ^ 48 + s.now % 2 ^ 48) ++ p64 0)))) ∧
  (∀ (s : State) (p : Fin 16),
    (s.portIs p psUp = false ∨ ¬ (4 ≤ (s.port p).stuck ∨ 16 < ((s.port p).badCodes.filter fun y => decide (s.now - y < ms)).length ∨ 3 ≤ ((s.port p).badCredits.filter fun y => decide (s.now - y < ms)).length ∨ (s.port p).protocol = true)) →
    ∃ t, exec (.retrain p) s = .next t ∧
      t = s) ∧
  (∀ (s : State) (p : Fin 16),
    s.portIs p psRetrain = true → s.recentRetrains p < 3 → s.now - (s.port p).since ≤ 10 * ms →
    ∃ t, exec (.retrainDone p) s = .next t ∧
      t.rd (Obj.portState p) = psUp ∧ (t.port p).rxSeq = (s.port p).rxSeq ∧
      (s.port p).buffer ≠ [] → t.rd (Obj.flitsReplays p) = (s.rd (Obj.flitsReplays p) + 1) % 2 ^ 64) ∧
  (∀ (s : State) (p : Fin 16),
    (s.portIs p psRetrain = false ∨ 3 ≤ s.recentRetrains p ∨ 10 * ms < s.now - (s.port p).since) →
    ∃ t, exec (.retrainDone p) s = .next t ∧
      t = s) ∧
  (∀ (s : State) (p : Fin 16),
    s.portIs p psRetrain = true → (3 ≤ s.recentRetrains p ∨ 10 * ms < s.now - (s.port p).since) →
    ∃ t, exec (.retrainTimeout p) s = .next t ∧
      t.rd (Obj.portState p) = psFailed ∧ t.rd (Obj.idResult p) = 0 ∧ (t.port p).queue = [] ∧ (t.port p).buffer = []) ∧
  (∀ (s : State) (p : Fin 16),
    (s.portIs p psRetrain = false ∨ (s.recentRetrains p < 3 ∧ s.now - (s.port p).since ≤ 10 * ms)) →
    ∃ t, exec (.retrainTimeout p) s = .next t ∧
      t = s) ∧
  (∀ (s : State) (p : Fin 16),
    s.portIs p psUp = true → s.rd (Obj.portPowerState p) = 0 → s.rd Obj.lp1IdleUs ≠ 0 → s.rd Obj.lp1IdleUs * us ≤ s.now - (s.port p).dataAt →
    ∃ t, exec (.lp1Idle p) s = .next t ∧
      t = s.wr (Obj.portPowerState p) 1 ∧ t.rd (Obj.portPowerState p) = 1) ∧
  (∀ (s : State) (p : Fin 16),
    (s.portIs p psUp = false ∨ s.rd (Obj.portPowerState p) ≠ 0 ∨ s.rd Obj.lp1IdleUs = 0 ∨ s.now - (s.port p).dataAt < s.rd Obj.lp1IdleUs * us) →
    ∃ t, exec (.lp1Idle p) s = .next t ∧
      t = s) ∧
  (∀ (s : State) (p : Fin 16),
    s.portIs p psUp = true → s.rd (Obj.portPowerState p) = 1 → (s.port p).queue ≠ [] →
    ∃ t, exec (.lp1Exit p) s = .next t ∧
      t.rd (Obj.portPowerState p) = 0 ∧ (t.port p).dataAt = s.now) ∧
  (∀ (s : State) (p : Fin 16),
    (s.portIs p psUp = false ∨ s.rd (Obj.portPowerState p) ≠ 1 ∨ (s.port p).queue = []) →
    ∃ t, exec (.lp1Exit p) s = .next t ∧
      t = s) ∧
  (∀ (s : State) (src : Src) (p : Fin 16) (v : Nat),
    v ≤ 2 → s.fldDenied src (Obj.portSleep p) = false → s.sleepCond p = 0 → (v = 0 → s.rd (Obj.portSleep p) ≠ 0 ∨ s.portIs p psFailed = true) →
    ∃ t, exec (.portSleepWrite src p v) s = .next t ∧
      t.out.head? = some (.status src (Obj.portSleep p) 0) ∧ t.rd (Obj.portSleep p) = v ∧
      t.rd (Obj.portPowerState p) = (if v = 0 then (if s.rd Obj.powerState = 4 then 3 else 0) else v + 1) ∧ t.rd (Obj.portState p) = psDown ∧
      t.rd (Obj.idResult p) = 0 ∧ (t.port p).queue = [] ∧ (t.port p).buffer = [] ∧ (t.port p).txSeq = 0 ∧ (t.port p).rxSeq = 0) ∧
  (∀ (s : State) (src : Src) (p : Fin 16) (v : Nat),
    v ≤ 2 → s.fldDenied src (Obj.portSleep p) = false → s.sleepCond p = 0 → v = 0 → s.rd (Obj.portSleep p) = 0 → s.portIs p psFailed = false →
    ∃ t, exec (.portSleepWrite src p v) s = .next t ∧
      t.out.head? = some (.status src (Obj.portSleep p) 0) ∧ t.rd (Obj.portState p) = s.rd (Obj.portState p) ∧
      t.rd (Obj.portPowerState p) = s.rd (Obj.portPowerState p) ∧ t.link = s.link) ∧
  (∀ (s : State) (src : Src) (p : Fin 16) (v : Nat),
    v ≤ 2 → s.fldDenied src (Obj.portSleep p) = false → s.sleepCond p ≠ 0 →
    ∃ t, exec (.portSleepWrite src p v) s = .next t ∧
      t.out.head? = some (.status src (Obj.portSleep p) (s.sleepCond p)) ∧ t.rd (Obj.portState p) = s.rd (Obj.portState p) ∧
      t.rd (Obj.portSleep p) = s.rd (Obj.portSleep p) ∧ t.rd Obj.dictRejected = (s.rd Obj.dictRejected + 1) % 2 ^ 64)

/-- Input voltage bands, their events, parking and the loss of power. Each clause concludes that exec answers a next state, under conditions on
the state and the operands alone. Completes: inputOvp, inputOvpRelease, inputHigh, inputLow, inputLowPark, inputLowResume, powerFail. -/
def Obligations.InputPowerIsWatched : Prop :=
  (∀ (s : State) (mv : Nat),
    44000 < mv → s.power.ovp = false →
    ∃ t, exec (.inputOvp mv) s = .next t ∧
      t.standby = false ∧ t.start.rails = false ∧ t.tile = TileState.reset ∧ t.cmd = CmdState.reset ∧
      t.power = { PowerState.reset with ovp := true } ∧
      (∃ f, t.dict.flash = s.dict.flash ++ [f] ∧ f.code = Ev.inputOvp ∧ f.session = s.rd Obj.powerSession ∧ f.ticks = s.now)) ∧
  (∀ (s : State) (mv : Nat),
    (mv ≤ 44000 ∨ s.power.ovp = true) →
    ∃ t, exec (.inputOvp mv) s = .next t ∧
      t = s) ∧
  (∀ (s : State) (mv : Nat),
    40000 ≤ mv →
    ∃ t, exec (.inputOvpRelease mv) s = .next t ∧
      t = s) ∧
  (∀ (s : State) (mv : Nat),
    (s.standby = false ∨ mv ≤ 40000 ∨ 44000 < mv ∨ s.inEpisode Ev.inputHigh 0 = true) →
    ∃ t, exec (.inputHigh mv) s = .next t ∧
      t = s) ∧
  (∀ (s : State) (mv : Nat),
    (s.standby = false ∨ mv < 28000 ∨ 32000 ≤ mv ∨ s.inEpisode Ev.inputLow 0 = true) →
    ∃ t, exec (.inputLow mv) s = .next t ∧
      t = s) ∧
  (∀ (s : State) (mv : Nat),
    (s.standby = false ∨ mv < 28000 ∨ 30000 ≤ mv) →
    ∃ t, exec (.inputLowPark mv) s = .next t ∧
      t = s) ∧
  (∀ (s : State) (mv : Nat),
    (s.standby = false ∨ mv < 31000) →
    ∃ t, exec (.inputLowResume mv) s = .next t ∧
      t = s) ∧
  (∀ (s : State) (mv : Nat),
    (s.standby = false ∨ 28000 ≤ mv) →
    ∃ t, exec (.powerFail mv) s = .next t ∧
      t = s) ∧
  (∀ (s : State) (mv : Nat),
    mv < 40000 →
    ∃ t, exec (.inputOvpRelease mv) s = .next t ∧
      t = { s with power := { s.power with ovp := false } }) ∧
  (∀ (s : State) (mv : Nat),
    s.standby = true → 40000 < mv → mv ≤ 44000 → s.inEpisode Ev.inputHigh 0 = false →
    ∃ t, exec (.inputHigh mv) s = .next t ∧
      t.inEpisode Ev.inputHigh 0 = true ∧
      t.rd (Obj.occurrences (Ev.inputHigh / 256 - 1) (Ev.inputHigh % 256)) = (s.rd (Obj.occurrences (Ev.inputHigh / 256 - 1) (Ev.inputHigh % 256)) + 1) % 2 ^ 32 ∧
      t.power = s.power) ∧
  (∀ (s : State) (mv : Nat),
    s.standby = true → 28000 ≤ mv → mv < 32000 → s.inEpisode Ev.inputLow 0 = false →
    ∃ t, exec (.inputLow mv) s = .next t ∧
      t.inEpisode Ev.inputLow 0 = true ∧
      t.rd (Obj.occurrences (Ev.inputLow / 256 - 1) (Ev.inputLow % 256)) = (s.rd (Obj.occurrences (Ev.inputLow / 256 - 1) (Ev.inputLow % 256)) + 1) % 2 ^ 32 ∧
      t.power = s.power) ∧
  (∀ (s : State) (mv : Nat),
    s.standby = true → 28000 ≤ mv → mv < 30000 →
    ∃ t, exec (.inputLowPark mv) s = .next t ∧
      t.power.inputPark = true ∧
      (s.rd Obj.moduleState = 2 → s.power.deep = false → s.power.hold = false → s.power.heatPark = false → t.rd Obj.powerState = 2)) ∧
  (∀ (s : State) (mv : Nat),
    s.standby = true → 31000 ≤ mv →
    ∃ t, exec (.inputLowResume mv) s = .next t ∧
      t.power.inputPark = false ∧ t.inEpisode Ev.inputLowPark 0 = false) ∧
  (∀ (s : State) (mv : Nat),
    s.standby = true → mv < 28000 →
    ∃ t, exec (.powerFail mv) s = .next t ∧
      t.standby = false ∧ t.start.rails = false ∧ t.tile = TileState.reset ∧ t.cmd = CmdState.reset ∧ t.power.ovp = s.power.ovp ∧
      (∃ f, t.dict.flash = s.dict.flash ++ [f] ∧ f.code = Ev.powerFail ∧ f.params = p16 mv) ∧ t.store.zones = s.store.zones)

/-- Demands, grants, operating points and the fallbacks of Bellows. Each clause concludes that exec answers a next state, under conditions on
the state and the operands alone. Completes: bellowsDemand, bellowsGrant, grantTakeEffect, opChangeDone, bellowsTimeout, bellowsRestart,
backgroundStarved. -/
def Obligations.BellowsGrantsPower : Prop :=
  (∀ (s : State) (d : Fin 5) (e0 e1 e2 : Nat) (perOp : List Nat),
    s.bellowsOn = true →
    ∃ t, exec (.bellowsDemand d e0 e1 e2 perOp) s = .next t ∧
      t.demand d = { e0 := s.gained e0, e1 := s.gained e1, e2 := s.gained e2, epoch := s.now / 1000, told := false } ∧
      t.rd (Obj.requestW (d + 1)) = min 1800 (s.gained e0 + s.gained e1 + s.gained e2) ∧
      t.power.perOp = (if d = 0 then perOp.map s.gained else s.power.perOp)) ∧
  (∀ (s : State) (d : Fin 5) (e0 e1 e2 : Nat) (perOp : List Nat),
    s.bellowsOn = false →
    ∃ t, exec (.bellowsDemand d e0 e1 e2 perOp) s = .next t ∧
      t = s) ∧
  (∀ (s : State),
    s.bellowsOn = true → 200 ≤ s.now % 1000 → s.power.epoch < s.now / 1000 →
    ∃ t, exec (.bellowsGrant) s = .next t ∧
      t.rd Obj.capInForceW = min 1800 s.capNow.1 ∧ t.rd Obj.capLimiter = s.capNow.2 ∧
      (∃ g, t.power.next = some g ∧ g.epoch = s.now / 1000 ∧ g.fallback = false ∧ ((s.capNow.1 < 210 ∨ s.heldDown = true) → g.watts = (List.range 5).map Config.floorW ∧ g.op = 7 ∧ g.deferred = 2 ∧ (g.park = true ↔ s.capNow.1 < 210))) ∧
      t.power.epoch = s.now / 1000 ∧ t.power.grantAt = s.now) ∧
  (∀ (s : State),
    (s.bellowsOn = false ∨ s.now % 1000 < 200 ∨ s.now / 1000 ≤ s.power.epoch) →
    ∃ t, exec (.bellowsGrant) s = .next t ∧
      t = s) ∧
  (∀ (s : State) (g : Grant),
    s.power.next = some g → (g.fallback = false ∧ 1000 * (g.epoch + 1) ≤ s.now ∨ g.fallback = true ∧ s.power.change = none) →
    ∃ t, exec (.grantTakeEffect) s = .next t ∧
      t.rd Obj.duty = g.duty ∧ t.rd Obj.deferred = g.deferred ∧ t.rd Obj.ceilingBudget = g.budgetOp ∧ t.power.next = none ∧ t.power.total = g.total ∧
      t.power.capPark = g.park ∧ t.power.e2From = (if g.deferred = 0 then none else some (s.power.e2From.getD s.now)) ∧
      (g.deferred = 0 → t.inEpisode Ev.backgroundStarved 0 = false) ∧ (∀ d, d < 5 → t.rd (Obj.grantW (d + 1)) = min 1800 (g.watts.getD d 0))) ∧
  (∀ (s : State) (g : Grant),
    s.power.next = some g → (g.fallback = false ∧ 1000 * (g.epoch + 1) ≤ s.now ∨ g.fallback = true ∧ s.power.change = none) → s.power.change = none →
    s.rd Obj.powerState < 2 → g.park = false → s.power.deep = false → s.heldDown = false →
    ∃ t, exec (.grantTakeEffect) s = .next t ∧
      (s.rd Obj.opInForce < g.op → t.rd Obj.opInForce = g.op ∧ t.power.change = some g.op) ∧
      (g.op < s.rd Obj.opInForce → t.rd Obj.opInForce = s.rd Obj.opInForce ∧ t.power.change = some g.op) ∧
      (g.op = s.rd Obj.opInForce → t.rd Obj.opInForce = g.op ∧ t.power.change = none) ∧ t.rd Obj.powerState < 2) ∧
  (∀ (s : State) (g : Grant),
    s.power.next = some g → (¬ (g.fallback = false ∧ 1000 * (g.epoch + 1) ≤ s.now ∨ g.fallback = true ∧ s.power.change = none)) →
    ∃ t, exec (.grantTakeEffect) s = .next t ∧
      t = s) ∧
  (∀ (s : State),
    s.power.next = none →
    ∃ t, exec (.grantTakeEffect) s = .next t ∧
      t = s) ∧
  (∀ (s : State) (c : Nat),
    s.power.change = some c → s.railSettled = true →
    ∃ t, exec (.opChangeDone) s = .next t ∧
      t.rd Obj.opInForce = c ∧ t.power.change = none ∧ t.clock.trimHold = s.now + 1000) ∧
  (∀ (s : State),
    (s.power.change = none ∨ s.railSettled = false) →
    ∃ t, exec (.opChangeDone) s = .next t ∧
      t = s) ∧
  (∀ (s : State) (d : Fin 5),
    s.bellowsOn = true → (s.demand d).told = false → (s.demand d).epoch + 4 ≤ s.now / 1000 →
    ∃ t, exec (.bellowsTimeout d) s = .next t ∧
      t.demand d = Demand.none ∧ t.power.perOp = (if d = 0 then [] else s.power.perOp) ∧
      t.rd (Obj.occurrences (Ev.bellowsTimeout / 256 - 1) (Ev.bellowsTimeout % 256)) = (s.rd (Obj.occurrences (Ev.bellowsTimeout / 256 - 1) (Ev.bellowsTimeout % 256)) + 1) % 2 ^ 32) ∧
  (∀ (s : State) (d : Fin 5),
    (s.bellowsOn = false ∨ (s.demand d).told = true ∨ s.now / 1000 < (s.demand d).epoch + 4) →
    ∃ t, exec (.bellowsTimeout d) s = .next t ∧
      t = s) ∧
  (∀ (s : State),
    s.bellowsOn = true → 100 * us ≤ s.now - s.power.grantAt → s.power.change = none →
    ∃ t, exec (.bellowsRestart) s = .next t ∧
      t.rd Obj.deferred = 2 ∧ t.rd Obj.ceilingBudget = 7 ∧ t.power.next = none ∧ t.power.total = floorQ ∧ t.power.grantAt = s.now ∧
      t.power.capPark = s.power.capPark ∧
      t.rd (Obj.occurrences (Ev.bellowsRestart / 256 - 1) (Ev.bellowsRestart % 256)) = (s.rd (Obj.occurrences (Ev.bellowsRestart / 256 - 1) (Ev.bellowsRestart % 256)) + 1) % 2 ^ 32) ∧
  (∀ (s : State),
    s.bellowsOn = true → 100 * us ≤ s.now - s.power.grantAt → s.power.change ≠ none →
    ∃ t, exec (.bellowsRestart) s = .next t ∧
      (∃ g, t.power.next = some g ∧ g.fallback = true ∧ g.op = 7 ∧ g.watts = (List.range 5).map Config.floorW ∧ g.park = s.power.capPark) ∧
      t.power.change = s.power.change ∧ t.power.grantAt = s.now ∧
      t.rd (Obj.occurrences (Ev.bellowsRestart / 256 - 1) (Ev.bellowsRestart % 256)) = (s.rd (Obj.occurrences (Ev.bellowsRestart / 256 - 1) (Ev.bellowsRestart % 256)) + 1) % 2 ^ 32) ∧
  (∀ (s : State),
    (s.bellowsOn = false ∨ s.now - s.power.grantAt < 100 * us) →
    ∃ t, exec (.bellowsRestart) s = .next t ∧
      t = s) ∧
  (∀ (s : State) (f : Nat),
    s.power.e2From = some f → 100000 * ms ≤ s.now - f → s.inEpisode Ev.backgroundStarved 0 = false →
    ∃ t, exec (.backgroundStarved) s = .next t ∧
      t.inEpisode Ev.backgroundStarved 0 = true ∧
      t.rd (Obj.occurrences (Ev.backgroundStarved / 256 - 1) (Ev.backgroundStarved % 256)) = (s.rd (Obj.occurrences (Ev.backgroundStarved / 256 - 1) (Ev.backgroundStarved % 256)) + 1) % 2 ^ 32) ∧
  (∀ (s : State) (f : Nat),
    s.power.e2From = some f → 100000 * ms ≤ s.now - f → s.inEpisode Ev.backgroundStarved 0 = true →
    ∃ t, exec (.backgroundStarved) s = .next t ∧
      t = s) ∧
  (∀ (s : State),
    (s.power.e2From = none ∨ s.now - s.power.e2From.getD 0 < 100000 * ms) →
    ∃ t, exec (.backgroundStarved) s = .next t ∧
      t = s.endEpisode Ev.backgroundStarved 0)

/-- The estimator, the cap correction and the pace ceiling. Each clause concludes that exec answers a next state, under conditions on the state
and the operands alone. Completes: estimatorUpdate, capCorrection, paceCeilingUpdate. -/
def Obligations.PowerIsMeasuredAndPaceFollowed : Prop :=
  (∀ (s : State) (vin iin : List Nat) (a : Activity),
    s.bellowsOn = true →
    ∃ t, exec (.estimatorUpdate vin iin a) s = .next t ∧
      t.rd Obj.vinMv = min 60000 (sampleMeans (vin.zip iin)).1 ∧ t.rd Obj.iinMa = min 60000 (sampleMeans (vin.zip iin)).2.1 ∧
      t.rd Obj.pinW = min 2400 ((sampleMeans (vin.zip iin)).2.2 / 1000000) ∧
      t.power.pins = ((sampleMeans (vin.zip iin)).2.2 :: s.power.pins).take 100 ∧
      t.rd Obj.energyJ = s.rd Obj.energyJ + (s.power.energy + (sampleMeans (vin.zip iin)).2.2) / 1000000000 ∧ t.power.samples = vin.zip iin ∧
      t.power.ests = ((List.range 5).map (s.domainEst a)) ∧
      t.power.est = (((List.range 5).map (s.domainEst a)).sum + convLoss ((List.range 5).map (s.domainEst a)).sum) ∧
      t.rd Obj.estErrorW = ofInt 32 (max (-2400) (min 2400 ((s.power.gain.mul ⟨(((List.range 5).map (s.domainEst a)).sum + convLoss ((List.range 5).map (s.domainEst a)).sum), 1000000, 0⟩).sub ⟨(sampleMeans (vin.zip iin)).2.2, 1000000, 0⟩).round)) ∧
      (t.power.kNum, t.power.kDen) = (if (((List.range 5).map (s.domainEst a)).sum + convLoss ((List.range 5).map (s.domainEst a)).sum) = 0 then (s.power.kNum, s.power.kDen) else ((nextGain s.power.kNum s.power.kDen (sampleMeans (vin.zip iin)).2.2 (((List.range 5).map (s.domainEst a)).sum + convLoss ((List.range 5).map (s.domainEst a)).sum)).1, (nextGain s.power.kNum s.power.kDen (sampleMeans (vin.zip iin)).2.2 (((List.range 5).map (s.domainEst a)).sum + convLoss ((List.range 5).map (s.domainEst a)).sum)).2.1))) ∧
  (∀ (s : State) (vin iin : List Nat) (a : Activity),
    s.bellowsOn = false → s.standby = true →
    ∃ t, exec (.estimatorUpdate vin iin a) s = .next t ∧
      t.rd Obj.vinMv = min 60000 (sampleMeans (vin.zip iin)).1 ∧ t.rd Obj.iinMa = min 60000 (sampleMeans (vin.zip iin)).2.1 ∧
      t.rd Obj.pinW = min 2400 ((sampleMeans (vin.zip iin)).2.2 / 1000000) ∧
      t.power.pins = ((sampleMeans (vin.zip iin)).2.2 :: s.power.pins).take 100 ∧
      t.rd Obj.energyJ = s.rd Obj.energyJ + (s.power.energy + (sampleMeans (vin.zip iin)).2.2) / 1000000000 ∧ t.power.samples = vin.zip iin ∧
      t.power.ests = s.power.ests ∧ t.power.est = s.power.est ∧ t.power.kNum = s.power.kNum ∧ t.power.kDen = s.power.kDen) ∧
  (∀ (s : State) (vin iin : List Nat) (a : Activity),
    s.bellowsOn = false → s.standby = false →
    ∃ t, exec (.estimatorUpdate vin iin a) s = .next t ∧
      t = s) ∧
  (∀ (s : State) (c a : Nat),
    c = s.rd Obj.capInForceW * 1000000 → a = (if s.power.pins = [] then 0 else s.power.pins.sum / s.power.pins.length) →
    ∃ t, exec (.capCorrection) s = .next t ∧
      t = { s with power := { s.power with correction := if c + max (c / 100) 5000000 < a then a - c else 0, correctionEnd := s.now + 100 * ms } }) ∧
  (∀ (s : State),
    s.rd Obj.paceFollow = 1 → s.rd Obj.groupSync = 1 → (s.others.filterMap fun m => (s.limitOf m).map fun v => (v, m)) ≠ [] →
    ∃ t, exec (.paceCeilingUpdate) s = .next t ∧
      (∃ b ∈ (s.others.filterMap fun m => (s.limitOf m).map fun v => (v, m)), (∀ y ∈ (s.others.filterMap fun m => (s.limitOf m).map fun v => (v, m)), b.1 ≤ y.1) ∧ t.rd Obj.paceSource = b.2 ∧ t.rd Obj.ceilingPace = ((List.range 8).filter fun i => decide (b.1 ≤ paceOfOp i)).getLastD 0)) ∧
  (∀ (s : State),
    (s.rd Obj.paceFollow ≠ 1 ∨ s.rd Obj.groupSync ≠ 1 ∨ (s.others.filterMap fun m => (s.limitOf m).map fun v => (v, m)) = []) →
    ∃ t, exec (.paceCeilingUpdate) s = .next t ∧
      t.rd Obj.ceilingPace = 0 ∧ t.rd Obj.paceSource = 0xFFFF)

/-- Sensors, the thermal ceiling and the trip. Each clause concludes that exec answers a next state, under conditions on the state and the
operands alone. Completes: sensorSample, sensorSuspect, sensorReaccept, thermalCeilingStep, thermalTrip, nandTempRead. -/
def Obligations.HeatIsWatched : Prop :=
  (∀ (s : State) (j : Fin 24) (a b : Int) (pw : Nat),
    (s.sensor (2 * j)).good s.now a = true → (s.sensor (2 * j)).discarded = false → (s.sensor (2 * j + 1)).good s.now b = true →
    (s.sensor (2 * j + 1)).discarded = false → (a - b).natAbs ≤ 30 →
    ((s.pair j).suspect = false ∨ ((s.pair j).calmFrom ≠ none ∧ 10000 * ms ≤ s.now - (s.pair j).calmFrom.getD 0)) →
    ∃ t, exec (.sensorSample j a b pw) s = .next t ∧
      t.rd (Obj.pairValue (j + 1)) = ofInt 32 (max (-200) (min 1550 (max a b))) ∧ t.rd (Obj.pairStatus (j + 1)) = 0 ∧ (t.pair j).suspect = false ∧
      t.rd (Obj.sensorRaw (2 * j + 1)) = ofInt 32 (max (-400) (min 2000 a)) ∧ t.rd (Obj.sensorRaw (2 * j + 2)) = ofInt 32 (max (-400) (min 2000 b)) ∧
      t.rd Obj.tj = ofInt 32 (max (-200) (min 1550 t.tjNow))) ∧
  (∀ (s : State) (j : Fin 24) (a b : Int) (pw : Nat),
    (s.sensor (2 * j)).good s.now a = true → (s.sensor (2 * j)).discarded = false → (s.sensor (2 * j + 1)).good s.now b = true →
    (s.sensor (2 * j + 1)).discarded = false → 30 < (a - b).natAbs → (s.pair j).suspect = false →
    ∃ t, exec (.sensorSample j a b pw) s = .next t ∧
      t.rd (Obj.pairValue (j + 1)) = ofInt 32 (max (-200) (min 1550 (max a b))) ∧ t.rd (Obj.pairStatus (j + 1)) = 1 ∧
      t.inEpisode Ev.sensorWarn j = true ∧ t.rd (Obj.sensorRaw (2 * j + 1)) = ofInt 32 (max (-400) (min 2000 a)) ∧
      t.rd (Obj.sensorRaw (2 * j + 2)) = ofInt 32 (max (-400) (min 2000 b)) ∧ t.rd Obj.tj = ofInt 32 (max (-200) (min 1550 t.tjNow))) ∧
  (∀ (s : State) (j : Fin 24) (a b : Int) (pw : Nat),
    (s.sensor (2 * j)).good s.now a = true → (s.sensor (2 * j)).discarded = false → (s.sensor (2 * j + 1)).good s.now b = true →
    (s.sensor (2 * j + 1)).discarded = false → (s.pair j).suspect = true →
    (30 < (a - b).natAbs ∨ ¬ ((s.pair j).calmFrom ≠ none ∧ 10000 * ms ≤ s.now - (s.pair j).calmFrom.getD 0)) →
    ∃ t, exec (.sensorSample j a b pw) s = .next t ∧
      t.rd (Obj.pairValue (j + 1)) = ofInt 32 (max (-200) (min 1550 (max (max a b) (s.pairModel j pw)))) ∧ t.rd (Obj.pairStatus (j + 1)) = 2 ∧
      (t.pair j).suspect = true ∧ t.rd (Obj.sensorRaw (2 * j + 1)) = ofInt 32 (max (-400) (min 2000 a)) ∧
      t.rd (Obj.sensorRaw (2 * j + 2)) = ofInt 32 (max (-400) (min 2000 b)) ∧ t.rd Obj.tj = ofInt 32 (max (-200) (min 1550 t.tjNow))) ∧
  (∀ (s : State) (j : Fin 24) (a b : Int) (pw : Nat),
    ((s.sensor (2 * j)).good s.now a = false ∨ (s.sensor (2 * j)).discarded = true) → (s.sensor (2 * j + 1)).good s.now b = true →
    (s.sensor (2 * j + 1)).discarded = false →
    ∃ t, exec (.sensorSample j a b pw) s = .next t ∧
      t.rd (Obj.pairValue (j + 1)) = ofInt 32 (max (-200) (min 1550 (max b (s.pairModel j pw)))) ∧ t.rd (Obj.pairStatus (j + 1)) = 3 ∧
      t.sensor (2 * j) = (if (s.sensor (2 * j)).good s.now a = true then { s.sensor (2 * j) with cleanFrom := some ((s.sensor (2 * j)).cleanFrom.getD s.now) } else { s.sensor (2 * j) with discarded := true, cleanFrom := none }) ∧
      t.rd (Obj.sensorRaw (2 * j + 1)) = ofInt 32 (max (-400) (min 2000 a)) ∧ t.rd (Obj.sensorRaw (2 * j + 2)) = ofInt 32 (max (-400) (min 2000 b)) ∧
      t.rd Obj.tj = ofInt 32 (max (-200) (min 1550 t.tjNow))) ∧
  (∀ (s : State) (j : Fin 24) (a b : Int) (pw : Nat),
    (s.sensor (2 * j)).good s.now a = true → (s.sensor (2 * j)).discarded = false →
    ((s.sensor (2 * j + 1)).good s.now b = false ∨ (s.sensor (2 * j + 1)).discarded = true) →
    ∃ t, exec (.sensorSample j a b pw) s = .next t ∧
      t.rd (Obj.pairValue (j + 1)) = ofInt 32 (max (-200) (min 1550 (max a (s.pairModel j pw)))) ∧ t.rd (Obj.pairStatus (j + 1)) = 3 ∧
      t.sensor (2 * j + 1) = (if (s.sensor (2 * j + 1)).good s.now b = true then { s.sensor (2 * j + 1) with cleanFrom := some ((s.sensor (2 * j + 1)).cleanFrom.getD s.now) } else { s.sensor (2 * j + 1) with discarded := true, cleanFrom := none }) ∧
      t.rd (Obj.sensorRaw (2 * j + 1)) = ofInt 32 (max (-400) (min 2000 a)) ∧ t.rd (Obj.sensorRaw (2 * j + 2)) = ofInt 32 (max (-400) (min 2000 b)) ∧
      t.rd Obj.tj = ofInt 32 (max (-200) (min 1550 t.tjNow))) ∧
  (∀ (s : State) (j : Fin 24) (a b : Int) (pw : Nat),
    ((s.sensor (2 * j)).good s.now a = false ∨ (s.sensor (2 * j)).discarded = true) →
    ((s.sensor (2 * j + 1)).good s.now b = false ∨ (s.sensor (2 * j + 1)).discarded = true) →
    ∃ t, exec (.sensorSample j a b pw) s = .next t ∧
      t.rd (Obj.pairValue (j + 1)) = ofInt 32 (max (-200) (min 1550 ((pairNeighbours j).foldl (fun v k => max v (s.pairTemp k)) (s.pairModel j pw) + 50))) ∧
      t.rd (Obj.pairStatus (j + 1)) = 4 ∧
      t.sensor (2 * j) = (if (s.sensor (2 * j)).good s.now a = true then { s.sensor (2 * j) with cleanFrom := some ((s.sensor (2 * j)).cleanFrom.getD s.now) } else { s.sensor (2 * j) with discarded := true, cleanFrom := none }) ∧
      t.sensor (2 * j + 1) = (if (s.sensor (2 * j + 1)).good s.now b = true then { s.sensor (2 * j + 1) with cleanFrom := some ((s.sensor (2 * j + 1)).cleanFrom.getD s.now) } else { s.sensor (2 * j + 1) with discarded := true, cleanFrom := none }) ∧
      t.rd (Obj.sensorRaw (2 * j + 1)) = ofInt 32 (max (-400) (min 2000 a)) ∧ t.rd (Obj.sensorRaw (2 * j + 2)) = ofInt 32 (max (-400) (min 2000 b)) ∧
      t.rd Obj.tj = ofInt 32 (max (-200) (min 1550 t.tjNow))) ∧
  (∀ (s : State) (j : Fin 24) (f : Nat),
    (s.pair j).overFrom = some f → (¬ ((s.pair j).calmFrom ≠ none ∧ 10000 * ms ≤ s.now - (s.pair j).calmFrom.getD 0)) → (s.pair j).suspect = false →
    100 * ms ≤ s.now - f →
    ∃ t, exec (.sensorSuspect j) s = .next t ∧
      (t.pair j).suspect = true ∧ t.inEpisode Ev.sensorSuspect j = true) ∧
  (∀ (s : State) (j : Fin 24),
    ((s.pair j).overFrom = none ∨ (s.pair j).suspect = true ∨ s.now - (s.pair j).overFrom.getD 0 < 100 * ms) →
    ∃ t, exec (.sensorSuspect j) s = .next t ∧
      t = s) ∧
  (∀ (s : State) (k : Fin 48) (f : Nat),
    (s.sensor k).cleanFrom = some f → (s.sensor k).discarded = true → 10 * ms ≤ s.now - f →
    ∃ t, exec (.sensorReaccept k) s = .next t ∧
      t.sensor k = { accepted := [(s.now, toInt 32 (s.rd (Obj.sensorRaw (k + 1))))], discarded := false, cleanFrom := none }) ∧
  (∀ (s : State) (k : Fin 48),
    ((s.sensor k).cleanFrom = none ∨ (s.sensor k).discarded = false ∨ s.now - (s.sensor k).cleanFrom.getD 0 < 10 * ms) →
    ∃ t, exec (.sensorReaccept k) s = .next t ∧
      t = s) ∧
  (∀ (s : State),
    s.highT < s.heatTemp → s.power.highFrom ≠ none → 10 * ms ≤ s.now - s.power.highFrom.getD 0 → 10 * ms ≤ s.now - s.power.stepAt →
    ∃ t, exec (.thermalCeilingStep) s = .next t ∧
      t.rd Obj.ceilingThermal = 7 ∧ t.power.heatDuty = s.power.heatDuty - 32 ∧ t.power.heatPark = decide (s.power.heatDuty - 32 = 0) ∧
      t.power.stepAt = s.now) ∧
  (∀ (s : State),
    s.heatTemp ≤ s.highT → s.throttleT < s.heatTemp → ms ≤ s.now - s.power.stepAt → s.rd Obj.ceilingThermal < 7 →
    ∃ t, exec (.thermalCeilingStep) s = .next t ∧
      t.rd Obj.ceilingThermal = s.rd Obj.ceilingThermal + 1 ∧ t.power.heatDuty = s.power.heatDuty ∧
      t.power.heatPark = decide (s.power.heatDuty = 0) ∧ t.power.stepAt = s.now) ∧
  (∀ (s : State),
    s.heatTemp ≤ s.highT → s.heatTemp ≤ s.throttleT → s.heatTemp ≤ s.throttleT - 20 → s.bankOver = false → 10 * ms ≤ s.now - s.power.stepAt →
    (s.rd Obj.ceilingThermal ≠ 0 ∨ s.power.heatDuty < 256) →
    ∃ t, exec (.thermalCeilingStep) s = .next t ∧
      t.rd Obj.ceilingThermal = s.rd Obj.ceilingThermal - 1 ∧ t.power.heatDuty = min 256 (s.power.heatDuty + 32) ∧
      t.power.heatPark = decide (min 256 (s.power.heatDuty + 32) = 0) ∧ t.power.stepAt = s.now) ∧
  (∀ (s : State),
    (¬ (s.highT < s.heatTemp ∧ s.power.highFrom ≠ none ∧ 10 * ms ≤ s.now - s.power.highFrom.getD 0 ∧ 10 * ms ≤ s.now - s.power.stepAt)) →
    (¬ (s.heatTemp ≤ s.highT ∧ s.throttleT < s.heatTemp ∧ ms ≤ s.now - s.power.stepAt ∧ s.rd Obj.ceilingThermal < 7)) →
    (¬ (s.heatTemp ≤ s.highT ∧ s.heatTemp ≤ s.throttleT ∧ s.heatTemp ≤ s.throttleT - 20 ∧ s.bankOver = false ∧ 10 * ms ≤ s.now - s.power.stepAt ∧ (s.rd Obj.ceilingThermal ≠ 0 ∨ s.power.heatDuty < 256))) →
    ∃ t, exec (.thermalCeilingStep) s = .next t ∧
      t = s) ∧
  (∀ (s : State) (k : Fin 48),
    s.start.rails = true →
    ∃ t, exec (.thermalTrip k) s = .next t ∧
      t.rd Obj.moduleState = 4 ∧ t.start.rails = false ∧ t.standby = s.standby ∧ t.rd Obj.tripsTotal = min (s.rd Obj.tripsTotal + 1) (2 ^ 32 - 1) ∧
      t.tile = { TileState.reset with parity := s.tile.parity } ∧ (∃ f, t.dict.flash = s.dict.flash ++ [f] ∧ f.code = Ev.thermalTrip)) ∧
  (∀ (s : State) (k : Fin 48),
    s.start.rails = false →
    ∃ t, exec (.thermalTrip k) s = .next t ∧
      t = s) ∧
  (∀ (s : State) (k : Fin 4) (temp : Int),
    ∃ t, exec (.nandTempRead k temp) s = .next t ∧
      t.rd (Obj.flashTemp (k + 1)) = ofInt 32 (max (-40) (min 150 temp)) ∧ (∀ i, i ≠ Obj.flashTemp (k + 1) → t.rd i = s.rd i))

/-- Tray reports, their loss, the flow-loss line and hold. Each clause concludes that exec answers a next state, under conditions on the state
and the operands alone. Completes: trayReport, coolantReportsLost, coolantMismatch, flowLossAssert, flowLossDeassert. -/
def Obligations.CoolantIsWatched : Prop :=
  (∀ (s : State) (mac : Nat) (pdu : Bytes) (x : Coolant),
    s.standby = true → trayPduOk pdu = true → s.trayDue mac (unle ((pdu.drop 8).take 2)) = true →
    x = { inlet := toInt 16 (unle ((pdu.drop 10).take 2)), outlet := toInt 16 (unle ((pdu.drop 12).take 2)), flow := unle ((pdu.drop 14).take 2) } →
    x.inRange = true →
    ∃ t, exec (.trayReport mac pdu) s = .next t ∧
      t.rd Obj.trayReports = (s.rd Obj.trayReports + 1) % 2 ^ 64 ∧ t.power.seq = unle ((pdu.drop 8).take 2) ∧
      t.power.reports = (x :: s.power.reports).take 3 ∧ t.power.coolant = some (filterReports s.power.coolant ((x :: s.power.reports).take 3)) ∧
      t.power.reportAt = some s.now ∧ t.power.lost = false ∧
      t.rd Obj.flowMlMin = (filterReports s.power.coolant ((x :: s.power.reports).take 3)).flow) ∧
  (∀ (s : State) (mac : Nat) (pdu : Bytes),
    s.standby = true → trayPduOk pdu = false →
    ∃ t, exec (.trayReport mac pdu) s = .next t ∧
      t.rd Obj.dictDiscards = min (s.rd Obj.dictDiscards + 1) (2 ^ 32 - 1) ∧ t.power = s.power ∧ t.dict.fldHeard = s.now) ∧
  (∀ (s : State) (mac : Nat) (pdu : Bytes),
    s.standby = true → trayPduOk pdu = true →
    (s.trayDue mac (unle ((pdu.drop 8).take 2)) = false ∨ Coolant.inRange { inlet := toInt 16 (unle ((pdu.drop 10).take 2)), outlet := toInt 16 (unle ((pdu.drop 12).take 2)), flow := unle ((pdu.drop 14).take 2) } = false) →
    ∃ t, exec (.trayReport mac pdu) s = .next t ∧
      t.rd Obj.reportDiscards = min (s.rd Obj.reportDiscards + 1) (2 ^ 32 - 1) ∧ t.power = s.power ∧ t.dict.fldHeard = s.now) ∧
  (∀ (s : State) (mac : Nat) (pdu : Bytes),
    s.standby = false →
    ∃ t, exec (.trayReport mac pdu) s = .next t ∧
      t = s) ∧
  (∀ (s : State),
    s.standby = true → s.power.lost = false → 350 * ms ≤ s.now - s.power.reportAt.getD 0 →
    ∃ t, exec (.coolantReportsLost) s = .next t ∧
      t.power.lost = true ∧ t.power.heat = some (s.heatLimit 4500 1200 0) ∧ t.rd Obj.heatLimitW = s.heatLimit 4500 1200 0 ∧ t.rd Obj.flowState = 4 ∧
      t.power.good = 0) ∧
  (∀ (s : State),
    (s.standby = false ∨ s.power.lost = true ∨ s.now - s.power.reportAt.getD 0 < 350 * ms) →
    ∃ t, exec (.coolantReportsLost) s = .next t ∧
      t = s) ∧
  (∀ (s : State) (f : Nat),
    s.power.mismatchFrom = some f → 10000 * ms ≤ s.now - f → s.inEpisode Ev.coolantMismatch 0 = false →
    ∃ t, exec (.coolantMismatch) s = .next t ∧
      t.inEpisode Ev.coolantMismatch 0 = true ∧
      t.rd (Obj.occurrences (Ev.coolantMismatch / 256 - 1) (Ev.coolantMismatch % 256)) = (s.rd (Obj.occurrences (Ev.coolantMismatch / 256 - 1) (Ev.coolantMismatch % 256)) + 1) % 2 ^ 32) ∧
  (∀ (s : State),
    (s.power.mismatchFrom = none ∨ s.now - s.power.mismatchFrom.getD 0 < 10000 * ms ∨ s.inEpisode Ev.coolantMismatch 0 = true) →
    ∃ t, exec (.coolantMismatch) s = .next t ∧
      t = s) ∧
  (∀ (s : State),
    s.rd Obj.moduleState = 2 → s.fw.phase = 0 →
    ∃ t, exec (.flowLossAssert) s = .next t ∧
      t.start.flowLoss = true ∧ t.power.hold = true ∧ (t.rd Obj.powerState = 3 ∨ t.rd Obj.powerState = 4) ∧ t.inEpisode Ev.flowLoss 0 = true) ∧
  (∀ (s : State),
    (s.rd Obj.moduleState ≠ 2 ∨ s.fw.phase ≠ 0) →
    ∃ t, exec (.flowLossAssert) s = .next t ∧
      t.start.flowLoss = true ∧ t.power = s.power ∧ t.rd Obj.powerState = s.rd Obj.powerState) ∧
  (∀ (s : State),
    s.power.hold = true → 3 ≤ s.power.good →
    ∃ t, exec (.flowLossDeassert) s = .next t ∧
      t.start.flowLoss = false ∧ t.power.hold = false ∧ t.power.deep = false ∧ t.inEpisode Ev.flowLoss 0 = false ∧
      (3 ≤ s.rd Obj.powerState ∧ s.rd Obj.powerState ≤ 4 → ∀ x ∈ t.cross.queues, arrayKey x.1 = false)) ∧
  (∀ (s : State),
    (s.power.hold = false ∨ s.power.good < 3) →
    ∃ t, exec (.flowLossDeassert) s = .next t ∧
      t.start.flowLoss = false ∧ t.power = s.power ∧ t.inEpisode Ev.flowLoss 0 = false)

/-- Clock stretch, reed monitors, the voltage loop, ageing records, the sync word and powered time. Each clause concludes that exec answers a
next state, under conditions on the state and the operands alone. Completes: stretchRise, stretchStepDown, reedMasked, voltageLoop,
marginLow, ageingRecordWrite, droneSync, poweredTimeSave. -/
def Obligations.ClocksStretchAndAge : Prop :=
  (∀ (s : State) (r : Fin 12) (margin cycles : Nat),
    margin < 1 → s.rd (Obj.regionLevel (r + 1)) < 3 →
    ∃ t, exec (.stretchRise r ⟨margin, cycles⟩) s = .next t ∧
      t.rd (Obj.regionLevel (r + 1)) = 3 ∧
      t.rd Obj.stretchEpisodes = (if s.rd (Obj.regionLevel (r + 1)) = 0 then (s.rd Obj.stretchEpisodes + 1) % 2 ^ 64 else s.rd Obj.stretchEpisodes) ∧
      t.rd (Obj.regionMargin (r + 1)) = ((s.now, min 63 margin) :: ((s.clock.worst.find r).getD []).filter fun x => decide (s.now - x.1 < ms)).foldl (fun v x => min v x.2) 63 ∧
      t.rd Obj.stretchCycles = (if s.rd (Obj.regionLevel (r + 1)) = 0 then s.rd Obj.stretchCycles else (s.rd Obj.stretchCycles + cycles) % 2 ^ 64)) ∧
  (∀ (s : State) (r : Fin 12) (margin cycles : Nat),
    1 ≤ margin → margin < s.rd Obj.stretchTaps → s.rd (Obj.regionLevel (r + 1)) < 2 →
    ∃ t, exec (.stretchRise r ⟨margin, cycles⟩) s = .next t ∧
      t.rd (Obj.regionLevel (r + 1)) = 2 ∧
      t.rd Obj.stretchEpisodes = (if s.rd (Obj.regionLevel (r + 1)) = 0 then (s.rd Obj.stretchEpisodes + 1) % 2 ^ 64 else s.rd Obj.stretchEpisodes) ∧
      t.rd (Obj.regionMargin (r + 1)) = ((s.now, min 63 margin) :: ((s.clock.worst.find r).getD []).filter fun x => decide (s.now - x.1 < ms)).foldl (fun v x => min v x.2) 63 ∧
      t.rd Obj.stretchCycles = (if s.rd (Obj.regionLevel (r + 1)) = 0 then s.rd Obj.stretchCycles else (s.rd Obj.stretchCycles + cycles) % 2 ^ 64)) ∧
  (∀ (s : State) (r : Fin 12) (margin cycles : Nat),
    (if margin < 1 then 3 else if margin < s.rd Obj.stretchTaps then 2 else 0) ≤ s.rd (Obj.regionLevel (r + 1)) →
    ∃ t, exec (.stretchRise r ⟨margin, cycles⟩) s = .next t ∧
      t.rd (Obj.regionLevel (r + 1)) = s.rd (Obj.regionLevel (r + 1)) ∧ t.rd Obj.stretchEpisodes = s.rd Obj.stretchEpisodes ∧
      t.rd (Obj.regionMargin (r + 1)) = ((s.now, min 63 margin) :: ((s.clock.worst.find r).getD []).filter fun x => decide (s.now - x.1 < ms)).foldl (fun v x => min v x.2) 63 ∧
      t.rd Obj.stretchCycles = (if s.rd (Obj.regionLevel (r + 1)) = 0 then s.rd Obj.stretchCycles else (s.rd Obj.stretchCycles + cycles) % 2 ^ 64)) ∧
  (∀ (s : State) (r : Fin 12) (margin cycles : Nat),
    s.rd Obj.stretchTaps ≤ margin → 16 ≤ cycles → s.levelFloor r < s.rd (Obj.regionLevel (r + 1)) →
    ∃ t, exec (.stretchStepDown r ⟨margin, cycles⟩) s = .next t ∧
      t.rd (Obj.regionLevel (r + 1)) = s.rd (Obj.regionLevel (r + 1)) - 1 ∧
      t.rd (Obj.regionMargin (r + 1)) = ((s.now, min 63 margin) :: ((s.clock.worst.find r).getD []).filter fun x => decide (s.now - x.1 < ms)).foldl (fun v x => min v x.2) 63 ∧
      t.rd Obj.stretchCycles = (if s.rd (Obj.regionLevel (r + 1)) = 0 then s.rd Obj.stretchCycles else (s.rd Obj.stretchCycles + cycles) % 2 ^ 64)) ∧
  (∀ (s : State) (r : Fin 12) (margin cycles : Nat),
    (margin < s.rd Obj.stretchTaps ∨ cycles < 16 ∨ s.rd (Obj.regionLevel (r + 1)) ≤ s.levelFloor r) →
    ∃ t, exec (.stretchStepDown r ⟨margin, cycles⟩) s = .next t ∧
      t.rd (Obj.regionLevel (r + 1)) = s.rd (Obj.regionLevel (r + 1)) ∧
      t.rd (Obj.regionMargin (r + 1)) = ((s.now, min 63 margin) :: ((s.clock.worst.find r).getD []).filter fun x => decide (s.now - x.1 < ms)).foldl (fun v x => min v x.2) 63 ∧
      t.rd Obj.stretchCycles = (if s.rd (Obj.regionLevel (r + 1)) = 0 then s.rd Obj.stretchCycles else (s.rd Obj.stretchCycles + cycles) % 2 ^ 64)) ∧
  (∀ (s : State) (row : Fin 12) (col : Fin 17) (mon : Fin 4),
    s.clock.masked.contains (4 * (32 * row.val + col.val) + mon.val) = false → s.start.retired.contains (32 * row.val + col.val) = false →
    ∃ t, exec (.reedMasked row col mon) s = .next t ∧
      t.clock.masked = setIns s.clock.masked (4 * (32 * row.val + col.val) + mon.val) ∧ t.rd Obj.reedMasked = t.clock.masked.length ∧
      (t.allMasked (32 * row.val + col.val) = true → t.rd (Obj.regionLevel (regionAt row col + 1)) ≠ 0)) ∧
  (∀ (s : State) (row : Fin 12) (col : Fin 17) (mon : Fin 4),
    (s.clock.masked.contains (4 * (32 * row.val + col.val) + mon.val) = true ∨ s.start.retired.contains (32 * row.val + col.val) = true) →
    ∃ t, exec (.reedMasked row col mon) s = .next t ∧
      t = s) ∧
  (∀ (s : State) (w : Nat),
    s.loopOn = true →
    ∃ t, exec (.voltageLoop w) s = .next t ∧
      t.rd Obj.vtrimMv = ofInt 32 (s.trimNext w) ∧ t.rd (Obj.learnedTrim (s.rd Obj.opInForce + 1)) = ofInt 32 (s.trimNext w) ∧
      t.power.rail = t.trimmedMv (s.rd Obj.opInForce) ∧ t.clock.loopAt = s.now) ∧
  (∀ (s : State) (w : Nat),
    s.loopOn = false →
    ∃ t, exec (.voltageLoop w) s = .next t ∧
      t = s) ∧
  (∀ (s : State) (r : Fin 12) (ppm : Nat),
    toInt 32 (s.rd Obj.vtrimMv) = 15 → 10000 < ppm → s.inEpisode Ev.marginLow 0 = false →
    ∃ t, exec (.marginLow r ppm) s = .next t ∧
      t.inEpisode Ev.marginLow 0 = true ∧
      t.rd (Obj.occurrences (Ev.marginLow / 256 - 1) (Ev.marginLow % 256)) = (s.rd (Obj.occurrences (Ev.marginLow / 256 - 1) (Ev.marginLow % 256)) + 1) % 2 ^ 32 ∧
      t.rd Obj.marginLowEvents = min (s.rd Obj.marginLowEvents + 1) (2 ^ 32 - 1) ∧ t.clock.due = s.clock.due ++ [2] ∧
      t.rd (Obj.regionStretchPpm (r + 1)) = min 1000000 ppm) ∧
  (∀ (s : State) (r : Fin 12) (ppm : Nat),
    (¬ (toInt 32 (s.rd Obj.vtrimMv) = 15 ∧ 10000 < ppm ∧ s.inEpisode Ev.marginLow 0 = false)) →
    ∃ t, exec (.marginLow r ppm) s = .next t ∧
      t.rd Obj.marginLowEvents = s.rd Obj.marginLowEvents ∧ t.clock.due = s.clock.due ∧ t.rd (Obj.regionStretchPpm (r + 1)) = min 1000000 ppm) ∧
  (∀ (s : State),
    s.standby = true → s.clock.sessionRec = false → sec ≤ s.clock.ran →
    ∃ t, exec (.ageingRecordWrite) s = .next t ∧
      t.clock.records.getLast? = some (s.ageBytes 1) ∧ t.rd Obj.ageCount = t.clock.records.length ∧ t.clock.margins = [] ∧ t.clock.stretch = [] ∧
      t.clock.sessionRec = true) ∧
  (∀ (s : State),
    s.standby = true → (¬ (s.clock.sessionRec = false ∧ sec ≤ s.clock.ran)) → 86400 ≤ s.poweredS - s.clock.lastDay →
    ∃ t, exec (.ageingRecordWrite) s = .next t ∧
      t.clock.records.getLast? = some (s.ageBytes 0) ∧ t.rd Obj.ageCount = t.clock.records.length ∧ t.clock.margins = [] ∧ t.clock.stretch = [] ∧
      t.clock.lastDay = s.poweredS) ∧
  (∀ (s : State) (c : Nat) (r : List Nat),
    s.standby = true → (¬ (s.clock.sessionRec = false ∧ sec ≤ s.clock.ran)) → s.poweredS - s.clock.lastDay < 86400 → s.clock.due = c :: r →
    ∃ t, exec (.ageingRecordWrite) s = .next t ∧
      t.clock.records.getLast? = some (s.ageBytes c) ∧ t.rd Obj.ageCount = t.clock.records.length ∧ t.clock.margins = [] ∧ t.clock.stretch = [] ∧
      t.clock.due = r) ∧
  (∀ (s : State),
    (s.standby = false ∨ (¬ (s.clock.sessionRec = false ∧ sec ≤ s.clock.ran) ∧ s.poweredS - s.clock.lastDay < 86400 ∧ s.clock.due = [])) →
    ∃ t, exec (.ageingRecordWrite) s = .next t ∧
      t = s) ∧
  (∀ (s : State) (skewed : List Nat),
    s.standby = true → s.clock.syncAt / 65536 < s.now / 65536 →
    ∃ t, exec (.droneSync skewed) s = .next t ∧
      t.clock.syncAt = s.now ∧ t.clock.copies = (if s.start.rails = true then copyDomains else s.clock.copies) ∧
      (∀ d, skewed = [d] → t.rd Obj.droneCorrections = (if s.clock.copies.contains d = true then min (s.rd Obj.droneCorrections + 1) (2 ^ 32 - 1) else s.rd Obj.droneCorrections))) ∧
  (∀ (s : State) (skewed : List Nat),
    (s.standby = false ∨ s.now / 65536 ≤ s.clock.syncAt / 65536) →
    ∃ t, exec (.droneSync skewed) s = .next t ∧
      t = s) ∧
  (∀ (s : State),
    s.standby = true → 60 ≤ ((s.now - s.clock.savedAt) / sec) →
    ∃ t, exec (.poweredTimeSave) s = .next t ∧
      t.rd Obj.poweredSTotal = (s.rd Obj.poweredSTotal + ((s.now - s.clock.savedAt) / sec)) % 2 ^ 64 ∧
      t.clock.savedAt = s.clock.savedAt + ((s.now - s.clock.savedAt) / sec) * sec) ∧
  (∀ (s : State),
    (s.standby = false ∨ ((s.now - s.clock.savedAt) / sec) < 60) →
    ∃ t, exec (.poweredTimeSave) s = .next t ∧
      t = s)

/-- A clear action sets the counters of its block to zero and changes no other object. Each clause concludes that exec answers a next state,
under conditions on the state and the operands alone. Completes: cumClear, mxClear, castClear, vxClear, fabricClear, cmdClear, updClear,
tmClear, bankClear, stClear, inClear, linkClear, collClear, clkClear, dictClear, ptClear, flagsClear. -/
def Obligations.ClearActionsClear : Prop :=
  (∀ (s : State) (src : Src) (arg : Nat),
    arg = 1 → s.fldDenied src Obj.cumClear = false →
    ∃ t, exec (.cumClear src arg) s = .next t ∧
      (∃ m, t = { s with obj := m, out := .status src Obj.cumClear 0 :: s.out }) ∧ (∀ k ∈ subs 0x7010 1 4, t.rd k = 0) ∧
      (∀ k, k ∉ subs 0x7010 1 4 → t.rd k = s.rd k)) ∧
  (∀ (s : State) (src : Src) (arg : Nat),
    (s.fldDenied src Obj.cumClear = true ∨ arg ≠ 1) →
    ∃ t, exec (.cumClear src arg) s = .next t ∧
      t.out = .status src Obj.cumClear (if s.fldDenied src Obj.cumClear = true then 0x0B else 0x05) :: s.out ∧
      t.rd Obj.dictRejected = (s.rd Obj.dictRejected + 1) % 2 ^ 64 ∧ (∀ j, j ≠ Obj.dictRejected → t.rd j = s.rd j) ∧ t.staged = s.staged ∧
      t.cmd = s.cmd ∧ t.link = s.link) ∧
  (∀ (s : State) (src : Src) (arg : Nat),
    arg = 1 → s.fldDenied src Obj.mxClear = false →
    ∃ t, exec (.mxClear src arg) s = .next t ∧
      (∃ m, t = { s with obj := m, out := .status src Obj.mxClear 0 :: s.out }) ∧ (∀ k ∈ subs 0xA010 1 4, t.rd k = 0) ∧
      (∀ k, k ∉ subs 0xA010 1 4 → t.rd k = s.rd k)) ∧
  (∀ (s : State) (src : Src) (arg : Nat),
    (s.fldDenied src Obj.mxClear = true ∨ arg ≠ 1) →
    ∃ t, exec (.mxClear src arg) s = .next t ∧
      t.out = .status src Obj.mxClear (if s.fldDenied src Obj.mxClear = true then 0x0B else 0x05) :: s.out ∧
      t.rd Obj.dictRejected = (s.rd Obj.dictRejected + 1) % 2 ^ 64 ∧ (∀ j, j ≠ Obj.dictRejected → t.rd j = s.rd j) ∧ t.staged = s.staged ∧
      t.cmd = s.cmd ∧ t.link = s.link) ∧
  (∀ (s : State) (src : Src) (arg : Nat),
    arg = 1 → s.fldDenied src Obj.castClear = false →
    ∃ t, exec (.castClear src arg) s = .next t ∧
      (∃ m, t = { s with obj := m, out := .status src Obj.castClear 0 :: s.out }) ∧ (∀ k ∈ subs 0xA018 1 6, t.rd k = 0) ∧
      (∀ k, k ∉ subs 0xA018 1 6 → t.rd k = s.rd k)) ∧
  (∀ (s : State) (src : Src) (arg : Nat),
    (s.fldDenied src Obj.castClear = true ∨ arg ≠ 1) →
    ∃ t, exec (.castClear src arg) s = .next t ∧
      t.out = .status src Obj.castClear (if s.fldDenied src Obj.castClear = true then 0x0B else 0x05) :: s.out ∧
      t.rd Obj.dictRejected = (s.rd Obj.dictRejected + 1) % 2 ^ 64 ∧ (∀ j, j ≠ Obj.dictRejected → t.rd j = s.rd j) ∧ t.staged = s.staged ∧
      t.cmd = s.cmd ∧ t.link = s.link) ∧
  (∀ (s : State) (src : Src) (arg : Nat),
    arg = 1 → s.fldDenied src Obj.vxClear = false →
    ∃ t, exec (.vxClear src arg) s = .next t ∧
      (∃ m, t = { s with obj := m, out := .status src Obj.vxClear 0 :: s.out }) ∧ (∀ k ∈ subs 0xA014 1 6, t.rd k = 0) ∧
      (∀ k, k ∉ subs 0xA014 1 6 → t.rd k = s.rd k)) ∧
  (∀ (s : State) (src : Src) (arg : Nat),
    (s.fldDenied src Obj.vxClear = true ∨ arg ≠ 1) →
    ∃ t, exec (.vxClear src arg) s = .next t ∧
      t.out = .status src Obj.vxClear (if s.fldDenied src Obj.vxClear = true then 0x0B else 0x05) :: s.out ∧
      t.rd Obj.dictRejected = (s.rd Obj.dictRejected + 1) % 2 ^ 64 ∧ (∀ j, j ≠ Obj.dictRejected → t.rd j = s.rd j) ∧ t.staged = s.staged ∧
      t.cmd = s.cmd ∧ t.link = s.link) ∧
  (∀ (s : State) (src : Src) (arg : Nat),
    arg = 1 → s.fldDenied src Obj.fabricClear = false →
    ∃ t, exec (.fabricClear src arg) s = .next t ∧
      (∃ m, t = { s with obj := m, out := .status src Obj.fabricClear 0 :: s.out }) ∧ (∀ k ∈ subs 0xA01C 1 7, t.rd k = 0) ∧
      (∀ k, k ∉ subs 0xA01C 1 7 → t.rd k = s.rd k)) ∧
  (∀ (s : State) (src : Src) (arg : Nat),
    (s.fldDenied src Obj.fabricClear = true ∨ arg ≠ 1) →
    ∃ t, exec (.fabricClear src arg) s = .next t ∧
      t.out = .status src Obj.fabricClear (if s.fldDenied src Obj.fabricClear = true then 0x0B else 0x05) :: s.out ∧
      t.rd Obj.dictRejected = (s.rd Obj.dictRejected + 1) % 2 ^ 64 ∧ (∀ j, j ≠ Obj.dictRejected → t.rd j = s.rd j) ∧ t.staged = s.staged ∧
      t.cmd = s.cmd ∧ t.link = s.link) ∧
  (∀ (s : State) (src : Src) (arg : Nat),
    arg = 1 → s.fldDenied src Obj.cmdClear = false →
    ∃ t, exec (.cmdClear src arg) s = .next t ∧
      (∃ m, t = { s with obj := m, out := .status src Obj.cmdClear 0 :: s.out }) ∧ (∀ k ∈ subs 0xA020 1 8, t.rd k = 0) ∧
      (∀ k, k ∉ subs 0xA020 1 8 → t.rd k = s.rd k)) ∧
  (∀ (s : State) (src : Src) (arg : Nat),
    (s.fldDenied src Obj.cmdClear = true ∨ arg ≠ 1) →
    ∃ t, exec (.cmdClear src arg) s = .next t ∧
      t.out = .status src Obj.cmdClear (if s.fldDenied src Obj.cmdClear = true then 0x0B else 0x05) :: s.out ∧
      t.rd Obj.dictRejected = (s.rd Obj.dictRejected + 1) % 2 ^ 64 ∧ (∀ j, j ≠ Obj.dictRejected → t.rd j = s.rd j) ∧ t.staged = s.staged ∧
      t.cmd = s.cmd ∧ t.link = s.link) ∧
  (∀ (s : State) (src : Src) (arg : Nat),
    arg = 1 → s.fldDenied src Obj.updClear = false →
    ∃ t, exec (.updClear src arg) s = .next t ∧
      (∃ m, t = { s with obj := m, out := .status src Obj.updClear 0 :: s.out }) ∧ (∀ k ∈ subs 0xA030 1 6, t.rd k = 0) ∧
      (∀ k, k ∉ subs 0xA030 1 6 → t.rd k = s.rd k)) ∧
  (∀ (s : State) (src : Src) (arg : Nat),
    (s.fldDenied src Obj.updClear = true ∨ arg ≠ 1) →
    ∃ t, exec (.updClear src arg) s = .next t ∧
      t.out = .status src Obj.updClear (if s.fldDenied src Obj.updClear = true then 0x0B else 0x05) :: s.out ∧
      t.rd Obj.dictRejected = (s.rd Obj.dictRejected + 1) % 2 ^ 64 ∧ (∀ j, j ≠ Obj.dictRejected → t.rd j = s.rd j) ∧ t.staged = s.staged ∧
      t.cmd = s.cmd ∧ t.link = s.link) ∧
  (∀ (s : State) (src : Src) (arg : Nat),
    arg = 1 → s.fldDenied src Obj.tmClear = false →
    ∃ t, exec (.tmClear src arg) s = .next t ∧
      (∃ m, t = { s with obj := m, out := .status src Obj.tmClear 0 :: s.out }) ∧ (∀ k ∈ subs 0xA040 1 9, t.rd k = 0) ∧
      (∀ k, k ∉ subs 0xA040 1 9 → t.rd k = s.rd k)) ∧
  (∀ (s : State) (src : Src) (arg : Nat),
    (s.fldDenied src Obj.tmClear = true ∨ arg ≠ 1) →
    ∃ t, exec (.tmClear src arg) s = .next t ∧
      t.out = .status src Obj.tmClear (if s.fldDenied src Obj.tmClear = true then 0x0B else 0x05) :: s.out ∧
      t.rd Obj.dictRejected = (s.rd Obj.dictRejected + 1) % 2 ^ 64 ∧ (∀ j, j ≠ Obj.dictRejected → t.rd j = s.rd j) ∧ t.staged = s.staged ∧
      t.cmd = s.cmd ∧ t.link = s.link) ∧
  (∀ (s : State) (src : Src) (arg : Nat),
    arg = 1 → s.fldDenied src Obj.bankClear = false →
    ∃ t, exec (.bankClear src arg) s = .next t ∧
      (∃ m, t = { s with obj := m, out := .status src Obj.bankClear 0 :: s.out }) ∧
      (∀ k ∈ subs 0xA044 1 3 ++ (List.range 16).map Obj.chReplays, t.rd k = 0) ∧
      (∀ k, k ∉ subs 0xA044 1 3 ++ (List.range 16).map Obj.chReplays → t.rd k = s.rd k)) ∧
  (∀ (s : State) (src : Src) (arg : Nat),
    (s.fldDenied src Obj.bankClear = true ∨ arg ≠ 1) →
    ∃ t, exec (.bankClear src arg) s = .next t ∧
      t.out = .status src Obj.bankClear (if s.fldDenied src Obj.bankClear = true then 0x0B else 0x05) :: s.out ∧
      t.rd Obj.dictRejected = (s.rd Obj.dictRejected + 1) % 2 ^ 64 ∧ (∀ j, j ≠ Obj.dictRejected → t.rd j = s.rd j) ∧ t.staged = s.staged ∧
      t.cmd = s.cmd ∧ t.link = s.link) ∧
  (∀ (s : State) (src : Src) (arg : Nat),
    arg = 1 → s.fldDenied src Obj.stClear = false →
    ∃ t, exec (.stClear src arg) s = .next t ∧
      (∃ m, t = { s with obj := m, out := .status src Obj.stClear 0 :: s.out }) ∧ (∀ k ∈ subs 0xA050 1 7, t.rd k = 0) ∧
      (∀ k, k ∉ subs 0xA050 1 7 → t.rd k = s.rd k)) ∧
  (∀ (s : State) (src : Src) (arg : Nat),
    (s.fldDenied src Obj.stClear = true ∨ arg ≠ 1) →
    ∃ t, exec (.stClear src arg) s = .next t ∧
      t.out = .status src Obj.stClear (if s.fldDenied src Obj.stClear = true then 0x0B else 0x05) :: s.out ∧
      t.rd Obj.dictRejected = (s.rd Obj.dictRejected + 1) % 2 ^ 64 ∧ (∀ j, j ≠ Obj.dictRejected → t.rd j = s.rd j) ∧ t.staged = s.staged ∧
      t.cmd = s.cmd ∧ t.link = s.link) ∧
  (∀ (s : State) (src : Src) (arg : Nat),
    arg = 1 → s.fldDenied src Obj.inClear = false →
    ∃ t, exec (.inClear src arg) s = .next t ∧
      (∃ m, t = { s with obj := m, out := .status src Obj.inClear 0 :: s.out }) ∧ (∀ k ∈ subs 0xA054 1 6, t.rd k = 0) ∧
      (∀ k, k ∉ subs 0xA054 1 6 → t.rd k = s.rd k)) ∧
  (∀ (s : State) (src : Src) (arg : Nat),
    (s.fldDenied src Obj.inClear = true ∨ arg ≠ 1) →
    ∃ t, exec (.inClear src arg) s = .next t ∧
      t.out = .status src Obj.inClear (if s.fldDenied src Obj.inClear = true then 0x0B else 0x05) :: s.out ∧
      t.rd Obj.dictRejected = (s.rd Obj.dictRejected + 1) % 2 ^ 64 ∧ (∀ j, j ≠ Obj.dictRejected → t.rd j = s.rd j) ∧ t.staged = s.staged ∧
      t.cmd = s.cmd ∧ t.link = s.link) ∧
  (∀ (s : State) (src : Src) (port : Fin 16) (arg : Nat),
    arg = 1 → s.fldDenied src (Obj.linkClear port) = false →
    ∃ t, exec (.linkClear src port arg) s = .next t ∧
      (∃ m, t = { s with obj := m, out := .status src (Obj.linkClear port) 0 :: s.out }) ∧ (∀ k ∈ subs (0xA060 + port) 1 9, t.rd k = 0) ∧
      (∀ k, k ∉ subs (0xA060 + port) 1 9 → t.rd k = s.rd k)) ∧
  (∀ (s : State) (src : Src) (port : Fin 16) (arg : Nat),
    (s.fldDenied src (Obj.linkClear port) = true ∨ arg ≠ 1) →
    ∃ t, exec (.linkClear src port arg) s = .next t ∧
      t.out = .status src (Obj.linkClear port) (if s.fldDenied src (Obj.linkClear port) = true then 0x0B else 0x05) :: s.out ∧
      t.rd Obj.dictRejected = (s.rd Obj.dictRejected + 1) % 2 ^ 64 ∧ (∀ j, j ≠ Obj.dictRejected → t.rd j = s.rd j) ∧ t.staged = s.staged ∧
      t.cmd = s.cmd ∧ t.link = s.link) ∧
  (∀ (s : State) (src : Src) (arg : Nat),
    arg = 1 → s.fldDenied src Obj.collClear = false →
    ∃ t, exec (.collClear src arg) s = .next t ∧
      (∃ m, t = { s with obj := m, out := .status src Obj.collClear 0 :: s.out }) ∧ (∀ k ∈ subs 0xA070 1 8, t.rd k = 0) ∧
      (∀ k, k ∉ subs 0xA070 1 8 → t.rd k = s.rd k)) ∧
  (∀ (s : State) (src : Src) (arg : Nat),
    (s.fldDenied src Obj.collClear = true ∨ arg ≠ 1) →
    ∃ t, exec (.collClear src arg) s = .next t ∧
      t.out = .status src Obj.collClear (if s.fldDenied src Obj.collClear = true then 0x0B else 0x05) :: s.out ∧
      t.rd Obj.dictRejected = (s.rd Obj.dictRejected + 1) % 2 ^ 64 ∧ (∀ j, j ≠ Obj.dictRejected → t.rd j = s.rd j) ∧ t.staged = s.staged ∧
      t.cmd = s.cmd ∧ t.link = s.link) ∧
  (∀ (s : State) (src : Src) (arg : Nat),
    arg = 1 → s.fldDenied src Obj.clkClear = false →
    ∃ t, exec (.clkClear src arg) s = .next t ∧
      (∃ m, t = { s with obj := m, out := .status src Obj.clkClear 0 :: s.out, cross := { s.cross with stalls := 0 } }) ∧
      (∀ k ∈ subs 0xA090 1 5, t.rd k = 0) ∧ (∀ k, k ∉ subs 0xA090 1 5 → t.rd k = s.rd k)) ∧
  (∀ (s : State) (src : Src) (arg : Nat),
    (s.fldDenied src Obj.clkClear = true ∨ arg ≠ 1) →
    ∃ t, exec (.clkClear src arg) s = .next t ∧
      t.out = .status src Obj.clkClear (if s.fldDenied src Obj.clkClear = true then 0x0B else 0x05) :: s.out ∧
      t.rd Obj.dictRejected = (s.rd Obj.dictRejected + 1) % 2 ^ 64 ∧ (∀ j, j ≠ Obj.dictRejected → t.rd j = s.rd j) ∧ t.staged = s.staged ∧
      t.cmd = s.cmd ∧ t.link = s.link) ∧
  (∀ (s : State) (src : Src) (arg : Nat),
    arg = 1 → s.fldDenied src Obj.dictClear = false →
    ∃ t, exec (.dictClear src arg) s = .next t ∧
      (∃ m, t = { s with obj := m, out := .status src Obj.dictClear 0 :: s.out }) ∧ (∀ k ∈ subs 0xA0A0 1 6, t.rd k = 0) ∧
      (∀ k, k ∉ subs 0xA0A0 1 6 → t.rd k = s.rd k)) ∧
  (∀ (s : State) (src : Src) (arg : Nat),
    (s.fldDenied src Obj.dictClear = true ∨ arg ≠ 1) →
    ∃ t, exec (.dictClear src arg) s = .next t ∧
      t.out = .status src Obj.dictClear (if s.fldDenied src Obj.dictClear = true then 0x0B else 0x05) :: s.out ∧
      t.rd Obj.dictRejected = (s.rd Obj.dictRejected + 1) % 2 ^ 64 ∧ (∀ j, j ≠ Obj.dictRejected → t.rd j = s.rd j) ∧ t.staged = s.staged ∧
      t.cmd = s.cmd ∧ t.link = s.link) ∧
  (∀ (s : State) (src : Src) (arg : Nat),
    arg = 1 → s.fldDenied src Obj.ptClear = false →
    ∃ t, exec (.ptClear src arg) s = .next t ∧
      t.out = .status src Obj.ptClear 0 :: s.out ∧ (∀ k ∈ subs 0xA080 1 6 ++ [0x200005], t.rd k = 0) ∧ t.power.accountAt = s.now ∧
      t.power.throttledT = 0 ∧ t.power.followingT = 0 ∧ t.power.e2T = 0) ∧
  (∀ (s : State) (src : Src) (arg : Nat),
    (s.fldDenied src Obj.ptClear = true ∨ arg ≠ 1) →
    ∃ t, exec (.ptClear src arg) s = .next t ∧
      t.out = .status src Obj.ptClear (if s.fldDenied src Obj.ptClear = true then 0x0B else 0x05) :: s.out ∧
      t.rd Obj.dictRejected = (s.rd Obj.dictRejected + 1) % 2 ^ 64) ∧
  (∀ (s : State) (src : Src) (block mask : Nat),
    1 ≤ block → block ≤ 15 → mask < 2 ^ 32 → s.fldDenied src (Obj.flagsClear block) = false →
    ∃ t, exec (.flagsClear src block mask) s = .next t ∧
      (∃ m, t = { s with obj := m, out := .status src (Obj.flagsClear block) 0 :: s.out }) ∧
      t.rd (Obj.flags block) = s.rd (Obj.flags block) - (s.rd (Obj.flags block) &&& mask) ∧ (∀ k, k ≠ Obj.flags block → t.rd k = s.rd k)) ∧
  (∀ (s : State) (src : Src) (block mask : Nat),
    (s.fldDenied src (Obj.flagsClear block) = true ∨ 2 ^ 32 ≤ mask) → (1 ≤ block ∧ block ≤ 15) →
    ∃ t, exec (.flagsClear src block mask) s = .next t ∧
      t.out = .status src (Obj.flagsClear block) (if s.fldDenied src (Obj.flagsClear block) = true then 0x0B else 0x05) :: s.out ∧
      t.rd Obj.dictRejected = (s.rd Obj.dictRejected + 1) % 2 ^ 64 ∧ (∀ j, j ≠ Obj.dictRejected → t.rd j = s.rd j) ∧ t.staged = s.staged ∧
      t.cmd = s.cmd ∧ t.link = s.link)

/-- Read, write, log and discover frames of the object dictionary. Each clause concludes that exec answers a next state, under conditions on the
state and the operands alone. Completes: dictRead, dictWrite, logRead, discover. -/
def Obligations.DictionaryFramesAreServed : Prop :=
  (∀ (s : State) (src : Src) (pdu : Bytes) (held : Nat) (xs : List Item),
    s.standby = true → held < 8 → s.keptReply src pdu = none → requestItems pdu 1 = some xs →
    ∃ t, exec (.dictRead src pdu held) s = .next t ∧
      t.out = .reply src (replyPdu pdu xs.length 0 ((s.heard src pdu).account.fillReply (pduField pdu 7 1 / 2 % 2 == 1) (1016 - 8 * xs.length) xs)) :: s.out ∧
      t.cmd = s.cmd ∧ t.tile = s.tile ∧ t.tier = s.tier ∧ t.staged = s.staged) ∧
  (∀ (s : State) (src : Src) (pdu : Bytes) (held : Nat),
    s.standby = false →
    ∃ t, exec (.dictRead src pdu held) s = .next t ∧
      t = s) ∧
  (∀ (s : State) (src : Src) (pdu : Bytes) (held : Nat),
    s.standby = true → 8 ≤ held →
    ∃ t, exec (.dictRead src pdu held) s = .next t ∧
      t.out = s.out ∧ t.rd Obj.dictDiscards = min (s.rd Obj.dictDiscards + 1) (2 ^ 32 - 1) ∧ t.staged = s.staged ∧ t.tile = s.tile ∧ t.cmd = s.cmd) ∧
  (∀ (s : State) (src : Src) (pdu : Bytes) (held : Nat) (r : Bytes),
    s.standby = true → held < 8 → s.keptReply src pdu = some r →
    ∃ t, exec (.dictRead src pdu held) s = .next t ∧
      t.out = .reply src r :: s.out ∧ t.rd Obj.dictRepeats = (s.rd Obj.dictRepeats + 1) % 2 ^ 64 ∧ t.dict.log = s.dict.log ∧ t.staged = s.staged ∧
      t.tile = s.tile ∧ t.cmd = s.cmd) ∧
  (∀ (s : State) (src : Src) (pdu : Bytes) (held : Nat),
    s.standby = true → held < 8 → s.keptReply src pdu = none → requestItems pdu 1 = none →
    ∃ t, exec (.dictRead src pdu held) s = .next t ∧
      (t.out = (if (4 ≤ pdu.length ∧ pduField pdu 0 1 = 1 ∧ (pduField pdu 1 1 = 1 ∨ pduField pdu 1 1 = 2 ∨ pduField pdu 1 1 = 5 ∨ pduField pdu 1 1 = 6)) then [Out.reply src (replyPdu pdu 0 0x80 [])] else []) ++ s.out) ∧
      t.rd Obj.dictDiscards = min (s.rd Obj.dictDiscards + 1) (2 ^ 32 - 1) ∧ t.staged = s.staged ∧ t.tile = s.tile ∧ t.cmd = s.cmd) ∧
  (∀ (s : State) (src : Src) (pdu : Bytes) (held : Nat) (x : Item),
    s.standby = true → held < 8 → s.keptReply src pdu = none → requestItems pdu 2 = some [x] → (s.heard src pdu).account.itemStatus src x = 0 →
    ∃ t, exec (.dictWrite src pdu held) s = .next t ∧
      t = ((s.heard src pdu).account.applyItem src x).answer src pdu (replyPdu pdu 1 0 (itemBytes x.idx x.sub x.ty 0 []))) ∧
  (∀ (s : State) (src : Src) (pdu : Bytes) (held : Nat) (x : Item),
    s.standby = true → held < 8 → s.keptReply src pdu = none → requestItems pdu 2 = some [x] → (s.heard src pdu).account.itemStatus src x = 0 →
    x.acc ≠ .wa → isMode x.key = false → isPlan x.key = false → (x.idx < 0x6810 ∨ 0x6813 < x.idx) → (x.idx < 0x5000 ∨ 0x500F < x.idx) →
    x.key ≠ Obj.actTick →
    ∃ t, exec (.dictWrite src pdu held) s = .next t ∧
      t.rd x.key = unle x.value ∧ t.out = .reply src (replyPdu pdu 1 0 (itemBytes x.idx x.sub x.ty 0 [])) :: s.out ∧ t.tile = s.tile ∧
      t.staged = s.staged) ∧
  (∀ (s : State) (src : Src) (pdu : Bytes) (held : Nat) (x : Item),
    s.standby = true → held < 8 → s.keptReply src pdu = none → requestItems pdu 2 = some [x] → (s.heard src pdu).account.itemStatus src x = 0 →
    x.acc ≠ .wa → isMode x.key = true →
    ∃ t, exec (.dictWrite src pdu held) s = .next t ∧
      t.rd x.key = s.rd x.key ∧ t.out = .reply src (replyPdu pdu 1 0 (itemBytes x.idx x.sub x.ty 0 [])) :: s.out ∧ t.tile = s.tile ∧
      t.staged = (if unle x.value = s.rd x.key then s.staged.erase x.key else s.staged.insert x.key (unle x.value))) ∧
  (∀ (s : State) (src : Src) (pdu : Bytes) (held : Nat) (x : Item),
    s.standby = true → held < 8 → s.keptReply src pdu = none → requestItems pdu 2 = some [x] → (s.heard src pdu).account.itemStatus src x = 0 →
    x.acc ≠ .wa → isPlan x.key = true →
    ∃ t, exec (.dictWrite src pdu held) s = .next t ∧
      t.rd x.key = unle x.value ∧ t.tile = s.tile ∧ t.staged = s.staged ∧
      (∀ p : Fin 16, s.portIs p psDown = true → (t.port p).planDue = true ∧ (t.port p).plan = (s.port p).plan)) ∧
  (∀ (s : State) (src : Src) (pdu : Bytes) (held : Nat) (x : Item),
    s.standby = true → held < 8 → s.keptReply src pdu = none → requestItems pdu 2 = some [x] → pduField pdu 7 1 % 2 = 0 →
    (s.heard src pdu).account.itemStatus src x ≠ 0 →
    ∃ t, exec (.dictWrite src pdu held) s = .next t ∧
      t.out = .reply src (replyPdu pdu 1 0 (itemBytes x.idx x.sub x.ty ((s.heard src pdu).account.itemStatus src x) [])) :: s.out ∧
      t.rd Obj.dictRejected = (s.rd Obj.dictRejected + 1) % 2 ^ 64 ∧ t.tile = s.tile ∧ t.staged = s.staged ∧ t.cmd = s.cmd ∧ t.link = s.link) ∧
  (∀ (s : State) (src : Src) (pdu : Bytes) (held : Nat) (xs : List Item),
    s.standby = true → held < 8 → s.keptReply src pdu = none → requestItems pdu 2 = some xs → pduField pdu 7 1 % 2 = 0 →
    ∃ t, exec (.dictWrite src pdu held) s = .next t ∧
      t = ((s.heard src pdu).account.writeEach src xs).1.answer src pdu (replyPdu pdu xs.length 0 ((xs.zip ((s.heard src pdu).account.writeEach src xs).2).flatMap fun (x, st) => itemBytes x.idx x.sub x.ty st []))) ∧
  (∀ (s : State) (src : Src) (pdu : Bytes) (held : Nat) (xs : List Item),
    s.standby = true → held < 8 → s.keptReply src pdu = none → requestItems pdu 2 = some xs → pduField pdu 7 1 % 2 = 1 →
    ((s.heard src pdu).account.checkAll src xs).all (· == 0) = true →
    ∃ t, exec (.dictWrite src pdu held) s = .next t ∧
      t = (xs.foldl (fun s x => s.applyItem src x) (s.heard src pdu).account).answer src pdu (replyPdu pdu xs.length 0 ((xs.zip ((s.heard src pdu).account.checkAll src xs)).flatMap fun (x, st) => itemBytes x.idx x.sub x.ty st []))) ∧
  (∀ (s : State) (src : Src) (pdu : Bytes) (held : Nat) (xs : List Item),
    s.standby = true → held < 8 → s.keptReply src pdu = none → requestItems pdu 2 = some xs → pduField pdu 7 1 % 2 = 1 →
    ((s.heard src pdu).account.checkAll src xs).all (· == 0) = false →
    ∃ t, exec (.dictWrite src pdu held) s = .next t ∧
      t.rd Obj.dictRejected = (s.rd Obj.dictRejected + (((s.heard src pdu).account.checkAll src xs).filter (· != 0)).length) % 2 ^ 64 ∧
      t.cmd = s.cmd ∧ t.tile = s.tile ∧ t.tier = s.tier ∧ t.staged = s.staged ∧ t.link = s.link ∧ t.coll = s.coll) ∧
  (∀ (s : State) (src : Src) (pdu : Bytes) (held : Nat),
    s.standby = false →
    ∃ t, exec (.dictWrite src pdu held) s = .next t ∧
      t = s) ∧
  (∀ (s : State) (src : Src) (pdu : Bytes) (held : Nat),
    s.standby = true → 8 ≤ held →
    ∃ t, exec (.dictWrite src pdu held) s = .next t ∧
      t.out = s.out ∧ t.rd Obj.dictDiscards = min (s.rd Obj.dictDiscards + 1) (2 ^ 32 - 1) ∧ t.staged = s.staged ∧ t.tile = s.tile ∧ t.cmd = s.cmd) ∧
  (∀ (s : State) (src : Src) (pdu : Bytes) (held : Nat) (r : Bytes),
    s.standby = true → held < 8 → s.keptReply src pdu = some r →
    ∃ t, exec (.dictWrite src pdu held) s = .next t ∧
      t.out = .reply src r :: s.out ∧ t.rd Obj.dictRepeats = (s.rd Obj.dictRepeats + 1) % 2 ^ 64 ∧ t.dict.log = s.dict.log ∧ t.staged = s.staged ∧
      t.tile = s.tile ∧ t.cmd = s.cmd) ∧
  (∀ (s : State) (src : Src) (pdu : Bytes) (held : Nat),
    s.standby = true → held < 8 → s.keptReply src pdu = none → requestItems pdu 2 = none →
    ∃ t, exec (.dictWrite src pdu held) s = .next t ∧
      (t.out = (if (4 ≤ pdu.length ∧ pduField pdu 0 1 = 1 ∧ (pduField pdu 1 1 = 1 ∨ pduField pdu 1 1 = 2 ∨ pduField pdu 1 1 = 5 ∨ pduField pdu 1 1 = 6)) then [Out.reply src (replyPdu pdu 0 0x80 [])] else []) ++ s.out) ∧
      t.rd Obj.dictDiscards = min (s.rd Obj.dictDiscards + 1) (2 ^ 32 - 1) ∧ t.staged = s.staged ∧ t.tile = s.tile ∧ t.cmd = s.cmd) ∧
  (∀ (s : State) (src : Src) (pdu : Bytes) (held : Nat) (f n a : Nat) (rs : List EventRec),
    s.standby = true → held < 8 → s.keptReply src pdu = none → logRequest pdu = some (f, n) → s.logFrom f n = (a, rs) →
    ∃ t, exec (.logRead src pdu held) s = .next t ∧
      t.out = .reply src (replyPdu pdu 0 0 (p32 a ++ p8 rs.length ++ [0, 0, 0] ++ rs.flatMap EventRec.bytes)) :: s.out ∧
      t.dict.log.length = s.dict.log.length ∧ (∀ r ∈ t.dict.log, (∃ x ∈ rs, x.evseq = r.evseq) → r.covered = true) ∧ t.tile = s.tile) ∧
  (∀ (s : State) (src : Src) (pdu : Bytes) (held : Nat),
    s.standby = false →
    ∃ t, exec (.logRead src pdu held) s = .next t ∧
      t = s) ∧
  (∀ (s : State) (src : Src) (pdu : Bytes) (held : Nat),
    s.standby = true → 8 ≤ held →
    ∃ t, exec (.logRead src pdu held) s = .next t ∧
      t.out = s.out ∧ t.rd Obj.dictDiscards = min (s.rd Obj.dictDiscards + 1) (2 ^ 32 - 1) ∧ t.staged = s.staged ∧ t.tile = s.tile ∧ t.cmd = s.cmd) ∧
  (∀ (s : State) (src : Src) (pdu : Bytes) (held : Nat) (r : Bytes),
    s.standby = true → held < 8 → s.keptReply src pdu = some r →
    ∃ t, exec (.logRead src pdu held) s = .next t ∧
      t.out = .reply src r :: s.out ∧ t.rd Obj.dictRepeats = (s.rd Obj.dictRepeats + 1) % 2 ^ 64 ∧ t.dict.log = s.dict.log ∧ t.staged = s.staged ∧
      t.tile = s.tile ∧ t.cmd = s.cmd) ∧
  (∀ (s : State) (src : Src) (pdu : Bytes) (held : Nat),
    s.standby = true → held < 8 → s.keptReply src pdu = none → logRequest pdu = none →
    ∃ t, exec (.logRead src pdu held) s = .next t ∧
      (t.out = (if (4 ≤ pdu.length ∧ pduField pdu 0 1 = 1 ∧ (pduField pdu 1 1 = 1 ∨ pduField pdu 1 1 = 2 ∨ pduField pdu 1 1 = 5 ∨ pduField pdu 1 1 = 6)) then [Out.reply src (replyPdu pdu 0 0x80 [])] else []) ++ s.out) ∧
      t.rd Obj.dictDiscards = min (s.rd Obj.dictDiscards + 1) (2 ^ 32 - 1) ∧ t.staged = s.staged ∧ t.tile = s.tile ∧ t.cmd = s.cmd) ∧
  (∀ (s : State) (src : Src) (pdu : Bytes) (held : Nat),
    s.standby = true → held < 8 → s.keptReply src pdu = none → headerOk pdu 6 = true → pdu.length = 8 → pduField pdu 6 1 = 0 →
    ∃ t, exec (.discover src pdu held) s = .next t ∧
      t.out = .reply src (replyPdu pdu 4 0 ((s.heard src pdu).fillReply false 984 discoverItems)) :: s.out ∧ t.tile = s.tile ∧ t.staged = s.staged) ∧
  (∀ (s : State) (src : Src) (pdu : Bytes) (held : Nat),
    s.standby = false →
    ∃ t, exec (.discover src pdu held) s = .next t ∧
      t = s) ∧
  (∀ (s : State) (src : Src) (pdu : Bytes) (held : Nat),
    s.standby = true → 8 ≤ held →
    ∃ t, exec (.discover src pdu held) s = .next t ∧
      t.out = s.out ∧ t.rd Obj.dictDiscards = min (s.rd Obj.dictDiscards + 1) (2 ^ 32 - 1) ∧ t.staged = s.staged ∧ t.tile = s.tile ∧ t.cmd = s.cmd) ∧
  (∀ (s : State) (src : Src) (pdu : Bytes) (held : Nat) (r : Bytes),
    s.standby = true → held < 8 → s.keptReply src pdu = some r →
    ∃ t, exec (.discover src pdu held) s = .next t ∧
      t.out = .reply src r :: s.out ∧ t.rd Obj.dictRepeats = (s.rd Obj.dictRepeats + 1) % 2 ^ 64 ∧ t.dict.log = s.dict.log ∧ t.staged = s.staged ∧
      t.tile = s.tile ∧ t.cmd = s.cmd) ∧
  (∀ (s : State) (src : Src) (pdu : Bytes) (held : Nat),
    s.standby = true → held < 8 → s.keptReply src pdu = none → (¬ (headerOk pdu 6 = true ∧ pdu.length = 8 ∧ pduField pdu 6 1 = 0)) →
    ∃ t, exec (.discover src pdu held) s = .next t ∧
      (t.out = (if (4 ≤ pdu.length ∧ pduField pdu 0 1 = 1 ∧ (pduField pdu 1 1 = 1 ∨ pduField pdu 1 1 = 2 ∨ pduField pdu 1 1 = 5 ∨ pduField pdu 1 1 = 6)) then [Out.reply src (replyPdu pdu 0 0x80 [])] else []) ++ s.out) ∧
      t.rd Obj.dictDiscards = min (s.rd Obj.dictDiscards + 1) (2 ^ 32 - 1) ∧ t.staged = s.staged ∧ t.tile = s.tile ∧ t.cmd = s.cmd)

/-- Event interrupts, the mirror, silence of the field network and MCTP control. Each clause concludes that exec answers a next state, under
conditions on the state and the operands alone. Completes: eventIrq, mirrorRefresh, fieldLinkLost, mctpReassemblyTimeout, setEndpointId,
getEndpointId, getMessageTypeSupport, getMctpVersionSupport, getVendorMessageSupport. -/
def Obligations.InterruptsMirrorAndManagement : Prop :=
  (∀ (s : State) (f : Nat),
    s.dict.irqA = some f → s.rd (Obj.evtIrq 1) = 1 → s.rd Obj.evtIrqUs * us ≤ s.now - f →
    ∃ t, exec (.eventIrq .ha) s = .next t ∧
      t = { s.interrupt .ha 8 with dict := { s.dict with irqA := none } } ∧
      (s.cmd.msix.get MsixEnt.reset 24).masked = false → t.out = .msix .ha 8 :: s.out) ∧
  (∀ (s : State),
    (s.dict.irqA = none ∨ s.rd (Obj.evtIrq 1) ≠ 1 ∨ s.now - s.dict.irqA.getD 0 < s.rd Obj.evtIrqUs * us) →
    ∃ t, exec (.eventIrq .ha) s = .next t ∧
      t = s) ∧
  (∀ (s : State) (f : Nat),
    s.dict.irqB = some f → s.rd (Obj.evtIrq 2) = 1 → s.rd Obj.evtIrqUs * us ≤ s.now - f →
    ∃ t, exec (.eventIrq .hb) s = .next t ∧
      t = { s.interrupt .hb 8 with dict := { s.dict with irqB := none } } ∧
      (s.cmd.msix.get MsixEnt.reset 40).masked = false → t.out = .msix .hb 8 :: s.out) ∧
  (∀ (s : State),
    (s.dict.irqB = none ∨ s.rd (Obj.evtIrq 2) ≠ 1 ∨ s.now - s.dict.irqB.getD 0 < s.rd Obj.evtIrqUs * us) →
    ∃ t, exec (.eventIrq .hb) s = .next t ∧
      t = s) ∧
  (∀ (s : State),
    s.standby = true → 100 * us ≤ s.now - s.dict.mirrorAt →
    ∃ t, exec (.mirrorRefresh) s = .next t ∧
      t.dict.mirror = memWrite [] 0 (s.account.mirrorBytes ((unle (memRead s.dict.mirror 0 4) + 2) % 2 ^ 32)) ∧
      memRead t.dict.mirror 0 4 = p32 ((unle (memRead s.dict.mirror 0 4) + 2) % 2 ^ 32) ∧ t.dict.mirrorAt = s.now) ∧
  (∀ (s : State),
    (s.standby = false ∨ s.now - s.dict.mirrorAt < 100 * us) →
    ∃ t, exec (.mirrorRefresh) s = .next t ∧
      t = s) ∧
  (∀ (s : State),
    (s.standby = false ∨ s.now - s.dict.fldHeard < sec ∨ s.inEpisode Ev.fieldLinkLost 0 = true) →
    ∃ t, exec (.fieldLinkLost) s = .next t ∧
      t = s) ∧
  (∀ (s : State),
    s.standby = true → sec ≤ s.now - s.dict.fldHeard → s.inEpisode Ev.fieldLinkLost 0 = false →
    ∃ t, exec (.fieldLinkLost) s = .next t ∧
      t.inEpisode Ev.fieldLinkLost 0 = true ∧
      t.rd (Obj.occurrences (Ev.fieldLinkLost / 256 - 1) (Ev.fieldLinkLost % 256)) = (s.rd (Obj.occurrences (Ev.fieldLinkLost / 256 - 1) (Ev.fieldLinkLost % 256)) + 1) % 2 ^ 32) ∧
  (∀ (s : State) (p : HostPort),
    s.standby = true →
    ∃ t, exec (.mctpReassemblyTimeout p) s = .next t ∧
      t = s.countSat Obj.dictDiscards 1 ∧ t.rd Obj.dictDiscards = min (s.rd Obj.dictDiscards + 1) (2 ^ 32 - 1)) ∧
  (∀ (s : State) (p : HostPort),
    s.standby = false →
    ∃ t, exec (.mctpReassemblyTimeout p) s = .next t ∧
      t = s) ∧
  (∀ (s : State) (p : HostPort) (op eid : Nat),
    s.standby = true → op ≤ 1 → 8 ≤ eid → eid ≤ 254 →
    ∃ t, exec (.setEndpointId p op eid) s = .next t ∧
      t.rd (Obj.mctpEid (portNo p)) = eid ∧ t.out = .answer p prMctp 1 ([0, 0, BitVec.ofNat 8 eid, 0]) :: s.out ∧
      (∀ k, k ≠ Obj.mctpEid (portNo p) → t.rd k = s.rd k)) ∧
  (∀ (s : State) (p : HostPort) (op eid : Nat),
    s.standby = true → (1 < op ∨ eid < 8 ∨ 254 < eid) →
    ∃ t, exec (.setEndpointId p op eid) s = .next t ∧
      t.out = .answer p prMctp 1 ([if op = 3 then 0 else 2, 0, BitVec.ofNat 8 (s.rd (Obj.mctpEid (portNo p))), 0]) :: s.out ∧ t.obj = s.obj) ∧
  (∀ (s : State) (p : HostPort) (op eid : Nat),
    s.standby = false →
    ∃ t, exec (.setEndpointId p op eid) s = .next t ∧
      t = s) ∧
  (∀ (s : State) (p : HostPort),
    s.standby = false →
    ∃ t, exec (.getEndpointId p) s = .next t ∧
      t = s) ∧
  (∀ (s : State) (p : HostPort),
    s.standby = false →
    ∃ t, exec (.getMessageTypeSupport p) s = .next t ∧
      t = s) ∧
  (∀ (s : State) (p : HostPort) (mtype : Nat),
    s.standby = false →
    ∃ t, exec (.getMctpVersionSupport p mtype) s = .next t ∧
      t = s) ∧
  (∀ (s : State) (p : HostPort) (mtype : Nat),
    s.standby = false →
    ∃ t, exec (.getVendorMessageSupport p mtype) s = .next t ∧
      t = s) ∧
  (∀ (s : State) (p : HostPort),
    s.standby = true →
    ∃ t, exec (.getEndpointId p) s = .next t ∧
      t.out = .answer p prMctp 2 ([0, BitVec.ofNat 8 (s.rd (Obj.mctpEid (portNo p))), 0, 0]) :: s.out ∧ t.obj = s.obj) ∧
  (∀ (s : State) (p : HostPort),
    s.standby = true →
    ∃ t, exec (.getMessageTypeSupport p) s = .next t ∧
      t.out = .answer p prMctp 5 ([0, 2, 1, 0x7F]) :: s.out ∧ t.obj = s.obj) ∧
  (∀ (s : State) (p : HostPort) (mtype : Nat),
    s.standby = true → (mtype = 0xFF ∨ mtype = 0 ∨ mtype = 1 ∨ mtype = 0x7F) →
    ∃ t, exec (.getMctpVersionSupport p mtype) s = .next t ∧
      t.out = .answer p prMctp 4 ([0, 1] ++ fit 4 (Config.response 40 mtype)) :: s.out ∧ t.obj = s.obj) ∧
  (∀ (s : State) (p : HostPort) (mtype : Nat),
    s.standby = true → mtype ≠ 0xFF → mtype ≠ 0 → mtype ≠ 1 → mtype ≠ 0x7F →
    ∃ t, exec (.getMctpVersionSupport p mtype) s = .next t ∧
      t.out = .answer p prMctp 4 ([0x80, 0]) :: s.out ∧ t.obj = s.obj) ∧
  (∀ (s : State) (p : HostPort) (selector : Nat),
    s.standby = true → selector ≠ 0 →
    ∃ t, exec (.getVendorMessageSupport p selector) s = .next t ∧
      t.out = .answer p prMctp 6 ([2]) :: s.out ∧ t.obj = s.obj) ∧
  (∀ (s : State) (p : HostPort) (selector : Nat),
    s.standby = true → selector = 0 →
    ∃ t, exec (.getVendorMessageSupport p selector) s = .next t ∧
      t.out = .answer p prMctp 6 ([0, 0xFF, 1] ++ (p32 (s.rd Obj.ianaEnterprise)).reverse ++ fit 2 (Config.response 41 0)) :: s.out ∧ t.obj = s.obj)

/-- Saving settings, the read-back, and defaults. Each clause concludes that exec answers a next state, under conditions on the state and the
operands alone. Completes: settingsSave, settingsSaveDone, settingsDefaults. -/
def Obligations.SettingsAreSaved : Prop :=
  (∀ (s : State) (src : Src) (arg : Nat),
    arg = 1 → s.fldDenied src Obj.settingsSave = false → s.saveCond = 0 →
    ∃ t, exec (.settingsSave src arg) s = .next t ∧
      t.out.head? = some (.status src Obj.settingsSave 0) ∧ t.rd Obj.settingsState = 2 ∧
      t.dict.saving = some { start := s.now, before := s.rd Obj.settingsState, rcd := s.settingsNow, fails := 0 } ∧ t.dict.stored = s.dict.stored) ∧
  (∀ (s : State) (src : Src) (arg : Nat),
    (s.fldDenied src Obj.settingsSave = true ∨ arg ≠ 1 ∨ s.saveCond ≠ 0) →
    ∃ t, exec (.settingsSave src arg) s = .next t ∧
      t.out = .status src Obj.settingsSave (if s.fldDenied src Obj.settingsSave = true then 0x0B else if arg ≠ 1 then 0x05 else 0x0A) :: s.out ∧
      t.rd Obj.settingsState = s.rd Obj.settingsState ∧ t.dict = s.dict ∧ t.rd Obj.dictRejected = (s.rd Obj.dictRejected + 1) % 2 ^ 64) ∧
  (∀ (s : State) (good : Bool),
    s.dict.saving = none →
    ∃ t, exec (.settingsSaveDone good) s = .next t ∧
      t = s) ∧
  (∀ (s : State) (v : Saving),
    s.dict.saving = some v → v.fails = 0 →
    ∃ t, exec (.settingsSaveDone false) s = .next t ∧
      t = { s with dict := { s.dict with saving := some { v with fails := 1 } } }) ∧
  (∀ (s : State) (v : Saving),
    s.dict.saving = some v →
    ∃ t, exec (.settingsSaveDone true) s = .next t ∧
      t.rd Obj.settingsState = 1 ∧ t.dict.stored = some v.rcd ∧ t.dict.savedAt = some s.now ∧ t.dict.saving = none) ∧
  (∀ (s : State) (v : Saving),
    s.dict.saving = some v → v.fails ≠ 0 →
    ∃ t, exec (.settingsSaveDone false) s = .next t ∧
      t.rd Obj.settingsState = v.before ∧ t.dict.stored = s.dict.stored ∧ t.dict.saving = none ∧
      t.rd (Obj.occurrences (Ev.settingsSaveFault / 256 - 1) (Ev.settingsSaveFault % 256)) = (s.rd (Obj.occurrences (Ev.settingsSaveFault / 256 - 1) (Ev.settingsSaveFault % 256)) + 1) % 2 ^ 32) ∧
  (∀ (s : State) (src : Src) (arg : Nat),
    arg = 1 → s.fldDenied src Obj.settingsDefaults = false → s.dict.saving = none →
    ∃ t, exec (.settingsDefaults src arg) s = .next t ∧
      t.out.head? = some (.status src Obj.settingsDefaults 0) ∧ t.rd Obj.settingsState = 0 ∧
      (∀ k ∈ persistentKeys, isMode k = false → s.keepsSize k = false → t.rd k = s.dflt k) ∧
      (∀ k ∈ persistentKeys, isMode k = true → (t.staged.find k).getD (t.rd k) = s.dflt k) ∧ t.dict.stored = s.dict.stored) ∧
  (∀ (s : State) (src : Src) (arg : Nat) (v : Saving),
    arg = 1 → s.fldDenied src Obj.settingsDefaults = false → s.dict.saving = some v →
    ∃ t, exec (.settingsDefaults src arg) s = .next t ∧
      t.out.head? = some (.status src Obj.settingsDefaults 0) ∧ t.dict.saving = some { v with before := 0 } ∧
      (∀ k ∈ persistentKeys, isMode k = false → s.keepsSize k = false → t.rd k = s.dflt k) ∧
      (∀ k ∈ persistentKeys, isMode k = true → (t.staged.find k).getD (t.rd k) = s.dflt k) ∧ t.dict.stored = s.dict.stored) ∧
  (∀ (s : State) (src : Src) (arg : Nat),
    (s.fldDenied src Obj.settingsDefaults = true ∨ arg ≠ 1) →
    ∃ t, exec (.settingsDefaults src arg) s = .next t ∧
      t.out = .status src Obj.settingsDefaults (if s.fldDenied src Obj.settingsDefaults = true then 0x0B else 0x05) :: s.out ∧ t.staged = s.staged ∧
      t.dict = s.dict ∧ t.rd Obj.dictRejected = (s.rd Obj.dictRejected + 1) % 2 ^ 64)

/-- Firmware loading over PLDM. Each clause concludes that exec answers a next state, under conditions on the state and the operands alone.
Completes: pldmQueryDeviceIdentifiers, pldmGetFirmwareParameters, pldmRequestUpdate, pldmGetStatus, pldmCancelUpdate, pldmActivateFirmware,
pldmPassComponentTable, pldmUpdateComponent, pldmFirmwareData, pldmCancelUpdateComponent. -/
def Obligations.FirmwareIsLoaded : Prop :=
  (∀ (s : State) (p : HostPort),
    s.linkUp p = true →
    ∃ t, exec (.pldmQueryDeviceIdentifiers p) s = .next t ∧
      t = { s with out := .answer p prPldm 0 (p32 (s.rd Obj.ianaEnterprise) ++ p16 (s.rd Obj.pciVendor) ++ p16 (s.rd Obj.pciDevice)) :: s.out }) ∧
  (∀ (s : State) (p : HostPort),
    s.linkUp p = true →
    ∃ t, exec (.pldmGetFirmwareParameters p) s = .next t ∧
      t = { s with out := .answer p prPldm 0 (p32 (s.rd Obj.fwVersion) ++ p32 (if s.rd (Obj.slotState s.loadSlot) = 2 then s.rd (Obj.slotFwVersion s.loadSlot) else 0)) :: s.out }) ∧
  (∀ (s : State) (p : HostPort),
    s.linkUp p = true → s.fw.load = none → s.activating = false →
    ∃ t, exec (.pldmRequestUpdate p) s = .next t ∧
      t.fw = { s.fw with load := some { port := p, phase := 1, size := 0, got := 0 } } ∧ t.out = .answer p prPldm 0 ([]) :: s.out) ∧
  (∀ (s : State) (p : HostPort),
    s.linkUp p = false →
    ∃ t, exec (.pldmQueryDeviceIdentifiers p) s = .next t ∧
      t = s) ∧
  (∀ (s : State) (p : HostPort),
    s.linkUp p = false →
    ∃ t, exec (.pldmGetFirmwareParameters p) s = .next t ∧
      t = s) ∧
  (∀ (s : State) (p : HostPort),
    s.linkUp p = false →
    ∃ t, exec (.pldmRequestUpdate p) s = .next t ∧
      t = s) ∧
  (∀ (s : State) (p : HostPort),
    s.linkUp p = false →
    ∃ t, exec (.pldmGetStatus p) s = .next t ∧
      t = s) ∧
  (∀ (s : State) (p : HostPort),
    s.linkUp p = false →
    ∃ t, exec (.pldmCancelUpdate p) s = .next t ∧
      t = s) ∧
  (∀ (s : State) (p : HostPort),
    s.linkUp p = false →
    ∃ t, exec (.pldmActivateFirmware p) s = .next t ∧
      t = s) ∧
  (∀ (s : State) (p : HostPort),
    s.linkUp p = true → s.fw.load.isSome = true →
    ∃ t, exec (.pldmRequestUpdate p) s = .next t ∧
      t = { s with out := .answer p prPldm 0x81 ([]) :: s.out }) ∧
  (∀ (s : State) (p : HostPort),
    s.linkUp p = true → s.fw.load = none → s.activating = true →
    ∃ t, exec (.pldmRequestUpdate p) s = .next t ∧
      t = { s with out := .answer p prPldm 0x8A ([]) :: s.out }) ∧
  (∀ (s : State) (p : HostPort),
    s.linkUp p = true → (s.fw.load = none ∨ s.fw.load.map Loading.port ≠ some p) →
    ∃ t, exec (.pldmPassComponentTable p) s = .next t ∧
      t = { s with out := .answer p prPldm 0x80 ([]) :: s.out }) ∧
  (∀ (s : State) (p : HostPort) (l : Loading),
    s.linkUp p = true → s.fw.load = some l → l.port = p → l.phase ≠ 1 →
    ∃ t, exec (.pldmPassComponentTable p) s = .next t ∧
      t = { s with out := .answer p prPldm 0x84 ([]) :: s.out }) ∧
  (∀ (s : State) (p : HostPort),
    s.linkUp p = false →
    ∃ t, exec (.pldmPassComponentTable p) s = .next t ∧
      t = s) ∧
  (∀ (s : State) (p : HostPort) (size : Nat),
    s.linkUp p = true → (s.fw.load = none ∨ s.fw.load.map Loading.port ≠ some p) →
    ∃ t, exec (.pldmUpdateComponent p size) s = .next t ∧
      t = { s with out := .answer p prPldm 0x80 ([]) :: s.out }) ∧
  (∀ (s : State) (p : HostPort) (l : Loading) (size : Nat),
    s.linkUp p = true → s.fw.load = some l → l.port = p → l.phase ≠ 2 →
    ∃ t, exec (.pldmUpdateComponent p size) s = .next t ∧
      t = { s with out := .answer p prPldm 0x84 ([]) :: s.out }) ∧
  (∀ (s : State) (p : HostPort) (size : Nat),
    s.linkUp p = false →
    ∃ t, exec (.pldmUpdateComponent p size) s = .next t ∧
      t = s) ∧
  (∀ (s : State) (p : HostPort) (off : Nat) (data : Bytes),
    s.linkUp p = true → (s.fw.load = none ∨ s.fw.load.map Loading.port ≠ some p) →
    ∃ t, exec (.pldmFirmwareData p off data) s = .next t ∧
      t = { s with out := .answer p prPldm 0x80 ([]) :: s.out }) ∧
  (∀ (s : State) (p : HostPort) (l : Loading) (off : Nat) (data : Bytes),
    s.linkUp p = true → s.fw.load = some l → l.port = p → l.phase ≠ 3 →
    ∃ t, exec (.pldmFirmwareData p off data) s = .next t ∧
      t = { s with out := .answer p prPldm 0x84 ([]) :: s.out }) ∧
  (∀ (s : State) (p : HostPort) (off : Nat) (data : Bytes),
    s.linkUp p = false →
    ∃ t, exec (.pldmFirmwareData p off data) s = .next t ∧
      t = s) ∧
  (∀ (s : State) (p : HostPort),
    s.linkUp p = true → (s.fw.load = none ∨ s.fw.load.map Loading.port ≠ some p) →
    ∃ t, exec (.pldmCancelUpdateComponent p) s = .next t ∧
      t = { s with out := .answer p prPldm 0x80 ([]) :: s.out }) ∧
  (∀ (s : State) (p : HostPort) (l : Loading),
    s.linkUp p = true → s.fw.load = some l → l.port = p → l.phase ≠ 3 →
    ∃ t, exec (.pldmCancelUpdateComponent p) s = .next t ∧
      t = { s with out := .answer p prPldm 0x84 ([]) :: s.out }) ∧
  (∀ (s : State) (p : HostPort),
    s.linkUp p = false →
    ∃ t, exec (.pldmCancelUpdateComponent p) s = .next t ∧
      t = s) ∧
  (∀ (s : State) (p : HostPort) (l : Loading) (size : Nat),
    s.linkUp p = true → s.fw.load = some l → l.port = p → l.phase = 2 → s.activating = true →
    ∃ t, exec (.pldmUpdateComponent p size) s = .next t ∧
      t = { s with out := .answer p prPldm 0x84 ([]) :: s.out }) ∧
  (∀ (s : State) (p : HostPort) (l : Loading) (size : Nat),
    s.linkUp p = true → s.fw.load = some l → l.port = p → l.phase = 2 → s.activating = false → (size = 0 ∨ 2 ^ 27 < size) →
    ∃ t, exec (.pldmUpdateComponent p size) s = .next t ∧
      t = { s with out := .answer p prPldm 0 ([1]) :: s.out }) ∧
  (∀ (s : State) (p : HostPort) (l : Loading) (off : Nat) (data : Bytes),
    s.linkUp p = true → s.fw.load = some l → l.port = p → l.phase = 3 → off ≠ l.got →
    ∃ t, exec (.pldmFirmwareData p off data) s = .next t ∧
      t = s) ∧
  (∀ (s : State) (p : HostPort) (l : Loading) (off : Nat) (data : Bytes),
    s.linkUp p = true → s.fw.load = some l → l.port = p → l.phase = 3 → off = l.got → l.size ≤ l.got + data.length → l.got ≤ l.size →
    s.rd Obj.activeSlot ≤ 1 →
    ∃ t, exec (.pldmFirmwareData p off data) s = .next t ∧
      t.fw.slots = ({ s with fw := { s.fw with slots := memWrite s.fw.slots (s.loadSlot * 2 ^ 27 + off) (data.take (l.size - l.got)) } } : State).fw.slots ∧
      t.fw.load = none ∧
      t.rd (Obj.slotState s.loadSlot) = (if ({ s with fw := { s.fw with slots := memWrite s.fw.slots (s.loadSlot * 2 ^ 27 + off) (data.take (l.size - l.got)) } } : State).imageReject s.loadSlot (!s.inRecovery) = 0 then 2 else 4) ∧
      t.rd (Obj.slotRejectReason s.loadSlot) = ({ s with fw := { s.fw with slots := memWrite s.fw.slots (s.loadSlot * 2 ^ 27 + off) (data.take (l.size - l.got)) } } : State).imageReject s.loadSlot (!s.inRecovery)) ∧
  (∀ (s : State) (p : HostPort),
    s.linkUp p = true → (s.fw.load = none ∨ s.fw.load.map Loading.port ≠ some p) →
    ∃ t, exec (.pldmCancelUpdate p) s = .next t ∧
      t = { s with out := .answer p prPldm 0x80 ([]) :: s.out }) ∧
  (∀ (s : State) (p : HostPort) (l : Loading),
    s.linkUp p = true → s.fw.load = some l → l.port = p → l.phase = 1 →
    ∃ t, exec (.pldmPassComponentTable p) s = .next t ∧
      t.fw = { s.fw with load := some { l with phase := 2 } } ∧ t.out = .answer p prPldm 0 ([]) :: s.out) ∧
  (∀ (s : State) (p : HostPort) (l : Loading) (size : Nat),
    s.linkUp p = true → s.fw.load = some l → l.port = p → l.phase = 2 → s.activating = false → 0 < size → size ≤ 2 ^ 27 →
    ∃ t, exec (.pldmUpdateComponent p size) s = .next t ∧
      t.fw.load = some { l with phase := 3, size := size, got := 0 } ∧ t.rd (Obj.slotState s.loadSlot) = 1 ∧
      (∀ i, i < 2 ^ 27 → t.slotByte s.loadSlot i = 0) ∧
      t.out = .answer l.port prPldm 0x15 (p32 0 ++ p32 (min 4096 size)) :: .answer p prPldm 0 [0] :: s.out) ∧
  (∀ (s : State) (p : HostPort) (l : Loading) (off : Nat) (data : Bytes),
    s.linkUp p = true → s.fw.load = some l → l.port = p → l.phase = 3 → off = l.got → l.got + data.length < l.size →
    ∃ t, exec (.pldmFirmwareData p off data) s = .next t ∧
      t.fw.slots = memWrite s.fw.slots (s.loadSlot * 2 ^ 27 + off) data ∧ t.fw.load = some { l with got := l.got + data.length } ∧
      t.out = .answer l.port prPldm 0x15 (p32 (l.got + data.length) ++ p32 (min 4096 (l.size - (l.got + data.length)))) :: s.out ∧ t.obj = s.obj) ∧
  (∀ (s : State) (p : HostPort),
    s.linkUp p = true →
    ∃ t, exec (.pldmGetStatus p) s = .next t ∧
      t = { s with out := .answer p prPldm 0 (p8 ((s.fw.load.map Loading.phase).getD 0) ++ p8 (s.rd (Obj.slotRejectReason s.loadSlot))) :: s.out }) ∧
  (∀ (s : State) (p : HostPort) (l : Loading),
    s.linkUp p = true → s.fw.load = some l → l.port = p → l.phase = 3 →
    ∃ t, exec (.pldmCancelUpdateComponent p) s = .next t ∧
      t.fw.load = some { l with phase := 2 } ∧ t.rd (Obj.slotState s.loadSlot) = 0 ∧ t.out = .answer p prPldm 0 ([]) :: s.out) ∧
  (∀ (s : State) (p : HostPort) (l : Loading),
    s.linkUp p = true → s.fw.load = some l → l.port = p →
    ∃ t, exec (.pldmCancelUpdate p) s = .next t ∧
      t.fw.load = none ∧ (l.phase = 3 → t.rd (Obj.slotState s.loadSlot) = 0) ∧ t.out = .answer p prPldm 0 ([]) :: s.out) ∧
  (∀ (s : State) (p : HostPort),
    s.linkUp p = true →
    ∃ t, exec (.pldmActivateFirmware p) s = .next t ∧
      t = { s with out := .answer p prPldm 0 [] :: s.out })

/-- Boot, activation, trial, revert and confirmation of firmware. Each clause concludes that exec answers a next state, under conditions on the
state and the operands alone. Completes: boot, actTickWrite, localActivationTick, fwActivation, trialTimeout, fwRevert, fwConfirm. -/
def Obligations.FirmwareBootsAndActivates : Prop :=
  (∀ (s : State),
    s.start.stage = 4 → s.rd Obj.moduleState = 0 → s.fw.measured = [] → s.bootRec.active ≤ 1 → s.bootRec.trial = false →
    ∃ t, exec (.boot) s = .next t ∧
      (s.imageReject s.bootRec.active false = 0 → t.fw.measured = [Config.romHash, s.manifestHash s.bootRec.active, Config.sha384 ((s.dict.stored.map SettingsRec.bytes).getD [])] ∧ t.rd Obj.activeSlot = s.bootRec.active) ∧
      (s.imageReject s.bootRec.active false ≠ 0 → t.rd Obj.bootState = 3 ∧ t.rd Obj.moduleState = 1 ∧ t.fw.measured = [])) ∧
  (∀ (s : State),
    s.start.stage = 4 → s.rd Obj.moduleState = 0 → s.fw.measured = [] → s.bootRec.active ≤ 1 → s.bootRec.trial = true → s.bootRec.count < 3 →
    ∃ t, exec (.boot) s = .next t ∧
      (s.imageReject s.bootRec.active false = 0 → t.fw.measured = [Config.romHash, s.manifestHash s.bootRec.active, Config.sha384 ((s.dict.stored.map SettingsRec.bytes).getD [])] ∧ t.rd Obj.activeSlot = s.bootRec.active ∧ t.rd Obj.bootState = 1 ∧ t.bootRec.count = s.bootRec.count + 1) ∧
      (s.imageReject s.bootRec.active false ≠ 0 → (s.imageReject (1 - s.bootRec.active) false = 0 → t.fw.measured = [Config.romHash, s.manifestHash (1 - s.bootRec.active), Config.sha384 ((s.dict.stored.map SettingsRec.bytes).getD [])] ∧ t.rd Obj.activeSlot = (1 - s.bootRec.active) ∧ t.rd Obj.bootState = 2 ∧ t.bootRec.active = (1 - s.bootRec.active) ∧ t.bootRec.trial = false) ∧ (s.imageReject (1 - s.bootRec.active) false ≠ 0 → t.rd Obj.bootState = 3 ∧ t.rd Obj.moduleState = 1 ∧ t.fw.measured = []))) ∧
  (∀ (s : State),
    s.start.stage = 4 → s.rd Obj.moduleState = 0 → s.fw.measured = [] → s.bootRec.active ≤ 1 → s.bootRec.trial = true → 3 ≤ s.bootRec.count →
    ∃ t, exec (.boot) s = .next t ∧
      (s.imageReject (1 - s.bootRec.active) false = 0 → t.fw.measured = [Config.romHash, s.manifestHash (1 - s.bootRec.active), Config.sha384 ((s.dict.stored.map SettingsRec.bytes).getD [])] ∧ t.rd Obj.activeSlot = (1 - s.bootRec.active) ∧ t.rd Obj.bootState = 2 ∧ t.bootRec.active = (1 - s.bootRec.active) ∧ t.bootRec.trial = false) ∧ (s.imageReject (1 - s.bootRec.active) false ≠ 0 → t.rd Obj.bootState = 3 ∧ t.rd Obj.moduleState = 1 ∧ t.fw.measured = [])) ∧
  (∀ (s : State),
    (s.start.stage ≠ 4 ∨ s.rd Obj.moduleState ≠ 0 ∨ s.fw.measured ≠ []) →
    ∃ t, exec (.boot) s = .next t ∧
      t = s) ∧
  (∀ (s : State) (src : Src) (v : Nat),
    v ≠ 0 → v < 2 ^ 64 → s.fldDenied src Obj.actTick = false → s.actTickCond v = 0 →
    ∃ t, exec (.actTickWrite src v) s = .next t ∧
      t.out = .status src Obj.actTick 0 :: s.out ∧ t.rd Obj.actTick = v ∧ t.rd Obj.actMode = 2 ∧ t.fw = s.fw) ∧
  (∀ (s : State) (src : Src) (v : Nat),
    v = 0 → s.fldDenied src Obj.actTick = false →
    ∃ t, exec (.actTickWrite src v) s = .next t ∧
      t.out = .status src Obj.actTick 0 :: s.out ∧ t.rd Obj.actTick = 0 ∧ t.rd Obj.actMode = (if s.rd Obj.actMode = 2 then 0 else s.rd Obj.actMode) ∧
      t.fw.phase = (if s.rd Obj.actMode = 2 ∧ s.fw.phase = 1 then 0 else s.fw.phase) ∧
      t.cmd.hold = (if s.rd Obj.actMode = 2 ∧ s.fw.phase = 1 then false else s.cmd.hold)) ∧
  (∀ (s : State) (src : Src) (v : Nat),
    (s.fldDenied src Obj.actTick = true ∨ 2 ^ 64 ≤ v ∨ s.actTickCond v ≠ 0) →
    ∃ t, exec (.actTickWrite src v) s = .next t ∧
      t.out = .status src Obj.actTick (if s.fldDenied src Obj.actTick = true then 0x0B else if 2 ^ 64 ≤ v then 0x05 else s.actTickCond v) :: s.out ∧
      t.rd Obj.dictRejected = (s.rd Obj.dictRejected + 1) % 2 ^ 64 ∧ t.fw = s.fw ∧ t.start = s.start ∧ t.cmd = s.cmd ∧
      t.rd Obj.actMode = s.rd Obj.actMode) ∧
  (∀ (s : State),
    s.rd Obj.actMode = 2 → s.rd Obj.actTick ≤ s.now → s.fw.phase = 0 → s.rd Obj.moduleState = 2 →
    ∃ t, exec (.localActivationTick) s = .next t ∧
      t = { s with cmd := { s.cmd with hold := true }, fw := { s.fw with phase := 1 } }) ∧
  (∀ (s : State),
    (¬ (s.rd Obj.actMode = 2 ∧ s.rd Obj.actTick ≤ s.now ∧ s.fw.phase = 0 ∧ s.rd Obj.moduleState = 2)) →
    ∃ t, exec (.localActivationTick) s = .next t ∧
      t = s) ∧
  (∀ (s : State),
    s.fw.phase = 1 → s.quiet = true → s.bootRec.active ≤ 1 →
    ∃ t, exec (.fwActivation) s = .next t ∧
      t.bootRec.active = (1 - s.bootRec.active) ∧ t.bootRec.trial = true ∧ t.bootRec.count = 0 ∧ t.rd Obj.activeSlot = (1 - s.bootRec.active) ∧
      t.rd (Obj.slotState s.bootRec.active) = 2 ∧ t.rd (Obj.slotState (1 - s.bootRec.active)) = 3 ∧ t.rd Obj.actMode = 0 ∧ t.rd Obj.moduleState = 0 ∧
      t.fw.phase = 2 ∧ t.start.stage = 4 ∧ t.start.domain = true ∧ t.tier.selfRefresh = true ∧ t.cmd.hold = true) ∧
  (∀ (s : State),
    (s.fw.phase ≠ 1 ∨ s.quiet = false) →
    ∃ t, exec (.fwActivation) s = .next t ∧
      t = s) ∧
  (∀ (s : State),
    s.rd Obj.bootState ≤ 1 → s.bootRec.trial = true → s.rd Obj.moduleState ≤ 1 → 30000 * ms ≤ s.now - s.fw.restartAt → s.bootRec.active ≤ 1 →
    s.start.rails = true →
    ∃ t, exec (.trialTimeout) s = .next t ∧
      t.bootRec.active = (1 - s.bootRec.active) ∧ t.bootRec.trial = false ∧ t.rd Obj.bootState = 2 ∧ t.rd Obj.activeSlot = (1 - s.bootRec.active) ∧
      t.rd Obj.moduleState = 0 ∧ t.fw.phase = 2 ∧ t.start.stage = 4 ∧ t.start.domain = true ∧ t.fw.revert = some 2) ∧
  (∀ (s : State),
    s.rd Obj.bootState ≤ 1 → s.bootRec.trial = true → s.rd Obj.moduleState ≤ 1 → 30000 * ms ≤ s.now - s.fw.restartAt → s.bootRec.active ≤ 1 →
    s.start.rails = false →
    ∃ t, exec (.trialTimeout) s = .next t ∧
      t.bootRec.active = (1 - s.bootRec.active) ∧ t.bootRec.trial = false ∧ t.rd Obj.bootState = 2 ∧ t.rd Obj.activeSlot = (1 - s.bootRec.active) ∧
      t.rd Obj.moduleState = 0 ∧ t.fw.phase = s.fw.phase ∧ t.start.stage = (if s.start.trayReady = true then 2 else 1) ∧ t.start.domain = false ∧
      t.fw.revert = some 2) ∧
  (∀ (s : State),
    (¬ (s.rd Obj.bootState ≤ 1 ∧ s.bootRec.trial = true ∧ s.rd Obj.moduleState ≤ 1 ∧ 30000 * ms ≤ s.now - s.fw.restartAt)) →
    ∃ t, exec (.trialTimeout) s = .next t ∧
      t = s) ∧
  (∀ (s : State) (src : Src) (arg : Nat),
    arg = 1 → s.fldDenied src Obj.fwRevert = false → s.revertCond = 0 → s.rd Obj.bootState = 1 → s.bootRec.active ≤ 1 → s.start.rails = true →
    ∃ t, exec (.fwRevert src arg) s = .next t ∧
      t.out.head? = some (.status src Obj.fwRevert 0) ∧ t.bootRec.active = (1 - s.bootRec.active) ∧ t.bootRec.trial = false ∧
      t.rd Obj.bootState = 2 ∧ t.rd Obj.activeSlot = (1 - s.bootRec.active) ∧ t.rd Obj.moduleState = 0 ∧ t.fw.phase = 2 ∧ t.start.stage = 4 ∧
      t.start.domain = true ∧ t.fw.revert = some 4) ∧
  (∀ (s : State) (src : Src) (arg : Nat),
    arg = 1 → s.fldDenied src Obj.fwRevert = false → s.revertCond = 0 → s.rd Obj.bootState = 1 → s.bootRec.active ≤ 1 → s.start.rails = false →
    ∃ t, exec (.fwRevert src arg) s = .next t ∧
      t.out.head? = some (.status src Obj.fwRevert 0) ∧ t.bootRec.active = (1 - s.bootRec.active) ∧ t.bootRec.trial = false ∧
      t.rd Obj.bootState = 2 ∧ t.rd Obj.activeSlot = (1 - s.bootRec.active) ∧ t.rd Obj.moduleState = 0 ∧ t.fw.phase = s.fw.phase ∧
      t.start.stage = (if s.start.trayReady = true then 2 else 1) ∧ t.start.domain = false ∧ t.fw.revert = some 4) ∧
  (∀ (s : State) (src : Src) (arg : Nat),
    arg = 1 → s.fldDenied src Obj.fwRevert = false → s.revertCond = 0 → s.rd Obj.bootState = 3 → s.rd Obj.activeSlot ≤ 1 →
    ∃ t, exec (.fwRevert src arg) s = .next t ∧
      t.out.head? = some (.status src Obj.fwRevert 0) ∧ t.rd (Obj.slotState (s.rd Obj.activeSlot)) = 3 ∧ t.rd Obj.bootState = 2 ∧
      t.rd Obj.moduleState = 0 ∧ t.fw.measured = [] ∧ t.start.stage = 4 ∧
      t.rd (Obj.occurrences (Ev.fwReverted / 256 - 1) (Ev.fwReverted % 256)) = (s.rd (Obj.occurrences (Ev.fwReverted / 256 - 1) (Ev.fwReverted % 256)) + 1) % 2 ^ 32) ∧
  (∀ (s : State) (src : Src) (arg : Nat),
    (s.fldDenied src Obj.fwRevert = true ∨ arg ≠ 1 ∨ s.revertCond ≠ 0) →
    ∃ t, exec (.fwRevert src arg) s = .next t ∧
      t.out = .status src Obj.fwRevert (if s.fldDenied src Obj.fwRevert = true then 0x0B else if arg ≠ 1 then 0x05 else s.revertCond) :: s.out ∧
      t.rd Obj.dictRejected = (s.rd Obj.dictRejected + 1) % 2 ^ 64 ∧ t.fw = s.fw ∧ t.start = s.start ∧ t.cmd = s.cmd ∧
      t.rd Obj.actMode = s.rd Obj.actMode) ∧
  (∀ (s : State) (src : Src) (arg : Nat),
    arg = 1 → s.fldDenied src Obj.fwConfirm = false → s.rd Obj.bootState = 1 → s.cmd.stepNow = none →
    ∃ t, exec (.fwConfirm src arg) s = .next t ∧
      t.out.head? = some (.status src Obj.fwConfirm 0) ∧ t.rd Obj.bootState = 0 ∧ t.bootRec.trial = false ∧ t.bootRec.active = s.bootRec.active ∧
      t.rd (Obj.occurrences (Ev.fwConfirmed / 256 - 1) (Ev.fwConfirmed % 256)) = (s.rd (Obj.occurrences (Ev.fwConfirmed / 256 - 1) (Ev.fwConfirmed % 256)) + 1) % 2 ^ 32) ∧
  (∀ (s : State) (src : Src) (arg : Nat),
    (s.fldDenied src Obj.fwConfirm = true ∨ arg ≠ 1 ∨ s.rd Obj.bootState ≠ 1 ∨ s.cmd.stepNow ≠ none) →
    ∃ t, exec (.fwConfirm src arg) s = .next t ∧
      t.out = .status src Obj.fwConfirm (if s.fldDenied src Obj.fwConfirm = true then 0x0B else if arg ≠ 1 then 0x05 else 0x09) :: s.out ∧
      t.rd Obj.dictRejected = (s.rd Obj.dictRejected + 1) % 2 ^ 64 ∧ t.fw = s.fw ∧ t.start = s.start ∧ t.cmd = s.cmd ∧
      t.rd Obj.actMode = s.rd Obj.actMode)

/-- SPDM, DOE discovery, dual reports, link encryption and the vendor test state. Each clause concludes that exec answers a next state, under
conditions on the state and the operands alone. Completes: spdmGetVersion, spdmGetCapabilities, spdmNegotiateAlgorithms, spdmGetDigests,
spdmGetCertificate, spdmChallenge, spdmGetMeasurements, spdmKeyExchange, spdmFinish, spdmHeartbeat, spdmEndSession, vendorTestNonce,
doeDiscovery, dualReport, ideKm, vendorTestUnlock, spdmHeartbeatTimeout, ideStopped. -/
def Obligations.SecurityProtocolsAnswer : Prop :=
  (∀ (s : State) (p : HostPort),
    s.linkUp p = false →
    ∃ t, exec (.spdmGetVersion p) s = .next t ∧
      t = s) ∧
  (∀ (s : State) (p : HostPort),
    s.linkUp p = false →
    ∃ t, exec (.spdmGetCapabilities p) s = .next t ∧
      t = s) ∧
  (∀ (s : State) (p : HostPort),
    s.linkUp p = false →
    ∃ t, exec (.spdmNegotiateAlgorithms p) s = .next t ∧
      t = s) ∧
  (∀ (s : State) (p : HostPort),
    s.linkUp p = false →
    ∃ t, exec (.spdmGetDigests p) s = .next t ∧
      t = s) ∧
  (∀ (s : State) (p : HostPort),
    s.linkUp p = false →
    ∃ t, exec (.spdmGetCertificate p) s = .next t ∧
      t = s) ∧
  (∀ (s : State) (p : HostPort),
    s.linkUp p = false →
    ∃ t, exec (.spdmChallenge p) s = .next t ∧
      t = s) ∧
  (∀ (s : State) (p : HostPort),
    s.linkUp p = false →
    ∃ t, exec (.spdmGetMeasurements p) s = .next t ∧
      t = s) ∧
  (∀ (s : State) (p : HostPort),
    s.linkUp p = false →
    ∃ t, exec (.spdmKeyExchange p) s = .next t ∧
      t = s) ∧
  (∀ (s : State) (p : HostPort),
    s.linkUp p = false →
    ∃ t, exec (.spdmFinish p) s = .next t ∧
      t = s) ∧
  (∀ (s : State) (p : HostPort),
    s.linkUp p = false →
    ∃ t, exec (.spdmHeartbeat p) s = .next t ∧
      t = s) ∧
  (∀ (s : State) (p : HostPort),
    s.linkUp p = false →
    ∃ t, exec (.spdmEndSession p) s = .next t ∧
      t = s) ∧
  (∀ (s : State) (p : HostPort),
    s.linkUp p = false →
    ∃ t, exec (.vendorTestNonce p) s = .next t ∧
      t = s) ∧
  (∀ (s : State) (p : HostPort) (i : Nat),
    s.linkUp p = false →
    ∃ t, exec (.doeDiscovery p i) s = .next t ∧
      t = s) ∧
  (∀ (s : State) (p : HostPort) (nonce : Bytes),
    s.linkUp p = false →
    ∃ t, exec (.dualReport p nonce) s = .next t ∧
      t = s) ∧
  (∀ (s : State) (p : HostPort) (op : Fin 3) (key : Bytes),
    s.linkUp p = false →
    ∃ t, exec (.ideKm p op key) s = .next t ∧
      t = s) ∧
  (∀ (s : State) (p : HostPort) (token : Bytes),
    s.linkUp p = false →
    ∃ t, exec (.vendorTestUnlock p token) s = .next t ∧
      t = s) ∧
  (∀ (s : State) (p : HostPort),
    s.linkUp p = true → (s.spdm p).phase < 1 →
    ∃ t, exec (.spdmGetCapabilities p) s = .next t ∧
      t = { s with out := .answer p prSpdm 0x7F ([4]) :: s.out }) ∧
  (∀ (s : State) (p : HostPort),
    s.linkUp p = true → (s.spdm p).phase < 2 →
    ∃ t, exec (.spdmNegotiateAlgorithms p) s = .next t ∧
      t = { s with out := .answer p prSpdm 0x7F ([4]) :: s.out }) ∧
  (∀ (s : State) (p : HostPort),
    s.linkUp p = true → (s.spdm p).phase < 3 →
    ∃ t, exec (.spdmGetDigests p) s = .next t ∧
      t = { s with out := .answer p prSpdm 0x7F ([4]) :: s.out }) ∧
  (∀ (s : State) (p : HostPort),
    s.linkUp p = true → (s.spdm p).phase < 3 →
    ∃ t, exec (.spdmGetCertificate p) s = .next t ∧
      t = { s with out := .answer p prSpdm 0x7F ([4]) :: s.out }) ∧
  (∀ (s : State) (p : HostPort),
    s.linkUp p = true → (s.spdm p).phase < 3 →
    ∃ t, exec (.spdmChallenge p) s = .next t ∧
      t = { s with out := .answer p prSpdm 0x7F ([4]) :: s.out }) ∧
  (∀ (s : State) (p : HostPort),
    s.linkUp p = true → (s.spdm p).phase < 3 →
    ∃ t, exec (.spdmGetMeasurements p) s = .next t ∧
      t = { s with out := .answer p prSpdm 0x7F ([4]) :: s.out }) ∧
  (∀ (s : State) (p : HostPort),
    s.linkUp p = true → (s.spdm p).phase < 3 →
    ∃ t, exec (.spdmKeyExchange p) s = .next t ∧
      t = { s with out := .answer p prSpdm 0x7F ([4]) :: s.out }) ∧
  (∀ (s : State) (p : HostPort),
    s.linkUp p = true → (s.spdm p).session.map Secured.done ≠ some false →
    ∃ t, exec (.spdmFinish p) s = .next t ∧
      t = { s with out := .answer p prSpdm 0x7F ([4]) :: s.out }) ∧
  (∀ (s : State) (p : HostPort),
    s.linkUp p = true → (s.spdm p).session.map Secured.done ≠ some true →
    ∃ t, exec (.spdmHeartbeat p) s = .next t ∧
      t = { s with out := .answer p prSpdm 0x7F ([4]) :: s.out }) ∧
  (∀ (s : State) (p : HostPort),
    s.linkUp p = true → (s.spdm p).session.map Secured.done ≠ some true →
    ∃ t, exec (.spdmEndSession p) s = .next t ∧
      t = { s with out := .answer p prSpdm 0x7F ([4]) :: s.out }) ∧
  (∀ (s : State) (p : HostPort) (op : Fin 3) (key : Bytes),
    s.linkUp p = true → (s.spdm p).session.map Secured.done ≠ some true →
    ∃ t, exec (.ideKm p op key) s = .next t ∧
      t = { s with out := .answer p prSpdm 0x7F ([4]) :: s.out }) ∧
  (∀ (s : State) (p : HostPort),
    s.linkUp p = true →
    ∃ t, exec (.spdmGetVersion p) s = .next t ∧
      t.spdm p = { phase := 1, session := none } ∧ t.out = .answer p prSpdm 0x04 ([0x12, 0x13]) :: s.out) ∧
  (∀ (s : State) (p : HostPort),
    s.linkUp p = true → 1 ≤ (s.spdm p).phase →
    ∃ t, exec (.spdmGetCapabilities p) s = .next t ∧
      t.spdm p = { (s.spdm p) with phase := max 2 (s.spdm p).phase } ∧ t.out = .answer p prSpdm 0x61 (p32 spdmCaps) :: s.out) ∧
  (∀ (s : State) (p : HostPort),
    s.linkUp p = true → 2 ≤ (s.spdm p).phase →
    ∃ t, exec (.spdmNegotiateAlgorithms p) s = .next t ∧
      t.spdm p = { (s.spdm p) with phase := 3 } ∧ t.out = .answer p prSpdm 0x63 (p32 0x80 ++ p32 0x02 ++ p16 0x10 ++ p16 0x02 ++ p32 0x04) :: s.out) ∧
  (∀ (s : State) (p : HostPort),
    s.linkUp p = true → 3 ≤ (s.spdm p).phase →
    ∃ t, exec (.spdmGetDigests p) s = .next t ∧
      t = { s with out := .answer p prSpdm 0x01 (le 48 (Config.sha384 s.certChain)) :: s.out }) ∧
  (∀ (s : State) (p : HostPort),
    s.linkUp p = true → 3 ≤ (s.spdm p).phase →
    ∃ t, exec (.spdmGetCertificate p) s = .next t ∧
      t = { s with out := .answer p prSpdm 0x02 s.certChain :: s.out }) ∧
  (∀ (s : State) (p : HostPort),
    s.linkUp p = true → 3 ≤ (s.spdm p).phase →
    ∃ t, exec (.spdmChallenge p) s = .next t ∧
      t.free = s.free + 1 ∧
      t.out = .answer p prSpdm 0x03 ((le 48 (Config.sha384 s.certChain)) ++ Config.response 0x03 s.free ++ Config.signature 2 (s.free + 1) ((le 48 (Config.sha384 s.certChain)) ++ Config.response 0x03 s.free)) :: s.out ∧
      t.fw = s.fw) ∧
  (∀ (s : State) (p : HostPort),
    s.linkUp p = true → 3 ≤ (s.spdm p).phase →
    ∃ t, exec (.spdmGetMeasurements p) s = .next t ∧
      t.free = s.free + 1 ∧
      t.out = .answer p prSpdm 0x60 (([1, 2, 3, 4, 5].flatMap s.measurement) ++ Config.response 0x60 s.free ++ Config.signature 2 (s.free + 1) (([1, 2, 3, 4, 5].flatMap s.measurement) ++ Config.response 0x60 s.free)) :: s.out ∧
      t.fw = s.fw) ∧
  (∀ (s : State) (p : HostPort),
    s.linkUp p = true → 3 ≤ (s.spdm p).phase →
    ∃ t, exec (.spdmKeyExchange p) s = .next t ∧
      (∃ v, t.spdm p = { (s.spdm p) with session := some v } ∧ v.done = false ∧ v.beat = s.now ∧ 1 ≤ v.period) ∧
      (∃ b, t.out = .answer p prSpdm 0x64 b :: s.out)) ∧
  (∀ (s : State) (p : HostPort) (v : Secured),
    s.linkUp p = true → (s.spdm p).session = some v → v.done = false →
    ∃ t, exec (.spdmFinish p) s = .next t ∧
      t.spdm p = { (s.spdm p) with session := some { v with done := true, beat := s.now } } ∧ t.out = .answer p prSpdm 0x65 ([]) :: s.out) ∧
  (∀ (s : State) (p : HostPort) (v : Secured),
    s.linkUp p = true → (s.spdm p).session = some v → v.done = true →
    ∃ t, exec (.spdmHeartbeat p) s = .next t ∧
      t.spdm p = { (s.spdm p) with session := some { v with beat := s.now } } ∧ t.out = .answer p prSpdm 0x68 ([]) :: s.out) ∧
  (∀ (s : State) (p : HostPort) (v : Secured),
    s.linkUp p = true → (s.spdm p).session = some v → v.done = true →
    ∃ t, exec (.spdmEndSession p) s = .next t ∧
      t.spdm p = { (s.spdm p) with session := none } ∧ t.out = .answer p prSpdm 0x6C ([]) :: s.out) ∧
  (∀ (s : State) (p : HostPort) (v : Secured),
    (s.spdm p).session = some v → v.period * 1000 * ms ≤ s.now - v.beat →
    ∃ t, exec (.spdmHeartbeatTimeout p) s = .next t ∧
      t.spdm p = { (s.spdm p) with session := none } ∧ t.out = s.out ∧ t.obj = s.obj) ∧
  (∀ (s : State) (p : HostPort) (i : Nat),
    s.linkUp p = true → i ≤ 2 →
    ∃ t, exec (.doeDiscovery p i) s = .next t ∧
      t = { s with out := .answer p prDoe 0 (p16 1 ++ p8 i ++ p8 ((i + 1) % 3)) :: s.out }) ∧
  (∀ (s : State) (p : HostPort),
    ((s.spdm p).session = none ∨ s.now < ((s.spdm p).session.map fun v => v.period * 1000 * ms + v.beat).getD 0) →
    ∃ t, exec (.spdmHeartbeatTimeout p) s = .next t ∧
      t = s) ∧
  (∀ (s : State) (p : HostPort) (i : Nat),
    s.linkUp p = true → 2 < i →
    ∃ t, exec (.doeDiscovery p i) s = .next t ∧
      t = { s with out := .answer p prDoe 0 (p16 0xFFFF ++ p8 0 ++ p8 0) :: s.out }) ∧
  (∀ (s : State) (p : HostPort) (nonce : Bytes),
    s.linkUp p = true → s.rd Obj.lmsRemaining = 0 →
    ∃ t, exec (.dualReport p nonce) s = .next t ∧
      t = { s with out := .answer p prVendor 2 ([]) :: s.out }) ∧
  (∀ (s : State) (p : HostPort) (nonce : Bytes),
    s.linkUp p = true → s.rd Obj.lmsRemaining ≠ 0 → s.fw.reportAt ≠ none →
    (s.rd Obj.attMinIntervalS * 1000 * ms - (s.now - s.fw.reportAt.getD 0)) ≠ 0 →
    ∃ t, exec (.dualReport p nonce) s = .next t ∧
      t = { s with out := .answer p prVendor 1 (p32 (((s.rd Obj.attMinIntervalS * 1000 * ms - (s.now - s.fw.reportAt.getD 0)) + ms - 1) / ms)) :: s.out }) ∧
  (∀ (s : State) (p : HostPort) (nonce : Bytes),
    s.linkUp p = true → s.rd Obj.lmsRemaining ≠ 0 → s.fw.leafLeft = 0 →
    (s.fw.reportAt = none ∨ (s.rd Obj.attMinIntervalS * 1000 * ms - (s.now - s.fw.reportAt.getD 0)) = 0) →
    ∃ t, exec (.dualReport p nonce) s = .next t ∧
      t.fw.reportAt = some s.now ∧ t.fw.leafLeft = min 16 (s.rd Obj.lmsRemaining) - 1 ∧
      t.rd Obj.lmsRemaining = s.rd Obj.lmsRemaining - min 16 (s.rd Obj.lmsRemaining) ∧
      (∃ b, t.out.head? = some (.answer p prVendor 0 b) ∧ b.length = 3540)) ∧
  (∀ (s : State) (p : HostPort) (nonce : Bytes),
    s.linkUp p = true → s.rd Obj.lmsRemaining ≠ 0 → s.fw.leafLeft ≠ 0 →
    (s.fw.reportAt = none ∨ (s.rd Obj.attMinIntervalS * 1000 * ms - (s.now - s.fw.reportAt.getD 0)) = 0) →
    ∃ t, exec (.dualReport p nonce) s = .next t ∧
      t.fw.reportAt = some s.now ∧ t.fw.leafLeft = s.fw.leafLeft - 1 ∧ t.rd Obj.lmsRemaining = s.rd Obj.lmsRemaining ∧
      t.rd Obj.attReports = min (s.rd Obj.attReports + 1) (2 ^ 32 - 1) ∧ (∃ b, t.out.head? = some (.answer p prVendor 0 b) ∧ b.length = 3540)) ∧
  (∀ (s : State) (p : HostPort),
    s.rd (Obj.ideState (portNo p)) = 2 →
    ∃ t, exec (.ideStopped p) s = .next t ∧
      t.rd (Obj.ideState (portNo p)) = 3 ∧ t.fw = s.fw ∧ t.cmd = s.cmd) ∧
  (∀ (s : State) (p : HostPort),
    s.rd (Obj.ideState (portNo p)) ≠ 2 →
    ∃ t, exec (.ideStopped p) s = .next t ∧
      t = s) ∧
  (∀ (s : State) (p : HostPort) (key : Bytes) (v : Secured),
    s.linkUp p = true → (s.spdm p).session = some v → v.done = true → s.rd (Obj.ideState (portNo p)) ≠ 2 →
    ∃ t, exec (.ideKm p 0 key) s = .next t ∧
      t.ideKey p = some key ∧ t.rd (Obj.ideState (portNo p)) = 1 ∧ t.out = .answer p prSpdm 0xFE (p8 0) :: s.out) ∧
  (∀ (s : State) (p : HostPort) (key : Bytes) (v : Secured),
    s.linkUp p = true → (s.spdm p).session = some v → v.done = true → s.rd (Obj.ideState (portNo p)) = 2 →
    ∃ t, exec (.ideKm p 0 key) s = .next t ∧
      t.ideKey p = some key ∧ t.rd (Obj.ideState (portNo p)) = 2 ∧ t.out = .answer p prSpdm 0xFE (p8 0) :: s.out) ∧
  (∀ (s : State) (p : HostPort) (key : Bytes) (v : Secured),
    s.linkUp p = true → (s.spdm p).session = some v → v.done = true → s.ideKey p = none →
    ∃ t, exec (.ideKm p 1 key) s = .next t ∧
      t.ideKey p = none ∧ t.rd (Obj.ideState (portNo p)) = s.rd (Obj.ideState (portNo p)) ∧ t.out = .answer p prSpdm 0xFE (p8 1) :: s.out) ∧
  (∀ (s : State) (p : HostPort) (key : Bytes) (v : Secured),
    s.linkUp p = true → (s.spdm p).session = some v → v.done = true → s.rd (Obj.ideState (portNo p)) ≠ 2 →
    ∃ t, exec (.ideKm p 2 key) s = .next t ∧
      t.ideKey p = none ∧ t.rd (Obj.ideState (portNo p)) = s.rd (Obj.ideState (portNo p)) ∧ t.out.head? = some (.answer p prSpdm 0xFE (p8 2))) ∧
  (∀ (s : State) (p : HostPort) (key : Bytes) (v : Secured),
    s.linkUp p = true → (s.spdm p).session = some v → v.done = true → (s.ideKey p).isSome = true →
    ∃ t, exec (.ideKm p 1 key) s = .next t ∧
      t.rd (Obj.ideState (portNo p)) = 2 ∧ t.ideKey p = s.ideKey p ∧ t.out = .answer p prSpdm 0xFE (p8 1) :: s.out) ∧
  (∀ (s : State) (p : HostPort) (key : Bytes) (v : Secured),
    s.linkUp p = true → (s.spdm p).session = some v → v.done = true → s.rd (Obj.ideState (portNo p)) = 2 →
    ∃ t, exec (.ideKm p 2 key) s = .next t ∧
      t.rd (Obj.ideState (portNo p)) = 3 ∧ t.ideKey p = none ∧ t.out.head? = some (.answer p prSpdm 0xFE (p8 2))) ∧
  (∀ (s : State) (p : HostPort),
    s.linkUp p = true → s.rd Obj.moduleState = 1 →
    ∃ t, exec (.vendorTestNonce p) s = .next t ∧
      t.fw = { s.fw with nonce := some (le 32 (Config.nonce s.free)) } ∧ t.free = s.free + 1 ∧
      t.out = .answer p prVendor 0 (le 32 (Config.nonce s.free)) :: s.out) ∧
  (∀ (s : State) (p : HostPort),
    s.linkUp p = true → s.rd Obj.moduleState ≠ 1 →
    ∃ t, exec (.vendorTestNonce p) s = .next t ∧
      t = { s with out := .answer p prVendor 3 ([]) :: s.out }) ∧
  (∀ (s : State) (p : HostPort) (token : Bytes),
    s.linkUp p = true → s.fw.nonce = none →
    ∃ t, exec (.vendorTestUnlock p token) s = .next t ∧
      t = { s with out := .answer p prVendor 3 ([]) :: s.out }) ∧
  (∀ (s : State) (p : HostPort) (token : Bytes),
    s.linkUp p = true → s.fw.nonce ≠ none → s.rd Obj.moduleState ≠ 1 →
    ∃ t, exec (.vendorTestUnlock p token) s = .next t ∧
      t.fw = { s.fw with nonce := none } ∧ t.obj = s.obj ∧ t.out = .answer p prVendor 3 ([]) :: s.out) ∧
  (∀ (s : State) (p : HostPort) (token n : Bytes),
    s.linkUp p = true → s.rd Obj.moduleState = 1 → s.fw.nonce = some n →
    ∃ t, exec (.vendorTestUnlock p token) s = .next t ∧
      t.fw.nonce = none ∧
      (s.tokenOk token n = true → t.rd Obj.moduleState = 3 ∧ t.rd Obj.secState = 2 ∧ t.tier.regions = [] ∧ t.tier.mem = [] ∧ t.store.zones = [] ∧ t.upd = UpdState.reset ∧ t.out.head? = some (.answer p prVendor 0 [])) ∧
      (s.tokenOk token n = false → t.rd Obj.moduleState = 1 ∧ t.tier = s.tier ∧ t.store = s.store ∧ t.out = .answer p prVendor 3 [] :: s.out))

/-- Standby power-good, start-up stages, their faults, tray discretes and module reset. Each clause concludes that exec answers a next state,
under conditions on the state and the operands alone. Completes: standbyPowerGood, slotIdSample, startupStageDone, startupStageFault,
startupRetry, trayReadyAssert, trayReadyDeassert, modReset, modResetRelease. -/
def Obligations.StartUpRuns : Prop :=
  (∀ (s : State),
    s.standby = false → s.power.ovp = false → s.start.sessionNo ≠ 0xFFFFFFFF →
    ∃ t, exec (.standbyPowerGood true) s = .next t ∧
      t.standby = true ∧ t.now = 0 ∧ t.rd Obj.powerSession = s.start.sessionNo + 1 ∧ t.start.sessionNo = s.start.sessionNo + 1 ∧ t.start.stage = 1 ∧
      t.rd Obj.moduleState = 0) ∧
  (∀ (s : State),
    s.standby = false → s.power.ovp = false → s.start.sessionNo = 0xFFFFFFFF →
    ∃ t, exec (.standbyPowerGood true) s = .next t ∧
      t.standby = true ∧ t.now = 0 ∧ t.rd Obj.powerSession = 0xFFFFFFFF ∧ t.start.sessionNo = 0xFFFFFFFF ∧ t.start.stage = 1 ∧
      t.rd Obj.moduleState = 0) ∧
  (∀ (s : State),
    s.standby = false → s.power.ovp = false →
    ∃ t, exec (.standbyPowerGood false) s = .next t ∧
      t.standby = true ∧ t.now = 0 ∧ t.rd Obj.powerSession = 0 ∧ t.start.sessionNo = s.start.sessionNo ∧ t.start.stage = 1 ∧ t.rd Obj.moduleState = 1) ∧
  (∀ (s : State) (written : Bool),
    (s.standby = true ∨ s.power.ovp = true) →
    ∃ t, exec (.standbyPowerGood written) s = .next t ∧
      t = s) ∧
  (∀ (s : State) (v : Fin 64),
    (s.standby = false ∨ s.start.slot.isSome = true) →
    ∃ t, exec (.slotIdSample v) s = .next t ∧
      t = s) ∧
  (∀ (s : State) (v : Fin 64),
    s.standby = true → s.start.slot = none →
    (((s.start.slotSamples ++ [v.val]).reverse.take 3).length ≠ 3 ∨ ((s.start.slotSamples ++ [v.val]).reverse.take 3).all (· == v.val) = false) →
    ∃ t, exec (.slotIdSample v) s = .next t ∧
      t.start.slot = (if sec ≤ s.now - s.start.since then some 0 else none) ∧
      t.start.slotSamples = ((s.start.slotSamples ++ [v.val]).reverse.take 3).reverse ∧
      t.rd Obj.fldNode = (if sec ≤ s.now - s.start.since ∧ s.rd Obj.settingsState ≠ 1 then 1 else s.rd Obj.fldNode)) ∧
  (∀ (s : State) (v : Fin 64),
    s.standby = true → s.start.slot = none → ((s.start.slotSamples ++ [v.val]).reverse.take 3) = [v.val, v.val, v.val] →
    ∃ t, exec (.slotIdSample v) s = .next t ∧
      t.start.slot = some v.val ∧ (s.rd Obj.settingsState ≠ 1 → t.rd Obj.fldNode = 1 + v.val)) ∧
  (∀ (s : State) (bad : List Nat),
    s.rd Obj.moduleState = 0 → s.start.modReset = false → s.start.stage = 1 → s.start.trayReady = true →
    ∃ t, exec (.startupStageDone bad) s = .next t ∧
      t.start.stage = 2 ∧ t.start.since = s.now ∧ t.obj = s.obj) ∧
  (∀ (s : State) (bad : List Nat),
    s.rd Obj.moduleState = 0 → s.start.modReset = false → s.start.stage = 2 → s.start.flowLoss = false →
    ∃ t, exec (.startupStageDone bad) s = .next t ∧
      t.start.stage = 3 ∧ t.start.since = s.now ∧ t.obj = s.obj) ∧
  (∀ (s : State) (bad : List Nat),
    s.rd Obj.moduleState = 0 → s.start.modReset = false → s.start.stage = 3 →
    ∃ t, exec (.startupStageDone bad) s = .next t ∧
      t.start.stage = 4 ∧ t.start.since = s.now ∧ t.start.rails = true ∧ t.rd Obj.opInForce = 7 ∧ t.power.rail = s.trimmedMv 7) ∧
  (∀ (s : State) (bad : List Nat),
    s.rd Obj.moduleState = 0 → s.start.modReset = false → s.start.stage = 4 → s.fw.measured ≠ [] →
    ∃ t, exec (.startupStageDone bad) s = .next t ∧
      t.start.stage = 5 ∧ t.start.since = s.now ∧
      (∀ p : Fin 2, s.rd (Obj.linkState p) = 0 → (if p = 0 then s.start.perstA else s.start.perstB) = false → s.standby = true → t.rd (Obj.linkState p) = 1)) ∧
  (∀ (s : State) (bad : List Nat),
    s.rd Obj.moduleState = 0 → s.start.modReset = false → s.start.stage = 5 → s.start.domain = false → s.mapOk = true →
    ∃ t, exec (.startupStageDone bad) s = .next t ∧
      t.start.stage = 6 ∧ t.start.since = s.now ∧ t.rd Obj.opInForce = 7) ∧
  (∀ (s : State) (bad : List Nat),
    s.rd Obj.moduleState = 0 → s.start.modReset = false → s.start.stage = 5 → s.start.domain = true →
    ∃ t, exec (.startupStageDone bad) s = .next t ∧
      t.start.stage = 8 ∧ t.start.since = s.now ∧ t.rd Obj.opInForce = 7) ∧
  (∀ (s : State) (bad : List Nat),
    s.rd Obj.moduleState = 0 → s.start.modReset = false → s.start.stage = 5 → s.start.domain = false → s.mapOk = false →
    ∃ t, exec (.startupStageDone bad) s = .next t ∧
      t.rd Obj.moduleState = 1 ∧ t.start.stage = 5 ∧
      t.rd (Obj.occurrences (Ev.tileMapInfeasible / 256 - 1) (Ev.tileMapInfeasible % 256)) = (s.rd (Obj.occurrences (Ev.tileMapInfeasible / 256 - 1) (Ev.tileMapInfeasible % 256)) + 1) % 2 ^ 32) ∧
  (∀ (s : State) (bad : List Nat),
    s.rd Obj.moduleState = 0 → s.start.modReset = false → s.start.stage = 8 → bad ≠ [] → s.start.domain = true →
    ∃ t, exec (.startupStageDone bad) s = .next t ∧
      t.rd Obj.moduleState = 2 ∧ t.start.stage = 9 ∧ t.start.failed = none ∧ t.start.domain = false ∧
      (s.start.domain = true → t.fw.phase = 0 ∧ t.cmd.hold = false ∨ (s.start.flowLoss || decide (2 ≤ s.power.stops)) = true) ∧
      (s.start.flowLoss || decide (2 ≤ s.power.stops)) = true → t.power.hold = true ∧ (s.start.trayReady = false → t.power.trayPark = true)) ∧
  (∀ (s : State) (bad : List Nat),
    s.rd Obj.moduleState = 0 → s.start.modReset = false → s.start.stage = 8 → bad ≠ [] → s.start.domain = false → s.start.selfTested = false →
    ∃ t, exec (.startupStageDone bad) s = .next t ∧
      t.rd Obj.moduleState = 0 ∧ t.start.rails = false ∧ t.start.selfTested = true ∧ t.start.stage = (if s.start.trayReady = true then 2 else 1)) ∧
  (∀ (s : State) (bad : List Nat),
    s.rd Obj.moduleState = 0 → s.start.modReset = false → s.start.stage = 8 → bad ≠ [] → s.start.domain = false → s.start.selfTested = true →
    ∃ t, exec (.startupStageDone bad) s = .next t ∧
      t.rd Obj.moduleState = 1 ∧ t.start.rails = false ∧ t.start.retryAt = none ∧
      t.rd (Obj.occurrences (Ev.startupStageFault / 256 - 1) (Ev.startupStageFault % 256)) = (s.rd (Obj.occurrences (Ev.startupStageFault / 256 - 1) (Ev.startupStageFault % 256)) + 1) % 2 ^ 32) ∧
  (∀ (s : State) (bad : List Nat),
    (s.rd Obj.moduleState ≠ 0 ∨ s.start.modReset = true ∨ s.start.stage = 0 ∨ 9 ≤ s.start.stage ∨ (s.start.stage = 1 ∧ s.start.trayReady = false) ∨ (s.start.stage = 2 ∧ s.start.flowLoss = true) ∨ (s.start.stage = 4 ∧ s.fw.measured = [])) →
    ∃ t, exec (.startupStageDone bad) s = .next t ∧
      t = s) ∧
  (∀ (s : State) (bad : List Nat),
    s.rd Obj.moduleState = 0 → s.start.modReset = false → s.start.stage = 6 →
    ∃ t, exec (.startupStageDone bad) s = .next t ∧
      t.start.stage = 7 ∧ t.start.since = s.now ∧ t.obj = s.obj) ∧
  (∀ (s : State) (bad : List Nat),
    s.rd Obj.moduleState = 0 → s.start.modReset = false → s.start.stage = 7 →
    ∃ t, exec (.startupStageDone bad) s = .next t ∧
      t.start.stage = 8 ∧ t.start.since = s.now ∧ t.obj = s.obj) ∧
  (∀ (s : State) (bad : List Nat),
    s.rd Obj.moduleState = 0 → s.start.modReset = false → s.start.stage = 8 → bad = [] →
    ∃ t, exec (.startupStageDone bad) s = .next t ∧
      t.rd Obj.moduleState = 2 ∧ t.start.stage = 9 ∧ t.start.failed = none ∧ t.start.domain = false ∧
      (s.start.domain = true → t.fw.phase = 0 ∧ t.cmd.hold = false ∨ (s.start.flowLoss || decide (2 ≤ s.power.stops)) = true) ∧
      (s.start.flowLoss || decide (2 ≤ s.power.stops)) = true → t.power.hold = true ∧ (s.start.trayReady = false → t.power.trayPark = true)) ∧
  (∀ (s : State) (reason : Nat),
    s.rd Obj.moduleState = 0 → 1 ≤ s.start.stage → s.start.stage ≤ 8 → s.start.failed ≠ some s.start.stage →
    ∃ t, exec (.startupStageFault reason) s = .next t ∧
      t.rd Obj.moduleState = 0 ∧ t.start.rails = false ∧ t.start.failed = some s.start.stage ∧ t.start.retryAt = some (s.now + sec) ∧
      t.tile = { TileState.reset with parity := s.tile.parity } ∧
      t.rd (Obj.occurrences (Ev.startupStageFault / 256 - 1) (Ev.startupStageFault % 256)) = (s.rd (Obj.occurrences (Ev.startupStageFault / 256 - 1) (Ev.startupStageFault % 256)) + 1) % 2 ^ 32) ∧
  (∀ (s : State) (reason : Nat),
    s.rd Obj.moduleState = 0 → 1 ≤ s.start.stage → s.start.stage ≤ 8 → s.start.failed = some s.start.stage →
    ∃ t, exec (.startupStageFault reason) s = .next t ∧
      t.rd Obj.moduleState = 1 ∧ t.start.rails = false ∧ t.start.retryAt = none) ∧
  (∀ (s : State) (reason : Nat),
    (s.rd Obj.moduleState ≠ 0 ∨ s.start.stage = 0 ∨ 8 < s.start.stage) →
    ∃ t, exec (.startupStageFault reason) s = .next t ∧
      t = s) ∧
  (∀ (s : State),
    (s.start.retryAt = none ∨ s.now < s.start.retryAt.getD 0) →
    ∃ t, exec (.startupRetry) s = .next t ∧
      t = s) ∧
  (∀ (s : State) (f : Nat),
    s.start.retryAt = some f → f ≤ s.now →
    ∃ t, exec (.startupRetry) s = .next t ∧
      t.start.retryAt = none ∧ t.start.stage = (if s.start.trayReady then 2 else 1) ∧ t.rd Obj.moduleState = 0) ∧
  (∀ (s : State),
    ∃ t, exec (.trayReadyAssert) s = .next t ∧
      t.start.trayReady = true ∧ t.power.trayPark = false) ∧
  (∀ (s : State),
    s.rd Obj.moduleState = 2 → s.power.trayPark = false →
    ∃ t, exec (.trayReadyDeassert) s = .next t ∧
      t.start.trayReady = false ∧ t.power.trayPark = true ∧
      t.rd (Obj.occurrences (Ev.trayWithdrawn / 256 - 1) (Ev.trayWithdrawn % 256)) = (s.rd (Obj.occurrences (Ev.trayWithdrawn / 256 - 1) (Ev.trayWithdrawn % 256)) + 1) % 2 ^ 32) ∧
  (∀ (s : State),
    (s.rd Obj.moduleState ≠ 2 ∨ s.power.trayPark = true) →
    ∃ t, exec (.trayReadyDeassert) s = .next t ∧
      t = { s with start := { s.start with trayReady := false } }) ∧
  (∀ (s : State),
    s.standby = false →
    ∃ t, exec (.modReset) s = .next t ∧
      t = s) ∧
  (∀ (s : State),
    s.Form → s.standby = true →
    ∃ t, exec (.modReset) s = .next t ∧
      (∀ w : Fin 8, (t.win w).queue = [] ∧ (t.win w).e = (s.win w).e ∧ (t.win w).rnext = (s.win w).rnext ∧ (t.win w).rc = (s.win w).rc)) ∧
  (∀ (s : State),
    s.start.modReset = false →
    ∃ t, exec (.modResetRelease) s = .next t ∧
      t = s) ∧
  (∀ (s : State),
    s.standby = true →
    ∃ t, exec (.modReset) s = .next t ∧
      t.start.modReset = true ∧ t.start.rails = false ∧ t.start.stage = 0 ∧ t.standby = true ∧
      t.tile = { TileState.reset with parity := s.tile.parity } ∧ t.cmd.bar0 = [] ∧ t.cmd.stepNow = none ∧ t.now = s.now ∧
      t.store.zones = s.store.zones) ∧
  (∀ (s : State),
    s.start.modReset = true →
    ∃ t, exec (.modResetRelease) s = .next t ∧
      t.start.modReset = false ∧ t.start.stage = (if s.start.trayReady then 2 else 1) ∧ t.rd Obj.moduleState = 0)

/-- Host links go up and down with x_perst_n. Each clause concludes that exec answers a next state, under conditions on the state and the
operands alone. Completes: hostLinkDown, hostLinkUp, perstAssert, perstRelease. -/
def Obligations.HostLinksRiseAndFall : Prop :=
  (∀ (s : State) (p : HostPort),
    s.rd (Obj.linkState (portNo p - 1)) ≠ 0 →
    ∃ t, exec (.hostLinkDown p) s = .next t ∧
      t.rd (Obj.linkState (portNo p - 1)) = 0 ∧ t.rd (Obj.linkRate (portNo p - 1)) = 0 ∧ t.rd (Obj.linkWidth (portNo p - 1)) = 0 ∧
      t.spdm p = Spdm.reset ∧ t.ideKey p = none ∧
      (s.lenderOn (portNo p - 1) = true → t.rd (lenderKey (portNo p - 1)) = 4 ∧ t.lender (portNo p - 1) = Lender.none) ∧
      (s.rd (Obj.ideState (portNo p)) = 2 → t.rd (Obj.ideState (portNo p)) = 3) ∧
      (∀ v : Fin 16, t.cmd.msix.get MsixEnt.reset (16 * portNo p + v) = MsixEnt.reset)) ∧
  (∀ (s : State) (p : HostPort),
    s.rd (Obj.linkState (portNo p - 1)) = 0 →
    ∃ t, exec (.hostLinkDown p) s = .next t ∧
      t = s) ∧
  (∀ (s : State) (p : HostPort) (rate width : Nat),
    s.hostOn p = true →
    ∃ t, exec (.hostLinkUp p rate width) s = .next t ∧
      t.rd (Obj.linkState (portNo p - 1)) = 2 ∧ t.rd (Obj.linkRate (portNo p - 1)) = rate ∧ t.rd (Obj.linkWidth (portNo p - 1)) = width) ∧
  (∀ (s : State) (p : HostPort) (rate width : Nat),
    s.hostOn p = false →
    ∃ t, exec (.hostLinkUp p rate width) s = .next t ∧
      t = s) ∧
  (∀ (s : State),
    ∃ t, exec (.perstAssert .ha) s = .next t ∧
      t.start = { s.start with perstA := true } ∧ t.rd (Obj.linkState 0) = 0 ∧ t.rd (Obj.linkRate 0) = 0 ∧ t.rd (Obj.linkWidth 0) = 0 ∧
      t.spdm .ha = Spdm.reset ∧ t.ideKey .ha = none ∧ (s.lenderOn 0 = true → t.rd (lenderKey 0) = 4 ∧ t.lender 0 = Lender.none) ∧
      (s.rd (Obj.ideState (portNo .ha)) = 2 → t.rd (Obj.ideState (portNo .ha)) = 3) ∧
      (∀ v : Fin 16, t.cmd.msix.get MsixEnt.reset (16 * portNo .ha + v) = MsixEnt.reset) ∧ t.rd (Obj.linkState 1) = s.rd (Obj.linkState 1)) ∧
  (∀ (s : State),
    (s.standby = true ∧ (5 ≤ s.start.stage ∨ s.rd Obj.moduleState = 1) ∧ s.rd (Obj.linkState 0) = 0) →
    ∃ t, exec (.perstRelease .ha) s = .next t ∧
      t.start = { s.start with perstA := false } ∧ t.rd (Obj.linkState 0) = 1) ∧
  (∀ (s : State),
    (¬ (s.standby = true ∧ (5 ≤ s.start.stage ∨ s.rd Obj.moduleState = 1) ∧ s.rd (Obj.linkState 0) = 0)) →
    ∃ t, exec (.perstRelease .ha) s = .next t ∧
      t = { s with start := { s.start with perstA := false } }) ∧
  (∀ (s : State),
    ∃ t, exec (.perstAssert .hb) s = .next t ∧
      t.start = { s.start with perstB := true } ∧ t.rd (Obj.linkState 1) = 0 ∧ t.rd (Obj.linkRate 1) = 0 ∧ t.rd (Obj.linkWidth 1) = 0 ∧
      t.spdm .hb = Spdm.reset ∧ t.ideKey .hb = none ∧ (s.lenderOn 1 = true → t.rd (lenderKey 1) = 4 ∧ t.lender 1 = Lender.none) ∧
      (s.rd (Obj.ideState (portNo .hb)) = 2 → t.rd (Obj.ideState (portNo .hb)) = 3) ∧
      (∀ v : Fin 16, t.cmd.msix.get MsixEnt.reset (16 * portNo .hb + v) = MsixEnt.reset) ∧ t.rd (Obj.linkState 0) = s.rd (Obj.linkState 0)) ∧
  (∀ (s : State),
    (s.standby = true ∧ (5 ≤ s.start.stage ∨ s.rd Obj.moduleState = 1) ∧ s.rd (Obj.linkState 1) = 0) →
    ∃ t, exec (.perstRelease .hb) s = .next t ∧
      t.start = { s.start with perstB := false } ∧ t.rd (Obj.linkState 1) = 1) ∧
  (∀ (s : State),
    (¬ (s.standby = true ∧ (5 ≤ s.start.stage ∨ s.rd Obj.moduleState = 1) ∧ s.rd (Obj.linkState 1) = 0)) →
    ∃ t, exec (.perstRelease .hb) s = .next t ∧
      t = { s with start := { s.start with perstB := false } })

/-- Ingest records set profiles and the engine configuration and fetch samples into the sample cache. Each clause concludes that exec answers a
next state, under conditions on the state and the operands alone. Completes: profile, engineConfig, fetch. -/
def Obligations.ProfilesAndFetches : Prop :=
  (∀ (s : State) (w : Fin 8) (q : Nat) (e : QEntry),
    s.entry w q = some e → e.disp = true → e.unit = false → e.skip = false → Rec.kind e.raw = 8 → Rec.op e.raw = 2 →
    ∃ t, exec (.profile w q) s = .next t ∧
      t.store = s.store ∧ (t.entry w q).map QEntry.unit = some true ∧ t.obj = s.obj ∧ t.tier = s.tier) ∧
  (∀ (s : State) (w : Fin 8) (q : Nat) (e : QEntry),
    s.entry w q = some e → e.disp = true → e.unit = false → e.skip = false → Rec.kind e.raw = 8 → Rec.op e.raw = 3 →
    ∃ t, exec (.engineConfig w q) s = .next t ∧
      t.store = s.store ∧ (t.entry w q).map QEntry.unit = some true ∧ t.obj = s.obj ∧ t.tier = s.tier) ∧
  (∀ (s : State) (w : Fin 8) (q : Nat) (e : QEntry),
    s.entry w q = some e → e.disp = true → e.unit = false → e.skip = false → Rec.kind e.raw = 8 → Rec.op e.raw = 1 →
    (s.sampleAccess (recKey w q) (inOf e.raw) (sampleOf (inOf e.raw).position (inOf e.raw).n (s.rd Obj.runSeed)) false).2 = .ready →
    (s.sampleAccess (recKey w q) (inOf e.raw) (sampleOf (inOf e.raw).position (inOf e.raw).n (s.rd Obj.runSeed)) false).1.hitsBad (inOf e.raw).tableH (32 * (sampleOf (inOf e.raw).position (inOf e.raw).n (s.rd Obj.runSeed))) 32 = false →
    ((s.sampleAccess (recKey w q) (inOf e.raw) (sampleOf (inOf e.raw).position (inOf e.raw).n (s.rd Obj.runSeed)) false).1.access (recKey w q) 1 (inOf e.raw).srcH (pagesOf (inOf e.raw).srcOff (min (65536 * (((s.sampleAccess (recKey w q) (inOf e.raw) (sampleOf (inOf e.raw).position (inOf e.raw).n (s.rd Obj.runSeed)) false).1.region (inOf e.raw).srcH).map Region.size).getD 0 - (inOf e.raw).srcOff) ((s.sampleAccess (recKey w q) (inOf e.raw) (sampleOf (inOf e.raw).position (inOf e.raw).n (s.rd Obj.runSeed)) false).1.sampleBytes ((s.sampleAccess (recKey w q) (inOf e.raw) (sampleOf (inOf e.raw).position (inOf e.raw).n (s.rd Obj.runSeed)) false).1.sampleEntry (inOf e.raw).tableH (sampleOf (inOf e.raw).position (inOf e.raw).n (s.rd Obj.runSeed))) 0 0).length))).2 = .ready →
    (((s.sampleAccess (recKey w q) (inOf e.raw) (sampleOf (inOf e.raw).position (inOf e.raw).n (s.rd Obj.runSeed)) false).1.access (recKey w q) 1 (inOf e.raw).srcH (pagesOf (inOf e.raw).srcOff (min (65536 * (((s.sampleAccess (recKey w q) (inOf e.raw) (sampleOf (inOf e.raw).position (inOf e.raw).n (s.rd Obj.runSeed)) false).1.region (inOf e.raw).srcH).map Region.size).getD 0 - (inOf e.raw).srcOff) ((s.sampleAccess (recKey w q) (inOf e.raw) (sampleOf (inOf e.raw).position (inOf e.raw).n (s.rd Obj.runSeed)) false).1.sampleBytes ((s.sampleAccess (recKey w q) (inOf e.raw) (sampleOf (inOf e.raw).position (inOf e.raw).n (s.rd Obj.runSeed)) false).1.sampleEntry (inOf e.raw).tableH (sampleOf (inOf e.raw).position (inOf e.raw).n (s.rd Obj.runSeed))) 0 0).length))).1.readCause ((s.sampleAccess (recKey w q) (inOf e.raw) (sampleOf (inOf e.raw).position (inOf e.raw).n (s.rd Obj.runSeed)) false).1.sampleEntry (inOf e.raw).tableH (sampleOf (inOf e.raw).position (inOf e.raw).n (s.rd Obj.runSeed))) 0 ((s.sampleAccess (recKey w q) (inOf e.raw) (sampleOf (inOf e.raw).position (inOf e.raw).n (s.rd Obj.runSeed)) false).1.sampleBytes ((s.sampleAccess (recKey w q) (inOf e.raw) (sampleOf (inOf e.raw).position (inOf e.raw).n (s.rd Obj.runSeed)) false).1.sampleEntry (inOf e.raw).tableH (sampleOf (inOf e.raw).position (inOf e.raw).n (s.rd Obj.runSeed))) 0 0)) = 0 →
    ∃ t, exec (.fetch w q) s = .next t ∧
      t.tier.mem = memWrite s.tier.mem (regionAddr (inOf e.raw).srcH (inOf e.raw).srcOff) (((s.sampleAccess (recKey w q) (inOf e.raw) (sampleOf (inOf e.raw).position (inOf e.raw).n (s.rd Obj.runSeed)) false).1.sampleBytes ((s.sampleAccess (recKey w q) (inOf e.raw) (sampleOf (inOf e.raw).position (inOf e.raw).n (s.rd Obj.runSeed)) false).1.sampleEntry (inOf e.raw).tableH (sampleOf (inOf e.raw).position (inOf e.raw).n (s.rd Obj.runSeed))) 0 0).take (65536 * (((s.sampleAccess (recKey w q) (inOf e.raw) (sampleOf (inOf e.raw).position (inOf e.raw).n (s.rd Obj.runSeed)) false).1.region (inOf e.raw).srcH).map Region.size).getD 0 - (inOf e.raw).srcOff)) ∧
      t.store.zones = s.store.zones ∧ (t.entry w q).map QEntry.unit = some true) ∧
  (∀ (s : State) (w : Fin 8) (q : Nat) (e : QEntry),
    s.entry w q = some e → e.disp = true → e.unit = false → e.skip = false → Rec.kind e.raw = 8 → Rec.op e.raw = 1 →
    (s.sampleAccess (recKey w q) (inOf e.raw) (sampleOf (inOf e.raw).position (inOf e.raw).n (s.rd Obj.runSeed)) false).2 = .ready →
    (s.sampleAccess (recKey w q) (inOf e.raw) (sampleOf (inOf e.raw).position (inOf e.raw).n (s.rd Obj.runSeed)) false).1.hitsBad (inOf e.raw).tableH (32 * (sampleOf (inOf e.raw).position (inOf e.raw).n (s.rd Obj.runSeed))) 32 = false →
    ((s.sampleAccess (recKey w q) (inOf e.raw) (sampleOf (inOf e.raw).position (inOf e.raw).n (s.rd Obj.runSeed)) false).1.access (recKey w q) 1 (inOf e.raw).srcH (pagesOf (inOf e.raw).srcOff (min (65536 * (((s.sampleAccess (recKey w q) (inOf e.raw) (sampleOf (inOf e.raw).position (inOf e.raw).n (s.rd Obj.runSeed)) false).1.region (inOf e.raw).srcH).map Region.size).getD 0 - (inOf e.raw).srcOff) ((s.sampleAccess (recKey w q) (inOf e.raw) (sampleOf (inOf e.raw).position (inOf e.raw).n (s.rd Obj.runSeed)) false).1.sampleBytes ((s.sampleAccess (recKey w q) (inOf e.raw) (sampleOf (inOf e.raw).position (inOf e.raw).n (s.rd Obj.runSeed)) false).1.sampleEntry (inOf e.raw).tableH (sampleOf (inOf e.raw).position (inOf e.raw).n (s.rd Obj.runSeed))) 0 0).length))).2 = .ready →
    (((s.sampleAccess (recKey w q) (inOf e.raw) (sampleOf (inOf e.raw).position (inOf e.raw).n (s.rd Obj.runSeed)) false).1.access (recKey w q) 1 (inOf e.raw).srcH (pagesOf (inOf e.raw).srcOff (min (65536 * (((s.sampleAccess (recKey w q) (inOf e.raw) (sampleOf (inOf e.raw).position (inOf e.raw).n (s.rd Obj.runSeed)) false).1.region (inOf e.raw).srcH).map Region.size).getD 0 - (inOf e.raw).srcOff) ((s.sampleAccess (recKey w q) (inOf e.raw) (sampleOf (inOf e.raw).position (inOf e.raw).n (s.rd Obj.runSeed)) false).1.sampleBytes ((s.sampleAccess (recKey w q) (inOf e.raw) (sampleOf (inOf e.raw).position (inOf e.raw).n (s.rd Obj.runSeed)) false).1.sampleEntry (inOf e.raw).tableH (sampleOf (inOf e.raw).position (inOf e.raw).n (s.rd Obj.runSeed))) 0 0).length))).1.readCause ((s.sampleAccess (recKey w q) (inOf e.raw) (sampleOf (inOf e.raw).position (inOf e.raw).n (s.rd Obj.runSeed)) false).1.sampleEntry (inOf e.raw).tableH (sampleOf (inOf e.raw).position (inOf e.raw).n (s.rd Obj.runSeed))) 0 ((s.sampleAccess (recKey w q) (inOf e.raw) (sampleOf (inOf e.raw).position (inOf e.raw).n (s.rd Obj.runSeed)) false).1.sampleBytes ((s.sampleAccess (recKey w q) (inOf e.raw) (sampleOf (inOf e.raw).position (inOf e.raw).n (s.rd Obj.runSeed)) false).1.sampleEntry (inOf e.raw).tableH (sampleOf (inOf e.raw).position (inOf e.raw).n (s.rd Obj.runSeed))) 0 0)) ≠ 0 →
    ∃ t, exec (.fetch w q) s = .next t ∧
      t.rd Obj.lastErrorCause = (((s.sampleAccess (recKey w q) (inOf e.raw) (sampleOf (inOf e.raw).position (inOf e.raw).n (s.rd Obj.runSeed)) false).1.access (recKey w q) 1 (inOf e.raw).srcH (pagesOf (inOf e.raw).srcOff (min (65536 * (((s.sampleAccess (recKey w q) (inOf e.raw) (sampleOf (inOf e.raw).position (inOf e.raw).n (s.rd Obj.runSeed)) false).1.region (inOf e.raw).srcH).map Region.size).getD 0 - (inOf e.raw).srcOff) ((s.sampleAccess (recKey w q) (inOf e.raw) (sampleOf (inOf e.raw).position (inOf e.raw).n (s.rd Obj.runSeed)) false).1.sampleBytes ((s.sampleAccess (recKey w q) (inOf e.raw) (sampleOf (inOf e.raw).position (inOf e.raw).n (s.rd Obj.runSeed)) false).1.sampleEntry (inOf e.raw).tableH (sampleOf (inOf e.raw).position (inOf e.raw).n (s.rd Obj.runSeed))) 0 0).length))).1.readCause ((s.sampleAccess (recKey w q) (inOf e.raw) (sampleOf (inOf e.raw).position (inOf e.raw).n (s.rd Obj.runSeed)) false).1.sampleEntry (inOf e.raw).tableH (sampleOf (inOf e.raw).position (inOf e.raw).n (s.rd Obj.runSeed))) 0 ((s.sampleAccess (recKey w q) (inOf e.raw) (sampleOf (inOf e.raw).position (inOf e.raw).n (s.rd Obj.runSeed)) false).1.sampleBytes ((s.sampleAccess (recKey w q) (inOf e.raw) (sampleOf (inOf e.raw).position (inOf e.raw).n (s.rd Obj.runSeed)) false).1.sampleEntry (inOf e.raw).tableH (sampleOf (inOf e.raw).position (inOf e.raw).n (s.rd Obj.runSeed))) 0 0)) ∧
      t.rd Obj.inSampleErrors = min (s.rd Obj.inSampleErrors + 1) (2 ^ 32 - 1) ∧ t.tier.mem = s.tier.mem ∧ t.store.zones = s.store.zones ∧
      (t.entry w q).map QEntry.unit = some true) ∧
  (∀ (s : State) (w : Fin 8) (q : Nat) (e : QEntry),
    s.entry w q = some e → e.disp = true → e.unit = false → e.skip = false → Rec.kind e.raw = 8 → Rec.op e.raw = 1 →
    ((s.sampleAccess (recKey w q) (inOf e.raw) (sampleOf (inOf e.raw).position (inOf e.raw).n (s.rd Obj.runSeed)) false).2 = .waiting ∨ ((s.sampleAccess (recKey w q) (inOf e.raw) (sampleOf (inOf e.raw).position (inOf e.raw).n (s.rd Obj.runSeed)) false).1.hitsBad (inOf e.raw).tableH (32 * (sampleOf (inOf e.raw).position (inOf e.raw).n (s.rd Obj.runSeed))) 32 = false ∧ ((s.sampleAccess (recKey w q) (inOf e.raw) (sampleOf (inOf e.raw).position (inOf e.raw).n (s.rd Obj.runSeed)) false).1.access (recKey w q) 1 (inOf e.raw).srcH (pagesOf (inOf e.raw).srcOff (min (65536 * (((s.sampleAccess (recKey w q) (inOf e.raw) (sampleOf (inOf e.raw).position (inOf e.raw).n (s.rd Obj.runSeed)) false).1.region (inOf e.raw).srcH).map Region.size).getD 0 - (inOf e.raw).srcOff) ((s.sampleAccess (recKey w q) (inOf e.raw) (sampleOf (inOf e.raw).position (inOf e.raw).n (s.rd Obj.runSeed)) false).1.sampleBytes ((s.sampleAccess (recKey w q) (inOf e.raw) (sampleOf (inOf e.raw).position (inOf e.raw).n (s.rd Obj.runSeed)) false).1.sampleEntry (inOf e.raw).tableH (sampleOf (inOf e.raw).position (inOf e.raw).n (s.rd Obj.runSeed))) 0 0).length))).2 = .waiting)) →
    ∃ t, exec (.fetch w q) s = .next t ∧
      t.tier.mem = s.tier.mem ∧ t.store.zones = s.store.zones ∧ t.cmd = s.cmd) ∧
  (∀ (s : State) (w : Fin 8) (q : Nat) (e : QEntry),
    s.entry w q = some e → e.disp = true → e.unit = false → e.skip = false → Rec.kind e.raw = 8 → Rec.op e.raw = 1 →
    (s.sampleAccess (recKey w q) (inOf e.raw) (sampleOf (inOf e.raw).position (inOf e.raw).n (s.rd Obj.runSeed)) false).2 = .ready →
    (s.sampleAccess (recKey w q) (inOf e.raw) (sampleOf (inOf e.raw).position (inOf e.raw).n (s.rd Obj.runSeed)) false).1.hitsBad (inOf e.raw).tableH (32 * (sampleOf (inOf e.raw).position (inOf e.raw).n (s.rd Obj.runSeed))) 32 = true →
    ∃ t, exec (.fetch w q) s = .next t ∧
      t.tier.mem = s.tier.mem ∧ t.store.zones = s.store.zones ∧ (t.entry w q).map QEntry.unit = some true ∧
      t.rd Obj.inSampleErrors = s.rd Obj.inSampleErrors) ∧
  (∀ (s : State) (w : Fin 8) (q : Nat),
    (s.entry w q).all (fun e => !(e.disp && !e.unit && !e.skip && Rec.kind e.raw == 8 && Rec.op e.raw == 2)) = true →
    ∃ t, exec (.profile w q) s = .next t ∧
      t = s) ∧
  (∀ (s : State) (w : Fin 8) (q : Nat),
    (s.entry w q).all (fun e => !(e.disp && !e.unit && !e.skip && Rec.kind e.raw == 8 && Rec.op e.raw == 3)) = true →
    ∃ t, exec (.engineConfig w q) s = .next t ∧
      t = s) ∧
  (∀ (s : State) (w : Fin 8) (q : Nat),
    (s.entry w q).all (fun e => !(e.disp && !e.unit && !e.skip && Rec.kind e.raw == 8 && Rec.op e.raw == 1)) = true →
    ∃ t, exec (.fetch w q) s = .next t ∧
      t = s)

/-- Samples run on decode engines from their start to their patches. Each clause concludes that exec answers a next state, under conditions on
the state and the operands alone. Completes: sample, sampleComplete, decoderStall. -/
def Obligations.SamplesDecodeOnEngines : Prop :=
  (∀ (s : State) (w : Fin 8) (q k : Nat) (e : QEntry),
    s.entry w q = some e → e.disp = true → e.unit = false → e.skip = false → Rec.kind e.raw = 8 → Rec.op e.raw = 0 →
    s.store.samples.find (recKey w q) = none → s.decodersOn = true →
    (s.sampleAccess (recKey w q) (inOf e.raw) (sampleOf (inOf e.raw).position (inOf e.raw).n (s.rd Obj.runSeed)) true).2 = .ready →
    (s.sampleAccess (recKey w q) (inOf e.raw) (sampleOf (inOf e.raw).position (inOf e.raw).n (s.rd Obj.runSeed)) true).1.hitsBad (inOf e.raw).tableH (32 * (sampleOf (inOf e.raw).position (inOf e.raw).n (s.rd Obj.runSeed))) 32 = false →
    (s.sampleAccess (recKey w q) (inOf e.raw) (sampleOf (inOf e.raw).position (inOf e.raw).n (s.rd Obj.runSeed)) true).1.freeEngine = some k →
    ((s.sampleAccess (recKey w q) (inOf e.raw) (sampleOf (inOf e.raw).position (inOf e.raw).n (s.rd Obj.runSeed)) true).1.writable (recKey w q) ((s.sampleAccess (recKey w q) (inOf e.raw) (sampleOf (inOf e.raw).position (inOf e.raw).n (s.rd Obj.runSeed)) true).1.enginePages k)).2 = true →
    ∃ t, exec (.sample w q) s = .next t ∧
      t.rd (Obj.decState (k + 1)) = 1 ∧
      t.store.samples.find (recKey w q) = some { profile := (s.store.fixed.get (inOf e.raw).pf (recKey w q)), index := (sampleOf (inOf e.raw).position (inOf e.raw).n (s.rd Obj.runSeed)), engine := k, progress := s.now, formed := false, cause := (if (((s.sampleAccess (recKey w q) (inOf e.raw) (sampleOf (inOf e.raw).position (inOf e.raw).n (s.rd Obj.runSeed)) true).1.writable (recKey w q) ((s.sampleAccess (recKey w q) (inOf e.raw) (sampleOf (inOf e.raw).position (inOf e.raw).n (s.rd Obj.runSeed)) true).1.enginePages k)).1.readCause (((s.sampleAccess (recKey w q) (inOf e.raw) (sampleOf (inOf e.raw).position (inOf e.raw).n (s.rd Obj.runSeed)) true).1.writable (recKey w q) ((s.sampleAccess (recKey w q) (inOf e.raw) (sampleOf (inOf e.raw).position (inOf e.raw).n (s.rd Obj.runSeed)) true).1.enginePages k)).1.sampleEntry (inOf e.raw).tableH (sampleOf (inOf e.raw).position (inOf e.raw).n (s.rd Obj.runSeed))) (inOf e.raw).srcH (((s.sampleAccess (recKey w q) (inOf e.raw) (sampleOf (inOf e.raw).position (inOf e.raw).n (s.rd Obj.runSeed)) true).1.writable (recKey w q) ((s.sampleAccess (recKey w q) (inOf e.raw) (sampleOf (inOf e.raw).position (inOf e.raw).n (s.rd Obj.runSeed)) true).1.enginePages k)).1.sampleBytes (((s.sampleAccess (recKey w q) (inOf e.raw) (sampleOf (inOf e.raw).position (inOf e.raw).n (s.rd Obj.runSeed)) true).1.writable (recKey w q) ((s.sampleAccess (recKey w q) (inOf e.raw) (sampleOf (inOf e.raw).position (inOf e.raw).n (s.rd Obj.runSeed)) true).1.enginePages k)).1.sampleEntry (inOf e.raw).tableH (sampleOf (inOf e.raw).position (inOf e.raw).n (s.rd Obj.runSeed))) (inOf e.raw).srcH (inOf e.raw).srcOff)) ≠ 0 then (((s.sampleAccess (recKey w q) (inOf e.raw) (sampleOf (inOf e.raw).position (inOf e.raw).n (s.rd Obj.runSeed)) true).1.writable (recKey w q) ((s.sampleAccess (recKey w q) (inOf e.raw) (sampleOf (inOf e.raw).position (inOf e.raw).n (s.rd Obj.runSeed)) true).1.enginePages k)).1.readCause (((s.sampleAccess (recKey w q) (inOf e.raw) (sampleOf (inOf e.raw).position (inOf e.raw).n (s.rd Obj.runSeed)) true).1.writable (recKey w q) ((s.sampleAccess (recKey w q) (inOf e.raw) (sampleOf (inOf e.raw).position (inOf e.raw).n (s.rd Obj.runSeed)) true).1.enginePages k)).1.sampleEntry (inOf e.raw).tableH (sampleOf (inOf e.raw).position (inOf e.raw).n (s.rd Obj.runSeed))) (inOf e.raw).srcH (((s.sampleAccess (recKey w q) (inOf e.raw) (sampleOf (inOf e.raw).position (inOf e.raw).n (s.rd Obj.runSeed)) true).1.writable (recKey w q) ((s.sampleAccess (recKey w q) (inOf e.raw) (sampleOf (inOf e.raw).position (inOf e.raw).n (s.rd Obj.runSeed)) true).1.enginePages k)).1.sampleBytes (((s.sampleAccess (recKey w q) (inOf e.raw) (sampleOf (inOf e.raw).position (inOf e.raw).n (s.rd Obj.runSeed)) true).1.writable (recKey w q) ((s.sampleAccess (recKey w q) (inOf e.raw) (sampleOf (inOf e.raw).position (inOf e.raw).n (s.rd Obj.runSeed)) true).1.enginePages k)).1.sampleEntry (inOf e.raw).tableH (sampleOf (inOf e.raw).position (inOf e.raw).n (s.rd Obj.runSeed))) (inOf e.raw).srcH (inOf e.raw).srcOff)) else decodeCause (((s.sampleAccess (recKey w q) (inOf e.raw) (sampleOf (inOf e.raw).position (inOf e.raw).n (s.rd Obj.runSeed)) true).1.writable (recKey w q) ((s.sampleAccess (recKey w q) (inOf e.raw) (sampleOf (inOf e.raw).position (inOf e.raw).n (s.rd Obj.runSeed)) true).1.enginePages k)).1.sampleEntry (inOf e.raw).tableH (sampleOf (inOf e.raw).position (inOf e.raw).n (s.rd Obj.runSeed))) (s.store.fixed.get (inOf e.raw).pf (recKey w q)) ((s.store.engineCfg.map Prod.snd).getD 0) (((s.sampleAccess (recKey w q) (inOf e.raw) (sampleOf (inOf e.raw).position (inOf e.raw).n (s.rd Obj.runSeed)) true).1.writable (recKey w q) ((s.sampleAccess (recKey w q) (inOf e.raw) (sampleOf (inOf e.raw).position (inOf e.raw).n (s.rd Obj.runSeed)) true).1.enginePages k)).1.sampleBytes (((s.sampleAccess (recKey w q) (inOf e.raw) (sampleOf (inOf e.raw).position (inOf e.raw).n (s.rd Obj.runSeed)) true).1.writable (recKey w q) ((s.sampleAccess (recKey w q) (inOf e.raw) (sampleOf (inOf e.raw).position (inOf e.raw).n (s.rd Obj.runSeed)) true).1.enginePages k)).1.sampleEntry (inOf e.raw).tableH (sampleOf (inOf e.raw).position (inOf e.raw).n (s.rd Obj.runSeed))) (inOf e.raw).srcH (inOf e.raw).srcOff)) } ∧
      (s.store.engineCfg = none → t.tier.mem = s.tier.mem) ∧
      (∀ h n a, s.store.engineCfg = some (h, n) → a < regionAddr h (65536 * n * k) ∨ regionAddr h (65536 * n * (k + 1)) ≤ a → t.tier.mem.get 0 a = s.tier.mem.get 0 a) ∧
      t.tile = s.tile) ∧
  (∀ (s : State) (w : Fin 8) (q : Nat) (e : QEntry),
    s.entry w q = some e → e.disp = true → e.unit = false → e.skip = false → Rec.kind e.raw = 8 → Rec.op e.raw = 0 →
    s.store.samples.find (recKey w q) = none →
    (s.decodersOn = false ∨ (s.sampleAccess (recKey w q) (inOf e.raw) (sampleOf (inOf e.raw).position (inOf e.raw).n (s.rd Obj.runSeed)) true).2 = .waiting ∨ ((s.sampleAccess (recKey w q) (inOf e.raw) (sampleOf (inOf e.raw).position (inOf e.raw).n (s.rd Obj.runSeed)) true).1.hitsBad (inOf e.raw).tableH (32 * (sampleOf (inOf e.raw).position (inOf e.raw).n (s.rd Obj.runSeed))) 32 = false ∧ ((s.sampleAccess (recKey w q) (inOf e.raw) (sampleOf (inOf e.raw).position (inOf e.raw).n (s.rd Obj.runSeed)) true).1.freeEngine).all (fun k => !((s.sampleAccess (recKey w q) (inOf e.raw) (sampleOf (inOf e.raw).position (inOf e.raw).n (s.rd Obj.runSeed)) true).1.writable (recKey w q) ((s.sampleAccess (recKey w q) (inOf e.raw) (sampleOf (inOf e.raw).position (inOf e.raw).n (s.rd Obj.runSeed)) true).1.enginePages k)).2) = true)) →
    ∃ t, exec (.sample w q) s = .next t ∧
      t.tier.mem = s.tier.mem ∧ t.store.zones = s.store.zones ∧ t.cmd = s.cmd ∧ t.store.samples = s.store.samples ∧
      t.rd (Obj.decState 1) = s.rd (Obj.decState 1)) ∧
  (∀ (s : State) (w : Fin 8) (q : Nat) (e : QEntry),
    s.entry w q = some e → e.disp = true → e.unit = false → e.skip = false → Rec.kind e.raw = 8 → Rec.op e.raw = 0 →
    s.store.samples.find (recKey w q) = none → s.decodersOn = true →
    (s.sampleAccess (recKey w q) (inOf e.raw) (sampleOf (inOf e.raw).position (inOf e.raw).n (s.rd Obj.runSeed)) true).2 = .ready →
    (s.sampleAccess (recKey w q) (inOf e.raw) (sampleOf (inOf e.raw).position (inOf e.raw).n (s.rd Obj.runSeed)) true).1.hitsBad (inOf e.raw).tableH (32 * (sampleOf (inOf e.raw).position (inOf e.raw).n (s.rd Obj.runSeed))) 32 = true →
    ∃ t, exec (.sample w q) s = .next t ∧
      t.tier.mem = s.tier.mem ∧ t.store.samples = s.store.samples ∧ (t.entry w q).map QEntry.unit = some true) ∧
  (∀ (s : State) (w : Fin 8) (q : Nat) (e : QEntry) (j : SampleJob),
    s.entry w q = some e → e.disp = true → e.unit = false → e.skip = false → Rec.kind e.raw = 8 → Rec.op e.raw = 0 →
    s.store.samples.find (recKey w q) = some j →
    ∃ t, exec (.sample w q) s = .next t ∧
      t.store.samples.find (recKey w q) = some { j with progress := s.now } ∧ t.obj = s.obj ∧ t.tier = s.tier) ∧
  (∀ (s : State) (w : Fin 8) (q : Nat) (e : QEntry) (j : SampleJob),
    s.entry w q = some e → e.disp = true → e.unit = false → e.skip = false → Rec.kind e.raw = 8 → Rec.op e.raw = 0 →
    s.store.samples.find (recKey w q) = some j → j.formed = false → j.engine < 16 → (inOf e.raw).dest = 0 →
    (s.access (recKey w q) (inOf e.raw).gated (inOf e.raw).outH (pagesOf (inOf e.raw).outOff (j.profile.bytes j.profile.tokens))).2 = .ready →
    (j.cause = 0 ∨ (inOf e.raw).errPol ≠ 2) →
    ∃ t, exec (.sampleComplete w q) s = .next t ∧
      t.rd (Obj.decState (j.engine + 1)) = 0 ∧ t.store.samples.find (recKey w q) = some { j with formed := true } ∧
      t.rd Obj.inSamples = (s.rd Obj.inSamples + 1) % 2 ^ 64 ∧ (t.entry w q).map QEntry.unit = some true ∧ t.tile.scratch = s.tile.scratch ∧
      (∀ a, a < regionAddr (inOf e.raw).outH (inOf e.raw).outOff ∨ regionAddr (inOf e.raw).outH ((inOf e.raw).outOff + j.profile.bytes j.profile.tokens) ≤ a → t.tier.mem.get 0 a = s.tier.mem.get 0 a) ∧
      (j.cause ≠ 0 → t.rd Obj.lastErrorCause = j.cause ∧ t.rd Obj.inSampleErrors = min (s.rd Obj.inSampleErrors + 1) (2 ^ 32 - 1)) ∧
      t.rd Obj.inTokens = (s.rd Obj.inTokens + j.profile.tokens) % 2 ^ 64) ∧
  (∀ (s : State) (w : Fin 8) (q : Nat) (e : QEntry) (j : SampleJob),
    s.entry w q = some e → e.disp = true → e.unit = false → e.skip = false → Rec.kind e.raw = 8 → Rec.op e.raw = 0 →
    s.store.samples.find (recKey w q) = some j → j.formed = false → j.engine < 16 → (inOf e.raw).dest = 0 →
    (s.access (recKey w q) (inOf e.raw).gated (inOf e.raw).outH (pagesOf (inOf e.raw).outOff (j.profile.bytes j.profile.tokens))).2 = .waiting →
    ∃ t, exec (.sampleComplete w q) s = .next t ∧
      t.tier.mem = s.tier.mem ∧ t.store.zones = s.store.zones ∧ t.cmd = s.cmd ∧ t.store.samples = s.store.samples ∧
      t.rd (Obj.decState (j.engine + 1)) = s.rd (Obj.decState (j.engine + 1))) ∧
  (∀ (s : State) (w : Fin 8) (q : Nat) (e : QEntry),
    s.entry w q = some e → e.disp = true → e.unit = false → e.skip = false → Rec.kind e.raw = 8 → Rec.op e.raw = 0 →
    (s.store.samples.find (recKey w q)).all SampleJob.formed = true →
    ∃ t, exec (.sampleComplete w q) s = .next t ∧
      t.tier.mem = s.tier.mem ∧ t.store.zones = s.store.zones ∧ t.cmd = s.cmd ∧ t.store.samples = s.store.samples ∧
      t.rd Obj.inSamples = s.rd Obj.inSamples) ∧
  (∀ (s : State) (w : Fin 8) (q : Nat) (e : QEntry) (j : SampleJob),
    s.entry w q = some e → e.disp = true → e.unit = false → e.skip = false → Rec.kind e.raw = 8 → Rec.op e.raw = 0 →
    s.store.samples.find (recKey w q) = some j → j.formed = false → j.engine < 16 → (inOf e.raw).dest ≠ 0 → (j.cause = 0 ∨ (inOf e.raw).errPol ≠ 2) →
    ∃ t, exec (.sampleComplete w q) s = .next t ∧
      t.rd (Obj.decState (j.engine + 1)) = 0 ∧ t.store.samples.find (recKey w q) = some { j with formed := true } ∧
      t.rd Obj.inSamples = (s.rd Obj.inSamples + 1) % 2 ^ 64 ∧ (t.entry w q).map QEntry.unit = some true ∧ t.tier.mem = s.tier.mem ∧
      (∀ a, a < 2 ^ 21 * (inOf e.raw).tf ∨ 2 ^ 21 * ((inOf e.raw).tl + 1) ≤ a → (inOf e.raw).outOff + j.profile.bytes (j.profile.tokens / ((inOf e.raw).tl - (inOf e.raw).tf + 1)) ≤ 2 ^ 21 → t.tile.scratch.get 0 a = s.tile.scratch.get 0 a) ∧
      (j.cause ≠ 0 → t.rd Obj.lastErrorCause = j.cause ∧ t.rd Obj.inSampleErrors = min (s.rd Obj.inSampleErrors + 1) (2 ^ 32 - 1)) ∧
      t.rd Obj.inTokens = (s.rd Obj.inTokens + j.profile.tokens) % 2 ^ 64) ∧
  (∀ (s : State) (w : Fin 8) (q : Nat) (e : QEntry) (j : SampleJob),
    s.entry w q = some e → e.disp = true → e.unit = false → e.skip = false → Rec.kind e.raw = 8 → Rec.op e.raw = 0 →
    s.store.samples.find (recKey w q) = some j → j.formed = false → j.engine < 16 →
    ((inOf e.raw).dest = 0 → (s.access (recKey w q) (inOf e.raw).gated (inOf e.raw).outH (pagesOf (inOf e.raw).outOff (j.profile.bytes j.profile.tokens))).2 = .ready) →
    j.cause ≠ 0 → (inOf e.raw).errPol = 2 →
    ∃ t, exec (.sampleComplete w q) s = .next t ∧
      t.rd (Obj.decState (j.engine + 1)) = 0 ∧ t.store.samples.find (recKey w q) = some { j with formed := true } ∧
      t.rd Obj.inSamples = (s.rd Obj.inSamples + 1) % 2 ^ 64 ∧ (t.entry w q).map QEntry.unit = some true ∧ (t.win w).state = .halted ∧
      (t.win w).haltCause = 0x2100 + j.cause ∧ t.rd Obj.lastErrorCause = j.cause ∧
      t.rd Obj.inSampleErrors = min (s.rd Obj.inSampleErrors + 1) (2 ^ 32 - 1) ∧ t.tile = s.tile ∧ t.tier.mem = s.tier.mem) ∧
  (∀ (s : State) (k : Fin 16) (key : Nat) (j : SampleJob),
    (s.store.samples.find? fun x => x.2.engine == k.val && !x.2.formed) = some (key, j) → 100 * ms ≤ s.now - j.progress →
    ∃ t, exec (.decoderStall k) s = .next t ∧
      t.rd Obj.inEngineResets = min (s.rd Obj.inEngineResets + 1) (2 ^ 32 - 1) ∧
      t.store.engines.get Engine.reset k = { resets := (s.store.engines.get Engine.reset k).resets + 1, failed := decide (3 ≤ (s.store.engines.get Engine.reset k).resets + 1) } ∧
      (3 ≤ (s.store.engines.get Engine.reset k).resets + 1 → t.rd (Obj.decState (k + 1)) = 2) ∧
      (∃ u : State, u.store.samples = s.store.samples.erase key ∧ u.rd (Obj.decState (k + 1)) = (if 3 ≤ (s.store.engines.get Engine.reset k).resets + 1 then 2 else 0) ∧ u.tier = s.tier ∧ t = ((u.entry (key / 2 ^ 32) (key % 2 ^ 32)).map fun e => u.startSample (key / 2 ^ 32) e).getD u)) ∧
  (∀ (s : State) (k : Fin 16),
    (s.store.samples.find? fun x => x.2.engine == k.val && !x.2.formed).all (fun x => decide (s.now - x.2.progress < 100 * ms)) = true →
    ∃ t, exec (.decoderStall k) s = .next t ∧
      t = s) ∧
  (∀ (s : State) (w : Fin 8) (q : Nat),
    (s.entry w q).all (fun e => !(e.disp && !e.unit && !e.skip && Rec.kind e.raw == 8 && Rec.op e.raw == 0)) = true →
    ∃ t, exec (.sample w q) s = .next t ∧
      t = s) ∧
  (∀ (s : State) (w : Fin 8) (q : Nat),
    (s.entry w q).all (fun e => !(e.disp && !e.unit && !e.skip && Rec.kind e.raw == 8 && Rec.op e.raw == 0)) = true →
    ∃ t, exec (.sampleComplete w q) s = .next t ∧
      t = s)

/-- Appends go to a zone row by row and advance its write pointer; a zone reset empties the zone. Each clause concludes that exec answers a next
state, under conditions on the state and the operands alone. Completes: append, stripeRowProgrammed, appendDone, szReset. -/
def Obligations.AppendsAndZones : Prop :=
  (∀ (s : State) (w : Fin 8) (q : Nat) (data : Bytes) (e : QEntry),
    s.entry w q = some e → e.disp = true → e.unit = false → e.skip = false → Rec.kind e.raw = 8 → Rec.op e.raw = 4 →
    s.store.appends.find (recKey w q) = none → (s.zoneAppends (inOf e.raw).zone).any (fun p => decide (p.2.order < e.order)) = false →
    ((s.win w).owner.map fun p => s.linkUp p) = some true → data.length = 65536 * Rec.w e.raw 2 63 32 →
    ∃ t, exec (.append w q data) s = .next t ∧
      t.store.appends.find (recKey w q) = some { zone := (inOf e.raw).zone, base := s.rd (Obj.szWp (inOf e.raw).zone), rows := (inOf e.raw).rows, done := 0, data := data } ∧
      t.rd Obj.stHostBytes = (s.rd Obj.stHostBytes + data.length) % 2 ^ 64 ∧ t.store.zones = s.store.zones ∧ t.tier = s.tier ∧ t.cmd = s.cmd) ∧
  (∀ (s : State) (w : Fin 8) (q : Nat) (data : Bytes) (e : QEntry),
    s.entry w q = some e → e.disp = true → e.unit = false → e.skip = false → Rec.kind e.raw = 8 → Rec.op e.raw = 4 →
    (¬ (s.store.appends.find (recKey w q) = none ∧ (s.zoneAppends (inOf e.raw).zone).any (fun p => decide (p.2.order < e.order)) = false ∧ ((s.win w).owner.map fun p => s.linkUp p) = some true ∧ data.length = 65536 * Rec.w e.raw 2 63 32)) →
    ∃ t, exec (.append w q data) s = .next t ∧
      t = s) ∧
  (∀ (s : State) (z : Fin 4) (pages : List (Nat × Nat)) (key : Nat) (j : AppendJob),
    (s.store.appends.find? fun a => a.2.zone == z.val && decide (a.2.done < a.2.rows)) = some (key, j) →
    ∃ t, exec (.stripeRowProgrammed (some z) pages) s = .next t ∧
      t.store.appends.find key = some { j with done := j.done + 1 } ∧ t.rd Obj.stProgBytes = (s.rd Obj.stProgBytes + rowProgBytes) % 2 ^ 64 ∧
      t.store.zones = s.store.zones ∧ t.rd (Obj.szWp z) = s.rd (Obj.szWp z) ∧ t.tier = s.tier) ∧
  (∀ (s : State) (z : Fin 4) (pages : List (Nat × Nat)),
    (s.store.appends.find? fun a => a.2.zone == z.val && decide (a.2.done < a.2.rows)) = none →
    ∃ t, exec (.stripeRowProgrammed (some z) pages) s = .next t ∧
      t = s) ∧
  (∀ (s : State) (pages : List (Nat × Nat)) (h p : Nat) (r : Region) (m : PageMove),
    pages.length ≤ 31 → (h, p) ∈ pages → s.region h = some r → (r.page p).move = some m → m.dst = .t2 → s.rowRoom 1 = true →
    ∃ t, exec (.stripeRowProgrammed none pages) s = .next t ∧
      t.store.acked.contains (lentPage h p) = true ∧ (t.store.pageMap.find (lentPage h p)).isSome = true ∧
      t.rd Obj.stProgBytes = (s.rd Obj.stProgBytes + rowProgBytes) % 2 ^ 64 ∧ t.store.zones = s.store.zones ∧ t.tier = s.tier) ∧
  (∀ (s : State) (pages : List (Nat × Nat)),
    (31 < pages.length ∨ s.rowRoom 1 = false ∨ pages.any (fun x => (s.region x.1).any fun r => (r.page x.2).move.any fun m => m.dst == .t2) = false) →
    ∃ t, exec (.stripeRowProgrammed none pages) s = .next t ∧
      t = s) ∧
  (∀ (s : State) (w : Fin 8) (q : Nat) (e : QEntry) (j : AppendJob),
    s.entry w q = some e → e.disp = true → e.unit = false → e.skip = false → Rec.kind e.raw = 8 → Rec.op e.raw = 4 →
    s.store.appends.find (recKey w q) = some j → j.rows ≤ j.done → j.data.length ≤ j.rows * rowBytes →
    ∃ t, exec (.appendDone w q) s = .next t ∧
      t.rd (Obj.szWp j.zone) = j.base + j.rows * rowBytes ∧ memRead t.store.zones (zoneAddr j.zone j.base) j.data.length = j.data ∧
      (∀ i, j.data.length ≤ i → i < j.rows * rowBytes → t.store.zones.get 0 (zoneAddr j.zone j.base + i) = 0) ∧
      (∀ a, a < zoneAddr j.zone j.base ∨ zoneAddr j.zone j.base + j.rows * rowBytes ≤ a → t.store.zones.get 0 a = s.store.zones.get 0 a) ∧
      (s.zoneSize j.zone ≤ j.base + j.rows * rowBytes → s.rd (Obj.szState j.zone) ≠ 3 → t.rd (Obj.szState j.zone) = 2) ∧
      t.store.appends = s.store.appends.erase (recKey w q) ∧ (t.entry w q).map QEntry.unit = some true ∧ t.tier = s.tier) ∧
  (∀ (s : State) (w : Fin 8) (q : Nat) (e : QEntry),
    s.entry w q = some e → e.disp = true → e.unit = false → e.skip = false → Rec.kind e.raw = 8 → Rec.op e.raw = 4 →
    (s.store.appends.find (recKey w q)).all (fun j => decide (j.done < j.rows)) = true →
    ∃ t, exec (.appendDone w q) s = .next t ∧
      t = s) ∧
  (∀ (s : State) (src : Src) (z : Fin 4) (arg : Nat),
    arg = 1 → s.fldDenied src (Obj.szReset z) = false → s.zoneBusy z = false →
    ∃ t, exec (.szReset src z arg) s = .next t ∧
      t.out.head? = some (.status src (Obj.szReset z) 0) ∧ t.rd (Obj.szWp z) = 0 ∧
      t.rd (Obj.szState z) = (if s.rd (Obj.szStripeBlocks z) = 0 then 0 else 1) ∧ (∀ i, i < 2 ^ 46 → t.store.zones.get 0 (zoneAddr z i) = 0) ∧
      (∀ a, a < zoneAddr z 0 ∨ zoneAddr z (2 ^ 46) ≤ a → t.store.zones.get 0 a = s.store.zones.get 0 a) ∧ t.tier = s.tier ∧ t.tile = s.tile) ∧
  (∀ (s : State) (src : Src) (z : Fin 4) (arg : Nat),
    (s.fldDenied src (Obj.szReset z) = true ∨ arg ≠ 1 ∨ s.zoneBusy z = true) →
    ∃ t, exec (.szReset src z arg) s = .next t ∧
      t.out = .status src (Obj.szReset z) (if s.fldDenied src (Obj.szReset z) = true then 0x0B else if arg ≠ 1 then 0x05 else 0x09) :: s.out ∧
      t.rd Obj.dictRejected = (s.rd Obj.dictRejected + 1) % 2 ^ 64 ∧ t.store = s.store ∧ t.tier = s.tier ∧ t.tile = s.tile) ∧
  (∀ (s : State) (w : Fin 8) (q : Nat) (data : Bytes),
    (s.entry w q).all (fun e => !(e.disp && !e.unit && !e.skip && Rec.kind e.raw == 8 && Rec.op e.raw == 4)) = true →
    ∃ t, exec (.append w q data) s = .next t ∧
      t = s) ∧
  (∀ (s : State) (w : Fin 8) (q : Nat),
    (s.entry w q).all (fun e => !(e.disp && !e.unit && !e.skip && Rec.kind e.raw == 8 && Rec.op e.raw == 4)) = true →
    ∃ t, exec (.appendDone w q) s = .next t ∧
      t = s)

/-- A drain moves every page of an image to the store and ends in a catalogue entry. Each clause concludes that exec answers a next state, under
conditions on the state and the operands alone. Completes: drain, drainComplete. -/
def Obligations.CheckpointsDrain : Prop :=
  (∀ (s : State) (w : Fin 8) (q : Nat) (e : QEntry) (r : Region) (i k : Nat),
    s.entry w q = some e → e.disp = true → e.unit = false → e.skip = false → Rec.kind e.raw = 8 → Rec.op e.raw = 5 →
    s.store.drains.find (recKey w q) = none → s.region (inOf e.raw).imgH = some r → r.nextMove 2 0 r.size 0 = some i → (r.page i).move = none →
    (s.beginDrain (recKey w q) (inOf e.raw).imgH).placeIn 2 = some .t2 → ckptEntry (fun k => s.rd (Obj.ckptState k) == 0) = some k →
    ∃ t, exec (.drain w q) s = .next t ∧
      t.store.drains.find (recKey w q) = some (inOf e.raw).imgH ∧ t.rd (Obj.ckptState k) = 1 ∧ t.rd (Obj.ckptHandle k) = (inOf e.raw).imgH ∧
      (∃ r₂, t.region (inOf e.raw).imgH = some r₂ ∧ (r₂.page i).move.map PageMove.dst = some .t2 ∧ (r₂.page i).move.map PageMove.why = some (.record (recKey w q))) ∧
      t.tier.mem = s.tier.mem) ∧
  (∀ (s : State) (w : Fin 8) (q : Nat) (e : QEntry) (r : Region) (i : Nat),
    s.entry w q = some e → e.disp = true → e.unit = false → e.skip = false → Rec.kind e.raw = 8 → Rec.op e.raw = 5 →
    s.store.drains.find (recKey w q) = none → s.region (inOf e.raw).imgH = some r → r.nextMove 2 0 r.size 0 = some i → (r.page i).move = none →
    (s.beginDrain (recKey w q) (inOf e.raw).imgH).placeIn 2 = none →
    ∃ t, exec (.drain w q) s = .next t ∧
      (inOf e.raw).imgH ∈ t.store.partDrains ∧
      t.rd (Obj.occurrences (Ev.ckptFault / 256 - 1) (Ev.ckptFault % 256)) = (s.rd (Obj.occurrences (Ev.ckptFault / 256 - 1) (Ev.ckptFault % 256)) + 1) % 2 ^ 32 ∧
      (t.entry w q).map QEntry.unit = some true ∧ t.tier.mem = s.tier.mem ∧ t.region (inOf e.raw).imgH = some r) ∧
  (∀ (s : State) (w : Fin 8) (q : Nat) (e : QEntry) (r : Region) (i : Nat) (j : MoveJob),
    s.entry w q = some e → e.disp = true → e.unit = false → e.skip = false → Rec.kind e.raw = 8 → Rec.op e.raw = 5 →
    (s.store.drains.find (recKey w q)).isSome = true → s.tier.moveLeft.find (recKey w q) = some j → j.status = 0 →
    s.region (inOf e.raw).imgH = some r → r.nextMove 2 0 r.size j.next = some i → (r.page i).move = none → s.placeIn 2 = some .t2 →
    ∃ t, exec (.drain w q) s = .next t ∧
      (∃ r₂, t.region (inOf e.raw).imgH = some r₂ ∧ (r₂.page i).move.map PageMove.dst = some .t2 ∧ (r₂.page i).move.map PageMove.why = some (.record (recKey w q))) ∧
      t.tier.moveLeft.find (recKey w q) = some { j with next := i } ∧ t.tier.mem = s.tier.mem ∧ t.store.drains = s.store.drains) ∧
  (∀ (s : State) (w : Fin 8) (q : Nat) (e : QEntry) (r : Region) (i : Nat) (j : MoveJob),
    s.entry w q = some e → e.disp = true → e.unit = false → e.skip = false → Rec.kind e.raw = 8 → Rec.op e.raw = 5 →
    (s.store.drains.find (recKey w q)).isSome = true → s.tier.moveLeft.find (recKey w q) = some j → j.status = 0 →
    s.region (inOf e.raw).imgH = some r → r.nextMove 2 0 r.size j.next = some i → (r.page i).move.isSome = true →
    ∃ t, exec (.drain w q) s = .next t ∧
      t.tier.regions = s.tier.regions ∧ t.tier.mem = s.tier.mem ∧ t.store = s.store ∧ t.cmd = s.cmd ∧ t.obj = s.obj) ∧
  (∀ (s : State) (w : Fin 8) (q : Nat) (e : QEntry) (j : MoveJob),
    s.entry w q = some e → e.disp = true → e.unit = false → e.skip = false → Rec.kind e.raw = 8 → Rec.op e.raw = 5 →
    (s.store.drains.find (recKey w q)).isSome = true → s.tier.moveLeft.find (recKey w q) = some j →
    (s.region (inOf e.raw).imgH = none ∨ j.status ≠ 0) →
    ∃ t, exec (.drain w q) s = .next t ∧
      t.store.partDrains.contains (inOf e.raw).imgH = true ∧
      t.rd (Obj.occurrences (Ev.ckptFault / 256 - 1) (Ev.ckptFault % 256)) = (s.rd (Obj.occurrences (Ev.ckptFault / 256 - 1) (Ev.ckptFault % 256)) + 1) % 2 ^ 32 ∧
      (t.entry w q).map QEntry.unit = some true ∧ t.tier.mem = s.tier.mem) ∧
  (∀ (s : State) (w : Fin 8) (q : Nat) (e : QEntry) (r : Region) (j : MoveJob),
    s.entry w q = some e → e.disp = true → e.unit = false → e.skip = false → Rec.kind e.raw = 8 → Rec.op e.raw = 5 →
    (s.store.drains.find (recKey w q)).isSome = true → s.tier.moveLeft.find (recKey w q) = some j → j.status = 0 →
    s.region (inOf e.raw).imgH = some r → r.nextMove 2 0 r.size j.next = none →
    ∃ t, exec (.drain w q) s = .next t ∧
      t = s) ∧
  (∀ (s : State) (w : Fin 8) (q : Nat) (e : QEntry) (r : Region) (k : Nat),
    s.entry w q = some e → e.disp = true → e.unit = false → e.skip = false → Rec.kind e.raw = 8 → Rec.op e.raw = 5 →
    (s.store.drains.find (recKey w q)).isSome = true → s.region (inOf e.raw).imgH = some r →
    ((s.entryOf (inOf e.raw).imgH = some k ∨ (s.entryOf (inOf e.raw).imgH = none ∧ ckptEntry (fun k => s.rd (Obj.ckptState k) == 0) = some k))) →
    r.count (fun p => p.home == .t2 && p.move.isNone) = r.size → (s.imageIn (inOf e.raw).imgH).whole = true →
    ∃ t, exec (.drainComplete w q) s = .next t ∧
      t.rd (Obj.ckptHandle k) = (inOf e.raw).imgH ∧ t.rd (Obj.ckptStep k) = (s.imageIn (inOf e.raw).imgH).step ∧
      t.rd (Obj.ckptDigest k) = (s.imageIn (inOf e.raw).imgH).digest.getD 0 ∧
      t.rd (Obj.ckptState k) = (if (s.imageIn (inOf e.raw).imgH).damaged then 3 else 2) ∧ t.store.taken.find k = some (s.imageIn (inOf e.raw).imgH) ∧
      (t.entry w q).map QEntry.unit = some true ∧ t.tier.mem = s.tier.mem ∧ t.store.zones = s.store.zones) ∧
  (∀ (s : State) (w : Fin 8) (q : Nat) (e : QEntry),
    s.entry w q = some e → e.disp = true → e.unit = false → e.skip = false → Rec.kind e.raw = 8 → Rec.op e.raw = 5 →
    (s.store.drains.find (recKey w q) = none ∨ (s.region (inOf e.raw).imgH).all (fun r => decide (r.count (fun p => p.home == .t2 && p.move.isNone) ≠ r.size)) = true ∨ (s.imageIn (inOf e.raw).imgH).whole = false) →
    ∃ t, exec (.drainComplete w q) s = .next t ∧
      t = s) ∧
  (∀ (s : State) (w : Fin 8) (q : Nat),
    (s.entry w q).all (fun e => !(e.disp && !e.unit && !e.skip && Rec.kind e.raw == 8 && Rec.op e.raw == 5)) = true →
    ∃ t, exec (.drain w q) s = .next t ∧
      t = s) ∧
  (∀ (s : State) (w : Fin 8) (q : Nat),
    (s.entry w q).all (fun e => !(e.disp && !e.unit && !e.skip && Rec.kind e.raw == 8 && Rec.op e.raw == 5)) = true →
    ∃ t, exec (.drainComplete w q) s = .next t ∧
      t = s)

/-- Failing reads, reclaimed blocks, wear and read disturb of the flash array. Each clause concludes that exec answers a next state, under
conditions on the state and the operands alone. Completes: flashReadFail, garbageCollection, wearLevelCopy, readDisturbRefresh,
powerUpReadScan. -/
def Obligations.FlashIsKept : Prop :=
  (∀ (s : State) (u : FlashUnit) (die : Fin 256) (block : Fin 1024) (levels : Fin 7) (outcome : Fin 3),
    u ≠ .die → outcome = 0 →
    ∃ t, exec (.flashReadFail u die block ⟨levels, outcome⟩) s = .next t ∧
      t.rd Obj.stRetries = (s.rd Obj.stRetries + 1) % 2 ^ 64 ∧ t.rd Obj.stReadBytes = (s.rd Obj.stReadBytes + 65536 * (levels.val + 1)) % 2 ^ 64 ∧
      (t.block (((s.failPlace u).map s.placeBlock).getD (blockKey die block))).reads = (s.block (((s.failPlace u).map s.placeBlock).getD (blockKey die block))).reads + levels.val + 1 ∧
      t.store.badUnits = s.store.badUnits ∧ t.tier = s.tier ∧ t.store.zones = s.store.zones) ∧
  (∀ (s : State) (u : FlashUnit) (die : Fin 256) (block : Fin 1024) (levels : Fin 7) (outcome : Fin 3),
    u ≠ .die → outcome = 1 →
    ∃ t, exec (.flashReadFail u die block ⟨levels, outcome⟩) s = .next t ∧
      t.rd Obj.stRetries = (s.rd Obj.stRetries + 1) % 2 ^ 64 ∧ t.rd Obj.stRebuilds = min (s.rd Obj.stRebuilds + 1) (2 ^ 32 - 1) ∧
      (t.block (((s.failPlace u).map s.placeBlock).getD (blockKey die block))).retired = (s.block (((s.failPlace u).map s.placeBlock).getD (blockKey die block))).retired ∧
      t.store.badUnits = s.store.badUnits ∧ t.tier = s.tier ∧ t.store.zones = s.store.zones) ∧
  (∀ (s : State) (z : Fin 4) (n : Nat) (die : Fin 256) (block : Fin 1024) (levels : Fin 7) (outcome : Fin 3),
    outcome = 2 →
    ∃ t, exec (.flashReadFail (.zone z n) die block ⟨levels, outcome⟩) s = .next t ∧
      t.rd Obj.stRetries = (s.rd Obj.stRetries + 1) % 2 ^ 64 ∧ t.rd Obj.stUncorrectable = min (s.rd Obj.stUncorrectable + 1) (2 ^ 32 - 1) ∧
      t.rd (Obj.occurrences (Ev.storeUncorrectable / 256 - 1) (Ev.storeUncorrectable % 256)) = (s.rd (Obj.occurrences (Ev.storeUncorrectable / 256 - 1) (Ev.storeUncorrectable % 256)) + 1) % 2 ^ 32 ∧
      z.val * 2 ^ 30 + n ∈ t.store.badUnits ∧ t.rd (Obj.szState z) = 3 ∧
      (t.block (((s.failPlace (.zone z n)).map s.placeBlock).getD (blockKey die block))).retired = true ∧ t.tier = s.tier ∧
      t.store.zones = s.store.zones) ∧
  (∀ (s : State) (h p : Nat) (die : Fin 256) (block : Fin 1024) (levels : Fin 7) (outcome : Fin 3) (r : Region),
    outcome = 2 → s.region h = some r → r.cls ≠ 4 →
    ∃ t, exec (.flashReadFail (.page h p) die block ⟨levels, outcome⟩) s = .next t ∧
      t.rd Obj.stRetries = (s.rd Obj.stRetries + 1) % 2 ^ 64 ∧ t.rd Obj.stUncorrectable = min (s.rd Obj.stUncorrectable + 1) (2 ^ 32 - 1) ∧
      t.rd (Obj.occurrences (Ev.storeUncorrectable / 256 - 1) (Ev.storeUncorrectable % 256)) = (s.rd (Obj.occurrences (Ev.storeUncorrectable / 256 - 1) (Ev.storeUncorrectable % 256)) + 1) % 2 ^ 32 ∧
      (∃ r₂, t.region h = some r₂ ∧ r₂.page p = { r.page p with bad := List.range 1024 }) ∧
      (t.block (((s.failPlace (.page h p)).map s.placeBlock).getD (blockKey die block))).retired = true ∧ t.store.badUnits = s.store.badUnits ∧
      t.store.zones = s.store.zones ∧ t.tier.mem = s.tier.mem) ∧
  (∀ (s : State) (h p : Nat) (die : Fin 256) (block : Fin 1024) (levels : Fin 7) (outcome : Fin 3) (r : Region) (k : Nat),
    outcome = 2 → s.region h = some r → r.cls = 4 → s.entryOf h = some k →
    ∃ t, exec (.flashReadFail (.page h p) die block ⟨levels, outcome⟩) s = .next t ∧
      t.rd Obj.stRetries = (s.rd Obj.stRetries + 1) % 2 ^ 64 ∧ t.rd Obj.stUncorrectable = min (s.rd Obj.stUncorrectable + 1) (2 ^ 32 - 1) ∧
      t.rd (Obj.occurrences (Ev.storeUncorrectable / 256 - 1) (Ev.storeUncorrectable % 256)) = (s.rd (Obj.occurrences (Ev.storeUncorrectable / 256 - 1) (Ev.storeUncorrectable % 256)) + 1) % 2 ^ 32 ∧
      (s.rd (Obj.ckptState k) = 2 → t.rd (Obj.ckptState k) = 3) ∧
      t.rd (Obj.occurrences (Ev.ckptDamaged / 256 - 1) (Ev.ckptDamaged % 256)) = (s.rd (Obj.occurrences (Ev.ckptDamaged / 256 - 1) (Ev.ckptDamaged % 256)) + 1) % 2 ^ 32 ∧
      t.tier = s.tier ∧ t.store.badUnits = s.store.badUnits ∧ t.store.zones = s.store.zones ∧ t.tier.mem = s.tier.mem) ∧
  (∀ (s : State) (h p : Nat) (die : Fin 256) (block : Fin 1024) (levels : Fin 7) (outcome : Fin 3),
    outcome = 2 → s.region h = none →
    ∃ t, exec (.flashReadFail (.page h p) die block ⟨levels, outcome⟩) s = .next t ∧
      t.rd Obj.stRetries = (s.rd Obj.stRetries + 1) % 2 ^ 64 ∧ t.rd Obj.stUncorrectable = min (s.rd Obj.stUncorrectable + 1) (2 ^ 32 - 1) ∧
      (t.block (((s.failPlace (.page h p)).map s.placeBlock).getD (blockKey die block))).retired = true ∧ t.tier = s.tier ∧
      t.store.badUnits = s.store.badUnits ∧ t.store.zones = s.store.zones ∧ t.tier.mem = s.tier.mem) ∧
  (∀ (s : State) (die : Fin 256) (block : Fin 1024) (levels : Fin 7) (outcome : Fin 3),
    s.store.dies.contains die.val = false →
    ∃ t, exec (.flashReadFail .die die block ⟨levels, outcome⟩) s = .next t ∧
      t.store.dies.contains die.val = true ∧ t.rd Obj.diesFailed = t.store.dies.length ∧
      t.rd (Obj.occurrences (Ev.storeDieFailed / 256 - 1) (Ev.storeDieFailed % 256)) = (s.rd (Obj.occurrences (Ev.storeDieFailed / 256 - 1) (Ev.storeDieFailed % 256)) + 1) % 2 ^ 32 ∧
      t.tier = s.tier ∧ t.store.zones = s.store.zones) ∧
  (∀ (s : State) (die : Fin 256) (block : Fin 1024) (levels : Fin 7) (outcome : Fin 3),
    s.store.dies.contains die.val = true →
    ∃ t, exec (.flashReadFail .die die block ⟨levels, outcome⟩) s = .next t ∧
      t = s) ∧
  (∀ (s : State) (stripe : Fin 1024) (rows : Nat),
    s.e2Deferred = false → s.store.genBlocks.contains stripe.val = true → s.store.genBlocks.getLast? ≠ some stripe.val →
    s.rowRoom (ceilDiv (min (31 * rows) (s.store.pageMap.filter fun x => x.2 / sbUnits == stripe.val).length) 31) = true →
    (s.store.pageMap.filter fun x => x.2 / sbUnits == stripe.val).length ≤ 31 * rows →
    ∃ t, exec (.garbageCollection stripe rows) s = .next t ∧
      (∀ die : Fin 256, (t.block (t.physBlock die stripe)).programmed = none) ∧ t.store.genBlocks.contains stripe.val = false ∧
      t.rd Obj.stReadBytes = (if (s.store.pageMap.filter fun x => x.2 / sbUnits == stripe.val).length = 0 then s.rd Obj.stReadBytes else (s.rd Obj.stReadBytes + 65536 * (s.store.pageMap.filter fun x => x.2 / sbUnits == stripe.val).length) % 2 ^ 64) ∧
      t.rd Obj.stProgBytes = (if (s.store.pageMap.filter fun x => x.2 / sbUnits == stripe.val).length = 0 then s.rd Obj.stProgBytes else (s.rd Obj.stProgBytes + ceilDiv (s.store.pageMap.filter fun x => x.2 / sbUnits == stripe.val).length 31 * rowProgBytes) % 2 ^ 64) ∧
      t.store.zones = s.store.zones ∧ t.tier.mem = s.tier.mem) ∧
  (∀ (s : State) (stripe : Fin 1024) (rows : Nat),
    s.e2Deferred = false → s.store.genBlocks.contains stripe.val = true → s.store.genBlocks.getLast? ≠ some stripe.val →
    s.rowRoom (ceilDiv (min (31 * rows) (s.store.pageMap.filter fun x => x.2 / sbUnits == stripe.val).length) 31) = true →
    31 * rows < (s.store.pageMap.filter fun x => x.2 / sbUnits == stripe.val).length →
    ∃ t, exec (.garbageCollection stripe rows) s = .next t ∧
      stripe.val ∈ t.store.genBlocks ∧
      t.rd Obj.stReadBytes = (if rows = 0 then s.rd Obj.stReadBytes else (s.rd Obj.stReadBytes + 65536 * (31 * rows)) % 2 ^ 64) ∧
      t.rd Obj.stProgBytes = (if rows = 0 then s.rd Obj.stProgBytes else (s.rd Obj.stProgBytes + rows * rowProgBytes) % 2 ^ 64) ∧
      t.store.zones = s.store.zones ∧ t.tier.mem = s.tier.mem) ∧
  (∀ (s : State) (stripe : Fin 1024) (rows : Nat),
    (¬ (s.e2Deferred = false ∧ s.store.genBlocks.contains stripe.val = true ∧ s.store.genBlocks.getLast? ≠ some stripe.val ∧ s.rowRoom (ceilDiv (min (31 * rows) (s.store.pageMap.filter fun x => x.2 / sbUnits == stripe.val).length) 31) = true)) →
    ∃ t, exec (.garbageCollection stripe rows) s = .next t ∧
      t = s) ∧
  (∀ (s : State) (die : Fin 256) (cold hot : Fin 1024),
    s.e2Deferred = false → (s.block (blockKey die cold)).programmed.isSome = true → (s.block (blockKey die cold)).retired = false →
    (s.block (blockKey die hot)).programmed = none → (s.block (blockKey die hot)).retired = false → s.store.dies.contains die.val = false →
    (s.block (blockKey die cold)).erases + 200 < (s.block (blockKey die hot)).erases →
    ∃ t, exec (.wearLevelCopy die cold hot) s = .next t ∧
      (t.block (blockKey die hot)).programmed = some s.poweredS ∧ (t.block (blockKey die cold)).programmed = none ∧
      (t.block (blockKey die cold)).erases = (s.block (blockKey die cold)).erases + 1 ∧ t.rd Obj.stRefreshes = (s.rd Obj.stRefreshes + 1) % 2 ^ 64 ∧
      t.store.zones = s.store.zones ∧ t.tier.mem = s.tier.mem) ∧
  (∀ (s : State) (die : Fin 256) (cold hot : Fin 1024),
    (¬ (s.e2Deferred = false ∧ (s.block (blockKey die cold)).programmed.isSome = true ∧ (s.block (blockKey die cold)).retired = false ∧ (s.block (blockKey die hot)).programmed = none ∧ (s.block (blockKey die hot)).retired = false ∧ s.store.dies.contains die.val = false ∧ (s.block (blockKey die cold)).erases + 200 < (s.block (blockKey die hot)).erases)) →
    ∃ t, exec (.wearLevelCopy die cold hot) s = .next t ∧
      t = s) ∧
  (∀ (s : State) (die : Fin 256) (block : Fin 1024) (c : Nat),
    ((s.rd Obj.rdLimit ≤ (s.block (blockKey die block)).reads ∨ ((s.block (blockKey die block)).programmed ≠ none ∧ s.rd Obj.retentionDays * 86400 < s.poweredS - (s.block (blockKey die block)).programmed.getD 0))) →
    (s.block (blockKey die block)).programmed.isSome = true → s.spareFor (blockKey die block) = some c →
    ∃ t, exec (.readDisturbRefresh die block) s = .next t ∧
      (t.block (blockKey die block)).programmed = none ∧ (t.block c).programmed = some s.poweredS ∧ (t.block (blockKey die block)).reads = 0 ∧
      t.rd Obj.stRefreshes = (s.rd Obj.stRefreshes + 1) % 2 ^ 64 ∧ t.store.zones = s.store.zones ∧ t.tier.mem = s.tier.mem) ∧
  (∀ (s : State) (die : Fin 256) (block : Fin 1024),
    (¬ (s.rd Obj.rdLimit ≤ (s.block (blockKey die block)).reads ∨ ((s.block (blockKey die block)).programmed ≠ none ∧ s.rd Obj.retentionDays * 86400 < s.poweredS - (s.block (blockKey die block)).programmed.getD 0)) ∨ (s.block (blockKey die block)).programmed = none ∨ s.spareFor (blockKey die block) = none) →
    ∃ t, exec (.readDisturbRefresh die block) s = .next t ∧
      t = s) ∧
  (∀ (s : State) (weak : List (Nat × Nat)) (k : Nat) (b : Block),
    s.e2Deferred = false → weak = [] → s.store.blocks.find k = some b → b.programmed.isSome = true →
    ∃ t, exec (.powerUpReadScan weak) s = .next t ∧
      t.store.blocks.find k = some { b with reads := b.reads + 1 } ∧
      t.rd Obj.stReadBytes = (s.rd Obj.stReadBytes + 65536 * (s.store.blocks.filter fun b => b.2.programmed.isSome).length) % 2 ^ 64 ∧
      t.store.zones = s.store.zones ∧ t.tier.mem = s.tier.mem) ∧
  (∀ (s : State) (weak : List (Nat × Nat)),
    s.e2Deferred = true →
    ∃ t, exec (.powerUpReadScan weak) s = .next t ∧
      t = s) ∧
  (∀ (s : State) (weak : List (Nat × Nat)),
    ∃ t, exec (.powerUpReadScan weak) s = .next t ∧
      (∃ u, exec (.powerUpReadScan []) s = .next u ∧ (s.e2Deferred = false → t = weak.foldl (fun s x => s.refreshBlock (blockKey (x.1 % 256) (x.2 % 1024))) u)) ∧
      t.store.zones = s.store.zones ∧ t.tier.mem = s.tier.mem)

/-- What commands on windows, records and compute tiles leave alone -/
def Obligations.FrameOfRecords : Prop :=
  (∀ (s : State) (p : HostPort) (w : Fin 8) (k : Fin 1024) (off : Nat) (data : Bytes), ∃ t, exec (.cmdTrailerWrite p w k off data) s = .next t ∧
    Within ⟨[.bar0, .cmd], fun k => k ∈ [Obj.cmdAccepted, Obj.crcErrors, Obj.creditRange, Obj.foreignWrites, Obj.seqAhead, Obj.staleWrites]⟩ s t) ∧
  (∀ (s : State) (w : Fin 8), ∃ t, exec (.credit w) s = .next t ∧
    Within ⟨[.cmd], fun k => k ∈ [Obj.cmdAccepted, Obj.crcErrors, Obj.creditRange, Obj.seqAhead, Obj.staleWrites]⟩ s t) ∧
  (∀ (s : State) (w : Fin 8), ∃ t, exec (.acceptOnRoom w) s = .next t ∧
    Within ⟨[.cmd], fun k => k ∈ [Obj.cmdAccepted, Obj.crcErrors, Obj.creditRange, Obj.seqAhead, Obj.staleWrites]⟩ s t) ∧
  (∀ (s : State), ∃ t, exec (.recordDispatch) s = .next t ∧
    Within ⟨[.cmd, .tile, .spans, .coll, .store, .cross], fun k => k ∈ [Obj.barCompletions, Obj.castFaults, Obj.cnMessages, Obj.collRejected,
      Obj.inRejected, Obj.mxRejected, Obj.promotions, Obj.syncFaults, Obj.tmRejected, Obj.updRejected, Obj.vxRejected]⟩ s t) ∧
  (∀ (s : State) (w : Fin 8), ∃ t, exec (.ringRecordWrite w) s = .next t ∧ Within ⟨[.cmd], fun k => k = Obj.ringWritten⟩ s t) ∧
  (∀ (s : State) (w : Fin 8), ∃ t, exec (.resultIrq w) s = .next t ∧ Within ⟨[.cmd], fun _ => False⟩ s t) ∧
  (∀ (s : State) (w : Fin 8) (q : Nat), ∃ t, exec (.recordRetire w q) s = .next t ∧
    Within ⟨[.cmd, .tile, .spans, .upd, .coll, .tier, .store], fun k => k ∈ [Obj.lastPosition, Obj.lastSample]⟩ s t) ∧
  (∀ (s : State) (w : Fin 8) (q : Nat) (u : Fin 192), ∃ t, exec (.matrix w q u) s = .next t ∧
    Within ⟨[.tile], fun k => k ∈ [Obj.castDemandRefills, Obj.castStallCycles, Obj.mxBusyCycles, Obj.mxStallOperand, Obj.mxStallWeight]⟩ s t) ∧
  (∀ (s : State) (w : Fin 8) (q : Nat) (u : Fin 192), ∃ t, exec (.outputTileDrain w q u) s = .next t ∧
    Within ⟨[.scratch, .castMem, .tile, .spans, .touches], fun k => k ∈ [Obj.castDemandRefills, Obj.castStallCycles, Obj.castWritethroughBytes,
      Obj.cumElements, Obj.cumNonfinite, Obj.cumSaturation, Obj.cumUnderflow, Obj.dnBytes, Obj.spanFaults]⟩ s t) ∧
  (∀ (s : State) (w : Fin 8) (q : Nat) (u : Fin 192), ∃ t, exec (.splitHandoff w q u) s = .next t ∧
    Within ⟨[.tile], fun k => k ∈ [Obj.cnMessages, Obj.dnBytes]⟩ s t) ∧
  (∀ (s : State) (w : Fin 8) (q : Nat) (u : Fin 192), ∃ t, exec (.tileRecordComplete w q u) s = .next t ∧
    Within ⟨[.cmd, .castMem, .tile, .cross], fun k => k ∈ [Obj.barCompletions, Obj.cnMessages, Obj.mxStallOperand, Obj.syncFaults,
      Obj.vxWaitCycles]⟩ s t) ∧
  (∀ (s : State) (w : Fin 8) (q : Nat) (u : Fin 192), ∃ t, exec (.vectorMap w q u) s = .next t ∧
    Within ⟨[.scratch, .castMem, .tile, .free], fun k => k ∈ [Obj.castDemandRefills, Obj.castStallCycles, Obj.castWritethroughBytes, Obj.cumElements,
      Obj.cumNonfinite, Obj.cumSaturation, Obj.cumUnderflow, Obj.dnBytes, Obj.vxBusyCycles, Obj.vxPortLost, Obj.vxWaitCycles]⟩ s t) ∧
  (∀ (s : State) (w : Fin 8) (q : Nat) (u : Fin 192), ∃ t, exec (.vectorReduce w q u) s = .next t ∧
    Within ⟨[.scratch, .castMem, .tile, .free], fun k => k ∈ [Obj.castDemandRefills, Obj.castStallCycles, Obj.castWritethroughBytes, Obj.cumElements,
      Obj.cumNonfinite, Obj.cumSaturation, Obj.cumUnderflow, Obj.dnBytes, Obj.vxBusyCycles, Obj.vxPortLost, Obj.vxWaitCycles]⟩ s t) ∧
  (∀ (s : State) (w : Fin 8) (q : Nat) (u : Fin 192), ∃ t, exec (.vmap w q u) s = .next t ∧
    Within ⟨[.scratch, .castMem, .tile, .free], fun k => k ∈ [Obj.castDemandRefills, Obj.castStallCycles, Obj.castWritethroughBytes, Obj.cumElements,
      Obj.cumNonfinite, Obj.cumSaturation, Obj.cumUnderflow, Obj.dnBytes, Obj.vxBusyCycles, Obj.vxPortLost, Obj.vxWaitCycles]⟩ s t) ∧
  (∀ (s : State) (w : Fin 8) (q : Nat) (u : Fin 192), ∃ t, exec (.gather w q u) s = .next t ∧
    Within ⟨[.cmd, .scratch, .castMem, .tile, .tier, .free], fun k => k ∈ [Obj.castDemandRefills, Obj.castStallCycles, Obj.castWritethroughBytes,
      Obj.cumElements, Obj.cumNonfinite, Obj.cumSaturation, Obj.cumUnderflow, Obj.dnBytes, Obj.tmWaitCycles, Obj.vxBusyCycles, Obj.vxIndexRange,
      Obj.vxIndexedElems, Obj.vxPortLost, Obj.vxWaitCycles]⟩ s t) ∧
  (∀ (s : State) (w : Fin 8) (q : Nat) (u : Fin 192), ∃ t, exec (.scatter w q u) s = .next t ∧
    Within ⟨[.cmd, .scratch, .castMem, .tile, .free], fun k => k ∈ [Obj.castDemandRefills, Obj.castStallCycles, Obj.cumElements, Obj.cumNonfinite,
      Obj.cumSaturation, Obj.cumUnderflow, Obj.vxBusyCycles, Obj.vxIndexRange, Obj.vxIndexedElems, Obj.vxPortLost, Obj.vxWaitCycles]⟩ s t) ∧
  (∀ (s : State) (w : Fin 8) (q : Nat), ∃ t, exec (.reduceTileFold w q) s = .next t ∧ Within ⟨[.tile], fun k => k = Obj.dnBytes⟩ s t) ∧
  (∀ (s : State) (w : Fin 8) (q : Nat), ∃ t, exec (.castOpen w q) s = .next t ∧ Within ⟨[.cmd, .tile], fun _ => False⟩ s t) ∧
  (∀ (s : State) (w : Fin 8) (q : Nat), ∃ t, exec (.castPop w q) s = .next t ∧ Within ⟨[.cmd, .tile], fun _ => False⟩ s t) ∧
  (∀ (s : State) (w : Fin 8) (q : Nat), ∃ t, exec (.castPopTo w q) s = .next t ∧ Within ⟨[.cmd, .tile], fun _ => False⟩ s t) ∧
  (∀ (s : State) (w : Fin 8) (q : Nat), ∃ t, exec (.castArm w q) s = .next t ∧ Within ⟨[.cmd, .tile], fun _ => False⟩ s t) ∧
  (∀ (s : State) (w : Fin 8) (q : Nat), ∃ t, exec (.planReserve w q) s = .next t ∧ Within ⟨[.cmd, .tile], fun _ => False⟩ s t) ∧
  (∀ (s : State) (w : Fin 8) (q : Nat), ∃ t, exec (.planLayer w q) s = .next t ∧ Within ⟨[.cmd, .tile], fun _ => False⟩ s t) ∧
  (∀ (s : State) (u : Fin 192) (p : Nat), ∃ t, exec (.castPageMoveDone u p) s = .next t ∧
    Within ⟨[.tile], fun k => k ∈ [Obj.castPagesRefilled, Obj.castPagesSpilled, Obj.dnBytes]⟩ s t) ∧
  (∀ (s : State) (w : Fin 8) (q : Nat) (u : Fin 192), ∃ t, exec (.semSignal w q u) s = .next t ∧ Within ⟨[.tile, .cross], fun _ => False⟩ s t) ∧
  (∀ (s : State) (u : Fin 192), ∃ t, exec (.semSignalArrive u) s = .next t ∧
    Within ⟨[.cmd, .tile], fun k => k ∈ [Obj.cnMessages, Obj.syncFaults]⟩ s t) ∧
  (∀ (s : State) (w : Fin 8) (q : Nat) (u : Fin 192), ∃ t, exec (.semWait w q u) s = .next t ∧ Within ⟨[.tile], fun k => k = Obj.syncWaitCycles⟩ s t) ∧
  (∀ (s : State) (w : Fin 8) (q : Nat) (u : Fin 192), ∃ t, exec (.semSet w q u) s = .next t ∧ Within ⟨[.cmd, .tile], fun k => k = Obj.syncFaults⟩ s t) ∧
  (∀ (s : State) (w : Fin 8) (q : Nat), ∃ t, exec (.barArm w q) s = .next t ∧ Within ⟨[.cmd, .tile], fun k => k = Obj.syncFaults⟩ s t) ∧
  (∀ (s : State) (w : Fin 8) (q : Nat) (u : Fin 192), ∃ t, exec (.barArrive w q u) s = .next t ∧
    Within ⟨[.cmd, .tile, .cross], fun k => k ∈ [Obj.barCompletions, Obj.syncFaults]⟩ s t) ∧
  (∀ (s : State) (u : Fin 192) (c : Fin 64), ∃ t, exec (.barrierRelease u c) s = .next t ∧
    Within ⟨[.cmd, .tile, .cross], fun k => k = Obj.syncFaults⟩ s t) ∧
  (∀ (s : State) (w : Fin 8) (q : Nat) (u : Fin 192), ∃ t, exec (.barWait w q u) s = .next t ∧ Within ⟨[.tile], fun k => k = Obj.syncWaitCycles⟩ s t) ∧
  (∀ (s : State) (w : Fin 8) (q : Nat) (u : Fin 192), ∃ t, exec (.syncTimeout w q u) s = .next t ∧
    Within ⟨[.cmd, .tile], fun k => k = Obj.syncTimeouts⟩ s t) ∧
  (∀ (s : State) (w : Fin 8) (q : Nat) (delivered : Bool), ∃ t, exec (.report w q delivered) s = .next t ∧
    Within ⟨[.cmd, .tier], fun k => k = Obj.tmWaitCycles⟩ s t) ∧
  (∀ (s : State) (w : Fin 8) (q : Nat), ∃ t, exec (.step w q) s = .next t ∧
    Within ⟨[.prep, .bar0, .cmd, .scratch, .castMem, .tile, .spans, .touches, .upd, .link, .coll, .mem, .tier, .store, .cross],
      fun k => k ∈ [Obj.actMode, Obj.actStep, Obj.collBytesTx, Obj.collDuplicates, Obj.collMismatchCycles, Obj.cumElements, Obj.cumNonfinite,
      Obj.cumSaturation, Obj.cumUnderflow, Obj.groupState, Obj.prepEpoch, Obj.prepStep, Obj.tmWaitCycles] ∨ (∃ n, k = Obj.decState n) ∨
      (∃ n, k = Obj.flitsTx n)⟩ s t) ∧
  (∀ (s : State) (w : Fin 8) (q : Nat), ∃ t, exec (.audit w q) s = .next t ∧
    Within ⟨[.prep, .bar0, .cmd, .castMem, .tile, .spans, .upd, .coll, .tier, .store], fun k => k ∈ [Obj.actMode, Obj.actStep,
      Obj.collMismatchCycles, Obj.groupState, Obj.prepEpoch, Obj.prepStep, Obj.tmWaitCycles] ∨ (∃ n, k = Obj.decState n)⟩ s t) ∧
  (∀ (s : State) (src : Src) (w : Fin 8) (port : Nat), ∃ t, exec (.cwClaim src w port) s = .next t ∧
    Within ⟨[.bar0, .cmd], fun k => k = Obj.dictRejected⟩ s t) ∧
  (∀ (s : State) (src : Src) (w : Fin 8) (port : Nat), ∃ t, exec (.cwTakeover src w port) s = .next t ∧
    Within ⟨[.bar0, .cmd], fun k => k = Obj.dictRejected⟩ s t) ∧
  (∀ (s : State) (src : Src) (w : Fin 8) (port : Nat), ∃ t, exec (.cwForcedTakeover src w port) s = .next t ∧
    Within ⟨[.bar0, .cmd], fun k => k = Obj.dictRejected⟩ s t) ∧
  (∀ (s : State) (src : Src) (w : Fin 8) (port : Nat), ∃ t, exec (.cwRelease src w port) s = .next t ∧
    Within ⟨[.bar0, .cmd], fun k => k = Obj.dictRejected⟩ s t) ∧
  (∀ (s : State) (w : Fin 8), ∃ t, exec (.cwReleaseDone w) s = .next t ∧ Within ⟨[.cmd], fun _ => False⟩ s t) ∧
  (∀ (s : State) (src : Src) (w : Fin 8), ∃ t, exec (.cwResume src w) s = .next t ∧ Within ⟨[.cmd], fun k => k = Obj.dictRejected⟩ s t) ∧
  (∀ (s : State) (src : Src) (w : Fin 8), ∃ t, exec (.cwHalt src w) s = .next t ∧ Within ⟨[.cmd], fun k => k = Obj.dictRejected⟩ s t) ∧
  (∀ (s : State) (src : Src) (w : Fin 8), ∃ t, exec (.leaseRenew src w) s = .next t ∧ Within ⟨[.cmd], fun k => k = Obj.dictRejected⟩ s t) ∧
  (∀ (s : State) (w : Fin 8), ∃ t, exec (.ownerLeaseExpired w) s = .next t ∧ Within ⟨[.cmd], fun _ => False⟩ s t) ∧
  (∀ (s : State) (src : Src) (w : Fin 8) (arg : Nat), ∃ t, exec (.ringCommit src w arg) s = .next t ∧
    Within ⟨[.cmd], fun k => k = Obj.dictRejected⟩ s t)

/-- What commands on the memory tiers, the update processor and the store leave alone -/
def Obligations.FrameOfMemoryCommands : Prop :=
  (∀ (s : State) (w : Fin 8) (q : Nat), ∃ t, exec (.tierCreate w q) s = .next t ∧ Within ⟨[.cmd, .tier], fun k => k = Obj.tmEvictions⟩ s t) ∧
  (∀ (s : State) (w : Fin 8) (q : Nat), ∃ t, exec (.tierFree w q) s = .next t ∧
    Within ⟨[.cmd, .upd, .mem, .tier, .store], fun k => (∃ n, k = Obj.ckptDigest n) ∨ (∃ n, k = Obj.ckptHandle n) ∨ (∃ n, k = Obj.ckptState n) ∨
      (∃ n, k = Obj.ckptStep n)⟩ s t) ∧
  (∀ (s : State) (w : Fin 8) (q : Nat), ∃ t, exec (.tierMove w q) s = .next t ∧ Within ⟨[.cmd, .tier], fun k => k = Obj.tmEvictions⟩ s t) ∧
  (∀ (s : State) (w : Fin 8) (q : Nat), ∃ t, exec (.stream w q) s = .next t ∧ Within ⟨[.tier], fun _ => False⟩ s t) ∧
  (∀ (s : State) (w : Fin 8) (q : Nat), ∃ t, exec (.ringConfig w q) s = .next t ∧ Within ⟨[.cmd, .tile], fun _ => False⟩ s t) ∧
  (∀ (s : State) (w : Fin 8) (q : Nat), ∃ t, exec (.streamGateOpen w q) s = .next t ∧ Within ⟨[.tier], fun _ => False⟩ s t) ∧
  (∀ (s : State) (w : Fin 8) (q : Nat) (u : Fin 192), ∃ t, exec (.stageFillDone w q u) s = .next t ∧
    Within ⟨[.cmd, .scratch, .castMem, .tile, .tier], fun k => k ∈ [Obj.dnBytes, Obj.tmStageBytes, Obj.tmWaitCycles]⟩ s t) ∧
  (∀ (s : State) (w : Fin 8) (q : Nat) (u : Fin 192), ∃ t, exec (.stageStall w q u) s = .next t ∧
    Within ⟨[.tile], fun k => k = Obj.tmStageStalls⟩ s t) ∧
  (∀ (s : State) (upper : Bool), ∃ t, exec (.eviction upper) s = .next t ∧ Within ⟨[.tier], fun k => k = Obj.tmEvictions⟩ s t) ∧
  (∀ (s : State) (src : Src) (n : Fin 2) (arg : Nat), ∃ t, exec (.hlCommit src n arg) s = .next t ∧
    Within ⟨[.tier], fun k => k = Obj.dictRejected ∨ (∃ n, k = Obj.hlState n)⟩ s t) ∧
  (∀ (s : State) (src : Src) (n : Fin 2) (arg : Nat), ∃ t, exec (.hlRecall src n arg) s = .next t ∧
    Within ⟨[.prep, .bar0, .cmd, .castMem, .tile, .spans, .upd, .link, .coll, .tier, .store, .cross, .start], fun k => k ∈ [Obj.actMode, Obj.actStep,
      Obj.collBytesTx, Obj.collMismatchCycles, Obj.dictRejected, Obj.groupState, Obj.prepEpoch, Obj.prepStep, Obj.sparePages, Obj.t1PoolPages,
      Obj.tmDiscards, Obj.tmEvictions, Obj.tmWaitCycles] ∨ (∃ n, k = Obj.chRetired n) ∨ (∃ n, k = Obj.decState n) ∨ (∃ n, k = Obj.flitsTx n) ∨
      (∃ n, k = lenderKey n)⟩ s t) ∧
  (∀ (s : State) (src : Src) (arg : Nat), ∃ t, exec (.nbCommit src arg) s = .next t ∧
    Within ⟨[.link, .coll, .tier, .cross], fun k => k ∈ [Obj.collBytesTx, Obj.dictRejected] ∨ (∃ n, k = Obj.flitsTx n)⟩ s t) ∧
  (∀ (s : State) (src : Src) (arg : Nat), ∃ t, exec (.lendRecall src arg) s = .next t ∧
    Within ⟨[.link, .coll, .tier, .cross], fun k => k ∈ [Obj.collBytesTx, Obj.dictRejected] ∨ (∃ n, k = Obj.flitsTx n)⟩ s t) ∧
  (∀ (s : State) (n : Fin 4), ∃ t, exec (.recallNoticeExpiry n) s = .next t ∧
    Within ⟨[.prep, .bar0, .cmd, .castMem, .tile, .spans, .upd, .link, .coll, .tier, .store, .cross, .start], fun k => k ∈ [Obj.actMode, Obj.actStep,
      Obj.collBytesTx, Obj.collMismatchCycles, Obj.groupState, Obj.prepEpoch, Obj.prepStep, Obj.sparePages, Obj.t1PoolPages, Obj.tmDiscards,
      Obj.tmEvictions, Obj.tmWaitCycles] ∨ (∃ n, k = Obj.chRetired n) ∨ (∃ n, k = Obj.decState n) ∨ (∃ n, k = Obj.flitsTx n) ∨
      (∃ n, k = lenderKey n)⟩ s t) ∧
  (∀ (s : State) (n : Fin 3), ∃ t, exec (.lenderLost n) s = .next t ∧
    Within ⟨[.prep, .bar0, .cmd, .castMem, .tile, .spans, .upd, .link, .coll, .tier, .store, .cross, .start], fun k => k ∈ [Obj.actMode, Obj.actStep,
      Obj.collBytesTx, Obj.collMismatchCycles, Obj.groupState, Obj.prepEpoch, Obj.prepStep, Obj.sparePages, Obj.t1PoolPages, Obj.tmDiscards,
      Obj.tmEvictions, Obj.tmWaitCycles] ∨ (∃ n, k = Obj.chRetired n) ∨ (∃ n, k = Obj.decState n) ∨ (∃ n, k = Obj.flitsTx n) ∨
      (∃ n, k = lenderKey n)⟩ s t) ∧
  (∀ (s : State) (addr : Nat) (u : BankUnit) (reads : List Bytes) (reader : Option (Nat × Nat)), ∃ t,
      exec (.bankReadReplay addr u reads reader) s = .next t ∧
    Within ⟨[.prep, .bar0, .cmd, .castMem, .tile, .spans, .upd, .link, .coll, .tier, .store, .cross, .start], fun k => k ∈ [Obj.actMode, Obj.actStep,
      Obj.collBytesTx, Obj.collMismatchCycles, Obj.groupState, Obj.prepEpoch, Obj.prepStep, Obj.sparePages, Obj.t1PoolPages, Obj.tmDiscards,
      Obj.tmWaitCycles] ∨ (∃ n, k = Obj.chReplays n) ∨ (∃ n, k = Obj.chRetired n) ∨ (∃ n, k = Obj.chUncorrectable n) ∨ (∃ n, k = Obj.decState n) ∨
      (∃ n, k = Obj.flitsTx n)⟩ s t) ∧
  (∀ (s : State) (addr : Nat) (u : BankUnit) (fails : Nat), ∃ t, exec (.bankWriteRetry addr u fails) s = .next t ∧
    Within ⟨[.prep, .bar0, .cmd, .castMem, .tile, .spans, .upd, .link, .coll, .tier, .store, .cross, .start], fun k => k ∈ [Obj.actMode, Obj.actStep,
      Obj.bankWriteRetries, Obj.collBytesTx, Obj.collMismatchCycles, Obj.groupState, Obj.prepEpoch, Obj.prepStep, Obj.sparePages, Obj.t1PoolPages,
      Obj.tmDiscards, Obj.tmEvictions, Obj.tmWaitCycles] ∨ (∃ n, k = Obj.chReplays n) ∨ (∃ n, k = Obj.chRetired n) ∨
      (∃ n, k = Obj.chUncorrectable n) ∨ (∃ n, k = Obj.decState n) ∨ (∃ n, k = Obj.flitsTx n)⟩ s t) ∧
  (∀ (s : State) (c : Fin 16), ∃ t, exec (.caParityAlert c) s = .next t ∧ Within ⟨[], fun k => k = Obj.bankCaAlerts⟩ s t) ∧
  (∀ (s : State) (c : Fin 16) (temp : Int), ∃ t, exec (.bankTempRead c temp) s = .next t ∧
    Within ⟨[.link, .coll, .tier, .power, .clock, .cross, .start], fun k => k ∈ [Obj.collBytesTx, Obj.collResends, Obj.duty, Obj.opInForce,
      Obj.parks, Obj.powerState, Obj.refreshIntervalNs, Obj.remapCount, Obj.vtrimMv] ∨ (∃ n, k = Obj.chTemp n) ∨ (∃ n, k = Obj.flitsTx n) ∨
      (∃ n, k = Obj.idResult n) ∨ (∃ n, k = Obj.logicalPlane n) ∨ (∃ n, k = Obj.planePort n) ∨ (∃ n, k = Obj.portPowerState n) ∨
      (∃ n, k = Obj.portState n)⟩ s t) ∧
  (∀ (s : State) (u : BankUnit) (x : UnitReads), ∃ t, exec (.scrub u x) s = .next t ∧
    Within ⟨[.prep, .bar0, .cmd, .castMem, .tile, .spans, .upd, .link, .coll, .tier, .store, .cross, .start], fun k => k ∈ [Obj.actMode, Obj.actStep,
      Obj.bankScrubBytes, Obj.collBytesTx, Obj.collMismatchCycles, Obj.groupState, Obj.prepEpoch, Obj.prepStep, Obj.scrubProgress, Obj.sparePages,
      Obj.t1PoolPages, Obj.tmDiscards, Obj.tmWaitCycles] ∨ (∃ n, k = Obj.chReplays n) ∨ (∃ n, k = Obj.chRetired n) ∨
      (∃ n, k = Obj.chUncorrectable n) ∨ (∃ n, k = Obj.decState n) ∨ (∃ n, k = Obj.flitsTx n)⟩ s t) ∧
  (∀ (s : State) (w : Fin 8) (q : Nat), ∃ t, exec (.updateMap w q) s = .next t ∧ Within ⟨[.cmd, .upd], fun _ => False⟩ s t) ∧
  (∀ (s : State) (w : Fin 8) (q : Nat), ∃ t, exec (.update w q) s = .next t ∧ Within ⟨[.cmd, .upd], fun _ => False⟩ s t) ∧
  (∀ (s : State) (w : Fin 8) (q : Nat), ∃ t, exec (.restore w q) s = .next t ∧
    Within ⟨[.cmd, .tile, .upd, .mem, .tier, .store, .free], fun k => k ∈ [Obj.cumElements, Obj.cumNonfinite, Obj.cumSaturation, Obj.cumUnderflow,
      Obj.lastCommittedStep, Obj.spikeDev, Obj.spikeMu, Obj.spikeRun, Obj.spikeSeen, Obj.stReadBytes, Obj.stepDigest, Obj.stepDigestStep,
      Obj.tmWaitCycles] ∨ (∃ n, k = Obj.fbQuiet n) ∨ (∃ n, k = Obj.fbState n)⟩ s t) ∧
  (∀ (s : State) (m : Msg), ∃ t, exec (.msgLend m) s = .next t ∧
    Within ⟨[.link, .coll, .tier, .cross], fun k => k ∈ [Obj.collBytesTx, Obj.nbState] ∨ (∃ n, k = Obj.flitsTx n)⟩ s t) ∧
  (∀ (s : State) (m : Msg), ∃ t, exec (.msgRecall m) s = .next t ∧
    Within ⟨[.prep, .bar0, .cmd, .castMem, .tile, .spans, .upd, .link, .coll, .tier, .store, .cross, .start], fun k => k ∈ [Obj.actMode, Obj.actStep,
      Obj.collBytesTx, Obj.collMismatchCycles, Obj.groupState, Obj.prepEpoch, Obj.prepStep, Obj.sparePages, Obj.t1PoolPages, Obj.tmDiscards,
      Obj.tmEvictions, Obj.tmWaitCycles] ∨ (∃ n, k = Obj.chRetired n) ∨ (∃ n, k = Obj.decState n) ∨ (∃ n, k = Obj.flitsTx n) ∨
      (∃ n, k = lenderKey n)⟩ s t) ∧
  (∀ (s : State) (m : Msg), ∃ t, exec (.msgRelease m) s = .next t ∧ Within ⟨[.tier], fun _ => False⟩ s t) ∧
  (∀ (s : State) (m : Msg), ∃ t, exec (.msgWithdrawal m) s = .next t ∧
    Within ⟨[.prep, .bar0, .cmd, .castMem, .tile, .spans, .upd, .link, .coll, .tier, .store, .cross, .start], fun k => k ∈ [Obj.actMode, Obj.actStep,
      Obj.collBytesTx, Obj.collMismatchCycles, Obj.groupState, Obj.prepEpoch, Obj.prepStep, Obj.sparePages, Obj.t1PoolPages, Obj.tmDiscards,
      Obj.tmEvictions, Obj.tmWaitCycles] ∨ (∃ n, k = Obj.chRetired n) ∨ (∃ n, k = Obj.decState n) ∨ (∃ n, k = Obj.flitsTx n) ∨
      (∃ n, k = lenderKey n)⟩ s t) ∧
  (∀ (s : State) (m : Msg), ∃ t, exec (.msgLentRead m) s = .next t ∧
    Within ⟨[.link, .coll, .cross], fun k => k = Obj.collBytesTx ∨ (∃ n, k = Obj.flitsTx n)⟩ s t) ∧
  (∀ (s : State) (m : Msg), ∃ t, exec (.msgLentData m) s = .next t ∧ Within ⟨[.mem, .tier], fun _ => False⟩ s t) ∧
  (∀ (s : State) (src : Src) (z : Fin 4) (arg : Nat), ∃ t, exec (.szReset src z arg) s = .next t ∧
    Within ⟨[.zones, .store, .start], fun k => k ∈ [Obj.dictRejected, Obj.wearAvgPe, Obj.wearMaxPe] ∨ (∃ n, k = Obj.szState n) ∨
      (∃ n, k = Obj.szWp n)⟩ s t) ∧
  (∀ (s : State) (w : Fin 8) (q : Nat), ∃ t, exec (.sample w q) s = .next t ∧
    Within ⟨[.cmd, .mem, .tier, .store, .free], fun k => k ∈ [Obj.stReadBytes, Obj.stRebuilds, Obj.tmWaitCycles] ∨ (∃ n, k = Obj.decState n)⟩ s t) ∧
  (∀ (s : State) (w : Fin 8) (q : Nat), ∃ t, exec (.fetch w q) s = .next t ∧
    Within ⟨[.cmd, .mem, .tier, .store], fun k => k ∈ [Obj.inSampleErrors, Obj.lastErrorCause, Obj.stReadBytes, Obj.stRebuilds,
      Obj.tmWaitCycles]⟩ s t) ∧
  (∀ (s : State) (w : Fin 8) (q : Nat), ∃ t, exec (.profile w q) s = .next t ∧ Within ⟨[.cmd], fun _ => False⟩ s t) ∧
  (∀ (s : State) (w : Fin 8) (q : Nat), ∃ t, exec (.engineConfig w q) s = .next t ∧ Within ⟨[.cmd], fun _ => False⟩ s t) ∧
  (∀ (s : State) (w : Fin 8) (q : Nat) (data : Bytes), ∃ t, exec (.append w q data) s = .next t ∧ Within ⟨[.store], fun k => k = Obj.stHostBytes⟩ s t) ∧
  (∀ (s : State) (w : Fin 8) (q : Nat), ∃ t, exec (.drain w q) s = .next t ∧
    Within ⟨[.cmd, .tier, .store], fun k => (∃ n, k = Obj.ckptHandle n) ∨ (∃ n, k = Obj.ckptState n)⟩ s t) ∧
  (∀ (s : State) (w : Fin 8) (q : Nat), ∃ t, exec (.sampleComplete w q) s = .next t ∧
    Within ⟨[.cmd, .scratch, .castMem, .tile, .mem, .tier, .store], fun k => k ∈ [Obj.barCompletions, Obj.cumElements, Obj.cumNonfinite,
      Obj.cumSaturation, Obj.cumUnderflow, Obj.inFrames, Obj.inSampleErrors, Obj.inSamples, Obj.inTokens, Obj.lastErrorCause, Obj.syncFaults,
      Obj.tmWaitCycles] ∨ (∃ n, k = Obj.decState n)⟩ s t) ∧
  (∀ (s : State) (k : Fin 16), ∃ t, exec (.decoderStall k) s = .next t ∧
    Within ⟨[.cmd, .mem, .tier, .store, .free], fun k => k ∈ [Obj.inEngineResets, Obj.stReadBytes, Obj.stRebuilds, Obj.tmWaitCycles] ∨
      (∃ n, k = Obj.decState n)⟩ s t) ∧
  (∀ (s : State) (w : Fin 8) (q : Nat), ∃ t, exec (.appendDone w q) s = .next t ∧
    Within ⟨[.cmd, .zones, .store], fun k => (∃ n, k = Obj.szState n) ∨ (∃ n, k = Obj.szWp n)⟩ s t) ∧
  (∀ (s : State) (w : Fin 8) (q : Nat), ∃ t, exec (.drainComplete w q) s = .next t ∧
    Within ⟨[.cmd, .upd, .tier, .store], fun k => (∃ n, k = Obj.ckptDigest n) ∨ (∃ n, k = Obj.ckptHandle n) ∨ (∃ n, k = Obj.ckptState n) ∨
      (∃ n, k = Obj.ckptStep n)⟩ s t) ∧
  (∀ (s : State) (zone : Option (Fin 4)) (pages : List (Nat × Nat)), ∃ t, exec (.stripeRowProgrammed zone pages) s = .next t ∧
    Within ⟨[.store], fun k => k = Obj.stProgBytes⟩ s t) ∧
  (∀ (s : State) (u : FlashUnit) (die : Fin 256) (block : Fin 1024) (retry : FlashRetry), ∃ t, exec (.flashReadFail u die block retry) s = .next t ∧
    Within ⟨[.upd, .tier, .store, .start], fun k => k ∈ [Obj.badBlocks, Obj.diesFailed, Obj.spareMinDie, Obj.stProgBytes, Obj.stReadBytes,
      Obj.stRebuilds, Obj.stRefreshes, Obj.stRetries, Obj.stUncorrectable, Obj.wearAvgPe, Obj.wearMaxPe] ∨ (∃ n, k = Obj.ckptState n) ∨
      (∃ n, k = Obj.szState n)⟩ s t) ∧
  (∀ (s : State) (stripe : Fin 1024) (rows : Nat), ∃ t, exec (.garbageCollection stripe rows) s = .next t ∧
    Within ⟨[.store, .start], fun k => k ∈ [Obj.stProgBytes, Obj.stReadBytes, Obj.wearAvgPe, Obj.wearMaxPe]⟩ s t) ∧
  (∀ (s : State) (die : Fin 256) (cold : Fin 1024) (hot : Fin 1024), ∃ t, exec (.wearLevelCopy die cold hot) s = .next t ∧
    Within ⟨[.store, .start], fun k => k ∈ [Obj.stProgBytes, Obj.stReadBytes, Obj.stRefreshes, Obj.wearAvgPe, Obj.wearMaxPe]⟩ s t) ∧
  (∀ (s : State) (die : Fin 256) (block : Fin 1024), ∃ t, exec (.readDisturbRefresh die block) s = .next t ∧
    Within ⟨[.store, .start], fun k => k ∈ [Obj.stProgBytes, Obj.stReadBytes, Obj.stRefreshes, Obj.wearAvgPe, Obj.wearMaxPe]⟩ s t) ∧
  (∀ (s : State) (weak : List (Nat × Nat)), ∃ t, exec (.powerUpReadScan weak) s = .next t ∧
    Within ⟨[.store, .start], fun k => k ∈ [Obj.stProgBytes, Obj.stReadBytes, Obj.stRefreshes, Obj.wearAvgPe, Obj.wearMaxPe]⟩ s t)

/-- What commands on the links, the group and its collectives leave alone -/
def Obligations.FrameOfGroupCommands : Prop :=
  (∀ (s : State) (network : Nat) (tile : Option Nat) (tree : Nat), ∃ t, exec (.fabricParity network tile tree) s = .next t ∧
    Within ⟨[.prep, .bar0, .cmd, .castMem, .tile, .spans, .upd, .link, .coll, .tier, .store, .cross, .start], fun k => k ∈ [Obj.actMode, Obj.actStep,
      Obj.collBytesTx, Obj.collMismatchCycles, Obj.fabricParity, Obj.groupState, Obj.prepEpoch, Obj.prepStep, Obj.tmWaitCycles] ∨
      (∃ n, k = Obj.decState n) ∨ (∃ n, k = Obj.flitsTx n)⟩ s t) ∧
  (∀ (s : State) (h : Nat) (p : Nat) (good : Bool) (phys : Nat), ∃ t, exec (.pageMoveDone h p good phys) s = .next t ∧
    Within ⟨[.prep, .bar0, .cmd, .castMem, .tile, .spans, .upd, .link, .coll, .mem, .tier, .store, .cross, .start, .free], fun k => k ∈ [Obj.actMode,
      Obj.actStep, Obj.collBytesTx, Obj.collMismatchCycles, Obj.groupState, Obj.prepEpoch, Obj.prepStep, Obj.sparePages, Obj.stReadBytes,
      Obj.t1PoolPages, Obj.tmDiscards, Obj.tmEvictions, Obj.tmMoveRetries, Obj.tmMoves, Obj.tmRefetches, Obj.tmWaitCycles] ∨
      (∃ n, k = Obj.chRetired n) ∨ (∃ n, k = Obj.decState n) ∨ (∃ n, k = Obj.flitsTx n) ∨ (∃ n, k = lenderKey n)⟩ s t) ∧
  (∀ (s : State) (l : Nat) (n : Nat) (ahead : List Nat), ∃ t, exec (.updatePassStart l n ahead) s = .next t ∧
    Within ⟨[.cmd, .tile, .upd, .link, .coll, .mem, .tier, .cross], fun k => k ∈ [Obj.collBytesTx, Obj.cumElements, Obj.cumNonfinite,
      Obj.cumSaturation, Obj.cumUnderflow, Obj.stepDigest, Obj.stepDigestStep, Obj.tmWaitCycles, Obj.updBytes, Obj.updRecovered, Obj.updTiles] ∨
      (∃ n, k = Obj.flitsTx n)⟩ s t) ∧
  (∀ (s : State) (l : Nat), ∃ t, exec (.layerCommit l) s = .next t ∧
    Within ⟨[.cmd, .tile, .upd, .link, .coll, .mem, .tier, .cross], fun k => k ∈ [Obj.collBytesTx, Obj.cumElements, Obj.cumNonfinite,
      Obj.cumSaturation, Obj.cumUnderflow, Obj.stepDigest, Obj.stepDigestStep, Obj.tmWaitCycles, Obj.updBytes, Obj.updTiles] ∨
      (∃ n, k = Obj.flitsTx n)⟩ s t) ∧
  (∀ (s : State), ∃ t, exec (.updateWatchdog) s = .next t ∧
    Within ⟨[.cmd, .tile, .upd, .link, .coll, .mem, .tier, .cross], fun k => k ∈ [Obj.collBytesTx, Obj.cumElements, Obj.cumNonfinite,
      Obj.cumSaturation, Obj.cumUnderflow, Obj.stepDigest, Obj.stepDigestStep, Obj.tmWaitCycles, Obj.updBytes, Obj.updRecovered, Obj.updRestarts,
      Obj.updTiles] ∨ (∃ n, k = Obj.flitsTx n)⟩ s t) ∧
  (∀ (s : State), ∃ t, exec (.digestVerdict) s = .next t ∧
    Within ⟨[.prep, .bar0, .cmd, .castMem, .tile, .spans, .upd, .link, .coll, .mem, .tier, .store, .cross, .start], fun _ => True⟩ s t) ∧
  (∀ (s : State) (w : Fin 8) (q : Nat), ∃ t, exec (.modePrepare w q) s = .next t ∧
    Within ⟨[.prep, .coll], fun k => k ∈ [Obj.actMode, Obj.actStep, Obj.prepEpoch, Obj.prepStep]⟩ s t) ∧
  (∀ (s : State) (w : Fin 8) (q : Nat), ∃ t, exec (.modeCancel w q) s = .next t ∧
    Within ⟨[.prep, .cmd, .coll], fun k => k ∈ [Obj.actMode, Obj.actStep, Obj.prepEpoch, Obj.prepStep]⟩ s t) ∧
  (∀ (s : State) (w : Fin 8) (q : Nat), ∃ t, exec (.collectiveOpen w q) s = .next t ∧
    Within ⟨[.cmd, .spans, .coll], fun k => k ∈ [Obj.collMismatchCycles, Obj.groupState]⟩ s t) ∧
  (∀ (s : State) (w : Fin 8) (q : Nat), ∃ t, exec (.collectiveReduce w q) s = .next t ∧
    Within ⟨[.prep, .bar0, .cmd, .scratch, .castMem, .tile, .spans, .touches, .upd, .link, .coll, .mem, .tier, .store, .cross],
      fun k => k ∈ [Obj.actMode, Obj.actStep, Obj.collBytesTx, Obj.collDuplicates, Obj.collMismatchCycles, Obj.cumElements, Obj.cumNonfinite,
      Obj.cumSaturation, Obj.cumUnderflow, Obj.groupState, Obj.prepEpoch, Obj.prepStep, Obj.tmWaitCycles] ∨ (∃ n, k = Obj.decState n) ∨
      (∃ n, k = Obj.flitsTx n)⟩ s t) ∧
  (∀ (s : State) (w : Fin 8) (q : Nat), ∃ t, exec (.collectiveGather w q) s = .next t ∧
    Within ⟨[.prep, .bar0, .cmd, .scratch, .castMem, .tile, .spans, .touches, .upd, .link, .coll, .mem, .tier, .store, .cross],
      fun k => k ∈ [Obj.actMode, Obj.actStep, Obj.collBytesTx, Obj.collDuplicates, Obj.collMismatchCycles, Obj.cumElements, Obj.cumNonfinite,
      Obj.cumSaturation, Obj.cumUnderflow, Obj.groupState, Obj.prepEpoch, Obj.prepStep, Obj.tmWaitCycles] ∨ (∃ n, k = Obj.decState n) ∨
      (∃ n, k = Obj.flitsTx n)⟩ s t) ∧
  (∀ (s : State) (w : Fin 8) (q : Nat), ∃ t, exec (.agree w q) s = .next t ∧
    Within ⟨[.prep, .bar0, .cmd, .scratch, .castMem, .tile, .spans, .touches, .upd, .link, .coll, .mem, .tier, .store, .cross],
      fun k => k ∈ [Obj.actMode, Obj.actStep, Obj.collBytesTx, Obj.collDuplicates, Obj.collMismatchCycles, Obj.cumElements, Obj.cumNonfinite,
      Obj.cumSaturation, Obj.cumUnderflow, Obj.groupState, Obj.prepEpoch, Obj.prepStep, Obj.tmWaitCycles] ∨ (∃ n, k = Obj.decState n) ∨
      (∃ n, k = Obj.flitsTx n)⟩ s t) ∧
  (∀ (s : State) (w : Fin 8) (q : Nat), ∃ t, exec (.scalar w q) s = .next t ∧
    Within ⟨[.prep, .bar0, .cmd, .scratch, .castMem, .tile, .spans, .touches, .upd, .link, .coll, .mem, .tier, .store, .cross],
      fun k => k ∈ [Obj.actMode, Obj.actStep, Obj.collBytesTx, Obj.collDuplicates, Obj.collMismatchCycles, Obj.cumElements, Obj.cumNonfinite,
      Obj.cumSaturation, Obj.cumUnderflow, Obj.groupState, Obj.prepEpoch, Obj.prepStep, Obj.tmWaitCycles] ∨ (∃ n, k = Obj.decState n) ∨
      (∃ n, k = Obj.flitsTx n)⟩ s t) ∧
  (∀ (s : State), ∃ t, exec (.sumPageEvict) s = .next t ∧ Within ⟨[.spans], fun _ => False⟩ s t) ∧
  (∀ (s : State) (m : Msg), ∃ t, exec (.msgCapability m) s = .next t ∧
    Within ⟨[.prep, .bar0, .cmd, .castMem, .tile, .spans, .upd, .link, .coll, .tier, .store, .cross], fun k => k ∈ [Obj.actMode, Obj.actStep,
      Obj.collBytesTx, Obj.collLevel, Obj.collMismatchCycles, Obj.fwMixed, Obj.groupState, Obj.memberFailures, Obj.prepEpoch, Obj.prepStep,
      Obj.tmWaitCycles] ∨ (∃ n, k = Obj.decState n) ∨ (∃ n, k = Obj.flitsTx n)⟩ s t) ∧
  (∀ (s : State) (m : Msg), ∃ t, exec (.msgView m) s = .next t ∧ Within ⟨[.coll], fun k => k ∈ [Obj.collMismatchCycles, Obj.groupState]⟩ s t) ∧
  (∀ (s : State) (m : Msg), ∃ t, exec (.msgSurvivors m) s = .next t ∧
    Within ⟨[.prep, .bar0, .cmd, .castMem, .tile, .spans, .upd, .link, .coll, .tier, .store, .cross], fun k => k ∈ [Obj.actMode, Obj.actStep,
      Obj.collBytesTx, Obj.collMismatchCycles, Obj.digestRepairs, Obj.groupAnchor, Obj.groupMembers, Obj.groupRank, Obj.groupSize, Obj.groupState,
      Obj.lastVerdict, Obj.memberFailures, Obj.modeEpoch, Obj.prepEpoch, Obj.prepStep, Obj.shapeDigest, Obj.tmWaitCycles] ∨
      (∃ n, k = Obj.decState n) ∨ (∃ n, k = Obj.flitsTx n)⟩ s t) ∧
  (∀ (s : State) (m : Msg), ∃ t, exec (.msgAbort m) s = .next t ∧
    Within ⟨[.prep, .bar0, .cmd, .scratch, .castMem, .tile, .spans, .touches, .upd, .link, .coll, .mem, .tier, .store, .cross],
      fun k => k ∈ [Obj.actMode, Obj.actStep, Obj.collBytesTx, Obj.collDuplicates, Obj.collMismatchCycles, Obj.cumElements, Obj.cumNonfinite,
      Obj.cumSaturation, Obj.cumUnderflow, Obj.groupState, Obj.prepEpoch, Obj.prepStep, Obj.tmWaitCycles] ∨ (∃ n, k = Obj.decState n) ∨
      (∃ n, k = Obj.flitsTx n)⟩ s t) ∧
  (∀ (s : State) (m : Msg), ∃ t, exec (.msgExponent m) s = .next t ∧
    Within ⟨[.prep, .bar0, .cmd, .scratch, .castMem, .tile, .spans, .touches, .upd, .link, .coll, .mem, .tier, .store, .cross],
      fun k => k ∈ [Obj.actMode, Obj.actStep, Obj.collBytesTx, Obj.collDuplicates, Obj.collMismatchCycles, Obj.cumElements, Obj.cumNonfinite,
      Obj.cumSaturation, Obj.cumUnderflow, Obj.groupState, Obj.prepEpoch, Obj.prepStep, Obj.tmWaitCycles] ∨ (∃ n, k = Obj.decState n) ∨
      (∃ n, k = Obj.flitsTx n)⟩ s t) ∧
  (∀ (s : State) (m : Msg), ∃ t, exec (.msgAgreed m) s = .next t ∧
    Within ⟨[.prep, .bar0, .cmd, .scratch, .castMem, .tile, .spans, .touches, .upd, .link, .coll, .mem, .tier, .store, .cross],
      fun k => k ∈ [Obj.actMode, Obj.actStep, Obj.collBytesTx, Obj.collDuplicates, Obj.collMismatchCycles, Obj.cumElements, Obj.cumNonfinite,
      Obj.cumSaturation, Obj.cumUnderflow, Obj.groupState, Obj.prepEpoch, Obj.prepStep, Obj.tmWaitCycles] ∨ (∃ n, k = Obj.decState n) ∨
      (∃ n, k = Obj.flitsTx n)⟩ s t) ∧
  (∀ (s : State) (m : Msg), ∃ t, exec (.msgData m) s = .next t ∧
    Within ⟨[.prep, .bar0, .cmd, .scratch, .castMem, .tile, .spans, .touches, .upd, .link, .coll, .mem, .tier, .store, .cross],
      fun k => k ∈ [Obj.actMode, Obj.actStep, Obj.collBytesTx, Obj.collDuplicates, Obj.collMismatchCycles, Obj.cumElements, Obj.cumNonfinite,
      Obj.cumSaturation, Obj.cumUnderflow, Obj.groupState, Obj.prepEpoch, Obj.prepStep, Obj.tmWaitCycles] ∨ (∃ n, k = Obj.decState n) ∨
      (∃ n, k = Obj.flitsTx n)⟩ s t) ∧
  (∀ (s : State) (m : Msg), ∃ t, exec (.msgResult m) s = .next t ∧
    Within ⟨[.prep, .bar0, .cmd, .scratch, .castMem, .tile, .spans, .touches, .upd, .link, .coll, .mem, .tier, .store, .cross],
      fun k => k ∈ [Obj.actMode, Obj.actStep, Obj.collBytesTx, Obj.collDuplicates, Obj.collMismatchCycles, Obj.cumElements, Obj.cumNonfinite,
      Obj.cumSaturation, Obj.cumUnderflow, Obj.groupState, Obj.prepEpoch, Obj.prepStep, Obj.tmWaitCycles] ∨ (∃ n, k = Obj.decState n) ∨
      (∃ n, k = Obj.flitsTx n)⟩ s t) ∧
  (∀ (s : State) (m : Msg), ∃ t, exec (.msgResend m) s = .next t ∧
    Within ⟨[.link, .coll, .cross], fun k => k ∈ [Obj.collBytesTx, Obj.collMismatchCycles, Obj.collResends, Obj.groupState] ∨
      (∃ n, k = Obj.flitsTx n)⟩ s t) ∧
  (∀ (s : State) (m : Msg), ∃ t, exec (.msgGather m) s = .next t ∧
    Within ⟨[.prep, .bar0, .cmd, .scratch, .castMem, .tile, .spans, .touches, .upd, .link, .coll, .mem, .tier, .store, .cross],
      fun k => k ∈ [Obj.actMode, Obj.actStep, Obj.collBytesTx, Obj.collDuplicates, Obj.collMismatchCycles, Obj.cumElements, Obj.cumNonfinite,
      Obj.cumSaturation, Obj.cumUnderflow, Obj.groupState, Obj.prepEpoch, Obj.prepStep, Obj.tmWaitCycles] ∨ (∃ n, k = Obj.decState n) ∨
      (∃ n, k = Obj.flitsTx n)⟩ s t) ∧
  (∀ (s : State) (m : Msg), ∃ t, exec (.msgScalar m) s = .next t ∧
    Within ⟨[.prep, .bar0, .cmd, .scratch, .castMem, .tile, .spans, .touches, .upd, .link, .coll, .mem, .tier, .store, .cross],
      fun k => k ∈ [Obj.actMode, Obj.actStep, Obj.collBytesTx, Obj.collDuplicates, Obj.collMismatchCycles, Obj.cumElements, Obj.cumNonfinite,
      Obj.cumSaturation, Obj.cumUnderflow, Obj.groupState, Obj.prepEpoch, Obj.prepStep, Obj.tmWaitCycles] ∨ (∃ n, k = Obj.decState n) ∨
      (∃ n, k = Obj.flitsTx n)⟩ s t) ∧
  (∀ (s : State) (m : Msg), ∃ t, exec (.msgScalarResult m) s = .next t ∧
    Within ⟨[.prep, .bar0, .cmd, .scratch, .castMem, .tile, .spans, .touches, .upd, .link, .coll, .mem, .tier, .store, .cross],
      fun k => k ∈ [Obj.actMode, Obj.actStep, Obj.collBytesTx, Obj.collDuplicates, Obj.collMismatchCycles, Obj.cumElements, Obj.cumNonfinite,
      Obj.cumSaturation, Obj.cumUnderflow, Obj.groupState, Obj.prepEpoch, Obj.prepStep, Obj.tmWaitCycles] ∨ (∃ n, k = Obj.decState n) ∨
      (∃ n, k = Obj.flitsTx n)⟩ s t) ∧
  (∀ (s : State) (m : Msg), ∃ t, exec (.msgDigest m) s = .next t ∧
    Within ⟨[.link, .coll, .cross], fun k => k = Obj.collBytesTx ∨ (∃ n, k = Obj.flitsTx n)⟩ s t) ∧
  (∀ (s : State) (m : Msg), ∃ t, exec (.msgTwinDigest m) s = .next t ∧
    Within ⟨[.link, .coll, .cross], fun k => k = Obj.collBytesTx ∨ (∃ n, k = Obj.flitsTx n)⟩ s t) ∧
  (∀ (s : State) (m : Msg), ∃ t, exec (.msgStatePart m) s = .next t ∧ Within ⟨[.upd, .coll, .mem, .tier], fun _ => True⟩ s t) ∧
  (∀ (s : State) (m : Msg), ∃ t, exec (.msgStateDone m) s = .next t ∧
    Within ⟨[.cmd, .tile, .upd, .coll, .mem, .tier], fun k => k ∈ [Obj.cumElements, Obj.cumNonfinite, Obj.cumSaturation, Obj.cumUnderflow,
      Obj.groupAnchor, Obj.groupRank, Obj.groupSize, Obj.lastCommittedStep, Obj.modeEpoch, Obj.shapeDigest, Obj.stepDigest, Obj.stepDigestStep]⟩ s t) ∧
  (∀ (s : State), ∃ t, exec (.capabilitySend) s = .next t ∧
    Within ⟨[.link, .coll, .cross], fun k => k ∈ [Obj.collBytesTx, Obj.groupState] ∨ (∃ n, k = Obj.flitsTx n)⟩ s t) ∧
  (∀ (s : State), ∃ t, exec (.joinWait) s = .next t ∧ Within ⟨[.coll], fun _ => False⟩ s t) ∧
  (∀ (s : State) (m : Fin 512), ∃ t, exec (.memberFailDetect m) s = .next t ∧
    Within ⟨[.prep, .bar0, .cmd, .castMem, .tile, .spans, .upd, .link, .coll, .tier, .store, .cross], fun k => k ∈ [Obj.actMode, Obj.actStep,
      Obj.collBytesTx, Obj.collMismatchCycles, Obj.groupState, Obj.memberFailures, Obj.prepEpoch, Obj.prepStep, Obj.tmWaitCycles] ∨
      (∃ n, k = Obj.decState n) ∨ (∃ n, k = Obj.flitsTx n)⟩ s t) ∧
  (∀ (s : State) (m : Fin 512), ∃ t, exec (.memberTimeout m) s = .next t ∧
    Within ⟨[.prep, .bar0, .cmd, .castMem, .tile, .spans, .upd, .link, .coll, .tier, .store, .cross], fun k => k ∈ [Obj.actMode, Obj.actStep,
      Obj.collBytesTx, Obj.collMismatchCycles, Obj.groupState, Obj.memberFailures, Obj.prepEpoch, Obj.prepStep, Obj.tmWaitCycles] ∨
      (∃ n, k = Obj.decState n) ∨ (∃ n, k = Obj.flitsTx n)⟩ s t) ∧
  (∀ (s : State) (w : Fin 8) (q : Nat) (c : Nat), ∃ t, exec (.chunkWait w q c) s = .next t ∧
    Within ⟨[.link, .coll, .cross], fun k => k = Obj.collBytesTx ∨ (∃ n, k = Obj.flitsTx n)⟩ s t) ∧
  (∀ (s : State) (w : Fin 8) (q : Nat) (c : Nat), ∃ t, exec (.resultRequest w q c) s = .next t ∧
    Within ⟨[.link, .coll, .cross], fun k => k = Obj.collBytesTx ∨ (∃ n, k = Obj.flitsTx n)⟩ s t) ∧
  (∀ (s : State), ∃ t, exec (.viewLeaderDecide) s = .next t ∧
    Within ⟨[.prep, .bar0, .cmd, .castMem, .tile, .spans, .upd, .link, .coll, .tier, .store, .cross], fun k => k ∈ [Obj.actMode, Obj.actStep,
      Obj.collBytesTx, Obj.collMismatchCycles, Obj.digestRepairs, Obj.groupAnchor, Obj.groupMembers, Obj.groupRank, Obj.groupSize, Obj.groupState,
      Obj.lastVerdict, Obj.modeEpoch, Obj.prepEpoch, Obj.prepStep, Obj.shapeDigest, Obj.tmWaitCycles] ∨ (∃ n, k = Obj.decState n) ∨
      (∃ n, k = Obj.flitsTx n)⟩ s t) ∧
  (∀ (s : State), ∃ t, exec (.viewMinorityTimeout) s = .next t ∧ Within ⟨[.coll], fun k => k = Obj.groupState⟩ s t) ∧
  (∀ (s : State), ∃ t, exec (.twinWait) s = .next t ∧ Within ⟨[.coll], fun _ => False⟩ s t) ∧
  (∀ (s : State) (p : Fin 16), ∃ t, exec (.portTrainingStart p) s = .next t ∧
    Within ⟨[.link, .start], fun k => k = Obj.remapCount ∨ (∃ n, k = Obj.logicalPlane n) ∨ (∃ n, k = Obj.planePort n) ∨
      (∃ n, k = Obj.portPowerState n) ∨ (∃ n, k = Obj.portState n)⟩ s t) ∧
  (∀ (s : State) (p : Fin 16), ∃ t, exec (.fecLock p) s = .next t ∧ Within ⟨[.link, .cross], fun _ => False⟩ s t) ∧
  (∀ (s : State) (p : Fin 16), ∃ t, exec (.fecLockTimeout p) s = .next t ∧
    Within ⟨[.link, .coll, .cross, .start], fun k => k ∈ [Obj.collBytesTx, Obj.collResends, Obj.remapCount] ∨ (∃ n, k = Obj.flitsTx n) ∨
      (∃ n, k = Obj.idResult n) ∨ (∃ n, k = Obj.logicalPlane n) ∨ (∃ n, k = Obj.planePort n) ∨ (∃ n, k = Obj.portState n)⟩ s t) ∧
  (∀ (s : State) (p : Fin 16) (f : Bytes) (cor : Nat) (unc : Nat), ∃ t, exec (.helloRx p f cor unc) s = .next t ∧
    Within ⟨[.link, .cross], fun k => (∃ n, k = Obj.fecCorrected n) ∨ (∃ n, k = Obj.fecUncorrectable n) ∨ (∃ n, k = Obj.flitsReplays n) ∨
      (∃ n, k = Obj.flitsTx n) ∨ (∃ n, k = Obj.naksSent n) ∨ (∃ n, k = Obj.parityErrors n) ∨ (∃ n, k = Obj.portPowerState n) ∨
      (∃ n, k = Obj.portState n) ∨ (∃ n, k = Obj.retrains n) ∨ (∃ n, k = Obj.rttNs n)⟩ s t) ∧
  (∀ (s : State) (p : Fin 16) (f : Bytes) (cor : Nat) (unc : Nat), ∃ t, exec (.dataFlitRx p f cor unc) s = .next t ∧
    Within ⟨[.link, .cross], fun k => (∃ n, k = Obj.ctrlDiscards n) ∨ (∃ n, k = Obj.fecCorrected n) ∨ (∃ n, k = Obj.fecUncorrectable n) ∨
      (∃ n, k = Obj.flitsReplays n) ∨ (∃ n, k = Obj.flitsRx n) ∨ (∃ n, k = Obj.flitsTx n) ∨ (∃ n, k = Obj.naksSent n) ∨
      (∃ n, k = Obj.parityErrors n) ∨ (∃ n, k = Obj.portPowerState n)⟩ s t) ∧
  (∀ (s : State) (p : Fin 16) (f : Bytes) (cor : Nat) (unc : Nat), ∃ t, exec (.linkWordAck p f cor unc) s = .next t ∧
    Within ⟨[.link, .cross], fun k => (∃ n, k = Obj.fecCorrected n) ∨ (∃ n, k = Obj.fecUncorrectable n) ∨ (∃ n, k = Obj.flitsReplays n) ∨
      (∃ n, k = Obj.flitsTx n) ∨ (∃ n, k = Obj.naksSent n) ∨ (∃ n, k = Obj.parityErrors n) ∨ (∃ n, k = Obj.portPowerState n)⟩ s t) ∧
  (∀ (s : State) (p : Fin 16) (f : Bytes) (cor : Nat) (unc : Nat), ∃ t, exec (.creditFlitRx p f cor unc) s = .next t ∧
    Within ⟨[.link, .cross], fun k => (∃ n, k = Obj.ctrlDiscards n) ∨ (∃ n, k = Obj.fecCorrected n) ∨ (∃ n, k = Obj.fecUncorrectable n) ∨
      (∃ n, k = Obj.flitsReplays n) ∨ (∃ n, k = Obj.flitsTx n) ∨ (∃ n, k = Obj.naksSent n) ∨ (∃ n, k = Obj.parityErrors n) ∨
      (∃ n, k = Obj.portPowerState n)⟩ s t) ∧
  (∀ (s : State) (p : Fin 16) (f : Bytes) (cor : Nat) (unc : Nat), ∃ t, exec (.paceModeFlitRx p f cor unc) s = .next t ∧
    Within ⟨[.link, .coll, .cross], fun k => k ∈ [Obj.collMismatchCycles, Obj.groupState] ∨ (∃ n, k = Obj.ctrlDiscards n) ∨
      (∃ n, k = Obj.fecCorrected n) ∨ (∃ n, k = Obj.fecUncorrectable n) ∨ (∃ n, k = Obj.flitsReplays n) ∨ (∃ n, k = Obj.flitsTx n) ∨
      (∃ n, k = Obj.naksSent n) ∨ (∃ n, k = Obj.parityErrors n) ∨ (∃ n, k = Obj.portPowerState n)⟩ s t) ∧
  (∀ (s : State) (p : Fin 16) (f : Bytes) (cor : Nat) (unc : Nat), ∃ t, exec (.lldpFlitRx p f cor unc) s = .next t ∧
    Within ⟨[.link, .coll, .cross, .start], fun k => k = Obj.remapCount ∨ (∃ n, k = Obj.ctrlDiscards n) ∨ (∃ n, k = Obj.fecCorrected n) ∨
      (∃ n, k = Obj.fecUncorrectable n) ∨ (∃ n, k = Obj.flitsReplays n) ∨ (∃ n, k = Obj.flitsTx n) ∨ (∃ n, k = Obj.idResult n) ∨
      (∃ n, k = Obj.logicalPlane n) ∨ (∃ n, k = Obj.naksSent n) ∨ (∃ n, k = Obj.parityErrors n) ∨ (∃ n, k = Obj.peerChassis n) ∨
      (∃ n, k = Obj.peerSwitchPort n) ∨ (∃ n, k = Obj.planePort n) ∨ (∃ n, k = Obj.portPowerState n) ∨ (∃ n, k = Obj.portState n)⟩ s t) ∧
  (∀ (s : State) (p : Fin 16) (f : Bytes) (cor : Nat) (unc : Nat), ∃ t, exec (.powerFlitRx p f cor unc) s = .next t ∧
    Within ⟨[.link, .cross], fun k => (∃ n, k = Obj.fecCorrected n) ∨ (∃ n, k = Obj.fecUncorrectable n) ∨ (∃ n, k = Obj.flitsReplays n) ∨
      (∃ n, k = Obj.flitsTx n) ∨ (∃ n, k = Obj.naksSent n) ∨ (∃ n, k = Obj.parityErrors n) ∨ (∃ n, k = Obj.portPowerState n)⟩ s t) ∧
  (∀ (s : State) (p : Fin 16), ∃ t, exec (.replayTimer p) s = .next t ∧
    Within ⟨[.link, .cross], fun k => (∃ n, k = Obj.flitsReplays n) ∨ (∃ n, k = Obj.flitsTx n) ∨ (∃ n, k = Obj.portPowerState n)⟩ s t) ∧
  (∀ (s : State) (p : Fin 16), ∃ t, exec (.ackTimer p) s = .next t ∧ Within ⟨[.link, .cross], fun _ => False⟩ s t) ∧
  (∀ (s : State) (p : Fin 16), ∃ t, exec (.creditSend p) s = .next t ∧ Within ⟨[.link, .cross], fun _ => False⟩ s t) ∧
  (∀ (s : State), ∃ t, exec (.paceModeSend) s = .next t ∧ Within ⟨[.link, .cross], fun k => k = Obj.paceSent⟩ s t) ∧
  (∀ (s : State) (p : Fin 16), ∃ t, exec (.lldpSend p) s = .next t ∧ Within ⟨[.link, .cross], fun _ => False⟩ s t) ∧
  (∀ (s : State) (p : Fin 16), ∃ t, exec (.lldpMissing p) s = .next t ∧
    Within ⟨[.link, .coll, .cross, .start], fun k => k = Obj.remapCount ∨ (∃ n, k = Obj.flitsTx n) ∨ (∃ n, k = Obj.idResult n) ∨
      (∃ n, k = Obj.logicalPlane n) ∨ (∃ n, k = Obj.planePort n) ∨ (∃ n, k = Obj.portState n)⟩ s t) ∧
  (∀ (s : State) (p : Fin 16), ∃ t, exec (.laneLoss p) s = .next t ∧
    Within ⟨[.link, .coll, .cross, .start], fun k => k ∈ [Obj.collBytesTx, Obj.collResends, Obj.remapCount] ∨ (∃ n, k = Obj.flitsTx n) ∨
      (∃ n, k = Obj.idResult n) ∨ (∃ n, k = Obj.logicalPlane n) ∨ (∃ n, k = Obj.planePort n) ∨ (∃ n, k = Obj.portState n)⟩ s t) ∧
  (∀ (s : State) (p : Fin 16), ∃ t, exec (.retrain p) s = .next t ∧
    Within ⟨[.link, .cross], fun k => (∃ n, k = Obj.portState n) ∨ (∃ n, k = Obj.retrains n)⟩ s t) ∧
  (∀ (s : State) (p : Fin 16), ∃ t, exec (.retrainDone p) s = .next t ∧
    Within ⟨[.link, .cross], fun k => (∃ n, k = Obj.flitsReplays n) ∨ (∃ n, k = Obj.flitsTx n) ∨ (∃ n, k = Obj.portPowerState n) ∨
      (∃ n, k = Obj.portState n)⟩ s t) ∧
  (∀ (s : State) (p : Fin 16), ∃ t, exec (.retrainTimeout p) s = .next t ∧
    Within ⟨[.link, .coll, .cross, .start], fun k => k ∈ [Obj.collBytesTx, Obj.collResends, Obj.remapCount] ∨ (∃ n, k = Obj.flitsTx n) ∨
      (∃ n, k = Obj.idResult n) ∨ (∃ n, k = Obj.logicalPlane n) ∨ (∃ n, k = Obj.planePort n) ∨ (∃ n, k = Obj.portState n)⟩ s t) ∧
  (∀ (s : State) (p : Fin 16), ∃ t, exec (.lp1Idle p) s = .next t ∧ Within ⟨[], fun k => (∃ n, k = Obj.portPowerState n)⟩ s t) ∧
  (∀ (s : State) (p : Fin 16), ∃ t, exec (.lp1Exit p) s = .next t ∧
    Within ⟨[.link, .cross], fun k => (∃ n, k = Obj.flitsTx n) ∨ (∃ n, k = Obj.portPowerState n)⟩ s t) ∧
  (∀ (s : State) (src : Src) (p : Fin 16) (v : Nat), ∃ t, exec (.portSleepWrite src p v) s = .next t ∧
    Within ⟨[.link, .coll, .cross, .start], fun k => k ∈ [Obj.collBytesTx, Obj.collResends, Obj.dictRejected, Obj.remapCount] ∨
      (∃ n, k = Obj.flitsTx n) ∨ (∃ n, k = Obj.idResult n) ∨ (∃ n, k = Obj.logicalPlane n) ∨ (∃ n, k = Obj.planePort n) ∨
      (∃ n, k = Obj.portPowerState n) ∨ (∃ n, k = Obj.portSleep n) ∨ (∃ n, k = Obj.portState n)⟩ s t) ∧
  (∀ (s : State) (src : Src) (w : Fin 8), ∃ t, exec (.cwReset src w) s = .next t ∧
    Within ⟨[.prep, .bar0, .cmd, .castMem, .tile, .spans, .upd, .coll, .tier, .store], fun k => k ∈ [Obj.actMode, Obj.actStep,
      Obj.collMismatchCycles, Obj.dictRejected, Obj.groupState, Obj.prepEpoch, Obj.prepStep, Obj.tmWaitCycles] ∨ (∃ n, k = Obj.decState n)⟩ s t) ∧
  (∀ (s : State) (src : Src) (arg : Nat), ∃ t, exec (.stepAbort src arg) s = .next t ∧
    Within ⟨[.prep, .bar0, .cmd, .castMem, .tile, .spans, .upd, .coll, .tier, .store], fun k => k ∈ [Obj.actMode, Obj.actStep,
      Obj.collMismatchCycles, Obj.dictRejected, Obj.groupState, Obj.prepEpoch, Obj.prepStep, Obj.tmWaitCycles] ∨ (∃ n, k = Obj.decState n)⟩ s t) ∧
  (∀ (s : State) (p : Fin 16), ∃ t, exec (.helloExchangeTimeout p) s = .next t ∧
    Within ⟨[.link, .coll, .cross, .start], fun k => k ∈ [Obj.collBytesTx, Obj.collResends, Obj.remapCount] ∨ (∃ n, k = Obj.flitsTx n) ∨
      (∃ n, k = Obj.idResult n) ∨ (∃ n, k = Obj.logicalPlane n) ∨ (∃ n, k = Obj.planePort n) ∨ (∃ n, k = Obj.portState n)⟩ s t)

/-- What commands on power, heat, clocks and the step leave alone -/
def Obligations.FrameOfPowerCommands : Prop :=
  (∀ (s : State), ∃ t, exec (.updateMissing) s = .next t ∧ Within ⟨[.upd], fun _ => False⟩ s t) ∧
  (∀ (s : State), ∃ t, exec (.stepCommit) s = .next t ∧
    Within ⟨[.staged, .prep, .bar0, .cmd, .scratch, .castMem, .tile, .spans, .touches, .upd, .link, .coll, .mem, .tier, .store, .cross, .fw, .start,
      .free], fun _ => True⟩ s t) ∧
  (∀ (s : State) (mv : Nat), ∃ t, exec (.inputOvp mv) s = .next t ∧
    Within ⟨[.standby, .staged, .prep, .bar0, .cmd, .scratch, .castMem, .tile, .spans, .touches, .upd, .link, .coll, .mem, .tier, .store, .power,
      .clock, .cross, .fw, .start, .mirror], fun _ => True⟩ s t) ∧
  (∀ (s : State) (mv : Nat), ∃ t, exec (.inputOvpRelease mv) s = .next t ∧ Within ⟨[.power], fun _ => False⟩ s t) ∧
  (∀ (s : State) (mv : Nat), ∃ t, exec (.inputHigh mv) s = .next t ∧ Within ⟨[], fun _ => False⟩ s t) ∧
  (∀ (s : State) (mv : Nat), ∃ t, exec (.inputLow mv) s = .next t ∧ Within ⟨[], fun _ => False⟩ s t) ∧
  (∀ (s : State) (mv : Nat), ∃ t, exec (.inputLowPark mv) s = .next t ∧
    Within ⟨[.link, .coll, .tier, .power, .clock, .cross, .start], fun k => k ∈ [Obj.collBytesTx, Obj.collResends, Obj.duty, Obj.opInForce,
      Obj.parks, Obj.powerState, Obj.remapCount, Obj.vtrimMv] ∨ (∃ n, k = Obj.flitsTx n) ∨ (∃ n, k = Obj.idResult n) ∨
      (∃ n, k = Obj.logicalPlane n) ∨ (∃ n, k = Obj.planePort n) ∨ (∃ n, k = Obj.portPowerState n) ∨ (∃ n, k = Obj.portState n)⟩ s t) ∧
  (∀ (s : State) (mv : Nat), ∃ t, exec (.inputLowResume mv) s = .next t ∧
    Within ⟨[.link, .coll, .tier, .power, .clock, .cross, .start], fun k => k ∈ [Obj.collBytesTx, Obj.collResends, Obj.duty, Obj.opInForce,
      Obj.parks, Obj.powerState, Obj.remapCount, Obj.vtrimMv] ∨ (∃ n, k = Obj.flitsTx n) ∨ (∃ n, k = Obj.idResult n) ∨
      (∃ n, k = Obj.logicalPlane n) ∨ (∃ n, k = Obj.planePort n) ∨ (∃ n, k = Obj.portPowerState n) ∨ (∃ n, k = Obj.portState n)⟩ s t) ∧
  (∀ (s : State) (mv : Nat), ∃ t, exec (.powerFail mv) s = .next t ∧
    Within ⟨[.standby, .staged, .prep, .bar0, .cmd, .scratch, .castMem, .tile, .spans, .touches, .upd, .link, .coll, .mem, .tier, .store, .power,
      .clock, .cross, .fw, .start, .mirror], fun _ => True⟩ s t) ∧
  (∀ (s : State) (d : Fin 5) (e0 : Nat) (e1 : Nat) (e2 : Nat) (perOp : List Nat), ∃ t, exec (.bellowsDemand d e0 e1 e2 perOp) s = .next t ∧
    Within ⟨[.power], fun k => (∃ n, k = Obj.requestW n)⟩ s t) ∧
  (∀ (s : State), ∃ t, exec (.bellowsGrant) s = .next t ∧ Within ⟨[.power, .clock], fun k => k ∈ [Obj.capInForceW, Obj.capLimiter]⟩ s t) ∧
  (∀ (s : State), ∃ t, exec (.grantTakeEffect) s = .next t ∧
    Within ⟨[.link, .coll, .tier, .power, .clock, .cross, .start], fun k => k ∈ [Obj.ceilingBudget, Obj.collBytesTx, Obj.collResends, Obj.deferred,
      Obj.duty, Obj.e2DeferredMs, Obj.followingMs, Obj.opInForce, Obj.parks, Obj.powerState, Obj.remapCount, Obj.throttledMs, Obj.vtrimMv] ∨
      (∃ n, k = Obj.flitsTx n) ∨ (∃ n, k = Obj.grantW n) ∨ (∃ n, k = Obj.idResult n) ∨ (∃ n, k = Obj.logicalPlane n) ∨ (∃ n, k = Obj.planePort n) ∨
      (∃ n, k = Obj.portPowerState n) ∨ (∃ n, k = Obj.portState n)⟩ s t) ∧
  (∀ (s : State), ∃ t, exec (.opChangeDone) s = .next t ∧
    Within ⟨[.power, .clock], fun k => k ∈ [Obj.e2DeferredMs, Obj.followingMs, Obj.opInForce, Obj.throttledMs]⟩ s t) ∧
  (∀ (s : State) (d : Fin 5), ∃ t, exec (.bellowsTimeout d) s = .next t ∧ Within ⟨[.power], fun _ => False⟩ s t) ∧
  (∀ (s : State), ∃ t, exec (.bellowsRestart) s = .next t ∧
    Within ⟨[.link, .coll, .tier, .power, .clock, .cross, .start], fun k => k ∈ [Obj.ceilingBudget, Obj.collBytesTx, Obj.collResends, Obj.deferred,
      Obj.duty, Obj.e2DeferredMs, Obj.followingMs, Obj.opInForce, Obj.parks, Obj.powerState, Obj.remapCount, Obj.throttledMs, Obj.vtrimMv] ∨
      (∃ n, k = Obj.flitsTx n) ∨ (∃ n, k = Obj.grantW n) ∨ (∃ n, k = Obj.idResult n) ∨ (∃ n, k = Obj.logicalPlane n) ∨ (∃ n, k = Obj.planePort n) ∨
      (∃ n, k = Obj.portPowerState n) ∨ (∃ n, k = Obj.portState n)⟩ s t) ∧
  (∀ (s : State) (vin : List Nat) (iin : List Nat) (act : Activity), ∃ t, exec (.estimatorUpdate vin iin act) s = .next t ∧
    Within ⟨[.power], fun k => k ∈ [Obj.energyJ, Obj.estErrorW, Obj.estGain, Obj.iinMa, Obj.pinAvgW, Obj.pinPeakW, Obj.pinW, Obj.vinMv]⟩ s t) ∧
  (∀ (s : State), ∃ t, exec (.capCorrection) s = .next t ∧ Within ⟨[.power], fun _ => False⟩ s t) ∧
  (∀ (s : State), ∃ t, exec (.paceCeilingUpdate) s = .next t ∧
    Within ⟨[.power], fun k => k ∈ [Obj.ceilingPace, Obj.e2DeferredMs, Obj.followingMs, Obj.paceSource, Obj.throttledMs]⟩ s t) ∧
  (∀ (s : State), ∃ t, exec (.backgroundStarved) s = .next t ∧ Within ⟨[], fun _ => False⟩ s t) ∧
  (∀ (s : State) (j : Fin 24) (a : Int) (b : Int) (pw : Nat), ∃ t, exec (.sensorSample j a b pw) s = .next t ∧
    Within ⟨[.link, .coll, .tier, .power, .clock, .cross, .start], fun k => k ∈ [Obj.ceilingThermal, Obj.collBytesTx, Obj.collResends, Obj.duty,
      Obj.e2DeferredMs, Obj.followingMs, Obj.opInForce, Obj.parks, Obj.powerState, Obj.remapCount, Obj.sensorDiscards, Obj.throttledMs, Obj.tj,
      Obj.vtrimMv] ∨ (∃ n, k = Obj.flitsTx n) ∨ (∃ n, k = Obj.idResult n) ∨ (∃ n, k = Obj.logicalPlane n) ∨ (∃ n, k = Obj.pairStatus n) ∨
      (∃ n, k = Obj.pairValue n) ∨ (∃ n, k = Obj.planePort n) ∨ (∃ n, k = Obj.portPowerState n) ∨ (∃ n, k = Obj.portState n) ∨
      (∃ n, k = Obj.sensorRaw n)⟩ s t) ∧
  (∀ (s : State) (j : Fin 24), ∃ t, exec (.sensorSuspect j) s = .next t ∧
    Within ⟨[.link, .coll, .tier, .power, .clock, .cross, .start], fun k => k ∈ [Obj.ceilingThermal, Obj.collBytesTx, Obj.collResends, Obj.duty,
      Obj.e2DeferredMs, Obj.followingMs, Obj.opInForce, Obj.parks, Obj.powerState, Obj.remapCount, Obj.throttledMs, Obj.tj, Obj.vtrimMv] ∨
      (∃ n, k = Obj.flitsTx n) ∨ (∃ n, k = Obj.idResult n) ∨ (∃ n, k = Obj.logicalPlane n) ∨ (∃ n, k = Obj.pairStatus n) ∨
      (∃ n, k = Obj.pairValue n) ∨ (∃ n, k = Obj.planePort n) ∨ (∃ n, k = Obj.portPowerState n) ∨ (∃ n, k = Obj.portState n)⟩ s t) ∧
  (∀ (s : State) (k : Fin 48), ∃ t, exec (.sensorReaccept k) s = .next t ∧
    Within ⟨[.link, .coll, .tier, .power, .clock, .cross, .start], fun k => k ∈ [Obj.ceilingThermal, Obj.collBytesTx, Obj.collResends, Obj.duty,
      Obj.e2DeferredMs, Obj.followingMs, Obj.opInForce, Obj.parks, Obj.powerState, Obj.remapCount, Obj.throttledMs, Obj.tj, Obj.vtrimMv] ∨
      (∃ n, k = Obj.flitsTx n) ∨ (∃ n, k = Obj.idResult n) ∨ (∃ n, k = Obj.logicalPlane n) ∨ (∃ n, k = Obj.pairStatus n) ∨
      (∃ n, k = Obj.pairValue n) ∨ (∃ n, k = Obj.planePort n) ∨ (∃ n, k = Obj.portPowerState n) ∨ (∃ n, k = Obj.portState n)⟩ s t) ∧
  (∀ (s : State), ∃ t, exec (.thermalCeilingStep) s = .next t ∧
    Within ⟨[.link, .coll, .tier, .power, .clock, .cross, .start], fun k => k ∈ [Obj.ceilingThermal, Obj.collBytesTx, Obj.collResends, Obj.duty,
      Obj.e2DeferredMs, Obj.followingMs, Obj.opInForce, Obj.parks, Obj.powerState, Obj.remapCount, Obj.throttledMs, Obj.vtrimMv] ∨
      (∃ n, k = Obj.flitsTx n) ∨ (∃ n, k = Obj.idResult n) ∨ (∃ n, k = Obj.logicalPlane n) ∨ (∃ n, k = Obj.planePort n) ∨
      (∃ n, k = Obj.portPowerState n) ∨ (∃ n, k = Obj.portState n)⟩ s t) ∧
  (∀ (s : State) (k : Fin 48), ∃ t, exec (.thermalTrip k) s = .next t ∧
    Within ⟨[.staged, .prep, .bar0, .cmd, .scratch, .castMem, .tile, .spans, .touches, .upd, .link, .coll, .mem, .tier, .store, .power, .clock,
      .cross, .fw, .start, .mirror], fun _ => True⟩ s t) ∧
  (∀ (s : State) (k : Fin 4) (temp : Int), ∃ t, exec (.nandTempRead k temp) s = .next t ∧ Within ⟨[], fun k => (∃ n, k = Obj.flashTemp n)⟩ s t) ∧
  (∀ (s : State) (mac : Nat) (pdu : Bytes), ∃ t, exec (.trayReport mac pdu) s = .next t ∧
    Within ⟨[.cmd, .link, .coll, .tier, .power, .clock, .cross, .fw, .start], fun k => k ∈ [Obj.ceilingThermal, Obj.collBytesTx, Obj.collResends,
      Obj.dictDiscards, Obj.dictFramesRx, Obj.duty, Obj.e2DeferredMs, Obj.flowMlMin, Obj.flowState, Obj.followingMs, Obj.heatLimitW, Obj.inlet,
      Obj.opInForce, Obj.outlet, Obj.parks, Obj.powerState, Obj.remapCount, Obj.reportDiscards, Obj.throttledMs, Obj.tj, Obj.trayMacLearned,
      Obj.trayReports, Obj.vtrimMv] ∨ (∃ n, k = Obj.flitsTx n) ∨ (∃ n, k = Obj.idResult n) ∨ (∃ n, k = Obj.logicalPlane n) ∨
      (∃ n, k = Obj.planePort n) ∨ (∃ n, k = Obj.portPowerState n) ∨ (∃ n, k = Obj.portState n)⟩ s t) ∧
  (∀ (s : State), ∃ t, exec (.coolantReportsLost) s = .next t ∧ Within ⟨[.power], fun k => k ∈ [Obj.flowState, Obj.heatLimitW]⟩ s t) ∧
  (∀ (s : State), ∃ t, exec (.coolantMismatch) s = .next t ∧ Within ⟨[], fun _ => False⟩ s t) ∧
  (∀ (s : State), ∃ t, exec (.flowLossAssert) s = .next t ∧
    Within ⟨[.link, .coll, .tier, .power, .clock, .cross, .start], fun k => k ∈ [Obj.ceilingThermal, Obj.collBytesTx, Obj.collResends, Obj.duty,
      Obj.e2DeferredMs, Obj.flowState, Obj.followingMs, Obj.opInForce, Obj.parks, Obj.powerState, Obj.remapCount, Obj.throttledMs, Obj.tj,
      Obj.vtrimMv] ∨ (∃ n, k = Obj.flitsTx n) ∨ (∃ n, k = Obj.idResult n) ∨ (∃ n, k = Obj.logicalPlane n) ∨ (∃ n, k = Obj.planePort n) ∨
      (∃ n, k = Obj.portPowerState n) ∨ (∃ n, k = Obj.portState n)⟩ s t) ∧
  (∀ (s : State), ∃ t, exec (.flowLossDeassert) s = .next t ∧
    Within ⟨[.cmd, .link, .coll, .tier, .power, .clock, .cross, .fw, .start], fun k => k ∈ [Obj.collBytesTx, Obj.collResends, Obj.duty,
      Obj.flowState, Obj.opInForce, Obj.parks, Obj.powerState, Obj.remapCount, Obj.vtrimMv] ∨ (∃ n, k = Obj.flitsTx n) ∨ (∃ n, k = Obj.idResult n) ∨
      (∃ n, k = Obj.logicalPlane n) ∨ (∃ n, k = Obj.planePort n) ∨ (∃ n, k = Obj.portPowerState n) ∨ (∃ n, k = Obj.portState n)⟩ s t) ∧
  (∀ (s : State) (r : Fin 12) (run : RegionRun), ∃ t, exec (.stretchRise r run) s = .next t ∧
    Within ⟨[.clock], fun k => k ∈ [Obj.stretchCycles, Obj.stretchEpisodes] ∨ (∃ n, k = Obj.regionLevel n) ∨ (∃ n, k = Obj.regionMargin n)⟩ s t) ∧
  (∀ (s : State) (r : Fin 12) (run : RegionRun), ∃ t, exec (.stretchStepDown r run) s = .next t ∧
    Within ⟨[.clock], fun k => k = Obj.stretchCycles ∨ (∃ n, k = Obj.regionLevel n) ∨ (∃ n, k = Obj.regionMargin n)⟩ s t) ∧
  (∀ (s : State) (row : Fin 12) (col : Fin 17) (mon : Fin 4), ∃ t, exec (.reedMasked row col mon) s = .next t ∧
    Within ⟨[.clock, .start], fun k => k ∈ [Obj.reedMasked, Obj.stretchEpisodes] ∨ (∃ n, k = Obj.regionLevel n)⟩ s t) ∧
  (∀ (s : State) (w : Nat), ∃ t, exec (.voltageLoop w) s = .next t ∧
    Within ⟨[.power, .clock], fun k => k = Obj.vtrimMv ∨ (∃ n, k = Obj.learnedTrim n)⟩ s t) ∧
  (∀ (s : State) (r : Fin 12) (ppm : Nat), ∃ t, exec (.marginLow r ppm) s = .next t ∧
    Within ⟨[.clock], fun k => k = Obj.marginLowEvents ∨ (∃ n, k = Obj.regionStretchPpm n)⟩ s t) ∧
  (∀ (s : State), ∃ t, exec (.ageingRecordWrite) s = .next t ∧ Within ⟨[.clock, .start], fun k => k = Obj.ageCount⟩ s t) ∧
  (∀ (s : State) (skewed : List Nat), ∃ t, exec (.droneSync skewed) s = .next t ∧ Within ⟨[.clock], fun k => k = Obj.droneCorrections⟩ s t) ∧
  (∀ (s : State), ∃ t, exec (.poweredTimeSave) s = .next t ∧ Within ⟨[.clock, .start], fun k => k = Obj.poweredSTotal⟩ s t)

/-- What commands on the dictionary and the settings leave alone -/
def Obligations.FrameOfDictionaryCommands : Prop :=
  (∀ (s : State) (src : Src) (pdu : Bytes) (held : Nat), ∃ t, exec (.dictRead src pdu held) s = .next t ∧
    Within ⟨[.power, .cross], fun k => k ∈ [Obj.dictDiscards, Obj.dictFramesRx, Obj.dictFramesTx, Obj.dictRepeats, Obj.e2DeferredMs, Obj.followingMs,
      Obj.throttledMs]⟩ s t) ∧
  (∀ (s : State) (src : Src) (pdu : Bytes) (held : Nat), ∃ t, exec (.dictWrite src pdu held) s = .next t ∧
    Within ⟨[.staged, .prep, .bar0, .cmd, .castMem, .tile, .spans, .upd, .link, .coll, .tier, .zones, .store, .power, .cross, .fw, .start, .free],
      fun _ => True⟩ s t) ∧
  (∀ (s : State) (src : Src) (pdu : Bytes) (held : Nat), ∃ t, exec (.logRead src pdu held) s = .next t ∧
    Within ⟨[.cross], fun k => k ∈ [Obj.dictDiscards, Obj.dictFramesRx, Obj.dictFramesTx, Obj.dictRepeats]⟩ s t) ∧
  (∀ (s : State) (src : Src) (pdu : Bytes) (held : Nat), ∃ t, exec (.discover src pdu held) s = .next t ∧
    Within ⟨[.cross], fun k => k ∈ [Obj.dictDiscards, Obj.dictFramesRx, Obj.dictFramesTx, Obj.dictRepeats]⟩ s t) ∧
  (∀ (s : State) (p : HostPort), ∃ t, exec (.eventIrq p) s = .next t ∧ Within ⟨[.cmd], fun _ => False⟩ s t) ∧
  (∀ (s : State), ∃ t, exec (.mirrorRefresh) s = .next t ∧
    Within ⟨[.power, .cross, .mirror], fun k => k ∈ [Obj.e2DeferredMs, Obj.followingMs, Obj.throttledMs]⟩ s t) ∧
  (∀ (s : State), ∃ t, exec (.fieldLinkLost) s = .next t ∧ Within ⟨[], fun _ => False⟩ s t) ∧
  (∀ (s : State) (p : HostPort), ∃ t, exec (.mctpReassemblyTimeout p) s = .next t ∧ Within ⟨[], fun k => k = Obj.dictDiscards⟩ s t) ∧
  (∀ (s : State) (p : HostPort) (op : Nat) (eid : Nat), ∃ t, exec (.setEndpointId p op eid) s = .next t ∧
    Within ⟨[], fun k => (∃ n, k = Obj.mctpEid n)⟩ s t) ∧
  (∀ (s : State) (p : HostPort), ∃ t, exec (.getEndpointId p) s = .next t ∧ Within ⟨[], fun _ => False⟩ s t) ∧
  (∀ (s : State) (p : HostPort) (mtype : Nat), ∃ t, exec (.getMctpVersionSupport p mtype) s = .next t ∧ Within ⟨[], fun _ => False⟩ s t) ∧
  (∀ (s : State) (p : HostPort), ∃ t, exec (.getMessageTypeSupport p) s = .next t ∧ Within ⟨[], fun _ => False⟩ s t) ∧
  (∀ (s : State) (p : HostPort) (selector : Nat), ∃ t, exec (.getVendorMessageSupport p selector) s = .next t ∧ Within ⟨[], fun _ => False⟩ s t) ∧
  (∀ (s : State) (src : Src) (arg : Nat), ∃ t, exec (.cumClear src arg) s = .next t ∧
    Within ⟨[], fun k => k = Obj.dictRejected ∨ k ∈ (clearSet Obj.cumClear).getD []⟩ s t) ∧
  (∀ (s : State) (src : Src) (arg : Nat), ∃ t, exec (.mxClear src arg) s = .next t ∧
    Within ⟨[], fun k => k = Obj.dictRejected ∨ k ∈ (clearSet Obj.mxClear).getD []⟩ s t) ∧
  (∀ (s : State) (src : Src) (arg : Nat), ∃ t, exec (.castClear src arg) s = .next t ∧
    Within ⟨[], fun k => k = Obj.dictRejected ∨ k ∈ (clearSet Obj.castClear).getD []⟩ s t) ∧
  (∀ (s : State) (src : Src) (arg : Nat), ∃ t, exec (.vxClear src arg) s = .next t ∧
    Within ⟨[], fun k => k = Obj.dictRejected ∨ k ∈ (clearSet Obj.vxClear).getD []⟩ s t) ∧
  (∀ (s : State) (src : Src) (arg : Nat), ∃ t, exec (.fabricClear src arg) s = .next t ∧
    Within ⟨[], fun k => k = Obj.dictRejected ∨ k ∈ (clearSet Obj.fabricClear).getD []⟩ s t) ∧
  (∀ (s : State) (src : Src) (arg : Nat), ∃ t, exec (.cmdClear src arg) s = .next t ∧
    Within ⟨[], fun k => k = Obj.dictRejected ∨ k ∈ (clearSet Obj.cmdClear).getD []⟩ s t) ∧
  (∀ (s : State) (src : Src) (arg : Nat), ∃ t, exec (.updClear src arg) s = .next t ∧
    Within ⟨[], fun k => k = Obj.dictRejected ∨ k ∈ (clearSet Obj.updClear).getD []⟩ s t) ∧
  (∀ (s : State) (src : Src) (arg : Nat), ∃ t, exec (.tmClear src arg) s = .next t ∧
    Within ⟨[], fun k => k = Obj.dictRejected ∨ k ∈ (clearSet Obj.tmClear).getD []⟩ s t) ∧
  (∀ (s : State) (src : Src) (arg : Nat), ∃ t, exec (.bankClear src arg) s = .next t ∧
    Within ⟨[], fun k => k = Obj.dictRejected ∨ k ∈ (clearSet Obj.bankClear).getD []⟩ s t) ∧
  (∀ (s : State) (src : Src) (arg : Nat), ∃ t, exec (.stClear src arg) s = .next t ∧
    Within ⟨[], fun k => k = Obj.dictRejected ∨ k ∈ (clearSet Obj.stClear).getD []⟩ s t) ∧
  (∀ (s : State) (src : Src) (arg : Nat), ∃ t, exec (.inClear src arg) s = .next t ∧
    Within ⟨[], fun k => k = Obj.dictRejected ∨ k ∈ (clearSet Obj.inClear).getD []⟩ s t) ∧
  (∀ (s : State) (src : Src) (port : Fin 16) (arg : Nat), ∃ t, exec (.linkClear src port arg) s = .next t ∧
    Within ⟨[], fun k => k = Obj.dictRejected ∨ k ∈ (clearSet (Obj.linkClear port)).getD []⟩ s t) ∧
  (∀ (s : State) (src : Src) (arg : Nat), ∃ t, exec (.collClear src arg) s = .next t ∧
    Within ⟨[], fun k => k = Obj.dictRejected ∨ k ∈ (clearSet Obj.collClear).getD []⟩ s t) ∧
  (∀ (s : State) (src : Src) (arg : Nat), ∃ t, exec (.ptClear src arg) s = .next t ∧
    Within ⟨[.power], fun k => k ∈ [Obj.dictRejected, Obj.e2DeferredMs, Obj.followingMs, Obj.throttledMs] ∨ k ∈ (clearSet Obj.ptClear).getD []⟩ s t) ∧
  (∀ (s : State) (src : Src) (arg : Nat), ∃ t, exec (.clkClear src arg) s = .next t ∧
    Within ⟨[.cross], fun k => k = Obj.dictRejected ∨ k ∈ (clearSet Obj.clkClear).getD []⟩ s t) ∧
  (∀ (s : State) (src : Src) (arg : Nat), ∃ t, exec (.dictClear src arg) s = .next t ∧
    Within ⟨[], fun k => k = Obj.dictRejected ∨ k ∈ (clearSet Obj.dictClear).getD []⟩ s t) ∧
  (∀ (s : State) (src : Src) (arg : Nat), ∃ t, exec (.settingsSave src arg) s = .next t ∧
    Within ⟨[], fun k => k ∈ [Obj.dictRejected, Obj.settingsState]⟩ s t) ∧
  (∀ (s : State) (good : Bool), ∃ t, exec (.settingsSaveDone good) s = .next t ∧ Within ⟨[], fun k => k = Obj.settingsState⟩ s t) ∧
  (∀ (s : State) (src : Src) (arg : Nat), ∃ t, exec (.settingsDefaults src arg) s = .next t ∧
    Within ⟨[.staged, .link, .coll, .store, .cross, .start], fun _ => True⟩ s t) ∧
  (∀ (s : State) (src : Src) (block : Nat) (mask : Nat), ∃ t, exec (.flagsClear src block mask) s = .next t ∧
    Within ⟨[], fun k => k = Obj.dictRejected ∨ (∃ n, k = Obj.flags n)⟩ s t)

/-- What commands on firmware, security and start-up leave alone -/
def Obligations.FrameOfServiceCommands : Prop :=
  (∀ (s : State) (written : Bool), ∃ t, exec (.standbyPowerGood written) s = .next t ∧
    Within ⟨[.now, .standby, .staged, .store, .clock, .start], fun _ => True⟩ s t) ∧
  (∀ (s : State) (src : Src) (arg : Nat), ∃ t, exec (.fwConfirm src arg) s = .next t ∧
    Within ⟨[.fw, .start, .free], fun k => k ∈ [Obj.bootState, Obj.dictRejected, Obj.fwSvn, Obj.keyRevoked]⟩ s t) ∧
  (∀ (s : State) (src : Src) (arg : Nat), ∃ t, exec (.fwRevert src arg) s = .next t ∧
    Within ⟨[.cmd, .tier, .power, .cross, .fw, .start], fun k => k ∈ [Obj.activeSlot, Obj.bootState, Obj.dictRejected, Obj.moduleState] ∨
      (∃ n, k = Obj.slotDictVersion n) ∨ (∃ n, k = Obj.slotFwVersion n) ∨ (∃ n, k = Obj.slotManifestHash n) ∨ (∃ n, k = Obj.slotRejectReason n) ∨
      (∃ n, k = Obj.slotState n) ∨ (∃ n, k = Obj.slotSvn n)⟩ s t) ∧
  (∀ (s : State) (src : Src) (v : Nat), ∃ t, exec (.actTickWrite src v) s = .next t ∧
    Within ⟨[.cmd, .fw], fun k => k ∈ [Obj.actMode, Obj.actTick, Obj.dictRejected]⟩ s t) ∧
  (∀ (s : State), ∃ t, exec (.localActivationTick) s = .next t ∧ Within ⟨[.cmd, .fw], fun _ => False⟩ s t) ∧
  (∀ (s : State), ∃ t, exec (.fwActivation) s = .next t ∧
    Within ⟨[.cmd, .tier, .power, .cross, .fw, .start], fun k => k ∈ [Obj.actMode, Obj.actStep, Obj.actTick, Obj.activeSlot, Obj.moduleState] ∨
      (∃ n, k = Obj.slotState n)⟩ s t) ∧
  (∀ (s : State), ∃ t, exec (.trialTimeout) s = .next t ∧
    Within ⟨[.cmd, .tier, .power, .cross, .fw, .start], fun k => k ∈ [Obj.activeSlot, Obj.bootState, Obj.moduleState] ∨
      (∃ n, k = Obj.slotDictVersion n) ∨ (∃ n, k = Obj.slotFwVersion n) ∨ (∃ n, k = Obj.slotManifestHash n) ∨ (∃ n, k = Obj.slotRejectReason n) ∨
      (∃ n, k = Obj.slotState n) ∨ (∃ n, k = Obj.slotSvn n)⟩ s t) ∧
  (∀ (s : State), ∃ t, exec (.boot) s = .next t ∧ Within ⟨[.staged, .store, .fw], fun _ => True⟩ s t) ∧
  (∀ (s : State) (p : HostPort), ∃ t, exec (.pldmQueryDeviceIdentifiers p) s = .next t ∧ Within ⟨[], fun _ => False⟩ s t) ∧
  (∀ (s : State) (p : HostPort), ∃ t, exec (.pldmGetFirmwareParameters p) s = .next t ∧ Within ⟨[], fun _ => False⟩ s t) ∧
  (∀ (s : State) (p : HostPort), ∃ t, exec (.pldmRequestUpdate p) s = .next t ∧ Within ⟨[.fw], fun _ => False⟩ s t) ∧
  (∀ (s : State) (p : HostPort), ∃ t, exec (.pldmPassComponentTable p) s = .next t ∧ Within ⟨[.fw], fun _ => False⟩ s t) ∧
  (∀ (s : State) (p : HostPort) (size : Nat), ∃ t, exec (.pldmUpdateComponent p size) s = .next t ∧
    Within ⟨[.slots, .fw], fun k => (∃ n, k = Obj.slotDictVersion n) ∨ (∃ n, k = Obj.slotFwVersion n) ∨ (∃ n, k = Obj.slotManifestHash n) ∨
      (∃ n, k = Obj.slotRejectReason n) ∨ (∃ n, k = Obj.slotState n) ∨ (∃ n, k = Obj.slotSvn n)⟩ s t) ∧
  (∀ (s : State) (p : HostPort) (off : Nat) (data : Bytes), ∃ t, exec (.pldmFirmwareData p off data) s = .next t ∧
    Within ⟨[.slots, .fw], fun k => (∃ n, k = Obj.slotDictVersion n) ∨ (∃ n, k = Obj.slotFwVersion n) ∨ (∃ n, k = Obj.slotManifestHash n) ∨
      (∃ n, k = Obj.slotRejectReason n) ∨ (∃ n, k = Obj.slotState n) ∨ (∃ n, k = Obj.slotSvn n)⟩ s t) ∧
  (∀ (s : State) (p : HostPort), ∃ t, exec (.pldmGetStatus p) s = .next t ∧ Within ⟨[], fun _ => False⟩ s t) ∧
  (∀ (s : State) (p : HostPort), ∃ t, exec (.pldmCancelUpdateComponent p) s = .next t ∧
    Within ⟨[.fw], fun k => (∃ n, k = Obj.slotDictVersion n) ∨ (∃ n, k = Obj.slotFwVersion n) ∨ (∃ n, k = Obj.slotManifestHash n) ∨
      (∃ n, k = Obj.slotState n) ∨ (∃ n, k = Obj.slotSvn n)⟩ s t) ∧
  (∀ (s : State) (p : HostPort), ∃ t, exec (.pldmCancelUpdate p) s = .next t ∧
    Within ⟨[.fw], fun k => (∃ n, k = Obj.slotDictVersion n) ∨ (∃ n, k = Obj.slotFwVersion n) ∨ (∃ n, k = Obj.slotManifestHash n) ∨
      (∃ n, k = Obj.slotState n) ∨ (∃ n, k = Obj.slotSvn n)⟩ s t) ∧
  (∀ (s : State) (p : HostPort), ∃ t, exec (.pldmActivateFirmware p) s = .next t ∧ Within ⟨[], fun _ => False⟩ s t) ∧
  (∀ (s : State) (p : HostPort), ∃ t, exec (.spdmGetCertificate p) s = .next t ∧ Within ⟨[], fun _ => False⟩ s t) ∧
  (∀ (s : State) (p : HostPort), ∃ t, exec (.spdmChallenge p) s = .next t ∧ Within ⟨[.free], fun _ => False⟩ s t) ∧
  (∀ (s : State) (p : HostPort), ∃ t, exec (.spdmGetMeasurements p) s = .next t ∧ Within ⟨[.free], fun _ => False⟩ s t) ∧
  (∀ (s : State) (p : HostPort), ∃ t, exec (.spdmKeyExchange p) s = .next t ∧ Within ⟨[.fw, .free], fun _ => False⟩ s t) ∧
  (∀ (s : State) (p : HostPort), ∃ t, exec (.spdmHeartbeat p) s = .next t ∧ Within ⟨[.fw], fun _ => False⟩ s t) ∧
  (∀ (s : State) (p : HostPort) (op : Fin 3) (key : Bytes), ∃ t, exec (.ideKm p op key) s = .next t ∧
    Within ⟨[.fw], fun k => (∃ n, k = Obj.ideState n)⟩ s t) ∧
  (∀ (s : State) (p : HostPort), ∃ t, exec (.ideStopped p) s = .next t ∧ Within ⟨[], fun k => (∃ n, k = Obj.ideState n)⟩ s t) ∧
  (∀ (s : State) (p : HostPort) (nonce : Bytes), ∃ t, exec (.dualReport p nonce) s = .next t ∧
    Within ⟨[.fw, .start, .free], fun k => k ∈ [Obj.attReports, Obj.lmsRemaining]⟩ s t) ∧
  (∀ (s : State) (p : HostPort), ∃ t, exec (.vendorTestNonce p) s = .next t ∧ Within ⟨[.fw, .free], fun _ => False⟩ s t) ∧
  (∀ (s : State) (p : HostPort) (token : Bytes), ∃ t, exec (.vendorTestUnlock p token) s = .next t ∧
    Within ⟨[.staged, .upd, .mem, .tier, .zones, .store, .fw], fun _ => True⟩ s t) ∧
  (∀ (s : State), ∃ t, exec (.trayReadyDeassert) s = .next t ∧
    Within ⟨[.link, .coll, .tier, .power, .clock, .cross, .start], fun k => k ∈ [Obj.collBytesTx, Obj.collResends, Obj.duty, Obj.opInForce,
      Obj.parks, Obj.powerState, Obj.remapCount, Obj.vtrimMv] ∨ (∃ n, k = Obj.flitsTx n) ∨ (∃ n, k = Obj.idResult n) ∨
      (∃ n, k = Obj.logicalPlane n) ∨ (∃ n, k = Obj.planePort n) ∨ (∃ n, k = Obj.portPowerState n) ∨ (∃ n, k = Obj.portState n)⟩ s t) ∧
  (∀ (s : State), ∃ t, exec (.trayReadyAssert) s = .next t ∧
    Within ⟨[.link, .coll, .tier, .power, .clock, .cross, .start], fun k => k ∈ [Obj.collBytesTx, Obj.collResends, Obj.duty, Obj.opInForce,
      Obj.parks, Obj.powerState, Obj.remapCount, Obj.vtrimMv] ∨ (∃ n, k = Obj.flitsTx n) ∨ (∃ n, k = Obj.idResult n) ∨
      (∃ n, k = Obj.logicalPlane n) ∨ (∃ n, k = Obj.planePort n) ∨ (∃ n, k = Obj.portPowerState n) ∨ (∃ n, k = Obj.portState n)⟩ s t) ∧
  (∀ (s : State), ∃ t, exec (.modReset) s = .next t ∧
    Within ⟨[.staged, .prep, .bar0, .cmd, .scratch, .castMem, .tile, .spans, .touches, .upd, .link, .coll, .mem, .tier, .store, .power, .clock,
      .cross, .fw, .start, .mirror], fun _ => True⟩ s t) ∧
  (∀ (s : State) (p : HostPort), ∃ t, exec (.perstAssert p) s = .next t ∧
    Within ⟨[.prep, .bar0, .cmd, .castMem, .tile, .spans, .upd, .link, .coll, .tier, .store, .cross, .fw, .start], fun k => k ∈ [Obj.actMode,
      Obj.actStep, Obj.collBytesTx, Obj.collMismatchCycles, Obj.groupState, Obj.prepEpoch, Obj.prepStep, Obj.sparePages, Obj.t1PoolPages,
      Obj.tmDiscards, Obj.tmEvictions, Obj.tmWaitCycles] ∨ (∃ n, k = Obj.chRetired n) ∨ (∃ n, k = Obj.decState n) ∨ (∃ n, k = Obj.flitsTx n) ∨
      (∃ n, k = Obj.ideState n) ∨ (∃ n, k = lenderKey n) ∨ (∃ n, k = Obj.linkRate n) ∨ (∃ n, k = Obj.linkState n) ∨ (∃ n, k = Obj.linkWidth n)⟩ s t) ∧
  (∀ (s : State) (p : HostPort), ∃ t, exec (.perstRelease p) s = .next t ∧ Within ⟨[.start], fun k => (∃ n, k = Obj.linkState n)⟩ s t) ∧
  (∀ (s : State) (v : Fin 64), ∃ t, exec (.slotIdSample v) s = .next t ∧ Within ⟨[.start], fun k => k = Obj.fldNode⟩ s t) ∧
  (∀ (s : State) (bad : List Nat), ∃ t, exec (.startupStageDone bad) s = .next t ∧
    Within ⟨[.staged, .prep, .bar0, .cmd, .scratch, .castMem, .tile, .spans, .touches, .upd, .link, .coll, .mem, .tier, .store, .power, .clock,
      .cross, .fw, .start, .mirror], fun _ => True⟩ s t) ∧
  (∀ (s : State) (reason : Nat), ∃ t, exec (.startupStageFault reason) s = .next t ∧
    Within ⟨[.staged, .prep, .bar0, .cmd, .scratch, .castMem, .tile, .spans, .touches, .upd, .link, .coll, .mem, .tier, .store, .power, .clock,
      .cross, .fw, .start, .mirror], fun _ => True⟩ s t) ∧
  (∀ (s : State), ∃ t, exec (.startupRetry) s = .next t ∧ Within ⟨[.start], fun k => k = Obj.moduleState⟩ s t) ∧
  (∀ (s : State) (p : HostPort), ∃ t, exec (.hostLinkDown p) s = .next t ∧
    Within ⟨[.prep, .bar0, .cmd, .castMem, .tile, .spans, .upd, .link, .coll, .tier, .store, .cross, .fw, .start], fun k => k ∈ [Obj.actMode,
      Obj.actStep, Obj.collBytesTx, Obj.collMismatchCycles, Obj.groupState, Obj.prepEpoch, Obj.prepStep, Obj.sparePages, Obj.t1PoolPages,
      Obj.tmDiscards, Obj.tmEvictions, Obj.tmWaitCycles] ∨ (∃ n, k = Obj.chRetired n) ∨ (∃ n, k = Obj.decState n) ∨ (∃ n, k = Obj.flitsTx n) ∨
      (∃ n, k = Obj.ideState n) ∨ (∃ n, k = lenderKey n) ∨ (∃ n, k = Obj.linkRate n) ∨ (∃ n, k = Obj.linkState n) ∨ (∃ n, k = Obj.linkWidth n)⟩ s t) ∧
  (∀ (s : State) (p : HostPort) (rate : Nat) (width : Nat), ∃ t, exec (.hostLinkUp p rate width) s = .next t ∧
    Within ⟨[], fun k => (∃ n, k = Obj.linkRate n) ∨ (∃ n, k = Obj.linkState n) ∨ (∃ n, k = Obj.linkWidth n)⟩ s t) ∧
  (∀ (s : State), ∃ t, exec (.modResetRelease) s = .next t ∧
    Within ⟨[.start], fun k => k ∈ [Obj.moduleState, Obj.retiredCount] ∨ (∃ n, k = Obj.retiredCol n)⟩ s t) ∧
  (∀ (s : State) (p : HostPort) (n : Nat), ∃ t, exec (.doeDiscovery p n) s = .next t ∧ Within ⟨[], fun _ => False⟩ s t) ∧
  (∀ (s : State) (p : HostPort), ∃ t, exec (.spdmGetVersion p) s = .next t ∧ Within ⟨[.fw], fun _ => False⟩ s t) ∧
  (∀ (s : State) (p : HostPort), ∃ t, exec (.spdmGetCapabilities p) s = .next t ∧ Within ⟨[.fw], fun _ => False⟩ s t) ∧
  (∀ (s : State) (p : HostPort), ∃ t, exec (.spdmNegotiateAlgorithms p) s = .next t ∧ Within ⟨[.fw], fun _ => False⟩ s t) ∧
  (∀ (s : State) (p : HostPort), ∃ t, exec (.spdmGetDigests p) s = .next t ∧ Within ⟨[], fun _ => False⟩ s t) ∧
  (∀ (s : State) (p : HostPort), ∃ t, exec (.spdmFinish p) s = .next t ∧ Within ⟨[.fw], fun _ => False⟩ s t) ∧
  (∀ (s : State) (p : HostPort), ∃ t, exec (.spdmEndSession p) s = .next t ∧ Within ⟨[.fw], fun _ => False⟩ s t) ∧
  (∀ (s : State) (p : HostPort), ∃ t, exec (.spdmHeartbeatTimeout p) s = .next t ∧ Within ⟨[.fw], fun _ => False⟩ s t)

/-- A step runs the command at the front of the queue. With no command waiting a step is one drone tick of standby power: the model's choice (DESIGN CHOICE, log entry 1). -/
def Obligations.StepRunsFrontCommand : Prop :=
  (∀ (c : Instr) (l : List Instr) (s : State), s.pending = c :: l → step s = exec c { s with pending := l }) ∧
  (∀ s : State, s.pending = [] → step s = .next (if s.standby then { s with now := s.now + 1 } else s))

/-- A dual-clock queue never overflows, underflows, reorders, drops or repeats an entry, whatever the two clocks do (R392). That an entry is shown after three cycles, within the four of R393, is the model's reading (DEDUCED, log entry 129). -/
def Obligations.QueueBetweenClocksKeepsOrder : Prop :=
  ∀ l : List DcqEvent, ∃ (d : Dcq) (taken put : List Nat), l.foldl Dcq.event (Dcq.reset, [], []) = (d, taken, put) ∧
    d.ents.length ≤ 16 ∧ d.credits + d.ents.length ≤ 16 ∧ put = taken ++ d.ents ∧ (d.ready = true → d.ents ≠ []) ∧
    (∃ i < 5, d.wr ^^^ grayNext d.wr = 2 ^ i) ∧ (∃ i < 5, d.rd ^^^ grayNext d.rd = 2 ^ i) ∧
    (d.ents ≠ [] → d.rxClock.rxClock.rxClock.ready = true) ∧
    d.txClock.txClock.txClock.credits + d.ents.length = 16

/-- Reset: every object at its default, no memory listed, nothing waiting. The defaults that the spec leaves to the factory or does not state, and that an unwritten byte reads 0, are the model's choices (DESIGN CHOICE, log entries 2, 3 and 11). -/
def Obligations.ResetState : Prop :=
  State.reset.pending = [] ∧ State.reset.standby = false ∧ (∀ k, State.reset.rd k = objDflt k) ∧
  (∀ a, State.reset.tile.scratch.get 0 a = 0 ∧ State.reset.tier.mem.get 0 a = 0 ∧ State.reset.store.zones.get 0 a = 0) ∧
  (∀ w, (State.reset.win w).owner = none ∧ (State.reset.win w).state = .closed ∧ (State.reset.win w).queue = []) ∧ State.reset.Form

/-- Every step goes on and keeps the form of the state -/
def Obligations.StepKeepsForm : Prop :=
  ∀ s : State, s.Form → ∃ t, step s = .next t ∧ t.Form ∧ (∀ c l, s.pending = c :: l → t.pending = l) ∧ (s.pending = [] → t.pending = [])

/-- No conversion makes a negative zero, and the negative-zero code reads as zero -/
def Obligations.ZeroHasOneCode : Prop :=
  ∀ f : Fmt, f.isFloat = true →
    (decodeFloat f (2 ^ (f.bits - 1))).isZero = true ∧
    (∀ v, (toFloat f v).1 ≠ 2 ^ (f.bits - 1) ∧ ((decodeFloat f (toFloat f v).1).isZero = true → (toFloat f v).1 = 0)) ∧
    (∀ r v, (toFloatSR f r v).1 ≠ 2 ^ (f.bits - 1) ∧ ((decodeFloat f (toFloatSR f r v).1).isZero = true → (toFloatSR f r v).1 = 0)) ∧
    (∀ s o, (convScalar f s o).1 ≠ 2 ^ (f.bits - 1) ∧ ((decodeFloat f (convScalar f s o).1).isZero = true → (convScalar f s o).1 = 0)) ∧
    (∀ s xs, ∀ c ∈ (convBlock f s xs).2, c.1 ≠ 2 ^ (f.bits - 1) ∧ ((decodeFloat f c.1).isZero = true → c.1 = 0))

/-- A value beyond the largest finite one becomes that one, and never NaN -/
def Obligations.OverflowSaturates : Prop :=
  (∀ (f : Fmt) (x : Ex) (b : Int), f.isFloat = true → x.d ≠ 0 → x.isZero = false → b = max x.log2 (1 - f.bias) →
    (f.maxMag.lt (.dy (x.roundAbs (b - f.frac)) (b - f.frac)) = true →
      toFloat f (.fin x) = ((if x.isNeg then 2 ^ (f.bits - 1) else 0) + f.maxCode, .saturation)) ∧
    (∀ r, f.maxMag.lt (.dy ((x.floorAbs (b - f.frac - 16) + r) / 65536 : Nat) (b - f.frac)) = true →
      toFloatSR f r (.fin x) = ((if x.isNeg then 2 ^ (f.bits - 1) else 0) + f.maxCode, .saturation)) ∧
    ∃ y, decodeFloat f ((if x.isNeg then 2 ^ (f.bits - 1) else 0) + f.maxCode) = .fin y ∧ y.eq (if x.isNeg then f.maxMag.neg else f.maxMag) = true) ∧
  (∀ (f : Fmt) (x : Ex) (r : Nat), f.isFloat = true →
    (decodeFloat f (toFloat f (.fin x)).1).isNan = false ∧ (decodeFloat f (toFloatSR f r (.fin x)).1).isNan = false) ∧
  (∀ (f : Fmt) (y : Ex), f = .a8 ∧ 127 < y.roundAbs 0 ∨ f = .w2 ∧ f.maxMag.lt y.abs = true ∨ f = .t1 ∧ f.maxMag.lt y.abs = true → y.d ≠ 0 →
    (toElem f (.fin y)).2 = .saturation ∧ (decodeCode f (toElem f (.fin y)).1).ex.eq (if y.isNeg then f.maxMag.neg else f.maxMag) = true)

/-- Converters make A8 codes from -127 to 127, and the matrix engine reads 0x80 as -128 -/
def Obligations.IntegerCodesOfA8 : Prop :=
  (∀ (s : Val) (xs : List OutVal), ∀ c ∈ (convBlock .a8 s xs).2, c.1 < 256 ∧ c.1 ≠ 0x80 ∧ -127 ≤ intForm .a8 c.1 ∧ intForm .a8 c.1 ≤ 127) ∧
  intForm .a8 0x80 = -128

/-- Decoding a float code and converting it back gives the code and counts nothing -/
def Obligations.CodesRoundTrip : Prop :=
  ∀ (f : Fmt) (c : Nat), f.isFloat = true → c < 2 ^ f.bits →
    (c ≠ 2 ^ (f.bits - 1) → (decodeFloat f c).isNan = false → toFloat f (decodeFloat f c) = (c, .none)) ∧
    ((decodeFloat f c).isNan = true → toFloat f (decodeFloat f c) = (f.nanCode, .nonfinite))

/-- Each epoch of the sample shuffle is a permutation of the samples (R283: "Each epoch is a permutation of 0 to n − 1"). -/
def Obligations.ShuffleIsAPermutation : Prop :=
  ∀ n seed ep : Nat, 1 ≤ n → n < 2 ^ 32 →
    (∀ i, i < n → sampleOf (ep * n + i) n seed < n) ∧
    (∀ i j, i < n → j < n → sampleOf (ep * n + i) n seed = sampleOf (ep * n + j) n seed → i = j)

end
end

