-- ==== Sys2Proof/Laws/Runs.lean ====
section
/-! SUPPORT. Laws of the operations through which the commands on records run: with the record in place the command has its effect, and in every
case it goes on. -/
namespace Sys2Proof.Machine
set_option Elab.async false

variable {s : State} {w : Fin 8} {q : Nat} {e : QEntry}

/-- A unit's command on its record in place has its effect. -/
theorem onUnit_runs {kind op : Nat} {f : QEntry → State} (he : s.entry w q = some e) (hd : e.disp = true) (hu : e.unit = false)
    (hs : e.skip = false) (hk : Rec.kind e.raw = kind) (ho : Rec.op e.raw = op) : onUnit w q kind op s f = .next (f e) := by
  simp [onUnit, he, hd, hu, hs, hk, ho]

/-- Else it changes nothing: what a unit's command answers is one of the two. -/
theorem onUnit_cases (w : Fin 8) (q kind op : Nat) (s : State) (f : QEntry → State) :
    onUnit w q kind op s f = .next s ∨
    ∃ e, s.entry w q = some e ∧ e.disp = true ∧ e.unit = false ∧ e.skip = false ∧ Rec.kind e.raw = kind ∧ Rec.op e.raw = op ∧
      onUnit w q kind op s f = .next (f e) := by
  unfold onUnit
  split
  · next e he =>
    split
    · next hc => exact .inr ⟨e, he, hc.1, by simpa using hc.2.1, by simpa using hc.2.2.1, hc.2.2.2.1, hc.2.2.2.2, rfl⟩
    · exact .inl rfl
  · exact .inl rfl

theorem onUnit_next (w : Fin 8) (q kind op : Nat) (s : State) (f : QEntry → State) : ∃ t, onUnit w q kind op s f = .next t := by
  rcases onUnit_cases w q kind op s f with h | ⟨e, h⟩
  · exact ⟨_, h⟩
  · exact ⟨_, h.2.2.2.2.2.2⟩

/-- A collective's command on its record in place has its effect once its epoch is in force. -/
theorem onColl_runs {op : Nat} {f : State → QEntry → State} (he : s.entry w q = some e) (hd : e.disp = true) (hu : e.unit = false)
    (hs : e.skip = false) (hk : Rec.kind e.raw = 6) (ho : Rec.op e.raw = op) (hg : (s.epochWait (e.step.getD 0)).2 = true) :
    onColl w q op s f = .next (f (s.epochWait (e.step.getD 0)).1 e) := by
  rw [onColl, onUnit_runs he hd hu hs hk ho]
  simp [hg]

theorem onColl_next (w : Fin 8) (q op : Nat) (s : State) (f : State → QEntry → State) : ∃ t, onColl w q op s f = .next t := onUnit_next w q 6 op s _

theorem onKind_runs {kind : Nat} {f : QEntry → State} (he : s.entry w q = some e) (hd : e.disp = true) (hu : e.unit = false)
    (hk : Rec.kind e.raw = kind) : onKind w q kind s f = .next (f e) := by
  simp [onKind, he, hd, hu, hk]

theorem onKind_next (w : Fin 8) (q kind : Nat) (s : State) (f : QEntry → State) : ∃ t, onKind w q kind s f = .next t := by
  unfold onKind
  repeat' split
  all_goals exact ⟨_, rfl⟩

/-- A cast control record in place has its effect, unless it is to be skipped, and is done. -/
theorem onSeq_runs {kind : Nat} {op : Rec → Bool} {f : QEntry → State} (he : s.entry w q = some e) (hd : e.disp = true) (hu : e.unit = false)
    (hk : Rec.kind e.raw = kind) (ho : op e.raw = true) :
    onSeq w q kind op s f = .next ((if e.skip then s else f e).updEntry w q fun e => { e with unit := true }) := by
  simp [onSeq, he, hd, hu, hk, ho]

theorem onSeq_next (w : Fin 8) (q kind : Nat) (op : Rec → Bool) (s : State) (f : QEntry → State) : ∃ t, onSeq w q kind op s f = .next t := by
  unfold onSeq
  repeat' split
  all_goals exact ⟨_, rfl⟩

/-- A semaphore or barrier record has its effect in a tile where it may run and has not. -/
theorem onSync_runs {t : Fin 192} {op : Nat} {f : QEntry → Sy → State} (he : s.entry w q = some e) (hk : Rec.kind e.raw = 4)
    (ho : (syOf e.raw).op = op) (hm : s.mayRun w e t = true) (ha : s.arrayOn = true) (hs : e.skip = false) (hr : (s.share w q t).ran = false) :
    onSync w q t op s f = .next (f e (syOf e.raw)) := by
  simp [onSync, he, hk, ho, hm, ha, hs, hr]

theorem onSync_next (w : Fin 8) (q : Nat) (t : Fin 192) (op : Nat) (s : State) (f : QEntry → Sy → State) : ∃ v, onSync w q t op s f = .next v := by
  unfold onSync
  repeat' split
  all_goals exact ⟨_, rfl⟩

/-- A vector record in place has its effect as a part of its step. -/
theorem onVector_runs {kind : Nat} {f : State → QEntry → State} (he : s.entry w q = some e) (hk : Rec.kind e.raw = 2)
    (hv : (vxOf e.raw).kind = kind) (ha : s.arrayOn = true) : onVector w q kind s f = .next (s.inStep e.step fun s => f s e) := by
  simp [onVector, he, hk, hv, ha]

theorem onVector_next (w : Fin 8) (q kind : Nat) (s : State) (f : State → QEntry → State) : ∃ t, onVector w q kind s f = .next t := by
  unfold onVector
  repeat' split
  all_goals exact ⟨_, rfl⟩

/-- Over a host port whose link is up a command has its effect. -/
theorem onPort_runs {p : HostPort} {f : State → State} (h : s.linkUp p = true) : onPort p s f = .next (f s) := by simp [onPort, h]

theorem onPort_next (p : HostPort) (s : State) (f : State → State) : ∃ t, onPort p s f = .next t := by
  unfold onPort
  split <;> exact ⟨_, rfl⟩

end Sys2Proof.Machine
end

