-- ==== Sys2Proof/Laws/Tab.lean ====
section
/-! SUPPORT. Laws of the sparse tables: every operation keeps the canonical form, a read after a write gives what was written, and a write
leaves every other key alone. -/
namespace Sys2Proof.Machine
set_option Elab.async false

variable {α : Type}

/-! ### Lookup -/

@[simp] theorem Tab.find_nil (k : Nat) : Tab.find ([] : Tab α) k = none := rfl

@[simp] theorem Tab.find_insert_self (m : Tab α) (k : Nat) (v : α) : (m.insert k v).find k = some v := by
  induction m with
  | nil => simp [Tab.insert, Tab.find]
  | cons e m ih =>
    obtain ⟨j, w⟩ := e
    simp only [Tab.insert]
    split
    · simp [Tab.find]
    · split
      · simp [Tab.find]
      · simp_all [Tab.find]

theorem Tab.find_insert_ne {m : Tab α} {k l : Nat} (v : α) (h : l ≠ k) : (m.insert k v).find l = m.find l := by
  induction m with
  | nil => simp [Tab.insert, Tab.find, h.symm]
  | cons e m ih =>
    obtain ⟨j, w⟩ := e
    simp only [Tab.insert]
    split
    · subst j
      simp [Tab.find, h.symm]
    · split
      · simp [Tab.find, h.symm]
      · simp [Tab.find, ih]

/-- Keeping entries by their keys keeps what is found at the keys kept, and nothing at the others. -/
theorem Tab.find_filter (m : Tab α) (p : Nat → Bool) (k : Nat) :
    Tab.find (List.filter (fun e => p e.1) m) k = if p k then m.find k else none := by
  induction m with
  | nil => simp [Tab.find]
  | cons e m ih =>
    obtain ⟨j, w⟩ := e
    simp only [List.filter_cons, Tab.find]
    by_cases hk : j = k
    · subst j
      by_cases hp : p k = true
      · simp [hp, Tab.find]
      · simp [hp, ih]
    · by_cases hp : p j = true
      · simp [hp, hk, Tab.find, ih]
      · simp [hp, hk, ih]

@[simp] theorem Tab.find_erase_self (m : Tab α) (k : Nat) : (m.erase k).find k = none := by
  have := Tab.find_filter m (fun j => decide (j ≠ k)) k
  simpa [Tab.erase] using this

theorem Tab.find_erase_ne {m : Tab α} {k l : Nat} (hl : l ≠ k) : (m.erase k).find l = m.find l := by
  have := Tab.find_filter m (fun j => decide (j ≠ k)) l
  simpa [Tab.erase, hl] using this

/-- A read after a write to the same key gives the value written. -/
@[simp] theorem Tab.get_set_self [DecidableEq α] (d : α) (m : Tab α) (k : Nat) (v : α) : (m.set d k v).get d k = v := by
  unfold Tab.set
  split
  · next hv => simp [Tab.get, hv]
  · simp [Tab.get]

/-- A write leaves every other key alone. -/
theorem Tab.get_set_ne [DecidableEq α] (d : α) {m : Tab α} {k l : Nat} (v : α) (hl : l ≠ k) :
    (m.set d k v).get d l = m.get d l := by
  unfold Tab.set
  split
  · simp [Tab.get, Tab.find_erase_ne hl]
  · simp [Tab.get, Tab.find_insert_ne v hl]

/-! ### Entries -/

theorem Tab.mem_insert {m : Tab α} {k : Nat} {v : α} {e : Nat × α} (h : e ∈ m.insert k v) : e = (k, v) ∨ e ∈ m := by
  induction m with
  | nil => simpa [Tab.insert] using h
  | cons c m ih =>
    obtain ⟨j, w⟩ := c
    simp only [Tab.insert] at h
    split at h
    · simp only [List.mem_cons] at h ⊢
      tauto
    · split at h
      · simp only [List.mem_cons] at h ⊢
        tauto
      · simp only [List.mem_cons] at h ⊢
        rcases h with h | h
        · exact .inr (.inl h)
        · rcases ih h with h | h
          · exact .inl h
          · exact .inr (.inr h)

theorem Tab.erase_sublist (m : Tab α) (k : Nat) : (m.erase k).Sublist m := List.filter_sublist

theorem Tab.mem_erase {m : Tab α} {k : Nat} {e : Nat × α} (h : e ∈ m.erase k) : e ∈ m := (Tab.erase_sublist m k).subset h

theorem Tab.mem_set [DecidableEq α] {d : α} {m : Tab α} {k : Nat} {v : α} {e : Nat × α} (h : e ∈ m.set d k v) : e = (k, v) ∨ e ∈ m := by
  unfold Tab.set at h
  split at h
  · exact .inr (Tab.mem_erase h)
  · exact Tab.mem_insert h

/-- Every value a table answers is one it lists, or the default. -/
theorem Tab.get_mem (d : α) (m : Tab α) (k : Nat) : m.get d k = d ∨ ∃ e ∈ m, e.2 = m.get d k := by
  unfold Tab.get
  induction m with
  | nil => exact .inl rfl
  | cons c m ih =>
    obtain ⟨j, w⟩ := c
    simp only [Tab.find]
    split
    · exact .inr ⟨(j, w), by simp⟩
    · rcases ih with h | ⟨e, he, h⟩
      · exact .inl h
      · exact .inr ⟨e, List.mem_cons_of_mem _ he, h⟩

/-! ### The canonical form -/

theorem Tab.insert_pairwise {m : Tab α} (k : Nat) (v : α) (h : m.Pairwise (fun a b => a.1 < b.1)) :
    (m.insert k v).Pairwise (fun a b => a.1 < b.1) := by
  induction m with
  | nil => simp [Tab.insert]
  | cons c m ih =>
    obtain ⟨j, w⟩ := c
    rw [List.pairwise_cons] at h
    simp only [Tab.insert]
    split
    · subst j
      exact List.pairwise_cons.2 ⟨h.1, h.2⟩
    · split
      · next hk =>
        refine List.pairwise_cons.2 ⟨fun e he => ?_, List.pairwise_cons.2 h⟩
        rcases List.mem_cons.1 he with rfl | he
        · exact hk
        · exact Nat.lt_trans hk (h.1 e he)
      · next h1 h2 =>
        refine List.pairwise_cons.2 ⟨fun e he => ?_, ih h.2⟩
        rcases Tab.mem_insert he with rfl | he
        · exact Nat.lt_of_le_of_ne (Nat.le_of_not_lt h2) h1
        · exact h.1 e he

theorem Tab.set_wf [DecidableEq α] {d : α} {m : Tab α} (k : Nat) (v : α) (h : Tab.wf d m) : Tab.wf d (m.set d k v) := by
  refine ⟨?_, fun e he => ?_⟩
  · unfold Tab.set
    split
    · exact h.1.sublist (Tab.erase_sublist m k)
    · exact Tab.insert_pairwise k v h.1
  · unfold Tab.set at he
    split at he
    · exact h.2 e (Tab.mem_erase he)
    · rcases Tab.mem_insert he with rfl | he
      · assumption
      · exact h.2 e he

theorem Tab.upd_wf [DecidableEq α] {d : α} {m : Tab α} (k : Nat) (f : α → α) (h : Tab.wf d m) : Tab.wf d (m.upd d k f) :=
  Tab.set_wf k _ h

theorem Tab.filter_wf [DecidableEq α] {d : α} {m : Tab α} (p : Nat × α → Bool) (h : Tab.wf d m) : Tab.wf d (m.filter p) :=
  ⟨h.1.sublist List.filter_sublist, fun e he => h.2 e (List.mem_of_mem_filter he)⟩

theorem Tab.nil_wf [DecidableEq α] (d : α) : Tab.wf d ([] : Tab α) := by simp [Tab.wf]

/-- Every value mapped, the default taken out. -/
theorem Tab.map_wf [DecidableEq α] {d : α} {m : Tab α} (f : α → α) (h : Tab.wf d m) :
    Tab.wf d ((m.map fun x => (x.1, f x.2)).filter fun x => x.2 != d) :=
  ⟨List.Pairwise.sublist List.filter_sublist (List.pairwise_map.2 (h.1.imp fun hab => hab)), fun e he => by simpa using (List.mem_filter.1 he).2⟩

/-! ### Memories -/

/-- A memory write keeps the canonical form. -/
theorem memWrite_wf {m : Tab Byte} (a : Nat) (b : Bytes) (h : Tab.wf 0 m) : Tab.wf 0 (memWrite m a b) := by
  induction b generalizing m a with
  | nil => exact h
  | cons x b ih => exact ih (a + 1) (Tab.set_wf a x h)

/-- Clearing bytes keeps the canonical form. -/
theorem memClear_wf {m : Tab Byte} (a n : Nat) (h : Tab.wf 0 m) : Tab.wf 0 (memClear m a n) := Tab.filter_wf _ h

/-- A write changes no byte outside the bytes written. -/
theorem memWrite_get_outside {m : Tab Byte} {a k : Nat} (b : Bytes) (hk : k < a ∨ a + b.length ≤ k) :
    (memWrite m a b).get 0 k = m.get 0 k := by
  induction b generalizing m a with
  | nil => rfl
  | cons x b ih =>
    simp only [List.length_cons] at hk
    rw [memWrite, ih (by omega), Tab.get_set_ne 0 x (by omega)]

/-- A written byte reads as it was written. -/
theorem memWrite_get_inside {m : Tab Byte} {a i : Nat} {b : Bytes} (hi : i < b.length) :
    (memWrite m a b).get 0 (a + i) = b[i] := by
  induction b generalizing m a i with
  | nil => simp at hi
  | cons x b ih =>
    rw [memWrite]
    cases i with
    | zero =>
      rw [memWrite_get_outside b (by omega)]
      simp
    | succ i =>
      have := ih (m := m.set 0 a x) (a := a + 1) (i := i) (by simpa using hi)
      simpa [Nat.add_assoc, Nat.add_comm 1] using this

/-- Reading back the bytes written gives them. -/
theorem memRead_memWrite (m : Tab Byte) (a : Nat) (b : Bytes) : memRead (memWrite m a b) a b.length = b := by
  apply List.ext_getElem
  · simp [memRead]
  · intro i h1 h2
    simpa [memRead] using memWrite_get_inside h2

/-- Cleared bytes read 0. -/
theorem memClear_get_inside {m : Tab Byte} {a n k : Nat} (h : a ≤ k ∧ k < a + n) : (memClear m a n).get 0 k = 0 := by
  have := Tab.find_filter m (fun j => decide (j < a ∨ a + n ≤ j)) k
  simp only [show ¬ (k < a ∨ a + n ≤ k) by omega, decide_false, Bool.false_eq_true, if_false] at this
  rw [Tab.get, memClear, this, Option.getD_none]

/-- Clearing changes no other byte. -/
theorem memClear_get_outside {m : Tab Byte} {a n k : Nat} (h : k < a ∨ a + n ≤ k) : (memClear m a n).get 0 k = m.get 0 k := by
  have := Tab.find_filter m (fun j => decide (j < a ∨ a + n ≤ j)) k
  simp only [h, decide_true, if_true] at this
  rw [Tab.get, Tab.get, memClear, this]

end Sys2Proof.Machine
end

