-- ==== Sys2Proof/Laws/Within.lean ====
section
/-! SUPPORT. Laws of `Within`: it holds of a state and itself, passes through choices and folds, and holds of each update of one part. The files
beside this one prove it of every operation of the model, each with the parts that the operation may change. -/
namespace Sys2Proof.Machine
set_option Elab.async false

variable {g : Scope} {s u : State}

theorem Part.same_refl (s : State) (p : Part) : p.same s s := by cases p <;> rfl

theorem Part.same_trans {s t v : State} {p : Part} (h₁ : p.same s t) (h₂ : p.same t v) : p.same s v := by
  cases p <;> exact h₂.trans h₁

theorem Within.refl (g : Scope) (s : State) : Within g s s := ⟨rfl, fun p => .inr (p.same_refl s), id, fun _ => .inr (.inr rfl)⟩

theorem Within.trans {t : State} (h₁ : Within g s u) (h₂ : Within g u t) : Within g s t :=
  ⟨h₂.pending.trans h₁.pending,
   fun p => (h₁.same p).elim .inl fun a => (h₂.same p).elim .inl fun b => .inr (Part.same_trans a b), h₂.form ∘ h₁.form,
   fun k => (h₁.objs k).elim .inl fun a => (h₂.objs k).elim .inl fun b => .inr (a.elim .inl fun a => b.imp_right fun b => b.trans a)⟩

/-- Several parts changed at once. -/
theorem Within.many {v : State} (h : Within g s u) (hp : v.pending = u.pending) (hs : ∀ p, p ∈ g.parts ∨ Part.same u v p)
    (hf : u.Form → v.Form) (ho : v.obj = u.obj := by rfl) : Within g s v :=
  h.trans ⟨hp, hs, hf, fun k => .inr (.inr (by simp only [State.rd, ho]))⟩

/-- Fewer parts changed is within more. -/
theorem Within.mono {g' : Scope} (hg : ∀ p ∈ g.parts, p ∈ g'.parts) (hk : ∀ k, g.keys k → g'.keys k) (h : Within g s u) : Within g' s u :=
  ⟨h.pending, fun p => (h.same p).imp_left (hg p), h.form, fun k => (h.objs k).imp_left (hk k)⟩

theorem Within.ite {c : Prop} [Decidable c] {a b : State} (ha : Within g s a) (hb : Within g s b) : Within g s (if c then a else b) := by
  split <;> assumption

theorem Within.iteFst {α : Type} {c : Prop} [Decidable c] {a b : State × α} (ha : Within g s a.1) (hb : Within g s b.1) :
    Within g s (if c then a else b).1 := by split <;> assumption

theorem Within.foldlFst {α β : Type} {f : State × β → α → State × β} {l : List α} {p : State × β}
    (hf : ∀ v a, Within g s v.1 → Within g s (f v a).1) (h : Within g s p.1) : Within g s (l.foldl f p).1 := by
  induction l generalizing p with
  | nil => exact h
  | cons a l ih => exact ih (hf p a h)

theorem Within.cond {c : Bool} {a b : State} (ha : Within g s a) (hb : Within g s b) : Within g s (bif c then a else b) := by
  cases c <;> assumption

theorem Within.foldl {α : Type} {f : State → α → State} {l : List α} (hf : ∀ v a, Within g s v → Within g s (f v a))
    (h : Within g s u) : Within g s (l.foldl f u) := by
  induction l generalizing u with
  | nil => exact h
  | cons a l ih => exact ih (hf u a h)

/-- An outcome that goes on goes on within `g`. -/
def Leads (g : Scope) (s : State) (o : Host.Outcome State Fault Refusal) : Prop := ∀ t, o = .next t → Within g s t

theorem Leads.next (h : Within g s u) : Leads g s (.next u) := fun _ ht => by injection ht with ht; exact ht ▸ h

theorem Leads.ite {c : Prop} [Decidable c] {a b : Host.Outcome State Fault Refusal} (ha : Leads g s a) (hb : Leads g s b) :
    Leads g s (if c then a else b) := by split <;> assumption

/-- An answer is made of a state and more. -/
theorem Within.fst {α : Type} {v : State} {b : α} (h : Within g s v) : Within g s (v, b).1 := h

/-- The state of an answer that carries more than a state. -/
theorem Within.pair {α : Type} {p : State × α} {v : State} {b : α} (h : Within g s p.1) (e : p = (v, b)) : Within g s v := by
  rw [e] at h
  exact h

/-! ### Updates of one part -/

theorem Within.setNow {x : Nat} (hp : Part.now ∈ g.parts) (h : Within g s u) : Within g s { u with now := x } :=
  h.trans ⟨rfl, fun p => by cases p <;> first | exact .inr rfl | exact .inl hp, fun f => ⟨f.1, f.2, f.3, f.4, f.5, f.6, f.7, f.8, f.9, f.10, f.11, f.12⟩, fun _ => .inr (.inr rfl)⟩

theorem Within.setStandby {x : Bool} (hp : Part.standby ∈ g.parts) (h : Within g s u) : Within g s { u with standby := x } :=
  h.trans ⟨rfl, fun p => by cases p <;> first | exact .inr rfl | exact .inl hp, fun f => ⟨f.1, f.2, f.3, f.4, f.5, f.6, f.7, f.8, f.9, f.10, f.11, f.12⟩, fun _ => .inr (.inr rfl)⟩

theorem Within.setStaged {x : Tab Nat} (hp : Part.staged ∈ g.parts) (h : Within g s u) : Within g s { u with staged := x } :=
  h.trans ⟨rfl, fun p => by cases p <;> first | exact .inr rfl | exact .inl hp, fun f => ⟨f.1, f.2, f.3, f.4, f.5, f.6, f.7, f.8, f.9, f.10, f.11, f.12⟩, fun _ => .inr (.inr rfl)⟩

theorem Within.setPrep {x : Tab Nat} (hp : Part.prep ∈ g.parts) (h : Within g s u) : Within g s { u with prep := x } :=
  h.trans ⟨rfl, fun p => by cases p <;> first | exact .inr rfl | exact .inl hp, fun f => ⟨f.1, f.2, f.3, f.4, f.5, f.6, f.7, f.8, f.9, f.10, f.11, f.12⟩, fun _ => .inr (.inr rfl)⟩

theorem Within.setSpans {x : Tab Span} (hp : Part.spans ∈ g.parts) (h : Within g s u) : Within g s { u with spans := x } :=
  h.trans ⟨rfl, fun p => by cases p <;> first | exact .inr rfl | exact .inl hp, fun f => ⟨f.1, f.2, f.3, f.4, f.5, f.6, f.7, f.8, f.9, f.10, f.11, f.12⟩, fun _ => .inr (.inr rfl)⟩

theorem Within.setTouches {x : Nat} (hp : Part.touches ∈ g.parts) (h : Within g s u) : Within g s { u with touches := x } :=
  h.trans ⟨rfl, fun p => by cases p <;> first | exact .inr rfl | exact .inl hp, fun f => ⟨f.1, f.2, f.3, f.4, f.5, f.6, f.7, f.8, f.9, f.10, f.11, f.12⟩, fun _ => .inr (.inr rfl)⟩

theorem Within.setUpd {x : UpdState} (hp : Part.upd ∈ g.parts) (h : Within g s u) : Within g s { u with upd := x } :=
  h.trans ⟨rfl, fun p => by cases p <;> first | exact .inr rfl | exact .inl hp, fun f => ⟨f.1, f.2, f.3, f.4, f.5, f.6, f.7, f.8, f.9, f.10, f.11, f.12⟩, fun _ => .inr (.inr rfl)⟩

theorem Within.setLink {x : LinkState} (hp : Part.link ∈ g.parts) (h : Within g s u) : Within g s { u with link := x } :=
  h.trans ⟨rfl, fun p => by cases p <;> first | exact .inr rfl | exact .inl hp, fun f => ⟨f.1, f.2, f.3, f.4, f.5, f.6, f.7, f.8, f.9, f.10, f.11, f.12⟩, fun _ => .inr (.inr rfl)⟩

theorem Within.setColl {x : CollState} (hp : Part.coll ∈ g.parts) (h : Within g s u) : Within g s { u with coll := x } :=
  h.trans ⟨rfl, fun p => by cases p <;> first | exact .inr rfl | exact .inl hp, fun f => ⟨f.1, f.2, f.3, f.4, f.5, f.6, f.7, f.8, f.9, f.10, f.11, f.12⟩, fun _ => .inr (.inr rfl)⟩

theorem Within.setPower {x : PowerState} (hp : Part.power ∈ g.parts) (h : Within g s u) : Within g s { u with power := x } :=
  h.trans ⟨rfl, fun p => by cases p <;> first | exact .inr rfl | exact .inl hp, fun f => ⟨f.1, f.2, f.3, f.4, f.5, f.6, f.7, f.8, f.9, f.10, f.11, f.12⟩, fun _ => .inr (.inr rfl)⟩

theorem Within.setClock {x : ClockState} (hp : Part.clock ∈ g.parts) (h : Within g s u) : Within g s { u with clock := x } :=
  h.trans ⟨rfl, fun p => by cases p <;> first | exact .inr rfl | exact .inl hp, fun f => ⟨f.1, f.2, f.3, f.4, f.5, f.6, f.7, f.8, f.9, f.10, f.11, f.12⟩, fun _ => .inr (.inr rfl)⟩

theorem Within.setCross {x : CrossState} (hp : Part.cross ∈ g.parts) (h : Within g s u) (hx : CrossForm u.cross.queues → CrossForm x.queues) :
    Within g s { u with cross := x } :=
  h.trans ⟨rfl, fun p => by cases p <;> first | exact .inr rfl | exact .inl hp,
    fun f => ⟨f.1, f.2, f.3, f.4, f.5, f.6, f.7, f.8, f.9, f.10, f.11, hx f.12⟩, fun _ => .inr (.inr rfl)⟩

theorem Within.setStart {x : StartState} (hp : Part.start ∈ g.parts) (h : Within g s u) : Within g s { u with start := x } :=
  h.trans ⟨rfl, fun p => by cases p <;> first | exact .inr rfl | exact .inl hp, fun f => ⟨f.1, f.2, f.3, f.4, f.5, f.6, f.7, f.8, f.9, f.10, f.11, f.12⟩, fun _ => .inr (.inr rfl)⟩

theorem Within.setFree {x : Nat} (hp : Part.free ∈ g.parts) (h : Within g s u) : Within g s { u with free := x } :=
  h.trans ⟨rfl, fun p => by cases p <;> first | exact .inr rfl | exact .inl hp, fun f => ⟨f.1, f.2, f.3, f.4, f.5, f.6, f.7, f.8, f.9, f.10, f.11, f.12⟩, fun _ => .inr (.inr rfl)⟩

theorem Within.setOut {x : List Out} (h : Within g s u) : Within g s { u with out := x } :=
  h.trans ⟨rfl, fun p => by cases p <;> exact .inr rfl, fun f => ⟨f.1, f.2, f.3, f.4, f.5, f.6, f.7, f.8, f.9, f.10, f.11, f.12⟩, fun _ => .inr (.inr rfl)⟩

theorem Within.setObj {x : Tab Nat} (hx : ObjForm u.obj → ObjForm x) (hk : ∀ k, g.keys k ∨ eventKey k = true ∨ x.find k = u.obj.find k)
    (h : Within g s u) : Within g s { u with obj := x } :=
  h.trans ⟨rfl, fun p => by cases p <;> exact .inr rfl, fun f => ⟨hx f.1, f.2, f.3, f.4, f.5, f.6, f.7, f.8, f.9, f.10, f.11, f.12⟩,
    fun k => (hk k).imp_right (.imp_right fun e => by simp only [State.rd, e])⟩

/-- The windows change, each keeping at most 64 records in its queue; the command slots do not. -/
theorem Within.setCmd {x : CmdState} (hp : Part.cmd ∈ g.parts) (h : Within g s u) (hb : x.bar0 = u.cmd.bar0)
    (hq : WinsForm u.cmd.wins → WinsForm x.wins) : Within g s { u with cmd := x } :=
  h.trans ⟨rfl, fun p => by cases p <;> first | exact .inr rfl | exact .inl hp | exact .inr hb,
    fun f => ⟨f.1, hb ▸ f.2, f.3, f.4, f.5, f.6, f.7, f.8, f.9, f.10, hq f.11, f.12⟩, fun _ => .inr (.inr rfl)⟩

theorem Within.setBar0 {x : CmdState} (hp : Part.bar0 ∈ g.parts) (h : Within g s u) (hx : x = { u.cmd with bar0 := x.bar0 })
    (hw : Tab.wf 0 u.cmd.bar0 → Tab.wf 0 x.bar0) : Within g s { u with cmd := x } :=
  h.trans ⟨rfl, fun p => by cases p <;> first | exact .inr rfl | exact .inl hp | (refine .inr ?_; show _ = _; simp only; rw [hx]),
    fun f => ⟨f.1, hw f.2, f.3, f.4, f.5, f.6, f.7, f.8, f.9, f.10, (by rw [hx]; exact f.11), f.12⟩, fun _ => .inr (.inr rfl)⟩

theorem Within.setTile {x : TileState} (hp : Part.tile ∈ g.parts) (h : Within g s u) (hs : x.scratch = u.tile.scratch)
    (hc : x.castMem = u.tile.castMem) : Within g s { u with tile := x } :=
  h.trans ⟨rfl, fun p => by cases p <;> first | exact .inr rfl | exact .inl hp | exact .inr hs | exact .inr hc,
    fun f => ⟨f.1, f.2, hs ▸ f.3, hc ▸ f.4, f.5, f.6, f.7, f.8, f.9, f.10, f.11, f.12⟩, fun _ => .inr (.inr rfl)⟩

theorem Within.setScratch {x : TileState} (hp : Part.scratch ∈ g.parts) (h : Within g s u) (hx : x = { u.tile with scratch := x.scratch })
    (hw : Tab.wf 0 u.tile.scratch → Tab.wf 0 x.scratch) : Within g s { u with tile := x } :=
  h.trans ⟨rfl, fun p => by cases p <;> first | exact .inr rfl | exact .inl hp | (refine .inr ?_; show _ = _; simp only; rw [hx]),
    fun f => ⟨f.1, f.2, hw f.3, by rw [hx]; exact f.4, f.5, f.6, f.7, f.8, f.9, f.10, f.11, f.12⟩, fun _ => .inr (.inr rfl)⟩

theorem Within.setCastMem {x : TileState} (hp : Part.castMem ∈ g.parts) (h : Within g s u) (hx : x = { u.tile with castMem := x.castMem })
    (hw : Tab.wf 0 u.tile.castMem → Tab.wf 0 x.castMem) : Within g s { u with tile := x } :=
  h.trans ⟨rfl, fun p => by cases p <;> first | exact .inr rfl | exact .inl hp | (refine .inr ?_; show _ = _; simp only; rw [hx]),
    fun f => ⟨f.1, f.2, by rw [hx]; exact f.3, hw f.4, f.5, f.6, f.7, f.8, f.9, f.10, f.11, f.12⟩, fun _ => .inr (.inr rfl)⟩

theorem Within.setTier {x : TierState} (hp : Part.tier ∈ g.parts) (h : Within g s u) (hm : x.mem = u.tier.mem)
    (hl : Tab.wf 0 u.tier.lentMem → Tab.wf 0 x.lentMem) : Within g s { u with tier := x } :=
  h.trans ⟨rfl, fun p => by cases p <;> first | exact .inr rfl | exact .inl hp | exact .inr hm,
    fun f => ⟨f.1, f.2, f.3, f.4, hm ▸ f.5, hl f.6, f.7, f.8, f.9, f.10, f.11, f.12⟩, fun _ => .inr (.inr rfl)⟩

theorem Within.setMem {x : TierState} (hp : Part.mem ∈ g.parts) (h : Within g s u) (hx : x = { u.tier with mem := x.mem })
    (hw : Tab.wf 0 u.tier.mem → Tab.wf 0 x.mem) : Within g s { u with tier := x } :=
  h.trans ⟨rfl, fun p => by cases p <;> first | exact .inr rfl | exact .inl hp | (refine .inr ?_; show _ = _; simp only; rw [hx]),
    fun f => ⟨f.1, f.2, f.3, f.4, hw f.5, by rw [hx]; exact f.6, f.7, f.8, f.9, f.10, f.11, f.12⟩, fun _ => .inr (.inr rfl)⟩

theorem Within.setStore {x : StoreState} (hp : Part.store ∈ g.parts) (h : Within g s u) (hz : x.zones = u.store.zones) :
    Within g s { u with store := x } :=
  h.trans ⟨rfl, fun p => by cases p <;> first | exact .inr rfl | exact .inl hp | exact .inr hz,
    fun f => ⟨f.1, f.2, f.3, f.4, f.5, f.6, hz ▸ f.7, f.8, f.9, f.10, f.11, f.12⟩, fun _ => .inr (.inr rfl)⟩

theorem Within.setZones {x : StoreState} (hp : Part.zones ∈ g.parts) (h : Within g s u) (hx : x = { u.store with zones := x.zones })
    (hw : Tab.wf 0 u.store.zones → Tab.wf 0 x.zones) : Within g s { u with store := x } :=
  h.trans ⟨rfl, fun p => by cases p <;> first | exact .inr rfl | exact .inl hp | (refine .inr ?_; show _ = _; simp only; rw [hx]),
    fun f => ⟨f.1, f.2, f.3, f.4, f.5, f.6, hw f.7, f.8, f.9, f.10, f.11, f.12⟩, fun _ => .inr (.inr rfl)⟩

theorem Within.setFw {x : FwState} (hp : Part.fw ∈ g.parts) (h : Within g s u) (hz : x.slots = u.fw.slots) : Within g s { u with fw := x } :=
  h.trans ⟨rfl, fun p => by cases p <;> first | exact .inr rfl | exact .inl hp | exact .inr hz,
    fun f => ⟨f.1, f.2, f.3, f.4, f.5, f.6, f.7, f.8, hz ▸ f.9, f.10, f.11, f.12⟩, fun _ => .inr (.inr rfl)⟩

theorem Within.setSlots {x : FwState} (hp : Part.slots ∈ g.parts) (h : Within g s u) (hx : x = { u.fw with slots := x.slots })
    (hw : Tab.wf 0 u.fw.slots → Tab.wf 0 x.slots) : Within g s { u with fw := x } :=
  h.trans ⟨rfl, fun p => by cases p <;> first | exact .inr rfl | exact .inl hp | (refine .inr ?_; show _ = _; simp only; rw [hx]),
    fun f => ⟨f.1, f.2, f.3, f.4, f.5, f.6, f.7, f.8, hw f.9, f.10, f.11, f.12⟩, fun _ => .inr (.inr rfl)⟩

theorem Within.setDict {x : DictState} (h : Within g s u) (hm : x.mirror = u.dict.mirror)
    (hl : u.dict.log.length ≤ 4096 → x.log.length ≤ 4096) : Within g s { u with dict := x } :=
  h.trans ⟨rfl, fun p => by cases p <;> first | exact .inr rfl | exact .inr hm,
    fun f => ⟨f.1, f.2, f.3, f.4, f.5, f.6, f.7, hm ▸ f.8, f.9, hl f.10, f.11, f.12⟩, fun _ => .inr (.inr rfl)⟩

theorem Within.setMirror {x : DictState} (hp : Part.mirror ∈ g.parts) (h : Within g s u) (hw : Tab.wf 0 u.dict.mirror → Tab.wf 0 x.mirror)
    (hl : u.dict.log.length ≤ 4096 → x.log.length ≤ 4096) : Within g s { u with dict := x } :=
  h.trans ⟨rfl, fun p => by cases p <;> first | exact .inr rfl | exact .inl hp,
    fun f => ⟨f.1, f.2, f.3, f.4, f.5, f.6, f.7, hw f.8, f.9, hl f.10, f.11, f.12⟩, fun _ => .inr (.inr rfl)⟩

/-! ### Object values and windows -/

theorem ObjForm.wr {m : Tab Nat} (k v : Nat) (h : ObjForm m) : ObjForm (if v = objDflt k then m.erase k else m.insert k v) := by
  split
  · exact ⟨h.1.sublist (Tab.erase_sublist m k), fun e he => h.2 e (Tab.mem_erase he)⟩
  · refine ⟨Tab.insert_pairwise k v h.1, fun e he => ?_⟩
    rcases Tab.mem_insert he with rfl | he
    · assumption
    · exact h.2 e he

theorem find_wr {m : Tab Nat} {k v d j : Nat} (h : j ≠ k) : (if v = d then m.erase k else m.insert k v).find j = m.find j := by
  split
  · exact Tab.find_erase_ne h
  · exact Tab.find_insert_ne v h

/-- A write of an object that may change. -/
theorem State.wr_within (h : Within g s u) (k v : Nat)
    (hk : g.keys k := by first | assumption | solve_by_elim | (split <;> assumption)) : Within g s (u.wr k v) :=
  h.setObj (ObjForm.wr k v) fun j => if e : j = k then .inl (e ▸ hk) else .inr (.inr (find_wr e))

/-- A write of an object of the event records. -/
theorem State.wrEvent_within (h : Within g s u) (k v : Nat) (hk : eventKey k = true) : Within g s (u.wr k v) :=
  h.setObj (ObjForm.wr k v) fun j => if e : j = k then .inr (.inl (e ▸ hk)) else .inr (.inr (find_wr e))

theorem eventKey_flags {code : Nat} (hc : evOk code = true) : eventKey (Obj.flags (code / 256)) = true := by
  simp only [evOk, decide_eq_true_eq] at hc
  simp only [eventKey, Obj.flags, Bool.or_eq_true, decide_eq_true_eq]
  omega

theorem eventKey_occurrences {code : Nat} (hc : evOk code = true) : eventKey (Obj.occurrences (code / 256 - 1) (code % 256)) = true := by
  simp only [evOk, decide_eq_true_eq] at hc
  simp only [eventKey, Obj.occurrences, Bool.or_eq_true, decide_eq_true_eq]
  omega

/-- No window's queue holds more than 64 records. -/
theorem State.Form.queue (f : u.Form) (v : Nat) : (u.win v).queue.length ≤ 64 := by
  rcases Tab.get_mem Window.reset u.cmd.wins v with h | ⟨e, he, h⟩
  · simp only [State.win, h]
    decide
  · simp only [State.win, ← h]
    exact f.wins.2 e he

/-- A window reads as it was stored. -/
@[simp] theorem State.win_setWin (u : State) (w : Nat) (x : Window) : (u.setWin w x).win w = x := Tab.get_set_self Window.reset _ w x

@[simp] theorem State.win_updWin (u : State) (w : Nat) (k : Window → Window) : (u.updWin w k).win w = k (u.win w) := State.win_setWin u w _

/-- A window is stored with at most 64 records in its queue, as far as the form held where it all began. -/
theorem State.setWin_within_from (hp : Part.cmd ∈ g.parts) (h : Within g s u) (w : Nat) (x : Window)
    (hx : s.Form → x.queue.length ≤ 64) : Within g s (u.setWin w x) :=
  ⟨h.pending, fun p => (h.same p).elim .inl fun k => by cases p <;> first | exact .inr k | exact .inl hp, fun fs => by
    have f := h.form fs
    exact ⟨f.1, f.2, f.3, f.4, f.5, f.6, f.7, f.8, f.9, f.10, ⟨Tab.set_wf w x f.wins.1, fun e he => by
      rcases Tab.mem_set he with rfl | he
      · exact hx fs
      · exact f.wins.2 e he⟩, f.cross⟩, h.objs⟩

/-- A window is stored with at most 64 records in its queue. -/
theorem State.setWin_within (hp : Part.cmd ∈ g.parts) (h : Within g s u) (w : Nat) (x : Window)
    (hx : u.Form → x.queue.length ≤ 64) : Within g s (u.setWin w x) := State.setWin_within_from hp h w x (hx ∘ h.form)

theorem State.updWin_within (hp : Part.cmd ∈ g.parts) (h : Within g s u) (w : Nat) (f : Window → Window)
    (hf : ∀ x, x.queue.length ≤ 64 → (f x).queue.length ≤ 64) : Within g s (u.updWin w f) :=
  State.setWin_within hp h w _ fun k => hf _ (k.queue w)

/-- An audit restarts with every record kept. -/
theorem Window.restartAudit_length (x : Window) : x.restartAudit.queue.length = x.queue.length := List.length_map _

/-! ### Crossings (R392, R393) -/

/-- A queue at rest is one of 32, by the number its pointers stand for. -/
theorem Dcq.atRest_iff (d : Dcq) : d.atRest = true ↔
    ∃ n < 32, d = { wr := gray n, rd := gray n, wrSync := [gray n, gray n, gray n], rdSync := [gray n, gray n, gray n]
                    credits := 16, ents := [], elastic := [] } := by
  constructor
  · intro h
    obtain ⟨a, b, c, e, k, l, m⟩ := d
    simp only [Dcq.atRest, Bool.and_eq_true, beq_iff_eq, decide_eq_true_eq] at h
    obtain ⟨⟨⟨⟨⟨⟨rfl, rfl⟩, rfl⟩, rfl⟩, hn, hg⟩, rfl⟩, rfl⟩ := h
    exact ⟨ungray a, hn, by rw [hg]⟩
  · rintro ⟨n, hn, rfl⟩
    revert n
    decide

/-- One entry passes a queue at rest, and it is at rest again with both pointers one further (R393). -/
theorem Dcq.pass_at {n : Nat} (h : n < 32) (v : Nat) :
    ({ wr := gray n, rd := gray n, wrSync := [gray n, gray n, gray n], rdSync := [gray n, gray n, gray n]
       credits := 16, ents := [], elastic := [] } : Dcq).pass v =
    { wr := gray ((n + 1) % 32), rd := gray ((n + 1) % 32), wrSync := List.replicate 3 (gray ((n + 1) % 32))
      rdSync := List.replicate 3 (gray ((n + 1) % 32)), credits := 16, ents := [], elastic := [] } := by
  have key : ∀ n < 32, grayNext (gray n) = gray ((n + 1) % 32) ∧ gray ((n + 1) % 32) ≠ gray n ∧
      (ungray (gray ((n + 1) % 32)) + 32 - ungray (gray n)) % 32 = 1 := by decide
  obtain ⟨h1, h2, h3⟩ := key n h
  simp [Dcq.pass, Dcq.write, Dcq.rxClock, Dcq.read, Dcq.ready, Dcq.txClock, h1, h2, h3, List.replicate]

theorem Dcq.pass_atRest {d : Dcq} (h : d.atRest = true) (v : Nat) : (d.pass v).atRest = true := by
  obtain ⟨n, hn, rfl⟩ := d.atRest_iff.1 h
  rw [Dcq.pass_at hn v]
  exact (Dcq.atRest_iff _).2 ⟨(n + 1) % 32, Nat.mod_lt _ (by decide), rfl⟩

/-- The elastic queue of a link receiver is empty again as well. -/
theorem Dcq.passElastic_atRest {d : Dcq} (h : d.atRest = true) (v : Nat) : (d.passElastic v).atRest = true := by
  have hp := Dcq.pass_atRest h v
  obtain ⟨n, hn, rfl⟩ := d.atRest_iff.1 h
  exact hp

/-- A queue that a state of the module's form holds is at rest. -/
theorem CrossForm.queue {m : Tab Dcq} (h : CrossForm m) (k : Nat) : (m.get Dcq.reset k).atRest = true := by
  rcases Tab.get_mem Dcq.reset m k with e | ⟨e, he, hk⟩
  · rw [e]
    decide
  · rw [← hk]
    exact h.2 e he

theorem CrossForm.set {m : Tab Dcq} (h : CrossForm m) (k : Nat) {d : Dcq} (hd : d.atRest = true) : CrossForm (m.set Dcq.reset k d) :=
  ⟨Tab.set_wf k d h.1, fun e he => by
    rcases Tab.mem_set he with rfl | he
    · exact hd
    · exact h.2 e he⟩

end Sys2Proof.Machine
end

