-- ==== Sys2Proof/Laws/WithinOps.lean ====
section
/-! SUPPORT. What each operation of Machine/Ops.lean may change, and that it keeps the form of the state. -/
namespace Sys2Proof.Machine
set_option Elab.async false

variable {g : Scope} {s u : State}

theorem State.count_within {k : Nat} {n : Nat} (h : Within g s u) (k_key : g.keys k := by first | assumption | apply_assumption | (split <;> assumption)) :
    Within g s (State.count u k n) := by
  unfold State.count
  exact State.wr_within h _ _

theorem State.countSat_within {k : Nat} {n : Nat} (h : Within g s u) (k_key : g.keys k := by first | assumption | apply_assumption | (split <;> assumption)) :
    Within g s (State.countSat u k n) := by
  unfold State.countSat
  exact State.wr_within h _ _

theorem State.clear_within {ks : List Nat} (h : Within g s u) (k_keys : ∀ k ∈ ks, g.keys k := by assumption) :
    Within g s (State.clear u ks) := by
  unfold State.clear
  induction ks generalizing u with
  | nil => exact h
  | cons k l ih =>
    exact ih (State.wr_within h k 0 (k_keys k (List.mem_cons_self ..))) fun j hj => k_keys j (List.mem_cons_of_mem _ hj)

theorem State.wrIn_within {k : Nat} {lo : Int} {hi : Int} {v : Int} (h : Within g s u) (k_key : g.keys k := by first | assumption | apply_assumption | (split <;> assumption)) :
    Within g s (State.wrIn u k lo hi v) := by
  unfold State.wrIn
  exact State.wr_within h _ _

theorem State.emit_within {o : Out} (h : Within g s u) :
    Within g s (State.emit u o) := by
  unfold State.emit
  exact Within.setOut h

theorem State.interrupt_within {p1 : HostPort} {v : Nat} (p_cmd : Part.cmd ∈ g.parts) (h : Within g s u) :
    Within g s (State.interrupt u p1 v) := by
  unfold State.interrupt
  extract_lets +onlyGivenNames -underBinder -merge n1
  exact Within.ite (Within.setCmd p_cmd h rfl id) (by
    extract_lets +onlyGivenNames -underBinder -merge s2
    have h3 : Within g s s2 := (State.emit_within h)
    exact Within.setCmd p_cmd h3 rfl id)

theorem State.resetPort_within {p1 : HostPort} (p_cmd : Part.cmd ∈ g.parts) (h : Within g s u) :
    Within g s (State.resetPort u p1) := by
  unfold State.resetPort
  extract_lets +onlyGivenNames -underBinder -merge n1
  exact Within.setCmd p_cmd h rfl id

theorem State.announce_within {r : EventRec} (h : Within g s u) :
    Within g s (State.announce u r) := by
  unfold State.announce
  refine Within.setDict ?_ rfl id
  exact Within.foldl (fun v a hv => State.wrEvent_within (State.emit_within hv) _ _ rfl) h

theorem State.form_within {code : Nat} {ps : List Bytes} (h : Within g s u) (k_code : evOk code = true := by first | decide | assumption | (split <;> decide)) :
    Within g s (State.form u code ps) := by
  unfold State.form
  refine State.announce_within (Within.setDict (State.wrEvent_within (State.wrEvent_within h _ _ (eventKey_occurrences k_code)) _ _
    (eventKey_flags k_code)) rfl fun hl => ?_)
  simp only [List.length_append, List.length_cons, List.length_nil]
  split
  · rw [List.length_drop]
    omega
  · omega

theorem State.raise_within {code : Nat} {ps : List Bytes} (h : Within g s u) (k_code : evOk code = true := by first | decide | assumption | (split <;> decide)) :
    Within g s (State.raise u code ps) := by
  unfold State.raise
  exact Within.ite (State.form_within (Within.setDict (State.form_within h) rfl id)) (State.form_within h)

/-- An event of any code, where every object may change. -/
theorem State.formAny_within {code : Nat} {ps : List Bytes} (h : Within g s u) (k_any : ∀ k, g.keys k) : Within g s (State.form u code ps) := by
  unfold State.form
  refine State.announce_within (Within.setDict (State.wr_within (State.wr_within h _ _ (k_any _)) _ _ (k_any _)) rfl fun hl => ?_)
  simp only [List.length_append, List.length_cons, List.length_nil]
  split
  · rw [List.length_drop]
    omega
  · omega

theorem State.raiseAny_within {code : Nat} {ps : List Bytes} (h : Within g s u) (k_any : ∀ k, g.keys k) : Within g s (State.raise u code ps) := by
  unfold State.raise
  have h1 := State.formAny_within (code := code) (ps := ps) h k_any
  exact Within.ite (State.formAny_within (Within.setDict h1 rfl id) k_any) h1

theorem State.raiseOnce_within {code : Nat} {inst : Nat} {ps : List Bytes} (h : Within g s u) (k_code : evOk code = true := by first | decide | assumption | (split <;> decide)) :
    Within g s (State.raiseOnce u code inst ps) := by
  unfold State.raiseOnce
  exact Within.ite h (by
    extract_lets +onlyGivenNames -underBinder -merge s1
    have h2 : Within g s s1 := (State.raise_within h)
    exact Within.setDict h2 rfl id)

theorem State.endEpisode_within {code : Nat} {inst : Nat} (h : Within g s u) :
    Within g s (State.endEpisode u code inst) := by
  unfold State.endEpisode
  exact Within.setDict h rfl id

theorem State.raiseKept_within {code : Nat} {ps : List Bytes} (h : Within g s u) (k_code : evOk code = true := by first | decide | assumption | (split <;> decide)) :
    Within g s (State.raiseKept u code ps) := by
  unfold State.raiseKept
  extract_lets +onlyGivenNames -underBinder -merge s1
  have h2 : Within g s s1 := (State.raise_within h)
  exact Within.setDict h2 rfl id

theorem State.lifeWarn_within {item : Nat} (p_start : Part.start ∈ g.parts) (h : Within g s u) :
    Within g s (State.lifeWarn u item) := by
  unfold State.lifeWarn
  exact Within.ite h (by
    extract_lets +onlyGivenNames -underBinder -merge s1
    have h2 : Within g s s1 := (State.raise_within h)
    exact Within.setStart p_start h2)

theorem State.lifeExceed_within {item : Nat} (p_start : Part.start ∈ g.parts) (h : Within g s u) :
    Within g s (State.lifeExceed u item) := by
  unfold State.lifeExceed
  exact Within.ite h (by
    extract_lets +onlyGivenNames -underBinder -merge s1
    have h2 : Within g s s1 := (State.raise_within h)
    exact Within.setStart p_start h2)

theorem State.formRing_within {w : Nat} {ty : Nat} {status : Nat} {reason : Nat} {value : Nat} {cseq : Nat} (p_cmd : Part.cmd ∈ g.parts) (h : Within g s u) :
    Within g s (State.formRing u w ty status reason value cseq) := by
  unfold State.formRing
  exact State.updWin_within p_cmd h _ _ fun x hx => by split <;> exact hx

theorem State.formReserved_within {w : Nat} {ty : Nat} {status : Nat} {reason : Nat} {value : Nat} {cseq : Option Nat} (p_cmd : Part.cmd ∈ g.parts) (h : Within g s u) :
    Within g s (State.formReserved u w ty status reason value cseq) := by
  unfold State.formReserved
  exact Within.ite (State.raise_within (State.updWin_within p_cmd h _ _ (fun _ h => h))) (State.formRing_within p_cmd h)

theorem State.formNotice_within {w : Nat} {ty : Nat} {status : Nat} {reason : Nat} {value : Nat} (p_cmd : Part.cmd ∈ g.parts) (h : Within g s u) :
    Within g s (State.formNotice u w ty status reason value) := by
  unfold State.formNotice
  exact State.formReserved_within p_cmd h

theorem State.windowNotice_within {w : Nat} {cause : Nat} (p_cmd : Part.cmd ∈ g.parts) (h : Within g s u) :
    Within g s (State.windowNotice u w cause) := by
  unfold State.windowNotice
  exact State.formNotice_within p_cmd h

theorem State.drainWaiting_within {w : Nat} {a2 : Nat} (p_cmd : Part.cmd ∈ g.parts) (h : Within g s u) :
    Within g s (State.drainWaiting u w a2) := by
  induction a2 generalizing u with
  | zero => exact h
  | succ n ih =>
    unfold State.drainWaiting
    split
    · exact h
    · exact ih (State.updWin_within p_cmd h _ _ fun _ h => h)

theorem State.applyCredit_within {w : Nat} {cr : Nat} {valid : Bool} (p_cmd : Part.cmd ∈ g.parts) (h : Within g s u) (k_creditRange : g.keys Obj.creditRange := by assumption) :
    Within g s (State.applyCredit u w cr valid) := by
  unfold State.applyCredit
  exact Within.ite h (by
    extract_lets +onlyGivenNames -underBinder -merge n1
    exact Within.ite h (Within.ite (by
      extract_lets +onlyGivenNames -underBinder -merge s2
      have h3 : Within g s s2 := (State.setWin_within p_cmd h _ _ (fun f => f.queue _))
      exact State.drainWaiting_within p_cmd h3) (State.countSat_within (State.raise_within h))))

theorem State.haltWin_within {w : Nat} {cause : Nat} {haltCause : Nat} (p_cmd : Part.cmd ∈ g.parts) (h : Within g s u) :
    Within g s (State.haltWin u w cause haltCause) := by
  unfold State.haltWin
  extract_lets +onlyGivenNames -underBinder -merge n1
  extract_lets +onlyGivenNames -underBinder -merge s2
  have h3 : Within g s s2 := (State.updWin_within p_cmd h _ _ (fun _ h => h))
  exact Within.ite h3 (State.windowNotice_within p_cmd h3)

theorem State.updEntry_within {w : Nat} {q : Nat} {f : QEntry → QEntry} (p_cmd : Part.cmd ∈ g.parts) (h : Within g s u) :
    Within g s (State.updEntry u w q f) := by
  unfold State.updEntry
  exact State.updWin_within p_cmd h _ _ (fun _ => by simp)

theorem State.complete_within {w : Nat} {e : QEntry} (p_cmd : Part.cmd ∈ g.parts) (h : Within g s u) :
    Within g s (State.complete u w e) := by
  unfold State.complete
  exact Within.ite (State.formRing_within p_cmd h) (Within.ite h (State.formRing_within p_cmd h))

theorem State.retire_within {w : Nat} {e : QEntry} (p_cmd : Part.cmd ∈ g.parts) (h : Within g s u) :
    Within g s (State.retire u w e) := by
  unfold State.retire
  extract_lets +onlyGivenNames -underBinder -merge n1
  extract_lets +onlyGivenNames -underBinder -merge s2
  have h3 : Within g s s2 := (State.complete_within p_cmd h)
  exact State.updWin_within p_cmd h3 _ _ (fun _ h => (List.length_filter_le _ _).trans h)

theorem State.refuse_within {w : Nat} {e : QEntry} {status : Nat} {reason : Nat} (p_cmd : Part.cmd ∈ g.parts) (h : Within g s u) :
    Within g s (State.refuse u w e status reason) := by
  unfold State.refuse
  exact State.haltWin_within p_cmd (State.retire_within p_cmd h)

theorem State.unitDone_within {w : Nat} {q : Nat} {status : Nat} {reason : Nat} (p_cmd : Part.cmd ∈ g.parts) (h : Within g s u) :
    Within g s (State.unitDone u w q status reason) := by
  unfold State.unitDone
  exact State.updEntry_within p_cmd h

theorem State.turnRail_within {mv : Nat} {d : Nat} (p_power : Part.power ∈ g.parts) (h : Within g s u) :
    Within g s (State.turnRail u mv d) := by
  unfold State.turnRail
  exact Within.setPower p_power h

theorem State.setRail_within {mv : Nat} (p_power : Part.power ∈ g.parts) (h : Within g s u) :
    Within g s (State.setRail u mv) := by
  unfold State.setRail
  exact State.turnRail_within p_power h

end Sys2Proof.Machine
end

