-- ==== Sys2Proof/Laws/State.lean ====
section
/-! SUPPORT. What the shared operations leave as it is, field by field, and what they set: the lemmas by which a proof reads a state without
unfolding an update. -/
namespace Sys2Proof.Machine
set_option Elab.async false

variable (s : State)

/-! ### Fields -/

section
@[simp] theorem State.wr_pending (k v : Nat) : (s.wr k v).pending = s.pending := rfl
@[simp] theorem State.wr_now (k v : Nat) : (s.wr k v).now = s.now := rfl
@[simp] theorem State.wr_standby (k v : Nat) : (s.wr k v).standby = s.standby := rfl
@[simp] theorem State.wr_staged (k v : Nat) : (s.wr k v).staged = s.staged := rfl
@[simp] theorem State.wr_prep (k v : Nat) : (s.wr k v).prep = s.prep := rfl
@[simp] theorem State.wr_cmd (k v : Nat) : (s.wr k v).cmd = s.cmd := rfl
@[simp] theorem State.wr_tile (k v : Nat) : (s.wr k v).tile = s.tile := rfl
@[simp] theorem State.wr_spans (k v : Nat) : (s.wr k v).spans = s.spans := rfl
@[simp] theorem State.wr_touches (k v : Nat) : (s.wr k v).touches = s.touches := rfl
@[simp] theorem State.wr_upd (k v : Nat) : (s.wr k v).upd = s.upd := rfl
@[simp] theorem State.wr_link (k v : Nat) : (s.wr k v).link = s.link := rfl
@[simp] theorem State.wr_coll (k v : Nat) : (s.wr k v).coll = s.coll := rfl
@[simp] theorem State.wr_tier (k v : Nat) : (s.wr k v).tier = s.tier := rfl
@[simp] theorem State.wr_store (k v : Nat) : (s.wr k v).store = s.store := rfl
@[simp] theorem State.wr_power (k v : Nat) : (s.wr k v).power = s.power := rfl
@[simp] theorem State.wr_clock (k v : Nat) : (s.wr k v).clock = s.clock := rfl
@[simp] theorem State.wr_cross (k v : Nat) : (s.wr k v).cross = s.cross := rfl
@[simp] theorem State.wr_fw (k v : Nat) : (s.wr k v).fw = s.fw := rfl
@[simp] theorem State.wr_start (k v : Nat) : (s.wr k v).start = s.start := rfl
@[simp] theorem State.wr_dict (k v : Nat) : (s.wr k v).dict = s.dict := rfl
@[simp] theorem State.wr_free (k v : Nat) : (s.wr k v).free = s.free := rfl
@[simp] theorem State.wr_out (k v : Nat) : (s.wr k v).out = s.out := rfl
end

section
@[simp] theorem State.count_pending (k n : Nat) : (s.count k n).pending = s.pending := rfl
@[simp] theorem State.count_now (k n : Nat) : (s.count k n).now = s.now := rfl
@[simp] theorem State.count_standby (k n : Nat) : (s.count k n).standby = s.standby := rfl
@[simp] theorem State.count_staged (k n : Nat) : (s.count k n).staged = s.staged := rfl
@[simp] theorem State.count_prep (k n : Nat) : (s.count k n).prep = s.prep := rfl
@[simp] theorem State.count_cmd (k n : Nat) : (s.count k n).cmd = s.cmd := rfl
@[simp] theorem State.count_tile (k n : Nat) : (s.count k n).tile = s.tile := rfl
@[simp] theorem State.count_spans (k n : Nat) : (s.count k n).spans = s.spans := rfl
@[simp] theorem State.count_touches (k n : Nat) : (s.count k n).touches = s.touches := rfl
@[simp] theorem State.count_upd (k n : Nat) : (s.count k n).upd = s.upd := rfl
@[simp] theorem State.count_link (k n : Nat) : (s.count k n).link = s.link := rfl
@[simp] theorem State.count_coll (k n : Nat) : (s.count k n).coll = s.coll := rfl
@[simp] theorem State.count_tier (k n : Nat) : (s.count k n).tier = s.tier := rfl
@[simp] theorem State.count_store (k n : Nat) : (s.count k n).store = s.store := rfl
@[simp] theorem State.count_power (k n : Nat) : (s.count k n).power = s.power := rfl
@[simp] theorem State.count_clock (k n : Nat) : (s.count k n).clock = s.clock := rfl
@[simp] theorem State.count_cross (k n : Nat) : (s.count k n).cross = s.cross := rfl
@[simp] theorem State.count_fw (k n : Nat) : (s.count k n).fw = s.fw := rfl
@[simp] theorem State.count_start (k n : Nat) : (s.count k n).start = s.start := rfl
@[simp] theorem State.count_dict (k n : Nat) : (s.count k n).dict = s.dict := rfl
@[simp] theorem State.count_free (k n : Nat) : (s.count k n).free = s.free := rfl
@[simp] theorem State.count_out (k n : Nat) : (s.count k n).out = s.out := rfl
end

section
@[simp] theorem State.countSat_pending (k n : Nat) : (s.countSat k n).pending = s.pending := rfl
@[simp] theorem State.countSat_now (k n : Nat) : (s.countSat k n).now = s.now := rfl
@[simp] theorem State.countSat_standby (k n : Nat) : (s.countSat k n).standby = s.standby := rfl
@[simp] theorem State.countSat_staged (k n : Nat) : (s.countSat k n).staged = s.staged := rfl
@[simp] theorem State.countSat_prep (k n : Nat) : (s.countSat k n).prep = s.prep := rfl
@[simp] theorem State.countSat_cmd (k n : Nat) : (s.countSat k n).cmd = s.cmd := rfl
@[simp] theorem State.countSat_tile (k n : Nat) : (s.countSat k n).tile = s.tile := rfl
@[simp] theorem State.countSat_spans (k n : Nat) : (s.countSat k n).spans = s.spans := rfl
@[simp] theorem State.countSat_touches (k n : Nat) : (s.countSat k n).touches = s.touches := rfl
@[simp] theorem State.countSat_upd (k n : Nat) : (s.countSat k n).upd = s.upd := rfl
@[simp] theorem State.countSat_link (k n : Nat) : (s.countSat k n).link = s.link := rfl
@[simp] theorem State.countSat_coll (k n : Nat) : (s.countSat k n).coll = s.coll := rfl
@[simp] theorem State.countSat_tier (k n : Nat) : (s.countSat k n).tier = s.tier := rfl
@[simp] theorem State.countSat_store (k n : Nat) : (s.countSat k n).store = s.store := rfl
@[simp] theorem State.countSat_power (k n : Nat) : (s.countSat k n).power = s.power := rfl
@[simp] theorem State.countSat_clock (k n : Nat) : (s.countSat k n).clock = s.clock := rfl
@[simp] theorem State.countSat_cross (k n : Nat) : (s.countSat k n).cross = s.cross := rfl
@[simp] theorem State.countSat_fw (k n : Nat) : (s.countSat k n).fw = s.fw := rfl
@[simp] theorem State.countSat_start (k n : Nat) : (s.countSat k n).start = s.start := rfl
@[simp] theorem State.countSat_dict (k n : Nat) : (s.countSat k n).dict = s.dict := rfl
@[simp] theorem State.countSat_free (k n : Nat) : (s.countSat k n).free = s.free := rfl
@[simp] theorem State.countSat_out (k n : Nat) : (s.countSat k n).out = s.out := rfl
end

section
@[simp] theorem State.emit_pending (x : Out) : (s.emit x).pending = s.pending := rfl
@[simp] theorem State.emit_now (x : Out) : (s.emit x).now = s.now := rfl
@[simp] theorem State.emit_standby (x : Out) : (s.emit x).standby = s.standby := rfl
@[simp] theorem State.emit_obj (x : Out) : (s.emit x).obj = s.obj := rfl
@[simp] theorem State.emit_staged (x : Out) : (s.emit x).staged = s.staged := rfl
@[simp] theorem State.emit_prep (x : Out) : (s.emit x).prep = s.prep := rfl
@[simp] theorem State.emit_cmd (x : Out) : (s.emit x).cmd = s.cmd := rfl
@[simp] theorem State.emit_tile (x : Out) : (s.emit x).tile = s.tile := rfl
@[simp] theorem State.emit_spans (x : Out) : (s.emit x).spans = s.spans := rfl
@[simp] theorem State.emit_touches (x : Out) : (s.emit x).touches = s.touches := rfl
@[simp] theorem State.emit_upd (x : Out) : (s.emit x).upd = s.upd := rfl
@[simp] theorem State.emit_link (x : Out) : (s.emit x).link = s.link := rfl
@[simp] theorem State.emit_coll (x : Out) : (s.emit x).coll = s.coll := rfl
@[simp] theorem State.emit_tier (x : Out) : (s.emit x).tier = s.tier := rfl
@[simp] theorem State.emit_store (x : Out) : (s.emit x).store = s.store := rfl
@[simp] theorem State.emit_power (x : Out) : (s.emit x).power = s.power := rfl
@[simp] theorem State.emit_clock (x : Out) : (s.emit x).clock = s.clock := rfl
@[simp] theorem State.emit_cross (x : Out) : (s.emit x).cross = s.cross := rfl
@[simp] theorem State.emit_fw (x : Out) : (s.emit x).fw = s.fw := rfl
@[simp] theorem State.emit_start (x : Out) : (s.emit x).start = s.start := rfl
@[simp] theorem State.emit_dict (x : Out) : (s.emit x).dict = s.dict := rfl
@[simp] theorem State.emit_free (x : Out) : (s.emit x).free = s.free := rfl
end

section
@[simp] theorem State.setWin_pending (w : Nat) (x : Window) : (s.setWin w x).pending = s.pending := rfl
@[simp] theorem State.setWin_now (w : Nat) (x : Window) : (s.setWin w x).now = s.now := rfl
@[simp] theorem State.setWin_standby (w : Nat) (x : Window) : (s.setWin w x).standby = s.standby := rfl
@[simp] theorem State.setWin_obj (w : Nat) (x : Window) : (s.setWin w x).obj = s.obj := rfl
@[simp] theorem State.setWin_staged (w : Nat) (x : Window) : (s.setWin w x).staged = s.staged := rfl
@[simp] theorem State.setWin_prep (w : Nat) (x : Window) : (s.setWin w x).prep = s.prep := rfl
@[simp] theorem State.setWin_tile (w : Nat) (x : Window) : (s.setWin w x).tile = s.tile := rfl
@[simp] theorem State.setWin_spans (w : Nat) (x : Window) : (s.setWin w x).spans = s.spans := rfl
@[simp] theorem State.setWin_touches (w : Nat) (x : Window) : (s.setWin w x).touches = s.touches := rfl
@[simp] theorem State.setWin_upd (w : Nat) (x : Window) : (s.setWin w x).upd = s.upd := rfl
@[simp] theorem State.setWin_link (w : Nat) (x : Window) : (s.setWin w x).link = s.link := rfl
@[simp] theorem State.setWin_coll (w : Nat) (x : Window) : (s.setWin w x).coll = s.coll := rfl
@[simp] theorem State.setWin_tier (w : Nat) (x : Window) : (s.setWin w x).tier = s.tier := rfl
@[simp] theorem State.setWin_store (w : Nat) (x : Window) : (s.setWin w x).store = s.store := rfl
@[simp] theorem State.setWin_power (w : Nat) (x : Window) : (s.setWin w x).power = s.power := rfl
@[simp] theorem State.setWin_clock (w : Nat) (x : Window) : (s.setWin w x).clock = s.clock := rfl
@[simp] theorem State.setWin_cross (w : Nat) (x : Window) : (s.setWin w x).cross = s.cross := rfl
@[simp] theorem State.setWin_fw (w : Nat) (x : Window) : (s.setWin w x).fw = s.fw := rfl
@[simp] theorem State.setWin_start (w : Nat) (x : Window) : (s.setWin w x).start = s.start := rfl
@[simp] theorem State.setWin_dict (w : Nat) (x : Window) : (s.setWin w x).dict = s.dict := rfl
@[simp] theorem State.setWin_free (w : Nat) (x : Window) : (s.setWin w x).free = s.free := rfl
@[simp] theorem State.setWin_out (w : Nat) (x : Window) : (s.setWin w x).out = s.out := rfl
end

section
@[simp] theorem State.updWin_pending (w : Nat) (f : Window → Window) : (s.updWin w f).pending = s.pending := rfl
@[simp] theorem State.updWin_now (w : Nat) (f : Window → Window) : (s.updWin w f).now = s.now := rfl
@[simp] theorem State.updWin_standby (w : Nat) (f : Window → Window) : (s.updWin w f).standby = s.standby := rfl
@[simp] theorem State.updWin_obj (w : Nat) (f : Window → Window) : (s.updWin w f).obj = s.obj := rfl
@[simp] theorem State.updWin_staged (w : Nat) (f : Window → Window) : (s.updWin w f).staged = s.staged := rfl
@[simp] theorem State.updWin_prep (w : Nat) (f : Window → Window) : (s.updWin w f).prep = s.prep := rfl
@[simp] theorem State.updWin_tile (w : Nat) (f : Window → Window) : (s.updWin w f).tile = s.tile := rfl
@[simp] theorem State.updWin_spans (w : Nat) (f : Window → Window) : (s.updWin w f).spans = s.spans := rfl
@[simp] theorem State.updWin_touches (w : Nat) (f : Window → Window) : (s.updWin w f).touches = s.touches := rfl
@[simp] theorem State.updWin_upd (w : Nat) (f : Window → Window) : (s.updWin w f).upd = s.upd := rfl
@[simp] theorem State.updWin_link (w : Nat) (f : Window → Window) : (s.updWin w f).link = s.link := rfl
@[simp] theorem State.updWin_coll (w : Nat) (f : Window → Window) : (s.updWin w f).coll = s.coll := rfl
@[simp] theorem State.updWin_tier (w : Nat) (f : Window → Window) : (s.updWin w f).tier = s.tier := rfl
@[simp] theorem State.updWin_store (w : Nat) (f : Window → Window) : (s.updWin w f).store = s.store := rfl
@[simp] theorem State.updWin_power (w : Nat) (f : Window → Window) : (s.updWin w f).power = s.power := rfl
@[simp] theorem State.updWin_clock (w : Nat) (f : Window → Window) : (s.updWin w f).clock = s.clock := rfl
@[simp] theorem State.updWin_cross (w : Nat) (f : Window → Window) : (s.updWin w f).cross = s.cross := rfl
@[simp] theorem State.updWin_fw (w : Nat) (f : Window → Window) : (s.updWin w f).fw = s.fw := rfl
@[simp] theorem State.updWin_start (w : Nat) (f : Window → Window) : (s.updWin w f).start = s.start := rfl
@[simp] theorem State.updWin_dict (w : Nat) (f : Window → Window) : (s.updWin w f).dict = s.dict := rfl
@[simp] theorem State.updWin_free (w : Nat) (f : Window → Window) : (s.updWin w f).free = s.free := rfl
@[simp] theorem State.updWin_out (w : Nat) (f : Window → Window) : (s.updWin w f).out = s.out := rfl
end

section
@[simp] theorem State.updEntry_pending (w q : Nat) (f : QEntry → QEntry) : (s.updEntry w q f).pending = s.pending := rfl
@[simp] theorem State.updEntry_now (w q : Nat) (f : QEntry → QEntry) : (s.updEntry w q f).now = s.now := rfl
@[simp] theorem State.updEntry_standby (w q : Nat) (f : QEntry → QEntry) : (s.updEntry w q f).standby = s.standby := rfl
@[simp] theorem State.updEntry_obj (w q : Nat) (f : QEntry → QEntry) : (s.updEntry w q f).obj = s.obj := rfl
@[simp] theorem State.updEntry_staged (w q : Nat) (f : QEntry → QEntry) : (s.updEntry w q f).staged = s.staged := rfl
@[simp] theorem State.updEntry_prep (w q : Nat) (f : QEntry → QEntry) : (s.updEntry w q f).prep = s.prep := rfl
@[simp] theorem State.updEntry_tile (w q : Nat) (f : QEntry → QEntry) : (s.updEntry w q f).tile = s.tile := rfl
@[simp] theorem State.updEntry_spans (w q : Nat) (f : QEntry → QEntry) : (s.updEntry w q f).spans = s.spans := rfl
@[simp] theorem State.updEntry_touches (w q : Nat) (f : QEntry → QEntry) : (s.updEntry w q f).touches = s.touches := rfl
@[simp] theorem State.updEntry_upd (w q : Nat) (f : QEntry → QEntry) : (s.updEntry w q f).upd = s.upd := rfl
@[simp] theorem State.updEntry_link (w q : Nat) (f : QEntry → QEntry) : (s.updEntry w q f).link = s.link := rfl
@[simp] theorem State.updEntry_coll (w q : Nat) (f : QEntry → QEntry) : (s.updEntry w q f).coll = s.coll := rfl
@[simp] theorem State.updEntry_tier (w q : Nat) (f : QEntry → QEntry) : (s.updEntry w q f).tier = s.tier := rfl
@[simp] theorem State.updEntry_store (w q : Nat) (f : QEntry → QEntry) : (s.updEntry w q f).store = s.store := rfl
@[simp] theorem State.updEntry_power (w q : Nat) (f : QEntry → QEntry) : (s.updEntry w q f).power = s.power := rfl
@[simp] theorem State.updEntry_clock (w q : Nat) (f : QEntry → QEntry) : (s.updEntry w q f).clock = s.clock := rfl
@[simp] theorem State.updEntry_cross (w q : Nat) (f : QEntry → QEntry) : (s.updEntry w q f).cross = s.cross := rfl
@[simp] theorem State.updEntry_fw (w q : Nat) (f : QEntry → QEntry) : (s.updEntry w q f).fw = s.fw := rfl
@[simp] theorem State.updEntry_start (w q : Nat) (f : QEntry → QEntry) : (s.updEntry w q f).start = s.start := rfl
@[simp] theorem State.updEntry_dict (w q : Nat) (f : QEntry → QEntry) : (s.updEntry w q f).dict = s.dict := rfl
@[simp] theorem State.updEntry_free (w q : Nat) (f : QEntry → QEntry) : (s.updEntry w q f).free = s.free := rfl
@[simp] theorem State.updEntry_out (w q : Nat) (f : QEntry → QEntry) : (s.updEntry w q f).out = s.out := rfl
end

section
@[simp] theorem State.unitDone_pending (w q a b : Nat) : (s.unitDone w q a b).pending = s.pending := rfl
@[simp] theorem State.unitDone_now (w q a b : Nat) : (s.unitDone w q a b).now = s.now := rfl
@[simp] theorem State.unitDone_standby (w q a b : Nat) : (s.unitDone w q a b).standby = s.standby := rfl
@[simp] theorem State.unitDone_obj (w q a b : Nat) : (s.unitDone w q a b).obj = s.obj := rfl
@[simp] theorem State.unitDone_staged (w q a b : Nat) : (s.unitDone w q a b).staged = s.staged := rfl
@[simp] theorem State.unitDone_prep (w q a b : Nat) : (s.unitDone w q a b).prep = s.prep := rfl
@[simp] theorem State.unitDone_tile (w q a b : Nat) : (s.unitDone w q a b).tile = s.tile := rfl
@[simp] theorem State.unitDone_spans (w q a b : Nat) : (s.unitDone w q a b).spans = s.spans := rfl
@[simp] theorem State.unitDone_touches (w q a b : Nat) : (s.unitDone w q a b).touches = s.touches := rfl
@[simp] theorem State.unitDone_upd (w q a b : Nat) : (s.unitDone w q a b).upd = s.upd := rfl
@[simp] theorem State.unitDone_link (w q a b : Nat) : (s.unitDone w q a b).link = s.link := rfl
@[simp] theorem State.unitDone_coll (w q a b : Nat) : (s.unitDone w q a b).coll = s.coll := rfl
@[simp] theorem State.unitDone_tier (w q a b : Nat) : (s.unitDone w q a b).tier = s.tier := rfl
@[simp] theorem State.unitDone_store (w q a b : Nat) : (s.unitDone w q a b).store = s.store := rfl
@[simp] theorem State.unitDone_power (w q a b : Nat) : (s.unitDone w q a b).power = s.power := rfl
@[simp] theorem State.unitDone_clock (w q a b : Nat) : (s.unitDone w q a b).clock = s.clock := rfl
@[simp] theorem State.unitDone_cross (w q a b : Nat) : (s.unitDone w q a b).cross = s.cross := rfl
@[simp] theorem State.unitDone_fw (w q a b : Nat) : (s.unitDone w q a b).fw = s.fw := rfl
@[simp] theorem State.unitDone_start (w q a b : Nat) : (s.unitDone w q a b).start = s.start := rfl
@[simp] theorem State.unitDone_dict (w q a b : Nat) : (s.unitDone w q a b).dict = s.dict := rfl
@[simp] theorem State.unitDone_free (w q a b : Nat) : (s.unitDone w q a b).free = s.free := rfl
@[simp] theorem State.unitDone_out (w q a b : Nat) : (s.unitDone w q a b).out = s.out := rfl
end

section
@[simp] theorem State.formRing_pending (w a b c d e : Nat) : (s.formRing w a b c d e).pending = s.pending := rfl
@[simp] theorem State.formRing_now (w a b c d e : Nat) : (s.formRing w a b c d e).now = s.now := rfl
@[simp] theorem State.formRing_standby (w a b c d e : Nat) : (s.formRing w a b c d e).standby = s.standby := rfl
@[simp] theorem State.formRing_obj (w a b c d e : Nat) : (s.formRing w a b c d e).obj = s.obj := rfl
@[simp] theorem State.formRing_staged (w a b c d e : Nat) : (s.formRing w a b c d e).staged = s.staged := rfl
@[simp] theorem State.formRing_prep (w a b c d e : Nat) : (s.formRing w a b c d e).prep = s.prep := rfl
@[simp] theorem State.formRing_tile (w a b c d e : Nat) : (s.formRing w a b c d e).tile = s.tile := rfl
@[simp] theorem State.formRing_spans (w a b c d e : Nat) : (s.formRing w a b c d e).spans = s.spans := rfl
@[simp] theorem State.formRing_touches (w a b c d e : Nat) : (s.formRing w a b c d e).touches = s.touches := rfl
@[simp] theorem State.formRing_upd (w a b c d e : Nat) : (s.formRing w a b c d e).upd = s.upd := rfl
@[simp] theorem State.formRing_link (w a b c d e : Nat) : (s.formRing w a b c d e).link = s.link := rfl
@[simp] theorem State.formRing_coll (w a b c d e : Nat) : (s.formRing w a b c d e).coll = s.coll := rfl
@[simp] theorem State.formRing_tier (w a b c d e : Nat) : (s.formRing w a b c d e).tier = s.tier := rfl
@[simp] theorem State.formRing_store (w a b c d e : Nat) : (s.formRing w a b c d e).store = s.store := rfl
@[simp] theorem State.formRing_power (w a b c d e : Nat) : (s.formRing w a b c d e).power = s.power := rfl
@[simp] theorem State.formRing_clock (w a b c d e : Nat) : (s.formRing w a b c d e).clock = s.clock := rfl
@[simp] theorem State.formRing_cross (w a b c d e : Nat) : (s.formRing w a b c d e).cross = s.cross := rfl
@[simp] theorem State.formRing_fw (w a b c d e : Nat) : (s.formRing w a b c d e).fw = s.fw := rfl
@[simp] theorem State.formRing_start (w a b c d e : Nat) : (s.formRing w a b c d e).start = s.start := rfl
@[simp] theorem State.formRing_dict (w a b c d e : Nat) : (s.formRing w a b c d e).dict = s.dict := rfl
@[simp] theorem State.formRing_free (w a b c d e : Nat) : (s.formRing w a b c d e).free = s.free := rfl
@[simp] theorem State.formRing_out (w a b c d e : Nat) : (s.formRing w a b c d e).out = s.out := rfl
end

section
@[simp] theorem State.endEpisode_pending (a b : Nat) : (s.endEpisode a b).pending = s.pending := rfl
@[simp] theorem State.endEpisode_now (a b : Nat) : (s.endEpisode a b).now = s.now := rfl
@[simp] theorem State.endEpisode_standby (a b : Nat) : (s.endEpisode a b).standby = s.standby := rfl
@[simp] theorem State.endEpisode_obj (a b : Nat) : (s.endEpisode a b).obj = s.obj := rfl
@[simp] theorem State.endEpisode_staged (a b : Nat) : (s.endEpisode a b).staged = s.staged := rfl
@[simp] theorem State.endEpisode_prep (a b : Nat) : (s.endEpisode a b).prep = s.prep := rfl
@[simp] theorem State.endEpisode_cmd (a b : Nat) : (s.endEpisode a b).cmd = s.cmd := rfl
@[simp] theorem State.endEpisode_tile (a b : Nat) : (s.endEpisode a b).tile = s.tile := rfl
@[simp] theorem State.endEpisode_spans (a b : Nat) : (s.endEpisode a b).spans = s.spans := rfl
@[simp] theorem State.endEpisode_touches (a b : Nat) : (s.endEpisode a b).touches = s.touches := rfl
@[simp] theorem State.endEpisode_upd (a b : Nat) : (s.endEpisode a b).upd = s.upd := rfl
@[simp] theorem State.endEpisode_link (a b : Nat) : (s.endEpisode a b).link = s.link := rfl
@[simp] theorem State.endEpisode_coll (a b : Nat) : (s.endEpisode a b).coll = s.coll := rfl
@[simp] theorem State.endEpisode_tier (a b : Nat) : (s.endEpisode a b).tier = s.tier := rfl
@[simp] theorem State.endEpisode_store (a b : Nat) : (s.endEpisode a b).store = s.store := rfl
@[simp] theorem State.endEpisode_power (a b : Nat) : (s.endEpisode a b).power = s.power := rfl
@[simp] theorem State.endEpisode_clock (a b : Nat) : (s.endEpisode a b).clock = s.clock := rfl
@[simp] theorem State.endEpisode_cross (a b : Nat) : (s.endEpisode a b).cross = s.cross := rfl
@[simp] theorem State.endEpisode_fw (a b : Nat) : (s.endEpisode a b).fw = s.fw := rfl
@[simp] theorem State.endEpisode_start (a b : Nat) : (s.endEpisode a b).start = s.start := rfl
@[simp] theorem State.endEpisode_free (a b : Nat) : (s.endEpisode a b).free = s.free := rfl
@[simp] theorem State.endEpisode_out (a b : Nat) : (s.endEpisode a b).out = s.out := rfl
end

theorem State.clear_shape (ks : List Nat) : ∃ o, s.clear ks = { s with obj := o } := by
  unfold State.clear
  induction ks generalizing s with
  | nil => exact ⟨s.obj, rfl⟩
  | cons k ks ih =>
    obtain ⟨o, h⟩ := ih (s.wr k 0)
    exact ⟨o, h⟩

@[simp] theorem State.clear_pending (ks : List Nat) : (s.clear ks).pending = s.pending := by obtain ⟨_, h⟩ := s.clear_shape ks; rw [h]
@[simp] theorem State.clear_now (ks : List Nat) : (s.clear ks).now = s.now := by obtain ⟨_, h⟩ := s.clear_shape ks; rw [h]
@[simp] theorem State.clear_standby (ks : List Nat) : (s.clear ks).standby = s.standby := by obtain ⟨_, h⟩ := s.clear_shape ks; rw [h]
@[simp] theorem State.clear_staged (ks : List Nat) : (s.clear ks).staged = s.staged := by obtain ⟨_, h⟩ := s.clear_shape ks; rw [h]
@[simp] theorem State.clear_prep (ks : List Nat) : (s.clear ks).prep = s.prep := by obtain ⟨_, h⟩ := s.clear_shape ks; rw [h]
@[simp] theorem State.clear_cmd (ks : List Nat) : (s.clear ks).cmd = s.cmd := by obtain ⟨_, h⟩ := s.clear_shape ks; rw [h]
@[simp] theorem State.clear_tile (ks : List Nat) : (s.clear ks).tile = s.tile := by obtain ⟨_, h⟩ := s.clear_shape ks; rw [h]
@[simp] theorem State.clear_spans (ks : List Nat) : (s.clear ks).spans = s.spans := by obtain ⟨_, h⟩ := s.clear_shape ks; rw [h]
@[simp] theorem State.clear_touches (ks : List Nat) : (s.clear ks).touches = s.touches := by obtain ⟨_, h⟩ := s.clear_shape ks; rw [h]
@[simp] theorem State.clear_upd (ks : List Nat) : (s.clear ks).upd = s.upd := by obtain ⟨_, h⟩ := s.clear_shape ks; rw [h]
@[simp] theorem State.clear_link (ks : List Nat) : (s.clear ks).link = s.link := by obtain ⟨_, h⟩ := s.clear_shape ks; rw [h]
@[simp] theorem State.clear_coll (ks : List Nat) : (s.clear ks).coll = s.coll := by obtain ⟨_, h⟩ := s.clear_shape ks; rw [h]
@[simp] theorem State.clear_tier (ks : List Nat) : (s.clear ks).tier = s.tier := by obtain ⟨_, h⟩ := s.clear_shape ks; rw [h]
@[simp] theorem State.clear_store (ks : List Nat) : (s.clear ks).store = s.store := by obtain ⟨_, h⟩ := s.clear_shape ks; rw [h]
@[simp] theorem State.clear_power (ks : List Nat) : (s.clear ks).power = s.power := by obtain ⟨_, h⟩ := s.clear_shape ks; rw [h]
@[simp] theorem State.clear_clock (ks : List Nat) : (s.clear ks).clock = s.clock := by obtain ⟨_, h⟩ := s.clear_shape ks; rw [h]
@[simp] theorem State.clear_cross (ks : List Nat) : (s.clear ks).cross = s.cross := by obtain ⟨_, h⟩ := s.clear_shape ks; rw [h]
@[simp] theorem State.clear_fw (ks : List Nat) : (s.clear ks).fw = s.fw := by obtain ⟨_, h⟩ := s.clear_shape ks; rw [h]
@[simp] theorem State.clear_start (ks : List Nat) : (s.clear ks).start = s.start := by obtain ⟨_, h⟩ := s.clear_shape ks; rw [h]
@[simp] theorem State.clear_dict (ks : List Nat) : (s.clear ks).dict = s.dict := by obtain ⟨_, h⟩ := s.clear_shape ks; rw [h]
@[simp] theorem State.clear_free (ks : List Nat) : (s.clear ks).free = s.free := by obtain ⟨_, h⟩ := s.clear_shape ks; rw [h]
@[simp] theorem State.clear_out (ks : List Nat) : (s.clear ks).out = s.out := by obtain ⟨_, h⟩ := s.clear_shape ks; rw [h]

theorem State.announce_shape (r : EventRec) : ∃ o d x, s.announce r = { s with obj := o, dict := d, out := x } := by
  have key : ∀ (l : List Src) (b : Bytes) (v : State), ∃ o x,
      l.foldl (fun s d => (s.emit (.notice d b)).count Obj.dictFramesTx 1) v = { v with obj := o, out := x } := by
    intro l b
    induction l with
    | nil => exact fun v => ⟨v.obj, v.out, rfl⟩
    | cons d l ih =>
      intro v
      obtain ⟨o, x, h⟩ := ih ((v.emit (.notice d b)).count Obj.dictFramesTx 1)
      exact ⟨o, x, h⟩
  unfold State.announce
  extract_lets b t
  obtain ⟨o, x, h⟩ := key s.subscribers b s
  have ht : t = { s with obj := o, out := x } := h
  rw [ht]
  exact ⟨_, _, _, rfl⟩

@[simp] theorem State.announce_pending (r : EventRec) : (s.announce r).pending = s.pending := by obtain ⟨_, _, _, h⟩ := s.announce_shape r; rw [h]
@[simp] theorem State.announce_now (r : EventRec) : (s.announce r).now = s.now := by obtain ⟨_, _, _, h⟩ := s.announce_shape r; rw [h]
@[simp] theorem State.announce_standby (r : EventRec) : (s.announce r).standby = s.standby := by obtain ⟨_, _, _, h⟩ := s.announce_shape r; rw [h]
@[simp] theorem State.announce_staged (r : EventRec) : (s.announce r).staged = s.staged := by obtain ⟨_, _, _, h⟩ := s.announce_shape r; rw [h]
@[simp] theorem State.announce_prep (r : EventRec) : (s.announce r).prep = s.prep := by obtain ⟨_, _, _, h⟩ := s.announce_shape r; rw [h]
@[simp] theorem State.announce_cmd (r : EventRec) : (s.announce r).cmd = s.cmd := by obtain ⟨_, _, _, h⟩ := s.announce_shape r; rw [h]
@[simp] theorem State.announce_tile (r : EventRec) : (s.announce r).tile = s.tile := by obtain ⟨_, _, _, h⟩ := s.announce_shape r; rw [h]
@[simp] theorem State.announce_spans (r : EventRec) : (s.announce r).spans = s.spans := by obtain ⟨_, _, _, h⟩ := s.announce_shape r; rw [h]
@[simp] theorem State.announce_touches (r : EventRec) : (s.announce r).touches = s.touches := by obtain ⟨_, _, _, h⟩ := s.announce_shape r; rw [h]
@[simp] theorem State.announce_upd (r : EventRec) : (s.announce r).upd = s.upd := by obtain ⟨_, _, _, h⟩ := s.announce_shape r; rw [h]
@[simp] theorem State.announce_link (r : EventRec) : (s.announce r).link = s.link := by obtain ⟨_, _, _, h⟩ := s.announce_shape r; rw [h]
@[simp] theorem State.announce_coll (r : EventRec) : (s.announce r).coll = s.coll := by obtain ⟨_, _, _, h⟩ := s.announce_shape r; rw [h]
@[simp] theorem State.announce_tier (r : EventRec) : (s.announce r).tier = s.tier := by obtain ⟨_, _, _, h⟩ := s.announce_shape r; rw [h]
@[simp] theorem State.announce_store (r : EventRec) : (s.announce r).store = s.store := by obtain ⟨_, _, _, h⟩ := s.announce_shape r; rw [h]
@[simp] theorem State.announce_power (r : EventRec) : (s.announce r).power = s.power := by obtain ⟨_, _, _, h⟩ := s.announce_shape r; rw [h]
@[simp] theorem State.announce_clock (r : EventRec) : (s.announce r).clock = s.clock := by obtain ⟨_, _, _, h⟩ := s.announce_shape r; rw [h]
@[simp] theorem State.announce_cross (r : EventRec) : (s.announce r).cross = s.cross := by obtain ⟨_, _, _, h⟩ := s.announce_shape r; rw [h]
@[simp] theorem State.announce_fw (r : EventRec) : (s.announce r).fw = s.fw := by obtain ⟨_, _, _, h⟩ := s.announce_shape r; rw [h]
@[simp] theorem State.announce_start (r : EventRec) : (s.announce r).start = s.start := by obtain ⟨_, _, _, h⟩ := s.announce_shape r; rw [h]
@[simp] theorem State.announce_free (r : EventRec) : (s.announce r).free = s.free := by obtain ⟨_, _, _, h⟩ := s.announce_shape r; rw [h]

theorem State.form_shape (code : Nat) (ps : List Bytes) : ∃ o d x, s.form code ps = { s with obj := o, dict := d, out := x } := by
  generalize e : s.form code ps = t
  unfold State.form at e
  extract_lets +onlyGivenNames -underBinder -merge n r a b _ c at e
  obtain ⟨o, d, x, h⟩ := c.announce_shape r
  exact ⟨o, d, x, e.symm.trans h⟩

@[simp] theorem State.form_pending (code : Nat) (ps : List Bytes) : (s.form code ps).pending = s.pending := by obtain ⟨_, _, _, h⟩ := s.form_shape code ps; rw [h]
@[simp] theorem State.form_now (code : Nat) (ps : List Bytes) : (s.form code ps).now = s.now := by obtain ⟨_, _, _, h⟩ := s.form_shape code ps; rw [h]
@[simp] theorem State.form_standby (code : Nat) (ps : List Bytes) : (s.form code ps).standby = s.standby := by obtain ⟨_, _, _, h⟩ := s.form_shape code ps; rw [h]
@[simp] theorem State.form_staged (code : Nat) (ps : List Bytes) : (s.form code ps).staged = s.staged := by obtain ⟨_, _, _, h⟩ := s.form_shape code ps; rw [h]
@[simp] theorem State.form_prep (code : Nat) (ps : List Bytes) : (s.form code ps).prep = s.prep := by obtain ⟨_, _, _, h⟩ := s.form_shape code ps; rw [h]
@[simp] theorem State.form_cmd (code : Nat) (ps : List Bytes) : (s.form code ps).cmd = s.cmd := by obtain ⟨_, _, _, h⟩ := s.form_shape code ps; rw [h]
@[simp] theorem State.form_tile (code : Nat) (ps : List Bytes) : (s.form code ps).tile = s.tile := by obtain ⟨_, _, _, h⟩ := s.form_shape code ps; rw [h]
@[simp] theorem State.form_spans (code : Nat) (ps : List Bytes) : (s.form code ps).spans = s.spans := by obtain ⟨_, _, _, h⟩ := s.form_shape code ps; rw [h]
@[simp] theorem State.form_touches (code : Nat) (ps : List Bytes) : (s.form code ps).touches = s.touches := by obtain ⟨_, _, _, h⟩ := s.form_shape code ps; rw [h]
@[simp] theorem State.form_upd (code : Nat) (ps : List Bytes) : (s.form code ps).upd = s.upd := by obtain ⟨_, _, _, h⟩ := s.form_shape code ps; rw [h]
@[simp] theorem State.form_link (code : Nat) (ps : List Bytes) : (s.form code ps).link = s.link := by obtain ⟨_, _, _, h⟩ := s.form_shape code ps; rw [h]
@[simp] theorem State.form_coll (code : Nat) (ps : List Bytes) : (s.form code ps).coll = s.coll := by obtain ⟨_, _, _, h⟩ := s.form_shape code ps; rw [h]
@[simp] theorem State.form_tier (code : Nat) (ps : List Bytes) : (s.form code ps).tier = s.tier := by obtain ⟨_, _, _, h⟩ := s.form_shape code ps; rw [h]
@[simp] theorem State.form_store (code : Nat) (ps : List Bytes) : (s.form code ps).store = s.store := by obtain ⟨_, _, _, h⟩ := s.form_shape code ps; rw [h]
@[simp] theorem State.form_power (code : Nat) (ps : List Bytes) : (s.form code ps).power = s.power := by obtain ⟨_, _, _, h⟩ := s.form_shape code ps; rw [h]
@[simp] theorem State.form_clock (code : Nat) (ps : List Bytes) : (s.form code ps).clock = s.clock := by obtain ⟨_, _, _, h⟩ := s.form_shape code ps; rw [h]
@[simp] theorem State.form_cross (code : Nat) (ps : List Bytes) : (s.form code ps).cross = s.cross := by obtain ⟨_, _, _, h⟩ := s.form_shape code ps; rw [h]
@[simp] theorem State.form_fw (code : Nat) (ps : List Bytes) : (s.form code ps).fw = s.fw := by obtain ⟨_, _, _, h⟩ := s.form_shape code ps; rw [h]
@[simp] theorem State.form_start (code : Nat) (ps : List Bytes) : (s.form code ps).start = s.start := by obtain ⟨_, _, _, h⟩ := s.form_shape code ps; rw [h]
@[simp] theorem State.form_free (code : Nat) (ps : List Bytes) : (s.form code ps).free = s.free := by obtain ⟨_, _, _, h⟩ := s.form_shape code ps; rw [h]

theorem State.raise_shape (code : Nat) (ps : List Bytes) : ∃ o d x, s.raise code ps = { s with obj := o, dict := d, out := x } := by
  generalize e : s.raise code ps = t
  unfold State.raise at e
  extract_lets +onlyGivenNames -underBinder -merge l a _ b at e
  obtain ⟨o, d, x, h⟩ := s.form_shape code ps
  subst e
  split
  · obtain ⟨o', d', x', h'⟩ := b.form_shape Ev.logOverrun []
    refine ⟨o', d', x', h'.trans ?_⟩
    show ({ ({ a with dict := _ } : State) with obj := o', dict := d', out := x' } : State) = _
    rw [show a = _ from h]
  · exact ⟨o, d, x, h⟩

@[simp] theorem State.raise_pending (code : Nat) (ps : List Bytes) : (s.raise code ps).pending = s.pending := by obtain ⟨_, _, _, h⟩ := s.raise_shape code ps; rw [h]
@[simp] theorem State.raise_now (code : Nat) (ps : List Bytes) : (s.raise code ps).now = s.now := by obtain ⟨_, _, _, h⟩ := s.raise_shape code ps; rw [h]
@[simp] theorem State.raise_standby (code : Nat) (ps : List Bytes) : (s.raise code ps).standby = s.standby := by obtain ⟨_, _, _, h⟩ := s.raise_shape code ps; rw [h]
@[simp] theorem State.raise_staged (code : Nat) (ps : List Bytes) : (s.raise code ps).staged = s.staged := by obtain ⟨_, _, _, h⟩ := s.raise_shape code ps; rw [h]
@[simp] theorem State.raise_prep (code : Nat) (ps : List Bytes) : (s.raise code ps).prep = s.prep := by obtain ⟨_, _, _, h⟩ := s.raise_shape code ps; rw [h]
@[simp] theorem State.raise_cmd (code : Nat) (ps : List Bytes) : (s.raise code ps).cmd = s.cmd := by obtain ⟨_, _, _, h⟩ := s.raise_shape code ps; rw [h]
@[simp] theorem State.raise_tile (code : Nat) (ps : List Bytes) : (s.raise code ps).tile = s.tile := by obtain ⟨_, _, _, h⟩ := s.raise_shape code ps; rw [h]
@[simp] theorem State.raise_spans (code : Nat) (ps : List Bytes) : (s.raise code ps).spans = s.spans := by obtain ⟨_, _, _, h⟩ := s.raise_shape code ps; rw [h]
@[simp] theorem State.raise_touches (code : Nat) (ps : List Bytes) : (s.raise code ps).touches = s.touches := by obtain ⟨_, _, _, h⟩ := s.raise_shape code ps; rw [h]
@[simp] theorem State.raise_upd (code : Nat) (ps : List Bytes) : (s.raise code ps).upd = s.upd := by obtain ⟨_, _, _, h⟩ := s.raise_shape code ps; rw [h]
@[simp] theorem State.raise_link (code : Nat) (ps : List Bytes) : (s.raise code ps).link = s.link := by obtain ⟨_, _, _, h⟩ := s.raise_shape code ps; rw [h]
@[simp] theorem State.raise_coll (code : Nat) (ps : List Bytes) : (s.raise code ps).coll = s.coll := by obtain ⟨_, _, _, h⟩ := s.raise_shape code ps; rw [h]
@[simp] theorem State.raise_tier (code : Nat) (ps : List Bytes) : (s.raise code ps).tier = s.tier := by obtain ⟨_, _, _, h⟩ := s.raise_shape code ps; rw [h]
@[simp] theorem State.raise_store (code : Nat) (ps : List Bytes) : (s.raise code ps).store = s.store := by obtain ⟨_, _, _, h⟩ := s.raise_shape code ps; rw [h]
@[simp] theorem State.raise_power (code : Nat) (ps : List Bytes) : (s.raise code ps).power = s.power := by obtain ⟨_, _, _, h⟩ := s.raise_shape code ps; rw [h]
@[simp] theorem State.raise_clock (code : Nat) (ps : List Bytes) : (s.raise code ps).clock = s.clock := by obtain ⟨_, _, _, h⟩ := s.raise_shape code ps; rw [h]
@[simp] theorem State.raise_cross (code : Nat) (ps : List Bytes) : (s.raise code ps).cross = s.cross := by obtain ⟨_, _, _, h⟩ := s.raise_shape code ps; rw [h]
@[simp] theorem State.raise_fw (code : Nat) (ps : List Bytes) : (s.raise code ps).fw = s.fw := by obtain ⟨_, _, _, h⟩ := s.raise_shape code ps; rw [h]
@[simp] theorem State.raise_start (code : Nat) (ps : List Bytes) : (s.raise code ps).start = s.start := by obtain ⟨_, _, _, h⟩ := s.raise_shape code ps; rw [h]
@[simp] theorem State.raise_free (code : Nat) (ps : List Bytes) : (s.raise code ps).free = s.free := by obtain ⟨_, _, _, h⟩ := s.raise_shape code ps; rw [h]

theorem State.raiseOnce_shape (code inst : Nat) (ps : List Bytes) : ∃ o d x, s.raiseOnce code inst ps = { s with obj := o, dict := d, out := x } := by
  unfold State.raiseOnce
  split
  · exact ⟨s.obj, s.dict, s.out, rfl⟩
  · obtain ⟨o, d, x, h⟩ := s.raise_shape code ps
    rw [h]
    exact ⟨_, _, _, rfl⟩

@[simp] theorem State.raiseOnce_pending (code inst : Nat) (ps : List Bytes) : (s.raiseOnce code inst ps).pending = s.pending := by obtain ⟨_, _, _, h⟩ := s.raiseOnce_shape code inst ps; rw [h]
@[simp] theorem State.raiseOnce_now (code inst : Nat) (ps : List Bytes) : (s.raiseOnce code inst ps).now = s.now := by obtain ⟨_, _, _, h⟩ := s.raiseOnce_shape code inst ps; rw [h]
@[simp] theorem State.raiseOnce_standby (code inst : Nat) (ps : List Bytes) : (s.raiseOnce code inst ps).standby = s.standby := by obtain ⟨_, _, _, h⟩ := s.raiseOnce_shape code inst ps; rw [h]
@[simp] theorem State.raiseOnce_staged (code inst : Nat) (ps : List Bytes) : (s.raiseOnce code inst ps).staged = s.staged := by obtain ⟨_, _, _, h⟩ := s.raiseOnce_shape code inst ps; rw [h]
@[simp] theorem State.raiseOnce_prep (code inst : Nat) (ps : List Bytes) : (s.raiseOnce code inst ps).prep = s.prep := by obtain ⟨_, _, _, h⟩ := s.raiseOnce_shape code inst ps; rw [h]
@[simp] theorem State.raiseOnce_cmd (code inst : Nat) (ps : List Bytes) : (s.raiseOnce code inst ps).cmd = s.cmd := by obtain ⟨_, _, _, h⟩ := s.raiseOnce_shape code inst ps; rw [h]
@[simp] theorem State.raiseOnce_tile (code inst : Nat) (ps : List Bytes) : (s.raiseOnce code inst ps).tile = s.tile := by obtain ⟨_, _, _, h⟩ := s.raiseOnce_shape code inst ps; rw [h]
@[simp] theorem State.raiseOnce_spans (code inst : Nat) (ps : List Bytes) : (s.raiseOnce code inst ps).spans = s.spans := by obtain ⟨_, _, _, h⟩ := s.raiseOnce_shape code inst ps; rw [h]
@[simp] theorem State.raiseOnce_touches (code inst : Nat) (ps : List Bytes) : (s.raiseOnce code inst ps).touches = s.touches := by obtain ⟨_, _, _, h⟩ := s.raiseOnce_shape code inst ps; rw [h]
@[simp] theorem State.raiseOnce_upd (code inst : Nat) (ps : List Bytes) : (s.raiseOnce code inst ps).upd = s.upd := by obtain ⟨_, _, _, h⟩ := s.raiseOnce_shape code inst ps; rw [h]
@[simp] theorem State.raiseOnce_link (code inst : Nat) (ps : List Bytes) : (s.raiseOnce code inst ps).link = s.link := by obtain ⟨_, _, _, h⟩ := s.raiseOnce_shape code inst ps; rw [h]
@[simp] theorem State.raiseOnce_coll (code inst : Nat) (ps : List Bytes) : (s.raiseOnce code inst ps).coll = s.coll := by obtain ⟨_, _, _, h⟩ := s.raiseOnce_shape code inst ps; rw [h]
@[simp] theorem State.raiseOnce_tier (code inst : Nat) (ps : List Bytes) : (s.raiseOnce code inst ps).tier = s.tier := by obtain ⟨_, _, _, h⟩ := s.raiseOnce_shape code inst ps; rw [h]
@[simp] theorem State.raiseOnce_store (code inst : Nat) (ps : List Bytes) : (s.raiseOnce code inst ps).store = s.store := by obtain ⟨_, _, _, h⟩ := s.raiseOnce_shape code inst ps; rw [h]
@[simp] theorem State.raiseOnce_power (code inst : Nat) (ps : List Bytes) : (s.raiseOnce code inst ps).power = s.power := by obtain ⟨_, _, _, h⟩ := s.raiseOnce_shape code inst ps; rw [h]
@[simp] theorem State.raiseOnce_clock (code inst : Nat) (ps : List Bytes) : (s.raiseOnce code inst ps).clock = s.clock := by obtain ⟨_, _, _, h⟩ := s.raiseOnce_shape code inst ps; rw [h]
@[simp] theorem State.raiseOnce_cross (code inst : Nat) (ps : List Bytes) : (s.raiseOnce code inst ps).cross = s.cross := by obtain ⟨_, _, _, h⟩ := s.raiseOnce_shape code inst ps; rw [h]
@[simp] theorem State.raiseOnce_fw (code inst : Nat) (ps : List Bytes) : (s.raiseOnce code inst ps).fw = s.fw := by obtain ⟨_, _, _, h⟩ := s.raiseOnce_shape code inst ps; rw [h]
@[simp] theorem State.raiseOnce_start (code inst : Nat) (ps : List Bytes) : (s.raiseOnce code inst ps).start = s.start := by obtain ⟨_, _, _, h⟩ := s.raiseOnce_shape code inst ps; rw [h]
@[simp] theorem State.raiseOnce_free (code inst : Nat) (ps : List Bytes) : (s.raiseOnce code inst ps).free = s.free := by obtain ⟨_, _, _, h⟩ := s.raiseOnce_shape code inst ps; rw [h]

theorem State.raiseKept_shape (code : Nat) (ps : List Bytes) : ∃ o d x, s.raiseKept code ps = { s with obj := o, dict := d, out := x } := by
  unfold State.raiseKept
  obtain ⟨o, d, x, h⟩ := s.raise_shape code ps
  rw [h]
  exact ⟨_, _, _, rfl⟩

@[simp] theorem State.raiseKept_pending (code : Nat) (ps : List Bytes) : (s.raiseKept code ps).pending = s.pending := by obtain ⟨_, _, _, h⟩ := s.raiseKept_shape code ps; rw [h]
@[simp] theorem State.raiseKept_now (code : Nat) (ps : List Bytes) : (s.raiseKept code ps).now = s.now := by obtain ⟨_, _, _, h⟩ := s.raiseKept_shape code ps; rw [h]
@[simp] theorem State.raiseKept_standby (code : Nat) (ps : List Bytes) : (s.raiseKept code ps).standby = s.standby := by obtain ⟨_, _, _, h⟩ := s.raiseKept_shape code ps; rw [h]
@[simp] theorem State.raiseKept_staged (code : Nat) (ps : List Bytes) : (s.raiseKept code ps).staged = s.staged := by obtain ⟨_, _, _, h⟩ := s.raiseKept_shape code ps; rw [h]
@[simp] theorem State.raiseKept_prep (code : Nat) (ps : List Bytes) : (s.raiseKept code ps).prep = s.prep := by obtain ⟨_, _, _, h⟩ := s.raiseKept_shape code ps; rw [h]
@[simp] theorem State.raiseKept_cmd (code : Nat) (ps : List Bytes) : (s.raiseKept code ps).cmd = s.cmd := by obtain ⟨_, _, _, h⟩ := s.raiseKept_shape code ps; rw [h]
@[simp] theorem State.raiseKept_tile (code : Nat) (ps : List Bytes) : (s.raiseKept code ps).tile = s.tile := by obtain ⟨_, _, _, h⟩ := s.raiseKept_shape code ps; rw [h]
@[simp] theorem State.raiseKept_spans (code : Nat) (ps : List Bytes) : (s.raiseKept code ps).spans = s.spans := by obtain ⟨_, _, _, h⟩ := s.raiseKept_shape code ps; rw [h]
@[simp] theorem State.raiseKept_touches (code : Nat) (ps : List Bytes) : (s.raiseKept code ps).touches = s.touches := by obtain ⟨_, _, _, h⟩ := s.raiseKept_shape code ps; rw [h]
@[simp] theorem State.raiseKept_upd (code : Nat) (ps : List Bytes) : (s.raiseKept code ps).upd = s.upd := by obtain ⟨_, _, _, h⟩ := s.raiseKept_shape code ps; rw [h]
@[simp] theorem State.raiseKept_link (code : Nat) (ps : List Bytes) : (s.raiseKept code ps).link = s.link := by obtain ⟨_, _, _, h⟩ := s.raiseKept_shape code ps; rw [h]
@[simp] theorem State.raiseKept_coll (code : Nat) (ps : List Bytes) : (s.raiseKept code ps).coll = s.coll := by obtain ⟨_, _, _, h⟩ := s.raiseKept_shape code ps; rw [h]
@[simp] theorem State.raiseKept_tier (code : Nat) (ps : List Bytes) : (s.raiseKept code ps).tier = s.tier := by obtain ⟨_, _, _, h⟩ := s.raiseKept_shape code ps; rw [h]
@[simp] theorem State.raiseKept_store (code : Nat) (ps : List Bytes) : (s.raiseKept code ps).store = s.store := by obtain ⟨_, _, _, h⟩ := s.raiseKept_shape code ps; rw [h]
@[simp] theorem State.raiseKept_power (code : Nat) (ps : List Bytes) : (s.raiseKept code ps).power = s.power := by obtain ⟨_, _, _, h⟩ := s.raiseKept_shape code ps; rw [h]
@[simp] theorem State.raiseKept_clock (code : Nat) (ps : List Bytes) : (s.raiseKept code ps).clock = s.clock := by obtain ⟨_, _, _, h⟩ := s.raiseKept_shape code ps; rw [h]
@[simp] theorem State.raiseKept_cross (code : Nat) (ps : List Bytes) : (s.raiseKept code ps).cross = s.cross := by obtain ⟨_, _, _, h⟩ := s.raiseKept_shape code ps; rw [h]
@[simp] theorem State.raiseKept_fw (code : Nat) (ps : List Bytes) : (s.raiseKept code ps).fw = s.fw := by obtain ⟨_, _, _, h⟩ := s.raiseKept_shape code ps; rw [h]
@[simp] theorem State.raiseKept_start (code : Nat) (ps : List Bytes) : (s.raiseKept code ps).start = s.start := by obtain ⟨_, _, _, h⟩ := s.raiseKept_shape code ps; rw [h]
@[simp] theorem State.raiseKept_free (code : Nat) (ps : List Bytes) : (s.raiseKept code ps).free = s.free := by obtain ⟨_, _, _, h⟩ := s.raiseKept_shape code ps; rw [h]

theorem State.lifeWarn_shape (item : Nat) : ∃ o st d x, s.lifeWarn item = { s with obj := o, start := st, dict := d, out := x } := by
  unfold State.lifeWarn
  split
  · exact ⟨s.obj, s.start, s.dict, s.out, rfl⟩
  · obtain ⟨o, d, x, h⟩ := s.raise_shape Ev.lifeWarn [p8 item]
    rw [h]
    exact ⟨_, _, _, _, rfl⟩

@[simp] theorem State.lifeWarn_pending (item : Nat) : (s.lifeWarn item).pending = s.pending := by obtain ⟨_, _, _, _, h⟩ := s.lifeWarn_shape item; rw [h]
@[simp] theorem State.lifeWarn_now (item : Nat) : (s.lifeWarn item).now = s.now := by obtain ⟨_, _, _, _, h⟩ := s.lifeWarn_shape item; rw [h]
@[simp] theorem State.lifeWarn_standby (item : Nat) : (s.lifeWarn item).standby = s.standby := by obtain ⟨_, _, _, _, h⟩ := s.lifeWarn_shape item; rw [h]
@[simp] theorem State.lifeWarn_staged (item : Nat) : (s.lifeWarn item).staged = s.staged := by obtain ⟨_, _, _, _, h⟩ := s.lifeWarn_shape item; rw [h]
@[simp] theorem State.lifeWarn_prep (item : Nat) : (s.lifeWarn item).prep = s.prep := by obtain ⟨_, _, _, _, h⟩ := s.lifeWarn_shape item; rw [h]
@[simp] theorem State.lifeWarn_cmd (item : Nat) : (s.lifeWarn item).cmd = s.cmd := by obtain ⟨_, _, _, _, h⟩ := s.lifeWarn_shape item; rw [h]
@[simp] theorem State.lifeWarn_tile (item : Nat) : (s.lifeWarn item).tile = s.tile := by obtain ⟨_, _, _, _, h⟩ := s.lifeWarn_shape item; rw [h]
@[simp] theorem State.lifeWarn_spans (item : Nat) : (s.lifeWarn item).spans = s.spans := by obtain ⟨_, _, _, _, h⟩ := s.lifeWarn_shape item; rw [h]
@[simp] theorem State.lifeWarn_touches (item : Nat) : (s.lifeWarn item).touches = s.touches := by obtain ⟨_, _, _, _, h⟩ := s.lifeWarn_shape item; rw [h]
@[simp] theorem State.lifeWarn_upd (item : Nat) : (s.lifeWarn item).upd = s.upd := by obtain ⟨_, _, _, _, h⟩ := s.lifeWarn_shape item; rw [h]
@[simp] theorem State.lifeWarn_link (item : Nat) : (s.lifeWarn item).link = s.link := by obtain ⟨_, _, _, _, h⟩ := s.lifeWarn_shape item; rw [h]
@[simp] theorem State.lifeWarn_coll (item : Nat) : (s.lifeWarn item).coll = s.coll := by obtain ⟨_, _, _, _, h⟩ := s.lifeWarn_shape item; rw [h]
@[simp] theorem State.lifeWarn_tier (item : Nat) : (s.lifeWarn item).tier = s.tier := by obtain ⟨_, _, _, _, h⟩ := s.lifeWarn_shape item; rw [h]
@[simp] theorem State.lifeWarn_store (item : Nat) : (s.lifeWarn item).store = s.store := by obtain ⟨_, _, _, _, h⟩ := s.lifeWarn_shape item; rw [h]
@[simp] theorem State.lifeWarn_power (item : Nat) : (s.lifeWarn item).power = s.power := by obtain ⟨_, _, _, _, h⟩ := s.lifeWarn_shape item; rw [h]
@[simp] theorem State.lifeWarn_clock (item : Nat) : (s.lifeWarn item).clock = s.clock := by obtain ⟨_, _, _, _, h⟩ := s.lifeWarn_shape item; rw [h]
@[simp] theorem State.lifeWarn_cross (item : Nat) : (s.lifeWarn item).cross = s.cross := by obtain ⟨_, _, _, _, h⟩ := s.lifeWarn_shape item; rw [h]
@[simp] theorem State.lifeWarn_fw (item : Nat) : (s.lifeWarn item).fw = s.fw := by obtain ⟨_, _, _, _, h⟩ := s.lifeWarn_shape item; rw [h]
@[simp] theorem State.lifeWarn_free (item : Nat) : (s.lifeWarn item).free = s.free := by obtain ⟨_, _, _, _, h⟩ := s.lifeWarn_shape item; rw [h]

theorem State.lifeExceed_shape (item : Nat) : ∃ o st d x, s.lifeExceed item = { s with obj := o, start := st, dict := d, out := x } := by
  unfold State.lifeExceed
  split
  · exact ⟨s.obj, s.start, s.dict, s.out, rfl⟩
  · obtain ⟨o, d, x, h⟩ := s.raise_shape Ev.lifeExceeded [p8 item]
    rw [h]
    exact ⟨_, _, _, _, rfl⟩

@[simp] theorem State.lifeExceed_pending (item : Nat) : (s.lifeExceed item).pending = s.pending := by obtain ⟨_, _, _, _, h⟩ := s.lifeExceed_shape item; rw [h]
@[simp] theorem State.lifeExceed_now (item : Nat) : (s.lifeExceed item).now = s.now := by obtain ⟨_, _, _, _, h⟩ := s.lifeExceed_shape item; rw [h]
@[simp] theorem State.lifeExceed_standby (item : Nat) : (s.lifeExceed item).standby = s.standby := by obtain ⟨_, _, _, _, h⟩ := s.lifeExceed_shape item; rw [h]
@[simp] theorem State.lifeExceed_staged (item : Nat) : (s.lifeExceed item).staged = s.staged := by obtain ⟨_, _, _, _, h⟩ := s.lifeExceed_shape item; rw [h]
@[simp] theorem State.lifeExceed_prep (item : Nat) : (s.lifeExceed item).prep = s.prep := by obtain ⟨_, _, _, _, h⟩ := s.lifeExceed_shape item; rw [h]
@[simp] theorem State.lifeExceed_cmd (item : Nat) : (s.lifeExceed item).cmd = s.cmd := by obtain ⟨_, _, _, _, h⟩ := s.lifeExceed_shape item; rw [h]
@[simp] theorem State.lifeExceed_tile (item : Nat) : (s.lifeExceed item).tile = s.tile := by obtain ⟨_, _, _, _, h⟩ := s.lifeExceed_shape item; rw [h]
@[simp] theorem State.lifeExceed_spans (item : Nat) : (s.lifeExceed item).spans = s.spans := by obtain ⟨_, _, _, _, h⟩ := s.lifeExceed_shape item; rw [h]
@[simp] theorem State.lifeExceed_touches (item : Nat) : (s.lifeExceed item).touches = s.touches := by obtain ⟨_, _, _, _, h⟩ := s.lifeExceed_shape item; rw [h]
@[simp] theorem State.lifeExceed_upd (item : Nat) : (s.lifeExceed item).upd = s.upd := by obtain ⟨_, _, _, _, h⟩ := s.lifeExceed_shape item; rw [h]
@[simp] theorem State.lifeExceed_link (item : Nat) : (s.lifeExceed item).link = s.link := by obtain ⟨_, _, _, _, h⟩ := s.lifeExceed_shape item; rw [h]
@[simp] theorem State.lifeExceed_coll (item : Nat) : (s.lifeExceed item).coll = s.coll := by obtain ⟨_, _, _, _, h⟩ := s.lifeExceed_shape item; rw [h]
@[simp] theorem State.lifeExceed_tier (item : Nat) : (s.lifeExceed item).tier = s.tier := by obtain ⟨_, _, _, _, h⟩ := s.lifeExceed_shape item; rw [h]
@[simp] theorem State.lifeExceed_store (item : Nat) : (s.lifeExceed item).store = s.store := by obtain ⟨_, _, _, _, h⟩ := s.lifeExceed_shape item; rw [h]
@[simp] theorem State.lifeExceed_power (item : Nat) : (s.lifeExceed item).power = s.power := by obtain ⟨_, _, _, _, h⟩ := s.lifeExceed_shape item; rw [h]
@[simp] theorem State.lifeExceed_clock (item : Nat) : (s.lifeExceed item).clock = s.clock := by obtain ⟨_, _, _, _, h⟩ := s.lifeExceed_shape item; rw [h]
@[simp] theorem State.lifeExceed_cross (item : Nat) : (s.lifeExceed item).cross = s.cross := by obtain ⟨_, _, _, _, h⟩ := s.lifeExceed_shape item; rw [h]
@[simp] theorem State.lifeExceed_fw (item : Nat) : (s.lifeExceed item).fw = s.fw := by obtain ⟨_, _, _, _, h⟩ := s.lifeExceed_shape item; rw [h]
@[simp] theorem State.lifeExceed_free (item : Nat) : (s.lifeExceed item).free = s.free := by obtain ⟨_, _, _, _, h⟩ := s.lifeExceed_shape item; rw [h]

theorem State.formReserved_shape (w a b p e : Nat) (c : Option Nat) :
    ∃ m o d x, s.formReserved w a b p e c = { s with cmd := m, obj := o, dict := d, out := x } := by
  unfold State.formReserved
  split
  · obtain ⟨o, d, x, h⟩ := State.raise_shape (s.updWin w fun x => { x with waiting := x.waiting ++ [{ ty := a, status := b, reason := p, value := e, cseq := c, below := noticeBelow }] }) Ev.resultsBacklog []
    exact ⟨_, o, d, x, h⟩
  · exact ⟨_, s.obj, s.dict, s.out, rfl⟩

theorem State.formNotice_shape (w a b p e : Nat) : ∃ c o d x, s.formNotice w a b p e = { s with cmd := c, obj := o, dict := d, out := x } :=
  s.formReserved_shape w a b p e none

@[simp] theorem State.formNotice_pending (w a b p e : Nat) : (s.formNotice w a b p e).pending = s.pending := by obtain ⟨_, _, _, _, h⟩ := s.formNotice_shape w a b p e; rw [h]
@[simp] theorem State.formNotice_now (w a b p e : Nat) : (s.formNotice w a b p e).now = s.now := by obtain ⟨_, _, _, _, h⟩ := s.formNotice_shape w a b p e; rw [h]
@[simp] theorem State.formNotice_standby (w a b p e : Nat) : (s.formNotice w a b p e).standby = s.standby := by obtain ⟨_, _, _, _, h⟩ := s.formNotice_shape w a b p e; rw [h]
@[simp] theorem State.formNotice_staged (w a b p e : Nat) : (s.formNotice w a b p e).staged = s.staged := by obtain ⟨_, _, _, _, h⟩ := s.formNotice_shape w a b p e; rw [h]
@[simp] theorem State.formNotice_prep (w a b p e : Nat) : (s.formNotice w a b p e).prep = s.prep := by obtain ⟨_, _, _, _, h⟩ := s.formNotice_shape w a b p e; rw [h]
@[simp] theorem State.formNotice_tile (w a b p e : Nat) : (s.formNotice w a b p e).tile = s.tile := by obtain ⟨_, _, _, _, h⟩ := s.formNotice_shape w a b p e; rw [h]
@[simp] theorem State.formNotice_spans (w a b p e : Nat) : (s.formNotice w a b p e).spans = s.spans := by obtain ⟨_, _, _, _, h⟩ := s.formNotice_shape w a b p e; rw [h]
@[simp] theorem State.formNotice_touches (w a b p e : Nat) : (s.formNotice w a b p e).touches = s.touches := by obtain ⟨_, _, _, _, h⟩ := s.formNotice_shape w a b p e; rw [h]
@[simp] theorem State.formNotice_upd (w a b p e : Nat) : (s.formNotice w a b p e).upd = s.upd := by obtain ⟨_, _, _, _, h⟩ := s.formNotice_shape w a b p e; rw [h]
@[simp] theorem State.formNotice_link (w a b p e : Nat) : (s.formNotice w a b p e).link = s.link := by obtain ⟨_, _, _, _, h⟩ := s.formNotice_shape w a b p e; rw [h]
@[simp] theorem State.formNotice_coll (w a b p e : Nat) : (s.formNotice w a b p e).coll = s.coll := by obtain ⟨_, _, _, _, h⟩ := s.formNotice_shape w a b p e; rw [h]
@[simp] theorem State.formNotice_tier (w a b p e : Nat) : (s.formNotice w a b p e).tier = s.tier := by obtain ⟨_, _, _, _, h⟩ := s.formNotice_shape w a b p e; rw [h]
@[simp] theorem State.formNotice_store (w a b p e : Nat) : (s.formNotice w a b p e).store = s.store := by obtain ⟨_, _, _, _, h⟩ := s.formNotice_shape w a b p e; rw [h]
@[simp] theorem State.formNotice_power (w a b p e : Nat) : (s.formNotice w a b p e).power = s.power := by obtain ⟨_, _, _, _, h⟩ := s.formNotice_shape w a b p e; rw [h]
@[simp] theorem State.formNotice_clock (w a b p e : Nat) : (s.formNotice w a b p e).clock = s.clock := by obtain ⟨_, _, _, _, h⟩ := s.formNotice_shape w a b p e; rw [h]
@[simp] theorem State.formNotice_cross (w a b p e : Nat) : (s.formNotice w a b p e).cross = s.cross := by obtain ⟨_, _, _, _, h⟩ := s.formNotice_shape w a b p e; rw [h]
@[simp] theorem State.formNotice_fw (w a b p e : Nat) : (s.formNotice w a b p e).fw = s.fw := by obtain ⟨_, _, _, _, h⟩ := s.formNotice_shape w a b p e; rw [h]
@[simp] theorem State.formNotice_start (w a b p e : Nat) : (s.formNotice w a b p e).start = s.start := by obtain ⟨_, _, _, _, h⟩ := s.formNotice_shape w a b p e; rw [h]
@[simp] theorem State.formNotice_free (w a b p e : Nat) : (s.formNotice w a b p e).free = s.free := by obtain ⟨_, _, _, _, h⟩ := s.formNotice_shape w a b p e; rw [h]

theorem State.windowNotice_shape (w cause : Nat) : ∃ c o d x, s.windowNotice w cause = { s with cmd := c, obj := o, dict := d, out := x } := by
  exact s.formNotice_shape w 4 0 cause _

@[simp] theorem State.windowNotice_pending (w cause : Nat) : (s.windowNotice w cause).pending = s.pending := by obtain ⟨_, _, _, _, h⟩ := s.windowNotice_shape w cause; rw [h]
@[simp] theorem State.windowNotice_now (w cause : Nat) : (s.windowNotice w cause).now = s.now := by obtain ⟨_, _, _, _, h⟩ := s.windowNotice_shape w cause; rw [h]
@[simp] theorem State.windowNotice_standby (w cause : Nat) : (s.windowNotice w cause).standby = s.standby := by obtain ⟨_, _, _, _, h⟩ := s.windowNotice_shape w cause; rw [h]
@[simp] theorem State.windowNotice_staged (w cause : Nat) : (s.windowNotice w cause).staged = s.staged := by obtain ⟨_, _, _, _, h⟩ := s.windowNotice_shape w cause; rw [h]
@[simp] theorem State.windowNotice_prep (w cause : Nat) : (s.windowNotice w cause).prep = s.prep := by obtain ⟨_, _, _, _, h⟩ := s.windowNotice_shape w cause; rw [h]
@[simp] theorem State.windowNotice_tile (w cause : Nat) : (s.windowNotice w cause).tile = s.tile := by obtain ⟨_, _, _, _, h⟩ := s.windowNotice_shape w cause; rw [h]
@[simp] theorem State.windowNotice_spans (w cause : Nat) : (s.windowNotice w cause).spans = s.spans := by obtain ⟨_, _, _, _, h⟩ := s.windowNotice_shape w cause; rw [h]
@[simp] theorem State.windowNotice_touches (w cause : Nat) : (s.windowNotice w cause).touches = s.touches := by obtain ⟨_, _, _, _, h⟩ := s.windowNotice_shape w cause; rw [h]
@[simp] theorem State.windowNotice_upd (w cause : Nat) : (s.windowNotice w cause).upd = s.upd := by obtain ⟨_, _, _, _, h⟩ := s.windowNotice_shape w cause; rw [h]
@[simp] theorem State.windowNotice_link (w cause : Nat) : (s.windowNotice w cause).link = s.link := by obtain ⟨_, _, _, _, h⟩ := s.windowNotice_shape w cause; rw [h]
@[simp] theorem State.windowNotice_coll (w cause : Nat) : (s.windowNotice w cause).coll = s.coll := by obtain ⟨_, _, _, _, h⟩ := s.windowNotice_shape w cause; rw [h]
@[simp] theorem State.windowNotice_tier (w cause : Nat) : (s.windowNotice w cause).tier = s.tier := by obtain ⟨_, _, _, _, h⟩ := s.windowNotice_shape w cause; rw [h]
@[simp] theorem State.windowNotice_store (w cause : Nat) : (s.windowNotice w cause).store = s.store := by obtain ⟨_, _, _, _, h⟩ := s.windowNotice_shape w cause; rw [h]
@[simp] theorem State.windowNotice_power (w cause : Nat) : (s.windowNotice w cause).power = s.power := by obtain ⟨_, _, _, _, h⟩ := s.windowNotice_shape w cause; rw [h]
@[simp] theorem State.windowNotice_clock (w cause : Nat) : (s.windowNotice w cause).clock = s.clock := by obtain ⟨_, _, _, _, h⟩ := s.windowNotice_shape w cause; rw [h]
@[simp] theorem State.windowNotice_cross (w cause : Nat) : (s.windowNotice w cause).cross = s.cross := by obtain ⟨_, _, _, _, h⟩ := s.windowNotice_shape w cause; rw [h]
@[simp] theorem State.windowNotice_fw (w cause : Nat) : (s.windowNotice w cause).fw = s.fw := by obtain ⟨_, _, _, _, h⟩ := s.windowNotice_shape w cause; rw [h]
@[simp] theorem State.windowNotice_start (w cause : Nat) : (s.windowNotice w cause).start = s.start := by obtain ⟨_, _, _, _, h⟩ := s.windowNotice_shape w cause; rw [h]
@[simp] theorem State.windowNotice_free (w cause : Nat) : (s.windowNotice w cause).free = s.free := by obtain ⟨_, _, _, _, h⟩ := s.windowNotice_shape w cause; rw [h]

theorem State.haltWin_shape (w cause hc : Nat) : ∃ c o d x, s.haltWin w cause hc = { s with cmd := c, obj := o, dict := d, out := x } := by
  unfold State.haltWin
  extract_lets was t
  split
  · exact ⟨t.cmd, s.obj, s.dict, s.out, rfl⟩
  · obtain ⟨c, o, d, x, h⟩ := t.windowNotice_shape w cause
    exact ⟨c, o, d, x, h⟩

@[simp] theorem State.haltWin_pending (w cause hc : Nat) : (s.haltWin w cause hc).pending = s.pending := by obtain ⟨_, _, _, _, h⟩ := s.haltWin_shape w cause hc; rw [h]
@[simp] theorem State.haltWin_now (w cause hc : Nat) : (s.haltWin w cause hc).now = s.now := by obtain ⟨_, _, _, _, h⟩ := s.haltWin_shape w cause hc; rw [h]
@[simp] theorem State.haltWin_standby (w cause hc : Nat) : (s.haltWin w cause hc).standby = s.standby := by obtain ⟨_, _, _, _, h⟩ := s.haltWin_shape w cause hc; rw [h]
@[simp] theorem State.haltWin_staged (w cause hc : Nat) : (s.haltWin w cause hc).staged = s.staged := by obtain ⟨_, _, _, _, h⟩ := s.haltWin_shape w cause hc; rw [h]
@[simp] theorem State.haltWin_prep (w cause hc : Nat) : (s.haltWin w cause hc).prep = s.prep := by obtain ⟨_, _, _, _, h⟩ := s.haltWin_shape w cause hc; rw [h]
@[simp] theorem State.haltWin_tile (w cause hc : Nat) : (s.haltWin w cause hc).tile = s.tile := by obtain ⟨_, _, _, _, h⟩ := s.haltWin_shape w cause hc; rw [h]
@[simp] theorem State.haltWin_spans (w cause hc : Nat) : (s.haltWin w cause hc).spans = s.spans := by obtain ⟨_, _, _, _, h⟩ := s.haltWin_shape w cause hc; rw [h]
@[simp] theorem State.haltWin_touches (w cause hc : Nat) : (s.haltWin w cause hc).touches = s.touches := by obtain ⟨_, _, _, _, h⟩ := s.haltWin_shape w cause hc; rw [h]
@[simp] theorem State.haltWin_upd (w cause hc : Nat) : (s.haltWin w cause hc).upd = s.upd := by obtain ⟨_, _, _, _, h⟩ := s.haltWin_shape w cause hc; rw [h]
@[simp] theorem State.haltWin_link (w cause hc : Nat) : (s.haltWin w cause hc).link = s.link := by obtain ⟨_, _, _, _, h⟩ := s.haltWin_shape w cause hc; rw [h]
@[simp] theorem State.haltWin_coll (w cause hc : Nat) : (s.haltWin w cause hc).coll = s.coll := by obtain ⟨_, _, _, _, h⟩ := s.haltWin_shape w cause hc; rw [h]
@[simp] theorem State.haltWin_tier (w cause hc : Nat) : (s.haltWin w cause hc).tier = s.tier := by obtain ⟨_, _, _, _, h⟩ := s.haltWin_shape w cause hc; rw [h]
@[simp] theorem State.haltWin_store (w cause hc : Nat) : (s.haltWin w cause hc).store = s.store := by obtain ⟨_, _, _, _, h⟩ := s.haltWin_shape w cause hc; rw [h]
@[simp] theorem State.haltWin_power (w cause hc : Nat) : (s.haltWin w cause hc).power = s.power := by obtain ⟨_, _, _, _, h⟩ := s.haltWin_shape w cause hc; rw [h]
@[simp] theorem State.haltWin_clock (w cause hc : Nat) : (s.haltWin w cause hc).clock = s.clock := by obtain ⟨_, _, _, _, h⟩ := s.haltWin_shape w cause hc; rw [h]
@[simp] theorem State.haltWin_cross (w cause hc : Nat) : (s.haltWin w cause hc).cross = s.cross := by obtain ⟨_, _, _, _, h⟩ := s.haltWin_shape w cause hc; rw [h]
@[simp] theorem State.haltWin_fw (w cause hc : Nat) : (s.haltWin w cause hc).fw = s.fw := by obtain ⟨_, _, _, _, h⟩ := s.haltWin_shape w cause hc; rw [h]
@[simp] theorem State.haltWin_start (w cause hc : Nat) : (s.haltWin w cause hc).start = s.start := by obtain ⟨_, _, _, _, h⟩ := s.haltWin_shape w cause hc; rw [h]
@[simp] theorem State.haltWin_free (w cause hc : Nat) : (s.haltWin w cause hc).free = s.free := by obtain ⟨_, _, _, _, h⟩ := s.haltWin_shape w cause hc; rw [h]

theorem State.complete_shape (w : Nat) (e : QEntry) : ∃ c, s.complete w e = { s with cmd := c } := by
  unfold State.complete
  split
  · exact ⟨_, rfl⟩
  · split
    · exact ⟨s.cmd, rfl⟩
    · exact ⟨_, rfl⟩

@[simp] theorem State.complete_pending (w : Nat) (e : QEntry) : (s.complete w e).pending = s.pending := by obtain ⟨_, h⟩ := s.complete_shape w e; rw [h]
@[simp] theorem State.complete_now (w : Nat) (e : QEntry) : (s.complete w e).now = s.now := by obtain ⟨_, h⟩ := s.complete_shape w e; rw [h]
@[simp] theorem State.complete_standby (w : Nat) (e : QEntry) : (s.complete w e).standby = s.standby := by obtain ⟨_, h⟩ := s.complete_shape w e; rw [h]
@[simp] theorem State.complete_obj (w : Nat) (e : QEntry) : (s.complete w e).obj = s.obj := by obtain ⟨_, h⟩ := s.complete_shape w e; rw [h]
@[simp] theorem State.complete_staged (w : Nat) (e : QEntry) : (s.complete w e).staged = s.staged := by obtain ⟨_, h⟩ := s.complete_shape w e; rw [h]
@[simp] theorem State.complete_prep (w : Nat) (e : QEntry) : (s.complete w e).prep = s.prep := by obtain ⟨_, h⟩ := s.complete_shape w e; rw [h]
@[simp] theorem State.complete_tile (w : Nat) (e : QEntry) : (s.complete w e).tile = s.tile := by obtain ⟨_, h⟩ := s.complete_shape w e; rw [h]
@[simp] theorem State.complete_spans (w : Nat) (e : QEntry) : (s.complete w e).spans = s.spans := by obtain ⟨_, h⟩ := s.complete_shape w e; rw [h]
@[simp] theorem State.complete_touches (w : Nat) (e : QEntry) : (s.complete w e).touches = s.touches := by obtain ⟨_, h⟩ := s.complete_shape w e; rw [h]
@[simp] theorem State.complete_upd (w : Nat) (e : QEntry) : (s.complete w e).upd = s.upd := by obtain ⟨_, h⟩ := s.complete_shape w e; rw [h]
@[simp] theorem State.complete_link (w : Nat) (e : QEntry) : (s.complete w e).link = s.link := by obtain ⟨_, h⟩ := s.complete_shape w e; rw [h]
@[simp] theorem State.complete_coll (w : Nat) (e : QEntry) : (s.complete w e).coll = s.coll := by obtain ⟨_, h⟩ := s.complete_shape w e; rw [h]
@[simp] theorem State.complete_tier (w : Nat) (e : QEntry) : (s.complete w e).tier = s.tier := by obtain ⟨_, h⟩ := s.complete_shape w e; rw [h]
@[simp] theorem State.complete_store (w : Nat) (e : QEntry) : (s.complete w e).store = s.store := by obtain ⟨_, h⟩ := s.complete_shape w e; rw [h]
@[simp] theorem State.complete_power (w : Nat) (e : QEntry) : (s.complete w e).power = s.power := by obtain ⟨_, h⟩ := s.complete_shape w e; rw [h]
@[simp] theorem State.complete_clock (w : Nat) (e : QEntry) : (s.complete w e).clock = s.clock := by obtain ⟨_, h⟩ := s.complete_shape w e; rw [h]
@[simp] theorem State.complete_cross (w : Nat) (e : QEntry) : (s.complete w e).cross = s.cross := by obtain ⟨_, h⟩ := s.complete_shape w e; rw [h]
@[simp] theorem State.complete_fw (w : Nat) (e : QEntry) : (s.complete w e).fw = s.fw := by obtain ⟨_, h⟩ := s.complete_shape w e; rw [h]
@[simp] theorem State.complete_start (w : Nat) (e : QEntry) : (s.complete w e).start = s.start := by obtain ⟨_, h⟩ := s.complete_shape w e; rw [h]
@[simp] theorem State.complete_dict (w : Nat) (e : QEntry) : (s.complete w e).dict = s.dict := by obtain ⟨_, h⟩ := s.complete_shape w e; rw [h]
@[simp] theorem State.complete_free (w : Nat) (e : QEntry) : (s.complete w e).free = s.free := by obtain ⟨_, h⟩ := s.complete_shape w e; rw [h]
@[simp] theorem State.complete_out (w : Nat) (e : QEntry) : (s.complete w e).out = s.out := by obtain ⟨_, h⟩ := s.complete_shape w e; rw [h]

theorem State.retire_shape (w : Nat) (e : QEntry) : ∃ c, s.retire w e = { s with cmd := c } := by
  unfold State.retire
  extract_lets full t
  obtain ⟨c, h⟩ := s.complete_shape w e
  rw [show t = _ from h]
  exact ⟨_, rfl⟩

@[simp] theorem State.retire_pending (w : Nat) (e : QEntry) : (s.retire w e).pending = s.pending := by obtain ⟨_, h⟩ := s.retire_shape w e; rw [h]
@[simp] theorem State.retire_now (w : Nat) (e : QEntry) : (s.retire w e).now = s.now := by obtain ⟨_, h⟩ := s.retire_shape w e; rw [h]
@[simp] theorem State.retire_standby (w : Nat) (e : QEntry) : (s.retire w e).standby = s.standby := by obtain ⟨_, h⟩ := s.retire_shape w e; rw [h]
@[simp] theorem State.retire_obj (w : Nat) (e : QEntry) : (s.retire w e).obj = s.obj := by obtain ⟨_, h⟩ := s.retire_shape w e; rw [h]
@[simp] theorem State.retire_staged (w : Nat) (e : QEntry) : (s.retire w e).staged = s.staged := by obtain ⟨_, h⟩ := s.retire_shape w e; rw [h]
@[simp] theorem State.retire_prep (w : Nat) (e : QEntry) : (s.retire w e).prep = s.prep := by obtain ⟨_, h⟩ := s.retire_shape w e; rw [h]
@[simp] theorem State.retire_tile (w : Nat) (e : QEntry) : (s.retire w e).tile = s.tile := by obtain ⟨_, h⟩ := s.retire_shape w e; rw [h]
@[simp] theorem State.retire_spans (w : Nat) (e : QEntry) : (s.retire w e).spans = s.spans := by obtain ⟨_, h⟩ := s.retire_shape w e; rw [h]
@[simp] theorem State.retire_touches (w : Nat) (e : QEntry) : (s.retire w e).touches = s.touches := by obtain ⟨_, h⟩ := s.retire_shape w e; rw [h]
@[simp] theorem State.retire_upd (w : Nat) (e : QEntry) : (s.retire w e).upd = s.upd := by obtain ⟨_, h⟩ := s.retire_shape w e; rw [h]
@[simp] theorem State.retire_link (w : Nat) (e : QEntry) : (s.retire w e).link = s.link := by obtain ⟨_, h⟩ := s.retire_shape w e; rw [h]
@[simp] theorem State.retire_coll (w : Nat) (e : QEntry) : (s.retire w e).coll = s.coll := by obtain ⟨_, h⟩ := s.retire_shape w e; rw [h]
@[simp] theorem State.retire_tier (w : Nat) (e : QEntry) : (s.retire w e).tier = s.tier := by obtain ⟨_, h⟩ := s.retire_shape w e; rw [h]
@[simp] theorem State.retire_store (w : Nat) (e : QEntry) : (s.retire w e).store = s.store := by obtain ⟨_, h⟩ := s.retire_shape w e; rw [h]
@[simp] theorem State.retire_power (w : Nat) (e : QEntry) : (s.retire w e).power = s.power := by obtain ⟨_, h⟩ := s.retire_shape w e; rw [h]
@[simp] theorem State.retire_clock (w : Nat) (e : QEntry) : (s.retire w e).clock = s.clock := by obtain ⟨_, h⟩ := s.retire_shape w e; rw [h]
@[simp] theorem State.retire_cross (w : Nat) (e : QEntry) : (s.retire w e).cross = s.cross := by obtain ⟨_, h⟩ := s.retire_shape w e; rw [h]
@[simp] theorem State.retire_fw (w : Nat) (e : QEntry) : (s.retire w e).fw = s.fw := by obtain ⟨_, h⟩ := s.retire_shape w e; rw [h]
@[simp] theorem State.retire_start (w : Nat) (e : QEntry) : (s.retire w e).start = s.start := by obtain ⟨_, h⟩ := s.retire_shape w e; rw [h]
@[simp] theorem State.retire_dict (w : Nat) (e : QEntry) : (s.retire w e).dict = s.dict := by obtain ⟨_, h⟩ := s.retire_shape w e; rw [h]
@[simp] theorem State.retire_free (w : Nat) (e : QEntry) : (s.retire w e).free = s.free := by obtain ⟨_, h⟩ := s.retire_shape w e; rw [h]
@[simp] theorem State.retire_out (w : Nat) (e : QEntry) : (s.retire w e).out = s.out := by obtain ⟨_, h⟩ := s.retire_shape w e; rw [h]

theorem State.refuse_shape (w : Nat) (e : QEntry) (status reason : Nat) : ∃ c o d x, s.refuse w e status reason = { s with cmd := c, obj := o, dict := d, out := x } := by
  unfold State.refuse
  obtain ⟨c', h'⟩ := s.retire_shape w { e with status := status, reason := reason }
  rw [h']
  obtain ⟨c, o, d, x, h⟩ := State.haltWin_shape { s with cmd := c' } w 0xA1 (256 * status + reason)
  exact ⟨c, o, d, x, h⟩

@[simp] theorem State.refuse_pending (w : Nat) (e : QEntry) (status reason : Nat) : (s.refuse w e status reason).pending = s.pending := by obtain ⟨_, _, _, _, h⟩ := s.refuse_shape w e status reason; rw [h]
@[simp] theorem State.refuse_now (w : Nat) (e : QEntry) (status reason : Nat) : (s.refuse w e status reason).now = s.now := by obtain ⟨_, _, _, _, h⟩ := s.refuse_shape w e status reason; rw [h]
@[simp] theorem State.refuse_standby (w : Nat) (e : QEntry) (status reason : Nat) : (s.refuse w e status reason).standby = s.standby := by obtain ⟨_, _, _, _, h⟩ := s.refuse_shape w e status reason; rw [h]
@[simp] theorem State.refuse_staged (w : Nat) (e : QEntry) (status reason : Nat) : (s.refuse w e status reason).staged = s.staged := by obtain ⟨_, _, _, _, h⟩ := s.refuse_shape w e status reason; rw [h]
@[simp] theorem State.refuse_prep (w : Nat) (e : QEntry) (status reason : Nat) : (s.refuse w e status reason).prep = s.prep := by obtain ⟨_, _, _, _, h⟩ := s.refuse_shape w e status reason; rw [h]
@[simp] theorem State.refuse_tile (w : Nat) (e : QEntry) (status reason : Nat) : (s.refuse w e status reason).tile = s.tile := by obtain ⟨_, _, _, _, h⟩ := s.refuse_shape w e status reason; rw [h]
@[simp] theorem State.refuse_spans (w : Nat) (e : QEntry) (status reason : Nat) : (s.refuse w e status reason).spans = s.spans := by obtain ⟨_, _, _, _, h⟩ := s.refuse_shape w e status reason; rw [h]
@[simp] theorem State.refuse_touches (w : Nat) (e : QEntry) (status reason : Nat) : (s.refuse w e status reason).touches = s.touches := by obtain ⟨_, _, _, _, h⟩ := s.refuse_shape w e status reason; rw [h]
@[simp] theorem State.refuse_upd (w : Nat) (e : QEntry) (status reason : Nat) : (s.refuse w e status reason).upd = s.upd := by obtain ⟨_, _, _, _, h⟩ := s.refuse_shape w e status reason; rw [h]
@[simp] theorem State.refuse_link (w : Nat) (e : QEntry) (status reason : Nat) : (s.refuse w e status reason).link = s.link := by obtain ⟨_, _, _, _, h⟩ := s.refuse_shape w e status reason; rw [h]
@[simp] theorem State.refuse_coll (w : Nat) (e : QEntry) (status reason : Nat) : (s.refuse w e status reason).coll = s.coll := by obtain ⟨_, _, _, _, h⟩ := s.refuse_shape w e status reason; rw [h]
@[simp] theorem State.refuse_tier (w : Nat) (e : QEntry) (status reason : Nat) : (s.refuse w e status reason).tier = s.tier := by obtain ⟨_, _, _, _, h⟩ := s.refuse_shape w e status reason; rw [h]
@[simp] theorem State.refuse_store (w : Nat) (e : QEntry) (status reason : Nat) : (s.refuse w e status reason).store = s.store := by obtain ⟨_, _, _, _, h⟩ := s.refuse_shape w e status reason; rw [h]
@[simp] theorem State.refuse_power (w : Nat) (e : QEntry) (status reason : Nat) : (s.refuse w e status reason).power = s.power := by obtain ⟨_, _, _, _, h⟩ := s.refuse_shape w e status reason; rw [h]
@[simp] theorem State.refuse_clock (w : Nat) (e : QEntry) (status reason : Nat) : (s.refuse w e status reason).clock = s.clock := by obtain ⟨_, _, _, _, h⟩ := s.refuse_shape w e status reason; rw [h]
@[simp] theorem State.refuse_cross (w : Nat) (e : QEntry) (status reason : Nat) : (s.refuse w e status reason).cross = s.cross := by obtain ⟨_, _, _, _, h⟩ := s.refuse_shape w e status reason; rw [h]
@[simp] theorem State.refuse_fw (w : Nat) (e : QEntry) (status reason : Nat) : (s.refuse w e status reason).fw = s.fw := by obtain ⟨_, _, _, _, h⟩ := s.refuse_shape w e status reason; rw [h]
@[simp] theorem State.refuse_start (w : Nat) (e : QEntry) (status reason : Nat) : (s.refuse w e status reason).start = s.start := by obtain ⟨_, _, _, _, h⟩ := s.refuse_shape w e status reason; rw [h]
@[simp] theorem State.refuse_free (w : Nat) (e : QEntry) (status reason : Nat) : (s.refuse w e status reason).free = s.free := by obtain ⟨_, _, _, _, h⟩ := s.refuse_shape w e status reason; rw [h]

/-! ### Crossings

What passes a crossing changes the queues between the clock domains and nothing else. -/

section
@[simp] theorem State.pass_pending (c : Crossing) (v : Nat) : (s.pass c v).pending = s.pending := rfl
@[simp] theorem State.pass_now (c : Crossing) (v : Nat) : (s.pass c v).now = s.now := rfl
@[simp] theorem State.pass_standby (c : Crossing) (v : Nat) : (s.pass c v).standby = s.standby := rfl
@[simp] theorem State.pass_obj (c : Crossing) (v : Nat) : (s.pass c v).obj = s.obj := rfl
@[simp] theorem State.pass_staged (c : Crossing) (v : Nat) : (s.pass c v).staged = s.staged := rfl
@[simp] theorem State.pass_prep (c : Crossing) (v : Nat) : (s.pass c v).prep = s.prep := rfl
@[simp] theorem State.pass_cmd (c : Crossing) (v : Nat) : (s.pass c v).cmd = s.cmd := rfl
@[simp] theorem State.pass_tile (c : Crossing) (v : Nat) : (s.pass c v).tile = s.tile := rfl
@[simp] theorem State.pass_spans (c : Crossing) (v : Nat) : (s.pass c v).spans = s.spans := rfl
@[simp] theorem State.pass_touches (c : Crossing) (v : Nat) : (s.pass c v).touches = s.touches := rfl
@[simp] theorem State.pass_upd (c : Crossing) (v : Nat) : (s.pass c v).upd = s.upd := rfl
@[simp] theorem State.pass_link (c : Crossing) (v : Nat) : (s.pass c v).link = s.link := rfl
@[simp] theorem State.pass_coll (c : Crossing) (v : Nat) : (s.pass c v).coll = s.coll := rfl
@[simp] theorem State.pass_tier (c : Crossing) (v : Nat) : (s.pass c v).tier = s.tier := rfl
@[simp] theorem State.pass_store (c : Crossing) (v : Nat) : (s.pass c v).store = s.store := rfl
@[simp] theorem State.pass_power (c : Crossing) (v : Nat) : (s.pass c v).power = s.power := rfl
@[simp] theorem State.pass_clock (c : Crossing) (v : Nat) : (s.pass c v).clock = s.clock := rfl
@[simp] theorem State.pass_fw (c : Crossing) (v : Nat) : (s.pass c v).fw = s.fw := rfl
@[simp] theorem State.pass_start (c : Crossing) (v : Nat) : (s.pass c v).start = s.start := rfl
@[simp] theorem State.pass_dict (c : Crossing) (v : Nat) : (s.pass c v).dict = s.dict := rfl
@[simp] theorem State.pass_free (c : Crossing) (v : Nat) : (s.pass c v).free = s.free := rfl
@[simp] theorem State.pass_out (c : Crossing) (v : Nat) : (s.pass c v).out = s.out := rfl
end

theorem State.passTiles_shape (a b net v : Nat) : ∃ x, s.passTiles a b net v = { s with cross := x } := by
  unfold State.passTiles
  extract_lets l
  generalize l.zip (l.drop 1) = m
  induction m generalizing s with
  | nil => exact ⟨s.cross, rfl⟩
  | cons y m ih =>
    obtain ⟨x, h⟩ := ih (s.pass (.regions y.1 y.2 net) v)
    exact ⟨x, h⟩

@[simp] theorem State.passTiles_pending (a b net v : Nat) : (s.passTiles a b net v).pending = s.pending := by obtain ⟨_, h⟩ := s.passTiles_shape a b net v; rw [h]
@[simp] theorem State.passTiles_now (a b net v : Nat) : (s.passTiles a b net v).now = s.now := by obtain ⟨_, h⟩ := s.passTiles_shape a b net v; rw [h]
@[simp] theorem State.passTiles_standby (a b net v : Nat) : (s.passTiles a b net v).standby = s.standby := by obtain ⟨_, h⟩ := s.passTiles_shape a b net v; rw [h]
@[simp] theorem State.passTiles_obj (a b net v : Nat) : (s.passTiles a b net v).obj = s.obj := by obtain ⟨_, h⟩ := s.passTiles_shape a b net v; rw [h]
@[simp] theorem State.passTiles_staged (a b net v : Nat) : (s.passTiles a b net v).staged = s.staged := by obtain ⟨_, h⟩ := s.passTiles_shape a b net v; rw [h]
@[simp] theorem State.passTiles_prep (a b net v : Nat) : (s.passTiles a b net v).prep = s.prep := by obtain ⟨_, h⟩ := s.passTiles_shape a b net v; rw [h]
@[simp] theorem State.passTiles_cmd (a b net v : Nat) : (s.passTiles a b net v).cmd = s.cmd := by obtain ⟨_, h⟩ := s.passTiles_shape a b net v; rw [h]
@[simp] theorem State.passTiles_tile (a b net v : Nat) : (s.passTiles a b net v).tile = s.tile := by obtain ⟨_, h⟩ := s.passTiles_shape a b net v; rw [h]
@[simp] theorem State.passTiles_spans (a b net v : Nat) : (s.passTiles a b net v).spans = s.spans := by obtain ⟨_, h⟩ := s.passTiles_shape a b net v; rw [h]
@[simp] theorem State.passTiles_touches (a b net v : Nat) : (s.passTiles a b net v).touches = s.touches := by obtain ⟨_, h⟩ := s.passTiles_shape a b net v; rw [h]
@[simp] theorem State.passTiles_upd (a b net v : Nat) : (s.passTiles a b net v).upd = s.upd := by obtain ⟨_, h⟩ := s.passTiles_shape a b net v; rw [h]
@[simp] theorem State.passTiles_link (a b net v : Nat) : (s.passTiles a b net v).link = s.link := by obtain ⟨_, h⟩ := s.passTiles_shape a b net v; rw [h]
@[simp] theorem State.passTiles_coll (a b net v : Nat) : (s.passTiles a b net v).coll = s.coll := by obtain ⟨_, h⟩ := s.passTiles_shape a b net v; rw [h]
@[simp] theorem State.passTiles_tier (a b net v : Nat) : (s.passTiles a b net v).tier = s.tier := by obtain ⟨_, h⟩ := s.passTiles_shape a b net v; rw [h]
@[simp] theorem State.passTiles_store (a b net v : Nat) : (s.passTiles a b net v).store = s.store := by obtain ⟨_, h⟩ := s.passTiles_shape a b net v; rw [h]
@[simp] theorem State.passTiles_power (a b net v : Nat) : (s.passTiles a b net v).power = s.power := by obtain ⟨_, h⟩ := s.passTiles_shape a b net v; rw [h]
@[simp] theorem State.passTiles_clock (a b net v : Nat) : (s.passTiles a b net v).clock = s.clock := by obtain ⟨_, h⟩ := s.passTiles_shape a b net v; rw [h]
@[simp] theorem State.passTiles_fw (a b net v : Nat) : (s.passTiles a b net v).fw = s.fw := by obtain ⟨_, h⟩ := s.passTiles_shape a b net v; rw [h]
@[simp] theorem State.passTiles_start (a b net v : Nat) : (s.passTiles a b net v).start = s.start := by obtain ⟨_, h⟩ := s.passTiles_shape a b net v; rw [h]
@[simp] theorem State.passTiles_dict (a b net v : Nat) : (s.passTiles a b net v).dict = s.dict := by obtain ⟨_, h⟩ := s.passTiles_shape a b net v; rw [h]
@[simp] theorem State.passTiles_free (a b net v : Nat) : (s.passTiles a b net v).free = s.free := by obtain ⟨_, h⟩ := s.passTiles_shape a b net v; rw [h]
@[simp] theorem State.passTiles_out (a b net v : Nat) : (s.passTiles a b net v).out = s.out := by obtain ⟨_, h⟩ := s.passTiles_shape a b net v; rw [h]

theorem State.passArray_shape (c : Nat → Crossing) (ts : List Nat) (v : Nat) : ∃ x, s.passArray c ts v = { s with cross := x } := by
  unfold State.passArray
  generalize (ts.map s.regionOf).eraseDups = m
  induction m generalizing s with
  | nil => exact ⟨s.cross, rfl⟩
  | cons r m ih =>
    obtain ⟨x, h⟩ := ih (s.pass (c r) v)
    exact ⟨x, h⟩

@[simp] theorem State.passArray_pending (c : Nat → Crossing) (ts : List Nat) (v : Nat) : (s.passArray c ts v).pending = s.pending := by obtain ⟨_, h⟩ := s.passArray_shape c ts v; rw [h]
@[simp] theorem State.passArray_now (c : Nat → Crossing) (ts : List Nat) (v : Nat) : (s.passArray c ts v).now = s.now := by obtain ⟨_, h⟩ := s.passArray_shape c ts v; rw [h]
@[simp] theorem State.passArray_standby (c : Nat → Crossing) (ts : List Nat) (v : Nat) : (s.passArray c ts v).standby = s.standby := by obtain ⟨_, h⟩ := s.passArray_shape c ts v; rw [h]
@[simp] theorem State.passArray_obj (c : Nat → Crossing) (ts : List Nat) (v : Nat) : (s.passArray c ts v).obj = s.obj := by obtain ⟨_, h⟩ := s.passArray_shape c ts v; rw [h]
@[simp] theorem State.passArray_staged (c : Nat → Crossing) (ts : List Nat) (v : Nat) : (s.passArray c ts v).staged = s.staged := by obtain ⟨_, h⟩ := s.passArray_shape c ts v; rw [h]
@[simp] theorem State.passArray_prep (c : Nat → Crossing) (ts : List Nat) (v : Nat) : (s.passArray c ts v).prep = s.prep := by obtain ⟨_, h⟩ := s.passArray_shape c ts v; rw [h]
@[simp] theorem State.passArray_cmd (c : Nat → Crossing) (ts : List Nat) (v : Nat) : (s.passArray c ts v).cmd = s.cmd := by obtain ⟨_, h⟩ := s.passArray_shape c ts v; rw [h]
@[simp] theorem State.passArray_tile (c : Nat → Crossing) (ts : List Nat) (v : Nat) : (s.passArray c ts v).tile = s.tile := by obtain ⟨_, h⟩ := s.passArray_shape c ts v; rw [h]
@[simp] theorem State.passArray_spans (c : Nat → Crossing) (ts : List Nat) (v : Nat) : (s.passArray c ts v).spans = s.spans := by obtain ⟨_, h⟩ := s.passArray_shape c ts v; rw [h]
@[simp] theorem State.passArray_touches (c : Nat → Crossing) (ts : List Nat) (v : Nat) : (s.passArray c ts v).touches = s.touches := by obtain ⟨_, h⟩ := s.passArray_shape c ts v; rw [h]
@[simp] theorem State.passArray_upd (c : Nat → Crossing) (ts : List Nat) (v : Nat) : (s.passArray c ts v).upd = s.upd := by obtain ⟨_, h⟩ := s.passArray_shape c ts v; rw [h]
@[simp] theorem State.passArray_link (c : Nat → Crossing) (ts : List Nat) (v : Nat) : (s.passArray c ts v).link = s.link := by obtain ⟨_, h⟩ := s.passArray_shape c ts v; rw [h]
@[simp] theorem State.passArray_coll (c : Nat → Crossing) (ts : List Nat) (v : Nat) : (s.passArray c ts v).coll = s.coll := by obtain ⟨_, h⟩ := s.passArray_shape c ts v; rw [h]
@[simp] theorem State.passArray_tier (c : Nat → Crossing) (ts : List Nat) (v : Nat) : (s.passArray c ts v).tier = s.tier := by obtain ⟨_, h⟩ := s.passArray_shape c ts v; rw [h]
@[simp] theorem State.passArray_store (c : Nat → Crossing) (ts : List Nat) (v : Nat) : (s.passArray c ts v).store = s.store := by obtain ⟨_, h⟩ := s.passArray_shape c ts v; rw [h]
@[simp] theorem State.passArray_power (c : Nat → Crossing) (ts : List Nat) (v : Nat) : (s.passArray c ts v).power = s.power := by obtain ⟨_, h⟩ := s.passArray_shape c ts v; rw [h]
@[simp] theorem State.passArray_clock (c : Nat → Crossing) (ts : List Nat) (v : Nat) : (s.passArray c ts v).clock = s.clock := by obtain ⟨_, h⟩ := s.passArray_shape c ts v; rw [h]
@[simp] theorem State.passArray_fw (c : Nat → Crossing) (ts : List Nat) (v : Nat) : (s.passArray c ts v).fw = s.fw := by obtain ⟨_, h⟩ := s.passArray_shape c ts v; rw [h]
@[simp] theorem State.passArray_start (c : Nat → Crossing) (ts : List Nat) (v : Nat) : (s.passArray c ts v).start = s.start := by obtain ⟨_, h⟩ := s.passArray_shape c ts v; rw [h]
@[simp] theorem State.passArray_dict (c : Nat → Crossing) (ts : List Nat) (v : Nat) : (s.passArray c ts v).dict = s.dict := by obtain ⟨_, h⟩ := s.passArray_shape c ts v; rw [h]
@[simp] theorem State.passArray_free (c : Nat → Crossing) (ts : List Nat) (v : Nat) : (s.passArray c ts v).free = s.free := by obtain ⟨_, h⟩ := s.passArray_shape c ts v; rw [h]
@[simp] theorem State.passArray_out (c : Nat → Crossing) (ts : List Nat) (v : Nat) : (s.passArray c ts v).out = s.out := by obtain ⟨_, h⟩ := s.passArray_shape c ts v; rw [h]

/-! ### Object values -/

variable {s} {k v : Nat}

/-- What is written is read, in a state of the module's form. -/
@[simp] theorem State.rd_wr_self (s : State) (k v : Nat) : (s.wr k v).rd k = v := by
  unfold State.rd State.wr
  dsimp only
  split
  · next h => rw [Tab.find_erase_self, Option.getD_none, h]
  · rw [Tab.find_insert_self, Option.getD_some]

/-- A write of one object leaves every other value as it was. -/
theorem State.rd_wr_ne {j : Nat} (h : j ≠ k) : (s.wr k v).rd j = s.rd j := by
  unfold State.rd State.wr
  dsimp only
  split
  · rw [Tab.find_erase_ne h]
  · rw [Tab.find_insert_ne v h]

@[simp] theorem State.rd_count_self (s : State) (k v : Nat) : (s.count k v).rd k = (s.rd k + v) % 2 ^ 64 := State.rd_wr_self s k _
theorem State.rd_count_ne {j : Nat} (h : j ≠ k) : (s.count k v).rd j = s.rd j := State.rd_wr_ne h
@[simp] theorem State.rd_countSat_self (s : State) (k v : Nat) : (s.countSat k v).rd k = min (s.rd k + v) (2 ^ 32 - 1) := State.rd_wr_self s k _
theorem State.rd_countSat_ne {j : Nat} (h : j ≠ k) : (s.countSat k v).rd j = s.rd j := State.rd_wr_ne h

/-- Object values stand in the object table alone. -/
theorem State.rd_congr {t : State} (h : t.obj = s.obj) (j : Nat) : t.rd j = s.rd j := by rw [State.rd, State.rd, h]

/-- The form after an operation, from its `Within` lemma. -/
theorem State.Form.of {t : State} {g : Scope} (f : s.Form) (h : Within g s t) : t.Form := h.form f

theorem State.Form.wr (f : s.Form) : (s.wr k v).Form := f.of (State.wr_within (Within.refl ⟨[], fun _ => True⟩ s) k v trivial)
theorem State.Form.count (f : s.Form) : (s.count k v).Form := f.of (State.count_within (Within.refl ⟨[], fun _ => True⟩ s) trivial)
theorem State.Form.countSat (f : s.Form) : (s.countSat k v).Form := f.of (State.countSat_within (Within.refl ⟨[], fun _ => True⟩ s) trivial)
theorem State.Form.emit {x : Out} (f : s.Form) : (s.emit x).Form := f.of (State.emit_within (Within.refl ⟨[], fun _ => True⟩ s))
theorem State.Form.raise {c : Nat} {ps : List Bytes} (f : s.Form) : (s.raise c ps).Form :=
  f.of (State.raiseAny_within (Within.refl ⟨[], fun _ => True⟩ s) fun _ => trivial)

/-! ### What an event changes -/

/-- The objects that forming an event record may change: flag words (0x9100), occurrence counts (0x9201 to 0x920F) and the count of frames
sent. -/
theorem State.rd_announce {r : EventRec} {j : Nat} (h : eventKey j = false) : (s.announce r).rd j = s.rd j := by
  have hj : j ≠ Obj.dictFramesTx := by
    rintro rfl
    exact absurd h (by decide)
  have key : ∀ (l : List Src) (b : Bytes) (v : State),
      (l.foldl (fun s d => (s.emit (.notice d b)).count Obj.dictFramesTx 1) v).rd j = v.rd j := by
    intro l b
    induction l with
    | nil => exact fun v => rfl
    | cons d l ih =>
      intro v
      exact (ih _).trans ((State.rd_count_ne hj).trans rfl)
  exact key _ _ s

theorem State.rd_form {code j : Nat} {ps : List Bytes} (h : eventKey j = false) (hc : 256 ≤ code ∧ code < 4096) :
    (s.form code ps).rd j = s.rd j := by
  have h1 : j ≠ Obj.occurrences (code / 256 - 1) (code % 256) := by
    rintro rfl
    simp only [eventKey, Obj.occurrences, Bool.or_eq_false_iff, decide_eq_false_iff_not] at h
    omega
  have h2 : j ≠ Obj.flags (code / 256) := by
    rintro rfl
    simp only [eventKey, Obj.flags, Bool.or_eq_false_iff, decide_eq_false_iff_not] at h
    omega
  unfold State.form
  exact (State.rd_announce h).trans ((State.rd_wr_ne h2).trans (State.rd_wr_ne h1))

/-- An event changes no object but those of the event itself. -/
theorem State.rd_raise {code j : Nat} {ps : List Bytes} (h : eventKey j = false) (hc : 256 ≤ code ∧ code < 4096) :
    (s.raise code ps).rd j = s.rd j := by
  unfold State.raise
  extract_lets +onlyGivenNames -underBinder -merge l a _ b
  split
  · exact (State.rd_form (s := b) (code := Ev.logOverrun) h (by decide)).trans (State.rd_form h hc)
  · exact State.rd_form h hc

/-! ### Windows -/

theorem State.win_setWin_ne {w u : Nat} {x : Window} (h : u ≠ w) : (s.setWin w x).win u = s.win u :=
  Tab.get_set_ne Window.reset x h

theorem State.win_updWin_ne {w u : Nat} {g : Window → Window} (h : u ≠ w) : (s.updWin w g).win u = s.win u :=
  State.win_setWin_ne h

theorem State.win_congr {t : State} (h : t.cmd = s.cmd) (w : Nat) : t.win w = s.win w := by rw [State.win, State.win, h]

/-! ### Sequence numbers -/

theorem seqNext_lt (a : Nat) : seqNext a < 2 ^ 32 := Nat.mod_lt _ (by decide)

end Sys2Proof.Machine
end

