-- ==== Sys2Proof/Laws/WithinAccess.lean ====
section
/-! SUPPORT. What each operation of Machine/Access.lean may change, and that it keeps the form of the state. -/
namespace Sys2Proof.Machine
set_option Elab.async false

variable {g : Scope} {s u : State}

theorem State.act_within {src : Src} {key : Nat} {v : Nat} {deny : Bool} {cond : Nat} {f : State → State} (hf6 : ∀ v0, Within g s v0 → Within g s (f v0)) (h : Within g s u) (k_dictRejected : g.keys Obj.dictRejected := by assumption) :
    Within g s (State.act u src key v deny cond f) := by
  unfold State.act
  extract_lets +onlyGivenNames -underBinder -merge n1
  exact State.emit_within (Within.ite (hf6 _ h) (State.count_within h))

end Sys2Proof.Machine
end

