-- ==== Sys2Proof/Laws/WithinCrossing.lean ====
section
/-! SUPPORT. What each operation of Machine/Crossing.lean may change, and that it keeps the form of the state. -/
namespace Sys2Proof.Machine
set_option Elab.async false

variable {g : Scope} {s u : State}

theorem State.pass_within {c : Crossing} {v : Nat} (p_cross : Part.cross ∈ g.parts) (h : Within g s u) :
    Within g s (State.pass u c v) := by
  unfold State.pass
  extract_lets k d
  refine Within.setCross p_cross h fun f => f.set k ?_
  have hq : (u.queue k).atRest = true := f.queue k
  simp only [d]
  split
  · exact Dcq.passElastic_atRest hq v
  · exact Dcq.pass_atRest hq v

theorem State.freshArrayQueues_within (p_cross : Part.cross ∈ g.parts) (h : Within g s u) :
    Within g s (State.freshArrayQueues u) := by
  unfold State.freshArrayQueues
  exact Within.setCross p_cross h fun f => ⟨Tab.filter_wf _ f.1, fun e he => f.2 e (List.mem_of_mem_filter he)⟩

theorem State.passTiles_within {a : Nat} {b : Nat} {net : Nat} {v : Nat} (p_cross : Part.cross ∈ g.parts) (h : Within g s u) :
    Within g s (State.passTiles u a b net v) := by
  unfold State.passTiles
  extract_lets +onlyGivenNames -underBinder -merge n1
  exact Within.foldl (fun x2 x3 h4 => (State.pass_within p_cross h4)) h

theorem State.passArray_within {c : Nat → Crossing} {ts : List Nat} {v : Nat} (p_cross : Part.cross ∈ g.parts) (h : Within g s u) :
    Within g s (State.passArray u c ts v) := by
  unfold State.passArray
  exact Within.foldl (fun x1 x2 h3 => (State.pass_within p_cross h3)) h

end Sys2Proof.Machine
end

