-- ==== Sys2Proof/Laws/WithinFlags.lean ====
section
/-! SUPPORT. What each operation of Machine/Flags.lean may change, and that it keeps the form of the state. -/
namespace Sys2Proof.Machine
set_option Elab.async false

variable {g : Scope} {s u : State}

theorem State.clearFlags_within {b : Nat} {m : Nat} (h : Within g s u) (k_flags : ∀ n, g.keys (Obj.flags n) := by assumption) :
    Within g s (State.clearFlags u b m) := by
  unfold State.clearFlags
  exact State.wr_within h _ _

theorem State.clearBy_within {key : Nat} (h : Within g s u) (k_clear : ∀ k ∈ (clearSet key).getD [], g.keys k := by first | assumption | (intros; apply_assumption)) :
    Within g s (State.clearBy u key) := by
  unfold State.clearBy
  exact State.clear_within h k_clear

theorem State.clearClocks_within (p_cross : Part.cross ∈ g.parts) (h : Within g s u) (k_clear : ∀ k ∈ (clearSet Obj.clkClear).getD [], g.keys k := by first | assumption | (intros; apply_assumption)) :
    Within g s (State.clearClocks u) := by
  unfold State.clearClocks
  exact Within.setCross p_cross (State.clearBy_within h k_clear) id

theorem State.clearPower_within (p_power : Part.power ∈ g.parts) (h : Within g s u) (k_clear : ∀ k ∈ (clearSet Obj.ptClear).getD [], g.keys k := by first | assumption | (intros; apply_assumption)) :
    Within g s (State.clearPower u) := by
  unfold State.clearPower
  exact Within.setPower p_power (State.clearBy_within h k_clear)

theorem State.writeClear_within {src : Src} {key : Nat} {arg : Nat} (h : Within g s u) (k_clear : ∀ k ∈ (clearSet key).getD [], g.keys k := by first | assumption | (intros; apply_assumption)) (k_dictRejected : g.keys Obj.dictRejected := by assumption) :
    Within g s (State.writeClear u src key arg) := by
  unfold State.writeClear
  exact State.act_within (fun x1 h2 => (State.clearBy_within h2)) h

end Sys2Proof.Machine
end

