-- ==== Sys2Proof/Laws/WithinOperands.lean ====
section
/-! SUPPORT. What each operation of Machine/Operands.lean may change, and that it keeps the form of the state. -/
namespace Sys2Proof.Machine
set_option Elab.async false

variable {g : Scope} {s u : State}

theorem State.putByte_within {t1 : Nat} {cast : Bool} {a : Nat} {v : Nat} (p_scratch : Part.scratch ∈ g.parts) (p_castMem : Part.castMem ∈ g.parts) (h : Within g s u) :
    Within g s (State.putByte u t1 cast a v) := by
  unfold State.putByte
  exact Within.ite (Within.setCastMem p_castMem h rfl (Tab.set_wf _ _)) (Within.setScratch p_scratch h rfl (Tab.set_wf _ _))

theorem State.putBytes_within {t1 : Nat} {cast : Bool} {l : List (Nat × Nat)} (p_scratch : Part.scratch ∈ g.parts) (p_castMem : Part.castMem ∈ g.parts) (h : Within g s u) :
    Within g s (State.putBytes u t1 cast l) := by
  unfold State.putBytes
  exact Within.foldl (fun x1 x2 h3 => (State.putByte_within p_scratch p_castMem h3)) h

end Sys2Proof.Machine
end

