-- ==== Sys2Proof/Laws/WithinTiles.lean ====
section
/-! SUPPORT. What each operation of Machine/Tiles.lean may change, and that it keeps the form of the state. -/
namespace Sys2Proof.Machine
set_option Elab.async false

variable {g : Scope} {s u : State}

theorem State.setShare_within {w : Nat} {q : Nat} {t3 : Nat} {x : Share} (p_tile : Part.tile ∈ g.parts) (h : Within g s u) :
    Within g s (State.setShare u w q t3 x) := by
  unfold State.setShare
  exact Within.setTile p_tile h rfl rfl

theorem State.setSem_within {t1 : Nat} {i : Nat} {v : Nat} (p_tile : Part.tile ∈ g.parts) (h : Within g s u) :
    Within g s (State.setSem u t1 i v) := by
  unfold State.setSem
  exact Within.setTile p_tile h rfl rfl

theorem State.syncFault_within {w : Nat} {q : Nat} {tag : Nat} {reason : Nat} {ps : List Bytes} (p_cmd : Part.cmd ∈ g.parts) (h : Within g s u) (k_syncFaults : g.keys Obj.syncFaults := by assumption) :
    Within g s (State.syncFault u w q tag reason ps) := by
  unfold State.syncFault
  extract_lets +onlyGivenNames -underBinder -merge s1
  have h2 : Within g s s1 := (State.formReserved_within p_cmd h)
  extract_lets +onlyGivenNames -underBinder -merge s3
  have h4 : Within g s s3 := (State.countSat_within (State.raise_within h2))
  exact State.haltWin_within p_cmd h4

theorem State.semAdd_within {t1 : Nat} {i : Nat} {v : Nat} {w : Nat} {q : Nat} {tag : Nat} (p_cmd : Part.cmd ∈ g.parts) (p_tile : Part.tile ∈ g.parts) (h : Within g s u) (k_syncFaults : g.keys Obj.syncFaults := by assumption) :
    Within g s (State.semAdd u t1 i v w q tag) := by
  unfold State.semAdd
  exact Within.ite (State.syncFault_within p_cmd h) (State.setSem_within p_tile h)

theorem State.beginWait_within {w : Nat} {q : Nat} {t3 : Nat} (p_tile : Part.tile ∈ g.parts) (h : Within g s u) :
    Within g s (State.beginWait u w q t3) := by
  unfold State.beginWait
  extract_lets +onlyGivenNames -underBinder -merge n1
  exact Within.ite h (State.setShare_within p_tile h)

theorem State.endWait_within {w : Nat} {q : Nat} {t3 : Nat} {counter : Nat} (p_tile : Part.tile ∈ g.parts) (h : Within g s u) (k_key : g.keys counter := by first | assumption | apply_assumption | (split <;> assumption)) :
    Within g s (State.endWait u w q t3 counter) := by
  unfold State.endWait
  extract_lets +onlyGivenNames -underBinder -merge n1
  split
  · exact h
  · exact State.setShare_within p_tile (State.count_within h)

theorem State.delivered_within {n : Nat} (h : Within g s u) (k_dnBytes : g.keys Obj.dnBytes := by assumption) :
    Within g s (State.delivered u n) := by
  unfold State.delivered
  exact State.count_within h

theorem State.startShare_within {w : Nat} {e : QEntry} {t3 : Nat} {counter : Nat} (p_tile : Part.tile ∈ g.parts) (h : Within g s u) (k_key : g.keys counter := by first | assumption | apply_assumption | (split <;> assumption)) :
    Within g s (State.startShare u w e t3 counter).1 := by
  unfold State.startShare
  extract_lets +onlyGivenNames -underBinder -merge n1
  exact Within.iteFst (Within.fst h) (by
    split
    · exact Within.fst (State.setShare_within p_tile h)
    · exact Within.iteFst (Within.fst (State.beginWait_within p_tile h)) (by
        extract_lets +onlyGivenNames -underBinder -merge s7
        have h8 : Within g s s7 := (State.count_within h)
        exact Within.fst (State.setShare_within p_tile (State.setSem_within p_tile h8))))

theorem State.setChan_within {c : Nat} {x : Channel} (p_tile : Part.tile ∈ g.parts) (h : Within g s u) :
    Within g s (State.setChan u c x) := by
  unfold State.setChan
  exact Within.setTile p_tile h rfl rfl

theorem State.arrive_within {c : Nat} {w : Nat} {q : Nat} {tag : Nat} (p_cmd : Part.cmd ∈ g.parts) (p_tile : Part.tile ∈ g.parts) (h : Within g s u) (k_barCompletions : g.keys Obj.barCompletions := by assumption) (k_syncFaults : g.keys Obj.syncFaults := by assumption) :
    Within g s (State.arrive u c w q tag) := by
  unfold State.arrive
  extract_lets +onlyGivenNames -underBinder -merge n1
  exact Within.ite (State.syncFault_within p_cmd h) (Within.ite (by
    extract_lets +onlyGivenNames -underBinder -merge s2
    have h3 : Within g s s2 := (State.count_within (State.setChan_within p_tile h))
    exact Within.setTile p_tile h3 rfl rfl) (State.setChan_within p_tile h))

theorem State.tally_within {kind : Nat} {layer : Nat} {dir : Nat} {cs : List Cls} {shadow : List Cls} (p_tile : Part.tile ∈ g.parts) (h : Within g s u) (k_cumElements : g.keys Obj.cumElements := by assumption) (k_cumNonfinite : g.keys Obj.cumNonfinite := by assumption) (k_cumSaturation : g.keys Obj.cumSaturation := by assumption) (k_cumUnderflow : g.keys Obj.cumUnderflow := by assumption) :
    Within g s (State.tally u kind layer dir cs shadow) := by
  unfold State.tally
  extract_lets +onlyGivenNames -underBinder -merge _ s1
  have h2 : Within g s s1 := (Within.setTile p_tile h rfl rfl)
  exact State.count_within (State.count_within (State.count_within (State.count_within h2)))

theorem State.inStep_within {m : Option Nat} {f : State → State} (p_tile : Part.tile ∈ g.parts) (hf2 : ∀ v0, Within g s v0 → Within g s (f v0)) (h : Within g s u) :
    Within g s (State.inStep u m f) := by
  unfold State.inStep
  split
  · exact Within.ite (by
      extract_lets +onlyGivenNames -underBinder -merge _ s6
      have h7 : Within g s s6 := (hf2 _ (Within.setTile p_tile h rfl rfl))
      exact Within.setTile p_tile h7 rfl rfl) (hf2 _ h)
  · exact hf2 _ h

theorem State.setPage_within {t1 : Nat} {p2 : Nat} {x : PageUse} (p_tile : Part.tile ∈ g.parts) (h : Within g s u) :
    Within g s (State.setPage u t1 p2 x) := by
  unfold State.setPage
  exact Within.setTile p_tile h rfl rfl

theorem State.castMove_within {t1 : Nat} (p_tile : Part.tile ∈ g.parts) (h : Within g s u) :
    Within g s (State.castMove u t1) := by
  unfold State.castMove
  extract_lets +onlyGivenNames -underBinder -merge n1
  extract_lets +onlyGivenNames -underBinder -merge n2
  exact Within.ite h (Within.ite (by
    split
    · exact State.setPage_within p_tile h
    · exact h) (Within.ite (by
    split
    · exact State.setPage_within p_tile h
    · exact h) h))

theorem State.castTest_within {t1 : Nat} (p_tile : Part.tile ∈ g.parts) (h : Within g s u) :
    Within g s (State.castTest u t1) := by
  unfold State.castTest
  exact Within.foldl (fun x1 x2 h3 => (State.castMove_within p_tile h3)) h

theorem State.spillOne_within {t1 : Nat} {refill : Bool} (p_tile : Part.tile ∈ g.parts) (h : Within g s u) :
    Within g s (State.spillOne u t1 refill) := by
  unfold State.spillOne
  extract_lets +onlyGivenNames -underBinder -merge n1
  exact Within.ite h (Within.ite h (by
    split
    · exact State.setPage_within p_tile h
    · exact h))

theorem State.needRead_within {t1 : Nat} {p2 : Nat} (p_tile : Part.tile ∈ g.parts) (h : Within g s u) (k_castDemandRefills : g.keys Obj.castDemandRefills := by assumption) :
    Within g s (State.needRead u t1 p2).1 := by
  unfold State.needRead
  split
  · exact Within.fst h
  · exact Within.fst h
  · exact Within.iteFst (Within.iteFst (Within.fst (State.count_within (State.setPage_within p_tile h))) (Within.fst h)) (Within.fst (State.spillOne_within p_tile h))
  · exact Within.fst h

theorem State.needWrites_within {t1 : Nat} {ps : List Nat} (p_tile : Part.tile ∈ g.parts) (h : Within g s u) :
    Within g s (State.needWrites u t1 ps).1 := by
  unfold State.needWrites
  exact Within.iteFst (Within.fst h) (Within.iteFst (Within.fst h) (Within.fst (State.spillOne_within p_tile h)))

theorem State.needPages_within {t1 : Nat} {reads : List Nat} {writes : List Nat} (p_tile : Part.tile ∈ g.parts) (h : Within g s u) (k_castDemandRefills : g.keys Obj.castDemandRefills := by assumption) :
    Within g s (State.needPages u t1 reads writes).1 := by
  unfold State.needPages
  split
  · next y1 _ _ y4 =>
    split
    · next _ _ _ y8 =>
      exact Within.fst (Within.pair (State.needWrites_within p_tile (Within.pair (Within.foldlFst (fun x9 x10 h11 => (by
        split
        · next _ _ _ y15 =>
          exact Within.fst (Within.pair (State.needRead_within p_tile h11) y15))) (Within.fst h)) y4)) y8)

theorem State.pageGate_within {w : Nat} {q : Nat} {t3 : Nat} {ok : Bool} (p_tile : Part.tile ∈ g.parts) (h : Within g s u) (k_castStallCycles : g.keys Obj.castStallCycles := by assumption) :
    Within g s (State.pageGate u w q t3 ok) := by
  unfold State.pageGate
  extract_lets +onlyGivenNames -underBinder -merge n1
  split
  · exact State.setShare_within p_tile (State.count_within h)
  · exact State.setShare_within p_tile h
  · exact h

theorem State.createPages_within {t1 : Nat} {ps : List Nat} (p_tile : Part.tile ∈ g.parts) (h : Within g s u) :
    Within g s (State.createPages u t1 ps) := by
  unfold State.createPages
  extract_lets +onlyGivenNames -underBinder -merge s1
  have h2 : Within g s s1 := (Within.foldl (fun x3 x4 h5 => (State.setPage_within p_tile h5)) h)
  exact Within.setTile p_tile h2 rfl rfl

theorem State.pagesFor_within {w : Nat} {q : Nat} {t3 : Nat} {reads : List Nat} {writes : List Nat} (p_tile : Part.tile ∈ g.parts) (h : Within g s u) (k_castDemandRefills : g.keys Obj.castDemandRefills := by assumption) (k_castStallCycles : g.keys Obj.castStallCycles := by assumption) :
    Within g s (State.pagesFor u w q t3 reads writes).1 := by
  unfold State.pagesFor
  split
  · next _ _ _ y4 =>
    extract_lets +onlyGivenNames -underBinder -merge s5
    have h6 : Within g s s5 := (State.pageGate_within p_tile (Within.pair (State.needPages_within p_tile h) y4))
    exact Within.fst (Within.ite (State.createPages_within p_tile h6) h6)

theorem State.castThrough_within {t1 : Nat} {addrs : List Nat} (h : Within g s u) (k_castWritethroughBytes : g.keys Obj.castWritethroughBytes := by assumption) (k_dnBytes : g.keys Obj.dnBytes := by assumption) :
    Within g s (State.castThrough u t1 addrs) := by
  unfold State.castThrough
  exact State.delivered_within (State.count_within h)

theorem State.freePages_within {t1 : Nat} {lo : Nat} {hi : Nat} (p_tile : Part.tile ∈ g.parts) (h : Within g s u) :
    Within g s (State.freePages u t1 lo hi) := by
  unfold State.freePages
  exact Within.foldl (fun x1 x2 h3 => (by
    split
    · exact State.setPage_within p_tile h3
    · exact State.setPage_within p_tile h3
    · exact h3
    · exact h3
    · exact State.setPage_within p_tile h3)) h

theorem State.reportTile_within {w : Nat} {q : Nat} {t3 : Nat} (p_cmd : Part.cmd ∈ g.parts) (h : Within g s u) :
    Within g s (State.reportTile u w q t3) := by
  unfold State.reportTile
  exact State.updEntry_within p_cmd h

end Sys2Proof.Machine
end

