-- ==== Sys2Proof/Laws/WithinMatrix.lean ====
section
/-! SUPPORT. What each operation of Machine/Matrix.lean may change, and that it keeps the form of the state. -/
namespace Sys2Proof.Machine
set_option Elab.async false

variable {g : Scope} {s u : State}

theorem State.setRing_within {t1 : Nat} {r : Nat} {x : Ring} (p_tile : Part.tile ∈ g.parts) (h : Within g s u) :
    Within g s (State.setRing u t1 r x) := by
  unfold State.setRing
  exact Within.setTile p_tile h rfl rfl

theorem State.countLoad_within {t1 : Nat} {load : List (Nat × Nat × Nat)} (p_tile : Part.tile ∈ g.parts) (h : Within g s u) :
    Within g s (State.countLoad u t1 load) := by
  unfold State.countLoad
  exact Within.foldl (fun x1 x2 h3 => (by
    split
    · extract_lets +onlyGivenNames -underBinder -merge n8
      extract_lets +onlyGivenNames -underBinder -merge n9
      extract_lets +onlyGivenNames -underBinder -merge n10
      exact State.setRing_within p_tile h3)) h

theorem State.countLoads_within {d : Mx} {t2 : Nat} {o : Nat} (p_tile : Part.tile ∈ g.parts) (h : Within g s u) :
    Within g s (State.countLoads u d t2 o) := by
  unfold State.countLoads
  exact State.countLoad_within p_tile (Within.foldl (fun x1 x2 h3 => (State.countLoad_within p_tile h3)) h)

theorem State.setBank_within {t1 : Nat} {i : Nat} {b : Bank} (p_tile : Part.tile ∈ g.parts) (h : Within g s u) :
    Within g s (State.setBank u t1 i b) := by
  unfold State.setBank
  exact Within.setTile p_tile h rfl rfl

theorem State.bankWait_within {w : Nat} {q : Nat} {t3 : Nat} (p_tile : Part.tile ∈ g.parts) (h : Within g s u) :
    Within g s (State.bankWait u w q t3) := by
  unfold State.bankWait
  extract_lets +onlyGivenNames -underBinder -merge n1
  exact Within.ite (State.setShare_within p_tile h) h

theorem State.bankWaitEnd_within {w : Nat} {q : Nat} {t3 : Nat} (p_tile : Part.tile ∈ g.parts) (h : Within g s u) (k_mxStallOperand : g.keys Obj.mxStallOperand := by assumption) :
    Within g s (State.bankWaitEnd u w q t3) := by
  unfold State.bankWaitEnd
  extract_lets +onlyGivenNames -underBinder -merge n1
  split
  · exact h
  · exact State.setShare_within p_tile (State.count_within h)

theorem State.takeBank_within {w : Nat} {e : QEntry} {d : Mx} {t4 : Nat} {o : Nat} (p_tile : Part.tile ∈ g.parts) (h : Within g s u) (k_mxStallOperand : g.keys Obj.mxStallOperand := by assumption) :
    Within g s (State.takeBank u w e d t4 o).1 := by
  unfold State.takeBank
  split
  · exact Within.fst h
  · split
    · exact Within.fst (State.bankWait_within p_tile h)
    · exact Within.fst (State.setBank_within p_tile (State.bankWaitEnd_within p_tile h))

theorem State.onePass_within {d : Mx} {t2 : Nat} {o : Nat} {b : Nat} (p_tile : Part.tile ∈ g.parts) (h : Within g s u) :
    Within g s (State.onePass u d t2 o b) := by
  unfold State.onePass
  extract_lets +onlyGivenNames -underBinder -merge n1
  exact State.countLoad_within p_tile (State.setBank_within p_tile h)

theorem State.outFull_within {w : Nat} {e : QEntry} {d : Mx} {t4 : Nat} {o : Nat} {b : Nat} (p_tile : Part.tile ∈ g.parts) (h : Within g s u) (k_mxBusyCycles : g.keys Obj.mxBusyCycles := by assumption) :
    Within g s (State.outFull u w e d t4 o b) := by
  unfold State.outFull
  extract_lets +onlyGivenNames -underBinder -merge s1
  have h2 : Within g s s1 := (State.countLoad_within p_tile h)
  extract_lets +onlyGivenNames -underBinder -merge n3
  extract_lets +onlyGivenNames -underBinder -merge s4
  have h5 : Within g s s4 := (State.count_within (State.setShare_within p_tile h2))
  exact State.setBank_within p_tile h5

theorem State.runPasses_within {w : Nat} {e : QEntry} {d : Mx} {t4 : Nat} {o : Nat} {b : Nat} {a7 : Nat} (p_tile : Part.tile ∈ g.parts) (h : Within g s u) (k_castDemandRefills : g.keys Obj.castDemandRefills := by assumption) (k_castStallCycles : g.keys Obj.castStallCycles := by assumption) (k_mxBusyCycles : g.keys Obj.mxBusyCycles := by assumption) (k_mxStallWeight : g.keys Obj.mxStallWeight := by assumption) :
    Within g s (State.runPasses u w e d t4 o b a7) := by
  induction a7 generalizing u with
  | zero => exact State.outFull_within p_tile h
  | succ n ih =>
    unfold State.runPasses
    extract_lets p
    refine Within.ite (State.beginWait_within p_tile h) ?_
    split
    next v ready hv =>
    have h1 : Within g s v := Within.pair (State.pagesFor_within p_tile (State.endWait_within p_tile h)) hv
    exact Within.ite (ih (State.onePass_within p_tile h1)) h1

theorem State.runMatrix_within {w : Nat} {e : QEntry} {t3 : Nat} (p_tile : Part.tile ∈ g.parts) (h : Within g s u) (k_castDemandRefills : g.keys Obj.castDemandRefills := by assumption) (k_castStallCycles : g.keys Obj.castStallCycles := by assumption) (k_mxBusyCycles : g.keys Obj.mxBusyCycles := by assumption) (k_mxStallOperand : g.keys Obj.mxStallOperand := by assumption) (k_mxStallWeight : g.keys Obj.mxStallWeight := by assumption) :
    Within g s (State.runMatrix u w e t3) := by
  unfold State.runMatrix
  extract_lets +onlyGivenNames -underBinder -merge n1
  exact Within.ite h (by
    split
    · next _ _ _ y5 =>
      exact Within.ite (Within.pair (State.startShare_within p_tile h) y5) (by
        split
        · exact Within.pair (State.startShare_within p_tile h) y5
        · split
          · next _ _ y13 =>
            exact Within.pair (State.takeBank_within p_tile (Within.pair (State.startShare_within p_tile h) y5)) y13
          · next _ _ _ y17 =>
            exact State.runPasses_within p_tile (Within.pair (State.takeBank_within p_tile (Within.pair (State.startShare_within p_tile h) y5)) y17)))

theorem execMatrix_within {w : Fin 8} {q : Nat} {t2 : Fin 192} (p_tile : Part.tile ∈ g.parts) (h : Within g s u) (k_castDemandRefills : g.keys Obj.castDemandRefills := by assumption) (k_castStallCycles : g.keys Obj.castStallCycles := by assumption) (k_mxBusyCycles : g.keys Obj.mxBusyCycles := by assumption) (k_mxStallOperand : g.keys Obj.mxStallOperand := by assumption) (k_mxStallWeight : g.keys Obj.mxStallWeight := by assumption) :
    Leads g s (execMatrix w q t2 u) := by
  unfold execMatrix
  split
  · exact Leads.ite (Leads.next (State.runMatrix_within p_tile h)) (Leads.next h)
  · exact Leads.next h

theorem State.handoff_within {w : Nat} {e : QEntry} {t3 : Nat} (p_tile : Part.tile ∈ g.parts) (h : Within g s u) (k_cnMessages : g.keys Obj.cnMessages := by assumption) (k_dnBytes : g.keys Obj.dnBytes := by assumption) :
    Within g s (State.handoff u w e t3) := by
  unfold State.handoff
  extract_lets +onlyGivenNames -underBinder -merge n1
  extract_lets +onlyGivenNames -underBinder -merge n2
  exact Within.ite h (by
    split
    · exact h
    · split
      · exact h
      · extract_lets +onlyGivenNames -underBinder -merge n13
        extract_lets +onlyGivenNames -underBinder -merge n14
        exact Within.ite h (by
          split
          · exact h
          · extract_lets +onlyGivenNames -underBinder -merge n20
            extract_lets +onlyGivenNames -underBinder -merge s21
            have h22 : Within g s s21 := (State.setBank_within p_tile h)
            extract_lets +onlyGivenNames -underBinder -merge s23
            have h24 : Within g s s23 := (State.setBank_within p_tile h22)
            extract_lets +onlyGivenNames -underBinder -merge n25
            exact State.delivered_within (State.count_within (State.setShare_within p_tile h24))))

theorem execSplitHandoff_within {w : Fin 8} {q : Nat} {t2 : Fin 192} (p_tile : Part.tile ∈ g.parts) (h : Within g s u) (k_cnMessages : g.keys Obj.cnMessages := by assumption) (k_dnBytes : g.keys Obj.dnBytes := by assumption) :
    Leads g s (execSplitHandoff w q t2 u) := by
  unfold execSplitHandoff
  split
  · exact Leads.ite (Leads.next (State.handoff_within p_tile h)) (Leads.next h)
  · exact Leads.next h

theorem State.storeLine_within {t1 : Nat} {cast : Bool} {f : Fmt} {scale : Val} {codes : Nat} {scales : Nat} {et : Nat} {r : Nat} {kind : Nat} {layer : Nat} {dir : Nat} {xs : List OutVal} (p_scratch : Part.scratch ∈ g.parts) (p_castMem : Part.castMem ∈ g.parts) (p_tile : Part.tile ∈ g.parts) (h : Within g s u) (k_castWritethroughBytes : g.keys Obj.castWritethroughBytes := by assumption) (k_cumElements : g.keys Obj.cumElements := by assumption) (k_cumNonfinite : g.keys Obj.cumNonfinite := by assumption) (k_cumSaturation : g.keys Obj.cumSaturation := by assumption) (k_cumUnderflow : g.keys Obj.cumUnderflow := by assumption) (k_dnBytes : g.keys Obj.dnBytes := by assumption) :
    Within g s (State.storeLine u t1 cast f scale codes scales et r kind layer dir xs) := by
  unfold State.storeLine
  split
  · extract_lets +onlyGivenNames -underBinder -merge s6
    have h7 : Within g s s6 := (State.tally_within p_tile h)
    extract_lets +onlyGivenNames -underBinder -merge n8
    extract_lets +onlyGivenNames -underBinder -merge s9
    have h10 : Within g s s9 := (Within.ite (State.castThrough_within h7) h7)
    exact State.putBytes_within p_scratch p_castMem h10

theorem State.drainStore_within {d : Mx} {arm : Option Arm} {t3 : Nat} {o : Nat} {b : Bank} (p_scratch : Part.scratch ∈ g.parts) (p_castMem : Part.castMem ∈ g.parts) (p_tile : Part.tile ∈ g.parts) (h : Within g s u) (k_castWritethroughBytes : g.keys Obj.castWritethroughBytes := by assumption) (k_cumElements : g.keys Obj.cumElements := by assumption) (k_cumNonfinite : g.keys Obj.cumNonfinite := by assumption) (k_cumSaturation : g.keys Obj.cumSaturation := by assumption) (k_cumUnderflow : g.keys Obj.cumUnderflow := by assumption) (k_dnBytes : g.keys Obj.dnBytes := by assumption) :
    Within g s (State.drainStore u d arm t3 o b) := by
  unfold State.drainStore
  extract_lets +onlyGivenNames -underBinder -merge n1
  extract_lets +onlyGivenNames -underBinder -merge n2
  extract_lets +onlyGivenNames -underBinder -merge n3
  extract_lets +onlyGivenNames -underBinder -merge n4
  extract_lets +onlyGivenNames -underBinder -merge n5
  extract_lets +onlyGivenNames -underBinder -merge n6
  extract_lets +onlyGivenNames -underBinder -merge n7
  extract_lets +onlyGivenNames -underBinder -merge n8
  extract_lets +onlyGivenNames -underBinder -merge n9
  extract_lets +onlyGivenNames -underBinder -merge n10
  extract_lets +onlyGivenNames -underBinder -merge n11
  extract_lets +onlyGivenNames -underBinder -merge n12
  extract_lets +onlyGivenNames -underBinder -merge n13
  exact Within.foldl (fun x14 x15 h16 => (Within.foldl (fun x17 x18 h19 => (Within.foldl (fun x20 x21 h22 => (by
    extract_lets +onlyGivenNames -underBinder -merge n23
    split
    · exact State.storeLine_within p_scratch p_castMem p_tile h22
    · extract_lets +onlyGivenNames -underBinder -merge n29
      extract_lets +onlyGivenNames -underBinder -merge n30
      extract_lets +onlyGivenNames -underBinder -merge s31
      have h32 : Within g s s31 := (State.storeLine_within p_scratch p_castMem p_tile h22)
      exact Within.ite (State.storeLine_within p_scratch p_castMem p_tile h32) h32)) h19)) h16)) h

theorem State.touchPages_within {n : Nat} {x : Span} {pages : List Nat} (p_spans : Part.spans ∈ g.parts) (p_touches : Part.touches ∈ g.parts) (h : Within g s u) :
    Within g s (State.touchPages u n x pages) := by
  unfold State.touchPages
  exact Within.many h rfl (fun p => by cases p <;> first | exact .inr rfl | exact .inl ‹_›) (fun f => ⟨f.1, f.2, f.3, f.4, f.5, f.6, f.7, f.8, f.9, f.10, f.11, f.12⟩) rfl

theorem State.drainSpan_within {w : Nat} {e : QEntry} {d : Mx} {o : Nat} {b : Bank} (p_spans : Part.spans ∈ g.parts) (p_touches : Part.touches ∈ g.parts) (h : Within g s u) (k_dnBytes : g.keys Obj.dnBytes := by assumption) (k_spanFaults : g.keys Obj.spanFaults := by assumption) :
    Within g s (State.drainSpan u w e d o b) := by
  unfold State.drainSpan
  extract_lets +onlyGivenNames -underBinder -merge n1
  extract_lets +onlyGivenNames -underBinder -merge n2
  extract_lets +onlyGivenNames -underBinder -merge n3
  extract_lets +onlyGivenNames -underBinder -merge n4
  extract_lets +onlyGivenNames -underBinder -merge n5
  extract_lets +onlyGivenNames -underBinder -merge n6
  extract_lets +onlyGivenNames -underBinder -merge n7
  split
  · exact State.countSat_within (State.raise_within h)
  · extract_lets +onlyGivenNames -underBinder -merge n13
    extract_lets +onlyGivenNames -underBinder -merge n14
    extract_lets +onlyGivenNames -underBinder -merge n15
    extract_lets +onlyGivenNames -underBinder -merge n16
    extract_lets +onlyGivenNames -underBinder -merge n17
    extract_lets +onlyGivenNames -underBinder -merge s18
    have h19 : Within g s s18 := (State.delivered_within (State.touchPages_within p_spans p_touches h))
    exact Within.ite (State.countSat_within (State.raise_within h19)) h19

theorem State.drained_within {w : Nat} {e : QEntry} {d : Mx} {t4 : Nat} {i : Nat} {b : Bank} (p_tile : Part.tile ∈ g.parts) (h : Within g s u) :
    Within g s (State.drained u w e d t4 i b) := by
  unfold State.drained
  extract_lets +onlyGivenNames -underBinder -merge n1
  extract_lets +onlyGivenNames -underBinder -merge s2
  have h3 : Within g s s2 := (State.setShare_within p_tile h)
  exact Within.ite (by
    extract_lets +onlyGivenNames -underBinder -merge _ s4
    have h5 : Within g s s4 := (Within.setTile p_tile h3 rfl rfl)
    exact State.setBank_within p_tile h5) (State.setBank_within p_tile h3)

theorem State.drainPages_within {w : Nat} {e : QEntry} {t3 : Nat} {o : Nat} (p_tile : Part.tile ∈ g.parts) (h : Within g s u) (k_castDemandRefills : g.keys Obj.castDemandRefills := by assumption) (k_castStallCycles : g.keys Obj.castStallCycles := by assumption) :
    Within g s (State.drainPages u w e t3 o).1 := by
  unfold State.drainPages
  extract_lets +onlyGivenNames -underBinder -merge n1
  extract_lets +onlyGivenNames -underBinder -merge n2
  exact State.pagesFor_within p_tile h

theorem State.drain_within {w : Nat} {e : QEntry} {t3 : Nat} (p_scratch : Part.scratch ∈ g.parts) (p_castMem : Part.castMem ∈ g.parts) (p_tile : Part.tile ∈ g.parts) (p_spans : Part.spans ∈ g.parts) (p_touches : Part.touches ∈ g.parts) (h : Within g s u) (k_castDemandRefills : g.keys Obj.castDemandRefills := by assumption) (k_castStallCycles : g.keys Obj.castStallCycles := by assumption) (k_castWritethroughBytes : g.keys Obj.castWritethroughBytes := by assumption) (k_cumElements : g.keys Obj.cumElements := by assumption) (k_cumNonfinite : g.keys Obj.cumNonfinite := by assumption) (k_cumSaturation : g.keys Obj.cumSaturation := by assumption) (k_cumUnderflow : g.keys Obj.cumUnderflow := by assumption) (k_dnBytes : g.keys Obj.dnBytes := by assumption) (k_spanFaults : g.keys Obj.spanFaults := by assumption) :
    Within g s (State.drain u w e t3) := by
  unfold State.drain
  extract_lets +onlyGivenNames -underBinder -merge n1
  exact Within.ite h (by
    split
    · exact h
    · split
      · exact h
      · extract_lets +onlyGivenNames -underBinder -merge n12
        exact Within.ite h (by
          split
          · exact State.drained_within p_tile (State.drainSpan_within p_spans p_touches h)
          · exact State.drained_within p_tile h
          · extract_lets +onlyGivenNames -underBinder -merge n20
            split
            · next _ _ _ y24 =>
              exact Within.ite (Within.pair (State.drainPages_within p_tile h) y24) (State.castTest_within p_tile (State.drained_within p_tile (State.inStep_within p_tile (fun x25 h26 => (State.drainStore_within p_scratch p_castMem p_tile h26)) (Within.pair (State.drainPages_within p_tile h) y24))))))

theorem execOutputTileDrain_within {w : Fin 8} {q : Nat} {t2 : Fin 192} (p_scratch : Part.scratch ∈ g.parts) (p_castMem : Part.castMem ∈ g.parts) (p_tile : Part.tile ∈ g.parts) (p_spans : Part.spans ∈ g.parts) (p_touches : Part.touches ∈ g.parts) (h : Within g s u) (k_castDemandRefills : g.keys Obj.castDemandRefills := by assumption) (k_castStallCycles : g.keys Obj.castStallCycles := by assumption) (k_castWritethroughBytes : g.keys Obj.castWritethroughBytes := by assumption) (k_cumElements : g.keys Obj.cumElements := by assumption) (k_cumNonfinite : g.keys Obj.cumNonfinite := by assumption) (k_cumSaturation : g.keys Obj.cumSaturation := by assumption) (k_cumUnderflow : g.keys Obj.cumUnderflow := by assumption) (k_dnBytes : g.keys Obj.dnBytes := by assumption) (k_spanFaults : g.keys Obj.spanFaults := by assumption) :
    Leads g s (execOutputTileDrain w q t2 u) := by
  unfold execOutputTileDrain
  split
  · exact Leads.ite (Leads.next (State.drain_within p_scratch p_castMem p_tile p_spans p_touches h)) (Leads.next h)
  · exact Leads.next h

end Sys2Proof.Machine
end

