-- ==== Sys2Proof/Laws/WithinRegions.lean ====
section
/-! SUPPORT. What each operation of Machine/Regions.lean may change, and that it keeps the form of the state. -/
namespace Sys2Proof.Machine
set_option Elab.async false

variable {g : Scope} {s u : State}

theorem State.setRegion_within {h1 : Nat} {r : Region} (p_tier : Part.tier ∈ g.parts) (h : Within g s u) :
    Within g s (State.setRegion u h1 r) := by
  unfold State.setRegion
  exact Within.setTier p_tier h rfl id

theorem State.updPage_within {h1 : Nat} {p2 : Nat} {f : RPage → RPage} (p_tier : Part.tier ∈ g.parts) (h : Within g s u) :
    Within g s (State.updPage u h1 p2 f) := by
  unfold State.updPage
  split
  · exact h
  · exact State.setRegion_within p_tier h

theorem State.regionWrite_within {h1 : Nat} {b : Nat} {bs : Bytes} (p_mem : Part.mem ∈ g.parts) (p_tier : Part.tier ∈ g.parts) (h : Within g s u) :
    Within g s (State.regionWrite u h1 b bs) := by
  unfold State.regionWrite
  extract_lets +onlyGivenNames -underBinder -merge _ s1
  have h1 : Within g s s1 := Within.setMem p_mem h rfl (memWrite_wf _ _)
  exact Within.ite h1 (Within.foldl (fun _ _ hv => State.updPage_within p_tier hv) h1)

theorem State.beginPageWait_within {key : Nat} {n : Nat} {h3 : Nat} {ps : List Nat} (p_tier : Part.tier ∈ g.parts) (h : Within g s u) :
    Within g s (State.beginPageWait u key n h3 ps) := by
  unfold State.beginPageWait
  extract_lets +onlyGivenNames -underBinder -merge n1
  exact Within.setTier p_tier h rfl id

theorem State.endPageWait_within {key : Nat} (p_tier : Part.tier ∈ g.parts) (h : Within g s u) (k_tmWaitCycles : g.keys Obj.tmWaitCycles := by assumption) :
    Within g s (State.endPageWait u key) := by
  unfold State.endPageWait
  split
  · exact h
  · exact State.count_within (Within.setTier p_tier h rfl id)

theorem State.touch_within {h1 : Nat} {ps : List Nat} (p_tier : Part.tier ∈ g.parts) (h : Within g s u) :
    Within g s (State.touch u h1 ps) := by
  unfold State.touch
  exact Within.foldl (fun x1 x2 h3 => (State.updPage_within p_tier h3)) h

theorem State.access_within {key : Nat} {n : Nat} {h3 : Nat} {ps : List Nat} (p_tier : Part.tier ∈ g.parts) (h : Within g s u) (k_tmWaitCycles : g.keys Obj.tmWaitCycles := by assumption) :
    Within g s (State.access u key n h3 ps).1 := by
  unfold State.access
  split
  · exact Within.fst h
  · extract_lets +onlyGivenNames -underBinder -merge n6
    exact Within.iteFst (Within.fst (State.endPageWait_within p_tier (State.touch_within p_tier h))) (Within.fst (State.beginPageWait_within p_tier (Within.foldl (fun x7 x8 h9 => (Within.ite (State.updPage_within p_tier h9) h9)) h)))

theorem State.writable_within {key : Nat} {ps : List (Nat × Nat)} (p_tier : Part.tier ∈ g.parts) (h : Within g s u) (k_tmWaitCycles : g.keys Obj.tmWaitCycles := by assumption) :
    Within g s (State.writable u key ps).1 := by
  unfold State.writable
  split
  · exact Within.fst (State.endPageWait_within p_tier h)
  · exact Within.fst (State.beginPageWait_within p_tier h)

theorem State.hitStatus_within {w : Nat} {q : Nat} {h3 : Nat} (p_cmd : Part.cmd ∈ g.parts) (h : Within g s u) :
    Within g s (State.hitStatus u w q h3) := by
  unfold State.hitStatus
  extract_lets +onlyGivenNames -underBinder -merge s1
  have h2 : Within g s s1 := (State.updEntry_within p_cmd h)
  split
  · exact Within.ite (State.haltWin_within p_cmd h2) h2
  · exact h2

end Sys2Proof.Machine
end

