-- ==== Sys2Proof/Laws/WithinFlash.lean ====
section
/-! SUPPORT. What each operation of Machine/Flash.lean may change, and that it keeps the form of the state. -/
namespace Sys2Proof.Machine
set_option Elab.async false

variable {g : Scope} {s u : State}

theorem State.setBlock_within {k : Nat} {x : Block} (p_store : Part.store ∈ g.parts) (h : Within g s u) :
    Within g s (State.setBlock u k x) := by
  unfold State.setBlock
  exact Within.setStore p_store h rfl

theorem State.readBlock_within {k : Nat} (p_store : Part.store ∈ g.parts) (h : Within g s u) (k_stReadBytes : g.keys Obj.stReadBytes := by assumption) :
    Within g s (State.readBlock u k) := by
  unfold State.readBlock
  exact State.count_within (State.setBlock_within p_store h)

theorem State.rebuildUnit_within {x : Place} (p_store : Part.store ∈ g.parts) (h : Within g s u) (k_stReadBytes : g.keys Obj.stReadBytes := by assumption) (k_stRebuilds : g.keys Obj.stRebuilds := by assumption) :
    Within g s (State.rebuildUnit u x) := by
  unfold State.rebuildUnit
  exact State.countSat_within (Within.foldl (fun x1 x2 h3 => (State.readBlock_within p_store h3)) h)

theorem State.readGeneral_within {h1 : Nat} {p2 : Nat} (p_store : Part.store ∈ g.parts) (p_free : Part.free ∈ g.parts) (h : Within g s u) (k_stReadBytes : g.keys Obj.stReadBytes := by assumption) :
    Within g s (State.readGeneral u h1 p2) := by
  unfold State.readGeneral
  extract_lets +onlyGivenNames -underBinder -merge s1
  have h2 : Within g s s1 := (by
    unfold s1
    split
    · exact State.readBlock_within p_store h
    · exact State.count_within h)
  extract_lets +onlyGivenNames -underBinder -merge s8
  have h9 : Within g s s8 := (Within.ite (State.count_within h2) h2)
  exact Within.setFree p_free h9

end Sys2Proof.Machine
end

