-- ==== Sys2Proof/Laws/WithinVector.lean ====
section
/-! SUPPORT. What each operation of Machine/Vector.lean may change, and that it keeps the form of the state. -/
namespace Sys2Proof.Machine
set_option Elab.async false

variable {g : Scope} {s u : State}

theorem State.storeTensor_within {d : Vx} {t2 : Nat} {g3 : Nat → Nat → Lane} (p_scratch : Part.scratch ∈ g.parts) (p_castMem : Part.castMem ∈ g.parts) (p_tile : Part.tile ∈ g.parts) (h : Within g s u) (k_castWritethroughBytes : g.keys Obj.castWritethroughBytes := by assumption) (k_cumElements : g.keys Obj.cumElements := by assumption) (k_cumNonfinite : g.keys Obj.cumNonfinite := by assumption) (k_cumSaturation : g.keys Obj.cumSaturation := by assumption) (k_cumUnderflow : g.keys Obj.cumUnderflow := by assumption) (k_dnBytes : g.keys Obj.dnBytes := by assumption) :
    Within g s (State.storeTensor u d t2 g3) := by
  unfold State.storeTensor
  exact Within.ite h (by
    extract_lets +onlyGivenNames -underBinder -merge n1
    extract_lets +onlyGivenNames -underBinder -merge n2
    exact Within.foldl (fun x3 x4 h5 => (Within.foldl (fun x6 x7 h8 => (Within.foldl (fun x9 x10 h11 => (State.storeLine_within p_scratch p_castMem p_tile h11)) h8)) h5)) h)

theorem State.storePlain_within {d : Vx} {t2 : Nat} {xs : List Lane} (p_scratch : Part.scratch ∈ g.parts) (p_castMem : Part.castMem ∈ g.parts) (p_tile : Part.tile ∈ g.parts) (h : Within g s u) (k_castWritethroughBytes : g.keys Obj.castWritethroughBytes := by assumption) (k_cumElements : g.keys Obj.cumElements := by assumption) (k_cumNonfinite : g.keys Obj.cumNonfinite := by assumption) (k_cumSaturation : g.keys Obj.cumSaturation := by assumption) (k_cumUnderflow : g.keys Obj.cumUnderflow := by assumption) (k_dnBytes : g.keys Obj.dnBytes := by assumption) :
    Within g s (State.storePlain u d t2 xs) := by
  unfold State.storePlain
  exact Within.ite h (by
    extract_lets +onlyGivenNames -underBinder -merge n1
    split
    · extract_lets +onlyGivenNames -underBinder -merge s6
      have h7 : Within g s s6 := (State.tally_within p_tile h)
      extract_lets +onlyGivenNames -underBinder -merge s8
      have h9 : Within g s s8 := (Within.ite (State.castThrough_within h7) h7)
      exact State.putBytes_within p_scratch p_castMem h9)

theorem State.startVector_within {w : Nat} {e : QEntry} {t3 : Nat} (p_tile : Part.tile ∈ g.parts) (h : Within g s u) (k_castDemandRefills : g.keys Obj.castDemandRefills := by assumption) (k_castStallCycles : g.keys Obj.castStallCycles := by assumption) (k_vxWaitCycles : g.keys Obj.vxWaitCycles := by assumption) :
    Within g s (State.startVector u w e t3).1 := by
  unfold State.startVector
  extract_lets +onlyGivenNames -underBinder -merge n1
  exact Within.iteFst (Within.fst h) (by
    split
    · next _ _ _ y5 =>
      exact Within.iteFst (Within.fst (Within.pair (State.startShare_within p_tile h) y5)) (Within.iteFst (Within.fst (State.beginWait_within p_tile (Within.pair (State.startShare_within p_tile h) y5))) (by
        split
        · next _ _ _ y9 =>
          exact Within.iteFst (Within.fst (Within.pair (State.pagesFor_within p_tile (Within.pair (State.startShare_within p_tile h) y5)) y9)) (Within.fst (State.endWait_within p_tile (Within.pair (State.pagesFor_within p_tile (Within.pair (State.startShare_within p_tile h) y5)) y9))))))

theorem State.losePort_within (p_free : Part.free ∈ g.parts) (h : Within g s u) (k_vxPortLost : g.keys Obj.vxPortLost := by assumption) :
    Within g s (State.losePort u) := by
  unfold State.losePort
  extract_lets +onlyGivenNames -underBinder -merge s1
  have h2 : Within g s s1 := (State.count_within h)
  exact Within.setFree p_free h2

theorem State.ranVector_within {w : Nat} {e : QEntry} {t3 : Nat} (p_tile : Part.tile ∈ g.parts) (p_free : Part.free ∈ g.parts) (h : Within g s u) (k_vxBusyCycles : g.keys Obj.vxBusyCycles := by assumption) (k_vxPortLost : g.keys Obj.vxPortLost := by assumption) :
    Within g s (State.ranVector u w e t3) := by
  unfold State.ranVector
  extract_lets +onlyGivenNames -underBinder -merge n1
  extract_lets +onlyGivenNames -underBinder -merge _ s2
  have h3 : Within g s s2 := (State.setShare_within p_tile h)
  extract_lets +onlyGivenNames -underBinder -merge s4
  have h5 : Within g s s4 := (State.count_within h3)
  extract_lets +onlyGivenNames -underBinder -merge s6
  have h7 : Within g s s6 := (Within.ite (State.losePort_within p_free h5) h5)
  exact Within.ite (State.castTest_within p_tile h7) h7

theorem onVector_within {w : Fin 8} {q : Nat} {kind : Nat} {f : State → QEntry → State} (p_tile : Part.tile ∈ g.parts) (hf4 : ∀ v0 v1, Within g s v0 → Within g s (f v0 v1)) (h : Within g s u) :
    Leads g s (onVector w q kind u f) := by
  unfold onVector
  split
  · exact Leads.ite (Leads.next (State.inStep_within p_tile (fun x4 h5 => (hf4 _ _ h5)) h)) (Leads.next h)
  · exact Leads.next h

theorem State.vectorMap_within {w : Nat} {e : QEntry} {t3 : Nat} (p_scratch : Part.scratch ∈ g.parts) (p_castMem : Part.castMem ∈ g.parts) (p_tile : Part.tile ∈ g.parts) (p_free : Part.free ∈ g.parts) (h : Within g s u) (k_castDemandRefills : g.keys Obj.castDemandRefills := by assumption) (k_castStallCycles : g.keys Obj.castStallCycles := by assumption) (k_castWritethroughBytes : g.keys Obj.castWritethroughBytes := by assumption) (k_cumElements : g.keys Obj.cumElements := by assumption) (k_cumNonfinite : g.keys Obj.cumNonfinite := by assumption) (k_cumSaturation : g.keys Obj.cumSaturation := by assumption) (k_cumUnderflow : g.keys Obj.cumUnderflow := by assumption) (k_dnBytes : g.keys Obj.dnBytes := by assumption) (k_vxBusyCycles : g.keys Obj.vxBusyCycles := by assumption) (k_vxPortLost : g.keys Obj.vxPortLost := by assumption) (k_vxWaitCycles : g.keys Obj.vxWaitCycles := by assumption) :
    Within g s (State.vectorMap u w e t3) := by
  unfold State.vectorMap
  extract_lets +onlyGivenNames -underBinder -merge n1
  split
  · next _ _ _ y5 =>
    exact Within.ite (Within.pair (State.startVector_within p_tile h) y5) (State.ranVector_within p_tile p_free (State.storeTensor_within p_scratch p_castMem p_tile (Within.pair (State.startVector_within p_tile h) y5)))

theorem execVectorMap_within {w : Fin 8} {q : Nat} {t2 : Fin 192} (p_scratch : Part.scratch ∈ g.parts) (p_castMem : Part.castMem ∈ g.parts) (p_tile : Part.tile ∈ g.parts) (p_free : Part.free ∈ g.parts) (h : Within g s u) (k_castDemandRefills : g.keys Obj.castDemandRefills := by assumption) (k_castStallCycles : g.keys Obj.castStallCycles := by assumption) (k_castWritethroughBytes : g.keys Obj.castWritethroughBytes := by assumption) (k_cumElements : g.keys Obj.cumElements := by assumption) (k_cumNonfinite : g.keys Obj.cumNonfinite := by assumption) (k_cumSaturation : g.keys Obj.cumSaturation := by assumption) (k_cumUnderflow : g.keys Obj.cumUnderflow := by assumption) (k_dnBytes : g.keys Obj.dnBytes := by assumption) (k_vxBusyCycles : g.keys Obj.vxBusyCycles := by assumption) (k_vxPortLost : g.keys Obj.vxPortLost := by assumption) (k_vxWaitCycles : g.keys Obj.vxWaitCycles := by assumption) :
    Leads g s (execVectorMap w q t2 u) := by
  unfold execVectorMap
  exact onVector_within p_tile (fun x1 x2 h3 => (State.vectorMap_within p_scratch p_castMem p_tile p_free h3)) h

theorem State.vmap_within {w : Nat} {e : QEntry} {t3 : Nat} (p_scratch : Part.scratch ∈ g.parts) (p_castMem : Part.castMem ∈ g.parts) (p_tile : Part.tile ∈ g.parts) (p_free : Part.free ∈ g.parts) (h : Within g s u) (k_castDemandRefills : g.keys Obj.castDemandRefills := by assumption) (k_castStallCycles : g.keys Obj.castStallCycles := by assumption) (k_castWritethroughBytes : g.keys Obj.castWritethroughBytes := by assumption) (k_cumElements : g.keys Obj.cumElements := by assumption) (k_cumNonfinite : g.keys Obj.cumNonfinite := by assumption) (k_cumSaturation : g.keys Obj.cumSaturation := by assumption) (k_cumUnderflow : g.keys Obj.cumUnderflow := by assumption) (k_dnBytes : g.keys Obj.dnBytes := by assumption) (k_vxBusyCycles : g.keys Obj.vxBusyCycles := by assumption) (k_vxPortLost : g.keys Obj.vxPortLost := by assumption) (k_vxWaitCycles : g.keys Obj.vxWaitCycles := by assumption) :
    Within g s (State.vmap u w e t3) := by
  unfold State.vmap
  extract_lets +onlyGivenNames -underBinder -merge n1
  split
  · next _ _ _ y5 =>
    exact Within.ite (Within.pair (State.startVector_within p_tile h) y5) (State.ranVector_within p_tile p_free (State.storePlain_within p_scratch p_castMem p_tile (Within.pair (State.startVector_within p_tile h) y5)))

theorem execVmap_within {w : Fin 8} {q : Nat} {t2 : Fin 192} (p_scratch : Part.scratch ∈ g.parts) (p_castMem : Part.castMem ∈ g.parts) (p_tile : Part.tile ∈ g.parts) (p_free : Part.free ∈ g.parts) (h : Within g s u) (k_castDemandRefills : g.keys Obj.castDemandRefills := by assumption) (k_castStallCycles : g.keys Obj.castStallCycles := by assumption) (k_castWritethroughBytes : g.keys Obj.castWritethroughBytes := by assumption) (k_cumElements : g.keys Obj.cumElements := by assumption) (k_cumNonfinite : g.keys Obj.cumNonfinite := by assumption) (k_cumSaturation : g.keys Obj.cumSaturation := by assumption) (k_cumUnderflow : g.keys Obj.cumUnderflow := by assumption) (k_dnBytes : g.keys Obj.dnBytes := by assumption) (k_vxBusyCycles : g.keys Obj.vxBusyCycles := by assumption) (k_vxPortLost : g.keys Obj.vxPortLost := by assumption) (k_vxWaitCycles : g.keys Obj.vxWaitCycles := by assumption) :
    Leads g s (execVmap w q t2 u) := by
  unfold execVmap
  exact onVector_within p_tile (fun x1 x2 h3 => (State.vmap_within p_scratch p_castMem p_tile p_free h3)) h

theorem State.vectorReduce_within {w : Nat} {e : QEntry} {t3 : Nat} (p_scratch : Part.scratch ∈ g.parts) (p_castMem : Part.castMem ∈ g.parts) (p_tile : Part.tile ∈ g.parts) (p_free : Part.free ∈ g.parts) (h : Within g s u) (k_castDemandRefills : g.keys Obj.castDemandRefills := by assumption) (k_castStallCycles : g.keys Obj.castStallCycles := by assumption) (k_castWritethroughBytes : g.keys Obj.castWritethroughBytes := by assumption) (k_cumElements : g.keys Obj.cumElements := by assumption) (k_cumNonfinite : g.keys Obj.cumNonfinite := by assumption) (k_cumSaturation : g.keys Obj.cumSaturation := by assumption) (k_cumUnderflow : g.keys Obj.cumUnderflow := by assumption) (k_dnBytes : g.keys Obj.dnBytes := by assumption) (k_vxBusyCycles : g.keys Obj.vxBusyCycles := by assumption) (k_vxPortLost : g.keys Obj.vxPortLost := by assumption) (k_vxWaitCycles : g.keys Obj.vxWaitCycles := by assumption) :
    Within g s (State.vectorReduce u w e t3) := by
  unfold State.vectorReduce
  extract_lets +onlyGivenNames -underBinder -merge n1
  extract_lets +onlyGivenNames -underBinder -merge n2
  split
  · split
    · next _ _ _ y9 =>
      exact Within.ite (Within.pair (State.pagesFor_within p_tile h) y9) (State.ranVector_within p_tile p_free (State.storePlain_within p_scratch p_castMem p_tile (Within.pair (State.pagesFor_within p_tile h) y9)))
  · exact Within.ite h (by
      split
      · next _ _ _ y15 =>
        exact Within.ite (Within.pair (State.startVector_within p_tile h) y15) (Within.ite (State.setShare_within p_tile (Within.pair (State.startVector_within p_tile h) y15)) (State.ranVector_within p_tile p_free (State.storePlain_within p_scratch p_castMem p_tile (Within.pair (State.startVector_within p_tile h) y15)))))

theorem execVectorReduce_within {w : Fin 8} {q : Nat} {t2 : Fin 192} (p_scratch : Part.scratch ∈ g.parts) (p_castMem : Part.castMem ∈ g.parts) (p_tile : Part.tile ∈ g.parts) (p_free : Part.free ∈ g.parts) (h : Within g s u) (k_castDemandRefills : g.keys Obj.castDemandRefills := by assumption) (k_castStallCycles : g.keys Obj.castStallCycles := by assumption) (k_castWritethroughBytes : g.keys Obj.castWritethroughBytes := by assumption) (k_cumElements : g.keys Obj.cumElements := by assumption) (k_cumNonfinite : g.keys Obj.cumNonfinite := by assumption) (k_cumSaturation : g.keys Obj.cumSaturation := by assumption) (k_cumUnderflow : g.keys Obj.cumUnderflow := by assumption) (k_dnBytes : g.keys Obj.dnBytes := by assumption) (k_vxBusyCycles : g.keys Obj.vxBusyCycles := by assumption) (k_vxPortLost : g.keys Obj.vxPortLost := by assumption) (k_vxWaitCycles : g.keys Obj.vxWaitCycles := by assumption) :
    Leads g s (execVectorReduce w q t2 u) := by
  unfold execVectorReduce
  exact onVector_within p_tile (fun x1 x2 h3 => (State.vectorReduce_within p_scratch p_castMem p_tile p_free h3)) h

theorem State.tileFold_within {w : Nat} {e : QEntry} (p_tile : Part.tile ∈ g.parts) (h : Within g s u) (k_dnBytes : g.keys Obj.dnBytes := by assumption) :
    Within g s (State.tileFold u w e) := by
  unfold State.tileFold
  extract_lets +onlyGivenNames -underBinder -merge n1
  extract_lets +onlyGivenNames -underBinder -merge n2
  extract_lets +onlyGivenNames -underBinder -merge n3
  exact Within.ite h (by
    split
    · exact h
    · extract_lets +onlyGivenNames -underBinder -merge n10
      exact State.delivered_within (Within.foldl (fun x11 x12 h13 => (State.setShare_within p_tile h13)) h))

theorem execReduceTileFold_within {w : Fin 8} {q : Nat} (p_tile : Part.tile ∈ g.parts) (h : Within g s u) (k_dnBytes : g.keys Obj.dnBytes := by assumption) :
    Leads g s (execReduceTileFold w q u) := by
  unfold execReduceTileFold
  exact onVector_within p_tile (fun x1 x2 h3 => (State.tileFold_within p_tile h3)) h

theorem State.gatherReady_within {w : Nat} {q : Nat} {d : Vx} {t4 : Nat} (p_cmd : Part.cmd ∈ g.parts) (p_tile : Part.tile ∈ g.parts) (p_tier : Part.tier ∈ g.parts) (h : Within g s u) (k_castDemandRefills : g.keys Obj.castDemandRefills := by assumption) (k_castStallCycles : g.keys Obj.castStallCycles := by assumption) (k_tmWaitCycles : g.keys Obj.tmWaitCycles := by assumption) :
    Within g s (State.gatherReady u w q d t4).1 := by
  unfold State.gatherReady
  extract_lets +onlyGivenNames -underBinder -merge n1
  exact Within.iteFst (by
    split
    · exact Within.fst h
    · extract_lets +onlyGivenNames -underBinder -merge n7
      split
      · next _ _ _ y11 =>
        exact Within.iteFst (Within.fst (Within.pair (State.access_within p_tier h) y11)) (Within.iteFst (Within.fst (State.hitStatus_within p_cmd (Within.pair (State.access_within p_tier h) y11))) (Within.fst (Within.pair (State.access_within p_tier h) y11)))) (Within.iteFst (by
    split
    · next _ _ _ y15 =>
      exact Within.fst (State.pageGate_within p_tile (Within.pair (Within.foldlFst (fun x16 x17 h18 => (by
        split
        · next _ _ _ y22 =>
          exact Within.fst (Within.pair (State.needPages_within p_tile h18) y22))) (Within.fst h)) y15))) (Within.fst h))

theorem State.indexed_within {w : Nat} {e : QEntry} {n : Nat} {bad : Nat} (p_cmd : Part.cmd ∈ g.parts) (h : Within g s u) (k_vxIndexRange : g.keys Obj.vxIndexRange := by assumption) (k_vxIndexedElems : g.keys Obj.vxIndexedElems := by assumption) :
    Within g s (State.indexed u w e n bad) := by
  unfold State.indexed
  extract_lets +onlyGivenNames -underBinder -merge s1
  have h2 : Within g s s1 := (State.count_within h)
  extract_lets +onlyGivenNames -underBinder -merge s3
  have h4 : Within g s s3 := (State.count_within h2)
  extract_lets +onlyGivenNames -underBinder -merge n5
  exact Within.ite h4 (State.updEntry_within p_cmd (State.raise_within h4))

theorem State.gather_within {w : Nat} {e : QEntry} {t3 : Nat} (p_cmd : Part.cmd ∈ g.parts) (p_scratch : Part.scratch ∈ g.parts) (p_castMem : Part.castMem ∈ g.parts) (p_tile : Part.tile ∈ g.parts) (p_tier : Part.tier ∈ g.parts) (p_free : Part.free ∈ g.parts) (h : Within g s u) (k_castDemandRefills : g.keys Obj.castDemandRefills := by assumption) (k_castStallCycles : g.keys Obj.castStallCycles := by assumption) (k_castWritethroughBytes : g.keys Obj.castWritethroughBytes := by assumption) (k_cumElements : g.keys Obj.cumElements := by assumption) (k_cumNonfinite : g.keys Obj.cumNonfinite := by assumption) (k_cumSaturation : g.keys Obj.cumSaturation := by assumption) (k_cumUnderflow : g.keys Obj.cumUnderflow := by assumption) (k_dnBytes : g.keys Obj.dnBytes := by assumption) (k_tmWaitCycles : g.keys Obj.tmWaitCycles := by assumption) (k_vxBusyCycles : g.keys Obj.vxBusyCycles := by assumption) (k_vxIndexRange : g.keys Obj.vxIndexRange := by assumption) (k_vxIndexedElems : g.keys Obj.vxIndexedElems := by assumption) (k_vxPortLost : g.keys Obj.vxPortLost := by assumption) (k_vxWaitCycles : g.keys Obj.vxWaitCycles := by assumption) :
    Within g s (State.gather u w e t3) := by
  unfold State.gather
  extract_lets +onlyGivenNames -underBinder -merge n1
  split
  · next _ _ _ y5 =>
    exact Within.ite (Within.pair (State.startVector_within p_tile h) y5) (by
      split
      · next _ _ _ y9 =>
        exact Within.ite (Within.pair (State.gatherReady_within p_cmd p_tile p_tier (Within.pair (State.startVector_within p_tile h) y5)) y9) (by
          extract_lets +onlyGivenNames -underBinder -merge n10
          extract_lets +onlyGivenNames -underBinder -merge n11
          extract_lets +onlyGivenNames -underBinder -merge s12
          have h13 : Within g s s12 := (State.delivered_within (Within.pair (State.gatherReady_within p_cmd p_tile p_tier (Within.pair (State.startVector_within p_tile h) y5)) y9))
          extract_lets +onlyGivenNames -underBinder -merge s14
          have h15 : Within g s s14 := (State.storeTensor_within p_scratch p_castMem p_tile h13)
          exact State.ranVector_within p_tile p_free (State.indexed_within p_cmd h15)))

theorem execGather_within {w : Fin 8} {q : Nat} {t2 : Fin 192} (p_cmd : Part.cmd ∈ g.parts) (p_scratch : Part.scratch ∈ g.parts) (p_castMem : Part.castMem ∈ g.parts) (p_tile : Part.tile ∈ g.parts) (p_tier : Part.tier ∈ g.parts) (p_free : Part.free ∈ g.parts) (h : Within g s u) (k_castDemandRefills : g.keys Obj.castDemandRefills := by assumption) (k_castStallCycles : g.keys Obj.castStallCycles := by assumption) (k_castWritethroughBytes : g.keys Obj.castWritethroughBytes := by assumption) (k_cumElements : g.keys Obj.cumElements := by assumption) (k_cumNonfinite : g.keys Obj.cumNonfinite := by assumption) (k_cumSaturation : g.keys Obj.cumSaturation := by assumption) (k_cumUnderflow : g.keys Obj.cumUnderflow := by assumption) (k_dnBytes : g.keys Obj.dnBytes := by assumption) (k_tmWaitCycles : g.keys Obj.tmWaitCycles := by assumption) (k_vxBusyCycles : g.keys Obj.vxBusyCycles := by assumption) (k_vxIndexRange : g.keys Obj.vxIndexRange := by assumption) (k_vxIndexedElems : g.keys Obj.vxIndexedElems := by assumption) (k_vxPortLost : g.keys Obj.vxPortLost := by assumption) (k_vxWaitCycles : g.keys Obj.vxWaitCycles := by assumption) :
    Leads g s (execGather w q t2 u) := by
  unfold execGather
  exact onVector_within p_tile (fun x1 x2 h3 => (State.gather_within p_cmd p_scratch p_castMem p_tile p_tier p_free h3)) h

theorem State.scatterStore_within {d : Vx} {t2 : Nat} (p_scratch : Part.scratch ∈ g.parts) (p_castMem : Part.castMem ∈ g.parts) (h : Within g s u) :
    Within g s (State.scatterStore u d t2).1 := by
  unfold State.scatterStore
  extract_lets +onlyGivenNames -underBinder -merge n1
  extract_lets +onlyGivenNames -underBinder -merge n2
  extract_lets +onlyGivenNames -underBinder -merge n3
  extract_lets +onlyGivenNames -underBinder -merge n4
  exact Within.foldlFst (fun x5 x6 h7 => (by
    split
    · exact Within.iteFst h7 (by
        extract_lets +onlyGivenNames -underBinder -merge n11
        extract_lets +onlyGivenNames -underBinder -merge n12
        extract_lets +onlyGivenNames -underBinder -merge n13
        split
        · exact Within.fst (State.putBytes_within p_scratch p_castMem h7)))) (Within.fst h)

theorem State.scatter_within {w : Nat} {e : QEntry} {t3 : Nat} (p_cmd : Part.cmd ∈ g.parts) (p_scratch : Part.scratch ∈ g.parts) (p_castMem : Part.castMem ∈ g.parts) (p_tile : Part.tile ∈ g.parts) (p_free : Part.free ∈ g.parts) (h : Within g s u) (k_castDemandRefills : g.keys Obj.castDemandRefills := by assumption) (k_castStallCycles : g.keys Obj.castStallCycles := by assumption) (k_cumElements : g.keys Obj.cumElements := by assumption) (k_cumNonfinite : g.keys Obj.cumNonfinite := by assumption) (k_cumSaturation : g.keys Obj.cumSaturation := by assumption) (k_cumUnderflow : g.keys Obj.cumUnderflow := by assumption) (k_vxBusyCycles : g.keys Obj.vxBusyCycles := by assumption) (k_vxIndexRange : g.keys Obj.vxIndexRange := by assumption) (k_vxIndexedElems : g.keys Obj.vxIndexedElems := by assumption) (k_vxPortLost : g.keys Obj.vxPortLost := by assumption) (k_vxWaitCycles : g.keys Obj.vxWaitCycles := by assumption) :
    Within g s (State.scatter u w e t3) := by
  unfold State.scatter
  extract_lets +onlyGivenNames -underBinder -merge n1
  split
  · next _ _ _ y5 =>
    exact Within.ite (Within.pair (State.startVector_within p_tile h) y5) (by
      extract_lets +onlyGivenNames -underBinder -merge n6
      split
      · next _ _ _ _ y11 =>
        extract_lets +onlyGivenNames -underBinder -merge s12
        have h13 : Within g s s12 := (State.tally_within p_tile (Within.pair (State.scatterStore_within p_scratch p_castMem (Within.pair (State.startVector_within p_tile h) y5)) y11))
        exact State.ranVector_within p_tile p_free (State.indexed_within p_cmd h13))

theorem execScatter_within {w : Fin 8} {q : Nat} {t2 : Fin 192} (p_cmd : Part.cmd ∈ g.parts) (p_scratch : Part.scratch ∈ g.parts) (p_castMem : Part.castMem ∈ g.parts) (p_tile : Part.tile ∈ g.parts) (p_free : Part.free ∈ g.parts) (h : Within g s u) (k_castDemandRefills : g.keys Obj.castDemandRefills := by assumption) (k_castStallCycles : g.keys Obj.castStallCycles := by assumption) (k_cumElements : g.keys Obj.cumElements := by assumption) (k_cumNonfinite : g.keys Obj.cumNonfinite := by assumption) (k_cumSaturation : g.keys Obj.cumSaturation := by assumption) (k_cumUnderflow : g.keys Obj.cumUnderflow := by assumption) (k_vxBusyCycles : g.keys Obj.vxBusyCycles := by assumption) (k_vxIndexRange : g.keys Obj.vxIndexRange := by assumption) (k_vxIndexedElems : g.keys Obj.vxIndexedElems := by assumption) (k_vxPortLost : g.keys Obj.vxPortLost := by assumption) (k_vxWaitCycles : g.keys Obj.vxWaitCycles := by assumption) :
    Leads g s (execScatter w q t2 u) := by
  unfold execScatter
  exact onVector_within p_tile (fun x1 x2 h3 => (State.scatter_within p_cmd p_scratch p_castMem p_tile p_free h3)) h

end Sys2Proof.Machine
end

