-- ==== Sys2Proof/Laws/WithinCast.lean ====
section
/-! SUPPORT. What each operation of Machine/Cast.lean may change, and that it keeps the form of the state. -/
namespace Sys2Proof.Machine
set_option Elab.async false

variable {g : Scope} {s u : State}

theorem State.bindArm_within {w : Nat} {q : Nat} {d : Mx} (p_tile : Part.tile ∈ g.parts) (h : Within g s u) :
    Within g s (State.bindArm u w q d) := by
  unfold State.bindArm
  split
  · exact h
  · exact Within.setTile p_tile h rfl rfl

theorem State.consumeArm_within {w : Nat} {q : Nat} (p_tile : Part.tile ∈ g.parts) (h : Within g s u) :
    Within g s (State.consumeArm u w q) := by
  unfold State.consumeArm
  exact Within.setTile p_tile h rfl rfl

theorem State.consumePending_within {w : Nat} {d : Mx} (p_tile : Part.tile ∈ g.parts) (h : Within g s u) :
    Within g s (State.consumePending u w d) := by
  unfold State.consumePending
  split
  · exact h
  · exact Within.setTile p_tile h rfl rfl

theorem State.setDir_within {t1 : Nat} {l : List CastEnt} (p_tile : Part.tile ∈ g.parts) (h : Within g s u) :
    Within g s (State.setDir u t1 l) := by
  unfold State.setDir
  exact Within.setTile p_tile h rfl rfl

theorem State.setStack_within {t1 : Nat} {l : List CastEnt} (p_tile : Part.tile ∈ g.parts) (h : Within g s u) :
    Within g s (State.setStack u t1 l) := by
  unfold State.setStack
  exact Within.setTile p_tile h rfl rfl

theorem State.applyDir_within {d : Ck} {e : QEntry} {w : Nat} (p_tile : Part.tile ∈ g.parts) (h : Within g s u) :
    Within g s (State.applyDir u d e w) := by
  unfold State.applyDir
  exact Within.foldl (fun x1 x2 h3 => (by
    extract_lets +onlyGivenNames -underBinder -merge n4
    exact State.setDir_within p_tile h3)) h

theorem State.applyStack_within {d : Ck} {e : QEntry} {w : Nat} {t4 : Nat} (p_castMem : Part.castMem ∈ g.parts) (p_tile : Part.tile ∈ g.parts) (h : Within g s u) :
    Within g s (State.applyStack u d e w t4) := by
  unfold State.applyStack
  extract_lets n1 n2 s3 n5 n6 _ s7
  have h3 : Within g s s3 := State.setStack_within p_tile h
  have h7 : Within g s s7 := Within.setCastMem p_castMem h3 rfl (memClear_wf _ _)
  exact Within.ite h3 (State.castTest_within p_tile (State.freePages_within p_tile h7))

theorem onSeq_within {w : Fin 8} {q : Nat} {kind : Nat} {op : Rec → Bool} {f : QEntry → State} (p_cmd : Part.cmd ∈ g.parts) (hf5 : ∀ v0, Within g s (f v0)) (h : Within g s u) :
    Leads g s (onSeq w q kind op u f) := by
  unfold onSeq
  split
  · exact Leads.ite (Leads.next (State.updEntry_within p_cmd (Within.ite h (hf5 _)))) (Leads.next h)
  · exact Leads.next h

theorem execCastOpen_within {w : Fin 8} {q : Nat} (p_cmd : Part.cmd ∈ g.parts) (p_tile : Part.tile ∈ g.parts) (h : Within g s u) :
    Leads g s (execCastOpen w q u) := by
  unfold execCastOpen
  exact onSeq_within p_cmd (fun x1 => (State.applyDir_within p_tile h)) h

theorem execCastPop_within {w : Fin 8} {q : Nat} (p_cmd : Part.cmd ∈ g.parts) (p_tile : Part.tile ∈ g.parts) (h : Within g s u) :
    Leads g s (execCastPop w q u) := by
  unfold execCastPop
  exact onSeq_within p_cmd (fun x1 => (State.applyDir_within p_tile h)) h

theorem execCastPopTo_within {w : Fin 8} {q : Nat} (p_cmd : Part.cmd ∈ g.parts) (p_tile : Part.tile ∈ g.parts) (h : Within g s u) :
    Leads g s (execCastPopTo w q u) := by
  unfold execCastPopTo
  exact onSeq_within p_cmd (fun x1 => (State.applyDir_within p_tile h)) h

theorem State.addArm_within {d : Ck} {e : QEntry} {w : Nat} (p_tile : Part.tile ∈ g.parts) (h : Within g s u) :
    Within g s (State.addArm u d e w) := by
  unfold State.addArm
  exact Within.setTile p_tile h rfl rfl

theorem execCastArm_within {w : Fin 8} {q : Nat} (p_cmd : Part.cmd ∈ g.parts) (p_tile : Part.tile ∈ g.parts) (h : Within g s u) :
    Leads g s (execCastArm w q u) := by
  unfold execCastArm
  exact onSeq_within p_cmd (fun x1 => (State.addArm_within p_tile h)) h

theorem execPlanReserve_within {w : Fin 8} {q : Nat} (p_cmd : Part.cmd ∈ g.parts) (p_tile : Part.tile ∈ g.parts) (h : Within g s u) :
    Leads g s (execPlanReserve w q u) := by
  unfold execPlanReserve
  exact onSeq_within p_cmd (fun x1 => (Within.setTile p_tile h rfl rfl)) h

theorem execPlanLayer_within {w : Fin 8} {q : Nat} (p_cmd : Part.cmd ∈ g.parts) (p_tile : Part.tile ∈ g.parts) (h : Within g s u) :
    Leads g s (execPlanLayer w q u) := by
  unfold execPlanLayer
  exact onSeq_within p_cmd (fun x1 => (by
    extract_lets +onlyGivenNames -underBinder -merge n2
    extract_lets +onlyGivenNames -underBinder -merge n3
    exact Within.setTile p_tile h rfl rfl)) h

theorem State.castMoveDone_within {t1 : Nat} {p2 : Nat} (p_tile : Part.tile ∈ g.parts) (h : Within g s u) (k_castPagesRefilled : g.keys Obj.castPagesRefilled := by assumption) (k_castPagesSpilled : g.keys Obj.castPagesSpilled := by assumption) (k_dnBytes : g.keys Obj.dnBytes := by assumption) :
    Within g s (State.castMoveDone u t1 p2) := by
  unfold State.castMoveDone
  split
  · exact State.castTest_within p_tile (State.delivered_within (State.count_within (State.setPage_within p_tile h)))
  · exact State.castTest_within p_tile (State.delivered_within (State.count_within (State.setPage_within p_tile h)))
  · exact State.castTest_within p_tile (State.delivered_within (State.count_within (State.setPage_within p_tile h)))
  · exact State.castTest_within p_tile (State.delivered_within (State.count_within (State.setPage_within p_tile h)))
  · exact h

theorem execCastPageMoveDone_within {t0 : Fin 192} {p1 : Nat} (p_tile : Part.tile ∈ g.parts) (h : Within g s u) (k_castPagesRefilled : g.keys Obj.castPagesRefilled := by assumption) (k_castPagesSpilled : g.keys Obj.castPagesSpilled := by assumption) (k_dnBytes : g.keys Obj.dnBytes := by assumption) :
    Leads g s (execCastPageMoveDone t0 p1 u) := by
  unfold execCastPageMoveDone
  exact Leads.next (State.castMoveDone_within p_tile h)

end Sys2Proof.Machine
end

