-- ==== Sys2Proof/Laws/WithinSync.lean ====
section
/-! SUPPORT. What each operation of Machine/Sync.lean may change, and that it keeps the form of the state. -/
namespace Sys2Proof.Machine
set_option Elab.async false

variable {g : Scope} {s u : State}

theorem State.syncRefuse_within {w : Nat} {e : QEntry} {reason : Nat} (p_cmd : Part.cmd ∈ g.parts) (h : Within g s u) (k_syncFaults : g.keys Obj.syncFaults := by assumption) :
    Within g s (State.syncRefuse u w e reason) := by
  unfold State.syncRefuse
  exact State.refuse_within p_cmd (State.countSat_within (State.raise_within h))

theorem onSync_within {w : Fin 8} {q : Nat} {t2 : Fin 192} {op : Nat} {f : QEntry → Sy → State} (hf5 : ∀ v0 v1, Within g s (f v0 v1)) (h : Within g s u) :
    Leads g s (onSync w q t2 op u f) := by
  unfold onSync
  split
  · exact Leads.ite (Leads.next (hf5 _ _)) (Leads.next h)
  · exact Leads.next h

theorem State.ranSync_within {w : Nat} {q : Nat} {t3 : Nat} (p_tile : Part.tile ∈ g.parts) (h : Within g s u) :
    Within g s (State.ranSync u w q t3) := by
  unfold State.ranSync
  exact State.setShare_within p_tile h

theorem execSemSignal_within {w : Fin 8} {q : Nat} {t2 : Fin 192} (p_tile : Part.tile ∈ g.parts) (p_cross : Part.cross ∈ g.parts) (h : Within g s u) :
    Leads g s (execSemSignal w q t2 u) := by
  unfold execSemSignal
  exact onSync_within (fun x1 x2 => (by
    extract_lets +onlyGivenNames -underBinder -merge s3
    have h4 : Within g s s3 := (Within.foldl (fun x5 x6 h7 => (State.passTiles_within p_cross h7)) (State.ranSync_within p_tile h))
    exact Within.setTile p_tile h4 rfl rfl)) h

theorem State.signalArrive_within {u1 : Nat} (p_cmd : Part.cmd ∈ g.parts) (p_tile : Part.tile ∈ g.parts) (h : Within g s u) (k_cnMessages : g.keys Obj.cnMessages := by assumption) (k_syncFaults : g.keys Obj.syncFaults := by assumption) :
    Within g s (State.signalArrive u u1) := by
  unfold State.signalArrive
  split
  · exact h
  · extract_lets +onlyGivenNames -underBinder -merge _ s6
    have h7 : Within g s s6 := (Within.setTile p_tile h rfl rfl)
    exact State.semAdd_within p_cmd p_tile (State.count_within h7)

theorem execSemSignalArrive_within {u0 : Fin 192} (p_cmd : Part.cmd ∈ g.parts) (p_tile : Part.tile ∈ g.parts) (h : Within g s u) (k_cnMessages : g.keys Obj.cnMessages := by assumption) (k_syncFaults : g.keys Obj.syncFaults := by assumption) :
    Leads g s (execSemSignalArrive u0 u) := by
  unfold execSemSignalArrive
  exact Leads.next (State.signalArrive_within p_cmd p_tile h)

theorem execSemWait_within {w : Fin 8} {q : Nat} {t2 : Fin 192} (p_tile : Part.tile ∈ g.parts) (h : Within g s u) (k_syncWaitCycles : g.keys Obj.syncWaitCycles := by assumption) :
    Leads g s (execSemWait w q t2 u) := by
  unfold execSemWait
  exact onSync_within (fun x1 x2 => (Within.ite (State.beginWait_within p_tile h) (State.ranSync_within p_tile (State.setSem_within p_tile (State.count_within h))))) h

theorem execSemSet_within {w : Fin 8} {q : Nat} {t2 : Fin 192} (p_cmd : Part.cmd ∈ g.parts) (p_tile : Part.tile ∈ g.parts) (h : Within g s u) (k_syncFaults : g.keys Obj.syncFaults := by assumption) :
    Leads g s (execSemSet w q t2 u) := by
  unfold execSemSet
  exact onSync_within (fun x1 x2 => (by
    extract_lets +onlyGivenNames -underBinder -merge n3
    exact Within.ite (State.syncRefuse_within p_cmd h) (State.ranSync_within p_tile (State.setSem_within p_tile h)))) h

theorem State.barArm_within {w : Nat} {e : QEntry} (p_cmd : Part.cmd ∈ g.parts) (p_tile : Part.tile ∈ g.parts) (h : Within g s u) (k_syncFaults : g.keys Obj.syncFaults := by assumption) :
    Within g s (State.barArm u w e) := by
  unfold State.barArm
  extract_lets +onlyGivenNames -underBinder -merge n1
  extract_lets +onlyGivenNames -underBinder -merge n2
  exact Within.ite (State.syncRefuse_within p_cmd h) (State.setChan_within p_tile h)

theorem execBarArm_within {w : Fin 8} {q : Nat} (p_cmd : Part.cmd ∈ g.parts) (p_tile : Part.tile ∈ g.parts) (h : Within g s u) (k_syncFaults : g.keys Obj.syncFaults := by assumption) :
    Leads g s (execBarArm w q u) := by
  unfold execBarArm
  exact onSeq_within p_cmd (fun x1 => (State.barArm_within p_cmd p_tile h)) h

theorem execBarArrive_within {w : Fin 8} {q : Nat} {t2 : Fin 192} (p_cmd : Part.cmd ∈ g.parts) (p_tile : Part.tile ∈ g.parts) (p_cross : Part.cross ∈ g.parts) (h : Within g s u) (k_barCompletions : g.keys Obj.barCompletions := by assumption) (k_syncFaults : g.keys Obj.syncFaults := by assumption) :
    Leads g s (execBarArrive w q t2 u) := by
  unfold execBarArrive
  exact onSync_within (fun x1 x2 => (State.arrive_within p_cmd p_tile (State.passArray_within p_cross (State.ranSync_within p_tile h)))) h

theorem State.release_within {t1 : Nat} {c : Nat} (p_cmd : Part.cmd ∈ g.parts) (p_tile : Part.tile ∈ g.parts) (p_cross : Part.cross ∈ g.parts) (h : Within g s u) (k_syncFaults : g.keys Obj.syncFaults := by assumption) :
    Within g s (State.release u t1 c) := by
  unfold State.release
  exact Within.ite h (by
    extract_lets +onlyGivenNames -underBinder -merge _ s1
    have h2 : Within g s s1 := (Within.setTile p_tile h rfl rfl)
    extract_lets +onlyGivenNames -underBinder -merge s3
    have h4 : Within g s s3 := (State.passArray_within p_cross h2)
    extract_lets +onlyGivenNames -underBinder -merge n5
    exact Within.ite (State.syncFault_within p_cmd h4) (Within.setTile p_tile h4 rfl rfl))

theorem execBarrierRelease_within {t0 : Fin 192} {c : Fin 64} (p_cmd : Part.cmd ∈ g.parts) (p_tile : Part.tile ∈ g.parts) (p_cross : Part.cross ∈ g.parts) (h : Within g s u) (k_syncFaults : g.keys Obj.syncFaults := by assumption) :
    Leads g s (execBarrierRelease t0 c u) := by
  unfold execBarrierRelease
  exact Leads.next (State.release_within p_cmd p_tile p_cross h)

theorem execBarWait_within {w : Fin 8} {q : Nat} {t2 : Fin 192} (p_tile : Part.tile ∈ g.parts) (h : Within g s u) (k_syncWaitCycles : g.keys Obj.syncWaitCycles := by assumption) :
    Leads g s (execBarWait w q t2 u) := by
  unfold execBarWait
  exact onSync_within (fun x1 x2 => (by
    extract_lets +onlyGivenNames -underBinder -merge n3
    extract_lets +onlyGivenNames -underBinder -merge n4
    exact Within.ite (State.beginWait_within p_tile h) (by
      extract_lets +onlyGivenNames -underBinder -merge s5
      have h6 : Within g s s5 := (State.count_within h)
      exact State.ranSync_within p_tile (Within.setTile p_tile h6 rfl rfl)))) h

theorem State.syncTimeout_within {w : Nat} {e : QEntry} {t3 : Nat} (p_cmd : Part.cmd ∈ g.parts) (p_tile : Part.tile ∈ g.parts) (h : Within g s u) (k_syncTimeouts : g.keys Obj.syncTimeouts := by assumption) :
    Within g s (State.syncTimeout u w e t3) := by
  unfold State.syncTimeout
  extract_lets +onlyGivenNames -underBinder -merge n1
  split
  · exact h
  · exact Within.ite h (by
      extract_lets +onlyGivenNames -underBinder -merge s7
      have h8 : Within g s s7 := (State.setShare_within p_tile h)
      extract_lets +onlyGivenNames -underBinder -merge s9
      have h10 : Within g s s9 := (State.countSat_within (State.raise_within h8))
      exact Within.ite h10 (State.formRing_within p_cmd (State.updEntry_within p_cmd h10)))

theorem execSyncTimeout_within {w : Fin 8} {q : Nat} {t2 : Fin 192} (p_cmd : Part.cmd ∈ g.parts) (p_tile : Part.tile ∈ g.parts) (h : Within g s u) (k_syncTimeouts : g.keys Obj.syncTimeouts := by assumption) :
    Leads g s (execSyncTimeout w q t2 u) := by
  unfold execSyncTimeout
  split
  · exact Leads.ite (Leads.next (State.syncTimeout_within p_cmd p_tile h)) (Leads.next h)
  · exact Leads.next h

theorem State.tileEffect_within {w : Nat} {e : QEntry} {t3 : Nat} (p_castMem : Part.castMem ∈ g.parts) (p_tile : Part.tile ∈ g.parts) (h : Within g s u) :
    Within g s (State.tileEffect u w e t3) := by
  unfold State.tileEffect
  exact Within.ite (Within.ite (by
    extract_lets +onlyGivenNames -underBinder -merge n1
    exact Within.foldl (fun x2 x3 h4 => (State.countLoads_within p_tile h4)) h) h) (Within.ite (State.applyStack_within p_castMem p_tile h) (Within.ite (by
    split
    · exact State.setBank_within p_tile h
    · exact h) h))

theorem State.tileReport_within {w : Nat} {e : QEntry} {t3 : Nat} (p_cmd : Part.cmd ∈ g.parts) (p_tile : Part.tile ∈ g.parts) (p_cross : Part.cross ∈ g.parts) (h : Within g s u) (k_barCompletions : g.keys Obj.barCompletions := by assumption) (k_cnMessages : g.keys Obj.cnMessages := by assumption) (k_syncFaults : g.keys Obj.syncFaults := by assumption) :
    Within g s (State.tileReport u w e t3) := by
  unfold State.tileReport
  extract_lets +onlyGivenNames -underBinder -merge s1
  have h2 : Within g s s1 := (State.passArray_within p_cross (State.count_within (State.reportTile_within p_cmd h)))
  extract_lets +onlyGivenNames -underBinder -merge s3
  have h4 : Within g s s3 := (State.setShare_within p_tile h2)
  extract_lets +onlyGivenNames -underBinder -merge s5
  have h6 : Within g s s5 := (by
    unfold s5
    split
    · exact State.semAdd_within p_cmd p_tile h4
    · exact h4)
  split
  · exact State.arrive_within p_cmd p_tile (State.passArray_within p_cross h6)
  · exact h6

theorem State.tileComplete_within {w : Nat} {e : QEntry} {t3 : Nat} (p_cmd : Part.cmd ∈ g.parts) (p_castMem : Part.castMem ∈ g.parts) (p_tile : Part.tile ∈ g.parts) (p_cross : Part.cross ∈ g.parts) (h : Within g s u) (k_barCompletions : g.keys Obj.barCompletions := by assumption) (k_cnMessages : g.keys Obj.cnMessages := by assumption) (k_mxStallOperand : g.keys Obj.mxStallOperand := by assumption) (k_syncFaults : g.keys Obj.syncFaults := by assumption) (k_vxWaitCycles : g.keys Obj.vxWaitCycles := by assumption) :
    Within g s (State.tileComplete u w e t3) := by
  unfold State.tileComplete
  exact Within.ite h (by
    extract_lets +onlyGivenNames -underBinder -merge s1
    have h2 : Within g s s1 := (Within.ite (State.startShare_within p_tile h) h)
    exact Within.ite (State.tileReport_within p_cmd p_tile p_cross (State.tileEffect_within p_castMem p_tile h2)) h2)

theorem execTileRecordComplete_within {w : Fin 8} {q : Nat} {t2 : Fin 192} (p_cmd : Part.cmd ∈ g.parts) (p_castMem : Part.castMem ∈ g.parts) (p_tile : Part.tile ∈ g.parts) (p_cross : Part.cross ∈ g.parts) (h : Within g s u) (k_barCompletions : g.keys Obj.barCompletions := by assumption) (k_cnMessages : g.keys Obj.cnMessages := by assumption) (k_mxStallOperand : g.keys Obj.mxStallOperand := by assumption) (k_syncFaults : g.keys Obj.syncFaults := by assumption) (k_vxWaitCycles : g.keys Obj.vxWaitCycles := by assumption) :
    Leads g s (execTileRecordComplete w q t2 u) := by
  unfold execTileRecordComplete
  split
  · exact Leads.next (State.tileComplete_within p_cmd p_castMem p_tile p_cross h)
  · exact Leads.next h

end Sys2Proof.Machine
end

