-- ==== Sys2Proof/Laws/WithinWindows.lean ====
section
/-! SUPPORT. What each operation of Machine/Windows.lean may change, and that it keeps the form of the state. -/
namespace Sys2Proof.Machine
set_option Elab.async false

variable {g : Scope} {s u : State}

theorem State.clearSlots_within {w : Nat} (p_bar0 : Part.bar0 ∈ g.parts) (p_cmd : Part.cmd ∈ g.parts) (h : Within g s u) :
    Within g s (State.clearSlots u w) := by
  unfold State.clearSlots
  exact State.updWin_within p_cmd (Within.setBar0 p_bar0 h rfl (memClear_wf _ _)) _ _ (fun _ h => h)

theorem State.renewLease_within {w : Nat} (p_cmd : Part.cmd ∈ g.parts) (h : Within g s u) :
    Within g s (State.renewLease u w) := by
  unfold State.renewLease
  exact State.updWin_within p_cmd h _ _ (fun _ h => h)

theorem State.acceptStep_within {w : Nat} {r : Rec} (p_cmd : Part.cmd ∈ g.parts) (h : Within g s u) :
    Within g s (State.acceptStep u w r) := by
  unfold State.acceptStep
  extract_lets +onlyGivenNames -underBinder -merge n1
  extract_lets +onlyGivenNames -underBinder -merge s2
  have h3 : Within g s s2 := (State.updWin_within p_cmd h _ _ (fun _ h => h))
  exact Within.ite (by
    extract_lets +onlyGivenNames -underBinder -merge s4
    have h5 : Within g s s4 := (State.updWin_within p_cmd h3 _ _ (fun _ h => h))
    exact Within.ite (Within.setCmd p_cmd h5 rfl id) h5) h3

/-- Accepting a step record leaves every queue as it is. -/
theorem State.acceptStep_queue {w : ℕ} {r : Rec} (f : u.Form) : ((u.acceptStep w r).win w).queue = (u.win w).queue := by
  unfold State.acceptStep
  extract_lets n s1 s2
  have hw : Within ⟨[Part.cmd], fun _ => False⟩ u s1 := State.updWin_within (List.mem_singleton.2 rfl) (Within.refl _ u) _ _ (fun _ h => h)
  have f1 : s1.Form := hw.form f
  have h1 : (s1.win w).queue = (u.win w).queue := by
    simp only [s1, State.win_updWin]
  have h2 : (s2.win w).queue = (s1.win w).queue := by
    simp only [s2, State.win_updWin]
  split
  · split
    · exact h2.trans h1
    · exact h2.trans h1
  · exact h1

theorem State.accept_within {w : Nat} {r : Rec} (p_cmd : Part.cmd ∈ g.parts) (room : (u.win w).queue.length < 64) (h : Within g s u) (k_cmdAccepted : g.keys Obj.cmdAccepted := by assumption) :
    Within g s (State.accept u w r) := by
  unfold State.accept
  extract_lets before s1 x st e
  have h1 : Within g s s1 := Within.ite (State.acceptStep_within p_cmd h) h
  refine State.count_within (State.setWin_within_from p_cmd h1 _ _ fun fs => ?_)
  have f := h.form fs
  have hq : (s1.win w).queue = (u.win w).queue := by
    simp only [s1]
    split
    · exact State.acceptStep_queue f
    · rfl
  simp only [List.length_append, List.length_cons, List.length_nil, hq]
  omega

theorem State.acceptCredit_within {w : Nat} {r : Rec} (p_cmd : Part.cmd ∈ g.parts) (h : Within g s u) (k_cmdAccepted : g.keys Obj.cmdAccepted := by assumption) :
    Within g s (State.acceptCredit u w r) := by
  unfold State.acceptCredit
  extract_lets +onlyGivenNames -underBinder -merge s1
  have h2 : Within g s s1 := (State.count_within (State.updWin_within p_cmd h _ _ (fun _ h => h)))
  extract_lets +onlyGivenNames -underBinder -merge n3
  exact Within.ite h2 (State.haltWin_within p_cmd (State.formReserved_within p_cmd h2))

theorem State.wrongSeq_within {w : Nat} {r : Rec} (h : Within g s u) (k_seqAhead : g.keys Obj.seqAhead := by assumption) (k_staleWrites : g.keys Obj.staleWrites := by assumption) :
    Within g s (State.wrongSeq u w r) := by
  unfold State.wrongSeq
  exact Within.ite (State.count_within h) (State.countSat_within (State.raise_within h))

theorem State.badCrc_within {w : Nat} (p_cmd : Part.cmd ∈ g.parts) (h : Within g s u) (k_crcErrors : g.keys Obj.crcErrors := by assumption) :
    Within g s (State.badCrc u w) := by
  unfold State.badCrc
  extract_lets +onlyGivenNames -underBinder -merge n1
  extract_lets +onlyGivenNames -underBinder -merge s2
  have h3 : Within g s s2 := (State.countSat_within h)
  exact Within.ite h3 (State.updWin_within p_cmd (State.raise_within h3) _ _ (fun _ h => h))

theorem State.firstEvaluation_within {w : Nat} {k : Nat} {r : Rec} (p_cmd : Part.cmd ∈ g.parts) (h : Within g s u) (k_creditRange : g.keys Obj.creditRange := by assumption) :
    Within g s (State.firstEvaluation u w k r) := by
  unfold State.firstEvaluation
  exact Within.ite (by
    extract_lets +onlyGivenNames -underBinder -merge s1
    have h2 : Within g s s1 := (State.renewLease_within p_cmd (State.applyCredit_within p_cmd h))
    exact State.updWin_within p_cmd h2 _ _ (fun _ h => h)) h

theorem State.evaluate_within {w : Nat} (p_cmd : Part.cmd ∈ g.parts) (h : Within g s u) (k_cmdAccepted : g.keys Obj.cmdAccepted := by assumption) (k_crcErrors : g.keys Obj.crcErrors := by assumption) (k_creditRange : g.keys Obj.creditRange := by assumption) (k_seqAhead : g.keys Obj.seqAhead := by assumption) (k_staleWrites : g.keys Obj.staleWrites := by assumption) :
    Within g s (State.evaluate u w) := by
  unfold State.evaluate
  extract_lets x k s1 r s2
  have h1 : Within g s s1 := State.updWin_within p_cmd h _ _ (fun _ h => h)
  have h2 : Within g s s2 := State.firstEvaluation_within p_cmd h1
  refine Within.ite h1 (Within.ite (State.updWin_within p_cmd h1 _ _ (fun _ h => h)) (Within.ite (State.wrongSeq_within h1)
    (Within.ite (State.badCrc_within p_cmd h1) (Within.ite (State.raise_within h1) (Within.ite (State.acceptCredit_within p_cmd h2) ?_)))))
  split
  · exact h2
  · next room => exact State.accept_within p_cmd (Nat.lt_of_not_le room) h2

theorem State.slotWrite_within {p1 : HostPort} {w : Nat} {k : Nat} {off : Nat} {data : Bytes} (p_bar0 : Part.bar0 ∈ g.parts) (p_cmd : Part.cmd ∈ g.parts) (h : Within g s u) (k_cmdAccepted : g.keys Obj.cmdAccepted := by assumption) (k_crcErrors : g.keys Obj.crcErrors := by assumption) (k_creditRange : g.keys Obj.creditRange := by assumption) (k_foreignWrites : g.keys Obj.foreignWrites := by assumption) (k_seqAhead : g.keys Obj.seqAhead := by assumption) (k_staleWrites : g.keys Obj.staleWrites := by assumption) :
    Within g s (State.slotWrite u p1 w k off data) := by
  unfold State.slotWrite
  extract_lets n1 _ s2 s3 s4
  have h2 : Within g s s2 := Within.setBar0 p_bar0 h rfl (memWrite_wf _ _)
  have h3 : Within g s s3 := State.updWin_within p_cmd h2 _ _ (fun _ h => h)
  have h4 : Within g s s4 := State.updWin_within p_cmd h3 _ _ (fun _ h => h)
  exact Within.ite h (Within.ite (State.count_within h) (Within.ite (Within.ite h (State.count_within h))
    (Within.ite h2 (Within.ite h3 (Within.ite (State.evaluate_within p_cmd h4) h4)))))

theorem execCmdTrailerWrite_within {p0 : HostPort} {w : Fin 8} {k : Fin 1024} {off : Nat} {data : Bytes} (p_bar0 : Part.bar0 ∈ g.parts) (p_cmd : Part.cmd ∈ g.parts) (h : Within g s u) (k_cmdAccepted : g.keys Obj.cmdAccepted := by assumption) (k_crcErrors : g.keys Obj.crcErrors := by assumption) (k_creditRange : g.keys Obj.creditRange := by assumption) (k_foreignWrites : g.keys Obj.foreignWrites := by assumption) (k_seqAhead : g.keys Obj.seqAhead := by assumption) (k_staleWrites : g.keys Obj.staleWrites := by assumption) :
    Leads g s (execCmdTrailerWrite p0 w k off data u) := by
  unfold execCmdTrailerWrite
  exact Leads.next (State.slotWrite_within p_bar0 p_cmd h)

theorem execCredit_within {w : Fin 8} (p_cmd : Part.cmd ∈ g.parts) (h : Within g s u) (k_cmdAccepted : g.keys Obj.cmdAccepted := by assumption) (k_crcErrors : g.keys Obj.crcErrors := by assumption) (k_creditRange : g.keys Obj.creditRange := by assumption) (k_seqAhead : g.keys Obj.seqAhead := by assumption) (k_staleWrites : g.keys Obj.staleWrites := by assumption) :
    Leads g s (execCredit w u) := by
  unfold execCredit
  exact Leads.next (Within.ite (State.evaluate_within p_cmd h) h)

theorem execAcceptOnRoom_within {w : Fin 8} (p_cmd : Part.cmd ∈ g.parts) (h : Within g s u) (k_cmdAccepted : g.keys Obj.cmdAccepted := by assumption) (k_crcErrors : g.keys Obj.crcErrors := by assumption) (k_creditRange : g.keys Obj.creditRange := by assumption) (k_seqAhead : g.keys Obj.seqAhead := by assumption) (k_staleWrites : g.keys Obj.staleWrites := by assumption) :
    Leads g s (execAcceptOnRoom w u) := by
  unfold execAcceptOnRoom
  exact Leads.next (Within.ite (State.evaluate_within p_cmd h) h)

theorem State.writeRing_within {w : Nat} {p2 : HostPort} {r : RingEnt} (p_cmd : Part.cmd ∈ g.parts) (h : Within g s u) (k_ringWritten : g.keys Obj.ringWritten := by assumption) :
    Within g s (State.writeRing u w p2 r) := by
  unfold State.writeRing
  extract_lets +onlyGivenNames -underBinder -merge n1
  extract_lets +onlyGivenNames -underBinder -merge s2
  have h3 : Within g s s2 := (State.emit_within (State.emit_within h))
  extract_lets +onlyGivenNames -underBinder -merge s4
  have h5 : Within g s s4 := (State.count_within h3)
  exact State.updWin_within p_cmd h5 _ _ (fun _ h => h)

theorem execRingRecordWrite_within {w : Fin 8} (p_cmd : Part.cmd ∈ g.parts) (h : Within g s u) (k_ringWritten : g.keys Obj.ringWritten := by assumption) :
    Leads g s (execRingRecordWrite w u) := by
  unfold execRingRecordWrite
  exact Leads.next (by
    split
    · exact State.writeRing_within p_cmd h
    · exact h)

theorem State.resultIrq_within {w : Nat} (p_cmd : Part.cmd ∈ g.parts) (h : Within g s u) :
    Within g s (State.resultIrq u w) := by
  unfold State.resultIrq
  exact Within.ite h (by
    split
    · exact h
    · exact State.updWin_within p_cmd (State.interrupt_within p_cmd h) _ _ (fun _ h => h))

theorem execResultIrq_within {w : Fin 8} (p_cmd : Part.cmd ∈ g.parts) (h : Within g s u) :
    Leads g s (execResultIrq w u) := by
  unfold execResultIrq
  exact Leads.next (State.resultIrq_within p_cmd h)

theorem State.claim_within {w : Nat} {p2 : HostPort} (p_cmd : Part.cmd ∈ g.parts) (h : Within g s u) :
    Within g s (State.claim u w p2) := by
  unfold State.claim
  exact State.windowNotice_within p_cmd (State.updWin_within p_cmd h _ _ (fun _ h => h))

theorem State.takeover_within {w : Nat} {p2 : HostPort} (p_bar0 : Part.bar0 ∈ g.parts) (p_cmd : Part.cmd ∈ g.parts) (h : Within g s u) :
    Within g s (State.takeover u w p2) := by
  unfold State.takeover
  extract_lets +onlyGivenNames -underBinder -merge s1
  have h2 : Within g s s1 := (State.updWin_within p_cmd h _ _ (fun _ h => h))
  exact State.windowNotice_within p_cmd (State.clearSlots_within p_bar0 p_cmd h2)

theorem State.claimApply_within {src : Src} {w : Nat} {v : Nat} (p_bar0 : Part.bar0 ∈ g.parts) (p_cmd : Part.cmd ∈ g.parts) (h : Within g s u) :
    Within g s (State.claimApply u src w v) := by
  unfold State.claimApply
  split
  · exact h
  · split
    · exact State.claim_within p_cmd h
    · exact State.takeover_within p_bar0 p_cmd h
    · exact State.takeover_within p_bar0 p_cmd (State.raise_within h)
    · exact State.updWin_within p_cmd h _ _ (fun _ h => h)

theorem State.writeClaim_within {src : Src} {w : Nat} {v : Nat} (p_bar0 : Part.bar0 ∈ g.parts) (p_cmd : Part.cmd ∈ g.parts) (h : Within g s u) (k_dictRejected : g.keys Obj.dictRejected := by assumption) :
    Within g s (State.writeClaim u src w v) := by
  unfold State.writeClaim
  exact State.act_within (fun x1 h2 => (State.claimApply_within p_bar0 p_cmd h2)) h

theorem execCwClaim_within {src : Src} {w : Fin 8} {port : Nat} (p_bar0 : Part.bar0 ∈ g.parts) (p_cmd : Part.cmd ∈ g.parts) (h : Within g s u) (k_dictRejected : g.keys Obj.dictRejected := by assumption) :
    Leads g s (execCwClaim src w port u) := by
  unfold execCwClaim
  exact Leads.next (State.writeClaim_within p_bar0 p_cmd h)

theorem execCwTakeover_within {src : Src} {w : Fin 8} {port : Nat} (p_bar0 : Part.bar0 ∈ g.parts) (p_cmd : Part.cmd ∈ g.parts) (h : Within g s u) (k_dictRejected : g.keys Obj.dictRejected := by assumption) :
    Leads g s (execCwTakeover src w port u) := by
  unfold execCwTakeover
  exact Leads.next (State.writeClaim_within p_bar0 p_cmd h)

theorem execCwForcedTakeover_within {src : Src} {w : Fin 8} {port : Nat} (p_bar0 : Part.bar0 ∈ g.parts) (p_cmd : Part.cmd ∈ g.parts) (h : Within g s u) (k_dictRejected : g.keys Obj.dictRejected := by assumption) :
    Leads g s (execCwForcedTakeover src w port u) := by
  unfold execCwForcedTakeover
  exact Leads.next (State.writeClaim_within p_bar0 p_cmd h)

theorem execCwRelease_within {src : Src} {w : Fin 8} {port : Nat} (p_bar0 : Part.bar0 ∈ g.parts) (p_cmd : Part.cmd ∈ g.parts) (h : Within g s u) (k_dictRejected : g.keys Obj.dictRejected := by assumption) :
    Leads g s (execCwRelease src w port u) := by
  unfold execCwRelease
  exact Leads.next (State.writeClaim_within p_bar0 p_cmd h)

theorem State.releaseDone_within {w : Nat} (p_cmd : Part.cmd ∈ g.parts) (h : Within g s u) :
    Within g s (State.releaseDone u w) := by
  unfold State.releaseDone
  extract_lets +onlyGivenNames -underBinder -merge n1
  exact Within.ite (State.windowNotice_within p_cmd (State.updWin_within p_cmd h _ _ (fun _ h => h))) h

theorem execCwReleaseDone_within {w : Fin 8} (p_cmd : Part.cmd ∈ g.parts) (h : Within g s u) :
    Leads g s (execCwReleaseDone w u) := by
  unfold execCwReleaseDone
  exact Leads.next (State.releaseDone_within p_cmd h)

theorem State.leaseLapse_within {w : Nat} (p_cmd : Part.cmd ∈ g.parts) (h : Within g s u) :
    Within g s (State.leaseLapse u w) := by
  unfold State.leaseLapse
  extract_lets +onlyGivenNames -underBinder -merge n1
  exact Within.ite h (State.updWin_within p_cmd (State.raise_within h) _ _ (fun _ h => h))

theorem execOwnerLeaseExpired_within {w : Fin 8} (p_cmd : Part.cmd ∈ g.parts) (h : Within g s u) :
    Leads g s (execOwnerLeaseExpired w u) := by
  unfold execOwnerLeaseExpired
  exact Leads.next (State.leaseLapse_within p_cmd h)

theorem State.resume_within {w : Nat} (p_cmd : Part.cmd ∈ g.parts) (h : Within g s u) :
    Within g s (State.resume u w) := by
  unfold State.resume
  exact State.windowNotice_within p_cmd (State.updWin_within p_cmd h _ _ (fun _ h => h))

theorem State.writeControl_within {src : Src} {w : Nat} {v : Nat} {f : State → State} (hf4 : ∀ v0, Within g s v0 → Within g s (f v0)) (h : Within g s u) (k_dictRejected : g.keys Obj.dictRejected := by assumption) :
    Within g s (State.writeControl u src w v f) := by
  unfold State.writeControl
  exact State.act_within hf4 h

theorem execCwResume_within {src : Src} {w : Fin 8} (p_cmd : Part.cmd ∈ g.parts) (h : Within g s u) (k_dictRejected : g.keys Obj.dictRejected := by assumption) :
    Leads g s (execCwResume src w u) := by
  unfold execCwResume
  exact Leads.next (State.writeControl_within (fun x1 h2 => (State.resume_within p_cmd h2)) h)

theorem execCwHalt_within {src : Src} {w : Fin 8} (p_cmd : Part.cmd ∈ g.parts) (h : Within g s u) (k_dictRejected : g.keys Obj.dictRejected := by assumption) :
    Leads g s (execCwHalt src w u) := by
  unfold execCwHalt
  exact Leads.next (State.writeControl_within (fun x1 h2 => (State.haltWin_within p_cmd h2)) h)

theorem execLeaseRenew_within {src : Src} {w : Fin 8} (p_cmd : Part.cmd ∈ g.parts) (h : Within g s u) (k_dictRejected : g.keys Obj.dictRejected := by assumption) :
    Leads g s (execLeaseRenew src w u) := by
  unfold execLeaseRenew
  exact Leads.next (State.writeControl_within (fun x1 h2 => (State.renewLease_within p_cmd h2)) h)

theorem State.ringCommit_within {w : Nat} (p_cmd : Part.cmd ∈ g.parts) (h : Within g s u) :
    Within g s (State.ringCommit u w) := by
  unfold State.ringCommit
  extract_lets +onlyGivenNames -underBinder -merge s1
  have h2 : Within g s s1 := (State.updWin_within p_cmd h _ _ (fun _ h => h))
  exact Within.ite (State.updWin_within p_cmd (State.windowNotice_within p_cmd h2) _ _ (fun _ h => h)) h2

theorem execRingCommit_within {src : Src} {w : Fin 8} {arg : Nat} (p_cmd : Part.cmd ∈ g.parts) (h : Within g s u) (k_dictRejected : g.keys Obj.dictRejected := by assumption) :
    Leads g s (execRingCommit src w arg u) := by
  unfold execRingCommit
  exact Leads.next (State.act_within (fun x1 h2 => (State.ringCommit_within p_cmd h2)) h)

end Sys2Proof.Machine
end

