-- ==== Sys2Proof/Laws/WithinLinks.lean ====
section
/-! SUPPORT. What each operation of Machine/Links.lean may change, and that it keeps the form of the state. -/
namespace Sys2Proof.Machine
set_option Elab.async false

variable {g : Scope} {s u : State}

theorem State.setPort_within {p1 : Nat} {x : Port} (p_link : Part.link ∈ g.parts) (h : Within g s u) :
    Within g s (State.setPort u p1 x) := by
  unfold State.setPort
  exact Within.setLink p_link h

theorem State.updPort_within {p1 : Nat} {f : Port → Port} (p_link : Part.link ∈ g.parts) (h : Within g s u) :
    Within g s (State.updPort u p1 f) := by
  unfold State.updPort
  exact State.setPort_within p_link h

theorem State.sendFlit_within {p1 : Nat} {ftype : Nat} {fseq : Nat} {vc : Nat} {content : Bytes} {nak : Bool} (p_link : Part.link ∈ g.parts) (p_cross : Part.cross ∈ g.parts) (h : Within g s u) :
    Within g s (State.sendFlit u p1 ftype fseq vc content nak) := by
  unfold State.sendFlit
  extract_lets +onlyGivenNames -underBinder -merge n1
  extract_lets +onlyGivenNames -underBinder -merge n2
  exact State.updPort_within p_link (State.emit_within (State.pass_within p_cross h))

theorem State.sendNak_within {p1 : Nat} (p_link : Part.link ∈ g.parts) (p_cross : Part.cross ∈ g.parts) (h : Within g s u) (k_naksSent : ∀ n, g.keys (Obj.naksSent n) := by assumption) :
    Within g s (State.sendNak u p1) := by
  unfold State.sendNak
  exact Within.ite h (State.sendFlit_within p_link p_cross (State.count_within (State.updPort_within p_link h)))

theorem State.pumpOne_within {p1 : Nat} (p_link : Part.link ∈ g.parts) (p_cross : Part.cross ∈ g.parts) (h : Within g s u) (k_flitsTx : ∀ n, g.keys (Obj.flitsTx n) := by assumption) :
    Within g s (State.pumpOne u p1) := by
  unfold State.pumpOne
  extract_lets +onlyGivenNames -underBinder -merge n1
  exact Within.ite h (by
    split
    · exact h
    · extract_lets +onlyGivenNames -underBinder -merge n7
      extract_lets +onlyGivenNames -underBinder -merge s8
      have h9 : Within g s s8 := (State.setPort_within p_link h)
      exact State.sendFlit_within p_link p_cross (State.count_within h9))

theorem State.pump_within {p1 : Nat} (p_link : Part.link ∈ g.parts) (p_cross : Part.cross ∈ g.parts) (h : Within g s u) (k_flitsTx : ∀ n, g.keys (Obj.flitsTx n) := by assumption) :
    Within g s (State.pump u p1) := by
  unfold State.pump
  exact Within.foldl (fun x1 x2 h3 => (State.pumpOne_within p_link p_cross h3)) h

theorem State.sentOn_within {m : Mail} {p2 : Nat} (p_coll : Part.coll ∈ g.parts) (h : Within g s u) :
    Within g s (State.sentOn u m p2) := by
  unfold State.sentOn
  extract_lets +onlyGivenNames -underBinder -merge n1
  exact Within.setColl p_coll h

theorem State.mailFrom_within {m : Mail} {b : Nat} (p_link : Part.link ∈ g.parts) (p_coll : Part.coll ∈ g.parts) (p_cross : Part.cross ∈ g.parts) (h : Within g s u) (k_flitsTx : ∀ n, g.keys (Obj.flitsTx n) := by assumption) :
    Within g s (State.mailFrom u m b) := by
  unfold State.mailFrom
  split
  · exact Within.setLink p_link h
  · exact State.pump_within p_link p_cross (State.sentOn_within p_coll (State.updPort_within p_link h))

theorem State.mail_within {m : Mail} (p_link : Part.link ∈ g.parts) (p_coll : Part.coll ∈ g.parts) (p_cross : Part.cross ∈ g.parts) (h : Within g s u) (k_flitsTx : ∀ n, g.keys (Obj.flitsTx n) := by assumption) :
    Within g s (State.mail u m) := by
  unfold State.mail
  exact State.mailFrom_within p_link p_coll p_cross h

theorem State.mailAgain_within {m : Mail} {b : Nat} (p_link : Part.link ∈ g.parts) (p_coll : Part.coll ∈ g.parts) (p_cross : Part.cross ∈ g.parts) (h : Within g s u) (k_collBytesTx : g.keys Obj.collBytesTx := by assumption) (k_collResends : g.keys Obj.collResends := by assumption) (k_flitsTx : ∀ n, g.keys (Obj.flitsTx n) := by assumption) :
    Within g s (State.mailAgain u m b) := by
  unfold State.mailAgain
  exact State.mailFrom_within p_link p_coll p_cross (Within.ite h (State.count_within (State.count_within h)))

theorem State.mailWaiting_within (p_link : Part.link ∈ g.parts) (p_coll : Part.coll ∈ g.parts) (p_cross : Part.cross ∈ g.parts) (h : Within g s u) (k_flitsTx : ∀ n, g.keys (Obj.flitsTx n) := by assumption) :
    Within g s (State.mailWaiting u) := by
  unfold State.mailWaiting
  extract_lets +onlyGivenNames -underBinder -merge n1
  exact Within.foldl (fun x2 x3 h4 => (State.mail_within p_link p_coll p_cross h4)) (Within.setLink p_link h)

theorem State.portTo_within {p1 : Nat} {st : Nat} (p_link : Part.link ∈ g.parts) (h : Within g s u) (k_portState : ∀ n, g.keys (Obj.portState n) := by assumption) :
    Within g s (State.portTo u p1 st) := by
  unfold State.portTo
  extract_lets +onlyGivenNames -underBinder -merge n1
  extract_lets +onlyGivenNames -underBinder -merge s2
  have h3 : Within g s s2 := (State.updPort_within p_link (State.wr_within h _ _))
  extract_lets +onlyGivenNames -underBinder -merge n4
  exact Within.ite h3 (Within.ite (State.raise_within h3) (Within.ite (State.raise_within h3) (Within.ite (State.raise_within h3) (Within.ite (State.raise_within h3) h3))))

theorem State.handBack_within {p1 : Nat} (p_link : Part.link ∈ g.parts) (p_coll : Part.coll ∈ g.parts) (p_cross : Part.cross ∈ g.parts) (h : Within g s u) (k_collBytesTx : g.keys Obj.collBytesTx := by assumption) (k_collResends : g.keys Obj.collResends := by assumption) (k_flitsTx : ∀ n, g.keys (Obj.flitsTx n) := by assumption) :
    Within g s (State.handBack u p1) := by
  unfold State.handBack
  extract_lets +onlyGivenNames -underBinder -merge n1
  extract_lets +onlyGivenNames -underBinder -merge n2
  extract_lets +onlyGivenNames -underBinder -merge n3
  extract_lets +onlyGivenNames -underBinder -merge n4
  extract_lets +onlyGivenNames -underBinder -merge s5
  have h6 : Within g s s5 := (State.setPort_within p_link h)
  extract_lets +onlyGivenNames -underBinder -merge s7
  have h8 : Within g s s7 := (Within.foldl (fun x9 x10 h11 => (State.mailAgain_within p_link p_coll p_cross h11)) h6)
  exact Within.foldl (fun x12 x13 h14 => (State.mail_within p_link p_coll p_cross h14)) h8

theorem State.setAside_within {p1 : Nat} (p_link : Part.link ∈ g.parts) (p_coll : Part.coll ∈ g.parts) (p_cross : Part.cross ∈ g.parts) (h : Within g s u) (k_flitsTx : ∀ n, g.keys (Obj.flitsTx n) := by assumption) :
    Within g s (State.setAside u p1) := by
  unfold State.setAside
  extract_lets +onlyGivenNames -underBinder -merge n1
  exact Within.foldl (fun x2 x3 h4 => (State.mail_within p_link p_coll p_cross h4)) (State.setPort_within p_link h)

theorem State.fieldEntry_within {cause : Nat} {what : List Nat} (p_start : Part.start ∈ g.parts) (h : Within g s u) :
    Within g s (State.fieldEntry u cause what) := by
  unfold State.fieldEntry
  extract_lets +onlyGivenNames -underBinder -merge n1
  exact Within.setStart p_start h

theorem State.remapped_within {old : List Nat} (p_start : Part.start ∈ g.parts) (h : Within g s u) (k_remapCount : g.keys Obj.remapCount := by assumption) :
    Within g s (State.remapped u old) := by
  unfold State.remapped
  exact Within.ite h (State.raise_within (State.fieldEntry_within p_start (State.count_within h)))

theorem State.unmap_within {p1 : Nat} (p_start : Part.start ∈ g.parts) (h : Within g s u) (k_logicalPlane : ∀ n, g.keys (Obj.logicalPlane n) := by assumption) (k_planePort : ∀ n, g.keys (Obj.planePort n) := by assumption) (k_remapCount : g.keys Obj.remapCount := by assumption) :
    Within g s (State.unmap u p1) := by
  unfold State.unmap
  extract_lets +onlyGivenNames -underBinder -merge n1
  extract_lets +onlyGivenNames -underBinder -merge n2
  extract_lets +onlyGivenNames -underBinder -merge s3
  have h4 : Within g s s3 := (Within.ite (State.wr_within h _ _) h)
  extract_lets +onlyGivenNames -underBinder -merge s5
  have h6 : Within g s s5 := (State.wr_within h4 _ _)
  exact State.remapped_within p_start (Within.ite (State.wr_within h6 _ _) h6)

theorem State.goDown_within {p1 : Nat} (p_link : Part.link ∈ g.parts) (p_coll : Part.coll ∈ g.parts) (p_cross : Part.cross ∈ g.parts) (p_start : Part.start ∈ g.parts) (h : Within g s u) (k_collBytesTx : g.keys Obj.collBytesTx := by assumption) (k_collResends : g.keys Obj.collResends := by assumption) (k_flitsTx : ∀ n, g.keys (Obj.flitsTx n) := by assumption) (k_idResult : ∀ n, g.keys (Obj.idResult n) := by assumption) (k_logicalPlane : ∀ n, g.keys (Obj.logicalPlane n) := by assumption) (k_planePort : ∀ n, g.keys (Obj.planePort n) := by assumption) (k_portState : ∀ n, g.keys (Obj.portState n) := by assumption) (k_remapCount : g.keys Obj.remapCount := by assumption) :
    Within g s (State.goDown u p1) := by
  unfold State.goDown
  extract_lets +onlyGivenNames -underBinder -merge s1
  have h2 : Within g s s1 := (State.updPort_within p_link (State.wr_within (State.portTo_within p_link h) _ _))
  exact State.unmap_within p_start (State.handBack_within p_link p_coll p_cross h2)

theorem State.portFail_within {p1 : Nat} (p_link : Part.link ∈ g.parts) (p_coll : Part.coll ∈ g.parts) (p_cross : Part.cross ∈ g.parts) (p_start : Part.start ∈ g.parts) (h : Within g s u) (k_collBytesTx : g.keys Obj.collBytesTx := by assumption) (k_collResends : g.keys Obj.collResends := by assumption) (k_flitsTx : ∀ n, g.keys (Obj.flitsTx n) := by assumption) (k_idResult : ∀ n, g.keys (Obj.idResult n) := by assumption) (k_logicalPlane : ∀ n, g.keys (Obj.logicalPlane n) := by assumption) (k_planePort : ∀ n, g.keys (Obj.planePort n) := by assumption) (k_portState : ∀ n, g.keys (Obj.portState n) := by assumption) (k_remapCount : g.keys Obj.remapCount := by assumption) :
    Within g s (State.portFail u p1) := by
  unfold State.portFail
  exact State.unmap_within p_start (State.handBack_within p_link p_coll p_cross (State.wr_within (State.portTo_within p_link h) _ _))

theorem State.sendHello_within {p1 : Nat} {echo : Nat} (p_link : Part.link ∈ g.parts) (p_cross : Part.cross ∈ g.parts) (h : Within g s u) :
    Within g s (State.sendHello u p1 echo) := by
  unfold State.sendHello
  exact State.sendFlit_within p_link p_cross h

theorem State.enterRetrain_within {p1 : Nat} (p_link : Part.link ∈ g.parts) (p_cross : Part.cross ∈ g.parts) (h : Within g s u) (k_portState : ∀ n, g.keys (Obj.portState n) := by assumption) (k_retrains : ∀ n, g.keys (Obj.retrains n) := by assumption) :
    Within g s (State.enterRetrain u p1) := by
  unfold State.enterRetrain
  exact Within.ite (State.sendHello_within p_link p_cross (State.updPort_within p_link (State.countSat_within (State.portTo_within p_link h)))) h

theorem State.replay_within {p1 : Nat} (p_link : Part.link ∈ g.parts) (p_cross : Part.cross ∈ g.parts) (h : Within g s u) (k_flitsReplays : ∀ n, g.keys (Obj.flitsReplays n) := by assumption) (k_flitsTx : ∀ n, g.keys (Obj.flitsTx n) := by assumption) (k_portPowerState : ∀ n, g.keys (Obj.portPowerState n) := by assumption) :
    Within g s (State.replay u p1) := by
  unfold State.replay
  extract_lets +onlyGivenNames -underBinder -merge n1
  exact Within.ite h (by
    extract_lets +onlyGivenNames -underBinder -merge s2
    have h3 : Within g s s2 := (State.count_within (State.wr_within h _ _))
    extract_lets +onlyGivenNames -underBinder -merge s4
    have h5 : Within g s s4 := (State.setPort_within p_link h3)
    exact Within.foldl (fun x6 x7 h8 => (State.sendFlit_within p_link p_cross (State.count_within h8))) h5)

theorem State.takeAck_within {p1 : Nat} {l : LinkWord} (p_link : Part.link ∈ g.parts) (p_cross : Part.cross ∈ g.parts) (h : Within g s u) (k_flitsReplays : ∀ n, g.keys (Obj.flitsReplays n) := by assumption) (k_flitsTx : ∀ n, g.keys (Obj.flitsTx n) := by assumption) (k_portPowerState : ∀ n, g.keys (Obj.portPowerState n) := by assumption) :
    Within g s (State.takeAck u p1 l) := by
  unfold State.takeAck
  exact Within.ite h (by
    extract_lets +onlyGivenNames -underBinder -merge n1
    extract_lets +onlyGivenNames -underBinder -merge n2
    extract_lets +onlyGivenNames -underBinder -merge n3
    exact Within.ite (State.updPort_within p_link h) (by
      extract_lets +onlyGivenNames -underBinder -merge s4
      have h5 : Within g s s4 := (Within.ite (State.setPort_within p_link h) h)
      extract_lets +onlyGivenNames -underBinder -merge s6
      have h7 : Within g s s6 := (Within.ite (State.replay_within p_link p_cross h5) h5)
      exact State.pump_within p_link p_cross h7))

theorem State.takeFlit_within {p1 : Nat} {f : Bytes} {cor : Nat} {unc : Nat} {g5 : LinkWord → State → State} (p_link : Part.link ∈ g.parts) (p_cross : Part.cross ∈ g.parts) (hf5 : ∀ v0 v1, Within g s v1 → Within g s (g5 v0 v1)) (h : Within g s u) (k_fecCorrected : ∀ n, g.keys (Obj.fecCorrected n) := by assumption) (k_fecUncorrectable : ∀ n, g.keys (Obj.fecUncorrectable n) := by assumption) (k_flitsReplays : ∀ n, g.keys (Obj.flitsReplays n) := by assumption) (k_flitsTx : ∀ n, g.keys (Obj.flitsTx n) := by assumption) (k_naksSent : ∀ n, g.keys (Obj.naksSent n) := by assumption) (k_parityErrors : ∀ n, g.keys (Obj.parityErrors n) := by assumption) (k_portPowerState : ∀ n, g.keys (Obj.portPowerState n) := by assumption) :
    Within g s (State.takeFlit u p1 f cor unc g5) := by
  unfold State.takeFlit
  exact Within.ite h (by
    extract_lets +onlyGivenNames -underBinder -merge s1
    have h2 : Within g s s1 := (State.pass_within p_cross h)
    extract_lets +onlyGivenNames -underBinder -merge s3
    have h4 : Within g s s3 := (State.count_within (State.count_within h2))
    extract_lets +onlyGivenNames -underBinder -merge s5
    have h6 : Within g s s5 := (State.updPort_within p_link h4)
    exact Within.ite (State.sendNak_within p_link p_cross (State.count_within h6)) (by
      extract_lets +onlyGivenNames -underBinder -merge n7
      exact hf5 _ _ (State.takeAck_within p_link p_cross h6)))

theorem State.ctrlDiscard_within {p1 : Nat} (h : Within g s u) (k_ctrlDiscards : ∀ n, g.keys (Obj.ctrlDiscards n) := by assumption) :
    Within g s (State.ctrlDiscard u p1) := by
  unfold State.ctrlDiscard
  exact State.count_within h

theorem State.acceptFlit_within {p1 : Nat} {l : LinkWord} {f : Bytes} (p_link : Part.link ∈ g.parts) (p_cross : Part.cross ∈ g.parts) (h : Within g s u) (k_ctrlDiscards : ∀ n, g.keys (Obj.ctrlDiscards n) := by assumption) (k_flitsRx : ∀ n, g.keys (Obj.flitsRx n) := by assumption) :
    Within g s (State.acceptFlit u p1 l f) := by
  unfold State.acceptFlit
  extract_lets +onlyGivenNames -underBinder -merge n1
  extract_lets +onlyGivenNames -underBinder -merge n2
  extract_lets +onlyGivenNames -underBinder -merge n3
  extract_lets +onlyGivenNames -underBinder -merge s4
  have h5 : Within g s s4 := (State.updPort_within p_link (State.count_within h))
  extract_lets +onlyGivenNames -underBinder -merge s6
  have h7 : Within g s s6 := (Within.ite (State.ctrlDiscard_within h5) h5)
  exact Within.ite (State.sendFlit_within p_link p_cross h7) h7

theorem State.dataFlit_within {p1 : Nat} {f : Bytes} {l : LinkWord} (p_link : Part.link ∈ g.parts) (p_cross : Part.cross ∈ g.parts) (h : Within g s u) (k_ctrlDiscards : ∀ n, g.keys (Obj.ctrlDiscards n) := by assumption) (k_flitsRx : ∀ n, g.keys (Obj.flitsRx n) := by assumption) (k_naksSent : ∀ n, g.keys (Obj.naksSent n) := by assumption) :
    Within g s (State.dataFlit u p1 f l) := by
  unfold State.dataFlit
  exact Within.ite h (by
    extract_lets +onlyGivenNames -underBinder -merge n1
    exact Within.ite (State.acceptFlit_within p_link p_cross h) (Within.ite (State.updPort_within p_link h) (State.sendNak_within p_link p_cross h)))

theorem execDataFlitRx_within {p0 : Fin 16} {f : Bytes} {cor : Nat} {unc : Nat} (p_link : Part.link ∈ g.parts) (p_cross : Part.cross ∈ g.parts) (h : Within g s u) (k_ctrlDiscards : ∀ n, g.keys (Obj.ctrlDiscards n) := by assumption) (k_fecCorrected : ∀ n, g.keys (Obj.fecCorrected n) := by assumption) (k_fecUncorrectable : ∀ n, g.keys (Obj.fecUncorrectable n) := by assumption) (k_flitsReplays : ∀ n, g.keys (Obj.flitsReplays n) := by assumption) (k_flitsRx : ∀ n, g.keys (Obj.flitsRx n) := by assumption) (k_flitsTx : ∀ n, g.keys (Obj.flitsTx n) := by assumption) (k_naksSent : ∀ n, g.keys (Obj.naksSent n) := by assumption) (k_parityErrors : ∀ n, g.keys (Obj.parityErrors n) := by assumption) (k_portPowerState : ∀ n, g.keys (Obj.portPowerState n) := by assumption) :
    Leads g s (execDataFlitRx p0 f cor unc u) := by
  unfold execDataFlitRx
  exact Leads.next (State.takeFlit_within p_link p_cross (fun x1 x2 h3 => (State.dataFlit_within p_link p_cross h3)) h)

theorem execLinkWordAck_within {p0 : Fin 16} {f : Bytes} {cor : Nat} {unc : Nat} (p_link : Part.link ∈ g.parts) (p_cross : Part.cross ∈ g.parts) (h : Within g s u) (k_fecCorrected : ∀ n, g.keys (Obj.fecCorrected n) := by assumption) (k_fecUncorrectable : ∀ n, g.keys (Obj.fecUncorrectable n) := by assumption) (k_flitsReplays : ∀ n, g.keys (Obj.flitsReplays n) := by assumption) (k_flitsTx : ∀ n, g.keys (Obj.flitsTx n) := by assumption) (k_naksSent : ∀ n, g.keys (Obj.naksSent n) := by assumption) (k_parityErrors : ∀ n, g.keys (Obj.parityErrors n) := by assumption) (k_portPowerState : ∀ n, g.keys (Obj.portPowerState n) := by assumption) :
    Leads g s (execLinkWordAck p0 f cor unc u) := by
  unfold execLinkWordAck
  exact Leads.next (State.takeFlit_within p_link p_cross (fun x1 x2 h3 => h3) h)

theorem State.replayTimer_within {p1 : Nat} (p_link : Part.link ∈ g.parts) (p_cross : Part.cross ∈ g.parts) (h : Within g s u) (k_flitsReplays : ∀ n, g.keys (Obj.flitsReplays n) := by assumption) (k_flitsTx : ∀ n, g.keys (Obj.flitsTx n) := by assumption) (k_portPowerState : ∀ n, g.keys (Obj.portPowerState n) := by assumption) :
    Within g s (State.replayTimer u p1) := by
  unfold State.replayTimer
  split
  · exact h
  · exact Within.ite (State.replay_within p_link p_cross h) h

theorem execReplayTimer_within {p0 : Fin 16} (p_link : Part.link ∈ g.parts) (p_cross : Part.cross ∈ g.parts) (h : Within g s u) (k_flitsReplays : ∀ n, g.keys (Obj.flitsReplays n) := by assumption) (k_flitsTx : ∀ n, g.keys (Obj.flitsTx n) := by assumption) (k_portPowerState : ∀ n, g.keys (Obj.portPowerState n) := by assumption) :
    Leads g s (execReplayTimer p0 u) := by
  unfold execReplayTimer
  exact Leads.next (State.replayTimer_within p_link p_cross h)

theorem State.ackTimer_within {p1 : Nat} (p_link : Part.link ∈ g.parts) (p_cross : Part.cross ∈ g.parts) (h : Within g s u) :
    Within g s (State.ackTimer u p1) := by
  unfold State.ackTimer
  split
  · exact h
  · exact Within.ite (State.sendFlit_within p_link p_cross h) h

theorem execAckTimer_within {p0 : Fin 16} (p_link : Part.link ∈ g.parts) (p_cross : Part.cross ∈ g.parts) (h : Within g s u) :
    Leads g s (execAckTimer p0 u) := by
  unfold execAckTimer
  exact Leads.next (State.ackTimer_within p_link p_cross h)

theorem State.creditFlit_within {p1 : Nat} {f : Bytes} {l : LinkWord} (p_link : Part.link ∈ g.parts) (p_cross : Part.cross ∈ g.parts) (h : Within g s u) (k_ctrlDiscards : ∀ n, g.keys (Obj.ctrlDiscards n) := by assumption) (k_flitsTx : ∀ n, g.keys (Obj.flitsTx n) := by assumption) :
    Within g s (State.creditFlit u p1 f l) := by
  unfold State.creditFlit
  exact Within.ite h (by
    extract_lets +onlyGivenNames -underBinder -merge n1
    extract_lets +onlyGivenNames -underBinder -merge n2
    extract_lets +onlyGivenNames -underBinder -merge n3
    extract_lets +onlyGivenNames -underBinder -merge n4
    extract_lets +onlyGivenNames -underBinder -merge n5
    extract_lets +onlyGivenNames -underBinder -merge s6
    have h7 : Within g s s6 := (State.setPort_within p_link h)
    exact State.pump_within p_link p_cross (State.count_within h7))

theorem execCreditFlitRx_within {p0 : Fin 16} {f : Bytes} {cor : Nat} {unc : Nat} (p_link : Part.link ∈ g.parts) (p_cross : Part.cross ∈ g.parts) (h : Within g s u) (k_ctrlDiscards : ∀ n, g.keys (Obj.ctrlDiscards n) := by assumption) (k_fecCorrected : ∀ n, g.keys (Obj.fecCorrected n) := by assumption) (k_fecUncorrectable : ∀ n, g.keys (Obj.fecUncorrectable n) := by assumption) (k_flitsReplays : ∀ n, g.keys (Obj.flitsReplays n) := by assumption) (k_flitsTx : ∀ n, g.keys (Obj.flitsTx n) := by assumption) (k_naksSent : ∀ n, g.keys (Obj.naksSent n) := by assumption) (k_parityErrors : ∀ n, g.keys (Obj.parityErrors n) := by assumption) (k_portPowerState : ∀ n, g.keys (Obj.portPowerState n) := by assumption) :
    Leads g s (execCreditFlitRx p0 f cor unc u) := by
  unfold execCreditFlitRx
  exact Leads.next (State.takeFlit_within p_link p_cross (fun x1 x2 h3 => (State.creditFlit_within p_link p_cross h3)) h)

theorem State.creditSend_within {p1 : Nat} (p_link : Part.link ∈ g.parts) (p_cross : Part.cross ∈ g.parts) (h : Within g s u) :
    Within g s (State.creditSend u p1) := by
  unfold State.creditSend
  extract_lets +onlyGivenNames -underBinder -merge n1
  extract_lets +onlyGivenNames -underBinder -merge n2
  exact Within.ite (State.sendFlit_within p_link p_cross (State.setPort_within p_link h)) h

theorem execCreditSend_within {p0 : Fin 16} (p_link : Part.link ∈ g.parts) (p_cross : Part.cross ∈ g.parts) (h : Within g s u) :
    Leads g s (execCreditSend p0 u) := by
  unfold execCreditSend
  exact Leads.next (State.creditSend_within p_link p_cross h)

theorem State.paceSend_within (p_link : Part.link ∈ g.parts) (p_cross : Part.cross ∈ g.parts) (h : Within g s u) (k_paceSent : g.keys Obj.paceSent := by assumption) :
    Within g s (State.paceSend u) := by
  unfold State.paceSend
  exact Within.ite h (by
    split
    · exact h
    · extract_lets +onlyGivenNames -underBinder -merge s6
      have h7 : Within g s s6 := (State.sendFlit_within p_link p_cross (State.wr_within h _ _))
      exact Within.setLink p_link h7)

theorem execPaceModeSend_within (p_link : Part.link ∈ g.parts) (p_cross : Part.cross ∈ g.parts) (h : Within g s u) (k_paceSent : g.keys Obj.paceSent := by assumption) :
    Leads g s (execPaceModeSend u) := by
  unfold execPaceModeSend
  exact Leads.next (State.paceSend_within p_link p_cross h)

theorem State.paceFlitRx_within {p1 : Nat} {f : Bytes} {l : LinkWord} (p_link : Part.link ∈ g.parts) (h : Within g s u) (k_ctrlDiscards : ∀ n, g.keys (Obj.ctrlDiscards n) := by assumption) :
    Within g s (State.paceFlitRx u p1 f l) := by
  unfold State.paceFlitRx
  exact Within.ite h (by
    extract_lets +onlyGivenNames -underBinder -merge n1
    extract_lets +onlyGivenNames -underBinder -merge n2
    exact Within.ite (Within.setLink p_link h) (State.ctrlDiscard_within h))

theorem State.idEvent_within {p1 : Nat} {r : Nat} (h : Within g s u) :
    Within g s (State.idEvent u p1 r) := by
  unfold State.idEvent
  extract_lets +onlyGivenNames -underBinder -merge n1
  exact Within.ite (Within.ite h (State.raise_within h)) (Within.ite (State.raise_within h) (Within.ite (State.raise_within h) (Within.ite (State.raise_within h) (Within.ite (State.raise_within h) (Within.ite (State.raise_within h) h)))))

theorem State.carry_within {p1 : Nat} {b : Nat} (p_start : Part.start ∈ g.parts) (h : Within g s u) (k_logicalPlane : ∀ n, g.keys (Obj.logicalPlane n) := by assumption) (k_planePort : ∀ n, g.keys (Obj.planePort n) := by assumption) (k_remapCount : g.keys Obj.remapCount := by assumption) :
    Within g s (State.carry u p1 b) := by
  unfold State.carry
  extract_lets +onlyGivenNames -underBinder -merge n1
  extract_lets +onlyGivenNames -underBinder -merge n2
  extract_lets +onlyGivenNames -underBinder -merge s3
  have h4 : Within g s s3 := (Within.ite (State.wr_within h _ _) h)
  extract_lets +onlyGivenNames -underBinder -merge s5
  have h6 : Within g s s5 := (State.wr_within (State.wr_within h4 _ _) _ _)
  exact State.remapped_within p_start h6

theorem State.idSettle_within {p1 : Nat} {r : Nat} (p_link : Part.link ∈ g.parts) (p_coll : Part.coll ∈ g.parts) (p_cross : Part.cross ∈ g.parts) (p_start : Part.start ∈ g.parts) (h : Within g s u) (k_flitsTx : ∀ n, g.keys (Obj.flitsTx n) := by assumption) (k_logicalPlane : ∀ n, g.keys (Obj.logicalPlane n) := by assumption) (k_planePort : ∀ n, g.keys (Obj.planePort n) := by assumption) (k_portState : ∀ n, g.keys (Obj.portState n) := by assumption) (k_remapCount : g.keys Obj.remapCount := by assumption) :
    Within g s (State.idSettle u p1 r) := by
  unfold State.idSettle
  extract_lets +onlyGivenNames -underBinder -merge n1
  extract_lets +onlyGivenNames -underBinder -merge n2
  extract_lets +onlyGivenNames -underBinder -merge n3
  extract_lets +onlyGivenNames -underBinder -merge n4
  exact Within.ite (Within.ite h (State.setAside_within p_link p_coll p_cross (State.portTo_within p_link h))) (Within.ite h (Within.ite (State.mailWaiting_within p_link p_coll p_cross (State.pump_within p_link p_cross (State.updPort_within p_link (State.portTo_within p_link (State.carry_within p_start h))))) (Within.ite (State.mailWaiting_within p_link p_coll p_cross (State.pump_within p_link p_cross (State.updPort_within p_link (State.portTo_within p_link (State.carry_within p_start h))))) (Within.ite h (State.setAside_within p_link p_coll p_cross (State.portTo_within p_link h))))))

theorem State.idOne_within {p1 : Nat} (p_link : Part.link ∈ g.parts) (p_coll : Part.coll ∈ g.parts) (p_cross : Part.cross ∈ g.parts) (p_start : Part.start ∈ g.parts) (h : Within g s u) (k_flitsTx : ∀ n, g.keys (Obj.flitsTx n) := by assumption) (k_idResult : ∀ n, g.keys (Obj.idResult n) := by assumption) (k_logicalPlane : ∀ n, g.keys (Obj.logicalPlane n) := by assumption) (k_planePort : ∀ n, g.keys (Obj.planePort n) := by assumption) (k_portState : ∀ n, g.keys (Obj.portState n) := by assumption) (k_remapCount : g.keys Obj.remapCount := by assumption) :
    Within g s (State.idOne u p1) := by
  unfold State.idOne
  exact Within.ite (by
    extract_lets +onlyGivenNames -underBinder -merge n1
    exact Within.ite h (by
      extract_lets +onlyGivenNames -underBinder -merge n2
      extract_lets +onlyGivenNames -underBinder -merge s3
      have h4 : Within g s s3 := (Within.ite h (State.wr_within (State.idEvent_within h) _ _))
      exact State.idSettle_within p_link p_coll p_cross p_start h4)) h

theorem State.classify_within (p_link : Part.link ∈ g.parts) (p_coll : Part.coll ∈ g.parts) (p_cross : Part.cross ∈ g.parts) (p_start : Part.start ∈ g.parts) (h : Within g s u) (k_flitsTx : ∀ n, g.keys (Obj.flitsTx n) := by assumption) (k_idResult : ∀ n, g.keys (Obj.idResult n) := by assumption) (k_logicalPlane : ∀ n, g.keys (Obj.logicalPlane n) := by assumption) (k_planePort : ∀ n, g.keys (Obj.planePort n) := by assumption) (k_portState : ∀ n, g.keys (Obj.portState n) := by assumption) (k_remapCount : g.keys Obj.remapCount := by assumption) :
    Within g s (State.classify u) := by
  unfold State.classify
  exact Within.foldl (fun x1 x2 h3 => (Within.foldl (fun x4 x5 h6 => (State.idOne_within p_link p_coll p_cross p_start h6)) h3)) h

theorem State.lldpTake_within {p1 : Nat} {c : Nat} {v : Nat} {t4 : Nat} (p_link : Part.link ∈ g.parts) (p_coll : Part.coll ∈ g.parts) (p_cross : Part.cross ∈ g.parts) (p_start : Part.start ∈ g.parts) (h : Within g s u) (k_flitsTx : ∀ n, g.keys (Obj.flitsTx n) := by assumption) (k_idResult : ∀ n, g.keys (Obj.idResult n) := by assumption) (k_logicalPlane : ∀ n, g.keys (Obj.logicalPlane n) := by assumption) (k_peerChassis : ∀ n, g.keys (Obj.peerChassis n) := by assumption) (k_peerSwitchPort : ∀ n, g.keys (Obj.peerSwitchPort n) := by assumption) (k_planePort : ∀ n, g.keys (Obj.planePort n) := by assumption) (k_portState : ∀ n, g.keys (Obj.portState n) := by assumption) (k_remapCount : g.keys Obj.remapCount := by assumption) :
    Within g s (State.lldpTake u p1 c v t4) := by
  unfold State.lldpTake
  extract_lets +onlyGivenNames -underBinder -merge n1
  extract_lets +onlyGivenNames -underBinder -merge s2
  have h3 : Within g s s2 := (State.wr_within (State.wr_within h _ _) _ _)
  extract_lets +onlyGivenNames -underBinder -merge n4
  exact Within.ite (by
    extract_lets +onlyGivenNames -underBinder -merge n5
    extract_lets +onlyGivenNames -underBinder -merge s6
    have h7 : Within g s s6 := (State.setPort_within p_link h3)
    exact State.classify_within p_link p_coll p_cross p_start (Within.setLink p_link h7)) (State.setPort_within p_link h3)

theorem State.lldpFlit_within {p1 : Nat} {f : Bytes} {l : LinkWord} (p_link : Part.link ∈ g.parts) (p_coll : Part.coll ∈ g.parts) (p_cross : Part.cross ∈ g.parts) (p_start : Part.start ∈ g.parts) (h : Within g s u) (k_ctrlDiscards : ∀ n, g.keys (Obj.ctrlDiscards n) := by assumption) (k_flitsTx : ∀ n, g.keys (Obj.flitsTx n) := by assumption) (k_idResult : ∀ n, g.keys (Obj.idResult n) := by assumption) (k_logicalPlane : ∀ n, g.keys (Obj.logicalPlane n) := by assumption) (k_peerChassis : ∀ n, g.keys (Obj.peerChassis n) := by assumption) (k_peerSwitchPort : ∀ n, g.keys (Obj.peerSwitchPort n) := by assumption) (k_planePort : ∀ n, g.keys (Obj.planePort n) := by assumption) (k_portState : ∀ n, g.keys (Obj.portState n) := by assumption) (k_remapCount : g.keys Obj.remapCount := by assumption) :
    Within g s (State.lldpFlit u p1 f l) := by
  unfold State.lldpFlit
  exact Within.ite h (by
    split
    · exact State.ctrlDiscard_within h
    · exact State.lldpTake_within p_link p_coll p_cross p_start h)

theorem execLldpFlitRx_within {p0 : Fin 16} {f : Bytes} {cor : Nat} {unc : Nat} (p_link : Part.link ∈ g.parts) (p_coll : Part.coll ∈ g.parts) (p_cross : Part.cross ∈ g.parts) (p_start : Part.start ∈ g.parts) (h : Within g s u) (k_ctrlDiscards : ∀ n, g.keys (Obj.ctrlDiscards n) := by assumption) (k_fecCorrected : ∀ n, g.keys (Obj.fecCorrected n) := by assumption) (k_fecUncorrectable : ∀ n, g.keys (Obj.fecUncorrectable n) := by assumption) (k_flitsReplays : ∀ n, g.keys (Obj.flitsReplays n) := by assumption) (k_flitsTx : ∀ n, g.keys (Obj.flitsTx n) := by assumption) (k_idResult : ∀ n, g.keys (Obj.idResult n) := by assumption) (k_logicalPlane : ∀ n, g.keys (Obj.logicalPlane n) := by assumption) (k_naksSent : ∀ n, g.keys (Obj.naksSent n) := by assumption) (k_parityErrors : ∀ n, g.keys (Obj.parityErrors n) := by assumption) (k_peerChassis : ∀ n, g.keys (Obj.peerChassis n) := by assumption) (k_peerSwitchPort : ∀ n, g.keys (Obj.peerSwitchPort n) := by assumption) (k_planePort : ∀ n, g.keys (Obj.planePort n) := by assumption) (k_portPowerState : ∀ n, g.keys (Obj.portPowerState n) := by assumption) (k_portState : ∀ n, g.keys (Obj.portState n) := by assumption) (k_remapCount : g.keys Obj.remapCount := by assumption) :
    Leads g s (execLldpFlitRx p0 f cor unc u) := by
  unfold execLldpFlitRx
  exact Leads.next (State.takeFlit_within p_link p_cross (fun x1 x2 h3 => (State.lldpFlit_within p_link p_coll p_cross p_start h3)) h)

theorem State.lldpMissing_within {p1 : Nat} (p_link : Part.link ∈ g.parts) (p_coll : Part.coll ∈ g.parts) (p_cross : Part.cross ∈ g.parts) (p_start : Part.start ∈ g.parts) (h : Within g s u) (k_flitsTx : ∀ n, g.keys (Obj.flitsTx n) := by assumption) (k_idResult : ∀ n, g.keys (Obj.idResult n) := by assumption) (k_logicalPlane : ∀ n, g.keys (Obj.logicalPlane n) := by assumption) (k_planePort : ∀ n, g.keys (Obj.planePort n) := by assumption) (k_portState : ∀ n, g.keys (Obj.portState n) := by assumption) (k_remapCount : g.keys Obj.remapCount := by assumption) :
    Within g s (State.lldpMissing u p1) := by
  unfold State.lldpMissing
  extract_lets +onlyGivenNames -underBinder -merge n1
  extract_lets +onlyGivenNames -underBinder -merge n2
  extract_lets +onlyGivenNames -underBinder -merge n3
  exact Within.ite (State.classify_within p_link p_coll p_cross p_start (State.idSettle_within p_link p_coll p_cross p_start (State.wr_within (State.raise_within (State.updPort_within p_link h)) _ _))) h

theorem execLldpMissing_within {p0 : Fin 16} (p_link : Part.link ∈ g.parts) (p_coll : Part.coll ∈ g.parts) (p_cross : Part.cross ∈ g.parts) (p_start : Part.start ∈ g.parts) (h : Within g s u) (k_flitsTx : ∀ n, g.keys (Obj.flitsTx n) := by assumption) (k_idResult : ∀ n, g.keys (Obj.idResult n) := by assumption) (k_logicalPlane : ∀ n, g.keys (Obj.logicalPlane n) := by assumption) (k_planePort : ∀ n, g.keys (Obj.planePort n) := by assumption) (k_portState : ∀ n, g.keys (Obj.portState n) := by assumption) (k_remapCount : g.keys Obj.remapCount := by assumption) :
    Leads g s (execLldpMissing p0 u) := by
  unfold execLldpMissing
  exact Leads.next (State.lldpMissing_within p_link p_coll p_cross p_start h)

theorem State.lldpSend_within {p1 : Nat} (p_link : Part.link ∈ g.parts) (p_cross : Part.cross ∈ g.parts) (h : Within g s u) :
    Within g s (State.lldpSend u p1) := by
  unfold State.lldpSend
  extract_lets +onlyGivenNames -underBinder -merge n1
  extract_lets +onlyGivenNames -underBinder -merge n2
  exact Within.ite (State.sendFlit_within p_link p_cross (State.setPort_within p_link h)) h

theorem execLldpSend_within {p0 : Fin 16} (p_link : Part.link ∈ g.parts) (p_cross : Part.cross ∈ g.parts) (h : Within g s u) :
    Leads g s (execLldpSend p0 u) := by
  unfold execLldpSend
  exact Leads.next (State.lldpSend_within p_link p_cross h)

theorem State.trainStart_within {p1 : Nat} (p_link : Part.link ∈ g.parts) (p_start : Part.start ∈ g.parts) (h : Within g s u) (k_logicalPlane : ∀ n, g.keys (Obj.logicalPlane n) := by assumption) (k_planePort : ∀ n, g.keys (Obj.planePort n) := by assumption) (k_portPowerState : ∀ n, g.keys (Obj.portPowerState n) := by assumption) (k_portState : ∀ n, g.keys (Obj.portState n) := by assumption) (k_remapCount : g.keys Obj.remapCount := by assumption) :
    Within g s (State.trainStart u p1) := by
  unfold State.trainStart
  extract_lets +onlyGivenNames -underBinder -merge n1
  extract_lets +onlyGivenNames -underBinder -merge n2
  exact Within.ite (State.updPort_within p_link (State.wr_within (State.portTo_within p_link (State.unmap_within p_start h)) _ _)) h

theorem execPortTrainingStart_within {p0 : Fin 16} (p_link : Part.link ∈ g.parts) (p_start : Part.start ∈ g.parts) (h : Within g s u) (k_logicalPlane : ∀ n, g.keys (Obj.logicalPlane n) := by assumption) (k_planePort : ∀ n, g.keys (Obj.planePort n) := by assumption) (k_portPowerState : ∀ n, g.keys (Obj.portPowerState n) := by assumption) (k_portState : ∀ n, g.keys (Obj.portState n) := by assumption) (k_remapCount : g.keys Obj.remapCount := by assumption) :
    Leads g s (execPortTrainingStart p0 u) := by
  unfold execPortTrainingStart
  exact Leads.next (State.trainStart_within p_link p_start h)

theorem State.fecLock_within {p1 : Nat} (p_link : Part.link ∈ g.parts) (p_cross : Part.cross ∈ g.parts) (h : Within g s u) :
    Within g s (State.fecLock u p1) := by
  unfold State.fecLock
  exact Within.ite (State.sendHello_within p_link p_cross (State.updPort_within p_link h)) h

theorem execFecLock_within {p0 : Fin 16} (p_link : Part.link ∈ g.parts) (p_cross : Part.cross ∈ g.parts) (h : Within g s u) :
    Leads g s (execFecLock p0 u) := by
  unfold execFecLock
  exact Leads.next (State.fecLock_within p_link p_cross h)

theorem State.trainFail_within {p1 : Nat} (p_link : Part.link ∈ g.parts) (p_coll : Part.coll ∈ g.parts) (p_cross : Part.cross ∈ g.parts) (p_start : Part.start ∈ g.parts) (h : Within g s u) (k_collBytesTx : g.keys Obj.collBytesTx := by assumption) (k_collResends : g.keys Obj.collResends := by assumption) (k_flitsTx : ∀ n, g.keys (Obj.flitsTx n) := by assumption) (k_idResult : ∀ n, g.keys (Obj.idResult n) := by assumption) (k_logicalPlane : ∀ n, g.keys (Obj.logicalPlane n) := by assumption) (k_planePort : ∀ n, g.keys (Obj.planePort n) := by assumption) (k_portState : ∀ n, g.keys (Obj.portState n) := by assumption) (k_remapCount : g.keys Obj.remapCount := by assumption) :
    Within g s (State.trainFail u p1) := by
  unfold State.trainFail
  exact State.updPort_within p_link (State.goDown_within p_link p_coll p_cross p_start h)

theorem State.fecTimeout_within {p1 : Nat} (p_link : Part.link ∈ g.parts) (p_coll : Part.coll ∈ g.parts) (p_cross : Part.cross ∈ g.parts) (p_start : Part.start ∈ g.parts) (h : Within g s u) (k_collBytesTx : g.keys Obj.collBytesTx := by assumption) (k_collResends : g.keys Obj.collResends := by assumption) (k_flitsTx : ∀ n, g.keys (Obj.flitsTx n) := by assumption) (k_idResult : ∀ n, g.keys (Obj.idResult n) := by assumption) (k_logicalPlane : ∀ n, g.keys (Obj.logicalPlane n) := by assumption) (k_planePort : ∀ n, g.keys (Obj.planePort n) := by assumption) (k_portState : ∀ n, g.keys (Obj.portState n) := by assumption) (k_remapCount : g.keys Obj.remapCount := by assumption) :
    Within g s (State.fecTimeout u p1) := by
  unfold State.fecTimeout
  exact Within.ite (State.trainFail_within p_link p_coll p_cross p_start h) h

theorem execFecLockTimeout_within {p0 : Fin 16} (p_link : Part.link ∈ g.parts) (p_coll : Part.coll ∈ g.parts) (p_cross : Part.cross ∈ g.parts) (p_start : Part.start ∈ g.parts) (h : Within g s u) (k_collBytesTx : g.keys Obj.collBytesTx := by assumption) (k_collResends : g.keys Obj.collResends := by assumption) (k_flitsTx : ∀ n, g.keys (Obj.flitsTx n) := by assumption) (k_idResult : ∀ n, g.keys (Obj.idResult n) := by assumption) (k_logicalPlane : ∀ n, g.keys (Obj.logicalPlane n) := by assumption) (k_planePort : ∀ n, g.keys (Obj.planePort n) := by assumption) (k_portState : ∀ n, g.keys (Obj.portState n) := by assumption) (k_remapCount : g.keys Obj.remapCount := by assumption) :
    Leads g s (execFecLockTimeout p0 u) := by
  unfold execFecLockTimeout
  exact Leads.next (State.fecTimeout_within p_link p_coll p_cross p_start h)

theorem State.helloTimeout_within {p1 : Nat} (p_link : Part.link ∈ g.parts) (p_coll : Part.coll ∈ g.parts) (p_cross : Part.cross ∈ g.parts) (p_start : Part.start ∈ g.parts) (h : Within g s u) (k_collBytesTx : g.keys Obj.collBytesTx := by assumption) (k_collResends : g.keys Obj.collResends := by assumption) (k_flitsTx : ∀ n, g.keys (Obj.flitsTx n) := by assumption) (k_idResult : ∀ n, g.keys (Obj.idResult n) := by assumption) (k_logicalPlane : ∀ n, g.keys (Obj.logicalPlane n) := by assumption) (k_planePort : ∀ n, g.keys (Obj.planePort n) := by assumption) (k_portState : ∀ n, g.keys (Obj.portState n) := by assumption) (k_remapCount : g.keys Obj.remapCount := by assumption) :
    Within g s (State.helloTimeout u p1) := by
  unfold State.helloTimeout
  exact Within.ite (State.trainFail_within p_link p_coll p_cross p_start h) h

theorem execHelloExchangeTimeout_within {p0 : Fin 16} (p_link : Part.link ∈ g.parts) (p_coll : Part.coll ∈ g.parts) (p_cross : Part.cross ∈ g.parts) (p_start : Part.start ∈ g.parts) (h : Within g s u) (k_collBytesTx : g.keys Obj.collBytesTx := by assumption) (k_collResends : g.keys Obj.collResends := by assumption) (k_flitsTx : ∀ n, g.keys (Obj.flitsTx n) := by assumption) (k_idResult : ∀ n, g.keys (Obj.idResult n) := by assumption) (k_logicalPlane : ∀ n, g.keys (Obj.logicalPlane n) := by assumption) (k_planePort : ∀ n, g.keys (Obj.planePort n) := by assumption) (k_portState : ∀ n, g.keys (Obj.portState n) := by assumption) (k_remapCount : g.keys Obj.remapCount := by assumption) :
    Leads g s (execHelloExchangeTimeout p0 u) := by
  unfold execHelloExchangeTimeout
  exact Leads.next (State.helloTimeout_within p_link p_coll p_cross p_start h)

theorem State.helloFlit_within {p1 : Nat} {f : Bytes} {l : LinkWord} (p_link : Part.link ∈ g.parts) (p_cross : Part.cross ∈ g.parts) (h : Within g s u) (k_portState : ∀ n, g.keys (Obj.portState n) := by assumption) (k_retrains : ∀ n, g.keys (Obj.retrains n) := by assumption) (k_rttNs : ∀ n, g.keys (Obj.rttNs n) := by assumption) :
    Within g s (State.helloFlit u p1 f l) := by
  unfold State.helloFlit
  exact Within.ite h (Within.ite (by
    extract_lets +onlyGivenNames -underBinder -merge n1
    extract_lets +onlyGivenNames -underBinder -merge s2
    have h3 : Within g s s2 := (State.sendHello_within p_link p_cross h)
    exact Within.ite h3 (State.updPort_within p_link (State.portTo_within p_link (State.wr_within h3 _ _)))) (Within.ite (State.enterRetrain_within p_link p_cross h) (Within.ite (State.sendHello_within p_link p_cross h) h)))

theorem execHelloRx_within {p0 : Fin 16} {f : Bytes} {cor : Nat} {unc : Nat} (p_link : Part.link ∈ g.parts) (p_cross : Part.cross ∈ g.parts) (h : Within g s u) (k_fecCorrected : ∀ n, g.keys (Obj.fecCorrected n) := by assumption) (k_fecUncorrectable : ∀ n, g.keys (Obj.fecUncorrectable n) := by assumption) (k_flitsReplays : ∀ n, g.keys (Obj.flitsReplays n) := by assumption) (k_flitsTx : ∀ n, g.keys (Obj.flitsTx n) := by assumption) (k_naksSent : ∀ n, g.keys (Obj.naksSent n) := by assumption) (k_parityErrors : ∀ n, g.keys (Obj.parityErrors n) := by assumption) (k_portPowerState : ∀ n, g.keys (Obj.portPowerState n) := by assumption) (k_portState : ∀ n, g.keys (Obj.portState n) := by assumption) (k_retrains : ∀ n, g.keys (Obj.retrains n) := by assumption) (k_rttNs : ∀ n, g.keys (Obj.rttNs n) := by assumption) :
    Leads g s (execHelloRx p0 f cor unc u) := by
  unfold execHelloRx
  exact Leads.next (State.takeFlit_within p_link p_cross (fun x1 x2 h3 => (State.helloFlit_within p_link p_cross h3)) h)

theorem State.powerFlit_within {p1 : Nat} {f : Bytes} {l : LinkWord} (p_link : Part.link ∈ g.parts) (h : Within g s u) :
    Within g s (State.powerFlit u p1 f l) := by
  unfold State.powerFlit
  exact Within.ite (State.updPort_within p_link h) h

theorem execPowerFlitRx_within {p0 : Fin 16} {f : Bytes} {cor : Nat} {unc : Nat} (p_link : Part.link ∈ g.parts) (p_cross : Part.cross ∈ g.parts) (h : Within g s u) (k_fecCorrected : ∀ n, g.keys (Obj.fecCorrected n) := by assumption) (k_fecUncorrectable : ∀ n, g.keys (Obj.fecUncorrectable n) := by assumption) (k_flitsReplays : ∀ n, g.keys (Obj.flitsReplays n) := by assumption) (k_flitsTx : ∀ n, g.keys (Obj.flitsTx n) := by assumption) (k_naksSent : ∀ n, g.keys (Obj.naksSent n) := by assumption) (k_parityErrors : ∀ n, g.keys (Obj.parityErrors n) := by assumption) (k_portPowerState : ∀ n, g.keys (Obj.portPowerState n) := by assumption) :
    Leads g s (execPowerFlitRx p0 f cor unc u) := by
  unfold execPowerFlitRx
  exact Leads.next (State.takeFlit_within p_link p_cross (fun x1 x2 h3 => (State.powerFlit_within p_link h3)) h)

theorem State.laneLoss_within {p1 : Nat} (p_link : Part.link ∈ g.parts) (p_coll : Part.coll ∈ g.parts) (p_cross : Part.cross ∈ g.parts) (p_start : Part.start ∈ g.parts) (h : Within g s u) (k_collBytesTx : g.keys Obj.collBytesTx := by assumption) (k_collResends : g.keys Obj.collResends := by assumption) (k_flitsTx : ∀ n, g.keys (Obj.flitsTx n) := by assumption) (k_idResult : ∀ n, g.keys (Obj.idResult n) := by assumption) (k_logicalPlane : ∀ n, g.keys (Obj.logicalPlane n) := by assumption) (k_planePort : ∀ n, g.keys (Obj.planePort n) := by assumption) (k_portState : ∀ n, g.keys (Obj.portState n) := by assumption) (k_remapCount : g.keys Obj.remapCount := by assumption) :
    Within g s (State.laneLoss u p1) := by
  unfold State.laneLoss
  exact Within.ite h (State.classify_within p_link p_coll p_cross p_start (State.updPort_within p_link (State.goDown_within p_link p_coll p_cross p_start h)))

theorem execLaneLoss_within {p0 : Fin 16} (p_link : Part.link ∈ g.parts) (p_coll : Part.coll ∈ g.parts) (p_cross : Part.cross ∈ g.parts) (p_start : Part.start ∈ g.parts) (h : Within g s u) (k_collBytesTx : g.keys Obj.collBytesTx := by assumption) (k_collResends : g.keys Obj.collResends := by assumption) (k_flitsTx : ∀ n, g.keys (Obj.flitsTx n) := by assumption) (k_idResult : ∀ n, g.keys (Obj.idResult n) := by assumption) (k_logicalPlane : ∀ n, g.keys (Obj.logicalPlane n) := by assumption) (k_planePort : ∀ n, g.keys (Obj.planePort n) := by assumption) (k_portState : ∀ n, g.keys (Obj.portState n) := by assumption) (k_remapCount : g.keys Obj.remapCount := by assumption) :
    Leads g s (execLaneLoss p0 u) := by
  unfold execLaneLoss
  exact Leads.next (State.laneLoss_within p_link p_coll p_cross p_start h)

theorem State.retrain_within {p1 : Nat} (p_link : Part.link ∈ g.parts) (p_cross : Part.cross ∈ g.parts) (h : Within g s u) (k_portState : ∀ n, g.keys (Obj.portState n) := by assumption) (k_retrains : ∀ n, g.keys (Obj.retrains n) := by assumption) :
    Within g s (State.retrain u p1) := by
  unfold State.retrain
  extract_lets +onlyGivenNames -underBinder -merge n1
  extract_lets +onlyGivenNames -underBinder -merge n2
  exact Within.ite (State.enterRetrain_within p_link p_cross h) h

theorem execRetrain_within {p0 : Fin 16} (p_link : Part.link ∈ g.parts) (p_cross : Part.cross ∈ g.parts) (h : Within g s u) (k_portState : ∀ n, g.keys (Obj.portState n) := by assumption) (k_retrains : ∀ n, g.keys (Obj.retrains n) := by assumption) :
    Leads g s (execRetrain p0 u) := by
  unfold execRetrain
  exact Leads.next (State.retrain_within p_link p_cross h)

theorem State.retrainDone_within {p1 : Nat} (p_link : Part.link ∈ g.parts) (p_cross : Part.cross ∈ g.parts) (h : Within g s u) (k_flitsReplays : ∀ n, g.keys (Obj.flitsReplays n) := by assumption) (k_flitsTx : ∀ n, g.keys (Obj.flitsTx n) := by assumption) (k_portPowerState : ∀ n, g.keys (Obj.portPowerState n) := by assumption) (k_portState : ∀ n, g.keys (Obj.portState n) := by assumption) :
    Within g s (State.retrainDone u p1) := by
  unfold State.retrainDone
  exact Within.ite (State.pump_within p_link p_cross (State.replay_within p_link p_cross (State.updPort_within p_link (State.portTo_within p_link h)))) h

theorem execRetrainDone_within {p0 : Fin 16} (p_link : Part.link ∈ g.parts) (p_cross : Part.cross ∈ g.parts) (h : Within g s u) (k_flitsReplays : ∀ n, g.keys (Obj.flitsReplays n) := by assumption) (k_flitsTx : ∀ n, g.keys (Obj.flitsTx n) := by assumption) (k_portPowerState : ∀ n, g.keys (Obj.portPowerState n) := by assumption) (k_portState : ∀ n, g.keys (Obj.portState n) := by assumption) :
    Leads g s (execRetrainDone p0 u) := by
  unfold execRetrainDone
  exact Leads.next (State.retrainDone_within p_link p_cross h)

theorem State.retrainTimeout_within {p1 : Nat} (p_link : Part.link ∈ g.parts) (p_coll : Part.coll ∈ g.parts) (p_cross : Part.cross ∈ g.parts) (p_start : Part.start ∈ g.parts) (h : Within g s u) (k_collBytesTx : g.keys Obj.collBytesTx := by assumption) (k_collResends : g.keys Obj.collResends := by assumption) (k_flitsTx : ∀ n, g.keys (Obj.flitsTx n) := by assumption) (k_idResult : ∀ n, g.keys (Obj.idResult n) := by assumption) (k_logicalPlane : ∀ n, g.keys (Obj.logicalPlane n) := by assumption) (k_planePort : ∀ n, g.keys (Obj.planePort n) := by assumption) (k_portState : ∀ n, g.keys (Obj.portState n) := by assumption) (k_remapCount : g.keys Obj.remapCount := by assumption) :
    Within g s (State.retrainTimeout u p1) := by
  unfold State.retrainTimeout
  exact Within.ite (State.classify_within p_link p_coll p_cross p_start (State.portFail_within p_link p_coll p_cross p_start h)) h

theorem execRetrainTimeout_within {p0 : Fin 16} (p_link : Part.link ∈ g.parts) (p_coll : Part.coll ∈ g.parts) (p_cross : Part.cross ∈ g.parts) (p_start : Part.start ∈ g.parts) (h : Within g s u) (k_collBytesTx : g.keys Obj.collBytesTx := by assumption) (k_collResends : g.keys Obj.collResends := by assumption) (k_flitsTx : ∀ n, g.keys (Obj.flitsTx n) := by assumption) (k_idResult : ∀ n, g.keys (Obj.idResult n) := by assumption) (k_logicalPlane : ∀ n, g.keys (Obj.logicalPlane n) := by assumption) (k_planePort : ∀ n, g.keys (Obj.planePort n) := by assumption) (k_portState : ∀ n, g.keys (Obj.portState n) := by assumption) (k_remapCount : g.keys Obj.remapCount := by assumption) :
    Leads g s (execRetrainTimeout p0 u) := by
  unfold execRetrainTimeout
  exact Leads.next (State.retrainTimeout_within p_link p_coll p_cross p_start h)

theorem State.lp1Idle_within {p1 : Nat} (h : Within g s u) (k_portPowerState : ∀ n, g.keys (Obj.portPowerState n) := by assumption) :
    Within g s (State.lp1Idle u p1) := by
  unfold State.lp1Idle
  extract_lets +onlyGivenNames -underBinder -merge n1
  exact Within.ite (State.wr_within h _ _) h

theorem execLp1Idle_within {p0 : Fin 16} (h : Within g s u) (k_portPowerState : ∀ n, g.keys (Obj.portPowerState n) := by assumption) :
    Leads g s (execLp1Idle p0 u) := by
  unfold execLp1Idle
  exact Leads.next (State.lp1Idle_within h)

theorem State.lp1Exit_within {p1 : Nat} (p_link : Part.link ∈ g.parts) (p_cross : Part.cross ∈ g.parts) (h : Within g s u) (k_flitsTx : ∀ n, g.keys (Obj.flitsTx n) := by assumption) (k_portPowerState : ∀ n, g.keys (Obj.portPowerState n) := by assumption) :
    Within g s (State.lp1Exit u p1) := by
  unfold State.lp1Exit
  exact Within.ite (State.pump_within p_link p_cross (State.updPort_within p_link (State.wr_within h _ _))) h

theorem execLp1Exit_within {p0 : Fin 16} (p_link : Part.link ∈ g.parts) (p_cross : Part.cross ∈ g.parts) (h : Within g s u) (k_flitsTx : ∀ n, g.keys (Obj.flitsTx n) := by assumption) (k_portPowerState : ∀ n, g.keys (Obj.portPowerState n) := by assumption) :
    Leads g s (execLp1Exit p0 u) := by
  unfold execLp1Exit
  exact Leads.next (State.lp1Exit_within p_link p_cross h)

theorem State.sleepPort_within {p1 : Nat} {v : Nat} (p_link : Part.link ∈ g.parts) (p_coll : Part.coll ∈ g.parts) (p_cross : Part.cross ∈ g.parts) (p_start : Part.start ∈ g.parts) (h : Within g s u) (k_collBytesTx : g.keys Obj.collBytesTx := by assumption) (k_collResends : g.keys Obj.collResends := by assumption) (k_flitsTx : ∀ n, g.keys (Obj.flitsTx n) := by assumption) (k_idResult : ∀ n, g.keys (Obj.idResult n) := by assumption) (k_logicalPlane : ∀ n, g.keys (Obj.logicalPlane n) := by assumption) (k_planePort : ∀ n, g.keys (Obj.planePort n) := by assumption) (k_portPowerState : ∀ n, g.keys (Obj.portPowerState n) := by assumption) (k_portState : ∀ n, g.keys (Obj.portState n) := by assumption) (k_remapCount : g.keys Obj.remapCount := by assumption) :
    Within g s (State.sleepPort u p1 v) := by
  unfold State.sleepPort
  exact State.wr_within (Within.ite h (State.goDown_within p_link p_coll p_cross p_start h)) _ _

theorem State.sleepApply_within {p1 : Nat} {v : Nat} (p_link : Part.link ∈ g.parts) (p_coll : Part.coll ∈ g.parts) (p_cross : Part.cross ∈ g.parts) (p_start : Part.start ∈ g.parts) (h : Within g s u) (k_collBytesTx : g.keys Obj.collBytesTx := by assumption) (k_collResends : g.keys Obj.collResends := by assumption) (k_flitsTx : ∀ n, g.keys (Obj.flitsTx n) := by assumption) (k_idResult : ∀ n, g.keys (Obj.idResult n) := by assumption) (k_logicalPlane : ∀ n, g.keys (Obj.logicalPlane n) := by assumption) (k_planePort : ∀ n, g.keys (Obj.planePort n) := by assumption) (k_portPowerState : ∀ n, g.keys (Obj.portPowerState n) := by assumption) (k_portSleep : ∀ n, g.keys (Obj.portSleep n) := by assumption) (k_portState : ∀ n, g.keys (Obj.portState n) := by assumption) (k_remapCount : g.keys Obj.remapCount := by assumption) :
    Within g s (State.sleepApply u p1 v) := by
  unfold State.sleepApply
  extract_lets +onlyGivenNames -underBinder -merge n1
  extract_lets +onlyGivenNames -underBinder -merge s2
  have h3 : Within g s s2 := (State.wr_within h _ _)
  exact Within.ite (Within.ite h3 (State.updPort_within p_link (State.wr_within (State.goDown_within p_link p_coll p_cross p_start h3) _ _))) (by
    extract_lets +onlyGivenNames -underBinder -merge s4
    have h5 : Within g s s4 := (Within.ite (State.sendFlit_within p_link p_cross h3) h3)
    exact State.classify_within p_link p_coll p_cross p_start (State.sleepPort_within p_link p_coll p_cross p_start h5))

theorem execPortSleepWrite_within {src : Src} {p1 : Fin 16} {v : Nat} (p_link : Part.link ∈ g.parts) (p_coll : Part.coll ∈ g.parts) (p_cross : Part.cross ∈ g.parts) (p_start : Part.start ∈ g.parts) (h : Within g s u) (k_collBytesTx : g.keys Obj.collBytesTx := by assumption) (k_collResends : g.keys Obj.collResends := by assumption) (k_dictRejected : g.keys Obj.dictRejected := by assumption) (k_flitsTx : ∀ n, g.keys (Obj.flitsTx n) := by assumption) (k_idResult : ∀ n, g.keys (Obj.idResult n) := by assumption) (k_logicalPlane : ∀ n, g.keys (Obj.logicalPlane n) := by assumption) (k_planePort : ∀ n, g.keys (Obj.planePort n) := by assumption) (k_portPowerState : ∀ n, g.keys (Obj.portPowerState n) := by assumption) (k_portSleep : ∀ n, g.keys (Obj.portSleep n) := by assumption) (k_portState : ∀ n, g.keys (Obj.portState n) := by assumption) (k_remapCount : g.keys Obj.remapCount := by assumption) :
    Leads g s (execPortSleepWrite src p1 v u) := by
  unfold execPortSleepWrite
  exact Leads.next (State.act_within (fun x1 h2 => (State.sleepApply_within p_link p_coll p_cross p_start h2)) h)

end Sys2Proof.Machine
end

