-- ==== Sys2Proof/Laws/WithinPark.lean ====
section
/-! SUPPORT. What each operation of Machine/Park.lean may change, and that it keeps the form of the state. -/
namespace Sys2Proof.Machine
set_option Elab.async false

variable {g : Scope} {s u : State}

theorem State.parkPorts_within {deep : Bool} (p_link : Part.link ∈ g.parts) (p_coll : Part.coll ∈ g.parts) (p_cross : Part.cross ∈ g.parts) (p_start : Part.start ∈ g.parts) (h : Within g s u) (k_collBytesTx : g.keys Obj.collBytesTx := by assumption) (k_collResends : g.keys Obj.collResends := by assumption) (k_flitsTx : ∀ n, g.keys (Obj.flitsTx n) := by assumption) (k_idResult : ∀ n, g.keys (Obj.idResult n) := by assumption) (k_logicalPlane : ∀ n, g.keys (Obj.logicalPlane n) := by assumption) (k_planePort : ∀ n, g.keys (Obj.planePort n) := by assumption) (k_portPowerState : ∀ n, g.keys (Obj.portPowerState n) := by assumption) (k_portState : ∀ n, g.keys (Obj.portState n) := by assumption) (k_remapCount : g.keys Obj.remapCount := by assumption) :
    Within g s (State.parkPorts u deep) := by
  unfold State.parkPorts
  exact Within.foldl (fun x1 x2 h3 => (Within.ite (State.sleepPort_within p_link p_coll p_cross p_start h3) (Within.ite (State.wr_within h3 _ _) h3))) h

theorem State.leaveDeep_within (h : Within g s u) (k_portPowerState : ∀ n, g.keys (Obj.portPowerState n) := by assumption) :
    Within g s (State.leaveDeep u) := by
  unfold State.leaveDeep
  exact Within.foldl (fun x1 x2 h3 => (Within.ite (State.wr_within h3 _ _) h3)) h

theorem State.clockTo_within {op : Nat} (p_clock : Part.clock ∈ g.parts) (h : Within g s u) (k_opInForce : g.keys Obj.opInForce := by assumption) :
    Within g s (State.clockTo u op) := by
  unfold State.clockTo
  extract_lets +onlyGivenNames -underBinder -merge n1
  extract_lets +onlyGivenNames -underBinder -merge s2
  have h3 : Within g s s2 := (State.wr_within h _ _)
  exact Within.ite h3 (Within.setClock p_clock h3)

theorem State.runArray_within (p_tier : Part.tier ∈ g.parts) (p_power : Part.power ∈ g.parts) (p_clock : Part.clock ∈ g.parts) (h : Within g s u) (k_duty : g.keys Obj.duty := by assumption) (k_opInForce : g.keys Obj.opInForce := by assumption) (k_vtrimMv : g.keys Obj.vtrimMv := by assumption) :
    Within g s (State.runArray u) := by
  unfold State.runArray
  extract_lets +onlyGivenNames -underBinder -merge _ _ s1
  have h2 : Within g s s1 := (Within.many h rfl (fun p => by cases p <;> first | exact .inr rfl | exact .inl ‹_›) (fun f => ⟨f.1, f.2, f.3, f.4, f.5, f.6, f.7, f.8, f.9, f.10, f.11, f.12⟩) rfl)
  exact State.setRail_within p_power (State.wr_within (State.wr_within (State.clockTo_within p_clock h2) _ _) _ _)

theorem State.wake_within (p_tier : Part.tier ∈ g.parts) (p_power : Part.power ∈ g.parts) (p_clock : Part.clock ∈ g.parts) (h : Within g s u) (k_duty : g.keys Obj.duty := by assumption) (k_opInForce : g.keys Obj.opInForce := by assumption) (k_powerState : g.keys Obj.powerState := by assumption) (k_vtrimMv : g.keys Obj.vtrimMv := by assumption) :
    Within g s (State.wake u) := by
  unfold State.wake
  exact State.wr_within (State.runArray_within p_tier p_power p_clock h) _ _

theorem State.railForHold_within {was : Nat} {new : Nat} (p_power : Part.power ∈ g.parts) (p_cross : Part.cross ∈ g.parts) (h : Within g s u) :
    Within g s (State.railForHold u was new) := by
  unfold State.railForHold
  extract_lets +onlyGivenNames -underBinder -merge n1
  exact Within.ite (State.setRail_within p_power h) (Within.ite (State.freshArrayQueues_within p_cross (State.setRail_within p_power h)) h)

theorem State.repower_within (p_link : Part.link ∈ g.parts) (p_coll : Part.coll ∈ g.parts) (p_tier : Part.tier ∈ g.parts) (p_power : Part.power ∈ g.parts) (p_clock : Part.clock ∈ g.parts) (p_cross : Part.cross ∈ g.parts) (p_start : Part.start ∈ g.parts) (h : Within g s u) (k_collBytesTx : g.keys Obj.collBytesTx := by assumption) (k_collResends : g.keys Obj.collResends := by assumption) (k_duty : g.keys Obj.duty := by assumption) (k_flitsTx : ∀ n, g.keys (Obj.flitsTx n) := by assumption) (k_idResult : ∀ n, g.keys (Obj.idResult n) := by assumption) (k_logicalPlane : ∀ n, g.keys (Obj.logicalPlane n) := by assumption) (k_opInForce : g.keys Obj.opInForce := by assumption) (k_parks : g.keys Obj.parks := by assumption) (k_planePort : ∀ n, g.keys (Obj.planePort n) := by assumption) (k_portPowerState : ∀ n, g.keys (Obj.portPowerState n) := by assumption) (k_portState : ∀ n, g.keys (Obj.portState n) := by assumption) (k_powerState : g.keys Obj.powerState := by assumption) (k_remapCount : g.keys Obj.remapCount := by assumption) (k_vtrimMv : g.keys Obj.vtrimMv := by assumption) :
    Within g s (State.repower u) := by
  unfold State.repower
  extract_lets +onlyGivenNames -underBinder -merge n1
  extract_lets +onlyGivenNames -underBinder -merge n2
  extract_lets +onlyGivenNames -underBinder -merge s3
  have h4 : Within g s s3 := (State.railForHold_within p_power p_cross (State.wr_within h _ _))
  extract_lets +onlyGivenNames -underBinder -merge s5
  have h6 : Within g s s5 := (Within.ite (State.countSat_within h4) h4)
  extract_lets +onlyGivenNames -underBinder -merge _ s7
  have h8 : Within g s s7 := (Within.ite (State.parkPorts_within p_link p_coll p_cross p_start (Within.setTier p_tier h6 rfl id)) h6)
  extract_lets +onlyGivenNames -underBinder -merge s9
  have h10 : Within g s s9 := (Within.ite (State.parkPorts_within p_link p_coll p_cross p_start h8) (Within.ite (State.leaveDeep_within h8) h8))
  exact Within.ite (State.wake_within p_tier p_power p_clock h10) h10

end Sys2Proof.Machine
end

