-- ==== Sys2Proof/Laws/WithinGroup.lean ====
section
/-! SUPPORT. What each operation of Machine/Group.lean may change, and that it keeps the form of the state. -/
namespace Sys2Proof.Machine
set_option Elab.async false

variable {g : Scope} {s u : State}

theorem State.applyShape_within (h : Within g s u) (k_groupAnchor : g.keys Obj.groupAnchor := by assumption) (k_groupRank : g.keys Obj.groupRank := by assumption) (k_groupSize : g.keys Obj.groupSize := by assumption) (k_shapeDigest : g.keys Obj.shapeDigest := by assumption) :
    Within g s (State.applyShape u) := by
  unfold State.applyShape
  exact Within.ite (State.wr_within (State.wr_within (State.wr_within (State.wr_within h _ _) _ _) _ _) _ _) (State.wr_within (State.wr_within (State.wr_within (State.wr_within h _ _) _ _) _ _) _ _)

theorem State.sendPod_within {pod : Nat} {dst : Nat} {m : Msg} (p_link : Part.link ∈ g.parts) (p_coll : Part.coll ∈ g.parts) (p_cross : Part.cross ∈ g.parts) (h : Within g s u) (k_collBytesTx : g.keys Obj.collBytesTx := by assumption) (k_flitsTx : ∀ n, g.keys (Obj.flitsTx n) := by assumption) :
    Within g s (State.sendPod u pod dst m) := by
  unfold State.sendPod
  extract_lets +onlyGivenNames -underBinder -merge s1
  have h2 : Within g s s1 := (State.emit_within h)
  extract_lets +onlyGivenNames -underBinder -merge s3
  have h4 : Within g s s3 := (Within.ite (State.count_within h2) h2)
  exact State.mail_within p_link p_coll p_cross h4

theorem State.send_within {dst : Nat} {m : Msg} (p_link : Part.link ∈ g.parts) (p_coll : Part.coll ∈ g.parts) (p_cross : Part.cross ∈ g.parts) (h : Within g s u) (k_collBytesTx : g.keys Obj.collBytesTx := by assumption) (k_flitsTx : ∀ n, g.keys (Obj.flitsTx n) := by assumption) :
    Within g s (State.send u dst m) := by
  unfold State.send
  exact State.sendPod_within p_link p_coll p_cross h

theorem State.sendAll_within {m : Msg} (p_link : Part.link ∈ g.parts) (p_coll : Part.coll ∈ g.parts) (p_cross : Part.cross ∈ g.parts) (h : Within g s u) (k_collBytesTx : g.keys Obj.collBytesTx := by assumption) (k_flitsTx : ∀ n, g.keys (Obj.flitsTx n) := by assumption) :
    Within g s (State.sendAll u m) := by
  unfold State.sendAll
  exact Within.foldl (fun x1 x2 h3 => (State.send_within p_link p_coll p_cross h3)) h

theorem State.recallLent_within (p_link : Part.link ∈ g.parts) (p_coll : Part.coll ∈ g.parts) (p_tier : Part.tier ∈ g.parts) (p_cross : Part.cross ∈ g.parts) (h : Within g s u) (k_collBytesTx : g.keys Obj.collBytesTx := by assumption) (k_flitsTx : ∀ n, g.keys (Obj.flitsTx n) := by assumption) :
    Within g s (State.recallLent u) := by
  unfold State.recallLent
  split
  · exact h
  · exact Within.ite h (by
      extract_lets +onlyGivenNames -underBinder -merge n6
      extract_lets +onlyGivenNames -underBinder -merge _ s7
      have h8 : Within g s s7 := (Within.setTier p_tier h rfl id)
      exact State.send_within p_link p_coll p_cross h8)

theorem State.startJoin_within (p_link : Part.link ∈ g.parts) (p_coll : Part.coll ∈ g.parts) (p_tier : Part.tier ∈ g.parts) (p_cross : Part.cross ∈ g.parts) (h : Within g s u) (k_collBytesTx : g.keys Obj.collBytesTx := by assumption) (k_flitsTx : ∀ n, g.keys (Obj.flitsTx n) := by assumption) (k_groupAnchor : g.keys Obj.groupAnchor := by assumption) (k_groupRank : g.keys Obj.groupRank := by assumption) (k_groupSize : g.keys Obj.groupSize := by assumption) (k_groupState : g.keys Obj.groupState := by assumption) (k_shapeDigest : g.keys Obj.shapeDigest := by assumption) :
    Within g s (State.startJoin u) := by
  unfold State.startJoin
  extract_lets +onlyGivenNames -underBinder -merge s1
  have h2 : Within g s s1 := (State.applyShape_within h)
  extract_lets +onlyGivenNames -underBinder -merge n3
  extract_lets +onlyGivenNames -underBinder -merge s4
  have h5 : Within g s s4 := (State.wr_within h2 _ _)
  extract_lets +onlyGivenNames -underBinder -merge s6
  have h7 : Within g s s6 := (Within.ite (State.recallLent_within p_link p_coll p_tier p_cross h5) h5)
  exact Within.setColl p_coll h7

theorem State.takeForce_within {vs : Tab Nat} (p_staged : Part.staged ∈ g.parts) (p_link : Part.link ∈ g.parts) (p_coll : Part.coll ∈ g.parts) (p_tier : Part.tier ∈ g.parts) (p_cross : Part.cross ∈ g.parts) (h : Within g s u) (k_any : ∀ k, g.keys k := by assumption) (k_collBytesTx : g.keys Obj.collBytesTx := by assumption) (k_flitsTx : ∀ n, g.keys (Obj.flitsTx n) := by assumption) (k_groupAnchor : g.keys Obj.groupAnchor := by assumption) (k_groupRank : g.keys Obj.groupRank := by assumption) (k_groupSize : g.keys Obj.groupSize := by assumption) (k_groupState : g.keys Obj.groupState := by assumption) (k_shapeDigest : g.keys Obj.shapeDigest := by assumption) :
    Within g s (State.takeForce u vs) := by
  unfold State.takeForce
  extract_lets +onlyGivenNames -underBinder -merge n1
  extract_lets +onlyGivenNames -underBinder -merge s2
  have h3 : Within g s s2 := (Within.foldl (fun x4 x5 h6 => (by
    split
    · extract_lets +onlyGivenNames -underBinder -merge s10
      have h11 : Within g s s10 := (State.wr_within h6 _ _)
      exact Within.setStaged p_staged h11)) h)
  exact Within.ite h3 (State.startJoin_within p_link p_coll p_tier p_cross h3)

theorem State.discard_within {w : Nat} {e : QEntry} (p_cmd : Part.cmd ∈ g.parts) (h : Within g s u) :
    Within g s (State.discard u w e) := by
  unfold State.discard
  exact State.retire_within p_cmd h

theorem State.discardWin_within {n : Nat} {w : Nat} (p_cmd : Part.cmd ∈ g.parts) (h : Within g s u) :
    Within g s (State.discardWin u n w) := by
  unfold State.discardWin
  exact Within.foldl (fun x1 x2 h3 => (State.discard_within p_cmd h3)) h

theorem State.clearTiles_within (p_castMem : Part.castMem ∈ g.parts) (p_tile : Part.tile ∈ g.parts) (h : Within g s u) :
    Within g s (State.clearTiles u) := by
  unfold State.clearTiles
  exact Within.many h rfl (fun p => by cases p <;> first | exact .inr rfl | exact .inl ‹_›)
    (fun f => ⟨f.1, f.2, f.3, Tab.nil_wf _, f.5, f.6, f.7, f.8, f.9, f.10, f.11, f.12⟩)

theorem State.freeEngines_within (h : Within g s u) (k_decState : ∀ n, g.keys (Obj.decState n) := by assumption) :
    Within g s (State.freeEngines u) := by
  unfold State.freeEngines
  exact Within.foldl (fun x1 x2 h3 => (Within.ite (State.wr_within h3 _ _) h3)) h

theorem State.endStall_within (p_coll : Part.coll ∈ g.parts) (h : Within g s u) (k_collMismatchCycles : g.keys Obj.collMismatchCycles := by assumption) (k_groupState : g.keys Obj.groupState := by assumption) :
    Within g s (State.endStall u) := by
  unfold State.endStall
  extract_lets +onlyGivenNames -underBinder -merge s1
  have h2 : Within g s s1 := (by
    unfold s1
    split
    · exact State.endEpisode_within (State.count_within h)
    · exact h)
  extract_lets +onlyGivenNames -underBinder -merge s8
  have h9 : Within g s s8 := (Within.ite (State.wr_within h2 _ _) h2)
  exact Within.setColl p_coll h9

theorem State.endWaits_within (p_tier : Part.tier ∈ g.parts) (h : Within g s u) (k_tmWaitCycles : g.keys Obj.tmWaitCycles := by assumption) :
    Within g s (State.endWaits u) := by
  unfold State.endWaits
  exact Within.foldl (fun x1 x2 h3 => (State.endPageWait_within p_tier h3)) h

theorem State.clearUnits_within {n : Nat} (p_prep : Part.prep ∈ g.parts) (p_spans : Part.spans ∈ g.parts) (p_upd : Part.upd ∈ g.parts) (p_coll : Part.coll ∈ g.parts) (p_tier : Part.tier ∈ g.parts) (p_store : Part.store ∈ g.parts) (h : Within g s u) (k_actMode : g.keys Obj.actMode := by assumption) (k_actStep : g.keys Obj.actStep := by assumption) (k_collMismatchCycles : g.keys Obj.collMismatchCycles := by assumption) (k_decState : ∀ n, g.keys (Obj.decState n) := by assumption) (k_groupState : g.keys Obj.groupState := by assumption) (k_prepEpoch : g.keys Obj.prepEpoch := by assumption) (k_prepStep : g.keys Obj.prepStep := by assumption) (k_tmWaitCycles : g.keys Obj.tmWaitCycles := by assumption) :
    Within g s (State.clearUnits u n) := by
  unfold State.clearUnits
  extract_lets +onlyGivenNames -underBinder -merge s1
  have h2 : Within g s s1 := (State.endWaits_within p_tier (State.endStall_within p_coll h))
  extract_lets +onlyGivenNames -underBinder -merge _ _ _ s3
  have h4 : Within g s s3 := (Within.many h2 rfl (fun p => by cases p <;> first | exact .inr rfl | exact .inl ‹_›) (fun f => ⟨f.1, f.2, f.3, f.4, f.5, f.6, f.7, f.8, f.9, f.10, f.11, f.12⟩) rfl)
  extract_lets +onlyGivenNames -underBinder -merge s5
  have h6 : Within g s s5 := (State.freeEngines_within h4)
  extract_lets +onlyGivenNames -underBinder -merge n7
  extract_lets +onlyGivenNames -underBinder -merge _ s8
  have h9 : Within g s s8 := (Within.setUpd p_upd h6)
  split
  · exact Within.ite h9 (by
      extract_lets +onlyGivenNames -underBinder -merge s13
      have h14 : Within g s s13 := (Within.ite (State.wr_within (State.wr_within h9 _ _) _ _) h9)
      extract_lets +onlyGivenNames -underBinder -merge s15
      have h16 : Within g s s15 := (State.wr_within (State.wr_within h14 _ _) _ _)
      exact Within.many h16 rfl (fun p => by cases p <;> first | exact .inr rfl | exact .inl ‹_›) (fun f => ⟨f.1, f.2, f.3, f.4, f.5, f.6, f.7, f.8, f.9, f.10, f.11, f.12⟩) rfl)
  · exact h9

theorem State.abortWin_within {n : Nat} {cause : Nat} {w : Nat} (p_bar0 : Part.bar0 ∈ g.parts) (p_cmd : Part.cmd ∈ g.parts) (h : Within g s u) :
    Within g s (State.abortWin u n cause w) := by
  unfold State.abortWin
  extract_lets s1 had s2 s3
  have h2 : Within g s s2 := State.updWin_within p_cmd (State.clearSlots_within p_bar0 p_cmd h) _ _ fun x hx => x.restartAudit_length.symm ▸ hx
  have h3 : Within g s s3 := Within.ite (State.formNotice_within p_cmd h2) h2
  exact Within.ite h3 (State.windowNotice_within p_cmd (State.updWin_within p_cmd h3 _ _ fun _ h => h))

theorem State.abortStep_within {cause : Nat} (p_prep : Part.prep ∈ g.parts) (p_bar0 : Part.bar0 ∈ g.parts) (p_cmd : Part.cmd ∈ g.parts) (p_castMem : Part.castMem ∈ g.parts) (p_tile : Part.tile ∈ g.parts) (p_spans : Part.spans ∈ g.parts) (p_upd : Part.upd ∈ g.parts) (p_coll : Part.coll ∈ g.parts) (p_tier : Part.tier ∈ g.parts) (p_store : Part.store ∈ g.parts) (h : Within g s u) (k_actMode : g.keys Obj.actMode := by assumption) (k_actStep : g.keys Obj.actStep := by assumption) (k_collMismatchCycles : g.keys Obj.collMismatchCycles := by assumption) (k_decState : ∀ n, g.keys (Obj.decState n) := by assumption) (k_groupState : g.keys Obj.groupState := by assumption) (k_prepEpoch : g.keys Obj.prepEpoch := by assumption) (k_prepStep : g.keys Obj.prepStep := by assumption) (k_tmWaitCycles : g.keys Obj.tmWaitCycles := by assumption) :
    Within g s (State.abortStep u cause) := by
  unfold State.abortStep
  extract_lets n s1 s2 s3
  have h1 : Within g s s1 := Within.foldl (fun _ _ hv => State.discardWin_within p_cmd hv) h
  have h2 : Within g s s2 := State.clearUnits_within p_prep p_spans p_upd p_coll p_tier p_store (State.clearTiles_within p_castMem p_tile h1)
  have h3 : Within g s s3 := Within.foldl (fun _ _ hv => State.abortWin_within p_bar0 p_cmd hv) h2
  clear_value s3
  exact Within.setCmd p_cmd h3 rfl id

theorem State.abortAnnounce_within {cause : Nat} (p_prep : Part.prep ∈ g.parts) (p_bar0 : Part.bar0 ∈ g.parts) (p_cmd : Part.cmd ∈ g.parts) (p_castMem : Part.castMem ∈ g.parts) (p_tile : Part.tile ∈ g.parts) (p_spans : Part.spans ∈ g.parts) (p_upd : Part.upd ∈ g.parts) (p_link : Part.link ∈ g.parts) (p_coll : Part.coll ∈ g.parts) (p_tier : Part.tier ∈ g.parts) (p_store : Part.store ∈ g.parts) (p_cross : Part.cross ∈ g.parts) (h : Within g s u) (k_actMode : g.keys Obj.actMode := by assumption) (k_actStep : g.keys Obj.actStep := by assumption) (k_collBytesTx : g.keys Obj.collBytesTx := by assumption) (k_collMismatchCycles : g.keys Obj.collMismatchCycles := by assumption) (k_decState : ∀ n, g.keys (Obj.decState n) := by assumption) (k_flitsTx : ∀ n, g.keys (Obj.flitsTx n) := by assumption) (k_groupState : g.keys Obj.groupState := by assumption) (k_prepEpoch : g.keys Obj.prepEpoch := by assumption) (k_prepStep : g.keys Obj.prepStep := by assumption) (k_tmWaitCycles : g.keys Obj.tmWaitCycles := by assumption) :
    Within g s (State.abortAnnounce u cause) := by
  unfold State.abortAnnounce
  extract_lets +onlyGivenNames -underBinder -merge n1
  extract_lets +onlyGivenNames -underBinder -merge s2
  have h3 : Within g s s2 := (State.abortStep_within p_prep p_bar0 p_cmd p_castMem p_tile p_spans p_upd p_coll p_tier p_store h)
  exact Within.ite h3 (State.sendAll_within p_link p_coll p_cross h3)

theorem execStepAbort_within {src : Src} {arg : Nat} (p_prep : Part.prep ∈ g.parts) (p_bar0 : Part.bar0 ∈ g.parts) (p_cmd : Part.cmd ∈ g.parts) (p_castMem : Part.castMem ∈ g.parts) (p_tile : Part.tile ∈ g.parts) (p_spans : Part.spans ∈ g.parts) (p_upd : Part.upd ∈ g.parts) (p_coll : Part.coll ∈ g.parts) (p_tier : Part.tier ∈ g.parts) (p_store : Part.store ∈ g.parts) (h : Within g s u) (k_actMode : g.keys Obj.actMode := by assumption) (k_actStep : g.keys Obj.actStep := by assumption) (k_collMismatchCycles : g.keys Obj.collMismatchCycles := by assumption) (k_decState : ∀ n, g.keys (Obj.decState n) := by assumption) (k_dictRejected : g.keys Obj.dictRejected := by assumption) (k_groupState : g.keys Obj.groupState := by assumption) (k_prepEpoch : g.keys Obj.prepEpoch := by assumption) (k_prepStep : g.keys Obj.prepStep := by assumption) (k_tmWaitCycles : g.keys Obj.tmWaitCycles := by assumption) :
    Leads g s (execStepAbort src arg u) := by
  unfold execStepAbort
  exact Leads.next (State.act_within (fun x1 h2 => (State.abortStep_within p_prep p_bar0 p_cmd p_castMem p_tile p_spans p_upd p_coll p_tier p_store h2)) h)

theorem State.resetWin_within {w : Nat} (p_prep : Part.prep ∈ g.parts) (p_bar0 : Part.bar0 ∈ g.parts) (p_cmd : Part.cmd ∈ g.parts) (p_castMem : Part.castMem ∈ g.parts) (p_tile : Part.tile ∈ g.parts) (p_spans : Part.spans ∈ g.parts) (p_upd : Part.upd ∈ g.parts) (p_coll : Part.coll ∈ g.parts) (p_tier : Part.tier ∈ g.parts) (p_store : Part.store ∈ g.parts) (h : Within g s u) (k_actMode : g.keys Obj.actMode := by assumption) (k_actStep : g.keys Obj.actStep := by assumption) (k_collMismatchCycles : g.keys Obj.collMismatchCycles := by assumption) (k_decState : ∀ n, g.keys (Obj.decState n) := by assumption) (k_groupState : g.keys Obj.groupState := by assumption) (k_prepEpoch : g.keys Obj.prepEpoch := by assumption) (k_prepStep : g.keys Obj.prepStep := by assumption) (k_tmWaitCycles : g.keys Obj.tmWaitCycles := by assumption) :
    Within g s (State.resetWin u w) := by
  unfold State.resetWin
  extract_lets s1 s2 s3
  have h1 : Within g s s1 := Within.ite (State.abortStep_within p_prep p_bar0 p_cmd p_castMem p_tile p_spans p_upd p_coll p_tier p_store h) h
  have h2 : Within g s s2 := Within.foldl (fun _ _ hv => State.discard_within p_cmd hv) h1
  exact State.windowNotice_within p_cmd (State.updWin_within p_cmd (State.clearSlots_within p_bar0 p_cmd h2) _ _ fun x hx =>
    x.restartAudit_length.symm ▸ hx)

theorem execCwReset_within {src : Src} {w : Fin 8} (p_prep : Part.prep ∈ g.parts) (p_bar0 : Part.bar0 ∈ g.parts) (p_cmd : Part.cmd ∈ g.parts) (p_castMem : Part.castMem ∈ g.parts) (p_tile : Part.tile ∈ g.parts) (p_spans : Part.spans ∈ g.parts) (p_upd : Part.upd ∈ g.parts) (p_coll : Part.coll ∈ g.parts) (p_tier : Part.tier ∈ g.parts) (p_store : Part.store ∈ g.parts) (h : Within g s u) (k_actMode : g.keys Obj.actMode := by assumption) (k_actStep : g.keys Obj.actStep := by assumption) (k_collMismatchCycles : g.keys Obj.collMismatchCycles := by assumption) (k_decState : ∀ n, g.keys (Obj.decState n) := by assumption) (k_dictRejected : g.keys Obj.dictRejected := by assumption) (k_groupState : g.keys Obj.groupState := by assumption) (k_prepEpoch : g.keys Obj.prepEpoch := by assumption) (k_prepStep : g.keys Obj.prepStep := by assumption) (k_tmWaitCycles : g.keys Obj.tmWaitCycles := by assumption) :
    Leads g s (execCwReset src w u) := by
  unfold execCwReset
  exact Leads.next (State.writeControl_within (fun x1 h2 => (State.resetWin_within p_prep p_bar0 p_cmd p_castMem p_tile p_spans p_upd p_coll p_tier p_store h2)) h)

theorem State.tileEntry_within {x : Nat} {cause : Nat} (p_start : Part.start ∈ g.parts) (h : Within g s u) :
    Within g s (State.tileEntry u x cause) := by
  unfold State.tileEntry
  exact Within.ite h (State.raiseKept_within (State.fieldEntry_within p_start h))

theorem State.fabricParity_within {network : Nat} {tile : Option Nat} {tree : Nat} (p_prep : Part.prep ∈ g.parts) (p_bar0 : Part.bar0 ∈ g.parts) (p_cmd : Part.cmd ∈ g.parts) (p_castMem : Part.castMem ∈ g.parts) (p_tile : Part.tile ∈ g.parts) (p_spans : Part.spans ∈ g.parts) (p_upd : Part.upd ∈ g.parts) (p_link : Part.link ∈ g.parts) (p_coll : Part.coll ∈ g.parts) (p_tier : Part.tier ∈ g.parts) (p_store : Part.store ∈ g.parts) (p_cross : Part.cross ∈ g.parts) (p_start : Part.start ∈ g.parts) (h : Within g s u) (k_actMode : g.keys Obj.actMode := by assumption) (k_actStep : g.keys Obj.actStep := by assumption) (k_collBytesTx : g.keys Obj.collBytesTx := by assumption) (k_collMismatchCycles : g.keys Obj.collMismatchCycles := by assumption) (k_decState : ∀ n, g.keys (Obj.decState n) := by assumption) (k_fabricParity : g.keys Obj.fabricParity := by assumption) (k_flitsTx : ∀ n, g.keys (Obj.flitsTx n) := by assumption) (k_groupState : g.keys Obj.groupState := by assumption) (k_prepEpoch : g.keys Obj.prepEpoch := by assumption) (k_prepStep : g.keys Obj.prepStep := by assumption) (k_tmWaitCycles : g.keys Obj.tmWaitCycles := by assumption) :
    Within g s (State.fabricParity u network tile tree) := by
  unfold State.fabricParity
  extract_lets +onlyGivenNames -underBinder -merge s1
  have h2 : Within g s s1 := (by
    unfold s1
    split
    · exact State.raise_within h
    · exact State.raise_within h)
  extract_lets +onlyGivenNames -underBinder -merge s6
  have h7 : Within g s s6 := (State.countSat_within h2)
  extract_lets +onlyGivenNames -underBinder -merge s8
  have h9 : Within g s s8 := (by
    unfold s8
    split
    · extract_lets +onlyGivenNames -underBinder -merge n12
      extract_lets +onlyGivenNames -underBinder -merge _ s13
      have h14 : Within g s s13 := (Within.setTile p_tile h7 rfl rfl)
      exact Within.ite (State.tileEntry_within p_start h14) h14
    · exact h7)
  exact State.abortAnnounce_within p_prep p_bar0 p_cmd p_castMem p_tile p_spans p_upd p_link p_coll p_tier p_store p_cross h9

theorem execFabricParity_within {network : Nat} {tile : Option Nat} {tree : Nat} (p_prep : Part.prep ∈ g.parts) (p_bar0 : Part.bar0 ∈ g.parts) (p_cmd : Part.cmd ∈ g.parts) (p_castMem : Part.castMem ∈ g.parts) (p_tile : Part.tile ∈ g.parts) (p_spans : Part.spans ∈ g.parts) (p_upd : Part.upd ∈ g.parts) (p_link : Part.link ∈ g.parts) (p_coll : Part.coll ∈ g.parts) (p_tier : Part.tier ∈ g.parts) (p_store : Part.store ∈ g.parts) (p_cross : Part.cross ∈ g.parts) (p_start : Part.start ∈ g.parts) (h : Within g s u) (k_actMode : g.keys Obj.actMode := by assumption) (k_actStep : g.keys Obj.actStep := by assumption) (k_collBytesTx : g.keys Obj.collBytesTx := by assumption) (k_collMismatchCycles : g.keys Obj.collMismatchCycles := by assumption) (k_decState : ∀ n, g.keys (Obj.decState n) := by assumption) (k_fabricParity : g.keys Obj.fabricParity := by assumption) (k_flitsTx : ∀ n, g.keys (Obj.flitsTx n) := by assumption) (k_groupState : g.keys Obj.groupState := by assumption) (k_prepEpoch : g.keys Obj.prepEpoch := by assumption) (k_prepStep : g.keys Obj.prepStep := by assumption) (k_tmWaitCycles : g.keys Obj.tmWaitCycles := by assumption) :
    Leads g s (execFabricParity network tile tree u) := by
  unfold execFabricParity
  exact Leads.next (State.fabricParity_within p_prep p_bar0 p_cmd p_castMem p_tile p_spans p_upd p_link p_coll p_tier p_store p_cross p_start h)

end Sys2Proof.Machine
end

