-- ==== Sys2Proof/Laws/WithinTier.lean ====
section
/-! SUPPORT. What each operation of Machine/Tier.lean may change, and that it keeps the form of the state. -/
namespace Sys2Proof.Machine
set_option Elab.async false

variable {g : Scope} {s u : State}

theorem State.setLender_within {n : Nat} {x : Lender} (p_tier : Part.tier ∈ g.parts) (h : Within g s u) :
    Within g s (State.setLender u n x) := by
  unfold State.setLender
  split
  · exact Within.setTier p_tier h rfl id
  · exact Within.setTier p_tier h rfl id
  · exact Within.setTier p_tier h rfl id

theorem State.mapTo_within {h1 : Nat} {p2 : Nat} {x : Nat} (p_tier : Part.tier ∈ g.parts) (h : Within g s u) :
    Within g s (State.mapTo u h1 p2 x) := by
  unfold State.mapTo
  exact Within.setTier p_tier h rfl id

theorem State.unmapPage_within {h1 : Nat} {p2 : Nat} (p_tier : Part.tier ∈ g.parts) (h : Within g s u) :
    Within g s (State.unmapPage u h1 p2) := by
  unfold State.unmapPage
  exact Within.setTier p_tier h rfl id

theorem State.startMove_within {h1 : Nat} {p2 : Nat} {dst : Home} {why : MoveFor} (p_tier : Part.tier ∈ g.parts) (h : Within g s u) :
    Within g s (State.startMove u h1 p2 dst why) := by
  unfold State.startMove
  exact State.updPage_within p_tier h

theorem State.discardPage_within {h1 : Nat} {p2 : Nat} (p_tier : Part.tier ∈ g.parts) (h : Within g s u) (k_tmDiscards : g.keys Obj.tmDiscards := by assumption) :
    Within g s (State.discardPage u h1 p2) := by
  unfold State.discardPage
  exact State.count_within (State.unmapPage_within p_tier (State.updPage_within p_tier h))

theorem State.loseState_within (p_coll : Part.coll ∈ g.parts) (h : Within g s u) :
    Within g s (State.loseState u) := by
  unfold State.loseState
  extract_lets +onlyGivenNames -underBinder -merge s1
  have h2 : Within g s s1 := (State.raise_within h)
  exact Within.setColl p_coll h2

theorem State.layerFault_within {l : Nat} (p_cmd : Part.cmd ∈ g.parts) (p_upd : Part.upd ∈ g.parts) (h : Within g s u) :
    Within g s (State.layerFault u l) := by
  unfold State.layerFault
  extract_lets +onlyGivenNames -underBinder -merge n1
  extract_lets +onlyGivenNames -underBinder -merge s2
  have h3 : Within g s s2 := (Within.foldl (fun x4 x5 h6 => (State.unitDone_within p_cmd h6)) h)
  exact Within.setUpd p_upd h3

theorem State.classResponse_within {h1 : Nat} {p2 : Nat} {cls : Nat} (p_prep : Part.prep ∈ g.parts) (p_bar0 : Part.bar0 ∈ g.parts) (p_cmd : Part.cmd ∈ g.parts) (p_castMem : Part.castMem ∈ g.parts) (p_tile : Part.tile ∈ g.parts) (p_spans : Part.spans ∈ g.parts) (p_upd : Part.upd ∈ g.parts) (p_link : Part.link ∈ g.parts) (p_coll : Part.coll ∈ g.parts) (p_tier : Part.tier ∈ g.parts) (p_store : Part.store ∈ g.parts) (p_cross : Part.cross ∈ g.parts) (h : Within g s u) (k_actMode : g.keys Obj.actMode := by assumption) (k_actStep : g.keys Obj.actStep := by assumption) (k_collBytesTx : g.keys Obj.collBytesTx := by assumption) (k_collMismatchCycles : g.keys Obj.collMismatchCycles := by assumption) (k_decState : ∀ n, g.keys (Obj.decState n) := by assumption) (k_flitsTx : ∀ n, g.keys (Obj.flitsTx n) := by assumption) (k_groupState : g.keys Obj.groupState := by assumption) (k_prepEpoch : g.keys Obj.prepEpoch := by assumption) (k_prepStep : g.keys Obj.prepStep := by assumption) (k_tmDiscards : g.keys Obj.tmDiscards := by assumption) (k_tmWaitCycles : g.keys Obj.tmWaitCycles := by assumption) :
    Within g s (State.classResponse u h1 p2 cls) := by
  unfold State.classResponse
  exact Within.ite (State.discardPage_within p_tier h) (Within.ite (State.abortAnnounce_within p_prep p_bar0 p_cmd p_castMem p_tile p_spans p_upd p_link p_coll p_tier p_store p_cross h) (Within.ite (State.abortAnnounce_within p_prep p_bar0 p_cmd p_castMem p_tile p_spans p_upd p_link p_coll p_tier p_store p_cross (Within.setUpd p_upd h)) (Within.ite (State.loseState_within p_coll (Within.foldl (fun x1 x2 h3 => (State.layerFault_within p_cmd p_upd h3)) h)) h)))

theorem State.evictOne_within {t1 : Nat} (p_tier : Part.tier ∈ g.parts) (h : Within g s u) (k_tmEvictions : g.keys Obj.tmEvictions := by assumption) :
    Within g s (State.evictOne u t1).1 := by
  unfold State.evictOne
  split
  · exact Within.fst h
  · split
    · exact Within.fst h
    · exact Within.fst (State.count_within (State.updPage_within p_tier h))
    · exact Within.fst (State.startMove_within p_tier h)

theorem State.evictFor_within {t1 : Nat} {n : Nat} (p_tier : Part.tier ∈ g.parts) (h : Within g s u) (k_tmEvictions : g.keys Obj.tmEvictions := by assumption) :
    Within g s (State.evictFor u t1 n).1 := by
  unfold State.evictFor
  exact Within.foldlFst (fun x1 x2 h3 => (Within.iteFst (State.evictOne_within p_tier h3) h3)) (Within.fst h)

theorem State.setEvicting_within {t1 : Nat} {b : Bool} (p_tier : Part.tier ∈ g.parts) (h : Within g s u) :
    Within g s (State.setEvicting u t1 b) := by
  unfold State.setEvicting
  exact Within.ite (Within.setTier p_tier h rfl id) (Within.setTier p_tier h rfl id)

theorem State.eviction_within {t1 : Nat} (p_tier : Part.tier ∈ g.parts) (h : Within g s u) (k_tmEvictions : g.keys Obj.tmEvictions := by assumption) :
    Within g s (State.eviction u t1) := by
  unfold State.eviction
  extract_lets +onlyGivenNames -underBinder -merge n1
  exact Within.ite h (Within.ite (State.endEpisode_within (State.setEvicting_within p_tier h)) (Within.ite (by
    split
    · next _ _ _ y5 =>
      exact Within.ite (State.setEvicting_within p_tier (Within.pair (State.evictOne_within p_tier h) y5)) (State.raiseOnce_within (State.setEvicting_within p_tier (Within.pair (State.evictOne_within p_tier h) y5)))) h))

theorem execEviction_within {upper : Bool} (p_tier : Part.tier ∈ g.parts) (h : Within g s u) (k_tmEvictions : g.keys Obj.tmEvictions := by assumption) :
    Leads g s (execEviction upper u) := by
  unfold execEviction
  exact Leads.next (State.eviction_within p_tier h)

theorem State.retirePhys_within {x : Nat} (p_tier : Part.tier ∈ g.parts) (p_start : Part.start ∈ g.parts) (h : Within g s u) (k_chRetired : ∀ n, g.keys (Obj.chRetired n) := by assumption) (k_sparePages : g.keys Obj.sparePages := by assumption) (k_t1PoolPages : g.keys Obj.t1PoolPages := by assumption) :
    Within g s (State.retirePhys u x) := by
  unfold State.retirePhys
  exact Within.ite h (by
    extract_lets +onlyGivenNames -underBinder -merge _ s1
    have h2 : Within g s s1 := (Within.setTier p_tier h rfl id)
    extract_lets +onlyGivenNames -underBinder -merge s3
    have h4 : Within g s s3 := (State.wr_within h2 _ _)
    extract_lets +onlyGivenNames -underBinder -merge n5
    exact Within.ite (by
      extract_lets +onlyGivenNames -underBinder -merge s6
      have h7 : Within g s s6 := (State.wr_within h4 _ _)
      exact Within.ite (State.lifeExceed_within p_start h7) h7) (by
      extract_lets +onlyGivenNames -underBinder -merge s8
      have h9 : Within g s s8 := (State.wr_within h4 _ _)
      exact Within.ite (State.lifeWarn_within p_start (State.raiseOnce_within h9)) h9))

theorem State.enterRetire_within {x : Nat} {h2 : Nat} {p3 : Nat} (p_tier : Part.tier ∈ g.parts) (p_start : Part.start ∈ g.parts) (h : Within g s u) (k_chRetired : ∀ n, g.keys (Obj.chRetired n) := by assumption) (k_sparePages : g.keys Obj.sparePages := by assumption) (k_t1PoolPages : g.keys Obj.t1PoolPages := by assumption) :
    Within g s (State.enterRetire u x h2 p3) := by
  unfold State.enterRetire
  split
  · exact State.retirePhys_within p_tier p_start h
  · extract_lets +onlyGivenNames -underBinder -merge n6
    exact Within.ite h (Within.ite (Within.setTier p_tier h rfl id) (Within.ite (State.startMove_within p_tier h) (State.retirePhys_within p_tier p_start h)))

theorem State.tellBad_within {x : Nat} {cls : Nat} {h3 : Nat} {p4 : Nat} (h : Within g s u) :
    Within g s (State.tellBad u x cls h3 p4) := by
  unfold State.tellBad
  exact State.raise_within h

theorem State.failReaders_within {h1 : Nat} {p2 : Nat} {cls : Nat} (p_prep : Part.prep ∈ g.parts) (p_bar0 : Part.bar0 ∈ g.parts) (p_cmd : Part.cmd ∈ g.parts) (p_castMem : Part.castMem ∈ g.parts) (p_tile : Part.tile ∈ g.parts) (p_spans : Part.spans ∈ g.parts) (p_upd : Part.upd ∈ g.parts) (p_link : Part.link ∈ g.parts) (p_coll : Part.coll ∈ g.parts) (p_tier : Part.tier ∈ g.parts) (p_store : Part.store ∈ g.parts) (p_cross : Part.cross ∈ g.parts) (p_start : Part.start ∈ g.parts) (h : Within g s u) (k_actMode : g.keys Obj.actMode := by assumption) (k_actStep : g.keys Obj.actStep := by assumption) (k_chRetired : ∀ n, g.keys (Obj.chRetired n) := by assumption) (k_collBytesTx : g.keys Obj.collBytesTx := by assumption) (k_collMismatchCycles : g.keys Obj.collMismatchCycles := by assumption) (k_decState : ∀ n, g.keys (Obj.decState n) := by assumption) (k_flitsTx : ∀ n, g.keys (Obj.flitsTx n) := by assumption) (k_groupState : g.keys Obj.groupState := by assumption) (k_prepEpoch : g.keys Obj.prepEpoch := by assumption) (k_prepStep : g.keys Obj.prepStep := by assumption) (k_sparePages : g.keys Obj.sparePages := by assumption) (k_t1PoolPages : g.keys Obj.t1PoolPages := by assumption) (k_tmDiscards : g.keys Obj.tmDiscards := by assumption) (k_tmWaitCycles : g.keys Obj.tmWaitCycles := by assumption) :
    Within g s (State.failReaders u h1 p2 cls) := by
  unfold State.failReaders
  extract_lets +onlyGivenNames -underBinder -merge n1
  exact Within.ite h (by
    extract_lets +onlyGivenNames -underBinder -merge n2
    extract_lets +onlyGivenNames -underBinder -merge n3
    extract_lets +onlyGivenNames -underBinder -merge n4
    extract_lets +onlyGivenNames -underBinder -merge s5
    have h6 : Within g s s5 := (State.tellBad_within (Within.foldl (fun x7 x8 h9 => (State.hitStatus_within p_cmd (State.endPageWait_within p_tier h9))) h))
    exact Within.ite (Within.ite (State.retirePhys_within p_tier p_start (State.discardPage_within p_tier h6)) (State.discardPage_within p_tier h6)) (by
      extract_lets +onlyGivenNames -underBinder -merge s10
      have h11 : Within g s s10 := (Within.ite (State.enterRetire_within p_tier p_start h6) h6)
      exact Within.ite (State.loseState_within p_coll (Within.foldl (fun x12 x13 h14 => (State.layerFault_within p_cmd p_upd h14)) h11)) (State.classResponse_within p_prep p_bar0 p_cmd p_castMem p_tile p_spans p_upd p_link p_coll p_tier p_store p_cross h11)))

theorem State.moveNext_within {key : Nat} {status : Nat} (p_tier : Part.tier ∈ g.parts) (h : Within g s u) :
    Within g s (State.moveNext u key status) := by
  unfold State.moveNext
  split
  · exact h
  · extract_lets +onlyGivenNames -underBinder -merge n6
    exact Within.setTier p_tier h rfl id

theorem State.recallDone_within {n : Nat} (p_link : Part.link ∈ g.parts) (p_coll : Part.coll ∈ g.parts) (p_tier : Part.tier ∈ g.parts) (p_cross : Part.cross ∈ g.parts) (h : Within g s u) (k_collBytesTx : g.keys Obj.collBytesTx := by assumption) (k_flitsTx : ∀ n, g.keys (Obj.flitsTx n) := by assumption) (k_lenderKey : ∀ n, g.keys (lenderKey n) := by assumption) :
    Within g s (State.recallDone u n) := by
  unfold State.recallDone
  exact Within.ite (by
    extract_lets +onlyGivenNames -underBinder -merge s1
    have h2 : Within g s s1 := (State.setLender_within p_tier (State.wr_within h _ _))
    exact Within.ite (State.send_within p_link p_coll p_cross h2) h2) h

theorem State.retireWaiting_within {h1 : Nat} {p2 : Nat} {left : Bool} (p_tier : Part.tier ∈ g.parts) (p_start : Part.start ∈ g.parts) (h : Within g s u) (k_chRetired : ∀ n, g.keys (Obj.chRetired n) := by assumption) (k_sparePages : g.keys Obj.sparePages := by assumption) (k_t1PoolPages : g.keys Obj.t1PoolPages := by assumption) :
    Within g s (State.retireWaiting u h1 p2 left) := by
  unfold State.retireWaiting
  extract_lets +onlyGivenNames -underBinder -merge n1
  extract_lets +onlyGivenNames -underBinder -merge _ s2
  have h3 : Within g s s2 := (Within.setTier p_tier h rfl id)
  exact Within.foldl (fun x4 x5 h6 => (Within.ite (State.retirePhys_within p_tier p_start h6) (State.enterRetire_within p_tier p_start h6))) h3

theorem State.sendPage_within {dst : Nat} {n : Nat} {bs : Bytes} (p_link : Part.link ∈ g.parts) (p_coll : Part.coll ∈ g.parts) (p_cross : Part.cross ∈ g.parts) (h : Within g s u) (k_collBytesTx : g.keys Obj.collBytesTx := by assumption) (k_flitsTx : ∀ n, g.keys (Obj.flitsTx n) := by assumption) :
    Within g s (State.sendPage u dst n bs) := by
  unfold State.sendPage
  exact Within.foldl (fun x1 x2 h3 => (by
    extract_lets +onlyGivenNames -underBinder -merge n4
    exact State.send_within p_link p_coll p_cross h3)) h

theorem State.moveLands_within {h1 : Nat} {p2 : Nat} {m : PageMove} {src : Home} {phys : Nat} (p_link : Part.link ∈ g.parts) (p_coll : Part.coll ∈ g.parts) (p_tier : Part.tier ∈ g.parts) (p_store : Part.store ∈ g.parts) (p_cross : Part.cross ∈ g.parts) (p_start : Part.start ∈ g.parts) (p_free : Part.free ∈ g.parts) (h : Within g s u) (k_chRetired : ∀ n, g.keys (Obj.chRetired n) := by assumption) (k_collBytesTx : g.keys Obj.collBytesTx := by assumption) (k_flitsTx : ∀ n, g.keys (Obj.flitsTx n) := by assumption) (k_lenderKey : ∀ n, g.keys (lenderKey n) := by assumption) (k_sparePages : g.keys Obj.sparePages := by assumption) (k_stReadBytes : g.keys Obj.stReadBytes := by assumption) (k_t1PoolPages : g.keys Obj.t1PoolPages := by assumption) (k_tmEvictions : g.keys Obj.tmEvictions := by assumption) (k_tmMoves : g.keys Obj.tmMoves := by assumption) :
    Within g s (State.moveLands u h1 p2 m src phys) := by
  unfold State.moveLands
  extract_lets +onlyGivenNames -underBinder -merge s1
  have h2 : Within g s s1 := (Within.ite (State.readGeneral_within p_store p_free h) h)
  extract_lets +onlyGivenNames -underBinder -merge s3
  have h4 : Within g s s3 := (State.count_within (State.updPage_within p_tier h2))
  extract_lets +onlyGivenNames -underBinder -merge s5
  have h6 : Within g s s5 := (Within.ite (State.mapTo_within p_tier h4) (State.unmapPage_within p_tier h4))
  extract_lets +onlyGivenNames -underBinder -merge _ s7
  have h8 : Within g s s7 := (Within.setStore p_store h6 rfl)
  extract_lets +onlyGivenNames -underBinder -merge _ s9
  have h10 : Within g s s9 := (Within.ite h8 (Within.setStore p_store h8 rfl))
  extract_lets +onlyGivenNames -underBinder -merge s11
  have h12 : Within g s s11 := (Within.ite (State.sendPage_within p_link p_coll p_cross h10) h10)
  extract_lets +onlyGivenNames -underBinder -merge s13
  have h14 : Within g s s13 := (by
    unfold s13
    split
    · exact State.count_within h12
    · exact State.retirePhys_within p_tier p_start h12
    · exact State.moveNext_within p_tier h12
    · exact h12)
  extract_lets +onlyGivenNames -underBinder -merge s25
  have h26 : Within g s s25 := (State.retireWaiting_within p_tier p_start h14)
  exact State.recallDone_within p_link p_coll p_tier p_cross h26

theorem State.moveAbandoned_within {h1 : Nat} {p2 : Nat} {m : PageMove} {cls : Nat} {t5 : Nat} (p_prep : Part.prep ∈ g.parts) (p_bar0 : Part.bar0 ∈ g.parts) (p_cmd : Part.cmd ∈ g.parts) (p_castMem : Part.castMem ∈ g.parts) (p_tile : Part.tile ∈ g.parts) (p_spans : Part.spans ∈ g.parts) (p_upd : Part.upd ∈ g.parts) (p_link : Part.link ∈ g.parts) (p_coll : Part.coll ∈ g.parts) (p_tier : Part.tier ∈ g.parts) (p_store : Part.store ∈ g.parts) (p_cross : Part.cross ∈ g.parts) (p_start : Part.start ∈ g.parts) (h : Within g s u) (k_actMode : g.keys Obj.actMode := by assumption) (k_actStep : g.keys Obj.actStep := by assumption) (k_chRetired : ∀ n, g.keys (Obj.chRetired n) := by assumption) (k_collBytesTx : g.keys Obj.collBytesTx := by assumption) (k_collMismatchCycles : g.keys Obj.collMismatchCycles := by assumption) (k_decState : ∀ n, g.keys (Obj.decState n) := by assumption) (k_flitsTx : ∀ n, g.keys (Obj.flitsTx n) := by assumption) (k_groupState : g.keys Obj.groupState := by assumption) (k_prepEpoch : g.keys Obj.prepEpoch := by assumption) (k_prepStep : g.keys Obj.prepStep := by assumption) (k_sparePages : g.keys Obj.sparePages := by assumption) (k_t1PoolPages : g.keys Obj.t1PoolPages := by assumption) (k_tmDiscards : g.keys Obj.tmDiscards := by assumption) (k_tmEvictions : g.keys Obj.tmEvictions := by assumption) (k_tmWaitCycles : g.keys Obj.tmWaitCycles := by assumption) :
    Within g s (State.moveAbandoned u h1 p2 m cls t5) := by
  unfold State.moveAbandoned
  extract_lets +onlyGivenNames -underBinder -merge s1
  have h2 : Within g s s1 := (State.raise_within h)
  extract_lets +onlyGivenNames -underBinder -merge s3
  have h4 : Within g s s3 := (by
    unfold s3
    split
    · exact State.evictOne_within p_tier h2
    · exact State.moveNext_within p_tier h2
    · exact h2)
  exact State.retireWaiting_within p_tier p_start (State.failReaders_within p_prep p_bar0 p_cmd p_castMem p_tile p_spans p_upd p_link p_coll p_tier p_store p_cross p_start (State.updPage_within p_tier h4))

theorem State.moveFails_within {h1 : Nat} {p2 : Nat} {m : PageMove} {cls : Nat} {t5 : Nat} (p_prep : Part.prep ∈ g.parts) (p_bar0 : Part.bar0 ∈ g.parts) (p_cmd : Part.cmd ∈ g.parts) (p_castMem : Part.castMem ∈ g.parts) (p_tile : Part.tile ∈ g.parts) (p_spans : Part.spans ∈ g.parts) (p_upd : Part.upd ∈ g.parts) (p_link : Part.link ∈ g.parts) (p_coll : Part.coll ∈ g.parts) (p_tier : Part.tier ∈ g.parts) (p_store : Part.store ∈ g.parts) (p_cross : Part.cross ∈ g.parts) (p_start : Part.start ∈ g.parts) (h : Within g s u) (k_actMode : g.keys Obj.actMode := by assumption) (k_actStep : g.keys Obj.actStep := by assumption) (k_chRetired : ∀ n, g.keys (Obj.chRetired n) := by assumption) (k_collBytesTx : g.keys Obj.collBytesTx := by assumption) (k_collMismatchCycles : g.keys Obj.collMismatchCycles := by assumption) (k_decState : ∀ n, g.keys (Obj.decState n) := by assumption) (k_flitsTx : ∀ n, g.keys (Obj.flitsTx n) := by assumption) (k_groupState : g.keys Obj.groupState := by assumption) (k_prepEpoch : g.keys Obj.prepEpoch := by assumption) (k_prepStep : g.keys Obj.prepStep := by assumption) (k_sparePages : g.keys Obj.sparePages := by assumption) (k_t1PoolPages : g.keys Obj.t1PoolPages := by assumption) (k_tmDiscards : g.keys Obj.tmDiscards := by assumption) (k_tmEvictions : g.keys Obj.tmEvictions := by assumption) (k_tmWaitCycles : g.keys Obj.tmWaitCycles := by assumption) :
    Within g s (State.moveFails u h1 p2 m cls t5) := by
  unfold State.moveFails
  exact Within.ite (State.moveAbandoned_within p_prep p_bar0 p_cmd p_castMem p_tile p_spans p_upd p_link p_coll p_tier p_store p_cross p_start h) (State.updPage_within p_tier h)

theorem State.dstLost_within {h1 : Nat} {p2 : Nat} {m : PageMove} {cls : Nat} {t5 : Nat} (p_prep : Part.prep ∈ g.parts) (p_bar0 : Part.bar0 ∈ g.parts) (p_cmd : Part.cmd ∈ g.parts) (p_castMem : Part.castMem ∈ g.parts) (p_tile : Part.tile ∈ g.parts) (p_spans : Part.spans ∈ g.parts) (p_upd : Part.upd ∈ g.parts) (p_link : Part.link ∈ g.parts) (p_coll : Part.coll ∈ g.parts) (p_tier : Part.tier ∈ g.parts) (p_store : Part.store ∈ g.parts) (p_cross : Part.cross ∈ g.parts) (p_start : Part.start ∈ g.parts) (h : Within g s u) (k_actMode : g.keys Obj.actMode := by assumption) (k_actStep : g.keys Obj.actStep := by assumption) (k_chRetired : ∀ n, g.keys (Obj.chRetired n) := by assumption) (k_collBytesTx : g.keys Obj.collBytesTx := by assumption) (k_collMismatchCycles : g.keys Obj.collMismatchCycles := by assumption) (k_decState : ∀ n, g.keys (Obj.decState n) := by assumption) (k_flitsTx : ∀ n, g.keys (Obj.flitsTx n) := by assumption) (k_groupState : g.keys Obj.groupState := by assumption) (k_prepEpoch : g.keys Obj.prepEpoch := by assumption) (k_prepStep : g.keys Obj.prepStep := by assumption) (k_sparePages : g.keys Obj.sparePages := by assumption) (k_t1PoolPages : g.keys Obj.t1PoolPages := by assumption) (k_tmDiscards : g.keys Obj.tmDiscards := by assumption) (k_tmEvictions : g.keys Obj.tmEvictions := by assumption) (k_tmWaitCycles : g.keys Obj.tmWaitCycles := by assumption) :
    Within g s (State.dstLost u h1 p2 m cls t5) := by
  unfold State.dstLost
  split
  · exact Within.ite (State.moveAbandoned_within p_prep p_bar0 p_cmd p_castMem p_tile p_spans p_upd p_link p_coll p_tier p_store p_cross p_start h) (State.updPage_within p_tier h)
  · exact State.moveAbandoned_within p_prep p_bar0 p_cmd p_castMem p_tile p_spans p_upd p_link p_coll p_tier p_store p_cross p_start h

theorem State.pageMoveDone_within {h1 : Nat} {p2 : Nat} {good : Bool} {phys : Nat} (p_prep : Part.prep ∈ g.parts) (p_bar0 : Part.bar0 ∈ g.parts) (p_cmd : Part.cmd ∈ g.parts) (p_castMem : Part.castMem ∈ g.parts) (p_tile : Part.tile ∈ g.parts) (p_spans : Part.spans ∈ g.parts) (p_upd : Part.upd ∈ g.parts) (p_link : Part.link ∈ g.parts) (p_coll : Part.coll ∈ g.parts) (p_tier : Part.tier ∈ g.parts) (p_store : Part.store ∈ g.parts) (p_cross : Part.cross ∈ g.parts) (p_start : Part.start ∈ g.parts) (p_free : Part.free ∈ g.parts) (h : Within g s u) (k_actMode : g.keys Obj.actMode := by assumption) (k_actStep : g.keys Obj.actStep := by assumption) (k_chRetired : ∀ n, g.keys (Obj.chRetired n) := by assumption) (k_collBytesTx : g.keys Obj.collBytesTx := by assumption) (k_collMismatchCycles : g.keys Obj.collMismatchCycles := by assumption) (k_decState : ∀ n, g.keys (Obj.decState n) := by assumption) (k_flitsTx : ∀ n, g.keys (Obj.flitsTx n) := by assumption) (k_groupState : g.keys Obj.groupState := by assumption) (k_lenderKey : ∀ n, g.keys (lenderKey n) := by assumption) (k_prepEpoch : g.keys Obj.prepEpoch := by assumption) (k_prepStep : g.keys Obj.prepStep := by assumption) (k_sparePages : g.keys Obj.sparePages := by assumption) (k_stReadBytes : g.keys Obj.stReadBytes := by assumption) (k_t1PoolPages : g.keys Obj.t1PoolPages := by assumption) (k_tmDiscards : g.keys Obj.tmDiscards := by assumption) (k_tmEvictions : g.keys Obj.tmEvictions := by assumption) (k_tmMoveRetries : g.keys Obj.tmMoveRetries := by assumption) (k_tmMoves : g.keys Obj.tmMoves := by assumption) (k_tmRefetches : g.keys Obj.tmRefetches := by assumption) (k_tmWaitCycles : g.keys Obj.tmWaitCycles := by assumption) :
    Within g s (State.pageMoveDone u h1 p2 good phys) := by
  unfold State.pageMoveDone
  split
  · exact h
  · extract_lets +onlyGivenNames -underBinder -merge n6
    split
    · exact Within.ite h (Within.ite (State.moveLands_within p_link p_coll p_tier p_store p_cross p_start p_free h) (Within.ite (State.countSat_within (State.updPage_within p_tier h)) (by
        extract_lets +onlyGivenNames -underBinder -merge s10
        have h11 : Within g s s10 := (Within.ite (State.retirePhys_within p_tier p_start h) h)
        exact State.moveFails_within p_prep p_bar0 p_cmd p_castMem p_tile p_spans p_upd p_link p_coll p_tier p_store p_cross p_start h11)))
    · exact Within.ite (by
        split
        · exact State.count_within (State.mapTo_within p_tier (State.updPage_within p_tier h))
        · exact State.evictOne_within p_tier h) h

theorem onUnit_within {w : Fin 8} {q : Nat} {kind : Nat} {op : Nat} {f : QEntry → State} (hf5 : ∀ v0, Within g s (f v0)) (h : Within g s u) :
    Leads g s (onUnit w q kind op u f) := by
  unfold onUnit
  split
  · exact Leads.ite (Leads.next (hf5 _)) (Leads.next h)
  · exact Leads.next h

theorem State.tierFull_within {w : Nat} {e : QEntry} (p_cmd : Part.cmd ∈ g.parts) (h : Within g s u) :
    Within g s (State.tierFull u w e) := by
  unfold State.tierFull
  exact State.haltWin_within p_cmd (State.unitDone_within p_cmd h)

theorem State.tierCreate_within {w : Nat} {e : QEntry} (p_cmd : Part.cmd ∈ g.parts) (p_tier : Part.tier ∈ g.parts) (h : Within g s u) (k_tmEvictions : g.keys Obj.tmEvictions := by assumption) :
    Within g s (State.tierCreate u w e) := by
  unfold State.tierCreate
  extract_lets +onlyGivenNames -underBinder -merge n1
  extract_lets +onlyGivenNames -underBinder -merge n2
  exact Within.ite (State.tierFull_within p_cmd h) (Within.ite (State.unitDone_within p_cmd (State.setRegion_within p_tier h)) (by
    extract_lets +onlyGivenNames -underBinder -merge n3
    split
    · next _ _ _ y7 =>
      exact Within.ite (Within.pair (Within.iteFst (Within.fst h) (State.evictFor_within p_tier h)) y7) (Within.ite (State.tierFull_within p_cmd h) (State.tierFull_within p_cmd (State.raise_within h)))))

theorem execTierCreate_within {w : Fin 8} {q : Nat} (p_cmd : Part.cmd ∈ g.parts) (p_tier : Part.tier ∈ g.parts) (h : Within g s u) (k_tmEvictions : g.keys Obj.tmEvictions := by assumption) :
    Leads g s (execTierCreate w q u) := by
  unfold execTierCreate
  exact onUnit_within (fun x1 => (State.tierCreate_within p_cmd p_tier h)) h

theorem State.clearCatalogue_within {h1 : Nat} (p_store : Part.store ∈ g.parts) (h : Within g s u) (k_ckptDigest : ∀ n, g.keys (Obj.ckptDigest n) := by assumption) (k_ckptHandle : ∀ n, g.keys (Obj.ckptHandle n) := by assumption) (k_ckptState : ∀ n, g.keys (Obj.ckptState n) := by assumption) (k_ckptStep : ∀ n, g.keys (Obj.ckptStep n) := by assumption) :
    Within g s (State.clearCatalogue u h1) := by
  unfold State.clearCatalogue
  exact Within.foldl (fun x1 x2 h3 => (by
    extract_lets +onlyGivenNames -underBinder -merge n4
    exact Within.ite (by
      extract_lets +onlyGivenNames -underBinder -merge s5
      have h6 : Within g s s5 := (State.wr_within (State.wr_within (State.wr_within (State.wr_within h3 _ _) _ _) _ _) _ _)
      exact Within.setStore p_store h6 rfl) h3)) h

theorem State.dropRegion_within {h1 : Nat} (p_upd : Part.upd ∈ g.parts) (p_mem : Part.mem ∈ g.parts) (p_tier : Part.tier ∈ g.parts) (p_store : Part.store ∈ g.parts) (h : Within g s u) (k_ckptDigest : ∀ n, g.keys (Obj.ckptDigest n) := by assumption) (k_ckptHandle : ∀ n, g.keys (Obj.ckptHandle n) := by assumption) (k_ckptState : ∀ n, g.keys (Obj.ckptState n) := by assumption) (k_ckptStep : ∀ n, g.keys (Obj.ckptStep n) := by assumption) :
    Within g s (State.dropRegion u h1) := by
  unfold State.dropRegion
  refine State.clearCatalogue_within p_store ?_
  exact Within.many h rfl (fun p => by cases p <;> first | exact .inr rfl | exact .inl ‹_›)
    (fun f => ⟨f.1, f.2, f.3, f.4, memClear_wf _ _ f.5, f.6, f.7, f.8, f.9, f.10, f.11, f.12⟩)

theorem State.tierFree_within {w : Nat} {e : QEntry} (p_cmd : Part.cmd ∈ g.parts) (p_upd : Part.upd ∈ g.parts) (p_mem : Part.mem ∈ g.parts) (p_tier : Part.tier ∈ g.parts) (p_store : Part.store ∈ g.parts) (h : Within g s u) (k_ckptDigest : ∀ n, g.keys (Obj.ckptDigest n) := by assumption) (k_ckptHandle : ∀ n, g.keys (Obj.ckptHandle n) := by assumption) (k_ckptState : ∀ n, g.keys (Obj.ckptState n) := by assumption) (k_ckptStep : ∀ n, g.keys (Obj.ckptStep n) := by assumption) :
    Within g s (State.tierFree u w e) := by
  unfold State.tierFree
  extract_lets +onlyGivenNames -underBinder -merge n1
  split
  · exact State.unitDone_within p_cmd h
  · exact Within.ite (State.unitDone_within p_cmd (State.dropRegion_within p_upd p_mem p_tier p_store h)) (State.setRegion_within p_tier h)

theorem execTierFree_within {w : Fin 8} {q : Nat} (p_cmd : Part.cmd ∈ g.parts) (p_upd : Part.upd ∈ g.parts) (p_mem : Part.mem ∈ g.parts) (p_tier : Part.tier ∈ g.parts) (p_store : Part.store ∈ g.parts) (h : Within g s u) (k_ckptDigest : ∀ n, g.keys (Obj.ckptDigest n) := by assumption) (k_ckptHandle : ∀ n, g.keys (Obj.ckptHandle n) := by assumption) (k_ckptState : ∀ n, g.keys (Obj.ckptState n) := by assumption) (k_ckptStep : ∀ n, g.keys (Obj.ckptStep n) := by assumption) :
    Leads g s (execTierFree w q u) := by
  unfold execTierFree
  exact onUnit_within (fun x1 => (State.tierFree_within p_cmd p_upd p_mem p_tier p_store h)) h

theorem State.tierMove_within {w : Nat} {e : QEntry} (p_cmd : Part.cmd ∈ g.parts) (p_tier : Part.tier ∈ g.parts) (h : Within g s u) (k_tmEvictions : g.keys Obj.tmEvictions := by assumption) :
    Within g s (State.tierMove u w e) := by
  unfold State.tierMove
  extract_lets +onlyGivenNames -underBinder -merge n1
  extract_lets +onlyGivenNames -underBinder -merge n2
  extract_lets +onlyGivenNames -underBinder -merge n3
  extract_lets +onlyGivenNames -underBinder -merge n4
  have h8 : ∀ v0 v1, Within g s v0 → Within g s (n4 v0 v1) := by
    intro x5 x6 h7
    unfold n4
    exact State.unitDone_within p_cmd (Within.setTier p_tier h7 rfl id)
  split
  · exact h8 _ _ h
  · split
    · exact h8 _ _ h
    · extract_lets +onlyGivenNames -underBinder -merge _ s19
      have h20 : Within g s s19 := (Within.setTier p_tier h rfl id)
      exact Within.ite h20 (by
        split
        · exact State.startMove_within p_tier h20
        · split
          · next _ _ _ y29 =>
            exact Within.ite (Within.pair (Within.iteFst (Within.fst h20) (State.evictFor_within p_tier h20)) y29) (h8 _ _ (State.raise_within h20)))

theorem execTierMove_within {w : Fin 8} {q : Nat} (p_cmd : Part.cmd ∈ g.parts) (p_tier : Part.tier ∈ g.parts) (h : Within g s u) (k_tmEvictions : g.keys Obj.tmEvictions := by assumption) :
    Leads g s (execTierMove w q u) := by
  unfold execTierMove
  exact onUnit_within (fun x1 => (State.tierMove_within p_cmd p_tier h)) h

theorem execRingConfig_within {w : Fin 8} {q : Nat} (p_cmd : Part.cmd ∈ g.parts) (p_tile : Part.tile ∈ g.parts) (h : Within g s u) :
    Leads g s (execRingConfig w q u) := by
  unfold execRingConfig
  exact onUnit_within (fun x1 => (by
    extract_lets +onlyGivenNames -underBinder -merge n2
    extract_lets +onlyGivenNames -underBinder -merge s3
    have h4 : Within g s s3 := (Within.foldl (fun x5 x6 h7 => (State.setRing_within p_tile h7)) h)
    exact State.unitDone_within p_cmd h4)) h

theorem State.openGate_within {key : Nat} (p_tier : Part.tier ∈ g.parts) (h : Within g s u) :
    Within g s (State.openGate u key) := by
  unfold State.openGate
  exact Within.setTier p_tier h rfl id

theorem State.stream_within {w : Nat} {e : QEntry} (p_tier : Part.tier ∈ g.parts) (h : Within g s u) :
    Within g s (State.stream u w e) := by
  unfold State.stream
  extract_lets +onlyGivenNames -underBinder -merge n1
  extract_lets +onlyGivenNames -underBinder -merge n2
  extract_lets +onlyGivenNames -underBinder -merge s3
  have h4 : Within g s s3 := (Within.foldl (fun x5 x6 h7 => (Within.ite h7 (Within.setTier p_tier h7 rfl id))) h)
  exact Within.ite (State.openGate_within p_tier h4) h4

theorem execStream_within {w : Fin 8} {q : Nat} (p_tier : Part.tier ∈ g.parts) (h : Within g s u) :
    Leads g s (execStream w q u) := by
  unfold execStream
  exact onUnit_within (fun x1 => (State.stream_within p_tier h)) h

theorem execStreamGateOpen_within {w : Fin 8} {q : Nat} (p_tier : Part.tier ∈ g.parts) (h : Within g s u) :
    Leads g s (execStreamGateOpen w q u) := by
  unfold execStreamGateOpen
  exact onUnit_within (fun x1 => (by
    extract_lets +onlyGivenNames -underBinder -merge n2
    exact Within.ite (State.openGate_within p_tier h) h)) h

theorem State.fillTile_within {w : Nat} {e : QEntry} {d : Tm} {t4 : Nat} {n : Nat} (p_cmd : Part.cmd ∈ g.parts) (p_scratch : Part.scratch ∈ g.parts) (p_castMem : Part.castMem ∈ g.parts) (p_tile : Part.tile ∈ g.parts) (p_tier : Part.tier ∈ g.parts) (h : Within g s u) :
    Within g s (State.fillTile u w e d t4 n) := by
  unfold State.fillTile
  extract_lets +onlyGivenNames -underBinder -merge n1
  extract_lets +onlyGivenNames -underBinder -merge n2
  extract_lets +onlyGivenNames -underBinder -merge n3
  extract_lets +onlyGivenNames -underBinder -merge s4
  have h5 : Within g s s4 := (State.putBytes_within p_scratch p_castMem h)
  extract_lets +onlyGivenNames -underBinder -merge n6
  extract_lets +onlyGivenNames -underBinder -merge s7
  have h8 : Within g s s7 := (State.setRing_within p_tile h5)
  exact Within.ite (by
    extract_lets +onlyGivenNames -underBinder -merge _ s9
    have h10 : Within g s s9 := (Within.setTier p_tier h8 rfl id)
    exact State.updEntry_within p_cmd h10) (Within.setTier p_tier h8 rfl id)

theorem State.stageFill_within {w : Nat} {e : QEntry} {t3 : Nat} (p_cmd : Part.cmd ∈ g.parts) (p_scratch : Part.scratch ∈ g.parts) (p_castMem : Part.castMem ∈ g.parts) (p_tile : Part.tile ∈ g.parts) (p_tier : Part.tier ∈ g.parts) (h : Within g s u) (k_dnBytes : g.keys Obj.dnBytes := by assumption) (k_tmStageBytes : g.keys Obj.tmStageBytes := by assumption) (k_tmWaitCycles : g.keys Obj.tmWaitCycles := by assumption) :
    Within g s (State.stageFill u w e t3) := by
  unfold State.stageFill
  extract_lets +onlyGivenNames -underBinder -merge n1
  extract_lets +onlyGivenNames -underBinder -merge n2
  extract_lets +onlyGivenNames -underBinder -merge n3
  extract_lets +onlyGivenNames -underBinder -merge n4
  exact Within.ite h (by
    extract_lets +onlyGivenNames -underBinder -merge n5
    extract_lets +onlyGivenNames -underBinder -merge n6
    split
    · next _ _ _ y10 =>
      exact Within.ite (Within.pair (State.access_within p_tier h) y10) (by
        extract_lets +onlyGivenNames -underBinder -merge n11
        extract_lets +onlyGivenNames -underBinder -merge s12
        have h13 : Within g s s12 := (Within.ite (State.hitStatus_within p_cmd (Within.pair (State.access_within p_tier h) y10)) (Within.pair (State.access_within p_tier h) y10))
        extract_lets +onlyGivenNames -underBinder -merge s14
        have h15 : Within g s s14 := (State.delivered_within (State.count_within (Within.foldl (fun x16 x17 h18 => (State.fillTile_within p_cmd p_scratch p_castMem p_tile p_tier h18)) h13)))
        extract_lets +onlyGivenNames -underBinder -merge n19
        exact Within.ite (State.unitDone_within p_cmd h15) h15))

theorem execStageFillDone_within {w : Fin 8} {q : Nat} {t2 : Fin 192} (p_cmd : Part.cmd ∈ g.parts) (p_scratch : Part.scratch ∈ g.parts) (p_castMem : Part.castMem ∈ g.parts) (p_tile : Part.tile ∈ g.parts) (p_tier : Part.tier ∈ g.parts) (h : Within g s u) (k_dnBytes : g.keys Obj.dnBytes := by assumption) (k_tmStageBytes : g.keys Obj.tmStageBytes := by assumption) (k_tmWaitCycles : g.keys Obj.tmWaitCycles := by assumption) :
    Leads g s (execStageFillDone w q t2 u) := by
  unfold execStageFillDone
  exact onUnit_within (fun x1 => (State.stageFill_within p_cmd p_scratch p_castMem p_tile p_tier h)) h

theorem State.stageStall_within {w : Nat} {e : QEntry} {t3 : Nat} (p_tile : Part.tile ∈ g.parts) (h : Within g s u) (k_tmStageStalls : g.keys Obj.tmStageStalls := by assumption) :
    Within g s (State.stageStall u w e t3) := by
  unfold State.stageStall
  extract_lets +onlyGivenNames -underBinder -merge n1
  split
  · exact h
  · exact Within.ite h (by
      extract_lets +onlyGivenNames -underBinder -merge n7
      extract_lets +onlyGivenNames -underBinder -merge n8
      exact State.countSat_within (State.raise_within (State.setShare_within p_tile h)))

theorem execStageStall_within {w : Fin 8} {q : Nat} {t2 : Fin 192} (p_tile : Part.tile ∈ g.parts) (h : Within g s u) (k_tmStageStalls : g.keys Obj.tmStageStalls := by assumption) :
    Leads g s (execStageStall w q t2 u) := by
  unfold execStageStall
  split
  · exact Leads.ite (Leads.next (State.stageStall_within p_tile h)) (Leads.next h)
  · exact Leads.next h

end Sys2Proof.Machine
end

