-- ==== Sys2Proof/Laws/WithinLend.lean ====
section
/-! SUPPORT. What each operation of Machine/Lend.lean may change, and that it keeps the form of the state. -/
namespace Sys2Proof.Machine
set_option Elab.async false

variable {g : Scope} {s u : State}

theorem State.hlCommit_within {n : Nat} (p_tier : Part.tier ∈ g.parts) (h : Within g s u) (k_hlState : ∀ n, g.keys (Obj.hlState n) := by assumption) :
    Within g s (State.hlCommit u n) := by
  unfold State.hlCommit
  exact State.setLender_within p_tier (State.wr_within h _ _)

theorem execHlCommit_within {src : Src} {n : Fin 2} {arg : Nat} (p_tier : Part.tier ∈ g.parts) (h : Within g s u) (k_dictRejected : g.keys Obj.dictRejected := by assumption) (k_hlState : ∀ n, g.keys (Obj.hlState n) := by assumption) :
    Leads g s (execHlCommit src n arg u) := by
  unfold execHlCommit
  exact Leads.next (State.act_within (fun x1 h2 => (State.hlCommit_within p_tier h2)) h)

theorem State.redirect_within {home : Home} (p_prep : Part.prep ∈ g.parts) (p_bar0 : Part.bar0 ∈ g.parts) (p_cmd : Part.cmd ∈ g.parts) (p_castMem : Part.castMem ∈ g.parts) (p_tile : Part.tile ∈ g.parts) (p_spans : Part.spans ∈ g.parts) (p_upd : Part.upd ∈ g.parts) (p_link : Part.link ∈ g.parts) (p_coll : Part.coll ∈ g.parts) (p_tier : Part.tier ∈ g.parts) (p_store : Part.store ∈ g.parts) (p_cross : Part.cross ∈ g.parts) (p_start : Part.start ∈ g.parts) (h : Within g s u) (k_actMode : g.keys Obj.actMode := by assumption) (k_actStep : g.keys Obj.actStep := by assumption) (k_chRetired : ∀ n, g.keys (Obj.chRetired n) := by assumption) (k_collBytesTx : g.keys Obj.collBytesTx := by assumption) (k_collMismatchCycles : g.keys Obj.collMismatchCycles := by assumption) (k_decState : ∀ n, g.keys (Obj.decState n) := by assumption) (k_flitsTx : ∀ n, g.keys (Obj.flitsTx n) := by assumption) (k_groupState : g.keys Obj.groupState := by assumption) (k_prepEpoch : g.keys Obj.prepEpoch := by assumption) (k_prepStep : g.keys Obj.prepStep := by assumption) (k_sparePages : g.keys Obj.sparePages := by assumption) (k_t1PoolPages : g.keys Obj.t1PoolPages := by assumption) (k_tmDiscards : g.keys Obj.tmDiscards := by assumption) (k_tmEvictions : g.keys Obj.tmEvictions := by assumption) (k_tmWaitCycles : g.keys Obj.tmWaitCycles := by assumption) :
    Within g s (State.redirect u home) := by
  unfold State.redirect
  exact Within.foldl (fun x1 x2 h3 => (Within.foldl (fun x4 x5 h6 => (by
    split
    · exact Within.ite (State.dstLost_within p_prep p_bar0 p_cmd p_castMem p_tile p_spans p_upd p_link p_coll p_tier p_store p_cross p_start h6) h6
    · exact h6)) h3)) h

theorem State.recall_within {n : Nat} {notice : Nat} (p_prep : Part.prep ∈ g.parts) (p_bar0 : Part.bar0 ∈ g.parts) (p_cmd : Part.cmd ∈ g.parts) (p_castMem : Part.castMem ∈ g.parts) (p_tile : Part.tile ∈ g.parts) (p_spans : Part.spans ∈ g.parts) (p_upd : Part.upd ∈ g.parts) (p_link : Part.link ∈ g.parts) (p_coll : Part.coll ∈ g.parts) (p_tier : Part.tier ∈ g.parts) (p_store : Part.store ∈ g.parts) (p_cross : Part.cross ∈ g.parts) (p_start : Part.start ∈ g.parts) (h : Within g s u) (k_actMode : g.keys Obj.actMode := by assumption) (k_actStep : g.keys Obj.actStep := by assumption) (k_chRetired : ∀ n, g.keys (Obj.chRetired n) := by assumption) (k_collBytesTx : g.keys Obj.collBytesTx := by assumption) (k_collMismatchCycles : g.keys Obj.collMismatchCycles := by assumption) (k_decState : ∀ n, g.keys (Obj.decState n) := by assumption) (k_flitsTx : ∀ n, g.keys (Obj.flitsTx n) := by assumption) (k_groupState : g.keys Obj.groupState := by assumption) (k_lenderKey : ∀ n, g.keys (lenderKey n) := by assumption) (k_prepEpoch : g.keys Obj.prepEpoch := by assumption) (k_prepStep : g.keys Obj.prepStep := by assumption) (k_sparePages : g.keys Obj.sparePages := by assumption) (k_t1PoolPages : g.keys Obj.t1PoolPages := by assumption) (k_tmDiscards : g.keys Obj.tmDiscards := by assumption) (k_tmEvictions : g.keys Obj.tmEvictions := by assumption) (k_tmWaitCycles : g.keys Obj.tmWaitCycles := by assumption) :
    Within g s (State.recall u n notice) := by
  unfold State.recall
  extract_lets +onlyGivenNames -underBinder -merge n1
  extract_lets +onlyGivenNames -underBinder -merge _ s2
  have h3 : Within g s s2 := (State.setLender_within p_tier (State.wr_within h _ _))
  extract_lets +onlyGivenNames -underBinder -merge s4
  have h5 : Within g s s4 := (State.raise_within h3)
  extract_lets +onlyGivenNames -underBinder -merge s6
  have h7 : Within g s s6 := (Within.foldl (fun x8 x9 h10 => (by
    split
    · exact h10
    · exact Within.ite h10 (by
        split
        · extract_lets +onlyGivenNames -underBinder -merge s19
          have h20 : Within g s s19 := (Within.ite (State.send_within p_link p_coll p_cross h10) h10)
          exact State.startMove_within p_tier h20
        · exact State.discardPage_within p_tier h10))) h5)
  exact State.recallDone_within p_link p_coll p_tier p_cross (State.redirect_within p_prep p_bar0 p_cmd p_castMem p_tile p_spans p_upd p_link p_coll p_tier p_store p_cross p_start h7)

theorem execHlRecall_within {src : Src} {n : Fin 2} {arg : Nat} (p_prep : Part.prep ∈ g.parts) (p_bar0 : Part.bar0 ∈ g.parts) (p_cmd : Part.cmd ∈ g.parts) (p_castMem : Part.castMem ∈ g.parts) (p_tile : Part.tile ∈ g.parts) (p_spans : Part.spans ∈ g.parts) (p_upd : Part.upd ∈ g.parts) (p_link : Part.link ∈ g.parts) (p_coll : Part.coll ∈ g.parts) (p_tier : Part.tier ∈ g.parts) (p_store : Part.store ∈ g.parts) (p_cross : Part.cross ∈ g.parts) (p_start : Part.start ∈ g.parts) (h : Within g s u) (k_actMode : g.keys Obj.actMode := by assumption) (k_actStep : g.keys Obj.actStep := by assumption) (k_chRetired : ∀ n, g.keys (Obj.chRetired n) := by assumption) (k_collBytesTx : g.keys Obj.collBytesTx := by assumption) (k_collMismatchCycles : g.keys Obj.collMismatchCycles := by assumption) (k_decState : ∀ n, g.keys (Obj.decState n) := by assumption) (k_dictRejected : g.keys Obj.dictRejected := by assumption) (k_flitsTx : ∀ n, g.keys (Obj.flitsTx n) := by assumption) (k_groupState : g.keys Obj.groupState := by assumption) (k_lenderKey : ∀ n, g.keys (lenderKey n) := by assumption) (k_prepEpoch : g.keys Obj.prepEpoch := by assumption) (k_prepStep : g.keys Obj.prepStep := by assumption) (k_sparePages : g.keys Obj.sparePages := by assumption) (k_t1PoolPages : g.keys Obj.t1PoolPages := by assumption) (k_tmDiscards : g.keys Obj.tmDiscards := by assumption) (k_tmEvictions : g.keys Obj.tmEvictions := by assumption) (k_tmWaitCycles : g.keys Obj.tmWaitCycles := by assumption) :
    Leads g s (execHlRecall src n arg u) := by
  unfold execHlRecall
  exact Leads.next (State.act_within (fun x1 h2 => (State.recall_within p_prep p_bar0 p_cmd p_castMem p_tile p_spans p_upd p_link p_coll p_tier p_store p_cross p_start h2)) h)

theorem State.dropLender_within {n : Nat} (p_prep : Part.prep ∈ g.parts) (p_bar0 : Part.bar0 ∈ g.parts) (p_cmd : Part.cmd ∈ g.parts) (p_castMem : Part.castMem ∈ g.parts) (p_tile : Part.tile ∈ g.parts) (p_spans : Part.spans ∈ g.parts) (p_upd : Part.upd ∈ g.parts) (p_link : Part.link ∈ g.parts) (p_coll : Part.coll ∈ g.parts) (p_tier : Part.tier ∈ g.parts) (p_store : Part.store ∈ g.parts) (p_cross : Part.cross ∈ g.parts) (p_start : Part.start ∈ g.parts) (h : Within g s u) (k_actMode : g.keys Obj.actMode := by assumption) (k_actStep : g.keys Obj.actStep := by assumption) (k_chRetired : ∀ n, g.keys (Obj.chRetired n) := by assumption) (k_collBytesTx : g.keys Obj.collBytesTx := by assumption) (k_collMismatchCycles : g.keys Obj.collMismatchCycles := by assumption) (k_decState : ∀ n, g.keys (Obj.decState n) := by assumption) (k_flitsTx : ∀ n, g.keys (Obj.flitsTx n) := by assumption) (k_groupState : g.keys Obj.groupState := by assumption) (k_prepEpoch : g.keys Obj.prepEpoch := by assumption) (k_prepStep : g.keys Obj.prepStep := by assumption) (k_sparePages : g.keys Obj.sparePages := by assumption) (k_t1PoolPages : g.keys Obj.t1PoolPages := by assumption) (k_tmDiscards : g.keys Obj.tmDiscards := by assumption) (k_tmEvictions : g.keys Obj.tmEvictions := by assumption) (k_tmWaitCycles : g.keys Obj.tmWaitCycles := by assumption) :
    Within g s (State.dropLender u n) := by
  unfold State.dropLender
  extract_lets +onlyGivenNames -underBinder -merge n1
  exact Within.foldl (fun x2 x3 h4 => (Within.foldl (fun x5 x6 h7 => (by
    extract_lets +onlyGivenNames -underBinder -merge n8
    exact Within.ite (by
      extract_lets +onlyGivenNames -underBinder -merge s9
      have h10 : Within g s s9 := (by
        unfold s9
        split
        · split
          · exact State.moveNext_within p_tier h7
          · exact h7
        · exact h7)
      exact State.discardPage_within p_tier h10) (by
      split
      · exact Within.ite (State.dstLost_within p_prep p_bar0 p_cmd p_castMem p_tile p_spans p_upd p_link p_coll p_tier p_store p_cross p_start h7) h7
      · exact h7))) h4)) h

theorem State.lenderLost_within {n : Nat} (p_prep : Part.prep ∈ g.parts) (p_bar0 : Part.bar0 ∈ g.parts) (p_cmd : Part.cmd ∈ g.parts) (p_castMem : Part.castMem ∈ g.parts) (p_tile : Part.tile ∈ g.parts) (p_spans : Part.spans ∈ g.parts) (p_upd : Part.upd ∈ g.parts) (p_link : Part.link ∈ g.parts) (p_coll : Part.coll ∈ g.parts) (p_tier : Part.tier ∈ g.parts) (p_store : Part.store ∈ g.parts) (p_cross : Part.cross ∈ g.parts) (p_start : Part.start ∈ g.parts) (h : Within g s u) (k_actMode : g.keys Obj.actMode := by assumption) (k_actStep : g.keys Obj.actStep := by assumption) (k_chRetired : ∀ n, g.keys (Obj.chRetired n) := by assumption) (k_collBytesTx : g.keys Obj.collBytesTx := by assumption) (k_collMismatchCycles : g.keys Obj.collMismatchCycles := by assumption) (k_decState : ∀ n, g.keys (Obj.decState n) := by assumption) (k_flitsTx : ∀ n, g.keys (Obj.flitsTx n) := by assumption) (k_groupState : g.keys Obj.groupState := by assumption) (k_lenderKey : ∀ n, g.keys (lenderKey n) := by assumption) (k_prepEpoch : g.keys Obj.prepEpoch := by assumption) (k_prepStep : g.keys Obj.prepStep := by assumption) (k_sparePages : g.keys Obj.sparePages := by assumption) (k_t1PoolPages : g.keys Obj.t1PoolPages := by assumption) (k_tmDiscards : g.keys Obj.tmDiscards := by assumption) (k_tmEvictions : g.keys Obj.tmEvictions := by assumption) (k_tmWaitCycles : g.keys Obj.tmWaitCycles := by assumption) :
    Within g s (State.lenderLost u n) := by
  unfold State.lenderLost
  exact Within.ite h (by
    extract_lets +onlyGivenNames -underBinder -merge n1
    extract_lets +onlyGivenNames -underBinder -merge s2
    have h3 : Within g s s2 := (State.setLender_within p_tier (State.wr_within h _ _))
    exact State.raise_within (State.dropLender_within p_prep p_bar0 p_cmd p_castMem p_tile p_spans p_upd p_link p_coll p_tier p_store p_cross p_start h3))

theorem execLenderLost_within {n : Fin 3} (p_prep : Part.prep ∈ g.parts) (p_bar0 : Part.bar0 ∈ g.parts) (p_cmd : Part.cmd ∈ g.parts) (p_castMem : Part.castMem ∈ g.parts) (p_tile : Part.tile ∈ g.parts) (p_spans : Part.spans ∈ g.parts) (p_upd : Part.upd ∈ g.parts) (p_link : Part.link ∈ g.parts) (p_coll : Part.coll ∈ g.parts) (p_tier : Part.tier ∈ g.parts) (p_store : Part.store ∈ g.parts) (p_cross : Part.cross ∈ g.parts) (p_start : Part.start ∈ g.parts) (h : Within g s u) (k_actMode : g.keys Obj.actMode := by assumption) (k_actStep : g.keys Obj.actStep := by assumption) (k_chRetired : ∀ n, g.keys (Obj.chRetired n) := by assumption) (k_collBytesTx : g.keys Obj.collBytesTx := by assumption) (k_collMismatchCycles : g.keys Obj.collMismatchCycles := by assumption) (k_decState : ∀ n, g.keys (Obj.decState n) := by assumption) (k_flitsTx : ∀ n, g.keys (Obj.flitsTx n) := by assumption) (k_groupState : g.keys Obj.groupState := by assumption) (k_lenderKey : ∀ n, g.keys (lenderKey n) := by assumption) (k_prepEpoch : g.keys Obj.prepEpoch := by assumption) (k_prepStep : g.keys Obj.prepStep := by assumption) (k_sparePages : g.keys Obj.sparePages := by assumption) (k_t1PoolPages : g.keys Obj.t1PoolPages := by assumption) (k_tmDiscards : g.keys Obj.tmDiscards := by assumption) (k_tmEvictions : g.keys Obj.tmEvictions := by assumption) (k_tmWaitCycles : g.keys Obj.tmWaitCycles := by assumption) :
    Leads g s (execLenderLost n u) := by
  unfold execLenderLost
  exact Leads.next (State.lenderLost_within p_prep p_bar0 p_cmd p_castMem p_tile p_spans p_upd p_link p_coll p_tier p_store p_cross p_start h)

theorem State.noticeExpiry_within {n : Nat} (p_prep : Part.prep ∈ g.parts) (p_bar0 : Part.bar0 ∈ g.parts) (p_cmd : Part.cmd ∈ g.parts) (p_castMem : Part.castMem ∈ g.parts) (p_tile : Part.tile ∈ g.parts) (p_spans : Part.spans ∈ g.parts) (p_upd : Part.upd ∈ g.parts) (p_link : Part.link ∈ g.parts) (p_coll : Part.coll ∈ g.parts) (p_tier : Part.tier ∈ g.parts) (p_store : Part.store ∈ g.parts) (p_cross : Part.cross ∈ g.parts) (p_start : Part.start ∈ g.parts) (h : Within g s u) (k_actMode : g.keys Obj.actMode := by assumption) (k_actStep : g.keys Obj.actStep := by assumption) (k_chRetired : ∀ n, g.keys (Obj.chRetired n) := by assumption) (k_collBytesTx : g.keys Obj.collBytesTx := by assumption) (k_collMismatchCycles : g.keys Obj.collMismatchCycles := by assumption) (k_decState : ∀ n, g.keys (Obj.decState n) := by assumption) (k_flitsTx : ∀ n, g.keys (Obj.flitsTx n) := by assumption) (k_groupState : g.keys Obj.groupState := by assumption) (k_lenderKey : ∀ n, g.keys (lenderKey n) := by assumption) (k_prepEpoch : g.keys Obj.prepEpoch := by assumption) (k_prepStep : g.keys Obj.prepStep := by assumption) (k_sparePages : g.keys Obj.sparePages := by assumption) (k_t1PoolPages : g.keys Obj.t1PoolPages := by assumption) (k_tmDiscards : g.keys Obj.tmDiscards := by assumption) (k_tmEvictions : g.keys Obj.tmEvictions := by assumption) (k_tmWaitCycles : g.keys Obj.tmWaitCycles := by assumption) :
    Within g s (State.noticeExpiry u n) := by
  unfold State.noticeExpiry
  refine Within.ite ?_ ?_
  · split
    · split
      · exact Within.ite (Within.setTier p_tier h rfl (fun _ => Tab.nil_wf _)) h
      · exact h
    · exact h
  · split
    · exact Within.ite (State.dropLender_within p_prep p_bar0 p_cmd p_castMem p_tile p_spans p_upd p_link p_coll p_tier p_store p_cross p_start (State.setLender_within p_tier (State.wr_within h _ _))) h
    · exact h

theorem execRecallNoticeExpiry_within {n : Fin 4} (p_prep : Part.prep ∈ g.parts) (p_bar0 : Part.bar0 ∈ g.parts) (p_cmd : Part.cmd ∈ g.parts) (p_castMem : Part.castMem ∈ g.parts) (p_tile : Part.tile ∈ g.parts) (p_spans : Part.spans ∈ g.parts) (p_upd : Part.upd ∈ g.parts) (p_link : Part.link ∈ g.parts) (p_coll : Part.coll ∈ g.parts) (p_tier : Part.tier ∈ g.parts) (p_store : Part.store ∈ g.parts) (p_cross : Part.cross ∈ g.parts) (p_start : Part.start ∈ g.parts) (h : Within g s u) (k_actMode : g.keys Obj.actMode := by assumption) (k_actStep : g.keys Obj.actStep := by assumption) (k_chRetired : ∀ n, g.keys (Obj.chRetired n) := by assumption) (k_collBytesTx : g.keys Obj.collBytesTx := by assumption) (k_collMismatchCycles : g.keys Obj.collMismatchCycles := by assumption) (k_decState : ∀ n, g.keys (Obj.decState n) := by assumption) (k_flitsTx : ∀ n, g.keys (Obj.flitsTx n) := by assumption) (k_groupState : g.keys Obj.groupState := by assumption) (k_lenderKey : ∀ n, g.keys (lenderKey n) := by assumption) (k_prepEpoch : g.keys Obj.prepEpoch := by assumption) (k_prepStep : g.keys Obj.prepStep := by assumption) (k_sparePages : g.keys Obj.sparePages := by assumption) (k_t1PoolPages : g.keys Obj.t1PoolPages := by assumption) (k_tmDiscards : g.keys Obj.tmDiscards := by assumption) (k_tmEvictions : g.keys Obj.tmEvictions := by assumption) (k_tmWaitCycles : g.keys Obj.tmWaitCycles := by assumption) :
    Leads g s (execRecallNoticeExpiry n u) := by
  unfold execRecallNoticeExpiry
  exact Leads.next (State.noticeExpiry_within p_prep p_bar0 p_cmd p_castMem p_tile p_spans p_upd p_link p_coll p_tier p_store p_cross p_start h)

theorem State.nbAsk_within (p_link : Part.link ∈ g.parts) (p_coll : Part.coll ∈ g.parts) (p_tier : Part.tier ∈ g.parts) (p_cross : Part.cross ∈ g.parts) (h : Within g s u) (k_collBytesTx : g.keys Obj.collBytesTx := by assumption) (k_flitsTx : ∀ n, g.keys (Obj.flitsTx n) := by assumption) :
    Within g s (State.nbAsk u) := by
  unfold State.nbAsk
  exact State.send_within p_link p_coll p_cross (Within.setTier p_tier h rfl id)

theorem execNbCommit_within {src : Src} {arg : Nat} (p_link : Part.link ∈ g.parts) (p_coll : Part.coll ∈ g.parts) (p_tier : Part.tier ∈ g.parts) (p_cross : Part.cross ∈ g.parts) (h : Within g s u) (k_collBytesTx : g.keys Obj.collBytesTx := by assumption) (k_dictRejected : g.keys Obj.dictRejected := by assumption) (k_flitsTx : ∀ n, g.keys (Obj.flitsTx n) := by assumption) :
    Leads g s (execNbCommit src arg u) := by
  unfold execNbCommit
  exact Leads.next (State.act_within (fun x1 h2 => (State.nbAsk_within p_link p_coll p_tier p_cross h2)) h)

theorem State.msgLend_within {m : Msg} (p_link : Part.link ∈ g.parts) (p_coll : Part.coll ∈ g.parts) (p_tier : Part.tier ∈ g.parts) (p_cross : Part.cross ∈ g.parts) (h : Within g s u) (k_collBytesTx : g.keys Obj.collBytesTx := by assumption) (k_flitsTx : ∀ n, g.keys (Obj.flitsTx n) := by assumption) (k_nbState : g.keys Obj.nbState := by assumption) :
    Within g s (State.msgLend u m) := by
  unfold State.msgLend
  extract_lets n k _ s1 s2
  have h1 : Within g s s1 := Within.setTier p_tier h rfl (fun _ => Tab.nil_wf _)
  have h2 : Within g s s2 := Within.setTier p_tier h rfl id
  exact Within.ite (Within.ite (State.send_within p_link p_coll p_cross h1) h) (Within.ite (State.setLender_within p_tier (State.wr_within h2 _ _)) h)

theorem execMsgLend_within {m : Msg} (p_link : Part.link ∈ g.parts) (p_coll : Part.coll ∈ g.parts) (p_tier : Part.tier ∈ g.parts) (p_cross : Part.cross ∈ g.parts) (h : Within g s u) (k_collBytesTx : g.keys Obj.collBytesTx := by assumption) (k_flitsTx : ∀ n, g.keys (Obj.flitsTx n) := by assumption) (k_nbState : g.keys Obj.nbState := by assumption) :
    Leads g s (execMsgLend m u) := by
  unfold execMsgLend
  exact Leads.next (State.msgLend_within p_link p_coll p_tier p_cross h)

theorem execMsgRecall_within {m : Msg} (p_prep : Part.prep ∈ g.parts) (p_bar0 : Part.bar0 ∈ g.parts) (p_cmd : Part.cmd ∈ g.parts) (p_castMem : Part.castMem ∈ g.parts) (p_tile : Part.tile ∈ g.parts) (p_spans : Part.spans ∈ g.parts) (p_upd : Part.upd ∈ g.parts) (p_link : Part.link ∈ g.parts) (p_coll : Part.coll ∈ g.parts) (p_tier : Part.tier ∈ g.parts) (p_store : Part.store ∈ g.parts) (p_cross : Part.cross ∈ g.parts) (p_start : Part.start ∈ g.parts) (h : Within g s u) (k_actMode : g.keys Obj.actMode := by assumption) (k_actStep : g.keys Obj.actStep := by assumption) (k_chRetired : ∀ n, g.keys (Obj.chRetired n) := by assumption) (k_collBytesTx : g.keys Obj.collBytesTx := by assumption) (k_collMismatchCycles : g.keys Obj.collMismatchCycles := by assumption) (k_decState : ∀ n, g.keys (Obj.decState n) := by assumption) (k_flitsTx : ∀ n, g.keys (Obj.flitsTx n) := by assumption) (k_groupState : g.keys Obj.groupState := by assumption) (k_lenderKey : ∀ n, g.keys (lenderKey n) := by assumption) (k_prepEpoch : g.keys Obj.prepEpoch := by assumption) (k_prepStep : g.keys Obj.prepStep := by assumption) (k_sparePages : g.keys Obj.sparePages := by assumption) (k_t1PoolPages : g.keys Obj.t1PoolPages := by assumption) (k_tmDiscards : g.keys Obj.tmDiscards := by assumption) (k_tmEvictions : g.keys Obj.tmEvictions := by assumption) (k_tmWaitCycles : g.keys Obj.tmWaitCycles := by assumption) :
    Leads g s (execMsgRecall m u) := by
  unfold execMsgRecall
  exact Leads.next (Within.ite (State.recall_within p_prep p_bar0 p_cmd p_castMem p_tile p_spans p_upd p_link p_coll p_tier p_store p_cross p_start h) h)

theorem execMsgWithdrawal_within {m : Msg} (p_prep : Part.prep ∈ g.parts) (p_bar0 : Part.bar0 ∈ g.parts) (p_cmd : Part.cmd ∈ g.parts) (p_castMem : Part.castMem ∈ g.parts) (p_tile : Part.tile ∈ g.parts) (p_spans : Part.spans ∈ g.parts) (p_upd : Part.upd ∈ g.parts) (p_link : Part.link ∈ g.parts) (p_coll : Part.coll ∈ g.parts) (p_tier : Part.tier ∈ g.parts) (p_store : Part.store ∈ g.parts) (p_cross : Part.cross ∈ g.parts) (p_start : Part.start ∈ g.parts) (h : Within g s u) (k_actMode : g.keys Obj.actMode := by assumption) (k_actStep : g.keys Obj.actStep := by assumption) (k_chRetired : ∀ n, g.keys (Obj.chRetired n) := by assumption) (k_collBytesTx : g.keys Obj.collBytesTx := by assumption) (k_collMismatchCycles : g.keys Obj.collMismatchCycles := by assumption) (k_decState : ∀ n, g.keys (Obj.decState n) := by assumption) (k_flitsTx : ∀ n, g.keys (Obj.flitsTx n) := by assumption) (k_groupState : g.keys Obj.groupState := by assumption) (k_lenderKey : ∀ n, g.keys (lenderKey n) := by assumption) (k_prepEpoch : g.keys Obj.prepEpoch := by assumption) (k_prepStep : g.keys Obj.prepStep := by assumption) (k_sparePages : g.keys Obj.sparePages := by assumption) (k_t1PoolPages : g.keys Obj.t1PoolPages := by assumption) (k_tmDiscards : g.keys Obj.tmDiscards := by assumption) (k_tmEvictions : g.keys Obj.tmEvictions := by assumption) (k_tmWaitCycles : g.keys Obj.tmWaitCycles := by assumption) :
    Leads g s (execMsgWithdrawal m u) := by
  unfold execMsgWithdrawal
  exact Leads.next (Within.ite (State.lenderLost_within p_prep p_bar0 p_cmd p_castMem p_tile p_spans p_upd p_link p_coll p_tier p_store p_cross p_start h) h)

theorem execMsgRelease_within {m : Msg} (p_tier : Part.tier ∈ g.parts) (h : Within g s u) :
    Leads g s (execMsgRelease m u) := by
  unfold execMsgRelease
  exact Leads.next (Within.ite (Within.setTier p_tier h rfl (fun _ => Tab.nil_wf _)) h)

theorem execMsgLentRead_within {m : Msg} (p_link : Part.link ∈ g.parts) (p_coll : Part.coll ∈ g.parts) (p_cross : Part.cross ∈ g.parts) (h : Within g s u) (k_collBytesTx : g.keys Obj.collBytesTx := by assumption) (k_flitsTx : ∀ n, g.keys (Obj.flitsTx n) := by assumption) :
    Leads g s (execMsgLentRead m u) := by
  unfold execMsgLentRead
  exact Leads.next (Within.ite (by
    extract_lets +onlyGivenNames -underBinder -merge n1
    exact State.sendPage_within p_link p_coll p_cross h) h)

theorem execMsgLentData_within {m : Msg} (p_mem : Part.mem ∈ g.parts) (p_tier : Part.tier ∈ g.parts) (h : Within g s u) :
    Leads g s (execMsgLentData m u) := by
  unfold execMsgLentData
  exact Leads.next (Within.ite (Within.setTier p_tier h rfl (memWrite_wf _ _)) (Within.ite (State.regionWrite_within p_mem p_tier h) h))

theorem execLendRecall_within {src : Src} {arg : Nat} (p_link : Part.link ∈ g.parts) (p_coll : Part.coll ∈ g.parts) (p_tier : Part.tier ∈ g.parts) (p_cross : Part.cross ∈ g.parts) (h : Within g s u) (k_collBytesTx : g.keys Obj.collBytesTx := by assumption) (k_dictRejected : g.keys Obj.dictRejected := by assumption) (k_flitsTx : ∀ n, g.keys (Obj.flitsTx n) := by assumption) :
    Leads g s (execLendRecall src arg u) := by
  unfold execLendRecall
  exact Leads.next (State.act_within (fun x1 h2 => (State.recallLent_within p_link p_coll p_tier p_cross h2)) h)

theorem State.markBad_within {h1 : Nat} {p2 : Nat} {unit : Nat} (p_tier : Part.tier ∈ g.parts) (h : Within g s u) :
    Within g s (State.markBad u h1 p2 unit) := by
  unfold State.markBad
  exact State.updPage_within p_tier h

theorem State.located_within {x : Nat} {u2 : BankUnit} (p_tier : Part.tier ∈ g.parts) (h : Within g s u) :
    Within g s (State.located u x u2).1 := by
  unfold State.located
  split
  · split
    · exact Within.fst h
    · exact Within.iteFst (Within.fst (State.mapTo_within p_tier h)) (Within.fst h)
    · exact Within.fst h
  · exact Within.fst h

theorem State.uncorrectable_within {addr : Nat} {u2 : BankUnit} {reader : Option (Nat × Nat)} (p_prep : Part.prep ∈ g.parts) (p_bar0 : Part.bar0 ∈ g.parts) (p_cmd : Part.cmd ∈ g.parts) (p_castMem : Part.castMem ∈ g.parts) (p_tile : Part.tile ∈ g.parts) (p_spans : Part.spans ∈ g.parts) (p_upd : Part.upd ∈ g.parts) (p_link : Part.link ∈ g.parts) (p_coll : Part.coll ∈ g.parts) (p_tier : Part.tier ∈ g.parts) (p_store : Part.store ∈ g.parts) (p_cross : Part.cross ∈ g.parts) (p_start : Part.start ∈ g.parts) (h : Within g s u) (k_actMode : g.keys Obj.actMode := by assumption) (k_actStep : g.keys Obj.actStep := by assumption) (k_chRetired : ∀ n, g.keys (Obj.chRetired n) := by assumption) (k_chUncorrectable : ∀ n, g.keys (Obj.chUncorrectable n) := by assumption) (k_collBytesTx : g.keys Obj.collBytesTx := by assumption) (k_collMismatchCycles : g.keys Obj.collMismatchCycles := by assumption) (k_decState : ∀ n, g.keys (Obj.decState n) := by assumption) (k_flitsTx : ∀ n, g.keys (Obj.flitsTx n) := by assumption) (k_groupState : g.keys Obj.groupState := by assumption) (k_prepEpoch : g.keys Obj.prepEpoch := by assumption) (k_prepStep : g.keys Obj.prepStep := by assumption) (k_sparePages : g.keys Obj.sparePages := by assumption) (k_t1PoolPages : g.keys Obj.t1PoolPages := by assumption) (k_tmDiscards : g.keys Obj.tmDiscards := by assumption) (k_tmWaitCycles : g.keys Obj.tmWaitCycles := by assumption) :
    Within g s (State.uncorrectable u addr u2 reader) := by
  unfold State.uncorrectable
  extract_lets +onlyGivenNames -underBinder -merge n1
  extract_lets +onlyGivenNames -underBinder -merge s2
  have h3 : Within g s s2 := (State.countSat_within h)
  split
  · next _ _ _ y7 =>
    extract_lets +onlyGivenNames -underBinder -merge n8
    have h16 : ∀ v0 v1, Within g s v0 → Within g s (n8 v0 v1) := by
      intro x9 x10 h11
      unfold n8
      split
      · exact State.hitStatus_within p_cmd h11
      · exact h11
    split
    · exact State.retirePhys_within p_tier p_start (Within.pair (State.located_within p_tier h3) y7)
    · exact State.abortAnnounce_within p_prep p_bar0 p_cmd p_castMem p_tile p_spans p_upd p_link p_coll p_tier p_store p_cross (State.retirePhys_within p_tier p_start (State.raise_within (Within.pair (State.located_within p_tier h3) y7)))
    · exact State.loseState_within p_coll (State.layerFault_within p_cmd p_upd (State.retirePhys_within p_tier p_start (State.raise_within (Within.pair (State.located_within p_tier h3) y7))))
    · split
      · exact State.retirePhys_within p_tier p_start (Within.pair (State.located_within p_tier h3) y7)
      · extract_lets +onlyGivenNames -underBinder -merge s30
        have h31 : Within g s s30 := (State.tellBad_within (Within.pair (State.located_within p_tier h3) y7))
        exact Within.ite (State.retirePhys_within p_tier p_start (h16 _ _ (State.discardPage_within p_tier h31))) (by
          extract_lets +onlyGivenNames -underBinder -merge s32
          have h33 : Within g s s32 := (h16 _ _ (State.enterRetire_within p_tier p_start (State.markBad_within p_tier h31)))
          exact Within.ite (State.loseState_within p_coll (State.layerFault_within p_cmd p_upd h33)) (State.classResponse_within p_prep p_bar0 p_cmd p_castMem p_tile p_spans p_upd p_link p_coll p_tier p_store p_cross h33))

theorem State.bankRead_within {addr : Nat} {u2 : BankUnit} {reads : List Bytes} {reader : Option (Nat × Nat)} (p_prep : Part.prep ∈ g.parts) (p_bar0 : Part.bar0 ∈ g.parts) (p_cmd : Part.cmd ∈ g.parts) (p_castMem : Part.castMem ∈ g.parts) (p_tile : Part.tile ∈ g.parts) (p_spans : Part.spans ∈ g.parts) (p_upd : Part.upd ∈ g.parts) (p_link : Part.link ∈ g.parts) (p_coll : Part.coll ∈ g.parts) (p_tier : Part.tier ∈ g.parts) (p_store : Part.store ∈ g.parts) (p_cross : Part.cross ∈ g.parts) (p_start : Part.start ∈ g.parts) (h : Within g s u) (k_actMode : g.keys Obj.actMode := by assumption) (k_actStep : g.keys Obj.actStep := by assumption) (k_chReplays : ∀ n, g.keys (Obj.chReplays n) := by assumption) (k_chRetired : ∀ n, g.keys (Obj.chRetired n) := by assumption) (k_chUncorrectable : ∀ n, g.keys (Obj.chUncorrectable n) := by assumption) (k_collBytesTx : g.keys Obj.collBytesTx := by assumption) (k_collMismatchCycles : g.keys Obj.collMismatchCycles := by assumption) (k_decState : ∀ n, g.keys (Obj.decState n) := by assumption) (k_flitsTx : ∀ n, g.keys (Obj.flitsTx n) := by assumption) (k_groupState : g.keys Obj.groupState := by assumption) (k_prepEpoch : g.keys Obj.prepEpoch := by assumption) (k_prepStep : g.keys Obj.prepStep := by assumption) (k_sparePages : g.keys Obj.sparePages := by assumption) (k_t1PoolPages : g.keys Obj.t1PoolPages := by assumption) (k_tmDiscards : g.keys Obj.tmDiscards := by assumption) (k_tmWaitCycles : g.keys Obj.tmWaitCycles := by assumption) :
    Within g s (State.bankRead u addr u2 reads reader) := by
  unfold State.bankRead
  extract_lets +onlyGivenNames -underBinder -merge n1
  exact Within.ite h (Within.ite (Within.ite (State.count_within h) h) (State.uncorrectable_within p_prep p_bar0 p_cmd p_castMem p_tile p_spans p_upd p_link p_coll p_tier p_store p_cross p_start h))

theorem execBankReadReplay_within {addr : Nat} {u1 : BankUnit} {reads : List Bytes} {reader : Option (Nat × Nat)} (p_prep : Part.prep ∈ g.parts) (p_bar0 : Part.bar0 ∈ g.parts) (p_cmd : Part.cmd ∈ g.parts) (p_castMem : Part.castMem ∈ g.parts) (p_tile : Part.tile ∈ g.parts) (p_spans : Part.spans ∈ g.parts) (p_upd : Part.upd ∈ g.parts) (p_link : Part.link ∈ g.parts) (p_coll : Part.coll ∈ g.parts) (p_tier : Part.tier ∈ g.parts) (p_store : Part.store ∈ g.parts) (p_cross : Part.cross ∈ g.parts) (p_start : Part.start ∈ g.parts) (h : Within g s u) (k_actMode : g.keys Obj.actMode := by assumption) (k_actStep : g.keys Obj.actStep := by assumption) (k_chReplays : ∀ n, g.keys (Obj.chReplays n) := by assumption) (k_chRetired : ∀ n, g.keys (Obj.chRetired n) := by assumption) (k_chUncorrectable : ∀ n, g.keys (Obj.chUncorrectable n) := by assumption) (k_collBytesTx : g.keys Obj.collBytesTx := by assumption) (k_collMismatchCycles : g.keys Obj.collMismatchCycles := by assumption) (k_decState : ∀ n, g.keys (Obj.decState n) := by assumption) (k_flitsTx : ∀ n, g.keys (Obj.flitsTx n) := by assumption) (k_groupState : g.keys Obj.groupState := by assumption) (k_prepEpoch : g.keys Obj.prepEpoch := by assumption) (k_prepStep : g.keys Obj.prepStep := by assumption) (k_sparePages : g.keys Obj.sparePages := by assumption) (k_t1PoolPages : g.keys Obj.t1PoolPages := by assumption) (k_tmDiscards : g.keys Obj.tmDiscards := by assumption) (k_tmWaitCycles : g.keys Obj.tmWaitCycles := by assumption) :
    Leads g s (execBankReadReplay addr u1 reads reader u) := by
  unfold execBankReadReplay
  exact Leads.next (State.bankRead_within p_prep p_bar0 p_cmd p_castMem p_tile p_spans p_upd p_link p_coll p_tier p_store p_cross p_start h)

theorem State.bankWrite_within {addr : Nat} {u2 : BankUnit} {fails : Nat} (p_prep : Part.prep ∈ g.parts) (p_bar0 : Part.bar0 ∈ g.parts) (p_cmd : Part.cmd ∈ g.parts) (p_castMem : Part.castMem ∈ g.parts) (p_tile : Part.tile ∈ g.parts) (p_spans : Part.spans ∈ g.parts) (p_upd : Part.upd ∈ g.parts) (p_link : Part.link ∈ g.parts) (p_coll : Part.coll ∈ g.parts) (p_tier : Part.tier ∈ g.parts) (p_store : Part.store ∈ g.parts) (p_cross : Part.cross ∈ g.parts) (p_start : Part.start ∈ g.parts) (h : Within g s u) (k_actMode : g.keys Obj.actMode := by assumption) (k_actStep : g.keys Obj.actStep := by assumption) (k_bankWriteRetries : g.keys Obj.bankWriteRetries := by assumption) (k_chReplays : ∀ n, g.keys (Obj.chReplays n) := by assumption) (k_chRetired : ∀ n, g.keys (Obj.chRetired n) := by assumption) (k_chUncorrectable : ∀ n, g.keys (Obj.chUncorrectable n) := by assumption) (k_collBytesTx : g.keys Obj.collBytesTx := by assumption) (k_collMismatchCycles : g.keys Obj.collMismatchCycles := by assumption) (k_decState : ∀ n, g.keys (Obj.decState n) := by assumption) (k_flitsTx : ∀ n, g.keys (Obj.flitsTx n) := by assumption) (k_groupState : g.keys Obj.groupState := by assumption) (k_prepEpoch : g.keys Obj.prepEpoch := by assumption) (k_prepStep : g.keys Obj.prepStep := by assumption) (k_sparePages : g.keys Obj.sparePages := by assumption) (k_t1PoolPages : g.keys Obj.t1PoolPages := by assumption) (k_tmDiscards : g.keys Obj.tmDiscards := by assumption) (k_tmEvictions : g.keys Obj.tmEvictions := by assumption) (k_tmWaitCycles : g.keys Obj.tmWaitCycles := by assumption) :
    Within g s (State.bankWrite u addr u2 fails) := by
  unfold State.bankWrite
  extract_lets +onlyGivenNames -underBinder -merge n1
  extract_lets +onlyGivenNames -underBinder -merge s2
  have h3 : Within g s s2 := (State.count_within h)
  exact Within.ite h3 (Within.ite (State.count_within h3) (by
    split
    · split
      · extract_lets +onlyGivenNames -underBinder -merge n11
        split
        · exact Within.ite (State.moveFails_within p_prep p_bar0 p_cmd p_castMem p_tile p_spans p_upd p_link p_coll p_tier p_store p_cross p_start (State.retirePhys_within p_tier p_start (State.tellBad_within (State.countSat_within h3)))) (State.uncorrectable_within p_prep p_bar0 p_cmd p_castMem p_tile p_spans p_upd p_link p_coll p_tier p_store p_cross p_start h3)
        · exact State.uncorrectable_within p_prep p_bar0 p_cmd p_castMem p_tile p_spans p_upd p_link p_coll p_tier p_store p_cross p_start h3
      · exact State.uncorrectable_within p_prep p_bar0 p_cmd p_castMem p_tile p_spans p_upd p_link p_coll p_tier p_store p_cross p_start h3
    · exact State.uncorrectable_within p_prep p_bar0 p_cmd p_castMem p_tile p_spans p_upd p_link p_coll p_tier p_store p_cross p_start h3))

theorem execBankWriteRetry_within {addr : Nat} {u1 : BankUnit} {fails : Nat} (p_prep : Part.prep ∈ g.parts) (p_bar0 : Part.bar0 ∈ g.parts) (p_cmd : Part.cmd ∈ g.parts) (p_castMem : Part.castMem ∈ g.parts) (p_tile : Part.tile ∈ g.parts) (p_spans : Part.spans ∈ g.parts) (p_upd : Part.upd ∈ g.parts) (p_link : Part.link ∈ g.parts) (p_coll : Part.coll ∈ g.parts) (p_tier : Part.tier ∈ g.parts) (p_store : Part.store ∈ g.parts) (p_cross : Part.cross ∈ g.parts) (p_start : Part.start ∈ g.parts) (h : Within g s u) (k_actMode : g.keys Obj.actMode := by assumption) (k_actStep : g.keys Obj.actStep := by assumption) (k_bankWriteRetries : g.keys Obj.bankWriteRetries := by assumption) (k_chReplays : ∀ n, g.keys (Obj.chReplays n) := by assumption) (k_chRetired : ∀ n, g.keys (Obj.chRetired n) := by assumption) (k_chUncorrectable : ∀ n, g.keys (Obj.chUncorrectable n) := by assumption) (k_collBytesTx : g.keys Obj.collBytesTx := by assumption) (k_collMismatchCycles : g.keys Obj.collMismatchCycles := by assumption) (k_decState : ∀ n, g.keys (Obj.decState n) := by assumption) (k_flitsTx : ∀ n, g.keys (Obj.flitsTx n) := by assumption) (k_groupState : g.keys Obj.groupState := by assumption) (k_prepEpoch : g.keys Obj.prepEpoch := by assumption) (k_prepStep : g.keys Obj.prepStep := by assumption) (k_sparePages : g.keys Obj.sparePages := by assumption) (k_t1PoolPages : g.keys Obj.t1PoolPages := by assumption) (k_tmDiscards : g.keys Obj.tmDiscards := by assumption) (k_tmEvictions : g.keys Obj.tmEvictions := by assumption) (k_tmWaitCycles : g.keys Obj.tmWaitCycles := by assumption) :
    Leads g s (execBankWriteRetry addr u1 fails u) := by
  unfold execBankWriteRetry
  exact Leads.next (State.bankWrite_within p_prep p_bar0 p_cmd p_castMem p_tile p_spans p_upd p_link p_coll p_tier p_store p_cross p_start h)

theorem execCaParityAlert_within {_c : Fin 16} (h : Within g s u) (k_bankCaAlerts : g.keys Obj.bankCaAlerts := by assumption) :
    Leads g s (execCaParityAlert _c u) := by
  unfold execCaParityAlert
  exact Leads.next (State.count_within h)

theorem State.bankTemp_within {c : Nat} {temp : Int} (p_link : Part.link ∈ g.parts) (p_coll : Part.coll ∈ g.parts) (p_tier : Part.tier ∈ g.parts) (p_power : Part.power ∈ g.parts) (p_clock : Part.clock ∈ g.parts) (p_cross : Part.cross ∈ g.parts) (p_start : Part.start ∈ g.parts) (h : Within g s u) (k_chTemp : ∀ n, g.keys (Obj.chTemp n) := by assumption) (k_collBytesTx : g.keys Obj.collBytesTx := by assumption) (k_collResends : g.keys Obj.collResends := by assumption) (k_duty : g.keys Obj.duty := by assumption) (k_flitsTx : ∀ n, g.keys (Obj.flitsTx n) := by assumption) (k_idResult : ∀ n, g.keys (Obj.idResult n) := by assumption) (k_logicalPlane : ∀ n, g.keys (Obj.logicalPlane n) := by assumption) (k_opInForce : g.keys Obj.opInForce := by assumption) (k_parks : g.keys Obj.parks := by assumption) (k_planePort : ∀ n, g.keys (Obj.planePort n) := by assumption) (k_portPowerState : ∀ n, g.keys (Obj.portPowerState n) := by assumption) (k_portState : ∀ n, g.keys (Obj.portState n) := by assumption) (k_powerState : g.keys Obj.powerState := by assumption) (k_refreshIntervalNs : g.keys Obj.refreshIntervalNs := by assumption) (k_remapCount : g.keys Obj.remapCount := by assumption) (k_vtrimMv : g.keys Obj.vtrimMv := by assumption) :
    Within g s (State.bankTemp u c temp) := by
  unfold State.bankTemp
  extract_lets +onlyGivenNames -underBinder -merge s1
  have h2 : Within g s s1 := (State.wrIn_within h)
  extract_lets +onlyGivenNames -underBinder -merge n3
  extract_lets +onlyGivenNames -underBinder -merge s4
  have h5 : Within g s s4 := (State.wr_within h2 _ _)
  extract_lets +onlyGivenNames -underBinder -merge _ s6
  have h7 : Within g s s6 := (Within.ite (State.repower_within p_link p_coll p_tier p_power p_clock p_cross p_start (Within.setPower p_power h5)) h5)
  exact Within.ite (State.raiseOnce_within h7) (Within.ite (State.endEpisode_within h7) h7)

theorem execBankTempRead_within {c : Fin 16} {temp : Int} (p_link : Part.link ∈ g.parts) (p_coll : Part.coll ∈ g.parts) (p_tier : Part.tier ∈ g.parts) (p_power : Part.power ∈ g.parts) (p_clock : Part.clock ∈ g.parts) (p_cross : Part.cross ∈ g.parts) (p_start : Part.start ∈ g.parts) (h : Within g s u) (k_chTemp : ∀ n, g.keys (Obj.chTemp n) := by assumption) (k_collBytesTx : g.keys Obj.collBytesTx := by assumption) (k_collResends : g.keys Obj.collResends := by assumption) (k_duty : g.keys Obj.duty := by assumption) (k_flitsTx : ∀ n, g.keys (Obj.flitsTx n) := by assumption) (k_idResult : ∀ n, g.keys (Obj.idResult n) := by assumption) (k_logicalPlane : ∀ n, g.keys (Obj.logicalPlane n) := by assumption) (k_opInForce : g.keys Obj.opInForce := by assumption) (k_parks : g.keys Obj.parks := by assumption) (k_planePort : ∀ n, g.keys (Obj.planePort n) := by assumption) (k_portPowerState : ∀ n, g.keys (Obj.portPowerState n) := by assumption) (k_portState : ∀ n, g.keys (Obj.portState n) := by assumption) (k_powerState : g.keys Obj.powerState := by assumption) (k_refreshIntervalNs : g.keys Obj.refreshIntervalNs := by assumption) (k_remapCount : g.keys Obj.remapCount := by assumption) (k_vtrimMv : g.keys Obj.vtrimMv := by assumption) :
    Leads g s (execBankTempRead c temp u) := by
  unfold execBankTempRead
  exact Leads.next (State.bankTemp_within p_link p_coll p_tier p_power p_clock p_cross p_start h)

theorem State.replayed_within {x : Nat} {u2 : BankUnit} (p_tier : Part.tier ∈ g.parts) (p_start : Part.start ∈ g.parts) (h : Within g s u) (k_chRetired : ∀ n, g.keys (Obj.chRetired n) := by assumption) (k_sparePages : g.keys Obj.sparePages := by assumption) (k_t1PoolPages : g.keys Obj.t1PoolPages := by assumption) :
    Within g s (State.replayed u x u2) := by
  unfold State.replayed
  split
  · next _ _ _ y4 =>
    extract_lets +onlyGivenNames -underBinder -merge n5
    extract_lets +onlyGivenNames -underBinder -merge n6
    extract_lets +onlyGivenNames -underBinder -merge n7
    extract_lets +onlyGivenNames -underBinder -merge n8
    extract_lets +onlyGivenNames -underBinder -merge _ s9
    have h10 : Within g s s9 := (Within.setTier p_tier (Within.pair (State.located_within p_tier h) y4) rfl id)
    exact Within.ite (by
      split
      · exact State.enterRetire_within p_tier p_start h10
      · exact State.retirePhys_within p_tier p_start h10) h10

theorem State.scrubLate_within (h : Within g s u) :
    Within g s (State.scrubLate u) := by
  unfold State.scrubLate
  exact Within.ite (State.raiseOnce_within h) h

theorem State.sweepEnd_within (p_tier : Part.tier ∈ g.parts) (h : Within g s u) (k_scrubProgress : g.keys Obj.scrubProgress := by assumption) :
    Within g s (State.sweepEnd u) := by
  have key : ∀ v, Within g s v → Within g s { v with tier := { v.tier with sweepFrom := v.now } } := fun v hv => Within.setTier p_tier hv rfl id
  have hv := key _ (State.endEpisode_within (code := Ev.scrubLate) (inst := 0) (State.scrubLate_within (State.wr_within h Obj.scrubProgress 0)))
  exact hv

theorem State.scrub_within {u1 : BankUnit} {unit : Nat} {reads : List Bytes} (p_prep : Part.prep ∈ g.parts) (p_bar0 : Part.bar0 ∈ g.parts) (p_cmd : Part.cmd ∈ g.parts) (p_castMem : Part.castMem ∈ g.parts) (p_tile : Part.tile ∈ g.parts) (p_spans : Part.spans ∈ g.parts) (p_upd : Part.upd ∈ g.parts) (p_link : Part.link ∈ g.parts) (p_coll : Part.coll ∈ g.parts) (p_tier : Part.tier ∈ g.parts) (p_store : Part.store ∈ g.parts) (p_cross : Part.cross ∈ g.parts) (p_start : Part.start ∈ g.parts) (h : Within g s u) (k_actMode : g.keys Obj.actMode := by assumption) (k_actStep : g.keys Obj.actStep := by assumption) (k_bankScrubBytes : g.keys Obj.bankScrubBytes := by assumption) (k_chReplays : ∀ n, g.keys (Obj.chReplays n) := by assumption) (k_chRetired : ∀ n, g.keys (Obj.chRetired n) := by assumption) (k_chUncorrectable : ∀ n, g.keys (Obj.chUncorrectable n) := by assumption) (k_collBytesTx : g.keys Obj.collBytesTx := by assumption) (k_collMismatchCycles : g.keys Obj.collMismatchCycles := by assumption) (k_decState : ∀ n, g.keys (Obj.decState n) := by assumption) (k_flitsTx : ∀ n, g.keys (Obj.flitsTx n) := by assumption) (k_groupState : g.keys Obj.groupState := by assumption) (k_prepEpoch : g.keys Obj.prepEpoch := by assumption) (k_prepStep : g.keys Obj.prepStep := by assumption) (k_scrubProgress : g.keys Obj.scrubProgress := by assumption) (k_sparePages : g.keys Obj.sparePages := by assumption) (k_t1PoolPages : g.keys Obj.t1PoolPages := by assumption) (k_tmDiscards : g.keys Obj.tmDiscards := by assumption) (k_tmWaitCycles : g.keys Obj.tmWaitCycles := by assumption) :
    Within g s (State.scrub u u1 unit reads) := by
  unfold State.scrub
  exact Within.ite (State.scrubLate_within h) (by
    extract_lets +onlyGivenNames -underBinder -merge n1
    extract_lets +onlyGivenNames -underBinder -merge s2
    have h3 : Within g s s2 := (State.count_within h)
    extract_lets +onlyGivenNames -underBinder -merge n4
    extract_lets +onlyGivenNames -underBinder -merge s5
    have h6 : Within g s s5 := (Within.ite h3 (Within.ite (State.replayed_within p_tier p_start (State.count_within h3)) (State.uncorrectable_within p_prep p_bar0 p_cmd p_castMem p_tile p_spans p_upd p_link p_coll p_tier p_store p_cross p_start h3)))
    exact Within.ite (State.scrubLate_within (State.wr_within h6 _ _)) (State.sweepEnd_within p_tier h6))

theorem execScrub_within {u0 : BankUnit} {x : UnitReads} (p_prep : Part.prep ∈ g.parts) (p_bar0 : Part.bar0 ∈ g.parts) (p_cmd : Part.cmd ∈ g.parts) (p_castMem : Part.castMem ∈ g.parts) (p_tile : Part.tile ∈ g.parts) (p_spans : Part.spans ∈ g.parts) (p_upd : Part.upd ∈ g.parts) (p_link : Part.link ∈ g.parts) (p_coll : Part.coll ∈ g.parts) (p_tier : Part.tier ∈ g.parts) (p_store : Part.store ∈ g.parts) (p_cross : Part.cross ∈ g.parts) (p_start : Part.start ∈ g.parts) (h : Within g s u) (k_actMode : g.keys Obj.actMode := by assumption) (k_actStep : g.keys Obj.actStep := by assumption) (k_bankScrubBytes : g.keys Obj.bankScrubBytes := by assumption) (k_chReplays : ∀ n, g.keys (Obj.chReplays n) := by assumption) (k_chRetired : ∀ n, g.keys (Obj.chRetired n) := by assumption) (k_chUncorrectable : ∀ n, g.keys (Obj.chUncorrectable n) := by assumption) (k_collBytesTx : g.keys Obj.collBytesTx := by assumption) (k_collMismatchCycles : g.keys Obj.collMismatchCycles := by assumption) (k_decState : ∀ n, g.keys (Obj.decState n) := by assumption) (k_flitsTx : ∀ n, g.keys (Obj.flitsTx n) := by assumption) (k_groupState : g.keys Obj.groupState := by assumption) (k_prepEpoch : g.keys Obj.prepEpoch := by assumption) (k_prepStep : g.keys Obj.prepStep := by assumption) (k_scrubProgress : g.keys Obj.scrubProgress := by assumption) (k_sparePages : g.keys Obj.sparePages := by assumption) (k_t1PoolPages : g.keys Obj.t1PoolPages := by assumption) (k_tmDiscards : g.keys Obj.tmDiscards := by assumption) (k_tmWaitCycles : g.keys Obj.tmWaitCycles := by assumption) :
    Leads g s (execScrub u0 x u) := by
  unfold execScrub
  exact Leads.next (State.scrub_within p_prep p_bar0 p_cmd p_castMem p_tile p_spans p_upd p_link p_coll p_tier p_store p_cross p_start h)

end Sys2Proof.Machine
end

