-- ==== Sys2Proof/Laws/WithinUpdate.lean ====
section
/-! SUPPORT. What each operation of Machine/Update.lean may change, and that it keeps the form of the state. -/
namespace Sys2Proof.Machine
set_option Elab.async false

variable {g : Scope} {s u : State}

theorem State.putTile_within {g1 : Segment} {tensor : Nat} {t3 : Nat} {ls : List (List Nat × Nat)} {step : Nat} {layer : Nat} {index : Nat} (p_mem : Part.mem ∈ g.parts) (p_tier : Part.tier ∈ g.parts) (h : Within g s u) :
    Within g s (State.putTile u g1 tensor t3 ls step layer index) := by
  unfold State.putTile
  split
  · extract_lets +onlyGivenNames -underBinder -merge n6
    extract_lets +onlyGivenNames -underBinder -merge n7
    extract_lets +onlyGivenNames -underBinder -merge n8
    extract_lets +onlyGivenNames -underBinder -merge s9
    have h10 : Within g s s9 := (State.regionWrite_within p_mem p_tier h)
    extract_lets +onlyGivenNames -underBinder -merge s11
    have h12 : Within g s s11 := (State.regionWrite_within p_mem p_tier h10)
    exact State.regionWrite_within p_mem p_tier h12

theorem State.writeTensor_within {g1 : Segment} {a : UpdArm} {rho : Nat} {tensor : Nat} {t5 : Nat} {index : Nat} (p_tile : Part.tile ∈ g.parts) (p_mem : Part.mem ∈ g.parts) (p_tier : Part.tier ∈ g.parts) (h : Within g s u) (k_cumElements : g.keys Obj.cumElements := by assumption) (k_cumNonfinite : g.keys Obj.cumNonfinite := by assumption) (k_cumSaturation : g.keys Obj.cumSaturation := by assumption) (k_cumUnderflow : g.keys Obj.cumUnderflow := by assumption) :
    Within g s (State.writeTensor u g1 a rho tensor t5 index) := by
  unfold State.writeTensor
  extract_lets +onlyGivenNames -underBinder -merge n1
  extract_lets +onlyGivenNames -underBinder -merge s2
  have h3 : Within g s s2 := (State.putTile_within p_mem p_tier h)
  exact State.tally_within p_tile h3

theorem State.writeWc_within {g1 : Segment} {l : Nat} {t3 : Nat} (p_tile : Part.tile ∈ g.parts) (p_mem : Part.mem ∈ g.parts) (p_tier : Part.tier ∈ g.parts) (h : Within g s u) (k_cumElements : g.keys Obj.cumElements := by assumption) (k_cumNonfinite : g.keys Obj.cumNonfinite := by assumption) (k_cumSaturation : g.keys Obj.cumSaturation := by assumption) (k_cumUnderflow : g.keys Obj.cumUnderflow := by assumption) :
    Within g s (State.writeWc u g1 l t3) := by
  unfold State.writeWc
  split
  · exact h
  · extract_lets +onlyGivenNames -underBinder -merge s6
    have h7 : Within g s s6 := (State.touch_within p_tier h)
    extract_lets +onlyGivenNames -underBinder -merge n8
    split
    · extract_lets +onlyGivenNames -underBinder -merge s13
      have h14 : Within g s s13 := (State.regionWrite_within p_mem p_tier h7)
      extract_lets +onlyGivenNames -underBinder -merge s15
      have h16 : Within g s s15 := (Within.ite (State.regionWrite_within p_mem p_tier h14) h14)
      exact State.tally_within p_tile h16

theorem State.openImage_within {n : Nat} {l : Nat} (p_upd : Part.upd ∈ g.parts) (h : Within g s u) :
    Within g s (State.openImage u n l) := by
  unfold State.openImage
  exact Within.ite h (by
    split
    · exact h
    · extract_lets +onlyGivenNames -underBinder -merge n6
      extract_lets +onlyGivenNames -underBinder -merge n7
      exact Within.setUpd p_upd h)

theorem State.updImage_within {n : Nat} {f : Image → Image} (p_upd : Part.upd ∈ g.parts) (h : Within g s u) :
    Within g s (State.updImage u n f) := by
  unfold State.updImage
  split
  · exact h
  · split
    · exact h
    · exact Within.setUpd p_upd h

theorem State.imageTile_within {n : Nat} {l : Nat} {seg : Nat} {g4 : Segment} {t5 : Nat} (p_upd : Part.upd ∈ g.parts) (p_tier : Part.tier ∈ g.parts) (h : Within g s u) :
    Within g s (State.imageTile u n l seg g4 t5) := by
  unfold State.imageTile
  extract_lets +onlyGivenNames -underBinder -merge n1
  extract_lets +onlyGivenNames -underBinder -merge n2
  exact State.updImage_within p_upd (State.touch_within p_tier h)

theorem State.imageLayer_within {n : Nat} {l : Nat} (p_upd : Part.upd ∈ g.parts) (h : Within g s u) :
    Within g s (State.imageLayer u n l) := by
  unfold State.imageLayer
  extract_lets +onlyGivenNames -underBinder -merge n1
  exact State.updImage_within p_upd h

theorem State.formDigest_within {n : Nat} (p_upd : Part.upd ∈ g.parts) (p_coll : Part.coll ∈ g.parts) (h : Within g s u) (k_stepDigest : g.keys Obj.stepDigest := by assumption) (k_stepDigestStep : g.keys Obj.stepDigestStep := by assumption) :
    Within g s (State.formDigest u n) := by
  unfold State.formDigest
  exact Within.ite (by
    extract_lets +onlyGivenNames -underBinder -merge n1
    extract_lets +onlyGivenNames -underBinder -merge s2
    have h3 : Within g s s2 := (State.wr_within (State.wr_within h _ _) _ _)
    extract_lets +onlyGivenNames -underBinder -merge _ s4
    have h5 : Within g s s4 := (Within.setColl p_coll h3)
    exact State.updImage_within p_upd h5) h

theorem execUpdateMap_within {w : Fin 8} {q : Nat} (p_cmd : Part.cmd ∈ g.parts) (p_upd : Part.upd ∈ g.parts) (h : Within g s u) :
    Leads g s (execUpdateMap w q u) := by
  unfold execUpdateMap
  exact onUnit_within (fun x1 => (by
    extract_lets +onlyGivenNames -underBinder -merge n2
    extract_lets +onlyGivenNames -underBinder -merge n3
    exact State.unitDone_within p_cmd (Within.setUpd p_upd h))) h

theorem State.setJournal_within {l : Nat} {j : Journal} (p_upd : Part.upd ∈ g.parts) (h : Within g s u) :
    Within g s (State.setJournal u l j) := by
  unfold State.setJournal
  exact Within.setUpd p_upd h

theorem State.armLayer_within {l : Nat} (p_upd : Part.upd ∈ g.parts) (h : Within g s u) :
    Within g s (State.armLayer u l) := by
  unfold State.armLayer
  extract_lets +onlyGivenNames -underBinder -merge n1
  exact Within.ite h (by
    split
    · exact State.setJournal_within p_upd h
    · exact h)

theorem State.applyMaps_within {n : Nat} (p_upd : Part.upd ∈ g.parts) (h : Within g s u) :
    Within g s (State.applyMaps u n) := by
  unfold State.applyMaps
  extract_lets +onlyGivenNames -underBinder -merge n1
  extract_lets +onlyGivenNames -underBinder -merge _ s2
  have h3 : Within g s s2 := (Within.setUpd p_upd h)
  exact Within.foldl (fun x4 x5 h6 => (by
    extract_lets +onlyGivenNames -underBinder -merge n7
    extract_lets +onlyGivenNames -underBinder -merge n8
    exact State.armLayer_within p_upd (State.setJournal_within p_upd h6))) h3

theorem execUpdate_within {w : Fin 8} {q : Nat} (p_cmd : Part.cmd ∈ g.parts) (p_upd : Part.upd ∈ g.parts) (h : Within g s u) :
    Leads g s (execUpdate w q u) := by
  unfold execUpdate
  exact onUnit_within (fun x1 => (by
    extract_lets +onlyGivenNames -underBinder -merge n2
    exact Within.ite h (Within.ite (State.unitDone_within p_cmd h) (by
      extract_lets +onlyGivenNames -underBinder -merge n3
      exact State.armLayer_within p_upd (Within.setUpd p_upd h))))) h

theorem State.moved_within {n : Nat} (h : Within g s u) (k_updBytes : g.keys Obj.updBytes := by assumption) :
    Within g s (State.moved u n) := by
  unfold State.moved
  exact State.count_within h

theorem State.tileWrite_within {a : UpdArm} {rho : Nat} {index : Nat} {x : Nat × Segment × Nat} {i : Nat} (p_tile : Part.tile ∈ g.parts) (p_upd : Part.upd ∈ g.parts) (p_mem : Part.mem ∈ g.parts) (p_tier : Part.tier ∈ g.parts) (h : Within g s u) (k_cumElements : g.keys Obj.cumElements := by assumption) (k_cumNonfinite : g.keys Obj.cumNonfinite := by assumption) (k_cumSaturation : g.keys Obj.cumSaturation := by assumption) (k_cumUnderflow : g.keys Obj.cumUnderflow := by assumption) (k_updBytes : g.keys Obj.updBytes := by assumption) (k_updTiles : g.keys Obj.updTiles := by assumption) :
    Within g s (State.tileWrite u a rho index x i) := by
  unfold State.tileWrite
  split
  · exact Within.ite (State.moved_within (State.writeTensor_within p_tile p_mem p_tier (State.touch_within p_tier h))) (Within.ite (Within.ite h (State.moved_within (State.writeTensor_within p_tile p_mem p_tier h))) (Within.ite (State.count_within (State.moved_within (State.writeTensor_within p_tile p_mem p_tier h))) (Within.ite (State.moved_within (State.writeWc_within p_tile p_mem p_tier h)) (Within.ite (State.moved_within (State.imageTile_within p_upd p_tier h)) h))))

theorem State.passWrites_within {a : UpdArm} {rho : Nat} {lo : Nat} {got : List Nat} {want : List Nat} (p_tile : Part.tile ∈ g.parts) (p_upd : Part.upd ∈ g.parts) (p_mem : Part.mem ∈ g.parts) (p_tier : Part.tier ∈ g.parts) (h : Within g s u) (k_cumElements : g.keys Obj.cumElements := by assumption) (k_cumNonfinite : g.keys Obj.cumNonfinite := by assumption) (k_cumSaturation : g.keys Obj.cumSaturation := by assumption) (k_cumUnderflow : g.keys Obj.cumUnderflow := by assumption) (k_updBytes : g.keys Obj.updBytes := by assumption) (k_updTiles : g.keys Obj.updTiles := by assumption) :
    Within g s (State.passWrites u a rho lo got want) := by
  unfold State.passWrites
  extract_lets +onlyGivenNames -underBinder -merge n1
  exact Within.foldl (fun x2 x3 h4 => (by
    split
    · split
      · exact h4
      · exact Within.foldl (fun x13 x14 h15 => (Within.ite (State.tileWrite_within p_tile p_upd p_mem p_tier h15) h15)) h4)) h

theorem State.passWait_within {a : UpdArm} {index : Nat} (p_tier : Part.tier ∈ g.parts) (h : Within g s u) (k_tmWaitCycles : g.keys Obj.tmWaitCycles := by assumption) :
    Within g s (State.passWait u a index) := by
  unfold State.passWait
  split
  · exact State.writable_within p_tier h
  · exact State.endPageWait_within p_tier h

theorem State.passTo_within {a : UpdArm} {n : Nat} {ahead : List Nat} (p_tile : Part.tile ∈ g.parts) (p_upd : Part.upd ∈ g.parts) (p_mem : Part.mem ∈ g.parts) (p_tier : Part.tier ∈ g.parts) (h : Within g s u) (k_cumElements : g.keys Obj.cumElements := by assumption) (k_cumNonfinite : g.keys Obj.cumNonfinite := by assumption) (k_cumSaturation : g.keys Obj.cumSaturation := by assumption) (k_cumUnderflow : g.keys Obj.cumUnderflow := by assumption) (k_tmWaitCycles : g.keys Obj.tmWaitCycles := by assumption) (k_updBytes : g.keys Obj.updBytes := by assumption) (k_updTiles : g.keys Obj.updTiles := by assumption) :
    Within g s (State.passTo u a n ahead) := by
  unfold State.passTo
  extract_lets +onlyGivenNames -underBinder -merge n1
  extract_lets +onlyGivenNames -underBinder -merge n2
  extract_lets +onlyGivenNames -underBinder -merge n3
  extract_lets +onlyGivenNames -underBinder -merge n4
  extract_lets +onlyGivenNames -underBinder -merge n5
  extract_lets +onlyGivenNames -underBinder -merge s6
  have h7 : Within g s s6 := (State.passWait_within p_tier h)
  extract_lets +onlyGivenNames -underBinder -merge s8
  have h9 : Within g s s8 := (State.passWrites_within p_tile p_upd p_mem p_tier h7)
  exact State.setJournal_within p_upd h9

theorem State.uwWatch_within {l : Nat} {n : Nat} {uw : Nat} (h : Within g s u) :
    Within g s (State.uwWatch u l n uw) := by
  unfold State.uwWatch
  extract_lets +onlyGivenNames -underBinder -merge n1
  extract_lets +onlyGivenNames -underBinder -merge n2
  extract_lets +onlyGivenNames -underBinder -merge n3
  extract_lets +onlyGivenNames -underBinder -merge n4
  extract_lets +onlyGivenNames -underBinder -merge s5
  have h6 : Within g s s5 := (Within.ite (State.raiseOnce_within h) h)
  extract_lets +onlyGivenNames -underBinder -merge s7
  have h8 : Within g s s7 := (Within.ite (State.raiseOnce_within h6) h6)
  exact Within.ite h8 (State.endEpisode_within (State.endEpisode_within h8))

theorem State.commitLayer_within {a : UpdArm} (p_cmd : Part.cmd ∈ g.parts) (p_upd : Part.upd ∈ g.parts) (p_coll : Part.coll ∈ g.parts) (h : Within g s u) (k_stepDigest : g.keys Obj.stepDigest := by assumption) (k_stepDigestStep : g.keys Obj.stepDigestStep := by assumption) :
    Within g s (State.commitLayer u a) := by
  unfold State.commitLayer
  extract_lets +onlyGivenNames -underBinder -merge n1
  extract_lets +onlyGivenNames -underBinder -merge n2
  split
  · extract_lets +onlyGivenNames -underBinder -merge s7
    have h8 : Within g s s7 := (State.setJournal_within p_upd h)
    extract_lets +onlyGivenNames -underBinder -merge _ s9
    have h10 : Within g s s9 := (Within.setUpd p_upd h8)
    extract_lets +onlyGivenNames -underBinder -merge s11
    have h12 : Within g s s11 := (State.unitDone_within p_cmd h10)
    extract_lets +onlyGivenNames -underBinder -merge s13
    have h14 : Within g s s13 := (Within.ite (State.imageLayer_within p_upd h12) h12)
    extract_lets +onlyGivenNames -underBinder -merge s15
    have h16 : Within g s s15 := (State.uwWatch_within h14)
    exact State.armLayer_within p_upd (State.formDigest_within p_upd p_coll h16)

theorem State.layerCommit_within {l : Nat} (p_cmd : Part.cmd ∈ g.parts) (p_tile : Part.tile ∈ g.parts) (p_upd : Part.upd ∈ g.parts) (p_coll : Part.coll ∈ g.parts) (p_mem : Part.mem ∈ g.parts) (p_tier : Part.tier ∈ g.parts) (h : Within g s u) (k_cumElements : g.keys Obj.cumElements := by assumption) (k_cumNonfinite : g.keys Obj.cumNonfinite := by assumption) (k_cumSaturation : g.keys Obj.cumSaturation := by assumption) (k_cumUnderflow : g.keys Obj.cumUnderflow := by assumption) (k_stepDigest : g.keys Obj.stepDigest := by assumption) (k_stepDigestStep : g.keys Obj.stepDigestStep := by assumption) (k_tmWaitCycles : g.keys Obj.tmWaitCycles := by assumption) (k_updBytes : g.keys Obj.updBytes := by assumption) (k_updTiles : g.keys Obj.updTiles := by assumption) :
    Within g s (State.layerCommit u l) := by
  unfold State.layerCommit
  extract_lets +onlyGivenNames -underBinder -merge n1
  split
  · exact h
  · exact Within.ite (by
      extract_lets +onlyGivenNames -underBinder -merge s7
      have h8 : Within g s s7 := (State.passTo_within p_tile p_upd p_mem p_tier h)
      exact Within.ite (State.commitLayer_within p_cmd p_upd p_coll (State.setJournal_within p_upd h8)) h8) h

theorem State.skipImage_within {step : Nat} {l : Nat} (p_upd : Part.upd ∈ g.parts) (p_tier : Part.tier ∈ g.parts) (h : Within g s u) :
    Within g s (State.skipImage u step l) := by
  unfold State.skipImage
  extract_lets +onlyGivenNames -underBinder -merge s1
  have h2 : Within g s s1 := (State.openImage_within p_upd h)
  extract_lets +onlyGivenNames -underBinder -merge s3
  have h4 : Within g s s3 := (Within.foldl (fun x5 x6 h7 => (by
    split
    · exact State.imageTile_within p_upd p_tier h7)) h2)
  exact State.imageLayer_within p_upd h4

theorem State.skipLayer_within {a : UpdArm} (p_cmd : Part.cmd ∈ g.parts) (p_upd : Part.upd ∈ g.parts) (p_coll : Part.coll ∈ g.parts) (p_tier : Part.tier ∈ g.parts) (h : Within g s u) (k_stepDigest : g.keys Obj.stepDigest := by assumption) (k_stepDigestStep : g.keys Obj.stepDigestStep := by assumption) (k_updSkipped : g.keys Obj.updSkipped := by assumption) :
    Within g s (State.skipLayer u a) := by
  unfold State.skipLayer
  extract_lets +onlyGivenNames -underBinder -merge n1
  extract_lets +onlyGivenNames -underBinder -merge n2
  exact Within.ite (State.unitDone_within p_cmd (Within.setUpd p_upd h)) (by
    extract_lets +onlyGivenNames -underBinder -merge n3
    extract_lets +onlyGivenNames -underBinder -merge s4
    have h5 : Within g s s4 := (State.setJournal_within p_upd h)
    extract_lets +onlyGivenNames -underBinder -merge _ s6
    have h7 : Within g s s6 := (Within.setUpd p_upd h5)
    extract_lets +onlyGivenNames -underBinder -merge s8
    have h9 : Within g s s8 := (State.count_within (State.unitDone_within p_cmd h7))
    extract_lets +onlyGivenNames -underBinder -merge s10
    have h11 : Within g s s10 := (Within.ite (State.skipImage_within p_upd p_tier h9) h9)
    exact State.armLayer_within p_upd (State.formDigest_within p_upd p_coll h11))

theorem State.rebuildWc_within {l : Nat} (p_tile : Part.tile ∈ g.parts) (p_mem : Part.mem ∈ g.parts) (p_tier : Part.tier ∈ g.parts) (h : Within g s u) (k_cumElements : g.keys Obj.cumElements := by assumption) (k_cumNonfinite : g.keys Obj.cumNonfinite := by assumption) (k_cumSaturation : g.keys Obj.cumSaturation := by assumption) (k_cumUnderflow : g.keys Obj.cumUnderflow := by assumption) :
    Within g s (State.rebuildWc u l) := by
  unfold State.rebuildWc
  exact Within.foldl (fun x1 x2 h3 => (by
    split
    · exact State.writeWc_within p_tile p_mem p_tier h3)) h

theorem State.redoTile_within {a : UpdArm} {rho : Nat} {prev : Nat} {i : Nat} {g5 : Segment} {t6 : Nat} (p_tile : Part.tile ∈ g.parts) (p_mem : Part.mem ∈ g.parts) (p_tier : Part.tier ∈ g.parts) (h : Within g s u) (k_cumElements : g.keys Obj.cumElements := by assumption) (k_cumNonfinite : g.keys Obj.cumNonfinite := by assumption) (k_cumSaturation : g.keys Obj.cumSaturation := by assumption) (k_cumUnderflow : g.keys Obj.cumUnderflow := by assumption) (k_updBytes : g.keys Obj.updBytes := by assumption) (k_updTiles : g.keys Obj.updTiles := by assumption) :
    Within g s (State.redoTile u a rho prev i g5 t6).1 := by
  unfold State.redoTile
  split
  · exact Within.fst h
  · exact Within.iteFst (Within.fst h) (by
      extract_lets +onlyGivenNames -underBinder -merge s8
      have h9 : Within g s s8 := (State.moved_within h)
      extract_lets +onlyGivenNames -underBinder -merge s10
      have h11 : Within g s s10 := (Within.ite h9 (State.touch_within p_tier h9))
      extract_lets +onlyGivenNames -underBinder -merge s12
      have h13 : Within g s s12 := (Within.ite h11 (State.moved_within (State.writeTensor_within p_tile p_mem p_tier h11)))
      extract_lets +onlyGivenNames -underBinder -merge s14
      have h15 : Within g s s14 := (Within.ite h13 (State.moved_within (State.writeTensor_within p_tile p_mem p_tier h13)))
      exact Within.fst (State.count_within (State.moved_within (State.writeTensor_within p_tile p_mem p_tier h15))))

theorem State.redoTiles_within {a : UpdArm} {rho : Nat} {prev : Nat} {a4 : Nat} {a5 : List (Nat × Segment × Nat)} (p_tile : Part.tile ∈ g.parts) (p_mem : Part.mem ∈ g.parts) (p_tier : Part.tier ∈ g.parts) (h : Within g s u) (k_cumElements : g.keys Obj.cumElements := by assumption) (k_cumNonfinite : g.keys Obj.cumNonfinite := by assumption) (k_cumSaturation : g.keys Obj.cumSaturation := by assumption) (k_cumUnderflow : g.keys Obj.cumUnderflow := by assumption) (k_updBytes : g.keys Obj.updBytes := by assumption) (k_updTiles : g.keys Obj.updTiles := by assumption) :
    Within g s (State.redoTiles u a rho prev a4 a5).1 := by
  induction a5 generalizing u a4 with
  | nil => exact h
  | cons x l ih =>
    unfold State.redoTiles
    split
    · next hv => exact Within.pair (State.redoTile_within p_tile p_mem p_tier h) hv
    · next hv =>
      exact ih (Within.pair (State.redoTile_within p_tile p_mem p_tier h) hv)

theorem State.rebuildPass_within {a : UpdArm} (p_tile : Part.tile ∈ g.parts) (p_upd : Part.upd ∈ g.parts) (p_mem : Part.mem ∈ g.parts) (p_tier : Part.tier ∈ g.parts) (h : Within g s u) (k_cumElements : g.keys Obj.cumElements := by assumption) (k_cumNonfinite : g.keys Obj.cumNonfinite := by assumption) (k_cumSaturation : g.keys Obj.cumSaturation := by assumption) (k_cumUnderflow : g.keys Obj.cumUnderflow := by assumption) (k_updBytes : g.keys Obj.updBytes := by assumption) :
    Within g s (State.rebuildPass u a) := by
  unfold State.rebuildPass
  exact Within.foldl (fun x1 x2 h3 => (by
    split
    · extract_lets +onlyGivenNames -underBinder -merge s8
      have h9 : Within g s s8 := (State.moved_within (State.writeWc_within p_tile p_mem p_tier h3))
      exact Within.ite (State.moved_within (State.imageTile_within p_upd p_tier h9)) h9)) h

theorem State.recoverOn_within {l : Nat} (p_cmd : Part.cmd ∈ g.parts) (p_tile : Part.tile ∈ g.parts) (p_upd : Part.upd ∈ g.parts) (p_coll : Part.coll ∈ g.parts) (p_mem : Part.mem ∈ g.parts) (p_tier : Part.tier ∈ g.parts) (h : Within g s u) (k_cumElements : g.keys Obj.cumElements := by assumption) (k_cumNonfinite : g.keys Obj.cumNonfinite := by assumption) (k_cumSaturation : g.keys Obj.cumSaturation := by assumption) (k_cumUnderflow : g.keys Obj.cumUnderflow := by assumption) (k_stepDigest : g.keys Obj.stepDigest := by assumption) (k_stepDigestStep : g.keys Obj.stepDigestStep := by assumption) (k_tmWaitCycles : g.keys Obj.tmWaitCycles := by assumption) (k_updBytes : g.keys Obj.updBytes := by assumption) (k_updRecovered : g.keys Obj.updRecovered := by assumption) (k_updTiles : g.keys Obj.updTiles := by assumption) :
    Within g s (State.recoverOn u l) := by
  unfold State.recoverOn
  extract_lets +onlyGivenNames -underBinder -merge n1
  split
  · exact h
  · split
    · next _ _ y9 =>
      exact Within.pair (State.writable_within p_tier h) y9
    · next _ _ y12 =>
      split
      · next _ _ _ _ y17 =>
        split
        · exact State.loseState_within p_coll (State.raise_within (State.layerFault_within p_cmd p_upd (Within.pair (State.redoTiles_within p_tile p_mem p_tier (Within.pair (State.writable_within p_tier h) y12)) y17)))
        · extract_lets +onlyGivenNames -underBinder -merge s21
          have h22 : Within g s s21 := (State.rebuildPass_within p_tile p_upd p_mem p_tier (Within.pair (State.redoTiles_within p_tile p_mem p_tier (Within.pair (State.writable_within p_tier h) y12)) y17))
          extract_lets +onlyGivenNames -underBinder -merge n23
          extract_lets +onlyGivenNames -underBinder -merge s24
          have h25 : Within g s s24 := (State.raise_within h22)
          exact State.commitLayer_within p_cmd p_upd p_coll (State.countSat_within h25)

theorem State.recover_within {l : Nat} (p_cmd : Part.cmd ∈ g.parts) (p_tile : Part.tile ∈ g.parts) (p_upd : Part.upd ∈ g.parts) (p_coll : Part.coll ∈ g.parts) (p_mem : Part.mem ∈ g.parts) (p_tier : Part.tier ∈ g.parts) (h : Within g s u) (k_cumElements : g.keys Obj.cumElements := by assumption) (k_cumNonfinite : g.keys Obj.cumNonfinite := by assumption) (k_cumSaturation : g.keys Obj.cumSaturation := by assumption) (k_cumUnderflow : g.keys Obj.cumUnderflow := by assumption) (k_stepDigest : g.keys Obj.stepDigest := by assumption) (k_stepDigestStep : g.keys Obj.stepDigestStep := by assumption) (k_tmWaitCycles : g.keys Obj.tmWaitCycles := by assumption) (k_updBytes : g.keys Obj.updBytes := by assumption) (k_updRecovered : g.keys Obj.updRecovered := by assumption) (k_updTiles : g.keys Obj.updTiles := by assumption) :
    Within g s (State.recover u l) := by
  unfold State.recover
  extract_lets +onlyGivenNames -underBinder -merge n1
  exact State.recoverOn_within p_cmd p_tile p_upd p_coll p_mem p_tier (State.setJournal_within p_upd h)

theorem State.passStart_within {l : Nat} {n : Nat} {ahead : List Nat} (p_cmd : Part.cmd ∈ g.parts) (p_tile : Part.tile ∈ g.parts) (p_upd : Part.upd ∈ g.parts) (p_coll : Part.coll ∈ g.parts) (p_mem : Part.mem ∈ g.parts) (p_tier : Part.tier ∈ g.parts) (h : Within g s u) (k_cumElements : g.keys Obj.cumElements := by assumption) (k_cumNonfinite : g.keys Obj.cumNonfinite := by assumption) (k_cumSaturation : g.keys Obj.cumSaturation := by assumption) (k_cumUnderflow : g.keys Obj.cumUnderflow := by assumption) (k_stepDigest : g.keys Obj.stepDigest := by assumption) (k_stepDigestStep : g.keys Obj.stepDigestStep := by assumption) (k_tmWaitCycles : g.keys Obj.tmWaitCycles := by assumption) (k_updBytes : g.keys Obj.updBytes := by assumption) (k_updRecovered : g.keys Obj.updRecovered := by assumption) (k_updTiles : g.keys Obj.updTiles := by assumption) :
    Within g s (State.passStart u l n ahead) := by
  unfold State.passStart
  extract_lets +onlyGivenNames -underBinder -merge n1
  split
  · exact h
  · exact Within.ite h (Within.ite (State.recoverOn_within p_cmd p_tile p_upd p_coll p_mem p_tier h) (Within.ite (State.passTo_within p_tile p_upd p_mem p_tier h) (Within.ite (by
      extract_lets +onlyGivenNames -underBinder -merge s7
      have h8 : Within g s s7 := (State.setJournal_within p_upd h)
      extract_lets +onlyGivenNames -underBinder -merge s9
      have h10 : Within g s s9 := (Within.ite (State.openImage_within p_upd h8) h8)
      exact State.passTo_within p_tile p_upd p_mem p_tier h10) h)))

theorem State.updateWatchdog_within (p_cmd : Part.cmd ∈ g.parts) (p_tile : Part.tile ∈ g.parts) (p_upd : Part.upd ∈ g.parts) (p_coll : Part.coll ∈ g.parts) (p_mem : Part.mem ∈ g.parts) (p_tier : Part.tier ∈ g.parts) (h : Within g s u) (k_cumElements : g.keys Obj.cumElements := by assumption) (k_cumNonfinite : g.keys Obj.cumNonfinite := by assumption) (k_cumSaturation : g.keys Obj.cumSaturation := by assumption) (k_cumUnderflow : g.keys Obj.cumUnderflow := by assumption) (k_stepDigest : g.keys Obj.stepDigest := by assumption) (k_stepDigestStep : g.keys Obj.stepDigestStep := by assumption) (k_tmWaitCycles : g.keys Obj.tmWaitCycles := by assumption) (k_updBytes : g.keys Obj.updBytes := by assumption) (k_updRecovered : g.keys Obj.updRecovered := by assumption) (k_updRestarts : g.keys Obj.updRestarts := by assumption) (k_updTiles : g.keys Obj.updTiles := by assumption) :
    Within g s (State.updateWatchdog u) := by
  unfold State.updateWatchdog
  extract_lets +onlyGivenNames -underBinder -merge n1
  exact Within.ite h (Within.foldl (fun x2 x3 h4 => (State.recover_within p_cmd p_tile p_upd p_coll p_mem p_tier h4)) (State.countSat_within (State.raise_within h)))

theorem State.rebuildLost_within (p_tile : Part.tile ∈ g.parts) (p_upd : Part.upd ∈ g.parts) (p_mem : Part.mem ∈ g.parts) (p_tier : Part.tier ∈ g.parts) (h : Within g s u) (k_cumElements : g.keys Obj.cumElements := by assumption) (k_cumNonfinite : g.keys Obj.cumNonfinite := by assumption) (k_cumSaturation : g.keys Obj.cumSaturation := by assumption) (k_cumUnderflow : g.keys Obj.cumUnderflow := by assumption) :
    Within g s (State.rebuildLost u) := by
  unfold State.rebuildLost
  exact Within.foldl (fun x1 x2 h3 => (State.rebuildWc_within p_tile p_mem p_tier h3)) (Within.setUpd p_upd h)

theorem State.restoreLayer_within {h1 : Nat} {x : Image} {l : Nat} (p_cmd : Part.cmd ∈ g.parts) (p_tile : Part.tile ∈ g.parts) (p_upd : Part.upd ∈ g.parts) (p_mem : Part.mem ∈ g.parts) (p_tier : Part.tier ∈ g.parts) (p_store : Part.store ∈ g.parts) (p_free : Part.free ∈ g.parts) (h : Within g s u) (k_cumElements : g.keys Obj.cumElements := by assumption) (k_cumNonfinite : g.keys Obj.cumNonfinite := by assumption) (k_cumSaturation : g.keys Obj.cumSaturation := by assumption) (k_cumUnderflow : g.keys Obj.cumUnderflow := by assumption) (k_fbQuiet : ∀ n, g.keys (Obj.fbQuiet n) := by assumption) (k_fbState : ∀ n, g.keys (Obj.fbState n) := by assumption) (k_stReadBytes : g.keys Obj.stReadBytes := by assumption) :
    Within g s (State.restoreLayer u h1 x l).1 := by
  unfold State.restoreLayer
  split
  · exact Within.fst (State.layerFault_within p_cmd p_upd h)
  · extract_lets +onlyGivenNames -underBinder -merge s6
    have h7 : Within g s s6 := (Within.foldl (fun x8 x9 h10 => (by
      split
      · extract_lets +onlyGivenNames -underBinder -merge n14
        exact State.regionWrite_within p_mem p_tier (Within.foldl (fun x15 x16 h17 => (State.readGeneral_within p_store p_free h17)) h10))) h)
    extract_lets +onlyGivenNames -underBinder -merge n18
    exact Within.iteFst (by
      extract_lets +onlyGivenNames -underBinder -merge s19
      have h20 : Within g s s19 := (State.rebuildWc_within p_tile p_mem p_tier h7)
      extract_lets +onlyGivenNames -underBinder -merge s21
      have h22 : Within g s s21 := (State.wr_within (State.wr_within h20 _ _) _ _)
      exact Within.fst (State.armLayer_within p_upd (State.setJournal_within p_upd h22))) (Within.fst (State.layerFault_within p_cmd p_upd h7))

theorem State.restoreLayers_within {h1 : Nat} {x : Image} {ls : List Nat} (p_cmd : Part.cmd ∈ g.parts) (p_tile : Part.tile ∈ g.parts) (p_upd : Part.upd ∈ g.parts) (p_mem : Part.mem ∈ g.parts) (p_tier : Part.tier ∈ g.parts) (p_store : Part.store ∈ g.parts) (p_free : Part.free ∈ g.parts) (h : Within g s u) (k_cumElements : g.keys Obj.cumElements := by assumption) (k_cumNonfinite : g.keys Obj.cumNonfinite := by assumption) (k_cumSaturation : g.keys Obj.cumSaturation := by assumption) (k_cumUnderflow : g.keys Obj.cumUnderflow := by assumption) (k_fbQuiet : ∀ n, g.keys (Obj.fbQuiet n) := by assumption) (k_fbState : ∀ n, g.keys (Obj.fbState n) := by assumption) (k_stReadBytes : g.keys Obj.stReadBytes := by assumption) :
    Within g s (State.restoreLayers u h1 x ls).1 := by
  unfold State.restoreLayers
  exact Within.foldlFst (fun x1 x2 h3 => (by
    split
    · next _ _ _ y7 =>
      exact Within.fst (Within.pair (State.restoreLayer_within p_cmd p_tile p_upd p_mem p_tier p_store p_free h3) y7))) (Within.fst h)

theorem State.abandonPass_within {l : Nat} (p_cmd : Part.cmd ∈ g.parts) (p_upd : Part.upd ∈ g.parts) (h : Within g s u) :
    Within g s (State.abandonPass u l) := by
  unfold State.abandonPass
  extract_lets +onlyGivenNames -underBinder -merge n1
  exact Within.foldl (fun x2 x3 h4 => (by
    split
    · exact State.discard_within p_cmd h4
    · exact h4)) (Within.setUpd p_upd h)

theorem State.restore_within {w : Nat} {e : QEntry} (p_cmd : Part.cmd ∈ g.parts) (p_tile : Part.tile ∈ g.parts) (p_upd : Part.upd ∈ g.parts) (p_mem : Part.mem ∈ g.parts) (p_tier : Part.tier ∈ g.parts) (p_store : Part.store ∈ g.parts) (p_free : Part.free ∈ g.parts) (h : Within g s u) (k_cumElements : g.keys Obj.cumElements := by assumption) (k_cumNonfinite : g.keys Obj.cumNonfinite := by assumption) (k_cumSaturation : g.keys Obj.cumSaturation := by assumption) (k_cumUnderflow : g.keys Obj.cumUnderflow := by assumption) (k_fbQuiet : ∀ n, g.keys (Obj.fbQuiet n) := by assumption) (k_fbState : ∀ n, g.keys (Obj.fbState n) := by assumption) (k_lastCommittedStep : g.keys Obj.lastCommittedStep := by assumption) (k_spikeDev : g.keys Obj.spikeDev := by assumption) (k_spikeMu : g.keys Obj.spikeMu := by assumption) (k_spikeRun : g.keys Obj.spikeRun := by assumption) (k_spikeSeen : g.keys Obj.spikeSeen := by assumption) (k_stReadBytes : g.keys Obj.stReadBytes := by assumption) (k_stepDigest : g.keys Obj.stepDigest := by assumption) (k_stepDigestStep : g.keys Obj.stepDigestStep := by assumption) (k_tmWaitCycles : g.keys Obj.tmWaitCycles := by assumption) :
    Within g s (State.restore u w e) := by
  unfold State.restore
  extract_lets +onlyGivenNames -underBinder -merge n1
  extract_lets +onlyGivenNames -underBinder -merge n2
  split
  · exact State.unitDone_within p_cmd (Within.foldl (fun x5 x6 h7 => (State.raise_within (State.layerFault_within p_cmd p_upd (State.abandonPass_within p_cmd p_upd h7)))) h)
  · split
    · next _ _ y13 =>
      exact Within.pair (State.writable_within p_tier h) y13
    · next _ _ y16 =>
      extract_lets +onlyGivenNames -underBinder -merge s17
      have h18 : Within g s s17 := (Within.foldl (fun x19 x20 h21 => (State.abandonPass_within p_cmd p_upd h21)) (Within.pair (State.writable_within p_tier h) y16))
      split
      · next _ _ _ y25 =>
        extract_lets +onlyGivenNames -underBinder -merge s26
        have h27 : Within g s s26 := (Within.foldl (fun x28 x29 h30 => (State.raise_within h30)) (Within.pair (State.restoreLayers_within p_cmd p_tile p_upd p_mem p_tier p_store p_free h18) y25))
        exact Within.ite (State.unitDone_within p_cmd h27) (Within.ite (State.unitDone_within p_cmd h27) (Within.ite (State.unitDone_within p_cmd (State.raise_within h27)) (by
          extract_lets +onlyGivenNames -underBinder -merge s31
          have h32 : Within g s s31 := (by
            unfold s31
            split
            · exact State.wr_within (State.wr_within (State.wr_within (State.wr_within h27 _ _) _ _) _ _) _ _
            · exact h27)
          extract_lets +onlyGivenNames -underBinder -merge s41
          have h42 : Within g s s41 := (Within.foldl (fun x43 x44 h45 => (by
            split
            · exact State.wr_within (State.wr_within h45 _ _) _ _)) h32)
          extract_lets +onlyGivenNames -underBinder -merge s50
          have h51 : Within g s s50 := (State.wr_within (State.wr_within (State.wr_within h42 _ _) _ _) _ _)
          exact State.unitDone_within p_cmd h51)))

theorem execRestore_within {w : Fin 8} {q : Nat} (p_cmd : Part.cmd ∈ g.parts) (p_tile : Part.tile ∈ g.parts) (p_upd : Part.upd ∈ g.parts) (p_mem : Part.mem ∈ g.parts) (p_tier : Part.tier ∈ g.parts) (p_store : Part.store ∈ g.parts) (p_free : Part.free ∈ g.parts) (h : Within g s u) (k_cumElements : g.keys Obj.cumElements := by assumption) (k_cumNonfinite : g.keys Obj.cumNonfinite := by assumption) (k_cumSaturation : g.keys Obj.cumSaturation := by assumption) (k_cumUnderflow : g.keys Obj.cumUnderflow := by assumption) (k_fbQuiet : ∀ n, g.keys (Obj.fbQuiet n) := by assumption) (k_fbState : ∀ n, g.keys (Obj.fbState n) := by assumption) (k_lastCommittedStep : g.keys Obj.lastCommittedStep := by assumption) (k_spikeDev : g.keys Obj.spikeDev := by assumption) (k_spikeMu : g.keys Obj.spikeMu := by assumption) (k_spikeRun : g.keys Obj.spikeRun := by assumption) (k_spikeSeen : g.keys Obj.spikeSeen := by assumption) (k_stReadBytes : g.keys Obj.stReadBytes := by assumption) (k_stepDigest : g.keys Obj.stepDigest := by assumption) (k_stepDigestStep : g.keys Obj.stepDigestStep := by assumption) (k_tmWaitCycles : g.keys Obj.tmWaitCycles := by assumption) :
    Leads g s (execRestore w q u) := by
  unfold execRestore
  exact onUnit_within (fun x1 => (State.restore_within p_cmd p_tile p_upd p_mem p_tier p_store p_free h)) h

end Sys2Proof.Machine
end

