-- ==== Sys2Proof/Laws/WithinStore.lean ====
section
/-! SUPPORT. What each operation of Machine/Store.lean may change, and that it keeps the form of the state. -/
namespace Sys2Proof.Machine
set_option Elab.async false

variable {g : Scope} {s u : State}

theorem State.wearNow_within (p_start : Part.start ∈ g.parts) (h : Within g s u) (k_wearAvgPe : g.keys Obj.wearAvgPe := by assumption) (k_wearMaxPe : g.keys Obj.wearMaxPe := by assumption) :
    Within g s (State.wearNow u) := by
  unfold State.wearNow
  extract_lets +onlyGivenNames -underBinder -merge n1
  extract_lets +onlyGivenNames -underBinder -merge n2
  extract_lets +onlyGivenNames -underBinder -merge s3
  have h4 : Within g s s3 := (State.wr_within (State.wr_within h _ _) _ _)
  extract_lets +onlyGivenNames -underBinder -merge n5
  extract_lets +onlyGivenNames -underBinder -merge s6
  have h7 : Within g s s6 := (Within.ite (State.lifeWarn_within p_start (State.raiseOnce_within h4)) h4)
  exact Within.ite (State.lifeExceed_within p_start h7) h7

theorem State.eraseBlock_within {k : Nat} (p_store : Part.store ∈ g.parts) (h : Within g s u) :
    Within g s (State.eraseBlock u k) := by
  unfold State.eraseBlock
  extract_lets +onlyGivenNames -underBinder -merge n1
  exact State.setBlock_within p_store h

theorem State.programBlock_within {k : Nat} (p_store : Part.store ∈ g.parts) (h : Within g s u) :
    Within g s (State.programBlock u k) := by
  unfold State.programBlock
  exact Within.ite h (State.setBlock_within p_store h)

theorem State.countRelocation_within (h : Within g s u) (k_stProgBytes : g.keys Obj.stProgBytes := by assumption) (k_stReadBytes : g.keys Obj.stReadBytes := by assumption) (k_stRefreshes : g.keys Obj.stRefreshes := by assumption) :
    Within g s (State.countRelocation u) := by
  unfold State.countRelocation
  exact State.count_within (State.count_within (State.count_within h))

theorem State.standAt_within {l : Nat} {k : Nat} (p_store : Part.store ∈ g.parts) (h : Within g s u) :
    Within g s (State.standAt u l k) := by
  unfold State.standAt
  exact Within.setStore p_store h rfl

theorem State.swapBlocks_within {k : Nat} {c : Nat} (p_store : Part.store ∈ g.parts) (h : Within g s u) :
    Within g s (State.swapBlocks u k c) := by
  unfold State.swapBlocks
  extract_lets +onlyGivenNames -underBinder -merge n1
  extract_lets +onlyGivenNames -underBinder -merge n2
  exact Within.ite h (State.standAt_within p_store (State.standAt_within p_store h))

theorem State.relocate_within {k : Nat} {c : Nat} (p_store : Part.store ∈ g.parts) (p_start : Part.start ∈ g.parts) (h : Within g s u) (k_stProgBytes : g.keys Obj.stProgBytes := by assumption) (k_stReadBytes : g.keys Obj.stReadBytes := by assumption) (k_stRefreshes : g.keys Obj.stRefreshes := by assumption) (k_wearAvgPe : g.keys Obj.wearAvgPe := by assumption) (k_wearMaxPe : g.keys Obj.wearMaxPe := by assumption) :
    Within g s (State.relocate u k c) := by
  unfold State.relocate
  exact State.wearNow_within p_start (State.countRelocation_within (State.eraseBlock_within p_store (State.programBlock_within p_store (State.swapBlocks_within p_store h))))

theorem State.refreshBlock_within {k : Nat} (p_store : Part.store ∈ g.parts) (p_start : Part.start ∈ g.parts) (h : Within g s u) (k_stProgBytes : g.keys Obj.stProgBytes := by assumption) (k_stReadBytes : g.keys Obj.stReadBytes := by assumption) (k_stRefreshes : g.keys Obj.stRefreshes := by assumption) (k_wearAvgPe : g.keys Obj.wearAvgPe := by assumption) (k_wearMaxPe : g.keys Obj.wearMaxPe := by assumption) :
    Within g s (State.refreshBlock u k) := by
  unfold State.refreshBlock
  exact Within.ite h (by
    split
    · exact State.relocate_within p_store p_start h
    · exact h)

theorem State.replaceBlock_within {k : Nat} (p_store : Part.store ∈ g.parts) (h : Within g s u) (k_stProgBytes : g.keys Obj.stProgBytes := by assumption) (k_stReadBytes : g.keys Obj.stReadBytes := by assumption) (k_stRefreshes : g.keys Obj.stRefreshes := by assumption) :
    Within g s (State.replaceBlock u k) := by
  unfold State.replaceBlock
  split
  · exact h
  · extract_lets +onlyGivenNames -underBinder -merge s6
    have h7 : Within g s s6 := (State.swapBlocks_within p_store h)
    exact Within.ite h7 (State.countRelocation_within (State.programBlock_within p_store (State.setBlock_within p_store h7)))

theorem State.retireBlock_within {k : Nat} (p_store : Part.store ∈ g.parts) (p_start : Part.start ∈ g.parts) (h : Within g s u) (k_badBlocks : g.keys Obj.badBlocks := by assumption) (k_spareMinDie : g.keys Obj.spareMinDie := by assumption) (k_stProgBytes : g.keys Obj.stProgBytes := by assumption) (k_stReadBytes : g.keys Obj.stReadBytes := by assumption) (k_stRefreshes : g.keys Obj.stRefreshes := by assumption) :
    Within g s (State.retireBlock u k) := by
  unfold State.retireBlock
  exact Within.ite h (by
    extract_lets +onlyGivenNames -underBinder -merge n1
    extract_lets +onlyGivenNames -underBinder -merge s2
    have h3 : Within g s s2 := (State.replaceBlock_within p_store h)
    extract_lets +onlyGivenNames -underBinder -merge _ s4
    have h5 : Within g s s4 := (State.setBlock_within p_store h3)
    extract_lets +onlyGivenNames -underBinder -merge s6
    have h7 : Within g s s6 := (State.wr_within h5 _ _)
    extract_lets +onlyGivenNames -underBinder -merge n8
    extract_lets +onlyGivenNames -underBinder -merge _ s9
    have h10 : Within g s s9 := (Within.setStore p_store h7 rfl)
    extract_lets +onlyGivenNames -underBinder -merge n11
    extract_lets +onlyGivenNames -underBinder -merge s12
    have h13 : Within g s s12 := (State.wr_within h10 _ _)
    extract_lets +onlyGivenNames -underBinder -merge s14
    have h15 : Within g s s14 := (Within.ite (State.lifeWarn_within p_start (State.raiseOnce_within h13)) h13)
    exact Within.ite (State.lifeExceed_within p_start h15) h15)

theorem State.drawStripe_within {b : Nat} {pick : Bool} (p_store : Part.store ∈ g.parts) (h : Within g s u) :
    Within g s (State.drawStripe u b pick) := by
  unfold State.drawStripe
  exact Within.foldl (fun x1 x2 h3 => (by
    extract_lets +onlyGivenNames -underBinder -merge n4
    exact Within.ite (by
      split
      · exact State.swapBlocks_within p_store h3
      · exact h3) h3)) h

theorem State.sizeZone_within {z : Nat} {n : Nat} (p_store : Part.store ∈ g.parts) (h : Within g s u) (k_szState : ∀ n, g.keys (Obj.szState n) := by assumption) :
    Within g s (State.sizeZone u z n) := by
  unfold State.sizeZone
  extract_lets +onlyGivenNames -underBinder -merge n1
  extract_lets +onlyGivenNames -underBinder -merge n2
  extract_lets +onlyGivenNames -underBinder -merge s3
  have h4 : Within g s s3 := (Within.foldl (fun x5 x6 h7 => (State.drawStripe_within p_store h7)) h)
  extract_lets +onlyGivenNames -underBinder -merge _ s8
  have h9 : Within g s s8 := (Within.setStore p_store h4 rfl)
  exact State.wr_within h9 _ _

theorem State.append_within {w : Nat} {e : QEntry} {data : Bytes} (p_store : Part.store ∈ g.parts) (h : Within g s u) (k_stHostBytes : g.keys Obj.stHostBytes := by assumption) :
    Within g s (State.append u w e data) := by
  unfold State.append
  extract_lets +onlyGivenNames -underBinder -merge n1
  extract_lets +onlyGivenNames -underBinder -merge n2
  extract_lets +onlyGivenNames -underBinder -merge n3
  exact Within.ite h (by
    extract_lets +onlyGivenNames -underBinder -merge n4
    exact State.count_within (Within.setStore p_store h rfl))

theorem execAppend_within {w : Fin 8} {q : Nat} {data : Bytes} (p_store : Part.store ∈ g.parts) (h : Within g s u) (k_stHostBytes : g.keys Obj.stHostBytes := by assumption) :
    Leads g s (execAppend w q data u) := by
  unfold execAppend
  exact onUnit_within (fun x1 => (State.append_within p_store h)) h

theorem State.programRow_within {z : Nat} {r : Nat} (p_store : Part.store ∈ g.parts) (h : Within g s u) :
    Within g s (State.programRow u z r) := by
  unfold State.programRow
  extract_lets +onlyGivenNames -underBinder -merge n1
  exact Within.foldl (fun x2 x3 h4 => (State.programBlock_within p_store h4)) h

theorem State.openStripe_within (p_store : Part.store ∈ g.parts) (h : Within g s u) :
    Within g s (State.openStripe u) := by
  unfold State.openStripe
  split
  · exact h
  · extract_lets v
    have h1 : Within g s v := State.drawStripe_within p_store h
    clear_value v
    exact Within.setStore p_store h1 rfl

theorem State.writeRow_within {pages : List Nat} (p_store : Part.store ∈ g.parts) (h : Within g s u) (k_stProgBytes : g.keys Obj.stProgBytes := by assumption) :
    Within g s (State.writeRow u pages) := by
  unfold State.writeRow
  extract_lets s1 r
  have h1 : Within g s s1 := Within.ite (State.openStripe_within p_store h) h
  split
  · exact h1
  · extract_lets s2
    have h2 : Within g s s2 := Within.foldl (fun _ _ hv => State.programBlock_within p_store hv) h1
    clear_value s2
    exact State.count_within (Within.setStore p_store h2 rfl)

theorem State.rowProgrammed_within {zone : Option (Fin 4)} {pages : List (Nat × Nat)} (p_store : Part.store ∈ g.parts) (h : Within g s u) (k_stProgBytes : g.keys Obj.stProgBytes := by assumption) :
    Within g s (State.rowProgrammed u zone pages) := by
  unfold State.rowProgrammed
  split
  · split
    · exact h
    · extract_lets +onlyGivenNames -underBinder -merge _ s9
      have h10 : Within g s s9 := (Within.setStore p_store h rfl)
      exact State.count_within (State.programRow_within p_store h10)
  · extract_lets +onlyGivenNames -underBinder -merge n12
    extract_lets +onlyGivenNames -underBinder -merge n13
    exact Within.ite h (State.writeRow_within p_store (Within.setStore p_store h rfl))

theorem execStripeRowProgrammed_within {zone : Option (Fin 4)} {pages : List (Nat × Nat)} (p_store : Part.store ∈ g.parts) (h : Within g s u) (k_stProgBytes : g.keys Obj.stProgBytes := by assumption) :
    Leads g s (execStripeRowProgrammed zone pages u) := by
  unfold execStripeRowProgrammed
  exact Leads.next (State.rowProgrammed_within p_store h)

theorem State.appendDone_within {w : Nat} {e : QEntry} (p_cmd : Part.cmd ∈ g.parts) (p_zones : Part.zones ∈ g.parts) (p_store : Part.store ∈ g.parts) (h : Within g s u) (k_szState : ∀ n, g.keys (Obj.szState n) := by assumption) (k_szWp : ∀ n, g.keys (Obj.szWp n) := by assumption) :
    Within g s (State.appendDone u w e) := by
  unfold State.appendDone
  split
  · exact h
  · next j _ =>
    refine Within.ite h ?_
    extract_lets wp z _ s1 s2 s3
    have h1 : Within g s s1 := Within.many h rfl (fun p => by cases p <;> first | exact .inr rfl | exact .inl ‹_›)
      (fun f => ⟨f.1, f.2, f.3, f.4, f.5, f.6, memWrite_wf _ _ (memClear_wf _ _ f.7), f.8, f.9, f.10, f.11, f.12⟩)
    have h2 : Within g s s2 := State.wr_within h1 _ _
    exact State.unitDone_within p_cmd (Within.ite (State.wr_within h2 _ _) h2)

theorem execAppendDone_within {w : Fin 8} {q : Nat} (p_cmd : Part.cmd ∈ g.parts) (p_zones : Part.zones ∈ g.parts) (p_store : Part.store ∈ g.parts) (h : Within g s u) (k_szState : ∀ n, g.keys (Obj.szState n) := by assumption) (k_szWp : ∀ n, g.keys (Obj.szWp n) := by assumption) :
    Leads g s (execAppendDone w q u) := by
  unfold execAppendDone
  exact onUnit_within (fun x1 => (State.appendDone_within p_cmd p_zones p_store h)) h

theorem State.beginDrain_within {key : Nat} {h2 : Nat} (p_tier : Part.tier ∈ g.parts) (p_store : Part.store ∈ g.parts) (h : Within g s u) (k_ckptHandle : ∀ n, g.keys (Obj.ckptHandle n) := by assumption) (k_ckptState : ∀ n, g.keys (Obj.ckptState n) := by assumption) :
    Within g s (State.beginDrain u key h2) := by
  unfold State.beginDrain
  extract_lets +onlyGivenNames -underBinder -merge _ _ s1
  have h2 : Within g s s1 := (Within.many h rfl (fun p => by cases p <;> first | exact .inr rfl | exact .inl ‹_›) (fun f => ⟨f.1, f.2, f.3, f.4, f.5, f.6, f.7, f.8, f.9, f.10, f.11, f.12⟩) rfl)
  split
  · exact State.wr_within (State.wr_within h2 _ _) _ _
  · exact h2

theorem State.drainFails_within {w : Nat} {e : QEntry} {status : Nat} (p_cmd : Part.cmd ∈ g.parts) (p_tier : Part.tier ∈ g.parts) (p_store : Part.store ∈ g.parts) (h : Within g s u) (k_ckptHandle : ∀ n, g.keys (Obj.ckptHandle n) := by assumption) (k_ckptState : ∀ n, g.keys (Obj.ckptState n) := by assumption) :
    Within g s (State.drainFails u w e status) := by
  unfold State.drainFails
  extract_lets +onlyGivenNames -underBinder -merge n1
  extract_lets +onlyGivenNames -underBinder -merge n2
  extract_lets +onlyGivenNames -underBinder -merge _ _ s3
  have h4 : Within g s s3 := (Within.many h rfl (fun p => by cases p <;> first | exact .inr rfl | exact .inl ‹_›) (fun f => ⟨f.1, f.2, f.3, f.4, f.5, f.6, f.7, f.8, f.9, f.10, f.11, f.12⟩) rfl)
  extract_lets +onlyGivenNames -underBinder -merge s5
  have h6 : Within g s s5 := (by
    unfold s5
    split
    · exact Within.ite (State.wr_within (State.wr_within h4 _ _) _ _) h4
    · exact h4)
  exact State.unitDone_within p_cmd (State.raise_within h6)

theorem State.drainImage_within {w : Nat} {e : QEntry} (p_cmd : Part.cmd ∈ g.parts) (p_tier : Part.tier ∈ g.parts) (p_store : Part.store ∈ g.parts) (h : Within g s u) (k_ckptHandle : ∀ n, g.keys (Obj.ckptHandle n) := by assumption) (k_ckptState : ∀ n, g.keys (Obj.ckptState n) := by assumption) :
    Within g s (State.drainImage u w e) := by
  unfold State.drainImage
  extract_lets +onlyGivenNames -underBinder -merge n1
  extract_lets +onlyGivenNames -underBinder -merge n2
  extract_lets +onlyGivenNames -underBinder -merge s3
  have h4 : Within g s s3 := (Within.ite h (State.beginDrain_within p_tier p_store h))
  extract_lets +onlyGivenNames -underBinder -merge n5
  split
  · exact State.drainFails_within p_cmd p_tier p_store h4
  · exact Within.ite (State.drainFails_within p_cmd p_tier p_store h4) (by
      split
      · exact h4
      · extract_lets +onlyGivenNames -underBinder -merge _ s16
        have h17 : Within g s s16 := (Within.setTier p_tier h4 rfl id)
        exact Within.ite h17 (by
          split
          · exact State.startMove_within p_tier h17
          · exact State.drainFails_within p_cmd p_tier p_store h17))

theorem execDrain_within {w : Fin 8} {q : Nat} (p_cmd : Part.cmd ∈ g.parts) (p_tier : Part.tier ∈ g.parts) (p_store : Part.store ∈ g.parts) (h : Within g s u) (k_ckptHandle : ∀ n, g.keys (Obj.ckptHandle n) := by assumption) (k_ckptState : ∀ n, g.keys (Obj.ckptState n) := by assumption) :
    Leads g s (execDrain w q u) := by
  unfold execDrain
  exact onUnit_within (fun x1 => (State.drainImage_within p_cmd p_tier p_store h)) h

theorem State.drainComplete_within {w : Nat} {e : QEntry} (p_cmd : Part.cmd ∈ g.parts) (p_upd : Part.upd ∈ g.parts) (p_tier : Part.tier ∈ g.parts) (p_store : Part.store ∈ g.parts) (h : Within g s u) (k_ckptDigest : ∀ n, g.keys (Obj.ckptDigest n) := by assumption) (k_ckptHandle : ∀ n, g.keys (Obj.ckptHandle n) := by assumption) (k_ckptState : ∀ n, g.keys (Obj.ckptState n) := by assumption) (k_ckptStep : ∀ n, g.keys (Obj.ckptStep n) := by assumption) :
    Within g s (State.drainComplete u w e) := by
  unfold State.drainComplete
  extract_lets +onlyGivenNames -underBinder -merge n1
  extract_lets +onlyGivenNames -underBinder -merge n2
  split
  · extract_lets +onlyGivenNames -underBinder -merge n12
    exact Within.ite h (by
      extract_lets +onlyGivenNames -underBinder -merge s13
      have h14 : Within g s s13 := (State.wr_within (State.wr_within (State.wr_within (State.wr_within h _ _) _ _) _ _) _ _)
      extract_lets +onlyGivenNames -underBinder -merge _ _ _ s15
      have h16 : Within g s s15 := (Within.many h14 rfl (fun p => by cases p <;> first | exact .inr rfl | exact .inl ‹_›) (fun f => ⟨f.1, f.2, f.3, f.4, f.5, f.6, f.7, f.8, f.9, f.10, f.11, f.12⟩) rfl)
      exact State.unitDone_within p_cmd h16)
  · exact h

theorem execDrainComplete_within {w : Fin 8} {q : Nat} (p_cmd : Part.cmd ∈ g.parts) (p_upd : Part.upd ∈ g.parts) (p_tier : Part.tier ∈ g.parts) (p_store : Part.store ∈ g.parts) (h : Within g s u) (k_ckptDigest : ∀ n, g.keys (Obj.ckptDigest n) := by assumption) (k_ckptHandle : ∀ n, g.keys (Obj.ckptHandle n) := by assumption) (k_ckptState : ∀ n, g.keys (Obj.ckptState n) := by assumption) (k_ckptStep : ∀ n, g.keys (Obj.ckptStep n) := by assumption) :
    Leads g s (execDrainComplete w q u) := by
  unfold execDrainComplete
  exact onUnit_within (fun x1 => (State.drainComplete_within p_cmd p_upd p_tier p_store h)) h

theorem State.damage_within {h1 : Nat} (p_upd : Part.upd ∈ g.parts) (p_store : Part.store ∈ g.parts) (h : Within g s u) (k_ckptState : ∀ n, g.keys (Obj.ckptState n) := by assumption) :
    Within g s (State.damage u h1) := by
  unfold State.damage
  extract_lets +onlyGivenNames -underBinder -merge _ s1
  have h2 : Within g s s1 := (Within.setUpd p_upd h)
  split
  · exact h2
  · extract_lets +onlyGivenNames -underBinder -merge s8
    have h9 : Within g s s8 := (State.raise_within h2)
    exact Within.ite (by
      extract_lets +onlyGivenNames -underBinder -merge s10
      have h11 : Within g s s10 := (State.wr_within h9 _ _)
      exact Within.setStore p_store h11 rfl) h9

theorem State.storeLost_within {u1 : FlashUnit} (p_upd : Part.upd ∈ g.parts) (p_tier : Part.tier ∈ g.parts) (p_store : Part.store ∈ g.parts) (h : Within g s u) (k_ckptState : ∀ n, g.keys (Obj.ckptState n) := by assumption) (k_szState : ∀ n, g.keys (Obj.szState n) := by assumption) :
    Within g s (State.storeLost u u1) := by
  unfold State.storeLost
  split
  · extract_lets +onlyGivenNames -underBinder -merge s4
    have h5 : Within g s s4 := (State.wr_within (State.raise_within h) _ _)
    exact Within.setStore p_store h5 rfl
  · split
    · exact h
    · extract_lets +onlyGivenNames -underBinder -merge s14
      have h15 : Within g s s14 := (State.raise_within h)
      exact Within.ite (State.damage_within p_upd p_store h15) (State.updPage_within p_tier h15)
  · exact h

theorem State.rebuildBlock_within {k : Nat} (p_store : Part.store ∈ g.parts) (h : Within g s u) (k_stProgBytes : g.keys Obj.stProgBytes := by assumption) (k_stReadBytes : g.keys Obj.stReadBytes := by assumption) (k_stRebuilds : g.keys Obj.stRebuilds := by assumption) :
    Within g s (State.rebuildBlock u k) := by
  unfold State.rebuildBlock
  extract_lets +onlyGivenNames -underBinder -merge n1
  extract_lets +onlyGivenNames -underBinder -merge n2
  extract_lets +onlyGivenNames -underBinder -merge n3
  split
  · exact h
  · extract_lets +onlyGivenNames -underBinder -merge s9
    have h10 : Within g s s9 := (Within.foldl (fun x11 x12 h13 => (State.setBlock_within p_store h13)) h)
    extract_lets +onlyGivenNames -underBinder -merge s14
    have h15 : Within g s s14 := (State.count_within (State.countSat_within (State.count_within h10)))
    exact State.programBlock_within p_store (State.setBlock_within p_store (State.swapBlocks_within p_store h15))

theorem State.dieFails_within {die : Nat} (p_store : Part.store ∈ g.parts) (h : Within g s u) (k_diesFailed : g.keys Obj.diesFailed := by assumption) (k_stProgBytes : g.keys Obj.stProgBytes := by assumption) (k_stReadBytes : g.keys Obj.stReadBytes := by assumption) (k_stRebuilds : g.keys Obj.stRebuilds := by assumption) :
    Within g s (State.dieFails u die) := by
  unfold State.dieFails
  exact Within.ite h (by
    extract_lets +onlyGivenNames -underBinder -merge _ s1
    have h2 : Within g s s1 := (Within.setStore p_store h rfl)
    extract_lets +onlyGivenNames -underBinder -merge s3
    have h4 : Within g s s3 := (State.raise_within (State.wr_within h2 _ _))
    exact Within.foldl (fun x5 x6 h7 => (State.rebuildBlock_within p_store h7)) h4)

theorem State.unitFails_within {u1 : FlashUnit} {k : Nat} {levels : Nat} {outcome : Nat} (p_upd : Part.upd ∈ g.parts) (p_tier : Part.tier ∈ g.parts) (p_store : Part.store ∈ g.parts) (p_start : Part.start ∈ g.parts) (h : Within g s u) (k_badBlocks : g.keys Obj.badBlocks := by assumption) (k_ckptState : ∀ n, g.keys (Obj.ckptState n) := by assumption) (k_spareMinDie : g.keys Obj.spareMinDie := by assumption) (k_stProgBytes : g.keys Obj.stProgBytes := by assumption) (k_stReadBytes : g.keys Obj.stReadBytes := by assumption) (k_stRebuilds : g.keys Obj.stRebuilds := by assumption) (k_stRefreshes : g.keys Obj.stRefreshes := by assumption) (k_stRetries : g.keys Obj.stRetries := by assumption) (k_stUncorrectable : g.keys Obj.stUncorrectable := by assumption) (k_szState : ∀ n, g.keys (Obj.szState n) := by assumption) (k_wearAvgPe : g.keys Obj.wearAvgPe := by assumption) (k_wearMaxPe : g.keys Obj.wearMaxPe := by assumption) :
    Within g s (State.unitFails u u1 k levels outcome) := by
  unfold State.unitFails
  extract_lets +onlyGivenNames -underBinder -merge n1
  extract_lets +onlyGivenNames -underBinder -merge s2
  have h3 : Within g s s2 := (Within.foldl (fun x4 x5 h6 => (State.readBlock_within p_store h6)) (State.count_within h))
  exact Within.ite h3 (Within.ite (State.refreshBlock_within p_store p_start (by
    clear_value n1
    split
    · exact State.rebuildUnit_within p_store h3
    · exact State.countSat_within (State.count_within h3))) (by
    extract_lets +onlyGivenNames -underBinder -merge s10
    have h11 : Within g s s10 := (by
      unfold s10
      clear_value n1
      split
      · exact Within.foldl (fun x14 x15 h16 => (State.readBlock_within p_store h16)) h3
      · exact State.count_within h3)
    exact State.retireBlock_within p_store p_start (State.storeLost_within p_upd p_tier p_store (State.countSat_within h11))))

theorem State.flashReadFail_within {u1 : FlashUnit} {die : Nat} {block : Nat} {levels : Nat} {outcome : Nat} (p_upd : Part.upd ∈ g.parts) (p_tier : Part.tier ∈ g.parts) (p_store : Part.store ∈ g.parts) (p_start : Part.start ∈ g.parts) (h : Within g s u) (k_badBlocks : g.keys Obj.badBlocks := by assumption) (k_ckptState : ∀ n, g.keys (Obj.ckptState n) := by assumption) (k_diesFailed : g.keys Obj.diesFailed := by assumption) (k_spareMinDie : g.keys Obj.spareMinDie := by assumption) (k_stProgBytes : g.keys Obj.stProgBytes := by assumption) (k_stReadBytes : g.keys Obj.stReadBytes := by assumption) (k_stRebuilds : g.keys Obj.stRebuilds := by assumption) (k_stRefreshes : g.keys Obj.stRefreshes := by assumption) (k_stRetries : g.keys Obj.stRetries := by assumption) (k_stUncorrectable : g.keys Obj.stUncorrectable := by assumption) (k_szState : ∀ n, g.keys (Obj.szState n) := by assumption) (k_wearAvgPe : g.keys Obj.wearAvgPe := by assumption) (k_wearMaxPe : g.keys Obj.wearMaxPe := by assumption) :
    Within g s (State.flashReadFail u u1 die block levels outcome) := by
  unfold State.flashReadFail
  split
  · exact State.dieFails_within p_store h
  · exact State.unitFails_within p_upd p_tier p_store p_start h

theorem execFlashReadFail_within {u0 : FlashUnit} {die : Fin 256} {block : Fin 1024} {retry : FlashRetry} (p_upd : Part.upd ∈ g.parts) (p_tier : Part.tier ∈ g.parts) (p_store : Part.store ∈ g.parts) (p_start : Part.start ∈ g.parts) (h : Within g s u) (k_badBlocks : g.keys Obj.badBlocks := by assumption) (k_ckptState : ∀ n, g.keys (Obj.ckptState n) := by assumption) (k_diesFailed : g.keys Obj.diesFailed := by assumption) (k_spareMinDie : g.keys Obj.spareMinDie := by assumption) (k_stProgBytes : g.keys Obj.stProgBytes := by assumption) (k_stReadBytes : g.keys Obj.stReadBytes := by assumption) (k_stRebuilds : g.keys Obj.stRebuilds := by assumption) (k_stRefreshes : g.keys Obj.stRefreshes := by assumption) (k_stRetries : g.keys Obj.stRetries := by assumption) (k_stUncorrectable : g.keys Obj.stUncorrectable := by assumption) (k_szState : ∀ n, g.keys (Obj.szState n) := by assumption) (k_wearAvgPe : g.keys Obj.wearAvgPe := by assumption) (k_wearMaxPe : g.keys Obj.wearMaxPe := by assumption) :
    Leads g s (execFlashReadFail u0 die block retry u) := by
  unfold execFlashReadFail
  exact Leads.next (State.flashReadFail_within p_upd p_tier p_store p_start h)

theorem State.garbage_within {stripe : Nat} {most : Nat} (p_store : Part.store ∈ g.parts) (p_start : Part.start ∈ g.parts) (h : Within g s u) (k_stProgBytes : g.keys Obj.stProgBytes := by assumption) (k_stReadBytes : g.keys Obj.stReadBytes := by assumption) (k_wearAvgPe : g.keys Obj.wearAvgPe := by assumption) (k_wearMaxPe : g.keys Obj.wearMaxPe := by assumption) :
    Within g s (State.garbage u stripe most) := by
  unfold State.garbage
  extract_lets +onlyGivenNames -underBinder -merge n1
  extract_lets +onlyGivenNames -underBinder -merge n2
  extract_lets +onlyGivenNames -underBinder -merge n3
  exact Within.ite h (by
    extract_lets +onlyGivenNames -underBinder -merge s4
    have h5 : Within g s s4 := (Within.foldl (fun x6 x7 h8 => (by
      split
      · exact State.readBlock_within p_store h8
      · exact h8)) h)
    extract_lets +onlyGivenNames -underBinder -merge s14
    have h15 : Within g s s14 := (Within.foldl (fun x16 x17 h18 => (State.writeRow_within p_store h18)) h5)
    exact Within.ite h15 (by
      extract_lets +onlyGivenNames -underBinder -merge s19
      have h20 : Within g s s19 := (State.wearNow_within p_start (Within.foldl (fun x21 x22 h23 => (State.eraseBlock_within p_store h23)) h15))
      exact Within.setStore p_store h20 rfl))

theorem execGarbageCollection_within {stripe : Fin 1024} {rows : Nat} (p_store : Part.store ∈ g.parts) (p_start : Part.start ∈ g.parts) (h : Within g s u) (k_stProgBytes : g.keys Obj.stProgBytes := by assumption) (k_stReadBytes : g.keys Obj.stReadBytes := by assumption) (k_wearAvgPe : g.keys Obj.wearAvgPe := by assumption) (k_wearMaxPe : g.keys Obj.wearMaxPe := by assumption) :
    Leads g s (execGarbageCollection stripe rows u) := by
  unfold execGarbageCollection
  exact Leads.next (State.garbage_within p_store p_start h)

theorem State.wearCopy_within {die : Nat} {cold : Nat} {hot : Nat} (p_store : Part.store ∈ g.parts) (p_start : Part.start ∈ g.parts) (h : Within g s u) (k_stProgBytes : g.keys Obj.stProgBytes := by assumption) (k_stReadBytes : g.keys Obj.stReadBytes := by assumption) (k_stRefreshes : g.keys Obj.stRefreshes := by assumption) (k_wearAvgPe : g.keys Obj.wearAvgPe := by assumption) (k_wearMaxPe : g.keys Obj.wearMaxPe := by assumption) :
    Within g s (State.wearCopy u die cold hot) := by
  unfold State.wearCopy
  extract_lets +onlyGivenNames -underBinder -merge n1
  extract_lets +onlyGivenNames -underBinder -merge n2
  exact Within.ite h (State.relocate_within p_store p_start h)

theorem execWearLevelCopy_within {die : Fin 256} {cold : Fin 1024} {hot : Fin 1024} (p_store : Part.store ∈ g.parts) (p_start : Part.start ∈ g.parts) (h : Within g s u) (k_stProgBytes : g.keys Obj.stProgBytes := by assumption) (k_stReadBytes : g.keys Obj.stReadBytes := by assumption) (k_stRefreshes : g.keys Obj.stRefreshes := by assumption) (k_wearAvgPe : g.keys Obj.wearAvgPe := by assumption) (k_wearMaxPe : g.keys Obj.wearMaxPe := by assumption) :
    Leads g s (execWearLevelCopy die cold hot u) := by
  unfold execWearLevelCopy
  exact Leads.next (State.wearCopy_within p_store p_start h)

theorem State.readDisturb_within {die : Nat} {block : Nat} (p_store : Part.store ∈ g.parts) (p_start : Part.start ∈ g.parts) (h : Within g s u) (k_stProgBytes : g.keys Obj.stProgBytes := by assumption) (k_stReadBytes : g.keys Obj.stReadBytes := by assumption) (k_stRefreshes : g.keys Obj.stRefreshes := by assumption) (k_wearAvgPe : g.keys Obj.wearAvgPe := by assumption) (k_wearMaxPe : g.keys Obj.wearMaxPe := by assumption) :
    Within g s (State.readDisturb u die block) := by
  unfold State.readDisturb
  extract_lets +onlyGivenNames -underBinder -merge n1
  extract_lets +onlyGivenNames -underBinder -merge n2
  extract_lets +onlyGivenNames -underBinder -merge n3
  exact Within.ite (State.refreshBlock_within p_store p_start h) h

theorem execReadDisturbRefresh_within {die : Fin 256} {block : Fin 1024} (p_store : Part.store ∈ g.parts) (p_start : Part.start ∈ g.parts) (h : Within g s u) (k_stProgBytes : g.keys Obj.stProgBytes := by assumption) (k_stReadBytes : g.keys Obj.stReadBytes := by assumption) (k_stRefreshes : g.keys Obj.stRefreshes := by assumption) (k_wearAvgPe : g.keys Obj.wearAvgPe := by assumption) (k_wearMaxPe : g.keys Obj.wearMaxPe := by assumption) :
    Leads g s (execReadDisturbRefresh die block u) := by
  unfold execReadDisturbRefresh
  exact Leads.next (State.readDisturb_within p_store p_start h)

theorem State.readScan_within {weak : List (Nat × Nat)} (p_store : Part.store ∈ g.parts) (p_start : Part.start ∈ g.parts) (h : Within g s u) (k_stProgBytes : g.keys Obj.stProgBytes := by assumption) (k_stReadBytes : g.keys Obj.stReadBytes := by assumption) (k_stRefreshes : g.keys Obj.stRefreshes := by assumption) (k_wearAvgPe : g.keys Obj.wearAvgPe := by assumption) (k_wearMaxPe : g.keys Obj.wearMaxPe := by assumption) :
    Within g s (State.readScan u weak) := by
  unfold State.readScan
  exact Within.ite h (by
    extract_lets +onlyGivenNames -underBinder -merge n1
    extract_lets +onlyGivenNames -underBinder -merge n2
    extract_lets +onlyGivenNames -underBinder -merge _ s3
    have h4 : Within g s s3 := (State.count_within (Within.setStore p_store h rfl))
    exact Within.foldl (fun x5 x6 h7 => (State.refreshBlock_within p_store p_start h7)) h4)

theorem execPowerUpReadScan_within {weak : List (Nat × Nat)} (p_store : Part.store ∈ g.parts) (p_start : Part.start ∈ g.parts) (h : Within g s u) (k_stProgBytes : g.keys Obj.stProgBytes := by assumption) (k_stReadBytes : g.keys Obj.stReadBytes := by assumption) (k_stRefreshes : g.keys Obj.stRefreshes := by assumption) (k_wearAvgPe : g.keys Obj.wearAvgPe := by assumption) (k_wearMaxPe : g.keys Obj.wearMaxPe := by assumption) :
    Leads g s (execPowerUpReadScan weak u) := by
  unfold execPowerUpReadScan
  exact Leads.next (State.readScan_within p_store p_start h)

end Sys2Proof.Machine
end

