-- ==== Sys2Proof/Laws/WithinIngest.lean ====
section
/-! SUPPORT. What each operation of Machine/Ingest.lean may change, and that it keeps the form of the state. -/
namespace Sys2Proof.Machine
set_option Elab.async false

variable {g : Scope} {s u : State}

theorem State.countZoneRead_within {e : SampleEntry} (p_store : Part.store ∈ g.parts) (h : Within g s u) (k_stReadBytes : g.keys Obj.stReadBytes := by assumption) :
    Within g s (State.countZoneRead u e) := by
  unfold State.countZoneRead
  exact Within.ite h (Within.foldl (fun x1 x2 h3 => (State.readBlock_within p_store h3)) h)

theorem State.confirmRead_within {e : SampleEntry} {srcH : Nat} {cause : Nat} (p_store : Part.store ∈ g.parts) (h : Within g s u) (k_stReadBytes : g.keys Obj.stReadBytes := by assumption) (k_stRebuilds : g.keys Obj.stRebuilds := by assumption) :
    Within g s (State.confirmRead u e srcH cause) := by
  unfold State.confirmRead
  exact Within.ite (Within.foldl (fun x1 x2 h3 => (State.rebuildUnit_within p_store h3)) h) h

theorem State.putTokens_within {p1 : Profile} {layer : Nat} {first : Nat} {t4 : Nat} {line : Nat → Nat → PatchLine} {put : State → Nat → Bytes → State} (p_tile : Part.tile ∈ g.parts) (hf6 : ∀ v0 v1 v2, Within g s v0 → Within g s (put v0 v1 v2)) (h : Within g s u) (k_cumElements : g.keys Obj.cumElements := by assumption) (k_cumNonfinite : g.keys Obj.cumNonfinite := by assumption) (k_cumSaturation : g.keys Obj.cumSaturation := by assumption) (k_cumUnderflow : g.keys Obj.cumUnderflow := by assumption) :
    Within g s (State.putTokens u p1 layer first t4 line put) := by
  unfold State.putTokens
  extract_lets +onlyGivenNames -underBinder -merge n1
  extract_lets +onlyGivenNames -underBinder -merge n2
  exact Within.foldl (fun x3 x4 h5 => (Within.foldl (fun x6 x7 h8 => (by
    extract_lets +onlyGivenNames -underBinder -merge n9
    extract_lets +onlyGivenNames -underBinder -merge n10
    extract_lets +onlyGivenNames -underBinder -merge s11
    have h12 : Within g s s11 := (hf6 _ _ _ h8)
    extract_lets +onlyGivenNames -underBinder -merge s13
    have h14 : Within g s s13 := (Within.ite (hf6 _ _ _ h12) h12)
    exact State.tally_within p_tile h14)) h5)) h

theorem State.putSample_within {d : In} {p2 : Profile} {line : Nat → Nat → PatchLine} (p_scratch : Part.scratch ∈ g.parts) (p_castMem : Part.castMem ∈ g.parts) (p_tile : Part.tile ∈ g.parts) (p_mem : Part.mem ∈ g.parts) (p_tier : Part.tier ∈ g.parts) (h : Within g s u) (k_cumElements : g.keys Obj.cumElements := by assumption) (k_cumNonfinite : g.keys Obj.cumNonfinite := by assumption) (k_cumSaturation : g.keys Obj.cumSaturation := by assumption) (k_cumUnderflow : g.keys Obj.cumUnderflow := by assumption) :
    Within g s (State.putSample u d p2 line) := by
  unfold State.putSample
  exact Within.ite (State.putTokens_within p_tile (fun x1 x2 x3 h4 => (State.regionWrite_within p_mem p_tier h4)) h) (by
    extract_lets +onlyGivenNames -underBinder -merge n5
    exact Within.foldl (fun x6 x7 h8 => (State.putTokens_within p_tile (fun x9 x10 x11 h12 => (State.putBytes_within p_scratch p_castMem h12)) h8)) h)

theorem State.inDispatch_within {w : Nat} {e : QEntry} (p_store : Part.store ∈ g.parts) (h : Within g s u) :
    Within g s (State.inDispatch u w e) := by
  unfold State.inDispatch
  extract_lets +onlyGivenNames -underBinder -merge n1
  split
  · exact Within.setStore p_store h rfl
  · exact Within.setStore p_store h rfl
  · exact Within.setStore p_store h rfl
  · exact h

theorem execProfile_within {w : Fin 8} {q : Nat} (p_cmd : Part.cmd ∈ g.parts) (h : Within g s u) :
    Leads g s (execProfile w q u) := by
  unfold execProfile
  exact onUnit_within (fun x1 => (State.unitDone_within p_cmd h)) h

theorem execEngineConfig_within {w : Fin 8} {q : Nat} (p_cmd : Part.cmd ∈ g.parts) (h : Within g s u) :
    Leads g s (execEngineConfig w q u) := by
  unfold execEngineConfig
  exact onUnit_within (fun x1 => (State.unitDone_within p_cmd h)) h

theorem State.setJob_within {key : Nat} {j : SampleJob} (p_store : Part.store ∈ g.parts) (h : Within g s u) :
    Within g s (State.setJob u key j) := by
  unfold State.setJob
  exact Within.setStore p_store h rfl

theorem State.sampleAccess_within {key : Nat} {d : In} {i : Nat} {read : Bool} (p_tier : Part.tier ∈ g.parts) (h : Within g s u) (k_tmWaitCycles : g.keys Obj.tmWaitCycles := by assumption) :
    Within g s (State.sampleAccess u key d i read).1 := by
  unfold State.sampleAccess
  split
  · next _ _ _ y4 =>
    exact Within.iteFst (Within.fst (Within.pair (State.access_within p_tier h) y4)) (State.access_within p_tier (Within.pair (State.access_within p_tier h) y4))

theorem State.writeWork_within {k : Nat} {n : Nat} (p_mem : Part.mem ∈ g.parts) (p_tier : Part.tier ∈ g.parts) (p_free : Part.free ∈ g.parts) (h : Within g s u) :
    Within g s (State.writeWork u k n) := by
  unfold State.writeWork
  split
  · exact h
  · extract_lets +onlyGivenNames -underBinder -merge n7
    extract_lets +onlyGivenNames -underBinder -merge s8
    have h9 : Within g s s8 := (State.regionWrite_within p_mem p_tier h)
    exact Within.setFree p_free h9

theorem State.startSample_within {w : Nat} {e : QEntry} (p_cmd : Part.cmd ∈ g.parts) (p_mem : Part.mem ∈ g.parts) (p_tier : Part.tier ∈ g.parts) (p_store : Part.store ∈ g.parts) (p_free : Part.free ∈ g.parts) (h : Within g s u) (k_decState : ∀ n, g.keys (Obj.decState n) := by assumption) (k_stReadBytes : g.keys Obj.stReadBytes := by assumption) (k_stRebuilds : g.keys Obj.stRebuilds := by assumption) (k_tmWaitCycles : g.keys Obj.tmWaitCycles := by assumption) :
    Within g s (State.startSample u w e) := by
  unfold State.startSample
  extract_lets +onlyGivenNames -underBinder -merge n1
  extract_lets +onlyGivenNames -underBinder -merge n2
  extract_lets +onlyGivenNames -underBinder -merge n3
  split
  · next _ _ _ y7 =>
    exact Within.ite (Within.pair (State.sampleAccess_within p_tier h) y7) (Within.ite (State.unitDone_within p_cmd (State.hitStatus_within p_cmd (Within.pair (State.sampleAccess_within p_tier h) y7))) (by
      split
      · exact Within.pair (State.sampleAccess_within p_tier h) y7
      · split
        · next _ _ y15 =>
          exact Within.pair (State.writable_within p_tier (Within.pair (State.sampleAccess_within p_tier h) y7)) y15
        · next _ _ y18 =>
          extract_lets +onlyGivenNames -underBinder -merge n19
          extract_lets +onlyGivenNames -underBinder -merge n20
          extract_lets +onlyGivenNames -underBinder -merge n21
          extract_lets +onlyGivenNames -underBinder -merge n22
          extract_lets +onlyGivenNames -underBinder -merge n23
          extract_lets +onlyGivenNames -underBinder -merge s24
          have h25 : Within g s s24 := (Within.ite (State.confirmRead_within p_store (State.countZoneRead_within p_store (Within.pair (State.writable_within p_tier (Within.pair (State.sampleAccess_within p_tier h) y7)) y18))) (Within.pair (State.writable_within p_tier (Within.pair (State.sampleAccess_within p_tier h) y7)) y18))
          extract_lets +onlyGivenNames -underBinder -merge s26
          have h27 : Within g s s26 := (Within.ite (State.writeWork_within p_mem p_tier p_free h25) h25)
          exact State.setJob_within p_store (State.wr_within h27 _ _)))

theorem State.sample_within {w : Nat} {e : QEntry} (p_cmd : Part.cmd ∈ g.parts) (p_mem : Part.mem ∈ g.parts) (p_tier : Part.tier ∈ g.parts) (p_store : Part.store ∈ g.parts) (p_free : Part.free ∈ g.parts) (h : Within g s u) (k_decState : ∀ n, g.keys (Obj.decState n) := by assumption) (k_stReadBytes : g.keys Obj.stReadBytes := by assumption) (k_stRebuilds : g.keys Obj.stRebuilds := by assumption) (k_tmWaitCycles : g.keys Obj.tmWaitCycles := by assumption) :
    Within g s (State.sample u w e) := by
  unfold State.sample
  split
  · exact State.setJob_within p_store h
  · exact Within.ite (State.startSample_within p_cmd p_mem p_tier p_store p_free h) h

theorem execSample_within {w : Fin 8} {q : Nat} (p_cmd : Part.cmd ∈ g.parts) (p_mem : Part.mem ∈ g.parts) (p_tier : Part.tier ∈ g.parts) (p_store : Part.store ∈ g.parts) (p_free : Part.free ∈ g.parts) (h : Within g s u) (k_decState : ∀ n, g.keys (Obj.decState n) := by assumption) (k_stReadBytes : g.keys Obj.stReadBytes := by assumption) (k_stRebuilds : g.keys Obj.stRebuilds := by assumption) (k_tmWaitCycles : g.keys Obj.tmWaitCycles := by assumption) :
    Leads g s (execSample w q u) := by
  unfold execSample
  exact onUnit_within (fun x1 => (State.sample_within p_cmd p_mem p_tier p_store p_free h)) h

theorem State.sampleTiles_within {w : Nat} {q : Nat} {tag : Nat} {d : In} (p_cmd : Part.cmd ∈ g.parts) (p_tile : Part.tile ∈ g.parts) (h : Within g s u) (k_barCompletions : g.keys Obj.barCompletions := by assumption) (k_syncFaults : g.keys Obj.syncFaults := by assumption) :
    Within g s (State.sampleTiles u w q tag d) := by
  unfold State.sampleTiles
  exact Within.ite h (Within.foldl (fun x1 x2 h3 => (by
    extract_lets +onlyGivenNames -underBinder -merge s4
    have h5 : Within g s s4 := (State.semAdd_within p_cmd p_tile h3)
    exact Within.ite (State.arrive_within p_cmd p_tile h5) h5)) h)

theorem State.sampleFails_within {d : In} {index : Nat} {cause : Nat} (h : Within g s u) (k_inSampleErrors : g.keys Obj.inSampleErrors := by assumption) (k_lastErrorCause : g.keys Obj.lastErrorCause := by assumption) :
    Within g s (State.sampleFails u d index cause) := by
  unfold State.sampleFails
  exact State.wr_within (State.countSat_within (State.raise_within h)) _ _

theorem State.sampleComplete_within {w : Nat} {e : QEntry} (p_cmd : Part.cmd ∈ g.parts) (p_scratch : Part.scratch ∈ g.parts) (p_castMem : Part.castMem ∈ g.parts) (p_tile : Part.tile ∈ g.parts) (p_mem : Part.mem ∈ g.parts) (p_tier : Part.tier ∈ g.parts) (p_store : Part.store ∈ g.parts) (h : Within g s u) (k_barCompletions : g.keys Obj.barCompletions := by assumption) (k_cumElements : g.keys Obj.cumElements := by assumption) (k_cumNonfinite : g.keys Obj.cumNonfinite := by assumption) (k_cumSaturation : g.keys Obj.cumSaturation := by assumption) (k_cumUnderflow : g.keys Obj.cumUnderflow := by assumption) (k_decState : ∀ n, g.keys (Obj.decState n) := by assumption) (k_inFrames : g.keys Obj.inFrames := by assumption) (k_inSampleErrors : g.keys Obj.inSampleErrors := by assumption) (k_inSamples : g.keys Obj.inSamples := by assumption) (k_inTokens : g.keys Obj.inTokens := by assumption) (k_lastErrorCause : g.keys Obj.lastErrorCause := by assumption) (k_syncFaults : g.keys Obj.syncFaults := by assumption) (k_tmWaitCycles : g.keys Obj.tmWaitCycles := by assumption) :
    Within g s (State.sampleComplete u w e) := by
  unfold State.sampleComplete
  extract_lets +onlyGivenNames -underBinder -merge n1
  extract_lets +onlyGivenNames -underBinder -merge n2
  split
  · exact h
  · extract_lets +onlyGivenNames -underBinder -merge n8
    split
    · next _ _ _ y12 =>
      exact Within.ite (Within.pair (Within.iteFst (State.access_within p_tier h) (Within.fst h)) y12) (by
        extract_lets +onlyGivenNames -underBinder -merge n13
        extract_lets +onlyGivenNames -underBinder -merge n14
        extract_lets +onlyGivenNames -underBinder -merge s15
        have h16 : Within g s s15 := (State.count_within (State.wr_within (State.setJob_within p_store (Within.pair (Within.iteFst (State.access_within p_tier h) (Within.fst h)) y12)) _ _))
        extract_lets +onlyGivenNames -underBinder -merge n17
        extract_lets +onlyGivenNames -underBinder -merge s18
        have h19 : Within g s s18 := (State.count_within h16)
        exact Within.ite (by
          extract_lets +onlyGivenNames -underBinder -merge n20
          exact State.unitDone_within p_cmd (State.sampleTiles_within p_cmd p_tile (State.count_within (State.inStep_within p_tile (fun x21 h22 => (State.putSample_within p_scratch p_castMem p_tile p_mem p_tier h22)) h19)))) (by
          extract_lets +onlyGivenNames -underBinder -merge s23
          have h24 : Within g s s23 := (State.sampleFails_within h19)
          exact Within.ite (State.haltWin_within p_cmd (State.unitDone_within p_cmd h24)) (State.unitDone_within p_cmd (State.sampleTiles_within p_cmd p_tile (State.count_within (State.inStep_within p_tile (fun x25 h26 => (State.putSample_within p_scratch p_castMem p_tile p_mem p_tier h26)) h24))))))

theorem execSampleComplete_within {w : Fin 8} {q : Nat} (p_cmd : Part.cmd ∈ g.parts) (p_scratch : Part.scratch ∈ g.parts) (p_castMem : Part.castMem ∈ g.parts) (p_tile : Part.tile ∈ g.parts) (p_mem : Part.mem ∈ g.parts) (p_tier : Part.tier ∈ g.parts) (p_store : Part.store ∈ g.parts) (h : Within g s u) (k_barCompletions : g.keys Obj.barCompletions := by assumption) (k_cumElements : g.keys Obj.cumElements := by assumption) (k_cumNonfinite : g.keys Obj.cumNonfinite := by assumption) (k_cumSaturation : g.keys Obj.cumSaturation := by assumption) (k_cumUnderflow : g.keys Obj.cumUnderflow := by assumption) (k_decState : ∀ n, g.keys (Obj.decState n) := by assumption) (k_inFrames : g.keys Obj.inFrames := by assumption) (k_inSampleErrors : g.keys Obj.inSampleErrors := by assumption) (k_inSamples : g.keys Obj.inSamples := by assumption) (k_inTokens : g.keys Obj.inTokens := by assumption) (k_lastErrorCause : g.keys Obj.lastErrorCause := by assumption) (k_syncFaults : g.keys Obj.syncFaults := by assumption) (k_tmWaitCycles : g.keys Obj.tmWaitCycles := by assumption) :
    Leads g s (execSampleComplete w q u) := by
  unfold execSampleComplete
  exact onUnit_within (fun x1 => (State.sampleComplete_within p_cmd p_scratch p_castMem p_tile p_mem p_tier p_store h)) h

theorem State.decoderStall_within {k : Nat} (p_cmd : Part.cmd ∈ g.parts) (p_mem : Part.mem ∈ g.parts) (p_tier : Part.tier ∈ g.parts) (p_store : Part.store ∈ g.parts) (p_free : Part.free ∈ g.parts) (h : Within g s u) (k_decState : ∀ n, g.keys (Obj.decState n) := by assumption) (k_inEngineResets : g.keys Obj.inEngineResets := by assumption) (k_stReadBytes : g.keys Obj.stReadBytes := by assumption) (k_stRebuilds : g.keys Obj.stRebuilds := by assumption) (k_tmWaitCycles : g.keys Obj.tmWaitCycles := by assumption) :
    Within g s (State.decoderStall u k) := by
  unfold State.decoderStall
  split
  · exact h
  · exact Within.ite h (by
      extract_lets +onlyGivenNames -underBinder -merge n7
      extract_lets +onlyGivenNames -underBinder -merge s8
      have h9 : Within g s s8 := (State.countSat_within h)
      extract_lets +onlyGivenNames -underBinder -merge _ s10
      have h11 : Within g s s10 := (Within.setStore p_store h9 rfl)
      extract_lets +onlyGivenNames -underBinder -merge s12
      have h13 : Within g s s12 := (State.wr_within h11 _ _)
      extract_lets +onlyGivenNames -underBinder -merge s14
      have h15 : Within g s s14 := (Within.ite (State.raise_within h13) h13)
      split
      · exact State.startSample_within p_cmd p_mem p_tier p_store p_free h15
      · exact h15)

theorem execDecoderStall_within {k : Fin 16} (p_cmd : Part.cmd ∈ g.parts) (p_mem : Part.mem ∈ g.parts) (p_tier : Part.tier ∈ g.parts) (p_store : Part.store ∈ g.parts) (p_free : Part.free ∈ g.parts) (h : Within g s u) (k_decState : ∀ n, g.keys (Obj.decState n) := by assumption) (k_inEngineResets : g.keys Obj.inEngineResets := by assumption) (k_stReadBytes : g.keys Obj.stReadBytes := by assumption) (k_stRebuilds : g.keys Obj.stRebuilds := by assumption) (k_tmWaitCycles : g.keys Obj.tmWaitCycles := by assumption) :
    Leads g s (execDecoderStall k u) := by
  unfold execDecoderStall
  exact Leads.next (State.decoderStall_within p_cmd p_mem p_tier p_store p_free h)

theorem State.fetch_within {w : Nat} {e : QEntry} (p_cmd : Part.cmd ∈ g.parts) (p_mem : Part.mem ∈ g.parts) (p_tier : Part.tier ∈ g.parts) (p_store : Part.store ∈ g.parts) (h : Within g s u) (k_inSampleErrors : g.keys Obj.inSampleErrors := by assumption) (k_lastErrorCause : g.keys Obj.lastErrorCause := by assumption) (k_stReadBytes : g.keys Obj.stReadBytes := by assumption) (k_stRebuilds : g.keys Obj.stRebuilds := by assumption) (k_tmWaitCycles : g.keys Obj.tmWaitCycles := by assumption) :
    Within g s (State.fetch u w e) := by
  unfold State.fetch
  extract_lets +onlyGivenNames -underBinder -merge n1
  extract_lets +onlyGivenNames -underBinder -merge n2
  extract_lets +onlyGivenNames -underBinder -merge n3
  split
  · next _ _ _ y7 =>
    exact Within.ite (Within.pair (State.sampleAccess_within p_tier h) y7) (Within.ite (State.unitDone_within p_cmd (State.hitStatus_within p_cmd (Within.pair (State.sampleAccess_within p_tier h) y7))) (by
      extract_lets +onlyGivenNames -underBinder -merge n8
      extract_lets +onlyGivenNames -underBinder -merge n9
      extract_lets +onlyGivenNames -underBinder -merge n10
      split
      · next _ _ _ y14 =>
        exact Within.ite (Within.pair (State.access_within p_tier (Within.pair (State.sampleAccess_within p_tier h) y7)) y14) (by
          extract_lets +onlyGivenNames -underBinder -merge n15
          extract_lets +onlyGivenNames -underBinder -merge s16
          have h17 : Within g s s16 := (State.confirmRead_within p_store (State.countZoneRead_within p_store (Within.pair (State.access_within p_tier (Within.pair (State.sampleAccess_within p_tier h) y7)) y14)))
          exact Within.ite (State.unitDone_within p_cmd (State.sampleFails_within h17)) (State.unitDone_within p_cmd (State.regionWrite_within p_mem p_tier h17)))))

theorem execFetch_within {w : Fin 8} {q : Nat} (p_cmd : Part.cmd ∈ g.parts) (p_mem : Part.mem ∈ g.parts) (p_tier : Part.tier ∈ g.parts) (p_store : Part.store ∈ g.parts) (h : Within g s u) (k_inSampleErrors : g.keys Obj.inSampleErrors := by assumption) (k_lastErrorCause : g.keys Obj.lastErrorCause := by assumption) (k_stReadBytes : g.keys Obj.stReadBytes := by assumption) (k_stRebuilds : g.keys Obj.stRebuilds := by assumption) (k_tmWaitCycles : g.keys Obj.tmWaitCycles := by assumption) :
    Leads g s (execFetch w q u) := by
  unfold execFetch
  exact onUnit_within (fun x1 => (State.fetch_within p_cmd p_mem p_tier p_store h)) h

theorem State.eraseZone_within {z : Nat} (p_zones : Part.zones ∈ g.parts) (p_store : Part.store ∈ g.parts) (p_start : Part.start ∈ g.parts) (h : Within g s u) (k_szState : ∀ n, g.keys (Obj.szState n) := by assumption) (k_szWp : ∀ n, g.keys (Obj.szWp n) := by assumption) (k_wearAvgPe : g.keys Obj.wearAvgPe := by assumption) (k_wearMaxPe : g.keys Obj.wearMaxPe := by assumption) :
    Within g s (State.eraseZone u z) := by
  unfold State.eraseZone
  extract_lets ks s1 _ s2
  have h1 : Within g s s1 := State.wearNow_within p_start (Within.foldl (fun _ _ hv => Within.ite (State.eraseBlock_within p_store hv) hv) h)
  have h2 : Within g s s2 := Within.many h1 rfl (fun p => by cases p <;> first | exact .inr rfl | exact .inl ‹_›)
    (fun f => ⟨f.1, f.2, f.3, f.4, f.5, f.6, memClear_wf _ _ f.7, f.8, f.9, f.10, f.11, f.12⟩)
  exact State.wr_within (State.wr_within h2 _ _) _ _

theorem execSzReset_within {src : Src} {z : Fin 4} {arg : Nat} (p_zones : Part.zones ∈ g.parts) (p_store : Part.store ∈ g.parts) (p_start : Part.start ∈ g.parts) (h : Within g s u) (k_dictRejected : g.keys Obj.dictRejected := by assumption) (k_szState : ∀ n, g.keys (Obj.szState n) := by assumption) (k_szWp : ∀ n, g.keys (Obj.szWp n) := by assumption) (k_wearAvgPe : g.keys Obj.wearAvgPe := by assumption) (k_wearMaxPe : g.keys Obj.wearMaxPe := by assumption) :
    Leads g s (execSzReset src z arg u) := by
  unfold execSzReset
  exact Leads.next (State.act_within (fun x1 h2 => (State.eraseZone_within p_zones p_store p_start h2)) h)

end Sys2Proof.Machine
end

