-- ==== Sys2Proof/Laws/WithinCollective.lean ====
section
/-! SUPPORT. What each operation of Machine/Collective.lean may change, and that it keeps the form of the state. -/
namespace Sys2Proof.Machine
set_option Elab.async false

variable {g : Scope} {s u : State}

theorem State.modeMismatch_within {m : Nat} {epoch : Nat} {digest : Nat} (p_coll : Part.coll ∈ g.parts) (h : Within g s u) (k_groupState : g.keys Obj.groupState := by assumption) :
    Within g s (State.modeMismatch u m epoch digest) := by
  unfold State.modeMismatch
  extract_lets +onlyGivenNames -underBinder -merge s1
  have h2 : Within g s s1 := (Within.ite (State.wr_within h _ _) h)
  extract_lets +onlyGivenNames -underBinder -merge s3
  have h4 : Within g s s3 := (State.raiseOnce_within h2)
  exact Within.ite h4 (Within.setColl p_coll h4)

theorem State.modeMatched_within {step : Nat} (p_coll : Part.coll ∈ g.parts) (h : Within g s u) (k_collMismatchCycles : g.keys Obj.collMismatchCycles := by assumption) (k_groupState : g.keys Obj.groupState := by assumption) :
    Within g s (State.modeMatched u step) := by
  unfold State.modeMatched
  extract_lets +onlyGivenNames -underBinder -merge s1
  have h2 : Within g s s1 := (State.endStall_within p_coll h)
  exact Within.setColl p_coll h2

theorem State.resumeReduces_within (p_coll : Part.coll ∈ g.parts) (h : Within g s u) (k_collMismatchCycles : g.keys Obj.collMismatchCycles := by assumption) (k_groupState : g.keys Obj.groupState := by assumption) :
    Within g s (State.resumeReduces u) := by
  unfold State.resumeReduces
  exact Within.ite (State.endStall_within p_coll h) h

theorem State.onMode_within {m : Msg} {f : State → State} (p_coll : Part.coll ∈ g.parts) (hf2 : ∀ v0, Within g s v0 → Within g s (f v0)) (h : Within g s u) (k_collMismatchCycles : g.keys Obj.collMismatchCycles := by assumption) (k_groupState : g.keys Obj.groupState := by assumption) :
    Within g s (State.onMode u m f) := by
  unfold State.onMode
  exact Within.ite (hf2 _ (State.resumeReduces_within p_coll (Within.setColl p_coll h))) (State.modeMismatch_within p_coll (Within.setColl p_coll h))

theorem State.epochWait_within {step : Nat} (p_coll : Part.coll ∈ g.parts) (h : Within g s u) (k_collMismatchCycles : g.keys Obj.collMismatchCycles := by assumption) (k_groupState : g.keys Obj.groupState := by assumption) :
    Within g s (State.epochWait u step).1 := by
  unfold State.epochWait
  exact Within.iteFst (Within.fst h) (Within.iteFst (Within.fst (State.modeMatched_within p_coll h)) (by
    split
    · exact Within.fst (State.modeMismatch_within p_coll h)
    · exact Within.iteFst (Within.fst (State.modeMatched_within p_coll h)) (Within.fst h)))

theorem onColl_within {w : Fin 8} {q : Nat} {op : Nat} {f : State → QEntry → State} (p_coll : Part.coll ∈ g.parts) (hf4 : ∀ v0 v1, Within g s v0 → Within g s (f v0 v1)) (h : Within g s u) (k_collMismatchCycles : g.keys Obj.collMismatchCycles := by assumption) (k_groupState : g.keys Obj.groupState := by assumption) :
    Leads g s (onColl w q op u f) := by
  unfold onColl
  exact onUnit_within (fun x1 => (by
    split
    · next _ _ _ y5 =>
      exact Within.ite (hf4 _ _ (Within.pair (State.epochWait_within p_coll h) y5)) (Within.pair (State.epochWait_within p_coll h) y5))) h

theorem State.openSpan_within {w : Nat} {e : QEntry} (p_spans : Part.spans ∈ g.parts) (h : Within g s u) :
    Within g s (State.openSpan u w e) := by
  unfold State.openSpan
  extract_lets +onlyGivenNames -underBinder -merge n1
  exact Within.ite h (by
    extract_lets +onlyGivenNames -underBinder -merge n2
    exact Within.setSpans p_spans h)

theorem execCollectiveOpen_within {w : Fin 8} {q : Nat} (p_cmd : Part.cmd ∈ g.parts) (p_spans : Part.spans ∈ g.parts) (p_coll : Part.coll ∈ g.parts) (h : Within g s u) (k_collMismatchCycles : g.keys Obj.collMismatchCycles := by assumption) (k_groupState : g.keys Obj.groupState := by assumption) :
    Leads g s (execCollectiveOpen w q u) := by
  unfold execCollectiveOpen
  exact onColl_within p_coll (fun x1 x2 h3 => (State.unitDone_within p_cmd (State.openSpan_within p_spans h3))) h

theorem State.sumEvict_within (p_spans : Part.spans ∈ g.parts) (h : Within g s u) :
    Within g s (State.sumEvict u) := by
  unfold State.sumEvict
  exact Within.ite h (by
    split
    · split
      · exact Within.setSpans p_spans h
      · exact h
    · exact h)

theorem execSumPageEvict_within (p_spans : Part.spans ∈ g.parts) (h : Within g s u) :
    Leads g s (execSumPageEvict u) := by
  unfold execSumPageEvict
  exact Leads.next (State.sumEvict_within p_spans h)

theorem State.putJob_within {key : Nat} {j : Job} (p_coll : Part.coll ∈ g.parts) (h : Within g s u) :
    Within g s (State.putJob u key j) := by
  unfold State.putJob
  exact Within.setColl p_coll h

theorem State.dropJob_within {key : Nat} (p_coll : Part.coll ∈ g.parts) (h : Within g s u) :
    Within g s (State.dropJob u key) := by
  unfold State.dropJob
  exact Within.setColl p_coll h

theorem State.sendJob_within {key : Nat} {j : Job} {rank : Nat} {mtype : Nat} {index : Nat} {count : Nat} {body : Bytes} (p_link : Part.link ∈ g.parts) (p_coll : Part.coll ∈ g.parts) (p_cross : Part.cross ∈ g.parts) (h : Within g s u) (k_collBytesTx : g.keys Obj.collBytesTx := by assumption) (k_flitsTx : ∀ n, g.keys (Obj.flitsTx n) := by assumption) :
    Within g s (State.sendJob u key j rank mtype index count body) := by
  unfold State.sendJob
  extract_lets +onlyGivenNames -underBinder -merge n1
  extract_lets +onlyGivenNames -underBinder -merge n2
  extract_lets +onlyGivenNames -underBinder -merge n3
  extract_lets +onlyGivenNames -underBinder -merge _ s4
  have h5 : Within g s s4 := (Within.ite (Within.setColl p_coll h) h)
  exact State.send_within p_link p_coll p_cross h5

theorem State.touchSums_within {j : Job} {lo : Nat} {hi : Nat} (p_spans : Part.spans ∈ g.parts) (p_touches : Part.touches ∈ g.parts) (h : Within g s u) :
    Within g s (State.touchSums u j lo hi) := by
  unfold State.touchSums
  extract_lets +onlyGivenNames -underBinder -merge n1
  split
  · exact State.touchPages_within p_spans p_touches h
  · exact h

theorem State.reduceDone_within {key : Nat} (p_cmd : Part.cmd ∈ g.parts) (h : Within g s u) :
    Within g s (State.reduceDone u key) := by
  unfold State.reduceDone
  split
  · exact h
  · exact Within.ite (State.unitDone_within p_cmd h) h

theorem State.landChunk_within {key : Nat} {c : Nat} (p_cmd : Part.cmd ∈ g.parts) (p_coll : Part.coll ∈ g.parts) (p_mem : Part.mem ∈ g.parts) (p_tier : Part.tier ∈ g.parts) (h : Within g s u) (k_tmWaitCycles : g.keys Obj.tmWaitCycles := by assumption) :
    Within g s (State.landChunk u key c) := by
  unfold State.landChunk
  split
  · exact h
  · extract_lets +onlyGivenNames -underBinder -merge n6
    extract_lets +onlyGivenNames -underBinder -merge n7
    extract_lets +onlyGivenNames -underBinder -merge n8
    exact Within.ite h (by
      extract_lets +onlyGivenNames -underBinder -merge n9
      extract_lets +onlyGivenNames -underBinder -merge n10
      extract_lets +onlyGivenNames -underBinder -merge n11
      split
      · next _ _ y14 =>
        exact Within.pair (State.writable_within p_tier h) y14
      · next _ _ y17 =>
        extract_lets +onlyGivenNames -underBinder -merge s18
        have h19 : Within g s s18 := (Within.foldl (fun x20 x21 h22 => (State.regionWrite_within p_mem p_tier h22)) (Within.pair (State.writable_within p_tier h) y17))
        exact State.reduceDone_within p_cmd (State.putJob_within p_coll h19))

theorem State.takeResult_within {key : Nat} {c : Nat} {part : Nat} {bs : Bytes} (p_cmd : Part.cmd ∈ g.parts) (p_coll : Part.coll ∈ g.parts) (p_mem : Part.mem ∈ g.parts) (p_tier : Part.tier ∈ g.parts) (h : Within g s u) (k_collDuplicates : g.keys Obj.collDuplicates := by assumption) (k_tmWaitCycles : g.keys Obj.tmWaitCycles := by assumption) :
    Within g s (State.takeResult u key c part bs) := by
  unfold State.takeResult
  split
  · exact h
  · extract_lets +onlyGivenNames -underBinder -merge n6
    exact Within.ite (State.count_within h) (State.landChunk_within p_cmd p_coll p_mem p_tier (State.putJob_within p_coll h))

theorem State.readout_within {key : Nat} {c : Nat} (p_cmd : Part.cmd ∈ g.parts) (p_tile : Part.tile ∈ g.parts) (p_link : Part.link ∈ g.parts) (p_coll : Part.coll ∈ g.parts) (p_mem : Part.mem ∈ g.parts) (p_tier : Part.tier ∈ g.parts) (p_cross : Part.cross ∈ g.parts) (h : Within g s u) (k_collBytesTx : g.keys Obj.collBytesTx := by assumption) (k_collDuplicates : g.keys Obj.collDuplicates := by assumption) (k_cumElements : g.keys Obj.cumElements := by assumption) (k_cumNonfinite : g.keys Obj.cumNonfinite := by assumption) (k_cumSaturation : g.keys Obj.cumSaturation := by assumption) (k_cumUnderflow : g.keys Obj.cumUnderflow := by assumption) (k_flitsTx : ∀ n, g.keys (Obj.flitsTx n) := by assumption) (k_tmWaitCycles : g.keys Obj.tmWaitCycles := by assumption) :
    Within g s (State.readout u key c) := by
  unfold State.readout
  split
  · exact h
  · extract_lets +onlyGivenNames -underBinder -merge n6
    extract_lets +onlyGivenNames -underBinder -merge n7
    extract_lets +onlyGivenNames -underBinder -merge n8
    extract_lets +onlyGivenNames -underBinder -merge n9
    extract_lets +onlyGivenNames -underBinder -merge n10
    extract_lets +onlyGivenNames -underBinder -merge s11
    have h12 : Within g s s11 := (State.inStep_within p_tile (fun x13 h14 => (State.tally_within p_tile h14)) h)
    extract_lets +onlyGivenNames -underBinder -merge n15
    exact Within.ite (by
      extract_lets +onlyGivenNames -underBinder -merge n16
      extract_lets +onlyGivenNames -underBinder -merge n17
      extract_lets +onlyGivenNames -underBinder -merge n18
      extract_lets +onlyGivenNames -underBinder -merge s19
      have h20 : Within g s s19 := (Within.ite h12 (Within.foldl (fun x21 x22 h23 => (State.sendJob_within p_link p_coll p_cross (State.sendJob_within p_link p_coll p_cross h23))) h12))
      exact State.takeResult_within p_cmd p_coll p_mem p_tier (State.takeResult_within p_cmd p_coll p_mem p_tier h20)) (by
      extract_lets +onlyGivenNames -underBinder -merge n24
      extract_lets +onlyGivenNames -underBinder -merge s25
      have h26 : Within g s s25 := (Within.ite h12 (Within.foldl (fun x27 x28 h29 => (State.sendJob_within p_link p_coll p_cross h29)) h12))
      exact State.takeResult_within p_cmd p_coll p_mem p_tier h26)

theorem State.takeData_within {key : Nat} {c : Nat} {rank : Nat} {bs : Bytes} (p_cmd : Part.cmd ∈ g.parts) (p_tile : Part.tile ∈ g.parts) (p_link : Part.link ∈ g.parts) (p_coll : Part.coll ∈ g.parts) (p_mem : Part.mem ∈ g.parts) (p_tier : Part.tier ∈ g.parts) (p_cross : Part.cross ∈ g.parts) (h : Within g s u) (k_collBytesTx : g.keys Obj.collBytesTx := by assumption) (k_collDuplicates : g.keys Obj.collDuplicates := by assumption) (k_cumElements : g.keys Obj.cumElements := by assumption) (k_cumNonfinite : g.keys Obj.cumNonfinite := by assumption) (k_cumSaturation : g.keys Obj.cumSaturation := by assumption) (k_cumUnderflow : g.keys Obj.cumUnderflow := by assumption) (k_flitsTx : ∀ n, g.keys (Obj.flitsTx n) := by assumption) (k_tmWaitCycles : g.keys Obj.tmWaitCycles := by assumption) :
    Within g s (State.takeData u key c rank bs) := by
  unfold State.takeData
  split
  · exact h
  · extract_lets +onlyGivenNames -underBinder -merge n6
    extract_lets +onlyGivenNames -underBinder -merge n7
    exact Within.ite (State.count_within h) (by
      extract_lets +onlyGivenNames -underBinder -merge n8
      extract_lets +onlyGivenNames -underBinder -merge n9
      extract_lets +onlyGivenNames -underBinder -merge n10
      extract_lets +onlyGivenNames -underBinder -merge s11
      have h12 : Within g s s11 := (State.putJob_within p_coll h)
      exact Within.ite (State.readout_within p_cmd p_tile p_link p_coll p_mem p_tier p_cross h12) h12)

theorem State.wireOne_within {key : Nat} {c : Nat} {agreed : Bytes} (p_cmd : Part.cmd ∈ g.parts) (p_tile : Part.tile ∈ g.parts) (p_spans : Part.spans ∈ g.parts) (p_touches : Part.touches ∈ g.parts) (p_link : Part.link ∈ g.parts) (p_coll : Part.coll ∈ g.parts) (p_mem : Part.mem ∈ g.parts) (p_tier : Part.tier ∈ g.parts) (p_cross : Part.cross ∈ g.parts) (h : Within g s u) (k_collBytesTx : g.keys Obj.collBytesTx := by assumption) (k_collDuplicates : g.keys Obj.collDuplicates := by assumption) (k_cumElements : g.keys Obj.cumElements := by assumption) (k_cumNonfinite : g.keys Obj.cumNonfinite := by assumption) (k_cumSaturation : g.keys Obj.cumSaturation := by assumption) (k_cumUnderflow : g.keys Obj.cumUnderflow := by assumption) (k_flitsTx : ∀ n, g.keys (Obj.flitsTx n) := by assumption) (k_tmWaitCycles : g.keys Obj.tmWaitCycles := by assumption) :
    Within g s (State.wireOne u key c agreed) := by
  unfold State.wireOne
  split
  · exact h
  · extract_lets +onlyGivenNames -underBinder -merge n6
    exact Within.ite h (by
      extract_lets +onlyGivenNames -underBinder -merge n7
      extract_lets +onlyGivenNames -underBinder -merge n8
      extract_lets +onlyGivenNames -underBinder -merge s9
      have h10 : Within g s s9 := (State.touchSums_within p_spans p_touches h)
      extract_lets +onlyGivenNames -underBinder -merge s11
      have h12 : Within g s s11 := (State.inStep_within p_tile (fun x13 h14 => (State.tally_within p_tile h14)) h10)
      extract_lets +onlyGivenNames -underBinder -merge n15
      extract_lets +onlyGivenNames -underBinder -merge s16
      have h17 : Within g s s16 := (State.putJob_within p_coll h12)
      exact Within.ite (State.takeData_within p_cmd p_tile p_link p_coll p_mem p_tier p_cross h17) (State.sendJob_within p_link p_coll p_cross h17))

theorem State.sweepJob_within {key : Nat} (p_coll : Part.coll ∈ g.parts) (h : Within g s u) :
    Within g s (State.sweepJob u key) := by
  unfold State.sweepJob
  split
  · exact Within.ite (State.dropJob_within p_coll h) h
  · exact h

theorem State.takeAgreed_within {key : Nat} {first : Nat} {bs : Bytes} (p_cmd : Part.cmd ∈ g.parts) (p_tile : Part.tile ∈ g.parts) (p_spans : Part.spans ∈ g.parts) (p_touches : Part.touches ∈ g.parts) (p_link : Part.link ∈ g.parts) (p_coll : Part.coll ∈ g.parts) (p_mem : Part.mem ∈ g.parts) (p_tier : Part.tier ∈ g.parts) (p_cross : Part.cross ∈ g.parts) (h : Within g s u) (k_collBytesTx : g.keys Obj.collBytesTx := by assumption) (k_collDuplicates : g.keys Obj.collDuplicates := by assumption) (k_cumElements : g.keys Obj.cumElements := by assumption) (k_cumNonfinite : g.keys Obj.cumNonfinite := by assumption) (k_cumSaturation : g.keys Obj.cumSaturation := by assumption) (k_cumUnderflow : g.keys Obj.cumUnderflow := by assumption) (k_flitsTx : ∀ n, g.keys (Obj.flitsTx n) := by assumption) (k_tmWaitCycles : g.keys Obj.tmWaitCycles := by assumption) :
    Within g s (State.takeAgreed u key first bs) := by
  unfold State.takeAgreed
  split
  · exact h
  · exact State.sweepJob_within p_coll (Within.foldl (fun x6 x7 h8 => (State.wireOne_within p_cmd p_tile p_spans p_touches p_link p_coll p_mem p_tier p_cross h8)) h)

theorem State.takeExps_within {key : Nat} {first : Nat} {rank : Nat} {bs : Bytes} (p_cmd : Part.cmd ∈ g.parts) (p_tile : Part.tile ∈ g.parts) (p_spans : Part.spans ∈ g.parts) (p_touches : Part.touches ∈ g.parts) (p_link : Part.link ∈ g.parts) (p_coll : Part.coll ∈ g.parts) (p_mem : Part.mem ∈ g.parts) (p_tier : Part.tier ∈ g.parts) (p_cross : Part.cross ∈ g.parts) (h : Within g s u) (k_collBytesTx : g.keys Obj.collBytesTx := by assumption) (k_collDuplicates : g.keys Obj.collDuplicates := by assumption) (k_cumElements : g.keys Obj.cumElements := by assumption) (k_cumNonfinite : g.keys Obj.cumNonfinite := by assumption) (k_cumSaturation : g.keys Obj.cumSaturation := by assumption) (k_cumUnderflow : g.keys Obj.cumUnderflow := by assumption) (k_flitsTx : ∀ n, g.keys (Obj.flitsTx n) := by assumption) (k_tmWaitCycles : g.keys Obj.tmWaitCycles := by assumption) :
    Within g s (State.takeExps u key first rank bs) := by
  unfold State.takeExps
  split
  · exact h
  · exact Within.ite h (by
      extract_lets +onlyGivenNames -underBinder -merge n6
      extract_lets +onlyGivenNames -underBinder -merge s7
      have h8 : Within g s s7 := (State.putJob_within p_coll h)
      exact Within.ite (by
        extract_lets +onlyGivenNames -underBinder -merge n9
        extract_lets +onlyGivenNames -underBinder -merge s10
        have h11 : Within g s s10 := (Within.foldl (fun x12 x13 h14 => (State.sendJob_within p_link p_coll p_cross h14)) h8)
        exact State.takeAgreed_within p_cmd p_tile p_spans p_touches p_link p_coll p_mem p_tier p_cross h11) h8)

theorem State.gatherDone_within {key : Nat} (p_cmd : Part.cmd ∈ g.parts) (p_coll : Part.coll ∈ g.parts) (h : Within g s u) :
    Within g s (State.gatherDone u key) := by
  unfold State.gatherDone
  split
  · exact h
  · extract_lets +onlyGivenNames -underBinder -merge n6
    exact Within.ite (State.unitDone_within p_cmd (State.dropJob_within p_coll h)) h

theorem State.landPiece_within {key : Nat} {k : Nat} (p_cmd : Part.cmd ∈ g.parts) (p_coll : Part.coll ∈ g.parts) (p_mem : Part.mem ∈ g.parts) (p_tier : Part.tier ∈ g.parts) (h : Within g s u) (k_tmWaitCycles : g.keys Obj.tmWaitCycles := by assumption) :
    Within g s (State.landPiece u key k) := by
  unfold State.landPiece
  split
  · exact h
  · extract_lets +onlyGivenNames -underBinder -merge n6
    extract_lets +onlyGivenNames -underBinder -merge n7
    extract_lets +onlyGivenNames -underBinder -merge n8
    exact Within.ite h (by
      split
      · next _ _ y11 =>
        exact Within.pair (State.writable_within p_tier h) y11
      · next _ _ y14 =>
        exact State.gatherDone_within p_cmd p_coll (State.putJob_within p_coll (State.regionWrite_within p_mem p_tier (Within.pair (State.writable_within p_tier h) y14))))

theorem State.takeGather_within {key : Nat} {rank : Nat} {piece : Nat} {bs : Bytes} (p_cmd : Part.cmd ∈ g.parts) (p_coll : Part.coll ∈ g.parts) (p_mem : Part.mem ∈ g.parts) (p_tier : Part.tier ∈ g.parts) (h : Within g s u) (k_collDuplicates : g.keys Obj.collDuplicates := by assumption) (k_tmWaitCycles : g.keys Obj.tmWaitCycles := by assumption) :
    Within g s (State.takeGather u key rank piece bs) := by
  unfold State.takeGather
  split
  · exact h
  · extract_lets +onlyGivenNames -underBinder -merge n6
    exact Within.ite (State.count_within h) (State.landPiece_within p_cmd p_coll p_mem p_tier (State.putJob_within p_coll h))

theorem State.landHeld_within (p_cmd : Part.cmd ∈ g.parts) (p_coll : Part.coll ∈ g.parts) (p_mem : Part.mem ∈ g.parts) (p_tier : Part.tier ∈ g.parts) (h : Within g s u) (k_tmWaitCycles : g.keys Obj.tmWaitCycles := by assumption) :
    Within g s (State.landHeld u) := by
  unfold State.landHeld
  exact Within.foldl (fun x1 x2 h3 => (Within.ite (Within.foldl (fun x4 x5 h6 => (State.landChunk_within p_cmd p_coll p_mem p_tier h6)) h3) (Within.ite (Within.foldl (fun x7 x8 h9 => (State.landPiece_within p_cmd p_coll p_mem p_tier h9)) h3) h3))) h

theorem State.agreeDone_within {key : Nat} {bs : Bytes} (p_cmd : Part.cmd ∈ g.parts) (p_scratch : Part.scratch ∈ g.parts) (p_castMem : Part.castMem ∈ g.parts) (p_coll : Part.coll ∈ g.parts) (h : Within g s u) :
    Within g s (State.agreeDone u key bs) := by
  unfold State.agreeDone
  split
  · exact h
  · extract_lets +onlyGivenNames -underBinder -merge n6
    extract_lets +onlyGivenNames -underBinder -merge s7
    have h8 : Within g s s7 := (State.putBytes_within p_scratch p_castMem h)
    exact State.unitDone_within p_cmd (State.dropJob_within p_coll h8)

theorem State.takeAgree_within {key : Nat} {rank : Nat} {bs : Bytes} (p_cmd : Part.cmd ∈ g.parts) (p_scratch : Part.scratch ∈ g.parts) (p_castMem : Part.castMem ∈ g.parts) (p_link : Part.link ∈ g.parts) (p_coll : Part.coll ∈ g.parts) (p_cross : Part.cross ∈ g.parts) (h : Within g s u) (k_collBytesTx : g.keys Obj.collBytesTx := by assumption) (k_collDuplicates : g.keys Obj.collDuplicates := by assumption) (k_flitsTx : ∀ n, g.keys (Obj.flitsTx n) := by assumption) :
    Within g s (State.takeAgree u key rank bs) := by
  unfold State.takeAgree
  split
  · exact h
  · exact Within.ite (State.count_within h) (by
      extract_lets +onlyGivenNames -underBinder -merge n6
      extract_lets +onlyGivenNames -underBinder -merge s7
      have h8 : Within g s s7 := (State.putJob_within p_coll h)
      exact Within.ite (by
        extract_lets +onlyGivenNames -underBinder -merge n9
        extract_lets +onlyGivenNames -underBinder -merge s10
        have h11 : Within g s s10 := (Within.foldl (fun x12 x13 h14 => (State.sendJob_within p_link p_coll p_cross h14)) h8)
        exact State.agreeDone_within p_cmd p_scratch p_castMem p_coll h11) h8)

theorem State.scalarDone_within {key : Nat} (p_cmd : Part.cmd ∈ g.parts) (p_coll : Part.coll ∈ g.parts) (h : Within g s u) :
    Within g s (State.scalarDone u key) := by
  unfold State.scalarDone
  split
  · exact h
  · extract_lets +onlyGivenNames -underBinder -merge n6
    exact Within.ite h (by
      extract_lets +onlyGivenNames -underBinder -merge _ s7
      have h8 : Within g s s7 := (Within.ite (Within.setColl p_coll h) h)
      exact State.unitDone_within p_cmd (State.dropJob_within p_coll h8))

theorem State.scalarResult_within {key : Nat} {bs : Bytes} (p_cmd : Part.cmd ∈ g.parts) (p_scratch : Part.scratch ∈ g.parts) (p_castMem : Part.castMem ∈ g.parts) (p_coll : Part.coll ∈ g.parts) (h : Within g s u) (k_collDuplicates : g.keys Obj.collDuplicates := by assumption) :
    Within g s (State.scalarResult u key bs) := by
  unfold State.scalarResult
  split
  · exact h
  · extract_lets +onlyGivenNames -underBinder -merge n6
    exact Within.ite (State.count_within h) (by
      extract_lets +onlyGivenNames -underBinder -merge s7
      have h8 : Within g s s7 := (State.putBytes_within p_scratch p_castMem h)
      extract_lets +onlyGivenNames -underBinder -merge _ s9
      have h10 : Within g s s9 := (Within.ite (Within.setColl p_coll h8) h8)
      exact State.scalarDone_within p_cmd p_coll (State.putJob_within p_coll h10))

theorem State.takeScalar_within {key : Nat} {rank : Nat} {bs : Bytes} (p_cmd : Part.cmd ∈ g.parts) (p_scratch : Part.scratch ∈ g.parts) (p_castMem : Part.castMem ∈ g.parts) (p_tile : Part.tile ∈ g.parts) (p_link : Part.link ∈ g.parts) (p_coll : Part.coll ∈ g.parts) (p_cross : Part.cross ∈ g.parts) (h : Within g s u) (k_collBytesTx : g.keys Obj.collBytesTx := by assumption) (k_collDuplicates : g.keys Obj.collDuplicates := by assumption) (k_cumElements : g.keys Obj.cumElements := by assumption) (k_cumNonfinite : g.keys Obj.cumNonfinite := by assumption) (k_cumSaturation : g.keys Obj.cumSaturation := by assumption) (k_cumUnderflow : g.keys Obj.cumUnderflow := by assumption) (k_flitsTx : ∀ n, g.keys (Obj.flitsTx n) := by assumption) :
    Within g s (State.takeScalar u key rank bs) := by
  unfold State.takeScalar
  split
  · exact h
  · exact Within.ite (State.count_within h) (by
      extract_lets +onlyGivenNames -underBinder -merge n6
      extract_lets +onlyGivenNames -underBinder -merge n7
      extract_lets +onlyGivenNames -underBinder -merge s8
      have h9 : Within g s s8 := (State.putJob_within p_coll h)
      exact Within.ite (by
        extract_lets +onlyGivenNames -underBinder -merge n10
        extract_lets +onlyGivenNames -underBinder -merge s11
        have h12 : Within g s s11 := (State.inStep_within p_tile (fun x13 h14 => (State.tally_within p_tile h14)) h9)
        extract_lets +onlyGivenNames -underBinder -merge n15
        extract_lets +onlyGivenNames -underBinder -merge s16
        have h17 : Within g s s16 := (Within.foldl (fun x18 x19 h20 => (State.sendJob_within p_link p_coll p_cross h20)) h12)
        exact State.scalarResult_within p_cmd p_scratch p_castMem p_coll h17) h9)

theorem State.takeCountOut_within {key : Nat} {k : Nat} {bs : Bytes} (p_cmd : Part.cmd ∈ g.parts) (p_coll : Part.coll ∈ g.parts) (h : Within g s u) (k_collDuplicates : g.keys Obj.collDuplicates := by assumption) :
    Within g s (State.takeCountOut u key k bs) := by
  unfold State.takeCountOut
  split
  · exact h
  · exact Within.ite (State.count_within h) (State.scalarDone_within p_cmd p_coll (State.putJob_within p_coll h))

theorem State.takeCountIn_within {key : Nat} {k : Nat} {rank : Nat} {bs : Bytes} (p_cmd : Part.cmd ∈ g.parts) (p_link : Part.link ∈ g.parts) (p_coll : Part.coll ∈ g.parts) (p_cross : Part.cross ∈ g.parts) (h : Within g s u) (k_collBytesTx : g.keys Obj.collBytesTx := by assumption) (k_collDuplicates : g.keys Obj.collDuplicates := by assumption) (k_flitsTx : ∀ n, g.keys (Obj.flitsTx n) := by assumption) :
    Within g s (State.takeCountIn u key k rank bs) := by
  unfold State.takeCountIn
  split
  · exact h
  · exact Within.ite (State.count_within h) (by
      extract_lets +onlyGivenNames -underBinder -merge n6
      extract_lets +onlyGivenNames -underBinder -merge s7
      have h8 : Within g s s7 := (State.putJob_within p_coll h)
      extract_lets +onlyGivenNames -underBinder -merge n9
      exact Within.ite (by
        extract_lets +onlyGivenNames -underBinder -merge n10
        extract_lets +onlyGivenNames -underBinder -merge s11
        have h12 : Within g s s11 := (Within.foldl (fun x13 x14 h15 => (State.sendJob_within p_link p_coll p_cross h15)) h8)
        exact State.takeCountOut_within p_cmd p_coll h12) h8)

theorem State.onMsg_within {key : Nat} {rank : Nat} {m : Msg} (p_cmd : Part.cmd ∈ g.parts) (p_scratch : Part.scratch ∈ g.parts) (p_castMem : Part.castMem ∈ g.parts) (p_tile : Part.tile ∈ g.parts) (p_spans : Part.spans ∈ g.parts) (p_touches : Part.touches ∈ g.parts) (p_link : Part.link ∈ g.parts) (p_coll : Part.coll ∈ g.parts) (p_mem : Part.mem ∈ g.parts) (p_tier : Part.tier ∈ g.parts) (p_cross : Part.cross ∈ g.parts) (h : Within g s u) (k_collBytesTx : g.keys Obj.collBytesTx := by assumption) (k_collDuplicates : g.keys Obj.collDuplicates := by assumption) (k_cumElements : g.keys Obj.cumElements := by assumption) (k_cumNonfinite : g.keys Obj.cumNonfinite := by assumption) (k_cumSaturation : g.keys Obj.cumSaturation := by assumption) (k_cumUnderflow : g.keys Obj.cumUnderflow := by assumption) (k_flitsTx : ∀ n, g.keys (Obj.flitsTx n) := by assumption) (k_tmWaitCycles : g.keys Obj.tmWaitCycles := by assumption) :
    Within g s (State.onMsg u key rank m) := by
  unfold State.onMsg
  extract_lets +onlyGivenNames -underBinder -merge n1
  split
  · exact Within.ite (State.takeAgree_within p_cmd p_scratch p_castMem p_link p_coll p_cross h) (State.takeExps_within p_cmd p_tile p_spans p_touches p_link p_coll p_mem p_tier p_cross h)
  · exact Within.ite (State.agreeDone_within p_cmd p_scratch p_castMem p_coll h) (State.takeAgreed_within p_cmd p_tile p_spans p_touches p_link p_coll p_mem p_tier p_cross h)
  · exact State.takeData_within p_cmd p_tile p_link p_coll p_mem p_tier p_cross h
  · exact Within.ite (State.takeResult_within p_cmd p_coll p_mem p_tier h) (State.takeResult_within p_cmd p_coll p_mem p_tier h)
  · exact State.takeGather_within p_cmd p_coll p_mem p_tier h
  · exact Within.ite (State.takeScalar_within p_cmd p_scratch p_castMem p_tile p_link p_coll p_cross h) (State.takeCountIn_within p_cmd p_link p_coll p_cross h)
  · exact Within.ite (State.scalarResult_within p_cmd p_scratch p_castMem p_coll h) (State.takeCountOut_within p_cmd p_coll h)
  · exact h

theorem State.keepMsg_within {m : Msg} (p_coll : Part.coll ∈ g.parts) (h : Within g s u) :
    Within g s (State.keepMsg u m) := by
  unfold State.keepMsg
  exact Within.setColl p_coll h

theorem State.collMsg_within {m : Msg} (p_prep : Part.prep ∈ g.parts) (p_bar0 : Part.bar0 ∈ g.parts) (p_cmd : Part.cmd ∈ g.parts) (p_scratch : Part.scratch ∈ g.parts) (p_castMem : Part.castMem ∈ g.parts) (p_tile : Part.tile ∈ g.parts) (p_spans : Part.spans ∈ g.parts) (p_touches : Part.touches ∈ g.parts) (p_upd : Part.upd ∈ g.parts) (p_link : Part.link ∈ g.parts) (p_coll : Part.coll ∈ g.parts) (p_mem : Part.mem ∈ g.parts) (p_tier : Part.tier ∈ g.parts) (p_store : Part.store ∈ g.parts) (p_cross : Part.cross ∈ g.parts) (h : Within g s u) (k_actMode : g.keys Obj.actMode := by assumption) (k_actStep : g.keys Obj.actStep := by assumption) (k_collBytesTx : g.keys Obj.collBytesTx := by assumption) (k_collDuplicates : g.keys Obj.collDuplicates := by assumption) (k_collMismatchCycles : g.keys Obj.collMismatchCycles := by assumption) (k_cumElements : g.keys Obj.cumElements := by assumption) (k_cumNonfinite : g.keys Obj.cumNonfinite := by assumption) (k_cumSaturation : g.keys Obj.cumSaturation := by assumption) (k_cumUnderflow : g.keys Obj.cumUnderflow := by assumption) (k_decState : ∀ n, g.keys (Obj.decState n) := by assumption) (k_flitsTx : ∀ n, g.keys (Obj.flitsTx n) := by assumption) (k_groupState : g.keys Obj.groupState := by assumption) (k_prepEpoch : g.keys Obj.prepEpoch := by assumption) (k_prepStep : g.keys Obj.prepStep := by assumption) (k_tmWaitCycles : g.keys Obj.tmWaitCycles := by assumption) :
    Within g s (State.collMsg u m) := by
  unfold State.collMsg
  exact Within.ite h (Within.ite (State.keepMsg_within p_coll h) (Within.ite h (State.onMode_within p_coll (fun x1 h2 => (Within.ite (Within.ite (State.abortStep_within p_prep p_bar0 p_cmd p_castMem p_tile p_spans p_upd p_coll p_tier p_store h2) h2) (by
    split
    · exact State.keepMsg_within p_coll h2
    · exact State.onMsg_within p_cmd p_scratch p_castMem p_tile p_spans p_touches p_link p_coll p_mem p_tier p_cross h2))) h)))

theorem State.openInbox_within (p_prep : Part.prep ∈ g.parts) (p_bar0 : Part.bar0 ∈ g.parts) (p_cmd : Part.cmd ∈ g.parts) (p_scratch : Part.scratch ∈ g.parts) (p_castMem : Part.castMem ∈ g.parts) (p_tile : Part.tile ∈ g.parts) (p_spans : Part.spans ∈ g.parts) (p_touches : Part.touches ∈ g.parts) (p_upd : Part.upd ∈ g.parts) (p_link : Part.link ∈ g.parts) (p_coll : Part.coll ∈ g.parts) (p_mem : Part.mem ∈ g.parts) (p_tier : Part.tier ∈ g.parts) (p_store : Part.store ∈ g.parts) (p_cross : Part.cross ∈ g.parts) (h : Within g s u) (k_actMode : g.keys Obj.actMode := by assumption) (k_actStep : g.keys Obj.actStep := by assumption) (k_collBytesTx : g.keys Obj.collBytesTx := by assumption) (k_collDuplicates : g.keys Obj.collDuplicates := by assumption) (k_collMismatchCycles : g.keys Obj.collMismatchCycles := by assumption) (k_cumElements : g.keys Obj.cumElements := by assumption) (k_cumNonfinite : g.keys Obj.cumNonfinite := by assumption) (k_cumSaturation : g.keys Obj.cumSaturation := by assumption) (k_cumUnderflow : g.keys Obj.cumUnderflow := by assumption) (k_decState : ∀ n, g.keys (Obj.decState n) := by assumption) (k_flitsTx : ∀ n, g.keys (Obj.flitsTx n) := by assumption) (k_groupState : g.keys Obj.groupState := by assumption) (k_prepEpoch : g.keys Obj.prepEpoch := by assumption) (k_prepStep : g.keys Obj.prepStep := by assumption) (k_tmWaitCycles : g.keys Obj.tmWaitCycles := by assumption) :
    Within g s (State.openInbox u) := by
  unfold State.openInbox
  exact Within.foldl (fun x1 x2 h3 => (State.collMsg_within p_prep p_bar0 p_cmd p_scratch p_castMem p_tile p_spans p_touches p_upd p_link p_coll p_mem p_tier p_store p_cross h3)) (Within.setColl p_coll h)

theorem execMsgExponent_within {m : Msg} (p_prep : Part.prep ∈ g.parts) (p_bar0 : Part.bar0 ∈ g.parts) (p_cmd : Part.cmd ∈ g.parts) (p_scratch : Part.scratch ∈ g.parts) (p_castMem : Part.castMem ∈ g.parts) (p_tile : Part.tile ∈ g.parts) (p_spans : Part.spans ∈ g.parts) (p_touches : Part.touches ∈ g.parts) (p_upd : Part.upd ∈ g.parts) (p_link : Part.link ∈ g.parts) (p_coll : Part.coll ∈ g.parts) (p_mem : Part.mem ∈ g.parts) (p_tier : Part.tier ∈ g.parts) (p_store : Part.store ∈ g.parts) (p_cross : Part.cross ∈ g.parts) (h : Within g s u) (k_actMode : g.keys Obj.actMode := by assumption) (k_actStep : g.keys Obj.actStep := by assumption) (k_collBytesTx : g.keys Obj.collBytesTx := by assumption) (k_collDuplicates : g.keys Obj.collDuplicates := by assumption) (k_collMismatchCycles : g.keys Obj.collMismatchCycles := by assumption) (k_cumElements : g.keys Obj.cumElements := by assumption) (k_cumNonfinite : g.keys Obj.cumNonfinite := by assumption) (k_cumSaturation : g.keys Obj.cumSaturation := by assumption) (k_cumUnderflow : g.keys Obj.cumUnderflow := by assumption) (k_decState : ∀ n, g.keys (Obj.decState n) := by assumption) (k_flitsTx : ∀ n, g.keys (Obj.flitsTx n) := by assumption) (k_groupState : g.keys Obj.groupState := by assumption) (k_prepEpoch : g.keys Obj.prepEpoch := by assumption) (k_prepStep : g.keys Obj.prepStep := by assumption) (k_tmWaitCycles : g.keys Obj.tmWaitCycles := by assumption) :
    Leads g s (execMsgExponent m u) := by
  unfold execMsgExponent
  exact Leads.next (State.collMsg_within p_prep p_bar0 p_cmd p_scratch p_castMem p_tile p_spans p_touches p_upd p_link p_coll p_mem p_tier p_store p_cross h)

theorem execMsgAgreed_within {m : Msg} (p_prep : Part.prep ∈ g.parts) (p_bar0 : Part.bar0 ∈ g.parts) (p_cmd : Part.cmd ∈ g.parts) (p_scratch : Part.scratch ∈ g.parts) (p_castMem : Part.castMem ∈ g.parts) (p_tile : Part.tile ∈ g.parts) (p_spans : Part.spans ∈ g.parts) (p_touches : Part.touches ∈ g.parts) (p_upd : Part.upd ∈ g.parts) (p_link : Part.link ∈ g.parts) (p_coll : Part.coll ∈ g.parts) (p_mem : Part.mem ∈ g.parts) (p_tier : Part.tier ∈ g.parts) (p_store : Part.store ∈ g.parts) (p_cross : Part.cross ∈ g.parts) (h : Within g s u) (k_actMode : g.keys Obj.actMode := by assumption) (k_actStep : g.keys Obj.actStep := by assumption) (k_collBytesTx : g.keys Obj.collBytesTx := by assumption) (k_collDuplicates : g.keys Obj.collDuplicates := by assumption) (k_collMismatchCycles : g.keys Obj.collMismatchCycles := by assumption) (k_cumElements : g.keys Obj.cumElements := by assumption) (k_cumNonfinite : g.keys Obj.cumNonfinite := by assumption) (k_cumSaturation : g.keys Obj.cumSaturation := by assumption) (k_cumUnderflow : g.keys Obj.cumUnderflow := by assumption) (k_decState : ∀ n, g.keys (Obj.decState n) := by assumption) (k_flitsTx : ∀ n, g.keys (Obj.flitsTx n) := by assumption) (k_groupState : g.keys Obj.groupState := by assumption) (k_prepEpoch : g.keys Obj.prepEpoch := by assumption) (k_prepStep : g.keys Obj.prepStep := by assumption) (k_tmWaitCycles : g.keys Obj.tmWaitCycles := by assumption) :
    Leads g s (execMsgAgreed m u) := by
  unfold execMsgAgreed
  exact Leads.next (State.collMsg_within p_prep p_bar0 p_cmd p_scratch p_castMem p_tile p_spans p_touches p_upd p_link p_coll p_mem p_tier p_store p_cross h)

theorem execMsgData_within {m : Msg} (p_prep : Part.prep ∈ g.parts) (p_bar0 : Part.bar0 ∈ g.parts) (p_cmd : Part.cmd ∈ g.parts) (p_scratch : Part.scratch ∈ g.parts) (p_castMem : Part.castMem ∈ g.parts) (p_tile : Part.tile ∈ g.parts) (p_spans : Part.spans ∈ g.parts) (p_touches : Part.touches ∈ g.parts) (p_upd : Part.upd ∈ g.parts) (p_link : Part.link ∈ g.parts) (p_coll : Part.coll ∈ g.parts) (p_mem : Part.mem ∈ g.parts) (p_tier : Part.tier ∈ g.parts) (p_store : Part.store ∈ g.parts) (p_cross : Part.cross ∈ g.parts) (h : Within g s u) (k_actMode : g.keys Obj.actMode := by assumption) (k_actStep : g.keys Obj.actStep := by assumption) (k_collBytesTx : g.keys Obj.collBytesTx := by assumption) (k_collDuplicates : g.keys Obj.collDuplicates := by assumption) (k_collMismatchCycles : g.keys Obj.collMismatchCycles := by assumption) (k_cumElements : g.keys Obj.cumElements := by assumption) (k_cumNonfinite : g.keys Obj.cumNonfinite := by assumption) (k_cumSaturation : g.keys Obj.cumSaturation := by assumption) (k_cumUnderflow : g.keys Obj.cumUnderflow := by assumption) (k_decState : ∀ n, g.keys (Obj.decState n) := by assumption) (k_flitsTx : ∀ n, g.keys (Obj.flitsTx n) := by assumption) (k_groupState : g.keys Obj.groupState := by assumption) (k_prepEpoch : g.keys Obj.prepEpoch := by assumption) (k_prepStep : g.keys Obj.prepStep := by assumption) (k_tmWaitCycles : g.keys Obj.tmWaitCycles := by assumption) :
    Leads g s (execMsgData m u) := by
  unfold execMsgData
  exact Leads.next (State.collMsg_within p_prep p_bar0 p_cmd p_scratch p_castMem p_tile p_spans p_touches p_upd p_link p_coll p_mem p_tier p_store p_cross h)

theorem execMsgResult_within {m : Msg} (p_prep : Part.prep ∈ g.parts) (p_bar0 : Part.bar0 ∈ g.parts) (p_cmd : Part.cmd ∈ g.parts) (p_scratch : Part.scratch ∈ g.parts) (p_castMem : Part.castMem ∈ g.parts) (p_tile : Part.tile ∈ g.parts) (p_spans : Part.spans ∈ g.parts) (p_touches : Part.touches ∈ g.parts) (p_upd : Part.upd ∈ g.parts) (p_link : Part.link ∈ g.parts) (p_coll : Part.coll ∈ g.parts) (p_mem : Part.mem ∈ g.parts) (p_tier : Part.tier ∈ g.parts) (p_store : Part.store ∈ g.parts) (p_cross : Part.cross ∈ g.parts) (h : Within g s u) (k_actMode : g.keys Obj.actMode := by assumption) (k_actStep : g.keys Obj.actStep := by assumption) (k_collBytesTx : g.keys Obj.collBytesTx := by assumption) (k_collDuplicates : g.keys Obj.collDuplicates := by assumption) (k_collMismatchCycles : g.keys Obj.collMismatchCycles := by assumption) (k_cumElements : g.keys Obj.cumElements := by assumption) (k_cumNonfinite : g.keys Obj.cumNonfinite := by assumption) (k_cumSaturation : g.keys Obj.cumSaturation := by assumption) (k_cumUnderflow : g.keys Obj.cumUnderflow := by assumption) (k_decState : ∀ n, g.keys (Obj.decState n) := by assumption) (k_flitsTx : ∀ n, g.keys (Obj.flitsTx n) := by assumption) (k_groupState : g.keys Obj.groupState := by assumption) (k_prepEpoch : g.keys Obj.prepEpoch := by assumption) (k_prepStep : g.keys Obj.prepStep := by assumption) (k_tmWaitCycles : g.keys Obj.tmWaitCycles := by assumption) :
    Leads g s (execMsgResult m u) := by
  unfold execMsgResult
  exact Leads.next (State.collMsg_within p_prep p_bar0 p_cmd p_scratch p_castMem p_tile p_spans p_touches p_upd p_link p_coll p_mem p_tier p_store p_cross h)

theorem execMsgGather_within {m : Msg} (p_prep : Part.prep ∈ g.parts) (p_bar0 : Part.bar0 ∈ g.parts) (p_cmd : Part.cmd ∈ g.parts) (p_scratch : Part.scratch ∈ g.parts) (p_castMem : Part.castMem ∈ g.parts) (p_tile : Part.tile ∈ g.parts) (p_spans : Part.spans ∈ g.parts) (p_touches : Part.touches ∈ g.parts) (p_upd : Part.upd ∈ g.parts) (p_link : Part.link ∈ g.parts) (p_coll : Part.coll ∈ g.parts) (p_mem : Part.mem ∈ g.parts) (p_tier : Part.tier ∈ g.parts) (p_store : Part.store ∈ g.parts) (p_cross : Part.cross ∈ g.parts) (h : Within g s u) (k_actMode : g.keys Obj.actMode := by assumption) (k_actStep : g.keys Obj.actStep := by assumption) (k_collBytesTx : g.keys Obj.collBytesTx := by assumption) (k_collDuplicates : g.keys Obj.collDuplicates := by assumption) (k_collMismatchCycles : g.keys Obj.collMismatchCycles := by assumption) (k_cumElements : g.keys Obj.cumElements := by assumption) (k_cumNonfinite : g.keys Obj.cumNonfinite := by assumption) (k_cumSaturation : g.keys Obj.cumSaturation := by assumption) (k_cumUnderflow : g.keys Obj.cumUnderflow := by assumption) (k_decState : ∀ n, g.keys (Obj.decState n) := by assumption) (k_flitsTx : ∀ n, g.keys (Obj.flitsTx n) := by assumption) (k_groupState : g.keys Obj.groupState := by assumption) (k_prepEpoch : g.keys Obj.prepEpoch := by assumption) (k_prepStep : g.keys Obj.prepStep := by assumption) (k_tmWaitCycles : g.keys Obj.tmWaitCycles := by assumption) :
    Leads g s (execMsgGather m u) := by
  unfold execMsgGather
  exact Leads.next (State.collMsg_within p_prep p_bar0 p_cmd p_scratch p_castMem p_tile p_spans p_touches p_upd p_link p_coll p_mem p_tier p_store p_cross h)

theorem execMsgScalar_within {m : Msg} (p_prep : Part.prep ∈ g.parts) (p_bar0 : Part.bar0 ∈ g.parts) (p_cmd : Part.cmd ∈ g.parts) (p_scratch : Part.scratch ∈ g.parts) (p_castMem : Part.castMem ∈ g.parts) (p_tile : Part.tile ∈ g.parts) (p_spans : Part.spans ∈ g.parts) (p_touches : Part.touches ∈ g.parts) (p_upd : Part.upd ∈ g.parts) (p_link : Part.link ∈ g.parts) (p_coll : Part.coll ∈ g.parts) (p_mem : Part.mem ∈ g.parts) (p_tier : Part.tier ∈ g.parts) (p_store : Part.store ∈ g.parts) (p_cross : Part.cross ∈ g.parts) (h : Within g s u) (k_actMode : g.keys Obj.actMode := by assumption) (k_actStep : g.keys Obj.actStep := by assumption) (k_collBytesTx : g.keys Obj.collBytesTx := by assumption) (k_collDuplicates : g.keys Obj.collDuplicates := by assumption) (k_collMismatchCycles : g.keys Obj.collMismatchCycles := by assumption) (k_cumElements : g.keys Obj.cumElements := by assumption) (k_cumNonfinite : g.keys Obj.cumNonfinite := by assumption) (k_cumSaturation : g.keys Obj.cumSaturation := by assumption) (k_cumUnderflow : g.keys Obj.cumUnderflow := by assumption) (k_decState : ∀ n, g.keys (Obj.decState n) := by assumption) (k_flitsTx : ∀ n, g.keys (Obj.flitsTx n) := by assumption) (k_groupState : g.keys Obj.groupState := by assumption) (k_prepEpoch : g.keys Obj.prepEpoch := by assumption) (k_prepStep : g.keys Obj.prepStep := by assumption) (k_tmWaitCycles : g.keys Obj.tmWaitCycles := by assumption) :
    Leads g s (execMsgScalar m u) := by
  unfold execMsgScalar
  exact Leads.next (State.collMsg_within p_prep p_bar0 p_cmd p_scratch p_castMem p_tile p_spans p_touches p_upd p_link p_coll p_mem p_tier p_store p_cross h)

theorem execMsgScalarResult_within {m : Msg} (p_prep : Part.prep ∈ g.parts) (p_bar0 : Part.bar0 ∈ g.parts) (p_cmd : Part.cmd ∈ g.parts) (p_scratch : Part.scratch ∈ g.parts) (p_castMem : Part.castMem ∈ g.parts) (p_tile : Part.tile ∈ g.parts) (p_spans : Part.spans ∈ g.parts) (p_touches : Part.touches ∈ g.parts) (p_upd : Part.upd ∈ g.parts) (p_link : Part.link ∈ g.parts) (p_coll : Part.coll ∈ g.parts) (p_mem : Part.mem ∈ g.parts) (p_tier : Part.tier ∈ g.parts) (p_store : Part.store ∈ g.parts) (p_cross : Part.cross ∈ g.parts) (h : Within g s u) (k_actMode : g.keys Obj.actMode := by assumption) (k_actStep : g.keys Obj.actStep := by assumption) (k_collBytesTx : g.keys Obj.collBytesTx := by assumption) (k_collDuplicates : g.keys Obj.collDuplicates := by assumption) (k_collMismatchCycles : g.keys Obj.collMismatchCycles := by assumption) (k_cumElements : g.keys Obj.cumElements := by assumption) (k_cumNonfinite : g.keys Obj.cumNonfinite := by assumption) (k_cumSaturation : g.keys Obj.cumSaturation := by assumption) (k_cumUnderflow : g.keys Obj.cumUnderflow := by assumption) (k_decState : ∀ n, g.keys (Obj.decState n) := by assumption) (k_flitsTx : ∀ n, g.keys (Obj.flitsTx n) := by assumption) (k_groupState : g.keys Obj.groupState := by assumption) (k_prepEpoch : g.keys Obj.prepEpoch := by assumption) (k_prepStep : g.keys Obj.prepStep := by assumption) (k_tmWaitCycles : g.keys Obj.tmWaitCycles := by assumption) :
    Leads g s (execMsgScalarResult m u) := by
  unfold execMsgScalarResult
  exact Leads.next (State.collMsg_within p_prep p_bar0 p_cmd p_scratch p_castMem p_tile p_spans p_touches p_upd p_link p_coll p_mem p_tier p_store p_cross h)

theorem State.reduce_within {w : Nat} {e : QEntry} (p_prep : Part.prep ∈ g.parts) (p_bar0 : Part.bar0 ∈ g.parts) (p_cmd : Part.cmd ∈ g.parts) (p_scratch : Part.scratch ∈ g.parts) (p_castMem : Part.castMem ∈ g.parts) (p_tile : Part.tile ∈ g.parts) (p_spans : Part.spans ∈ g.parts) (p_touches : Part.touches ∈ g.parts) (p_upd : Part.upd ∈ g.parts) (p_link : Part.link ∈ g.parts) (p_coll : Part.coll ∈ g.parts) (p_mem : Part.mem ∈ g.parts) (p_tier : Part.tier ∈ g.parts) (p_store : Part.store ∈ g.parts) (p_cross : Part.cross ∈ g.parts) (h : Within g s u) (k_actMode : g.keys Obj.actMode := by assumption) (k_actStep : g.keys Obj.actStep := by assumption) (k_collBytesTx : g.keys Obj.collBytesTx := by assumption) (k_collDuplicates : g.keys Obj.collDuplicates := by assumption) (k_collMismatchCycles : g.keys Obj.collMismatchCycles := by assumption) (k_cumElements : g.keys Obj.cumElements := by assumption) (k_cumNonfinite : g.keys Obj.cumNonfinite := by assumption) (k_cumSaturation : g.keys Obj.cumSaturation := by assumption) (k_cumUnderflow : g.keys Obj.cumUnderflow := by assumption) (k_decState : ∀ n, g.keys (Obj.decState n) := by assumption) (k_flitsTx : ∀ n, g.keys (Obj.flitsTx n) := by assumption) (k_groupState : g.keys Obj.groupState := by assumption) (k_prepEpoch : g.keys Obj.prepEpoch := by assumption) (k_prepStep : g.keys Obj.prepStep := by assumption) (k_tmWaitCycles : g.keys Obj.tmWaitCycles := by assumption) :
    Within g s (State.reduce u w e) := by
  unfold State.reduce
  extract_lets +onlyGivenNames -underBinder -merge n1
  extract_lets +onlyGivenNames -underBinder -merge n2
  extract_lets +onlyGivenNames -underBinder -merge n3
  split
  · exact h
  · exact Within.ite h (by
      extract_lets +onlyGivenNames -underBinder -merge n9
      extract_lets +onlyGivenNames -underBinder -merge s10
      have h11 : Within g s s10 := (State.touchSums_within p_spans p_touches (State.putJob_within p_coll h))
      extract_lets +onlyGivenNames -underBinder -merge n12
      extract_lets +onlyGivenNames -underBinder -merge s13
      have h14 : Within g s s13 := (Within.foldl (fun x15 x16 h17 => (Within.foldl (fun x18 x19 h20 => (by
        extract_lets +onlyGivenNames -underBinder -merge n21
        exact Within.ite (State.takeExps_within p_cmd p_tile p_spans p_touches p_link p_coll p_mem p_tier p_cross h20) (State.sendJob_within p_link p_coll p_cross h20))) h17)) h11)
      exact State.reduceDone_within p_cmd (State.openInbox_within p_prep p_bar0 p_cmd p_scratch p_castMem p_tile p_spans p_touches p_upd p_link p_coll p_mem p_tier p_store p_cross h14))

theorem execCollectiveReduce_within {w : Fin 8} {q : Nat} (p_prep : Part.prep ∈ g.parts) (p_bar0 : Part.bar0 ∈ g.parts) (p_cmd : Part.cmd ∈ g.parts) (p_scratch : Part.scratch ∈ g.parts) (p_castMem : Part.castMem ∈ g.parts) (p_tile : Part.tile ∈ g.parts) (p_spans : Part.spans ∈ g.parts) (p_touches : Part.touches ∈ g.parts) (p_upd : Part.upd ∈ g.parts) (p_link : Part.link ∈ g.parts) (p_coll : Part.coll ∈ g.parts) (p_mem : Part.mem ∈ g.parts) (p_tier : Part.tier ∈ g.parts) (p_store : Part.store ∈ g.parts) (p_cross : Part.cross ∈ g.parts) (h : Within g s u) (k_actMode : g.keys Obj.actMode := by assumption) (k_actStep : g.keys Obj.actStep := by assumption) (k_collBytesTx : g.keys Obj.collBytesTx := by assumption) (k_collDuplicates : g.keys Obj.collDuplicates := by assumption) (k_collMismatchCycles : g.keys Obj.collMismatchCycles := by assumption) (k_cumElements : g.keys Obj.cumElements := by assumption) (k_cumNonfinite : g.keys Obj.cumNonfinite := by assumption) (k_cumSaturation : g.keys Obj.cumSaturation := by assumption) (k_cumUnderflow : g.keys Obj.cumUnderflow := by assumption) (k_decState : ∀ n, g.keys (Obj.decState n) := by assumption) (k_flitsTx : ∀ n, g.keys (Obj.flitsTx n) := by assumption) (k_groupState : g.keys Obj.groupState := by assumption) (k_prepEpoch : g.keys Obj.prepEpoch := by assumption) (k_prepStep : g.keys Obj.prepStep := by assumption) (k_tmWaitCycles : g.keys Obj.tmWaitCycles := by assumption) :
    Leads g s (execCollectiveReduce w q u) := by
  unfold execCollectiveReduce
  exact onColl_within p_coll (fun x1 x2 h3 => (State.reduce_within p_prep p_bar0 p_cmd p_scratch p_castMem p_tile p_spans p_touches p_upd p_link p_coll p_mem p_tier p_store p_cross h3)) h

theorem State.gatherOut_within {w : Nat} {e : QEntry} (p_prep : Part.prep ∈ g.parts) (p_bar0 : Part.bar0 ∈ g.parts) (p_cmd : Part.cmd ∈ g.parts) (p_scratch : Part.scratch ∈ g.parts) (p_castMem : Part.castMem ∈ g.parts) (p_tile : Part.tile ∈ g.parts) (p_spans : Part.spans ∈ g.parts) (p_touches : Part.touches ∈ g.parts) (p_upd : Part.upd ∈ g.parts) (p_link : Part.link ∈ g.parts) (p_coll : Part.coll ∈ g.parts) (p_mem : Part.mem ∈ g.parts) (p_tier : Part.tier ∈ g.parts) (p_store : Part.store ∈ g.parts) (p_cross : Part.cross ∈ g.parts) (h : Within g s u) (k_actMode : g.keys Obj.actMode := by assumption) (k_actStep : g.keys Obj.actStep := by assumption) (k_collBytesTx : g.keys Obj.collBytesTx := by assumption) (k_collDuplicates : g.keys Obj.collDuplicates := by assumption) (k_collMismatchCycles : g.keys Obj.collMismatchCycles := by assumption) (k_cumElements : g.keys Obj.cumElements := by assumption) (k_cumNonfinite : g.keys Obj.cumNonfinite := by assumption) (k_cumSaturation : g.keys Obj.cumSaturation := by assumption) (k_cumUnderflow : g.keys Obj.cumUnderflow := by assumption) (k_decState : ∀ n, g.keys (Obj.decState n) := by assumption) (k_flitsTx : ∀ n, g.keys (Obj.flitsTx n) := by assumption) (k_groupState : g.keys Obj.groupState := by assumption) (k_prepEpoch : g.keys Obj.prepEpoch := by assumption) (k_prepStep : g.keys Obj.prepStep := by assumption) (k_tmWaitCycles : g.keys Obj.tmWaitCycles := by assumption) :
    Within g s (State.gatherOut u w e) := by
  unfold State.gatherOut
  extract_lets +onlyGivenNames -underBinder -merge n1
  extract_lets +onlyGivenNames -underBinder -merge n2
  extract_lets +onlyGivenNames -underBinder -merge n3
  split
  · next _ _ _ y7 =>
    exact Within.ite (Within.pair (Within.iteFst (State.access_within p_tier h) (Within.fst h)) y7) (by
      split
      · next _ _ _ y11 =>
        exact Within.ite (Within.pair (State.access_within p_tier (Within.pair (Within.iteFst (State.access_within p_tier h) (Within.fst h)) y7)) y11) (by
          extract_lets +onlyGivenNames -underBinder -merge s12
          have h13 : Within g s s12 := (Within.ite (State.hitStatus_within p_cmd (Within.pair (State.access_within p_tier (Within.pair (Within.iteFst (State.access_within p_tier h) (Within.fst h)) y7)) y11)) (Within.pair (State.access_within p_tier (Within.pair (Within.iteFst (State.access_within p_tier h) (Within.fst h)) y7)) y11))
          extract_lets +onlyGivenNames -underBinder -merge n14
          extract_lets +onlyGivenNames -underBinder -merge s15
          have h16 : Within g s s15 := (State.putJob_within p_coll h13)
          extract_lets +onlyGivenNames -underBinder -merge _ s17
          have h18 : Within g s s17 := (Within.setColl p_coll h16)
          exact Within.ite (State.unitDone_within p_cmd (State.dropJob_within p_coll h18)) (by
            extract_lets +onlyGivenNames -underBinder -merge n19
            extract_lets +onlyGivenNames -underBinder -merge s20
            have h21 : Within g s s20 := (Within.foldl (fun x22 x23 h24 => (by
              split
              · exact State.takeGather_within p_cmd p_coll p_mem p_tier (Within.foldl (fun x28 x29 h30 => (State.sendJob_within p_link p_coll p_cross h30)) h24))) h18)
            exact State.openInbox_within p_prep p_bar0 p_cmd p_scratch p_castMem p_tile p_spans p_touches p_upd p_link p_coll p_mem p_tier p_store p_cross h21)))

theorem execCollectiveGather_within {w : Fin 8} {q : Nat} (p_prep : Part.prep ∈ g.parts) (p_bar0 : Part.bar0 ∈ g.parts) (p_cmd : Part.cmd ∈ g.parts) (p_scratch : Part.scratch ∈ g.parts) (p_castMem : Part.castMem ∈ g.parts) (p_tile : Part.tile ∈ g.parts) (p_spans : Part.spans ∈ g.parts) (p_touches : Part.touches ∈ g.parts) (p_upd : Part.upd ∈ g.parts) (p_link : Part.link ∈ g.parts) (p_coll : Part.coll ∈ g.parts) (p_mem : Part.mem ∈ g.parts) (p_tier : Part.tier ∈ g.parts) (p_store : Part.store ∈ g.parts) (p_cross : Part.cross ∈ g.parts) (h : Within g s u) (k_actMode : g.keys Obj.actMode := by assumption) (k_actStep : g.keys Obj.actStep := by assumption) (k_collBytesTx : g.keys Obj.collBytesTx := by assumption) (k_collDuplicates : g.keys Obj.collDuplicates := by assumption) (k_collMismatchCycles : g.keys Obj.collMismatchCycles := by assumption) (k_cumElements : g.keys Obj.cumElements := by assumption) (k_cumNonfinite : g.keys Obj.cumNonfinite := by assumption) (k_cumSaturation : g.keys Obj.cumSaturation := by assumption) (k_cumUnderflow : g.keys Obj.cumUnderflow := by assumption) (k_decState : ∀ n, g.keys (Obj.decState n) := by assumption) (k_flitsTx : ∀ n, g.keys (Obj.flitsTx n) := by assumption) (k_groupState : g.keys Obj.groupState := by assumption) (k_prepEpoch : g.keys Obj.prepEpoch := by assumption) (k_prepStep : g.keys Obj.prepStep := by assumption) (k_tmWaitCycles : g.keys Obj.tmWaitCycles := by assumption) :
    Leads g s (execCollectiveGather w q u) := by
  unfold execCollectiveGather
  exact onColl_within p_coll (fun x1 x2 h3 => (State.gatherOut_within p_prep p_bar0 p_cmd p_scratch p_castMem p_tile p_spans p_touches p_upd p_link p_coll p_mem p_tier p_store p_cross h3)) h

theorem State.agreeOut_within {w : Nat} {e : QEntry} (p_prep : Part.prep ∈ g.parts) (p_bar0 : Part.bar0 ∈ g.parts) (p_cmd : Part.cmd ∈ g.parts) (p_scratch : Part.scratch ∈ g.parts) (p_castMem : Part.castMem ∈ g.parts) (p_tile : Part.tile ∈ g.parts) (p_spans : Part.spans ∈ g.parts) (p_touches : Part.touches ∈ g.parts) (p_upd : Part.upd ∈ g.parts) (p_link : Part.link ∈ g.parts) (p_coll : Part.coll ∈ g.parts) (p_mem : Part.mem ∈ g.parts) (p_tier : Part.tier ∈ g.parts) (p_store : Part.store ∈ g.parts) (p_cross : Part.cross ∈ g.parts) (h : Within g s u) (k_actMode : g.keys Obj.actMode := by assumption) (k_actStep : g.keys Obj.actStep := by assumption) (k_collBytesTx : g.keys Obj.collBytesTx := by assumption) (k_collDuplicates : g.keys Obj.collDuplicates := by assumption) (k_collMismatchCycles : g.keys Obj.collMismatchCycles := by assumption) (k_cumElements : g.keys Obj.cumElements := by assumption) (k_cumNonfinite : g.keys Obj.cumNonfinite := by assumption) (k_cumSaturation : g.keys Obj.cumSaturation := by assumption) (k_cumUnderflow : g.keys Obj.cumUnderflow := by assumption) (k_decState : ∀ n, g.keys (Obj.decState n) := by assumption) (k_flitsTx : ∀ n, g.keys (Obj.flitsTx n) := by assumption) (k_groupState : g.keys Obj.groupState := by assumption) (k_prepEpoch : g.keys Obj.prepEpoch := by assumption) (k_prepStep : g.keys Obj.prepStep := by assumption) (k_tmWaitCycles : g.keys Obj.tmWaitCycles := by assumption) :
    Within g s (State.agreeOut u w e) := by
  unfold State.agreeOut
  extract_lets +onlyGivenNames -underBinder -merge n1
  extract_lets +onlyGivenNames -underBinder -merge n2
  exact Within.ite h (by
    extract_lets +onlyGivenNames -underBinder -merge n3
    extract_lets +onlyGivenNames -underBinder -merge s4
    have h5 : Within g s s4 := (State.putJob_within p_coll h)
    extract_lets +onlyGivenNames -underBinder -merge _ s6
    have h7 : Within g s s6 := (Within.setColl p_coll h5)
    extract_lets +onlyGivenNames -underBinder -merge n8
    extract_lets +onlyGivenNames -underBinder -merge s9
    have h10 : Within g s s9 := (Within.ite (State.takeAgree_within p_cmd p_scratch p_castMem p_link p_coll p_cross h7) (State.sendJob_within p_link p_coll p_cross h7))
    exact State.openInbox_within p_prep p_bar0 p_cmd p_scratch p_castMem p_tile p_spans p_touches p_upd p_link p_coll p_mem p_tier p_store p_cross h10)

theorem execAgree_within {w : Fin 8} {q : Nat} (p_prep : Part.prep ∈ g.parts) (p_bar0 : Part.bar0 ∈ g.parts) (p_cmd : Part.cmd ∈ g.parts) (p_scratch : Part.scratch ∈ g.parts) (p_castMem : Part.castMem ∈ g.parts) (p_tile : Part.tile ∈ g.parts) (p_spans : Part.spans ∈ g.parts) (p_touches : Part.touches ∈ g.parts) (p_upd : Part.upd ∈ g.parts) (p_link : Part.link ∈ g.parts) (p_coll : Part.coll ∈ g.parts) (p_mem : Part.mem ∈ g.parts) (p_tier : Part.tier ∈ g.parts) (p_store : Part.store ∈ g.parts) (p_cross : Part.cross ∈ g.parts) (h : Within g s u) (k_actMode : g.keys Obj.actMode := by assumption) (k_actStep : g.keys Obj.actStep := by assumption) (k_collBytesTx : g.keys Obj.collBytesTx := by assumption) (k_collDuplicates : g.keys Obj.collDuplicates := by assumption) (k_collMismatchCycles : g.keys Obj.collMismatchCycles := by assumption) (k_cumElements : g.keys Obj.cumElements := by assumption) (k_cumNonfinite : g.keys Obj.cumNonfinite := by assumption) (k_cumSaturation : g.keys Obj.cumSaturation := by assumption) (k_cumUnderflow : g.keys Obj.cumUnderflow := by assumption) (k_decState : ∀ n, g.keys (Obj.decState n) := by assumption) (k_flitsTx : ∀ n, g.keys (Obj.flitsTx n) := by assumption) (k_groupState : g.keys Obj.groupState := by assumption) (k_prepEpoch : g.keys Obj.prepEpoch := by assumption) (k_prepStep : g.keys Obj.prepStep := by assumption) (k_tmWaitCycles : g.keys Obj.tmWaitCycles := by assumption) :
    Leads g s (execAgree w q u) := by
  unfold execAgree
  exact onColl_within p_coll (fun x1 x2 h3 => (State.agreeOut_within p_prep p_bar0 p_cmd p_scratch p_castMem p_tile p_spans p_touches p_upd p_link p_coll p_mem p_tier p_store p_cross h3)) h

theorem State.scalarCounts_within {key : Nat} {j : Job} {counts : Tab Counts} (p_cmd : Part.cmd ∈ g.parts) (p_link : Part.link ∈ g.parts) (p_coll : Part.coll ∈ g.parts) (p_cross : Part.cross ∈ g.parts) (h : Within g s u) (k_collBytesTx : g.keys Obj.collBytesTx := by assumption) (k_collDuplicates : g.keys Obj.collDuplicates := by assumption) (k_flitsTx : ∀ n, g.keys (Obj.flitsTx n) := by assumption) :
    Within g s (State.scalarCounts u key j counts) := by
  unfold State.scalarCounts
  exact Within.foldl (fun x1 x2 h3 => (by
    extract_lets +onlyGivenNames -underBinder -merge n4
    exact Within.ite (State.takeCountIn_within p_cmd p_link p_coll p_cross h3) (State.sendJob_within p_link p_coll p_cross h3))) h

theorem State.scalarValues_within {key : Nat} {j : Job} {n : Nat} {bs : Bytes} (p_cmd : Part.cmd ∈ g.parts) (p_scratch : Part.scratch ∈ g.parts) (p_castMem : Part.castMem ∈ g.parts) (p_tile : Part.tile ∈ g.parts) (p_link : Part.link ∈ g.parts) (p_coll : Part.coll ∈ g.parts) (p_cross : Part.cross ∈ g.parts) (h : Within g s u) (k_collBytesTx : g.keys Obj.collBytesTx := by assumption) (k_collDuplicates : g.keys Obj.collDuplicates := by assumption) (k_cumElements : g.keys Obj.cumElements := by assumption) (k_cumNonfinite : g.keys Obj.cumNonfinite := by assumption) (k_cumSaturation : g.keys Obj.cumSaturation := by assumption) (k_cumUnderflow : g.keys Obj.cumUnderflow := by assumption) (k_flitsTx : ∀ n, g.keys (Obj.flitsTx n) := by assumption) :
    Within g s (State.scalarValues u key j n bs) := by
  unfold State.scalarValues
  exact Within.ite (State.takeScalar_within p_cmd p_scratch p_castMem p_tile p_link p_coll p_cross h) (State.sendJob_within p_link p_coll p_cross h)

theorem State.scalarOut_within {w : Nat} {e : QEntry} (p_prep : Part.prep ∈ g.parts) (p_bar0 : Part.bar0 ∈ g.parts) (p_cmd : Part.cmd ∈ g.parts) (p_scratch : Part.scratch ∈ g.parts) (p_castMem : Part.castMem ∈ g.parts) (p_tile : Part.tile ∈ g.parts) (p_spans : Part.spans ∈ g.parts) (p_touches : Part.touches ∈ g.parts) (p_upd : Part.upd ∈ g.parts) (p_link : Part.link ∈ g.parts) (p_coll : Part.coll ∈ g.parts) (p_mem : Part.mem ∈ g.parts) (p_tier : Part.tier ∈ g.parts) (p_store : Part.store ∈ g.parts) (p_cross : Part.cross ∈ g.parts) (h : Within g s u) (k_actMode : g.keys Obj.actMode := by assumption) (k_actStep : g.keys Obj.actStep := by assumption) (k_collBytesTx : g.keys Obj.collBytesTx := by assumption) (k_collDuplicates : g.keys Obj.collDuplicates := by assumption) (k_collMismatchCycles : g.keys Obj.collMismatchCycles := by assumption) (k_cumElements : g.keys Obj.cumElements := by assumption) (k_cumNonfinite : g.keys Obj.cumNonfinite := by assumption) (k_cumSaturation : g.keys Obj.cumSaturation := by assumption) (k_cumUnderflow : g.keys Obj.cumUnderflow := by assumption) (k_decState : ∀ n, g.keys (Obj.decState n) := by assumption) (k_flitsTx : ∀ n, g.keys (Obj.flitsTx n) := by assumption) (k_groupState : g.keys Obj.groupState := by assumption) (k_prepEpoch : g.keys Obj.prepEpoch := by assumption) (k_prepStep : g.keys Obj.prepStep := by assumption) (k_tmWaitCycles : g.keys Obj.tmWaitCycles := by assumption) :
    Within g s (State.scalarOut u w e) := by
  unfold State.scalarOut
  extract_lets +onlyGivenNames -underBinder -merge n1
  extract_lets +onlyGivenNames -underBinder -merge n2
  exact Within.ite h (by
    extract_lets +onlyGivenNames -underBinder -merge n3
    extract_lets +onlyGivenNames -underBinder -merge n4
    extract_lets +onlyGivenNames -underBinder -merge n5
    extract_lets +onlyGivenNames -underBinder -merge s6
    have h7 : Within g s s6 := (State.putJob_within p_coll h)
    extract_lets +onlyGivenNames -underBinder -merge _ s8
    have h9 : Within g s s8 := (Within.setColl p_coll h7)
    exact State.openInbox_within p_prep p_bar0 p_cmd p_scratch p_castMem p_tile p_spans p_touches p_upd p_link p_coll p_mem p_tier p_store p_cross (State.scalarValues_within p_cmd p_scratch p_castMem p_tile p_link p_coll p_cross (Within.ite (State.scalarCounts_within p_cmd p_link p_coll p_cross h9) h9)))

theorem execScalar_within {w : Fin 8} {q : Nat} (p_prep : Part.prep ∈ g.parts) (p_bar0 : Part.bar0 ∈ g.parts) (p_cmd : Part.cmd ∈ g.parts) (p_scratch : Part.scratch ∈ g.parts) (p_castMem : Part.castMem ∈ g.parts) (p_tile : Part.tile ∈ g.parts) (p_spans : Part.spans ∈ g.parts) (p_touches : Part.touches ∈ g.parts) (p_upd : Part.upd ∈ g.parts) (p_link : Part.link ∈ g.parts) (p_coll : Part.coll ∈ g.parts) (p_mem : Part.mem ∈ g.parts) (p_tier : Part.tier ∈ g.parts) (p_store : Part.store ∈ g.parts) (p_cross : Part.cross ∈ g.parts) (h : Within g s u) (k_actMode : g.keys Obj.actMode := by assumption) (k_actStep : g.keys Obj.actStep := by assumption) (k_collBytesTx : g.keys Obj.collBytesTx := by assumption) (k_collDuplicates : g.keys Obj.collDuplicates := by assumption) (k_collMismatchCycles : g.keys Obj.collMismatchCycles := by assumption) (k_cumElements : g.keys Obj.cumElements := by assumption) (k_cumNonfinite : g.keys Obj.cumNonfinite := by assumption) (k_cumSaturation : g.keys Obj.cumSaturation := by assumption) (k_cumUnderflow : g.keys Obj.cumUnderflow := by assumption) (k_decState : ∀ n, g.keys (Obj.decState n) := by assumption) (k_flitsTx : ∀ n, g.keys (Obj.flitsTx n) := by assumption) (k_groupState : g.keys Obj.groupState := by assumption) (k_prepEpoch : g.keys Obj.prepEpoch := by assumption) (k_prepStep : g.keys Obj.prepStep := by assumption) (k_tmWaitCycles : g.keys Obj.tmWaitCycles := by assumption) :
    Leads g s (execScalar w q u) := by
  unfold execScalar
  exact onColl_within p_coll (fun x1 x2 h3 => (State.scalarOut_within p_prep p_bar0 p_cmd p_scratch p_castMem p_tile p_spans p_touches p_upd p_link p_coll p_mem p_tier p_store p_cross h3)) h

theorem State.collDispatch_within {w : Nat} {e : QEntry} (p_spans : Part.spans ∈ g.parts) (p_coll : Part.coll ∈ g.parts) (h : Within g s u) :
    Within g s (State.collDispatch u w e) := by
  unfold State.collDispatch
  extract_lets +onlyGivenNames -underBinder -merge n1
  exact Within.ite (State.openSpan_within p_spans h) (Within.ite (by
    split
    · exact Within.setSpans p_spans h
    · exact h) (Within.ite (by
    extract_lets +onlyGivenNames -underBinder -merge n7
    exact Within.setColl p_coll h) h))

theorem State.collRetire_within {w : Nat} {q : Nat} (p_spans : Part.spans ∈ g.parts) (p_coll : Part.coll ∈ g.parts) (h : Within g s u) :
    Within g s (State.collRetire u w q) := by
  unfold State.collRetire
  extract_lets +onlyGivenNames -underBinder -merge n1
  extract_lets +onlyGivenNames -underBinder -merge _ s2
  have h3 : Within g s s2 := (Within.setColl p_coll h)
  split
  · exact Within.ite (by
      extract_lets +onlyGivenNames -underBinder -merge n7
      extract_lets +onlyGivenNames -underBinder -merge s8
      have h9 : Within g s s8 := (State.sweepJob_within p_coll (State.putJob_within p_coll h3))
      exact Within.setSpans p_spans h9) (State.dropJob_within p_coll h3)
  · exact h3

theorem State.sendAgain_within {x : Sent} (p_link : Part.link ∈ g.parts) (p_coll : Part.coll ∈ g.parts) (p_cross : Part.cross ∈ g.parts) (h : Within g s u) (k_collBytesTx : g.keys Obj.collBytesTx := by assumption) (k_collResends : g.keys Obj.collResends := by assumption) (k_flitsTx : ∀ n, g.keys (Obj.flitsTx n) := by assumption) :
    Within g s (State.sendAgain u x) := by
  unfold State.sendAgain
  exact State.mailAgain_within p_link p_coll p_cross (State.emit_within h)

theorem State.msgResend_within {m : Msg} (p_link : Part.link ∈ g.parts) (p_coll : Part.coll ∈ g.parts) (p_cross : Part.cross ∈ g.parts) (h : Within g s u) (k_collBytesTx : g.keys Obj.collBytesTx := by assumption) (k_collMismatchCycles : g.keys Obj.collMismatchCycles := by assumption) (k_collResends : g.keys Obj.collResends := by assumption) (k_flitsTx : ∀ n, g.keys (Obj.flitsTx n) := by assumption) (k_groupState : g.keys Obj.groupState := by assumption) :
    Within g s (State.msgResend u m) := by
  unfold State.msgResend
  exact Within.ite h (State.onMode_within p_coll (fun x1 h2 => (by
    extract_lets +onlyGivenNames -underBinder -merge n3
    extract_lets +onlyGivenNames -underBinder -merge n4
    exact Within.foldl (fun x5 x6 h7 => (State.sendAgain_within p_link p_coll p_cross h7)) h2)) h)

theorem execMsgResend_within {m : Msg} (p_link : Part.link ∈ g.parts) (p_coll : Part.coll ∈ g.parts) (p_cross : Part.cross ∈ g.parts) (h : Within g s u) (k_collBytesTx : g.keys Obj.collBytesTx := by assumption) (k_collMismatchCycles : g.keys Obj.collMismatchCycles := by assumption) (k_collResends : g.keys Obj.collResends := by assumption) (k_flitsTx : ∀ n, g.keys (Obj.flitsTx n) := by assumption) (k_groupState : g.keys Obj.groupState := by assumption) :
    Leads g s (execMsgResend m u) := by
  unfold execMsgResend
  exact Leads.next (State.msgResend_within p_link p_coll p_cross h)

theorem State.chunkWait_within {key : Nat} {c : Nat} (p_link : Part.link ∈ g.parts) (p_coll : Part.coll ∈ g.parts) (p_cross : Part.cross ∈ g.parts) (h : Within g s u) (k_collBytesTx : g.keys Obj.collBytesTx := by assumption) (k_flitsTx : ∀ n, g.keys (Obj.flitsTx n) := by assumption) :
    Within g s (State.chunkWait u key c) := by
  unfold State.chunkWait
  split
  · exact h
  · extract_lets +onlyGivenNames -underBinder -merge n6
    extract_lets +onlyGivenNames -underBinder -merge n7
    extract_lets +onlyGivenNames -underBinder -merge n8
    exact Within.ite h (by
      extract_lets +onlyGivenNames -underBinder -merge s9
      have h10 : Within g s s9 := (State.putJob_within p_coll h)
      exact Within.foldl (fun x11 x12 h13 => (State.sendJob_within p_link p_coll p_cross h13)) h10)

theorem execChunkWait_within {w : Fin 8} {q : Nat} {c : Nat} (p_link : Part.link ∈ g.parts) (p_coll : Part.coll ∈ g.parts) (p_cross : Part.cross ∈ g.parts) (h : Within g s u) (k_collBytesTx : g.keys Obj.collBytesTx := by assumption) (k_flitsTx : ∀ n, g.keys (Obj.flitsTx n) := by assumption) :
    Leads g s (execChunkWait w q c u) := by
  unfold execChunkWait
  exact Leads.next (State.chunkWait_within p_link p_coll p_cross h)

theorem State.resultRequest_within {key : Nat} {c : Nat} (p_link : Part.link ∈ g.parts) (p_coll : Part.coll ∈ g.parts) (p_cross : Part.cross ∈ g.parts) (h : Within g s u) (k_collBytesTx : g.keys Obj.collBytesTx := by assumption) (k_flitsTx : ∀ n, g.keys (Obj.flitsTx n) := by assumption) :
    Within g s (State.resultRequest u key c) := by
  unfold State.resultRequest
  split
  · exact h
  · extract_lets +onlyGivenNames -underBinder -merge n6
    extract_lets +onlyGivenNames -underBinder -merge n7
    split
    · exact h
    · exact Within.ite h (by
        extract_lets +onlyGivenNames -underBinder -merge s13
        have h14 : Within g s s13 := (State.putJob_within p_coll h)
        extract_lets +onlyGivenNames -underBinder -merge n15
        exact State.sendJob_within p_link p_coll p_cross h14)

theorem execResultRequest_within {w : Fin 8} {q : Nat} {c : Nat} (p_link : Part.link ∈ g.parts) (p_coll : Part.coll ∈ g.parts) (p_cross : Part.cross ∈ g.parts) (h : Within g s u) (k_collBytesTx : g.keys Obj.collBytesTx := by assumption) (k_flitsTx : ∀ n, g.keys (Obj.flitsTx n) := by assumption) :
    Leads g s (execResultRequest w q c u) := by
  unfold execResultRequest
  exact Leads.next (State.resultRequest_within p_link p_coll p_cross h)

theorem execPageMoveDone_within {h0 : Nat} {p1 : Nat} {good : Bool} {phys : Nat} (p_prep : Part.prep ∈ g.parts) (p_bar0 : Part.bar0 ∈ g.parts) (p_cmd : Part.cmd ∈ g.parts) (p_castMem : Part.castMem ∈ g.parts) (p_tile : Part.tile ∈ g.parts) (p_spans : Part.spans ∈ g.parts) (p_upd : Part.upd ∈ g.parts) (p_link : Part.link ∈ g.parts) (p_coll : Part.coll ∈ g.parts) (p_mem : Part.mem ∈ g.parts) (p_tier : Part.tier ∈ g.parts) (p_store : Part.store ∈ g.parts) (p_cross : Part.cross ∈ g.parts) (p_start : Part.start ∈ g.parts) (p_free : Part.free ∈ g.parts) (h : Within g s u) (k_actMode : g.keys Obj.actMode := by assumption) (k_actStep : g.keys Obj.actStep := by assumption) (k_chRetired : ∀ n, g.keys (Obj.chRetired n) := by assumption) (k_collBytesTx : g.keys Obj.collBytesTx := by assumption) (k_collMismatchCycles : g.keys Obj.collMismatchCycles := by assumption) (k_decState : ∀ n, g.keys (Obj.decState n) := by assumption) (k_flitsTx : ∀ n, g.keys (Obj.flitsTx n) := by assumption) (k_groupState : g.keys Obj.groupState := by assumption) (k_lenderKey : ∀ n, g.keys (lenderKey n) := by assumption) (k_prepEpoch : g.keys Obj.prepEpoch := by assumption) (k_prepStep : g.keys Obj.prepStep := by assumption) (k_sparePages : g.keys Obj.sparePages := by assumption) (k_stReadBytes : g.keys Obj.stReadBytes := by assumption) (k_t1PoolPages : g.keys Obj.t1PoolPages := by assumption) (k_tmDiscards : g.keys Obj.tmDiscards := by assumption) (k_tmEvictions : g.keys Obj.tmEvictions := by assumption) (k_tmMoveRetries : g.keys Obj.tmMoveRetries := by assumption) (k_tmMoves : g.keys Obj.tmMoves := by assumption) (k_tmRefetches : g.keys Obj.tmRefetches := by assumption) (k_tmWaitCycles : g.keys Obj.tmWaitCycles := by assumption) :
    Leads g s (execPageMoveDone h0 p1 good phys u) := by
  unfold execPageMoveDone
  exact Leads.next (State.landHeld_within p_cmd p_coll p_mem p_tier (State.pageMoveDone_within p_prep p_bar0 p_cmd p_castMem p_tile p_spans p_upd p_link p_coll p_tier p_store p_cross p_start p_free h))

theorem State.paceRx_within {p1 : Nat} {f : Bytes} {cor : Nat} {unc : Nat} (p_link : Part.link ∈ g.parts) (p_coll : Part.coll ∈ g.parts) (p_cross : Part.cross ∈ g.parts) (h : Within g s u) (k_collMismatchCycles : g.keys Obj.collMismatchCycles := by assumption) (k_ctrlDiscards : ∀ n, g.keys (Obj.ctrlDiscards n) := by assumption) (k_fecCorrected : ∀ n, g.keys (Obj.fecCorrected n) := by assumption) (k_fecUncorrectable : ∀ n, g.keys (Obj.fecUncorrectable n) := by assumption) (k_flitsReplays : ∀ n, g.keys (Obj.flitsReplays n) := by assumption) (k_flitsTx : ∀ n, g.keys (Obj.flitsTx n) := by assumption) (k_groupState : g.keys Obj.groupState := by assumption) (k_naksSent : ∀ n, g.keys (Obj.naksSent n) := by assumption) (k_parityErrors : ∀ n, g.keys (Obj.parityErrors n) := by assumption) (k_portPowerState : ∀ n, g.keys (Obj.portPowerState n) := by assumption) :
    Within g s (State.paceRx u p1 f cor unc) := by
  unfold State.paceRx
  extract_lets +onlyGivenNames -underBinder -merge s1
  have h2 : Within g s s1 := (Within.ite h (State.ctrlDiscard_within h))
  extract_lets +onlyGivenNames -underBinder -merge s3
  have h4 : Within g s s3 := (State.takeFlit_within p_link p_cross (fun x5 x6 h7 => (State.paceFlitRx_within p_link h7)) h2)
  split
  · exact State.epochWait_within p_coll h4
  · exact State.resumeReduces_within p_coll h4

theorem execPaceModeFlitRx_within {p0 : Fin 16} {f : Bytes} {cor : Nat} {unc : Nat} (p_link : Part.link ∈ g.parts) (p_coll : Part.coll ∈ g.parts) (p_cross : Part.cross ∈ g.parts) (h : Within g s u) (k_collMismatchCycles : g.keys Obj.collMismatchCycles := by assumption) (k_ctrlDiscards : ∀ n, g.keys (Obj.ctrlDiscards n) := by assumption) (k_fecCorrected : ∀ n, g.keys (Obj.fecCorrected n) := by assumption) (k_fecUncorrectable : ∀ n, g.keys (Obj.fecUncorrectable n) := by assumption) (k_flitsReplays : ∀ n, g.keys (Obj.flitsReplays n) := by assumption) (k_flitsTx : ∀ n, g.keys (Obj.flitsTx n) := by assumption) (k_groupState : g.keys Obj.groupState := by assumption) (k_naksSent : ∀ n, g.keys (Obj.naksSent n) := by assumption) (k_parityErrors : ∀ n, g.keys (Obj.parityErrors n) := by assumption) (k_portPowerState : ∀ n, g.keys (Obj.portPowerState n) := by assumption) :
    Leads g s (execPaceModeFlitRx p0 f cor unc u) := by
  unfold execPaceModeFlitRx
  exact Leads.next (State.paceRx_within p_link p_coll p_cross h)

end Sys2Proof.Machine
end

