-- ==== Sys2Proof/Laws/WithinMembers.lean ====
section
/-! SUPPORT. What each operation of Machine/Members.lean may change, and that it keeps the form of the state. -/
namespace Sys2Proof.Machine
set_option Elab.async false

variable {g : Scope} {s u : State}

theorem State.sendState_within {dst : Nat} (p_link : Part.link ∈ g.parts) (p_coll : Part.coll ∈ g.parts) (p_cross : Part.cross ∈ g.parts) (h : Within g s u) (k_collBytesTx : g.keys Obj.collBytesTx := by assumption) (k_flitsTx : ∀ n, g.keys (Obj.flitsTx n) := by assumption) :
    Within g s (State.sendState u dst) := by
  unfold State.sendState
  extract_lets +onlyGivenNames -underBinder -merge n1
  extract_lets +onlyGivenNames -underBinder -merge n2
  extract_lets +onlyGivenNames -underBinder -merge s3
  have h4 : Within g s s3 := (Within.foldl (fun x5 x6 h7 => (by
    split
    · exact State.send_within p_link p_coll p_cross h7)) h)
  extract_lets +onlyGivenNames -underBinder -merge s13
  have h14 : Within g s s13 := (State.send_within p_link p_coll p_cross h4)
  exact Within.setColl p_coll h14

theorem State.takePart_within {h1 : Nat} {k : Nat} {b : Bytes} (p_upd : Part.upd ∈ g.parts) (p_mem : Part.mem ∈ g.parts) (p_tier : Part.tier ∈ g.parts) (h : Within g s u) (k_any : ∀ k, g.keys k := by assumption) (k_fbQuiet : ∀ n, g.keys (Obj.fbQuiet n) := by assumption) (k_fbState : ∀ n, g.keys (Obj.fbState n) := by assumption) (k_spikeDev : g.keys Obj.spikeDev := by assumption) (k_spikeMu : g.keys Obj.spikeMu := by assumption) (k_spikeRun : g.keys Obj.spikeRun := by assumption) (k_spikeSeen : g.keys Obj.spikeSeen := by assumption) :
    Within g s (State.takePart u h1 k b) := by
  unfold State.takePart
  exact Within.ite (Within.ite (by
    extract_lets +onlyGivenNames -underBinder -merge n1
    exact State.wr_within (State.wr_within (State.wr_within (State.wr_within h _ _) _ _) _ _) _ _) (State.setJournal_within p_upd h)) (Within.ite (State.wr_within (State.wr_within h _ _) _ _) (Within.ite (State.wr_within h _ _) (State.regionWrite_within p_mem p_tier h)))

theorem State.msgStatePart_within {m : Msg} (p_upd : Part.upd ∈ g.parts) (p_coll : Part.coll ∈ g.parts) (p_mem : Part.mem ∈ g.parts) (p_tier : Part.tier ∈ g.parts) (h : Within g s u) (k_any : ∀ k, g.keys k := by assumption) (k_fbQuiet : ∀ n, g.keys (Obj.fbQuiet n) := by assumption) (k_fbState : ∀ n, g.keys (Obj.fbState n) := by assumption) (k_spikeDev : g.keys Obj.spikeDev := by assumption) (k_spikeMu : g.keys Obj.spikeMu := by assumption) (k_spikeRun : g.keys Obj.spikeRun := by assumption) (k_spikeSeen : g.keys Obj.spikeSeen := by assumption) :
    Within g s (State.msgStatePart u m) := by
  unfold State.msgStatePart
  extract_lets +onlyGivenNames -underBinder -merge n1
  exact Within.ite h (Within.ite (Within.setColl p_coll h) (Within.ite h (by
    extract_lets +onlyGivenNames -underBinder -merge n2
    extract_lets +onlyGivenNames -underBinder -merge _ s3
    have h4 : Within g s s3 := (Within.setColl p_coll h)
    exact State.takePart_within p_upd p_mem p_tier h4)))

theorem execMsgStatePart_within {m : Msg} (p_upd : Part.upd ∈ g.parts) (p_coll : Part.coll ∈ g.parts) (p_mem : Part.mem ∈ g.parts) (p_tier : Part.tier ∈ g.parts) (h : Within g s u) (k_any : ∀ k, g.keys k := by assumption) (k_fbQuiet : ∀ n, g.keys (Obj.fbQuiet n) := by assumption) (k_fbState : ∀ n, g.keys (Obj.fbState n) := by assumption) (k_spikeDev : g.keys Obj.spikeDev := by assumption) (k_spikeMu : g.keys Obj.spikeMu := by assumption) (k_spikeRun : g.keys Obj.spikeRun := by assumption) (k_spikeSeen : g.keys Obj.spikeSeen := by assumption) :
    Leads g s (execMsgStatePart m u) := by
  unfold execMsgStatePart
  exact Leads.next (State.msgStatePart_within p_upd p_coll p_mem p_tier h)

theorem State.checkLayer_within {l : Nat} {digest : Nat} (p_cmd : Part.cmd ∈ g.parts) (p_tile : Part.tile ∈ g.parts) (p_upd : Part.upd ∈ g.parts) (p_mem : Part.mem ∈ g.parts) (p_tier : Part.tier ∈ g.parts) (h : Within g s u) (k_cumElements : g.keys Obj.cumElements := by assumption) (k_cumNonfinite : g.keys Obj.cumNonfinite := by assumption) (k_cumSaturation : g.keys Obj.cumSaturation := by assumption) (k_cumUnderflow : g.keys Obj.cumUnderflow := by assumption) :
    Within g s (State.checkLayer u l digest).1 := by
  unfold State.checkLayer
  extract_lets +onlyGivenNames -underBinder -merge n1
  extract_lets +onlyGivenNames -underBinder -merge n2
  exact Within.iteFst (Within.fst (State.rebuildWc_within p_tile p_mem p_tier h)) (Within.fst (State.layerFault_within p_cmd p_upd h))

theorem State.msgStateDone_within {m : Msg} (p_cmd : Part.cmd ∈ g.parts) (p_tile : Part.tile ∈ g.parts) (p_upd : Part.upd ∈ g.parts) (p_coll : Part.coll ∈ g.parts) (p_mem : Part.mem ∈ g.parts) (p_tier : Part.tier ∈ g.parts) (h : Within g s u) (k_cumElements : g.keys Obj.cumElements := by assumption) (k_cumNonfinite : g.keys Obj.cumNonfinite := by assumption) (k_cumSaturation : g.keys Obj.cumSaturation := by assumption) (k_cumUnderflow : g.keys Obj.cumUnderflow := by assumption) (k_groupAnchor : g.keys Obj.groupAnchor := by assumption) (k_groupRank : g.keys Obj.groupRank := by assumption) (k_groupSize : g.keys Obj.groupSize := by assumption) (k_lastCommittedStep : g.keys Obj.lastCommittedStep := by assumption) (k_modeEpoch : g.keys Obj.modeEpoch := by assumption) (k_shapeDigest : g.keys Obj.shapeDigest := by assumption) (k_stepDigest : g.keys Obj.stepDigest := by assumption) (k_stepDigestStep : g.keys Obj.stepDigestStep := by assumption) :
    Within g s (State.msgStateDone u m) := by
  unfold State.msgStateDone
  split
  · exact Within.ite (Within.setColl p_coll h) h
  · exact Within.ite h (by
      extract_lets +onlyGivenNames -underBinder -merge n6
      split
      · next _ _ _ y10 =>
        extract_lets +onlyGivenNames -underBinder -merge _ s11
        have h12 : Within g s s11 := (Within.setColl p_coll (Within.pair (Within.foldlFst (fun x13 x14 h15 => (by
          split
          · split
            · next _ _ _ y22 =>
              exact Within.fst (Within.pair (State.checkLayer_within p_cmd p_tile p_upd p_mem p_tier h15) y22))) (Within.fst h)) y10))
        exact Within.ite (Within.foldl (fun x23 x24 h25 => (State.raise_within h25)) h12) (by
          extract_lets +onlyGivenNames -underBinder -merge s26
          have h27 : Within g s s26 := (State.applyShape_within (State.wr_within (State.wr_within h12 _ _) _ _))
          extract_lets +onlyGivenNames -underBinder -merge _ s28
          have h29 : Within g s s28 := (Within.setColl p_coll h27)
          extract_lets +onlyGivenNames -underBinder -merge s30
          have h31 : Within g s s30 := (State.wr_within (State.wr_within h29 _ _) _ _)
          exact Within.ite h31 (State.raise_within h31)))

theorem execMsgStateDone_within {m : Msg} (p_cmd : Part.cmd ∈ g.parts) (p_tile : Part.tile ∈ g.parts) (p_upd : Part.upd ∈ g.parts) (p_coll : Part.coll ∈ g.parts) (p_mem : Part.mem ∈ g.parts) (p_tier : Part.tier ∈ g.parts) (h : Within g s u) (k_cumElements : g.keys Obj.cumElements := by assumption) (k_cumNonfinite : g.keys Obj.cumNonfinite := by assumption) (k_cumSaturation : g.keys Obj.cumSaturation := by assumption) (k_cumUnderflow : g.keys Obj.cumUnderflow := by assumption) (k_groupAnchor : g.keys Obj.groupAnchor := by assumption) (k_groupRank : g.keys Obj.groupRank := by assumption) (k_groupSize : g.keys Obj.groupSize := by assumption) (k_lastCommittedStep : g.keys Obj.lastCommittedStep := by assumption) (k_modeEpoch : g.keys Obj.modeEpoch := by assumption) (k_shapeDigest : g.keys Obj.shapeDigest := by assumption) (k_stepDigest : g.keys Obj.stepDigest := by assumption) (k_stepDigestStep : g.keys Obj.stepDigestStep := by assumption) :
    Leads g s (execMsgStateDone m u) := by
  unfold execMsgStateDone
  exact Leads.next (State.msgStateDone_within p_cmd p_tile p_upd p_coll p_mem p_tier h)

theorem State.tryActive_within (p_coll : Part.coll ∈ g.parts) (h : Within g s u) (k_groupState : g.keys Obj.groupState := by assumption) :
    Within g s (State.tryActive u) := by
  unfold State.tryActive
  extract_lets +onlyGivenNames -underBinder -merge n1
  exact Within.ite (by
    extract_lets +onlyGivenNames -underBinder -merge s2
    have h3 : Within g s s2 := (State.wr_within h _ _)
    exact Within.setColl p_coll h3) h

theorem State.capFrame_within (p_link : Part.link ∈ g.parts) (p_coll : Part.coll ∈ g.parts) (p_cross : Part.cross ∈ g.parts) (h : Within g s u) (k_collBytesTx : g.keys Obj.collBytesTx := by assumption) (k_flitsTx : ∀ n, g.keys (Obj.flitsTx n) := by assumption) :
    Within g s (State.capFrame u) := by
  unfold State.capFrame
  extract_lets +onlyGivenNames -underBinder -merge n1
  extract_lets +onlyGivenNames -underBinder -merge n2
  exact Within.ite h (by
    extract_lets +onlyGivenNames -underBinder -merge s3
    have h4 : Within g s s3 := (State.sendAll_within p_link p_coll p_cross h)
    exact Within.setColl p_coll h4)

theorem execCapabilitySend_within (p_link : Part.link ∈ g.parts) (p_coll : Part.coll ∈ g.parts) (p_cross : Part.cross ∈ g.parts) (h : Within g s u) (k_collBytesTx : g.keys Obj.collBytesTx := by assumption) (k_flitsTx : ∀ n, g.keys (Obj.flitsTx n) := by assumption) (k_groupState : g.keys Obj.groupState := by assumption) :
    Leads g s (execCapabilitySend u) := by
  unfold execCapabilitySend
  exact Leads.next (State.tryActive_within p_coll (State.capFrame_within p_link p_coll p_cross h))

theorem State.capNotes_within {m : Nat} {p2 : Peer} (h : Within g s u) (k_collLevel : g.keys Obj.collLevel := by assumption) (k_fwMixed : g.keys Obj.fwMixed := by assumption) :
    Within g s (State.capNotes u m p2) := by
  unfold State.capNotes
  extract_lets +onlyGivenNames -underBinder -merge s1
  have h2 : Within g s s1 := (Within.ite (State.raiseOnce_within h) (State.endEpisode_within h))
  extract_lets +onlyGivenNames -underBinder -merge s3
  have h4 : Within g s s3 := (Within.ite (State.wr_within (State.raiseOnce_within h2) _ _) h2)
  exact Within.ite (State.wr_within h4 _ _) h4

theorem State.joinTransfers_within (p_link : Part.link ∈ g.parts) (p_coll : Part.coll ∈ g.parts) (p_cross : Part.cross ∈ g.parts) (h : Within g s u) (k_collBytesTx : g.keys Obj.collBytesTx := by assumption) (k_flitsTx : ∀ n, g.keys (Obj.flitsTx n) := by assumption) :
    Within g s (State.joinTransfers u) := by
  unfold State.joinTransfers
  extract_lets +onlyGivenNames -underBinder -merge n1
  exact Within.ite h (Within.foldl (fun x2 x3 h4 => (State.sendState_within p_link p_coll p_cross h4)) h)

theorem State.sendView_within {view : Nat} (p_link : Part.link ∈ g.parts) (p_coll : Part.coll ∈ g.parts) (p_cross : Part.cross ∈ g.parts) (h : Within g s u) (k_collBytesTx : g.keys Obj.collBytesTx := by assumption) (k_flitsTx : ∀ n, g.keys (Obj.flitsTx n) := by assumption) :
    Within g s (State.sendView u view) := by
  unfold State.sendView
  exact Within.foldl (fun x1 x2 h3 => (Within.ite h3 (State.send_within p_link p_coll p_cross h3))) h

theorem State.onGroup_within {m : Msg} {f : State → State} (p_coll : Part.coll ∈ g.parts) (hf2 : ∀ v0, Within g s v0 → Within g s (f v0)) (h : Within g s u) (k_collMismatchCycles : g.keys Obj.collMismatchCycles := by assumption) (k_groupState : g.keys Obj.groupState := by assumption) :
    Within g s (State.onGroup u m f) := by
  unfold State.onGroup
  exact Within.ite h (Within.ite (State.onMode_within p_coll hf2 h) (Within.ite (hf2 _ h) h))

theorem State.levelUp_within (p_link : Part.link ∈ g.parts) (p_coll : Part.coll ∈ g.parts) (p_cross : Part.cross ∈ g.parts) (h : Within g s u) (k_collBytesTx : g.keys Obj.collBytesTx := by assumption) (k_flitsTx : ∀ n, g.keys (Obj.flitsTx n) := by assumption) :
    Within g s (State.levelUp u) := by
  unfold State.levelUp
  extract_lets +onlyGivenNames -underBinder -merge n1
  extract_lets +onlyGivenNames -underBinder -merge n2
  exact Within.ite h (Within.foldl (fun x3 x4 h5 => (State.sendState_within p_link p_coll p_cross h5)) h)

theorem State.donorFailed_within {m : Nat} (p_coll : Part.coll ∈ g.parts) (h : Within g s u) :
    Within g s (State.donorFailed u m) := by
  unfold State.donorFailed
  split
  · exact h
  · exact Within.ite h (Within.setColl p_coll h)

theorem State.memberFailed_within {m : Nat} (p_prep : Part.prep ∈ g.parts) (p_bar0 : Part.bar0 ∈ g.parts) (p_cmd : Part.cmd ∈ g.parts) (p_castMem : Part.castMem ∈ g.parts) (p_tile : Part.tile ∈ g.parts) (p_spans : Part.spans ∈ g.parts) (p_upd : Part.upd ∈ g.parts) (p_link : Part.link ∈ g.parts) (p_coll : Part.coll ∈ g.parts) (p_tier : Part.tier ∈ g.parts) (p_store : Part.store ∈ g.parts) (p_cross : Part.cross ∈ g.parts) (h : Within g s u) (k_actMode : g.keys Obj.actMode := by assumption) (k_actStep : g.keys Obj.actStep := by assumption) (k_collBytesTx : g.keys Obj.collBytesTx := by assumption) (k_collMismatchCycles : g.keys Obj.collMismatchCycles := by assumption) (k_decState : ∀ n, g.keys (Obj.decState n) := by assumption) (k_flitsTx : ∀ n, g.keys (Obj.flitsTx n) := by assumption) (k_groupState : g.keys Obj.groupState := by assumption) (k_memberFailures : g.keys Obj.memberFailures := by assumption) (k_prepEpoch : g.keys Obj.prepEpoch := by assumption) (k_prepStep : g.keys Obj.prepStep := by assumption) (k_tmWaitCycles : g.keys Obj.tmWaitCycles := by assumption) :
    Within g s (State.memberFailed u m) := by
  unfold State.memberFailed
  exact Within.ite h (by
    extract_lets +onlyGivenNames -underBinder -merge _ s1
    have h2 : Within g s s1 := (State.donorFailed_within p_coll (Within.setColl p_coll h))
    split
    · extract_lets +onlyGivenNames -underBinder -merge n6
      exact State.sendView_within p_link p_coll p_cross (Within.setColl p_coll h2)
    · extract_lets +onlyGivenNames -underBinder -merge s9
      have h10 : Within g s s9 := (State.countSat_within (State.abortStep_within p_prep p_bar0 p_cmd p_castMem p_tile p_spans p_upd p_coll p_tier p_store h2))
      extract_lets +onlyGivenNames -underBinder -merge n11
      extract_lets +onlyGivenNames -underBinder -merge n12
      exact State.sendView_within p_link p_coll p_cross (Within.setColl p_coll h10))

theorem State.msgCapability_within {m : Msg} (p_prep : Part.prep ∈ g.parts) (p_bar0 : Part.bar0 ∈ g.parts) (p_cmd : Part.cmd ∈ g.parts) (p_castMem : Part.castMem ∈ g.parts) (p_tile : Part.tile ∈ g.parts) (p_spans : Part.spans ∈ g.parts) (p_upd : Part.upd ∈ g.parts) (p_link : Part.link ∈ g.parts) (p_coll : Part.coll ∈ g.parts) (p_tier : Part.tier ∈ g.parts) (p_store : Part.store ∈ g.parts) (p_cross : Part.cross ∈ g.parts) (h : Within g s u) (k_actMode : g.keys Obj.actMode := by assumption) (k_actStep : g.keys Obj.actStep := by assumption) (k_collBytesTx : g.keys Obj.collBytesTx := by assumption) (k_collLevel : g.keys Obj.collLevel := by assumption) (k_collMismatchCycles : g.keys Obj.collMismatchCycles := by assumption) (k_decState : ∀ n, g.keys (Obj.decState n) := by assumption) (k_flitsTx : ∀ n, g.keys (Obj.flitsTx n) := by assumption) (k_fwMixed : g.keys Obj.fwMixed := by assumption) (k_groupState : g.keys Obj.groupState := by assumption) (k_memberFailures : g.keys Obj.memberFailures := by assumption) (k_prepEpoch : g.keys Obj.prepEpoch := by assumption) (k_prepStep : g.keys Obj.prepStep := by assumption) (k_tmWaitCycles : g.keys Obj.tmWaitCycles := by assumption) :
    Within g s (State.msgCapability u m) := by
  unfold State.msgCapability
  exact Within.ite h (by
    extract_lets +onlyGivenNames -underBinder -merge n1
    extract_lets +onlyGivenNames -underBinder -merge _ s2
    have h3 : Within g s s2 := (Within.setColl p_coll h)
    extract_lets +onlyGivenNames -underBinder -merge s4
    have h5 : Within g s s4 := (State.capNotes_within h3)
    exact Within.ite (State.memberFailed_within p_prep p_bar0 p_cmd p_castMem p_tile p_spans p_upd p_link p_coll p_tier p_store p_cross h5) (State.tryActive_within p_coll (State.joinTransfers_within p_link p_coll p_cross h5)))

theorem execMsgCapability_within {m : Msg} (p_prep : Part.prep ∈ g.parts) (p_bar0 : Part.bar0 ∈ g.parts) (p_cmd : Part.cmd ∈ g.parts) (p_castMem : Part.castMem ∈ g.parts) (p_tile : Part.tile ∈ g.parts) (p_spans : Part.spans ∈ g.parts) (p_upd : Part.upd ∈ g.parts) (p_link : Part.link ∈ g.parts) (p_coll : Part.coll ∈ g.parts) (p_tier : Part.tier ∈ g.parts) (p_store : Part.store ∈ g.parts) (p_cross : Part.cross ∈ g.parts) (h : Within g s u) (k_actMode : g.keys Obj.actMode := by assumption) (k_actStep : g.keys Obj.actStep := by assumption) (k_collBytesTx : g.keys Obj.collBytesTx := by assumption) (k_collLevel : g.keys Obj.collLevel := by assumption) (k_collMismatchCycles : g.keys Obj.collMismatchCycles := by assumption) (k_decState : ∀ n, g.keys (Obj.decState n) := by assumption) (k_flitsTx : ∀ n, g.keys (Obj.flitsTx n) := by assumption) (k_fwMixed : g.keys Obj.fwMixed := by assumption) (k_groupState : g.keys Obj.groupState := by assumption) (k_memberFailures : g.keys Obj.memberFailures := by assumption) (k_prepEpoch : g.keys Obj.prepEpoch := by assumption) (k_prepStep : g.keys Obj.prepStep := by assumption) (k_tmWaitCycles : g.keys Obj.tmWaitCycles := by assumption) :
    Leads g s (execMsgCapability m u) := by
  unfold execMsgCapability
  exact Leads.next (State.msgCapability_within p_prep p_bar0 p_cmd p_castMem p_tile p_spans p_upd p_link p_coll p_tier p_store p_cross h)

theorem State.joinWait_within (p_coll : Part.coll ∈ g.parts) (h : Within g s u) :
    Within g s (State.joinWait u) := by
  unfold State.joinWait
  extract_lets +onlyGivenNames -underBinder -merge n1
  exact Within.ite h (State.raise_within (Within.setColl p_coll h))

theorem execJoinWait_within (p_coll : Part.coll ∈ g.parts) (h : Within g s u) :
    Leads g s (execJoinWait u) := by
  unfold execJoinWait
  exact Leads.next (State.joinWait_within p_coll h)

theorem State.failDetect_within {m : Nat} (p_prep : Part.prep ∈ g.parts) (p_bar0 : Part.bar0 ∈ g.parts) (p_cmd : Part.cmd ∈ g.parts) (p_castMem : Part.castMem ∈ g.parts) (p_tile : Part.tile ∈ g.parts) (p_spans : Part.spans ∈ g.parts) (p_upd : Part.upd ∈ g.parts) (p_link : Part.link ∈ g.parts) (p_coll : Part.coll ∈ g.parts) (p_tier : Part.tier ∈ g.parts) (p_store : Part.store ∈ g.parts) (p_cross : Part.cross ∈ g.parts) (h : Within g s u) (k_actMode : g.keys Obj.actMode := by assumption) (k_actStep : g.keys Obj.actStep := by assumption) (k_collBytesTx : g.keys Obj.collBytesTx := by assumption) (k_collMismatchCycles : g.keys Obj.collMismatchCycles := by assumption) (k_decState : ∀ n, g.keys (Obj.decState n) := by assumption) (k_flitsTx : ∀ n, g.keys (Obj.flitsTx n) := by assumption) (k_groupState : g.keys Obj.groupState := by assumption) (k_memberFailures : g.keys Obj.memberFailures := by assumption) (k_prepEpoch : g.keys Obj.prepEpoch := by assumption) (k_prepStep : g.keys Obj.prepStep := by assumption) (k_tmWaitCycles : g.keys Obj.tmWaitCycles := by assumption) :
    Within g s (State.failDetect u m) := by
  unfold State.failDetect
  exact Within.ite (State.memberFailed_within p_prep p_bar0 p_cmd p_castMem p_tile p_spans p_upd p_link p_coll p_tier p_store p_cross h) h

theorem execMemberFailDetect_within {m : Fin 512} (p_prep : Part.prep ∈ g.parts) (p_bar0 : Part.bar0 ∈ g.parts) (p_cmd : Part.cmd ∈ g.parts) (p_castMem : Part.castMem ∈ g.parts) (p_tile : Part.tile ∈ g.parts) (p_spans : Part.spans ∈ g.parts) (p_upd : Part.upd ∈ g.parts) (p_link : Part.link ∈ g.parts) (p_coll : Part.coll ∈ g.parts) (p_tier : Part.tier ∈ g.parts) (p_store : Part.store ∈ g.parts) (p_cross : Part.cross ∈ g.parts) (h : Within g s u) (k_actMode : g.keys Obj.actMode := by assumption) (k_actStep : g.keys Obj.actStep := by assumption) (k_collBytesTx : g.keys Obj.collBytesTx := by assumption) (k_collMismatchCycles : g.keys Obj.collMismatchCycles := by assumption) (k_decState : ∀ n, g.keys (Obj.decState n) := by assumption) (k_flitsTx : ∀ n, g.keys (Obj.flitsTx n) := by assumption) (k_groupState : g.keys Obj.groupState := by assumption) (k_memberFailures : g.keys Obj.memberFailures := by assumption) (k_prepEpoch : g.keys Obj.prepEpoch := by assumption) (k_prepStep : g.keys Obj.prepStep := by assumption) (k_tmWaitCycles : g.keys Obj.tmWaitCycles := by assumption) :
    Leads g s (execMemberFailDetect m u) := by
  unfold execMemberFailDetect
  exact Leads.next (State.failDetect_within p_prep p_bar0 p_cmd p_castMem p_tile p_spans p_upd p_link p_coll p_tier p_store p_cross h)

theorem State.memberTimeout_within {m : Nat} (p_prep : Part.prep ∈ g.parts) (p_bar0 : Part.bar0 ∈ g.parts) (p_cmd : Part.cmd ∈ g.parts) (p_castMem : Part.castMem ∈ g.parts) (p_tile : Part.tile ∈ g.parts) (p_spans : Part.spans ∈ g.parts) (p_upd : Part.upd ∈ g.parts) (p_link : Part.link ∈ g.parts) (p_coll : Part.coll ∈ g.parts) (p_tier : Part.tier ∈ g.parts) (p_store : Part.store ∈ g.parts) (p_cross : Part.cross ∈ g.parts) (h : Within g s u) (k_actMode : g.keys Obj.actMode := by assumption) (k_actStep : g.keys Obj.actStep := by assumption) (k_collBytesTx : g.keys Obj.collBytesTx := by assumption) (k_collMismatchCycles : g.keys Obj.collMismatchCycles := by assumption) (k_decState : ∀ n, g.keys (Obj.decState n) := by assumption) (k_flitsTx : ∀ n, g.keys (Obj.flitsTx n) := by assumption) (k_groupState : g.keys Obj.groupState := by assumption) (k_memberFailures : g.keys Obj.memberFailures := by assumption) (k_prepEpoch : g.keys Obj.prepEpoch := by assumption) (k_prepStep : g.keys Obj.prepStep := by assumption) (k_tmWaitCycles : g.keys Obj.tmWaitCycles := by assumption) :
    Within g s (State.memberTimeout u m) := by
  unfold State.memberTimeout
  exact Within.ite (State.memberFailed_within p_prep p_bar0 p_cmd p_castMem p_tile p_spans p_upd p_link p_coll p_tier p_store p_cross (State.raise_within h)) h

theorem execMemberTimeout_within {m : Fin 512} (p_prep : Part.prep ∈ g.parts) (p_bar0 : Part.bar0 ∈ g.parts) (p_cmd : Part.cmd ∈ g.parts) (p_castMem : Part.castMem ∈ g.parts) (p_tile : Part.tile ∈ g.parts) (p_spans : Part.spans ∈ g.parts) (p_upd : Part.upd ∈ g.parts) (p_link : Part.link ∈ g.parts) (p_coll : Part.coll ∈ g.parts) (p_tier : Part.tier ∈ g.parts) (p_store : Part.store ∈ g.parts) (p_cross : Part.cross ∈ g.parts) (h : Within g s u) (k_actMode : g.keys Obj.actMode := by assumption) (k_actStep : g.keys Obj.actStep := by assumption) (k_collBytesTx : g.keys Obj.collBytesTx := by assumption) (k_collMismatchCycles : g.keys Obj.collMismatchCycles := by assumption) (k_decState : ∀ n, g.keys (Obj.decState n) := by assumption) (k_flitsTx : ∀ n, g.keys (Obj.flitsTx n) := by assumption) (k_groupState : g.keys Obj.groupState := by assumption) (k_memberFailures : g.keys Obj.memberFailures := by assumption) (k_prepEpoch : g.keys Obj.prepEpoch := by assumption) (k_prepStep : g.keys Obj.prepStep := by assumption) (k_tmWaitCycles : g.keys Obj.tmWaitCycles := by assumption) :
    Leads g s (execMemberTimeout m u) := by
  unfold execMemberTimeout
  exact Leads.next (State.memberTimeout_within p_prep p_bar0 p_cmd p_castMem p_tile p_spans p_upd p_link p_coll p_tier p_store p_cross h)

theorem State.viewFrom_within {m : Msg} (p_coll : Part.coll ∈ g.parts) (h : Within g s u) (k_collMismatchCycles : g.keys Obj.collMismatchCycles := by assumption) (k_groupState : g.keys Obj.groupState := by assumption) :
    Within g s (State.viewFrom u m) := by
  unfold State.viewFrom
  exact State.onGroup_within p_coll (fun x1 h2 => (Within.setColl p_coll h2)) h

theorem execMsgView_within {m : Msg} (p_coll : Part.coll ∈ g.parts) (h : Within g s u) (k_collMismatchCycles : g.keys Obj.collMismatchCycles := by assumption) (k_groupState : g.keys Obj.groupState := by assumption) :
    Leads g s (execMsgView m u) := by
  unfold execMsgView
  exact Leads.next (State.viewFrom_within p_coll h)

theorem State.goMinority_within (p_coll : Part.coll ∈ g.parts) (h : Within g s u) (k_groupState : g.keys Obj.groupState := by assumption) :
    Within g s (State.goMinority u) := by
  unfold State.goMinority
  extract_lets +onlyGivenNames -underBinder -merge _ s1
  have h2 : Within g s s1 := (Within.setColl p_coll h)
  exact State.raise_within (State.wr_within h2 _ _)

theorem State.rollbackVerdict_within (p_prep : Part.prep ∈ g.parts) (p_bar0 : Part.bar0 ∈ g.parts) (p_cmd : Part.cmd ∈ g.parts) (p_castMem : Part.castMem ∈ g.parts) (p_tile : Part.tile ∈ g.parts) (p_spans : Part.spans ∈ g.parts) (p_upd : Part.upd ∈ g.parts) (p_coll : Part.coll ∈ g.parts) (p_tier : Part.tier ∈ g.parts) (p_store : Part.store ∈ g.parts) (h : Within g s u) (k_actMode : g.keys Obj.actMode := by assumption) (k_actStep : g.keys Obj.actStep := by assumption) (k_collMismatchCycles : g.keys Obj.collMismatchCycles := by assumption) (k_decState : ∀ n, g.keys (Obj.decState n) := by assumption) (k_digestRepairs : g.keys Obj.digestRepairs := by assumption) (k_groupState : g.keys Obj.groupState := by assumption) (k_lastVerdict : g.keys Obj.lastVerdict := by assumption) (k_prepEpoch : g.keys Obj.prepEpoch := by assumption) (k_prepStep : g.keys Obj.prepStep := by assumption) (k_tmWaitCycles : g.keys Obj.tmWaitCycles := by assumption) :
    Within g s (State.rollbackVerdict u) := by
  unfold State.rollbackVerdict
  extract_lets +onlyGivenNames -underBinder -merge s1
  have h2 : Within g s s1 := (State.abortStep_within p_prep p_bar0 p_cmd p_castMem p_tile p_spans p_upd p_coll p_tier p_store (State.countSat_within (State.wr_within h _ _)))
  exact State.raise_within h2

theorem State.donateAgain_within (p_prep : Part.prep ∈ g.parts) (p_bar0 : Part.bar0 ∈ g.parts) (p_cmd : Part.cmd ∈ g.parts) (p_castMem : Part.castMem ∈ g.parts) (p_tile : Part.tile ∈ g.parts) (p_spans : Part.spans ∈ g.parts) (p_upd : Part.upd ∈ g.parts) (p_link : Part.link ∈ g.parts) (p_coll : Part.coll ∈ g.parts) (p_tier : Part.tier ∈ g.parts) (p_store : Part.store ∈ g.parts) (p_cross : Part.cross ∈ g.parts) (h : Within g s u) (k_actMode : g.keys Obj.actMode := by assumption) (k_actStep : g.keys Obj.actStep := by assumption) (k_collBytesTx : g.keys Obj.collBytesTx := by assumption) (k_collMismatchCycles : g.keys Obj.collMismatchCycles := by assumption) (k_decState : ∀ n, g.keys (Obj.decState n) := by assumption) (k_digestRepairs : g.keys Obj.digestRepairs := by assumption) (k_flitsTx : ∀ n, g.keys (Obj.flitsTx n) := by assumption) (k_groupState : g.keys Obj.groupState := by assumption) (k_lastVerdict : g.keys Obj.lastVerdict := by assumption) (k_prepEpoch : g.keys Obj.prepEpoch := by assumption) (k_prepStep : g.keys Obj.prepStep := by assumption) (k_tmWaitCycles : g.keys Obj.tmWaitCycles := by assumption) :
    Within g s (State.donateAgain u) := by
  unfold State.donateAgain
  split
  · exact Within.ite h (by
      split
      · exact Within.ite (Within.foldl (fun x7 x8 h9 => (State.sendState_within p_link p_coll p_cross h9)) h) h
      · exact State.rollbackVerdict_within p_prep p_bar0 p_cmd p_castMem p_tile p_spans p_upd p_coll p_tier p_store h)
  · exact h

theorem State.shrink_within {set : Nat} (p_prep : Part.prep ∈ g.parts) (p_bar0 : Part.bar0 ∈ g.parts) (p_cmd : Part.cmd ∈ g.parts) (p_castMem : Part.castMem ∈ g.parts) (p_tile : Part.tile ∈ g.parts) (p_spans : Part.spans ∈ g.parts) (p_upd : Part.upd ∈ g.parts) (p_link : Part.link ∈ g.parts) (p_coll : Part.coll ∈ g.parts) (p_tier : Part.tier ∈ g.parts) (p_store : Part.store ∈ g.parts) (p_cross : Part.cross ∈ g.parts) (h : Within g s u) (k_actMode : g.keys Obj.actMode := by assumption) (k_actStep : g.keys Obj.actStep := by assumption) (k_collBytesTx : g.keys Obj.collBytesTx := by assumption) (k_collMismatchCycles : g.keys Obj.collMismatchCycles := by assumption) (k_decState : ∀ n, g.keys (Obj.decState n) := by assumption) (k_digestRepairs : g.keys Obj.digestRepairs := by assumption) (k_flitsTx : ∀ n, g.keys (Obj.flitsTx n) := by assumption) (k_groupAnchor : g.keys Obj.groupAnchor := by assumption) (k_groupMembers : g.keys Obj.groupMembers := by assumption) (k_groupRank : g.keys Obj.groupRank := by assumption) (k_groupSize : g.keys Obj.groupSize := by assumption) (k_groupState : g.keys Obj.groupState := by assumption) (k_lastVerdict : g.keys Obj.lastVerdict := by assumption) (k_modeEpoch : g.keys Obj.modeEpoch := by assumption) (k_prepEpoch : g.keys Obj.prepEpoch := by assumption) (k_prepStep : g.keys Obj.prepStep := by assumption) (k_shapeDigest : g.keys Obj.shapeDigest := by assumption) (k_tmWaitCycles : g.keys Obj.tmWaitCycles := by assumption) :
    Within g s (State.shrink u set) := by
  unfold State.shrink
  extract_lets +onlyGivenNames -underBinder -merge n1
  extract_lets +onlyGivenNames -underBinder -merge s2
  have h3 : Within g s s2 := (State.applyShape_within (State.wr_within (State.wr_within h _ _) _ _))
  extract_lets +onlyGivenNames -underBinder -merge _ s4
  have h5 : Within g s s4 := (Within.setColl p_coll h3)
  extract_lets +onlyGivenNames -underBinder -merge s6
  have h7 : Within g s s6 := (State.raise_within h5)
  exact State.donateAgain_within p_prep p_bar0 p_cmd p_castMem p_tile p_spans p_upd p_link p_coll p_tier p_store p_cross (State.levelUp_within p_link p_coll p_cross h7)

theorem State.adoptIn_within {set : Nat} {shape : Nat} (p_prep : Part.prep ∈ g.parts) (p_bar0 : Part.bar0 ∈ g.parts) (p_cmd : Part.cmd ∈ g.parts) (p_castMem : Part.castMem ∈ g.parts) (p_tile : Part.tile ∈ g.parts) (p_spans : Part.spans ∈ g.parts) (p_upd : Part.upd ∈ g.parts) (p_link : Part.link ∈ g.parts) (p_coll : Part.coll ∈ g.parts) (p_tier : Part.tier ∈ g.parts) (p_store : Part.store ∈ g.parts) (p_cross : Part.cross ∈ g.parts) (h : Within g s u) (k_actMode : g.keys Obj.actMode := by assumption) (k_actStep : g.keys Obj.actStep := by assumption) (k_collBytesTx : g.keys Obj.collBytesTx := by assumption) (k_collMismatchCycles : g.keys Obj.collMismatchCycles := by assumption) (k_decState : ∀ n, g.keys (Obj.decState n) := by assumption) (k_digestRepairs : g.keys Obj.digestRepairs := by assumption) (k_flitsTx : ∀ n, g.keys (Obj.flitsTx n) := by assumption) (k_groupAnchor : g.keys Obj.groupAnchor := by assumption) (k_groupMembers : g.keys Obj.groupMembers := by assumption) (k_groupRank : g.keys Obj.groupRank := by assumption) (k_groupSize : g.keys Obj.groupSize := by assumption) (k_groupState : g.keys Obj.groupState := by assumption) (k_lastVerdict : g.keys Obj.lastVerdict := by assumption) (k_modeEpoch : g.keys Obj.modeEpoch := by assumption) (k_prepEpoch : g.keys Obj.prepEpoch := by assumption) (k_prepStep : g.keys Obj.prepStep := by assumption) (k_shapeDigest : g.keys Obj.shapeDigest := by assumption) (k_tmWaitCycles : g.keys Obj.tmWaitCycles := by assumption) :
    Within g s (State.adoptIn u set shape) := by
  unfold State.adoptIn
  exact Within.ite h (by
    extract_lets +onlyGivenNames -underBinder -merge n1
    extract_lets +onlyGivenNames -underBinder -merge n2
    extract_lets +onlyGivenNames -underBinder -merge n3
    exact Within.ite (State.shrink_within p_prep p_bar0 p_cmd p_castMem p_tile p_spans p_upd p_link p_coll p_tier p_store p_cross h) (State.goMinority_within p_coll h))

theorem State.adopt_within {set : Nat} (p_prep : Part.prep ∈ g.parts) (p_bar0 : Part.bar0 ∈ g.parts) (p_cmd : Part.cmd ∈ g.parts) (p_castMem : Part.castMem ∈ g.parts) (p_tile : Part.tile ∈ g.parts) (p_spans : Part.spans ∈ g.parts) (p_upd : Part.upd ∈ g.parts) (p_link : Part.link ∈ g.parts) (p_coll : Part.coll ∈ g.parts) (p_tier : Part.tier ∈ g.parts) (p_store : Part.store ∈ g.parts) (p_cross : Part.cross ∈ g.parts) (h : Within g s u) (k_actMode : g.keys Obj.actMode := by assumption) (k_actStep : g.keys Obj.actStep := by assumption) (k_collBytesTx : g.keys Obj.collBytesTx := by assumption) (k_collMismatchCycles : g.keys Obj.collMismatchCycles := by assumption) (k_decState : ∀ n, g.keys (Obj.decState n) := by assumption) (k_digestRepairs : g.keys Obj.digestRepairs := by assumption) (k_flitsTx : ∀ n, g.keys (Obj.flitsTx n) := by assumption) (k_groupAnchor : g.keys Obj.groupAnchor := by assumption) (k_groupMembers : g.keys Obj.groupMembers := by assumption) (k_groupRank : g.keys Obj.groupRank := by assumption) (k_groupSize : g.keys Obj.groupSize := by assumption) (k_groupState : g.keys Obj.groupState := by assumption) (k_lastVerdict : g.keys Obj.lastVerdict := by assumption) (k_modeEpoch : g.keys Obj.modeEpoch := by assumption) (k_prepEpoch : g.keys Obj.prepEpoch := by assumption) (k_prepStep : g.keys Obj.prepStep := by assumption) (k_shapeDigest : g.keys Obj.shapeDigest := by assumption) (k_tmWaitCycles : g.keys Obj.tmWaitCycles := by assumption) :
    Within g s (State.adopt u set) := by
  unfold State.adopt
  split
  · exact h
  · exact State.adoptIn_within p_prep p_bar0 p_cmd p_castMem p_tile p_spans p_upd p_link p_coll p_tier p_store p_cross h

theorem State.adoptUnseen_within {set : Nat} (p_prep : Part.prep ∈ g.parts) (p_bar0 : Part.bar0 ∈ g.parts) (p_cmd : Part.cmd ∈ g.parts) (p_castMem : Part.castMem ∈ g.parts) (p_tile : Part.tile ∈ g.parts) (p_spans : Part.spans ∈ g.parts) (p_upd : Part.upd ∈ g.parts) (p_link : Part.link ∈ g.parts) (p_coll : Part.coll ∈ g.parts) (p_tier : Part.tier ∈ g.parts) (p_store : Part.store ∈ g.parts) (p_cross : Part.cross ∈ g.parts) (h : Within g s u) (k_actMode : g.keys Obj.actMode := by assumption) (k_actStep : g.keys Obj.actStep := by assumption) (k_collBytesTx : g.keys Obj.collBytesTx := by assumption) (k_collMismatchCycles : g.keys Obj.collMismatchCycles := by assumption) (k_decState : ∀ n, g.keys (Obj.decState n) := by assumption) (k_digestRepairs : g.keys Obj.digestRepairs := by assumption) (k_flitsTx : ∀ n, g.keys (Obj.flitsTx n) := by assumption) (k_groupAnchor : g.keys Obj.groupAnchor := by assumption) (k_groupMembers : g.keys Obj.groupMembers := by assumption) (k_groupRank : g.keys Obj.groupRank := by assumption) (k_groupSize : g.keys Obj.groupSize := by assumption) (k_groupState : g.keys Obj.groupState := by assumption) (k_lastVerdict : g.keys Obj.lastVerdict := by assumption) (k_memberFailures : g.keys Obj.memberFailures := by assumption) (k_modeEpoch : g.keys Obj.modeEpoch := by assumption) (k_prepEpoch : g.keys Obj.prepEpoch := by assumption) (k_prepStep : g.keys Obj.prepStep := by assumption) (k_shapeDigest : g.keys Obj.shapeDigest := by assumption) (k_tmWaitCycles : g.keys Obj.tmWaitCycles := by assumption) :
    Within g s (State.adoptUnseen u set) := by
  unfold State.adoptUnseen
  exact Within.ite h (State.adoptIn_within p_prep p_bar0 p_cmd p_castMem p_tile p_spans p_upd p_link p_coll p_tier p_store p_cross (State.countSat_within (State.abortStep_within p_prep p_bar0 p_cmd p_castMem p_tile p_spans p_upd p_coll p_tier p_store h)))

theorem execMsgSurvivors_within {m : Msg} (p_prep : Part.prep ∈ g.parts) (p_bar0 : Part.bar0 ∈ g.parts) (p_cmd : Part.cmd ∈ g.parts) (p_castMem : Part.castMem ∈ g.parts) (p_tile : Part.tile ∈ g.parts) (p_spans : Part.spans ∈ g.parts) (p_upd : Part.upd ∈ g.parts) (p_link : Part.link ∈ g.parts) (p_coll : Part.coll ∈ g.parts) (p_tier : Part.tier ∈ g.parts) (p_store : Part.store ∈ g.parts) (p_cross : Part.cross ∈ g.parts) (h : Within g s u) (k_actMode : g.keys Obj.actMode := by assumption) (k_actStep : g.keys Obj.actStep := by assumption) (k_collBytesTx : g.keys Obj.collBytesTx := by assumption) (k_collMismatchCycles : g.keys Obj.collMismatchCycles := by assumption) (k_decState : ∀ n, g.keys (Obj.decState n) := by assumption) (k_digestRepairs : g.keys Obj.digestRepairs := by assumption) (k_flitsTx : ∀ n, g.keys (Obj.flitsTx n) := by assumption) (k_groupAnchor : g.keys Obj.groupAnchor := by assumption) (k_groupMembers : g.keys Obj.groupMembers := by assumption) (k_groupRank : g.keys Obj.groupRank := by assumption) (k_groupSize : g.keys Obj.groupSize := by assumption) (k_groupState : g.keys Obj.groupState := by assumption) (k_lastVerdict : g.keys Obj.lastVerdict := by assumption) (k_memberFailures : g.keys Obj.memberFailures := by assumption) (k_modeEpoch : g.keys Obj.modeEpoch := by assumption) (k_prepEpoch : g.keys Obj.prepEpoch := by assumption) (k_prepStep : g.keys Obj.prepStep := by assumption) (k_shapeDigest : g.keys Obj.shapeDigest := by assumption) (k_tmWaitCycles : g.keys Obj.tmWaitCycles := by assumption) :
    Leads g s (execMsgSurvivors m u) := by
  unfold execMsgSurvivors
  extract_lets +onlyGivenNames -underBinder -merge n1
  exact Leads.next (State.onGroup_within p_coll (fun x2 h3 => (Within.ite (State.adopt_within p_prep p_bar0 p_cmd p_castMem p_tile p_spans p_upd p_link p_coll p_tier p_store p_cross h3) (State.adoptUnseen_within p_prep p_bar0 p_cmd p_castMem p_tile p_spans p_upd p_link p_coll p_tier p_store p_cross h3))) h)

theorem State.leaderDecide_within (p_prep : Part.prep ∈ g.parts) (p_bar0 : Part.bar0 ∈ g.parts) (p_cmd : Part.cmd ∈ g.parts) (p_castMem : Part.castMem ∈ g.parts) (p_tile : Part.tile ∈ g.parts) (p_spans : Part.spans ∈ g.parts) (p_upd : Part.upd ∈ g.parts) (p_link : Part.link ∈ g.parts) (p_coll : Part.coll ∈ g.parts) (p_tier : Part.tier ∈ g.parts) (p_store : Part.store ∈ g.parts) (p_cross : Part.cross ∈ g.parts) (h : Within g s u) (k_actMode : g.keys Obj.actMode := by assumption) (k_actStep : g.keys Obj.actStep := by assumption) (k_collBytesTx : g.keys Obj.collBytesTx := by assumption) (k_collMismatchCycles : g.keys Obj.collMismatchCycles := by assumption) (k_decState : ∀ n, g.keys (Obj.decState n) := by assumption) (k_digestRepairs : g.keys Obj.digestRepairs := by assumption) (k_flitsTx : ∀ n, g.keys (Obj.flitsTx n) := by assumption) (k_groupAnchor : g.keys Obj.groupAnchor := by assumption) (k_groupMembers : g.keys Obj.groupMembers := by assumption) (k_groupRank : g.keys Obj.groupRank := by assumption) (k_groupSize : g.keys Obj.groupSize := by assumption) (k_groupState : g.keys Obj.groupState := by assumption) (k_lastVerdict : g.keys Obj.lastVerdict := by assumption) (k_modeEpoch : g.keys Obj.modeEpoch := by assumption) (k_prepEpoch : g.keys Obj.prepEpoch := by assumption) (k_prepStep : g.keys Obj.prepStep := by assumption) (k_shapeDigest : g.keys Obj.shapeDigest := by assumption) (k_tmWaitCycles : g.keys Obj.tmWaitCycles := by assumption) :
    Within g s (State.leaderDecide u) := by
  unfold State.leaderDecide
  split
  · exact h
  · exact Within.ite h (by
      extract_lets +onlyGivenNames -underBinder -merge n6
      extract_lets +onlyGivenNames -underBinder -merge s7
      have h8 : Within g s s7 := (Within.foldl (fun x9 x10 h11 => (Within.ite h11 (State.send_within p_link p_coll p_cross h11))) h)
      exact State.adopt_within p_prep p_bar0 p_cmd p_castMem p_tile p_spans p_upd p_link p_coll p_tier p_store p_cross h8)

theorem execViewLeaderDecide_within (p_prep : Part.prep ∈ g.parts) (p_bar0 : Part.bar0 ∈ g.parts) (p_cmd : Part.cmd ∈ g.parts) (p_castMem : Part.castMem ∈ g.parts) (p_tile : Part.tile ∈ g.parts) (p_spans : Part.spans ∈ g.parts) (p_upd : Part.upd ∈ g.parts) (p_link : Part.link ∈ g.parts) (p_coll : Part.coll ∈ g.parts) (p_tier : Part.tier ∈ g.parts) (p_store : Part.store ∈ g.parts) (p_cross : Part.cross ∈ g.parts) (h : Within g s u) (k_actMode : g.keys Obj.actMode := by assumption) (k_actStep : g.keys Obj.actStep := by assumption) (k_collBytesTx : g.keys Obj.collBytesTx := by assumption) (k_collMismatchCycles : g.keys Obj.collMismatchCycles := by assumption) (k_decState : ∀ n, g.keys (Obj.decState n) := by assumption) (k_digestRepairs : g.keys Obj.digestRepairs := by assumption) (k_flitsTx : ∀ n, g.keys (Obj.flitsTx n) := by assumption) (k_groupAnchor : g.keys Obj.groupAnchor := by assumption) (k_groupMembers : g.keys Obj.groupMembers := by assumption) (k_groupRank : g.keys Obj.groupRank := by assumption) (k_groupSize : g.keys Obj.groupSize := by assumption) (k_groupState : g.keys Obj.groupState := by assumption) (k_lastVerdict : g.keys Obj.lastVerdict := by assumption) (k_modeEpoch : g.keys Obj.modeEpoch := by assumption) (k_prepEpoch : g.keys Obj.prepEpoch := by assumption) (k_prepStep : g.keys Obj.prepStep := by assumption) (k_shapeDigest : g.keys Obj.shapeDigest := by assumption) (k_tmWaitCycles : g.keys Obj.tmWaitCycles := by assumption) :
    Leads g s (execViewLeaderDecide u) := by
  unfold execViewLeaderDecide
  exact Leads.next (State.leaderDecide_within p_prep p_bar0 p_cmd p_castMem p_tile p_spans p_upd p_link p_coll p_tier p_store p_cross h)

theorem State.viewTimeout_within (p_coll : Part.coll ∈ g.parts) (h : Within g s u) (k_groupState : g.keys Obj.groupState := by assumption) :
    Within g s (State.viewTimeout u) := by
  unfold State.viewTimeout
  split
  · exact h
  · exact Within.ite h (State.goMinority_within p_coll h)

theorem execViewMinorityTimeout_within (p_coll : Part.coll ∈ g.parts) (h : Within g s u) (k_groupState : g.keys Obj.groupState := by assumption) :
    Leads g s (execViewMinorityTimeout u) := by
  unfold execViewMinorityTimeout
  exact Leads.next (State.viewTimeout_within p_coll h)

theorem State.msgAbort_within {m : Msg} (p_prep : Part.prep ∈ g.parts) (p_bar0 : Part.bar0 ∈ g.parts) (p_cmd : Part.cmd ∈ g.parts) (p_scratch : Part.scratch ∈ g.parts) (p_castMem : Part.castMem ∈ g.parts) (p_tile : Part.tile ∈ g.parts) (p_spans : Part.spans ∈ g.parts) (p_touches : Part.touches ∈ g.parts) (p_upd : Part.upd ∈ g.parts) (p_link : Part.link ∈ g.parts) (p_coll : Part.coll ∈ g.parts) (p_mem : Part.mem ∈ g.parts) (p_tier : Part.tier ∈ g.parts) (p_store : Part.store ∈ g.parts) (p_cross : Part.cross ∈ g.parts) (h : Within g s u) (k_actMode : g.keys Obj.actMode := by assumption) (k_actStep : g.keys Obj.actStep := by assumption) (k_collBytesTx : g.keys Obj.collBytesTx := by assumption) (k_collDuplicates : g.keys Obj.collDuplicates := by assumption) (k_collMismatchCycles : g.keys Obj.collMismatchCycles := by assumption) (k_cumElements : g.keys Obj.cumElements := by assumption) (k_cumNonfinite : g.keys Obj.cumNonfinite := by assumption) (k_cumSaturation : g.keys Obj.cumSaturation := by assumption) (k_cumUnderflow : g.keys Obj.cumUnderflow := by assumption) (k_decState : ∀ n, g.keys (Obj.decState n) := by assumption) (k_flitsTx : ∀ n, g.keys (Obj.flitsTx n) := by assumption) (k_groupState : g.keys Obj.groupState := by assumption) (k_prepEpoch : g.keys Obj.prepEpoch := by assumption) (k_prepStep : g.keys Obj.prepStep := by assumption) (k_tmWaitCycles : g.keys Obj.tmWaitCycles := by assumption) :
    Within g s (State.msgAbort u m) := by
  unfold State.msgAbort
  exact Within.ite (State.levelUp_within p_link p_coll p_cross (State.abortStep_within p_prep p_bar0 p_cmd p_castMem p_tile p_spans p_upd p_coll p_tier p_store h)) (State.collMsg_within p_prep p_bar0 p_cmd p_scratch p_castMem p_tile p_spans p_touches p_upd p_link p_coll p_mem p_tier p_store p_cross h)

theorem execMsgAbort_within {m : Msg} (p_prep : Part.prep ∈ g.parts) (p_bar0 : Part.bar0 ∈ g.parts) (p_cmd : Part.cmd ∈ g.parts) (p_scratch : Part.scratch ∈ g.parts) (p_castMem : Part.castMem ∈ g.parts) (p_tile : Part.tile ∈ g.parts) (p_spans : Part.spans ∈ g.parts) (p_touches : Part.touches ∈ g.parts) (p_upd : Part.upd ∈ g.parts) (p_link : Part.link ∈ g.parts) (p_coll : Part.coll ∈ g.parts) (p_mem : Part.mem ∈ g.parts) (p_tier : Part.tier ∈ g.parts) (p_store : Part.store ∈ g.parts) (p_cross : Part.cross ∈ g.parts) (h : Within g s u) (k_actMode : g.keys Obj.actMode := by assumption) (k_actStep : g.keys Obj.actStep := by assumption) (k_collBytesTx : g.keys Obj.collBytesTx := by assumption) (k_collDuplicates : g.keys Obj.collDuplicates := by assumption) (k_collMismatchCycles : g.keys Obj.collMismatchCycles := by assumption) (k_cumElements : g.keys Obj.cumElements := by assumption) (k_cumNonfinite : g.keys Obj.cumNonfinite := by assumption) (k_cumSaturation : g.keys Obj.cumSaturation := by assumption) (k_cumUnderflow : g.keys Obj.cumUnderflow := by assumption) (k_decState : ∀ n, g.keys (Obj.decState n) := by assumption) (k_flitsTx : ∀ n, g.keys (Obj.flitsTx n) := by assumption) (k_groupState : g.keys Obj.groupState := by assumption) (k_prepEpoch : g.keys Obj.prepEpoch := by assumption) (k_prepStep : g.keys Obj.prepStep := by assumption) (k_tmWaitCycles : g.keys Obj.tmWaitCycles := by assumption) :
    Leads g s (execMsgAbort m u) := by
  unfold execMsgAbort
  exact Leads.next (State.msgAbort_within p_prep p_bar0 p_cmd p_scratch p_castMem p_tile p_spans p_touches p_upd p_link p_coll p_mem p_tier p_store p_cross h)

theorem State.modePrepare_within {w : Nat} {e : QEntry} (p_prep : Part.prep ∈ g.parts) (p_coll : Part.coll ∈ g.parts) (h : Within g s u) (k_actMode : g.keys Obj.actMode := by assumption) (k_actStep : g.keys Obj.actStep := by assumption) (k_prepEpoch : g.keys Obj.prepEpoch := by assumption) (k_prepStep : g.keys Obj.prepStep := by assumption) :
    Within g s (State.modePrepare u w e) := by
  unfold State.modePrepare
  exact Within.ite h (by
    extract_lets +onlyGivenNames -underBinder -merge n1
    extract_lets +onlyGivenNames -underBinder -merge n2
    extract_lets +onlyGivenNames -underBinder -merge _ s3
    have h4 : Within g s s3 := (Within.many h rfl (fun p => by cases p <;> first | exact .inr rfl | exact .inl ‹_›) (fun f => ⟨f.1, f.2, f.3, f.4, f.5, f.6, f.7, f.8, f.9, f.10, f.11, f.12⟩) rfl)
    extract_lets +onlyGivenNames -underBinder -merge s5
    have h6 : Within g s s5 := (Within.ite (State.wr_within (State.wr_within h4 _ _) _ _) h4)
    exact State.wr_within (State.wr_within h6 _ _) _ _)

theorem execModePrepare_within {w : Fin 8} {q : Nat} (p_prep : Part.prep ∈ g.parts) (p_coll : Part.coll ∈ g.parts) (h : Within g s u) (k_actMode : g.keys Obj.actMode := by assumption) (k_actStep : g.keys Obj.actStep := by assumption) (k_prepEpoch : g.keys Obj.prepEpoch := by assumption) (k_prepStep : g.keys Obj.prepStep := by assumption) :
    Leads g s (execModePrepare w q u) := by
  unfold execModePrepare
  exact onUnit_within (fun x1 => (State.modePrepare_within p_prep p_coll h)) h

theorem State.endPrepare_within {status : Nat} (p_prep : Part.prep ∈ g.parts) (p_cmd : Part.cmd ∈ g.parts) (p_coll : Part.coll ∈ g.parts) (h : Within g s u) (k_actMode : g.keys Obj.actMode := by assumption) (k_actStep : g.keys Obj.actStep := by assumption) (k_prepEpoch : g.keys Obj.prepEpoch := by assumption) (k_prepStep : g.keys Obj.prepStep := by assumption) :
    Within g s (State.endPrepare u status) := by
  unfold State.endPrepare
  split
  · exact h
  · extract_lets +onlyGivenNames -underBinder -merge _ s6
    have h7 : Within g s s6 := (Within.many h rfl (fun p => by cases p <;> first | exact .inr rfl | exact .inl ‹_›) (fun f => ⟨f.1, f.2, f.3, f.4, f.5, f.6, f.7, f.8, f.9, f.10, f.11, f.12⟩) rfl)
    extract_lets +onlyGivenNames -underBinder -merge s8
    have h9 : Within g s s8 := (Within.ite (State.wr_within (State.wr_within h7 _ _) _ _) h7)
    exact State.unitDone_within p_cmd (State.wr_within (State.wr_within h9 _ _) _ _)

theorem execModeCancel_within {w : Fin 8} {q : Nat} (p_prep : Part.prep ∈ g.parts) (p_cmd : Part.cmd ∈ g.parts) (p_coll : Part.coll ∈ g.parts) (h : Within g s u) (k_actMode : g.keys Obj.actMode := by assumption) (k_actStep : g.keys Obj.actStep := by assumption) (k_prepEpoch : g.keys Obj.prepEpoch := by assumption) (k_prepStep : g.keys Obj.prepStep := by assumption) :
    Leads g s (execModeCancel w q u) := by
  unfold execModeCancel
  exact onUnit_within (fun x1 => (State.unitDone_within p_cmd (State.endPrepare_within p_prep p_cmd p_coll h))) h

theorem State.sendDigest_within {step : Nat} {own : Nat} {t3 : Option TwinPair} (p_link : Part.link ∈ g.parts) (p_coll : Part.coll ∈ g.parts) (p_cross : Part.cross ∈ g.parts) (h : Within g s u) (k_collBytesTx : g.keys Obj.collBytesTx := by assumption) (k_flitsTx : ∀ n, g.keys (Obj.flitsTx n) := by assumption) :
    Within g s (State.sendDigest u step own t3) := by
  unfold State.sendDigest
  exact State.sendAll_within p_link p_coll p_cross h

theorem State.noteTwin_within {step : Nat} {v : Nat} {late : Bool} {t4 : TwinPair} (p_coll : Part.coll ∈ g.parts) (h : Within g s u) :
    Within g s (State.noteTwin u step v late t4) := by
  unfold State.noteTwin
  extract_lets +onlyGivenNames -underBinder -merge s1
  have h2 : Within g s s1 := (Within.ite (State.raiseOnce_within h) (State.endEpisode_within h))
  exact Within.ite (Within.setColl p_coll h2) h2

theorem State.takeDigest_within {m : Msg} (p_coll : Part.coll ∈ g.parts) (h : Within g s u) :
    Within g s (State.takeDigest u m) := by
  unfold State.takeDigest
  split
  · exact h
  · extract_lets +onlyGivenNames -underBinder -merge n6
    extract_lets +onlyGivenNames -underBinder -merge _ s7
    have h8 : Within g s s7 := (Within.setColl p_coll h)
    split
    · exact Within.ite h8 (State.noteTwin_within p_coll h8)
    · exact h8

theorem State.takeTwin_within {m : Msg} (p_link : Part.link ∈ g.parts) (p_coll : Part.coll ∈ g.parts) (p_cross : Part.cross ∈ g.parts) (h : Within g s u) (k_collBytesTx : g.keys Obj.collBytesTx := by assumption) (k_flitsTx : ∀ n, g.keys (Obj.flitsTx n) := by assumption) :
    Within g s (State.takeTwin u m) := by
  unfold State.takeTwin
  split
  · extract_lets +onlyGivenNames -underBinder -merge _ s7
    have h8 : Within g s s7 := (Within.setColl p_coll h)
    extract_lets +onlyGivenNames -underBinder -merge n9
    exact State.sendDigest_within p_link p_coll p_cross (State.noteTwin_within p_coll h8)
  · exact h

theorem State.overdueTwin_within {m : Msg} (p_link : Part.link ∈ g.parts) (p_coll : Part.coll ∈ g.parts) (p_cross : Part.cross ∈ g.parts) (h : Within g s u) (k_collBytesTx : g.keys Obj.collBytesTx := by assumption) (k_flitsTx : ∀ n, g.keys (Obj.flitsTx n) := by assumption) :
    Within g s (State.overdueTwin u m) := by
  unfold State.overdueTwin
  split
  · extract_lets +onlyGivenNames -underBinder -merge s7
    have h8 : Within g s s7 := (State.noteTwin_within p_coll h)
    exact Within.ite (State.sendDigest_within p_link p_coll p_cross (Within.setColl p_coll h8)) h8
  · exact h

theorem State.digestMsg_within {m : Msg} (p_link : Part.link ∈ g.parts) (p_coll : Part.coll ∈ g.parts) (p_cross : Part.cross ∈ g.parts) (h : Within g s u) (k_collBytesTx : g.keys Obj.collBytesTx := by assumption) (k_flitsTx : ∀ n, g.keys (Obj.flitsTx n) := by assumption) :
    Within g s (State.digestMsg u m) := by
  unfold State.digestMsg
  split
  · exact Within.ite (Within.ite (State.takeTwin_within p_link p_coll p_cross h) (State.takeDigest_within p_coll h)) (Within.ite (Within.setColl p_coll h) (State.overdueTwin_within p_link p_coll p_cross h))
  · exact Within.setColl p_coll h

theorem execMsgDigest_within {m : Msg} (p_link : Part.link ∈ g.parts) (p_coll : Part.coll ∈ g.parts) (p_cross : Part.cross ∈ g.parts) (h : Within g s u) (k_collBytesTx : g.keys Obj.collBytesTx := by assumption) (k_flitsTx : ∀ n, g.keys (Obj.flitsTx n) := by assumption) :
    Leads g s (execMsgDigest m u) := by
  unfold execMsgDigest
  exact Leads.next (Within.ite (State.digestMsg_within p_link p_coll p_cross h) h)

theorem execMsgTwinDigest_within {m : Msg} (p_link : Part.link ∈ g.parts) (p_coll : Part.coll ∈ g.parts) (p_cross : Part.cross ∈ g.parts) (h : Within g s u) (k_collBytesTx : g.keys Obj.collBytesTx := by assumption) (k_flitsTx : ∀ n, g.keys (Obj.flitsTx n) := by assumption) :
    Leads g s (execMsgTwinDigest m u) := by
  unfold execMsgTwinDigest
  exact Leads.next (Within.ite (State.digestMsg_within p_link p_coll p_cross h) h)

theorem State.compareStart_within (p_link : Part.link ∈ g.parts) (p_coll : Part.coll ∈ g.parts) (p_cross : Part.cross ∈ g.parts) (h : Within g s u) (k_collBytesTx : g.keys Obj.collBytesTx := by assumption) (k_flitsTx : ∀ n, g.keys (Obj.flitsTx n) := by assumption) :
    Within g s (State.compareStart u) := by
  unfold State.compareStart
  extract_lets +onlyGivenNames -underBinder -merge n1
  extract_lets +onlyGivenNames -underBinder -merge n2
  extract_lets +onlyGivenNames -underBinder -merge _ s3
  have h4 : Within g s s3 := (Within.setColl p_coll h)
  exact Within.ite h4 (by
    extract_lets +onlyGivenNames -underBinder -merge n5
    extract_lets +onlyGivenNames -underBinder -merge n6
    extract_lets +onlyGivenNames -underBinder -merge n7
    extract_lets +onlyGivenNames -underBinder -merge n8
    extract_lets +onlyGivenNames -underBinder -merge _ s9
    have h10 : Within g s s9 := (Within.setColl p_coll h4)
    extract_lets +onlyGivenNames -underBinder -merge _ s11
    have h12 : Within g s s11 := (Within.ite (State.sendPod_within p_link p_coll p_cross h10) h10)
    extract_lets +onlyGivenNames -underBinder -merge s13
    have h14 : Within g s s13 := (State.sendDigest_within p_link p_coll p_cross h12)
    exact Within.foldl (fun x15 x16 h17 => (State.digestMsg_within p_link p_coll p_cross h17)) h14)

theorem State.twinWait_within (p_coll : Part.coll ∈ g.parts) (h : Within g s u) :
    Within g s (State.twinWait u) := by
  unfold State.twinWait
  split
  · exact h
  · exact Within.ite h (State.raise_within (Within.setColl p_coll h))

theorem execTwinWait_within (p_coll : Part.coll ∈ g.parts) (h : Within g s u) :
    Leads g s (execTwinWait u) := by
  unfold execTwinWait
  exact Leads.next (State.twinWait_within p_coll h)

theorem State.beOdd_within {step : Nat} {donor : Nat} (p_cmd : Part.cmd ∈ g.parts) (p_tile : Part.tile ∈ g.parts) (p_upd : Part.upd ∈ g.parts) (p_coll : Part.coll ∈ g.parts) (p_mem : Part.mem ∈ g.parts) (p_tier : Part.tier ∈ g.parts) (p_start : Part.start ∈ g.parts) (h : Within g s u) (k_any : ∀ k, g.keys k := by assumption) (k_cumElements : g.keys Obj.cumElements := by assumption) (k_cumNonfinite : g.keys Obj.cumNonfinite := by assumption) (k_cumSaturation : g.keys Obj.cumSaturation := by assumption) (k_cumUnderflow : g.keys Obj.cumUnderflow := by assumption) (k_fbQuiet : ∀ n, g.keys (Obj.fbQuiet n) := by assumption) (k_fbState : ∀ n, g.keys (Obj.fbState n) := by assumption) (k_groupAnchor : g.keys Obj.groupAnchor := by assumption) (k_groupRank : g.keys Obj.groupRank := by assumption) (k_groupSize : g.keys Obj.groupSize := by assumption) (k_groupState : g.keys Obj.groupState := by assumption) (k_lastCommittedStep : g.keys Obj.lastCommittedStep := by assumption) (k_modeEpoch : g.keys Obj.modeEpoch := by assumption) (k_shapeDigest : g.keys Obj.shapeDigest := by assumption) (k_spikeDev : g.keys Obj.spikeDev := by assumption) (k_spikeMu : g.keys Obj.spikeMu := by assumption) (k_spikeRun : g.keys Obj.spikeRun := by assumption) (k_spikeSeen : g.keys Obj.spikeSeen := by assumption) (k_stepDigest : g.keys Obj.stepDigest := by assumption) (k_stepDigestStep : g.keys Obj.stepDigestStep := by assumption) (k_suspects : g.keys Obj.suspects := by assumption) :
    Within g s (State.beOdd u step donor) := by
  unfold State.beOdd
  extract_lets +onlyGivenNames -underBinder -merge n1
  extract_lets +onlyGivenNames -underBinder -merge _ s2
  have h3 : Within g s s2 := (State.wr_within (Within.setColl p_coll h) _ _)
  exact Within.ite (State.fieldEntry_within p_start (State.raise_within (State.wr_within h3 _ _))) (by
    extract_lets +onlyGivenNames -underBinder -merge n4
    extract_lets +onlyGivenNames -underBinder -merge _ s5
    have h6 : Within g s s5 := (Within.setColl p_coll h3)
    exact Within.foldl (fun x7 x8 h9 => (Within.ite (State.msgStatePart_within p_upd p_coll p_mem p_tier h9) (State.msgStateDone_within p_cmd p_tile p_upd p_coll p_mem p_tier h9))) h6)

theorem State.verdict_within {c : Compare} (p_prep : Part.prep ∈ g.parts) (p_bar0 : Part.bar0 ∈ g.parts) (p_cmd : Part.cmd ∈ g.parts) (p_castMem : Part.castMem ∈ g.parts) (p_tile : Part.tile ∈ g.parts) (p_spans : Part.spans ∈ g.parts) (p_upd : Part.upd ∈ g.parts) (p_link : Part.link ∈ g.parts) (p_coll : Part.coll ∈ g.parts) (p_mem : Part.mem ∈ g.parts) (p_tier : Part.tier ∈ g.parts) (p_store : Part.store ∈ g.parts) (p_cross : Part.cross ∈ g.parts) (p_start : Part.start ∈ g.parts) (h : Within g s u) (k_actMode : g.keys Obj.actMode := by assumption) (k_actStep : g.keys Obj.actStep := by assumption) (k_any : ∀ k, g.keys k := by assumption) (k_collBytesTx : g.keys Obj.collBytesTx := by assumption) (k_collMismatchCycles : g.keys Obj.collMismatchCycles := by assumption) (k_cumElements : g.keys Obj.cumElements := by assumption) (k_cumNonfinite : g.keys Obj.cumNonfinite := by assumption) (k_cumSaturation : g.keys Obj.cumSaturation := by assumption) (k_cumUnderflow : g.keys Obj.cumUnderflow := by assumption) (k_decState : ∀ n, g.keys (Obj.decState n) := by assumption) (k_digestRepairs : g.keys Obj.digestRepairs := by assumption) (k_fbQuiet : ∀ n, g.keys (Obj.fbQuiet n) := by assumption) (k_fbState : ∀ n, g.keys (Obj.fbState n) := by assumption) (k_flitsTx : ∀ n, g.keys (Obj.flitsTx n) := by assumption) (k_groupAnchor : g.keys Obj.groupAnchor := by assumption) (k_groupRank : g.keys Obj.groupRank := by assumption) (k_groupSize : g.keys Obj.groupSize := by assumption) (k_groupState : g.keys Obj.groupState := by assumption) (k_lastCommittedStep : g.keys Obj.lastCommittedStep := by assumption) (k_lastComparedStep : g.keys Obj.lastComparedStep := by assumption) (k_lastVerdict : g.keys Obj.lastVerdict := by assumption) (k_matchedCkpt : g.keys Obj.matchedCkpt := by assumption) (k_modeEpoch : g.keys Obj.modeEpoch := by assumption) (k_oddMembers : g.keys Obj.oddMembers := by assumption) (k_prepEpoch : g.keys Obj.prepEpoch := by assumption) (k_prepStep : g.keys Obj.prepStep := by assumption) (k_shapeDigest : g.keys Obj.shapeDigest := by assumption) (k_spikeDev : g.keys Obj.spikeDev := by assumption) (k_spikeMu : g.keys Obj.spikeMu := by assumption) (k_spikeRun : g.keys Obj.spikeRun := by assumption) (k_spikeSeen : g.keys Obj.spikeSeen := by assumption) (k_stepDigest : g.keys Obj.stepDigest := by assumption) (k_stepDigestStep : g.keys Obj.stepDigestStep := by assumption) (k_suspects : g.keys Obj.suspects := by assumption) (k_tmWaitCycles : g.keys Obj.tmWaitCycles := by assumption) :
    Within g s (State.verdict u c) := by
  unfold State.verdict
  extract_lets +onlyGivenNames -underBinder -merge n1
  extract_lets +onlyGivenNames -underBinder -merge n2
  extract_lets +onlyGivenNames -underBinder -merge n3
  extract_lets +onlyGivenNames -underBinder -merge n4
  extract_lets +onlyGivenNames -underBinder -merge _ s5
  have h6 : Within g s s5 := (Within.setColl p_coll h)
  extract_lets +onlyGivenNames -underBinder -merge s7
  have h8 : Within g s s7 := (State.wr_within (State.wr_within h6 _ _) _ _)
  clear_value n2 n4
  split
  · exact Within.ite (by
      extract_lets +onlyGivenNames -underBinder -merge s13
      have h14 : Within g s s13 := (State.wr_within h8 _ _)
      split
      · exact State.wr_within h14 _ _
      · exact h14) (Within.ite (State.rollbackVerdict_within p_prep p_bar0 p_cmd p_castMem p_tile p_spans p_upd p_coll p_tier p_store h8) (by
      extract_lets +onlyGivenNames -underBinder -merge s20
      have h21 : Within g s s20 := (State.abortStep_within p_prep p_bar0 p_cmd p_castMem p_tile p_spans p_upd p_coll p_tier p_store (State.countSat_within (State.wr_within h8 _ _)))
      exact Within.ite (State.beOdd_within p_cmd p_tile p_upd p_coll p_mem p_tier p_start h21) (Within.ite (Within.foldl (fun x22 x23 h24 => (State.sendState_within p_link p_coll p_cross h24)) h21) h21)))
  · exact State.rollbackVerdict_within p_prep p_bar0 p_cmd p_castMem p_tile p_spans p_upd p_coll p_tier p_store h8

theorem State.digestVerdict_within (p_prep : Part.prep ∈ g.parts) (p_bar0 : Part.bar0 ∈ g.parts) (p_cmd : Part.cmd ∈ g.parts) (p_castMem : Part.castMem ∈ g.parts) (p_tile : Part.tile ∈ g.parts) (p_spans : Part.spans ∈ g.parts) (p_upd : Part.upd ∈ g.parts) (p_link : Part.link ∈ g.parts) (p_coll : Part.coll ∈ g.parts) (p_mem : Part.mem ∈ g.parts) (p_tier : Part.tier ∈ g.parts) (p_store : Part.store ∈ g.parts) (p_cross : Part.cross ∈ g.parts) (p_start : Part.start ∈ g.parts) (h : Within g s u) (k_actMode : g.keys Obj.actMode := by assumption) (k_actStep : g.keys Obj.actStep := by assumption) (k_any : ∀ k, g.keys k := by assumption) (k_collBytesTx : g.keys Obj.collBytesTx := by assumption) (k_collMismatchCycles : g.keys Obj.collMismatchCycles := by assumption) (k_cumElements : g.keys Obj.cumElements := by assumption) (k_cumNonfinite : g.keys Obj.cumNonfinite := by assumption) (k_cumSaturation : g.keys Obj.cumSaturation := by assumption) (k_cumUnderflow : g.keys Obj.cumUnderflow := by assumption) (k_decState : ∀ n, g.keys (Obj.decState n) := by assumption) (k_digestRepairs : g.keys Obj.digestRepairs := by assumption) (k_fbQuiet : ∀ n, g.keys (Obj.fbQuiet n) := by assumption) (k_fbState : ∀ n, g.keys (Obj.fbState n) := by assumption) (k_flitsTx : ∀ n, g.keys (Obj.flitsTx n) := by assumption) (k_groupAnchor : g.keys Obj.groupAnchor := by assumption) (k_groupRank : g.keys Obj.groupRank := by assumption) (k_groupSize : g.keys Obj.groupSize := by assumption) (k_groupState : g.keys Obj.groupState := by assumption) (k_lastCommittedStep : g.keys Obj.lastCommittedStep := by assumption) (k_lastComparedStep : g.keys Obj.lastComparedStep := by assumption) (k_lastVerdict : g.keys Obj.lastVerdict := by assumption) (k_matchedCkpt : g.keys Obj.matchedCkpt := by assumption) (k_modeEpoch : g.keys Obj.modeEpoch := by assumption) (k_oddMembers : g.keys Obj.oddMembers := by assumption) (k_prepEpoch : g.keys Obj.prepEpoch := by assumption) (k_prepStep : g.keys Obj.prepStep := by assumption) (k_shapeDigest : g.keys Obj.shapeDigest := by assumption) (k_spikeDev : g.keys Obj.spikeDev := by assumption) (k_spikeMu : g.keys Obj.spikeMu := by assumption) (k_spikeRun : g.keys Obj.spikeRun := by assumption) (k_spikeSeen : g.keys Obj.spikeSeen := by assumption) (k_stepDigest : g.keys Obj.stepDigest := by assumption) (k_stepDigestStep : g.keys Obj.stepDigestStep := by assumption) (k_suspects : g.keys Obj.suspects := by assumption) (k_tmWaitCycles : g.keys Obj.tmWaitCycles := by assumption) :
    Within g s (State.digestVerdict u) := by
  unfold State.digestVerdict
  split
  · exact h
  · exact Within.ite h (by
      extract_lets +onlyGivenNames -underBinder -merge s6
      have h7 : Within g s s6 := (State.verdict_within p_prep p_bar0 p_cmd p_castMem p_tile p_spans p_upd p_link p_coll p_mem p_tier p_store p_cross p_start h)
      exact Within.setColl p_coll h7)

theorem execDigestVerdict_within (p_prep : Part.prep ∈ g.parts) (p_bar0 : Part.bar0 ∈ g.parts) (p_cmd : Part.cmd ∈ g.parts) (p_castMem : Part.castMem ∈ g.parts) (p_tile : Part.tile ∈ g.parts) (p_spans : Part.spans ∈ g.parts) (p_upd : Part.upd ∈ g.parts) (p_link : Part.link ∈ g.parts) (p_coll : Part.coll ∈ g.parts) (p_mem : Part.mem ∈ g.parts) (p_tier : Part.tier ∈ g.parts) (p_store : Part.store ∈ g.parts) (p_cross : Part.cross ∈ g.parts) (p_start : Part.start ∈ g.parts) (h : Within g s u) (k_actMode : g.keys Obj.actMode := by assumption) (k_actStep : g.keys Obj.actStep := by assumption) (k_any : ∀ k, g.keys k := by assumption) (k_collBytesTx : g.keys Obj.collBytesTx := by assumption) (k_collMismatchCycles : g.keys Obj.collMismatchCycles := by assumption) (k_cumElements : g.keys Obj.cumElements := by assumption) (k_cumNonfinite : g.keys Obj.cumNonfinite := by assumption) (k_cumSaturation : g.keys Obj.cumSaturation := by assumption) (k_cumUnderflow : g.keys Obj.cumUnderflow := by assumption) (k_decState : ∀ n, g.keys (Obj.decState n) := by assumption) (k_digestRepairs : g.keys Obj.digestRepairs := by assumption) (k_fbQuiet : ∀ n, g.keys (Obj.fbQuiet n) := by assumption) (k_fbState : ∀ n, g.keys (Obj.fbState n) := by assumption) (k_flitsTx : ∀ n, g.keys (Obj.flitsTx n) := by assumption) (k_groupAnchor : g.keys Obj.groupAnchor := by assumption) (k_groupRank : g.keys Obj.groupRank := by assumption) (k_groupSize : g.keys Obj.groupSize := by assumption) (k_groupState : g.keys Obj.groupState := by assumption) (k_lastCommittedStep : g.keys Obj.lastCommittedStep := by assumption) (k_lastComparedStep : g.keys Obj.lastComparedStep := by assumption) (k_lastVerdict : g.keys Obj.lastVerdict := by assumption) (k_matchedCkpt : g.keys Obj.matchedCkpt := by assumption) (k_modeEpoch : g.keys Obj.modeEpoch := by assumption) (k_oddMembers : g.keys Obj.oddMembers := by assumption) (k_prepEpoch : g.keys Obj.prepEpoch := by assumption) (k_prepStep : g.keys Obj.prepStep := by assumption) (k_shapeDigest : g.keys Obj.shapeDigest := by assumption) (k_spikeDev : g.keys Obj.spikeDev := by assumption) (k_spikeMu : g.keys Obj.spikeMu := by assumption) (k_spikeRun : g.keys Obj.spikeRun := by assumption) (k_spikeSeen : g.keys Obj.spikeSeen := by assumption) (k_stepDigest : g.keys Obj.stepDigest := by assumption) (k_stepDigestStep : g.keys Obj.stepDigestStep := by assumption) (k_suspects : g.keys Obj.suspects := by assumption) (k_tmWaitCycles : g.keys Obj.tmWaitCycles := by assumption) :
    Leads g s (execDigestVerdict u) := by
  unfold execDigestVerdict
  exact Leads.next (State.digestVerdict_within p_prep p_bar0 p_cmd p_castMem p_tile p_spans p_upd p_link p_coll p_mem p_tier p_store p_cross p_start h)

theorem execLayerCommit_within {l : Nat} (p_cmd : Part.cmd ∈ g.parts) (p_tile : Part.tile ∈ g.parts) (p_upd : Part.upd ∈ g.parts) (p_link : Part.link ∈ g.parts) (p_coll : Part.coll ∈ g.parts) (p_mem : Part.mem ∈ g.parts) (p_tier : Part.tier ∈ g.parts) (p_cross : Part.cross ∈ g.parts) (h : Within g s u) (k_collBytesTx : g.keys Obj.collBytesTx := by assumption) (k_cumElements : g.keys Obj.cumElements := by assumption) (k_cumNonfinite : g.keys Obj.cumNonfinite := by assumption) (k_cumSaturation : g.keys Obj.cumSaturation := by assumption) (k_cumUnderflow : g.keys Obj.cumUnderflow := by assumption) (k_flitsTx : ∀ n, g.keys (Obj.flitsTx n) := by assumption) (k_stepDigest : g.keys Obj.stepDigest := by assumption) (k_stepDigestStep : g.keys Obj.stepDigestStep := by assumption) (k_tmWaitCycles : g.keys Obj.tmWaitCycles := by assumption) (k_updBytes : g.keys Obj.updBytes := by assumption) (k_updTiles : g.keys Obj.updTiles := by assumption) :
    Leads g s (execLayerCommit l u) := by
  unfold execLayerCommit
  exact Leads.next (State.compareStart_within p_link p_coll p_cross (State.landHeld_within p_cmd p_coll p_mem p_tier (State.layerCommit_within p_cmd p_tile p_upd p_coll p_mem p_tier h)))

theorem execUpdatePassStart_within {l : Nat} {n : Nat} {ahead : List Nat} (p_cmd : Part.cmd ∈ g.parts) (p_tile : Part.tile ∈ g.parts) (p_upd : Part.upd ∈ g.parts) (p_link : Part.link ∈ g.parts) (p_coll : Part.coll ∈ g.parts) (p_mem : Part.mem ∈ g.parts) (p_tier : Part.tier ∈ g.parts) (p_cross : Part.cross ∈ g.parts) (h : Within g s u) (k_collBytesTx : g.keys Obj.collBytesTx := by assumption) (k_cumElements : g.keys Obj.cumElements := by assumption) (k_cumNonfinite : g.keys Obj.cumNonfinite := by assumption) (k_cumSaturation : g.keys Obj.cumSaturation := by assumption) (k_cumUnderflow : g.keys Obj.cumUnderflow := by assumption) (k_flitsTx : ∀ n, g.keys (Obj.flitsTx n) := by assumption) (k_stepDigest : g.keys Obj.stepDigest := by assumption) (k_stepDigestStep : g.keys Obj.stepDigestStep := by assumption) (k_tmWaitCycles : g.keys Obj.tmWaitCycles := by assumption) (k_updBytes : g.keys Obj.updBytes := by assumption) (k_updRecovered : g.keys Obj.updRecovered := by assumption) (k_updTiles : g.keys Obj.updTiles := by assumption) :
    Leads g s (execUpdatePassStart l n ahead u) := by
  unfold execUpdatePassStart
  exact Leads.next (State.compareStart_within p_link p_coll p_cross (State.landHeld_within p_cmd p_coll p_mem p_tier (State.passStart_within p_cmd p_tile p_upd p_coll p_mem p_tier h)))

theorem execUpdateWatchdog_within (p_cmd : Part.cmd ∈ g.parts) (p_tile : Part.tile ∈ g.parts) (p_upd : Part.upd ∈ g.parts) (p_link : Part.link ∈ g.parts) (p_coll : Part.coll ∈ g.parts) (p_mem : Part.mem ∈ g.parts) (p_tier : Part.tier ∈ g.parts) (p_cross : Part.cross ∈ g.parts) (h : Within g s u) (k_collBytesTx : g.keys Obj.collBytesTx := by assumption) (k_cumElements : g.keys Obj.cumElements := by assumption) (k_cumNonfinite : g.keys Obj.cumNonfinite := by assumption) (k_cumSaturation : g.keys Obj.cumSaturation := by assumption) (k_cumUnderflow : g.keys Obj.cumUnderflow := by assumption) (k_flitsTx : ∀ n, g.keys (Obj.flitsTx n) := by assumption) (k_stepDigest : g.keys Obj.stepDigest := by assumption) (k_stepDigestStep : g.keys Obj.stepDigestStep := by assumption) (k_tmWaitCycles : g.keys Obj.tmWaitCycles := by assumption) (k_updBytes : g.keys Obj.updBytes := by assumption) (k_updRecovered : g.keys Obj.updRecovered := by assumption) (k_updRestarts : g.keys Obj.updRestarts := by assumption) (k_updTiles : g.keys Obj.updTiles := by assumption) :
    Leads g s (execUpdateWatchdog u) := by
  unfold execUpdateWatchdog
  exact Leads.next (State.compareStart_within p_link p_coll p_cross (State.landHeld_within p_cmd p_coll p_mem p_tier (State.updateWatchdog_within p_cmd p_tile p_upd p_coll p_mem p_tier h)))

end Sys2Proof.Machine
end

