-- ==== Sys2Proof/Laws/WithinSequencer.lean ====
section
/-! SUPPORT. What each operation of Machine/Sequencer.lean may change, and that it keeps the form of the state. -/
namespace Sys2Proof.Machine
set_option Elab.async false

variable {g : Scope} {s u : State}

theorem State.refusalNote_within {kind : Nat} {status : Nat} (h : Within g s u) (k_castFaults : g.keys Obj.castFaults := by assumption) (k_collRejected : g.keys Obj.collRejected := by assumption) (k_inRejected : g.keys Obj.inRejected := by assumption) (k_mxRejected : g.keys Obj.mxRejected := by assumption) (k_syncFaults : g.keys Obj.syncFaults := by assumption) (k_tmRejected : g.keys Obj.tmRejected := by assumption) (k_updRejected : g.keys Obj.updRejected := by assumption) (k_vxRejected : g.keys Obj.vxRejected := by assumption) :
    Within g s (State.refusalNote u kind status) := by
  unfold State.refusalNote
  exact Within.ite (State.countSat_within (State.raise_within h)) (Within.ite (State.countSat_within (State.raise_within h)) (Within.ite (State.countSat_within (State.raise_within h)) (Within.ite (State.countSat_within h) (Within.ite (State.countSat_within (State.raise_within h)) (Within.ite (State.countSat_within h) (Within.ite (State.countSat_within h) (Within.ite (State.countSat_within h) h)))))))

theorem State.refuseArm_within {w : Nat} {e : QEntry} (p_tile : Part.tile ∈ g.parts) (h : Within g s u) :
    Within g s (State.refuseArm u w e) := by
  unfold State.refuseArm
  exact Within.ite (State.consumePending_within p_tile h) h

theorem State.refuseChecked_within {w : Nat} {e : QEntry} {status : Nat} {reason : Nat} (p_cmd : Part.cmd ∈ g.parts) (p_tile : Part.tile ∈ g.parts) (h : Within g s u) (k_castFaults : g.keys Obj.castFaults := by assumption) (k_collRejected : g.keys Obj.collRejected := by assumption) (k_inRejected : g.keys Obj.inRejected := by assumption) (k_mxRejected : g.keys Obj.mxRejected := by assumption) (k_syncFaults : g.keys Obj.syncFaults := by assumption) (k_tmRejected : g.keys Obj.tmRejected := by assumption) (k_updRejected : g.keys Obj.updRejected := by assumption) (k_vxRejected : g.keys Obj.vxRejected := by assumption) :
    Within g s (State.refuseChecked u w e status reason) := by
  unfold State.refuseChecked
  exact State.refuseArm_within p_tile (State.refuse_within p_cmd (State.refusalNote_within h))

theorem State.markDispatched_within {w : Nat} {e : QEntry} {skip : Bool} (p_cmd : Part.cmd ∈ g.parts) (p_tile : Part.tile ∈ g.parts) (p_cross : Part.cross ∈ g.parts) (h : Within g s u) (k_cnMessages : g.keys Obj.cnMessages := by assumption) :
    Within g s (State.markDispatched u w e skip) := by
  unfold State.markDispatched
  extract_lets +onlyGivenNames -underBinder -merge n1
  extract_lets +onlyGivenNames -underBinder -merge n2
  extract_lets +onlyGivenNames -underBinder -merge n3
  extract_lets +onlyGivenNames -underBinder -merge _ s4
  have h5 : Within g s s4 := (Within.setTile p_tile h rfl rfl)
  extract_lets +onlyGivenNames -underBinder -merge n6
  extract_lets +onlyGivenNames -underBinder -merge s7
  have h8 : Within g s s7 := (State.updWin_within p_cmd h5 _ _ (fun _ h => h))
  extract_lets +onlyGivenNames -underBinder -merge s9
  have h10 : Within g s s9 := (State.count_within (State.updEntry_within p_cmd h8))
  split
  · exact State.passArray_within p_cross h10
  · exact h10

theorem State.dispatchEffect_within {w : Nat} {e : QEntry} {skip : Bool} (p_cmd : Part.cmd ∈ g.parts) (p_tile : Part.tile ∈ g.parts) (p_spans : Part.spans ∈ g.parts) (p_coll : Part.coll ∈ g.parts) (p_store : Part.store ∈ g.parts) (h : Within g s u) (k_barCompletions : g.keys Obj.barCompletions := by assumption) (k_syncFaults : g.keys Obj.syncFaults := by assumption) :
    Within g s (State.dispatchEffect u w e skip) := by
  unfold State.dispatchEffect
  extract_lets +onlyGivenNames -underBinder -merge n1
  exact Within.ite (Within.ite (by
    extract_lets +onlyGivenNames -underBinder -merge s2
    have h3 : Within g s s2 := (Within.ite (State.sampleTiles_within p_cmd p_tile h) h)
    exact State.updEntry_within p_cmd h3) (Within.ite (State.bindArm_within p_tile h) h)) (Within.ite (State.bindArm_within p_tile h) (Within.ite (State.collDispatch_within p_spans p_coll h) (Within.ite (State.inDispatch_within p_store h) (Within.ite (Within.setColl p_coll h) h))))

theorem State.dispatch_within {w : Nat} {e : QEntry} (p_cmd : Part.cmd ∈ g.parts) (p_tile : Part.tile ∈ g.parts) (p_spans : Part.spans ∈ g.parts) (p_coll : Part.coll ∈ g.parts) (p_store : Part.store ∈ g.parts) (p_cross : Part.cross ∈ g.parts) (h : Within g s u) (k_barCompletions : g.keys Obj.barCompletions := by assumption) (k_castFaults : g.keys Obj.castFaults := by assumption) (k_cnMessages : g.keys Obj.cnMessages := by assumption) (k_collRejected : g.keys Obj.collRejected := by assumption) (k_inRejected : g.keys Obj.inRejected := by assumption) (k_mxRejected : g.keys Obj.mxRejected := by assumption) (k_promotions : g.keys Obj.promotions := by assumption) (k_syncFaults : g.keys Obj.syncFaults := by assumption) (k_tmRejected : g.keys Obj.tmRejected := by assumption) (k_updRejected : g.keys Obj.updRejected := by assumption) (k_vxRejected : g.keys Obj.vxRejected := by assumption) :
    Within g s (State.dispatch u w e) := by
  unfold State.dispatch
  extract_lets +onlyGivenNames -underBinder -merge n1
  exact Within.ite (State.refuseArm_within p_tile (State.refuse_within p_cmd h)) (by
    split
    · extract_lets +onlyGivenNames -underBinder -merge n6
      split
      · exact Within.ite (State.refuseChecked_within p_cmd p_tile h) (by
          extract_lets +onlyGivenNames -underBinder -merge n11
          extract_lets +onlyGivenNames -underBinder -merge s12
          have h13 : Within g s s12 := (State.dispatchEffect_within p_cmd p_tile p_spans p_coll p_store (State.markDispatched_within p_cmd p_tile p_cross h))
          exact Within.ite (State.count_within h13) h13))

theorem State.recordDispatch_within (p_cmd : Part.cmd ∈ g.parts) (p_tile : Part.tile ∈ g.parts) (p_spans : Part.spans ∈ g.parts) (p_coll : Part.coll ∈ g.parts) (p_store : Part.store ∈ g.parts) (p_cross : Part.cross ∈ g.parts) (h : Within g s u) (k_barCompletions : g.keys Obj.barCompletions := by assumption) (k_castFaults : g.keys Obj.castFaults := by assumption) (k_cnMessages : g.keys Obj.cnMessages := by assumption) (k_collRejected : g.keys Obj.collRejected := by assumption) (k_inRejected : g.keys Obj.inRejected := by assumption) (k_mxRejected : g.keys Obj.mxRejected := by assumption) (k_promotions : g.keys Obj.promotions := by assumption) (k_syncFaults : g.keys Obj.syncFaults := by assumption) (k_tmRejected : g.keys Obj.tmRejected := by assumption) (k_updRejected : g.keys Obj.updRejected := by assumption) (k_vxRejected : g.keys Obj.vxRejected := by assumption) :
    Within g s (State.recordDispatch u) := by
  unfold State.recordDispatch
  exact Within.ite h (by
    split
    · exact State.dispatch_within p_cmd p_tile p_spans p_coll p_store p_cross h
    · exact h)

theorem execRecordDispatch_within (p_cmd : Part.cmd ∈ g.parts) (p_tile : Part.tile ∈ g.parts) (p_spans : Part.spans ∈ g.parts) (p_coll : Part.coll ∈ g.parts) (p_store : Part.store ∈ g.parts) (p_cross : Part.cross ∈ g.parts) (h : Within g s u) (k_barCompletions : g.keys Obj.barCompletions := by assumption) (k_castFaults : g.keys Obj.castFaults := by assumption) (k_cnMessages : g.keys Obj.cnMessages := by assumption) (k_collRejected : g.keys Obj.collRejected := by assumption) (k_inRejected : g.keys Obj.inRejected := by assumption) (k_mxRejected : g.keys Obj.mxRejected := by assumption) (k_promotions : g.keys Obj.promotions := by assumption) (k_syncFaults : g.keys Obj.syncFaults := by assumption) (k_tmRejected : g.keys Obj.tmRejected := by assumption) (k_updRejected : g.keys Obj.updRejected := by assumption) (k_vxRejected : g.keys Obj.vxRejected := by assumption) :
    Leads g s (execRecordDispatch u) := by
  unfold execRecordDispatch
  exact Leads.next (State.recordDispatch_within p_cmd p_tile p_spans p_coll p_store p_cross h)

theorem State.noteHeld_within (p_upd : Part.upd ∈ g.parts) (h : Within g s u) :
    Within g s (State.noteHeld u) := by
  unfold State.noteHeld
  extract_lets +onlyGivenNames -underBinder -merge n1
  exact Within.setUpd p_upd h

theorem State.retireEffect_within {w : Nat} {e : QEntry} (p_tile : Part.tile ∈ g.parts) (p_spans : Part.spans ∈ g.parts) (p_coll : Part.coll ∈ g.parts) (p_tier : Part.tier ∈ g.parts) (p_store : Part.store ∈ g.parts) (h : Within g s u) (k_lastPosition : g.keys Obj.lastPosition := by assumption) (k_lastSample : g.keys Obj.lastSample := by assumption) :
    Within g s (State.retireEffect u w e) := by
  unfold State.retireEffect
  extract_lets +onlyGivenNames -underBinder -merge n1
  split
  · exact State.consumeArm_within p_tile h
  · exact Within.setTier p_tier h rfl id
  · exact Within.ite h (State.collRetire_within p_spans p_coll h)
  · extract_lets +onlyGivenNames -underBinder -merge _ s10
    have h11 : Within g s s10 := (Within.setStore p_store h rfl)
    split
    · extract_lets +onlyGivenNames -underBinder -merge s15
      have h16 : Within g s s15 := (State.wr_within (State.wr_within h11 _ _) _ _)
      exact Within.setStore p_store h16 rfl
    · exact h11
  · exact Within.setColl p_coll h
  · exact h

theorem State.recordRetire_within {w : Nat} {q : Nat} (p_cmd : Part.cmd ∈ g.parts) (p_tile : Part.tile ∈ g.parts) (p_spans : Part.spans ∈ g.parts) (p_upd : Part.upd ∈ g.parts) (p_coll : Part.coll ∈ g.parts) (p_tier : Part.tier ∈ g.parts) (p_store : Part.store ∈ g.parts) (h : Within g s u) (k_lastPosition : g.keys Obj.lastPosition := by assumption) (k_lastSample : g.keys Obj.lastSample := by assumption) :
    Within g s (State.recordRetire u w q) := by
  unfold State.recordRetire
  split
  · exact h
  · exact Within.ite h (State.noteHeld_within p_upd (State.retire_within p_cmd (State.retireEffect_within p_tile p_spans p_coll p_tier p_store h)))

theorem State.report_within {w : Nat} {e : QEntry} {delivered : Bool} (p_cmd : Part.cmd ∈ g.parts) (p_tier : Part.tier ∈ g.parts) (h : Within g s u) (k_tmWaitCycles : g.keys Obj.tmWaitCycles := by assumption) :
    Within g s (State.report u w e delivered) := by
  unfold State.report
  extract_lets +onlyGivenNames -underBinder -merge n1
  split
  · next _ _ _ y5 =>
    exact Within.ite (Within.pair (Within.iteFst (State.access_within p_tier h) (Within.fst h)) y5) (by
      extract_lets +onlyGivenNames -underBinder -merge n6
      extract_lets +onlyGivenNames -underBinder -merge n7
      extract_lets +onlyGivenNames -underBinder -merge s8
      have h9 : Within g s s8 := (by
        unfold s8
        split
        · exact Within.ite (State.emit_within (Within.pair (Within.iteFst (State.access_within p_tier h) (Within.fst h)) y5)) (Within.pair (Within.iteFst (State.access_within p_tier h) (Within.fst h)) y5)
        · exact Within.pair (Within.iteFst (State.access_within p_tier h) (Within.fst h)) y5)
      extract_lets +onlyGivenNames -underBinder -merge s15
      have h16 : Within g s s15 := (Within.ite (State.hitStatus_within p_cmd h9) h9)
      exact State.updEntry_within p_cmd h16)

theorem onKind_within {w : Fin 8} {q : Nat} {kind : Nat} {f : QEntry → State} (hf4 : ∀ v0, Within g s (f v0)) (h : Within g s u) :
    Leads g s (onKind w q kind u f) := by
  unfold onKind
  split
  · exact Leads.ite (Leads.next (hf4 _)) (Leads.next h)
  · exact Leads.next h

theorem execReport_within {w : Fin 8} {q : Nat} {delivered : Bool} (p_cmd : Part.cmd ∈ g.parts) (p_tier : Part.tier ∈ g.parts) (h : Within g s u) (k_tmWaitCycles : g.keys Obj.tmWaitCycles := by assumption) :
    Leads g s (execReport w q delivered u) := by
  unfold execReport
  exact onKind_within (fun x1 => (State.report_within p_cmd p_tier h)) h

theorem execStep_within {w : Fin 8} {q : Nat} (p_prep : Part.prep ∈ g.parts) (p_bar0 : Part.bar0 ∈ g.parts) (p_cmd : Part.cmd ∈ g.parts) (p_scratch : Part.scratch ∈ g.parts) (p_castMem : Part.castMem ∈ g.parts) (p_tile : Part.tile ∈ g.parts) (p_spans : Part.spans ∈ g.parts) (p_touches : Part.touches ∈ g.parts) (p_upd : Part.upd ∈ g.parts) (p_link : Part.link ∈ g.parts) (p_coll : Part.coll ∈ g.parts) (p_mem : Part.mem ∈ g.parts) (p_tier : Part.tier ∈ g.parts) (p_store : Part.store ∈ g.parts) (p_cross : Part.cross ∈ g.parts) (h : Within g s u) (k_actMode : g.keys Obj.actMode := by assumption) (k_actStep : g.keys Obj.actStep := by assumption) (k_collBytesTx : g.keys Obj.collBytesTx := by assumption) (k_collDuplicates : g.keys Obj.collDuplicates := by assumption) (k_collMismatchCycles : g.keys Obj.collMismatchCycles := by assumption) (k_cumElements : g.keys Obj.cumElements := by assumption) (k_cumNonfinite : g.keys Obj.cumNonfinite := by assumption) (k_cumSaturation : g.keys Obj.cumSaturation := by assumption) (k_cumUnderflow : g.keys Obj.cumUnderflow := by assumption) (k_decState : ∀ n, g.keys (Obj.decState n) := by assumption) (k_flitsTx : ∀ n, g.keys (Obj.flitsTx n) := by assumption) (k_groupState : g.keys Obj.groupState := by assumption) (k_prepEpoch : g.keys Obj.prepEpoch := by assumption) (k_prepStep : g.keys Obj.prepStep := by assumption) (k_tmWaitCycles : g.keys Obj.tmWaitCycles := by assumption) :
    Leads g s (execStep w q u) := by
  unfold execStep
  exact onKind_within (fun x1 => (by
    split
    · next _ _ y4 =>
      exact Within.pair (State.writable_within p_tier h) y4
    · next _ _ y7 =>
      exact State.unitDone_within p_cmd (State.openInbox_within p_prep p_bar0 p_cmd p_scratch p_castMem p_tile p_spans p_touches p_upd p_link p_coll p_mem p_tier p_store p_cross (State.rebuildLost_within p_tile p_upd p_mem p_tier (Within.pair (State.writable_within p_tier h) y7))))) h

theorem State.audit_within {w : Nat} {e : QEntry} (p_prep : Part.prep ∈ g.parts) (p_bar0 : Part.bar0 ∈ g.parts) (p_cmd : Part.cmd ∈ g.parts) (p_castMem : Part.castMem ∈ g.parts) (p_tile : Part.tile ∈ g.parts) (p_spans : Part.spans ∈ g.parts) (p_upd : Part.upd ∈ g.parts) (p_coll : Part.coll ∈ g.parts) (p_tier : Part.tier ∈ g.parts) (p_store : Part.store ∈ g.parts) (h : Within g s u) (k_actMode : g.keys Obj.actMode := by assumption) (k_actStep : g.keys Obj.actStep := by assumption) (k_collMismatchCycles : g.keys Obj.collMismatchCycles := by assumption) (k_decState : ∀ n, g.keys (Obj.decState n) := by assumption) (k_groupState : g.keys Obj.groupState := by assumption) (k_prepEpoch : g.keys Obj.prepEpoch := by assumption) (k_prepStep : g.keys Obj.prepStep := by assumption) (k_tmWaitCycles : g.keys Obj.tmWaitCycles := by assumption) :
    Within g s (State.audit u w e) := by
  unfold State.audit
  exact Within.ite (State.unitDone_within p_cmd h) (State.abortStep_within p_prep p_bar0 p_cmd p_castMem p_tile p_spans p_upd p_coll p_tier p_store (State.haltWin_within p_cmd (State.raise_within (State.retire_within p_cmd h))))

theorem execAudit_within {w : Fin 8} {q : Nat} (p_prep : Part.prep ∈ g.parts) (p_bar0 : Part.bar0 ∈ g.parts) (p_cmd : Part.cmd ∈ g.parts) (p_castMem : Part.castMem ∈ g.parts) (p_tile : Part.tile ∈ g.parts) (p_spans : Part.spans ∈ g.parts) (p_upd : Part.upd ∈ g.parts) (p_coll : Part.coll ∈ g.parts) (p_tier : Part.tier ∈ g.parts) (p_store : Part.store ∈ g.parts) (h : Within g s u) (k_actMode : g.keys Obj.actMode := by assumption) (k_actStep : g.keys Obj.actStep := by assumption) (k_collMismatchCycles : g.keys Obj.collMismatchCycles := by assumption) (k_decState : ∀ n, g.keys (Obj.decState n) := by assumption) (k_groupState : g.keys Obj.groupState := by assumption) (k_prepEpoch : g.keys Obj.prepEpoch := by assumption) (k_prepStep : g.keys Obj.prepStep := by assumption) (k_tmWaitCycles : g.keys Obj.tmWaitCycles := by assumption) :
    Leads g s (execAudit w q u) := by
  unfold execAudit
  exact onKind_within (fun x1 => (State.audit_within p_prep p_bar0 p_cmd p_castMem p_tile p_spans p_upd p_coll p_tier p_store h)) h

theorem execRecordRetire_within {w : Fin 8} {q : Nat} (p_cmd : Part.cmd ∈ g.parts) (p_tile : Part.tile ∈ g.parts) (p_spans : Part.spans ∈ g.parts) (p_upd : Part.upd ∈ g.parts) (p_coll : Part.coll ∈ g.parts) (p_tier : Part.tier ∈ g.parts) (p_store : Part.store ∈ g.parts) (h : Within g s u) (k_lastPosition : g.keys Obj.lastPosition := by assumption) (k_lastSample : g.keys Obj.lastSample := by assumption) :
    Leads g s (execRecordRetire w q u) := by
  unfold execRecordRetire
  exact Leads.next (State.recordRetire_within p_cmd p_tile p_spans p_upd p_coll p_tier p_store h)

end Sys2Proof.Machine
end

