-- ==== Sys2Proof/Laws/WithinSettings.lean ====
section
/-! SUPPORT. What each operation of Machine/Settings.lean may change, and that it keeps the form of the state. -/
namespace Sys2Proof.Machine
set_option Elab.async false

variable {g : Scope} {s u : State}

theorem State.stage_within {k : Nat} {v : Nat} (p_staged : Part.staged ∈ g.parts) (h : Within g s u) :
    Within g s (State.stage u k v) := by
  unfold State.stage
  exact Within.setStaged p_staged h

theorem State.put_within {k : Nat} {v : Nat} (p_staged : Part.staged ∈ g.parts) (h : Within g s u) (k_any : ∀ k, g.keys k := by assumption) :
    Within g s (State.put u k v) := by
  unfold State.put
  extract_lets +onlyGivenNames -underBinder -merge s1
  have h2 : Within g s s1 := (State.wr_within h _ _)
  exact Within.setStaged p_staged h2

theorem State.putAll_within {ks : List Nat} {v : Nat → Nat} (p_staged : Part.staged ∈ g.parts) (p_store : Part.store ∈ g.parts) (h : Within g s u) (k_any : ∀ k, g.keys k := by assumption) (k_szState : ∀ n, g.keys (Obj.szState n) := by assumption) :
    Within g s (State.putAll u ks v) := by
  unfold State.putAll
  extract_lets +onlyGivenNames -underBinder -merge s1
  have h2 : Within g s s1 := h
  extract_lets +onlyGivenNames -underBinder -merge s3
  have h4 : Within g s s3 := (Within.foldl (fun x5 x6 h7 => (Within.ite h7 (State.put_within p_staged h7))) h)
  exact Within.foldl (fun x8 x9 h10 => (by
    extract_lets +onlyGivenNames -underBinder -merge n11
    exact Within.ite h10 (State.sizeZone_within p_store h10))) h4

theorem State.allDefaults_within (p_staged : Part.staged ∈ g.parts) (p_store : Part.store ∈ g.parts) (h : Within g s u) (k_any : ∀ k, g.keys k := by assumption) (k_szState : ∀ n, g.keys (Obj.szState n) := by assumption) :
    Within g s (State.allDefaults u) := by
  unfold State.allDefaults
  exact State.putAll_within p_staged p_store h

theorem State.noteReset_within {ks : List Nat} (h : Within g s u) (k_settingsResetCount : g.keys Obj.settingsResetCount := by assumption) :
    Within g s (State.noteReset u ks) := by
  unfold State.noteReset
  exact Within.ite h (by
    extract_lets +onlyGivenNames -underBinder -merge s1
    have h2 : Within g s s1 := (State.raise_within (State.wr_within h _ _))
    exact Within.setDict h2 rfl id)

theorem State.loadSettings_within (p_staged : Part.staged ∈ g.parts) (p_store : Part.store ∈ g.parts) (h : Within g s u) (k_any : ∀ k, g.keys k := by assumption) (k_settingsResetCount : g.keys Obj.settingsResetCount := by assumption) (k_settingsState : g.keys Obj.settingsState := by assumption) (k_szState : ∀ n, g.keys (Obj.szState n) := by assumption) :
    Within g s (State.loadSettings u) := by
  unfold State.loadSettings
  split
  · exact State.wr_within (State.allDefaults_within p_staged p_store h) _ _
  · exact Within.ite (State.raise_within (State.wr_within (State.allDefaults_within p_staged p_store h) _ _)) (by
      extract_lets +onlyGivenNames -underBinder -merge n6
      extract_lets +onlyGivenNames -underBinder -merge s7
      have h8 : Within g s s7 := (State.putAll_within p_staged p_store h)
      exact State.noteReset_within (State.wr_within h8 _ _))

theorem State.migrate_within {was : Nat} (p_staged : Part.staged ∈ g.parts) (p_store : Part.store ∈ g.parts) (h : Within g s u) (k_any : ∀ k, g.keys k := by assumption) (k_settingsResetCount : g.keys Obj.settingsResetCount := by assumption) (k_szState : ∀ n, g.keys (Obj.szState n) := by assumption) :
    Within g s (State.migrate u was) := by
  unfold State.migrate
  exact Within.ite h (by
    extract_lets +onlyGivenNames -underBinder -merge n1
    exact State.noteReset_within (State.putAll_within p_staged p_store h))

theorem State.saveStart_within (h : Within g s u) (k_settingsState : g.keys Obj.settingsState := by assumption) :
    Within g s (State.saveStart u) := by
  unfold State.saveStart
  extract_lets +onlyGivenNames -underBinder -merge n1
  extract_lets +onlyGivenNames -underBinder -merge _ s2
  have h3 : Within g s s2 := (Within.setDict h rfl id)
  exact State.wr_within h3 _ _

theorem execSettingsSave_within {src : Src} {arg : Nat} (h : Within g s u) (k_dictRejected : g.keys Obj.dictRejected := by assumption) (k_settingsState : g.keys Obj.settingsState := by assumption) :
    Leads g s (execSettingsSave src arg u) := by
  unfold execSettingsSave
  exact Leads.next (State.act_within (fun x1 h2 => (State.saveStart_within h2)) h)

theorem State.saveDone_within {good : Bool} (h : Within g s u) (k_settingsState : g.keys Obj.settingsState := by assumption) :
    Within g s (State.saveDone u good) := by
  unfold State.saveDone
  split
  · exact h
  · exact Within.ite (by
      extract_lets +onlyGivenNames -underBinder -merge _ s6
      have h7 : Within g s s6 := (Within.setDict h rfl id)
      exact State.wr_within h7 _ _) (Within.ite (Within.setDict h rfl id) (by
      extract_lets +onlyGivenNames -underBinder -merge _ s8
      have h9 : Within g s s8 := (Within.setDict h rfl id)
      exact State.raise_within (State.wr_within h9 _ _)))

theorem execSettingsSaveDone_within {good : Bool} (h : Within g s u) (k_settingsState : g.keys Obj.settingsState := by assumption) :
    Leads g s (execSettingsSaveDone good u) := by
  unfold execSettingsSaveDone
  exact Leads.next (State.saveDone_within h)

theorem State.planWrite_within {k : Nat} {v : Nat} (p_link : Part.link ∈ g.parts) (p_coll : Part.coll ∈ g.parts) (p_cross : Part.cross ∈ g.parts) (p_start : Part.start ∈ g.parts) (h : Within g s u) (k_any : ∀ k, g.keys k := by assumption) (k_flitsTx : ∀ n, g.keys (Obj.flitsTx n) := by assumption) (k_idResult : ∀ n, g.keys (Obj.idResult n) := by assumption) (k_logicalPlane : ∀ n, g.keys (Obj.logicalPlane n) := by assumption) (k_planePort : ∀ n, g.keys (Obj.planePort n) := by assumption) (k_portState : ∀ n, g.keys (Obj.portState n) := by assumption) (k_remapCount : g.keys Obj.remapCount := by assumption) :
    Within g s (State.planWrite u k v) := by
  unfold State.planWrite
  extract_lets +onlyGivenNames -underBinder -merge s1
  have h2 : Within g s s1 := (State.wr_within h _ _)
  exact State.classify_within p_link p_coll p_cross p_start (Within.foldl (fun x3 x4 h5 => (by
    extract_lets +onlyGivenNames -underBinder -merge n6
    exact State.updPort_within p_link h5)) h2)

theorem State.defaultOf_within {k : Nat} (p_staged : Part.staged ∈ g.parts) (p_link : Part.link ∈ g.parts) (p_coll : Part.coll ∈ g.parts) (p_store : Part.store ∈ g.parts) (p_cross : Part.cross ∈ g.parts) (p_start : Part.start ∈ g.parts) (h : Within g s u) (k_any : ∀ k, g.keys k := by assumption) (k_flitsTx : ∀ n, g.keys (Obj.flitsTx n) := by assumption) (k_idResult : ∀ n, g.keys (Obj.idResult n) := by assumption) (k_logicalPlane : ∀ n, g.keys (Obj.logicalPlane n) := by assumption) (k_planePort : ∀ n, g.keys (Obj.planePort n) := by assumption) (k_portState : ∀ n, g.keys (Obj.portState n) := by assumption) (k_remapCount : g.keys Obj.remapCount := by assumption) (k_szState : ∀ n, g.keys (Obj.szState n) := by assumption) :
    Within g s (State.defaultOf u k) := by
  unfold State.defaultOf
  exact Within.ite (State.stage_within p_staged h) (Within.ite (State.planWrite_within p_link p_coll p_cross p_start h) (Within.ite (Within.ite h (State.sizeZone_within p_store (State.wr_within h _ _))) (State.wr_within h _ _)))

theorem State.defaults_within (p_staged : Part.staged ∈ g.parts) (p_link : Part.link ∈ g.parts) (p_coll : Part.coll ∈ g.parts) (p_store : Part.store ∈ g.parts) (p_cross : Part.cross ∈ g.parts) (p_start : Part.start ∈ g.parts) (h : Within g s u) (k_any : ∀ k, g.keys k := by assumption) (k_flitsTx : ∀ n, g.keys (Obj.flitsTx n) := by assumption) (k_idResult : ∀ n, g.keys (Obj.idResult n) := by assumption) (k_logicalPlane : ∀ n, g.keys (Obj.logicalPlane n) := by assumption) (k_planePort : ∀ n, g.keys (Obj.planePort n) := by assumption) (k_portState : ∀ n, g.keys (Obj.portState n) := by assumption) (k_remapCount : g.keys Obj.remapCount := by assumption) (k_settingsState : g.keys Obj.settingsState := by assumption) (k_szState : ∀ n, g.keys (Obj.szState n) := by assumption) :
    Within g s (State.defaults u) := by
  unfold State.defaults
  extract_lets s1
  have h1 : Within g s s1 := Within.foldl (fun _ _ hv => State.defaultOf_within p_staged p_link p_coll p_store p_cross p_start hv) h
  clear_value s1
  split
  · exact Within.setDict h1 rfl id
  · exact State.wr_within h1 _ _

theorem execSettingsDefaults_within {src : Src} {arg : Nat} (p_staged : Part.staged ∈ g.parts) (p_link : Part.link ∈ g.parts) (p_coll : Part.coll ∈ g.parts) (p_store : Part.store ∈ g.parts) (p_cross : Part.cross ∈ g.parts) (p_start : Part.start ∈ g.parts) (h : Within g s u) (k_any : ∀ k, g.keys k := by assumption) (k_dictRejected : g.keys Obj.dictRejected := by assumption) (k_flitsTx : ∀ n, g.keys (Obj.flitsTx n) := by assumption) (k_idResult : ∀ n, g.keys (Obj.idResult n) := by assumption) (k_logicalPlane : ∀ n, g.keys (Obj.logicalPlane n) := by assumption) (k_planePort : ∀ n, g.keys (Obj.planePort n) := by assumption) (k_portState : ∀ n, g.keys (Obj.portState n) := by assumption) (k_remapCount : g.keys Obj.remapCount := by assumption) (k_settingsState : g.keys Obj.settingsState := by assumption) (k_szState : ∀ n, g.keys (Obj.szState n) := by assumption) :
    Leads g s (execSettingsDefaults src arg u) := by
  unfold execSettingsDefaults
  exact Leads.next (State.act_within (fun x1 h2 => (State.defaults_within p_staged p_link p_coll p_store p_cross p_start h2)) h)

theorem State.loseUnits_within {l : Loss} (p_prep : Part.prep ∈ g.parts) (p_bar0 : Part.bar0 ∈ g.parts) (p_cmd : Part.cmd ∈ g.parts) (p_scratch : Part.scratch ∈ g.parts) (p_castMem : Part.castMem ∈ g.parts) (p_tile : Part.tile ∈ g.parts) (p_spans : Part.spans ∈ g.parts) (p_touches : Part.touches ∈ g.parts) (p_upd : Part.upd ∈ g.parts) (p_link : Part.link ∈ g.parts) (p_coll : Part.coll ∈ g.parts) (p_mem : Part.mem ∈ g.parts) (p_tier : Part.tier ∈ g.parts) (p_store : Part.store ∈ g.parts) (p_cross : Part.cross ∈ g.parts) (h : Within g s u) :
    Within g s (State.loseUnits u l) := by
  unfold State.loseUnits
  exact Within.many h rfl (fun p => by cases p <;> first | exact .inr rfl | exact .inl ‹_›)
    (fun f => ⟨f.1, Tab.nil_wf _, Tab.nil_wf _, Tab.nil_wf _, Tab.nil_wf _, Tab.nil_wf _, f.7, f.8, f.9, f.10, by
      refine ⟨?_, fun e he => ?_⟩
      · show Tab.wf _ (if _ then _ else _)
        split
        · exact Tab.nil_wf _
        · exact Tab.map_wf _ f.11.1
      · change e ∈ (if _ then _ else _) at he
        split at he
        · cases he
        · obtain ⟨x, _, rfl⟩ := List.mem_map.1 (List.mem_of_mem_filter he)
          exact Nat.zero_le _, ⟨Tab.nil_wf _, fun _ he => by cases he⟩⟩)

theorem State.dropUntaken_within (h : Within g s u) (k_ckptDigest : ∀ n, g.keys (Obj.ckptDigest n) := by assumption) (k_ckptHandle : ∀ n, g.keys (Obj.ckptHandle n) := by assumption) (k_ckptState : ∀ n, g.keys (Obj.ckptState n) := by assumption) (k_ckptStep : ∀ n, g.keys (Obj.ckptStep n) := by assumption) :
    Within g s (State.dropUntaken u) := by
  unfold State.dropUntaken
  exact Within.foldl (fun x1 x2 h3 => (by
    extract_lets +onlyGivenNames -underBinder -merge n4
    exact Within.ite h3 (State.wr_within (State.wr_within (State.wr_within (State.wr_within h3 _ _) _ _) _ _) _ _))) h

theorem State.loseFirmware_within {l : Loss} (p_fw : Part.fw ∈ g.parts) (h : Within g s u) (k_slotState : ∀ n, g.keys (Obj.slotState n) := by assumption) :
    Within g s (State.loseFirmware u l) := by
  unfold State.loseFirmware
  extract_lets +onlyGivenNames -underBinder -merge s1
  have h2 : Within g s s1 := (Within.foldl (fun x3 x4 h5 => (Within.ite (State.wr_within h5 _ _) h5)) h)
  exact Within.setFw p_fw h2 rfl

theorem State.loseDict_within {l : Loss} (p_mirror : Part.mirror ∈ g.parts) (h : Within g s u) :
    Within g s (State.loseDict u l) := by
  unfold State.loseDict
  split
  · exact Within.setMirror p_mirror h (fun _ => Tab.nil_wf _) (fun _ => Nat.zero_le _)
  · exact Within.setDict h rfl id
  · exact Within.setDict h rfl id

theorem State.loseStart_within {l : Loss} (p_start : Part.start ∈ g.parts) (h : Within g s u) :
    Within g s (State.loseStart u l) := by
  unfold State.loseStart
  exact Within.setStart p_start h

theorem State.lose_within {l : Loss} (p_staged : Part.staged ∈ g.parts) (p_prep : Part.prep ∈ g.parts) (p_bar0 : Part.bar0 ∈ g.parts) (p_cmd : Part.cmd ∈ g.parts) (p_scratch : Part.scratch ∈ g.parts) (p_castMem : Part.castMem ∈ g.parts) (p_tile : Part.tile ∈ g.parts) (p_spans : Part.spans ∈ g.parts) (p_touches : Part.touches ∈ g.parts) (p_upd : Part.upd ∈ g.parts) (p_link : Part.link ∈ g.parts) (p_coll : Part.coll ∈ g.parts) (p_mem : Part.mem ∈ g.parts) (p_tier : Part.tier ∈ g.parts) (p_store : Part.store ∈ g.parts) (p_power : Part.power ∈ g.parts) (p_clock : Part.clock ∈ g.parts) (p_cross : Part.cross ∈ g.parts) (p_fw : Part.fw ∈ g.parts) (p_start : Part.start ∈ g.parts) (p_mirror : Part.mirror ∈ g.parts) (h : Within g s u) (k_any : ∀ k, g.keys k := by assumption) (k_ckptDigest : ∀ n, g.keys (Obj.ckptDigest n) := by assumption) (k_ckptHandle : ∀ n, g.keys (Obj.ckptHandle n) := by assumption) (k_ckptState : ∀ n, g.keys (Obj.ckptState n) := by assumption) (k_ckptStep : ∀ n, g.keys (Obj.ckptStep n) := by assumption) (k_slotState : ∀ n, g.keys (Obj.slotState n) := by assumption) :
    Within g s (State.lose u l) := by
  unfold State.lose
  extract_lets s1 _ _ s2 s3
  have h1 : Within g s s1 := State.dropUntaken_within (State.loseUnits_within p_prep p_bar0 p_cmd p_scratch p_castMem p_tile p_spans p_touches p_upd p_link p_coll p_mem p_tier p_store p_cross h)
  clear_value s1
  have h2 : Within g s s2 := Within.many h1 rfl (fun p => by cases p <;> first | exact .inr rfl | exact .inl ‹_›)
    (fun f => ⟨f.1, f.2, f.3, f.4, f.5, f.6, f.7, f.8, f.9, f.10, f.11, f.12⟩)
  clear_value s2
  have h3 : Within g s s3 := State.loseStart_within p_start (State.loseDict_within p_mirror (State.loseFirmware_within p_fw h2))
  clear_value s3
  exact Within.setObj (fun f => ⟨f.1.sublist List.filter_sublist, fun e he => f.2 e (List.mem_of_mem_filter he)⟩)
    (fun k => .inl (k_any k)) h3

end Sys2Proof.Machine
end

