-- ==== Sys2Proof/Laws/WithinFirmware.lean ====
section
/-! SUPPORT. What each operation of Machine/Firmware.lean may change, and that it keeps the form of the state. -/
namespace Sys2Proof.Machine
set_option Elab.async false

variable {g : Scope} {s u : State}

theorem State.slotInfo_within {n : Nat} {holds : Bool} (h : Within g s u) (k_slotDictVersion : ∀ n, g.keys (Obj.slotDictVersion n) := by assumption) (k_slotFwVersion : ∀ n, g.keys (Obj.slotFwVersion n) := by assumption) (k_slotManifestHash : ∀ n, g.keys (Obj.slotManifestHash n) := by assumption) (k_slotSvn : ∀ n, g.keys (Obj.slotSvn n) := by assumption) :
    Within g s (State.slotInfo u n holds) := by
  unfold State.slotInfo
  exact Within.ite (State.wr_within (State.wr_within (State.wr_within (State.wr_within h _ _) _ _) _ _) _ _) (State.wr_within (State.wr_within (State.wr_within (State.wr_within h _ _) _ _) _ _) _ _)

theorem State.stageSlot_within {n : Nat} (h : Within g s u) (k_slotDictVersion : ∀ n, g.keys (Obj.slotDictVersion n) := by assumption) (k_slotFwVersion : ∀ n, g.keys (Obj.slotFwVersion n) := by assumption) (k_slotManifestHash : ∀ n, g.keys (Obj.slotManifestHash n) := by assumption) (k_slotRejectReason : ∀ n, g.keys (Obj.slotRejectReason n) := by assumption) (k_slotState : ∀ n, g.keys (Obj.slotState n) := by assumption) (k_slotSvn : ∀ n, g.keys (Obj.slotSvn n) := by assumption) :
    Within g s (State.stageSlot u n) := by
  unfold State.stageSlot
  extract_lets +onlyGivenNames -underBinder -merge n1
  exact Within.ite (State.raise_within (State.slotInfo_within (State.wr_within (State.wr_within h _ _) _ _))) (State.raise_within (State.slotInfo_within (State.wr_within (State.wr_within h _ _) _ _)))

theorem State.reply_within {p1 : HostPort} {protocol : Nat} {code : Nat} {body : Bytes} (h : Within g s u) :
    Within g s (State.reply u p1 protocol code body) := by
  unfold State.reply
  exact State.emit_within h

theorem onPort_within {p0 : HostPort} {f : State → State} (hf2 : ∀ v0, Within g s v0 → Within g s (f v0)) (h : Within g s u) :
    Leads g s (onPort p0 u f) := by
  unfold onPort
  exact Leads.ite (Leads.next (hf2 _ h)) (Leads.next h)

theorem State.setLoad_within {l : Option Loading} (p_fw : Part.fw ∈ g.parts) (h : Within g s u) :
    Within g s (State.setLoad u l) := by
  unfold State.setLoad
  exact Within.setFw p_fw h rfl

theorem State.inUpdate_within {p1 : HostPort} {phase : Nat} {f : Loading → State} (hf3 : ∀ v0, Within g s (f v0)) (h : Within g s u) :
    Within g s (State.inUpdate u p1 phase f) := by
  unfold State.inUpdate
  split
  · exact State.reply_within h
  · exact Within.ite (State.reply_within h) (Within.ite (State.reply_within h) (hf3 _))

theorem execPldmQueryDeviceIdentifiers_within {p0 : HostPort} (h : Within g s u) :
    Leads g s (execPldmQueryDeviceIdentifiers p0 u) := by
  unfold execPldmQueryDeviceIdentifiers
  exact onPort_within (fun x1 h2 => (State.reply_within h2)) h

theorem execPldmGetFirmwareParameters_within {p0 : HostPort} (h : Within g s u) :
    Leads g s (execPldmGetFirmwareParameters p0 u) := by
  unfold execPldmGetFirmwareParameters
  exact onPort_within (fun x1 h2 => (State.reply_within h2)) h

theorem execPldmRequestUpdate_within {p0 : HostPort} (p_fw : Part.fw ∈ g.parts) (h : Within g s u) :
    Leads g s (execPldmRequestUpdate p0 u) := by
  unfold execPldmRequestUpdate
  exact onPort_within (fun x1 h2 => (Within.ite (State.reply_within h2) (Within.ite (State.reply_within h2) (State.reply_within (State.setLoad_within p_fw h2))))) h

theorem execPldmPassComponentTable_within {p0 : HostPort} (p_fw : Part.fw ∈ g.parts) (h : Within g s u) :
    Leads g s (execPldmPassComponentTable p0 u) := by
  unfold execPldmPassComponentTable
  exact onPort_within (fun x1 h2 => (State.inUpdate_within (fun x3 => (State.reply_within (State.setLoad_within p_fw h2))) h2)) h

theorem State.beginTransfer_within {n : Nat} (p_slots : Part.slots ∈ g.parts) (p_fw : Part.fw ∈ g.parts) (h : Within g s u) (k_slotDictVersion : ∀ n, g.keys (Obj.slotDictVersion n) := by assumption) (k_slotFwVersion : ∀ n, g.keys (Obj.slotFwVersion n) := by assumption) (k_slotManifestHash : ∀ n, g.keys (Obj.slotManifestHash n) := by assumption) (k_slotRejectReason : ∀ n, g.keys (Obj.slotRejectReason n) := by assumption) (k_slotState : ∀ n, g.keys (Obj.slotState n) := by assumption) (k_slotSvn : ∀ n, g.keys (Obj.slotSvn n) := by assumption) :
    Within g s (State.beginTransfer u n) := by
  unfold State.beginTransfer
  extract_lets s1
  have h1 : Within g s s1 := State.slotInfo_within (State.wr_within (State.wr_within h _ _) _ _)
  exact Within.many h1 rfl (fun p => by cases p <;> first | exact .inr rfl | exact .inl ‹_›)
    (fun f => ⟨f.1, f.2, f.3, f.4, f.5, f.6, f.7, f.8, memClear_wf _ _ f.9, f.10, f.11, f.12⟩)

theorem State.askData_within {l : Loading} (h : Within g s u) :
    Within g s (State.askData u l) := by
  unfold State.askData
  exact State.reply_within h

theorem execPldmUpdateComponent_within {p0 : HostPort} {size : Nat} (p_slots : Part.slots ∈ g.parts) (p_fw : Part.fw ∈ g.parts) (h : Within g s u) (k_slotDictVersion : ∀ n, g.keys (Obj.slotDictVersion n) := by assumption) (k_slotFwVersion : ∀ n, g.keys (Obj.slotFwVersion n) := by assumption) (k_slotManifestHash : ∀ n, g.keys (Obj.slotManifestHash n) := by assumption) (k_slotRejectReason : ∀ n, g.keys (Obj.slotRejectReason n) := by assumption) (k_slotState : ∀ n, g.keys (Obj.slotState n) := by assumption) (k_slotSvn : ∀ n, g.keys (Obj.slotSvn n) := by assumption) :
    Leads g s (execPldmUpdateComponent p0 size u) := by
  unfold execPldmUpdateComponent
  exact onPort_within (fun x1 h2 => (State.inUpdate_within (fun x3 => (Within.ite (State.reply_within h2) (Within.ite (State.reply_within h2) (by
    extract_lets +onlyGivenNames -underBinder -merge n4
    exact State.askData_within (State.reply_within (State.setLoad_within p_fw (State.beginTransfer_within p_slots p_fw h2))))))) h2)) h

theorem State.imageWhole_within {p1 : HostPort} (p_fw : Part.fw ∈ g.parts) (h : Within g s u) (k_slotDictVersion : ∀ n, g.keys (Obj.slotDictVersion n) := by assumption) (k_slotFwVersion : ∀ n, g.keys (Obj.slotFwVersion n) := by assumption) (k_slotManifestHash : ∀ n, g.keys (Obj.slotManifestHash n) := by assumption) (k_slotRejectReason : ∀ n, g.keys (Obj.slotRejectReason n) := by assumption) (k_slotState : ∀ n, g.keys (Obj.slotState n) := by assumption) (k_slotSvn : ∀ n, g.keys (Obj.slotSvn n) := by assumption) :
    Within g s (State.imageWhole u p1) := by
  unfold State.imageWhole
  extract_lets +onlyGivenNames -underBinder -merge s1
  have h2 : Within g s s1 := (State.setLoad_within p_fw (State.stageSlot_within (State.reply_within h)))
  extract_lets +onlyGivenNames -underBinder -merge n3
  exact State.reply_within (State.reply_within h2)

theorem State.firmwareData_within {p1 : HostPort} {off : Nat} {data : Bytes} (p_slots : Part.slots ∈ g.parts) (p_fw : Part.fw ∈ g.parts) (h : Within g s u) (k_slotDictVersion : ∀ n, g.keys (Obj.slotDictVersion n) := by assumption) (k_slotFwVersion : ∀ n, g.keys (Obj.slotFwVersion n) := by assumption) (k_slotManifestHash : ∀ n, g.keys (Obj.slotManifestHash n) := by assumption) (k_slotRejectReason : ∀ n, g.keys (Obj.slotRejectReason n) := by assumption) (k_slotState : ∀ n, g.keys (Obj.slotState n) := by assumption) (k_slotSvn : ∀ n, g.keys (Obj.slotSvn n) := by assumption) :
    Within g s (State.firmwareData u p1 off data) := by
  unfold State.firmwareData
  refine State.inUpdate_within (fun l => Within.ite h ?_) h
  extract_lets d _ s1 l1
  have h1 : Within g s s1 := Within.setSlots p_slots h rfl (memWrite_wf _ _)
  exact Within.ite (State.askData_within (State.setLoad_within p_fw h1)) (State.imageWhole_within p_fw h1)

theorem execPldmFirmwareData_within {p0 : HostPort} {off : Nat} {data : Bytes} (p_slots : Part.slots ∈ g.parts) (p_fw : Part.fw ∈ g.parts) (h : Within g s u) (k_slotDictVersion : ∀ n, g.keys (Obj.slotDictVersion n) := by assumption) (k_slotFwVersion : ∀ n, g.keys (Obj.slotFwVersion n) := by assumption) (k_slotManifestHash : ∀ n, g.keys (Obj.slotManifestHash n) := by assumption) (k_slotRejectReason : ∀ n, g.keys (Obj.slotRejectReason n) := by assumption) (k_slotState : ∀ n, g.keys (Obj.slotState n) := by assumption) (k_slotSvn : ∀ n, g.keys (Obj.slotSvn n) := by assumption) :
    Leads g s (execPldmFirmwareData p0 off data u) := by
  unfold execPldmFirmwareData
  exact onPort_within (fun x1 h2 => (State.firmwareData_within p_slots p_fw h2)) h

theorem execPldmGetStatus_within {p0 : HostPort} (h : Within g s u) :
    Leads g s (execPldmGetStatus p0 u) := by
  unfold execPldmGetStatus
  exact onPort_within (fun x1 h2 => (State.reply_within h2)) h

theorem State.dropTransfer_within (h : Within g s u) (k_slotDictVersion : ∀ n, g.keys (Obj.slotDictVersion n) := by assumption) (k_slotFwVersion : ∀ n, g.keys (Obj.slotFwVersion n) := by assumption) (k_slotManifestHash : ∀ n, g.keys (Obj.slotManifestHash n) := by assumption) (k_slotState : ∀ n, g.keys (Obj.slotState n) := by assumption) (k_slotSvn : ∀ n, g.keys (Obj.slotSvn n) := by assumption) :
    Within g s (State.dropTransfer u) := by
  unfold State.dropTransfer
  exact State.slotInfo_within (State.wr_within h _ _)

theorem execPldmCancelUpdateComponent_within {p0 : HostPort} (p_fw : Part.fw ∈ g.parts) (h : Within g s u) (k_slotDictVersion : ∀ n, g.keys (Obj.slotDictVersion n) := by assumption) (k_slotFwVersion : ∀ n, g.keys (Obj.slotFwVersion n) := by assumption) (k_slotManifestHash : ∀ n, g.keys (Obj.slotManifestHash n) := by assumption) (k_slotState : ∀ n, g.keys (Obj.slotState n) := by assumption) (k_slotSvn : ∀ n, g.keys (Obj.slotSvn n) := by assumption) :
    Leads g s (execPldmCancelUpdateComponent p0 u) := by
  unfold execPldmCancelUpdateComponent
  exact onPort_within (fun x1 h2 => (State.inUpdate_within (fun x3 => (State.reply_within (State.setLoad_within p_fw (State.dropTransfer_within h2)))) h2)) h

theorem execPldmCancelUpdate_within {p0 : HostPort} (p_fw : Part.fw ∈ g.parts) (h : Within g s u) (k_slotDictVersion : ∀ n, g.keys (Obj.slotDictVersion n) := by assumption) (k_slotFwVersion : ∀ n, g.keys (Obj.slotFwVersion n) := by assumption) (k_slotManifestHash : ∀ n, g.keys (Obj.slotManifestHash n) := by assumption) (k_slotState : ∀ n, g.keys (Obj.slotState n) := by assumption) (k_slotSvn : ∀ n, g.keys (Obj.slotSvn n) := by assumption) :
    Leads g s (execPldmCancelUpdate p0 u) := by
  unfold execPldmCancelUpdate
  exact onPort_within (fun x1 h2 => (by
    split
    · exact State.reply_within h2
    · exact Within.ite (State.reply_within h2) (State.reply_within (State.setLoad_within p_fw (Within.ite (State.dropTransfer_within h2) h2))))) h

theorem execPldmActivateFirmware_within {p0 : HostPort} (h : Within g s u) :
    Leads g s (execPldmActivateFirmware p0 u) := by
  unfold execPldmActivateFirmware
  exact onPort_within (fun x1 h2 => (State.reply_within h2)) h

theorem State.setBoot_within {f : BootRec → BootRec} (p_fw : Part.fw ∈ g.parts) (h : Within g s u) :
    Within g s (State.setBoot u f) := by
  unfold State.setBoot
  extract_lets +onlyGivenNames -underBinder -merge n1
  extract_lets +onlyGivenNames -underBinder -merge _ n2
  exact Within.ite (Within.setFw p_fw h rfl) (Within.setFw p_fw h rfl)

theorem State.readVersions_within {n : Nat} (h : Within g s u) (k_activeSlot : g.keys Obj.activeSlot := by assumption) (k_dictVersion : g.keys Obj.dictVersion := by assumption) (k_fwVersion : g.keys Obj.fwVersion := by assumption) :
    Within g s (State.readVersions u n) := by
  unfold State.readVersions
  exact State.wr_within (State.wr_within (State.wr_within h _ _) _ _) _ _

theorem State.revertBoot_within {cause : Nat} {reason : Nat} (p_fw : Part.fw ∈ g.parts) (h : Within g s u) (k_activeSlot : g.keys Obj.activeSlot := by assumption) (k_bootState : g.keys Obj.bootState := by assumption) (k_slotDictVersion : ∀ n, g.keys (Obj.slotDictVersion n) := by assumption) (k_slotFwVersion : ∀ n, g.keys (Obj.slotFwVersion n) := by assumption) (k_slotManifestHash : ∀ n, g.keys (Obj.slotManifestHash n) := by assumption) (k_slotRejectReason : ∀ n, g.keys (Obj.slotRejectReason n) := by assumption) (k_slotState : ∀ n, g.keys (Obj.slotState n) := by assumption) (k_slotSvn : ∀ n, g.keys (Obj.slotSvn n) := by assumption) :
    Within g s (State.revertBoot u cause reason) := by
  unfold State.revertBoot
  extract_lets +onlyGivenNames -underBinder -merge n1
  extract_lets +onlyGivenNames -underBinder -merge s2
  have h3 : Within g s s2 := (State.setBoot_within p_fw h)
  extract_lets +onlyGivenNames -underBinder -merge s4
  have h5 : Within g s s4 := (Within.ite (State.wr_within h3 _ _) (State.slotInfo_within (State.wr_within (State.wr_within h3 _ _) _ _)))
  exact State.raise_within (State.wr_within (State.wr_within (State.wr_within h5 _ _) _ _) _ _)

theorem State.bootFault_within {n : Nat} {reason : Nat} (h : Within g s u) (k_activeSlot : g.keys Obj.activeSlot := by assumption) (k_bootState : g.keys Obj.bootState := by assumption) (k_moduleState : g.keys Obj.moduleState := by assumption) (k_slotDictVersion : ∀ n, g.keys (Obj.slotDictVersion n) := by assumption) (k_slotFwVersion : ∀ n, g.keys (Obj.slotFwVersion n) := by assumption) (k_slotManifestHash : ∀ n, g.keys (Obj.slotManifestHash n) := by assumption) (k_slotRejectReason : ∀ n, g.keys (Obj.slotRejectReason n) := by assumption) (k_slotState : ∀ n, g.keys (Obj.slotState n) := by assumption) (k_slotSvn : ∀ n, g.keys (Obj.slotSvn n) := by assumption) :
    Within g s (State.bootFault u n reason) := by
  unfold State.bootFault
  extract_lets +onlyGivenNames -underBinder -merge s1
  have h2 : Within g s s1 := (State.wr_within (State.slotInfo_within (State.wr_within (State.wr_within (State.wr_within h _ _) _ _) _ _)) _ _)
  exact State.raiseKept_within (State.wr_within h2 _ _)

theorem State.bootLoad_within {n : Nat} (p_staged : Part.staged ∈ g.parts) (p_store : Part.store ∈ g.parts) (p_fw : Part.fw ∈ g.parts) (h : Within g s u) (k_activeSlot : g.keys Obj.activeSlot := by assumption) (k_any : ∀ k, g.keys k := by assumption) (k_bootState : g.keys Obj.bootState := by assumption) (k_dictVersion : g.keys Obj.dictVersion := by assumption) (k_fwVersion : g.keys Obj.fwVersion := by assumption) (k_settingsResetCount : g.keys Obj.settingsResetCount := by assumption) (k_slotDictVersion : ∀ n, g.keys (Obj.slotDictVersion n) := by assumption) (k_slotFwVersion : ∀ n, g.keys (Obj.slotFwVersion n) := by assumption) (k_slotManifestHash : ∀ n, g.keys (Obj.slotManifestHash n) := by assumption) (k_slotState : ∀ n, g.keys (Obj.slotState n) := by assumption) (k_slotSvn : ∀ n, g.keys (Obj.slotSvn n) := by assumption) (k_szState : ∀ n, g.keys (Obj.szState n) := by assumption) :
    Within g s (State.bootLoad u n) := by
  unfold State.bootLoad
  extract_lets +onlyGivenNames -underBinder -merge n1
  extract_lets +onlyGivenNames -underBinder -merge s2
  have h3 : Within g s s2 := (State.slotInfo_within (State.wr_within (State.readVersions_within h) _ _))
  extract_lets +onlyGivenNames -underBinder -merge s4
  have h5 : Within g s s4 := (Within.ite (State.wr_within h3 _ _) h3)
  extract_lets +onlyGivenNames -underBinder -merge s6
  have h7 : Within g s s6 := (Within.ite (State.wr_within h5 _ _) (Within.ite h5 (State.wr_within h5 _ _)))
  extract_lets +onlyGivenNames -underBinder -merge n8
  extract_lets +onlyGivenNames -underBinder -merge _ s9
  have h10 : Within g s s9 := (Within.setFw p_fw h7 rfl)
  exact Within.ite (State.migrate_within p_staged p_store h10) h10

theorem State.bootSlot_within {a1 : Nat} (p_staged : Part.staged ∈ g.parts) (p_store : Part.store ∈ g.parts) (p_fw : Part.fw ∈ g.parts) (h : Within g s u) (k_activeSlot : g.keys Obj.activeSlot := by assumption) (k_any : ∀ k, g.keys k := by assumption) (k_bootState : g.keys Obj.bootState := by assumption) (k_dictVersion : g.keys Obj.dictVersion := by assumption) (k_fwVersion : g.keys Obj.fwVersion := by assumption) (k_moduleState : g.keys Obj.moduleState := by assumption) (k_settingsResetCount : g.keys Obj.settingsResetCount := by assumption) (k_slotDictVersion : ∀ n, g.keys (Obj.slotDictVersion n) := by assumption) (k_slotFwVersion : ∀ n, g.keys (Obj.slotFwVersion n) := by assumption) (k_slotManifestHash : ∀ n, g.keys (Obj.slotManifestHash n) := by assumption) (k_slotRejectReason : ∀ n, g.keys (Obj.slotRejectReason n) := by assumption) (k_slotState : ∀ n, g.keys (Obj.slotState n) := by assumption) (k_slotSvn : ∀ n, g.keys (Obj.slotSvn n) := by assumption) (k_szState : ∀ n, g.keys (Obj.szState n) := by assumption) :
    Within g s (State.bootSlot u a1) := by
  induction a1 generalizing u with
  | zero => exact h
  | succ n ih =>
    unfold State.bootSlot
    extract_lets b k r
    exact Within.ite (State.bootLoad_within p_staged p_store p_fw h) (Within.ite (ih (State.revertBoot_within p_fw h)) (State.bootFault_within h))

theorem State.boot_within (p_staged : Part.staged ∈ g.parts) (p_store : Part.store ∈ g.parts) (p_fw : Part.fw ∈ g.parts) (h : Within g s u) (k_activeSlot : g.keys Obj.activeSlot := by assumption) (k_any : ∀ k, g.keys k := by assumption) (k_bootState : g.keys Obj.bootState := by assumption) (k_dictVersion : g.keys Obj.dictVersion := by assumption) (k_fwVersion : g.keys Obj.fwVersion := by assumption) (k_moduleState : g.keys Obj.moduleState := by assumption) (k_settingsResetCount : g.keys Obj.settingsResetCount := by assumption) (k_slotDictVersion : ∀ n, g.keys (Obj.slotDictVersion n) := by assumption) (k_slotFwVersion : ∀ n, g.keys (Obj.slotFwVersion n) := by assumption) (k_slotManifestHash : ∀ n, g.keys (Obj.slotManifestHash n) := by assumption) (k_slotRejectReason : ∀ n, g.keys (Obj.slotRejectReason n) := by assumption) (k_slotState : ∀ n, g.keys (Obj.slotState n) := by assumption) (k_slotSvn : ∀ n, g.keys (Obj.slotSvn n) := by assumption) (k_szState : ∀ n, g.keys (Obj.szState n) := by assumption) :
    Within g s (State.boot u) := by
  unfold State.boot
  exact Within.ite h (by
    extract_lets +onlyGivenNames -underBinder -merge s1
    have h2 : Within g s s1 := (Within.ite (State.setBoot_within p_fw h) h)
    extract_lets +onlyGivenNames -underBinder -merge s3
    have h4 : Within g s s3 := (Within.ite (State.revertBoot_within p_fw h2) h2)
    exact State.bootSlot_within p_staged p_store p_fw h4)

theorem execBoot_within (p_staged : Part.staged ∈ g.parts) (p_store : Part.store ∈ g.parts) (p_fw : Part.fw ∈ g.parts) (h : Within g s u) (k_activeSlot : g.keys Obj.activeSlot := by assumption) (k_any : ∀ k, g.keys k := by assumption) (k_bootState : g.keys Obj.bootState := by assumption) (k_dictVersion : g.keys Obj.dictVersion := by assumption) (k_fwVersion : g.keys Obj.fwVersion := by assumption) (k_moduleState : g.keys Obj.moduleState := by assumption) (k_settingsResetCount : g.keys Obj.settingsResetCount := by assumption) (k_slotDictVersion : ∀ n, g.keys (Obj.slotDictVersion n) := by assumption) (k_slotFwVersion : ∀ n, g.keys (Obj.slotFwVersion n) := by assumption) (k_slotManifestHash : ∀ n, g.keys (Obj.slotManifestHash n) := by assumption) (k_slotRejectReason : ∀ n, g.keys (Obj.slotRejectReason n) := by assumption) (k_slotState : ∀ n, g.keys (Obj.slotState n) := by assumption) (k_slotSvn : ∀ n, g.keys (Obj.slotSvn n) := by assumption) (k_szState : ∀ n, g.keys (Obj.szState n) := by assumption) :
    Leads g s (execBoot u) := by
  unfold execBoot
  exact Leads.next (State.boot_within p_staged p_store p_fw h)

theorem State.actTickApply_within {v : Nat} (p_cmd : Part.cmd ∈ g.parts) (p_fw : Part.fw ∈ g.parts) (h : Within g s u) (k_actMode : g.keys Obj.actMode := by assumption) (k_actTick : g.keys Obj.actTick := by assumption) :
    Within g s (State.actTickApply u v) := by
  unfold State.actTickApply
  exact Within.ite (State.wr_within (State.wr_within h _ _) _ _) (by
    extract_lets +onlyGivenNames -underBinder -merge s1
    have h2 : Within g s s1 := (State.wr_within h _ _)
    exact Within.ite h2 (by
      extract_lets +onlyGivenNames -underBinder -merge s3
      have h4 : Within g s s3 := (State.wr_within h2 _ _)
      exact Within.ite (Within.many h4 rfl (fun p => by cases p <;> first | exact .inr rfl | exact .inl ‹_›) (fun f => ⟨f.1, f.2, f.3, f.4, f.5, f.6, f.7, f.8, f.9, f.10, f.11, f.12⟩) rfl) h4))

theorem execActTickWrite_within {src : Src} {v : Nat} (p_cmd : Part.cmd ∈ g.parts) (p_fw : Part.fw ∈ g.parts) (h : Within g s u) (k_actMode : g.keys Obj.actMode := by assumption) (k_actTick : g.keys Obj.actTick := by assumption) (k_dictRejected : g.keys Obj.dictRejected := by assumption) :
    Leads g s (execActTickWrite src v u) := by
  unfold execActTickWrite
  exact Leads.next (State.act_within (fun x1 h2 => (State.actTickApply_within p_cmd p_fw h2)) h)

theorem State.holdDispatch_within (p_cmd : Part.cmd ∈ g.parts) (p_fw : Part.fw ∈ g.parts) (h : Within g s u) :
    Within g s (State.holdDispatch u) := by
  unfold State.holdDispatch
  exact Within.many h rfl (fun p => by cases p <;> first | exact .inr rfl | exact .inl ‹_›) (fun f => ⟨f.1, f.2, f.3, f.4, f.5, f.6, f.7, f.8, f.9, f.10, f.11, f.12⟩) rfl

theorem State.localTick_within (p_cmd : Part.cmd ∈ g.parts) (p_fw : Part.fw ∈ g.parts) (h : Within g s u) :
    Within g s (State.localTick u) := by
  unfold State.localTick
  exact Within.ite (State.holdDispatch_within p_cmd p_fw h) h

theorem execLocalActivationTick_within (p_cmd : Part.cmd ∈ g.parts) (p_fw : Part.fw ∈ g.parts) (h : Within g s u) :
    Leads g s (execLocalActivationTick u) := by
  unfold execLocalActivationTick
  exact Leads.next (State.localTick_within p_cmd p_fw h)

theorem State.restartDomains_within (p_cmd : Part.cmd ∈ g.parts) (p_tier : Part.tier ∈ g.parts) (p_power : Part.power ∈ g.parts) (p_cross : Part.cross ∈ g.parts) (p_fw : Part.fw ∈ g.parts) (p_start : Part.start ∈ g.parts) (h : Within g s u) (k_moduleState : g.keys Obj.moduleState := by assumption) :
    Within g s (State.restartDomains u) := by
  unfold State.restartDomains
  extract_lets +onlyGivenNames -underBinder -merge s1
  have h2 : Within g s s1 := (State.freshArrayQueues_within p_cross (State.setRail_within p_power (State.wr_within h _ _)))
  exact Within.many h2 rfl (fun p => by cases p <;> first | exact .inr rfl | exact .inl ‹_›) (fun f => ⟨f.1, f.2, f.3, f.4, f.5, f.6, f.7, f.8, f.9, f.10, f.11, f.12⟩) rfl

theorem State.activate_within (p_cmd : Part.cmd ∈ g.parts) (p_tier : Part.tier ∈ g.parts) (p_power : Part.power ∈ g.parts) (p_cross : Part.cross ∈ g.parts) (p_fw : Part.fw ∈ g.parts) (p_start : Part.start ∈ g.parts) (h : Within g s u) (k_actMode : g.keys Obj.actMode := by assumption) (k_actStep : g.keys Obj.actStep := by assumption) (k_actTick : g.keys Obj.actTick := by assumption) (k_activeSlot : g.keys Obj.activeSlot := by assumption) (k_moduleState : g.keys Obj.moduleState := by assumption) (k_slotState : ∀ n, g.keys (Obj.slotState n) := by assumption) :
    Within g s (State.activate u) := by
  unfold State.activate
  exact Within.ite h (by
    extract_lets +onlyGivenNames -underBinder -merge n1
    extract_lets +onlyGivenNames -underBinder -merge s2
    have h3 : Within g s s2 := (State.setBoot_within p_fw h)
    extract_lets +onlyGivenNames -underBinder -merge _ s4
    have h5 : Within g s s4 := (Within.setFw p_fw h3 rfl)
    extract_lets +onlyGivenNames -underBinder -merge s6
    have h7 : Within g s s6 := (State.wr_within (State.wr_within (State.wr_within h5 _ _) _ _) _ _)
    exact State.restartDomains_within p_cmd p_tier p_power p_cross p_fw p_start (State.wr_within (State.wr_within (State.wr_within h7 _ _) _ _) _ _))

theorem execFwActivation_within (p_cmd : Part.cmd ∈ g.parts) (p_tier : Part.tier ∈ g.parts) (p_power : Part.power ∈ g.parts) (p_cross : Part.cross ∈ g.parts) (p_fw : Part.fw ∈ g.parts) (p_start : Part.start ∈ g.parts) (h : Within g s u) (k_actMode : g.keys Obj.actMode := by assumption) (k_actStep : g.keys Obj.actStep := by assumption) (k_actTick : g.keys Obj.actTick := by assumption) (k_activeSlot : g.keys Obj.activeSlot := by assumption) (k_moduleState : g.keys Obj.moduleState := by assumption) (k_slotState : ∀ n, g.keys (Obj.slotState n) := by assumption) :
    Leads g s (execFwActivation u) := by
  unfold execFwActivation
  exact Leads.next (State.activate_within p_cmd p_tier p_power p_cross p_fw p_start h)

theorem State.restartDone_within (p_cmd : Part.cmd ∈ g.parts) (p_tier : Part.tier ∈ g.parts) (p_power : Part.power ∈ g.parts) (p_clock : Part.clock ∈ g.parts) (p_fw : Part.fw ∈ g.parts) (p_start : Part.start ∈ g.parts) (h : Within g s u) (k_duty : g.keys Obj.duty := by assumption) (k_opInForce : g.keys Obj.opInForce := by assumption) (k_vtrimMv : g.keys Obj.vtrimMv := by assumption) :
    Within g s (State.restartDone u) := by
  unfold State.restartDone
  extract_lets s1 _ _ _ s2
  have h1 : Within g s s1 := State.runArray_within p_tier p_power p_clock h
  have h2 : Within g s s2 := Within.many h1 rfl
    (fun p => by cases p <;> first | exact .inr rfl | exact .inl ‹_›) (fun f => ⟨f.1, f.2, f.3, f.4, f.5, f.6, f.7, f.8, f.9, f.10, f.11, f.12⟩)
  exact Within.ite h2 (State.raise_within h2)

theorem State.revertTo_within {cause : Nat} (p_cmd : Part.cmd ∈ g.parts) (p_tier : Part.tier ∈ g.parts) (p_power : Part.power ∈ g.parts) (p_cross : Part.cross ∈ g.parts) (p_fw : Part.fw ∈ g.parts) (p_start : Part.start ∈ g.parts) (h : Within g s u) (k_activeSlot : g.keys Obj.activeSlot := by assumption) (k_bootState : g.keys Obj.bootState := by assumption) (k_moduleState : g.keys Obj.moduleState := by assumption) (k_slotDictVersion : ∀ n, g.keys (Obj.slotDictVersion n) := by assumption) (k_slotFwVersion : ∀ n, g.keys (Obj.slotFwVersion n) := by assumption) (k_slotManifestHash : ∀ n, g.keys (Obj.slotManifestHash n) := by assumption) (k_slotRejectReason : ∀ n, g.keys (Obj.slotRejectReason n) := by assumption) (k_slotState : ∀ n, g.keys (Obj.slotState n) := by assumption) (k_slotSvn : ∀ n, g.keys (Obj.slotSvn n) := by assumption) :
    Within g s (State.revertTo u cause) := by
  unfold State.revertTo
  exact Within.ite (by
    extract_lets +onlyGivenNames -underBinder -merge n1
    extract_lets +onlyGivenNames -underBinder -merge s2
    have h3 : Within g s s2 := (State.wr_within (State.raise_within (State.wr_within (State.wr_within h _ _) _ _)) _ _)
    exact Within.many h3 rfl (fun p => by cases p <;> first | exact .inr rfl | exact .inl ‹_›) (fun f => ⟨f.1, f.2, f.3, f.4, f.5, f.6, f.7, f.8, f.9, f.10, f.11, f.12⟩) rfl) (by
    extract_lets +onlyGivenNames -underBinder -merge s4
    have h5 : Within g s s4 := (State.revertBoot_within p_fw h)
    extract_lets +onlyGivenNames -underBinder -merge _ s6
    have h7 : Within g s s6 := (Within.setFw p_fw h5 rfl)
    exact Within.ite (State.restartDomains_within p_cmd p_tier p_power p_cross p_fw p_start h7) (by
      extract_lets +onlyGivenNames -underBinder -merge s8
      have h9 : Within g s s8 := (State.wr_within h7 _ _)
      exact Within.setStart p_start h9))

theorem execFwRevert_within {src : Src} {arg : Nat} (p_cmd : Part.cmd ∈ g.parts) (p_tier : Part.tier ∈ g.parts) (p_power : Part.power ∈ g.parts) (p_cross : Part.cross ∈ g.parts) (p_fw : Part.fw ∈ g.parts) (p_start : Part.start ∈ g.parts) (h : Within g s u) (k_activeSlot : g.keys Obj.activeSlot := by assumption) (k_bootState : g.keys Obj.bootState := by assumption) (k_dictRejected : g.keys Obj.dictRejected := by assumption) (k_moduleState : g.keys Obj.moduleState := by assumption) (k_slotDictVersion : ∀ n, g.keys (Obj.slotDictVersion n) := by assumption) (k_slotFwVersion : ∀ n, g.keys (Obj.slotFwVersion n) := by assumption) (k_slotManifestHash : ∀ n, g.keys (Obj.slotManifestHash n) := by assumption) (k_slotRejectReason : ∀ n, g.keys (Obj.slotRejectReason n) := by assumption) (k_slotState : ∀ n, g.keys (Obj.slotState n) := by assumption) (k_slotSvn : ∀ n, g.keys (Obj.slotSvn n) := by assumption) :
    Leads g s (execFwRevert src arg u) := by
  unfold execFwRevert
  exact Leads.next (State.act_within (fun x1 h2 => (State.revertTo_within p_cmd p_tier p_power p_cross p_fw p_start h2)) h)

theorem State.trialTimeout_within (p_cmd : Part.cmd ∈ g.parts) (p_tier : Part.tier ∈ g.parts) (p_power : Part.power ∈ g.parts) (p_cross : Part.cross ∈ g.parts) (p_fw : Part.fw ∈ g.parts) (p_start : Part.start ∈ g.parts) (h : Within g s u) (k_activeSlot : g.keys Obj.activeSlot := by assumption) (k_bootState : g.keys Obj.bootState := by assumption) (k_moduleState : g.keys Obj.moduleState := by assumption) (k_slotDictVersion : ∀ n, g.keys (Obj.slotDictVersion n) := by assumption) (k_slotFwVersion : ∀ n, g.keys (Obj.slotFwVersion n) := by assumption) (k_slotManifestHash : ∀ n, g.keys (Obj.slotManifestHash n) := by assumption) (k_slotRejectReason : ∀ n, g.keys (Obj.slotRejectReason n) := by assumption) (k_slotState : ∀ n, g.keys (Obj.slotState n) := by assumption) (k_slotSvn : ∀ n, g.keys (Obj.slotSvn n) := by assumption) :
    Within g s (State.trialTimeout u) := by
  unfold State.trialTimeout
  exact Within.ite (State.revertTo_within p_cmd p_tier p_power p_cross p_fw p_start h) h

theorem execTrialTimeout_within (p_cmd : Part.cmd ∈ g.parts) (p_tier : Part.tier ∈ g.parts) (p_power : Part.power ∈ g.parts) (p_cross : Part.cross ∈ g.parts) (p_fw : Part.fw ∈ g.parts) (p_start : Part.start ∈ g.parts) (h : Within g s u) (k_activeSlot : g.keys Obj.activeSlot := by assumption) (k_bootState : g.keys Obj.bootState := by assumption) (k_moduleState : g.keys Obj.moduleState := by assumption) (k_slotDictVersion : ∀ n, g.keys (Obj.slotDictVersion n) := by assumption) (k_slotFwVersion : ∀ n, g.keys (Obj.slotFwVersion n) := by assumption) (k_slotManifestHash : ∀ n, g.keys (Obj.slotManifestHash n) := by assumption) (k_slotRejectReason : ∀ n, g.keys (Obj.slotRejectReason n) := by assumption) (k_slotState : ∀ n, g.keys (Obj.slotState n) := by assumption) (k_slotSvn : ∀ n, g.keys (Obj.slotSvn n) := by assumption) :
    Leads g s (execTrialTimeout u) := by
  unfold execTrialTimeout
  exact Leads.next (State.trialTimeout_within p_cmd p_tier p_power p_cross p_fw p_start h)

theorem State.burn_within {fuse : Nat} (p_free : Part.free ∈ g.parts) (h : Within g s u) :
    Within g s (State.burn u fuse).1 := by
  unfold State.burn
  extract_lets +onlyGivenNames -underBinder -merge n1
  extract_lets +onlyGivenNames -underBinder -merge n2
  exact Within.fst (Within.setFree p_free h)

theorem State.burnAll_within {fs : List Nat} (p_free : Part.free ∈ g.parts) (h : Within g s u) :
    Within g s (State.burnAll u fs).1 := by
  unfold State.burnAll
  exact Within.foldlFst (fun x1 x2 h3 => (by
    split
    · next _ _ _ y7 =>
      exact Within.fst (Within.pair (State.burn_within p_free h3) y7))) (Within.fst h)

theorem State.confirm_within (p_fw : Part.fw ∈ g.parts) (p_start : Part.start ∈ g.parts) (p_free : Part.free ∈ g.parts) (h : Within g s u) (k_bootState : g.keys Obj.bootState := by assumption) (k_fwSvn : g.keys Obj.fwSvn := by assumption) (k_keyRevoked : g.keys Obj.keyRevoked := by assumption) :
    Within g s (State.confirm u) := by
  unfold State.confirm
  extract_lets +onlyGivenNames -underBinder -merge n1
  extract_lets +onlyGivenNames -underBinder -merge s2
  have h3 : Within g s s2 := (State.wr_within (State.setBoot_within p_fw h) _ _)
  extract_lets +onlyGivenNames -underBinder -merge n4
  split
  · next _ _ _ _ y9 =>
    extract_lets +onlyGivenNames -underBinder -merge s10
    have h11 : Within g s s10 := (State.wr_within (Within.pair (State.burnAll_within p_free h3) y9) _ _)
    extract_lets +onlyGivenNames -underBinder -merge n12
    split
    · next _ _ _ _ y17 =>
      extract_lets +onlyGivenNames -underBinder -merge s18
      have h19 : Within g s s18 := (State.wr_within (Within.pair (State.burnAll_within p_free h11) y17) _ _)
      extract_lets +onlyGivenNames -underBinder -merge s20
      have h21 : Within g s s20 := (Within.ite (State.raiseKept_within h19) h19)
      extract_lets +onlyGivenNames -underBinder -merge s22
      have h23 : Within g s s22 := (Within.foldl (fun x24 x25 h26 => (State.raise_within h26)) (State.raise_within h21))
      exact Within.ite (State.lifeExceed_within p_start h23) (Within.ite (State.lifeWarn_within p_start h23) h23)

theorem State.confirmAtCommit_within (p_fw : Part.fw ∈ g.parts) (p_start : Part.start ∈ g.parts) (p_free : Part.free ∈ g.parts) (h : Within g s u) (k_bootState : g.keys Obj.bootState := by assumption) (k_fwSvn : g.keys Obj.fwSvn := by assumption) (k_keyRevoked : g.keys Obj.keyRevoked := by assumption) :
    Within g s (State.confirmAtCommit u) := by
  unfold State.confirmAtCommit
  exact Within.ite (State.confirm_within p_fw p_start p_free h) h

theorem execFwConfirm_within {src : Src} {arg : Nat} (p_fw : Part.fw ∈ g.parts) (p_start : Part.start ∈ g.parts) (p_free : Part.free ∈ g.parts) (h : Within g s u) (k_bootState : g.keys Obj.bootState := by assumption) (k_dictRejected : g.keys Obj.dictRejected := by assumption) (k_fwSvn : g.keys Obj.fwSvn := by assumption) (k_keyRevoked : g.keys Obj.keyRevoked := by assumption) :
    Leads g s (execFwConfirm src arg u) := by
  unfold execFwConfirm
  exact Leads.next (State.act_within (fun x1 h2 => (State.confirm_within p_fw p_start p_free h2)) h)

theorem State.setSpdm_within {p1 : HostPort} {x : Spdm} (p_fw : Part.fw ∈ g.parts) (h : Within g s u) :
    Within g s (State.setSpdm u p1 x) := by
  unfold State.setSpdm
  split
  · exact Within.setFw p_fw h rfl
  · exact Within.setFw p_fw h rfl

theorem State.fresh_within {kind : Nat} (p_free : Part.free ∈ g.parts) (h : Within g s u) :
    Within g s (State.fresh u kind).1 := by
  unfold State.fresh
  exact Within.fst (Within.setFree p_free h)

theorem State.spdmError_within {p1 : HostPort} (h : Within g s u) :
    Within g s (State.spdmError u p1) := by
  unfold State.spdmError
  exact State.reply_within h

theorem State.spdmAt_within {p1 : HostPort} {phase : Nat} {f : State} (hf3 : Within g s f) (h : Within g s u) :
    Within g s (State.spdmAt u p1 phase f) := by
  unfold State.spdmAt
  exact Within.ite hf3 (State.spdmError_within h)

theorem State.signed_within {p1 : HostPort} {code : Nat} {body : Bytes} (p_free : Part.free ∈ g.parts) (h : Within g s u) :
    Within g s (State.signed u p1 code body) := by
  unfold State.signed
  split
  · next _ _ _ y4 =>
    exact State.reply_within (Within.pair (State.fresh_within p_free h) y4)

theorem execSpdmGetVersion_within {p0 : HostPort} (p_fw : Part.fw ∈ g.parts) (h : Within g s u) :
    Leads g s (execSpdmGetVersion p0 u) := by
  unfold execSpdmGetVersion
  exact onPort_within (fun x1 h2 => (State.reply_within (State.setSpdm_within p_fw h2))) h

theorem execSpdmGetCapabilities_within {p0 : HostPort} (p_fw : Part.fw ∈ g.parts) (h : Within g s u) :
    Leads g s (execSpdmGetCapabilities p0 u) := by
  unfold execSpdmGetCapabilities
  exact onPort_within (fun x1 h2 => (State.spdmAt_within (State.reply_within (State.setSpdm_within p_fw h2)) h2)) h

theorem execSpdmNegotiateAlgorithms_within {p0 : HostPort} (p_fw : Part.fw ∈ g.parts) (h : Within g s u) :
    Leads g s (execSpdmNegotiateAlgorithms p0 u) := by
  unfold execSpdmNegotiateAlgorithms
  exact onPort_within (fun x1 h2 => (State.spdmAt_within (State.reply_within (State.setSpdm_within p_fw h2)) h2)) h

theorem execSpdmGetDigests_within {p0 : HostPort} (h : Within g s u) :
    Leads g s (execSpdmGetDigests p0 u) := by
  unfold execSpdmGetDigests
  exact onPort_within (fun x1 h2 => (State.spdmAt_within (State.reply_within h2) h2)) h

theorem execSpdmGetCertificate_within {p0 : HostPort} (h : Within g s u) :
    Leads g s (execSpdmGetCertificate p0 u) := by
  unfold execSpdmGetCertificate
  exact onPort_within (fun x1 h2 => (State.spdmAt_within (State.reply_within h2) h2)) h

theorem execSpdmChallenge_within {p0 : HostPort} (p_free : Part.free ∈ g.parts) (h : Within g s u) :
    Leads g s (execSpdmChallenge p0 u) := by
  unfold execSpdmChallenge
  exact onPort_within (fun x1 h2 => (State.spdmAt_within (State.signed_within p_free h2) h2)) h

theorem execSpdmGetMeasurements_within {p0 : HostPort} (p_free : Part.free ∈ g.parts) (h : Within g s u) :
    Leads g s (execSpdmGetMeasurements p0 u) := by
  unfold execSpdmGetMeasurements
  exact onPort_within (fun x1 h2 => (State.spdmAt_within (State.signed_within p_free h2) h2)) h

theorem execSpdmKeyExchange_within {p0 : HostPort} (p_fw : Part.fw ∈ g.parts) (p_free : Part.free ∈ g.parts) (h : Within g s u) :
    Leads g s (execSpdmKeyExchange p0 u) := by
  unfold execSpdmKeyExchange
  exact onPort_within (fun x1 h2 => (State.spdmAt_within (by
    extract_lets +onlyGivenNames -underBinder -merge n3
    extract_lets +onlyGivenNames -underBinder -merge n4
    exact State.signed_within p_free (State.setSpdm_within p_fw h2)) h2)) h

theorem State.inSession_within {p1 : HostPort} {done : Bool} {f : Secured → State} (hf3 : ∀ v0, Within g s (f v0)) (h : Within g s u) :
    Within g s (State.inSession u p1 done f) := by
  unfold State.inSession
  split
  · exact Within.ite (hf3 _) (State.spdmError_within h)
  · exact State.spdmError_within h

theorem State.setSession_within {p1 : HostPort} {v : Option Secured} (p_fw : Part.fw ∈ g.parts) (h : Within g s u) :
    Within g s (State.setSession u p1 v) := by
  unfold State.setSession
  exact State.setSpdm_within p_fw h

theorem execSpdmFinish_within {p0 : HostPort} (p_fw : Part.fw ∈ g.parts) (h : Within g s u) :
    Leads g s (execSpdmFinish p0 u) := by
  unfold execSpdmFinish
  exact onPort_within (fun x1 h2 => (State.inSession_within (fun x3 => (State.reply_within (State.setSession_within p_fw h2))) h2)) h

theorem execSpdmHeartbeat_within {p0 : HostPort} (p_fw : Part.fw ∈ g.parts) (h : Within g s u) :
    Leads g s (execSpdmHeartbeat p0 u) := by
  unfold execSpdmHeartbeat
  exact onPort_within (fun x1 h2 => (State.inSession_within (fun x3 => (State.reply_within (State.setSession_within p_fw h2))) h2)) h

theorem execSpdmEndSession_within {p0 : HostPort} (p_fw : Part.fw ∈ g.parts) (h : Within g s u) :
    Leads g s (execSpdmEndSession p0 u) := by
  unfold execSpdmEndSession
  exact onPort_within (fun x1 h2 => (State.inSession_within (fun x3 => (State.reply_within (State.setSession_within p_fw h2))) h2)) h

theorem State.heartbeatTimeout_within {p1 : HostPort} (p_fw : Part.fw ∈ g.parts) (h : Within g s u) :
    Within g s (State.heartbeatTimeout u p1) := by
  unfold State.heartbeatTimeout
  split
  · exact Within.ite (State.setSession_within p_fw h) h
  · exact h

theorem execSpdmHeartbeatTimeout_within {p0 : HostPort} (p_fw : Part.fw ∈ g.parts) (h : Within g s u) :
    Leads g s (execSpdmHeartbeatTimeout p0 u) := by
  unfold execSpdmHeartbeatTimeout
  exact Leads.next (State.heartbeatTimeout_within p_fw h)

theorem execDoeDiscovery_within {p0 : HostPort} {i : Nat} (h : Within g s u) :
    Leads g s (execDoeDiscovery p0 i u) := by
  unfold execDoeDiscovery
  exact onPort_within (fun x1 h2 => (Within.ite (State.reply_within h2) (State.reply_within h2))) h

theorem State.reserveLeaves_within (p_fw : Part.fw ∈ g.parts) (h : Within g s u) (k_lmsRemaining : g.keys Obj.lmsRemaining := by assumption) :
    Within g s (State.reserveLeaves u) := by
  unfold State.reserveLeaves
  extract_lets +onlyGivenNames -underBinder -merge n1
  extract_lets +onlyGivenNames -underBinder -merge _ s2
  have h3 : Within g s s2 := (Within.setFw p_fw h rfl)
  exact State.wr_within h3 _ _

theorem State.takeLeaf_within (p_fw : Part.fw ∈ g.parts) (h : Within g s u) (k_lmsRemaining : g.keys Obj.lmsRemaining := by assumption) :
    Within g s (State.takeLeaf u).1 := by
  unfold State.takeLeaf
  extract_lets +onlyGivenNames -underBinder -merge s1
  have h2 : Within g s s1 := (Within.ite h (State.reserveLeaves_within p_fw h))
  extract_lets +onlyGivenNames -underBinder -merge n3
  exact Within.fst (Within.setFw p_fw h2 rfl)

theorem State.leafNotes_within {before : Nat} (p_fw : Part.fw ∈ g.parts) (p_start : Part.start ∈ g.parts) (h : Within g s u) :
    Within g s (State.leafNotes u before) := by
  unfold State.leafNotes
  extract_lets +onlyGivenNames -underBinder -merge n1
  extract_lets +onlyGivenNames -underBinder -merge _ s2
  have h3 : Within g s s2 := (Within.ite (State.lifeWarn_within p_start (State.raise_within (Within.setFw p_fw h rfl))) h)
  exact Within.ite (State.lifeExceed_within p_start (State.raise_within h3)) h3

theorem State.dualReport_within {p1 : HostPort} {nonce : Bytes} (p_fw : Part.fw ∈ g.parts) (p_start : Part.start ∈ g.parts) (p_free : Part.free ∈ g.parts) (h : Within g s u) (k_attReports : g.keys Obj.attReports := by assumption) (k_lmsRemaining : g.keys Obj.lmsRemaining := by assumption) :
    Within g s (State.dualReport u p1 nonce) := by
  unfold State.dualReport
  extract_lets n1 n2
  refine Within.ite (State.reply_within h) (Within.ite (State.reply_within h) ?_)
  have h1 := State.takeLeaf_within p_fw h
  revert h1
  rcases u.takeLeaf with ⟨v, leaf⟩
  intro h1
  dsimp -zeta only
  extract_lets s1 b s2
  have h2 : Within g s s1 := State.leafNotes_within p_fw p_start (State.countSat_within h1)
  have h3 : Within g s s2 := State.reply_within h2
  clear_value s2
  exact Within.many h3 rfl (fun p => by cases p <;> first | exact .inr rfl | exact .inl ‹_›)
    (fun f => ⟨f.1, f.2, f.3, f.4, f.5, f.6, f.7, f.8, f.9, f.10, f.11, f.12⟩)

theorem execDualReport_within {p0 : HostPort} {nonce : Bytes} (p_fw : Part.fw ∈ g.parts) (p_start : Part.start ∈ g.parts) (p_free : Part.free ∈ g.parts) (h : Within g s u) (k_attReports : g.keys Obj.attReports := by assumption) (k_lmsRemaining : g.keys Obj.lmsRemaining := by assumption) :
    Leads g s (execDualReport p0 nonce u) := by
  unfold execDualReport
  exact onPort_within (fun x1 h2 => (State.dualReport_within p_fw p_start p_free h2)) h

theorem State.setIdeKey_within {p1 : HostPort} {k : Option Bytes} (p_fw : Part.fw ∈ g.parts) (h : Within g s u) :
    Within g s (State.setIdeKey u p1 k) := by
  unfold State.setIdeKey
  split
  · exact Within.setFw p_fw h rfl
  · exact Within.setFw p_fw h rfl

theorem State.ideStop_within {p1 : HostPort} (h : Within g s u) (k_ideState : ∀ n, g.keys (Obj.ideState n) := by assumption) :
    Within g s (State.ideStop u p1) := by
  unfold State.ideStop
  exact Within.ite h (by
    extract_lets +onlyGivenNames -underBinder -merge s1
    have h2 : Within g s s1 := (State.wr_within h _ _)
    exact Within.ite (State.raise_within h2) h2)

theorem execIdeStopped_within {p0 : HostPort} (h : Within g s u) (k_ideState : ∀ n, g.keys (Obj.ideState n) := by assumption) :
    Leads g s (execIdeStopped p0 u) := by
  unfold execIdeStopped
  exact Leads.next (State.ideStop_within h)

theorem State.ideKm_within {p1 : HostPort} {op : Nat} {key : Bytes} (p_fw : Part.fw ∈ g.parts) (h : Within g s u) (k_ideState : ∀ n, g.keys (Obj.ideState n) := by assumption) :
    Within g s (State.ideKm u p1 op key) := by
  unfold State.ideKm
  exact State.inSession_within (fun x1 => (by
    extract_lets +onlyGivenNames -underBinder -merge n2
    extract_lets +onlyGivenNames -underBinder -merge s3
    have h4 : Within g s s3 := (by
      unfold s3
      split
      · exact State.setIdeKey_within p_fw (Within.ite h (State.wr_within h _ _))
      · exact Within.ite (State.wr_within h _ _) h
      · exact State.setIdeKey_within p_fw (State.ideStop_within h))
    exact State.reply_within h4)) h

theorem execIdeKm_within {p0 : HostPort} {op : Fin 3} {key : Bytes} (p_fw : Part.fw ∈ g.parts) (h : Within g s u) (k_ideState : ∀ n, g.keys (Obj.ideState n) := by assumption) :
    Leads g s (execIdeKm p0 op key u) := by
  unfold execIdeKm
  exact onPort_within (fun x1 h2 => (State.ideKm_within p_fw h2)) h

theorem State.vendorNonce_within {p1 : HostPort} (p_fw : Part.fw ∈ g.parts) (p_free : Part.free ∈ g.parts) (h : Within g s u) :
    Within g s (State.vendorNonce u p1) := by
  unfold State.vendorNonce
  exact Within.ite (State.reply_within h) (by
    extract_lets +onlyGivenNames -underBinder -merge n1
    exact State.reply_within (Within.many h rfl (fun p => by cases p <;> first | exact .inr rfl | exact .inl ‹_›) (fun f => ⟨f.1, f.2, f.3, f.4, f.5, f.6, f.7, f.8, f.9, f.10, f.11, f.12⟩) rfl))

theorem execVendorTestNonce_within {p0 : HostPort} (p_fw : Part.fw ∈ g.parts) (p_free : Part.free ∈ g.parts) (h : Within g s u) :
    Leads g s (execVendorTestNonce p0 u) := by
  unfold execVendorTestNonce
  exact onPort_within (fun x1 h2 => (State.vendorNonce_within p_fw p_free h2)) h

theorem State.enterVendorTest_within (p_staged : Part.staged ∈ g.parts) (p_upd : Part.upd ∈ g.parts) (p_mem : Part.mem ∈ g.parts) (p_tier : Part.tier ∈ g.parts) (p_zones : Part.zones ∈ g.parts) (p_store : Part.store ∈ g.parts) (p_fw : Part.fw ∈ g.parts) (h : Within g s u) (k_any : ∀ k, g.keys k := by assumption) (k_ckptDigest : ∀ n, g.keys (Obj.ckptDigest n) := by assumption) (k_ckptHandle : ∀ n, g.keys (Obj.ckptHandle n) := by assumption) (k_ckptState : ∀ n, g.keys (Obj.ckptState n) := by assumption) (k_ckptStep : ∀ n, g.keys (Obj.ckptStep n) := by assumption) (k_moduleState : g.keys Obj.moduleState := by assumption) (k_secState : g.keys Obj.secState := by assumption) (k_szState : ∀ n, g.keys (Obj.szState n) := by assumption) (k_szWp : ∀ n, g.keys (Obj.szWp n) := by assumption) :
    Within g s (State.enterVendorTest u) := by
  unfold State.enterVendorTest
  extract_lets s1 _ _ _ s2 s3
  have h1 : Within g s s1 := Within.foldl (fun _ _ hv => State.wr_within (State.wr_within hv _ _) _ _) h
  have h2 : Within g s s2 := Within.many h1 rfl (fun p => by cases p <;> first | exact .inr rfl | exact .inl ‹_›)
    (fun f => ⟨f.1, f.2, f.3, f.4, Tab.nil_wf _, f.6, Tab.nil_wf _, f.8, f.9, f.10, f.11, f.12⟩)
  exact State.wr_within (State.wr_within (State.raiseKept_within (State.allDefaults_within p_staged p_store (State.dropUntaken_within h2))) _ _) _ _

theorem State.vendorUnlock_within {p1 : HostPort} {token : Bytes} (p_staged : Part.staged ∈ g.parts) (p_upd : Part.upd ∈ g.parts) (p_mem : Part.mem ∈ g.parts) (p_tier : Part.tier ∈ g.parts) (p_zones : Part.zones ∈ g.parts) (p_store : Part.store ∈ g.parts) (p_fw : Part.fw ∈ g.parts) (h : Within g s u) (k_any : ∀ k, g.keys k := by assumption) (k_ckptDigest : ∀ n, g.keys (Obj.ckptDigest n) := by assumption) (k_ckptHandle : ∀ n, g.keys (Obj.ckptHandle n) := by assumption) (k_ckptState : ∀ n, g.keys (Obj.ckptState n) := by assumption) (k_ckptStep : ∀ n, g.keys (Obj.ckptStep n) := by assumption) (k_moduleState : g.keys Obj.moduleState := by assumption) (k_secState : g.keys Obj.secState := by assumption) (k_szState : ∀ n, g.keys (Obj.szState n) := by assumption) (k_szWp : ∀ n, g.keys (Obj.szWp n) := by assumption) :
    Within g s (State.vendorUnlock u p1 token) := by
  unfold State.vendorUnlock
  split
  · exact State.reply_within h
  · extract_lets +onlyGivenNames -underBinder -merge _ s6
    have h7 : Within g s s6 := (Within.setFw p_fw h rfl)
    exact Within.ite (State.reply_within (State.enterVendorTest_within p_staged p_upd p_mem p_tier p_zones p_store p_fw h7)) (State.reply_within h7)

theorem execVendorTestUnlock_within {p0 : HostPort} {token : Bytes} (p_staged : Part.staged ∈ g.parts) (p_upd : Part.upd ∈ g.parts) (p_mem : Part.mem ∈ g.parts) (p_tier : Part.tier ∈ g.parts) (p_zones : Part.zones ∈ g.parts) (p_store : Part.store ∈ g.parts) (p_fw : Part.fw ∈ g.parts) (h : Within g s u) (k_any : ∀ k, g.keys k := by assumption) (k_ckptDigest : ∀ n, g.keys (Obj.ckptDigest n) := by assumption) (k_ckptHandle : ∀ n, g.keys (Obj.ckptHandle n) := by assumption) (k_ckptState : ∀ n, g.keys (Obj.ckptState n) := by assumption) (k_ckptStep : ∀ n, g.keys (Obj.ckptStep n) := by assumption) (k_moduleState : g.keys Obj.moduleState := by assumption) (k_secState : g.keys Obj.secState := by assumption) (k_szState : ∀ n, g.keys (Obj.szState n) := by assumption) (k_szWp : ∀ n, g.keys (Obj.szWp n) := by assumption) :
    Leads g s (execVendorTestUnlock p0 token u) := by
  unfold execVendorTestUnlock
  exact onPort_within (fun x1 h2 => (State.vendorUnlock_within p_staged p_upd p_mem p_tier p_zones p_store p_fw h2)) h

end Sys2Proof.Machine
end

