-- ==== Sys2Proof/Laws/WithinPower.lean ====
section
/-! SUPPORT. What each operation of Machine/Power.lean may change, and that it keeps the form of the state. -/
namespace Sys2Proof.Machine
set_option Elab.async false

variable {g : Scope} {s u : State}

theorem State.setPower_within {f : PowerState → PowerState} (p_power : Part.power ∈ g.parts) (h : Within g s u) :
    Within g s (State.setPower u f) := by
  unfold State.setPower
  exact Within.setPower p_power h

theorem State.inputOvp_within {mv : Nat} (p_standby : Part.standby ∈ g.parts) (p_staged : Part.staged ∈ g.parts) (p_prep : Part.prep ∈ g.parts) (p_bar0 : Part.bar0 ∈ g.parts) (p_cmd : Part.cmd ∈ g.parts) (p_scratch : Part.scratch ∈ g.parts) (p_castMem : Part.castMem ∈ g.parts) (p_tile : Part.tile ∈ g.parts) (p_spans : Part.spans ∈ g.parts) (p_touches : Part.touches ∈ g.parts) (p_upd : Part.upd ∈ g.parts) (p_link : Part.link ∈ g.parts) (p_coll : Part.coll ∈ g.parts) (p_mem : Part.mem ∈ g.parts) (p_tier : Part.tier ∈ g.parts) (p_store : Part.store ∈ g.parts) (p_power : Part.power ∈ g.parts) (p_clock : Part.clock ∈ g.parts) (p_cross : Part.cross ∈ g.parts) (p_fw : Part.fw ∈ g.parts) (p_start : Part.start ∈ g.parts) (p_mirror : Part.mirror ∈ g.parts) (h : Within g s u) (k_any : ∀ k, g.keys k := by assumption) (k_ckptDigest : ∀ n, g.keys (Obj.ckptDigest n) := by assumption) (k_ckptHandle : ∀ n, g.keys (Obj.ckptHandle n) := by assumption) (k_ckptState : ∀ n, g.keys (Obj.ckptState n) := by assumption) (k_ckptStep : ∀ n, g.keys (Obj.ckptStep n) := by assumption) (k_slotState : ∀ n, g.keys (Obj.slotState n) := by assumption) :
    Within g s (State.inputOvp u mv) := by
  unfold State.inputOvp
  exact Within.ite h (by
    extract_lets +onlyGivenNames -underBinder -merge n1
    extract_lets +onlyGivenNames -underBinder -merge _ s2
    have h3 : Within g s s2 := (Within.setDict h rfl id)
    extract_lets +onlyGivenNames -underBinder -merge s4
    have h5 : Within g s s4 := (State.setPower_within p_power (State.lose_within p_staged p_prep p_bar0 p_cmd p_scratch p_castMem p_tile p_spans p_touches p_upd p_link p_coll p_mem p_tier p_store p_power p_clock p_cross p_fw p_start p_mirror h3))
    exact Within.setStandby p_standby h5)

theorem execInputOvp_within {mv : Nat} (p_standby : Part.standby ∈ g.parts) (p_staged : Part.staged ∈ g.parts) (p_prep : Part.prep ∈ g.parts) (p_bar0 : Part.bar0 ∈ g.parts) (p_cmd : Part.cmd ∈ g.parts) (p_scratch : Part.scratch ∈ g.parts) (p_castMem : Part.castMem ∈ g.parts) (p_tile : Part.tile ∈ g.parts) (p_spans : Part.spans ∈ g.parts) (p_touches : Part.touches ∈ g.parts) (p_upd : Part.upd ∈ g.parts) (p_link : Part.link ∈ g.parts) (p_coll : Part.coll ∈ g.parts) (p_mem : Part.mem ∈ g.parts) (p_tier : Part.tier ∈ g.parts) (p_store : Part.store ∈ g.parts) (p_power : Part.power ∈ g.parts) (p_clock : Part.clock ∈ g.parts) (p_cross : Part.cross ∈ g.parts) (p_fw : Part.fw ∈ g.parts) (p_start : Part.start ∈ g.parts) (p_mirror : Part.mirror ∈ g.parts) (h : Within g s u) (k_any : ∀ k, g.keys k := by assumption) (k_ckptDigest : ∀ n, g.keys (Obj.ckptDigest n) := by assumption) (k_ckptHandle : ∀ n, g.keys (Obj.ckptHandle n) := by assumption) (k_ckptState : ∀ n, g.keys (Obj.ckptState n) := by assumption) (k_ckptStep : ∀ n, g.keys (Obj.ckptStep n) := by assumption) (k_slotState : ∀ n, g.keys (Obj.slotState n) := by assumption) :
    Leads g s (execInputOvp mv u) := by
  unfold execInputOvp
  exact Leads.next (State.inputOvp_within p_standby p_staged p_prep p_bar0 p_cmd p_scratch p_castMem p_tile p_spans p_touches p_upd p_link p_coll p_mem p_tier p_store p_power p_clock p_cross p_fw p_start p_mirror h)

theorem execInputOvpRelease_within {mv : Nat} (p_power : Part.power ∈ g.parts) (h : Within g s u) :
    Leads g s (execInputOvpRelease mv u) := by
  unfold execInputOvpRelease
  exact Leads.next (Within.ite (State.setPower_within p_power h) h)

theorem execInputHigh_within {mv : Nat} (h : Within g s u) :
    Leads g s (execInputHigh mv u) := by
  unfold execInputHigh
  exact Leads.next (Within.ite (State.raiseOnce_within h) h)

theorem execInputLow_within {mv : Nat} (h : Within g s u) :
    Leads g s (execInputLow mv u) := by
  unfold execInputLow
  exact Leads.next (Within.ite (State.raiseOnce_within h) h)

theorem execInputLowPark_within {mv : Nat} (p_link : Part.link ∈ g.parts) (p_coll : Part.coll ∈ g.parts) (p_tier : Part.tier ∈ g.parts) (p_power : Part.power ∈ g.parts) (p_clock : Part.clock ∈ g.parts) (p_cross : Part.cross ∈ g.parts) (p_start : Part.start ∈ g.parts) (h : Within g s u) (k_collBytesTx : g.keys Obj.collBytesTx := by assumption) (k_collResends : g.keys Obj.collResends := by assumption) (k_duty : g.keys Obj.duty := by assumption) (k_flitsTx : ∀ n, g.keys (Obj.flitsTx n) := by assumption) (k_idResult : ∀ n, g.keys (Obj.idResult n) := by assumption) (k_logicalPlane : ∀ n, g.keys (Obj.logicalPlane n) := by assumption) (k_opInForce : g.keys Obj.opInForce := by assumption) (k_parks : g.keys Obj.parks := by assumption) (k_planePort : ∀ n, g.keys (Obj.planePort n) := by assumption) (k_portPowerState : ∀ n, g.keys (Obj.portPowerState n) := by assumption) (k_portState : ∀ n, g.keys (Obj.portState n) := by assumption) (k_powerState : g.keys Obj.powerState := by assumption) (k_remapCount : g.keys Obj.remapCount := by assumption) (k_vtrimMv : g.keys Obj.vtrimMv := by assumption) :
    Leads g s (execInputLowPark mv u) := by
  unfold execInputLowPark
  exact Leads.next (Within.ite (State.repower_within p_link p_coll p_tier p_power p_clock p_cross p_start (State.setPower_within p_power (State.raiseOnce_within h))) h)

theorem execInputLowResume_within {mv : Nat} (p_link : Part.link ∈ g.parts) (p_coll : Part.coll ∈ g.parts) (p_tier : Part.tier ∈ g.parts) (p_power : Part.power ∈ g.parts) (p_clock : Part.clock ∈ g.parts) (p_cross : Part.cross ∈ g.parts) (p_start : Part.start ∈ g.parts) (h : Within g s u) (k_collBytesTx : g.keys Obj.collBytesTx := by assumption) (k_collResends : g.keys Obj.collResends := by assumption) (k_duty : g.keys Obj.duty := by assumption) (k_flitsTx : ∀ n, g.keys (Obj.flitsTx n) := by assumption) (k_idResult : ∀ n, g.keys (Obj.idResult n) := by assumption) (k_logicalPlane : ∀ n, g.keys (Obj.logicalPlane n) := by assumption) (k_opInForce : g.keys Obj.opInForce := by assumption) (k_parks : g.keys Obj.parks := by assumption) (k_planePort : ∀ n, g.keys (Obj.planePort n) := by assumption) (k_portPowerState : ∀ n, g.keys (Obj.portPowerState n) := by assumption) (k_portState : ∀ n, g.keys (Obj.portState n) := by assumption) (k_powerState : g.keys Obj.powerState := by assumption) (k_remapCount : g.keys Obj.remapCount := by assumption) (k_vtrimMv : g.keys Obj.vtrimMv := by assumption) :
    Leads g s (execInputLowResume mv u) := by
  unfold execInputLowResume
  exact Leads.next (Within.ite (State.repower_within p_link p_coll p_tier p_power p_clock p_cross p_start (State.setPower_within p_power (State.endEpisode_within h))) h)

theorem State.powerFail_within {mv : Nat} (p_standby : Part.standby ∈ g.parts) (p_staged : Part.staged ∈ g.parts) (p_prep : Part.prep ∈ g.parts) (p_bar0 : Part.bar0 ∈ g.parts) (p_cmd : Part.cmd ∈ g.parts) (p_scratch : Part.scratch ∈ g.parts) (p_castMem : Part.castMem ∈ g.parts) (p_tile : Part.tile ∈ g.parts) (p_spans : Part.spans ∈ g.parts) (p_touches : Part.touches ∈ g.parts) (p_upd : Part.upd ∈ g.parts) (p_link : Part.link ∈ g.parts) (p_coll : Part.coll ∈ g.parts) (p_mem : Part.mem ∈ g.parts) (p_tier : Part.tier ∈ g.parts) (p_store : Part.store ∈ g.parts) (p_power : Part.power ∈ g.parts) (p_clock : Part.clock ∈ g.parts) (p_cross : Part.cross ∈ g.parts) (p_fw : Part.fw ∈ g.parts) (p_start : Part.start ∈ g.parts) (p_mirror : Part.mirror ∈ g.parts) (h : Within g s u) (k_any : ∀ k, g.keys k := by assumption) (k_ckptDigest : ∀ n, g.keys (Obj.ckptDigest n) := by assumption) (k_ckptHandle : ∀ n, g.keys (Obj.ckptHandle n) := by assumption) (k_ckptState : ∀ n, g.keys (Obj.ckptState n) := by assumption) (k_ckptStep : ∀ n, g.keys (Obj.ckptStep n) := by assumption) (k_slotState : ∀ n, g.keys (Obj.slotState n) := by assumption) :
    Within g s (State.powerFail u mv) := by
  unfold State.powerFail
  exact Within.ite h (by
    extract_lets +onlyGivenNames -underBinder -merge s1
    have h2 : Within g s s1 := (State.lose_within p_staged p_prep p_bar0 p_cmd p_scratch p_castMem p_tile p_spans p_touches p_upd p_link p_coll p_mem p_tier p_store p_power p_clock p_cross p_fw p_start p_mirror (State.raiseKept_within h))
    exact Within.setStandby p_standby h2)

theorem execPowerFail_within {mv : Nat} (p_standby : Part.standby ∈ g.parts) (p_staged : Part.staged ∈ g.parts) (p_prep : Part.prep ∈ g.parts) (p_bar0 : Part.bar0 ∈ g.parts) (p_cmd : Part.cmd ∈ g.parts) (p_scratch : Part.scratch ∈ g.parts) (p_castMem : Part.castMem ∈ g.parts) (p_tile : Part.tile ∈ g.parts) (p_spans : Part.spans ∈ g.parts) (p_touches : Part.touches ∈ g.parts) (p_upd : Part.upd ∈ g.parts) (p_link : Part.link ∈ g.parts) (p_coll : Part.coll ∈ g.parts) (p_mem : Part.mem ∈ g.parts) (p_tier : Part.tier ∈ g.parts) (p_store : Part.store ∈ g.parts) (p_power : Part.power ∈ g.parts) (p_clock : Part.clock ∈ g.parts) (p_cross : Part.cross ∈ g.parts) (p_fw : Part.fw ∈ g.parts) (p_start : Part.start ∈ g.parts) (p_mirror : Part.mirror ∈ g.parts) (h : Within g s u) (k_any : ∀ k, g.keys k := by assumption) (k_ckptDigest : ∀ n, g.keys (Obj.ckptDigest n) := by assumption) (k_ckptHandle : ∀ n, g.keys (Obj.ckptHandle n) := by assumption) (k_ckptState : ∀ n, g.keys (Obj.ckptState n) := by assumption) (k_ckptStep : ∀ n, g.keys (Obj.ckptStep n) := by assumption) (k_slotState : ∀ n, g.keys (Obj.slotState n) := by assumption) :
    Leads g s (execPowerFail mv u) := by
  unfold execPowerFail
  exact Leads.next (State.powerFail_within p_standby p_staged p_prep p_bar0 p_cmd p_scratch p_castMem p_tile p_spans p_touches p_upd p_link p_coll p_mem p_tier p_store p_power p_clock p_cross p_fw p_start p_mirror h)

theorem State.takeDemand_within {d : Nat} {e0 : Nat} {e1 : Nat} {e2 : Nat} {perOp : List Nat} (p_power : Part.power ∈ g.parts) (h : Within g s u) (k_requestW : ∀ n, g.keys (Obj.requestW n) := by assumption) :
    Within g s (State.takeDemand u d e0 e1 e2 perOp) := by
  unfold State.takeDemand
  exact Within.ite h (by
    extract_lets +onlyGivenNames -underBinder -merge n1
    exact State.wr_within (State.setPower_within p_power h) _ _)

theorem execBellowsDemand_within {d : Fin 5} {e0 : Nat} {e1 : Nat} {e2 : Nat} {perOp : List Nat} (p_power : Part.power ∈ g.parts) (h : Within g s u) (k_requestW : ∀ n, g.keys (Obj.requestW n) := by assumption) :
    Leads g s (execBellowsDemand d e0 e1 e2 perOp u) := by
  unfold execBellowsDemand
  exact Leads.next (State.takeDemand_within p_power h)

theorem State.bellowsGrant_within (p_power : Part.power ∈ g.parts) (p_clock : Part.clock ∈ g.parts) (h : Within g s u) (k_capInForceW : g.keys Obj.capInForceW := by assumption) (k_capLimiter : g.keys Obj.capLimiter := by assumption) :
    Within g s (State.bellowsGrant u) := by
  unfold State.bellowsGrant
  exact Within.ite h (by
    split
    · extract_lets +onlyGivenNames -underBinder -merge n5
      extract_lets +onlyGivenNames -underBinder -merge n6
      extract_lets +onlyGivenNames -underBinder -merge n7
      extract_lets +onlyGivenNames -underBinder -merge n8
      extract_lets +onlyGivenNames -underBinder -merge n9
      extract_lets +onlyGivenNames -underBinder -merge n10
      extract_lets +onlyGivenNames -underBinder -merge _ s11
      have h12 : Within g s s11 := (Within.setClock p_clock h)
      exact State.setPower_within p_power (State.wr_within (State.wr_within h12 _ _) _ _))

theorem execBellowsGrant_within (p_power : Part.power ∈ g.parts) (p_clock : Part.clock ∈ g.parts) (h : Within g s u) (k_capInForceW : g.keys Obj.capInForceW := by assumption) (k_capLimiter : g.keys Obj.capLimiter := by assumption) :
    Leads g s (execBellowsGrant u) := by
  unfold execBellowsGrant
  exact Leads.next (State.bellowsGrant_within p_power p_clock h)

theorem State.account_within (p_power : Part.power ∈ g.parts) (h : Within g s u) (k_e2DeferredMs : g.keys Obj.e2DeferredMs := by assumption) (k_followingMs : g.keys Obj.followingMs := by assumption) (k_throttledMs : g.keys Obj.throttledMs := by assumption) :
    Within g s (State.account u) := by
  unfold State.account
  extract_lets +onlyGivenNames -underBinder -merge n1
  extract_lets +onlyGivenNames -underBinder -merge n2
  extract_lets +onlyGivenNames -underBinder -merge n3
  extract_lets +onlyGivenNames -underBinder -merge n4
  extract_lets +onlyGivenNames -underBinder -merge n5
  extract_lets +onlyGivenNames -underBinder -merge s6
  have h7 : Within g s s6 := (State.count_within (State.count_within (State.count_within h)))
  exact State.setPower_within p_power h7

theorem State.railTo_within {op : Nat} {d : Nat} (p_power : Part.power ∈ g.parts) (h : Within g s u) (k_vtrimMv : g.keys Obj.vtrimMv := by assumption) :
    Within g s (State.railTo u op d) := by
  unfold State.railTo
  exact State.setPower_within p_power (State.turnRail_within p_power (State.wr_within h _ _))

theorem State.opTo_within {op : Nat} (p_power : Part.power ∈ g.parts) (p_clock : Part.clock ∈ g.parts) (h : Within g s u) (k_opInForce : g.keys Obj.opInForce := by assumption) (k_vtrimMv : g.keys Obj.vtrimMv := by assumption) :
    Within g s (State.opTo u op) := by
  unfold State.opTo
  extract_lets +onlyGivenNames -underBinder -merge n1
  extract_lets +onlyGivenNames -underBinder -merge n2
  have h5 : ∀ v0, Within g s v0 → Within g s (n2 v0) := by
    intro x3 h4
    unfold n2
    exact State.railTo_within p_power (State.clockTo_within p_clock h4)
  split
  · exact Within.ite h (Within.ite (h5 _ h) (State.railTo_within p_power h))
  · exact Within.ite (h5 _ h) (Within.ite (State.railTo_within p_power h) h)

theorem State.opDone_within (p_power : Part.power ∈ g.parts) (p_clock : Part.clock ∈ g.parts) (h : Within g s u) (k_e2DeferredMs : g.keys Obj.e2DeferredMs := by assumption) (k_followingMs : g.keys Obj.followingMs := by assumption) (k_opInForce : g.keys Obj.opInForce := by assumption) (k_throttledMs : g.keys Obj.throttledMs := by assumption) :
    Within g s (State.opDone u) := by
  unfold State.opDone
  split
  · exact h
  · exact Within.ite h (by
      extract_lets +onlyGivenNames -underBinder -merge s6
      have h7 : Within g s s6 := (State.account_within p_power h)
      extract_lets +onlyGivenNames -underBinder -merge s8
      have h9 : Within g s s8 := (State.setPower_within p_power (State.clockTo_within p_clock h7))
      exact Within.setClock p_clock h9)

theorem execOpChangeDone_within (p_power : Part.power ∈ g.parts) (p_clock : Part.clock ∈ g.parts) (h : Within g s u) (k_e2DeferredMs : g.keys Obj.e2DeferredMs := by assumption) (k_followingMs : g.keys Obj.followingMs := by assumption) (k_opInForce : g.keys Obj.opInForce := by assumption) (k_throttledMs : g.keys Obj.throttledMs := by assumption) :
    Leads g s (execOpChangeDone u) := by
  unfold execOpChangeDone
  exact Leads.next (State.opDone_within p_power p_clock h)

theorem State.capNote_within {park : Bool} (h : Within g s u) :
    Within g s (State.capNote u park) := by
  unfold State.capNote
  exact Within.ite (State.raiseOnce_within h) (State.endEpisode_within h)

theorem State.applyGrant_within {g1 : Grant} (p_link : Part.link ∈ g.parts) (p_coll : Part.coll ∈ g.parts) (p_tier : Part.tier ∈ g.parts) (p_power : Part.power ∈ g.parts) (p_clock : Part.clock ∈ g.parts) (p_cross : Part.cross ∈ g.parts) (p_start : Part.start ∈ g.parts) (h : Within g s u) (k_ceilingBudget : g.keys Obj.ceilingBudget := by assumption) (k_collBytesTx : g.keys Obj.collBytesTx := by assumption) (k_collResends : g.keys Obj.collResends := by assumption) (k_deferred : g.keys Obj.deferred := by assumption) (k_duty : g.keys Obj.duty := by assumption) (k_e2DeferredMs : g.keys Obj.e2DeferredMs := by assumption) (k_flitsTx : ∀ n, g.keys (Obj.flitsTx n) := by assumption) (k_followingMs : g.keys Obj.followingMs := by assumption) (k_grantW : ∀ n, g.keys (Obj.grantW n) := by assumption) (k_idResult : ∀ n, g.keys (Obj.idResult n) := by assumption) (k_logicalPlane : ∀ n, g.keys (Obj.logicalPlane n) := by assumption) (k_opInForce : g.keys Obj.opInForce := by assumption) (k_parks : g.keys Obj.parks := by assumption) (k_planePort : ∀ n, g.keys (Obj.planePort n) := by assumption) (k_portPowerState : ∀ n, g.keys (Obj.portPowerState n) := by assumption) (k_portState : ∀ n, g.keys (Obj.portState n) := by assumption) (k_powerState : g.keys Obj.powerState := by assumption) (k_remapCount : g.keys Obj.remapCount := by assumption) (k_throttledMs : g.keys Obj.throttledMs := by assumption) (k_vtrimMv : g.keys Obj.vtrimMv := by assumption) :
    Within g s (State.applyGrant u g1) := by
  unfold State.applyGrant
  extract_lets +onlyGivenNames -underBinder -merge s1
  have h2 : Within g s s1 := (State.repower_within p_link p_coll p_tier p_power p_clock p_cross p_start (State.setPower_within p_power (State.capNote_within (State.account_within p_power h))))
  extract_lets +onlyGivenNames -underBinder -merge s3
  have h4 : Within g s s3 := (Within.foldl (fun x5 x6 h7 => (State.wr_within h7 _ _)) h2)
  extract_lets +onlyGivenNames -underBinder -merge s8
  have h9 : Within g s s8 := (State.opTo_within p_power p_clock (State.wr_within (State.wr_within (State.wr_within h4 _ _) _ _) _ _))
  extract_lets +onlyGivenNames -underBinder -merge s10
  have h11 : Within g s s10 := (Within.ite (State.endEpisode_within h9) h9)
  exact State.repower_within p_link p_coll p_tier p_power p_clock p_cross p_start (State.setPower_within p_power h11)

theorem State.grantTake_within (p_link : Part.link ∈ g.parts) (p_coll : Part.coll ∈ g.parts) (p_tier : Part.tier ∈ g.parts) (p_power : Part.power ∈ g.parts) (p_clock : Part.clock ∈ g.parts) (p_cross : Part.cross ∈ g.parts) (p_start : Part.start ∈ g.parts) (h : Within g s u) (k_ceilingBudget : g.keys Obj.ceilingBudget := by assumption) (k_collBytesTx : g.keys Obj.collBytesTx := by assumption) (k_collResends : g.keys Obj.collResends := by assumption) (k_deferred : g.keys Obj.deferred := by assumption) (k_duty : g.keys Obj.duty := by assumption) (k_e2DeferredMs : g.keys Obj.e2DeferredMs := by assumption) (k_flitsTx : ∀ n, g.keys (Obj.flitsTx n) := by assumption) (k_followingMs : g.keys Obj.followingMs := by assumption) (k_grantW : ∀ n, g.keys (Obj.grantW n) := by assumption) (k_idResult : ∀ n, g.keys (Obj.idResult n) := by assumption) (k_logicalPlane : ∀ n, g.keys (Obj.logicalPlane n) := by assumption) (k_opInForce : g.keys Obj.opInForce := by assumption) (k_parks : g.keys Obj.parks := by assumption) (k_planePort : ∀ n, g.keys (Obj.planePort n) := by assumption) (k_portPowerState : ∀ n, g.keys (Obj.portPowerState n) := by assumption) (k_portState : ∀ n, g.keys (Obj.portState n) := by assumption) (k_powerState : g.keys Obj.powerState := by assumption) (k_remapCount : g.keys Obj.remapCount := by assumption) (k_throttledMs : g.keys Obj.throttledMs := by assumption) (k_vtrimMv : g.keys Obj.vtrimMv := by assumption) :
    Within g s (State.grantTake u) := by
  unfold State.grantTake
  split
  · exact h
  · exact Within.ite h (State.applyGrant_within p_link p_coll p_tier p_power p_clock p_cross p_start h)

theorem execGrantTakeEffect_within (p_link : Part.link ∈ g.parts) (p_coll : Part.coll ∈ g.parts) (p_tier : Part.tier ∈ g.parts) (p_power : Part.power ∈ g.parts) (p_clock : Part.clock ∈ g.parts) (p_cross : Part.cross ∈ g.parts) (p_start : Part.start ∈ g.parts) (h : Within g s u) (k_ceilingBudget : g.keys Obj.ceilingBudget := by assumption) (k_collBytesTx : g.keys Obj.collBytesTx := by assumption) (k_collResends : g.keys Obj.collResends := by assumption) (k_deferred : g.keys Obj.deferred := by assumption) (k_duty : g.keys Obj.duty := by assumption) (k_e2DeferredMs : g.keys Obj.e2DeferredMs := by assumption) (k_flitsTx : ∀ n, g.keys (Obj.flitsTx n) := by assumption) (k_followingMs : g.keys Obj.followingMs := by assumption) (k_grantW : ∀ n, g.keys (Obj.grantW n) := by assumption) (k_idResult : ∀ n, g.keys (Obj.idResult n) := by assumption) (k_logicalPlane : ∀ n, g.keys (Obj.logicalPlane n) := by assumption) (k_opInForce : g.keys Obj.opInForce := by assumption) (k_parks : g.keys Obj.parks := by assumption) (k_planePort : ∀ n, g.keys (Obj.planePort n) := by assumption) (k_portPowerState : ∀ n, g.keys (Obj.portPowerState n) := by assumption) (k_portState : ∀ n, g.keys (Obj.portState n) := by assumption) (k_powerState : g.keys Obj.powerState := by assumption) (k_remapCount : g.keys Obj.remapCount := by assumption) (k_throttledMs : g.keys Obj.throttledMs := by assumption) (k_vtrimMv : g.keys Obj.vtrimMv := by assumption) :
    Leads g s (execGrantTakeEffect u) := by
  unfold execGrantTakeEffect
  exact Leads.next (State.grantTake_within p_link p_coll p_tier p_power p_clock p_cross p_start h)

theorem State.bellowsTimeout_within {d : Nat} (p_power : Part.power ∈ g.parts) (h : Within g s u) :
    Within g s (State.bellowsTimeout u d) := by
  unfold State.bellowsTimeout
  extract_lets +onlyGivenNames -underBinder -merge n1
  exact Within.ite h (State.raise_within (State.setPower_within p_power h))

theorem execBellowsTimeout_within {d : Fin 5} (p_power : Part.power ∈ g.parts) (h : Within g s u) :
    Leads g s (execBellowsTimeout d u) := by
  unfold execBellowsTimeout
  exact Leads.next (State.bellowsTimeout_within p_power h)

theorem State.bellowsRestart_within (p_link : Part.link ∈ g.parts) (p_coll : Part.coll ∈ g.parts) (p_tier : Part.tier ∈ g.parts) (p_power : Part.power ∈ g.parts) (p_clock : Part.clock ∈ g.parts) (p_cross : Part.cross ∈ g.parts) (p_start : Part.start ∈ g.parts) (h : Within g s u) (k_ceilingBudget : g.keys Obj.ceilingBudget := by assumption) (k_collBytesTx : g.keys Obj.collBytesTx := by assumption) (k_collResends : g.keys Obj.collResends := by assumption) (k_deferred : g.keys Obj.deferred := by assumption) (k_duty : g.keys Obj.duty := by assumption) (k_e2DeferredMs : g.keys Obj.e2DeferredMs := by assumption) (k_flitsTx : ∀ n, g.keys (Obj.flitsTx n) := by assumption) (k_followingMs : g.keys Obj.followingMs := by assumption) (k_grantW : ∀ n, g.keys (Obj.grantW n) := by assumption) (k_idResult : ∀ n, g.keys (Obj.idResult n) := by assumption) (k_logicalPlane : ∀ n, g.keys (Obj.logicalPlane n) := by assumption) (k_opInForce : g.keys Obj.opInForce := by assumption) (k_parks : g.keys Obj.parks := by assumption) (k_planePort : ∀ n, g.keys (Obj.planePort n) := by assumption) (k_portPowerState : ∀ n, g.keys (Obj.portPowerState n) := by assumption) (k_portState : ∀ n, g.keys (Obj.portState n) := by assumption) (k_powerState : g.keys Obj.powerState := by assumption) (k_remapCount : g.keys Obj.remapCount := by assumption) (k_throttledMs : g.keys Obj.throttledMs := by assumption) (k_vtrimMv : g.keys Obj.vtrimMv := by assumption) :
    Within g s (State.bellowsRestart u) := by
  unfold State.bellowsRestart
  exact Within.ite h (by
    split
    · extract_lets +onlyGivenNames -underBinder -merge _ n5
      exact State.raise_within (State.grantTake_within p_link p_coll p_tier p_power p_clock p_cross p_start (State.setPower_within p_power h)))

theorem execBellowsRestart_within (p_link : Part.link ∈ g.parts) (p_coll : Part.coll ∈ g.parts) (p_tier : Part.tier ∈ g.parts) (p_power : Part.power ∈ g.parts) (p_clock : Part.clock ∈ g.parts) (p_cross : Part.cross ∈ g.parts) (p_start : Part.start ∈ g.parts) (h : Within g s u) (k_ceilingBudget : g.keys Obj.ceilingBudget := by assumption) (k_collBytesTx : g.keys Obj.collBytesTx := by assumption) (k_collResends : g.keys Obj.collResends := by assumption) (k_deferred : g.keys Obj.deferred := by assumption) (k_duty : g.keys Obj.duty := by assumption) (k_e2DeferredMs : g.keys Obj.e2DeferredMs := by assumption) (k_flitsTx : ∀ n, g.keys (Obj.flitsTx n) := by assumption) (k_followingMs : g.keys Obj.followingMs := by assumption) (k_grantW : ∀ n, g.keys (Obj.grantW n) := by assumption) (k_idResult : ∀ n, g.keys (Obj.idResult n) := by assumption) (k_logicalPlane : ∀ n, g.keys (Obj.logicalPlane n) := by assumption) (k_opInForce : g.keys Obj.opInForce := by assumption) (k_parks : g.keys Obj.parks := by assumption) (k_planePort : ∀ n, g.keys (Obj.planePort n) := by assumption) (k_portPowerState : ∀ n, g.keys (Obj.portPowerState n) := by assumption) (k_portState : ∀ n, g.keys (Obj.portState n) := by assumption) (k_powerState : g.keys Obj.powerState := by assumption) (k_remapCount : g.keys Obj.remapCount := by assumption) (k_throttledMs : g.keys Obj.throttledMs := by assumption) (k_vtrimMv : g.keys Obj.vtrimMv := by assumption) :
    Leads g s (execBellowsRestart u) := by
  unfold execBellowsRestart
  exact Leads.next (State.bellowsRestart_within p_link p_coll p_tier p_power p_clock p_cross p_start h)

theorem State.starved_within (h : Within g s u) :
    Within g s (State.starved u) := by
  unfold State.starved
  split
  · exact State.endEpisode_within h
  · exact Within.ite (State.raiseOnce_within h) (State.endEpisode_within h)

theorem execBackgroundStarved_within (h : Within g s u) :
    Leads g s (execBackgroundStarved u) := by
  unfold execBackgroundStarved
  exact Leads.next (State.starved_within h)

theorem State.measure_within {xs : List (Nat × Nat)} (p_power : Part.power ∈ g.parts) (h : Within g s u) (k_energyJ : g.keys Obj.energyJ := by assumption) (k_iinMa : g.keys Obj.iinMa := by assumption) (k_pinAvgW : g.keys Obj.pinAvgW := by assumption) (k_pinPeakW : g.keys Obj.pinPeakW := by assumption) (k_pinW : g.keys Obj.pinW := by assumption) (k_vinMv : g.keys Obj.vinMv := by assumption) :
    Within g s (State.measure u xs) := by
  unfold State.measure
  split
  · extract_lets +onlyGivenNames -underBinder -merge n6
    extract_lets +onlyGivenNames -underBinder -merge n7
    extract_lets +onlyGivenNames -underBinder -merge n8
    extract_lets +onlyGivenNames -underBinder -merge s9
    have h10 : Within g s s9 := (State.wr_within (State.wr_within (State.wr_within (State.wr_within (State.wr_within h _ _) _ _) _ _) _ _) _ _)
    extract_lets +onlyGivenNames -underBinder -merge s11
    have h12 : Within g s s11 := (State.wr_within h10 _ _)
    extract_lets +onlyGivenNames -underBinder -merge s13
    have h14 : Within g s s13 := (State.setPower_within p_power h12)
    extract_lets +onlyGivenNames -underBinder -merge s15
    have h16 : Within g s s15 := (Within.ite h14 (State.endEpisode_within h14))
    exact Within.ite h16 (State.endEpisode_within h16)

theorem State.estimate_within {xs : List (Nat × Nat)} {a : Activity} (p_power : Part.power ∈ g.parts) (h : Within g s u) (k_energyJ : g.keys Obj.energyJ := by assumption) (k_estErrorW : g.keys Obj.estErrorW := by assumption) (k_estGain : g.keys Obj.estGain := by assumption) (k_iinMa : g.keys Obj.iinMa := by assumption) (k_pinAvgW : g.keys Obj.pinAvgW := by assumption) (k_pinPeakW : g.keys Obj.pinPeakW := by assumption) (k_pinW : g.keys Obj.pinW := by assumption) (k_vinMv : g.keys Obj.vinMv := by assumption) :
    Within g s (State.estimate u xs a) := by
  unfold State.estimate
  exact Within.ite (Within.ite (State.measure_within p_power h) h) (by
    extract_lets +onlyGivenNames -underBinder -merge n1
    extract_lets +onlyGivenNames -underBinder -merge n2
    extract_lets +onlyGivenNames -underBinder -merge n3
    extract_lets +onlyGivenNames -underBinder -merge n4
    extract_lets +onlyGivenNames -underBinder -merge s5
    have h6 : Within g s s5 := (State.wrIn_within (State.measure_within p_power h))
    extract_lets +onlyGivenNames -underBinder -merge s7
    have h8 : Within g s s7 := (State.setPower_within p_power h6)
    exact Within.ite h8 (by
      split
      · extract_lets +onlyGivenNames -underBinder -merge s14
        have h15 : Within g s s14 := (State.wr_within (State.setPower_within p_power h8) _ _)
        exact Within.ite (State.raiseOnce_within h15) (State.endEpisode_within h15)))

theorem execEstimatorUpdate_within {vin : List Nat} {iin : List Nat} {act : Activity} (p_power : Part.power ∈ g.parts) (h : Within g s u) (k_energyJ : g.keys Obj.energyJ := by assumption) (k_estErrorW : g.keys Obj.estErrorW := by assumption) (k_estGain : g.keys Obj.estGain := by assumption) (k_iinMa : g.keys Obj.iinMa := by assumption) (k_pinAvgW : g.keys Obj.pinAvgW := by assumption) (k_pinPeakW : g.keys Obj.pinPeakW := by assumption) (k_pinW : g.keys Obj.pinW := by assumption) (k_vinMv : g.keys Obj.vinMv := by assumption) :
    Leads g s (execEstimatorUpdate vin iin act u) := by
  unfold execEstimatorUpdate
  exact Leads.next (State.estimate_within p_power h)

theorem State.capCorrection_within (p_power : Part.power ∈ g.parts) (h : Within g s u) :
    Within g s (State.capCorrection u) := by
  unfold State.capCorrection
  extract_lets +onlyGivenNames -underBinder -merge n1
  extract_lets +onlyGivenNames -underBinder -merge n2
  extract_lets +onlyGivenNames -underBinder -merge n3
  exact State.setPower_within p_power h

theorem execCapCorrection_within (p_power : Part.power ∈ g.parts) (h : Within g s u) :
    Leads g s (execCapCorrection u) := by
  unfold execCapCorrection
  exact Leads.next (State.capCorrection_within p_power h)

theorem State.paceCeiling_within (p_power : Part.power ∈ g.parts) (h : Within g s u) (k_ceilingPace : g.keys Obj.ceilingPace := by assumption) (k_e2DeferredMs : g.keys Obj.e2DeferredMs := by assumption) (k_followingMs : g.keys Obj.followingMs := by assumption) (k_paceSource : g.keys Obj.paceSource := by assumption) (k_throttledMs : g.keys Obj.throttledMs := by assumption) :
    Within g s (State.paceCeiling u) := by
  unfold State.paceCeiling
  extract_lets +onlyGivenNames -underBinder -merge s1
  have h2 : Within g s s1 := (State.account_within p_power h)
  extract_lets +onlyGivenNames -underBinder -merge n3
  extract_lets +onlyGivenNames -underBinder -merge n4
  split
  · exact State.wr_within (State.wr_within h2 _ _) _ _
  · extract_lets +onlyGivenNames -underBinder -merge n11
    extract_lets +onlyGivenNames -underBinder -merge n12
    exact State.wr_within (State.wr_within h2 _ _) _ _

theorem execPaceCeilingUpdate_within (p_power : Part.power ∈ g.parts) (h : Within g s u) (k_ceilingPace : g.keys Obj.ceilingPace := by assumption) (k_e2DeferredMs : g.keys Obj.e2DeferredMs := by assumption) (k_followingMs : g.keys Obj.followingMs := by assumption) (k_paceSource : g.keys Obj.paceSource := by assumption) (k_throttledMs : g.keys Obj.throttledMs := by assumption) :
    Leads g s (execPaceCeilingUpdate u) := by
  unfold execPaceCeilingUpdate
  exact Leads.next (State.paceCeiling_within p_power h)

theorem State.setSensor_within {k : Nat} {x : Sensor} (p_power : Part.power ∈ g.parts) (h : Within g s u) :
    Within g s (State.setSensor u k x) := by
  unfold State.setSensor
  exact State.setPower_within p_power h

theorem State.setPair_within {j : Nat} {x : PairState} (p_power : Part.power ∈ g.parts) (h : Within g s u) :
    Within g s (State.setPair u j x) := by
  unfold State.setPair
  exact State.setPower_within p_power h

theorem State.reading_within {k : Nat} {v : Int} (p_power : Part.power ∈ g.parts) (h : Within g s u) (k_sensorDiscards : g.keys Obj.sensorDiscards := by assumption) (k_sensorRaw : ∀ n, g.keys (Obj.sensorRaw n) := by assumption) :
    Within g s (State.reading u k v) := by
  unfold State.reading
  extract_lets +onlyGivenNames -underBinder -merge n1
  extract_lets +onlyGivenNames -underBinder -merge s2
  have h3 : Within g s s2 := (State.wrIn_within h)
  exact Within.ite (State.setSensor_within p_power (State.count_within h3)) (Within.ite (State.setSensor_within p_power h3) (State.setSensor_within p_power h3))

theorem State.setPairObj_within {j : Nat} {v : Int} {st : Nat} (h : Within g s u) (k_pairStatus : ∀ n, g.keys (Obj.pairStatus n) := by assumption) (k_pairValue : ∀ n, g.keys (Obj.pairValue n) := by assumption) :
    Within g s (State.setPairObj u j v st) := by
  unfold State.setPairObj
  exact State.wr_within (State.wrIn_within h) _ _

theorem State.pairBoth_within {j : Nat} {a : Int} {b : Int} (p_power : Part.power ∈ g.parts) (h : Within g s u) (k_pairStatus : ∀ n, g.keys (Obj.pairStatus n) := by assumption) (k_pairValue : ∀ n, g.keys (Obj.pairValue n) := by assumption) :
    Within g s (State.pairBoth u j a b) := by
  unfold State.pairBoth
  extract_lets +onlyGivenNames -underBinder -merge n1
  extract_lets +onlyGivenNames -underBinder -merge n2
  extract_lets +onlyGivenNames -underBinder -merge n3
  extract_lets +onlyGivenNames -underBinder -merge n4
  extract_lets +onlyGivenNames -underBinder -merge n5
  extract_lets +onlyGivenNames -underBinder -merge s6
  have h7 : Within g s s6 := (State.setPair_within p_power h)
  extract_lets +onlyGivenNames -underBinder -merge s8
  have h9 : Within g s s8 := (Within.ite h7 (State.endEpisode_within h7))
  extract_lets +onlyGivenNames -underBinder -merge s10
  have h11 : Within g s s10 := (Within.ite (State.endEpisode_within h9) h9)
  exact Within.ite (State.setPairObj_within h11) (Within.ite (State.setPairObj_within h11) (State.setPairObj_within (State.raiseOnce_within h11)))

theorem State.unpaired_within {j : Nat} (p_power : Part.power ∈ g.parts) (h : Within g s u) :
    Within g s (State.unpaired u j) := by
  unfold State.unpaired
  exact State.setPair_within p_power h

theorem State.formPair_within {j : Nat} (p_power : Part.power ∈ g.parts) (h : Within g s u) (k_pairStatus : ∀ n, g.keys (Obj.pairStatus n) := by assumption) (k_pairValue : ∀ n, g.keys (Obj.pairValue n) := by assumption) :
    Within g s (State.formPair u j) := by
  unfold State.formPair
  extract_lets +onlyGivenNames -underBinder -merge n1
  split
  · exact State.pairBoth_within p_power h
  · exact State.setPairObj_within (State.raiseOnce_within (State.unpaired_within p_power h))
  · exact State.setPairObj_within (State.raiseOnce_within (State.unpaired_within p_power h))
  · extract_lets +onlyGivenNames -underBinder -merge n22
    exact State.setPairObj_within (State.raiseOnce_within (State.unpaired_within p_power h))

theorem State.thermalNow_within (p_link : Part.link ∈ g.parts) (p_coll : Part.coll ∈ g.parts) (p_tier : Part.tier ∈ g.parts) (p_power : Part.power ∈ g.parts) (p_clock : Part.clock ∈ g.parts) (p_cross : Part.cross ∈ g.parts) (p_start : Part.start ∈ g.parts) (h : Within g s u) (k_ceilingThermal : g.keys Obj.ceilingThermal := by assumption) (k_collBytesTx : g.keys Obj.collBytesTx := by assumption) (k_collResends : g.keys Obj.collResends := by assumption) (k_duty : g.keys Obj.duty := by assumption) (k_e2DeferredMs : g.keys Obj.e2DeferredMs := by assumption) (k_flitsTx : ∀ n, g.keys (Obj.flitsTx n) := by assumption) (k_followingMs : g.keys Obj.followingMs := by assumption) (k_idResult : ∀ n, g.keys (Obj.idResult n) := by assumption) (k_logicalPlane : ∀ n, g.keys (Obj.logicalPlane n) := by assumption) (k_opInForce : g.keys Obj.opInForce := by assumption) (k_parks : g.keys Obj.parks := by assumption) (k_planePort : ∀ n, g.keys (Obj.planePort n) := by assumption) (k_portPowerState : ∀ n, g.keys (Obj.portPowerState n) := by assumption) (k_portState : ∀ n, g.keys (Obj.portState n) := by assumption) (k_powerState : g.keys Obj.powerState := by assumption) (k_remapCount : g.keys Obj.remapCount := by assumption) (k_throttledMs : g.keys Obj.throttledMs := by assumption) (k_tj : g.keys Obj.tj := by assumption) (k_vtrimMv : g.keys Obj.vtrimMv := by assumption) :
    Within g s (State.thermalNow u) := by
  unfold State.thermalNow
  extract_lets +onlyGivenNames -underBinder -merge n1
  extract_lets +onlyGivenNames -underBinder -merge s2
  have h3 : Within g s s2 := (State.account_within p_power h)
  extract_lets +onlyGivenNames -underBinder -merge s4
  have h5 : Within g s s4 := (State.wrIn_within h3)
  extract_lets +onlyGivenNames -underBinder -merge _ s6
  have h7 : Within g s s6 := (Within.setClock p_clock h5)
  extract_lets +onlyGivenNames -underBinder -merge s8
  have h9 : Within g s s8 := (Within.ite (State.raiseOnce_within h7) h7)
  extract_lets +onlyGivenNames -underBinder -merge s10
  have h11 : Within g s s10 := (Within.ite (State.setPower_within p_power (State.wr_within (State.raiseOnce_within h9) _ _)) (State.setPower_within p_power h9))
  extract_lets +onlyGivenNames -underBinder -merge s12
  have h13 : Within g s s12 := (Within.ite (State.setPower_within p_power (State.raiseOnce_within h11)) h11)
  extract_lets +onlyGivenNames -underBinder -merge s14
  have h15 : Within g s s14 := (Within.ite (State.endEpisode_within (State.endEpisode_within (State.endEpisode_within h13))) h13)
  extract_lets +onlyGivenNames -underBinder -merge s16
  have h17 : Within g s s16 := (Within.ite (State.setPower_within p_power (State.raiseOnce_within h15)) h15)
  exact State.repower_within p_link p_coll p_tier p_power p_clock p_cross p_start h17

theorem State.sensorSample_within {j : Nat} {a : Int} {b : Int} {pw : Nat} (p_link : Part.link ∈ g.parts) (p_coll : Part.coll ∈ g.parts) (p_tier : Part.tier ∈ g.parts) (p_power : Part.power ∈ g.parts) (p_clock : Part.clock ∈ g.parts) (p_cross : Part.cross ∈ g.parts) (p_start : Part.start ∈ g.parts) (h : Within g s u) (k_ceilingThermal : g.keys Obj.ceilingThermal := by assumption) (k_collBytesTx : g.keys Obj.collBytesTx := by assumption) (k_collResends : g.keys Obj.collResends := by assumption) (k_duty : g.keys Obj.duty := by assumption) (k_e2DeferredMs : g.keys Obj.e2DeferredMs := by assumption) (k_flitsTx : ∀ n, g.keys (Obj.flitsTx n) := by assumption) (k_followingMs : g.keys Obj.followingMs := by assumption) (k_idResult : ∀ n, g.keys (Obj.idResult n) := by assumption) (k_logicalPlane : ∀ n, g.keys (Obj.logicalPlane n) := by assumption) (k_opInForce : g.keys Obj.opInForce := by assumption) (k_pairStatus : ∀ n, g.keys (Obj.pairStatus n) := by assumption) (k_pairValue : ∀ n, g.keys (Obj.pairValue n) := by assumption) (k_parks : g.keys Obj.parks := by assumption) (k_planePort : ∀ n, g.keys (Obj.planePort n) := by assumption) (k_portPowerState : ∀ n, g.keys (Obj.portPowerState n) := by assumption) (k_portState : ∀ n, g.keys (Obj.portState n) := by assumption) (k_powerState : g.keys Obj.powerState := by assumption) (k_remapCount : g.keys Obj.remapCount := by assumption) (k_sensorDiscards : g.keys Obj.sensorDiscards := by assumption) (k_sensorRaw : ∀ n, g.keys (Obj.sensorRaw n) := by assumption) (k_throttledMs : g.keys Obj.throttledMs := by assumption) (k_tj : g.keys Obj.tj := by assumption) (k_vtrimMv : g.keys Obj.vtrimMv := by assumption) :
    Within g s (State.sensorSample u j a b pw) := by
  unfold State.sensorSample
  extract_lets +onlyGivenNames -underBinder -merge s1
  have h2 : Within g s s1 := (State.reading_within p_power (State.reading_within p_power h))
  extract_lets +onlyGivenNames -underBinder -merge _ s3
  have h4 : Within g s s3 := (State.setPair_within p_power h2)
  exact State.thermalNow_within p_link p_coll p_tier p_power p_clock p_cross p_start (State.formPair_within p_power h4)

theorem execSensorSample_within {j : Fin 24} {a : Int} {b : Int} {pw : Nat} (p_link : Part.link ∈ g.parts) (p_coll : Part.coll ∈ g.parts) (p_tier : Part.tier ∈ g.parts) (p_power : Part.power ∈ g.parts) (p_clock : Part.clock ∈ g.parts) (p_cross : Part.cross ∈ g.parts) (p_start : Part.start ∈ g.parts) (h : Within g s u) (k_ceilingThermal : g.keys Obj.ceilingThermal := by assumption) (k_collBytesTx : g.keys Obj.collBytesTx := by assumption) (k_collResends : g.keys Obj.collResends := by assumption) (k_duty : g.keys Obj.duty := by assumption) (k_e2DeferredMs : g.keys Obj.e2DeferredMs := by assumption) (k_flitsTx : ∀ n, g.keys (Obj.flitsTx n) := by assumption) (k_followingMs : g.keys Obj.followingMs := by assumption) (k_idResult : ∀ n, g.keys (Obj.idResult n) := by assumption) (k_logicalPlane : ∀ n, g.keys (Obj.logicalPlane n) := by assumption) (k_opInForce : g.keys Obj.opInForce := by assumption) (k_pairStatus : ∀ n, g.keys (Obj.pairStatus n) := by assumption) (k_pairValue : ∀ n, g.keys (Obj.pairValue n) := by assumption) (k_parks : g.keys Obj.parks := by assumption) (k_planePort : ∀ n, g.keys (Obj.planePort n) := by assumption) (k_portPowerState : ∀ n, g.keys (Obj.portPowerState n) := by assumption) (k_portState : ∀ n, g.keys (Obj.portState n) := by assumption) (k_powerState : g.keys Obj.powerState := by assumption) (k_remapCount : g.keys Obj.remapCount := by assumption) (k_sensorDiscards : g.keys Obj.sensorDiscards := by assumption) (k_sensorRaw : ∀ n, g.keys (Obj.sensorRaw n) := by assumption) (k_throttledMs : g.keys Obj.throttledMs := by assumption) (k_tj : g.keys Obj.tj := by assumption) (k_vtrimMv : g.keys Obj.vtrimMv := by assumption) :
    Leads g s (execSensorSample j a b pw u) := by
  unfold execSensorSample
  exact Leads.next (State.sensorSample_within p_link p_coll p_tier p_power p_clock p_cross p_start h)

theorem State.sensorSuspect_within {j : Nat} (p_link : Part.link ∈ g.parts) (p_coll : Part.coll ∈ g.parts) (p_tier : Part.tier ∈ g.parts) (p_power : Part.power ∈ g.parts) (p_clock : Part.clock ∈ g.parts) (p_cross : Part.cross ∈ g.parts) (p_start : Part.start ∈ g.parts) (h : Within g s u) (k_ceilingThermal : g.keys Obj.ceilingThermal := by assumption) (k_collBytesTx : g.keys Obj.collBytesTx := by assumption) (k_collResends : g.keys Obj.collResends := by assumption) (k_duty : g.keys Obj.duty := by assumption) (k_e2DeferredMs : g.keys Obj.e2DeferredMs := by assumption) (k_flitsTx : ∀ n, g.keys (Obj.flitsTx n) := by assumption) (k_followingMs : g.keys Obj.followingMs := by assumption) (k_idResult : ∀ n, g.keys (Obj.idResult n) := by assumption) (k_logicalPlane : ∀ n, g.keys (Obj.logicalPlane n) := by assumption) (k_opInForce : g.keys Obj.opInForce := by assumption) (k_pairStatus : ∀ n, g.keys (Obj.pairStatus n) := by assumption) (k_pairValue : ∀ n, g.keys (Obj.pairValue n) := by assumption) (k_parks : g.keys Obj.parks := by assumption) (k_planePort : ∀ n, g.keys (Obj.planePort n) := by assumption) (k_portPowerState : ∀ n, g.keys (Obj.portPowerState n) := by assumption) (k_portState : ∀ n, g.keys (Obj.portState n) := by assumption) (k_powerState : g.keys Obj.powerState := by assumption) (k_remapCount : g.keys Obj.remapCount := by assumption) (k_throttledMs : g.keys Obj.throttledMs := by assumption) (k_tj : g.keys Obj.tj := by assumption) (k_vtrimMv : g.keys Obj.vtrimMv := by assumption) :
    Within g s (State.sensorSuspect u j) := by
  unfold State.sensorSuspect
  extract_lets +onlyGivenNames -underBinder -merge n1
  split
  · exact Within.ite h (State.thermalNow_within p_link p_coll p_tier p_power p_clock p_cross p_start (State.formPair_within p_power (State.raiseOnce_within (State.setPair_within p_power h))))
  · exact h

theorem execSensorSuspect_within {j : Fin 24} (p_link : Part.link ∈ g.parts) (p_coll : Part.coll ∈ g.parts) (p_tier : Part.tier ∈ g.parts) (p_power : Part.power ∈ g.parts) (p_clock : Part.clock ∈ g.parts) (p_cross : Part.cross ∈ g.parts) (p_start : Part.start ∈ g.parts) (h : Within g s u) (k_ceilingThermal : g.keys Obj.ceilingThermal := by assumption) (k_collBytesTx : g.keys Obj.collBytesTx := by assumption) (k_collResends : g.keys Obj.collResends := by assumption) (k_duty : g.keys Obj.duty := by assumption) (k_e2DeferredMs : g.keys Obj.e2DeferredMs := by assumption) (k_flitsTx : ∀ n, g.keys (Obj.flitsTx n) := by assumption) (k_followingMs : g.keys Obj.followingMs := by assumption) (k_idResult : ∀ n, g.keys (Obj.idResult n) := by assumption) (k_logicalPlane : ∀ n, g.keys (Obj.logicalPlane n) := by assumption) (k_opInForce : g.keys Obj.opInForce := by assumption) (k_pairStatus : ∀ n, g.keys (Obj.pairStatus n) := by assumption) (k_pairValue : ∀ n, g.keys (Obj.pairValue n) := by assumption) (k_parks : g.keys Obj.parks := by assumption) (k_planePort : ∀ n, g.keys (Obj.planePort n) := by assumption) (k_portPowerState : ∀ n, g.keys (Obj.portPowerState n) := by assumption) (k_portState : ∀ n, g.keys (Obj.portState n) := by assumption) (k_powerState : g.keys Obj.powerState := by assumption) (k_remapCount : g.keys Obj.remapCount := by assumption) (k_throttledMs : g.keys Obj.throttledMs := by assumption) (k_tj : g.keys Obj.tj := by assumption) (k_vtrimMv : g.keys Obj.vtrimMv := by assumption) :
    Leads g s (execSensorSuspect j u) := by
  unfold execSensorSuspect
  exact Leads.next (State.sensorSuspect_within p_link p_coll p_tier p_power p_clock p_cross p_start h)

theorem State.reaccept_within {k : Nat} (p_link : Part.link ∈ g.parts) (p_coll : Part.coll ∈ g.parts) (p_tier : Part.tier ∈ g.parts) (p_power : Part.power ∈ g.parts) (p_clock : Part.clock ∈ g.parts) (p_cross : Part.cross ∈ g.parts) (p_start : Part.start ∈ g.parts) (h : Within g s u) (k_ceilingThermal : g.keys Obj.ceilingThermal := by assumption) (k_collBytesTx : g.keys Obj.collBytesTx := by assumption) (k_collResends : g.keys Obj.collResends := by assumption) (k_duty : g.keys Obj.duty := by assumption) (k_e2DeferredMs : g.keys Obj.e2DeferredMs := by assumption) (k_flitsTx : ∀ n, g.keys (Obj.flitsTx n) := by assumption) (k_followingMs : g.keys Obj.followingMs := by assumption) (k_idResult : ∀ n, g.keys (Obj.idResult n) := by assumption) (k_logicalPlane : ∀ n, g.keys (Obj.logicalPlane n) := by assumption) (k_opInForce : g.keys Obj.opInForce := by assumption) (k_pairStatus : ∀ n, g.keys (Obj.pairStatus n) := by assumption) (k_pairValue : ∀ n, g.keys (Obj.pairValue n) := by assumption) (k_parks : g.keys Obj.parks := by assumption) (k_planePort : ∀ n, g.keys (Obj.planePort n) := by assumption) (k_portPowerState : ∀ n, g.keys (Obj.portPowerState n) := by assumption) (k_portState : ∀ n, g.keys (Obj.portState n) := by assumption) (k_powerState : g.keys Obj.powerState := by assumption) (k_remapCount : g.keys Obj.remapCount := by assumption) (k_throttledMs : g.keys Obj.throttledMs := by assumption) (k_tj : g.keys Obj.tj := by assumption) (k_vtrimMv : g.keys Obj.vtrimMv := by assumption) :
    Within g s (State.reaccept u k) := by
  unfold State.reaccept
  extract_lets +onlyGivenNames -underBinder -merge n1
  split
  · exact Within.ite h (by
      extract_lets +onlyGivenNames -underBinder -merge s5
      have h6 : Within g s s5 := (State.setSensor_within p_power h)
      exact State.thermalNow_within p_link p_coll p_tier p_power p_clock p_cross p_start (State.formPair_within p_power (State.endEpisode_within (State.endEpisode_within h6))))
  · exact h

theorem execSensorReaccept_within {k : Fin 48} (p_link : Part.link ∈ g.parts) (p_coll : Part.coll ∈ g.parts) (p_tier : Part.tier ∈ g.parts) (p_power : Part.power ∈ g.parts) (p_clock : Part.clock ∈ g.parts) (p_cross : Part.cross ∈ g.parts) (p_start : Part.start ∈ g.parts) (h : Within g s u) (k_ceilingThermal : g.keys Obj.ceilingThermal := by assumption) (k_collBytesTx : g.keys Obj.collBytesTx := by assumption) (k_collResends : g.keys Obj.collResends := by assumption) (k_duty : g.keys Obj.duty := by assumption) (k_e2DeferredMs : g.keys Obj.e2DeferredMs := by assumption) (k_flitsTx : ∀ n, g.keys (Obj.flitsTx n) := by assumption) (k_followingMs : g.keys Obj.followingMs := by assumption) (k_idResult : ∀ n, g.keys (Obj.idResult n) := by assumption) (k_logicalPlane : ∀ n, g.keys (Obj.logicalPlane n) := by assumption) (k_opInForce : g.keys Obj.opInForce := by assumption) (k_pairStatus : ∀ n, g.keys (Obj.pairStatus n) := by assumption) (k_pairValue : ∀ n, g.keys (Obj.pairValue n) := by assumption) (k_parks : g.keys Obj.parks := by assumption) (k_planePort : ∀ n, g.keys (Obj.planePort n) := by assumption) (k_portPowerState : ∀ n, g.keys (Obj.portPowerState n) := by assumption) (k_portState : ∀ n, g.keys (Obj.portState n) := by assumption) (k_powerState : g.keys Obj.powerState := by assumption) (k_remapCount : g.keys Obj.remapCount := by assumption) (k_throttledMs : g.keys Obj.throttledMs := by assumption) (k_tj : g.keys Obj.tj := by assumption) (k_vtrimMv : g.keys Obj.vtrimMv := by assumption) :
    Leads g s (execSensorReaccept k u) := by
  unfold execSensorReaccept
  exact Leads.next (State.reaccept_within p_link p_coll p_tier p_power p_clock p_cross p_start h)

theorem State.heatStep_within {ceiling : Nat} {duty : Nat} (p_link : Part.link ∈ g.parts) (p_coll : Part.coll ∈ g.parts) (p_tier : Part.tier ∈ g.parts) (p_power : Part.power ∈ g.parts) (p_clock : Part.clock ∈ g.parts) (p_cross : Part.cross ∈ g.parts) (p_start : Part.start ∈ g.parts) (h : Within g s u) (k_ceilingThermal : g.keys Obj.ceilingThermal := by assumption) (k_collBytesTx : g.keys Obj.collBytesTx := by assumption) (k_collResends : g.keys Obj.collResends := by assumption) (k_duty : g.keys Obj.duty := by assumption) (k_e2DeferredMs : g.keys Obj.e2DeferredMs := by assumption) (k_flitsTx : ∀ n, g.keys (Obj.flitsTx n) := by assumption) (k_followingMs : g.keys Obj.followingMs := by assumption) (k_idResult : ∀ n, g.keys (Obj.idResult n) := by assumption) (k_logicalPlane : ∀ n, g.keys (Obj.logicalPlane n) := by assumption) (k_opInForce : g.keys Obj.opInForce := by assumption) (k_parks : g.keys Obj.parks := by assumption) (k_planePort : ∀ n, g.keys (Obj.planePort n) := by assumption) (k_portPowerState : ∀ n, g.keys (Obj.portPowerState n) := by assumption) (k_portState : ∀ n, g.keys (Obj.portState n) := by assumption) (k_powerState : g.keys Obj.powerState := by assumption) (k_remapCount : g.keys Obj.remapCount := by assumption) (k_throttledMs : g.keys Obj.throttledMs := by assumption) (k_vtrimMv : g.keys Obj.vtrimMv := by assumption) :
    Within g s (State.heatStep u ceiling duty) := by
  unfold State.heatStep
  exact State.repower_within p_link p_coll p_tier p_power p_clock p_cross p_start (State.setPower_within p_power (State.wr_within (State.account_within p_power h) _ _))

theorem State.ceilingStep_within (p_link : Part.link ∈ g.parts) (p_coll : Part.coll ∈ g.parts) (p_tier : Part.tier ∈ g.parts) (p_power : Part.power ∈ g.parts) (p_clock : Part.clock ∈ g.parts) (p_cross : Part.cross ∈ g.parts) (p_start : Part.start ∈ g.parts) (h : Within g s u) (k_ceilingThermal : g.keys Obj.ceilingThermal := by assumption) (k_collBytesTx : g.keys Obj.collBytesTx := by assumption) (k_collResends : g.keys Obj.collResends := by assumption) (k_duty : g.keys Obj.duty := by assumption) (k_e2DeferredMs : g.keys Obj.e2DeferredMs := by assumption) (k_flitsTx : ∀ n, g.keys (Obj.flitsTx n) := by assumption) (k_followingMs : g.keys Obj.followingMs := by assumption) (k_idResult : ∀ n, g.keys (Obj.idResult n) := by assumption) (k_logicalPlane : ∀ n, g.keys (Obj.logicalPlane n) := by assumption) (k_opInForce : g.keys Obj.opInForce := by assumption) (k_parks : g.keys Obj.parks := by assumption) (k_planePort : ∀ n, g.keys (Obj.planePort n) := by assumption) (k_portPowerState : ∀ n, g.keys (Obj.portPowerState n) := by assumption) (k_portState : ∀ n, g.keys (Obj.portState n) := by assumption) (k_powerState : g.keys Obj.powerState := by assumption) (k_remapCount : g.keys Obj.remapCount := by assumption) (k_throttledMs : g.keys Obj.throttledMs := by assumption) (k_vtrimMv : g.keys Obj.vtrimMv := by assumption) :
    Within g s (State.ceilingStep u) := by
  unfold State.ceilingStep
  extract_lets +onlyGivenNames -underBinder -merge n1
  extract_lets +onlyGivenNames -underBinder -merge n2
  extract_lets +onlyGivenNames -underBinder -merge n3
  extract_lets +onlyGivenNames -underBinder -merge n4
  exact Within.ite (by
    split
    · exact Within.ite (State.heatStep_within p_link p_coll p_tier p_power p_clock p_cross p_start h) h
    · exact h) (Within.ite (Within.ite (State.heatStep_within p_link p_coll p_tier p_power p_clock p_cross p_start h) h) (Within.ite (Within.ite (State.heatStep_within p_link p_coll p_tier p_power p_clock p_cross p_start h) h) h))

theorem execThermalCeilingStep_within (p_link : Part.link ∈ g.parts) (p_coll : Part.coll ∈ g.parts) (p_tier : Part.tier ∈ g.parts) (p_power : Part.power ∈ g.parts) (p_clock : Part.clock ∈ g.parts) (p_cross : Part.cross ∈ g.parts) (p_start : Part.start ∈ g.parts) (h : Within g s u) (k_ceilingThermal : g.keys Obj.ceilingThermal := by assumption) (k_collBytesTx : g.keys Obj.collBytesTx := by assumption) (k_collResends : g.keys Obj.collResends := by assumption) (k_duty : g.keys Obj.duty := by assumption) (k_e2DeferredMs : g.keys Obj.e2DeferredMs := by assumption) (k_flitsTx : ∀ n, g.keys (Obj.flitsTx n) := by assumption) (k_followingMs : g.keys Obj.followingMs := by assumption) (k_idResult : ∀ n, g.keys (Obj.idResult n) := by assumption) (k_logicalPlane : ∀ n, g.keys (Obj.logicalPlane n) := by assumption) (k_opInForce : g.keys Obj.opInForce := by assumption) (k_parks : g.keys Obj.parks := by assumption) (k_planePort : ∀ n, g.keys (Obj.planePort n) := by assumption) (k_portPowerState : ∀ n, g.keys (Obj.portPowerState n) := by assumption) (k_portState : ∀ n, g.keys (Obj.portState n) := by assumption) (k_powerState : g.keys Obj.powerState := by assumption) (k_remapCount : g.keys Obj.remapCount := by assumption) (k_throttledMs : g.keys Obj.throttledMs := by assumption) (k_vtrimMv : g.keys Obj.vtrimMv := by assumption) :
    Leads g s (execThermalCeilingStep u) := by
  unfold execThermalCeilingStep
  exact Leads.next (State.ceilingStep_within p_link p_coll p_tier p_power p_clock p_cross p_start h)

theorem State.thermalTrip_within {k : Nat} (p_staged : Part.staged ∈ g.parts) (p_prep : Part.prep ∈ g.parts) (p_bar0 : Part.bar0 ∈ g.parts) (p_cmd : Part.cmd ∈ g.parts) (p_scratch : Part.scratch ∈ g.parts) (p_castMem : Part.castMem ∈ g.parts) (p_tile : Part.tile ∈ g.parts) (p_spans : Part.spans ∈ g.parts) (p_touches : Part.touches ∈ g.parts) (p_upd : Part.upd ∈ g.parts) (p_link : Part.link ∈ g.parts) (p_coll : Part.coll ∈ g.parts) (p_mem : Part.mem ∈ g.parts) (p_tier : Part.tier ∈ g.parts) (p_store : Part.store ∈ g.parts) (p_power : Part.power ∈ g.parts) (p_clock : Part.clock ∈ g.parts) (p_cross : Part.cross ∈ g.parts) (p_fw : Part.fw ∈ g.parts) (p_start : Part.start ∈ g.parts) (p_mirror : Part.mirror ∈ g.parts) (h : Within g s u) (k_any : ∀ k, g.keys k := by assumption) (k_ckptDigest : ∀ n, g.keys (Obj.ckptDigest n) := by assumption) (k_ckptHandle : ∀ n, g.keys (Obj.ckptHandle n) := by assumption) (k_ckptState : ∀ n, g.keys (Obj.ckptState n) := by assumption) (k_ckptStep : ∀ n, g.keys (Obj.ckptStep n) := by assumption) (k_moduleState : g.keys Obj.moduleState := by assumption) (k_slotState : ∀ n, g.keys (Obj.slotState n) := by assumption) (k_tripsTotal : g.keys Obj.tripsTotal := by assumption) :
    Within g s (State.thermalTrip u k) := by
  unfold State.thermalTrip
  exact Within.ite h (by
    extract_lets +onlyGivenNames -underBinder -merge s1
    have h2 : Within g s s1 := (State.countSat_within (State.raiseKept_within h))
    extract_lets +onlyGivenNames -underBinder -merge n3
    extract_lets +onlyGivenNames -underBinder -merge s4
    have h5 : Within g s s4 := (Within.ite (State.lifeExceed_within p_start h2) (Within.ite (State.lifeWarn_within p_start h2) h2))
    exact State.wr_within (State.lose_within p_staged p_prep p_bar0 p_cmd p_scratch p_castMem p_tile p_spans p_touches p_upd p_link p_coll p_mem p_tier p_store p_power p_clock p_cross p_fw p_start p_mirror h5) _ _)

theorem execThermalTrip_within {k : Fin 48} (p_staged : Part.staged ∈ g.parts) (p_prep : Part.prep ∈ g.parts) (p_bar0 : Part.bar0 ∈ g.parts) (p_cmd : Part.cmd ∈ g.parts) (p_scratch : Part.scratch ∈ g.parts) (p_castMem : Part.castMem ∈ g.parts) (p_tile : Part.tile ∈ g.parts) (p_spans : Part.spans ∈ g.parts) (p_touches : Part.touches ∈ g.parts) (p_upd : Part.upd ∈ g.parts) (p_link : Part.link ∈ g.parts) (p_coll : Part.coll ∈ g.parts) (p_mem : Part.mem ∈ g.parts) (p_tier : Part.tier ∈ g.parts) (p_store : Part.store ∈ g.parts) (p_power : Part.power ∈ g.parts) (p_clock : Part.clock ∈ g.parts) (p_cross : Part.cross ∈ g.parts) (p_fw : Part.fw ∈ g.parts) (p_start : Part.start ∈ g.parts) (p_mirror : Part.mirror ∈ g.parts) (h : Within g s u) (k_any : ∀ k, g.keys k := by assumption) (k_ckptDigest : ∀ n, g.keys (Obj.ckptDigest n) := by assumption) (k_ckptHandle : ∀ n, g.keys (Obj.ckptHandle n) := by assumption) (k_ckptState : ∀ n, g.keys (Obj.ckptState n) := by assumption) (k_ckptStep : ∀ n, g.keys (Obj.ckptStep n) := by assumption) (k_moduleState : g.keys Obj.moduleState := by assumption) (k_slotState : ∀ n, g.keys (Obj.slotState n) := by assumption) (k_tripsTotal : g.keys Obj.tripsTotal := by assumption) :
    Leads g s (execThermalTrip k u) := by
  unfold execThermalTrip
  exact Leads.next (State.thermalTrip_within p_staged p_prep p_bar0 p_cmd p_scratch p_castMem p_tile p_spans p_touches p_upd p_link p_coll p_mem p_tier p_store p_power p_clock p_cross p_fw p_start p_mirror h)

theorem execNandTempRead_within {k : Fin 4} {temp : Int} (h : Within g s u) (k_flashTemp : ∀ n, g.keys (Obj.flashTemp n) := by assumption) :
    Leads g s (execNandTempRead k temp u) := by
  unfold execNandTempRead
  exact Leads.next (State.wrIn_within h)

theorem State.while_within {code : Nat} {on : Bool} (h : Within g s u) (k_code : evOk code = true := by first | decide | assumption | (split <;> decide)) :
    Within g s (State.while u code on) := by
  unfold State.while
  exact Within.ite (State.raiseOnce_within h) (State.endEpisode_within h)

theorem State.enterHold_within {stop : Bool} (p_link : Part.link ∈ g.parts) (p_coll : Part.coll ∈ g.parts) (p_tier : Part.tier ∈ g.parts) (p_power : Part.power ∈ g.parts) (p_clock : Part.clock ∈ g.parts) (p_cross : Part.cross ∈ g.parts) (p_start : Part.start ∈ g.parts) (h : Within g s u) (k_ceilingThermal : g.keys Obj.ceilingThermal := by assumption) (k_collBytesTx : g.keys Obj.collBytesTx := by assumption) (k_collResends : g.keys Obj.collResends := by assumption) (k_duty : g.keys Obj.duty := by assumption) (k_e2DeferredMs : g.keys Obj.e2DeferredMs := by assumption) (k_flitsTx : ∀ n, g.keys (Obj.flitsTx n) := by assumption) (k_followingMs : g.keys Obj.followingMs := by assumption) (k_idResult : ∀ n, g.keys (Obj.idResult n) := by assumption) (k_logicalPlane : ∀ n, g.keys (Obj.logicalPlane n) := by assumption) (k_opInForce : g.keys Obj.opInForce := by assumption) (k_parks : g.keys Obj.parks := by assumption) (k_planePort : ∀ n, g.keys (Obj.planePort n) := by assumption) (k_portPowerState : ∀ n, g.keys (Obj.portPowerState n) := by assumption) (k_portState : ∀ n, g.keys (Obj.portState n) := by assumption) (k_powerState : g.keys Obj.powerState := by assumption) (k_remapCount : g.keys Obj.remapCount := by assumption) (k_throttledMs : g.keys Obj.throttledMs := by assumption) (k_tj : g.keys Obj.tj := by assumption) (k_vtrimMv : g.keys Obj.vtrimMv := by assumption) :
    Within g s (State.enterHold u stop) := by
  unfold State.enterHold
  extract_lets +onlyGivenNames -underBinder -merge s1
  have h2 : Within g s s1 := (State.setPower_within p_power h)
  exact State.thermalNow_within p_link p_coll p_tier p_power p_clock p_cross p_start h2

theorem State.stopHold_within {stop : Bool} (p_link : Part.link ∈ g.parts) (p_coll : Part.coll ∈ g.parts) (p_tier : Part.tier ∈ g.parts) (p_power : Part.power ∈ g.parts) (p_clock : Part.clock ∈ g.parts) (p_cross : Part.cross ∈ g.parts) (p_start : Part.start ∈ g.parts) (h : Within g s u) (k_ceilingThermal : g.keys Obj.ceilingThermal := by assumption) (k_collBytesTx : g.keys Obj.collBytesTx := by assumption) (k_collResends : g.keys Obj.collResends := by assumption) (k_duty : g.keys Obj.duty := by assumption) (k_e2DeferredMs : g.keys Obj.e2DeferredMs := by assumption) (k_flitsTx : ∀ n, g.keys (Obj.flitsTx n) := by assumption) (k_followingMs : g.keys Obj.followingMs := by assumption) (k_idResult : ∀ n, g.keys (Obj.idResult n) := by assumption) (k_logicalPlane : ∀ n, g.keys (Obj.logicalPlane n) := by assumption) (k_opInForce : g.keys Obj.opInForce := by assumption) (k_parks : g.keys Obj.parks := by assumption) (k_planePort : ∀ n, g.keys (Obj.planePort n) := by assumption) (k_portPowerState : ∀ n, g.keys (Obj.portPowerState n) := by assumption) (k_portState : ∀ n, g.keys (Obj.portState n) := by assumption) (k_powerState : g.keys Obj.powerState := by assumption) (k_remapCount : g.keys Obj.remapCount := by assumption) (k_throttledMs : g.keys Obj.throttledMs := by assumption) (k_tj : g.keys Obj.tj := by assumption) (k_vtrimMv : g.keys Obj.vtrimMv := by assumption) :
    Within g s (State.stopHold u stop) := by
  unfold State.stopHold
  exact Within.ite (State.enterHold_within p_link p_coll p_tier p_power p_clock p_cross p_start h) h

theorem State.holdExit_within (p_cmd : Part.cmd ∈ g.parts) (p_link : Part.link ∈ g.parts) (p_coll : Part.coll ∈ g.parts) (p_tier : Part.tier ∈ g.parts) (p_power : Part.power ∈ g.parts) (p_clock : Part.clock ∈ g.parts) (p_cross : Part.cross ∈ g.parts) (p_fw : Part.fw ∈ g.parts) (p_start : Part.start ∈ g.parts) (h : Within g s u) (k_collBytesTx : g.keys Obj.collBytesTx := by assumption) (k_collResends : g.keys Obj.collResends := by assumption) (k_duty : g.keys Obj.duty := by assumption) (k_flitsTx : ∀ n, g.keys (Obj.flitsTx n) := by assumption) (k_idResult : ∀ n, g.keys (Obj.idResult n) := by assumption) (k_logicalPlane : ∀ n, g.keys (Obj.logicalPlane n) := by assumption) (k_opInForce : g.keys Obj.opInForce := by assumption) (k_parks : g.keys Obj.parks := by assumption) (k_planePort : ∀ n, g.keys (Obj.planePort n) := by assumption) (k_portPowerState : ∀ n, g.keys (Obj.portPowerState n) := by assumption) (k_portState : ∀ n, g.keys (Obj.portState n) := by assumption) (k_powerState : g.keys Obj.powerState := by assumption) (k_remapCount : g.keys Obj.remapCount := by assumption) (k_vtrimMv : g.keys Obj.vtrimMv := by assumption) :
    Within g s (State.holdExit u) := by
  unfold State.holdExit
  exact Within.ite (by
    extract_lets +onlyGivenNames -underBinder -merge s1
    have h2 : Within g s s1 := (State.repower_within p_link p_coll p_tier p_power p_clock p_cross p_start (State.endEpisode_within (State.setPower_within p_power h)))
    exact Within.ite (State.repower_within p_link p_coll p_tier p_power p_clock p_cross p_start (State.restartDone_within p_cmd p_tier p_power p_clock p_fw p_start h2)) h2) h

theorem State.takeLimit_within {p1 : Nat} (p_power : Part.power ∈ g.parts) (h : Within g s u) (k_heatLimitW : g.keys Obj.heatLimitW := by assumption) :
    Within g s (State.takeLimit u p1) := by
  unfold State.takeLimit
  extract_lets +onlyGivenNames -underBinder -merge n1
  exact State.setPower_within p_power (State.wr_within h _ _)

theorem State.coolantReport_within {r : Coolant} (p_cmd : Part.cmd ∈ g.parts) (p_link : Part.link ∈ g.parts) (p_coll : Part.coll ∈ g.parts) (p_tier : Part.tier ∈ g.parts) (p_power : Part.power ∈ g.parts) (p_clock : Part.clock ∈ g.parts) (p_cross : Part.cross ∈ g.parts) (p_fw : Part.fw ∈ g.parts) (p_start : Part.start ∈ g.parts) (h : Within g s u) (k_ceilingThermal : g.keys Obj.ceilingThermal := by assumption) (k_collBytesTx : g.keys Obj.collBytesTx := by assumption) (k_collResends : g.keys Obj.collResends := by assumption) (k_duty : g.keys Obj.duty := by assumption) (k_e2DeferredMs : g.keys Obj.e2DeferredMs := by assumption) (k_flitsTx : ∀ n, g.keys (Obj.flitsTx n) := by assumption) (k_flowMlMin : g.keys Obj.flowMlMin := by assumption) (k_flowState : g.keys Obj.flowState := by assumption) (k_followingMs : g.keys Obj.followingMs := by assumption) (k_heatLimitW : g.keys Obj.heatLimitW := by assumption) (k_idResult : ∀ n, g.keys (Obj.idResult n) := by assumption) (k_inlet : g.keys Obj.inlet := by assumption) (k_logicalPlane : ∀ n, g.keys (Obj.logicalPlane n) := by assumption) (k_opInForce : g.keys Obj.opInForce := by assumption) (k_outlet : g.keys Obj.outlet := by assumption) (k_parks : g.keys Obj.parks := by assumption) (k_planePort : ∀ n, g.keys (Obj.planePort n) := by assumption) (k_portPowerState : ∀ n, g.keys (Obj.portPowerState n) := by assumption) (k_portState : ∀ n, g.keys (Obj.portState n) := by assumption) (k_powerState : g.keys Obj.powerState := by assumption) (k_remapCount : g.keys Obj.remapCount := by assumption) (k_throttledMs : g.keys Obj.throttledMs := by assumption) (k_tj : g.keys Obj.tj := by assumption) (k_vtrimMv : g.keys Obj.vtrimMv := by assumption) :
    Within g s (State.coolantReport u r) := by
  unfold State.coolantReport
  extract_lets +onlyGivenNames -underBinder -merge n1
  extract_lets +onlyGivenNames -underBinder -merge n2
  extract_lets +onlyGivenNames -underBinder -merge n3
  extract_lets +onlyGivenNames -underBinder -merge n4
  extract_lets +onlyGivenNames -underBinder -merge n5
  extract_lets +onlyGivenNames -underBinder -merge n6
  extract_lets +onlyGivenNames -underBinder -merge s7
  have h8 : Within g s s7 := (State.setPower_within p_power (State.endEpisode_within h))
  extract_lets +onlyGivenNames -underBinder -merge s9
  have h10 : Within g s s9 := (State.wr_within (State.wrIn_within (State.wrIn_within h8)) _ _)
  extract_lets +onlyGivenNames -underBinder -merge s11
  have h12 : Within g s s11 := (State.takeLimit_within p_power h10)
  extract_lets +onlyGivenNames -underBinder -merge s13
  have h14 : Within g s s13 := (State.while_within (State.while_within (State.while_within (State.while_within h12))))
  extract_lets +onlyGivenNames -underBinder -merge s15
  have h16 : Within g s s15 := (State.while_within (State.while_within h14))
  extract_lets +onlyGivenNames -underBinder -merge s17
  have h18 : Within g s s17 := (Within.ite h16 (State.endEpisode_within h16))
  extract_lets +onlyGivenNames -underBinder -merge s19
  have h20 : Within g s s19 := (State.wr_within h18 _ _)
  exact Within.ite (State.stopHold_within p_link p_coll p_tier p_power p_clock p_cross p_start h20) (State.holdExit_within p_cmd p_link p_coll p_tier p_power p_clock p_cross p_fw p_start h20)

theorem State.fldFrame_within (h : Within g s u) :
    Within g s (State.fldFrame u) := by
  unfold State.fldFrame
  extract_lets +onlyGivenNames -underBinder -merge s1
  have h2 : Within g s s1 := (State.endEpisode_within h)
  exact Within.setDict h2 rfl id

theorem State.trayReport_within {mac : Nat} {pdu : Bytes} (p_cmd : Part.cmd ∈ g.parts) (p_link : Part.link ∈ g.parts) (p_coll : Part.coll ∈ g.parts) (p_tier : Part.tier ∈ g.parts) (p_power : Part.power ∈ g.parts) (p_clock : Part.clock ∈ g.parts) (p_cross : Part.cross ∈ g.parts) (p_fw : Part.fw ∈ g.parts) (p_start : Part.start ∈ g.parts) (h : Within g s u) (k_ceilingThermal : g.keys Obj.ceilingThermal := by assumption) (k_collBytesTx : g.keys Obj.collBytesTx := by assumption) (k_collResends : g.keys Obj.collResends := by assumption) (k_dictDiscards : g.keys Obj.dictDiscards := by assumption) (k_dictFramesRx : g.keys Obj.dictFramesRx := by assumption) (k_duty : g.keys Obj.duty := by assumption) (k_e2DeferredMs : g.keys Obj.e2DeferredMs := by assumption) (k_flitsTx : ∀ n, g.keys (Obj.flitsTx n) := by assumption) (k_flowMlMin : g.keys Obj.flowMlMin := by assumption) (k_flowState : g.keys Obj.flowState := by assumption) (k_followingMs : g.keys Obj.followingMs := by assumption) (k_heatLimitW : g.keys Obj.heatLimitW := by assumption) (k_idResult : ∀ n, g.keys (Obj.idResult n) := by assumption) (k_inlet : g.keys Obj.inlet := by assumption) (k_logicalPlane : ∀ n, g.keys (Obj.logicalPlane n) := by assumption) (k_opInForce : g.keys Obj.opInForce := by assumption) (k_outlet : g.keys Obj.outlet := by assumption) (k_parks : g.keys Obj.parks := by assumption) (k_planePort : ∀ n, g.keys (Obj.planePort n) := by assumption) (k_portPowerState : ∀ n, g.keys (Obj.portPowerState n) := by assumption) (k_portState : ∀ n, g.keys (Obj.portState n) := by assumption) (k_powerState : g.keys Obj.powerState := by assumption) (k_remapCount : g.keys Obj.remapCount := by assumption) (k_reportDiscards : g.keys Obj.reportDiscards := by assumption) (k_throttledMs : g.keys Obj.throttledMs := by assumption) (k_tj : g.keys Obj.tj := by assumption) (k_trayMacLearned : g.keys Obj.trayMacLearned := by assumption) (k_trayReports : g.keys Obj.trayReports := by assumption) (k_vtrimMv : g.keys Obj.vtrimMv := by assumption) :
    Within g s (State.trayReport u mac pdu) := by
  unfold State.trayReport
  extract_lets +onlyGivenNames -underBinder -merge s1
  have h2 : Within g s s1 := (State.count_within (State.fldFrame_within h))
  extract_lets +onlyGivenNames -underBinder -merge n3
  extract_lets +onlyGivenNames -underBinder -merge n4
  exact Within.ite (State.countSat_within h2) (Within.ite (State.countSat_within h2) (by
    extract_lets +onlyGivenNames -underBinder -merge s5
    have h6 : Within g s s5 := (Within.ite (State.wr_within h2 _ _) h2)
    exact State.coolantReport_within p_cmd p_link p_coll p_tier p_power p_clock p_cross p_fw p_start (State.setPower_within p_power (State.count_within h6))))

theorem execTrayReport_within {mac : Nat} {pdu : Bytes} (p_cmd : Part.cmd ∈ g.parts) (p_link : Part.link ∈ g.parts) (p_coll : Part.coll ∈ g.parts) (p_tier : Part.tier ∈ g.parts) (p_power : Part.power ∈ g.parts) (p_clock : Part.clock ∈ g.parts) (p_cross : Part.cross ∈ g.parts) (p_fw : Part.fw ∈ g.parts) (p_start : Part.start ∈ g.parts) (h : Within g s u) (k_ceilingThermal : g.keys Obj.ceilingThermal := by assumption) (k_collBytesTx : g.keys Obj.collBytesTx := by assumption) (k_collResends : g.keys Obj.collResends := by assumption) (k_dictDiscards : g.keys Obj.dictDiscards := by assumption) (k_dictFramesRx : g.keys Obj.dictFramesRx := by assumption) (k_duty : g.keys Obj.duty := by assumption) (k_e2DeferredMs : g.keys Obj.e2DeferredMs := by assumption) (k_flitsTx : ∀ n, g.keys (Obj.flitsTx n) := by assumption) (k_flowMlMin : g.keys Obj.flowMlMin := by assumption) (k_flowState : g.keys Obj.flowState := by assumption) (k_followingMs : g.keys Obj.followingMs := by assumption) (k_heatLimitW : g.keys Obj.heatLimitW := by assumption) (k_idResult : ∀ n, g.keys (Obj.idResult n) := by assumption) (k_inlet : g.keys Obj.inlet := by assumption) (k_logicalPlane : ∀ n, g.keys (Obj.logicalPlane n) := by assumption) (k_opInForce : g.keys Obj.opInForce := by assumption) (k_outlet : g.keys Obj.outlet := by assumption) (k_parks : g.keys Obj.parks := by assumption) (k_planePort : ∀ n, g.keys (Obj.planePort n) := by assumption) (k_portPowerState : ∀ n, g.keys (Obj.portPowerState n) := by assumption) (k_portState : ∀ n, g.keys (Obj.portState n) := by assumption) (k_powerState : g.keys Obj.powerState := by assumption) (k_remapCount : g.keys Obj.remapCount := by assumption) (k_reportDiscards : g.keys Obj.reportDiscards := by assumption) (k_throttledMs : g.keys Obj.throttledMs := by assumption) (k_tj : g.keys Obj.tj := by assumption) (k_trayMacLearned : g.keys Obj.trayMacLearned := by assumption) (k_trayReports : g.keys Obj.trayReports := by assumption) (k_vtrimMv : g.keys Obj.vtrimMv := by assumption) :
    Leads g s (execTrayReport mac pdu u) := by
  unfold execTrayReport
  exact Leads.next (Within.ite (State.trayReport_within p_cmd p_link p_coll p_tier p_power p_clock p_cross p_fw p_start h) h)

theorem State.reportsLost_within (p_power : Part.power ∈ g.parts) (h : Within g s u) (k_flowState : g.keys Obj.flowState := by assumption) (k_heatLimitW : g.keys Obj.heatLimitW := by assumption) :
    Within g s (State.reportsLost u) := by
  unfold State.reportsLost
  exact Within.ite h (by
    extract_lets +onlyGivenNames -underBinder -merge n1
    extract_lets +onlyGivenNames -underBinder -merge s2
    have h3 : Within g s s2 := (State.setPower_within p_power (State.raiseOnce_within h))
    exact State.wr_within (State.wr_within h3 _ _) _ _)

theorem execCoolantReportsLost_within (p_power : Part.power ∈ g.parts) (h : Within g s u) (k_flowState : g.keys Obj.flowState := by assumption) (k_heatLimitW : g.keys Obj.heatLimitW := by assumption) :
    Leads g s (execCoolantReportsLost u) := by
  unfold execCoolantReportsLost
  exact Leads.next (Within.ite (State.reportsLost_within p_power h) h)

theorem State.coolantMismatch_within (h : Within g s u) :
    Within g s (State.coolantMismatch u) := by
  unfold State.coolantMismatch
  split
  · exact Within.ite (State.raiseOnce_within h) h
  · exact h

theorem execCoolantMismatch_within (h : Within g s u) :
    Leads g s (execCoolantMismatch u) := by
  unfold execCoolantMismatch
  exact Leads.next (State.coolantMismatch_within h)

theorem State.flowLossOn_within (p_link : Part.link ∈ g.parts) (p_coll : Part.coll ∈ g.parts) (p_tier : Part.tier ∈ g.parts) (p_power : Part.power ∈ g.parts) (p_clock : Part.clock ∈ g.parts) (p_cross : Part.cross ∈ g.parts) (p_start : Part.start ∈ g.parts) (h : Within g s u) (k_ceilingThermal : g.keys Obj.ceilingThermal := by assumption) (k_collBytesTx : g.keys Obj.collBytesTx := by assumption) (k_collResends : g.keys Obj.collResends := by assumption) (k_duty : g.keys Obj.duty := by assumption) (k_e2DeferredMs : g.keys Obj.e2DeferredMs := by assumption) (k_flitsTx : ∀ n, g.keys (Obj.flitsTx n) := by assumption) (k_flowState : g.keys Obj.flowState := by assumption) (k_followingMs : g.keys Obj.followingMs := by assumption) (k_idResult : ∀ n, g.keys (Obj.idResult n) := by assumption) (k_logicalPlane : ∀ n, g.keys (Obj.logicalPlane n) := by assumption) (k_opInForce : g.keys Obj.opInForce := by assumption) (k_parks : g.keys Obj.parks := by assumption) (k_planePort : ∀ n, g.keys (Obj.planePort n) := by assumption) (k_portPowerState : ∀ n, g.keys (Obj.portPowerState n) := by assumption) (k_portState : ∀ n, g.keys (Obj.portState n) := by assumption) (k_powerState : g.keys Obj.powerState := by assumption) (k_remapCount : g.keys Obj.remapCount := by assumption) (k_throttledMs : g.keys Obj.throttledMs := by assumption) (k_tj : g.keys Obj.tj := by assumption) (k_vtrimMv : g.keys Obj.vtrimMv := by assumption) :
    Within g s (State.flowLossOn u) := by
  unfold State.flowLossOn
  extract_lets +onlyGivenNames -underBinder -merge _ s1
  have h2 : Within g s s1 := (Within.setStart p_start h)
  extract_lets +onlyGivenNames -underBinder -merge s3
  have h4 : Within g s s3 := (State.wr_within h2 _ _)
  exact Within.ite (State.enterHold_within p_link p_coll p_tier p_power p_clock p_cross p_start (State.raiseOnce_within h4)) h4

theorem execFlowLossAssert_within (p_link : Part.link ∈ g.parts) (p_coll : Part.coll ∈ g.parts) (p_tier : Part.tier ∈ g.parts) (p_power : Part.power ∈ g.parts) (p_clock : Part.clock ∈ g.parts) (p_cross : Part.cross ∈ g.parts) (p_start : Part.start ∈ g.parts) (h : Within g s u) (k_ceilingThermal : g.keys Obj.ceilingThermal := by assumption) (k_collBytesTx : g.keys Obj.collBytesTx := by assumption) (k_collResends : g.keys Obj.collResends := by assumption) (k_duty : g.keys Obj.duty := by assumption) (k_e2DeferredMs : g.keys Obj.e2DeferredMs := by assumption) (k_flitsTx : ∀ n, g.keys (Obj.flitsTx n) := by assumption) (k_flowState : g.keys Obj.flowState := by assumption) (k_followingMs : g.keys Obj.followingMs := by assumption) (k_idResult : ∀ n, g.keys (Obj.idResult n) := by assumption) (k_logicalPlane : ∀ n, g.keys (Obj.logicalPlane n) := by assumption) (k_opInForce : g.keys Obj.opInForce := by assumption) (k_parks : g.keys Obj.parks := by assumption) (k_planePort : ∀ n, g.keys (Obj.planePort n) := by assumption) (k_portPowerState : ∀ n, g.keys (Obj.portPowerState n) := by assumption) (k_portState : ∀ n, g.keys (Obj.portState n) := by assumption) (k_powerState : g.keys Obj.powerState := by assumption) (k_remapCount : g.keys Obj.remapCount := by assumption) (k_throttledMs : g.keys Obj.throttledMs := by assumption) (k_tj : g.keys Obj.tj := by assumption) (k_vtrimMv : g.keys Obj.vtrimMv := by assumption) :
    Leads g s (execFlowLossAssert u) := by
  unfold execFlowLossAssert
  exact Leads.next (State.flowLossOn_within p_link p_coll p_tier p_power p_clock p_cross p_start h)

theorem State.flowLossOff_within (p_cmd : Part.cmd ∈ g.parts) (p_link : Part.link ∈ g.parts) (p_coll : Part.coll ∈ g.parts) (p_tier : Part.tier ∈ g.parts) (p_power : Part.power ∈ g.parts) (p_clock : Part.clock ∈ g.parts) (p_cross : Part.cross ∈ g.parts) (p_fw : Part.fw ∈ g.parts) (p_start : Part.start ∈ g.parts) (h : Within g s u) (k_collBytesTx : g.keys Obj.collBytesTx := by assumption) (k_collResends : g.keys Obj.collResends := by assumption) (k_duty : g.keys Obj.duty := by assumption) (k_flitsTx : ∀ n, g.keys (Obj.flitsTx n) := by assumption) (k_flowState : g.keys Obj.flowState := by assumption) (k_idResult : ∀ n, g.keys (Obj.idResult n) := by assumption) (k_logicalPlane : ∀ n, g.keys (Obj.logicalPlane n) := by assumption) (k_opInForce : g.keys Obj.opInForce := by assumption) (k_parks : g.keys Obj.parks := by assumption) (k_planePort : ∀ n, g.keys (Obj.planePort n) := by assumption) (k_portPowerState : ∀ n, g.keys (Obj.portPowerState n) := by assumption) (k_portState : ∀ n, g.keys (Obj.portState n) := by assumption) (k_powerState : g.keys Obj.powerState := by assumption) (k_remapCount : g.keys Obj.remapCount := by assumption) (k_vtrimMv : g.keys Obj.vtrimMv := by assumption) :
    Within g s (State.flowLossOff u) := by
  unfold State.flowLossOff
  extract_lets +onlyGivenNames -underBinder -merge _ s1
  have h2 : Within g s s1 := (Within.setStart p_start h)
  exact State.holdExit_within p_cmd p_link p_coll p_tier p_power p_clock p_cross p_fw p_start (State.endEpisode_within (State.wr_within h2 _ _))

theorem execFlowLossDeassert_within (p_cmd : Part.cmd ∈ g.parts) (p_link : Part.link ∈ g.parts) (p_coll : Part.coll ∈ g.parts) (p_tier : Part.tier ∈ g.parts) (p_power : Part.power ∈ g.parts) (p_clock : Part.clock ∈ g.parts) (p_cross : Part.cross ∈ g.parts) (p_fw : Part.fw ∈ g.parts) (p_start : Part.start ∈ g.parts) (h : Within g s u) (k_collBytesTx : g.keys Obj.collBytesTx := by assumption) (k_collResends : g.keys Obj.collResends := by assumption) (k_duty : g.keys Obj.duty := by assumption) (k_flitsTx : ∀ n, g.keys (Obj.flitsTx n) := by assumption) (k_flowState : g.keys Obj.flowState := by assumption) (k_idResult : ∀ n, g.keys (Obj.idResult n) := by assumption) (k_logicalPlane : ∀ n, g.keys (Obj.logicalPlane n) := by assumption) (k_opInForce : g.keys Obj.opInForce := by assumption) (k_parks : g.keys Obj.parks := by assumption) (k_planePort : ∀ n, g.keys (Obj.planePort n) := by assumption) (k_portPowerState : ∀ n, g.keys (Obj.portPowerState n) := by assumption) (k_portState : ∀ n, g.keys (Obj.portState n) := by assumption) (k_powerState : g.keys Obj.powerState := by assumption) (k_remapCount : g.keys Obj.remapCount := by assumption) (k_vtrimMv : g.keys Obj.vtrimMv := by assumption) :
    Leads g s (execFlowLossDeassert u) := by
  unfold execFlowLossDeassert
  exact Leads.next (State.flowLossOff_within p_cmd p_link p_coll p_tier p_power p_clock p_cross p_fw p_start h)

end Sys2Proof.Machine
end

