-- ==== Sys2Proof/Laws/WithinClocks.lean ====
section
/-! SUPPORT. What each operation of Machine/Clocks.lean may change, and that it keeps the form of the state. -/
namespace Sys2Proof.Machine
set_option Elab.async false

variable {g : Scope} {s u : State}

theorem State.setClock_within {f : ClockState → ClockState} (p_clock : Part.clock ∈ g.parts) (h : Within g s u) :
    Within g s (State.setClock u f) := by
  unfold State.setClock
  exact Within.setClock p_clock h

theorem State.margin_within {r : Nat} {margin : Nat} {cycles : Nat} (p_clock : Part.clock ∈ g.parts) (h : Within g s u) (k_regionMargin : ∀ n, g.keys (Obj.regionMargin n) := by assumption) (k_stretchCycles : g.keys Obj.stretchCycles := by assumption) :
    Within g s (State.margin u r margin cycles) := by
  unfold State.margin
  extract_lets +onlyGivenNames -underBinder -merge n1
  extract_lets +onlyGivenNames -underBinder -merge s2
  have h3 : Within g s s2 := (State.setClock_within p_clock h)
  extract_lets +onlyGivenNames -underBinder -merge s4
  have h5 : Within g s s4 := (State.wr_within h3 _ _)
  exact Within.ite h5 (State.count_within h5)

theorem State.stretchRise_within {r : Nat} {margin : Nat} {cycles : Nat} (p_clock : Part.clock ∈ g.parts) (h : Within g s u) (k_regionLevel : ∀ n, g.keys (Obj.regionLevel n) := by assumption) (k_regionMargin : ∀ n, g.keys (Obj.regionMargin n) := by assumption) (k_stretchCycles : g.keys Obj.stretchCycles := by assumption) (k_stretchEpisodes : g.keys Obj.stretchEpisodes := by assumption) :
    Within g s (State.stretchRise u r margin cycles) := by
  unfold State.stretchRise
  extract_lets +onlyGivenNames -underBinder -merge n1
  extract_lets +onlyGivenNames -underBinder -merge n2
  extract_lets +onlyGivenNames -underBinder -merge s3
  have h4 : Within g s s3 := (State.margin_within p_clock h)
  exact Within.ite h4 (by
    extract_lets +onlyGivenNames -underBinder -merge s5
    have h6 : Within g s s5 := (State.wr_within h4 _ _)
    exact Within.ite (State.count_within h6) h6)

theorem execStretchRise_within {r : Fin 12} {run : RegionRun} (p_clock : Part.clock ∈ g.parts) (h : Within g s u) (k_regionLevel : ∀ n, g.keys (Obj.regionLevel n) := by assumption) (k_regionMargin : ∀ n, g.keys (Obj.regionMargin n) := by assumption) (k_stretchCycles : g.keys Obj.stretchCycles := by assumption) (k_stretchEpisodes : g.keys Obj.stretchEpisodes := by assumption) :
    Leads g s (execStretchRise r run u) := by
  unfold execStretchRise
  exact Leads.next (State.stretchRise_within p_clock h)

theorem State.stretchDown_within {r : Nat} {margin : Nat} {cycles : Nat} (p_clock : Part.clock ∈ g.parts) (h : Within g s u) (k_regionLevel : ∀ n, g.keys (Obj.regionLevel n) := by assumption) (k_regionMargin : ∀ n, g.keys (Obj.regionMargin n) := by assumption) (k_stretchCycles : g.keys Obj.stretchCycles := by assumption) :
    Within g s (State.stretchDown u r margin cycles) := by
  unfold State.stretchDown
  extract_lets +onlyGivenNames -underBinder -merge n1
  extract_lets +onlyGivenNames -underBinder -merge s2
  have h3 : Within g s s2 := (State.margin_within p_clock h)
  exact Within.ite h3 (State.wr_within h3 _ _)

theorem execStretchStepDown_within {r : Fin 12} {run : RegionRun} (p_clock : Part.clock ∈ g.parts) (h : Within g s u) (k_regionLevel : ∀ n, g.keys (Obj.regionLevel n) := by assumption) (k_regionMargin : ∀ n, g.keys (Obj.regionMargin n) := by assumption) (k_stretchCycles : g.keys Obj.stretchCycles := by assumption) :
    Leads g s (execStretchStepDown r run u) := by
  unfold execStretchStepDown
  exact Leads.next (State.stretchDown_within p_clock h)

theorem State.reedMask_within {row : Nat} {col : Nat} {mon : Nat} (p_clock : Part.clock ∈ g.parts) (p_start : Part.start ∈ g.parts) (h : Within g s u) (k_reedMasked : g.keys Obj.reedMasked := by assumption) (k_regionLevel : ∀ n, g.keys (Obj.regionLevel n) := by assumption) (k_stretchEpisodes : g.keys Obj.stretchEpisodes := by assumption) :
    Within g s (State.reedMask u row col mon) := by
  unfold State.reedMask
  extract_lets +onlyGivenNames -underBinder -merge n1
  exact Within.ite h (by
    extract_lets +onlyGivenNames -underBinder -merge s2
    have h3 : Within g s s2 := (State.setClock_within p_clock h)
    extract_lets +onlyGivenNames -underBinder -merge s4
    have h5 : Within g s s4 := (State.raise_within (State.wr_within h3 _ _))
    exact Within.ite h5 (by
      extract_lets +onlyGivenNames -underBinder -merge n6
      extract_lets +onlyGivenNames -underBinder -merge s7
      have h8 : Within g s s7 := (State.tileEntry_within p_start h5)
      exact Within.ite (State.count_within (State.wr_within h8 _ _)) h8))

theorem execReedMasked_within {row : Fin 12} {col : Fin 17} {mon : Fin 4} (p_clock : Part.clock ∈ g.parts) (p_start : Part.start ∈ g.parts) (h : Within g s u) (k_reedMasked : g.keys Obj.reedMasked := by assumption) (k_regionLevel : ∀ n, g.keys (Obj.regionLevel n) := by assumption) (k_stretchEpisodes : g.keys Obj.stretchEpisodes := by assumption) :
    Leads g s (execReedMasked row col mon u) := by
  unfold execReedMasked
  exact Leads.next (State.reedMask_within p_clock p_start h)

theorem State.voltageLoop_within {w : Nat} (p_power : Part.power ∈ g.parts) (p_clock : Part.clock ∈ g.parts) (h : Within g s u) (k_learnedTrim : ∀ n, g.keys (Obj.learnedTrim n) := by assumption) (k_vtrimMv : g.keys Obj.vtrimMv := by assumption) :
    Within g s (State.voltageLoop u w) := by
  unfold State.voltageLoop
  exact Within.ite h (by
    extract_lets +onlyGivenNames -underBinder -merge n1
    extract_lets +onlyGivenNames -underBinder -merge n2
    extract_lets +onlyGivenNames -underBinder -merge s3
    have h4 : Within g s s3 := (State.wr_within (State.wr_within h _ _) _ _)
    extract_lets +onlyGivenNames -underBinder -merge s5
    have h6 : Within g s s5 := (State.setRail_within p_power h4)
    exact State.setClock_within p_clock h6)

theorem execVoltageLoop_within {w : Nat} (p_power : Part.power ∈ g.parts) (p_clock : Part.clock ∈ g.parts) (h : Within g s u) (k_learnedTrim : ∀ n, g.keys (Obj.learnedTrim n) := by assumption) (k_vtrimMv : g.keys Obj.vtrimMv := by assumption) :
    Leads g s (execVoltageLoop w u) := by
  unfold execVoltageLoop
  exact Leads.next (State.voltageLoop_within p_power p_clock h)

theorem State.marginLow_within {r : Nat} {ppm : Nat} (p_clock : Part.clock ∈ g.parts) (h : Within g s u) (k_marginLowEvents : g.keys Obj.marginLowEvents := by assumption) (k_regionStretchPpm : ∀ n, g.keys (Obj.regionStretchPpm n) := by assumption) :
    Within g s (State.marginLow u r ppm) := by
  unfold State.marginLow
  extract_lets +onlyGivenNames -underBinder -merge s1
  have h2 : Within g s s1 := (State.setClock_within p_clock (State.wr_within h _ _))
  extract_lets +onlyGivenNames -underBinder -merge n3
  exact Within.ite (Within.ite h2 (by
    extract_lets +onlyGivenNames -underBinder -merge s4
    have h5 : Within g s s4 := (State.countSat_within (State.raiseOnce_within h2))
    exact State.setClock_within p_clock h5)) (Within.ite h2 (State.endEpisode_within h2))

theorem execMarginLow_within {r : Fin 12} {ppm : Nat} (p_clock : Part.clock ∈ g.parts) (h : Within g s u) (k_marginLowEvents : g.keys Obj.marginLowEvents := by assumption) (k_regionStretchPpm : ∀ n, g.keys (Obj.regionStretchPpm n) := by assumption) :
    Leads g s (execMarginLow r ppm u) := by
  unfold execMarginLow
  exact Leads.next (State.marginLow_within p_clock h)

theorem State.ageWrite_within {cause : Nat} (p_clock : Part.clock ∈ g.parts) (p_start : Part.start ∈ g.parts) (h : Within g s u) (k_ageCount : g.keys Obj.ageCount := by assumption) :
    Within g s (State.ageWrite u cause) := by
  unfold State.ageWrite
  extract_lets +onlyGivenNames -underBinder -merge n1
  extract_lets +onlyGivenNames -underBinder -merge n2
  extract_lets +onlyGivenNames -underBinder -merge s3
  have h4 : Within g s s3 := (State.wr_within (State.setClock_within p_clock h) _ _)
  extract_lets +onlyGivenNames -underBinder -merge n5
  extract_lets +onlyGivenNames -underBinder -merge s6
  have h7 : Within g s s6 := (Within.ite (State.lifeWarn_within p_start (State.raise_within h4)) h4)
  exact Within.ite h7 (by
    extract_lets +onlyGivenNames -underBinder -merge n8
    extract_lets +onlyGivenNames -underBinder -merge s9
    have h10 : Within g s s9 := (State.setClock_within p_clock h7)
    exact Within.ite (State.lifeExceed_within p_start h10) h10)

theorem State.ageDue_within (p_clock : Part.clock ∈ g.parts) (p_start : Part.start ∈ g.parts) (h : Within g s u) (k_ageCount : g.keys Obj.ageCount := by assumption) :
    Within g s (State.ageDue u) := by
  unfold State.ageDue
  exact Within.ite (State.ageWrite_within p_clock p_start (State.setClock_within p_clock h)) (Within.ite (State.ageWrite_within p_clock p_start h) (by
    split
    · exact State.ageWrite_within p_clock p_start (State.setClock_within p_clock h)
    · exact h))

theorem execAgeingRecordWrite_within (p_clock : Part.clock ∈ g.parts) (p_start : Part.start ∈ g.parts) (h : Within g s u) (k_ageCount : g.keys Obj.ageCount := by assumption) :
    Leads g s (execAgeingRecordWrite u) := by
  unfold execAgeingRecordWrite
  exact Leads.next (Within.ite (State.ageDue_within p_clock p_start h) h)

theorem State.loadTrims_within (h : Within g s u) (k_learnedTrim : ∀ n, g.keys (Obj.learnedTrim n) := by assumption) :
    Within g s (State.loadTrims u) := by
  unfold State.loadTrims
  split
  · exact h
  · exact Within.foldl (fun x6 x7 h8 => (State.wr_within h8 _ _)) h

theorem State.droneSync_within {skewed : List Nat} (p_clock : Part.clock ∈ g.parts) (h : Within g s u) (k_droneCorrections : g.keys Obj.droneCorrections := by assumption) :
    Within g s (State.droneSync u skewed) := by
  unfold State.droneSync
  exact Within.ite h (by
    extract_lets +onlyGivenNames -underBinder -merge n1
    extract_lets +onlyGivenNames -underBinder -merge s2
    have h3 : Within g s s2 := (State.setClock_within p_clock h)
    exact Within.foldl (fun x4 x5 h6 => (State.raise_within (State.countSat_within h6))) h3)

theorem execDroneSync_within {skewed : List Nat} (p_clock : Part.clock ∈ g.parts) (h : Within g s u) (k_droneCorrections : g.keys Obj.droneCorrections := by assumption) :
    Leads g s (execDroneSync skewed u) := by
  unfold execDroneSync
  exact Leads.next (State.droneSync_within p_clock h)

theorem State.saveTime_within (p_clock : Part.clock ∈ g.parts) (p_start : Part.start ∈ g.parts) (h : Within g s u) (k_poweredSTotal : g.keys Obj.poweredSTotal := by assumption) :
    Within g s (State.saveTime u) := by
  unfold State.saveTime
  extract_lets +onlyGivenNames -underBinder -merge n1
  exact Within.ite h (by
    extract_lets +onlyGivenNames -underBinder -merge s2
    have h3 : Within g s s2 := (State.setClock_within p_clock (State.count_within h))
    extract_lets +onlyGivenNames -underBinder -merge n4
    exact Within.ite (State.lifeExceed_within p_start h3) (Within.ite (State.lifeWarn_within p_start h3) h3))

theorem execPoweredTimeSave_within (p_clock : Part.clock ∈ g.parts) (p_start : Part.start ∈ g.parts) (h : Within g s u) (k_poweredSTotal : g.keys Obj.poweredSTotal := by assumption) :
    Leads g s (execPoweredTimeSave u) := by
  unfold execPoweredTimeSave
  exact Leads.next (State.saveTime_within p_clock p_start h)

end Sys2Proof.Machine
end

