-- ==== Sys2Proof/Laws/WithinStartup.lean ====
section
/-! SUPPORT. What each operation of Machine/Startup.lean may change, and that it keeps the form of the state. -/
namespace Sys2Proof.Machine
set_option Elab.async false

variable {g : Scope} {s u : State}

theorem State.setStart_within {f : StartState → StartState} (p_start : Part.start ∈ g.parts) (h : Within g s u) :
    Within g s (State.setStart u f) := by
  unfold State.setStart
  exact Within.setStart p_start h

theorem State.mapObjects_within (p_start : Part.start ∈ g.parts) (h : Within g s u) (k_retiredCol : ∀ n, g.keys (Obj.retiredCol n) := by assumption) (k_retiredCount : g.keys Obj.retiredCount := by assumption) :
    Within g s (State.mapObjects u) := by
  unfold State.mapObjects
  extract_lets +onlyGivenNames -underBinder -merge s1
  have h2 : Within g s s1 := (Within.foldl (fun x3 x4 h5 => (State.wr_within h5 _ _)) h)
  extract_lets +onlyGivenNames -underBinder -merge n6
  extract_lets +onlyGivenNames -underBinder -merge s7
  have h8 : Within g s s7 := (State.wr_within h2 _ _)
  extract_lets +onlyGivenNames -underBinder -merge s9
  have h10 : Within g s s9 := (Within.ite (State.lifeWarn_within p_start h8) h8)
  exact Within.ite (State.lifeExceed_within p_start h10) h10

theorem State.retireTiles_within (p_start : Part.start ∈ g.parts) (h : Within g s u) (k_retiredCol : ∀ n, g.keys (Obj.retiredCol n) := by assumption) (k_retiredCount : g.keys Obj.retiredCount := by assumption) :
    Within g s (State.retireTiles u) := by
  unfold State.retireTiles
  extract_lets +onlyGivenNames -underBinder -merge n1
  extract_lets +onlyGivenNames -underBinder -merge s2
  have h3 : Within g s s2 := (State.setStart_within p_start h)
  extract_lets +onlyGivenNames -underBinder -merge s4
  have h5 : Within g s s4 := (Within.foldl (fun x6 x7 h8 => (by
    split
    · exact State.raise_within h8
    · exact h8)) h3)
  exact State.mapObjects_within p_start h5

theorem State.reportFlash_within (h : Within g s u) (k_any : ∀ k, g.keys k := by assumption) :
    Within g s (State.reportFlash u) := by
  unfold State.reportFlash
  extract_lets s1
  have h1 : Within g s s1 := Within.foldl (fun _ _ hv => State.raiseAny_within hv k_any) h
  exact Within.setDict h1 rfl id

theorem State.powerGood_within {written : Bool} (p_now : Part.now ∈ g.parts) (p_standby : Part.standby ∈ g.parts) (p_staged : Part.staged ∈ g.parts) (p_store : Part.store ∈ g.parts) (p_clock : Part.clock ∈ g.parts) (p_start : Part.start ∈ g.parts) (h : Within g s u) (k_activeSlot : g.keys Obj.activeSlot := by assumption) (k_any : ∀ k, g.keys k := by assumption) (k_dictVersion : g.keys Obj.dictVersion := by assumption) (k_fwVersion : g.keys Obj.fwVersion := by assumption) (k_moduleState : g.keys Obj.moduleState := by assumption) (k_powerSession : g.keys Obj.powerSession := by assumption) (k_retiredCol : ∀ n, g.keys (Obj.retiredCol n) := by assumption) (k_retiredCount : g.keys Obj.retiredCount := by assumption) (k_sessionStartPoweredS : g.keys Obj.sessionStartPoweredS := by assumption) (k_settingsResetCount : g.keys Obj.settingsResetCount := by assumption) (k_settingsState : g.keys Obj.settingsState := by assumption) (k_szState : ∀ n, g.keys (Obj.szState n) := by assumption) :
    Within g s (State.powerGood u written) := by
  unfold State.powerGood
  exact Within.ite h (by
    extract_lets +onlyGivenNames -underBinder -merge s1
    have h2 : Within g s s1 := (Within.many h rfl (fun p => by cases p <;> first | exact .inr rfl | exact .inl ‹_›) (fun f => ⟨f.1, f.2, f.3, f.4, f.5, f.6, f.7, f.8, f.9, f.10, f.11, f.12⟩) rfl)
    extract_lets +onlyGivenNames -underBinder -merge s3
    have h4 : Within g s s3 := (State.setClock_within p_clock h2)
    extract_lets +onlyGivenNames -underBinder -merge n5
    extract_lets +onlyGivenNames -underBinder -merge n6
    extract_lets +onlyGivenNames -underBinder -merge s7
    have h8 : Within g s s7 := (State.setStart_within p_start h4)
    extract_lets +onlyGivenNames -underBinder -merge s9
    have h10 : Within g s s9 := (State.wr_within (State.wr_within (State.wr_within h8 _ _) _ _) _ _)
    extract_lets +onlyGivenNames -underBinder -merge s11
    have h12 : Within g s s11 := (State.retireTiles_within p_start (State.loadSettings_within p_staged p_store (State.readVersions_within h10)))
    extract_lets +onlyGivenNames -underBinder -merge s13
    have h14 : Within g s s13 := (Within.ite (Within.ite (State.raise_within h12) h12) (State.raise_within h12))
    exact State.reportFlash_within h14)

theorem execStandbyPowerGood_within {written : Bool} (p_now : Part.now ∈ g.parts) (p_standby : Part.standby ∈ g.parts) (p_staged : Part.staged ∈ g.parts) (p_store : Part.store ∈ g.parts) (p_clock : Part.clock ∈ g.parts) (p_start : Part.start ∈ g.parts) (h : Within g s u) (k_activeSlot : g.keys Obj.activeSlot := by assumption) (k_any : ∀ k, g.keys k := by assumption) (k_dictVersion : g.keys Obj.dictVersion := by assumption) (k_fwVersion : g.keys Obj.fwVersion := by assumption) (k_moduleState : g.keys Obj.moduleState := by assumption) (k_powerSession : g.keys Obj.powerSession := by assumption) (k_retiredCol : ∀ n, g.keys (Obj.retiredCol n) := by assumption) (k_retiredCount : g.keys Obj.retiredCount := by assumption) (k_sessionStartPoweredS : g.keys Obj.sessionStartPoweredS := by assumption) (k_settingsResetCount : g.keys Obj.settingsResetCount := by assumption) (k_settingsState : g.keys Obj.settingsState := by assumption) (k_szState : ∀ n, g.keys (Obj.szState n) := by assumption) :
    Leads g s (execStandbyPowerGood written u) := by
  unfold execStandbyPowerGood
  exact Leads.next (State.powerGood_within p_now p_standby p_staged p_store p_clock p_start h)

theorem State.slotSample_within {v : Nat} (p_start : Part.start ∈ g.parts) (h : Within g s u) (k_fldNode : g.keys Obj.fldNode := by assumption) :
    Within g s (State.slotSample u v) := by
  unfold State.slotSample
  exact Within.ite h (by
    extract_lets +onlyGivenNames -underBinder -merge n1
    extract_lets +onlyGivenNames -underBinder -merge n2
    extract_lets +onlyGivenNames -underBinder -merge s3
    have h4 : Within g s s3 := (State.setStart_within p_start h)
    clear_value n2
    split
    · exact Within.ite h4 (State.wr_within h4 _ _)
    · exact h4)

theorem execSlotIdSample_within {v : Fin 64} (p_start : Part.start ∈ g.parts) (h : Within g s u) (k_fldNode : g.keys Obj.fldNode := by assumption) :
    Leads g s (execSlotIdSample v u) := by
  unfold execSlotIdSample
  exact Leads.next (State.slotSample_within p_start h)

theorem State.hostDown_within {p1 : HostPort} (p_prep : Part.prep ∈ g.parts) (p_bar0 : Part.bar0 ∈ g.parts) (p_cmd : Part.cmd ∈ g.parts) (p_castMem : Part.castMem ∈ g.parts) (p_tile : Part.tile ∈ g.parts) (p_spans : Part.spans ∈ g.parts) (p_upd : Part.upd ∈ g.parts) (p_link : Part.link ∈ g.parts) (p_coll : Part.coll ∈ g.parts) (p_tier : Part.tier ∈ g.parts) (p_store : Part.store ∈ g.parts) (p_cross : Part.cross ∈ g.parts) (p_fw : Part.fw ∈ g.parts) (p_start : Part.start ∈ g.parts) (h : Within g s u) (k_actMode : g.keys Obj.actMode := by assumption) (k_actStep : g.keys Obj.actStep := by assumption) (k_chRetired : ∀ n, g.keys (Obj.chRetired n) := by assumption) (k_collBytesTx : g.keys Obj.collBytesTx := by assumption) (k_collMismatchCycles : g.keys Obj.collMismatchCycles := by assumption) (k_decState : ∀ n, g.keys (Obj.decState n) := by assumption) (k_flitsTx : ∀ n, g.keys (Obj.flitsTx n) := by assumption) (k_groupState : g.keys Obj.groupState := by assumption) (k_ideState : ∀ n, g.keys (Obj.ideState n) := by assumption) (k_lenderKey : ∀ n, g.keys (lenderKey n) := by assumption) (k_linkRate : ∀ n, g.keys (Obj.linkRate n) := by assumption) (k_linkState : ∀ n, g.keys (Obj.linkState n) := by assumption) (k_linkWidth : ∀ n, g.keys (Obj.linkWidth n) := by assumption) (k_prepEpoch : g.keys Obj.prepEpoch := by assumption) (k_prepStep : g.keys Obj.prepStep := by assumption) (k_sparePages : g.keys Obj.sparePages := by assumption) (k_t1PoolPages : g.keys Obj.t1PoolPages := by assumption) (k_tmDiscards : g.keys Obj.tmDiscards := by assumption) (k_tmEvictions : g.keys Obj.tmEvictions := by assumption) (k_tmWaitCycles : g.keys Obj.tmWaitCycles := by assumption) :
    Within g s (State.hostDown u p1) := by
  unfold State.hostDown
  extract_lets +onlyGivenNames -underBinder -merge n1
  extract_lets +onlyGivenNames -underBinder -merge s2
  have h3 : Within g s s2 := (State.wr_within (State.wr_within (State.wr_within h _ _) _ _) _ _)
  extract_lets +onlyGivenNames -underBinder -merge s4
  have h5 : Within g s s4 := (Within.ite (State.lenderLost_within p_prep p_bar0 p_cmd p_castMem p_tile p_spans p_upd p_link p_coll p_tier p_store p_cross p_start h3) h3)
  extract_lets +onlyGivenNames -underBinder -merge s6
  have h7 : Within g s s6 := (State.resetPort_within p_cmd (State.setIdeKey_within p_fw (State.ideStop_within h5)))
  extract_lets +onlyGivenNames -underBinder -merge s8
  have h9 : Within g s s8 := (Within.ite (State.wr_within h7 _ _) h7)
  exact State.setSpdm_within p_fw h9

theorem execHostLinkDown_within {p0 : HostPort} (p_prep : Part.prep ∈ g.parts) (p_bar0 : Part.bar0 ∈ g.parts) (p_cmd : Part.cmd ∈ g.parts) (p_castMem : Part.castMem ∈ g.parts) (p_tile : Part.tile ∈ g.parts) (p_spans : Part.spans ∈ g.parts) (p_upd : Part.upd ∈ g.parts) (p_link : Part.link ∈ g.parts) (p_coll : Part.coll ∈ g.parts) (p_tier : Part.tier ∈ g.parts) (p_store : Part.store ∈ g.parts) (p_cross : Part.cross ∈ g.parts) (p_fw : Part.fw ∈ g.parts) (p_start : Part.start ∈ g.parts) (h : Within g s u) (k_actMode : g.keys Obj.actMode := by assumption) (k_actStep : g.keys Obj.actStep := by assumption) (k_chRetired : ∀ n, g.keys (Obj.chRetired n) := by assumption) (k_collBytesTx : g.keys Obj.collBytesTx := by assumption) (k_collMismatchCycles : g.keys Obj.collMismatchCycles := by assumption) (k_decState : ∀ n, g.keys (Obj.decState n) := by assumption) (k_flitsTx : ∀ n, g.keys (Obj.flitsTx n) := by assumption) (k_groupState : g.keys Obj.groupState := by assumption) (k_ideState : ∀ n, g.keys (Obj.ideState n) := by assumption) (k_lenderKey : ∀ n, g.keys (lenderKey n) := by assumption) (k_linkRate : ∀ n, g.keys (Obj.linkRate n) := by assumption) (k_linkState : ∀ n, g.keys (Obj.linkState n) := by assumption) (k_linkWidth : ∀ n, g.keys (Obj.linkWidth n) := by assumption) (k_prepEpoch : g.keys Obj.prepEpoch := by assumption) (k_prepStep : g.keys Obj.prepStep := by assumption) (k_sparePages : g.keys Obj.sparePages := by assumption) (k_t1PoolPages : g.keys Obj.t1PoolPages := by assumption) (k_tmDiscards : g.keys Obj.tmDiscards := by assumption) (k_tmEvictions : g.keys Obj.tmEvictions := by assumption) (k_tmWaitCycles : g.keys Obj.tmWaitCycles := by assumption) :
    Leads g s (execHostLinkDown p0 u) := by
  unfold execHostLinkDown
  exact Leads.next (Within.ite h (State.hostDown_within p_prep p_bar0 p_cmd p_castMem p_tile p_spans p_upd p_link p_coll p_tier p_store p_cross p_fw p_start h))

theorem execHostLinkUp_within {p0 : HostPort} {rate : Nat} {width : Nat} (h : Within g s u) (k_linkRate : ∀ n, g.keys (Obj.linkRate n) := by assumption) (k_linkState : ∀ n, g.keys (Obj.linkState n) := by assumption) (k_linkWidth : ∀ n, g.keys (Obj.linkWidth n) := by assumption) :
    Leads g s (execHostLinkUp p0 rate width u) := by
  unfold execHostLinkUp
  exact Leads.next (by
    extract_lets +onlyGivenNames -underBinder -merge n1
    exact Within.ite (State.wr_within (State.wr_within (State.wr_within h _ _) _ _) _ _) h)

theorem State.hostTrain_within {p1 : HostPort} (h : Within g s u) (k_linkState : ∀ n, g.keys (Obj.linkState n) := by assumption) :
    Within g s (State.hostTrain u p1) := by
  unfold State.hostTrain
  extract_lets +onlyGivenNames -underBinder -merge n1
  exact Within.ite (State.wr_within h _ _) h

theorem State.setPerst_within {p1 : HostPort} {v : Bool} (p_start : Part.start ∈ g.parts) (h : Within g s u) :
    Within g s (State.setPerst u p1 v) := by
  unfold State.setPerst
  exact State.setStart_within p_start h

theorem execPerstAssert_within {p0 : HostPort} (p_prep : Part.prep ∈ g.parts) (p_bar0 : Part.bar0 ∈ g.parts) (p_cmd : Part.cmd ∈ g.parts) (p_castMem : Part.castMem ∈ g.parts) (p_tile : Part.tile ∈ g.parts) (p_spans : Part.spans ∈ g.parts) (p_upd : Part.upd ∈ g.parts) (p_link : Part.link ∈ g.parts) (p_coll : Part.coll ∈ g.parts) (p_tier : Part.tier ∈ g.parts) (p_store : Part.store ∈ g.parts) (p_cross : Part.cross ∈ g.parts) (p_fw : Part.fw ∈ g.parts) (p_start : Part.start ∈ g.parts) (h : Within g s u) (k_actMode : g.keys Obj.actMode := by assumption) (k_actStep : g.keys Obj.actStep := by assumption) (k_chRetired : ∀ n, g.keys (Obj.chRetired n) := by assumption) (k_collBytesTx : g.keys Obj.collBytesTx := by assumption) (k_collMismatchCycles : g.keys Obj.collMismatchCycles := by assumption) (k_decState : ∀ n, g.keys (Obj.decState n) := by assumption) (k_flitsTx : ∀ n, g.keys (Obj.flitsTx n) := by assumption) (k_groupState : g.keys Obj.groupState := by assumption) (k_ideState : ∀ n, g.keys (Obj.ideState n) := by assumption) (k_lenderKey : ∀ n, g.keys (lenderKey n) := by assumption) (k_linkRate : ∀ n, g.keys (Obj.linkRate n) := by assumption) (k_linkState : ∀ n, g.keys (Obj.linkState n) := by assumption) (k_linkWidth : ∀ n, g.keys (Obj.linkWidth n) := by assumption) (k_prepEpoch : g.keys Obj.prepEpoch := by assumption) (k_prepStep : g.keys Obj.prepStep := by assumption) (k_sparePages : g.keys Obj.sparePages := by assumption) (k_t1PoolPages : g.keys Obj.t1PoolPages := by assumption) (k_tmDiscards : g.keys Obj.tmDiscards := by assumption) (k_tmEvictions : g.keys Obj.tmEvictions := by assumption) (k_tmWaitCycles : g.keys Obj.tmWaitCycles := by assumption) :
    Leads g s (execPerstAssert p0 u) := by
  unfold execPerstAssert
  exact Leads.next (State.hostDown_within p_prep p_bar0 p_cmd p_castMem p_tile p_spans p_upd p_link p_coll p_tier p_store p_cross p_fw p_start (State.setPerst_within p_start h))

theorem execPerstRelease_within {p0 : HostPort} (p_start : Part.start ∈ g.parts) (h : Within g s u) (k_linkState : ∀ n, g.keys (Obj.linkState n) := by assumption) :
    Leads g s (execPerstRelease p0 u) := by
  unfold execPerstRelease
  exact Leads.next (State.hostTrain_within (State.setPerst_within p_start h))

theorem State.toStage_within {k : Nat} (p_start : Part.start ∈ g.parts) (h : Within g s u) :
    Within g s (State.toStage u k) := by
  unfold State.toStage
  exact State.setStart_within p_start h

theorem State.fromStage2_within (p_start : Part.start ∈ g.parts) (h : Within g s u) (k_moduleState : g.keys Obj.moduleState := by assumption) :
    Within g s (State.fromStage2 u) := by
  unfold State.fromStage2
  exact State.toStage_within p_start (State.wr_within h _ _)

theorem State.stage5_within (p_power : Part.power ∈ g.parts) (p_start : Part.start ∈ g.parts) (h : Within g s u) (k_learnedTrim : ∀ n, g.keys (Obj.learnedTrim n) := by assumption) (k_moduleState : g.keys Obj.moduleState := by assumption) (k_opInForce : g.keys Obj.opInForce := by assumption) :
    Within g s (State.stage5 u) := by
  unfold State.stage5
  extract_lets +onlyGivenNames -underBinder -merge s1
  have h2 : Within g s s1 := (State.setPower_within p_power (State.wr_within h _ _))
  exact Within.ite (State.toStage_within p_start h2) (Within.ite (State.wr_within (State.raise_within h2) _ _) (State.toStage_within p_start (State.loadTrims_within h2)))

theorem State.operational_within (p_cmd : Part.cmd ∈ g.parts) (p_link : Part.link ∈ g.parts) (p_coll : Part.coll ∈ g.parts) (p_tier : Part.tier ∈ g.parts) (p_power : Part.power ∈ g.parts) (p_clock : Part.clock ∈ g.parts) (p_cross : Part.cross ∈ g.parts) (p_fw : Part.fw ∈ g.parts) (p_start : Part.start ∈ g.parts) (h : Within g s u) (k_ceilingThermal : g.keys Obj.ceilingThermal := by assumption) (k_collBytesTx : g.keys Obj.collBytesTx := by assumption) (k_collResends : g.keys Obj.collResends := by assumption) (k_duty : g.keys Obj.duty := by assumption) (k_e2DeferredMs : g.keys Obj.e2DeferredMs := by assumption) (k_flitsTx : ∀ n, g.keys (Obj.flitsTx n) := by assumption) (k_followingMs : g.keys Obj.followingMs := by assumption) (k_groupAnchor : g.keys Obj.groupAnchor := by assumption) (k_groupRank : g.keys Obj.groupRank := by assumption) (k_groupSize : g.keys Obj.groupSize := by assumption) (k_groupState : g.keys Obj.groupState := by assumption) (k_idResult : ∀ n, g.keys (Obj.idResult n) := by assumption) (k_logicalPlane : ∀ n, g.keys (Obj.logicalPlane n) := by assumption) (k_moduleState : g.keys Obj.moduleState := by assumption) (k_opInForce : g.keys Obj.opInForce := by assumption) (k_parks : g.keys Obj.parks := by assumption) (k_planePort : ∀ n, g.keys (Obj.planePort n) := by assumption) (k_portPowerState : ∀ n, g.keys (Obj.portPowerState n) := by assumption) (k_portState : ∀ n, g.keys (Obj.portState n) := by assumption) (k_powerState : g.keys Obj.powerState := by assumption) (k_remapCount : g.keys Obj.remapCount := by assumption) (k_shapeDigest : g.keys Obj.shapeDigest := by assumption) (k_throttledMs : g.keys Obj.throttledMs := by assumption) (k_tj : g.keys Obj.tj := by assumption) (k_vtrimMv : g.keys Obj.vtrimMv := by assumption) :
    Within g s (State.operational u) := by
  unfold State.operational
  extract_lets +onlyGivenNames -underBinder -merge n1
  extract_lets +onlyGivenNames -underBinder -merge s2
  have h3 : Within g s s2 := (State.setStart_within p_start (State.wr_within h _ _))
  extract_lets +onlyGivenNames -underBinder -merge n4
  extract_lets +onlyGivenNames -underBinder -merge _ s5
  have h6 : Within g s s5 := (Within.ite (Within.ite (Within.setFw p_fw h3 rfl) (State.restartDone_within p_cmd p_tier p_power p_clock p_fw p_start h3)) (Within.ite h3 (State.startJoin_within p_link p_coll p_tier p_cross h3)))
  extract_lets +onlyGivenNames -underBinder -merge s7
  have h8 : Within g s s7 := (Within.ite h6 (State.setPower_within p_power (State.raise_within h6)))
  extract_lets +onlyGivenNames -underBinder -merge s9
  have h10 : Within g s s9 := (Within.ite (State.raiseOnce_within h8) h8)
  extract_lets +onlyGivenNames -underBinder -merge s11
  have h12 : Within g s s11 := (Within.ite (State.enterHold_within p_link p_coll p_tier p_power p_clock p_cross p_start h10) h10)
  exact State.repower_within p_link p_coll p_tier p_power p_clock p_cross p_start h12

theorem State.selfTestFault_within {x : Nat} (p_start : Part.start ∈ g.parts) (h : Within g s u) :
    Within g s (State.selfTestFault u x) := by
  unfold State.selfTestFault
  exact State.raise_within (State.tileEntry_within p_start h)

theorem State.stageFault_within {reason : Nat} {final : Bool} (p_staged : Part.staged ∈ g.parts) (p_prep : Part.prep ∈ g.parts) (p_bar0 : Part.bar0 ∈ g.parts) (p_cmd : Part.cmd ∈ g.parts) (p_scratch : Part.scratch ∈ g.parts) (p_castMem : Part.castMem ∈ g.parts) (p_tile : Part.tile ∈ g.parts) (p_spans : Part.spans ∈ g.parts) (p_touches : Part.touches ∈ g.parts) (p_upd : Part.upd ∈ g.parts) (p_link : Part.link ∈ g.parts) (p_coll : Part.coll ∈ g.parts) (p_mem : Part.mem ∈ g.parts) (p_tier : Part.tier ∈ g.parts) (p_store : Part.store ∈ g.parts) (p_power : Part.power ∈ g.parts) (p_clock : Part.clock ∈ g.parts) (p_cross : Part.cross ∈ g.parts) (p_fw : Part.fw ∈ g.parts) (p_start : Part.start ∈ g.parts) (p_mirror : Part.mirror ∈ g.parts) (h : Within g s u) (k_any : ∀ k, g.keys k := by assumption) (k_ckptDigest : ∀ n, g.keys (Obj.ckptDigest n) := by assumption) (k_ckptHandle : ∀ n, g.keys (Obj.ckptHandle n) := by assumption) (k_ckptState : ∀ n, g.keys (Obj.ckptState n) := by assumption) (k_ckptStep : ∀ n, g.keys (Obj.ckptStep n) := by assumption) (k_moduleState : g.keys Obj.moduleState := by assumption) (k_slotState : ∀ n, g.keys (Obj.slotState n) := by assumption) :
    Within g s (State.stageFault u reason final) := by
  unfold State.stageFault
  extract_lets +onlyGivenNames -underBinder -merge n1
  extract_lets +onlyGivenNames -underBinder -merge n2
  extract_lets +onlyGivenNames -underBinder -merge s3
  have h4 : Within g s s3 := (State.lose_within p_staged p_prep p_bar0 p_cmd p_scratch p_castMem p_tile p_spans p_touches p_upd p_link p_coll p_mem p_tier p_store p_power p_clock p_cross p_fw p_start p_mirror (State.raise_within h))
  exact Within.ite (State.wr_within h4 _ _) (State.setStart_within p_start (State.wr_within h4 _ _))

theorem State.selfTest_within {bad : List Nat} (p_staged : Part.staged ∈ g.parts) (p_prep : Part.prep ∈ g.parts) (p_bar0 : Part.bar0 ∈ g.parts) (p_cmd : Part.cmd ∈ g.parts) (p_scratch : Part.scratch ∈ g.parts) (p_castMem : Part.castMem ∈ g.parts) (p_tile : Part.tile ∈ g.parts) (p_spans : Part.spans ∈ g.parts) (p_touches : Part.touches ∈ g.parts) (p_upd : Part.upd ∈ g.parts) (p_link : Part.link ∈ g.parts) (p_coll : Part.coll ∈ g.parts) (p_mem : Part.mem ∈ g.parts) (p_tier : Part.tier ∈ g.parts) (p_store : Part.store ∈ g.parts) (p_power : Part.power ∈ g.parts) (p_clock : Part.clock ∈ g.parts) (p_cross : Part.cross ∈ g.parts) (p_fw : Part.fw ∈ g.parts) (p_start : Part.start ∈ g.parts) (p_mirror : Part.mirror ∈ g.parts) (h : Within g s u) (k_any : ∀ k, g.keys k := by assumption) (k_ceilingThermal : g.keys Obj.ceilingThermal := by assumption) (k_ckptDigest : ∀ n, g.keys (Obj.ckptDigest n) := by assumption) (k_ckptHandle : ∀ n, g.keys (Obj.ckptHandle n) := by assumption) (k_ckptState : ∀ n, g.keys (Obj.ckptState n) := by assumption) (k_ckptStep : ∀ n, g.keys (Obj.ckptStep n) := by assumption) (k_collBytesTx : g.keys Obj.collBytesTx := by assumption) (k_collResends : g.keys Obj.collResends := by assumption) (k_duty : g.keys Obj.duty := by assumption) (k_e2DeferredMs : g.keys Obj.e2DeferredMs := by assumption) (k_flitsTx : ∀ n, g.keys (Obj.flitsTx n) := by assumption) (k_followingMs : g.keys Obj.followingMs := by assumption) (k_groupAnchor : g.keys Obj.groupAnchor := by assumption) (k_groupRank : g.keys Obj.groupRank := by assumption) (k_groupSize : g.keys Obj.groupSize := by assumption) (k_groupState : g.keys Obj.groupState := by assumption) (k_idResult : ∀ n, g.keys (Obj.idResult n) := by assumption) (k_logicalPlane : ∀ n, g.keys (Obj.logicalPlane n) := by assumption) (k_moduleState : g.keys Obj.moduleState := by assumption) (k_opInForce : g.keys Obj.opInForce := by assumption) (k_parks : g.keys Obj.parks := by assumption) (k_planePort : ∀ n, g.keys (Obj.planePort n) := by assumption) (k_portPowerState : ∀ n, g.keys (Obj.portPowerState n) := by assumption) (k_portState : ∀ n, g.keys (Obj.portState n) := by assumption) (k_powerState : g.keys Obj.powerState := by assumption) (k_remapCount : g.keys Obj.remapCount := by assumption) (k_retiredCol : ∀ n, g.keys (Obj.retiredCol n) := by assumption) (k_retiredCount : g.keys Obj.retiredCount := by assumption) (k_shapeDigest : g.keys Obj.shapeDigest := by assumption) (k_slotState : ∀ n, g.keys (Obj.slotState n) := by assumption) (k_throttledMs : g.keys Obj.throttledMs := by assumption) (k_tj : g.keys Obj.tj := by assumption) (k_vtrimMv : g.keys Obj.vtrimMv := by assumption) :
    Within g s (State.selfTest u bad) := by
  unfold State.selfTest
  extract_lets +onlyGivenNames -underBinder -merge n1
  extract_lets +onlyGivenNames -underBinder -merge s2
  have h3 : Within g s s2 := (Within.foldl (fun x4 x5 h6 => (State.selfTestFault_within p_start h6)) h)
  exact Within.ite (State.operational_within p_cmd p_link p_coll p_tier p_power p_clock p_cross p_fw p_start h3) (Within.ite (State.stageFault_within p_staged p_prep p_bar0 p_cmd p_scratch p_castMem p_tile p_spans p_touches p_upd p_link p_coll p_mem p_tier p_store p_power p_clock p_cross p_fw p_start p_mirror h3) (by
    extract_lets +onlyGivenNames -underBinder -merge s7
    have h8 : Within g s s7 := (State.setStart_within p_start (State.lose_within p_staged p_prep p_bar0 p_cmd p_scratch p_castMem p_tile p_spans p_touches p_upd p_link p_coll p_mem p_tier p_store p_power p_clock p_cross p_fw p_start p_mirror h3))
    exact State.fromStage2_within p_start (State.retireTiles_within p_start h8)))

theorem State.stageDone_within {bad : List Nat} (p_staged : Part.staged ∈ g.parts) (p_prep : Part.prep ∈ g.parts) (p_bar0 : Part.bar0 ∈ g.parts) (p_cmd : Part.cmd ∈ g.parts) (p_scratch : Part.scratch ∈ g.parts) (p_castMem : Part.castMem ∈ g.parts) (p_tile : Part.tile ∈ g.parts) (p_spans : Part.spans ∈ g.parts) (p_touches : Part.touches ∈ g.parts) (p_upd : Part.upd ∈ g.parts) (p_link : Part.link ∈ g.parts) (p_coll : Part.coll ∈ g.parts) (p_mem : Part.mem ∈ g.parts) (p_tier : Part.tier ∈ g.parts) (p_store : Part.store ∈ g.parts) (p_power : Part.power ∈ g.parts) (p_clock : Part.clock ∈ g.parts) (p_cross : Part.cross ∈ g.parts) (p_fw : Part.fw ∈ g.parts) (p_start : Part.start ∈ g.parts) (p_mirror : Part.mirror ∈ g.parts) (h : Within g s u) (k_any : ∀ k, g.keys k := by assumption) (k_ceilingThermal : g.keys Obj.ceilingThermal := by assumption) (k_ckptDigest : ∀ n, g.keys (Obj.ckptDigest n) := by assumption) (k_ckptHandle : ∀ n, g.keys (Obj.ckptHandle n) := by assumption) (k_ckptState : ∀ n, g.keys (Obj.ckptState n) := by assumption) (k_ckptStep : ∀ n, g.keys (Obj.ckptStep n) := by assumption) (k_collBytesTx : g.keys Obj.collBytesTx := by assumption) (k_collResends : g.keys Obj.collResends := by assumption) (k_duty : g.keys Obj.duty := by assumption) (k_e2DeferredMs : g.keys Obj.e2DeferredMs := by assumption) (k_flitsTx : ∀ n, g.keys (Obj.flitsTx n) := by assumption) (k_followingMs : g.keys Obj.followingMs := by assumption) (k_groupAnchor : g.keys Obj.groupAnchor := by assumption) (k_groupRank : g.keys Obj.groupRank := by assumption) (k_groupSize : g.keys Obj.groupSize := by assumption) (k_groupState : g.keys Obj.groupState := by assumption) (k_idResult : ∀ n, g.keys (Obj.idResult n) := by assumption) (k_learnedTrim : ∀ n, g.keys (Obj.learnedTrim n) := by assumption) (k_linkState : ∀ n, g.keys (Obj.linkState n) := by assumption) (k_logicalPlane : ∀ n, g.keys (Obj.logicalPlane n) := by assumption) (k_moduleState : g.keys Obj.moduleState := by assumption) (k_opInForce : g.keys Obj.opInForce := by assumption) (k_parks : g.keys Obj.parks := by assumption) (k_planePort : ∀ n, g.keys (Obj.planePort n) := by assumption) (k_portPowerState : ∀ n, g.keys (Obj.portPowerState n) := by assumption) (k_portState : ∀ n, g.keys (Obj.portState n) := by assumption) (k_powerState : g.keys Obj.powerState := by assumption) (k_remapCount : g.keys Obj.remapCount := by assumption) (k_retiredCol : ∀ n, g.keys (Obj.retiredCol n) := by assumption) (k_retiredCount : g.keys Obj.retiredCount := by assumption) (k_shapeDigest : g.keys Obj.shapeDigest := by assumption) (k_slotState : ∀ n, g.keys (Obj.slotState n) := by assumption) (k_throttledMs : g.keys Obj.throttledMs := by assumption) (k_tj : g.keys Obj.tj := by assumption) (k_vtrimMv : g.keys Obj.vtrimMv := by assumption) :
    Within g s (State.stageDone u bad) := by
  unfold State.stageDone
  exact Within.ite h (by
    split
    · exact Within.ite (State.toStage_within p_start h) h
    · exact Within.ite h (State.toStage_within p_start h)
    · exact State.toStage_within p_start (State.setRail_within p_power (State.wr_within (State.setStart_within p_start h) _ _))
    · exact Within.ite h (State.hostTrain_within (State.hostTrain_within (State.toStage_within p_start h)))
    · exact State.stage5_within p_power p_start h
    · exact State.toStage_within p_start h
    · exact State.toStage_within p_start h
    · exact State.selfTest_within p_staged p_prep p_bar0 p_cmd p_scratch p_castMem p_tile p_spans p_touches p_upd p_link p_coll p_mem p_tier p_store p_power p_clock p_cross p_fw p_start p_mirror h
    · exact h)

theorem execStartupStageDone_within {bad : List Nat} (p_staged : Part.staged ∈ g.parts) (p_prep : Part.prep ∈ g.parts) (p_bar0 : Part.bar0 ∈ g.parts) (p_cmd : Part.cmd ∈ g.parts) (p_scratch : Part.scratch ∈ g.parts) (p_castMem : Part.castMem ∈ g.parts) (p_tile : Part.tile ∈ g.parts) (p_spans : Part.spans ∈ g.parts) (p_touches : Part.touches ∈ g.parts) (p_upd : Part.upd ∈ g.parts) (p_link : Part.link ∈ g.parts) (p_coll : Part.coll ∈ g.parts) (p_mem : Part.mem ∈ g.parts) (p_tier : Part.tier ∈ g.parts) (p_store : Part.store ∈ g.parts) (p_power : Part.power ∈ g.parts) (p_clock : Part.clock ∈ g.parts) (p_cross : Part.cross ∈ g.parts) (p_fw : Part.fw ∈ g.parts) (p_start : Part.start ∈ g.parts) (p_mirror : Part.mirror ∈ g.parts) (h : Within g s u) (k_any : ∀ k, g.keys k := by assumption) (k_ceilingThermal : g.keys Obj.ceilingThermal := by assumption) (k_ckptDigest : ∀ n, g.keys (Obj.ckptDigest n) := by assumption) (k_ckptHandle : ∀ n, g.keys (Obj.ckptHandle n) := by assumption) (k_ckptState : ∀ n, g.keys (Obj.ckptState n) := by assumption) (k_ckptStep : ∀ n, g.keys (Obj.ckptStep n) := by assumption) (k_collBytesTx : g.keys Obj.collBytesTx := by assumption) (k_collResends : g.keys Obj.collResends := by assumption) (k_duty : g.keys Obj.duty := by assumption) (k_e2DeferredMs : g.keys Obj.e2DeferredMs := by assumption) (k_flitsTx : ∀ n, g.keys (Obj.flitsTx n) := by assumption) (k_followingMs : g.keys Obj.followingMs := by assumption) (k_groupAnchor : g.keys Obj.groupAnchor := by assumption) (k_groupRank : g.keys Obj.groupRank := by assumption) (k_groupSize : g.keys Obj.groupSize := by assumption) (k_groupState : g.keys Obj.groupState := by assumption) (k_idResult : ∀ n, g.keys (Obj.idResult n) := by assumption) (k_learnedTrim : ∀ n, g.keys (Obj.learnedTrim n) := by assumption) (k_linkState : ∀ n, g.keys (Obj.linkState n) := by assumption) (k_logicalPlane : ∀ n, g.keys (Obj.logicalPlane n) := by assumption) (k_moduleState : g.keys Obj.moduleState := by assumption) (k_opInForce : g.keys Obj.opInForce := by assumption) (k_parks : g.keys Obj.parks := by assumption) (k_planePort : ∀ n, g.keys (Obj.planePort n) := by assumption) (k_portPowerState : ∀ n, g.keys (Obj.portPowerState n) := by assumption) (k_portState : ∀ n, g.keys (Obj.portState n) := by assumption) (k_powerState : g.keys Obj.powerState := by assumption) (k_remapCount : g.keys Obj.remapCount := by assumption) (k_retiredCol : ∀ n, g.keys (Obj.retiredCol n) := by assumption) (k_retiredCount : g.keys Obj.retiredCount := by assumption) (k_shapeDigest : g.keys Obj.shapeDigest := by assumption) (k_slotState : ∀ n, g.keys (Obj.slotState n) := by assumption) (k_throttledMs : g.keys Obj.throttledMs := by assumption) (k_tj : g.keys Obj.tj := by assumption) (k_vtrimMv : g.keys Obj.vtrimMv := by assumption) :
    Leads g s (execStartupStageDone bad u) := by
  unfold execStartupStageDone
  exact Leads.next (State.stageDone_within p_staged p_prep p_bar0 p_cmd p_scratch p_castMem p_tile p_spans p_touches p_upd p_link p_coll p_mem p_tier p_store p_power p_clock p_cross p_fw p_start p_mirror h)

theorem execStartupStageFault_within {reason : Nat} (p_staged : Part.staged ∈ g.parts) (p_prep : Part.prep ∈ g.parts) (p_bar0 : Part.bar0 ∈ g.parts) (p_cmd : Part.cmd ∈ g.parts) (p_scratch : Part.scratch ∈ g.parts) (p_castMem : Part.castMem ∈ g.parts) (p_tile : Part.tile ∈ g.parts) (p_spans : Part.spans ∈ g.parts) (p_touches : Part.touches ∈ g.parts) (p_upd : Part.upd ∈ g.parts) (p_link : Part.link ∈ g.parts) (p_coll : Part.coll ∈ g.parts) (p_mem : Part.mem ∈ g.parts) (p_tier : Part.tier ∈ g.parts) (p_store : Part.store ∈ g.parts) (p_power : Part.power ∈ g.parts) (p_clock : Part.clock ∈ g.parts) (p_cross : Part.cross ∈ g.parts) (p_fw : Part.fw ∈ g.parts) (p_start : Part.start ∈ g.parts) (p_mirror : Part.mirror ∈ g.parts) (h : Within g s u) (k_any : ∀ k, g.keys k := by assumption) (k_ckptDigest : ∀ n, g.keys (Obj.ckptDigest n) := by assumption) (k_ckptHandle : ∀ n, g.keys (Obj.ckptHandle n) := by assumption) (k_ckptState : ∀ n, g.keys (Obj.ckptState n) := by assumption) (k_ckptStep : ∀ n, g.keys (Obj.ckptStep n) := by assumption) (k_moduleState : g.keys Obj.moduleState := by assumption) (k_slotState : ∀ n, g.keys (Obj.slotState n) := by assumption) :
    Leads g s (execStartupStageFault reason u) := by
  unfold execStartupStageFault
  exact Leads.next (Within.ite (State.stageFault_within p_staged p_prep p_bar0 p_cmd p_scratch p_castMem p_tile p_spans p_touches p_upd p_link p_coll p_mem p_tier p_store p_power p_clock p_cross p_fw p_start p_mirror h) h)

theorem State.startupRetry_within (p_start : Part.start ∈ g.parts) (h : Within g s u) (k_moduleState : g.keys Obj.moduleState := by assumption) :
    Within g s (State.startupRetry u) := by
  unfold State.startupRetry
  split
  · exact Within.ite (State.fromStage2_within p_start (State.setStart_within p_start h)) h
  · exact h

theorem execStartupRetry_within (p_start : Part.start ∈ g.parts) (h : Within g s u) (k_moduleState : g.keys Obj.moduleState := by assumption) :
    Leads g s (execStartupRetry u) := by
  unfold execStartupRetry
  exact Leads.next (State.startupRetry_within p_start h)

theorem execTrayReadyAssert_within (p_link : Part.link ∈ g.parts) (p_coll : Part.coll ∈ g.parts) (p_tier : Part.tier ∈ g.parts) (p_power : Part.power ∈ g.parts) (p_clock : Part.clock ∈ g.parts) (p_cross : Part.cross ∈ g.parts) (p_start : Part.start ∈ g.parts) (h : Within g s u) (k_collBytesTx : g.keys Obj.collBytesTx := by assumption) (k_collResends : g.keys Obj.collResends := by assumption) (k_duty : g.keys Obj.duty := by assumption) (k_flitsTx : ∀ n, g.keys (Obj.flitsTx n) := by assumption) (k_idResult : ∀ n, g.keys (Obj.idResult n) := by assumption) (k_logicalPlane : ∀ n, g.keys (Obj.logicalPlane n) := by assumption) (k_opInForce : g.keys Obj.opInForce := by assumption) (k_parks : g.keys Obj.parks := by assumption) (k_planePort : ∀ n, g.keys (Obj.planePort n) := by assumption) (k_portPowerState : ∀ n, g.keys (Obj.portPowerState n) := by assumption) (k_portState : ∀ n, g.keys (Obj.portState n) := by assumption) (k_powerState : g.keys Obj.powerState := by assumption) (k_remapCount : g.keys Obj.remapCount := by assumption) (k_vtrimMv : g.keys Obj.vtrimMv := by assumption) :
    Leads g s (execTrayReadyAssert u) := by
  unfold execTrayReadyAssert
  exact Leads.next (State.repower_within p_link p_coll p_tier p_power p_clock p_cross p_start (State.setPower_within p_power (State.setStart_within p_start h)))

theorem State.trayOff_within (p_link : Part.link ∈ g.parts) (p_coll : Part.coll ∈ g.parts) (p_tier : Part.tier ∈ g.parts) (p_power : Part.power ∈ g.parts) (p_clock : Part.clock ∈ g.parts) (p_cross : Part.cross ∈ g.parts) (p_start : Part.start ∈ g.parts) (h : Within g s u) (k_collBytesTx : g.keys Obj.collBytesTx := by assumption) (k_collResends : g.keys Obj.collResends := by assumption) (k_duty : g.keys Obj.duty := by assumption) (k_flitsTx : ∀ n, g.keys (Obj.flitsTx n) := by assumption) (k_idResult : ∀ n, g.keys (Obj.idResult n) := by assumption) (k_logicalPlane : ∀ n, g.keys (Obj.logicalPlane n) := by assumption) (k_opInForce : g.keys Obj.opInForce := by assumption) (k_parks : g.keys Obj.parks := by assumption) (k_planePort : ∀ n, g.keys (Obj.planePort n) := by assumption) (k_portPowerState : ∀ n, g.keys (Obj.portPowerState n) := by assumption) (k_portState : ∀ n, g.keys (Obj.portState n) := by assumption) (k_powerState : g.keys Obj.powerState := by assumption) (k_remapCount : g.keys Obj.remapCount := by assumption) (k_vtrimMv : g.keys Obj.vtrimMv := by assumption) :
    Within g s (State.trayOff u) := by
  unfold State.trayOff
  extract_lets +onlyGivenNames -underBinder -merge s1
  have h2 : Within g s s1 := (State.setStart_within p_start h)
  exact Within.ite (State.repower_within p_link p_coll p_tier p_power p_clock p_cross p_start (State.setPower_within p_power (State.raise_within h2))) h2

theorem execTrayReadyDeassert_within (p_link : Part.link ∈ g.parts) (p_coll : Part.coll ∈ g.parts) (p_tier : Part.tier ∈ g.parts) (p_power : Part.power ∈ g.parts) (p_clock : Part.clock ∈ g.parts) (p_cross : Part.cross ∈ g.parts) (p_start : Part.start ∈ g.parts) (h : Within g s u) (k_collBytesTx : g.keys Obj.collBytesTx := by assumption) (k_collResends : g.keys Obj.collResends := by assumption) (k_duty : g.keys Obj.duty := by assumption) (k_flitsTx : ∀ n, g.keys (Obj.flitsTx n) := by assumption) (k_idResult : ∀ n, g.keys (Obj.idResult n) := by assumption) (k_logicalPlane : ∀ n, g.keys (Obj.logicalPlane n) := by assumption) (k_opInForce : g.keys Obj.opInForce := by assumption) (k_parks : g.keys Obj.parks := by assumption) (k_planePort : ∀ n, g.keys (Obj.planePort n) := by assumption) (k_portPowerState : ∀ n, g.keys (Obj.portPowerState n) := by assumption) (k_portState : ∀ n, g.keys (Obj.portState n) := by assumption) (k_powerState : g.keys Obj.powerState := by assumption) (k_remapCount : g.keys Obj.remapCount := by assumption) (k_vtrimMv : g.keys Obj.vtrimMv := by assumption) :
    Leads g s (execTrayReadyDeassert u) := by
  unfold execTrayReadyDeassert
  exact Leads.next (State.trayOff_within p_link p_coll p_tier p_power p_clock p_cross p_start h)

theorem State.modResetOn_within (p_staged : Part.staged ∈ g.parts) (p_prep : Part.prep ∈ g.parts) (p_bar0 : Part.bar0 ∈ g.parts) (p_cmd : Part.cmd ∈ g.parts) (p_scratch : Part.scratch ∈ g.parts) (p_castMem : Part.castMem ∈ g.parts) (p_tile : Part.tile ∈ g.parts) (p_spans : Part.spans ∈ g.parts) (p_touches : Part.touches ∈ g.parts) (p_upd : Part.upd ∈ g.parts) (p_link : Part.link ∈ g.parts) (p_coll : Part.coll ∈ g.parts) (p_mem : Part.mem ∈ g.parts) (p_tier : Part.tier ∈ g.parts) (p_store : Part.store ∈ g.parts) (p_power : Part.power ∈ g.parts) (p_clock : Part.clock ∈ g.parts) (p_cross : Part.cross ∈ g.parts) (p_fw : Part.fw ∈ g.parts) (p_start : Part.start ∈ g.parts) (p_mirror : Part.mirror ∈ g.parts) (h : Within g s u) (k_activeSlot : g.keys Obj.activeSlot := by assumption) (k_any : ∀ k, g.keys k := by assumption) (k_ckptDigest : ∀ n, g.keys (Obj.ckptDigest n) := by assumption) (k_ckptHandle : ∀ n, g.keys (Obj.ckptHandle n) := by assumption) (k_ckptState : ∀ n, g.keys (Obj.ckptState n) := by assumption) (k_ckptStep : ∀ n, g.keys (Obj.ckptStep n) := by assumption) (k_dictVersion : g.keys Obj.dictVersion := by assumption) (k_fwVersion : g.keys Obj.fwVersion := by assumption) (k_settingsResetCount : g.keys Obj.settingsResetCount := by assumption) (k_settingsState : g.keys Obj.settingsState := by assumption) (k_slotState : ∀ n, g.keys (Obj.slotState n) := by assumption) (k_szState : ∀ n, g.keys (Obj.szState n) := by assumption) :
    Within g s (State.modResetOn u) := by
  unfold State.modResetOn
  exact Within.ite h (by
    extract_lets +onlyGivenNames -underBinder -merge s1
    have h2 : Within g s s1 := (State.setStart_within p_start (State.lose_within p_staged p_prep p_bar0 p_cmd p_scratch p_castMem p_tile p_spans p_touches p_upd p_link p_coll p_mem p_tier p_store p_power p_clock p_cross p_fw p_start p_mirror h))
    exact State.loadSettings_within p_staged p_store (State.readVersions_within h2))

theorem execModReset_within (p_staged : Part.staged ∈ g.parts) (p_prep : Part.prep ∈ g.parts) (p_bar0 : Part.bar0 ∈ g.parts) (p_cmd : Part.cmd ∈ g.parts) (p_scratch : Part.scratch ∈ g.parts) (p_castMem : Part.castMem ∈ g.parts) (p_tile : Part.tile ∈ g.parts) (p_spans : Part.spans ∈ g.parts) (p_touches : Part.touches ∈ g.parts) (p_upd : Part.upd ∈ g.parts) (p_link : Part.link ∈ g.parts) (p_coll : Part.coll ∈ g.parts) (p_mem : Part.mem ∈ g.parts) (p_tier : Part.tier ∈ g.parts) (p_store : Part.store ∈ g.parts) (p_power : Part.power ∈ g.parts) (p_clock : Part.clock ∈ g.parts) (p_cross : Part.cross ∈ g.parts) (p_fw : Part.fw ∈ g.parts) (p_start : Part.start ∈ g.parts) (p_mirror : Part.mirror ∈ g.parts) (h : Within g s u) (k_activeSlot : g.keys Obj.activeSlot := by assumption) (k_any : ∀ k, g.keys k := by assumption) (k_ckptDigest : ∀ n, g.keys (Obj.ckptDigest n) := by assumption) (k_ckptHandle : ∀ n, g.keys (Obj.ckptHandle n) := by assumption) (k_ckptState : ∀ n, g.keys (Obj.ckptState n) := by assumption) (k_ckptStep : ∀ n, g.keys (Obj.ckptStep n) := by assumption) (k_dictVersion : g.keys Obj.dictVersion := by assumption) (k_fwVersion : g.keys Obj.fwVersion := by assumption) (k_settingsResetCount : g.keys Obj.settingsResetCount := by assumption) (k_settingsState : g.keys Obj.settingsState := by assumption) (k_slotState : ∀ n, g.keys (Obj.slotState n) := by assumption) (k_szState : ∀ n, g.keys (Obj.szState n) := by assumption) :
    Leads g s (execModReset u) := by
  unfold execModReset
  exact Leads.next (State.modResetOn_within p_staged p_prep p_bar0 p_cmd p_scratch p_castMem p_tile p_spans p_touches p_upd p_link p_coll p_mem p_tier p_store p_power p_clock p_cross p_fw p_start p_mirror h)

theorem State.modResetOff_within (p_start : Part.start ∈ g.parts) (h : Within g s u) (k_moduleState : g.keys Obj.moduleState := by assumption) (k_retiredCol : ∀ n, g.keys (Obj.retiredCol n) := by assumption) (k_retiredCount : g.keys Obj.retiredCount := by assumption) :
    Within g s (State.modResetOff u) := by
  unfold State.modResetOff
  exact Within.ite h (State.fromStage2_within p_start (State.retireTiles_within p_start (State.setStart_within p_start h)))

theorem execModResetRelease_within (p_start : Part.start ∈ g.parts) (h : Within g s u) (k_moduleState : g.keys Obj.moduleState := by assumption) (k_retiredCol : ∀ n, g.keys (Obj.retiredCol n) := by assumption) (k_retiredCount : g.keys Obj.retiredCount := by assumption) :
    Leads g s (execModResetRelease u) := by
  unfold execModResetRelease
  exact Leads.next (State.modResetOff_within p_start h)

end Sys2Proof.Machine
end

