-- ==== Sys2Proof/Laws/WithinCommit.lean ====
section
/-! SUPPORT. What each operation of Machine/Commit.lean may change, and that it keeps the form of the state. -/
namespace Sys2Proof.Machine
set_option Elab.async false

variable {g : Scope} {s u : State}

theorem State.publishCounts_within {g1 : Tab Counts} (h : Within g s u) (k_stepElemLayer : ∀ n, g.keys (Obj.stepElemLayer n) := by assumption) (k_stepNonfinite : g.keys Obj.stepNonfinite := by assumption) (k_stepSatLayer : ∀ n, g.keys (Obj.stepSatLayer n) := by assumption) (k_stepShadowSat : ∀ n, g.keys (Obj.stepShadowSat n) := by assumption) (k_stepShadowUnf : ∀ n, g.keys (Obj.stepShadowUnf n) := by assumption) (k_stepUnfLayer : ∀ n, g.keys (Obj.stepUnfLayer n) := by assumption) :
    Within g s (State.publishCounts u g1) := by
  unfold State.publishCounts
  extract_lets +onlyGivenNames -underBinder -merge s1
  have h2 : Within g s s1 := (Within.foldl (fun x3 x4 h5 => (by
    extract_lets +onlyGivenNames -underBinder -merge n6
    exact State.wr_within (State.wr_within (State.wr_within (State.wr_within (State.wr_within h5 _ _) _ _) _ _) _ _) _ _)) h)
  extract_lets +onlyGivenNames -underBinder -merge n7
  extract_lets +onlyGivenNames -underBinder -merge s8
  have h9 : Within g s s8 := (State.wr_within h2 _ _)
  split
  · exact State.raise_within h9
  · exact h9

theorem State.takePlan_within (p_tile : Part.tile ∈ g.parts) (p_tier : Part.tier ∈ g.parts) (h : Within g s u) (k_tmEvictions : g.keys Obj.tmEvictions := by assumption) :
    Within g s (State.takePlan u) := by
  unfold State.takePlan
  extract_lets +onlyGivenNames -underBinder -merge _ s1
  have h2 : Within g s s1 := (Within.setTile p_tile h rfl rfl)
  split
  · exact h2
  · extract_lets +onlyGivenNames -underBinder -merge n8
    extract_lets +onlyGivenNames -underBinder -merge _ s9
    have h10 : Within g s s9 := (Within.setTile p_tile h2 rfl rfl)
    extract_lets +onlyGivenNames -underBinder -merge n11
    have h14 : ∀ v0, Within g s v0 → Within g s (n11 v0) := by
      intro x12 h13
      unfold n11
      exact Within.setTile p_tile h13 rfl rfl
    exact Within.ite (h14 _ h10) (Within.ite (State.raise_within h10) (by
      split
      · next _ _ _ y18 =>
        exact Within.ite (h14 _ (Within.pair (State.evictFor_within p_tier h10) y18)) (State.raise_within h10)))

theorem State.applyForms_within {n : Nat} {f : Forms} (h : Within g s u) (k_castReservePages : g.keys Obj.castReservePages := by assumption) (k_fbCastCapacity : g.keys Obj.fbCastCapacity := by assumption) (k_fbCastDemand : g.keys Obj.fbCastDemand := by assumption) (k_fbDeferredCount : g.keys Obj.fbDeferredCount := by assumption) (k_fbH16Layers : g.keys Obj.fbH16Layers := by assumption) (k_fbQuiet : ∀ n, g.keys (Obj.fbQuiet n) := by assumption) (k_fbState : ∀ n, g.keys (Obj.fbState n) := by assumption) :
    Within g s (State.applyForms u n f) := by
  unfold State.applyForms
  extract_lets +onlyGivenNames -underBinder -merge s1
  have h2 : Within g s s1 := (Within.ite h (State.raise_within h))
  extract_lets +onlyGivenNames -underBinder -merge s3
  have h4 : Within g s s3 := h2
  extract_lets +onlyGivenNames -underBinder -merge s5
  have h6 : Within g s s5 := (Within.foldl (fun x7 x8 h9 => (State.raise_within h9)) h2)
  extract_lets +onlyGivenNames -underBinder -merge s10
  have h11 : Within g s s10 := (Within.foldl (fun x12 x13 h14 => (State.wr_within (State.wr_within h14 _ _) _ _)) h6)
  exact State.wr_within (State.wr_within (State.wr_within (State.wr_within (State.wr_within h11 _ _) _ _) _ _) _ _) _ _

theorem State.spikeTest_within {n : Nat} (h : Within g s u) (k_spikeDev : g.keys Obj.spikeDev := by assumption) (k_spikeMu : g.keys Obj.spikeMu := by assumption) (k_spikeRun : g.keys Obj.spikeRun := by assumption) (k_spikeSeen : g.keys Obj.spikeSeen := by assumption) :
    Within g s (State.spikeTest u n).1 := by
  unfold State.spikeTest
  exact Within.iteFst (Within.fst h) (by
    extract_lets +onlyGivenNames -underBinder -merge n1
    extract_lets +onlyGivenNames -underBinder -merge n2
    extract_lets +onlyGivenNames -underBinder -merge n3
    extract_lets +onlyGivenNames -underBinder -merge n4
    extract_lets +onlyGivenNames -underBinder -merge n5
    extract_lets +onlyGivenNames -underBinder -merge n6
    extract_lets +onlyGivenNames -underBinder -merge n7
    extract_lets +onlyGivenNames -underBinder -merge n8
    extract_lets +onlyGivenNames -underBinder -merge s9
    have h10 : Within g s s9 := (Within.ite (State.raise_within h) h)
    exact Within.iteFst (by
      extract_lets +onlyGivenNames -underBinder -merge s11
      have h12 : Within g s s11 := (State.raise_within h10)
      exact Within.fst (State.wr_within h12 _ _)) (by
      extract_lets +onlyGivenNames -underBinder -merge s13
      have h14 : Within g s s13 := (State.wr_within h10 _ _)
      clear_value n5
      split
      · exact Within.fst h14
      · extract_lets +onlyGivenNames -underBinder -merge n18
        extract_lets +onlyGivenNames -underBinder -merge n19
        extract_lets +onlyGivenNames -underBinder -merge s20
        have h21 : Within g s s20 := (Within.ite (State.wr_within (State.wr_within h14 _ _) _ _) (State.wr_within (State.wr_within h14 _ _) _ _))
        exact Within.fst (State.wr_within h21 _ _)))

theorem State.settleArms_within {n : Nat} {g2 : Tab Counts} {spike : Bool} (p_cmd : Part.cmd ∈ g.parts) (p_upd : Part.upd ∈ g.parts) (p_coll : Part.coll ∈ g.parts) (p_tier : Part.tier ∈ g.parts) (h : Within g s u) (k_stepDigest : g.keys Obj.stepDigest := by assumption) (k_stepDigestStep : g.keys Obj.stepDigestStep := by assumption) (k_updSkipped : g.keys Obj.updSkipped := by assumption) :
    Within g s (State.settleArms u n g2 spike) := by
  unfold State.settleArms
  extract_lets +onlyGivenNames -underBinder -merge n1
  extract_lets +onlyGivenNames -underBinder -merge s2
  have h3 : Within g s s2 := (Within.ite h (State.raise_within h))
  extract_lets +onlyGivenNames -underBinder -merge _ s4
  have h5 : Within g s s4 := (Within.setUpd p_upd h3)
  exact Within.foldl (fun x6 x7 h8 => (State.skipLayer_within p_cmd p_upd p_coll p_tier h8)) h5

theorem State.releaseCasts_within {n : Nat} {t2 : Nat} (p_castMem : Part.castMem ∈ g.parts) (p_tile : Part.tile ∈ g.parts) (h : Within g s u) :
    Within g s (State.releaseCasts u n t2) := by
  unfold State.releaseCasts
  exact Within.foldl (fun _ _ hv => State.freePages_within p_tile (Within.setCastMem p_castMem hv rfl (memClear_wf _ _)))
    (State.setStack_within p_tile (State.setDir_within p_tile h))

theorem State.leftover_within {n : Nat} (p_cmd : Part.cmd ∈ g.parts) (p_castMem : Part.castMem ∈ g.parts) (p_tile : Part.tile ∈ g.parts) (h : Within g s u) (k_castFaults : g.keys Obj.castFaults := by assumption) :
    Within g s (State.leftover u n) := by
  unfold State.leftover
  extract_lets s1 _ s2
  have h1 : Within g s s1 := Within.foldl (fun _ _ hv => by
    split
    · exact State.haltWin_within p_cmd (State.countSat_within (State.raise_within (State.formReserved_within p_cmd hv)))
    · exact hv) h
  clear_value s1
  have h2 : Within g s s2 := Within.setTile p_tile h1 rfl rfl
  exact Within.foldl (fun _ _ hv => State.releaseCasts_within p_castMem p_tile hv) h2

theorem State.closeStep_within {n : Nat} (p_cmd : Part.cmd ∈ g.parts) (h : Within g s u) (k_lastCommittedStep : g.keys Obj.lastCommittedStep := by assumption) :
    Within g s (State.closeStep u n) := by
  unfold State.closeStep
  extract_lets s1 s2 n
  have h1 : Within g s s1 := State.wr_within h _ _
  have h2 : Within g s s2 := Within.foldl (fun _ _ hv =>
    Within.ite (State.formNotice_within p_cmd (State.updWin_within p_cmd hv _ _ (fun _ h => h))) (State.updWin_within p_cmd hv _ _ (fun _ h => h))) h1
  clear_value s2
  exact Within.setCmd p_cmd h2 rfl id

theorem State.freshStep_within (p_tile : Part.tile ∈ g.parts) (p_upd : Part.upd ∈ g.parts) (p_coll : Part.coll ∈ g.parts) (h : Within g s u) (k_collMismatchCycles : g.keys Obj.collMismatchCycles := by assumption) (k_groupState : g.keys Obj.groupState := by assumption) :
    Within g s (State.freshStep u) := by
  unfold State.freshStep
  extract_lets s1 k
  have h1 : Within g s s1 := State.endStall_within p_coll h
  generalize (List.range 192).foldl (fun n t => max n (s1.pagesHeld t)) 0 = d
  clear_value s1
  exact Within.many h1 rfl (fun p => by cases p <;> first | exact .inr rfl | exact .inl ‹_›)
    (fun f => ⟨f.1, f.2, f.3, f.4, f.5, f.6, f.7, f.8, f.9, f.10, f.11, f.12⟩)

theorem State.boundaryPrepare_within {n : Nat} (p_staged : Part.staged ∈ g.parts) (p_prep : Part.prep ∈ g.parts) (p_cmd : Part.cmd ∈ g.parts) (p_link : Part.link ∈ g.parts) (p_coll : Part.coll ∈ g.parts) (p_tier : Part.tier ∈ g.parts) (p_cross : Part.cross ∈ g.parts) (p_fw : Part.fw ∈ g.parts) (h : Within g s u) (k_actMode : g.keys Obj.actMode := by assumption) (k_actStep : g.keys Obj.actStep := by assumption) (k_any : ∀ k, g.keys k := by assumption) (k_collBytesTx : g.keys Obj.collBytesTx := by assumption) (k_flitsTx : ∀ n, g.keys (Obj.flitsTx n) := by assumption) (k_groupAnchor : g.keys Obj.groupAnchor := by assumption) (k_groupRank : g.keys Obj.groupRank := by assumption) (k_groupSize : g.keys Obj.groupSize := by assumption) (k_groupState : g.keys Obj.groupState := by assumption) (k_prepEpoch : g.keys Obj.prepEpoch := by assumption) (k_prepStep : g.keys Obj.prepStep := by assumption) (k_shapeDigest : g.keys Obj.shapeDigest := by assumption) :
    Within g s (State.boundaryPrepare u n).1 := by
  unfold State.boundaryPrepare
  split
  · exact Within.fst h
  · exact Within.iteFst (Within.fst h) (Within.iteFst (Within.fst (State.raise_within (State.endPrepare_within p_prep p_cmd p_coll h))) (by
      extract_lets +onlyGivenNames -underBinder -merge n6
      extract_lets +onlyGivenNames -underBinder -merge s7
      have h8 : Within g s s7 := (State.endPrepare_within p_prep p_cmd p_coll (State.takeForce_within p_staged p_link p_coll p_tier p_cross h))
      exact Within.fst (Within.ite (State.holdDispatch_within p_cmd p_fw (State.wr_within h8 _ _)) h8)))

theorem State.promoteStaged_within (p_staged : Part.staged ∈ g.parts) (p_link : Part.link ∈ g.parts) (p_coll : Part.coll ∈ g.parts) (p_tier : Part.tier ∈ g.parts) (p_cross : Part.cross ∈ g.parts) (h : Within g s u) (k_any : ∀ k, g.keys k := by assumption) (k_collBytesTx : g.keys Obj.collBytesTx := by assumption) (k_flitsTx : ∀ n, g.keys (Obj.flitsTx n) := by assumption) (k_groupAnchor : g.keys Obj.groupAnchor := by assumption) (k_groupRank : g.keys Obj.groupRank := by assumption) (k_groupSize : g.keys Obj.groupSize := by assumption) (k_groupState : g.keys Obj.groupState := by assumption) (k_shapeDigest : g.keys Obj.shapeDigest := by assumption) :
    Within g s (State.promoteStaged u).1 := by
  unfold State.promoteStaged
  exact Within.iteFst (by
    extract_lets +onlyGivenNames -underBinder -merge n1
    extract_lets +onlyGivenNames -underBinder -merge _ s2
    have h3 : Within g s s2 := (Within.setColl p_coll h)
    exact Within.fst (State.takeForce_within p_staged p_link p_coll p_tier p_cross h3)) (Within.fst h)

theorem State.boundary_within {n : Nat} {formChange : Bool} (p_staged : Part.staged ∈ g.parts) (p_prep : Part.prep ∈ g.parts) (p_bar0 : Part.bar0 ∈ g.parts) (p_cmd : Part.cmd ∈ g.parts) (p_scratch : Part.scratch ∈ g.parts) (p_castMem : Part.castMem ∈ g.parts) (p_tile : Part.tile ∈ g.parts) (p_spans : Part.spans ∈ g.parts) (p_touches : Part.touches ∈ g.parts) (p_upd : Part.upd ∈ g.parts) (p_link : Part.link ∈ g.parts) (p_coll : Part.coll ∈ g.parts) (p_mem : Part.mem ∈ g.parts) (p_tier : Part.tier ∈ g.parts) (p_store : Part.store ∈ g.parts) (p_cross : Part.cross ∈ g.parts) (p_fw : Part.fw ∈ g.parts) (h : Within g s u) (k_actMode : g.keys Obj.actMode := by assumption) (k_actStep : g.keys Obj.actStep := by assumption) (k_any : ∀ k, g.keys k := by assumption) (k_collBytesTx : g.keys Obj.collBytesTx := by assumption) (k_collDuplicates : g.keys Obj.collDuplicates := by assumption) (k_collMismatchCycles : g.keys Obj.collMismatchCycles := by assumption) (k_cumElements : g.keys Obj.cumElements := by assumption) (k_cumNonfinite : g.keys Obj.cumNonfinite := by assumption) (k_cumSaturation : g.keys Obj.cumSaturation := by assumption) (k_cumUnderflow : g.keys Obj.cumUnderflow := by assumption) (k_decState : ∀ n, g.keys (Obj.decState n) := by assumption) (k_digestRepairs : g.keys Obj.digestRepairs := by assumption) (k_flitsTx : ∀ n, g.keys (Obj.flitsTx n) := by assumption) (k_groupAnchor : g.keys Obj.groupAnchor := by assumption) (k_groupRank : g.keys Obj.groupRank := by assumption) (k_groupSize : g.keys Obj.groupSize := by assumption) (k_groupState : g.keys Obj.groupState := by assumption) (k_lastVerdict : g.keys Obj.lastVerdict := by assumption) (k_modeEpoch : g.keys Obj.modeEpoch := by assumption) (k_prepEpoch : g.keys Obj.prepEpoch := by assumption) (k_prepStep : g.keys Obj.prepStep := by assumption) (k_shapeDigest : g.keys Obj.shapeDigest := by assumption) (k_tmWaitCycles : g.keys Obj.tmWaitCycles := by assumption) :
    Within g s (State.boundary u n formChange) := by
  unfold State.boundary
  split
  · next _ _ _ y4 =>
    split
    · next _ _ _ y8 =>
      extract_lets +onlyGivenNames -underBinder -merge s9
      have h10 : Within g s s9 := (Within.ite (State.wr_within (Within.pair (Within.iteFst (Within.fst (Within.pair (State.boundaryPrepare_within p_staged p_prep p_cmd p_link p_coll p_tier p_cross p_fw h) y4)) (State.promoteStaged_within p_staged p_link p_coll p_tier p_cross (Within.pair (State.boundaryPrepare_within p_staged p_prep p_cmd p_link p_coll p_tier p_cross p_fw h) y4))) y8) _ _) (Within.pair (Within.iteFst (Within.fst (Within.pair (State.boundaryPrepare_within p_staged p_prep p_cmd p_link p_coll p_tier p_cross p_fw h) y4)) (State.promoteStaged_within p_staged p_link p_coll p_tier p_cross (Within.pair (State.boundaryPrepare_within p_staged p_prep p_cmd p_link p_coll p_tier p_cross p_fw h) y4))) y8))
      extract_lets +onlyGivenNames -underBinder -merge s11
      have h12 : Within g s s11 := (State.freshStep_within p_tile p_upd p_coll (State.applyMaps_within p_upd h10))
      extract_lets +onlyGivenNames -underBinder -merge s13
      have h14 : Within g s s13 := (State.joinTransfers_within p_link p_coll p_cross h12)
      split
      · exact State.rollbackVerdict_within p_prep p_bar0 p_cmd p_castMem p_tile p_spans p_upd p_coll p_tier p_store (Within.setColl p_coll h14)
      · exact State.openInbox_within p_prep p_bar0 p_cmd p_scratch p_castMem p_tile p_spans p_touches p_upd p_link p_coll p_mem p_tier p_store p_cross h14

theorem State.commit_within {n : Nat} (p_staged : Part.staged ∈ g.parts) (p_prep : Part.prep ∈ g.parts) (p_bar0 : Part.bar0 ∈ g.parts) (p_cmd : Part.cmd ∈ g.parts) (p_scratch : Part.scratch ∈ g.parts) (p_castMem : Part.castMem ∈ g.parts) (p_tile : Part.tile ∈ g.parts) (p_spans : Part.spans ∈ g.parts) (p_touches : Part.touches ∈ g.parts) (p_upd : Part.upd ∈ g.parts) (p_link : Part.link ∈ g.parts) (p_coll : Part.coll ∈ g.parts) (p_mem : Part.mem ∈ g.parts) (p_tier : Part.tier ∈ g.parts) (p_store : Part.store ∈ g.parts) (p_cross : Part.cross ∈ g.parts) (p_fw : Part.fw ∈ g.parts) (p_start : Part.start ∈ g.parts) (p_free : Part.free ∈ g.parts) (h : Within g s u) (k_actMode : g.keys Obj.actMode := by assumption) (k_actStep : g.keys Obj.actStep := by assumption) (k_any : ∀ k, g.keys k := by assumption) (k_bootState : g.keys Obj.bootState := by assumption) (k_castDepthPeak : g.keys Obj.castDepthPeak := by assumption) (k_castFaults : g.keys Obj.castFaults := by assumption) (k_castReservePages : g.keys Obj.castReservePages := by assumption) (k_collBytesTx : g.keys Obj.collBytesTx := by assumption) (k_collDuplicates : g.keys Obj.collDuplicates := by assumption) (k_collMismatchCycles : g.keys Obj.collMismatchCycles := by assumption) (k_cumElements : g.keys Obj.cumElements := by assumption) (k_cumNonfinite : g.keys Obj.cumNonfinite := by assumption) (k_cumSaturation : g.keys Obj.cumSaturation := by assumption) (k_cumUnderflow : g.keys Obj.cumUnderflow := by assumption) (k_decState : ∀ n, g.keys (Obj.decState n) := by assumption) (k_digestRepairs : g.keys Obj.digestRepairs := by assumption) (k_fbCastCapacity : g.keys Obj.fbCastCapacity := by assumption) (k_fbCastDemand : g.keys Obj.fbCastDemand := by assumption) (k_fbDeferredCount : g.keys Obj.fbDeferredCount := by assumption) (k_fbH16Layers : g.keys Obj.fbH16Layers := by assumption) (k_fbQuiet : ∀ n, g.keys (Obj.fbQuiet n) := by assumption) (k_fbState : ∀ n, g.keys (Obj.fbState n) := by assumption) (k_flitsTx : ∀ n, g.keys (Obj.flitsTx n) := by assumption) (k_fwSvn : g.keys Obj.fwSvn := by assumption) (k_groupAnchor : g.keys Obj.groupAnchor := by assumption) (k_groupRank : g.keys Obj.groupRank := by assumption) (k_groupSize : g.keys Obj.groupSize := by assumption) (k_groupState : g.keys Obj.groupState := by assumption) (k_keyRevoked : g.keys Obj.keyRevoked := by assumption) (k_lastCommittedStep : g.keys Obj.lastCommittedStep := by assumption) (k_lastVerdict : g.keys Obj.lastVerdict := by assumption) (k_modeEpoch : g.keys Obj.modeEpoch := by assumption) (k_prepEpoch : g.keys Obj.prepEpoch := by assumption) (k_prepStep : g.keys Obj.prepStep := by assumption) (k_shapeDigest : g.keys Obj.shapeDigest := by assumption) (k_spikeDev : g.keys Obj.spikeDev := by assumption) (k_spikeMu : g.keys Obj.spikeMu := by assumption) (k_spikeRun : g.keys Obj.spikeRun := by assumption) (k_spikeSeen : g.keys Obj.spikeSeen := by assumption) (k_stepDigest : g.keys Obj.stepDigest := by assumption) (k_stepDigestStep : g.keys Obj.stepDigestStep := by assumption) (k_stepElemLayer : ∀ n, g.keys (Obj.stepElemLayer n) := by assumption) (k_stepNonfinite : g.keys Obj.stepNonfinite := by assumption) (k_stepSatLayer : ∀ n, g.keys (Obj.stepSatLayer n) := by assumption) (k_stepShadowSat : ∀ n, g.keys (Obj.stepShadowSat n) := by assumption) (k_stepShadowUnf : ∀ n, g.keys (Obj.stepShadowUnf n) := by assumption) (k_stepUnfLayer : ∀ n, g.keys (Obj.stepUnfLayer n) := by assumption) (k_tmEvictions : g.keys Obj.tmEvictions := by assumption) (k_tmWaitCycles : g.keys Obj.tmWaitCycles := by assumption) (k_updSkipped : g.keys Obj.updSkipped := by assumption) :
    Within g s (State.commit u n) := by
  unfold State.commit
  extract_lets +onlyGivenNames -underBinder -merge n1
  extract_lets +onlyGivenNames -underBinder -merge s2
  have h3 : Within g s s2 := (State.takePlan_within p_tile p_tier (State.publishCounts_within h))
  extract_lets +onlyGivenNames -underBinder -merge n4
  split
  · next _ _ _ y8 =>
    extract_lets +onlyGivenNames -underBinder -merge s9
    have h10 : Within g s s9 := (State.wr_within (State.leftover_within p_cmd p_castMem p_tile (Within.pair (State.spikeTest_within h3) y8)) _ _)
    extract_lets +onlyGivenNames -underBinder -merge n11
    extract_lets +onlyGivenNames -underBinder -merge s12
    have h13 : Within g s s12 := (State.boundary_within p_staged p_prep p_bar0 p_cmd p_scratch p_castMem p_tile p_spans p_touches p_upd p_link p_coll p_mem p_tier p_store p_cross p_fw (State.settleArms_within p_cmd p_upd p_coll p_tier (State.applyForms_within (State.closeStep_within p_cmd h10))))
    exact State.compareStart_within p_link p_coll p_cross (State.landHeld_within p_cmd p_coll p_mem p_tier (State.confirmAtCommit_within p_fw p_start p_free h13))

theorem State.stepCommit_within (p_staged : Part.staged ∈ g.parts) (p_prep : Part.prep ∈ g.parts) (p_bar0 : Part.bar0 ∈ g.parts) (p_cmd : Part.cmd ∈ g.parts) (p_scratch : Part.scratch ∈ g.parts) (p_castMem : Part.castMem ∈ g.parts) (p_tile : Part.tile ∈ g.parts) (p_spans : Part.spans ∈ g.parts) (p_touches : Part.touches ∈ g.parts) (p_upd : Part.upd ∈ g.parts) (p_link : Part.link ∈ g.parts) (p_coll : Part.coll ∈ g.parts) (p_mem : Part.mem ∈ g.parts) (p_tier : Part.tier ∈ g.parts) (p_store : Part.store ∈ g.parts) (p_cross : Part.cross ∈ g.parts) (p_fw : Part.fw ∈ g.parts) (p_start : Part.start ∈ g.parts) (p_free : Part.free ∈ g.parts) (h : Within g s u) (k_actMode : g.keys Obj.actMode := by assumption) (k_actStep : g.keys Obj.actStep := by assumption) (k_any : ∀ k, g.keys k := by assumption) (k_bootState : g.keys Obj.bootState := by assumption) (k_castDepthPeak : g.keys Obj.castDepthPeak := by assumption) (k_castFaults : g.keys Obj.castFaults := by assumption) (k_castReservePages : g.keys Obj.castReservePages := by assumption) (k_collBytesTx : g.keys Obj.collBytesTx := by assumption) (k_collDuplicates : g.keys Obj.collDuplicates := by assumption) (k_collMismatchCycles : g.keys Obj.collMismatchCycles := by assumption) (k_cumElements : g.keys Obj.cumElements := by assumption) (k_cumNonfinite : g.keys Obj.cumNonfinite := by assumption) (k_cumSaturation : g.keys Obj.cumSaturation := by assumption) (k_cumUnderflow : g.keys Obj.cumUnderflow := by assumption) (k_decState : ∀ n, g.keys (Obj.decState n) := by assumption) (k_digestRepairs : g.keys Obj.digestRepairs := by assumption) (k_fbCastCapacity : g.keys Obj.fbCastCapacity := by assumption) (k_fbCastDemand : g.keys Obj.fbCastDemand := by assumption) (k_fbDeferredCount : g.keys Obj.fbDeferredCount := by assumption) (k_fbH16Layers : g.keys Obj.fbH16Layers := by assumption) (k_fbQuiet : ∀ n, g.keys (Obj.fbQuiet n) := by assumption) (k_fbState : ∀ n, g.keys (Obj.fbState n) := by assumption) (k_flitsTx : ∀ n, g.keys (Obj.flitsTx n) := by assumption) (k_fwSvn : g.keys Obj.fwSvn := by assumption) (k_groupAnchor : g.keys Obj.groupAnchor := by assumption) (k_groupRank : g.keys Obj.groupRank := by assumption) (k_groupSize : g.keys Obj.groupSize := by assumption) (k_groupState : g.keys Obj.groupState := by assumption) (k_keyRevoked : g.keys Obj.keyRevoked := by assumption) (k_lastCommittedStep : g.keys Obj.lastCommittedStep := by assumption) (k_lastVerdict : g.keys Obj.lastVerdict := by assumption) (k_modeEpoch : g.keys Obj.modeEpoch := by assumption) (k_prepEpoch : g.keys Obj.prepEpoch := by assumption) (k_prepStep : g.keys Obj.prepStep := by assumption) (k_shapeDigest : g.keys Obj.shapeDigest := by assumption) (k_spikeDev : g.keys Obj.spikeDev := by assumption) (k_spikeMu : g.keys Obj.spikeMu := by assumption) (k_spikeRun : g.keys Obj.spikeRun := by assumption) (k_spikeSeen : g.keys Obj.spikeSeen := by assumption) (k_stepDigest : g.keys Obj.stepDigest := by assumption) (k_stepDigestStep : g.keys Obj.stepDigestStep := by assumption) (k_stepElemLayer : ∀ n, g.keys (Obj.stepElemLayer n) := by assumption) (k_stepNonfinite : g.keys Obj.stepNonfinite := by assumption) (k_stepSatLayer : ∀ n, g.keys (Obj.stepSatLayer n) := by assumption) (k_stepShadowSat : ∀ n, g.keys (Obj.stepShadowSat n) := by assumption) (k_stepShadowUnf : ∀ n, g.keys (Obj.stepShadowUnf n) := by assumption) (k_stepUnfLayer : ∀ n, g.keys (Obj.stepUnfLayer n) := by assumption) (k_tmEvictions : g.keys Obj.tmEvictions := by assumption) (k_tmWaitCycles : g.keys Obj.tmWaitCycles := by assumption) (k_updSkipped : g.keys Obj.updSkipped := by assumption) :
    Within g s (State.stepCommit u) := by
  unfold State.stepCommit
  split
  · exact Within.ite (State.commit_within p_staged p_prep p_bar0 p_cmd p_scratch p_castMem p_tile p_spans p_touches p_upd p_link p_coll p_mem p_tier p_store p_cross p_fw p_start p_free h) (State.noteHeld_within p_upd h)
  · exact h

theorem execStepCommit_within (p_staged : Part.staged ∈ g.parts) (p_prep : Part.prep ∈ g.parts) (p_bar0 : Part.bar0 ∈ g.parts) (p_cmd : Part.cmd ∈ g.parts) (p_scratch : Part.scratch ∈ g.parts) (p_castMem : Part.castMem ∈ g.parts) (p_tile : Part.tile ∈ g.parts) (p_spans : Part.spans ∈ g.parts) (p_touches : Part.touches ∈ g.parts) (p_upd : Part.upd ∈ g.parts) (p_link : Part.link ∈ g.parts) (p_coll : Part.coll ∈ g.parts) (p_mem : Part.mem ∈ g.parts) (p_tier : Part.tier ∈ g.parts) (p_store : Part.store ∈ g.parts) (p_cross : Part.cross ∈ g.parts) (p_fw : Part.fw ∈ g.parts) (p_start : Part.start ∈ g.parts) (p_free : Part.free ∈ g.parts) (h : Within g s u) (k_actMode : g.keys Obj.actMode := by assumption) (k_actStep : g.keys Obj.actStep := by assumption) (k_any : ∀ k, g.keys k := by assumption) (k_bootState : g.keys Obj.bootState := by assumption) (k_castDepthPeak : g.keys Obj.castDepthPeak := by assumption) (k_castFaults : g.keys Obj.castFaults := by assumption) (k_castReservePages : g.keys Obj.castReservePages := by assumption) (k_collBytesTx : g.keys Obj.collBytesTx := by assumption) (k_collDuplicates : g.keys Obj.collDuplicates := by assumption) (k_collMismatchCycles : g.keys Obj.collMismatchCycles := by assumption) (k_cumElements : g.keys Obj.cumElements := by assumption) (k_cumNonfinite : g.keys Obj.cumNonfinite := by assumption) (k_cumSaturation : g.keys Obj.cumSaturation := by assumption) (k_cumUnderflow : g.keys Obj.cumUnderflow := by assumption) (k_decState : ∀ n, g.keys (Obj.decState n) := by assumption) (k_digestRepairs : g.keys Obj.digestRepairs := by assumption) (k_fbCastCapacity : g.keys Obj.fbCastCapacity := by assumption) (k_fbCastDemand : g.keys Obj.fbCastDemand := by assumption) (k_fbDeferredCount : g.keys Obj.fbDeferredCount := by assumption) (k_fbH16Layers : g.keys Obj.fbH16Layers := by assumption) (k_fbQuiet : ∀ n, g.keys (Obj.fbQuiet n) := by assumption) (k_fbState : ∀ n, g.keys (Obj.fbState n) := by assumption) (k_flitsTx : ∀ n, g.keys (Obj.flitsTx n) := by assumption) (k_fwSvn : g.keys Obj.fwSvn := by assumption) (k_groupAnchor : g.keys Obj.groupAnchor := by assumption) (k_groupRank : g.keys Obj.groupRank := by assumption) (k_groupSize : g.keys Obj.groupSize := by assumption) (k_groupState : g.keys Obj.groupState := by assumption) (k_keyRevoked : g.keys Obj.keyRevoked := by assumption) (k_lastCommittedStep : g.keys Obj.lastCommittedStep := by assumption) (k_lastVerdict : g.keys Obj.lastVerdict := by assumption) (k_modeEpoch : g.keys Obj.modeEpoch := by assumption) (k_prepEpoch : g.keys Obj.prepEpoch := by assumption) (k_prepStep : g.keys Obj.prepStep := by assumption) (k_shapeDigest : g.keys Obj.shapeDigest := by assumption) (k_spikeDev : g.keys Obj.spikeDev := by assumption) (k_spikeMu : g.keys Obj.spikeMu := by assumption) (k_spikeRun : g.keys Obj.spikeRun := by assumption) (k_spikeSeen : g.keys Obj.spikeSeen := by assumption) (k_stepDigest : g.keys Obj.stepDigest := by assumption) (k_stepDigestStep : g.keys Obj.stepDigestStep := by assumption) (k_stepElemLayer : ∀ n, g.keys (Obj.stepElemLayer n) := by assumption) (k_stepNonfinite : g.keys Obj.stepNonfinite := by assumption) (k_stepSatLayer : ∀ n, g.keys (Obj.stepSatLayer n) := by assumption) (k_stepShadowSat : ∀ n, g.keys (Obj.stepShadowSat n) := by assumption) (k_stepShadowUnf : ∀ n, g.keys (Obj.stepShadowUnf n) := by assumption) (k_stepUnfLayer : ∀ n, g.keys (Obj.stepUnfLayer n) := by assumption) (k_tmEvictions : g.keys Obj.tmEvictions := by assumption) (k_tmWaitCycles : g.keys Obj.tmWaitCycles := by assumption) (k_updSkipped : g.keys Obj.updSkipped := by assumption) :
    Leads g s (execStepCommit u) := by
  unfold execStepCommit
  exact Leads.next (State.stepCommit_within p_staged p_prep p_bar0 p_cmd p_scratch p_castMem p_tile p_spans p_touches p_upd p_link p_coll p_mem p_tier p_store p_cross p_fw p_start p_free h)

theorem State.updateMissing_within (p_upd : Part.upd ∈ g.parts) (h : Within g s u) :
    Within g s (State.updateMissing u) := by
  unfold State.updateMissing
  split
  · exact h
  · extract_lets +onlyGivenNames -underBinder -merge s6
    have h7 : Within g s s6 := (State.noteHeld_within p_upd h)
    split
    · exact h7
    · extract_lets +onlyGivenNames -underBinder -merge n13
      exact Within.ite h7 (State.raise_within (Within.setUpd p_upd h7))

theorem execUpdateMissing_within (p_upd : Part.upd ∈ g.parts) (h : Within g s u) :
    Leads g s (execUpdateMissing u) := by
  unfold execUpdateMissing
  exact Leads.next (State.updateMissing_within p_upd h)

end Sys2Proof.Machine
end

