-- ==== Sys2Proof/Laws/WithinDict.lean ====
section
/-! SUPPORT. What each operation of Machine/Dict.lean may change, and that it keeps the form of the state. -/
namespace Sys2Proof.Machine
set_option Elab.async false

variable {g : Scope} {s u : State}

theorem State.doAction_within {src : Src} {k : Nat} {v : Nat} (p_staged : Part.staged ∈ g.parts) (p_prep : Part.prep ∈ g.parts) (p_bar0 : Part.bar0 ∈ g.parts) (p_cmd : Part.cmd ∈ g.parts) (p_castMem : Part.castMem ∈ g.parts) (p_tile : Part.tile ∈ g.parts) (p_spans : Part.spans ∈ g.parts) (p_upd : Part.upd ∈ g.parts) (p_link : Part.link ∈ g.parts) (p_coll : Part.coll ∈ g.parts) (p_tier : Part.tier ∈ g.parts) (p_zones : Part.zones ∈ g.parts) (p_store : Part.store ∈ g.parts) (p_power : Part.power ∈ g.parts) (p_cross : Part.cross ∈ g.parts) (p_fw : Part.fw ∈ g.parts) (p_start : Part.start ∈ g.parts) (p_free : Part.free ∈ g.parts) (h : Within g s u) (k_actMode : g.keys Obj.actMode := by assumption) (k_actStep : g.keys Obj.actStep := by assumption) (k_activeSlot : g.keys Obj.activeSlot := by assumption) (k_any : ∀ k, g.keys k := by assumption) (k_bootState : g.keys Obj.bootState := by assumption) (k_chRetired : ∀ n, g.keys (Obj.chRetired n) := by assumption) (k_collBytesTx : g.keys Obj.collBytesTx := by assumption) (k_collMismatchCycles : g.keys Obj.collMismatchCycles := by assumption) (k_decState : ∀ n, g.keys (Obj.decState n) := by assumption) (k_flags : ∀ n, g.keys (Obj.flags n) := by assumption) (k_flitsTx : ∀ n, g.keys (Obj.flitsTx n) := by assumption) (k_fwSvn : g.keys Obj.fwSvn := by assumption) (k_groupState : g.keys Obj.groupState := by assumption) (k_hlState : ∀ n, g.keys (Obj.hlState n) := by assumption) (k_idResult : ∀ n, g.keys (Obj.idResult n) := by assumption) (k_keyRevoked : g.keys Obj.keyRevoked := by assumption) (k_lenderKey : ∀ n, g.keys (lenderKey n) := by assumption) (k_logicalPlane : ∀ n, g.keys (Obj.logicalPlane n) := by assumption) (k_moduleState : g.keys Obj.moduleState := by assumption) (k_planePort : ∀ n, g.keys (Obj.planePort n) := by assumption) (k_portState : ∀ n, g.keys (Obj.portState n) := by assumption) (k_prepEpoch : g.keys Obj.prepEpoch := by assumption) (k_prepStep : g.keys Obj.prepStep := by assumption) (k_remapCount : g.keys Obj.remapCount := by assumption) (k_settingsState : g.keys Obj.settingsState := by assumption) (k_slotDictVersion : ∀ n, g.keys (Obj.slotDictVersion n) := by assumption) (k_slotFwVersion : ∀ n, g.keys (Obj.slotFwVersion n) := by assumption) (k_slotManifestHash : ∀ n, g.keys (Obj.slotManifestHash n) := by assumption) (k_slotRejectReason : ∀ n, g.keys (Obj.slotRejectReason n) := by assumption) (k_slotState : ∀ n, g.keys (Obj.slotState n) := by assumption) (k_slotSvn : ∀ n, g.keys (Obj.slotSvn n) := by assumption) (k_sparePages : g.keys Obj.sparePages := by assumption) (k_szState : ∀ n, g.keys (Obj.szState n) := by assumption) (k_szWp : ∀ n, g.keys (Obj.szWp n) := by assumption) (k_t1PoolPages : g.keys Obj.t1PoolPages := by assumption) (k_tmDiscards : g.keys Obj.tmDiscards := by assumption) (k_tmEvictions : g.keys Obj.tmEvictions := by assumption) (k_tmWaitCycles : g.keys Obj.tmWaitCycles := by assumption) (k_wearAvgPe : g.keys Obj.wearAvgPe := by assumption) (k_wearMaxPe : g.keys Obj.wearMaxPe := by assumption) :
    Within g s (State.doAction u src k v) := by
  unfold State.doAction
  extract_lets +onlyGivenNames -underBinder -merge n1
  extract_lets +onlyGivenNames -underBinder -merge n2
  exact Within.ite (by
    extract_lets +onlyGivenNames -underBinder -merge n3
    exact Within.ite (State.claimApply_within p_bar0 p_cmd h) (by
      split
      · exact State.resume_within p_cmd h
      · exact State.resetWin_within p_prep p_bar0 p_cmd p_castMem p_tile p_spans p_upd p_coll p_tier p_store h
      · exact State.haltWin_within p_cmd h
      · exact State.renewLease_within p_cmd h)) (Within.ite (State.ringCommit_within p_cmd h) (Within.ite (State.abortStep_within p_prep p_bar0 p_cmd p_castMem p_tile p_spans p_upd p_coll p_tier p_store h) (Within.ite (Within.ite (State.hlCommit_within p_tier h) (State.recall_within p_prep p_bar0 p_cmd p_castMem p_tile p_spans p_upd p_link p_coll p_tier p_store p_cross p_start h)) (Within.ite (State.nbAsk_within p_link p_coll p_tier p_cross h) (Within.ite (State.recallLent_within p_link p_coll p_tier p_cross h) (Within.ite (State.eraseZone_within p_zones p_store p_start h) (Within.ite (State.saveStart_within h) (Within.ite (State.defaults_within p_staged p_link p_coll p_store p_cross p_start h) (Within.ite (State.clearFlags_within h) (Within.ite (State.confirm_within p_fw p_start p_free h) (Within.ite (State.revertTo_within p_cmd p_tier p_power p_cross p_fw p_start h) (Within.ite (State.clearClocks_within p_cross h) (Within.ite (State.clearPower_within p_power h) (State.clearBy_within h))))))))))))))

theorem State.setValue_within {k : Nat} {v : Nat} (p_staged : Part.staged ∈ g.parts) (p_cmd : Part.cmd ∈ g.parts) (p_link : Part.link ∈ g.parts) (p_coll : Part.coll ∈ g.parts) (p_store : Part.store ∈ g.parts) (p_cross : Part.cross ∈ g.parts) (p_fw : Part.fw ∈ g.parts) (p_start : Part.start ∈ g.parts) (h : Within g s u) (k_actMode : g.keys Obj.actMode := by assumption) (k_actTick : g.keys Obj.actTick := by assumption) (k_any : ∀ k, g.keys k := by assumption) (k_collBytesTx : g.keys Obj.collBytesTx := by assumption) (k_collResends : g.keys Obj.collResends := by assumption) (k_flitsTx : ∀ n, g.keys (Obj.flitsTx n) := by assumption) (k_idResult : ∀ n, g.keys (Obj.idResult n) := by assumption) (k_logicalPlane : ∀ n, g.keys (Obj.logicalPlane n) := by assumption) (k_planePort : ∀ n, g.keys (Obj.planePort n) := by assumption) (k_portPowerState : ∀ n, g.keys (Obj.portPowerState n) := by assumption) (k_portSleep : ∀ n, g.keys (Obj.portSleep n) := by assumption) (k_portState : ∀ n, g.keys (Obj.portState n) := by assumption) (k_remapCount : g.keys Obj.remapCount := by assumption) (k_szState : ∀ n, g.keys (Obj.szState n) := by assumption) :
    Within g s (State.setValue u k v) := by
  unfold State.setValue
  extract_lets +onlyGivenNames -underBinder -merge n1
  exact Within.ite (State.stage_within p_staged h) (Within.ite (State.planWrite_within p_link p_coll p_cross p_start h) (Within.ite (State.sizeZone_within p_store (State.wr_within h _ _)) (Within.ite (State.sleepApply_within p_link p_coll p_cross p_start h) (Within.ite (State.actTickApply_within p_cmd p_fw h) (State.wr_within h _ _)))))

theorem State.applyWrite_within {src : Src} {k : Nat} {v : Nat} {acc : ObjAcc} (p_staged : Part.staged ∈ g.parts) (p_prep : Part.prep ∈ g.parts) (p_bar0 : Part.bar0 ∈ g.parts) (p_cmd : Part.cmd ∈ g.parts) (p_castMem : Part.castMem ∈ g.parts) (p_tile : Part.tile ∈ g.parts) (p_spans : Part.spans ∈ g.parts) (p_upd : Part.upd ∈ g.parts) (p_link : Part.link ∈ g.parts) (p_coll : Part.coll ∈ g.parts) (p_tier : Part.tier ∈ g.parts) (p_zones : Part.zones ∈ g.parts) (p_store : Part.store ∈ g.parts) (p_power : Part.power ∈ g.parts) (p_cross : Part.cross ∈ g.parts) (p_fw : Part.fw ∈ g.parts) (p_start : Part.start ∈ g.parts) (p_free : Part.free ∈ g.parts) (h : Within g s u) (k_actMode : g.keys Obj.actMode := by assumption) (k_actStep : g.keys Obj.actStep := by assumption) (k_actTick : g.keys Obj.actTick := by assumption) (k_activeSlot : g.keys Obj.activeSlot := by assumption) (k_any : ∀ k, g.keys k := by assumption) (k_bootState : g.keys Obj.bootState := by assumption) (k_chRetired : ∀ n, g.keys (Obj.chRetired n) := by assumption) (k_collBytesTx : g.keys Obj.collBytesTx := by assumption) (k_collMismatchCycles : g.keys Obj.collMismatchCycles := by assumption) (k_collResends : g.keys Obj.collResends := by assumption) (k_decState : ∀ n, g.keys (Obj.decState n) := by assumption) (k_flags : ∀ n, g.keys (Obj.flags n) := by assumption) (k_flitsTx : ∀ n, g.keys (Obj.flitsTx n) := by assumption) (k_fwSvn : g.keys Obj.fwSvn := by assumption) (k_groupState : g.keys Obj.groupState := by assumption) (k_hlState : ∀ n, g.keys (Obj.hlState n) := by assumption) (k_idResult : ∀ n, g.keys (Obj.idResult n) := by assumption) (k_keyRevoked : g.keys Obj.keyRevoked := by assumption) (k_lenderKey : ∀ n, g.keys (lenderKey n) := by assumption) (k_logicalPlane : ∀ n, g.keys (Obj.logicalPlane n) := by assumption) (k_moduleState : g.keys Obj.moduleState := by assumption) (k_planePort : ∀ n, g.keys (Obj.planePort n) := by assumption) (k_portPowerState : ∀ n, g.keys (Obj.portPowerState n) := by assumption) (k_portSleep : ∀ n, g.keys (Obj.portSleep n) := by assumption) (k_portState : ∀ n, g.keys (Obj.portState n) := by assumption) (k_prepEpoch : g.keys Obj.prepEpoch := by assumption) (k_prepStep : g.keys Obj.prepStep := by assumption) (k_remapCount : g.keys Obj.remapCount := by assumption) (k_settingsState : g.keys Obj.settingsState := by assumption) (k_slotDictVersion : ∀ n, g.keys (Obj.slotDictVersion n) := by assumption) (k_slotFwVersion : ∀ n, g.keys (Obj.slotFwVersion n) := by assumption) (k_slotManifestHash : ∀ n, g.keys (Obj.slotManifestHash n) := by assumption) (k_slotRejectReason : ∀ n, g.keys (Obj.slotRejectReason n) := by assumption) (k_slotState : ∀ n, g.keys (Obj.slotState n) := by assumption) (k_slotSvn : ∀ n, g.keys (Obj.slotSvn n) := by assumption) (k_sparePages : g.keys Obj.sparePages := by assumption) (k_szState : ∀ n, g.keys (Obj.szState n) := by assumption) (k_szWp : ∀ n, g.keys (Obj.szWp n) := by assumption) (k_t1PoolPages : g.keys Obj.t1PoolPages := by assumption) (k_tmDiscards : g.keys Obj.tmDiscards := by assumption) (k_tmEvictions : g.keys Obj.tmEvictions := by assumption) (k_tmWaitCycles : g.keys Obj.tmWaitCycles := by assumption) (k_wearAvgPe : g.keys Obj.wearAvgPe := by assumption) (k_wearMaxPe : g.keys Obj.wearMaxPe := by assumption) :
    Within g s (State.applyWrite u src k v acc) := by
  unfold State.applyWrite
  exact Within.ite (State.doAction_within p_staged p_prep p_bar0 p_cmd p_castMem p_tile p_spans p_upd p_link p_coll p_tier p_zones p_store p_power p_cross p_fw p_start p_free h) (State.setValue_within p_staged p_cmd p_link p_coll p_store p_cross p_fw p_start h)

theorem State.holdValue_within {k : Nat} {v : Nat} {acc : ObjAcc} (p_staged : Part.staged ∈ g.parts) (h : Within g s u) (k_any : ∀ k, g.keys k := by assumption) :
    Within g s (State.holdValue u k v acc) := by
  unfold State.holdValue
  exact Within.ite h (Within.ite (Within.setStaged p_staged h) (State.wr_within h _ _))

theorem State.sendReply_within {src : Src} {reply : Bytes} (p_cross : Part.cross ∈ g.parts) (h : Within g s u) (k_dictFramesTx : g.keys Obj.dictFramesTx := by assumption) :
    Within g s (State.sendReply u src reply) := by
  unfold State.sendReply
  extract_lets +onlyGivenNames -underBinder -merge s1
  have h2 : Within g s s1 := (by
    unfold s1
    split
    · exact State.pass_within p_cross h
    · exact h)
  exact State.count_within (State.emit_within h2)

theorem State.answer_within {src : Src} {pdu : Bytes} {reply : Bytes} (p_cross : Part.cross ∈ g.parts) (h : Within g s u) (k_dictFramesTx : g.keys Obj.dictFramesTx := by assumption) :
    Within g s (State.answer u src pdu reply) := by
  unfold State.answer
  extract_lets +onlyGivenNames -underBinder -merge s1
  have h2 : Within g s s1 := (State.sendReply_within p_cross h)
  extract_lets +onlyGivenNames -underBinder -merge n3
  extract_lets +onlyGivenNames -underBinder -merge n4
  exact Within.setDict h2 rfl id

theorem State.malformed_within {src : Src} {pdu : Bytes} (p_cross : Part.cross ∈ g.parts) (h : Within g s u) (k_dictDiscards : g.keys Obj.dictDiscards := by assumption) (k_dictFramesTx : g.keys Obj.dictFramesTx := by assumption) :
    Within g s (State.malformed u src pdu) := by
  unfold State.malformed
  extract_lets +onlyGivenNames -underBinder -merge s1
  have h2 : Within g s s1 := (State.countSat_within h)
  extract_lets +onlyGivenNames -underBinder -merge n3
  exact Within.ite (State.answer_within p_cross h2) h2

theorem State.receive_within {src : Src} {pdu : Bytes} {held : Nat} {f : State → Option (State × Bytes)} (p_cross : Part.cross ∈ g.parts) (hf4 : ∀ v r, Within g s v → f v = some r → Within g s r.1) (h : Within g s u) (k_dictDiscards : g.keys Obj.dictDiscards := by assumption) (k_dictFramesRx : g.keys Obj.dictFramesRx := by assumption) (k_dictFramesTx : g.keys Obj.dictFramesTx := by assumption) (k_dictRepeats : g.keys Obj.dictRepeats := by assumption) :
    Within g s (State.receive u src pdu held f) := by
  unfold State.receive
  refine Within.ite h ?_
  extract_lets s1 s2
  have h2 : Within g s s2 := State.count_within (by
    cases src with
    | fld mac => exact State.fldFrame_within h
    | mctp p eid => exact State.pass_within p_cross h)
  clear_value s2
  refine Within.ite (State.countSat_within h2) ?_
  split
  · exact State.count_within (State.sendReply_within p_cross h2)
  · split
    · next v r hr => exact State.answer_within p_cross (hf4 _ _ h2 hr)
    · exact State.malformed_within p_cross h2

theorem State.readFrame_within {pdu : Bytes} (p_power : Part.power ∈ g.parts) (k_e2DeferredMs : g.keys Obj.e2DeferredMs) (k_followingMs : g.keys Obj.followingMs) (k_throttledMs : g.keys Obj.throttledMs) (h : Within g s u) :
    ∀ r, State.readFrame u pdu = some r → Within g s r.1 := by
  intro r hr
  obtain ⟨xs, _, rfl⟩ := Option.map_eq_some_iff.1 hr
  exact State.account_within p_power h

theorem execDictRead_within {src : Src} {pdu : Bytes} {held : Nat} (p_power : Part.power ∈ g.parts) (p_cross : Part.cross ∈ g.parts) (h : Within g s u) (k_dictDiscards : g.keys Obj.dictDiscards := by assumption) (k_dictFramesRx : g.keys Obj.dictFramesRx := by assumption) (k_dictFramesTx : g.keys Obj.dictFramesTx := by assumption) (k_dictRepeats : g.keys Obj.dictRepeats := by assumption) (k_e2DeferredMs : g.keys Obj.e2DeferredMs := by assumption) (k_followingMs : g.keys Obj.followingMs := by assumption) (k_throttledMs : g.keys Obj.throttledMs := by assumption) :
    Leads g s (execDictRead src pdu held u) := by
  unfold execDictRead
  exact Leads.next (State.receive_within p_cross (fun x1 x2 h3 h4 => ((State.readFrame_within p_power k_e2DeferredMs k_followingMs k_throttledMs h3) _ h4)) h)

theorem State.applyItem_within {src : Src} {x : Item} (p_staged : Part.staged ∈ g.parts) (p_prep : Part.prep ∈ g.parts) (p_bar0 : Part.bar0 ∈ g.parts) (p_cmd : Part.cmd ∈ g.parts) (p_castMem : Part.castMem ∈ g.parts) (p_tile : Part.tile ∈ g.parts) (p_spans : Part.spans ∈ g.parts) (p_upd : Part.upd ∈ g.parts) (p_link : Part.link ∈ g.parts) (p_coll : Part.coll ∈ g.parts) (p_tier : Part.tier ∈ g.parts) (p_zones : Part.zones ∈ g.parts) (p_store : Part.store ∈ g.parts) (p_power : Part.power ∈ g.parts) (p_cross : Part.cross ∈ g.parts) (p_fw : Part.fw ∈ g.parts) (p_start : Part.start ∈ g.parts) (p_free : Part.free ∈ g.parts) (h : Within g s u) (k_actMode : g.keys Obj.actMode := by assumption) (k_actStep : g.keys Obj.actStep := by assumption) (k_actTick : g.keys Obj.actTick := by assumption) (k_activeSlot : g.keys Obj.activeSlot := by assumption) (k_any : ∀ k, g.keys k := by assumption) (k_bootState : g.keys Obj.bootState := by assumption) (k_chRetired : ∀ n, g.keys (Obj.chRetired n) := by assumption) (k_collBytesTx : g.keys Obj.collBytesTx := by assumption) (k_collMismatchCycles : g.keys Obj.collMismatchCycles := by assumption) (k_collResends : g.keys Obj.collResends := by assumption) (k_decState : ∀ n, g.keys (Obj.decState n) := by assumption) (k_flags : ∀ n, g.keys (Obj.flags n) := by assumption) (k_flitsTx : ∀ n, g.keys (Obj.flitsTx n) := by assumption) (k_fwSvn : g.keys Obj.fwSvn := by assumption) (k_groupState : g.keys Obj.groupState := by assumption) (k_hlState : ∀ n, g.keys (Obj.hlState n) := by assumption) (k_idResult : ∀ n, g.keys (Obj.idResult n) := by assumption) (k_keyRevoked : g.keys Obj.keyRevoked := by assumption) (k_lenderKey : ∀ n, g.keys (lenderKey n) := by assumption) (k_logicalPlane : ∀ n, g.keys (Obj.logicalPlane n) := by assumption) (k_moduleState : g.keys Obj.moduleState := by assumption) (k_planePort : ∀ n, g.keys (Obj.planePort n) := by assumption) (k_portPowerState : ∀ n, g.keys (Obj.portPowerState n) := by assumption) (k_portSleep : ∀ n, g.keys (Obj.portSleep n) := by assumption) (k_portState : ∀ n, g.keys (Obj.portState n) := by assumption) (k_prepEpoch : g.keys Obj.prepEpoch := by assumption) (k_prepStep : g.keys Obj.prepStep := by assumption) (k_remapCount : g.keys Obj.remapCount := by assumption) (k_settingsState : g.keys Obj.settingsState := by assumption) (k_slotDictVersion : ∀ n, g.keys (Obj.slotDictVersion n) := by assumption) (k_slotFwVersion : ∀ n, g.keys (Obj.slotFwVersion n) := by assumption) (k_slotManifestHash : ∀ n, g.keys (Obj.slotManifestHash n) := by assumption) (k_slotRejectReason : ∀ n, g.keys (Obj.slotRejectReason n) := by assumption) (k_slotState : ∀ n, g.keys (Obj.slotState n) := by assumption) (k_slotSvn : ∀ n, g.keys (Obj.slotSvn n) := by assumption) (k_sparePages : g.keys Obj.sparePages := by assumption) (k_szState : ∀ n, g.keys (Obj.szState n) := by assumption) (k_szWp : ∀ n, g.keys (Obj.szWp n) := by assumption) (k_t1PoolPages : g.keys Obj.t1PoolPages := by assumption) (k_tmDiscards : g.keys Obj.tmDiscards := by assumption) (k_tmEvictions : g.keys Obj.tmEvictions := by assumption) (k_tmWaitCycles : g.keys Obj.tmWaitCycles := by assumption) (k_wearAvgPe : g.keys Obj.wearAvgPe := by assumption) (k_wearMaxPe : g.keys Obj.wearMaxPe := by assumption) :
    Within g s (State.applyItem u src x) := by
  unfold State.applyItem
  exact State.applyWrite_within p_staged p_prep p_bar0 p_cmd p_castMem p_tile p_spans p_upd p_link p_coll p_tier p_zones p_store p_power p_cross p_fw p_start p_free h

theorem State.writeEach_within {src : Src} {a2 : List Item} (p_staged : Part.staged ∈ g.parts) (p_prep : Part.prep ∈ g.parts) (p_bar0 : Part.bar0 ∈ g.parts) (p_cmd : Part.cmd ∈ g.parts) (p_castMem : Part.castMem ∈ g.parts) (p_tile : Part.tile ∈ g.parts) (p_spans : Part.spans ∈ g.parts) (p_upd : Part.upd ∈ g.parts) (p_link : Part.link ∈ g.parts) (p_coll : Part.coll ∈ g.parts) (p_tier : Part.tier ∈ g.parts) (p_zones : Part.zones ∈ g.parts) (p_store : Part.store ∈ g.parts) (p_power : Part.power ∈ g.parts) (p_cross : Part.cross ∈ g.parts) (p_fw : Part.fw ∈ g.parts) (p_start : Part.start ∈ g.parts) (p_free : Part.free ∈ g.parts) (h : Within g s u) (k_actMode : g.keys Obj.actMode := by assumption) (k_actStep : g.keys Obj.actStep := by assumption) (k_actTick : g.keys Obj.actTick := by assumption) (k_activeSlot : g.keys Obj.activeSlot := by assumption) (k_any : ∀ k, g.keys k := by assumption) (k_bootState : g.keys Obj.bootState := by assumption) (k_chRetired : ∀ n, g.keys (Obj.chRetired n) := by assumption) (k_collBytesTx : g.keys Obj.collBytesTx := by assumption) (k_collMismatchCycles : g.keys Obj.collMismatchCycles := by assumption) (k_collResends : g.keys Obj.collResends := by assumption) (k_decState : ∀ n, g.keys (Obj.decState n) := by assumption) (k_dictRejected : g.keys Obj.dictRejected := by assumption) (k_flags : ∀ n, g.keys (Obj.flags n) := by assumption) (k_flitsTx : ∀ n, g.keys (Obj.flitsTx n) := by assumption) (k_fwSvn : g.keys Obj.fwSvn := by assumption) (k_groupState : g.keys Obj.groupState := by assumption) (k_hlState : ∀ n, g.keys (Obj.hlState n) := by assumption) (k_idResult : ∀ n, g.keys (Obj.idResult n) := by assumption) (k_keyRevoked : g.keys Obj.keyRevoked := by assumption) (k_lenderKey : ∀ n, g.keys (lenderKey n) := by assumption) (k_logicalPlane : ∀ n, g.keys (Obj.logicalPlane n) := by assumption) (k_moduleState : g.keys Obj.moduleState := by assumption) (k_planePort : ∀ n, g.keys (Obj.planePort n) := by assumption) (k_portPowerState : ∀ n, g.keys (Obj.portPowerState n) := by assumption) (k_portSleep : ∀ n, g.keys (Obj.portSleep n) := by assumption) (k_portState : ∀ n, g.keys (Obj.portState n) := by assumption) (k_prepEpoch : g.keys Obj.prepEpoch := by assumption) (k_prepStep : g.keys Obj.prepStep := by assumption) (k_remapCount : g.keys Obj.remapCount := by assumption) (k_settingsState : g.keys Obj.settingsState := by assumption) (k_slotDictVersion : ∀ n, g.keys (Obj.slotDictVersion n) := by assumption) (k_slotFwVersion : ∀ n, g.keys (Obj.slotFwVersion n) := by assumption) (k_slotManifestHash : ∀ n, g.keys (Obj.slotManifestHash n) := by assumption) (k_slotRejectReason : ∀ n, g.keys (Obj.slotRejectReason n) := by assumption) (k_slotState : ∀ n, g.keys (Obj.slotState n) := by assumption) (k_slotSvn : ∀ n, g.keys (Obj.slotSvn n) := by assumption) (k_sparePages : g.keys Obj.sparePages := by assumption) (k_szState : ∀ n, g.keys (Obj.szState n) := by assumption) (k_szWp : ∀ n, g.keys (Obj.szWp n) := by assumption) (k_t1PoolPages : g.keys Obj.t1PoolPages := by assumption) (k_tmDiscards : g.keys Obj.tmDiscards := by assumption) (k_tmEvictions : g.keys Obj.tmEvictions := by assumption) (k_tmWaitCycles : g.keys Obj.tmWaitCycles := by assumption) (k_wearAvgPe : g.keys Obj.wearAvgPe := by assumption) (k_wearMaxPe : g.keys Obj.wearMaxPe := by assumption) :
    Within g s (State.writeEach u src a2).1 := by
  induction a2 generalizing u with
  | nil => exact h
  | cons x r ih => exact ih (Within.ite (State.applyItem_within p_staged p_prep p_bar0 p_cmd p_castMem p_tile p_spans p_upd p_link p_coll p_tier p_zones p_store p_power p_cross p_fw p_start p_free h) (State.count_within h))

theorem State.writeAll_within {src : Src} {xs : List Item} (p_staged : Part.staged ∈ g.parts) (p_prep : Part.prep ∈ g.parts) (p_bar0 : Part.bar0 ∈ g.parts) (p_cmd : Part.cmd ∈ g.parts) (p_castMem : Part.castMem ∈ g.parts) (p_tile : Part.tile ∈ g.parts) (p_spans : Part.spans ∈ g.parts) (p_upd : Part.upd ∈ g.parts) (p_link : Part.link ∈ g.parts) (p_coll : Part.coll ∈ g.parts) (p_tier : Part.tier ∈ g.parts) (p_zones : Part.zones ∈ g.parts) (p_store : Part.store ∈ g.parts) (p_power : Part.power ∈ g.parts) (p_cross : Part.cross ∈ g.parts) (p_fw : Part.fw ∈ g.parts) (p_start : Part.start ∈ g.parts) (p_free : Part.free ∈ g.parts) (h : Within g s u) (k_actMode : g.keys Obj.actMode := by assumption) (k_actStep : g.keys Obj.actStep := by assumption) (k_actTick : g.keys Obj.actTick := by assumption) (k_activeSlot : g.keys Obj.activeSlot := by assumption) (k_any : ∀ k, g.keys k := by assumption) (k_bootState : g.keys Obj.bootState := by assumption) (k_chRetired : ∀ n, g.keys (Obj.chRetired n) := by assumption) (k_collBytesTx : g.keys Obj.collBytesTx := by assumption) (k_collMismatchCycles : g.keys Obj.collMismatchCycles := by assumption) (k_collResends : g.keys Obj.collResends := by assumption) (k_decState : ∀ n, g.keys (Obj.decState n) := by assumption) (k_dictRejected : g.keys Obj.dictRejected := by assumption) (k_flags : ∀ n, g.keys (Obj.flags n) := by assumption) (k_flitsTx : ∀ n, g.keys (Obj.flitsTx n) := by assumption) (k_fwSvn : g.keys Obj.fwSvn := by assumption) (k_groupState : g.keys Obj.groupState := by assumption) (k_hlState : ∀ n, g.keys (Obj.hlState n) := by assumption) (k_idResult : ∀ n, g.keys (Obj.idResult n) := by assumption) (k_keyRevoked : g.keys Obj.keyRevoked := by assumption) (k_lenderKey : ∀ n, g.keys (lenderKey n) := by assumption) (k_logicalPlane : ∀ n, g.keys (Obj.logicalPlane n) := by assumption) (k_moduleState : g.keys Obj.moduleState := by assumption) (k_planePort : ∀ n, g.keys (Obj.planePort n) := by assumption) (k_portPowerState : ∀ n, g.keys (Obj.portPowerState n) := by assumption) (k_portSleep : ∀ n, g.keys (Obj.portSleep n) := by assumption) (k_portState : ∀ n, g.keys (Obj.portState n) := by assumption) (k_prepEpoch : g.keys Obj.prepEpoch := by assumption) (k_prepStep : g.keys Obj.prepStep := by assumption) (k_remapCount : g.keys Obj.remapCount := by assumption) (k_settingsState : g.keys Obj.settingsState := by assumption) (k_slotDictVersion : ∀ n, g.keys (Obj.slotDictVersion n) := by assumption) (k_slotFwVersion : ∀ n, g.keys (Obj.slotFwVersion n) := by assumption) (k_slotManifestHash : ∀ n, g.keys (Obj.slotManifestHash n) := by assumption) (k_slotRejectReason : ∀ n, g.keys (Obj.slotRejectReason n) := by assumption) (k_slotState : ∀ n, g.keys (Obj.slotState n) := by assumption) (k_slotSvn : ∀ n, g.keys (Obj.slotSvn n) := by assumption) (k_sparePages : g.keys Obj.sparePages := by assumption) (k_szState : ∀ n, g.keys (Obj.szState n) := by assumption) (k_szWp : ∀ n, g.keys (Obj.szWp n) := by assumption) (k_t1PoolPages : g.keys Obj.t1PoolPages := by assumption) (k_tmDiscards : g.keys Obj.tmDiscards := by assumption) (k_tmEvictions : g.keys Obj.tmEvictions := by assumption) (k_tmWaitCycles : g.keys Obj.tmWaitCycles := by assumption) (k_wearAvgPe : g.keys Obj.wearAvgPe := by assumption) (k_wearMaxPe : g.keys Obj.wearMaxPe := by assumption) :
    Within g s (State.writeAll u src xs).1 := by
  unfold State.writeAll
  extract_lets +onlyGivenNames -underBinder -merge n1
  exact Within.iteFst (Within.fst (Within.foldl (fun x2 x3 h4 => (State.applyItem_within p_staged p_prep p_bar0 p_cmd p_castMem p_tile p_spans p_upd p_link p_coll p_tier p_zones p_store p_power p_cross p_fw p_start p_free h4)) h)) (Within.fst (State.count_within h))

theorem State.writeFrame_within {src : Src} {pdu : Bytes} (p_staged : Part.staged ∈ g.parts) (p_prep : Part.prep ∈ g.parts) (p_bar0 : Part.bar0 ∈ g.parts) (p_cmd : Part.cmd ∈ g.parts) (p_castMem : Part.castMem ∈ g.parts) (p_tile : Part.tile ∈ g.parts) (p_spans : Part.spans ∈ g.parts) (p_upd : Part.upd ∈ g.parts) (p_link : Part.link ∈ g.parts) (p_coll : Part.coll ∈ g.parts) (p_tier : Part.tier ∈ g.parts) (p_zones : Part.zones ∈ g.parts) (p_store : Part.store ∈ g.parts) (p_power : Part.power ∈ g.parts) (p_cross : Part.cross ∈ g.parts) (p_fw : Part.fw ∈ g.parts) (p_start : Part.start ∈ g.parts) (p_free : Part.free ∈ g.parts) (k_actMode : g.keys Obj.actMode) (k_actStep : g.keys Obj.actStep) (k_actTick : g.keys Obj.actTick) (k_activeSlot : g.keys Obj.activeSlot) (k_any : ∀ k, g.keys k) (k_bootState : g.keys Obj.bootState) (k_chRetired : ∀ n, g.keys (Obj.chRetired n)) (k_collBytesTx : g.keys Obj.collBytesTx) (k_collMismatchCycles : g.keys Obj.collMismatchCycles) (k_collResends : g.keys Obj.collResends) (k_decState : ∀ n, g.keys (Obj.decState n)) (k_dictRejected : g.keys Obj.dictRejected) (k_e2DeferredMs : g.keys Obj.e2DeferredMs) (k_flags : ∀ n, g.keys (Obj.flags n)) (k_flitsTx : ∀ n, g.keys (Obj.flitsTx n)) (k_followingMs : g.keys Obj.followingMs) (k_fwSvn : g.keys Obj.fwSvn) (k_groupState : g.keys Obj.groupState) (k_hlState : ∀ n, g.keys (Obj.hlState n)) (k_idResult : ∀ n, g.keys (Obj.idResult n)) (k_keyRevoked : g.keys Obj.keyRevoked) (k_lenderKey : ∀ n, g.keys (lenderKey n)) (k_logicalPlane : ∀ n, g.keys (Obj.logicalPlane n)) (k_moduleState : g.keys Obj.moduleState) (k_planePort : ∀ n, g.keys (Obj.planePort n)) (k_portPowerState : ∀ n, g.keys (Obj.portPowerState n)) (k_portSleep : ∀ n, g.keys (Obj.portSleep n)) (k_portState : ∀ n, g.keys (Obj.portState n)) (k_prepEpoch : g.keys Obj.prepEpoch) (k_prepStep : g.keys Obj.prepStep) (k_remapCount : g.keys Obj.remapCount) (k_settingsState : g.keys Obj.settingsState) (k_slotDictVersion : ∀ n, g.keys (Obj.slotDictVersion n)) (k_slotFwVersion : ∀ n, g.keys (Obj.slotFwVersion n)) (k_slotManifestHash : ∀ n, g.keys (Obj.slotManifestHash n)) (k_slotRejectReason : ∀ n, g.keys (Obj.slotRejectReason n)) (k_slotState : ∀ n, g.keys (Obj.slotState n)) (k_slotSvn : ∀ n, g.keys (Obj.slotSvn n)) (k_sparePages : g.keys Obj.sparePages) (k_szState : ∀ n, g.keys (Obj.szState n)) (k_szWp : ∀ n, g.keys (Obj.szWp n)) (k_t1PoolPages : g.keys Obj.t1PoolPages) (k_throttledMs : g.keys Obj.throttledMs) (k_tmDiscards : g.keys Obj.tmDiscards) (k_tmEvictions : g.keys Obj.tmEvictions) (k_tmWaitCycles : g.keys Obj.tmWaitCycles) (k_wearAvgPe : g.keys Obj.wearAvgPe) (k_wearMaxPe : g.keys Obj.wearMaxPe) (h : Within g s u) :
    ∀ r, State.writeFrame u src pdu = some r → Within g s r.1 := by
  intro r hr
  obtain ⟨xs, _, rfl⟩ := Option.map_eq_some_iff.1 hr
  have h1 : Within g s u.account := State.account_within p_power h
  split
  · next t sts ht =>
    have hp : Within g s (if pduField pdu 7 1 % 2 = 1 then u.account.writeAll src xs else u.account.writeEach src xs).1 :=
      Within.iteFst (State.writeAll_within p_staged p_prep p_bar0 p_cmd p_castMem p_tile p_spans p_upd p_link p_coll p_tier p_zones p_store p_power p_cross p_fw p_start p_free h1) (State.writeEach_within p_staged p_prep p_bar0 p_cmd p_castMem p_tile p_spans p_upd p_link p_coll p_tier p_zones p_store p_power p_cross p_fw p_start p_free h1)
    exact Within.pair hp ht

theorem execDictWrite_within {src : Src} {pdu : Bytes} {held : Nat} (p_staged : Part.staged ∈ g.parts) (p_prep : Part.prep ∈ g.parts) (p_bar0 : Part.bar0 ∈ g.parts) (p_cmd : Part.cmd ∈ g.parts) (p_castMem : Part.castMem ∈ g.parts) (p_tile : Part.tile ∈ g.parts) (p_spans : Part.spans ∈ g.parts) (p_upd : Part.upd ∈ g.parts) (p_link : Part.link ∈ g.parts) (p_coll : Part.coll ∈ g.parts) (p_tier : Part.tier ∈ g.parts) (p_zones : Part.zones ∈ g.parts) (p_store : Part.store ∈ g.parts) (p_power : Part.power ∈ g.parts) (p_cross : Part.cross ∈ g.parts) (p_fw : Part.fw ∈ g.parts) (p_start : Part.start ∈ g.parts) (p_free : Part.free ∈ g.parts) (h : Within g s u) (k_actMode : g.keys Obj.actMode := by assumption) (k_actStep : g.keys Obj.actStep := by assumption) (k_actTick : g.keys Obj.actTick := by assumption) (k_activeSlot : g.keys Obj.activeSlot := by assumption) (k_any : ∀ k, g.keys k := by assumption) (k_bootState : g.keys Obj.bootState := by assumption) (k_chRetired : ∀ n, g.keys (Obj.chRetired n) := by assumption) (k_collBytesTx : g.keys Obj.collBytesTx := by assumption) (k_collMismatchCycles : g.keys Obj.collMismatchCycles := by assumption) (k_collResends : g.keys Obj.collResends := by assumption) (k_decState : ∀ n, g.keys (Obj.decState n) := by assumption) (k_dictDiscards : g.keys Obj.dictDiscards := by assumption) (k_dictFramesRx : g.keys Obj.dictFramesRx := by assumption) (k_dictFramesTx : g.keys Obj.dictFramesTx := by assumption) (k_dictRejected : g.keys Obj.dictRejected := by assumption) (k_dictRepeats : g.keys Obj.dictRepeats := by assumption) (k_e2DeferredMs : g.keys Obj.e2DeferredMs := by assumption) (k_flags : ∀ n, g.keys (Obj.flags n) := by assumption) (k_flitsTx : ∀ n, g.keys (Obj.flitsTx n) := by assumption) (k_followingMs : g.keys Obj.followingMs := by assumption) (k_fwSvn : g.keys Obj.fwSvn := by assumption) (k_groupState : g.keys Obj.groupState := by assumption) (k_hlState : ∀ n, g.keys (Obj.hlState n) := by assumption) (k_idResult : ∀ n, g.keys (Obj.idResult n) := by assumption) (k_keyRevoked : g.keys Obj.keyRevoked := by assumption) (k_lenderKey : ∀ n, g.keys (lenderKey n) := by assumption) (k_logicalPlane : ∀ n, g.keys (Obj.logicalPlane n) := by assumption) (k_moduleState : g.keys Obj.moduleState := by assumption) (k_planePort : ∀ n, g.keys (Obj.planePort n) := by assumption) (k_portPowerState : ∀ n, g.keys (Obj.portPowerState n) := by assumption) (k_portSleep : ∀ n, g.keys (Obj.portSleep n) := by assumption) (k_portState : ∀ n, g.keys (Obj.portState n) := by assumption) (k_prepEpoch : g.keys Obj.prepEpoch := by assumption) (k_prepStep : g.keys Obj.prepStep := by assumption) (k_remapCount : g.keys Obj.remapCount := by assumption) (k_settingsState : g.keys Obj.settingsState := by assumption) (k_slotDictVersion : ∀ n, g.keys (Obj.slotDictVersion n) := by assumption) (k_slotFwVersion : ∀ n, g.keys (Obj.slotFwVersion n) := by assumption) (k_slotManifestHash : ∀ n, g.keys (Obj.slotManifestHash n) := by assumption) (k_slotRejectReason : ∀ n, g.keys (Obj.slotRejectReason n) := by assumption) (k_slotState : ∀ n, g.keys (Obj.slotState n) := by assumption) (k_slotSvn : ∀ n, g.keys (Obj.slotSvn n) := by assumption) (k_sparePages : g.keys Obj.sparePages := by assumption) (k_szState : ∀ n, g.keys (Obj.szState n) := by assumption) (k_szWp : ∀ n, g.keys (Obj.szWp n) := by assumption) (k_t1PoolPages : g.keys Obj.t1PoolPages := by assumption) (k_throttledMs : g.keys Obj.throttledMs := by assumption) (k_tmDiscards : g.keys Obj.tmDiscards := by assumption) (k_tmEvictions : g.keys Obj.tmEvictions := by assumption) (k_tmWaitCycles : g.keys Obj.tmWaitCycles := by assumption) (k_wearAvgPe : g.keys Obj.wearAvgPe := by assumption) (k_wearMaxPe : g.keys Obj.wearMaxPe := by assumption) :
    Leads g s (execDictWrite src pdu held u) := by
  unfold execDictWrite
  exact Leads.next (State.receive_within p_cross (fun x1 x2 h3 h4 => ((State.writeFrame_within p_staged p_prep p_bar0 p_cmd p_castMem p_tile p_spans p_upd p_link p_coll p_tier p_zones p_store p_power p_cross p_fw p_start p_free k_actMode k_actStep k_actTick k_activeSlot k_any k_bootState k_chRetired k_collBytesTx k_collMismatchCycles k_collResends k_decState k_dictRejected k_e2DeferredMs k_flags k_flitsTx k_followingMs k_fwSvn k_groupState k_hlState k_idResult k_keyRevoked k_lenderKey k_logicalPlane k_moduleState k_planePort k_portPowerState k_portSleep k_portState k_prepEpoch k_prepStep k_remapCount k_settingsState k_slotDictVersion k_slotFwVersion k_slotManifestHash k_slotRejectReason k_slotState k_slotSvn k_sparePages k_szState k_szWp k_t1PoolPages k_throttledMs k_tmDiscards k_tmEvictions k_tmWaitCycles k_wearAvgPe k_wearMaxPe h3) _ h4)) h)

theorem State.logRead_within {pdu : Bytes} (h : Within g s u) :
    ∀ r, State.logRead u pdu = some r → Within g s r.1 := by
  intro r hr
  obtain ⟨⟨a, n⟩, _, rfl⟩ := Option.map_eq_some_iff.1 hr
  exact Within.setDict h rfl fun hl => by simpa using hl

theorem execLogRead_within {src : Src} {pdu : Bytes} {held : Nat} (p_cross : Part.cross ∈ g.parts) (h : Within g s u) (k_dictDiscards : g.keys Obj.dictDiscards := by assumption) (k_dictFramesRx : g.keys Obj.dictFramesRx := by assumption) (k_dictFramesTx : g.keys Obj.dictFramesTx := by assumption) (k_dictRepeats : g.keys Obj.dictRepeats := by assumption) :
    Leads g s (execLogRead src pdu held u) := by
  unfold execLogRead
  exact Leads.next (State.receive_within p_cross (fun x1 x2 h3 h4 => ((State.logRead_within h3) _ h4)) h)

theorem State.discover_within {pdu : Bytes} (h : Within g s u) :
    ∀ r, State.discover u pdu = some r → Within g s r.1 := by
  intro r hr
  unfold State.discover at hr
  split at hr
  · injection hr with hr
    exact hr ▸ h
  · cases hr

theorem execDiscover_within {src : Src} {pdu : Bytes} {held : Nat} (p_cross : Part.cross ∈ g.parts) (h : Within g s u) (k_dictDiscards : g.keys Obj.dictDiscards := by assumption) (k_dictFramesRx : g.keys Obj.dictFramesRx := by assumption) (k_dictFramesTx : g.keys Obj.dictFramesTx := by assumption) (k_dictRepeats : g.keys Obj.dictRepeats := by assumption) :
    Leads g s (execDiscover src pdu held u) := by
  unfold execDiscover
  exact Leads.next (State.receive_within p_cross (fun x1 x2 h3 h4 => ((State.discover_within h3) _ h4)) h)

theorem State.eventIrq_within {p1 : HostPort} (p_cmd : Part.cmd ∈ g.parts) (h : Within g s u) :
    Within g s (State.eventIrq u p1) := by
  unfold State.eventIrq
  extract_lets +onlyGivenNames -underBinder -merge n1
  clear_value n1
  split
  · exact h
  · exact Within.ite h (by
      extract_lets +onlyGivenNames -underBinder -merge s5
      have h6 : Within g s s5 := (State.interrupt_within p_cmd h)
      split
      · exact Within.setDict h6 rfl id
      · exact Within.setDict h6 rfl id)

theorem execEventIrq_within {p0 : HostPort} (p_cmd : Part.cmd ∈ g.parts) (h : Within g s u) :
    Leads g s (execEventIrq p0 u) := by
  unfold execEventIrq
  exact Leads.next (State.eventIrq_within p_cmd h)

theorem State.fieldSilent_within (h : Within g s u) :
    Within g s (State.fieldSilent u) := by
  unfold State.fieldSilent
  exact Within.ite (State.raiseOnce_within h) h

theorem execFieldLinkLost_within (h : Within g s u) :
    Leads g s (execFieldLinkLost u) := by
  unfold execFieldLinkLost
  exact Leads.next (State.fieldSilent_within h)

theorem execMctpReassemblyTimeout_within {_p : HostPort} (h : Within g s u) (k_dictDiscards : g.keys Obj.dictDiscards := by assumption) :
    Leads g s (execMctpReassemblyTimeout _p u) := by
  unfold execMctpReassemblyTimeout
  exact Leads.next (Within.ite (State.countSat_within h) h)

theorem State.mctpAnswer_within {p1 : HostPort} {code : Nat} {cc : Nat} {body : Bytes} (h : Within g s u) :
    Within g s (State.mctpAnswer u p1 code cc body) := by
  unfold State.mctpAnswer
  exact Within.ite (State.emit_within h) h

theorem State.setEid_within {p1 : HostPort} {op : Nat} {eid : Nat} (h : Within g s u) (k_mctpEid : ∀ n, g.keys (Obj.mctpEid n) := by assumption) :
    Within g s (State.setEid u p1 op eid) := by
  unfold State.setEid
  exact Within.ite h (Within.ite (State.mctpAnswer_within (State.wr_within h _ _)) (State.mctpAnswer_within h))

theorem execSetEndpointId_within {p0 : HostPort} {op : Nat} {eid : Nat} (h : Within g s u) (k_mctpEid : ∀ n, g.keys (Obj.mctpEid n) := by assumption) :
    Leads g s (execSetEndpointId p0 op eid u) := by
  unfold execSetEndpointId
  exact Leads.next (State.setEid_within h)

theorem execGetEndpointId_within {p0 : HostPort} (h : Within g s u) :
    Leads g s (execGetEndpointId p0 u) := by
  unfold execGetEndpointId
  exact Leads.next (State.mctpAnswer_within h)

theorem execGetMctpVersionSupport_within {p0 : HostPort} {mtype : Nat} (h : Within g s u) :
    Leads g s (execGetMctpVersionSupport p0 mtype u) := by
  unfold execGetMctpVersionSupport
  exact Leads.next (Within.ite (State.mctpAnswer_within h) (State.mctpAnswer_within h))

theorem execGetMessageTypeSupport_within {p0 : HostPort} (h : Within g s u) :
    Leads g s (execGetMessageTypeSupport p0 u) := by
  unfold execGetMessageTypeSupport
  exact Leads.next (State.mctpAnswer_within h)

theorem execGetVendorMessageSupport_within {p0 : HostPort} {selector : Nat} (h : Within g s u) :
    Leads g s (execGetVendorMessageSupport p0 selector u) := by
  unfold execGetVendorMessageSupport
  exact Leads.next (Within.ite (State.mctpAnswer_within h) (State.mctpAnswer_within h))

theorem State.mirrorRefresh_within (p_power : Part.power ∈ g.parts) (p_cross : Part.cross ∈ g.parts) (p_mirror : Part.mirror ∈ g.parts) (h : Within g s u) (k_e2DeferredMs : g.keys Obj.e2DeferredMs := by assumption) (k_followingMs : g.keys Obj.followingMs := by assumption) (k_throttledMs : g.keys Obj.throttledMs := by assumption) :
    Within g s (State.mirrorRefresh u) := by
  unfold State.mirrorRefresh
  extract_lets s1 n s2
  have h1 : Within g s s2 := State.pass_within p_cross (State.account_within p_power h)
  refine Within.ite h ?_
  clear_value s2 n
  have hb : Tab.wf 0 (memWrite [] 0 (State.mirrorBytes s2 n)) := memWrite_wf 0 _ (Tab.nil_wf 0)
  generalize memWrite [] 0 (State.mirrorBytes s2 n) = m at hb
  exact Within.setMirror p_mirror h1 (fun _ => hb) id

theorem execMirrorRefresh_within (p_power : Part.power ∈ g.parts) (p_cross : Part.cross ∈ g.parts) (p_mirror : Part.mirror ∈ g.parts) (h : Within g s u) (k_e2DeferredMs : g.keys Obj.e2DeferredMs := by assumption) (k_followingMs : g.keys Obj.followingMs := by assumption) (k_throttledMs : g.keys Obj.throttledMs := by assumption) :
    Leads g s (execMirrorRefresh u) := by
  unfold execMirrorRefresh
  exact Leads.next (State.mirrorRefresh_within p_power p_cross p_mirror h)

theorem execCumClear_within {src : Src} {arg : Nat} (h : Within g s u) (k_clear : ∀ k ∈ (clearSet Obj.cumClear).getD [], g.keys k := by first | assumption | (intros; apply_assumption)) (k_dictRejected : g.keys Obj.dictRejected := by assumption) :
    Leads g s (execCumClear src arg u) := by
  unfold execCumClear
  exact Leads.next (State.writeClear_within h)

theorem execMxClear_within {src : Src} {arg : Nat} (h : Within g s u) (k_clear : ∀ k ∈ (clearSet Obj.mxClear).getD [], g.keys k := by first | assumption | (intros; apply_assumption)) (k_dictRejected : g.keys Obj.dictRejected := by assumption) :
    Leads g s (execMxClear src arg u) := by
  unfold execMxClear
  exact Leads.next (State.writeClear_within h)

theorem execCastClear_within {src : Src} {arg : Nat} (h : Within g s u) (k_clear : ∀ k ∈ (clearSet Obj.castClear).getD [], g.keys k := by first | assumption | (intros; apply_assumption)) (k_dictRejected : g.keys Obj.dictRejected := by assumption) :
    Leads g s (execCastClear src arg u) := by
  unfold execCastClear
  exact Leads.next (State.writeClear_within h)

theorem execVxClear_within {src : Src} {arg : Nat} (h : Within g s u) (k_clear : ∀ k ∈ (clearSet Obj.vxClear).getD [], g.keys k := by first | assumption | (intros; apply_assumption)) (k_dictRejected : g.keys Obj.dictRejected := by assumption) :
    Leads g s (execVxClear src arg u) := by
  unfold execVxClear
  exact Leads.next (State.writeClear_within h)

theorem execFabricClear_within {src : Src} {arg : Nat} (h : Within g s u) (k_clear : ∀ k ∈ (clearSet Obj.fabricClear).getD [], g.keys k := by first | assumption | (intros; apply_assumption)) (k_dictRejected : g.keys Obj.dictRejected := by assumption) :
    Leads g s (execFabricClear src arg u) := by
  unfold execFabricClear
  exact Leads.next (State.writeClear_within h)

theorem execCmdClear_within {src : Src} {arg : Nat} (h : Within g s u) (k_clear : ∀ k ∈ (clearSet Obj.cmdClear).getD [], g.keys k := by first | assumption | (intros; apply_assumption)) (k_dictRejected : g.keys Obj.dictRejected := by assumption) :
    Leads g s (execCmdClear src arg u) := by
  unfold execCmdClear
  exact Leads.next (State.writeClear_within h)

theorem execUpdClear_within {src : Src} {arg : Nat} (h : Within g s u) (k_clear : ∀ k ∈ (clearSet Obj.updClear).getD [], g.keys k := by first | assumption | (intros; apply_assumption)) (k_dictRejected : g.keys Obj.dictRejected := by assumption) :
    Leads g s (execUpdClear src arg u) := by
  unfold execUpdClear
  exact Leads.next (State.writeClear_within h)

theorem execTmClear_within {src : Src} {arg : Nat} (h : Within g s u) (k_clear : ∀ k ∈ (clearSet Obj.tmClear).getD [], g.keys k := by first | assumption | (intros; apply_assumption)) (k_dictRejected : g.keys Obj.dictRejected := by assumption) :
    Leads g s (execTmClear src arg u) := by
  unfold execTmClear
  exact Leads.next (State.writeClear_within h)

theorem execBankClear_within {src : Src} {arg : Nat} (h : Within g s u) (k_clear : ∀ k ∈ (clearSet Obj.bankClear).getD [], g.keys k := by first | assumption | (intros; apply_assumption)) (k_dictRejected : g.keys Obj.dictRejected := by assumption) :
    Leads g s (execBankClear src arg u) := by
  unfold execBankClear
  exact Leads.next (State.writeClear_within h)

theorem execStClear_within {src : Src} {arg : Nat} (h : Within g s u) (k_clear : ∀ k ∈ (clearSet Obj.stClear).getD [], g.keys k := by first | assumption | (intros; apply_assumption)) (k_dictRejected : g.keys Obj.dictRejected := by assumption) :
    Leads g s (execStClear src arg u) := by
  unfold execStClear
  exact Leads.next (State.writeClear_within h)

theorem execInClear_within {src : Src} {arg : Nat} (h : Within g s u) (k_clear : ∀ k ∈ (clearSet Obj.inClear).getD [], g.keys k := by first | assumption | (intros; apply_assumption)) (k_dictRejected : g.keys Obj.dictRejected := by assumption) :
    Leads g s (execInClear src arg u) := by
  unfold execInClear
  exact Leads.next (State.writeClear_within h)

theorem execLinkClear_within {src : Src} {port : Fin 16} {arg : Nat} (h : Within g s u) (k_dictRejected : g.keys Obj.dictRejected := by assumption) (k_clear : ∀ k ∈ (clearSet (Obj.linkClear port)).getD [], g.keys k := by assumption) :
    Leads g s (execLinkClear src port arg u) := by
  unfold execLinkClear
  exact Leads.next (State.writeClear_within h)

theorem execCollClear_within {src : Src} {arg : Nat} (h : Within g s u) (k_clear : ∀ k ∈ (clearSet Obj.collClear).getD [], g.keys k := by first | assumption | (intros; apply_assumption)) (k_dictRejected : g.keys Obj.dictRejected := by assumption) :
    Leads g s (execCollClear src arg u) := by
  unfold execCollClear
  exact Leads.next (State.writeClear_within h)

theorem execPtClear_within {src : Src} {arg : Nat} (p_power : Part.power ∈ g.parts) (h : Within g s u) (k_clear : ∀ k ∈ (clearSet Obj.ptClear).getD [], g.keys k := by first | assumption | (intros; apply_assumption)) (k_dictRejected : g.keys Obj.dictRejected := by assumption) (k_e2DeferredMs : g.keys Obj.e2DeferredMs := by assumption) (k_followingMs : g.keys Obj.followingMs := by assumption) (k_throttledMs : g.keys Obj.throttledMs := by assumption) :
    Leads g s (execPtClear src arg u) := by
  unfold execPtClear
  exact Leads.next (State.act_within (fun x1 h2 => (State.clearPower_within p_power h2)) (State.account_within p_power h))

theorem execClkClear_within {src : Src} {arg : Nat} (p_cross : Part.cross ∈ g.parts) (h : Within g s u) (k_clear : ∀ k ∈ (clearSet Obj.clkClear).getD [], g.keys k := by first | assumption | (intros; apply_assumption)) (k_dictRejected : g.keys Obj.dictRejected := by assumption) :
    Leads g s (execClkClear src arg u) := by
  unfold execClkClear
  exact Leads.next (State.act_within (fun x1 h2 => (State.clearClocks_within p_cross h2)) h)

theorem execDictClear_within {src : Src} {arg : Nat} (h : Within g s u) (k_clear : ∀ k ∈ (clearSet Obj.dictClear).getD [], g.keys k := by first | assumption | (intros; apply_assumption)) (k_dictRejected : g.keys Obj.dictRejected := by assumption) :
    Leads g s (execDictClear src arg u) := by
  unfold execDictClear
  exact Leads.next (State.writeClear_within h)

theorem execFlagsClear_within {src : Src} {block : Nat} {mask : Nat} (h : Within g s u) (k_dictRejected : g.keys Obj.dictRejected := by assumption) (k_flags : ∀ n, g.keys (Obj.flags n) := by assumption) :
    Leads g s (execFlagsClear src block mask u) := by
  unfold execFlagsClear
  exact Leads.next (State.act_within (fun x1 h2 => (State.clearFlags_within h2)) h)

end Sys2Proof.Machine
end

