-- ==== Sys2Proof/WellFormed.lean ====
section
/-! DEFINITION. The operands a command can carry: their widths and lengths as the interface that brings them gives them. The meanings
are total and need no such check; a statement that counts on a width names it. -/
namespace Sys2Proof

/-- A field-network address of 48 bits or an endpoint ID of 8 bits (R414, R424). -/
def Src.wf : Src → Bool
  | .fld mac => decide (mac < 2 ^ 48)
  | .mctp _ eid => decide (eid < 2 ^ 8)

/-- The fields of a message have the widths of the route word and the collective header (Tables 11.4 and 12.2), and its body is one that
fits a message (R331). -/
def Msg.wf (m : Msg) : Bool :=
  decide (m.src < 2 ^ 9) && decide (m.pod < 2) && decide (m.mtype < 2 ^ 8) && decide (m.level < 2 ^ 8) && decide (m.group < 2 ^ 16) &&
  decide (m.epoch < 2 ^ 32) && decide (m.digest < 2 ^ 32) && decide (m.cid < 2 ^ 32) && decide (m.step < 2 ^ 64) &&
  decide (m.index < 2 ^ 32) && decide (m.rank < 2 ^ 16) && decide (m.count < 2 ^ 16) && decide (m.body.length ≤ 7896)

/-- Record sequences are 32 bits (R176). -/
def seqWf (q : Nat) : Bool := decide (q < 2 ^ 32)

/-- A flit is 256 bytes (R302), in 2 × 4 codewords of which some were corrected or could not be. -/
def flitWf (f : Bytes) : Bool := f.length == 256

/-- A bank unit as it is read: 64 data bytes and 8 check bytes (R257). -/
def unitWf (b : Bytes) : Bool := b.length == 72

/-- A trailer write covers bytes of 56 to 63 or earlier ones of one slot of 64 bytes (R173, R178). -/
def trailerWf (off : Nat) (data : Bytes) : Bool := decide (0 < data.length) && decide (off + data.length ≤ 64)

/-- Are the operands of a command of the widths its interface has? -/
def Instr.wf : Instr → Bool
  | .cmdTrailerWrite _ _ _ off data => trailerWf off data
  | .recordRetire _ q | .reduceTileFold _ q | .castOpen _ q | .castPop _ q | .castPopTo _ q | .castArm _ q | .planReserve _ q | .planLayer _ q
  | .barArm _ q | .tierCreate _ q | .tierFree _ q | .tierMove _ q | .stream _ q | .ringConfig _ q | .streamGateOpen _ q | .updateMap _ q
  | .update _ q | .restore _ q | .report _ q _ | .step _ q | .audit _ q | .modePrepare _ q | .modeCancel _ q | .collectiveOpen _ q
  | .collectiveReduce _ q | .collectiveGather _ q | .agree _ q | .scalar _ q | .chunkWait _ q _ | .resultRequest _ q _ | .sample _ q
  | .fetch _ q | .profile _ q | .engineConfig _ q | .append _ q _ | .drain _ q | .sampleComplete _ q | .appendDone _ q
  | .drainComplete _ q => seqWf q
  | .matrix _ q _ | .outputTileDrain _ q _ | .splitHandoff _ q _ | .tileRecordComplete _ q _ | .vectorMap _ q _ | .vectorReduce _ q _
  | .vmap _ q _ | .gather _ q _ | .scatter _ q _ | .semSignal _ q _ | .semWait _ q _ | .semSet _ q _ | .barArrive _ q _ | .barWait _ q _
  | .syncTimeout _ q _ | .stageFillDone _ q _ | .stageStall _ q _ => seqWf q
  | .fabricParity _ tile _ => (match tile with | none => true | some t => decide (t / 32 < 12 ∧ t % 32 < 17))
  | .bankReadReplay addr _ reads _ => decide (addr < 2 ^ 35) && reads.all unitWf
  | .bankWriteRetry addr _ _ => decide (addr < 2 ^ 35)
  | .scrub _ x => x.reads.all unitWf
  | .estimatorUpdate vin iin _ => vin.length == iin.length
  | .updatePassStart l _ _ => decide (1 ≤ l) && decide (l ≤ 255)
  | .layerCommit l => decide (1 ≤ l) && decide (l ≤ 255)
  | .helloRx _ f _ _ | .dataFlitRx _ f _ _ | .linkWordAck _ f _ _ | .creditFlitRx _ f _ _ | .paceModeFlitRx _ f _ _ | .lldpFlitRx _ f _ _
  | .powerFlitRx _ f _ _ => flitWf f
  | .msgCapability m | .msgView m | .msgSurvivors m | .msgAbort m | .msgExponent m | .msgAgreed m | .msgData m | .msgResult m | .msgResend m
  | .msgGather m | .msgScalar m | .msgScalarResult m | .msgDigest m | .msgTwinDigest m | .msgStatePart m | .msgStateDone m | .msgLend m
  | .msgRecall m | .msgRelease m | .msgWithdrawal m | .msgLentRead m | .msgLentData m => m.wf
  | .dictRead src _ _ | .dictWrite src _ _ | .logRead src _ _ | .discover src _ _ => src.wf
  | .cumClear src _ | .mxClear src _ | .castClear src _ | .vxClear src _ | .fabricClear src _ | .cmdClear src _ | .updClear src _
  | .tmClear src _ | .bankClear src _ | .stClear src _ | .inClear src _ | .linkClear src _ _ | .collClear src _ | .ptClear src _
  | .clkClear src _ | .dictClear src _ | .cwClaim src _ _ | .cwTakeover src _ _ | .cwForcedTakeover src _ _ | .cwRelease src _ _
  | .cwResume src _ | .cwReset src _ | .cwHalt src _ | .leaseRenew src _ | .stepAbort src _ | .ringCommit src _ _ | .szReset src _ _
  | .settingsSave src _ | .settingsDefaults src _ | .fwConfirm src _ | .fwRevert src _ | .actTickWrite src _ | .portSleepWrite src _ _
  | .hlCommit src _ _ | .hlRecall src _ _ | .nbCommit src _ | .lendRecall src _ => src.wf
  | .flagsClear src block mask => src.wf && decide (1 ≤ block) && decide (block ≤ 15) && decide (mask < 2 ^ 32)
  | .trayReport mac _ => decide (mac < 2 ^ 48)
  | .setEndpointId _ op eid => decide (op < 4) && decide (eid < 2 ^ 8)
  | .getMctpVersionSupport _ mtype => decide (mtype < 2 ^ 8)
  | .getVendorMessageSupport _ selector => decide (selector < 2 ^ 8)
  | .pldmFirmwareData _ off _ => decide (off < 2 ^ 32)
  | .pldmUpdateComponent _ size => decide (size < 2 ^ 32)
  | .dualReport _ nonce => nonce.length == 32
  | .hostLinkUp _ rate width => decide (1 ≤ rate) && decide (rate ≤ 6) && (width == 1 || width == 2 || width == 4 || width == 8)
  | .doeDiscovery _ i => decide (i < 2 ^ 8)
  | .stripeRowProgrammed _ _ | .garbageCollection _ _ | .wearLevelCopy _ _ _ | .readDisturbRefresh _ _ | .powerUpReadScan _
  | .flashReadFail _ _ _ _ | .decoderStall _ | .trayReadyDeassert | .trayReadyAssert | .modReset | .perstAssert _ | .perstRelease _
  | .slotIdSample _ | .startupStageDone _ | .startupStageFault _ | .startupRetry | .helloExchangeTimeout _ | .hostLinkDown _
  | .modResetRelease | .spdmGetVersion _ | .spdmGetCapabilities _ | .spdmNegotiateAlgorithms _ | .spdmGetDigests _ | .spdmFinish _
  | .spdmEndSession _ | .spdmHeartbeatTimeout _ | .spdmGetCertificate _ | .spdmChallenge _ | .spdmGetMeasurements _ | .spdmKeyExchange _
  | .spdmHeartbeat _ | .ideKm _ _ _ | .ideStopped _ | .vendorTestNonce _ | .vendorTestUnlock _ _ | .pldmQueryDeviceIdentifiers _
  | .pldmGetFirmwareParameters _ | .pldmRequestUpdate _ | .pldmPassComponentTable _ | .pldmGetStatus _ | .pldmCancelUpdateComponent _
  | .pldmCancelUpdate _ | .pldmActivateFirmware _ | .localActivationTick | .fwActivation | .trialTimeout | .boot | .settingsSaveDone _
  | .cwReleaseDone _ | .ownerLeaseExpired _ | .eventIrq _ | .mirrorRefresh | .fieldLinkLost | .mctpReassemblyTimeout _ | .getEndpointId _
  | .getMessageTypeSupport _ => true
  | .credit _ | .acceptOnRoom _ | .recordDispatch | .ringRecordWrite _ | .resultIrq _ | .castPageMoveDone _ _ | .semSignalArrive _
  | .barrierRelease _ _ | .pageMoveDone _ _ _ _ | .eviction _ | .recallNoticeExpiry _ | .lenderLost _
  | .caParityAlert _ | .bankTempRead _ _ | .updateWatchdog | .updateMissing | .stepCommit
  | .digestVerdict | .sumPageEvict | .capabilitySend | .joinWait | .memberFailDetect _ | .memberTimeout _ | .viewLeaderDecide
  | .viewMinorityTimeout | .twinWait => true
  | .portTrainingStart _ | .fecLock _ | .fecLockTimeout _ | .replayTimer _ | .ackTimer _ | .creditSend _ | .paceModeSend | .lldpSend _
  | .lldpMissing _ | .laneLoss _ | .retrain _ | .retrainDone _ | .retrainTimeout _ | .lp1Idle _ | .lp1Exit _ => true
  | .inputOvp _ | .inputOvpRelease _ | .inputHigh _ | .inputLow _ | .inputLowPark _ | .inputLowResume _ | .powerFail _
  | .standbyPowerGood _ | .bellowsDemand _ _ _ _ _ | .bellowsGrant | .grantTakeEffect | .opChangeDone | .bellowsTimeout _ | .bellowsRestart
  | .capCorrection | .paceCeilingUpdate | .backgroundStarved | .sensorSample _ _ _ _ | .sensorSuspect _
  | .sensorReaccept _ | .thermalCeilingStep | .thermalTrip _ | .nandTempRead _ _ | .coolantReportsLost | .coolantMismatch
  | .flowLossAssert | .flowLossDeassert | .stretchRise _ _ | .stretchStepDown _ _ | .reedMasked _ _ _ | .voltageLoop _ | .marginLow _ _
  | .ageingRecordWrite | .droneSync _ | .poweredTimeSave => true

end Sys2Proof
end

