-- ==== Sys2Proof/Tests/Slice0.lean ====
section
/-! SUPPORT. Tests: operands that are not well formed, states that meet the hypotheses of the statements, and single steps whose results
the manual gives. -/
namespace Sys2Proof.Machine
set_option Elab.async false
set_option linter.unusedVariables false

/-- Is a state of the module's form? -/
def formOk (s : State) : Bool :=
  decide (s.obj.Pairwise (fun a b => a.1 < b.1)) && s.obj.all (fun e => e.2 != objDflt e.1) && decide (Tab.wf 0 s.cmd.bar0) &&
  decide (Tab.wf 0 s.tile.scratch) && decide (Tab.wf 0 s.tile.castMem) && decide (Tab.wf 0 s.tier.mem) && decide (Tab.wf 0 s.tier.lentMem) &&
  decide (Tab.wf 0 s.store.zones) && decide (Tab.wf 0 s.dict.mirror) && decide (Tab.wf 0 s.fw.slots) && decide (s.dict.log.length ≤ 4096) &&
  decide (Tab.wf Window.reset s.cmd.wins) && s.cmd.wins.all (fun e => decide (e.2.queue.length ≤ 64)) &&
  decide (Tab.wf Dcq.reset s.cross.queues) && s.cross.queues.all fun e => e.2.atRest

theorem form_of (s : State) (h : formOk s = true) : s.Form := by
  simp only [formOk, Bool.and_eq_true, decide_eq_true_eq, List.all_eq_true, bne_iff_ne] at h
  obtain ⟨⟨⟨⟨⟨⟨⟨⟨⟨⟨⟨⟨⟨⟨h1, h2⟩, h3⟩, h4⟩, h5⟩, h6⟩, h7⟩, h8⟩, h9⟩, h10⟩, h11⟩, h12⟩, h13⟩, h14⟩, h15⟩ := h
  exact ⟨⟨h1, h2⟩, h3, h4, h5, h6, h7, h8, h9, h10, h11, ⟨h12, h13⟩, h14, h15⟩

/-! ### States for the tests -/

/-- An operational module with the given object values. -/
def up (l : List (Nat × Nat)) : State :=
  l.foldl (fun s x => s.wr x.1 x.2) (({ State.reset with standby := true, now := 1000 } : State).wr Obj.moduleState 2)

/-- A record from (bit, width, value) fields. -/
def mkRec (l : List (Nat × Nat × Nat)) : Rec := BitVec.ofNat 512 (l.foldl (fun n x => n + x.2.2 % 2 ^ x.2.1 * 2 ^ x.1) 0)

/-- A record with its CRC. -/
def sealRec (r : Rec) : Rec := BitVec.ofNat 512 (r.toNat + crc16 ((recBytes r).take 62) * 2 ^ 496)

/-- An accepted record, dispatched or not. -/
def entOf (r : Rec) (q : Nat) (disp : Bool) : QEntry := { QEntry.new r none Window.reset with seq := q, disp := disp }

/-- A window of HA, open, with a queue. -/
def winOf (l : List QEntry) : Window := { Window.reset with owner := some .ha, state := .opened, queue := l }

/-- A report record of window 0 with sequence 0, sealed. -/
def recA : Rec := sealRec (mkRec [(56, 8, 9), (448, 32, 0), (480, 3, 0)])
/-- The operational module with window 0 owned by HA over a link that is up. -/
def upA (x : Window) : State := (up [(Obj.linkState 0, 2), (Obj.linkState 1, 2)]).setWin 0 x
/-- The same with slot 0 written with a record. -/
def upSlot (r : Rec) : State :=
  let s := upA { winOf [] with marks := [(0, 255)], fresh := [(0, true)], due := true }
  { s with cmd := { s.cmd with bar0 := memWrite [] 0 (recBytes r) } }
/-- Ring record 0, formed and retained. -/
def ringA : RingEnt := { rseq := 0, cseq := 0, ticks := 5, session := 1, ty := 1, status := 0, reason := 0, win := 0, value := 7, written := false }

/-- The operational module with record `r` dispatched from window 0 with sequence 0. -/
def upRec (r : Rec) : State := upA (winOf [entOf r 0 true])
/-- A record of a kind with fields of descriptor words: (word, low bit, width, value). -/
def kindRec (k : Nat) (l : List (Nat × Nat × Nat × Nat)) : Rec :=
  mkRec ((56, 8, k) :: (53, 1, 1) :: l.map fun x => (64 + 64 * x.1 + x.2.1, x.2.2.1, x.2.2.2))

/-- A product of one engine tile by one engine tile over one block in tile 0: F8 operands from the scratchpad, F8 output. -/
def prodRec (dest split : Nat) : Rec :=
  kindRec 1 [(0, 48, 2, dest), (0, 45, 3, split), (0, 34, 8, 1), (0, 18, 8, 2 ^ split - 1), (1, 48, 16, 1), (1, 31, 17, 2 ^ split), (1, 15, 16, 1),
    (2, 24, 16, 0x3F80), (3, 24, 16, 0x3F80), (4, 26, 16, 0x3F80)]
/-- A vector record of one engine tile in tile 0: F8 source and H16 output in the scratchpad. -/
def vecRec (kind : Nat) (l : List (Nat × Nat × Nat × Nat)) : Rec :=
  kindRec 2 ([(0, 60, 4, kind), (0, 56, 4, 2), (2, 26, 16, 0x3F80), (2, 59, 3, 2), (3, 59, 3, 1), (3, 42, 16, 512), (4, 46, 16, 256), (4, 30, 16, 0x3F80)] ++ l)
/-- The bank that holds output tile 0 of record 0. -/
def bankA : Bank := { Bank.empty with use := .full, sa := 0x3F80, sb := 0x3F80 }
def withTile (s : State) (f : TileState → TileState) : State := { s with tile := f s.tile }
def shareA : Share := { Share.fresh with started := true, next := 1 }

/-- A page at home in a tier, and a region of one such page. -/
def pageA (h : Home) : RPage := { home := h, stamp := 0, move := none, bad := [], refetch := false }
def regionA (cls : Nat) (h : Home) : Region := { cls := cls, size := 1, fresh := pageA h, pages := [], freeing := none }
def withTier (s : State) (f : TierState → TierState) : State := { s with tier := f s.tier }
def moveA (d : Home) : PageMove := { dst := d, tries := 0, second := false, why := .evict }
/-- A message from module 3 of pod 0. -/
def msgA (b : Bytes) : Msg := { src := 3, pod := 0, mtype := 0, level := 1, group := 0, epoch := 0, digest := 0, cid := 0, step := 0, index := 0, rank := 0, count := 0, body := b }
def lentA : LentOut := { borrower := 3, pages := 4, noticeEnd := none }

/-- An armed update record of layer 1 for step 5, its step committed, issued by record 0 of window 0. -/
def armA : UpdArm :=
  { win := 0, seq := 0, layer := 1, step := 5, ckpt := false, first := false, eta := 0, wd := 0, g1 := 0x3F80, g2 := 0x3F80, eps := 0x3F80, c1 := 0x3F80,
    c2 := 0x3F80, gscale := 0x3F80, phi := 0x3F80, rhoLo := 0x3F80, rhoHi := 0x3F80, rhoInit := 0x3F80, go := true, seed := 0, zero := false }
def withUpd (s : State) (f : UpdState → UpdState) : State := { s with upd := f s.upd }
/-- Layer 1's journal in a state, with its pass of step 5. -/
def journalA (st : Nat) : Journal := { Journal.reset with state := st, committed := 4, passStep := 5, tagStep := 4 }
/-- A checkpoint image without tiles. -/
def imageA : Image :=
  { step := 4, layers := [(1, { entry := { journalA 1 with passStep := 4 }, form := 1, quiet := 2 })], forms := [], due := [], watch := none, digest := none, bytes := [], damaged := false }

/-- Module 1 of the running group of modules 1 and 3. -/
def grpA : State := up [(Obj.planModule, 1), (Obj.planPod, 0), (Obj.groupMembers, 10), (Obj.groupState, 2), (Obj.groupId, 0)]
def withColl (s : State) (f : CollState → CollState) : State := { s with coll := f s.coll }
/-- The compare of step 8 with the digests of modules 1 and 3. -/
def compareA (a b : Nat) : Compare :=
  { step := 8, start := 0, own := a, copies := [(1, (a, none)), (3, (b, none))], twin := none, twinLate := false, told := false }

/-- A message of module 3 for step 1 in the mode of module 1, of a type, with an index and a body. -/
def grpMsg (index : Nat) (b : Bytes) : Msg := { msgA b with step := 1, index := index, digest := grpA.modeCrc }
theorem modeCrc_of {s : State} {m : Msg} (index : Nat) (b : Bytes) (hd : m.digest = (grpMsg index b).digest) (h : s.obj = grpA.obj) :
    m.digest = s.modeCrc := by
  rw [hd]
  show grpA.modeCrc = s.modeCrc
  rw [State.modeCrc, State.modeCrc, State.modeBlock, State.modeBlock]
  simp only [State.rd, h]
/-- A job of op `op` for record 0 of window 0, of one block or entry. -/
def jobA (op : Nat) (r : Rec) : Job := Job.new op r 1 0 1
def withJob (s : State) (j : Job) : State := withColl s fun x => { x with jobs := [(0, j)] }
def spanA : Span :=
  { win := 0, seq := 0, layer := 1, dir := 1, step := 1, blocks := 1, uLoc := 0x3F80, adders := [], reduce := none, sums := [], evicted := [], touched := [] }
/-- A collective record 0 of window 0 dispatched in the group, its epochs agreed. -/
def grpRec (r : Rec) : State := withColl (grpA.setWin 0 (winOf [entOf r 0 true])) fun x => { x with agreedFor := some 0 }

/-- Port 0 in a port state, on plane 0 of module 1 of pod 0. -/
def portA (st : Nat) (x : Port) : State :=
  (up [(Obj.portState 0, st), (Obj.planModule, 1), (Obj.planPod, 0)]).setPort 0 x
/-- An intact flit of a type with a content. -/
def flitA (ty : Nat) (c : Bytes) : Bytes := flitBytes { ftype := ty, fseq := 0, ackSeq := 0, ackV := false, nak := false, vc := 0 } c
def txA : TxFlit := { fseq := 0, vc := 0, head := true, content := [], ends := none, lent := false }

/-- The LLDPDU of a peer with chassis 5 and switch port 7. -/
def lldpA : Bytes := p16 60 ++ List.replicate 14 0 ++ [2, 7, 4, 0, 0, 0, 0, 0, 5, 4, 2, 7, 0x37, 6, 2, 0, 4, 0, 0] ++ List.replicate 27 0

/-- An operational module whose rails are up, start-up complete, at a tick. -/
def runA (now : Nat) (f : PowerState → PowerState) : State :=
  let s := up []
  { s with now := now, start := { s.start with rails := true, stage := 9, trayReady := true, flowLoss := false }, power := f s.power }

/-- A tray report PDU: sequence 1, inlet 25 °C, outlet 30 °C, flow 2000 mL/min. -/
def trayA : Bytes := [1, 3, 0, 0, 24, 0, 0, 0, 1, 0] ++ p16 2500 ++ p16 3000 ++ p16 2000 ++ List.replicate 8 0

/-- A read of one object, and a write of a value of `n` bytes to one with flags: the PDUs. -/
def readA (k : Nat) : Bytes := pduHeader 1 7 16 1 0 ++ p16 (k / 256) ++ p8 (k % 256) ++ [0, 0, 0, 0, 0]
def writeA (flags k ty n v : Nat) : Bytes := pduHeader 2 7 (16 + n + pad4 n) 1 flags ++ p16 (k / 256) ++ p8 (k % 256) ++ p8 ty ++ p16 n ++ [0, 0] ++ le n v ++ List.replicate (pad4 n) 0

def withFw (s : State) (f : FwState → FwState) : State := { s with fw := f s.fw }
/-- An operational module with both host links up. -/
def linkA : State := upA (winOf [])
def loadA (n : Nat) : Loading := { port := .ha, phase := n, size := 100, got := 0 }

def withStore (s : State) (f : StoreState → StoreState) : State := { s with store := f s.store }
def appendA (done : Nat) : AppendJob := { zone := 1, base := 0, rows := 1, done := done, data := [7, 8] }
/-- A profile of 32 × 16 pixels in patches of 4 × 4. -/
def profA : Profile := { scaledW := 32, scaledH := 16, cropX := 0, cropY := 0, cropW := 32, cropH := 16, pw := 4, ph := 4, pt := 1, frames := 1, fstep := 1, chan := 0, mean := [0, 0, 0], oScale := 0x3F80, istd := [0, 0, 0], outFmt := 0, mtx := 0 }
def sampleA (cause : Nat) : SampleJob := { profile := profA, index := 0, engine := 2, progress := 0, cause := cause, formed := false }
/-- A block programmed in the first second. -/
def blockA : Block := { Block.fresh with programmed := some 0, reads := 300000000 }

/-- States that meet the hypotheses of ValidRecordsAreAccepted, one for each clause. -/
theorem test_hypotheses_ValidRecordsAreAccepted :
    (∃ (s : State) (p : HostPort) (w : Fin 8) (k : Fin 1024) (r : Rec), s.linkUp p = true ∧ s.ideBlocked p = false ∧ (s.win w).owner = some p ∧ (s.win w).state ≠ .closed ∧ s.rd Obj.moduleState = 2 ∧ k.val = (s.win w).e % 1024 ∧ (s.win w).marks.get 0 k < 256 ∧ Rec.seq r = (s.win w).e ∧ Rec.win r = w ∧ crcOk r = true ∧ Rec.kind r ≠ 0 ∧ (s.win w).queue.length < 64) ∧
    (∃ (s : State) (p : HostPort) (w : Fin 8) (k : Fin 1024) (off : Nat) (data : Bytes), s.linkUp p = true ∧ s.ideBlocked p = false ∧ (s.win w).owner = some p ∧ (s.win w).marks.get 0 k ||| trailerMask off data ≠ 255) ∧
    (∃ (s : State) (p : HostPort) (w : Fin 8) (k : Fin 1024) (off : Nat) (data : Bytes), s.linkUp p = true ∧ ((s.win w).owner ≠ some p ∨ s.ideBlocked p = true) ∧ trailerMask off data ≠ 0) ∧
    (∃ (s : State) (w : Fin 8) (r : Rec), (s.win w).due = true ∧ (s.win w).state ≠ .closed ∧ (s.win w).isWritten ((s.win w).e % 1024) = true ∧ s.rd Obj.moduleState = 2 ∧ r = s.slot w ((s.win w).e % 1024) ∧ Rec.seq r = (s.win w).e ∧ Rec.win r = w ∧ crcOk r = true ∧ Rec.kind r = 0 ∧ creditCheck r = 0) ∧
    (∃ (s : State) (w : Fin 8) (r : Rec), (s.win w).due = true ∧ (s.win w).state ≠ .closed ∧ (s.win w).isWritten ((s.win w).e % 1024) = true ∧ s.rd Obj.moduleState = 2 ∧ r = s.slot w ((s.win w).e % 1024) ∧ Rec.seq r = (s.win w).e ∧ Rec.win r = w ∧ crcOk r = true ∧ Rec.kind r = 0 ∧ creditCheck r ≠ 0) ∧
    (∃ (s : State) (w : Fin 8) (r : Rec), (s.win w).due = true ∧ (s.win w).state ≠ .closed ∧ (s.win w).isWritten ((s.win w).e % 1024) = true ∧ s.rd Obj.moduleState = 2 ∧ r = s.slot w ((s.win w).e % 1024) ∧ Rec.seq r = (s.win w).e ∧ Rec.win r = w ∧ crcOk r = true ∧ Rec.kind r ≠ 0 ∧ (s.win w).queue.length < 64) :=
  ⟨⟨upA (winOf []), .ha, 0, 0, recA, by decide +kernel⟩,
   ⟨upA (winOf []), .ha, 0, 0, 56, [1, 2, 3, 4], by decide +kernel⟩,
   ⟨upA (winOf []), .hb, 0, 0, 56, [1, 2, 3, 4], by decide +kernel⟩,
   ⟨upSlot (sealRec 0), 0, sealRec 0, by decide +kernel⟩,
   ⟨upSlot (sealRec (mkRec [(54, 2, 3)])), 0, sealRec (mkRec [(54, 2, 3)]), by decide +kernel⟩,
   ⟨upSlot recA, 0, recA, by decide +kernel⟩⟩

/-- States that meet the hypotheses of ResultRingIsWritten, one for each clause. -/
theorem test_hypotheses_ResultRingIsWritten :
    (∃ (s : State) (w : Fin 8) (p : HostPort) (r : RingEnt) (a : Nat), s.ringReady w = some (p, r) ∧ a = (s.win w).ringBase + 32 * (r.rseq % 2 ^ (s.win w).ringOrder)) ∧
    (∃ (s : State) (w : Fin 8) (p : HostPort), s.irqDue w = true ∧ (s.win w).owner = some p ∧ (s.cmd.msix.get MsixEnt.reset (16 * portNo p + w)).masked = true) ∧
    (∃ (s : State) (w : Fin 8) (p : HostPort), s.irqDue w = true ∧ (s.win w).owner = some p ∧ (s.cmd.msix.get MsixEnt.reset (16 * portNo p + w)).masked = false) ∧
    (∃ (s : State) (src : Src) (w : Fin 8) (arg : Nat), arg = 1 ∧ s.isOwner src w = true ∧ s.fldDenied src (Obj.ringCommit w) = false) :=
  ⟨⟨upA { winOf [] with ringOn := true, ring := [ringA], rnext := 1 }, 0, .ha, ringA, 0, by decide +kernel⟩,
   ⟨{ upA { winOf [] with irqCount := 300, irqFrom := some 0 } with cmd := { (upA { winOf [] with irqCount := 300, irqFrom := some 0 }).cmd with msix := [(16, { MsixEnt.reset with masked := true })] } }, 0, .ha, by decide +kernel⟩,
   ⟨upA { winOf [] with irqCount := 300, irqFrom := some 0 }, 0, .ha, by decide +kernel⟩,
   ⟨upA { winOf [] with state := .handover, withheld := true, ring := [{ ringA with written := true }], rnext := 1 }, .mctp .ha 9, 0, 1, by decide +kernel⟩⟩

/-- States that meet the hypotheses of WindowOwnershipChanges, one for each clause. -/
theorem test_hypotheses_WindowOwnershipChanges :
    (∃ (s : State) (src : Src) (w : Fin 8) (port : Nat) (p : HostPort), s.fldDenied src (Obj.cwClaim w) = false ∧ port ≤ 2 ∧ claimPort src port = some p ∧ (s.win w).state = .closed) ∧
    (∃ (s : State) (src : Src) (w : Fin 8) (port : Nat) (p : HostPort) (q : HostPort), s.fldDenied src (Obj.cwClaim w) = false ∧ port ≤ 2 ∧ claimPort src port = some p ∧ (s.win w).owner = some q ∧ (s.leaseExpired w = true ∨ s.linkUp q = false)) ∧
    (∃ (s : State) (src : Src) (w : Fin 8) (port : Nat) (p : HostPort), s.fldDenied src (Obj.cwClaim w) = false ∧ port ≤ 2 ∧ claimPort src port = some p) ∧
    (∃ (s : State) (src : Src) (w : Fin 8) (port : Nat) (p : HostPort), s.fldDenied src (Obj.cwClaim w) = false ∧ port ≤ 2 ∧ claimPort src port = some p ∧ (s.win w).owner = some p) ∧
    (∃ (s : State) (w : Fin 8), (s.win w).releasing = true ∧ (s.win w).queue = []) ∧
    (∃ (s : State) (w : Fin 8), (s.win w).owner ≠ none ∧ (s.win w).leaseOver = false ∧ s.leaseExpired w = true) :=
  ⟨⟨upA Window.reset, .mctp .ha 9, 0, 1, .ha, by decide +kernel⟩,
   ⟨{ upA (winOf []) with now := 300000000 }, .mctp .hb 9, 0, 2, .hb, .ha, by decide +kernel⟩,
   ⟨upA (winOf []), .fld 5, 0, 2, .hb, by decide +kernel⟩,
   ⟨upA (winOf []), .mctp .ha 9, 0, 1, .ha, by decide +kernel⟩,
   ⟨upA { winOf [] with releasing := true }, 0, by decide +kernel⟩,
   ⟨{ upA (winOf []) with now := 300000000 }, 0, by decide +kernel⟩⟩

/-- States that meet the hypotheses of WindowControlActions, one for each clause. -/
theorem test_hypotheses_WindowControlActions :
    (∃ (s : State) (src : Src) (w : Fin 8), s.isOwner src w = true ∧ s.fldDenied src (Obj.cwControl w) = false ∧ (s.win w).state = .halted) ∧
    (∃ (s : State) (src : Src) (w : Fin 8), s.isOwner src w = true ∧ s.fldDenied src (Obj.cwControl w) = false ∧ ((s.win w).state = .halted ∨ (s.win w).state = .handover) ∧ s.resetInStep w = false ∧ ((s.win w).queue.map QEntry.seq).Nodup) ∧
    (∃ (s : State) (src : Src) (w : Fin 8), s.isOwner src w = true ∧ s.fldDenied src (Obj.cwControl w) = false ∧ ((s.win w).state = .halted ∨ (s.win w).state = .handover) ∧ s.resetInStep w = true) ∧
    (∃ (s : State) (src : Src) (w : Fin 8), s.isOwner src w = true ∧ s.fldDenied src (Obj.cwControl w) = false) ∧
    (∃ (s : State) (src : Src) (w : Fin 8), s.isOwner src w = true ∧ s.fldDenied src (Obj.cwControl w) = false) ∧
    (∃ (s : State) (src : Src) (arg : Nat), arg = 1 ∧ s.cmd.stepNow.isSome = true ∧ s.fldDenied src Obj.stepAbort = false) :=
  ⟨⟨upA { winOf [] with state := .halted }, .mctp .ha 9, 0, by decide +kernel⟩,
   ⟨upA { winOf [entOf recA 0 true, entOf recA 1 false] with state := .halted }, .mctp .ha 9, 0, by decide +kernel⟩,
   ⟨upA { winOf [entOf recA 0 true, { entOf recA 1 false with follows := some 1 }] with state := .halted }, .mctp .ha 9, 0, by decide +kernel⟩,
   ⟨upA (winOf []), .mctp .ha 9, 0, by decide +kernel⟩,
   ⟨upA (winOf []), .mctp .ha 9, 0, by decide +kernel⟩,
   ⟨{ upA (winOf []) with cmd := { (upA (winOf [])).cmd with stepNow := some 1 } }, .mctp .ha 9, 1, by decide +kernel⟩⟩

/-- States that meet the hypotheses of RecordsDispatchAndRetire, one for each clause. -/
theorem test_hypotheses_RecordsDispatchAndRetire :
    (∃ (s : State) (w : Nat) (e : QEntry) (skip : Bool), s.mayDispatch = true ∧ s.nextRecord = some (w, e) ∧ s.headerCheck w e = 0 ∧ skip = !s.formMatch (formOf e.raw).1 (formOf e.raw).2 ∧ s.kindCheck w e skip = (0, 0)) ∧
    (∃ (s : State) (w : Nat) (e : QEntry), s.mayDispatch = true ∧ s.nextRecord = some (w, e) ∧ s.headerCheck w e ≠ 0) ∧
    (∃ (s : State) (w : Nat) (e : QEntry) (skip : Bool) (status : Nat) (reason : Nat), s.mayDispatch = true ∧ s.nextRecord = some (w, e) ∧ s.headerCheck w e = 0 ∧ skip = !s.formMatch (formOf e.raw).1 (formOf e.raw).2 ∧ s.kindCheck w e skip = (status, reason) ∧ status ≠ 0) ∧
    (∃ (s : State) (w : Fin 8) (q : Nat) (e : QEntry) (delivered : Bool), s.entry w q = some e ∧ e.disp = true ∧ e.unit = false ∧ Rec.kind e.raw = 9 ∧ (rpOf e.raw).loc ≠ 1) ∧
    (∃ (s : State) (w : Fin 8) (q : Nat) (e : QEntry) (delivered : Bool), s.entry w q = some e ∧ e.disp = true ∧ e.unit = false ∧ Rec.kind e.raw = 9 ∧ (rpOf e.raw).loc = 1 ∧ (s.access (recKey w q) 1 (rpOf e.raw).handle (pagesOf (rpOf e.raw).tableOff (rpOf e.raw).bytes)).2 ≠ .waiting) ∧
    (∃ (s : State) (w : Fin 8) (q : Nat) (e : QEntry), s.entry w q = some e ∧ e.disp = true ∧ e.unit = false ∧ Rec.kind e.raw = 11 ∧ s.coll.inbox = [] ∧ (s.writable (recKey w q) s.rebuildPages).2 = true) ∧
    (∃ (s : State) (w : Fin 8) (q : Nat) (e : QEntry), s.entry w q = some e ∧ e.disp = true ∧ e.unit = false ∧ Rec.kind e.raw = 11 ∧ (s.writable (recKey w q) s.rebuildPages).2 = true) ∧
    (∃ (s : State) (w : Fin 8) (q : Nat) (e : QEntry), s.entry w q = some e ∧ e.disp = true ∧ e.unit = false ∧ Rec.kind e.raw = 12 ∧ e.auditOk = true) ∧
    (∃ (s : State) (w : Fin 8) (q : Nat) (e : QEntry), s.entry w q = some e ∧ e.disp = true ∧ e.unit = false ∧ Rec.kind e.raw = 12 ∧ e.auditOk = false) ∧
    (∃ (s : State) (w : Fin 8) (q : Nat) (e : QEntry), s.entry w q = some e ∧ e.complete = true ∧ (s.win w).ring.length < ringMost ∧ (s.win w).waiting.any (fun v => v.below == ringMost) = false) ∧
    (∃ (s : State) (w : Nat) (e : QEntry), s.mayDispatch = true ∧ s.nextRecord = some (w, e) ∧ s.headerCheck w e = 0 ∧ s.formMatch (formOf e.raw).1 (formOf e.raw).2 = true ∧ s.kindCheck w e false = (0, 0) ∧ Rec.kind e.raw = 8 ∧ Rec.op e.raw = 2) ∧
    (∃ (s : State) (w : Nat) (e : QEntry), s.mayDispatch = true ∧ s.nextRecord = some (w, e) ∧ s.headerCheck w e = 0 ∧ s.formMatch (formOf e.raw).1 (formOf e.raw).2 = true ∧ s.kindCheck w e false = (0, 0) ∧ Rec.kind e.raw = 8 ∧ Rec.op e.raw = 3) ∧
    (∃ (s : State) (w : Nat) (e : QEntry), s.mayDispatch = true ∧ s.nextRecord = some (w, e) ∧ s.headerCheck w e = 0 ∧ s.formMatch (formOf e.raw).1 (formOf e.raw).2 = true ∧ s.kindCheck w e false = (0, 0) ∧ Rec.kind e.raw = 8 ∧ Rec.op e.raw = 0) ∧
    (∃ (s : State) (w : Nat) (e : QEntry), s.mayDispatch = true ∧ s.nextRecord = some (w, e) ∧ s.headerCheck w e = 0 ∧ s.formMatch (formOf e.raw).1 (formOf e.raw).2 = true ∧ s.kindCheck w e false = (0, 0) ∧ Rec.kind e.raw = 10 ∧ Rec.op e.raw = 0) :=
  ⟨⟨upA (winOf [entOf recA 0 false]), 0, entOf recA 0 false, false, by decide +kernel⟩,
   ⟨upA (winOf [entOf (kindRec 13 []) 0 false]), 0, entOf (kindRec 13 []) 0 false, by decide +kernel⟩,
   ⟨upA (winOf [entOf (kindRec 4 [(0, 60, 4, 6)]) 0 false]), 0, entOf (kindRec 4 [(0, 60, 4, 6)]) 0 false, false, 4, 0x61, by decide +kernel⟩,
   ⟨upRec recA, 0, 0, entOf recA 0 true, true, by decide +kernel⟩,
   ⟨upRec (kindRec 9 [(0, 62, 2, 1)]), 0, 0, entOf (kindRec 9 [(0, 62, 2, 1)]) 0 true, true, by decide +kernel⟩,
   ⟨upRec (kindRec 11 [(0, 0, 64, 1)]), 0, 0, entOf (kindRec 11 [(0, 0, 64, 1)]) 0 true, by decide +kernel⟩,
   ⟨upRec (kindRec 11 [(0, 0, 64, 1)]), 0, 0, entOf (kindRec 11 [(0, 0, 64, 1)]) 0 true, by decide +kernel⟩,
   ⟨upRec (kindRec 12 []), 0, 0, entOf (kindRec 12 []) 0 true, by decide +kernel⟩,
   ⟨upRec (kindRec 12 [(0, 32, 32, 7)]), 0, 0, entOf (kindRec 12 [(0, 32, 32, 7)]) 0 true, by decide +kernel⟩,
   ⟨upA (winOf [{ entOf recA 0 true with unit := true }]), 0, 0, { entOf recA 0 true with unit := true }, by decide +kernel⟩,
   ⟨id (upA (winOf [(entOf (kindRec 8 [(0, 60, 4, 2), (0, 46, 4, 3), (1, 48, 16, 32), (1, 32, 16, 16), (2, 48, 16, 32), (2, 32, 16, 16), (2, 26, 6, 4), (2, 20, 6, 4), (2, 16, 4, 1), (2, 6, 10, 1), (2, 3, 3, 1), (3, 0, 16, 0x3F80)]) 0 false)])), 0, (entOf (kindRec 8 [(0, 60, 4, 2), (0, 46, 4, 3), (1, 48, 16, 32), (1, 32, 16, 16), (2, 48, 16, 32), (2, 32, 16, 16), (2, 26, 6, 4), (2, 20, 6, 4), (2, 16, 4, 1), (2, 6, 10, 1), (2, 3, 3, 1), (3, 0, 16, 0x3F80)]) 0 false), by decide +kernel⟩,
   ⟨(fun s => withTier s fun x => { x with regions := [(9, regionA 6 .t1)] }) (upA (winOf [(entOf (kindRec 8 [(0, 60, 4, 3), (2, 32, 32, 9)]) 0 false)])), 0, (entOf (kindRec 8 [(0, 60, 4, 3), (2, 32, 32, 9)]) 0 false), by decide +kernel⟩,
   ⟨(fun s => withStore (withTier s fun x => { x with regions := [(4, regionA 6 .t1), (9, regionA 9 .t1)] }) fun x => { x with profiles := [(0, profA)], engineCfg := some (4, 0) }) (upA (winOf [(entOf (kindRec 8 [(2, 32, 32, 1), (2, 16, 16, 4), (3, 32, 32, 9)]) 0 false)])), 0, (entOf (kindRec 8 [(2, 32, 32, 1), (2, 16, 16, 4), (3, 32, 32, 9)]) 0 false), by decide +kernel⟩,
   ⟨id (upA (winOf [(entOf (kindRec 10 [(1, 32, 32, 1), (2, 0, 64, 1)]) 0 false)])), 0, (entOf (kindRec 10 [(1, 32, 32, 1), (2, 0, 64, 1)]) 0 false), by decide +kernel⟩⟩

/-- States that meet the hypotheses of SemaphoresCountAndWait, one for each clause. -/
theorem test_hypotheses_SemaphoresCountAndWait :
    (∃ (s : State) (w : Fin 8) (q : Nat) (u : Fin 192) (e : QEntry), s.entry w q = some e ∧ Rec.kind e.raw = 4 ∧ (syOf e.raw).op = 0 ∧ s.mayRun w e u = true ∧ s.arrayOn = true ∧ e.skip = false ∧ (s.share w q u).ran = false) ∧
    (∃ (s : State) (u : Fin 192) (g : Signal), s.tile.signals.find? (fun g => g.tile == u.val) = some g ∧ s.sem u g.sem + g.value ≤ 65535) ∧
    (∃ (s : State) (u : Fin 192) (g : Signal), s.tile.signals.find? (fun g => g.tile == u.val) = some g ∧ 65535 < s.sem u g.sem + g.value) ∧
    (∃ (s : State) (w : Fin 8) (q : Nat) (u : Fin 192) (e : QEntry), s.entry w q = some e ∧ Rec.kind e.raw = 4 ∧ (syOf e.raw).op = 1 ∧ s.mayRun w e u = true ∧ s.arrayOn = true ∧ e.skip = false ∧ (s.share w q u).ran = false ∧ s.sem u (syOf e.raw).sem < (syOf e.raw).value) ∧
    (∃ (s : State) (w : Fin 8) (q : Nat) (u : Fin 192) (e : QEntry), s.entry w q = some e ∧ Rec.kind e.raw = 4 ∧ (syOf e.raw).op = 1 ∧ s.mayRun w e u = true ∧ s.arrayOn = true ∧ e.skip = false ∧ (s.share w q u).ran = false ∧ (syOf e.raw).value ≤ s.sem u (syOf e.raw).sem) ∧
    (∃ (s : State) (w : Fin 8) (q : Nat) (u : Fin 192) (e : QEntry), s.entry w q = some e ∧ Rec.kind e.raw = 4 ∧ (syOf e.raw).op = 2 ∧ s.mayRun w e u = true ∧ s.arrayOn = true ∧ e.skip = false ∧ (s.share w q u).ran = false ∧ (((tileRange (syOf e.raw).tf (syOf e.raw).tl).all fun v => !(s.share w q v).ran && !e.tiles.contains v) = false ∨ ((tileRange (syOf e.raw).tf (syOf e.raw).tl).any fun v => s.waitedOn v (syOf e.raw).sem) = false)) ∧
    (∃ (s : State) (w : Fin 8) (q : Nat) (u : Fin 192) (e : QEntry), s.entry w q = some e ∧ Rec.kind e.raw = 4 ∧ (syOf e.raw).op = 2 ∧ s.mayRun w e u = true ∧ s.arrayOn = true ∧ e.skip = false ∧ (s.share w q u).ran = false ∧ ((tileRange (syOf e.raw).tf (syOf e.raw).tl).all fun v => !(s.share w q v).ran && !e.tiles.contains v) = true ∧ ((tileRange (syOf e.raw).tf (syOf e.raw).tl).any fun v => s.waitedOn v (syOf e.raw).sem) = true) ∧
    (∃ (s : State) (w : Fin 8) (q : Nat) (u : Fin 192) (e : QEntry) (f : Nat), s.entry w q = some e ∧ e.disp = true ∧ (s.share w q u).waitFrom = some f ∧ (s.share w q u).started = false ∧ (s.share w q u).waitTold = false ∧ (s.share w q u).waitLimit * ms < s.now - f ∧ (s.win w).ring.length < ringMost ∧ (s.win w).waiting.any (fun v => v.below == ringMost) = false) :=
  ⟨⟨upRec (kindRec 4 [(0, 60, 4, 0), (0, 26, 8, 3), (0, 20, 6, 2), (0, 4, 16, 5), (1, 48, 8, 1)]), 0, 0, 0, entOf (kindRec 4 [(0, 60, 4, 0), (0, 26, 8, 3), (0, 20, 6, 2), (0, 4, 16, 5), (1, 48, 8, 1)]) 0 true, by decide +kernel⟩,
   ⟨{ up [] with tile := { TileState.reset with signals := [{ tile := 7, sem := 3, value := 65535, win := 0, seq := 0, tag := 0 }] } }, 7, { tile := 7, sem := 3, value := 65535, win := 0, seq := 0, tag := 0 }, by decide +kernel⟩,
   ⟨{ up [] with tile := { TileState.reset with sems := [(256 * 7 + 3, 1)], signals := [{ tile := 7, sem := 3, value := 65535, win := 0, seq := 0, tag := 0 }] } }, 7, { tile := 7, sem := 3, value := 65535, win := 0, seq := 0, tag := 0 }, by decide +kernel⟩,
   ⟨upRec (kindRec 4 [(0, 60, 4, 1), (0, 26, 8, 3), (0, 20, 6, 2), (0, 4, 16, 5)]), 0, 0, 0, entOf (kindRec 4 [(0, 60, 4, 1), (0, 26, 8, 3), (0, 20, 6, 2), (0, 4, 16, 5)]) 0 true, by decide +kernel⟩,
   ⟨(let s := upRec (kindRec 4 [(0, 60, 4, 1), (0, 26, 8, 3), (0, 20, 6, 2), (0, 4, 16, 5)]); { s with tile := { s.tile with sems := [(3, 5)] } }), 0, 0, 0, entOf (kindRec 4 [(0, 60, 4, 1), (0, 26, 8, 3), (0, 20, 6, 2), (0, 4, 16, 5)]) 0 true, by decide +kernel⟩,
   ⟨upRec (kindRec 4 [(0, 60, 4, 2), (0, 26, 8, 3), (0, 20, 6, 2), (0, 4, 16, 5)]), 0, 0, 0, entOf (kindRec 4 [(0, 60, 4, 2), (0, 26, 8, 3), (0, 20, 6, 2), (0, 4, 16, 5)]) 0 true, by decide +kernel⟩,
   ⟨(let s := upA (winOf [entOf (kindRec 4 [(0, 60, 4, 1), (0, 26, 8, 3), (0, 20, 6, 2), (0, 4, 16, 5)]) 1 true, entOf (kindRec 4 [(0, 60, 4, 2), (0, 26, 8, 3), (0, 20, 6, 2), (0, 4, 16, 5)]) 0 true]); { s with tile := { s.tile with shares := [(shareKey 0 1 0, { Share.fresh with waitFrom := some 0 })] } }), 0, 0, 0, entOf (kindRec 4 [(0, 60, 4, 2), (0, 26, 8, 3), (0, 20, 6, 2), (0, 4, 16, 5)]) 0 true, by decide +kernel⟩,
   ⟨(let s := upRec (kindRec 4 [(0, 60, 4, 1), (0, 26, 8, 3), (0, 20, 6, 2), (0, 4, 16, 5)]); { s with tile := { s.tile with shares := [(0, { Share.fresh with waitFrom := some 0, waitLimit := 0 })] } }), 0, 0, 0, entOf (kindRec 4 [(0, 60, 4, 1), (0, 26, 8, 3), (0, 20, 6, 2), (0, 4, 16, 5)]) 0 true, 0, by decide +kernel⟩⟩

/-- States that meet the hypotheses of BarriersCountAndRelease, one for each clause. -/
theorem test_hypotheses_BarriersCountAndRelease :
    (∃ (s : State) (w : Fin 8) (q : Nat) (e : QEntry), s.entry w q = some e ∧ e.disp = true ∧ e.unit = false ∧ Rec.kind e.raw = 4 ∧ (syOf e.raw).op = 3 ∧ e.skip = false ∧ (s.chan (syOf e.raw).barCh).count = 0) ∧
    (∃ (s : State) (w : Fin 8) (q : Nat) (e : QEntry), s.entry w q = some e ∧ e.disp = true ∧ e.unit = false ∧ Rec.kind e.raw = 4 ∧ (syOf e.raw).op = 3 ∧ e.skip = false ∧ (s.chan (syOf e.raw).barCh).count ≠ 0) ∧
    (∃ (s : State) (w : Fin 8) (q : Nat) (u : Fin 192) (e : QEntry), s.entry w q = some e ∧ Rec.kind e.raw = 4 ∧ (syOf e.raw).op = 4 ∧ s.mayRun w e u = true ∧ s.arrayOn = true ∧ e.skip = false ∧ (s.share w q u).ran = false ∧ (s.chan (syOf e.raw).barCh).target = 0) ∧
    (∃ (s : State) (w : Fin 8) (q : Nat) (u : Fin 192) (e : QEntry), s.entry w q = some e ∧ Rec.kind e.raw = 4 ∧ (syOf e.raw).op = 4 ∧ s.mayRun w e u = true ∧ s.arrayOn = true ∧ e.skip = false ∧ (s.share w q u).ran = false ∧ (s.chan (syOf e.raw).barCh).target ≠ 0 ∧ (s.chan (syOf e.raw).barCh).count + 1 ≠ (s.chan (syOf e.raw).barCh).target) ∧
    (∃ (s : State) (w : Fin 8) (q : Nat) (u : Fin 192) (e : QEntry), s.entry w q = some e ∧ Rec.kind e.raw = 4 ∧ (syOf e.raw).op = 4 ∧ s.mayRun w e u = true ∧ s.arrayOn = true ∧ e.skip = false ∧ (s.share w q u).ran = false ∧ (s.chan (syOf e.raw).barCh).target ≠ 0 ∧ (s.chan (syOf e.raw).barCh).count + 1 = (s.chan (syOf e.raw).barCh).target) ∧
    (∃ (s : State) (u : Fin 192) (c : Fin 64), s.tile.relFlight.get 0 (64 * u + c) ≠ 0 ∧ s.tile.rels.get 0 (64 * u + c) < 65535) ∧
    (∃ (s : State) (u : Fin 192) (c : Fin 64), s.tile.relFlight.get 0 (64 * u + c) ≠ 0 ∧ 65535 ≤ s.tile.rels.get 0 (64 * u + c)) ∧
    (∃ (s : State) (w : Fin 8) (q : Nat) (u : Fin 192) (e : QEntry), s.entry w q = some e ∧ Rec.kind e.raw = 4 ∧ (syOf e.raw).op = 5 ∧ s.mayRun w e u = true ∧ s.arrayOn = true ∧ e.skip = false ∧ (s.share w q u).ran = false ∧ s.tile.rels.get 0 (64 * u + (syOf e.raw).barCh) = 0) ∧
    (∃ (s : State) (w : Fin 8) (q : Nat) (u : Fin 192) (e : QEntry), s.entry w q = some e ∧ Rec.kind e.raw = 4 ∧ (syOf e.raw).op = 5 ∧ s.mayRun w e u = true ∧ s.arrayOn = true ∧ e.skip = false ∧ (s.share w q u).ran = false ∧ s.tile.rels.get 0 (64 * u + (syOf e.raw).barCh) ≠ 0) :=
  ⟨⟨upRec (kindRec 4 [(0, 60, 4, 3), (0, 26, 8, 3), (0, 20, 6, 2), (0, 4, 16, 5)]), 0, 0, entOf (kindRec 4 [(0, 60, 4, 3), (0, 26, 8, 3), (0, 20, 6, 2), (0, 4, 16, 5)]) 0 true, by decide +kernel⟩,
   ⟨(let s := upRec (kindRec 4 [(0, 60, 4, 3), (0, 26, 8, 3), (0, 20, 6, 2), (0, 4, 16, 5)]); { s with tile := { s.tile with chans := [(2, { Channel.reset with target := 3, count := 1 })] } }), 0, 0, entOf (kindRec 4 [(0, 60, 4, 3), (0, 26, 8, 3), (0, 20, 6, 2), (0, 4, 16, 5)]) 0 true, by decide +kernel⟩,
   ⟨upRec (kindRec 4 [(0, 60, 4, 4), (0, 26, 8, 3), (0, 20, 6, 2), (0, 4, 16, 5)]), 0, 0, 0, entOf (kindRec 4 [(0, 60, 4, 4), (0, 26, 8, 3), (0, 20, 6, 2), (0, 4, 16, 5)]) 0 true, by decide +kernel⟩,
   ⟨(let s := upRec (kindRec 4 [(0, 60, 4, 4), (0, 26, 8, 3), (0, 20, 6, 2), (0, 4, 16, 5)]); { s with tile := { s.tile with chans := [(2, { Channel.reset with target := 3 })] } }), 0, 0, 0, entOf (kindRec 4 [(0, 60, 4, 4), (0, 26, 8, 3), (0, 20, 6, 2), (0, 4, 16, 5)]) 0 true, by decide +kernel⟩,
   ⟨(let s := upRec (kindRec 4 [(0, 60, 4, 4), (0, 26, 8, 3), (0, 20, 6, 2), (0, 4, 16, 5)]); { s with tile := { s.tile with chans := [(2, { Channel.reset with target := 1 })] } }), 0, 0, 0, entOf (kindRec 4 [(0, 60, 4, 4), (0, 26, 8, 3), (0, 20, 6, 2), (0, 4, 16, 5)]) 0 true, by decide +kernel⟩,
   ⟨{ up [] with tile := { TileState.reset with relFlight := [(130, 1)] } }, 2, 2, by decide +kernel⟩,
   ⟨{ up [] with tile := { TileState.reset with relFlight := [(130, 1)], rels := [(130, 65535)] } }, 2, 2, by decide +kernel⟩,
   ⟨upRec (kindRec 4 [(0, 60, 4, 5), (0, 26, 8, 3), (0, 20, 6, 2), (0, 4, 16, 5)]), 0, 0, 0, entOf (kindRec 4 [(0, 60, 4, 5), (0, 26, 8, 3), (0, 20, 6, 2), (0, 4, 16, 5)]) 0 true, by decide +kernel⟩,
   ⟨(let s := upRec (kindRec 4 [(0, 60, 4, 5), (0, 26, 8, 3), (0, 20, 6, 2), (0, 4, 16, 5)]); { s with tile := { s.tile with rels := [(2, 1)] } }), 0, 0, 0, entOf (kindRec 4 [(0, 60, 4, 5), (0, 26, 8, 3), (0, 20, 6, 2), (0, 4, 16, 5)]) 0 true, by decide +kernel⟩⟩

/-- States that meet the hypotheses of CastControlRecordsRun, one for each clause. -/
theorem test_hypotheses_CastControlRecordsRun :
    (∃ (s : State) (w : Fin 8) (q : Nat) (e : QEntry), s.entry w q = some e ∧ e.disp = true ∧ e.unit = false ∧ Rec.kind e.raw = 3 ∧ (ckOf e.raw).op = 0 ∧ e.skip = false) ∧
    (∃ (s : State) (w : Fin 8) (q : Nat) (e : QEntry), s.entry w q = some e ∧ e.disp = true ∧ e.unit = false ∧ Rec.kind e.raw = 3 ∧ (ckOf e.raw).op = 1 ∧ e.skip = false) ∧
    (∃ (s : State) (w : Fin 8) (q : Nat) (e : QEntry), s.entry w q = some e ∧ e.disp = true ∧ e.unit = false ∧ Rec.kind e.raw = 3 ∧ (ckOf e.raw).op = 2 ∧ e.skip = false ∧ (ckOf e.raw).len ≠ 0) ∧
    (∃ (s : State) (w : Fin 8) (q : Nat) (e : QEntry), s.entry w q = some e ∧ e.disp = true ∧ e.unit = false ∧ Rec.kind e.raw = 3 ∧ (ckOf e.raw).op = 2 ∧ e.skip = false ∧ (ckOf e.raw).len = 0) ∧
    (∃ (s : State) (w : Fin 8) (q : Nat) (e : QEntry), s.entry w q = some e ∧ e.disp = true ∧ e.unit = false ∧ Rec.kind e.raw = 3 ∧ (ckOf e.raw).op = 3 ∧ e.skip = false) ∧
    (∃ (s : State) (w : Fin 8) (q : Nat) (e : QEntry), s.entry w q = some e ∧ e.disp = true ∧ e.unit = false ∧ Rec.kind e.raw = 3 ∧ (ckOf e.raw).op = 4 ∧ e.skip = false) ∧
    (∃ (s : State) (w : Fin 8) (q : Nat) (e : QEntry), s.entry w q = some e ∧ e.disp = true ∧ e.unit = false ∧ Rec.kind e.raw = 3 ∧ (ckOf e.raw).op = 5 ∧ e.skip = false) ∧
    (∃ (s : State) (u : Fin 192) (p : Nat), s.page u p = .movingOut) ∧
    (∃ (s : State) (u : Fin 192) (p : Nat), s.page u p = .movingIn) ∧
    (∃ (s : State) (u : Fin 192) (p : Nat), (s.page u p = .dropOut ∨ s.page u p = .dropIn)) ∧
    (∃ (s : State) (w : Fin 8) (q : Nat) (e : QEntry), s.entry w q = some e ∧ e.disp = true ∧ e.unit = false ∧ Rec.kind e.raw = 3 ∧ (ckOf e.raw).op = 0 ∧ e.skip = true) ∧
    (∃ (s : State) (w : Fin 8) (q : Nat) (e : QEntry), s.entry w q = some e ∧ e.disp = true ∧ e.unit = false ∧ Rec.kind e.raw = 3 ∧ (ckOf e.raw).op = 1 ∧ e.skip = true) ∧
    (∃ (s : State) (w : Fin 8) (q : Nat) (e : QEntry), s.entry w q = some e ∧ e.disp = true ∧ e.unit = false ∧ Rec.kind e.raw = 3 ∧ (ckOf e.raw).op = 2 ∧ e.skip = true) ∧
    (∃ (s : State) (w : Fin 8) (q : Nat) (e : QEntry), s.entry w q = some e ∧ e.disp = true ∧ e.unit = false ∧ Rec.kind e.raw = 3 ∧ (ckOf e.raw).op = 3 ∧ e.skip = true) ∧
    (∃ (s : State) (w : Fin 8) (q : Nat) (e : QEntry), s.entry w q = some e ∧ e.disp = true ∧ e.unit = false ∧ Rec.kind e.raw = 3 ∧ (ckOf e.raw).op = 4 ∧ e.skip = true) ∧
    (∃ (s : State) (w : Fin 8) (q : Nat) (e : QEntry), s.entry w q = some e ∧ e.disp = true ∧ e.unit = false ∧ Rec.kind e.raw = 3 ∧ (ckOf e.raw).op = 5 ∧ e.skip = true) :=
  ⟨⟨upRec (kindRec 3 [(0, 60, 4, 0), (0, 50, 8, 1), (0, 26, 8, 1), (1, 40, 24, 4)]), 0, 0, entOf (kindRec 3 [(0, 60, 4, 0), (0, 50, 8, 1), (0, 26, 8, 1), (1, 40, 24, 4)]) 0 true, by decide +kernel⟩,
   ⟨(let s := upRec (kindRec 3 [(0, 60, 4, 1), (0, 50, 8, 1), (0, 26, 8, 1), (1, 40, 24, 4)]); { s with tile := { s.tile with dir := [(0, [{ base := 0, len := 512, layer := 1, mb := 0, form := 0, step := 0, use := .opened, win := 0, seq := 0, tag := 0 }]), (1, [{ base := 0, len := 512, layer := 1, mb := 0, form := 0, step := 0, use := .opened, win := 0, seq := 0, tag := 0 }])] } }), 0, 0, entOf (kindRec 3 [(0, 60, 4, 1), (0, 50, 8, 1), (0, 26, 8, 1), (1, 40, 24, 4)]) 0 true, by decide +kernel⟩,
   ⟨(let s := upRec (kindRec 3 [(0, 60, 4, 2), (0, 50, 8, 1), (0, 26, 8, 1), (1, 40, 24, 4)]); { s with tile := { s.tile with dir := [(0, [{ base := 0, len := 512, layer := 1, mb := 0, form := 0, step := 0, use := .opened, win := 0, seq := 0, tag := 0 }]), (1, [{ base := 0, len := 512, layer := 1, mb := 0, form := 0, step := 0, use := .opened, win := 0, seq := 0, tag := 0 }])] } }), 0, 0, entOf (kindRec 3 [(0, 60, 4, 2), (0, 50, 8, 1), (0, 26, 8, 1), (1, 40, 24, 4)]) 0 true, by decide +kernel⟩,
   ⟨(let s := upRec (kindRec 3 [(0, 60, 4, 2), (0, 50, 8, 1), (0, 26, 8, 1), (1, 40, 24, 0)]); { s with tile := { s.tile with dir := [(0, [{ base := 0, len := 512, layer := 1, mb := 0, form := 0, step := 0, use := .opened, win := 0, seq := 0, tag := 0 }]), (1, [{ base := 0, len := 512, layer := 1, mb := 0, form := 0, step := 0, use := .opened, win := 0, seq := 0, tag := 0 }])] } }), 0, 0, entOf (kindRec 3 [(0, 60, 4, 2), (0, 50, 8, 1), (0, 26, 8, 1), (1, 40, 24, 0)]) 0 true, by decide +kernel⟩,
   ⟨upRec (kindRec 3 [(0, 60, 4, 3), (0, 50, 8, 1), (0, 26, 8, 1), (1, 40, 24, 4), (1, 62, 2, 1)]), 0, 0, entOf (kindRec 3 [(0, 60, 4, 3), (0, 50, 8, 1), (0, 26, 8, 1), (1, 40, 24, 4), (1, 62, 2, 1)]) 0 true, by decide +kernel⟩,
   ⟨upRec (kindRec 3 [(0, 60, 4, 4), (0, 50, 8, 1), (0, 26, 8, 1), (1, 40, 24, 4)]), 0, 0, entOf (kindRec 3 [(0, 60, 4, 4), (0, 50, 8, 1), (0, 26, 8, 1), (1, 40, 24, 4)]) 0 true, by decide +kernel⟩,
   ⟨upRec (kindRec 3 [(0, 60, 4, 5), (0, 50, 8, 1), (0, 26, 8, 1), (1, 40, 24, 4)]), 0, 0, entOf (kindRec 3 [(0, 60, 4, 5), (0, 50, 8, 1), (0, 26, 8, 1), (1, 40, 24, 4)]) 0 true, by decide +kernel⟩,
   ⟨{ up [] with tile := { TileState.reset with pages := [(5, .movingOut)] } }, 0, 5, by decide +kernel⟩,
   ⟨{ up [] with tile := { TileState.reset with pages := [(5, .movingIn)] } }, 0, 5, by decide +kernel⟩,
   ⟨{ up [] with tile := { TileState.reset with pages := [(5, .dropIn)] } }, 0, 5, by decide +kernel⟩,
   ⟨upA (winOf [{ entOf (kindRec 3 [(0, 60, 4, 0), (0, 50, 8, 1), (0, 26, 8, 1), (1, 40, 24, 4)]) 0 true with skip := true }]), 0, 0, { entOf (kindRec 3 [(0, 60, 4, 0), (0, 50, 8, 1), (0, 26, 8, 1), (1, 40, 24, 4)]) 0 true with skip := true }, by decide +kernel⟩,
   ⟨upA (winOf [{ entOf (kindRec 3 [(0, 60, 4, 1), (0, 50, 8, 1), (0, 26, 8, 1), (1, 40, 24, 4)]) 0 true with skip := true }]), 0, 0, { entOf (kindRec 3 [(0, 60, 4, 1), (0, 50, 8, 1), (0, 26, 8, 1), (1, 40, 24, 4)]) 0 true with skip := true }, by decide +kernel⟩,
   ⟨upA (winOf [{ entOf (kindRec 3 [(0, 60, 4, 2), (0, 50, 8, 1), (0, 26, 8, 1), (1, 40, 24, 4)]) 0 true with skip := true }]), 0, 0, { entOf (kindRec 3 [(0, 60, 4, 2), (0, 50, 8, 1), (0, 26, 8, 1), (1, 40, 24, 4)]) 0 true with skip := true }, by decide +kernel⟩,
   ⟨upA (winOf [{ entOf (kindRec 3 [(0, 60, 4, 3), (0, 50, 8, 1), (0, 26, 8, 1), (1, 40, 24, 4)]) 0 true with skip := true }]), 0, 0, { entOf (kindRec 3 [(0, 60, 4, 3), (0, 50, 8, 1), (0, 26, 8, 1), (1, 40, 24, 4)]) 0 true with skip := true }, by decide +kernel⟩,
   ⟨upA (winOf [{ entOf (kindRec 3 [(0, 60, 4, 4), (0, 50, 8, 1), (0, 26, 8, 1), (1, 40, 24, 4)]) 0 true with skip := true }]), 0, 0, { entOf (kindRec 3 [(0, 60, 4, 4), (0, 50, 8, 1), (0, 26, 8, 1), (1, 40, 24, 4)]) 0 true with skip := true }, by decide +kernel⟩,
   ⟨upA (winOf [{ entOf (kindRec 3 [(0, 60, 4, 5), (0, 50, 8, 1), (0, 26, 8, 1), (1, 40, 24, 4)]) 0 true with skip := true }]), 0, 0, { entOf (kindRec 3 [(0, 60, 4, 5), (0, 50, 8, 1), (0, 26, 8, 1), (1, 40, 24, 4)]) 0 true with skip := true }, by decide +kernel⟩⟩

/-- States that meet the hypotheses of ProductsAccumulateAndDrain, one for each clause. -/
theorem test_hypotheses_ProductsAccumulateAndDrain :
    (∃ (s : State) (w : Fin 8) (q : Nat) (u : Fin 192) (e : QEntry) (o : Nat) (b : Nat), s.entry w q = some e ∧ Rec.kind e.raw = 1 ∧ s.arrayOn = true ∧ s.mayRun w e u = true ∧ e.skip = false ∧ (s.startShare w e u Obj.mxStallOperand).2 = true ∧ (s.startShare w e u Obj.mxStallOperand).1.nextOut (mxOf e.raw) w q u = some o ∧ s.fillingBank u (recKey w q) = none ∧ s.freeBank u = some b ∧ (mxOf e.raw).a.loc = 0 ∧ (mxOf e.raw).b.loc = 0) ∧
    (∃ (s : State) (w : Fin 8) (q : Nat) (u : Fin 192) (e : QEntry) (o : Nat) (b : Nat), s.entry w q = some e ∧ Rec.kind e.raw = 1 ∧ s.arrayOn = true ∧ s.mayRun w e u = true ∧ e.skip = false ∧ (s.startShare w e u Obj.mxStallOperand).2 = true ∧ (s.startShare w e u Obj.mxStallOperand).1.nextOut (mxOf e.raw) w q u = some o ∧ ((s.startShare w e u Obj.mxStallOperand).1.takeBank w e (mxOf e.raw) u o).2 = some b) ∧
    (∃ (s : State) (w : Fin 8) (q : Nat) (u : Fin 192) (e : QEntry) (o : Nat), s.entry w q = some e ∧ Rec.kind e.raw = 1 ∧ s.arrayOn = true ∧ s.mayRun w e u = true ∧ e.skip = false ∧ (s.startShare w e u Obj.mxStallOperand).2 = true ∧ s.fillingBank u (recKey w q) = none ∧ s.freeBank u = none) ∧
    (∃ (s : State) (w : Fin 8) (q : Nat) (u : Fin 192) (e : QEntry), s.entry w q = some e ∧ Rec.kind e.raw = 1 ∧ s.arrayOn = true ∧ s.mayRun w e u = true ∧ e.skip = false ∧ (s.startShare w e u Obj.mxStallOperand).2 = false) ∧
    (∃ (s : State) (w : Fin 8) (q : Nat) (u : Fin 192) (e : QEntry) (o : Nat) (i : Nat) (j : Nat), s.entry w q = some e ∧ Rec.kind e.raw = 1 ∧ e.disp = true ∧ s.arrayOn = true ∧ e.skip = false ∧ 1 < (mxOf e.raw).s ∧ (mxOf e.raw).member u = 0 ∧ ((mxOf e.raw).outs ((mxOf e.raw).group u))[(s.share w q u).done]? = some o ∧ s.bankOf u (recKey w q) o = some i ∧ (s.bank u i).folded + 1 < (mxOf e.raw).s ∧ s.bankOf (u.val + (s.bank u i).folded + 1) (recKey w q) o = some j) ∧
    (∃ (s : State) (w : Fin 8) (q : Nat) (u : Fin 192) (e : QEntry) (o : Nat) (i : Nat), s.entry w q = some e ∧ Rec.kind e.raw = 1 ∧ e.disp = true ∧ s.arrayOn = true ∧ e.skip = false ∧ (mxOf e.raw).member u = 0 ∧ ((mxOf e.raw).outs ((mxOf e.raw).group u))[(s.share w q u).done]? = some o ∧ s.bankOf u (recKey w q) o = some i ∧ (mxOf e.raw).s ≤ (s.bank u i).folded + 1 ∧ (mxOf e.raw).dest = 3) ∧
    (∃ (s : State) (w : Fin 8) (q : Nat) (u : Fin 192) (e : QEntry) (o : Nat) (i : Nat), s.entry w q = some e ∧ Rec.kind e.raw = 1 ∧ e.disp = true ∧ s.arrayOn = true ∧ e.skip = false ∧ (mxOf e.raw).member u = 0 ∧ ((mxOf e.raw).outs ((mxOf e.raw).group u))[(s.share w q u).done]? = some o ∧ s.bankOf u (recKey w q) o = some i ∧ (mxOf e.raw).s ≤ (s.bank u i).folded + 1 ∧ (mxOf e.raw).dest = 2) ∧
    (∃ (s : State) (w : Fin 8) (q : Nat) (u : Fin 192) (e : QEntry) (o : Nat) (i : Nat), s.entry w q = some e ∧ Rec.kind e.raw = 1 ∧ e.disp = true ∧ s.arrayOn = true ∧ e.skip = false ∧ (mxOf e.raw).member u = 0 ∧ ((mxOf e.raw).outs ((mxOf e.raw).group u))[(s.share w q u).done]? = some o ∧ s.bankOf u (recKey w q) o = some i ∧ (mxOf e.raw).s ≤ (s.bank u i).folded + 1 ∧ (mxOf e.raw).dest = 0 ∧ (s.drainPages w e u o).2 = true) ∧
    (∃ (s : State) (w : Fin 8) (q : Nat) (u : Fin 192) (e : QEntry) (o : Nat) (i : Nat), s.entry w q = some e ∧ Rec.kind e.raw = 1 ∧ e.disp = true ∧ s.arrayOn = true ∧ e.skip = false ∧ (mxOf e.raw).member u = 0 ∧ ((mxOf e.raw).outs ((mxOf e.raw).group u))[(s.share w q u).done]? = some o ∧ s.bankOf u (recKey w q) o = some i ∧ (mxOf e.raw).s ≤ (s.bank u i).folded + 1 ∧ (mxOf e.raw).dest = 1 ∧ s.armOf w q = none ∧ (s.drainPages w e u o).2 = true) ∧
    (∃ (s : State) (w : Fin 8) (q : Nat) (u : Fin 192) (e : QEntry) (o : Nat) (i : Nat), s.entry w q = some e ∧ Rec.kind e.raw = 1 ∧ e.disp = true ∧ s.arrayOn = true ∧ e.skip = false ∧ (mxOf e.raw).member u = 0 ∧ ((mxOf e.raw).outs ((mxOf e.raw).group u))[(s.share w q u).done]? = some o ∧ s.bankOf u (recKey w q) o = some i ∧ (mxOf e.raw).s ≤ (s.bank u i).folded + 1 ∧ ((mxOf e.raw).dest = 0 ∨ (mxOf e.raw).dest = 1) ∧ (s.drainPages w e u o).2 = false) ∧
    (∃ (s : State) (w : Fin 8) (q : Nat) (u : Fin 192) (e : QEntry), s.entry w q = some e ∧ s.mayRun w e u = true ∧ e.skip = false ∧ s.tileDone w e u = true) ∧
    (∃ (s : State) (w : Fin 8) (q : Nat) (u : Fin 192) (e : QEntry), s.entry w q = some e ∧ s.mayRun w e u = true ∧ e.skip = true ∧ ((s.startShare w e u (if Rec.kind e.raw = 1 then Obj.mxStallOperand else Obj.vxWaitCycles)).1).tileDone w e u = true) ∧
    (∃ (s : State) (w : Fin 8) (q : Nat) (u : Fin 192) (e : QEntry), s.entry w q = some e ∧ s.mayRun w e u = true ∧ e.skip = false ∧ s.tileDone w e u = false) :=
  ⟨⟨upRec (prodRec 0 0), 0, 0, 0, entOf (prodRec 0 0) 0 true, 0, 0, by decide +kernel⟩,
   ⟨upRec (prodRec 0 0), 0, 0, 0, entOf (prodRec 0 0) 0 true, 0, 0, by decide +kernel⟩,
   ⟨withTile (upRec (prodRec 0 0)) fun x => { x with banks := [(0, { bankA with use := .held }), (1, { bankA with use := .held })] }, 0, 0, 0, entOf (prodRec 0 0) 0 true, 0, by decide +kernel⟩,
   ⟨upRec (prodRec 0 0 ||| mkRec [(64 + 64 + 6, 1, 1)]), 0, 0, 0, entOf (prodRec 0 0 ||| mkRec [(64 + 64 + 6, 1, 1)]) 0 true, by decide +kernel⟩,
   ⟨withTile (upRec (prodRec 0 1)) fun x => { x with banks := [(0, bankA), (2, bankA)], shares := [(0, shareA), (1, shareA)] }, 0, 0, 0, entOf (prodRec 0 1) 0 true, 0, 0, 0, by decide +kernel⟩,
   ⟨withTile (upRec (prodRec 3 0)) fun x => { x with banks := [(0, bankA)], shares := [(0, shareA)] }, 0, 0, 0, entOf (prodRec 3 0) 0 true, 0, 0, by decide +kernel⟩,
   ⟨withTile (upRec (prodRec 2 0)) fun x => { x with banks := [(0, bankA)], shares := [(0, shareA)] }, 0, 0, 0, entOf (prodRec 2 0) 0 true, 0, 0, by decide +kernel⟩,
   ⟨withTile (upRec (prodRec 0 0)) fun x => { x with banks := [(0, bankA)], shares := [(0, shareA)] }, 0, 0, 0, entOf (prodRec 0 0) 0 true, 0, 0, by decide +kernel⟩,
   ⟨withTile (upRec (prodRec 1 0)) fun x => { x with banks := [(0, bankA)], shares := [(0, shareA)] }, 0, 0, 0, entOf (prodRec 1 0) 0 true, 0, 0, by decide +kernel⟩,
   ⟨withTile (upRec (prodRec 1 0)) fun x => { x with banks := [(0, bankA)], shares := [(0, shareA)], pages := [(0, .movingOut)] }, 0, 0, 0, entOf (prodRec 1 0) 0 true, 0, 0, by decide +kernel⟩,
   ⟨withTile (upRec (prodRec 1 0)) fun x => { x with shares := [(0, { shareA with done := 1 })] }, 0, 0, 0, entOf (prodRec 1 0) 0 true, by decide +kernel⟩,
   ⟨upA (winOf [{ entOf (prodRec 1 0) 0 true with skip := true }]), 0, 0, 0, { entOf (prodRec 1 0) 0 true with skip := true }, by decide +kernel⟩,
   ⟨upRec (prodRec 1 0), 0, 0, 0, entOf (prodRec 1 0) 0 true, by decide +kernel⟩⟩

/-- States that meet the hypotheses of VectorRecordsRun, one for each clause. -/
theorem test_hypotheses_VectorRecordsRun :
    (∃ (s : State) (w : Fin 8) (q : Nat) (u : Fin 192) (e : QEntry), s.entry w q = some e ∧ Rec.kind e.raw = 2 ∧ (vxOf e.raw).kind = 0 ∧ s.arrayOn = true ∧ ((s.seen e.step).startVector w e u).2 = true) ∧
    (∃ (s : State) (w : Fin 8) (q : Nat) (u : Fin 192) (e : QEntry), s.entry w q = some e ∧ Rec.kind e.raw = 2 ∧ (vxOf e.raw).kind = 0 ∧ s.arrayOn = true ∧ ((s.seen e.step).startVector w e u).2 = false ∧ (s.share w q u).ran = false) ∧
    (∃ (s : State) (w : Fin 8) (q : Nat) (u : Fin 192) (e : QEntry), s.entry w q = some e ∧ Rec.kind e.raw = 2 ∧ (vxOf e.raw).kind = 2 ∧ s.arrayOn = true ∧ ((s.seen e.step).startVector w e u).2 = true) ∧
    (∃ (s : State) (w : Fin 8) (q : Nat) (u : Fin 192) (e : QEntry), s.entry w q = some e ∧ Rec.kind e.raw = 2 ∧ (vxOf e.raw).kind = 2 ∧ s.arrayOn = true ∧ ((s.seen e.step).startVector w e u).2 = false ∧ (s.share w q u).ran = false) ∧
    (∃ (s : State) (w : Fin 8) (q : Nat) (u : Fin 192) (e : QEntry), s.entry w q = some e ∧ Rec.kind e.raw = 2 ∧ (vxOf e.raw).kind = 1 ∧ s.arrayOn = true ∧ ((s.seen e.step).startVector w e u).2 = true ∧ (s.share w q u).combined = none ∧ (s.share w q u).partials = none ∧ (vxOf e.raw).redTiles = false) ∧
    (∃ (s : State) (w : Fin 8) (q : Nat) (u : Fin 192) (e : QEntry), s.entry w q = some e ∧ Rec.kind e.raw = 2 ∧ (vxOf e.raw).kind = 1 ∧ s.arrayOn = true ∧ (s.share w q u).combined = none ∧ ((s.seen e.step).startVector w e u).2 = false ∧ (s.share w q u).ran = false) ∧
    (∃ (s : State) (w : Fin 8) (q : Nat) (u : Fin 192) (e : QEntry), s.entry w q = some e ∧ Rec.kind e.raw = 2 ∧ (vxOf e.raw).kind = 1 ∧ s.arrayOn = true ∧ ((s.seen e.step).startVector w e u).2 = true ∧ (s.share w q u).combined = none ∧ (s.share w q u).partials = none ∧ (vxOf e.raw).redTiles = true) ∧
    (∃ (s : State) (w : Fin 8) (q : Nat) (u : Fin 192) (e : QEntry) (l : List Nat), s.entry w q = some e ∧ Rec.kind e.raw = 2 ∧ (vxOf e.raw).kind = 1 ∧ s.arrayOn = true ∧ (s.share w q u).combined = some l ∧ (s.share w q u).ran = false ∧ ((s.seen e.step).pagesFor w q u [] (rangePages (s.castBase u) (castWrites e.raw u))).2 = true) ∧
    (∃ (s : State) (w : Fin 8) (q : Nat) (e : QEntry) (p : List Nat) (r : List (List Nat)), s.entry w q = some e ∧ Rec.kind e.raw = 2 ∧ (vxOf e.raw).kind = 1 ∧ s.arrayOn = true ∧ (vxOf e.raw).redTiles = true ∧ e.disp = true ∧ (s.share w q (vxOf e.raw).tf).combined = none ∧ ((List.range ((vxOf e.raw).tl - (vxOf e.raw).tf + 1)).map fun i => (s.share w q ((vxOf e.raw).tf + i)).partials) = (p :: r).map some) ∧
    (∃ (s : State) (w : Fin 8) (q : Nat) (u : Fin 192) (e : QEntry), s.entry w q = some e ∧ Rec.kind e.raw = 2 ∧ (vxOf e.raw).kind = 3 ∧ s.arrayOn = true ∧ ((s.seen e.step).startVector w e u).2 = true ∧ (((s.seen e.step).startVector w e u).1.gatherReady w q (vxOf e.raw) u).2 = true) ∧
    (∃ (s : State) (w : Fin 8) (q : Nat) (u : Fin 192) (e : QEntry), s.entry w q = some e ∧ Rec.kind e.raw = 2 ∧ (vxOf e.raw).kind = 3 ∧ s.arrayOn = true ∧ ((s.seen e.step).startVector w e u).2 = false ∧ (s.share w q u).ran = false) ∧
    (∃ (s : State) (w : Fin 8) (q : Nat) (u : Fin 192) (e : QEntry), s.entry w q = some e ∧ Rec.kind e.raw = 2 ∧ (vxOf e.raw).kind = 3 ∧ s.arrayOn = true ∧ ((s.seen e.step).startVector w e u).2 = true ∧ (((s.seen e.step).startVector w e u).1.gatherReady w q (vxOf e.raw) u).2 = false) ∧
    (∃ (s : State) (w : Fin 8) (q : Nat) (u : Fin 192) (e : QEntry), s.entry w q = some e ∧ Rec.kind e.raw = 2 ∧ (vxOf e.raw).kind = 4 ∧ s.arrayOn = true ∧ ((s.seen e.step).startVector w e u).2 = true) ∧
    (∃ (s : State) (w : Fin 8) (q : Nat) (u : Fin 192) (e : QEntry), s.entry w q = some e ∧ Rec.kind e.raw = 2 ∧ (vxOf e.raw).kind = 4 ∧ s.arrayOn = true ∧ ((s.seen e.step).startVector w e u).2 = false ∧ (s.share w q u).ran = false) :=
  ⟨⟨upRec (vecRec 0 []), 0, 0, 0, entOf (vecRec 0 []) 0 true, by decide +kernel⟩,
   ⟨upA (winOf [entOf (vecRec 0 []) 0 false]), 0, 0, 0, entOf (vecRec 0 []) 0 false, by decide +kernel⟩,
   ⟨upRec (vecRec 2 []), 0, 0, 0, entOf (vecRec 2 []) 0 true, by decide +kernel⟩,
   ⟨upA (winOf [entOf (vecRec 2 []) 0 false]), 0, 0, 0, entOf (vecRec 2 []) 0 false, by decide +kernel⟩,
   ⟨upRec (vecRec 1 [(0, 11, 2, 1)]), 0, 0, 0, entOf (vecRec 1 [(0, 11, 2, 1)]) 0 true, by decide +kernel⟩,
   ⟨upA (winOf [entOf (vecRec 1 [(0, 11, 2, 1)]) 0 false]), 0, 0, 0, entOf (vecRec 1 [(0, 11, 2, 1)]) 0 false, by decide +kernel⟩,
   ⟨upRec (vecRec 1 [(0, 11, 2, 1), (0, 10, 1, 1)]), 0, 0, 0, entOf (vecRec 1 [(0, 11, 2, 1), (0, 10, 1, 1)]) 0 true, by decide +kernel⟩,
   ⟨withTile (upRec (vecRec 1 [(0, 11, 2, 1), (0, 10, 1, 1)])) fun x => { x with shares := [(0, { Share.fresh with combined := some [1] })] }, 0, 0, 0, entOf (vecRec 1 [(0, 11, 2, 1), (0, 10, 1, 1)]) 0 true, [1], by decide +kernel⟩,
   ⟨withTile (upRec (vecRec 1 [(0, 11, 2, 1), (0, 10, 1, 1)])) fun x => { x with shares := [(0, { Share.fresh with partials := some [1] })] }, 0, 0, entOf (vecRec 1 [(0, 11, 2, 1), (0, 10, 1, 1)]) 0 true, [1], [], by decide +kernel⟩,
   ⟨upRec (vecRec 3 []), 0, 0, 0, entOf (vecRec 3 []) 0 true, by decide +kernel⟩,
   ⟨upA (winOf [entOf (vecRec 3 []) 0 false]), 0, 0, 0, entOf (vecRec 3 []) 0 false, by decide +kernel⟩,
   ⟨withTier (upRec (vecRec 3 [(3, 59, 3, 1), (2, 42, 16, 9)])) fun x => { x with regions := [(9, { regionA 6 .t1 with fresh := { pageA .t1 with move := some (moveA .t2) } })] }, 0, 0, 0, entOf (vecRec 3 [(3, 59, 3, 1), (2, 42, 16, 9)]) 0 true, by decide +kernel⟩,
   ⟨upRec (vecRec 4 [(3, 59, 3, 0)]), 0, 0, 0, entOf (vecRec 4 [(3, 59, 3, 0)]) 0 true, by decide +kernel⟩,
   ⟨upA (winOf [entOf (vecRec 4 [(3, 59, 3, 0)]) 0 false]), 0, 0, 0, entOf (vecRec 4 [(3, 59, 3, 0)]) 0 false, by decide +kernel⟩⟩

/-- States that meet the hypotheses of TierRecordsRun, one for each clause. -/
theorem test_hypotheses_TierRecordsRun :
    (∃ (s : State) (w : Fin 8) (q : Nat) (e : QEntry), s.entry w q = some e ∧ e.disp = true ∧ e.unit = false ∧ e.skip = false ∧ Rec.kind e.raw = 5 ∧ Rec.op e.raw = 0 ∧ (classPinned (tmOf e.raw).cls (tmOf e.raw).tier = true → s.pinned + (tmOf e.raw).low ≤ s.rd Obj.pinLimitPages) ∧ (tmOf e.raw).low ≤ s.freeIn (tmOf e.raw).tier) ∧
    (∃ (s : State) (w : Fin 8) (q : Nat) (e : QEntry), s.entry w q = some e ∧ e.disp = true ∧ e.unit = false ∧ e.skip = false ∧ Rec.kind e.raw = 5 ∧ Rec.op e.raw = 0 ∧ classPinned (tmOf e.raw).cls (tmOf e.raw).tier = true ∧ s.rd Obj.pinLimitPages < s.pinned + (tmOf e.raw).low) ∧
    (∃ (s : State) (w : Fin 8) (q : Nat) (e : QEntry), s.entry w q = some e ∧ e.disp = true ∧ e.unit = false ∧ e.skip = false ∧ Rec.kind e.raw = 5 ∧ Rec.op e.raw = 0 ∧ (classPinned (tmOf e.raw).cls (tmOf e.raw).tier = true → s.pinned + (tmOf e.raw).low ≤ s.rd Obj.pinLimitPages) ∧ s.freeIn (tmOf e.raw).tier < (tmOf e.raw).low ∧ ((tmOf e.raw).tier = 2 ∨ (s.evictFor (tmOf e.raw).tier (tmOf e.raw).low).2 = false)) ∧
    (∃ (s : State) (w : Fin 8) (q : Nat) (e : QEntry), s.entry w q = some e ∧ e.disp = true ∧ e.unit = false ∧ e.skip = false ∧ Rec.kind e.raw = 5 ∧ Rec.op e.raw = 0 ∧ (classPinned (tmOf e.raw).cls (tmOf e.raw).tier = true → s.pinned + (tmOf e.raw).low ≤ s.rd Obj.pinLimitPages) ∧ s.freeIn (tmOf e.raw).tier < (tmOf e.raw).low ∧ (tmOf e.raw).tier ≠ 2 ∧ (s.evictFor (tmOf e.raw).tier (tmOf e.raw).low).2 = true) ∧
    (∃ (s : State) (w : Fin 8) (q : Nat) (e : QEntry) (r : Region), s.entry w q = some e ∧ e.disp = true ∧ e.unit = false ∧ e.skip = false ∧ Rec.kind e.raw = 5 ∧ Rec.op e.raw = 1 ∧ s.region (tmOf e.raw).handle = some r ∧ s.regionUsers (tmOf e.raw).handle = [] ∧ r.count (fun p => p.move.isSome) = 0 ∧ s.movesOf (tmOf e.raw).handle = false) ∧
    (∃ (s : State) (w : Fin 8) (q : Nat) (e : QEntry) (r : Region), s.entry w q = some e ∧ e.disp = true ∧ e.unit = false ∧ e.skip = false ∧ Rec.kind e.raw = 5 ∧ Rec.op e.raw = 1 ∧ s.region (tmOf e.raw).handle = some r ∧ (s.regionUsers (tmOf e.raw).handle ≠ [] ∨ r.count (fun p => p.move.isSome) ≠ 0 ∨ s.movesOf (tmOf e.raw).handle = true)) ∧
    (∃ (s : State) (w : Fin 8) (q : Nat) (e : QEntry), s.entry w q = some e ∧ e.disp = true ∧ e.unit = false ∧ e.skip = false ∧ Rec.kind e.raw = 5 ∧ Rec.op e.raw = 1 ∧ s.region (tmOf e.raw).handle = none) ∧
    (∃ (s : State) (w : Fin 8) (q : Nat) (e : QEntry) (r : Region) (i : Nat) (d : Home), s.entry w q = some e ∧ e.disp = true ∧ e.unit = false ∧ e.skip = false ∧ Rec.kind e.raw = 5 ∧ Rec.op e.raw = 2 ∧ s.region (tmOf e.raw).handle = some r ∧ r.nextMove (tmOf e.raw).tier (tmOf e.raw).low (tmOf e.raw).pageCount ((s.tier.moveLeft.find (recKey w q)).getD { next := 0, status := 0 }).next = some i ∧ (r.page ((tmOf e.raw).low + i)).move = none ∧ s.placeIn (tmOf e.raw).tier = some d) ∧
    (∃ (s : State) (w : Fin 8) (q : Nat) (e : QEntry) (r : Region), s.entry w q = some e ∧ e.disp = true ∧ e.unit = false ∧ e.skip = false ∧ Rec.kind e.raw = 5 ∧ Rec.op e.raw = 2 ∧ s.region (tmOf e.raw).handle = some r ∧ r.nextMove (tmOf e.raw).tier (tmOf e.raw).low (tmOf e.raw).pageCount ((s.tier.moveLeft.find (recKey w q)).getD { next := 0, status := 0 }).next = none) ∧
    (∃ (s : State) (w : Fin 8) (q : Nat) (e : QEntry), s.entry w q = some e ∧ e.disp = true ∧ e.unit = false ∧ e.skip = false ∧ Rec.kind e.raw = 5 ∧ Rec.op e.raw = 2 ∧ s.region (tmOf e.raw).handle = none) ∧
    (∃ (s : State) (w : Fin 8) (q : Nat) (e : QEntry) (r : Region) (i : Nat), s.entry w q = some e ∧ e.disp = true ∧ e.unit = false ∧ e.skip = false ∧ Rec.kind e.raw = 5 ∧ Rec.op e.raw = 2 ∧ s.region (tmOf e.raw).handle = some r ∧ r.nextMove (tmOf e.raw).tier (tmOf e.raw).low (tmOf e.raw).pageCount ((s.tier.moveLeft.find (recKey w q)).getD { next := 0, status := 0 }).next = some i ∧ (r.page ((tmOf e.raw).low + i)).move.isSome = true) ∧
    (∃ (s : State) (w : Fin 8) (q : Nat) (e : QEntry) (r : Region) (i : Nat), s.entry w q = some e ∧ e.disp = true ∧ e.unit = false ∧ e.skip = false ∧ Rec.kind e.raw = 5 ∧ Rec.op e.raw = 2 ∧ s.region (tmOf e.raw).handle = some r ∧ r.nextMove (tmOf e.raw).tier (tmOf e.raw).low (tmOf e.raw).pageCount ((s.tier.moveLeft.find (recKey w q)).getD { next := 0, status := 0 }).next = some i ∧ (r.page ((tmOf e.raw).low + i)).move = none ∧ s.placeIn (tmOf e.raw).tier = none ∧ ((tmOf e.raw).tier = 2 ∨ (State.evictFor { s with tier := { s.tier with moveLeft := s.tier.moveLeft.insert (recKey w q) { ((s.tier.moveLeft.find (recKey w q)).getD { next := 0, status := 0 }) with next := i } } } (tmOf e.raw).tier 1).2 = false)) ∧
    (∃ (s : State) (w : Fin 8) (q : Nat) (e : QEntry) (r : Region) (i : Nat), s.entry w q = some e ∧ e.disp = true ∧ e.unit = false ∧ e.skip = false ∧ Rec.kind e.raw = 5 ∧ Rec.op e.raw = 2 ∧ s.region (tmOf e.raw).handle = some r ∧ r.nextMove (tmOf e.raw).tier (tmOf e.raw).low (tmOf e.raw).pageCount ((s.tier.moveLeft.find (recKey w q)).getD { next := 0, status := 0 }).next = some i ∧ (r.page ((tmOf e.raw).low + i)).move = none ∧ s.placeIn (tmOf e.raw).tier = none ∧ (tmOf e.raw).tier ≠ 2 ∧ (State.evictFor { s with tier := { s.tier with moveLeft := s.tier.moveLeft.insert (recKey w q) { ((s.tier.moveLeft.find (recKey w q)).getD { next := 0, status := 0 }) with next := i } } } (tmOf e.raw).tier 1).2 = true) ∧
    (∃ (s : State) (w : Fin 8) (q : Nat) (e : QEntry), s.entry w q = some e ∧ e.disp = true ∧ e.unit = false ∧ e.skip = false ∧ Rec.kind e.raw = 5 ∧ Rec.op e.raw = 4) ∧
    (∃ (s : State) (w : Fin 8) (q : Nat) (e : QEntry), s.entry w q = some e ∧ e.disp = true ∧ e.unit = false ∧ e.skip = false ∧ Rec.kind e.raw = 5 ∧ Rec.op e.raw = 3) ∧
    (∃ (s : State) (w : Fin 8) (q : Nat) (e : QEntry), s.entry w q = some e ∧ e.disp = true ∧ e.unit = false ∧ e.skip = false ∧ Rec.kind e.raw = 5 ∧ Rec.op e.raw = 3 ∧ s.isGated (tmOf e.raw) = true ∧ s.gateOpen (tmOf e.raw).layer (e.step.getD 0) = true) ∧
    (∃ (s : State) (w : Fin 8) (q : Nat) (e : QEntry), s.entry w q = some e ∧ e.disp = true ∧ e.unit = false ∧ e.skip = false ∧ Rec.kind e.raw = 5 ∧ Rec.op e.raw = 3 ∧ (s.isGated (tmOf e.raw) = false ∨ s.gateOpen (tmOf e.raw).layer (e.step.getD 0) = false)) ∧
    (∃ (s : State) (w : Fin 8) (q : Nat) (u : Fin 192) (e : QEntry) (n : Nat) (l : List Nat), s.entry w q = some e ∧ e.disp = true ∧ e.unit = false ∧ e.skip = false ∧ Rec.kind e.raw = 5 ∧ Rec.op e.raw = 3 ∧ (l = (if (tmOf e.raw).bcast then (if u.val = (tmOf e.raw).tf then tileRange (tmOf e.raw).tf (tmOf e.raw).tl else []) else if (tmOf e.raw).tf ≤ u.val ∧ u.val ≤ (tmOf e.raw).tl then [u.val] else [])) ∧ n = (l.map (s.fillLen w e (tmOf e.raw))).foldl min ((l.map (s.fillLen w e (tmOf e.raw))).headD 0) ∧ s.streamOpen w e (tmOf e.raw) = true ∧ n ≠ 0 ∧ (s.classDeferred (Rec.eclass e.raw) = false ∨ l.any (fun v => s.fillWanted (tmOf e.raw) v n) = true) ∧ (tmOf e.raw).tl < 192 ∧ (∀ v ∈ l, 65536 * (s.ring v (tmOf e.raw).ring).base + (s.ring v (tmOf e.raw).ring).fill + n ≤ scratchBytes) ∧ (s.access (recKey w q) l.length (tmOf e.raw).handle ((tmOf e.raw).fillPages u ((s.tier.fills.find (256 * recKey w q + u)).map Fill.got |>.getD 0) n)).2 = .ready) ∧
    (∃ (s : State) (w : Fin 8) (q : Nat) (u : Fin 192) (e : QEntry) (n : Nat) (l : List Nat), s.entry w q = some e ∧ e.disp = true ∧ e.unit = false ∧ e.skip = false ∧ Rec.kind e.raw = 5 ∧ Rec.op e.raw = 3 ∧ (l = (if (tmOf e.raw).bcast then (if u.val = (tmOf e.raw).tf then tileRange (tmOf e.raw).tf (tmOf e.raw).tl else []) else if (tmOf e.raw).tf ≤ u.val ∧ u.val ≤ (tmOf e.raw).tl then [u.val] else [])) ∧ n = (l.map (s.fillLen w e (tmOf e.raw))).foldl min ((l.map (s.fillLen w e (tmOf e.raw))).headD 0) ∧ (s.streamOpen w e (tmOf e.raw) = false ∨ n = 0 ∨ (s.classDeferred (Rec.eclass e.raw) = true ∧ l.any (fun v => s.fillWanted (tmOf e.raw) v n) = false))) ∧
    (∃ (s : State) (w : Fin 8) (q : Nat) (u : Fin 192) (e : QEntry) (n : Nat) (l : List Nat), s.entry w q = some e ∧ e.disp = true ∧ e.unit = false ∧ e.skip = false ∧ Rec.kind e.raw = 5 ∧ Rec.op e.raw = 3 ∧ (l = (if (tmOf e.raw).bcast then (if u.val = (tmOf e.raw).tf then tileRange (tmOf e.raw).tf (tmOf e.raw).tl else []) else if (tmOf e.raw).tf ≤ u.val ∧ u.val ≤ (tmOf e.raw).tl then [u.val] else [])) ∧ n = (l.map (s.fillLen w e (tmOf e.raw))).foldl min ((l.map (s.fillLen w e (tmOf e.raw))).headD 0) ∧ s.streamOpen w e (tmOf e.raw) = true ∧ n ≠ 0 ∧ (s.classDeferred (Rec.eclass e.raw) = false ∨ l.any (fun v => s.fillWanted (tmOf e.raw) v n) = true) ∧ (s.access (recKey w q) l.length (tmOf e.raw).handle ((tmOf e.raw).fillPages u ((s.tier.fills.find (256 * recKey w q + u)).map Fill.got |>.getD 0) n)).2 = .waiting) ∧
    (∃ (s : State) (w : Fin 8) (q : Nat) (u : Fin 192) (e : QEntry) (f : Nat), s.entry w q = some e ∧ e.disp = true ∧ Rec.kind e.raw = 1 ∧ (s.share w q u).waitFrom = some f ∧ (s.share w q u).started = true ∧ (s.share w q u).waitTold = false ∧ (s.share w q u).waitLimit * ms < s.now - f) ∧
    (∃ (s : State) (w : Fin 8) (q : Nat) (u : Fin 192) (e : QEntry), s.entry w q = some e ∧ e.disp = true ∧ Rec.kind e.raw = 1 ∧ ((s.share w q u).waitFrom = none ∨ (s.share w q u).started = false ∨ (s.share w q u).waitTold = true)) ∧
    (∃ (s : State) (w : Fin 8) (q : Nat), (s.entry w q).all (fun e => !(e.disp && !e.unit && !e.skip && Rec.kind e.raw == 5 && Rec.op e.raw == 0)) = true) ∧
    (∃ (s : State) (w : Fin 8) (q : Nat), (s.entry w q).all (fun e => !(e.disp && !e.unit && !e.skip && Rec.kind e.raw == 5 && Rec.op e.raw == 1)) = true) ∧
    (∃ (s : State) (w : Fin 8) (q : Nat), (s.entry w q).all (fun e => !(e.disp && !e.unit && !e.skip && Rec.kind e.raw == 5 && Rec.op e.raw == 2)) = true) ∧
    (∃ (s : State) (w : Fin 8) (q : Nat), (s.entry w q).all (fun e => !(e.disp && !e.unit && !e.skip && Rec.kind e.raw == 5 && Rec.op e.raw == 4)) = true) ∧
    (∃ (s : State) (w : Fin 8) (q : Nat), (s.entry w q).all (fun e => !(e.disp && !e.unit && !e.skip && Rec.kind e.raw == 5 && Rec.op e.raw == 3)) = true) ∧
    (∃ (s : State) (w : Fin 8) (q : Nat), (s.entry w q).all (fun e => !(e.disp && !e.unit && !e.skip && Rec.kind e.raw == 5 && Rec.op e.raw == 3)) = true) ∧
    (∃ (s : State) (w : Fin 8) (q : Nat) (u : Fin 192), (s.entry w q).all (fun e => !(e.disp && !e.unit && !e.skip && Rec.kind e.raw == 5 && Rec.op e.raw == 3)) = true) :=
  ⟨⟨upRec (kindRec 5 [(0, 60, 4, 0), (0, 30, 4, 7), (0, 28, 2, 1), (1, 32, 32, 9), (1, 0, 32, 1)]), 0, 0, entOf (kindRec 5 [(0, 60, 4, 0), (0, 30, 4, 7), (0, 28, 2, 1), (1, 32, 32, 9), (1, 0, 32, 1)]) 0 true, by decide +kernel⟩,
   ⟨withTier (upRec (kindRec 5 [(0, 60, 4, 0), (0, 30, 4, 1), (0, 28, 2, 1), (1, 32, 32, 9), (1, 0, 32, 33488896)])) fun x => x, 0, 0, entOf (kindRec 5 [(0, 60, 4, 0), (0, 30, 4, 1), (0, 28, 2, 1), (1, 32, 32, 9), (1, 0, 32, 33488896)]) 0 true, by decide +kernel⟩,
   ⟨upRec (kindRec 5 [(0, 60, 4, 0), (0, 30, 4, 8), (0, 28, 2, 3), (1, 32, 32, 9), (1, 0, 32, 1)]), 0, 0, entOf (kindRec 5 [(0, 60, 4, 0), (0, 30, 4, 8), (0, 28, 2, 3), (1, 32, 32, 9), (1, 0, 32, 1)]) 0 true, by decide +kernel⟩,
   ⟨withTier ((upRec (kindRec 5 [(0, 60, 4, 0), (0, 30, 4, 8), (0, 28, 2, 3), (1, 32, 32, 10), (1, 0, 32, 1)])).wr (Obj.hlState 0) 1) fun x => { x with regions := [(9, regionA 8 .hostA)], hostA := { pages := 1, noticeEnd := none } }, 0, 0, entOf (kindRec 5 [(0, 60, 4, 0), (0, 30, 4, 8), (0, 28, 2, 3), (1, 32, 32, 10), (1, 0, 32, 1)]) 0 true, by decide +kernel⟩,
   ⟨withTier (upRec (kindRec 5 [(0, 60, 4, 1), (1, 32, 32, 9)])) fun x => { x with regions := [(9, regionA 7 .t1)] }, 0, 0, entOf (kindRec 5 [(0, 60, 4, 1), (1, 32, 32, 9)]) 0 true, regionA 7 .t1, by decide +kernel⟩,
   ⟨withTier (upRec (kindRec 5 [(0, 60, 4, 1), (1, 32, 32, 9)])) fun x => { x with regions := [(9, { regionA 7 .t1 with pages := [(0, { pageA .t1 with move := some (moveA .t2) })] })] }, 0, 0, entOf (kindRec 5 [(0, 60, 4, 1), (1, 32, 32, 9)]) 0 true, { regionA 7 .t1 with pages := [(0, { pageA .t1 with move := some (moveA .t2) })] }, by decide +kernel⟩,
   ⟨upRec (kindRec 5 [(0, 60, 4, 1), (1, 32, 32, 9)]), 0, 0, entOf (kindRec 5 [(0, 60, 4, 1), (1, 32, 32, 9)]) 0 true, by decide +kernel⟩,
   ⟨withTier (upRec (kindRec 5 [(0, 60, 4, 2), (0, 28, 2, 2), (1, 32, 32, 9), (2, 32, 32, 1)])) fun x => { x with regions := [(9, regionA 7 .t1)] }, 0, 0, entOf (kindRec 5 [(0, 60, 4, 2), (0, 28, 2, 2), (1, 32, 32, 9), (2, 32, 32, 1)]) 0 true, regionA 7 .t1, 0, .t2, by decide +kernel⟩,
   ⟨withTier (upRec (kindRec 5 [(0, 60, 4, 2), (0, 28, 2, 1), (1, 32, 32, 9), (2, 32, 32, 1)])) fun x => { x with regions := [(9, regionA 7 .t1)] }, 0, 0, entOf (kindRec 5 [(0, 60, 4, 2), (0, 28, 2, 1), (1, 32, 32, 9), (2, 32, 32, 1)]) 0 true, regionA 7 .t1, by decide +kernel⟩,
   ⟨upRec (kindRec 5 [(0, 60, 4, 2), (0, 28, 2, 1), (1, 32, 32, 9), (2, 32, 32, 1)]), 0, 0, entOf (kindRec 5 [(0, 60, 4, 2), (0, 28, 2, 1), (1, 32, 32, 9), (2, 32, 32, 1)]) 0 true, by decide +kernel⟩,
   ⟨withTier (upRec (kindRec 5 [(0, 60, 4, 2), (0, 28, 2, 2), (1, 32, 32, 9), (2, 32, 32, 1)])) fun x => { x with regions := [(9, { regionA 7 .t1 with pages := [(0, { pageA .t1 with move := some (moveA .t2) })] })] }, 0, 0, entOf (kindRec 5 [(0, 60, 4, 2), (0, 28, 2, 2), (1, 32, 32, 9), (2, 32, 32, 1)]) 0 true, { regionA 7 .t1 with pages := [(0, { pageA .t1 with move := some (moveA .t2) })] }, 0, by decide +kernel⟩,
   ⟨withTier (upRec (kindRec 5 [(0, 60, 4, 2), (0, 28, 2, 3), (1, 32, 32, 9), (2, 32, 32, 1)])) fun x => { x with regions := [(9, regionA 8 .t1)] }, 0, 0, entOf (kindRec 5 [(0, 60, 4, 2), (0, 28, 2, 3), (1, 32, 32, 9), (2, 32, 32, 1)]) 0 true, regionA 8 .t1, 0, by decide +kernel⟩,
   ⟨withTier ((upRec (kindRec 5 [(0, 60, 4, 2), (0, 28, 2, 3), (1, 32, 32, 9), (2, 32, 32, 1)])).wr (Obj.hlState 0) 1) fun x => { x with regions := [(8, regionA 8 .hostA), (9, regionA 8 .t1)], hostA := { pages := 1, noticeEnd := none } }, 0, 0, entOf (kindRec 5 [(0, 60, 4, 2), (0, 28, 2, 3), (1, 32, 32, 9), (2, 32, 32, 1)]) 0 true, regionA 8 .t1, 0, by decide +kernel⟩,
   ⟨upRec (kindRec 5 [(0, 60, 4, 4), (0, 26, 2, 1), (0, 20, 5, 2), (0, 14, 6, 3)]), 0, 0, entOf (kindRec 5 [(0, 60, 4, 4), (0, 26, 2, 1), (0, 20, 5, 2), (0, 14, 6, 3)]) 0 true, by decide +kernel⟩,
   ⟨upRec (kindRec 5 [(0, 60, 4, 3), (0, 6, 8, 1), (1, 32, 32, 9), (1, 0, 32, 1), (2, 0, 24, 1)]), 0, 0, entOf (kindRec 5 [(0, 60, 4, 3), (0, 6, 8, 1), (1, 32, 32, 9), (1, 0, 32, 1), (2, 0, 24, 1)]) 0 true, by decide +kernel⟩,
   ⟨withTier (upRec (kindRec 5 [(0, 60, 4, 3), (0, 50, 8, 1), (0, 6, 8, 1), (1, 32, 32, 9), (1, 0, 32, 1), (2, 0, 24, 1)])) fun x => { x with regions := [(9, regionA 1 .t1)] }, 0, 0, entOf (kindRec 5 [(0, 60, 4, 3), (0, 50, 8, 1), (0, 6, 8, 1), (1, 32, 32, 9), (1, 0, 32, 1), (2, 0, 24, 1)]) 0 true, by decide +kernel⟩,
   ⟨upRec (kindRec 5 [(0, 60, 4, 3), (0, 50, 8, 1), (0, 6, 8, 1), (1, 32, 32, 9), (1, 0, 32, 1), (2, 0, 24, 1)]), 0, 0, entOf (kindRec 5 [(0, 60, 4, 3), (0, 50, 8, 1), (0, 6, 8, 1), (1, 32, 32, 9), (1, 0, 32, 1), (2, 0, 24, 1)]) 0 true, by decide +kernel⟩,
   ⟨(let s := withTier (upRec (kindRec 5 [(0, 60, 4, 3), (0, 6, 8, 1), (0, 25, 1, 1), (1, 32, 32, 9), (1, 0, 32, 1), (2, 0, 24, 1)])) fun x => { x with regions := [(9, regionA 7 .t1)], gated := [0], fills := [(0, { start := 0, got := 0 })] }; withTile s fun x => { x with rings := [(0, { Ring.off with pages := 1 })] }), 0, 0, 0, entOf (kindRec 5 [(0, 60, 4, 3), (0, 6, 8, 1), (0, 25, 1, 1), (1, 32, 32, 9), (1, 0, 32, 1), (2, 0, 24, 1)]) 0 true, 64, [0], by decide +kernel⟩,
   ⟨upRec (kindRec 5 [(0, 60, 4, 3), (0, 6, 8, 1), (0, 25, 1, 1), (1, 32, 32, 9), (1, 0, 32, 1), (2, 0, 24, 1)]), 0, 0, 0, entOf (kindRec 5 [(0, 60, 4, 3), (0, 6, 8, 1), (0, 25, 1, 1), (1, 32, 32, 9), (1, 0, 32, 1), (2, 0, 24, 1)]) 0 true, 0, [0], by decide +kernel⟩,
   ⟨(let s := withTier (upRec (kindRec 5 [(0, 60, 4, 3), (0, 6, 8, 1), (0, 25, 1, 1), (1, 32, 32, 9), (1, 0, 32, 1), (2, 0, 24, 1)])) fun x => { x with regions := [(9, { regionA 7 .t1 with pages := [(0, { pageA .t1 with move := some (moveA .t2) })] })], gated := [0], fills := [(0, { start := 0, got := 0 })] }; withTile s fun x => { x with rings := [(0, { Ring.off with pages := 1 })] }), 0, 0, 0, entOf (kindRec 5 [(0, 60, 4, 3), (0, 6, 8, 1), (0, 25, 1, 1), (1, 32, 32, 9), (1, 0, 32, 1), (2, 0, 24, 1)]) 0 true, 64, [0], by decide +kernel⟩,
   ⟨withTile (upRec (prodRec 0 0)) fun x => { x with shares := [(0, { shareA with waitFrom := some 0 })] }, 0, 0, 0, entOf (prodRec 0 0) 0 true, 0, by decide +kernel⟩,
   ⟨upRec (prodRec 0 0), 0, 0, 0, entOf (prodRec 0 0) 0 true, by decide +kernel⟩,
   ⟨State.reset, 0, 0, by decide +kernel⟩,
   ⟨State.reset, 0, 0, by decide +kernel⟩,
   ⟨State.reset, 0, 0, by decide +kernel⟩,
   ⟨State.reset, 0, 0, by decide +kernel⟩,
   ⟨State.reset, 0, 0, by decide +kernel⟩,
   ⟨State.reset, 0, 0, by decide +kernel⟩,
   ⟨State.reset, 0, 0, 0, by decide +kernel⟩⟩

/-- States that meet the hypotheses of PagesMoveOneHome, one for each clause. -/
theorem test_hypotheses_PagesMoveOneHome :
    (∃ (s : State) (h : Nat) (p : Nat) (phys : Nat) (r : Region) (m : PageMove), s.region h = some r ∧ (r.page p).move = some m ∧ (m.dst = .t2 → s.store.acked.contains (lentPage h p) = true)) ∧
    (∃ (s : State) (h : Nat) (p : Nat) (phys : Nat) (r : Region) (m : PageMove), s.region h = some r ∧ (r.page p).move = some m ∧ m.tries < 2) ∧
    (∃ (s : State) (h : Nat) (p : Nat) (phys : Nat) (r : Region) (m : PageMove), s.region h = some r ∧ (r.page p).move = some m ∧ m.dst = .t2 ∧ s.store.acked.contains (lentPage h p) = false) ∧
    (∃ (s : State) (h : Nat) (p : Nat) (phys : Nat) (r : Region) (m : PageMove), s.region h = some r ∧ (r.page p).move = some m ∧ 2 ≤ m.tries ∧ m.second = false) ∧
    (∃ (s : State) (h : Nat) (p : Nat) (phys : Nat) (r : Region) (m : PageMove), s.region h = some r ∧ (r.page p).move = some m ∧ 2 ≤ m.tries ∧ m.second = true) ∧
    (∃ (s : State) (h : Nat) (p : Nat) (phys : Nat) (good : Bool) (r : Region), s.region h = some r ∧ (r.page p).move = none ∧ (r.page p).home = .gone ∧ (r.page p).refetch = true ∧ p < r.size ∧ s.freeIn 1 = 0) ∧
    (∃ (s : State) (h : Nat) (p : Nat) (phys : Nat) (good : Bool) (r : Region), s.region h = some r ∧ (r.page p).move = none ∧ ((r.page p).home ≠ .gone ∨ (r.page p).refetch = false)) ∧
    (∃ (s : State) (h : Nat) (p : Nat) (phys : Nat) (good : Bool) (r : Region), s.region h = some r ∧ (r.page p).move = none ∧ (r.page p).home = .gone ∧ (r.page p).refetch = true ∧ p < r.size ∧ 0 < s.freeIn 1) ∧
    (∃ (s : State) (upper : Bool) (n : Nat) (c : Cand) (d : Home) (r : Region), n = (if upper then 1 else 3) ∧ s.e2Deferred = false ∧ s.pool n ≠ 0 ∧ s.freeIn n + s.pagesThat (RPage.leaving n) < s.highMark n ∧ (s.freeIn n + s.pagesThat (RPage.leaving n) < s.lowMark n ∨ s.evicting n = true) ∧ s.evictPick n = some c ∧ s.evictDst n c.cls = some d ∧ d ≠ .gone ∧ s.region c.h = some r) ∧
    (∃ (s : State) (upper : Bool) (n : Nat) (c : Cand) (r : Region), n = (if upper then 1 else 3) ∧ s.e2Deferred = false ∧ s.pool n ≠ 0 ∧ s.freeIn n + s.pagesThat (RPage.leaving n) < s.highMark n ∧ (s.freeIn n + s.pagesThat (RPage.leaving n) < s.lowMark n ∨ s.evicting n = true) ∧ s.evictPick n = some c ∧ s.evictDst n c.cls = some .gone ∧ s.region c.h = some r) ∧
    (∃ (s : State) (upper : Bool) (n : Nat), n = (if upper then 1 else 3) ∧ (s.e2Deferred = true ∨ s.pool n = 0)) ∧
    (∃ (s : State) (upper : Bool) (n : Nat), n = (if upper then 1 else 3) ∧ s.e2Deferred = false ∧ s.pool n ≠ 0 ∧ s.highMark n ≤ s.freeIn n + s.pagesThat (RPage.leaving n)) ∧
    (∃ (s : State) (upper : Bool) (n : Nat), n = (if upper then 1 else 3) ∧ s.e2Deferred = false ∧ s.pool n ≠ 0 ∧ s.freeIn n + s.pagesThat (RPage.leaving n) < s.highMark n ∧ (s.freeIn n + s.pagesThat (RPage.leaving n) < s.lowMark n ∨ s.evicting n = true) ∧ s.evictPick n = none) ∧
    (∃ (s : State) (upper : Bool) (n : Nat), n = (if upper then 1 else 3) ∧ s.e2Deferred = false ∧ s.pool n ≠ 0 ∧ s.freeIn n + s.pagesThat (RPage.leaving n) < s.highMark n ∧ s.lowMark n ≤ s.freeIn n + s.pagesThat (RPage.leaving n) ∧ s.evicting n = false) :=
  ⟨⟨withTier (up []) fun x => { x with regions := [(9, { regionA 7 .t1 with pages := [(0, { pageA .t1 with move := some (moveA .hostA) })] })] }, 9, 0, 0, { regionA 7 .t1 with pages := [(0, { pageA .t1 with move := some (moveA .hostA) })] }, moveA .hostA, by decide +kernel⟩,
   ⟨withTier (up []) fun x => { x with regions := [(9, { regionA 7 .t1 with pages := [(0, { pageA .t1 with move := some (moveA .hostA) })] })] }, 9, 0, 0, { regionA 7 .t1 with pages := [(0, { pageA .t1 with move := some (moveA .hostA) })] }, moveA .hostA, by decide +kernel⟩,
   ⟨withTier (up []) fun x => { x with regions := [(9, { regionA 7 .t1 with pages := [(0, { pageA .t1 with move := some (moveA .t2) })] })] }, 9, 0, 0, { regionA 7 .t1 with pages := [(0, { pageA .t1 with move := some (moveA .t2) })] }, moveA .t2, by decide +kernel⟩,
   ⟨withTier (up []) fun x => { x with regions := [(9, { regionA 7 .t1 with pages := [(0, { pageA .t1 with move := some { moveA .hostA with tries := 2 } })] })] }, 9, 0, 0, { regionA 7 .t1 with pages := [(0, { pageA .t1 with move := some { moveA .hostA with tries := 2 } })] }, { moveA .hostA with tries := 2 }, by decide +kernel⟩,
   ⟨withTier (up []) fun x => { x with regions := [(9, { regionA 7 .t1 with pages := [(0, { pageA .t1 with move := some { moveA .hostA with tries := 2, second := true } })] })] }, 9, 0, 0, { regionA 7 .t1 with pages := [(0, { pageA .t1 with move := some { moveA .hostA with tries := 2, second := true } })] }, { moveA .hostA with tries := 2, second := true }, by decide +kernel⟩,
   ⟨withTier (up [(Obj.t1PoolPages, 0)]) fun x => { x with regions := [(9, { regionA 7 .gone with pages := [(0, { pageA .gone with refetch := true })] })] }, 9, 0, 0, true, { regionA 7 .gone with pages := [(0, { pageA .gone with refetch := true })] }, by decide +kernel⟩,
   ⟨withTier (up []) fun x => { x with regions := [(9, regionA 7 .t1)] }, 9, 0, 0, true, regionA 7 .t1, by decide +kernel⟩,
   ⟨withTier (up []) fun x => { x with regions := [(9, { regionA 7 .gone with pages := [(0, { pageA .gone with refetch := true })] })] }, 9, 0, 0, true, { regionA 7 .gone with pages := [(0, { pageA .gone with refetch := true })] }, by decide +kernel⟩,
   ⟨withTier (up [(Obj.t1High, 33488896)]) fun x => { x with regions := [(9, regionA 7 .t1)], evicting1 := true }, true, 1, { h := 9, p := 0, cls := 7, stamp := 0 }, .t2, regionA 7 .t1, by decide +kernel⟩,
   ⟨withTier (up [(Obj.t3Low, 5)]) fun x => { x with regions := [(9, regionA 8 .hostA)], hostA := { pages := 1, noticeEnd := none } }, false, 3, { h := 9, p := 0, cls := 8, stamp := 0 }, regionA 8 .hostA, by decide +kernel⟩,
   ⟨up [(Obj.deferred, 1)], true, 1, by decide +kernel⟩,
   ⟨up [], true, 1, by decide +kernel⟩,
   ⟨withTier (up [(Obj.t1High, 33488897)]) fun x => { x with evicting1 := true }, true, 1, by decide +kernel⟩,
   ⟨up [(Obj.t1High, 33488897)], true, 1, by decide +kernel⟩⟩

/-- States that meet the hypotheses of MemoryIsLentAndRecalled, one for each clause. -/
theorem test_hypotheses_MemoryIsLentAndRecalled :
    (∃ (s : State) (src : Src) (n : Fin 2) (arg : Nat), arg = 1 ∧ s.fldDenied src (Obj.hlCommit n) = false ∧ s.rd (Obj.hlPages n) ≠ 0 ∧ s.lenderOn n = false) ∧
    (∃ (s : State) (src : Src) (n : Fin 2) (arg : Nat), (100 ≤ arg ∧ arg ≤ 600000) ∧ s.fldDenied src (Obj.hlRecall n) = false ∧ s.rd (Obj.hlState n) = 1) ∧
    (∃ (s : State) (src : Src) (arg : Nat), arg = 1 ∧ s.fldDenied src Obj.nbCommit = false ∧ s.rd Obj.nbModule ≠ 0xFFFF ∧ s.lenderOn 2 = false) ∧
    (∃ (s : State) (src : Src) (arg : Nat) (l : LentOut), arg = 1 ∧ s.fldDenied src Obj.lendRecall = false ∧ s.tier.lentOut = some l) ∧
    (∃ (s : State) (n : Fin 4) (l : LentOut) (f : Nat), n = 3 ∧ s.tier.lentOut = some l ∧ l.noticeEnd = some f ∧ f ≤ s.now) ∧
    (∃ (s : State) (n : Fin 4) (f : Nat), n ≠ 3 ∧ (s.lender n).noticeEnd = some f ∧ s.rd (lenderKey n) = 2 ∧ f ≤ s.now) ∧
    (∃ (s : State) (n : Fin 3), s.lenderOn n = true) ∧
    (∃ (s : State) (m : Msg), unle (m.body.take 4) = 0 ∧ s.mayLend = true) ∧
    (∃ (s : State) (m : Msg), unle (m.body.take 4) ≠ 0 ∧ s.tier.nbAsked = true ∧ m.src = s.rd Obj.nbModule) ∧
    (∃ (s : State) (m : Msg), s.fromLender m = true ∧ s.rd Obj.nbState = 1) ∧
    (∃ (s : State) (m : Msg), s.fromLender m = true) ∧
    (∃ (s : State) (m : Msg), s.fromBorrower m = true) ∧
    (∃ (s : State) (m : Msg), s.fromBorrower m = true) ∧
    (∃ (s : State) (m : Msg), s.fromBorrower m = true) ∧
    (∃ (s : State) (m : Msg), s.fromBorrower m = false ∧ s.fromLender m = true ∧ s.lentHere (unle (m.body.take 8) / 2 ^ 32) (unle (m.body.take 8) % 2 ^ 32) = true) ∧
    (∃ (s : State) (m : Msg), unle (m.body.take 4) = 0 ∧ s.mayLend = false) ∧
    (∃ (s : State) (m : Msg), unle (m.body.take 4) ≠ 0 ∧ (s.tier.nbAsked = false ∨ m.src ≠ s.rd Obj.nbModule)) ∧
    (∃ (s : State) (m : Msg), (s.fromLender m = false ∨ s.rd Obj.nbState ≠ 1)) ∧
    (∃ (s : State) (m : Msg), s.fromLender m = false) ∧
    (∃ (s : State) (m : Msg), s.fromBorrower m = false) ∧
    (∃ (s : State) (m : Msg), s.fromBorrower m = false) ∧
    (∃ (s : State) (m : Msg), s.fromBorrower m = false ∧ (s.fromLender m = false ∨ s.lentHere (unle (m.body.take 8) / 2 ^ 32) (unle (m.body.take 8) % 2 ^ 32) = false)) :=
  ⟨⟨up [(Obj.hlPages 1, 7)], .mctp .ha 9, 1, 1, by decide +kernel⟩,
   ⟨withTier (up [(Obj.hlState 0, 1)]) fun x => { x with hostA := { pages := 1, noticeEnd := none } }, .mctp .ha 9, 0, 100, by decide +kernel⟩,
   ⟨up [(Obj.nbModule, 3)], .mctp .ha 9, 1, by decide +kernel⟩,
   ⟨withTier (up []) fun x => { x with lentOut := some lentA }, .mctp .ha 9, 1, lentA, by decide +kernel⟩,
   ⟨withTier (up []) fun x => { x with lentOut := some { lentA with noticeEnd := some 5 } }, 3, { lentA with noticeEnd := some 5 }, 5, by decide +kernel⟩,
   ⟨withTier (up [(Obj.hlState 1, 2)]) fun x => { x with hostB := { pages := 1, noticeEnd := some 5 } }, 1, 5, by decide +kernel⟩,
   ⟨withTier (up [(Obj.nbState, 1)]) fun x => { x with neighbour := { pages := 1, noticeEnd := none } }, 2, by decide +kernel⟩,
   ⟨up [(Obj.lendEnable, 1), (Obj.lendPages, 4)], msgA [], by decide +kernel⟩,
   ⟨withTier (up [(Obj.nbModule, 3)]) fun x => { x with nbAsked := true }, msgA [4], by decide +kernel⟩,
   ⟨up [(Obj.nbModule, 3), (Obj.nbState, 1)], msgA [100], by decide +kernel⟩,
   ⟨up [(Obj.nbModule, 3), (Obj.nbState, 1)], msgA [], by decide +kernel⟩,
   ⟨withTier (up []) fun x => { x with lentOut := some lentA }, msgA [], by decide +kernel⟩,
   ⟨withTier (up []) fun x => { x with lentOut := some lentA }, msgA [], by decide +kernel⟩,
   ⟨withTier (up []) fun x => { x with lentOut := some lentA }, msgA [1, 0, 0, 0, 0, 0, 0, 0, 7, 8], by decide +kernel⟩,
   ⟨withTier (up [(Obj.nbModule, 3), (Obj.nbState, 1)]) fun x => { x with regions := [(9, regionA 8 .neighbour)] }, msgA [0, 0, 0, 0, 9, 0, 0, 0, 7], by decide +kernel⟩,
   ⟨up [], msgA [], by decide +kernel⟩,
   ⟨up [], msgA [1], by decide +kernel⟩,
   ⟨up [], msgA [1], by decide +kernel⟩,
   ⟨up [], msgA [], by decide +kernel⟩,
   ⟨up [], msgA [], by decide +kernel⟩,
   ⟨up [], msgA [], by decide +kernel⟩,
   ⟨up [], msgA [], by decide +kernel⟩⟩

/-- States that meet the hypotheses of BankTierRepairs, one for each clause. -/
theorem test_hypotheses_BankTierRepairs :
    (∃ (s : State) (addr : Nat) (u : BankUnit) (reads : List Bytes) (reader : Option (Nat × Nat)), failedReads addr reads = 0) ∧
    (∃ (s : State) (addr : Nat) (u : BankUnit) (reads : List Bytes) (reader : Option (Nat × Nat)), 0 < failedReads addr reads ∧ failedReads addr reads ≤ 3 ∧ failedReads addr reads < reads.length) ∧
    (∃ (s : State) (addr : Nat) (u : BankUnit) (reads : List Bytes) (reader : Option (Nat × Nat)), 3 < failedReads addr reads) ∧
    (∃ (s : State) (addr : Nat) (reads : List Bytes) (reader : Option (Nat × Nat)) (h : Nat) (p : Nat) (l : Nat) (r : Region) (u : BankUnit), u = .region h p l ∧ 3 < failedReads addr reads ∧ s.tier.map.find (lentPage h p) = some (addr / 1024) ∧ s.region h = some r ∧ (r.cls = 6 ∨ r.cls = 7)) ∧
    (∃ (s : State) (addr : Nat) (u : BankUnit) (fails : Nat), 0 < fails ∧ fails ≤ 3) ∧
    (∃ (s : State) (addr : Nat) (u : BankUnit) (fails : Nat), 3 < fails ∧ u = .unused) ∧
    (∃ (s : State) (c : Fin 16) (temp : Int), temp ≤ 105) ∧
    (∃ (s : State) (c : Fin 16) (temp : Int), 105 < temp) ∧
    (∃ (s : State) (u : BankUnit) (unit : Fin 1024) (reads : List Bytes), s.e2Deferred = false ∧ failedReads (1024 * s.rd Obj.scrubProgress + unit) reads = 0 ∧ s.rd Obj.scrubProgress + 1 < 33554432) ∧
    (∃ (s : State) (u : BankUnit) (unit : Fin 1024) (reads : List Bytes), s.e2Deferred = false ∧ 0 < failedReads (1024 * s.rd Obj.scrubProgress + unit) reads ∧ s.rd Obj.scrubProgress + 1 < 33554432) ∧
    (∃ (s : State) (u : BankUnit) (unit : Fin 1024) (reads : List Bytes), s.e2Deferred = false ∧ 33554432 ≤ s.rd Obj.scrubProgress + 1) ∧
    (∃ (s : State) (u : BankUnit) (unit : Fin 1024) (reads : List Bytes), s.e2Deferred = true) :=
  ⟨⟨up [], 17408, .spill, [unitStored 17408 (List.replicate 64 0)], none, by decide +kernel⟩,
   ⟨up [], 17408, .spill, [[], [], [], unitStored 17408 (List.replicate 64 0)], none, by decide +kernel⟩,
   ⟨up [], 17408, .unused, [[], [], [], []], none, by decide +kernel⟩,
   ⟨withTier (up []) fun x => { x with regions := [(9, regionA 7 .t1)], map := [(lentPage 9 0, 17)] }, 17408, [[], [], [], []], none, 9, 0, 0, regionA 7 .t1, .region 9 0 0, by decide +kernel⟩,
   ⟨up [], 17408, .spill, 3, by decide +kernel⟩,
   ⟨up [], 17408, .unused, 4, by decide +kernel⟩,
   ⟨up [], 3, 86, by decide +kernel⟩,
   ⟨up [], 3, 106, by decide +kernel⟩,
   ⟨up [], .unused, 0, [], by decide +kernel⟩,
   ⟨up [], .unused, 0, [[]], by decide +kernel⟩,
   ⟨up [(Obj.scrubProgress, 33554431)], .unused, 0, [], by decide +kernel⟩,
   ⟨up [(Obj.deferred, 1)], .unused, 0, [], by decide +kernel⟩⟩

/-- States that meet the hypotheses of UpdateRecordsRun, one for each clause. -/
theorem test_hypotheses_UpdateRecordsRun :
    (∃ (s : State) (w : Fin 8) (q : Nat) (e : QEntry), s.entry w q = some e ∧ e.disp = true ∧ e.unit = false ∧ e.skip = false ∧ Rec.kind e.raw = 7 ∧ Rec.op e.raw = 0) ∧
    (∃ (s : State) (w : Fin 8) (q : Nat) (e : QEntry), s.entry w q = some e ∧ e.disp = true ∧ e.unit = false ∧ e.skip = false ∧ Rec.kind e.raw = 7 ∧ Rec.op e.raw = 1 ∧ s.upd.arms.any (fun a => a.win == w.val && a.seq == q) = true) ∧
    (∃ (s : State) (w : Fin 8) (q : Nat) (e : QEntry), s.entry w q = some e ∧ e.disp = true ∧ e.unit = false ∧ e.skip = false ∧ Rec.kind e.raw = 7 ∧ Rec.op e.raw = 1 ∧ s.upd.arms.any (fun a => a.win == w.val && a.seq == q) = false ∧ (s.journal (upOf e.raw).layer).state = 6) ∧
    (∃ (s : State) (w : Fin 8) (q : Nat) (e : QEntry), s.entry w q = some e ∧ e.disp = true ∧ e.unit = false ∧ e.skip = false ∧ Rec.kind e.raw = 7 ∧ Rec.op e.raw = 1 ∧ s.upd.arms.any (fun a => a.win == w.val && a.seq == q) = false ∧ (s.journal (upOf e.raw).layer).state ≠ 6) ∧
    (∃ (s : State) (w : Fin 8) (q : Nat) (e : QEntry) (x : Image) (y : ImageLayer), s.entry w q = some e ∧ e.disp = true ∧ e.unit = false ∧ e.skip = false ∧ Rec.kind e.raw = 7 ∧ Rec.op e.raw = 2 ∧ (upOf e.raw).layer ≠ 0 ∧ s.takenImage (upOf e.raw).imageH = some x ∧ (s.writable (recKey w q) (((if (upOf e.raw).layer = 0 then s.mappedLayers else [(upOf e.raw).layer]).flatMap s.layerPages).eraseDups)).2 = true ∧ (∀ a ∈ s.upd.arms, ¬ (a.win = w.val ∧ a.seq = q)) ∧ x.layers.find (upOf e.raw).layer = some y ∧ (((s.writable (recKey w q) (((if (upOf e.raw).layer = 0 then s.mappedLayers else [(upOf e.raw).layer]).flatMap s.layerPages).eraseDups)).1.abandonPass (upOf e.raw).layer).restoreLayer (upOf e.raw).imageH x (upOf e.raw).layer).2 = true) ∧
    (∃ (s : State) (w : Fin 8) (q : Nat) (e : QEntry) (x : Image), s.entry w q = some e ∧ e.disp = true ∧ e.unit = false ∧ e.skip = false ∧ Rec.kind e.raw = 7 ∧ Rec.op e.raw = 2 ∧ (upOf e.raw).layer ≠ 0 ∧ s.takenImage (upOf e.raw).imageH = some x ∧ (s.writable (recKey w q) (((if (upOf e.raw).layer = 0 then s.mappedLayers else [(upOf e.raw).layer]).flatMap s.layerPages).eraseDups)).2 = true ∧ (∀ a ∈ s.upd.arms, ¬ (a.win = w.val ∧ a.seq = q)) ∧ (((s.writable (recKey w q) (((if (upOf e.raw).layer = 0 then s.mappedLayers else [(upOf e.raw).layer]).flatMap s.layerPages).eraseDups)).1.abandonPass (upOf e.raw).layer).restoreLayer (upOf e.raw).imageH x (upOf e.raw).layer).2 = false) ∧
    (∃ (s : State) (w : Fin 8) (q : Nat) (e : QEntry) (x : Image), s.entry w q = some e ∧ e.disp = true ∧ e.unit = false ∧ e.skip = false ∧ Rec.kind e.raw = 7 ∧ Rec.op e.raw = 2 ∧ (upOf e.raw).layer ≠ 0 ∧ s.takenImage (upOf e.raw).imageH = some x ∧ (s.writable (recKey w q) (((if (upOf e.raw).layer = 0 then s.mappedLayers else [(upOf e.raw).layer]).flatMap s.layerPages).eraseDups)).2 = true) ∧
    (∃ (s : State) (w : Fin 8) (q : Nat) (e : QEntry) (x : Image), s.entry w q = some e ∧ e.disp = true ∧ e.unit = false ∧ e.skip = false ∧ Rec.kind e.raw = 7 ∧ Rec.op e.raw = 2 ∧ (upOf e.raw).layer = 0 ∧ s.takenImage (upOf e.raw).imageH = some x ∧ (s.writable (recKey w q) (((if (upOf e.raw).layer = 0 then s.mappedLayers else [(upOf e.raw).layer]).flatMap s.layerPages).eraseDups)).2 = true ∧ (∀ a ∈ s.upd.arms, ¬ (a.win = w.val ∧ a.seq = q)) ∧ (((if (upOf e.raw).layer = 0 then s.mappedLayers else [(upOf e.raw).layer]).foldl (fun v l => v.abandonPass l) (s.writable (recKey w q) (((if (upOf e.raw).layer = 0 then s.mappedLayers else [(upOf e.raw).layer]).flatMap s.layerPages).eraseDups)).1).restoreLayers (upOf e.raw).imageH x s.mappedLayers).2 = [] ∧ x.digest = some (((if (upOf e.raw).layer = 0 then s.mappedLayers else [(upOf e.raw).layer]).foldl (fun v l => v.abandonPass l) (s.writable (recKey w q) (((if (upOf e.raw).layer = 0 then s.mappedLayers else [(upOf e.raw).layer]).flatMap s.layerPages).eraseDups)).1).restoreLayers (upOf e.raw).imageH x s.mappedLayers).1.stepDigestNow) ∧
    (∃ (s : State) (w : Fin 8) (q : Nat) (e : QEntry) (x : Image), s.entry w q = some e ∧ e.disp = true ∧ e.unit = false ∧ e.skip = false ∧ Rec.kind e.raw = 7 ∧ Rec.op e.raw = 2 ∧ (upOf e.raw).layer = 0 ∧ s.takenImage (upOf e.raw).imageH = some x ∧ (s.writable (recKey w q) (((if (upOf e.raw).layer = 0 then s.mappedLayers else [(upOf e.raw).layer]).flatMap s.layerPages).eraseDups)).2 = true ∧ (∀ a ∈ s.upd.arms, ¬ (a.win = w.val ∧ a.seq = q)) ∧ ((((if (upOf e.raw).layer = 0 then s.mappedLayers else [(upOf e.raw).layer]).foldl (fun v l => v.abandonPass l) (s.writable (recKey w q) (((if (upOf e.raw).layer = 0 then s.mappedLayers else [(upOf e.raw).layer]).flatMap s.layerPages).eraseDups)).1).restoreLayers (upOf e.raw).imageH x s.mappedLayers).2 ≠ [] ∨ x.digest ≠ some (((if (upOf e.raw).layer = 0 then s.mappedLayers else [(upOf e.raw).layer]).foldl (fun v l => v.abandonPass l) (s.writable (recKey w q) (((if (upOf e.raw).layer = 0 then s.mappedLayers else [(upOf e.raw).layer]).flatMap s.layerPages).eraseDups)).1).restoreLayers (upOf e.raw).imageH x s.mappedLayers).1.stepDigestNow)) ∧
    (∃ (s : State) (w : Fin 8) (q : Nat) (e : QEntry) (x : Image), s.entry w q = some e ∧ e.disp = true ∧ e.unit = false ∧ e.skip = false ∧ Rec.kind e.raw = 7 ∧ Rec.op e.raw = 2 ∧ s.takenImage (upOf e.raw).imageH = some x ∧ (s.writable (recKey w q) (((if (upOf e.raw).layer = 0 then s.mappedLayers else [(upOf e.raw).layer]).flatMap s.layerPages).eraseDups)).2 = false) ∧
    (∃ (s : State) (w : Fin 8) (q : Nat) (e : QEntry), s.entry w q = some e ∧ e.disp = true ∧ e.unit = false ∧ e.skip = false ∧ Rec.kind e.raw = 7 ∧ Rec.op e.raw = 2 ∧ s.takenImage (upOf e.raw).imageH = none ∧ (∀ a ∈ s.upd.arms, ¬ (a.win = w.val ∧ a.seq = q))) ∧
    (∃ (s : State) (w : Fin 8) (q : Nat), (s.entry w q).all (fun e => !(e.disp && !e.unit && !e.skip && Rec.kind e.raw == 7 && Rec.op e.raw == 0)) = true) ∧
    (∃ (s : State) (w : Fin 8) (q : Nat), (s.entry w q).all (fun e => !(e.disp && !e.unit && !e.skip && Rec.kind e.raw == 7 && Rec.op e.raw == 1)) = true) ∧
    (∃ (s : State) (w : Fin 8) (q : Nat), (s.entry w q).all (fun e => !(e.disp && !e.unit && !e.skip && Rec.kind e.raw == 7 && Rec.op e.raw == 2)) = true) :=
  ⟨⟨upRec (kindRec 7 [(0, 52, 8, 1), (0, 48, 4, 2), (1, 0, 32, 3), (3, 48, 16, 0x3F80)]), 0, 0, entOf (kindRec 7 [(0, 52, 8, 1), (0, 48, 4, 2), (1, 0, 32, 3), (3, 48, 16, 0x3F80)]) 0 true, by decide +kernel⟩,
   ⟨withUpd (upRec (kindRec 7 [(0, 60, 4, 1), (0, 52, 8, 1), (1, 48, 16, 7)])) fun x => { x with arms := [armA] }, 0, 0, entOf (kindRec 7 [(0, 60, 4, 1), (0, 52, 8, 1), (1, 48, 16, 7)]) 0 true, by decide +kernel⟩,
   ⟨withUpd (upRec (kindRec 7 [(0, 60, 4, 1), (0, 52, 8, 1), (1, 48, 16, 7)])) fun x => { x with journal := [(1, journalA 6)] }, 0, 0, entOf (kindRec 7 [(0, 60, 4, 1), (0, 52, 8, 1), (1, 48, 16, 7)]) 0 true, by decide +kernel⟩,
   ⟨withUpd (upRec (kindRec 7 [(0, 60, 4, 1), (0, 52, 8, 1), (1, 48, 16, 7)])) fun x => { x with journal := [(1, journalA 1)] }, 0, 0, entOf (kindRec 7 [(0, 60, 4, 1), (0, 52, 8, 1), (1, 48, 16, 7)]) 0 true, by decide +kernel⟩,
   ⟨(let s := withUpd (upRec (kindRec 7 [(0, 60, 4, 2), (0, 52, 8, 1), (1, 32, 32, 9)])) fun x => { x with journal := [(1, journalA 1)] }; { (s.wr (Obj.ckptHandle 1) 9).wr (Obj.ckptState 1) 2 with store := { s.store with taken := [(1, imageA)] } }), 0, 0, entOf (kindRec 7 [(0, 60, 4, 2), (0, 52, 8, 1), (1, 32, 32, 9)]) 0 true, imageA, { entry := { journalA 1 with passStep := 4 }, form := 1, quiet := 2 }, by decide +kernel⟩,
   ⟨(let s := withUpd (upRec (kindRec 7 [(0, 60, 4, 2), (0, 52, 8, 1), (1, 32, 32, 9)])) fun x => { x with journal := [(1, journalA 1)] }; { (s.wr (Obj.ckptHandle 1) 9).wr (Obj.ckptState 1) 2 with store := { s.store with taken := [(1, { imageA with layers := [] })] } }), 0, 0, entOf (kindRec 7 [(0, 60, 4, 2), (0, 52, 8, 1), (1, 32, 32, 9)]) 0 true, { imageA with layers := [] }, by decide +kernel⟩,
   ⟨(let s := (let s := withUpd (upRec (kindRec 7 [(0, 60, 4, 2), (0, 52, 8, 1), (1, 32, 32, 9)])) fun x => { x with journal := [(1, journalA 1)] }; { (s.wr (Obj.ckptHandle 1) 9).wr (Obj.ckptState 1) 2 with store := { s.store with taken := [(1, imageA)] } }); withUpd s fun x => { x with arms := [{ armA with seq := 1 }] }), 0, 0, entOf (kindRec 7 [(0, 60, 4, 2), (0, 52, 8, 1), (1, 32, 32, 9)]) 0 true, imageA, by decide +kernel⟩,
   ⟨(let s := withUpd (upRec (kindRec 7 [(0, 60, 4, 2), (1, 32, 32, 9)])) fun x => x; { (s.wr (Obj.ckptHandle 1) 9).wr (Obj.ckptState 1) 2 with store := { s.store with taken := [(1, { imageA with digest := some 0 })] } }), 0, 0, entOf (kindRec 7 [(0, 60, 4, 2), (1, 32, 32, 9)]) 0 true, { imageA with digest := some 0 }, by decide +kernel⟩,
   ⟨(let s := withUpd (upRec (kindRec 7 [(0, 60, 4, 2), (1, 32, 32, 9)])) fun x => x; { (s.wr (Obj.ckptHandle 1) 9).wr (Obj.ckptState 1) 2 with store := { s.store with taken := [(1, { imageA with digest := some 1 })] } }), 0, 0, entOf (kindRec 7 [(0, 60, 4, 2), (1, 32, 32, 9)]) 0 true, { imageA with digest := some 1 }, by decide +kernel⟩,
   ⟨withTier (withUpd (let s := withUpd (upRec (kindRec 7 [(0, 60, 4, 2), (1, 32, 32, 9)])) fun x => x; { (s.wr (Obj.ckptHandle 1) 9).wr (Obj.ckptState 1) 2 with store := { s.store with taken := [(1, { imageA with digest := some 0 })] } }) fun x => { x with maps := [(16, { rule := 0, wcFmt := 0, stateH := 5, tiles := 1, gradH := 0, wcH := 0, wScale := 0, mScale := 0, vScale := 0, wcScale := 0 })] }) fun x => { x with regions := [(5, { regionA 0 .t1 with size := 8, pages := [(0, { pageA .t1 with move := some (moveA .t1) })] })] }, 0, 0, entOf (kindRec 7 [(0, 60, 4, 2), (1, 32, 32, 9)]) 0 true, { imageA with digest := some 0 }, by decide +kernel⟩,
   ⟨upRec (kindRec 7 [(0, 60, 4, 2), (1, 32, 32, 9)]), 0, 0, entOf (kindRec 7 [(0, 60, 4, 2), (1, 32, 32, 9)]) 0 true, by decide +kernel⟩,
   ⟨State.reset, 0, 0, by decide +kernel⟩,
   ⟨State.reset, 0, 0, by decide +kernel⟩,
   ⟨State.reset, 0, 0, by decide +kernel⟩⟩

/-- States that meet the hypotheses of LayersUpdateAndCommit, one for each clause. -/
theorem test_hypotheses_LayersUpdateAndCommit :
    (∃ (s : State) (l : Nat) (n : Nat) (ahead : List Nat) (a : UpdArm), s.passArm l (s.journal l).passStep = some a ∧ s.chiselOn = true ∧ (s.journal l).state = 2 ∧ a.go = true ∧ s.chiselFree = true) ∧
    (∃ (s : State) (l : Nat) (n : Nat) (ahead : List Nat) (a : UpdArm), s.passArm l (s.journal l).passStep = some a ∧ s.chiselOn = true ∧ (s.journal l).state = 3) ∧
    (∃ (s : State) (l : Nat) (n : Nat) (ahead : List Nat) (a : UpdArm), s.passArm l (s.journal l).passStep = some a ∧ s.chiselOn = true ∧ (s.journal l).state = 5) ∧
    (∃ (s : State) (l : Nat) (n : Nat) (ahead : List Nat) (a : UpdArm), s.passArm l (s.journal l).passStep = some a ∧ (s.chiselOn = false ∨ ((s.journal l).state ≠ 3 ∧ (s.journal l).state ≠ 5 ∧ ((s.journal l).state ≠ 2 ∨ a.go = false ∨ s.chiselFree = false)))) ∧
    (∃ (s : State) (l : Nat) (n : Nat) (ahead : List Nat), s.passArm l (s.journal l).passStep = none) ∧
    (∃ (s : State) (l : Nat) (a : UpdArm), s.passArm l (s.journal l).passStep = some a ∧ s.chiselOn = true ∧ (s.journal l).state = 3 ∧ (s.passTo a (s.layerTiles l) []).passDone l = true) ∧
    (∃ (s : State) (l : Nat) (a : UpdArm), s.passArm l (s.journal l).passStep = some a ∧ s.chiselOn = true ∧ (s.journal l).state = 3 ∧ (s.passTo a (s.layerTiles l) []).passDone l = false) ∧
    (∃ (s : State) (l : Nat), (s.passArm l (s.journal l).passStep = none ∨ (s.journal l).state ≠ 3 ∨ s.chiselOn = false)) ∧
    (∃ (s : State) (l : Nat) (a : UpdArm), ((s.upd.journal.filter fun j => decide (3 ≤ j.2.state ∧ j.2.state ≤ 5)).map Prod.fst = [l]) ∧ s.passArm l (s.journal l).passStep = some a ∧ (s.writable (recKey a.win a.seq) (s.layerPages l)).2 = true) ∧
    (∃ (s : State), ((s.upd.journal.filter fun j => decide (3 ≤ j.2.state ∧ j.2.state ≤ 5)).map Prod.fst ≠ [] ∨ s.arrayOn = true)) ∧
    (∃ (s : State), ((s.upd.journal.filter fun j => decide (3 ≤ j.2.state ∧ j.2.state ≤ 5)).map Prod.fst = []) ∧ s.arrayOn = false) ∧
    (∃ (s : State) (n : Nat) (l : Nat) (f : Nat), s.cmd.stepNow = some n ∧ s.heldBack n = some l ∧ s.upd.waitFrom = some f ∧ s.upd.waitTold = false ∧ s.rd Obj.syncTimeoutMs * ms ≤ s.now - f) ∧
    (∃ (s : State) (n : Nat), s.cmd.stepNow = some n ∧ (s.heldBack n = none ∨ s.upd.waitTold = true ∨ s.now - s.upd.waitFrom.getD s.now < s.rd Obj.syncTimeoutMs * ms)) ∧
    (∃ (s : State), s.cmd.stepNow = none) :=
  ⟨⟨withUpd (up []) fun x => { x with journal := [(1, journalA 2)], arms := [armA] }, 1, 0, [], armA, by decide +kernel⟩,
   ⟨withUpd (up []) fun x => { x with journal := [(1, journalA 3)], arms := [armA] }, 1, 0, [], armA, by decide +kernel⟩,
   ⟨withUpd (up []) fun x => { x with journal := [(1, journalA 5)], arms := [armA] }, 1, 0, [], armA, by decide +kernel⟩,
   ⟨withUpd (up []) fun x => { x with journal := [(1, journalA 1)], arms := [armA] }, 1, 0, [], armA, by decide +kernel⟩,
   ⟨up [], 1, 0, [], by decide +kernel⟩,
   ⟨withUpd (up []) fun x => { x with journal := [(1, journalA 3)], arms := [armA] }, 1, armA, by decide +kernel⟩,
   ⟨withTier (withUpd (up []) fun x => { x with maps := [(16, { rule := 0, wcFmt := 0, stateH := 5, tiles := 1, gradH := 0, wcH := 0, wScale := 0, mScale := 0, vScale := 0, wcScale := 0 })], journal := [(1, journalA 3)], arms := [armA] }) fun x => { x with regions := [(5, { regionA 0 .t1 with size := 8, pages := [(0, { pageA .t1 with move := some (moveA .t1) })] })] }, 1, armA, by decide +kernel⟩,
   ⟨up [], 1, by decide +kernel⟩,
   ⟨withUpd (up []) fun x => { x with journal := [(1, journalA 3)], arms := [armA] }, 1, armA, by decide +kernel⟩,
   ⟨up [], by decide +kernel⟩,
   ⟨up [(Obj.powerState, 2)], by decide +kernel⟩,
   ⟨(let s := withUpd (up []) fun x => { x with maps := [(16, { rule := 0, wcFmt := 0, stateH := 0, tiles := 0, gradH := 0, wcH := 0, wScale := 0, mScale := 0, vScale := 0, wcScale := 0 })], waitFrom := some 0 }; { s with now := 100000000000, cmd := { s.cmd with stepNow := some 1 } }), 1, 1, 0, by decide +kernel⟩,
   ⟨{ up [] with cmd := { (up []).cmd with stepNow := some 1 } }, 1, by decide +kernel⟩,
   ⟨up [], by decide +kernel⟩⟩

/-- States that meet the hypotheses of StepsCommit, one for each clause. -/
theorem test_hypotheses_StepsCommit :
    (∃ (s : State) (n : Nat), s.cmd.stepNow = some n ∧ s.commitReady n = true ∧ (∀ x ∈ s.staged ++ s.prep, x.1 ≠ Obj.lastCommittedStep)) ∧
    (∃ (s : State) (n : Nat), s.cmd.stepNow = some n ∧ s.commitReady n = false) ∧
    (∃ (s : State), s.cmd.stepNow = none) :=
  ⟨⟨{ upA { winOf [] with steps := [1] } with cmd := { (upA { winOf [] with steps := [1] }).cmd with stepNow := some 1 } }, 1, by decide +kernel⟩,
   ⟨{ up [(Obj.powerState, 2)] with cmd := { (up []).cmd with stepNow := some 1 }, coll := { (up []).coll with compare := some { step := 0, start := 0, own := 0, copies := [], twin := none, twinLate := false, told := false } } }, 1, by decide +kernel⟩,
   ⟨up [], by decide +kernel⟩⟩

/-- States that meet the hypotheses of ModeRecordsAndVerdicts, one for each clause. -/
theorem test_hypotheses_ModeRecordsAndVerdicts :
    (∃ (s : State) (w : Fin 8) (q : Nat) (e : QEntry), s.entry w q = some e ∧ e.disp = true ∧ e.unit = false ∧ e.skip = false ∧ Rec.kind e.raw = 10 ∧ Rec.op e.raw = 0 ∧ s.coll.prepare = none) ∧
    (∃ (s : State) (w : Fin 8) (q : Nat) (e : QEntry), s.entry w q = some e ∧ e.disp = true ∧ e.unit = false ∧ e.skip = false ∧ Rec.kind e.raw = 10 ∧ Rec.op e.raw = 0 ∧ s.coll.prepare.isSome = true) ∧
    (∃ (s : State) (w : Fin 8) (q : Nat) (e : QEntry), s.entry w q = some e ∧ e.disp = true ∧ e.unit = false ∧ e.skip = false ∧ Rec.kind e.raw = 10 ∧ Rec.op e.raw = 1 ∧ s.coll.prepare = none) ∧
    (∃ (s : State) (w : Fin 8) (q : Nat) (e : QEntry) (p : Prepare), s.entry w q = some e ∧ e.disp = true ∧ e.unit = false ∧ e.skip = false ∧ Rec.kind e.raw = 10 ∧ Rec.op e.raw = 1 ∧ s.coll.prepare = some p) ∧
    (∃ (s : State) (c : Compare) (v : Nat), s.coll.compare = some c ∧ c.told = false ∧ s.copiesIn c = true ∧ majority (s.copiesOf c) = some v ∧ (c.copies.filter fun x => some x.2.1 != some v && s.isMember x.1) = [] ∧ (c.copies.any fun x => x.2.1 == v && s.isMember x.1) = true ∧ ((∀ x ∈ s.copiesOf c, x = v) ∨ 3 ≤ (s.copiesOf c).length)) ∧
    (∃ (s : State) (c : Compare), s.coll.compare = some c ∧ c.told = false ∧ s.copiesIn c = true ∧ majority (s.copiesOf c) = none) ∧
    (∃ (s : State) (c : Compare) (v : Nat), s.coll.compare = some c ∧ c.told = false ∧ s.copiesIn c = true ∧ majority (s.copiesOf c) = some v ∧ (c.copies.any fun x => x.2.1 == v && s.isMember x.1) = true ∧ ((c.copies.filter fun x => some x.2.1 != majority (s.copiesOf c) && s.isMember x.1).map Prod.fst) ≠ [] ∧ 3 ≤ (s.copiesOf c).length ∧ (((c.copies.filter fun x => some x.2.1 != majority (s.copiesOf c) && s.isMember x.1).map Prod.fst).contains s.ownModule = false ∨ s.coll.early = [])) ∧
    (∃ (s : State) (c : Compare), s.coll.compare = some c ∧ (c.told = true ∨ s.copiesIn c = false)) ∧
    (∃ (s : State), s.coll.compare = none) ∧
    (∃ (s : State) (w : Fin 8) (q : Nat), (s.entry w q).all (fun e => !(e.disp && !e.unit && !e.skip && Rec.kind e.raw == 10 && Rec.op e.raw == 0)) = true) ∧
    (∃ (s : State) (w : Fin 8) (q : Nat), (s.entry w q).all (fun e => !(e.disp && !e.unit && !e.skip && Rec.kind e.raw == 10 && Rec.op e.raw == 1)) = true) :=
  ⟨⟨upRec (kindRec 10 [(1, 32, 32, 6), (2, 0, 64, 7)]), 0, 0, entOf (kindRec 10 [(1, 32, 32, 6), (2, 0, 64, 7)]) 0 true, by decide +kernel⟩,
   ⟨(let s := upRec (kindRec 10 [(1, 32, 32, 6), (2, 0, 64, 7)]); { s with coll := { s.coll with prepare := some { win := 1, seq := 0, epoch := 1, step := 9, fwActivate := false } } }), 0, 0, entOf (kindRec 10 [(1, 32, 32, 6), (2, 0, 64, 7)]) 0 true, by decide +kernel⟩,
   ⟨upRec (kindRec 10 [(0, 60, 4, 1)]), 0, 0, entOf (kindRec 10 [(0, 60, 4, 1)]) 0 true, by decide +kernel⟩,
   ⟨(let s := upRec (kindRec 10 [(0, 60, 4, 1)]); { s with coll := { s.coll with prepare := some { win := 1, seq := 0, epoch := 1, step := 9, fwActivate := false } } }), 0, 0, entOf (kindRec 10 [(0, 60, 4, 1)]) 0 true, { win := 1, seq := 0, epoch := 1, step := 9, fwActivate := false }, by decide +kernel⟩,
   ⟨withColl grpA fun x => { x with compare := some (compareA 5 5) }, compareA 5 5, 5, by decide +kernel⟩,
   ⟨withColl grpA fun x => { x with compare := some (compareA 5 6) }, compareA 5 6, by decide +kernel⟩,
   ⟨withColl (grpA.wr Obj.groupMembers 26) fun x => { x with compare := some { compareA 5 5 with copies := [(1, (5, none)), (3, (5, none)), (4, (6, none))] } }, { compareA 5 5 with copies := [(1, (5, none)), (3, (5, none)), (4, (6, none))] }, 5, by decide +kernel⟩,
   ⟨withColl grpA fun x => { x with compare := some { compareA 5 5 with copies := [(1, (5, none))] } }, { compareA 5 5 with copies := [(1, (5, none))] }, by decide +kernel⟩,
   ⟨grpA, by decide +kernel⟩,
   ⟨State.reset, 0, 0, by decide +kernel⟩,
   ⟨State.reset, 0, 0, by decide +kernel⟩⟩

/-- States that meet the hypotheses of CollectiveRecordsStart, one for each clause. -/
theorem test_hypotheses_CollectiveRecordsStart :
    (∃ (s : State) (w : Fin 8) (q : Nat) (e : QEntry), s.entry w q = some e ∧ e.disp = true ∧ e.unit = false ∧ e.skip = false ∧ Rec.kind e.raw = 6 ∧ Rec.op e.raw = 0 ∧ (s.epochWait (e.step.getD 0)).2 = true) ∧
    (∃ (s : State) (w : Fin 8) (q : Nat) (e : QEntry), s.entry w q = some e ∧ e.disp = true ∧ e.unit = false ∧ e.skip = false ∧ Rec.kind e.raw = 6 ∧ Rec.op e.raw = 0 ∧ (s.epochWait (e.step.getD 0)).2 = false) ∧
    (∃ (s : State) (w : Fin 8) (q : Nat) (e : QEntry) (x : Span), s.entry w q = some e ∧ e.disp = true ∧ e.unit = false ∧ e.skip = false ∧ Rec.kind e.raw = 6 ∧ Rec.op e.raw = 1 ∧ (s.epochWait (e.step.getD 0)).2 = true ∧ s.spans.find (coOf e.raw).span = some x ∧ (s.running.any fun p => Rec.kind p.2.raw == 1 && !p.2.skip && decide (p.2.order < e.order) && (mxOf p.2.raw).dest == 2 && (mxOf p.2.raw).oOff % 1024 == (coOf e.raw).span) = false ∧ s.job (recKey w q) = none) ∧
    (∃ (s : State) (w : Fin 8) (q : Nat) (e : QEntry), s.entry w q = some e ∧ e.disp = true ∧ e.unit = false ∧ e.skip = false ∧ Rec.kind e.raw = 6 ∧ Rec.op e.raw = 1 ∧ (s.epochWait (e.step.getD 0)).2 = true ∧ (s.spans.find (coOf e.raw).span = none ∨ (s.running.any fun p => Rec.kind p.2.raw == 1 && !p.2.skip && decide (p.2.order < e.order) && (mxOf p.2.raw).dest == 2 && (mxOf p.2.raw).oOff % 1024 == (coOf e.raw).span) = true ∨ (s.job (recKey w q)).isSome = true)) ∧
    (∃ (s : State) (w : Fin 8) (q : Nat) (e : QEntry), s.entry w q = some e ∧ e.disp = true ∧ e.unit = false ∧ e.skip = false ∧ Rec.kind e.raw = 6 ∧ Rec.op e.raw = 1 ∧ (s.epochWait (e.step.getD 0)).2 = false) ∧
    (∃ (s : State) (w : Fin 8) (q : Nat) (e : QEntry), s.entry w q = some e ∧ e.disp = true ∧ e.unit = false ∧ e.skip = false ∧ Rec.kind e.raw = 6 ∧ Rec.op e.raw = 2 ∧ (s.epochWait (e.step.getD 0)).2 = true ∧ s.job (recKey w q) = none ∧ ((if (coOf e.raw).root = 0x1FF ∨ (coOf e.raw).root = (s.epochWait (e.step.getD 0)).1.ownRank then (s.epochWait (e.step.getD 0)).1.access (recKey w q) 1 (coOf e.raw).srcH (pagesOf (coOf e.raw).srcOff (coOf e.raw).part) else ((s.epochWait (e.step.getD 0)).1, .ready)).2 = .ready) ∧ (((if (coOf e.raw).root = 0x1FF ∨ (coOf e.raw).root = (s.epochWait (e.step.getD 0)).1.ownRank then (s.epochWait (e.step.getD 0)).1.access (recKey w q) 1 (coOf e.raw).srcH (pagesOf (coOf e.raw).srcOff (coOf e.raw).part) else ((s.epochWait (e.step.getD 0)).1, .ready)).1.access (recKey w q) 1 (coOf e.raw).gDstH (pagesOf (coOf e.raw).gDstOff ((coOf e.raw).part * ((coOf e.raw).senders (if (coOf e.raw).root = 0x1FF ∨ (coOf e.raw).root = (s.epochWait (e.step.getD 0)).1.ownRank then (s.epochWait (e.step.getD 0)).1.access (recKey w q) 1 (coOf e.raw).srcH (pagesOf (coOf e.raw).srcOff (coOf e.raw).part) else ((s.epochWait (e.step.getD 0)).1, .ready)).1.groupN).length))).2 = .ready) ∧ (coOf e.raw).part = 0) ∧
    (∃ (s : State) (w : Fin 8) (q : Nat) (e : QEntry), s.entry w q = some e ∧ e.disp = true ∧ e.unit = false ∧ e.skip = false ∧ Rec.kind e.raw = 6 ∧ Rec.op e.raw = 2 ∧ (s.epochWait (e.step.getD 0)).2 = true ∧ s.job (recKey w q) = none ∧ ((if (coOf e.raw).root = 0x1FF ∨ (coOf e.raw).root = (s.epochWait (e.step.getD 0)).1.ownRank then (s.epochWait (e.step.getD 0)).1.access (recKey w q) 1 (coOf e.raw).srcH (pagesOf (coOf e.raw).srcOff (coOf e.raw).part) else ((s.epochWait (e.step.getD 0)).1, .ready)).2 = .ready) ∧ (((if (coOf e.raw).root = 0x1FF ∨ (coOf e.raw).root = (s.epochWait (e.step.getD 0)).1.ownRank then (s.epochWait (e.step.getD 0)).1.access (recKey w q) 1 (coOf e.raw).srcH (pagesOf (coOf e.raw).srcOff (coOf e.raw).part) else ((s.epochWait (e.step.getD 0)).1, .ready)).1.access (recKey w q) 1 (coOf e.raw).gDstH (pagesOf (coOf e.raw).gDstOff ((coOf e.raw).part * ((coOf e.raw).senders (if (coOf e.raw).root = 0x1FF ∨ (coOf e.raw).root = (s.epochWait (e.step.getD 0)).1.ownRank then (s.epochWait (e.step.getD 0)).1.access (recKey w q) 1 (coOf e.raw).srcH (pagesOf (coOf e.raw).srcOff (coOf e.raw).part) else ((s.epochWait (e.step.getD 0)).1, .ready)).1.groupN).length))).2 = .ready) ∧ (coOf e.raw).part ≠ 0) ∧
    (∃ (s : State) (w : Fin 8) (q : Nat) (e : QEntry), s.entry w q = some e ∧ e.disp = true ∧ e.unit = false ∧ e.skip = false ∧ Rec.kind e.raw = 6 ∧ Rec.op e.raw = 2 ∧ (s.epochWait (e.step.getD 0)).2 = true ∧ ((if (coOf e.raw).root = 0x1FF ∨ (coOf e.raw).root = (s.epochWait (e.step.getD 0)).1.ownRank then (s.epochWait (e.step.getD 0)).1.access (recKey w q) 1 (coOf e.raw).srcH (pagesOf (coOf e.raw).srcOff (coOf e.raw).part) else ((s.epochWait (e.step.getD 0)).1, .ready)).2 = .waiting ∨ ((if (coOf e.raw).root = 0x1FF ∨ (coOf e.raw).root = (s.epochWait (e.step.getD 0)).1.ownRank then (s.epochWait (e.step.getD 0)).1.access (recKey w q) 1 (coOf e.raw).srcH (pagesOf (coOf e.raw).srcOff (coOf e.raw).part) else ((s.epochWait (e.step.getD 0)).1, .ready)).1.access (recKey w q) 1 (coOf e.raw).gDstH (pagesOf (coOf e.raw).gDstOff ((coOf e.raw).part * ((coOf e.raw).senders (if (coOf e.raw).root = 0x1FF ∨ (coOf e.raw).root = (s.epochWait (e.step.getD 0)).1.ownRank then (s.epochWait (e.step.getD 0)).1.access (recKey w q) 1 (coOf e.raw).srcH (pagesOf (coOf e.raw).srcOff (coOf e.raw).part) else ((s.epochWait (e.step.getD 0)).1, .ready)).1.groupN).length))).2 = .waiting ∨ (s.job (recKey w q)).isSome = true)) ∧
    (∃ (s : State) (w : Fin 8) (q : Nat) (e : QEntry), s.entry w q = some e ∧ e.disp = true ∧ e.unit = false ∧ e.skip = false ∧ Rec.kind e.raw = 6 ∧ Rec.op e.raw = 2 ∧ (s.epochWait (e.step.getD 0)).2 = false) ∧
    (∃ (s : State) (w : Fin 8) (q : Nat) (e : QEntry), s.entry w q = some e ∧ e.disp = true ∧ e.unit = false ∧ e.skip = false ∧ Rec.kind e.raw = 6 ∧ Rec.op e.raw = 3 ∧ (s.epochWait (e.step.getD 0)).2 = true ∧ s.job (recKey w q) = none) ∧
    (∃ (s : State) (w : Fin 8) (q : Nat) (e : QEntry), s.entry w q = some e ∧ e.disp = true ∧ e.unit = false ∧ e.skip = false ∧ Rec.kind e.raw = 6 ∧ Rec.op e.raw = 3 ∧ (s.epochWait (e.step.getD 0)).2 = true ∧ (s.job (recKey w q)).isSome = true) ∧
    (∃ (s : State) (w : Fin 8) (q : Nat) (e : QEntry), s.entry w q = some e ∧ e.disp = true ∧ e.unit = false ∧ e.skip = false ∧ Rec.kind e.raw = 6 ∧ Rec.op e.raw = 3 ∧ (s.epochWait (e.step.getD 0)).2 = false) ∧
    (∃ (s : State) (w : Fin 8) (q : Nat) (e : QEntry), s.entry w q = some e ∧ e.disp = true ∧ e.unit = false ∧ e.skip = false ∧ Rec.kind e.raw = 6 ∧ Rec.op e.raw = 4 ∧ (s.epochWait (e.step.getD 0)).2 = true ∧ s.job (recKey w q) = none) ∧
    (∃ (s : State) (w : Fin 8) (q : Nat) (e : QEntry), s.entry w q = some e ∧ e.disp = true ∧ e.unit = false ∧ e.skip = false ∧ Rec.kind e.raw = 6 ∧ Rec.op e.raw = 4 ∧ (s.epochWait (e.step.getD 0)).2 = true ∧ (s.job (recKey w q)).isSome = true) ∧
    (∃ (s : State) (w : Fin 8) (q : Nat) (e : QEntry), s.entry w q = some e ∧ e.disp = true ∧ e.unit = false ∧ e.skip = false ∧ Rec.kind e.raw = 6 ∧ Rec.op e.raw = 4 ∧ (s.epochWait (e.step.getD 0)).2 = false) ∧
    (∃ (s : State), 1024 ≤ s.bufferPages.length) ∧
    (∃ (s : State), s.bufferPages.length < 1024) ∧
    (∃ (s : State) (w : Fin 8) (q : Nat), (s.entry w q).all (fun e => !(e.disp && !e.unit && !e.skip && Rec.kind e.raw == 6 && Rec.op e.raw == 0)) = true) ∧
    (∃ (s : State) (w : Fin 8) (q : Nat), (s.entry w q).all (fun e => !(e.disp && !e.unit && !e.skip && Rec.kind e.raw == 6 && Rec.op e.raw == 1)) = true) ∧
    (∃ (s : State) (w : Fin 8) (q : Nat), (s.entry w q).all (fun e => !(e.disp && !e.unit && !e.skip && Rec.kind e.raw == 6 && Rec.op e.raw == 2)) = true) ∧
    (∃ (s : State) (w : Fin 8) (q : Nat), (s.entry w q).all (fun e => !(e.disp && !e.unit && !e.skip && Rec.kind e.raw == 6 && Rec.op e.raw == 3)) = true) ∧
    (∃ (s : State) (w : Fin 8) (q : Nat), (s.entry w q).all (fun e => !(e.disp && !e.unit && !e.skip && Rec.kind e.raw == 6 && Rec.op e.raw == 4)) = true) :=
  ⟨⟨grpRec (kindRec 6 [(0, 40, 10, 3), (1, 32, 32, 2), (1, 16, 16, 0x3F80)]), 0, 0, entOf (kindRec 6 [(0, 40, 10, 3), (1, 32, 32, 2), (1, 16, 16, 0x3F80)]) 0 true, by decide +kernel⟩,
   ⟨withColl (grpRec (kindRec 6 [(0, 40, 10, 3), (1, 32, 32, 2), (1, 16, 16, 0x3F80)])) fun x => { x with agreedFor := none }, 0, 0, entOf (kindRec 6 [(0, 40, 10, 3), (1, 32, 32, 2), (1, 16, 16, 0x3F80)]) 0 true, by decide +kernel⟩,
   ⟨{ grpRec (kindRec 6 [(0, 60, 4, 1), (0, 40, 10, 3), (2, 0, 16, 0x3F80), (1, 16, 16, 0x3F80)]) with spans := [(3, spanA)] }, 0, 0, entOf (kindRec 6 [(0, 60, 4, 1), (0, 40, 10, 3), (2, 0, 16, 0x3F80), (1, 16, 16, 0x3F80)]) 0 true, spanA, by decide +kernel⟩,
   ⟨grpRec (kindRec 6 [(0, 60, 4, 1), (0, 40, 10, 3), (2, 0, 16, 0x3F80), (1, 16, 16, 0x3F80)]), 0, 0, entOf (kindRec 6 [(0, 60, 4, 1), (0, 40, 10, 3), (2, 0, 16, 0x3F80), (1, 16, 16, 0x3F80)]) 0 true, by decide +kernel⟩,
   ⟨withColl (grpRec (kindRec 6 [(0, 60, 4, 1), (0, 40, 10, 3), (2, 0, 16, 0x3F80), (1, 16, 16, 0x3F80)])) fun x => { x with agreedFor := none }, 0, 0, entOf (kindRec 6 [(0, 60, 4, 1), (0, 40, 10, 3), (2, 0, 16, 0x3F80), (1, 16, 16, 0x3F80)]) 0 true, by decide +kernel⟩,
   ⟨grpRec (kindRec 6 [(0, 60, 4, 2), (0, 28, 9, 0x1FF)]), 0, 0, entOf (kindRec 6 [(0, 60, 4, 2), (0, 28, 9, 0x1FF)]) 0 true, by decide +kernel⟩,
   ⟨grpRec (kindRec 6 [(0, 60, 4, 2), (0, 28, 9, 0x1FF), (3, 32, 32, 1)]), 0, 0, entOf (kindRec 6 [(0, 60, 4, 2), (0, 28, 9, 0x1FF), (3, 32, 32, 1)]) 0 true, by decide +kernel⟩,
   ⟨withTier (grpRec (kindRec 6 [(0, 60, 4, 2), (0, 28, 9, 0x1FF), (1, 32, 32, 9), (3, 32, 32, 1)])) fun x => { x with regions := [(9, { regionA 7 .t1 with pages := [(0, { pageA .t1 with move := some (moveA .t2) })] })] }, 0, 0, entOf (kindRec 6 [(0, 60, 4, 2), (0, 28, 9, 0x1FF), (1, 32, 32, 9), (3, 32, 32, 1)]) 0 true, by decide +kernel⟩,
   ⟨withColl (grpRec (kindRec 6 [(0, 60, 4, 2), (0, 28, 9, 0x1FF)])) fun x => { x with agreedFor := none }, 0, 0, entOf (kindRec 6 [(0, 60, 4, 2), (0, 28, 9, 0x1FF)]) 0 true, by decide +kernel⟩,
   ⟨grpRec (kindRec 6 [(0, 60, 4, 3), (1, 26, 8, 1)]), 0, 0, entOf (kindRec 6 [(0, 60, 4, 3), (1, 26, 8, 1)]) 0 true, by decide +kernel⟩,
   ⟨withJob (grpRec (kindRec 6 [(0, 60, 4, 3), (1, 26, 8, 1)])) (jobA 3 (kindRec 6 [(0, 60, 4, 3), (1, 26, 8, 1)])), 0, 0, entOf (kindRec 6 [(0, 60, 4, 3), (1, 26, 8, 1)]) 0 true, by decide +kernel⟩,
   ⟨withColl (grpRec (kindRec 6 [(0, 60, 4, 3), (1, 26, 8, 1)])) fun x => { x with agreedFor := none }, 0, 0, entOf (kindRec 6 [(0, 60, 4, 3), (1, 26, 8, 1)]) 0 true, by decide +kernel⟩,
   ⟨grpRec (kindRec 6 [(0, 60, 4, 4), (1, 26, 8, 1)]), 0, 0, entOf (kindRec 6 [(0, 60, 4, 4), (1, 26, 8, 1)]) 0 true, by decide +kernel⟩,
   ⟨withJob (grpRec (kindRec 6 [(0, 60, 4, 4), (1, 26, 8, 1)])) (jobA 4 (kindRec 6 [(0, 60, 4, 4), (1, 26, 8, 1)])), 0, 0, entOf (kindRec 6 [(0, 60, 4, 4), (1, 26, 8, 1)]) 0 true, by decide +kernel⟩,
   ⟨withColl (grpRec (kindRec 6 [(0, 60, 4, 4), (1, 26, 8, 1)])) fun x => { x with agreedFor := none }, 0, 0, entOf (kindRec 6 [(0, 60, 4, 4), (1, 26, 8, 1)]) 0 true, by decide +kernel⟩,
   ⟨{ up [] with spans := [(3, { spanA with touched := (List.range 1024).map fun i => (i, 2000 - i) })] }, by decide +kernel⟩,
   ⟨up [], by decide +kernel⟩,
   ⟨State.reset, 0, 0, by decide +kernel⟩,
   ⟨State.reset, 0, 0, by decide +kernel⟩,
   ⟨State.reset, 0, 0, by decide +kernel⟩,
   ⟨State.reset, 0, 0, by decide +kernel⟩,
   ⟨State.reset, 0, 0, by decide +kernel⟩⟩

/-- States that meet the hypotheses of CollectiveMessagesAreTaken, one for each clause. -/
theorem test_hypotheses_CollectiveMessagesAreTaken :
    (∃ (s : State) (m : Msg) (key : Nat) (j : Job), s.fromMember m = true ∧ m.step = s.abortTarget ∧ m.epoch = s.rd Obj.modeEpoch ∧ m.digest = s.modeCrc ∧ s.jobOf { m with mtype := 0x10 } = some key ∧ s.job key = some j ∧ m.index < 0xFFFF0000 ∧ m.index < j.nChunks ∧ hasBit (j.chunk m.index).expGot (s.rankOf m.src) = false) ∧
    (∃ (s : State) (m : Msg) (key : Nat) (j : Job), s.fromMember m = true ∧ m.step = s.abortTarget ∧ m.epoch = s.rd Obj.modeEpoch ∧ m.digest = s.modeCrc ∧ s.jobOf { m with mtype := 0x10 } = some key ∧ s.job key = some j ∧ m.index < 0xFFFF0000 ∧ hasBit (j.chunk m.index).expGot (s.rankOf m.src) = true) ∧
    (∃ (s : State) (m : Msg) (key : Nat) (j : Job), s.fromMember m = true ∧ m.step = s.abortTarget ∧ m.epoch = s.rd Obj.modeEpoch ∧ m.digest = s.modeCrc ∧ s.jobOf { m with mtype := 0x10 } = some key ∧ s.job key = some j ∧ 0xFFFF0000 ≤ m.index ∧ hasBit j.heard (s.rankOf m.src) = false) ∧
    (∃ (s : State) (m : Msg) (key : Nat) (j : Job), s.fromMember m = true ∧ m.step = s.abortTarget ∧ m.epoch = s.rd Obj.modeEpoch ∧ m.digest = s.modeCrc ∧ s.jobOf { m with mtype := 0x10 } = some key ∧ s.job key = some j ∧ 0xFFFF0000 ≤ m.index ∧ hasBit j.heard (s.rankOf m.src) = true) ∧
    (∃ (s : State) (m : Msg) (key : Nat) (j : Job), s.fromMember m = true ∧ m.step = s.abortTarget ∧ m.epoch = s.rd Obj.modeEpoch ∧ m.digest = s.modeCrc ∧ s.jobOf { m with mtype := 0x11 } = some key ∧ s.job key = some j ∧ m.index < 0xFFFF0000 ∧ m.index < j.nChunks) ∧
    (∃ (s : State) (m : Msg) (key : Nat) (j : Job), s.fromMember m = true ∧ m.step = s.abortTarget ∧ m.epoch = s.rd Obj.modeEpoch ∧ m.digest = s.modeCrc ∧ s.jobOf { m with mtype := 0x11 } = some key ∧ s.job key = some j ∧ 0xFFFF0000 ≤ m.index) ∧
    (∃ (s : State) (m : Msg) (key : Nat) (j : Job), s.fromMember m = true ∧ m.step = s.abortTarget ∧ m.epoch = s.rd Obj.modeEpoch ∧ m.digest = s.modeCrc ∧ s.jobOf { m with mtype := 0x12 } = some key ∧ s.job key = some j ∧ m.index < 0xFFFF0000 ∧ hasBit (j.chunk m.index).ranks (s.rankOf m.src) = false) ∧
    (∃ (s : State) (m : Msg) (key : Nat) (j : Job), s.fromMember m = true ∧ m.step = s.abortTarget ∧ m.epoch = s.rd Obj.modeEpoch ∧ m.digest = s.modeCrc ∧ s.jobOf { m with mtype := 0x12 } = some key ∧ s.job key = some j ∧ hasBit (j.chunk m.index).ranks (s.rankOf m.src) = true) ∧
    (∃ (s : State) (m : Msg) (key : Nat) (j : Job), s.fromMember m = true ∧ m.step = s.abortTarget ∧ m.epoch = s.rd Obj.modeEpoch ∧ m.digest = s.modeCrc ∧ s.jobOf { m with mtype := 0x13 } = some key ∧ s.job key = some j ∧ (coOf j.raw).rfmt ≠ 1 ∧ (j.chunk m.index).landed = false ∧ hasBit (j.chunk m.index).parts 0 = false) ∧
    (∃ (s : State) (m : Msg) (key : Nat) (j : Job), s.fromMember m = true ∧ m.step = s.abortTarget ∧ m.epoch = s.rd Obj.modeEpoch ∧ m.digest = s.modeCrc ∧ s.jobOf { m with mtype := 0x13 } = some key ∧ s.job key = some j ∧ (coOf j.raw).rfmt = 1 ∧ (j.chunk (m.index / 2)).landed = false ∧ hasBit (j.chunk (m.index / 2)).parts (m.index % 2) = false) ∧
    (∃ (s : State) (m : Msg) (key : Nat) (j : Job), s.fromMember m = true ∧ m.step = s.abortTarget ∧ m.epoch = s.rd Obj.modeEpoch ∧ m.digest = s.modeCrc ∧ s.jobOf { m with mtype := 0x13 } = some key ∧ s.job key = some j ∧ (((coOf j.raw).rfmt ≠ 1 ∧ ((j.chunk m.index).landed = true ∨ hasBit (j.chunk m.index).parts 0 = true)) ∨ ((coOf j.raw).rfmt = 1 ∧ ((j.chunk (m.index / 2)).landed = true ∨ hasBit (j.chunk (m.index / 2)).parts (m.index % 2) = true)))) ∧
    (∃ (s : State) (m : Msg) (key : Nat) (j : Job), s.fromMember m = true ∧ m.step = s.abortTarget ∧ m.epoch = s.rd Obj.modeEpoch ∧ m.digest = s.modeCrc ∧ s.jobOf { m with mtype := 0x15 } = some key ∧ s.job key = some j ∧ j.inputs.find ((s.rankOf m.src) * 2 ^ 20 + m.index % 2 ^ 20) = none ∧ (s.writable key ((pagesOf ((coOf j.raw).gDstOff + (if (coOf j.raw).root = 0x1FF then ((s.rankOf m.src) * 2 ^ 20 + m.index % 2 ^ 20) / 2 ^ 20 * (coOf j.raw).part else 0) + 7896 * (((s.rankOf m.src) * 2 ^ 20 + m.index % 2 ^ 20) % 2 ^ 20)) m.body.length).map fun p => ((coOf j.raw).gDstH, p))).2 = true) ∧
    (∃ (s : State) (m : Msg) (key : Nat) (j : Job), s.fromMember m = true ∧ m.step = s.abortTarget ∧ m.epoch = s.rd Obj.modeEpoch ∧ m.digest = s.modeCrc ∧ s.jobOf { m with mtype := 0x15 } = some key ∧ s.job key = some j ∧ j.inputs.find ((s.rankOf m.src) * 2 ^ 20 + m.index % 2 ^ 20) = none ∧ (s.writable key ((pagesOf ((coOf j.raw).gDstOff + (if (coOf j.raw).root = 0x1FF then ((s.rankOf m.src) * 2 ^ 20 + m.index % 2 ^ 20) / 2 ^ 20 * (coOf j.raw).part else 0) + 7896 * (((s.rankOf m.src) * 2 ^ 20 + m.index % 2 ^ 20) % 2 ^ 20)) m.body.length).map fun p => ((coOf j.raw).gDstH, p))).2 = false ∧ m.body ≠ []) ∧
    (∃ (s : State) (m : Msg) (key : Nat) (j : Job), s.fromMember m = true ∧ m.step = s.abortTarget ∧ m.epoch = s.rd Obj.modeEpoch ∧ m.digest = s.modeCrc ∧ s.jobOf { m with mtype := 0x15 } = some key ∧ s.job key = some j ∧ (j.inputs.find ((s.rankOf m.src) * 2 ^ 20 + m.index % 2 ^ 20)).isSome = true) ∧
    (∃ (s : State) (m : Msg) (key : Nat) (j : Job), s.fromMember m = true ∧ m.step = s.abortTarget ∧ m.epoch = s.rd Obj.modeEpoch ∧ m.digest = s.modeCrc ∧ s.jobOf { m with mtype := 0x16 } = some key ∧ s.job key = some j ∧ m.index % 65536 = 0 ∧ hasBit j.heard (s.rankOf m.src) = false) ∧
    (∃ (s : State) (m : Msg) (key : Nat) (j : Job), s.fromMember m = true ∧ m.step = s.abortTarget ∧ m.epoch = s.rd Obj.modeEpoch ∧ m.digest = s.modeCrc ∧ s.jobOf { m with mtype := 0x16 } = some key ∧ s.job key = some j ∧ m.index % 65536 ≠ 0 ∧ j.countIn.find (512 * (m.index % 65536 - 1) + (s.rankOf m.src)) = none) ∧
    (∃ (s : State) (m : Msg) (key : Nat) (j : Job), s.fromMember m = true ∧ m.step = s.abortTarget ∧ m.epoch = s.rd Obj.modeEpoch ∧ m.digest = s.modeCrc ∧ s.jobOf { m with mtype := 0x16 } = some key ∧ s.job key = some j ∧ ((m.index % 65536 = 0 ∧ hasBit j.heard (s.rankOf m.src) = true) ∨ (m.index % 65536 ≠ 0 ∧ (j.countIn.find (512 * (m.index % 65536 - 1) + (s.rankOf m.src))).isSome = true))) ∧
    (∃ (s : State) (m : Msg) (key : Nat) (j : Job), s.fromMember m = true ∧ m.step = s.abortTarget ∧ m.epoch = s.rd Obj.modeEpoch ∧ m.digest = s.modeCrc ∧ s.jobOf { m with mtype := 0x17 } = some key ∧ s.job key = some j ∧ m.index % 65536 = 0 ∧ j.result = none) ∧
    (∃ (s : State) (m : Msg) (key : Nat) (j : Job), s.fromMember m = true ∧ m.step = s.abortTarget ∧ m.epoch = s.rd Obj.modeEpoch ∧ m.digest = s.modeCrc ∧ s.jobOf { m with mtype := 0x17 } = some key ∧ s.job key = some j ∧ m.index % 65536 ≠ 0 ∧ j.countOut.find (m.index % 65536 - 1) = none) ∧
    (∃ (s : State) (m : Msg) (key : Nat) (j : Job), s.fromMember m = true ∧ m.step = s.abortTarget ∧ m.epoch = s.rd Obj.modeEpoch ∧ m.digest = s.modeCrc ∧ s.jobOf { m with mtype := 0x17 } = some key ∧ s.job key = some j ∧ ((m.index % 65536 = 0 ∧ j.result.isSome = true) ∨ (m.index % 65536 ≠ 0 ∧ (j.countOut.find (m.index % 65536 - 1)).isSome = true))) ∧
    (∃ (s : State) (m : Msg), (s.fromMember m = false ∨ (m.step ≠ s.abortTarget ∧ m.step ≠ s.abortTarget + 1))) ∧
    (∃ (s : State) (m : Msg), s.fromMember m = true ∧ m.step = s.abortTarget + 1) ∧
    (∃ (s : State) (m : Msg), s.fromMember m = true ∧ m.step = s.abortTarget ∧ m.epoch ≠ s.rd Obj.modeEpoch) ∧
    (∃ (s : State) (m : Msg), s.fromMember m = true ∧ m.step = s.abortTarget ∧ m.epoch = s.rd Obj.modeEpoch ∧ m.digest = s.modeCrc ∧ s.jobOf { m with mtype := 0x10 } = none) ∧
    (∃ (s : State) (m : Msg), (s.fromMember m = false ∨ (m.step ≠ s.abortTarget ∧ m.step ≠ s.abortTarget + 1))) ∧
    (∃ (s : State) (m : Msg), s.fromMember m = true ∧ m.step = s.abortTarget + 1) ∧
    (∃ (s : State) (m : Msg), s.fromMember m = true ∧ m.step = s.abortTarget ∧ m.epoch ≠ s.rd Obj.modeEpoch) ∧
    (∃ (s : State) (m : Msg), s.fromMember m = true ∧ m.step = s.abortTarget ∧ m.epoch = s.rd Obj.modeEpoch ∧ m.digest = s.modeCrc ∧ s.jobOf { m with mtype := 0x11 } = none) ∧
    (∃ (s : State) (m : Msg), (s.fromMember m = false ∨ (m.step ≠ s.abortTarget ∧ m.step ≠ s.abortTarget + 1))) ∧
    (∃ (s : State) (m : Msg), s.fromMember m = true ∧ m.step = s.abortTarget + 1) ∧
    (∃ (s : State) (m : Msg), s.fromMember m = true ∧ m.step = s.abortTarget ∧ m.epoch ≠ s.rd Obj.modeEpoch) ∧
    (∃ (s : State) (m : Msg), s.fromMember m = true ∧ m.step = s.abortTarget ∧ m.epoch = s.rd Obj.modeEpoch ∧ m.digest = s.modeCrc ∧ s.jobOf { m with mtype := 0x12 } = none) ∧
    (∃ (s : State) (m : Msg), (s.fromMember m = false ∨ (m.step ≠ s.abortTarget ∧ m.step ≠ s.abortTarget + 1))) ∧
    (∃ (s : State) (m : Msg), s.fromMember m = true ∧ m.step = s.abortTarget + 1) ∧
    (∃ (s : State) (m : Msg), s.fromMember m = true ∧ m.step = s.abortTarget ∧ m.epoch ≠ s.rd Obj.modeEpoch) ∧
    (∃ (s : State) (m : Msg), s.fromMember m = true ∧ m.step = s.abortTarget ∧ m.epoch = s.rd Obj.modeEpoch ∧ m.digest = s.modeCrc ∧ s.jobOf { m with mtype := 0x13 } = none) ∧
    (∃ (s : State) (m : Msg), (s.fromMember m = false ∨ (m.step ≠ s.abortTarget ∧ m.step ≠ s.abortTarget + 1))) ∧
    (∃ (s : State) (m : Msg), s.fromMember m = true ∧ m.step = s.abortTarget + 1) ∧
    (∃ (s : State) (m : Msg), s.fromMember m = true ∧ m.step = s.abortTarget ∧ m.epoch ≠ s.rd Obj.modeEpoch) ∧
    (∃ (s : State) (m : Msg), s.fromMember m = true ∧ m.step = s.abortTarget ∧ m.epoch = s.rd Obj.modeEpoch ∧ m.digest = s.modeCrc ∧ s.jobOf { m with mtype := 0x15 } = none) ∧
    (∃ (s : State) (m : Msg), (s.fromMember m = false ∨ (m.step ≠ s.abortTarget ∧ m.step ≠ s.abortTarget + 1))) ∧
    (∃ (s : State) (m : Msg), s.fromMember m = true ∧ m.step = s.abortTarget + 1) ∧
    (∃ (s : State) (m : Msg), s.fromMember m = true ∧ m.step = s.abortTarget ∧ m.epoch ≠ s.rd Obj.modeEpoch) ∧
    (∃ (s : State) (m : Msg), s.fromMember m = true ∧ m.step = s.abortTarget ∧ m.epoch = s.rd Obj.modeEpoch ∧ m.digest = s.modeCrc ∧ s.jobOf { m with mtype := 0x16 } = none) ∧
    (∃ (s : State) (m : Msg), (s.fromMember m = false ∨ (m.step ≠ s.abortTarget ∧ m.step ≠ s.abortTarget + 1))) ∧
    (∃ (s : State) (m : Msg), s.fromMember m = true ∧ m.step = s.abortTarget + 1) ∧
    (∃ (s : State) (m : Msg), s.fromMember m = true ∧ m.step = s.abortTarget ∧ m.epoch ≠ s.rd Obj.modeEpoch) ∧
    (∃ (s : State) (m : Msg), s.fromMember m = true ∧ m.step = s.abortTarget ∧ m.epoch = s.rd Obj.modeEpoch ∧ m.digest = s.modeCrc ∧ s.jobOf { m with mtype := 0x17 } = none) ∧
    (∃ (s : State) (m : Msg), s.fromMember m = true ∧ m.step = s.abortTarget ∧ m.epoch = s.rd Obj.modeEpoch ∧ m.digest = s.modeCrc) ∧
    (∃ (s : State) (m : Msg), (s.fromMember m = false ∨ m.step ≠ s.abortTarget)) ∧
    (∃ (s : State) (w : Fin 8) (q : Nat) (c : Nat) (f : Nat) (j : Job), s.job (recKey w q) = some j ∧ j.op = 1 ∧ c % s.groupN = s.ownRank ∧ (j.chunk c).firstAt = some f ∧ s.rd Obj.chunkWaitUs * us ≤ s.now - f ∧ s.rd Obj.chunkWaitUs * us ≤ s.now - (j.chunk c).askedAt ∧ (j.chunk c).ranks ≠ s.allRanks) ∧
    (∃ (s : State) (w : Fin 8) (q : Nat) (c : Nat) (f : Nat) (j : Job), s.job (recKey w q) = some j ∧ j.op = 1 ∧ c % s.groupN ≠ s.ownRank ∧ (coOf j.raw).scatter = false ∧ (j.chunk c).sentAt = some f ∧ (j.chunk c).parts ≠ (if (coOf j.raw).rfmt = 1 then 3 else 1) ∧ (j.chunk c).landed = false ∧ s.rd Obj.chunkWaitUs * us ≤ s.now - f) ∧
    (∃ (s : State) (w : Fin 8) (q : Nat) (c : Nat), s.job (recKey w q) = none) ∧
    (∃ (s : State) (w : Fin 8) (q : Nat) (c : Nat) (j : Job), s.job (recKey w q) = some j ∧ (j.op ≠ 1 ∨ c % s.groupN ≠ s.ownRank ∨ (j.chunk c).firstAt = none ∨ (j.chunk c).ranks = s.allRanks)) ∧
    (∃ (s : State) (w : Fin 8) (q : Nat) (c : Nat), s.job (recKey w q) = none) ∧
    (∃ (s : State) (w : Fin 8) (q : Nat) (c : Nat) (j : Job), s.job (recKey w q) = some j ∧ (j.op ≠ 1 ∨ c % s.groupN = s.ownRank ∨ (j.chunk c).sentAt = none ∨ (j.chunk c).landed = true)) :=
  ⟨⟨{ withJob grpA (jobA 1 (kindRec 6 [(0, 60, 4, 1), (0, 40, 10, 3), (2, 0, 16, 0x3F80), (1, 16, 16, 0x3F80)])) with spans := [(3, spanA)] }, { grpMsg 0 [5] with cid := 3 }, 0, jobA 1 (kindRec 6 [(0, 60, 4, 1), (0, 40, 10, 3), (2, 0, 16, 0x3F80), (1, 16, 16, 0x3F80)]), by decide +kernel, by decide +kernel, by decide +kernel, modeCrc_of 0 [5] rfl rfl, by decide +kernel, by decide +kernel, by decide +kernel, by decide +kernel, by decide +kernel⟩,
   ⟨{ withJob grpA ((jobA 1 (kindRec 6 [(0, 60, 4, 1), (0, 40, 10, 3), (2, 0, 16, 0x3F80), (1, 16, 16, 0x3F80)])).setChunk 0 { Chunk.fresh with expGot := 2 }) with spans := [(3, spanA)] }, { grpMsg 0 [5] with cid := 3 }, 0, (jobA 1 (kindRec 6 [(0, 60, 4, 1), (0, 40, 10, 3), (2, 0, 16, 0x3F80), (1, 16, 16, 0x3F80)])).setChunk 0 { Chunk.fresh with expGot := 2 }, by decide +kernel, by decide +kernel, by decide +kernel, modeCrc_of 0 [5] rfl rfl, by decide +kernel, by decide +kernel, by decide +kernel, by decide +kernel⟩,
   ⟨withJob grpA (jobA 3 (kindRec 6 [(0, 60, 4, 3), (0, 40, 10, 3), (2, 0, 16, 0x3F80), (1, 16, 16, 0x3F80)])), grpMsg 0xFFFF0000 [5], 0, jobA 3 (kindRec 6 [(0, 60, 4, 3), (0, 40, 10, 3), (2, 0, 16, 0x3F80), (1, 16, 16, 0x3F80)]), by decide +kernel, by decide +kernel, by decide +kernel, modeCrc_of 0xFFFF0000 [5] rfl rfl, by decide +kernel, by decide +kernel, by decide +kernel, by decide +kernel⟩,
   ⟨withJob grpA { jobA 3 (kindRec 6 [(0, 60, 4, 3), (0, 40, 10, 3), (2, 0, 16, 0x3F80), (1, 16, 16, 0x3F80)]) with heard := 2 }, grpMsg 0xFFFF0000 [5], 0, { jobA 3 (kindRec 6 [(0, 60, 4, 3), (0, 40, 10, 3), (2, 0, 16, 0x3F80), (1, 16, 16, 0x3F80)]) with heard := 2 }, by decide +kernel, by decide +kernel, by decide +kernel, modeCrc_of 0xFFFF0000 [5] rfl rfl, by decide +kernel, by decide +kernel, by decide +kernel, by decide +kernel⟩,
   ⟨{ withJob grpA (jobA 1 (kindRec 6 [(0, 60, 4, 1), (0, 40, 10, 3), (2, 0, 16, 0x3F80), (1, 16, 16, 0x3F80)])) with spans := [(3, spanA)] }, { grpMsg 0 [127] with cid := 3 }, 0, jobA 1 (kindRec 6 [(0, 60, 4, 1), (0, 40, 10, 3), (2, 0, 16, 0x3F80), (1, 16, 16, 0x3F80)]), by decide +kernel, by decide +kernel, by decide +kernel, modeCrc_of 0 [127] rfl rfl, by decide +kernel, by decide +kernel, by decide +kernel, by decide +kernel⟩,
   ⟨withJob grpA (jobA 3 (kindRec 6 [(0, 60, 4, 3), (0, 40, 10, 3), (2, 0, 16, 0x3F80), (1, 16, 16, 0x3F80)])), grpMsg 0xFFFF0000 [5], 0, jobA 3 (kindRec 6 [(0, 60, 4, 3), (0, 40, 10, 3), (2, 0, 16, 0x3F80), (1, 16, 16, 0x3F80)]), by decide +kernel, by decide +kernel, by decide +kernel, modeCrc_of 0xFFFF0000 [5] rfl rfl, by decide +kernel, by decide +kernel, by decide +kernel⟩,
   ⟨{ withJob grpA (jobA 1 (kindRec 6 [(0, 60, 4, 1), (0, 40, 10, 3), (2, 0, 16, 0x3F80), (1, 16, 16, 0x3F80)])) with spans := [(3, spanA)] }, { grpMsg 0 (List.replicate 33 0) with cid := 3 }, 0, jobA 1 (kindRec 6 [(0, 60, 4, 1), (0, 40, 10, 3), (2, 0, 16, 0x3F80), (1, 16, 16, 0x3F80)]), by decide +kernel, by decide +kernel, by decide +kernel, modeCrc_of 0 (List.replicate 33 0) rfl rfl, by decide +kernel, by decide +kernel, by decide +kernel, by decide +kernel⟩,
   ⟨{ withJob grpA ((jobA 1 (kindRec 6 [(0, 60, 4, 1), (0, 40, 10, 3), (2, 0, 16, 0x3F80), (1, 16, 16, 0x3F80)])).setChunk 0 { Chunk.fresh with ranks := 2 }) with spans := [(3, spanA)] }, { grpMsg 0 (List.replicate 33 0) with cid := 3 }, 0, (jobA 1 (kindRec 6 [(0, 60, 4, 1), (0, 40, 10, 3), (2, 0, 16, 0x3F80), (1, 16, 16, 0x3F80)])).setChunk 0 { Chunk.fresh with ranks := 2 }, by decide +kernel, by decide +kernel, by decide +kernel, modeCrc_of 0 (List.replicate 33 0) rfl rfl, by decide +kernel, by decide +kernel, by decide +kernel⟩,
   ⟨{ withJob grpA (jobA 1 (kindRec 6 [(0, 60, 4, 1), (0, 40, 10, 3), (2, 0, 16, 0x3F80), (1, 16, 16, 0x3F80)])) with spans := [(3, spanA)] }, { grpMsg 0 (List.replicate 33 0) with cid := 3 }, 0, jobA 1 (kindRec 6 [(0, 60, 4, 1), (0, 40, 10, 3), (2, 0, 16, 0x3F80), (1, 16, 16, 0x3F80)]), by decide +kernel, by decide +kernel, by decide +kernel, modeCrc_of 0 (List.replicate 33 0) rfl rfl, by decide +kernel, by decide +kernel, by decide +kernel, by decide +kernel, by decide +kernel⟩,
   ⟨{ withJob grpA ({ jobA 1 (kindRec 6 [(0, 60, 4, 1), (0, 40, 10, 3), (2, 0, 16, 0x3F80), (1, 16, 16, 0x3F80)]) with raw := (kindRec 6 [(0, 60, 4, 1), (0, 40, 10, 3), (2, 0, 16, 0x3F80), (1, 16, 16, 0x3F80)]) ||| mkRec [(64 + 16, 2, 1)] }) with spans := [(3, spanA)] }, { grpMsg 1 (List.replicate 33 0) with cid := 3 }, 0, { jobA 1 (kindRec 6 [(0, 60, 4, 1), (0, 40, 10, 3), (2, 0, 16, 0x3F80), (1, 16, 16, 0x3F80)]) with raw := (kindRec 6 [(0, 60, 4, 1), (0, 40, 10, 3), (2, 0, 16, 0x3F80), (1, 16, 16, 0x3F80)]) ||| mkRec [(64 + 16, 2, 1)] }, by decide +kernel, by decide +kernel, by decide +kernel, modeCrc_of 1 (List.replicate 33 0) rfl rfl, by decide +kernel, by decide +kernel, by decide +kernel, by decide +kernel, by decide +kernel⟩,
   ⟨{ withJob grpA ((jobA 1 (kindRec 6 [(0, 60, 4, 1), (0, 40, 10, 3), (2, 0, 16, 0x3F80), (1, 16, 16, 0x3F80)])).setChunk 0 { Chunk.fresh with landed := true }) with spans := [(3, spanA)] }, { grpMsg 0 (List.replicate 33 0) with cid := 3 }, 0, (jobA 1 (kindRec 6 [(0, 60, 4, 1), (0, 40, 10, 3), (2, 0, 16, 0x3F80), (1, 16, 16, 0x3F80)])).setChunk 0 { Chunk.fresh with landed := true }, by decide +kernel, by decide +kernel, by decide +kernel, modeCrc_of 0 (List.replicate 33 0) rfl rfl, by decide +kernel, by decide +kernel, by decide +kernel⟩,
   ⟨withTier (withJob grpA (jobA 2 (kindRec 6 [(0, 60, 4, 2), (0, 28, 9, 0x1FF), (2, 32, 32, 9), (3, 32, 32, 1)]))) fun x => { x with regions := [(9, regionA 7 .t1)] }, { grpMsg 0 [1, 2, 3] with cid := 0 }, 0, jobA 2 (kindRec 6 [(0, 60, 4, 2), (0, 28, 9, 0x1FF), (2, 32, 32, 9), (3, 32, 32, 1)]), by decide +kernel, by decide +kernel, by decide +kernel, modeCrc_of 0 [1, 2, 3] rfl rfl, by decide +kernel, by decide +kernel, by decide +kernel, by decide +kernel⟩,
   ⟨withTier (withJob grpA (jobA 2 (kindRec 6 [(0, 60, 4, 2), (0, 28, 9, 0x1FF), (2, 32, 32, 9), (3, 32, 32, 1)]))) fun x => { x with regions := [(9, { regionA 7 .t1 with pages := [(0, { pageA .t1 with move := some (moveA .t2) })] })] }, { grpMsg 0 [1, 2, 3] with cid := 0 }, 0, jobA 2 (kindRec 6 [(0, 60, 4, 2), (0, 28, 9, 0x1FF), (2, 32, 32, 9), (3, 32, 32, 1)]), by decide +kernel, by decide +kernel, by decide +kernel, modeCrc_of 0 [1, 2, 3] rfl rfl, by decide +kernel, by decide +kernel, by decide +kernel, by decide +kernel, by decide +kernel⟩,
   ⟨withJob grpA { jobA 2 (kindRec 6 [(0, 60, 4, 2), (0, 28, 9, 0x1FF), (2, 32, 32, 9), (3, 32, 32, 1)]) with inputs := [(2 ^ 20, [])] }, { grpMsg 0 [1, 2, 3] with cid := 0 }, 0, { jobA 2 (kindRec 6 [(0, 60, 4, 2), (0, 28, 9, 0x1FF), (2, 32, 32, 9), (3, 32, 32, 1)]) with inputs := [(2 ^ 20, [])] }, by decide +kernel, by decide +kernel, by decide +kernel, modeCrc_of 0 [1, 2, 3] rfl rfl, by decide +kernel, by decide +kernel, by decide +kernel⟩,
   ⟨withJob grpA (jobA 4 (kindRec 6 [(0, 60, 4, 4), (1, 26, 8, 1), (0, 38, 1, 1)])), grpMsg 0 [0x80, 0x3F], 0, jobA 4 (kindRec 6 [(0, 60, 4, 4), (1, 26, 8, 1), (0, 38, 1, 1)]), by decide +kernel, by decide +kernel, by decide +kernel, modeCrc_of 0 [0x80, 0x3F] rfl rfl, by decide +kernel, by decide +kernel, by decide +kernel, by decide +kernel⟩,
   ⟨withJob grpA (jobA 4 (kindRec 6 [(0, 60, 4, 4), (1, 26, 8, 1), (0, 38, 1, 1)])), grpMsg 1 [1], 0, jobA 4 (kindRec 6 [(0, 60, 4, 4), (1, 26, 8, 1), (0, 38, 1, 1)]), by decide +kernel, by decide +kernel, by decide +kernel, modeCrc_of 1 [1] rfl rfl, by decide +kernel, by decide +kernel, by decide +kernel, by decide +kernel⟩,
   ⟨withJob grpA { jobA 4 (kindRec 6 [(0, 60, 4, 4), (1, 26, 8, 1), (0, 38, 1, 1)]) with heard := 2 }, grpMsg 0 [1], 0, { jobA 4 (kindRec 6 [(0, 60, 4, 4), (1, 26, 8, 1), (0, 38, 1, 1)]) with heard := 2 }, by decide +kernel, by decide +kernel, by decide +kernel, modeCrc_of 0 [1] rfl rfl, by decide +kernel, by decide +kernel, by decide +kernel⟩,
   ⟨withJob grpA (jobA 4 (kindRec 6 [(0, 60, 4, 4), (1, 26, 8, 1), (0, 38, 1, 1)])), grpMsg 0 [0x80, 0x3F], 0, jobA 4 (kindRec 6 [(0, 60, 4, 4), (1, 26, 8, 1), (0, 38, 1, 1)]), by decide +kernel, by decide +kernel, by decide +kernel, modeCrc_of 0 [0x80, 0x3F] rfl rfl, by decide +kernel, by decide +kernel, by decide +kernel, by decide +kernel⟩,
   ⟨withJob grpA (jobA 4 (kindRec 6 [(0, 60, 4, 4), (1, 26, 8, 1), (0, 38, 1, 1)])), grpMsg 1 [1], 0, jobA 4 (kindRec 6 [(0, 60, 4, 4), (1, 26, 8, 1), (0, 38, 1, 1)]), by decide +kernel, by decide +kernel, by decide +kernel, modeCrc_of 1 [1] rfl rfl, by decide +kernel, by decide +kernel, by decide +kernel, by decide +kernel⟩,
   ⟨withJob grpA { jobA 4 (kindRec 6 [(0, 60, 4, 4), (1, 26, 8, 1), (0, 38, 1, 1)]) with result := some [] }, grpMsg 0 [1], 0, { jobA 4 (kindRec 6 [(0, 60, 4, 4), (1, 26, 8, 1), (0, 38, 1, 1)]) with result := some [] }, by decide +kernel, by decide +kernel, by decide +kernel, modeCrc_of 0 [1] rfl rfl, by decide +kernel, by decide +kernel, by decide +kernel⟩,
   ⟨grpA, { grpMsg 0 [] with step := 9 }, by decide +kernel⟩,
   ⟨grpA, { grpMsg 0 [] with step := 2 }, by decide +kernel⟩,
   ⟨grpA, { grpMsg 0 [] with epoch := 77 }, by decide +kernel⟩,
   ⟨grpA, grpMsg 0 [], by decide +kernel, by decide +kernel, by decide +kernel, modeCrc_of 0 [] rfl rfl, by decide +kernel⟩,
   ⟨grpA, { grpMsg 0 [] with step := 9 }, by decide +kernel⟩,
   ⟨grpA, { grpMsg 0 [] with step := 2 }, by decide +kernel⟩,
   ⟨grpA, { grpMsg 0 [] with epoch := 77 }, by decide +kernel⟩,
   ⟨grpA, grpMsg 0 [], by decide +kernel, by decide +kernel, by decide +kernel, modeCrc_of 0 [] rfl rfl, by decide +kernel⟩,
   ⟨grpA, { grpMsg 0 [] with step := 9 }, by decide +kernel⟩,
   ⟨grpA, { grpMsg 0 [] with step := 2 }, by decide +kernel⟩,
   ⟨grpA, { grpMsg 0 [] with epoch := 77 }, by decide +kernel⟩,
   ⟨grpA, grpMsg 0 [], by decide +kernel, by decide +kernel, by decide +kernel, modeCrc_of 0 [] rfl rfl, by decide +kernel⟩,
   ⟨grpA, { grpMsg 0 [] with step := 9 }, by decide +kernel⟩,
   ⟨grpA, { grpMsg 0 [] with step := 2 }, by decide +kernel⟩,
   ⟨grpA, { grpMsg 0 [] with epoch := 77 }, by decide +kernel⟩,
   ⟨grpA, grpMsg 0 [], by decide +kernel, by decide +kernel, by decide +kernel, modeCrc_of 0 [] rfl rfl, by decide +kernel⟩,
   ⟨grpA, { grpMsg 0 [] with step := 9 }, by decide +kernel⟩,
   ⟨grpA, { grpMsg 0 [] with step := 2 }, by decide +kernel⟩,
   ⟨grpA, { grpMsg 0 [] with epoch := 77 }, by decide +kernel⟩,
   ⟨grpA, grpMsg 0 [], by decide +kernel, by decide +kernel, by decide +kernel, modeCrc_of 0 [] rfl rfl, by decide +kernel⟩,
   ⟨grpA, { grpMsg 0 [] with step := 9 }, by decide +kernel⟩,
   ⟨grpA, { grpMsg 0 [] with step := 2 }, by decide +kernel⟩,
   ⟨grpA, { grpMsg 0 [] with epoch := 77 }, by decide +kernel⟩,
   ⟨grpA, grpMsg 0 [], by decide +kernel, by decide +kernel, by decide +kernel, modeCrc_of 0 [] rfl rfl, by decide +kernel⟩,
   ⟨grpA, { grpMsg 0 [] with step := 9 }, by decide +kernel⟩,
   ⟨grpA, { grpMsg 0 [] with step := 2 }, by decide +kernel⟩,
   ⟨grpA, { grpMsg 0 [] with epoch := 77 }, by decide +kernel⟩,
   ⟨grpA, grpMsg 0 [], by decide +kernel, by decide +kernel, by decide +kernel, modeCrc_of 0 [] rfl rfl, by decide +kernel⟩,
   ⟨grpA, grpMsg 0 [1, 0, 0, 0], by decide +kernel, by decide +kernel, by decide +kernel, modeCrc_of 0 [1, 0, 0, 0] rfl rfl⟩,
   ⟨grpA, { grpMsg 0 [] with step := 9 }, by decide +kernel⟩,
   ⟨(let s := withJob grpA ((jobA 1 (kindRec 6 [(0, 60, 4, 1), (0, 40, 10, 3), (2, 0, 16, 0x3F80), (1, 16, 16, 0x3F80)])).setChunk 0 { Chunk.fresh with ranks := 1, firstAt := some 0 }); { s with now := 100000000 }), 0, 0, 0, 0, (jobA 1 (kindRec 6 [(0, 60, 4, 1), (0, 40, 10, 3), (2, 0, 16, 0x3F80), (1, 16, 16, 0x3F80)])).setChunk 0 { Chunk.fresh with ranks := 1, firstAt := some 0 }, by decide +kernel⟩,
   ⟨(let s := withJob grpA (({ jobA 1 (kindRec 6 [(0, 60, 4, 1), (0, 40, 10, 3), (2, 0, 16, 0x3F80), (1, 16, 16, 0x3F80)]) with blocks := 448 } : Job).setChunk 1 { Chunk.fresh with sentAt := some 0 }); { s with now := 100000000 }), 0, 0, 1, 0, ({ jobA 1 (kindRec 6 [(0, 60, 4, 1), (0, 40, 10, 3), (2, 0, 16, 0x3F80), (1, 16, 16, 0x3F80)]) with blocks := 448 } : Job).setChunk 1 { Chunk.fresh with sentAt := some 0 }, by decide +kernel⟩,
   ⟨grpA, 0, 0, 0, by decide +kernel⟩,
   ⟨withJob grpA (jobA 1 (kindRec 6 [(0, 60, 4, 1), (0, 40, 10, 3), (2, 0, 16, 0x3F80), (1, 16, 16, 0x3F80)])), 0, 0, 0, jobA 1 (kindRec 6 [(0, 60, 4, 1), (0, 40, 10, 3), (2, 0, 16, 0x3F80), (1, 16, 16, 0x3F80)]), by decide +kernel⟩,
   ⟨grpA, 0, 0, 0, by decide +kernel⟩,
   ⟨withJob grpA (jobA 1 (kindRec 6 [(0, 60, 4, 1), (0, 40, 10, 3), (2, 0, 16, 0x3F80), (1, 16, 16, 0x3F80)])), 0, 0, 0, jobA 1 (kindRec 6 [(0, 60, 4, 1), (0, 40, 10, 3), (2, 0, 16, 0x3F80), (1, 16, 16, 0x3F80)]), by decide +kernel⟩⟩

/-- States that meet the hypotheses of MembersJoinFailAndShrink, one for each clause. -/
theorem test_hypotheses_MembersJoinFailAndShrink :
    (∃ (s : State), s.bitmap ≠ 0 ∧ s.coll.capAt = none) ∧
    (∃ (s : State) (f : Nat), s.bitmap ≠ 0 ∧ s.coll.capAt = some f ∧ (((s.rd Obj.groupState = 1 ∧ 1000 * ms ≤ s.now - f) ∨ s.capBody ≠ s.coll.capLast))) ∧
    (∃ (s : State), (s.bitmap = 0 ∨ ∃ f, s.coll.capAt = some f ∧ ¬ (s.rd Obj.groupState = 1 ∧ 1000 * ms ≤ s.now - f) ∧ s.capBody = s.coll.capLast)) ∧
    (∃ (s : State), s.rd Obj.groupState = 1 ∧ s.coll.joinTold = false ∧ (s.others.filter fun m => (s.coll.peers.find m).isNone) ≠ [] ∧ 10000 * ms ≤ s.now - s.coll.joinFrom) ∧
    (∃ (s : State), (s.rd Obj.groupState ≠ 1 ∨ s.coll.joinTold = true ∨ (s.others.filter fun m => (s.coll.peers.find m).isNone) = [] ∨ s.now - s.coll.joinFrom < 10000 * ms)) ∧
    (∃ (s : State) (m : Msg), m.pod = s.rd Obj.planPod ∧ m.group = s.rd Obj.groupId ∧ s.isMember m.src = true ∧ m.src ≠ s.ownModule) ∧
    (∃ (s : State) (m : Msg), (m.pod ≠ s.rd Obj.planPod ∨ m.group ≠ s.rd Obj.groupId ∨ s.isMember m.src = false ∨ m.src = s.ownModule)) ∧
    (∃ (s : State) (m : Fin 512), s.isMember m = true ∧ m.val ≠ s.ownModule ∧ (s.rd Obj.groupState = 2 ∨ s.rd Obj.groupState = 3) ∧ s.coll.failed.contains m.val = false ∧ s.coll.view = none ∧ s.paceFresh m = false) ∧
    (∃ (s : State) (m : Fin 512), s.isMember m = true ∧ m.val ≠ s.ownModule ∧ (s.rd Obj.groupState = 2 ∨ s.rd Obj.groupState = 3) ∧ s.coll.failed.contains m.val = false ∧ s.coll.view = none ∧ s.dataLate m = true) ∧
    (∃ (s : State) (m : Fin 512) (v : ViewRun), s.isMember m = true ∧ m.val ≠ s.ownModule ∧ (s.rd Obj.groupState = 2 ∨ s.rd Obj.groupState = 3) ∧ s.coll.failed.contains m.val = false ∧ s.coll.view = some v ∧ s.paceFresh m = false) ∧
    (∃ (s : State) (m : Fin 512), (s.isMember m = false ∨ m.val = s.ownModule ∨ s.paceFresh m = true ∨ s.coll.failed.contains m.val = true)) ∧
    (∃ (s : State) (m : Fin 512) (v : ViewRun), s.isMember m = true ∧ m.val ≠ s.ownModule ∧ (s.rd Obj.groupState = 2 ∨ s.rd Obj.groupState = 3) ∧ s.coll.failed.contains m.val = false ∧ s.coll.view = some v ∧ s.dataLate m = true) ∧
    (∃ (s : State) (m : Fin 512), (s.isMember m = false ∨ m.val = s.ownModule ∨ s.dataLate m = false ∨ s.coll.failed.contains m.val = true)) ∧
    (∃ (s : State) (m : Msg), s.fromMember m = true ∧ m.step = s.abortTarget ∧ m.epoch = s.rd Obj.modeEpoch ∧ m.digest = s.modeCrc) ∧
    (∃ (s : State) (m : Msg), s.fromMember m = true ∧ m.step = s.abortTarget + 1 ∧ m.epoch = (s.rd Obj.modeEpoch + 1) % 2 ^ 32) ∧
    (∃ (s : State) (m : Msg), (s.fromMember m = false ∨ (m.step ≠ s.abortTarget ∧ m.step ≠ s.abortTarget + 1))) ∧
    (∃ (s : State) (v : ViewRun) (set : Nat), s.coll.view = some v ∧ (membersOf v.own).head? = some s.ownModule ∧ 2 * s.rd Obj.failDetectMs * ms ≤ s.now - v.start ∧ set = (s.coll.views.filter fun x => v.own >>> x.1 % 2 == 1).foldl (fun b x => b &&& x.2) v.own) ∧
    (∃ (s : State) (v : ViewRun), s.coll.view = some v ∧ ((membersOf v.own).head? ≠ some s.ownModule ∨ s.now - v.start < 2 * s.rd Obj.failDetectMs * ms)) ∧
    (∃ (s : State), s.coll.view = none) ∧
    (∃ (s : State) (m : Msg) (v : ViewRun) (set : Nat), s.fromMember m = true ∧ m.step = s.abortTarget ∧ m.epoch = s.rd Obj.modeEpoch ∧ m.digest = s.modeCrc ∧ s.coll.view = some v ∧ set = unle (m.body.take 64) ∧ set >>> s.ownModule % 2 = 1 ∧ ((membersOf v.shape).length < 2 * (membersOf (set &&& v.shape)).length ∨ ((membersOf v.shape).length = 2 * (membersOf (set &&& v.shape)).length ∧ set >>> (membersOf v.shape).headD 0 % 2 = 1))) ∧
    (∃ (s : State) (m : Msg) (v : ViewRun) (set : Nat), s.fromMember m = true ∧ m.step = s.abortTarget ∧ m.epoch = s.rd Obj.modeEpoch ∧ m.digest = s.modeCrc ∧ s.coll.view = some v ∧ set = unle (m.body.take 64) ∧ set >>> s.ownModule % 2 = 1 ∧ (2 * (membersOf (set &&& v.shape)).length < (membersOf v.shape).length ∨ ((membersOf v.shape).length = 2 * (membersOf (set &&& v.shape)).length ∧ set >>> (membersOf v.shape).headD 0 % 2 ≠ 1))) ∧
    (∃ (s : State) (m : Msg) (set : Nat), s.fromMember m = true ∧ m.step = s.abortTarget ∧ m.epoch = s.rd Obj.modeEpoch ∧ m.digest = s.modeCrc ∧ s.coll.view = none ∧ set = unle (m.body.take 64) ∧ set >>> s.ownModule % 2 = 1 ∧ s.rd Obj.groupState = 2 ∧ s.members.all (fun x => set >>> x % 2 == 1) = false) ∧
    (∃ (s : State) (m : Msg), (s.fromMember m = false ∨ (m.step ≠ s.abortTarget ∧ m.step ≠ s.abortTarget + 1))) ∧
    (∃ (s : State) (v : ViewRun), s.coll.view = some v ∧ 4 * s.rd Obj.failDetectMs * ms ≤ s.now - v.start) ∧
    (∃ (s : State) (v : ViewRun), s.coll.view = some v ∧ s.now - v.start < 4 * s.rd Obj.failDetectMs * ms) ∧
    (∃ (s : State), s.coll.view = none) ∧
    (∃ (s : State) (m : Msg), s.fromMember m = true ∧ unle (m.body.take 8) = s.abortTarget ∧ unle (m.body.take 8) ≠ s.rd Obj.lastCommittedStep ∧ m.epoch = s.rd Obj.modeEpoch ∧ m.digest = s.modeCrc ∧ s.cmd.stepNow.isSome = true) ∧
    (∃ (s : State) (m : Msg), s.fromMember m = true ∧ unle (m.body.take 8) = s.rd Obj.lastCommittedStep ∧ unle (m.body.take 8) ≠ s.abortTarget) ∧
    (∃ (s : State) (m : Msg), s.fromMember m = true ∧ unle (m.body.take 8) = s.abortTarget + 1 ∧ unle (m.body.take 8) ≠ s.rd Obj.lastCommittedStep) ∧
    (∃ (s : State) (m : Msg), (s.fromMember m = false ∨ (unle (m.body.take 8) ≠ s.abortTarget ∧ unle (m.body.take 8) ≠ s.abortTarget + 1 ∧ unle (m.body.take 8) ≠ s.rd Obj.lastCommittedStep))) :=
  ⟨⟨grpA, by decide +kernel⟩,
   ⟨{ withColl (grpA.wr Obj.groupState 1) fun x => { x with capAt := some 0 } with now := 1000000000000 }, 0, by decide +kernel⟩,
   ⟨up [], by decide +kernel⟩,
   ⟨{ grpA.wr Obj.groupState 1 with now := 10000000000 }, by decide +kernel⟩,
   ⟨grpA, by decide +kernel⟩,
   ⟨grpA, msgA [1], by decide +kernel⟩,
   ⟨up [], msgA [1], by decide +kernel⟩,
   ⟨grpA, 3, by decide +kernel⟩,
   ⟨(let s := withJob grpA ((jobA 1 (kindRec 6 [(0, 60, 4, 1), (0, 40, 10, 3), (2, 0, 16, 0x3F80), (1, 16, 16, 0x3F80)])).setChunk 0 { Chunk.fresh with ranks := 1, firstAt := some 0 }); { s with now := 10000000000 }), 3, by decide +kernel⟩,
   ⟨withColl grpA fun x => { x with view := some { start := 0, own := 10, shape := 10 } }, 3, { start := 0, own := 10, shape := 10 }, by decide +kernel⟩,
   ⟨grpA, 1, by decide +kernel⟩,
   ⟨withColl (let s := withJob grpA ((jobA 1 (kindRec 6 [(0, 60, 4, 1), (0, 40, 10, 3), (2, 0, 16, 0x3F80), (1, 16, 16, 0x3F80)])).setChunk 0 { Chunk.fresh with ranks := 1, firstAt := some 0 }); { s with now := 10000000000 }) fun x => { x with view := some { start := 0, own := 10, shape := 10 } }, 3, { start := 0, own := 10, shape := 10 }, by decide +kernel⟩,
   ⟨grpA, 1, by decide +kernel⟩,
   ⟨grpA, grpMsg 0 [10], by decide +kernel, by decide +kernel, by decide +kernel, modeCrc_of 0 [10] rfl rfl⟩,
   ⟨grpA, { grpMsg 0 [10] with step := 2, epoch := 1 }, by decide +kernel⟩,
   ⟨grpA, { grpMsg 0 [10] with step := 9 }, by decide +kernel⟩,
   ⟨{ withColl grpA fun x => { x with view := some { start := 0, own := 10, shape := 10 } } with now := 100000000000 }, { start := 0, own := 10, shape := 10 }, 10, by decide +kernel⟩,
   ⟨{ withColl grpA fun x => { x with view := some { start := 0, own := 10, shape := 10 } } with now := 5 }, { start := 0, own := 10, shape := 10 }, by decide +kernel⟩,
   ⟨grpA, by decide +kernel⟩,
   ⟨{ withColl grpA fun x => { x with view := some { start := 0, own := 10, shape := 10 } } with now := 100000000000 }, grpMsg 0 [10], { start := 0, own := 10, shape := 10 }, 10, by decide +kernel, by decide +kernel, by decide +kernel, modeCrc_of 0 [10] rfl rfl, by decide +kernel, by decide +kernel, by decide +kernel, by decide +kernel⟩,
   ⟨{ withColl grpA fun x => { x with view := some { start := 0, own := 10, shape := 30 } } with now := 100000000000 }, grpMsg 0 [2], { start := 0, own := 10, shape := 30 }, 2, by decide +kernel, by decide +kernel, by decide +kernel, modeCrc_of 0 [2] rfl rfl, by decide +kernel, by decide +kernel, by decide +kernel, by decide +kernel⟩,
   ⟨grpA, grpMsg 0 [2], 2, by decide +kernel, by decide +kernel, by decide +kernel, modeCrc_of 0 [2] rfl rfl, by decide +kernel, by decide +kernel, by decide +kernel, by decide +kernel, by decide +kernel⟩,
   ⟨grpA, { grpMsg 0 [2] with step := 9 }, by decide +kernel⟩,
   ⟨{ withColl grpA fun x => { x with view := some { start := 0, own := 10, shape := 10 } } with now := 100000000000 }, { start := 0, own := 10, shape := 10 }, by decide +kernel⟩,
   ⟨{ withColl grpA fun x => { x with view := some { start := 0, own := 10, shape := 10 } } with now := 5 }, { start := 0, own := 10, shape := 10 }, by decide +kernel⟩,
   ⟨grpA, by decide +kernel⟩,
   ⟨{ grpA with cmd := { grpA.cmd with stepNow := some 1 } }, grpMsg 0 [1, 0, 0, 0, 0, 0, 0, 0, 0x91], by decide +kernel, by decide +kernel, by decide +kernel, by decide +kernel, modeCrc_of 0 [1, 0, 0, 0, 0, 0, 0, 0, 0x91] rfl rfl, by decide +kernel⟩,
   ⟨{ grpA with cmd := { grpA.cmd with stepNow := some 1 } }, grpMsg 0 [0, 0, 0, 0, 0, 0, 0, 0, 0x91], by decide +kernel⟩,
   ⟨grpA, grpMsg 0 [2, 0, 0, 0, 0, 0, 0, 0, 0x91], by decide +kernel⟩,
   ⟨grpA, grpMsg 0 [9], by decide +kernel⟩⟩

/-- States that meet the hypotheses of DigestsAndTransfersArrive, one for each clause. -/
theorem test_hypotheses_DigestsAndTransfersArrive :
    (∃ (s : State) (m : Msg) (c : Compare), s.fromMember m = true ∧ s.coll.compare = some c ∧ m.step = c.step) ∧
    (∃ (s : State) (m : Msg) (c : Compare), s.fromMember m = true ∧ s.coll.compare = some c ∧ c.step < m.step) ∧
    (∃ (s : State) (m : Msg) (c : Compare), s.fromMember m = true ∧ s.coll.compare = some c ∧ m.step < c.step ∧ s.coll.overdue.find m.step = none) ∧
    (∃ (s : State) (m : Msg) (c : Compare), s.fromMember m = true ∧ s.coll.compare = some c ∧ m.step < c.step) ∧
    (∃ (s : State) (m : Msg), s.fromMember m = true ∧ s.coll.compare = none) ∧
    (∃ (s : State) (m : Msg), s.fromMember m = false) ∧
    (∃ (s : State) (m : Msg) (c : Compare), m.pod ≠ s.rd Obj.planPod ∧ m.src = s.ownModule ∧ s.bitmap ≠ 0 ∧ s.coll.compare = some c ∧ m.step = c.step) ∧
    (∃ (s : State) (m : Msg) (c : Compare), m.pod ≠ s.rd Obj.planPod ∧ m.src = s.ownModule ∧ s.bitmap ≠ 0 ∧ s.coll.compare = some c ∧ c.step < m.step) ∧
    (∃ (s : State) (m : Msg) (c : Compare), m.pod ≠ s.rd Obj.planPod ∧ m.src = s.ownModule ∧ s.bitmap ≠ 0 ∧ s.coll.compare = some c ∧ m.step < c.step) ∧
    (∃ (s : State) (m : Msg), (m.pod = s.rd Obj.planPod ∨ m.src ≠ s.ownModule ∨ s.bitmap = 0)) ∧
    (∃ (s : State) (c : Compare), s.coll.compare = some c ∧ s.rd Obj.twinEnable ≠ 0 ∧ s.twinsIn c = false ∧ c.twinLate = false ∧ c.told = false ∧ s.rd Obj.twinWaitMs * ms ≤ s.now - c.start) ∧
    (∃ (s : State) (c : Compare), s.coll.compare = some c ∧ (s.rd Obj.twinEnable = 0 ∨ s.twinsIn c = true ∨ c.twinLate = true ∨ c.told = true ∨ s.now - c.start < s.rd Obj.twinWaitMs * ms)) ∧
    (∃ (s : State), s.coll.compare = none) ∧
    (∃ (s : State) (m : Msg) (x : Transfer), s.fromMember m = true ∧ s.coll.transfer = some x ∧ x.donor = m.src ∧ x.step = m.step ∧ s.rd Obj.groupState ≠ 5 ∧ unle (m.body.take 4) < 0xFFFFFFFD) ∧
    (∃ (s : State) (m : Msg) (x : Transfer), s.fromMember m = true ∧ s.coll.transfer = some x ∧ x.donor = m.src ∧ x.step = m.step ∧ s.rd Obj.groupState ≠ 5) ∧
    (∃ (s : State) (m : Msg), s.fromMember m = true ∧ s.rd Obj.groupState ≠ 5 ∧ s.isEarly m = true) ∧
    (∃ (s : State) (m : Msg), s.fromMember m = true ∧ s.rd Obj.groupState ≠ 5 ∧ s.isEarly m = false ∧ s.coll.transfer = none ∧ s.rd Obj.lastCommittedStep < m.step ∧ s.cmd.stepNow = none) ∧
    (∃ (s : State) (m : Msg), (s.fromMember m = false ∨ s.rd Obj.groupState = 5)) ∧
    (∃ (s : State) (m : Msg) (x : Transfer), s.fromMember m = true ∧ s.coll.transfer = some x ∧ x.donor = m.src ∧ x.step = m.step ∧ unle (m.body.take 4) ≤ x.parts ∧ ((s.mappedLayers.zip (u64s (m.body.drop 4) s.mappedLayers.length)).foldl (fun (a : State × List Nat) (y : Nat × Nat) => ((a.1.checkLayer y.1 y.2).1, if (a.1.checkLayer y.1 y.2).2 then a.2 else a.2 ++ [y.1])) (s, [])).2 = []) ∧
    (∃ (s : State) (m : Msg) (x : Transfer), s.fromMember m = true ∧ s.coll.transfer = some x ∧ x.donor = m.src ∧ x.step = m.step ∧ unle (m.body.take 4) ≤ x.parts ∧ ((s.mappedLayers.zip (u64s (m.body.drop 4) s.mappedLayers.length)).foldl (fun (a : State × List Nat) (y : Nat × Nat) => ((a.1.checkLayer y.1 y.2).1, if (a.1.checkLayer y.1 y.2).2 then a.2 else a.2 ++ [y.1])) (s, [])).2 ≠ []) ∧
    (∃ (s : State) (m : Msg) (x : Transfer), s.coll.transfer = some x ∧ (s.fromMember m = false ∨ x.donor ≠ m.src ∨ x.step ≠ m.step ∨ x.parts < unle (m.body.take 4))) ∧
    (∃ (s : State) (m : Msg), s.coll.transfer = none ∧ s.fromMember m = true ∧ s.isEarly m = true) ∧
    (∃ (s : State) (m : Msg), s.coll.transfer = none ∧ (s.fromMember m = false ∨ s.isEarly m = false)) :=
  ⟨⟨withColl grpA fun x => { x with compare := some (compareA 5 5) }, { msgA [7] with step := 8 }, compareA 5 5, by decide +kernel⟩,
   ⟨withColl grpA fun x => { x with compare := some (compareA 5 5) }, { msgA [7] with step := 9 }, compareA 5 5, by decide +kernel⟩,
   ⟨withColl grpA fun x => { x with compare := some (compareA 5 5) }, { msgA [7] with step := 7 }, compareA 5 5, by decide +kernel⟩,
   ⟨withColl grpA fun x => { x with compare := some (compareA 5 5) }, { msgA [7] with step := 7 }, compareA 5 5, by decide +kernel⟩,
   ⟨grpA, { msgA [7] with step := 7 }, by decide +kernel⟩,
   ⟨up [], msgA [7], by decide +kernel⟩,
   ⟨withColl grpA fun x => { x with compare := some (compareA 5 5) }, { msgA [7] with step := 8, pod := 1, src := 1 }, compareA 5 5, by decide +kernel⟩,
   ⟨withColl grpA fun x => { x with compare := some (compareA 5 5) }, { msgA [7] with step := 9, pod := 1, src := 1 }, compareA 5 5, by decide +kernel⟩,
   ⟨withColl grpA fun x => { x with compare := some (compareA 5 5) }, { msgA [7] with step := 7, pod := 1, src := 1 }, compareA 5 5, by decide +kernel⟩,
   ⟨grpA, msgA [7], by decide +kernel⟩,
   ⟨{ (withColl grpA fun x => { x with compare := some (compareA 5 5) }).wr Obj.twinEnable 1 with now := 100000000000 }, compareA 5 5, by decide +kernel⟩,
   ⟨withColl grpA fun x => { x with compare := some (compareA 5 5) }, compareA 5 5, by decide +kernel⟩,
   ⟨grpA, by decide +kernel⟩,
   ⟨withColl grpA fun x => { x with transfer := some { donor := 3, step := 8, parts := 0, repair := false } }, { msgA [9, 0, 0, 0, 1, 0, 0, 0, 7] with step := 8 }, { donor := 3, step := 8, parts := 0, repair := false }, by decide +kernel⟩,
   ⟨withColl grpA fun x => { x with transfer := some { donor := 3, step := 8, parts := 0, repair := false } }, { msgA [0xFD, 255, 255, 255, 1, 0, 0, 0, 1, 5] with step := 8 }, { donor := 3, step := 8, parts := 0, repair := false }, by decide +kernel⟩,
   ⟨withColl grpA fun x => { x with compare := some (compareA 5 5) }, { msgA [] with step := 8 }, by decide +kernel⟩,
   ⟨grpA, { msgA [9] with step := 8 }, by decide +kernel⟩,
   ⟨up [], msgA [9], by decide +kernel⟩,
   ⟨withColl grpA fun x => { x with transfer := some { donor := 3, step := 8, parts := 0, repair := false } }, { msgA [] with step := 8, epoch := 4 }, { donor := 3, step := 8, parts := 0, repair := false }, by decide +kernel⟩,
   ⟨withUpd (withColl grpA fun x => { x with transfer := some { donor := 3, step := 8, parts := 0, repair := false } }) fun x => { x with maps := [(16, { rule := 0, wcFmt := 0, stateH := 5, tiles := 1, gradH := 0, wcH := 0, wScale := 0, mScale := 0, vScale := 0, wcScale := 0 })], journal := [(1, journalA 1)] }, { msgA [] with step := 8, epoch := 4 }, { donor := 3, step := 8, parts := 0, repair := false }, by decide +kernel⟩,
   ⟨withColl grpA fun x => { x with transfer := some { donor := 3, step := 8, parts := 0, repair := false } }, { msgA [1] with step := 8 }, { donor := 3, step := 8, parts := 0, repair := false }, by decide +kernel⟩,
   ⟨withColl grpA fun x => { x with compare := some (compareA 5 5) }, { msgA [] with step := 8 }, by decide +kernel⟩,
   ⟨grpA, msgA [], by decide +kernel⟩⟩

/-- States that meet the hypotheses of PortsExchangeFlits, one for each clause. -/
theorem test_hypotheses_PortsExchangeFlits :
    (∃ (s : State) (p : Fin 16) (f : Bytes) (cor : Nat) (unc : Nat), s.portIs p psUp = true ∧ flitIntact f unc = true ∧ ((linkWord f).ftype = 1 ∨ (linkWord f).ftype = 2) ∧ (linkWord f).fseq = (s.port p).rxSeq) ∧
    (∃ (s : State) (p : Fin 16) (f : Bytes) (cor : Nat) (unc : Nat), s.portIs p psUp = true ∧ flitIntact f unc = true ∧ ((linkWord f).ftype = 1 ∨ (linkWord f).ftype = 2) ∧ (linkWord f).fseq ≠ (s.port p).rxSeq ∧ ((s.port p).rxSeq + 4096 - (linkWord f).fseq) % 4096 ≤ 2048) ∧
    (∃ (s : State) (p : Fin 16) (f : Bytes) (cor : Nat) (unc : Nat), s.portIs p psUp = true ∧ flitIntact f unc = true ∧ ((linkWord f).ftype = 1 ∨ (linkWord f).ftype = 2) ∧ (linkWord f).fseq ≠ (s.port p).rxSeq ∧ 2048 < ((s.port p).rxSeq + 4096 - (linkWord f).fseq) % 4096) ∧
    (∃ (s : State) (p : Fin 16) (f : Bytes) (cor : Nat) (unc : Nat), s.portIs p psDown = false ∧ s.portIs p psFailed = false ∧ flitIntact f unc = true ∧ (s.portIs p psUp = false ∨ ((linkWord f).ftype ≠ 1 ∧ (linkWord f).ftype ≠ 2))) ∧
    (∃ (s : State) (p : Fin 16) (f : Bytes) (cor : Nat) (unc : Nat), (s.portIs p psDown = true ∨ s.portIs p psFailed = true)) ∧
    (∃ (s : State) (p : Fin 16) (f : Bytes) (cor : Nat) (unc : Nat), s.portIs p psDown = false ∧ s.portIs p psFailed = false ∧ flitIntact f unc = false) ∧
    (∃ (s : State) (p : Fin 16) (f : Bytes) (cor : Nat) (unc : Nat), s.portIs p psDown = false ∧ s.portIs p psFailed = false ∧ flitIntact f unc = true ∧ (linkWord f).ackV = true ∧ (linkWord f).nak = false ∧ 0 < (((linkWord f).ackSeq + 1 + 4096 - ((s.port p).txSeq + 4096 - (s.port p).buffer.length % 4096) % 4096) % 4096) ∧ (((linkWord f).ackSeq + 1 + 4096 - ((s.port p).txSeq + 4096 - (s.port p).buffer.length % 4096) % 4096) % 4096) ≤ (s.port p).buffer.length) ∧
    (∃ (s : State) (p : Fin 16) (f : Bytes) (cor : Nat) (unc : Nat), s.portIs p psUp = true ∧ flitIntact f unc = true ∧ (linkWord f).ackV = true ∧ (linkWord f).nak = true ∧ (((linkWord f).ackSeq + 1 + 4096 - ((s.port p).txSeq + 4096 - (s.port p).buffer.length % 4096) % 4096) % 4096) ≤ (s.port p).buffer.length ∧ (s.port p).buffer.drop (((linkWord f).ackSeq + 1 + 4096 - ((s.port p).txSeq + 4096 - (s.port p).buffer.length % 4096) % 4096) % 4096) ≠ []) ∧
    (∃ (s : State) (p : Fin 16) (f : Bytes) (cor : Nat) (unc : Nat), s.portIs p psDown = false ∧ s.portIs p psFailed = false ∧ flitIntact f unc = true ∧ (linkWord f).ackV = true ∧ (s.port p).buffer.length < (((linkWord f).ackSeq + 1 + 4096 - ((s.port p).txSeq + 4096 - (s.port p).buffer.length % 4096) % 4096) % 4096) ∧ (((linkWord f).ackSeq + 1 + 4096 - ((s.port p).txSeq + 4096 - (s.port p).buffer.length % 4096) % 4096) % 4096) < 2048) ∧
    (∃ (s : State) (p : Fin 16) (f : Bytes) (cor : Nat) (unc : Nat), s.portIs p psDown = false ∧ s.portIs p psFailed = false ∧ flitIntact f unc = true ∧ (linkWord f).ackV = false) ∧
    (∃ (s : State) (p : Fin 16) (f : Bytes) (cor : Nat) (unc : Nat), (s.portIs p psDown = true ∨ s.portIs p psFailed = true)) ∧
    (∃ (s : State) (p : Fin 16) (f : Bytes) (cor : Nat) (unc : Nat), s.portIs p psDown = false ∧ s.portIs p psFailed = false ∧ flitIntact f unc = false) ∧
    (∃ (s : State) (p : Fin 16) (f : Nat), s.portIs p psUp = true ∧ (s.port p).timerFrom = some f ∧ max (s.rd Obj.replayTimerUs * us) (2 * s.rd (Obj.rttNs p) / 10) ≤ s.now - f ∧ (s.port p).buffer ≠ []) ∧
    (∃ (s : State) (p : Fin 16), ((s.port p).timerFrom = none ∨ s.portIs p psUp = false ∨ (s.port p).buffer = [] ∨ s.now - (s.port p).timerFrom.getD 0 < max (s.rd Obj.replayTimerUs * us) (2 * s.rd (Obj.rttNs p) / 10))) ∧
    (∃ (s : State) (p : Fin 16) (f : Nat), (s.portIs p psUp = true ∨ s.portIs p psHeld = true ∨ s.portIs p psRetrain = true) ∧ (s.port p).owedFrom = some f ∧ 10 ≤ s.now - f) ∧
    (∃ (s : State) (p : Fin 16), ((s.port p).owedFrom = none ∨ (s.portIs p psUp = false ∧ s.portIs p psHeld = false ∧ s.portIs p psRetrain = false) ∨ s.now - (s.port p).owedFrom.getD 0 < 10)) ∧
    (∃ (s : State) (p : Fin 16) (f : Bytes) (cor : Nat) (unc : Nat), (s.portIs p psUp = true ∨ s.portIs p psHeld = true) ∧ flitIntact f unc = true ∧ (linkWord f).ftype = 3) ∧
    (∃ (s : State) (p : Fin 16) (f : Bytes) (cor : Nat) (unc : Nat), s.portIs p psDown = false ∧ s.portIs p psFailed = false ∧ flitIntact f unc = true ∧ ((s.portIs p psUp = false ∧ s.portIs p psHeld = false) ∨ (linkWord f).ftype ≠ 3)) ∧
    (∃ (s : State) (p : Fin 16) (f : Bytes) (cor : Nat) (unc : Nat), (s.portIs p psDown = true ∨ s.portIs p psFailed = true)) ∧
    (∃ (s : State) (p : Fin 16) (f : Bytes) (cor : Nat) (unc : Nat), s.portIs p psDown = false ∧ s.portIs p psFailed = false ∧ flitIntact f unc = false) ∧
    (∃ (s : State) (p : Fin 16), (s.portIs p psUp = true ∨ s.portIs p psHeld = true) ∧ (64 ≤ (s.port p).freed ∨ (s.port p).creditAt = none ∨ us ≤ s.now - (s.port p).creditAt.getD 0)) ∧
    (∃ (s : State) (p : Fin 16), ((s.portIs p psUp = false ∧ s.portIs p psHeld = false) ∨ ((s.port p).freed < 64 ∧ (s.port p).creditAt ≠ none ∧ s.now - (s.port p).creditAt.getD 0 < us))) :=
  ⟨⟨portA 3 { Port.reset with nakOut := true }, 0, flitA 1 [7], 0, 0, by decide +kernel⟩,
   ⟨portA 3 { Port.reset with rxSeq := 1 }, 0, flitA 1 [7], 0, 0, by decide +kernel⟩,
   ⟨portA 3 Port.reset, 0, flitBytes { ftype := 1, fseq := 5, ackSeq := 0, ackV := false, nak := false, vc := 0 } [7], 0, 0, by decide +kernel⟩,
   ⟨portA 3 Port.reset, 0, flitA 0 [], 0, 0, by decide +kernel⟩,
   ⟨portA 6 Port.reset, 0, flitA 1 [7], 1, 0, by decide +kernel⟩,
   ⟨portA 3 Port.reset, 0, (flitA 1 [7]).set 9 1, 0, 2, by decide +kernel⟩,
   ⟨portA 3 { Port.reset with txSeq := 2, buffer := [txA, { txA with fseq := 1 }], stuck := 2 }, 0, flitBytes { ftype := 0, fseq := 0, ackSeq := 0, ackV := true, nak := false, vc := 0 } [], 0, 0, by decide +kernel⟩,
   ⟨portA 3 { Port.reset with txSeq := 2, buffer := [txA, { txA with fseq := 1 }], stuck := 2 }, 0, flitBytes { ftype := 0, fseq := 0, ackSeq := 0, ackV := true, nak := true, vc := 0 } [], 0, 0, by decide +kernel⟩,
   ⟨portA 3 { Port.reset with txSeq := 2, buffer := [txA, { txA with fseq := 1 }], stuck := 2 }, 0, flitBytes { ftype := 0, fseq := 0, ackSeq := 4, ackV := true, nak := false, vc := 0 } [], 0, 0, by decide +kernel⟩,
   ⟨portA 3 { Port.reset with txSeq := 2, buffer := [txA, { txA with fseq := 1 }], stuck := 2 }, 0, flitA 0 [], 0, 0, by decide +kernel⟩,
   ⟨portA 6 Port.reset, 0, flitA 1 [7], 1, 0, by decide +kernel⟩,
   ⟨portA 3 Port.reset, 0, (flitA 1 [7]).set 9 1, 0, 2, by decide +kernel⟩,
   ⟨{ portA 3 { Port.reset with timerFrom := some 0, buffer := [txA] } with now := 100000000 }, 0, 0, by decide +kernel⟩,
   ⟨portA 3 Port.reset, 0, by decide +kernel⟩,
   ⟨portA 4 { Port.reset with owed := 1, owedFrom := some 0 }, 0, 0, by decide +kernel⟩,
   ⟨portA 3 Port.reset, 0, by decide +kernel⟩,
   ⟨portA 3 Port.reset, 0, flitA 3 (p64 (512 * 2 ^ 32 + 700)), 0, 0, by decide +kernel⟩,
   ⟨portA 3 Port.reset, 0, flitA 0 [], 0, 0, by decide +kernel⟩,
   ⟨portA 6 Port.reset, 0, flitA 1 [7], 1, 0, by decide +kernel⟩,
   ⟨portA 3 Port.reset, 0, (flitA 1 [7]).set 9 1, 0, 2, by decide +kernel⟩,
   ⟨portA 3 { Port.reset with freed := 64 }, 0, by decide +kernel⟩,
   ⟨portA 1 { Port.reset with freed := 64 }, 0, by decide +kernel⟩⟩

/-- States that meet the hypotheses of PaceAndIdentityOfPorts, one for each clause. -/
theorem test_hypotheses_PaceAndIdentityOfPorts :
    (∃ (s : State) (p : Nat), 1000 ≤ s.now - s.link.paceAt ∧ s.pickPlane (s.rd Obj.planModule % 16) = some p) ∧
    (∃ (s : State), (s.now - s.link.paceAt < 1000 ∨ s.pickPlane (s.rd Obj.planModule % 16) = none)) ∧
    (∃ (s : State) (p : Fin 16) (f : Bytes) (cor : Nat) (unc : Nat), s.portIs p psUp = true ∧ flitIntact f unc = true ∧ (linkWord f).ftype = 4 ∧ (paceEntOf f s.now).pace ≤ 0x8000 ∧ flitWord f 3 >>> 40 % 256 = 1 ∧ ((s.link.pace.find (paceKey f)).all fun y => after (paceEntOf f s.now).seq y.seq || decide (100 * us ≤ s.now - y.tick)) = true) ∧
    (∃ (s : State) (p : Fin 16) (f : Bytes) (cor : Nat) (unc : Nat), s.portIs p psUp = true ∧ flitIntact f unc = true ∧ (linkWord f).ftype = 4 ∧ (0x8000 < (paceEntOf f s.now).pace ∨ flitWord f 3 >>> 40 % 256 ≠ 1 ∨ ((s.link.pace.find (paceKey f)).all fun y => after (paceEntOf f s.now).seq y.seq || decide (100 * us ≤ s.now - y.tick)) = false)) ∧
    (∃ (s : State) (p : Fin 16) (f : Bytes) (cor : Nat) (unc : Nat), s.portIs p psDown = false ∧ s.portIs p psFailed = false ∧ flitIntact f unc = true ∧ (s.portIs p psUp = false ∨ (linkWord f).ftype ≠ 4)) ∧
    (∃ (s : State) (p : Fin 16) (f : Bytes) (cor : Nat) (unc : Nat), s.portIs p psDown = false ∧ s.portIs p psFailed = false ∧ flitIntact f unc = false) ∧
    (∃ (s : State) (p : Fin 16) (f : Bytes) (cor : Nat) (unc : Nat), (s.portIs p psDown = true ∨ s.portIs p psFailed = true)) ∧
    (∃ (s : State) (p : Fin 16) (f : Bytes) (cor : Nat) (unc : Nat) (c : Nat) (v : Nat) (n : Nat), (s.portIs p psIdentity = true ∨ s.portIs p psUp = true ∨ s.portIs p psHeld = true ∨ s.portIs p psRetrain = true) ∧ flitIntact f unc = true ∧ (linkWord f).ftype = 5 ∧ lldpOf f = some (c, v, n)) ∧
    (∃ (s : State) (p : Fin 16) (f : Bytes) (cor : Nat) (unc : Nat), (s.portIs p psIdentity = true ∨ s.portIs p psUp = true ∨ s.portIs p psHeld = true ∨ s.portIs p psRetrain = true) ∧ flitIntact f unc = true ∧ (linkWord f).ftype = 5 ∧ lldpOf f = none) ∧
    (∃ (s : State) (p : Fin 16) (f : Bytes) (cor : Nat) (unc : Nat), s.portIs p psDown = false ∧ s.portIs p psFailed = false ∧ flitIntact f unc = true ∧ ((s.portIs p psIdentity = false ∧ s.portIs p psUp = false ∧ s.portIs p psHeld = false ∧ s.portIs p psRetrain = false) ∨ (linkWord f).ftype ≠ 5)) ∧
    (∃ (s : State) (p : Fin 16) (f : Bytes) (cor : Nat) (unc : Nat), (s.portIs p psDown = true ∨ s.portIs p psFailed = true)) ∧
    (∃ (s : State) (p : Fin 16) (f : Bytes) (cor : Nat) (unc : Nat), s.portIs p psDown = false ∧ s.portIs p psFailed = false ∧ flitIntact f unc = false) ∧
    (∃ (s : State) (p : Fin 16), s.inPlan p = true ∧ (((s.portIs p psIdentity = true ∧ (s.port p).idFrom = none ∧ 5000 * ms ≤ s.now - (s.port p).since) ∨ ((s.port p).idFrom ≠ none ∧ s.idValid p = false ∧ (s.portIs p psIdentity = true ∨ s.portIs p psUp = true ∨ s.portIs p psHeld = true)))) ∧ s.rd (Obj.idResult p) ≠ 7) ∧
    (∃ (s : State) (p : Fin 16), (s.inPlan p = false ∨ ¬ ((s.portIs p psIdentity = true ∧ (s.port p).idFrom = none ∧ 5000 * ms ≤ s.now - (s.port p).since) ∨ ((s.port p).idFrom ≠ none ∧ s.idValid p = false ∧ (s.portIs p psIdentity = true ∨ s.portIs p psUp = true ∨ s.portIs p psHeld = true))) ∨ s.rd (Obj.idResult p) = 7)) ∧
    (∃ (s : State) (p : Fin 16), (s.portIs p psIdentity = true ∨ s.portIs p psUp = true ∨ s.portIs p psHeld = true ∨ s.portIs p psRetrain = true) ∧ (((s.port p).planDue = true ∨ (s.port p).lldpAt = none ∨ 1000 * ms ≤ s.now - (s.port p).lldpAt.getD 0 ∨ ((s.port p).lldpAt.getD 0 < (s.port p).since ∧ s.portIs p psIdentity = true)))) ∧
    (∃ (s : State) (p : Fin 16), ((s.portIs p psIdentity = false ∧ s.portIs p psUp = false ∧ s.portIs p psHeld = false ∧ s.portIs p psRetrain = false) ∨ ¬ ((s.port p).planDue = true ∨ (s.port p).lldpAt = none ∨ 1000 * ms ≤ s.now - (s.port p).lldpAt.getD 0 ∨ ((s.port p).lldpAt.getD 0 < (s.port p).since ∧ s.portIs p psIdentity = true)))) :=
  ⟨⟨portA 3 Port.reset, 0, by decide +kernel⟩,
   ⟨portA 4 Port.reset, by decide +kernel⟩,
   ⟨portA 3 Port.reset, 0, flitA 4 (p64 (3 * 2 ^ 55 + 0x8000 * 2 ^ 38 + 5) ++ p64 0 ++ p64 0 ++ p64 (2 ^ 40)), 0, 0, by decide +kernel⟩,
   ⟨portA 3 Port.reset, 0, flitA 4 (p64 0 ++ p64 0 ++ p64 0 ++ p64 0), 0, 0, by decide +kernel⟩,
   ⟨portA 4 Port.reset, 0, flitA 4 (p64 (3 * 2 ^ 55 + 0x8000 * 2 ^ 38 + 5) ++ p64 0 ++ p64 0 ++ p64 (2 ^ 40)), 0, 0, by decide +kernel⟩,
   ⟨portA 3 Port.reset, 0, (flitA 1 [7]).set 9 1, 0, 0, by decide +kernel⟩,
   ⟨portA 6 Port.reset, 0, flitA 4 (p64 (3 * 2 ^ 55 + 0x8000 * 2 ^ 38 + 5) ++ p64 0 ++ p64 0 ++ p64 (2 ^ 40)), 0, 0, by decide +kernel⟩,
   ⟨portA 2 Port.reset, 0, flitA 5 lldpA, 0, 0, 5, 7, 4, by decide +kernel⟩,
   ⟨portA 2 Port.reset, 0, flitA 5 [], 0, 0, by decide +kernel⟩,
   ⟨portA 3 Port.reset, 0, flitA 0 [], 0, 0, by decide +kernel⟩,
   ⟨portA 6 Port.reset, 0, flitA 1 [7], 1, 0, by decide +kernel⟩,
   ⟨portA 3 Port.reset, 0, (flitA 1 [7]).set 9 1, 0, 2, by decide +kernel⟩,
   ⟨{ portA 2 { Port.reset with plan := { State.planNow (portA 2 Port.reset) with used := 0xFFFF, module := 1 } } with now := 1000000000 }, 0, by decide +kernel⟩,
   ⟨portA 2 Port.reset, 0, by decide +kernel⟩,
   ⟨portA 5 Port.reset, 0, by decide +kernel⟩,
   ⟨portA 1 Port.reset, 0, by decide +kernel⟩⟩

/-- States that meet the hypotheses of PortsTrainRetrainAndSleep, one for each clause. -/
theorem test_hypotheses_PortsTrainRetrainAndSleep :
    (∃ (s : State) (p : Fin 16), s.opticsOn = true ∧ s.portIs p psDown = true ∧ s.rd (Obj.portSleep p) = 0 ∧ ((s.port p).failedAt = none ∨ 1000 * ms ≤ s.now - (s.port p).failedAt.getD 0)) ∧
    (∃ (s : State) (p : Fin 16), (s.opticsOn = false ∨ s.portIs p psDown = false ∨ s.rd (Obj.portSleep p) ≠ 0 ∨ ((s.port p).failedAt ≠ none ∧ s.now - (s.port p).failedAt.getD 0 < 1000 * ms))) ∧
    (∃ (s : State) (p : Fin 16), s.portIs p psTraining = true ∧ (s.port p).locked = false) ∧
    (∃ (s : State) (p : Fin 16), (s.portIs p psTraining = false ∨ (s.port p).locked = true)) ∧
    (∃ (s : State) (p : Fin 16), s.portIs p psTraining = true ∧ (s.port p).locked = false ∧ 50 * ms < s.now - (s.port p).since) ∧
    (∃ (s : State) (p : Fin 16), (s.portIs p psTraining = false ∨ (s.port p).locked = true ∨ s.now - (s.port p).since ≤ 50 * ms)) ∧
    (∃ (s : State) (p : Fin 16), s.portIs p psTraining = true ∧ (s.port p).locked = true ∧ ms < s.now - (s.port p).since) ∧
    (∃ (s : State) (p : Fin 16), (s.portIs p psTraining = false ∨ (s.port p).locked = false ∨ s.now - (s.port p).since ≤ ms)) ∧
    (∃ (s : State) (p : Fin 16) (f : Bytes) (cor : Nat) (unc : Nat), s.portIs p psTraining = true ∧ (s.port p).locked = true ∧ flitIntact f unc = true ∧ (linkWord f).ftype = 6 ∧ flitWord f 1 ≠ 0 ∧ ((s.now + 2 ^ 48 - flitWord f 1 % 2 ^ 48) % 2 ^ 48 * 10) ≤ 10000) ∧
    (∃ (s : State) (p : Fin 16) (f : Bytes) (cor : Nat) (unc : Nat), s.portIs p psTraining = true ∧ (s.port p).locked = true ∧ flitIntact f unc = true ∧ (linkWord f).ftype = 6 ∧ (flitWord f 1 = 0 ∨ 10000 < ((s.now + 2 ^ 48 - flitWord f 1 % 2 ^ 48) % 2 ^ 48 * 10))) ∧
    (∃ (s : State) (p : Fin 16) (f : Bytes) (cor : Nat) (unc : Nat), s.portIs p psUp = true ∧ flitIntact f unc = true ∧ (linkWord f).ftype = 6) ∧
    (∃ (s : State) (p : Fin 16) (f : Bytes) (cor : Nat) (unc : Nat), s.portIs p psRetrain = true ∧ flitIntact f unc = true ∧ (linkWord f).ftype = 6 ∧ flitWord f 1 = 0) ∧
    (∃ (s : State) (p : Fin 16) (f : Bytes) (cor : Nat) (unc : Nat), s.portIs p psDown = false ∧ s.portIs p psFailed = false ∧ flitIntact f unc = true ∧ ((linkWord f).ftype ≠ 6 ∨ ((s.portIs p psTraining = false ∨ (s.port p).locked = false) ∧ s.portIs p psUp = false ∧ (s.portIs p psRetrain = false ∨ flitWord f 1 ≠ 0)))) ∧
    (∃ (s : State) (p : Fin 16) (f : Bytes) (cor : Nat) (unc : Nat), (s.portIs p psDown = true ∨ s.portIs p psFailed = true)) ∧
    (∃ (s : State) (p : Fin 16) (f : Bytes) (cor : Nat) (unc : Nat), s.portIs p psDown = false ∧ s.portIs p psFailed = false ∧ flitIntact f unc = false) ∧
    (∃ (s : State) (p : Fin 16) (f : Bytes) (cor : Nat) (unc : Nat), s.portIs p psUp = true ∧ flitIntact f unc = true ∧ (linkWord f).ftype = 8 ∧ flitWord f 0 >>> 60 ≤ 3) ∧
    (∃ (s : State) (p : Fin 16) (f : Bytes) (cor : Nat) (unc : Nat), s.portIs p psDown = false ∧ s.portIs p psFailed = false ∧ flitIntact f unc = true ∧ (s.portIs p psUp = false ∨ (linkWord f).ftype ≠ 8 ∨ 3 < flitWord f 0 >>> 60)) ∧
    (∃ (s : State) (p : Fin 16) (f : Bytes) (cor : Nat) (unc : Nat), (s.portIs p psDown = true ∨ s.portIs p psFailed = true)) ∧
    (∃ (s : State) (p : Fin 16) (f : Bytes) (cor : Nat) (unc : Nat), s.portIs p psDown = false ∧ s.portIs p psFailed = false ∧ flitIntact f unc = false) ∧
    (∃ (s : State) (p : Fin 16), s.portIs p psDown = false ∧ s.portIs p psFailed = false ∧ s.portIs p psRetrain = false) ∧
    (∃ (s : State) (p : Fin 16), (s.portIs p psDown = true ∨ s.portIs p psFailed = true ∨ s.portIs p psRetrain = true)) ∧
    (∃ (s : State) (p : Fin 16), s.portIs p psUp = true ∧ ((4 ≤ (s.port p).stuck ∨ 16 < ((s.port p).badCodes.filter fun y => decide (s.now - y < ms)).length ∨ 3 ≤ ((s.port p).badCredits.filter fun y => decide (s.now - y < ms)).length ∨ (s.port p).protocol = true))) ∧
    (∃ (s : State) (p : Fin 16), (s.portIs p psUp = false ∨ ¬ (4 ≤ (s.port p).stuck ∨ 16 < ((s.port p).badCodes.filter fun y => decide (s.now - y < ms)).length ∨ 3 ≤ ((s.port p).badCredits.filter fun y => decide (s.now - y < ms)).length ∨ (s.port p).protocol = true))) ∧
    (∃ (s : State) (p : Fin 16), s.portIs p psRetrain = true ∧ s.recentRetrains p < 3 ∧ s.now - (s.port p).since ≤ 10 * ms) ∧
    (∃ (s : State) (p : Fin 16), (s.portIs p psRetrain = false ∨ 3 ≤ s.recentRetrains p ∨ 10 * ms < s.now - (s.port p).since)) ∧
    (∃ (s : State) (p : Fin 16), s.portIs p psRetrain = true ∧ (3 ≤ s.recentRetrains p ∨ 10 * ms < s.now - (s.port p).since)) ∧
    (∃ (s : State) (p : Fin 16), (s.portIs p psRetrain = false ∨ (s.recentRetrains p < 3 ∧ s.now - (s.port p).since ≤ 10 * ms))) ∧
    (∃ (s : State) (p : Fin 16), s.portIs p psUp = true ∧ s.rd (Obj.portPowerState p) = 0 ∧ s.rd Obj.lp1IdleUs ≠ 0 ∧ s.rd Obj.lp1IdleUs * us ≤ s.now - (s.port p).dataAt) ∧
    (∃ (s : State) (p : Fin 16), (s.portIs p psUp = false ∨ s.rd (Obj.portPowerState p) ≠ 0 ∨ s.rd Obj.lp1IdleUs = 0 ∨ s.now - (s.port p).dataAt < s.rd Obj.lp1IdleUs * us)) ∧
    (∃ (s : State) (p : Fin 16), s.portIs p psUp = true ∧ s.rd (Obj.portPowerState p) = 1 ∧ (s.port p).queue ≠ []) ∧
    (∃ (s : State) (p : Fin 16), (s.portIs p psUp = false ∨ s.rd (Obj.portPowerState p) ≠ 1 ∨ (s.port p).queue = [])) ∧
    (∃ (s : State) (src : Src) (p : Fin 16) (v : Nat), v ≤ 2 ∧ s.fldDenied src (Obj.portSleep p) = false ∧ s.sleepCond p = 0 ∧ (v = 0 → s.rd (Obj.portSleep p) ≠ 0 ∨ s.portIs p psFailed = true)) ∧
    (∃ (s : State) (src : Src) (p : Fin 16) (v : Nat), v ≤ 2 ∧ s.fldDenied src (Obj.portSleep p) = false ∧ s.sleepCond p = 0 ∧ v = 0 ∧ s.rd (Obj.portSleep p) = 0 ∧ s.portIs p psFailed = false) ∧
    (∃ (s : State) (src : Src) (p : Fin 16) (v : Nat), v ≤ 2 ∧ s.fldDenied src (Obj.portSleep p) = false ∧ s.sleepCond p ≠ 0) :=
  ⟨⟨(let s := portA 0 Port.reset; { s with start := { s.start with rails := true, stage := 6 } }), 0, by decide +kernel⟩,
   ⟨portA 0 Port.reset, 0, by decide +kernel⟩,
   ⟨portA 1 Port.reset, 0, by decide +kernel⟩,
   ⟨portA 3 Port.reset, 0, by decide +kernel⟩,
   ⟨{ portA 1 Port.reset with now := 100000000 }, 0, by decide +kernel⟩,
   ⟨portA 3 Port.reset, 0, by decide +kernel⟩,
   ⟨{ portA 1 { Port.reset with locked := true } with now := 100000000 }, 0, by decide +kernel⟩,
   ⟨portA 3 Port.reset, 0, by decide +kernel⟩,
   ⟨portA 1 { Port.reset with locked := true }, 0, flitA 6 (p64 0 ++ p64 900), 0, 0, by decide +kernel⟩,
   ⟨portA 1 { Port.reset with locked := true }, 0, flitA 6 (p64 7 ++ p64 0), 0, 0, by decide +kernel⟩,
   ⟨portA 3 Port.reset, 0, flitA 6 (p64 0 ++ p64 900), 0, 0, by decide +kernel⟩,
   ⟨portA 5 Port.reset, 0, flitA 6 (p64 900 ++ p64 0), 0, 0, by decide +kernel⟩,
   ⟨portA 4 Port.reset, 0, flitA 6 [], 0, 0, by decide +kernel⟩,
   ⟨portA 6 Port.reset, 0, flitA 1 [7], 1, 0, by decide +kernel⟩,
   ⟨portA 3 Port.reset, 0, (flitA 1 [7]).set 9 1, 0, 2, by decide +kernel⟩,
   ⟨portA 3 Port.reset, 0, flitA 8 (p64 (2 * 2 ^ 60)), 0, 0, by decide +kernel⟩,
   ⟨portA 3 Port.reset, 0, flitA 8 (p64 (9 * 2 ^ 60)), 0, 0, by decide +kernel⟩,
   ⟨portA 6 Port.reset, 0, flitA 1 [7], 1, 0, by decide +kernel⟩,
   ⟨portA 3 Port.reset, 0, (flitA 1 [7]).set 9 1, 0, 2, by decide +kernel⟩,
   ⟨portA 3 Port.reset, 0, by decide +kernel⟩,
   ⟨portA 5 Port.reset, 0, by decide +kernel⟩,
   ⟨portA 3 { Port.reset with protocol := true }, 0, by decide +kernel⟩,
   ⟨portA 3 Port.reset, 0, by decide +kernel⟩,
   ⟨portA 5 Port.reset, 0, by decide +kernel⟩,
   ⟨portA 3 Port.reset, 0, by decide +kernel⟩,
   ⟨{ portA 5 Port.reset with now := 100000000 }, 0, by decide +kernel⟩,
   ⟨portA 3 Port.reset, 0, by decide +kernel⟩,
   ⟨{ (portA 3 Port.reset).wr Obj.lp1IdleUs 10 with now := 100000000 }, 0, by decide +kernel⟩,
   ⟨portA 4 Port.reset, 0, by decide +kernel⟩,
   ⟨(portA 3 { Port.reset with queue := [txA] }).wr (Obj.portPowerState 0) 1, 0, by decide +kernel⟩,
   ⟨portA 4 Port.reset, 0, by decide +kernel⟩,
   ⟨portA 4 Port.reset, .mctp .ha 9, 0, 1, by decide +kernel⟩,
   ⟨portA 4 Port.reset, .mctp .ha 9, 0, 0, by decide +kernel⟩,
   ⟨portA 3 Port.reset, .mctp .ha 9, 0, 1, by decide +kernel⟩⟩

/-- States that meet the hypotheses of InputPowerIsWatched, one for each clause. -/
theorem test_hypotheses_InputPowerIsWatched :
    (∃ (s : State) (mv : Nat), 44000 < mv ∧ s.power.ovp = false) ∧
    (∃ (s : State) (mv : Nat), (mv ≤ 44000 ∨ s.power.ovp = true)) ∧
    (∃ (s : State) (mv : Nat), 40000 ≤ mv) ∧
    (∃ (s : State) (mv : Nat), (s.standby = false ∨ mv ≤ 40000 ∨ 44000 < mv ∨ s.inEpisode Ev.inputHigh 0 = true)) ∧
    (∃ (s : State) (mv : Nat), (s.standby = false ∨ mv < 28000 ∨ 32000 ≤ mv ∨ s.inEpisode Ev.inputLow 0 = true)) ∧
    (∃ (s : State) (mv : Nat), (s.standby = false ∨ mv < 28000 ∨ 30000 ≤ mv)) ∧
    (∃ (s : State) (mv : Nat), (s.standby = false ∨ mv < 31000)) ∧
    (∃ (s : State) (mv : Nat), (s.standby = false ∨ 28000 ≤ mv)) ∧
    (∃ (s : State) (mv : Nat), mv < 40000) ∧
    (∃ (s : State) (mv : Nat), s.standby = true ∧ 40000 < mv ∧ mv ≤ 44000 ∧ s.inEpisode Ev.inputHigh 0 = false) ∧
    (∃ (s : State) (mv : Nat), s.standby = true ∧ 28000 ≤ mv ∧ mv < 32000 ∧ s.inEpisode Ev.inputLow 0 = false) ∧
    (∃ (s : State) (mv : Nat), s.standby = true ∧ 28000 ≤ mv ∧ mv < 30000) ∧
    (∃ (s : State) (mv : Nat), s.standby = true ∧ 31000 ≤ mv) ∧
    (∃ (s : State) (mv : Nat), s.standby = true ∧ mv < 28000) :=
  ⟨⟨up [], 44001, by decide +kernel⟩,
   ⟨up [], 44000, by decide +kernel⟩,
   ⟨up [], 40000, by decide +kernel⟩,
   ⟨up [], 40000, by decide +kernel⟩,
   ⟨up [], 32000, by decide +kernel⟩,
   ⟨up [], 30000, by decide +kernel⟩,
   ⟨up [], 30999, by decide +kernel⟩,
   ⟨up [], 28000, by decide +kernel⟩,
   ⟨up [], 39999, by decide +kernel⟩,
   ⟨up [], 40001, by decide +kernel⟩,
   ⟨up [], 31999, by decide +kernel⟩,
   ⟨up [], 29999, by decide +kernel⟩,
   ⟨(runA 5 fun p => { p with inputPark := true }).wr Obj.powerState 2, 31000, by decide +kernel⟩,
   ⟨up [], 27999, by decide +kernel⟩⟩

/-- States that meet the hypotheses of BellowsGrantsPower, one for each clause. -/
theorem test_hypotheses_BellowsGrantsPower :
    (∃ (s : State) (d : Fin 5) (e0 : Nat) (e1 : Nat) (e2 : Nat) (perOp : List Nat), s.bellowsOn = true) ∧
    (∃ (s : State) (d : Fin 5) (e0 : Nat) (e1 : Nat) (e2 : Nat) (perOp : List Nat), s.bellowsOn = false) ∧
    (∃ (s : State), s.bellowsOn = true ∧ 200 ≤ s.now % 1000 ∧ s.power.epoch < s.now / 1000) ∧
    (∃ (s : State), (s.bellowsOn = false ∨ s.now % 1000 < 200 ∨ s.now / 1000 ≤ s.power.epoch)) ∧
    (∃ (s : State) (g : Grant), s.power.next = some g ∧ (g.fallback = false ∧ 1000 * (g.epoch + 1) ≤ s.now ∨ g.fallback = true ∧ s.power.change = none)) ∧
    (∃ (s : State) (g : Grant), s.power.next = some g ∧ (g.fallback = false ∧ 1000 * (g.epoch + 1) ≤ s.now ∨ g.fallback = true ∧ s.power.change = none) ∧ s.power.change = none ∧ s.rd Obj.powerState < 2 ∧ g.park = false ∧ s.power.deep = false ∧ s.heldDown = false) ∧
    (∃ (s : State) (g : Grant), s.power.next = some g ∧ (¬ (g.fallback = false ∧ 1000 * (g.epoch + 1) ≤ s.now ∨ g.fallback = true ∧ s.power.change = none))) ∧
    (∃ (s : State), s.power.next = none) ∧
    (∃ (s : State) (c : Nat), s.power.change = some c ∧ s.railSettled = true) ∧
    (∃ (s : State), (s.power.change = none ∨ s.railSettled = false)) ∧
    (∃ (s : State) (d : Fin 5), s.bellowsOn = true ∧ (s.demand d).told = false ∧ (s.demand d).epoch + 4 ≤ s.now / 1000) ∧
    (∃ (s : State) (d : Fin 5), (s.bellowsOn = false ∨ (s.demand d).told = true ∨ s.now / 1000 < (s.demand d).epoch + 4)) ∧
    (∃ (s : State), s.bellowsOn = true ∧ 100 * us ≤ s.now - s.power.grantAt ∧ s.power.change = none) ∧
    (∃ (s : State), s.bellowsOn = true ∧ 100 * us ≤ s.now - s.power.grantAt ∧ s.power.change ≠ none) ∧
    (∃ (s : State), (s.bellowsOn = false ∨ s.now - s.power.grantAt < 100 * us)) ∧
    (∃ (s : State) (f : Nat), s.power.e2From = some f ∧ 100000 * ms ≤ s.now - f ∧ s.inEpisode Ev.backgroundStarved 0 = false) ∧
    (∃ (s : State) (f : Nat), s.power.e2From = some f ∧ 100000 * ms ≤ s.now - f ∧ s.inEpisode Ev.backgroundStarved 0 = true) ∧
    (∃ (s : State), (s.power.e2From = none ∨ s.now - s.power.e2From.getD 0 < 100000 * ms)) :=
  ⟨⟨runA 5000 id, 0, 300, 200, 100, [300, 250], by decide +kernel⟩,
   ⟨up [], 0, 300, 200, 100, [], by decide +kernel⟩,
   ⟨runA 5200 id, by decide +kernel⟩,
   ⟨runA 5100 id, by decide +kernel⟩,
   ⟨runA 5000 fun p => { p with next := some { epoch := 4, watts := [500, 60, 70, 80, 10], total := 720, op := 3, duty := 256, deferred := 1, budgetOp := 2, park := false, fallback := false } }, { epoch := 4, watts := [500, 60, 70, 80, 10], total := 720, op := 3, duty := 256, deferred := 1, budgetOp := 2, park := false, fallback := false }, by decide +kernel⟩,
   ⟨runA 5000 fun p => { p with next := some { epoch := 4, watts := [500, 60, 70, 80, 10], total := 720, op := 3, duty := 256, deferred := 1, budgetOp := 2, park := false, fallback := false } }, { epoch := 4, watts := [500, 60, 70, 80, 10], total := 720, op := 3, duty := 256, deferred := 1, budgetOp := 2, park := false, fallback := false }, by decide +kernel⟩,
   ⟨runA 4999 fun p => { p with next := some { epoch := 4, watts := [500, 60, 70, 80, 10], total := 720, op := 3, duty := 256, deferred := 1, budgetOp := 2, park := false, fallback := false } }, { epoch := 4, watts := [500, 60, 70, 80, 10], total := 720, op := 3, duty := 256, deferred := 1, budgetOp := 2, park := false, fallback := false }, by decide +kernel⟩,
   ⟨runA 5 id, by decide +kernel⟩,
   ⟨runA 100000 fun p => { p with change := some 3, railAt := 0, railFrom := 700, rail := 700 }, 3, by decide +kernel⟩,
   ⟨runA 5 id, by decide +kernel⟩,
   ⟨runA 5000 fun p => { p with demands := [(1, { e0 := 5, e1 := 0, e2 := 0, epoch := 1, told := false })] }, 1, by decide +kernel⟩,
   ⟨up [], 1, by decide +kernel⟩,
   ⟨runA 50000 id, by decide +kernel⟩,
   ⟨runA 50000 fun p => { p with change := some 2 }, by decide +kernel⟩,
   ⟨runA 5 id, by decide +kernel⟩,
   ⟨runA 10000000000 fun p => { p with e2From := some 0 }, 0, by decide +kernel⟩,
   ⟨(runA 10000000000 fun p => { p with e2From := some 0 }).raiseOnce Ev.backgroundStarved 0 [], 0, by decide +kernel⟩,
   ⟨runA 5 id, by decide +kernel⟩⟩

/-- States that meet the hypotheses of PowerIsMeasuredAndPaceFollowed, one for each clause. -/
theorem test_hypotheses_PowerIsMeasuredAndPaceFollowed :
    (∃ (s : State) (vin : List Nat) (iin : List Nat) (a : Activity), s.bellowsOn = true) ∧
    (∃ (s : State) (vin : List Nat) (iin : List Nat) (a : Activity), s.bellowsOn = false ∧ s.standby = true) ∧
    (∃ (s : State) (vin : List Nat) (iin : List Nat) (a : Activity), s.bellowsOn = false ∧ s.standby = false) ∧
    (∃ (s : State) (c : Nat) (a : Nat), c = s.rd Obj.capInForceW * 1000000 ∧ a = (if s.power.pins = [] then 0 else s.power.pins.sum / s.power.pins.length)) ∧
    (∃ (s : State), s.rd Obj.paceFollow = 1 ∧ s.rd Obj.groupSync = 1 ∧ (s.others.filterMap fun m => (s.limitOf m).map fun v => (v, m)) ≠ []) ∧
    (∃ (s : State), (s.rd Obj.paceFollow ≠ 1 ∨ s.rd Obj.groupSync ≠ 1 ∨ (s.others.filterMap fun m => (s.limitOf m).map fun v => (v, m)) = [])) :=
  ⟨⟨runA 5 id, [36000, 36002], [20000, 20002], { cells := [], vector := 0, bridges := [], channels := [], flits := 0, luma := 0 }, by decide +kernel⟩,
   ⟨up [], [36000], [20000], { cells := [], vector := 0, bridges := [], channels := [], flits := 0, luma := 0 }, by decide +kernel⟩,
   ⟨State.reset, [36000], [20000], { cells := [], vector := 0, bridges := [], channels := [], flits := 0, luma := 0 }, by decide +kernel⟩,
   ⟨(runA 5 fun p => { p with pins := [7000000] }).wr Obj.capInForceW 1, 1000000, 7000000, by decide +kernel⟩,
   ⟨(let s := (grpA.wr Obj.paceFollow 1).wr Obj.groupSync 1; { s with link := { s.link with pace := [(3, { pace := 20000, op := 3, throttled := true, parked := false, seq := 0, epoch := 0, prepEpoch := 0, step := 0, group := 0, tick := 1000 })] } }), by decide +kernel⟩,
   ⟨up [(Obj.ceilingPace, 3)], by decide +kernel⟩⟩

/-- States that meet the hypotheses of HeatIsWatched, one for each clause. -/
theorem test_hypotheses_HeatIsWatched :
    (∃ (s : State) (j : Fin 24) (a : Int) (b : Int) (pw : Nat), (s.sensor (2 * j)).good s.now a = true ∧ (s.sensor (2 * j)).discarded = false ∧ (s.sensor (2 * j + 1)).good s.now b = true ∧ (s.sensor (2 * j + 1)).discarded = false ∧ (a - b).natAbs ≤ 30 ∧ ((s.pair j).suspect = false ∨ ((s.pair j).calmFrom ≠ none ∧ 10000 * ms ≤ s.now - (s.pair j).calmFrom.getD 0))) ∧
    (∃ (s : State) (j : Fin 24) (a : Int) (b : Int) (pw : Nat), (s.sensor (2 * j)).good s.now a = true ∧ (s.sensor (2 * j)).discarded = false ∧ (s.sensor (2 * j + 1)).good s.now b = true ∧ (s.sensor (2 * j + 1)).discarded = false ∧ 30 < (a - b).natAbs ∧ (s.pair j).suspect = false) ∧
    (∃ (s : State) (j : Fin 24) (a : Int) (b : Int) (pw : Nat), (s.sensor (2 * j)).good s.now a = true ∧ (s.sensor (2 * j)).discarded = false ∧ (s.sensor (2 * j + 1)).good s.now b = true ∧ (s.sensor (2 * j + 1)).discarded = false ∧ (s.pair j).suspect = true ∧ (30 < (a - b).natAbs ∨ ¬ ((s.pair j).calmFrom ≠ none ∧ 10000 * ms ≤ s.now - (s.pair j).calmFrom.getD 0))) ∧
    (∃ (s : State) (j : Fin 24) (a : Int) (b : Int) (pw : Nat), ((s.sensor (2 * j)).good s.now a = false ∨ (s.sensor (2 * j)).discarded = true) ∧ (s.sensor (2 * j + 1)).good s.now b = true ∧ (s.sensor (2 * j + 1)).discarded = false) ∧
    (∃ (s : State) (j : Fin 24) (a : Int) (b : Int) (pw : Nat), (s.sensor (2 * j)).good s.now a = true ∧ (s.sensor (2 * j)).discarded = false ∧ ((s.sensor (2 * j + 1)).good s.now b = false ∨ (s.sensor (2 * j + 1)).discarded = true)) ∧
    (∃ (s : State) (j : Fin 24) (a : Int) (b : Int) (pw : Nat), ((s.sensor (2 * j)).good s.now a = false ∨ (s.sensor (2 * j)).discarded = true) ∧ ((s.sensor (2 * j + 1)).good s.now b = false ∨ (s.sensor (2 * j + 1)).discarded = true)) ∧
    (∃ (s : State) (j : Fin 24) (f : Nat), (s.pair j).overFrom = some f ∧ (¬ ((s.pair j).calmFrom ≠ none ∧ 10000 * ms ≤ s.now - (s.pair j).calmFrom.getD 0)) ∧ (s.pair j).suspect = false ∧ 100 * ms ≤ s.now - f) ∧
    (∃ (s : State) (j : Fin 24), ((s.pair j).overFrom = none ∨ (s.pair j).suspect = true ∨ s.now - (s.pair j).overFrom.getD 0 < 100 * ms)) ∧
    (∃ (s : State) (k : Fin 48) (f : Nat), (s.sensor k).cleanFrom = some f ∧ (s.sensor k).discarded = true ∧ 10 * ms ≤ s.now - f) ∧
    (∃ (s : State) (k : Fin 48), ((s.sensor k).cleanFrom = none ∨ (s.sensor k).discarded = false ∨ s.now - (s.sensor k).cleanFrom.getD 0 < 10 * ms)) ∧
    (∃ (s : State), s.highT < s.heatTemp ∧ s.power.highFrom ≠ none ∧ 10 * ms ≤ s.now - s.power.highFrom.getD 0 ∧ 10 * ms ≤ s.now - s.power.stepAt) ∧
    (∃ (s : State), s.heatTemp ≤ s.highT ∧ s.throttleT < s.heatTemp ∧ ms ≤ s.now - s.power.stepAt ∧ s.rd Obj.ceilingThermal < 7) ∧
    (∃ (s : State), s.heatTemp ≤ s.highT ∧ s.heatTemp ≤ s.throttleT ∧ s.heatTemp ≤ s.throttleT - 20 ∧ s.bankOver = false ∧ 10 * ms ≤ s.now - s.power.stepAt ∧ (s.rd Obj.ceilingThermal ≠ 0 ∨ s.power.heatDuty < 256)) ∧
    (∃ (s : State), (¬ (s.highT < s.heatTemp ∧ s.power.highFrom ≠ none ∧ 10 * ms ≤ s.now - s.power.highFrom.getD 0 ∧ 10 * ms ≤ s.now - s.power.stepAt)) ∧ (¬ (s.heatTemp ≤ s.highT ∧ s.throttleT < s.heatTemp ∧ ms ≤ s.now - s.power.stepAt ∧ s.rd Obj.ceilingThermal < 7)) ∧ (¬ (s.heatTemp ≤ s.highT ∧ s.heatTemp ≤ s.throttleT ∧ s.heatTemp ≤ s.throttleT - 20 ∧ s.bankOver = false ∧ 10 * ms ≤ s.now - s.power.stepAt ∧ (s.rd Obj.ceilingThermal ≠ 0 ∨ s.power.heatDuty < 256)))) ∧
    (∃ (s : State) (k : Fin 48), s.start.rails = true) ∧
    (∃ (s : State) (k : Fin 48), s.start.rails = false) :=
  ⟨⟨runA 5 id, 3, 600, 610, 10, by decide +kernel⟩,
   ⟨runA 5 id, 3, 600, 650, 10, by decide +kernel⟩,
   ⟨runA 5 fun p => { p with pairs := [(3, { PairState.fresh with suspect := true })] }, 3, 600, 610, 10, by decide +kernel⟩,
   ⟨runA 5 id, 3, 1600, 610, 10, by decide +kernel⟩,
   ⟨runA 5 id, 3, 600, -300, 10, by decide +kernel⟩,
   ⟨runA 5 id, 3, 1600, -300, 10, by decide +kernel⟩,
   ⟨runA 100000000 fun p => { p with pairs := [(3, { PairState.fresh with overFrom := some 0 })] }, 3, 0, by decide +kernel⟩,
   ⟨runA 5 id, 3, by decide +kernel⟩,
   ⟨runA 100000000 fun p => { p with sensors := [(7, { Sensor.fresh with discarded := true, cleanFrom := some 0 })] }, 7, 0, by decide +kernel⟩,
   ⟨runA 5 id, 3, by decide +kernel⟩,
   ⟨(runA 10000000 fun p => { p with highFrom := some 0 }).wr (Obj.pairValue 1) (10 * (up []).rd Obj.highC + 5), by decide +kernel⟩,
   ⟨(runA 1000000 id).wr (Obj.pairValue 1) (10 * (up []).rd Obj.throttleC + 5), by decide +kernel⟩,
   ⟨(runA 10000000 id).wr Obj.ceilingThermal 4, by decide +kernel⟩,
   ⟨runA 5 id, by decide +kernel⟩,
   ⟨runA 5 id, 3, by decide +kernel⟩,
   ⟨up [], 3, by decide +kernel⟩⟩

/-- States that meet the hypotheses of CoolantIsWatched, one for each clause. -/
theorem test_hypotheses_CoolantIsWatched :
    (∃ (s : State) (mac : Nat) (pdu : Bytes) (x : Coolant), s.standby = true ∧ trayPduOk pdu = true ∧ s.trayDue mac (unle ((pdu.drop 8).take 2)) = true ∧ x = { inlet := toInt 16 (unle ((pdu.drop 10).take 2)), outlet := toInt 16 (unle ((pdu.drop 12).take 2)), flow := unle ((pdu.drop 14).take 2) } ∧ x.inRange = true) ∧
    (∃ (s : State) (mac : Nat) (pdu : Bytes), s.standby = true ∧ trayPduOk pdu = false) ∧
    (∃ (s : State) (mac : Nat) (pdu : Bytes), s.standby = true ∧ trayPduOk pdu = true ∧ (s.trayDue mac (unle ((pdu.drop 8).take 2)) = false ∨ Coolant.inRange { inlet := toInt 16 (unle ((pdu.drop 10).take 2)), outlet := toInt 16 (unle ((pdu.drop 12).take 2)), flow := unle ((pdu.drop 14).take 2) } = false)) ∧
    (∃ (s : State) (mac : Nat) (pdu : Bytes), s.standby = false) ∧
    (∃ (s : State), s.standby = true ∧ s.power.lost = false ∧ 350 * ms ≤ s.now - s.power.reportAt.getD 0) ∧
    (∃ (s : State), (s.standby = false ∨ s.power.lost = true ∨ s.now - s.power.reportAt.getD 0 < 350 * ms)) ∧
    (∃ (s : State) (f : Nat), s.power.mismatchFrom = some f ∧ 10000 * ms ≤ s.now - f ∧ s.inEpisode Ev.coolantMismatch 0 = false) ∧
    (∃ (s : State), (s.power.mismatchFrom = none ∨ s.now - s.power.mismatchFrom.getD 0 < 10000 * ms ∨ s.inEpisode Ev.coolantMismatch 0 = true)) ∧
    (∃ (s : State), s.rd Obj.moduleState = 2 ∧ s.fw.phase = 0) ∧
    (∃ (s : State), (s.rd Obj.moduleState ≠ 2 ∨ s.fw.phase ≠ 0)) ∧
    (∃ (s : State), s.power.hold = true ∧ 3 ≤ s.power.good) ∧
    (∃ (s : State), (s.power.hold = false ∨ s.power.good < 3)) :=
  ⟨⟨runA 5 id, 7, trayA, { inlet := 2500, outlet := 3000, flow := 2000 }, by decide +kernel⟩,
   ⟨runA 5 id, 7, [], by decide +kernel⟩,
   ⟨runA 5 fun p => { p with reportAt := some 0 }, 7, trayA, by decide +kernel⟩,
   ⟨State.reset, 7, trayA, by decide +kernel⟩,
   ⟨runA 100000000 id, by decide +kernel⟩,
   ⟨runA 5 id, by decide +kernel⟩,
   ⟨runA 10000000000 fun p => { p with mismatchFrom := some 0 }, 0, by decide +kernel⟩,
   ⟨runA 5 id, by decide +kernel⟩,
   ⟨runA 5 id, by decide +kernel⟩,
   ⟨State.reset, by decide +kernel⟩,
   ⟨(runA 5 fun p => { p with hold := true, good := 3 }).wr Obj.powerState 3, by decide +kernel⟩,
   ⟨runA 5 id, by decide +kernel⟩⟩

/-- States that meet the hypotheses of ClocksStretchAndAge, one for each clause. -/
theorem test_hypotheses_ClocksStretchAndAge :
    (∃ (s : State) (r : Fin 12) (margin : Nat) (cycles : Nat), margin < 1 ∧ s.rd (Obj.regionLevel (r + 1)) < 3) ∧
    (∃ (s : State) (r : Fin 12) (margin : Nat) (cycles : Nat), 1 ≤ margin ∧ margin < s.rd Obj.stretchTaps ∧ s.rd (Obj.regionLevel (r + 1)) < 2) ∧
    (∃ (s : State) (r : Fin 12) (margin : Nat) (cycles : Nat), (if margin < 1 then 3 else if margin < s.rd Obj.stretchTaps then 2 else 0) ≤ s.rd (Obj.regionLevel (r + 1))) ∧
    (∃ (s : State) (r : Fin 12) (margin : Nat) (cycles : Nat), s.rd Obj.stretchTaps ≤ margin ∧ 16 ≤ cycles ∧ s.levelFloor r < s.rd (Obj.regionLevel (r + 1))) ∧
    (∃ (s : State) (r : Fin 12) (margin : Nat) (cycles : Nat), (margin < s.rd Obj.stretchTaps ∨ cycles < 16 ∨ s.rd (Obj.regionLevel (r + 1)) ≤ s.levelFloor r)) ∧
    (∃ (s : State) (row : Fin 12) (col : Fin 17) (mon : Fin 4), s.clock.masked.contains (4 * (32 * row.val + col.val) + mon.val) = false ∧ s.start.retired.contains (32 * row.val + col.val) = false) ∧
    (∃ (s : State) (row : Fin 12) (col : Fin 17) (mon : Fin 4), (s.clock.masked.contains (4 * (32 * row.val + col.val) + mon.val) = true ∨ s.start.retired.contains (32 * row.val + col.val) = true)) ∧
    (∃ (s : State) (w : Nat), s.loopOn = true) ∧
    (∃ (s : State) (w : Nat), s.loopOn = false) ∧
    (∃ (s : State) (r : Fin 12) (ppm : Nat), toInt 32 (s.rd Obj.vtrimMv) = 15 ∧ 10000 < ppm ∧ s.inEpisode Ev.marginLow 0 = false) ∧
    (∃ (s : State) (r : Fin 12) (ppm : Nat), (¬ (toInt 32 (s.rd Obj.vtrimMv) = 15 ∧ 10000 < ppm ∧ s.inEpisode Ev.marginLow 0 = false))) ∧
    (∃ (s : State), s.standby = true ∧ s.clock.sessionRec = false ∧ sec ≤ s.clock.ran) ∧
    (∃ (s : State), s.standby = true ∧ (¬ (s.clock.sessionRec = false ∧ sec ≤ s.clock.ran)) ∧ 86400 ≤ s.poweredS - s.clock.lastDay) ∧
    (∃ (s : State) (c : Nat) (r : List Nat), s.standby = true ∧ (¬ (s.clock.sessionRec = false ∧ sec ≤ s.clock.ran)) ∧ s.poweredS - s.clock.lastDay < 86400 ∧ s.clock.due = c :: r) ∧
    (∃ (s : State), (s.standby = false ∨ (¬ (s.clock.sessionRec = false ∧ sec ≤ s.clock.ran) ∧ s.poweredS - s.clock.lastDay < 86400 ∧ s.clock.due = []))) ∧
    (∃ (s : State) (skewed : List Nat), s.standby = true ∧ s.clock.syncAt / 65536 < s.now / 65536) ∧
    (∃ (s : State) (skewed : List Nat), (s.standby = false ∨ s.now / 65536 ≤ s.clock.syncAt / 65536)) ∧
    (∃ (s : State), s.standby = true ∧ 60 ≤ ((s.now - s.clock.savedAt) / sec)) ∧
    (∃ (s : State), (s.standby = false ∨ ((s.now - s.clock.savedAt) / sec) < 60)) :=
  ⟨⟨up [], 2, 0, 7, by decide +kernel⟩,
   ⟨up [(Obj.regionLevel 3, 1)], 2, 1, 7, by decide +kernel⟩,
   ⟨up [], 2, 60, 7, by decide +kernel⟩,
   ⟨up [(Obj.regionLevel 3, 2)], 2, 60, 16, by decide +kernel⟩,
   ⟨up [(Obj.regionLevel 3, 2)], 2, 60, 15, by decide +kernel⟩,
   ⟨up [], 1, 2, 3, by decide +kernel⟩,
   ⟨(let s := up []; { s with start := { s.start with retired := [34] } }), 1, 2, 3, by decide +kernel⟩,
   ⟨runA 5 id, 1, by decide +kernel⟩,
   ⟨up [], 1, by decide +kernel⟩,
   ⟨up [(Obj.vtrimMv, 15)], 2, 20000, by decide +kernel⟩,
   ⟨up [(Obj.vtrimMv, 15)], 2, 10000, by decide +kernel⟩,
   ⟨(let s := runA 200000000 id; { s with clock := { s.clock with ran := 200000000 } }), by decide +kernel⟩,
   ⟨(runA 8640000000000 id), by decide +kernel⟩,
   ⟨(let s := runA 200000000 id; { s with clock := { s.clock with due := [2, 3] } }), 2, [3], by decide +kernel⟩,
   ⟨runA 5 id, by decide +kernel⟩,
   ⟨(let s := runA 65536 id; { s with clock := { s.clock with copies := [3] } }), [3, 4], by decide +kernel⟩,
   ⟨runA 5 id, [3], by decide +kernel⟩,
   ⟨runA 7000000000 id, by decide +kernel⟩,
   ⟨runA 5 id, by decide +kernel⟩⟩

/-- States that meet the hypotheses of ClearActionsClear, one for each clause. -/
theorem test_hypotheses_ClearActionsClear :
    (∃ (s : State) (src : Src) (arg : Nat), arg = 1 ∧ s.fldDenied src Obj.cumClear = false) ∧
    (∃ (s : State) (src : Src) (arg : Nat), (s.fldDenied src Obj.cumClear = true ∨ arg ≠ 1)) ∧
    (∃ (s : State) (src : Src) (arg : Nat), arg = 1 ∧ s.fldDenied src Obj.mxClear = false) ∧
    (∃ (s : State) (src : Src) (arg : Nat), (s.fldDenied src Obj.mxClear = true ∨ arg ≠ 1)) ∧
    (∃ (s : State) (src : Src) (arg : Nat), arg = 1 ∧ s.fldDenied src Obj.castClear = false) ∧
    (∃ (s : State) (src : Src) (arg : Nat), (s.fldDenied src Obj.castClear = true ∨ arg ≠ 1)) ∧
    (∃ (s : State) (src : Src) (arg : Nat), arg = 1 ∧ s.fldDenied src Obj.vxClear = false) ∧
    (∃ (s : State) (src : Src) (arg : Nat), (s.fldDenied src Obj.vxClear = true ∨ arg ≠ 1)) ∧
    (∃ (s : State) (src : Src) (arg : Nat), arg = 1 ∧ s.fldDenied src Obj.fabricClear = false) ∧
    (∃ (s : State) (src : Src) (arg : Nat), (s.fldDenied src Obj.fabricClear = true ∨ arg ≠ 1)) ∧
    (∃ (s : State) (src : Src) (arg : Nat), arg = 1 ∧ s.fldDenied src Obj.cmdClear = false) ∧
    (∃ (s : State) (src : Src) (arg : Nat), (s.fldDenied src Obj.cmdClear = true ∨ arg ≠ 1)) ∧
    (∃ (s : State) (src : Src) (arg : Nat), arg = 1 ∧ s.fldDenied src Obj.updClear = false) ∧
    (∃ (s : State) (src : Src) (arg : Nat), (s.fldDenied src Obj.updClear = true ∨ arg ≠ 1)) ∧
    (∃ (s : State) (src : Src) (arg : Nat), arg = 1 ∧ s.fldDenied src Obj.tmClear = false) ∧
    (∃ (s : State) (src : Src) (arg : Nat), (s.fldDenied src Obj.tmClear = true ∨ arg ≠ 1)) ∧
    (∃ (s : State) (src : Src) (arg : Nat), arg = 1 ∧ s.fldDenied src Obj.bankClear = false) ∧
    (∃ (s : State) (src : Src) (arg : Nat), (s.fldDenied src Obj.bankClear = true ∨ arg ≠ 1)) ∧
    (∃ (s : State) (src : Src) (arg : Nat), arg = 1 ∧ s.fldDenied src Obj.stClear = false) ∧
    (∃ (s : State) (src : Src) (arg : Nat), (s.fldDenied src Obj.stClear = true ∨ arg ≠ 1)) ∧
    (∃ (s : State) (src : Src) (arg : Nat), arg = 1 ∧ s.fldDenied src Obj.inClear = false) ∧
    (∃ (s : State) (src : Src) (arg : Nat), (s.fldDenied src Obj.inClear = true ∨ arg ≠ 1)) ∧
    (∃ (s : State) (src : Src) (port : Fin 16) (arg : Nat), arg = 1 ∧ s.fldDenied src (Obj.linkClear port) = false) ∧
    (∃ (s : State) (src : Src) (port : Fin 16) (arg : Nat), (s.fldDenied src (Obj.linkClear port) = true ∨ arg ≠ 1)) ∧
    (∃ (s : State) (src : Src) (arg : Nat), arg = 1 ∧ s.fldDenied src Obj.collClear = false) ∧
    (∃ (s : State) (src : Src) (arg : Nat), (s.fldDenied src Obj.collClear = true ∨ arg ≠ 1)) ∧
    (∃ (s : State) (src : Src) (arg : Nat), arg = 1 ∧ s.fldDenied src Obj.clkClear = false) ∧
    (∃ (s : State) (src : Src) (arg : Nat), (s.fldDenied src Obj.clkClear = true ∨ arg ≠ 1)) ∧
    (∃ (s : State) (src : Src) (arg : Nat), arg = 1 ∧ s.fldDenied src Obj.dictClear = false) ∧
    (∃ (s : State) (src : Src) (arg : Nat), (s.fldDenied src Obj.dictClear = true ∨ arg ≠ 1)) ∧
    (∃ (s : State) (src : Src) (arg : Nat), arg = 1 ∧ s.fldDenied src Obj.ptClear = false) ∧
    (∃ (s : State) (src : Src) (arg : Nat), (s.fldDenied src Obj.ptClear = true ∨ arg ≠ 1)) ∧
    (∃ (s : State) (src : Src) (block : Nat) (mask : Nat), 1 ≤ block ∧ block ≤ 15 ∧ mask < 2 ^ 32 ∧ s.fldDenied src (Obj.flagsClear block) = false) ∧
    (∃ (s : State) (src : Src) (block : Nat) (mask : Nat), (s.fldDenied src (Obj.flagsClear block) = true ∨ 2 ^ 32 ≤ mask) ∧ (1 ≤ block ∧ block ≤ 15)) :=
  ⟨⟨up [(0x7010 * 256 + 1, 5)], .mctp .ha 9, 1, by decide +kernel⟩,
   ⟨up [], .mctp .ha 9, 0, by decide +kernel⟩,
   ⟨up [(0xA010 * 256 + 1, 5)], .mctp .ha 9, 1, by decide +kernel⟩,
   ⟨up [], .mctp .ha 9, 0, by decide +kernel⟩,
   ⟨up [(0xA018 * 256 + 1, 5)], .mctp .ha 9, 1, by decide +kernel⟩,
   ⟨up [], .mctp .ha 9, 0, by decide +kernel⟩,
   ⟨up [(0xA014 * 256 + 1, 5)], .mctp .ha 9, 1, by decide +kernel⟩,
   ⟨up [], .mctp .ha 9, 0, by decide +kernel⟩,
   ⟨up [(0xA01C * 256 + 1, 5)], .mctp .ha 9, 1, by decide +kernel⟩,
   ⟨up [], .mctp .ha 9, 0, by decide +kernel⟩,
   ⟨up [(0xA020 * 256 + 1, 5)], .mctp .ha 9, 1, by decide +kernel⟩,
   ⟨up [], .mctp .ha 9, 0, by decide +kernel⟩,
   ⟨up [(0xA030 * 256 + 1, 5)], .mctp .ha 9, 1, by decide +kernel⟩,
   ⟨up [], .mctp .ha 9, 0, by decide +kernel⟩,
   ⟨up [(0xA040 * 256 + 1, 5)], .mctp .ha 9, 1, by decide +kernel⟩,
   ⟨up [], .mctp .ha 9, 0, by decide +kernel⟩,
   ⟨up [(0xA044 * 256 + 1, 5)], .mctp .ha 9, 1, by decide +kernel⟩,
   ⟨up [], .mctp .ha 9, 0, by decide +kernel⟩,
   ⟨up [(0xA050 * 256 + 1, 5)], .mctp .ha 9, 1, by decide +kernel⟩,
   ⟨up [], .mctp .ha 9, 0, by decide +kernel⟩,
   ⟨up [(0xA054 * 256 + 1, 5)], .mctp .ha 9, 1, by decide +kernel⟩,
   ⟨up [], .mctp .ha 9, 0, by decide +kernel⟩,
   ⟨up [(0xA06301, 5)], .mctp .ha 9, 3, 1, by decide +kernel⟩,
   ⟨up [], .mctp .ha 9, 3, 0, by decide +kernel⟩,
   ⟨up [(0xA070 * 256 + 1, 5)], .mctp .ha 9, 1, by decide +kernel⟩,
   ⟨up [], .mctp .ha 9, 0, by decide +kernel⟩,
   ⟨up [(0xA090 * 256 + 1, 5)], .mctp .ha 9, 1, by decide +kernel⟩,
   ⟨up [], .mctp .ha 9, 0, by decide +kernel⟩,
   ⟨up [(0xA0A0 * 256 + 1, 5)], .mctp .ha 9, 1, by decide +kernel⟩,
   ⟨up [], .mctp .ha 9, 0, by decide +kernel⟩,
   ⟨up [(0xA08001, 5)], .mctp .ha 9, 1, by decide +kernel⟩,
   ⟨up [], .mctp .ha 9, 0, by decide +kernel⟩,
   ⟨up [(Obj.flags 2, 7)], .mctp .ha 9, 2, 2, by decide +kernel⟩,
   ⟨up [], .mctp .ha 9, 2, 2 ^ 32, by decide +kernel⟩⟩

/-- States that meet the hypotheses of DictionaryFramesAreServed, one for each clause. -/
theorem test_hypotheses_DictionaryFramesAreServed :
    (∃ (s : State) (src : Src) (pdu : Bytes) (held : Nat) (xs : List Item), s.standby = true ∧ held < 8 ∧ s.keptReply src pdu = none ∧ requestItems pdu 1 = some xs) ∧
    (∃ (s : State) (src : Src) (pdu : Bytes) (held : Nat), s.standby = false) ∧
    (∃ (s : State) (src : Src) (pdu : Bytes) (held : Nat), s.standby = true ∧ 8 ≤ held) ∧
    (∃ (s : State) (src : Src) (pdu : Bytes) (held : Nat) (r : Bytes), s.standby = true ∧ held < 8 ∧ s.keptReply src pdu = some r) ∧
    (∃ (s : State) (src : Src) (pdu : Bytes) (held : Nat), s.standby = true ∧ held < 8 ∧ s.keptReply src pdu = none ∧ requestItems pdu 1 = none) ∧
    (∃ (s : State) (src : Src) (pdu : Bytes) (held : Nat) (x : Item), s.standby = true ∧ held < 8 ∧ s.keptReply src pdu = none ∧ requestItems pdu 2 = some [x] ∧ (s.heard src pdu).account.itemStatus src x = 0) ∧
    (∃ (s : State) (src : Src) (pdu : Bytes) (held : Nat) (x : Item), s.standby = true ∧ held < 8 ∧ s.keptReply src pdu = none ∧ requestItems pdu 2 = some [x] ∧ (s.heard src pdu).account.itemStatus src x = 0 ∧ x.acc ≠ .wa ∧ isMode x.key = false ∧ isPlan x.key = false ∧ (x.idx < 0x6810 ∨ 0x6813 < x.idx) ∧ (x.idx < 0x5000 ∨ 0x500F < x.idx) ∧ x.key ≠ Obj.actTick) ∧
    (∃ (s : State) (src : Src) (pdu : Bytes) (held : Nat) (x : Item), s.standby = true ∧ held < 8 ∧ s.keptReply src pdu = none ∧ requestItems pdu 2 = some [x] ∧ (s.heard src pdu).account.itemStatus src x = 0 ∧ x.acc ≠ .wa ∧ isMode x.key = true) ∧
    (∃ (s : State) (src : Src) (pdu : Bytes) (held : Nat) (x : Item), s.standby = true ∧ held < 8 ∧ s.keptReply src pdu = none ∧ requestItems pdu 2 = some [x] ∧ (s.heard src pdu).account.itemStatus src x = 0 ∧ x.acc ≠ .wa ∧ isPlan x.key = true) ∧
    (∃ (s : State) (src : Src) (pdu : Bytes) (held : Nat) (x : Item), s.standby = true ∧ held < 8 ∧ s.keptReply src pdu = none ∧ requestItems pdu 2 = some [x] ∧ pduField pdu 7 1 % 2 = 0 ∧ (s.heard src pdu).account.itemStatus src x ≠ 0) ∧
    (∃ (s : State) (src : Src) (pdu : Bytes) (held : Nat) (xs : List Item), s.standby = true ∧ held < 8 ∧ s.keptReply src pdu = none ∧ requestItems pdu 2 = some xs ∧ pduField pdu 7 1 % 2 = 0) ∧
    (∃ (s : State) (src : Src) (pdu : Bytes) (held : Nat) (xs : List Item), s.standby = true ∧ held < 8 ∧ s.keptReply src pdu = none ∧ requestItems pdu 2 = some xs ∧ pduField pdu 7 1 % 2 = 1 ∧ ((s.heard src pdu).account.checkAll src xs).all (· == 0) = true) ∧
    (∃ (s : State) (src : Src) (pdu : Bytes) (held : Nat) (xs : List Item), s.standby = true ∧ held < 8 ∧ s.keptReply src pdu = none ∧ requestItems pdu 2 = some xs ∧ pduField pdu 7 1 % 2 = 1 ∧ ((s.heard src pdu).account.checkAll src xs).all (· == 0) = false) ∧
    (∃ (s : State) (src : Src) (pdu : Bytes) (held : Nat), s.standby = false) ∧
    (∃ (s : State) (src : Src) (pdu : Bytes) (held : Nat), s.standby = true ∧ 8 ≤ held) ∧
    (∃ (s : State) (src : Src) (pdu : Bytes) (held : Nat) (r : Bytes), s.standby = true ∧ held < 8 ∧ s.keptReply src pdu = some r) ∧
    (∃ (s : State) (src : Src) (pdu : Bytes) (held : Nat), s.standby = true ∧ held < 8 ∧ s.keptReply src pdu = none ∧ requestItems pdu 2 = none) ∧
    (∃ (s : State) (src : Src) (pdu : Bytes) (held : Nat) (f : Nat) (n : Nat) (a : Nat) (rs : List EventRec), s.standby = true ∧ held < 8 ∧ s.keptReply src pdu = none ∧ logRequest pdu = some (f, n) ∧ s.logFrom f n = (a, rs)) ∧
    (∃ (s : State) (src : Src) (pdu : Bytes) (held : Nat), s.standby = false) ∧
    (∃ (s : State) (src : Src) (pdu : Bytes) (held : Nat), s.standby = true ∧ 8 ≤ held) ∧
    (∃ (s : State) (src : Src) (pdu : Bytes) (held : Nat) (r : Bytes), s.standby = true ∧ held < 8 ∧ s.keptReply src pdu = some r) ∧
    (∃ (s : State) (src : Src) (pdu : Bytes) (held : Nat), s.standby = true ∧ held < 8 ∧ s.keptReply src pdu = none ∧ logRequest pdu = none) ∧
    (∃ (s : State) (src : Src) (pdu : Bytes) (held : Nat), s.standby = true ∧ held < 8 ∧ s.keptReply src pdu = none ∧ headerOk pdu 6 = true ∧ pdu.length = 8 ∧ pduField pdu 6 1 = 0) ∧
    (∃ (s : State) (src : Src) (pdu : Bytes) (held : Nat), s.standby = false) ∧
    (∃ (s : State) (src : Src) (pdu : Bytes) (held : Nat), s.standby = true ∧ 8 ≤ held) ∧
    (∃ (s : State) (src : Src) (pdu : Bytes) (held : Nat) (r : Bytes), s.standby = true ∧ held < 8 ∧ s.keptReply src pdu = some r) ∧
    (∃ (s : State) (src : Src) (pdu : Bytes) (held : Nat), s.standby = true ∧ held < 8 ∧ s.keptReply src pdu = none ∧ (¬ (headerOk pdu 6 = true ∧ pdu.length = 8 ∧ pduField pdu 6 1 = 0))) :=
  ⟨⟨up [], .mctp .ha 9, readA Obj.moduleState, 0, [{ idx := 0x9001, sub := 1, ty := 0, status := 0, reserved := 0, value := [] }], by decide +kernel⟩,
   ⟨State.reset, .mctp .ha 9, readA Obj.moduleState, 0, by decide +kernel⟩,
   ⟨up [], .mctp .ha 9, readA Obj.moduleState, 8, by decide +kernel⟩,
   ⟨(let s := up []; { s with dict := { s.dict with kept := [{ src := .mctp .ha 9, request := readA Obj.moduleState, reply := [5], tick := 0 }] } }), .mctp .ha 9, readA Obj.moduleState, 0, [5], by decide +kernel⟩,
   ⟨up [], .mctp .ha 9, [1, 2, 0, 0, 9], 0, by decide +kernel⟩,
   ⟨up [], .mctp .ha 9, writeA 0 Obj.lp1IdleUs 2 2 100, 0, { idx := Obj.lp1IdleUs / 256, sub := Obj.lp1IdleUs % 256, ty := 2, status := 0, reserved := 0, value := le 2 100 }, by decide +kernel⟩,
   ⟨up [], .mctp .ha 9, writeA 0 Obj.lp1IdleUs 2 2 100, 0, { idx := Obj.lp1IdleUs / 256, sub := Obj.lp1IdleUs % 256, ty := 2, status := 0, reserved := 0, value := le 2 100 }, by decide +kernel⟩,
   ⟨up [], .mctp .ha 9, writeA 0 0x704004 2 2 100, 0, { idx := 0x704004 / 256, sub := 0x704004 % 256, ty := 2, status := 0, reserved := 0, value := le 2 100 }, by decide +kernel⟩,
   ⟨up [], .mctp .ha 9, writeA 0 Obj.planModule 2 2 5, 0, { idx := Obj.planModule / 256, sub := Obj.planModule % 256, ty := 2, status := 0, reserved := 0, value := le 2 5 }, by decide +kernel⟩,
   ⟨up [], .mctp .ha 9, writeA 0 Obj.moduleState 1 1 0, 0, { idx := Obj.moduleState / 256, sub := Obj.moduleState % 256, ty := 1, status := 0, reserved := 0, value := [0] }, by decide +kernel⟩,
   ⟨up [], .mctp .ha 9, writeA 0 Obj.lp1IdleUs 2 2 100, 0, [{ idx := Obj.lp1IdleUs / 256, sub := Obj.lp1IdleUs % 256, ty := 2, status := 0, reserved := 0, value := le 2 100 }], by decide +kernel⟩,
   ⟨up [], .mctp .ha 9, writeA 1 Obj.lp1IdleUs 2 2 100, 0, [{ idx := Obj.lp1IdleUs / 256, sub := Obj.lp1IdleUs % 256, ty := 2, status := 0, reserved := 0, value := le 2 100 }], by decide +kernel⟩,
   ⟨up [], .mctp .ha 9, writeA 1 Obj.moduleState 1 1 0, 0, [{ idx := 0x9001, sub := 1, ty := 1, status := 0, reserved := 0, value := [0] }], by decide +kernel⟩,
   ⟨State.reset, .mctp .ha 9, writeA 0 Obj.lp1IdleUs 2 2 100, 0, by decide +kernel⟩,
   ⟨up [], .mctp .ha 9, writeA 0 Obj.lp1IdleUs 2 2 100, 8, by decide +kernel⟩,
   ⟨(let s := up []; { s with dict := { s.dict with kept := [{ src := .mctp .ha 9, request := writeA 0 Obj.lp1IdleUs 2 2 100, reply := [5], tick := 0 }] } }), .mctp .ha 9, writeA 0 Obj.lp1IdleUs 2 2 100, 0, [5], by decide +kernel⟩,
   ⟨up [], .mctp .ha 9, [1, 2, 0, 0, 9], 0, by decide +kernel⟩,
   ⟨(up []).raise Ev.linkUp [], .mctp .ha 9, pduHeader 5 7 16 0 0 ++ p32 0 ++ [3, 0, 0, 0], 0, 0, 3, 0, ((up []).raise Ev.linkUp []).dict.log, by decide +kernel⟩,
   ⟨State.reset, .mctp .ha 9, pduHeader 5 7 16 0 0 ++ p32 0 ++ [3, 0, 0, 0], 0, by decide +kernel⟩,
   ⟨up [], .mctp .ha 9, pduHeader 5 7 16 0 0 ++ p32 0 ++ [3, 0, 0, 0], 8, by decide +kernel⟩,
   ⟨(let s := up []; { s with dict := { s.dict with kept := [{ src := .mctp .ha 9, request := pduHeader 5 7 16 0 0 ++ p32 0 ++ [3, 0, 0, 0], reply := [5], tick := 0 }] } }), .mctp .ha 9, pduHeader 5 7 16 0 0 ++ p32 0 ++ [3, 0, 0, 0], 0, [5], by decide +kernel⟩,
   ⟨up [], .mctp .ha 9, [1, 2, 0, 0, 9], 0, by decide +kernel⟩,
   ⟨up [], .mctp .ha 9, pduHeader 6 7 8 0 0, 0, by decide +kernel⟩,
   ⟨State.reset, .mctp .ha 9, pduHeader 6 7 8 0 0, 0, by decide +kernel⟩,
   ⟨up [], .mctp .ha 9, pduHeader 6 7 8 0 0, 8, by decide +kernel⟩,
   ⟨(let s := up []; { s with dict := { s.dict with kept := [{ src := .mctp .ha 9, request := pduHeader 6 7 8 0 0, reply := [5], tick := 0 }] } }), .mctp .ha 9, pduHeader 6 7 8 0 0, 0, [5], by decide +kernel⟩,
   ⟨up [], .mctp .ha 9, [1, 2, 0, 0, 9], 0, by decide +kernel⟩⟩

/-- States that meet the hypotheses of InterruptsMirrorAndManagement, one for each clause. -/
theorem test_hypotheses_InterruptsMirrorAndManagement :
    (∃ (s : State) (f : Nat), s.dict.irqA = some f ∧ s.rd (Obj.evtIrq 1) = 1 ∧ s.rd Obj.evtIrqUs * us ≤ s.now - f) ∧
    (∃ (s : State), (s.dict.irqA = none ∨ s.rd (Obj.evtIrq 1) ≠ 1 ∨ s.now - s.dict.irqA.getD 0 < s.rd Obj.evtIrqUs * us)) ∧
    (∃ (s : State) (f : Nat), s.dict.irqB = some f ∧ s.rd (Obj.evtIrq 2) = 1 ∧ s.rd Obj.evtIrqUs * us ≤ s.now - f) ∧
    (∃ (s : State), (s.dict.irqB = none ∨ s.rd (Obj.evtIrq 2) ≠ 1 ∨ s.now - s.dict.irqB.getD 0 < s.rd Obj.evtIrqUs * us)) ∧
    (∃ (s : State), s.standby = true ∧ 100 * us ≤ s.now - s.dict.mirrorAt) ∧
    (∃ (s : State), (s.standby = false ∨ s.now - s.dict.mirrorAt < 100 * us)) ∧
    (∃ (s : State), (s.standby = false ∨ s.now - s.dict.fldHeard < sec ∨ s.inEpisode Ev.fieldLinkLost 0 = true)) ∧
    (∃ (s : State), s.standby = true ∧ sec ≤ s.now - s.dict.fldHeard ∧ s.inEpisode Ev.fieldLinkLost 0 = false) ∧
    (∃ (s : State) (p : HostPort), s.standby = true) ∧
    (∃ (s : State) (p : HostPort), s.standby = false) ∧
    (∃ (s : State) (p : HostPort) (op : Nat) (eid : Nat), s.standby = true ∧ op ≤ 1 ∧ 8 ≤ eid ∧ eid ≤ 254) ∧
    (∃ (s : State) (p : HostPort) (op : Nat) (eid : Nat), s.standby = true ∧ (1 < op ∨ eid < 8 ∨ 254 < eid)) ∧
    (∃ (s : State) (p : HostPort) (op : Nat) (eid : Nat), s.standby = false) ∧
    (∃ (s : State) (p : HostPort), s.standby = false) ∧
    (∃ (s : State) (p : HostPort), s.standby = false) ∧
    (∃ (s : State) (p : HostPort) (mtype : Nat), s.standby = false) ∧
    (∃ (s : State) (p : HostPort) (mtype : Nat), s.standby = false) ∧
    (∃ (s : State) (p : HostPort), s.standby = true) ∧
    (∃ (s : State) (p : HostPort), s.standby = true) ∧
    (∃ (s : State) (p : HostPort) (mtype : Nat), s.standby = true ∧ (mtype = 0xFF ∨ mtype = 0 ∨ mtype = 1 ∨ mtype = 0x7F)) ∧
    (∃ (s : State) (p : HostPort) (mtype : Nat), s.standby = true ∧ mtype ≠ 0xFF ∧ mtype ≠ 0 ∧ mtype ≠ 1 ∧ mtype ≠ 0x7F) ∧
    (∃ (s : State) (p : HostPort) (selector : Nat), s.standby = true ∧ selector ≠ 0) ∧
    (∃ (s : State) (p : HostPort) (selector : Nat), s.standby = true ∧ selector = 0) :=
  ⟨⟨(let s := up [(Obj.evtIrq 1, 1)]; { s with now := 100000000, dict := { s.dict with irqA := some 0 } }), 0, by decide +kernel⟩,
   ⟨up [], by decide +kernel⟩,
   ⟨(let s := up [(Obj.evtIrq 2, 1)]; { s with now := 100000000, dict := { s.dict with irqB := some 0 } }), 0, by decide +kernel⟩,
   ⟨up [], by decide +kernel⟩,
   ⟨{ up [] with now := 20000 }, by decide +kernel⟩,
   ⟨up [], by decide +kernel⟩,
   ⟨up [], by decide +kernel⟩,
   ⟨{ up [] with now := 200000000 }, by decide +kernel⟩,
   ⟨up [], .ha, by decide +kernel⟩,
   ⟨State.reset, .ha, by decide +kernel⟩,
   ⟨up [], .hb, 0, 9, by decide +kernel⟩,
   ⟨up [], .hb, 0, 255, by decide +kernel⟩,
   ⟨State.reset, .hb, 0, 9, by decide +kernel⟩,
   ⟨State.reset, .ha, by decide +kernel⟩,
   ⟨State.reset, .ha, by decide +kernel⟩,
   ⟨State.reset, .ha, 0, by decide +kernel⟩,
   ⟨State.reset, .ha, 0, by decide +kernel⟩,
   ⟨up [], .ha, by decide +kernel⟩,
   ⟨up [], .ha, by decide +kernel⟩,
   ⟨up [], .ha, 0, by decide +kernel⟩,
   ⟨up [], .ha, 5, by decide +kernel⟩,
   ⟨up [], .ha, 1, by decide +kernel⟩,
   ⟨up [], .ha, 0, by decide +kernel⟩⟩

/-- States that meet the hypotheses of SettingsAreSaved, one for each clause. -/
theorem test_hypotheses_SettingsAreSaved :
    (∃ (s : State) (src : Src) (arg : Nat), arg = 1 ∧ s.fldDenied src Obj.settingsSave = false ∧ s.saveCond = 0) ∧
    (∃ (s : State) (src : Src) (arg : Nat), (s.fldDenied src Obj.settingsSave = true ∨ arg ≠ 1 ∨ s.saveCond ≠ 0)) ∧
    (∃ (s : State) (good : Bool), s.dict.saving = none) ∧
    (∃ (s : State) (v : Saving), s.dict.saving = some v ∧ v.fails = 0) ∧
    (∃ (s : State) (v : Saving), s.dict.saving = some v) ∧
    (∃ (s : State) (v : Saving), s.dict.saving = some v ∧ v.fails ≠ 0) ∧
    (∃ (s : State) (src : Src) (arg : Nat), arg = 1 ∧ s.fldDenied src Obj.settingsDefaults = false ∧ s.dict.saving = none) ∧
    (∃ (s : State) (src : Src) (arg : Nat) (v : Saving), arg = 1 ∧ s.fldDenied src Obj.settingsDefaults = false ∧ s.dict.saving = some v) ∧
    (∃ (s : State) (src : Src) (arg : Nat), (s.fldDenied src Obj.settingsDefaults = true ∨ arg ≠ 1)) :=
  ⟨⟨up [], .mctp .ha 9, 1, by decide +kernel⟩,
   ⟨up [], .mctp .ha 9, 0, by decide +kernel⟩,
   ⟨up [], true, by decide +kernel⟩,
   ⟨(let s := up []; { s with dict := { s.dict with saving := some { start := 0, before := 0, rcd := { dictVersion := 1, values := [], good := true }, fails := 0 } } }), { start := 0, before := 0, rcd := { dictVersion := 1, values := [], good := true }, fails := 0 }, by decide +kernel⟩,
   ⟨(let s := up []; { s with dict := { s.dict with saving := some { start := 0, before := 0, rcd := { dictVersion := 1, values := [], good := true }, fails := 1 } } }), { start := 0, before := 0, rcd := { dictVersion := 1, values := [], good := true }, fails := 1 }, by decide +kernel⟩,
   ⟨(let s := up []; { s with dict := { s.dict with saving := some { start := 0, before := 0, rcd := { dictVersion := 1, values := [], good := true }, fails := 1 } } }), { start := 0, before := 0, rcd := { dictVersion := 1, values := [], good := true }, fails := 1 }, by decide +kernel⟩,
   ⟨up [(Obj.lp1IdleUs, 77)], .mctp .ha 9, 1, by decide +kernel⟩,
   ⟨(let s := up []; { s with dict := { s.dict with saving := some { start := 0, before := 0, rcd := { dictVersion := 1, values := [], good := true }, fails := 1 } } }), .mctp .ha 9, 1, { start := 0, before := 0, rcd := { dictVersion := 1, values := [], good := true }, fails := 1 }, by decide +kernel⟩,
   ⟨up [], .mctp .ha 9, 0, by decide +kernel⟩⟩

/-- States that meet the hypotheses of FirmwareIsLoaded, one for each clause. -/
theorem test_hypotheses_FirmwareIsLoaded :
    (∃ (s : State) (p : HostPort), s.linkUp p = true) ∧
    (∃ (s : State) (p : HostPort), s.linkUp p = true) ∧
    (∃ (s : State) (p : HostPort), s.linkUp p = true ∧ s.fw.load = none ∧ s.activating = false) ∧
    (∃ (s : State) (p : HostPort), s.linkUp p = false) ∧
    (∃ (s : State) (p : HostPort), s.linkUp p = false) ∧
    (∃ (s : State) (p : HostPort), s.linkUp p = false) ∧
    (∃ (s : State) (p : HostPort), s.linkUp p = false) ∧
    (∃ (s : State) (p : HostPort), s.linkUp p = false) ∧
    (∃ (s : State) (p : HostPort), s.linkUp p = false) ∧
    (∃ (s : State) (p : HostPort), s.linkUp p = true ∧ s.fw.load.isSome = true) ∧
    (∃ (s : State) (p : HostPort), s.linkUp p = true ∧ s.fw.load = none ∧ s.activating = true) ∧
    (∃ (s : State) (p : HostPort), s.linkUp p = true ∧ (s.fw.load = none ∨ s.fw.load.map Loading.port ≠ some p)) ∧
    (∃ (s : State) (p : HostPort) (l : Loading), s.linkUp p = true ∧ s.fw.load = some l ∧ l.port = p ∧ l.phase ≠ 1) ∧
    (∃ (s : State) (p : HostPort), s.linkUp p = false) ∧
    (∃ (s : State) (p : HostPort) (size : Nat), s.linkUp p = true ∧ (s.fw.load = none ∨ s.fw.load.map Loading.port ≠ some p)) ∧
    (∃ (s : State) (p : HostPort) (l : Loading) (size : Nat), s.linkUp p = true ∧ s.fw.load = some l ∧ l.port = p ∧ l.phase ≠ 2) ∧
    (∃ (s : State) (p : HostPort) (size : Nat), s.linkUp p = false) ∧
    (∃ (s : State) (p : HostPort) (off : Nat) (data : Bytes), s.linkUp p = true ∧ (s.fw.load = none ∨ s.fw.load.map Loading.port ≠ some p)) ∧
    (∃ (s : State) (p : HostPort) (l : Loading) (off : Nat) (data : Bytes), s.linkUp p = true ∧ s.fw.load = some l ∧ l.port = p ∧ l.phase ≠ 3) ∧
    (∃ (s : State) (p : HostPort) (off : Nat) (data : Bytes), s.linkUp p = false) ∧
    (∃ (s : State) (p : HostPort), s.linkUp p = true ∧ (s.fw.load = none ∨ s.fw.load.map Loading.port ≠ some p)) ∧
    (∃ (s : State) (p : HostPort) (l : Loading), s.linkUp p = true ∧ s.fw.load = some l ∧ l.port = p ∧ l.phase ≠ 3) ∧
    (∃ (s : State) (p : HostPort), s.linkUp p = false) ∧
    (∃ (s : State) (p : HostPort) (l : Loading) (size : Nat), s.linkUp p = true ∧ s.fw.load = some l ∧ l.port = p ∧ l.phase = 2 ∧ s.activating = true) ∧
    (∃ (s : State) (p : HostPort) (l : Loading) (size : Nat), s.linkUp p = true ∧ s.fw.load = some l ∧ l.port = p ∧ l.phase = 2 ∧ s.activating = false ∧ (size = 0 ∨ 2 ^ 27 < size)) ∧
    (∃ (s : State) (p : HostPort) (l : Loading) (off : Nat) (data : Bytes), s.linkUp p = true ∧ s.fw.load = some l ∧ l.port = p ∧ l.phase = 3 ∧ off ≠ l.got) ∧
    (∃ (s : State) (p : HostPort) (l : Loading) (off : Nat) (data : Bytes), s.linkUp p = true ∧ s.fw.load = some l ∧ l.port = p ∧ l.phase = 3 ∧ off = l.got ∧ l.size ≤ l.got + data.length ∧ l.got ≤ l.size ∧ s.rd Obj.activeSlot ≤ 1) ∧
    (∃ (s : State) (p : HostPort), s.linkUp p = true ∧ (s.fw.load = none ∨ s.fw.load.map Loading.port ≠ some p)) ∧
    (∃ (s : State) (p : HostPort) (l : Loading), s.linkUp p = true ∧ s.fw.load = some l ∧ l.port = p ∧ l.phase = 1) ∧
    (∃ (s : State) (p : HostPort) (l : Loading) (size : Nat), s.linkUp p = true ∧ s.fw.load = some l ∧ l.port = p ∧ l.phase = 2 ∧ s.activating = false ∧ 0 < size ∧ size ≤ 2 ^ 27) ∧
    (∃ (s : State) (p : HostPort) (l : Loading) (off : Nat) (data : Bytes), s.linkUp p = true ∧ s.fw.load = some l ∧ l.port = p ∧ l.phase = 3 ∧ off = l.got ∧ l.got + data.length < l.size) ∧
    (∃ (s : State) (p : HostPort), s.linkUp p = true) ∧
    (∃ (s : State) (p : HostPort) (l : Loading), s.linkUp p = true ∧ s.fw.load = some l ∧ l.port = p ∧ l.phase = 3) ∧
    (∃ (s : State) (p : HostPort) (l : Loading), s.linkUp p = true ∧ s.fw.load = some l ∧ l.port = p) ∧
    (∃ (s : State) (p : HostPort), s.linkUp p = true) :=
  ⟨⟨linkA, .ha, by decide +kernel⟩,
   ⟨linkA, .ha, by decide +kernel⟩,
   ⟨linkA, .ha, by decide +kernel⟩,
   ⟨up [], .ha, by decide +kernel⟩,
   ⟨up [], .ha, by decide +kernel⟩,
   ⟨up [], .ha, by decide +kernel⟩,
   ⟨up [], .ha, by decide +kernel⟩,
   ⟨up [], .ha, by decide +kernel⟩,
   ⟨up [], .ha, by decide +kernel⟩,
   ⟨withFw linkA fun x => { x with load := some (loadA 1) }, .ha, by decide +kernel⟩,
   ⟨withFw linkA fun x => { x with phase := 1 }, .ha, by decide +kernel⟩,
   ⟨linkA, .ha, by decide +kernel⟩,
   ⟨withFw linkA fun x => { x with load := some (loadA 2) }, .ha, loadA 2, by decide +kernel⟩,
   ⟨up [], .ha, by decide +kernel⟩,
   ⟨linkA, .ha, 100, by decide +kernel⟩,
   ⟨withFw linkA fun x => { x with load := some (loadA 3) }, .ha, loadA 3, 100, by decide +kernel⟩,
   ⟨up [], .ha, 100, by decide +kernel⟩,
   ⟨linkA, .ha, 0, [1], by decide +kernel⟩,
   ⟨withFw linkA fun x => { x with load := some (loadA 4) }, .ha, loadA 4, 0, [1], by decide +kernel⟩,
   ⟨up [], .ha, 0, [1], by decide +kernel⟩,
   ⟨linkA, .ha, by decide +kernel⟩,
   ⟨withFw linkA fun x => { x with load := some (loadA 4) }, .ha, loadA 4, by decide +kernel⟩,
   ⟨up [], .ha, by decide +kernel⟩,
   ⟨withFw linkA fun x => { x with load := some (loadA 2), phase := 1 }, .ha, loadA 2, 100, by decide +kernel⟩,
   ⟨withFw linkA fun x => { x with load := some (loadA 2) }, .ha, loadA 2, 0, by decide +kernel⟩,
   ⟨withFw linkA fun x => { x with load := some (loadA 3) }, .ha, loadA 3, 5, [1, 2], by decide +kernel⟩,
   ⟨withFw linkA fun x => { x with load := some { loadA 3 with size := 2 } }, .ha, { loadA 3 with size := 2 }, 0, [1, 2], by decide +kernel⟩,
   ⟨linkA, .ha, by decide +kernel⟩,
   ⟨withFw linkA fun x => { x with load := some (loadA 1) }, .ha, loadA 1, by decide +kernel⟩,
   ⟨withFw linkA fun x => { x with load := some (loadA 2) }, .ha, loadA 2, 100, by decide +kernel⟩,
   ⟨withFw linkA fun x => { x with load := some (loadA 3) }, .ha, loadA 3, 0, [1, 2], by decide +kernel⟩,
   ⟨linkA, .ha, by decide +kernel⟩,
   ⟨withFw linkA fun x => { x with load := some (loadA 3) }, .ha, loadA 3, by decide +kernel⟩,
   ⟨withFw linkA fun x => { x with load := some (loadA 3) }, .ha, loadA 3, by decide +kernel⟩,
   ⟨linkA, .ha, by decide +kernel⟩⟩

/-- States that meet the hypotheses of FirmwareBootsAndActivates, one for each clause. -/
theorem test_hypotheses_FirmwareBootsAndActivates :
    (∃ (s : State), s.start.stage = 4 ∧ s.rd Obj.moduleState = 0 ∧ s.fw.measured = [] ∧ s.bootRec.active ≤ 1 ∧ s.bootRec.trial = false) ∧
    (∃ (s : State), s.start.stage = 4 ∧ s.rd Obj.moduleState = 0 ∧ s.fw.measured = [] ∧ s.bootRec.active ≤ 1 ∧ s.bootRec.trial = true ∧ s.bootRec.count < 3) ∧
    (∃ (s : State), s.start.stage = 4 ∧ s.rd Obj.moduleState = 0 ∧ s.fw.measured = [] ∧ s.bootRec.active ≤ 1 ∧ s.bootRec.trial = true ∧ 3 ≤ s.bootRec.count) ∧
    (∃ (s : State), (s.start.stage ≠ 4 ∨ s.rd Obj.moduleState ≠ 0 ∨ s.fw.measured ≠ [])) ∧
    (∃ (s : State) (src : Src) (v : Nat), v ≠ 0 ∧ v < 2 ^ 64 ∧ s.fldDenied src Obj.actTick = false ∧ s.actTickCond v = 0) ∧
    (∃ (s : State) (src : Src) (v : Nat), v = 0 ∧ s.fldDenied src Obj.actTick = false) ∧
    (∃ (s : State) (src : Src) (v : Nat), (s.fldDenied src Obj.actTick = true ∨ 2 ^ 64 ≤ v ∨ s.actTickCond v ≠ 0)) ∧
    (∃ (s : State), s.rd Obj.actMode = 2 ∧ s.rd Obj.actTick ≤ s.now ∧ s.fw.phase = 0 ∧ s.rd Obj.moduleState = 2) ∧
    (∃ (s : State), (¬ (s.rd Obj.actMode = 2 ∧ s.rd Obj.actTick ≤ s.now ∧ s.fw.phase = 0 ∧ s.rd Obj.moduleState = 2))) ∧
    (∃ (s : State), s.fw.phase = 1 ∧ s.quiet = true ∧ s.bootRec.active ≤ 1) ∧
    (∃ (s : State), (s.fw.phase ≠ 1 ∨ s.quiet = false)) ∧
    (∃ (s : State), s.rd Obj.bootState ≤ 1 ∧ s.bootRec.trial = true ∧ s.rd Obj.moduleState ≤ 1 ∧ 30000 * ms ≤ s.now - s.fw.restartAt ∧ s.bootRec.active ≤ 1 ∧ s.start.rails = true) ∧
    (∃ (s : State), s.rd Obj.bootState ≤ 1 ∧ s.bootRec.trial = true ∧ s.rd Obj.moduleState ≤ 1 ∧ 30000 * ms ≤ s.now - s.fw.restartAt ∧ s.bootRec.active ≤ 1 ∧ s.start.rails = false) ∧
    (∃ (s : State), (¬ (s.rd Obj.bootState ≤ 1 ∧ s.bootRec.trial = true ∧ s.rd Obj.moduleState ≤ 1 ∧ 30000 * ms ≤ s.now - s.fw.restartAt))) ∧
    (∃ (s : State) (src : Src) (arg : Nat), arg = 1 ∧ s.fldDenied src Obj.fwRevert = false ∧ s.revertCond = 0 ∧ s.rd Obj.bootState = 1 ∧ s.bootRec.active ≤ 1 ∧ s.start.rails = true) ∧
    (∃ (s : State) (src : Src) (arg : Nat), arg = 1 ∧ s.fldDenied src Obj.fwRevert = false ∧ s.revertCond = 0 ∧ s.rd Obj.bootState = 1 ∧ s.bootRec.active ≤ 1 ∧ s.start.rails = false) ∧
    (∃ (s : State) (src : Src) (arg : Nat), arg = 1 ∧ s.fldDenied src Obj.fwRevert = false ∧ s.revertCond = 0 ∧ s.rd Obj.bootState = 3 ∧ s.rd Obj.activeSlot ≤ 1) ∧
    (∃ (s : State) (src : Src) (arg : Nat), (s.fldDenied src Obj.fwRevert = true ∨ arg ≠ 1 ∨ s.revertCond ≠ 0)) ∧
    (∃ (s : State) (src : Src) (arg : Nat), arg = 1 ∧ s.fldDenied src Obj.fwConfirm = false ∧ s.rd Obj.bootState = 1 ∧ s.cmd.stepNow = none) ∧
    (∃ (s : State) (src : Src) (arg : Nat), (s.fldDenied src Obj.fwConfirm = true ∨ arg ≠ 1 ∨ s.rd Obj.bootState ≠ 1 ∨ s.cmd.stepNow ≠ none)) :=
  ⟨⟨(let s := up []; { s.wr Obj.moduleState 0 with start := { s.start with stage := 4 } }), by decide +kernel⟩,
   ⟨(withFw (let s := up []; { s.wr Obj.moduleState 0 with start := { s.start with stage := 4 } }) fun x => { x with bootA := { x.bootA with trial := true, count := 0 } }), by decide +kernel⟩,
   ⟨(withFw (let s := up []; { s.wr Obj.moduleState 0 with start := { s.start with stage := 4 } }) fun x => { x with bootA := { x.bootA with trial := true, count := 3 } }), by decide +kernel⟩,
   ⟨up [], by decide +kernel⟩,
   ⟨up [(Obj.fwVersion, 1), (Obj.dictVersion, 1), (Obj.activeSlot, 0), (Obj.slotState 1, 2), (Obj.slotFwVersion 1, 7), (Obj.slotDictVersion 1, 7)], .mctp .ha 9, 99, by decide +kernel⟩,
   ⟨withFw (up [(Obj.actMode, 2)]) fun x => { x with phase := 1 }, .mctp .ha 9, 0, by decide +kernel⟩,
   ⟨up [(Obj.groupState, 2)], .mctp .ha 9, 5, by decide +kernel⟩,
   ⟨up [(Obj.actMode, 2)], by decide +kernel⟩,
   ⟨up [], by decide +kernel⟩,
   ⟨withFw (up []) fun x => { x with phase := 1 }, by decide +kernel⟩,
   ⟨up [], by decide +kernel⟩,
   ⟨(let s := { withFw ((up []).wr Obj.moduleState 0) fun x => { x with bootA := { x.bootA with trial := true } } with now := 10000000000 }; { s with start := { s.start with rails := true } }), by decide +kernel⟩,
   ⟨{ withFw ((up []).wr Obj.moduleState 0) fun x => { x with bootA := { x.bootA with trial := true } } with now := 10000000000 }, by decide +kernel⟩,
   ⟨up [], by decide +kernel⟩,
   ⟨(let s := up [(Obj.bootState, 1)]; { s with start := { s.start with rails := true } }), .mctp .ha 9, 1, by decide +kernel⟩,
   ⟨up [(Obj.bootState, 1)], .mctp .ha 9, 1, by decide +kernel⟩,
   ⟨up [(Obj.bootState, 3), (Obj.slotState 0, 2)], .mctp .ha 9, 1, by decide +kernel⟩,
   ⟨up [], .mctp .ha 9, 1, by decide +kernel⟩,
   ⟨up [(Obj.bootState, 1)], .mctp .ha 9, 1, by decide +kernel⟩,
   ⟨up [], .mctp .ha 9, 1, by decide +kernel⟩⟩

/-- States that meet the hypotheses of SecurityProtocolsAnswer, one for each clause. -/
theorem test_hypotheses_SecurityProtocolsAnswer :
    (∃ (s : State) (p : HostPort), s.linkUp p = false) ∧
    (∃ (s : State) (p : HostPort), s.linkUp p = false) ∧
    (∃ (s : State) (p : HostPort), s.linkUp p = false) ∧
    (∃ (s : State) (p : HostPort), s.linkUp p = false) ∧
    (∃ (s : State) (p : HostPort), s.linkUp p = false) ∧
    (∃ (s : State) (p : HostPort), s.linkUp p = false) ∧
    (∃ (s : State) (p : HostPort), s.linkUp p = false) ∧
    (∃ (s : State) (p : HostPort), s.linkUp p = false) ∧
    (∃ (s : State) (p : HostPort), s.linkUp p = false) ∧
    (∃ (s : State) (p : HostPort), s.linkUp p = false) ∧
    (∃ (s : State) (p : HostPort), s.linkUp p = false) ∧
    (∃ (s : State) (p : HostPort), s.linkUp p = false) ∧
    (∃ (s : State) (p : HostPort) (i : Nat), s.linkUp p = false) ∧
    (∃ (s : State) (p : HostPort) (nonce : Bytes), s.linkUp p = false) ∧
    (∃ (s : State) (p : HostPort) (op : Fin 3) (key : Bytes), s.linkUp p = false) ∧
    (∃ (s : State) (p : HostPort) (token : Bytes), s.linkUp p = false) ∧
    (∃ (s : State) (p : HostPort), s.linkUp p = true ∧ (s.spdm p).phase < 1) ∧
    (∃ (s : State) (p : HostPort), s.linkUp p = true ∧ (s.spdm p).phase < 2) ∧
    (∃ (s : State) (p : HostPort), s.linkUp p = true ∧ (s.spdm p).phase < 3) ∧
    (∃ (s : State) (p : HostPort), s.linkUp p = true ∧ (s.spdm p).phase < 3) ∧
    (∃ (s : State) (p : HostPort), s.linkUp p = true ∧ (s.spdm p).phase < 3) ∧
    (∃ (s : State) (p : HostPort), s.linkUp p = true ∧ (s.spdm p).phase < 3) ∧
    (∃ (s : State) (p : HostPort), s.linkUp p = true ∧ (s.spdm p).phase < 3) ∧
    (∃ (s : State) (p : HostPort), s.linkUp p = true ∧ (s.spdm p).session.map Secured.done ≠ some false) ∧
    (∃ (s : State) (p : HostPort), s.linkUp p = true ∧ (s.spdm p).session.map Secured.done ≠ some true) ∧
    (∃ (s : State) (p : HostPort), s.linkUp p = true ∧ (s.spdm p).session.map Secured.done ≠ some true) ∧
    (∃ (s : State) (p : HostPort) (op : Fin 3) (key : Bytes), s.linkUp p = true ∧ (s.spdm p).session.map Secured.done ≠ some true) ∧
    (∃ (s : State) (p : HostPort), s.linkUp p = true) ∧
    (∃ (s : State) (p : HostPort), s.linkUp p = true ∧ 1 ≤ (s.spdm p).phase) ∧
    (∃ (s : State) (p : HostPort), s.linkUp p = true ∧ 2 ≤ (s.spdm p).phase) ∧
    (∃ (s : State) (p : HostPort), s.linkUp p = true ∧ 3 ≤ (s.spdm p).phase) ∧
    (∃ (s : State) (p : HostPort), s.linkUp p = true ∧ 3 ≤ (s.spdm p).phase) ∧
    (∃ (s : State) (p : HostPort), s.linkUp p = true ∧ 3 ≤ (s.spdm p).phase) ∧
    (∃ (s : State) (p : HostPort), s.linkUp p = true ∧ 3 ≤ (s.spdm p).phase) ∧
    (∃ (s : State) (p : HostPort), s.linkUp p = true ∧ 3 ≤ (s.spdm p).phase) ∧
    (∃ (s : State) (p : HostPort) (v : Secured), s.linkUp p = true ∧ (s.spdm p).session = some v ∧ v.done = false) ∧
    (∃ (s : State) (p : HostPort) (v : Secured), s.linkUp p = true ∧ (s.spdm p).session = some v ∧ v.done = true) ∧
    (∃ (s : State) (p : HostPort) (v : Secured), s.linkUp p = true ∧ (s.spdm p).session = some v ∧ v.done = true) ∧
    (∃ (s : State) (p : HostPort) (v : Secured), (s.spdm p).session = some v ∧ v.period * 1000 * ms ≤ s.now - v.beat) ∧
    (∃ (s : State) (p : HostPort) (i : Nat), s.linkUp p = true ∧ i ≤ 2) ∧
    (∃ (s : State) (p : HostPort), ((s.spdm p).session = none ∨ s.now < ((s.spdm p).session.map fun v => v.period * 1000 * ms + v.beat).getD 0)) ∧
    (∃ (s : State) (p : HostPort) (i : Nat), s.linkUp p = true ∧ 2 < i) ∧
    (∃ (s : State) (p : HostPort) (nonce : Bytes), s.linkUp p = true ∧ s.rd Obj.lmsRemaining = 0) ∧
    (∃ (s : State) (p : HostPort) (nonce : Bytes), s.linkUp p = true ∧ s.rd Obj.lmsRemaining ≠ 0 ∧ s.fw.reportAt ≠ none ∧ (s.rd Obj.attMinIntervalS * 1000 * ms - (s.now - s.fw.reportAt.getD 0)) ≠ 0) ∧
    (∃ (s : State) (p : HostPort) (nonce : Bytes), s.linkUp p = true ∧ s.rd Obj.lmsRemaining ≠ 0 ∧ s.fw.leafLeft = 0 ∧ (s.fw.reportAt = none ∨ (s.rd Obj.attMinIntervalS * 1000 * ms - (s.now - s.fw.reportAt.getD 0)) = 0)) ∧
    (∃ (s : State) (p : HostPort) (nonce : Bytes), s.linkUp p = true ∧ s.rd Obj.lmsRemaining ≠ 0 ∧ s.fw.leafLeft ≠ 0 ∧ (s.fw.reportAt = none ∨ (s.rd Obj.attMinIntervalS * 1000 * ms - (s.now - s.fw.reportAt.getD 0)) = 0)) ∧
    (∃ (s : State) (p : HostPort), s.rd (Obj.ideState (portNo p)) = 2) ∧
    (∃ (s : State) (p : HostPort), s.rd (Obj.ideState (portNo p)) ≠ 2) ∧
    (∃ (s : State) (p : HostPort) (key : Bytes) (v : Secured), s.linkUp p = true ∧ (s.spdm p).session = some v ∧ v.done = true ∧ s.rd (Obj.ideState (portNo p)) ≠ 2) ∧
    (∃ (s : State) (p : HostPort) (key : Bytes) (v : Secured), s.linkUp p = true ∧ (s.spdm p).session = some v ∧ v.done = true ∧ s.rd (Obj.ideState (portNo p)) = 2) ∧
    (∃ (s : State) (p : HostPort) (key : Bytes) (v : Secured), s.linkUp p = true ∧ (s.spdm p).session = some v ∧ v.done = true ∧ s.ideKey p = none) ∧
    (∃ (s : State) (p : HostPort) (key : Bytes) (v : Secured), s.linkUp p = true ∧ (s.spdm p).session = some v ∧ v.done = true ∧ s.rd (Obj.ideState (portNo p)) ≠ 2) ∧
    (∃ (s : State) (p : HostPort) (key : Bytes) (v : Secured), s.linkUp p = true ∧ (s.spdm p).session = some v ∧ v.done = true ∧ (s.ideKey p).isSome = true) ∧
    (∃ (s : State) (p : HostPort) (key : Bytes) (v : Secured), s.linkUp p = true ∧ (s.spdm p).session = some v ∧ v.done = true ∧ s.rd (Obj.ideState (portNo p)) = 2) ∧
    (∃ (s : State) (p : HostPort), s.linkUp p = true ∧ s.rd Obj.moduleState = 1) ∧
    (∃ (s : State) (p : HostPort), s.linkUp p = true ∧ s.rd Obj.moduleState ≠ 1) ∧
    (∃ (s : State) (p : HostPort) (token : Bytes), s.linkUp p = true ∧ s.fw.nonce = none) ∧
    (∃ (s : State) (p : HostPort) (token : Bytes), s.linkUp p = true ∧ s.fw.nonce ≠ none ∧ s.rd Obj.moduleState ≠ 1) ∧
    (∃ (s : State) (p : HostPort) (token : Bytes) (n : Bytes), s.linkUp p = true ∧ s.rd Obj.moduleState = 1 ∧ s.fw.nonce = some n) :=
  ⟨⟨up [], .ha, by decide +kernel⟩,
   ⟨up [], .ha, by decide +kernel⟩,
   ⟨up [], .ha, by decide +kernel⟩,
   ⟨up [], .ha, by decide +kernel⟩,
   ⟨up [], .ha, by decide +kernel⟩,
   ⟨up [], .ha, by decide +kernel⟩,
   ⟨up [], .ha, by decide +kernel⟩,
   ⟨up [], .ha, by decide +kernel⟩,
   ⟨up [], .ha, by decide +kernel⟩,
   ⟨up [], .ha, by decide +kernel⟩,
   ⟨up [], .ha, by decide +kernel⟩,
   ⟨up [], .ha, by decide +kernel⟩,
   ⟨up [], .ha, 1, by decide +kernel⟩,
   ⟨up [], .ha, [], by decide +kernel⟩,
   ⟨up [], .ha, 0, [], by decide +kernel⟩,
   ⟨up [], .ha, [], by decide +kernel⟩,
   ⟨linkA, .ha, by decide +kernel⟩,
   ⟨linkA, .ha, by decide +kernel⟩,
   ⟨linkA, .ha, by decide +kernel⟩,
   ⟨linkA, .ha, by decide +kernel⟩,
   ⟨linkA, .ha, by decide +kernel⟩,
   ⟨linkA, .ha, by decide +kernel⟩,
   ⟨linkA, .ha, by decide +kernel⟩,
   ⟨linkA, .ha, by decide +kernel⟩,
   ⟨linkA, .ha, by decide +kernel⟩,
   ⟨linkA, .ha, by decide +kernel⟩,
   ⟨linkA, .ha, 0, [], by decide +kernel⟩,
   ⟨linkA, .ha, by decide +kernel⟩,
   ⟨linkA.setSpdm .ha { phase := 1, session := none }, .ha, by decide +kernel⟩,
   ⟨linkA.setSpdm .ha { phase := 2, session := none }, .ha, by decide +kernel⟩,
   ⟨linkA.setSpdm .ha { phase := 3, session := none }, .ha, by decide +kernel⟩,
   ⟨linkA.setSpdm .ha { phase := 3, session := none }, .ha, by decide +kernel⟩,
   ⟨linkA.setSpdm .ha { phase := 3, session := none }, .ha, by decide +kernel⟩,
   ⟨linkA.setSpdm .ha { phase := 3, session := none }, .ha, by decide +kernel⟩,
   ⟨linkA.setSpdm .ha { phase := 3, session := none }, .ha, by decide +kernel⟩,
   ⟨{ linkA.setSpdm .ha { phase := 3, session := some { id := 1, done := false, beat := 0, period := 1 } } with now := 1000 }, .ha, { id := 1, done := false, beat := 0, period := 1 }, by decide +kernel⟩,
   ⟨{ linkA.setSpdm .ha { phase := 3, session := some { id := 1, done := true, beat := 0, period := 1 } } with now := 1000 }, .ha, { id := 1, done := true, beat := 0, period := 1 }, by decide +kernel⟩,
   ⟨{ linkA.setSpdm .ha { phase := 3, session := some { id := 1, done := true, beat := 0, period := 1 } } with now := 1000 }, .ha, { id := 1, done := true, beat := 0, period := 1 }, by decide +kernel⟩,
   ⟨{ linkA.setSpdm .ha { phase := 3, session := some { id := 1, done := true, beat := 0, period := 1 } } with now := 1000000000 }, .ha, { id := 1, done := true, beat := 0, period := 1 }, by decide +kernel⟩,
   ⟨linkA, .ha, 1, by decide +kernel⟩,
   ⟨linkA, .ha, by decide +kernel⟩,
   ⟨linkA, .ha, 3, by decide +kernel⟩,
   ⟨{ linkA with obj := linkA.obj ++ [(Obj.lmsRemaining, 0)] }, .ha, [], by decide +kernel⟩,
   ⟨withFw { linkA with obj := linkA.obj ++ [(Obj.lmsRemaining, 2000000)] } fun x => { x with leafLeft := 3, reportAt := some 999 }, .ha, [], by decide +kernel⟩,
   ⟨{ linkA with obj := linkA.obj ++ [(Obj.lmsRemaining, 2000000)] }, .ha, [], by decide +kernel⟩,
   ⟨withFw { linkA with obj := linkA.obj ++ [(Obj.lmsRemaining, 2000000)] } fun x => { x with leafLeft := 3 }, .ha, [], by decide +kernel⟩,
   ⟨linkA.wr (Obj.ideState 1) 2, .ha, by decide +kernel⟩,
   ⟨linkA, .ha, by decide +kernel⟩,
   ⟨{ linkA.setSpdm .ha { phase := 3, session := some { id := 1, done := true, beat := 0, period := 1 } } with now := 1000 }, .ha, [7], { id := 1, done := true, beat := 0, period := 1 }, by decide +kernel⟩,
   ⟨{ (linkA.wr (Obj.ideState 1) 2).setSpdm .ha { phase := 3, session := some { id := 1, done := true, beat := 0, period := 1 } } with now := 1000 }, .ha, [7], { id := 1, done := true, beat := 0, period := 1 }, by decide +kernel⟩,
   ⟨{ linkA.setSpdm .ha { phase := 3, session := some { id := 1, done := true, beat := 0, period := 1 } } with now := 1000 }, .ha, [7], { id := 1, done := true, beat := 0, period := 1 }, by decide +kernel⟩,
   ⟨{ linkA.setSpdm .ha { phase := 3, session := some { id := 1, done := true, beat := 0, period := 1 } } with now := 1000 }, .ha, [7], { id := 1, done := true, beat := 0, period := 1 }, by decide +kernel⟩,
   ⟨{ (linkA.setIdeKey .ha (some [7])).setSpdm .ha { phase := 3, session := some { id := 1, done := true, beat := 0, period := 1 } } with now := 1000 }, .ha, [7], { id := 1, done := true, beat := 0, period := 1 }, by decide +kernel⟩,
   ⟨{ (linkA.wr (Obj.ideState 1) 2).setSpdm .ha { phase := 3, session := some { id := 1, done := true, beat := 0, period := 1 } } with now := 1000 }, .ha, [7], { id := 1, done := true, beat := 0, period := 1 }, by decide +kernel⟩,
   ⟨linkA.wr Obj.moduleState 1, .ha, by decide +kernel⟩,
   ⟨linkA, .ha, by decide +kernel⟩,
   ⟨linkA, .ha, [], by decide +kernel⟩,
   ⟨withFw linkA fun x => { x with nonce := some [1] }, .ha, [], by decide +kernel⟩,
   ⟨withFw (linkA.wr Obj.moduleState 1) fun x => { x with nonce := some [1] }, .ha, [], [1], by decide +kernel⟩⟩

/-- States that meet the hypotheses of StartUpRuns, one for each clause. -/
theorem test_hypotheses_StartUpRuns :
    (∃ (s : State), s.standby = false ∧ s.power.ovp = false ∧ s.start.sessionNo ≠ 0xFFFFFFFF) ∧
    (∃ (s : State), s.standby = false ∧ s.power.ovp = false ∧ s.start.sessionNo = 0xFFFFFFFF) ∧
    (∃ (s : State), s.standby = false ∧ s.power.ovp = false) ∧
    (∃ (s : State) (written : Bool), (s.standby = true ∨ s.power.ovp = true)) ∧
    (∃ (s : State) (v : Fin 64), (s.standby = false ∨ s.start.slot.isSome = true)) ∧
    (∃ (s : State) (v : Fin 64), s.standby = true ∧ s.start.slot = none ∧ (((s.start.slotSamples ++ [v.val]).reverse.take 3).length ≠ 3 ∨ ((s.start.slotSamples ++ [v.val]).reverse.take 3).all (· == v.val) = false)) ∧
    (∃ (s : State) (v : Fin 64), s.standby = true ∧ s.start.slot = none ∧ ((s.start.slotSamples ++ [v.val]).reverse.take 3) = [v.val, v.val, v.val]) ∧
    (∃ (s : State) (bad : List Nat), s.rd Obj.moduleState = 0 ∧ s.start.modReset = false ∧ s.start.stage = 1 ∧ s.start.trayReady = true) ∧
    (∃ (s : State) (bad : List Nat), s.rd Obj.moduleState = 0 ∧ s.start.modReset = false ∧ s.start.stage = 2 ∧ s.start.flowLoss = false) ∧
    (∃ (s : State) (bad : List Nat), s.rd Obj.moduleState = 0 ∧ s.start.modReset = false ∧ s.start.stage = 3) ∧
    (∃ (s : State) (bad : List Nat), s.rd Obj.moduleState = 0 ∧ s.start.modReset = false ∧ s.start.stage = 4 ∧ s.fw.measured ≠ []) ∧
    (∃ (s : State) (bad : List Nat), s.rd Obj.moduleState = 0 ∧ s.start.modReset = false ∧ s.start.stage = 5 ∧ s.start.domain = false ∧ s.mapOk = true) ∧
    (∃ (s : State) (bad : List Nat), s.rd Obj.moduleState = 0 ∧ s.start.modReset = false ∧ s.start.stage = 5 ∧ s.start.domain = true) ∧
    (∃ (s : State) (bad : List Nat), s.rd Obj.moduleState = 0 ∧ s.start.modReset = false ∧ s.start.stage = 5 ∧ s.start.domain = false ∧ s.mapOk = false) ∧
    (∃ (s : State) (bad : List Nat), s.rd Obj.moduleState = 0 ∧ s.start.modReset = false ∧ s.start.stage = 8 ∧ bad ≠ [] ∧ s.start.domain = true) ∧
    (∃ (s : State) (bad : List Nat), s.rd Obj.moduleState = 0 ∧ s.start.modReset = false ∧ s.start.stage = 8 ∧ bad ≠ [] ∧ s.start.domain = false ∧ s.start.selfTested = false) ∧
    (∃ (s : State) (bad : List Nat), s.rd Obj.moduleState = 0 ∧ s.start.modReset = false ∧ s.start.stage = 8 ∧ bad ≠ [] ∧ s.start.domain = false ∧ s.start.selfTested = true) ∧
    (∃ (s : State) (bad : List Nat), (s.rd Obj.moduleState ≠ 0 ∨ s.start.modReset = true ∨ s.start.stage = 0 ∨ 9 ≤ s.start.stage ∨ (s.start.stage = 1 ∧ s.start.trayReady = false) ∨ (s.start.stage = 2 ∧ s.start.flowLoss = true) ∨ (s.start.stage = 4 ∧ s.fw.measured = []))) ∧
    (∃ (s : State) (bad : List Nat), s.rd Obj.moduleState = 0 ∧ s.start.modReset = false ∧ s.start.stage = 6) ∧
    (∃ (s : State) (bad : List Nat), s.rd Obj.moduleState = 0 ∧ s.start.modReset = false ∧ s.start.stage = 7) ∧
    (∃ (s : State) (bad : List Nat), s.rd Obj.moduleState = 0 ∧ s.start.modReset = false ∧ s.start.stage = 8 ∧ bad = []) ∧
    (∃ (s : State) (reason : Nat), s.rd Obj.moduleState = 0 ∧ 1 ≤ s.start.stage ∧ s.start.stage ≤ 8 ∧ s.start.failed ≠ some s.start.stage) ∧
    (∃ (s : State) (reason : Nat), s.rd Obj.moduleState = 0 ∧ 1 ≤ s.start.stage ∧ s.start.stage ≤ 8 ∧ s.start.failed = some s.start.stage) ∧
    (∃ (s : State) (reason : Nat), (s.rd Obj.moduleState ≠ 0 ∨ s.start.stage = 0 ∨ 8 < s.start.stage)) ∧
    (∃ (s : State), (s.start.retryAt = none ∨ s.now < s.start.retryAt.getD 0)) ∧
    (∃ (s : State) (f : Nat), s.start.retryAt = some f ∧ f ≤ s.now) ∧
    (∃ (s : State), s.rd Obj.moduleState = 2 ∧ s.power.trayPark = false) ∧
    (∃ (s : State), (s.rd Obj.moduleState ≠ 2 ∨ s.power.trayPark = true)) ∧
    (∃ (s : State), s.standby = false) ∧
    (∃ (s : State), s.Form ∧ s.standby = true) ∧
    (∃ (s : State), s.start.modReset = false) ∧
    (∃ (s : State), s.standby = true) ∧
    (∃ (s : State), s.start.modReset = true) :=
  ⟨⟨State.reset, by decide +kernel⟩,
   ⟨{ State.reset with start := { State.reset.start with sessionNo := 0xFFFFFFFF } }, by decide +kernel⟩,
   ⟨State.reset, by decide +kernel⟩,
   ⟨up [], true, by decide +kernel⟩,
   ⟨State.reset, 7, by decide +kernel⟩,
   ⟨{ up [] with now := 100000000 }, 7, by decide +kernel⟩,
   ⟨(let s := up []; { s with start := { s.start with slotSamples := [7, 7] } }), 7, by decide +kernel⟩,
   ⟨(let s := (up []).wr Obj.moduleState 0; { s with start := { s.start with modReset := false, flowLoss := false, stage := 1, trayReady := true } }), [], by decide +kernel⟩,
   ⟨(let s := (up []).wr Obj.moduleState 0; { s with start := { s.start with modReset := false, flowLoss := false, stage := 2 } }), [], by decide +kernel⟩,
   ⟨(let s := (up []).wr Obj.moduleState 0; { s with start := { s.start with modReset := false, flowLoss := false, stage := 3 } }), [], by decide +kernel⟩,
   ⟨withFw (let s := (up []).wr Obj.moduleState 0; { s with start := { s.start with modReset := false, flowLoss := false, stage := 4 } }) fun x => { x with measured := [1] }, [], by decide +kernel⟩,
   ⟨(let s := (up []).wr Obj.moduleState 0; { s with start := { s.start with modReset := false, flowLoss := false, stage := 5 } }), [], by decide +kernel⟩,
   ⟨(let s := (up []).wr Obj.moduleState 0; { s with start := { s.start with modReset := false, flowLoss := false, stage := 5, domain := true } }), [], by decide +kernel⟩,
   ⟨(let s := (up []).wr Obj.moduleState 0; { s with start := { s.start with modReset := false, flowLoss := false, stage := 5, retired := [1, 2] } }), [], by decide +kernel⟩,
   ⟨(let s := (up []).wr Obj.moduleState 0; { s with start := { s.start with modReset := false, flowLoss := false, stage := 8, domain := true } }), [5], by decide +kernel⟩,
   ⟨(let s := (up []).wr Obj.moduleState 0; { s with start := { s.start with modReset := false, flowLoss := false, stage := 8, trayReady := true } }), [5], by decide +kernel⟩,
   ⟨(let s := (up []).wr Obj.moduleState 0; { s with start := { s.start with modReset := false, flowLoss := false, stage := 8, selfTested := true } }), [5], by decide +kernel⟩,
   ⟨(let s := (up []).wr Obj.moduleState 0; { s with start := { s.start with modReset := false, flowLoss := true, stage := 2 } }), [], by decide +kernel⟩,
   ⟨(let s := (up []).wr Obj.moduleState 0; { s with start := { s.start with modReset := false, flowLoss := false, stage := 6 } }), [], by decide +kernel⟩,
   ⟨(let s := (up []).wr Obj.moduleState 0; { s with start := { s.start with modReset := false, flowLoss := false, stage := 7 } }), [], by decide +kernel⟩,
   ⟨(let s := (up []).wr Obj.moduleState 0; { s with start := { s.start with modReset := false, flowLoss := false, stage := 8, trayReady := true } }), [], by decide +kernel⟩,
   ⟨(let s := (up []).wr Obj.moduleState 0; { s with start := { s.start with modReset := false, flowLoss := false, stage := 3 } }), 5, by decide +kernel⟩,
   ⟨(let s := (up []).wr Obj.moduleState 0; { s with start := { s.start with modReset := false, flowLoss := false, stage := 3, failed := some 3 } }), 5, by decide +kernel⟩,
   ⟨up [], 5, by decide +kernel⟩,
   ⟨up [], by decide +kernel⟩,
   ⟨(let s := (up []).wr Obj.moduleState 0; { s with start := { s.start with modReset := false, flowLoss := false, retryAt := some 5 } }), 5, by decide +kernel⟩,
   ⟨runA 5 id, by decide +kernel⟩,
   ⟨State.reset, by decide +kernel⟩,
   ⟨State.reset, by decide +kernel⟩,
   ⟨upA { winOf [] with e := 5, rnext := 7, rc := 3 }, form_of _ (by decide +kernel), by decide +kernel⟩,
   ⟨runA 5 id, by decide +kernel⟩,
   ⟨runA 5 id, by decide +kernel⟩,
   ⟨(let s := runA 5 id; { s with start := { s.start with modReset := true } }), by decide +kernel⟩⟩

/-- States that meet the hypotheses of HostLinksRiseAndFall, one for each clause. -/
theorem test_hypotheses_HostLinksRiseAndFall :
    (∃ (s : State) (p : HostPort), s.rd (Obj.linkState (portNo p - 1)) ≠ 0) ∧
    (∃ (s : State) (p : HostPort), s.rd (Obj.linkState (portNo p - 1)) = 0) ∧
    (∃ (s : State) (p : HostPort) (rate : Nat) (width : Nat), s.hostOn p = true) ∧
    (∃ (s : State) (p : HostPort) (rate : Nat) (width : Nat), s.hostOn p = false) ∧
    (∃ (s : State), (s.standby = true ∧ (5 ≤ s.start.stage ∨ s.rd Obj.moduleState = 1) ∧ s.rd (Obj.linkState 0) = 0)) ∧
    (∃ (s : State), (¬ (s.standby = true ∧ (5 ≤ s.start.stage ∨ s.rd Obj.moduleState = 1) ∧ s.rd (Obj.linkState 0) = 0))) ∧
    (∃ (s : State), (s.standby = true ∧ (5 ≤ s.start.stage ∨ s.rd Obj.moduleState = 1) ∧ s.rd (Obj.linkState 1) = 0)) ∧
    (∃ (s : State), (¬ (s.standby = true ∧ (5 ≤ s.start.stage ∨ s.rd Obj.moduleState = 1) ∧ s.rd (Obj.linkState 1) = 0))) :=
  ⟨⟨linkA, .hb, by decide +kernel⟩,
   ⟨up [], .hb, by decide +kernel⟩,
   ⟨(let s := runA 5 id; { s with start := { s.start with perstA := false } }), .ha, 5, 16, by decide +kernel⟩,
   ⟨State.reset, .ha, 5, 16, by decide +kernel⟩,
   ⟨runA 5 id, by decide +kernel⟩,
   ⟨State.reset, by decide +kernel⟩,
   ⟨runA 5 id, by decide +kernel⟩,
   ⟨State.reset, by decide +kernel⟩⟩

/-- States that meet the hypotheses of ProfilesAndFetches, one for each clause. -/
theorem test_hypotheses_ProfilesAndFetches :
    (∃ (s : State) (w : Fin 8) (q : Nat) (e : QEntry), s.entry w q = some e ∧ e.disp = true ∧ e.unit = false ∧ e.skip = false ∧ Rec.kind e.raw = 8 ∧ Rec.op e.raw = 2) ∧
    (∃ (s : State) (w : Fin 8) (q : Nat) (e : QEntry), s.entry w q = some e ∧ e.disp = true ∧ e.unit = false ∧ e.skip = false ∧ Rec.kind e.raw = 8 ∧ Rec.op e.raw = 3) ∧
    (∃ (s : State) (w : Fin 8) (q : Nat) (e : QEntry), s.entry w q = some e ∧ e.disp = true ∧ e.unit = false ∧ e.skip = false ∧ Rec.kind e.raw = 8 ∧ Rec.op e.raw = 1 ∧ (s.sampleAccess (recKey w q) (inOf e.raw) (sampleOf (inOf e.raw).position (inOf e.raw).n (s.rd Obj.runSeed)) false).2 = .ready ∧ (s.sampleAccess (recKey w q) (inOf e.raw) (sampleOf (inOf e.raw).position (inOf e.raw).n (s.rd Obj.runSeed)) false).1.hitsBad (inOf e.raw).tableH (32 * (sampleOf (inOf e.raw).position (inOf e.raw).n (s.rd Obj.runSeed))) 32 = false ∧ ((s.sampleAccess (recKey w q) (inOf e.raw) (sampleOf (inOf e.raw).position (inOf e.raw).n (s.rd Obj.runSeed)) false).1.access (recKey w q) 1 (inOf e.raw).srcH (pagesOf (inOf e.raw).srcOff (min (65536 * (((s.sampleAccess (recKey w q) (inOf e.raw) (sampleOf (inOf e.raw).position (inOf e.raw).n (s.rd Obj.runSeed)) false).1.region (inOf e.raw).srcH).map Region.size).getD 0 - (inOf e.raw).srcOff) ((s.sampleAccess (recKey w q) (inOf e.raw) (sampleOf (inOf e.raw).position (inOf e.raw).n (s.rd Obj.runSeed)) false).1.sampleBytes ((s.sampleAccess (recKey w q) (inOf e.raw) (sampleOf (inOf e.raw).position (inOf e.raw).n (s.rd Obj.runSeed)) false).1.sampleEntry (inOf e.raw).tableH (sampleOf (inOf e.raw).position (inOf e.raw).n (s.rd Obj.runSeed))) 0 0).length))).2 = .ready ∧ (((s.sampleAccess (recKey w q) (inOf e.raw) (sampleOf (inOf e.raw).position (inOf e.raw).n (s.rd Obj.runSeed)) false).1.access (recKey w q) 1 (inOf e.raw).srcH (pagesOf (inOf e.raw).srcOff (min (65536 * (((s.sampleAccess (recKey w q) (inOf e.raw) (sampleOf (inOf e.raw).position (inOf e.raw).n (s.rd Obj.runSeed)) false).1.region (inOf e.raw).srcH).map Region.size).getD 0 - (inOf e.raw).srcOff) ((s.sampleAccess (recKey w q) (inOf e.raw) (sampleOf (inOf e.raw).position (inOf e.raw).n (s.rd Obj.runSeed)) false).1.sampleBytes ((s.sampleAccess (recKey w q) (inOf e.raw) (sampleOf (inOf e.raw).position (inOf e.raw).n (s.rd Obj.runSeed)) false).1.sampleEntry (inOf e.raw).tableH (sampleOf (inOf e.raw).position (inOf e.raw).n (s.rd Obj.runSeed))) 0 0).length))).1.readCause ((s.sampleAccess (recKey w q) (inOf e.raw) (sampleOf (inOf e.raw).position (inOf e.raw).n (s.rd Obj.runSeed)) false).1.sampleEntry (inOf e.raw).tableH (sampleOf (inOf e.raw).position (inOf e.raw).n (s.rd Obj.runSeed))) 0 ((s.sampleAccess (recKey w q) (inOf e.raw) (sampleOf (inOf e.raw).position (inOf e.raw).n (s.rd Obj.runSeed)) false).1.sampleBytes ((s.sampleAccess (recKey w q) (inOf e.raw) (sampleOf (inOf e.raw).position (inOf e.raw).n (s.rd Obj.runSeed)) false).1.sampleEntry (inOf e.raw).tableH (sampleOf (inOf e.raw).position (inOf e.raw).n (s.rd Obj.runSeed))) 0 0)) = 0) ∧
    (∃ (s : State) (w : Fin 8) (q : Nat) (e : QEntry), s.entry w q = some e ∧ e.disp = true ∧ e.unit = false ∧ e.skip = false ∧ Rec.kind e.raw = 8 ∧ Rec.op e.raw = 1 ∧ (s.sampleAccess (recKey w q) (inOf e.raw) (sampleOf (inOf e.raw).position (inOf e.raw).n (s.rd Obj.runSeed)) false).2 = .ready ∧ (s.sampleAccess (recKey w q) (inOf e.raw) (sampleOf (inOf e.raw).position (inOf e.raw).n (s.rd Obj.runSeed)) false).1.hitsBad (inOf e.raw).tableH (32 * (sampleOf (inOf e.raw).position (inOf e.raw).n (s.rd Obj.runSeed))) 32 = false ∧ ((s.sampleAccess (recKey w q) (inOf e.raw) (sampleOf (inOf e.raw).position (inOf e.raw).n (s.rd Obj.runSeed)) false).1.access (recKey w q) 1 (inOf e.raw).srcH (pagesOf (inOf e.raw).srcOff (min (65536 * (((s.sampleAccess (recKey w q) (inOf e.raw) (sampleOf (inOf e.raw).position (inOf e.raw).n (s.rd Obj.runSeed)) false).1.region (inOf e.raw).srcH).map Region.size).getD 0 - (inOf e.raw).srcOff) ((s.sampleAccess (recKey w q) (inOf e.raw) (sampleOf (inOf e.raw).position (inOf e.raw).n (s.rd Obj.runSeed)) false).1.sampleBytes ((s.sampleAccess (recKey w q) (inOf e.raw) (sampleOf (inOf e.raw).position (inOf e.raw).n (s.rd Obj.runSeed)) false).1.sampleEntry (inOf e.raw).tableH (sampleOf (inOf e.raw).position (inOf e.raw).n (s.rd Obj.runSeed))) 0 0).length))).2 = .ready ∧ (((s.sampleAccess (recKey w q) (inOf e.raw) (sampleOf (inOf e.raw).position (inOf e.raw).n (s.rd Obj.runSeed)) false).1.access (recKey w q) 1 (inOf e.raw).srcH (pagesOf (inOf e.raw).srcOff (min (65536 * (((s.sampleAccess (recKey w q) (inOf e.raw) (sampleOf (inOf e.raw).position (inOf e.raw).n (s.rd Obj.runSeed)) false).1.region (inOf e.raw).srcH).map Region.size).getD 0 - (inOf e.raw).srcOff) ((s.sampleAccess (recKey w q) (inOf e.raw) (sampleOf (inOf e.raw).position (inOf e.raw).n (s.rd Obj.runSeed)) false).1.sampleBytes ((s.sampleAccess (recKey w q) (inOf e.raw) (sampleOf (inOf e.raw).position (inOf e.raw).n (s.rd Obj.runSeed)) false).1.sampleEntry (inOf e.raw).tableH (sampleOf (inOf e.raw).position (inOf e.raw).n (s.rd Obj.runSeed))) 0 0).length))).1.readCause ((s.sampleAccess (recKey w q) (inOf e.raw) (sampleOf (inOf e.raw).position (inOf e.raw).n (s.rd Obj.runSeed)) false).1.sampleEntry (inOf e.raw).tableH (sampleOf (inOf e.raw).position (inOf e.raw).n (s.rd Obj.runSeed))) 0 ((s.sampleAccess (recKey w q) (inOf e.raw) (sampleOf (inOf e.raw).position (inOf e.raw).n (s.rd Obj.runSeed)) false).1.sampleBytes ((s.sampleAccess (recKey w q) (inOf e.raw) (sampleOf (inOf e.raw).position (inOf e.raw).n (s.rd Obj.runSeed)) false).1.sampleEntry (inOf e.raw).tableH (sampleOf (inOf e.raw).position (inOf e.raw).n (s.rd Obj.runSeed))) 0 0)) ≠ 0) ∧
    (∃ (s : State) (w : Fin 8) (q : Nat) (e : QEntry), s.entry w q = some e ∧ e.disp = true ∧ e.unit = false ∧ e.skip = false ∧ Rec.kind e.raw = 8 ∧ Rec.op e.raw = 1 ∧ ((s.sampleAccess (recKey w q) (inOf e.raw) (sampleOf (inOf e.raw).position (inOf e.raw).n (s.rd Obj.runSeed)) false).2 = .waiting ∨ ((s.sampleAccess (recKey w q) (inOf e.raw) (sampleOf (inOf e.raw).position (inOf e.raw).n (s.rd Obj.runSeed)) false).1.hitsBad (inOf e.raw).tableH (32 * (sampleOf (inOf e.raw).position (inOf e.raw).n (s.rd Obj.runSeed))) 32 = false ∧ ((s.sampleAccess (recKey w q) (inOf e.raw) (sampleOf (inOf e.raw).position (inOf e.raw).n (s.rd Obj.runSeed)) false).1.access (recKey w q) 1 (inOf e.raw).srcH (pagesOf (inOf e.raw).srcOff (min (65536 * (((s.sampleAccess (recKey w q) (inOf e.raw) (sampleOf (inOf e.raw).position (inOf e.raw).n (s.rd Obj.runSeed)) false).1.region (inOf e.raw).srcH).map Region.size).getD 0 - (inOf e.raw).srcOff) ((s.sampleAccess (recKey w q) (inOf e.raw) (sampleOf (inOf e.raw).position (inOf e.raw).n (s.rd Obj.runSeed)) false).1.sampleBytes ((s.sampleAccess (recKey w q) (inOf e.raw) (sampleOf (inOf e.raw).position (inOf e.raw).n (s.rd Obj.runSeed)) false).1.sampleEntry (inOf e.raw).tableH (sampleOf (inOf e.raw).position (inOf e.raw).n (s.rd Obj.runSeed))) 0 0).length))).2 = .waiting))) ∧
    (∃ (s : State) (w : Fin 8) (q : Nat) (e : QEntry), s.entry w q = some e ∧ e.disp = true ∧ e.unit = false ∧ e.skip = false ∧ Rec.kind e.raw = 8 ∧ Rec.op e.raw = 1 ∧ (s.sampleAccess (recKey w q) (inOf e.raw) (sampleOf (inOf e.raw).position (inOf e.raw).n (s.rd Obj.runSeed)) false).2 = .ready ∧ (s.sampleAccess (recKey w q) (inOf e.raw) (sampleOf (inOf e.raw).position (inOf e.raw).n (s.rd Obj.runSeed)) false).1.hitsBad (inOf e.raw).tableH (32 * (sampleOf (inOf e.raw).position (inOf e.raw).n (s.rd Obj.runSeed))) 32 = true) ∧
    (∃ (s : State) (w : Fin 8) (q : Nat), (s.entry w q).all (fun e => !(e.disp && !e.unit && !e.skip && Rec.kind e.raw == 8 && Rec.op e.raw == 2)) = true) ∧
    (∃ (s : State) (w : Fin 8) (q : Nat), (s.entry w q).all (fun e => !(e.disp && !e.unit && !e.skip && Rec.kind e.raw == 8 && Rec.op e.raw == 3)) = true) ∧
    (∃ (s : State) (w : Fin 8) (q : Nat), (s.entry w q).all (fun e => !(e.disp && !e.unit && !e.skip && Rec.kind e.raw == 8 && Rec.op e.raw == 1)) = true) :=
  ⟨⟨upRec (kindRec 8 [(0, 60, 4, 2), (0, 46, 4, 3), (1, 48, 16, 64)]), 0, 0, entOf (kindRec 8 [(0, 60, 4, 2), (0, 46, 4, 3), (1, 48, 16, 64)]) 0 true, by decide +kernel⟩,
   ⟨upRec (kindRec 8 [(0, 60, 4, 3), (2, 32, 32, 9), (2, 0, 32, 4)]), 0, 0, entOf (kindRec 8 [(0, 60, 4, 3), (2, 32, 32, 9), (2, 0, 32, 4)]) 0 true, by decide +kernel⟩,
   ⟨((withStore (withTier (upRec (kindRec 8 [(0, 60, 4, 1), (2, 32, 32, 1), (2, 16, 16, 4), (4, 32, 32, 9)])) fun x => { x with regions := [(4, regionA 6 .t1), (9, regionA 8 .t1)], mem := memWrite [] (regionAddr 4 0) (le 8 0 ++ le 4 2 ++ le 4 (crc32 [5, 6]) ++ [1]) }) fun x => { x with zones := [(zoneAddr 1 0, 5), (zoneAddr 1 1, 6)] }).wr (Obj.szWp 1) 2031616), 0, 0, entOf (kindRec 8 [(0, 60, 4, 1), (2, 32, 32, 1), (2, 16, 16, 4), (4, 32, 32, 9)]) 0 true, by decide +kernel⟩,
   ⟨((withStore (withTier (upRec (kindRec 8 [(0, 60, 4, 1), (2, 32, 32, 1), (2, 16, 16, 4), (4, 32, 32, 9)])) fun x => { x with regions := [(4, regionA 6 .t1), (9, regionA 8 .t1)], mem := memWrite [] (regionAddr 4 0) (le 8 0 ++ le 4 2 ++ le 4 (9) ++ [1]) }) fun x => { x with zones := [(zoneAddr 1 0, 5), (zoneAddr 1 1, 6)] }).wr (Obj.szWp 1) 2031616), 0, 0, entOf (kindRec 8 [(0, 60, 4, 1), (2, 32, 32, 1), (2, 16, 16, 4), (4, 32, 32, 9)]) 0 true, by decide +kernel⟩,
   ⟨((withStore (withTier (upRec (kindRec 8 [(0, 60, 4, 1), (2, 32, 32, 1), (2, 16, 16, 4), (4, 32, 32, 9)])) fun x => { x with regions := [(4, regionA 6 .t1), (9, { regionA 8 .t1 with pages := [(0, { pageA .t1 with move := some (moveA .t2) })] })], mem := memWrite [] (regionAddr 4 0) (le 8 0 ++ le 4 2 ++ le 4 (9) ++ [1]) }) fun x => { x with zones := [(zoneAddr 1 0, 5), (zoneAddr 1 1, 6)] }).wr (Obj.szWp 1) 2031616), 0, 0, entOf (kindRec 8 [(0, 60, 4, 1), (2, 32, 32, 1), (2, 16, 16, 4), (4, 32, 32, 9)]) 0 true, by decide +kernel⟩,
   ⟨((withStore (withTier (upRec (kindRec 8 [(0, 60, 4, 1), (2, 32, 32, 1), (2, 16, 16, 4), (4, 32, 32, 9)])) fun x => { x with regions := [(4, { regionA 6 .t1 with pages := [(0, { pageA .t1 with bad := [0] })] }), (9, regionA 8 .t1)], mem := memWrite [] (regionAddr 4 0) (le 8 0 ++ le 4 2 ++ le 4 (9) ++ [1]) }) fun x => { x with zones := [(zoneAddr 1 0, 5), (zoneAddr 1 1, 6)] }).wr (Obj.szWp 1) 2031616), 0, 0, entOf (kindRec 8 [(0, 60, 4, 1), (2, 32, 32, 1), (2, 16, 16, 4), (4, 32, 32, 9)]) 0 true, by decide +kernel⟩,
   ⟨State.reset, 0, 0, by decide +kernel⟩,
   ⟨State.reset, 0, 0, by decide +kernel⟩,
   ⟨State.reset, 0, 0, by decide +kernel⟩⟩

/-- States that meet the hypotheses of SamplesDecodeOnEngines, one for each clause. -/
theorem test_hypotheses_SamplesDecodeOnEngines :
    (∃ (s : State) (w : Fin 8) (q : Nat) (k : Nat) (e : QEntry), s.entry w q = some e ∧ e.disp = true ∧ e.unit = false ∧ e.skip = false ∧ Rec.kind e.raw = 8 ∧ Rec.op e.raw = 0 ∧ s.store.samples.find (recKey w q) = none ∧ s.decodersOn = true ∧ (s.sampleAccess (recKey w q) (inOf e.raw) (sampleOf (inOf e.raw).position (inOf e.raw).n (s.rd Obj.runSeed)) true).2 = .ready ∧ (s.sampleAccess (recKey w q) (inOf e.raw) (sampleOf (inOf e.raw).position (inOf e.raw).n (s.rd Obj.runSeed)) true).1.hitsBad (inOf e.raw).tableH (32 * (sampleOf (inOf e.raw).position (inOf e.raw).n (s.rd Obj.runSeed))) 32 = false ∧ (s.sampleAccess (recKey w q) (inOf e.raw) (sampleOf (inOf e.raw).position (inOf e.raw).n (s.rd Obj.runSeed)) true).1.freeEngine = some k ∧ ((s.sampleAccess (recKey w q) (inOf e.raw) (sampleOf (inOf e.raw).position (inOf e.raw).n (s.rd Obj.runSeed)) true).1.writable (recKey w q) ((s.sampleAccess (recKey w q) (inOf e.raw) (sampleOf (inOf e.raw).position (inOf e.raw).n (s.rd Obj.runSeed)) true).1.enginePages k)).2 = true) ∧
    (∃ (s : State) (w : Fin 8) (q : Nat) (e : QEntry), s.entry w q = some e ∧ e.disp = true ∧ e.unit = false ∧ e.skip = false ∧ Rec.kind e.raw = 8 ∧ Rec.op e.raw = 0 ∧ s.store.samples.find (recKey w q) = none ∧ (s.decodersOn = false ∨ (s.sampleAccess (recKey w q) (inOf e.raw) (sampleOf (inOf e.raw).position (inOf e.raw).n (s.rd Obj.runSeed)) true).2 = .waiting ∨ ((s.sampleAccess (recKey w q) (inOf e.raw) (sampleOf (inOf e.raw).position (inOf e.raw).n (s.rd Obj.runSeed)) true).1.hitsBad (inOf e.raw).tableH (32 * (sampleOf (inOf e.raw).position (inOf e.raw).n (s.rd Obj.runSeed))) 32 = false ∧ ((s.sampleAccess (recKey w q) (inOf e.raw) (sampleOf (inOf e.raw).position (inOf e.raw).n (s.rd Obj.runSeed)) true).1.freeEngine).all (fun k => !((s.sampleAccess (recKey w q) (inOf e.raw) (sampleOf (inOf e.raw).position (inOf e.raw).n (s.rd Obj.runSeed)) true).1.writable (recKey w q) ((s.sampleAccess (recKey w q) (inOf e.raw) (sampleOf (inOf e.raw).position (inOf e.raw).n (s.rd Obj.runSeed)) true).1.enginePages k)).2) = true))) ∧
    (∃ (s : State) (w : Fin 8) (q : Nat) (e : QEntry), s.entry w q = some e ∧ e.disp = true ∧ e.unit = false ∧ e.skip = false ∧ Rec.kind e.raw = 8 ∧ Rec.op e.raw = 0 ∧ s.store.samples.find (recKey w q) = none ∧ s.decodersOn = true ∧ (s.sampleAccess (recKey w q) (inOf e.raw) (sampleOf (inOf e.raw).position (inOf e.raw).n (s.rd Obj.runSeed)) true).2 = .ready ∧ (s.sampleAccess (recKey w q) (inOf e.raw) (sampleOf (inOf e.raw).position (inOf e.raw).n (s.rd Obj.runSeed)) true).1.hitsBad (inOf e.raw).tableH (32 * (sampleOf (inOf e.raw).position (inOf e.raw).n (s.rd Obj.runSeed))) 32 = true) ∧
    (∃ (s : State) (w : Fin 8) (q : Nat) (e : QEntry) (j : SampleJob), s.entry w q = some e ∧ e.disp = true ∧ e.unit = false ∧ e.skip = false ∧ Rec.kind e.raw = 8 ∧ Rec.op e.raw = 0 ∧ s.store.samples.find (recKey w q) = some j) ∧
    (∃ (s : State) (w : Fin 8) (q : Nat) (e : QEntry) (j : SampleJob), s.entry w q = some e ∧ e.disp = true ∧ e.unit = false ∧ e.skip = false ∧ Rec.kind e.raw = 8 ∧ Rec.op e.raw = 0 ∧ s.store.samples.find (recKey w q) = some j ∧ j.formed = false ∧ j.engine < 16 ∧ (inOf e.raw).dest = 0 ∧ (s.access (recKey w q) (inOf e.raw).gated (inOf e.raw).outH (pagesOf (inOf e.raw).outOff (j.profile.bytes j.profile.tokens))).2 = .ready ∧ (j.cause = 0 ∨ (inOf e.raw).errPol ≠ 2)) ∧
    (∃ (s : State) (w : Fin 8) (q : Nat) (e : QEntry) (j : SampleJob), s.entry w q = some e ∧ e.disp = true ∧ e.unit = false ∧ e.skip = false ∧ Rec.kind e.raw = 8 ∧ Rec.op e.raw = 0 ∧ s.store.samples.find (recKey w q) = some j ∧ j.formed = false ∧ j.engine < 16 ∧ (inOf e.raw).dest = 0 ∧ (s.access (recKey w q) (inOf e.raw).gated (inOf e.raw).outH (pagesOf (inOf e.raw).outOff (j.profile.bytes j.profile.tokens))).2 = .waiting) ∧
    (∃ (s : State) (w : Fin 8) (q : Nat) (e : QEntry), s.entry w q = some e ∧ e.disp = true ∧ e.unit = false ∧ e.skip = false ∧ Rec.kind e.raw = 8 ∧ Rec.op e.raw = 0 ∧ (s.store.samples.find (recKey w q)).all SampleJob.formed = true) ∧
    (∃ (s : State) (w : Fin 8) (q : Nat) (e : QEntry) (j : SampleJob), s.entry w q = some e ∧ e.disp = true ∧ e.unit = false ∧ e.skip = false ∧ Rec.kind e.raw = 8 ∧ Rec.op e.raw = 0 ∧ s.store.samples.find (recKey w q) = some j ∧ j.formed = false ∧ j.engine < 16 ∧ (inOf e.raw).dest ≠ 0 ∧ (j.cause = 0 ∨ (inOf e.raw).errPol ≠ 2)) ∧
    (∃ (s : State) (w : Fin 8) (q : Nat) (e : QEntry) (j : SampleJob), s.entry w q = some e ∧ e.disp = true ∧ e.unit = false ∧ e.skip = false ∧ Rec.kind e.raw = 8 ∧ Rec.op e.raw = 0 ∧ s.store.samples.find (recKey w q) = some j ∧ j.formed = false ∧ j.engine < 16 ∧ ((inOf e.raw).dest = 0 → (s.access (recKey w q) (inOf e.raw).gated (inOf e.raw).outH (pagesOf (inOf e.raw).outOff (j.profile.bytes j.profile.tokens))).2 = .ready) ∧ j.cause ≠ 0 ∧ (inOf e.raw).errPol = 2) ∧
    (∃ (s : State) (k : Fin 16) (key : Nat) (j : SampleJob), (s.store.samples.find? fun x => x.2.engine == k.val && !x.2.formed) = some (key, j) ∧ 100 * ms ≤ s.now - j.progress) ∧
    (∃ (s : State) (k : Fin 16), (s.store.samples.find? fun x => x.2.engine == k.val && !x.2.formed).all (fun x => decide (s.now - x.2.progress < 100 * ms)) = true) ∧
    (∃ (s : State) (w : Fin 8) (q : Nat), (s.entry w q).all (fun e => !(e.disp && !e.unit && !e.skip && Rec.kind e.raw == 8 && Rec.op e.raw == 0)) = true) ∧
    (∃ (s : State) (w : Fin 8) (q : Nat), (s.entry w q).all (fun e => !(e.disp && !e.unit && !e.skip && Rec.kind e.raw == 8 && Rec.op e.raw == 0)) = true) :=
  ⟨⟨(withTier (upRec (kindRec 8 [(2, 32, 32, 1), (2, 16, 16, 4), (3, 32, 32, 9)])) fun x => { x with regions := [(4, regionA 6 .t1), (9, regionA 9 .t1)] }).wr (Obj.decState 1) 1, 0, 0, 1, entOf (kindRec 8 [(2, 32, 32, 1), (2, 16, 16, 4), (3, 32, 32, 9)]) 0 true, by decide +kernel⟩,
   ⟨(withTier (upRec (kindRec 8 [(2, 32, 32, 1), (2, 16, 16, 4), (3, 32, 32, 9)])) fun x => { x with regions := [(4, regionA 6 .t1), (9, regionA 9 .t1)] }).wr Obj.powerState 3, 0, 0, entOf (kindRec 8 [(2, 32, 32, 1), (2, 16, 16, 4), (3, 32, 32, 9)]) 0 true, by decide +kernel⟩,
   ⟨withTier (upRec (kindRec 8 [(2, 32, 32, 1), (2, 16, 16, 4), (3, 32, 32, 9)])) fun x => { x with regions := [(4, { regionA 6 .t1 with pages := [(0, { pageA .t1 with bad := [0] })] }), (9, regionA 9 .t1)] }, 0, 0, entOf (kindRec 8 [(2, 32, 32, 1), (2, 16, 16, 4), (3, 32, 32, 9)]) 0 true, by decide +kernel⟩,
   ⟨withStore (withTier (upRec (kindRec 8 [(2, 32, 32, 1), (2, 16, 16, 4), (3, 32, 32, 9)])) fun x => { x with regions := [(4, regionA 6 .t1), (9, regionA 9 .t1)] }) fun x => { x with samples := [(0, sampleA 0)] }, 0, 0, entOf (kindRec 8 [(2, 32, 32, 1), (2, 16, 16, 4), (3, 32, 32, 9)]) 0 true, sampleA 0, by decide +kernel⟩,
   ⟨withStore (withTier (upRec (kindRec 8 [(0, 46, 4, 3), (2, 32, 32, 1), (2, 16, 16, 4), (3, 32, 32, 9)])) fun x => { x with regions := [(4, regionA 6 .t1), (9, regionA 9 .t1)] }) fun x => { x with samples := [(0, sampleA 225)] }, 0, 0, entOf (kindRec 8 [(0, 46, 4, 3), (2, 32, 32, 1), (2, 16, 16, 4), (3, 32, 32, 9)]) 0 true, sampleA 0xE1, by decide +kernel⟩,
   ⟨withStore (withTier (upRec (kindRec 8 [(0, 46, 4, 3), (2, 32, 32, 1), (2, 16, 16, 4), (3, 32, 32, 9)])) fun x => { x with regions := [(4, regionA 6 .t1), (9, { regionA 9 .t1 with pages := [(0, { pageA .t1 with move := some (moveA .t2) })] })] }) fun x => { x with samples := [(0, sampleA 225)] }, 0, 0, entOf (kindRec 8 [(0, 46, 4, 3), (2, 32, 32, 1), (2, 16, 16, 4), (3, 32, 32, 9)]) 0 true, sampleA 0xE1, by decide +kernel⟩,
   ⟨upRec (kindRec 8 [(0, 46, 4, 3), (2, 32, 32, 1), (2, 16, 16, 4), (3, 32, 32, 9)]), 0, 0, entOf (kindRec 8 [(0, 46, 4, 3), (2, 32, 32, 1), (2, 16, 16, 4), (3, 32, 32, 9)]) 0 true, by decide +kernel⟩,
   ⟨withStore (withTier (upRec (kindRec 8 [(0, 46, 4, 3), (0, 44, 2, 1), (2, 32, 32, 1), (2, 16, 16, 4)])) fun x => { x with regions := [(4, regionA 6 .t1), (9, regionA 9 .t1)] }) fun x => { x with samples := [(0, sampleA 225)] }, 0, 0, entOf (kindRec 8 [(0, 46, 4, 3), (0, 44, 2, 1), (2, 32, 32, 1), (2, 16, 16, 4)]) 0 true, sampleA 0xE1, by decide +kernel⟩,
   ⟨withStore (withTier (upRec (kindRec 8 [(0, 46, 4, 3), (0, 42, 2, 2), (2, 32, 32, 1), (2, 16, 16, 4), (3, 32, 32, 9)])) fun x => { x with regions := [(4, regionA 6 .t1), (9, regionA 9 .t1)] }) fun x => { x with samples := [(0, sampleA 225)] }, 0, 0, entOf (kindRec 8 [(0, 46, 4, 3), (0, 42, 2, 2), (2, 32, 32, 1), (2, 16, 16, 4), (3, 32, 32, 9)]) 0 true, sampleA 0xE1, by decide +kernel⟩,
   ⟨withStore { (withTier (upRec (kindRec 8 [(2, 32, 32, 1), (2, 16, 16, 4), (3, 32, 32, 9)])) fun x => { x with regions := [(4, regionA 6 .t1), (9, regionA 9 .t1)] }) with now := 200 * ms } fun x => { x with samples := [(0, sampleA 0)], engines := [(2, { resets := 2, failed := false })] }, 2, 0, sampleA 0, by decide +kernel⟩,
   ⟨withTier (upRec (kindRec 8 [(2, 32, 32, 1), (2, 16, 16, 4), (3, 32, 32, 9)])) fun x => { x with regions := [(4, regionA 6 .t1), (9, regionA 9 .t1)] }, 2, by decide +kernel⟩,
   ⟨State.reset, 0, 0, by decide +kernel⟩,
   ⟨State.reset, 0, 0, by decide +kernel⟩⟩

/-- States that meet the hypotheses of AppendsAndZones, one for each clause. -/
theorem test_hypotheses_AppendsAndZones :
    (∃ (s : State) (w : Fin 8) (q : Nat) (data : Bytes) (e : QEntry), s.entry w q = some e ∧ e.disp = true ∧ e.unit = false ∧ e.skip = false ∧ Rec.kind e.raw = 8 ∧ Rec.op e.raw = 4 ∧ s.store.appends.find (recKey w q) = none ∧ (s.zoneAppends (inOf e.raw).zone).any (fun p => decide (p.2.order < e.order)) = false ∧ ((s.win w).owner.map fun p => s.linkUp p) = some true ∧ data.length = 65536 * Rec.w e.raw 2 63 32) ∧
    (∃ (s : State) (w : Fin 8) (q : Nat) (data : Bytes) (e : QEntry), s.entry w q = some e ∧ e.disp = true ∧ e.unit = false ∧ e.skip = false ∧ Rec.kind e.raw = 8 ∧ Rec.op e.raw = 4 ∧ (¬ (s.store.appends.find (recKey w q) = none ∧ (s.zoneAppends (inOf e.raw).zone).any (fun p => decide (p.2.order < e.order)) = false ∧ ((s.win w).owner.map fun p => s.linkUp p) = some true ∧ data.length = 65536 * Rec.w e.raw 2 63 32))) ∧
    (∃ (s : State) (z : Fin 4) (pages : List (Nat × Nat)) (key : Nat) (j : AppendJob), (s.store.appends.find? fun a => a.2.zone == z.val && decide (a.2.done < a.2.rows)) = some (key, j)) ∧
    (∃ (s : State) (z : Fin 4) (pages : List (Nat × Nat)), (s.store.appends.find? fun a => a.2.zone == z.val && decide (a.2.done < a.2.rows)) = none) ∧
    (∃ (s : State) (pages : List (Nat × Nat)) (h : Nat) (p : Nat) (r : Region) (m : PageMove), pages.length ≤ 31 ∧ (h, p) ∈ pages ∧ s.region h = some r ∧ (r.page p).move = some m ∧ m.dst = .t2 ∧ s.rowRoom 1 = true) ∧
    (∃ (s : State) (pages : List (Nat × Nat)), (31 < pages.length ∨ s.rowRoom 1 = false ∨ pages.any (fun x => (s.region x.1).any fun r => (r.page x.2).move.any fun m => m.dst == .t2) = false)) ∧
    (∃ (s : State) (w : Fin 8) (q : Nat) (e : QEntry) (j : AppendJob), s.entry w q = some e ∧ e.disp = true ∧ e.unit = false ∧ e.skip = false ∧ Rec.kind e.raw = 8 ∧ Rec.op e.raw = 4 ∧ s.store.appends.find (recKey w q) = some j ∧ j.rows ≤ j.done ∧ j.data.length ≤ j.rows * rowBytes) ∧
    (∃ (s : State) (w : Fin 8) (q : Nat) (e : QEntry), s.entry w q = some e ∧ e.disp = true ∧ e.unit = false ∧ e.skip = false ∧ Rec.kind e.raw = 8 ∧ Rec.op e.raw = 4 ∧ (s.store.appends.find (recKey w q)).all (fun j => decide (j.done < j.rows)) = true) ∧
    (∃ (s : State) (src : Src) (z : Fin 4) (arg : Nat), arg = 1 ∧ s.fldDenied src (Obj.szReset z) = false ∧ s.zoneBusy z = false) ∧
    (∃ (s : State) (src : Src) (z : Fin 4) (arg : Nat), (s.fldDenied src (Obj.szReset z) = true ∨ arg ≠ 1 ∨ s.zoneBusy z = true)) ∧
    (∃ (s : State) (w : Fin 8) (q : Nat) (data : Bytes), (s.entry w q).all (fun e => !(e.disp && !e.unit && !e.skip && Rec.kind e.raw == 8 && Rec.op e.raw == 4)) = true) ∧
    (∃ (s : State) (w : Fin 8) (q : Nat), (s.entry w q).all (fun e => !(e.disp && !e.unit && !e.skip && Rec.kind e.raw == 8 && Rec.op e.raw == 4)) = true) :=
  ⟨⟨upRec (kindRec 8 [(0, 60, 4, 4), (0, 40, 2, 1), (2, 32, 32, 0)]), 0, 0, [], entOf (kindRec 8 [(0, 60, 4, 4), (0, 40, 2, 1), (2, 32, 32, 0)]) 0 true, by decide +kernel⟩,
   ⟨upRec (kindRec 8 [(0, 60, 4, 4), (0, 40, 2, 1), (2, 32, 32, 0)]), 0, 0, [1], entOf (kindRec 8 [(0, 60, 4, 4), (0, 40, 2, 1), (2, 32, 32, 0)]) 0 true, by decide +kernel⟩,
   ⟨withStore (up []) fun x => { x with appends := [(0, appendA 0)] }, 1, [], 0, appendA 0, by decide +kernel⟩,
   ⟨up [], 1, [], by decide +kernel⟩,
   ⟨withTier (up []) fun x => { x with regions := [(9, { regionA 4 .t1 with pages := [(0, { pageA .t1 with move := some (moveA .t2) })] })] }, [(9, 0)], 9, 0, { regionA 4 .t1 with pages := [(0, { pageA .t1 with move := some (moveA .t2) })] }, moveA .t2, by decide +kernel⟩,
   ⟨up [], [(9, 0)], by decide +kernel⟩,
   ⟨withStore (upRec (kindRec 8 [(0, 60, 4, 4), (0, 40, 2, 1), (2, 32, 32, 0)])) fun x => { x with appends := [(0, appendA 1)] }, 0, 0, entOf (kindRec 8 [(0, 60, 4, 4), (0, 40, 2, 1), (2, 32, 32, 0)]) 0 true, appendA 1, by decide +kernel⟩,
   ⟨upRec (kindRec 8 [(0, 60, 4, 4), (0, 40, 2, 1), (2, 32, 32, 0)]), 0, 0, entOf (kindRec 8 [(0, 60, 4, 4), (0, 40, 2, 1), (2, 32, 32, 0)]) 0 true, by decide +kernel⟩,
   ⟨withStore (up [(Obj.szWp 1, 2031616)]) fun x => { x with zones := [(zoneAddr 1 0, 5), (zoneAddr 2 0, 6)] }, .mctp .ha 9, 1, 1, by decide +kernel⟩,
   ⟨upRec (kindRec 8 [(0, 60, 4, 4), (0, 40, 2, 1), (2, 32, 32, 0)]), .mctp .ha 9, 1, 1, by decide +kernel⟩,
   ⟨State.reset, 0, 0, [], by decide +kernel⟩,
   ⟨State.reset, 0, 0, by decide +kernel⟩⟩

/-- States that meet the hypotheses of CheckpointsDrain, one for each clause. -/
theorem test_hypotheses_CheckpointsDrain :
    (∃ (s : State) (w : Fin 8) (q : Nat) (e : QEntry) (r : Region) (i : Nat) (k : Nat), s.entry w q = some e ∧ e.disp = true ∧ e.unit = false ∧ e.skip = false ∧ Rec.kind e.raw = 8 ∧ Rec.op e.raw = 5 ∧ s.store.drains.find (recKey w q) = none ∧ s.region (inOf e.raw).imgH = some r ∧ r.nextMove 2 0 r.size 0 = some i ∧ (r.page i).move = none ∧ (s.beginDrain (recKey w q) (inOf e.raw).imgH).placeIn 2 = some .t2 ∧ ckptEntry (fun k => s.rd (Obj.ckptState k) == 0) = some k) ∧
    (∃ (s : State) (w : Fin 8) (q : Nat) (e : QEntry) (r : Region) (i : Nat), s.entry w q = some e ∧ e.disp = true ∧ e.unit = false ∧ e.skip = false ∧ Rec.kind e.raw = 8 ∧ Rec.op e.raw = 5 ∧ s.store.drains.find (recKey w q) = none ∧ s.region (inOf e.raw).imgH = some r ∧ r.nextMove 2 0 r.size 0 = some i ∧ (r.page i).move = none ∧ (s.beginDrain (recKey w q) (inOf e.raw).imgH).placeIn 2 = none) ∧
    (∃ (s : State) (w : Fin 8) (q : Nat) (e : QEntry) (r : Region) (i : Nat) (j : MoveJob), s.entry w q = some e ∧ e.disp = true ∧ e.unit = false ∧ e.skip = false ∧ Rec.kind e.raw = 8 ∧ Rec.op e.raw = 5 ∧ (s.store.drains.find (recKey w q)).isSome = true ∧ s.tier.moveLeft.find (recKey w q) = some j ∧ j.status = 0 ∧ s.region (inOf e.raw).imgH = some r ∧ r.nextMove 2 0 r.size j.next = some i ∧ (r.page i).move = none ∧ s.placeIn 2 = some .t2) ∧
    (∃ (s : State) (w : Fin 8) (q : Nat) (e : QEntry) (r : Region) (i : Nat) (j : MoveJob), s.entry w q = some e ∧ e.disp = true ∧ e.unit = false ∧ e.skip = false ∧ Rec.kind e.raw = 8 ∧ Rec.op e.raw = 5 ∧ (s.store.drains.find (recKey w q)).isSome = true ∧ s.tier.moveLeft.find (recKey w q) = some j ∧ j.status = 0 ∧ s.region (inOf e.raw).imgH = some r ∧ r.nextMove 2 0 r.size j.next = some i ∧ (r.page i).move.isSome = true) ∧
    (∃ (s : State) (w : Fin 8) (q : Nat) (e : QEntry) (j : MoveJob), s.entry w q = some e ∧ e.disp = true ∧ e.unit = false ∧ e.skip = false ∧ Rec.kind e.raw = 8 ∧ Rec.op e.raw = 5 ∧ (s.store.drains.find (recKey w q)).isSome = true ∧ s.tier.moveLeft.find (recKey w q) = some j ∧ (s.region (inOf e.raw).imgH = none ∨ j.status ≠ 0)) ∧
    (∃ (s : State) (w : Fin 8) (q : Nat) (e : QEntry) (r : Region) (j : MoveJob), s.entry w q = some e ∧ e.disp = true ∧ e.unit = false ∧ e.skip = false ∧ Rec.kind e.raw = 8 ∧ Rec.op e.raw = 5 ∧ (s.store.drains.find (recKey w q)).isSome = true ∧ s.tier.moveLeft.find (recKey w q) = some j ∧ j.status = 0 ∧ s.region (inOf e.raw).imgH = some r ∧ r.nextMove 2 0 r.size j.next = none) ∧
    (∃ (s : State) (w : Fin 8) (q : Nat) (e : QEntry) (r : Region) (k : Nat), s.entry w q = some e ∧ e.disp = true ∧ e.unit = false ∧ e.skip = false ∧ Rec.kind e.raw = 8 ∧ Rec.op e.raw = 5 ∧ (s.store.drains.find (recKey w q)).isSome = true ∧ s.region (inOf e.raw).imgH = some r ∧ ((s.entryOf (inOf e.raw).imgH = some k ∨ (s.entryOf (inOf e.raw).imgH = none ∧ ckptEntry (fun k => s.rd (Obj.ckptState k) == 0) = some k))) ∧ r.count (fun p => p.home == .t2 && p.move.isNone) = r.size ∧ (s.imageIn (inOf e.raw).imgH).whole = true) ∧
    (∃ (s : State) (w : Fin 8) (q : Nat) (e : QEntry), s.entry w q = some e ∧ e.disp = true ∧ e.unit = false ∧ e.skip = false ∧ Rec.kind e.raw = 8 ∧ Rec.op e.raw = 5 ∧ (s.store.drains.find (recKey w q) = none ∨ (s.region (inOf e.raw).imgH).all (fun r => decide (r.count (fun p => p.home == .t2 && p.move.isNone) ≠ r.size)) = true ∨ (s.imageIn (inOf e.raw).imgH).whole = false)) ∧
    (∃ (s : State) (w : Fin 8) (q : Nat), (s.entry w q).all (fun e => !(e.disp && !e.unit && !e.skip && Rec.kind e.raw == 8 && Rec.op e.raw == 5)) = true) ∧
    (∃ (s : State) (w : Fin 8) (q : Nat), (s.entry w q).all (fun e => !(e.disp && !e.unit && !e.skip && Rec.kind e.raw == 8 && Rec.op e.raw == 5)) = true) :=
  ⟨⟨withTier (upRec (kindRec 8 [(0, 60, 4, 5), (3, 32, 32, 9)])) fun x => { x with regions := [(9, regionA 4 .t1)] }, 0, 0, entOf (kindRec 8 [(0, 60, 4, 5), (3, 32, 32, 9)]) 0 true, regionA 4 .t1, 0, 1, by decide +kernel⟩,
   ⟨withTier (upRec (kindRec 8 [(0, 60, 4, 5), (3, 32, 32, 9)])) fun x => { x with regions := [(9, regionA 4 .t1), (10, { regionA 4 .t2 with size := 2 ^ 40 })] }, 0, 0, entOf (kindRec 8 [(0, 60, 4, 5), (3, 32, 32, 9)]) 0 true, regionA 4 .t1, 0, by decide +kernel⟩,
   ⟨withStore (withTier (upRec (kindRec 8 [(0, 60, 4, 5), (3, 32, 32, 9)])) fun x => { x with regions := [(9, regionA 4 .t1)], moveLeft := [(0, { next := 0, status := 0 })] }) fun x => { x with drains := [(0, 9)] }, 0, 0, entOf (kindRec 8 [(0, 60, 4, 5), (3, 32, 32, 9)]) 0 true, regionA 4 .t1, 0, { next := 0, status := 0 }, by decide +kernel⟩,
   ⟨withStore (withTier (upRec (kindRec 8 [(0, 60, 4, 5), (3, 32, 32, 9)])) fun x => { x with regions := [(9, { regionA 4 .t1 with pages := [(0, { pageA .t1 with move := some (moveA .t2) })] })], moveLeft := [(0, { next := 0, status := 0 })] }) fun x => { x with drains := [(0, 9)] }, 0, 0, entOf (kindRec 8 [(0, 60, 4, 5), (3, 32, 32, 9)]) 0 true, { regionA 4 .t1 with pages := [(0, { pageA .t1 with move := some (moveA .t2) })] }, 0, { next := 0, status := 0 }, by decide +kernel⟩,
   ⟨withStore (withTier (upRec (kindRec 8 [(0, 60, 4, 5), (3, 32, 32, 9)])) fun x => { x with regions := [(9, regionA 4 .t1)], moveLeft := [(0, { next := 0, status := 0x12 })] }) fun x => { x with drains := [(0, 9)] }, 0, 0, entOf (kindRec 8 [(0, 60, 4, 5), (3, 32, 32, 9)]) 0 true, { next := 0, status := 0x12 }, by decide +kernel⟩,
   ⟨withStore (withTier (upRec (kindRec 8 [(0, 60, 4, 5), (3, 32, 32, 9)])) fun x => { x with regions := [(9, regionA 4 .t2)], moveLeft := [(0, { next := 0, status := 0 })] }) fun x => { x with drains := [(0, 9)] }, 0, 0, entOf (kindRec 8 [(0, 60, 4, 5), (3, 32, 32, 9)]) 0 true, regionA 4 .t2, { next := 0, status := 0 }, by decide +kernel⟩,
   ⟨withUpd (withStore (((withTier (upRec (kindRec 8 [(0, 60, 4, 5), (3, 32, 32, 9)])) fun x => { x with regions := [(9, regionA 4 .t2)] }).wr (Obj.ckptState 2) 1).wr (Obj.ckptHandle 2) 9) fun x => { x with drains := [(0, 9)] }) fun x => { x with images := [(9, { imageA with digest := some 7 })] }, 0, 0, entOf (kindRec 8 [(0, 60, 4, 5), (3, 32, 32, 9)]) 0 true, regionA 4 .t2, 2, by decide +kernel⟩,
   ⟨withUpd (withStore (((withTier (upRec (kindRec 8 [(0, 60, 4, 5), (3, 32, 32, 9)])) fun x => { x with regions := [(9, regionA 4 .t1)] }).wr (Obj.ckptState 2) 1).wr (Obj.ckptHandle 2) 9) fun x => { x with drains := [(0, 9)] }) fun x => { x with images := [(9, { imageA with digest := some 7 })] }, 0, 0, entOf (kindRec 8 [(0, 60, 4, 5), (3, 32, 32, 9)]) 0 true, by decide +kernel⟩,
   ⟨State.reset, 0, 0, by decide +kernel⟩,
   ⟨State.reset, 0, 0, by decide +kernel⟩⟩

/-- States that meet the hypotheses of FlashIsKept, one for each clause. -/
theorem test_hypotheses_FlashIsKept :
    (∃ (s : State) (u : FlashUnit) (die : Fin 256) (block : Fin 1024) (levels : Fin 7) (outcome : Fin 3), u ≠ .die ∧ outcome = 0) ∧
    (∃ (s : State) (u : FlashUnit) (die : Fin 256) (block : Fin 1024) (levels : Fin 7) (outcome : Fin 3), u ≠ .die ∧ outcome = 1) ∧
    (∃ (s : State) (z : Fin 4) (n : Nat) (die : Fin 256) (block : Fin 1024) (levels : Fin 7) (outcome : Fin 3), outcome = 2) ∧
    (∃ (s : State) (h : Nat) (p : Nat) (die : Fin 256) (block : Fin 1024) (levels : Fin 7) (outcome : Fin 3) (r : Region), outcome = 2 ∧ s.region h = some r ∧ r.cls ≠ 4) ∧
    (∃ (s : State) (h : Nat) (p : Nat) (die : Fin 256) (block : Fin 1024) (levels : Fin 7) (outcome : Fin 3) (r : Region) (k : Nat), outcome = 2 ∧ s.region h = some r ∧ r.cls = 4 ∧ s.entryOf h = some k) ∧
    (∃ (s : State) (h : Nat) (p : Nat) (die : Fin 256) (block : Fin 1024) (levels : Fin 7) (outcome : Fin 3), outcome = 2 ∧ s.region h = none) ∧
    (∃ (s : State) (die : Fin 256) (block : Fin 1024) (levels : Fin 7) (outcome : Fin 3), s.store.dies.contains die.val = false) ∧
    (∃ (s : State) (die : Fin 256) (block : Fin 1024) (levels : Fin 7) (outcome : Fin 3), s.store.dies.contains die.val = true) ∧
    (∃ (s : State) (stripe : Fin 1024) (rows : Nat), s.e2Deferred = false ∧ s.store.genBlocks.contains stripe.val = true ∧ s.store.genBlocks.getLast? ≠ some stripe.val ∧ s.rowRoom (ceilDiv (min (31 * rows) (s.store.pageMap.filter fun x => x.2 / sbUnits == stripe.val).length) 31) = true ∧ (s.store.pageMap.filter fun x => x.2 / sbUnits == stripe.val).length ≤ 31 * rows) ∧
    (∃ (s : State) (stripe : Fin 1024) (rows : Nat), s.e2Deferred = false ∧ s.store.genBlocks.contains stripe.val = true ∧ s.store.genBlocks.getLast? ≠ some stripe.val ∧ s.rowRoom (ceilDiv (min (31 * rows) (s.store.pageMap.filter fun x => x.2 / sbUnits == stripe.val).length) 31) = true ∧ 31 * rows < (s.store.pageMap.filter fun x => x.2 / sbUnits == stripe.val).length) ∧
    (∃ (s : State) (stripe : Fin 1024) (rows : Nat), (¬ (s.e2Deferred = false ∧ s.store.genBlocks.contains stripe.val = true ∧ s.store.genBlocks.getLast? ≠ some stripe.val ∧ s.rowRoom (ceilDiv (min (31 * rows) (s.store.pageMap.filter fun x => x.2 / sbUnits == stripe.val).length) 31) = true))) ∧
    (∃ (s : State) (die : Fin 256) (cold : Fin 1024) (hot : Fin 1024), s.e2Deferred = false ∧ (s.block (blockKey die cold)).programmed.isSome = true ∧ (s.block (blockKey die cold)).retired = false ∧ (s.block (blockKey die hot)).programmed = none ∧ (s.block (blockKey die hot)).retired = false ∧ s.store.dies.contains die.val = false ∧ (s.block (blockKey die cold)).erases + 200 < (s.block (blockKey die hot)).erases) ∧
    (∃ (s : State) (die : Fin 256) (cold : Fin 1024) (hot : Fin 1024), (¬ (s.e2Deferred = false ∧ (s.block (blockKey die cold)).programmed.isSome = true ∧ (s.block (blockKey die cold)).retired = false ∧ (s.block (blockKey die hot)).programmed = none ∧ (s.block (blockKey die hot)).retired = false ∧ s.store.dies.contains die.val = false ∧ (s.block (blockKey die cold)).erases + 200 < (s.block (blockKey die hot)).erases))) ∧
    (∃ (s : State) (die : Fin 256) (block : Fin 1024) (c : Nat), ((s.rd Obj.rdLimit ≤ (s.block (blockKey die block)).reads ∨ ((s.block (blockKey die block)).programmed ≠ none ∧ s.rd Obj.retentionDays * 86400 < s.poweredS - (s.block (blockKey die block)).programmed.getD 0))) ∧ (s.block (blockKey die block)).programmed.isSome = true ∧ s.spareFor (blockKey die block) = some c) ∧
    (∃ (s : State) (die : Fin 256) (block : Fin 1024), (¬ (s.rd Obj.rdLimit ≤ (s.block (blockKey die block)).reads ∨ ((s.block (blockKey die block)).programmed ≠ none ∧ s.rd Obj.retentionDays * 86400 < s.poweredS - (s.block (blockKey die block)).programmed.getD 0)) ∨ (s.block (blockKey die block)).programmed = none ∨ s.spareFor (blockKey die block) = none)) ∧
    (∃ (s : State) (weak : List (Nat × Nat)) (k : Nat) (b : Block), s.e2Deferred = false ∧ weak = [] ∧ s.store.blocks.find k = some b ∧ b.programmed.isSome = true) ∧
    (∃ (s : State) (weak : List (Nat × Nat)), s.e2Deferred = true) :=
  ⟨⟨up [], .zone 1 5, 3, 4, 2, 0, by decide +kernel⟩,
   ⟨up [], .zone 1 5, 3, 4, 6, 1, by decide +kernel⟩,
   ⟨up [], 1, 5, 3, 4, 6, 2, by decide +kernel⟩,
   ⟨withTier (up []) fun x => { x with regions := [(9, regionA 7 .t2)] }, 9, 0, 3, 4, 6, 2, regionA 7 .t2, by decide +kernel⟩,
   ⟨(withTier (up []) fun x => { x with regions := [(9, regionA 4 .t2)] }).wr (Obj.ckptState 2) 2 |>.wr (Obj.ckptHandle 2) 9, 9, 0, 3, 4, 6, 2, regionA 4 .t2, 2, by decide +kernel⟩,
   ⟨up [], 9, 0, 3, 4, 6, 2, by decide +kernel⟩,
   ⟨up [], 3, 4, 0, 0, by decide +kernel⟩,
   ⟨withStore (up []) fun x => { x with dies := [3] }, 3, 4, 0, 0, by decide +kernel⟩,
   ⟨withStore (up []) fun x => { x with genBlocks := [7, 8], genRow := 3, pageMap := [(5, 7 * sbUnits + 2)] }, 7, 1, by decide +kernel⟩,
   ⟨withStore (up []) fun x => { x with genBlocks := [7, 8], genRow := 3, pageMap := [(5, 7 * sbUnits + 2)] }, 7, 0, by decide +kernel⟩,
   ⟨up [(Obj.deferred, 1)], 7, 1, by decide +kernel⟩,
   ⟨withStore (up []) fun x => { x with blocks := [(1025, blockA), (1026, { Block.fresh with erases := 201 })] }, 1, 1, 2, by decide +kernel⟩,
   ⟨up [], 1, 1, 2, by decide +kernel⟩,
   ⟨withStore (up []) fun x => { x with blocks := [(1025, blockA)] }, 1, 1, 1024, by decide +kernel⟩,
   ⟨up [], 1, 1, by decide +kernel⟩,
   ⟨withStore (up []) fun x => { x with blocks := [(1025, blockA)] }, [], 1025, blockA, by decide +kernel⟩,
   ⟨up [(Obj.deferred, 1)], [(1, 2)], by decide +kernel⟩⟩

/-- A state with a command in front. -/
theorem test_hypotheses_StepRunsFrontCommand :
    ∃ (c : Instr) (l : List Instr) (s : State), s.pending = c :: l :=
  ⟨.stepCommit, [], { State.reset with pending := [.stepCommit] }, rfl⟩

/-- The state after reset has no command waiting. -/
theorem test_hypotheses_EmptyQueueTick : ∃ s : State, s.pending = [] := ⟨State.reset, rfl⟩

/-- The state after reset has the form. -/
theorem test_hypotheses_StepKeepsForm : ∃ s : State, s.Form ∧ s.pending = [] := ⟨State.reset, form_of _ (by decide +kernel), rfl⟩

/-- A float format. -/
theorem test_hypotheses_ZeroHasOneCode : ∃ f : Fmt, f.isFloat = true := ⟨.f8, rfl⟩

/-- 1000 is beyond 224, the largest value of F8. -/
theorem test_hypotheses_OverflowSaturates :
    (∃ (f : Fmt) (x : Ex) (b : Int), f.isFloat = true ∧ x.d ≠ 0 ∧ x.isZero = false ∧ b = max x.log2 (1 - f.bias) ∧
      f.maxMag.lt (.dy (x.roundAbs (b - f.frac)) (b - f.frac)) = true ∧
      f.maxMag.lt (.dy ((x.floorAbs (b - f.frac - 16) + 0) / 65536 : Nat) (b - f.frac)) = true) ∧
    (∃ y : Ex, Fmt.w2.maxMag.lt y.abs = true ∧ Fmt.t1.maxMag.lt y.abs = true ∧ 127 < y.roundAbs 0 ∧ y.d ≠ 0) :=
  ⟨⟨.f8, .int 1000, 9, by decide +kernel⟩, .int 1000, by decide +kernel⟩

/-- A code of F8. -/
theorem test_hypotheses_CodesRoundTrip :
    ∃ (f : Fmt) (c : Nat), f.isFloat = true ∧ c < 2 ^ f.bits ∧ c ≠ 2 ^ (f.bits - 1) ∧ (decodeFloat f c).isNan = false :=
  ⟨.f8, 255 - 1 - 128, by decide +kernel⟩

/-- A sample count. -/
theorem test_hypotheses_ShuffleIsAPermutation : ∃ n i j : Nat, 1 ≤ n ∧ n < 2 ^ 32 ∧ i < n ∧ j < n := ⟨2, 0, 1, by decide⟩
/-! ### Operands that are not well formed, one for each check -/

/-- A message of the right widths. -/
def msgW : Msg := msgA []

theorem test_illFormed_src : [Src.fld (2 ^ 48), Src.mctp .ha 256].all (fun s => !s.wf) = true := by decide
theorem test_illFormed_msg : [{ msgW with src := 512 }, { msgW with pod := 2 }, { msgW with mtype := 256 }, { msgW with level := 256 },
    { msgW with group := 65536 }, { msgW with epoch := 2 ^ 32 }, { msgW with digest := 2 ^ 32 }, { msgW with cid := 2 ^ 32 },
    { msgW with step := 2 ^ 64 }, { msgW with index := 2 ^ 32 }, { msgW with rank := 65536 }, { msgW with count := 65536 }].all
      (fun m => !m.wf) = true := by decide
theorem test_illFormed_msg_body : Msg.wf { msgW with body := List.replicate 7897 0 } = false := by
  simp only [Msg.wf, List.length_replicate]
  decide
theorem test_wellFormed_msg : msgW.wf = true := by decide
theorem test_illFormed_trailer : [Instr.cmdTrailerWrite .ha 0 0 60 [], .cmdTrailerWrite .ha 0 0 60 [1, 2, 3, 4, 5]].all (fun c => !c.wf) = true := by decide
theorem test_illFormed_sequence : [Instr.audit 0 (2 ^ 32), .matrix 0 (2 ^ 32) 0].all (fun c => !c.wf) = true := by decide
theorem test_illFormed_flit : Instr.wf (.helloRx 0 [1, 2] 0 0) = false := by decide
theorem test_illFormed_fabric : Instr.wf (.fabricParity 0 (some 17) 0) = false := by decide
theorem test_illFormed_layer : [Instr.updatePassStart 0 0 [], .updatePassStart 256 0 [], .layerCommit 0, .layerCommit 256].all (fun c => !c.wf) = true := by decide
theorem test_illFormed_flagsClear : [Instr.flagsClear (.mctp .ha 9) 0 1, .flagsClear (.mctp .ha 9) 16 1, .flagsClear (.mctp .ha 9) 1 (2 ^ 32),
    .flagsClear (.fld (2 ^ 48)) 1 1].all (fun c => !c.wf) = true := by decide
theorem test_illFormed_management : [Instr.trayReport (2 ^ 48) [], .setEndpointId .ha 4 9, .setEndpointId .ha 0 256,
    .getMctpVersionSupport .ha 256, .getVendorMessageSupport .ha 256].all (fun c => !c.wf) = true := by decide
theorem test_illFormed_service : [Instr.pldmFirmwareData .ha (2 ^ 32) [], .pldmUpdateComponent .ha (2 ^ 32), .dualReport .ha [1],
    .hostLinkUp .ha 0 8, .hostLinkUp .ha 7 8, .hostLinkUp .ha 6 3, .doeDiscovery .ha 256].all (fun c => !c.wf) = true := by decide
theorem test_illFormed_from : [Instr.dictRead (.fld (2 ^ 48)) [] 0, .cumClear (.mctp .hb 256) 1].all (fun c => !c.wf) = true := by decide

/-! ### Values that the manual gives -/

/-- Table 2.1: the largest finite values of F8, G8 and Q4, the smallest subnormal of F8 (2^-10), and the NaN codes. -/
theorem test_decode_floats :
    decodeFloat .f8 0x7E = .fin (.dy 14 4) ∧ decodeFloat .g8 0x7E = .fin (.dy 6 13) ∧ decodeFloat .q4 7 = .fin (.dy 3 1) ∧
    decodeFloat .f8 1 = .fin (.dy 1 (-10)) ∧ decodeFloat .f8 0x7F = .nan ∧ decodeFloat .h16 0x7FFF = .nan := by decide
/-- R33: 500 becomes 224 in F8, counted as a saturation; -500 becomes -224. -/
theorem test_saturate : toFloat .f8 (.fin (.int 500)) = (0x7E, .saturation) ∧ toFloat .f8 (.fin (.int (-500))) = (0xFE, .saturation) := by decide +kernel
/-- R42: ties go to the even code. 17 and 19 lie half way between two F8 codes. -/
theorem test_ties : toFloat .f8 (.fin (.int 17)) = toFloat .f8 (.fin (.int 16)) ∧ toFloat .f8 (.fin (.int 19)) = toFloat .f8 (.fin (.int 20)) := by decide +kernel
/-- Table 2.2: the four W2 codes as twice their value. -/
theorem test_w2 : [0, 1, 2, 3].map (intForm .w2) = [1, 3, -1, -3] := by decide +kernel
/-- R36: the trits 0, 1, -1, 0, 0 stand in one byte as 1 + 2·3 + 0·9 + 1·27 + 1·81. -/
theorem test_t1 : (packT1 [1, 2, 0, 1, 1]).head? = some 115 ∧ unpackByte .t1 115 = [1, 2, 0, 1, 1] := by decide
/-- Table 7.5 names the standard CRCs: their published check values over "123456789". -/
theorem test_crcs :
    let b : Bytes := [0x31, 0x32, 0x33, 0x34, 0x35, 0x36, 0x37, 0x38, 0x39]
    crc16 b = 0x29B1 ∧ crc32 b = 0xCBF43926 ∧ crc64 b = 0x6C40DF5F0B497347 := by decide +kernel
/-- R283: a sample count of one maps every position to sample 0. -/
theorem test_shuffle_one : sampleOf 12345 1 7 = 0 := by decide

end Sys2Proof.Machine
end

section
/-! SUPPORT. Records found in a queue, the count of an event, and what starting a move does. -/
namespace Sys2Proof.Machine

variable {s : State}

/-! ### Records in a queue -/

theorem State.entry_seq {w q : Nat} {e : QEntry} (he : s.entry w q = some e) : e.seq = q := by
  simpa using List.find?_some he

theorem State.entry_congr {t : State} (h : t.cmd = s.cmd) (w q : Nat) : t.entry w q = s.entry w q := by
  rw [State.entry, State.entry, State.win_congr h]

/-- The record found after a change that keeps sequence numbers is the changed one. -/
theorem State.entry_updEntry {w q : Nat} {f : QEntry → QEntry} (hf : ∀ e, (f e).seq = e.seq) :
    (s.updEntry w q f).entry w q = (s.entry w q).map f := by
  have hp : ((fun e : QEntry => e.seq == q) ∘ fun e => if e.seq = q then f e else e) = fun e => e.seq == q := by
    funext e
    by_cases h : e.seq = q <;> simp [h, hf]
  rw [State.updEntry, State.entry, State.win_updWin, List.find?_map, hp, State.entry]
  cases h : (s.win w).queue.find? fun e => e.seq == q with
  | none => rfl
  | some e =>
    have he : e.seq = q := by simpa using List.find?_some h
    simp [he]

/-- A record that a unit reports complete is complete. -/
theorem State.entry_unitDone {w q status reason : Nat} {e : QEntry} (he : s.entry w q = some e) :
    ((s.unitDone w q status reason).entry w q).map QEntry.unit = some true := by
  unfold State.unitDone
  rw [State.entry_updEntry, he]
  · rfl
  · exact fun _ => rfl

/-- Where the record is not one the command acts on, nothing changes. -/
theorem onUnit_idle {w : Fin 8} {q kind op : Nat} {f : QEntry → State}
    (h : (s.entry w q).all (fun e => !(e.disp && !e.unit && !e.skip && Rec.kind e.raw == kind && Rec.op e.raw == op)) = true) :
    onUnit w q kind op s f = .next s := by
  rcases onUnit_cases w q kind op s f with h' | ⟨e, he, hd, hu, hs, hk, ho, -⟩
  · exact h'
  · simp [he, hd, hu, hs, hk, ho] at h

/-! ### The count of an event (R431) -/

theorem State.rd_announce_ne {r : EventRec} {j : Nat} (hj : j ≠ Obj.dictFramesTx) : (s.announce r).rd j = s.rd j := by
  have key : ∀ (l : List Src) (b : Bytes) (v : State),
      (l.foldl (fun s d => (s.emit (.notice d b)).count Obj.dictFramesTx 1) v).rd j = v.rd j := by
    intro l b
    induction l with
    | nil => exact fun v => rfl
    | cons d l ih => exact fun v => (ih _).trans (State.rd_count_ne hj)
  exact key _ _ s

/-- An object that is neither the event's flag word nor its count, nor the count of frames sent, reads as before. -/
theorem State.rd_form_ne {code j : Nat} {ps : List Bytes} (hj : j ≠ Obj.dictFramesTx)
    (hf : j ≠ Obj.flags (code / 256)) (ho : j ≠ Obj.occurrences (code / 256 - 1) (code % 256)) : (s.form code ps).rd j = s.rd j := by
  unfold State.form
  exact (State.rd_announce_ne hj).trans ((State.rd_wr_ne hf).trans (State.rd_wr_ne ho))

theorem State.rd_form_occurrences {code : Nat} {ps : List Bytes} (hc : evOk code = true) :
    (s.form code ps).rd (Obj.occurrences (code / 256 - 1) (code % 256)) =
      (s.rd (Obj.occurrences (code / 256 - 1) (code % 256)) + 1) % 2 ^ 32 := by
  simp only [evOk, decide_eq_true_eq] at hc
  have hj : Obj.occurrences (code / 256 - 1) (code % 256) ≠ Obj.dictFramesTx := by
    simp only [Obj.occurrences, Obj.dictFramesTx]
    omega
  have hf : Obj.occurrences (code / 256 - 1) (code % 256) ≠ Obj.flags (code / 256) := by
    simp only [Obj.occurrences, Obj.flags]
    omega
  unfold State.form
  exact (State.rd_announce_ne hj).trans ((State.rd_wr_ne hf).trans (State.rd_wr_self _ _ _))

/-- An event other than log-overrun counts itself once: a log-overrun that its record brings about has a count of its own. -/
theorem State.rd_raise_occurrences {code : Nat} {ps : List Bytes} (hc : evOk code = true) (hne : code ≠ Ev.logOverrun) :
    (s.raise code ps).rd (Obj.occurrences (code / 256 - 1) (code % 256)) =
      (s.rd (Obj.occurrences (code / 256 - 1) (code % 256)) + 1) % 2 ^ 32 := by
  have h := State.rd_form_occurrences (s := s) (ps := ps) hc
  unfold State.raise
  extract_lets lost a _ b
  have hb : b.rd (Obj.occurrences (code / 256 - 1) (code % 256)) = a.rd (Obj.occurrences (code / 256 - 1) (code % 256)) := rfl
  clear_value b
  split
  · simp only [evOk, decide_eq_true_eq] at hc
    simp only [Ev.logOverrun] at hne
    rw [State.rd_form_ne, hb]
    · exact h
    all_goals
      simp only [Ev.logOverrun, Obj.occurrences, Obj.dictFramesTx, Obj.flags]
      omega
  · exact h

/-! ### Pages -/

@[simp] theorem State.region_setRegion_self {h : Nat} {r : Region} : (s.setRegion h r).region h = some r := Tab.find_insert_self _ h r

@[simp] theorem Region.page_setPage_self {r : Region} {p : Nat} {x : RPage} : (r.setPage p x).page p = x := Tab.get_set_self r.fresh _ p x

/-- A move starts on its page, and the region's bytes stay. -/
theorem State.startMove_starts {h p : Nat} {dst : Home} {why : MoveFor} {r : Region} (hr : s.region h = some r) :
    (∃ r₂, (s.startMove h p dst why).region h = some r₂ ∧ (r₂.page p).move.map PageMove.dst = some dst ∧
      (r₂.page p).move.map PageMove.why = some why) ∧
    (s.startMove h p dst why).tier.mem = s.tier.mem ∧ (s.startMove h p dst why).tier.moveLeft = s.tier.moveLeft ∧
    (s.startMove h p dst why).store = s.store ∧ (s.startMove h p dst why).obj = s.obj := by
  have e : s.startMove h p dst why =
      s.setRegion h (r.setPage p { r.page p with move := some { dst := dst, tries := 0, second := false, why := why } }) := by
    simp only [State.startMove, State.updPage, hr]
  rw [e]
  exact ⟨⟨_, State.region_setRegion_self, by simp, by simp⟩, rfl, rfl, rfl, rfl⟩

theorem mem_setIns_self (l : List Nat) (k : Nat) : k ∈ setIns l k := by
  induction l with
  | nil => exact List.mem_singleton_self k
  | cons j r ih =>
    simp only [setIns]
    split
    · next h => simp [h]
    · split
      · exact List.mem_cons_self
      · exact List.mem_cons_of_mem j ih

end Sys2Proof.Machine
end

section
/-! SUPPORT. Which operations leave the steps that the windows hold as they are, or forget some. -/
namespace Sys2Proof.Machine

variable {s t u v : State}

/-! ### The steps that windows hold are only forgotten

Once `closeStep` has closed a step, nothing that the commit still does gives a window a step or begins one: records complete, notices are
formed, and an abort forgets steps. -/

/-- Every window of `t` holds steps that it held in `s`, and the step in progress is the same or none. -/
structure StepsFrom (s t : State) : Prop where
  steps : ∀ w, (t.win w).steps ⊆ (s.win w).steps
  now : t.cmd.stepNow = s.cmd.stepNow ∨ t.cmd.stepNow = none

namespace StepsFrom

theorem refl (s : State) : StepsFrom s s := ⟨fun _ => List.Subset.refl _, .inl rfl⟩

theorem trans (h₁ : StepsFrom s u) (h₂ : StepsFrom u t) : StepsFrom s t :=
  ⟨fun w => List.Subset.trans (h₂.steps w) (h₁.steps w), h₂.now.elim (fun e => h₁.now.imp e.trans e.trans) .inr⟩

/-- `trans` with the later change first: it settles which state stands between. -/
theorem trans' (h₂ : StepsFrom u t) (h₁ : StepsFrom s u) : StepsFrom s t := h₁.trans h₂

theorem ofCmd (h : t.cmd = s.cmd) : StepsFrom s t := ⟨fun w => by rw [State.win_congr h w]; exact List.Subset.refl _, .inl (by rw [h])⟩

/-- A change outside the command processor before what leads on. -/
theorem after (h : StepsFrom t u) (e : t.cmd = s.cmd) : StepsFrom s u := (ofCmd e).trans h

theorem ite {c : Prop} [Decidable c] (ht : StepsFrom s t) (hu : StepsFrom s u) : StepsFrom s (if c then t else u) := by
  split <;> assumption

theorem foldl {α : Type} {f : State → α → State} (hf : ∀ v a, StepsFrom v (f v a)) (l : List α) (u : State) : StepsFrom u (l.foldl f u) := by
  induction l generalizing u with
  | nil => exact refl u
  | cons a l ih => exact (hf u a).trans (ih _)

theorem updWin {w : Nat} {f : Window → Window} (hf : ∀ x, (f x).steps ⊆ x.steps) : StepsFrom u (u.updWin w f) := by
  refine ⟨fun w' => ?_, .inl rfl⟩
  by_cases h : w' = w
  · subst h
    rw [State.win_updWin]
    exact hf _
  · rw [State.win_updWin_ne h]
    exact List.Subset.refl _

end StepsFrom

/-- Every part but the windows and their slots. -/
def offCommand : Scope :=
  ⟨[.now, .standby, .staged, .prep, .scratch, .castMem, .tile, .spans, .touches, .upd, .link, .coll, .mem, .tier, .zones, .store, .power,
    .clock, .cross, .slots, .fw, .start, .mirror, .free], fun _ => True⟩

/-- What changes no window leaves the command processor as it is. -/
theorem Within.cmd_eq (h : Within offCommand s t) : t.cmd = s.cmd := by
  have hb : t.cmd.bar0 = s.cmd.bar0 := (h.same .bar0).resolve_left (by decide)
  have hc : ({ t.cmd with bar0 := [] } : CmdState) = { s.cmd with bar0 := [] } := (h.same .cmd).resolve_left (by decide)
  simp only [CmdState.mk.injEq, true_and] at hc
  obtain ⟨h1, h2, h3, h4, h5, h6⟩ := hc
  calc t.cmd = ⟨t.cmd.wins, t.cmd.bar0, t.cmd.stepNow, t.cmd.hold, t.cmd.msix, t.cmd.pba, t.cmd.aer⟩ := rfl
    _ = s.cmd := by rw [h1, hb, h2, h3, h4, h5, h6]

/-- An operation whose `Within` law names neither the windows nor the slots leaves the steps alone. Any object may change: the law's
conditions on keys find `True` among the hypotheses. -/
theorem StepsFrom.quiet (h : True → (Nat → True) → Within offCommand u v) : StepsFrom u v := .ofCmd (h trivial fun _ => trivial).cmd_eq

/-! ### Records, notices and the step abort -/

theorem State.raise_steps {code : Nat} {ps : List Bytes} (h : StepsFrom s u) : StepsFrom s (u.raise code ps) :=
  h.trans (.ofCmd (State.raise_cmd u code ps))

theorem State.formRing_steps {w ty status reason value cseq : Nat} : StepsFrom u (u.formRing w ty status reason value cseq) :=
  .updWin fun x => by split <;> exact List.Subset.refl _

theorem State.formReserved_steps {w ty status reason value : Nat} {cseq : Option Nat} :
    StepsFrom u (u.formReserved w ty status reason value cseq) := by
  unfold State.formReserved
  exact .ite (State.raise_steps (.updWin fun _ => List.Subset.refl _)) State.formRing_steps

theorem State.updEntry_steps {w q : Nat} {f : QEntry → QEntry} : StepsFrom u (u.updEntry w q f) := .updWin fun _ => List.Subset.refl _

theorem State.unitDone_steps {w q status reason : Nat} : StepsFrom u (u.unitDone w q status reason) := State.updEntry_steps

theorem State.complete_steps {w : Nat} {e : QEntry} : StepsFrom u (u.complete w e) := by
  unfold State.complete
  exact .ite State.formRing_steps (.ite (.refl u) State.formRing_steps)

theorem State.retire_steps {w : Nat} {e : QEntry} : StepsFrom u (u.retire w e) := by
  unfold State.retire
  exact State.complete_steps.trans (.updWin fun _ => List.Subset.refl _)

theorem State.discardWin_steps {n w : Nat} : StepsFrom u (u.discardWin n w) := .foldl (fun _ _ => State.retire_steps) _ _

theorem State.clearSlots_steps {w : Nat} : StepsFrom u (u.clearSlots w) := by
  unfold State.clearSlots
  extract_lets _ s1
  have h1 : StepsFrom u s1 := ⟨fun _ => List.Subset.refl _, .inl rfl⟩
  exact h1.trans (.updWin fun _ => List.Subset.refl _)

theorem State.abortWin_steps {n cause w : Nat} : StepsFrom u (u.abortWin n cause w) := by
  unfold State.abortWin
  extract_lets s1 had s2 s3
  have h1 : StepsFrom u s1 := State.clearSlots_steps
  have h2 : StepsFrom s1 s2 := .updWin fun _ => List.filter_sublist.subset
  have h3 : StepsFrom s2 s3 := .ite State.formReserved_steps (.refl s2)
  refine ((h1.trans h2).trans h3).trans (.ite (.refl s3) ?_)
  exact State.formReserved_steps.trans' (.updWin fun _ => List.Subset.refl _)

theorem State.abortStep_steps {cause : Nat} : StepsFrom u (u.abortStep cause) := by
  unfold State.abortStep
  extract_lets n s1 s2 s3
  have h1 : StepsFrom u s1 := .foldl (fun _ _ => State.discardWin_steps) _ _
  have h2 : StepsFrom s1 s2 := .quiet fun _ _ => State.clearUnits_within (by decide) (by decide) (by decide) (by decide) (by decide) (by decide)
    (State.clearTiles_within (by decide) (by decide) (.refl _ s1))
  have h3 : StepsFrom s2 s3 := .foldl (fun _ _ => State.abortWin_steps) _ _
  clear_value s3
  have h4 : StepsFrom s3 { s3 with cmd := { s3.cmd with stepNow := none } } := ⟨fun _ => List.Subset.refl _, .inr rfl⟩
  exact ((h1.trans h2).trans h3).trans h4

/-! ### Collective records -/

theorem State.sendJob_steps {key : Nat} {j : Job} {rank mtype index count : Nat} {body : Bytes} :
    StepsFrom u (u.sendJob key j rank mtype index count body) :=
  .quiet fun _ _ => State.sendJob_within (by decide) (by decide) (by decide) (.refl _ u)

/-- A message of a job goes to several ranks. -/
theorem State.sendJobs_steps {key : Nat} {j : Job} {mtype index count : Nat} {body : Bytes} {rs : List Nat} :
    StepsFrom u (rs.foldl (fun s r => s.sendJob key j r mtype index count body) u) :=
  .foldl (fun _ _ => State.sendJob_steps) _ _

theorem State.tally_steps {m : Option Nat} {kind layer dir : Nat} {cs : List Cls} :
    StepsFrom u (u.inStep m fun s => s.tally kind layer dir cs []) :=
  .quiet fun _ _ => State.inStep_within (by decide) (fun _ h => State.tally_within (by decide) h) (.refl _ u)

theorem State.writable_steps {key : Nat} {ps : List (Nat × Nat)} {b : Bool} (h : u.writable key ps = (v, b)) : StepsFrom u v :=
  .quiet fun _ _ => Within.pair (State.writable_within (by decide) (.refl _ u)) h

theorem State.regionWrite_steps {h b : Nat} {bs : Bytes} : StepsFrom u (u.regionWrite h b bs) :=
  .quiet fun _ _ => State.regionWrite_within (by decide) (by decide) (.refl _ u)

theorem State.putJob_steps {key : Nat} {j : Job} : StepsFrom u (u.putJob key j) := .ofCmd rfl

theorem State.count_steps {k n : Nat} : StepsFrom u (u.count k n) := .ofCmd rfl

/-- A record that is done leaves the engine. -/
theorem State.dropDone_steps {key w q status reason : Nat} : StepsFrom u ((u.dropJob key).unitDone w q status reason) :=
  State.unitDone_steps.after rfl

theorem State.putBytes_steps {t : Nat} {cast : Bool} {l : List (Nat × Nat)} : StepsFrom u (u.putBytes t cast l) :=
  .quiet fun _ _ => State.putBytes_within (by decide) (by decide) (.refl _ u)

theorem State.reduceDone_steps {key : Nat} : StepsFrom u (u.reduceDone key) := by
  unfold State.reduceDone
  split
  · exact .refl u
  · exact .ite State.unitDone_steps (.refl u)

theorem State.landChunk_steps {key c : Nat} : StepsFrom u (u.landChunk key c) := by
  unfold State.landChunk
  split
  · exact .refl u
  · extract_lets d x need bs pages ps
    refine .ite (.refl u) ?_
    split
    · next hw => exact State.writable_steps hw
    · next hw =>
      exact (State.writable_steps hw).trans ((StepsFrom.foldl (fun _ _ => State.regionWrite_steps) _ _).trans
        (State.putJob_steps.trans State.reduceDone_steps))

theorem State.takeResult_steps {key c part : Nat} {bs : Bytes} : StepsFrom u (u.takeResult key c part bs) := by
  unfold State.takeResult
  split
  · exact .refl u
  · exact .ite State.count_steps (State.putJob_steps.trans State.landChunk_steps)

theorem State.readout_steps {key c : Nat} : StepsFrom u (u.readout key c) := by
  unfold State.readout
  split
  · exact .refl u
  · extract_lets d x sw val rows s1 map code lo hi s2 bs s3
    have h1 : StepsFrom u s1 := State.tally_steps
    have h2 : StepsFrom s1 s2 := .ite (.refl s1) (.foldl (fun _ _ => State.sendJob_steps.trans State.sendJob_steps) _ _)
    have h3 : StepsFrom s1 s3 := .ite (.refl s1) State.sendJobs_steps
    exact .ite ((h1.trans h2).trans (State.takeResult_steps.trans State.takeResult_steps)) ((h1.trans h3).trans State.takeResult_steps)

theorem State.takeData_steps {key c rank : Nat} {bs : Bytes} : StepsFrom u (u.takeData key c rank bs) := by
  unfold State.takeData
  split
  · exact .refl u
  · extract_lets x n vs old x' s1
    exact .ite State.count_steps (State.putJob_steps.trans (.ite State.readout_steps (.refl s1)))

theorem State.wireOne_steps {key c : Nat} {agreed : Bytes} : StepsFrom u (u.wireOne key c agreed) := by
  unfold State.wireOne
  split
  · exact .refl u
  · extract_lets x d cs s1 s2 bs s3
    have h1 : StepsFrom u s1 := .quiet fun _ _ => State.touchSums_within (by decide) (by decide) (.refl _ u)
    have h3 : StepsFrom u s3 := h1.trans (State.tally_steps.trans State.putJob_steps)
    exact .ite (.refl u) (h3.trans (.ite State.takeData_steps State.sendJob_steps))

theorem State.takeAgreed_steps {key first : Nat} {bs : Bytes} : StepsFrom u (u.takeAgreed key first bs) := by
  unfold State.takeAgreed
  split
  · exact .refl u
  · exact .trans (.foldl (fun _ _ => State.wireOne_steps) _ _) (.quiet fun _ _ => State.sweepJob_within (by decide) (.refl _ _))

theorem State.takeExps_steps {key first rank : Nat} {bs : Bytes} : StepsFrom u (u.takeExps key first rank bs) := by
  unfold State.takeExps
  split
  · exact .refl u
  · extract_lets j s1 out s2
    exact .ite (.refl u) (State.putJob_steps.trans (.ite (State.sendJobs_steps.trans State.takeAgreed_steps) (.refl s1)))

theorem State.gatherDone_steps {key : Nat} : StepsFrom u (u.gatherDone key) := by
  unfold State.gatherDone
  split
  · exact .refl u
  · exact .ite State.dropDone_steps (.refl u)

theorem State.landPiece_steps {key k : Nat} : StepsFrom u (u.landPiece key k) := by
  unfold State.landPiece
  split
  · exact .refl u
  · refine .ite (.refl u) ?_
    split
    · next hw => exact State.writable_steps hw
    · next hw => exact (State.writable_steps hw).trans (State.regionWrite_steps.trans (State.putJob_steps.trans State.gatherDone_steps))

theorem State.takeGather_steps {key rank piece : Nat} {bs : Bytes} : StepsFrom u (u.takeGather key rank piece bs) := by
  unfold State.takeGather
  split
  · exact .refl u
  · exact .ite State.count_steps (State.putJob_steps.trans State.landPiece_steps)

theorem State.landHeld_steps : StepsFrom u u.landHeld :=
  .foldl (fun v _ => .ite (.foldl (fun _ _ => State.landChunk_steps) _ _)
    (.ite (.foldl (fun _ _ => State.landPiece_steps) _ _) (.refl v))) _ _

theorem State.agreeDone_steps {key : Nat} {bs : Bytes} : StepsFrom u (u.agreeDone key bs) := by
  unfold State.agreeDone
  split
  · exact .refl u
  · exact State.putBytes_steps.trans State.dropDone_steps

theorem State.takeAgree_steps {key rank : Nat} {bs : Bytes} : StepsFrom u (u.takeAgree key rank bs) := by
  unfold State.takeAgree
  split
  · exact .refl u
  · extract_lets j s1 out s2
    exact .ite State.count_steps (State.putJob_steps.trans (.ite (State.sendJobs_steps.trans State.agreeDone_steps) (.refl s1)))

theorem State.scalarDone_steps {key : Nat} : StepsFrom u (u.scalarDone key) := by
  unfold State.scalarDone
  split
  · exact .refl u
  · extract_lets d groupCounts s1
    have h1 : StepsFrom u s1 := .ite (.ofCmd rfl) (.refl u)
    exact .ite (.refl u) (h1.trans State.dropDone_steps)

theorem State.scalarResult_steps {key : Nat} {bs : Bytes} : StepsFrom u (u.scalarResult key bs) := by
  unfold State.scalarResult
  split
  · exact .refl u
  · extract_lets d s1 loss s2
    have h2 : StepsFrom u s2 := State.putBytes_steps.trans (.ite (.ofCmd rfl) (.refl s1))
    exact .ite State.count_steps (h2.trans (State.putJob_steps.trans State.scalarDone_steps))

theorem State.takeScalar_steps {key rank : Nat} {bs : Bytes} : StepsFrom u (u.takeScalar key rank bs) := by
  unfold State.takeScalar
  split
  · exact .refl u
  · extract_lets d j s1 cs s2 out s3
    have h1 : StepsFrom u s1 := State.putJob_steps
    exact .ite State.count_steps (h1.trans (.ite (State.tally_steps.trans (State.sendJobs_steps.trans State.scalarResult_steps)) (.refl s1)))

theorem State.takeCountOut_steps {key k : Nat} {bs : Bytes} : StepsFrom u (u.takeCountOut key k bs) := by
  unfold State.takeCountOut
  split
  · exact .refl u
  · exact .ite State.count_steps (State.putJob_steps.trans State.scalarDone_steps)

theorem State.takeCountIn_steps {key k rank : Nat} {bs : Bytes} : StepsFrom u (u.takeCountIn key k rank bs) := by
  unfold State.takeCountIn
  split
  · exact .refl u
  · extract_lets j s1 mine out s2
    exact .ite State.count_steps (State.putJob_steps.trans (.ite (State.sendJobs_steps.trans State.takeCountOut_steps) (.refl s1)))

/-! ### Messages that waited -/

theorem State.onMsg_steps {key rank : Nat} {m : Msg} : StepsFrom u (u.onMsg key rank m) := by
  unfold State.onMsg
  split
  · exact .ite State.takeAgree_steps State.takeExps_steps
  · exact .ite State.agreeDone_steps State.takeAgreed_steps
  · exact State.takeData_steps
  · exact .ite State.takeResult_steps State.takeResult_steps
  · exact State.takeGather_steps
  · exact .ite State.takeScalar_steps State.takeCountIn_steps
  · exact .ite State.scalarResult_steps State.takeCountOut_steps
  · exact .refl u

theorem State.onMode_steps {m : Msg} {f : State → State} (hf : ∀ v, StepsFrom v (f v)) : StepsFrom u (u.onMode m f) := by
  unfold State.onMode
  exact .ite (.trans (.quiet fun _ _ => State.resumeReduces_within (by decide) (Within.setColl (by decide) (.refl _ u))) (hf _))
    (.quiet fun _ _ => State.modeMismatch_within (by decide) (Within.setColl (by decide) (.refl _ u)))

theorem State.collMsg_steps {m : Msg} : StepsFrom u (u.collMsg m) := by
  unfold State.collMsg
  refine .ite (.refl u) (.ite (.ofCmd rfl) (.ite (.refl u) (State.onMode_steps fun v => .ite (.ite State.abortStep_steps (.refl v)) ?_)))
  split
  · exact .ofCmd rfl
  · exact State.onMsg_steps

theorem State.openInbox_steps : StepsFrom u u.openInbox := by
  unfold State.openInbox
  exact .after (.foldl (fun _ _ => State.collMsg_steps) _ _) rfl

theorem State.rollbackVerdict_steps : StepsFrom u u.rollbackVerdict := by
  unfold State.rollbackVerdict
  exact State.raise_steps (State.abortStep_steps.after rfl)

/-! ### Skips and prepares -/

theorem State.skipLayer_steps {a : UpdArm} : StepsFrom u (u.skipLayer a) := by
  unfold State.skipLayer
  extract_lets +onlyGivenNames l j
  refine .ite (State.unitDone_steps.after rfl) ?_
  extract_lets rho s1 _ s2 s3 s4
  have h2 : StepsFrom u s2 := .ofCmd rfl
  have h3 : StepsFrom s2 s3 := State.count_steps.trans' State.unitDone_steps
  have h4 : StepsFrom s3 s4 := .quiet fun _ _ => Within.ite (State.skipImage_within (by decide) (by decide) (.refl _ s3)) (.refl _ s3)
  have h5 : StepsFrom s4 ((s4.formDigest a.step).armLayer l) :=
    .quiet fun _ _ => State.armLayer_within (by decide) (State.formDigest_within (by decide) (by decide) (.refl _ s4))
  exact ((h2.trans h3).trans h4).trans h5

theorem State.settleArms_steps {n : Nat} {g : Tab Counts} {spike : Bool} : StepsFrom u (u.settleArms n g spike) := by
  unfold State.settleArms
  extract_lets cause s1 x s2
  have h1 : StepsFrom u s1 := .ite (.refl u) (State.raise_steps (.refl u))
  exact h1.trans (.after (.foldl (fun _ _ => State.skipLayer_steps) _ s2) rfl)

theorem State.endPrepare_steps {status : Nat} : StepsFrom u (u.endPrepare status) := by
  unfold State.endPrepare
  split
  · exact .refl u
  · extract_lets _ s1 s2
    have h1 : StepsFrom u s1 := .ofCmd rfl
    have h2 : StepsFrom s1 s2 := .ite (.ofCmd rfl) (.refl s1)
    exact (h1.trans h2).trans (State.unitDone_steps.after rfl)

theorem State.takeForce_steps {vs : Tab Nat} : StepsFrom u (u.takeForce vs) :=
  .quiet fun _ _ => State.takeForce_within (by decide) (by decide) (by decide) (by decide) (by decide) (.refl _ u)

theorem State.boundaryPrepare_steps {n : Nat} : StepsFrom u (u.boundaryPrepare n).1 := by
  unfold State.boundaryPrepare
  split
  · exact .refl u
  · split
    · exact .refl u
    · split
      · exact State.raise_steps State.endPrepare_steps
      · extract_lets vs s1
        have h1 : StepsFrom u s1 := State.takeForce_steps.trans State.endPrepare_steps
        exact h1.trans (.ite ⟨fun _ => List.Subset.refl _, .inl rfl⟩ (.refl s1))

theorem State.promoteStaged_steps : StepsFrom u u.promoteStaged.1 := by
  unfold State.promoteStaged
  split
  · extract_lets vs s1
    exact State.takeForce_steps.after rfl
  · exact .refl u

end Sys2Proof.Machine
end

section
/-! SUPPORT. The commit of a step: what `closeStep` brings about stands to its end. -/
namespace Sys2Proof.Machine

variable {s t u v : State}

/-! ### The last committed step stands

Of what the commit does after `closeStep`, only values taking force could write the last committed step, and none is staged for it. -/

/-- Every part, and every object but the last committed step. The choice is written so that it evaluates to `True` at any other key. -/
def offLast : Scope :=
  ⟨.bar0 :: .cmd :: offCommand.parts, fun k => cond (k.beq Obj.lastCommittedStep) False True⟩

theorem mem_offLast (p : Part) : p ∈ offLast.parts := by cases p <;> decide

theorem offLast_keys {k : Nat} (h : k ≠ Obj.lastCommittedStep) : offLast.keys k := by
  have hk : k.beq Obj.lastCommittedStep = false := Bool.eq_false_iff.2 fun e => h (Nat.eq_of_beq_eq_true e)
  simp only [offLast, hk, cond_false]

theorem Within.last_eq (h : Within offLast s t) : t.rd Obj.lastCommittedStep = s.rd Obj.lastCommittedStep :=
  ((h.objs _).resolve_left id).resolve_left (by decide)

/-- `t` comes of `s` with the last committed step as it was and the steps of the windows only forgotten. -/
structure Stands (s t : State) : Prop where
  last : t.rd Obj.lastCommittedStep = s.rd Obj.lastCommittedStep
  steps : StepsFrom s t

theorem Stands.refl (s : State) : Stands s s := ⟨rfl, .refl s⟩

theorem Stands.trans (h₁ : Stands s u) (h₂ : Stands u t) : Stands s t := ⟨h₂.last.trans h₁.last, h₁.steps.trans h₂.steps⟩

/-- A `Within` law that does not name the last committed step leaves it; the conditions on keys find `True`, and the laws of the keys with a
number, among the hypotheses. -/
theorem Stands.of (hs : StepsFrom u v) (h : True → (∀ n, offLast.keys (Obj.flitsTx n)) → (∀ n, offLast.keys (Obj.decState n)) →
    (∀ n, offLast.keys (Obj.fbQuiet n)) → (∀ n, offLast.keys (Obj.fbState n)) → Within offLast u v) : Stands u v :=
  ⟨(h trivial (fun _ => offLast_keys (by simp only [Obj.flitsTx, Obj.lastCommittedStep]; omega))
    (fun _ => offLast_keys (by simp only [Obj.decState, Obj.lastCommittedStep]; omega))
    (fun _ => offLast_keys (by simp only [Obj.fbQuiet, Obj.lastCommittedStep]; omega))
    (fun _ => offLast_keys (by simp only [Obj.fbState, Obj.lastCommittedStep]; omega))).last_eq, hs⟩

theorem State.takeForce_stands {vs : Tab Nat} (hv : ∀ x ∈ vs, x.1 ≠ Obj.lastCommittedStep) : Stands u (u.takeForce vs) := by
  refine .of State.takeForce_steps fun _ _ _ _ _ => ?_
  unfold State.takeForce
  extract_lets was s1
  have h1 : Within offLast u s1 := List.foldlRecOn vs _ (Within.refl _ u) fun _ h x hx =>
    Within.setStaged (mem_offLast _) (State.wr_within h _ _ (offLast_keys (hv x hx)))
  exact .ite h1 (State.startJoin_within (mem_offLast _) (mem_offLast _) (mem_offLast _) (mem_offLast _) h1)

theorem State.endPrepare_stands {status : Nat} : Stands u (u.endPrepare status) :=
  .of State.endPrepare_steps fun _ _ _ _ _ => State.endPrepare_within (mem_offLast _) (mem_offLast _) (mem_offLast _) (.refl _ u)

@[simp] theorem State.endPrepare_staged {status : Nat} : (u.endPrepare status).staged = u.staged := by
  unfold State.endPrepare
  split
  · rfl
  · extract_lets _ s1 s2
    have h2 : s2.staged = u.staged := by
      unfold s2
      split <;> rfl
    exact h2

theorem State.raise_stands {code : Nat} {ps : List Bytes} (h : evOk code = true) : Stands u (u.raise code ps) :=
  .of (.ofCmd (State.raise_cmd _ _ _)) fun _ _ _ _ _ => State.raise_within (.refl _ u) h

/-- A prepare takes force, is cancelled or waits; but for the first, the staged values stay. -/
theorem State.boundaryPrepare_stands {n : Nat} (hp : ∀ x ∈ u.prep, x.1 ≠ Obj.lastCommittedStep) :
    Stands u (u.boundaryPrepare n).1 ∧ ((u.boundaryPrepare n).2 = false → (u.boundaryPrepare n).1.staged = u.staged) := by
  unfold State.boundaryPrepare
  split
  · exact ⟨.refl u, fun _ => rfl⟩
  · split
    · exact ⟨.refl u, fun _ => rfl⟩
    · split
      · exact ⟨State.endPrepare_stands.trans (State.raise_stands (by decide)), fun _ => by simp⟩
      · extract_lets vs s1
        have h1 : Stands u s1 := (State.takeForce_stands hp).trans State.endPrepare_stands
        refine ⟨h1.trans ?_, fun h => by simp at h⟩
        dsimp only
        split
        · exact ⟨State.rd_wr_ne (s := s1) (k := Obj.actMode) (v := 1) (by decide), fun _ => List.Subset.refl _, .inl rfl⟩
        · exact .refl _

theorem State.promoteStaged_stands (hv : ∀ x ∈ u.staged, x.1 ≠ Obj.lastCommittedStep) : Stands u u.promoteStaged.1 := by
  unfold State.promoteStaged
  split
  · extract_lets vs _ s1
    have h1 : Stands u s1 := ⟨rfl, .ofCmd rfl⟩
    exact h1.trans (State.takeForce_stands hv)
  · exact .refl u

/-- Maps take effect, the units start the next step, and joiners get their transfers. -/
theorem State.freshStart_stands {n : Nat} : Stands u (u.applyMaps n).freshStep.joinTransfers :=
  .of (.quiet fun _ _ => State.joinTransfers_within (by decide) (by decide) (by decide)
      (State.freshStep_within (by decide) (by decide) (by decide) (State.applyMaps_within (by decide) (.refl _ u))))
    fun _ _ _ _ _ => State.joinTransfers_within (mem_offLast _) (mem_offLast _) (mem_offLast _)
      (State.freshStep_within (mem_offLast _) (mem_offLast _) (mem_offLast _) (State.applyMaps_within (mem_offLast _) (.refl _ u)))

theorem State.rollbackVerdict_stands : Stands u u.rollbackVerdict :=
  .of State.rollbackVerdict_steps fun _ _ _ _ _ => State.rollbackVerdict_within (mem_offLast _) (mem_offLast _) (mem_offLast _) (mem_offLast _)
    (mem_offLast _) (mem_offLast _) (mem_offLast _) (mem_offLast _) (mem_offLast _) (mem_offLast _) (.refl _ u)

theorem State.openInbox_stands : Stands u u.openInbox :=
  .of State.openInbox_steps fun _ _ _ _ _ => State.openInbox_within (mem_offLast _) (mem_offLast _) (mem_offLast _) (mem_offLast _)
    (mem_offLast _) (mem_offLast _) (mem_offLast _) (mem_offLast _) (mem_offLast _) (mem_offLast _) (mem_offLast _) (mem_offLast _)
    (mem_offLast _) (mem_offLast _) (mem_offLast _) (.refl _ u)

theorem State.boundary_stands {n : Nat} {formChange : Bool} (hv : ∀ x ∈ u.staged ++ u.prep, x.1 ≠ Obj.lastCommittedStep) :
    Stands u (u.boundary n formChange) := by
  rw [List.forall_mem_append] at hv
  obtain ⟨hstaged, hprep⟩ := hv
  obtain ⟨h1, hkeep⟩ := State.boundaryPrepare_stands (n := n) hprep
  unfold State.boundary
  split
  next s1 a e1 =>
  rw [e1] at h1 hkeep
  split
  next s2 b e2 =>
  have h2 : Stands s1 s2 := by
    cases a with
    | true =>
      obtain ⟨rfl, -⟩ := Prod.mk.inj e2
      exact .refl _
    | false =>
      have h := State.promoteStaged_stands (u := s1) (by rw [hkeep rfl]; exact hstaged)
      have e : s1.promoteStaged = (s2, b) := e2
      rwa [e] at h
  extract_lets s3 s4 s5
  have h3 : Stands s2 s3 := by
    unfold s3
    split
    · exact ⟨State.rd_wr_ne (by decide), .ofCmd rfl⟩
    · exact .refl s2
  have h5 : Stands u s5 := ((h1.trans h2).trans h3).trans State.freshStart_stands
  clear_value s5
  split
  · have h6 : Stands s5 { s5 with coll := { s5.coll with lateTwin := none } } := ⟨rfl, .ofCmd rfl⟩
    exact (h5.trans h6).trans State.rollbackVerdict_stands
  · exact h5.trans State.openInbox_stands

theorem State.applyForms_stands {n : Nat} {f : Forms} : Stands u (u.applyForms n f) :=
  .of (.quiet fun _ _ => State.applyForms_within (.refl _ u)) fun _ _ _ _ _ => State.applyForms_within (.refl _ u)

theorem State.settleArms_stands {n : Nat} {g : Tab Counts} {spike : Bool} : Stands u (u.settleArms n g spike) :=
  .of State.settleArms_steps fun _ _ _ _ _ =>
    State.settleArms_within (mem_offLast _) (mem_offLast _) (mem_offLast _) (mem_offLast _) (.refl _ u)

/-- What follows the boundary: a trial is confirmed, chunks that waited land, a digest formed goes out. -/
theorem State.commitEnd_stands : Stands u u.confirmAtCommit.landHeld.compareStart := by
  have h1 : Stands u u.confirmAtCommit := .of (.quiet fun _ _ => State.confirmAtCommit_within (by decide) (by decide) (by decide) (.refl _ u))
    fun _ _ _ _ _ => State.confirmAtCommit_within (mem_offLast _) (mem_offLast _) (mem_offLast _) (.refl _ u)
  have h2 : ∀ v : State, Stands v v.landHeld := fun v => .of State.landHeld_steps fun _ _ _ _ _ =>
    State.landHeld_within (mem_offLast _) (mem_offLast _) (mem_offLast _) (mem_offLast _) (.refl _ v)
  have h3 : ∀ v : State, Stands v v.compareStart := fun v =>
    .of (.quiet fun _ _ => State.compareStart_within (by decide) (by decide) (by decide) (.refl _ v))
      fun _ _ _ _ _ => State.compareStart_within (mem_offLast _) (mem_offLast _) (mem_offLast _) (.refl _ v)
  exact (h1.trans (h2 _)).trans (h3 _)

/-! ### The values staged stay until the boundary -/

/-- Every part but the staged and the prepared values. -/
def offSettings : Scope :=
  ⟨[.now, .standby, .bar0, .cmd, .scratch, .castMem, .tile, .spans, .touches, .upd, .link, .coll, .mem, .tier, .zones, .store, .power, .clock,
    .cross, .slots, .fw, .start, .mirror, .free], fun _ => True⟩

theorem Within.settings_eq (h : Within offSettings s t) : t.staged ++ t.prep = s.staged ++ s.prep := by
  rw [show t.staged = s.staged from (h.same .staged).resolve_left (by decide), show t.prep = s.prep from (h.same .prep).resolve_left (by decide)]

/-! ### Closing a step (R192) -/

/-- A fold over windows that lets each forget steps, and its own up to `n`, leaves each of them with later steps only. -/
theorem foldl_steps_after {n : Nat} {f : State → Nat → State} (hf : ∀ v w, StepsFrom v (f v w))
    (hn : ∀ v w, ∀ m ∈ ((f v w).win w).steps, n < m) (l : List Nat) (u : State) :
    ∀ w ∈ l, ∀ m ∈ ((l.foldl f u).win w).steps, n < m := by
  induction l generalizing u with
  | nil => simp
  | cons a l ih =>
    intro w hw m hm
    rcases List.mem_cons.1 hw with rfl | hw
    · exact hn u w m ((StepsFrom.foldl hf l (f u w)).steps w hm)
    · exact ih (f u a) w hw m hm

/-- The window that `closeStep` looks at forgets the steps up to the one that commits. -/
theorem State.closeWin_steps {n w : Nat} {had : Bool} :
    let v := u.updWin w fun x => { x with steps := x.steps.filter fun m => decide (n < m) }
    let t := if had then v.formNotice w 3 0 0 n else v
    StepsFrom u t ∧ ∀ m ∈ (t.win w).steps, n < m := by
  intro v t
  have hv : StepsFrom u v := .updWin fun _ => List.filter_subset_self _
  have ht : StepsFrom v t := .ite State.formReserved_steps (.refl v)
  refine ⟨hv.trans ht, fun m hm => ?_⟩
  have hm' := ht.steps w hm
  rw [State.win_updWin] at hm'
  simpa using (List.mem_filter.1 hm').2

/-- The step commits: it is the last committed one, the windows hold later steps only, and another step is in progress or none. -/
theorem State.closeStep_closes (u : State) (n : Nat) :
    (u.closeStep n).rd Obj.lastCommittedStep = n ∧ (∀ w ∈ List.range 8, ∀ m ∈ ((u.closeStep n).win w).steps, n < m) ∧
    (u.closeStep n).cmd.stepNow ≠ some n := by
  unfold State.closeStep
  extract_lets s1 s2 next
  have hlast : s2.rd Obj.lastCommittedStep = n := by
    have h : Within ⟨[.cmd], fun _ => False⟩ s1 s2 := .foldl (fun _ _ h => .ite
      (State.formNotice_within (by decide) (State.updWin_within (by decide) h _ _ fun _ h => h))
      (State.updWin_within (by decide) h _ _ fun _ h => h)) (.refl _ s1)
    rw [((h.objs _).resolve_left id).resolve_left (by decide)]
    exact State.rd_wr_self u _ n
  have hsteps : ∀ w ∈ List.range 8, ∀ m ∈ (s2.win w).steps, n < m :=
    foldl_steps_after (fun _ _ => State.closeWin_steps.1) (fun _ _ => State.closeWin_steps.2) _ s1
  clear_value s2
  have hnext : ∀ x, next = some x → n < x := by
    refine List.foldlRecOn (motive := fun b : Option Nat => ∀ x, b = some x → n < x) _ _ (by simp) fun b hb m hm x hx => ?_
    obtain ⟨w, hw, hmw⟩ := List.mem_flatMap.1 hm
    have hnm := hsteps w hw m hmw
    cases b with
    | none => exact Option.some.inj hx ▸ hnm
    | some y => exact Option.some.inj hx ▸ lt_min (hb y rfl) hnm
  exact ⟨hlast, hsteps, fun h => absurd (hnext n h) (Nat.lt_irrefl n)⟩

/-- A commit is a step closed, and what stands after that. -/
theorem State.commit_stands {n : Nat} (hv : ∀ x ∈ s.staged ++ s.prep, x.1 ≠ Obj.lastCommittedStep) :
    ∃ u : State, Stands (u.closeStep n) (s.commit n) := by
  unfold State.commit
  extract_lets g s1 f
  split
  next s2 spike e =>
  extract_lets s3 change s4
  have h2 : Within offSettings s s2 := Within.pair (State.spikeTest_within (State.takePlan_within (by decide) (by decide)
    (State.publishCounts_within (.refl _ s) (fun _ => trivial) trivial (fun _ => trivial) (fun _ => trivial) (fun _ => trivial)
      fun _ => trivial) trivial) trivial trivial trivial trivial) e
  have h3 : Within offSettings s s3 := State.wr_within (State.leftover_within (by decide) (by decide) (by decide) h2 trivial) _ _ trivial
  have h5 : Within offSettings s (((s3.closeStep n).applyForms n f).settleArms n g spike) :=
    State.settleArms_within (by decide) (by decide) (by decide) (by decide)
      (State.applyForms_within (State.closeStep_within (by decide) h3 trivial) trivial trivial trivial trivial trivial (fun _ => trivial)
        fun _ => trivial) trivial trivial trivial
  rw [← h5.settings_eq] at hv
  exact ⟨s3, ((State.applyForms_stands.trans State.settleArms_stands).trans (State.boundary_stands hv)).trans State.commitEnd_stands⟩

theorem exec_stepCommit : exec .stepCommit s = .next s.stepCommit := rfl

theorem State.stepCommit_ready {n : Nat} (hn : s.cmd.stepNow = some n) (hr : s.commitReady n = true) : s.stepCommit = s.commit n := by
  simp only [State.stepCommit, hn, hr, if_true]

theorem State.stepCommit_heldBack {n : Nat} (hn : s.cmd.stepNow = some n) (hr : s.commitReady n = false) : s.stepCommit = s.noteHeld := by
  simp only [State.stepCommit, hn, hr, Bool.false_eq_true, if_false]

theorem State.stepCommit_noStep (hn : s.cmd.stepNow = none) : s.stepCommit = s := by
  simp only [State.stepCommit, hn]

/-- Settles O17: what `closeStep` brings about stands to the end of the commit. -/
theorem stepsCommit : Obligations.StepsCommit := by
  unfold Obligations.StepsCommit
  refine ⟨fun s n hnow hready hv => ⟨_, exec_stepCommit, ?_⟩, fun s n hnow hready => ⟨_, exec_stepCommit, ?_⟩,
    fun s hnow => ⟨_, exec_stepCommit, State.stepCommit_noStep hnow⟩⟩
  · rw [State.stepCommit_ready hnow hready]
    obtain ⟨u, hlast, hsteps⟩ := State.commit_stands (n := n) hv
    obtain ⟨hl, hw, hn⟩ := State.closeStep_closes u n
    refine ⟨hlast.trans hl, fun w m hm => hw w (List.mem_range.2 w.isLt) m (hsteps.steps w hm), ?_⟩
    rcases hsteps.now with h | h
    · rwa [h]
    · simp [h]
  · rw [State.stepCommit_heldBack hnow hready]
    exact ⟨rfl, rfl, rfl⟩

end Sys2Proof.Machine
end

section
/-! SUPPORT. Drains and the checkpoints they end in. -/
namespace Sys2Proof.Machine

variable {s : State}

/-! ### Drains (R278 to R280) -/

/-- A catalogue entry has a number from 1 to 16. -/
theorem ckptEntry_range {f : Nat → Bool} {k : Nat} (h : ckptEntry f = some k) : 1 ≤ k ∧ k ≤ 16 := by
  obtain ⟨i, hi, rfl⟩ := List.mem_map.1 (List.mem_of_find?_eq_some h)
  have := List.mem_range.1 hi
  omega

/-- The number of the next page a drain moves, as its job keeps it. -/
def State.atPage (s : State) (key : Nat) (j : MoveJob) (i : Nat) : State :=
  { s with tier := { s.tier with moveLeft := s.tier.moveLeft.insert key { j with next := i } } }

/-- A drain that begins keeps its image and its place, and changes nothing else of the tiers and the store. -/
theorem State.beginDrain_fields (s : State) (key h : Nat) :
    (s.beginDrain key h).store = { s.store with drains := s.store.drains.insert key h } ∧
    (s.beginDrain key h).tier = { s.tier with moveLeft := s.tier.moveLeft.insert key { next := 0, status := 0 } } ∧
    (s.beginDrain key h).cmd = s.cmd := by
  unfold State.beginDrain
  extract_lets _ _ s1
  split <;> exact ⟨rfl, rfl, rfl⟩

/-- Its catalogue entry reads draining under the handle of the image. -/
theorem State.beginDrain_entry {key h k : Nat} (hk : ckptEntry (fun k => s.rd (Obj.ckptState k) == 0) = some k) :
    (s.beginDrain key h).rd (Obj.ckptState k) = 1 ∧ (s.beginDrain key h).rd (Obj.ckptHandle k) = h := by
  obtain ⟨-, hk16⟩ := ckptEntry_range hk
  unfold State.beginDrain
  extract_lets _ _ s1
  have hk1 : ckptEntry (fun k => s1.rd (Obj.ckptState k) == 0) = some k := hk
  rw [hk1]
  refine ⟨?_, State.rd_wr_self _ _ _⟩
  rw [State.rd_wr_ne (by simp only [Obj.ckptState, Obj.ckptHandle]; omega), State.rd_wr_self]

/-- A beginning drain counts no event. -/
theorem State.beginDrain_rd_occurrences {key h n k : Nat} :
    (s.beginDrain key h).rd (Obj.occurrences n k) = s.rd (Obj.occurrences n k) := by
  unfold State.beginDrain
  extract_lets _ _ s1
  split
  · next i hi =>
    obtain ⟨-, h16⟩ := ckptEntry_range hi
    rw [State.rd_wr_ne (by simp only [Obj.occurrences, Obj.ckptHandle]; omega),
      State.rd_wr_ne (by simp only [Obj.occurrences, Obj.ckptState]; omega)]
    rfl
  · rfl

/-- What a drain that fails leaves: its landed pages noted, the fault counted, its record done, every region as it was (R280). -/
theorem State.drainFails_ends {w q status : Nat} {e : QEntry} (he : s.entry w q = some e) :
    (inOf e.raw).imgH ∈ (s.drainFails w e status).store.partDrains ∧
    (s.drainFails w e status).rd (Obj.occurrences (Ev.ckptFault / 256 - 1) (Ev.ckptFault % 256)) =
      (s.rd (Obj.occurrences (Ev.ckptFault / 256 - 1) (Ev.ckptFault % 256)) + 1) % 2 ^ 32 ∧
    ((s.drainFails w e status).entry w q).map QEntry.unit = some true ∧
    (s.drainFails w e status).tier.mem = s.tier.mem ∧ (s.drainFails w e status).tier.regions = s.tier.regions := by
  obtain rfl := State.entry_seq he
  unfold State.drainFails
  extract_lets h key _ _ s1 s2
  have h2 : s2.store = s1.store ∧ s2.tier = s1.tier ∧ s2.cmd = s1.cmd ∧
      s2.rd (Obj.occurrences (Ev.ckptFault / 256 - 1) (Ev.ckptFault % 256)) =
        s1.rd (Obj.occurrences (Ev.ckptFault / 256 - 1) (Ev.ckptFault % 256)) := by
    unfold s2
    split
    · next k hk =>
      obtain ⟨-, hk16⟩ := ckptEntry_range hk
      split
      · refine ⟨rfl, rfl, rfl, ?_⟩
        rw [State.rd_wr_ne (by simp only [Obj.occurrences, Obj.ckptHandle]; omega),
          State.rd_wr_ne (by simp only [Obj.occurrences, Obj.ckptState]; omega)]
      · exact ⟨rfl, rfl, rfl, rfl⟩
    · exact ⟨rfl, rfl, rfl, rfl⟩
  obtain ⟨hstore, htier, hcmd, hrd⟩ := h2
  refine ⟨?_, ?_, State.entry_unitDone (e := e) ?_, ?_, ?_⟩
  · rw [State.unitDone_store, State.raise_store, hstore]
    exact mem_setIns_self _ _
  · rw [State.rd_congr (State.unitDone_obj _ _ _ _ _), State.rd_raise_occurrences (by decide) (by decide), hrd]
    rfl
  · rw [State.entry_congr ((State.raise_cmd _ _ _).trans hcmd)]
    exact he
  · rw [State.unitDone_tier, State.raise_tier, htier]
  · rw [State.unitDone_tier, State.raise_tier, htier]

/-- A drain that begins goes on as one under way. -/
theorem State.drainImage_begin {w : Nat} {e : QEntry} (hd : s.store.drains.find (recKey w e.seq) = none) :
    s.drainImage w e = (s.beginDrain (recKey w e.seq) (inOf e.raw).imgH).drainImage w e := by
  obtain ⟨hstore, -, -⟩ := s.beginDrain_fields (recKey w e.seq) (inOf e.raw).imgH
  unfold State.drainImage
  simp only [hd, hstore, Tab.find_insert_self, Option.isSome_none, Option.isSome_some, Bool.false_eq_true, if_false, if_true]

section
variable {w i : Nat} {e : QEntry} {r : Region} {j : MoveJob}

/-- What a drain under way does next, by its job, its image and the image's next page that is not in the store. -/
theorem State.drainImage_step (hd : (s.store.drains.find (recKey w e.seq)).isSome = true)
    (hj : s.tier.moveLeft.find (recKey w e.seq) = some j) :
    s.drainImage w e =
      match s.region (inOf e.raw).imgH with
      | none => s.drainFails w e 0
      | some r =>
        if j.status ≠ 0 then s.drainFails w e j.status
        else
          match r.nextMove 2 0 r.size j.next with
          | none => s
          | some i =>
            if (r.page i).move.isSome then s.atPage (recKey w e.seq) j i
            else
              match s.placeIn 2 with
              | some d => (s.atPage (recKey w e.seq) j i).startMove (inOf e.raw).imgH i d (.record (recKey w e.seq))
              | none => (s.atPage (recKey w e.seq) j i).drainFails w e 0x22 := by
  unfold State.drainImage
  simp only [hd, hj, if_true, Option.getD_some]
  rfl

section
variable (hd : (s.store.drains.find (recKey w e.seq)).isSome = true) (hj : s.tier.moveLeft.find (recKey w e.seq) = some j)
include hd hj

/-- With room in the store the next page's move starts. -/
theorem State.drainImage_moves {d : Home} (hs : j.status = 0) (hr : s.region (inOf e.raw).imgH = some r)
    (hi : r.nextMove 2 0 r.size j.next = some i) (hm : (r.page i).move = none) (hp : s.placeIn 2 = some d) :
    s.drainImage w e = (s.atPage (recKey w e.seq) j i).startMove (inOf e.raw).imgH i d (.record (recKey w e.seq)) := by
  rw [State.drainImage_step hd hj]
  simp [hs, hr, hi, hm, hp]

/-- Without room it ends. -/
theorem State.drainImage_full (hs : j.status = 0) (hr : s.region (inOf e.raw).imgH = some r)
    (hi : r.nextMove 2 0 r.size j.next = some i) (hm : (r.page i).move = none) (hp : s.placeIn 2 = none) :
    s.drainImage w e = (s.atPage (recKey w e.seq) j i).drainFails w e 0x22 := by
  rw [State.drainImage_step hd hj]
  simp [hs, hr, hi, hm, hp]

/-- A page that is moving is waited for. -/
theorem State.drainImage_waits (hs : j.status = 0) (hr : s.region (inOf e.raw).imgH = some r)
    (hi : r.nextMove 2 0 r.size j.next = some i) (hm : (r.page i).move.isSome = true) :
    s.drainImage w e = s.atPage (recKey w e.seq) j i := by
  rw [State.drainImage_step hd hj]
  simp [hs, hr, hi, hm]

/-- With every page in the store nothing is left to move. -/
theorem State.drainImage_rests (hs : j.status = 0) (hr : s.region (inOf e.raw).imgH = some r)
    (hi : r.nextMove 2 0 r.size j.next = none) : s.drainImage w e = s := by
  rw [State.drainImage_step hd hj]
  simp [hs, hr, hi]

/-- Without its image, or with a page that could not be moved, it ends. -/
theorem State.drainImage_fails (h : s.region (inOf e.raw).imgH = none ∨ j.status ≠ 0) :
    ∃ status, s.drainImage w e = s.drainFails w e status := by
  rw [State.drainImage_step hd hj]
  cases hr : s.region (inOf e.raw).imgH with
  | none => exact ⟨0, rfl⟩
  | some r => exact ⟨j.status, if_pos (h.resolve_left (by simp [hr]))⟩

end

end

/-- The catalogue entry a drain ends in: the image's own, or the lowest empty one. -/
def State.entryFor (s : State) (h k : Nat) : Prop :=
  s.entryOf h = some k ∨ (s.entryOf h = none ∧ ckptEntry (fun k => s.rd (Obj.ckptState k) == 0) = some k)

/-- The checkpoint of a record's image taken in the catalogue entry `k`. -/
def State.takeCkpt (s : State) (w : Nat) (e : QEntry) (k : Nat) : State :=
  let h := (inOf e.raw).imgH
  let key := recKey w e.seq
  let x := s.imageIn h
  let s := (((s.wr (Obj.ckptHandle k) h).wr (Obj.ckptStep k) x.step).wr (Obj.ckptDigest k) (x.digest.getD 0)).wr (Obj.ckptState k)
    (if x.damaged then 3 else 2)
  let s := { s with
    store := { s.store with taken := s.store.taken.insert k x, drains := s.store.drains.erase key,
                            partDrains := setDel s.store.partDrains h }
    upd := { s.upd with images := s.upd.images.erase h }
    tier := { s.tier with moveLeft := s.tier.moveLeft.erase key } }
  s.unitDone w e.seq 0 0

/-- A drain whose pages are all in the store, of an image that is whole, takes its checkpoint. -/
theorem State.drainComplete_takes {w k : Nat} {e : QEntry} {r : Region} (hd : (s.store.drains.find (recKey w e.seq)).isSome = true)
    (hr : s.region (inOf e.raw).imgH = some r) (hk : s.entryFor (inOf e.raw).imgH k)
    (hn : r.count (fun p => p.home == .t2 && p.move.isNone) = r.size) (hw : (s.imageIn (inOf e.raw).imgH).whole = true) :
    s.drainComplete w e = s.takeCkpt w e k := by
  obtain ⟨h, hh⟩ := Option.isSome_iff_exists.1 hd
  unfold State.drainComplete
  extract_lets img key
  split
  · next r' k' _ hr' hk' =>
    obtain rfl : r = r' := Option.some.inj (hr.symm.trans hr')
    obtain rfl : k = k' := by
      rcases hk with hk | ⟨h0, hk⟩
      · rw [show s.entryOf img = some k from hk] at hk'
        exact Option.some.inj hk'
      · rw [show s.entryOf img = none from h0] at hk'
        exact Option.some.inj (hk.symm.trans hk')
    exact if_neg (not_or.2 ⟨not_not.2 hn, not_not.2 hw⟩)
  · next hnone =>
    rcases hk with hk | ⟨h0, hk⟩
    · exact (hnone h r k hh hr (by rw [hk])).elim
    · exact (hnone h r k hh hr (by rw [h0]; exact hk)).elim

/-- The entry a checkpoint is taken in carries the handle, the step and the digest of the image, and no region byte changes (R278). -/
theorem State.takeCkpt_fields {w q k : Nat} {e : QEntry} (he : s.entry w q = some e) :
    let x := s.imageIn (inOf e.raw).imgH
    let t := s.takeCkpt w e k
    t.rd (Obj.ckptHandle k) = (inOf e.raw).imgH ∧ t.rd (Obj.ckptStep k) = x.step ∧ t.rd (Obj.ckptDigest k) = x.digest.getD 0 ∧
    t.rd (Obj.ckptState k) = (if x.damaged then 3 else 2) ∧ t.store.taken.find k = some x ∧
    (t.entry w q).map QEntry.unit = some true ∧ t.tier.mem = s.tier.mem ∧ t.store.zones = s.store.zones := by
  intro x t
  obtain rfl := State.entry_seq he
  have hs : ∀ j, j = Obj.ckptHandle k ∨ j = Obj.ckptStep k ∨ j = Obj.ckptDigest k → j ≠ Obj.ckptState k := by
    simp only [Obj.ckptHandle, Obj.ckptStep, Obj.ckptDigest, Obj.ckptState]
    omega
  have hg : ∀ j, j = Obj.ckptHandle k ∨ j = Obj.ckptStep k → j ≠ Obj.ckptDigest k := by
    simp only [Obj.ckptHandle, Obj.ckptStep, Obj.ckptDigest]
    omega
  have hp : Obj.ckptHandle k ≠ Obj.ckptStep k := by
    simp only [Obj.ckptHandle, Obj.ckptStep]
    omega
  refine ⟨?_, ?_, ?_, State.rd_wr_self _ _ _, Tab.find_insert_self _ k x, State.entry_unitDone he, rfl, rfl⟩
  · exact (State.rd_wr_ne (hs _ (.inl rfl))).trans ((State.rd_wr_ne (hg _ (.inl rfl))).trans
      ((State.rd_wr_ne hp).trans (State.rd_wr_self _ _ _)))
  · exact (State.rd_wr_ne (hs _ (.inr (.inl rfl)))).trans ((State.rd_wr_ne (hg _ (.inr rfl))).trans (State.rd_wr_self _ _ _))
  · exact (State.rd_wr_ne (hs _ (.inr (.inr rfl)))).trans (State.rd_wr_self _ _ _)

/-- Before every page has landed and the image is whole nothing changes. -/
theorem State.drainComplete_waits {w : Nat} {e : QEntry}
    (h : s.store.drains.find (recKey w e.seq) = none ∨
      (s.region (inOf e.raw).imgH).all (fun r => decide (r.count (fun p => p.home == .t2 && p.move.isNone) ≠ r.size)) = true ∨
      (s.imageIn (inOf e.raw).imgH).whole = false) : s.drainComplete w e = s := by
  unfold State.drainComplete
  extract_lets img key
  split
  · next hd hr hk =>
    refine if_pos ?_
    rcases h with h | h | h
    · exact absurd (h.symm.trans hd) nofun
    · rw [hr] at h
      exact .inl (by simpa using h)
    · exact .inr (by rw [h]; decide)
  · rfl

/-- A drain starts with a catalogue entry that reads draining and the move of its first page. -/
theorem State.drainImage_starts {w i k : Nat} {e : QEntry} {r : Region} (hf : s.store.drains.find (recKey w e.seq) = none)
    (hr : s.region (inOf e.raw).imgH = some r) (hi : r.nextMove 2 0 r.size 0 = some i) (hm : (r.page i).move = none)
    (hp : (s.beginDrain (recKey w e.seq) (inOf e.raw).imgH).placeIn 2 = some .t2)
    (hc : ckptEntry (fun k => s.rd (Obj.ckptState k) == 0) = some k) :
    let t := s.drainImage w e
    t.store.drains.find (recKey w e.seq) = some (inOf e.raw).imgH ∧ t.rd (Obj.ckptState k) = 1 ∧
    t.rd (Obj.ckptHandle k) = (inOf e.raw).imgH ∧
    (∃ r₂, t.region (inOf e.raw).imgH = some r₂ ∧ (r₂.page i).move.map PageMove.dst = some .t2 ∧
      (r₂.page i).move.map PageMove.why = some (.record (recKey w e.seq))) ∧
    t.tier.mem = s.tier.mem := by
  obtain ⟨hstore, htier, -⟩ := s.beginDrain_fields (recKey w e.seq) (inOf e.raw).imgH
  obtain ⟨hstate, hhandle⟩ := State.beginDrain_entry (key := recKey w e.seq) (h := (inOf e.raw).imgH) hc
  rw [State.drainImage_begin hf]
  generalize s.beginDrain (recKey w e.seq) (inOf e.raw).imgH = b at *
  have hb : b.region (inOf e.raw).imgH = some r := by
    rw [State.region, htier]
    exact hr
  rw [State.drainImage_moves (by rw [hstore]; simp) (by rw [htier]; exact Tab.find_insert_self _ _ _) rfl hb hi hm hp]
  obtain ⟨hmove, hmem, -, hst, hobj⟩ := State.startMove_starts (p := i) (dst := .t2) (why := .record (recKey w e.seq))
    (s := b.atPage (recKey w e.seq) { next := 0, status := 0 } i) hb
  refine ⟨?_, (State.rd_congr hobj _).trans hstate, (State.rd_congr hobj _).trans hhandle, hmove, ?_⟩
  · rw [hst, State.atPage, hstore]
    exact Tab.find_insert_self _ _ _
  · rw [hmem, State.atPage, htier]

/-- Without room in the store a drain ends as it begins, and its image stays in its pages. -/
theorem State.drainImage_lacksRoom {w i q : Nat} {e : QEntry} {r : Region} (he : s.entry w q = some e)
    (hf : s.store.drains.find (recKey w q) = none) (hr : s.region (inOf e.raw).imgH = some r) (hi : r.nextMove 2 0 r.size 0 = some i)
    (hm : (r.page i).move = none) (hp : (s.beginDrain (recKey w q) (inOf e.raw).imgH).placeIn 2 = none) :
    let t := s.drainImage w e
    (inOf e.raw).imgH ∈ t.store.partDrains ∧
    t.rd (Obj.occurrences (Ev.ckptFault / 256 - 1) (Ev.ckptFault % 256)) =
      (s.rd (Obj.occurrences (Ev.ckptFault / 256 - 1) (Ev.ckptFault % 256)) + 1) % 2 ^ 32 ∧
    (t.entry w q).map QEntry.unit = some true ∧ t.tier.mem = s.tier.mem ∧ t.region (inOf e.raw).imgH = some r := by
  obtain rfl := State.entry_seq he
  obtain ⟨hstore, htier, hcmd⟩ := s.beginDrain_fields (recKey w e.seq) (inOf e.raw).imgH
  have hocc := State.beginDrain_rd_occurrences (s := s) (key := recKey w e.seq) (h := (inOf e.raw).imgH)
    (n := Ev.ckptFault / 256 - 1) (k := Ev.ckptFault % 256)
  rw [State.drainImage_begin hf]
  generalize s.beginDrain (recKey w e.seq) (inOf e.raw).imgH = b at *
  have hb : b.region (inOf e.raw).imgH = some r := by
    rw [State.region, htier]
    exact hr
  rw [State.drainImage_full (by rw [hstore]; simp) (by rw [htier]; exact Tab.find_insert_self _ _ _) rfl hb hi hm hp]
  have heb : (b.atPage (recKey w e.seq) { next := 0, status := 0 } i).entry w e.seq = some e := (State.entry_congr hcmd _ _).trans he
  obtain ⟨hpart, hrd, hunit, hmem, hreg⟩ := State.drainFails_ends (status := 0x22) heb
  refine ⟨hpart, hrd.trans (by rw [← hocc]; rfl), hunit, hmem.trans (by rw [State.atPage, htier]), ?_⟩
  rw [State.region, hreg]
  exact hb

/-- Settles O44, a clause for each way a drain goes on or ends. -/
theorem checkpointsDrain : Obligations.CheckpointsDrain := by
  unfold Obligations.CheckpointsDrain
  refine ⟨fun s w q e r i k he hd hu hs hk ho hf hr hi hm hp hc => ?_, fun s w q e r i he hd hu hs hk ho hf hr hi hm hp => ?_,
    fun s w q e r i j he hd hu hs hk ho hf hj h0 hr hi hm hp => ?_, fun s w q e r i j he hd hu hs hk ho hf hj h0 hr hi hm => ?_,
    fun s w q e j he hd hu hs hk ho hf hj h => ?_, fun s w q e r j he hd hu hs hk ho hf hj h0 hr hi => ?_,
    fun s w q e r k he hd hu hs hk ho hf hr hc hn hw => ?_, fun s w q e he hd hu hs hk ho h => ?_,
    fun s w q h => ⟨s, onUnit_idle h, rfl⟩, fun s w q h => ⟨s, onUnit_idle h, rfl⟩⟩
  all_goals
    refine ⟨_, onUnit_runs he hd hu hs hk ho, ?_⟩
    obtain rfl := State.entry_seq he
  · exact State.drainImage_starts hf hr hi hm hp hc
  · exact State.drainImage_lacksRoom he hf hr hi hm hp
  · rw [State.drainImage_moves hf hj h0 hr hi hm hp]
    obtain ⟨hmove, hmem, hleft, hstore, -⟩ := State.startMove_starts (p := i) (dst := .t2) (why := .record (recKey w e.seq))
      (s := s.atPage (recKey w e.seq) j i) hr
    refine ⟨hmove, ?_, hmem, by rw [hstore]; rfl⟩
    rw [hleft]
    exact Tab.find_insert_self _ _ _
  · rw [State.drainImage_waits hf hj h0 hr hi hm]
    exact ⟨rfl, rfl, rfl, rfl, rfl⟩
  · obtain ⟨status, ht⟩ := State.drainImage_fails hf hj h
    rw [ht]
    obtain ⟨hpart, hrd, hunit, hmem, -⟩ := State.drainFails_ends (status := status) he
    exact ⟨by simpa using hpart, hrd, hunit, hmem⟩
  · exact State.drainImage_rests hf hj h0 hr hi
  · rw [State.drainComplete_takes hf hr hc hn hw]
    exact State.takeCkpt_fields he
  · exact State.drainComplete_waits h

end Sys2Proof.Machine
end

section
/-! SUPPORT. Exact numbers as rationals, with what the comparisons of `Ex` decide, and the codes of the number formats. -/
namespace Sys2Proof.Machine

namespace Ex

/-- The rational that an exact value stands for. -/
def val (x : Ex) : ℚ := x.n / x.d * 2 ^ x.e

variable {x y : Ex}

@[simp] theorem val_int (i : Int) : (int i).val = i := by simp [val, int]
@[simp] theorem val_dy (m e : Int) : (dy m e).val = m * 2 ^ e := by simp [val, dy]

/-- The factor by which `add` brings an integer to the smaller power of two. -/
theorem two_zpow_sub_toNat {e m : Int} (h : m ≤ e) : (2 : ℚ) ^ (e - m).toNat * 2 ^ m = 2 ^ e := by
  rw [← zpow_natCast, ← zpow_add₀ two_ne_zero, Int.toNat_of_nonneg (by omega), sub_add_cancel]

theorem d_sub_ne_zero (hx : x.d ≠ 0) (hy : y.d ≠ 0) : (x.sub y).d ≠ 0 := by
  by_cases h : x.d = y.d
  · simpa [sub, add, neg, h] using hy
  · simpa [sub, add, neg, h] using ⟨hx, hy⟩

theorem val_sub (hx : x.d ≠ 0) (hy : y.d ≠ 0) : (x.sub y).val = x.val - y.val := by
  have hx' : (x.d : ℚ) ≠ 0 := Nat.cast_ne_zero.2 hx
  have hy' : (y.d : ℚ) ≠ 0 := Nat.cast_ne_zero.2 hy
  by_cases h : x.d = y.d
  · simp only [sub, add, neg, val, h, if_true]
    push_cast
    rw [← two_zpow_sub_toNat (min_le_left x.e y.e), ← two_zpow_sub_toNat (min_le_right x.e y.e)]
    ring
  · simp only [sub, add, neg, val, h, if_false]
    push_cast
    rw [← two_zpow_sub_toNat (min_le_left x.e y.e), ← two_zpow_sub_toNat (min_le_right x.e y.e)]
    field_simp
    ring

/-- The numerator has the sign of the value. -/
theorem exists_val_eq_mul (hx : x.d ≠ 0) : ∃ u : ℚ, 0 < u ∧ x.val = x.n * u := by
  have hd : (0 : ℚ) < x.d := by exact_mod_cast Nat.pos_of_ne_zero hx
  exact ⟨2 ^ x.e / x.d, by positivity, by rw [val]; ring⟩

theorem lt_iff (hx : x.d ≠ 0) (hy : y.d ≠ 0) : x.lt y = true ↔ x.val < y.val := by
  obtain ⟨u, hu, h⟩ := exists_val_eq_mul (d_sub_ne_zero hx hy)
  rw [lt, decide_eq_true_iff, ← not_le, ← not_le, ← sub_nonneg (a := x.val), ← val_sub hx hy, h, mul_nonneg_iff_of_pos_right hu,
    Int.cast_nonneg_iff]

theorem le_iff (hx : x.d ≠ 0) (hy : y.d ≠ 0) : x.le y = true ↔ x.val ≤ y.val := by
  obtain ⟨u, hu, h⟩ := exists_val_eq_mul (d_sub_ne_zero hx hy)
  rw [le, decide_eq_true_iff, ← not_lt, ← not_lt, ← sub_pos (a := x.val), ← val_sub hx hy, h, mul_pos_iff_of_pos_right hu, Int.cast_pos]

/-- A dyadic value stands in the binade of its integer's leading bit. -/
theorem log2_dy {m e : Int} (hm : m ≠ 0) : (dy m e).log2 = (Nat.log2 m.natAbs : Int) + e := by
  have h : 2 ^ Nat.log2 m.natAbs ≤ m.natAbs := Nat.log2_self_le (Int.natAbs_ne_zero.2 hm)
  have h1 : Nat.log2 1 = 0 := by decide
  simp [log2, dy, h, h1]

@[simp] theorem roundAbs_dy_self (m e : Int) : (dy m e).roundAbs e = m.natAbs := by
  simp [roundAbs, frac, dy, Nat.mod_one]

/-- An integer is its own floor. -/
theorem floor_int (i : Int) : (int i).floor = i := by
  simp only [floor, frac, int, sub_zero, le_refl, if_true, Int.toNat_zero, pow_zero, mul_one, Nat.add_sub_cancel, Nat.div_one]
  split <;> omega

end Ex

/-! ### Codes of the float formats -/

namespace Fmt

variable {f : Fmt}

/-- The weight of the sign bit, where it is set. -/
def signBit (f : Fmt) (neg : Bool) : Nat := if neg then 2 ^ (f.bits - 1) else 0

theorem two_pow_bits (f : Fmt) : 2 ^ f.bits = 2 * 2 ^ (f.bits - 1) := by cases f <;> rfl

theorem maxCode_pos (f : Fmt) : 0 < f.maxCode := by cases f <;> decide

theorem nanCode_pos (f : Fmt) : 0 < f.nanCode := by cases f <;> decide

theorem nanCode_lt (f : Fmt) : f.nanCode < 2 ^ (f.bits - 1) := Nat.sub_lt (Nat.two_pow_pos _) Nat.one_pos

theorem maxCode_lt (f : Fmt) : f.maxCode < 2 ^ (f.bits - 1) := by cases f <;> decide

/-- The magnitudes that do not read as NaN are those up to the largest finite one. -/
theorem le_maxCode_iff {mag : Nat} (h : mag < 2 ^ (f.bits - 1)) : mag ≤ f.maxCode ↔ ¬ (f.hasNan = true ∧ mag = f.nanCode) := by
  have hp := f.nanCode_pos
  have hn : f.nanCode = 2 ^ (f.bits - 1) - 1 := rfl
  cases hh : f.hasNan with
  | false =>
    simp [maxCode, hh]
    omega
  | true =>
    simp [maxCode, hh]
    omega

theorem signBit_add_mod {neg : Bool} {m : Nat} (h : m < 2 ^ (f.bits - 1)) : (f.signBit neg + m) % 2 ^ (f.bits - 1) = m := by
  cases neg <;> simp [signBit, Nat.mod_eq_of_lt h]

/-- A code is its sign bit and its magnitude. -/
theorem signBit_add_mag {c : Nat} (h : c < 2 ^ f.bits) :
    f.signBit (decide (c / 2 ^ (f.bits - 1) % 2 = 1)) + c % 2 ^ (f.bits - 1) = c := by
  rw [two_pow_bits] at h
  have hq : c / 2 ^ (f.bits - 1) < 2 := Nat.div_lt_of_lt_mul (by omega)
  have hc := Nat.div_add_mod c (2 ^ (f.bits - 1))
  rcases Nat.le_one_iff_eq_zero_or_eq_one.1 (Nat.le_of_lt_succ hq) with h0 | h1
  · simpa [signBit, h0] using hc
  · simpa [signBit, h1] using hc

/-- The significand of a magnitude, in units of its binade's spacing (R29). -/
def sig (f : Fmt) (mag : Nat) : Nat := if mag / 2 ^ f.frac = 0 then mag % 2 ^ f.frac else 2 ^ f.frac + mag % 2 ^ f.frac

/-- The binade of a magnitude; the subnormal range shares the lowest (R29). -/
def binade (f : Fmt) (mag : Nat) : Int := ((mag / 2 ^ f.frac - 1 : Nat) : Int) + 1 - f.bias

theorem sig_lt (f : Fmt) (mag : Nat) : f.sig mag < 2 * 2 ^ f.frac := by
  have := Nat.mod_lt mag (Nat.two_pow_pos f.frac)
  unfold sig
  split <;> omega

/-- Above the lowest binade every significand has its leading bit. -/
theorem le_sig (f : Fmt) {mag : Nat} (h : mag / 2 ^ f.frac - 1 ≠ 0) : 2 ^ f.frac ≤ f.sig mag := by
  rw [sig, if_neg (by omega)]
  omega

/-- Significand and binade together give the magnitude back: a magnitude counts the values below it. -/
theorem mag_eq (f : Fmt) (mag : Nat) : (mag / 2 ^ f.frac - 1) * 2 ^ f.frac + f.sig mag = mag := by
  have h := Nat.div_add_mod' mag (2 ^ f.frac)
  unfold sig
  generalize mag / 2 ^ f.frac = e at *
  cases e with
  | zero => simpa using h
  | succ e =>
    rw [Nat.succ_mul] at h
    rw [if_neg e.succ_ne_zero, Nat.add_sub_cancel]
    omega

theorem sig_eq_zero_iff {mag : Nat} : f.sig mag = 0 ↔ mag = 0 := by
  constructor
  · intro h
    by_cases he : mag / 2 ^ f.frac - 1 = 0
    · have := f.mag_eq mag
      rw [he, h] at this
      omega
    · have := f.le_sig he
      have := Nat.two_pow_pos f.frac
      omega
  · rintro rfl
    simp [sig]

/-- The binade in which a conversion places the value of a magnitude is the magnitude's own. -/
theorem max_log2_sig {mag : Nat} (h : mag ≠ 0) :
    max ((Nat.log2 (f.sig mag) : Int) + (f.binade mag - f.frac)) (1 - f.bias) = f.binade mag := by
  have hs : f.sig mag ≠ 0 := sig_eq_zero_iff.not.2 h
  have hlt : Nat.log2 (f.sig mag) < f.frac + 1 := (Nat.log2_lt hs).2 (by rw [pow_succ]; have := f.sig_lt mag; omega)
  unfold binade
  by_cases he : mag / 2 ^ f.frac - 1 = 0
  · rw [he]
    omega
  · have : f.frac ≤ Nat.log2 (f.sig mag) := (Nat.le_log2 hs).2 (f.le_sig he)
    omega

/-- A larger value has a larger code: `q` units of the binade `k` above the lowest, against a magnitude. -/
theorem mag_lt_of_val_lt (f : Fmt) {mag q k : Nat} (h : f.sig mag * 2 ^ (mag / 2 ^ f.frac - 1) < q * 2 ^ k) :
    mag < k * 2 ^ f.frac + q := by
  have hmag := f.mag_eq mag
  have hlt := f.sig_lt mag
  have hle := f.le_sig (mag := mag)
  generalize mag / 2 ^ f.frac - 1 = j at *
  generalize f.sig mag = m at *
  rw [← hmag]
  rcases Nat.le_total k j with hkj | hjk
  · obtain ⟨i, rfl⟩ := Nat.exists_eq_add_of_le hkj
    have hq : m * 2 ^ i < q := Nat.lt_of_mul_lt_mul_right (a := 2 ^ k) (by rwa [Nat.mul_assoc, ← pow_add, Nat.add_comm i])
    have hi : i * 2 ^ f.frac ≤ i * m := by
      rcases Nat.eq_zero_or_pos i with rfl | hi
      · simp
      · exact Nat.mul_le_mul_left i (hle (by omega))
    have hpow : i * m + m ≤ m * 2 ^ i := by
      rw [← Nat.succ_mul, Nat.mul_comm]
      exact Nat.mul_le_mul_left m Nat.lt_two_pow_self
    rw [Nat.add_mul]
    omega
  · obtain ⟨i, rfl⟩ := Nat.exists_eq_add_of_le hjk
    have hq : m < q * 2 ^ i := Nat.lt_of_mul_lt_mul_right (a := 2 ^ j) (by rwa [Nat.mul_assoc, ← pow_add, Nat.add_comm i])
    rw [Nat.add_mul]
    rcases (by omega : i = 0 ∨ i = 1 ∨ 2 ≤ i) with rfl | rfl | hi
    · simpa using hq
    · omega
    · have := Nat.mul_le_mul_right (2 ^ f.frac) hi
      omega

/-- The largest finite value of a float format is that of its largest finite code (Table 2.1). -/
theorem maxMag_val (hf : f.isFloat = true) : f.maxMag.val = f.sig f.maxCode * 2 ^ (f.binade f.maxCode - f.frac) := by
  cases f with
  | f8 | g8 | h16 | g16 | q4 =>
    norm_num [maxMag, maxCode, nanCode, hasNan, bits, binade, sig, frac, bias]
  | w2 | t1 | a8 | e8 => simp [isFloat] at hf

/-- The codes that R31 and R35 leave to a converter: those of the format's width but the negative zero, which is 0x80 in A8. -/
def Made (f : Fmt) (c : Nat) : Prop := c < 2 ^ f.bits ∧ c ≠ 2 ^ (f.bits - 1)

/-- The codes of the finite values that a unit may produce: zero without a sign, or a sign and a magnitude. -/
def MadeFin (f : Fmt) (c : Nat) : Prop := c = 0 ∨ ∃ neg m, 0 < m ∧ m ≤ f.maxCode ∧ c = f.signBit neg + m

theorem made_of_lt {c : Nat} (h : c < 2 ^ (f.bits - 1)) : f.Made c := ⟨by rw [two_pow_bits]; omega, h.ne⟩

theorem MadeFin.made {c : Nat} (h : f.MadeFin c) : f.Made c := by
  rcases h with rfl | ⟨neg, m, hm, hle, rfl⟩
  · exact made_of_lt (Nat.two_pow_pos _)
  · have hlt := f.maxCode_lt
    cases neg with
    | false => exact made_of_lt (by simp [signBit]; omega)
    | true =>
      refine ⟨?_, ?_⟩
      · rw [two_pow_bits, signBit, if_pos rfl]
        omega
      · rw [signBit, if_pos rfl]
        omega

theorem madeFin_maxCode (f : Fmt) (neg : Bool) : f.MadeFin (f.signBit neg + f.maxCode) := .inr ⟨neg, _, f.maxCode_pos, le_rfl, rfl⟩

end Fmt

end Sys2Proof.Machine
end

section
/-! SUPPORT. The conversions of chapter 2: what decoding reads, what rounding, elements and blocks make, and the statements on them. -/
namespace Sys2Proof.Machine

/-! ### Decoding (R29 to R31) -/

variable {f : Fmt} {c : Nat}

theorem Val.eq_nan {v : Val} (h : v.isNan = true) : v = .nan := by
  cases v with
  | nan => rfl
  | fin x => cases h

theorem isNan_decodeFloat : (decodeFloat f c).isNan = true ↔ f.hasNan = true ∧ c % 2 ^ (f.bits - 1) = f.nanCode := by
  simp only [decodeFloat]
  split
  · next h => exact iff_of_true rfl h
  · next h => exact iff_of_false (by split <;> simp [Val.isNan]) h

/-- A code that is not NaN decodes to its sign, significand and binade. -/
theorem decodeFloat_eq_fin (h : (decodeFloat f c).isNan = false) :
    decodeFloat f c = .fin (.dy ((if c / 2 ^ (f.bits - 1) % 2 = 1 then -1 else 1) * (f.sig (c % 2 ^ (f.bits - 1)) : Int))
      (f.binade (c % 2 ^ (f.bits - 1)) - f.frac)) := by
  have hn := isNan_decodeFloat.not.1 (Bool.eq_false_iff.1 h)
  simp only [decodeFloat, if_neg hn, Fmt.sig, Fmt.binade]
  split
  · next he => simp [he]
  · next he => rw [Nat.cast_pred (Nat.pos_of_ne_zero he), sub_add_cancel]

/-- A sign and a significand that is not zero: the product is negative where the sign is. -/
theorem sign_mul_neg_iff {p : Prop} [Decidable p] {k : Nat} (hk : k ≠ 0) : (if p then (-1 : Int) else 1) * k < 0 ↔ p := by
  by_cases hp : p
  · simpa [hp] using Nat.pos_of_ne_zero hk
  · simp [hp]

/-- The codes that decode as zero are those whose magnitude is zero. -/
theorem isZero_decodeFloat : (decodeFloat f c).isZero = true ↔ c % 2 ^ (f.bits - 1) = 0 := by
  cases hn : (decodeFloat f c).isNan with
  | true =>
    have hp := f.nanCode_pos
    have hm := (isNan_decodeFloat.1 hn).2
    rw [Val.eq_nan hn]
    exact iff_of_false Bool.false_ne_true (by omega)
  | false =>
    rw [decodeFloat_eq_fin hn, ← Fmt.sig_eq_zero_iff (f := f)]
    simp only [Val.isZero, Ex.isZero, Ex.dy, beq_iff_eq]
    split <;> simp

/-- Of the codes that a unit may produce, 0 alone decodes as zero. -/
theorem Fmt.Made.eq_zero (h : f.Made c) (hz : (decodeFloat f c).isZero = true) : c = 0 := by
  obtain ⟨hlt, hne⟩ := h
  rw [f.two_pow_bits] at hlt
  obtain ⟨k, rfl⟩ := Nat.dvd_of_mod_eq_zero (isZero_decodeFloat.1 hz)
  have hk : k < 2 := Nat.lt_of_mul_lt_mul_left (a := 2 ^ (f.bits - 1)) (by omega)
  rcases Nat.le_one_iff_eq_zero_or_eq_one.1 (Nat.le_of_lt_succ hk) with rfl | rfl
  · rfl
  · simp at hne

theorem Fmt.MadeFin.not_nan (h : f.MadeFin c) : (decodeFloat f c).isNan = false := by
  rw [← Bool.not_eq_true, isNan_decodeFloat]
  have hle : c % 2 ^ (f.bits - 1) ≤ f.maxCode := by
    rcases h with rfl | ⟨neg, m, hm, hle, rfl⟩
    · simp
    · rwa [Fmt.signBit_add_mod (hle.trans_lt f.maxCode_lt)]
  exact (Fmt.le_maxCode_iff (Nat.mod_lt _ (Nat.two_pow_pos _))).1 hle

/-! ### Conversion to a float format (R42, R52) -/

/-- The code of a sign and `q` units of the spacing of binade `b`: the end that rounding to nearest and stochastic rounding share. -/
def Fmt.pack (f : Fmt) (neg : Bool) (b : Int) (q : Nat) : Nat × Cls :=
  if q = 0 then (0, .underflow)
  else if f.maxCode < ((b + f.bias - 1) * 2 ^ f.frac + q).toNat then (f.signBit neg + f.maxCode, .saturation)
  else (f.signBit neg + ((b + f.bias - 1) * 2 ^ f.frac + q).toNat, .none)

variable {x : Ex}

theorem toFloat_zero (h : x.isZero = true) : toFloat f (.fin x) = (0, .none) := by simp [toFloat, h]

theorem toFloatSR_zero {r : Nat} (h : x.isZero = true) : toFloatSR f r (.fin x) = (0, .none) := by simp [toFloatSR, h]

theorem toFloat_fin (h : x.isZero = false) :
    toFloat f (.fin x) = f.pack x.isNeg (max x.log2 (1 - f.bias)) (x.roundAbs (max x.log2 (1 - f.bias) - f.frac)) := by
  simp [toFloat, h, Fmt.pack, Fmt.signBit]

theorem toFloatSR_fin {r : Nat} (h : x.isZero = false) :
    toFloatSR f r (.fin x) =
      f.pack x.isNeg (max x.log2 (1 - f.bias)) ((x.floorAbs (max x.log2 (1 - f.bias) - f.frac - 16) + r) / 65536) := by
  simp [toFloatSR, h, Fmt.pack, Fmt.signBit]

/-- The lowest binade is `1 - bias`, and `k` binades above it a code counts `k` times the codes of a binade. -/
theorem Fmt.code_toNat {k q : Nat} : (((k : Int) + 1 - f.bias + f.bias - 1) * 2 ^ f.frac + q).toNat = k * 2 ^ f.frac + q := by
  rw [show (k : Int) + 1 - f.bias + f.bias - 1 = k by ring]
  exact_mod_cast rfl

theorem Fmt.exists_binade {b : Int} (hb : 1 - f.bias ≤ b) : ∃ k : Nat, b = k + 1 - f.bias := ⟨(b + f.bias - 1).toNat, by omega⟩

theorem Fmt.pack_madeFin {neg : Bool} {b : Int} {q : Nat} (hb : 1 - f.bias ≤ b) : f.MadeFin (f.pack neg b q).1 := by
  obtain ⟨k, rfl⟩ := Fmt.exists_binade hb
  rw [Fmt.pack, Fmt.code_toNat]
  split
  · exact .inl rfl
  · split
    · exact f.madeFin_maxCode neg
    · exact .inr ⟨neg, _, by omega, by omega, rfl⟩

theorem toFloat_madeFin (f : Fmt) (x : Ex) : f.MadeFin (toFloat f (.fin x)).1 := by
  cases h : x.isZero with
  | true => exact .inl (by rw [toFloat_zero h])
  | false => rw [toFloat_fin h]; exact Fmt.pack_madeFin (le_max_right _ _)

theorem toFloatSR_madeFin (f : Fmt) (r : Nat) (x : Ex) : f.MadeFin (toFloatSR f r (.fin x)).1 := by
  cases h : x.isZero with
  | true => exact .inl (by rw [toFloatSR_zero h])
  | false => rw [toFloatSR_fin h]; exact Fmt.pack_madeFin (le_max_right _ _)

theorem toFloat_made (f : Fmt) (v : Val) : f.Made (toFloat f v).1 := by
  cases v with
  | nan => exact Fmt.made_of_lt f.nanCode_lt
  | fin x => exact (toFloat_madeFin f x).made

theorem toFloatSR_made (f : Fmt) (r : Nat) (v : Val) : f.Made (toFloatSR f r v).1 := by
  cases v with
  | nan => exact Fmt.made_of_lt f.nanCode_lt
  | fin x => exact (toFloatSR_madeFin f r x).made

/-- A magnitude beyond the largest finite value takes the largest finite code (R33). -/
theorem Fmt.pack_saturates (hf : f.isFloat = true) {neg : Bool} {b : Int} {q : Nat} (hb : 1 - f.bias ≤ b)
    (h : f.maxMag.lt (.dy q (b - f.frac)) = true) : f.pack neg b q = (f.signBit neg + f.maxCode, .saturation) := by
  obtain ⟨k, rfl⟩ := Fmt.exists_binade hb
  rw [Ex.lt_iff (by cases f <;> decide) one_ne_zero, Fmt.maxMag_val hf, Ex.val_dy, Fmt.binade] at h
  have hval : f.sig f.maxCode * 2 ^ (f.maxCode / 2 ^ f.frac - 1) < q * 2 ^ k := by
    have h2 : (0 : ℚ) < 2 ^ (1 - f.bias - f.frac) := by positivity
    rw [show ∀ a : Int, a + 1 - f.bias - f.frac = a + (1 - f.bias - f.frac) by intro a; ring,
      show (k : Int) + 1 - f.bias - f.frac = k + (1 - f.bias - f.frac) by ring,
      zpow_add₀ two_ne_zero, zpow_add₀ two_ne_zero, ← mul_assoc, ← mul_assoc, mul_lt_mul_iff_left₀ h2] at h
    exact_mod_cast h
  have hlt := f.mag_lt_of_val_lt hval
  rw [Fmt.pack, Fmt.code_toNat, if_neg, if_pos hlt]
  rintro rfl
  simp at hval

/-- Rounding the value of a magnitude in its own binade gives the magnitude back. -/
theorem Fmt.pack_sig {neg : Bool} {mag : Nat} (h0 : mag ≠ 0) (hle : mag ≤ f.maxCode) :
    f.pack neg (f.binade mag) (f.sig mag) = (f.signBit neg + mag, .none) := by
  rw [Fmt.pack, if_neg (Fmt.sig_eq_zero_iff.not.2 h0), Fmt.binade, Fmt.code_toNat, Fmt.mag_eq, if_neg (Nat.not_lt.2 hle)]

/-- A dyadic value whose significand and binade are those of a magnitude converts to that magnitude. -/
theorem toFloat_dy_sig {m : Int} {mag : Nat} (h0 : mag ≠ 0) (hle : mag ≤ f.maxCode) (hm : m.natAbs = f.sig mag) :
    toFloat f (.fin (.dy m (f.binade mag - f.frac))) = (f.signBit (decide (m < 0)) + mag, .none) := by
  have hs : f.sig mag ≠ 0 := Fmt.sig_eq_zero_iff.not.2 h0
  have hm0 : m ≠ 0 := by
    rintro rfl
    exact hs hm.symm
  have hb : max (Ex.dy m (f.binade mag - f.frac)).log2 (1 - f.bias) = f.binade mag := by
    rw [Ex.log2_dy hm0, hm, Fmt.max_log2_sig h0]
  rw [toFloat_fin (by simpa [Ex.isZero, Ex.dy] using hm0), hb, Ex.roundAbs_dy_self, hm]
  exact Fmt.pack_sig h0 hle

/-! ### Elements, blocks and scalars (R40 to R42) -/

/-- The formats whose sign-and-zero code no converter makes: the negative zero of a float format, 0x80 in A8. -/
def Fmt.Signed (f : Fmt) : Prop := f.isFloat = true ∨ f = .a8

theorem Fmt.Signed.ne (hf : f.Signed) : f ≠ .w2 ∧ f ≠ .t1 := by
  rcases hf with hf | rfl
  · refine ⟨?_, ?_⟩ <;> (rintro rfl; simp [Fmt.isFloat] at hf)
  · decide

theorem toElem_fst (hf : f.isFloat = true) (v : Val) : (toElem f v).1 = (toFloat f v).1 := by
  cases f with
  | f8 | g8 | h16 | g16 | q4 => cases v <;> rfl
  | w2 | t1 | a8 | e8 => simp [Fmt.isFloat] at hf

theorem toElem_made (hf : f.Signed) (v : Val) : f.Made (toElem f v).1 := by
  rcases hf with hf | rfl
  · rw [toElem_fst hf]
    exact toFloat_made f v
  · cases v with
    | nan => exact Fmt.made_of_lt (by decide)
    | fin y =>
      simp only [toElem, Fmt.Made, Fmt.bits]
      split <;> omega

/-- An element of a block is some value converted by the element rule. -/
theorem blockElem_fst (f : Fmt) (s : Ex) (e8 : Nat) (o : OutVal) : ∃ v, (blockElem f s e8 o).1 = (toElem f v).1 := by
  cases o <;> exact ⟨_, rfl⟩

theorem nanBlock_made (hf : f.Signed) {xs : List OutVal} : ∀ c ∈ (nanBlock f xs).2, f.Made c.1 := by
  obtain ⟨hw2, ht1⟩ := hf.ne
  intro c hc
  obtain ⟨i, -, rfl⟩ := List.mem_map.1 hc
  simp only [ht1, if_false]
  split
  · exact Fmt.made_of_lt (Nat.two_pow_pos _)
  · next hb =>
    refine ⟨Nat.mod_lt _ (Nat.two_pow_pos _), fun h => hb ?_⟩
    simp [badCode, hw2, ht1, h]

theorem convBlock_made (hf : f.Signed) {s : Val} {xs : List OutVal} : ∀ c ∈ (convBlock f s xs).2, f.Made c.1 := by
  unfold convBlock
  split
  · exact nanBlock_made hf
  · dsimp only
    split
    · exact nanBlock_made hf
    · intro c hc
      obtain ⟨o, -, rfl⟩ := List.mem_map.1 hc
      obtain ⟨v, hv⟩ := blockElem_fst f s.ex (selectScale f s.ex xs) o
      rw [hv]
      exact toElem_made hf v

theorem convScalar_made (f : Fmt) (s : Val) (o : OutVal) : f.Made (convScalar f s o).1 := by
  unfold convScalar
  split
  · exact Fmt.made_of_lt f.nanCode_lt
  · cases o with
    | nan => exact Fmt.made_of_lt f.nanCode_lt
    | sat neg => exact (f.madeFin_maxCode neg).made
    | fin x lost => exact toFloat_made f _

/-! ### The element rules of A8, W2 and T1 (Tables 2.2 and 2.3) -/

/-- The integer form of an A8 code is its two's complement value. -/
theorem intForm_a8 (c : Nat) : intForm .a8 c = if c % 256 < 128 then ((c % 256 : Nat) : Int) else ((c % 256 : Nat) : Int) - 256 :=
  Ex.floor_int _

variable {y : Ex}

theorem toElem_a8_saturates (h : 127 < y.roundAbs 0) : toElem .a8 (.fin y) = (if y.isNeg then 129 else 127, .saturation) := by
  simp [toElem, h, Nat.min_eq_right h.le]

theorem toElem_w2_saturates (hd : y.d ≠ 0) (h : Fmt.w2.maxMag.lt y.abs = true) :
    toElem .w2 (.fin y) = (if y.isNeg then 3 else 1, .saturation) := by
  have hv := (Ex.lt_iff (y := y.abs) (by decide) hd).1 h
  have hle : ¬ y.abs.le (.int 1) = true := by
    rw [Ex.le_iff (x := y.abs) hd one_ne_zero]
    simp [Fmt.maxMag] at hv ⊢
    linarith
  simp only [toElem, Fmt.maxMag] at h ⊢
  simp only [h, hle]
  split <;> rfl

theorem toElem_t1_saturates (hd : y.d ≠ 0) (h : Fmt.t1.maxMag.lt y.abs = true) :
    toElem .t1 (.fin y) = (if y.isNeg then 0 else 2, .saturation) := by
  have hv := (Ex.lt_iff (y := y.abs) (by decide) hd).1 h
  have hle : ¬ y.abs.le (.dy 1 (-1)) = true := by
    rw [Ex.le_iff (x := y.abs) hd one_ne_zero]
    simp [Fmt.maxMag] at hv ⊢
    linarith
  simp only [toElem, Fmt.maxMag] at h ⊢
  simp [h, hle]

/-! ### The obligations on number formats -/

/-- Settles O56: every conversion makes a code that a unit may produce, and of these 0 alone decodes as zero. -/
theorem zeroHasOneCode : Obligations.ZeroHasOneCode := by
  unfold Obligations.ZeroHasOneCode
  have key : ∀ {f : Fmt} {c : Nat}, f.Made c → c ≠ 2 ^ (f.bits - 1) ∧ ((decodeFloat f c).isZero = true → c = 0) :=
    fun h => ⟨h.2, h.eq_zero⟩
  intro f hf
  exact ⟨isZero_decodeFloat.2 (Nat.mod_self _), fun v => key (toFloat_made f v), fun r v => key (toFloatSR_made f r v),
    fun s o => key (convScalar_made f s o), fun s xs c hc => key (convBlock_made (.inl hf) c hc)⟩

/-- The largest finite code of each sign decodes to the largest finite value of that sign. -/
theorem decodeFloat_maxCode (hf : f.isFloat = true) (neg : Bool) :
    ∃ y, decodeFloat f (f.signBit neg + f.maxCode) = .fin y ∧ y.eq (if neg then f.maxMag.neg else f.maxMag) = true := by
  cases f with
  | f8 | g8 | h16 | g16 | q4 => cases neg <;> exact ⟨_, rfl, by decide⟩
  | w2 | t1 | a8 | e8 => simp [Fmt.isFloat] at hf

/-- Settles O57: both roundings end in `Fmt.pack`, which saturates; A8, W2 and T1 each by its own rule. -/
theorem overflowSaturates : Obligations.OverflowSaturates := by
  unfold Obligations.OverflowSaturates
  refine ⟨fun f x b hf _ hx hb => ⟨fun h => ?_, fun r h => ?_, decodeFloat_maxCode hf x.isNeg⟩, fun f x r _ => ?_, fun f y h hd => ?_⟩
  · subst hb
    exact (toFloat_fin hx).trans (Fmt.pack_saturates hf (le_max_right _ _) h)
  · subst hb
    exact (toFloatSR_fin hx).trans (Fmt.pack_saturates hf (le_max_right _ _) h)
  · exact ⟨(toFloat_madeFin f x).not_nan, (toFloatSR_madeFin f r x).not_nan⟩
  · rcases h with ⟨rfl, h⟩ | ⟨rfl, h⟩ | ⟨rfl, h⟩
    · rw [toElem_a8_saturates h]
      cases y.isNeg <;> decide
    · rw [toElem_w2_saturates hd h]
      cases y.isNeg <;> decide
    · rw [toElem_t1_saturates hd h]
      cases y.isNeg <;> decide

/-- Settles O58: the codes of a block in A8 are those a unit may produce, read as two's complement. -/
theorem integerCodesOfA8 : Obligations.IntegerCodesOfA8 := by
  unfold Obligations.IntegerCodesOfA8
  refine ⟨fun s xs c hc => ?_, intForm_a8 0x80⟩
  obtain ⟨hlt, hne⟩ := convBlock_made (f := .a8) (.inr rfl) c hc
  simp only [Fmt.bits] at hlt hne
  rw [intForm_a8]
  refine ⟨hlt, hne, ?_⟩
  split <;> omega

/-- Settles O59: a code's value has the code's own significand and binade, which the conversion finds again. -/
theorem codesRoundTrip : Obligations.CodesRoundTrip := by
  unfold Obligations.CodesRoundTrip
  refine fun f c _ hc => ⟨fun hne hn => ?_, fun hn => ?_⟩
  · by_cases h0 : c % 2 ^ (f.bits - 1) = 0
    · obtain rfl := Fmt.Made.eq_zero ⟨hc, hne⟩ (isZero_decodeFloat.2 h0)
      have hz := isZero_decodeFloat.2 h0
      rw [decodeFloat_eq_fin hn] at hz ⊢
      exact toFloat_zero hz
    · have hle := (Fmt.le_maxCode_iff (Nat.mod_lt c (Nat.two_pow_pos _))).2 (isNan_decodeFloat.not.1 (Bool.eq_false_iff.1 hn))
      rw [decodeFloat_eq_fin hn, toFloat_dy_sig h0 hle (by split <;> simp)]
      simp only [sign_mul_neg_iff (Fmt.sig_eq_zero_iff.not.2 h0)]
      rw [Fmt.signBit_add_mag hc]
  · rw [Val.eq_nan hn]
    rfl

end Sys2Proof.Machine
end

section
/-! SUPPORT. How a write of one action is answered, and that flags_clear refuses a mask without a bit. -/
namespace Sys2Proof.Machine

variable {s : State} {src : Src}

/-- A write of one action is answered with its status. -/
theorem State.act_out {key v cond : Nat} {deny : Bool} {f : State → State} (hf : (f s).out = s.out) :
    (s.act src key v deny cond f).out = .status src key (s.writeStatus src key v deny cond) :: s.out := by
  simp only [State.act]
  split <;> simp [State.emit, hf]

/-- flags_clear takes the masks from 1 to 2^32 - 1 (Table 15.15: "0 rejected"). -/
theorem State.writeStatus_flagsClear {mask : Nat} (h : s.fldDenied src (Obj.flagsClear 1) = false) :
    s.writeStatus src (Obj.flagsClear 1) mask false 0 = if 1 ≤ mask ∧ mask ≤ 0xFFFFFFFF then 0 else 0x05 := by
  have hr : objRow (Obj.flagsClear 1 / 256) (Obj.flagsClear 1 % 256) =
    some ⟨0x9101, 0x9101, 0x01, 0x0f, .action, .wa, .const 0, .span 1 0xFFFFFFFF⟩ := by decide
  rw [State.writeStatus, hr]
  by_cases hok : 1 ≤ mask ∧ mask ≤ 0xFFFFFFFF
  · simp [h, ObjRng.ok, hok]
  · simp [h, ObjRng.ok, hok]

/-- Refutes O32: mask 0 meets the conditions of the clause on flags_clear, and at reset a write of it to block 1 is answered with 0x05, as
Table 15.15 asks, and not with 0. -/
theorem not_clearActionsClear : ¬ Obligations.ClearActionsClear := by
  unfold Obligations.ClearActionsClear
  intro h
  obtain ⟨-, -, -, -, -, -, -, -, -, -, -, -, -, -, -, -, -, -, -, -, -, -, -, -, -, -, -, -, -, -, -, -, hflags, -⟩ := h
  have hd : State.reset.fldDenied (.mctp .ha 0) (Obj.flagsClear 1) = false := by decide
  obtain ⟨t, ht, ⟨m, rfl⟩, -⟩ := hflags State.reset (.mctp .ha 0) 1 0 le_rfl (by decide) (by decide) hd
  have hout := congrArg State.out (Host.Outcome.next.inj ht)
  rw [State.act_out rfl, State.writeStatus_flagsClear hd] at hout
  simp at hout

end Sys2Proof.Machine
end

section
/-! SUPPORT. A product in a tile with more cast pages in frames than its slice has: it keeps its bank and never fills it. -/
namespace Sys2Proof.Machine

variable {s : State} {w q t : Nat} {e : QEntry} {d : Mx} {o b n : Nat}

/-! ### What a product leaves as it is until its pages are ready -/

theorem State.frames_congr {v : State} (h : v.tile.pages = s.tile.pages) : v.frames t = s.frames t := by
  rw [State.frames, State.frames, State.tilePages, State.tilePages, h]

theorem State.bank_congr {v : State} (h : v.tile.banks = s.tile.banks) (i : Nat) : v.bank t i = s.bank t i := by
  rw [State.bank, State.bank, h]

theorem State.fillingBank_congr {v : State} (h : v.tile.banks = s.tile.banks) (k : Nat) : v.fillingBank t k = s.fillingBank t k := by
  simp only [State.fillingBank, State.bank_congr h]

theorem State.freeBank_congr {v : State} (h : v.tile.banks = s.tile.banks) : v.freeBank t = s.freeBank t := by
  simp only [State.freeBank, State.bank_congr h]

/-- Starting a share changes shares and semaphores of the tiles alone. -/
theorem State.startShare_tile (s : State) (w : Nat) (e : QEntry) (t c : Nat) :
    ∃ x y, (s.startShare w e t c).1.tile = { s.tile with shares := x, sems := y } := by
  simp only [State.startShare, State.beginWait]
  repeat' split
  all_goals exact ⟨_, _, rfl⟩

theorem State.bankWaitEnd_tile (s : State) (w q t : Nat) : ∃ x, (s.bankWaitEnd w q t).tile = { s.tile with shares := x } := by
  simp only [State.bankWaitEnd]
  split
  all_goals exact ⟨_, rfl⟩

theorem State.endWait_tile (s : State) (w q t c : Nat) : ∃ x, (s.endWait w q t c).tile = { s.tile with shares := x } := by
  simp only [State.endWait]
  split
  all_goals exact ⟨_, rfl⟩

theorem State.pageGate_banks (s : State) (w q t : Nat) (ok : Bool) : (s.pageGate w q t ok).tile.banks = s.tile.banks := by
  simp only [State.pageGate]
  split <;> rfl

theorem State.spillOne_banks (s : State) (t : Nat) (r : Bool) : (s.spillOne t r).tile.banks = s.tile.banks := by
  simp only [State.spillOne]
  repeat' split
  all_goals rfl

/-- The free bank that an output tile takes is filling from pass 0, and no page changes (R80). -/
theorem State.takeBank_free (hf : s.fillingBank t (recKey w e.seq) = none) (hb : s.freeBank t = some b) :
    (s.takeBank w e d t o).2 = some b ∧ ((s.takeBank w e d t o).1.bank t b).use = .filling ∧
    ((s.takeBank w e d t o).1.bank t b).pass = 0 ∧ (s.takeBank w e d t o).1.tile.pages = s.tile.pages := by
  obtain ⟨x, hx⟩ := s.bankWaitEnd_tile w e.seq t
  simp [State.takeBank, hf, hb, State.bank, State.setBank, hx]

/-! ### A tile with more pages in frames than the 16 of its slice (R105) -/

/-- The pages are not ready even where none is read or written, and asking for them changes no bank. -/
theorem State.pagesFor_crowded (h : 16 < s.frames t) :
    (s.pagesFor w q t [] []).2 = false ∧ (s.pagesFor w q t [] []).1.tile.banks = s.tile.banks := by
  have hw : s.needWrites t [] = (s.spillOne t false, false) := by
    simp [State.needWrites, State.newPages, h]
  simp [State.pagesFor, State.needPages, hw, State.pageGate_banks, State.spillOne_banks]

/-- Passes that are left to a product with both operands in the scratchpad wait, as if for a frame, and its bank stays as it is. -/
theorem State.runPasses_crowded (ha : d.a.loc = 0) (hb : d.b.loc = 0) (h : 16 < s.frames t) :
    (s.runPasses w e d t o b (n + 1)).bank t b = s.bank t b := by
  obtain ⟨x, hx⟩ := s.endWait_tile w e.seq t Obj.mxStallWeight
  have hv : 16 < (s.endWait w e.seq t Obj.mxStallWeight).frames t := by
    rwa [State.frames_congr (s := s) (by rw [hx])]
  have hr : ∀ g p, d.reads g o p 1 = [] ∧ d.reads g o p 2 = [] := by simp [Mx.reads, ha, hb]
  obtain ⟨hno, hbanks⟩ := State.pagesFor_crowded (w := w) (q := e.seq) hv
  simp only [State.runPasses, State.stagedReady, State.mxReads, hr, rangePages, List.all_nil, List.map_nil, List.flatMap_nil, hno]
  exact State.bank_congr (hbanks.trans (by rw [hx])) b

/-- A product that begins an output tile takes its free bank and does not get past the first pass. -/
theorem State.runMatrix_crowded (he : s.entry w q = some e) (hm : s.mayRun w e t = true) (hs : e.skip = false)
    (hst : (s.startShare w e t Obj.mxStallOperand).2 = true)
    (ho : (s.startShare w e t Obj.mxStallOperand).1.nextOut (mxOf e.raw) w q t = some o)
    (hf : s.fillingBank t (recKey w q) = none) (hb : s.freeBank t = some b)
    (hA : (mxOf e.raw).a.loc = 0) (hB : (mxOf e.raw).b.loc = 0) (hp : 0 < (mxOf e.raw).passes) (h : 16 < s.frames t) :
    ((s.runMatrix w e t).bank t b).use = .filling := by
  obtain rfl := State.entry_seq he
  obtain ⟨x, y, hx⟩ := s.startShare_tile w e t Obj.mxStallOperand
  generalize hv : s.startShare w e t Obj.mxStallOperand = v at hst ho hx
  obtain ⟨v, ok⟩ := v
  have hbanks : v.tile.banks = s.tile.banks := by rw [hx]
  have hpages : v.tile.pages = s.tile.pages := by rw [hx]
  obtain ⟨hb2, huse, hpass, hpg⟩ := State.takeBank_free (s := v) (d := mxOf e.raw) (o := o)
    ((State.fillingBank_congr hbanks _).trans hf) ((State.freeBank_congr hbanks).trans hb)
  generalize hz : v.takeBank w e (mxOf e.raw) t o = z at hb2 huse hpass hpg
  obtain ⟨z, i⟩ := z
  obtain ⟨n, hn⟩ := Nat.exists_eq_succ_of_ne_zero hp.ne'
  have hfr : 16 < z.frames t := by
    rwa [State.frames_congr (hpg.trans hpages)]
  simp only at hst ho hb2 huse hpass
  subst hb2
  simp only [State.runMatrix, hm, hs, hv, hst, ho, hz, hpass, hn, Nat.sub_zero]
  simp only [not_true_eq_false, Bool.false_eq_true, or_self, if_false]
  rw [State.runPasses_crowded hA hB hfr]
  exact huse

/-! ### The obligation on products -/

/-- A product of one engine tile by one engine tile over one block in tile 0, of layer 1: F8 operands and output in the scratchpad, unit
scales (Tables 3.5 to 3.8). -/
def oneBlockProduct : Rec :=
  [(56, 1), (53, 1), (98, 1), (176, 1), (159, 1), (143, 1), (216, 0x3F80), (280, 0x3F80), (346, 0x3F80)].foldl
    (fun r x => r ||| BitVec.ofNat 512 x.2 <<< x.1) 0

/-- The record of that product, dispatched as record 0. -/
def oneBlockEntry : QEntry := { QEntry.new oneBlockProduct none Window.reset with disp := true }

/-- A module with that record in window 0, and 17 resident pages in the cast stack of tile 0. -/
def crowdedState : State :=
  { State.reset with tile := { TileState.reset with pages := (List.range 17).map fun p => (p, .resident) } }.setWin 0
    { Window.reset with state := .opened, queue := [oneBlockEntry] }

/-- Refutes O9: its first clause sets no bound on the frames in use. With 17 resident pages in a tile, one more than the 16 frames of a
slice, the product of one block takes bank 0 and waits for a frame (R105), although it reads and writes no page: the bank is not full. -/
theorem not_productsAccumulateAndDrain : ¬ Obligations.ProductsAccumulateAndDrain := by
  unfold Obligations.ProductsAccumulateAndDrain
  intro h
  obtain ⟨hfirst, -⟩ := h
  have hconds : crowdedState.entry 0 0 = some oneBlockEntry ∧ Rec.kind oneBlockEntry.raw = 1 ∧ crowdedState.arrayOn = true ∧
      crowdedState.mayRun 0 oneBlockEntry 0 = true ∧ oneBlockEntry.skip = false ∧
      (crowdedState.startShare 0 oneBlockEntry 0 Obj.mxStallOperand).2 = true ∧
      (crowdedState.startShare 0 oneBlockEntry 0 Obj.mxStallOperand).1.nextOut (mxOf oneBlockEntry.raw) 0 0 0 = some 0 ∧
      crowdedState.fillingBank 0 (recKey 0 0) = none ∧ crowdedState.freeBank 0 = some 0 ∧
      (mxOf oneBlockEntry.raw).a.loc = 0 ∧ (mxOf oneBlockEntry.raw).b.loc = 0 := by decide +kernel
  have hcrowd : 0 < (mxOf oneBlockEntry.raw).passes ∧ 16 < crowdedState.frames 0 := by decide +kernel
  obtain ⟨he, hk, ha, hm, hs, hst, ho, hf, hb, hA, hB⟩ := hconds
  obtain ⟨t, ht, hbank, -⟩ := hfirst crowdedState 0 0 0 oneBlockEntry 0 0 he hk ha hm hs hst ho hf hb hA hB
  have hrun : exec (.matrix 0 0 0) crowdedState = .next (crowdedState.runMatrix 0 oneBlockEntry 0) := by
    show execMatrix 0 0 0 crowdedState = _
    simp [execMatrix, he, hk, ha]
  rw [hrun] at ht
  have hfilling := State.runMatrix_crowded he hm hs hst ho hf hb hA hB hcrowd.1 hcrowd.2
  have hfull : (t.bank 0 0).use = .full := congrArg Bank.use hbank
  rw [Host.Outcome.next.inj ht, hfull] at hfilling
  cases hfilling

end Sys2Proof.Machine
end

section
/-! SUPPORT. Page moves of the cast stack: which pages a watermark test moves, what a landed move makes of its page where the page table is
canonical, and the statement on cast-control records, which asks it of every table. -/
namespace Sys2Proof.Machine

variable {s : State} {t u p q : Nat}

/-! ### The page table -/

/-- In a canonical table an entry that is listed is the one found at its key. -/
theorem Tab.get_of_mem {α : Type} [DecidableEq α] {d : α} {m : Tab α} (h : Tab.wf d m) {e : Nat × α} (he : e ∈ m) : m.get d e.1 = e.2 := by
  obtain ⟨hsort, -⟩ := h
  induction m with
  | nil => simp at he
  | cons c m ih =>
    obtain ⟨hc, hm⟩ := List.pairwise_cons.1 hsort
    rcases List.mem_cons.1 he with rfl | he
    · simp [Tab.get, Tab.find]
    · rw [← ih he hm, Tab.get, Tab.get, Tab.find, if_neg (hc e he).ne]

/-- The page table is canonical: its keys rise, so it lists a page once. -/
def State.PagesForm (s : State) : Prop := Tab.wf .absent s.tile.pages

theorem State.PagesForm.setPage (h : s.PagesForm) {x : PageUse} : (s.setPage t p x).PagesForm := Tab.set_wf _ x h

theorem State.page_congr {v : State} (h : v.tile.pages = s.tile.pages) (t p : Nat) : v.page t p = s.page t p := by
  rw [State.page, State.page, h]

@[simp] theorem State.page_setPage_self {x : PageUse} : (s.setPage t p x).page t p = x := Tab.get_set_self _ _ _ x

/-- Setting a page leaves a page of another state as it is, or finds it in the state that the first was in: the two are one page. -/
theorem State.page_setPage {x : PageUse} :
    (s.setPage t p x).page u q = s.page u q ∨ (s.page u q = s.page t p ∧ (s.setPage t p x).page u q = x) := by
  by_cases h : u * 2 ^ 25 + q = t * 2 ^ 25 + p
  · refine .inr ⟨by rw [State.page, State.page, h], ?_⟩
    rw [State.page, h]
    exact State.page_setPage_self
  · exact .inl (Tab.get_set_ne _ x h)

theorem State.page_of_mem_tilePages (h : s.PagesForm) {x : Nat × PageUse} (hx : x ∈ s.tilePages t) : s.page t x.1 = x.2 := by
  obtain ⟨e, he, rfl⟩ := List.mem_map.1 hx
  obtain ⟨hmem, ht⟩ := List.mem_filter.1 he
  have hkey : t * 2 ^ 25 + e.1 % 2 ^ 25 = e.1 := by
    rw [← beq_iff_eq.1 ht]
    exact Nat.div_add_mod' e.1 (2 ^ 25)
  rw [State.page, hkey]
  exact Tab.get_of_mem h hmem

/-! ### The watermark test (R104) -/

/-- A page that meets `P` still does after the watermark test has started a move on it. -/
structure MoveClosed (P : PageUse → Prop) : Prop where
  out : P .resident → P .movingOut
  back : P .spilled → P .movingIn

/-- A move of the watermark test starts on a listed page that is resident or spilled. -/
theorem State.castMove_cases (s : State) (t : Nat) :
    s.castMove t = s ∨ ∃ x ∈ s.tilePages t, (x.2 = .resident ∧ s.castMove t = s.setPage t x.1 .movingOut) ∨
      (x.2 = .spilled ∧ s.castMove t = s.setPage t x.1 .movingIn) := by
  unfold State.castMove
  extract_lets ps used
  split
  · exact .inl rfl
  · split
    · split
      · next x hx =>
        have hres := List.find?_some hx
        simp only [Bool.and_eq_true, beq_iff_eq] at hres
        exact .inr ⟨x, List.mem_of_find?_eq_some hx, .inl ⟨hres.1, rfl⟩⟩
      · exact .inl rfl
    · split
      · split
        · next x hx =>
          have hsp := List.find?_some hx
          simp only [Bool.and_eq_true, beq_iff_eq] at hsp
          exact .inr ⟨x, List.mem_reverse.1 (List.mem_of_find?_eq_some hx), .inr ⟨hsp.1, rfl⟩⟩
        · exact .inl rfl
      · exact .inl rfl

theorem State.PagesForm.castMove (h : s.PagesForm) : (s.castMove t).PagesForm := by
  rcases s.castMove_cases t with e | ⟨x, -, ⟨-, e⟩ | ⟨-, e⟩⟩ <;> rw [e]
  exacts [h, h.setPage, h.setPage]

theorem State.page_castMove {P : PageUse → Prop} (hP : MoveClosed P) (h : s.PagesForm) (hp : P (s.page u q)) :
    P ((s.castMove t).page u q) := by
  rcases s.castMove_cases t with e | ⟨x, hx, ⟨hres, e⟩ | ⟨hsp, e⟩⟩ <;> rw [e]
  · exact hp
  · rcases State.page_setPage (s := s) (u := u) (q := q) with e' | ⟨hold, e'⟩ <;> rw [e']
    · exact hp
    · rw [hold, State.page_of_mem_tilePages h hx, hres] at hp
      exact hP.out hp
  · rcases State.page_setPage (s := s) (u := u) (q := q) with e' | ⟨hold, e'⟩ <;> rw [e']
    · exact hp
    · rw [hold, State.page_of_mem_tilePages h hx, hsp] at hp
      exact hP.back hp

theorem State.page_castTest {P : PageUse → Prop} (hP : MoveClosed P) (h : s.PagesForm) (hp : P (s.page u q)) :
    P ((s.castTest t).page u q) :=
  (List.foldlRecOn (motive := fun v : State => v.PagesForm ∧ P (v.page u q)) _ _ ⟨h, hp⟩
    fun _ hv _ _ => ⟨hv.1.castMove, State.page_castMove hP hv.1 hv.2⟩).2

/-! ### A move that lands (R103, R106) -/

/-- A move lands: its page is in its new state, its bytes are counted, and the watermarks are tested again. -/
def State.landPage (s : State) (t p : Nat) (x : PageUse) (counter : Nat) : State :=
  (((s.setPage t p x).count counter 1).delivered 65536).castTest t

theorem State.landPage_lands {x : PageUse} {k : Nat} {P : PageUse → Prop} (hP : MoveClosed P) (h : s.PagesForm) (hx : P x)
    (hk : k ≠ Obj.dnBytes) (he : eventKey k = false) :
    P ((s.landPage t p x k).page t p) ∧ (s.landPage t p x k).rd k = (s.rd k + 1) % 2 ^ 64 ∧
    (s.landPage t p x k).tile.castMem = s.tile.castMem := by
  have htile : (((s.setPage t p x).count k 1).delivered 65536).tile = (s.setPage t p x).tile :=
    (State.count_tile _ _ _).trans (State.count_tile _ k 1)
  have hrd : (((s.setPage t p x).count k 1).delivered 65536).rd k = (s.rd k + 1) % 2 ^ 64 :=
    (State.rd_count_ne hk).trans (State.rd_count_self _ k 1)
  unfold State.landPage
  generalize ((s.setPage t p x).count k 1).delivered 65536 = v at htile hrd ⊢
  have hpages : v.tile.pages = (s.setPage t p x).tile.pages := by rw [htile]
  have hform : v.PagesForm := by
    rw [State.PagesForm, hpages]
    exact h.setPage
  have hpage : P (v.page t p) := by rwa [State.page_congr hpages, State.page_setPage_self]
  have hw : Within ⟨[.tile], fun _ => False⟩ v (v.castTest t) := State.castTest_within (by decide) (.refl _ v)
  refine ⟨State.page_castTest hP hform hpage, ?_, ?_⟩
  · exact (((hw.objs k).resolve_left id).resolve_left (by simp [he])).trans hrd
  · have hmem : (v.castTest t).tile.castMem = v.tile.castMem := (hw.same .castMem).resolve_left (by decide)
    rw [hmem, htile]
    rfl

section
variable {t : Fin 192} (hf : s.PagesForm)
include hf

/-- A page that has moved out is spilled, or on its way in again, and counted. -/
theorem exec_castPageMoveDone_movingOut (h : s.page t p = .movingOut) :
    ∃ v, exec (.castPageMoveDone t p) s = .next v ∧ (v.page t p = .spilled ∨ v.page t p = .movingIn) ∧
      v.rd Obj.castPagesSpilled = (s.rd Obj.castPagesSpilled + 1) % 2 ^ 64 ∧ v.tile.castMem = s.tile.castMem := by
  have hdone : s.castMoveDone t p = s.landPage t p .spilled Obj.castPagesSpilled := by rw [State.castMoveDone, h]; rfl
  exact ⟨_, congrArg Host.Outcome.next hdone,
    State.landPage_lands (P := fun x => x = .spilled ∨ x = .movingIn) ⟨by simp, by simp⟩ hf (.inl rfl) (by decide) (by decide)⟩

/-- A page that has moved in is resident, or on its way out again, and counted. -/
theorem exec_castPageMoveDone_movingIn (h : s.page t p = .movingIn) :
    ∃ v, exec (.castPageMoveDone t p) s = .next v ∧ (v.page t p = .resident ∨ v.page t p = .movingOut) ∧
      v.rd Obj.castPagesRefilled = (s.rd Obj.castPagesRefilled + 1) % 2 ^ 64 ∧ v.tile.castMem = s.tile.castMem := by
  have hdone : s.castMoveDone t p = s.landPage t p .resident Obj.castPagesRefilled := by rw [State.castMoveDone, h]; rfl
  exact ⟨_, congrArg Host.Outcome.next hdone,
    State.landPage_lands (P := fun x => x = .resident ∨ x = .movingOut) ⟨by simp, by simp⟩ hf (.inl rfl) (by decide) (by decide)⟩

/-- A page that a pop has freed while it moved is gone. -/
theorem exec_castPageMoveDone_dropped (h : s.page t p = .dropOut ∨ s.page t p = .dropIn) :
    ∃ v, exec (.castPageMoveDone t p) s = .next v ∧ v.page t p = .absent ∧ v.tile.castMem = s.tile.castMem := by
  have hdone : ∃ k, k ≠ Obj.dnBytes ∧ eventKey k = false ∧ s.castMoveDone t p = s.landPage t p .absent k := by
    rcases h with h | h <;> rw [State.castMoveDone, h]
    · exact ⟨Obj.castPagesSpilled, by decide, by decide, rfl⟩
    · exact ⟨Obj.castPagesRefilled, by decide, by decide, rfl⟩
  obtain ⟨k, hk, he, hdone⟩ := hdone
  obtain ⟨hpage, -, hmem⟩ := State.landPage_lands (t := t) (p := p) (P := (· = .absent)) ⟨nofun, nofun⟩ hf rfl hk he
  exact ⟨_, congrArg Host.Outcome.next hdone, hpage, hmem⟩

end

/-! ### The obligation on cast-control records -/

/-- The module at reset but for tile 0: one open cast of two pages, and a page table that lists page 0 twice, moving in and spilled. -/
def twiceListed : State :=
  { State.reset with
    tile := { TileState.reset with
      stack := [(0, [{ base := 0, len := 131072, layer := 1, mb := 0, form := 0, step := 0, use := .opened, win := 0, seq := 0, tag := 0 }])]
      pages := [(0, .movingIn), (0, .spilled)] } }

/-- Refutes O8: its clauses on page moves ask nothing of the page table. Where the table lists page 0 twice, first as moving in and then as
spilled, the page that lands is resident, the watermark test finds the second entry and starts its refill (R104), and the page is moving
in again, neither resident nor moving out. Where the table is canonical the three clauses hold: `exec_castPageMoveDone_movingOut`,
`exec_castPageMoveDone_movingIn` and `exec_castPageMoveDone_dropped`. -/
theorem not_castControlRecordsRun : ¬ Obligations.CastControlRecordsRun := by
  unfold Obligations.CastControlRecordsRun
  intro h
  obtain ⟨-, -, -, -, -, -, -, -, hrefill, -⟩ := h
  have hstart : twiceListed.page 0 0 = .movingIn := by decide
  have hend : (twiceListed.castMoveDone 0 0).page 0 0 = .movingIn := by decide +kernel
  obtain ⟨t, ht, hpage, -⟩ := hrefill twiceListed 0 0 hstart
  obtain rfl : twiceListed.castMoveDone 0 0 = t := Host.Outcome.next.inj ht
  rcases hpage with hpage | hpage <;> exact absurd (hend.symm.trans hpage) (by decide)

end Sys2Proof.Machine
end

section
/-! SUPPORT. Vector records in a tile: which bytes of the tiles they write, which shares have run, and the statement on their commands. -/
namespace Sys2Proof.Machine

variable {s v x : State} {w q u : Nat} {e : QEntry} {d : Vx}

/-! ### The bytes of scratchpads and cast stacks -/

/-- The scratchpads and cast stacks of `v` hold the bytes that those of `s` hold. -/
structure SameBytes (s v : State) : Prop where
  scratch : v.tile.scratch = s.tile.scratch
  castMem : v.tile.castMem = s.tile.castMem

theorem SameBytes.refl (s : State) : SameBytes s s := ⟨rfl, rfl⟩

theorem SameBytes.trans (h₁ : SameBytes s v) (h₂ : SameBytes v x) : SameBytes s x :=
  ⟨h₂.scratch.trans h₁.scratch, h₂.castMem.trans h₁.castMem⟩

/-- The parts, but for the bytes, that the commands on vector records may change. -/
def offBytes : Scope := ⟨[.tile, .cmd, .tier, .free], fun _ => True⟩

theorem Within.sameBytes (h : Within offBytes s v) : SameBytes s v :=
  ⟨(h.same .scratch).resolve_left (by decide), (h.same .castMem).resolve_left (by decide)⟩

/-- An operation whose `Within` law names no bytes leaves them alone. Any object may change: the law's conditions on keys find `True`
among the hypotheses. -/
theorem SameBytes.quiet (h : True → Within offBytes s v) : SameBytes s v := (h trivial).sameBytes

/-! Stores of the same values over the same bytes leave the same bytes. -/

theorem SameBytes.putByte (h : SameBytes s v) (t : Nat) (cast : Bool) (a b : Nat) :
    SameBytes (s.putByte t cast a b) (v.putByte t cast a b) := by
  cases cast
  · exact ⟨congrArg (Tab.set 0 · _ _) h.scratch, h.castMem⟩
  · exact ⟨h.scratch, congrArg (Tab.set 0 · _ _) h.castMem⟩

theorem SameBytes.putBytes (h : SameBytes s v) (t : Nat) (cast : Bool) (l : List (Nat × Nat)) :
    SameBytes (s.putBytes t cast l) (v.putBytes t cast l) :=
  List.foldl_rel (r := SameBytes) h fun p _ _ _ h => h.putByte t cast p.1 p.2

theorem SameBytes.storeLine (h : SameBytes s v) (t : Nat) (cast : Bool) (f : Fmt) (scale : Val) (codes scales et r kind layer dir : Nat)
    (xs : List OutVal) : SameBytes (s.storeLine t cast f scale codes scales et r kind layer dir xs)
      (v.storeLine t cast f scale codes scales et r kind layer dir xs) := by
  unfold State.storeLine
  refine SameBytes.putBytes ?_ t cast _
  cases cast
  · exact ⟨h.scratch, h.castMem⟩
  · exact ⟨h.scratch, h.castMem⟩

theorem SameBytes.storeTensor (h : SameBytes s v) (hb : v.outBase d u = s.outBase d u) (g : Nat → Nat → Lane) :
    SameBytes (s.storeTensor d u g) (v.storeTensor d u g) := by
  unfold State.storeTensor
  rw [hb]
  split
  · exact h
  · exact List.foldl_rel (r := SameBytes) h fun i _ _ _ h => List.foldl_rel (r := SameBytes) h fun j _ _ _ h =>
      List.foldl_rel (r := SameBytes) h fun r _ _ _ h => h.storeLine ..

/-! ### Shares -/

@[simp] theorem State.share_setShare_self {y : Share} : (s.setShare w q u y).share w q u = y := Tab.get_set_self _ _ _ y

theorem State.share_setShare_ne {w₂ q₂ u₂ : Nat} {y : Share} (h : shareKey w₂ q₂ u₂ ≠ shareKey w q u) :
    (s.setShare w q u y).share w₂ q₂ u₂ = s.share w₂ q₂ u₂ := Tab.get_set_ne _ y h

theorem State.share_congr (h : v.tile.shares = s.tile.shares) (w q u : Nat) : v.share w q u = s.share w q u := by
  rw [State.share, State.share, h]

/-- The shares that have run in `v` are those that had run in `s`. -/
def SameRan (s v : State) : Prop := ∀ w q u, (v.share w q u).ran = (s.share w q u).ran

theorem SameRan.refl (s : State) : SameRan s s := fun _ _ _ => rfl

theorem SameRan.trans (h₁ : SameRan s v) (h₂ : SameRan v x) : SameRan s x := fun w q u => (h₂ w q u).trans (h₁ w q u)

theorem SameRan.of_shares (h : v.tile.shares = s.tile.shares) : SameRan s v := fun w q u => by rw [State.share_congr h]

/-- A share is set that has run as the one before had. -/
theorem State.setShare_sameRan {y : Share} (hy : y.ran = (s.share w q u).ran) : SameRan s (s.setShare w q u y) := by
  intro w₂ q₂ u₂
  by_cases h : shareKey w₂ q₂ u₂ = shareKey w q u
  · have hshare (z : State) : z.share w₂ q₂ u₂ = z.share w q u := by rw [State.share, State.share, h]
    rw [hshare, hshare, State.share_setShare_self, hy]
  · rw [State.share_setShare_ne h]

theorem SameRan.foldl {α : Type} {f : State → α → State} (hf : ∀ v a, SameRan v (f v a)) (l : List α) (s : State) :
    SameRan s (l.foldl f s) := by
  induction l generalizing s with
  | nil => exact .refl s
  | cons a l ih => exact (hf s a).trans (ih _)

/-- The same for a fold that carries something beside the state. -/
theorem SameRan.foldlFst {α β : Type} {f : State × β → α → State × β} (hf : ∀ p a, SameRan p.1 (f p a).1) (l : List α) (p : State × β) :
    SameRan p.1 (l.foldl f p).1 := by
  induction l generalizing p with
  | nil => exact .refl p.1
  | cons a l ih => exact (hf p a).trans (ih _)

/-! ### Until a record runs, no share has run that had not -/

theorem State.beginWait_sameRan : SameRan s (s.beginWait w q u) := by
  unfold State.beginWait
  extract_lets y
  split
  · exact .refl s
  · exact State.setShare_sameRan rfl

theorem State.endWait_sameRan {c : Nat} : SameRan s (s.endWait w q u c) := by
  unfold State.endWait
  extract_lets y
  split
  · exact .refl s
  · exact State.setShare_sameRan (s := s.count _ _) rfl

theorem State.startShare_sameRan {c : Nat} : SameRan s (s.startShare w e u c).1 := by
  unfold State.startShare
  extract_lets y
  split
  · exact .refl s
  · split
    · exact State.setShare_sameRan rfl
    · split
      · exact State.beginWait_sameRan
      · exact State.setShare_sameRan (s := (s.count _ _).setSem _ _ _) rfl

theorem State.spillOne_sameRan {b : Bool} : SameRan s (s.spillOne u b) := by
  unfold State.spillOne
  extract_lets ps
  split
  · exact .refl s
  · split
    · exact .refl s
    · split
      · exact .of_shares rfl
      · exact .refl s

theorem State.needRead_sameRan {p : Nat} : SameRan s (s.needRead u p).1 := by
  unfold State.needRead
  split
  · exact .refl s
  · exact .refl s
  · split
    · split
      · exact .of_shares rfl
      · exact .refl s
    · exact State.spillOne_sameRan
  · exact .refl s

theorem State.needWrites_sameRan {ps : List Nat} : SameRan s (s.needWrites u ps).1 := by
  unfold State.needWrites
  split
  · exact .refl s
  · split
    · exact .refl s
    · exact State.spillOne_sameRan

theorem State.needPages_sameRan {rs ws : List Nat} : SameRan s (s.needPages u rs ws).1 := by
  unfold State.needPages
  dsimp only
  refine SameRan.trans ?_ State.needWrites_sameRan
  refine SameRan.foldlFst (fun p a => ?_) rs (s, true)
  exact State.needRead_sameRan

theorem State.pageGate_sameRan {b : Bool} : SameRan s (s.pageGate w q u b) := by
  unfold State.pageGate
  extract_lets y
  split
  · exact State.setShare_sameRan (s := s.count _ _) rfl
  · exact State.setShare_sameRan rfl
  · exact .refl s

theorem State.createPages_sameRan {ps : List Nat} : SameRan s (s.createPages u ps) :=
  (SameRan.foldl (f := fun v p => v.setPage u p .resident) (fun _ _ => .of_shares rfl) (s.newPages u ps) s).trans (.of_shares rfl)

theorem State.pagesFor_sameRan {rs ws : List Nat} : SameRan s (s.pagesFor w q u rs ws).1 := by
  have h : SameRan s ((s.needPages u rs ws).1.pageGate w q u (s.needPages u rs ws).2) :=
    State.needPages_sameRan.trans State.pageGate_sameRan
  unfold State.pagesFor
  dsimp only
  split
  · exact h.trans State.createPages_sameRan
  · exact h

theorem State.startVector_sameRan : SameRan s (s.startVector w e u).1 := by
  have h := State.startShare_sameRan (s := s) (w := w) (e := e) (u := u) (c := Obj.vxWaitCycles)
  unfold State.startVector
  extract_lets d
  split
  · exact .refl s
  · dsimp only
    split
    · exact h
    · split
      · exact h.trans State.beginWait_sameRan
      · split
        · exact h.trans State.pagesFor_sameRan
        · exact (h.trans State.pagesFor_sameRan).trans State.endWait_sameRan

theorem State.startVector_bytes : SameBytes s (s.startVector w e u).1 :=
  .quiet fun _ => State.startVector_within (by decide) (.refl _ s)

/-- A record that runs has not run before. -/
theorem State.startVector_ran (h : (s.startVector w e u).2 = true) : (s.share w e.seq u).ran = false := by
  unfold State.startVector at h
  extract_lets d at h
  split at h
  · cases h
  · next hc => simpa using (not_or.1 (not_or.1 hc).2).2

theorem State.updPage_tile {h p : Nat} {f : RPage → RPage} : (s.updPage h p f).tile = s.tile := by
  unfold State.updPage
  split <;> rfl

theorem State.endPageWait_tile {k : Nat} : (s.endPageWait k).tile = s.tile := by
  unfold State.endPageWait
  split <;> rfl

theorem foldl_tile {α : Type} {f : State → α → State} (hf : ∀ v a, (f v a).tile = v.tile) (l : List α) (s : State) :
    (l.foldl f s).tile = s.tile :=
  List.foldlRecOn (motive := fun v : State => v.tile = s.tile) l f rfl fun v h a _ => (hf v a).trans h

theorem State.access_tile {k n h : Nat} {ps : List Nat} : (s.access k n h ps).1.tile = s.tile := by
  unfold State.access
  split
  · rfl
  · next r _ =>
    extract_lets busy
    split
    · refine State.endPageWait_tile.trans (foldl_tile (fun v p => ?_) ps s)
      exact State.updPage_tile
    · refine foldl_tile (fun v p => ?_) busy s
      split
      · exact State.updPage_tile
      · rfl

theorem State.hitStatus_tile {h : Nat} : (s.hitStatus w q h).tile = s.tile := by
  unfold State.hitStatus
  dsimp only
  split
  · split
    · rw [State.haltWin_tile, State.updEntry_tile]
    · exact State.updEntry_tile ..
  · exact State.updEntry_tile ..

theorem State.gatherReady_sameRan : SameRan s (s.gatherReady w q d u).1 := by
  unfold State.gatherReady
  extract_lets idx
  split
  · split
    · exact .refl s
    · extract_lets rs
      dsimp only
      split
      · exact .of_shares (by rw [State.access_tile])
      · split
        · exact .of_shares (by rw [State.hitStatus_tile, State.access_tile])
        · exact .of_shares (by rw [State.access_tile])
  · split
    · dsimp only
      refine SameRan.trans ?_ State.pageGate_sameRan
      refine SameRan.foldlFst (fun p a => ?_) _ (s, true)
      dsimp only
      exact State.needPages_sameRan
    · exact .refl s

theorem State.gatherReady_bytes : SameBytes s (s.gatherReady w q d u).1 :=
  .quiet fun _ => State.gatherReady_within (by decide) (by decide) (by decide) (.refl _ s)

/-! ### A record that has run -/

theorem State.castTest_shares : (s.castTest u).tile.shares = s.tile.shares := by
  unfold State.castTest
  refine List.foldlRecOn (motive := fun v : State => v.tile.shares = s.tile.shares) _ _ rfl fun v h i _ => ?_
  rcases v.castMove_cases u with e | ⟨y, -, ⟨-, e⟩ | ⟨-, e⟩⟩ <;> rw [e] <;> exact h

/-- The record's share in the tile has run. -/
theorem State.ranVector_ran : ((s.ranVector w e u).share w e.seq u).ran = true := by
  have h : (s.ranVector w e u).tile.shares = (s.setShare w e.seq u { s.share w e.seq u with ran := true }).tile.shares := by
    unfold State.ranVector
    extract_lets d _ v₁ v₂ v₃
    have h₃ : v₃.tile.shares = v₁.tile.shares := by
      unfold v₃
      split <;> rfl
    split
    · exact State.castTest_shares.trans h₃
    · exact h₃
  rw [State.share_congr h, State.share_setShare_self]

theorem State.ranVector_bytes : SameBytes s (s.ranVector w e u) :=
  .quiet fun _ => State.ranVector_within (by decide) (by decide) (.refl _ s)

theorem State.indexed_bytes {n bad : Nat} : SameBytes s (s.indexed w e n bad) :=
  .quiet fun _ => State.indexed_within (by decide) (.refl _ s)

theorem State.tally_bytes {kind layer dir : Nat} {cs sh : List Cls} : SameBytes s (s.tally kind layer dir cs sh) := ⟨rfl, rfl⟩

/-! ### Work of a step -/

/-- What the work of a step sees is the state but for the counts. -/
theorem State.seen_tile (s : State) (m : Option Nat) : ∃ c, s.seen m = { s with tile := { s.tile with counts := c } } := by
  unfold State.seen
  split
  · split
    · exact ⟨_, rfl⟩
    · exact ⟨_, rfl⟩
  · exact ⟨_, rfl⟩

/-- What the work of a step leaves is what it made of the state it saw, but for the counts. -/
theorem State.inStep_tile (s : State) (m : Option Nat) (f : State → State) :
    ∃ c l, (s.inStep m f).tile = { (f (s.seen m)).tile with counts := c, later := l } := by
  cases m with
  | none => exact ⟨_, _, rfl⟩
  | some m =>
    cases hn : s.cmd.stepNow with
    | none =>
      have hseen : s.seen (some m) = s := by simp only [State.seen, hn]
      have hrun : s.inStep (some m) f = f s := by simp only [State.inStep, hn]
      rw [hseen, hrun]
      exact ⟨_, _, rfl⟩
    | some n =>
      by_cases hm : n < m
      · have hseen : s.seen (some m) = { s with tile := { s.tile with counts := s.tile.later.get [] m } } := by
          simp only [State.seen, hn, if_pos hm]
        rw [hseen]
        simp only [State.inStep, hn, if_pos hm]
        exact ⟨_, _, rfl⟩
      · have hseen : s.seen (some m) = s := by simp only [State.seen, hn, if_neg hm]
        have hrun : s.inStep (some m) f = f s := by simp only [State.inStep, hn, if_neg hm]
        rw [hseen, hrun]
        exact ⟨_, _, rfl⟩

theorem State.seen_share (s : State) (m : Option Nat) (w q u : Nat) : (s.seen m).share w q u = s.share w q u := by
  obtain ⟨c, h⟩ := s.seen_tile m
  rw [h]
  rfl

theorem State.seen_bytes (s : State) (m : Option Nat) : SameBytes s (s.seen m) := by
  obtain ⟨c, h⟩ := s.seen_tile m
  rw [h]
  exact ⟨rfl, rfl⟩

theorem State.seen_startVector_bytes {m : Option Nat} : SameBytes s ((s.seen m).startVector w e u).1 :=
  (s.seen_bytes m).trans State.startVector_bytes

theorem State.seen_castBase (s : State) (m : Option Nat) (u : Nat) : (s.seen m).castBase u = s.castBase u := by
  obtain ⟨c, h⟩ := s.seen_tile m
  rw [h]
  rfl

section
variable {w : Fin 8} {q kind : Nat} {u : Fin 192} {f : State → QEntry → State} (he : s.entry w q = some e) (hk : Rec.kind e.raw = 2)
  (hv : (vxOf e.raw).kind = kind) (ha : s.arrayOn = true)
include he hk hv ha

/-- A command on a vector record in place leaves the bytes and the shares that its work leaves. -/
theorem onVector_works : ∃ t, onVector w q kind s f = .next t ∧ SameBytes (f (s.seen e.step) e) t ∧
    t.tile.shares = (f (s.seen e.step) e).tile.shares := by
  obtain ⟨c, l, h⟩ := s.inStep_tile e.step fun s => f s e
  exact ⟨_, onVector_runs he hk hv ha, ⟨by rw [h], by rw [h]⟩, by rw [h]⟩

/-- The record runs: its work stores bytes, and then the record has run. -/
theorem onVector_ran (hf : f (s.seen e.step) e = x.ranVector w e u) (hb : SameBytes v x) :
    ∃ t, onVector w q kind s f = .next t ∧ (t.share w q u).ran = true ∧ t.tile.scratch = v.tile.scratch ∧
      t.tile.castMem = v.tile.castMem := by
  obtain rfl := State.entry_seq he
  obtain ⟨t, ht, hbytes, hshares⟩ := onVector_works (f := f) he hk hv ha
  rw [hf] at hbytes hshares
  have h : SameBytes v t := (hb.trans State.ranVector_bytes).trans hbytes
  exact ⟨t, ht, by rw [State.share_congr hshares, State.ranVector_ran], h.scratch, h.castMem⟩

/-- The record waits: no byte changes, and it has not run. -/
theorem onVector_waits (hr : (s.share w q u).ran = false) (hb : SameBytes (s.seen e.step) (f (s.seen e.step) e))
    (hs : SameRan (s.seen e.step) (f (s.seen e.step) e)) :
    ∃ t, onVector w q kind s f = .next t ∧ (t.share w q u).ran = false ∧ t.tile.scratch = s.tile.scratch := by
  obtain ⟨t, ht, hbytes, hshares⟩ := onVector_works (f := f) he hk hv ha
  exact ⟨t, ht, by rw [State.share_congr hshares, hs, State.seen_share, hr], (((s.seen_bytes e.step).trans hb).trans hbytes).scratch⟩

/-- It waits where its work is no more than to try to begin it. -/
theorem onVector_idles (hr : (s.share w q u).ran = false) (hf : f (s.seen e.step) e = ((s.seen e.step).startVector w e u).1) :
    ∃ t, onVector w q kind s f = .next t ∧ (t.share w q u).ran = false ∧ t.tile.scratch = s.tile.scratch :=
  onVector_waits he hk hv ha hr (hf ▸ State.startVector_bytes) (hf ▸ State.startVector_sameRan)

end

/-! ### What each command makes of a record that begins, and of one that does not -/

/-- A pair whose second component is known. -/
theorem pair_of_snd {α : Type} {p : State × α} {b : α} (h : p.2 = b) : p = (p.1, b) := Prod.ext rfl h

section
variable (h : s.startVector w e u = (v, true))
include h

theorem State.vectorMap_runs : s.vectorMap w e u = (v.storeTensor (vxOf e.raw) u (v.mapAt (vxOf e.raw) u)).ranVector w e u := by
  simp [State.vectorMap, h]

theorem State.vmap_runs : s.vmap w e u = (v.storePlain (vxOf e.raw) u ((List.range (vxOf e.raw).count).map fun i =>
    v.mapAt (vxOf e.raw) u (i / (32 * (vxOf e.raw).nEt)) (i % (32 * (vxOf e.raw).nEt)))).ranVector w e u := by
  simp [State.vmap, h]

theorem State.vectorReduce_runs (hc : (s.share w e.seq u).combined = none) (hp : (s.share w e.seq u).partials = none)
    (hr : (vxOf e.raw).redTiles = false) :
    s.vectorReduce w e u = (v.storePlain (vxOf e.raw) u (v.reduceOf (vxOf e.raw) u)).ranVector w e u := by
  simp [State.vectorReduce, h, hc, hp, hr]

/-- A reduction across tiles hands its results over and has not run. -/
theorem State.vectorReduce_handsOver (hc : (s.share w e.seq u).combined = none) (hp : (s.share w e.seq u).partials = none)
    (hr : (vxOf e.raw).redTiles = true) : s.vectorReduce w e u =
      v.setShare w e.seq u { v.share w e.seq u with partials := some ((v.reduceOf (vxOf e.raw) u).map Lane.word) } := by
  simp [State.vectorReduce, h, hc, hp, hr]

theorem State.gather_waits (hg : v.gatherReady w e.seq (vxOf e.raw) u = (x, false)) : s.gather w e u = x := by
  simp [State.gather, h, hg]

/-- A gather stores the chain over the elements that its indices name; the bytes delivered for them only count. -/
theorem State.gather_runs (hg : v.gatherReady w e.seq (vxOf e.raw) u = (x, true)) :
    ∃ y, s.gather w e u = y.ranVector w e u ∧
      SameBytes (x.storeTensor (vxOf e.raw) u fun i j => x.chainAt (vxOf e.raw) u i j
        ((x.gathered (vxOf e.raw) u (32 * (vxOf e.raw).nEt * i + j)).getD Lane.nan)) y := by
  have hx : SameBytes x (x.delivered (x.gatherBytes (vxOf e.raw) u)) := ⟨rfl, rfl⟩
  simp only [State.gather, h, hg, not_true_eq_false, if_false]
  exact ⟨_, rfl, (hx.storeTensor rfl _).trans State.indexed_bytes⟩

theorem State.scatter_runs : ∃ y, s.scatter w e u = y.ranVector w e u ∧ SameBytes (v.scatterStore (vxOf e.raw) u).1 y := by
  simp only [State.scatter, h, not_true_eq_false, if_false]
  exact ⟨_, rfl, State.tally_bytes.trans State.indexed_bytes⟩

end

section
variable (h : (s.startVector w e u).2 = false)
include h

theorem State.vectorMap_idles : s.vectorMap w e u = (s.startVector w e u).1 := by simp [State.vectorMap, h]

theorem State.vmap_idles : s.vmap w e u = (s.startVector w e u).1 := by simp [State.vmap, h]

/-- A reduction that does not begin waits, or has handed its results over before. -/
theorem State.vectorReduce_idles (hc : (s.share w e.seq u).combined = none) :
    s.vectorReduce w e u = s ∨ s.vectorReduce w e u = (s.startVector w e u).1 := by
  cases hp : (s.share w e.seq u).partials with
  | some p => exact .inl (by simp [State.vectorReduce, hc, hp])
  | none => exact .inr (by simp [State.vectorReduce, h, hc, hp])

theorem State.gather_idles : s.gather w e u = (s.startVector w e u).1 := by simp [State.gather, h]

theorem State.scatter_idles : s.scatter w e u = (s.startVector w e u).1 := by simp [State.scatter, h]

end

/-- The combined results of a reduction across tiles are stored once the pages written are ready. -/
theorem State.vectorReduce_stores {l : List Nat} (hc : (s.share w e.seq u).combined = some l) (hr : (s.share w e.seq u).ran = false)
    (hp : s.pagesFor w e.seq u [] (rangePages (s.castBase u) (castWrites e.raw u)) = (v, true)) :
    s.vectorReduce w e u = (v.storePlain (vxOf e.raw) u (l.map wordLane)).ranVector w e u := by
  simp [State.vectorReduce, hc, hr, hp]

/-! ### The fold of a reduction across tiles (R138) -/

/-- The combined results of the tiles of a list are those that each is given. -/
theorem State.foldl_combined {acc : List Nat} {tiles : List Nat} (hu : u ∈ tiles ∨ (s.share w q u).combined = some acc) :
    ((tiles.foldl (fun s t => s.setShare w q t { s.share w q t with combined := some acc }) s).share w q u).combined = some acc := by
  induction tiles generalizing s with
  | nil => simpa using hu
  | cons t tiles ih =>
    refine ih ?_
    by_cases ht : u = t
    · subst ht
      exact .inr (by simp)
    · refine hu.imp (fun h => (List.mem_cons.1 h).resolve_left ht) fun h => ?_
      rwa [State.share_setShare_ne]
      simpa [shareKey] using ht

/-- Once the results `p` and `r` of all tiles are there, each tile of the set gets their fold in ascending tile order. -/
theorem State.tileFold_combined {p : List Nat} {r : List (List Nat)} {i : Nat} (hr : (vxOf e.raw).redTiles = true) (hd : e.disp = true)
    (hc : (s.share w e.seq (vxOf e.raw).tf).combined = none)
    (hp : ((List.range ((vxOf e.raw).tl - (vxOf e.raw).tf + 1)).map fun i => (s.share w e.seq ((vxOf e.raw).tf + i)).partials) =
      (p :: r).map some) (hi : i ≤ (vxOf e.raw).tl - (vxOf e.raw).tf) :
    ((s.tileFold w e).share w e.seq ((vxOf e.raw).tf + i)).combined =
      some (r.foldl (fun a b => List.zipWith (fun x y => (redStep (vxOf e.raw).redOp (wordLane x) (wordLane y)).word) a b) p) := by
  have hmem : (vxOf e.raw).tf + i ∈ (List.range ((vxOf e.raw).tl - (vxOf e.raw).tf + 1)).map ((vxOf e.raw).tf + ·) :=
    List.mem_map_of_mem (List.mem_range.2 (Nat.lt_succ_of_le hi))
  have hall : ((p :: r).map some).any Option.isNone = false := by simp
  have hparts : ((p :: r).map some).filterMap id = p :: r := by simp
  have hfold := State.foldl_combined (s := s) (w := w) (q := e.seq) (acc := r.foldl (fun a b => List.zipWith (fun x y =>
    (redStep (vxOf e.raw).redOp (wordLane x) (wordLane y)).word) a b) p) (.inl hmem)
  rw [← hfold]
  unfold State.tileFold
  simp only [List.map_map, Function.comp_def, hp, hall, hparts, hr, hd, hc]
  rfl

/-! ### What a scatter writes (R148) -/

theorem State.putByte_scratch_get {t a b k : Nat} (h : k ≠ t * 2 ^ 21 + a) :
    (s.putByte t false a b).tile.scratch.get 0 k = s.tile.scratch.get 0 k := Tab.get_set_ne 0 _ h

/-- A scatter writes bytes of the elements that its indices name, and no others. -/
theorem State.scatterStore_get {k : Nat}
    (hk : ∀ j, j < d.count → k ≠ u * 2 ^ 21 + d.outAt j ∧ k ≠ u * 2 ^ 21 + d.outAt j + 1) :
    (s.scatterStore d u).1.tile.scratch.get 0 k = s.tile.scratch.get 0 k := by
  unfold State.scatterStore
  refine List.foldlRecOn (motive := fun y : State × List Cls × List Cls => y.1.tile.scratch.get 0 k = s.tile.scratch.get 0 k)
    _ _ rfl fun y hy i _ => ?_
  dsimp only
  split
  · exact hy
  · next hj =>
    obtain ⟨h0, h1⟩ := hk i.1 (Nat.lt_of_not_le hj)
    exact ((State.putByte_scratch_get (by rwa [← Nat.add_assoc])).trans (State.putByte_scratch_get h0)).trans hy

theorem State.scatterStore_castMem : (s.scatterStore d u).1.tile.castMem = s.tile.castMem := by
  unfold State.scatterStore
  refine List.foldlRecOn (motive := fun y : State × List Cls × List Cls => y.1.tile.castMem = s.tile.castMem) _ _ rfl fun y hy i _ => ?_
  dsimp only
  split <;> exact hy

/-! ### The obligation on vector records -/

section
variable (w : Fin 8) (q : Nat) (u : Fin 192) (s : State)

theorem exec_vectorMap : exec (.vectorMap w q u) s = onVector w q 0 s fun s e => s.vectorMap w e u := rfl
theorem exec_vmap : exec (.vmap w q u) s = onVector w q 2 s fun s e => s.vmap w e u := rfl
theorem exec_vectorReduce : exec (.vectorReduce w q u) s = onVector w q 1 s fun s e => s.vectorReduce w e u := rfl
theorem exec_reduceTileFold : exec (.reduceTileFold w q) s = onVector w q 1 s fun s e => s.tileFold w e := rfl
theorem exec_gather : exec (.gather w q u) s = onVector w q 3 s fun s e => s.gather w e u := rfl
theorem exec_scatter : exec (.scatter w q u) s = onVector w q 4 s fun s e => s.scatter w e u := rfl

end

/-- Settles O10. Where the record begins, the work of its command is one store of what it computes, after which its share has run; where it
waits or hands its results over, no byte changes and no share runs. Running the work as part of the record's step (R55) exchanges counts alone. -/
theorem vectorRecordsRun : Obligations.VectorRecordsRun := by
  unfold Obligations.VectorRecordsRun
  simp only [exec_vectorMap, exec_vmap, exec_vectorReduce, exec_reduceTileFold, exec_gather, exec_scatter]
  refine ⟨?_, ?_, ?_, ?_, ?_, ?_, ?_, ?_, ?_, ?_, ?_, ?_, ?_, ?_⟩
  · intro s w q u e he hk hv ha hgo
    exact onVector_ran he hk hv ha (State.vectorMap_runs (pair_of_snd hgo)) (.refl _)
  · intro s w q u e he hk hv ha hgo hr
    exact onVector_idles he hk hv ha hr (State.vectorMap_idles hgo)
  · intro s w q u e he hk hv ha hgo
    exact onVector_ran he hk hv ha (State.vmap_runs (pair_of_snd hgo)) (.refl _)
  · intro s w q u e he hk hv ha hgo hr
    exact onVector_idles he hk hv ha hr (State.vmap_idles hgo)
  · intro s w q u e he hk hv ha hgo hc hp hr
    obtain rfl := State.entry_seq he
    exact onVector_ran he hk hv ha
      (State.vectorReduce_runs (pair_of_snd hgo) (by rwa [State.seen_share]) (by rwa [State.seen_share]) hr) (.refl _)
  · intro s w q u e he hk hv ha hc hgo hr
    obtain rfl := State.entry_seq he
    rcases State.vectorReduce_idles hgo (by rwa [State.seen_share]) with h | h
    · exact onVector_waits he hk hv ha hr (by rw [h]; exact .refl _) (by rw [h]; exact .refl _)
    · exact onVector_idles he hk hv ha hr h
  · intro s w q u e he hk hv ha hgo hc hp hr
    obtain rfl := State.entry_seq he
    obtain ⟨t, ht, hbytes, hshares⟩ := onVector_works (f := fun s e => s.vectorReduce w e u) he hk hv ha
    rw [State.vectorReduce_handsOver (pair_of_snd hgo) (by rwa [State.seen_share]) (by rwa [State.seen_share]) hr] at hbytes hshares
    have hshare := State.share_congr hshares w e.seq u
    rw [State.share_setShare_self] at hshare
    refine ⟨t, ht, by rw [hshare], ?_, hbytes.scratch.trans State.seen_startVector_bytes.scratch⟩
    rw [hshare]
    exact (State.startVector_sameRan (w := w) (e := e) (u := u) w e.seq u).trans (State.startVector_ran hgo)
  · intro s w q u e l he hk hv ha hc hr hok
    obtain rfl := State.entry_seq he
    refine onVector_ran he hk hv ha (State.vectorReduce_stores (by rwa [State.seen_share]) (by rwa [State.seen_share]) ?_) (.refl _)
    rw [State.seen_castBase]
    exact pair_of_snd hok
  · intro s w q e p r he hk hv ha hr hd hc hp
    obtain rfl := State.entry_seq he
    obtain ⟨t, ht, -, hshares⟩ := onVector_works (f := fun s e => s.tileFold w e) he hk hv ha
    refine ⟨t, ht, fun i hi => ?_⟩
    rw [State.share_congr hshares]
    exact State.tileFold_combined hr hd (by rwa [State.seen_share]) (by simpa only [State.seen_share] using hp) hi
  · intro s w q u e he hk hv ha hgo hg
    obtain rfl := State.entry_seq he
    obtain ⟨y, hy, hbytes⟩ := State.gather_runs (pair_of_snd hgo) (pair_of_snd hg)
    exact onVector_ran he hk hv ha hy hbytes
  · intro s w q u e he hk hv ha hgo hr
    exact onVector_idles he hk hv ha hr (State.gather_idles hgo)
  · intro s w q u e he hk hv ha hgo hg
    obtain rfl := State.entry_seq he
    have hr := State.startVector_ran hgo
    rw [State.seen_share] at hr
    have hwait := State.gather_waits (pair_of_snd hgo) (pair_of_snd hg)
    exact onVector_waits he hk hv ha hr (hwait ▸ State.startVector_bytes.trans State.gatherReady_bytes)
      (hwait ▸ State.startVector_sameRan.trans State.gatherReady_sameRan)
  · intro s w q u e he hk hv ha hgo
    obtain ⟨y, hy, hbytes⟩ := State.scatter_runs (pair_of_snd hgo)
    obtain ⟨t, ht, hran, hscratch, hcast⟩ := onVector_ran (f := fun s e => s.scatter w e u) he hk hv ha hy hbytes
    refine ⟨t, ht, hran, hscratch, fun a hout => ?_, ?_⟩
    · rw [hscratch, State.scatterStore_get hout, State.seen_startVector_bytes.scratch]
    · rw [hcast, State.scatterStore_castMem, State.seen_startVector_bytes.castMem]
  · intro s w q u e he hk hv ha hgo hr
    exact onVector_idles he hk hv ha hr (State.scatter_idles hgo)

end Sys2Proof.Machine
end

section
/-! SUPPORT. What halting a window, refusing a record and a synchronisation fault leave of a window, its queue and the objects. -/
namespace Sys2Proof.Machine

variable {s t : State} {w q : Nat} {g : Scope}

/-! ### What a `Within` law leaves -/

/-- An object that neither the law nor an event record names reads as before. -/
theorem Within.rd_eq (h : Within g s t) {k : Nat} (hk : ¬ g.keys k) (he : eventKey k = false) : t.rd k = s.rd k :=
  ((h.objs k).resolve_left hk).resolve_left (by simp [he])

theorem Within.spans_eq (h : Within g s t) (hp : Part.spans ∉ g.parts) : t.spans = s.spans := (h.same .spans).resolve_left hp

theorem Within.stepNow_eq (h : Within g s t) (hp : Part.cmd ∉ g.parts) : t.cmd.stepNow = s.cmd.stepNow :=
  have e : { t.cmd with bar0 := [] } = { s.cmd with bar0 := [] } := (h.same .cmd).resolve_left hp
  have h' := congrArg CmdState.stepNow e
  h'

theorem Within.parity_eq (h : Within g s t) (hp : Part.tile ∉ g.parts) : t.tile.parity = s.tile.parity :=
  have e : { t.tile with scratch := [], castMem := [] } = { s.tile with scratch := [], castMem := [] } := (h.same .tile).resolve_left hp
  have h' := congrArg TileState.parity e
  h'

/-! ### Ring records, halts and refusals -/

/-- Of its window a ring record changes the ring and what waits for it. -/
theorem State.win_formRing {ty status reason value cseq : Nat} :
    ∃ r n l, (s.formRing w ty status reason value cseq).win w = { s.win w with ring := r, rnext := n, waiting := l } := by
  rw [State.formRing, State.win_updWin]
  split
  · exact ⟨_, _, _, rfl⟩
  · exact ⟨_, _, _, rfl⟩

/-- So does one that takes a place of the reserve. -/
theorem State.win_formReserved {ty status reason value : Nat} {cseq : Option Nat} :
    ∃ r n l, (s.formReserved w ty status reason value cseq).win w = { s.win w with ring := r, rnext := n, waiting := l } := by
  unfold State.formReserved
  split
  · rw [State.win_congr (State.raise_cmd _ _ _), State.win_updWin]
    exact ⟨_, _, _, rfl⟩
  · exact State.win_formRing

/-- Where there is room, a ring record is retained. -/
theorem State.ring_formRing {ty status reason value cseq : Nat} (hroom : (s.win w).ring.length < ringMost)
    (hnone : (s.win w).waiting.any (fun v => v.below == ringMost) = false) :
    ((s.formRing w ty status reason value cseq).win w).ring.length = (s.win w).ring.length + 1 := by
  rw [State.formRing, State.win_updWin, if_neg (by simp [hnone, hroom])]
  simp [Window.place]

@[simp] theorem State.entry_formRing {ty status reason value cseq : Nat} :
    (s.formRing w ty status reason value cseq).entry w q = s.entry w q := by
  obtain ⟨r, n, l, h⟩ := State.win_formRing (s := s) (w := w) (ty := ty) (status := status) (reason := reason) (value := value) (cseq := cseq)
  rw [State.entry, h, State.entry]

/-- A window that halts keeps its queue, and its notice changes neither. -/
theorem State.haltWin_halts {cause hc : Nat} :
    ((s.haltWin w cause hc).win w).state = .halted ∧ ((s.haltWin w cause hc).win w).queue = (s.win w).queue := by
  unfold State.haltWin
  extract_lets was v
  have hv : v.win w = { s.win w with state := .halted, haltCause := hc } := State.win_updWin _ _ _
  split
  · rw [hv]
    exact ⟨rfl, rfl⟩
  · obtain ⟨r, n, l, h⟩ := State.win_formReserved (s := v) (w := w) (ty := 4) (status := 0) (reason := cause) (value := (v.win w).noticeValue)
      (cseq := none)
    rw [State.windowNotice, State.formNotice, h, hv]
    exact ⟨rfl, rfl⟩

/-- A record that retires is in its window's queue no more. -/
theorem State.entry_retire {e : QEntry} : (s.retire w e).entry w e.seq = none := by
  rw [State.retire, State.entry, State.win_updWin]
  simp

/-- A refused record is gone, and its window halts. -/
theorem State.refuse_refuses {e : QEntry} {status reason : Nat} :
    (s.refuse w e status reason).entry w e.seq = none ∧ ((s.refuse w e status reason).win w).state = .halted := by
  obtain ⟨hstate, hqueue⟩ := State.haltWin_halts (s := s.retire w { e with status := status, reason := reason }) (w := w) (cause := 0xA1)
    (hc := 256 * status + reason)
  refine ⟨?_, hstate⟩
  rw [State.refuse, State.entry, hqueue]
  exact State.entry_retire (e := { e with status := status, reason := reason })

/-! ### Synchronisation faults (R160, R165) -/

@[simp] theorem State.syncRefuse_tile {e : QEntry} {reason : Nat} : (s.syncRefuse w e reason).tile = s.tile := by
  rw [State.syncRefuse, State.refuse_tile, State.countSat_tile, State.raise_tile]

theorem State.syncRefuse_refuses {e : QEntry} {reason : Nat} :
    (s.syncRefuse w e reason).entry w e.seq = none ∧ ((s.syncRefuse w e reason).win w).state = .halted := State.refuse_refuses

@[simp] theorem State.syncFault_tile {tag reason : Nat} {ps : List Bytes} : (s.syncFault w q tag reason ps).tile = s.tile := by
  unfold State.syncFault
  obtain ⟨_, _, _, _, h⟩ := s.formReserved_shape w 1 4 reason tag (some q)
  rw [State.haltWin_tile, State.countSat_tile, State.raise_tile, h]

/-- A fault halts the window of its record and is counted. -/
theorem State.syncFault_faults {tag reason : Nat} {ps : List Bytes} :
    ((s.syncFault w q tag reason ps).win w).state = .halted ∧
    (s.syncFault w q tag reason ps).rd Obj.syncFaults = min (s.rd Obj.syncFaults + 1) (2 ^ 32 - 1) := by
  unfold State.syncFault
  extract_lets s₁ s₂
  have h₁ : s₁.rd Obj.syncFaults = s.rd Obj.syncFaults :=
    (State.formReserved_within (g := ⟨[.cmd], fun _ => False⟩) (by decide) (.refl _ s)).rd_eq id (by decide)
  have h₂ : s₂.rd Obj.syncFaults = min (s.rd Obj.syncFaults + 1) (2 ^ 32 - 1) := by
    rw [State.rd_countSat_self, State.rd_raise (by decide) (by decide), h₁]
  have h₃ := (State.haltWin_within (g := ⟨[.cmd], fun _ => False⟩) (w := w) (cause := 0xA1) (haltCause := 256 * 4 + reason) (by decide)
    (.refl _ s₂)).rd_eq (k := Obj.syncFaults) id (by decide)
  exact ⟨State.haltWin_halts.1, h₃.trans h₂⟩

end Sys2Proof.Machine
end

section
/-! SUPPORT. Semaphores, their signals and the sync watchdog, and the statement on their commands. -/
namespace Sys2Proof.Machine

variable {s t : State} {w q u i : Nat} {e : QEntry}

/-! ### Semaphores and signals -/

@[simp] theorem State.sem_setSem_self {n : Nat} : (s.setSem u i n).sem u i = n := Tab.get_set_self _ _ _ n

/-- Every other semaphore keeps its count. -/
theorem State.sem_setSem_ne {v j n : Nat} (h : 256 * v + j ≠ 256 * u + i) : (s.setSem u i n).sem v j = s.sem v j := Tab.get_set_ne _ n h

theorem State.sem_congr (h : t.tile = s.tile) (v j : Nat) : t.sem v j = s.sem v j := by rw [State.sem, State.sem, h]

/-- The record's share in the tile has run. -/
@[simp] theorem State.ranSync_ran : ((s.ranSync w q u).share w q u).ran = true := by rw [State.ranSync, State.share_setShare_self]

/-- A wait begins, or goes on, and takes nothing. -/
theorem State.beginWait_waits : ((s.beginWait w q u).share w q u).waitFrom.isSome = true ∧
    (s.beginWait w q u).tile.sems = s.tile.sems ∧ (s.beginWait w q u).tile.rels = s.tile.rels := by
  unfold State.beginWait
  extract_lets x
  split
  · next h => exact ⟨h, rfl, rfl⟩
  · exact ⟨by rw [State.share_setShare_self]; rfl, rfl, rfl⟩

/-- A signal that arrives is on its way no more, and its message is counted. -/
def State.takeSignal (s : State) (g : Signal) : State :=
  ({ s with tile := { s.tile with signals := s.tile.signals.erase g } } : State).count Obj.cnMessages 1

theorem State.sem_takeSignal {g : Signal} (v j : Nat) : (s.takeSignal g).sem v j = s.sem v j := rfl

section
variable {g : Signal} (hg : s.tile.signals.find? (fun g => g.tile == u) = some g)
include hg

theorem State.signalArrive_adds : s.signalArrive u = (s.takeSignal g).semAdd u g.sem g.value g.win g.seq g.tag := by
  rw [State.signalArrive, hg]
  rfl

/-- Within 65 535 the semaphore counts on. -/
theorem State.signalArrive_counts (h : s.sem u g.sem + g.value ≤ 65535) :
    s.signalArrive u = (s.takeSignal g).setSem u g.sem (s.sem u g.sem + g.value) :=
  (State.signalArrive_adds hg).trans (if_neg (Nat.not_lt.2 h))

/-- Past it the record of the signal faults. -/
theorem State.signalArrive_faults (h : 65535 < s.sem u g.sem + g.value) :
    s.signalArrive u = (s.takeSignal g).syncFault g.win g.seq g.tag 0x68 [p8 0x68, p8 u, p8 g.sem] :=
  (State.signalArrive_adds hg).trans (if_pos h)

end

/-! ### The sync watchdog (R168) -/

/-- The wait is marked as told, and the event is raised and counted. -/
def State.tellWait (s : State) (w : Nat) (e : QEntry) (u : Nat) : State :=
  ((s.setShare w e.seq u { s.share w e.seq u with waitTold := true }).raise Ev.syncTimeout ([p8 u, p32 e.seq] ++ waitsOn e.raw)).countSat
    Obj.syncTimeouts 1

theorem State.tellWait_cmd : (s.tellWait w e u).cmd = s.cmd := State.raise_cmd _ _ _

theorem State.tellWait_told : ((s.tellWait w e u).share w e.seq u).waitTold = true := by
  have h : (s.tellWait w e u).tile = _ := State.raise_tile _ _ _
  rw [State.share_congr (congrArg TileState.shares h), State.share_setShare_self]

theorem State.tellWait_counts : (s.tellWait w e u).rd Obj.syncTimeouts = min (s.rd Obj.syncTimeouts + 1) (2 ^ 32 - 1) := by
  rw [State.tellWait, State.rd_countSat_self, State.rd_raise (by decide) (by decide)]
  rfl

section
variable {f : Nat} (hf : (s.share w e.seq u).waitFrom = some f) (hs : (s.share w e.seq u).started = false)
  (ht : (s.share w e.seq u).waitTold = false) (hl : (s.share w e.seq u).waitLimit * ms < s.now - f)
include hf hs ht hl

/-- A wait past its limit is told once, and the first of its record brings a ring record. -/
theorem State.syncTimeout_tells : s.syncTimeout w e u = if e.late then s.tellWait w e u else
    ((s.tellWait w e u).updEntry w e.seq fun e => { e with late := true }).formRing w 1 5 0 (Rec.tag e.raw) e.seq := by
  unfold State.syncTimeout
  extract_lets x
  split
  · next h => exact nomatch h.symm.trans hf
  · next f' h =>
    obtain rfl := Option.some.inj (h.symm.trans hf)
    refine if_neg ?_
    rintro (h | h | h)
    · exact Bool.false_ne_true (hs.symm.trans h)
    · exact Bool.false_ne_true (ht.symm.trans h)
    · exact Nat.not_lt.2 h hl

/-- What is told changes no more than the share, the event and its count; the record stays in its queue. -/
theorem State.syncTimeout_reports (he : s.entry w e.seq = some e) (hroom : (s.win w).ring.length < ringMost)
    (hnone : (s.win w).waiting.any (fun v => v.below == ringMost) = false) :
    ((s.syncTimeout w e u).share w e.seq u).waitTold = true ∧
    (s.syncTimeout w e u).rd Obj.syncTimeouts = min (s.rd Obj.syncTimeouts + 1) (2 ^ 32 - 1) ∧
    ((s.syncTimeout w e u).entry w e.seq).isSome = true ∧
    (e.late = false → ((s.syncTimeout w e u).entry w e.seq).map QEntry.late = some true ∧
      ((s.syncTimeout w e u).win w).ring.length = (s.win w).ring.length + 1) := by
  have hentry : (s.tellWait w e u).entry w e.seq = some e := (State.entry_congr State.tellWait_cmd w e.seq).trans he
  have hwin : (s.tellWait w e u).win w = s.win w := State.win_congr State.tellWait_cmd w
  rw [State.syncTimeout_tells hf hs ht hl]
  cases hlate : e.late with
  | true => exact ⟨State.tellWait_told, State.tellWait_counts, by rw [if_pos rfl, hentry]; rfl, nofun⟩
  | false =>
    have hlater : ((s.tellWait w e u).updEntry w e.seq fun e => { e with late := true }).entry w e.seq = some { e with late := true } := by
      rw [State.entry_updEntry, hentry]
      · rfl
      · exact fun _ => rfl
    rw [if_neg Bool.false_ne_true, State.entry_formRing, hlater]
    refine ⟨?_, ?_, rfl, fun _ => ⟨rfl, ?_⟩⟩
    · rw [State.share_congr (congrArg TileState.shares ((State.formRing_tile ..).trans (State.updEntry_tile ..)))]
      exact State.tellWait_told
    · exact (State.rd_congr ((State.formRing_obj ..).trans (State.updEntry_obj ..)) _).trans State.tellWait_counts
    · rw [State.ring_formRing] <;> rw [State.updEntry, State.win_updWin, hwin]
      · exact hroom
      · exact hnone

end

/-! ### The obligation on semaphores -/

/-- Settles O6, clause by clause: each command's own equation, and what a signal, a fault, a refusal or a wait told leaves. -/
theorem semaphoresCountAndWait : Obligations.SemaphoresCountAndWait := by
  unfold Obligations.SemaphoresCountAndWait
  refine ⟨?_, ?_, ?_, ?_, ?_, ?_, ?_, ?_⟩
  · intro s w q u e he hk ho hm ha hs hr
    have htile : ∀ l : List Nat, (l.foldl (fun s v => s.passTiles u v 1 (recKey w q)) (s.ranSync w q u)).tile = (s.ranSync w q u).tile :=
      fun l => foldl_tile (fun v a => State.passTiles_tile v u a 1 (recKey w q)) l _
    refine ⟨_, (show execSemSignal w q u s = _ from onSync_runs he hk ho hm ha hs hr), ?_⟩
    dsimp only
    rw [htile]
    exact ⟨rfl, State.ranSync_ran⟩
  · intro s u g hg hle
    refine ⟨_, rfl, ?_⟩
    rw [State.signalArrive_counts hg hle]
    exact ⟨State.sem_setSem_self, rfl, fun v i h => State.sem_setSem_ne h⟩
  · intro s u g hg hlt
    refine ⟨_, rfl, ?_⟩
    rw [State.signalArrive_faults hg hlt]
    obtain ⟨hstate, hcount⟩ := State.syncFault_faults (s := s.takeSignal g) (w := g.win) (q := g.seq) (tag := g.tag) (reason := 0x68)
      (ps := [p8 0x68, p8 u, p8 g.sem])
    refine ⟨fun v i => (State.sem_congr State.syncFault_tile v i).trans (State.sem_takeSignal v i), ?_, hstate, ?_⟩
    · rw [State.syncFault_tile]
      rfl
    · rw [hcount, State.takeSignal, State.rd_count_ne (by decide)]
      rfl
  · intro s w q u e he hk ho hm ha hs hr hlt
    obtain ⟨hwait, hsems, -⟩ := State.beginWait_waits (s := s) (w := w) (q := q) (u := u)
    refine ⟨_, (show execSemWait w q u s = _ from onSync_runs he hk ho hm ha hs hr), ?_⟩
    rw [if_pos hlt]
    exact ⟨hwait, (State.beginWait_sameRan w q u).trans hr, fun v i => by rw [State.sem, hsems, State.sem]⟩
  · intro s w q u e he hk ho hm ha hs hr hle
    refine ⟨_, (show execSemWait w q u s = _ from onSync_runs he hk ho hm ha hs hr), ?_⟩
    rw [if_neg (Nat.not_lt.2 hle)]
    exact ⟨State.sem_setSem_self, State.ranSync_ran⟩
  · intro s w q u e he hk ho hm ha hs hr hfree
    refine ⟨_, (show execSemSet w q u s = _ from onSync_runs he hk ho hm ha hs hr), ?_⟩
    dsimp only
    rw [if_neg fun h => hfree.elim (fun hf => Bool.false_ne_true (hf.symm.trans h.1)) fun hf => Bool.false_ne_true (hf.symm.trans h.2)]
    exact ⟨State.sem_setSem_self, State.ranSync_ran⟩
  · intro s w q u e he hk ho hm ha hs hr hall hany
    obtain rfl := State.entry_seq he
    refine ⟨_, (show execSemSet w e.seq u s = _ from onSync_runs he hk ho hm ha hs hr), ?_⟩
    dsimp only
    rw [if_pos ⟨hall, hany⟩]
    obtain ⟨hgone, hstate⟩ := State.syncRefuse_refuses (s := s) (w := w) (e := e) (reason := 0x66)
    exact ⟨hgone, hstate, fun v i => State.sem_congr State.syncRefuse_tile v i⟩
  · intro s w q u e f he hd hf hst ht hl hroom hnone
    obtain rfl := State.entry_seq he
    refine ⟨s.syncTimeout w e u, ?_, State.syncTimeout_reports hf hst ht hl he hroom hnone⟩
    show execSyncTimeout w e.seq u s = _
    simp [execSyncTimeout, he, hd]

end Sys2Proof.Machine
end

section
/-! SUPPORT. Barrier channels and their releases, a step aborted for a parity error of the fabric, and the statement on their commands. -/
namespace Sys2Proof.Machine

variable {s t u : State} {w q c : Nat} {e : QEntry}

/-! ### Channels -/

@[simp] theorem State.chan_setChan_self {x : Channel} : (s.setChan c x).chan c = x := Tab.get_set_self _ _ _ x

theorem State.chan_setChan_ne {d : Nat} {x : Channel} (h : d ≠ c) : (s.setChan c x).chan d = s.chan d := Tab.get_set_ne _ x h

theorem State.chan_congr (h : t.tile = s.tile) (d : Nat) : t.chan d = s.chan d := by rw [State.chan, State.chan, h]

theorem State.entry_setChan {x : Channel} : (s.setChan c x).entry w q = s.entry w q := rfl

/-! ### Releases on their way -/

@[simp] theorem Tab.get_upd_self {α : Type} [DecidableEq α] (d : α) (m : Tab α) (k : Nat) (f : α → α) :
    (m.upd d k f).get d k = f (m.get d k) :=
  Tab.get_set_self d m k _

theorem Tab.get_upd_ne {α : Type} [DecidableEq α] (d : α) {m : Tab α} {k j : Nat} (f : α → α) (h : j ≠ k) :
    (m.upd d k f).get d j = m.get d j :=
  Tab.get_set_ne d _ h

/-- A release sent to each tile of a list adds to a tile's releases as often as the list names it. -/
theorem get_sendReleases (l : List Nat) (m : Tab Nat) (v : Nat) :
    (l.foldl (fun m t => m.upd 0 (64 * t + c) (· + 1)) m).get 0 (64 * v + c) = m.get 0 (64 * v + c) + l.count v := by
  induction l generalizing m with
  | nil => rfl
  | cons t l ih =>
    rw [List.foldl_cons, ih, List.count_cons]
    by_cases h : t = v
    · subst h
      simp only [Tab.get_upd_self, beq_self_eq_true, if_true]
      omega
    · rw [Tab.get_upd_ne 0 _ (by omega), if_neg (by simpa using h), Nat.add_zero]

/-! ### Arrivals (R162) -/

/-- A record that arrives has done its part in the tile, and its message passes to the spine. -/
def State.sendArrival (s : State) (w q t : Nat) : State := (s.ranSync w q t).passArray (fun r => .toSpine r 2) [t] (recKey w q)

section
variable {t : Nat}

theorem State.sendArrival_tile : (s.sendArrival w q t).tile = (s.ranSync w q t).tile := State.passArray_tile ..

theorem State.sendArrival_rd (k : Nat) : (s.sendArrival w q t).rd k = s.rd k := State.rd_congr (State.passArray_obj ..) k

theorem State.sendArrival_chan (d : Nat) : (s.sendArrival w q t).chan d = s.chan d :=
  State.chan_congr (s := s.ranSync w q t) State.sendArrival_tile d

/-- What keeps the shares after it leaves the record as one that has run. -/
theorem State.sendArrival_ran {v : State} (h : v.tile.shares = (s.sendArrival w q t).tile.shares) : (v.share w q t).ran = true := by
  rw [State.share_congr (h.trans (congrArg TileState.shares State.sendArrival_tile)), State.ranSync_ran]

end

section
variable {tag : Nat}

/-- At a channel with no target an arrival faults. -/
theorem State.arrive_faults (h : (s.chan c).target = 0) : s.arrive c w q tag = s.syncFault w q tag 0x67 [p8 0x67] := if_pos h

/-- Short of the target it counts. -/
theorem State.arrive_counts (h : (s.chan c).target ≠ 0) (hn : (s.chan c).count + 1 ≠ (s.chan c).target) :
    s.arrive c w q tag = s.setChan c { s.chan c with count := (s.chan c).count + 1 } := (if_neg h).trans (if_neg hn)

/-- The one that reaches the target starts the next generation and sends every tile a release. -/
theorem State.arrive_completes (h : (s.chan c).target ≠ 0) (hn : (s.chan c).count + 1 = (s.chan c).target) :
    (s.arrive c w q tag).chan c = { s.chan c with count := 0, gen := ((s.chan c).gen + 1) % 65536 } ∧
    (s.arrive c w q tag).tile.shares = s.tile.shares ∧
    ∀ v, v < 192 → (s.arrive c w q tag).tile.relFlight.get 0 (64 * v + c) = s.tile.relFlight.get 0 (64 * v + c) + 1 := by
  have hone : ∀ v, v < 192 → (List.range 192).count v = 1 := fun v hv => List.count_eq_one_of_mem List.nodup_range (List.mem_range.2 hv)
  rw [State.arrive, if_neg h, if_pos hn]
  generalize List.range 192 = l at hone ⊢
  refine ⟨State.chan_setChan_self, rfl, fun v hv => ?_⟩
  exact (get_sendReleases l _ v).trans (congrArg _ (hone v hv))

end

/-! ### Releases that arrive (R163) -/

/-- A release on its way to a tile is on its way no more. -/
def State.takeRelease (s : State) (t c : Nat) : State :=
  ({ s with tile := { s.tile with relFlight := s.tile.relFlight.upd 0 (64 * t + c) (· - 1) } } : State).passArray (fun r => .fromSpine r 2) [t] c

theorem State.takeRelease_tile {t : Nat} :
    (s.takeRelease t c).tile = { s.tile with relFlight := s.tile.relFlight.upd 0 (64 * t + c) (· - 1) } := State.passArray_tile ..

section
variable {t : Nat} (hf : s.tile.relFlight.get 0 (64 * t + c) ≠ 0)
include hf

/-- Below 65 535 it is counted in its tile. -/
theorem State.release_counts (h : s.tile.rels.get 0 (64 * t + c) < 65535) :
    (s.release t c).tile.rels.get 0 (64 * t + c) = s.tile.rels.get 0 (64 * t + c) + 1 ∧
    (s.release t c).tile.relFlight.get 0 (64 * t + c) = s.tile.relFlight.get 0 (64 * t + c) - 1 := by
  have htile : (s.release t c).tile = { (s.takeRelease t c).tile with
      rels := (s.takeRelease t c).tile.rels.set 0 (64 * t + c) ((s.takeRelease t c).tile.rels.get 0 (64 * t + c) + 1) } := by
    rw [State.release, if_neg hf]
    refine (congrArg State.tile (if_neg ?_)).trans rfl
    rwa [← State.takeRelease, State.takeRelease_tile, Nat.not_le]
  rw [htile, State.takeRelease_tile]
  dsimp only
  rw [Tab.get_set_self, Tab.get_upd_self]
  exact ⟨rfl, rfl⟩

/-- At 65 535 it faults against the record that armed its channel. -/
theorem State.release_faults (h : 65535 ≤ s.tile.rels.get 0 (64 * t + c)) :
    (s.release t c).tile.rels = s.tile.rels ∧
    (s.release t c).tile.relFlight.get 0 (64 * t + c) = s.tile.relFlight.get 0 (64 * t + c) - 1 ∧
    ((s.release t c).win (s.chan c).armWin).state = .halted ∧
    (s.release t c).rd Obj.syncFaults = min (s.rd Obj.syncFaults + 1) (2 ^ 32 - 1) := by
  have hchan : (s.takeRelease t c).chan c = s.chan c := by rw [State.chan, State.takeRelease_tile, State.chan]
  have hrd : (s.takeRelease t c).rd Obj.syncFaults = s.rd Obj.syncFaults := State.rd_congr (State.passArray_obj ..) _
  have hrun : s.release t c = (s.takeRelease t c).syncFault (s.chan c).armWin (s.chan c).armSeq (s.chan c).armTag 0x68
      [p8 0x68, p8 t, p8 c] := by
    rw [← hchan, State.release, if_neg hf]
    refine if_pos ?_
    rwa [← State.takeRelease, State.takeRelease_tile]
  obtain ⟨hstate, hcount⟩ := State.syncFault_faults (s := s.takeRelease t c) (w := (s.chan c).armWin) (q := (s.chan c).armSeq)
    (tag := (s.chan c).armTag) (reason := 0x68) (ps := [p8 0x68, p8 t, p8 c])
  rw [hrun, State.syncFault_tile, State.takeRelease_tile, hcount, hrd]
  exact ⟨rfl, Tab.get_upd_self 0 s.tile.relFlight _ (· - 1), hstate, rfl⟩

end

/-! ### A step aborted for parity (R169, R194) -/

/-- `t` comes of `s` with its count of parity errors and those of its tiles as they were. -/
structure KeepsParity (s t : State) : Prop where
  count : t.rd Obj.fabricParity = s.rd Obj.fabricParity
  tiles : t.tile.parity = s.tile.parity

theorem KeepsParity.refl (s : State) : KeepsParity s s := ⟨rfl, rfl⟩

theorem KeepsParity.trans (h₁ : KeepsParity s u) (h₂ : KeepsParity u t) : KeepsParity s t :=
  ⟨h₂.count.trans h₁.count, h₂.tiles.trans h₁.tiles⟩

/-- The parts outside the tiles that an abort and its announcement may change, and every object but the count of parity errors. -/
def offParity : Scope :=
  ⟨[.prep, .bar0, .cmd, .upd, .link, .coll, .tier, .store, .cross], fun k => k ≠ Obj.fabricParity⟩

theorem Within.keepsParity (h : Within offParity s t) : KeepsParity s t :=
  ⟨h.rd_eq (fun hk => hk rfl) (by decide), h.parity_eq (by decide)⟩

theorem KeepsParity.of (ho : t.obj = s.obj) (hp : t.tile.parity = s.tile.parity) : KeepsParity s t := ⟨State.rd_congr ho _, hp⟩

theorem KeepsParity.wr {k v : Nat} (h : k ≠ Obj.fabricParity) : KeepsParity s (s.wr k v) := ⟨State.rd_wr_ne h.symm, rfl⟩

theorem State.freeEngines_keepsParity : KeepsParity u u.freeEngines := by
  refine List.foldlRecOn (motive := KeepsParity u) _ _ (.refl u) fun v h k hk => ?_
  have hne : Obj.decState (k + 1) ≠ Obj.fabricParity := by
    have := List.mem_range.1 hk
    simp only [Obj.decState, Obj.fabricParity]
    omega
  split
  · exact h.trans (.wr hne)
  · exact h

theorem State.freeEngines_spans : u.freeEngines.spans = u.spans :=
  (State.freeEngines_within (g := ⟨[], fun _ => True⟩) (.refl _ u) fun _ => trivial).spans_eq (by decide)

theorem State.clearTiles_keepsParity : KeepsParity u u.clearTiles := .of rfl rfl

/-- The units drop their spans, and the parity errors stay. -/
theorem State.clearUnits_clears {n : Nat} : (u.clearUnits n).spans = [] ∧ KeepsParity u (u.clearUnits n) := by
  unfold State.clearUnits
  extract_lets s₁ _ _ _ s₃ s₅ _ _ s₈
  have h₁ : Within offParity u s₁ := State.endWaits_within (by decide) (State.endStall_within (by decide) (.refl _ u)
    (k_collMismatchCycles := (by decide : Obj.collMismatchCycles ≠ Obj.fabricParity))
    (k_groupState := (by decide : Obj.groupState ≠ Obj.fabricParity)))
    (k_tmWaitCycles := (by decide : Obj.tmWaitCycles ≠ Obj.fabricParity))
  have h₃ : KeepsParity u s₃ := h₁.keepsParity.trans (.of rfl rfl)
  have h₅ : KeepsParity u s₅ := h₃.trans State.freeEngines_keepsParity
  have hspans₅ : s₅.spans = [] := State.freeEngines_spans (u := s₃)
  clear_value s₅
  have h₈ : KeepsParity u s₈ := h₅.trans (.of rfl rfl)
  have hspans : s₈.spans = [] := hspans₅
  clear_value s₈
  split
  · split
    · exact ⟨hspans, h₈⟩
    · extract_lets s₉ s₁₀
      have h₉ : s₉.spans = [] ∧ KeepsParity s₈ s₉ := by
        unfold s₉
        split
        · exact ⟨hspans, (KeepsParity.wr (by decide)).trans (.wr (by decide))⟩
        · exact ⟨hspans, .refl s₈⟩
      clear_value s₉
      have h₁₀ : KeepsParity s₉ s₁₀ := (KeepsParity.wr (by decide)).trans (.wr (by decide))
      exact ⟨h₉.1, (h₈.trans h₉.2).trans (h₁₀.trans (.of rfl rfl))⟩
  · exact ⟨hspans, h₈⟩

/-- After an abort no step is in progress and no span is held. -/
theorem State.abortStep_aborts {cause : Nat} : (u.abortStep cause).cmd.stepNow = none ∧ (u.abortStep cause).spans = [] ∧
    KeepsParity u (u.abortStep cause) := by
  unfold State.abortStep
  extract_lets n s₁ s₂ s₃
  have h₁ : Within offParity u s₁ := .foldl (fun _ _ h => State.discardWin_within (by decide) h) (.refl _ u)
  obtain ⟨hspans, h₂⟩ := State.clearUnits_clears (u := s₁.clearTiles) (n := n)
  have h₃ : Within offParity s₂ s₃ := .foldl (fun _ _ h => State.abortWin_within (by decide) (by decide) h) (.refl _ s₂)
  clear_value s₃
  have h₄ : KeepsParity s₃ { s₃ with cmd := { s₃.cmd with stepNow := none } } := .of rfl rfl
  exact ⟨rfl, (h₃.spans_eq (by decide)).trans hspans,
    (((h₁.keepsParity.trans State.clearTiles_keepsParity).trans h₂).trans h₃.keepsParity).trans h₄⟩

/-- Its announcement leaves it so. -/
theorem State.abortAnnounce_aborts {cause : Nat} : (u.abortAnnounce cause).cmd.stepNow = none ∧ (u.abortAnnounce cause).spans = [] ∧
    KeepsParity u (u.abortAnnounce cause) := by
  obtain ⟨hstep, hspans, hparity⟩ := State.abortStep_aborts (u := u) (cause := cause)
  unfold State.abortAnnounce
  extract_lets n v
  split
  · exact ⟨hstep, hspans, hparity⟩
  · have h (m : Msg) : Within ⟨[.link, .coll, .cross], fun k => k ≠ Obj.fabricParity⟩ v (v.sendAll m) :=
      State.sendAll_within (by decide) (by decide) (by decide) (.refl _ v)
        (k_collBytesTx := (by decide : Obj.collBytesTx ≠ Obj.fabricParity))
        (k_flitsTx := fun n => by simp only [Obj.flitsTx, Obj.fabricParity]; omega)
    exact ⟨((h _).stepNow_eq (by decide)).trans hstep, ((h _).spans_eq (by decide)).trans hspans,
      hparity.trans ⟨(h _).rd_eq (fun hk => hk rfl) (by decide), (h _).parity_eq (by decide)⟩⟩

theorem State.tileEntry_keepsParity {x cause : Nat} : KeepsParity u (u.tileEntry x cause) := by
  have h : Within ⟨[.start], fun _ => False⟩ u (u.tileEntry x cause) := State.tileEntry_within (by decide) (.refl _ u)
  exact ⟨h.rd_eq id (by decide), h.parity_eq (by decide)⟩

/-- A parity error is counted, in its tile as well where it has one, and aborts the step. -/
theorem State.fabricParity_aborts {network tree : Nat} {tile : Option Nat} :
    (s.fabricParity network tile tree).cmd.stepNow = none ∧ (s.fabricParity network tile tree).spans = [] ∧
    (s.fabricParity network tile tree).rd Obj.fabricParity = min (s.rd Obj.fabricParity + 1) (2 ^ 32 - 1) ∧
    ∀ x, tile = some x → (s.fabricParity network tile tree).tile.parity.get 0 x = s.tile.parity.get 0 x + 1 := by
  generalize hr : s.fabricParity network tile tree = r
  unfold State.fabricParity at hr
  extract_lets +onlyGivenNames -underBinder -merge s₁ s₂ s₃ at hr
  have h₁ : KeepsParity s s₁ := by
    unfold s₁
    cases tile
    · exact ⟨State.rd_raise (by decide) (by decide), congrArg TileState.parity (State.raise_tile _ _ _)⟩
    · exact ⟨State.rd_raise (by decide) (by decide), congrArg TileState.parity (State.raise_tile _ _ _)⟩
  have h₂ : s₂.rd Obj.fabricParity = min (s.rd Obj.fabricParity + 1) (2 ^ 32 - 1) := by rw [State.rd_countSat_self, h₁.count]
  have htiles : s₂.tile.parity = s.tile.parity := h₁.tiles
  clear_value s₂
  have h₃ : s₃.rd Obj.fabricParity = s₂.rd Obj.fabricParity ∧
      ∀ x, tile = some x → s₃.tile.parity.get 0 x = s₂.tile.parity.get 0 x + 1 := by
    unfold s₃
    split
    · next x =>
      extract_lets n _ v
      have hv : KeepsParity v (if n = 3 then v.tileEntry x 1 else v) := by
        split
        · exact State.tileEntry_keepsParity
        · exact .refl v
      refine ⟨hv.count, fun y hy => ?_⟩
      obtain rfl := Option.some.inj hy
      rw [hv.tiles]
      exact congrArg (Option.getD · 0) (Tab.find_insert_self s₂.tile.parity x n)
    · exact ⟨rfl, nofun⟩
  obtain ⟨hstep, hspans, hkeep⟩ := State.abortAnnounce_aborts (u := s₃) (cause := 0x92)
  rw [hr] at hstep hspans hkeep
  refine ⟨hstep, hspans, ?_, fun x hx => ?_⟩
  · rw [hkeep.count, h₃.1, h₂]
  · rw [hkeep.tiles, h₃.2 x hx, htiles]

/-! ### The obligation on barriers -/

/-- Settles O7, clause by clause: what an arrival, a release and an abort make of the state, by the value of the channel's counts. -/
theorem barriersCountAndRelease : Obligations.BarriersCountAndRelease := by
  unfold Obligations.BarriersCountAndRelease
  refine ⟨?_, ?_, ?_, ?_, ?_, ?_, ?_, ?_, ?_, ?_⟩
  · intro s w q e he hd hu hk ho hs hc
    obtain rfl := State.entry_seq he
    refine ⟨_, (show execBarArm w e.seq s = _ from onSeq_runs he hd hu hk (beq_iff_eq.2 ho)), ?_⟩
    rw [hs, if_neg Bool.false_ne_true, State.barArm, if_neg (not_not.2 hc)]
    refine ⟨State.chan_setChan_self, ?_, fun c h => State.chan_setChan_ne h⟩
    rw [State.entry_updEntry]
    · rw [State.entry_setChan, he]
      rfl
    · exact fun _ => rfl
  · intro s w q e he hd hu hk ho hs hc
    obtain rfl := State.entry_seq he
    refine ⟨_, (show execBarArm w e.seq s = _ from onSeq_runs he hd hu hk (beq_iff_eq.2 ho)), ?_⟩
    rw [hs, if_neg Bool.false_ne_true, State.barArm, if_pos hc]
    obtain ⟨hgone, hstate⟩ := State.syncRefuse_refuses (s := s) (w := w) (e := e) (reason := 0x65)
    refine ⟨?_, ?_, fun c => State.chan_congr ((State.updEntry_tile ..).trans State.syncRefuse_tile) c⟩
    · rw [State.entry_updEntry, hgone]
      · rfl
      · exact fun _ => rfl
    · rw [State.updEntry, State.win_updWin]
      exact hstate
  · intro s w q u e he hk ho hm ha hs hr ht
    refine ⟨(s.sendArrival w q u).arrive (syOf e.raw).barCh w q (Rec.tag e.raw),
      (show execBarArrive w q u s = _ from onSync_runs he hk ho hm ha hs hr), ?_⟩
    obtain ⟨hstate, hcount⟩ := State.syncFault_faults (s := s.sendArrival w q u) (w := w) (q := q) (tag := Rec.tag e.raw) (reason := 0x67)
      (ps := [p8 0x67])
    rw [← State.sendArrival_chan (s := s) (w := w) (q := q) (t := u)] at ht
    rw [State.arrive_faults ht, hcount, State.sendArrival_rd]
    exact ⟨fun c => (State.chan_congr State.syncFault_tile c).trans (State.sendArrival_chan c),
      State.sendArrival_ran (by rw [State.syncFault_tile]), hstate, rfl⟩
  · intro s w q u e he hk ho hm ha hs hr ht hn
    refine ⟨(s.sendArrival w q u).arrive (syOf e.raw).barCh w q (Rec.tag e.raw),
      (show execBarArrive w q u s = _ from onSync_runs he hk ho hm ha hs hr), ?_⟩
    rw [← State.sendArrival_chan (s := s) (w := w) (q := q) (t := u)] at ht hn
    rw [State.arrive_counts ht hn, State.chan_setChan_self, State.sendArrival_chan]
    exact ⟨rfl, State.sendArrival_ran rfl⟩
  · intro s w q u e he hk ho hm ha hs hr ht hn
    refine ⟨(s.sendArrival w q u).arrive (syOf e.raw).barCh w q (Rec.tag e.raw),
      (show execBarArrive w q u s = _ from onSync_runs he hk ho hm ha hs hr), ?_⟩
    rw [← State.sendArrival_chan (s := s) (w := w) (q := q) (t := u)] at ht hn
    obtain ⟨hchan, hshares, hsent⟩ := State.arrive_completes (w := w) (q := q) (tag := Rec.tag e.raw) ht hn
    rw [hchan, State.sendArrival_chan]
    exact ⟨rfl, State.sendArrival_ran hshares, fun v hv => by rw [hsent v hv, State.sendArrival_tile]; rfl⟩
  · exact fun s u c hf hlt => ⟨_, rfl, State.release_counts hf hlt⟩
  · exact fun s u c hf hle => ⟨_, rfl, State.release_faults hf hle⟩
  · intro s w q u e he hk ho hm ha hs hr hz
    obtain ⟨hwait, -, hrels⟩ := State.beginWait_waits (s := s) (w := w) (q := q) (u := u)
    refine ⟨_, (show execBarWait w q u s = _ from onSync_runs he hk ho hm ha hs hr), ?_⟩
    dsimp only
    rw [if_pos hz]
    exact ⟨hwait, (State.beginWait_sameRan w q u).trans hr, hrels⟩
  · intro s w q u e he hk ho hm ha hs hr hz
    refine ⟨_, (show execBarWait w q u s = _ from onSync_runs he hk ho hm ha hs hr), ?_⟩
    dsimp only
    rw [if_neg hz]
    exact ⟨Tab.get_set_self _ _ _ _, State.ranSync_ran⟩
  · exact fun s network tile tree => ⟨_, rfl, State.fabricParity_aborts⟩

end Sys2Proof.Machine
end


section
/-! SUPPORT. Every command goes on, and within what every command may change. -/
namespace Sys2Proof.Machine

/-- Every part and every object: what no command leaves. -/
def anything : Scope := ⟨offLast.parts, fun _ => True⟩

theorem mem_anything (p : Part) : p ∈ anything.parts := mem_offLast p

/-- What a command that goes on makes of a state is within the scope of its law. -/
theorem Leads.completes {g : Scope} {s : State} {o : Host.Outcome State Fault Refusal} (h : Leads g s o) (ho : ∃ t, o = .next t) :
    ∃ t, o = .next t ∧ Within g s t := by
  obtain ⟨t, ht⟩ := ho
  exact ⟨t, ht, h t ht⟩

/-- Each arm is the law of its command. Every part and every object may change: the laws' conditions on keys find `True` among the
hypotheses. -/
theorem exec_leads (i : Instr) (s : State) : Leads anything s (exec i s) := by
  have hp := mem_anything
  have hkey : True := trivial
  have hkeys : Nat → True := fun _ => trivial
  cases i with
  | cmdTrailerWrite p w k off data => exact execCmdTrailerWrite_within (hp _) (hp _) (.refl _ s)
  | credit w => exact execCredit_within (hp _) (.refl _ s)
  | acceptOnRoom w => exact execAcceptOnRoom_within (hp _) (.refl _ s)
  | recordDispatch => exact execRecordDispatch_within (hp _) (hp _) (hp _) (hp _) (hp _) (hp _) (.refl _ s)
  | ringRecordWrite w => exact execRingRecordWrite_within (hp _) (.refl _ s)
  | resultIrq w => exact execResultIrq_within (hp _) (.refl _ s)
  | recordRetire w q => exact execRecordRetire_within (hp _) (hp _) (hp _) (hp _) (hp _) (hp _) (hp _) (.refl _ s)
  | matrix w q t => exact execMatrix_within (hp _) (.refl _ s)
  | outputTileDrain w q t => exact execOutputTileDrain_within (hp _) (hp _) (hp _) (hp _) (hp _) (.refl _ s)
  | splitHandoff w q t => exact execSplitHandoff_within (hp _) (.refl _ s)
  | tileRecordComplete w q t => exact execTileRecordComplete_within (hp _) (hp _) (hp _) (hp _) (.refl _ s)
  | vectorMap w q t => exact execVectorMap_within (hp _) (hp _) (hp _) (hp _) (.refl _ s)
  | vectorReduce w q t => exact execVectorReduce_within (hp _) (hp _) (hp _) (hp _) (.refl _ s)
  | vmap w q t => exact execVmap_within (hp _) (hp _) (hp _) (hp _) (.refl _ s)
  | gather w q t => exact execGather_within (hp _) (hp _) (hp _) (hp _) (hp _) (hp _) (.refl _ s)
  | scatter w q t => exact execScatter_within (hp _) (hp _) (hp _) (hp _) (hp _) (.refl _ s)
  | reduceTileFold w q => exact execReduceTileFold_within (hp _) (.refl _ s)
  | castOpen w q => exact execCastOpen_within (hp _) (hp _) (.refl _ s)
  | castPop w q => exact execCastPop_within (hp _) (hp _) (.refl _ s)
  | castPopTo w q => exact execCastPopTo_within (hp _) (hp _) (.refl _ s)
  | castArm w q => exact execCastArm_within (hp _) (hp _) (.refl _ s)
  | planReserve w q => exact execPlanReserve_within (hp _) (hp _) (.refl _ s)
  | planLayer w q => exact execPlanLayer_within (hp _) (hp _) (.refl _ s)
  | castPageMoveDone t p => exact execCastPageMoveDone_within (hp _) (.refl _ s)
  | semSignal w q t => exact execSemSignal_within (hp _) (hp _) (.refl _ s)
  | semSignalArrive u => exact execSemSignalArrive_within (hp _) (hp _) (.refl _ s)
  | semWait w q t => exact execSemWait_within (hp _) (.refl _ s)
  | semSet w q t => exact execSemSet_within (hp _) (hp _) (.refl _ s)
  | barArm w q => exact execBarArm_within (hp _) (hp _) (.refl _ s)
  | barArrive w q t => exact execBarArrive_within (hp _) (hp _) (hp _) (.refl _ s)
  | barrierRelease t c => exact execBarrierRelease_within (hp _) (hp _) (hp _) (.refl _ s)
  | barWait w q t => exact execBarWait_within (hp _) (.refl _ s)
  | syncTimeout w q t => exact execSyncTimeout_within (hp _) (hp _) (.refl _ s)
  | fabricParity network tile tree => exact execFabricParity_within (hp _) (hp _) (hp _) (hp _) (hp _) (hp _) (hp _) (hp _) (hp _) (hp _) (hp _) (hp _) (hp _) (.refl _ s)
  | tierCreate w q => exact execTierCreate_within (hp _) (hp _) (.refl _ s)
  | tierFree w q => exact execTierFree_within (hp _) (hp _) (hp _) (hp _) (hp _) (.refl _ s)
  | tierMove w q => exact execTierMove_within (hp _) (hp _) (.refl _ s)
  | stream w q => exact execStream_within (hp _) (.refl _ s)
  | ringConfig w q => exact execRingConfig_within (hp _) (hp _) (.refl _ s)
  | streamGateOpen w q => exact execStreamGateOpen_within (hp _) (.refl _ s)
  | stageFillDone w q t => exact execStageFillDone_within (hp _) (hp _) (hp _) (hp _) (hp _) (.refl _ s)
  | stageStall w q t => exact execStageStall_within (hp _) (.refl _ s)
  | pageMoveDone h p good phys => exact execPageMoveDone_within (hp _) (hp _) (hp _) (hp _) (hp _) (hp _) (hp _) (hp _) (hp _) (hp _) (hp _) (hp _) (hp _) (hp _) (hp _) (.refl _ s)
  | eviction upper => exact execEviction_within (hp _) (.refl _ s)
  | hlCommit src n arg => exact execHlCommit_within (hp _) (.refl _ s)
  | hlRecall src n arg => exact execHlRecall_within (hp _) (hp _) (hp _) (hp _) (hp _) (hp _) (hp _) (hp _) (hp _) (hp _) (hp _) (hp _) (hp _) (.refl _ s)
  | nbCommit src arg => exact execNbCommit_within (hp _) (hp _) (hp _) (hp _) (.refl _ s)
  | lendRecall src arg => exact execLendRecall_within (hp _) (hp _) (hp _) (hp _) (.refl _ s)
  | recallNoticeExpiry n => exact execRecallNoticeExpiry_within (hp _) (hp _) (hp _) (hp _) (hp _) (hp _) (hp _) (hp _) (hp _) (hp _) (hp _) (hp _) (hp _) (.refl _ s)
  | lenderLost n => exact execLenderLost_within (hp _) (hp _) (hp _) (hp _) (hp _) (hp _) (hp _) (hp _) (hp _) (hp _) (hp _) (hp _) (hp _) (.refl _ s)
  | bankReadReplay addr u reads reader => exact execBankReadReplay_within (hp _) (hp _) (hp _) (hp _) (hp _) (hp _) (hp _) (hp _) (hp _) (hp _) (hp _) (hp _) (hp _) (.refl _ s)
  | bankWriteRetry addr u fails => exact execBankWriteRetry_within (hp _) (hp _) (hp _) (hp _) (hp _) (hp _) (hp _) (hp _) (hp _) (hp _) (hp _) (hp _) (hp _) (.refl _ s)
  | caParityAlert c => exact execCaParityAlert_within (_c := c) (.refl _ s)
  | bankTempRead c temp => exact execBankTempRead_within (hp _) (hp _) (hp _) (hp _) (hp _) (hp _) (hp _) (.refl _ s)
  | scrub u x => exact execScrub_within (hp _) (hp _) (hp _) (hp _) (hp _) (hp _) (hp _) (hp _) (hp _) (hp _) (hp _) (hp _) (hp _) (.refl _ s)
  | updateMap w q => exact execUpdateMap_within (hp _) (hp _) (.refl _ s)
  | update w q => exact execUpdate_within (hp _) (hp _) (.refl _ s)
  | restore w q => exact execRestore_within (hp _) (hp _) (hp _) (hp _) (hp _) (hp _) (hp _) (.refl _ s)
  | updatePassStart l n ahead => exact execUpdatePassStart_within (hp _) (hp _) (hp _) (hp _) (hp _) (hp _) (hp _) (hp _) (.refl _ s)
  | layerCommit l => exact execLayerCommit_within (hp _) (hp _) (hp _) (hp _) (hp _) (hp _) (hp _) (hp _) (.refl _ s)
  | updateWatchdog => exact execUpdateWatchdog_within (hp _) (hp _) (hp _) (hp _) (hp _) (hp _) (hp _) (hp _) (.refl _ s)
  | updateMissing => exact execUpdateMissing_within (hp _) (.refl _ s)
  | stepCommit => exact execStepCommit_within (hp _) (hp _) (hp _) (hp _) (hp _) (hp _) (hp _) (hp _) (hp _) (hp _) (hp _) (hp _) (hp _) (hp _) (hp _) (hp _) (hp _) (hp _) (hp _) (.refl _ s)
  | digestVerdict => exact execDigestVerdict_within (hp _) (hp _) (hp _) (hp _) (hp _) (hp _) (hp _) (hp _) (hp _) (hp _) (hp _) (hp _) (hp _) (hp _) (.refl _ s)
  | report w q delivered => exact execReport_within (hp _) (hp _) (.refl _ s)
  | step w q => exact execStep_within (hp _) (hp _) (hp _) (hp _) (hp _) (hp _) (hp _) (hp _) (hp _) (hp _) (hp _) (hp _) (hp _) (hp _) (hp _) (.refl _ s)
  | audit w q => exact execAudit_within (hp _) (hp _) (hp _) (hp _) (hp _) (hp _) (hp _) (hp _) (hp _) (hp _) (.refl _ s)
  | modePrepare w q => exact execModePrepare_within (hp _) (hp _) (.refl _ s)
  | modeCancel w q => exact execModeCancel_within (hp _) (hp _) (hp _) (.refl _ s)
  | collectiveOpen w q => exact execCollectiveOpen_within (hp _) (hp _) (hp _) (.refl _ s)
  | collectiveReduce w q => exact execCollectiveReduce_within (hp _) (hp _) (hp _) (hp _) (hp _) (hp _) (hp _) (hp _) (hp _) (hp _) (hp _) (hp _) (hp _) (hp _) (hp _) (.refl _ s)
  | collectiveGather w q => exact execCollectiveGather_within (hp _) (hp _) (hp _) (hp _) (hp _) (hp _) (hp _) (hp _) (hp _) (hp _) (hp _) (hp _) (hp _) (hp _) (hp _) (.refl _ s)
  | agree w q => exact execAgree_within (hp _) (hp _) (hp _) (hp _) (hp _) (hp _) (hp _) (hp _) (hp _) (hp _) (hp _) (hp _) (hp _) (hp _) (hp _) (.refl _ s)
  | scalar w q => exact execScalar_within (hp _) (hp _) (hp _) (hp _) (hp _) (hp _) (hp _) (hp _) (hp _) (hp _) (hp _) (hp _) (hp _) (hp _) (hp _) (.refl _ s)
  | sumPageEvict => exact execSumPageEvict_within (hp _) (.refl _ s)
  | msgCapability m => exact execMsgCapability_within (hp _) (hp _) (hp _) (hp _) (hp _) (hp _) (hp _) (hp _) (hp _) (hp _) (hp _) (hp _) (.refl _ s)
  | msgView m => exact execMsgView_within (hp _) (.refl _ s)
  | msgSurvivors m => exact execMsgSurvivors_within (hp _) (hp _) (hp _) (hp _) (hp _) (hp _) (hp _) (hp _) (hp _) (hp _) (hp _) (hp _) (.refl _ s)
  | msgAbort m => exact execMsgAbort_within (hp _) (hp _) (hp _) (hp _) (hp _) (hp _) (hp _) (hp _) (hp _) (hp _) (hp _) (hp _) (hp _) (hp _) (hp _) (.refl _ s)
  | msgExponent m => exact execMsgExponent_within (hp _) (hp _) (hp _) (hp _) (hp _) (hp _) (hp _) (hp _) (hp _) (hp _) (hp _) (hp _) (hp _) (hp _) (hp _) (.refl _ s)
  | msgAgreed m => exact execMsgAgreed_within (hp _) (hp _) (hp _) (hp _) (hp _) (hp _) (hp _) (hp _) (hp _) (hp _) (hp _) (hp _) (hp _) (hp _) (hp _) (.refl _ s)
  | msgData m => exact execMsgData_within (hp _) (hp _) (hp _) (hp _) (hp _) (hp _) (hp _) (hp _) (hp _) (hp _) (hp _) (hp _) (hp _) (hp _) (hp _) (.refl _ s)
  | msgResult m => exact execMsgResult_within (hp _) (hp _) (hp _) (hp _) (hp _) (hp _) (hp _) (hp _) (hp _) (hp _) (hp _) (hp _) (hp _) (hp _) (hp _) (.refl _ s)
  | msgResend m => exact execMsgResend_within (hp _) (hp _) (hp _) (.refl _ s)
  | msgGather m => exact execMsgGather_within (hp _) (hp _) (hp _) (hp _) (hp _) (hp _) (hp _) (hp _) (hp _) (hp _) (hp _) (hp _) (hp _) (hp _) (hp _) (.refl _ s)
  | msgScalar m => exact execMsgScalar_within (hp _) (hp _) (hp _) (hp _) (hp _) (hp _) (hp _) (hp _) (hp _) (hp _) (hp _) (hp _) (hp _) (hp _) (hp _) (.refl _ s)
  | msgScalarResult m => exact execMsgScalarResult_within (hp _) (hp _) (hp _) (hp _) (hp _) (hp _) (hp _) (hp _) (hp _) (hp _) (hp _) (hp _) (hp _) (hp _) (hp _) (.refl _ s)
  | msgDigest m => exact execMsgDigest_within (hp _) (hp _) (hp _) (.refl _ s)
  | msgTwinDigest m => exact execMsgTwinDigest_within (hp _) (hp _) (hp _) (.refl _ s)
  | msgStatePart m => exact execMsgStatePart_within (hp _) (hp _) (hp _) (hp _) (.refl _ s)
  | msgStateDone m => exact execMsgStateDone_within (hp _) (hp _) (hp _) (hp _) (hp _) (hp _) (.refl _ s)
  | msgLend m => exact execMsgLend_within (hp _) (hp _) (hp _) (hp _) (.refl _ s)
  | msgRecall m => exact execMsgRecall_within (hp _) (hp _) (hp _) (hp _) (hp _) (hp _) (hp _) (hp _) (hp _) (hp _) (hp _) (hp _) (hp _) (.refl _ s)
  | msgRelease m => exact execMsgRelease_within (hp _) (.refl _ s)
  | msgWithdrawal m => exact execMsgWithdrawal_within (hp _) (hp _) (hp _) (hp _) (hp _) (hp _) (hp _) (hp _) (hp _) (hp _) (hp _) (hp _) (hp _) (.refl _ s)
  | msgLentRead m => exact execMsgLentRead_within (hp _) (hp _) (hp _) (.refl _ s)
  | msgLentData m => exact execMsgLentData_within (hp _) (hp _) (.refl _ s)
  | capabilitySend => exact execCapabilitySend_within (hp _) (hp _) (hp _) (.refl _ s)
  | joinWait => exact execJoinWait_within (hp _) (.refl _ s)
  | memberFailDetect m => exact execMemberFailDetect_within (hp _) (hp _) (hp _) (hp _) (hp _) (hp _) (hp _) (hp _) (hp _) (hp _) (hp _) (hp _) (.refl _ s)
  | memberTimeout m => exact execMemberTimeout_within (hp _) (hp _) (hp _) (hp _) (hp _) (hp _) (hp _) (hp _) (hp _) (hp _) (hp _) (hp _) (.refl _ s)
  | chunkWait w q c => exact execChunkWait_within (hp _) (hp _) (hp _) (.refl _ s)
  | resultRequest w q c => exact execResultRequest_within (hp _) (hp _) (hp _) (.refl _ s)
  | viewLeaderDecide => exact execViewLeaderDecide_within (hp _) (hp _) (hp _) (hp _) (hp _) (hp _) (hp _) (hp _) (hp _) (hp _) (hp _) (hp _) (.refl _ s)
  | viewMinorityTimeout => exact execViewMinorityTimeout_within (hp _) (.refl _ s)
  | twinWait => exact execTwinWait_within (hp _) (.refl _ s)
  | portTrainingStart p => exact execPortTrainingStart_within (hp _) (hp _) (.refl _ s)
  | fecLock p => exact execFecLock_within (hp _) (hp _) (.refl _ s)
  | fecLockTimeout p => exact execFecLockTimeout_within (hp _) (hp _) (hp _) (hp _) (.refl _ s)
  | helloRx p f cor unc => exact execHelloRx_within (hp _) (hp _) (.refl _ s)
  | dataFlitRx p f cor unc => exact execDataFlitRx_within (hp _) (hp _) (.refl _ s)
  | linkWordAck p f cor unc => exact execLinkWordAck_within (hp _) (hp _) (.refl _ s)
  | creditFlitRx p f cor unc => exact execCreditFlitRx_within (hp _) (hp _) (.refl _ s)
  | paceModeFlitRx p f cor unc => exact execPaceModeFlitRx_within (hp _) (hp _) (hp _) (.refl _ s)
  | lldpFlitRx p f cor unc => exact execLldpFlitRx_within (hp _) (hp _) (hp _) (hp _) (.refl _ s)
  | powerFlitRx p f cor unc => exact execPowerFlitRx_within (hp _) (hp _) (.refl _ s)
  | replayTimer p => exact execReplayTimer_within (hp _) (hp _) (.refl _ s)
  | ackTimer p => exact execAckTimer_within (hp _) (hp _) (.refl _ s)
  | creditSend p => exact execCreditSend_within (hp _) (hp _) (.refl _ s)
  | paceModeSend => exact execPaceModeSend_within (hp _) (hp _) (.refl _ s)
  | lldpSend p => exact execLldpSend_within (hp _) (hp _) (.refl _ s)
  | lldpMissing p => exact execLldpMissing_within (hp _) (hp _) (hp _) (hp _) (.refl _ s)
  | laneLoss p => exact execLaneLoss_within (hp _) (hp _) (hp _) (hp _) (.refl _ s)
  | retrain p => exact execRetrain_within (hp _) (hp _) (.refl _ s)
  | retrainDone p => exact execRetrainDone_within (hp _) (hp _) (.refl _ s)
  | retrainTimeout p => exact execRetrainTimeout_within (hp _) (hp _) (hp _) (hp _) (.refl _ s)
  | lp1Idle p => exact execLp1Idle_within (.refl _ s)
  | lp1Exit p => exact execLp1Exit_within (hp _) (hp _) (.refl _ s)
  | portSleepWrite src p v => exact execPortSleepWrite_within (hp _) (hp _) (hp _) (hp _) (.refl _ s)
  | inputOvp mv => exact execInputOvp_within (hp _) (hp _) (hp _) (hp _) (hp _) (hp _) (hp _) (hp _) (hp _) (hp _) (hp _) (hp _) (hp _) (hp _) (hp _) (hp _) (hp _) (hp _) (hp _) (hp _) (hp _) (hp _) (.refl _ s)
  | inputOvpRelease mv => exact execInputOvpRelease_within (hp _) (.refl _ s)
  | inputHigh mv => exact execInputHigh_within (.refl _ s)
  | inputLow mv => exact execInputLow_within (.refl _ s)
  | inputLowPark mv => exact execInputLowPark_within (hp _) (hp _) (hp _) (hp _) (hp _) (hp _) (hp _) (.refl _ s)
  | inputLowResume mv => exact execInputLowResume_within (hp _) (hp _) (hp _) (hp _) (hp _) (hp _) (hp _) (.refl _ s)
  | powerFail mv => exact execPowerFail_within (hp _) (hp _) (hp _) (hp _) (hp _) (hp _) (hp _) (hp _) (hp _) (hp _) (hp _) (hp _) (hp _) (hp _) (hp _) (hp _) (hp _) (hp _) (hp _) (hp _) (hp _) (hp _) (.refl _ s)
  | standbyPowerGood written => exact execStandbyPowerGood_within (hp _) (hp _) (hp _) (hp _) (hp _) (hp _) (.refl _ s)
  | bellowsDemand d e0 e1 e2 perOp => exact execBellowsDemand_within (hp _) (.refl _ s)
  | bellowsGrant => exact execBellowsGrant_within (hp _) (hp _) (.refl _ s)
  | grantTakeEffect => exact execGrantTakeEffect_within (hp _) (hp _) (hp _) (hp _) (hp _) (hp _) (hp _) (.refl _ s)
  | opChangeDone => exact execOpChangeDone_within (hp _) (hp _) (.refl _ s)
  | bellowsTimeout d => exact execBellowsTimeout_within (hp _) (.refl _ s)
  | bellowsRestart => exact execBellowsRestart_within (hp _) (hp _) (hp _) (hp _) (hp _) (hp _) (hp _) (.refl _ s)
  | estimatorUpdate vin iin act => exact execEstimatorUpdate_within (hp _) (.refl _ s)
  | capCorrection => exact execCapCorrection_within (hp _) (.refl _ s)
  | paceCeilingUpdate => exact execPaceCeilingUpdate_within (hp _) (.refl _ s)
  | backgroundStarved => exact execBackgroundStarved_within (.refl _ s)
  | sensorSample j a b pw => exact execSensorSample_within (hp _) (hp _) (hp _) (hp _) (hp _) (hp _) (hp _) (.refl _ s)
  | sensorSuspect j => exact execSensorSuspect_within (hp _) (hp _) (hp _) (hp _) (hp _) (hp _) (hp _) (.refl _ s)
  | sensorReaccept k => exact execSensorReaccept_within (hp _) (hp _) (hp _) (hp _) (hp _) (hp _) (hp _) (.refl _ s)
  | thermalCeilingStep => exact execThermalCeilingStep_within (hp _) (hp _) (hp _) (hp _) (hp _) (hp _) (hp _) (.refl _ s)
  | thermalTrip k => exact execThermalTrip_within (hp _) (hp _) (hp _) (hp _) (hp _) (hp _) (hp _) (hp _) (hp _) (hp _) (hp _) (hp _) (hp _) (hp _) (hp _) (hp _) (hp _) (hp _) (hp _) (hp _) (hp _) (.refl _ s)
  | nandTempRead k temp => exact execNandTempRead_within (.refl _ s)
  | trayReport mac pdu => exact execTrayReport_within (hp _) (hp _) (hp _) (hp _) (hp _) (hp _) (hp _) (hp _) (hp _) (.refl _ s)
  | coolantReportsLost => exact execCoolantReportsLost_within (hp _) (.refl _ s)
  | coolantMismatch => exact execCoolantMismatch_within (.refl _ s)
  | flowLossAssert => exact execFlowLossAssert_within (hp _) (hp _) (hp _) (hp _) (hp _) (hp _) (hp _) (.refl _ s)
  | flowLossDeassert => exact execFlowLossDeassert_within (hp _) (hp _) (hp _) (hp _) (hp _) (hp _) (hp _) (hp _) (hp _) (.refl _ s)
  | stretchRise r run => exact execStretchRise_within (hp _) (.refl _ s)
  | stretchStepDown r run => exact execStretchStepDown_within (hp _) (.refl _ s)
  | reedMasked row col mon => exact execReedMasked_within (hp _) (hp _) (.refl _ s)
  | voltageLoop w => exact execVoltageLoop_within (hp _) (hp _) (.refl _ s)
  | marginLow r ppm => exact execMarginLow_within (hp _) (.refl _ s)
  | ageingRecordWrite => exact execAgeingRecordWrite_within (hp _) (hp _) (.refl _ s)
  | droneSync skewed => exact execDroneSync_within (hp _) (.refl _ s)
  | poweredTimeSave => exact execPoweredTimeSave_within (hp _) (hp _) (.refl _ s)
  | dictRead src pdu held => exact execDictRead_within (hp _) (hp _) (.refl _ s)
  | dictWrite src pdu held => exact execDictWrite_within (hp _) (hp _) (hp _) (hp _) (hp _) (hp _) (hp _) (hp _) (hp _) (hp _) (hp _) (hp _) (hp _) (hp _) (hp _) (hp _) (hp _) (hp _) (.refl _ s)
  | logRead src pdu held => exact execLogRead_within (hp _) (.refl _ s)
  | discover src pdu held => exact execDiscover_within (hp _) (.refl _ s)
  | eventIrq p => exact execEventIrq_within (hp _) (.refl _ s)
  | mirrorRefresh => exact execMirrorRefresh_within (hp _) (hp _) (hp _) (.refl _ s)
  | fieldLinkLost => exact execFieldLinkLost_within (.refl _ s)
  | mctpReassemblyTimeout p => exact execMctpReassemblyTimeout_within (_p := p) (.refl _ s)
  | setEndpointId p op eid => exact execSetEndpointId_within (.refl _ s)
  | getEndpointId p => exact execGetEndpointId_within (.refl _ s)
  | getMctpVersionSupport p mtype => exact execGetMctpVersionSupport_within (.refl _ s)
  | getMessageTypeSupport p => exact execGetMessageTypeSupport_within (.refl _ s)
  | getVendorMessageSupport p selector => exact execGetVendorMessageSupport_within (.refl _ s)
  | cumClear src arg => exact execCumClear_within (.refl _ s)
  | mxClear src arg => exact execMxClear_within (.refl _ s)
  | castClear src arg => exact execCastClear_within (.refl _ s)
  | vxClear src arg => exact execVxClear_within (.refl _ s)
  | fabricClear src arg => exact execFabricClear_within (.refl _ s)
  | cmdClear src arg => exact execCmdClear_within (.refl _ s)
  | updClear src arg => exact execUpdClear_within (.refl _ s)
  | tmClear src arg => exact execTmClear_within (.refl _ s)
  | bankClear src arg => exact execBankClear_within (.refl _ s)
  | stClear src arg => exact execStClear_within (.refl _ s)
  | inClear src arg => exact execInClear_within (.refl _ s)
  | linkClear src port arg => exact execLinkClear_within (.refl _ s) (k_clear := fun _ _ => trivial)
  | collClear src arg => exact execCollClear_within (.refl _ s)
  | ptClear src arg => exact execPtClear_within (hp _) (.refl _ s)
  | clkClear src arg => exact execClkClear_within (hp _) (.refl _ s)
  | dictClear src arg => exact execDictClear_within (.refl _ s)
  | cwClaim src w port => exact execCwClaim_within (hp _) (hp _) (.refl _ s)
  | cwTakeover src w port => exact execCwTakeover_within (hp _) (hp _) (.refl _ s)
  | cwForcedTakeover src w port => exact execCwForcedTakeover_within (hp _) (hp _) (.refl _ s)
  | cwRelease src w port => exact execCwRelease_within (hp _) (hp _) (.refl _ s)
  | cwReleaseDone w => exact execCwReleaseDone_within (hp _) (.refl _ s)
  | cwResume src w => exact execCwResume_within (hp _) (.refl _ s)
  | cwReset src w => exact execCwReset_within (hp _) (hp _) (hp _) (hp _) (hp _) (hp _) (hp _) (hp _) (hp _) (hp _) (.refl _ s)
  | cwHalt src w => exact execCwHalt_within (hp _) (.refl _ s)
  | leaseRenew src w => exact execLeaseRenew_within (hp _) (.refl _ s)
  | ownerLeaseExpired w => exact execOwnerLeaseExpired_within (hp _) (.refl _ s)
  | stepAbort src arg => exact execStepAbort_within (hp _) (hp _) (hp _) (hp _) (hp _) (hp _) (hp _) (hp _) (hp _) (hp _) (.refl _ s)
  | ringCommit src w arg => exact execRingCommit_within (hp _) (.refl _ s)
  | szReset src z arg => exact execSzReset_within (hp _) (hp _) (hp _) (.refl _ s)
  | settingsSave src arg => exact execSettingsSave_within (.refl _ s)
  | settingsSaveDone good => exact execSettingsSaveDone_within (.refl _ s)
  | settingsDefaults src arg => exact execSettingsDefaults_within (hp _) (hp _) (hp _) (hp _) (hp _) (hp _) (.refl _ s)
  | flagsClear src block mask => exact execFlagsClear_within (.refl _ s)
  | fwConfirm src arg => exact execFwConfirm_within (hp _) (hp _) (hp _) (.refl _ s)
  | fwRevert src arg => exact execFwRevert_within (hp _) (hp _) (hp _) (hp _) (hp _) (hp _) (.refl _ s)
  | actTickWrite src v => exact execActTickWrite_within (hp _) (hp _) (.refl _ s)
  | localActivationTick => exact execLocalActivationTick_within (hp _) (hp _) (.refl _ s)
  | fwActivation => exact execFwActivation_within (hp _) (hp _) (hp _) (hp _) (hp _) (hp _) (.refl _ s)
  | trialTimeout => exact execTrialTimeout_within (hp _) (hp _) (hp _) (hp _) (hp _) (hp _) (.refl _ s)
  | boot => exact execBoot_within (hp _) (hp _) (hp _) (.refl _ s)
  | pldmQueryDeviceIdentifiers p => exact execPldmQueryDeviceIdentifiers_within (.refl _ s)
  | pldmGetFirmwareParameters p => exact execPldmGetFirmwareParameters_within (.refl _ s)
  | pldmRequestUpdate p => exact execPldmRequestUpdate_within (hp _) (.refl _ s)
  | pldmPassComponentTable p => exact execPldmPassComponentTable_within (hp _) (.refl _ s)
  | pldmUpdateComponent p size => exact execPldmUpdateComponent_within (hp _) (hp _) (.refl _ s)
  | pldmFirmwareData p off data => exact execPldmFirmwareData_within (hp _) (hp _) (.refl _ s)
  | pldmGetStatus p => exact execPldmGetStatus_within (.refl _ s)
  | pldmCancelUpdateComponent p => exact execPldmCancelUpdateComponent_within (hp _) (.refl _ s)
  | pldmCancelUpdate p => exact execPldmCancelUpdate_within (hp _) (.refl _ s)
  | pldmActivateFirmware p => exact execPldmActivateFirmware_within (.refl _ s)
  | spdmGetCertificate p => exact execSpdmGetCertificate_within (.refl _ s)
  | spdmChallenge p => exact execSpdmChallenge_within (hp _) (.refl _ s)
  | spdmGetMeasurements p => exact execSpdmGetMeasurements_within (hp _) (.refl _ s)
  | spdmKeyExchange p => exact execSpdmKeyExchange_within (hp _) (hp _) (.refl _ s)
  | spdmHeartbeat p => exact execSpdmHeartbeat_within (hp _) (.refl _ s)
  | ideKm p op key => exact execIdeKm_within (hp _) (.refl _ s)
  | ideStopped p => exact execIdeStopped_within (.refl _ s)
  | dualReport p nonce => exact execDualReport_within (hp _) (hp _) (hp _) (.refl _ s)
  | vendorTestNonce p => exact execVendorTestNonce_within (hp _) (hp _) (.refl _ s)
  | vendorTestUnlock p token => exact execVendorTestUnlock_within (hp _) (hp _) (hp _) (hp _) (hp _) (hp _) (hp _) (.refl _ s)
  | sample w q => exact execSample_within (hp _) (hp _) (hp _) (hp _) (hp _) (.refl _ s)
  | fetch w q => exact execFetch_within (hp _) (hp _) (hp _) (hp _) (.refl _ s)
  | profile w q => exact execProfile_within (hp _) (.refl _ s)
  | engineConfig w q => exact execEngineConfig_within (hp _) (.refl _ s)
  | append w q data => exact execAppend_within (hp _) (.refl _ s)
  | drain w q => exact execDrain_within (hp _) (hp _) (hp _) (.refl _ s)
  | sampleComplete w q => exact execSampleComplete_within (hp _) (hp _) (hp _) (hp _) (hp _) (hp _) (hp _) (.refl _ s)
  | decoderStall k => exact execDecoderStall_within (hp _) (hp _) (hp _) (hp _) (hp _) (.refl _ s)
  | appendDone w q => exact execAppendDone_within (hp _) (hp _) (hp _) (.refl _ s)
  | drainComplete w q => exact execDrainComplete_within (hp _) (hp _) (hp _) (hp _) (.refl _ s)
  | stripeRowProgrammed zone pages => exact execStripeRowProgrammed_within (hp _) (.refl _ s)
  | flashReadFail u die block retry => exact execFlashReadFail_within (hp _) (hp _) (hp _) (hp _) (.refl _ s)
  | garbageCollection stripe rows => exact execGarbageCollection_within (hp _) (hp _) (.refl _ s)
  | wearLevelCopy die cold hot => exact execWearLevelCopy_within (hp _) (hp _) (.refl _ s)
  | readDisturbRefresh die block => exact execReadDisturbRefresh_within (hp _) (hp _) (.refl _ s)
  | powerUpReadScan weak => exact execPowerUpReadScan_within (hp _) (hp _) (.refl _ s)
  | trayReadyDeassert => exact execTrayReadyDeassert_within (hp _) (hp _) (hp _) (hp _) (hp _) (hp _) (hp _) (.refl _ s)
  | trayReadyAssert => exact execTrayReadyAssert_within (hp _) (hp _) (hp _) (hp _) (hp _) (hp _) (hp _) (.refl _ s)
  | modReset => exact execModReset_within (hp _) (hp _) (hp _) (hp _) (hp _) (hp _) (hp _) (hp _) (hp _) (hp _) (hp _) (hp _) (hp _) (hp _) (hp _) (hp _) (hp _) (hp _) (hp _) (hp _) (hp _) (.refl _ s)
  | perstAssert p => exact execPerstAssert_within (hp _) (hp _) (hp _) (hp _) (hp _) (hp _) (hp _) (hp _) (hp _) (hp _) (hp _) (hp _) (hp _) (hp _) (.refl _ s)
  | perstRelease p => exact execPerstRelease_within (hp _) (.refl _ s)
  | slotIdSample v => exact execSlotIdSample_within (hp _) (.refl _ s)
  | startupStageDone bad => exact execStartupStageDone_within (hp _) (hp _) (hp _) (hp _) (hp _) (hp _) (hp _) (hp _) (hp _) (hp _) (hp _) (hp _) (hp _) (hp _) (hp _) (hp _) (hp _) (hp _) (hp _) (hp _) (hp _) (.refl _ s)
  | startupStageFault reason => exact execStartupStageFault_within (hp _) (hp _) (hp _) (hp _) (hp _) (hp _) (hp _) (hp _) (hp _) (hp _) (hp _) (hp _) (hp _) (hp _) (hp _) (hp _) (hp _) (hp _) (hp _) (hp _) (hp _) (.refl _ s)
  | startupRetry => exact execStartupRetry_within (hp _) (.refl _ s)
  | helloExchangeTimeout p => exact execHelloExchangeTimeout_within (hp _) (hp _) (hp _) (hp _) (.refl _ s)
  | hostLinkDown p => exact execHostLinkDown_within (hp _) (hp _) (hp _) (hp _) (hp _) (hp _) (hp _) (hp _) (hp _) (hp _) (hp _) (hp _) (hp _) (hp _) (.refl _ s)
  | hostLinkUp p rate width => exact execHostLinkUp_within (.refl _ s)
  | modResetRelease => exact execModResetRelease_within (hp _) (.refl _ s)
  | doeDiscovery p n => exact execDoeDiscovery_within (.refl _ s)
  | spdmGetVersion p => exact execSpdmGetVersion_within (hp _) (.refl _ s)
  | spdmGetCapabilities p => exact execSpdmGetCapabilities_within (hp _) (.refl _ s)
  | spdmNegotiateAlgorithms p => exact execSpdmNegotiateAlgorithms_within (hp _) (.refl _ s)
  | spdmGetDigests p => exact execSpdmGetDigests_within (.refl _ s)
  | spdmFinish p => exact execSpdmFinish_within (hp _) (.refl _ s)
  | spdmEndSession p => exact execSpdmEndSession_within (hp _) (.refl _ s)
  | spdmHeartbeatTimeout p => exact execSpdmHeartbeatTimeout_within (hp _) (.refl _ s)

theorem ite_next {c : Prop} [Decidable c] {a b : State} :
    ∃ t, (if c then .next a else .next b : Host.Outcome State Fault Refusal) = .next t := by
  split <;> exact ⟨_, rfl⟩

/-- Every command goes on. -/
theorem exec_next (i : Instr) (s : State) : ∃ t, exec i s = .next t := by
  cases i with
  | matrix w q t =>
    rw [exec, execMatrix]
    split
    · exact ite_next
    · exact ⟨_, rfl⟩
  | outputTileDrain w q t =>
    rw [exec, execOutputTileDrain]
    split
    · exact ite_next
    · exact ⟨_, rfl⟩
  | splitHandoff w q t =>
    rw [exec, execSplitHandoff]
    split
    · exact ite_next
    · exact ⟨_, rfl⟩
  | tileRecordComplete w q t =>
    rw [exec, execTileRecordComplete]
    split <;> exact ⟨_, rfl⟩
  | syncTimeout w q t =>
    rw [exec, execSyncTimeout]
    split
    · exact ite_next
    · exact ⟨_, rfl⟩
  | stageStall w q t =>
    rw [exec, execStageStall]
    split
    · exact ite_next
    · exact ⟨_, rfl⟩
  | vectorMap w q t => exact onVector_next _ _ _ _ _
  | vectorReduce w q t => exact onVector_next _ _ _ _ _
  | vmap w q t => exact onVector_next _ _ _ _ _
  | gather w q t => exact onVector_next _ _ _ _ _
  | scatter w q t => exact onVector_next _ _ _ _ _
  | reduceTileFold w q => exact onVector_next _ _ _ _ _
  | castOpen w q =>
    rw [exec, execCastOpen]
    exact onSeq_next ..
  | castPop w q =>
    rw [exec, execCastPop]
    exact onSeq_next ..
  | castPopTo w q =>
    rw [exec, execCastPopTo]
    exact onSeq_next ..
  | castArm w q =>
    rw [exec, execCastArm]
    exact onSeq_next ..
  | planReserve w q =>
    rw [exec, execPlanReserve]
    exact onSeq_next ..
  | planLayer w q =>
    rw [exec, execPlanLayer]
    exact onSeq_next ..
  | barArm w q =>
    rw [exec, execBarArm]
    exact onSeq_next ..
  | semSignal w q t =>
    rw [exec, execSemSignal]
    exact onSync_next ..
  | semWait w q t =>
    rw [exec, execSemWait]
    exact onSync_next ..
  | semSet w q t =>
    rw [exec, execSemSet]
    exact onSync_next ..
  | barArrive w q t =>
    rw [exec, execBarArrive]
    exact onSync_next ..
  | barWait w q t =>
    rw [exec, execBarWait]
    exact onSync_next ..
  | tierCreate w q => exact onUnit_next _ _ _ _ _ _
  | tierFree w q => exact onUnit_next _ _ _ _ _ _
  | tierMove w q => exact onUnit_next _ _ _ _ _ _
  | stream w q => exact onUnit_next _ _ _ _ _ _
  | ringConfig w q => exact onUnit_next _ _ _ _ _ _
  | streamGateOpen w q => exact onUnit_next _ _ _ _ _ _
  | stageFillDone w q t => exact onUnit_next _ _ _ _ _ _
  | updateMap w q => exact onUnit_next _ _ _ _ _ _
  | update w q => exact onUnit_next _ _ _ _ _ _
  | restore w q => exact onUnit_next _ _ _ _ _ _
  | modePrepare w q => exact onUnit_next _ _ _ _ _ _
  | modeCancel w q => exact onUnit_next _ _ _ _ _ _
  | sample w q => exact onUnit_next _ _ _ _ _ _
  | fetch w q => exact onUnit_next _ _ _ _ _ _
  | profile w q => exact onUnit_next _ _ _ _ _ _
  | engineConfig w q => exact onUnit_next _ _ _ _ _ _
  | append w q data => exact onUnit_next _ _ _ _ _ _
  | drain w q => exact onUnit_next _ _ _ _ _ _
  | sampleComplete w q => exact onUnit_next _ _ _ _ _ _
  | appendDone w q => exact onUnit_next _ _ _ _ _ _
  | drainComplete w q => exact onUnit_next _ _ _ _ _ _
  | report w q delivered => exact onKind_next _ _ _ _ _
  | step w q => exact onKind_next _ _ _ _ _
  | audit w q => exact onKind_next _ _ _ _ _
  | collectiveOpen w q =>
    rw [exec, execCollectiveOpen]
    exact onColl_next ..
  | collectiveReduce w q =>
    rw [exec, execCollectiveReduce]
    exact onColl_next ..
  | collectiveGather w q =>
    rw [exec, execCollectiveGather]
    exact onColl_next ..
  | agree w q =>
    rw [exec, execAgree]
    exact onColl_next ..
  | scalar w q =>
    rw [exec, execScalar]
    exact onColl_next ..
  | pldmQueryDeviceIdentifiers p =>
    rw [exec, execPldmQueryDeviceIdentifiers]
    exact onPort_next ..
  | pldmGetFirmwareParameters p =>
    rw [exec, execPldmGetFirmwareParameters]
    exact onPort_next ..
  | pldmRequestUpdate p =>
    rw [exec, execPldmRequestUpdate]
    exact onPort_next ..
  | pldmPassComponentTable p =>
    rw [exec, execPldmPassComponentTable]
    exact onPort_next ..
  | pldmUpdateComponent p size =>
    rw [exec, execPldmUpdateComponent]
    exact onPort_next ..
  | pldmFirmwareData p off data =>
    rw [exec, execPldmFirmwareData]
    exact onPort_next ..
  | pldmGetStatus p =>
    rw [exec, execPldmGetStatus]
    exact onPort_next ..
  | pldmCancelUpdateComponent p =>
    rw [exec, execPldmCancelUpdateComponent]
    exact onPort_next ..
  | pldmCancelUpdate p =>
    rw [exec, execPldmCancelUpdate]
    exact onPort_next ..
  | pldmActivateFirmware p =>
    rw [exec, execPldmActivateFirmware]
    exact onPort_next ..
  | spdmGetCertificate p =>
    rw [exec, execSpdmGetCertificate]
    exact onPort_next ..
  | spdmChallenge p =>
    rw [exec, execSpdmChallenge]
    exact onPort_next ..
  | spdmGetMeasurements p =>
    rw [exec, execSpdmGetMeasurements]
    exact onPort_next ..
  | spdmKeyExchange p =>
    rw [exec, execSpdmKeyExchange]
    exact onPort_next ..
  | spdmHeartbeat p =>
    rw [exec, execSpdmHeartbeat]
    exact onPort_next ..
  | ideKm p op key =>
    rw [exec, execIdeKm]
    exact onPort_next ..
  | dualReport p nonce =>
    rw [exec, execDualReport]
    exact onPort_next ..
  | vendorTestNonce p =>
    rw [exec, execVendorTestNonce]
    exact onPort_next ..
  | vendorTestUnlock p token =>
    rw [exec, execVendorTestUnlock]
    exact onPort_next ..
  | doeDiscovery p n =>
    rw [exec, execDoeDiscovery]
    exact onPort_next ..
  | spdmGetVersion p =>
    rw [exec, execSpdmGetVersion]
    exact onPort_next ..
  | spdmGetCapabilities p =>
    rw [exec, execSpdmGetCapabilities]
    exact onPort_next ..
  | spdmNegotiateAlgorithms p =>
    rw [exec, execSpdmNegotiateAlgorithms]
    exact onPort_next ..
  | spdmGetDigests p =>
    rw [exec, execSpdmGetDigests]
    exact onPort_next ..
  | spdmFinish p =>
    rw [exec, execSpdmFinish]
    exact onPort_next ..
  | spdmEndSession p =>
    rw [exec, execSpdmEndSession]
    exact onPort_next ..
  | _ => exact ⟨_, rfl⟩

/-- A tick keeps the form. -/
theorem State.Form.tick {s : State} (f : s.Form) : s.tick.Form :=
  f.of (Within.ite (Within.setNow (mem_anything _) (.refl anything s)) (.refl anything s))

/-- The commands waiting are no part of the form. -/
theorem State.Form.setPending {s : State} (f : s.Form) (l : List Instr) : { s with pending := l }.Form :=
  ⟨f.1, f.2, f.3, f.4, f.5, f.6, f.7, f.8, f.9, f.10, f.11, f.12⟩

theorem step_cons {s : State} {c : Instr} {l : List Instr} (h : s.pending = c :: l) : step s = exec c { s with pending := l } := by
  rw [step, h]

theorem step_nil {s : State} (h : s.pending = []) : step s = .next s.tick := by
  rw [step, h]

theorem State.tick_pending (s : State) : s.tick.pending = s.pending := by
  unfold State.tick
  split <;> rfl

/-- Settles O55: a step is a command, which goes on and keeps the form and the commands behind it, or a tick. -/
theorem stepKeepsForm : Obligations.StepKeepsForm := by
  unfold Obligations.StepKeepsForm
  intro s f
  cases hp : s.pending with
  | nil =>
    refine ⟨s.tick, step_nil hp, f.tick, ?_, fun _ => by rw [State.tick_pending, hp]⟩
    rintro c l ⟨⟩
  | cons c l =>
    obtain ⟨t, ht, hw⟩ := (exec_leads c { s with pending := l }).completes (exec_next c _)
    refine ⟨t, (step_cons hp).trans ht, hw.form (f.setPending l), ?_, ?_⟩
    · rintro _ _ ⟨⟩
      exact hw.pending
    · rintro ⟨⟩

/-- Settles O52: the two branches of `step`. -/
theorem stepRunsFrontCommand : Obligations.StepRunsFrontCommand := by
  unfold Obligations.StepRunsFrontCommand
  exact ⟨fun _ _ _ => step_cons, fun _ => step_nil⟩

/-- Settles O54: at reset no table lists anything, so a read gives its default. -/
theorem resetState : Obligations.ResetState := by
  unfold Obligations.ResetState
  have hform : State.reset.Form :=
    ⟨⟨.nil, by simp [State.reset]⟩, Tab.nil_wf 0, Tab.nil_wf 0, Tab.nil_wf 0, Tab.nil_wf 0, Tab.nil_wf 0, Tab.nil_wf 0, Tab.nil_wf 0, Tab.nil_wf 0,
      by decide, ⟨Tab.nil_wf _, by decide⟩, ⟨Tab.nil_wf _, by decide⟩⟩
  exact ⟨rfl, rfl, fun _ => rfl, fun _ => ⟨rfl, rfl, rfl⟩, fun _ => ⟨rfl, rfl, rfl⟩, hform⟩

/-- Settles O46: each clause is the law of its command, whose conditions are that the parts and objects it names are listed. -/
theorem frameOfRecords : Obligations.FrameOfRecords := by
  unfold Obligations.FrameOfRecords
  repeat' refine And.intro ?_ ?_
  all_goals
    intros
    refine Leads.completes ?_ (exec_next _ _)
  · apply execCmdTrailerWrite_within <;> simp [Within.refl]
  · apply execCredit_within <;> simp [Within.refl]
  · apply execAcceptOnRoom_within <;> simp [Within.refl]
  · apply execRecordDispatch_within <;> simp [Within.refl]
  · apply execRingRecordWrite_within <;> simp [Within.refl]
  · apply execResultIrq_within <;> simp [Within.refl]
  · apply execRecordRetire_within <;> simp [Within.refl]
  · apply execMatrix_within <;> simp [Within.refl]
  · apply execOutputTileDrain_within <;> simp [Within.refl]
  · apply execSplitHandoff_within <;> simp [Within.refl]
  · apply execTileRecordComplete_within <;> simp [Within.refl]
  · apply execVectorMap_within <;> simp [Within.refl]
  · apply execVectorReduce_within <;> simp [Within.refl]
  · apply execVmap_within <;> simp [Within.refl]
  · apply execGather_within <;> simp [Within.refl]
  · apply execScatter_within <;> simp [Within.refl]
  · apply execReduceTileFold_within <;> simp [Within.refl]
  · apply execCastOpen_within <;> simp [Within.refl]
  · apply execCastPop_within <;> simp [Within.refl]
  · apply execCastPopTo_within <;> simp [Within.refl]
  · apply execCastArm_within <;> simp [Within.refl]
  · apply execPlanReserve_within <;> simp [Within.refl]
  · apply execPlanLayer_within <;> simp [Within.refl]
  · apply execCastPageMoveDone_within <;> simp [Within.refl]
  · apply execSemSignal_within <;> simp [Within.refl]
  · apply execSemSignalArrive_within <;> simp [Within.refl]
  · apply execSemWait_within <;> simp [Within.refl]
  · apply execSemSet_within <;> simp [Within.refl]
  · apply execBarArm_within <;> simp [Within.refl]
  · apply execBarArrive_within <;> simp [Within.refl]
  · apply execBarrierRelease_within <;> simp [Within.refl]
  · apply execBarWait_within <;> simp [Within.refl]
  · apply execSyncTimeout_within <;> simp [Within.refl]
  · apply execReport_within <;> simp [Within.refl]
  · apply execStep_within <;> simp [Within.refl]
  · apply execAudit_within <;> simp [Within.refl]
  · apply execCwClaim_within <;> simp [Within.refl]
  · apply execCwTakeover_within <;> simp [Within.refl]
  · apply execCwForcedTakeover_within <;> simp [Within.refl]
  · apply execCwRelease_within <;> simp [Within.refl]
  · apply execCwReleaseDone_within <;> simp [Within.refl]
  · apply execCwResume_within <;> simp [Within.refl]
  · apply execCwHalt_within <;> simp [Within.refl]
  · apply execLeaseRenew_within <;> simp [Within.refl]
  · apply execOwnerLeaseExpired_within <;> simp [Within.refl]
  · apply execRingCommit_within <;> simp [Within.refl]

end Sys2Proof.Machine
end

section
/-! SUPPORT. A host link that falls with a page on its way into the memory lent through it: the page is retired, and a wear item warned of. -/
namespace Sys2Proof.Machine

/-- A page of class 8 homed in tier T1 that is on its way to lender HA by eviction. -/
def evictedPage : RPage :=
  { home := .t1, stamp := 0, move := some { dst := .hostA, tries := 0, second := false, why := .evict }, bad := [], refetch := false }

/-- A module that has memory lent through HA and through no other port, and 512 spare pages left in tier T1. Its one region is the page
above, in physical page 16, and a record waits for the page. -/
def lastHomeState : State :=
  { State.reset with
    obj := [(Obj.hlState 0, 1), (Obj.sparePages, 512)]
    tier := { TierState.reset with
      regions := [(1, { cls := 8, size := 1, fresh := evictedPage, pages := [], freeing := none })]
      map := [(lentPage 1 0, 16)]
      waits := [(recKey 0 0, { start := 0, h := 1, pages := [0], tiles := 1 })]
      hostA := { pages := 1, noticeEnd := none } } }

/-- With no other lender the move fails for good (R240), its reader is answered as for a page that cannot be read (R238), which retires the
physical page (R262): fewer than 1024 spare pages are left, and wear item 3 is warned of (R498). -/
theorem lastHome_warned : ((lastHomeState.setPerst .ha true).hostDown .ha).start.warned = [3] := by decide +kernel

/-- Refutes O40: `start` also lists the wear items warned of, and a link that falls may add to them. -/
theorem not_hostLinksRiseAndFall : ¬ Obligations.HostLinksRiseAndFall := by
  unfold Obligations.HostLinksRiseAndFall
  intro h
  obtain ⟨-, -, -, -, hassert, -⟩ := h
  obtain ⟨t, ht, hstart, -⟩ := hassert lastHomeState
  have hwarned := lastHome_warned
  rw [show (lastHomeState.setPerst .ha true).hostDown .ha = t from Host.Outcome.next.inj ht, hstart] at hwarned
  cases hwarned

end Sys2Proof.Machine
end

section
/-! SUPPORT. What ring records and notices change in the windows, and when an action write is applied. -/
namespace Sys2Proof.Machine

variable {s t u : State} {w : Nat} {src : Src}

/-! ### Ring records and notices (R185) -/

/-- `t` comes of `s` by forming ring records or letting them wait: a window's ring grows, its next result sequence and what waits change, and
nothing else of the window does; the slots and the step in progress stay. -/
structure Files (s t : State) : Prop where
  bar0 : t.cmd.bar0 = s.cmd.bar0
  stepNow : t.cmd.stepNow = s.cmd.stepNow
  win : ∀ v, ∃ r n l, t.win v = { s.win v with ring := r, rnext := n, waiting := l } ∧ (s.win v).ring ⊆ r

namespace Files

theorem ofCmd (h : t.cmd = s.cmd) : Files s t :=
  ⟨by rw [h], by rw [h], fun v => ⟨_, _, _, State.win_congr h v, List.Subset.refl _⟩⟩

theorem refl (s : State) : Files s s := .ofCmd rfl

theorem trans (h₁ : Files s u) (h₂ : Files u t) : Files s t := by
  refine ⟨h₂.bar0.trans h₁.bar0, h₂.stepNow.trans h₁.stepNow, fun v => ?_⟩
  obtain ⟨_, _, _, e₁, hr₁⟩ := h₁.win v
  obtain ⟨r, n, l, e₂, hr₂⟩ := h₂.win v
  rw [e₁] at e₂ hr₂
  exact ⟨r, n, l, e₂, List.Subset.trans hr₁ hr₂⟩

theorem ite {c : Prop} [Decidable c] (ht : Files s t) (hu : Files s u) : Files s (if c then t else u) := by
  split <;> assumption

theorem updWin {f : Window → Window} (hf : ∀ x, ∃ r n l, f x = { x with ring := r, rnext := n, waiting := l } ∧ x.ring ⊆ r) :
    Files s (s.updWin w f) := by
  refine ⟨rfl, rfl, fun v => ?_⟩
  by_cases hv : v = w
  · subst hv
    rw [State.win_updWin]
    exact hf _
  · rw [State.win_updWin_ne hv]
    exact ⟨_, _, _, rfl, List.Subset.refl _⟩

end Files

theorem State.formRing_files {ty status reason value cseq : Nat} : Files s (s.formRing w ty status reason value cseq) := by
  refine .updWin fun x => ?_
  split
  · exact ⟨_, _, _, rfl, List.Subset.refl _⟩
  · exact ⟨_, _, _, rfl, List.subset_append_left _ _⟩

theorem State.formReserved_files {ty status reason value : Nat} {cseq : Option Nat} :
    Files s (s.formReserved w ty status reason value cseq) := by
  refine .ite ?_ State.formRing_files
  exact .trans (.updWin fun x => ⟨_, _, _, rfl, List.Subset.refl _⟩) (.ofCmd (State.raise_cmd _ _ _))

theorem State.windowNotice_files {cause : Nat} : Files s (s.windowNotice w cause) := State.formReserved_files

theorem State.complete_files {e : QEntry} : Files s (s.complete w e) :=
  .ite State.formRing_files (.ite (.refl s) State.formRing_files)

/-- A window that halts, with the notice of it where its state changes. -/
theorem State.haltWin_files {cause hc : Nat} :
    Files (s.updWin w fun x => { x with state := .halted, haltCause := hc }) (s.haltWin w cause hc) :=
  .ite (.refl _) State.windowNotice_files

/-! ### Windows as they read -/

@[simp] theorem State.win_emit (o : Out) (v : Nat) : (s.emit o).win v = s.win v := rfl

@[simp] theorem State.win_raise (code : Nat) (ps : List Bytes) (v : Nat) : (s.raise code ps).win v = s.win v :=
  State.win_congr (State.raise_cmd s code ps) v

/-- A window whose slots are cleared. -/
@[simp] theorem State.win_clearSlots (s : State) (w : Nat) :
    (s.clearSlots w).win w = { s.win w with marks := [], fresh := [], due := false } :=
  State.win_updWin { s with cmd := { s.cmd with bar0 := memClear s.cmd.bar0 (65536 * w) 65536 } } w _

@[simp] theorem State.clearSlots_bar0 (s : State) (w : Nat) : (s.clearSlots w).cmd.bar0 = memClear s.cmd.bar0 (65536 * w) 65536 := rfl

/-! ### Action writes (R411, R423) -/

/-- An action that its source may write, with a word in range and its conditions met, is applied and answered with status 0. -/
theorem State.act_applied {key v cond : Nat} {deny : Bool} {f : State → State} {r : ObjRow} (hr : objRow (key / 256) (key % 256) = some r)
    (ha : r.acc = .wa) (hv : r.rng.ok v = true) (hdeny : deny = false) (hfld : s.fldDenied src key = false) (hc : cond = 0) :
    s.act src key v deny cond f = (f s).emit (.status src key 0) := by
  have hst : s.writeStatus src key v deny cond = 0 := by
    simp [State.writeStatus, hr, ha, hv, hdeny, hfld, hc]
  simp only [State.act, hst, if_true]

theorem objRow_cwClaim : ∀ w : Fin 8, objRow (Obj.cwClaim w / 256) (Obj.cwClaim w % 256) =
    some ⟨0x4010, 0x4017, 2, 2, .action, .wa, .const 0, .claim⟩ := by decide

theorem objRow_cwControl : ∀ w : Fin 8, objRow (Obj.cwControl w / 256) (Obj.cwControl w % 256) =
    some ⟨0x4010, 0x4017, 9, 9, .action, .wa, .const 0, .span 1 4⟩ := by decide

theorem objRow_ringCommit : ∀ w : Fin 8, objRow (Obj.ringCommit w / 256) (Obj.ringCommit w % 256) =
    some ⟨0x4810, 0x4817, 3, 3, .action, .wa, .const 0, .span 1 1⟩ := by decide

theorem objRow_stepAbort : objRow (Obj.stepAbort / 256) (Obj.stepAbort % 256) =
    some ⟨0x4800, 0x4800, 1, 1, .action, .wa, .const 0, .span 1 1⟩ := by decide

end Sys2Proof.Machine
end

section
/-! SUPPORT. Result rings: their records, interrupts and commits. -/
namespace Sys2Proof.Machine

variable {s : State} {w : Nat} {p : HostPort}

/-- The next ring record goes out in two parts and is then marked written and counted (R186, R200). -/
theorem State.writeRing_writes {r : RingEnt} :
    (s.writeRing w p r).out = .posted p ((s.win w).ringBase + 32 * (r.rseq % 2 ^ (s.win w).ringOrder)) (r.bytes.take 4) ::
      .posted p ((s.win w).ringBase + 32 * (r.rseq % 2 ^ (s.win w).ringOrder) + 4) (r.bytes.drop 4) :: s.out ∧
    ((s.writeRing w p r).win w).ring = (s.win w).ring.map (fun y => if y.rseq = r.rseq then { y with written := true } else y) ∧
    ((s.writeRing w p r).win w).irqCount = (s.win w).irqCount + 1 ∧
    (s.writeRing w p r).rd Obj.ringWritten = (s.rd Obj.ringWritten + 1) % 2 ^ 64 := by
  unfold State.writeRing
  extract_lets a v₁ v₂
  have hw : v₂.win w = s.win w := rfl
  refine ⟨rfl, ?_, ?_, State.rd_count_self v₁ Obj.ringWritten 1⟩
  · rw [State.win_updWin, hw]
  · rw [State.win_updWin, hw]

/-- A masked vector waits in the pending bits (R172, R200). -/
theorem State.interrupt_masked {v : Nat} (h : (s.cmd.msix.get MsixEnt.reset (16 * portNo p + v)).masked = true) :
    s.interrupt p v = { s with cmd := { s.cmd with pba := s.cmd.pba.set false (16 * portNo p + v) true } } := by
  cases p <;> exact if_pos h

/-- Any other is signalled. -/
theorem State.interrupt_signalled {v : Nat} (h : (s.cmd.msix.get MsixEnt.reset (16 * portNo p + v)).masked = false) :
    s.interrupt p v = { s.emit (.msix p v) with cmd := { s.cmd with pba := s.cmd.pba.set false (16 * portNo p + v) false } } := by
  cases p <;> exact if_neg (Bool.eq_false_iff.1 h)

/-- An interrupt that is due goes to the owner's port, and its counts start again (R200). -/
theorem State.resultIrq_due (hd : s.irqDue w = true) (ho : (s.win w).owner = some p) :
    s.resultIrq w = (s.interrupt p w).updWin w fun x => { x with irqCount := 0, irqFrom := none } := by
  simp [State.resultIrq, hd, ho]

/-- After a ring commit the window has the ring that the objects name, nothing is withheld, and every retained record is to be written into
it (R187, R198). -/
theorem State.ringCommit_commits :
    ((s.ringCommit w).win w).ringOn = true ∧ ((s.ringCommit w).win w).ringBase = s.rd (Obj.ringBase w) ∧
    ((s.ringCommit w).win w).ringOrder = s.rd (Obj.ringOrder w) ∧ ((s.ringCommit w).win w).withheld = false ∧
    ∀ e ∈ (s.win w).ring, ∃ f ∈ ((s.ringCommit w).win w).ring, f = { e with written := false } := by
  unfold State.ringCommit
  extract_lets v
  have hv : v.win w = { s.win w with
      ringOn := true, ringBase := s.rd (Obj.ringBase w), ringOrder := s.rd (Obj.ringOrder w)
      ring := (s.win w).ring.map fun r => { r with written := false } } := State.win_updWin _ _ _
  have hring : ∀ e ∈ (s.win w).ring, { e with written := false } ∈ (v.win w).ring := fun e he => by
    rw [hv]
    exact List.mem_map_of_mem he
  split
  · obtain ⟨r, n, l, hn, hr⟩ := (State.windowNotice_files (s := v) (w := w) (cause := 0xA7)).win w
    rw [State.win_updWin, hn]
    refine ⟨by rw [hv], by rw [hv], by rw [hv], rfl, fun e he => ⟨_, hr (hring e he), rfl⟩⟩
  · next hw =>
    refine ⟨by rw [hv], by rw [hv], by rw [hv], by simpa using hw, fun e he => ⟨_, hring e he, rfl⟩⟩

/-- Settles O2: a record is written in two posted parts; a masked vector pends; a commit marks every retained record unwritten. -/
theorem resultRingIsWritten : Obligations.ResultRingIsWritten := by
  unfold Obligations.ResultRingIsWritten
  refine ⟨?_, ?_, ?_, ?_⟩
  · rintro s w p r a hr rfl
    refine ⟨s.writeRing w p r, ?_, State.writeRing_writes⟩
    show execRingRecordWrite w s = _
    rw [execRingRecordWrite, hr]
  · intro s w p hd ho hm
    refine ⟨_, rfl, ?_⟩
    rw [State.resultIrq_due hd ho, State.interrupt_masked hm, State.win_updWin]
    exact ⟨rfl, Tab.get_set_self false _ _ true, rfl, rfl⟩
  · intro s w p hd ho hm
    refine ⟨_, rfl, ?_⟩
    rw [State.resultIrq_due hd ho, State.interrupt_signalled hm, State.win_updWin]
    exact ⟨rfl, rfl, rfl⟩
  · rintro s src w arg rfl ho hf
    refine ⟨_, rfl, ?_⟩
    rw [State.act_applied (objRow_ringCommit w) rfl rfl (by simp [ho]) hf rfl]
    exact ⟨rfl, State.ringCommit_commits⟩

end Sys2Proof.Machine
end

section
/-! SUPPORT. Windows claimed, taken over, released and lapsed. -/
namespace Sys2Proof.Machine

variable {s : State} {src : Src} {p : HostPort} {port : Nat}

/-- A claim word of kind `k` that is granted is applied and answered with status 0 (R423). -/
theorem State.writeClaim_granted {w : Fin 8} {k : Nat} (hk : 1 ≤ k ∧ k ≤ 4) (hport : port ≤ 2)
    (hf : s.fldDenied src (Obj.cwClaim w) = false) (hc : s.claimCond src w (k + 16 * port) = 0) :
    s.writeClaim src w (k + 16 * port) = (s.claimApply src w (k + 16 * port)).emit (.status src (Obj.cwClaim w) 0) := by
  refine State.act_applied (objRow_cwClaim w) rfl ?_ rfl hf hc
  simp only [ObjRng.ok, decide_eq_true_eq]
  omega

/-- A claim word names its kind and its port. -/
theorem claimWord {k : Nat} (hk : k < 16) : (k + 16 * port) % 16 = k ∧ (k + 16 * port) / 16 = port := by omega

/-! ### A claim, a takeover, a release (R196, R198) -/

theorem State.claim_claims {w : Nat} :
    ((s.claim w p).win w).owner = some p ∧ ((s.claim w p).win w).state = .opened ∧ ((s.claim w p).win w).leaseFrom = s.now := by
  obtain ⟨r, n, l, h, -⟩ := (State.windowNotice_files (w := w) (cause := 0xA3) (s := s.updWin w fun x => { x with
    owner := some p, state := .opened, leaseFrom := s.now, leaseOver := false, releasing := false, withheld := false })).win w
  rw [State.claim, h, State.win_updWin]
  exact ⟨rfl, rfl, rfl⟩

/-- A takeover hands the window over with its slots cleared and its ring records withheld; the queue, e and rc stay (R198). -/
theorem State.takeover_takes {w : Nat} :
    ((s.takeover w p).win w).owner = some p ∧ ((s.takeover w p).win w).state = .handover ∧ ((s.takeover w p).win w).withheld = true ∧
    ((s.takeover w p).win w).queue = (s.win w).queue ∧ ((s.takeover w p).win w).e = (s.win w).e ∧
    ((s.takeover w p).win w).rc = (s.win w).rc ∧
    (∀ a, 65536 * w ≤ a ∧ a < 65536 * w + 65536 → (s.takeover w p).cmd.bar0.get 0 a = 0) ∧
    (∀ a, a < 65536 * w ∨ 65536 * w + 65536 ≤ a → (s.takeover w p).cmd.bar0.get 0 a = s.cmd.bar0.get 0 a) := by
  unfold State.takeover
  extract_lets v
  have hv : v.win w = { s.win w with
      owner := some p, state := .handover, withheld := true, leaseFrom := s.now, leaseOver := false, releasing := false } :=
    State.win_updWin _ _ _
  have hnotice := State.windowNotice_files (s := v.clearSlots w) (w := w) (cause := 0xA3)
  obtain ⟨r, n, l, h, -⟩ := hnotice.win w
  rw [h, hnotice.bar0, State.win_clearSlots, hv, State.clearSlots_bar0]
  exact ⟨rfl, rfl, rfl, rfl, rfl, rfl, fun a => memClear_get_inside, fun a => memClear_get_outside⟩

/-- A released window with its queue empty closes with no owner (R196). -/
theorem State.releaseDone_closes {w : Nat} (hr : (s.win w).releasing = true) (hq : (s.win w).queue = []) :
    ((s.releaseDone w).win w).owner = none ∧ ((s.releaseDone w).win w).state = .closed ∧ ((s.releaseDone w).win w).releasing = false ∧
    ((s.releaseDone w).win w).e = (s.win w).e := by
  obtain ⟨r, n, l, h, -⟩ := (State.windowNotice_files (w := w) (cause := 0xA3) (s := s.updWin w fun x => { x with
    owner := none, state := .closed, releasing := false, ringOn := false, withheld := false, due := false })).win w
  rw [State.releaseDone, if_pos ⟨hr, hq⟩, h, State.win_updWin]
  exact ⟨rfl, rfl, rfl, rfl⟩

/-- A lapsed lease is noted in the window and raises its event (R197). -/
theorem State.leaseLapse_lapses {w : Nat} (ho : (s.win w).owner ≠ none) (hover : (s.win w).leaseOver = false)
    (hlapse : s.leaseExpired w = true) :
    s.leaseLapse w = (s.raise Ev.ownerLeaseExpired [p8 w]).updWin w fun x => { x with leaseOver := true } := by
  simp [State.leaseLapse, ho, hover, hlapse]

/-- Settles O3: each granted claim word is applied, and a notice changes only what the window retains of its ring. -/
theorem windowOwnershipChanges : Obligations.WindowOwnershipChanges := by
  unfold Obligations.WindowOwnershipChanges
  refine ⟨?_, ?_, ?_, ?_, ?_, ?_⟩
  · intro s src w port p hf hport hp hstate
    obtain ⟨hkind, hname⟩ := claimWord (port := port) (k := 1) (by decide)
    refine ⟨_, rfl, ?_⟩
    rw [State.writeClaim_granted (by decide) hport hf (by simp [State.claimCond, hkind, hname, hp, hstate])]
    rw [show s.claimApply src w (1 + 16 * port) = s.claim w p by simp only [State.claimApply, hkind, hname, hp]]
    simp only [State.win_emit]
    exact ⟨rfl, State.claim_claims⟩
  · intro s src w port p q hf hport hp ho hgone
    obtain ⟨hkind, hname⟩ := claimWord (port := port) (k := 2) (by decide)
    have hgrant : (s.leaseExpired w || !s.linkUp q || s.rd (Obj.ideState (portNo q)) == 3) = true := by
      rcases hgone with h | h <;> simp [h]
    refine ⟨_, rfl, ?_⟩
    rw [State.writeClaim_granted (by decide) hport hf (by simp [State.claimCond, hkind, hname, hp, ho, hgrant])]
    rw [show s.claimApply src w (2 + 16 * port) = s.takeover w p by simp only [State.claimApply, hkind, hname, hp]]
    simp only [State.win_emit, State.emit_cmd]
    exact ⟨rfl, State.takeover_takes⟩
  · intro s src w port p hf hport hp
    obtain ⟨hkind, hname⟩ := claimWord (port := port) (k := 3) (by decide)
    have htake := State.takeover_takes (s := s.raise Ev.ownershipForced []) (w := w) (p := p)
    rw [State.win_raise, State.raise_cmd] at htake
    refine ⟨_, rfl, ?_⟩
    rw [State.writeClaim_granted (by decide) hport hf (by simp [State.claimCond, hkind, hname, hp])]
    rw [show s.claimApply src w (3 + 16 * port) = (s.raise Ev.ownershipForced []).takeover w p by
      simp only [State.claimApply, hkind, hname, hp]]
    simp only [State.win_emit, State.emit_cmd]
    exact ⟨rfl, htake⟩
  · intro s src w port p hf hport hp ho
    obtain ⟨hkind, hname⟩ := claimWord (port := port) (k := 4) (by decide)
    refine ⟨_, rfl, ?_⟩
    rw [State.writeClaim_granted (by decide) hport hf (by simp [State.claimCond, hkind, hname, hp, ho])]
    rw [show s.claimApply src w (4 + 16 * port) = s.updWin w fun x => { x with releasing := true } by
      simp only [State.claimApply, hkind, hname, hp]]
    rw [State.win_emit, State.win_updWin]
    exact ⟨rfl, rfl, ho, rfl, rfl⟩
  · exact fun s w hr hq => ⟨_, rfl, State.releaseDone_closes hr hq⟩
  · intro s w ho hover hlapse
    refine ⟨_, rfl, ?_⟩
    rw [State.leaseLapse_lapses ho hover hlapse, State.win_updWin, State.win_raise]
    exact ⟨rfl, State.rd_raise_occurrences (by decide) (by decide)⟩

end Sys2Proof.Machine
end

section
/-! SUPPORT. Resume, halt, lease renewal and reset of a window, and the windows after a step abort. -/
namespace Sys2Proof.Machine

variable {s t u : State} {src : Src} {w : Nat}

/-! ### Records that retire (R180) -/

/-- `t` comes of `s` by retiring records of its windows: ring records are formed, queues change and full ones are looked at again. -/
structure Retires (s t : State) : Prop where
  bar0 : t.cmd.bar0 = s.cmd.bar0
  stepNow : t.cmd.stepNow = s.cmd.stepNow
  win : ∀ v, ∃ r n l q d, t.win v = { s.win v with ring := r, rnext := n, waiting := l, queue := q, due := d }

theorem Retires.refl (s : State) : Retires s s := ⟨rfl, rfl, fun _ => ⟨_, _, _, _, _, rfl⟩⟩

theorem Retires.trans (h₁ : Retires s u) (h₂ : Retires u t) : Retires s t := by
  refine ⟨h₂.bar0.trans h₁.bar0, h₂.stepNow.trans h₁.stepNow, fun v => ?_⟩
  obtain ⟨_, _, _, _, _, e₁⟩ := h₁.win v
  obtain ⟨r, n, l, q, d, e₂⟩ := h₂.win v
  rw [e₁] at e₂
  exact ⟨r, n, l, q, d, e₂⟩

theorem Retires.e_eq (h : Retires s t) (v : Nat) : (t.win v).e = (s.win v).e := by
  obtain ⟨_, _, _, _, _, e⟩ := h.win v
  rw [e]

theorem Retires.state_eq (h : Retires s t) (v : Nat) : (t.win v).state = (s.win v).state := by
  obtain ⟨_, _, _, _, _, e⟩ := h.win v
  rw [e]

theorem State.retire_retires {e : QEntry} : Retires s (s.retire w e) := by
  unfold State.retire
  extract_lets full v
  have hv : Files s v := State.complete_files
  refine ⟨hv.bar0, hv.stepNow, fun x => ?_⟩
  obtain ⟨r, n, l, h, -⟩ := hv.win x
  by_cases hx : x = w
  · subst hx
    rw [State.win_updWin, h]
    exact ⟨r, n, l, _, _, rfl⟩
  · rw [State.win_updWin_ne hx, h]
    exact ⟨r, n, l, _, _, rfl⟩

/-- A record that retires leaves its window's queue. -/
theorem State.queue_retire {e : QEntry} : ((s.retire w e).win w).queue = (s.win w).queue.filter fun f => f.seq ≠ e.seq := by
  obtain ⟨r, n, l, h, -⟩ := (State.complete_files (s := s) (w := w) (e := e)).win w
  rw [State.retire, State.win_updWin, h]

/-- Records discarded one after another leave the queue, and the rest of it stays. -/
theorem State.foldl_discard (l : List QEntry) (s : State) :
    Retires s (l.foldl (fun s e => s.discard w e) s) ∧
    ((l.foldl (fun s e => s.discard w e) s).win w).queue = (s.win w).queue.filter fun f => l.all fun e => f.seq ≠ e.seq := by
  induction l generalizing s with
  | nil => exact ⟨.refl s, by simp⟩
  | cons e l ih =>
    obtain ⟨hret, hqueue⟩ := ih (s.discard w e)
    refine ⟨State.retire_retires.trans hret, hqueue.trans ?_⟩
    rw [State.discard, State.queue_retire, List.filter_filter]
    simp [Bool.and_comm]

/-! ### Windows halted by an abort (R194) -/

/-- Every window keeps its owner, and a halted one stays halted. -/
def KeepsHalted (s t : State) : Prop :=
  ∀ v, (t.win v).owner = (s.win v).owner ∧ ((s.win v).state = .halted → (t.win v).state = .halted)

namespace KeepsHalted

theorem refl (s : State) : KeepsHalted s s := fun _ => ⟨rfl, id⟩

theorem trans (h₁ : KeepsHalted s u) (h₂ : KeepsHalted u t) : KeepsHalted s t := fun v =>
  ⟨(h₂ v).1.trans (h₁ v).1, (h₂ v).2 ∘ (h₁ v).2⟩

theorem ite {c : Prop} [Decidable c] (ht : KeepsHalted s t) (hu : KeepsHalted s u) : KeepsHalted s (if c then t else u) := by
  split <;> assumption

theorem foldl {α : Type} {f : State → α → State} (hf : ∀ v a, KeepsHalted v (f v a)) (l : List α) (u : State) :
    KeepsHalted u (l.foldl f u) := by
  induction l generalizing u with
  | nil => exact refl u
  | cons a l ih => exact (hf u a).trans (ih _)

theorem ofWins (h : t.cmd.wins = s.cmd.wins) : KeepsHalted s t := fun v => by
  have e : t.win v = s.win v := by rw [State.win, State.win, h]
  rw [e]
  exact ⟨rfl, id⟩

theorem ofFiles (h : Files s t) : KeepsHalted s t := fun v => by
  obtain ⟨r, n, l, e, -⟩ := h.win v
  rw [e]
  exact ⟨rfl, id⟩

theorem ofRetires (h : Retires s t) : KeepsHalted s t := fun v => by
  obtain ⟨r, n, l, q, d, e⟩ := h.win v
  rw [e]
  exact ⟨rfl, id⟩

theorem updWin {f : Window → Window} (ho : ∀ x, (f x).owner = x.owner) (hh : ∀ x, x.state = .halted → (f x).state = .halted) :
    KeepsHalted s (s.updWin w f) := fun v => by
  by_cases hv : v = w
  · subst hv
    rw [State.win_updWin]
    exact ⟨ho _, hh _⟩
  · rw [State.win_updWin_ne hv]
    exact ⟨rfl, id⟩

end KeepsHalted

theorem State.clearSlots_keepsHalted : KeepsHalted s (s.clearSlots w) :=
  .trans (.ofWins rfl) (.updWin (fun _ => rfl) fun _ => id)

/-- An abort halts an owned window, and keeps the others. -/
theorem State.abortWin_halts {n cause : Nat} : KeepsHalted s (s.abortWin n cause w) ∧
    ((s.win w).owner ≠ none → ((s.abortWin n cause w).win w).state = .halted) := by
  unfold State.abortWin
  extract_lets s₁ had s₂ s₃
  have h₂ : KeepsHalted s s₂ := State.clearSlots_keepsHalted.trans (.updWin (fun _ => rfl) fun _ => id)
  have h₃ : KeepsHalted s s₃ := h₂.trans (.ite (.ofFiles State.formReserved_files) (.refl s₂))
  have hnotice := State.windowNotice_files (w := w) (cause := 0xA5)
    (s := s₃.updWin w fun x => { x with state := .halted, haltCause := 0x0700 + cause })
  obtain ⟨r, m, l, h, -⟩ := hnotice.win w
  split
  · next hnone => exact ⟨h₃, fun ho => absurd ((h₃ w).1.symm.trans hnone) ho⟩
  · have hhalt : KeepsHalted s₃ (s₃.updWin w fun x => { x with state := .halted, haltCause := 0x0700 + cause }) :=
      .updWin (fun _ => rfl) fun _ _ => rfl
    refine ⟨(h₃.trans hhalt).trans (.ofFiles hnotice), fun _ => ?_⟩
    rw [h, State.win_updWin]

theorem State.foldl_abortWin {n cause : Nat} {l : List Nat} (hw : w ∈ l) (ho : (s.win w).owner ≠ none) :
    ((l.foldl (fun s w => s.abortWin n cause w) s).win w).state = .halted := by
  induction l generalizing s with
  | nil => simp at hw
  | cons v l ih =>
    have hkeep : KeepsHalted (s.abortWin n cause v) (l.foldl (fun s w => s.abortWin n cause w) (s.abortWin n cause v)) :=
      .foldl (fun _ _ => State.abortWin_halts.1) l _
    rcases List.mem_cons.1 hw with rfl | hw
    · exact (hkeep w).2 (State.abortWin_halts.2 ho)
    · exact ih hw (((State.abortWin_halts (s := s) (w := v)).1 w).1 ▸ ho)

/-- Emptying the tiles and the units changes no window. Every object may change: the laws' conditions on keys find `True` among the
hypotheses. -/
theorem State.clearUnits_cmd {n : Nat} : (s.clearTiles.clearUnits n).cmd = s.cmd := by
  have hkey : True := trivial
  have hkeys : Nat → True := fun _ => trivial
  exact Within.cmd_eq (State.clearUnits_within (by decide) (by decide) (by decide) (by decide) (by decide) (by decide)
    (State.clearTiles_within (by decide) (by decide) (.refl _ s)))

/-- After an abort every owned window is halted. -/
theorem State.abortStep_halts {cause : Nat} (hw : w < 8) (ho : (s.win w).owner ≠ none) : ((s.abortStep cause).win w).state = .halted := by
  unfold State.abortStep
  extract_lets n s₁ s₂ s₃
  have h₁ : KeepsHalted s s₁ := .foldl (fun v x => .ofRetires (State.foldl_discard _ v).1) _ _
  have h₂ : KeepsHalted s₁ s₂ := .ofWins (congrArg CmdState.wins State.clearUnits_cmd)
  have h₃ : (s₃.win w).state = .halted := State.foldl_abortWin (List.mem_range.2 hw) (by rw [((h₁.trans h₂) w).1]; exact ho)
  clear_value s₃
  exact h₃

/-! ### A reset (R193, R195) -/

/-- What a reset keeps of a queue: the records that share their sequence with none that is not dispatched. -/
def keptByReset (q : List QEntry) : List QEntry := q.filter fun f => (q.filter fun e => !e.disp).all fun e => f.seq ≠ e.seq

theorem disp_of_keptByReset {q : List QEntry} {e : QEntry} (h : e ∈ keptByReset q) : e.disp = true := by
  obtain ⟨hq, hall⟩ := List.mem_filter.1 h
  by_contra hd
  exact absurd rfl (of_decide_eq_true (List.all_eq_true.1 hall e (List.mem_filter.2 ⟨hq, by simpa using hd⟩)))

/-- Where no two records share a sequence these are the dispatched ones. -/
theorem keptByReset_eq {q : List QEntry} (hn : (q.map QEntry.seq).Nodup) : keptByReset q = q.filter fun e => e.disp := by
  refine List.filter_congr fun f hf => ?_
  cases hd : f.disp with
  | false =>
    refine Bool.eq_false_iff.2 fun hall => ?_
    exact absurd rfl (of_decide_eq_true (List.all_eq_true.1 hall f (List.mem_filter.2 ⟨hf, by simp [hd]⟩)))
  | true =>
    refine List.all_eq_true.2 fun e he => decide_eq_true fun hseq => ?_
    obtain ⟨heq, hnot⟩ := List.mem_filter.1 he
    rw [← List.inj_on_of_nodup_map hn hf heq hseq, hd] at hnot
    cases hnot

/-- An audit that restarts leaves a queue of dispatched records as it is. -/
theorem Window.restartAudit_queue {x : Window} (h : ∀ e ∈ x.queue, e.disp = true) : x.restartAudit.queue = x.queue := by
  have hid : ∀ e ∈ x.queue, (if e.disp then e else e.restartAudit) = e := fun e he => if_pos (h e he)
  exact (List.map_congr_left hid).trans (List.map_id' _)

/-- A reset, from the state `v` in which the step it interrupts is aborted: undispatched records are gone, the slots read zero. -/
theorem State.resetWin_resets {v : State} (hv : (if s.resetInStep w then s.abortStep 0x96 else s) = v) :
    ((s.resetWin w).win w).queue = keptByReset (v.win w).queue ∧ ((s.resetWin w).win w).e = (v.win w).e ∧
    ((s.resetWin w).win w).state = (v.win w).state ∧ (s.resetWin w).cmd.stepNow = v.cmd.stepNow ∧
    (∀ a, 65536 * w ≤ a ∧ a < 65536 * w + 65536 → (s.resetWin w).cmd.bar0.get 0 a = 0) := by
  unfold State.resetWin
  rw [hv]
  obtain ⟨hret, hqueue⟩ := State.foldl_discard (w := w) ((v.win w).queue.filter fun e => !e.disp) v
  extract_lets _ s₂ s₃
  have h₂ : (s₂.win w).queue = keptByReset (v.win w).queue := hqueue
  have hstep : s₂.cmd.stepNow = v.cmd.stepNow := hret.stepNow
  have hwin : s₃.win w = { s₂.win w with marks := [], fresh := [], due := false }.restartAudit := by
    rw [State.win_updWin, State.win_clearSlots]
  have haudit := Window.restartAudit_queue (x := { s₂.win w with marks := [], fresh := [], due := false })
    fun e he => disp_of_keptByReset (h₂ ▸ he)
  have hnotice := State.windowNotice_files (s := s₃) (w := w) (cause := 0xA4)
  obtain ⟨r, n, l, h, -⟩ := hnotice.win w
  rw [h, hnotice.bar0, hnotice.stepNow]
  refine ⟨?_, ?_, ?_, hstep, fun a => memClear_get_inside⟩
  · rw [hwin]
    exact haudit.trans h₂
  · rw [hwin]
    exact hret.e_eq w
  · rw [hwin]
    exact hret.state_eq w

/-! ### Control words (R194, R197, R411) -/

/-- A control word of the owner, in the state it asks for, is applied and answered with status 0. -/
theorem State.writeControl_applied {w : Fin 8} {k : Nat} {f : State → State} (hk : 1 ≤ k ∧ k ≤ 4) (ho : s.isOwner src w = true)
    (hf : s.fldDenied src (Obj.cwControl w) = false) (hc : s.controlCond w k = 0) :
    s.writeControl src w k f = (f s).emit (.status src (Obj.cwControl w) 0) :=
  State.act_applied (objRow_cwControl w) rfl (by simpa [ObjRng.ok] using hk) (by simp [ho]) hf hc

/-- The owner of a window is a port. -/
theorem State.owner_of_isOwner (ho : s.isOwner src w = true) : (s.win w).owner ≠ none := by
  simp only [State.isOwner, Bool.and_eq_true, bne_iff_ne, beq_iff_eq] at ho
  exact ho.2 ▸ ho.1

theorem State.resume_opens : ((s.resume w).win w).state = .opened ∧ ((s.resume w).win w).queue = (s.win w).queue := by
  obtain ⟨r, n, l, h, -⟩ := (State.windowNotice_files (w := w) (cause := 0xA2)
    (s := s.updWin w fun x => { x with state := .opened })).win w
  rw [State.resume, h, State.win_updWin]
  exact ⟨rfl, rfl⟩

theorem State.haltWin_win {cause hc : Nat} : ((s.haltWin w cause hc).win w).state = .halted ∧
    ((s.haltWin w cause hc).win w).haltCause = hc ∧ ((s.haltWin w cause hc).win w).queue = (s.win w).queue := by
  obtain ⟨r, n, l, h, -⟩ := (State.haltWin_files (s := s) (w := w) (cause := cause) (hc := hc)).win w
  rw [h, State.win_updWin]
  exact ⟨rfl, rfl, rfl⟩

/-- Settles O4: a discard takes its record off the queue and keeps the rest, and an abort halts one owned window after another. -/
theorem windowControlActions : Obligations.WindowControlActions := by
  unfold Obligations.WindowControlActions
  refine ⟨?_, ?_, ?_, ?_, ?_, ?_⟩
  · intro s src w ho hf hstate
    refine ⟨_, rfl, ?_⟩
    rw [State.writeControl_applied (by decide) ho hf (by simp [State.controlCond, hstate])]
    exact ⟨rfl, State.resume_opens (s := s)⟩
  · intro s src w ho hf hstate hstep hn
    obtain ⟨hqueue, he, hst, -, hslots⟩ := State.resetWin_resets (s := s) (w := w) (v := s) (by simp [hstep])
    refine ⟨_, rfl, ?_⟩
    rw [State.writeControl_applied (by decide) ho hf (by rcases hstate with h | h <;> simp [State.controlCond, h])]
    simp only [State.win_emit, State.emit_cmd]
    exact ⟨rfl, hqueue.trans (keptByReset_eq hn), he, hst, hslots⟩
  · intro s src w ho hf hstate hstep
    obtain ⟨hqueue, -, hst, hnow, -⟩ := State.resetWin_resets (s := s) (w := w) (v := s.abortStep 0x96) (by simp [hstep])
    refine ⟨_, rfl, ?_⟩
    rw [State.writeControl_applied (by decide) ho hf (by rcases hstate with h | h <;> simp [State.controlCond, h])]
    simp only [State.win_emit, State.emit_cmd]
    refine ⟨rfl, hnow.trans State.abortStep_aborts.1, hst.trans (State.abortStep_halts w.isLt (State.owner_of_isOwner ho)), fun e h => ?_⟩
    rw [hqueue] at h
    exact disp_of_keptByReset h
  · intro s src w ho hf
    refine ⟨_, rfl, ?_⟩
    rw [State.writeControl_applied (by decide) ho hf (by simp [State.controlCond])]
    exact ⟨rfl, State.haltWin_win (s := s)⟩
  · intro s src w ho hf
    refine ⟨_, rfl, ?_⟩
    rw [State.writeControl_applied (by decide) ho hf (by simp [State.controlCond])]
    rw [State.win_emit, State.renewLease, State.win_updWin]
    exact ⟨rfl, rfl⟩
  · rintro s src arg rfl hstep hf
    have hcond : (if s.cmd.stepNow = none then 0x09 else 0) = 0 := if_neg (Option.isSome_iff_ne_none.1 hstep)
    obtain ⟨hnow, hspans, -⟩ := State.abortStep_aborts (u := s) (cause := 0x91)
    refine ⟨_, rfl, ?_⟩
    rw [State.act_applied objRow_stepAbort rfl rfl rfl hf hcond]
    simp only [State.win_emit, State.emit_cmd, State.emit_spans]
    exact ⟨rfl, hnow, hspans, fun w => State.abortStep_halts w.isLt⟩

end Sys2Proof.Machine
end

section
/-! SUPPORT. Slots written and records accepted (R178). -/
namespace Sys2Proof.Machine

variable {s : State} {w k : Nat} {r : Rec}

/-! ### Records as bytes -/

@[simp] theorem le_length (n v : Nat) : (le n v).length = n := by simp [le]

/-- The lowest byte stands first (R8). -/
theorem le_succ (n v : Nat) : le (n + 1) v = BitVec.ofNat 8 v :: le n (v >>> 8) := by
  simp only [le, List.range_succ_eq_map, List.map_cons, List.map_map]
  refine congrArg₂ List.cons rfl (List.map_congr_left fun i _ => ?_)
  rw [Function.comp_apply, ← Nat.shiftRight_add, Nat.succ_eq_add_one, Nat.mul_add, Nat.add_comm]

theorem unle_le (n v : Nat) : unle (le n v) = v % 256 ^ n := by
  induction n generalizing v with
  | zero => simp [le, unle, Nat.mod_one]
  | succ n ih =>
    have hsplit : v % 256 ^ (n + 1) = v % 256 + 256 * (v / 256 % 256 ^ n) := by rw [Nat.pow_succ', Nat.mod_mul]
    rw [le_succ, unle, ih, hsplit, BitVec.toNat_ofNat, Nat.shiftRight_eq_div_pow]

@[simp] theorem recBytes_length (r : Rec) : (recBytes r).length = 64 := le_length 64 _

/-- The bytes of a record spell it. -/
theorem ofNat_unle_recBytes (r : Rec) : BitVec.ofNat 512 (unle (recBytes r)) = r := by
  refine BitVec.eq_of_toNat_eq ?_
  rw [BitVec.toNat_ofNat, recBytes, unle_le, show (256 : Nat) = 2 ^ 8 from rfl, ← Nat.pow_mul, show 8 * 64 = 512 from rfl, Nat.mod_mod]
  exact Nat.mod_eq_of_lt r.isLt

/-! ### Slots -/

theorem State.slot_congr {t : State} (h : t.cmd.bar0 = s.cmd.bar0) (w k : Nat) : t.slot w k = s.slot w k := by
  rw [State.slot, State.slot, h]

/-- A slot holds the record written to it whole. -/
theorem State.slot_of_write {m : Tab Byte} (h : s.cmd.bar0 = memWrite m (slotAddr w k 0) (recBytes r)) : s.slot w k = r := by
  have hread := memRead_memWrite m (slotAddr w k 0) (recBytes r)
  rw [recBytes_length] at hread
  rw [State.slot, h, hread, ofNat_unle_recBytes]

/-- A write of a whole slot covers all of the trailer. -/
theorem trailerMask_recBytes (r : Rec) : trailerMask 0 (recBytes r) = 255 := by
  have hlen : (inSlot 0 (recBytes r)).length = 64 := by simp [inSlot]
  rw [trailerMask, hlen]
  decide

/-- A write by the owner after which a trailer byte is still unwritten changes the slot and its marks, and is not evaluated (R178). -/
theorem State.slotWrite_partial {p : HostPort} {off : Nat} {data : Bytes} (hl : s.linkUp p = true) (hi : s.ideBlocked p = false)
    (ho : (s.win w).owner = some p) (hm : (s.win w).marks.get 0 k ||| trailerMask off data ≠ 255) :
    (s.slotWrite p w k off data).cmd.bar0 = memWrite s.cmd.bar0 (slotAddr w k off) (inSlot off data) ∧
    ((s.slotWrite p w k off data).win w).marks.get 0 k = (s.win w).marks.get 0 k ||| trailerMask off data ∧
    ((s.slotWrite p w k off data).win w).queue = (s.win w).queue ∧ ((s.slotWrite p w k off data).win w).e = (s.win w).e := by
  unfold State.slotWrite
  extract_lets m _ v₁ v₂
  have h₁ : v₁.win w = s.win w := rfl
  have h₂ : v₂.win w = { s.win w with marks := (s.win w).marks.upd 0 k (· ||| m) } := State.win_updWin v₁ w _
  have hmark : (v₂.win w).marks.get 0 k = (s.win w).marks.get 0 k ||| m := by
    rw [h₂]
    exact Tab.get_set_self 0 _ _ _
  have hpart : ¬ (v₂.win w).isWritten k = true := by
    rw [Window.isWritten, hmark, beq_iff_eq]
    exact hm
  simp only [hl, hi, ho, not_true_eq_false, Bool.false_eq_true, ne_eq, if_false]
  split
  · next hz =>
    rw [h₁, show trailerMask off data = 0 from hz, Nat.or_zero]
    exact ⟨rfl, rfl, rfl, rfl⟩
  · exact ⟨rfl, hmark, by rw [h₂], by rw [h₂]⟩

/-- A write over a port that does not own the window, or that IDE blocks, is counted where it covers a trailer byte (R177, R461). -/
theorem State.slotWrite_foreign {p : HostPort} {off : Nat} {data : Bytes} (hl : s.linkUp p = true)
    (hf : (s.win w).owner ≠ some p ∨ s.ideBlocked p = true) (hm : trailerMask off data ≠ 0) :
    s.slotWrite p w k off data = s.count Obj.foreignWrites 1 := by
  unfold State.slotWrite
  extract_lets m _ v₁
  rw [if_neg (not_not_intro hl)]
  by_cases hi : s.ideBlocked p = true
  · rw [if_pos hi]
  · rw [if_neg hi, if_pos (hf.resolve_right hi), if_neg hm]

/-! ### Credit words and the lease (R184, R197) -/

theorem State.drainWaiting_files (n : Nat) : Files s (s.drainWaiting w n) := by
  induction n generalizing s with
  | zero => exact .refl s
  | succ n ih =>
    unfold State.drainWaiting
    split
    · exact .refl s
    · exact .trans (.updWin fun x => ⟨_, _, _, rfl, List.subset_append_left _ _⟩) ih

/-- A credit word changes what its window retains and what waits there. -/
theorem State.applyCredit_win {cr : Nat} {valid : Bool} : (s.applyCredit w cr valid).cmd.bar0 = s.cmd.bar0 ∧
    ∃ c r n l, (s.applyCredit w cr valid).win w = { s.win w with rc := c, ring := r, rnext := n, waiting := l } := by
  unfold State.applyCredit
  extract_lets x v
  split
  · exact ⟨rfl, _, _, _, _, rfl⟩
  · split
    · exact ⟨rfl, _, _, _, _, rfl⟩
    · split
      · have hv : v.win w = { s.win w with rc := cr, ring := x.ring.filter fun r => after r.rseq cr } := State.win_setWin s w _
        have hdrain := State.drainWaiting_files (s := v) (w := w) (v.win w).waiting.length
        obtain ⟨r, n, l, h, -⟩ := hdrain.win w
        rw [h, hdrain.bar0, hv]
        exact ⟨rfl, _, _, _, _, rfl⟩
      · rw [State.countSat_cmd, State.raise_cmd, State.win_congr (State.countSat_cmd _ _ _), State.win_raise]
        exact ⟨rfl, _, _, _, _, rfl⟩

/-- The first valid evaluation of a slot's version applies its credit word and renews the lease: the slots, the queue, e and the state stay. -/
theorem State.firstEvaluation_keeps : (s.firstEvaluation w k r).cmd.bar0 = s.cmd.bar0 ∧
    ((s.firstEvaluation w k r).win w).queue = (s.win w).queue ∧ ((s.firstEvaluation w k r).win w).e = (s.win w).e ∧
    ((s.firstEvaluation w k r).win w).state = (s.win w).state := by
  unfold State.firstEvaluation
  extract_lets v
  split
  · obtain ⟨hbar, c, _, n, l, h⟩ := State.applyCredit_win (s := s) (w := w) (cr := Rec.crSeq r) (valid := Rec.crValid r)
    have hv : (v.win w) = { (s.applyCredit w (Rec.crSeq r) (Rec.crValid r)).win w with
      leaseFrom := (s.applyCredit w (Rec.crSeq r) (Rec.crValid r)).now, leaseOver := false } := State.win_updWin _ _ _
    rw [State.win_updWin, hv, h]
    exact ⟨hbar, rfl, rfl, rfl⟩
  · exact ⟨rfl, rfl, rfl, rfl⟩

/-! ### Acceptance (R178, R192) -/

/-- The bookkeeping of a step record leaves the slots, the queue and e. -/
theorem State.acceptStep_keeps : (s.acceptStep w r).cmd.bar0 = s.cmd.bar0 ∧
    ((s.acceptStep w r).win w).queue = (s.win w).queue ∧ ((s.acceptStep w r).win w).e = (s.win w).e := by
  unfold State.acceptStep
  extract_lets n v₁ v₂
  have h₁ : v₁.win w = { s.win w with lastStep := n, lastStepSeq := Rec.seq r, stepSeen := true } := State.win_updWin _ _ _
  have h₂ : v₂.win w = { v₁.win w with steps := setIns (v₁.win w).steps n } := State.win_updWin _ _ _
  have hkeep₁ : v₁.cmd.bar0 = s.cmd.bar0 ∧ (v₁.win w).queue = (s.win w).queue ∧ (v₁.win w).e = (s.win w).e := by
    rw [h₁]
    exact ⟨rfl, rfl, rfl⟩
  have hkeep₂ : v₂.cmd.bar0 = s.cmd.bar0 ∧ (v₂.win w).queue = (s.win w).queue ∧ (v₂.win w).e = (s.win w).e := by
    rw [h₂, h₁]
    exact ⟨rfl, rfl, rfl⟩
  split
  · split
    · exact hkeep₂
    · exact hkeep₂
  · exact hkeep₁

/-- An accepted record joins the end of the queue, and e advances. -/
theorem State.accept_accepts : (s.accept w r).cmd.bar0 = s.cmd.bar0 ∧ ((s.accept w r).win w).e = seqNext (s.win w).e ∧
    ((s.accept w r).win w).queue.map QEntry.raw = (s.win w).queue.map QEntry.raw ++ [r] := by
  unfold State.accept
  extract_lets b v x n e u
  have hv : v.cmd.bar0 = s.cmd.bar0 ∧ (v.win w).queue = (s.win w).queue ∧ (v.win w).e = (s.win w).e := by
    unfold v
    split
    · exact State.acceptStep_keeps
    · exact ⟨rfl, rfl, rfl⟩
  obtain ⟨hbar, hqueue, he⟩ := hv
  rw [State.win_congr (State.count_cmd _ _ _), State.win_updWin]
  refine ⟨hbar, congrArg seqNext he, ?_⟩
  simp [hqueue, e, QEntry.new]

/-- A credit record that passes its checks retires at acceptance; one that fails them also halts the window (R178, R189). -/
theorem State.acceptCredit_retires : ((s.acceptCredit w r).win w).e = seqNext (s.win w).e ∧
    ((s.acceptCredit w r).win w).queue = (s.win w).queue ∧
    ((s.acceptCredit w r).win w).state = if creditCheck r = 0 then (s.win w).state else .halted := by
  unfold State.acceptCredit
  extract_lets v c
  have hv : v.win w = { s.win w with e := seqNext (s.win w).e, due := true } :=
    (State.win_congr (State.count_cmd _ _ _) w).trans (State.win_updWin s w _)
  have hhalt := State.haltWin_files (s := v.formReserved w 1 6 c (Rec.tag r) (some (Rec.seq r))) (w := w) (cause := 0xA1) (hc := 256 * 6 + c)
  obtain ⟨_, _, _, h₁, -⟩ := (State.formReserved_files (s := v) (w := w) (ty := 1) (status := 6) (reason := c) (value := Rec.tag r)
    (cseq := some (Rec.seq r))).win w
  obtain ⟨_, _, _, h₂, -⟩ := hhalt.win w
  by_cases hc : creditCheck r = 0
  · rw [if_pos hc, if_pos hc, hv]
    exact ⟨rfl, rfl, rfl⟩
  · rw [if_neg hc, if_neg hc, h₂, State.win_updWin, h₁, hv]
    exact ⟨rfl, rfl, rfl⟩

/-! ### Evaluation (R178) -/

/-- The watched slot of a window that takes records, in a module that is operational, holds the record `r`: written whole, with the sequence
that is watched, an intact CRC and its own window's number. -/
structure State.Watched (s : State) (w : Nat) (r : Rec) : Prop where
  taking : (s.win w).state ≠ .closed
  operational : s.rd Obj.moduleState = 2
  written : (s.win w).isWritten ((s.win w).e % 1024) = true
  slot : s.slot w ((s.win w).e % 1024) = r
  seq : Rec.seq r = (s.win w).e
  crc : crcOk r = true
  win : Rec.win r = w

/-- A valid record is evaluated to its end. -/
theorem State.Watched.evaluate (h : s.Watched w r) : s.evaluate w =
    let u := (s.updWin w fun x => { x with due := false }).firstEvaluation w ((s.win w).e % 1024) r
    if Rec.kind r = 0 then u.acceptCredit w r else if 64 ≤ (u.win w).queue.length then u else u.accept w r := by
  obtain ⟨htaking, hop, hwritten, rfl, hseq, hcrc, hwin⟩ := h
  unfold State.evaluate
  extract_lets x k v r' u
  rw [if_neg (by simp [x, k, hwritten, htaking]), if_neg (c := v.rd Obj.moduleState ≠ 2) (not_not_intro hop),
    if_neg (c := Rec.seq r' ≠ x.e) (not_not_intro hseq), if_neg (c := ¬ crcOk r' = true) (not_not_intro hcrc),
    if_neg (c := Rec.win r' ≠ w) (not_not_intro hwin)]
  rfl

/-- A record other than credit joins the queue that has room. -/
theorem State.Watched.accepts (h : s.Watched w r) (hk : Rec.kind r ≠ 0) (hroom : (s.win w).queue.length < 64) :
    (s.evaluate w).cmd.bar0 = s.cmd.bar0 ∧ ((s.evaluate w).win w).e = seqNext (s.win w).e ∧
    ((s.evaluate w).win w).queue.map QEntry.raw = (s.win w).queue.map QEntry.raw ++ [r] := by
  rw [h.evaluate]
  obtain ⟨hbar, hqueue, he, -⟩ := State.firstEvaluation_keeps (s := s.updWin w fun x => { x with due := false }) (w := w)
    (k := (s.win w).e % 1024) (r := r)
  rw [State.win_updWin] at hqueue he
  dsimp only
  rw [if_neg hk, if_neg (Nat.not_le.2 (hqueue ▸ hroom))]
  obtain ⟨hbar', he', hqueue'⟩ := State.accept_accepts
    (s := (s.updWin w fun x => { x with due := false }).firstEvaluation w ((s.win w).e % 1024) r) (w := w) (r := r)
  exact ⟨hbar'.trans hbar, he'.trans (congrArg seqNext he), hqueue'.trans (by rw [hqueue])⟩

/-- A credit record retires. -/
theorem State.Watched.credits (h : s.Watched w r) (hk : Rec.kind r = 0) :
    ((s.evaluate w).win w).e = seqNext (s.win w).e ∧ ((s.evaluate w).win w).queue = (s.win w).queue ∧
    ((s.evaluate w).win w).state = if creditCheck r = 0 then (s.win w).state else .halted := by
  rw [h.evaluate]
  obtain ⟨-, hqueue, he, hstate⟩ := State.firstEvaluation_keeps (s := s.updWin w fun x => { x with due := false }) (w := w)
    (k := (s.win w).e % 1024) (r := r)
  rw [State.win_updWin] at hqueue he hstate
  dsimp only
  rw [if_pos hk]
  obtain ⟨he', hqueue', hstate'⟩ := State.acceptCredit_retires
    (s := (s.updWin w fun x => { x with due := false }).firstEvaluation w ((s.win w).e % 1024) r) (w := w) (r := r)
  refine ⟨he'.trans (congrArg seqNext he), hqueue'.trans hqueue, hstate'.trans ?_⟩
  rw [hstate]

/-- A write of a whole record to the watched slot over the owner's port has the slot evaluated, with all of its trailer marked. -/
theorem State.slotWrite_whole {p : HostPort} (hl : s.linkUp p = true) (hi : s.ideBlocked p = false) (ho : (s.win w).owner = some p)
    (hk : k = (s.win w).e % 1024) (hm : (s.win w).marks.get 0 k < 256) :
    ∃ v : State, s.slotWrite p w k 0 (recBytes r) = v.evaluate w ∧ v.obj = s.obj ∧
      v.cmd.bar0 = memWrite s.cmd.bar0 (slotAddr w k 0) (recBytes r) ∧ (v.win w).isWritten k = true ∧
      (v.win w).e = (s.win w).e ∧ (v.win w).state = (s.win w).state ∧ (v.win w).queue = (s.win w).queue := by
  have hin : inSlot 0 (recBytes r) = recBytes r := List.take_of_length_le (by simp)
  have hfull : (s.win w).marks.get 0 k ||| 255 = 255 :=
    Nat.le_antisymm (Nat.le_of_lt_succ (Nat.or_lt_two_pow (n := 8) hm (by decide))) Nat.right_le_or
  unfold State.slotWrite
  rw [trailerMask_recBytes, hin]
  extract_lets m _ v₁ v₂ v₃
  have h₂ : v₂.win w = { s.win w with marks := (s.win w).marks.upd 0 k (· ||| 255) } := State.win_updWin v₁ w _
  have hwritten : (v₂.win w).isWritten k = true := by
    rw [Window.isWritten, h₂, beq_iff_eq]
    exact (Tab.get_set_self 0 _ _ _).trans hfull
  have h₃ : v₃.win w = { v₂.win w with fresh := (v₂.win w).fresh.set false k true } := State.win_updWin v₂ w _
  refine ⟨v₃, ?_, rfl, rfl, ?_, ?_, ?_, ?_⟩
  · have he : k = (v₃.win w).e % 1024 := by rw [h₃, h₂]; exact hk
    rw [if_neg (by simp [hl]), if_neg (by simp [hi]), if_neg (by simp [ho]), if_neg (by decide), if_neg (by simp [hwritten]), if_pos he]
  · rw [h₃]
    exact hwritten
  all_goals rw [h₃, h₂]

/-- Settles O1: a watched slot with a valid record is evaluated to its end, whether a write, a credit word or room brings it there. -/
theorem validRecordsAreAccepted : Obligations.ValidRecordsAreAccepted := by
  unfold Obligations.ValidRecordsAreAccepted
  refine ⟨?_, ?_, ?_, ?_, ?_, ?_⟩
  · intro s p w k r hl hi ho hst hop hk hm hseq hwin hcrc hkind hroom
    obtain ⟨v, hrun, hobj, hbar, hwritten, he, hstate, hqueue⟩ := State.slotWrite_whole (r := r) hl hi ho hk hm
    have hslot := State.slot_of_write hbar
    have hwatched : v.Watched w r :=
      ⟨hstate ▸ hst, (State.rd_congr hobj _).trans hop, by rw [he, ← hk]; exact hwritten, by rw [he, ← hk]; exact hslot, by rw [he, hseq],
        hcrc, hwin⟩
    obtain ⟨hbar', he', hqueue'⟩ := hwatched.accepts hkind (by rw [hqueue]; exact hroom)
    refine ⟨_, rfl, ?_⟩
    rw [hrun]
    refine ⟨by rw [he', he], by rw [hqueue', hqueue], (State.slot_congr hbar' w k).trans hslot, fun a ha => ?_⟩
    rw [hbar', hbar]
    exact memWrite_get_outside _ (by rwa [recBytes_length])
  · exact fun s p w k off data hl hi ho hm => ⟨_, rfl, State.slotWrite_partial hl hi ho hm⟩
  · intro s p w k off data hl hf hm
    refine ⟨_, rfl, ?_⟩
    rw [State.slotWrite_foreign hl hf hm]
    exact ⟨rfl, State.rd_count_self s _ 1⟩
  · intro s w r hd hst hw hop hr hseq hwin hcrc hkind hc
    have hwatched : s.Watched w r := ⟨hst, hop, hw, hr.symm, hseq, hcrc, hwin⟩
    have hrun : execCredit w s = .next (s.evaluate w) := by simp [execCredit, State.watchedCredit, hd, ← hr, hkind]
    refine ⟨_, hrun, ?_⟩
    simpa [hc] using hwatched.credits hkind
  · intro s w r hd hst hw hop hr hseq hwin hcrc hkind hc
    have hwatched : s.Watched w r := ⟨hst, hop, hw, hr.symm, hseq, hcrc, hwin⟩
    have hrun : execCredit w s = .next (s.evaluate w) := by simp [execCredit, State.watchedCredit, hd, ← hr, hkind]
    refine ⟨_, hrun, ?_⟩
    simpa [hc] using hwatched.credits hkind
  · intro s w r hd hst hw hop hr hseq hwin hcrc hkind hroom
    have hwatched : s.Watched w r := ⟨hst, hop, hw, hr.symm, hseq, hcrc, hwin⟩
    have hrun : execAcceptOnRoom w s = .next (s.evaluate w) := by simp [execAcceptOnRoom, State.watchedCredit, hd, ← hr, hkind]
    exact ⟨_, hrun, (hwatched.accepts hkind hroom).2⟩

end Sys2Proof.Machine
end

section
/-! SUPPORT. The frame of the commands on the memory tiers, the update processor and the store. -/
namespace Sys2Proof.Machine

/-- Settles O47: each clause is the law of its command, whose conditions are that the parts and objects it names are listed. -/
theorem frameOfMemoryCommands : Obligations.FrameOfMemoryCommands := by
  unfold Obligations.FrameOfMemoryCommands
  repeat' refine And.intro ?_ ?_
  all_goals
    intros
    refine Leads.completes ?_ (exec_next _ _)
  -- regions, streams, rings and staging
  · apply execTierCreate_within <;> simp [Within.refl]
  · apply execTierFree_within <;> simp [Within.refl]
  · apply execTierMove_within <;> simp [Within.refl]
  · apply execStream_within <;> simp [Within.refl]
  · apply execRingConfig_within <;> simp [Within.refl]
  · apply execStreamGateOpen_within <;> simp [Within.refl]
  · apply execStageFillDone_within <;> simp [Within.refl]
  · apply execStageStall_within <;> simp [Within.refl]
  · apply execEviction_within <;> simp [Within.refl]
  -- memory lent over the host links and by the neighbour
  · apply execHlCommit_within <;> simp [Within.refl]
  · apply execHlRecall_within <;> simp [Within.refl]
  · apply execNbCommit_within <;> simp [Within.refl]
  · apply execLendRecall_within <;> simp [Within.refl]
  · apply execRecallNoticeExpiry_within <;> simp [Within.refl]
  · apply execLenderLost_within <;> simp [Within.refl]
  -- the banks of the memory
  · apply execBankReadReplay_within <;> simp [Within.refl]
  · apply execBankWriteRetry_within <;> simp [Within.refl]
  · exact execCaParityAlert_within (_c := ‹Fin 16›) (.refl _ _) rfl
  · apply execBankTempRead_within <;> simp [Within.refl]
  · apply execScrub_within <;> simp [Within.refl]
  -- the update processor
  · apply execUpdateMap_within <;> simp [Within.refl]
  · apply execUpdate_within <;> simp [Within.refl]
  · apply execRestore_within <;> simp [Within.refl]
  -- messages on memory that is lent
  · apply execMsgLend_within <;> simp [Within.refl]
  · apply execMsgRecall_within <;> simp [Within.refl]
  · apply execMsgRelease_within <;> simp [Within.refl]
  · apply execMsgWithdrawal_within <;> simp [Within.refl]
  · apply execMsgLentRead_within <;> simp [Within.refl]
  · apply execMsgLentData_within <;> simp [Within.refl]
  -- zones, media ingest, drains and flash
  · apply execSzReset_within <;> simp [Within.refl]
  · apply execSample_within <;> simp [Within.refl]
  · apply execFetch_within <;> simp [Within.refl]
  · apply execProfile_within <;> simp [Within.refl]
  · apply execEngineConfig_within <;> simp [Within.refl]
  · apply execAppend_within <;> simp [Within.refl]
  · apply execDrain_within <;> simp [Within.refl]
  · apply execSampleComplete_within <;> simp [Within.refl]
  · apply execDecoderStall_within <;> simp [Within.refl]
  · apply execAppendDone_within <;> simp [Within.refl]
  · apply execDrainComplete_within <;> simp [Within.refl]
  · apply execStripeRowProgrammed_within <;> simp [Within.refl]
  · apply execFlashReadFail_within <;> simp [Within.refl]
  · apply execGarbageCollection_within <;> simp [Within.refl]
  · apply execWearLevelCopy_within <;> simp [Within.refl]
  · apply execReadDisturbRefresh_within <;> simp [Within.refl]
  · apply execPowerUpReadScan_within <;> simp [Within.refl]

end Sys2Proof.Machine
end

section
/-! SUPPORT. Pages of regions as the tier manager's operations leave them, and what those operations leave alone. -/
namespace Sys2Proof.Machine

variable {s t u : State} {g : Scope} {h p x : Nat} {r : Region}

/-! ### What a `Within` law leaves -/

theorem Within.mem_eq (hw : Within g s t) (hp : Part.mem ∉ g.parts) : t.tier.mem = s.tier.mem := (hw.same .mem).resolve_left hp

theorem Within.regions_eq (hw : Within g s t) (hp : Part.tier ∉ g.parts) : t.tier.regions = s.tier.regions :=
  have e : { t.tier with mem := [] } = { s.tier with mem := [] } := (hw.same .tier).resolve_left hp
  have h' := congrArg TierState.regions e
  h'

theorem Within.now_eq (hw : Within g s t) (hp : Part.now ∉ g.parts) : t.now = s.now := (hw.same .now).resolve_left hp

theorem Within.power_eq (hw : Within g s t) (hp : Part.power ∉ g.parts) : t.power = s.power := (hw.same .power).resolve_left hp

/-- The tables of the tier manager, and any object. -/
def tierTables : Scope := ⟨[.tier], fun _ => True⟩

theorem Within.tables_cmd (hw : Within tierTables s t) : t.cmd = s.cmd := (hw.mono (by decide) fun _ _ => trivial).cmd_eq

theorem Within.tables_mem (hw : Within tierTables s t) : t.tier.mem = s.tier.mem := hw.mem_eq (by decide)

/-! ### The page a handle and a number name -/

/-- Page `p` of region `h`, where the handle names a region. -/
def State.pageOf (s : State) (h p : Nat) : Option RPage := (s.region h).map fun r => r.page p

theorem State.pageOf_region (hr : s.region h = some r) : s.pageOf h p = some (r.page p) := by rw [State.pageOf, hr, Option.map_some]

theorem State.pageOf_eq_some {y : RPage} : s.pageOf h p = some y ↔ ∃ r, s.region h = some r ∧ r.page p = y := Option.map_eq_some_iff

theorem State.region_congr (e : t.tier.regions = s.tier.regions) (h : Nat) : t.region h = s.region h := by rw [State.region, State.region, e]

theorem State.pageOf_congr (e : t.tier.regions = s.tier.regions) (h p : Nat) : t.pageOf h p = s.pageOf h p := by
  rw [State.pageOf, State.pageOf, State.region_congr e]

theorem State.region_setRegion_ne {k : Nat} (hk : k ≠ h) : (s.setRegion h r).region k = s.region k := Tab.find_insert_ne r hk

theorem State.updPage_region {f : RPage → RPage} (hr : s.region h = some r) :
    s.updPage h p f = s.setRegion h (r.setPage p (f (r.page p))) := by
  rw [State.updPage, hr]

@[simp] theorem State.pageOf_updPage {f : RPage → RPage} : (s.updPage h p f).pageOf h p = (s.pageOf h p).map f := by
  cases hr : s.region h with
  | none => simp [State.updPage, State.pageOf, hr]
  | some r => rw [State.updPage_region hr, State.pageOf, State.region_setRegion_self, State.pageOf, hr]; simp

/-- One page changes in the table of regions alone. -/
theorem State.updPage_shape (s : State) (h p : Nat) (f : RPage → RPage) :
    ∃ l, s.updPage h p f = { s with tier := { s.tier with regions := l } } := by
  unfold State.updPage
  split
  · exact ⟨s.tier.regions, rfl⟩
  · exact ⟨_, rfl⟩

/-- Of page `p` of region `h` the state `t` may hold another move than `s`, and all else as `s` holds it. -/
def OnlyMoves (h p : Nat) (s t : State) : Prop := ∀ y, s.pageOf h p = some y → ∃ m, t.pageOf h p = some { y with move := m }

theorem OnlyMoves.of (e : t.tier.regions = s.tier.regions) : OnlyMoves h p s t := fun y hy => ⟨y.move, (State.pageOf_congr e h p).trans hy⟩

theorem OnlyMoves.trans (h₁ : OnlyMoves h p s u) (h₂ : OnlyMoves h p u t) : OnlyMoves h p s t := fun y hy =>
  have ⟨_, hu⟩ := h₁ y hy
  have ⟨m, ht⟩ := h₂ _ hu
  ⟨m, ht⟩

theorem OnlyMoves.foldl {α : Type} {f : State → α → State} (hf : ∀ v a, OnlyMoves h p v (f v a)) (l : List α) (s : State) :
    OnlyMoves h p s (l.foldl f s) := by
  induction l generalizing s with
  | nil => exact .of rfl
  | cons a l ih => exact (hf s a).trans (ih _)

/-! ### Retirement (R262) -/

/-- Of the tiers a retirement changes the list of retired pages alone, which then holds the page. -/
theorem State.retirePhys_tier (s : State) (x : Nat) : ∃ l, (s.retirePhys x).tier = { s.tier with retired := l } ∧ x ∈ l := by
  unfold State.retirePhys
  split
  · next hx => exact ⟨s.tier.retired, rfl, by simpa using hx⟩
  · refine ⟨setIns s.tier.retired x, ?_, mem_setIns_self _ _⟩
    extract_lets _ s₁ s₂ n s₃ s₄
    have h₃ : (if s₃.poolTaken = 32768 then s₃.lifeExceed 3 else s₃).tier = s₁.tier := by
      split
      · exact State.lifeExceed_tier s₃ 3
      · rfl
    have h₄ : (if n - 1 < 1024 then (s₄.raiseOnce Ev.bankSparesLow 0 []).lifeWarn 3 else s₄).tier = s₁.tier := by
      split
      · exact (State.lifeWarn_tier _ 3).trans (State.raiseOnce_tier s₄ _ _ _)
      · rfl
    split
    · exact h₃
    · exact h₄

theorem State.mem_retired_retirePhys : x ∈ (s.retirePhys x).tier.retired := by
  obtain ⟨l, e, hx⟩ := s.retirePhys_tier x
  rw [e]
  exact hx

theorem State.retirePhys_regions : (s.retirePhys x).tier.regions = s.tier.regions := by
  obtain ⟨l, e, -⟩ := s.retirePhys_tier x
  rw [e]

theorem State.retirePhys_cmd : (s.retirePhys x).cmd = s.cmd :=
  (State.retirePhys_within (g := offCommand) (by decide) (by decide) (.refl _ s) (fun _ => trivial) trivial trivial).cmd_eq

/-- A page entered for retirement keeps its home, its marks and its stamp. -/
theorem State.enterRetire_onlyMoves : OnlyMoves h p s (s.enterRetire x h p) := by
  unfold State.enterRetire
  split
  · exact .of State.retirePhys_regions
  · extract_lets pg
    split
    · exact .of rfl
    · split
      · exact .of rfl
      · split
        · exact fun y hy => ⟨_, by rw [State.startMove, State.pageOf_updPage, hy, Option.map_some]⟩
        · exact .of State.retirePhys_regions

/-- The retirements that waited for a move leave the page's home. -/
theorem State.retireWaiting_onlyMoves {left : Bool} : OnlyMoves h p s (s.retireWaiting h p left) := by
  unfold State.retireWaiting
  extract_lets ws _ v
  have hv : OnlyMoves h p s v := .of rfl
  refine hv.trans (.foldl (fun v e => ?_) ws v)
  split
  · exact .of State.retirePhys_regions
  · exact State.enterRetire_onlyMoves

/-- A record whose read hit a marked unit changes in its window alone. -/
theorem State.hitStatus_tier {w q : Nat} : (s.hitStatus w q h).tier = s.tier := by
  unfold State.hitStatus
  extract_lets v
  have hv : v.tier = s.tier := State.updEntry_tier s ..
  split
  · split
    · rw [State.haltWin_tier, hv]
    · exact hv
  · exact hv

end Sys2Proof.Machine
end

section
/-! SUPPORT. Repairs of the bank tier: what an uncorrectable unit, a sweep of the patrol scrub and a thermal park leave alone, and the
statement on their commands. -/
namespace Sys2Proof.Machine

variable {s t u v : State} {addr x : Nat} {b : BankUnit} {reads : List Bytes} {reader : Option (Nat × Nat)}

/-! ### Replays, retries and uncorrectable units (R258, R261) -/

theorem State.bankRead_passes (h : failedReads addr reads = 0) : s.bankRead addr b reads reader = s := if_pos h

theorem State.bankRead_replays (h0 : 0 < failedReads addr reads) (h3 : failedReads addr reads ≤ 3)
    (hl : failedReads addr reads < reads.length) : s.bankRead addr b reads reader = s.count (Obj.chReplays (addr / 1024 % 16)) 1 :=
  (if_neg h0.ne').trans ((if_pos h3).trans (if_pos hl))

theorem State.bankRead_fails (h : 3 < failedReads addr reads) : s.bankRead addr b reads reader = s.uncorrectable addr b reader :=
  (if_neg (by omega)).trans (if_neg (by omega))

theorem State.bankWrite_retries {fails : Nat} (h0 : 0 < fails) (h3 : fails ≤ 3) :
    s.bankWrite addr b fails = (s.count Obj.bankWriteRetries fails).count (Obj.chReplays (addr / 1024 % 16)) 1 := by
  simp only [State.bankWrite, Nat.min_eq_left h3, h0.ne', h3, if_false, if_true]

theorem State.bankWrite_unused {fails : Nat} (h : 3 < fails) :
    s.bankWrite addr .unused fails = (s.count Obj.bankWriteRetries 3).uncorrectable addr .unused none := by
  have h0 : fails ≠ 0 := by omega
  simp only [State.bankWrite, Nat.min_eq_right h.le, h0, Nat.not_le.2 h, if_false]

/-- A page that holds nothing is retired. -/
theorem State.uncorrectable_unused :
    s.uncorrectable addr .unused reader = (s.countSat (Obj.chUncorrectable (addr / 1024 % 16)) 1).retirePhys (addr / 1024) := rfl

/-- The parts that the response to an uncorrectable unit may change, with objects as `keys` allows. -/
def repairScope (keys : Nat → Prop) : Scope :=
  ⟨[.prep, .bar0, .cmd, .castMem, .tile, .spans, .upd, .link, .coll, .tier, .store, .cross, .start], keys⟩

/-- The response to an uncorrectable unit, and a sweep's place, its bytes apart. -/
theorem State.uncorrectable_repairs : Within (repairScope fun k => k ≠ Obj.scrubProgress) s (s.uncorrectable addr b reader) := by
  apply State.uncorrectable_within
  case k_chRetired | k_chUncorrectable | k_decState | k_flitsTx =>
    intro n
    simp only [repairScope, Obj.chRetired, Obj.chUncorrectable, Obj.decState, Obj.flitsTx, Obj.scrubProgress]
    omega
  case h => exact .refl _ s
  all_goals simp [repairScope]

/-- Where the page map shows the page of a table or general region, its unit is marked, whatever becomes of the page. -/
theorem State.uncorrectable_marks {h p l : Nat} {r : Region} (hm : s.tier.map.find (lentPage h p) = some (addr / 1024))
    (hr : s.region h = some r) (hc : r.cls = 6 ∨ r.cls = 7) :
    ∃ y, (s.uncorrectable addr (.region h p l) reader).pageOf h p = some y ∧ addr % 1024 ∈ y.bad := by
  unfold State.uncorrectable
  extract_lets x s₁ hit
  have hloc : s₁.located x (.region h p l) = (s₁, .region h p l) := by
    rw [State.located, show s₁.tier.map.find (lentPage h p) = some x from hm]
    exact congrArg (Prod.mk s₁) (if_pos rfl)
  rw [hloc]
  have hhit : ∀ v, (hit v h).tier = v.tier := fun v => by
    unfold hit
    split
    · exact State.hitStatus_tier
    · rfl
  clear_value hit
  dsimp only
  rw [show s₁.region h = some r from hr]
  dsimp only
  rw [if_neg (by omega), if_neg (by omega)]
  have hr₂ : (s₁.tellBad x r.cls h p).region h = some r :=
    (State.region_congr (congrArg TierState.regions (State.raise_tier s₁ _ _)) h).trans hr
  have hmark : ((s₁.tellBad x r.cls h p).markBad h p (addr % 1024)).pageOf h p =
      some { r.page p with bad := setIns (r.page p).bad (addr % 1024) } := by
    rw [State.markBad, State.pageOf_updPage, State.pageOf_region hr₂, Option.map_some]
  obtain ⟨m, hmove⟩ := State.enterRetire_onlyMoves (x := x) _ hmark
  have hcls : ∀ v : State, v.classResponse h p r.cls = v := fun v => by rcases hc with hc | hc <;> simp [State.classResponse, hc]
  rw [hcls, State.pageOf_congr (congrArg TierState.regions (hhit _)), hmove]
  exact ⟨_, rfl, mem_setIns_self _ _⟩

/-! ### A step abort and the bytes scrubbed (R194, R260)

The law of a step abort asks that every key of an engine's state is listed, though an abort writes those of the 16 engines alone. -/

/-- What a repair may change, but for the count of bytes scrubbed. -/
def offScrub : Scope := repairScope fun k => k ≠ Obj.bankScrubBytes

theorem Within.scrubBytes_eq (h : Within offScrub s t) : t.rd Obj.bankScrubBytes = s.rd Obj.bankScrubBytes :=
  h.rd_eq (fun hk => hk rfl) (by decide)

theorem State.freeEngines_scrubBytes : u.freeEngines.rd Obj.bankScrubBytes = u.rd Obj.bankScrubBytes := by
  refine List.foldlRecOn (motive := fun v : State => v.rd Obj.bankScrubBytes = u.rd Obj.bankScrubBytes) _ _ rfl fun v h k hk => ?_
  have := List.mem_range.1 hk
  split
  · exact (State.rd_wr_ne (by simp only [Obj.decState, Obj.bankScrubBytes]; omega)).trans h
  · exact h

theorem State.clearTiles_rd (k : Nat) : u.clearTiles.rd k = u.rd k := rfl

theorem State.clearUnits_scrubBytes {n : Nat} : (u.clearUnits n).rd Obj.bankScrubBytes = u.rd Obj.bankScrubBytes := by
  unfold State.clearUnits
  extract_lets s₁ _ _ _ s₃ s₅ _ _ s₈
  have h₁ : Within offScrub u s₁ := State.endWaits_within (by decide) (State.endStall_within (by decide) (.refl _ u)
    (k_collMismatchCycles := (by decide : Obj.collMismatchCycles ≠ Obj.bankScrubBytes))
    (k_groupState := (by decide : Obj.groupState ≠ Obj.bankScrubBytes)))
    (k_tmWaitCycles := (by decide : Obj.tmWaitCycles ≠ Obj.bankScrubBytes))
  have h₃ : s₃.rd Obj.bankScrubBytes = u.rd Obj.bankScrubBytes := (State.rd_congr (s := s₁) rfl _).trans h₁.scrubBytes_eq
  have h₅ : s₅.rd Obj.bankScrubBytes = u.rd Obj.bankScrubBytes := State.freeEngines_scrubBytes.trans h₃
  clear_value s₅
  have h₈ : s₈.rd Obj.bankScrubBytes = u.rd Obj.bankScrubBytes := (State.rd_congr (s := s₅) rfl _).trans h₅
  clear_value s₈
  split
  · split
    · exact h₈
    · extract_lets s₉ s₁₀
      have h₉ : s₉.rd Obj.bankScrubBytes = s₈.rd Obj.bankScrubBytes := by
        unfold s₉
        split
        · exact (State.rd_wr_ne (by decide)).trans (State.rd_wr_ne (by decide))
        · rfl
      have h₁₀ : s₁₀.rd Obj.bankScrubBytes = s₉.rd Obj.bankScrubBytes :=
        (State.rd_wr_ne (by decide)).trans (State.rd_wr_ne (by decide))
      clear_value s₉ s₁₀
      exact (State.rd_congr (s := s₁₀) rfl _).trans (h₁₀.trans (h₉.trans h₈))
  · exact h₈

theorem State.abortAnnounce_scrubBytes {cause : Nat} : (u.abortAnnounce cause).rd Obj.bankScrubBytes = u.rd Obj.bankScrubBytes := by
  have hstep : (u.abortStep cause).rd Obj.bankScrubBytes = u.rd Obj.bankScrubBytes := by
    unfold State.abortStep
    extract_lets n s₁ s₂ s₃
    have h₁ : Within offScrub u s₁ := .foldl (fun _ _ h => State.discardWin_within (by decide) h) (.refl _ u)
    have h₃ : Within offScrub s₂ s₃ := .foldl (fun _ _ h => State.abortWin_within (by decide) (by decide) h) (.refl _ s₂)
    have h₂ : s₂.rd Obj.bankScrubBytes = s₁.rd Obj.bankScrubBytes :=
      (State.clearUnits_scrubBytes (u := s₁.clearTiles) (n := n)).trans (State.clearTiles_rd _)
    clear_value s₁ s₂ s₃
    exact (State.rd_congr (s := s₃) rfl _).trans (h₃.scrubBytes_eq.trans (h₂.trans h₁.scrubBytes_eq))
  unfold State.abortAnnounce
  extract_lets n v
  split
  · exact hstep
  · have h (m : Msg) : Within offScrub v (v.sendAll m) := State.sendAll_within (by decide) (by decide) (by decide) (.refl _ v)
      (k_collBytesTx := (by decide : Obj.collBytesTx ≠ Obj.bankScrubBytes))
      (k_flitsTx := fun n => by simp only [offScrub, repairScope, Obj.flitsTx, Obj.bankScrubBytes]; omega)
    exact (h _).scrubBytes_eq.trans hstep

section
variable (h : Within offScrub s u)
include h

theorem Within.retirePhys_offScrub : Within offScrub s (u.retirePhys x) :=
  State.retirePhys_within (by decide) (by decide) h (fun n => by simp only [offScrub, repairScope, Obj.chRetired, Obj.bankScrubBytes]; omega)
    (by decide : Obj.sparePages ≠ Obj.bankScrubBytes) (by decide : Obj.t1PoolPages ≠ Obj.bankScrubBytes)

theorem Within.enterRetire_offScrub {h₁ p : Nat} : Within offScrub s (u.enterRetire x h₁ p) :=
  State.enterRetire_within (by decide) (by decide) h
    (fun n => by simp only [offScrub, repairScope, Obj.chRetired, Obj.bankScrubBytes]; omega)
    (by decide : Obj.sparePages ≠ Obj.bankScrubBytes) (by decide : Obj.t1PoolPages ≠ Obj.bankScrubBytes)

theorem Within.layerLost_offScrub {l : Nat} : Within offScrub s (u.layerFault l).loseState :=
  State.loseState_within (by decide) (State.layerFault_within (by decide) (by decide) h)

end

theorem State.classResponse_scrubBytes {h p cls : Nat} : (s.classResponse h p cls).rd Obj.bankScrubBytes = s.rd Obj.bankScrubBytes := by
  unfold State.classResponse
  split
  · exact State.rd_count_ne (by decide) |>.trans (Within.scrubBytes_eq (State.unmapPage_within (by decide)
      (State.updPage_within (by decide) (.refl _ s))))
  · split
    · exact State.abortAnnounce_scrubBytes
    · split
      · exact State.abortAnnounce_scrubBytes
      · split
        · exact Within.scrubBytes_eq (State.loseState_within (by decide)
            (.foldl (fun _ _ hv => State.layerFault_within (by decide) (by decide) hv) (.refl _ s)))
        · rfl

/-- The response to an uncorrectable unit counts no byte as scrubbed. -/
theorem State.uncorrectable_scrubBytes : (s.uncorrectable addr b reader).rd Obj.bankScrubBytes = s.rd Obj.bankScrubBytes := by
  unfold State.uncorrectable
  extract_lets x s₁ hit
  have h₁ : Within offScrub s s₁ := State.countSat_within (.refl _ s)
    (by simp only [offScrub, repairScope, Obj.chUncorrectable, Obj.bankScrubBytes]; omega)
  have hhit : ∀ v h, Within offScrub s v → Within offScrub s (hit v h) := fun v h hv => by
    unfold hit
    split
    · exact State.hitStatus_within (by decide) hv
    · exact hv
  clear_value hit
  split
  next s₂ b₂ hloc =>
  have h₂ : Within offScrub s s₂ := .pair (State.located_within (by decide) h₁) hloc
  clear_value s₁
  split
  · exact h₂.retirePhys_offScrub.scrubBytes_eq
  · exact State.abortAnnounce_scrubBytes.trans (Within.retirePhys_offScrub (State.raise_within h₂)).scrubBytes_eq
  · exact (Within.retirePhys_offScrub (State.raise_within h₂)).layerLost_offScrub.scrubBytes_eq
  · split
    · exact h₂.retirePhys_offScrub.scrubBytes_eq
    · extract_lets s₃ s₄
      have h₃ : Within offScrub s s₃ := State.tellBad_within h₂
      have h₄ : Within offScrub s s₄ := hhit _ _ (State.markBad_within (by decide) h₃).enterRetire_offScrub
      clear_value s₃ s₄
      split
      · exact (hhit _ _ (State.discardPage_within (by decide) h₃
          (by decide : Obj.tmDiscards ≠ Obj.bankScrubBytes))).retirePhys_offScrub.scrubBytes_eq
      · split
        · exact h₄.layerLost_offScrub.scrubBytes_eq
        · exact State.classResponse_scrubBytes.trans h₄.scrubBytes_eq

/-! ### The patrol scrub (R260) -/

theorem State.rd_raiseOnce {code inst j : Nat} {ps : List Bytes} (hj : eventKey j = false) (hc : 256 ≤ code ∧ code < 4096) :
    (s.raiseOnce code inst ps).rd j = s.rd j := by
  unfold State.raiseOnce
  split
  · rfl
  · exact State.rd_raise hj hc

theorem State.scrubLate_tier : s.scrubLate.tier = s.tier := by
  unfold State.scrubLate
  split
  · exact State.raiseOnce_tier ..
  · rfl

theorem State.scrubLate_now : s.scrubLate.now = s.now := by
  unfold State.scrubLate
  split
  · exact State.raiseOnce_now ..
  · rfl

theorem State.rd_scrubLate {j : Nat} (hj : eventKey j = false) : s.scrubLate.rd j = s.rd j := by
  unfold State.scrubLate
  split
  · exact State.rd_raiseOnce hj (by decide)
  · rfl

/-- What the scrub makes of the page it reads: its bytes counted, its worst unit written back or found uncorrectable. -/
def State.scrubRead (s : State) (b : BankUnit) (unit : Nat) (reads : List Bytes) : State :=
  let x := s.rd Obj.scrubProgress
  let v := s.count Obj.bankScrubBytes 65536
  let n := failedReads (1024 * x + unit) reads
  if n = 0 then v
  else if n ≤ 3 then (v.count (Obj.chReplays (x % 16)) 1).replayed x b
  else v.uncorrectable (1024 * x + unit) b none

theorem State.scrub_deferred {unit : Nat} (hd : s.e2Deferred = true) : s.scrub b unit reads = s.scrubLate := by
  rw [State.scrub, if_pos hd]

theorem State.scrub_next {unit : Nat} (hd : s.e2Deferred = false) (hx : s.rd Obj.scrubProgress + 1 < 33554432) :
    s.scrub b unit reads = ((s.scrubRead b unit reads).wr Obj.scrubProgress (s.rd Obj.scrubProgress + 1)).scrubLate := by
  simp only [State.scrub, hd, Bool.false_eq_true, if_false, hx, if_true]
  rfl

theorem State.scrub_last {unit : Nat} (hd : s.e2Deferred = false) (hx : 33554432 ≤ s.rd Obj.scrubProgress + 1) :
    s.scrub b unit reads = (s.scrubRead b unit reads).sweepEnd := by
  simp only [State.scrub, hd, Bool.false_eq_true, if_false, Nat.not_lt.2 hx]
  rfl

theorem State.scrubRead_passes {unit : Nat} (h : failedReads (1024 * s.rd Obj.scrubProgress + unit) reads = 0) :
    s.scrubRead b unit reads = s.count Obj.bankScrubBytes 65536 := by
  simp only [State.scrubRead, h, if_true]

/-- A page replayed is counted and may be retired. -/
theorem State.replayed_repairs :
    Within (repairScope fun k => k ≠ Obj.scrubProgress ∧ k ≠ Obj.bankScrubBytes) s (s.replayed x b) := by
  refine State.replayed_within (by decide) (by decide) (.refl _ s) (fun n => ?_) (by simp [repairScope]) (by simp [repairScope])
  simp only [repairScope, Obj.chRetired, Obj.scrubProgress, Obj.bankScrubBytes]
  omega

/-- Whatever the scrub finds on a page, the page's bytes count once, the sweep stands where it stood and no region byte changes. -/
theorem State.scrubRead_keeps (s : State) (b : BankUnit) (unit : Nat) (reads : List Bytes) :
    (s.scrubRead b unit reads).rd Obj.scrubProgress = s.rd Obj.scrubProgress ∧
    (s.scrubRead b unit reads).rd Obj.bankScrubBytes = (s.rd Obj.bankScrubBytes + 65536) % 2 ^ 64 ∧
    (s.scrubRead b unit reads).tier.mem = s.tier.mem ∧ (s.scrubRead b unit reads).now = s.now := by
  unfold State.scrubRead
  extract_lets x v n
  have hplace : v.rd Obj.scrubProgress = s.rd Obj.scrubProgress := State.rd_count_ne (by decide)
  have hbytes : v.rd Obj.bankScrubBytes = (s.rd Obj.bankScrubBytes + 65536) % 2 ^ 64 :=
    State.rd_count_self s Obj.bankScrubBytes 65536
  have hmem : v.tier.mem = s.tier.mem := congrArg TierState.mem (State.count_tier s ..)
  have hnow : v.now = s.now := State.count_now s ..
  clear_value v
  split
  · exact ⟨hplace, hbytes, hmem, hnow⟩
  · split
    · have h : Within (repairScope fun k => k ≠ Obj.scrubProgress ∧ k ≠ Obj.bankScrubBytes) (v.count (Obj.chReplays (x % 16)) 1) _ :=
        State.replayed_repairs (x := x) (b := b)
      refine ⟨?_, ?_, (h.mem_eq (by decide)).trans hmem, (h.now_eq (by decide)).trans hnow⟩
      · rw [h.rd_eq (fun hk => hk.1 rfl) (by decide), State.rd_count_ne (by simp only [Obj.scrubProgress, Obj.chReplays]; omega), hplace]
      · rw [h.rd_eq (fun hk => hk.2 rfl) (by decide), State.rd_count_ne (by simp only [Obj.bankScrubBytes, Obj.chReplays]; omega), hbytes]
    · have h := State.uncorrectable_repairs (s := v) (addr := 1024 * x + unit) (b := b) (reader := none)
      exact ⟨(h.rd_eq (fun hk => hk rfl) (by decide)).trans hplace, State.uncorrectable_scrubBytes.trans hbytes,
        (h.mem_eq (by decide)).trans hmem, (h.now_eq (by decide)).trans hnow⟩

/-- The moment a sweep of the patrol scrub begins. -/
def State.beginSweep (s : State) : State := { s with tier := { s.tier with sweepFrom := s.now } }

theorem State.sweepEnd_eq (s : State) : s.sweepEnd = ((s.wr Obj.scrubProgress 0).scrubLate.endEpisode Ev.scrubLate 0).beginSweep := rfl

theorem State.beginSweep_rd (s : State) (code inst k : Nat) : (s.endEpisode code inst).beginSweep.rd k = s.rd k := rfl

theorem State.beginSweep_tier (s : State) (code inst : Nat) :
    (s.endEpisode code inst).beginSweep.tier = { s.tier with sweepFrom := s.now } := rfl

theorem State.sweepEnd_place (s : State) : s.sweepEnd.rd Obj.scrubProgress = 0 := by
  rw [State.sweepEnd_eq, State.beginSweep_rd, State.rd_scrubLate (by decide), State.rd_wr_self]

/-- The next sweep begins now, and of the tiers nothing else changes. -/
theorem State.sweepEnd_tier (s : State) : s.sweepEnd.tier = { s.tier with sweepFrom := s.now } := by
  rw [State.sweepEnd_eq, State.beginSweep_tier, State.scrubLate_tier, State.scrubLate_now, State.wr_tier, State.wr_now]

/-! ### Thermal park and the channels' readings (R259, R379)

The law of entering park asks that every key of a port's power state and plane is listed, though it writes those of the 16 ports alone. -/

/-- `t` comes of `s` with the reading of channel `c`, and whether the module is in thermal park, as they were. -/
structure KeepsHeat (c : Nat) (s t : State) : Prop where
  temp : t.rd (Obj.chTemp c) = s.rd (Obj.chTemp c)
  park : t.power.heatPark = s.power.heatPark

section
variable {c : Fin 16} {p : Nat}

theorem KeepsHeat.refl (s : State) : KeepsHeat c s s := ⟨rfl, rfl⟩

theorem KeepsHeat.trans (h₁ : KeepsHeat c s u) (h₂ : KeepsHeat c u t) : KeepsHeat c s t := ⟨h₂.temp.trans h₁.temp, h₂.park.trans h₁.park⟩

theorem KeepsHeat.ite {q : Prop} [Decidable q] (ht : KeepsHeat c s t) (hu : KeepsHeat c s u) : KeepsHeat c s (if q then t else u) := by
  split <;> assumption

theorem KeepsHeat.of (ho : t.obj = s.obj) (hp : t.power.heatPark = s.power.heatPark) : KeepsHeat c s t := ⟨State.rd_congr ho _, hp⟩

theorem KeepsHeat.wr {k n : Nat} (hk : k ≠ Obj.chTemp c) : KeepsHeat c s (s.wr k n) := ⟨State.rd_wr_ne hk.symm, rfl⟩

theorem eventKey_chTemp (c : Fin 16) : eventKey (Obj.chTemp c) = false := by decide +revert

/-- The links and what stands beside them, and every object but the reading of a channel. -/
def offHeat (c : Fin 16) : Scope := ⟨[.link, .coll, .cross, .start], fun k => k ≠ Obj.chTemp c⟩

theorem Within.keepsHeat (h : Within (offHeat c) s t) : KeepsHeat c s t :=
  ⟨h.rd_eq (fun hk => hk rfl) (eventKey_chTemp c), congrArg PowerState.heatPark (h.power_eq (by simp [offHeat]))⟩

/-- The plane of a port is freed. -/
theorem State.unmap_keepsHeat (hp : p < 16) : KeepsHeat c s (s.unmap p) := by
  have hplane : ∀ b, b < 16 → Obj.planePort (b + 1) ≠ Obj.chTemp c := fun b hb => by
    simp only [Obj.planePort, Obj.chTemp]
    omega
  have hlogical : Obj.logicalPlane p ≠ Obj.chTemp c := by
    simp only [Obj.logicalPlane, Obj.chTemp]
    omega
  unfold State.unmap
  extract_lets old b s₁ s₂
  have h₁ : KeepsHeat c s s₁ := by
    unfold s₁
    split
    · next hb => exact .wr (hplane b hb.1)
    · exact .refl s
  have h₂ : KeepsHeat c s s₂ := h₁.trans (.wr hlogical)
  clear_value s₂
  have h₃ : ∀ v : State, KeepsHeat c v (v.remapped old) := fun v => Within.keepsHeat (State.remapped_within (by simp [offHeat]) (.refl _ v)
    (by simp [offHeat, Obj.remapCount, Obj.chTemp]; omega))
  exact h₂.trans ((KeepsHeat.ite (.wr (hplane p hp)) (.refl s₂)).trans (h₃ _))

theorem State.goDown_keepsHeat (hp : p < 16) : KeepsHeat c s (s.goDown p) := by
  unfold State.goDown
  extract_lets s₁
  have h₁ : Within (offHeat c) s s₁ := State.updPort_within (by simp [offHeat])
    (State.wr_within (State.portTo_within (by simp [offHeat]) (.refl _ s)
      (k_portState := fun n => by simp only [offHeat, Obj.portState, Obj.chTemp]; omega)) _ _
      (by simp only [offHeat, Obj.idResult, Obj.chTemp]; omega))
  have h₂ : Within (offHeat c) s (s₁.handBack p) := State.handBack_within (by simp [offHeat]) (by simp [offHeat]) (by simp [offHeat]) h₁
    (k_collBytesTx := by simp only [offHeat, Obj.collBytesTx, Obj.chTemp]; omega)
    (k_collResends := by simp only [offHeat, Obj.collResends, Obj.chTemp]; omega)
    (k_flitsTx := fun n => by simp only [offHeat, Obj.flitsTx, Obj.chTemp]; omega)
  exact h₂.keepsHeat.trans (State.unmap_keepsHeat hp)

theorem KeepsHeat.portPower {n : Nat} (hp : p < 16) : KeepsHeat c s (s.wr (Obj.portPowerState p) n) :=
  .wr (by simp only [Obj.portPowerState, Obj.chTemp]; omega)

theorem State.sleepPort_keepsHeat {n : Nat} (hp : p < 16) : KeepsHeat c s (s.sleepPort p n) :=
  (KeepsHeat.ite (.refl s) (State.goDown_keepsHeat hp)).trans (.portPower hp)

theorem KeepsHeat.ports {f : State → Nat → State} (hf : ∀ v p, p < 16 → KeepsHeat c v (f v p)) : KeepsHeat c s ((List.range 16).foldl f s) :=
  List.foldlRecOn (motive := fun v => KeepsHeat c s v) _ _ (.refl s) fun v h p hp => h.trans (hf v p (List.mem_range.1 hp))

theorem State.parkPorts_keepsHeat {deep : Bool} : KeepsHeat c s (s.parkPorts deep) :=
  .ports fun v _ hp => .ite (State.sleepPort_keepsHeat hp) (.ite (.portPower hp) (.refl v))

theorem State.leaveDeep_keepsHeat : KeepsHeat c s s.leaveDeep := .ports fun v _ hp => .ite (.portPower hp) (.refl v)

theorem State.railForHold_keepsHeat {was new : Nat} : KeepsHeat c s (s.railForHold was new) := .ite (.of rfl rfl) (.ite (.of rfl rfl) (.refl s))

theorem State.clockTo_keepsHeat {op : Nat} : KeepsHeat c s (s.clockTo op) := by
  have h : KeepsHeat c s (s.wr Obj.opInForce op) := .wr (by simp only [Obj.opInForce, Obj.chTemp]; omega)
  exact .ite h (h.trans (.of rfl rfl))

theorem State.runArray_keepsHeat : KeepsHeat c s s.runArray := by
  unfold State.runArray
  extract_lets _ _ s₁
  have h₁ : KeepsHeat c s s₁ := .of rfl rfl
  exact (h₁.trans State.clockTo_keepsHeat).trans ((KeepsHeat.wr (by simp only [Obj.duty, Obj.chTemp]; omega)).trans
    ((KeepsHeat.wr (by simp only [Obj.vtrimMv, Obj.chTemp]; omega)).trans (.of rfl rfl)))

/-- What the module does when a reason for park begins or ends. -/
theorem State.repower_keepsHeat : KeepsHeat c s s.repower := by
  have hstate : Obj.powerState ≠ Obj.chTemp c := by simp only [Obj.powerState, Obj.chTemp]; omega
  have hparks : Obj.parks ≠ Obj.chTemp c := by simp only [Obj.parks, Obj.chTemp]; omega
  unfold State.repower
  extract_lets was new s₁ s₂ _ s₃ s₄
  have h₁ : KeepsHeat c s s₁ := (KeepsHeat.wr hstate).trans State.railForHold_keepsHeat
  clear_value s₁
  have h₂ : KeepsHeat c s s₂ := by
    unfold s₂
    split
    · exact h₁.trans (.wr hparks)
    · exact h₁
  clear_value s₂
  have h₃ : KeepsHeat c s s₃ := by
    unfold s₃
    split
    · refine h₂.trans (.trans ?_ State.parkPorts_keepsHeat)
      exact .of rfl rfl
    · exact h₂
  clear_value s₃
  have h₄ : KeepsHeat c s s₄ := by
    unfold s₄
    split
    · exact h₃.trans State.parkPorts_keepsHeat
    · exact h₃.trans (.ite State.leaveDeep_keepsHeat (.refl s₃))
  clear_value s₄
  exact h₄.trans (.ite (State.runArray_keepsHeat.trans (.wr hstate)) (.refl s₄))


/-- A channel's reading is kept and the refresh interval follows the hottest channel. -/
def State.tempTaken (s : State) (c : Nat) (temp : Int) : State :=
  let s := s.wr (Obj.chTemp c) (ofInt 32 (max (-40) (min 150 temp)))
  s.wr Obj.refreshIntervalNs (if (List.range 16).any fun d => decide (85 < toInt 32 (s.rd (Obj.chTemp d))) then 1950 else 3900)

/-- The episode of a hot channel begins above 95 degrees and ends below 92. -/
def State.hotEpisode (s : State) (c : Nat) (temp : Int) : State :=
  if 95 < temp then s.raiseOnce Ev.bankHot c [] else if temp < 92 then s.endEpisode Ev.bankHot c else s

/-- Thermal park begins (R379). -/
def State.heatParked (s : State) : State := { s with power := { s.power with heatPark := true, heatDuty := 0 } }

theorem State.bankTemp_eq (s : State) (c : Nat) (temp : Int) :
    s.bankTemp c temp = (if 105 < temp then (s.tempTaken c temp).heatParked.repower else s.tempTaken c temp).hotEpisode c temp := rfl

theorem State.rd_hotEpisode {n j : Nat} {temp : Int} (hj : eventKey j = false) : (s.hotEpisode n temp).rd j = s.rd j := by
  unfold State.hotEpisode
  split
  · exact State.rd_raiseOnce hj (by decide)
  · split
    · exact State.rd_congr (State.endEpisode_obj ..) _
    · rfl

theorem State.hotEpisode_power {n : Nat} {temp : Int} : (s.hotEpisode n temp).power = s.power := by
  unfold State.hotEpisode
  split
  · exact State.raiseOnce_power ..
  · split
    · exact State.endEpisode_power ..
    · rfl

theorem State.tempTaken_reading {temp : Int} : (s.tempTaken c temp).rd (Obj.chTemp c) = ofInt 32 (max (-40) (min 150 temp)) := by
  rw [State.tempTaken, State.rd_wr_ne (by simp only [Obj.chTemp, Obj.refreshIntervalNs]; omega), State.rd_wr_self]

/-- A reading up to 105 degrees changes no part of the power states. -/
theorem State.bankTemp_taken {temp : Int} (h : temp ≤ 105) :
    (s.bankTemp c temp).rd (Obj.chTemp c) = ofInt 32 (max (-40) (min 150 temp)) ∧
    (s.bankTemp c temp).rd Obj.refreshIntervalNs = (s.tempTaken c temp).rd Obj.refreshIntervalNs ∧ (s.bankTemp c temp).power = s.power := by
  rw [State.bankTemp_eq, if_neg (by omega), State.rd_hotEpisode (eventKey_chTemp c), State.rd_hotEpisode (by decide), State.hotEpisode_power,
    State.tempTaken_reading]
  exact ⟨rfl, rfl, rfl⟩

theorem State.rd_heatParked {j : Nat} : s.heatParked.rd j = s.rd j := rfl

theorem State.heatParked_heatPark : s.heatParked.power.heatPark = true := rfl

/-- Above 105 degrees the reading is kept and the module is in thermal park. -/
theorem State.bankTemp_parks {temp : Int} (h : 105 < temp) :
    (s.bankTemp c temp).rd (Obj.chTemp c) = ofInt 32 (max (-40) (min 150 temp)) ∧ (s.bankTemp c temp).power.heatPark = true := by
  obtain ⟨htemp, hpark⟩ := State.repower_keepsHeat (c := c) (s := (s.tempTaken c temp).heatParked)
  rw [State.bankTemp_eq, if_pos h, State.rd_hotEpisode (eventKey_chTemp c), State.hotEpisode_power, htemp, hpark,
    State.rd_heatParked]
  exact ⟨State.tempTaken_reading, State.heatParked_heatPark⟩

end

/-! ### The statement -/

/-- A fourth failed read: the unit is uncorrectable. -/
theorem State.bankRead_uncorrectable (h : 3 < failedReads addr reads) :
    s.bankRead addr b reads reader = s.uncorrectable addr b reader ∧
    (b = .unused → addr / 1024 ∈ (s.bankRead addr b reads reader).tier.retired ∧ (s.bankRead addr b reads reader).cmd = s.cmd) ∧
    (s.bankRead addr b reads reader).tier.mem = s.tier.mem := by
  rw [State.bankRead_fails h]
  refine ⟨rfl, ?_, State.uncorrectable_repairs.mem_eq (by decide)⟩
  rintro rfl
  rw [State.uncorrectable_unused]
  exact ⟨State.mem_retired_retirePhys, State.retirePhys_cmd⟩

/-- Up to three failed writes count as such and as one replay of their channel. -/
theorem State.bankWrite_counts {fails : Nat} (h0 : 0 < fails) (h3 : fails ≤ 3) :
    (s.bankWrite addr b fails).rd Obj.bankWriteRetries = (s.rd Obj.bankWriteRetries + fails) % 2 ^ 64 ∧
    (s.bankWrite addr b fails).rd (Obj.chReplays (addr / 1024 % 16)) = (s.rd (Obj.chReplays (addr / 1024 % 16)) + 1) % 2 ^ 64 ∧
    (s.bankWrite addr b fails).tier = s.tier := by
  have hne : Obj.bankWriteRetries ≠ Obj.chReplays (addr / 1024 % 16) := by simp only [Obj.bankWriteRetries, Obj.chReplays]; omega
  rw [State.bankWrite_retries h0 h3, State.rd_count_ne hne, State.rd_count_self, State.rd_count_self, State.rd_count_ne hne.symm,
    State.count_tier, State.count_tier]
  exact ⟨rfl, rfl, rfl⟩

/-- A fourth failed write to a page that holds nothing retires it. -/
theorem State.bankWrite_retires {fails : Nat} (h : 3 < fails) :
    addr / 1024 ∈ (s.bankWrite addr .unused fails).tier.retired ∧
    (s.bankWrite addr .unused fails).rd Obj.bankWriteRetries = (s.rd Obj.bankWriteRetries + 3) % 2 ^ 64 ∧
    (s.bankWrite addr .unused fails).tier.mem = s.tier.mem := by
  rw [State.bankWrite_unused h]
  refine ⟨State.mem_retired_retirePhys, ?_, ?_⟩
  · have h : Within (repairScope fun k => k ≠ Obj.bankWriteRetries) (s.count Obj.bankWriteRetries 3) _ :=
      State.retirePhys_within (x := addr / 1024) (by decide) (by decide)
        (State.countSat_within (k := Obj.chUncorrectable (addr / 1024 % 16)) (n := 1) (.refl _ _)
          (by simp only [repairScope, Obj.chUncorrectable, Obj.bankWriteRetries]; omega))
        (fun n => by simp only [repairScope, Obj.chRetired, Obj.bankWriteRetries]; omega)
        (by decide : Obj.sparePages ≠ Obj.bankWriteRetries) (by decide : Obj.t1PoolPages ≠ Obj.bankWriteRetries)
    exact (h.rd_eq (fun hk => hk rfl) (by decide)).trans (State.rd_count_self ..)
  · exact (State.uncorrectable_repairs.mem_eq (by decide)).trans (congrArg TierState.mem (State.count_tier ..))

/-- A sweep that is not deferred goes on by a page, whatever it finds there. -/
theorem State.scrub_goes_on {unit : Nat} (hd : s.e2Deferred = false) (hx : s.rd Obj.scrubProgress + 1 < 33554432) :
    (s.scrub b unit reads).rd Obj.scrubProgress = s.rd Obj.scrubProgress + 1 ∧
    (s.scrub b unit reads).rd Obj.bankScrubBytes = (s.rd Obj.bankScrubBytes + 65536) % 2 ^ 64 ∧
    (s.scrub b unit reads).tier = (s.scrubRead b unit reads).tier := by
  obtain ⟨-, hbytes, -, -⟩ := s.scrubRead_keeps b unit reads
  rw [State.scrub_next hd hx, State.rd_scrubLate (by decide), State.rd_scrubLate (by decide), State.scrubLate_tier, State.rd_wr_self,
    State.rd_wr_ne (by decide), State.wr_tier]
  exact ⟨rfl, hbytes, rfl⟩

/-- The last page of a sweep is followed by the first of the next. -/
theorem State.scrub_turns {unit : Nat} (hd : s.e2Deferred = false) (hx : 33554432 ≤ s.rd Obj.scrubProgress + 1) :
    (s.scrub b unit reads).rd Obj.scrubProgress = 0 ∧ (s.scrub b unit reads).tier.sweepFrom = s.now ∧
    (s.scrub b unit reads).tier.mem = s.tier.mem := by
  obtain ⟨-, -, hmem, hnow⟩ := s.scrubRead_keeps b unit reads
  rw [State.scrub_last hd hx, State.sweepEnd_tier]
  exact ⟨State.sweepEnd_place _, hnow, hmem⟩

/-- Settles O14: each command is one of the bank tier's operations, and its equations say what that operation does in each case. -/
theorem bankTierRepairs : Obligations.BankTierRepairs := by
  unfold Obligations.BankTierRepairs
  refine ⟨fun s addr b reads reader h => ⟨_, rfl, State.bankRead_passes h⟩, fun s addr b reads reader h0 h3 hl => ⟨_, rfl, ?replays⟩,
    fun s addr b reads reader h => ⟨_, rfl, State.bankRead_uncorrectable h⟩,
    fun s addr reads reader h p l r b hb hf hm hr hc => ⟨_, rfl, ?marked⟩,
    fun s addr b fails h0 h3 => ⟨_, rfl, State.bankWrite_counts h0 h3⟩, fun s addr b fails h hb => ⟨_, rfl, hb ▸ State.bankWrite_retires h⟩,
    fun s c => ⟨_, rfl, rfl, State.rd_count_self .., fun k hk => State.rd_count_ne hk⟩,
    fun s c temp h => ⟨_, rfl, ?taken⟩, fun s c temp h => ⟨_, rfl, State.bankTemp_parks h⟩,
    fun s b unit reads hd hf hx => ⟨_, rfl, ?passes⟩, fun s b unit reads hd _ hx => ⟨_, rfl, ?goesOn⟩,
    fun s b unit reads hd hx => ⟨_, rfl, State.scrub_turns hd hx⟩, fun s b unit reads hd => ⟨_, rfl, ?deferred⟩⟩
  case replays =>
    rw [State.bankRead_replays h0 h3 hl]
    exact ⟨State.rd_count_self .., State.count_tier .., State.count_cmd ..⟩
  case marked =>
    rw [State.bankRead_fails hf]
    subst hb
    obtain ⟨y, hy, hbad⟩ := State.uncorrectable_marks (reader := reader) hm hr hc
    obtain ⟨r₂, hr₂, rfl⟩ := State.pageOf_eq_some.1 hy
    exact ⟨⟨r₂, hr₂, hbad⟩, State.uncorrectable_repairs.mem_eq (by decide)⟩
  case taken =>
    obtain ⟨htemp, hrefresh, hpower⟩ := State.bankTemp_taken (s := s) (c := c) h
    exact ⟨htemp, hrefresh.trans (State.rd_wr_self ..), hpower⟩
  case passes =>
    obtain ⟨hplace, hbytes, htier⟩ := State.scrub_goes_on (b := b) (unit := unit) (reads := reads) hd hx
    exact ⟨hplace, hbytes, htier.trans (by rw [State.scrubRead_passes hf, State.count_tier])⟩
  case goesOn =>
    obtain ⟨hplace, hbytes, htier⟩ := State.scrub_goes_on (b := b) (unit := unit) (reads := reads) hd hx
    obtain ⟨-, -, hmem, -⟩ := s.scrubRead_keeps b unit reads
    exact ⟨hplace, hbytes, (congrArg TierState.mem htier).trans hmem⟩
  case deferred =>
    rw [State.scrub_deferred hd]
    exact ⟨State.rd_scrubLate (by decide), State.scrubLate_tier⟩

end Sys2Proof.Machine
end

section
/-! SUPPORT. The end of a page's move and eviction: what each does to the page it names, and the statement on their commands. -/
namespace Sys2Proof.Machine

variable {s t u v : State} {h p phys n : Nat} {r : Region} {y : RPage} {m : PageMove} {good : Bool}

/-! ### Operations beside the table of regions -/

theorem State.mapTo_regions {x : Nat} : (s.mapTo h p x).tier.regions = s.tier.regions := rfl

theorem State.rd_mapTo {x k : Nat} : (s.mapTo h p x).rd k = s.rd k := rfl

theorem State.unmapPage_regions : (s.unmapPage h p).tier.regions = s.tier.regions := rfl

theorem State.setLender_regions {x : Lender} : (s.setLender n x).tier.regions = s.tier.regions := by
  unfold State.setLender
  split <;> rfl

theorem State.moveNext_regions {key status : Nat} : (s.moveNext key status).tier.regions = s.tier.regions := by
  unfold State.moveNext
  split <;> rfl

/-- The links, the store and what a message needs, and any object. -/
def offTier : Scope := ⟨[.link, .coll, .cross, .store, .free], fun _ => True⟩

theorem Within.offTier_regions (hw : Within offTier s t) : t.tier.regions = s.tier.regions := hw.regions_eq (by decide)

theorem State.readGeneral_regions : (s.readGeneral h p).tier.regions = s.tier.regions :=
  Within.offTier_regions (State.readGeneral_within (by decide) (by decide) (.refl _ s) trivial)

theorem State.sendPage_regions {dst : Nat} {bs : Bytes} : (s.sendPage dst n bs).tier.regions = s.tier.regions :=
  Within.offTier_regions (State.sendPage_within (by decide) (by decide) (by decide) (.refl _ s) trivial fun _ => trivial)

theorem State.recallDone_regions : (s.recallDone n).tier.regions = s.tier.regions := by
  unfold State.recallDone
  split
  · extract_lets v
    have hv : v.tier.regions = s.tier.regions := State.setLender_regions
    clear_value v
    split
    · exact (Within.offTier_regions (State.send_within (by decide) (by decide) (by decide) (.refl _ v) trivial fun _ => trivial)).trans hv
    · exact hv
  · rfl

theorem State.count_regions {k : Nat} : (s.count k n).tier.regions = s.tier.regions := congrArg TierState.regions (State.count_tier s ..)

theorem State.rd_updPage {k : Nat} {f : RPage → RPage} : (s.updPage h p f).rd k = s.rd k := by
  obtain ⟨l, e⟩ := s.updPage_shape h p f
  rw [e]
  rfl

theorem State.updPage_retired {f : RPage → RPage} : (s.updPage h p f).tier.retired = s.tier.retired := by
  obtain ⟨l, e⟩ := s.updPage_shape h p f
  rw [e]

/-! ### A copy that landed (R238) -/

/-- Whatever follows the update of the page map, the page stands at the move's destination. -/
theorem State.moveLands_home {src : Home} (hy : s.pageOf h p = some y) :
    ∃ y₂, (s.moveLands h p m src phys).pageOf h p = some y₂ ∧ y₂.home = m.dst := by
  unfold State.moveLands
  extract_lets s₁ s₂ s₃ _ s₄ _ s₅ s₆ s₇ s₈
  have h₁ : s₁.pageOf h p = some y := by
    refine (State.pageOf_congr ?_ h p).trans hy
    unfold s₁
    split
    · exact State.readGeneral_regions
    · rfl
  clear_value s₁
  have h₂ : s₂.pageOf h p = some { y with home := m.dst, move := none, stamp := s₁.stampNow } := by
    rw [show s₂.pageOf h p = _ from State.pageOf_congr State.count_regions h p, State.pageOf_updPage, h₁, Option.map_some]
  clear_value s₂
  have e₃ : s₃.tier.regions = s₂.tier.regions := by
    unfold s₃
    split
    · exact State.mapTo_regions
    · exact State.unmapPage_regions
  have e₄ : s₄.tier.regions = s₃.tier.regions := rfl
  clear_value s₄
  have e₅ : s₅.tier.regions = s₄.tier.regions := by
    unfold s₅
    split <;> rfl
  clear_value s₅
  have e₆ : s₆.tier.regions = s₅.tier.regions := by
    unfold s₆
    split
    · exact State.sendPage_regions
    · rfl
  clear_value s₆
  have e₇ : s₇.tier.regions = s₆.tier.regions := by
    unfold s₇
    split
    · exact State.count_regions
    · exact State.retirePhys_regions
    · exact State.moveNext_regions
    · rfl
  clear_value s₇
  have h₇ : s₇.pageOf h p = _ := (State.pageOf_congr (e₇.trans (e₆.trans (e₅.trans (e₄.trans e₃)))) h p).trans h₂
  obtain ⟨mv, h₈⟩ := State.retireWaiting_onlyMoves (left := src == .t1) _ h₇
  exact ⟨_, (State.pageOf_congr State.recallDone_regions h p).trans h₈, rfl⟩

/-! ### PAGE_MOVE_DONE, case by case -/

section
variable (hr : s.region h = some r)
include hr

section
variable (hm : (r.page p).move = some m)
include hm

theorem State.pageMoveDone_lands (ha : m.dst = .t2 → s.store.acked.contains (lentPage h p) = true) :
    s.pageMoveDone h p true phys = s.moveLands h p m (r.page p).home phys := by
  have hacked : ¬ (m.dst = .t2 ∧ ¬ s.store.acked.contains (lentPage h p) = true) := fun ⟨hd, hn⟩ => hn (ha hd)
  simp only [State.pageMoveDone, hr, hm, true_and, if_neg hacked, if_true]

theorem State.pageMoveDone_waits (hd : m.dst = .t2) (ha : s.store.acked.contains (lentPage h p) = false) :
    s.pageMoveDone h p true phys = s := by
  simp only [State.pageMoveDone, hr, hm, hd, ha, Bool.false_eq_true, not_false_eq_true, and_true, if_true]

theorem State.pageMoveDone_retries (ht : m.tries < 2) : s.pageMoveDone h p false phys =
    (s.updPage h p fun x => { x with move := some { m with tries := m.tries + 1 } }).countSat Obj.tmMoveRetries 1 := by
  simp only [State.pageMoveDone, hr, hm, ht, Bool.false_eq_true, false_and, if_false, if_true]

/-- The third failure: the move is tried once more, and a page of tier T1 that it would have landed in is retired. -/
theorem State.pageMoveDone_second (ht : 2 ≤ m.tries) (hs : m.second = false) : s.pageMoveDone h p false phys =
    (if m.dst = .t1 then s.retirePhys phys else s).updPage h p fun x => { x with move := some { m with tries := 0, second := true } } := by
  simp only [State.pageMoveDone, State.moveFails, hr, hm, hs, Nat.not_lt.2 ht, Bool.false_eq_true, false_and, if_false, not_false_eq_true,
    and_true]

theorem State.pageMoveDone_abandons (ht : 2 ≤ m.tries) (hs : m.second = true) :
    s.pageMoveDone h p false phys = s.moveAbandoned h p m r.cls (r.page p).home.tier := by
  simp only [State.pageMoveDone, State.moveFails, hr, hm, hs, Nat.not_lt.2 ht, Bool.false_eq_true, false_and, if_false, not_true_eq_false,
    and_false, if_true]

end

section
variable (hm : (r.page p).move = none)
include hm

theorem State.pageMoveDone_idle (hi : (r.page p).home ≠ .gone ∨ (r.page p).refetch = false) : s.pageMoveDone h p good phys = s := by
  have hgone : ¬ ((r.page p).home = .gone ∧ (r.page p).refetch = true ∧ p < r.size) := by
    rintro ⟨hg, hf, -⟩
    exact hi.elim (· hg) (by simp [hf])
  simp only [State.pageMoveDone, hr, hm, if_neg hgone]

variable (hg : (r.page p).home = .gone) (hf : (r.page p).refetch = true) (hp : p < r.size)
include hg hf hp

theorem State.pageMoveDone_noRoom (hn : s.freeIn 1 = 0) : s.pageMoveDone h p good phys = (s.evictOne 1).1 := by
  have hplace : s.placeIn 1 = none := by simp [State.placeIn, hn]
  simp only [State.pageMoveDone, hr, hm, hg, hf, hp, and_self, if_true, hplace]

theorem State.pageMoveDone_refetches (hn : 0 < s.freeIn 1) : s.pageMoveDone h p good phys =
    ((s.updPage h p fun x => { x with home := .t1, refetch := false, stamp := s.stampNow }).mapTo h p phys).count Obj.tmRefetches 1 := by
  have hplace : s.placeIn 1 = some .t1 := by simp [State.placeIn, hn]
  simp only [State.pageMoveDone, hr, hm, hg, hf, hp, and_self, if_true, hplace]

end
end

/-- No end of a move changes a region byte. -/
theorem State.pageMoveDone_mem : (s.pageMoveDone h p good phys).tier.mem = s.tier.mem := by
  have hw : Within ⟨[.prep, .bar0, .cmd, .castMem, .tile, .spans, .upd, .link, .coll, .tier, .store, .cross, .start, .free], fun _ => True⟩
      s (s.pageMoveDone h p good phys) := by
    apply State.pageMoveDone_within
    case h => exact .refl _ s
    all_goals simp
  exact hw.mem_eq (by decide)

/-! ### EVICTION, case by case (R236, R237) -/

@[simp] theorem State.evicting_setEvicting {b : Bool} : (s.setEvicting n b).evicting n = b := by
  unfold State.setEvicting State.evicting
  split <;> rfl

@[simp] theorem State.setEvicting_regions {b : Bool} : (s.setEvicting n b).tier.regions = s.tier.regions := by
  unfold State.setEvicting
  split <;> rfl

theorem State.evicting_congr (e : t.tier = s.tier) : t.evicting n = s.evicting n := by rw [State.evicting, State.evicting, e]

/-- Eviction has work to do: E2 work runs and the tier has a pool. -/
structure State.MayEvict (s : State) (n : Nat) : Prop where
  runs : s.e2Deferred = false
  pool : s.pool n ≠ 0

/-- Pages of a tier free or on their way out. -/
def State.freeSoon (s : State) (n : Nat) : Nat := s.freeIn n + s.pagesThat (RPage.leaving n)

theorem State.eviction_idle (hi : s.e2Deferred = true ∨ s.pool n = 0) : s.eviction n = s := if_pos hi

section
variable (hs : s.MayEvict n)
include hs

theorem State.eviction_stops (hh : s.highMark n ≤ s.freeSoon n) : s.eviction n = (s.setEvicting n false).endEpisode Ev.tierFull n :=
  (if_neg (by simp [hs.runs, hs.pool])).trans (if_pos hh)

variable (hh : s.freeSoon n < s.highMark n)
include hh

theorem State.eviction_rests (hl : s.lowMark n ≤ s.freeSoon n) (he : s.evicting n = false) : s.eviction n = s := by
  have hrest : ¬ (s.freeSoon n < s.lowMark n ∨ s.evicting n = true) := by simp [Nat.not_lt.2 hl, he]
  exact (if_neg (by simp [hs.runs, hs.pool])).trans ((if_neg (Nat.not_le.2 hh)).trans (if_neg hrest))

theorem State.eviction_goes_on (hl : s.freeSoon n < s.lowMark n ∨ s.evicting n = true) : s.eviction n =
    if (s.evictOne n).2 = true then (s.evictOne n).1.setEvicting n true
    else ((s.evictOne n).1.setEvicting n false).raiseOnce Ev.tierFull n [] :=
  (if_neg (by simp [hs.runs, hs.pool])).trans ((if_neg (Nat.not_le.2 hh)).trans (if_pos hl))

variable (hl : s.freeSoon n < s.lowMark n ∨ s.evicting n = true)
include hl

/-- With no candidate eviction stops. -/
theorem State.eviction_none (hc : s.evictPick n = none) : s.eviction n = (s.setEvicting n false).raiseOnce Ev.tierFull n [] := by
  have he : s.evictOne n = (s, false) := by rw [State.evictOne, hc]
  rw [State.eviction_goes_on hs hh hl, he, if_neg Bool.false_ne_true]

variable {c : Cand} (hc : s.evictPick n = some c)
include hc

/-- The candidate starts to move. -/
theorem State.eviction_moves {d : Home} (hd : s.evictDst n c.cls = some d) (hg : d ≠ .gone) :
    s.eviction n = (s.startMove c.h c.p d .evict).setEvicting n true := by
  have he : s.evictOne n = (s.startMove c.h c.p d .evict, true) := by
    rw [State.evictOne, hc]
    dsimp only
    rw [hd]
    cases d with
    | gone => exact absurd rfl hg
    | _ => rfl
  rw [State.eviction_goes_on hs hh hl, he, if_pos rfl]

/-- A candidate with nowhere to go is discarded. -/
theorem State.eviction_discards (hd : s.evictDst n c.cls = some .gone) :
    s.eviction n = ((s.updPage c.h c.p fun x => { x with home := .gone, move := none, bad := [], refetch := false }).count Obj.tmEvictions
      1).setEvicting n true := by
  have he : s.evictOne n = ((s.updPage c.h c.p fun x => { x with home := .gone, move := none, bad := [], refetch := false }).count
      Obj.tmEvictions 1, true) := by
    rw [State.evictOne, hc]
    dsimp only
    rw [hd]
  rw [State.eviction_goes_on hs hh hl, he, if_pos rfl]

end

/-- Eviction changes no region byte. -/
theorem State.eviction_mem : (s.eviction n).tier.mem = s.tier.mem :=
  Within.tables_mem (State.eviction_within (by decide) (.refl _ s) trivial)

/-! ### The statement -/

/-- Settles O12: each end of a move and each eviction is one of the cases above, and the page it names is read off its equation. -/
theorem pagesMoveOneHome : Obligations.PagesMoveOneHome := by
  unfold Obligations.PagesMoveOneHome
  refine ⟨fun s h p phys r m hr hm ha => ⟨_, rfl, ?lands, State.pageMoveDone_mem, rfl⟩,
    fun s h p phys r m hr hm ht => ⟨_, rfl, ?retriesPage, ?retriesCount, State.pageMoveDone_mem, rfl⟩,
    fun s h p phys r m hr hm hd ha => ⟨_, rfl, congrArg State.landHeld (State.pageMoveDone_waits hr hm hd ha)⟩,
    fun s h p phys r m hr hm ht hs => ⟨_, rfl, ?secondPage, ?secondRetires, State.pageMoveDone_mem, rfl⟩,
    fun s h p phys r m hr hm ht hs => ⟨_, rfl, congrArg State.landHeld (State.pageMoveDone_abandons hr hm ht hs), ?abandonsMem⟩,
    fun s h p phys good r hr hm hg hf hp hn =>
      ⟨_, rfl, congrArg State.landHeld (State.pageMoveDone_noRoom hr hm hg hf hp hn), ?noRoomMem⟩,
    fun s h p phys good r hr hm hi => ⟨_, rfl, congrArg State.landHeld (State.pageMoveDone_idle hr hm hi)⟩,
    fun s h p phys good r hr hm hg hf hp hn => ⟨_, rfl, ?refetchPage, ?refetchCount, State.pageMoveDone_mem, rfl⟩,
    fun s upper n c d r hn he hp hh hl hc hd hg hr => ⟨_, rfl, ?moves⟩, fun s upper n c r hn he hp hh hl hc hd hr => ⟨_, rfl, ?discards⟩,
    fun s upper n hn hi => ⟨_, rfl, hn ▸ State.eviction_idle hi⟩, fun s upper n hn he hp hh => ⟨_, rfl, ?stops⟩,
    fun s upper n hn he hp hh hl hc => ⟨_, rfl, ?none⟩,
    fun s upper n hn he hp hh hl hi => ⟨_, rfl, hn ▸ State.eviction_rests ⟨he, hp⟩ hh hl hi⟩⟩
  case lands =>
    rw [State.pageMoveDone_lands hr hm ha]
    obtain ⟨y, hy, hhome⟩ := State.moveLands_home (m := m) (src := (r.page p).home) (phys := phys) (State.pageOf_region hr)
    obtain ⟨r₂, hr₂, rfl⟩ := State.pageOf_eq_some.1 hy
    exact ⟨r₂, hr₂, hhome⟩
  case retriesPage =>
    refine State.pageOf_eq_some.1 ?_
    rw [State.pageMoveDone_retries hr hm ht, State.pageOf_congr (congrArg TierState.regions (State.countSat_tier ..)), State.pageOf_updPage,
      State.pageOf_region hr, Option.map_some]
  case retriesCount => rw [State.pageMoveDone_retries hr hm ht, State.rd_countSat_self, State.rd_updPage]
  case secondPage =>
    refine State.pageOf_eq_some.1 ?_
    have hy : (if m.dst = .t1 then s.retirePhys phys else s).pageOf h p = some (r.page p) := by
      split
      · exact (State.pageOf_congr State.retirePhys_regions h p).trans (State.pageOf_region hr)
      · exact State.pageOf_region hr
    rw [State.pageMoveDone_second hr hm ht hs, State.pageOf_updPage, hy, Option.map_some]
  case secondRetires =>
    intro hd
    rw [State.pageMoveDone_second hr hm ht hs, if_pos hd, State.updPage_retired]
    exact State.mem_retired_retirePhys
  case abandonsMem => exact State.pageMoveDone_abandons (phys := phys) hr hm ht hs ▸ State.pageMoveDone_mem
  case noRoomMem => exact Within.tables_mem (State.evictOne_within (by decide) (.refl _ s) trivial)
  case refetchPage =>
    refine State.pageOf_eq_some.1 ?_
    rw [State.pageMoveDone_refetches hr hm hg hf hp hn, State.pageOf_congr State.count_regions, State.pageOf_congr State.mapTo_regions,
      State.pageOf_updPage, State.pageOf_region hr, Option.map_some]
  case refetchCount => rw [State.pageMoveDone_refetches hr hm hg hf hp hn, State.rd_count_self, State.rd_mapTo, State.rd_updPage]
  case moves =>
    rw [← hn]
    refine ⟨State.pageOf_eq_some.1 ?_, ?_, State.eviction_mem⟩
    · rw [State.eviction_moves ⟨he, hp⟩ hh hl hc hd hg, State.pageOf_congr State.setEvicting_regions, State.startMove, State.pageOf_updPage,
        State.pageOf_region hr, Option.map_some]
    · rw [State.eviction_moves ⟨he, hp⟩ hh hl hc hd hg, State.evicting_setEvicting]
  case discards =>
    rw [← hn]
    have hy : (s.eviction n).pageOf c.h c.p = some { r.page c.p with home := .gone, move := none, bad := [], refetch := false } := by
      rw [State.eviction_discards ⟨he, hp⟩ hh hl hc hd, State.pageOf_congr State.setEvicting_regions, State.pageOf_congr State.count_regions,
        State.pageOf_updPage, State.pageOf_region hr, Option.map_some]
    obtain ⟨r₂, hr₂, hpage⟩ := State.pageOf_eq_some.1 hy
    refine ⟨⟨r₂, hr₂, by rw [hpage], by rw [hpage]⟩, ?_, State.eviction_mem⟩
    rw [State.eviction_discards ⟨he, hp⟩ hh hl hc hd, State.evicting_setEvicting]
  case stops =>
    rw [← hn]
    refine ⟨?_, ?_, State.eviction_mem⟩ <;> rw [State.eviction_stops ⟨he, hp⟩ hh]
    · rw [State.evicting_congr (State.endEpisode_tier ..), State.evicting_setEvicting]
    · rw [State.endEpisode_tier, State.setEvicting_regions]
  case none =>
    rw [← hn]
    refine ⟨?_, ?_, State.eviction_mem⟩ <;> rw [State.eviction_none ⟨he, hp⟩ hh hl hc]
    · rw [State.evicting_congr (State.raiseOnce_tier ..), State.evicting_setEvicting]
    · rw [State.raiseOnce_tier, State.setEvicting_regions]

end Sys2Proof.Machine
end

section
/-! SUPPORT. Create, free and move records, the rings and streams of the staging buffers, and the statement on their commands. -/
namespace Sys2Proof.Machine

variable {s t u v : State} {w n q h : Nat} {e : QEntry} {r : Region}

/-! ### Records that complete -/

theorem State.entry_unitDone_eq {status reason : Nat} (he : s.entry w q = some e) : (s.unitDone w q status reason).entry w q =
    some { e with unit := true, status := if e.status = 0 then status else e.status, reason := if e.status = 0 then reason else e.reason } := by
  unfold State.unitDone
  rw [State.entry_updEntry, he, Option.map_some]
  exact fun _ => rfl

@[simp] theorem State.unitDone_region {status reason : Nat} : (s.unitDone w q status reason).region h = s.region h :=
  State.region_congr (congrArg TierState.regions (State.unitDone_tier ..)) h

theorem State.entry_haltWin {cause hc : Nat} : (s.haltWin w cause hc).entry w q = s.entry w q := by
  rw [State.entry, State.haltWin_halts.2, State.entry]

/-- A record without room completes with status 0x11 and halts its window; the tiers stay. -/
theorem State.tierFull_ends (he : s.entry w e.seq = some e) :
    ((s.tierFull w e).entry w e.seq).map (fun x => (x.unit, x.status)) = some (true, if e.status = 0 then 0x11 else e.status) ∧
    ((s.tierFull w e).win w).state = .halted ∧ (s.tierFull w e).tier = s.tier := by
  refine ⟨?_, State.haltWin_halts.1, ?_⟩
  · rw [State.tierFull, State.entry_haltWin, State.entry_unitDone_eq he, Option.map_some]
  · rw [State.tierFull, State.haltWin_tier, State.unitDone_tier]

/-! ### TIER_CREATE (R232, R235) -/

section
variable (w e)

theorem State.tierCreate_overPinned (hp : classPinned (tmOf e.raw).cls (tmOf e.raw).tier = true)
    (hl : s.rd Obj.pinLimitPages < s.pinned + (tmOf e.raw).low) : s.tierCreate w e = s.tierFull w e := if_pos ⟨hp, hl⟩

variable (hp : classPinned (tmOf e.raw).cls (tmOf e.raw).tier = true → s.pinned + (tmOf e.raw).low ≤ s.rd Obj.pinLimitPages)
include hp

theorem State.withinPinned :
    ¬ (classPinned (tmOf e.raw).cls (tmOf e.raw).tier = true ∧ s.rd Obj.pinLimitPages < s.pinned + (tmOf e.raw).low) :=
  fun ⟨hc, hl⟩ => absurd (hp hc) (Nat.not_le.2 hl)

theorem State.tierCreate_room (hf : (tmOf e.raw).low ≤ s.freeIn (tmOf e.raw).tier) : s.tierCreate w e =
    (s.setRegion (tmOf e.raw).handle (s.newRegion (tmOf e.raw).cls (tmOf e.raw).tier (tmOf e.raw).low)).unitDone w e.seq 0 0 :=
  (if_neg (State.withinPinned e hp)).trans (if_pos hf)

variable (hf : s.freeIn (tmOf e.raw).tier < (tmOf e.raw).low)
include hf

theorem State.tierCreate_lacks : s.tierCreate w e =
    let x := if (tmOf e.raw).tier = 2 then (s, false) else s.evictFor (tmOf e.raw).tier (tmOf e.raw).low
    if x.2 = true then x.1
    else if classPinned (tmOf e.raw).cls (tmOf e.raw).tier = true then s.tierFull w e
    else (s.raise Ev.tierFull [p32 ((tmOf e.raw).low - s.freeIn (tmOf e.raw).tier)]).tierFull w e :=
  (if_neg (State.withinPinned e hp)).trans (if_neg (Nat.not_le.2 hf))

/-- Where no room can be made the record ends so, be it of a pinned class or not. -/
theorem State.tierCreate_full (hx : (tmOf e.raw).tier = 2 ∨ (s.evictFor (tmOf e.raw).tier (tmOf e.raw).low).2 = false) :
    ∃ v : State, s.tierCreate w e = v.tierFull w e ∧ v.cmd = s.cmd := by
  have hroom : (if (tmOf e.raw).tier = 2 then (s, false) else s.evictFor (tmOf e.raw).tier (tmOf e.raw).low).2 = false := by
    split
    · rfl
    · next ht => exact hx.resolve_left ht
  rw [State.tierCreate_lacks w e hp hf]
  dsimp only
  rw [hroom, if_neg Bool.false_ne_true]
  split
  · exact ⟨_, rfl, rfl⟩
  · exact ⟨_, rfl, State.raise_cmd ..⟩

/-- Where eviction makes room the record waits for it. -/
theorem State.tierCreate_evicts (ht : (tmOf e.raw).tier ≠ 2) (hx : (s.evictFor (tmOf e.raw).tier (tmOf e.raw).low).2 = true) :
    s.tierCreate w e = (s.evictFor (tmOf e.raw).tier (tmOf e.raw).low).1 := by
  rw [State.tierCreate_lacks w e hp hf, if_neg ht]
  exact if_pos hx

end

theorem State.evictFor_tables {k : Nat} : Within tierTables s (s.evictFor k n).1 := State.evictFor_within (by decide) (.refl _ s) trivial

/-! ### TIER_FREE (R255) -/

section
variable (w)

theorem State.tierFree_unused (hr : s.region (tmOf e.raw).handle = some r) (hu : s.regionUsers (tmOf e.raw).handle = [])
    (hc : r.count (fun p => p.move.isSome) = 0) (hm : s.movesOf (tmOf e.raw).handle = false) :
    s.tierFree w e = (s.dropRegion (tmOf e.raw).handle).unitDone w e.seq 0 0 := by
  simp [State.tierFree, hr, hu, hc, hm]

theorem State.tierFree_used (hr : s.region (tmOf e.raw).handle = some r) (hu : s.regionUsers (tmOf e.raw).handle ≠ [] ∨
    r.count (fun p => p.move.isSome) ≠ 0 ∨ s.movesOf (tmOf e.raw).handle = true) :
    s.tierFree w e = s.setRegion (tmOf e.raw).handle { r with freeing := some (recKey w e.seq) } := by
  have hbusy : ¬ ((s.regionUsers (tmOf e.raw).handle).isEmpty = true ∧ r.count (fun p => p.move.isSome) = 0 ∧
      ¬ s.movesOf (tmOf e.raw).handle = true) := by
    rintro ⟨hn, hz, hf⟩
    rcases hu with hu | hu | hu
    · exact hu (List.isEmpty_iff.1 hn)
    · exact hu hz
    · exact hf hu
  simp only [State.tierFree, hr, if_neg hbusy]

theorem State.tierFree_gone (hr : s.region (tmOf e.raw).handle = none) : s.tierFree w e = s.unitDone w e.seq 0 0 := by
  simp only [State.tierFree, hr]

end

theorem State.clearCatalogue_tier : (s.clearCatalogue h).tier.regions = s.tier.regions ∧ (s.clearCatalogue h).tier.mem = s.tier.mem := by
  have hw : Within ⟨[.store], fun _ => True⟩ s (s.clearCatalogue h) := State.clearCatalogue_within (by decide) (.refl _ s)
    (fun _ => trivial) (fun _ => trivial) (fun _ => trivial) fun _ => trivial
  exact ⟨hw.regions_eq (by decide), hw.mem_eq (by decide)⟩

theorem State.dropRegion_cmd : (s.dropRegion h).cmd = s.cmd :=
  (State.dropRegion_within (g := offCommand) (by decide) (by decide) (by decide) (by decide) (.refl _ s) (fun _ => trivial)
    (fun _ => trivial) (fun _ => trivial) fun _ => trivial).cmd_eq

theorem State.dropRegion_region : (s.dropRegion h).region h = none := by
  rw [State.dropRegion, State.region_congr State.clearCatalogue_tier.1]
  exact Tab.find_erase_self _ h

/-- The bytes of the region that goes are gone, and no others. -/
theorem State.dropRegion_mem : (s.dropRegion h).tier.mem = memClear s.tier.mem (regionAddr h 0) (2 ^ 42) := by
  rw [State.dropRegion, State.clearCatalogue_tier.2]

theorem State.dropRegion_clears {b : Nat} (hb : b < 2 ^ 42) : (s.dropRegion h).tier.mem.get 0 (regionAddr h b) = 0 := by
  rw [State.dropRegion_mem]
  exact memClear_get_inside (by simp only [regionAddr]; omega)

theorem State.dropRegion_keeps {h₂ b : Nat} (hne : h₂ ≠ h) (hb : b < 2 ^ 42) :
    (s.dropRegion h).tier.mem.get 0 (regionAddr h₂ b) = s.tier.mem.get 0 (regionAddr h₂ b) := by
  rw [State.dropRegion_mem]
  exact memClear_get_outside (by simp only [regionAddr]; omega)

/-! ### TIER_MOVE (R238, R240, R255) -/

/-- The job of a move record, from its first page where it has none. -/
def State.moveJob (s : State) (key : Nat) : MoveJob := (s.tier.moveLeft.find key).getD { next := 0, status := 0 }

theorem State.atPage_pageOf {key i p : Nat} {j : MoveJob} : (s.atPage key j i).pageOf h p = s.pageOf h p := rfl

/-- A move record is done: its job is dropped. -/
def State.moveEnds (s : State) (w q status : Nat) : State :=
  ({ s with tier := { s.tier with moveLeft := s.tier.moveLeft.erase (recKey w q) } }).unitDone w q status 0

theorem State.moveEnds_regions {status : Nat} : (s.moveEnds w q status).tier.regions = s.tier.regions := by
  rw [State.moveEnds, State.unitDone_tier]

theorem State.moveEnds_mem {status : Nat} : (s.moveEnds w q status).tier.mem = s.tier.mem := by
  rw [State.moveEnds, State.unitDone_tier]

theorem State.moveEnds_entry {status : Nat} (he : s.entry w q = some e) : (s.moveEnds w q status).entry w q =
    some { e with unit := true, status := if e.status = 0 then status else e.status, reason := if e.status = 0 then 0 else e.reason } :=
  State.entry_unitDone_eq ((State.entry_congr rfl w q).trans he)

theorem State.moveEnds_unit {status : Nat} (he : s.entry w q = some e) : ((s.moveEnds w q status).entry w q).map QEntry.unit = some true := by
  rw [State.moveEnds_entry he, Option.map_some]

section
variable (w)

theorem State.tierMove_gone (hr : s.region (tmOf e.raw).handle = none) :
    s.tierMove w e = s.moveEnds w e.seq (s.moveJob (recKey w e.seq)).status := by
  simp only [State.tierMove, hr]
  rfl

variable (hr : s.region (tmOf e.raw).handle = some r)
include hr

theorem State.tierMove_ends
    (hi : r.nextMove (tmOf e.raw).tier (tmOf e.raw).low (tmOf e.raw).pageCount (s.moveJob (recKey w e.seq)).next = none) :
    s.tierMove w e = s.moveEnds w e.seq (s.moveJob (recKey w e.seq)).status := by
  unfold State.moveJob at hi
  simp only [State.tierMove, hr, hi]
  rfl

variable {i : Nat} (hi : r.nextMove (tmOf e.raw).tier (tmOf e.raw).low (tmOf e.raw).pageCount (s.moveJob (recKey w e.seq)).next = some i)
include hi

theorem State.tierMove_waits (hm : (r.page ((tmOf e.raw).low + i)).move.isSome = true) :
    s.tierMove w e = s.atPage (recKey w e.seq) (s.moveJob (recKey w e.seq)) i := by
  unfold State.moveJob at hi
  simp only [State.tierMove, hr, hi, hm, if_true]
  rfl

variable (hm : (r.page ((tmOf e.raw).low + i)).move = none)
include hm

/-- A page that is not moving goes to a place in the tier, to one that eviction makes, or nowhere. -/
theorem State.tierMove_settles : s.tierMove w e =
    let v := s.atPage (recKey w e.seq) (s.moveJob (recKey w e.seq)) i
    match s.placeIn (tmOf e.raw).tier with
    | some d => v.startMove (tmOf e.raw).handle ((tmOf e.raw).low + i) d (.record (recKey w e.seq))
    | none =>
      let x := if (tmOf e.raw).tier = 2 then (v, false) else v.evictFor (tmOf e.raw).tier 1
      if x.2 = true then x.1 else (v.raise Ev.tierFull [p32 ((tmOf e.raw).pageCount - i)]).moveEnds w e.seq 0x11 := by
  unfold State.moveJob at hi
  have hstill : ¬ (r.page ((tmOf e.raw).low + i)).move.isSome = true := by simp [hm]
  simp only [State.tierMove, hr, hi, if_neg hstill]
  rfl

theorem State.tierMove_starts {d : Home} (hd : s.placeIn (tmOf e.raw).tier = some d) : s.tierMove w e =
    (s.atPage (recKey w e.seq) (s.moveJob (recKey w e.seq)) i).startMove (tmOf e.raw).handle ((tmOf e.raw).low + i) d
      (.record (recKey w e.seq)) := by
  rw [State.tierMove_settles w hr hi hm]
  dsimp only
  rw [hd]

variable (hd : s.placeIn (tmOf e.raw).tier = none)
include hd

/-- Where eviction makes room for the page the record waits for it. -/
theorem State.tierMove_evicts (ht : (tmOf e.raw).tier ≠ 2)
    (hx : ((s.atPage (recKey w e.seq) (s.moveJob (recKey w e.seq)) i).evictFor (tmOf e.raw).tier 1).2 = true) :
    s.tierMove w e = ((s.atPage (recKey w e.seq) (s.moveJob (recKey w e.seq)) i).evictFor (tmOf e.raw).tier 1).1 := by
  rw [State.tierMove_settles w hr hi hm]
  dsimp only
  rw [hd, if_neg ht]
  exact if_pos hx

/-- Where no room can be made the record is done, with status 0x11. -/
theorem State.tierMove_full (hx : (tmOf e.raw).tier = 2 ∨
    ((s.atPage (recKey w e.seq) (s.moveJob (recKey w e.seq)) i).evictFor (tmOf e.raw).tier 1).2 = false) :
    s.tierMove w e = ((s.atPage (recKey w e.seq) (s.moveJob (recKey w e.seq)) i).raise Ev.tierFull
      [p32 ((tmOf e.raw).pageCount - i)]).moveEnds w e.seq 0x11 := by
  rw [State.tierMove_settles w hr hi hm]
  dsimp only
  generalize s.atPage (recKey w e.seq) (s.moveJob (recKey w e.seq)) i = v at hx ⊢
  have hroom : (if (tmOf e.raw).tier = 2 then (v, false) else v.evictFor (tmOf e.raw).tier 1).2 = false := by
    split
    · rfl
    · next ht => exact hx.resolve_left ht
  rw [hd]
  dsimp only
  rw [hroom, if_neg Bool.false_ne_true]

end

end Sys2Proof.Machine
end

section
/-! SUPPORT. Staging rings and streams: what configures a ring, takes up a stream and lands its bytes, and the statement on the tier
manager's records. -/
namespace Sys2Proof.Machine

variable {s t u v : State} {w n q h c x y k : Nat} {e : QEntry} {d : Tm} {r : Region}

/-! ### RING_CONFIG (R246) -/

theorem mem_tileRange {tf tl : Nat} : x ∈ tileRange tf tl ↔ tf ≤ x ∧ x ≤ tl := by
  simp only [tileRange, List.mem_map, List.mem_range]
  constructor
  · rintro ⟨i, hi, rfl⟩
    omega
  · exact fun ⟨h1, h2⟩ => ⟨x - tf, by omega, by omega⟩

theorem tileRange_nodup (tf tl : Nat) : (tileRange tf tl).Nodup := List.nodup_range.map fun _ _ hxy => Nat.add_left_cancel hxy

/-- A tile has four rings. -/
theorem tmOf_ring_lt (r : Rec) : (tmOf r).ring < 4 := Nat.mod_lt _ (by decide)

theorem State.ring_congr (ht : t.tile = s.tile) (x y : Nat) : t.ring x y = s.ring x y := by rw [State.ring, State.ring, ht]

@[simp] theorem State.ring_setRing_self {g : Ring} : (s.setRing x c g).ring x c = g := Tab.get_set_self ..

theorem State.ring_setRing_ne {g : Ring} (_ : c < 4) (hne : y ≠ x) : (s.setRing x c g).ring y c = s.ring y c :=
  Tab.get_set_ne _ _ (by omega)

/-- Configuring a ring in every tile of a list leaves it so in each. -/
theorem State.setRings_ring {g : Ring} {l : List Nat} (hc : c < 4) :
    y ∈ l ∨ s.ring y c = g → (l.foldl (fun s x => s.setRing x c g) s).ring y c = g := by
  induction l generalizing s with
  | nil => exact fun hy => hy.elim (fun hy => absurd hy List.not_mem_nil) id
  | cons x l ih =>
    intro hy
    refine ih ?_
    by_cases hyx : y = x
    · exact .inr (hyx ▸ State.ring_setRing_self)
    · exact hy.imp (fun hy => (List.mem_cons.1 hy).resolve_left hyx) (State.ring_setRing_ne hc hyx).trans

theorem State.setRings_cmd {g : Ring} {l : List Nat} : (l.foldl (fun s x => s.setRing x c g) s).cmd = s.cmd :=
  List.foldlRecOn (motive := fun v : State => v.cmd = s.cmd) _ _ rfl fun _ hv _ _ => hv

/-! ### STREAM and its gate (R248, R249) -/

/-- The fills of a record are taken up in the tiles of a list, where they are not. -/
def State.takeFills (s : State) (key : Nat) (l : List Nat) : State :=
  l.foldl (fun s t => if (s.tier.fills.find (256 * key + t)).isSome then s
    else { s with tier := { s.tier with fills := s.tier.fills.insert (256 * key + t) { start := 0, got := 0 } } }) s

/-- Of the state that changes the table of fills alone, which then lists each tile. -/
theorem State.takeFills_fills (s : State) (key : Nat) (l : List Nat) : ∃ m, s.takeFills key l = { s with tier := { s.tier with fills := m } } ∧
    ∀ x, x ∈ l ∨ (s.tier.fills.find (256 * key + x)).isSome = true → (m.find (256 * key + x)).isSome = true := by
  induction l generalizing s with
  | nil => exact ⟨s.tier.fills, rfl, fun x hx => hx.elim (fun hx => absurd hx List.not_mem_nil) id⟩
  | cons y l ih =>
    have hstep : ∃ m₁, (if (s.tier.fills.find (256 * key + y)).isSome then s
        else { s with tier := { s.tier with fills := s.tier.fills.insert (256 * key + y) { start := 0, got := 0 } } }) =
          { s with tier := { s.tier with fills := m₁ } } ∧ ∀ x, x = y ∨ (s.tier.fills.find (256 * key + x)).isSome = true →
          (m₁.find (256 * key + x)).isSome = true := by
      split
      · next hy => exact ⟨s.tier.fills, rfl, fun x hx => hx.elim (fun hx => hx ▸ hy) id⟩
      · refine ⟨_, rfl, fun x hx => ?_⟩
        by_cases hxy : x = y
        · rw [hxy, Tab.find_insert_self]
          rfl
        · rw [Tab.find_insert_ne _ (by omega)]
          exact hx.resolve_left hxy
    obtain ⟨m₁, e₁, h₁⟩ := hstep
    obtain ⟨m, e₂, h₂⟩ := ih { s with tier := { s.tier with fills := m₁ } }
    refine ⟨m, ?_, fun x hx => h₂ x ?_⟩
    · rw [State.takeFills, List.foldl_cons, e₁]
      exact e₂
    · rcases hx with hx | hx
      · exact (List.mem_cons.1 hx).elim (fun hxy => .inr (h₁ x (.inl hxy))) .inl
      · exact .inr (h₁ x (.inr hx))

theorem State.stream_eq : s.stream w e = if s.isGated (tmOf e.raw) = false ∨ s.gateOpen (tmOf e.raw).layer (e.step.getD 0) = true then
    (s.takeFills (recKey w e.seq) (tileRange (tmOf e.raw).tf (tmOf e.raw).tl)).openGate (recKey w e.seq)
    else s.takeFills (recKey w e.seq) (tileRange (tmOf e.raw).tf (tmOf e.raw).tl) := by
  obtain ⟨m, hm, -⟩ := s.takeFills_fills (recKey w e.seq) (tileRange (tmOf e.raw).tf (tmOf e.raw).tl)
  have hcond : (¬ (s.takeFills (recKey w e.seq) (tileRange (tmOf e.raw).tf (tmOf e.raw).tl)).isGated (tmOf e.raw) = true ∨
      (s.takeFills (recKey w e.seq) (tileRange (tmOf e.raw).tf (tmOf e.raw).tl)).gateOpen (tmOf e.raw).layer (e.step.getD 0) = true) ↔
      (s.isGated (tmOf e.raw) = false ∨ s.gateOpen (tmOf e.raw).layer (e.step.getD 0) = true) := by
    rw [hm, Bool.not_eq_true]
    rfl
  exact if_congr hcond rfl rfl

theorem State.openGate_gated : (s.openGate k).tier.gated.contains k = true := List.contains_iff_mem.2 (mem_setIns_self _ k)

theorem State.stream_fills (hx : (tmOf e.raw).tf ≤ x) (hl : x ≤ (tmOf e.raw).tl) :
    ((s.stream w e).tier.fills.find (256 * recKey w e.seq + x)).isSome = true := by
  obtain ⟨m, hm, hfills⟩ := s.takeFills_fills (recKey w e.seq) (tileRange (tmOf e.raw).tf (tmOf e.raw).tl)
  have hfind := hfills x (.inl (mem_tileRange.2 ⟨hx, hl⟩))
  rw [State.stream_eq, hm]
  split <;> exact hfind

theorem State.stream_gated (hg : s.isGated (tmOf e.raw) = false ∨ s.gateOpen (tmOf e.raw).layer (e.step.getD 0) = true) :
    (s.stream w e).tier.gated.contains (recKey w e.seq) = true := by
  rw [State.stream_eq, if_pos hg]
  exact State.openGate_gated

/-! ### STAGE_STALL (R253) -/

theorem State.stageStall_quiet (hx : (s.share w e.seq x).waitFrom = none ∨ (s.share w e.seq x).started = false ∨
    (s.share w e.seq x).waitTold = true) : s.stageStall w e x = s := by
  unfold State.stageStall
  extract_lets y
  change y.waitFrom = none ∨ y.started = false ∨ y.waitTold = true at hx
  split
  · rfl
  · next f hf =>
    refine if_pos ?_
    rcases hx with hx | hx | hx
    · simp [hf] at hx
    · exact .inl (by simp [hx])
    · exact .inr (.inl hx)

/-- A weight wait past its limit is told once, whichever ring it waits on. -/
theorem State.stageStall_tells {f : Nat} (hf : (s.share w e.seq x).waitFrom = some f) (hs : (s.share w e.seq x).started = true)
    (ht : (s.share w e.seq x).waitTold = false) (hl : (s.share w e.seq x).waitLimit * ms < s.now - f) :
    ∃ ring, s.stageStall w e x = ((s.setShare w e.seq x { s.share w e.seq x with waitTold := true }).raise Ev.stageStall
      [p8 x, p8 ring, p32 e.seq]).countSat Obj.tmStageStalls 1 := by
  have hlong : ¬ (¬ (s.share w e.seq x).started = true ∨ (s.share w e.seq x).waitTold = true ∨
      s.now - f ≤ (s.share w e.seq x).waitLimit * ms) := by
    simp only [hs, ht, not_true_eq_false, Bool.false_eq_true, false_or, Nat.not_le]
    exact hl
  unfold State.stageStall
  extract_lets y
  rw [show y.waitFrom = some f from hf]
  dsimp only
  rw [if_neg hlong]
  exact ⟨_, rfl⟩

theorem State.share_raise {code : Nat} {ps : List Bytes} : (s.raise code ps).share w q x = s.share w q x :=
  State.share_congr (by rw [State.raise_tile]) w q x

theorem State.share_countSat : (s.countSat k n).share w q x = s.share w q x := rfl

/-! ### Where a fill lands and what it lands (R248) -/

/-- The place of byte `i` of the next fill of tile `x` in the scratchpads. -/
def State.landsAt (s : State) (d : Tm) (x i : Nat) : Nat :=
  x * 2 ^ 21 + (65536 * (s.ring x d.ring).base + (s.ring x d.ring).fill + i)

/-- The source byte that lands there. -/
def State.landing (s : State) (w : Nat) (e : QEntry) (d : Tm) (x i : Nat) : Byte :=
  s.regionByte d.handle (d.srcByte x (((s.tier.fills.find (256 * recKey w e.seq + x)).getD { start := 0, got := 0 }).got + i))

/-- The next fill of tile `x` lands the same bytes at the same place in `t` as in `s`. -/
structure SameFill (w : Nat) (e : QEntry) (d : Tm) (x : Nat) (s t : State) : Prop where
  ring : t.ring x d.ring = s.ring x d.ring
  fill : t.tier.fills.find (256 * recKey w e.seq + x) = s.tier.fills.find (256 * recKey w e.seq + x)
  bytes : ∀ b, t.regionByte d.handle b = s.regionByte d.handle b

theorem SameFill.trans (h₁ : SameFill w e d x s u) (h₂ : SameFill w e d x u t) : SameFill w e d x s t :=
  ⟨h₂.ring.trans h₁.ring, h₂.fill.trans h₁.fill, fun b => (h₂.bytes b).trans (h₁.bytes b)⟩

theorem SameFill.landsAt (hs : SameFill w e d x s t) (i : Nat) : t.landsAt d x i = s.landsAt d x i := by
  rw [State.landsAt, State.landsAt, hs.ring]

theorem SameFill.landing (hs : SameFill w e d x s t) (i : Nat) : t.landing w e d x i = s.landing w e d x i := by
  rw [State.landing, State.landing, hs.fill, hs.bytes]

theorem State.regionByte_congr (hr : t.tier.regions = s.tier.regions) (hm : t.tier.mem = s.tier.mem) (b : Nat) :
    t.regionByte h b = s.regionByte h b := by
  rw [State.regionByte, State.regionByte, State.region_congr hr, hm]

/-- A change of a page that leaves its marks leaves every byte. -/
theorem State.regionByte_updPage {h₂ p b : Nat} {f : RPage → RPage} (hf : ∀ y, (f y).bad = y.bad) :
    (s.updPage h p f).regionByte h₂ b = s.regionByte h₂ b := by
  cases hr : s.region h with
  | none => rw [State.updPage, hr]
  | some r =>
    have hbad : (r.setPage p (f (r.page p))).badAt b = r.badAt b := by
      unfold Region.badAt
      by_cases hp : b / 65536 = p
      · rw [hp, Region.page_setPage_self, hf]
      · rw [show (r.setPage p (f (r.page p))).page (b / 65536) = r.page (b / 65536) from Tab.get_set_ne _ _ hp]
    rw [State.updPage_region hr]
    unfold State.regionByte
    by_cases hh : h₂ = h
    · rw [hh, State.region_setRegion_self, hr]
      simp only [hbad]
      rfl
    · rw [State.region_setRegion_ne hh]
      rfl

theorem State.endPageWait_tier : (s.endPageWait k).tier = { s.tier with waits := (s.endPageWait k).tier.waits } := by
  unfold State.endPageWait
  split <;> rfl

/-- A read whose pages are ready sets their stamps, so the fills and every byte stay. -/
theorem State.access_ready {key m h₂ : Nat} {ps : List Nat} (ha : (s.access key m h ps).2 = .ready) :
    (s.access key m h ps).1.tier.fills = s.tier.fills ∧ ∀ b, (s.access key m h ps).1.regionByte h₂ b = s.regionByte h₂ b := by
  have htouch : (s.touch h ps).tier.fills = s.tier.fills ∧ ∀ b, (s.touch h ps).regionByte h₂ b = s.regionByte h₂ b := by
    refine List.foldlRecOn (motive := fun v : State => v.tier.fills = s.tier.fills ∧
      ∀ b, v.regionByte h₂ b = s.regionByte h₂ b) _ _ ⟨rfl, fun _ => rfl⟩ fun v hv p _ => ⟨?_, fun b => ?_⟩
    · obtain ⟨l, hl⟩ := v.updPage_shape h p fun y => { y with stamp := v.stampNow }
      rw [hl]
      exact hv.1
    · rw [State.regionByte_updPage (f := fun y => { y with stamp := v.stampNow }) fun _ => rfl]
      exact hv.2 b
  unfold State.access at ha ⊢
  split
  · exact ⟨rfl, fun _ => rfl⟩
  · next r hr =>
    rw [hr] at ha
    dsimp only at ha ⊢
    split
    · have htier := State.endPageWait_tier (s := s.touch h ps) (k := key)
      refine ⟨?_, fun b => ?_⟩
      · rw [htier]
        exact htouch.1
      · exact (State.regionByte_congr (by rw [htier]) (by rw [htier]) b).trans (htouch.2 b)
    · next hb => rw [if_neg hb] at ha; cases ha

/-! ### One fill of one tile -/

/-- The bytes of a fill, before the ring and the record are told. -/
def State.fillBytes (s : State) (w : Nat) (e : QEntry) (d : Tm) (x n : Nat) : State :=
  s.putBytes x false ((List.range n).map fun i =>
    (65536 * (s.ring x d.ring).base + (s.ring x d.ring).fill + i, (s.landing w e d x i).toNat))

theorem State.putBytes_keeps {l : List (Nat × Nat)} :
    (s.putBytes x false l).tier = s.tier ∧ (s.putBytes x false l).tile.rings = s.tile.rings :=
  List.foldlRecOn (motive := fun v : State => v.tier = s.tier ∧ v.tile.rings = s.tile.rings) _ _ ⟨rfl, rfl⟩ fun _ hv _ _ => hv

/-- A fill puts its bytes, tells the ring, and keeps the place of the record in that tile alone. -/
theorem State.fillTile_keeps (s : State) (w : Nat) (e : QEntry) (d : Tm) (x n : Nat) :
    (∃ g, (s.fillTile w e d x n).tile = ((s.fillBytes w e d x n).setRing x d.ring g).tile) ∧
    (s.fillTile w e d x n).tier.regions = s.tier.regions ∧ (s.fillTile w e d x n).tier.mem = s.tier.mem ∧
    ∀ y, y ≠ x → (s.fillTile w e d x n).tier.fills.find (256 * recKey w e.seq + y) = s.tier.fills.find (256 * recKey w e.seq + y) := by
  unfold State.fillTile
  extract_lets key f g v grans v₂
  have hv : v.tier = s.tier := State.putBytes_keeps.1
  have hregions : v₂.tier.regions = s.tier.regions := congrArg TierState.regions hv
  have hmem : v₂.tier.mem = s.tier.mem := congrArg TierState.mem hv
  have hfills : v₂.tier.fills = s.tier.fills := congrArg TierState.fills hv
  have htile : v₂.tile = ((s.fillBytes w e d x n).setRing x d.ring { g with fill := (g.fill + n) % g.size, grans := grans }.release).tile := rfl
  clear_value v₂
  split
  · refine ⟨⟨_, htile⟩, hregions, hmem, fun y hy => ?_⟩
    exact (Tab.find_erase_ne (by omega)).trans (congrArg (Tab.find · _) hfills)
  · refine ⟨⟨_, htile⟩, hregions, hmem, fun y hy => ?_⟩
    exact (Tab.find_insert_ne _ (by omega)).trans (congrArg (Tab.find · _) hfills)

theorem State.fillTile_sameFill (hc : d.ring < 4) (hne : y ≠ x) : SameFill w e d y s (s.fillTile w e d x n) := by
  obtain ⟨⟨g, htile⟩, hregions, hmem, hfills⟩ := s.fillTile_keeps w e d x n
  refine ⟨?_, hfills y hne, fun b => State.regionByte_congr hregions hmem b⟩
  rw [State.ring_congr htile, State.ring_setRing_ne hc hne, State.ring, State.fillBytes, State.putBytes_keeps.2, State.ring]

theorem State.fillTile_scratch : (s.fillTile w e d x n).tile.scratch = (s.fillBytes w e d x n).tile.scratch := by
  obtain ⟨⟨g, htile⟩, -⟩ := s.fillTile_keeps w e d x n
  rw [htile]
  rfl

/-- Bytes put one after another, each read back. -/
theorem State.putBytes_run (s : State) (x a : Nat) (f : Nat → Byte) (n : Nat) :
    (∀ i, i < n → (s.putBytes x false ((List.range n).map fun i => (a + i, (f i).toNat))).tile.scratch.get 0 (x * 2 ^ 21 + (a + i)) = f i) ∧
    ∀ k, (∀ i, i < n → k ≠ x * 2 ^ 21 + (a + i)) →
      (s.putBytes x false ((List.range n).map fun i => (a + i, (f i).toNat))).tile.scratch.get 0 k = s.tile.scratch.get 0 k := by
  induction n with
  | zero => exact ⟨fun i hi => absurd hi (Nat.not_lt_zero i), fun _ _ => rfl⟩
  | succ n ih =>
    obtain ⟨hin, hout⟩ := ih
    have hlast : s.putBytes x false ((List.range (n + 1)).map fun i => (a + i, (f i).toNat)) =
        (s.putBytes x false ((List.range n).map fun i => (a + i, (f i).toNat))).putByte x false (a + n) (f n).toNat := by
      simp [State.putBytes, List.range_succ]
    rw [hlast]
    refine ⟨fun i hi => ?_, fun k hk => ?_⟩
    · by_cases hn : i = n
      · rw [hn]
        exact (Tab.get_set_self ..).trans (by simp)
      · exact (State.putByte_scratch_get (by omega)).trans (hin i (by omega))
    · exact (State.putByte_scratch_get (hk n (Nat.lt_succ_self n))).trans (hout k fun i hi => hk i (Nat.lt_succ_of_lt hi))

theorem State.fillTile_lands {i : Nat} (hi : i < n) :
    (s.fillTile w e d x n).tile.scratch.get 0 (s.landsAt d x i) = s.landing w e d x i := by
  rw [State.fillTile_scratch]
  exact (s.putBytes_run x (65536 * (s.ring x d.ring).base + (s.ring x d.ring).fill) (s.landing w e d x) n).1 i hi

theorem State.fillTile_scratch_ne (hk : ∀ i, i < n → k ≠ s.landsAt d x i) :
    (s.fillTile w e d x n).tile.scratch.get 0 k = s.tile.scratch.get 0 k := by
  rw [State.fillTile_scratch]
  exact (s.putBytes_run x (65536 * (s.ring x d.ring).base + (s.ring x d.ring).fill) (s.landing w e d x) n).2 k hk

/-! ### One fill of several tiles -/

/-- One fill lands in each tile of a list. -/
def State.fillTiles (s : State) (w : Nat) (e : QEntry) (d : Tm) (n : Nat) (l : List Nat) : State :=
  l.foldl (fun s t => s.fillTile w e d t n) s

/-- The next fill of the tile ends within its scratchpad. -/
def State.fillFits (s : State) (d : Tm) (n x : Nat) : Prop := 65536 * (s.ring x d.ring).base + (s.ring x d.ring).fill + n ≤ scratchBytes

theorem SameFill.fits (hs : SameFill w e d x s t) (hf : s.fillFits d n x) : t.fillFits d n x := by
  rw [State.fillFits, hs.ring]
  exact hf

/-- A place of one tile is no place of another that the fill of that one ends within. -/
theorem State.landsAt_ne {i j m : Nat} (hxy : x ≠ y) (hx : s.fillFits d n x) (hy : t.fillFits d m y) (hi : i < n) (hj : j < m) :
    s.landsAt d x i ≠ t.landsAt d y j := by
  unfold State.fillFits scratchBytes at hx hy
  unfold State.landsAt
  omega

section
variable (hc : d.ring < 4)
include hc

/-- Fills of other tiles leave what a tile's fill landed. -/
theorem State.fillTiles_others {l : List Nat} {i : Nat} (hi : i < n) (hx : t.fillFits d n x) (hl : ∀ y ∈ l, s.fillFits d n y)
    (hnd : l.Nodup) (hxl : x ∉ l) : (s.fillTiles w e d n l).tile.scratch.get 0 (t.landsAt d x i) = s.tile.scratch.get 0 (t.landsAt d x i) := by
  induction l generalizing s with
  | nil => rfl
  | cons y l ih =>
    obtain ⟨hxy, hxl⟩ := not_or.1 (List.mem_cons.not.1 hxl)
    obtain ⟨hyl, hnd⟩ := List.nodup_cons.1 hnd
    have hstep : ∀ z ∈ l, (s.fillTile w e d y n).fillFits d n z := fun z hz =>
      (State.fillTile_sameFill (w := w) (e := e) hc fun hzy : z = y => hyl (hzy ▸ hz)).fits (hl z (List.mem_cons_of_mem y hz))
    have hput : (s.fillTile w e d y n).tile.scratch.get 0 (t.landsAt d x i) = s.tile.scratch.get 0 (t.landsAt d x i) :=
      State.fillTile_scratch_ne fun j hj => State.landsAt_ne hxy hx (hl y List.mem_cons_self) hi hj
    exact (ih hstep hnd hxl).trans hput

/-- Each tile holds its bytes after the fills of all. -/
theorem State.fillTiles_lands {l : List Nat} {i : Nat} (hi : i < n) (hl : ∀ y ∈ l, s.fillFits d n y) (hnd : l.Nodup) (hx : x ∈ l) :
    (s.fillTiles w e d n l).tile.scratch.get 0 (s.landsAt d x i) = s.landing w e d x i := by
  induction l generalizing s with
  | nil => exact absurd hx List.not_mem_nil
  | cons y l ih =>
    obtain ⟨hyl, hndl⟩ := List.nodup_cons.1 hnd
    have hsame : ∀ z ∈ l, SameFill w e d z s (s.fillTile w e d y n) := fun z hz => State.fillTile_sameFill hc fun hzy => hyl (hzy ▸ hz)
    have hstep : ∀ z ∈ l, (s.fillTile w e d y n).fillFits d n z := fun z hz => (hsame z hz).fits (hl z (List.mem_cons_of_mem y hz))
    rcases List.mem_cons.1 hx with rfl | hx
    · exact (State.fillTiles_others hc hi (hl x List.mem_cons_self) hstep hndl hyl).trans (State.fillTile_lands hi)
    · rw [← (hsame x hx).landsAt, ← (hsame x hx).landing]
      exact ih hstep hndl hx

end

/-! ### STAGE_FILL_DONE (R248, R250, R251) -/

/-- The tiles that a fill of tile `x` lands in: its own, or for a multicast named by its first tile all of the set. -/
def Tm.fillTargets (d : Tm) (x : Nat) : List Nat :=
  if d.bcast then (if x = d.tf then tileRange d.tf d.tl else []) else if d.tf ≤ x ∧ x ≤ d.tl then [x] else []

theorem Tm.fillTargets_nodup : (d.fillTargets x).Nodup := by
  unfold Tm.fillTargets
  split
  · split
    · exact tileRange_nodup ..
    · exact List.nodup_nil
  · split
    · exact List.nodup_singleton x
    · exact List.nodup_nil

/-- Bytes that one fill of tile `x` lands in each of its tiles. -/
def State.fillCount (s : State) (w : Nat) (e : QEntry) (d : Tm) (x : Nat) : Nat :=
  ((d.fillTargets x).map (s.fillLen w e d)).foldl min (((d.fillTargets x).map (s.fillLen w e d)).headD 0)

/-- What the fill of tile `x` finds of the pages of the source. -/
def State.fillAccess (s : State) (w : Nat) (e : QEntry) (d : Tm) (x : Nat) : State × Access :=
  s.access (recKey w e.seq) (d.fillTargets x).length d.handle
    (d.fillPages x (((s.tier.fills.find (256 * recKey w e.seq + x)).map Fill.got).getD 0) (s.fillCount w e d x))

/-- The fill of the tile lands nothing now: its gate is closed, there is nothing to fill, or its class is deferred. -/
def State.FillRests (s : State) (w : Nat) (e : QEntry) (x : Nat) : Prop :=
  s.streamOpen w e (tmOf e.raw) = false ∨ s.fillCount w e (tmOf e.raw) x = 0 ∨ (s.classDeferred (Rec.eclass e.raw) = true ∧
    ((tmOf e.raw).fillTargets x).any (fun v => s.fillWanted (tmOf e.raw) v (s.fillCount w e (tmOf e.raw) x)) = false)

theorem State.not_fillRests (ho : s.streamOpen w e (tmOf e.raw) = true) (h0 : s.fillCount w e (tmOf e.raw) x ≠ 0)
    (hc : s.classDeferred (Rec.eclass e.raw) = false ∨
      ((tmOf e.raw).fillTargets x).any (fun v => s.fillWanted (tmOf e.raw) v (s.fillCount w e (tmOf e.raw) x)) = true) :
    ¬ s.FillRests w e x := by
  rintro (h | h | ⟨hd, hw⟩)
  · simp [ho] at h
  · exact h0 h
  · simp [hd, hw] at hc

theorem State.stageFill_rests (hf : s.FillRests w e x) : s.stageFill w e x = s := by
  refine if_pos ?_
  rw [Bool.not_eq_true, Bool.not_eq_true]
  exact hf

/-- The source of the fill is read: where it is marked bad its record is told. -/
def State.fillRead (s : State) (w : Nat) (e : QEntry) (hit : Bool) : State := if hit then s.hitStatus w e.seq (tmOf e.raw).handle else s

/-- A stream whose last byte has landed in every tile completes. -/
def State.streamEnds (s : State) (w : Nat) (e : QEntry) : State :=
  if (match s.entry w e.seq with
    | some f => (tileRange (tmOf e.raw).tf (tmOf e.raw).tl).all f.tiles.contains
    | none => false) = true then s.unitDone w e.seq 0 0 else s

section
variable (hf : ¬ s.FillRests w e x)
include hf

theorem State.stageFill_waits (ha : (s.fillAccess w e (tmOf e.raw) x).2 = .waiting) :
    s.stageFill w e x = (s.fillAccess w e (tmOf e.raw) x).1 := by
  refine (if_neg ?_).trans (if_pos ha)
  rw [Bool.not_eq_true, Bool.not_eq_true]
  exact hf

theorem State.stageFill_lands (ha : (s.fillAccess w e (tmOf e.raw) x).2 = .ready) : ∃ hit, s.stageFill w e x =
    ((((((s.fillAccess w e (tmOf e.raw) x).1.fillRead w e hit).fillTiles w e (tmOf e.raw) (s.fillCount w e (tmOf e.raw) x)
      ((tmOf e.raw).fillTargets x)).count Obj.tmStageBytes (s.fillCount w e (tmOf e.raw) x)).delivered
      (s.fillCount w e (tmOf e.raw) x * ((tmOf e.raw).fillTargets x).length)).streamEnds w e) := by
  refine ⟨_, (if_neg ?_).trans (if_neg ?_)⟩
  · rw [Bool.not_eq_true, Bool.not_eq_true]
    exact hf
  · exact fun hw => by cases ha.symm.trans hw

end

theorem State.fillRead_sameFill {hit : Bool} : SameFill w e d x s (s.fillRead w e hit) := by
  have htile : (s.fillRead w e hit).tile = s.tile := by
    unfold State.fillRead
    split
    · exact State.hitStatus_tile
    · rfl
  have htier : (s.fillRead w e hit).tier = s.tier := by
    unfold State.fillRead
    split
    · exact State.hitStatus_tier
    · rfl
  exact ⟨State.ring_congr htile x d.ring, by rw [htier], State.regionByte_congr (by rw [htier]) (by rw [htier])⟩

theorem State.fillAccess_sameFill (ha : (s.fillAccess w e d y).2 = .ready) : SameFill w e d x s (s.fillAccess w e d y).1 :=
  have ⟨hfills, hbytes⟩ := State.access_ready ha
  ⟨State.ring_congr State.access_tile x d.ring, by rw [State.fillAccess, hfills], hbytes⟩

theorem State.streamEnds_cases : s.streamEnds w e = s.unitDone w e.seq 0 0 ∨ s.streamEnds w e = s := ite_eq_or_eq ..

theorem State.streamEnds_tile : (s.streamEnds w e).tile = s.tile := by
  rcases State.streamEnds_cases (s := s) (w := w) (e := e) with h | h <;> rw [h]
  exact State.unitDone_tile ..

theorem State.rd_streamEnds : (s.streamEnds w e).rd k = s.rd k := by
  rcases State.streamEnds_cases (s := s) (w := w) (e := e) with h | h <;> rw [h]
  exact State.rd_congr (State.unitDone_obj ..) k

/-- What a fill may change, but for the count of bytes staged. -/
def offStageBytes : Scope := ⟨[.cmd, .scratch, .castMem, .tile, .tier], fun k => k ≠ Obj.tmStageBytes⟩

theorem State.fillTiles_stageBytes {hit : Bool} {l : List Nat} :
    (((s.fillAccess w e (tmOf e.raw) x).1.fillRead w e hit).fillTiles w e (tmOf e.raw) n l).rd Obj.tmStageBytes =
      s.rd Obj.tmStageBytes := by
  have haccess : Within offStageBytes s (s.fillAccess w e (tmOf e.raw) x).1 :=
    State.access_within (by decide) (.refl _ s) (by decide : Obj.tmWaitCycles ≠ Obj.tmStageBytes)
  have hread : Within offStageBytes s ((s.fillAccess w e (tmOf e.raw) x).1.fillRead w e hit) := by
    unfold State.fillRead
    split
    · exact State.hitStatus_within (by decide) haccess
    · exact haccess
  have hfill : Within offStageBytes s (((s.fillAccess w e (tmOf e.raw) x).1.fillRead w e hit).fillTiles w e (tmOf e.raw) n l) :=
    .foldl (fun _ _ hv => State.fillTile_within (by decide) (by decide) (by decide) (by decide) (by decide) hv) hread
  exact hfill.rd_eq (fun hk => hk rfl) (by decide)

theorem State.stageFill_mem : (s.stageFill w e x).tier.mem = s.tier.mem :=
  have hw : Within ⟨[.cmd, .scratch, .castMem, .tile, .tier], fun _ => True⟩ s (s.stageFill w e x) :=
    State.stageFill_within (by decide) (by decide) (by decide) (by decide) (by decide) (.refl _ s) trivial trivial trivial
  hw.mem_eq (by decide)

/-- A fill whose source is at hand lands its bytes in each of its tiles and counts them once. -/
theorem State.stageFill_fills (hf : ¬ s.FillRests w e x) (ha : (s.fillAccess w e (tmOf e.raw) x).2 = .ready)
    (hfits : ∀ y ∈ (tmOf e.raw).fillTargets x, s.fillFits (tmOf e.raw) (s.fillCount w e (tmOf e.raw) x) y) :
    (∀ y ∈ (tmOf e.raw).fillTargets x, ∀ i, i < s.fillCount w e (tmOf e.raw) x →
      (s.stageFill w e x).tile.scratch.get 0 (s.landsAt (tmOf e.raw) y i) = s.landing w e (tmOf e.raw) y i) ∧
    (s.stageFill w e x).rd Obj.tmStageBytes = (s.rd Obj.tmStageBytes + s.fillCount w e (tmOf e.raw) x) % 2 ^ 64 := by
  obtain ⟨hit, hfill⟩ := State.stageFill_lands hf ha
  rw [hfill]
  refine ⟨fun y hy i hi => ?_, ?_⟩
  · have hsame : ∀ z, SameFill w e (tmOf e.raw) z s ((s.fillAccess w e (tmOf e.raw) x).1.fillRead w e hit) := fun z =>
      (State.fillAccess_sameFill ha).trans State.fillRead_sameFill
    rw [State.streamEnds_tile, State.delivered, State.count_tile, State.count_tile, ← (hsame y).landsAt, ← (hsame y).landing]
    exact State.fillTiles_lands (tmOf_ring_lt _) hi (fun z hz => (hsame z).fits (hfits z hz)) Tm.fillTargets_nodup hy
  · rw [State.rd_streamEnds, State.delivered, State.rd_count_ne (by decide), State.rd_count_self, State.fillTiles_stageBytes]

/-! ### The statement -/

theorem exec_stageStall {w : Fin 8} {x : Fin 192} (he : s.entry w q = some e) (hd : e.disp = true) (hk : Rec.kind e.raw = 1) :
    exec (.stageStall w q x) s = .next (s.stageStall w e x) := by
  change execStageStall w q x s = _
  rw [execStageStall, he]
  exact if_pos ⟨hd, hk⟩

/-- Settles O11: each command acts on its record in place by the equations above, and leaves the state as it is where there is none. -/
theorem tierRecordsRun : Obligations.TierRecordsRun := by
  unfold Obligations.TierRecordsRun
  refine ⟨?createRoom, ?createPinned, ?createFull, ?createEvicts, ?freeUnused, ?freeUsed, ?freeGone, ?moveStarts, ?moveEnds, ?moveGone,
    ?moveWaits, ?moveFull, ?moveEvicts, ?ring, ?stream, ?gateOpens, ?gateStays, ?fillLands, ?fillRests, ?fillWaits, ?stallTells, ?stallQuiet,
    fun s w q hi => ⟨s, onUnit_idle hi, rfl⟩, fun s w q hi => ⟨s, onUnit_idle hi, rfl⟩, fun s w q hi => ⟨s, onUnit_idle hi, rfl⟩,
    fun s w q hi => ⟨s, onUnit_idle hi, rfl⟩, fun s w q hi => ⟨s, onUnit_idle hi, rfl⟩, fun s w q hi => ⟨s, onUnit_idle hi, rfl⟩,
    fun s w q x hi => ⟨s, onUnit_idle hi, rfl⟩⟩
  case createRoom =>
    intro s w q e he hd hu hs hk ho hp hf
    obtain rfl := State.entry_seq he
    refine ⟨_, onUnit_runs he hd hu hs hk ho, ?_, ?_, fun h hh => ?_⟩ <;> rw [State.tierCreate_room w e hp hf]
    · rw [State.unitDone_region, State.region_setRegion_self]
    · exact State.entry_unitDone ((State.entry_congr rfl w e.seq).trans he)
    · rw [State.unitDone_region, State.region_setRegion_ne hh]
  case createPinned =>
    intro s w q e he hd hu hs hk ho hp hl
    obtain rfl := State.entry_seq he
    refine ⟨_, onUnit_runs he hd hu hs hk ho, ?_⟩
    rw [State.tierCreate_overPinned w e hp hl]
    exact State.tierFull_ends he
  case createFull =>
    intro s w q e he hd hu hs hk ho hp hf hx
    obtain rfl := State.entry_seq he
    refine ⟨_, onUnit_runs he hd hu hs hk ho, ?_⟩
    obtain ⟨v, hv, hcmd⟩ := State.tierCreate_full w e hp hf hx
    obtain ⟨hentry, hstate, -⟩ := State.tierFull_ends ((State.entry_congr hcmd w e.seq).trans he)
    rw [hv]
    exact ⟨hentry, hstate⟩
  case createEvicts =>
    intro s w q e he hd hu hs hk ho hp hf ht hx
    refine ⟨_, onUnit_runs he hd hu hs hk ho, ?_⟩
    rw [State.tierCreate_evicts w e hp hf ht hx]
    exact ⟨rfl, State.evictFor_tables.tables_mem, State.evictFor_tables.tables_cmd⟩
  case freeUnused =>
    intro s w q e r he hd hu hs hk ho hr hn hc hm
    obtain rfl := State.entry_seq he
    refine ⟨_, onUnit_runs he hd hu hs hk ho, ?_, ?_, fun b hb => ?_, fun h b hh hb => ?_⟩ <;> rw [State.tierFree_unused w hr hn hc hm]
    · rw [State.unitDone_region, State.dropRegion_region]
    · exact State.entry_unitDone ((State.entry_congr State.dropRegion_cmd w e.seq).trans he)
    · rw [State.unitDone_tier, State.dropRegion_clears hb]
    · rw [State.unitDone_tier, State.dropRegion_keeps hh hb]
  case freeUsed =>
    intro s w q e r he hd hu hs hk ho hr hn
    obtain rfl := State.entry_seq he
    refine ⟨_, onUnit_runs he hd hu hs hk ho, ?_⟩
    rw [State.tierFree_used w hr hn]
    exact ⟨State.region_setRegion_self, rfl, rfl⟩
  case freeGone =>
    intro s w q e he hd hu hs hk ho hr
    obtain rfl := State.entry_seq he
    refine ⟨_, onUnit_runs he hd hu hs hk ho, ?_⟩
    rw [State.tierFree_gone w hr]
    exact ⟨State.entry_unitDone he, State.unitDone_tier ..⟩
  case moveStarts =>
    intro s w q e r i d he hd hu hs hk ho hr hi hm hp
    obtain rfl := State.entry_seq he
    refine ⟨_, onUnit_runs he hd hu hs hk ho, State.pageOf_eq_some.1 ?_, ?_⟩ <;> rw [State.tierMove_starts w hr hi hm hp]
    · rw [State.startMove, State.pageOf_updPage, State.atPage_pageOf, State.pageOf_region hr, Option.map_some]
    · exact (State.startMove_starts (s := s.atPage (recKey w e.seq) (s.moveJob (recKey w e.seq)) i) hr).2.1
  case moveEnds =>
    intro s w q e r he hd hu hs hk ho hr hi
    obtain rfl := State.entry_seq he
    refine ⟨_, onUnit_runs he hd hu hs hk ho, ?_⟩
    rw [State.tierMove_ends w hr hi]
    exact ⟨State.moveEnds_unit he, State.moveEnds_regions⟩
  case moveGone =>
    intro s w q e he hd hu hs hk ho hr
    obtain rfl := State.entry_seq he
    refine ⟨_, onUnit_runs he hd hu hs hk ho, ?_⟩
    rw [State.tierMove_gone w hr]
    exact ⟨State.moveEnds_unit he, State.moveEnds_regions⟩
  case moveWaits =>
    intro s w q e r i he hd hu hs hk ho hr hi hm
    obtain rfl := State.entry_seq he
    refine ⟨_, onUnit_runs he hd hu hs hk ho, ?_⟩
    rw [State.tierMove_waits w hr hi hm]
    exact ⟨rfl, rfl, rfl⟩
  case moveFull =>
    intro s w q e r i he hd hu hs hk ho hr hi hm hp hx
    obtain rfl := State.entry_seq he
    refine ⟨_, onUnit_runs he hd hu hs hk ho, ?_⟩
    rw [State.tierMove_full w hr hi hm hp hx]
    refine ⟨?_, ?_, ?_⟩
    · rw [State.moveEnds_entry (e := e), Option.map_some]
      exact (State.entry_congr (State.raise_cmd ..) w e.seq).trans he
    · rw [State.region_congr State.moveEnds_regions, State.region_congr (congrArg TierState.regions (State.raise_tier ..))]
      exact hr
    · rw [State.moveEnds_mem, State.raise_tier]
      rfl
  case moveEvicts =>
    intro s w q e r i he hd hu hs hk ho hr hi hm hp ht hx
    obtain rfl := State.entry_seq he
    refine ⟨_, onUnit_runs he hd hu hs hk ho, ?_⟩
    rw [State.tierMove_evicts w hr hi hm hp ht hx]
    exact ⟨rfl, State.evictFor_tables.tables_mem, State.evictFor_tables.tables_cmd⟩
  case ring =>
    intro s w q e he hd hu hs hk ho
    obtain rfl := State.entry_seq he
    refine ⟨_, onUnit_runs he hd hu hs hk ho, fun v hv hl => ?_, State.entry_unitDone ((State.entry_congr State.setRings_cmd w e.seq).trans he)⟩
    rw [State.ring_congr (State.unitDone_tile ..)]
    exact State.setRings_ring (tmOf_ring_lt _) (.inl (mem_tileRange.2 ⟨hv, hl⟩))
  case stream =>
    intro s w q e he hd hu hs hk ho
    obtain rfl := State.entry_seq he
    exact ⟨_, onUnit_runs he hd hu hs hk ho, fun v hv hl => State.stream_fills hv hl, State.stream_gated,
      Within.tables_mem (State.stream_within (by decide) (.refl _ s))⟩
  case gateOpens =>
    intro s w q e he hd hu hs hk ho hg ht
    obtain rfl := State.entry_seq he
    refine ⟨_, onUnit_runs he hd hu hs hk ho, ?_⟩
    rw [if_pos ⟨hg, ht⟩]
    exact ⟨State.openGate_gated, rfl⟩
  case gateStays =>
    intro s w q e he hd hu hs hk ho hg
    refine ⟨_, onUnit_runs he hd hu hs hk ho, if_neg ?_⟩
    rintro ⟨hgated, hopen⟩
    rcases hg with hg | hg
    · simp [hg] at hgated
    · simp [hg] at hopen
  case fillLands =>
    intro s w q x e n l he hd hu hs hk ho hl hn hopen h0 hclass _ hfits ha
    obtain rfl := State.entry_seq he
    subst hl hn
    obtain ⟨hlands, hcount⟩ := State.stageFill_fills (State.not_fillRests hopen h0 hclass) ha hfits
    exact ⟨_, onUnit_runs he hd hu hs hk ho, hlands, hcount, State.stageFill_mem⟩
  case fillRests =>
    intro s w q x e n l he hd hu hs hk ho hl hn hf
    subst hl hn
    exact ⟨_, onUnit_runs he hd hu hs hk ho, State.stageFill_rests hf⟩
  case fillWaits =>
    intro s w q x e n l he hd hu hs hk ho hl hn hopen h0 hclass ha
    obtain rfl := State.entry_seq he
    subst hl hn
    refine ⟨_, onUnit_runs he hd hu hs hk ho, ?_⟩
    rw [State.stageFill_waits (State.not_fillRests hopen h0 hclass) ha]
    have hw : Within tierTables s (s.fillAccess w e (tmOf e.raw) x).1 := State.access_within (by decide) (.refl _ s) trivial
    exact ⟨State.access_tile, hw.tables_mem, hw.tables_cmd⟩
  case stallTells =>
    intro s w q x e f he hd hk hf hs ht hl
    obtain rfl := State.entry_seq he
    obtain ⟨ring, hring⟩ := State.stageStall_tells hf hs ht hl
    refine ⟨_, exec_stageStall he hd hk, ?_⟩
    rw [hring]
    refine ⟨?_, ?_, ?_⟩
    · rw [State.share_countSat, State.share_raise, State.share_setShare_self]
    · rw [State.rd_countSat_self, State.rd_raise (by decide) (by decide)]
      rfl
    · rw [State.countSat_cmd, State.raise_cmd]
      rfl
  case stallQuiet =>
    intro s w q x e he hd hk hx
    obtain rfl := State.entry_seq he
    exact ⟨_, exec_stageStall he hd hk, State.stageStall_quiet hx⟩

end Sys2Proof.Machine
end

section
/-! SUPPORT. The keyed shuffle: its Feistel network permutes the values below 4^h, and the cycle walk leads every index below the count to one of
its own below the count. -/
namespace Sys2Proof.Machine

/-! ### The Feistel network (R283) -/

theorem mix_lt (z : Nat) : mix z < 2 ^ 64 := by
  have h64 (n : Nat) : m64 n < 2 ^ 64 := Nat.mod_lt _ (by decide)
  unfold mix
  extract_lets a b c
  have hc : c < 2 ^ 64 := h64 _
  exact Nat.xor_lt_two_pow hc (lt_of_le_of_lt (Nat.shiftRight_le _ _) hc)

/-- The round function: `h` bits of a mixed half. -/
def roundKey (h k j r : Nat) : Nat := mix (k ^^^ (j <<< 40) ^^^ r) >>> (64 - h)

theorem roundKey_lt {h k j r : Nat} (hh : h ≤ 64) : roundKey h k j r < 2 ^ h := by
  rw [roundKey, Nat.shiftRight_eq_div_pow, Nat.div_lt_iff_lt_mul (by positivity), ← Nat.pow_add, Nat.add_sub_cancel' hh]
  exact mix_lt _

variable {h k : Nat}

/-- Both halves keep to `h` bits. -/
theorem feistelRounds_lt (hh : h ≤ 64) (n : Nat) {l r : Nat} (hl : l < 2 ^ h) (hr : r < 2 ^ h) :
    (feistelRounds h k n (l, r)).1 < 2 ^ h ∧ (feistelRounds h k n (l, r)).2 < 2 ^ h := by
  induction n generalizing l r with
  | zero => exact ⟨hl, hr⟩
  | succ n ih => exact ih hr (Nat.xor_lt_two_pow hl (roundKey_lt hh))

/-- Each round is undone by the half it keeps. -/
theorem feistelRounds_injective (n : Nat) : Function.Injective (feistelRounds h k n) := by
  induction n with
  | zero => exact fun _ _ => id
  | succ n ih =>
    rintro ⟨l, r⟩ ⟨l', r'⟩ heq
    obtain ⟨rfl, hxor⟩ := Prod.mk.inj (ih heq)
    rw [Nat.xor_left_inj.1 hxor]

theorem feistel_eq (y : Nat) : feistel y h k =
    (feistelRounds h k 6 (y >>> h, y % 2 ^ h)).1 * 2 ^ h + (feistelRounds h k 6 (y >>> h, y % 2 ^ h)).2 := rfl

theorem halves_lt {y : Nat} (hy : y < 4 ^ h) : y >>> h < 2 ^ h ∧ y % 2 ^ h < 2 ^ h := by
  refine ⟨?_, Nat.mod_lt _ (by positivity)⟩
  rw [Nat.shiftRight_eq_div_pow, Nat.div_lt_iff_lt_mul (by positivity), ← Nat.mul_pow]
  exact hy

theorem feistel_lt (hh : h ≤ 64) {y : Nat} (hy : y < 4 ^ h) : feistel y h k < 4 ^ h := by
  obtain ⟨hl, hr⟩ := feistelRounds_lt (k := k) hh 6 (halves_lt hy).1 (halves_lt hy).2
  rw [feistel_eq, show (4 : Nat) ^ h = 2 ^ h * 2 ^ h from Nat.mul_pow 2 2 h]
  calc _ < (feistelRounds h k 6 (y >>> h, y % 2 ^ h)).1 * 2 ^ h + 2 ^ h := Nat.add_lt_add_left hr _
    _ = ((feistelRounds h k 6 (y >>> h, y % 2 ^ h)).1 + 1) * 2 ^ h := by ring
    _ ≤ 2 ^ h * 2 ^ h := Nat.mul_le_mul_right _ hl

theorem feistel_injOn (hh : h ≤ 64) {y z : Nat} (hy : y < 4 ^ h) (hz : z < 4 ^ h) (heq : feistel y h k = feistel z h k) : y = z := by
  obtain ⟨-, hr⟩ := feistelRounds_lt (k := k) hh 6 (halves_lt hy).1 (halves_lt hy).2
  obtain ⟨-, hr'⟩ := feistelRounds_lt (k := k) hh 6 (halves_lt hz).1 (halves_lt hz).2
  have hpos : 0 < 2 ^ h := by positivity
  rw [feistel_eq, feistel_eq, Nat.mul_comm, Nat.mul_comm _ (2 ^ h)] at heq
  have hlow := congrArg (· % 2 ^ h) heq
  have hhigh := congrArg (· / 2 ^ h) heq
  simp only [Nat.mul_add_mod, Nat.mod_eq_of_lt hr, Nat.mod_eq_of_lt hr'] at hlow
  simp only [Nat.mul_add_div hpos, Nat.div_eq_of_lt hr, Nat.div_eq_of_lt hr', Nat.add_zero] at hhigh
  obtain ⟨hdiv, hmod⟩ := Prod.mk.inj (feistelRounds_injective 6 (Prod.ext hhigh hlow))
  rw [Nat.shiftRight_eq_div_pow, Nat.shiftRight_eq_div_pow] at hdiv
  rw [← Nat.div_add_mod y (2 ^ h), ← Nat.div_add_mod z (2 ^ h), hdiv, hmod]

/-! ### The cycle walk -/

/-- The network as a map of the values below 4^h. -/
def feistelFin (h k : Nat) (hh : h ≤ 64) (y : Fin (4 ^ h)) : Fin (4 ^ h) := ⟨feistel y h k, feistel_lt hh y.2⟩

theorem feistelFin_injective (hh : h ≤ 64) : Function.Injective (feistelFin h k hh) := fun y z heq =>
  Fin.ext (feistel_injOn hh y.2 z.2 (congrArg Fin.val heq))

/-- Where the walk comes back below `n` within its fuel, it answers the first value below `n`. -/
theorem cycleWalk_first (hh : h ≤ 64) {n m t : Nat} (y : Fin (4 ^ h)) (ht : 0 < t) (htm : t ≤ m)
    (hlt : ((feistelFin h k hh)^[t] y : Nat) < n) :
    ∃ u, 0 < u ∧ cycleWalk h k n m y = ((feistelFin h k hh)^[u] y : Nat) ∧ ((feistelFin h k hh)^[u] y : Nat) < n ∧
      ∀ v, 0 < v → v < u → n ≤ ((feistelFin h k hh)^[v] y : Nat) := by
  induction m generalizing y t with
  | zero => omega
  | succ m ih =>
    by_cases hz : feistel y h k < n
    · refine ⟨1, Nat.one_pos, if_pos hz, hz, fun v hv hv1 => ?_⟩
      omega
    · obtain ⟨t, rfl⟩ : ∃ t', t = t' + 1 := ⟨t - 1, by omega⟩
      have htpos : 0 < t := by
        rcases Nat.eq_zero_or_pos t with rfl | htpos
        · exact absurd hlt hz
        · exact htpos
      obtain ⟨u, -, hwalk, hbelow, hfirst⟩ := ih (feistelFin h k hh y) htpos (by omega) hlt
      refine ⟨u + 1, Nat.succ_pos u, (if_neg hz).trans hwalk, hbelow, fun v hv hvu => ?_⟩
      obtain ⟨v, rfl⟩ : ∃ v', v = v' + 1 := ⟨v - 1, by omega⟩
      rcases Nat.eq_zero_or_pos v with rfl | hvpos
      · exact Nat.le_of_not_lt hz
      · exact hfirst v hvpos (by omega)

/-- From a value below `n` the walk comes back below `n` with fuel 4^h: the cycle of the value is no longer. -/
theorem cycleWalk_returns (hh : h ≤ 64) {n : Nat} (y : Fin (4 ^ h)) (hy : (y : Nat) < n) :
    ∃ u, 0 < u ∧ cycleWalk h k n (4 ^ h) y = ((feistelFin h k hh)^[u] y : Nat) ∧ ((feistelFin h k hh)^[u] y : Nat) < n ∧
      ∀ v, 0 < v → v < u → n ≤ ((feistelFin h k hh)^[v] y : Nat) := by
  refine cycleWalk_first hh y (t := Function.minimalPeriod (feistelFin h k hh) y)
    (Function.minimalPeriod_pos_of_mem_periodicPts ((feistelFin_injective hh).mem_periodicPts y)) ?_ ?_
  · simpa using Function.minimalPeriod_le_card (f := feistelFin h k hh) (x := y)
  · rw [Function.iterate_minimalPeriod]
    exact hy

/-- Of two walks to the same index, the longer would pass the start of the shorter. -/
theorem iterate_first_injective {α : Type} {f : α → α} (hf : Function.Injective f) {low : α → Prop} {x y : α} {u v : Nat} (hx : low x)
    (huv : u ≤ v) (heq : f^[u] x = f^[v] y) (hu : 0 < u) (hfirst : ∀ m, 0 < m → m < v → ¬ low (f^[m] y)) : x = y := by
  have hstart : x = f^[v - u] y := hf.iterate u (by rw [heq, ← Function.iterate_add_apply, Nat.add_sub_cancel' huv])
  rcases Nat.eq_zero_or_pos (v - u) with h0 | hpos
  · rw [hstart, h0, Function.iterate_zero_apply]
  · exact absurd (hstart ▸ hx) (hfirst _ hpos (by omega))

theorem cycleWalk_injOn (hh : h ≤ 64) {n i j : Nat} (hn : n ≤ 4 ^ h) (hi : i < n) (hj : j < n)
    (heq : cycleWalk h k n (4 ^ h) i = cycleWalk h k n (4 ^ h) j) : i = j := by
  obtain ⟨u, hu, hwi, -, hfi⟩ := cycleWalk_returns (k := k) hh (⟨i, by omega⟩ : Fin (4 ^ h)) hi
  obtain ⟨v, hv, hwj, -, hfj⟩ := cycleWalk_returns (k := k) hh (⟨j, by omega⟩ : Fin (4 ^ h)) hj
  have hmeet := Fin.ext (hwi.symm.trans (heq.trans hwj))
  have hinj := feistelFin_injective (k := k) hh
  rcases Nat.le_total u v with huv | hvu
  · exact congrArg Fin.val (iterate_first_injective hinj (low := fun z => (z : Nat) < n) hi huv hmeet hu fun m hm hmv =>
      Nat.not_lt.2 (hfj m hm hmv))
  · exact congrArg Fin.val (iterate_first_injective hinj (low := fun z => (z : Nat) < n) hj hvu hmeet.symm hv fun m hm hmu =>
      Nat.not_lt.2 (hfi m hm hmu)).symm

/-! ### The obligation on the shuffle -/

/-- A count of 32 bits has halves of at most 16 bits, wide enough for every index. -/
theorem halfWidth_fits {n : Nat} (hn : n < 2 ^ 32) : n ≤ 4 ^ halfWidth n ∧ halfWidth n ≤ 64 := by
  unfold halfWidth
  cases hf : ((List.range 16).map (· + 1)).find? fun h => decide (n ≤ 4 ^ h) with
  | none => exact ⟨by simp only [Option.getD_none]; omega, by decide⟩
  | some h =>
    have hle : n ≤ 4 ^ h := by simpa using List.find?_some hf
    have hmem := List.mem_of_find?_eq_some hf
    simp only [List.mem_map, List.mem_range] at hmem
    obtain ⟨i, hi, rfl⟩ := hmem
    exact ⟨hle, by simp only [Option.getD_some]; omega⟩

/-- The index at position `i` of an epoch: the epoch keys the walk, and the position starts it. -/
theorem sampleOf_walk {n ep i seed : Nat} (hn : 1 < n) (hi : i < n) : sampleOf (ep * n + i) n seed =
    cycleWalk (halfWidth n) (mix (mix (seed ^^^ 0x73687566666C6531) ^^^ ep)) n (4 ^ halfWidth n) i := by
  have hdiv : (ep * n + i) / n = ep := by
    rw [Nat.mul_comm, Nat.mul_add_div (by omega), Nat.div_eq_of_lt hi, Nat.add_zero]
  have hmod : (ep * n + i) % n = i := by rw [Nat.mul_add_mod_of_lt hi]
  rw [sampleOf, if_neg (by omega), hdiv, hmod]

/-- Settles O60: within an epoch the key is fixed, and the cycle walk of one key is injective below the count. -/
theorem shuffleIsAPermutation : Obligations.ShuffleIsAPermutation := by
  unfold Obligations.ShuffleIsAPermutation
  intro n seed ep hn hn32
  obtain ⟨hfit, hhalf⟩ := halfWidth_fits hn32
  rcases Nat.eq_or_lt_of_le hn with rfl | hn1
  · exact ⟨fun i _ => by simp [sampleOf], fun i j hi hj _ => by omega⟩
  · refine ⟨fun i hi => ?_, fun i j hi hj heq => ?_⟩
    · rw [sampleOf_walk hn1 hi]
      obtain ⟨u, -, hwalk, hbelow, -⟩ := cycleWalk_returns hhalf (⟨i, by omega⟩ : Fin (4 ^ halfWidth n)) hi
      exact hwalk ▸ hbelow
    · rw [sampleOf_walk hn1 hi, sampleOf_walk hn1 hj] at heq
      exact cycleWalk_injOn hhalf hfit hi hj heq

end Sys2Proof.Machine
end

section
/-! SUPPORT. Asking for pages, reading the flash array and writing a region: what each leaves alone. -/
namespace Sys2Proof.Machine

variable {s t u v : State} {w q h : Nat} {e : QEntry}

/-! ### Pages asked for (R239, R241) -/

theorem Within.store_eq {g : Scope} (hw : Within g s t) (hz : Part.zones ∉ g.parts) (hp : Part.store ∉ g.parts) : t.store = s.store := by
  have he : { t.store with zones := [] } = { s.store with zones := [] } := (hw.same .store).resolve_left hp
  have hzones : t.store.zones = s.store.zones := (hw.same .zones).resolve_left hz
  have heq : { t.store with zones := s.store.zones } = s.store := congrArg (fun x : StoreState => { x with zones := s.store.zones }) he
  rw [← heq, ← hzones]

/-- `t` comes of `s` by asking for pages: the tables of the tier manager change, and the count of waits. -/
structure Asks (s t : State) : Prop where
  cmd : t.cmd = s.cmd
  store : t.store = s.store
  tile : t.tile = s.tile
  now : t.now = s.now
  mem : t.tier.mem = s.tier.mem
  rd : ∀ k, k ≠ Obj.tmWaitCycles → eventKey k = false → t.rd k = s.rd k

/-- What asking for pages may change. -/
def pageTables : Scope := ⟨[.tier], fun k => k = Obj.tmWaitCycles⟩

theorem Within.asks (hw : Within pageTables s t) (ht : t.tile = s.tile) : Asks s t where
  cmd := (hw.mono (by decide) fun _ _ => trivial).cmd_eq
  store := hw.store_eq (by decide) (by decide)
  tile := ht
  now := hw.now_eq (by decide)
  mem := hw.mem_eq (by decide)
  rd := fun _ hk he => hw.rd_eq hk he

namespace Asks

theorem refl (s : State) : Asks s s := ⟨rfl, rfl, rfl, rfl, rfl, fun _ _ _ => rfl⟩

theorem trans (h₁ : Asks s u) (h₂ : Asks u t) : Asks s t :=
  ⟨h₂.cmd.trans h₁.cmd, h₂.store.trans h₁.store, h₂.tile.trans h₁.tile, h₂.now.trans h₁.now, h₂.mem.trans h₁.mem,
    fun k hk he => (h₂.rd k hk he).trans (h₁.rd k hk he)⟩

theorem entry (ha : Asks s t) (w q : Nat) : t.entry w q = s.entry w q := State.entry_congr ha.cmd w q

end Asks

theorem State.access_asks {key n : Nat} {ps : List Nat} : Asks s (s.access key n h ps).1 :=
  (State.access_within (g := pageTables) (by decide) (.refl _ s) rfl).asks State.access_tile

theorem State.sampleAccess_asks {key i : Nat} {d : In} {read : Bool} : Asks s (s.sampleAccess key d i read).1 := by
  unfold State.sampleAccess
  dsimp only
  split
  · exact State.access_asks
  · exact State.access_asks.trans State.access_asks

theorem State.writable_asks {key : Nat} {ps : List (Nat × Nat)} : Asks s (s.writable key ps).1 := by
  refine (State.writable_within (g := pageTables) (by decide) (.refl _ s) rfl).asks ?_
  unfold State.writable
  split
  · exact State.endPageWait_tile
  · rfl

/-! ### The flash array (R266, R275, R276) -/

/-- `t` is `s` but for blocks, their places in the stripes, and the counts of what was read and rebuilt. -/
structure OnBlocks (s t : State) : Prop where
  shape : ∃ o b m, t = { s with obj := o, store := { s.store with blocks := b, blockMap := m } }
  rd : ∀ k, k ≠ Obj.stReadBytes → k ≠ Obj.stRebuilds → t.rd k = s.rd k

namespace OnBlocks

theorem refl (s : State) : OnBlocks s s := ⟨⟨_, _, _, rfl⟩, fun _ _ _ => rfl⟩

theorem trans (h₁ : OnBlocks s u) (h₂ : OnBlocks u t) : OnBlocks s t := by
  obtain ⟨o₁, b₁, m₁, e₁⟩ := h₁.shape
  obtain ⟨o₂, b₂, m₂, e₂⟩ := h₂.shape
  exact ⟨⟨o₂, b₂, m₂, by rw [e₂, e₁]⟩, fun k hr hb => (h₂.rd k hr hb).trans (h₁.rd k hr hb)⟩

theorem ite {c : Prop} [Decidable c] (ht : OnBlocks s t) (hu : OnBlocks s u) : OnBlocks s (if c then t else u) := by
  split <;> assumption

theorem foldl {α : Type} {f : State → α → State} (hf : ∀ v a, OnBlocks v (f v a)) (l : List α) (s : State) : OnBlocks s (l.foldl f s) :=
  List.foldlRecOn (motive := OnBlocks s) l f (.refl s) fun v hv a _ => hv.trans (hf v a)

theorem cmd (h : OnBlocks s t) : t.cmd = s.cmd := by obtain ⟨_, _, _, rfl⟩ := h.shape; rfl
theorem tile (h : OnBlocks s t) : t.tile = s.tile := by obtain ⟨_, _, _, rfl⟩ := h.shape; rfl
theorem tier (h : OnBlocks s t) : t.tier = s.tier := by obtain ⟨_, _, _, rfl⟩ := h.shape; rfl
theorem now (h : OnBlocks s t) : t.now = s.now := by obtain ⟨_, _, _, rfl⟩ := h.shape; rfl
theorem store (h : OnBlocks s t) : ∃ b m, t.store = { s.store with blocks := b, blockMap := m } := by
  obtain ⟨_, b, m, rfl⟩ := h.shape
  exact ⟨b, m, rfl⟩

theorem zones (h : OnBlocks s t) : t.store.zones = s.store.zones := by obtain ⟨_, _, _, rfl⟩ := h.shape; rfl

end OnBlocks

theorem State.setBlock_onBlocks {k : Nat} {x : Block} : OnBlocks s (s.setBlock k x) := ⟨⟨s.obj, _, s.store.blockMap, rfl⟩, fun _ _ _ => rfl⟩

theorem State.readBlock_onBlocks {k : Nat} : OnBlocks s (s.readBlock k) :=
  State.setBlock_onBlocks.trans ⟨⟨_, _, _, rfl⟩, fun _ hr _ => State.rd_count_ne hr⟩

theorem State.rebuildUnit_onBlocks {x : Place} : OnBlocks s (s.rebuildUnit x) :=
  (OnBlocks.foldl (fun _ _ => State.readBlock_onBlocks) _ s).trans ⟨⟨_, _, _, rfl⟩, fun _ _ hb => State.rd_countSat_ne hb⟩

/-! ### Regions written -/

/-- A write of region bytes changes the memory at their place, and pages in the table of regions. -/
theorem State.regionWrite_shape (s : State) (h b : Nat) (bs : Bytes) :
    ∃ l, s.regionWrite h b bs = { s with tier := { s.tier with mem := memWrite s.tier.mem (regionAddr h b) bs, regions := l } } := by
  unfold State.regionWrite
  extract_lets _ v
  split
  · exact ⟨s.tier.regions, rfl⟩
  · refine List.foldlRecOn (motive := fun x : State => ∃ l, x = { v with tier := { v.tier with regions := l } }) _ _ ⟨_, rfl⟩ ?_
    rintro x ⟨l, rfl⟩ i -
    exact State.updPage_shape _ h _ _

/-! ### A read that hits a marked unit (R261) -/

theorem State.entry_hitStatus (he : s.entry w q = some e) : ∃ e', (s.hitStatus w q h).entry w q = some e' := by
  unfold State.hitStatus
  extract_lets v
  have hv : v.entry w q = some { e with status := if e.status = 0 then 0x12 else e.status } := by
    rw [State.entry_updEntry, he, Option.map_some]
    exact fun _ => rfl
  split
  · split
    · exact ⟨_, State.entry_haltWin.trans hv⟩
    · exact ⟨_, hv⟩
  · exact ⟨_, hv⟩

theorem State.hitStatus_store : (s.hitStatus w q h).store = s.store :=
  (State.hitStatus_within (g := ⟨[.cmd], fun _ => False⟩) (by decide) (.refl _ s)).store_eq (by decide) (by decide)

theorem State.rd_hitStatus {k : Nat} (hk : eventKey k = false) : (s.hitStatus w q h).rd k = s.rd k :=
  (State.hitStatus_within (g := ⟨[.cmd], fun _ => False⟩) (by decide) (.refl _ s)).rd_eq id hk

end Sys2Proof.Machine
end

section
/-! SUPPORT. Samples read from a stream zone or the sample cache, fetches of them, and the statement on profiles and fetches. -/
namespace Sys2Proof.Machine

variable {s t u v : State} {w q : Nat} {e : QEntry}

/-! ### Samples read and failed (R276, R294, R295) -/

/-- The sample that a record's position names. -/
def State.sampleIndex (s : State) (d : In) : Nat := sampleOf d.position d.n (s.rd Obj.runSeed)

/-- A sample is read out of its zone, and once more where its check value does not match. -/
def State.readZone (s : State) (x : SampleEntry) (srcH cause : Nat) : State := (s.countZoneRead x).confirmRead x srcH cause

theorem State.readZone_onBlocks {x : SampleEntry} {srcH cause : Nat} : OnBlocks s (s.readZone x srcH cause) := by
  unfold State.readZone State.confirmRead
  have hread : OnBlocks s (s.countZoneRead x) := .ite (.refl s) (.foldl (fun _ _ => State.readBlock_onBlocks) _ s)
  exact hread.trans (.ite (.foldl (fun _ _ => State.rebuildUnit_onBlocks) _ _) (.refl _))

/-- A failed sample is told, counted and keeps its cause; nothing else changes but the event's own objects. -/
theorem State.sampleFails_fields {d : In} {i c : Nat} :
    (s.sampleFails d i c).rd Obj.lastErrorCause = c ∧
    (s.sampleFails d i c).rd Obj.inSampleErrors = min (s.rd Obj.inSampleErrors + 1) (2 ^ 32 - 1) ∧
    (s.sampleFails d i c).cmd = s.cmd ∧ (s.sampleFails d i c).store = s.store ∧ (s.sampleFails d i c).tier = s.tier ∧
    (s.sampleFails d i c).tile = s.tile := by
  unfold State.sampleFails
  refine ⟨State.rd_wr_self _ _ _, ?_, State.raise_cmd _ _ _, State.raise_store _ _ _, State.raise_tier _ _ _, State.raise_tile _ _ _⟩
  rw [State.rd_wr_ne (by decide), State.rd_countSat_self, State.rd_raise (by decide) (by decide)]

/-! ### FETCH, case by case (R297) -/

/-- Bytes of its region from the record's offset on. -/
def State.fetchRoom (s : State) (d : In) : Nat := 65536 * ((s.region d.srcH).map Region.size).getD 0 - d.srcOff

section
variable (w e)

theorem State.fetch_waitsTable (ha : s.sampleAccess (recKey w e.seq) (inOf e.raw) (s.sampleIndex (inOf e.raw)) false = (u, .waiting)) :
    s.fetch w e = u := by
  simp only [State.sampleIndex] at ha
  simp only [State.fetch, ha, if_true]

variable (ha : s.sampleAccess (recKey w e.seq) (inOf e.raw) (s.sampleIndex (inOf e.raw)) false = (u, .ready))
include ha

theorem State.fetch_lost (hb : u.hitsBad (inOf e.raw).tableH (32 * s.sampleIndex (inOf e.raw)) 32 = true) :
    s.fetch w e = (u.hitStatus w e.seq (inOf e.raw).tableH).unitDone w e.seq 0x12 0 := by
  simp only [State.sampleIndex] at ha hb
  simp [State.fetch, ha, hb]

variable (hb : u.hitsBad (inOf e.raw).tableH (32 * s.sampleIndex (inOf e.raw)) 32 = false)
  {x : SampleEntry} (hx : u.sampleEntry (inOf e.raw).tableH (s.sampleIndex (inOf e.raw)) = x)
include hb hx

theorem State.fetch_waitsRegion (hv : u.access (recKey w e.seq) 1 (inOf e.raw).srcH
      (pagesOf (inOf e.raw).srcOff (min (u.fetchRoom (inOf e.raw)) (u.sampleBytes x 0 0).length)) = (v, .waiting)) :
    s.fetch w e = v := by
  simp only [State.sampleIndex] at ha hb hx
  simp only [State.fetchRoom] at hv
  simp [State.fetch, ha, hb, hx, hv]

variable (hv : u.access (recKey w e.seq) 1 (inOf e.raw).srcH
  (pagesOf (inOf e.raw).srcOff (min (u.fetchRoom (inOf e.raw)) (u.sampleBytes x 0 0).length)) = (v, .ready))
include hv

/-- A sample that is read intact goes into its region, as far as that has room. -/
theorem State.fetch_writes (hc : v.readCause x 0 (u.sampleBytes x 0 0) = 0) :
    s.fetch w e = ((v.readZone x 0 0).regionWrite (inOf e.raw).srcH (inOf e.raw).srcOff
      ((u.sampleBytes x 0 0).take (u.fetchRoom (inOf e.raw)))).unitDone w e.seq 0 0 := by
  simp only [State.sampleIndex] at ha hb hx
  simp only [State.fetchRoom] at hv
  simp [State.fetch, ha, hb, hx, hv, hc, State.readZone, State.fetchRoom]

/-- One that is not has failed. -/
theorem State.fetch_fails {c : Nat} (hc : v.readCause x 0 (u.sampleBytes x 0 0) = c) (h0 : c ≠ 0) :
    s.fetch w e = ((v.readZone x 0 c).sampleFails (inOf e.raw) (s.sampleIndex (inOf e.raw)) c).unitDone w e.seq 0x21 c := by
  simp only [State.sampleIndex] at ha hb hx ⊢
  simp only [State.fetchRoom] at hv
  simp [State.fetch, ha, hb, hx, hv, hc, h0, State.readZone]

end

/-- A fetch that waits, for its table or its region, has asked for pages and done no more. -/
theorem State.fetch_waits_asks (w : Nat) (e : QEntry)
    (h : (s.sampleAccess (recKey w e.seq) (inOf e.raw) (s.sampleIndex (inOf e.raw)) false).2 = .waiting ∨
    let u := (s.sampleAccess (recKey w e.seq) (inOf e.raw) (s.sampleIndex (inOf e.raw)) false).1
    u.hitsBad (inOf e.raw).tableH (32 * s.sampleIndex (inOf e.raw)) 32 = false ∧
    (u.access (recKey w e.seq) 1 (inOf e.raw).srcH (pagesOf (inOf e.raw).srcOff (min (u.fetchRoom (inOf e.raw))
      (u.sampleBytes (u.sampleEntry (inOf e.raw).tableH (s.sampleIndex (inOf e.raw))) 0 0).length))).2 = .waiting) :
    Asks s (s.fetch w e) := by
  cases ha : (s.sampleAccess (recKey w e.seq) (inOf e.raw) (s.sampleIndex (inOf e.raw)) false).2 with
  | waiting =>
    rw [State.fetch_waitsTable w e (pair_of_snd ha)]
    exact State.sampleAccess_asks
  | ready =>
    obtain ⟨hb, hv⟩ := h.resolve_left (by simp [ha])
    rw [State.fetch_waitsRegion w e (pair_of_snd ha) hb rfl (pair_of_snd hv)]
    exact State.sampleAccess_asks.trans State.access_asks

section
variable {z : State} (ha : Asks s v) (hz : OnBlocks v z) (he : s.entry w q = some e)
include ha hz he

/-- What a fetch leaves that writes: the bytes, and its record done. -/
theorem State.fetched_fields {h b : Nat} {bs : Bytes} :
    ((z.regionWrite h b bs).unitDone w q 0 0).tier.mem = memWrite s.tier.mem (regionAddr h b) bs ∧
    ((z.regionWrite h b bs).unitDone w q 0 0).store.zones = s.store.zones ∧
    (((z.regionWrite h b bs).unitDone w q 0 0).entry w q).map QEntry.unit = some true := by
  obtain ⟨l, hl⟩ := z.regionWrite_shape h b bs
  rw [hl]
  refine ⟨?_, hz.zones.trans (congrArg StoreState.zones ha.store), State.entry_unitDone (e := e) ?_⟩
  · change memWrite z.tier.mem _ _ = _
    rw [hz.tier, ha.mem]
  · rw [← he, ← ha.entry]
    exact State.entry_congr hz.cmd w q

/-- What one leaves that fails: the count, the cause, and its record done. -/
theorem State.fetchFailed_fields {d : In} {i c : Nat} :
    ((z.sampleFails d i c).unitDone w q 0x21 c).rd Obj.lastErrorCause = c ∧
    ((z.sampleFails d i c).unitDone w q 0x21 c).rd Obj.inSampleErrors = min (s.rd Obj.inSampleErrors + 1) (2 ^ 32 - 1) ∧
    ((z.sampleFails d i c).unitDone w q 0x21 c).tier.mem = s.tier.mem ∧
    ((z.sampleFails d i c).unitDone w q 0x21 c).store.zones = s.store.zones ∧
    (((z.sampleFails d i c).unitDone w q 0x21 c).entry w q).map QEntry.unit = some true := by
  obtain ⟨hcause, hcount, hcmd, hstore, htier, -⟩ := State.sampleFails_fields (s := z) (d := d) (i := i) (c := c)
  refine ⟨hcause, hcount.trans ?_, ?_, ?_, State.entry_unitDone (e := e) ?_⟩
  · rw [hz.rd _ (by decide) (by decide), ha.rd _ (by decide) (by decide)]
  · rw [State.unitDone_tier, htier, hz.tier, ha.mem]
  · rw [State.unitDone_store, hstore, hz.zones, ha.store]
  · rw [State.entry_congr (hcmd.trans hz.cmd), ha.entry, he]

end

/-- A record whose table entry is lost is done, and nothing but its window changes. -/
theorem State.lostEntry_fields {h : Nat} (ha : Asks s u) (he : s.entry w q = some e) :
    ((u.hitStatus w q h).unitDone w q 0x12 0).tier.mem = s.tier.mem ∧ ((u.hitStatus w q h).unitDone w q 0x12 0).store = s.store ∧
    (((u.hitStatus w q h).unitDone w q 0x12 0).entry w q).map QEntry.unit = some true ∧
    ((u.hitStatus w q h).unitDone w q 0x12 0).rd Obj.inSampleErrors = s.rd Obj.inSampleErrors := by
  obtain ⟨e', he'⟩ := State.entry_hitStatus (h := h) ((ha.entry w q).trans he)
  refine ⟨?_, ?_, State.entry_unitDone he', ?_⟩
  · rw [State.unitDone_tier, State.hitStatus_tier, ha.mem]
  · rw [State.unitDone_store, State.hitStatus_store, ha.store]
  · exact (State.rd_hitStatus (by decide)).trans (ha.rd _ (by decide) (by decide))

/-! ### The obligation on profiles and fetches -/

/-- Settles O41: a fetch asks for the pages of its table and of its region, and what it then reads decides whether it writes. -/
theorem profilesAndFetches : Obligations.ProfilesAndFetches := by
  unfold Obligations.ProfilesAndFetches
  refine ⟨?profile, ?engineConfig, ?writes, ?fails, ?waits, ?lost, fun s w q h => ⟨s, onUnit_idle h, rfl⟩,
    fun s w q h => ⟨s, onUnit_idle h, rfl⟩, fun s w q h => ⟨s, onUnit_idle h, rfl⟩⟩
  case profile | engineConfig =>
    intro s w q e he hd hu hs hk ho
    obtain rfl := State.entry_seq he
    exact ⟨_, onUnit_runs he hd hu hs hk ho, rfl, State.entry_unitDone he, rfl, rfl⟩
  case writes =>
    intro s w q e he hd hu hs hk ho ha hb hv hc
    obtain rfl := State.entry_seq he
    refine ⟨_, onUnit_runs he hd hu hs hk ho, ?_⟩
    rw [State.fetch_writes w e (pair_of_snd ha) hb rfl (pair_of_snd hv) hc]
    exact State.fetched_fields (State.sampleAccess_asks.trans State.access_asks) State.readZone_onBlocks he
  case fails =>
    intro s w q e he hd hu hs hk ho ha hb hv hc
    obtain rfl := State.entry_seq he
    refine ⟨_, onUnit_runs he hd hu hs hk ho, ?_⟩
    rw [State.fetch_fails w e (pair_of_snd ha) hb rfl (pair_of_snd hv) rfl hc]
    exact State.fetchFailed_fields (State.sampleAccess_asks.trans State.access_asks) State.readZone_onBlocks he
  case waits =>
    intro s w q e he hd hu hs hk ho h
    obtain rfl := State.entry_seq he
    refine ⟨_, onUnit_runs he hd hu hs hk ho, ?_⟩
    have hasks := State.fetch_waits_asks w e h
    exact ⟨hasks.mem, congrArg StoreState.zones hasks.store, hasks.cmd⟩
  case lost =>
    intro s w q e he hd hu hs hk ho ha hb
    obtain rfl := State.entry_seq he
    refine ⟨_, onUnit_runs he hd hu hs hk ho, ?_⟩
    rw [State.fetch_lost w e (pair_of_snd ha) hb]
    obtain ⟨hmem, hstore, hunit, hcount⟩ := State.lostEntry_fields State.sampleAccess_asks he
    exact ⟨hmem, congrArg StoreState.zones hstore, hunit, hcount⟩

end Sys2Proof.Machine
end

section
/-! SUPPORT. Samples that start on a decode engine: the engine taken, its work pages, and engines that are reset. -/
namespace Sys2Proof.Machine

variable {s t u v : State} {w q k : Nat} {e : QEntry}

/-! ### The pages of an engine (R290) -/

/-- `t` is `s` but for the work pages of engine `k`, the table of regions and the free values drawn. -/
structure WorkOnly (k : Nat) (s t : State) : Prop where
  shape : ∃ m l f, t = { s with tier := { s.tier with mem := m, regions := l }, free := f }
  unset : s.store.engineCfg = none → t.tier.mem = s.tier.mem
  outside : ∀ h n a, s.store.engineCfg = some (h, n) → a < regionAddr h (65536 * n * k) ∨ regionAddr h (65536 * n * (k + 1)) ≤ a →
    t.tier.mem.get 0 a = s.tier.mem.get 0 a

namespace WorkOnly

theorem refl (k : Nat) (s : State) : WorkOnly k s s := ⟨⟨_, _, _, rfl⟩, fun _ => rfl, fun _ _ _ _ _ => rfl⟩

theorem store (h : WorkOnly k s t) : t.store = s.store := by obtain ⟨_, _, _, rfl⟩ := h.shape; rfl
theorem tile (h : WorkOnly k s t) : t.tile = s.tile := by obtain ⟨_, _, _, rfl⟩ := h.shape; rfl
theorem now (h : WorkOnly k s t) : t.now = s.now := by obtain ⟨_, _, _, rfl⟩ := h.shape; rfl
theorem obj (h : WorkOnly k s t) : t.obj = s.obj := by obtain ⟨_, _, _, rfl⟩ := h.shape; rfl

end WorkOnly

/-- What an engine writes of its pictures ends within its own pages. -/
theorem State.writeWork_workOnly {n : Nat} : WorkOnly k s (s.writeWork k n) := by
  unfold State.writeWork
  split
  · exact .refl k s
  · next h pages hcfg =>
    extract_lets bs v
    have hlen : bs.length ≤ 65536 * pages := by
      simp only [bs, List.length_map, List.length_range]
      exact Nat.mul_le_mul_left _ (Nat.min_le_right _ _)
    obtain ⟨l, hl⟩ := s.regionWrite_shape h (65536 * pages * k) bs
    have hv : v = _ := hl
    rw [hv]
    refine ⟨⟨_, _, _, rfl⟩, fun hnone => absurd (hcfg.symm.trans hnone) nofun, fun h' n' a hcfg' ha => ?_⟩
    obtain ⟨rfl, rfl⟩ := Prod.mk.inj (Option.some.inj (hcfg.symm.trans hcfg'))
    refine memWrite_get_outside bs (ha.imp_right fun ha => Nat.le_trans ?_ ha)
    simp only [regionAddr, Nat.mul_add, Nat.mul_one]
    omega

/-! ### SAMPLE, case by case (R289) -/

theorem decState_ne_waits {n : Nat} (hn : n ≤ 16) : Obj.decState n ≠ Obj.tmWaitCycles := by
  simp only [Obj.decState, Obj.tmWaitCycles]
  omega

theorem eventKey_decState {n : Nat} (hn : n ≤ 16) : eventKey (Obj.decState n) = false := by
  simp only [eventKey, Obj.decState, Obj.dictFramesTx, Bool.or_eq_false_iff, decide_eq_false_iff_not]
  omega

/-- The failure that reading and decoding a sample meets first, 0 if none. -/
def State.sampleCause (s : State) (x : SampleEntry) (d : In) (p : Profile) : Nat :=
  let bs := s.sampleBytes x d.srcH d.srcOff
  if s.readCause x d.srcH bs ≠ 0 then s.readCause x d.srcH bs else decodeCause x p ((s.store.engineCfg.map Prod.snd).getD 0) bs

/-- A sample of a stream zone is read there. -/
def State.readSample (s : State) (x : SampleEntry) (d : In) : State :=
  if d.srcH = 0 then s.readZone x d.srcH (s.readCause x d.srcH (s.sampleBytes x d.srcH d.srcOff)) else s

/-- The pictures of a sample that is decoded go into its engine's pages. -/
def State.decodeSample (s : State) (x : SampleEntry) (bs : Bytes) (k c : Nat) : State :=
  if c = 0 ∨ c = 0xE3 ∨ c = 0xE5 then s.writeWork k (workPages x (Config.decInfo (x.stream bs))) else s

theorem State.readSample_onBlocks {x : SampleEntry} {d : In} : OnBlocks s (s.readSample x d) := .ite State.readZone_onBlocks (.refl s)

theorem State.decodeSample_workOnly {x : SampleEntry} {bs : Bytes} {c : Nat} : WorkOnly k s (s.decodeSample x bs k c) := by
  unfold State.decodeSample
  split
  · exact State.writeWork_workOnly
  · exact .refl k s

/-- A sample's record, engine and finding are noted, and the engine reads as busy. -/
def State.occupy (s : State) (key i k c : Nat) (p : Profile) : State :=
  (s.wr (Obj.decState (k + 1)) 1).setJob key { profile := p, index := i, engine := k, progress := s.now, cause := c, formed := false }

theorem State.freeEngine_free (hk : s.freeEngine = some k) : k < 16 ∧ s.rd (Obj.decState (k + 1)) = 0 :=
  ⟨List.mem_range.1 (List.mem_of_find?_eq_some hk), by simpa using List.find?_some hk⟩

section
variable (w e)

theorem State.startSample_waits (ha : s.sampleAccess (recKey w e.seq) (inOf e.raw) (s.sampleIndex (inOf e.raw)) true = (u, .waiting)) :
    s.startSample w e = u := by
  simp only [State.sampleIndex] at ha
  simp only [State.startSample, ha, if_true]

variable (ha : s.sampleAccess (recKey w e.seq) (inOf e.raw) (s.sampleIndex (inOf e.raw)) true = (u, .ready))
include ha

theorem State.startSample_lost (hb : u.hitsBad (inOf e.raw).tableH (32 * s.sampleIndex (inOf e.raw)) 32 = true) :
    s.startSample w e = (u.hitStatus w e.seq (inOf e.raw).tableH).unitDone w e.seq 0x12 0 := by
  simp only [State.sampleIndex] at ha hb
  simp [State.startSample, ha, hb]

variable (hb : u.hitsBad (inOf e.raw).tableH (32 * s.sampleIndex (inOf e.raw)) 32 = false)
include hb

theorem State.startSample_lacksEngine (hk : u.freeEngine = none) : s.startSample w e = u := by
  simp only [State.sampleIndex] at ha hb
  simp [State.startSample, ha, hb, hk]

variable (hk : u.freeEngine = some k)
include hk

theorem State.startSample_lacksPages (hw : u.writable (recKey w e.seq) (u.enginePages k) = (v, false)) : s.startSample w e = v := by
  simp only [State.sampleIndex] at ha hb
  simp [State.startSample, ha, hb, hk, hw]

/-- A sample that starts is read, written into the engine's pages where it is decoded, and occupies the engine. -/
theorem State.startSample_starts (hw : u.writable (recKey w e.seq) (u.enginePages k) = (v, true)) {x : SampleEntry}
    (hx : v.sampleEntry (inOf e.raw).tableH (s.sampleIndex (inOf e.raw)) = x) {p : Profile}
    (hp : v.store.fixed.get (inOf e.raw).pf (recKey w e.seq) = p) :
    s.startSample w e = ((v.readSample x (inOf e.raw)).decodeSample x (v.sampleBytes x (inOf e.raw).srcH (inOf e.raw).srcOff) k
      (v.sampleCause x (inOf e.raw) p)).occupy (recKey w e.seq) (s.sampleIndex (inOf e.raw)) k (v.sampleCause x (inOf e.raw) p) p := by
  subst hx hp
  simp only [State.sampleIndex] at ha hb ⊢
  simp only [State.startSample, ha, hb, hk, hw]
  rfl

end

/-- Whatever a sample meets that is to start: pages are asked for, its table entry is lost, or it occupies a free engine. -/
theorem State.startSample_cases (s : State) (w : Nat) (e : QEntry) :
    Asks s (s.startSample w e) ∨
    (∃ u, Asks s u ∧ s.startSample w e = (u.hitStatus w e.seq (inOf e.raw).tableH).unitDone w e.seq 0x12 0) ∨
    ∃ k v y z i c p, s.rd (Obj.decState (k + 1)) = 0 ∧ k < 16 ∧ Asks s v ∧ OnBlocks v y ∧ WorkOnly k y z ∧
      s.startSample w e = z.occupy (recKey w e.seq) i k c p := by
  have hu : Asks s (s.sampleAccess (recKey w e.seq) (inOf e.raw) (s.sampleIndex (inOf e.raw)) true).1 := State.sampleAccess_asks
  cases ha : (s.sampleAccess (recKey w e.seq) (inOf e.raw) (s.sampleIndex (inOf e.raw)) true).2 with
  | waiting => exact .inl (State.startSample_waits w e (pair_of_snd ha) ▸ hu)
  | ready =>
    have ha := pair_of_snd ha
    generalize (s.sampleAccess (recKey w e.seq) (inOf e.raw) (s.sampleIndex (inOf e.raw)) true).1 = u at ha hu
    cases hb : u.hitsBad (inOf e.raw).tableH (32 * s.sampleIndex (inOf e.raw)) 32 with
    | true => exact .inr (.inl ⟨u, hu, State.startSample_lost w e ha hb⟩)
    | false =>
      cases hk : u.freeEngine with
      | none => exact .inl (State.startSample_lacksEngine w e ha hb hk ▸ hu)
      | some k =>
        have hv : Asks s (u.writable (recKey w e.seq) (u.enginePages k)).1 := hu.trans State.writable_asks
        cases hw : (u.writable (recKey w e.seq) (u.enginePages k)).2 with
        | false => exact .inl (State.startSample_lacksPages w e ha hb hk (pair_of_snd hw) ▸ hv)
        | true =>
          obtain ⟨hk16, hfree⟩ := State.freeEngine_free hk
          refine .inr (.inr ⟨k, _, _, _, _, _, _, ?_, hk16, hv, State.readSample_onBlocks, State.decodeSample_workOnly,
            State.startSample_starts w e ha hb hk (pair_of_snd hw) rfl rfl⟩)
          rw [← hfree, hu.rd _ (decState_ne_waits (by omega)) (eventKey_decState (by omega))]

section
variable {y z : State} {key i c : Nat} {p : Profile}

theorem State.occupy_fields : (s.occupy key i k c p).rd (Obj.decState (k + 1)) = 1 ∧
    (s.occupy key i k c p).store.samples.find key =
      some { profile := p, index := i, engine := k, progress := s.now, cause := c, formed := false } ∧
    (s.occupy key i k c p).store.engines = s.store.engines ∧ (s.occupy key i k c p).tier = s.tier ∧
    (s.occupy key i k c p).tile = s.tile :=
  ⟨State.rd_wr_self s _ 1, Tab.find_insert_self _ _ _, rfl, rfl, rfl⟩

theorem State.rd_occupy {j : Nat} (hj : j ≠ Obj.decState (k + 1)) : (s.occupy key i k c p).rd j = s.rd j := State.rd_wr_ne hj

/-- A sample that starts has an engine, which reads as busy, and of the memory only that engine's pages are written. -/
theorem State.started_fields (hv : Asks s v) (hy : OnBlocks v y) (hz : WorkOnly k y z) :
    let t := z.occupy key i k c p
    t.rd (Obj.decState (k + 1)) = 1 ∧
    t.store.samples.find key = some { profile := p, index := i, engine := k, progress := s.now, formed := false, cause := c } ∧
    (s.store.engineCfg = none → t.tier.mem = s.tier.mem) ∧
    (∀ h n a, s.store.engineCfg = some (h, n) → a < regionAddr h (65536 * n * k) ∨ regionAddr h (65536 * n * (k + 1)) ≤ a →
      t.tier.mem.get 0 a = s.tier.mem.get 0 a) ∧
    t.tile = s.tile := by
  obtain ⟨hbusy, hjob, -, htier, htile⟩ := State.occupy_fields (s := z) (key := key) (i := i) (k := k) (c := c) (p := p)
  have hcfg : y.store.engineCfg = s.store.engineCfg := by
    obtain ⟨b, m, e⟩ := hy.store
    rw [e, hv.store]
  have hmem : y.tier.mem = s.tier.mem := by rw [hy.tier, hv.mem]
  refine ⟨hbusy, ?_, fun hnone => ?_, fun h n a hsome ha => ?_, ?_⟩
  · rw [hjob, hz.now, hy.now, hv.now]
  · rw [htier, hz.unset (hcfg.trans hnone), hmem]
  · rw [htier, hz.outside h n a (hcfg.trans hsome) ha, hmem]
  · rw [htile, hz.tile, hy.tile, hv.tile]

end

/-- A sample that is to start changes no reset count, and no engine that is not free. -/
theorem State.startSample_keeps (s : State) (w : Nat) (e : QEntry) :
    (s.startSample w e).store.engines = s.store.engines ∧ (s.startSample w e).rd Obj.inEngineResets = s.rd Obj.inEngineResets ∧
    ∀ j, j < 16 → s.rd (Obj.decState (j + 1)) ≠ 0 → (s.startSample w e).rd (Obj.decState (j + 1)) = s.rd (Obj.decState (j + 1)) := by
  rcases s.startSample_cases w e with h | ⟨u, hu, h⟩ | ⟨k, v, y, z, i, c, p, hfree, hk, hv, hy, hz, h⟩
  · exact ⟨congrArg StoreState.engines h.store, h.rd _ (by decide) (by decide), fun j hj _ =>
      h.rd _ (decState_ne_waits (by omega)) (eventKey_decState (by omega))⟩
  · rw [h]
    refine ⟨?_, ?_, fun j hj _ => ?_⟩
    · rw [State.unitDone_store, State.hitStatus_store, hu.store]
    · exact (State.rd_hitStatus (by decide)).trans (hu.rd _ (by decide) (by decide))
    · exact (State.rd_hitStatus (eventKey_decState (by omega))).trans
        (hu.rd _ (decState_ne_waits (by omega)) (eventKey_decState (by omega)))
  · have hrd : ∀ j, z.rd j = y.rd j := fun j => State.rd_congr hz.obj j
    rw [h]
    refine ⟨?_, ?_, fun j hj hbusy => ?_⟩
    · obtain ⟨b, m, e⟩ := hy.store
      rw [State.occupy_fields.2.2.1, hz.store, e, hv.store]
    · rw [State.rd_occupy, hrd, hy.rd _ (by decide) (by decide), hv.rd _ (by decide) (by decide)]
      simp only [Obj.inEngineResets, Obj.decState]
      omega
    · have hne : j ≠ k := by
        rintro rfl
        exact hbusy hfree
      rw [State.rd_occupy (by simp only [Obj.decState]; omega), hrd, hy.rd, hv.rd _ (decState_ne_waits (by omega)) (eventKey_decState (by omega))]
      all_goals
        simp only [Obj.decState, Obj.stReadBytes, Obj.stRebuilds]
        omega

/-! ### DECODER_STALL (R289) -/

/-- An engine is reset for the `n`th time: its sample is taken from it, and the third time it has failed. -/
def State.resetEngine (s : State) (k key n : Nat) : State :=
  let s := s.countSat Obj.inEngineResets 1
  let s := { s with store := { s.store with
    engines := s.store.engines.set Engine.reset k { resets := n, failed := decide (3 ≤ n) }, samples := s.store.samples.erase key } }
  let s := s.wr (Obj.decState (k + 1)) (if 3 ≤ n then 2 else 0)
  if n = 3 then s.raise Ev.decEngineFailed [] else s

theorem State.decoderStall_resets {key : Nat} {j : SampleJob}
    (hj : (s.store.samples.find? fun x => x.2.engine == k && !x.2.formed) = some (key, j)) (hms : 100 * ms ≤ s.now - j.progress) :
    let u := s.resetEngine k key ((s.store.engines.get Engine.reset k).resets + 1)
    s.decoderStall k = ((u.entry (key / 2 ^ 32) (key % 2 ^ 32)).map fun e => u.startSample (key / 2 ^ 32) e).getD u := by
  intro u
  unfold State.decoderStall
  rw [hj]
  dsimp only
  rw [if_neg (Nat.not_lt.2 hms)]
  change (match u.entry (key / 2 ^ 32) (key % 2 ^ 32) with
    | some e => u.startSample (key / 2 ^ 32) e
    | none => u) = _
  cases u.entry (key / 2 ^ 32) (key % 2 ^ 32) <;> rfl

theorem State.decoderStall_rests
    (h : (s.store.samples.find? fun x => x.2.engine == k && !x.2.formed).all (fun x => decide (s.now - x.2.progress < 100 * ms)) = true) :
    s.decoderStall k = s := by
  unfold State.decoderStall
  split
  · rfl
  · next key j hj =>
    rw [hj] at h
    exact if_pos (by simpa using h)

theorem State.resetEngine_fields {key n : Nat} (hk : k < 16) :
    (s.resetEngine k key n).rd Obj.inEngineResets = min (s.rd Obj.inEngineResets + 1) (2 ^ 32 - 1) ∧
    (s.resetEngine k key n).store.engines.get Engine.reset k = { resets := n, failed := decide (3 ≤ n) } ∧
    (s.resetEngine k key n).rd (Obj.decState (k + 1)) = (if 3 ≤ n then 2 else 0) ∧
    (s.resetEngine k key n).store.samples = s.store.samples.erase key ∧ (s.resetEngine k key n).tier = s.tier := by
  unfold State.resetEngine
  extract_lets _ _ _ c
  have hcount : c.rd Obj.inEngineResets = min (s.rd Obj.inEngineResets + 1) (2 ^ 32 - 1) :=
    (State.rd_wr_ne (by simp only [Obj.inEngineResets, Obj.decState]; omega)).trans (State.rd_countSat_self _ _ _)
  have hread : c.rd (Obj.decState (k + 1)) = (if 3 ≤ n then 2 else 0) := State.rd_wr_self _ _ _
  have hengine : c.store.engines.get Engine.reset k = { resets := n, failed := decide (3 ≤ n) } := Tab.get_set_self _ _ _ _
  split
  · refine ⟨?_, ?_, ?_, ?_, ?_⟩
    · rw [State.rd_raise (by decide) (by decide), hcount]
    · rw [State.raise_store, hengine]
    · rw [State.rd_raise (eventKey_decState (by omega)) (by decide), hread]
    · rw [State.raise_store]
      rfl
    · rw [State.raise_tier]
      rfl
  · exact ⟨hcount, hengine, hread, rfl, rfl⟩

/-- The restart of its sample leaves an engine's reset counts, and a failed engine failed. -/
theorem State.restart_keeps (u : State) (w q : Nat) :
    let t := ((u.entry w q).map fun e => u.startSample w e).getD u
    t.store.engines = u.store.engines ∧ t.rd Obj.inEngineResets = u.rd Obj.inEngineResets ∧
    ∀ j, j < 16 → u.rd (Obj.decState (j + 1)) ≠ 0 → t.rd (Obj.decState (j + 1)) = u.rd (Obj.decState (j + 1)) := by
  cases u.entry w q with
  | none => exact ⟨rfl, rfl, fun _ _ _ => rfl⟩
  | some e => exact u.startSample_keeps w e

end Sys2Proof.Machine
end

section
/-! SUPPORT. Patches: how many bytes the output of a sample has, where they go, and how a sample ends. -/
namespace Sys2Proof.Machine

variable {s t u v : State} {w q : Nat} {e : QEntry} {d : In} {p : Profile}

/-! ### Engine tiles as bytes (R36, R293) -/

theorem packSub_q4_length {n : Nat} {l : List Nat} (hl : l.length = 4 * n) : (packSub .q4 l).length = 2 * n := by
  induction n generalizing l with
  | zero => rw [List.length_eq_zero_iff.1 hl]; rfl
  | succ n ih =>
    match l, hl with
    | a :: b :: c :: x :: r, hl =>
      have hr : r.length = 4 * n := by simpa [Nat.mul_succ] using hl
      simp only [packSub, List.length_cons, ih hr]
      omega

theorem packSub_w2_length {n : Nat} {l : List Nat} (hl : l.length = 4 * n) : (packSub .w2 l).length = n := by
  induction n generalizing l with
  | zero => rw [List.length_eq_zero_iff.1 hl]; rfl
  | succ n ih =>
    match l, hl with
    | a :: b :: c :: x :: r, hl =>
      have hr : r.length = 4 * n := by simpa [Nat.mul_succ] using hl
      simp only [packSub, List.length_cons, ih hr]

theorem flatMap_length_const {α β : Type} {l : List α} {f : α → List β} {n : Nat} (hf : ∀ a ∈ l, (f a).length = n) :
    (l.flatMap f).length = l.length * n := by
  induction l with
  | nil => simp
  | cons a l ih =>
    rw [List.flatMap_cons, List.length_append, hf a List.mem_cons_self, ih fun b hb => hf b (List.mem_cons_of_mem a hb), List.length_cons,
      Nat.succ_mul, Nat.add_comm]

/-- 32 lines of 32 codes fill an engine tile of any format. -/
theorem tileBytes_length {f : Fmt} {ls : List (List Nat)} (hn : ls.length = 32) (hl : ∀ l ∈ ls, l.length = 32) :
    (tileBytes f ls).length = etBytes f := by
  cases f
  case q4 =>
    refine (flatMap_length_const (n := 16) fun l h => ?_).trans (by rw [hn]; rfl)
    rw [List.length_map, packSub_q4_length (n := 8) (hl l h)]
  case w2 =>
    refine (flatMap_length_const (n := 8) fun l h => ?_).trans (by rw [hn]; rfl)
    rw [List.length_map, packSub_w2_length (n := 8) (hl l h)]
  case t1 =>
    refine (flatMap_length_const (n := 7) fun l _ => ?_).trans (by rw [hn]; rfl)
    simp [packT1]
  all_goals simp [tileBytes, etBytes]

/-- The lines that a function of token and column gives hold 32 codes each. -/
def WideLines (line : Nat → Nat → PatchLine) : Prop := ∀ r j, (line r j).1.length = 32

theorem convLine_length {f : Fmt} {scale : Val} {xs : List OutVal} : (convLine f scale xs).1.length = xs.length := by
  have hnan : (nanBlock f xs).2.length = xs.length := by simp [nanBlock]
  unfold convLine
  split
  · dsimp only
    rw [List.length_map]
    unfold convBlock
    split
    · exact hnan
    · dsimp only
      split
      · exact hnan
      · exact List.length_map _
  · simp

theorem Clip.line_wide (c : Clip) (p : Profile) : WideLines (c.line p) := fun r j => by
  simp only [Clip.line, convLine_length, List.length_map, List.length_range]

theorem failLine_wide (p : Profile) (pol : Nat) : WideLines fun _ j => failLine p pol j := fun _ j => by
  have hmin : min 32 (p.elems - 32 * j) ≤ 32 := Nat.min_le_left _ _
  unfold failLine
  dsimp only
  split
  · simp
  · split
    · simp only [List.length_append, List.length_replicate]
      omega
    · simp only [List.length_append, List.length_map, nanBlock, List.length_replicate, List.length_range]
      omega

/-! ### Tokens written one engine tile after another (R293) -/

/-- What holds of a state, whatever is counted and put within the bytes of the tokens, holds when the tokens stand. -/
theorem State.putTokens_rec {P : State → Prop} {layer first n : Nat} {line : Nat → Nat → PatchLine} {put : State → Nat → Bytes → State}
    (hline : WideLines line) (hput : ∀ v o bs, o + bs.length ≤ p.bytes n → P v → P (put v o bs))
    (htally : ∀ v kind layer dir cs sh, P v → P (v.tally kind layer dir cs sh)) (hs : P s) :
    P (s.putTokens p layer first n line put) := by
  unfold State.putTokens
  extract_lets nc scales
  refine List.foldlRecOn (motive := P) _ _ hs fun v hv i hi => List.foldlRecOn (motive := P) _ _ hv fun v hv j hj => ?_
  extract_lets ls et a b
  have het : et + 1 ≤ n / 32 * nc := by
    have hi' : i + 1 ≤ n / 32 := List.mem_range.1 hi
    have hj' : j + 1 ≤ nc := List.mem_range.1 hj
    calc i * nc + j + 1 ≤ i * nc + nc := Nat.add_le_add_left hj' _
      _ = (i + 1) * nc := (Nat.succ_mul i nc).symm
      _ ≤ n / 32 * nc := Nat.mul_le_mul_right nc hi'
  have hbytes : p.bytes n = n / 32 * nc * etBytes p.fmt + scaleBytes p.fmt (n / 32 * nc) := rfl
  have hlen : (tileBytes p.fmt (ls.map Prod.fst)).length = etBytes p.fmt := by
    refine tileBytes_length (by simp [ls]) fun l hl => ?_
    simp only [ls, List.map_map, List.mem_map, Function.comp_apply] at hl
    obtain ⟨r, -, rfl⟩ := hl
    exact hline _ _
  have ha : P a := by
    refine hput v _ _ ?_ hv
    rw [hlen, hbytes]
    calc et * etBytes p.fmt + etBytes p.fmt = (et + 1) * etBytes p.fmt := (Nat.succ_mul _ _).symm
      _ ≤ n / 32 * nc * etBytes p.fmt := Nat.mul_le_mul_right _ het
      _ ≤ _ := Nat.le_add_right _ _
  have hb : P b := by
    simp only [b]
    split
    · next hblock =>
      refine hput a _ _ ?_ ha
      rw [hbytes, scaleBytes, if_pos hblock]
      simp only [scales, ls, List.length_map, List.length_range]
      omega
    · exact ha
  exact htally b _ _ _ _ _ hb

/-- `v` has the scratchpads of `s`, and its memory but for the place of the output in its region. -/
def BesideRegion (d : In) (p : Profile) (s v : State) : Prop :=
  v.tile.scratch = s.tile.scratch ∧ ∀ a, a < regionAddr d.outH d.outOff ∨ regionAddr d.outH (d.outOff + p.bytes p.tokens) ≤ a →
    v.tier.mem.get 0 a = s.tier.mem.get 0 a

/-- `v` has the memory of `s`, and its scratchpads but for those of the tiles that take the output, which must fit each. -/
def BesideTiles (d : In) (p : Profile) (s v : State) : Prop :=
  v.tier.mem = s.tier.mem ∧ ∀ a, a < 2 ^ 21 * d.tf ∨ 2 ^ 21 * (d.tl + 1) ≤ a →
    d.outOff + p.bytes (p.tokens / (d.tl - d.tf + 1)) ≤ 2 ^ 21 → v.tile.scratch.get 0 a = s.tile.scratch.get 0 a

/-- A region takes its output from the record's offset on. -/
theorem State.putSample_region (hd : d.dest = 0) {line : Nat → Nat → PatchLine} (hline : WideLines line) :
    BesideRegion d p s (s.putSample d p line) := by
  unfold State.putSample
  rw [if_pos hd]
  refine State.putTokens_rec (P := BesideRegion d p s) hline ?_ (fun _ _ _ _ _ _ h => h) ⟨rfl, fun _ _ => rfl⟩
  rintro v o bs ho ⟨hscratch, hmem⟩
  obtain ⟨l, hl⟩ := v.regionWrite_shape d.outH (d.outOff + o) bs
  rw [hl]
  refine ⟨hscratch, fun a ha => (memWrite_get_outside bs ?_).trans (hmem a ha)⟩
  simp only [regionAddr] at ha ⊢
  omega

theorem State.putBytes_scratch_get {x k : Nat} {l : List (Nat × Nat)} (hk : ∀ y ∈ l, k ≠ x * 2 ^ 21 + y.1) :
    (s.putBytes x false l).tile.scratch.get 0 k = s.tile.scratch.get 0 k :=
  List.foldlRecOn (motive := fun v : State => v.tile.scratch.get 0 k = s.tile.scratch.get 0 k) l _ rfl fun _ hv y hy =>
    (State.putByte_scratch_get (hk y hy)).trans hv

/-- Tiles take equal shares of it in their scratchpads. -/
theorem State.putSample_tiles (hd : d.dest ≠ 0) {line : Nat → Nat → PatchLine} (hline : WideLines line) :
    BesideTiles d p s (s.putSample d p line) := by
  unfold State.putSample
  rw [if_neg hd]
  refine List.foldlRecOn (motive := BesideTiles d p s) _ _ ⟨rfl, fun _ _ _ => rfl⟩ fun v hv x hx => ?_
  refine State.putTokens_rec (P := BesideTiles d p s) hline ?_ (fun _ _ _ _ _ _ h => h) hv
  rintro v o bs ho ⟨hmem, hscratch⟩
  refine ⟨(congrArg TierState.mem State.putBytes_keeps.1).trans hmem, fun a ha hfit =>
    (State.putBytes_scratch_get ?_).trans (hscratch a ha hfit)⟩
  obtain ⟨hf, hl⟩ := mem_tileRange.1 hx
  rintro y hy rfl
  obtain ⟨⟨b, i⟩, hz, rfl⟩ := List.mem_map.1 hy
  have hi : i < bs.length := (List.mem_zipIdx' hz).1
  dsimp only at ha
  omega

end Sys2Proof.Machine
end

section
/-! SUPPORT. A sample's end: its engine is free, its patches or its failure stand, and its record is done. -/
namespace Sys2Proof.Machine

variable {s t u v : State} {w q : Nat} {e : QEntry} {d : In} {p : Profile} {j : SampleJob}

/-! ### What arrivals in tiles leave of a record (R160, R162) -/

theorem State.entry_formReserved {ty status reason value : Nat} {cseq : Option Nat} :
    (s.formReserved w ty status reason value cseq).entry w q = s.entry w q := by
  obtain ⟨r, n, l, h⟩ := State.win_formReserved (s := s) (w := w) (ty := ty) (status := status) (reason := reason) (value := value) (cseq := cseq)
  rw [State.entry, h, State.entry]

theorem State.entry_syncFault {tag reason : Nat} {ps : List Bytes} : (s.syncFault w q tag reason ps).entry w q = s.entry w q := by
  unfold State.syncFault
  rw [State.entry_haltWin, ← State.entry_formReserved (s := s)]
  exact State.entry_congr (State.raise_cmd _ _ _) w q

theorem State.entry_semAdd {x i n tag : Nat} : (s.semAdd x i n w q tag).entry w q = s.entry w q := by
  unfold State.semAdd
  split
  · exact State.entry_syncFault
  · rfl

theorem State.entry_arrive {c tag : Nat} : (s.arrive c w q tag).entry w q = s.entry w q := by
  unfold State.arrive
  extract_lets x
  split
  · exact State.entry_syncFault
  · split <;> rfl

theorem State.entry_sampleTiles {tag : Nat} : (s.sampleTiles w q tag d).entry w q = s.entry w q := by
  unfold State.sampleTiles
  split
  · rfl
  · refine List.foldlRecOn (motive := fun v : State => v.entry w q = s.entry w q) _ _ rfl fun v hv x _ => ?_
    extract_lets y
    have hy : y.entry w q = s.entry w q := State.entry_semAdd.trans hv
    split
    · exact State.entry_arrive.trans hy
    · exact hy

/-! ### Patches put (R293) -/

/-- What holds whatever is counted, and is kept by work, holds after the work of a step. -/
theorem State.inStep_rec {P : State → Prop} {m : Option Nat} {f : State → State}
    (hcounts : ∀ v c l, P v → P { v with tile := { v.tile with counts := c, later := l } }) (hf : ∀ v, P v → P (f v)) (hs : P s) :
    P (s.inStep m f) := by
  unfold State.inStep
  split
  · split
    · exact hcounts _ _ _ (hf _ (hcounts s _ s.tile.later hs))
    · exact hf s hs
  · exact hf s hs

/-- The output goes where it belongs, its tokens are counted, its tiles are told, and the record is done. -/
def State.putPatches (s : State) (w : Nat) (e : QEntry) (p : Profile) (line : Nat → Nat → PatchLine) (status reason : Nat) : State :=
  (((s.inStep e.step fun s => s.putSample (inOf e.raw) p line).count Obj.inTokens p.tokens).sampleTiles w e.seq (Rec.tag e.raw)
    (inOf e.raw)).unitDone w e.seq status reason

/-- Objects that putting patches may change, beside the count of tokens. -/
def patchKeys : List Nat :=
  [Obj.barCompletions, Obj.syncFaults, Obj.cumElements, Obj.cumNonfinite, Obj.cumSaturation, Obj.cumUnderflow]

/-- The work of putting the output, before its tokens are counted. -/
theorem State.putWork_within {m : Option Nat} {line : Nat → Nat → PatchLine} :
    Within ⟨[.tile, .scratch, .castMem, .mem, .tier], (· ∈ patchKeys)⟩ s (s.inStep m fun s => s.putSample d p line) :=
  State.inStep_within (by decide) (fun _ h => State.putSample_within (by decide) (by decide) (by decide) (by decide) (by decide) h
    (by decide) (by decide) (by decide) (by decide)) (.refl _ s)

theorem State.toldTiles_within {tag : Nat} : Within ⟨[.cmd, .tile], (· ∈ patchKeys)⟩ s (s.sampleTiles w q tag d) :=
  State.sampleTiles_within (by decide) (by decide) (.refl _ s) (by decide) (by decide)

section
variable {line : Nat → Nat → PatchLine} {status reason : Nat}

theorem State.putPatches_store : (s.putPatches w e p line status reason).store = s.store :=
  (State.toldTiles_within.store_eq (by decide) (by decide)).trans (State.putWork_within.store_eq (by decide) (by decide))

theorem State.rd_putPatches {k : Nat} (hk : k ∉ patchKeys) (ht : k ≠ Obj.inTokens) (he : eventKey k = false) :
    (s.putPatches w e p line status reason).rd k = s.rd k :=
  (State.toldTiles_within.rd_eq hk he).trans ((State.rd_count_ne ht).trans (State.putWork_within.rd_eq hk he))

theorem State.putPatches_counts :
    (s.putPatches w e p line status reason).rd Obj.inTokens = (s.rd Obj.inTokens + p.tokens) % 2 ^ 64 := by
  refine (State.toldTiles_within.rd_eq (by decide) (by decide)).trans ?_
  rw [State.rd_count_self, State.putWork_within.rd_eq (k := Obj.inTokens) (by decide) (by decide)]

theorem State.entry_putPatches (he : s.entry w e.seq = some e) :
    ((s.putPatches w e p line status reason).entry w e.seq).map QEntry.unit = some true := by
  refine State.entry_unitDone (e := e) (State.entry_sampleTiles.trans (Eq.trans ?_ he))
  exact State.entry_congr ((State.putWork_within.mono (by decide) fun _ _ => trivial).cmd_eq) w e.seq

theorem State.putPatches_region (hd : (inOf e.raw).dest = 0) (hline : WideLines line) :
    BesideRegion (inOf e.raw) p s (s.putPatches w e p line status reason) := by
  unfold State.putPatches State.sampleTiles
  rw [if_pos hd]
  refine State.inStep_rec (P := BesideRegion (inOf e.raw) p s) (fun _ _ _ h => h) ?_ ⟨rfl, fun _ _ => rfl⟩
  rintro v ⟨hscratch, hmem⟩
  obtain ⟨hscratch', hmem'⟩ := State.putSample_region (s := v) (p := p) hd hline
  exact ⟨hscratch'.trans hscratch, fun a ha => (hmem' a ha).trans (hmem a ha)⟩

theorem State.putPatches_tiles (hd : (inOf e.raw).dest ≠ 0) (hline : WideLines line) :
    BesideTiles (inOf e.raw) p s (s.putPatches w e p line status reason) := by
  have hput : BesideTiles (inOf e.raw) p s (s.inStep e.step fun s => s.putSample (inOf e.raw) p line) := by
    refine State.inStep_rec (P := BesideTiles (inOf e.raw) p s) (fun _ _ _ h => h) ?_ ⟨rfl, fun _ _ _ => rfl⟩
    rintro v ⟨hmem, hscratch⟩
    obtain ⟨hmem', hscratch'⟩ := State.putSample_tiles (s := v) (p := p) hd hline
    exact ⟨hmem'.trans hmem, fun a ha hfit => (hscratch' a ha hfit).trans (hscratch a ha hfit)⟩
  obtain ⟨hmem, hscratch⟩ := hput
  refine ⟨(State.toldTiles_within.mem_eq (by decide)).trans hmem, fun a ha hfit => Eq.trans ?_ (hscratch a ha hfit)⟩
  exact congrArg (Tab.get 0 · a) ((State.toldTiles_within.same .scratch).resolve_left (by decide))

end

/-! ### SAMPLE_COMPLETE, case by case (R293, R295) -/

/-- The pages of the region that takes the output are asked for; tiles need none. -/
def State.sampleOut (s : State) (key : Nat) (d : In) (p : Profile) : State × Access :=
  if d.dest = 0 then s.access key d.gated d.outH (pagesOf d.outOff (p.bytes p.tokens)) else (s, .ready)

theorem State.sampleOut_asks {key : Nat} : Asks s (s.sampleOut key d p).1 := by
  unfold State.sampleOut
  split
  · exact State.access_asks
  · exact .refl s

/-- The pictures that a sample counts. -/
def State.sampleFrames (s : State) (d : In) (j : SampleJob) : Nat :=
  let x := s.sampleEntry d.tableH j.index
  if j.cause = 0xE8 ∨ j.cause = 0xE1 ∨ j.cause = 0xE2 then 0
  else Config.pictures (x.stream (s.sampleBytes x d.srcH d.srcOff)) (if j.cause = 0 then j.profile.need else 0)

/-- The pictures of a sample and its bytes. -/
def State.sampleClip (s : State) (d : In) (j : SampleJob) : Clip :=
  let x := s.sampleEntry d.tableH j.index
  let bs := s.sampleBytes x d.srcH d.srcOff
  { entry := x, info := Config.decInfo (x.stream bs), bytes := bs }

/-- The lines of a sample's patches, or of what its policy puts for them. -/
def State.sampleLine (s : State) (d : In) (j : SampleJob) : Nat → Nat → PatchLine :=
  if j.cause = 0 then (s.sampleClip d j).line j.profile else fun _ i => failLine j.profile d.errPol i

theorem State.sampleLine_wide : WideLines (s.sampleLine d j) := by
  unfold State.sampleLine
  split
  · exact Clip.line_wide _ _
  · exact failLine_wide _ _

/-- A sample is formed: its engine is free, it is counted, and so are its pictures. -/
def State.formSample (s : State) (key : Nat) (j : SampleJob) (frames : Nat) : State :=
  (((s.setJob key { j with formed := true }).wr (Obj.decState (j.engine + 1)) 0).count Obj.inSamples 1).count Obj.inFrames frames

/-- The failure of a sample, where it has one, is told. -/
def State.tellFailure (s : State) (d : In) (j : SampleJob) : State := if j.cause = 0 then s else s.sampleFails d j.index j.cause

/-- A formed sample whose failure, where it has one, is told. -/
def State.endSample (s : State) (key : Nat) (d : In) (j : SampleJob) : State :=
  (s.formSample key j (s.sampleFrames d j)).tellFailure d j

section
variable (w e)

theorem State.sampleComplete_none (hj : s.store.samples.find (recKey w e.seq) = none) : s.sampleComplete w e = s := by
  simp only [State.sampleComplete, hj]

variable (hj : s.store.samples.find (recKey w e.seq) = some j)
include hj

theorem State.sampleComplete_rests {a : Access} (hu : s.sampleOut (recKey w e.seq) (inOf e.raw) j.profile = (u, a))
    (h : j.formed = true ∨ a = .waiting) : s.sampleComplete w e = u := by
  simp only [State.sampleOut] at hu
  simp only [State.sampleComplete, hj, hu, if_pos h]

variable (hu : s.sampleOut (recKey w e.seq) (inOf e.raw) j.profile = (u, .ready)) (hf : j.formed = false)
include hu hf

/-- A sample without failure puts its patches, and one whose failure its policy covers puts what the policy says. -/
theorem State.sampleComplete_puts (hc : j.cause = 0 ∨ (inOf e.raw).errPol ≠ 2) : ∃ status, s.sampleComplete w e =
    (u.endSample (recKey w e.seq) (inOf e.raw) j).putPatches w e j.profile (u.sampleLine (inOf e.raw) j) status j.cause := by
  simp only [State.sampleOut] at hu
  by_cases h0 : j.cause = 0
  · refine ⟨0, ?_⟩
    simp [State.sampleComplete, hj, hu, hf, h0, State.endSample, State.tellFailure, State.formSample, State.sampleFrames, State.putPatches,
      State.sampleLine, State.sampleClip]
  · refine ⟨0x21, ?_⟩
    simp [State.sampleComplete, hj, hu, hf, h0, hc.resolve_left h0, State.endSample, State.tellFailure, State.formSample, State.sampleFrames,
      State.putPatches, State.sampleLine]

/-- Under policy 2 a failure halts the window. -/
theorem State.sampleComplete_halts (hc : j.cause ≠ 0) (hp : (inOf e.raw).errPol = 2) :
    s.sampleComplete w e = ((u.endSample (recKey w e.seq) (inOf e.raw) j).unitDone w e.seq 0x21 j.cause).haltWin w 0xA1 (0x2100 + j.cause) := by
  simp only [State.sampleOut] at hu
  simp [State.sampleComplete, hj, hu, hf, hc, hp, State.endSample, State.tellFailure, State.formSample, State.sampleFrames]

end

/-! ### What its end leaves -/

theorem State.tellFailure_keeps : (s.tellFailure d j).cmd = s.cmd ∧ (s.tellFailure d j).store = s.store ∧ (s.tellFailure d j).tier = s.tier ∧
    (s.tellFailure d j).tile = s.tile := by
  unfold State.tellFailure
  split
  · exact ⟨rfl, rfl, rfl, rfl⟩
  · exact State.sampleFails_fields.2.2

theorem State.rd_tellFailure {k : Nat} (hc : k ≠ Obj.lastErrorCause) (hs : k ≠ Obj.inSampleErrors) (he : eventKey k = false) :
    (s.tellFailure d j).rd k = s.rd k := by
  unfold State.tellFailure State.sampleFails
  split
  · rfl
  · rw [State.rd_wr_ne hc, State.rd_countSat_ne hs]
    exact (State.raise_within (g := ⟨[], fun _ => False⟩) (.refl _ s)).rd_eq id he

section
variable {key n : Nat}

theorem State.endSample_keeps : (s.endSample key d j).cmd = s.cmd ∧ (s.endSample key d j).tier = s.tier ∧ (s.endSample key d j).tile = s.tile ∧
    (s.endSample key d j).store.samples.find key = some { j with formed := true } := by
  obtain ⟨hcmd, hstore, htier, htile⟩ := State.tellFailure_keeps (s := s.formSample key j (s.sampleFrames d j)) (d := d) (j := j)
  exact ⟨hcmd, htier, htile, (congrArg (fun x : StoreState => x.samples.find key) hstore).trans (Tab.find_insert_self _ _ _)⟩

theorem State.rd_formSample {k : Nat} (hd : k ≠ Obj.decState (j.engine + 1)) (hs : k ≠ Obj.inSamples) (hf : k ≠ Obj.inFrames) :
    (s.formSample key j n).rd k = s.rd k := by
  unfold State.formSample
  rw [State.rd_count_ne hf, State.rd_count_ne hs, State.rd_wr_ne hd]
  rfl

theorem decState_notMem_patchKeys {n : Nat} (hn : n ≤ 16) : Obj.decState n ∉ patchKeys ∧ Obj.decState n ≠ Obj.inTokens ∧
    Obj.decState n ≠ Obj.inSamples ∧ Obj.decState n ≠ Obj.inFrames ∧ Obj.decState n ≠ Obj.lastErrorCause ∧
    Obj.decState n ≠ Obj.inSampleErrors := by
  simp only [patchKeys, List.mem_cons, List.not_mem_nil, or_false, Obj.decState, Obj.barCompletions, Obj.syncFaults, Obj.cumElements,
    Obj.cumNonfinite, Obj.cumSaturation, Obj.cumUnderflow, Obj.inTokens, Obj.inSamples, Obj.inFrames, Obj.lastErrorCause, Obj.inSampleErrors]
  omega

/-- The engine is free, the sample counted, and so is its failure, whose cause is kept. -/
theorem State.rd_endSample (hj : j.engine < 16) : (s.endSample key d j).rd (Obj.decState (j.engine + 1)) = 0 ∧
    (s.endSample key d j).rd Obj.inSamples = (s.rd Obj.inSamples + 1) % 2 ^ 64 ∧
    (s.endSample key d j).rd Obj.inTokens = s.rd Obj.inTokens ∧
    (j.cause ≠ 0 → (s.endSample key d j).rd Obj.lastErrorCause = j.cause ∧
      (s.endSample key d j).rd Obj.inSampleErrors = min (s.rd Obj.inSampleErrors + 1) (2 ^ 32 - 1)) := by
  obtain ⟨-, htokens, hsamples, hframes, hcause, herrors⟩ := decState_notMem_patchKeys (n := j.engine + 1) (by omega)
  unfold State.endSample
  refine ⟨?_, ?_, ?_, fun hc => ?_⟩
  · rw [State.rd_tellFailure hcause herrors (eventKey_decState (by omega)), State.formSample, State.rd_count_ne hframes, State.rd_count_ne hsamples,
      State.rd_wr_self]
  · rw [State.rd_tellFailure (by decide) (by decide) (by decide), State.formSample, State.rd_count_ne (by decide), State.rd_count_self,
      State.rd_wr_ne hsamples.symm]
    rfl
  · rw [State.rd_tellFailure (by decide) (by decide) (by decide), State.rd_formSample htokens.symm (by decide) (by decide)]
  · rw [State.tellFailure, if_neg hc]
    obtain ⟨hlast, hcount, -⟩ := State.sampleFails_fields (s := s.formSample key j (s.sampleFrames d j)) (d := d) (i := j.index) (c := j.cause)
    refine ⟨hlast, ?_⟩
    rw [hcount, State.rd_formSample herrors.symm (by decide) (by decide)]

end

end Sys2Proof.Machine
end

section
/-! SUPPORT. The statement on samples and decode engines, from the cases of their commands. -/
namespace Sys2Proof.Machine

variable {s t u v : State} {w q : Nat} {e : QEntry} {j : SampleJob}

theorem exec_decoderStall {k : Fin 16} : exec (.decoderStall k) s = .next (s.decoderStall k) := rfl

/-! ### SAMPLE (R289) -/

theorem State.sample_runs (w : Nat) (e : QEntry) (hj : s.store.samples.find (recKey w e.seq) = some j) :
    s.sample w e = s.setJob (recKey w e.seq) { j with progress := s.now } := by
  simp only [State.sample, hj]

theorem State.sample_starts (w : Nat) (e : QEntry) (hj : s.store.samples.find (recKey w e.seq) = none) (hd : s.decodersOn = true) :
    s.sample w e = s.startSample w e := by
  simp only [State.sample, hj, hd, if_true]

theorem State.sample_off (w : Nat) (e : QEntry) (hj : s.store.samples.find (recKey w e.seq) = none) (hd : s.decodersOn = false) :
    s.sample w e = s := by
  simp only [State.sample, hj, hd, Bool.false_eq_true, if_false]

/-- A sample that waits, for its table, an engine or its pages, has asked for pages and done no more. -/
theorem State.sample_waits_asks (w : Nat) (e : QEntry) (hj : s.store.samples.find (recKey w e.seq) = none)
    (h : s.decodersOn = false ∨ (s.sampleAccess (recKey w e.seq) (inOf e.raw) (s.sampleIndex (inOf e.raw)) true).2 = .waiting ∨
      let u := (s.sampleAccess (recKey w e.seq) (inOf e.raw) (s.sampleIndex (inOf e.raw)) true).1
      u.hitsBad (inOf e.raw).tableH (32 * s.sampleIndex (inOf e.raw)) 32 = false ∧
      (u.freeEngine).all (fun k => !(u.writable (recKey w e.seq) (u.enginePages k)).2) = true) : Asks s (s.sample w e) := by
  cases hon : s.decodersOn with
  | false =>
    rw [State.sample_off w e hj hon]
    exact .refl s
  | true =>
    rw [State.sample_starts w e hj hon]
    have hu : Asks s (s.sampleAccess (recKey w e.seq) (inOf e.raw) (s.sampleIndex (inOf e.raw)) true).1 := State.sampleAccess_asks
    cases ha : (s.sampleAccess (recKey w e.seq) (inOf e.raw) (s.sampleIndex (inOf e.raw)) true).2 with
    | waiting => exact State.startSample_waits w e (pair_of_snd ha) ▸ hu
    | ready =>
      obtain ⟨hb, hall⟩ := (h.resolve_left (by simp [hon])).resolve_left (by simp [ha])
      cases hk : (s.sampleAccess (recKey w e.seq) (inOf e.raw) (s.sampleIndex (inOf e.raw)) true).1.freeEngine with
      | none => exact State.startSample_lacksEngine w e (pair_of_snd ha) hb hk ▸ hu
      | some k =>
        rw [hk] at hall
        rw [State.startSample_lacksPages w e (pair_of_snd ha) hb hk (pair_of_snd (by simpa using hall))]
        exact hu.trans State.writable_asks

/-! ### SAMPLE_COMPLETE (R293, R295) -/

/-- The output has its pages where a region that takes it has them. -/
theorem State.sampleOut_ready {key : Nat} {d : In} {p : Profile}
    (h : d.dest = 0 → (s.access key d.gated d.outH (pagesOf d.outOff (p.bytes p.tokens))).2 = .ready) : (s.sampleOut key d p).2 = .ready := by
  unfold State.sampleOut
  split
  · next hd => exact h hd
  · rfl

theorem State.endSample_region {key : Nat} {d : In} {p : Profile} (hu : Asks s u) (h : BesideRegion d p (u.endSample key d j) t) :
    BesideRegion d p s t := by
  obtain ⟨-, htier, htile, -⟩ := State.endSample_keeps (s := u) (key := key) (d := d) (j := j)
  obtain ⟨hscratch, hmem⟩ := h
  rw [htile, hu.tile] at hscratch
  rw [htier, hu.mem] at hmem
  exact ⟨hscratch, hmem⟩

theorem State.endSample_tiles {key : Nat} {d : In} {p : Profile} (hu : Asks s u) (h : BesideTiles d p (u.endSample key d j) t) :
    BesideTiles d p s t := by
  obtain ⟨-, htier, htile, -⟩ := State.endSample_keeps (s := u) (key := key) (d := d) (j := j)
  obtain ⟨hmem, hscratch⟩ := h
  rw [htier, hu.mem] at hmem
  rw [htile, hu.tile] at hscratch
  exact ⟨hmem, hscratch⟩

section
variable (hu : Asks s u) (hk : j.engine < 16)
include hu hk

/-- Whatever ends it, its engine is free, and it is counted and formed; so is its failure counted, and its cause kept. -/
theorem State.ended_fields {key : Nat} {d : In} :
    (u.endSample key d j).rd (Obj.decState (j.engine + 1)) = 0 ∧
    (u.endSample key d j).store.samples.find key = some { j with formed := true } ∧
    (u.endSample key d j).rd Obj.inSamples = (s.rd Obj.inSamples + 1) % 2 ^ 64 ∧
    (u.endSample key d j).rd Obj.inTokens = s.rd Obj.inTokens ∧
    (j.cause ≠ 0 → (u.endSample key d j).rd Obj.lastErrorCause = j.cause ∧
      (u.endSample key d j).rd Obj.inSampleErrors = min (s.rd Obj.inSampleErrors + 1) (2 ^ 32 - 1)) := by
  obtain ⟨hfree, hcount, htokens, hfail⟩ := State.rd_endSample (s := u) (key := key) (d := d) hk
  rw [hu.rd _ (by decide) (by decide)] at hcount htokens hfail
  exact ⟨hfree, State.endSample_keeps.2.2.2, hcount, htokens, hfail⟩

variable (he : s.entry w e.seq = some e)
include he

/-- A sample that puts its output has ended; its tokens are counted, and its record is done. -/
theorem State.put_fields {line : Nat → Nat → PatchLine} {status : Nat} :
    let t := (u.endSample (recKey w e.seq) (inOf e.raw) j).putPatches w e j.profile line status j.cause
    t.rd (Obj.decState (j.engine + 1)) = 0 ∧ t.store.samples.find (recKey w e.seq) = some { j with formed := true } ∧
    t.rd Obj.inSamples = (s.rd Obj.inSamples + 1) % 2 ^ 64 ∧ (t.entry w e.seq).map QEntry.unit = some true ∧
    (j.cause ≠ 0 → t.rd Obj.lastErrorCause = j.cause ∧ t.rd Obj.inSampleErrors = min (s.rd Obj.inSampleErrors + 1) (2 ^ 32 - 1)) ∧
    t.rd Obj.inTokens = (s.rd Obj.inTokens + j.profile.tokens) % 2 ^ 64 := by
  intro t
  obtain ⟨hfree, hjob, hcount, htokens, hfail⟩ := State.ended_fields (key := recKey w e.seq) (d := inOf e.raw) hu hk
  obtain ⟨hpatch, hkey, -⟩ := decState_notMem_patchKeys (n := j.engine + 1) (by omega)
  refine ⟨?_, ?_, ?_, ?_, ?_, ?_⟩
  · exact (State.rd_putPatches hpatch hkey (eventKey_decState (by omega))).trans hfree
  · exact (congrArg (fun x : StoreState => x.samples.find (recKey w e.seq)) State.putPatches_store).trans hjob
  · exact (State.rd_putPatches (by decide) (by decide) (by decide)).trans hcount
  · exact State.entry_putPatches (((State.entry_congr State.endSample_keeps.1 w e.seq).trans (hu.entry w e.seq)).trans he)
  · intro hc
    obtain ⟨hcause, herrors⟩ := hfail hc
    exact ⟨(State.rd_putPatches (by decide) (by decide) (by decide)).trans hcause,
      (State.rd_putPatches (by decide) (by decide) (by decide)).trans herrors⟩
  · exact State.putPatches_counts.trans (by rw [htokens])

/-- One that halts its window has ended too; of memory and tiles it changes nothing. -/
theorem State.halted_fields (hc : j.cause ≠ 0) :
    let t := ((u.endSample (recKey w e.seq) (inOf e.raw) j).unitDone w e.seq 0x21 j.cause).haltWin w 0xA1 (0x2100 + j.cause)
    t.rd (Obj.decState (j.engine + 1)) = 0 ∧ t.store.samples.find (recKey w e.seq) = some { j with formed := true } ∧
    t.rd Obj.inSamples = (s.rd Obj.inSamples + 1) % 2 ^ 64 ∧ (t.entry w e.seq).map QEntry.unit = some true ∧ (t.win w).state = .halted ∧
    (t.win w).haltCause = 0x2100 + j.cause ∧ t.rd Obj.lastErrorCause = j.cause ∧
    t.rd Obj.inSampleErrors = min (s.rd Obj.inSampleErrors + 1) (2 ^ 32 - 1) ∧ t.tile = s.tile ∧ t.tier.mem = s.tier.mem := by
  intro t
  obtain ⟨hfree, hjob, hcount, -, hfail⟩ := State.ended_fields (key := recKey w e.seq) (d := inOf e.raw) hu hk
  obtain ⟨hcmd, htier, htile, -⟩ := State.endSample_keeps (s := u) (key := recKey w e.seq) (d := inOf e.raw) (j := j)
  obtain ⟨hcause, herrors⟩ := hfail hc
  obtain ⟨hstate, hhalt, -⟩ := State.haltWin_win (w := w) (cause := 0xA1) (hc := 0x2100 + j.cause)
    (s := (u.endSample (recKey w e.seq) (inOf e.raw) j).unitDone w e.seq 0x21 j.cause)
  have hrd : ∀ k, eventKey k = false → t.rd k = (u.endSample (recKey w e.seq) (inOf e.raw) j).rd k := fun k hk =>
    (State.haltWin_within (g := ⟨[.cmd], fun _ => False⟩) (by decide) (.refl _ _)).rd_eq id hk
  refine ⟨(hrd _ (eventKey_decState (by omega))).trans hfree, ?_, (hrd _ (by decide)).trans hcount, ?_, hstate, hhalt,
    (hrd _ (by decide)).trans hcause, (hrd _ (by decide)).trans herrors, ?_, ?_⟩
  · exact (congrArg (fun x : StoreState => x.samples.find (recKey w e.seq)) (State.haltWin_store ..)).trans hjob
  · rw [State.entry_haltWin]
    exact State.entry_unitDone (((State.entry_congr hcmd w e.seq).trans (hu.entry w e.seq)).trans he)
  · simp only [t, State.haltWin_tile, State.unitDone_tile, htile, hu.tile]
  · simp only [t, State.haltWin_tier, State.unitDone_tier, htier, hu.mem]

end

/-- A record without a sample, or whose sample is formed, asks for pages and does no more. -/
theorem State.sampleComplete_rests_asks (w : Nat) (e : QEntry) (h : (s.store.samples.find (recKey w e.seq)).all SampleJob.formed = true) :
    Asks s (s.sampleComplete w e) := by
  cases hj : s.store.samples.find (recKey w e.seq) with
  | none =>
    rw [State.sampleComplete_none w e hj]
    exact .refl s
  | some j =>
    rw [State.sampleComplete_rests w e hj rfl (.inl (by simpa [hj] using h))]
    exact State.sampleOut_asks

/-! ### The obligation on samples and engines -/

/-- Settles O42: an engine runs each sample, whose end puts its patches or what its policy says, and a stalled engine gives its sample up. -/
theorem samplesDecodeOnEngines : Obligations.SamplesDecodeOnEngines := by
  unfold Obligations.SamplesDecodeOnEngines
  refine ⟨?starts, ?waits, ?lost, ?runs, ?region, ?waitsOut, ?rests, ?tiles, ?halts, ?stalls, ?unstalled,
    fun s w q h => ⟨s, onUnit_idle h, rfl⟩, fun s w q h => ⟨s, onUnit_idle h, rfl⟩⟩
  case starts =>
    intro s w q k e he hd hu hs hk ho hj hon ha hb hfree hw
    obtain rfl := State.entry_seq he
    have hv : Asks s (((s.sampleAccess (recKey w e.seq) (inOf e.raw) (s.sampleIndex (inOf e.raw)) true).1.writable (recKey w e.seq)
        ((s.sampleAccess (recKey w e.seq) (inOf e.raw) (s.sampleIndex (inOf e.raw)) true).1.enginePages k)).1) :=
      State.sampleAccess_asks.trans State.writable_asks
    refine ⟨_, onUnit_runs he hd hu hs hk ho, ?_⟩
    rw [State.sample_starts w e hj hon, State.startSample_starts w e (pair_of_snd ha) hb hfree (pair_of_snd hw) rfl
      (congrArg (fun x : StoreState => x.fixed.get (inOf e.raw).pf (recKey w e.seq)) hv.store)]
    obtain ⟨hbusy, hjob, hrest⟩ := State.started_fields (key := recKey w e.seq) (i := s.sampleIndex (inOf e.raw)) hv State.readSample_onBlocks
      State.decodeSample_workOnly
    refine ⟨hbusy, hjob.trans ?_, hrest⟩
    rw [State.sampleCause, hv.store]
    rfl
  case waits =>
    intro s w q e he hd hu hs hk ho hj h
    obtain rfl := State.entry_seq he
    have hasks := State.sample_waits_asks w e hj h
    exact ⟨_, onUnit_runs he hd hu hs hk ho, hasks.mem, congrArg StoreState.zones hasks.store, hasks.cmd, congrArg StoreState.samples hasks.store,
      hasks.rd _ (by decide) (by decide)⟩
  case lost =>
    intro s w q e he hd hu hs hk ho hj hon ha hb
    obtain rfl := State.entry_seq he
    refine ⟨_, onUnit_runs he hd hu hs hk ho, ?_⟩
    rw [State.sample_starts w e hj hon, State.startSample_lost w e (pair_of_snd ha) hb]
    obtain ⟨hmem, hstore, hunit, -⟩ := State.lostEntry_fields State.sampleAccess_asks he
    exact ⟨hmem, congrArg StoreState.samples hstore, hunit⟩
  case runs =>
    intro s w q e j he hd hu hs hk ho hj
    obtain rfl := State.entry_seq he
    refine ⟨_, onUnit_runs he hd hu hs hk ho, ?_⟩
    rw [State.sample_runs w e hj]
    exact ⟨Tab.find_insert_self _ _ _, rfl, rfl⟩
  case region =>
    intro s w q e j he hd hu hs hk ho hj hf hk16 hdest ha hc
    obtain rfl := State.entry_seq he
    obtain ⟨status, hputs⟩ := State.sampleComplete_puts w e hj (pair_of_snd (State.sampleOut_ready fun _ => ha)) hf hc
    refine ⟨_, onUnit_runs he hd hu hs hk ho, ?_⟩
    rw [hputs]
    obtain ⟨hfree, hjob, hcount, hunit, hfail, htokens⟩ := State.put_fields State.sampleOut_asks hk16 he
    obtain ⟨hscratch, hmem⟩ := State.endSample_region State.sampleOut_asks (State.putPatches_region hdest State.sampleLine_wide)
    exact ⟨hfree, hjob, hcount, hunit, hscratch, hmem, hfail, htokens⟩
  case waitsOut =>
    intro s w q e j he hd hu hs hk ho hj hf hk16 hdest ha
    obtain rfl := State.entry_seq he
    have hout : s.sampleOut (recKey w e.seq) (inOf e.raw) j.profile = _ := if_pos hdest
    refine ⟨_, onUnit_runs he hd hu hs hk ho, ?_⟩
    rw [State.sampleComplete_rests w e hj (hout.trans (pair_of_snd ha)) (.inr rfl)]
    have hasks : Asks s (s.access (recKey w e.seq) (inOf e.raw).gated (inOf e.raw).outH
      (pagesOf (inOf e.raw).outOff (j.profile.bytes j.profile.tokens))).1 := State.access_asks
    exact ⟨hasks.mem, congrArg StoreState.zones hasks.store, hasks.cmd, congrArg StoreState.samples hasks.store,
      hasks.rd _ (decState_ne_waits (by omega)) (eventKey_decState (by omega))⟩
  case rests =>
    intro s w q e he hd hu hs hk ho h
    obtain rfl := State.entry_seq he
    have hasks := State.sampleComplete_rests_asks w e h
    exact ⟨_, onUnit_runs he hd hu hs hk ho, hasks.mem, congrArg StoreState.zones hasks.store, hasks.cmd, congrArg StoreState.samples hasks.store,
      hasks.rd _ (by decide) (by decide)⟩
  case tiles =>
    intro s w q e j he hd hu hs hk ho hj hf hk16 hdest hc
    obtain rfl := State.entry_seq he
    obtain ⟨status, hputs⟩ := State.sampleComplete_puts w e hj (pair_of_snd (State.sampleOut_ready fun h => absurd h hdest)) hf hc
    refine ⟨_, onUnit_runs he hd hu hs hk ho, ?_⟩
    rw [hputs]
    obtain ⟨hfree, hjob, hcount, hunit, hfail, htokens⟩ := State.put_fields State.sampleOut_asks hk16 he
    obtain ⟨hmem, hscratch⟩ := State.endSample_tiles State.sampleOut_asks (State.putPatches_tiles hdest State.sampleLine_wide)
    exact ⟨hfree, hjob, hcount, hunit, hmem, hscratch, hfail, htokens⟩
  case halts =>
    intro s w q e j he hd hu hs hk ho hj hf hk16 ha hc hp
    obtain rfl := State.entry_seq he
    refine ⟨_, onUnit_runs he hd hu hs hk ho, ?_⟩
    rw [State.sampleComplete_halts w e hj (pair_of_snd (State.sampleOut_ready ha)) hf hc hp]
    exact State.halted_fields State.sampleOut_asks hk16 he hc
  case stalls =>
    intro s k key j hj hms
    obtain ⟨hcount, hengine, hread, hsamples, htier⟩ := State.resetEngine_fields (s := s) (key := key)
      (n := (s.store.engines.get Engine.reset k).resets + 1) k.isLt
    obtain ⟨hengines, hresets, hbusy⟩ := State.restart_keeps (s.resetEngine k key ((s.store.engines.get Engine.reset k).resets + 1))
      (key / 2 ^ 32) (key % 2 ^ 32)
    refine ⟨_, exec_decoderStall, ?_⟩
    rw [State.decoderStall_resets hj hms]
    refine ⟨hresets.trans hcount, (congrArg (·.get Engine.reset k) hengines).trans hengine, fun h3 => ?_, _, hsamples, hread, htier, rfl⟩
    rw [if_pos h3] at hread
    exact (hbusy k k.isLt (by omega)).trans hread
  case unstalled =>
    intro s k h
    exact ⟨s, congrArg Host.Outcome.next (State.decoderStall_rests h), rfl⟩

end Sys2Proof.Machine
end

section
/-! SUPPORT. Rows of the flash array programmed and erased, and the pages they hold (R266, R270, R275). -/
namespace Sys2Proof.Machine

variable {s t u v : State} {w q : Nat} {e : QEntry}

/-! ### Blocks programmed, erased and exchanged -/

theorem State.programBlock_onBlocks {k : Nat} : OnBlocks s (s.programBlock k) := .ite (.refl s) State.setBlock_onBlocks

theorem State.eraseBlock_onBlocks {k : Nat} : OnBlocks s (s.eraseBlock k) := State.setBlock_onBlocks

theorem State.standAt_onBlocks {l k : Nat} : OnBlocks s (s.standAt l k) := ⟨⟨s.obj, s.store.blocks, _, rfl⟩, fun _ _ _ => rfl⟩

theorem State.swapBlocks_onBlocks {k c : Nat} : OnBlocks s (s.swapBlocks k c) := by
  unfold State.swapBlocks
  exact .ite (.refl s) (State.standAt_onBlocks.trans State.standAt_onBlocks)

theorem State.drawStripe_onBlocks {b : Nat} {pick : Bool} : OnBlocks s (s.drawStripe b pick) := by
  refine OnBlocks.foldl (fun v die => ?_) _ s
  dsimp only
  split
  · split
    · exact State.swapBlocks_onBlocks
    · exact .refl v
  · exact .refl v

theorem State.programRow_onBlocks {z r : Nat} : OnBlocks s (s.programRow z r) := .foldl (fun _ _ => State.programBlock_onBlocks) _ s

/-! ### Sets and tables that pages are put into -/

theorem mem_setIns_of_mem {l : List Nat} {j k : Nat} (h : k ∈ l) : k ∈ setIns l j := by
  induction l with
  | nil => simp at h
  | cons i r ih =>
    simp only [setIns]
    split
    · exact h
    · split
      · exact List.mem_cons_of_mem j h
      · exact (List.mem_cons.1 h).elim (fun h => h ▸ List.mem_cons_self) fun h => List.mem_cons_of_mem i (ih h)

/-- A set holds every number that was put into it. -/
theorem mem_foldl_setIns {ks l : List Nat} {k : Nat} (h : k ∈ l ∨ k ∈ ks) : k ∈ ks.foldl setIns l := by
  induction ks generalizing l with
  | nil => exact h.resolve_right List.not_mem_nil
  | cons j ks ih =>
    refine ih ?_
    rcases h with h | h
    · exact .inl (mem_setIns_of_mem h)
    · rcases List.mem_cons.1 h with rfl | h
      · exact .inl (mem_setIns_self l k)
      · exact .inr h

theorem Tab.find_insert_isSome {α : Type} {m : Tab α} {j k : Nat} {x : α} (h : (m.find k).isSome ∨ j = k) : ((m.insert j x).find k).isSome := by
  by_cases hjk : k = j
  · rw [hjk, Tab.find_insert_self]
    rfl
  · rw [Tab.find_insert_ne x hjk]
    exact h.resolve_right (Ne.symm hjk)

/-- A table has an entry of every key that was put into it. -/
theorem Tab.find_foldl_insert_isSome {α β : Type} {l : List (Nat × β)} {f : Nat × β → α} {m : Tab α} {k : Nat}
    (h : (m.find k).isSome ∨ k ∈ l.map Prod.fst) : ((l.foldl (fun m x => Tab.insert m x.1 (f x)) m).find k).isSome := by
  induction l generalizing m with
  | nil => exact h.resolve_right (by simp)
  | cons x l ih =>
    refine ih ?_
    rcases h with h | h
    · exact .inl (Tab.find_insert_isSome (.inl h))
    · rcases List.mem_cons.1 h with rfl | h
      · exact .inl (Tab.find_insert_isSome (.inr rfl))
      · exact .inr h

/-! ### A row of the general zones (R270) -/

/-- `t` is `s` but for blocks, their places, and the stripe block that rows of the general zones go to. -/
def OnStripe (s t : State) : Prop := ∃ v g r, OnBlocks s v ∧ t = { v with store := { v.store with genBlocks := g, genRow := r } }

theorem OnStripe.fields (h : OnStripe s t) : t.tier = s.tier ∧ t.store.zones = s.store.zones ∧ t.store.acked = s.store.acked ∧
    t.rd Obj.stProgBytes = s.rd Obj.stProgBytes := by
  obtain ⟨v, g, r, hv, rfl⟩ := h
  have hacked : v.store.acked = s.store.acked := by
    obtain ⟨b, m, e⟩ := hv.store
    rw [e]
  exact ⟨hv.tier, hv.zones, hacked, hv.rd _ (by decide) (by decide)⟩

theorem State.openStripe_onStripe {b : Nat} (hb : s.freeStripe = some b) : OnStripe s s.openStripe ∧ s.openStripe.store.genBlocks ≠ [] := by
  unfold State.openStripe
  rw [hb]
  exact ⟨⟨_, _, _, State.drawStripe_onBlocks, rfl⟩, by simp⟩

/-- The stripe block that the next row goes to is open. -/
def State.readyStripe (s : State) : State := if s.openRows = 0 then s.openStripe else s

/-- Where there is room for a row, there is a stripe block to program it in. -/
theorem State.readyStripe_onStripe (hr : s.rowRoom 1 = true) : OnStripe s s.readyStripe ∧ s.readyStripe.store.genBlocks ≠ [] := by
  unfold State.readyStripe
  split
  · next h0 =>
    have hfree : s.freeStripe.isSome = true := by simpa [State.rowRoom, h0] using hr
    obtain ⟨b, hb⟩ := Option.isSome_iff_exists.1 hfree
    exact State.openStripe_onStripe hb
  · next h0 =>
    refine ⟨⟨s, _, _, .refl s, rfl⟩, fun hnil => h0 ?_⟩
    simp [State.openRows, hnil]

/-- The next row of stripe block `sbk` is programmed with pages. -/
def State.programPages (s : State) (sbk : Nat) (keys : List Nat) : State :=
  let r := s.store.genRow
  let v := (List.range 32).foldl (fun s c => s.programBlock (s.physBlock (8 * c + r % 8) sbk)) s
  { v with store := { v.store with
      genRow := r + 1
      pageMap := keys.zipIdx.foldl (fun (m : Tab Nat) (x : Nat × Nat) => Tab.insert m x.1 (sbk * sbUnits + 31 * r + x.2)) v.store.pageMap } }

theorem State.programPages_fields {sbk : Nat} {keys : List Nat} :
    (s.programPages sbk keys).store.acked = s.store.acked ∧ (∀ k ∈ keys, ((s.programPages sbk keys).store.pageMap.find k).isSome) ∧
    (s.programPages sbk keys).rd Obj.stProgBytes = s.rd Obj.stProgBytes ∧
    (s.programPages sbk keys).store.zones = s.store.zones ∧ (s.programPages sbk keys).tier = s.tier := by
  unfold State.programPages
  extract_lets r v
  have hv : OnBlocks s v := .foldl (fun _ _ => State.programBlock_onBlocks) _ s
  have hacked : v.store.acked = s.store.acked := by
    obtain ⟨b, m, e⟩ := hv.store
    rw [e]
  clear_value v
  refine ⟨hacked, fun k hk => Tab.find_foldl_insert_isSome (.inr ?_), hv.rd _ (by decide) (by decide), hv.zones, hv.tier⟩
  rw [List.zipIdx_map_fst]
  exact hk

theorem State.writeRow_programs {keys : List Nat} {sbk : Nat} (h : s.readyStripe.store.genBlocks.getLast? = some sbk) :
    s.writeRow keys = (s.readyStripe.programPages sbk keys).count Obj.stProgBytes rowProgBytes := by
  unfold State.readyStripe at h ⊢
  simp only [State.writeRow, State.programPages, h]

/-- A row that is programmed is counted, and the page map places its pages. -/
theorem State.writeRow_fields {keys : List Nat} (hr : s.rowRoom 1 = true) :
    (s.writeRow keys).store.acked = s.store.acked ∧ (∀ k ∈ keys, ((s.writeRow keys).store.pageMap.find k).isSome) ∧
    (s.writeRow keys).rd Obj.stProgBytes = (s.rd Obj.stProgBytes + rowProgBytes) % 2 ^ 64 ∧
    (s.writeRow keys).store.zones = s.store.zones ∧ (s.writeRow keys).tier = s.tier := by
  obtain ⟨hon, hopen⟩ := State.readyStripe_onStripe hr
  obtain ⟨htier, hzones, hacked, hrd⟩ := hon.fields
  obtain ⟨sbk, hlast⟩ := Option.isSome_iff_exists.1 (List.getLast?_isSome.2 hopen)
  obtain ⟨hacked', hmap, hrd', hzones', htier'⟩ := State.programPages_fields (s := s.readyStripe) (sbk := sbk) (keys := keys)
  rw [State.writeRow_programs hlast, State.count_store, State.count_tier]
  refine ⟨hacked'.trans hacked, hmap, ?_, hzones'.trans hzones, htier'.trans htier⟩
  rw [State.rd_count_self, hrd', hrd]

/-! ### Wear (R277) -/

theorem State.wearNow_shape (s : State) : ∃ o st d x, s.wearNow = { s with obj := o, start := st, dict := d, out := x } := by
  unfold State.wearNow
  extract_lets _ _ z _ y
  obtain ⟨o, st, d, x, hy⟩ : ∃ o st d x, y = { s with obj := o, start := st, dict := d, out := x } := by
    simp only [y]
    split
    · obtain ⟨_, _, _, h₁⟩ := z.raiseOnce_shape Ev.wearHigh 0 []
      obtain ⟨_, _, _, _, h₂⟩ := (z.raiseOnce Ev.wearHigh 0 []).lifeWarn_shape 1
      rw [h₂, h₁]
      exact ⟨_, _, _, _, rfl⟩
    · exact ⟨_, _, _, _, rfl⟩
  split
  · obtain ⟨_, _, _, _, h⟩ := y.lifeExceed_shape 1
    rw [h, hy]
    exact ⟨_, _, _, _, rfl⟩
  · exact ⟨_, _, _, _, hy⟩

theorem State.rd_wearNow {k : Nat} (ha : k ≠ Obj.wearAvgPe) (hm : k ≠ Obj.wearMaxPe) (he : eventKey k = false) : s.wearNow.rd k = s.rd k :=
  (State.wearNow_within (g := ⟨[.start], (· ∈ [Obj.wearAvgPe, Obj.wearMaxPe])⟩) (by decide) (.refl _ s) (by decide) (by decide)).rd_eq
    (by simp [ha, hm]) he

end Sys2Proof.Machine
end

section
/-! SUPPORT. Appends to a zone, rows programmed, the reset of a zone, and the statement on them. -/
namespace Sys2Proof.Machine

variable {s t u v : State} {w q : Nat} {e : QEntry} {data : Bytes} {j : AppendJob} {src : Src}

/-! ### APPEND (R272) -/

/-- It is an append's turn, and its owner port delivers its data. -/
def State.TakesAppend (s : State) (w : Nat) (e : QEntry) (data : Bytes) : Prop :=
  s.store.appends.find (recKey w e.seq) = none ∧ (s.zoneAppends (inOf e.raw).zone).any (fun p => decide (p.2.order < e.order)) = false ∧
  ((s.win w).owner.map fun p => s.linkUp p) = some true ∧ data.length = 65536 * Rec.w e.raw 2 63 32

/-- What an append keeps until its rows are programmed: its zone, where it begins, and its data. -/
def State.appendJob (s : State) (e : QEntry) (data : Bytes) : AppendJob :=
  { zone := (inOf e.raw).zone, base := s.rd (Obj.szWp (inOf e.raw).zone), rows := (inOf e.raw).rows, done := 0, data := data }

/-- An append's job stands under its record's key. -/
def State.setAppend (s : State) (key : Nat) (j : AppendJob) : State :=
  { s with store := { s.store with appends := s.store.appends.insert key j } }

theorem State.rd_setAppend {key k : Nat} : (s.setAppend key j).rd k = s.rd k := rfl

theorem State.find_setAppend {key : Nat} : (s.setAppend key j).store.appends.find key = some j := Tab.find_insert_self _ _ _

theorem owner_linkUp_iff {o : Option HostPort} {f : HostPort → Bool} :
    (match o with
      | some p => f p
      | none => false) = true ↔ o.map f = some true := by
  cases o <;> simp

theorem State.append_takes (h : s.TakesAppend w e data) : s.append w e data =
    (s.setAppend (recKey w e.seq) (s.appendJob e data)).count Obj.stHostBytes data.length := by
  obtain ⟨hnone, hturn, hup, hlen⟩ := h
  unfold State.append
  extract_lets d key up
  have hup : up = true := owner_linkUp_iff.2 hup
  exact if_neg (by simp [hup, hlen, key, d, hnone, hturn])

theorem State.append_waits (h : ¬ s.TakesAppend w e data) : s.append w e data = s := by
  unfold State.append
  extract_lets d key up
  refine if_pos (Decidable.by_contra fun hno => h ?_)
  simp only [not_or, not_not] at hno
  obtain ⟨hsome, hturn, hup, hlen⟩ := hno
  exact ⟨Option.not_isSome_iff_eq_none.1 hsome, eq_false_of_ne_true hturn, owner_linkUp_iff.1 hup, hlen⟩

/-! ### STRIPE_ROW_PROGRAMMED (R270, R272) -/

section
variable {z : Fin 4} {pages : List (Nat × Nat)}

theorem State.rowProgrammed_idle (h : (s.store.appends.find? fun a => a.2.zone == z.val && decide (a.2.done < a.2.rows)) = none) :
    s.rowProgrammed (some z) pages = s := by
  simp only [State.rowProgrammed, h]

/-- A row of an append is one row done, on the blocks it stands on. -/
theorem State.rowProgrammed_append {key : Nat}
    (h : (s.store.appends.find? fun a => a.2.zone == z.val && decide (a.2.done < a.2.rows)) = some (key, j)) :
    s.rowProgrammed (some z) pages = ((s.setAppend key { j with done := j.done + 1 }).programRow z (j.base / rowBytes + j.done)).count
      Obj.stProgBytes rowProgBytes := by
  simp only [State.rowProgrammed, h, State.setAppend]

/-- Does a page of a region move to the store tier? -/
def State.movesDown (s : State) (x : Nat × Nat) : Bool := (s.region x.1).any fun r => (r.page x.2).move.any fun m => m.dst == .t2

/-- The keys of the pages of a list that move to the store tier. -/
def State.downKeys (s : State) (pages : List (Nat × Nat)) : List Nat := (pages.filter s.movesDown).map fun x => lentPage x.1 x.2

/-- The writes of pages are acknowledged. -/
def State.ackPages (s : State) (keys : List Nat) : State :=
  { s with store := { s.store with acked := keys.foldl setIns s.store.acked } }

theorem State.rowProgrammed_pages : s.rowProgrammed none pages =
    if 31 < pages.length ∨ (pages.filter s.movesDown).isEmpty ∨ ¬ s.rowRoom 1 then s
    else (s.ackPages (s.downKeys pages)).writeRow (s.downKeys pages) := by
  have hmoves : s.movesDown = fun x => match s.region x.1 with
      | some r => (match (r.page x.2).move with
        | some m => m.dst == .t2
        | none => false)
      | none => false := by
    funext x
    unfold State.movesDown
    cases s.region x.1 with
    | none => rfl
    | some r =>
      dsimp only [Option.any_some]
      cases (r.page x.2).move <;> rfl
  unfold State.downKeys
  rw [hmoves]
  rfl

/-- A row takes pages that move to the store tier, where it has room. -/
theorem State.rowProgrammed_takes {x : Nat × Nat} (hlen : ¬ 31 < pages.length) (hx : x ∈ pages) (hdown : s.movesDown x = true)
    (hroom : s.rowRoom 1 = true) : s.rowProgrammed none pages = (s.ackPages (s.downKeys pages)).writeRow (s.downKeys pages) := by
  have hmem : x ∈ pages.filter s.movesDown := List.mem_filter.2 ⟨hx, hdown⟩
  rw [State.rowProgrammed_pages]
  refine if_neg (not_or.2 ⟨hlen, not_or.2 ⟨fun h => ?_, fun h => h hroom⟩⟩)
  rw [List.isEmpty_iff.1 h] at hmem
  exact List.not_mem_nil hmem

theorem State.rowProgrammed_rests (h : 31 < pages.length ∨ s.rowRoom 1 = false ∨
    pages.any (fun x => (s.region x.1).any fun r => (r.page x.2).move.any fun m => m.dst == .t2) = false) :
    s.rowProgrammed none pages = s := by
  rw [State.rowProgrammed_pages]
  refine if_pos ?_
  rcases h with h | h | h
  · exact .inl h
  · exact .inr (.inr (by simp [h]))
  · refine .inr (.inl (List.isEmpty_iff.2 (List.filter_eq_nil_iff.2 fun x hx => ?_)))
    exact List.any_eq_false.1 h x hx

/-- What a row of an append leaves: the row counted, and the zone as it was. -/
theorem State.rowOfAppend_fields {key z r : Nat} (hz : z < 4) :
    let t := ((s.setAppend key j).programRow z r).count Obj.stProgBytes rowProgBytes
    t.store.appends.find key = some j ∧ t.rd Obj.stProgBytes = (s.rd Obj.stProgBytes + rowProgBytes) % 2 ^ 64 ∧
    t.store.zones = s.store.zones ∧ t.rd (Obj.szWp z) = s.rd (Obj.szWp z) ∧ t.tier = s.tier := by
  have hrow : OnBlocks (s.setAppend key j) ((s.setAppend key j).programRow z r) := State.programRow_onBlocks
  have happends : ((s.setAppend key j).programRow z r).store.appends = (s.setAppend key j).store.appends := by
    obtain ⟨b, m, e⟩ := hrow.store
    rw [e]
  have hprog : ((s.setAppend key j).programRow z r).rd Obj.stProgBytes = s.rd Obj.stProgBytes := hrow.rd _ (by decide) (by decide)
  have hwp : ((s.setAppend key j).programRow z r).rd (Obj.szWp z) = s.rd (Obj.szWp z) := by
    refine hrow.rd _ ?_ ?_
    all_goals
      simp only [Obj.szWp, Obj.stReadBytes, Obj.stRebuilds]
      omega
  dsimp only
  rw [State.count_store, State.count_tier, State.rd_count_self, hprog, happends]
  refine ⟨State.find_setAppend, rfl, hrow.zones, (State.rd_count_ne ?_).trans hwp, hrow.tier⟩
  simp only [Obj.szWp, Obj.stProgBytes]
  omega

end

/-! ### APPEND_DONE (R272) -/

/-- An append's data stands in its zone, with zeros to the end of its last row. -/
def State.landAppend (s : State) (key : Nat) (j : AppendJob) : State :=
  { s with store := { s.store with
      zones := memWrite (memClear s.store.zones (zoneAddr j.zone j.base) (j.rows * rowBytes)) (zoneAddr j.zone j.base) j.data
      appends := s.store.appends.erase key } }

/-- The write pointer of a zone advances; a zone it fills reads as full, unless it reads as failed. -/
def State.advanceZone (s : State) (z wp : Nat) : State :=
  let s := s.wr (Obj.szWp z) wp
  if s.zoneSize z ≤ wp ∧ s.rd (Obj.szState z) ≠ 3 then s.wr (Obj.szState z) 2 else s

theorem State.appendDone_ends (hj : s.store.appends.find (recKey w e.seq) = some j) (hd : j.rows ≤ j.done) :
    s.appendDone w e = ((s.landAppend (recKey w e.seq) j).advanceZone j.zone (j.base + j.rows * rowBytes)).unitDone w e.seq 0 0 := by
  simp only [State.appendDone, hj, if_neg (Nat.not_lt.2 hd)]
  rfl

theorem State.appendDone_waits (h : (s.store.appends.find (recKey w e.seq)).all (fun j => decide (j.done < j.rows)) = true) :
    s.appendDone w e = s := by
  unfold State.appendDone
  split
  · rfl
  · next j hj =>
    rw [hj] at h
    exact if_pos (by simpa using h)

section
variable {z wp : Nat}

theorem State.advanceZone_keeps : (s.advanceZone z wp).cmd = s.cmd ∧ (s.advanceZone z wp).tier = s.tier ∧ (s.advanceZone z wp).store = s.store ∧
    (s.advanceZone z wp).rd (Obj.szWp z) = wp := by
  unfold State.advanceZone
  extract_lets v
  have hwp : v.rd (Obj.szWp z) = wp := State.rd_wr_self s _ wp
  split
  · exact ⟨rfl, rfl, rfl, (State.rd_wr_ne (by simp)).trans hwp⟩
  · exact ⟨rfl, rfl, rfl, hwp⟩

theorem State.advanceZone_fills (hfull : s.zoneSize z ≤ wp) (hst : s.rd (Obj.szState z) ≠ 3) : (s.advanceZone z wp).rd (Obj.szState z) = 2 := by
  unfold State.advanceZone
  extract_lets v
  have hblocks : v.rd (Obj.szStripeBlocks z) = s.rd (Obj.szStripeBlocks z) := State.rd_wr_ne (by simp)
  have hstate : v.rd (Obj.szState z) = s.rd (Obj.szState z) := State.rd_wr_ne (by simp)
  rw [State.zoneSize, ← hblocks] at hfull
  rw [← hstate] at hst
  rw [if_pos ⟨hfull, hst⟩, State.rd_wr_self]

end

/-- Data written over cleared bytes reads as the data, then as zeros to the end of what was cleared. -/
theorem memWrite_memClear {m : Tab Byte} {a n : Nat} (hn : data.length ≤ n) :
    memRead (memWrite (memClear m a n) a data) a data.length = data ∧
    (∀ i, data.length ≤ i → i < n → (memWrite (memClear m a n) a data).get 0 (a + i) = 0) ∧
    ∀ k, k < a ∨ a + n ≤ k → (memWrite (memClear m a n) a data).get 0 k = m.get 0 k := by
  refine ⟨memRead_memWrite _ a data, fun i hi hin => ?_, fun k hk => ?_⟩
  · rw [memWrite_get_outside data (.inr (Nat.add_le_add_left hi a)), memClear_get_inside ⟨Nat.le_add_right a i, Nat.add_lt_add_left hin a⟩]
  · rw [memWrite_get_outside data (by omega), memClear_get_outside hk]

theorem State.landAppend_fields {key : Nat} : (s.landAppend key j).cmd = s.cmd ∧ (s.landAppend key j).tier = s.tier ∧
    (∀ k, (s.landAppend key j).rd k = s.rd k) ∧ (s.landAppend key j).store.appends = s.store.appends.erase key ∧
    (s.landAppend key j).store.zones =
      memWrite (memClear s.store.zones (zoneAddr j.zone j.base) (j.rows * rowBytes)) (zoneAddr j.zone j.base) j.data :=
  ⟨rfl, rfl, fun _ => rfl, rfl, rfl⟩

/-- What an append that is done leaves. -/
theorem State.ended_append {key : Nat} (he : s.entry w q = some e) (hlen : j.data.length ≤ j.rows * rowBytes) :
    let t := ((s.landAppend key j).advanceZone j.zone (j.base + j.rows * rowBytes)).unitDone w q 0 0
    t.rd (Obj.szWp j.zone) = j.base + j.rows * rowBytes ∧ memRead t.store.zones (zoneAddr j.zone j.base) j.data.length = j.data ∧
    (∀ i, j.data.length ≤ i → i < j.rows * rowBytes → t.store.zones.get 0 (zoneAddr j.zone j.base + i) = 0) ∧
    (∀ a, a < zoneAddr j.zone j.base ∨ zoneAddr j.zone j.base + j.rows * rowBytes ≤ a → t.store.zones.get 0 a = s.store.zones.get 0 a) ∧
    (s.zoneSize j.zone ≤ j.base + j.rows * rowBytes → s.rd (Obj.szState j.zone) ≠ 3 → t.rd (Obj.szState j.zone) = 2) ∧
    t.store.appends = s.store.appends.erase key ∧ (t.entry w q).map QEntry.unit = some true ∧ t.tier = s.tier := by
  intro t
  obtain ⟨hcmd, htier, hrd, happends, hzones⟩ := State.landAppend_fields (s := s) (key := key) (j := j)
  have hfills := State.advanceZone_fills (s := s.landAppend key j) (z := j.zone) (wp := j.base + j.rows * rowBytes)
  have hsize : (s.landAppend key j).zoneSize j.zone = s.zoneSize j.zone := by rw [State.zoneSize, hrd, State.zoneSize]
  rw [hsize, hrd] at hfills
  obtain ⟨hcmd', htier', hstore', hwp⟩ := State.advanceZone_keeps (s := s.landAppend key j) (z := j.zone) (wp := j.base + j.rows * rowBytes)
  obtain ⟨hdata, hzeros, hothers⟩ := memWrite_memClear (m := s.store.zones) (a := zoneAddr j.zone j.base) hlen
  have htzones := (congrArg StoreState.zones hstore').trans hzones
  have htappends := (congrArg StoreState.appends hstore').trans happends
  have hunit := State.entry_unitDone (status := 0) (reason := 0)
    (((State.entry_congr hcmd' w q).trans (State.entry_congr hcmd w q)).trans he)
  rw [← State.unitDone_store _ w q 0 0] at htzones htappends
  rw [← htzones] at hdata hzeros hothers
  have hrd' := State.rd_congr (State.unitDone_obj ((s.landAppend key j).advanceZone j.zone (j.base + j.rows * rowBytes)) w q 0 0)
  exact ⟨(hrd' _).trans hwp, hdata, hzeros, hothers, fun hfull hst => (hrd' _).trans (hfills hfull hst), htappends, hunit,
    (State.unitDone_tier _ w q 0 0).trans (htier'.trans htier)⟩

/-! ### SZ_RESET (R274) -/

theorem objRow_szReset : ∀ z : Fin 4, objRow (Obj.szReset z / 256) (Obj.szReset z % 256) =
    some ⟨0x6810, 0x6813, 0x04, 0x04, .action, .wa, .const 0, .span 1 1⟩ := by decide

theorem exec_szReset {z : Fin 4} {arg : Nat} : exec (.szReset src z arg) s =
    .next (s.act src (Obj.szReset z) arg false (if s.zoneBusy z then 0x09 else 0) fun s => s.eraseZone z) := rfl

/-- Clearing the first `n` bytes of a zone makes zeros of them and no others. -/
theorem zoneCleared_get {m : Tab Byte} {z n : Nat} : (∀ i, i < n → (memClear m (zoneAddr z 0) n).get 0 (zoneAddr z i) = 0) ∧
    ∀ a, a < zoneAddr z 0 ∨ zoneAddr z n ≤ a → (memClear m (zoneAddr z 0) n).get 0 a = m.get 0 a := by
  have hend : ∀ i, zoneAddr z 0 + i = zoneAddr z i := fun i => by rw [zoneAddr, zoneAddr, Nat.add_zero]
  refine ⟨fun i hi => ?_, fun a ha => memClear_get_outside (by rwa [hend])⟩
  rw [← hend i]
  exact memClear_get_inside ⟨Nat.le_add_right _ i, Nat.add_lt_add_left hi _⟩

/-- The blocks of a zone that hold something are erased, and their wear is told. -/
def State.eraseBlocks (s : State) (z : Nat) : State :=
  (((s.store.zoneBlocks.get [] z).flatMap fun b => (List.range 256).map fun die => s.physBlock die b).foldl
    (fun s k => if (s.block k).programmed.isSome then s.eraseBlock k else s) s).wearNow

theorem State.eraseBlocks_keeps {z : Nat} (hz : z < 4) : (s.eraseBlocks z).store.zones = s.store.zones ∧ (s.eraseBlocks z).tier = s.tier ∧
    (s.eraseBlocks z).tile = s.tile ∧ (s.eraseBlocks z).rd (Obj.szStripeBlocks z) = s.rd (Obj.szStripeBlocks z) := by
  unfold State.eraseBlocks
  generalize ((s.store.zoneBlocks.get [] z).flatMap fun b => (List.range 256).map fun die => s.physBlock die b) = ks
  have hv := OnBlocks.foldl (f := fun s k => if (s.block k).programmed.isSome then s.eraseBlock k else s)
    (fun v k => .ite State.eraseBlock_onBlocks (.refl v)) ks s
  generalize ks.foldl (fun s k => if (s.block k).programmed.isSome then s.eraseBlock k else s) s = v at hv
  obtain ⟨_, _, _, _, hwear⟩ := v.wearNow_shape
  have hrd : v.wearNow.rd (Obj.szStripeBlocks z) = s.rd (Obj.szStripeBlocks z) := by
    rw [State.rd_wearNow, hv.rd]
    all_goals
      simp only [eventKey, Obj.szStripeBlocks, Obj.stReadBytes, Obj.stRebuilds, Obj.wearAvgPe, Obj.wearMaxPe, Obj.dictFramesTx,
        Bool.or_eq_false_iff, decide_eq_false_iff_not]
      omega
  refine ⟨?_, ?_, ?_, hrd⟩
  · rw [hwear, hv.zones]
  · rw [hwear, hv.tier]
  · rw [hwear, hv.tile]

/-- The bytes of a zone read as zeros, and none of its units is lost. -/
def State.clearZone (s : State) (z : Nat) : State :=
  { s with store := { s.store with
      zones := memClear s.store.zones (zoneAddr z 0) (2 ^ 46)
      badUnits := s.store.badUnits.filter fun u => decide (u / 2 ^ 30 ≠ z) } }

theorem State.eraseZone_eq {z : Nat} : s.eraseZone z = (((s.eraseBlocks z).clearZone z).wr (Obj.szWp z) 0).wr (Obj.szState z)
    (if (((s.eraseBlocks z).clearZone z).rd (Obj.szStripeBlocks z)) = 0 then 0 else 1) := rfl

/-- A zone that is erased holds zeros, is not written, and leaves every other zone's bytes. -/
theorem State.eraseZone_fields {z : Nat} (hz : z < 4) : (s.eraseZone z).rd (Obj.szWp z) = 0 ∧
    (s.eraseZone z).rd (Obj.szState z) = (if s.rd (Obj.szStripeBlocks z) = 0 then 0 else 1) ∧
    (s.eraseZone z).store.zones = memClear s.store.zones (zoneAddr z 0) (2 ^ 46) ∧
    (s.eraseZone z).tier = s.tier ∧ (s.eraseZone z).tile = s.tile := by
  obtain ⟨hzones, htier, htile, hblocks⟩ := State.eraseBlocks_keeps (s := s) hz
  rw [State.eraseZone_eq]
  have hclear : ((s.eraseBlocks z).clearZone z).rd (Obj.szStripeBlocks z) = s.rd (Obj.szStripeBlocks z) := hblocks
  rw [hclear]
  refine ⟨(State.rd_wr_ne (by simp)).trans (State.rd_wr_self _ _ _), State.rd_wr_self _ _ _, ?_, htier, htile⟩
  rw [← hzones]
  rfl

/-- The checks of a zone's reset, in their order (R411). -/
theorem State.writeStatus_szReset {z : Fin 4} {arg cond : Nat} : s.writeStatus src (Obj.szReset z) arg false cond =
    if s.fldDenied src (Obj.szReset z) = true then 0x0B else if arg ≠ 1 then 0x05 else cond := by
  have hok : ObjRng.ok (.span 1 1) arg = true ↔ arg = 1 := by
    simp only [ObjRng.ok, decide_eq_true_eq]
    omega
  rw [State.writeStatus, objRow_szReset]
  simp [hok]

/-- A write that a check refuses is counted and answered. -/
theorem State.act_rejected {key n cond : Nat} {deny : Bool} {f : State → State} (h : s.writeStatus src key n deny cond ≠ 0) :
    s.act src key n deny cond f = (s.count Obj.dictRejected 1).emit (.status src key (s.writeStatus src key n deny cond)) := by
  simp only [State.act, if_neg h]

/-! ### The obligation on appends and zones -/

/-- Settles O43: an append takes its turn, its rows and its end one after another, and a reset clears a zone that nothing uses. -/
theorem appendsAndZones : Obligations.AppendsAndZones := by
  unfold Obligations.AppendsAndZones
  refine ⟨?takes, ?waitsTurn, ?row, ?noRow, ?pages, ?noPages, ?done, ?unfinished, ?reset, ?refused, fun s w q data h => ⟨s, onUnit_idle h, rfl⟩,
    fun s w q h => ⟨s, onUnit_idle h, rfl⟩⟩
  case takes =>
    intro s w q data e he hd hu hs hk ho hnone hturn hup hlen
    obtain rfl := State.entry_seq he
    refine ⟨_, onUnit_runs he hd hu hs hk ho, ?_⟩
    rw [State.append_takes ⟨hnone, hturn, hup, hlen⟩]
    rw [State.rd_count_self, State.rd_setAppend]
    exact ⟨State.find_setAppend, rfl, rfl, rfl, rfl⟩
  case waitsTurn =>
    intro s w q data e he hd hu hs hk ho h
    obtain rfl := State.entry_seq he
    exact ⟨_, onUnit_runs he hd hu hs hk ho, State.append_waits h⟩
  case row =>
    intro s z pages key j hj
    refine ⟨_, rfl, ?_⟩
    rw [State.rowProgrammed_append hj]
    exact State.rowOfAppend_fields z.isLt
  case noRow =>
    intro s z pages h
    exact ⟨_, rfl, State.rowProgrammed_idle h⟩
  case pages =>
    intro s pages h p r m hlen hmem hr hm hdst hroom
    have hdown : s.movesDown (h, p) = true := by simp [State.movesDown, hr, hm, hdst]
    have hkey : lentPage h p ∈ s.downKeys pages := List.mem_map.2 ⟨(h, p), List.mem_filter.2 ⟨hmem, hdown⟩, rfl⟩
    refine ⟨_, rfl, ?_⟩
    rw [State.rowProgrammed_takes (Nat.not_lt.2 hlen) hmem hdown hroom]
    obtain ⟨hacked, hmap, hrest⟩ := State.writeRow_fields (s := s.ackPages (s.downKeys pages)) (keys := s.downKeys pages) hroom
    exact ⟨hacked ▸ List.contains_iff_mem.2 (mem_foldl_setIns (.inr hkey)), hmap _ hkey, hrest⟩
  case noPages =>
    intro s pages h
    exact ⟨_, rfl, State.rowProgrammed_rests h⟩
  case done =>
    intro s w q e j he hd hu hs hk ho hj hdone hlen
    obtain rfl := State.entry_seq he
    refine ⟨_, onUnit_runs he hd hu hs hk ho, ?_⟩
    rw [State.appendDone_ends hj hdone]
    exact State.ended_append he hlen
  case unfinished =>
    intro s w q e he hd hu hs hk ho h
    obtain rfl := State.entry_seq he
    exact ⟨_, onUnit_runs he hd hu hs hk ho, State.appendDone_waits h⟩
  case reset =>
    intro s src z arg harg hfld hbusy
    obtain ⟨hwp, hstate, hzones, htier, htile⟩ := State.eraseZone_fields (s := s) z.isLt
    refine ⟨_, exec_szReset, ?_⟩
    rw [State.act_applied (objRow_szReset z) rfl (by simp [ObjRng.ok, harg]) rfl hfld (by simp [hbusy]), State.emit_store]
    generalize s.eraseZone z = t at *
    rw [hzones]
    obtain ⟨hinside, houtside⟩ := zoneCleared_get (m := s.store.zones) (z := z) (n := 2 ^ 46)
    exact ⟨rfl, hwp, hstate, hinside, houtside, htier, htile⟩
  case refused =>
    intro s src z arg h
    have hst : s.writeStatus src (Obj.szReset z) arg false (if s.zoneBusy z then 0x09 else 0) =
        if s.fldDenied src (Obj.szReset z) = true then 0x0B else if arg ≠ 1 then 0x05 else 0x09 := by
      rw [State.writeStatus_szReset]
      split
      · rfl
      · next hfld =>
        split
        · rfl
        · next harg => rw [if_pos ((h.resolve_left hfld).resolve_left harg)]
    have hne : s.writeStatus src (Obj.szReset z) arg false (if s.zoneBusy z then 0x09 else 0) ≠ 0 := by
      rw [hst]
      split
      · decide
      · split <;> decide
    refine ⟨_, exec_szReset, ?_⟩
    rw [State.act_rejected hne, hst]
    exact ⟨rfl, (State.rd_congr (State.emit_obj _ _) _).trans (State.rd_count_self _ _ _), rfl, rfl, rfl⟩

end Sys2Proof.Machine
end

section
/-! SUPPORT. The frame of the commands on the optical links, the group and its collectives. -/
namespace Sys2Proof.Machine

/-- Settles O48: each clause is the law of its command, whose conditions are that the parts and objects it names are listed. -/
theorem frameOfGroupCommands : Obligations.FrameOfGroupCommands := by
  unfold Obligations.FrameOfGroupCommands
  refine ⟨?fabricParity, ?pageMoveDone, ?updatePassStart, ?layerCommit, ?updateWatchdog, ?digestVerdict, ?modePrepare, ?modeCancel,
    ?collectiveOpen, ?collectiveReduce, ?collectiveGather, ?agree, ?scalar, ?sumPageEvict, ?msgCapability, ?msgView, ?msgSurvivors,
    ?msgAbort, ?msgExponent, ?msgAgreed, ?msgData, ?msgResult, ?msgResend, ?msgGather, ?msgScalar, ?msgScalarResult, ?msgDigest,
    ?msgTwinDigest, ?msgStatePart, ?msgStateDone, ?capabilitySend, ?joinWait, ?memberFailDetect, ?memberTimeout, ?chunkWait,
    ?resultRequest, ?viewLeaderDecide, ?viewMinorityTimeout, ?twinWait, ?portTrainingStart, ?fecLock, ?fecLockTimeout, ?helloRx,
    ?dataFlitRx, ?linkWordAck, ?creditFlitRx, ?paceModeFlitRx, ?lldpFlitRx, ?powerFlitRx, ?replayTimer, ?ackTimer, ?creditSend,
    ?paceModeSend, ?lldpSend, ?lldpMissing, ?laneLoss, ?retrain, ?retrainDone, ?retrainTimeout, ?lp1Idle, ?lp1Exit, ?portSleepWrite,
    ?cwReset, ?stepAbort, ?helloExchangeTimeout⟩
  all_goals
    intros
    refine Leads.completes ?_ (exec_next _ _)
  -- faults, passes, digests and mode records
  case' fabricParity => apply execFabricParity_within
  case' pageMoveDone => apply execPageMoveDone_within
  case' updatePassStart => apply execUpdatePassStart_within
  case' layerCommit => apply execLayerCommit_within
  case' updateWatchdog => apply execUpdateWatchdog_within
  case' digestVerdict => apply execDigestVerdict_within
  case' modePrepare => apply execModePrepare_within
  case' modeCancel => apply execModeCancel_within
  -- collective records
  case' collectiveOpen => apply execCollectiveOpen_within
  case' collectiveReduce => apply execCollectiveReduce_within
  case' collectiveGather => apply execCollectiveGather_within
  case' agree => apply execAgree_within
  case' scalar => apply execScalar_within
  case' sumPageEvict => apply execSumPageEvict_within
  -- messages
  case' msgCapability => apply execMsgCapability_within
  case' msgView => apply execMsgView_within
  case' msgSurvivors => apply execMsgSurvivors_within
  case' msgAbort => apply execMsgAbort_within
  case' msgExponent => apply execMsgExponent_within
  case' msgAgreed => apply execMsgAgreed_within
  case' msgData => apply execMsgData_within
  case' msgResult => apply execMsgResult_within
  case' msgResend => apply execMsgResend_within
  case' msgGather => apply execMsgGather_within
  case' msgScalar => apply execMsgScalar_within
  case' msgScalarResult => apply execMsgScalarResult_within
  case' msgDigest => apply execMsgDigest_within
  case' msgTwinDigest => apply execMsgTwinDigest_within
  case' msgStatePart => apply execMsgStatePart_within
  case' msgStateDone => apply execMsgStateDone_within
  -- members, their timers and views
  case' capabilitySend => apply execCapabilitySend_within
  case' joinWait => apply execJoinWait_within
  case' memberFailDetect => apply execMemberFailDetect_within
  case' memberTimeout => apply execMemberTimeout_within
  case' chunkWait => apply execChunkWait_within
  case' resultRequest => apply execResultRequest_within
  case' viewLeaderDecide => apply execViewLeaderDecide_within
  case' viewMinorityTimeout => apply execViewMinorityTimeout_within
  case' twinWait => apply execTwinWait_within
  -- ports that train
  case' portTrainingStart => apply execPortTrainingStart_within
  case' fecLock => apply execFecLock_within
  case' fecLockTimeout => apply execFecLockTimeout_within
  -- flits that ports take
  case' helloRx => apply execHelloRx_within
  case' dataFlitRx => apply execDataFlitRx_within
  case' linkWordAck => apply execLinkWordAck_within
  case' creditFlitRx => apply execCreditFlitRx_within
  case' paceModeFlitRx => apply execPaceModeFlitRx_within
  case' lldpFlitRx => apply execLldpFlitRx_within
  case' powerFlitRx => apply execPowerFlitRx_within
  -- timers of ports
  case' replayTimer => apply execReplayTimer_within
  case' ackTimer => apply execAckTimer_within
  case' creditSend => apply execCreditSend_within
  case' paceModeSend => apply execPaceModeSend_within
  case' lldpSend => apply execLldpSend_within
  case' lldpMissing => apply execLldpMissing_within
  -- ports that leave service and sleep
  case' laneLoss => apply execLaneLoss_within
  case' retrain => apply execRetrain_within
  case' retrainDone => apply execRetrainDone_within
  case' retrainTimeout => apply execRetrainTimeout_within
  case' lp1Idle => apply execLp1Idle_within
  case' lp1Exit => apply execLp1Exit_within
  case' portSleepWrite => apply execPortSleepWrite_within
  -- windows and steps that are aborted, and a hello that fails
  case' cwReset => apply execCwReset_within
  case' stepAbort => apply execStepAbort_within
  case' helloExchangeTimeout => apply execHelloExchangeTimeout_within
  all_goals simp only [List.mem_cons, true_or, or_true, exists_apply_eq_apply', implies_true, Within.refl]

end Sys2Proof.Machine
end

section
/-! SUPPORT. Ports of the optical links: what a port reads as after it is stored, what a flit sent leaves of it, and what traffic and the settling of
identities leave of the ports and the objects. -/
namespace Sys2Proof.Machine

variable {s t : State} {p q j k n : Nat} {x y : Port}

/-! ### Ports as they are stored -/

@[simp] theorem State.port_setPort_self (s : State) (p : Nat) (x : Port) : (s.setPort p x).port p = x := Tab.get_set_self Port.reset _ p x

theorem State.port_setPort_ne (h : q ≠ p) : (s.setPort p x).port q = s.port q := Tab.get_set_ne Port.reset x h

@[simp] theorem State.port_updPort_self (s : State) (p : Nat) (f : Port → Port) : (s.updPort p f).port p = f (s.port p) := s.port_setPort_self p _

theorem State.port_updPort_ne {f : Port → Port} (h : q ≠ p) : (s.updPort p f).port q = s.port q := State.port_setPort_ne h

theorem State.port_congr (h : t.link = s.link) (p : Nat) : t.port p = s.port p := by rw [State.port, State.port, h]

section
variable (s p k n x)

@[simp] theorem State.rd_setPort : (s.setPort p x).rd k = s.rd k := rfl
@[simp] theorem State.setPort_now : (s.setPort p x).now = s.now := rfl
@[simp] theorem State.setPort_out : (s.setPort p x).out = s.out := rfl
@[simp] theorem State.rd_updPort (f : Port → Port) : (s.updPort p f).rd k = s.rd k := rfl
@[simp] theorem State.updPort_now (f : Port → Port) : (s.updPort p f).now = s.now := rfl
@[simp] theorem State.updPort_out (f : Port → Port) : (s.updPort p f).out = s.out := rfl
@[simp] theorem State.port_wr (v : Nat) : (s.wr k v).port p = s.port p := rfl
@[simp] theorem State.port_count : (s.count k n).port p = s.port p := rfl
@[simp] theorem State.port_pass (c : Crossing) (v : Nat) : (s.pass c v).port p = s.port p := rfl
@[simp] theorem State.rd_pass (c : Crossing) (v : Nat) : (s.pass c v).rd k = s.rd k := rfl
end

/-- Two objects of one port have different keys where their keys for port 0 differ. -/
theorem portKey_ne {a b : Nat} (h : a ≠ b) : a + 256 * p ≠ b + 256 * p := by omega

theorem State.portIs_congr {st : Nat} (h : t.rd (Obj.portState p) = s.rd (Obj.portState p)) : t.portIs p st = s.portIs p st := by
  rw [State.portIs, State.portIs, h]

/-- A port is in one state. -/
theorem State.portIs_other {a b : Nat} (h : s.portIs p a = true) (hab : a ≠ b) : s.portIs p b = false := by
  simp only [State.portIs, beq_iff_eq] at h
  simpa [State.portIs, h] using hab

/-! ### One flit sent (R309) -/

/-- The link word of a flit that a port sends. -/
def Port.linkWord (x : Port) (ftype fseq vc : Nat) (nak : Bool) : LinkWord :=
  { ftype := ftype, fseq := fseq, ackSeq := (x.rxSeq + 4095) % 4096, ackV := nak || decide (0 < x.owed) || x.owedDup, nak := nak, vc := vc }

section
variable (s p k) (a b c : Nat) (d : Bytes) (e : Bool)

/-- A flit passes the crossing of its port, and is put out. -/
theorem State.sendFlit_shape : ∃ x y, s.sendFlit p a b c d e = { s with
    cross := x, link := y, out := .flit p (flitBytes ((s.port p).linkWord a b c e) d) :: s.out } := by
  unfold State.sendFlit
  extract_lets x l
  exact ⟨_, _, rfl⟩

@[simp] theorem State.rd_sendFlit : (s.sendFlit p a b c d e).rd k = s.rd k := by obtain ⟨_, _, h⟩ := s.sendFlit_shape p a b c d e; rw [h]; rfl
@[simp] theorem State.sendFlit_now : (s.sendFlit p a b c d e).now = s.now := by obtain ⟨_, _, h⟩ := s.sendFlit_shape p a b c d e; rw [h]

@[simp] theorem State.sendFlit_out : (s.sendFlit p a b c d e).out = .flit p (flitBytes ((s.port p).linkWord a b c e) d) :: s.out := by
  obtain ⟨_, _, h⟩ := s.sendFlit_shape p a b c d e
  rw [h]

/-- A flit carries the acknowledgement that is owed. -/
@[simp] theorem State.port_sendFlit_self :
    (s.sendFlit p a b c d e).port p = { s.port p with owed := 0, owedFrom := none, owedDup := false } := State.port_updPort_self ..

end

theorem State.port_sendFlit_ne {a b c : Nat} {d : Bytes} {e : Bool} (h : q ≠ p) : (s.sendFlit p a b c d e).port q = s.port q :=
  State.port_updPort_ne h

/-! ### What traffic leaves of a port -/

/-- A port without what flits sent and received in turn change of it: its plan, its identity, what it has received and its credits stand. -/
def Port.lasting (x : Port) : Port :=
  { x with
    since := 0, txSeq := 0, queue := [], buffer := [], timerFrom := none, stuck := 0, nakOut := false, owed := 0, owedFrom := none,
    owedDup := false, sent0 := 0, sent1 := 0, badCodes := [], protocol := false, dataAt := 0 }

/-- A field that lasts is equal where all that lasts is. -/
theorem Port.of_lasting {α : Type} (g : Port → α) (h : x.lasting = y.lasting) (hg : ∀ z : Port, g z.lasting = g z := by exact fun _ => rfl) :
    g x = g y := by rw [← hg x, h, hg]

/-- `t` is `s` after traffic of the links: its time, the entries of other members, what lasts of every port and the object `j` are as they were. -/
structure Passes (j : Nat) (s t : State) : Prop where
  now : t.now = s.now
  pace : t.link.pace = s.link.pace
  ports : ∀ q, (t.port q).lasting = (s.port q).lasting
  obj : t.rd j = s.rd j

namespace Passes

theorem refl (j : Nat) (s : State) : Passes j s s := ⟨rfl, rfl, fun _ => rfl, rfl⟩

theorem ite {c : Prop} [Decidable c] {a b : State} (ha : Passes j s a) (hb : Passes j s b) : Passes j s (if c then a else b) := by
  split <;> assumption

theorem foldl {α : Type} {f : State → α → State} {l : List α} (hf : ∀ a ∈ l, ∀ v, Passes j s v → Passes j s (f v a)) (h : Passes j s t) :
    Passes j s (l.foldl f t) := by
  induction l generalizing t with
  | nil => exact h
  | cons a l ih => exact ih (fun b hb => hf b (List.mem_cons_of_mem a hb)) (hf a List.mem_cons_self t h)

/-- A change beside the links. -/
theorem beside {u : State} (h : Passes j s t) (hn : u.now = t.now) (hp : u.link.pace = t.link.pace) (hl : u.link.ports = t.link.ports)
    (ho : u.rd j = t.rd j) : Passes j s u :=
  ⟨hn.trans h.now, hp.trans h.pace, fun q => by rw [← h.ports q, State.port, State.port, hl], ho.trans h.obj⟩

theorem wr {v : Nat} (h : Passes j s t) (hk : j ≠ k) : Passes j s (t.wr k v) := h.beside rfl rfl rfl (State.rd_wr_ne hk)

theorem count (h : Passes j s t) (hk : j ≠ k) : Passes j s (t.count k n) := h.wr hk

theorem raise {code : Nat} {ps : List Bytes} (h : Passes j s t) (hj : eventKey j = false) (hc : 256 ≤ code ∧ code < 4096 := by decide) :
    Passes j s (t.raise code ps) :=
  h.beside (State.raise_now ..) (by rw [State.raise_link]) (by rw [State.raise_link]) (State.rd_raise hj hc)

/-- A port stored that lasts as it was. -/
theorem setPort (h : Passes j s t) (hx : x.lasting = (s.port p).lasting) : Passes j s (t.setPort p x) := by
  refine ⟨h.now, h.pace, fun q => ?_, h.obj⟩
  by_cases hq : q = p
  · subst hq
    rw [State.port_setPort_self, hx]
  · rw [State.port_setPort_ne hq, h.ports]

theorem updPort {f : Port → Port} (h : Passes j s t) (hf : ∀ x : Port, (f x).lasting = x.lasting := by exact fun _ => rfl) :
    Passes j s (t.updPort p f) :=
  h.setPort ((hf _).trans (h.ports p))

theorem sendFlit {a b c : Nat} {d : Bytes} {e : Bool} (h : Passes j s t) : Passes j s (t.sendFlit p a b c d e) := by
  unfold State.sendFlit
  extract_lets x l
  exact updPort (h.beside rfl rfl rfl rfl)

theorem portIs {st : Nat} (h : Passes (Obj.portState p) s t) : t.portIs p st = s.portIs p st := State.portIs_congr h.obj

end Passes

/-! ### Waiting flits go out (R308) -/

/-- A port after flits have gone out on it: those sent before and not acknowledged are still held, in front. -/
structure Port.Pumped (x y : Port) : Prop where
  lasting : y.lasting = x.lasting
  stuck : y.stuck = x.stuck
  buffer : x.buffer <+: y.buffer

/-- One flit goes out, or none. -/
theorem State.pumpOne_cases (s : State) (p : Nat) :
    s.pumpOne p = s ∨ ∃ x a b c d, (s.port p).Pumped x ∧ s.pumpOne p = ((s.setPort p x).count (Obj.flitsTx p) 1).sendFlit p a b c d false := by
  unfold State.pumpOne
  extract_lets x
  split
  · exact .inl rfl
  · split
    · exact .inl rfl
    · refine .inr ⟨_, _, _, _, _, ?_, rfl⟩
      exact ⟨rfl, rfl, List.prefix_append _ _⟩

theorem State.pumpOne_passes (h : Passes j s t) (hj : j ≠ Obj.flitsTx p) : Passes j s (t.pumpOne p) := by
  obtain e | ⟨x, a, b, c, d, hx, e⟩ := t.pumpOne_cases p
  · rwa [e]
  · rw [e]
    exact ((h.setPort (hx.lasting.trans (h.ports p))).count hj).sendFlit

theorem State.pump_passes (h : Passes j s t) (hj : j ≠ Obj.flitsTx p) : Passes j s (t.pump p) :=
  Passes.foldl (fun _ _ _ hv => State.pumpOne_passes hv hj) h

theorem Port.Pumped.trans {z : Port} (h : x.Pumped y) (h' : y.Pumped z) : x.Pumped z :=
  ⟨h'.lasting.trans h.lasting, h'.stuck.trans h.stuck, h.buffer.trans h'.buffer⟩

theorem State.port_pumpOne (s : State) (p : Nat) : (s.port p).Pumped ((s.pumpOne p).port p) := by
  obtain e | ⟨x, a, b, c, d, hx, e⟩ := s.pumpOne_cases p
  · rw [e]
    exact ⟨rfl, rfl, List.prefix_refl _⟩
  · rw [e, State.port_sendFlit_self, State.port_count, State.port_setPort_self]
    exact ⟨hx.lasting, hx.stuck, hx.buffer⟩

theorem State.port_pump (s : State) (p : Nat) : (s.port p).Pumped ((s.pump p).port p) := by
  unfold State.pump
  generalize (s.port p).queue = l
  induction l generalizing s with
  | nil => exact ⟨rfl, rfl, List.prefix_refl _⟩
  | cons f l ih => exact (s.port_pumpOne p).trans (ih (s.pumpOne p))

/-! ### Flits sent again (R308) -/

/-- A flit of the replay buffer goes out again. -/
def State.sendAgainFlit (p : Nat) (s : State) (f : TxFlit) : State :=
  (s.count (Obj.flitsTx p) 1).sendFlit p (if f.head then 1 else 2) f.fseq f.vc f.content false

theorem State.replay_idle (h : (s.port p).buffer = [] ∨ s.portIs p psUp = false) : s.replay p = s := by
  unfold State.replay
  extract_lets x
  exact if_pos (by simpa [x] using h)

theorem State.replay_sends (hb : (s.port p).buffer ≠ []) (hu : s.portIs p psUp = true) :
    s.replay p = (s.port p).buffer.foldl (State.sendAgainFlit p) (((s.wr (Obj.portPowerState p) 0).count (Obj.flitsReplays p) 1).setPort p
      { s.port p with timerFrom := some s.now, stuck := (s.port p).stuck + 1, dataAt := s.now }) := by
  unfold State.replay
  extract_lets x s1 s2
  exact if_neg (by simp [x, hb, hu])

theorem State.replay_passes (h : Passes j s t) (htx : j ≠ Obj.flitsTx p) (hre : j ≠ Obj.flitsReplays p) (hpw : j ≠ Obj.portPowerState p) :
    Passes j s (t.replay p) := by
  unfold State.replay
  extract_lets x s1 s2
  refine h.ite ?_
  exact Passes.foldl (fun _ _ _ hv => (hv.count htx).sendFlit) (((h.wr hpw).count hre).setPort (h.ports p))

/-- What sending flits again does to the port that they go out on. -/
theorem State.sendAgainFlits_fields (l : List TxFlit) (s : State) :
    (∃ a b c, (l.foldl (State.sendAgainFlit p) s).port p = { s.port p with owed := a, owedFrom := b, owedDup := c }) ∧
    (∀ j, j ≠ Obj.flitsTx p → (l.foldl (State.sendAgainFlit p) s).rd j = s.rd j) ∧
    (l.foldl (State.sendAgainFlit p) s).out.length = s.out.length + l.length := by
  induction l generalizing s with
  | nil => exact ⟨⟨_, _, _, rfl⟩, fun _ _ => rfl, rfl⟩
  | cons f l ih =>
    obtain ⟨⟨a, b, c, hp⟩, ho, hl⟩ := ih (s.sendAgainFlit p f)
    refine ⟨⟨a, b, c, ?_⟩, fun j hj => (ho j hj).trans ((State.rd_sendFlit ..).trans (State.rd_count_ne hj)), ?_⟩
    · rw [List.foldl_cons, hp, State.sendAgainFlit, State.port_sendFlit_self, State.port_count]
    · rw [List.foldl_cons, hl, State.sendAgainFlit, State.sendFlit_out, List.length_cons, List.length_cons]
      show s.out.length + 1 + l.length = _
      omega

/-- What is replayed: the timer starts again, and the port returns to LP0 (R308, R324). -/
theorem State.replay_fields (hb : (s.port p).buffer ≠ []) (hu : s.portIs p psUp = true) :
    (∃ a b c, (s.replay p).port p = { s.port p with
      timerFrom := some s.now, stuck := (s.port p).stuck + 1, dataAt := s.now, owed := a, owedFrom := b, owedDup := c }) ∧
    (s.replay p).rd (Obj.flitsReplays p) = (s.rd (Obj.flitsReplays p) + 1) % 2 ^ 64 ∧ (s.replay p).rd (Obj.portPowerState p) = 0 ∧
    (s.replay p).out.length = s.out.length + (s.port p).buffer.length := by
  rw [State.replay_sends hb hu]
  obtain ⟨hport, hobj, hout⟩ := State.sendAgainFlits_fields (p := p) (s.port p).buffer
    (((s.wr (Obj.portPowerState p) 0).count (Obj.flitsReplays p) 1).setPort p
      { s.port p with timerFrom := some s.now, stuck := (s.port p).stuck + 1, dataAt := s.now })
  rw [State.port_setPort_self] at hport
  refine ⟨hport, ?_, ?_, hout⟩
  · rw [hobj _ (portKey_ne (by decide)), State.rd_setPort, State.rd_count_self, State.rd_wr_ne (portKey_ne (by decide))]
  · rw [hobj _ (portKey_ne (by decide)), State.rd_setPort, State.rd_count_ne (portKey_ne (by decide)), State.rd_wr_self]

end Sys2Proof.Machine
end

section
/-! SUPPORT. Flits received on a port: acknowledgements, codewords and parity, data flits and credits, and the statement on their commands. -/
namespace Sys2Proof.Machine

variable {s t : State} {p j k : Nat} {f : Bytes} {cor unc : Nat} {l : LinkWord} {g : LinkWord → State → State}

/-! ### Acknowledgements and naks (R308, R309, R311) -/

/-- How many flits of the replay buffer an acknowledgement of sequence `a` covers; more than there are where it has not been sent. -/
def Port.covers (x : Port) (a : Nat) : Nat := (a + 1 + 4096 - (x.txSeq + 4096 - x.buffer.length % 4096) % 4096) % 4096

/-- The port with the first `n` flits of its replay buffer freed. -/
def State.freeFlits (s : State) (p n : Nat) : State :=
  if 0 < n then
    s.setPort p { s.port p with
      buffer := (s.port p).buffer.drop n, stuck := 0, timerFrom := if n = (s.port p).buffer.length then none else some s.now }
  else s

theorem State.takeAck_none (h : l.ackV = false) : s.takeAck p l = s := by simp [State.takeAck, h]

theorem State.takeAck_unsent (hv : l.ackV = true) (h : (s.port p).buffer.length < (s.port p).covers l.ackSeq)
    (hn : (s.port p).covers l.ackSeq < 2048) : s.takeAck p l = s.updPort p fun x => { x with protocol := true } := by
  unfold State.takeAck
  rw [if_neg (not_not.2 hv)]
  exact if_pos ⟨h, hn⟩

theorem State.takeAck_covers (hv : l.ackV = true) (h : (s.port p).covers l.ackSeq ≤ (s.port p).buffer.length) :
    s.takeAck p l = (if l.nak = true then (s.freeFlits p ((s.port p).covers l.ackSeq)).replay p
      else s.freeFlits p ((s.port p).covers l.ackSeq)).pump p := by
  unfold State.takeAck
  rw [if_neg (not_not.2 hv)]
  extract_lets x base n s1 s2
  have hn : n = (s.port p).covers l.ackSeq := rfl
  have hle : n ≤ x.buffer.length := h
  rw [if_neg fun hc => absurd hc.1 (Nat.not_lt.2 hle)]
  have h1 : s1 = s.freeFlits p n := by simp [s1, State.freeFlits, x, show n ≤ (s.port p).buffer.length from h]
  have h2 : s2 = if l.nak = true then s1.replay p else s1 := by simp [s2, x, show n ≤ (s.port p).buffer.length from h]
  rw [h2, h1, hn]

theorem State.takeAck_passes (h : Passes j s t) (htx : j ≠ Obj.flitsTx p) (hre : j ≠ Obj.flitsReplays p) (hpw : j ≠ Obj.portPowerState p) :
    Passes j s (t.takeAck p l) := by
  unfold State.takeAck
  extract_lets x base n s1 s2
  have h1 : Passes j s s1 := Passes.ite (h.setPort (h.ports p)) h
  have h2 : Passes j s s2 := Passes.ite (State.replay_passes h1 htx hre hpw) h1
  exact h.ite (Passes.ite h.updPort (State.pump_passes h2 htx))

/-- What remains of the replay buffer, and the count of replays without progress. -/
theorem State.port_freeFlits (s : State) (p n : Nat) : ((s.freeFlits p n).port p).lasting = (s.port p).lasting ∧
    ((s.freeFlits p n).port p).buffer = (s.port p).buffer.drop n ∧ ((s.freeFlits p n).port p).stuck = if 0 < n then 0 else (s.port p).stuck := by
  unfold State.freeFlits
  split
  · rw [State.port_setPort_self]
    exact ⟨rfl, rfl, rfl⟩
  · next h =>
    obtain rfl : n = 0 := by omega
    exact ⟨rfl, rfl, rfl⟩

theorem State.rd_freeFlits (s : State) (p n k : Nat) : (s.freeFlits p n).rd k = s.rd k := by
  unfold State.freeFlits
  split <;> rfl

/-- An acknowledgement without a nak frees what it covers and no other flit. -/
theorem State.takeAck_frees (hv : l.ackV = true) (hk : l.nak = false) (h : (s.port p).covers l.ackSeq ≤ (s.port p).buffer.length)
    (h0 : 0 < (s.port p).covers l.ackSeq) :
    (∃ m, ((s.takeAck p l).port p).buffer = (s.port p).buffer.drop ((s.port p).covers l.ackSeq) ++ m) ∧ ((s.takeAck p l).port p).stuck = 0 ∧
    ((s.takeAck p l).port p).lasting = (s.port p).lasting := by
  rw [State.takeAck_covers hv h, if_neg (by simp [hk])]
  generalize (s.port p).covers l.ackSeq = n at *
  obtain ⟨hlast, hbuf, hstuck⟩ := s.port_freeFlits p n
  obtain ⟨hl, hs, m, hm⟩ := (s.freeFlits p n).port_pump p
  exact ⟨⟨m, by rw [← hm, hbuf]⟩, by rw [hs, hstuck, if_pos h0], hl.trans hlast⟩

/-- A nak frees what it covers as well, and what remains goes out again. -/
theorem State.takeAck_replays (hv : l.ackV = true) (hk : l.nak = true) (h : (s.port p).covers l.ackSeq ≤ (s.port p).buffer.length)
    (hb : (s.port p).buffer.drop ((s.port p).covers l.ackSeq) ≠ []) (hu : s.portIs p psUp = true) :
    (∃ m, ((s.takeAck p l).port p).buffer = (s.port p).buffer.drop ((s.port p).covers l.ackSeq) ++ m) ∧
    ((s.takeAck p l).port p).stuck = (if 0 < (s.port p).covers l.ackSeq then 1 else (s.port p).stuck + 1) ∧
    (s.takeAck p l).rd (Obj.flitsReplays p) = (s.rd (Obj.flitsReplays p) + 1) % 2 ^ 64 ∧ (s.takeAck p l).rd (Obj.portPowerState p) = 0 := by
  rw [State.takeAck_covers hv h, if_pos hk]
  generalize (s.port p).covers l.ackSeq = n at *
  obtain ⟨-, hbuf, hstuck⟩ := s.port_freeFlits p n
  have hfu : (s.freeFlits p n).portIs p psUp = true := (State.portIs_congr (s.rd_freeFlits p n _)).trans hu
  obtain ⟨⟨a, b, c, hport⟩, hre, hpw, -⟩ := State.replay_fields (s := s.freeFlits p n) (by rwa [hbuf]) hfu
  obtain ⟨-, hs, m, hm⟩ := ((s.freeFlits p n).replay p).port_pump p
  rw [hport] at hs hm
  refine ⟨⟨m, by rw [← hm, ← hbuf]⟩, ?_, ?_, ?_⟩
  · rw [hs]
    show ((s.freeFlits p n).port p).stuck + 1 = _
    rw [hstuck]
    split <;> rfl
  · rw [(State.pump_passes (.refl _ _) (portKey_ne (by decide))).obj, hre, s.rd_freeFlits]
  · rw [(State.pump_passes (.refl _ _) (portKey_ne (by decide))).obj, hpw]

/-! ### A flit taken on a port (R303) -/

/-- The state in which the codewords of a flit received on a port are counted. -/
def State.coded (s : State) (p : Nat) (f : Bytes) (cor unc : Nat) : State :=
  (((s.pass (.linkRx p) (unle f)).count (Obj.fecCorrected p) cor).count (Obj.fecUncorrectable p) unc).updPort p fun x => { x with
    badCodes := (x.badCodes.filter fun t => decide (s.now - t < ms)) ++ List.replicate unc s.now }

theorem State.acked_eq : s.acked p f cor unc = (s.coded p f cor unc).takeAck p (linkWord f) := rfl

theorem State.port_coded : (s.coded p f cor unc).port p = { s.port p with
    badCodes := ((s.port p).badCodes.filter fun t => decide (s.now - t < ms)) ++ List.replicate unc s.now } := State.port_updPort_self ..

theorem State.rd_coded (hc : j ≠ Obj.fecCorrected p) (hu : j ≠ Obj.fecUncorrectable p) : (s.coded p f cor unc).rd j = s.rd j :=
  (State.rd_count_ne hu).trans (State.rd_count_ne hc)

theorem State.coded_passes (hc : j ≠ Obj.fecCorrected p) (hu : j ≠ Obj.fecUncorrectable p) : Passes j s (s.coded p f cor unc) :=
  Passes.updPort (((((Passes.refl j s).beside rfl rfl rfl rfl : Passes j s (s.pass (.linkRx p) (unle f))).count hc).count hu))

/-- The objects that a flit received on a port may count in, whatever its type. -/
structure OffFlits (p j : Nat) : Prop where
  corrected : j ≠ Obj.fecCorrected p
  uncorrectable : j ≠ Obj.fecUncorrectable p
  tx : j ≠ Obj.flitsTx p
  replays : j ≠ Obj.flitsReplays p
  power : j ≠ Obj.portPowerState p

theorem State.acked_passes (h : OffFlits p j) : Passes j s (s.acked p f cor unc) :=
  State.takeAck_passes (State.coded_passes h.corrected h.uncorrectable) h.tx h.replays h.power

/-- Any other object of the port. -/
theorem offFlits_port {a : Nat} (h : a ∉ [0xa06004, 0xa06005, 0xa06001, 0xa06006, 0x500002]) : OffFlits p (a + 256 * p) := by
  simp only [List.mem_cons, List.not_mem_nil, or_false, not_or] at h
  obtain ⟨h1, h2, h3, h4, h5⟩ := h
  exact ⟨portKey_ne h1, portKey_ne h2, portKey_ne h3, portKey_ne h4, portKey_ne h5⟩

theorem State.acked_portIs (s : State) (p : Nat) (f : Bytes) (cor unc st : Nat) : (s.acked p f cor unc).portIs p st = s.portIs p st :=
  (State.acked_passes (offFlits_port (by decide))).portIs

/-- What lasts of the port is as it was. -/
theorem State.port_acked (s : State) (p : Nat) (f : Bytes) (cor unc : Nat) : ((s.acked p f cor unc).port p).lasting = (s.port p).lasting :=
  (State.acked_passes (offFlits_port (a := 0x500001) (by decide))).ports p

theorem State.takeFlit_off (h : s.portIs p psDown = true ∨ s.portIs p psFailed = true) : s.takeFlit p f cor unc g = s := if_pos h

theorem State.takeFlit_intact (hd : s.portIs p psDown = false) (hf : s.portIs p psFailed = false) (hi : flitIntact f unc = true) :
    s.takeFlit p f cor unc g = g (linkWord f) (s.acked p f cor unc) := by
  unfold State.takeFlit
  rw [if_neg (by simp [hd, hf])]
  exact if_neg (not_not.2 hi)

theorem State.takeFlit_broken (hd : s.portIs p psDown = false) (hf : s.portIs p psFailed = false) (hi : flitIntact f unc = false) :
    s.takeFlit p f cor unc g = ((s.coded p f cor unc).count (Obj.parityErrors p) 1).sendNak p := by
  unfold State.takeFlit
  rw [if_neg (by simp [hd, hf])]
  exact if_pos (by simp [hi])

/-- A port in another state is neither down nor failed. -/
theorem State.portIs_active {st : Nat} (h : s.portIs p st = true) (hd : st ≠ psDown := by decide) (hf : st ≠ psFailed := by decide) :
    s.portIs p psDown = false ∧ s.portIs p psFailed = false := ⟨State.portIs_other h hd, State.portIs_other h hf⟩

/-! ### Naks (R309) -/

/-- Does the port carry acknowledgements (Table 11.11)? -/
def State.carriesAcks (s : State) (p : Nat) : Prop := s.portIs p psUp = true ∨ s.portIs p psHeld = true ∨ s.portIs p psRetrain = true

theorem State.sendNak_fields (s : State) (p : Nat) :
    (∃ n a b c, (s.sendNak p).port p = { s.port p with nakOut := n, owed := a, owedFrom := b, owedDup := c }) ∧
    (∀ j, j ≠ Obj.naksSent p → (s.sendNak p).rd j = s.rd j) ∧ (s.carriesAcks p → ((s.sendNak p).port p).nakOut = true) := by
  unfold State.sendNak
  split
  · next h => exact ⟨⟨_, _, _, _, rfl⟩, fun _ _ => rfl, fun hc => h.resolve_right (not_not.2 hc)⟩
  · rw [State.port_sendFlit_self, State.port_count, State.port_updPort_self]
    exact ⟨⟨_, _, _, _, rfl⟩, fun j hj => (State.rd_sendFlit ..).trans (State.rd_count_ne hj), fun _ => rfl⟩

theorem State.sendNak_passes (h : Passes j s t) (hn : j ≠ Obj.naksSent p) : Passes j s (t.sendNak p) := by
  unfold State.sendNak
  exact h.ite ((Passes.updPort h).count hn).sendFlit

theorem State.takeFlit_broken_passes (hd : s.portIs p psDown = false) (hf : s.portIs p psFailed = false) (hi : flitIntact f unc = false)
    (hc : j ≠ Obj.fecCorrected p) (hu : j ≠ Obj.fecUncorrectable p) (he : j ≠ Obj.parityErrors p) (hn : j ≠ Obj.naksSent p) :
    Passes j s (s.takeFlit p f cor unc g) := by
  rw [State.takeFlit_broken hd hf hi]
  exact State.sendNak_passes ((State.coded_passes hc hu).count he) hn

/-- A flit that is not intact changes no sequence and no buffer: it is counted and asked for again. -/
theorem State.takeFlit_broken_fields (hd : s.portIs p psDown = false) (hf : s.portIs p psFailed = false)
    (hi : flitIntact f unc = false) :
    (s.takeFlit p f cor unc g).rd (Obj.parityErrors p) = (s.rd (Obj.parityErrors p) + 1) % 2 ^ 64 ∧
    ((s.takeFlit p f cor unc g).port p).rxSeq = (s.port p).rxSeq ∧ ((s.takeFlit p f cor unc g).port p).buffer = (s.port p).buffer ∧
    ((s.takeFlit p f cor unc g).port p).queue = (s.port p).queue ∧
    (s.takeFlit p f cor unc g).rd (Obj.fecUncorrectable p) = (s.rd (Obj.fecUncorrectable p) + unc) % 2 ^ 64 ∧
    (s.takeFlit p f cor unc g).rd (Obj.portState p) = s.rd (Obj.portState p) ∧
    (s.carriesAcks p → ((s.takeFlit p f cor unc g).port p).nakOut = true) := by
  rw [State.takeFlit_broken hd hf hi]
  obtain ⟨⟨n, a, b, c, hport⟩, hobj, hnak⟩ := ((s.coded p f cor unc).count (Obj.parityErrors p) 1).sendNak_fields p
  have hst : ((s.coded p f cor unc).count (Obj.parityErrors p) 1).rd (Obj.portState p) = s.rd (Obj.portState p) :=
    (State.rd_count_ne (portKey_ne (by decide))).trans (State.rd_coded (portKey_ne (by decide)) (portKey_ne (by decide)))
  rw [hport, State.port_count, State.port_coded]
  refine ⟨?_, rfl, rfl, rfl, ?_, (hobj _ (portKey_ne (by decide))).trans hst, fun hc => ?_⟩
  · rw [hobj _ (portKey_ne (by decide)), State.rd_count_self, State.rd_coded (portKey_ne (by decide)) (portKey_ne (by decide))]
  · rw [hobj _ (portKey_ne (by decide)), State.rd_count_ne (portKey_ne (by decide))]
    exact (State.rd_count_self _ _ _).trans (by rw [State.rd_count_ne (portKey_ne (by decide)), State.rd_pass])
  · rw [hport] at hnak
    exact hnak (by simpa only [State.carriesAcks, State.portIs_congr hst] using hc)

end Sys2Proof.Machine
end

section
/-! SUPPORT. Data flits, credits and the timers of a port, and the statement on the flits that ports exchange. -/
namespace Sys2Proof.Machine

variable {s : State} {p : Fin 16} {f : Bytes} {cor unc : Nat} {l : LinkWord}

/-! ### Data flits (R309, R311) -/

theorem State.dataFlit_accepts {p : Nat} (hu : s.portIs p psUp = true) (ht : l.ftype = 1 ∨ l.ftype = 2) (hq : l.fseq = (s.port p).rxSeq) :
    s.dataFlit p f l = s.acceptFlit p l f := by
  unfold State.dataFlit
  extract_lets x
  rw [if_neg (by simp [hu, ht]), if_pos hq]

theorem State.dataFlit_duplicate {p : Nat} (hu : s.portIs p psUp = true) (ht : l.ftype = 1 ∨ l.ftype = 2) (hq : l.fseq ≠ (s.port p).rxSeq)
    (hd : ((s.port p).rxSeq + 4096 - l.fseq) % 4096 ≤ 2048) : s.dataFlit p f l = s.updPort p fun x => { x with owedDup := true } := by
  unfold State.dataFlit
  extract_lets x
  rw [if_neg (by simp [hu, ht]), if_neg hq, if_pos hd]

theorem State.dataFlit_gap {p : Nat} (hu : s.portIs p psUp = true) (ht : l.ftype = 1 ∨ l.ftype = 2) (hq : l.fseq ≠ (s.port p).rxSeq)
    (hd : 2048 < ((s.port p).rxSeq + 4096 - l.fseq) % 4096) : s.dataFlit p f l = s.sendNak p := by
  unfold State.dataFlit
  extract_lets x
  rw [if_neg (by simp [hu, ht]), if_neg hq, if_neg (Nat.not_le.2 hd)]

theorem State.dataFlit_other {p : Nat} (h : s.portIs p psUp = false ∨ (l.ftype ≠ 1 ∧ l.ftype ≠ 2)) : s.dataFlit p f l = s := by
  unfold State.dataFlit
  exact if_pos (by simpa using h)

/-- The expected flit is owed an acknowledgement and a credit. -/
theorem State.acceptFlit_fields (s : State) (p : Fin 16) (l : LinkWord) (f : Bytes) :
    ((s.acceptFlit p l f).port p).rxSeq = ((s.port p).rxSeq + 1) % 4096 ∧ ((s.acceptFlit p l f).port p).freed = (s.port p).freed + 1 ∧
    ((s.acceptFlit p l f).port p).nakOut = false ∧ (s.acceptFlit p l f).rd (Obj.flitsRx p) = (s.rd (Obj.flitsRx p) + 1) % 2 ^ 64 := by
  unfold State.acceptFlit
  extract_lets route plan wrong s1 s2
  have hport : s2.port p = s1.port p := by
    simp only [s2]
    split <;> rfl
  have hobj : s2.rd (Obj.flitsRx p) = (s.rd (Obj.flitsRx p) + 1) % 2 ^ 64 := by
    simp only [s2]
    split
    · exact (State.rd_count_ne (portKey_ne (by decide))).trans (State.rd_count_self _ _ _)
    · exact State.rd_count_self _ _ _
  have h1 : s1.port p = _ := State.port_updPort_self ..
  split
  · rw [State.port_sendFlit_self, hport, h1]
    exact ⟨rfl, rfl, rfl, (State.rd_sendFlit ..).trans hobj⟩
  · rw [hport, h1]
    exact ⟨rfl, rfl, rfl, hobj⟩

/-! ### Timers (R308 to R310) -/

theorem State.replayTimer_runs {a : Nat} (hu : s.portIs p psUp = true) (hf : (s.port p).timerFrom = some a)
    (hd : max (s.rd Obj.replayTimerUs * us) (2 * s.rd (Obj.rttNs p) / 10) ≤ s.now - a) : s.replayTimer p = s.replay p := by
  simp only [State.replayTimer, hf]
  exact if_pos ⟨hu, hd⟩

theorem State.replayTimer_waits (h : (s.port p).timerFrom = none ∨ s.portIs p psUp = false ∨ (s.port p).buffer = [] ∨
    s.now - (s.port p).timerFrom.getD 0 < max (s.rd Obj.replayTimerUs * us) (2 * s.rd (Obj.rttNs p) / 10)) : s.replayTimer p = s := by
  unfold State.replayTimer
  split
  · rfl
  · next a ha =>
    split
    · next hc =>
      refine State.replay_idle ?_
      rw [ha, Option.getD_some] at h
      obtain h | h | h | h := h
      · exact absurd h (by simp)
      · exact .inr h
      · exact .inl h
      · omega
    · rfl

theorem State.ackTimer_sends {a : Nat} (hc : s.carriesAcks p) (hf : (s.port p).owedFrom = some a) (hd : 10 ≤ s.now - a) :
    s.ackTimer p = s.sendFlit p 7 0 0 [] false := by
  simp only [State.ackTimer, hf]
  exact if_pos ⟨hc, hd⟩

theorem State.ackTimer_waits (h : (s.port p).owedFrom = none ∨ ¬ s.carriesAcks p ∨ s.now - (s.port p).owedFrom.getD 0 < 10) :
    s.ackTimer p = s := by
  unfold State.ackTimer
  split
  · rfl
  · next a ha =>
    rw [ha, Option.getD_some] at h
    refine if_neg fun hc => ?_
    obtain h | h | h := h
    · exact absurd h (by simp)
    · exact h hc.1
    · omega

/-! ### Credits (R307) -/

/-- Does the port take and send credit flits (Table 11.11)? -/
def State.carriesCredit (s : State) (p : Nat) : Prop := s.portIs p psUp = true ∨ s.portIs p psHeld = true

theorem State.creditFlit_other {p : Nat} (h : ¬ s.carriesCredit p ∨ l.ftype ≠ 3) : s.creditFlit p f l = s := if_pos h

/-- Each channel's count goes on where it is acceptable, and is discarded where not. -/
theorem State.creditFlit_fields {p : Fin 16} (hc : s.carriesCredit p) (ht : l.ftype = 3) :
    ((s.creditFlit p f l).port p).credit0 = (if creditOk (s.port p).credit0 (flitWord f 0 >>> 32) (s.port p).sent0 = true then
      extend32 (s.port p).credit0 (flitWord f 0 >>> 32) else (s.port p).credit0) ∧
    ((s.creditFlit p f l).port p).credit1 = (if creditOk (s.port p).credit1 (flitWord f 0 % 2 ^ 32) (s.port p).sent1 = true then
      extend32 (s.port p).credit1 (flitWord f 0 % 2 ^ 32) else (s.port p).credit1) ∧
    (s.creditFlit p f l).rd (Obj.ctrlDiscards p) = (s.rd (Obj.ctrlDiscards p) +
      ((if creditOk (s.port p).credit0 (flitWord f 0 >>> 32) (s.port p).sent0 = true then 0 else 1) +
       (if creditOk (s.port p).credit1 (flitWord f 0 % 2 ^ 32) (s.port p).sent1 = true then 0 else 1))) % 2 ^ 64 := by
  unfold State.creditFlit
  rw [if_neg (show ¬ (¬ (s.portIs p psUp = true ∨ s.portIs p psHeld = true) ∨ l.ftype ≠ 3) from not_or.2 ⟨not_not.2 hc, not_not.2 ht⟩)]
  extract_lets x w ok0 ok1 bad s1
  have hlast := ((s1.count (Obj.ctrlDiscards p) bad).port_pump p).lasting
  rw [State.port_count, State.port_setPort_self] at hlast
  refine ⟨Port.of_lasting Port.credit0 hlast, Port.of_lasting Port.credit1 hlast, ?_⟩
  exact (State.pump_passes (.refl _ _) (portKey_ne (by decide))).obj.trans (State.rd_count_self _ _ _)

/-- Is a credit flit due: 64 flits freed, or 1 µs since the last? -/
theorem State.creditSend_sends (hc : s.carriesCredit p)
    (hd : 64 ≤ (s.port p).freed ∨ (s.port p).creditAt = none ∨ us ≤ s.now - (s.port p).creditAt.getD 0) :
    s.creditSend p = (s.setPort p { s.port p with freed := 0, creditAt := some s.now }).sendFlit p 3 0 0
      (p64 ((512 + (s.port p).rcv0) % 2 ^ 32 * 2 ^ 32 + (512 + (s.port p).rcv1) % 2 ^ 32)) false := by
  unfold State.creditSend
  extract_lets x due
  refine if_pos ⟨hc, ?_⟩
  simp only [due, x]
  cases hat : (s.port p).creditAt <;> simp_all

theorem State.creditSend_waits (h : ¬ s.carriesCredit p ∨
    ((s.port p).freed < 64 ∧ (s.port p).creditAt ≠ none ∧ s.now - (s.port p).creditAt.getD 0 < us)) : s.creditSend p = s := by
  unfold State.creditSend
  extract_lets x due
  refine if_neg fun hc => ?_
  obtain h | ⟨hfree, hne, hat⟩ := h
  · exact h hc.1
  · obtain ⟨a, ha⟩ := Option.ne_none_iff_exists'.1 hne
    have hdue := hc.2
    simp only [due, x, ha, Option.getD_some] at hdue hat
    simp only [Bool.or_eq_true, decide_eq_true_eq] at hdue
    omega

/-! ### The commands -/

theorem exec_dataFlitRx : exec (.dataFlitRx p f cor unc) s = .next (s.takeFlit p f cor unc fun l s => s.dataFlit p f l) := rfl
theorem exec_linkWordAck : exec (.linkWordAck p f cor unc) s = .next (s.takeFlit p f cor unc fun _ s => s) := rfl
theorem exec_creditFlitRx : exec (.creditFlitRx p f cor unc) s = .next (s.takeFlit p f cor unc fun l s => s.creditFlit p f l) := rfl

theorem exec_replayTimer : exec (.replayTimer p) s = .next (s.replayTimer p) := rfl
theorem exec_ackTimer : exec (.ackTimer p) s = .next (s.ackTimer p) := rfl
theorem exec_creditSend : exec (.creditSend p) s = .next (s.creditSend p) := rfl

/-- An up port that takes a data flit meets it in the state where its link word is applied. -/
theorem State.takeFlit_data (hu : s.portIs p psUp = true) (hi : flitIntact f unc = true) :
    s.takeFlit p f cor unc (fun l s => s.dataFlit p f l) = (s.acked p f cor unc).dataFlit p f (linkWord f) ∧
    (s.acked p f cor unc).portIs p psUp = true ∧ ((s.acked p f cor unc).port p).rxSeq = (s.port p).rxSeq ∧
    ((s.acked p f cor unc).port p).freed = (s.port p).freed := by
  obtain ⟨hd, hf⟩ := State.portIs_active hu
  have hlast := s.port_acked p f cor unc
  exact ⟨State.takeFlit_intact hd hf hi, (State.acked_portIs ..).trans hu, Port.of_lasting Port.rxSeq hlast, Port.of_lasting Port.freed hlast⟩

/-! ### The statement -/

/-- Settles O23, clause by clause: what a flit's type does in the state where its link word is applied, what an acknowledgement frees, and what
the timers send. -/
theorem portsExchangeFlits : Obligations.PortsExchangeFlits := by
  unfold Obligations.PortsExchangeFlits
  refine ⟨?expected, ?duplicate, ?gap, ?noData, ?dataOff, ?dataBroken, ?acks, ?nak, ?unsent, ?noAck, ?ackOff, ?ackBroken, ?replays, ?noReplay,
    ?ackDue, ?noAckDue, ?credit, ?noCredit, ?creditOff, ?creditBroken, ?creditDue, ?noCreditDue⟩
  case expected =>
    intro s p f cor unc hu hi ht hq
    obtain ⟨e, hua, hrx, hfree⟩ := State.takeFlit_data (cor := cor) hu hi
    refine ⟨_, exec_dataFlitRx, ?_⟩
    rw [e, State.dataFlit_accepts hua ht (hq.trans hrx.symm)]
    obtain ⟨h1, h2, h3, h4⟩ := (s.acked p f cor unc).acceptFlit_fields p (linkWord f) f
    have hoff : OffFlits p (Obj.flitsRx p) := offFlits_port (by decide)
    exact ⟨hrx ▸ h1, hfree ▸ h2, h3, h4.trans (by rw [(State.acked_passes hoff).obj])⟩
  case duplicate =>
    intro s p f cor unc hu hi ht hq hd
    obtain ⟨e, hua, hrx, -⟩ := State.takeFlit_data (cor := cor) hu hi
    refine ⟨_, exec_dataFlitRx, ?_⟩
    rw [e, State.dataFlit_duplicate hua ht (hrx ▸ hq) (hrx ▸ hd), State.port_updPort_self]
    exact ⟨rfl, hrx, rfl⟩
  case gap =>
    intro s p f cor unc hu hi ht hq hd
    obtain ⟨e, hua, hrx, -⟩ := State.takeFlit_data (cor := cor) hu hi
    obtain ⟨⟨n, a, b, c, hport⟩, -, hnak⟩ := (s.acked p f cor unc).sendNak_fields p
    refine ⟨_, exec_dataFlitRx, ?_⟩
    rw [e, State.dataFlit_gap hua ht (hrx ▸ hq) (hrx ▸ hd)]
    exact ⟨rfl, (congrArg Port.rxSeq hport).trans hrx, hnak (.inl hua)⟩
  case noData =>
    intro s p f cor unc hd hf hi h
    refine ⟨_, exec_dataFlitRx, ?_⟩
    rw [State.takeFlit_intact hd hf hi]
    exact State.dataFlit_other (h.imp_left (State.acked_portIs ..).trans)
  case dataOff => exact fun s p f cor unc h => ⟨_, exec_dataFlitRx, State.takeFlit_off h⟩
  case dataBroken => exact fun s p f cor unc hd hf hi => ⟨_, exec_dataFlitRx, State.takeFlit_broken_fields hd hf hi⟩
  case acks =>
    intro s p f cor unc hd hf hi hv hk h0 h
    obtain ⟨hbuf, hstuck, hlast⟩ := State.takeAck_frees (s := s.coded p f cor unc) (p := p) hv hk
      (by rw [State.port_coded]; exact h) (by rw [State.port_coded]; exact h0)
    rw [State.port_coded] at hbuf hlast
    refine ⟨_, exec_linkWordAck, ?_⟩
    rw [State.takeFlit_intact hd hf hi]
    exact ⟨hbuf, hstuck, Port.of_lasting Port.rxSeq hlast⟩
  case nak =>
    intro s p f cor unc hu hi hv hk h hb
    obtain ⟨hd, hf⟩ := State.portIs_active hu
    have hst : (s.coded p f cor unc).portIs p psUp = true :=
      (State.portIs_congr (State.rd_coded (portKey_ne (by decide)) (portKey_ne (by decide)))).trans hu
    obtain ⟨hbuf, hstuck, hre, hpw⟩ := State.takeAck_replays (s := s.coded p f cor unc) (p := p) hv hk
      (by rw [State.port_coded]; exact h) (by rw [State.port_coded]; exact hb) hst
    rw [State.port_coded] at hbuf hstuck
    rw [State.rd_coded (portKey_ne (by decide)) (portKey_ne (by decide))] at hre
    refine ⟨_, exec_linkWordAck, ?_⟩
    rw [State.takeFlit_intact hd hf hi]
    exact ⟨hbuf, hstuck, hre, hpw⟩
  case unsent =>
    intro s p f cor unc hd hf hi hv h hn
    refine ⟨_, exec_linkWordAck, ?_⟩
    rw [State.takeFlit_intact hd hf hi, State.acked_eq, State.takeAck_unsent hv (by rw [State.port_coded]; exact h)
      (by rw [State.port_coded]; exact hn), State.port_updPort_self, State.port_coded]
    exact ⟨rfl, rfl, rfl⟩
  case noAck =>
    intro s p f cor unc hd hf hi hv
    refine ⟨_, exec_linkWordAck, ?_⟩
    rw [State.takeFlit_intact hd hf hi, State.acked_eq, State.takeAck_none hv, State.port_coded]
    exact ⟨rfl, rfl, rfl⟩
  case ackOff => exact fun s p f cor unc h => ⟨_, exec_linkWordAck, State.takeFlit_off h⟩
  case ackBroken => exact fun s p f cor unc hd hf hi => ⟨_, exec_linkWordAck, State.takeFlit_broken_fields hd hf hi⟩
  case replays =>
    intro s p a hu ha hd hb
    obtain ⟨⟨a, b, c, hport⟩, hre, hpw, hout⟩ := State.replay_fields hb hu
    refine ⟨_, exec_replayTimer, ?_⟩
    rw [State.replayTimer_runs hu ha hd, hport]
    exact ⟨hre, rfl, rfl, rfl, hout, hpw⟩
  case noReplay => exact fun s p h => ⟨_, exec_replayTimer, State.replayTimer_waits h⟩
  case ackDue =>
    intro s p a hc ha hd
    refine ⟨_, exec_ackTimer, ?_⟩
    rw [State.ackTimer_sends hc ha hd, State.sendFlit_out, State.port_sendFlit_self]
    exact ⟨rfl, rfl, rfl⟩
  case noAckDue =>
    intro s p h
    refine ⟨_, exec_ackTimer, State.ackTimer_waits (h.imp_right (.imp_left ?_))⟩
    rintro ⟨h1, h2, h3⟩
    simp [State.carriesAcks, h1, h2, h3]
  case credit =>
    intro s p f cor unc hc hi ht
    obtain ⟨hd, hf⟩ := hc.elim State.portIs_active State.portIs_active
    have hca : (s.acked p f cor unc).carriesCredit p := by simpa only [State.carriesCredit, State.acked_portIs] using hc
    have hoff : OffFlits p (Obj.ctrlDiscards p) := offFlits_port (by decide)
    obtain ⟨h0, h1, h2⟩ := State.creditFlit_fields (f := f) hca ht
    refine ⟨_, exec_creditFlitRx, ?_⟩
    rw [State.takeFlit_intact hd hf hi]
    exact ⟨h0, h1, h2.trans (by rw [(State.acked_passes hoff).obj])⟩
  case noCredit =>
    intro s p f cor unc hd hf hi h
    refine ⟨_, exec_creditFlitRx, ?_⟩
    rw [State.takeFlit_intact hd hf hi]
    refine State.creditFlit_other (h.imp_left ?_)
    rintro ⟨h1, h2⟩
    simp [State.carriesCredit, State.acked_portIs, h1, h2]
  case creditOff => exact fun s p f cor unc h => ⟨_, exec_creditFlitRx, State.takeFlit_off h⟩
  case creditBroken => exact fun s p f cor unc hd hf hi => ⟨_, exec_creditFlitRx, State.takeFlit_broken_fields hd hf hi⟩
  case creditDue =>
    intro s p hc hd
    refine ⟨_, exec_creditSend, ?_⟩
    rw [State.creditSend_sends hc hd, State.sendFlit_out, State.port_sendFlit_self, State.port_setPort_self]
    exact ⟨rfl, rfl, rfl⟩
  case noCreditDue =>
    intro s p h
    refine ⟨_, exec_creditSend, State.creditSend_waits (h.imp_left ?_)⟩
    rintro ⟨h1, h2⟩
    simp [State.carriesCredit, h1, h2]

end Sys2Proof.Machine
end

section
/-! SUPPORT. What messages sent and the settling of identities leave of the ports and the objects. -/
namespace Sys2Proof.Machine

variable {s t : State} {p q j b r st : Nat}

/-! ### Messages go out on up ports (R341) -/

theorem State.planeUp_lt (h : s.planeUp b = some p) : p < 16 := by
  unfold State.planeUp at h
  extract_lets q at h
  split at h
  · next hc => exact Option.some.inj h ▸ hc.1
  · cases h

theorem State.pickPlane_lt (h : s.pickPlane b = some p) : p < 16 := by
  obtain ⟨a, -, ha⟩ := List.exists_of_findSome?_eq_some h
  exact State.planeUp_lt ha

theorem State.pickFor_lt {m : Mail} (h : s.pickFor m b = some p) : p < 16 := by
  unfold State.pickFor at h
  split at h
  · obtain ⟨a, -, ha⟩ := List.mem_filterMap.1 (List.mem_of_mem_take (List.mem_of_getElem? h))
    exact State.planeUp_lt ha
  · exact State.pickPlane_lt h

theorem State.mailFrom_passes {m : Mail} (h : Passes j s t) (htx : ∀ q < 16, j ≠ Obj.flitsTx q) : Passes j s (t.mailFrom m b) := by
  unfold State.mailFrom
  split
  · exact h.beside rfl rfl rfl rfl
  · next p hp =>
    have hq : Passes j s (t.updPort p fun x => { x with queue := x.queue ++ mailFlits m }) := h.updPort
    exact State.pump_passes (hq.beside rfl rfl rfl rfl) (htx p (State.pickFor_lt hp))

theorem State.mail_passes {m : Mail} (h : Passes j s t) (htx : ∀ q < 16, j ≠ Obj.flitsTx q) : Passes j s (t.mail m) :=
  State.mailFrom_passes h htx

theorem State.mailWaiting_passes (h : Passes j s t) (htx : ∀ q < 16, j ≠ Obj.flitsTx q) : Passes j s t.mailWaiting :=
  Passes.foldl (fun _ _ _ hv => State.mail_passes hv htx) (h.beside rfl rfl rfl rfl)

theorem State.setAside_passes (h : Passes j s t) (htx : ∀ q < 16, j ≠ Obj.flitsTx q) : Passes j s (t.setAside p) :=
  Passes.foldl (fun _ _ _ hv => State.mail_passes hv htx) (h.setPort (h.ports p))

/-! ### Identities settle (R318 to R321) -/

/-- An object that the settling of identities leaves, but for the state and the result of the ports that settle. -/
structure OffIds (j : Nat) : Prop where
  event : eventKey j = false
  tx : ∀ q < 16, j ≠ Obj.flitsTx q
  remap : j ≠ Obj.remapCount
  logical : ∀ q < 16, j ≠ Obj.logicalPlane q
  plane : ∀ b, j ≠ Obj.planePort b

/-- The objects of a port, but its logical plane, are such objects. -/
theorem offIds_port (n : Nat) (hp : p < 16) (hn : n < 6 := by decide) : OffIds (0x500000 + n + 256 * p) where
  event := by
    simp only [eventKey, Bool.or_eq_false_iff, decide_eq_false_iff_not, Obj.dictFramesTx]
    omega
  tx q hq := by
    simp only [Obj.flitsTx]
    omega
  remap := by
    simp only [Obj.remapCount]
    omega
  logical q hq := by
    simp only [Obj.logicalPlane]
    omega
  plane b := by
    simp only [Obj.planePort]
    omega

/-- Objects of two ports whose keys for port 0 differ within one port differ. -/
theorem portKey_ne_of_mod {a b : Nat} (h : a % 256 ≠ b % 256) : a + 256 * p ≠ b + 256 * q := by omega

/-- One object of two ports. -/
theorem portKey_ne_of_port {a : Nat} (h : p ≠ q) : a + 256 * p ≠ a + 256 * q := by omega

theorem State.portTo_passes (h : Passes j s t) (he : eventKey j = false) (hs : j ≠ Obj.portState p) : Passes j s (t.portTo p st) := by
  unfold State.portTo
  extract_lets was s1 ps
  have h1 : Passes j s s1 := (h.wr hs).updPort
  exact h1.ite ((h1.raise he).ite ((h1.raise he).ite ((h1.raise he).ite ((h1.raise he).ite h1))))

theorem State.remapped_passes {old : List Nat} (h : Passes j s t) (ho : OffIds j) : Passes j s (t.remapped old) := by
  unfold State.remapped
  have hc : Passes j s ((t.count Obj.remapCount 1).fieldEntry 4 (old ++ t.planeMap)) := (h.count ho.remap).beside rfl rfl rfl rfl
  exact h.ite (hc.raise ho.event)

theorem State.carry_passes (h : Passes j s t) (ho : OffIds j) (hp : p < 16) : Passes j s (t.carry p b) := by
  unfold State.carry
  extract_lets old a s1 s2
  have h1 : Passes j s s1 := (h.wr (ho.plane _)).ite h
  exact State.remapped_passes ((h1.wr (ho.logical p hp)).wr (ho.plane _)) ho

theorem State.idEvent_passes (h : Passes j s t) (he : eventKey j = false) : Passes j s (t.idEvent p r) := by
  unfold State.idEvent
  extract_lets b
  exact (h.ite (h.raise he)).ite ((h.raise he).ite ((h.raise he).ite ((h.raise he).ite ((h.raise he).ite ((h.raise he).ite h)))))

theorem State.idSettle_passes (h : Passes j s t) (ho : OffIds j) (hp : p < 16) (hs : j ≠ Obj.portState p) : Passes j s (t.idSettle p r) := by
  unfold State.idSettle
  extract_lets b mode adopt already
  have aside (st : Nat) : Passes j s ((t.portTo p st).setAside p) := State.setAside_passes (State.portTo_passes h ho.event hs) ho.tx
  have rise (b : Nat) : Passes j s (((((t.carry p b).portTo p psUp).updPort p fun x => { x with dataAt := t.now }).pump p).mailWaiting) :=
    State.mailWaiting_passes (State.pump_passes ((State.portTo_passes (State.carry_passes h ho hp) ho.event hs).updPort) (ho.tx p hp)) ho.tx
  exact (h.ite (aside _)).ite (h.ite ((rise p).ite ((rise b).ite (h.ite (aside _)))))

theorem State.idOne_passes (h : Passes j s t) (ho : OffIds j) (hp : p < 16) (hs : j ≠ Obj.portState p) (hr : j ≠ Obj.idResult p) :
    Passes j s (t.idOne p) := by
  unfold State.idOne
  extract_lets x r s1
  have h1 : Passes j s s1 := h.ite ((State.idEvent_passes h ho.event).wr hr)
  exact (h.ite (State.idSettle_passes h1 ho hp hs)).ite h

/-- Identities settle without what lasts of any port changing, and no other object than those of the planes, the ports and the flits. -/
theorem State.classify_passes (h : Passes j s t) (ho : OffIds j) (hs : ∀ q < 16, j ≠ Obj.portState q) (hr : ∀ q < 16, j ≠ Obj.idResult q) :
    Passes j s t.classify :=
  Passes.foldl (fun _ _ _ hv => Passes.foldl (fun q hq _ hv => State.idOne_passes hv ho (List.mem_range.1 hq) (hs q (List.mem_range.1 hq))
    (hr q (List.mem_range.1 hq))) hv) h

/-! ### An identity held as missing (R317) -/

theorem Passes.inPlan (h : Passes j s t) (p : Nat) : t.inPlan p = s.inPlan p := by
  have hplan : (t.port p).plan = (s.port p).plan := Port.of_lasting Port.plan (h.ports p)
  rw [State.inPlan, State.inPlan, hplan]

theorem State.portTo_portIs (hp : p < 16) : (s.portTo p st).portIs p st = true := by
  have he : eventKey (Obj.portState p) = false := (offIds_port 1 hp).event
  have key : (s.portTo p st).rd (Obj.portState p) = st := by
    unfold State.portTo
    extract_lets was s1 ps
    have h1 : s1.rd (Obj.portState p) = st := State.rd_wr_self s _ st
    have hraise {code : Nat} (hc : 256 ≤ code ∧ code < 4096) : (s1.raise code ps).rd (Obj.portState p) = st := (State.rd_raise he hc).trans h1
    split
    · exact h1
    · split
      · exact hraise (by decide)
      · split
        · exact hraise (by decide)
        · split
          · exact hraise (by decide)
          · split
            · exact hraise (by decide)
            · exact h1
  simp [State.portIs, key]

/-- A port whose identity is missing: held, with result 7. -/
structure State.HeldMissing (s : State) (p : Nat) : Prop where
  plan : s.inPlan p = true
  result : s.rd (Obj.idResult p) = 7
  state : s.portIs p psHeld = true
  absent : (s.port p).idFrom = none

theorem State.idClass_missing (hp : s.inPlan p = true) (hi : (s.port p).idFrom = none) : s.idClass p = 7 := by
  simp [State.idClass, hp, State.idValid, hi]

theorem State.idSettle_missing : s.idSettle p 7 = if s.portIs p psHeld = true then s else (s.portTo p psHeld).setAside p := by
  simp [State.idSettle]

theorem State.idSettle_heldMissing (hp : p < 16) (hplan : s.inPlan p = true) (hr : s.rd (Obj.idResult p) = 7) (hi : (s.port p).idFrom = none) :
    (s.idSettle p 7).HeldMissing p := by
  have hres : Passes (Obj.idResult p) s (s.idSettle p 7) :=
    State.idSettle_passes (.refl _ s) (offIds_port 3 hp) hp (portKey_ne (by decide))
  refine ⟨(hres.inPlan p).trans hplan, hres.obj.trans hr, ?_, (Port.of_lasting Port.idFrom (hres.ports p)).trans hi⟩
  rw [State.idSettle_missing]
  split
  · assumption
  · have hst := (offIds_port 1 hp).tx
    exact (State.setAside_passes (.refl (Obj.portState p) _) hst).portIs.trans (State.portTo_portIs hp)

/-- The port itself stays so, and the settling of another does not change it. -/
theorem State.HeldMissing.idOne (h : s.HeldMissing p) (hp : p < 16) (hq : q < 16) : (s.idOne q).HeldMissing p := by
  by_cases e : q = p
  · subst e
    have hid : s.portIs q psIdentity = false := State.portIs_other h.state (by decide)
    have hone : s.idOne q = s := by
      unfold State.idOne
      extract_lets x r s1
      have hr : r = 7 := State.idClass_missing h.plan h.absent
      have h1 : s1 = s := if_pos (hr.trans h.result.symm)
      rw [if_pos (.inr (.inr h.state)), if_neg (by simp [hid]), h1, hr, State.idSettle_missing, if_pos h.state]
    rwa [hone]
  · have hres : Passes (Obj.idResult p) s (s.idOne q) :=
      State.idOne_passes (.refl _ s) (offIds_port 3 hp) hq (portKey_ne_of_mod (by decide)) (portKey_ne_of_port (Ne.symm e))
    have hst : Passes (Obj.portState p) s (s.idOne q) :=
      State.idOne_passes (.refl _ s) (offIds_port 1 hp) hq (portKey_ne_of_port (Ne.symm e)) (portKey_ne_of_mod (by decide))
    exact ⟨(hres.inPlan p).trans h.plan, hres.obj.trans h.result, hst.portIs.trans h.state,
      (Port.of_lasting Port.idFrom (hres.ports p)).trans h.absent⟩

theorem State.HeldMissing.classify (h : s.HeldMissing p) (hp : p < 16) : s.classify.HeldMissing p :=
  List.foldlRecOn _ _ (motive := (State.HeldMissing · p)) h fun _ hv _ _ =>
    List.foldlRecOn _ _ (motive := (State.HeldMissing · p)) hv fun _ hw _ hq => hw.idOne hp (List.mem_range.1 hq)

end Sys2Proof.Machine
end

section
/-! SUPPORT. Pace-mode flits and LLDPDUs sent and received, and the statement on them. -/
namespace Sys2Proof.Machine

variable {s t : State} {p : Fin 16} {f : Bytes} {cor unc : Nat} {l : LinkWord} {c v n : Nat}

/-! ### Pace-mode flits (R313, R314) -/

/-- The pace goes out, and its sequence counts on. -/
theorem State.paceSend_fields {p : Nat} (hd : 1000 ≤ s.now - s.link.paceAt) (hp : s.pickPlane (s.rd Obj.planModule % 16) = some p) :
    (∃ l, l.ftype = 4 ∧ s.paceSend.out = .flit p (flitBytes l s.paceFlit) :: s.out) ∧
    s.paceSend.link.paceSeq = (s.link.paceSeq + 1) % 2 ^ 32 ∧
    s.paceSend.link.paceAt = s.now ∧ s.paceSend.rd Obj.paceSent = s.paceNow := by
  unfold State.paceSend
  simp only [if_neg (Nat.not_lt.2 hd), hp]
  have hout := State.sendFlit_out (s.wr Obj.paceSent s.paceNow) p 4 0 0 s.paceFlit false
  have hobj := State.rd_sendFlit (s.wr Obj.paceSent s.paceNow) p Obj.paceSent 4 0 0 s.paceFlit false
  rw [State.rd_wr_self] at hobj
  generalize (s.wr Obj.paceSent s.paceNow).sendFlit p 4 0 0 s.paceFlit false = t at hout hobj
  exact ⟨⟨_, rfl, hout⟩, trivial, trivial, hobj⟩

theorem State.paceSend_waits (h : s.now - s.link.paceAt < 1000 ∨ s.pickPlane (s.rd Obj.planModule % 16) = none) : s.paceSend = s := by
  unfold State.paceSend
  split
  · rfl
  · next hd =>
    rw [h.resolve_left hd]

/-- Is a pace-mode flit newer than the entry of its sender, or that entry 100 µs old? -/
def State.paceNewer (s : State) (f : Bytes) : Bool :=
  (s.link.pace.find (paceKey f)).all fun y => after (paceEntOf f s.now).seq y.seq || decide (100 * us ≤ s.now - y.tick)

/-- No entry is older than any flit. -/
theorem all_newer (o : Option PaceEnt) (a now : Nat) : (o.all fun y => after a y.seq || decide (100 * us ≤ now - y.tick)) =
    match o with
    | none => true
    | some y => after a y.seq || decide (100 * us ≤ now - y.tick) := by
  cases o with
  | none => rfl
  | some y => exact Option.all_some

theorem State.paceFlitRx_eq {p : Nat} (hu : s.portIs p psUp = true) (ht : l.ftype = 4) :
    s.paceFlitRx p f l = if (paceEntOf f s.now).pace ≤ 0x8000 ∧ flitWord f 3 >>> 40 % 256 = 1 ∧ s.paceNewer f = true then
      { s with link := { s.link with pace := s.link.pace.insert (paceKey f) (paceEntOf f s.now) } }
    else s.ctrlDiscard p := by
  rw [State.paceNewer, all_newer]
  unfold State.paceFlitRx
  exact if_neg (by simp [hu, ht])

theorem State.paceFlitRx_other {p : Nat} (h : s.portIs p psUp = false ∨ l.ftype ≠ 4) : s.paceFlitRx p f l = s :=
  if_pos (by simpa using h)

/-- The state once the flit is taken, before a collective that waits looks again. -/
def State.paceTaken (s : State) (p : Nat) (f : Bytes) (cor unc : Nat) : State :=
  (if flitIntact f unc ∨ s.portIs p psDown ∨ s.portIs p psFailed then s else s.ctrlDiscard p).takeFlit p f cor unc fun l s => s.paceFlitRx p f l

theorem State.paceRx_after : Within ⟨[.coll], (· ∈ [Obj.collMismatchCycles, Obj.groupState])⟩ (s.paceTaken p f cor unc) (s.paceRx p f cor unc) := by
  have hc : Part.coll ∈ [Part.coll] := List.mem_singleton_self _
  unfold State.paceRx
  extract_lets s1 s2
  show Within _ s2 _
  split
  · exact State.epochWait_within hc (.refl _ _) (by simp) (by simp)
  · exact State.resumeReduces_within hc (.refl _ _) (by simp) (by simp)

/-- The entries of other members and the counts of the port are those the flit left. -/
theorem State.paceRx_fields (s : State) (p : Fin 16) (f : Bytes) (cor unc : Nat) :
    (s.paceRx p f cor unc).link.pace = (s.paceTaken p f cor unc).link.pace ∧
    (s.paceRx p f cor unc).rd (Obj.ctrlDiscards p) = (s.paceTaken p f cor unc).rd (Obj.ctrlDiscards p) ∧
    (s.paceRx p f cor unc).rd (Obj.parityErrors p) = (s.paceTaken p f cor unc).rd (Obj.parityErrors p) := by
  have hp := p.isLt
  have hw := State.paceRx_after (s := s) (p := p) (f := f) (cor := cor) (unc := unc)
  have hl : (s.paceRx p f cor unc).link = (s.paceTaken p f cor unc).link := (hw.same .link).resolve_left (by simp)
  refine ⟨congrArg LinkState.pace hl, hw.rd_eq ?_ ?_, hw.rd_eq ?_ ?_⟩
  all_goals
    simp only [List.mem_cons, List.not_mem_nil, or_false, eventKey, Bool.or_eq_false_iff, decide_eq_false_iff_not, Obj.ctrlDiscards,
      Obj.parityErrors, Obj.collMismatchCycles, Obj.groupState, Obj.dictFramesTx]
    omega

theorem State.paceTaken_off (h : s.portIs p psDown = true ∨ s.portIs p psFailed = true) : s.paceTaken p f cor unc = s := by
  rw [State.paceTaken, if_pos (.inr h), State.takeFlit_off h]

theorem State.paceTaken_intact (hd : s.portIs p psDown = false) (hf : s.portIs p psFailed = false) (hi : flitIntact f unc = true) :
    s.paceTaken p f cor unc = (s.acked p f cor unc).paceFlitRx p f (linkWord f) := by
  rw [State.paceTaken, if_pos (.inl hi), State.takeFlit_intact hd hf hi]

theorem State.paceTaken_broken (hd : s.portIs p psDown = false) (hf : s.portIs p psFailed = false) (hi : flitIntact f unc = false) :
    s.paceTaken p f cor unc = (s.ctrlDiscard p).takeFlit p f cor unc fun l s => s.paceFlitRx p f l := by
  rw [State.paceTaken, if_neg (by simp [hd, hf, hi])]

theorem State.acked_discards : Passes (Obj.ctrlDiscards p) s (s.acked p f cor unc) :=
  State.acked_passes (offFlits_port (by decide))

/-- An acknowledgement says nothing of the entries of other members. -/
theorem State.acked_paceNewer : (s.acked p f cor unc).paceNewer f = s.paceNewer f := by
  have h := State.acked_discards (s := s) (p := p) (f := f) (cor := cor) (unc := unc)
  rw [State.paceNewer, State.paceNewer, h.pace, h.now]

/-! ### LLDPDUs received (R317) -/

theorem State.lldpFlit_other {p : Nat}
    (h : (s.portIs p psIdentity = false ∧ s.portIs p psUp = false ∧ s.portIs p psHeld = false ∧ s.portIs p psRetrain = false) ∨ l.ftype ≠ 5) :
    s.lldpFlit p f l = s := by
  unfold State.lldpFlit
  refine if_pos (h.imp_left ?_)
  rintro ⟨h1, h2, h3, h4⟩
  simp [h1, h2, h3, h4]

/-- Does the port take and send LLDPDUs (Table 11.11)? -/
def State.carriesIds (s : State) (p : Nat) : Prop :=
  s.portIs p psIdentity = true ∨ s.portIs p psUp = true ∨ s.portIs p psHeld = true ∨ s.portIs p psRetrain = true

theorem State.carriesIds.active {p : Nat} (h : s.carriesIds p) : s.portIs p psDown = false ∧ s.portIs p psFailed = false :=
  h.elim State.portIs_active fun h => h.elim State.portIs_active fun h => h.elim State.portIs_active State.portIs_active

theorem State.lldpFlit_eq {p : Nat} (hc : s.carriesIds p) (ht : l.ftype = 5) :
    s.lldpFlit p f l = match lldpOf f with
      | none => s.ctrlDiscard p
      | some (c, v, t) => s.lldpTake p c v t := by
  unfold State.lldpFlit
  exact if_neg (not_or.2 ⟨not_not.2 hc, not_not.2 ht⟩)

/-- An acceptable LLDPDU is in the objects of the port, and its identity is current; the port acts on it in identity, on the first, and on a
change seen the third time. -/
theorem State.lldpTake_fields (s : State) (p : Fin 16) (c v n : Nat) :
    (s.lldpTake p c v n).rd (Obj.peerChassis p) = c ∧ (s.lldpTake p c v n).rd (Obj.peerSwitchPort p) = v ∧
    ((s.lldpTake p c v n).port p).idFrom = some s.now ∧ ((s.lldpTake p c v n).port p).idTtl = n ∧
    (s.portIs p psIdentity = true ∨ (s.port p).idFrom = none ∨ ((s.port p).change = some (c, v) ∧ 2 ≤ (s.port p).changeSeen) →
      ((s.lldpTake p c v n).port p).chassis = c ∧ ((s.lldpTake p c v n).port p).switchPort = v) := by
  have hp := p.isLt
  have hobj : ((s.wr (Obj.peerChassis p) c).wr (Obj.peerSwitchPort p) v).rd (Obj.peerChassis p) = c :=
    (State.rd_wr_ne (portKey_ne (by decide))).trans (State.rd_wr_self _ _ _)
  have hobj' : ((s.wr (Obj.peerChassis p) c).wr (Obj.peerSwitchPort p) v).rd (Obj.peerSwitchPort p) = v := State.rd_wr_self _ _ _
  have hst : ((s.wr (Obj.peerChassis p) c).wr (Obj.peerSwitchPort p) v).portIs p psIdentity = s.portIs p psIdentity :=
    State.portIs_congr ((State.rd_wr_ne (portKey_ne (by decide))).trans (State.rd_wr_ne (portKey_ne (by decide))))
  unfold State.lldpTake
  extract_lets x s1 k new s2
  split
  · have h2 : s2.port p = _ := State.port_setPort_self ..
    have hc : Passes (Obj.peerChassis p) s2
        ({ s2 with link := { s2.link with identities := if new then s2.link.identities + 1 else s2.link.identities } } : State).classify :=
      State.classify_passes ((Passes.refl _ s2).beside rfl rfl rfl rfl) (offIds_port 4 hp) (fun _ _ => portKey_ne_of_mod (by decide))
        (fun _ _ => portKey_ne_of_mod (by decide))
    have hv : Passes (Obj.peerSwitchPort p) s2
        ({ s2 with link := { s2.link with identities := if new then s2.link.identities + 1 else s2.link.identities } } : State).classify :=
      State.classify_passes ((Passes.refl _ s2).beside rfl rfl rfl rfl) (offIds_port 5 hp) (fun _ _ => portKey_ne_of_mod (by decide))
        (fun _ _ => portKey_ne_of_mod (by decide))
    have hlast := hc.ports p
    rw [h2] at hlast
    exact ⟨hc.obj.trans hobj, hv.obj.trans hobj', Port.of_lasting Port.idFrom hlast, Port.of_lasting Port.idTtl hlast,
      fun _ => ⟨Port.of_lasting Port.chassis hlast, Port.of_lasting Port.switchPort hlast⟩⟩
  · next hno =>
    rw [State.port_setPort_self]
    refine ⟨hobj, hobj', rfl, rfl, fun h => absurd ?_ hno⟩
    obtain h | h | ⟨h, hseen⟩ := h
    · exact .inl (hst.trans h)
    · exact .inr (.inl h)
    · refine .inr (.inr (.inr ?_))
      simp only [k, x, h, if_true]
      omega

/-! ### LLDPDUs missed and sent (R316, R317) -/

/-- Is the identity of a port to be held as missing: none for 5 s in identity, or one past its time to live? -/
def State.idLate (s : State) (p : Nat) : Prop :=
  (s.portIs p psIdentity = true ∧ (s.port p).idFrom = none ∧ 5000 * ms ≤ s.now - (s.port p).since) ∨
  ((s.port p).idFrom ≠ none ∧ s.idValid p = false ∧ (s.portIs p psIdentity = true ∨ s.portIs p psUp = true ∨ s.portIs p psHeld = true))

theorem State.lldpMissing_eq (s : State) (p : Nat) [Decidable (s.inPlan p = true ∧ s.idLate p ∧ s.rd (Obj.idResult p) ≠ 7)] :
    s.lldpMissing p = if s.inPlan p = true ∧ s.idLate p ∧ s.rd (Obj.idResult p) ≠ 7 then
      (((((s.updPort p fun x => { x with idFrom := none }).raise Ev.lldpMissing [p8 p]).wr (Obj.idResult p) 7).idSettle p 7).classify) else s := by
  unfold State.lldpMissing
  extract_lets x late old
  refine if_congr ?_ rfl rfl
  simp only [late, old, x, State.idLate, Bool.and_eq_true, Bool.not_eq_true', bne_iff_ne, beq_iff_eq, decide_eq_true_eq, ne_eq]
  tauto

theorem State.lldpMissing_holds (hp : s.inPlan p = true) (hl : s.idLate p) (hr : s.rd (Obj.idResult p) ≠ 7) : (s.lldpMissing p).HeldMissing p := by
  classical
  rw [State.lldpMissing_eq, if_pos ⟨hp, hl, hr⟩]
  have hport : ((s.updPort p fun x => { x with idFrom := none }).raise Ev.lldpMissing [p8 p]).port p = { s.port p with idFrom := none } :=
    (State.port_congr (State.raise_link ..) p).trans (State.port_updPort_self ..)
  refine State.HeldMissing.classify (State.idSettle_heldMissing p.isLt ?_ (State.rd_wr_self _ _ _) ?_) p.isLt
  · rw [State.inPlan, State.port_wr, hport]
    exact hp
  · rw [State.port_wr, hport]

/-- Is an LLDPDU of the port due? -/
def State.lldpDue (s : State) (p : Nat) : Prop :=
  (s.port p).planDue = true ∨ (s.port p).lldpAt = none ∨ 1000 * ms ≤ s.now - (s.port p).lldpAt.getD 0 ∨
    ((s.port p).lldpAt.getD 0 < (s.port p).since ∧ s.portIs p psIdentity = true)

theorem State.lldpSend_eq (s : State) (p : Nat) [Decidable (s.carriesIds p ∧ s.lldpDue p)] :
    s.lldpSend p = if s.carriesIds p ∧ s.lldpDue p then
      (s.setPort p { s.port p with lldpAt := some s.now, planDue := false }).sendFlit p 5 0 0 (p16 (s.lldpFrame p).length ++ s.lldpFrame p) false
    else s := by
  unfold State.lldpSend
  extract_lets x due
  refine if_congr (and_congr Iff.rfl ?_) rfl rfl
  simp only [due, x, State.lldpDue]
  cases (s.port p).lldpAt <;> simp

/-! ### The statement -/

theorem exec_paceModeSend : exec .paceModeSend s = .next s.paceSend := rfl
theorem exec_lldpMissing : exec (.lldpMissing p) s = .next (s.lldpMissing p) := rfl
theorem exec_lldpSend : exec (.lldpSend p) s = .next (s.lldpSend p) := rfl
theorem exec_paceModeFlitRx : exec (.paceModeFlitRx p f cor unc) s = .next (s.paceRx p f cor unc) := rfl
theorem exec_lldpFlitRx : exec (.lldpFlitRx p f cor unc) s = .next (s.takeFlit p f cor unc fun l s => s.lldpFlit p f l) := rfl

/-- Settles O24, clause by clause: a pace-mode flit sets or leaves the entry of its sender; what lasts of a port, its identity among it, is left as
it is by the ports that settle after. -/
theorem paceAndIdentityOfPorts : Obligations.PaceAndIdentityOfPorts := by
  unfold Obligations.PaceAndIdentityOfPorts
  refine ⟨?pace, ?noPace, ?entry, ?stale, ?noEntry, ?paceBroken, ?paceOff, ?identity, ?malformed, ?noIdentity, ?lldpOff, ?lldpBroken, ?missing,
    ?notMissing, ?sends, ?noSend⟩
  case pace =>
    intro s p hd hp
    exact ⟨_, exec_paceModeSend, State.paceSend_fields hd hp⟩
  case noPace => exact fun s h => ⟨_, exec_paceModeSend, State.paceSend_waits h⟩
  case entry =>
    intro s p f cor unc hu hi ht hpace hver hfresh
    obtain ⟨hd, hf⟩ := State.portIs_active hu
    have ha := State.acked_discards (s := s) (p := p) (f := f) (cor := cor) (unc := unc)
    refine ⟨_, exec_paceModeFlitRx, ?_⟩
    rw [(s.paceRx_fields p f cor unc).1, State.paceTaken_intact hd hf hi, State.paceFlitRx_eq ((State.acked_portIs ..).trans hu) ht, ha.now,
      if_pos ⟨hpace, hver, State.acked_paceNewer.trans hfresh⟩]
    exact Tab.find_insert_self _ _ _
  case stale =>
    intro s p f cor unc hu hi ht h
    obtain ⟨hd, hf⟩ := State.portIs_active hu
    have ha := State.acked_discards (s := s) (p := p) (f := f) (cor := cor) (unc := unc)
    obtain ⟨h1, h2, -⟩ := s.paceRx_fields p f cor unc
    refine ⟨_, exec_paceModeFlitRx, ?_⟩
    rw [h1, h2, State.paceTaken_intact hd hf hi, State.paceFlitRx_eq ((State.acked_portIs ..).trans hu) ht, ha.now, if_neg]
    · exact ⟨ha.pace, (State.rd_count_self _ _ _).trans (by rw [ha.obj])⟩
    · rintro ⟨hpace, hver, hfresh⟩
      rw [State.acked_paceNewer] at hfresh
      obtain h | h | h := h
      · omega
      · exact h hver
      · exact absurd (hfresh.symm.trans h) (by decide)
  case noEntry =>
    intro s p f cor unc hd hf hi h
    have ha := State.acked_discards (s := s) (p := p) (f := f) (cor := cor) (unc := unc)
    obtain ⟨h1, h2, -⟩ := s.paceRx_fields p f cor unc
    refine ⟨_, exec_paceModeFlitRx, ?_⟩
    rw [h1, h2, State.paceTaken_intact hd hf hi, State.paceFlitRx_other (h.imp_left (State.acked_portIs ..).trans)]
    exact ⟨ha.pace, ha.obj⟩
  case paceBroken =>
    intro s p f cor unc hd hf hi
    obtain ⟨h1, h2, h3⟩ := s.paceRx_fields p f cor unc
    have hst (st : Nat) : (s.ctrlDiscard p).portIs p st = s.portIs p st := State.portIs_congr (State.rd_count_ne (portKey_ne (by decide)))
    have hpass : Passes (Obj.ctrlDiscards p) (s.ctrlDiscard p) ((s.ctrlDiscard p).takeFlit p f cor unc fun l s => s.paceFlitRx p f l) :=
      State.takeFlit_broken_passes ((hst _).trans hd) ((hst _).trans hf) hi (portKey_ne (by decide)) (portKey_ne (by decide))
        (portKey_ne (by decide)) (portKey_ne (by decide))
    obtain ⟨hpar, -⟩ := State.takeFlit_broken_fields (cor := cor) (g := fun l s => s.paceFlitRx p f l) ((hst _).trans hd) ((hst _).trans hf) hi
    refine ⟨_, exec_paceModeFlitRx, ?_⟩
    rw [h1, h2, h3, State.paceTaken_broken hd hf hi]
    rw [State.ctrlDiscard, State.rd_count_ne (portKey_ne (by decide))] at hpar
    exact ⟨hpass.pace, hpass.obj.trans (State.rd_count_self _ _ _), hpar⟩
  case paceOff =>
    intro s p f cor unc h
    obtain ⟨h1, h2, h3⟩ := s.paceRx_fields p f cor unc
    refine ⟨_, exec_paceModeFlitRx, ?_⟩
    rw [h1, h2, h3, State.paceTaken_off h]
    exact ⟨rfl, rfl, rfl⟩
  case identity =>
    intro s p f cor unc c v n hc hi ht hl
    obtain ⟨hd, hf⟩ := State.carriesIds.active hc
    have hca : (s.acked p f cor unc).carriesIds p := by simpa only [State.carriesIds, State.acked_portIs] using hc
    have hlast := s.port_acked p f cor unc
    have ha := State.acked_discards (s := s) (p := p) (f := f) (cor := cor) (unc := unc)
    obtain ⟨h1, h2, h3, h4, h5⟩ := (s.acked p f cor unc).lldpTake_fields p c v n
    refine ⟨_, exec_lldpFlitRx, ?_⟩
    rw [State.takeFlit_intact hd hf hi, State.lldpFlit_eq hca ht, hl]
    refine ⟨h1, h2, h3.trans (by rw [ha.now]), h4, fun h => h5 ?_⟩
    have e1 : ((s.acked p f cor unc).port p).idFrom = (s.port p).idFrom := Port.of_lasting Port.idFrom hlast
    have e2 : ((s.acked p f cor unc).port p).change = (s.port p).change := Port.of_lasting Port.change hlast
    have e3 : ((s.acked p f cor unc).port p).changeSeen = (s.port p).changeSeen := Port.of_lasting Port.changeSeen hlast
    rwa [State.acked_portIs, e1, e2, e3]
  case malformed =>
    intro s p f cor unc hc hi ht hl
    obtain ⟨hd, hf⟩ := State.carriesIds.active hc
    have hca : (s.acked p f cor unc).carriesIds p := by simpa only [State.carriesIds, State.acked_portIs] using hc
    have ha := State.acked_discards (s := s) (p := p) (f := f) (cor := cor) (unc := unc)
    refine ⟨_, exec_lldpFlitRx, ?_⟩
    rw [State.takeFlit_intact hd hf hi, State.lldpFlit_eq hca ht, hl]
    exact ⟨rfl, (State.rd_count_self _ _ _).trans (by rw [ha.obj])⟩
  case noIdentity =>
    intro s p f cor unc hd hf hi h
    refine ⟨_, exec_lldpFlitRx, ?_⟩
    rw [State.takeFlit_intact hd hf hi]
    exact State.lldpFlit_other (by simpa only [State.acked_portIs] using h)
  case lldpOff => exact fun s p f cor unc h => ⟨_, exec_lldpFlitRx, State.takeFlit_off h⟩
  case lldpBroken => exact fun s p f cor unc hd hf hi => ⟨_, exec_lldpFlitRx, State.takeFlit_broken_fields hd hf hi⟩
  case missing =>
    intro s p hp hl hr
    obtain ⟨-, hres, hst, hid⟩ := State.lldpMissing_holds hp hl hr
    exact ⟨_, exec_lldpMissing, hres, by simpa [State.portIs] using hst, hid⟩
  case notMissing =>
    intro s p h
    classical
    refine ⟨_, exec_lldpMissing, (s.lldpMissing_eq p).trans (if_neg ?_)⟩
    rintro ⟨hp, hl, hr⟩
    obtain h | h | h := h
    · exact absurd (hp.symm.trans h) (by decide)
    · exact h hl
    · exact hr h
  case sends =>
    intro s p hc hd
    classical
    refine ⟨_, exec_lldpSend, ?_⟩
    rw [State.lldpSend_eq, if_pos ⟨hc, hd⟩, State.sendFlit_out, State.port_sendFlit_self, State.port_setPort_self]
    exact ⟨rfl, rfl, rfl⟩
  case noSend =>
    intro s p h
    classical
    refine ⟨_, exec_lldpSend, (s.lldpSend_eq p).trans (if_neg ?_)⟩
    rintro ⟨hc, hd⟩
    obtain ⟨h1, h2, h3, h4⟩ | h := h
    · simp [State.carriesIds, h1, h2, h3, h4] at hc
    · exact h hd

end Sys2Proof.Machine
end

section
/-! SUPPORT. Request frames of the object dictionary: what a frame heard, counted and answered leaves alone, and what one that is not served
leaves. -/
namespace Sys2Proof.Machine

variable {s t u : State} {src : Src} {pdu r : Bytes} {held k n : Nat}

/-! ### What a frame leaves alone before it is served (R391, R414, R422) -/

/-- The objects in which a frame and the time up to it are counted before it is served. -/
def servingKeys : List Nat := [Obj.dictFramesRx, Obj.throttledMs, Obj.followingMs, Obj.e2DeferredMs]

/-- `t` is `s` once a frame is counted, or the time up to it: nothing that a request reads or writes has changed. -/
structure Attends (s t : State) : Prop where
  now : t.now = s.now
  cmd : t.cmd = s.cmd
  tile : t.tile = s.tile
  tier : t.tier = s.tier
  staged : t.staged = s.staged
  link : t.link = s.link
  coll : t.coll = s.coll
  out : t.out = s.out
  log : t.dict.log = s.dict.log
  evseq : t.dict.evseq = s.dict.evseq
  kept : t.dict.kept = s.dict.kept
  rd : ∀ k, k ∉ servingKeys → t.rd k = s.rd k

theorem Attends.trans (h : Attends s t) (h' : Attends t u) : Attends s u where
  now := h'.now.trans h.now
  cmd := h'.cmd.trans h.cmd
  tile := h'.tile.trans h.tile
  tier := h'.tier.trans h.tier
  staged := h'.staged.trans h.staged
  link := h'.link.trans h.link
  coll := h'.coll.trans h.coll
  out := h'.out.trans h.out
  log := h'.log.trans h.log
  evseq := h'.evseq.trans h.evseq
  kept := h'.kept.trans h.kept
  rd k hk := (h'.rd k hk).trans (h.rd k hk)

theorem ne_of_mem_servingKeys {j : Nat} (hk : k ∉ servingKeys) (hj : j ∈ servingKeys := by decide) : k ≠ j := by
  rintro rfl
  exact hk hj

theorem State.heard_attends (s : State) (src : Src) (pdu : Bytes) : Attends s (s.heard src pdu) := by
  cases src <;> exact ⟨rfl, rfl, rfl, rfl, rfl, rfl, rfl, rfl, rfl, rfl, rfl, fun k hk => State.rd_count_ne (ne_of_mem_servingKeys hk)⟩

theorem State.account_attends (s : State) : Attends s s.account :=
  ⟨rfl, rfl, rfl, rfl, rfl, rfl, rfl, rfl, rfl, rfl, rfl, fun _ hk => (State.rd_count_ne (ne_of_mem_servingKeys hk)).trans
    ((State.rd_count_ne (ne_of_mem_servingKeys hk)).trans (State.rd_count_ne (ne_of_mem_servingKeys hk)))⟩

/-- The state that serves a read or a write. -/
theorem State.serving_attends (s : State) (src : Src) (pdu : Bytes) : Attends s (s.heard src pdu).account :=
  (s.heard_attends src pdu).trans (State.account_attends _)

theorem Attends.keptReply (h : Attends s t) : t.keptReply src pdu = s.keptReply src pdu := by
  rw [State.keptReply, State.keptReply, h.kept, h.now]

theorem Attends.logFrom (h : Attends s t) (f n : Nat) : t.logFrom f n = s.logFrom f n := by
  rw [State.logFrom, State.logFrom, h.log, h.evseq]

/-! ### Replies (R420) -/

section
variable (s src pdu r)

/-- A reply crosses to its source and is counted, and nothing else. -/
theorem State.sendReply_shape : ∃ x y, s.sendReply src r = { s with cross := x, obj := y, out := .reply src r :: s.out } := by
  cases src with
  | mctp p eid => exact ⟨_, _, rfl⟩
  | fld mac => exact ⟨s.cross, _, rfl⟩

/-- So what does not depend on the crossings, the objects and what is put out is as it was. -/
theorem State.of_sendReply {α : Type} (g : State → α)
    (hg : ∀ v x y o, g { v with cross := x, obj := y, out := o } = g v := by exact fun _ _ _ _ => rfl) :
    g (s.sendReply src r) = g s := by
  obtain ⟨x, y, h⟩ := s.sendReply_shape src r
  rw [h, hg]

@[simp] theorem State.sendReply_out : (s.sendReply src r).out = .reply src r :: s.out := by
  obtain ⟨x, y, h⟩ := s.sendReply_shape src r
  rw [h]

@[simp] theorem State.sendReply_dict : (s.sendReply src r).dict = s.dict := s.of_sendReply src r State.dict
@[simp] theorem State.sendReply_cmd : (s.sendReply src r).cmd = s.cmd := s.of_sendReply src r State.cmd
@[simp] theorem State.sendReply_tile : (s.sendReply src r).tile = s.tile := s.of_sendReply src r State.tile
@[simp] theorem State.sendReply_tier : (s.sendReply src r).tier = s.tier := s.of_sendReply src r State.tier
@[simp] theorem State.sendReply_staged : (s.sendReply src r).staged = s.staged := s.of_sendReply src r State.staged
@[simp] theorem State.sendReply_link : (s.sendReply src r).link = s.link := s.of_sendReply src r State.link
@[simp] theorem State.sendReply_coll : (s.sendReply src r).coll = s.coll := s.of_sendReply src r State.coll

@[simp] theorem State.answer_out : (s.answer src pdu r).out = .reply src r :: s.out := s.sendReply_out src r
@[simp] theorem State.answer_cmd : (s.answer src pdu r).cmd = s.cmd := s.sendReply_cmd src r
@[simp] theorem State.answer_tile : (s.answer src pdu r).tile = s.tile := s.sendReply_tile src r
@[simp] theorem State.answer_tier : (s.answer src pdu r).tier = s.tier := s.sendReply_tier src r
@[simp] theorem State.answer_staged : (s.answer src pdu r).staged = s.staged := s.sendReply_staged src r
@[simp] theorem State.answer_link : (s.answer src pdu r).link = s.link := s.sendReply_link src r
@[simp] theorem State.answer_coll : (s.answer src pdu r).coll = s.coll := s.sendReply_coll src r
@[simp] theorem State.answer_log : (s.answer src pdu r).dict.log = s.dict.log := (congrArg DictState.log (s.sendReply_dict src r) :)
end

theorem State.rd_sendReply (hk : k ≠ Obj.dictFramesTx) : (s.sendReply src r).rd k = s.rd k := by
  cases src <;> exact State.rd_count_ne hk

theorem State.rd_answer (hk : k ≠ Obj.dictFramesTx) : (s.answer src pdu r).rd k = s.rd k := State.rd_sendReply hk

/-! ### Frames received (R414, R419, R420) -/

section
variable {f : State → Option (State × Bytes)}

theorem State.receive_off (hs : s.standby = false) : s.receive src pdu held f = s := if_pos (by simp [hs])

theorem State.receive_eq (hs : s.standby = true) :
    s.receive src pdu held f = if 8 ≤ held then (s.heard src pdu).countSat Obj.dictDiscards 1
      else match s.keptReply src pdu with
        | some r => ((s.heard src pdu).sendReply src r).count Obj.dictRepeats 1
        | none => match f (s.heard src pdu) with
          | some (t, r) => t.answer src pdu r
          | none => (s.heard src pdu).malformed src pdu := by
  unfold State.receive
  rw [if_neg (not_not.2 hs), ← (s.heard_attends src pdu).keptReply]
  rfl

/-- A frame that is served: `f` gives what it does and its reply. -/
theorem State.receive_served (hs : s.standby = true) (hh : held < 8) (hk : s.keptReply src pdu = none) (hf : f (s.heard src pdu) = some (t, r)) :
    s.receive src pdu held f = t.answer src pdu r := by
  rw [State.receive_eq hs, if_neg (Nat.not_le.2 hh), hk, hf]

/-- A ninth frame of a source is counted, and nothing else. -/
theorem State.receive_ninth (hs : s.standby = true) (hh : 8 ≤ held) :
    (s.receive src pdu held f).out = s.out ∧
    (s.receive src pdu held f).rd Obj.dictDiscards = min (s.rd Obj.dictDiscards + 1) (2 ^ 32 - 1) ∧
    (s.receive src pdu held f).staged = s.staged ∧ (s.receive src pdu held f).tile = s.tile ∧ (s.receive src pdu held f).cmd = s.cmd := by
  have ha := s.heard_attends src pdu
  rw [State.receive_eq hs, if_pos hh, State.rd_countSat_self, ha.rd _ (by decide)]
  exact ⟨ha.out, rfl, ha.staged, ha.tile, ha.cmd⟩

/-- A repeated frame gets the reply that was kept. -/
theorem State.receive_repeat (hs : s.standby = true) (hh : held < 8) (hk : s.keptReply src pdu = some r) :
    (s.receive src pdu held f).out = .reply src r :: s.out ∧
    (s.receive src pdu held f).rd Obj.dictRepeats = (s.rd Obj.dictRepeats + 1) % 2 ^ 64 ∧
    (s.receive src pdu held f).dict.log = s.dict.log ∧ (s.receive src pdu held f).staged = s.staged ∧
    (s.receive src pdu held f).tile = s.tile ∧ (s.receive src pdu held f).cmd = s.cmd := by
  have ha := s.heard_attends src pdu
  rw [State.receive_eq hs, if_neg (Nat.not_le.2 hh), hk]
  dsimp only
  generalize s.heard src pdu = u at ha
  rw [State.rd_count_self, State.rd_sendReply (by decide), ha.rd _ (by decide), State.count_out, State.count_staged,
    State.count_tile, State.count_cmd, State.sendReply_out, State.sendReply_staged, State.sendReply_tile, State.sendReply_cmd]
  exact ⟨congrArg (_ :: ·) ha.out, rfl, (congrArg DictState.log (u.sendReply_dict src r)).trans ha.log, ha.staged, ha.tile, ha.cmd⟩

theorem State.malformed_eq : s.malformed src pdu = if 4 ≤ pdu.length ∧ pduField pdu 0 1 = 1 ∧ (pduField pdu 1 1 = 1 ∨ pduField pdu 1 1 = 2 ∨
    pduField pdu 1 1 = 5 ∨ pduField pdu 1 1 = 6) then (s.countSat Obj.dictDiscards 1).answer src pdu (replyPdu pdu 0 0x80 [])
    else s.countSat Obj.dictDiscards 1 := rfl

/-- A malformed frame is counted, and refused where its version and op can be told. -/
theorem State.receive_malformed (hs : s.standby = true) (hh : held < 8) (hk : s.keptReply src pdu = none) (hf : f (s.heard src pdu) = none) :
    ((s.receive src pdu held f).out = (if (4 ≤ pdu.length ∧ pduField pdu 0 1 = 1 ∧ (pduField pdu 1 1 = 1 ∨ pduField pdu 1 1 = 2 ∨
      pduField pdu 1 1 = 5 ∨ pduField pdu 1 1 = 6)) then [Out.reply src (replyPdu pdu 0 0x80 [])] else []) ++ s.out) ∧
    (s.receive src pdu held f).rd Obj.dictDiscards = min (s.rd Obj.dictDiscards + 1) (2 ^ 32 - 1) ∧
    (s.receive src pdu held f).staged = s.staged ∧ (s.receive src pdu held f).tile = s.tile ∧ (s.receive src pdu held f).cmd = s.cmd := by
  have ha := s.heard_attends src pdu
  rw [State.receive_eq hs, if_neg (Nat.not_le.2 hh), hk, hf]
  dsimp only
  generalize s.heard src pdu = u at ha
  have hdisc : (u.countSat Obj.dictDiscards 1).rd Obj.dictDiscards = min (s.rd Obj.dictDiscards + 1) (2 ^ 32 - 1) := by
    rw [State.rd_countSat_self, ha.rd _ (by decide)]
  rw [State.malformed_eq]
  split_ifs
  · rw [State.answer_out, State.rd_answer (by decide), State.answer_staged, State.answer_tile, State.answer_cmd]
    exact ⟨congrArg (_ :: ·) ha.out, hdisc, ha.staged, ha.tile, ha.cmd⟩
  · exact ⟨ha.out, hdisc, ha.staged, ha.tile, ha.cmd⟩

end

end Sys2Proof.Machine
end

section
/-! SUPPORT. Items written to the object dictionary, and the statement on its frames. -/
namespace Sys2Proof.Machine

variable {s t : State} {src : Src} {pdu : Bytes} {k n : Nat} {x : Item} {xs : List Item}

/-! ### Items (R406, R411, R416) -/

theorem unle_lt (b : Bytes) : unle b < 256 ^ b.length := by
  induction b with
  | nil => decide
  | cons c b ih =>
    have hc : c.toNat < 256 := c.isLt
    rw [unle, List.length_cons, Nat.pow_succ]
    omega

/-- The subindex of an item is one byte. -/
theorem parseItems_sub {b : Bytes} (h : parseItems n b = some xs) (hx : x ∈ xs) : x.sub < 256 := by
  induction n generalizing b xs with
  | zero =>
    rw [parseItems] at h
    split at h
    · cases h
      cases hx
    · cases h
  | succ n ih =>
    rw [parseItems] at h
    split at h
    · cases h
    · obtain ⟨ys, hys, rfl⟩ := Option.map_eq_some_iff.1 h
      obtain rfl | hx := List.mem_cons.1 hx
      · exact (unle_lt ((b.drop 2).take 1)).trans_le (Nat.pow_le_pow_right (by decide) (List.length_take_le _ _))
      · exact ih hys hx

theorem requestItems_sub {op : Nat} (h : requestItems pdu op = some xs) (hx : x ∈ xs) : x.sub < 256 := by
  unfold requestItems at h
  split at h
  · cases h
  · exact parseItems_sub (Option.eq_some_of_filter_eq_some h) hx

theorem Item.key_div (h : x.sub < 256) : x.key / 256 = x.idx := by
  unfold Item.key
  omega

theorem Item.key_mod (h : x.sub < 256) : x.key % 256 = x.sub := by
  unfold Item.key
  omega

/-- An item that passes its checks is not one of an object that is only read. -/
theorem State.itemStatus_key_ne (h : s.itemStatus src x = 0) (hx : x.sub < 256)
    (hk : (objMeta (k / 256) (k % 256)).map (fun m => m.2.1) = some .ro := by decide) : x.key ≠ k := by
  rintro rfl
  rw [Item.key_div hx, Item.key_mod hx] at hk
  obtain ⟨⟨ty, acc, rng⟩, hm, hro⟩ := Option.map_eq_some_iff.1 hk
  obtain rfl : acc = .ro := hro
  simp [State.itemStatus, hm] at h

/-- A frame's counts are no object that an item may set. -/
theorem State.itemStatus_unserved (h : s.itemStatus src x = 0) (hx : x.sub < 256) : x.key ∉ servingKeys := by
  simp only [servingKeys, List.mem_cons, List.not_mem_nil, or_false, not_or]
  exact ⟨State.itemStatus_key_ne h hx, State.itemStatus_key_ne h hx, State.itemStatus_key_ne h hx, State.itemStatus_key_ne h hx⟩

/-! ### Values set (R410) -/

theorem Within.tile_eq {g : Scope} (hw : Within g s t) (ht : Part.tile ∉ g.parts) (hs : Part.scratch ∉ g.parts) (hc : Part.castMem ∉ g.parts) :
    t.tile = s.tile := by
  have he : { t.tile with scratch := [], castMem := [] } = { s.tile with scratch := [], castMem := [] } := (hw.same .tile).resolve_left ht
  have hscratch : t.tile.scratch = s.tile.scratch := (hw.same .scratch).resolve_left hs
  have hcast : t.tile.castMem = s.tile.castMem := (hw.same .castMem).resolve_left hc
  have heq : { t.tile with scratch := s.tile.scratch, castMem := s.tile.castMem } = s.tile :=
    congrArg (fun x : TileState => { x with scratch := s.tile.scratch, castMem := s.tile.castMem }) he
  rw [← heq, ← hscratch, ← hcast]

theorem State.applyItem_value (ha : x.acc ≠ .wa) : s.applyItem src x = s.setValue x.key (unle x.value) := if_neg ha

theorem State.setValue_mode {v : Nat} (h : isMode k = true) : s.setValue k v = s.stage k v := if_pos h

/-- The mode block lies elsewhere than the plan. -/
theorem isMode_of_isPlan (h : isPlan k = true) : isMode k = false := by
  have hidx : k / 256 / 256 = 0x50 := by
    simp only [isPlan, Bool.or_eq_true, Bool.and_eq_true, beq_iff_eq] at h
    omega
  unfold isMode
  split
  · simp [inModeBlock, hidx]
  · rfl

theorem State.setValue_plan {v : Nat} (h : isPlan k = true) : s.setValue k v = s.planWrite k v := by
  unfold State.setValue
  extract_lets i
  rw [if_neg (by simp [isMode_of_isPlan h]), if_pos h]

theorem State.setValue_plain {v : Nat} (hm : isMode k = false) (hp : isPlan k = false) (hz : k / 256 < 0x6810 ∨ 0x6813 < k / 256)
    (hs : k / 256 < 0x5000 ∨ 0x500F < k / 256) (ht : k ≠ Obj.actTick) : s.setValue k v = s.wr k v := by
  unfold State.setValue
  extract_lets i
  rw [if_neg (by simp [hm]), if_neg (by simp [hp]), if_neg (by omega), if_neg (by omega), if_neg ht]

/-! ### The plan written (R325) -/

/-- Each port goes by the plan where it is up, and has an LLDPDU due. -/
def State.planPort (s : State) (p : Nat) : State :=
  s.updPort p fun x => { x with planDue := true, plan := if s.portIs p psUp = true then s.planNow else x.plan }

theorem State.planWrite_eq {v : Nat} : s.planWrite k v = ((List.range 16).foldl State.planPort (s.wr k v)).classify := rfl

theorem State.planPorts_rd (l : List Nat) (s : State) (k : Nat) : (l.foldl State.planPort s).rd k = s.rd k := by
  induction l generalizing s with
  | nil => rfl
  | cons p l ih => exact (ih _).trans rfl

/-- A port that is down has an LLDPDU due, and keeps the plan it goes by. -/
theorem State.planPorts_down {p : Nat} (l : List Nat) (s : State) (hd : s.portIs p psDown = true) :
    ((l.foldl State.planPort s).port p).plan = (s.port p).plan ∧
    (p ∈ l ∨ (s.port p).planDue = true → ((l.foldl State.planPort s).port p).planDue = true) := by
  induction l generalizing s with
  | nil => exact ⟨rfl, fun h => h.resolve_left List.not_mem_nil⟩
  | cons q l ih =>
    obtain ⟨hplan, hdue⟩ := ih (s.planPort q) hd
    rw [List.foldl_cons]
    by_cases e : p = q
    · subst e
      have hport : (s.planPort p).port p = { s.port p with planDue := true, plan := (s.port p).plan } := by
        rw [State.planPort, State.port_updPort_self, State.portIs_other hd (by decide)]
        rfl
      rw [hport] at hplan hdue
      exact ⟨hplan, fun _ => hdue (.inr rfl)⟩
    · have hport : (s.planPort q).port p = s.port p := State.port_updPort_ne e
      rw [hport] at hplan hdue
      refine ⟨hplan, fun h => hdue (h.imp_left fun h => ?_)⟩
      exact (List.mem_cons.1 h).resolve_left e

theorem isPlan_range (h : isPlan k = true) : 0x501000 ≤ k ∧ k < 0x501300 ∧ k ≠ Obj.remapCount := by
  simp only [isPlan, Bool.or_eq_true, Bool.and_eq_true, beq_iff_eq, decide_eq_true_eq] at h
  simp only [Obj.remapCount]
  omega

theorem isPlan_ne_port {a q : Nat} (h : isPlan k = true) (hq : q < 16) (ha : a < 0x500100) : k ≠ a + 256 * q := by
  obtain ⟨hlo, -, -⟩ := isPlan_range h
  omega

/-- The plan lies elsewhere than the objects of ports and the event records. -/
theorem offIds_plan (h : isPlan k = true) : OffIds k where
  event := by
    obtain ⟨hlo, hhi, -⟩ := isPlan_range h
    simp only [eventKey, Bool.or_eq_false_iff, decide_eq_false_iff_not, Obj.dictFramesTx]
    omega
  tx q hq := by
    obtain ⟨hlo, hhi, -⟩ := isPlan_range h
    simp only [Obj.flitsTx]
    omega
  remap := by
    obtain ⟨hlo, hhi, hne⟩ := isPlan_range h
    exact hne
  logical q hq := isPlan_ne_port h hq (by decide)
  plane b := by
    obtain ⟨hlo, hhi, -⟩ := isPlan_range h
    simp only [Obj.planePort]
    omega

/-- The parts that a plan object changes, its own object among those it may set. -/
def planScope : Scope := ⟨[.link, .coll, .cross, .start], fun _ => True⟩

theorem State.planWrite_scope (s : State) (k v : Nat) : Within planScope s (s.planWrite k v) :=
  State.planWrite_within (by simp [planScope]) (by simp [planScope]) (by simp [planScope]) (by simp [planScope]) (.refl _ _)
    (fun _ => trivial) (fun _ => trivial) (fun _ => trivial) (fun _ => trivial) (fun _ => trivial) (fun _ => trivial) trivial

/-- What a plan object sets, and what it leaves. -/
theorem State.planWrite_fields {v : Nat} (s : State) (h : isPlan k = true) :
    (s.planWrite k v).rd k = v ∧ (s.planWrite k v).tile = s.tile ∧ (s.planWrite k v).staged = s.staged ∧
    ∀ p : Fin 16, s.portIs p psDown = true → ((s.planWrite k v).port p).planDue = true ∧ ((s.planWrite k v).port p).plan = (s.port p).plan := by
  have hw := s.planWrite_scope k v
  have hc : Passes k ((List.range 16).foldl State.planPort (s.wr k v)) (s.planWrite k v) :=
    State.classify_passes (.refl _ _) (offIds_plan h) (fun _ hq => isPlan_ne_port h hq (by decide)) (fun _ hq => isPlan_ne_port h hq (by decide))
  refine ⟨?_, hw.tile_eq (by simp [planScope]) (by simp [planScope]) (by simp [planScope]), (hw.same .staged).resolve_left (by simp [planScope]),
    fun p hd => ?_⟩
  · rw [hc.obj, State.planPorts_rd, State.rd_wr_self]
  · have hst : (s.wr k v).portIs p psDown = true :=
      (State.portIs_congr (State.rd_wr_ne (isPlan_ne_port h p.isLt (by decide)).symm)).trans hd
    obtain ⟨hplan, hdue⟩ := State.planPorts_down (List.range 16) (s.wr k v) hst
    exact ⟨(Port.of_lasting Port.planDue (hc.ports p)).trans (hdue (.inl (List.mem_range.2 p.isLt))),
      (Port.of_lasting Port.plan (hc.ports p)).trans hplan⟩

end Sys2Proof.Machine
end

section
/-! SUPPORT. What each kind of frame makes of the state, and the statement on frames. -/
namespace Sys2Proof.Machine

variable {s u : State} {src : Src} {pdu : Bytes} {held k n : Nat} {x : Item} {xs : List Item}

/-! ### Each kind of frame -/

theorem State.readFrame_eq (h : requestItems pdu 1 = some xs) : s.readFrame pdu =
    some (s.account, replyPdu pdu xs.length 0 (s.account.fillReply (pduField pdu 7 1 / 2 % 2 == 1) (1016 - 8 * xs.length) xs)) := by
  rw [State.readFrame, h, Option.map_some]

theorem State.readFrame_none (h : requestItems pdu 1 = none) : s.readFrame pdu = none := by rw [State.readFrame, h, Option.map_none]

/-- The items of a reply to a write, with their statuses. -/
def statusItems (xs : List Item) (sts : List Nat) : Bytes := (xs.zip sts).flatMap fun (x, st) => itemBytes x.idx x.sub x.ty st []

theorem State.writeFrame_each (h : requestItems pdu 2 = some xs) (ha : pduField pdu 7 1 % 2 = 0) : s.writeFrame src pdu =
    some ((s.account.writeEach src xs).1, replyPdu pdu xs.length 0 (statusItems xs (s.account.writeEach src xs).2)) := by
  rw [State.writeFrame, h, Option.map_some, if_neg (by omega)]
  rfl

theorem State.writeFrame_all (h : requestItems pdu 2 = some xs) (ha : pduField pdu 7 1 % 2 = 1) : s.writeFrame src pdu =
    some ((s.account.writeAll src xs).1, replyPdu pdu xs.length 0 (statusItems xs (s.account.writeAll src xs).2)) := by
  rw [State.writeFrame, h, Option.map_some, if_pos ha]
  rfl

theorem State.writeFrame_none (h : requestItems pdu 2 = none) : s.writeFrame src pdu = none := by rw [State.writeFrame, h, Option.map_none]

theorem State.writeAll_ok (h : (s.checkAll src xs).all (· == 0) = true) :
    s.writeAll src xs = (xs.foldl (fun s x => s.applyItem src x) s, s.checkAll src xs) := if_pos h

theorem State.writeAll_failing (h : (s.checkAll src xs).all (· == 0) = false) : s.writeAll src xs =
    (s.count Obj.dictRejected ((s.checkAll src xs).filter (· != 0)).length, (s.checkAll src xs).map fun st => if st = 0 then 0x0C else st) :=
  if_neg (by simp [h])

/-- One item that passes its checks is applied, in an atomic frame or not. -/
theorem State.writeFrame_one (h : requestItems pdu 2 = some [x]) (hst : s.account.itemStatus src x = 0) : s.writeFrame src pdu =
    some (s.account.applyItem src x, replyPdu pdu 1 0 (itemBytes x.idx x.sub x.ty 0 [])) := by
  obtain ha | ha := Nat.mod_two_eq_zero_or_one (pduField pdu 7 1)
  · rw [State.writeFrame_each h ha]
    simp [State.writeEach, hst, statusItems]
  · have hc : s.account.checkAll src [x] = [0] := by simp [State.checkAll, hst]
    rw [State.writeFrame_all h ha, State.writeAll_ok (by simp [hc]), hc]
    simp [statusItems]

/-- One item that fails is answered with its status, and counted. -/
theorem State.writeFrame_rejected (h : requestItems pdu 2 = some [x]) (ha : pduField pdu 7 1 % 2 = 0) (hst : s.account.itemStatus src x ≠ 0) :
    s.writeFrame src pdu = some (s.account.count Obj.dictRejected 1,
      replyPdu pdu 1 0 (itemBytes x.idx x.sub x.ty (s.account.itemStatus src x) [])) := by
  rw [State.writeFrame_each h ha]
  simp [State.writeEach, hst, statusItems]

theorem State.logRead_none (h : logRequest pdu = none) : s.logRead pdu = none := by rw [State.logRead, h, Option.map_none]

/-- A log read covers the records that it returns. -/
theorem State.logRead_fields {f a : Nat} {rs : List EventRec} (h : logRequest pdu = some (f, n)) (hl : s.logFrom f n = (a, rs)) :
    ∃ t, s.logRead pdu = some (t, replyPdu pdu 0 0 (p32 a ++ p8 rs.length ++ [0, 0, 0] ++ rs.flatMap EventRec.bytes)) ∧ t.out = s.out ∧
      t.tile = s.tile ∧ t.dict.log = s.dict.log.map fun r => if rs.any fun x => x.evseq == r.evseq then { r with covered := true } else r := by
  rw [State.logRead, h, Option.map_some]
  dsimp only
  rw [hl]
  exact ⟨_, rfl, rfl, rfl, rfl⟩

/-- The records of a log with those of some sequences covered. -/
theorem covered_of_mem_map {l rs : List EventRec} {r : EventRec}
    (h : r ∈ l.map fun r => if rs.any fun x => x.evseq == r.evseq then { r with covered := true } else r) (hr : ∃ x ∈ rs, x.evseq = r.evseq) :
    r.covered = true := by
  obtain ⟨y, -, rfl⟩ := List.mem_map.1 h
  split
  · rfl
  · next hc =>
    rw [if_neg hc] at hr
    obtain ⟨x, hx, he⟩ := hr
    exact absurd (List.any_eq_true.2 ⟨x, hx, by simp [he]⟩) hc

theorem State.discover_eq (h : headerOk pdu 6 = true) (hl : pdu.length = 8) (hn : pduField pdu 6 1 = 0) :
    s.discover pdu = some (s, replyPdu pdu 4 0 (s.fillReply false 984 discoverItems)) := if_pos ⟨h, hl, hn⟩

theorem State.discover_none (h : ¬ (headerOk pdu 6 = true ∧ pdu.length = 8 ∧ pduField pdu 6 1 = 0)) : s.discover pdu = none := if_neg h

/-! ### The commands -/

theorem exec_dictRead : exec (.dictRead src pdu held) s = .next (s.receive src pdu held fun s => s.readFrame pdu) := rfl
theorem exec_dictWrite : exec (.dictWrite src pdu held) s = .next (s.receive src pdu held fun s => s.writeFrame src pdu) := rfl
theorem exec_logRead : exec (.logRead src pdu held) s = .next (s.receive src pdu held fun s => s.logRead pdu) := rfl
theorem exec_discover : exec (.discover src pdu held) s = .next (s.receive src pdu held fun s => s.discover pdu) := rfl

/-- A write of one item that passes its checks. -/
theorem State.receive_one (hs : s.standby = true) (hh : held < 8) (hk : s.keptReply src pdu = none) (hx : requestItems pdu 2 = some [x])
    (hst : (s.heard src pdu).account.itemStatus src x = 0) : s.receive src pdu held (fun s => s.writeFrame src pdu) =
      ((s.heard src pdu).account.applyItem src x).answer src pdu (replyPdu pdu 1 0 (itemBytes x.idx x.sub x.ty 0 [])) :=
  State.receive_served hs hh hk (State.writeFrame_one hx hst)

/-- The object of an item that passes its checks is none that the frame itself counts in. -/
theorem State.itemStatus_answer (hx : requestItems pdu 2 = some [x]) (hst : s.itemStatus src x = 0) {b : Bytes} :
    (u.answer src pdu b).rd x.key = u.rd x.key :=
  State.rd_answer (State.itemStatus_key_ne hst (requestItems_sub hx (List.mem_singleton_self x)))

/-- The state of a port is none of the objects that a frame counts in. -/
theorem portState_unserved {p : Nat} (hp : p < 16) : Obj.portState p ∉ servingKeys := by
  simp only [servingKeys, List.mem_cons, List.not_mem_nil, or_false, Obj.portState, Obj.dictFramesRx, Obj.throttledMs, Obj.followingMs,
    Obj.e2DeferredMs]
  omega

/-! ### The statement -/

/-- Settles O33, clause by clause: what is heard and counted before a frame is served reads and changes nothing that the frame asks for. -/
theorem dictionaryFramesAreServed : Obligations.DictionaryFramesAreServed := by
  unfold Obligations.DictionaryFramesAreServed
  refine ⟨?read, ?readOff, ?readNinth, ?readRepeat, ?readMalformed, ?one, ?plain, ?mode, ?plan, ?rejected, ?each, ?atomic, ?failing, ?writeOff,
    ?writeNinth, ?writeRepeat, ?writeMalformed, ?log, ?logOff, ?logNinth, ?logRepeat, ?logMalformed, ?discover, ?discoverOff, ?discoverNinth,
    ?discoverRepeat, ?discoverMalformed⟩
  case read =>
    intro s src pdu held xs hs hh hk hx
    have ha := s.serving_attends src pdu
    refine ⟨_, exec_dictRead, ?_⟩
    rw [State.receive_served hs hh hk (State.readFrame_eq hx), State.answer_out, State.answer_cmd, State.answer_tile, State.answer_tier,
      State.answer_staged]
    exact ⟨congrArg (_ :: ·) ha.out, ha.cmd, ha.tile, ha.tier, ha.staged⟩
  case one => exact fun s src pdu held x hs hh hk hx hst => ⟨_, exec_dictWrite, State.receive_one hs hh hk hx hst⟩
  case plain =>
    intro s src pdu held x hs hh hk hx hst hwa hm hp hz hsl ht
    have ha := s.serving_attends src pdu
    have hdiv := Item.key_div (requestItems_sub hx (List.mem_singleton_self x))
    refine ⟨_, exec_dictWrite, ?_⟩
    rw [State.receive_one hs hh hk hx hst, State.applyItem_value hwa, State.setValue_plain hm hp (by rwa [hdiv]) (by rwa [hdiv]) ht,
      State.itemStatus_answer hx hst, State.rd_wr_self, State.answer_out, State.answer_tile, State.answer_staged]
    exact ⟨rfl, congrArg (_ :: ·) ha.out, ha.tile, ha.staged⟩
  case mode =>
    intro s src pdu held x hs hh hk hx hst hwa hm
    have ha := s.serving_attends src pdu
    have hrd := ha.rd _ (State.itemStatus_unserved hst (requestItems_sub hx (List.mem_singleton_self x)))
    refine ⟨_, exec_dictWrite, ?_⟩
    rw [State.receive_one hs hh hk hx hst, State.applyItem_value hwa, State.setValue_mode hm, State.itemStatus_answer hx hst, State.answer_out,
      State.answer_tile, State.answer_staged, ← hrd, ← ha.staged]
    exact ⟨rfl, congrArg (_ :: ·) ha.out, ha.tile, rfl⟩
  case plan =>
    intro s src pdu held x hs hh hk hx hst hwa hp
    have ha := s.serving_attends src pdu
    obtain ⟨hv, ht, hg, hports⟩ := State.planWrite_fields (v := unle x.value) (s.heard src pdu).account hp
    refine ⟨_, exec_dictWrite, ?_⟩
    rw [State.receive_one hs hh hk hx hst, State.applyItem_value hwa, State.setValue_plan hp, State.itemStatus_answer hx hst,
      State.answer_tile, State.answer_staged]
    refine ⟨hv, ht.trans ha.tile, hg.trans ha.staged, fun p hd => ?_⟩
    rw [State.port_congr (State.answer_link ..), ← State.port_congr ha.link]
    exact hports p ((State.portIs_congr (ha.rd _ (portState_unserved p.isLt))).trans hd)
  case rejected =>
    intro s src pdu held x hs hh hk hx hat hst
    have ha := s.serving_attends src pdu
    refine ⟨_, exec_dictWrite, ?_⟩
    rw [State.receive_served hs hh hk (State.writeFrame_rejected hx hat hst), State.answer_out, State.answer_tile, State.answer_staged,
      State.answer_cmd, State.answer_link, State.rd_answer (by decide), State.rd_count_self, ha.rd _ (by decide)]
    exact ⟨congrArg (_ :: ·) ha.out, rfl, ha.tile, ha.staged, ha.cmd, ha.link⟩
  case each =>
    exact fun s src pdu held xs hs hh hk hx hat => ⟨_, exec_dictWrite, State.receive_served hs hh hk (State.writeFrame_each hx hat)⟩
  case atomic =>
    intro s src pdu held xs hs hh hk hx hat hok
    refine ⟨_, exec_dictWrite, (State.receive_served hs hh hk (State.writeFrame_all hx hat)).trans ?_⟩
    rw [State.writeAll_ok hok]
    rfl
  case failing =>
    intro s src pdu held xs hs hh hk hx hat hbad
    have ha := s.serving_attends src pdu
    refine ⟨_, exec_dictWrite, ?_⟩
    rw [State.receive_served hs hh hk (State.writeFrame_all hx hat), State.writeAll_failing hbad, State.answer_cmd, State.answer_tile,
      State.answer_tier, State.answer_staged, State.answer_link, State.answer_coll, State.rd_answer (by decide), State.rd_count_self,
      ha.rd _ (by decide)]
    exact ⟨rfl, ha.cmd, ha.tile, ha.tier, ha.staged, ha.link, ha.coll⟩
  case log =>
    intro s src pdu held f n a rs hs hh hk hreq hl
    have ha := s.heard_attends src pdu
    obtain ⟨t, he, hout, htile, hlog⟩ := State.logRead_fields hreq ((ha.logFrom f n).trans hl)
    refine ⟨_, exec_logRead, ?_⟩
    rw [State.receive_served hs hh hk he, State.answer_out, State.answer_log, State.answer_tile, hlog, List.length_map, ha.log]
    exact ⟨congrArg (_ :: ·) (hout.trans ha.out), rfl, fun r hr => covered_of_mem_map hr, htile.trans ha.tile⟩
  case discover =>
    intro s src pdu held hs hh hk hop hlen hn
    have ha := s.heard_attends src pdu
    refine ⟨_, exec_discover, ?_⟩
    rw [State.receive_served hs hh hk (State.discover_eq hop hlen hn), State.answer_out, State.answer_tile, State.answer_staged]
    exact ⟨congrArg (_ :: ·) ha.out, ha.tile, ha.staged⟩
  case readOff => exact fun s src pdu held hs => ⟨_, exec_dictRead, State.receive_off hs⟩
  case writeOff => exact fun s src pdu held hs => ⟨_, exec_dictWrite, State.receive_off hs⟩
  case logOff => exact fun s src pdu held hs => ⟨_, exec_logRead, State.receive_off hs⟩
  case discoverOff => exact fun s src pdu held hs => ⟨_, exec_discover, State.receive_off hs⟩
  case readNinth => exact fun s src pdu held hs hh => ⟨_, exec_dictRead, State.receive_ninth hs hh⟩
  case writeNinth => exact fun s src pdu held hs hh => ⟨_, exec_dictWrite, State.receive_ninth hs hh⟩
  case logNinth => exact fun s src pdu held hs hh => ⟨_, exec_logRead, State.receive_ninth hs hh⟩
  case discoverNinth => exact fun s src pdu held hs hh => ⟨_, exec_discover, State.receive_ninth hs hh⟩
  case readRepeat => exact fun s src pdu held r hs hh hk => ⟨_, exec_dictRead, State.receive_repeat hs hh hk⟩
  case writeRepeat => exact fun s src pdu held r hs hh hk => ⟨_, exec_dictWrite, State.receive_repeat hs hh hk⟩
  case logRepeat => exact fun s src pdu held r hs hh hk => ⟨_, exec_logRead, State.receive_repeat hs hh hk⟩
  case discoverRepeat => exact fun s src pdu held r hs hh hk => ⟨_, exec_discover, State.receive_repeat hs hh hk⟩
  case readMalformed =>
    exact fun s src pdu held hs hh hk hx => ⟨_, exec_dictRead, State.receive_malformed hs hh hk (State.readFrame_none hx)⟩
  case writeMalformed =>
    exact fun s src pdu held hs hh hk hx => ⟨_, exec_dictWrite, State.receive_malformed hs hh hk (State.writeFrame_none hx)⟩
  case logMalformed =>
    exact fun s src pdu held hs hh hk hx => ⟨_, exec_logRead, State.receive_malformed hs hh hk (State.logRead_none hx)⟩
  case discoverMalformed =>
    exact fun s src pdu held hs hh hk hx => ⟨_, exec_discover, State.receive_malformed hs hh hk (State.discover_none hx)⟩

end Sys2Proof.Machine
end

section
/-! SUPPORT. The frames of the commands on power, heat and clocks, on the dictionary and settings, and on firmware, security and start-up. -/
namespace Sys2Proof.Machine

/-- Settles O49: each clause is the law of its command, whose conditions are that the parts and objects it names are listed. -/
theorem frameOfPowerCommands : Obligations.FrameOfPowerCommands := by
  unfold Obligations.FrameOfPowerCommands
  refine ⟨?updateMissing, ?stepCommit, ?inputOvp, ?inputOvpRelease, ?inputHigh, ?inputLow, ?inputLowPark, ?inputLowResume, ?powerFail,
    ?bellowsDemand, ?bellowsGrant, ?grantTakeEffect, ?opChangeDone, ?bellowsTimeout, ?bellowsRestart, ?estimatorUpdate, ?capCorrection,
    ?paceCeilingUpdate, ?backgroundStarved, ?sensorSample, ?sensorSuspect, ?sensorReaccept, ?thermalCeilingStep, ?thermalTrip,
    ?nandTempRead, ?trayReport, ?coolantReportsLost, ?coolantMismatch, ?flowLossAssert, ?flowLossDeassert, ?stretchRise, ?stretchStepDown,
    ?reedMasked, ?voltageLoop, ?marginLow, ?ageingRecordWrite, ?droneSync, ?poweredTimeSave⟩
  all_goals
    intros
    refine Leads.completes ?_ (exec_next _ _)
  -- the step
  case' updateMissing => apply execUpdateMissing_within
  case' stepCommit => apply execStepCommit_within
  -- the input
  case' inputOvp => apply execInputOvp_within
  case' inputOvpRelease => apply execInputOvpRelease_within
  case' inputHigh => apply execInputHigh_within
  case' inputLow => apply execInputLow_within
  case' inputLowPark => apply execInputLowPark_within
  case' inputLowResume => apply execInputLowResume_within
  case' powerFail => apply execPowerFail_within
  -- Bellows
  case' bellowsDemand => apply execBellowsDemand_within
  case' bellowsGrant => apply execBellowsGrant_within
  case' grantTakeEffect => apply execGrantTakeEffect_within
  case' opChangeDone => apply execOpChangeDone_within
  case' bellowsTimeout => apply execBellowsTimeout_within
  case' bellowsRestart => apply execBellowsRestart_within
  -- measured power and pace
  case' estimatorUpdate => apply execEstimatorUpdate_within
  case' capCorrection => apply execCapCorrection_within
  case' paceCeilingUpdate => apply execPaceCeilingUpdate_within
  case' backgroundStarved => apply execBackgroundStarved_within
  -- heat
  case' sensorSample => apply execSensorSample_within
  case' sensorSuspect => apply execSensorSuspect_within
  case' sensorReaccept => apply execSensorReaccept_within
  case' thermalCeilingStep => apply execThermalCeilingStep_within
  case' thermalTrip => apply execThermalTrip_within
  case' nandTempRead => apply execNandTempRead_within
  -- coolant
  case' trayReport => apply execTrayReport_within
  case' coolantReportsLost => apply execCoolantReportsLost_within
  case' coolantMismatch => apply execCoolantMismatch_within
  case' flowLossAssert => apply execFlowLossAssert_within
  case' flowLossDeassert => apply execFlowLossDeassert_within
  -- clocks and time
  case' stretchRise => apply execStretchRise_within
  case' stretchStepDown => apply execStretchStepDown_within
  case' reedMasked => apply execReedMasked_within
  case' voltageLoop => apply execVoltageLoop_within
  case' marginLow => apply execMarginLow_within
  case' ageingRecordWrite => apply execAgeingRecordWrite_within
  case' droneSync => apply execDroneSync_within
  case' poweredTimeSave => apply execPoweredTimeSave_within
  all_goals simp only [List.mem_cons, true_or, or_true, exists_apply_eq_apply', implies_true, Within.refl]

/-- Settles O50: each clause is the law of its command, whose conditions are that the parts and objects it names are listed. -/
theorem frameOfDictionaryCommands : Obligations.FrameOfDictionaryCommands := by
  unfold Obligations.FrameOfDictionaryCommands
  refine ⟨?dictRead, ?dictWrite, ?logRead, ?discover, ?eventIrq, ?mirrorRefresh, ?fieldLinkLost, ?mctpReassemblyTimeout, ?setEndpointId,
    ?getEndpointId, ?getMctpVersionSupport, ?getMessageTypeSupport, ?getVendorMessageSupport, ?cumClear, ?mxClear, ?castClear, ?vxClear,
    ?fabricClear, ?cmdClear, ?updClear, ?tmClear, ?bankClear, ?stClear, ?inClear, ?linkClear, ?collClear, ?ptClear, ?clkClear, ?dictClear,
    ?settingsSave, ?settingsSaveDone, ?settingsDefaults, ?flagsClear⟩
  all_goals
    intros
    refine Leads.completes ?_ (exec_next _ _)
  -- frames
  case' dictRead => apply execDictRead_within
  case' dictWrite => apply execDictWrite_within
  case' logRead => apply execLogRead_within
  case' discover => apply execDiscover_within
  -- interrupts, the mirror and MCTP
  case' eventIrq => apply execEventIrq_within
  case' mirrorRefresh => apply execMirrorRefresh_within
  case' fieldLinkLost => apply execFieldLinkLost_within
  case mctpReassemblyTimeout => exact execMctpReassemblyTimeout_within (_p := ‹HostPort›) (.refl _ _) rfl
  case' setEndpointId => apply execSetEndpointId_within
  case' getEndpointId => apply execGetEndpointId_within
  case' getMctpVersionSupport => apply execGetMctpVersionSupport_within
  case' getMessageTypeSupport => apply execGetMessageTypeSupport_within
  case' getVendorMessageSupport => apply execGetVendorMessageSupport_within
  -- clear actions
  case' cumClear => apply execCumClear_within
  case' mxClear => apply execMxClear_within
  case' castClear => apply execCastClear_within
  case' vxClear => apply execVxClear_within
  case' fabricClear => apply execFabricClear_within
  case' cmdClear => apply execCmdClear_within
  case' updClear => apply execUpdClear_within
  case' tmClear => apply execTmClear_within
  case' bankClear => apply execBankClear_within
  case' stClear => apply execStClear_within
  case' inClear => apply execInClear_within
  case' linkClear => apply execLinkClear_within
  case' collClear => apply execCollClear_within
  case' ptClear => apply execPtClear_within
  case' clkClear => apply execClkClear_within
  case' dictClear => apply execDictClear_within
  -- settings
  case' settingsSave => apply execSettingsSave_within
  case' settingsSaveDone => apply execSettingsSaveDone_within
  case' settingsDefaults => apply execSettingsDefaults_within
  -- flags
  case' flagsClear => apply execFlagsClear_within
  all_goals simp +contextual only [List.mem_cons, true_or, or_true, exists_apply_eq_apply', implies_true, Within.refl]

/-- Settles O51: each clause is the law of its command, whose conditions are that the parts and objects it names are listed. -/
theorem frameOfServiceCommands : Obligations.FrameOfServiceCommands := by
  unfold Obligations.FrameOfServiceCommands
  refine ⟨?standbyPowerGood, ?fwConfirm, ?fwRevert, ?actTickWrite, ?localActivationTick, ?fwActivation, ?trialTimeout, ?boot,
    ?pldmQueryDeviceIdentifiers, ?pldmGetFirmwareParameters, ?pldmRequestUpdate, ?pldmPassComponentTable, ?pldmUpdateComponent,
    ?pldmFirmwareData, ?pldmGetStatus, ?pldmCancelUpdateComponent, ?pldmCancelUpdate, ?pldmActivateFirmware, ?spdmGetCertificate,
    ?spdmChallenge, ?spdmGetMeasurements, ?spdmKeyExchange, ?spdmHeartbeat, ?ideKm, ?ideStopped, ?dualReport, ?vendorTestNonce,
    ?vendorTestUnlock, ?trayReadyDeassert, ?trayReadyAssert, ?modReset, ?perstAssert, ?perstRelease, ?slotIdSample, ?startupStageDone,
    ?startupStageFault, ?startupRetry, ?hostLinkDown, ?hostLinkUp, ?modResetRelease, ?doeDiscovery, ?spdmGetVersion, ?spdmGetCapabilities,
    ?spdmNegotiateAlgorithms, ?spdmGetDigests, ?spdmFinish, ?spdmEndSession, ?spdmHeartbeatTimeout⟩
  all_goals
    intros
    refine Leads.completes ?_ (exec_next _ _)
  -- power-good and firmware actions
  case' standbyPowerGood => apply execStandbyPowerGood_within
  case' fwConfirm => apply execFwConfirm_within
  case' fwRevert => apply execFwRevert_within
  case' actTickWrite => apply execActTickWrite_within
  case' localActivationTick => apply execLocalActivationTick_within
  case' fwActivation => apply execFwActivation_within
  case' trialTimeout => apply execTrialTimeout_within
  case' boot => apply execBoot_within
  -- PLDM
  case' pldmQueryDeviceIdentifiers => apply execPldmQueryDeviceIdentifiers_within
  case' pldmGetFirmwareParameters => apply execPldmGetFirmwareParameters_within
  case' pldmRequestUpdate => apply execPldmRequestUpdate_within
  case' pldmPassComponentTable => apply execPldmPassComponentTable_within
  case' pldmUpdateComponent => apply execPldmUpdateComponent_within
  case' pldmFirmwareData => apply execPldmFirmwareData_within
  case' pldmGetStatus => apply execPldmGetStatus_within
  case' pldmCancelUpdateComponent => apply execPldmCancelUpdateComponent_within
  case' pldmCancelUpdate => apply execPldmCancelUpdate_within
  case' pldmActivateFirmware => apply execPldmActivateFirmware_within
  -- SPDM and attestation
  case' spdmGetCertificate => apply execSpdmGetCertificate_within
  case' spdmChallenge => apply execSpdmChallenge_within
  case' spdmGetMeasurements => apply execSpdmGetMeasurements_within
  case' spdmKeyExchange => apply execSpdmKeyExchange_within
  case' spdmHeartbeat => apply execSpdmHeartbeat_within
  case' ideKm => apply execIdeKm_within
  case' ideStopped => apply execIdeStopped_within
  case' dualReport => apply execDualReport_within
  case' vendorTestNonce => apply execVendorTestNonce_within
  case' vendorTestUnlock => apply execVendorTestUnlock_within
  -- pins, start-up and host links
  case' trayReadyDeassert => apply execTrayReadyDeassert_within
  case' trayReadyAssert => apply execTrayReadyAssert_within
  case' modReset => apply execModReset_within
  case' perstAssert => apply execPerstAssert_within
  case' perstRelease => apply execPerstRelease_within
  case' slotIdSample => apply execSlotIdSample_within
  case' startupStageDone => apply execStartupStageDone_within
  case' startupStageFault => apply execStartupStageFault_within
  case' startupRetry => apply execStartupRetry_within
  case' hostLinkDown => apply execHostLinkDown_within
  case' hostLinkUp => apply execHostLinkUp_within
  case' modResetRelease => apply execModResetRelease_within
  -- DOE and the rest of SPDM
  case' doeDiscovery => apply execDoeDiscovery_within
  case' spdmGetVersion => apply execSpdmGetVersion_within
  case' spdmGetCapabilities => apply execSpdmGetCapabilities_within
  case' spdmNegotiateAlgorithms => apply execSpdmNegotiateAlgorithms_within
  case' spdmGetDigests => apply execSpdmGetDigests_within
  case' spdmFinish => apply execSpdmFinish_within
  case' spdmEndSession => apply execSpdmEndSession_within
  case' spdmHeartbeatTimeout => apply execSpdmHeartbeatTimeout_within
  all_goals simp only [List.mem_cons, true_or, or_true, exists_apply_eq_apply', implies_true, Within.refl]

end Sys2Proof.Machine
end

section
/-! SUPPORT. A dual-clock queue under any two clocks: its pointers, and the copies of them on their way through the synchronisers, as counts of the
writes and reads so far, and the statement on it. -/
namespace Sys2Proof.Machine

/-! ### Gray pointers -/

/-- The pointer after `n` entries: its ring holds 32. -/
def grayAt (n : Nat) : Nat := gray (n % 32)

theorem ungray_gray_lt : ∀ n < 32, ungray (gray n) = n := by decide

theorem grayNext_grayAt (n : Nat) : grayNext (grayAt n) = grayAt (n + 1) := by
  rw [grayNext, grayAt, grayAt, ungray_gray_lt _ (Nat.mod_lt n (by decide)), Nat.mod_add_mod]

/-- Two pointers at most 31 entries apart are equal only where the counts are. -/
theorem grayAt_inj {a b : Nat} (hab : b ≤ a) (hle : a ≤ b + 31) : grayAt a = grayAt b ↔ a = b := by
  refine ⟨fun h => ?_, fun h => h ▸ rfl⟩
  have hmod : a % 32 = b % 32 := by
    rw [← ungray_gray_lt _ (Nat.mod_lt a (by decide)), ← ungray_gray_lt _ (Nat.mod_lt b (by decide))]
    exact congrArg ungray h
  omega

/-- The entries that a pointer has passed since an earlier one are read off the two codes. -/
theorem ungray_grayAt_sub {a b : Nat} (hab : b ≤ a) (hle : a ≤ b + 31) : (ungray (grayAt a) + 32 - ungray (grayAt b)) % 32 = a - b := by
  rw [grayAt, grayAt, ungray_gray_lt _ (Nat.mod_lt a (by decide)), ungray_gray_lt _ (Nat.mod_lt b (by decide))]
  omega

/-- A step of the pointer changes one bit of five. -/
theorem grayAt_xor_next (n : Nat) : ∃ i < 5, grayAt n ^^^ grayNext (grayAt n) = 2 ^ i := by
  have key : ∀ m < 32, ∃ i < 5, gray m ^^^ grayNext (gray m) = 2 ^ i := by decide
  exact key _ (Nat.mod_lt n (by decide))

/-! ### What every event keeps -/

/-- A queue after `w` writes and `r` reads: the receiver's flip-flops hold the pointer after `w₁`, `w₂` and `w₃` writes, the sender's that after
`r₁`, `r₂` and `r₃` reads, none ahead of the one before it; each entry written and not read is held, and the sender has a credit for each other
place but those whose reading it has not been shown. -/
structure Dcq.Counts (d : Dcq) (w w₁ w₂ w₃ r r₁ r₂ r₃ : Nat) : Prop where
  wr : d.wr = grayAt w
  rd : d.rd = grayAt r
  wrSync : d.wrSync = [grayAt w₁, grayAt w₂, grayAt w₃]
  rdSync : d.rdSync = [grayAt r₁, grayAt r₂, grayAt r₃]
  ents : r + d.ents.length = w
  credits : d.credits + w = 16 + r₃
  writes : r ≤ w₃ ∧ w₃ ≤ w₂ ∧ w₂ ≤ w₁ ∧ w₁ ≤ w
  reads : r₃ ≤ r₂ ∧ r₂ ≤ r₁ ∧ r₁ ≤ r

/-- A queue with the entries read and written so far: its pointers stand for counts of them, and none is lost, doubled or out of order. -/
def Dcq.Keeps (d : Dcq) (taken put : List Nat) : Prop :=
  put = taken ++ d.ents ∧ ∃ w w₁ w₂ w₃ r r₁ r₂ r₃, d.Counts w w₁ w₂ w₃ r r₁ r₂ r₃

section
variable {d : Dcq} {w w₁ w₂ w₃ r r₁ r₂ r₃ : Nat}

theorem Dcq.Counts.reset : Dcq.reset.Counts 0 0 0 0 0 0 0 0 := ⟨rfl, rfl, rfl, rfl, rfl, rfl, by decide, by decide⟩

/-- An entry is shown exactly where the last flip-flop is ahead of the reads. -/
theorem Dcq.Counts.ready_iff (h : d.Counts w w₁ w₂ w₃ r r₁ r₂ r₃) : d.ready = true ↔ r < w₃ := by
  obtain ⟨-, hrd, hws, -, -, hcr, hws', hrs'⟩ := h
  have hinj : grayAt w₃ = grayAt r ↔ w₃ = r := grayAt_inj (by omega) (by omega)
  simp only [Dcq.ready, hws, hrd, List.getD_cons_succ, List.getD_cons_zero, bne_iff_ne, ne_eq, hinj]
  omega

theorem Dcq.Counts.write (h : d.Counts w w₁ w₂ w₃ r r₁ r₂ r₃) (hc : d.credits ≠ 0) (v : Nat) :
    (d.write v).Counts (w + 1) w₁ w₂ w₃ r r₁ r₂ r₃ := by
  obtain ⟨hwr, hrd, hws, hrs, hen, hcr, hws', hrs'⟩ := h
  rw [Dcq.write, if_neg hc]
  refine ⟨?_, hrd, hws, hrs, ?_, ?_, by omega, hrs'⟩
  · rw [hwr, grayNext_grayAt]
  · rw [List.length_append, List.length_singleton]
    omega
  · show d.credits - 1 + (w + 1) = 16 + r₃
    omega

theorem Dcq.Counts.read (h : d.Counts w w₁ w₂ w₃ r r₁ r₂ r₃) (hr : d.ready = true) : d.read.Counts w w₁ w₂ w₃ (r + 1) r₁ r₂ r₃ := by
  have hlt := h.ready_iff.1 hr
  obtain ⟨hwr, hrd, hws, hrs, hen, hcr, hws', hrs'⟩ := h
  rw [Dcq.read, if_pos hr]
  refine ⟨hwr, ?_, hws, hrs, ?_, hcr, by omega, by omega⟩
  · rw [hrd, grayNext_grayAt]
  · rw [List.length_drop]
    omega

theorem Dcq.Counts.rxClock (h : d.Counts w w₁ w₂ w₃ r r₁ r₂ r₃) : d.rxClock.Counts w w w₁ w₂ r r₁ r₂ r₃ := by
  obtain ⟨hwr, hrd, hws, hrs, hen, hcr, hws', hrs'⟩ := h
  exact ⟨hwr, hrd, by rw [Dcq.rxClock, hws, hwr]; rfl, hrs, hen, hcr, by omega, hrs'⟩

/-- The credits that return are those of the reads the last flip-flop newly shows. -/
theorem Dcq.Counts.txClock (h : d.Counts w w₁ w₂ w₃ r r₁ r₂ r₃) : d.txClock.Counts w w₁ w₂ w₃ r r r₁ r₂ := by
  obtain ⟨hwr, hrd, hws, hrs, hen, hcr, hws', hrs'⟩ := h
  refine ⟨hwr, hrd, hws, by rw [Dcq.txClock, hrs, hrd]; rfl, hen, ?_, hws', by omega⟩
  show d.credits + (ungray ((d.rd :: d.rdSync.take 2).getD 2 0) + 32 - ungray (d.rdSync.getD 2 0)) % 32 + w = 16 + r₂
  rw [hrs]
  show d.credits + (ungray (grayAt r₂) + 32 - ungray (grayAt r₃)) % 32 + w = 16 + r₂
  rw [ungray_grayAt_sub (by omega) (by omega)]
  omega

end

/-- Every event keeps it. -/
theorem Dcq.Keeps.event {d : Dcq} {taken put : List Nat} (h : d.Keeps taken put) (e : DcqEvent) :
    ∃ d' taken' put', Dcq.event (d, taken, put) e = (d', taken', put') ∧ d'.Keeps taken' put' := by
  obtain ⟨hput, w, w₁, w₂, w₃, r, r₁, r₂, r₃, hc⟩ := h
  cases e with
  | write v =>
    refine ⟨_, _, _, rfl, ?_⟩
    by_cases h0 : d.credits = 0
    · rw [if_pos h0, Dcq.write, if_pos h0]
      exact ⟨hput, w, w₁, w₂, w₃, r, r₁, r₂, r₃, hc⟩
    · refine ⟨?_, w + 1, w₁, w₂, w₃, r, r₁, r₂, r₃, hc.write h0 v⟩
      rw [if_neg h0, Dcq.write, if_neg h0, hput, List.append_assoc]
  | read =>
    refine ⟨_, _, _, rfl, ?_⟩
    by_cases hr : d.ready = true
    · refine ⟨?_, w, w₁, w₂, w₃, r + 1, r₁, r₂, r₃, hc.read hr⟩
      rw [if_pos hr, Dcq.read, if_pos hr, hput, List.append_assoc, List.take_append_drop]
    · rw [if_neg hr, Dcq.read, if_neg hr]
      exact ⟨hput, w, w₁, w₂, w₃, r, r₁, r₂, r₃, hc⟩
  | rxClock => exact ⟨_, _, _, rfl, hput, w, w, w₁, w₂, r, r₁, r₂, r₃, hc.rxClock⟩
  | txClock => exact ⟨_, _, _, rfl, hput, w, w₁, w₂, w₃, r, r, r₁, r₂, hc.txClock⟩

/-- Every sequence of events keeps it. -/
theorem Dcq.Keeps.events {d : Dcq} {taken put : List Nat} (h : d.Keeps taken put) (l : List DcqEvent) :
    ∃ d' taken' put', l.foldl Dcq.event (d, taken, put) = (d', taken', put') ∧ d'.Keeps taken' put' := by
  induction l generalizing d taken put with
  | nil => exact ⟨d, taken, put, rfl, h⟩
  | cons e l ih =>
    obtain ⟨d₁, taken₁, put₁, he, h₁⟩ := h.event e
    rw [List.foldl_cons, he]
    exact ih h₁

/-! ### The statement -/

/-- Settles O53: the counts bound the entries and the credits, and three cycles bring a pointer through its synchroniser. -/
theorem queueBetweenClocksKeepsOrder : Obligations.QueueBetweenClocksKeepsOrder := by
  unfold Obligations.QueueBetweenClocksKeepsOrder
  intro l
  obtain ⟨d, taken, put, hl, hput, w, w₁, w₂, w₃, r, r₁, r₂, r₃, h⟩ :=
    Dcq.Keeps.events (d := Dcq.reset) (taken := []) (put := []) ⟨rfl, 0, 0, 0, 0, 0, 0, 0, 0, .reset⟩ l
  have hready := h.ready_iff
  have hshown := h.rxClock.rxClock.rxClock.ready_iff
  have hcredits := h.txClock.txClock.txClock.credits
  obtain ⟨hwr, hrd, -, -, hents, hcr, hwrites, hreads⟩ := h
  have hheld : d.ents ≠ [] ↔ r < w := by
    rw [← List.length_pos_iff]
    omega
  refine ⟨d, taken, put, hl, by omega, by omega, hput, fun hr => ?_, ?_, ?_, fun hne => ?_, by omega⟩
  · have := hready.1 hr
    exact hheld.2 (by omega)
  · rw [hwr]
    exact grayAt_xor_next w
  · rw [hrd]
    exact grayAt_xor_next r
  · exact hshown.2 (hheld.1 hne)

end Sys2Proof.Machine
end

section
/-! SUPPORT. What events leave of the dictionary's own state, and the episodes that are open. -/
namespace Sys2Proof.Machine

variable {s t : State} {code inst : Nat} {ps : List Bytes}

/-! ### Records of events (R427 to R432) -/

theorem State.announce_dict (s : State) (r : EventRec) : ∃ a b, (s.announce r).dict = { s.dict with irqA := a, irqB := b } := by
  have key : ∀ (l : List Src) (b : Bytes) (v : State), (l.foldl (fun s d => (s.emit (.notice d b)).count Obj.dictFramesTx 1) v).dict = v.dict := by
    intro l b
    induction l with
    | nil => exact fun v => rfl
    | cons d l ih => exact fun v => (ih _).trans rfl
  simp only [State.announce, key]
  exact ⟨_, _, rfl⟩

theorem State.form_dict (s : State) (code : Nat) (ps : List Bytes) :
    ∃ l e a b, (s.form code ps).dict = { s.dict with log := l, evseq := e, irqA := a, irqB := b } := by
  generalize e : s.form code ps = t
  unfold State.form at e
  extract_lets +onlyGivenNames -underBinder -merge n r a b _ c at e
  obtain ⟨x, y, h⟩ := c.announce_dict r
  exact ⟨_, _, x, y, e ▸ h⟩

/-- An event changes the log, the place of its next record and the timers of the interrupts. -/
theorem State.raise_dict (s : State) (code : Nat) (ps : List Bytes) :
    ∃ l e o a b, (s.raise code ps).dict = { s.dict with log := l, evseq := e, overrun := o, irqA := a, irqB := b } := by
  generalize e : s.raise code ps = t
  unfold State.raise at e
  extract_lets +onlyGivenNames -underBinder -merge l a _ b at e
  obtain ⟨l₁, e₁, a₁, b₁, h₁⟩ := s.form_dict code ps
  have ha : a.dict = _ := h₁
  subst e
  split
  · obtain ⟨l₂, e₂, a₂, b₂, h₂⟩ := b.form_dict Ev.logOverrun []
    refine ⟨l₂, e₂, true, a₂, b₂, h₂.trans ?_⟩
    show { ({ a.dict with overrun := true } : DictState) with log := l₂, evseq := e₂, irqA := a₂, irqB := b₂ } = _
    rw [ha]
  · exact ⟨l₁, e₁, s.dict.overrun, a₁, b₁, h₁⟩

/-- A part of the dictionary's state that events leave as it is. -/
theorem State.of_raise_dict {α : Type} (f : DictState → α) (s : State) (code : Nat) (ps : List Bytes)
    (hf : ∀ (d : DictState) l e o a b, f { d with log := l, evseq := e, overrun := o, irqA := a, irqB := b } = f d := by
      exact fun _ _ _ _ _ _ => rfl) :
    f (s.raise code ps).dict = f s.dict := by
  obtain ⟨l, e, o, a, b, h⟩ := s.raise_dict code ps
  rw [h, hf]

@[simp] theorem State.raise_episodes : (s.raise code ps).dict.episodes = s.dict.episodes := State.of_raise_dict DictState.episodes ..
@[simp] theorem State.raise_flash : (s.raise code ps).dict.flash = s.dict.flash := State.of_raise_dict DictState.flash ..
@[simp] theorem State.raise_stored : (s.raise code ps).dict.stored = s.dict.stored := State.of_raise_dict DictState.stored ..
@[simp] theorem State.raise_saving : (s.raise code ps).dict.saving = s.dict.saving := State.of_raise_dict DictState.saving ..

/-- The state of the dictionary apart from its event log and the signals of it. -/
def DictState.offLog (d : DictState) : DictState := { d with log := [], evseq := 0, overrun := false, irqA := none, irqB := none }

@[simp] theorem State.raise_offLog : (s.raise code ps).dict.offLog = s.dict.offLog := State.of_raise_dict DictState.offLog ..

/-! ### Episodes (R431) -/

theorem mem_setIns {l : List Nat} {j k : Nat} : k ∈ setIns l j ↔ k = j ∨ k ∈ l := by
  induction l with
  | nil => simp [setIns]
  | cons i l ih =>
    simp only [setIns]
    split
    · next h => simp [h]
    · split
      · simp
      · simp [ih, or_left_comm]

theorem mem_setDel {l : List Nat} {j k : Nat} : k ∈ setDel l j ↔ k ∈ l ∧ k ≠ j := by simp [setDel]

theorem State.inEpisode_congr (h : t.dict.episodes = s.dict.episodes) : t.inEpisode code inst = s.inEpisode code inst := by
  rw [State.inEpisode, State.inEpisode, h]

theorem State.inEpisode_iff : s.inEpisode code inst = true ↔ epKey code inst ∈ s.dict.episodes := List.contains_iff_mem

theorem State.raiseOnce_open (h : s.inEpisode code inst = true) : s.raiseOnce code inst ps = s := if_pos h

/-- Outside its episode an event is raised. -/
theorem State.raiseOnce_closed (h : s.inEpisode code inst = false) : s.raiseOnce code inst ps =
    { s.raise code ps with dict := { (s.raise code ps).dict with
      episodes := setIns (s.raise code ps).dict.episodes (epKey code inst) } } :=
  if_neg (by simpa [State.inEpisode] using h)

theorem State.raiseOnce_episodes : (s.raiseOnce code inst ps).dict.episodes =
    if s.inEpisode code inst then s.dict.episodes else setIns s.dict.episodes (epKey code inst) := by
  split
  · next h => rw [State.raiseOnce_open h]
  · next h =>
    rw [State.raiseOnce_closed (by simpa using h), ← State.raise_episodes (s := s) (code := code) (ps := ps)]

@[simp] theorem State.inEpisode_raise {c i : Nat} : (s.raise code ps).inEpisode c i = s.inEpisode c i := State.inEpisode_congr State.raise_episodes

@[simp] theorem State.inEpisode_raiseOnce_self : (s.raiseOnce code inst ps).inEpisode code inst = true := by
  rw [State.inEpisode_iff, State.raiseOnce_episodes]
  split
  · next h => exact State.inEpisode_iff.1 h
  · exact mem_setIns_self _ _

theorem State.inEpisode_raiseOnce_ne {c i : Nat} (h : epKey c i ≠ epKey code inst) :
    (s.raiseOnce code inst ps).inEpisode c i = s.inEpisode c i := by
  rw [Bool.eq_iff_iff, State.inEpisode_iff, State.inEpisode_iff, State.raiseOnce_episodes]
  split
  · rfl
  · rw [mem_setIns, or_iff_right h]

/-- An episode that is open stays open as others begin. -/
theorem State.inEpisode_raiseOnce {c i : Nat} (h : s.inEpisode c i = true) : (s.raiseOnce code inst ps).inEpisode c i = true := by
  by_cases e : epKey c i = epKey code inst
  · have := State.inEpisode_raiseOnce_self (s := s) (code := code) (inst := inst) (ps := ps)
    rwa [State.inEpisode, ← e] at this
  · rwa [State.inEpisode_raiseOnce_ne e]

@[simp] theorem State.inEpisode_endEpisode_self : (s.endEpisode code inst).inEpisode code inst = false := by
  rw [Bool.eq_false_iff, Ne, State.inEpisode_iff]
  exact fun h => (mem_setDel.1 h).2 rfl

theorem State.inEpisode_endEpisode_ne {c i : Nat} (h : epKey c i ≠ epKey code inst) :
    (s.endEpisode code inst).inEpisode c i = s.inEpisode c i := by
  rw [Bool.eq_iff_iff, State.inEpisode_iff, State.inEpisode_iff]
  exact mem_setDel.trans (and_iff_left h)

@[simp] theorem State.rd_endEpisode {k : Nat} : (s.endEpisode code inst).rd k = s.rd k := rfl

/-- The event of an episode that begins counts itself once. -/
theorem State.rd_raiseOnce_occurrences (h : s.inEpisode code inst = false) (hc : evOk code = true := by decide)
    (hne : code ≠ Ev.logOverrun := by decide) :
    (s.raiseOnce code inst ps).rd (Obj.occurrences (code / 256 - 1) (code % 256)) =
      (s.rd (Obj.occurrences (code / 256 - 1) (code % 256)) + 1) % 2 ^ 32 := by
  rw [State.raiseOnce_closed h]
  exact State.rd_raise_occurrences hc hne

/-! ### Events kept in service flash (R433) -/

theorem State.raiseKept_flash : (s.raiseKept code ps).dict.flash = s.dict.flash ++
    [{ code := code, session := (s.raise code ps).rd Obj.powerSession, ticks := s.now, params := packParams 40 ps, reported := false }] := by
  rw [State.raiseKept, ← State.raise_flash (s := s) (code := code) (ps := ps), ← State.raise_now s code ps]

theorem State.rd_raiseKept {k : Nat} (hk : eventKey k = false) (hc : 256 ≤ code ∧ code < 4096 := by decide) :
    (s.raiseKept code ps).rd k = s.rd k := State.rd_raise hk hc

end Sys2Proof.Machine
end

section
/-! SUPPORT. What taking a power state, and what ports do in it, leaves as it is. -/
namespace Sys2Proof.Machine

variable {s t u : State} {j k n p b : Nat}

/-! ### Ports as the power state changes (R324, R342, R370, R383) -/

/-- An event changes the frames sent, the flags of its category, its own count and that of log-overrun. -/
theorem State.rd_raise_ne {code j : Nat} {ps : List Bytes} (hj : j ≠ Obj.dictFramesTx) (hf : j ≠ Obj.flags (code / 256))
    (ho : j ≠ Obj.occurrences (code / 256 - 1) (code % 256)) (hf' : j ≠ Obj.flags (Ev.logOverrun / 256))
    (ho' : j ≠ Obj.occurrences (Ev.logOverrun / 256 - 1) (Ev.logOverrun % 256)) : (s.raise code ps).rd j = s.rd j := by
  unfold State.raise
  extract_lets lost a _ b
  split
  · exact (State.rd_form_ne (s := b) hj hf' ho').trans (State.rd_form_ne hj hf ho)
  · exact State.rd_form_ne hj hf ho

/-- The events that ports raise as a power state is taken, and log-overrun. -/
def portEvents : List Nat := [Ev.linkUp, Ev.linkDown, Ev.linkRetrain, Ev.linkFailed, Ev.cableRemapped, Ev.logOverrun]

/-- The objects of those events. -/
def portEventKey (k : Nat) : Bool :=
  decide (k / 256 = 0x9100) || decide (k = Obj.dictFramesTx) || portEvents.any fun c => decide (k = Obj.occurrences (c / 256 - 1) (c % 256))

/-- The objects that ports change as a power state is taken: those of the ports (0x5000 to 0x500F) and planes (0x5013), the count of remaps, the
flits sent (0xA060 to 0xA06F), the messages sent again, and those of their events. -/
def portKey (k : Nat) : Bool :=
  portEventKey k || decide (k = Obj.collBytesTx) || decide (k = Obj.collResends) || decide (k = Obj.remapCount) || decide (0x500000 ≤ k ∧ k < 0x501000) ||
    decide (0x501300 ≤ k ∧ k < 0x501500) ||
    decide (0xa06000 ≤ k ∧ k < 0xa07000)

/-- The state of the power groups apart from the array rail as it turns. -/
def PowerState.offRail (p : PowerState) : PowerState := { p with rail := 0, railFrom := 0, railAt := 0 }

/-- No queue of the array holds or has passed anything since retention was left (R393). -/
def State.ArrayFresh (s : State) : Prop := ∀ x ∈ s.cross.queues, arrayKey x.1 = false

/-- `t` is `s` but for its links, the objects of `portKey`, the rail, and what an event record changes: power, time, the dictionary beside its log
and the pins stand, and the array's queues stay fresh. -/
structure Parks (s t : State) : Prop where
  objs : ∀ k, portKey k = false → t.rd k = s.rd k
  power : t.power.offRail = s.power.offRail
  now : t.now = s.now
  dict : t.dict.offLog = s.dict.offLog
  start : { t.start with fieldLog := [] } = { s.start with fieldLog := [] }
  fresh : s.ArrayFresh → t.ArrayFresh

theorem rd_raise_portEvents {code : Nat} {ps : List Bytes} (hk : portEventKey k = false) (hc : code ∈ portEvents) :
    (s.raise code ps).rd k = s.rd k := by
  simp only [portEventKey, Bool.or_eq_false_iff, decide_eq_false_iff_not, List.any_eq_false, decide_eq_true_eq] at hk
  obtain ⟨⟨hflags, htx⟩, hocc⟩ := hk
  have hcat : ∀ c ∈ portEvents, c / 256 < 256 := by decide
  have hflag : ∀ c ∈ portEvents, k ≠ Obj.flags (c / 256) := fun c hm e => hflags (by
    have := hcat c hm
    rw [e, Obj.flags]
    omega)
  exact State.rd_raise_ne htx (hflag _ hc) (hocc _ hc) (hflag _ (by decide)) (hocc _ (by decide))

theorem portEventKey_of_portKey (h : portKey k = false) : portEventKey k = false := by
  simp only [portKey, Bool.or_eq_false_iff] at h
  obtain ⟨⟨⟨⟨⟨⟨he, -⟩, -⟩, -⟩, -⟩, -⟩, -⟩ := h
  exact he

namespace Parks

theorem refl (s : State) : Parks s s := ⟨fun _ _ => rfl, rfl, rfl, rfl, rfl, id⟩

theorem trans (h : Parks s t) (h' : Parks t u) : Parks s u :=
  ⟨fun k hk => (h'.objs k hk).trans (h.objs k hk), h'.power.trans h.power, h'.now.trans h.now, h'.dict.trans h.dict,
    h'.start.trans h.start, h'.fresh ∘ h.fresh⟩

theorem ite {c : Prop} [Decidable c] (ht : Parks s t) (hu : Parks s u) : Parks s (if c then t else u) := by split <;> assumption

theorem foldl {α : Type} {f : State → α → State} {l : List α} (hf : ∀ a ∈ l, ∀ v, Parks v (f v a)) (h : Parks s t) : Parks s (l.foldl f t) :=
  List.foldlRecOn (motive := fun v => Parks s v) _ _ h fun v hv a ha => hv.trans (hf a ha v)

/-- A change of the links, the tiers or the group, or of none of what counts here. -/
theorem beside (h : Parks s t) (ho : u.obj = t.obj := by rfl) (hp : u.power = t.power := by rfl) (hn : u.now = t.now := by rfl)
    (hd : u.dict = t.dict := by rfl) (hs : u.start = t.start := by rfl) (hc : u.cross = t.cross := by rfl) : Parks s u :=
  h.trans ⟨fun k _ => State.rd_congr ho k, by rw [hp], hn, by rw [hd], by rw [hs], fun hf => by rwa [State.ArrayFresh, hc]⟩

theorem wr {v : Nat} (h : Parks s t) (hk : portKey k = true) : Parks s (t.wr k v) :=
  h.trans ⟨fun i hi => State.rd_wr_ne (fun e => by rw [e, hk] at hi; cases hi), rfl, rfl, rfl, rfl, id⟩

theorem count (h : Parks s t) (hk : portKey k = true) : Parks s (t.count k n) := h.wr hk

/-- The same count taken on both sides. -/
theorem countSat_both (h : Parks s t) (hk : portKey k = false) : Parks (s.countSat k n) (t.countSat k n) := by
  refine ⟨fun i hi => ?_, h.power, h.now, h.dict, h.start, h.fresh⟩
  by_cases e : i = k
  · rw [e, State.rd_countSat_self, State.rd_countSat_self, h.objs k hk]
  · rw [State.rd_countSat_ne e, State.rd_countSat_ne e, h.objs i hi]

theorem raise {code : Nat} {ps : List Bytes} (h : Parks s t) (hc : code ∈ portEvents := by decide) : Parks s (t.raise code ps) :=
  h.trans ⟨fun i hi => rd_raise_portEvents (portEventKey_of_portKey hi) hc, by rw [State.raise_power],
    State.raise_now .., State.raise_offLog, by rw [State.raise_start], fun hf => by rwa [State.ArrayFresh, State.raise_cross]⟩

theorem episodes (h : Parks s t) : t.dict.episodes = s.dict.episodes :=
  have h' := congrArg DictState.episodes h.dict
  h'

theorem stored (h : Parks s t) : t.dict.stored = s.dict.stored :=
  have h' := congrArg DictState.stored h.dict
  h'

theorem saving (h : Parks s t) : t.dict.saving = s.dict.saving :=
  have h' := congrArg DictState.saving h.dict
  h'

end Parks

/-- The ranges of objects that `portKey` lists. -/
theorem portKey_of_range (h : 0x500000 ≤ k ∧ k < 0x501000 ∨ 0x501300 ≤ k ∧ k < 0x501500 ∨ 0xa06000 ≤ k ∧ k < 0xa07000) : portKey k = true := by
  rcases h with h | h | h <;> simp [portKey, h]

theorem portKey_portState (hp : p < 16) : portKey (Obj.portState p) = true := portKey_of_range (by simp only [Obj.portState]; omega)
theorem portKey_portPowerState (hp : p < 16) : portKey (Obj.portPowerState p) = true := portKey_of_range (by simp only [Obj.portPowerState]; omega)
theorem portKey_idResult (hp : p < 16) : portKey (Obj.idResult p) = true := portKey_of_range (by simp only [Obj.idResult]; omega)
theorem portKey_logicalPlane (hp : p < 16) : portKey (Obj.logicalPlane p) = true := portKey_of_range (by simp only [Obj.logicalPlane]; omega)
theorem portKey_planePort (hb : b ≤ 256) : portKey (Obj.planePort b) = true := portKey_of_range (by simp only [Obj.planePort]; omega)
theorem portKey_flitsTx (hp : p < 16) : portKey (Obj.flitsTx p) = true := portKey_of_range (by simp only [Obj.flitsTx]; omega)

/-- What passes a crossing that is none of the array's leaves the array's queues fresh. -/
theorem State.pass_parks {c : Crossing} {v : Nat} (h : Parks s t) (hc : arrayKey c.key = false) : Parks s (t.pass c v) := by
  refine h.trans ⟨fun _ _ => rfl, rfl, rfl, rfl, rfl, fun hf x hx => ?_⟩
  obtain rfl | hx := Tab.mem_set hx
  · exact hc
  · exact hf x hx

theorem State.sendFlit_parks {a b c : Nat} {d : Bytes} {e : Bool} (h : Parks s t) : Parks s (t.sendFlit p a b c d e) := by
  unfold State.sendFlit
  extract_lets x l
  have hkey : arrayKey (Crossing.linkTx p).key = false := decide_eq_false (show ¬ 0x5010 + p < 0x4000 by omega)
  have hpass := State.pass_parks (v := unle (flitBytes l d)) h hkey
  clear_value l
  generalize t.pass (.linkTx p) (unle (flitBytes l d)) = u at hpass
  exact hpass.beside

theorem State.pumpOne_parks (h : Parks s t) (hp : p < 16) : Parks s (t.pumpOne p) := by
  obtain e | ⟨x, a, b, c, d, -, e⟩ := t.pumpOne_cases p
  · rwa [e]
  · rw [e]
    exact State.sendFlit_parks ((h.beside (u := t.setPort p x)).count (portKey_flitsTx hp))

theorem State.pump_parks (h : Parks s t) (hp : p < 16) : Parks s (t.pump p) := .foldl (fun _ _ v => State.pumpOne_parks (.refl v) hp) h

theorem State.mailFrom_parks {m : Mail} (h : Parks s t) : Parks s (t.mailFrom m b) := by
  unfold State.mailFrom
  split
  · exact h.beside
  · next p hp => exact State.pump_parks h.beside (State.pickFor_lt hp)

theorem State.mailAgain_parks {m : Mail} (h : Parks s t) : Parks s (t.mailAgain m b) :=
  State.mailFrom_parks (h.ite ((h.count rfl).count rfl))

theorem State.handBack_parks (h : Parks s t) : Parks s (t.handBack p) :=
  .foldl (fun _ _ v => State.mailFrom_parks (.refl v)) (.foldl (fun _ _ v => State.mailAgain_parks (.refl v)) h.beside)

theorem State.portTo_parks {st : Nat} (h : Parks s t) (hp : p < 16) : Parks s (t.portTo p st) := by
  unfold State.portTo
  extract_lets was s₁ ps
  have h₁ : Parks s s₁ := (h.wr (portKey_portState hp)).beside
  exact h₁.ite (h₁.raise.ite (h₁.raise.ite (h₁.raise.ite (h₁.raise.ite h₁))))

theorem State.remapped_parks {old : List Nat} (h : Parks s t) : Parks s (t.remapped old) := by
  have hentry : ∀ (v : State) (c : Nat) (l : List Nat), Parks v (v.fieldEntry c l) := fun v _ _ => ⟨fun _ _ => rfl, rfl, rfl, rfl, rfl, id⟩
  exact h.ite ((h.count rfl).trans (hentry _ _ _)).raise

theorem State.unmap_parks (h : Parks s t) (hp : p < 16) : Parks s (t.unmap p) := by
  unfold State.unmap
  extract_lets old b s₁ s₂
  have h₁ : Parks s s₁ := by
    unfold s₁
    split
    · next hb => exact h.wr (portKey_planePort (by omega))
    · exact h
  have h₂ : Parks s s₂ := h₁.wr (portKey_logicalPlane hp)
  clear_value s₂
  exact State.remapped_parks ((h₂.wr (portKey_planePort (by omega))).ite h₂)

theorem State.goDown_parks (h : Parks s t) (hp : p < 16) : Parks s (t.goDown p) :=
  State.unmap_parks (State.handBack_parks ((State.portTo_parks h hp).wr (portKey_idResult hp)).beside) hp

theorem State.sleepPort_parks (h : Parks s t) (hp : p < 16) : Parks s (t.sleepPort p n) :=
  (h.ite (State.goDown_parks h hp)).wr (portKey_portPowerState hp)

theorem State.parkPorts_parks {deep : Bool} (h : Parks s t) : Parks s (t.parkPorts deep) :=
  .foldl (fun _ hp v => have hp := List.mem_range.1 hp
    .ite (State.sleepPort_parks (.refl v) hp) (.ite (.wr (.refl v) (portKey_portPowerState hp)) (.refl v))) h

theorem State.leaveDeep_parks (h : Parks s t) : Parks s t.leaveDeep :=
  .foldl (fun _ hp v => .ite (.wr (.refl v) (portKey_portPowerState (List.mem_range.1 hp))) (.refl v)) h

/-! ### Power states (0x2010.05) -/

theorem State.freshArrayQueues_fresh (s : State) : s.freshArrayQueues.ArrayFresh := fun x hx => by
  simpa using (List.mem_filter.1 hx).2

theorem State.railForHold_parks {was new : Nat} (h : Parks s t) : Parks s (t.railForHold was new) := by
  have hrail : ∀ (v : State) mv, Parks v (v.setRail mv) := fun v _ => ⟨fun _ _ => rfl, rfl, rfl, rfl, rfl, id⟩
  have hq : ∀ v : State, Parks v v.freshArrayQueues := fun v => ⟨fun _ _ => rfl, rfl, rfl, rfl, rfl, fun _ => v.freshArrayQueues_fresh⟩
  exact (h.trans (hrail _ _)).ite ((h.trans ((hrail _ _).trans (hq _))).ite h)

/-- The power state that the causes call for, with the rail, the tiers and the ports as it wants them, before the array runs again. -/
def State.repark (s : State) : State :=
  let was := s.rd Obj.powerState
  let new := s.wantPower
  let s := (s.wr Obj.powerState new).railForHold was new
  let s := if new ≠ was ∧ (new = 2 ∨ new = 3 ∨ new = 5) then s.countSat Obj.parks 1 else s
  let s := if was < 2 ∧ 2 ≤ new then { s with tier := { s.tier with selfRefresh := true } }.parkPorts false else s
  if was ≠ 4 ∧ new = 4 then s.parkPorts true else if was = 4 ∧ new ≠ 4 then s.leaveDeep else s

theorem State.repower_eq (s : State) : s.repower = if 2 ≤ s.rd Obj.powerState ∧ s.wantPower < 2 then s.repark.wake else s.repark := rfl

/-- The head of it: the power state, and the count of the entries into park, hold and thermal park. -/
def State.reparkHead (s : State) : State :=
  if s.wantPower ≠ s.rd Obj.powerState ∧ (s.wantPower = 2 ∨ s.wantPower = 3 ∨ s.wantPower = 5) then
    (s.wr Obj.powerState s.wantPower).countSat Obj.parks 1 else s.wr Obj.powerState s.wantPower

theorem State.repark_parks (s : State) : Parks s.reparkHead s.repark := by
  unfold State.repark State.reparkHead
  extract_lets was new s₁ s₂ _ s₃
  have h₁ : Parks (s.wr Obj.powerState new) s₁ := State.railForHold_parks (.refl _)
  clear_value s₁
  have h₂ : Parks (if new ≠ was ∧ (new = 2 ∨ new = 3 ∨ new = 5) then (s.wr Obj.powerState new).countSat Obj.parks 1 else
      s.wr Obj.powerState new) s₂ := by
    unfold s₂
    split
    · exact h₁.countSat_both rfl
    · exact h₁
  clear_value s₂
  have h₃ : Parks _ s₃ := Parks.ite (State.parkPorts_parks h₂.beside) h₂
  clear_value s₃
  exact .ite (State.parkPorts_parks h₃) (.ite (State.leaveDeep_parks h₃) h₃)

theorem State.rd_reparkHead (h : k ≠ Obj.powerState) (h' : k ≠ Obj.parks) : s.reparkHead.rd k = s.rd k := by
  unfold State.reparkHead
  split
  · exact (State.rd_countSat_ne h').trans (State.rd_wr_ne h)
  · exact State.rd_wr_ne h

theorem State.rd_reparkHead_powerState : s.reparkHead.rd Obj.powerState = s.wantPower := by
  unfold State.reparkHead
  split
  · exact (State.rd_countSat_ne (by decide)).trans (State.rd_wr_self ..)
  · exact State.rd_wr_self ..

theorem State.reparkHead_shape (s : State) : ∃ o, s.reparkHead = { s with obj := o } := by
  unfold State.reparkHead
  split <;> exact ⟨_, rfl⟩

theorem State.rd_repark_powerState : s.repark.rd Obj.powerState = s.wantPower :=
  (s.repark_parks.objs _ (by decide)).trans State.rd_reparkHead_powerState

/-! ### What any change of the power state leaves -/

/-- The objects that taking a power state may change. -/
def parkKey (k : Nat) : Bool := portKey k || [Obj.powerState, Obj.parks, Obj.duty, Obj.opInForce, Obj.vtrimMv].contains k

/-- The state of the power groups apart from the rail and the point and grant under way, which begin anew as the array runs again. -/
def PowerState.lasting (p : PowerState) : PowerState := { p.offRail with change := none, next := none, total := 0 }

/-- `t` is `s` in another power state: what `Parks` keeps, but for the point, the duty and the grant that the array starts with. -/
structure Repowers (s t : State) : Prop where
  objs : ∀ k, parkKey k = false → t.rd k = s.rd k
  power : t.power.lasting = s.power.lasting
  now : t.now = s.now
  episodes : t.dict.episodes = s.dict.episodes
  start : { t.start with fieldLog := [] } = { s.start with fieldLog := [] }
  fresh : s.ArrayFresh → t.ArrayFresh

theorem Repowers.trans (h : Repowers s t) (h' : Repowers t u) : Repowers s u :=
  ⟨fun k hk => (h'.objs k hk).trans (h.objs k hk), h'.power.trans h.power, h'.now.trans h.now, h'.episodes.trans h.episodes,
    h'.start.trans h.start, h'.fresh ∘ h.fresh⟩

/-- A part of the power groups that stands. -/
theorem Repowers.of {α : Type} (h : Repowers s t) (f : PowerState → α) (hf : ∀ q : PowerState, f q.lasting = f q := by exact fun _ => rfl) :
    f t.power = f s.power := by
  rw [← hf t.power, h.power, hf]

theorem Repowers.flowLoss (h : Repowers s t) : t.start.flowLoss = s.start.flowLoss :=
  have h' := congrArg StartState.flowLoss h.start
  h'

theorem Repowers.inEpisode (h : Repowers s t) (c i : Nat) : t.inEpisode c i = s.inEpisode c i := State.inEpisode_congr h.episodes

theorem Parks.repowers (h : Parks s t) : Repowers s t :=
  ⟨fun k hk => h.objs k (by rw [parkKey, Bool.or_eq_false_iff] at hk; exact hk.1), congrArg
    (fun q : PowerState => { q with change := none, next := none, total := 0 }) h.power, h.now, h.episodes, h.start, h.fresh⟩

theorem State.clockTo_shape (s : State) (op : Nat) : ∃ c, s.clockTo op = { s.wr Obj.opInForce op with clock := c } := by
  unfold State.clockTo
  extract_lets c t
  split
  · exact ⟨t.clock, rfl⟩
  · exact ⟨_, rfl⟩

theorem State.runArray_repowers (s : State) : Repowers s s.runArray := by
  unfold State.runArray
  extract_lets _ _ v
  obtain ⟨c, hc⟩ := v.clockTo_shape 7
  rw [hc]
  refine ⟨fun k hk => ?_, rfl, rfl, rfl, rfl, id⟩
  simp only [parkKey, Bool.or_eq_false_iff, List.contains_eq_mem, decide_eq_false_iff_not, List.mem_cons, List.not_mem_nil, or_false, not_or] at hk
  obtain ⟨-, -, -, hduty, hop, htrim⟩ := hk
  exact (State.rd_wr_ne htrim).trans ((State.rd_wr_ne hduty).trans (State.rd_wr_ne hop : (v.wr Obj.opInForce 7).rd k = v.rd k))

theorem State.wake_repowers (s : State) : Repowers s s.wake :=
  s.runArray_repowers.trans ⟨fun k hk => State.rd_wr_ne (by rintro rfl; exact absurd hk (by decide)), rfl, rfl, rfl, rfl, id⟩

theorem State.repark_repowers (s : State) : Repowers s s.repark := by
  refine Repowers.trans ?_ s.repark_parks.repowers
  obtain ⟨o, ho⟩ := s.reparkHead_shape
  refine ⟨fun k hk => State.rd_reparkHead ?_ ?_, by rw [ho], by rw [ho], by rw [ho], by rw [ho], by rw [ho]; exact id⟩ <;>
  · rintro rfl
    exact absurd hk (by decide)

theorem State.repower_repowers (s : State) : Repowers s s.repower := by
  rw [State.repower_eq]
  split
  · exact s.repark_repowers.trans (State.wake_repowers _)
  · exact s.repark_repowers

theorem State.repower_within_parts (s : State) :
    Within ⟨[.link, .coll, .tier, .power, .clock, .cross, .start], fun _ => True⟩ s s.repower := by
  apply State.repower_within <;> simp only [List.mem_cons, true_or, or_true, implies_true, Within.refl]

/-! ### Where the array does not run again -/

/-- No record goes on where it stopped: the module was not parked, or still is. -/
theorem State.repower_still (h : s.rd Obj.powerState < 2 ∨ 2 ≤ s.wantPower) : s.repower = s.repark := by
  rw [State.repower_eq, if_neg (by omega)]

theorem State.rd_repower_still (h : s.rd Obj.powerState < 2 ∨ 2 ≤ s.wantPower) (hk : portKey k = false) (h₁ : k ≠ Obj.powerState := by decide)
    (h₂ : k ≠ Obj.parks := by decide) : s.repower.rd k = s.rd k := by
  rw [State.repower_still h]
  exact (s.repark_parks.objs k hk).trans (State.rd_reparkHead h₁ h₂)

theorem State.repower_still_power (h : s.rd Obj.powerState < 2 ∨ 2 ≤ s.wantPower) : s.repower.power.offRail = s.power.offRail := by
  obtain ⟨o, ho⟩ := s.reparkHead_shape
  rw [State.repower_still h, s.repark_parks.power, ho]

theorem State.rd_repower_powerState (s : State) :
    s.repower.rd Obj.powerState = if 2 ≤ s.rd Obj.powerState ∧ s.wantPower < 2 then 1 else s.wantPower := by
  rw [State.repower_eq]
  split
  · exact State.rd_wr_self ..
  · exact State.rd_repark_powerState

end Sys2Proof.Machine
end

section
/-! SUPPORT. What a loss of power or of the domains takes and leaves, and the statement on the input's voltage. -/
namespace Sys2Proof.Machine

variable {s t : State} {l : Loss} {mv k : Nat}

/-! ### Losses (R378, R478, R490) -/

theorem State.dropUntaken_shape (s : State) : ∃ o, s.dropUntaken = { s with obj := o } := by
  unfold State.dropUntaken
  refine List.foldlRecOn (motive := fun v : State => ∃ o, v = { s with obj := o }) _ _ ⟨s.obj, rfl⟩ ?_
  rintro v ⟨o, rfl⟩ i -
  dsimp only
  split
  · exact ⟨_, rfl⟩
  · exact ⟨_, rfl⟩

theorem State.loseFirmware_shape (s : State) (l : Loss) : ∃ o f, s.loseFirmware l = { s with obj := o, fw := f } := by
  have h : ∃ o, (List.range 2).foldl (fun s n => if s.rd (Obj.slotState n) = 1 then s.wr (Obj.slotState n) 0 else s) s = { s with obj := o } := by
    refine List.foldlRecOn (motive := fun v : State => ∃ o, v = { s with obj := o }) _ _ ⟨s.obj, rfl⟩ ?_
    rintro v ⟨o, rfl⟩ n -
    split
    · exact ⟨_, rfl⟩
    · exact ⟨_, rfl⟩
  obtain ⟨o, h⟩ := h
  unfold State.loseFirmware
  rw [h]
  exact ⟨o, _, rfl⟩

/-- The units, the dictionary and start-up as a loss leaves them. -/
theorem State.lose_shape (s : State) (l : Loss) : ∃ o c g f, s.lose l = { s.loseUnits l with
    obj := o, clock := c, staged := g, fw := f, power := { PowerState.reset with ovp := s.power.ovp }, dict := (s.loseDict l).dict
    start := (s.loseStart l).start } := by
  generalize e : s.lose l = t
  unfold State.lose at e
  extract_lets +onlyGivenNames -underBinder -merge a _ _ b c at e
  obtain ⟨o, ho⟩ := (s.loseUnits l).dropUntaken_shape
  have ha : a = { s.loseUnits l with obj := o } := ho
  obtain ⟨o', f, hf⟩ := b.loseFirmware_shape l
  have hc : c = (({ b with obj := o', fw := f } : State).loseDict l).loseStart l := by rw [← hf]
  clear_value a
  subst ha
  clear_value c
  subst hc e
  cases l <;> exact ⟨_, _, _, f, rfl⟩

theorem State.lose_rails : (s.lose l).start.rails = false := by
  obtain ⟨_, _, _, _, h⟩ := s.lose_shape l
  rw [h]
  rfl

theorem State.lose_tile : (s.lose l).tile = { TileState.reset with parity := if l = .power then [] else s.tile.parity } := by
  obtain ⟨_, _, _, _, h⟩ := s.lose_shape l
  rw [h]
  rfl

theorem State.lose_power_cmd : (s.lose .power).cmd = CmdState.reset := by
  obtain ⟨_, _, _, _, h⟩ := s.lose_shape .power
  rw [h]
  rfl

theorem State.lose_power : (s.lose l).power = { PowerState.reset with ovp := s.power.ovp } := by
  obtain ⟨_, _, _, _, h⟩ := s.lose_shape l
  rw [h]

theorem State.lose_standby : (s.lose l).standby = s.standby := by
  obtain ⟨_, _, _, _, h⟩ := s.lose_shape l
  rw [h]
  rfl

theorem State.lose_zones : (s.lose l).store.zones = s.store.zones := by
  obtain ⟨_, _, _, _, h⟩ := s.lose_shape l
  rw [h]
  rfl

/-- What service flash holds of events is kept. -/
theorem State.lose_flash : (s.lose l).dict.flash = s.dict.flash := by
  obtain ⟨_, _, _, _, h⟩ := s.lose_shape l
  rw [h]
  cases l <;> rfl

/-! ### The bands of Table 13.2 -/

/-- The opening of the input as service flash keeps it (R433). -/
def State.ovpEvent (s : State) : FlashEvent :=
  { code := Ev.inputOvp, session := s.rd Obj.powerSession, ticks := s.now, params := [], reported := false }

/-- The state that is lost as the input opens. -/
def State.ovpKept (s : State) : State := { s with dict := { s.dict with flash := s.dict.flash ++ [s.ovpEvent] } }

/-- INPUT_OVP where the latch opens. -/
theorem State.inputOvp_opens (h : 44000 < mv) (ho : s.power.ovp = false) :
    (s.inputOvp mv).standby = false ∧ (s.inputOvp mv).start.rails = false ∧ (s.inputOvp mv).tile = TileState.reset ∧
    (s.inputOvp mv).cmd = CmdState.reset ∧ (s.inputOvp mv).power = { PowerState.reset with ovp := true } ∧
    ∃ f, (s.inputOvp mv).dict.flash = s.dict.flash ++ [f] ∧ f.code = Ev.inputOvp ∧ f.session = s.rd Obj.powerSession ∧ f.ticks = s.now := by
  have he : s.inputOvp mv = { (s.ovpKept.lose .power).setPower fun p => { p with ovp := true } with standby := false } :=
    if_neg (by rw [ho]; simp only [Bool.false_eq_true, or_false]; omega)
  have hrails := s.ovpKept.lose_rails (l := .power)
  have htile := s.ovpKept.lose_tile (l := .power)
  have hcmd := s.ovpKept.lose_power_cmd
  have hpower := s.ovpKept.lose_power (l := .power)
  have hflash := s.ovpKept.lose_flash (l := .power)
  rw [he]
  generalize s.ovpKept.lose .power = t at *
  exact ⟨rfl, hrails, htile, hcmd, congrArg (fun p : PowerState => { p with ovp := true }) hpower, s.ovpEvent, hflash, rfl, rfl, rfl⟩

/-- The parameters of an event that fit are kept whole. -/
theorem packParams_p16 (n : Nat) : packParams 40 [p16 n] = p16 n := by
  have hlen : (p16 n).length = 2 := le_length 2 n
  rw [packParams, if_pos (by omega), packParams, List.append_nil]

/-- POWER_FAIL below 28 V. -/
theorem State.powerFail_loses (h : s.standby = true) (hv : mv < 28000) :
    (s.powerFail mv).standby = false ∧ (s.powerFail mv).start.rails = false ∧ (s.powerFail mv).tile = TileState.reset ∧
    (s.powerFail mv).cmd = CmdState.reset ∧ (s.powerFail mv).power.ovp = s.power.ovp ∧
    (∃ f, (s.powerFail mv).dict.flash = s.dict.flash ++ [f] ∧ f.code = Ev.powerFail ∧ f.params = p16 mv) ∧
    (s.powerFail mv).store.zones = s.store.zones := by
  have he : s.powerFail mv = { (s.raiseKept Ev.powerFail [p16 mv]).lose .power with standby := false } :=
    if_neg (by rw [h]; simp only [not_true_eq_false, false_or]; omega)
  have hovp := congrArg PowerState.ovp (s.raiseKept_power Ev.powerFail [p16 mv])
  have hzones := congrArg StoreState.zones (s.raiseKept_store Ev.powerFail [p16 mv])
  have hkept := s.raiseKept_flash (code := Ev.powerFail) (ps := [p16 mv])
  rw [he]
  generalize s.raiseKept Ev.powerFail [p16 mv] = u at *
  have hpower := u.lose_power (l := .power)
  have hrails := u.lose_rails (l := .power)
  have htile := u.lose_tile (l := .power)
  have hcmd := u.lose_power_cmd
  have hflash := u.lose_flash (l := .power)
  have hstore := u.lose_zones (l := .power)
  generalize u.lose .power = v at *
  exact ⟨rfl, hrails, htile, hcmd, (congrArg PowerState.ovp hpower).trans hovp, ⟨_, hflash.trans hkept, rfl, packParams_p16 mv⟩, hstore.trans hzones⟩

/-- A module parked for its input's voltage alone is in park. -/
theorem State.wantPower_inputPark (hm : s.rd Obj.moduleState = 2) (hd : s.power.deep = false) (hh : s.power.hold = false)
    (hp : s.power.heatPark = false) (hi : s.power.inputPark = true) : s.wantPower = 2 := by
  simp [State.wantPower, hm, hd, hh, hp, hi]

/-! ### The statement -/

/-- Settles O26, band by band. -/
theorem inputPowerIsWatched : Obligations.InputPowerIsWatched := by
  unfold Obligations.InputPowerIsWatched
  refine ⟨?ovp, ?ovpOff, ?latched, ?highOff, ?lowOff, ?parkOff, ?resumeOff, ?failOff, ?release, ?high, ?low, ?park, ?resume, ?fail⟩
  case ovp => exact fun s mv h ho => ⟨_, rfl, State.inputOvp_opens h ho⟩
  case ovpOff => exact fun s mv h => ⟨_, rfl, if_pos h⟩
  case latched => exact fun s mv h => ⟨_, rfl, if_neg (by omega)⟩
  case highOff =>
    intro s mv h
    refine ⟨_, rfl, ite_eq_right_iff.2 fun ⟨hs, hlo, hhi⟩ => State.raiseOnce_open ?_⟩
    rw [hs] at h
    simp only [Bool.true_eq_false, false_or] at h
    exact h.resolve_left (by omega) |>.resolve_left (by omega)
  case lowOff =>
    intro s mv h
    refine ⟨_, rfl, ite_eq_right_iff.2 fun ⟨hs, hlo, hhi⟩ => State.raiseOnce_open ?_⟩
    rw [hs] at h
    simp only [Bool.true_eq_false, false_or] at h
    exact h.resolve_left (by omega) |>.resolve_left (by omega)
  case parkOff => exact fun s mv h => ⟨_, rfl, if_neg fun ⟨hs, hlo, hhi⟩ => by simp only [hs, Bool.true_eq_false, false_or] at h; omega⟩
  case resumeOff => exact fun s mv h => ⟨_, rfl, if_neg fun ⟨hs, hlo⟩ => by simp only [hs, Bool.true_eq_false, false_or] at h; omega⟩
  case failOff => exact fun s mv h => ⟨_, rfl, if_pos (h.imp_left (by simp))⟩
  case release => exact fun s mv h => ⟨_, rfl, if_pos h⟩
  case high =>
    intro s mv hs hlo hhi he
    refine ⟨_, rfl, ?_⟩
    rw [if_pos ⟨hs, hlo, hhi⟩]
    exact ⟨State.inEpisode_raiseOnce_self, State.rd_raiseOnce_occurrences he, State.raiseOnce_power ..⟩
  case low =>
    intro s mv hs hlo hhi he
    refine ⟨_, rfl, ?_⟩
    rw [if_pos ⟨hs, hlo, hhi⟩]
    exact ⟨State.inEpisode_raiseOnce_self, State.rd_raiseOnce_occurrences he, State.raiseOnce_power ..⟩
  case park =>
    intro s mv hs hlo hhi
    refine ⟨_, rfl, ?_⟩
    rw [if_pos ⟨hs, hlo, hhi⟩]
    refine ⟨(State.repower_repowers _).of PowerState.inputPark, fun hm hd hh hp => ?_⟩
    have hwant := State.wantPower_inputPark (s := (s.raiseOnce Ev.inputLowPark 0 []).setPower fun p => { p with inputPark := true })
      ((State.rd_raiseOnce (by decide) (by decide)).trans hm) ((congrArg PowerState.deep (State.raiseOnce_power ..)).trans hd)
      ((congrArg PowerState.hold (State.raiseOnce_power ..)).trans hh) ((congrArg PowerState.heatPark (State.raiseOnce_power ..)).trans hp) rfl
    rw [State.rd_repower_powerState, hwant]
    exact if_neg fun ⟨_, h2⟩ => absurd h2 (by decide)
  case resume =>
    intro s mv hs hv
    refine ⟨_, rfl, ?_⟩
    rw [if_pos ⟨hs, hv⟩]
    have h := State.repower_repowers ((s.endEpisode Ev.inputLowPark 0).setPower fun p => { p with inputPark := false })
    exact ⟨h.of PowerState.inputPark, (h.inEpisode _ _).trans State.inEpisode_endEpisode_self⟩
  case fail => exact fun s mv hs hv => ⟨_, rfl, State.powerFail_loses hs hv⟩

end Sys2Proof.Machine
end

section
/-! SUPPORT. How a grant is put in force, and the statement on Bellows. -/
namespace Sys2Proof.Machine

variable {s t : State} {g : Grant} {k op : Nat}

/-! ### When the module is parked -/

/-- A cause of being parked. -/
def PowerState.parks (p : PowerState) : Bool := p.deep || p.hold || p.heatPark || p.inputPark || p.trayPark || p.capPark

/-- An operational module with a cause is to be parked, whatever the duty is. -/
theorem State.two_le_wantPower : 2 ≤ s.wantPower ↔ s.rd Obj.moduleState = 2 ∧ s.power.parks = true := by
  unfold State.wantPower PowerState.parks
  grind

/-- Once the power state is taken it agrees with its causes, so taking it again where they have not changed wakes nothing. -/
theorem State.repower_settled (hs : t.rd Obj.powerState = s.repower.rd Obj.powerState) (hm : t.rd Obj.moduleState = s.rd Obj.moduleState)
    (hp : t.power.parks = s.power.parks) : t.rd Obj.powerState < 2 ∨ 2 ≤ t.wantPower := by
  rw [State.two_le_wantPower, hm, hp, ← State.two_le_wantPower, hs, State.rd_repower_powerState]
  split <;> omega

/-! ### Turning to a point (R362) -/

theorem State.rd_clockTo_ne (hk : k ≠ Obj.opInForce) : (s.clockTo op).rd k = s.rd k := by
  obtain ⟨c, h⟩ := s.clockTo_shape op
  rw [h]
  exact State.rd_wr_ne hk

theorem State.rd_clockTo_self : (s.clockTo op).rd Obj.opInForce = op := by
  obtain ⟨c, h⟩ := s.clockTo_shape op
  rw [h]
  exact State.rd_wr_self ..

theorem State.clockTo_power : (s.clockTo op).power = s.power := by
  obtain ⟨c, h⟩ := s.clockTo_shape op
  rw [h]
  rfl

theorem State.clockTo_now : (s.clockTo op).now = s.now := by
  obtain ⟨c, h⟩ := s.clockTo_shape op
  rw [h]
  rfl

/-- The state of the power groups apart from the rail and the change of point under way. -/
def PowerState.offPoint (p : PowerState) : PowerState := { p.offRail with change := none }

/-- What a change of the operating point leaves. -/
structure Turns (s t : State) : Prop where
  rd : ∀ k, k ≠ Obj.opInForce → k ≠ Obj.vtrimMv → t.rd k = s.rd k
  power : t.power.offPoint = s.power.offPoint
  now : t.now = s.now

theorem State.railTo_turns (s : State) (op d : Nat) : Turns s (s.railTo op d) := ⟨fun _ _ h => State.rd_wr_ne h, rfl, rfl⟩

theorem State.lower_turns (s : State) (op d : Nat) : Turns s ((s.clockTo op).railTo op d) where
  rd k hk hv := ((State.railTo_turns _ _ _).rd k hk hv).trans (State.rd_clockTo_ne hk)
  power := by rw [(State.railTo_turns _ _ _).power, State.clockTo_power]
  now := ((State.railTo_turns _ _ _).now).trans State.clockTo_now

theorem Turns.refl (s : State) : Turns s s := ⟨fun _ _ _ => rfl, rfl, rfl⟩

theorem State.opTo_turns (s : State) (op : Nat) : Turns s (s.opTo op) := by
  unfold State.opTo
  extract_lets cur lower
  split
  · split
    · exact .refl s
    · split
      · exact s.lower_turns op 10
      · exact s.railTo_turns op 0
  · split
    · exact s.lower_turns op 10
    · split
      · exact s.railTo_turns op 0
      · exact .refl s

/-- With no change in progress a lower point is in force at once, a higher one once its rail has settled. -/
theorem State.opTo_idle (h : s.power.change = none) :
    (s.rd Obj.opInForce < op → (s.opTo op).rd Obj.opInForce = op ∧ (s.opTo op).power.change = some op) ∧
    (op < s.rd Obj.opInForce → (s.opTo op).rd Obj.opInForce = s.rd Obj.opInForce ∧ (s.opTo op).power.change = some op) ∧
    (op = s.rd Obj.opInForce → (s.opTo op).rd Obj.opInForce = op ∧ (s.opTo op).power.change = none) := by
  unfold State.opTo
  extract_lets cur lower
  rw [h]
  dsimp only
  refine ⟨fun hlt => ?_, fun hlt => ?_, fun heq => ?_⟩
  · rw [if_pos hlt]
    exact ⟨(State.rd_wr_ne (by decide)).trans State.rd_clockTo_self, rfl⟩
  · rw [if_neg (show ¬ cur < op by omega), if_pos hlt]
    exact ⟨State.rd_wr_ne (by decide), rfl⟩
  · rw [if_neg (show ¬ cur < op by omega), if_neg (show ¬ op < cur by omega)]
    exact ⟨heq.symm, h⟩

/-! ### The stages of a grant -/

/-- The time counted, the cap noted and the park by the cap as a grant says, before the power state is taken. -/
def State.grantCap (s : State) (g : Grant) : State := (s.account.capNote g.park).setPower fun (p : PowerState) => { p with capPark := g.park }

/-- The grants of the domains. -/
def State.grantWatts (s : State) (g : Grant) : State :=
  (List.range 5).foldl (fun s d => s.wr (Obj.grantW (d + 1)) (min 1800 (g.watts.getD d 0))) s

/-- The limits on the array as a grant says, at the point that they leave. -/
def State.grantLimits (s : State) (g : Grant) : State :=
  ((s.wr Obj.duty g.duty).wr Obj.deferred g.deferred).wr Obj.ceilingBudget g.budgetOp

/-- The grant is in force. -/
def State.grantEnd (s : State) (g : Grant) : State :=
  (if g.deferred = 0 then s.endEpisode Ev.backgroundStarved 0 else s).setPower fun (p : PowerState) => { p with
    next := none, total := g.total
    e2From := if g.deferred = 0 then none else some (p.e2From.getD s.now) }

/-- The state that a grant is put in force in, once the cap has taken the power state. -/
def State.grantTurn (s : State) (g : Grant) : State := (((s.grantCap g).repower.grantWatts g).grantLimits g).opTo g.op

theorem State.applyGrant_eq (s : State) (g : Grant) : s.applyGrant g = ((s.grantTurn g).grantEnd g).repower := by
  unfold State.applyGrant State.grantEnd State.grantTurn
  split <;> rfl

theorem State.capNote_power {b : Bool} : (s.capNote b).power = s.power := by
  unfold State.capNote
  split
  · exact State.raiseOnce_power ..
  · rfl

theorem State.capNote_now {b : Bool} : (s.capNote b).now = s.now := by
  unfold State.capNote
  split
  · exact State.raiseOnce_now ..
  · rfl

/-- The objects that the note on the cap may change: those of cap-infeasible and of log-overrun. -/
def capKey (k : Nat) : Bool :=
  [Obj.dictFramesTx, Obj.flags (Ev.capInfeasible / 256), Obj.occurrences (Ev.capInfeasible / 256 - 1) (Ev.capInfeasible % 256),
    Obj.flags (Ev.logOverrun / 256), Obj.occurrences (Ev.logOverrun / 256 - 1) (Ev.logOverrun % 256)].contains k

theorem State.rd_capNote {b : Bool} (hk : capKey k = false) : (s.capNote b).rd k = s.rd k := by
  simp only [capKey, List.contains_eq_mem, decide_eq_false_iff_not, List.mem_cons, List.not_mem_nil, or_false, not_or] at hk
  obtain ⟨htx, hf, ho, hf', ho'⟩ := hk
  unfold State.capNote
  split
  · cases he : s.inEpisode Ev.capInfeasible 0
    · rw [State.raiseOnce_closed he]
      exact State.rd_raise_ne htx hf ho hf' ho'
    · rw [State.raiseOnce_open he]
  · rfl

theorem State.rd_grantCap (hk : k ∉ servingKeys) (hc : capKey k = false) : (s.grantCap g).rd k = s.rd k :=
  (State.rd_capNote hc).trans (s.account_attends.rd k hk)

/-- The times counted so far are of no account to what follows. -/
def PowerState.offTimes (p : PowerState) : PowerState := { p with accountAt := 0, throttledT := 0, followingT := 0, e2T := 0 }

theorem State.account_power (s : State) : s.account.power.offTimes = s.power.offTimes := rfl

theorem State.grantCap_power : (s.grantCap g).power.offTimes = { s.power.offTimes with capPark := g.park } := by
  have h : (s.grantCap g).power = { (s.account.capNote g.park).power with capPark := g.park } := rfl
  rw [h, State.capNote_power, ← s.account_power]
  rfl

theorem State.grantCap_now : (s.grantCap g).now = s.now := State.capNote_now

theorem State.rd_grantWatts_ne (hk : ∀ d < 5, k ≠ Obj.grantW (d + 1)) : (s.grantWatts g).rd k = s.rd k :=
  List.foldlRecOn (motive := fun v : State => v.rd k = s.rd k) _ _ rfl fun _ hv d hd => (State.rd_wr_ne (hk d (List.mem_range.1 hd))).trans hv

theorem State.rd_grantWatts {d : Nat} (hd : d < 5) : (s.grantWatts g).rd (Obj.grantW (d + 1)) = min 1800 (g.watts.getD d 0) := by
  have h : ∀ n, d < n → ((List.range n).foldl (fun s d => s.wr (Obj.grantW (d + 1)) (min 1800 (g.watts.getD d 0))) s).rd (Obj.grantW (d + 1)) =
      min 1800 (g.watts.getD d 0) := by
    intro n
    induction n with
    | zero => exact fun h => absurd h (by omega)
    | succ n ih =>
      intro hn
      rw [List.range_succ, List.foldl_append]
      by_cases e : d = n
      · rw [e]
        exact State.rd_wr_self ..
      · exact (State.rd_wr_ne (by simp only [Obj.grantW]; omega)).trans (ih (by omega))
  exact h 5 hd

theorem State.grantWatts_power : (s.grantWatts g).power = s.power :=
  List.foldlRecOn (motive := fun v : State => v.power = s.power) _ _ rfl fun _ h _ _ => h

theorem State.grantWatts_now : (s.grantWatts g).now = s.now :=
  List.foldlRecOn (motive := fun v : State => v.now = s.now) _ _ rfl fun _ h _ _ => h

theorem State.grantLimits_power : (s.grantLimits g).power = s.power := rfl
theorem State.grantLimits_now : (s.grantLimits g).now = s.now := rfl

/-- What a grant writes before it takes the power state a second time. -/
def grantKey (k : Nat) : Bool :=
  decide (k / 256 = 0x2201) || [Obj.duty, Obj.deferred, Obj.ceilingBudget, Obj.opInForce, Obj.vtrimMv].contains k

/-! ### The grant in force -/

theorem State.grantTurn_power : (s.grantTurn g).power.offPoint = (s.grantCap g).repower.power.offPoint := by
  rw [State.grantTurn, (State.opTo_turns _ _).power, State.grantLimits_power, State.grantWatts_power]

theorem State.grantTurn_now : (s.grantTurn g).now = s.now := by
  rw [State.grantTurn, (State.opTo_turns _ _).now, State.grantLimits_now, State.grantWatts_now, (State.repower_repowers _).now, State.grantCap_now]

theorem State.rd_grantLimits_ne (hd : k ≠ Obj.duty) (hf : k ≠ Obj.deferred) (hb : k ≠ Obj.ceilingBudget) : (s.grantLimits g).rd k = s.rd k :=
  (State.rd_wr_ne hb).trans ((State.rd_wr_ne hf).trans (State.rd_wr_ne hd))

/-- An object that the grant does not write itself. -/
theorem State.rd_grantTurn_ne (hk : grantKey k = false) : (s.grantTurn g).rd k = (s.grantCap g).repower.rd k := by
  simp only [grantKey, Bool.or_eq_false_iff, List.contains_eq_mem, decide_eq_false_iff_not, List.mem_cons, List.not_mem_nil, or_false, not_or] at hk
  obtain ⟨hw, hduty, hdef, hceil, hop, htrim⟩ := hk
  rw [State.grantTurn, (State.opTo_turns _ _).rd k hop htrim, State.rd_grantLimits_ne hduty hdef hceil]
  exact State.rd_grantWatts_ne fun d hd e => hw (by rw [e, Obj.grantW]; omega)

theorem State.grantEnd_power (s : State) (g : Grant) : (s.grantEnd g).power = { s.power with
    next := none, total := g.total, e2From := if g.deferred = 0 then none else some (s.power.e2From.getD s.now) } := by
  unfold State.grantEnd
  split <;> rfl

theorem State.rd_grantEnd : (s.grantEnd g).rd k = s.rd k := by
  unfold State.grantEnd
  split <;> rfl

/-- A part of the power groups that neither a change of point nor taking the power state nor the time counted changes. -/
theorem State.grantTurn_of {α : Type} (f : PowerState → α) (hf : ∀ q : PowerState, f q.offPoint.offTimes = f q) (hl : ∀ q : PowerState, f q.lasting = f q) :
    f (s.grantTurn g).power = f { s.power with capPark := g.park } := by
  have ho : ∀ q : PowerState, f q.offPoint = f q := fun q => by rw [← hf q, ← hf q.offPoint]; rfl
  have ht : ∀ q : PowerState, f q.offTimes = f q := fun q => by rw [← hf q, ← hf q.offTimes]; rfl
  rw [← ho, State.grantTurn_power, ho, (State.repower_repowers _).of f hl, ← ht, State.grantCap_power, ← ht { s.power with capPark := g.park }]
  rfl

/-- The second time the power state is taken nothing wakes. -/
theorem State.grantEnd_settled : ((s.grantTurn g).grantEnd g).rd Obj.powerState < 2 ∨ 2 ≤ ((s.grantTurn g).grantEnd g).wantPower := by
  refine State.repower_settled (s := s.grantCap g) (State.rd_grantEnd.trans (State.rd_grantTurn_ne (by decide)))
    (State.rd_grantEnd.trans ((State.rd_grantTurn_ne (by decide)).trans ((State.repower_repowers _).objs _ (by decide)))) ?_
  have hcap : (s.grantCap g).power.offTimes.parks = { s.power.offTimes with capPark := g.park }.parks := by rw [State.grantCap_power]
  rw [State.grantEnd_power]
  exact (State.grantTurn_of PowerState.parks (fun _ => rfl) fun _ => rfl).trans hcap.symm

theorem State.rd_applyGrant (hk : portKey k = false) (h₁ : k ≠ Obj.powerState := by decide) (h₂ : k ≠ Obj.parks := by decide) :
    (s.applyGrant g).rd k = (s.grantTurn g).rd k := by
  rw [State.applyGrant_eq, State.rd_repower_still State.grantEnd_settled hk h₁ h₂, State.rd_grantEnd]

theorem State.applyGrant_power : (s.applyGrant g).power.offRail = ((s.grantTurn g).grantEnd g).power.offRail := by
  rw [State.applyGrant_eq, State.repower_still_power State.grantEnd_settled]

theorem State.rd_grantTurn_limits :
    (s.grantTurn g).rd Obj.duty = g.duty ∧ (s.grantTurn g).rd Obj.deferred = g.deferred ∧ (s.grantTurn g).rd Obj.ceilingBudget = g.budgetOp := by
  unfold State.grantTurn
  generalize (s.grantCap g).repower.grantWatts g = u
  have h := State.opTo_turns (u.grantLimits g) g.op
  rw [h.rd _ (by decide) (by decide), h.rd _ (by decide) (by decide), h.rd _ (by decide) (by decide)]
  refine ⟨?_, ?_, State.rd_wr_self ..⟩
  · exact (State.rd_wr_ne (by decide)).trans ((State.rd_wr_ne (by decide)).trans (State.rd_wr_self ..))
  · exact (State.rd_wr_ne (by decide)).trans (State.rd_wr_self ..)

/-- What a grant in force shows. -/
theorem State.applyGrant_shows : (s.applyGrant g).rd Obj.duty = g.duty ∧ (s.applyGrant g).rd Obj.deferred = g.deferred ∧
    (s.applyGrant g).rd Obj.ceilingBudget = g.budgetOp := by
  rw [State.rd_applyGrant (by decide), State.rd_applyGrant (by decide), State.rd_applyGrant (by decide)]
  exact State.rd_grantTurn_limits

theorem portKey_grantW {d : Nat} (hd : d < 5) : portKey (Obj.grantW (d + 1)) = false := by
  have h : ∀ d < 5, portKey (Obj.grantW (d + 1)) = false := by decide
  exact h d hd

theorem State.rd_applyGrant_watts {d : Nat} (hd : d < 5) : (s.applyGrant g).rd (Obj.grantW (d + 1)) = min 1800 (g.watts.getD d 0) := by
  have hne : ∀ j, j / 256 ≠ 0x2201 → Obj.grantW (d + 1) ≠ j := fun j hj e => hj (by rw [← e, Obj.grantW]; omega)
  rw [State.rd_applyGrant (portKey_grantW hd) (hne _ (by decide)) (hne _ (by decide)), State.grantTurn,
    (State.opTo_turns _ _).rd _ (hne _ (by decide)) (hne _ (by decide)),
    State.rd_grantLimits_ne (hne _ (by decide)) (hne _ (by decide)) (hne _ (by decide)), State.rd_grantWatts hd]

/-- A part of the power groups as a grant in force leaves it. -/
theorem State.applyGrant_of {α : Type} (f : PowerState → α) (hf : ∀ q : PowerState, f q.offRail = f q := by exact fun _ => rfl) :
    f (s.applyGrant g).power = f ((s.grantTurn g).grantEnd g).power := by
  rw [← hf, State.applyGrant_power, hf]

/-- What a grant in force leaves of the power groups. -/
theorem State.applyGrant_power_shows : (s.applyGrant g).power.next = none ∧ (s.applyGrant g).power.total = g.total ∧
    (s.applyGrant g).power.capPark = g.park ∧
    (s.applyGrant g).power.e2From = (if g.deferred = 0 then none else some (s.power.e2From.getD s.now)) ∧
    (s.applyGrant g).power.grantAt = s.power.grantAt := by
  rw [State.applyGrant_of PowerState.next, State.applyGrant_of PowerState.total, State.applyGrant_of PowerState.capPark,
    State.applyGrant_of PowerState.e2From, State.applyGrant_of PowerState.grantAt, State.grantEnd_power, State.grantTurn_now]
  have he : (s.grantTurn g).power.e2From = s.power.e2From := State.grantTurn_of PowerState.e2From (fun _ => rfl) fun _ => rfl
  refine ⟨rfl, rfl, State.grantTurn_of PowerState.capPark (fun _ => rfl) fun _ => rfl, ?_, State.grantTurn_of PowerState.grantAt (fun _ => rfl) fun _ => rfl⟩
  dsimp only
  rw [he]

theorem State.applyGrant_starved (h : g.deferred = 0) : (s.applyGrant g).inEpisode Ev.backgroundStarved 0 = false := by
  rw [State.applyGrant_eq, (State.repower_repowers _).inEpisode, State.grantEnd, if_pos h]
  exact State.inEpisode_endEpisode_self

/-- An object that neither the grant nor the power state concerns. -/
theorem State.rd_applyGrant_ne (hg : grantKey k = false) (hp : parkKey k = false) (hs : k ∉ servingKeys) (hc : capKey k = false) :
    (s.applyGrant g).rd k = s.rd k := by
  have hk : portKey k = false := by rw [parkKey, Bool.or_eq_false_iff] at hp; exact hp.1
  have h : ∀ j, parkKey j = true → k ≠ j := fun j hj e => by rw [← e, hp] at hj; cases hj
  rw [State.rd_applyGrant hk (h _ (by decide)) (h _ (by decide)), State.rd_grantTurn_ne hg, (State.repower_repowers _).objs k hp,
    State.rd_grantCap hs hc]

/-! ### A grant at a module that is not parked -/

/-- A module that runs and has no cause to be parked runs on at the point that the grant names. -/
theorem State.applyGrant_point (hc : s.power.change = none) (hr : s.rd Obj.powerState < 2) (hp : { s.power with capPark := g.park }.parks = false) :
    (s.rd Obj.opInForce < g.op → (s.applyGrant g).rd Obj.opInForce = g.op ∧ (s.applyGrant g).power.change = some g.op) ∧
    (g.op < s.rd Obj.opInForce → (s.applyGrant g).rd Obj.opInForce = s.rd Obj.opInForce ∧ (s.applyGrant g).power.change = some g.op) ∧
    (g.op = s.rd Obj.opInForce → (s.applyGrant g).rd Obj.opInForce = g.op ∧ (s.applyGrant g).power.change = none) ∧
    (s.applyGrant g).rd Obj.powerState < 2 := by
  have hcause : (s.grantCap g).power.parks = false := by
    have h : (s.grantCap g).power.offTimes.parks = false := by
      rw [State.grantCap_power]
      exact hp
    exact h
  have hrun : (s.grantCap g).rd Obj.powerState < 2 := by rwa [State.rd_grantCap (by decide) (by decide)]
  have hop : ((s.grantCap g).repower.grantWatts g |>.grantLimits g).rd Obj.opInForce = s.rd Obj.opInForce := by
    rw [State.rd_grantLimits_ne (by decide) (by decide) (by decide), State.rd_grantWatts_ne (by decide), State.rd_repower_still (.inl hrun) (by decide),
      State.rd_grantCap (by decide) (by decide)]
  have hch : ((s.grantCap g).repower.grantWatts g |>.grantLimits g).power.change = none := by
    have hcap : (s.grantCap g).power.offTimes.change = s.power.offTimes.change := by rw [State.grantCap_power]
    have hrep : (s.grantCap g).repower.power.offRail.change = (s.grantCap g).power.offRail.change := by
      rw [State.repower_still_power (.inl hrun)]
    rw [State.grantLimits_power, State.grantWatts_power]
    exact hrep.trans (hcap.trans hc)
  have hturn := State.opTo_idle (op := g.op) hch
  rw [hop] at hturn
  have hwant : ((s.grantTurn g).grantEnd g).wantPower < 2 := by
    rw [← Nat.not_le, State.two_le_wantPower, State.grantEnd_power]
    refine fun ⟨_, h⟩ => absurd (h.symm.trans ?_) (by decide : ¬ true = false)
    exact (State.grantTurn_of PowerState.parks (fun _ => rfl) fun _ => rfl).trans hp
  have hchange : (s.applyGrant g).power.change = (s.grantTurn g).power.change := by
    rw [State.applyGrant_of PowerState.change, State.grantEnd_power]
  rw [State.rd_applyGrant (k := Obj.opInForce) (by decide), hchange]
  refine ⟨hturn.1, hturn.2.1, hturn.2.2, ?_⟩
  rw [State.applyGrant_eq, State.rd_repower_powerState]
  split <;> omega

/-! ### Grants and restarts -/

theorem State.grantTake_in_force (hg : s.power.next = some g)
    (h : g.fallback = false ∧ 1000 * (g.epoch + 1) ≤ s.now ∨ g.fallback = true ∧ s.power.change = none) : s.grantTake = s.applyGrant g := by
  unfold State.grantTake
  rw [hg]
  refine if_neg fun hn => ?_
  rcases h with ⟨hf, he⟩ | ⟨hf, hc⟩
  · simp only [hf, Bool.false_eq_true, false_and, not_false_eq_true, true_and, false_or] at hn
    omega
  · simp [hf, hc] at hn

theorem State.grantTake_waits (hg : s.power.next = some g)
    (h : ¬ (g.fallback = false ∧ 1000 * (g.epoch + 1) ≤ s.now ∨ g.fallback = true ∧ s.power.change = none)) : s.grantTake = s := by
  unfold State.grantTake
  rw [hg]
  refine if_pos ?_
  cases hf : g.fallback
  · exact .inr ⟨by simp, by rw [hf] at h; simp only [true_and, Bool.false_eq_true, false_and, or_false] at h; omega⟩
  · exact .inl ⟨rfl, Option.isSome_iff_ne_none.2 fun hc => h (.inr ⟨hf, hc⟩)⟩

/-- The floors that a restart grants. -/
def State.restartGrant (s : State) : Grant :=
  let (op, duty) := match s.power.next with
    | some g => (g.op, g.duty)
    | none => (s.power.change.getD (s.rd Obj.opInForce), s.rd Obj.duty)
  { s.floorGrant (if op = 7 then duty else 256) s.power.capPark with fallback := true }

theorem State.restartGrant_floors (s : State) : ∃ d, s.restartGrant = { s.floorGrant d s.power.capPark with fallback := true } := by
  unfold State.restartGrant
  exact ⟨_, rfl⟩

/-- The state of a restart: its floors are the next grant. -/
def State.restarting (s : State) : State :=
  s.setPower fun (p : PowerState) => { p with next := some s.restartGrant, grantAt := s.now }

theorem State.bellowsRestart_eq (hb : s.bellowsOn = true) (ht : 100 * us ≤ s.now - s.power.grantAt) :
    s.bellowsRestart = s.restarting.grantTake.raise Ev.bellowsRestart [] := by
  have hrun : ¬ (¬ s.bellowsOn = true ∨ s.now - s.power.grantAt < 100 * us) := by
    rw [hb]
    simp only [not_true_eq_false, false_or]
    omega
  unfold State.bellowsRestart
  rw [if_neg hrun]
  unfold State.restarting State.restartGrant
  cases s.power.next <;> rfl

theorem State.bellowsGrant_eq (hb : s.bellowsOn = true) (ht : 200 ≤ s.now % 1000) (he : s.power.epoch < s.now / 1000) :
    s.bellowsGrant.rd Obj.capInForceW = min 1800 s.capNow.1 ∧ s.bellowsGrant.rd Obj.capLimiter = s.capNow.2 ∧
    (∃ g, s.bellowsGrant.power.next = some g ∧ g.epoch = s.now / 1000 ∧ g.fallback = false ∧
      ((s.capNow.1 < 210 ∨ s.heldDown = true) →
        g.watts = (List.range 5).map Config.floorW ∧ g.op = 7 ∧ g.deferred = 2 ∧ (g.park = true ↔ s.capNow.1 < 210))) ∧
    s.bellowsGrant.power.epoch = s.now / 1000 ∧ s.bellowsGrant.power.grantAt = s.now := by
  have hrun : ¬ (¬ s.bellowsOn = true ∨ s.now % 1000 < 200 ∨ s.now / 1000 ≤ s.power.epoch) := by
    rw [hb]
    simp only [not_true_eq_false, false_or]
    omega
  unfold State.bellowsGrant
  rw [if_neg hrun]
  rcases s.capNow with ⟨cap, lim⟩
  dsimp only
  refine ⟨(State.rd_wr_ne (by decide)).trans (State.rd_wr_self ..), State.rd_wr_self .., ⟨_, rfl, ?_, ?_, fun h => ?_⟩, rfl, rfl⟩
  · split <;> rfl
  · split <;> rfl
  · rw [if_pos h]
    exact ⟨rfl, rfl, rfl, decide_eq_true_iff⟩

/-! ### The statement -/

/-- Settles O27, command by command. -/
theorem bellowsGrantsPower : Obligations.BellowsGrantsPower := by
  unfold Obligations.BellowsGrantsPower
  refine ⟨?demand, ?demandOff, ?grant, ?grantOff, ?effect, ?point, ?waits, ?none, ?done, ?doneOff, ?timeout, ?timeoutOff, ?restart, ?restartWaits,
    ?restartOff, ?starved, ?starvedOn, ?starvedOff⟩
  case demand =>
    intro s d e0 e1 e2 perOp h
    refine ⟨_, rfl, ?_⟩
    rw [State.takeDemand, if_neg (by rw [h]; simp)]
    exact ⟨Tab.get_set_self .., State.rd_wr_self .., if_congr Fin.val_eq_zero_iff rfl rfl⟩
  case demandOff => exact fun s d e0 e1 e2 perOp h => ⟨_, rfl, if_pos (by rw [h]; simp)⟩
  case grant => exact fun s hb ht he => ⟨_, rfl, State.bellowsGrant_eq hb ht he⟩
  case grantOff => exact fun s h => ⟨_, rfl, if_pos (h.imp_left (by simp))⟩
  case effect =>
    intro s g hg h
    refine ⟨_, rfl, ?_⟩
    rw [State.grantTake_in_force hg h]
    obtain ⟨hd, hf, hb⟩ := State.applyGrant_shows (s := s) (g := g)
    obtain ⟨hn, ht, hc, he, -⟩ := State.applyGrant_power_shows (s := s) (g := g)
    exact ⟨hd, hf, hb, hn, ht, hc, he, State.applyGrant_starved, fun d hd => State.rd_applyGrant_watts hd⟩
  case point =>
    intro s g hg h hc hr hp hdeep hdown
    refine ⟨_, rfl, ?_⟩
    rw [State.grantTake_in_force hg h]
    refine State.applyGrant_point hc hr ?_
    simp only [State.heldDown, Bool.or_eq_false_iff] at hdown
    obtain ⟨⟨⟨hh, hheat⟩, hin⟩, htray⟩ := hdown
    simp only [PowerState.parks, hp, hdeep, hh, hheat, hin, htray, Bool.or_false]
  case waits => exact fun s g hg h => ⟨_, rfl, State.grantTake_waits hg h⟩
  case none =>
    intro s h
    refine ⟨_, rfl, ?_⟩
    rw [State.grantTake, h]
  case done =>
    intro s c hc hr
    refine ⟨_, rfl, ?_⟩
    rw [State.opDone, hc]
    dsimp only
    rw [if_neg (by rw [hr]; simp)]
    exact ⟨State.rd_clockTo_self, rfl, congrArg (· + 1000) (State.clockTo_now (s := s.account))⟩
  case doneOff =>
    intro s h
    refine ⟨_, rfl, ?_⟩
    cases hc : s.power.change with
    | none => rw [State.opDone, hc]
    | some c =>
      rw [State.opDone, hc]
      exact if_pos (by rw [h.resolve_left (by rw [hc]; simp)]; simp)
  case timeout =>
    intro s d hb ht he
    refine ⟨_, rfl, ?_⟩
    rw [State.bellowsTimeout, if_neg (by rw [hb, ht]; simp only [not_true_eq_false, Bool.false_eq_true, false_or]; omega)]
    refine ⟨?_, (congrArg PowerState.perOp (State.raise_power ..)).trans (if_congr Fin.val_eq_zero_iff rfl rfl),
      State.rd_raise_occurrences (by decide) (by decide)⟩
    rw [State.demand, State.raise_power]
    show (Tab.find (Tab.erase _ _) _).getD _ = _
    rw [Tab.find_erase_self]
    rfl
  case timeoutOff => exact fun s d h => ⟨_, rfl, if_pos (h.imp_left (by simp))⟩
  case restart =>
    intro s hb ht hc
    refine ⟨_, rfl, ?_⟩
    obtain ⟨d, hd⟩ := s.restartGrant_floors
    have hnext : s.restarting.power.next = some s.restartGrant := rfl
    have hfb : s.restartGrant.fallback = true := by rw [hd]
    rw [State.bellowsRestart_eq hb ht, State.grantTake_in_force hnext (.inr ⟨hfb, hc⟩)]
    obtain ⟨-, hf, hbud⟩ := State.applyGrant_shows (s := s.restarting) (g := s.restartGrant)
    obtain ⟨hn, htot, hcap, -, hat⟩ := State.applyGrant_power_shows (s := s.restarting) (g := s.restartGrant)
    rw [State.raise_power]
    refine ⟨(State.rd_raise (by decide) (by decide)).trans (hf.trans (by rw [hd]; rfl)),
      (State.rd_raise (by decide) (by decide)).trans (hbud.trans (by rw [hd]; rfl)), hn, htot.trans (by rw [hd]; rfl), hat, hcap.trans (by rw [hd]; rfl),
      ?_⟩
    rw [State.rd_raise_occurrences (by decide) (by decide), State.rd_applyGrant_ne (by decide) (by decide) (by decide) (by decide)]
    rfl
  case restartWaits =>
    intro s hb ht hc
    refine ⟨_, rfl, ?_⟩
    obtain ⟨d, hd⟩ := s.restartGrant_floors
    have hnext : s.restarting.power.next = some s.restartGrant := rfl
    have hwait : ¬ (s.restartGrant.fallback = false ∧ 1000 * (s.restartGrant.epoch + 1) ≤ s.restarting.now ∨
        s.restartGrant.fallback = true ∧ s.restarting.power.change = none) := by
      rw [hd]
      rintro (⟨h, -⟩ | ⟨-, h⟩)
      · exact absurd h (by simp)
      · exact hc h
    rw [State.bellowsRestart_eq hb ht, State.grantTake_waits hnext hwait, State.raise_power]
    refine ⟨⟨_, hnext, by rw [hd], by rw [hd]; rfl, by rw [hd]; rfl, by rw [hd]; rfl⟩, rfl, rfl, ?_⟩
    exact State.rd_raise_occurrences (by decide) (by decide)
  case restartOff => exact fun s h => ⟨_, rfl, if_pos (h.imp_left (by simp))⟩
  case starved =>
    intro s f hf ht he
    refine ⟨_, rfl, ?_⟩
    rw [State.starved, hf]
    dsimp only
    rw [if_pos ht]
    exact ⟨State.inEpisode_raiseOnce_self, State.rd_raiseOnce_occurrences he⟩
  case starvedOn =>
    intro s f hf ht he
    refine ⟨_, rfl, ?_⟩
    rw [State.starved, hf]
    dsimp only
    rw [if_pos ht, State.raiseOnce_open he]
  case starvedOff =>
    intro s h
    refine ⟨_, rfl, ?_⟩
    cases hf : s.power.e2From with
    | none => rw [State.starved, hf]
    | some f =>
      rw [hf] at h
      rw [State.starved, hf]
      exact if_neg (by simpa using h)

end Sys2Proof.Machine
end

section
/-! SUPPORT. What the estimator shows, the pace ceiling, and the statement on measured power. -/
namespace Sys2Proof.Machine

variable {s t : State} {xs : List (Nat × Nat)} {a : Activity} {k : Nat}

/-! ### The input as measured (R357) -/

/-! These three equations hold by definition; `(rfl)` has them used as rewrite rules, as the kernel would compute with the literals of a
measurement to see that they hold. -/

theorem State.rd_setPower {f : PowerState → PowerState} : (s.setPower f).rd k = s.rd k := (rfl)
theorem State.setPower_power {f : PowerState → PowerState} : (s.setPower f).power = f s.power := (rfl)
theorem State.power_wr {v : Nat} : (s.wr k v).power = s.power := (rfl)

theorem State.rd_endUnless {c : Prop} [Decidable c] {code i : Nat} : (if c then s else s.endEpisode code i).rd k = s.rd k := by split <;> rfl
theorem State.endUnless_power {c : Prop} [Decidable c] {code i : Nat} : (if c then s else s.endEpisode code i).power = s.power := by split <;> rfl

/-- The power groups once a millisecond of `uw` is measured. -/
def PowerState.measured (p : PowerState) (xs : List (Nat × Nat)) (uw : Nat) : PowerState :=
  { p with samples := xs, pins := (uw :: p.pins).take 100, energy := (p.energy + uw) % 1000000000 }

/-- What a measurement shows. -/
theorem State.measure_shows (s : State) (xs : List (Nat × Nat)) :
    (s.measure xs).rd Obj.vinMv = min 60000 (sampleMeans xs).1 ∧ (s.measure xs).rd Obj.iinMa = min 60000 (sampleMeans xs).2.1 ∧
    (s.measure xs).rd Obj.pinW = min 2400 ((sampleMeans xs).2.2 / 1000000) ∧
    (s.measure xs).rd Obj.energyJ = s.rd Obj.energyJ + (s.power.energy + (sampleMeans xs).2.2) / 1000000000 ∧
    (s.measure xs).power = s.power.measured xs (sampleMeans xs).2.2 := by
  unfold State.measure
  rcases sampleMeans xs with ⟨vin, iin, uw⟩
  simp (disch := decide) only [State.rd_endUnless, State.endUnless_power, State.rd_setPower, State.setPower_power, State.rd_wr_self, State.rd_wr_ne,
    State.power_wr, PowerState.measured, and_self]

/-! ### The estimator (R364) -/

/-- The estimate of a millisecond: the domains' and the conversion loss. -/
def State.estOf (s : State) (a : Activity) : Nat := ((List.range 5).map (s.domainEst a)).sum + convLoss ((List.range 5).map (s.domainEst a)).sum

/-- The estimate against the measured power, in watts. -/
def State.errOf (s : State) (xs : List (Nat × Nat)) (a : Activity) : Int :=
  ((s.power.gain.mul ⟨s.estOf a, 1000000, 0⟩).sub ⟨(sampleMeans xs).2.2, 1000000, 0⟩).round

/-- The estimates and the error shown, before the gain moves. -/
def State.showEstimate (s : State) (err : Int) (est : Nat) (ests : List Nat) (a : Activity) : State :=
  (s.wrIn Obj.estErrorW (-2400) 2400 err).setPower fun (p : PowerState) => { p with est := est, ests := ests, act := a }

/-- The next gain, shown, and its drift noted once while it is held at a bound. -/
def State.regain (s : State) (uw est : Nat) (g : Nat × Nat × Bool) : State :=
  let t := (s.setPower fun (p : PowerState) => { p with kNum := g.1, kDen := g.2.1 }).wr Obj.estGain (toFloat .g16 (.fin ⟨g.1, g.2.1, 0⟩)).1
  if g.2.2 then t.raiseOnce Ev.estimatorDrift 0 [p32 (uw / 1000000), p32 (est / 1000000)] else t.endEpisode Ev.estimatorDrift 0

/-- The gain that follows, where there is an estimate. -/
def State.regainIf (s : State) (uw est : Nat) : State := if est = 0 then s else s.regain uw est (nextGain s.power.kNum s.power.kDen uw est)

theorem State.estimate_eq (hb : s.bellowsOn = true) : s.estimate xs a =
    ((s.measure xs).showEstimate (s.errOf xs a) (s.estOf a) ((List.range 5).map (s.domainEst a)) a).regainIf (sampleMeans xs).2.2 (s.estOf a) := by
  unfold State.estimate State.regainIf
  rw [if_neg (by rw [hb]; simp)]
  extract_lets uw ests est err v w
  have hw : (s.measure xs).showEstimate (s.errOf xs a) (s.estOf a) ((List.range 5).map (s.domainEst a)) a = w := rfl
  have he : s.estOf a = est := rfl
  have hu : (sampleMeans xs).2.2 = uw := rfl
  rw [hw, he, hu]
  split
  · rfl
  · rcases nextGain w.power.kNum w.power.kDen uw est with ⟨n, d, out⟩
    rfl

theorem State.regain_power {uw est : Nat} {g : Nat × Nat × Bool} : (s.regain uw est g).power = { s.power with kNum := g.1, kDen := g.2.1 } := by
  unfold State.regain
  extract_lets t
  have h : t.power = { s.power with kNum := g.1, kDen := g.2.1 } := rfl
  clear_value t
  split
  · exact (State.raiseOnce_power ..).trans h
  · exact h

theorem State.rd_regain {uw est : Nat} {g : Nat × Nat × Bool} (hk : eventKey k = false) (hg : k ≠ Obj.estGain) : (s.regain uw est g).rd k = s.rd k := by
  unfold State.regain
  extract_lets t
  have h : t.rd k = s.rd k := State.rd_wr_ne hg
  clear_value t
  split
  · exact (State.rd_raiseOnce hk (by decide)).trans h
  · exact h

theorem State.rd_regainIf {uw est : Nat} (hk : eventKey k = false) (hg : k ≠ Obj.estGain) : (s.regainIf uw est).rd k = s.rd k := by
  unfold State.regainIf
  split
  · rfl
  · exact State.rd_regain hk hg

/-- The gain of the next millisecond. -/
def gainNext (kNum kDen uw est : Nat) : Nat × Nat :=
  if est = 0 then (kNum, kDen) else ((nextGain kNum kDen uw est).1, (nextGain kNum kDen uw est).2.1)

theorem State.regainIf_power {uw est : Nat} :
    (s.regainIf uw est).power = { s.power with kNum := (gainNext s.power.kNum s.power.kDen uw est).1, kDen := (gainNext s.power.kNum s.power.kDen uw est).2 } := by
  unfold State.regainIf gainNext
  split
  · rfl
  · exact State.regain_power

/-- What the estimate and its gain show, whatever the estimate is. -/
theorem State.showEstimate_shows {err : Int} {est uw : Nat} {es : List Nat} :
    (∀ k, eventKey k = false → k ≠ Obj.estGain → k ≠ Obj.estErrorW → ((s.showEstimate err est es a).regainIf uw est).rd k = s.rd k) ∧
    ((s.showEstimate err est es a).regainIf uw est).rd Obj.estErrorW = ofInt 32 (max (-2400) (min 2400 err)) ∧
    ((s.showEstimate err est es a).regainIf uw est).power.est = est ∧ ((s.showEstimate err est es a).regainIf uw est).power.ests = es ∧
    ((s.showEstimate err est es a).regainIf uw est).power.pins = s.power.pins ∧
    ((s.showEstimate err est es a).regainIf uw est).power.samples = s.power.samples ∧
    (((s.showEstimate err est es a).regainIf uw est).power.kNum, ((s.showEstimate err est es a).regainIf uw est).power.kDen) =
      gainNext s.power.kNum s.power.kDen uw est := by
  refine ⟨fun k hk hg he => ?_, ?_, ?_⟩
  · rw [State.rd_regainIf hk hg]
    exact State.rd_wr_ne he
  · rw [State.rd_regainIf (by decide) (by decide)]
    exact State.rd_wr_self ..
  · rw [State.regainIf_power]
    exact ⟨rfl, rfl, rfl, rfl, rfl⟩

/-- What an update shows beside the measurement. -/
theorem State.estimate_shows (hb : s.bellowsOn = true) :
    (∀ k, eventKey k = false → k ≠ Obj.estGain → k ≠ Obj.estErrorW → (s.estimate xs a).rd k = (s.measure xs).rd k) ∧
    (s.estimate xs a).rd Obj.estErrorW = ofInt 32 (max (-2400) (min 2400 (s.errOf xs a))) ∧
    (s.estimate xs a).power.est = s.estOf a ∧ (s.estimate xs a).power.ests = (List.range 5).map (s.domainEst a) ∧
    (s.estimate xs a).power.pins = (s.measure xs).power.pins ∧ (s.estimate xs a).power.samples = (s.measure xs).power.samples ∧
    ((s.estimate xs a).power.kNum, (s.estimate xs a).power.kDen) =
      gainNext (s.measure xs).power.kNum (s.measure xs).power.kDen (sampleMeans xs).2.2 (s.estOf a) := by
  rw [State.estimate_eq hb]
  exact State.showEstimate_shows

/-! ### The pace ceiling (R373) -/

/-- The limits that the other members report. -/
def State.paceLimits (s : State) : List (Nat × Nat) := s.others.filterMap fun m => (s.limitOf m).map fun v => (v, m)

/-- The first of the least, from `x` on. -/
theorem foldl_least (r : List (Nat × Nat)) (x : Nat × Nat) :
    r.foldl (fun b y => if y.1 < b.1 then y else b) x ∈ x :: r ∧ ∀ y ∈ x :: r, (r.foldl (fun b y => if y.1 < b.1 then y else b) x).1 ≤ y.1 := by
  induction r generalizing x with
  | nil => simp
  | cons z r ih =>
    obtain ⟨hm, hle⟩ := ih (if z.1 < x.1 then z else x)
    have hz : (if z.1 < x.1 then z else x).1 ≤ z.1 ∧ (if z.1 < x.1 then z else x).1 ≤ x.1 := by split <;> omega
    rw [List.foldl_cons]
    refine ⟨?_, fun y hy => ?_⟩
    · rcases List.mem_cons.1 hm with h | h
      · rw [h]
        split <;> simp
      · exact List.mem_cons_of_mem _ (List.mem_cons_of_mem _ h)
    · have hfirst := hle _ List.mem_cons_self
      rcases List.mem_cons.1 hy with rfl | hy
      · omega
      · rcases List.mem_cons.1 hy with rfl | hy
        · omega
        · exact hle y (List.mem_cons_of_mem _ hy)

/-- The time counted changes none of the limits. -/
theorem State.account_paceLimits : s.account.paceLimits = s.paceLimits := by
  have h := s.account_attends
  have hm : s.account.others = s.others := by
    rw [State.others, State.others, State.members, State.members, State.bitmap, State.bitmap, State.ownModule, State.ownModule,
      h.rd Obj.groupMembers (by decide), h.rd Obj.planModule (by decide)]
  have hl : s.account.limitOf = s.limitOf := by
    funext m
    rw [State.limitOf, State.limitOf, State.paceOf, State.paceOf, h.link, h.rd Obj.planPod (by decide), h.now]
  rw [State.paceLimits, State.paceLimits, hm, hl]

theorem State.account_paceOn :
    (s.account.rd Obj.paceFollow == 1 && s.account.rd Obj.groupSync == 1) = (s.rd Obj.paceFollow == 1 && s.rd Obj.groupSync == 1) := by
  rw [s.account_attends.rd Obj.paceFollow (by decide), s.account_attends.rd Obj.groupSync (by decide)]

/-- The slowest of the members that limit the pace is its source. -/
theorem State.paceCeiling_source (hf : s.rd Obj.paceFollow = 1) (hg : s.rd Obj.groupSync = 1) (hl : s.paceLimits ≠ []) :
    ∃ b ∈ s.paceLimits, (∀ y ∈ s.paceLimits, b.1 ≤ y.1) ∧ s.paceCeiling.rd Obj.paceSource = b.2 ∧
      s.paceCeiling.rd Obj.ceilingPace = ((List.range 8).filter fun i => decide (b.1 ≤ paceOfOp i)).getLastD 0 := by
  have hon := State.account_paceOn (s := s)
  have hls := State.account_paceLimits (s := s)
  obtain ⟨x, r, hxr⟩ := List.exists_cons_of_ne_nil hl
  obtain ⟨hm, hle⟩ := foldl_least r x
  rw [hxr]
  refine ⟨_, hm, hle, ?_⟩
  unfold State.paceCeiling
  extract_lets v ls on
  have hlv : ls = x :: r := hls.trans hxr
  have honv : on = true := hon.trans (by rw [hf, hg]; rfl)
  rw [honv, hlv]
  exact ⟨State.rd_wr_self .., (State.rd_wr_ne (by decide)).trans (State.rd_wr_self ..)⟩

theorem State.paceCeiling_free (h : s.rd Obj.paceFollow ≠ 1 ∨ s.rd Obj.groupSync ≠ 1 ∨ s.paceLimits = []) :
    s.paceCeiling.rd Obj.ceilingPace = 0 ∧ s.paceCeiling.rd Obj.paceSource = 0xFFFF := by
  have hon := State.account_paceOn (s := s)
  have hls := State.account_paceLimits (s := s)
  unfold State.paceCeiling
  extract_lets v ls on
  have hlv : ls = s.paceLimits := hls
  have honv : on = (s.rd Obj.paceFollow == 1 && s.rd Obj.groupSync == 1) := hon
  have hnil : (if on = true then ls else []) = [] := by
    rw [ite_eq_right_iff, honv, hlv, Bool.and_eq_true, beq_iff_eq, beq_iff_eq]
    rintro ⟨hf, hg⟩
    exact (h.resolve_left (fun e => e hf)).resolve_left fun e => e hg
  rw [hnil]
  exact ⟨(State.rd_wr_ne (by decide)).trans (State.rd_wr_self ..), State.rd_wr_self ..⟩

/-! ### The statement -/

/-- Settles O28. -/
theorem powerIsMeasuredAndPaceFollowed : Obligations.PowerIsMeasuredAndPaceFollowed := by
  unfold Obligations.PowerIsMeasuredAndPaceFollowed
  refine ⟨?runs, ?standby, ?off, ?cap, ?source, ?free⟩
  case runs =>
    intro s vin iin a hb
    refine ⟨_, rfl, ?_⟩
    obtain ⟨hv, hi, hw, he, hp⟩ := s.measure_shows (vin.zip iin)
    obtain ⟨hrd, herr, hest, hests, hpins, hsamples, hgain⟩ := State.estimate_shows (xs := vin.zip iin) (a := a) hb
    rw [hp] at hpins hsamples hgain
    unfold State.errOf at herr
    unfold State.estOf at hest herr hgain
    unfold gainNext at hgain
    exact ⟨(hrd _ (by decide) (by decide) (by decide)).trans hv, (hrd _ (by decide) (by decide) (by decide)).trans hi,
      (hrd _ (by decide) (by decide) (by decide)).trans hw, hpins, (hrd _ (by decide) (by decide) (by decide)).trans he, hsamples, hests, hest,
      herr, hgain⟩
  case standby =>
    intro s vin iin a hb hs
    refine ⟨_, rfl, ?_⟩
    have he : s.estimate (vin.zip iin) a = s.measure (vin.zip iin) := by
      rw [State.estimate, if_pos (by rw [hb]; simp), if_pos hs]
    obtain ⟨hv, hi, hw, he', hp⟩ := s.measure_shows (vin.zip iin)
    rw [he, hp]
    exact ⟨hv, hi, hw, rfl, he', rfl, rfl, rfl, rfl, rfl⟩
  case off =>
    intro s vin iin a hb hs
    refine ⟨_, rfl, ?_⟩
    rw [State.estimate, if_pos (by rw [hb]; simp), if_neg (by rw [hs]; simp)]
  case cap =>
    rintro s c a rfl rfl
    exact ⟨_, rfl, rfl⟩
  case source =>
    intro s hf hg hl
    refine ⟨_, rfl, ?_⟩
    have h := State.paceCeiling_source hf hg (by unfold State.paceLimits; exact hl)
    unfold State.paceLimits at h
    exact h
  case free =>
    intro s h
    refine ⟨_, rfl, ?_⟩
    exact State.paceCeiling_free (by unfold State.paceLimits; exact h)

end Sys2Proof.Machine
end

section
/-! SUPPORT. What the thermal responses leave, and the value of a sensor pair. -/
namespace Sys2Proof.Machine

variable {s t u : State} {k c i j : Nat}

/-! ### The thermal responses (R377, R383) -/

/-- The events of the thermal responses. -/
def heatEvents : List Nat := [Ev.thermalThrottle, Ev.thermalHigh, Ev.thermalCritical, Ev.holdDeep]

/-- The objects that the thermal responses may change. -/
def heatKey (k : Nat) : Bool := parkKey k || eventKey k || (Obj.ceilingThermal :: Obj.tj :: servingKeys).contains k

/-- The state of the power groups apart from what the thermal responses and a change of the power state set, and from the times counted. -/
def PowerState.offHeat (p : PowerState) : PowerState := { p.lasting.offTimes with heatPark := false, heatDuty := 0, highFrom := none, deep := false }

/-- `t` is `s` but for what the thermal responses do. -/
structure Warms (s t : State) : Prop where
  objs : ∀ k, heatKey k = false → t.rd k = s.rd k
  power : t.power.offHeat = s.power.offHeat
  now : t.now = s.now
  episodes : ∀ c i, c ∉ heatEvents → i < 2 ^ 32 → t.inEpisode c i = s.inEpisode c i
  flowLoss : t.start.flowLoss = s.start.flowLoss
  fresh : s.ArrayFresh → t.ArrayFresh

theorem heatKey_or (h : heatKey k = false) : parkKey k = false ∧ eventKey k = false ∧ k ≠ Obj.ceilingThermal ∧ k ≠ Obj.tj ∧ k ∉ servingKeys := by
  simp only [heatKey, Bool.or_eq_false_iff, List.contains_eq_mem, decide_eq_false_iff_not, List.mem_cons, not_or] at h
  obtain ⟨⟨hp, he⟩, hc, ht, hs⟩ := h
  exact ⟨hp, he, hc, ht, hs⟩

/-- Episodes of different events are kept apart. -/
theorem epKey_ne {c' i' : Nat} (hc : c ≠ c') (hi : i < 2 ^ 32) (hi' : i' < 2 ^ 32) : epKey c i ≠ epKey c' i' := by
  simp only [epKey]
  omega

namespace Warms

theorem refl (s : State) : Warms s s := ⟨fun _ _ => rfl, rfl, rfl, fun _ _ _ _ => rfl, rfl, id⟩

theorem trans (h : Warms s t) (h' : Warms t u) : Warms s u :=
  ⟨fun k hk => (h'.objs k hk).trans (h.objs k hk), h'.power.trans h.power, h'.now.trans h.now,
    fun c i hc hi => (h'.episodes c i hc hi).trans (h.episodes c i hc hi), h'.flowLoss.trans h.flowLoss, h'.fresh ∘ h.fresh⟩

theorem ite {q : Prop} [Decidable q] (ht : Warms s t) (hu : Warms s u) : Warms s (if q then t else u) := by split <;> assumption

theorem wr {v : Nat} (h : Warms s t) (hk : heatKey k = true := by decide) : Warms s (t.wr k v) :=
  h.trans ⟨fun i hi => State.rd_wr_ne (fun e => by rw [e, hk] at hi; cases hi), rfl, rfl, fun _ _ _ _ => rfl, rfl, id⟩

theorem setPower {f : PowerState → PowerState} (h : Warms s t) (hf : (f t.power).offHeat = t.power.offHeat := by rfl) : Warms s (t.setPower f) :=
  h.trans ⟨fun _ _ => rfl, hf, rfl, fun _ _ _ _ => rfl, rfl, id⟩

theorem repower (h : Warms s t) : Warms s t.repower :=
  have hr := State.repower_repowers t
  h.trans ⟨fun k hk => hr.objs k (heatKey_or hk).1, congrArg (fun q : PowerState => { q.offTimes with heatPark := false, heatDuty := 0, highFrom := none, deep := false })
    hr.power, hr.now, fun c i _ _ => hr.inEpisode c i, hr.flowLoss, hr.fresh⟩

/-- An event of the thermal responses. -/
theorem raiseOnce {code : Nat} {ps : List Bytes} (h : Warms s t) (hc : code ∈ heatEvents := by decide) : Warms s (t.raiseOnce code 0 ps) := by
  have hcat : ∀ c ∈ heatEvents, 256 ≤ c ∧ c < 4096 := by decide
  refine h.trans ⟨fun k hk => State.rd_raiseOnce (heatKey_or hk).2.1 (hcat _ hc), congrArg _ (State.raiseOnce_power ..), State.raiseOnce_now ..,
    fun c i hc' hi => State.inEpisode_raiseOnce_ne (epKey_ne (fun e => hc' (e ▸ hc)) hi (by decide)), by rw [State.raiseOnce_start],
    fun hf => by rwa [State.ArrayFresh, State.raiseOnce_cross]⟩

theorem endEpisode {code : Nat} (h : Warms s t) (hc : code ∈ heatEvents := by decide) : Warms s (t.endEpisode code 0) :=
  h.trans ⟨fun _ _ => rfl, rfl, rfl, fun _ _ hc' hi => State.inEpisode_endEpisode_ne (epKey_ne (fun e => hc' (e ▸ hc)) hi (by decide)), rfl, id⟩

theorem account (h : Warms s t) : Warms s t.account :=
  h.trans ⟨fun k hk => t.account_attends.rd k (heatKey_or hk).2.2.2.2, rfl, rfl, fun _ _ _ _ => rfl, rfl, id⟩

/-- A part of the power groups that stands. -/
theorem of {α : Type} (h : Warms s t) (f : PowerState → α) (hf : ∀ q : PowerState, f q.offHeat = f q := by exact fun _ => rfl) :
    f t.power = f s.power := by
  rw [← hf t.power, h.power, hf]

end Warms

/-- The head of the thermal responses: Tj shown. -/
def State.showTj (s : State) : State :=
  let s := s.account.wrIn Obj.tj (-200) 1550 s.account.tjNow
  { s with clock := { s.clock with tjMax := max s.clock.tjMax s.tjNow } }

/-- The responses that do not wait, before the power state is taken. -/
def State.heatResponses (s : State) (t : Int) : State :=
  let s := if s.throttleT < t then s.raiseOnce Ev.thermalThrottle 0 [] else s
  let s := if s.highT < t then
      ((s.raiseOnce Ev.thermalHigh 0 []).wr Obj.ceilingThermal 7).setPower fun (p : PowerState) => { p with highFrom := some (p.highFrom.getD s.now) }
    else s.setPower fun (p : PowerState) => { p with highFrom := none }
  let s := if 1050 < t then
      (s.raiseOnce Ev.thermalCritical 0 []).setPower fun (p : PowerState) => { p with heatPark := true, heatDuty := 0 } else s
  let s := if t ≤ s.throttleT - 20 then
      ((s.endEpisode Ev.thermalThrottle 0).endEpisode Ev.thermalHigh 0).endEpisode Ev.thermalCritical 0 else s
  if s.power.hold ∧ ¬ s.power.deep ∧ 1000 ≤ s.tjNow then
    (s.raiseOnce Ev.holdDeep 0 []).setPower fun (p : PowerState) => { p with deep := true } else s

theorem State.thermalNow_eq (s : State) : s.thermalNow = (s.showTj.heatResponses s.heatTemp).repower := rfl

theorem State.showTj_warms (s : State) : Warms s s.showTj :=
  have h : Warms s (s.account.wrIn Obj.tj (-200) 1550 s.account.tjNow) := (Warms.refl s).account.wr
  h.trans ⟨fun _ _ => rfl, rfl, rfl, fun _ _ _ _ => rfl, rfl, id⟩

theorem State.heatResponses_warms (s : State) (t : Int) : Warms s (s.heatResponses t) := by
  unfold State.heatResponses
  extract_lets s₁ s₂ s₃ s₄
  have h₁ : Warms s s₁ := .ite (.raiseOnce (.refl s)) (.refl s)
  clear_value s₁
  have h₂ : Warms s s₂ := .ite (.setPower (.wr (.raiseOnce h₁))) (.setPower h₁)
  clear_value s₂
  have h₃ : Warms s s₃ := .ite (.setPower (.raiseOnce h₂)) h₂
  clear_value s₃
  have h₄ : Warms s s₄ := .ite (.endEpisode (.endEpisode (.endEpisode h₃))) h₃
  clear_value s₄
  exact .ite (.setPower (.raiseOnce h₄)) h₄

theorem State.thermalNow_warms (s : State) : Warms s s.thermalNow := by
  rw [State.thermalNow_eq]
  exact (s.showTj_warms.trans (State.heatResponses_warms _ _)).repower

theorem State.rd_heatResponses {x : Int} (hk : eventKey k = false) (hc : k ≠ Obj.ceilingThermal) : (s.heatResponses x).rd k = s.rd k := by
  have hraise : ∀ (v : State) (code : Nat), code ∈ heatEvents → (v.raiseOnce code 0 []).rd k = v.rd k := by
    have hcat : ∀ c ∈ heatEvents, 256 ≤ c ∧ c < 4096 := by decide
    exact fun v code h => State.rd_raiseOnce hk (hcat _ h)
  unfold State.heatResponses
  extract_lets s₁ s₂ s₃ s₄
  have h₁ : s₁.rd k = s.rd k := by
    unfold s₁
    split
    · exact hraise _ _ (by decide)
    · rfl
  clear_value s₁
  have h₂ : s₂.rd k = s.rd k := by
    unfold s₂
    split
    · exact State.rd_setPower.trans ((State.rd_wr_ne hc).trans ((hraise _ Ev.thermalHigh (by decide)).trans h₁))
    · exact h₁
  clear_value s₂
  have h₃ : s₃.rd k = s.rd k := by
    unfold s₃
    split
    · exact (hraise _ _ (by decide)).trans h₂
    · exact h₂
  clear_value s₃
  have h₄ : s₄.rd k = s.rd k := by
    unfold s₄
    split <;> exact h₃
  clear_value s₄
  split
  · exact (hraise _ _ (by decide)).trans h₄
  · exact h₄

/-! ### Temperatures -/

/-- The values of the pairs are of no concern to the thermal responses, nor are the readings. -/
theorem heatKey_pairs : ∀ j < 24, heatKey (Obj.pairValue (j + 1)) = false ∧ heatKey (Obj.pairStatus (j + 1)) = false := by decide
theorem heatKey_sensorRaw : ∀ k < 48, heatKey (Obj.sensorRaw (k + 1)) = false := by decide

theorem State.tjNow_congr (h : ∀ j < 24, t.rd (Obj.pairValue (j + 1)) = s.rd (Obj.pairValue (j + 1))) : t.tjNow = s.tjNow := by
  have hp : ∀ j < 24, t.pairTemp j = s.pairTemp j := fun j hj => by rw [State.pairTemp, State.pairTemp, h j hj]
  unfold State.tjNow
  rw [hp 0 (by decide)]
  exact List.foldl_ext _ _ _ fun v k hk => by rw [hp (k + 1) (by have := List.mem_range.1 hk; omega)]

theorem Warms.tjNow (h : Warms s t) : t.tjNow = s.tjNow := State.tjNow_congr fun j hj => h.objs _ (heatKey_pairs j hj).1

/-- Tj as shown is the largest value of the die pairs, within its range. -/
theorem State.rd_tj_thermalNow : s.thermalNow.rd Obj.tj = ofInt 32 (max (-200) (min 1550 s.thermalNow.tjNow)) := by
  rw [s.thermalNow_warms.tjNow, State.thermalNow_eq, (State.repower_repowers _).objs _ (by decide), State.rd_heatResponses (by decide) (by decide)]
  have h : s.showTj.rd Obj.tj = ofInt 32 (max (-200) (min 1550 s.account.tjNow)) := State.rd_wr_self ..
  rw [h, (Warms.refl s).account.tjNow]

end Sys2Proof.Machine
end

section
/-! SUPPORT. Readings and the values of sensor pairs, and the statement on heat. -/
namespace Sys2Proof.Machine

variable {s t u : State} {k j pw : Nat} {a b v : Int}

/-! ### Readings (R375) -/

/-- Is a reading accepted: clean, of a sensor that is not discarded? -/
def Sensor.takes (x : Sensor) (now : Nat) (v : Int) : Bool := x.good now v && !x.discarded

/-- A sensor after a reading. -/
def Sensor.after (x : Sensor) (now : Nat) (v : Int) : Sensor :=
  if ¬ x.good now v then { x with discarded := true, cleanFrom := none }
  else if x.discarded then { x with cleanFrom := some (x.cleanFrom.getD now) }
  else { x with accepted := (now, v) :: keepReadings now x.accepted }

/-- A reading that is not accepted leaves its sensor discarded. -/
theorem Sensor.after_not_taken {x : Sensor} {now : Nat} (h : x.good now v = false ∨ x.discarded = true) :
    x.after now v = (if x.good now v = true then { x with cleanFrom := some (x.cleanFrom.getD now) } else { x with discarded := true, cleanFrom := none }) ∧
    (x.after now v).discarded = true := by
  unfold Sensor.after
  cases hg : x.good now v
  · simp
  · have hd : x.discarded = true := h.resolve_left (by rw [hg]; simp)
    simp [hd]

theorem Sensor.after_taken {x : Sensor} {now : Nat} (hg : x.good now v = true) (hd : x.discarded = false) :
    (x.after now v).discarded = false ∧ (x.after now v).accepted.head? = some (now, v) := by
  simp [Sensor.after, hg, hd]

/-- What a reading of sensor `k` does. -/
structure Reads (k : Nat) (v : Int) (s t : State) : Prop where
  sensor : t.sensor k = (s.sensor k).after s.now v
  others : ∀ i, i ≠ k → t.sensor i = s.sensor i
  power : { t.power with sensors := [] } = { s.power with sensors := [] }
  raw : t.rd (Obj.sensorRaw (k + 1)) = ofInt 32 (max (-400) (min 2000 v))
  rd : ∀ i, i ≠ Obj.sensorRaw (k + 1) → i ≠ Obj.sensorDiscards → t.rd i = s.rd i
  now : t.now = s.now
  dict : t.dict = s.dict

theorem State.sensor_setSensor {x : Sensor} : (s.setSensor k x).sensor k = x := Tab.get_set_self ..

theorem State.sensor_setSensor_ne {x : Sensor} {i : Nat} (h : i ≠ k) : (s.setSensor k x).sensor i = s.sensor i := Tab.get_set_ne _ _ h

theorem State.reading_reads (s : State) (hk : k < 48) : Reads k v s (s.reading k v) := by
  have hraw : Obj.sensorRaw (k + 1) ≠ Obj.sensorDiscards := by simp only [Obj.sensorRaw, Obj.sensorDiscards]; omega
  unfold State.reading
  extract_lets x w
  have hw : w.rd (Obj.sensorRaw (k + 1)) = ofInt 32 (max (-400) (min 2000 v)) := State.rd_wr_self ..
  have hrd : ∀ i, i ≠ Obj.sensorRaw (k + 1) → w.rd i = s.rd i := fun i hi => State.rd_wr_ne hi
  have hs : ∀ i, w.sensor i = s.sensor i := fun _ => rfl
  have hp : w.power = s.power := rfl
  have hn : w.now = s.now := rfl
  have hd : w.dict = s.dict := rfl
  clear_value w
  rw [hn]
  split
  · next h =>
    exact ⟨State.sensor_setSensor.trans (if_pos h).symm, fun i hi => (State.sensor_setSensor_ne hi).trans (hs i),
      congrArg (fun p : PowerState => { p with sensors := [] }) hp, (State.rd_count_ne hraw).trans hw, fun i hi hi' => (State.rd_count_ne hi').trans (hrd i hi), hn, hd⟩
  · next h =>
    split
    · next h' =>
      exact ⟨State.sensor_setSensor.trans ((if_neg h).trans (if_pos h')).symm, fun i hi => (State.sensor_setSensor_ne hi).trans (hs i),
        congrArg (fun p : PowerState => { p with sensors := [] }) hp, hw, fun i hi _ => hrd i hi, hn, hd⟩
    · next h' =>
      exact ⟨State.sensor_setSensor.trans ((if_neg h).trans (if_neg h')).symm, fun i hi => (State.sensor_setSensor_ne hi).trans (hs i),
        congrArg (fun p : PowerState => { p with sensors := [] }) hp, hw, fun i hi _ => hrd i hi, hn, hd⟩

/-! ### Both readings of a pair -/

/-- A pair's two readings taken, and its model. -/
def State.sensed (s : State) (j : Nat) (a b : Int) (pw : Nat) : State :=
  let s := (s.reading (2 * j) a).reading (2 * j + 1) b
  s.setPair j { s.pair j with model := s.pairModel j pw }

theorem State.sensorSample_eq (s : State) : s.sensorSample j a b pw = ((s.sensed j a b pw).formPair j).thermalNow := rfl

theorem State.pair_setPair {x : PairState} : (s.setPair j x).pair j = x := Tab.get_set_self ..

/-- The model reads nothing that a reading changes. -/
theorem State.pairModel_congr (hc : t.rd (Obj.pairCoeff (j + 1)) = s.rd (Obj.pairCoeff (j + 1)))
    (hp : { t.power with sensors := [] } = { s.power with sensors := [] }) : t.pairModel j pw = s.pairModel j pw := by
  have hcool := congrArg PowerState.coolant hp
  have hest := congrArg PowerState.est hp
  have hgain := congrArg PowerState.gain hp
  have hcool' : t.power.coolant = s.power.coolant := hcool
  have hest' : t.power.est = s.power.est := hest
  have hgain' : t.power.gain = s.power.gain := hgain
  rw [State.pairModel, State.pairModel, hc, hcool', hest', hgain']

/-- What the two readings leave in the pair. -/
structure Senses (j : Nat) (a b : Int) (pw : Nat) (s t : State) : Prop where
  first : t.sensor (2 * j) = (s.sensor (2 * j)).after s.now a
  second : t.sensor (2 * j + 1) = (s.sensor (2 * j + 1)).after s.now b
  pair : t.pair j = { s.pair j with model := s.pairModel j pw }
  raw₁ : t.rd (Obj.sensorRaw (2 * j + 1)) = ofInt 32 (max (-400) (min 2000 a))
  raw₂ : t.rd (Obj.sensorRaw (2 * j + 2)) = ofInt 32 (max (-400) (min 2000 b))
  temps : ∀ i < 24, t.pairTemp i = s.pairTemp i
  now : t.now = s.now

theorem State.sensed_senses (s : State) (hj : j < 24) : Senses j a b pw s (s.sensed j a b pw) := by
  have h₁ := s.reading_reads (k := 2 * j) (v := a) (by omega)
  have h₂ := (s.reading (2 * j) a).reading_reads (k := 2 * j + 1) (v := b) (by omega)
  unfold State.sensed
  generalize s.reading (2 * j) a = x at *
  generalize x.reading (2 * j + 1) b = y at *
  have hrd : ∀ i, i < 0x240100 ∨ 0x240200 ≤ i ∧ i < 0xa08005 → y.rd i = s.rd i := fun i hi =>
    (h₂.rd i (by simp only [Obj.sensorRaw]; omega) (by simp only [Obj.sensorDiscards]; omega)).trans
      (h₁.rd i (by simp only [Obj.sensorRaw]; omega) (by simp only [Obj.sensorDiscards]; omega))
  have hp : { y.power with sensors := [] } = { s.power with sensors := [] } := h₂.power.trans h₁.power
  have hpair := congrArg PowerState.pairs hp
  have hpairs : y.power.pairs = s.power.pairs := hpair
  have hraw : y.rd (Obj.sensorRaw (2 * j + 1)) = x.rd (Obj.sensorRaw (2 * j + 1)) :=
    h₂.rd _ (by simp only [Obj.sensorRaw]; omega) (by simp only [Obj.sensorRaw, Obj.sensorDiscards]; omega)
  refine ⟨(h₂.others _ (by omega)).trans h₁.sensor, ?_, ?_, hraw.trans h₁.raw, h₂.raw, fun i hi => ?_, h₂.now.trans h₁.now⟩
  · exact h₂.sensor.trans (by rw [h₁.others _ (by omega), h₁.now])
  · rw [State.pair_setPair, State.pairModel_congr (hrd _ (by simp only [Obj.pairCoeff]; omega)) hp, State.pair, hpairs]
    rfl
  · exact congrArg (toInt 32) (hrd _ (by simp only [Obj.pairValue]; omega))

/-! ### The value and status of a pair (R376) -/

/-- What forming the value of pair `j` leaves: the sensors, and every object but the pair's two and those of events. -/
structure PairForms (j : Nat) (s t : State) : Prop where
  sensors : t.power.sensors = s.power.sensors
  rd : ∀ i, i ≠ Obj.pairValue (j + 1) → i ≠ Obj.pairStatus (j + 1) → eventKey i = false → t.rd i = s.rd i

namespace PairForms

theorem refl (s : State) : PairForms j s s := ⟨rfl, fun _ _ _ _ => rfl⟩

theorem setPair {x : PairState} (h : PairForms j s t) : PairForms j s (t.setPair j x) := ⟨h.sensors, h.rd⟩

theorem endEpisode {c i : Nat} (h : PairForms j s t) : PairForms j s (t.endEpisode c i) := ⟨h.sensors, h.rd⟩

theorem raiseOnce {c i : Nat} {ps : List Bytes} (h : PairForms j s t) (hc : 256 ≤ c ∧ c < 4096 := by decide) : PairForms j s (t.raiseOnce c i ps) :=
  ⟨by rw [State.raiseOnce_power, h.sensors], fun i h₁ h₂ h₃ => (State.rd_raiseOnce h₃ hc).trans (h.rd i h₁ h₂ h₃)⟩

theorem setPairObj {st : Nat} (h : PairForms j s t) : PairForms j s (t.setPairObj j v st) :=
  ⟨h.sensors, fun i h₁ h₂ h₃ => (State.rd_wr_ne h₂).trans ((State.rd_wr_ne h₁).trans (h.rd i h₁ h₂ h₃))⟩

theorem ite {c : Prop} [Decidable c] (ht : PairForms j s t) (hu : PairForms j s u) : PairForms j s (if c then t else u) := by split <;> assumption

end PairForms

theorem State.pairBoth_forms (s : State) (j : Nat) (a b : Int) : PairForms j s (s.pairBoth j a b) := by
  unfold State.pairBoth
  extract_lets x d far calm suspect s₁ s₂ s₃
  have h₁ : PairForms j s s₁ := .setPair (.refl s)
  have h₂ : PairForms j s s₂ := .ite h₁ h₁.endEpisode
  have h₃ : PairForms j s s₃ := .ite h₂.endEpisode h₂
  exact .ite h₃.setPairObj (.ite h₃.setPairObj h₃.raiseOnce.setPairObj)

theorem State.formPair_forms (s : State) (j : Nat) : PairForms j s (s.formPair j) := by
  have hun : PairForms j s (s.unpaired j) := .setPair (.refl s)
  unfold State.formPair
  extract_lets m
  split
  · exact s.pairBoth_forms ..
  · exact hun.raiseOnce.setPairObj
  · exact hun.raiseOnce.setPairObj
  · exact hun.raiseOnce.setPairObj

/-- The two objects of a pair. -/
theorem State.rd_setPairObj {st : Nat} : (s.setPairObj j v st).rd (Obj.pairValue (j + 1)) = ofInt 32 (max (-200) (min 1550 v)) ∧
    (s.setPairObj j v st).rd (Obj.pairStatus (j + 1)) = st :=
  ⟨(State.rd_wr_ne (by simp only [Obj.pairValue, Obj.pairStatus]; omega)).trans (State.rd_wr_self ..), State.rd_wr_self ..⟩

/-- Has a pair been within 3 °C for 10 s, a reading `d` apart among them? -/
def PairState.calm (x : PairState) (now d : Nat) : Bool := decide (d ≤ 30) && decide (10000 * ms ≤ now - x.calmFrom.getD now)

/-- A pair whose two readings, `d` apart, have been taken. -/
def PairState.after (x : PairState) (now d : Nat) : PairState :=
  { x with
    overFrom := if 80 < d then some (x.overFrom.getD now) else none, calmFrom := if d ≤ 30 then some (x.calmFrom.getD now) else none
    suspect := x.suspect && !x.calm now d }

/-- The episodes of a pair that end with its readings. -/
def State.pairEnds (s : State) (j d : Nat) (suspect : Bool) : State :=
  let s := if suspect then s else s.endEpisode Ev.sensorSuspect j
  if d ≤ 30 then s.endEpisode Ev.sensorWarn j else s

theorem State.pairBoth_eq (s : State) (j : Nat) (a b : Int) : s.pairBoth j a b =
    (let x := (s.pair j).after s.now (a - b).natAbs
     let t := (s.setPair j x).pairEnds j (a - b).natAbs x.suspect
     if x.suspect then t.setPairObj j (max (max a b) (s.pair j).model) 2
     else if (a - b).natAbs ≤ 30 then t.setPairObj j (max a b) 0
     else (t.raiseOnce Ev.sensorWarn j [p8 j, p16 (ofInt 16 a), p16 (ofInt 16 b)]).setPairObj j (max a b) 1) := by
  have hcalm : (match if (a - b).natAbs ≤ 30 then some ((s.pair j).calmFrom.getD s.now) else none with
      | some t => decide (10000 * ms ≤ s.now - t)
      | none => false) = (s.pair j).calm s.now (a - b).natAbs := by
    unfold PairState.calm
    split <;> simp_all
  unfold PairState.after State.pairEnds
  rw [← hcalm]
  rfl

theorem State.pairEnds_power {d : Nat} {q : Bool} : (s.pairEnds j d q).power = s.power := by
  unfold State.pairEnds
  dsimp only
  split <;> split <;> rfl

theorem State.pair_pairEnds {d : Nat} {q : Bool} {x : PairState} : ((s.setPair j x).pairEnds j d q).pair j = x := by
  rw [State.pair, State.pairEnds_power]
  exact State.pair_setPair

/-- A pair that stays suspect shows the largest of its readings and the model. -/
theorem State.pairBoth_suspect (hj : j < 24) (hs : (s.pair j).suspect = true) (hc : (s.pair j).calm s.now (a - b).natAbs = false) :
    (s.pairBoth j a b).rd (Obj.pairValue (j + 1)) = ofInt 32 (max (-200) (min 1550 (max (max a b) (s.pair j).model))) ∧
    (s.pairBoth j a b).rd (Obj.pairStatus (j + 1)) = 2 ∧ ((s.pairBoth j a b).pair j).suspect = true ∧
    (s.inEpisode Ev.sensorSuspect j = true → (s.pairBoth j a b).inEpisode Ev.sensorSuspect j = true) := by
  have hx : ((s.pair j).after s.now (a - b).natAbs).suspect = true := by simp [PairState.after, hs, hc]
  have hp := State.pair_pairEnds (s := s) (j := j) (d := (a - b).natAbs) (q := true) (x := (s.pair j).after s.now (a - b).natAbs)
  rw [State.pairBoth_eq]
  dsimp only
  rw [if_pos hx, hx]
  refine ⟨State.rd_setPairObj.1, State.rd_setPairObj.2, ?_, fun he => ?_⟩
  · exact (congrArg PairState.suspect hp).trans hx
  · show State.inEpisode (State.pairEnds _ _ _ _) _ _ = true
    unfold State.pairEnds
    rw [if_pos rfl]
    split
    · exact (State.inEpisode_endEpisode_ne (epKey_ne (by decide) (by omega) (by omega))).trans he
    · exact he

/-- Two readings that agree show the larger. -/
theorem State.pairBoth_agree (hd : (a - b).natAbs ≤ 30) (hs : (s.pair j).suspect = false ∨ (s.pair j).calm s.now (a - b).natAbs = true) :
    (s.pairBoth j a b).rd (Obj.pairValue (j + 1)) = ofInt 32 (max (-200) (min 1550 (max a b))) ∧
    (s.pairBoth j a b).rd (Obj.pairStatus (j + 1)) = 0 ∧ ((s.pairBoth j a b).pair j).suspect = false := by
  have hx : ((s.pair j).after s.now (a - b).natAbs).suspect = false := by
    rcases hs with h | h <;> simp [PairState.after, h]
  have hp := State.pair_pairEnds (s := s) (j := j) (d := (a - b).natAbs) (q := false) (x := (s.pair j).after s.now (a - b).natAbs)
  rw [State.pairBoth_eq]
  dsimp only
  rw [hx, if_neg (by decide), if_pos hd]
  exact ⟨State.rd_setPairObj.1, State.rd_setPairObj.2, (congrArg PairState.suspect hp).trans hx⟩

/-- Two readings apart, of a pair that is not suspect, show the larger with a warning. -/
theorem State.pairBoth_warn (hd : 30 < (a - b).natAbs) (hs : (s.pair j).suspect = false) :
    (s.pairBoth j a b).rd (Obj.pairValue (j + 1)) = ofInt 32 (max (-200) (min 1550 (max a b))) ∧
    (s.pairBoth j a b).rd (Obj.pairStatus (j + 1)) = 1 ∧ (s.pairBoth j a b).inEpisode Ev.sensorWarn j = true := by
  have hx : ((s.pair j).after s.now (a - b).natAbs).suspect = false := by simp [PairState.after, hs]
  rw [State.pairBoth_eq]
  dsimp only
  rw [hx, if_neg (by decide), if_neg (by omega)]
  exact ⟨State.rd_setPairObj.1, State.rd_setPairObj.2, State.inEpisode_raiseOnce_self⟩

/-- The accepted reading of a sensor after one that it takes. -/
theorem State.acceptedOf_taken (h : t.sensor k = (s.sensor k).after s.now v) (hg : (s.sensor k).good s.now v = true)
    (hd : (s.sensor k).discarded = false) : t.acceptedOf k = some v := by
  obtain ⟨hd', ha⟩ := Sensor.after_taken hg hd
  rw [State.acceptedOf, h, hd', if_neg (by decide), ha]
  rfl

theorem State.acceptedOf_not_taken (h : t.sensor k = (s.sensor k).after s.now v)
    (hn : (s.sensor k).good s.now v = false ∨ (s.sensor k).discarded = true) : t.acceptedOf k = none := by
  rw [State.acceptedOf, h, (Sensor.after_not_taken hn).2]
  rfl

theorem State.formPair_both (h₁ : s.acceptedOf (2 * j) = some a) (h₂ : s.acceptedOf (2 * j + 1) = some b) : s.formPair j = s.pairBoth j a b := by
  rw [State.formPair, h₁, h₂]

/-- With the first reading alone the pair shows it or the model. -/
theorem State.formPair_first (h₁ : s.acceptedOf (2 * j) = some a) (h₂ : s.acceptedOf (2 * j + 1) = none) :
    (s.formPair j).rd (Obj.pairValue (j + 1)) = ofInt 32 (max (-200) (min 1550 (max a (s.pair j).model))) ∧
    (s.formPair j).rd (Obj.pairStatus (j + 1)) = 3 := by
  rw [State.formPair, h₁, h₂]
  exact State.rd_setPairObj

theorem State.formPair_second (h₁ : s.acceptedOf (2 * j) = none) (h₂ : s.acceptedOf (2 * j + 1) = some b) :
    (s.formPair j).rd (Obj.pairValue (j + 1)) = ofInt 32 (max (-200) (min 1550 (max b (s.pair j).model))) ∧
    (s.formPair j).rd (Obj.pairStatus (j + 1)) = 3 := by
  rw [State.formPair, h₁, h₂]
  exact State.rd_setPairObj

/-- With neither it shows the largest of the model and its neighbours, and 5 °C more. -/
theorem State.formPair_none (h₁ : s.acceptedOf (2 * j) = none) (h₂ : s.acceptedOf (2 * j + 1) = none) :
    (s.formPair j).rd (Obj.pairValue (j + 1)) =
      ofInt 32 (max (-200) (min 1550 ((pairNeighbours j).foldl (fun v k => max v (s.pairTemp k)) (s.pair j).model + 50))) ∧
    (s.formPair j).rd (Obj.pairStatus (j + 1)) = 4 := by
  rw [State.formPair, h₁, h₂]
  exact State.rd_setPairObj

/-- A pair found suspect stays so, with its episode, unless it has been calm for 10 s. -/
theorem State.formPair_suspect (hj : j < 24) (hs : (s.pair j).suspect = true) (he : s.inEpisode Ev.sensorSuspect j = true)
    (hc : ∀ d, (s.pair j).calm s.now d = false) : ((s.formPair j).pair j).suspect = true ∧ (s.formPair j).inEpisode Ev.sensorSuspect j = true := by
  have hun : ∀ (c : Nat) (i : Nat) (ps : List Bytes) (v : Int) (st : Nat),
      ((((s.unpaired j).raiseOnce c i ps).setPairObj j v st).pair j).suspect = true ∧
      (((s.unpaired j).raiseOnce c i ps).setPairObj j v st).inEpisode Ev.sensorSuspect j = true := fun c i ps v st => by
    refine ⟨?_, State.inEpisode_raiseOnce he⟩
    show (((s.unpaired j).raiseOnce c i ps).pair j).suspect = true
    rw [State.pair, State.raiseOnce_power]
    exact (congrArg PairState.suspect State.pair_setPair).trans hs
  unfold State.formPair
  extract_lets m
  split
  · next a b _ _ =>
    obtain ⟨-, -, hp, hep⟩ := State.pairBoth_suspect (a := a) (b := b) hj hs (hc _)
    exact ⟨hp, hep he⟩
  · exact hun ..
  · exact hun ..
  · exact hun ..

/-! ### A sample, whole -/

/-- What a sample leaves after its pair is formed: the sensors, the readings shown and Tj. -/
theorem State.sensorSample_rest (s : State) (hj : j < 24) :
    (s.sensorSample j a b pw).rd (Obj.sensorRaw (2 * j + 1)) = ofInt 32 (max (-400) (min 2000 a)) ∧
    (s.sensorSample j a b pw).rd (Obj.sensorRaw (2 * j + 2)) = ofInt 32 (max (-400) (min 2000 b)) ∧
    (s.sensorSample j a b pw).rd Obj.tj = ofInt 32 (max (-200) (min 1550 (s.sensorSample j a b pw).tjNow)) ∧
    (s.sensorSample j a b pw).sensor (2 * j) = (s.sensor (2 * j)).after s.now a ∧
    (s.sensorSample j a b pw).sensor (2 * j + 1) = (s.sensor (2 * j + 1)).after s.now b := by
  have hs := s.sensed_senses (a := a) (b := b) (pw := pw) hj
  rw [State.sensorSample_eq]
  generalize s.sensed j a b pw = u at *
  have hw := (u.formPair j).thermalNow_warms
  have hf := u.formPair_forms j
  have hsens : (u.formPair j).thermalNow.power.sensors = u.power.sensors := (hw.of PowerState.sensors).trans hf.sensors
  have hraw : ∀ i < 48, (u.formPair j).thermalNow.rd (Obj.sensorRaw (i + 1)) = u.rd (Obj.sensorRaw (i + 1)) := fun i hi =>
    (hw.objs _ (heatKey_sensorRaw i hi)).trans (hf.rd _ (by simp only [Obj.sensorRaw, Obj.pairValue]; omega)
      (by simp only [Obj.sensorRaw, Obj.pairStatus]; omega) (heatKey_or (heatKey_sensorRaw i hi)).2.1)
  refine ⟨(hraw (2 * j) (by omega)).trans hs.raw₁, (hraw (2 * j + 1) (by omega)).trans hs.raw₂, State.rd_tj_thermalNow, ?_, ?_⟩
  · rw [State.sensor, hsens]
    exact hs.first
  · rw [State.sensor, hsens]
    exact hs.second

/-- The pair's objects after a sample are those of its forming. -/
theorem State.rd_sensorSample_pair (s : State) (hj : j < 24) :
    (s.sensorSample j a b pw).rd (Obj.pairValue (j + 1)) = ((s.sensed j a b pw).formPair j).rd (Obj.pairValue (j + 1)) ∧
    (s.sensorSample j a b pw).rd (Obj.pairStatus (j + 1)) = ((s.sensed j a b pw).formPair j).rd (Obj.pairStatus (j + 1)) := by
  have hw := ((s.sensed j a b pw).formPair j).thermalNow_warms
  rw [State.sensorSample_eq]
  exact ⟨hw.objs _ (heatKey_pairs j hj).1, hw.objs _ (heatKey_pairs j hj).2⟩

theorem Warms.pair (h : Warms s t) : t.pair j = s.pair j := congrArg (fun p : Tab PairState => p.get PairState.fresh j) (h.of PowerState.pairs)

/-! ### What a loss keeps of the objects -/

/-- The objects that a loss puts right: those of checkpoints not taken (0x6820 to 0x6823) and of a slot that was receiving. -/
def mendKey (k : Nat) : Bool := decide (0x682000 ≤ k ∧ k < 0x682400) || decide (k = Obj.slotState 0) || decide (k = Obj.slotState 1)

theorem State.rd_dropUntaken (hk : mendKey k = false) : s.dropUntaken.rd k = s.rd k := by
  simp only [mendKey, Bool.or_eq_false_iff, decide_eq_false_iff_not] at hk
  refine List.foldlRecOn (motive := fun v : State => v.rd k = s.rd k) _ _ rfl fun v hv i hi => ?_
  have hi := List.mem_range.1 hi
  dsimp only
  split
  · exact hv
  · refine (State.rd_wr_ne ?_).trans ((State.rd_wr_ne ?_).trans ((State.rd_wr_ne ?_).trans ((State.rd_wr_ne ?_).trans hv))) <;>
    · simp only [Obj.ckptHandle, Obj.ckptStep, Obj.ckptDigest, Obj.ckptState]
      omega

theorem State.rd_loseFirmware {l : Loss} (hk : mendKey k = false) : (s.loseFirmware l).rd k = s.rd k := by
  simp only [mendKey, Bool.or_eq_false_iff, decide_eq_false_iff_not] at hk
  refine List.foldlRecOn (motive := fun v : State => v.rd k = s.rd k) (List.range 2) _ rfl fun v hv n hn => ?_
  have hn := List.mem_range.1 hn
  split
  · refine (State.rd_wr_ne ?_).trans hv
    simp only [Obj.slotState] at *
    omega
  · exact hv

theorem State.rd_filter {q : Nat → Bool} (hq : q k = true) : ({ s with obj := s.obj.filter fun x => q x.1 } : State).rd k = s.rd k := by
  have h := Tab.find_filter s.obj q k
  rw [if_pos hq] at h
  exact congrArg (fun o : Option Nat => o.getD (objDflt k)) h

/-- An object that a loss keeps. -/
theorem State.rd_lose {l : Loss} (hl : l.keeps k = true) (hk : mendKey k = false) : (s.lose l).rd k = s.rd k := by
  generalize e : s.lose l = t
  unfold State.lose at e
  extract_lets +onlyGivenNames -underBinder -merge a _ _ b c at e
  have ha : a.rd k = s.rd k := (State.rd_dropUntaken hk).trans rfl
  clear_value a
  have hb : b.rd k = a.rd k := State.rd_congr (t := b) (s := a) rfl k
  clear_value b
  have hc : c.rd k = (b.loseFirmware l).rd k := by
    unfold c State.loseStart State.loseDict
    cases l <;> rfl
  clear_value c
  subst e
  exact (State.rd_filter hl).trans (hc.trans ((State.rd_loseFirmware hk).trans (hb.trans ha)))

/-! ### The ceiling and the trip (R377, R378) -/

theorem State.heatStep_shows {c d : Nat} : (s.heatStep c d).rd Obj.ceilingThermal = c ∧ (s.heatStep c d).power.heatDuty = d ∧
    (s.heatStep c d).power.heatPark = decide (d = 0) ∧ (s.heatStep c d).power.stepAt = s.now := by
  have h := State.repower_repowers ((s.account.wr Obj.ceilingThermal c).setPower fun (p : PowerState) => { p with
    heatDuty := d, heatPark := d == 0, stepAt := s.account.now })
  exact ⟨(h.objs _ (by decide)).trans (State.rd_wr_self ..), h.of PowerState.heatDuty, h.of PowerState.heatPark, h.of PowerState.stepAt⟩

/-- The wear that trips bring. -/
def State.tripWear (s : State) (n : Nat) : State := if 10 ≤ n then s.lifeExceed 7 else if 3 ≤ n then s.lifeWarn 7 else s

theorem State.lifeExceed_flash {n : Nat} : (s.lifeExceed n).dict.flash = s.dict.flash := by
  unfold State.lifeExceed
  split
  · rfl
  · exact State.raise_flash

theorem State.lifeWarn_flash {n : Nat} : (s.lifeWarn n).dict.flash = s.dict.flash := by
  unfold State.lifeWarn
  split
  · rfl
  · exact State.raise_flash

theorem State.rd_lifeExceed {n : Nat} (hk : eventKey k = false) : (s.lifeExceed n).rd k = s.rd k := by
  unfold State.lifeExceed
  split
  · rfl
  · exact State.rd_raise hk (by decide)

theorem State.rd_lifeWarn {n : Nat} (hk : eventKey k = false) : (s.lifeWarn n).rd k = s.rd k := by
  unfold State.lifeWarn
  split
  · rfl
  · exact State.rd_raise hk (by decide)

theorem State.tripWear_leaves (s : State) (n : Nat) : (s.tripWear n).dict.flash = s.dict.flash ∧ (s.tripWear n).tile = s.tile ∧
    (s.tripWear n).standby = s.standby ∧ (s.tripWear n).rd Obj.tripsTotal = s.rd Obj.tripsTotal := by
  unfold State.tripWear
  split
  · exact ⟨State.lifeExceed_flash, State.lifeExceed_tile .., State.lifeExceed_standby .., State.rd_lifeExceed (by decide)⟩
  · split
    · exact ⟨State.lifeWarn_flash, State.lifeWarn_tile .., State.lifeWarn_standby .., State.rd_lifeWarn (by decide)⟩
    · exact ⟨rfl, rfl, rfl, rfl⟩

/-- The trip kept and counted. -/
def State.tripKept (s : State) (k : Nat) : State := (s.raiseKept Ev.thermalTrip [p8 k, p32 (s.rd Obj.powerSession)]).countSat Obj.tripsTotal 1

theorem State.thermalTrip_eq (h : s.start.rails = true) :
    s.thermalTrip k = (((s.tripKept k).tripWear ((s.tripKept k).rd Obj.tripsTotal)).lose .domains).wr Obj.moduleState 4 := by
  unfold State.thermalTrip
  rw [if_neg (by rw [h]; decide)]
  rfl

/-- THERMAL_TRIP with the rails on. -/
theorem State.thermalTrip_trips (h : s.start.rails = true) :
    (s.thermalTrip k).rd Obj.moduleState = 4 ∧ (s.thermalTrip k).start.rails = false ∧ (s.thermalTrip k).standby = s.standby ∧
    (s.thermalTrip k).rd Obj.tripsTotal = min (s.rd Obj.tripsTotal + 1) (2 ^ 32 - 1) ∧
    (s.thermalTrip k).tile = { TileState.reset with parity := s.tile.parity } ∧
    ∃ f, (s.thermalTrip k).dict.flash = s.dict.flash ++ [f] ∧ f.code = Ev.thermalTrip := by
  have htile := s.raiseKept_tile Ev.thermalTrip [p8 k, p32 (s.rd Obj.powerSession)]
  have hstand := s.raiseKept_standby Ev.thermalTrip [p8 k, p32 (s.rd Obj.powerSession)]
  have hflash := State.raiseKept_flash (s := s) (code := Ev.thermalTrip) (ps := [p8 k, p32 (s.rd Obj.powerSession)])
  have htrips := State.rd_raiseKept (s := s) (code := Ev.thermalTrip) (ps := [p8 k, p32 (s.rd Obj.powerSession)]) (k := Obj.tripsTotal) (by decide)
  have hkept : (s.tripKept k).rd Obj.tripsTotal = min (s.rd Obj.tripsTotal + 1) (2 ^ 32 - 1) := by rw [State.tripKept, State.rd_countSat_self, htrips]
  obtain ⟨hf, ht, hs, hn⟩ := State.tripWear_leaves (s.tripKept k) ((s.tripKept k).rd Obj.tripsTotal)
  have hf' := hf.trans hflash
  have ht' := ht.trans htile
  have hs' := hs.trans hstand
  rw [State.thermalTrip_eq h]
  generalize (s.tripKept k).tripWear _ = w at *
  have hrails := w.lose_rails (l := .domains)
  have hstandby := w.lose_standby (l := .domains)
  have htl := w.lose_tile (l := .domains)
  have hfl := w.lose_flash (l := .domains)
  have htr := State.rd_lose (s := w) (l := .domains) (k := Obj.tripsTotal) (by decide) (by decide)
  generalize w.lose .domains = x at *
  rw [ht'] at htl
  exact ⟨State.rd_wr_self .., hrails, hstandby.trans hs', (State.rd_wr_ne (by decide)).trans (htr.trans (hn.trans hkept)), htl,
    _, hfl.trans hf', rfl⟩

/-! ### The statement -/

theorem pairNeighbours_lt {i : Nat} (h : i ∈ pairNeighbours j) : i < 24 := by
  unfold pairNeighbours at h
  split at h
  · simp only [List.mem_append, or_assoc] at h
    rcases h with h | h | h | h <;> split at h <;> simp only [List.not_mem_nil, List.mem_singleton] at h <;> omega
  · split at h <;> simp only [List.mem_cons, List.not_mem_nil, or_false] at h <;> omega

/-- A pair is calm where it has been for 10 s. -/
theorem PairState.calm_iff {x : PairState} {now d : Nat} :
    x.calm now d = true ↔ d ≤ 30 ∧ x.calmFrom ≠ none ∧ 10000 * ms ≤ now - x.calmFrom.getD 0 := by
  rw [PairState.calm, Bool.and_eq_true, decide_eq_true_iff, decide_eq_true_iff]
  cases x.calmFrom <;> simp [ms]

/-- A pair found suspect, with its event. -/
def State.found (s : State) (j : Nat) : State := (s.setPair j { s.pair j with suspect := true }).raiseOnce Ev.sensorSuspect j [p8 j]

theorem State.sensorSuspect_eq {f : Nat} (hf : (s.pair j).overFrom = some f) (hs : (s.pair j).suspect = false) (ht : 100 * ms ≤ s.now - f) :
    s.sensorSuspect j = ((s.found j).formPair j).thermalNow := by
  unfold State.sensorSuspect State.found
  generalize s.pair j = x at *
  have hn : ¬ (x.suspect = true ∨ s.now - f < 100 * ms) := by
    rw [hs]
    simp only [Bool.false_eq_true, false_or]
    omega
  dsimp only
  rw [hf]
  exact if_neg hn

theorem State.found_pair : (s.found j).pair j = { s.pair j with suspect := true } := by
  rw [State.pair, State.found, State.raiseOnce_power]
  exact State.pair_setPair

/-- Settles O29, command by command. -/
theorem heatIsWatched : Obligations.HeatIsWatched := by
  unfold Obligations.HeatIsWatched
  refine ⟨?agree, ?warn, ?suspect, ?second, ?first, ?neither, ?finds, ?findsNot, ?again, ?againNot, ?high, ?up, ?down, ?stays, ?trip, ?tripOff, ?nand⟩
  case agree =>
    intro s j a b pw hg hd hg' hd' hle hs
    refine ⟨_, rfl, ?_⟩
    have hu := s.sensed_senses (a := a) (b := b) (pw := pw) j.isLt
    have hform := State.formPair_both (State.acceptedOf_taken hu.first hg hd) (State.acceptedOf_taken hu.second hg' hd')
    obtain ⟨hr₁, hr₂, htj, -, -⟩ := s.sensorSample_rest (a := a) (b := b) (pw := pw) j.isLt
    obtain ⟨hv, hst⟩ := s.rd_sensorSample_pair (a := a) (b := b) (pw := pw) j.isLt
    rw [hform] at hv hst
    obtain ⟨hv', hst', hsus⟩ := State.pairBoth_agree (s := s.sensed j a b pw) (j := j) (a := a) (b := b) hle (by
      rw [hu.pair, hu.now]
      exact hs.imp id fun ⟨hc, ht⟩ => PairState.calm_iff.2 ⟨hle, hc, ht⟩)
    refine ⟨hv.trans hv', hst.trans hst', ?_, hr₁, hr₂, htj⟩
    rw [State.sensorSample_eq, hform, (State.thermalNow_warms _).pair]
    exact hsus
  case warn =>
    intro s j a b pw hg hd hg' hd' hlt hs
    refine ⟨_, rfl, ?_⟩
    have hu := s.sensed_senses (a := a) (b := b) (pw := pw) j.isLt
    have hform := State.formPair_both (State.acceptedOf_taken hu.first hg hd) (State.acceptedOf_taken hu.second hg' hd')
    obtain ⟨hr₁, hr₂, htj, -, -⟩ := s.sensorSample_rest (a := a) (b := b) (pw := pw) j.isLt
    obtain ⟨hv, hst⟩ := s.rd_sensorSample_pair (a := a) (b := b) (pw := pw) j.isLt
    rw [hform] at hv hst
    obtain ⟨hv', hst', hep⟩ := State.pairBoth_warn (s := s.sensed j a b pw) (j := j) (a := a) (b := b) hlt (by rw [hu.pair]; exact hs)
    refine ⟨hv.trans hv', hst.trans hst', ?_, hr₁, hr₂, htj⟩
    rw [State.sensorSample_eq, hform, (State.thermalNow_warms _).episodes _ _ (by decide) (by omega)]
    exact hep
  case suspect =>
    intro s j a b pw hg hd hg' hd' hs hc
    refine ⟨_, rfl, ?_⟩
    have hu := s.sensed_senses (a := a) (b := b) (pw := pw) j.isLt
    have hform := State.formPair_both (State.acceptedOf_taken hu.first hg hd) (State.acceptedOf_taken hu.second hg' hd')
    obtain ⟨hr₁, hr₂, htj, -, -⟩ := s.sensorSample_rest (a := a) (b := b) (pw := pw) j.isLt
    obtain ⟨hv, hst⟩ := s.rd_sensorSample_pair (a := a) (b := b) (pw := pw) j.isLt
    rw [hform] at hv hst
    obtain ⟨hv', hst', hsus, -⟩ := State.pairBoth_suspect (s := s.sensed j a b pw) (j := j) (a := a) (b := b) j.isLt (by rw [hu.pair]; exact hs) (by
      rw [hu.pair, hu.now, Bool.eq_false_iff, Ne, PairState.calm_iff]
      rintro ⟨hle, hcalm⟩
      exact hc.elim (by omega) fun h => h hcalm)
    rw [hu.pair] at hv'
    refine ⟨hv.trans hv', hst.trans hst', ?_, hr₁, hr₂, htj⟩
    rw [State.sensorSample_eq, hform, (State.thermalNow_warms _).pair]
    exact hsus
  case second =>
    intro s j a b pw hn hg' hd'
    refine ⟨_, rfl, ?_⟩
    have hu := s.sensed_senses (a := a) (b := b) (pw := pw) j.isLt
    obtain ⟨hr₁, hr₂, htj, hs₁, -⟩ := s.sensorSample_rest (a := a) (b := b) (pw := pw) j.isLt
    obtain ⟨hv, hst⟩ := s.rd_sensorSample_pair (a := a) (b := b) (pw := pw) j.isLt
    obtain ⟨hv', hst'⟩ := State.formPair_second (State.acceptedOf_not_taken hu.first hn) (State.acceptedOf_taken hu.second hg' hd')
    rw [hu.pair] at hv'
    exact ⟨hv.trans hv', hst.trans hst', hs₁.trans (Sensor.after_not_taken hn).1, hr₁, hr₂, htj⟩
  case first =>
    intro s j a b pw hg hd hn
    refine ⟨_, rfl, ?_⟩
    have hu := s.sensed_senses (a := a) (b := b) (pw := pw) j.isLt
    obtain ⟨hr₁, hr₂, htj, -, hs₂⟩ := s.sensorSample_rest (a := a) (b := b) (pw := pw) j.isLt
    obtain ⟨hv, hst⟩ := s.rd_sensorSample_pair (a := a) (b := b) (pw := pw) j.isLt
    obtain ⟨hv', hst'⟩ := State.formPair_first (State.acceptedOf_taken hu.first hg hd) (State.acceptedOf_not_taken hu.second hn)
    rw [hu.pair] at hv'
    exact ⟨hv.trans hv', hst.trans hst', hs₂.trans (Sensor.after_not_taken hn).1, hr₁, hr₂, htj⟩
  case neither =>
    intro s j a b pw hn hn'
    refine ⟨_, rfl, ?_⟩
    have hu := s.sensed_senses (a := a) (b := b) (pw := pw) j.isLt
    obtain ⟨hr₁, hr₂, htj, hs₁, hs₂⟩ := s.sensorSample_rest (a := a) (b := b) (pw := pw) j.isLt
    obtain ⟨hv, hst⟩ := s.rd_sensorSample_pair (a := a) (b := b) (pw := pw) j.isLt
    obtain ⟨hv', hst'⟩ := State.formPair_none (State.acceptedOf_not_taken hu.first hn) (State.acceptedOf_not_taken hu.second hn')
    have hnear : (pairNeighbours j).foldl (fun v k => max v ((s.sensed j a b pw).pairTemp k)) (s.pairModel j pw) =
        (pairNeighbours j).foldl (fun v k => max v (s.pairTemp k)) (s.pairModel j pw) :=
      List.foldl_ext _ _ _ fun v k hk => by rw [hu.temps k (pairNeighbours_lt hk)]
    rw [hu.pair, hnear] at hv'
    exact ⟨hv.trans hv', hst.trans hst', hs₁.trans (Sensor.after_not_taken hn).1, hs₂.trans (Sensor.after_not_taken hn').1, hr₁, hr₂, htj⟩
  case finds =>
    intro s j f hf hc hs ht
    refine ⟨_, rfl, ?_⟩
    have hw := State.thermalNow_warms ((s.found j).formPair j)
    obtain ⟨hsus, hep⟩ := State.formPair_suspect (s := s.found j) j.isLt (by rw [State.found_pair]) State.inEpisode_raiseOnce_self (fun d => by
      rw [State.found_pair, Bool.eq_false_iff, Ne, PairState.calm_iff, State.found, State.raiseOnce_now]
      exact fun h => hc h.2)
    rw [State.sensorSuspect_eq hf hs ht, hw.pair, hw.episodes _ _ (by decide) (by omega)]
    exact ⟨hsus, hep⟩
  case findsNot =>
    intro s j h
    refine ⟨_, rfl, ?_⟩
    unfold State.sensorSuspect
    extract_lets x
    change x.overFrom = none ∨ x.suspect = true ∨ s.now - x.overFrom.getD 0 < 100 * ms at h
    cases hf : x.overFrom with
    | none => rfl
    | some f =>
      rw [hf] at h
      exact if_pos (h.resolve_left (by simp))
  case again =>
    intro s k f hf hd ht
    refine ⟨_, rfl, ?_⟩
    rw [State.reaccept, hf]
    dsimp only
    rw [if_neg (by rw [hd]; simp only [not_true_eq_false, false_or]; omega), State.sensor, (State.thermalNow_warms _).of PowerState.sensors,
      (State.formPair_forms _ _).sensors]
    exact State.sensor_setSensor
  case againNot =>
    intro s k h
    refine ⟨_, rfl, ?_⟩
    unfold State.reaccept
    extract_lets x
    change x.cleanFrom = none ∨ x.discarded = false ∨ s.now - x.cleanFrom.getD 0 < 10 * ms at h
    cases hf : x.cleanFrom with
    | none => rfl
    | some f =>
      rw [hf] at h
      exact if_pos (by simpa using h)
  case high =>
    intro s ht hf h₁ h₂
    refine ⟨_, rfl, ?_⟩
    obtain ⟨f, hf'⟩ := Option.ne_none_iff_exists'.1 hf
    rw [hf'] at h₁
    rw [State.ceilingStep, if_pos ht, hf']
    dsimp only
    rw [if_pos ⟨h₁, h₂⟩]
    exact State.heatStep_shows
  case up =>
    intro s hh ht h₁ h₂
    refine ⟨_, rfl, ?_⟩
    rw [State.ceilingStep, if_neg (by omega), if_pos ht, if_pos ⟨h₁, h₂⟩]
    exact State.heatStep_shows
  case down =>
    intro s hh ht hl hb h₁ h₂
    refine ⟨_, rfl, ?_⟩
    rw [State.ceilingStep, if_neg (by omega), if_neg (by omega), if_pos ⟨hl, by rw [hb]; simp⟩, if_pos ⟨h₁, h₂⟩]
    exact State.heatStep_shows
  case stays =>
    intro s h₁ h₂ h₃
    refine ⟨_, rfl, ?_⟩
    unfold State.ceilingStep
    extract_lets t c d since
    split
    · next ht =>
      cases hf : s.power.highFrom with
      | none => rfl
      | some f => exact if_neg fun h => h₁ ⟨ht, by rw [hf]; simp, by rw [hf]; exact h.1, h.2⟩
    · next ht =>
      split
      · next ht' => exact if_neg fun h => h₂ ⟨not_lt.1 ht, ht', h⟩
      · next ht' =>
        split
        · next hl => exact if_neg fun h => h₃ ⟨not_lt.1 ht, not_lt.1 ht', hl.1, by simpa using hl.2, h⟩
        · rfl
  case trip => exact fun s k h => ⟨_, rfl, State.thermalTrip_trips h⟩
  case tripOff => exact fun s k h => ⟨_, rfl, if_pos (by rw [h]; decide)⟩
  case nand => exact fun s k v => ⟨_, rfl, State.rd_wr_self .., fun i hi => State.rd_wr_ne hi⟩

end Sys2Proof.Machine
end

section
/-! SUPPORT. Tray reports, hold and its end, and the statement on the coolant. -/
namespace Sys2Proof.Machine

variable {s t u : State} {k n : Nat}

/-! ### What a report keeps -/

/-- What a report sets that the responses to it leave: the power groups' record of reports. -/
def PowerState.report (p : PowerState) : Nat × List Coolant × Option Coolant × Option Nat × Bool := (p.seq, p.reports, p.coolant, p.reportAt, p.lost)

/-- The responses to a report leave its record, its count and the flow it shows. -/
structure Answers (s t : State) : Prop where
  report : t.power.report = s.power.report
  count : t.rd Obj.trayReports = s.rd Obj.trayReports
  flow : t.rd Obj.flowMlMin = s.rd Obj.flowMlMin

namespace Answers

theorem refl (s : State) : Answers s s := ⟨rfl, rfl, rfl⟩

theorem trans (h : Answers s t) (h' : Answers t u) : Answers s u := ⟨h'.report.trans h.report, h'.count.trans h.count, h'.flow.trans h.flow⟩

theorem ite {c : Prop} [Decidable c] (ht : Answers s t) (hu : Answers s u) : Answers s (if c then t else u) := by split <;> assumption

theorem wr {v : Nat} (h : Answers s t) (hc : Obj.trayReports ≠ k := by decide) (hf : Obj.flowMlMin ≠ k := by decide) : Answers s (t.wr k v) :=
  h.trans ⟨rfl, State.rd_wr_ne hc, State.rd_wr_ne hf⟩

theorem endEpisode {c i : Nat} (h : Answers s t) : Answers s (t.endEpisode c i) := ⟨h.report, h.count, h.flow⟩

theorem raiseOnce {c i : Nat} {ps : List Bytes} (h : Answers s t) (hc : 256 ≤ c ∧ c < 4096 := by decide) : Answers s (t.raiseOnce c i ps) :=
  h.trans ⟨congrArg _ (State.raiseOnce_power ..), State.rd_raiseOnce (by decide) hc, State.rd_raiseOnce (by decide) hc⟩

theorem during {c : Nat} {on : Bool} (h : Answers s t) (hc : 256 ≤ c ∧ c < 4096 := by decide) : Answers s (t.while c on) :=
  (h.raiseOnce hc).ite h.endEpisode

theorem setPower {f : PowerState → PowerState} (h : Answers s t) (hf : (f t.power).report = t.power.report := by rfl) : Answers s (t.setPower f) :=
  h.trans ⟨hf, rfl, rfl⟩

end Answers

theorem Warms.answers (h : Warms s t) : Answers s t := ⟨h.of PowerState.report, h.objs _ (by decide), h.objs _ (by decide)⟩

/-! ### Hold (R383, R384, R451) -/

theorem Repowers.warms (h : Repowers s t) : Warms s t :=
  ⟨fun k hk => h.objs k (heatKey_or hk).1, congrArg (fun q : PowerState => { q.offTimes with heatPark := false, heatDuty := 0, highFrom := none, deep := false })
    h.power, h.now, fun c i _ _ => h.inEpisode c i, h.flowLoss, h.fresh⟩

/-- The domains run again: an activation's event at most is raised. -/
theorem State.restartDone_warms (s : State) : Warms s s.restartDone ∧ s.restartDone.power.lasting = s.power.lasting := by
  have h := s.runArray_repowers
  unfold State.restartDone
  extract_lets v _ _ _ w
  have hw : Warms s w := h.warms.trans ⟨fun _ _ => rfl, rfl, rfl, fun _ _ _ _ => rfl, rfl, id⟩
  have hp : w.power.lasting = s.power.lasting := h.power
  split
  · exact ⟨hw, hp⟩
  · refine ⟨hw.trans ⟨fun k hk => State.rd_raise (heatKey_or hk).2.1 (by decide), congrArg _ (State.raise_power ..), State.raise_now ..,
      fun _ _ _ _ => State.inEpisode_raise, by rw [State.raise_start], fun hf => by rwa [State.ArrayFresh, State.raise_cross]⟩, ?_⟩
    rw [State.raise_power, hp]

/-- The module as hold ends, before its power state is taken. -/
def State.unheld (s : State) : State :=
  (s.setPower fun (p : PowerState) => { p with hold := false, deep := false, stopped := false }).endEpisode Ev.holdDeep 0

/-- The module once hold has ended. -/
def State.released (s : State) : State := if s.unheld.repower.fw.phase = 3 then s.unheld.repower.restartDone.repower else s.unheld.repower

theorem State.holdExit_ends (hh : s.power.hold = true) (hf : s.start.flowLoss = false) (hg : 3 ≤ s.power.good) : s.holdExit = s.released :=
  if_pos ⟨hh, by rw [hf]; decide, hg⟩

theorem State.holdExit_stays (h : s.power.hold = false ∨ s.power.good < 3) : s.holdExit = s := by
  refine if_neg fun ⟨hh, _, hg⟩ => ?_
  rcases h with h | h
  · rw [h] at hh
    cases hh
  · omega

theorem State.released_leaves (s : State) : Warms s.unheld s.released ∧ s.released.power.lasting = s.unheld.power.lasting ∧
    (s.unheld.repower.ArrayFresh → s.released.ArrayFresh) := by
  have h := s.unheld.repower_repowers
  unfold State.released
  split
  · obtain ⟨hw, hp⟩ := s.unheld.repower.restartDone_warms
    have h' := s.unheld.repower.restartDone.repower_repowers
    exact ⟨h.warms.trans (hw.trans h'.warms), h'.power.trans (hp.trans h.power), fun hf => h'.fresh (hw.fresh hf)⟩
  · exact ⟨h.warms, h.power, id⟩

theorem State.holdExit_answers (s : State) : Answers s s.holdExit := by
  have hun : Answers s s.unheld := .endEpisode (.setPower (.refl s))
  exact .ite (hun.trans s.released_leaves.1.answers) (.refl s)

/-- Leaving hold or deep hold every queue of the array starts empty. -/
theorem State.repark_fresh (hw : s.rd Obj.powerState = 3 ∨ s.rd Obj.powerState = 4) (hn : s.wantPower ≠ 3 ∧ s.wantPower ≠ 4) : s.repark.ArrayFresh := by
  unfold State.repark
  extract_lets was new s₁ s₂ _ s₃
  have h₁ : s₁.ArrayFresh := by
    have hrail : s₁ = ((s.wr Obj.powerState new).setRail ((s.wr Obj.powerState new).trimmedMv 7)).freshArrayQueues := by
      have hnew : (new == 3 || new == 4) = false := by
        have h₃ : new ≠ 3 := hn.1
        have h₄ : new ≠ 4 := hn.2
        simp [h₃, h₄]
      have hwas : (was == 3 || was == 4) = true := by
        rcases hw with h | h <;> simp [was, h]
      unfold s₁ State.railForHold
      extract_lets held
      have e₁ : held new = false := hnew
      have e₂ : held was = true := hwas
      rw [e₁, e₂]
      rfl
    rw [hrail]
    exact State.freshArrayQueues_fresh _
  clear_value s₁
  have h₂ : s₂.ArrayFresh := by
    unfold s₂
    split <;> exact h₁
  clear_value s₂
  have h₃ : s₃.ArrayFresh := Parks.fresh (Parks.ite (State.parkPorts_parks ((Parks.refl s₂).beside)) (.refl s₂)) h₂
  clear_value s₃
  exact (Parks.ite (State.parkPorts_parks (.refl s₃)) (.ite (State.leaveDeep_parks (.refl s₃)) (.refl s₃))).fresh h₃

theorem State.repower_fresh (hw : s.rd Obj.powerState = 3 ∨ s.rd Obj.powerState = 4) (hn : s.wantPower ≠ 3 ∧ s.wantPower ≠ 4) : s.repower.ArrayFresh := by
  rw [State.repower_eq]
  split
  · exact (State.wake_repowers _).fresh (State.repark_fresh hw hn)
  · exact State.repark_fresh hw hn

theorem State.enterHold_answers (s : State) (stop : Bool) : Answers s (s.enterHold stop) :=
  (Answers.setPower (.refl s)).trans (State.thermalNow_warms _).answers

theorem State.stopHold_answers (s : State) (stop : Bool) : Answers s (s.stopHold stop) := .ite (s.enterHold_answers stop) (.refl s)

/-! ### An accepted report (R380, R381) -/

theorem State.takeLimit_answers (s : State) (n : Nat) : Answers s (s.takeLimit n) := by
  unfold State.takeLimit
  extract_lets h
  exact .setPower (.wr (.refl s))

/-- What an accepted report sets. -/
theorem State.coolantReport_shows (s : State) (r : Coolant) :
    (s.coolantReport r).power.report = (s.power.seq, (r :: s.power.reports).take 3,
      some (filterReports s.power.coolant ((r :: s.power.reports).take 3)), some s.now, false) ∧
    (s.coolantReport r).rd Obj.trayReports = s.rd Obj.trayReports ∧
    (s.coolantReport r).rd Obj.flowMlMin = (filterReports s.power.coolant ((r :: s.power.reports).take 3)).flow := by
  unfold State.coolantReport
  extract_lets rs c hot stops good bad s₁ s₂ s₃ s₄ s₅ s₆ s₇
  have h₁ : s₁.power.report = (s.power.seq, rs, some c, some s.now, false) ∧ s₁.rd Obj.trayReports = s.rd Obj.trayReports := ⟨rfl, rfl⟩
  clear_value s₁
  have h₂ : s₂.power.report = (s.power.seq, rs, some c, some s.now, false) ∧ s₂.rd Obj.trayReports = s.rd Obj.trayReports ∧ s₂.rd Obj.flowMlMin = c.flow :=
    ⟨h₁.1, (State.rd_wr_ne (by decide)).trans ((State.rd_wr_ne (by decide)).trans ((State.rd_wr_ne (by decide)).trans h₁.2)), State.rd_wr_self ..⟩
  clear_value s₂
  have h₃ : Answers s₂ s₃ := s₂.takeLimit_answers _
  clear_value s₃
  have h₄ : Answers s₂ s₄ := h₃.during.during.during.during
  clear_value s₄
  have h₅ : Answers s₂ s₅ := h₄.during.during
  clear_value s₅
  have h₆ : Answers s₂ s₆ := .ite h₅ h₅.endEpisode
  clear_value s₆
  have h₇ : Answers s₂ s₇ := h₆.wr
  clear_value s₇
  have h := h₇.trans (Answers.ite (c := 2 ≤ stops) (s₇.stopHold_answers true) s₇.holdExit_answers)
  exact ⟨h.report.trans h₂.1, h.count.trans h₂.2.1, h.flow.trans h₂.2.2⟩

/-! ### Frames of the field network (R422, R425) -/

/-- A frame heard and counted. -/
def State.fieldHeard (s : State) : State := s.fldFrame.count Obj.dictFramesRx 1

theorem State.rd_fieldHeard (hk : k ≠ Obj.dictFramesRx) : s.fieldHeard.rd k = s.rd k := State.rd_count_ne hk

theorem State.rd_countSat_fieldHeard (hk : k ≠ Obj.dictFramesRx) : (s.fieldHeard.countSat k 1).rd k = min (s.rd k + 1) (2 ^ 32 - 1) := by
  rw [State.rd_countSat_self, State.rd_fieldHeard hk]

/-- A report that is in form, due and in range. -/
def reportOf (pdu : Bytes) : Coolant :=
  { inlet := toInt 16 (unle ((pdu.drop 10).take 2)), outlet := toInt 16 (unle ((pdu.drop 12).take 2)), flow := unle ((pdu.drop 14).take 2) }

/-- A report taken up: the tray's address learned, the report counted and its sequence kept. -/
def State.takeReport (s : State) (mac seq : Nat) : State :=
  let s := if s.rd Obj.trayMac = 0 ∧ s.rd Obj.trayMacLearned = 0 then s.wr Obj.trayMacLearned mac else s
  (s.count Obj.trayReports 1).setPower fun (p : PowerState) => { p with seq := seq }

theorem State.fieldHeard_trayDue {mac seq : Nat} : s.fieldHeard.trayDue mac seq = s.trayDue mac seq := by
  have ha : s.fieldHeard.trayAddr = s.trayAddr := by
    rw [State.trayAddr, State.trayAddr, State.rd_fieldHeard (by decide), State.rd_fieldHeard (by decide)]
  rw [State.trayDue, State.trayDue, ha]
  rfl

theorem State.trayReport_eq (s : State) (mac : Nat) (pdu : Bytes) : s.trayReport mac pdu =
    if ¬ trayPduOk pdu then s.fieldHeard.countSat Obj.dictDiscards 1
    else if ¬ s.fieldHeard.trayDue mac (unle ((pdu.drop 8).take 2)) ∨ ¬ (reportOf pdu).inRange then s.fieldHeard.countSat Obj.reportDiscards 1
    else (s.fieldHeard.takeReport mac (unle ((pdu.drop 8).take 2))).coolantReport (reportOf pdu) := rfl

/-- What taking up a report leaves and sets. -/
theorem State.takeReport_shows {mac seq : Nat} : (s.takeReport mac seq).rd Obj.trayReports = (s.rd Obj.trayReports + 1) % 2 ^ 64 ∧
    (s.takeReport mac seq).power = { s.power with seq := seq } ∧ (s.takeReport mac seq).now = s.now := by
  unfold State.takeReport
  extract_lets v
  have hv : v.rd Obj.trayReports = s.rd Obj.trayReports ∧ v.power = s.power ∧ v.now = s.now := by
    unfold v
    split
    · exact ⟨State.rd_wr_ne (by decide), rfl, rfl⟩
    · exact ⟨rfl, rfl, rfl⟩
  clear_value v
  exact ⟨(State.rd_count_self ..).trans (by rw [hv.1]), congrArg (fun p : PowerState => { p with seq := seq }) hv.2.1, hv.2.2⟩

/-! ### The statement -/

theorem State.inEpisode_raiseOnce_flowLoss : ((s.raiseOnce Ev.flowLoss 0 []).enterHold false).inEpisode Ev.flowLoss 0 = true := by
  have h := State.thermalNow_warms ((s.raiseOnce Ev.flowLoss 0 []).setPower fun (p : PowerState) =>
    { p with hold := true, stopped := p.stopped || false, good := if p.hold then p.good else 0 })
  exact (h.episodes _ _ (by decide) (by decide)).trans State.inEpisode_raiseOnce_self

/-- An operational module that is to be in hold is in hold, or in deep hold. -/
theorem State.wantPower_hold (hm : s.rd Obj.moduleState = 2) (hh : s.power.hold = true) : s.wantPower = 3 ∨ s.wantPower = 4 := by
  unfold State.wantPower
  cases hd : s.power.deep <;> simp [hm, hh, hd]

theorem State.repower_hold (hm : s.rd Obj.moduleState = 2) (hh : s.power.hold = true) :
    s.repower.rd Obj.powerState = 3 ∨ s.repower.rd Obj.powerState = 4 := by
  have h := State.wantPower_hold hm hh
  rw [State.rd_repower_powerState, if_neg (by omega)]
  exact h

/-- An operational module that enters hold is in it. -/
theorem State.enterHold_holds {stop : Bool} (hm : s.rd Obj.moduleState = 2) :
    (s.enterHold stop).power.hold = true ∧ ((s.enterHold stop).rd Obj.powerState = 3 ∨ (s.enterHold stop).rd Obj.powerState = 4) := by
  unfold State.enterHold
  extract_lets v
  have hv : v.power.hold = true := rfl
  have hvm : v.rd Obj.moduleState = 2 := hm
  clear_value v
  have hw := v.showTj_warms.trans (State.heatResponses_warms v.showTj v.heatTemp)
  refine ⟨(v.thermalNow_warms.of PowerState.hold).trans hv, ?_⟩
  rw [State.thermalNow_eq]
  exact State.repower_hold ((hw.objs _ (by decide)).trans hvm) ((hw.of PowerState.hold).trans hv)

/-- A module that is not in hold wants neither hold nor deep hold. -/
theorem State.wantPower_unheld : s.unheld.wantPower ≠ 3 ∧ s.unheld.wantPower ≠ 4 := by
  have hh : s.unheld.power.hold = false := rfl
  have hd : s.unheld.power.deep = false := rfl
  unfold State.wantPower
  dsimp only
  rw [hh, hd]
  constructor <;> · repeat' split
                    all_goals simp_all

/-- The stop line taken as it is, with the flow state it makes. -/
def State.flowLine (s : State) (on : Bool) : State :=
  let s := { s with start := { s.start with flowLoss := on } }
  s.wr Obj.flowState s.flowStateNow

theorem State.rd_flowLine {on : Bool} (hk : k ≠ Obj.flowState) : (s.flowLine on).rd k = s.rd k := State.rd_wr_ne hk

theorem State.flowLossOn_eq (s : State) : s.flowLossOn =
    if (s.flowLine true).rd Obj.moduleState = 2 ∧ (s.flowLine true).fw.phase = 0 then
      ((s.flowLine true).raiseOnce Ev.flowLoss 0 []).enterHold false else s.flowLine true := rfl

theorem State.flowLossOff_eq (s : State) : s.flowLossOff = ((s.flowLine false).endEpisode Ev.flowLoss 0).holdExit := rfl

theorem State.unheld_warms (s : State) : s.unheld.start = s.start ∧ (s.inEpisode Ev.flowLoss 0 = false → s.unheld.inEpisode Ev.flowLoss 0 = false) :=
  ⟨rfl, fun h => (State.inEpisode_endEpisode_ne (epKey_ne (by decide) (by decide) (by decide))).trans h⟩

/-- Settles O30, command by command. -/
theorem coolantIsWatched : Obligations.CoolantIsWatched := by
  unfold Obligations.CoolantIsWatched
  refine ⟨?taken, ?malformed, ?discarded, ?off, ?lost, ?lostOff, ?mismatch, ?mismatchOff, ?assert, ?assertOff, ?deassert, ?deassertOff⟩
  case taken =>
    rintro s mac pdu x hs hok hd rfl hr
    refine ⟨_, rfl, ?_⟩
    rw [if_pos hs, State.trayReport_eq, if_neg (by rw [hok]; decide), if_neg (by
      rw [State.fieldHeard_trayDue, hd]
      exact not_or.2 ⟨by decide, not_not.2 hr⟩)]
    obtain ⟨hc, hp, hn⟩ := State.takeReport_shows (s := s.fieldHeard) (mac := mac) (seq := unle ((pdu.drop 8).take 2))
    obtain ⟨hrep, hcount, hflow⟩ := (s.fieldHeard.takeReport mac (unle ((pdu.drop 8).take 2))).coolantReport_shows (reportOf pdu)
    rw [hp, hn] at hrep
    rw [hp] at hflow
    rw [hc, State.rd_fieldHeard (by decide)] at hcount
    simp only [PowerState.report, Prod.mk.injEq] at hrep
    obtain ⟨hseq, hreports, hcool, hat, hlost⟩ := hrep
    exact ⟨hcount, hseq, hreports, hcool, hat, hlost, hflow⟩
  case malformed =>
    intro s mac pdu hs hok
    refine ⟨_, rfl, ?_⟩
    rw [if_pos hs, State.trayReport_eq, if_pos (by rw [hok]; decide)]
    exact ⟨State.rd_countSat_fieldHeard (by decide), rfl, rfl⟩
  case discarded =>
    intro s mac pdu hs hok h
    refine ⟨_, rfl, ?_⟩
    rw [if_pos hs, State.trayReport_eq, if_neg (by rw [hok]; decide), if_pos (by
      rw [State.fieldHeard_trayDue]
      exact h.imp (fun h => by rw [h]; decide) fun h => by
        have h' : (reportOf pdu).inRange = false := h
        rw [h']
        decide)]
    exact ⟨State.rd_countSat_fieldHeard (by decide), rfl, rfl⟩
  case off => exact fun s mac pdu hs => ⟨_, rfl, if_neg (by rw [hs]; decide)⟩
  case lost =>
    intro s hs hl ht
    refine ⟨_, rfl, ?_⟩
    rw [if_pos hs, State.reportsLost, if_neg (by rw [hl]; simp only [Bool.false_eq_true, false_or]; omega)]
    generalize s.heatLimit 4500 1200 0 = h
    exact ⟨rfl, rfl, (State.rd_wr_ne (by decide)).trans (State.rd_wr_self ..), State.rd_wr_self .., rfl⟩
  case lostOff =>
    intro s h
    refine ⟨_, rfl, ?_⟩
    split
    · next hs => exact if_pos (h.resolve_left (by rw [hs]; decide))
    · rfl
  case mismatch =>
    intro s f hf ht he
    refine ⟨_, rfl, ?_⟩
    rw [State.coolantMismatch, hf]
    dsimp only
    rw [if_pos ht]
    exact ⟨State.inEpisode_raiseOnce_self, State.rd_raiseOnce_occurrences he⟩
  case mismatchOff =>
    intro s h
    refine ⟨_, rfl, ?_⟩
    unfold State.coolantMismatch
    cases hf : s.power.mismatchFrom with
    | none => rfl
    | some f =>
      rw [hf] at h
      rcases h.resolve_left (by simp) with h | h
      · exact if_neg (not_le.2 h)
      · exact ite_eq_right_iff.2 fun _ => State.raiseOnce_open h
  case assert =>
    intro s hm hp
    refine ⟨_, rfl, ?_⟩
    have hm' : (s.flowLine true).rd Obj.moduleState = 2 := (State.rd_flowLine (by decide)).trans hm
    rw [State.flowLossOn_eq, if_pos ⟨hm', hp⟩]
    obtain ⟨hh, hps⟩ := State.enterHold_holds (s := (s.flowLine true).raiseOnce Ev.flowLoss 0 []) (stop := false)
      ((State.rd_raiseOnce (by decide) (by decide)).trans hm')
    refine ⟨?_, hh, hps, State.inEpisode_raiseOnce_flowLoss⟩
    refine ((State.thermalNow_warms _).flowLoss).trans ?_
    exact congrArg StartState.flowLoss (State.raiseOnce_start ..)
  case assertOff =>
    intro s h
    refine ⟨_, rfl, ?_⟩
    have hm' : (s.flowLine true).rd Obj.moduleState = s.rd Obj.moduleState := State.rd_flowLine (by decide)
    rw [State.flowLossOn_eq, if_neg (by
      rw [hm']
      rintro ⟨hm, hp⟩
      exact h.elim (fun h => h hm) fun h => h hp)]
    exact ⟨rfl, rfl, State.rd_flowLine (by decide)⟩
  case deassert =>
    intro s hh hg
    refine ⟨_, rfl, ?_⟩
    rw [State.flowLossOff_eq, State.holdExit_ends (s := (s.flowLine false).endEpisode Ev.flowLoss 0) hh rfl hg]
    generalize hv : (s.flowLine false).endEpisode Ev.flowLoss 0 = v
    have hep : v.inEpisode Ev.flowLoss 0 = false := by
      rw [← hv]
      exact State.inEpisode_endEpisode_self
    have hline : v.start.flowLoss = false := by
      rw [← hv]
      rfl
    have hps : v.rd Obj.powerState = s.rd Obj.powerState := by
      rw [← hv]
      exact State.rd_flowLine (by decide)
    obtain ⟨hw, hp, hfresh⟩ := v.released_leaves
    have hpow : ∀ f : PowerState → Bool, (∀ q : PowerState, f q.lasting = f q) → f v.released.power = f v.unheld.power := fun f hf => by
      rw [← hf v.released.power, hp, hf]
    refine ⟨hw.flowLoss.trans hline, hpow PowerState.hold fun _ => rfl, hpow PowerState.deep fun _ => rfl,
      (hw.episodes _ _ (by decide) (by decide)).trans (v.unheld_warms.2 hep), fun ⟨h₃, h₄⟩ => hfresh (State.repower_fresh ?_ State.wantPower_unheld)⟩
    have hun : v.unheld.rd Obj.powerState = s.rd Obj.powerState := hps
    omega
  case deassertOff =>
    intro s h
    refine ⟨_, rfl, ?_⟩
    rw [State.flowLossOff_eq, State.holdExit_stays (s := (s.flowLine false).endEpisode Ev.flowLoss 0) h]
    exact ⟨rfl, rfl, State.inEpisode_endEpisode_self⟩

end Sys2Proof.Machine
end

section
/-! SUPPORT. Margins, monitors and ageing records, and the statement on clocks. -/
namespace Sys2Proof.Machine

variable {s t : State} {k r m cycles ppm : Nat}

/-! ### Margins and stretch levels (R389) -/

/-- The margins of the last millisecond, with one more. -/
def State.worstOf (s : State) (r m : Nat) : List (Nat × Nat) :=
  (s.now, min 63 m) :: ((s.clock.worst.find r).getD []).filter fun x => decide (s.now - x.1 < ms)

/-- What a report of its margin does to a region. -/
structure Reports (r m cycles : Nat) (s t : State) : Prop where
  margin : t.rd (Obj.regionMargin (r + 1)) = (s.worstOf r m).foldl (fun v x => min v x.2) 63
  cycles : t.rd Obj.stretchCycles =
    if s.rd (Obj.regionLevel (r + 1)) = 0 then s.rd Obj.stretchCycles else (s.rd Obj.stretchCycles + cycles) % 2 ^ 64

theorem regionLevel_ne (hr : r < 12) (hk : k < 0x300100 ∨ 0x300200 ≤ k) : Obj.regionLevel (r + 1) ≠ k := by
  simp only [Obj.regionLevel]
  omega

theorem regionMargin_ne (hr : r < 12) (hk : k < 0x300300 ∨ 0x300400 ≤ k) : Obj.regionMargin (r + 1) ≠ k := by
  simp only [Obj.regionMargin]
  omega

/-- The margin shown and the cycles counted. -/
theorem State.margin_reports (s : State) (hr : r < 12) (m cycles : Nat) : Reports r m cycles s (s.margin r m cycles) ∧
    (∀ k, k ≠ Obj.regionMargin (r + 1) → k ≠ Obj.stretchCycles → (s.margin r m cycles).rd k = s.rd k) ∧
    (s.margin r m cycles).clock.masked = s.clock.masked := by
  have hlm : Obj.regionLevel (r + 1) ≠ Obj.regionMargin (r + 1) := by simp only [Obj.regionLevel, Obj.regionMargin]; omega
  unfold State.margin
  extract_lets l v w
  have hl : l = s.worstOf r m := rfl
  have hm : w.rd (Obj.regionMargin (r + 1)) = l.foldl (fun v x => min v x.2) 63 := State.rd_wr_self ..
  have ho : ∀ k, k ≠ Obj.regionMargin (r + 1) → w.rd k = s.rd k := fun k hk => State.rd_wr_ne hk
  have hc : w.clock.masked = s.clock.masked := rfl
  clear_value w l
  rw [hl] at hm
  rw [ho _ hlm]
  split
  · next h =>
    refine ⟨⟨hm, ?_⟩, fun k hk _ => ho k hk, hc⟩
    rw [if_pos h]
    exact ho _ (regionMargin_ne hr (by decide)).symm
  · next h =>
    refine ⟨⟨(State.rd_count_ne (regionMargin_ne hr (by decide))).trans hm, ?_⟩, fun k hk hk' => (State.rd_count_ne hk').trans (ho k hk), hc⟩
    rw [if_neg h]
    refine (State.rd_count_self ..).trans ?_
    rw [ho _ (regionMargin_ne hr (by decide)).symm]

/-- A level set beside the report stands apart from it. -/
theorem Reports.level {v : Nat} (h : Reports r m cycles s t) (hr : r < 12) : Reports r m cycles s (t.wr (Obj.regionLevel (r + 1)) v) :=
  ⟨(State.rd_wr_ne (by simp only [Obj.regionLevel, Obj.regionMargin]; omega)).trans h.margin,
    (State.rd_wr_ne (regionLevel_ne hr (by decide)).symm).trans h.cycles⟩

theorem Reports.episode (h : Reports r m cycles s t) (hr : r < 12) : Reports r m cycles s (t.count Obj.stretchEpisodes 1) :=
  ⟨(State.rd_count_ne (regionMargin_ne hr (by decide))).trans h.margin, (State.rd_count_ne (by decide)).trans h.cycles⟩

/-- A level that rises. -/
theorem State.stretchRise_rises (hr : r < 12) {new : Nat} (hn : new = if m < 1 then 3 else if m < s.rd Obj.stretchTaps then 2 else 0)
    (h : s.rd (Obj.regionLevel (r + 1)) < new) :
    (s.stretchRise r m cycles).rd (Obj.regionLevel (r + 1)) = new ∧
    (s.stretchRise r m cycles).rd Obj.stretchEpisodes =
      (if s.rd (Obj.regionLevel (r + 1)) = 0 then (s.rd Obj.stretchEpisodes + 1) % 2 ^ 64 else s.rd Obj.stretchEpisodes) ∧
    Reports r m cycles s (s.stretchRise r m cycles) := by
  obtain ⟨hrep, hrd, -⟩ := s.margin_reports hr m cycles
  have hnew : (if m < 1 then 3 else if m < s.rd Obj.stretchTaps then 2 else s.rd (Obj.regionLevel (r + 1))) = new := by
    rw [hn] at h ⊢
    split
    · rfl
    · split
      · rfl
      · next h₁ h₂ =>
        rw [if_neg h₁, if_neg h₂] at h
        omega
  have hep : (s.margin r m cycles).rd Obj.stretchEpisodes = s.rd Obj.stretchEpisodes := hrd _ (regionMargin_ne hr (by decide)).symm (by decide)
  unfold State.stretchRise
  dsimp only
  rw [hnew, if_neg (by omega)]
  generalize s.margin r m cycles = v at *
  split
  · exact ⟨(State.rd_count_ne (regionLevel_ne hr (by decide))).trans (State.rd_wr_self ..),
      (State.rd_count_self ..).trans (by rw [State.rd_wr_ne (regionLevel_ne hr (by decide)).symm, hep]), (hrep.level hr).episode hr⟩
  · exact ⟨State.rd_wr_self .., (State.rd_wr_ne (regionLevel_ne hr (by decide)).symm).trans hep, hrep.level hr⟩

theorem State.stretchRise_stays (hr : r < 12) (h : (if m < 1 then 3 else if m < s.rd Obj.stretchTaps then 2 else 0) ≤ s.rd (Obj.regionLevel (r + 1))) :
    (s.stretchRise r m cycles).rd (Obj.regionLevel (r + 1)) = s.rd (Obj.regionLevel (r + 1)) ∧
    (s.stretchRise r m cycles).rd Obj.stretchEpisodes = s.rd Obj.stretchEpisodes ∧ Reports r m cycles s (s.stretchRise r m cycles) := by
  obtain ⟨hrep, hrd, -⟩ := s.margin_reports hr m cycles
  have hle : (if m < 1 then 3 else if m < s.rd Obj.stretchTaps then 2 else s.rd (Obj.regionLevel (r + 1))) ≤ s.rd (Obj.regionLevel (r + 1)) := by
    split
    · next h₁ => rwa [if_pos h₁] at h
    · next h₁ =>
      split
      · next h₂ => rwa [if_neg h₁, if_pos h₂] at h
      · exact le_rfl
  unfold State.stretchRise
  dsimp only
  rw [if_pos hle]
  exact ⟨hrd _ (by simp only [Obj.regionLevel, Obj.regionMargin]; omega) (regionLevel_ne hr (by decide)),
    hrd _ (regionMargin_ne hr (by decide)).symm (by decide), hrep⟩

theorem State.stretchDown_level (hr : r < 12) :
    (s.stretchDown r m cycles).rd (Obj.regionLevel (r + 1)) = (if m < s.rd Obj.stretchTaps ∨ cycles < 16 ∨ s.rd (Obj.regionLevel (r + 1)) ≤ s.levelFloor r then
      s.rd (Obj.regionLevel (r + 1)) else s.rd (Obj.regionLevel (r + 1)) - 1) ∧ Reports r m cycles s (s.stretchDown r m cycles) := by
  obtain ⟨hrep, hrd, hmask⟩ := s.margin_reports hr m cycles
  have htaps : (s.margin r m cycles).rd Obj.stretchTaps = s.rd Obj.stretchTaps := hrd _ (regionMargin_ne hr (by decide)).symm (by decide)
  have hfloor : (s.margin r m cycles).levelFloor r = s.levelFloor r := by
    unfold State.levelFloor State.allMasked
    rw [hmask]
  unfold State.stretchDown
  dsimp only
  rw [htaps, hfloor]
  split
  · exact ⟨hrd _ (by simp only [Obj.regionLevel, Obj.regionMargin]; omega) (regionLevel_ne hr (by decide)), hrep⟩
  · exact ⟨State.rd_wr_self .., hrep.level hr⟩

/-! ### Monitors (R395) -/

theorem State.rd_tileEntry {x c : Nat} (hk : eventKey k = false) : (s.tileEntry x c).rd k = s.rd k := by
  unfold State.tileEntry
  split
  · rfl
  · exact State.rd_raiseKept hk

theorem State.tileEntry_clock {x c : Nat} : (s.tileEntry x c).clock = s.clock := by
  unfold State.tileEntry
  split
  · rfl
  · exact State.raiseKept_clock ..

theorem regionAt_lt {row col : Nat} (hrow : row < 12) : regionAt row col < 12 := by
  unfold regionAt
  omega

theorem State.allMasked_congr {x : Nat} (h : t.clock = s.clock) : t.allMasked x = s.allMasked x := by
  rw [State.allMasked, State.allMasked, h]

/-- A monitor that is masked. -/
theorem State.reedMask_masks {row col mon : Nat} (hrow : row < 12) (hm : s.clock.masked.contains (4 * (32 * row + col) + mon) = false)
    (hr : s.start.retired.contains (32 * row + col) = false) :
    (s.reedMask row col mon).clock.masked = setIns s.clock.masked (4 * (32 * row + col) + mon) ∧
    (s.reedMask row col mon).rd Obj.reedMasked = (s.reedMask row col mon).clock.masked.length ∧
    ((s.reedMask row col mon).allMasked (32 * row + col) = true → (s.reedMask row col mon).rd (Obj.regionLevel (regionAt row col + 1)) ≠ 0) := by
  have hlev : ∀ k, k < 0x300100 ∨ 0x300200 ≤ k → Obj.regionLevel (regionAt row col + 1) ≠ k := fun k hk => regionLevel_ne (regionAt_lt hrow) hk
  unfold State.reedMask
  extract_lets x v w key u
  have hw : w.clock.masked = setIns s.clock.masked (4 * x + mon) ∧ w.rd Obj.reedMasked = (setIns s.clock.masked (4 * x + mon)).length := by
    refine ⟨(congrArg ClockState.masked (State.raise_clock ..)).trans rfl, (State.rd_raise (by decide) (by decide)).trans (State.rd_wr_self ..)⟩
  have hu : u.clock = w.clock ∧ u.rd Obj.reedMasked = w.rd Obj.reedMasked := ⟨State.tileEntry_clock, State.rd_tileEntry (by decide)⟩
  rw [if_neg (by rw [hm, hr]; decide)]
  clear_value w u
  split
  · next h => exact ⟨hw.1, by rw [hw.1, hw.2], fun ht => absurd ht h⟩
  · split
    · refine ⟨(congrArg ClockState.masked hu.1).trans hw.1, ?_, fun _ => ?_⟩
      · refine (State.rd_count_ne (by decide)).trans ((State.rd_wr_ne (hlev _ (by decide)).symm).trans ?_)
        exact hu.2.trans (hw.2.trans (congrArg List.length ((congrArg ClockState.masked hu.1).trans hw.1).symm))
      · have h1 : ((u.wr key 1).count Obj.stretchEpisodes 1).rd key = 1 := (State.rd_count_ne (hlev _ (by decide))).trans (State.rd_wr_self ..)
        rw [h1]
        decide
    · next h => exact ⟨(congrArg ClockState.masked hu.1).trans hw.1, hu.2.trans (hw.2.trans (by rw [hu.1, hw.1])), fun _ => h⟩

/-! ### The voltage loop (R396, R397) -/

theorem State.voltageLoop_trims {w : Nat} (h : s.loopOn = true) :
    (s.voltageLoop w).rd Obj.vtrimMv = ofInt 32 (s.trimNext w) ∧
    (s.voltageLoop w).rd (Obj.learnedTrim (s.rd Obj.opInForce + 1)) = ofInt 32 (s.trimNext w) ∧
    (s.voltageLoop w).power.rail = (s.voltageLoop w).trimmedMv (s.rd Obj.opInForce) ∧ (s.voltageLoop w).clock.loopAt = s.now := by
  have hne : Obj.vtrimMv ≠ Obj.learnedTrim (s.rd Obj.opInForce + 1) := by simp only [Obj.vtrimMv, Obj.learnedTrim]; omega
  unfold State.voltageLoop
  rw [if_neg (by rw [h]; decide)]
  exact ⟨(State.rd_wr_ne hne).trans (State.rd_wr_self ..), State.rd_wr_self .., rfl, rfl⟩

/-- The stretch of a region over a second, shown and kept. -/
def State.showStretch (s : State) (r ppm : Nat) : State :=
  (s.wr (Obj.regionStretchPpm (r + 1)) (min 1000000 ppm)).setClock fun (c : ClockState) => { c with
    stretch := c.stretch.insert r (max ppm (c.stretch.get 0 r)) }

theorem State.rd_showStretch_self : (s.showStretch r ppm).rd (Obj.regionStretchPpm (r + 1)) = min 1000000 ppm := State.rd_wr_self ..

theorem State.rd_showStretch (hr : r < 12) (hk : k < 0x300200 ∨ 0x300300 ≤ k) : (s.showStretch r ppm).rd k = s.rd k :=
  State.rd_wr_ne (by simp only [Obj.regionStretchPpm]; omega)

theorem eventKey_regionStretchPpm : ∀ r < 12, eventKey (Obj.regionStretchPpm (r + 1)) = false := by decide

theorem State.marginLow_raised (hr : r < 12) (hb : toInt 32 (s.rd Obj.vtrimMv) = 15) (hp : 10000 < ppm) (he : s.inEpisode Ev.marginLow 0 = false) :
    s.marginLow r ppm = (((s.showStretch r ppm).raiseOnce Ev.marginLow 0 [p8 r, p32 ppm]).countSat Obj.marginLowEvents 1).setClock
      fun (c : ClockState) => { c with due := c.due ++ [2], lowSeen := true } := by
  have hv := State.rd_showStretch (s := s) (ppm := ppm) (k := Obj.vtrimMv) hr (by decide)
  unfold State.marginLow
  extract_lets v bound
  have hbound : bound = true := by
    show (toInt 32 ((s.showStretch r ppm).rd Obj.vtrimMv) == 15) = true
    rw [hv, hb]
    rfl
  rw [if_pos ⟨hbound, hp⟩]
  refine (if_neg ?_).trans rfl
  show ¬ s.inEpisode Ev.marginLow 0 = true
  rw [he]
  decide

/-- With no margin-low of its own a report only shows the stretch. -/
theorem State.marginLow_quiet (hr : r < 12) (h : ¬ (toInt 32 (s.rd Obj.vtrimMv) = 15 ∧ 10000 < ppm ∧ s.inEpisode Ev.marginLow 0 = false)) :
    s.marginLow r ppm = s.showStretch r ppm ∨ s.marginLow r ppm = (s.showStretch r ppm).endEpisode Ev.marginLow 0 := by
  have hv := State.rd_showStretch (s := s) (ppm := ppm) (k := Obj.vtrimMv) hr (by decide)
  unfold State.marginLow
  extract_lets v bound
  split
  · next hb =>
    have hin : s.inEpisode Ev.marginLow 0 = true := by
      rw [← Bool.not_eq_false]
      refine fun he => h ⟨?_, hb.2, he⟩
      rw [← hv]
      exact eq_of_beq hb.1
    exact .inl (if_pos hin)
  · split
    · exact .inl rfl
    · exact .inr rfl

/-! ### Ageing records (R398) -/

/-- The record written, before what it reports. -/
def State.ageKept (s : State) (cause : Nat) : State :=
  let rs := (if 4096 ≤ s.clock.records.length then s.clock.records.drop 1 else s.clock.records) ++ [s.ageBytes cause]
  (s.setClock fun (c : ClockState) => { c with records := rs, margins := [], stretch := [], tjMax := s.tjNow }).wr Obj.ageCount rs.length

/-- What a record written leaves. -/
structure Ages (s : State) (cause : Nat) (t : State) : Prop where
  last : t.clock.records.getLast? = some (s.ageBytes cause)
  count : t.rd Obj.ageCount = t.clock.records.length
  margins : t.clock.margins = []
  stretch : t.clock.stretch = []
  due : t.clock.due = s.clock.due
  sessionRec : t.clock.sessionRec = s.clock.sessionRec
  savedAt : t.clock.savedAt = s.clock.savedAt
  total : t.rd Obj.poweredSTotal = s.rd Obj.poweredSTotal
  now : t.now = s.now

theorem State.ageKept_ages (s : State) (c : Nat) : Ages s c (s.ageKept c) :=
  ⟨List.getLast?_concat .., State.rd_wr_self .., rfl, rfl, rfl, rfl, rfl, State.rd_wr_ne (by decide), rfl⟩

theorem Ages.beside {c : Nat} {u : State} (h : Ages s c t) (hc : u.clock = t.clock) (hr : ∀ k, eventKey k = false → u.rd k = t.rd k) (hn : u.now = t.now) :
    Ages s c u := by
  refine ⟨?_, ?_, ?_, ?_, ?_, ?_, ?_, ?_, hn.trans h.now⟩
  · rw [hc]; exact h.last
  · rw [hc, hr _ (by decide)]; exact h.count
  · rw [hc]; exact h.margins
  · rw [hc]; exact h.stretch
  · rw [hc]; exact h.due
  · rw [hc]; exact h.sessionRec
  · rw [hc]; exact h.savedAt
  · rw [hr _ (by decide)]; exact h.total

theorem Ages.poweredS {c : Nat} (h : Ages s c t) : t.poweredS = s.poweredS := by
  rw [State.poweredS, State.poweredS, h.total, h.now, h.savedAt]

theorem State.ageWrite_ages (s : State) (c : Nat) : Ages s c (s.ageWrite c) ∧ (c = 0 → (s.ageWrite c).clock.lastDay = s.poweredS) := by
  unfold State.ageWrite
  extract_lets b rs v tr w n x
  have hv : Ages s c v := s.ageKept_ages c
  have hw : Ages s c w := by
    unfold w
    split
    · refine (hv.beside (State.raise_clock ..) (fun k hk => State.rd_raise hk (by decide)) (State.raise_now ..)).beside (State.lifeWarn_clock ..)
        (fun k hk => State.rd_lifeWarn hk) (State.lifeWarn_now ..)
    · exact hv
  have hx : Ages s c x := ⟨hw.last, hw.count, hw.margins, hw.stretch, hw.due, hw.sessionRec, hw.savedAt, hw.total, hw.now⟩
  have hday : x.clock.lastDay = s.poweredS := hw.poweredS
  split
  · next h => exact ⟨hw, fun e => absurd e h⟩
  · split
    · refine ⟨hx.beside (State.lifeExceed_clock ..) (fun k hk => State.rd_lifeExceed hk) (State.lifeExceed_now ..), fun _ => ?_⟩
      exact (congrArg ClockState.lastDay (State.lifeExceed_clock ..)).trans hday
    · exact ⟨hx, fun _ => hday⟩

/-! ### The sync word and powered time (R401, R404) -/

/-- The corrections of copies, counted and named. -/
def State.corrected (s : State) (bad : List Nat) : State :=
  bad.foldl (fun s d => (s.countSat Obj.droneCorrections 1).raise Ev.droneSkew [p8 d]) s

theorem State.corrected_clock {bad : List Nat} : (s.corrected bad).clock = s.clock :=
  List.foldlRecOn (motive := fun v : State => v.clock = s.clock) _ _ rfl fun _ h _ _ => (State.raise_clock ..).trans h

/-- The copies after a sync word. -/
def State.synced (s : State) : State :=
  s.setClock fun (c : ClockState) => { c with syncAt := s.now, copies := if s.start.rails then copyDomains else c.copies }

theorem State.droneSync_eq {skewed : List Nat} (hs : s.standby = true) (ht : s.clock.syncAt / 65536 < s.now / 65536) :
    s.droneSync skewed = s.synced.corrected (skewed.filter s.clock.copies.contains) := by
  refine if_neg ?_
  rw [hs]
  simp only [not_true_eq_false, false_or]
  omega

/-- By definition; stated for every change, so that the kernel need not compute with the times of one. -/
theorem State.rd_setClock {f : ClockState → ClockState} : (s.setClock f).rd k = s.rd k := (rfl)
theorem State.setClock_clock {f : ClockState → ClockState} : (s.setClock f).clock = f s.clock := (rfl)

/-- Powered time saved, with what its total brings. -/
theorem State.saveTime_saves {n : Nat} (hn : (s.now - s.clock.savedAt) / sec = n) (hs : s.standby = true) (h : 60 ≤ n) :
    s.saveTime.rd Obj.poweredSTotal = (s.rd Obj.poweredSTotal + n) % 2 ^ 64 ∧ s.saveTime.clock.savedAt = s.clock.savedAt + n * sec := by
  unfold State.saveTime
  rw [hn]
  dsimp only
  rw [if_neg (by rw [hs]; simp only [not_true_eq_false, false_or]; omega)]
  have hv : ((s.count Obj.poweredSTotal n).setClock fun (c : ClockState) => { c with savedAt := c.savedAt + n * sec }).rd Obj.poweredSTotal =
      (s.rd Obj.poweredSTotal + n) % 2 ^ 64 := by rw [State.rd_setClock, State.rd_count_self]
  have hc : ((s.count Obj.poweredSTotal n).setClock fun (c : ClockState) => { c with savedAt := c.savedAt + n * sec }).clock.savedAt =
      s.clock.savedAt + n * sec := by rw [State.setClock_clock]; rfl
  generalize (s.count Obj.poweredSTotal n).setClock (fun (c : ClockState) => { c with savedAt := c.savedAt + n * sec }) = v at *
  split
  · exact ⟨(State.rd_lifeExceed (by decide)).trans hv, (congrArg ClockState.savedAt (State.lifeExceed_clock ..)).trans hc⟩
  · split
    · exact ⟨(State.rd_lifeWarn (by decide)).trans hv, (congrArg ClockState.savedAt (State.lifeWarn_clock ..)).trans hc⟩
    · exact ⟨hv, hc⟩

/-! ### The statement -/

/-- Settles O31, command by command. -/
theorem clocksStretchAndAge : Obligations.ClocksStretchAndAge := by
  unfold Obligations.ClocksStretchAndAge
  refine ⟨?three, ?two, ?stays, ?down, ?downNot, ?reed, ?reedNot, ?loop, ?loopOff, ?low, ?lowNot, ?session, ?day, ?due, ?ageNot, ?sync, ?syncNot,
    ?save, ?saveNot⟩
  case three =>
    intro s r m c hm hl
    refine ⟨_, rfl, ?_⟩
    obtain ⟨hlev, hep, hrep⟩ := State.stretchRise_rises (s := s) (m := m) (cycles := c) (new := 3) r.isLt (if_pos hm).symm hl
    exact ⟨hlev, hep, hrep.margin, hrep.cycles⟩
  case two =>
    intro s r m c hm ht hl
    refine ⟨_, rfl, ?_⟩
    obtain ⟨hlev, hep, hrep⟩ := State.stretchRise_rises (s := s) (m := m) (cycles := c) (new := 2) r.isLt
      (by rw [if_neg (by omega), if_pos ht]) hl
    exact ⟨hlev, hep, hrep.margin, hrep.cycles⟩
  case stays =>
    intro s r m c h
    refine ⟨_, rfl, ?_⟩
    obtain ⟨hlev, hep, hrep⟩ := State.stretchRise_stays (s := s) (m := m) (cycles := c) r.isLt h
    exact ⟨hlev, hep, hrep.margin, hrep.cycles⟩
  case down =>
    intro s r m c ht hc hf
    refine ⟨_, rfl, ?_⟩
    obtain ⟨hlev, hrep⟩ := State.stretchDown_level (s := s) (m := m) (cycles := c) r.isLt
    rw [if_neg (by omega)] at hlev
    exact ⟨hlev, hrep.margin, hrep.cycles⟩
  case downNot =>
    intro s r m c h
    refine ⟨_, rfl, ?_⟩
    obtain ⟨hlev, hrep⟩ := State.stretchDown_level (s := s) (m := m) (cycles := c) r.isLt
    rw [if_pos h] at hlev
    exact ⟨hlev, hrep.margin, hrep.cycles⟩
  case reed => exact fun s row col mon hm hr => ⟨_, rfl, State.reedMask_masks row.isLt hm hr⟩
  case reedNot => exact fun s row col mon h => ⟨_, rfl, if_pos h⟩
  case loop => exact fun s w h => ⟨_, rfl, State.voltageLoop_trims h⟩
  case loopOff => exact fun s w h => ⟨_, rfl, if_pos (by rw [h]; decide)⟩
  case low =>
    intro s r ppm hb hp he
    refine ⟨_, rfl, ?_⟩
    have hev := State.rd_raiseOnce_occurrences (s := s.showStretch r ppm) (code := Ev.marginLow) (inst := 0) (ps := [p8 r, p32 ppm]) he
    rw [State.rd_showStretch r.isLt (by decide)] at hev
    rw [State.marginLow_raised r.isLt hb hp he]
    refine ⟨State.inEpisode_raiseOnce_self (s := s.showStretch r ppm), (State.rd_countSat_ne (by decide)).trans hev, ?_, ?_, ?_⟩
    · refine (State.rd_countSat_self ..).trans ?_
      rw [State.rd_raiseOnce (by decide) (by decide), State.rd_showStretch r.isLt (by decide)]
    · have hdue := congrArg (fun c : ClockState => c.due ++ [2]) ((s.showStretch r ppm).raiseOnce_clock Ev.marginLow 0 [p8 r, p32 ppm])
      exact hdue
    · refine (State.rd_countSat_ne (by simp only [Obj.regionStretchPpm, Obj.marginLowEvents]; omega)).trans ?_
      exact (State.rd_raiseOnce (eventKey_regionStretchPpm r r.isLt) (by decide)).trans State.rd_showStretch_self
  case lowNot =>
    intro s r ppm h
    refine ⟨_, rfl, ?_⟩
    rcases State.marginLow_quiet r.isLt h with e | e
    · rw [e]
      exact ⟨State.rd_showStretch r.isLt (by decide), rfl, State.rd_showStretch_self⟩
    · rw [e]
      exact ⟨State.rd_showStretch r.isLt (by decide), rfl, State.rd_showStretch_self⟩
  case session =>
    intro s hs hr ht
    refine ⟨_, rfl, ?_⟩
    rw [if_pos hs, State.ageDue, if_pos ⟨by rw [hr]; decide, ht⟩]
    obtain ⟨h, -⟩ := State.ageWrite_ages (s.setClock fun (c : ClockState) => { c with sessionRec := true }) 1
    exact ⟨h.last, h.count, h.margins, h.stretch, h.sessionRec⟩
  case day =>
    intro s hs hn hd
    refine ⟨_, rfl, ?_⟩
    rw [if_pos hs, State.ageDue, if_neg (by simpa using hn), if_pos hd]
    obtain ⟨h, hday⟩ := s.ageWrite_ages 0
    exact ⟨h.last, h.count, h.margins, h.stretch, hday rfl⟩
  case due =>
    intro s c r hs hn hd hdue
    refine ⟨_, rfl, ?_⟩
    rw [if_pos hs, State.ageDue, if_neg (by simpa using hn), if_neg (by omega), hdue]
    obtain ⟨h, -⟩ := State.ageWrite_ages (s.setClock fun (x : ClockState) => { x with due := r }) c
    exact ⟨h.last, h.count, h.margins, h.stretch, h.due⟩
  case ageNot =>
    intro s h
    refine ⟨_, rfl, ?_⟩
    split
    · next hs =>
      obtain ⟨hn, hd, hdue⟩ := h.resolve_left (by rw [hs]; decide)
      rw [State.ageDue, if_neg (by simpa using hn), if_neg (by omega), hdue]
    · rfl
  case sync =>
    intro s skewed hs ht
    refine ⟨_, rfl, ?_⟩
    rw [State.droneSync_eq hs ht, State.corrected_clock]
    refine ⟨rfl, rfl, ?_⟩
    rintro d rfl
    cases hc : s.clock.copies.contains d
    · simp only [List.filter_cons, hc]
      rfl
    · simp only [List.filter_cons, hc]
      exact (State.rd_raise (by decide) (by decide)).trans (State.rd_countSat_self ..)
  case syncNot => exact fun s skewed h => ⟨_, rfl, if_pos (h.imp_left (by simp))⟩
  case save => exact fun s hs h => ⟨_, rfl, State.saveTime_saves rfl hs h⟩
  case saveNot => exact fun s h => ⟨_, rfl, if_pos (h.imp_left (by simp))⟩

end Sys2Proof.Machine
end

section
/-! SUPPORT. Identities that settle, persistent objects put to their defaults, and the statement on settings. -/
namespace Sys2Proof.Machine

variable {s t u : State} {i j k n p b v z : Nat}

/-! ### Ports that settle (R318, R320) -/

theorem State.mail_parks {m : Mail} (h : Parks s t) : Parks s (t.mail m) := State.mailFrom_parks h

theorem State.mailWaiting_parks (h : Parks s t) : Parks s t.mailWaiting := .foldl (fun _ _ v => State.mail_parks (.refl v)) h.beside

theorem State.setAside_parks (h : Parks s t) : Parks s (t.setAside p) := .foldl (fun _ _ v => State.mail_parks (.refl v)) h.beside

theorem State.carry_parks (h : Parks s t) (hp : p < 16) (hb : b < 256) : Parks s (t.carry p b) := by
  unfold State.carry
  extract_lets old a s₁ s₂
  have h₁ : Parks s s₁ := by
    unfold s₁
    split
    · next ha => exact h.wr (portKey_planePort (by omega))
    · exact h
  exact State.remapped_parks ((h₁.wr (portKey_logicalPlane hp)).wr (portKey_planePort (by omega)))

theorem State.peerPlane_lt (s : State) (p : Nat) : (s.peerPlane p).getD 0xFF < 256 := by
  unfold State.peerPlane Plan.planeOf
  cases h : (List.range 16).find? fun b => (s.port p).plan.uses b && (s.port p).plan.chassis.getD b 0 != 0 &&
      (s.port p).plan.chassis.getD b 0 == (s.port p).chassis with
  | none => decide
  | some b =>
    have := List.mem_range.1 (List.mem_of_find?_eq_some h)
    simp only [Option.getD_some]
    omega

theorem State.idSettle_parks {r : Nat} (h : Parks s t) (hp : p < 16) : Parks s (t.idSettle p r) := by
  have hb := t.peerPlane_lt p
  unfold State.idSettle
  extract_lets b mode adopt already
  have aside (st : Nat) : Parks s ((t.portTo p st).setAside p) := State.setAside_parks (State.portTo_parks h hp)
  have rise (c : Nat) (hc : c < 256) : Parks s (((((t.carry p c).portTo p psUp).updPort p fun x => { x with dataAt := t.now }).pump p).mailWaiting) :=
    State.mailWaiting_parks (State.pump_parks (State.portTo_parks (State.carry_parks h hp hc) hp).beside hp)
  exact (h.ite (aside _)).ite (h.ite ((rise p (by omega)).ite ((rise b hb).ite (h.ite (aside _)))))

/-- `t` is `s` as identities settle: the objects that are neither of ports nor of events are as they were,
and the dictionary beside its log and start-up beside the field log. -/
structure Settles (s t : State) : Prop where
  objs : ∀ k, portKey k = false → eventKey k = false → t.rd k = s.rd k
  dict : t.dict.offLog = s.dict.offLog
  start : { t.start with fieldLog := [] } = { s.start with fieldLog := [] }

namespace Settles

theorem refl (s : State) : Settles s s := ⟨fun _ _ _ => rfl, rfl, rfl⟩

theorem trans (h : Settles s t) (h' : Settles t u) : Settles s u :=
  ⟨fun k hk he => (h'.objs k hk he).trans (h.objs k hk he), h'.dict.trans h.dict, h'.start.trans h.start⟩

theorem ite {c : Prop} [Decidable c] (ht : Settles s t) (hu : Settles s u) : Settles s (if c then t else u) := by split <;> assumption

theorem foldl {α : Type} {f : State → α → State} {l : List α} (hf : ∀ a ∈ l, ∀ v, Settles v (f v a)) (h : Settles s t) : Settles s (l.foldl f t) :=
  List.foldlRecOn (motive := fun v => Settles s v) _ _ h fun v hv a ha => hv.trans (hf a ha v)

theorem raise {code : Nat} {ps : List Bytes} (h : Settles s t) (hc : 256 ≤ code ∧ code < 4096 := by decide) : Settles s (t.raise code ps) :=
  h.trans ⟨fun _ _ he => State.rd_raise he hc, State.raise_offLog, by rw [State.raise_start]⟩

theorem slot (h : Settles s t) : t.start.slot = s.start.slot :=
  have h' := congrArg StartState.slot h.start
  h'

end Settles

theorem Parks.settles (h : Parks s t) : Settles s t := ⟨fun k hk _ => h.objs k hk, h.dict, h.start⟩

theorem State.idEvent_settles {r : Nat} (h : Settles s t) : Settles s (t.idEvent p r) := by
  unfold State.idEvent
  extract_lets b
  exact (h.ite h.raise).ite (h.raise.ite (h.raise.ite (h.raise.ite (h.raise.ite (h.raise.ite h)))))

theorem State.idOne_settles (s : State) (hp : p < 16) : Settles s (s.idOne p) := by
  unfold State.idOne
  extract_lets x r s₁
  have h₁ : Settles s s₁ := .ite (.refl s) ((State.idEvent_settles (.refl s)).trans (Parks.wr (.refl _) (portKey_idResult hp)).settles)
  exact .ite (.ite (.refl s) (h₁.trans (State.idSettle_parks (.refl _) hp).settles)) (.refl s)

theorem State.classify_settles (s : State) : Settles s s.classify :=
  .foldl (fun _ _ v => .foldl (fun _ hp w => w.idOne_settles (List.mem_range.1 hp)) (.refl v)) (.refl s)

theorem State.planWrite_settles (s : State) (k v : Nat) : Settles (s.wr k v) (s.planWrite k v) := by
  have h : Settles (s.wr k v) ((List.range 16).foldl State.planPort (s.wr k v)) := .foldl (fun _ _ w => ⟨fun _ _ _ => rfl, rfl, rfl⟩) (.refl _)
  rw [State.planWrite_eq]
  exact h.trans (State.classify_settles _)

/-! ### Zones that take a size (R269) -/

theorem State.sizeZone_leaves (s : State) (z n : Nat) (hk : k ≠ Obj.szState z) (he : eventKey k = false) : (s.sizeZone z n).rd k = s.rd k := by
  unfold State.sizeZone
  extract_lets held bs v _ w
  have hv : Within ⟨[.store], fun _ => False⟩ s v := .foldl (fun _ _ h => State.drawStripe_within (by simp) h) (.refl _ _)
  have hw : w.rd k = v.rd k := rfl
  exact (State.rd_wr_ne hk).trans (hw.trans (hv.rd_eq id he))

theorem State.sizeZone_shape (s : State) (z n : Nat) : ∃ o st, s.sizeZone z n = { s with obj := o, store := st } := by
  unfold State.sizeZone
  extract_lets held bs v _ w
  have hv : OnBlocks s v := .foldl (fun _ _ => State.drawStripe_onBlocks) _ s
  obtain ⟨_, _, _, h⟩ := hv.shape
  clear_value v
  subst h
  exact ⟨_, _, rfl⟩

/-! ### Persistent objects at their defaults (R412) -/

/-- What ports, events, zones and the settings themselves write. -/
def ownKey (k : Nat) : Bool :=
  portKey k || eventKey k || k == Obj.settingsState || (List.range 4).any fun z => k == Obj.szState z || k == Obj.szWp z

theorem persistent_plain : ∀ k ∈ persistentKeys, ownKey k = false := by decide +kernel

/-- The objects that no default written elsewhere changes: those that ports, events and zones leave. -/
def Calm (k : Nat) : Prop := portKey k = false ∧ eventKey k = false ∧ ∀ z < 4, k ≠ Obj.szState z

theorem calm_persistent (hk : k ∈ persistentKeys) : Calm k := by
  have h := persistent_plain k hk
  simp only [ownKey, Bool.or_eq_false_iff, List.any_eq_false, List.mem_range, Bool.or_eq_true, beq_iff_eq, not_or] at h
  obtain ⟨⟨⟨hport, hevent⟩, -⟩, hzone⟩ := h
  exact ⟨hport, hevent, fun z hz => (hzone z hz).1⟩

theorem szWp_calm : ∀ z : Fin 4, portKey (Obj.szWp z) = false ∧ eventKey (Obj.szWp z) = false ∧ ∀ y : Fin 4, Obj.szWp z ≠ Obj.szState y := by decide

theorem calm_szWp (hz : z < 4) : Calm (Obj.szWp z) := by
  obtain ⟨hport, hevent, hzone⟩ := szWp_calm ⟨z, hz⟩
  exact ⟨hport, hevent, fun y hy => hzone ⟨y, hy⟩⟩

theorem szWp_ne_persistent (hz : z < 4) (hk : k ∈ persistentKeys) : Obj.szWp z ≠ k := by
  have h := persistent_plain k hk
  simp only [ownKey, Bool.or_eq_false_iff, List.any_eq_false, List.mem_range, Bool.or_eq_true, beq_iff_eq, not_or] at h
  exact fun e => (h.2 z hz).2 e.symm

theorem settingsState_ne_persistent (hk : k ∈ persistentKeys) : k ≠ Obj.settingsState := by
  have h := persistent_plain k hk
  simp only [ownKey, Bool.or_eq_false_iff, beq_eq_false_iff_ne] at h
  exact h.1.2

/-- `t` is `s` with object `k` changed, in force or staged, and what follows from it: other objects that are calm stand with what is staged for
them, and so do the records dispatched, the dictionary beside its log and the slot. -/
structure Sets (k : Nat) (s t : State) : Prop where
  objs : ∀ j, Calm j → j ≠ k → t.rd j = s.rd j
  staged : ∀ j, j ≠ k → t.staged.find j = s.staged.find j
  cmd : t.cmd = s.cmd
  dict : t.dict.offLog = s.dict.offLog
  slot : t.start.slot = s.start.slot

theorem State.refl_sets (s : State) : Sets k s s := ⟨fun _ _ _ => rfl, fun _ _ => rfl, rfl, rfl, rfl⟩

theorem State.wr_sets (s : State) : Sets k s (s.wr k v) := ⟨fun _ _ hj => State.rd_wr_ne hj, fun _ _ => rfl, rfl, rfl, rfl⟩

theorem State.stage_sets (s : State) : Sets k s (s.stage k v) := by
  refine ⟨fun _ _ _ => rfl, fun j hj => ?_, rfl, rfl, rfl⟩
  unfold State.stage
  dsimp only
  split
  · exact Tab.find_erase_ne hj
  · exact Tab.find_insert_ne _ hj

theorem State.planWrite_sets (s : State) : Sets k s (s.planWrite k v) := by
  have h := s.planWrite_settles k v
  have hscope := s.planWrite_scope k v
  refine ⟨fun j hj hjk => (h.objs j hj.1 hj.2.1).trans (State.rd_wr_ne hjk), fun j _ => ?_, (hscope.mono (by decide) fun _ _ => trivial).cmd_eq,
    h.dict, h.slot⟩
  rw [(hscope.same .staged).resolve_left (by decide)]

theorem State.sizeZone_sets (s : State) (hz : z < 4) : Sets k s ((s.wr k v).sizeZone z n) := by
  have hrd (j : Nat) (hj : Calm j) (hjk : j ≠ k) : ((s.wr k v).sizeZone z n).rd j = s.rd j :=
    (State.sizeZone_leaves _ z n (hj.2.2 z hz) hj.2.1).trans (State.rd_wr_ne hjk)
  obtain ⟨_, _, h⟩ := (s.wr k v).sizeZone_shape z n
  generalize (s.wr k v).sizeZone z n = t at h hrd
  subst h
  exact ⟨hrd, fun _ _ => rfl, rfl, rfl, rfl⟩

theorem State.defaultOf_sets (s : State) (k : Nat) : Sets k s (s.defaultOf k) := by
  unfold State.defaultOf
  split
  · exact s.stage_sets
  · split
    · exact s.planWrite_sets
    · split
      · next hz =>
        simp only [Bool.and_eq_true, decide_eq_true_eq, beq_iff_eq] at hz
        split
        · exact s.refl_sets
        · exact s.sizeZone_sets (by omega)
      · exact s.wr_sets

/-- Is the object at its default, or is it the size of a zone that keeps it? -/
def State.AtDefault (s : State) (k : Nat) : Prop :=
  if isMode k = true then (s.staged.find k).getD (s.rd k) = s.dflt k else s.keepsSize k = false → s.rd k = s.dflt k

theorem State.defaultOf_atDefault (s : State) (hk : Calm k) : (s.defaultOf k).AtDefault k := by
  have hdflt : (s.defaultOf k).dflt k = s.dflt k := by rw [State.dflt, State.dflt, (s.defaultOf_sets k).slot]
  unfold State.AtDefault
  rw [hdflt]
  split
  · next hm =>
    rw [State.defaultOf, if_pos hm]
    unfold State.stage
    dsimp only
    split
    · next he => rw [Tab.find_erase_self, he]; rfl
    · rw [Tab.find_insert_self]; rfl
  · next hm =>
    unfold State.defaultOf
    rw [if_neg hm]
    split
    · exact fun _ => ((s.planWrite_settles k _).objs k hk.1 hk.2.1).trans (State.rd_wr_self ..)
    · split
      · next hz =>
        simp only [Bool.and_eq_true, decide_eq_true_eq, beq_iff_eq] at hz
        split
        · next hkeep => exact fun h => absurd hkeep (by rw [h]; decide)
        · exact fun _ => (State.sizeZone_leaves _ _ _ (hk.2.2 _ (by omega)) hk.2.1).trans (State.rd_wr_self ..)
      · exact fun _ => State.rd_wr_self ..

theorem Sets.keepsSize (h : Sets k s t) (hk : k ∈ persistentKeys) (j : Nat) : t.keepsSize j = s.keepsSize j := by
  unfold State.keepsSize
  by_cases hz : 0x6810 ≤ j / 256 ∧ j / 256 ≤ 0x6813
  · have hz' : j / 256 - 0x6810 < 4 := by omega
    have hrun : t.zoneAppends (j / 256 - 0x6810) = s.zoneAppends (j / 256 - 0x6810) := by
      simp only [State.zoneAppends, State.running, State.win, h.cmd]
    rw [State.zoneHolds, State.zoneHolds, hrun, h.objs _ (calm_szWp hz') (szWp_ne_persistent hz' hk)]
  · simp only [decide_eq_false hz, Bool.false_and]

/-- An object at its default stays there while another is put to its own. -/
theorem Sets.atDefault (h : Sets k s t) (hk : k ∈ persistentKeys) (hj : Calm j) (hjk : j ≠ k) (hs : s.AtDefault j) : t.AtDefault j := by
  unfold State.AtDefault at *
  rwa [State.dflt, h.slot, ← State.dflt, h.staged j hjk, h.objs j hj hjk, h.keepsSize hk]

/-- What putting persistent objects to their defaults keeps. -/
structure Defaults (s t : State) : Prop where
  keeps : ∀ j, t.keepsSize j = s.keepsSize j
  dict : t.dict.offLog = s.dict.offLog
  slot : t.start.slot = s.start.slot

theorem State.defaultOfs_defaults (s : State) {ks : List Nat} (h : ∀ k ∈ ks, k ∈ persistentKeys) : Defaults s (ks.foldl State.defaultOf s) :=
  List.foldlRecOn (motive := Defaults s) _ _ ⟨fun _ => rfl, rfl, rfl⟩ fun v hv k hk =>
    have hset := v.defaultOf_sets k
    ⟨fun j => (hset.keepsSize (h k hk) j).trans (hv.keeps j), hset.dict.trans hv.dict, hset.slot.trans hv.slot⟩

theorem State.defaultOfs_atDefault {ks : List Nat} (h : ∀ k ∈ ks, k ∈ persistentKeys) (hj : Calm j) (hs : j ∈ ks ∨ s.AtDefault j) :
    (ks.foldl State.defaultOf s).AtDefault j := by
  induction ks generalizing s with
  | nil => exact hs.resolve_left List.not_mem_nil
  | cons k ks ih =>
    refine ih (fun i hi => h i (List.mem_cons_of_mem k hi)) ?_
    by_cases e : j = k
    · exact .inr (e ▸ s.defaultOf_atDefault (e ▸ hj))
    · rcases hs with hs | hs
      · exact .inl ((List.mem_cons.1 hs).resolve_left e)
      · exact .inr ((s.defaultOf_sets k).atDefault (h k List.mem_cons_self) hj e hs)

/-- Every persistent object of `t` is at the default that `s` has for it, and neither the stored record nor the one being written is touched. -/
structure AllDefault (s t : State) : Prop where
  value : ∀ k ∈ persistentKeys, isMode k = false → s.keepsSize k = false → t.rd k = s.dflt k
  staged : ∀ k ∈ persistentKeys, isMode k = true → (t.staged.find k).getD (t.rd k) = s.dflt k
  stored : t.dict.stored = s.dict.stored
  saving : t.dict.saving = s.dict.saving

theorem Defaults.allDefault (h : Defaults s t) (hd : ∀ k ∈ persistentKeys, t.AtDefault k) : AllDefault s t := by
  have hdflt (k : Nat) : t.dflt k = s.dflt k := by rw [State.dflt, State.dflt, h.slot]
  have hstored := congrArg DictState.stored h.dict
  have hsaving := congrArg DictState.saving h.dict
  refine ⟨fun k hk hm hkeep => ?_, fun k hk hm => ?_, hstored, hsaving⟩
  · have hk := hd k hk
    rw [State.AtDefault, if_neg (by simp [hm])] at hk
    exact (hk ((h.keeps k).trans hkeep)).trans (hdflt k)
  · have hk := hd k hk
    rw [State.AtDefault, if_pos hm] at hk
    exact hk.trans (hdflt k)

/-- What ends setting the defaults: the settings show that none is stored, now or once the record being written is. -/
def State.defaultsEnd (s : State) : State :=
  match s.dict.saving with
  | some v => { s with dict := { s.dict with saving := some { v with before := 0 } } }
  | none => s.wr Obj.settingsState 0

theorem State.defaultsEnd_idle (h : s.dict.saving = none) : s.defaultsEnd = s.wr Obj.settingsState 0 := by rw [State.defaultsEnd, h]

theorem State.defaultsEnd_saving {w : Saving} (h : s.dict.saving = some w) :
    s.defaultsEnd = { s with dict := { s.dict with saving := some { w with before := 0 } } } := by rw [State.defaultsEnd, h]

theorem State.defaults_eq (s : State) {ks : List Nat} (h : persistentKeys = ks) : s.defaults = (ks.foldl State.defaultOf s).defaultsEnd := by
  delta State.defaults
  rw [h]
  rfl

theorem State.defaults_allDefault (s : State) : ∃ t, AllDefault s t ∧ s.defaults = t.defaultsEnd := by
  have hend := fun ks => s.defaults_eq (ks := ks)
  have hall : AllDefault s (persistentKeys.foldl State.defaultOf s) :=
    (s.defaultOfs_defaults fun _ hk => hk).allDefault fun _ hk =>
      State.defaultOfs_atDefault (fun _ hk => hk) (calm_persistent hk) (.inl hk)
  exact ⟨_, hall, hend _ rfl⟩

/-! ### The settings record (R413) -/

/-- The checks of an action that takes the word 1, in their order (R411). -/
theorem State.writeStatus_one {src : Src} {key arg cond : Nat} {r : ObjRow} (hr : objRow (key / 256) (key % 256) = some r) (ha : r.acc = .wa)
    (hrng : r.rng = .span 1 1) : s.writeStatus src key arg false cond =
    if s.fldDenied src key = true then 0x0B else if arg ≠ 1 then 0x05 else cond := by
  have hok : ObjRng.ok (.span 1 1) arg = true ↔ arg = 1 := by
    simp only [ObjRng.ok, decide_eq_true_eq]
    omega
  simp [State.writeStatus, hr, ha, hrng, hok]

theorem objRow_settingsSave : objRow (Obj.settingsSave / 256) (Obj.settingsSave % 256) =
    some ⟨0x1010, 0x1010, 1, 1, .action, .wa, .const 0, .span 1 1⟩ := by decide

theorem objRow_settingsDefaults : objRow (Obj.settingsDefaults / 256) (Obj.settingsDefaults % 256) =
    some ⟨0x1010, 0x1010, 2, 2, .action, .wa, .const 0, .span 1 1⟩ := by decide

theorem State.defaults_applied {src : Src} {arg : Nat} (ha : arg = 1) (hf : s.fldDenied src Obj.settingsDefaults = false) :
    s.act src Obj.settingsDefaults arg false 0 State.defaults = s.defaults.emit (.status src Obj.settingsDefaults 0) :=
  State.act_applied objRow_settingsDefaults rfl (by rw [ha]; rfl) rfl hf rfl

/-- Settles O35: a save takes the record as it stands, the read-back keeps or drops it, and each default holds once set, which no default set
after it changes. -/
theorem settingsAreSaved : Obligations.SettingsAreSaved := by
  unfold Obligations.SettingsAreSaved
  refine ⟨?save, ?refused, fun s good h => ⟨_, rfl, ?none⟩, fun s v h hf => ⟨_, rfl, ?again⟩, fun s v h => ⟨_, rfl, ?good⟩,
    fun s v h hf => ⟨_, rfl, ?bad⟩, ?defaults, ?defaultsSaving, ?defaultsRefused⟩
  case save =>
    intro s src arg ha hf hc
    refine ⟨_, rfl, ?_⟩
    rw [State.act_applied objRow_settingsSave rfl (by rw [ha]; rfl) rfl hf hc]
    exact ⟨rfl, (State.rd_wr_self _ Obj.settingsState 2 :), rfl, rfl⟩
  case refused =>
    intro s src arg h
    have hst := s.writeStatus_one (src := src) (arg := arg) (cond := s.saveCond) objRow_settingsSave rfl rfl
    refine ⟨_, rfl, ?_⟩
    have hcond : s.saveCond = 0 ∨ s.saveCond = 0x0A := by
      unfold State.saveCond
      extract_lets
      split
      · exact .inr rfl
      · exact .inl rfl
    rw [State.act_rejected (by rw [hst]; split_ifs <;> grind), hst]
    refine ⟨?_, State.rd_count_ne (by decide), rfl, (State.rd_count_self s Obj.dictRejected 1 :)⟩
    show Out.status src Obj.settingsSave _ :: s.out = _
    congr 2
    split_ifs <;> grind
  case none =>
    unfold State.saveDone
    rw [h]
  case again =>
    unfold State.saveDone
    rw [h]
    simp [hf]
  case good =>
    unfold State.saveDone
    rw [h]
    exact ⟨State.rd_wr_self .., rfl, rfl, rfl⟩
  case bad =>
    unfold State.saveDone
    rw [h]
    simp only [hf, Bool.false_eq_true, if_false]
    refine ⟨(State.rd_raise (by decide) (by decide)).trans (State.rd_wr_self ..), by simp, by simp, ?_⟩
    rw [State.rd_raise_occurrences (by decide) (by decide), State.rd_wr_ne (by decide)]
    rfl
  case defaults =>
    intro s src arg ha hf hs
    refine ⟨_, rfl, ?_⟩
    obtain ⟨t, ht, he⟩ := s.defaults_allDefault
    rw [State.defaults_applied ha hf, he, State.defaultsEnd_idle (ht.saving.trans hs)]
    refine ⟨rfl, (State.rd_wr_self t Obj.settingsState 0 :), fun k hk hm hkeep => ?_, fun k hk hm => ?_, ht.stored⟩
    · have hrd : (t.wr Obj.settingsState 0).rd k = t.rd k := State.rd_wr_ne (settingsState_ne_persistent hk)
      exact hrd.trans (ht.value k hk hm hkeep)
    · have hrd : (t.wr Obj.settingsState 0).rd k = t.rd k := State.rd_wr_ne (settingsState_ne_persistent hk)
      rw [← ht.staged k hk hm, ← hrd]
      rfl
  case defaultsSaving =>
    intro s src arg v ha hf hs
    refine ⟨_, rfl, ?_⟩
    obtain ⟨t, ht, he⟩ := s.defaults_allDefault
    rw [State.defaults_applied ha hf, he, State.defaultsEnd_saving (ht.saving.trans hs)]
    exact ⟨rfl, rfl, ht.value, ht.staged, ht.stored⟩
  case defaultsRefused =>
    intro s src arg h
    have hst := s.writeStatus_one (src := src) (arg := arg) (cond := 0) objRow_settingsDefaults rfl rfl
    refine ⟨_, rfl, ?_⟩
    rw [State.act_rejected (by rw [hst]; split_ifs <;> grind), hst]
    refine ⟨?_, rfl, rfl, (State.rd_count_self s Obj.dictRejected 1 :)⟩
    show Out.status src Obj.settingsDefaults _ :: s.out = _
    congr 2
    split_ifs <;> grind

end Sys2Proof.Machine
end

section
/-! SUPPORT. The slots of firmware and the messages of an update, and the statement on loading. -/
namespace Sys2Proof.Machine

variable {s t u : State} {i j k n v : Nat} {p : HostPort} {l : Loading} {f : Loading → State}

/-! ### Messages of an update (R446) -/

theorem onPort_down {g : State → State} (h : s.linkUp p = false) : onPort p s g = .next s := by simp [onPort, h]

/-- An update that runs on no port, or on the other. -/
theorem State.inUpdate_elsewhere {phase : Nat} (h : s.fw.load = none ∨ s.fw.load.map Loading.port ≠ some p) :
    s.inUpdate p phase f = s.reply p prPldm 0x80 [] := by
  unfold State.inUpdate
  cases e : s.fw.load with
  | none => rfl
  | some l =>
    have hne : l.port ≠ p := by simpa [e] using h
    simp [hne]

theorem State.inUpdate_early {phase : Nat} (hl : s.fw.load = some l) (hp : l.port = p) (h : l.phase ≠ phase) :
    s.inUpdate p phase f = s.reply p prPldm 0x84 [] := by
  simp [State.inUpdate, hl, hp, h]

theorem State.inUpdate_runs {phase : Nat} (hl : s.fw.load = some l) (hp : l.port = p) (h : l.phase = phase) : s.inUpdate p phase f = f l := by
  simp [State.inUpdate, hl, hp, h]

/-! ### The commands of an update -/

theorem exec_pldmQueryDeviceIdentifiers : exec (.pldmQueryDeviceIdentifiers p) s = execPldmQueryDeviceIdentifiers p s := rfl
theorem exec_pldmGetFirmwareParameters : exec (.pldmGetFirmwareParameters p) s = execPldmGetFirmwareParameters p s := rfl
theorem exec_pldmRequestUpdate : exec (.pldmRequestUpdate p) s = execPldmRequestUpdate p s := rfl
theorem exec_pldmGetStatus : exec (.pldmGetStatus p) s = execPldmGetStatus p s := rfl
theorem exec_pldmCancelUpdate : exec (.pldmCancelUpdate p) s = execPldmCancelUpdate p s := rfl
theorem exec_pldmActivateFirmware : exec (.pldmActivateFirmware p) s = execPldmActivateFirmware p s := rfl
theorem exec_pldmPassComponentTable : exec (.pldmPassComponentTable p) s = execPldmPassComponentTable p s := rfl
theorem exec_pldmUpdateComponent {size : Nat} : exec (.pldmUpdateComponent p size) s = execPldmUpdateComponent p size s := rfl
theorem exec_pldmFirmwareData {off : Nat} {data : Bytes} : exec (.pldmFirmwareData p off data) s = execPldmFirmwareData p off data s := rfl
theorem exec_pldmCancelUpdateComponent : exec (.pldmCancelUpdateComponent p) s = execPldmCancelUpdateComponent p s := rfl

/-! ### The objects of a slot (0x8001 and 0x8002) -/

theorem State.rd_slotInfo {holds : Bool} (hk : k < Obj.slotFwVersion n ∨ Obj.slotManifestHash n < k) : (s.slotInfo n holds).rd k = s.rd k := by
  unfold State.slotInfo
  have h₁ : k ≠ Obj.slotFwVersion n := fun e => by simp [e] at hk
  have h₂ : k ≠ Obj.slotSvn n := fun e => by simp [e] at hk
  have h₃ : k ≠ Obj.slotDictVersion n := fun e => by simp [e] at hk
  have h₄ : k ≠ Obj.slotManifestHash n := fun e => by simp [e] at hk
  split <;> rw [State.rd_wr_ne h₄, State.rd_wr_ne h₃, State.rd_wr_ne h₂, State.rd_wr_ne h₁]

theorem State.slotInfo_fw {holds : Bool} : (s.slotInfo n holds).fw = s.fw := by
  unfold State.slotInfo
  split <;> simp only [State.wr_fw]

theorem State.slotInfo_out {holds : Bool} : (s.slotInfo n holds).out = s.out := by
  unfold State.slotInfo
  split <;> simp only [State.wr_out]

theorem eventKey_slotState (hn : n ≤ 1) : eventKey (Obj.slotState n) = false ∧ eventKey (Obj.slotRejectReason n) = false := by
  obtain rfl | rfl : n = 0 ∨ n = 1 := by omega
  all_goals decide

/-- What the checks of a whole image make of its slot. -/
theorem State.stageSlot_fields (s : State) (hn : n ≤ 1) :
    (s.stageSlot n).rd (Obj.slotState n) = (if s.imageReject n (!s.inRecovery) = 0 then 2 else 4) ∧
    (s.stageSlot n).rd (Obj.slotRejectReason n) = s.imageReject n (!s.inRecovery) ∧ (s.stageSlot n).fw = s.fw := by
  obtain ⟨hst, hrr⟩ := eventKey_slotState hn
  have hne : Obj.slotState n ≠ Obj.slotRejectReason n := by simp
  unfold State.stageSlot
  extract_lets r
  split
  · next h =>
    refine ⟨?_, ?_, by simp only [State.raise_fw, State.slotInfo_fw, State.wr_fw]⟩
    · rw [State.rd_raise hst (by decide), State.rd_slotInfo (.inl (by simp)), State.rd_wr_ne hne, State.rd_wr_self]
    · rw [State.rd_raise hrr (by decide), State.rd_slotInfo (.inr (by simp)), State.rd_wr_self]
      exact h.symm
  · refine ⟨?_, ?_, by simp only [State.raise_fw, State.slotInfo_fw, State.wr_fw]⟩
    · rw [State.rd_raise hst (by decide), State.rd_slotInfo (.inl (by simp)), State.rd_wr_ne hne, State.rd_wr_self]
    · rw [State.rd_raise hrr (by decide), State.rd_slotInfo (.inr (by simp)), State.rd_wr_self]

theorem State.imageReject_reply {pr c : Nat} {bs : Bytes} {b : Bool} : (s.reply p pr c bs).imageReject n b = s.imageReject n b := rfl

/-- An image that is whole leaves its slot checked and the update over. -/
theorem State.imageWhole_fields (s : State) (hn : s.loadSlot ≤ 1) : (s.imageWhole p).fw.slots = s.fw.slots ∧ (s.imageWhole p).fw.load = none ∧
    (s.imageWhole p).rd (Obj.slotState s.loadSlot) = (if s.imageReject s.loadSlot (!s.inRecovery) = 0 then 2 else 4) ∧
    (s.imageWhole p).rd (Obj.slotRejectReason s.loadSlot) = s.imageReject s.loadSlot (!s.inRecovery) := by
  obtain ⟨hstate, hreason, hfw⟩ := State.stageSlot_fields (n := s.loadSlot) (s.reply p prPldm 0x16 [0]) hn
  have hslots : ((s.reply p prPldm 0x16 [0]).stageSlot s.loadSlot).fw.slots = s.fw.slots := congrArg FwState.slots hfw
  rw [State.imageReject_reply] at hstate hreason
  unfold State.imageWhole
  generalize (s.reply p prPldm 0x16 [0]).stageSlot s.loadSlot = w at hstate hreason hslots
  exact ⟨hslots, rfl, hstate, hreason⟩

/-- The slot that receives is erased: every byte of it is zero. -/
theorem State.beginTransfer_fields (s : State) : (s.beginTransfer n).rd (Obj.slotState n) = 1 ∧
    (∀ i, i < 2 ^ 27 → (s.beginTransfer n).slotByte n i = 0) ∧ (s.beginTransfer n).out = s.out := by
  unfold State.beginTransfer
  extract_lets v
  have hv : v.rd (Obj.slotState n) = 1 := by
    rw [State.rd_slotInfo (.inl (by simp)), State.rd_wr_ne (by simp), State.rd_wr_self]
  refine ⟨hv, fun i hi => ?_, State.slotInfo_out⟩
  have hw : (setIns v.fw.written n).contains n = true := List.contains_iff_mem.2 (mem_setIns_self _ _)
  rw [State.slotByte, if_pos hw]
  exact memClear_get_inside ⟨by omega, by omega⟩

theorem State.dropTransfer_fields (s : State) : s.dropTransfer.rd (Obj.slotState s.loadSlot) = 0 ∧ s.dropTransfer.out = s.out := by
  unfold State.dropTransfer
  exact ⟨(State.rd_slotInfo (.inl (by simp))).trans (State.rd_wr_self ..), State.slotInfo_out⟩

theorem State.loadSlot_le (h : s.rd Obj.activeSlot ≤ 1) : s.loadSlot ≤ 1 := by
  unfold State.loadSlot
  split <;> omega

/-- Data that comes in its place. -/
theorem State.firmwareData_taken {off : Nat} {data : Bytes} (hl : s.fw.load = some l) (hp : l.port = p) (hph : l.phase = 3) (ho : off = l.got) :
    s.firmwareData p off data =
    let d := data.take (l.size - l.got)
    let v : State := { s with fw := { s.fw with slots := memWrite s.fw.slots (s.loadSlot * 2 ^ 27 + off) d } }
    if l.got + d.length < l.size then (v.setLoad (some { l with got := l.got + d.length })).askData { l with got := l.got + d.length }
    else v.imageWhole p := by
  rw [State.firmwareData, State.inUpdate_runs hl hp hph, if_neg (not_not_intro ho)]

theorem State.firmwareData_whole {off : Nat} {data : Bytes} (hl : s.fw.load = some l) (hp : l.port = p) (hph : l.phase = 3) (ho : off = l.got)
    (hsize : l.size ≤ l.got + data.length) (hgot : l.got ≤ l.size) : s.firmwareData p off data =
    ({ s with fw := { s.fw with slots := memWrite s.fw.slots (s.loadSlot * 2 ^ 27 + off) (data.take (l.size - l.got)) } } : State).imageWhole p := by
  have hlen : ¬ l.got + (data.take (l.size - l.got)).length < l.size := by
    rw [List.length_take]
    omega
  rw [State.firmwareData_taken hl hp hph ho]
  exact if_neg hlen

theorem State.firmwareData_partial {off : Nat} {data : Bytes} (hl : s.fw.load = some l) (hp : l.port = p) (hph : l.phase = 3) (ho : off = l.got)
    (hsize : l.got + data.length < l.size) : s.firmwareData p off data =
    (({ s with fw := { s.fw with slots := memWrite s.fw.slots (s.loadSlot * 2 ^ 27 + off) data } } : State).setLoad
      (some { l with got := l.got + data.length })).askData { l with got := l.got + data.length } := by
  have htake : data.take (l.size - l.got) = data := List.take_of_length_le (by omega)
  rw [State.firmwareData_taken hl hp hph ho, htake]
  exact if_pos hsize

/-- Settles O36: each message of an update is answered in the phase it belongs to, and the last piece has the image checked. -/
theorem firmwareIsLoaded : Obligations.FirmwareIsLoaded := by
  unfold Obligations.FirmwareIsLoaded
  refine ⟨fun s p h => ⟨_, exec_pldmQueryDeviceIdentifiers.trans (onPort_runs h), rfl⟩, fun s p h => ⟨_, exec_pldmGetFirmwareParameters.trans (onPort_runs h), rfl⟩, ?request,
    fun s p h => ⟨_, exec_pldmQueryDeviceIdentifiers.trans (onPort_down h), rfl⟩, fun s p h => ⟨_, exec_pldmGetFirmwareParameters.trans (onPort_down h), rfl⟩, fun s p h => ⟨_, exec_pldmRequestUpdate.trans (onPort_down h), rfl⟩,
    fun s p h => ⟨_, exec_pldmGetStatus.trans (onPort_down h), rfl⟩, fun s p h => ⟨_, exec_pldmCancelUpdate.trans (onPort_down h), rfl⟩, fun s p h => ⟨_, exec_pldmActivateFirmware.trans (onPort_down h), rfl⟩,
    ?running, ?activating,
    fun s p h he => ⟨_, exec_pldmPassComponentTable.trans (onPort_runs h), State.inUpdate_elsewhere he⟩, fun s p l h hl hp hph => ⟨_, exec_pldmPassComponentTable.trans (onPort_runs h), State.inUpdate_early hl hp hph⟩,
    fun s p h => ⟨_, exec_pldmPassComponentTable.trans (onPort_down h), rfl⟩,
    fun s p _ h he => ⟨_, exec_pldmUpdateComponent.trans (onPort_runs h), State.inUpdate_elsewhere he⟩, fun s p l _ h hl hp hph => ⟨_, exec_pldmUpdateComponent.trans (onPort_runs h), State.inUpdate_early hl hp hph⟩,
    fun s p _ h => ⟨_, exec_pldmUpdateComponent.trans (onPort_down h), rfl⟩,
    fun s p _ _ h he => ⟨_, exec_pldmFirmwareData.trans (onPort_runs h), State.inUpdate_elsewhere he⟩,
    fun s p l _ _ h hl hp hph => ⟨_, exec_pldmFirmwareData.trans (onPort_runs h), State.inUpdate_early hl hp hph⟩, fun s p _ _ h => ⟨_, exec_pldmFirmwareData.trans (onPort_down h), rfl⟩,
    fun s p h he => ⟨_, exec_pldmCancelUpdateComponent.trans (onPort_runs h), State.inUpdate_elsewhere he⟩, fun s p l h hl hp hph => ⟨_, exec_pldmCancelUpdateComponent.trans (onPort_runs h), State.inUpdate_early hl hp hph⟩,
    fun s p h => ⟨_, exec_pldmCancelUpdateComponent.trans (onPort_down h), rfl⟩, ?scheduled, ?size, ?order, ?whole, ?cancelElsewhere, ?table, ?begin, ?piece,
    fun s p h => ⟨_, exec_pldmGetStatus.trans (onPort_runs h), rfl⟩, ?dropped, ?cancelled, fun s p h => ⟨_, exec_pldmActivateFirmware.trans (onPort_runs h), rfl⟩⟩
  case request =>
    intro s p h hl ha
    refine ⟨_, exec_pldmRequestUpdate.trans (onPort_runs h), ?_⟩
    dsimp only
    rw [if_neg (by simp [hl]), if_neg (by simp [ha])]
    exact ⟨rfl, rfl⟩
  case running => exact fun s p h hl => ⟨_, exec_pldmRequestUpdate.trans (onPort_runs h), if_pos hl⟩
  case activating =>
    intro s p h hl ha
    refine ⟨_, exec_pldmRequestUpdate.trans (onPort_runs h), ?_⟩
    rw [if_neg (by simp [hl]), if_pos ha]
    rfl
  case scheduled =>
    intro s p l size h hl hp hph ha
    refine ⟨_, exec_pldmUpdateComponent.trans (onPort_runs h), ?_⟩
    dsimp only
    rw [State.inUpdate_runs hl hp hph, if_pos ha]
    rfl
  case size =>
    intro s p l size h hl hp hph ha hsize
    refine ⟨_, exec_pldmUpdateComponent.trans (onPort_runs h), ?_⟩
    dsimp only
    rw [State.inUpdate_runs hl hp hph, if_neg (by simp [ha]), if_pos hsize]
    rfl
  case order =>
    intro s p l off data h hl hp hph ho
    exact ⟨_, exec_pldmFirmwareData.trans (onPort_runs h), (State.inUpdate_runs hl hp hph).trans (if_pos ho)⟩
  case whole =>
    intro s p l off data h hl hp hph ho hsize hgot hactive
    refine ⟨_, exec_pldmFirmwareData.trans (onPort_runs h), ?_⟩
    dsimp only
    rw [State.firmwareData_whole hl hp hph ho hsize hgot]
    generalize hv : ({ s with fw := _ } : State) = v
    have hslot : s.loadSlot = v.loadSlot := by rw [← hv]; rfl
    have hrec : s.inRecovery = v.inRecovery := by rw [← hv]; rfl
    have hbytes : memWrite s.fw.slots (s.loadSlot * 2 ^ 27 + off) (data.take (l.size - l.got)) = v.fw.slots := by rw [← hv]
    rw [hbytes, hslot, hrec]
    obtain ⟨hslots, hload, hstate, hreason⟩ := v.imageWhole_fields (p := p) (hslot ▸ State.loadSlot_le hactive)
    exact ⟨hslots, hload, hstate, hreason⟩
  case cancelElsewhere =>
    intro s p h he
    refine ⟨_, exec_pldmCancelUpdate.trans (onPort_runs h), ?_⟩
    cases e : s.fw.load with
    | none => rfl
    | some l =>
      have hne : l.port ≠ p := by simpa [e] using he
      exact if_pos hne
  case table =>
    intro s p l h hl hp hph
    refine ⟨_, exec_pldmPassComponentTable.trans (onPort_runs h), ?_⟩
    dsimp only
    rw [State.inUpdate_runs hl hp hph]
    exact ⟨rfl, rfl⟩
  case begin =>
    intro s p l size h hl hp hph ha hpos hmax
    refine ⟨_, exec_pldmUpdateComponent.trans (onPort_runs h), ?_⟩
    dsimp only
    rw [State.inUpdate_runs hl hp hph, if_neg (by simp [ha]), if_neg (by omega)]
    obtain ⟨hstate, hzero, hout⟩ := s.beginTransfer_fields (n := s.loadSlot)
    generalize s.beginTransfer s.loadSlot = v at hstate hzero hout
    exact ⟨rfl, hstate, hzero, by rw [← hout]; rfl⟩
  case piece =>
    intro s p l off data h hl hp hph ho hsize
    refine ⟨_, exec_pldmFirmwareData.trans (onPort_runs h), ?_⟩
    rw [State.firmwareData_partial hl hp hph ho hsize]
    exact ⟨rfl, rfl, rfl, rfl⟩
  case dropped =>
    intro s p l h hl hp hph
    refine ⟨_, exec_pldmCancelUpdateComponent.trans (onPort_runs h), ?_⟩
    rw [State.inUpdate_runs hl hp hph]
    obtain ⟨hstate, hout⟩ := s.dropTransfer_fields
    generalize s.dropTransfer = v at hstate hout
    exact ⟨rfl, hstate, congrArg _ hout⟩
  case cancelled =>
    intro s p l h hl hp
    refine ⟨_, exec_pldmCancelUpdate.trans (onPort_runs h), ?_⟩
    rw [hl]
    dsimp only
    rw [if_neg (not_not_intro hp)]
    obtain ⟨hstate, hout⟩ := s.dropTransfer_fields
    generalize s.dropTransfer = v at hstate hout
    split
    · exact ⟨rfl, fun _ => hstate, congrArg _ hout⟩
    · next hph => exact ⟨rfl, fun h => absurd h hph, rfl⟩

end Sys2Proof.Machine
end

section
/-! SUPPORT. The boot record, what a boot makes of the slots, and the statement on boot, activation, trial, revert and confirmation. -/
namespace Sys2Proof.Machine

variable {s t u : State} {i j k n v z : Nat}

/-! ### The boot record (R447) -/

theorem State.bootRec_of_copies (ha : t.fw.bootA = s.fw.bootA) (hb : t.fw.bootB = s.fw.bootB) : t.bootRec = s.bootRec := by
  rw [State.bootRec, State.bootRec, ha, hb]

theorem State.bootRec_congr (h : t.fw = s.fw) : t.bootRec = s.bootRec := by rw [State.bootRec, State.bootRec, h]

/-- The copy written is the current one, as its sequence number is the later one. -/
theorem State.bootRec_setBoot (s : State) (f : BootRec → BootRec) :
    (s.setBoot f).bootRec = { f s.bootRec with seq := s.bootRec.seq + 1, good := true } := by
  unfold State.setBoot
  extract_lets c _ m
  have hseq : m.seq = c.seq + 1 := rfl
  have hgood : m.good = true := rfl
  split
  · next hc =>
    have h : ¬ (s.fw.bootA.good = true ∧ (¬ m.good = true ∨ m.seq ≤ s.fw.bootA.seq)) := by
      rw [← hc, hseq, hgood]
      simp
    exact if_neg h
  · next hc =>
    have hb : c = s.fw.bootB := by
      unfold c State.bootRec at hc ⊢
      dsimp only at hc ⊢
      split
      · next h => exact absurd (if_pos h) hc
      · rfl
    have h : m.good = true ∧ (¬ s.fw.bootB.good = true ∨ s.fw.bootB.seq ≤ m.seq) := ⟨hgood, .inr (by rw [hseq, hb]; omega)⟩
    exact if_pos h

theorem State.setBoot_shape (s : State) (f : BootRec → BootRec) : ∃ a b, s.setBoot f = { s with fw := { s.fw with bootA := a, bootB := b } } := by
  unfold State.setBoot
  dsimp only
  split
  · exact ⟨_, _, rfl⟩
  · exact ⟨_, _, rfl⟩

/-! ### Images (R443) -/

/-- The objects that the checks of an image ask. -/
def imageKeys : List Nat := [Obj.keyRevoked, Obj.fwSvn, Obj.hwRevision, Obj.fwVersion, Obj.dictVersion]

/-- `t` holds the images of `s`, and what their checks ask of the module. -/
structure SameImages (s t : State) : Prop where
  slots : t.fw.slots = s.fw.slots
  written : t.fw.written = s.fw.written
  objs : ∀ k ∈ imageKeys, t.rd k = s.rd k

namespace SameImages

theorem refl (s : State) : SameImages s s := ⟨rfl, rfl, fun _ _ => rfl⟩

theorem trans (h : SameImages s t) (h' : SameImages t u) : SameImages s u :=
  ⟨h'.slots.trans h.slots, h'.written.trans h.written, fun k hk => (h'.objs k hk).trans (h.objs k hk)⟩

theorem slotBytes (h : SameImages s t) : t.slotBytes = s.slotBytes := by
  funext n off len
  simp only [State.slotBytes, State.slotByte, h.slots, h.written]

theorem manifestHash (h : SameImages s t) : t.manifestHash n = s.manifestHash n := by
  rw [State.manifestHash, State.manifestHash, h.slotBytes]

theorem imageReject {b : Bool} (h : SameImages s t) : t.imageReject n b = s.imageReject n b := by
  have hm (off len : Nat) : t.mf n off len = s.mf n off len := by rw [State.mf, State.mf, h.slotBytes]
  have hk (scheme pos : Nat) : t.keyLive scheme pos = s.keyLive scheme pos := by
    rw [State.keyLive, State.keyLive, h.objs _ (by decide)]
  have hc : t.imageChecks n b = s.imageChecks n b := by
    simp only [State.imageChecks, State.mfBodyLen, hm, hk, h.slotBytes, h.objs Obj.fwSvn (by decide), h.objs Obj.hwRevision (by decide),
      h.objs Obj.fwVersion (by decide), h.objs Obj.dictVersion (by decide)]
    rfl
  rw [State.imageReject, State.imageReject, hc]

end SameImages

/-! ### Settings that move to another dictionary version (R454) -/

theorem State.putAll_keeps (s : State) {ks : List Nat} (f : Nat → Nat) (hk : Calm k) (hks : k ∉ ks) :
    (s.putAll ks f).rd k = s.rd k ∧ (s.putAll ks f).fw = s.fw := by
  unfold State.putAll
  extract_lets _ w
  have hw : w.rd k = s.rd k ∧ w.fw = s.fw := by
    refine List.foldlRecOn (motive := fun w : State => w.rd k = s.rd k ∧ w.fw = s.fw) _ _ ⟨rfl, rfl⟩ fun v ⟨hrd, hfw⟩ j hj => ?_
    split
    · exact ⟨hrd, hfw⟩
    · exact ⟨(State.rd_wr_ne fun e : k = j => hks (e ▸ hj)).trans hrd, hfw⟩
  clear_value w
  refine List.foldlRecOn (motive := fun w : State => w.rd k = s.rd k ∧ w.fw = s.fw) _ _ hw fun v ⟨hrd, hfw⟩ z hz => ?_
  dsimp only
  split
  · exact ⟨hrd, hfw⟩
  · refine ⟨(State.sizeZone_leaves v z _ (hk.2.2 z (List.mem_range.1 hz)) hk.2.1).trans hrd, ?_⟩
    obtain ⟨_, _, h⟩ := v.sizeZone_shape z (v.rd (Obj.szStripeBlocks z))
    rw [h]
    exact hfw

theorem State.noteReset_keeps (s : State) {ks : List Nat} (hk : Calm k) (hne : k ≠ Obj.settingsResetCount) :
    (s.noteReset ks).rd k = s.rd k ∧ (s.noteReset ks).fw = s.fw := by
  unfold State.noteReset
  split
  · exact ⟨rfl, rfl⟩
  · refine ⟨?_, State.raise_fw ..⟩
    exact (State.rd_raise hk.2.1 (by decide)).trans (State.rd_wr_ne hne)

theorem State.migrate_keeps (s : State) (was : Nat) (hk : Calm k) (hks : k ∉ persistentKeys) (hne : k ≠ Obj.settingsResetCount) :
    (s.migrate was).rd k = s.rd k ∧ (s.migrate was).fw = s.fw := by
  unfold State.migrate
  split
  · exact ⟨rfl, rfl⟩
  · have hsub : k ∉ s.outdated was persistentKeys := fun h => hks (List.mem_filter.1 h).1
    obtain ⟨hrd, hfw⟩ := s.putAll_keeps s.dflt hk hsub
    obtain ⟨hrd', hfw'⟩ := (s.putAll (s.outdated was persistentKeys) s.dflt).noteReset_keeps (ks := s.outdated was persistentKeys) hk hne
    exact ⟨hrd'.trans hrd, hfw'.trans hfw⟩

/-! ### What a boot changes (R447, R448, R452) -/

/-- The objects of the slots and of the boot itself, and those that events change. -/
def bootKey (k : Nat) : Bool := decide (0x800100 ≤ k ∧ k < 0x800300) || k == Obj.activeSlot || k == Obj.bootState || eventKey k

theorem bootKey_false (h : bootKey k = false) :
    (k < 0x800100 ∨ 0x800300 ≤ k) ∧ k ≠ Obj.activeSlot ∧ k ≠ Obj.bootState ∧ eventKey k = false := by
  simp only [bootKey, Bool.or_eq_false_iff, decide_eq_false_iff_not, beq_eq_false_iff_ne] at h
  exact ⟨by omega, h.1.1.2, h.1.2, h.2⟩

theorem slotKey_ne (hk : k < 0x800100 ∨ 0x800300 ≤ k) (hn : n ≤ 1) : k ≠ Obj.slotState n ∧ k ≠ Obj.slotRejectReason n ∧
    (k < Obj.slotFwVersion n ∨ Obj.slotManifestHash n < k) := by
  simp only [Obj.slotState, Obj.slotRejectReason, Obj.slotFwVersion, Obj.slotManifestHash]
  omega

/-- A slot shown as failing its checks. -/
def State.slotFailed (s : State) (n reason : Nat) : State := ((s.wr (Obj.slotState n) 4).wr (Obj.slotRejectReason n) reason).slotInfo n false

theorem State.rd_slotFailed (hk : k < 0x800100 ∨ 0x800300 ≤ k) (hn : n ≤ 1) : (s.slotFailed n v).rd k = s.rd k := by
  obtain ⟨h₁, h₂, h₃⟩ := slotKey_ne hk hn
  rw [State.slotFailed, State.rd_slotInfo h₃, State.rd_wr_ne h₂, State.rd_wr_ne h₁]

/-- A state that differs in its objects alone still does after a write. -/
theorem State.wr_shape (h : ∃ o, t = { s with obj := o }) (k v : Nat) : ∃ o, t.wr k v = { s with obj := o } := by
  obtain ⟨o, rfl⟩ := h
  exact ⟨_, rfl⟩

theorem State.slotInfo_shape {holds : Bool} (h : ∃ o, t = { s with obj := o }) (n : Nat) : ∃ o, t.slotInfo n holds = { s with obj := o } := by
  unfold State.slotInfo
  split
  · exact State.wr_shape (State.wr_shape (State.wr_shape (State.wr_shape h _ _) _ _) _ _) _ _
  · exact State.wr_shape (State.wr_shape (State.wr_shape (State.wr_shape h _ _) _ _) _ _) _ _

theorem State.slotFailed_shape (s : State) (n v : Nat) : ∃ o, s.slotFailed n v = { s with obj := o } :=
  State.slotInfo_shape (State.wr_shape (State.wr_shape ⟨_, rfl⟩ _ _) _ _) n

/-- What the slot that is left shows: staged still, or failed with the reason. -/
def State.slotLeft (s : State) (n reason : Nat) : State := if reason = 0 then s.wr (Obj.slotState n) 2 else s.slotFailed n reason

theorem State.rd_slotLeft (hk : k < 0x800100 ∨ 0x800300 ≤ k) (hn : n ≤ 1) : (s.slotLeft n v).rd k = s.rd k := by
  unfold State.slotLeft
  split
  · exact State.rd_wr_ne (slotKey_ne hk hn).1
  · exact State.rd_slotFailed hk hn

theorem State.slotLeft_shape (s : State) (n v : Nat) : ∃ o, s.slotLeft n v = { s with obj := o } := by
  unfold State.slotLeft
  split
  · exact ⟨_, rfl⟩
  · exact s.slotFailed_shape n v

theorem State.revertBoot_eq (s : State) (cause reason : Nat) : s.revertBoot cause reason =
    (((((s.setBoot fun b => { b with active := 1 - s.bootRec.active, trial := false, count := 0 }).slotLeft s.bootRec.active reason).wr Obj.activeSlot
      (1 - s.bootRec.active)).wr (Obj.slotState (1 - s.bootRec.active)) 3).wr Obj.bootState 2).raise Ev.fwReverted [p8 cause] := rfl

/-- What a revert of the boot record makes of the module, and what it leaves of it. -/
structure Reverts (s t : State) : Prop where
  active : t.bootRec.active = 1 - s.bootRec.active
  trial : t.bootRec.trial = false
  slot : t.rd Obj.activeSlot = 1 - s.bootRec.active
  boot : t.rd Obj.bootState = 2
  rest : ∃ a b, t.fw = { s.fw with bootA := a, bootB := b }
  start : t.start = s.start
  now : t.now = s.now
  stored : t.dict.stored = s.dict.stored
  objs : ∀ k, bootKey k = false → t.rd k = s.rd k

theorem State.revertBoot_reverts (s : State) (cause reason : Nat) (hn : s.bootRec.active ≤ 1) : Reverts s (s.revertBoot cause reason) := by
  have hrec := s.bootRec_setBoot fun b => { b with active := 1 - s.bootRec.active, trial := false, count := 0 }
  obtain ⟨a, b, hset⟩ := s.setBoot_shape fun b => { b with active := 1 - s.bootRec.active, trial := false, count := 0 }
  rw [State.revertBoot_eq]
  generalize (s.setBoot fun b => { b with active := 1 - s.bootRec.active, trial := false, count := 0 }) = w at hrec hset
  obtain ⟨o, hleft⟩ := w.slotLeft_shape s.bootRec.active reason
  have hrd := fun k hk => State.rd_slotLeft (s := w) (v := reason) (k := k) hk hn
  generalize w.slotLeft s.bootRec.active reason = x at hleft hrd
  have hfw : x.fw = w.fw := by rw [hleft]
  have hfw' : ((((x.wr Obj.activeSlot (1 - s.bootRec.active)).wr (Obj.slotState (1 - s.bootRec.active)) 3).wr Obj.bootState 2).raise Ev.fwReverted
      [p8 cause]).fw = w.fw := by rw [State.raise_fw, State.wr_fw, State.wr_fw, State.wr_fw, hfw]
  have hboot := State.bootRec_congr hfw'
  have hslot : ∀ k, k < 0x800100 ∨ 0x800300 ≤ k → k ≠ Obj.slotState (1 - s.bootRec.active) := fun k hk => (slotKey_ne hk (by omega)).1
  refine ⟨by rw [hboot, hrec], by rw [hboot, hrec], ?_, ?_, ⟨a, b, by rw [hfw', hset]⟩, ?_, ?_, ?_, fun k hk => ?_⟩
  · rw [State.rd_raise (by decide) (by decide), State.rd_wr_ne (by decide), State.rd_wr_ne (hslot _ (by decide)), State.rd_wr_self]
  · rw [State.rd_raise (by decide) (by decide), State.rd_wr_self]
  · rw [State.raise_start, State.wr_start, State.wr_start, State.wr_start, hleft, hset]
  · rw [State.raise_now, State.wr_now, State.wr_now, State.wr_now, hleft, hset]
  · rw [State.raise_stored, State.wr_dict, State.wr_dict, State.wr_dict, hleft, hset]
  · obtain ⟨h₁, h₂, h₃, h₄⟩ := bootKey_false hk
    rw [State.rd_raise h₄ (by decide), State.rd_wr_ne h₃, State.rd_wr_ne (hslot k h₁), State.rd_wr_ne h₂, hrd k h₁, hset]
    rfl

theorem Reverts.images (h : Reverts s t) : SameImages s t := by
  obtain ⟨a, b, hfw⟩ := h.rest
  have hkeys : ∀ k ∈ imageKeys, bootKey k = false := by decide
  exact ⟨by rw [hfw], by rw [hfw], fun k hk => h.objs k (hkeys k hk)⟩

theorem Reverts.measured (h : Reverts s t) : t.fw.measured = s.fw.measured := by
  obtain ⟨a, b, hfw⟩ := h.rest
  rw [hfw]

/-- What a boot that finds no image makes of the module (R448). -/
theorem State.bootFault_fields (s : State) (n reason : Nat) : (s.bootFault n reason).rd Obj.bootState = 3 ∧
    (s.bootFault n reason).rd Obj.moduleState = 1 ∧ (s.bootFault n reason).fw = s.fw := by
  unfold State.bootFault
  extract_lets v
  obtain ⟨o, h⟩ := State.slotInfo_shape (holds := false) (State.wr_shape (State.wr_shape (State.wr_shape (s := s) ⟨_, rfl⟩ Obj.activeSlot n) (Obj.slotState n) 4)
    (Obj.slotRejectReason n) reason) n
  have hfw : v.fw = s.fw := by
    unfold v
    rw [h]
    rfl
  have hboot : v.rd Obj.bootState = 3 := State.rd_wr_self ..
  clear_value v
  refine ⟨?_, ?_, by rw [State.raiseKept_fw, State.wr_fw, hfw]⟩
  · rw [State.rd_raiseKept (by decide), State.rd_wr_ne (by decide), hboot]
  · rw [State.rd_raiseKept (by decide), State.rd_wr_self]

/-- The objects that a boot of slot `n` sets, before the settings follow. -/
def State.bootShown (s : State) (n : Nat) : State :=
  let s := ((s.readVersions n).wr (Obj.slotState n) 3).slotInfo n true
  let s := if s.rd (Obj.slotState (1 - n)) = 3 then s.wr (Obj.slotState (1 - n)) 2 else s
  if s.bootRec.trial then s.wr Obj.bootState 1 else if s.rd Obj.bootState = 2 then s else s.wr Obj.bootState 0

/-- The measurements of slot `n` and of the settings (R448). -/
def State.measures (s : State) (n : Nat) : List Nat :=
  [Config.romHash, s.manifestHash n, Config.sha384 ((s.dict.stored.map SettingsRec.bytes).getD [])]

/-- The module with measurements taken. -/
def State.measured (s : State) (m : List Nat) : State := { s with fw := { s.fw with measured := m } }

theorem State.bootLoad_eq (s : State) (n : Nat) : s.bootLoad n =
    if (s.bootShown n).start.domain then ((s.bootShown n).measured ((s.bootShown n).measures n)).migrate (s.rd Obj.dictVersion)
    else (s.bootShown n).measured ((s.bootShown n).measures n) := rfl

theorem State.bootShown_fields (s : State) (hn : n ≤ 1) : (s.bootShown n).fw = s.fw ∧ (s.bootShown n).dict = s.dict ∧
    (s.bootShown n).rd Obj.activeSlot = n ∧
    (s.bootShown n).rd Obj.bootState = if s.bootRec.trial = true then 1 else if s.rd Obj.bootState = 2 then 2 else 0 := by
  have hslot : ∀ k, k < 0x800100 ∨ 0x800300 ≤ k → ∀ n ≤ 1, k ≠ Obj.slotState n := fun k hk n hn => (slotKey_ne hk hn).1
  unfold State.bootShown
  extract_lets v w
  obtain ⟨o, h⟩ : ∃ o, v = { s with obj := o } := State.slotInfo_shape (holds := true) (State.wr_shape (State.wr_shape (State.wr_shape (State.wr_shape (s := s) ⟨_, rfl⟩
    Obj.activeSlot n) Obj.fwVersion _) Obj.dictVersion _) (Obj.slotState n) 3) n
  have hactive : v.rd Obj.activeSlot = n := by
    rw [State.rd_slotInfo (slotKey_ne (by decide) hn).2.2, State.rd_wr_ne (hslot _ (by decide) n hn), State.readVersions, State.rd_wr_ne (by decide),
      State.rd_wr_ne (by decide), State.rd_wr_self]
  have hboot : v.rd Obj.bootState = s.rd Obj.bootState := by
    rw [State.rd_slotInfo (slotKey_ne (by decide) hn).2.2, State.rd_wr_ne (hslot _ (by decide) n hn), State.readVersions, State.rd_wr_ne (by decide),
      State.rd_wr_ne (by decide), State.rd_wr_ne (by decide)]
  clear_value v
  have hw : w.fw = s.fw ∧ w.dict = s.dict ∧ w.rd Obj.activeSlot = n ∧ w.rd Obj.bootState = s.rd Obj.bootState := by
    unfold w
    split
    · refine ⟨by rw [State.wr_fw, h], by rw [State.wr_dict, h], ?_, ?_⟩
      · rw [State.rd_wr_ne (hslot _ (by decide) _ (by omega)), hactive]
      · rw [State.rd_wr_ne (hslot _ (by decide) _ (by omega)), hboot]
    · exact ⟨by rw [h], by rw [h], hactive, hboot⟩
  clear_value w
  obtain ⟨hfw, hdict, hactive, hboot⟩ := hw
  rw [State.bootRec_congr hfw, hboot]
  split
  · exact ⟨hfw, hdict, (State.rd_wr_ne (by decide)).trans hactive, State.rd_wr_self ..⟩
  · split
    · next h => exact ⟨hfw, hdict, hactive, hboot.trans h⟩
    · exact ⟨hfw, hdict, (State.rd_wr_ne (by decide)).trans hactive, State.rd_wr_self ..⟩

theorem boot_not_persistent : Obj.activeSlot ∉ persistentKeys ∧ Obj.bootState ∉ persistentKeys := by decide +kernel

theorem calm_boot : Calm Obj.activeSlot ∧ Calm Obj.bootState := by
  refine ⟨⟨by decide, by decide, fun z hz => ?_⟩, ⟨by decide, by decide, fun z hz => ?_⟩⟩ <;>
  · simp only [Obj.activeSlot, Obj.bootState, Obj.szState]
    omega

/-- A boot of a slot whose image passes its checks. -/
theorem State.bootLoad_fields (s : State) (hn : n ≤ 1) : (s.bootLoad n).fw.measured = s.measures n ∧ (s.bootLoad n).bootRec = s.bootRec ∧
    (s.bootLoad n).rd Obj.activeSlot = n ∧
    (s.bootLoad n).rd Obj.bootState = if s.bootRec.trial = true then 1 else if s.rd Obj.bootState = 2 then 2 else 0 := by
  obtain ⟨hfw, hdict, hactive, hboot⟩ := s.bootShown_fields hn
  have hm : (s.bootShown n).measures n = s.measures n := by
    simp only [State.measures, State.manifestHash, State.slotBytes, State.slotByte, hfw, hdict]
  have hrec : ((s.bootShown n).measured (s.measures n)).bootRec = s.bootRec := (State.bootRec_congr hfw :)
  rw [State.bootLoad_eq, hm]
  generalize hv : (s.bootShown n).measured (s.measures n) = v at hrec
  have hva : v.rd Obj.activeSlot = n := by rw [← hv]; exact hactive
  have hvb : v.rd Obj.bootState = (s.bootShown n).rd Obj.bootState := by rw [← hv]; rfl
  have hvm : v.fw.measured = s.measures n := by rw [← hv]; rfl
  rw [← hboot, ← hvb]
  split
  · obtain ⟨ha, hf⟩ := v.migrate_keeps (s.rd Obj.dictVersion) calm_boot.1 boot_not_persistent.1 (by decide)
    obtain ⟨hb, -⟩ := v.migrate_keeps (s.rd Obj.dictVersion) calm_boot.2 boot_not_persistent.2 (by decide)
    exact ⟨by rw [hf, hvm], (State.bootRec_congr hf).trans hrec, ha.trans hva, hb⟩
  · exact ⟨hvm, hrec, hva, rfl⟩

end Sys2Proof.Machine
end

section
/-! SUPPORT. The statement on boot, activation, trial, revert and confirmation of firmware. -/
namespace Sys2Proof.Machine

variable {s t u : State} {i j k n v z : Nat}

/-! ### Boot (R447, R448) -/

theorem State.bootSlot_loads (h : s.imageReject s.bootRec.active false = 0) : s.bootSlot (k + 1) = s.bootLoad s.bootRec.active := if_pos h

theorem State.bootSlot_faults (h : s.imageReject s.bootRec.active false ≠ 0) (ht : s.bootRec.trial = false) :
    s.bootSlot (k + 1) = s.bootFault s.bootRec.active (s.imageReject s.bootRec.active false) :=
  (if_neg h).trans (if_neg (by simp [ht]))

theorem State.bootSlot_reverts (h : s.imageReject s.bootRec.active false ≠ 0) (ht : s.bootRec.trial = true) :
    s.bootSlot (k + 1) = (s.revertBoot 1 (s.imageReject s.bootRec.active false)).bootSlot k :=
  (if_neg h).trans (if_pos ht)

theorem SameImages.measures (h : SameImages s t) (hd : t.dict.stored = s.dict.stored) : t.measures n = s.measures n := by
  rw [State.measures, State.measures, h.manifestHash, hd]

/-- A start goes to slot `n`: with an image that passes, it is measured and runs; with none, the module is in recovery. -/
structure BootsOther (s t : State) : Prop where
  runs : s.imageReject (1 - s.bootRec.active) false = 0 → t.fw.measured = s.measures (1 - s.bootRec.active) ∧
    t.rd Obj.activeSlot = 1 - s.bootRec.active ∧ t.rd Obj.bootState = 2 ∧ t.bootRec.active = 1 - s.bootRec.active ∧ t.bootRec.trial = false
  recovers : s.imageReject (1 - s.bootRec.active) false ≠ 0 → t.rd Obj.bootState = 3 ∧ t.rd Obj.moduleState = 1 ∧ t.fw.measured = []

/-- After a revert the other slot boots, as its image allows. -/
theorem Reverts.boots (h : Reverts s t) (hm : s.fw.measured = []) : BootsOther s (t.bootSlot (k + 1)) := by
  have hn : 1 - s.bootRec.active ≤ 1 := by omega
  have hreject : t.imageReject t.bootRec.active false = s.imageReject (1 - s.bootRec.active) false := by rw [h.images.imageReject, h.active]
  refine ⟨fun hr => ?_, fun hr => ?_⟩
  · obtain ⟨hmeas, hrec, hactive, hboot⟩ := t.bootLoad_fields (n := 1 - s.bootRec.active) hn
    rw [State.bootSlot_loads (hreject.trans hr), h.active]
    rw [h.trial, h.boot] at hboot
    exact ⟨hmeas.trans (h.images.measures h.stored), hactive, hboot, by rw [hrec, h.active], by rw [hrec, h.trial]⟩
  · rw [State.bootSlot_faults (by rwa [hreject]) h.trial]
    obtain ⟨hboot, hstate, hfw⟩ := t.bootFault_fields t.bootRec.active (t.imageReject t.bootRec.active false)
    exact ⟨hboot, hstate, by rw [hfw, h.measured, hm]⟩

/-- The copy of the boot record changes, and nothing else that a boot asks. -/
theorem State.setBoot_images (s : State) (f : BootRec → BootRec) : SameImages s (s.setBoot f) ∧ (s.setBoot f).fw.measured = s.fw.measured ∧
    (s.setBoot f).dict = s.dict ∧ ∀ k, (s.setBoot f).rd k = s.rd k := by
  obtain ⟨a, b, h⟩ := s.setBoot_shape f
  rw [h]
  exact ⟨⟨rfl, rfl, fun _ _ => rfl⟩, rfl, rfl, fun _ => rfl⟩

/-- The state in which a start meets the slots: under a trial its starts are counted. -/
def State.bootCounted (s : State) : State := if s.bootRec.trial then s.setBoot fun b => { b with count := b.count + 1 } else s

theorem State.boot_eq (s : State) : s.boot =
    if s.start.stage ≠ 4 ∨ s.rd Obj.moduleState ≠ 0 ∨ s.fw.measured ≠ [] then s
    else (if s.bootCounted.bootRec.trial ∧ 3 < s.bootCounted.bootRec.count then s.bootCounted.revertBoot 3 0 else s.bootCounted).bootSlot 2 := rfl

section
variable (hstage : s.start.stage = 4) (hstate : s.rd Obj.moduleState = 0) (hm : s.fw.measured = []) (hn : s.bootRec.active ≤ 1)
include hstage hstate hm

theorem State.boot_runs : s.boot =
    (if s.bootCounted.bootRec.trial ∧ 3 < s.bootCounted.bootRec.count then s.bootCounted.revertBoot 3 0 else s.bootCounted).bootSlot 2 := by
  rw [State.boot_eq, if_neg (by simp [hstage, hstate, hm])]

/-- Outside a trial the active slot boots, or the module is in recovery. -/
theorem State.boot_plain (ht : s.bootRec.trial = false) : s.boot = s.bootSlot 2 := by
  have hc : s.bootCounted = s := if_neg (by simp [ht])
  rw [State.boot_runs hstage hstate hm, hc, if_neg (by simp [ht])]

theorem State.boot_trial (ht : s.bootRec.trial = true) : s.boot =
    (if 3 < s.bootRec.count + 1 then s.bootCounted.revertBoot 3 0 else s.bootCounted).bootSlot 2 := by
  have hc : s.bootCounted = s.setBoot fun b => { b with count := b.count + 1 } := if_pos ht
  have hrec := s.bootRec_setBoot fun b => { b with count := b.count + 1 }
  rw [← hc] at hrec
  rw [State.boot_runs hstage hstate hm, hrec]
  simp only [ht, true_and]

end

theorem State.bootCounted_fields (s : State) (ht : s.bootRec.trial = true) : s.bootCounted.bootRec.active = s.bootRec.active ∧
    s.bootCounted.bootRec.trial = true ∧ s.bootCounted.bootRec.count = s.bootRec.count + 1 ∧ SameImages s s.bootCounted ∧
    s.bootCounted.fw.measured = s.fw.measured ∧ s.bootCounted.dict = s.dict := by
  have hc : s.bootCounted = s.setBoot fun b => { b with count := b.count + 1 } := if_pos ht
  obtain ⟨himages, hmeasured, hdict, -⟩ := s.setBoot_images fun b => { b with count := b.count + 1 }
  rw [hc, s.bootRec_setBoot]
  exact ⟨rfl, ht, rfl, himages, hmeasured, hdict⟩

theorem BootsOther.of_same (h : BootsOther s u) (hi : SameImages t s) (hd : s.dict.stored = t.dict.stored)
    (ha : s.bootRec.active = t.bootRec.active) : BootsOther t u := by
  refine ⟨fun hr => ?_, fun hr => h.recovers (by rwa [ha, hi.imageReject])⟩
  obtain ⟨hm, h'⟩ := h.runs (by rwa [ha, hi.imageReject])
  rw [ha, hi.measures hd] at hm
  rw [ha] at h'
  exact ⟨hm, h'⟩

/-- A slot in trial that fails its checks has the other slot boot in its place. -/
theorem State.boot_trialFails (hstage : s.start.stage = 4) (hstate : s.rd Obj.moduleState = 0) (hm : s.fw.measured = [])
    (hn : s.bootRec.active ≤ 1) (ht : s.bootRec.trial = true) (h : 3 ≤ s.bootRec.count ∨ s.imageReject s.bootRec.active false ≠ 0) :
    BootsOther s s.boot := by
  obtain ⟨hactive, htrial, -, himages, hmeasured, hdict⟩ := s.bootCounted_fields ht
  rw [State.boot_trial hstage hstate hm ht]
  generalize s.bootCounted = v at hactive htrial himages hmeasured hdict
  have hrev (cause reason : Nat) := v.revertBoot_reverts cause reason (by rwa [hactive])
  refine BootsOther.of_same ?_ himages (by rw [hdict]) hactive
  split
  · exact (hrev _ _).boots (hmeasured.trans hm)
  · next hc =>
    have hr : v.imageReject v.bootRec.active false ≠ 0 := by
      rw [hactive, himages.imageReject]
      exact h.resolve_left (by omega)
    rw [State.bootSlot_reverts hr htrial]
    exact (hrev _ _).boots (hmeasured.trans hm)

/-! ### Activation (R449, R450) -/

theorem State.restartDomains_rd (s : State) (k : Nat) : s.restartDomains.rd k = (s.wr Obj.moduleState 0).rd k := State.rd_congr rfl k

theorem State.rd_restartDomains (h : k ≠ Obj.moduleState) : s.restartDomains.rd k = s.rd k :=
  (s.restartDomains_rd k).trans (State.rd_wr_ne h)

theorem State.restartDomains_moduleState (s : State) : s.restartDomains.rd Obj.moduleState = 0 :=
  (s.restartDomains_rd _).trans (State.rd_wr_self ..)

theorem State.restartDomains_fw (s : State) : s.restartDomains.fw = { s.fw with phase := 2, restartAt := s.now, measured := [] } := rfl

theorem State.restartDomains_bootRec (s : State) : s.restartDomains.bootRec = s.bootRec := rfl

/-- The state whose domains an activation restarts: the boot record names the other slot in trial, and nothing is scheduled. -/
def State.activated (s : State) : State :=
  let n := s.bootRec.active
  let s := s.setBoot fun b => { b with active := 1 - n, trial := true, count := 0 }
  let s := { s with fw := { s.fw with oldVersion := s.rd Obj.fwVersion, revert := none } }
  let s := ((s.wr (Obj.slotState n) 2).wr (Obj.slotState (1 - n)) 3).wr Obj.activeSlot (1 - n)
  ((s.wr Obj.actMode 0).wr Obj.actTick 0).wr Obj.actStep 0

theorem State.activate_eq (s : State) : s.activate = if s.fw.phase ≠ 1 ∨ ¬ s.quiet then s else s.activated.restartDomains := rfl

theorem State.activated_fields (s : State) (hn : s.bootRec.active ≤ 1) : s.activated.bootRec.active = 1 - s.bootRec.active ∧
    s.activated.bootRec.trial = true ∧ s.activated.bootRec.count = 0 ∧ s.activated.rd Obj.activeSlot = 1 - s.bootRec.active ∧
    s.activated.rd (Obj.slotState s.bootRec.active) = 2 ∧ s.activated.rd (Obj.slotState (1 - s.bootRec.active)) = 3 ∧
    s.activated.rd Obj.actMode = 0 := by
  have hrec := s.bootRec_setBoot fun b => { b with active := 1 - s.bootRec.active, trial := true, count := 0 }
  have hslots : Obj.slotState s.bootRec.active ≠ Obj.slotState (1 - s.bootRec.active) := by
    simp only [Obj.slotState]
    omega
  have hkeys : ∀ n ≤ 1, ∀ k ∈ [Obj.activeSlot, Obj.actMode, Obj.actTick, Obj.actStep], Obj.slotState n ≠ k := by decide
  unfold State.activated
  extract_lets n v w x y
  have hy : (((y.wr Obj.actMode 0).wr Obj.actTick 0).wr Obj.actStep 0).bootRec = v.bootRec := State.bootRec_of_copies rfl rfl
  have hactive : y.rd Obj.activeSlot = 1 - n := State.rd_wr_self ..
  have hleft : y.rd (Obj.slotState n) = 2 := by
    rw [State.rd_wr_ne (hkeys n hn Obj.activeSlot (by decide)), State.rd_wr_ne hslots, State.rd_wr_self]
  have hnext : y.rd (Obj.slotState (1 - n)) = 3 := by
    rw [State.rd_wr_ne (hkeys (1 - n) (by omega) Obj.activeSlot (by decide)), State.rd_wr_self]
  have hrd (m : Nat) (hm : m ≤ 1) : (((y.wr Obj.actMode 0).wr Obj.actTick 0).wr Obj.actStep 0).rd (Obj.slotState m) = y.rd (Obj.slotState m) := by
    rw [State.rd_wr_ne (hkeys m hm Obj.actStep (by decide)), State.rd_wr_ne (hkeys m hm Obj.actTick (by decide)),
      State.rd_wr_ne (hkeys m hm Obj.actMode (by decide))]
  rw [hrd n hn, hrd (1 - n) (by omega), hleft, hnext, hy, hrec]
  refine ⟨rfl, rfl, rfl, ?_, rfl, rfl, ?_⟩
  · rw [State.rd_wr_ne (by decide), State.rd_wr_ne (by decide), State.rd_wr_ne (by decide), hactive]
  · rw [State.rd_wr_ne (by decide), State.rd_wr_ne (by decide), State.rd_wr_self]

/-! ### Revert (R452) -/

/-- What a revert outside recovery makes of the module, whether the rails are on or off. -/
structure RevertsTo (s t : State) (cause : Nat) : Prop where
  active : t.bootRec.active = 1 - s.bootRec.active
  trial : t.bootRec.trial = false
  boot : t.rd Obj.bootState = 2
  slot : t.rd Obj.activeSlot = 1 - s.bootRec.active
  state : t.rd Obj.moduleState = 0
  cause : t.fw.revert = some cause
  restarts : s.start.rails = true → t.fw.phase = 2 ∧ t.start.stage = 4 ∧ t.start.domain = true
  starts : s.start.rails = false → t.fw.phase = s.fw.phase ∧ t.start.stage = (if s.start.trayReady = true then 2 else 1) ∧ t.start.domain = false

theorem State.revertTo_revertsTo {cause : Nat} (hb : s.rd Obj.bootState ≠ 3) (hn : s.bootRec.active ≤ 1) : RevertsTo s (s.revertTo cause) cause := by
  have h := s.revertBoot_reverts cause 0 hn
  have hr : ¬ s.inRecovery = true := by simpa [State.inRecovery] using hb
  unfold State.revertTo
  rw [if_neg hr]
  generalize s.revertBoot cause 0 = v at h
  extract_lets _ _ w
  have hactive : w.bootRec.active = 1 - s.bootRec.active := h.active
  have htrial : w.bootRec.trial = false := h.trial
  have hslot : w.rd Obj.activeSlot = 1 - s.bootRec.active := h.slot
  have hboot : w.rd Obj.bootState = 2 := h.boot
  have hstart : w.start = s.start := h.start
  have hphase : w.fw.phase = s.fw.phase := by
    obtain ⟨a, b, hfw⟩ := h.rest
    exact (congrArg FwState.phase hfw :)
  have hcause : w.fw.revert = some cause := rfl
  clear_value w
  split
  · next hr =>
    refine ⟨hactive, htrial, ?_, ?_, w.restartDomains_moduleState, hcause, fun _ => ⟨rfl, rfl, rfl⟩, fun h => absurd hr (by simp [hstart, h])⟩
    · rw [State.rd_restartDomains (by decide), hboot]
    · rw [State.rd_restartDomains (by decide), hslot]
  · next hr =>
    have hrd (k : Nat) (hk : k ≠ Obj.moduleState) : (w.wr Obj.moduleState 0).rd k = w.rd k := State.rd_wr_ne hk
    refine ⟨hactive, htrial, (hrd _ (by decide)).trans hboot, (hrd _ (by decide)).trans hslot, State.rd_wr_self w Obj.moduleState 0, hcause,
      fun h => absurd (by rw [hstart, h]) hr, fun _ => ⟨hphase, by rw [← hstart], rfl⟩⟩

/-- In recovery a revert boots the image loaded into the slot that failed. -/
theorem State.revertTo_recovers {cause : Nat} (hb : s.rd Obj.bootState = 3) (hn : s.rd Obj.activeSlot ≤ 1) :
    (s.revertTo cause).rd (Obj.slotState (s.rd Obj.activeSlot)) = 3 ∧ (s.revertTo cause).rd Obj.bootState = 2 ∧
    (s.revertTo cause).rd Obj.moduleState = 0 ∧ (s.revertTo cause).fw.measured = [] ∧ (s.revertTo cause).start.stage = 4 ∧
    (s.revertTo cause).rd (Obj.occurrences (Ev.fwReverted / 256 - 1) (Ev.fwReverted % 256)) =
      (s.rd (Obj.occurrences (Ev.fwReverted / 256 - 1) (Ev.fwReverted % 256)) + 1) % 2 ^ 32 := by
  have hkeys : ∀ n ≤ 1, ∀ k ∈ [Obj.bootState, Obj.moduleState, Obj.occurrences (Ev.fwReverted / 256 - 1) (Ev.fwReverted % 256)], Obj.slotState n ≠ k := by
    decide
  have hr : s.inRecovery = true := by simp [State.inRecovery, hb]
  unfold State.revertTo
  rw [if_pos hr]
  extract_lets n v
  have hboot : v.rd Obj.bootState = 2 := by
    rw [State.rd_wr_ne (by decide), State.rd_raise (by decide) (by decide), State.rd_wr_self]
  have hstate : v.rd Obj.moduleState = 0 := State.rd_wr_self ..
  have hslot : v.rd (Obj.slotState n) = 3 := by
    rw [State.rd_wr_ne (hkeys n hn Obj.moduleState (by decide)), State.rd_raise (eventKey_slotState hn).1 (by decide),
      State.rd_wr_ne (hkeys n hn Obj.bootState (by decide)), State.rd_wr_self]
  have hocc : v.rd (Obj.occurrences (Ev.fwReverted / 256 - 1) (Ev.fwReverted % 256)) =
      (s.rd (Obj.occurrences (Ev.fwReverted / 256 - 1) (Ev.fwReverted % 256)) + 1) % 2 ^ 32 := by
    rw [State.rd_wr_ne (by decide), State.rd_raise_occurrences (by decide) (by decide), State.rd_wr_ne (by decide),
      State.rd_wr_ne (Ne.symm (hkeys n hn _ (by decide)))]
  clear_value v
  exact ⟨hslot, hboot, hstate, rfl, rfl, hocc⟩

end Sys2Proof.Machine
end

section
/-! SUPPORT. Confirmation of firmware, and the statement on boot, activation, trial, revert and confirmation. -/
namespace Sys2Proof.Machine

variable {s t u v w : State} {i j k n : Nat}

/-! ### Confirmation (R453) -/

/-- What the events of a confirmation and the burning of fuses leave: the firmware's own state, the boot state and the count of confirmations. -/
structure Burns (s t : State) : Prop where
  fw : t.fw = s.fw
  boot : t.rd Obj.bootState = s.rd Obj.bootState
  count : t.rd (Obj.occurrences (Ev.fwConfirmed / 256 - 1) (Ev.fwConfirmed % 256)) =
    s.rd (Obj.occurrences (Ev.fwConfirmed / 256 - 1) (Ev.fwConfirmed % 256))

namespace Burns

theorem refl (s : State) : Burns s s := ⟨rfl, rfl, rfl⟩

theorem trans (h : Burns s t) (h' : Burns t u) : Burns s u := ⟨h'.fw.trans h.fw, h'.boot.trans h.boot, h'.count.trans h.count⟩

theorem ite {c : Prop} [Decidable c] (ht : Burns s t) (hu : Burns s u) : Burns s (if c then t else u) := by split <;> assumption

theorem burn (s : State) (fuse : Nat) : Burns s (s.burn fuse).1 := ⟨rfl, rfl, rfl⟩

theorem burnAll {fs b : List Nat} {bad : Bool} (h : s.burnAll fs = (t, b, bad)) : Burns s t := by
  have hall : Burns s (s.burnAll fs).1 :=
    List.foldlRecOn (motive := fun a : State × List Nat × Bool => Burns s a.1) _ _ (refl s) fun a ha x _ => ha.trans (burn a.1 x)
  rwa [h] at hall

theorem wr {x : Nat} (hk : k = Obj.fwSvn ∨ k = Obj.keyRevoked) : Burns s (s.wr k x) := by
  refine ⟨rfl, State.rd_wr_ne ?_, State.rd_wr_ne ?_⟩ <;> rcases hk with rfl | rfl <;> decide

theorem raise {code : Nat} {ps : List Bytes} (hc : code ∈ [Ev.svnFuseFault, Ev.keyRevoked, Ev.lifeExceeded, Ev.lifeWarn]) : Burns s (s.raise code ps) := by
  have hcode : ∀ c ∈ [Ev.svnFuseFault, Ev.keyRevoked, Ev.lifeExceeded, Ev.lifeWarn], (256 ≤ c ∧ c < 4096) ∧
      Obj.occurrences (Ev.fwConfirmed / 256 - 1) (Ev.fwConfirmed % 256) ≠ Obj.flags (c / 256) ∧
      Obj.occurrences (Ev.fwConfirmed / 256 - 1) (Ev.fwConfirmed % 256) ≠ Obj.occurrences (c / 256 - 1) (c % 256) := by decide
  obtain ⟨hrange, hflags, hocc⟩ := hcode code hc
  exact ⟨State.raise_fw .., State.rd_raise (by decide) hrange, State.rd_raise_ne (by decide) hflags hocc (by decide) (by decide)⟩

theorem raiseKept {code : Nat} {ps : List Bytes} (hc : code ∈ [Ev.svnFuseFault, Ev.keyRevoked, Ev.lifeExceeded, Ev.lifeWarn]) :
    Burns s (s.raiseKept code ps) := by
  have h := raise (s := s) (ps := ps) hc
  exact ⟨h.fw, h.boot, h.count⟩

theorem lifeExceed : Burns s (s.lifeExceed n) := by
  unfold State.lifeExceed
  split
  · exact .refl s
  · have h := raise (s := s) (code := Ev.lifeExceeded) (ps := [p8 n]) (by decide)
    exact ⟨h.fw, h.boot, h.count⟩

theorem lifeWarn : Burns s (s.lifeWarn n) := by
  unfold State.lifeWarn
  split
  · exact .refl s
  · have h := raise (s := s) (code := Ev.lifeWarn) (ps := [p8 n]) (by decide)
    exact ⟨h.fw, h.boot, h.count⟩

end Burns

theorem State.confirm_fields (s : State) : s.confirm.rd Obj.bootState = 0 ∧ s.confirm.bootRec.trial = false ∧
    s.confirm.bootRec.active = s.bootRec.active ∧
    s.confirm.rd (Obj.occurrences (Ev.fwConfirmed / 256 - 1) (Ev.fwConfirmed % 256)) =
      (s.rd (Obj.occurrences (Ev.fwConfirmed / 256 - 1) (Ev.fwConfirmed % 256)) + 1) % 2 ^ 32 := by
  have hrec := s.bootRec_setBoot fun b => { b with trial := false, count := 0 }
  obtain ⟨-, -, -, hobj⟩ := s.setBoot_images fun b => { b with trial := false, count := 0 }
  unfold State.confirm
  extract_lets n v svn
  have hboot : v.rd Obj.bootState = 0 := State.rd_wr_self ..
  have hcount : v.rd (Obj.occurrences (Ev.fwConfirmed / 256 - 1) (Ev.fwConfirmed % 256)) =
      s.rd (Obj.occurrences (Ev.fwConfirmed / 256 - 1) (Ev.fwConfirmed % 256)) := (State.rd_wr_ne (by decide)).trans (hobj _)
  have htrial : v.bootRec.trial = false := by rw [State.bootRec_congr (State.wr_fw ..), hrec]
  have hactive : v.bootRec.active = s.bootRec.active := by rw [State.bootRec_congr (State.wr_fw ..), hrec]
  clear_value v svn
  split
  next w₁ burnt bad₁ h₁ =>
  extract_lets v₁ new
  have hv₁ : Burns v v₁ := (Burns.burnAll h₁).trans (.wr (.inl rfl))
  clear_value v₁ new
  split
  next w₂ gone bad₂ h₂ =>
  extract_lets v₂ v₃ v₄
  have hv₂ : Burns v v₂ := (hv₁.trans (.burnAll h₂)).trans (.wr (.inr rfl))
  have hv₃ : Burns v v₃ := .ite (hv₂.trans (.raiseKept (by decide))) hv₂
  clear_value v₂ v₃
  have hv₄ : Burns (v₃.raise Ev.fwConfirmed []) v₄ :=
    List.foldlRecOn (motive := fun w => Burns (v₃.raise Ev.fwConfirmed []) w) _ _ (.refl _) fun w hw f _ => hw.trans (.raise (by decide))
  clear_value v₄
  have hend := hv₄.trans (.ite (.lifeExceed (n := 8)) (.ite (.lifeWarn (n := 8)) (.refl v₄)) : Burns v₄
    (if 64 ≤ v₄.rd Obj.fwSvn then v₄.lifeExceed 8 else if 56 ≤ v₄.rd Obj.fwSvn then v₄.lifeWarn 8 else v₄))
  generalize (if 64 ≤ v₄.rd Obj.fwSvn then v₄.lifeExceed 8 else if 56 ≤ v₄.rd Obj.fwSvn then v₄.lifeWarn 8 else v₄) = x at hend
  have hfw : x.fw = v.fw := by rw [hend.fw, State.raise_fw, hv₃.fw]
  refine ⟨?_, by rw [State.bootRec_congr hfw, htrial], by rw [State.bootRec_congr hfw, hactive], ?_⟩
  · rw [hend.boot, State.rd_raise (by decide) (by decide), hv₃.boot, hboot]
  · rw [hend.count, State.rd_raise_occurrences (by decide) (by decide), hv₃.count, hcount]

/-! ### The writes that ask for them (R411) -/

theorem objRow_actTick : objRow (Obj.actTick / 256) (Obj.actTick % 256) =
    some ⟨0x8010, 0x8010, 2, 2, .u64, .rw, .const 0, .span 0 18446744073709551615⟩ := by decide

theorem objRow_fwRevert : objRow (Obj.fwRevert / 256) (Obj.fwRevert % 256) =
    some ⟨0x8000, 0x8000, 5, 5, .action, .wa, .const 0, .span 1 1⟩ := by decide

theorem objRow_fwConfirm : objRow (Obj.fwConfirm / 256) (Obj.fwConfirm % 256) =
    some ⟨0x8000, 0x8000, 4, 4, .action, .wa, .const 0, .span 1 1⟩ := by decide

/-- The checks of a tick, in their order. -/
theorem State.writeStatus_actTick {src : Src} {x cond : Nat} : s.writeStatus src Obj.actTick x false cond =
    if s.fldDenied src Obj.actTick = true then 0x0B else if 2 ^ 64 ≤ x then 0x05 else cond := by
  have hok : ObjRng.ok (.span 0 18446744073709551615) x = true ↔ ¬ 2 ^ 64 ≤ x := by
    simp only [ObjRng.ok, decide_eq_true_eq]
    omega
  rw [State.writeStatus, objRow_actTick]
  dsimp only
  simp [hok]

/-- A write that is refused is answered with its status and counted, and firmware, start-up and the records stand. -/
theorem State.act_refused {src : Src} {key x cond st : Nat} {f : State → State} (h : s.writeStatus src key x false cond = st) (hst : st ≠ 0) :
    ∃ t, s.act src key x false cond f = t ∧ t.out = .status src key st :: s.out ∧ t.rd Obj.dictRejected = (s.rd Obj.dictRejected + 1) % 2 ^ 64 ∧
      t.fw = s.fw ∧ t.start = s.start ∧ t.cmd = s.cmd ∧ t.rd Obj.actMode = s.rd Obj.actMode := by
  refine ⟨_, State.act_rejected (by rwa [h]), by rw [h]; rfl, State.rd_count_self s Obj.dictRejected 1, rfl, rfl, rfl, ?_⟩
  exact (State.rd_count_ne (by decide) : (s.count Obj.dictRejected 1).rd Obj.actMode = _)

theorem State.revertCond_cases (s : State) : s.revertCond = 0 ∨ s.revertCond = 9 := by
  unfold State.revertCond
  extract_lets
  split
  · exact .inl rfl
  · exact .inr rfl

theorem State.actTickCond_zero : s.actTickCond 0 = 0 := by simp [State.actTickCond]

/-- What cancelling a tick changes: the mode, and dispatch that it had held. -/
theorem State.actTickApply_zero (s : State) : (s.actTickApply 0).rd Obj.actTick = 0 ∧
    (s.actTickApply 0).rd Obj.actMode = (if s.rd Obj.actMode = 2 then 0 else s.rd Obj.actMode) ∧
    (s.actTickApply 0).fw.phase = (if s.rd Obj.actMode = 2 ∧ s.fw.phase = 1 then 0 else s.fw.phase) ∧
    (s.actTickApply 0).cmd.hold = (if s.rd Obj.actMode = 2 ∧ s.fw.phase = 1 then false else s.cmd.hold) ∧ (s.actTickApply 0).out = s.out := by
  have htick : (s.wr Obj.actTick 0).rd Obj.actTick = 0 := State.rd_wr_self ..
  have hmode : (s.wr Obj.actTick 0).rd Obj.actMode = s.rd Obj.actMode := State.rd_wr_ne (by decide)
  have htick' : ((s.wr Obj.actTick 0).wr Obj.actMode 0).rd Obj.actTick = 0 := (State.rd_wr_ne (by decide)).trans htick
  have hmode' : ((s.wr Obj.actTick 0).wr Obj.actMode 0).rd Obj.actMode = 0 := State.rd_wr_self ..
  unfold State.actTickApply
  rw [if_neg (by simp)]
  dsimp only
  rw [hmode]
  by_cases h : s.rd Obj.actMode = 2
  · rw [if_neg (not_not_intro h), if_pos h]
    by_cases hp : s.fw.phase = 1
    · have hp' : ((s.wr Obj.actTick 0).wr Obj.actMode 0).fw.phase = 1 := hp
      have hc : s.rd Obj.actMode = 2 ∧ s.fw.phase = 1 := ⟨h, hp⟩
      rw [if_pos hp', if_pos hc, if_pos hc]
      exact ⟨htick', hmode', rfl, rfl, rfl⟩
    · have hp' : ¬ ((s.wr Obj.actTick 0).wr Obj.actMode 0).fw.phase = 1 := hp
      have hc : ¬ (s.rd Obj.actMode = 2 ∧ s.fw.phase = 1) := fun h => hp h.2
      rw [if_neg hp', if_neg hc, if_neg hc]
      exact ⟨htick', hmode', rfl, rfl, rfl⟩
  · rw [if_pos h, if_neg h, if_neg (fun h' => h h'.1), if_neg (fun h' => h h'.1)]
    exact ⟨htick, hmode, rfl, rfl, rfl⟩


/-- Settles O37: the copy of the boot record that a change writes is the current one after it, and each boot, revert and confirmation is read off it. -/
theorem firmwareBootsAndActivates : Obligations.FirmwareBootsAndActivates := by
  unfold Obligations.FirmwareBootsAndActivates
  refine ⟨fun s hstage hstate hm hn ht => ⟨_, rfl, ?plain⟩, fun s hstage hstate hm hn ht hc => ⟨_, rfl, ?trial⟩,
    fun s hstage hstate hm hn ht hc => ⟨_, rfl, ?late⟩, fun s h => ⟨_, rfl, if_pos h⟩, ?schedule, ?cancel, ?tickRefused,
    fun s h₁ h₂ h₃ h₄ => ⟨_, rfl, if_pos ⟨h₁, h₂, h₃, h₄⟩⟩, fun s h => ⟨_, rfl, if_neg h⟩, fun s hp hq hn => ⟨_, rfl, ?activates⟩,
    fun s h => ⟨_, rfl, if_pos (by simpa using h)⟩, ?timeout, ?timeoutOff, fun s h => ⟨_, rfl, if_neg h⟩, ?revert, ?revertOff, ?recovery,
    ?revertRefused, ?confirm, ?confirmRefused⟩
  case plain =>
    rw [State.boot_plain hstage hstate hm ht]
    refine ⟨fun h => ?_, fun h => ?_⟩
    · obtain ⟨hmeasured, -, hactive, -⟩ := s.bootLoad_fields hn
      rw [State.bootSlot_loads h]
      exact ⟨hmeasured, hactive⟩
    · obtain ⟨hboot, hmodule, hfw⟩ := s.bootFault_fields s.bootRec.active (s.imageReject s.bootRec.active false)
      rw [State.bootSlot_faults h ht]
      exact ⟨hboot, hmodule, by rw [hfw, hm]⟩
  case trial =>
    refine ⟨fun h => ?_, fun h => ?_⟩
    · obtain ⟨hactive, htrial, hcount, himages, -, hdict⟩ := s.bootCounted_fields ht
      rw [State.boot_trial hstage hstate hm ht, if_neg (by omega)]
      generalize s.bootCounted = v at hactive htrial hcount himages hdict
      obtain ⟨hmeasured, hrec, hslot, hboot⟩ := v.bootLoad_fields (n := v.bootRec.active) (by rwa [hactive])
      rw [State.bootSlot_loads (by rw [hactive, himages.imageReject, h]), hrec, hboot, hslot, hmeasured, himages.measures (by rw [hdict]), hactive,
        if_pos htrial]
      exact ⟨rfl, rfl, rfl, hcount⟩
    · have hother := State.boot_trialFails hstage hstate hm hn ht (.inr h)
      exact ⟨hother.runs, hother.recovers⟩
  case late =>
    have hother := State.boot_trialFails hstage hstate hm hn ht (.inl hc)
    exact ⟨hother.runs, hother.recovers⟩
  case schedule =>
    intro s src x h0 hx hd hc
    have hst : s.writeStatus src Obj.actTick x false (s.actTickCond x) = 0 := by
      rw [State.writeStatus_actTick, if_neg (by simp [hd]), if_neg (by omega), hc]
    refine ⟨_, rfl, ?_⟩
    simp only [State.act, hst, if_true, State.actTickApply, if_pos h0]
    have hrd : ((s.wr Obj.actTick x).wr Obj.actMode 2).rd Obj.actTick = x := (State.rd_wr_ne (by decide)).trans (State.rd_wr_self ..)
    exact ⟨rfl, hrd, State.rd_wr_self (s.wr Obj.actTick x) Obj.actMode 2, rfl⟩
  case cancel =>
    intro s src x h0 hd
    subst h0
    have hst : s.writeStatus src Obj.actTick 0 false (s.actTickCond 0) = 0 := by
      rw [State.writeStatus_actTick, if_neg (by simp [hd]), if_neg (by decide), State.actTickCond_zero]
    refine ⟨_, rfl, ?_⟩
    obtain ⟨htick, hmode, hphase, hhold, hout⟩ := s.actTickApply_zero
    simp only [State.act, hst, if_true]
    exact ⟨congrArg _ hout, htick, hmode, hphase, hhold⟩
  case tickRefused =>
    intro s src x h
    obtain ⟨t, ht, hfields⟩ := State.act_refused (s := s) (src := src) (f := fun s => s.actTickApply x)
      (State.writeStatus_actTick (x := x) (cond := s.actTickCond x)) (by split_ifs <;> grind)
    exact ⟨t, congrArg Host.Outcome.next ht, hfields⟩
  case activates =>
    obtain ⟨hactive, htrial, hcount, hslot, hleft, hnext, hmode⟩ := s.activated_fields hn
    have hkeys : ∀ n ≤ 1, Obj.slotState n ≠ Obj.moduleState := by decide
    rw [State.activate_eq, if_neg (by simp [hp, hq])]
    generalize s.activated = v at hactive htrial hcount hslot hleft hnext hmode
    rw [State.restartDomains_bootRec, State.rd_restartDomains (by decide), State.rd_restartDomains (hkeys _ hn),
      State.rd_restartDomains (hkeys _ (by omega)), State.rd_restartDomains (by decide), State.restartDomains_moduleState]
    exact ⟨hactive, htrial, hcount, hslot, hleft, hnext, hmode, rfl, rfl, rfl, rfl, rfl, rfl⟩
  case timeout =>
    intro s hb ht hstate hlate hn hrails
    have h := State.revertTo_revertsTo (cause := 2) (by omega) hn
    obtain ⟨hphase, hstage, hdomain⟩ := h.restarts hrails
    refine ⟨_, congrArg Host.Outcome.next (if_pos ⟨hb, ht, hstate, hlate⟩), h.active, h.trial, h.boot, h.slot, h.state, hphase, hstage, hdomain, h.cause⟩
  case timeoutOff =>
    intro s hb ht hstate hlate hn hrails
    have h := State.revertTo_revertsTo (cause := 2) (by omega) hn
    obtain ⟨hphase, hstage, hdomain⟩ := h.starts hrails
    refine ⟨_, congrArg Host.Outcome.next (if_pos ⟨hb, ht, hstate, hlate⟩), h.active, h.trial, h.boot, h.slot, h.state, hphase, hstage, hdomain, h.cause⟩
  case revert =>
    intro s src arg ha hf hc hb hn hrails
    have h := State.revertTo_revertsTo (cause := 4) (by omega) hn
    obtain ⟨hphase, hstage, hdomain⟩ := h.restarts hrails
    refine ⟨_, congrArg Host.Outcome.next (State.act_applied objRow_fwRevert rfl (by rw [ha]; rfl) rfl hf hc), rfl, ?_⟩
    exact ⟨h.active, h.trial, h.boot, h.slot, h.state, hphase, hstage, hdomain, h.cause⟩
  case revertOff =>
    intro s src arg ha hf hc hb hn hrails
    have h := State.revertTo_revertsTo (cause := 4) (by omega) hn
    obtain ⟨hphase, hstage, hdomain⟩ := h.starts hrails
    refine ⟨_, congrArg Host.Outcome.next (State.act_applied objRow_fwRevert rfl (by rw [ha]; rfl) rfl hf hc), rfl, ?_⟩
    exact ⟨h.active, h.trial, h.boot, h.slot, h.state, hphase, hstage, hdomain, h.cause⟩
  case recovery =>
    intro s src arg ha hf hc hb hn
    exact ⟨_, congrArg Host.Outcome.next (State.act_applied objRow_fwRevert rfl (by rw [ha]; rfl) rfl hf hc), rfl, State.revertTo_recovers (cause := 4) hb hn⟩
  case revertRefused =>
    intro s src arg h
    have hcond := s.revertCond_cases
    obtain ⟨t, ht, hfields⟩ := State.act_refused (s := s) (f := fun s => s.revertTo 4)
      (State.writeStatus_one (src := src) (arg := arg) (cond := s.revertCond) objRow_fwRevert rfl rfl) (by split_ifs <;> grind)
    exact ⟨t, congrArg Host.Outcome.next ht, hfields⟩
  case confirm =>
    intro s src arg ha hf hb hstep
    obtain ⟨hboot, htrial, hactive, hcount⟩ := s.confirm_fields
    refine ⟨_, congrArg Host.Outcome.next (State.act_applied objRow_fwConfirm rfl (by rw [ha]; rfl) rfl hf (if_pos ⟨hb, hstep⟩)), ?_⟩
    generalize s.confirm = v at hboot htrial hactive hcount
    exact ⟨rfl, hboot, htrial, hactive, hcount⟩
  case confirmRefused =>
    intro s src arg h
    have hst : s.writeStatus src Obj.fwConfirm arg false (if s.rd Obj.bootState = 1 ∧ s.cmd.stepNow = none then 0 else 0x09) =
        if s.fldDenied src Obj.fwConfirm = true then 0x0B else if arg ≠ 1 then 0x05 else 0x09 := by
      rw [State.writeStatus_one objRow_fwConfirm rfl rfl]
      split_ifs <;> grind
    obtain ⟨t, ht, hfields⟩ := State.act_refused (s := s) (f := State.confirm) hst (by split_ifs <;> decide)
    exact ⟨t, congrArg Host.Outcome.next ht, hfields⟩

end Sys2Proof.Machine
end

section
/-! SUPPORT. The statement on SPDM, reports, link encryption and the vendor test state. -/
namespace Sys2Proof.Machine

/-- A secured session with a heartbeat period of 0, whose last message is dated ahead of the clock. -/
def sessionAhead : Secured := { id := 0, done := true, beat := 1, period := 0 }

/-- The module at reset but for that session on port A. -/
def sessionAheadState : State := { State.reset with fw := { State.reset.fw with spdmA := { phase := 3, session := some sessionAhead } } }

/-- The time since a message ahead of the clock is cut to 0, and a period of 0 has passed by then: the session ends. -/
theorem sessionAhead_lapses : (sessionAheadState.heartbeatTimeout .ha).spdm .ha = { phase := 3, session := none } := by
  have hs : (sessionAheadState.spdm .ha).session = some sessionAhead := rfl
  have hlapsed : sessionAhead.period * 1000 * ms ≤ sessionAheadState.now - sessionAhead.beat := by decide
  unfold State.heartbeatTimeout
  rw [hs]
  dsimp only
  rw [if_pos hlapsed]
  rfl

/-- Refutes O38: a session with period 0 whose last message is dated ahead of the clock meets the conditions under which the timeout is to change
nothing, and lapses. -/
theorem not_securityProtocolsAnswer : ¬ Obligations.SecurityProtocolsAnswer := by
  unfold Obligations.SecurityProtocolsAnswer
  intro h
  obtain ⟨-, -, -, -, -, -, -, -, -, -, -, -, -, -, -, -, -, -, -, -, -, -, -, -, -, -, -, -, -, -, -, -, -, -, -, -, -, -, -, -, htimeout, -⟩ := h
  obtain ⟨t, ht, rfl⟩ := htimeout sessionAheadState .ha (.inr (by decide))
  have heq : sessionAheadState.heartbeatTimeout .ha = sessionAheadState := Host.Outcome.next.inj ht
  have hlapsed := sessionAhead_lapses
  rw [heq] at hlapsed
  exact absurd (congrArg Spdm.session hlapsed) (by decide)

end Sys2Proof.Machine
end

section
/-! SUPPORT. What sending a message leaves as it is, and that what has been put out stays (R331, R342). -/
namespace Sys2Proof.Machine

variable {s t u : State} {k d p b : Nat} {m : Msg} {o : Out}

/-! ### Messages sent -/

/-- What sending touches: the links, the kept messages, the crossings, and the counts of bytes and flits sent. -/
def mailScope : Scope := ⟨[.link, .coll, .cross], fun k => k = Obj.collBytesTx ∨ ∃ p, k = Obj.flitsTx p⟩

/-- What the group holds apart from the messages it keeps for sending again and the members it has served. -/
def CollState.offMail (c : CollState) : CollState := { c with sent := [], served := [] }

/-- `t` comes of `s` by sending messages: the group stands but for the messages it keeps and the members it has served, and what was
put out stays. -/
structure Mails (s t : State) : Prop where
  coll : t.coll.offMail = s.coll.offMail
  out : ∀ o ∈ s.out, o ∈ t.out
  within : Within mailScope s t

namespace Mails

theorem refl (s : State) : Mails s s := ⟨rfl, fun _ => id, .refl _ s⟩

theorem trans (h : Mails s t) (h' : Mails t u) : Mails s u :=
  ⟨h'.coll.trans h.coll, fun o ho => h'.out o (h.out o ho), h.within.trans h'.within⟩

theorem foldl {α : Type} {f : State → α → State} {l : List α} (hf : ∀ v, ∀ a ∈ l, Mails v (f v a)) : Mails s (l.foldl f s) :=
  List.foldlRecOn (motive := fun v => Mails s v) _ _ (.refl s) fun v hv a ha => hv.trans (hf v a ha)

/-- An object that sending does not count reads as before. -/
theorem rd_eq (h : Mails s t) (hb : k ≠ Obj.collBytesTx := by decide) (hf : k % 256 ≠ 1 ∨ k < 0xa06001 := by decide)
    (he : eventKey k = false := by decide) : t.rd k = s.rd k :=
  h.within.rd_eq (fun hk => hk.elim hb fun ⟨p, hp⟩ => by rw [Obj.flitsTx] at hp; omega) he

/-- What the group holds beside stands. -/
theorem coll_eq {α : Type} (h : Mails s t) (f : CollState → α) (hf : ∀ c : CollState, f c.offMail = f c := by exact fun _ => rfl) :
    f t.coll = f s.coll := by rw [← hf t.coll, h.coll, hf]

/-- Where each turn of a loop of sendings puts out what is asked for its item, that stands in the end. -/
theorem foldl_out {α : Type} {f : State → α → State} {l : List α} {a : α} {P : Out → Prop} (hf : ∀ v, ∀ a ∈ l, Mails v (f v a)) (ha : a ∈ l)
    (hP : ∀ v, Mails s v → ∃ o ∈ (f v a).out, P o) : ∃ o ∈ (l.foldl f s).out, P o := by
  obtain ⟨l₁, l₂, rfl⟩ := List.append_of_mem ha
  have h₁ : Mails s (l₁.foldl f s) := .foldl fun v b hb => hf v b (List.mem_append_left _ hb)
  obtain ⟨o, ho, hPo⟩ := hP _ h₁
  refine ⟨o, ?_, hPo⟩
  rw [List.foldl_append, List.foldl_cons]
  have h₂ : Mails (f (l₁.foldl f s) a) (l₂.foldl f (f (l₁.foldl f s) a)) :=
    .foldl fun v b hb => hf v b (List.mem_append_right _ (List.mem_cons_of_mem _ hb))
  exact h₂.out o ho

end Mails

theorem State.pumpOne_beside (s : State) (p : Nat) : (s.pumpOne p).coll = s.coll ∧ ∀ o ∈ s.out, o ∈ (s.pumpOne p).out := by
  obtain e | ⟨x, a, b, c, d, -, e⟩ := s.pumpOne_cases p
  · rw [e]
    exact ⟨rfl, fun _ => id⟩
  · obtain ⟨y, z, h⟩ := ((s.setPort p x).count (Obj.flitsTx p) 1).sendFlit_shape p a b c d false
    rw [e, h]
    exact ⟨rfl, fun _ => List.mem_cons_of_mem _⟩

theorem State.pump_beside (s : State) (p : Nat) : (s.pump p).coll = s.coll ∧ ∀ o ∈ s.out, o ∈ (s.pump p).out :=
  List.foldlRecOn (motive := fun v : State => v.coll = s.coll ∧ ∀ o ∈ s.out, o ∈ v.out) _ _ ⟨rfl, fun _ => id⟩ fun v hv _ _ =>
    have h := v.pumpOne_beside p
    ⟨h.1.trans hv.1, fun o ho => h.2 o (hv.2 o ho)⟩

theorem mailScope_keys : mailScope.keys Obj.collBytesTx ∧ ∀ n, mailScope.keys (Obj.flitsTx n) := ⟨.inl rfl, fun n => .inr ⟨n, rfl⟩⟩

theorem State.mail_mails (s : State) (m : Mail) : Mails s (s.mail m) := by
  have hw : Within mailScope s (s.mail m) :=
    State.mail_within (by decide) (by decide) (by decide) (.refl _ s) mailScope_keys.2
  suffices h : (s.mail m).coll.offMail = s.coll.offMail ∧ ∀ o ∈ s.out, o ∈ (s.mail m).out from ⟨h.1, h.2, hw⟩
  unfold State.mail State.mailFrom
  split
  · exact ⟨rfl, fun _ => id⟩
  · next p _ =>
    generalize hv : State.sentOn _ m p = v
    have hcoll : v.coll.offMail = s.coll.offMail := by rw [← hv]; rfl
    have hout : v.out = s.out := by rw [← hv]; rfl
    obtain ⟨hc, ho⟩ := v.pump_beside p
    exact ⟨by rw [hc, hcoll], by rwa [hout] at ho⟩

theorem State.emit_mails (s : State) (o : Out) : Mails s (s.emit o) :=
  ⟨rfl, fun _ => List.mem_cons_of_mem _, State.emit_within (.refl _ s)⟩

theorem State.sendPod_mails (s : State) (p d : Nat) (m : Msg) :
    Mails s (s.sendPod p d m) ∧ Out.message p d m ∈ (s.sendPod p d m).out := by
  unfold State.sendPod
  extract_lets a b
  have ha : Mails s a := s.emit_mails _
  have hb : Mails a b := by
    unfold b
    split
    · exact ⟨rfl, fun _ => id, State.count_within (.refl _ a) mailScope_keys.1⟩
    · exact .refl a
  have hm := b.mail_mails { pod := p, dst := d, msg := m }
  exact ⟨(ha.trans hb).trans hm, hm.out _ (hb.out _ (List.mem_cons_self ..))⟩

theorem State.send_mails (s : State) (d : Nat) (m : Msg) : Mails s (s.send d m) := (s.sendPod_mails _ d m).1

theorem State.send_out (s : State) (d : Nat) (m : Msg) : Out.message (s.rd Obj.planPod) d m ∈ (s.send d m).out := (s.sendPod_mails _ d m).2

theorem State.sendAll_mails (s : State) (m : Msg) : Mails s (s.sendAll m) := .foldl fun v d _ => v.send_mails d m

/-- Sending to all puts out the message for every other member. -/
theorem State.sendAll_out (hd : d ∈ s.others) : Out.message (s.rd Obj.planPod) d m ∈ (s.sendAll m).out := by
  obtain ⟨_, ho, rfl⟩ := Mails.foldl_out (P := (· = Out.message (s.rd Obj.planPod) d m)) (fun v d _ => v.send_mails d m) hd fun v hv =>
    ⟨_, v.send_out d m, by rw [hv.rd_eq]⟩
  exact ho

/-- The whole step state goes out, and its receiver counts as served. -/
theorem State.sendState_mails (s : State) (d : Nat) : Mails s (s.sendState d) := by
  unfold State.sendState
  extract_lets n ps a b
  have ha : Mails s a := .foldl fun v x _ => v.send_mails ..
  have hb : Mails a b := a.send_mails ..
  clear_value b
  refine (ha.trans hb).trans ⟨rfl, fun _ => id, ?_⟩
  exact Within.setColl (by decide) (.refl _ b)

/-! ### Twin digests (R352, R354) -/

/-- What a twin's pair says may be kept for the next boundary; nothing else of the group changes. -/
theorem State.noteTwin_coll (s : State) (a v : Nat) (late : Bool) (x : TwinPair) :
    ∃ l, (s.noteTwin a v late x).coll = { s.coll with lateTwin := l } := by
  unfold State.noteTwin
  extract_lets u
  have hu : u.coll = s.coll := by
    unfold u
    split
    · exact s.raiseOnce_coll ..
    · rfl
  split
  · exact ⟨_, congrArg (fun c : CollState => { c with lateTwin := some a }) hu⟩
  · exact ⟨s.coll.lateTwin, hu⟩

theorem State.others_congr (hm : t.rd Obj.groupMembers = s.rd Obj.groupMembers) (ho : t.rd Obj.planModule = s.rd Obj.planModule) :
    t.others = s.others := by rw [State.others, State.others, State.members, State.members, State.bitmap, State.bitmap, State.ownModule,
      State.ownModule, hm, ho]

theorem State.noteTwin_rd {a v : Nat} {late : Bool} {x : TwinPair} (he : eventKey k = false := by decide) :
    (s.noteTwin a v late x).rd k = s.rd k :=
  Within.rd_eq (g := ⟨[.coll], fun _ => False⟩) (State.noteTwin_within (by decide) (.refl _ s)) id he

/-- A digest passed on with its twin's reaches every other member; the comparison and the digests that wait stand. -/
theorem State.sendDigest_mails (s : State) (n v : Nat) (x : Option TwinPair) : Mails s (s.sendDigest n v x) := s.sendAll_mails _

theorem State.overdueTwin_coll (s : State) (m : Msg) :
    (s.overdueTwin m).coll.compare = s.coll.compare ∧ (s.overdueTwin m).coll.digests = s.coll.digests := by
  unfold State.overdueTwin
  split
  · next v x _ _ =>
    obtain ⟨l, h⟩ := s.noteTwin_coll m.step v true x
    generalize s.noteTwin m.step v true x = u at h
    have hu : u.coll.compare = s.coll.compare ∧ u.coll.digests = s.coll.digests := by
      rw [h]
      exact ⟨rfl, rfl⟩
    dsimp only
    split
    · obtain ⟨w, e, hw⟩ : ∃ w, w = { u with coll := { u.coll with overdue := u.coll.overdue.erase m.step } } ∧
        w.coll.compare = u.coll.compare ∧ w.coll.digests = u.coll.digests := ⟨_, rfl, rfl, rfl⟩
      rw [← e]
      have hs := w.sendDigest_mails m.step v (some x)
      exact ⟨(hs.coll_eq (·.compare)).trans (hw.1.trans hu.1), (hs.coll_eq (·.digests)).trans (hw.2.trans hu.2)⟩
    · exact hu
  · exact ⟨rfl, rfl⟩

theorem State.takeDigest_coll {c : Compare} (hc : s.coll.compare = some c) :
    (s.takeDigest m).coll.compare = some { c with copies := c.copies.insert m.src (unle (m.body.take 8), twinOf m) } ∧
      (s.takeDigest m).coll.digests = s.coll.digests := by
  unfold State.takeDigest
  split
  · next h => rw [hc] at h; cases h
  next c' h =>
  obtain rfl : c = c' := Option.some.inj (hc.symm.trans h)
  extract_lets known _ v
  have hv : v.coll.compare = some { c with copies := c.copies.insert m.src (unle (m.body.take 8), twinOf m) } ∧
    v.coll.digests = s.coll.digests := ⟨rfl, rfl⟩
  clear_value v
  split
  · next x _ =>
    split
    · exact hv
    · obtain ⟨l, h⟩ := v.noteTwin_coll c.step c.own c.twinLate x
      rw [h]
      exact hv
  · exact hv

theorem State.takeTwin_coll {c : Compare} (hc : s.coll.compare = some c) (hm : m.mtype = 0x21) :
    (s.takeTwin m).coll.compare = some { c with twin := some (unle (m.body.take 8), unle ((m.body.drop 8).take 4)) } ∧
      ∀ d ∈ s.others, ∃ a, a.mtype = 0x20 ∧ a.step = c.step ∧ Out.message (s.rd Obj.planPod) d a ∈ (s.takeTwin m).out := by
  have hx : twinOf m = some (unle (m.body.take 8), unle ((m.body.drop 8).take 4)) := if_pos hm
  rw [← hx]
  unfold State.takeTwin
  split
  case h_2 h => exact absurd hx (h _ _ hc)
  next c' x h hx' =>
  obtain rfl : c = c' := Option.some.inj (hc.symm.trans h)
  rw [hx']
  extract_lets _ v own
  have hv : v.coll.compare = some { c with twin := some x } := rfl
  have hrd' : ∀ k, v.rd k = s.rd k := fun _ => rfl
  clear_value v
  obtain ⟨l, h⟩ := v.noteTwin_coll c.step c.own c.twinLate x
  have hrd : ∀ k, eventKey k = false → (v.noteTwin c.step c.own c.twinLate x).rd k = s.rd k := fun k hk =>
    (State.noteTwin_rd hk).trans (hrd' k)
  generalize v.noteTwin c.step c.own c.twinLate x = u at h hrd
  have hs := u.sendDigest_mails c.step own (some x)
  refine ⟨(hs.coll_eq (·.compare)).trans (by rw [h]; exact hv), fun d hd => ⟨u.msg 0x20 0 c.step 0 21 (digestBody own (some x)), rfl, rfl, ?_⟩⟩
  have hd' : d ∈ u.others := by rwa [State.others_congr (hrd _ (by decide)) (hrd _ (by decide))]
  have ho := State.sendAll_out (m := u.msg 0x20 0 c.step 0 21 (digestBody own (some x))) hd'
  rwa [hrd _ (by decide)] at ho

end Sys2Proof.Machine
end

section
/-! SUPPORT. O22: digest messages, the wait for the twin, and state transfers. -/
namespace Sys2Proof.Machine

variable {s t u : State} {m : Msg} {x : Transfer} {c : Compare}

/-! ### Digest messages (R352, R354) -/

theorem State.digestMsg_later (hc : s.coll.compare = some c) (h : c.step < m.step) :
    s.digestMsg m = { s with coll := { s.coll with digests := s.coll.digests ++ [m] } } := by
  unfold State.digestMsg
  rw [hc]
  dsimp only
  rw [if_neg (Nat.ne_of_gt h), if_pos h]

theorem State.digestMsg_earlier (hc : s.coll.compare = some c) (h : m.step < c.step) : s.digestMsg m = s.overdueTwin m := by
  unfold State.digestMsg
  rw [hc]
  dsimp only
  rw [if_neg (Nat.ne_of_lt h), if_neg (Nat.lt_asymm h)]

theorem State.digestMsg_same (hc : s.coll.compare = some c) (h : m.step = c.step) :
    s.digestMsg m = if m.mtype = 0x21 then s.takeTwin m else s.takeDigest m := by
  unfold State.digestMsg
  rw [hc]
  exact if_pos h

theorem State.digestMsg_unformed (hc : s.coll.compare = none) :
    s.digestMsg m = { s with coll := { s.coll with digests := s.coll.digests ++ [m] } } := by
  unfold State.digestMsg
  rw [hc]

theorem State.overdueTwin_none (h : s.coll.overdue.find m.step = none) : s.overdueTwin m = s := by
  unfold State.overdueTwin
  rw [h]

theorem exec_msgDigest_member (hm : s.fromMember m = true) : exec (.msgDigest m) s = .next (s.digestMsg { m with mtype := 0x20 }) :=
  congrArg Host.Outcome.next (if_pos hm)

theorem exec_msgDigest_other (hm : s.fromMember m = false) : exec (.msgDigest m) s = .next s :=
  congrArg Host.Outcome.next (if_neg (by rw [hm]; decide))

theorem exec_msgTwinDigest_twin (hp : m.pod ≠ s.rd Obj.planPod) (hm : m.src = s.ownModule) (hb : s.bitmap ≠ 0) :
    exec (.msgTwinDigest m) s = .next (s.digestMsg { m with mtype := 0x21 }) :=
  have h : m.pod ≠ s.rd Obj.planPod ∧ m.src = s.ownModule ∧ s.bitmap ≠ 0 := ⟨hp, hm, hb⟩
  congrArg Host.Outcome.next (if_pos h)

theorem exec_msgTwinDigest_other (h : m.pod = s.rd Obj.planPod ∨ m.src ≠ s.ownModule ∨ s.bitmap = 0) :
    exec (.msgTwinDigest m) s = .next s :=
  have h' : ¬ (m.pod ≠ s.rd Obj.planPod ∧ m.src = s.ownModule ∧ s.bitmap ≠ 0) := fun ⟨h1, h2, h3⟩ =>
    h.elim h1 fun h => h.elim (· h2) h3
  congrArg Host.Outcome.next (if_neg h')

/-! ### The wait for the twin (R354) -/

theorem State.twinWait_late (hc : s.coll.compare = some c) (he : s.rd Obj.twinEnable ≠ 0) (hi : s.twinsIn c = false) (hl : c.twinLate = false)
    (ht : c.told = false) (hn : s.rd Obj.twinWaitMs * ms ≤ s.now - c.start) :
    s.twinWait = ({ s with coll := { s.coll with compare := some { c with twinLate := true } } }).raise Ev.twinLate [] := by
  unfold State.twinWait
  rw [hc]
  dsimp only
  have hlt : ¬ s.now - c.start < s.rd Obj.twinWaitMs * ms := Nat.not_lt.2 hn
  exact if_neg (by simp [he, hi, hl, ht, hlt])

theorem State.twinWait_idle (hc : s.coll.compare = some c)
    (h : s.rd Obj.twinEnable = 0 ∨ s.twinsIn c = true ∨ c.twinLate = true ∨ c.told = true ∨ s.now - c.start < s.rd Obj.twinWaitMs * ms) :
    s.twinWait = s := by
  unfold State.twinWait
  rw [hc]
  exact if_pos h

theorem State.twinWait_none (hc : s.coll.compare = none) : s.twinWait = s := by
  unfold State.twinWait
  rw [hc]

/-! ### Parts of a transfer (R353, R497) -/

theorem State.takePart_region {h k : Nat} {b : Bytes} (hh : h < 0xFFFFFFFD) : s.takePart h k b = s.regionWrite h (4096 * k) b := by
  unfold State.takePart
  rw [if_neg (by omega), if_neg (by omega), if_neg (by omega)]

theorem State.isEarly_transfer (hx : s.coll.transfer = some x) : s.isEarly m = false := by
  rw [State.isEarly, hx]
  rfl

theorem State.msgStatePart_taken (hm : s.fromMember m = true) (hx : s.coll.transfer = some x) (hd : x.donor = m.src) (hn : x.step = m.step)
    (hg : s.rd Obj.groupState ≠ 5) :
    s.msgStatePart m = State.takePart { s with coll := { s.coll with transfer := some { x with parts := x.parts + 1 } } }
      (unle (m.body.take 4)) (unle ((m.body.drop 4).take 4)) (m.body.drop 8) := by
  have hown : (x.donor == m.src && x.step == m.step) = true := by simp [hd, hn]
  unfold State.msgStatePart
  rw [hx, Option.getD_some, if_neg (by simp [hm, hg]), if_neg (by rw [State.isEarly_transfer hx]; decide)]
  exact if_neg (not_not_intro hown)

theorem State.msgStatePart_early (hm : s.fromMember m = true) (hg : s.rd Obj.groupState ≠ 5) (he : s.isEarly m = true) :
    s.msgStatePart m = { s with coll := { s.coll with early := s.coll.early ++ [m] } } := by
  unfold State.msgStatePart
  extract_lets own
  rw [if_neg (by simp [hm, hg]), if_pos he]

theorem State.msgStatePart_first (hm : s.fromMember m = true) (hg : s.rd Obj.groupState ≠ 5) (he : s.isEarly m = false)
    (hx : s.coll.transfer = none) (hn : s.rd Obj.lastCommittedStep < m.step) (hs : s.cmd.stepNow = none) :
    s.msgStatePart m = State.takePart
      { s with coll := { s.coll with transfer := some { donor := m.src, step := m.step, parts := 1, repair := false } } }
      (unle (m.body.take 4)) (unle ((m.body.drop 4).take 4)) (m.body.drop 8) := by
  have hown : (decide (s.rd Obj.lastCommittedStep < m.step) && s.cmd.stepNow.isNone) = true := by simp [hn, hs]
  unfold State.msgStatePart
  rw [hx, Option.getD_none, if_neg (by simp [hm, hg]), if_neg (by rw [he]; decide)]
  exact if_neg (not_not_intro hown)

theorem State.msgStatePart_idle (h : s.fromMember m = false ∨ s.rd Obj.groupState = 5) : s.msgStatePart m = s := by
  unfold State.msgStatePart
  extract_lets own
  exact if_pos (h.imp_left (by simp [·]))

/-! ### The end of a transfer (R353, R497) -/

/-- Every mapped layer checked against the donor's digests in a state done message: the state then, and the layers that differ. -/
def State.checkedLayers (s : State) (m : Msg) : State × List Nat :=
  (s.mappedLayers.zip (u64s (m.body.drop 4) s.mappedLayers.length)).foldl (fun (a : State × List Nat) (y : Nat × Nat) =>
    ((a.1.checkLayer y.1 y.2).1, if (a.1.checkLayer y.1 y.2).2 then a.2 else a.2 ++ [y.1])) (s, [])

/-- The layers have been checked: the transfer is over, and the module stands at the donor's step and epoch, or reports the layers that differ. -/
def State.transferred (s : State) (m : Msg) (x : Transfer) (bad : List Nat) : State :=
  let s := { s with coll := { s.coll with transfer := none } }
  if bad ≠ [] then bad.foldl (fun s l => s.raise Ev.restoreFault [p8 l]) s
  else
    let s := ((s.wr Obj.lastCommittedStep x.step).wr Obj.modeEpoch m.epoch).applyShape
    let s := { s with coll := { s.coll with stateLost := false } }
    let s := (s.wr Obj.stepDigest s.stepDigestNow).wr Obj.stepDigestStep x.step
    if x.repair then s else s.raise Ev.joinTransfer [p16 x.donor, p64 x.step]

theorem State.msgStateDone_taken (hm : s.fromMember m = true) (hx : s.coll.transfer = some x) (hd : x.donor = m.src) (hn : x.step = m.step)
    (hp : unle (m.body.take 4) ≤ x.parts) : s.msgStateDone m = (s.checkedLayers m).1.transferred m x (s.checkedLayers m).2 := by
  unfold State.msgStateDone
  rw [hx]
  dsimp only
  rw [if_neg (by simp [hm, hd, hn, hp])]
  rfl

theorem State.msgStateDone_other (hx : s.coll.transfer = some x)
    (h : s.fromMember m = false ∨ x.donor ≠ m.src ∨ x.step ≠ m.step ∨ x.parts < unle (m.body.take 4)) : s.msgStateDone m = s := by
  unfold State.msgStateDone
  rw [hx]
  exact if_pos (h.imp_left (by simp [·]))

theorem State.msgStateDone_early (hx : s.coll.transfer = none) (hm : s.fromMember m = true) (he : s.isEarly m = true) :
    s.msgStateDone m = { s with coll := { s.coll with early := s.coll.early ++ [m] } } := by
  unfold State.msgStateDone
  rw [hx]
  have h : s.fromMember m = true ∧ s.isEarly m = true := ⟨hm, he⟩
  exact if_pos h

theorem State.msgStateDone_none (hx : s.coll.transfer = none) (h : s.fromMember m = false ∨ s.isEarly m = false) : s.msgStateDone m = s := by
  unfold State.msgStateDone
  rw [hx]
  exact if_neg (by rcases h with h | h <;> simp [h])

/-- Checking layers leaves the last committed step as it is. -/
theorem State.checkedLayers_last : (s.checkedLayers m).1.rd Obj.lastCommittedStep = s.rd Obj.lastCommittedStep := by
  unfold State.checkedLayers
  refine Within.last_eq (List.foldlRecOn (motive := fun a : State × List Nat => Within offLast s a.1) _ _ (.refl _ s) fun a h y _ => ?_)
  exact State.checkLayer_within (mem_offLast _) (mem_offLast _) (mem_offLast _) (mem_offLast _) (mem_offLast _) h
    trivial trivial trivial trivial

/-- The objects of the shape follow from the members; the step, the epoch and the group's own record stay. -/
theorem State.applyShape_leaves : s.applyShape.coll = s.coll ∧ s.applyShape.rd Obj.lastCommittedStep = s.rd Obj.lastCommittedStep ∧
    s.applyShape.rd Obj.modeEpoch = s.rd Obj.modeEpoch := by
  unfold State.applyShape
  split
  · refine ⟨by simp only [State.wr_coll], ?_, ?_⟩ <;> repeat rw [State.rd_wr_ne (by decide)]
  · refine ⟨by simp only [State.wr_coll], ?_, ?_⟩ <;> repeat rw [State.rd_wr_ne (by decide)]

theorem State.transferred_good (s : State) (m : Msg) (x : Transfer) :
    (s.transferred m x []).rd Obj.lastCommittedStep = x.step ∧ (s.transferred m x []).rd Obj.modeEpoch = m.epoch ∧
      (s.transferred m x []).coll.transfer = none ∧ (s.transferred m x []).coll.stateLost = false := by
  unfold State.transferred
  extract_lets _ a b _ c d
  rw [if_neg (by simp)]
  obtain ⟨hcoll, hlast, hepoch⟩ : b.coll = a.coll ∧ b.rd Obj.lastCommittedStep = x.step ∧ b.rd Obj.modeEpoch = m.epoch := by
    obtain ⟨h1, h2, h3⟩ := State.applyShape_leaves (s := (a.wr Obj.lastCommittedStep x.step).wr Obj.modeEpoch m.epoch)
    exact ⟨h1, by rw [h2, State.rd_wr_ne (by decide), State.rd_wr_self], by rw [h3, State.rd_wr_self]⟩
  have hd : d.rd Obj.lastCommittedStep = x.step ∧ d.rd Obj.modeEpoch = m.epoch ∧ d.coll.transfer = none ∧ d.coll.stateLost = false := by
    refine ⟨?_, ?_, ?_, rfl⟩
    · rw [State.rd_wr_ne (by decide), State.rd_wr_ne (by decide)]
      exact hlast
    · rw [State.rd_wr_ne (by decide), State.rd_wr_ne (by decide)]
      exact hepoch
    · exact congrArg CollState.transfer hcoll
  clear_value d
  split
  · exact hd
  · rw [State.rd_raise (by decide) (by decide), State.rd_raise (by decide) (by decide), State.raise_coll]
    exact hd

theorem State.transferred_bad {l : List Nat} (hl : l ≠ []) :
    (s.transferred m x l).rd Obj.lastCommittedStep = s.rd Obj.lastCommittedStep ∧ (s.transferred m x l).coll.transfer = none := by
  unfold State.transferred
  extract_lets _ a
  rw [if_pos hl]
  have ha : a.rd Obj.lastCommittedStep = s.rd Obj.lastCommittedStep ∧ a.coll.transfer = none := ⟨rfl, rfl⟩
  clear_value a
  refine List.foldlRecOn (motive := fun v : State => v.rd Obj.lastCommittedStep = s.rd Obj.lastCommittedStep ∧ v.coll.transfer = none) _ _ ha ?_
  intro v hv i _
  rw [State.rd_raise (by decide) (by decide), State.raise_coll]
  exact hv

/-- Settles O22: each message and timer by the branch that its conditions choose; a digest passed on reaches every other member by the law of
sendings, and a transfer ends by what checking the layers leaves. -/
theorem digestsAndTransfersArrive : Obligations.DigestsAndTransfersArrive := by
  unfold Obligations.DigestsAndTransfersArrive
  refine ⟨?_, ?_, ?_, ?_, ?_, ?_, ?_, ?_, ?_, ?_, ?_, ?_, ?_, ?_, ?_, ?_, ?_, ?_, ?_, ?_, ?_, ?_, ?_⟩
  · intro s m c hm hc hn
    refine ⟨_, exec_msgDigest_member hm, ?_⟩
    rw [State.digestMsg_same (m := { m with mtype := 0x20 }) hc hn, if_neg (show (0x20 : Nat) ≠ 0x21 by decide)]
    exact State.takeDigest_coll hc
  · intro s m c hm hc hn
    exact ⟨_, exec_msgDigest_member hm, State.digestMsg_later hc hn⟩
  · intro s m c hm hc hn ho
    exact ⟨_, exec_msgDigest_member hm, (State.digestMsg_earlier (m := { m with mtype := 0x20 }) hc hn).trans (State.overdueTwin_none ho)⟩
  · intro s m c hm hc hn
    refine ⟨_, exec_msgDigest_member hm, ?_⟩
    rw [State.digestMsg_earlier (m := { m with mtype := 0x20 }) hc hn]
    exact s.overdueTwin_coll _
  · intro s m hm hc
    exact ⟨_, exec_msgDigest_member hm, State.digestMsg_unformed hc⟩
  · intro s m hm
    exact ⟨_, exec_msgDigest_other hm, rfl⟩
  · intro s m c hp hm hb hc hn
    refine ⟨_, exec_msgTwinDigest_twin hp hm hb, ?_⟩
    rw [State.digestMsg_same (m := { m with mtype := 0x21 }) hc hn, if_pos rfl]
    exact State.takeTwin_coll hc rfl
  · intro s m c hp hm hb hc hn
    exact ⟨_, exec_msgTwinDigest_twin hp hm hb, State.digestMsg_later hc hn⟩
  · intro s m c hp hm hb hc hn
    refine ⟨_, exec_msgTwinDigest_twin hp hm hb, ?_⟩
    rw [State.digestMsg_earlier (m := { m with mtype := 0x21 }) hc hn]
    exact s.overdueTwin_coll _
  · intro s m h
    exact ⟨_, exec_msgTwinDigest_other h, rfl⟩
  · intro s c hc he hi hl ht hn
    refine ⟨_, congrArg Host.Outcome.next (State.twinWait_late hc he hi hl ht hn), ?_⟩
    exact ⟨State.raise_coll .., State.rd_raise_occurrences (by decide) (by decide)⟩
  · intro s c hc h
    exact ⟨_, congrArg Host.Outcome.next (State.twinWait_idle hc h), rfl⟩
  · intro s hc
    exact ⟨_, congrArg Host.Outcome.next (State.twinWait_none hc), rfl⟩
  · intro s m x hm hx hd hn hg hh
    have h := State.msgStatePart_taken (m := { m with mtype := 0x22 }) hm hx hd hn hg
    refine ⟨_, congrArg Host.Outcome.next (h.trans (State.takePart_region hh)), ?_⟩
    generalize hv : State.mk .. = v
    obtain ⟨l, e⟩ := v.regionWrite_shape (unle (m.body.take 4)) (4096 * unle ((m.body.drop 4).take 4)) (m.body.drop 8)
    rw [e, ← hv]
    exact ⟨rfl, rfl⟩
  · intro s m x hm hx hd hn hg
    exact ⟨_, congrArg Host.Outcome.next (State.msgStatePart_taken (m := { m with mtype := 0x22 }) hm hx hd hn hg), rfl⟩
  · intro s m hm hg he
    exact ⟨_, congrArg Host.Outcome.next (State.msgStatePart_early (m := { m with mtype := 0x22 }) hm hg he), rfl⟩
  · intro s m hm hg he hx hn hs
    exact ⟨_, congrArg Host.Outcome.next (State.msgStatePart_first (m := { m with mtype := 0x22 }) hm hg he hx hn hs), rfl⟩
  · intro s m h
    exact ⟨_, congrArg Host.Outcome.next (State.msgStatePart_idle (m := { m with mtype := 0x22 }) h), rfl⟩
  · intro s m x hm hx hd hn hp hbad
    refine ⟨_, congrArg Host.Outcome.next (State.msgStateDone_taken (m := { m with mtype := 0x23 }) hm hx hd hn hp), ?_⟩
    have hbad' : (s.checkedLayers { m with mtype := 0x23 }).2 = [] := hbad
    rw [hbad']
    exact State.transferred_good _ { m with mtype := 0x23 } x
  · intro s m x hm hx hd hn hp hbad
    refine ⟨_, congrArg Host.Outcome.next (State.msgStateDone_taken (m := { m with mtype := 0x23 }) hm hx hd hn hp), ?_⟩
    have hbad' : (s.checkedLayers { m with mtype := 0x23 }).2 ≠ [] := hbad
    obtain ⟨h1, h2⟩ := State.transferred_bad (s := (s.checkedLayers { m with mtype := 0x23 }).1) (m := { m with mtype := 0x23 }) (x := x) hbad'
    exact ⟨h1.trans State.checkedLayers_last, h2⟩
  · intro s m x hx h
    exact ⟨_, congrArg Host.Outcome.next (State.msgStateDone_other (m := { m with mtype := 0x23 }) hx h), rfl⟩
  · intro s m hx hm he
    exact ⟨_, congrArg Host.Outcome.next (State.msgStateDone_early (m := { m with mtype := 0x23 }) hx hm he), rfl⟩
  · intro s m hx h
    exact ⟨_, congrArg Host.Outcome.next (State.msgStateDone_none (m := { m with mtype := 0x23 }) hx h), rfl⟩

end Sys2Proof.Machine
end

section
/-! SUPPORT. What a step abort leaves of the group, of the objects and of what has been put out (R194). -/
namespace Sys2Proof.Machine

variable {s t u : State} {k w n : Nat}

/-! ### Events and what has been put out -/

theorem State.announce_tells (s : State) (r : EventRec) : ∀ o ∈ s.out, o ∈ (s.announce r).out := by
  unfold State.announce
  extract_lets pdu v
  exact List.foldlRecOn (motive := fun v : State => ∀ o ∈ s.out, o ∈ v.out) _ _ (fun _ => id) fun v hv d _ o ho =>
    List.mem_cons_of_mem _ (hv o ho)

theorem State.form_tells (s : State) (code : Nat) (ps : List Bytes) : ∀ o ∈ s.out, o ∈ (s.form code ps).out := by
  unfold State.form
  extract_lets occ r a b _ c
  exact c.announce_tells r

theorem State.raise_tells (s : State) (code : Nat) (ps : List Bytes) : ∀ o ∈ s.out, o ∈ (s.raise code ps).out := by
  unfold State.raise
  extract_lets lost a _ b
  split
  · exact fun o ho => b.form_tells _ _ o (s.form_tells _ _ o ho)
  · exact s.form_tells _ _

/-! ### What an abort clears -/

/-- What the group holds apart from what belongs to the step: the records that have started with their messages, counts and waits, the stall, and
the prepare. -/
def CollState.offStep (c : CollState) : CollState :=
  { c with
    jobs := [], sent := [], inbox := [], snaps := [], lossSeen := [], lastSeen := [], agrees := 0, scalars := 0, gathers := 0, loss := none
    groupCounts := none, agreedFor := none, prepare := none, differing := [], stallFrom := none }

/-- The objects an abort may change: the prepare with its activation, the stall, page waits, the decompression engines, and those of events. -/
def stepKey (k : Nat) : Bool :=
  eventKey k || [Obj.actMode, Obj.actStep, Obj.collMismatchCycles, Obj.groupState, Obj.prepEpoch, Obj.prepStep, Obj.tmWaitCycles].contains k ||
    decide (0x780101 ≤ k ∧ k ≤ 0x780110)

/-- `t` comes of `s` by what an abort does: of the group, the objects and the time only what belongs to the step changes, and what was put out
stays. -/
structure Clears (s t : State) : Prop where
  coll : t.coll.offStep = s.coll.offStep
  objs : ∀ k, stepKey k = false → t.rd k = s.rd k
  now : t.now = s.now
  out : ∀ o ∈ s.out, o ∈ t.out

namespace Clears

theorem refl (s : State) : Clears s s := ⟨rfl, fun _ _ => rfl, rfl, fun _ => id⟩

theorem trans (h : Clears s t) (h' : Clears t u) : Clears s u :=
  ⟨h'.coll.trans h.coll, fun k hk => (h'.objs k hk).trans (h.objs k hk), h'.now.trans h.now, fun o ho => h'.out o (h.out o ho)⟩

theorem ite {c : Prop} [Decidable c] (ht : Clears s t) (hu : Clears s u) : Clears s (if c then t else u) := by split <;> assumption

theorem foldl {α : Type} {f : State → α → State} {l : List α} (hf : ∀ v, ∀ a ∈ l, Clears v (f v a)) (h : Clears s t) : Clears s (l.foldl f t) :=
  List.foldlRecOn (motive := fun v => Clears s v) _ _ h fun v hv a ha => hv.trans (hf v a ha)

/-- A change of none of what counts here. -/
theorem beside (h : Clears s t) (hc : u.coll.offStep = t.coll.offStep := by rfl) (ho : u.obj = t.obj := by rfl) (hn : u.now = t.now := by rfl)
    (hx : u.out = t.out := by rfl) : Clears s u :=
  h.trans ⟨hc, fun k _ => State.rd_congr ho k, hn, fun o ho => by rwa [hx]⟩

theorem wr {v : Nat} (h : Clears s t) (hk : stepKey k = true := by decide) : Clears s (t.wr k v) :=
  h.trans ⟨rfl, fun i hi => State.rd_wr_ne (fun e => by rw [e, hk] at hi; cases hi), rfl, fun _ => id⟩

theorem rd_eq (h : Clears s t) (hk : stepKey k = false := by decide) : t.rd k = s.rd k := h.objs k hk

/-- What the group holds apart from what belongs to the step stands. -/
theorem coll_eq {α : Type} (h : Clears s t) (f : CollState → α) (hf : ∀ c : CollState, f c.offStep = f c := by exact fun _ => rfl) :
    f t.coll = f s.coll := by rw [← hf t.coll, h.coll, hf]

end Clears

theorem eventKey_of_stepKey (h : stepKey k = false) : eventKey k = false := by
  simp only [stepKey, Bool.or_eq_false_iff] at h
  exact h.1.1

theorem State.raise_clears {code : Nat} {ps : List Bytes} (hc : 256 ≤ code ∧ code < 4096 := by decide) : Clears s (s.raise code ps) :=
  ⟨congrArg CollState.offStep (State.raise_coll ..), fun _ hk => State.rd_raise (eventKey_of_stepKey hk) hc, State.raise_now .., s.raise_tells _ _⟩

theorem State.discardWin_clears : Clears s (s.discardWin n w) :=
  .foldl (fun v e _ => by
    obtain ⟨c, h⟩ := v.retire_shape w { e with status := 7, reason := 0 }
    rw [State.discard, h]
    exact (Clears.refl v).beside) (.refl s)

theorem State.endStall_clears : Clears s s.endStall := by
  unfold State.endStall
  extract_lets a b
  have ha : Clears s a := by
    unfold a
    split
    · next f _ =>
      have hf : Clears s (s.count Obj.collMismatchCycles ((s.now - f) * 14)) := .wr (.refl s)
      exact hf.trans ⟨rfl, fun _ _ => rfl, rfl, fun _ => id⟩
    · exact .refl s
  have hb : Clears a b := .ite (.wr (.refl a)) (.refl a)
  exact (ha.trans hb).beside

theorem State.endWaits_clears : Clears s s.endWaits :=
  .foldl (fun v x _ => by
    unfold State.endPageWait
    split
    · exact .refl v
    · next y _ =>
      have hv : Clears v { v with tier := { v.tier with waits := v.tier.waits.erase x.1 } } := ⟨rfl, fun _ _ => rfl, rfl, fun _ => id⟩
      exact hv.wr) (.refl s)

theorem State.freeEngines_clears : Clears s s.freeEngines :=
  .foldl (fun v i hi => .ite (.wr (.refl v) (by
    have := List.mem_range.1 hi
    simp only [stepKey, Obj.decState, Bool.or_eq_true, decide_eq_true_eq]
    omega)) (.refl v)) (.refl s)

theorem State.clearUnits_clears_step : Clears s (s.clearUnits n) := by
  unfold State.clearUnits
  extract_lets a _ _ _ b c gone _ d
  have ha : Clears s a := State.endStall_clears.trans State.endWaits_clears
  clear_value a
  have hb : Clears a b := ⟨rfl, fun _ _ => rfl, rfl, fun _ => id⟩
  have hc : Clears b c := State.freeEngines_clears
  clear_value c
  have hd : Clears c d := ⟨rfl, fun _ _ => rfl, rfl, fun _ => id⟩
  have h := ((ha.trans hb).trans hc).trans hd
  clear_value d
  split
  · split
    · exact h
    · extract_lets e f
      have he : Clears d e := .ite ((Clears.wr (.refl d)).wr) (.refl d)
      have hf : Clears e f := (Clears.wr (.refl e)).wr
      exact (h.trans (he.trans hf)).beside
  · exact h

theorem State.formNotice_clears {a b c d : Nat} : Clears s (s.formNotice w a b c d) := by
  unfold State.formNotice State.formReserved
  split
  · refine Clears.trans ?_ State.raise_clears
    exact ⟨rfl, fun _ _ => rfl, rfl, fun _ => id⟩
  · exact (Clears.refl s).beside

theorem State.abortWin_clears {cause : Nat} : Clears s (s.abortWin n cause w) := by
  unfold State.abortWin
  extract_lets a had b c
  have ha : Clears s a := (Clears.refl s).beside
  have hb : Clears a b := (Clears.refl a).beside
  have hc : Clears b c := .ite State.formNotice_clears (.refl b)
  have h := (ha.trans hb).trans hc
  clear_value c
  exact .ite h ((h.beside).trans State.formNotice_clears)

theorem State.abortStep_clears {cause : Nat} : Clears s (s.abortStep cause) := by
  unfold State.abortStep
  extract_lets n a b c
  have ha : Clears s a := .foldl (fun _ _ _ => State.discardWin_clears) (.refl s)
  clear_value a
  have htiles : Clears a a.clearTiles := ⟨rfl, fun _ _ => rfl, rfl, fun _ => id⟩
  have hb : Clears a b := htiles.trans State.clearUnits_clears_step
  have hc : Clears b c := .foldl (fun _ _ _ => State.abortWin_clears) (.refl b)
  have h := (ha.trans hb).trans hc
  clear_value c
  exact h.beside

end Sys2Proof.Machine
end

section
/-! SUPPORT. O18: mode records, and the verdict on a compare step. -/
namespace Sys2Proof.Machine

variable {s t u : State} {w q w' q' : Nat} {c : Compare} {e f : QEntry}

/-! ### Records that a unit completes -/

/-- A record is found after a change of another as it was before. -/
theorem State.entry_updEntry_ne {g : QEntry → QEntry} (hg : ∀ e, (g e).seq = e.seq) (h : w' ≠ w ∨ q' ≠ q) :
    (s.updEntry w q g).entry w' q' = s.entry w' q' := by
  by_cases hw : w' = w
  · subst hw
    have hq : q' ≠ q := h.resolve_left fun h => h rfl
    rw [State.updEntry, State.entry, State.win_updWin, State.entry]
    induction (s.win w').queue with
    | nil => rfl
    | cons e l ih =>
      rw [List.map_cons, List.find?_cons, List.find?_cons]
      by_cases he : e.seq = q
      · rw [if_pos he, hg, he, beq_eq_false_iff_ne.2 (Ne.symm hq)]
        exact ih
      · rw [if_neg he]
        split
        · rfl
        · exact ih
  · rw [State.updEntry, State.entry, State.win_updWin_ne hw, State.entry]

theorem State.entry_unitDone_ne {a b : Nat} (h : w' ≠ w ∨ q' ≠ q) : (s.unitDone w q a b).entry w' q' = s.entry w' q' :=
  State.entry_updEntry_ne (fun _ => rfl) h

/-- A record that is complete, or is made so, is complete after a unit reports one. -/
theorem State.unit_unitDone {a b : Nat} (h : (s.entry w' q').map QEntry.unit = some true ∨ (w' = w ∧ q' = q ∧ (s.entry w' q').isSome = true)) :
    ((s.unitDone w q a b).entry w' q').map QEntry.unit = some true := by
  by_cases hq : w' = w ∧ q' = q
  · obtain ⟨rfl, rfl⟩ := hq
    have hsome : (s.entry w' q').isSome = true := by
      rcases h with h | ⟨-, -, h⟩
      · cases he : s.entry w' q' with
        | none => rw [he] at h; cases h
        | some e => rfl
      · exact h
    obtain ⟨e, he⟩ := Option.isSome_iff_exists.1 hsome
    exact State.entry_unitDone he
  · have h' := h.resolve_right fun h => hq ⟨h.1, h.2.1⟩
    rwa [State.entry_unitDone_ne (by omega)]

/-! ### Mode records (R346, R347) -/

theorem State.modePrepare_pending (hp : s.coll.prepare.isSome = true) : s.modePrepare w e = s := if_pos hp

/-- A prepare holds what was staged when its record was dispatched, for the boundary before the step it names. -/
theorem State.modePrepare_prepares (hp : s.coll.prepare = none) :
    (s.modePrepare w e).coll.prepare =
      some { win := w, seq := e.seq, epoch := Rec.w e.raw 1 63 32, step := Rec.w e.raw 2 63 0, fwActivate := Rec.w e.raw 0 59 59 == 1 } ∧
    (s.modePrepare w e).prep = (s.coll.snaps.find (recKey w e.seq)).getD s.staged ∧
    (s.modePrepare w e).rd Obj.prepEpoch = Rec.w e.raw 1 63 32 ∧ (s.modePrepare w e).rd Obj.prepStep = Rec.w e.raw 2 63 0 ∧
    (s.modePrepare w e).cmd = s.cmd := by
  unfold State.modePrepare
  rw [if_neg (by rw [hp]; decide)]
  extract_lets p key _ a b
  have hb : b.coll = a.coll ∧ b.prep = a.prep ∧ b.cmd = a.cmd := by
    unfold b
    split <;> exact ⟨rfl, rfl, rfl⟩
  obtain ⟨hcoll, hprep, hcmd⟩ := hb
  clear_value b
  refine ⟨?_, hprep, ?_, State.rd_wr_self .., hcmd⟩
  · rw [State.wr_coll, State.wr_coll, hcoll]
  · rw [State.rd_wr_ne (by decide), State.rd_wr_self]

/-- A prepare that ends is cleared, and its record is complete. -/
theorem State.endPrepare_clears {p : Prepare} {status : Nat} (hp : s.coll.prepare = some p) :
    ∃ a, s.endPrepare status = State.unitDone a p.win p.seq status 0 ∧ a.coll.prepare = none ∧ a.prep = [] ∧ a.rd Obj.prepEpoch = 0 ∧
      a.rd Obj.prepStep = 0 ∧ a.cmd = s.cmd := by
  unfold State.endPrepare
  split
  · next h => rw [hp] at h; cases h
  next p' h =>
  obtain rfl : p = p' := Option.some.inj (hp.symm.trans h)
  extract_lets _ a b
  have hb : b.coll = a.coll ∧ b.prep = a.prep ∧ b.cmd = a.cmd := by
    unfold b
    split <;> exact ⟨rfl, rfl, rfl⟩
  obtain ⟨hcoll, hprep, hcmd⟩ := hb
  clear_value b
  refine ⟨_, rfl, ?_, hprep, ?_, State.rd_wr_self .., hcmd⟩
  · rw [State.wr_coll, State.wr_coll, hcoll]
  · rw [State.rd_wr_ne (by decide), State.rd_wr_self]

theorem State.endPrepare_none {status : Nat} (hp : s.coll.prepare = none) : s.endPrepare status = s := by
  unfold State.endPrepare
  rw [hp]

/-! ### Verdicts (R353) -/

/-- The members whose digest is not that of the majority. -/
def State.oddOf (s : State) (c : Compare) : List Nat :=
  (c.copies.filter fun x => some x.2.1 != majority (s.copiesOf c) && s.isMember x.1).map Prod.fst

/-- The verdict has been told: the compare keeps the majority's digest, and shows its step and how many members are odd. -/
def State.judged (s : State) (c : Compare) : State :=
  ({ s with coll := { s.coll with compare := some { c with told := true, own := (majority (s.copiesOf c)).getD c.own } } }.wr
    Obj.lastComparedStep c.step).wr Obj.oddMembers (s.oddOf c).length

theorem State.judged_shows (s : State) (c : Compare) :
    (s.judged c).rd Obj.lastComparedStep = c.step ∧ (s.judged c).rd Obj.oddMembers = (s.oddOf c).length ∧
    (s.judged c).rd Obj.digestRepairs = s.rd Obj.digestRepairs ∧ (s.judged c).ownModule = s.ownModule ∧ (s.judged c).cmd = s.cmd ∧
    (s.judged c).coll.early = s.coll.early ∧
    (s.judged c).coll.compare = some { c with told := true, own := (majority (s.copiesOf c)).getD c.own } := by
  unfold State.judged
  generalize hv : State.mk .. = v
  have hcoll : v.coll = { s.coll with compare := some { c with told := true, own := (majority (s.copiesOf c)).getD c.own } } := by rw [← hv]
  have hrd : ∀ k, v.rd k = s.rd k := fun k => by rw [← hv]; rfl
  have hcmd : v.cmd = s.cmd := by rw [← hv]
  clear hv
  refine ⟨?_, State.rd_wr_self .., ?_, ?_, hcmd, ?_, ?_⟩
  · rw [State.rd_wr_ne (by decide), State.rd_wr_self]
  · rw [State.rd_wr_ne (by decide), State.rd_wr_ne (by decide), hrd]
  · rw [State.ownModule, State.rd_wr_ne (by decide), State.rd_wr_ne (by decide), hrd, State.ownModule]
  · rw [State.wr_coll, State.wr_coll, hcoll]
  · rw [State.wr_coll, State.wr_coll, hcoll]

theorem State.digestVerdict_told (hc : s.coll.compare = some c) (ht : c.told = false) (hin : s.copiesIn c = true) :
    s.digestVerdict = { s.verdict c with coll := { (s.verdict c).coll with early := [] } } := by
  unfold State.digestVerdict
  rw [hc]
  exact if_neg (by simp [ht, hin])

theorem State.digestVerdict_idle (hc : s.coll.compare = some c) (h : c.told = true ∨ s.copiesIn c = false) : s.digestVerdict = s := by
  unfold State.digestVerdict
  rw [hc]
  exact if_pos (h.imp_right (by simp [·]))

theorem State.digestVerdict_none (hc : s.coll.compare = none) : s.digestVerdict = s := by
  unfold State.digestVerdict
  rw [hc]

theorem State.verdict_rollback (hm : majority (s.copiesOf c) = none) : s.verdict c = (s.judged c).rollbackVerdict := by
  unfold State.verdict
  extract_lets cs v odd donor _ a b
  have hv : v = none := hm
  rw [hv]
  rfl

/-- A rollback verdict shows itself, and no step is in progress after it. -/
theorem State.rollbackVerdict_shows (s : State) :
    s.rollbackVerdict.rd Obj.lastVerdict = 3 ∧ s.rollbackVerdict.rd Obj.lastComparedStep = s.rd Obj.lastComparedStep ∧
    s.rollbackVerdict.cmd.stepNow = none ∧ s.rollbackVerdict.spans = [] := by
  unfold State.rollbackVerdict
  extract_lets a
  have hab : Clears ((s.wr Obj.lastVerdict 3).countSat Obj.digestRepairs 1) a := State.abortStep_clears
  obtain ⟨hstep, hspans, -⟩ : a.cmd.stepNow = none ∧ a.spans = [] ∧ _ :=
    State.abortStep_aborts (u := (s.wr Obj.lastVerdict 3).countSat Obj.digestRepairs 1) (cause := 0x95)
  clear_value a
  refine ⟨?_, ?_, ?_, ?_⟩
  · rw [State.rd_raise (by decide) (by decide), hab.rd_eq, State.rd_countSat_ne (by decide), State.rd_wr_self]
  · rw [State.rd_raise (by decide) (by decide), hab.rd_eq, State.rd_countSat_ne (by decide), State.rd_wr_ne (by decide)]
  · rw [State.raise_cmd, hstep]
  · rw [State.raise_spans, hspans]

/-- The checkpoint of a compare step that matched, if there is one, is shown. -/
def State.showMatched (s : State) (c : Compare) : State :=
  match ckptEntry fun k => s.rd (Obj.ckptState k) == 2 && s.rd (Obj.ckptStep k) == c.step with
  | some k => s.wr Obj.matchedCkpt (s.rd (Obj.ckptHandle k))
  | none => s

theorem State.showMatched_leaves (s : State) (c : Compare) :
    (∀ k, k ≠ Obj.matchedCkpt → (s.showMatched c).rd k = s.rd k) ∧ (s.showMatched c).cmd = s.cmd ∧ (s.showMatched c).coll = s.coll := by
  unfold State.showMatched
  split
  · exact ⟨fun k hk => State.rd_wr_ne hk, rfl, rfl⟩
  · exact ⟨fun _ _ => rfl, rfl, rfl⟩

/-- With a majority that a member holds there is a donor. -/
theorem donor_of_any {v : Nat} (ha : (c.copies.any fun x => x.2.1 == v && s.isMember x.1) = true) :
    ∃ d, ((c.copies.filter fun x => some x.2.1 == some v && s.isMember x.1).map Prod.fst).head? = some d := by
  obtain ⟨x, hx, h⟩ := List.any_eq_true.1 ha
  have hmem : x ∈ c.copies.filter fun x => some x.2.1 == some v && s.isMember x.1 := List.mem_filter.2 ⟨hx, by simpa using h⟩
  rw [List.head?_map]
  cases hl : c.copies.filter fun x => some x.2.1 == some v && s.isMember x.1 with
  | nil => rw [hl] at hmem; cases hmem
  | cons y l => exact ⟨_, rfl⟩

theorem State.verdict_match {v : Nat} (hm : majority (s.copiesOf c) = some v) (ho : s.oddOf c = [])
    (ha : (c.copies.any fun x => x.2.1 == v && s.isMember x.1) = true) (hall : (∀ x ∈ s.copiesOf c, x = v) ∨ 3 ≤ (s.copiesOf c).length) :
    s.verdict c = ((s.judged c).wr Obj.lastVerdict 1).showMatched c := by
  obtain ⟨d, hd⟩ := donor_of_any ha
  unfold State.verdict
  extract_lets cs v' odd donor _ a b
  have hv : v' = some v := hm
  have hdonor : donor = some d := by
    unfold donor
    rw [hv]
    exact hd
  rw [hv, hdonor]
  have hcond : odd = [] ∧ ((cs.all fun x => some x == some v) = true ∨ 3 ≤ cs.length) :=
    ⟨ho, hall.imp_left fun h => List.all_eq_true.2 fun x hx => by rw [h x hx]; exact beq_self_eq_true _⟩
  exact if_pos hcond

/-- What follows a repair verdict once the step is aborted: an odd member takes the state, the donor sends it. -/
def State.repaired (s : State) (c : Compare) (odd : List Nat) (d : Nat) : State :=
  if odd.contains s.ownModule then s.beOdd c.step d else if d = s.ownModule then odd.foldl (fun s m => s.sendState m) s else s

theorem State.verdict_repair {v : Nat} (hm : majority (s.copiesOf c) = some v) (ho : s.oddOf c ≠ [])
    (ha : (c.copies.any fun x => x.2.1 == v && s.isMember x.1) = true) (h3 : 3 ≤ (s.copiesOf c).length) :
    ∃ d, s.verdict c = ((((s.judged c).wr Obj.lastVerdict 2).countSat Obj.digestRepairs 1).abortStep 0x95).repaired c (s.oddOf c) d := by
  obtain ⟨d, hd⟩ := donor_of_any ha
  refine ⟨d, ?_⟩
  unfold State.verdict
  extract_lets cs v' odd donor _ a b
  have hv : v' = some v := hm
  have hdonor : donor = some d := by
    unfold donor
    rw [hv]
    exact hd
  have h1 : ¬ (odd = [] ∧ ((cs.all fun x => some x == some v) = true ∨ 3 ≤ cs.length)) := fun h => ho h.1
  have h2 : ¬ cs.length < 3 := Nat.not_lt.2 h3
  rw [hv, hdonor]
  exact (if_neg h1).trans (if_neg h2)

/-- The objects a verdict shows. -/
def verdictObjs : List Nat := [Obj.lastVerdict, Obj.lastComparedStep, Obj.oddMembers, Obj.digestRepairs]

/-- An odd member with nothing of its transfer here yet shows the verdict as before, and stands outside a step as before. -/
theorem State.beOdd_leaves {n d : Nat} (he : s.coll.early = []) :
    (∀ k ∈ verdictObjs, (s.beOdd n d).rd k = s.rd k) ∧ (s.beOdd n d).cmd.stepNow = s.cmd.stepNow := by
  unfold State.beOdd
  extract_lets past _ a ms _ b
  have ha : (∀ k ∈ verdictObjs, a.rd k = s.rd k) ∧ a.cmd = s.cmd ∧ a.coll.early = s.coll.early := by
    refine ⟨fun k hk => ?_, rfl, rfl⟩
    exact State.rd_wr_ne (by revert k; decide)
  have hms : ms = [] := ha.2.2.trans he
  obtain ⟨hobj, hcmd, -⟩ := ha
  split
  · refine ⟨fun k hk => ?_, ?_⟩
    · have hev : eventKey k = false := by revert k; decide
      have hne : k ≠ Obj.groupState := by revert k; decide
      exact (State.rd_raise hev (by decide)).trans ((State.rd_wr_ne hne).trans (hobj k hk))
    · exact congrArg CmdState.stepNow ((State.raise_cmd ..).trans hcmd)
  · rw [hms]
    exact ⟨hobj, congrArg CmdState.stepNow hcmd⟩

theorem State.repaired_leaves {odd : List Nat} {d : Nat} (h : odd.contains s.ownModule = false ∨ s.coll.early = []) :
    (∀ k ∈ verdictObjs, (s.repaired c odd d).rd k = s.rd k) ∧ (s.repaired c odd d).cmd.stepNow = s.cmd.stepNow := by
  unfold State.repaired
  split
  · next hodd => exact State.beOdd_leaves (h.resolve_left (by rw [hodd]; decide))
  · split
    · have hm : Mails s (odd.foldl (fun s m => s.sendState m) s) := .foldl fun v m _ => v.sendState_mails m
      refine ⟨fun k hk => hm.rd_eq ?_ ?_ ?_, hm.within.stepNow_eq (by decide)⟩ <;> revert k <;> decide
    · exact ⟨fun _ _ => rfl, rfl⟩

/-- Settles O18: mode records by what a prepare sets and its end clears; a verdict by the branch its copies choose, with what an abort, an odd
member and a donor leave of the objects shown. -/
theorem modeRecordsAndVerdicts : Obligations.ModeRecordsAndVerdicts := by
  unfold Obligations.ModeRecordsAndVerdicts
  refine ⟨?_, ?_, ?_, ?_, ?_, ?_, ?_, ?_, ?_, ?_, ?_⟩
  · intro s w q e he hd hu hs hk ho hp
    refine ⟨_, onUnit_runs he hd hu hs hk ho, ?_⟩
    rw [← State.entry_seq he]
    exact State.modePrepare_prepares hp
  · intro s w q e he hd hu hs hk ho hp
    exact ⟨_, onUnit_runs he hd hu hs hk ho, State.modePrepare_pending hp⟩
  · intro s w q e he hd hu hs hk ho hp
    refine ⟨_, onUnit_runs he hd hu hs hk ho, ?_⟩
    rw [State.endPrepare_none hp, State.entry_seq he]
    exact ⟨State.entry_unitDone he, rfl, rfl⟩
  · intro s w q e p he hd hu hs hk ho hp
    refine ⟨_, onUnit_runs he hd hu hs hk ho, ?_⟩
    obtain ⟨a, ha, hcoll, hprep, hepoch, hstep, hcmd⟩ := State.endPrepare_clears (status := 0x2A) hp
    rw [ha, State.entry_seq he]
    have hentry : ∀ w q, a.entry w q = s.entry w q := fun w q => State.entry_congr hcmd w q
    have hq : a.entry w q = some e := (hentry w q).trans he
    refine ⟨hcoll, hprep, hepoch, hstep, ?_, fun f hf => ?_⟩
    · by_cases h : (w : Nat) = p.win ∧ q = p.seq
      · exact State.unit_unitDone (.inl (State.unit_unitDone (.inr ⟨h.1, h.2, by rw [hq]; rfl⟩)))
      · refine State.unit_unitDone (.inr ⟨rfl, rfl, ?_⟩)
        rw [State.entry_unitDone_ne (by omega), hq]
        rfl
    · exact State.unit_unitDone (.inl (State.unit_unitDone (.inr ⟨rfl, rfl, by rw [hentry, hf]; rfl⟩)))
  · intro s c v hc ht hin hm hodd hany hall
    have ho : s.oddOf c = [] := by
      rw [State.oddOf, hm, hodd]
      rfl
    refine ⟨_, congrArg Host.Outcome.next (State.digestVerdict_told hc ht hin), ?_⟩
    rw [State.verdict_match hm ho hany hall]
    obtain ⟨hstep, hmembers, -, -, hcmd, -, hcompare⟩ := s.judged_shows c
    generalize s.judged c = a at hstep hmembers hcmd hcompare
    obtain ⟨hobj, hcmd', hcoll⟩ := (a.wr Obj.lastVerdict 1).showMatched_leaves c
    generalize (a.wr Obj.lastVerdict 1).showMatched c = b at hobj hcmd' hcoll
    refine ⟨?_, ?_, ?_, hcmd'.trans hcmd, ?_⟩
    · exact (hobj _ (by decide)).trans (State.rd_wr_self ..)
    · exact (hobj _ (by decide)).trans ((State.rd_wr_ne (by decide)).trans hstep)
    · exact (hobj _ (by decide)).trans ((State.rd_wr_ne (by decide)).trans (hmembers.trans (congrArg List.length ho)))
    · exact (congrArg CollState.compare hcoll).trans (hcompare.trans (by rw [hm]; rfl))
  · intro s c hc ht hin hm
    refine ⟨_, congrArg Host.Outcome.next (State.digestVerdict_told hc ht hin), ?_⟩
    rw [State.verdict_rollback hm]
    obtain ⟨hstep, -, -, -, -, -, -⟩ := s.judged_shows c
    generalize s.judged c = a at hstep
    obtain ⟨h1, h2, h3, h4⟩ := a.rollbackVerdict_shows
    generalize a.rollbackVerdict = b at h1 h2 h3 h4
    exact ⟨h1, h2.trans hstep, h3, h4⟩
  · intro s c v hc ht hin hm hany hodd h3 hown
    obtain ⟨d, hv⟩ := State.verdict_repair hm hodd hany h3
    refine ⟨_, congrArg Host.Outcome.next (State.digestVerdict_told hc ht hin), ?_⟩
    rw [hv]
    obtain ⟨hstep, hmembers, hrepairs, howner, -, hearly, -⟩ := s.judged_shows c
    generalize s.judged c = a at hstep hmembers hrepairs howner hearly
    have hab := State.abortStep_clears (s := (a.wr Obj.lastVerdict 2).countSat Obj.digestRepairs 1) (cause := 0x95)
    have hno := (State.abortStep_aborts (u := (a.wr Obj.lastVerdict 2).countSat Obj.digestRepairs 1) (cause := 0x95)).1
    generalize ((a.wr Obj.lastVerdict 2).countSat Obj.digestRepairs 1).abortStep 0x95 = b at hab hno
    have hb : b.rd Obj.lastVerdict = 2 ∧ b.rd Obj.lastComparedStep = c.step ∧ b.rd Obj.oddMembers = (s.oddOf c).length ∧
        b.rd Obj.digestRepairs = min (s.rd Obj.digestRepairs + 1) (2 ^ 32 - 1) ∧ b.ownModule = s.ownModule ∧ b.coll.early = s.coll.early := by
      refine ⟨?_, ?_, ?_, ?_, ?_, ?_⟩
      · rw [hab.rd_eq, State.rd_countSat_ne (by decide), State.rd_wr_self]
      · rw [hab.rd_eq, State.rd_countSat_ne (by decide), State.rd_wr_ne (by decide), hstep]
      · rw [hab.rd_eq, State.rd_countSat_ne (by decide), State.rd_wr_ne (by decide), hmembers]
      · rw [hab.rd_eq, State.rd_countSat_self, State.rd_wr_ne (by decide), hrepairs]
      · rw [State.ownModule, hab.rd_eq, State.rd_countSat_ne (by decide), State.rd_wr_ne (by decide)]
        exact howner
      · exact (hab.coll_eq (·.early)).trans hearly
    obtain ⟨hverdict, hstep', hmembers', hrepairs', howner', hearly'⟩ := hb
    obtain ⟨hobj, hnow⟩ := b.repaired_leaves (c := c) (odd := s.oddOf c) (d := d) (by rw [howner', hearly']; exact hown)
    generalize b.repaired c (s.oddOf c) d = r at hobj hnow
    exact ⟨(hobj _ (by decide)).trans hverdict, (hobj _ (by decide)).trans hstep', (hobj _ (by decide)).trans hmembers',
      (hobj _ (by decide)).trans hrepairs', hnow.trans hno⟩
  · intro s c hc h
    exact ⟨_, congrArg Host.Outcome.next (State.digestVerdict_idle hc h), rfl⟩
  · intro s hc
    exact ⟨_, congrArg Host.Outcome.next (State.digestVerdict_none hc), rfl⟩
  · intro s w q h
    exact ⟨_, onUnit_idle h, rfl⟩
  · intro s w q h
    exact ⟨_, onUnit_idle h, rfl⟩

end Sys2Proof.Machine
end

section
/-! SUPPORT. What the collective engine keeps of a record as it works on it (R338 to R341), and what the wait for equal epochs changes (R349). -/
namespace Sys2Proof.Machine

variable {s t u v : State} {k key n c rank part w q : Nat} {bs : Bytes} {j i : Job}

/-! ### The wait for equal epochs (R349) -/

/-- What the group holds apart from its wait for equal epochs. -/
def CollState.offWait (c : CollState) : CollState := { c with agreedFor := none, differing := [], stallFrom := none }

/-- `t` comes of `s` by waiting for equal epochs, or by ending the wait: what the group holds beside, the windows, the spans and the tiers stand. -/
structure Waits (s t : State) : Prop where
  coll : t.coll.offWait = s.coll.offWait
  cmd : t.cmd = s.cmd
  spans : t.spans = s.spans
  tier : t.tier = s.tier

namespace Waits

theorem refl (s : State) : Waits s s := ⟨rfl, rfl, rfl, rfl⟩

theorem trans (h : Waits s t) (h' : Waits t u) : Waits s u :=
  ⟨h'.coll.trans h.coll, h'.cmd.trans h.cmd, h'.spans.trans h.spans, h'.tier.trans h.tier⟩

theorem coll_eq {α : Type} (h : Waits s t) (f : CollState → α) (hf : ∀ c : CollState, f c.offWait = f c := by exact fun _ => rfl) :
    f t.coll = f s.coll := by rw [← hf t.coll, h.coll, hf]

theorem jobs (h : Waits s t) : t.coll.jobs = s.coll.jobs := h.coll_eq (·.jobs)

theorem job (h : Waits s t) (k : Nat) : t.job k = s.job k := by rw [State.job, State.job, h.jobs]

theorem entry (h : Waits s t) (w q : Nat) : t.entry w q = s.entry w q := State.entry_congr h.cmd w q

end Waits

theorem State.endStall_waits : Waits s s.endStall := by
  unfold State.endStall
  extract_lets a b
  have ha : Waits s a := by
    unfold a
    split <;> exact ⟨rfl, rfl, rfl, rfl⟩
  have hb : Waits a b := by
    unfold b
    split <;> exact ⟨rfl, rfl, rfl, rfl⟩
  have h := ha.trans hb
  clear_value b
  exact h.trans ⟨rfl, rfl, rfl, rfl⟩

theorem State.modeMatched_waits : Waits s (s.modeMatched n) := by
  unfold State.modeMatched
  extract_lets a
  have ha : Waits s a := State.endStall_waits
  clear_value a
  exact ha.trans ⟨rfl, rfl, rfl, rfl⟩

theorem State.modeMismatch_waits {m a b : Nat} : Waits s (s.modeMismatch m a b) := by
  unfold State.modeMismatch
  extract_lets v x
  have hv : Waits s v := by
    unfold v
    split <;> exact ⟨rfl, rfl, rfl, rfl⟩
  have hx : Waits v x := ⟨congrArg CollState.offWait (State.raiseOnce_coll ..), State.raiseOnce_cmd .., State.raiseOnce_spans ..,
    State.raiseOnce_tier ..⟩
  have h := hv.trans hx
  clear_value x
  split
  · exact h
  · exact h.trans ⟨rfl, rfl, rfl, rfl⟩

theorem State.epochWait_waits (s : State) (n : Nat) : Waits s (s.epochWait n).1 := by
  unfold State.epochWait
  split
  · exact .refl s
  · split
    · exact State.modeMatched_waits
    · split
      · exact State.modeMismatch_waits
      · split
        · exact State.modeMatched_waits
        · exact .refl s

/-- Until the epochs agree, a collective's command only waits. -/
theorem onColl_waits {w : Fin 8} {op : Nat} {f : State → QEntry → State} {e : QEntry} (he : s.entry w q = some e) (hd : e.disp = true)
    (hu : e.unit = false) (hs : e.skip = false) (hk : Rec.kind e.raw = 6) (ho : Rec.op e.raw = op)
    (hg : (s.epochWait (e.step.getD 0)).2 = false) : onColl w q op s f = .next (s.epochWait (e.step.getD 0)).1 := by
  rw [onColl, onUnit_runs he hd hu hs hk ho]
  simp [hg]

/-! ### What neither jobs nor windows see -/

/-- Tiles, spans, and memory with its tables. -/
def sideScope : Scope := ⟨[.scratch, .castMem, .tile, .spans, .touches, .mem, .tier], fun _ => True⟩

theorem Within.side_coll (h : Within sideScope s t) : t.coll = s.coll := (h.same .coll).resolve_left (by decide)

theorem Within.side_cmd (h : Within sideScope s t) : t.cmd = s.cmd := (h.mono (by decide) fun _ _ => trivial).cmd_eq

theorem State.tally_side {m : Option Nat} {a b d : Nat} {x y : List Cls} : Within sideScope s (s.inStep m fun s => s.tally a b d x y) :=
  State.inStep_within (by decide) (fun _ h => State.tally_within (by decide) h trivial trivial trivial trivial) (.refl _ s)

theorem State.writable_side {ps : List (Nat × Nat)} {b : Bool} (h : s.writable key ps = (v, b)) : Within sideScope s v :=
  .pair (State.writable_within (by decide) (.refl _ s) trivial) h

theorem State.regionWrite_side {h b : Nat} : Within sideScope s (s.regionWrite h b bs) :=
  State.regionWrite_within (by decide) (by decide) (.refl _ s)

theorem State.putBytes_side {x : Nat} {b : Bool} {l : List (Nat × Nat)} : Within sideScope s (s.putBytes x b l) :=
  State.putBytes_within (by decide) (by decide) (.refl _ s)

theorem State.touchSums_side {lo hi : Nat} : Within sideScope s (s.touchSums j lo hi) :=
  State.touchSums_within (by decide) (by decide) (.refl _ s)

/-- A message of a job, kept or not, goes out; jobs, counters and windows stand. -/
theorem State.sendJob_mails {rank ty ix ct : Nat} : Mails s (s.sendJob key j rank ty ix ct bs) := by
  unfold State.sendJob
  extract_lets dst m x _ a
  have ha : Mails s a := by
    unfold a
    split
    · exact ⟨rfl, fun _ => id, Within.setColl (by decide) (.refl _ s)⟩
    · exact .refl s
  exact ha.trans (a.send_mails dst m)

theorem Mails.cmd_eq (h : Mails s t) : t.cmd = s.cmd := (h.within.mono (by decide) fun _ _ => trivial).cmd_eq

theorem State.sendJobs_mails {rs : List Nat} {f : Nat → Nat} {ty ix ct : Nat} :
    Mails s (rs.foldl (fun s r => s.sendJob key j (f r) ty ix ct bs) s) := .foldl fun _ _ _ => State.sendJob_mails

/-! ### A reduce goes on (R338 to R341) -/

/-- What stays of a job as its messages come: all but what they fill. -/
def Job.plan (j : Job) : Job := { j with chunks := [], heard := 0, inputs := [], result := none, countIn := [], countOut := [] }

/-- A record that has started and not retired in `s` goes on in `t`, as it was planned. -/
def Pursues (key : Nat) (s t : State) : Prop :=
  ∀ j, s.job key = some j → j.kept = none → ∃ j', t.job key = some j' ∧ j'.plan = j.plan

namespace Pursues

theorem refl (key : Nat) (s : State) : Pursues key s s := fun j hj _ => ⟨j, hj, rfl⟩

theorem trans (h : Pursues key s t) (h' : Pursues key t u) : Pursues key s u := fun j hj hk => by
  obtain ⟨j₁, hj₁, e₁⟩ := h j hj hk
  have hk₁ : j₁.kept = none := (congrArg Job.kept e₁).trans hk
  obtain ⟨j₂, hj₂, e₂⟩ := h' j₁ hj₁ hk₁
  exact ⟨j₂, hj₂, e₂.trans e₁⟩

theorem ite {p : Prop} [Decidable p] (ht : Pursues key s t) (hu : Pursues key s u) : Pursues key s (if p then t else u) := by
  split <;> assumption

theorem foldl {α : Type} {f : State → α → State} {l : List α} (hf : ∀ v a, Pursues key v (f v a)) : Pursues key s (l.foldl f s) :=
  List.foldlRecOn (motive := fun v => Pursues key s v) _ _ (.refl key s) fun v hv a _ => hv.trans (hf v a)

theorem ofColl (h : t.coll = s.coll) : Pursues key s t := fun j hj _ => ⟨j, by rwa [State.job, h], rfl⟩

theorem ofMails (h : Mails s t) : Pursues key s t := fun j hj _ => ⟨j, by rw [State.job, h.coll_eq (·.jobs)]; exact hj, rfl⟩

theorem putJob (hj : s.job key = some j) (hp : i.plan = j.plan) : Pursues key s (s.putJob key i) := fun _ hj' _ =>
  ⟨i, Tab.find_insert_self .., hp.trans (congrArg Job.plan (Option.some.inj (hj.symm.trans hj')))⟩

theorem setChunk {x : Chunk} (hj : s.job key = some j) : Pursues key s (s.putJob key (j.setChunk c x)) := putJob hj rfl

end Pursues

theorem State.job_side (h : t.coll = s.coll) : t.job key = s.job key := by rw [State.job, State.job, h]

theorem State.reduceDone_pursues : Pursues key s (s.reduceDone key) := by
  unfold State.reduceDone
  split
  · exact .refl key s
  · exact .ite (.ofColl rfl) (.refl key s)

theorem State.landChunk_pursues : Pursues key s (s.landChunk key c) := by
  unfold State.landChunk
  split
  · exact .refl key s
  · next j hj =>
    extract_lets d x need bs pages ps
    refine .ite (.refl key s) ?_
    split
    · next hw => exact .ofColl (State.writable_side hw).side_coll
    · next v hw =>
      have hv : v.coll = s.coll := (State.writable_side hw).side_coll
      extract_lets r
      have hr : r.coll = v.coll := List.foldlRecOn (motive := fun x : State => x.coll = v.coll) _ _ rfl fun x hx p _ =>
        State.regionWrite_side.side_coll.trans hx
      have hrj : r.job key = some j := (State.job_side (hr.trans hv)).trans hj
      clear_value r
      exact (Pursues.ofColl (hr.trans hv)).trans ((Pursues.setChunk hrj).trans State.reduceDone_pursues)

theorem State.takeResult_pursues : Pursues key s (s.takeResult key c part bs) := by
  unfold State.takeResult
  split
  · exact .refl key s
  · next hj => exact .ite (.ofColl rfl) ((Pursues.setChunk hj).trans State.landChunk_pursues)

theorem State.readout_pursues : Pursues key s (s.readout key c) := by
  unfold State.readout
  split
  · exact .refl key s
  · extract_lets d x sw val rows s1 map code lo hi s2 bs s3
    have h1 : Pursues key s s1 := .ofColl State.tally_side.side_coll
    have h2 : Pursues key s1 s2 := .ite (.refl key s1) (.ofMails (.foldl fun _ _ _ => State.sendJob_mails.trans State.sendJob_mails))
    have h3 : Pursues key s1 s3 := .ite (.refl key s1) (.ofMails State.sendJobs_mails)
    exact .ite ((h1.trans h2).trans (State.takeResult_pursues.trans State.takeResult_pursues)) ((h1.trans h3).trans State.takeResult_pursues)

theorem State.takeData_pursues : Pursues key s (s.takeData key c rank bs) := by
  unfold State.takeData
  split
  · exact .refl key s
  · next hj =>
    extract_lets x n vs old x' s1
    have h1 : Pursues key s s1 := .setChunk hj
    exact .ite (.ofColl rfl) (h1.trans (.ite State.readout_pursues (.refl key s1)))

theorem State.wireOne_pursues : Pursues key s (s.wireOne key c bs) := by
  unfold State.wireOne
  split
  · exact .refl key s
  · next j hj =>
    extract_lets x d cs s1 s2 bs s3
    have h1 : s1.coll = s.coll := State.touchSums_side.side_coll
    have h2 : s2.coll = s1.coll := State.tally_side.side_coll
    have hj2 : s2.job key = some j := (State.job_side (h2.trans h1)).trans hj
    have h3 : Pursues key s s3 := (Pursues.ofColl (h2.trans h1)).trans (.setChunk hj2)
    exact .ite (.refl key s) (h3.trans (.ite State.takeData_pursues (.ofMails State.sendJob_mails)))

theorem State.sweepJob_pursues : Pursues key s (s.sweepJob key) := by
  unfold State.sweepJob
  split
  · next j hj =>
    split
    · next hd =>
      intro j' hj' hk
      rw [Option.some.inj (hj.symm.trans hj'), hk] at hd
      exact absurd hd.1 (by decide)
    · exact .refl key s
  · exact .refl key s

theorem State.takeAgreed_pursues : Pursues key s (s.takeAgreed key n bs) := by
  unfold State.takeAgreed
  split
  · exact .refl key s
  · exact (Pursues.foldl fun _ _ => State.wireOne_pursues).trans State.sweepJob_pursues

theorem State.takeExps_pursues : Pursues key s (s.takeExps key n rank bs) := by
  unfold State.takeExps
  split
  · exact .refl key s
  · next j hj =>
    extract_lets j' s1 out s2
    have hplan : j'.plan = j.plan := List.foldlRecOn (motive := fun i : Job => i.plan = j.plan) _ _ rfl fun i hi _ _ => hi
    have h1 : Pursues key s s1 := .putJob hj hplan
    have h2 : Pursues key s1 s2 := .ofMails State.sendJobs_mails
    exact .ite (.refl key s) (h1.trans (.ite (h2.trans State.takeAgreed_pursues) (.refl key s1)))

/-! ### Gathers, agree and scalar records go on or are done (R340) -/

/-- The record of a key is there, and it goes on or is done. -/
def State.Underway (s : State) (key : Nat) : Prop :=
  (s.entry (key / 2 ^ 32) (key % 2 ^ 32)).isSome = true ∧
    ((s.job key).isSome = true ∨ (s.entry (key / 2 ^ 32) (key % 2 ^ 32)).map QEntry.unit = some true)

/-- The records of each op started in the step, by number. -/
def CollState.started (c : CollState) : Nat × Nat × Nat := (c.agrees, c.scalars, c.gathers)

/-- `t` comes of `s` by work on a record: it stays underway, and no other starts. -/
structure Carries (key : Nat) (s t : State) : Prop where
  started : t.coll.started = s.coll.started
  under : s.Underway key → t.Underway key

namespace Carries

theorem refl (key : Nat) (s : State) : Carries key s s := ⟨rfl, id⟩

theorem trans (h : Carries key s t) (h' : Carries key t u) : Carries key s u := ⟨h'.started.trans h.started, h'.under ∘ h.under⟩

theorem ite {p : Prop} [Decidable p] (ht : Carries key s t) (hu : Carries key s u) : Carries key s (if p then t else u) := by
  split <;> assumption

theorem foldl {α : Type} {f : State → α → State} {l : List α} (hf : ∀ v a, Carries key v (f v a)) : Carries key s (l.foldl f s) :=
  List.foldlRecOn (motive := fun v => Carries key s v) _ _ (.refl key s) fun v hv a _ => hv.trans (hf v a)

/-- The records that have started and the windows are as before. -/
theorem beside (hj : t.coll.jobs = s.coll.jobs) (hc : t.coll.started = s.coll.started) (hw : t.cmd = s.cmd) : Carries key s t :=
  ⟨hc, fun h => by rwa [State.Underway, State.entry_congr hw, State.job, hj]⟩

theorem side (h : Within sideScope s t) : Carries key s t :=
  beside (congrArg CollState.jobs h.side_coll) (congrArg CollState.started h.side_coll) h.side_cmd

theorem ofMails (h : Mails s t) : Carries key s t := beside (h.coll_eq (·.jobs)) (h.coll_eq CollState.started) h.cmd_eq

theorem putJob (i : Job) : Carries key s (s.putJob key i) :=
  ⟨rfl, fun h => ⟨h.1, .inl (by rw [State.job, State.putJob, Tab.find_insert_self]; rfl)⟩⟩

/-- A record that is done leaves the engine. -/
theorem dropDone {a b : Nat} : Carries key s ((s.dropJob key).unitDone (key / 2 ^ 32) (key % 2 ^ 32) a b) :=
  ⟨rfl, fun h => by
    obtain ⟨e, he⟩ := Option.isSome_iff_exists.1 h.1
    have he' : (s.dropJob key).entry (key / 2 ^ 32) (key % 2 ^ 32) = some e := he
    exact ⟨by rw [State.entry_unitDone_eq he']; rfl, .inr (State.entry_unitDone he')⟩⟩

end Carries

theorem State.agreeDone_carries : Carries key s (s.agreeDone key bs) := by
  unfold State.agreeDone
  split
  · exact .refl key s
  · exact (Carries.side State.putBytes_side).trans .dropDone

theorem State.takeAgree_carries : Carries key s (s.takeAgree key rank bs) := by
  unfold State.takeAgree
  split
  · exact .refl key s
  · extract_lets j s1 out s2
    have h1 : Carries key s s1 := .putJob _
    have h2 : Carries key s1 s2 := .ofMails State.sendJobs_mails
    exact .ite (.beside rfl rfl rfl) (h1.trans (.ite (h2.trans State.agreeDone_carries) (.refl key s1)))

theorem State.scalarDone_carries : Carries key s (s.scalarDone key) := by
  unfold State.scalarDone
  split
  · exact .refl key s
  · extract_lets d _ s1
    have h1 : Carries key s s1 := .ite (.beside rfl rfl rfl) (.refl key s)
    exact .ite (.refl key s) (h1.trans .dropDone)

theorem State.scalarResult_carries : Carries key s (s.scalarResult key bs) := by
  unfold State.scalarResult
  split
  · exact .refl key s
  · extract_lets d s1 _ s2
    have h1 : Carries key s s1 := .side State.putBytes_side
    have h2 : Carries key s1 s2 := .ite (.beside rfl rfl rfl) (.refl key s1)
    exact .ite (.beside rfl rfl rfl) ((h1.trans h2).trans ((Carries.putJob _).trans State.scalarDone_carries))

theorem State.takeScalar_carries : Carries key s (s.takeScalar key rank bs) := by
  unfold State.takeScalar
  split
  · exact .refl key s
  · extract_lets d j s1 cs s2 out s3
    have h1 : Carries key s s1 := .putJob _
    have h2 : Carries key s1 s2 := .side State.tally_side
    have h3 : Carries key s2 s3 := .ofMails State.sendJobs_mails
    exact .ite (.beside rfl rfl rfl) (h1.trans (.ite ((h2.trans h3).trans State.scalarResult_carries) (.refl key s1)))

theorem State.takeCountOut_carries : Carries key s (s.takeCountOut key n bs) := by
  unfold State.takeCountOut
  split
  · exact .refl key s
  · exact .ite (.beside rfl rfl rfl) ((Carries.putJob _).trans State.scalarDone_carries)

theorem State.takeCountIn_carries : Carries key s (s.takeCountIn key n rank bs) := by
  unfold State.takeCountIn
  split
  · exact .refl key s
  · extract_lets j s1 mine out s2
    have h1 : Carries key s s1 := .putJob _
    have h2 : Carries key s1 s2 := .ofMails State.sendJobs_mails
    exact .ite (.beside rfl rfl rfl) (h1.trans (.ite (h2.trans State.takeCountOut_carries) (.refl key s1)))

theorem State.gatherDone_carries : Carries key s (s.gatherDone key) := by
  unfold State.gatherDone
  split
  · exact .refl key s
  · exact .ite .dropDone (.refl key s)

theorem State.landPiece_carries : Carries key s (s.landPiece key n) := by
  unfold State.landPiece
  split
  · exact .refl key s
  · refine .ite (.refl key s) ?_
    split
    · next hw => exact .side (State.writable_side hw)
    · next hw =>
      exact (Carries.side (State.writable_side hw)).trans ((Carries.side State.regionWrite_side).trans
        ((Carries.putJob _).trans State.gatherDone_carries))

theorem State.takeGather_carries : Carries key s (s.takeGather key rank n bs) := by
  unfold State.takeGather
  split
  · exact .refl key s
  · exact .ite (.beside rfl rfl rfl) ((Carries.putJob _).trans State.landPiece_carries)

theorem State.scalarCounts_carries {x : Tab Counts} : Carries key s (s.scalarCounts key j x) :=
  .foldl fun _ _ => .ite State.takeCountIn_carries (.ofMails State.sendJob_mails)

theorem State.scalarValues_carries : Carries key s (s.scalarValues key j n bs) :=
  .ite State.takeScalar_carries (.ofMails State.sendJob_mails)

end Sys2Proof.Machine
end

section
/-! SUPPORT. O19: collective records start. -/
namespace Sys2Proof.Machine

variable {s t u v : State} {k key n w q : Nat} {j : Job} {e : QEntry} {x : Span}

theorem recKey_parts (hq : q < 2 ^ 32) : recKey w q / 2 ^ 32 = w ∧ recKey w q % 2 ^ 32 = q := by
  rw [recKey]
  omega

/-- A record that has started is under way or done after further work on it. -/
theorem Carries.started_or_done (h : Carries (recKey w q) v u) (hj : (v.job (recKey w q)).isSome = true) (he : (v.entry w q).isSome = true)
    (hq : q < 2 ^ 32) : (u.job (recKey w q)).isSome = true ∨ (u.entry w q).map QEntry.unit = some true := by
  obtain ⟨h1, h2⟩ := recKey_parts (w := w) hq
  have hv : v.Underway (recKey w q) := ⟨by rw [h1, h2]; exact he, .inl hj⟩
  have hu := (h.under hv).2
  rwa [h1, h2] at hu

/-! ### Opening a span (R336) -/

/-- A record that opens a span finds it open already, or opens it empty. -/
theorem State.openSpan_opens : ∃ x, (s.openSpan w e).spans.find (coOf e.raw).span = some x ∧ (s.spans.find (coOf e.raw).span = none →
    x.blocks = (coOf e.raw).len ∧ x.uLoc = (coOf e.raw).uLoc ∧ x.sums = [] ∧ x.win = w ∧ x.seq = e.seq) := by
  unfold State.openSpan
  dsimp only
  split
  · next h =>
    obtain ⟨x, hx⟩ := Option.isSome_iff_exists.1 h
    exact ⟨x, hx, fun hn => by rw [hx] at hn; cases hn⟩
  · exact ⟨_, Tab.find_insert_self .., fun _ => ⟨rfl, rfl, rfl, rfl, rfl⟩⟩

theorem State.openSpan_cmd : (s.openSpan w e).cmd = s.cmd := by
  unfold State.openSpan
  extract_lets d
  split <;> rfl

/-! ### The least recently touched sum page (R336) -/

/-- The one of two pages that was touched earlier; the first of equals. -/
def earlier (b : Option (Nat × Nat × Nat)) (p : Nat × Nat × Nat) : Option (Nat × Nat × Nat) :=
  match b with
  | none => some p
  | some x => if p.1 < x.1 then some p else some x

theorem foldl_earlier {l : List (Nat × Nat × Nat)} {a b : Nat × Nat × Nat} (h : l.foldl earlier (some a) = some b) :
    (b = a ∨ b ∈ l) ∧ b.1 ≤ a.1 ∧ ∀ y ∈ l, b.1 ≤ y.1 := by
  induction l generalizing a with
  | nil =>
    obtain rfl := Option.some.inj h
    exact ⟨.inl rfl, Nat.le_refl _, fun _ hy => by cases hy⟩
  | cons p l ih =>
    rw [List.foldl_cons, earlier] at h
    split at h
    · next hlt =>
      obtain ⟨h1, h2, h3⟩ := ih h
      refine ⟨.inr (List.mem_cons.2 h1), by omega, fun y hy => ?_⟩
      rcases List.mem_cons.1 hy with rfl | hy
      · exact h2
      · exact h3 y hy
    · next hlt =>
      obtain ⟨h1, h2, h3⟩ := ih h
      refine ⟨h1.imp_right (List.mem_cons_of_mem _), h2, fun y hy => ?_⟩
      rcases List.mem_cons.1 hy with rfl | hy
      · omega
      · exact h3 y hy

theorem foldl_earlier_some (l : List (Nat × Nat × Nat)) (a : Nat × Nat × Nat) : ∃ b, l.foldl earlier (some a) = some b := by
  induction l generalizing a with
  | nil => exact ⟨a, rfl⟩
  | cons p l ih =>
    rw [List.foldl_cons, earlier]
    split
    · exact ih p
    · exact ih a

/-- A list that is not empty has a page touched least recently. -/
theorem foldl_earlier_least {l : List (Nat × Nat × Nat)} (hl : l ≠ []) :
    ∃ b, l.foldl earlier none = some b ∧ b ∈ l ∧ ∀ y ∈ l, b.1 ≤ y.1 := by
  obtain ⟨a, l, rfl⟩ := List.exists_cons_of_ne_nil hl
  obtain ⟨b, hb⟩ := foldl_earlier_some l a
  obtain ⟨h1, h2, h3⟩ := foldl_earlier hb
  refine ⟨b, hb, List.mem_cons.2 h1, fun y hy => ?_⟩
  rcases List.mem_cons.1 hy with rfl | hy
  · exact h2
  · exact h3 y hy

theorem State.sumEvict_evicts (h : 1024 ≤ s.bufferPages.length) :
    (∃ b ∈ s.bufferPages, (∀ y ∈ s.bufferPages, b.1 ≤ y.1) ∧
      ∀ x, s.spans.find b.2.1 = some x → s.sumEvict.spans.find b.2.1 = some { x with evicted := setIns x.evicted b.2.2 }) ∧
    s.sumEvict.tier = s.tier := by
  obtain ⟨b, hb, hmem, hmin⟩ := foldl_earlier_least (l := s.bufferPages) (fun h' => by rw [h'] at h; exact absurd h (by decide))
  unfold State.sumEvict
  rw [if_neg (Nat.not_lt.2 h)]
  split
  · next a n p hp =>
    obtain rfl : b = (a, n, p) := Option.some.inj (hb.symm.trans hp)
    split
    · next x hx =>
      refine ⟨⟨_, hmem, hmin, fun y hy => ?_⟩, rfl⟩
      obtain rfl : x = y := Option.some.inj (hx.symm.trans hy)
      exact Tab.find_insert_self ..
    · next hx => exact ⟨⟨_, hmem, hmin, fun y hy => by rw [hx] at hy; cases hy⟩, rfl⟩
  · next hp => exact absurd (hb.symm.trans hp) (Option.some_ne_none b)

theorem State.sumEvict_idle (h : s.bufferPages.length < 1024) : s.sumEvict = s := if_pos h

/-! ### A reduce starts (R338) -/

/-- Does a product of an earlier record still add to a reduce's span? -/
def State.adding (s : State) (e : QEntry) : Bool :=
  s.running.any fun p => Rec.kind p.2.raw == 1 && !p.2.skip && decide (p.2.order < e.order) && (mxOf p.2.raw).dest == 2 &&
    (mxOf p.2.raw).oOff % 1024 == (coOf e.raw).span

theorem State.reduce_starts (hx : s.spans.find (coOf e.raw).span = some x) (ha : s.adding e = false) (hj : s.job (recKey w e.seq) = none) :
    ∃ u : State, (∃ j, u.job (recKey w e.seq) = some j ∧ j.op = 1 ∧ j.raw = e.raw ∧ j.blocks = x.blocks ∧ j.step = e.step.getD 0) ∧
      s.reduce w e = u.openInbox.reduceDone (recKey w e.seq) := by
  unfold State.reduce
  extract_lets d key add
  split
  · next h => rw [hx] at h; cases h
  next x' h =>
  obtain rfl : x = x' := Option.some.inj (hx.symm.trans h)
  have hadd : add = false := ha
  have hno : ¬ (add = true ∨ (s.job key).isSome = true) := by
    rw [hadd, hj]
    decide
  rw [if_neg hno]
  extract_lets j s1 n s2
  refine ⟨s2, ?_, rfl⟩
  have h1 : s1.job key = some j := (State.job_side State.touchSums_side.side_coll).trans (Tab.find_insert_self ..)
  have h2 : Pursues key s1 s2 := .foldl fun _ _ => .foldl fun _ _ => .ite State.takeExps_pursues (.ofMails State.sendJob_mails)
  obtain ⟨j', hj', hplan⟩ := h2 j h1 rfl
  exact ⟨j', hj', (congrArg Job.op hplan :), (congrArg Job.raw hplan :), (congrArg Job.blocks hplan :), (congrArg Job.step hplan :)⟩

theorem State.reduce_idle (h : s.spans.find (coOf e.raw).span = none ∨ s.adding e = true ∨ (s.job (recKey w e.seq)).isSome = true) :
    s.reduce w e = s := by
  unfold State.reduce
  extract_lets d key add
  split
  · rfl
  · next h' =>
    rw [h'] at h
    have hyes : add = true ∨ (s.job key).isSome = true := h.resolve_left nofun
    exact if_pos hyes

/-! ### Gathers (R340) -/

/-- A gather asks for the pages of its own part, where it has one. -/
def State.askSource (s : State) (key : Nat) (d : Co) : State × Access :=
  if d.root = 0x1FF ∨ d.root = s.ownRank then s.access key 1 d.srcH (pagesOf d.srcOff d.part) else (s, .ready)

/-- It asks for the pages that the parts go to as well. -/
def State.askGather (s : State) (key : Nat) (d : Co) : State × Access :=
  (s.askSource key d).1.access key 1 d.gDstH (pagesOf d.gDstOff (d.part * (d.senders (s.askSource key d).1.groupN).length))

/-- `t` comes of `s` by asking for pages: the group, the windows and the memory stand. -/
structure AsksOnly (s t : State) : Prop where
  coll : t.coll = s.coll
  cmd : t.cmd = s.cmd
  mem : t.tier.mem = s.tier.mem

theorem State.access_only {h : Nat} {ps : List Nat} : AsksOnly s (s.access key n h ps).1 :=
  have hw : Within pageTables s (s.access key n h ps).1 := State.access_within (by decide) (.refl _ s) rfl
  have ha : Asks s (s.access key n h ps).1 := State.access_asks
  ⟨(hw.same .coll).resolve_left (by decide), ha.cmd, ha.mem⟩

theorem State.askSource_only {d : Co} : AsksOnly s (s.askSource key d).1 := by
  unfold State.askSource
  split
  · exact State.access_only
  · exact ⟨rfl, rfl, rfl⟩

theorem State.askGather_only {d : Co} : AsksOnly s (s.askGather key d).1 :=
  have h1 : AsksOnly s (s.askSource key d).1 := State.askSource_only
  have h2 : AsksOnly (s.askSource key d).1 (s.askGather key d).1 := State.access_only
  ⟨h2.coll.trans h1.coll, h2.cmd.trans h1.cmd, h2.mem.trans h1.mem⟩

/-- A gather whose pages are not at hand, or that has started, only asks for pages. -/
theorem State.gatherOut_waits (h : (s.askSource (recKey w e.seq) (coOf e.raw)).2 = .waiting ∨
    (s.askGather (recKey w e.seq) (coOf e.raw)).2 = .waiting ∨ (s.job (recKey w e.seq)).isSome = true) : AsksOnly s (s.gatherOut w e) := by
  unfold State.gatherOut
  extract_lets d key sends
  split
  next s1 a h1 =>
  have h1' : s.askSource key d = (s1, a) := h1
  have ha1 : AsksOnly s s1 := by
    rw [← show (s.askSource key d).1 = s1 by rw [h1']]
    exact State.askSource_only
  split
  · exact ha1
  next hready =>
  split
  next s2 b h2 =>
  have h2' : s.askGather key d = (s2, b) := by
    rw [State.askGather, h1']
    exact h2
  have ha2 : AsksOnly s s2 := by
    rw [← show (s.askGather key d).1 = s2 by rw [h2']]
    exact State.askGather_only
  have hcond : b = .waiting ∨ (s2.job key).isSome = true := by
    rw [State.job, ha2.coll]
    rcases h with h | h | h
    · exact absurd (by rw [← h, h1']) hready
    · exact .inl (by rw [← h, h2'])
    · exact .inr h
  rw [if_pos hcond]
  exact ha2

theorem State.hitStatus_coll {h : Nat} : (s.hitStatus w q h).coll = s.coll :=
  have hw : Within ⟨[.cmd], fun _ => True⟩ s (s.hitStatus w q h) := State.hitStatus_within (by decide) (.refl _ s)
  (hw.same .coll).resolve_left (by decide)

/-- A gather with its pages at hand takes the next place among the gathers of the step; one of empty parts is done, and the pieces of another go
out before the messages kept for it are met. -/
theorem State.gatherOut_starts (he : s.entry w e.seq = some e) (ha : (s.askSource (recKey w e.seq) (coOf e.raw)).2 = .ready)
    (hb : (s.askGather (recKey w e.seq) (coOf e.raw)).2 = .ready) (hj : s.job (recKey w e.seq) = none) :
    ∃ v : State, v.coll.gathers = s.coll.gathers + 1 ∧ (v.job (recKey w e.seq)).isSome = true ∧ (v.entry w e.seq).isSome = true ∧
      ((coOf e.raw).part = 0 → s.gatherOut w e = (v.dropJob (recKey w e.seq)).unitDone w e.seq 0 0) ∧
      ((coOf e.raw).part ≠ 0 → ∃ u, Carries (recKey w e.seq) v u ∧ s.gatherOut w e = u.openInbox) := by
  unfold State.gatherOut
  extract_lets d key sends
  split
  next s1 a h1 =>
  have h1' : s.askSource key d = (s1, a) := h1
  rw [if_neg (by rw [h1'] at ha; rw [show a = .ready from ha]; decide)]
  split
  next s2 b h2 =>
  have h2' : s.askGather key d = (s2, b) := by
    rw [State.askGather, h1']
    exact h2
  have ha2 : AsksOnly s s2 := by
    rw [← show (s.askGather key d).1 = s2 by rw [h2']]
    exact State.askGather_only
  have hno : ¬ (b = .waiting ∨ (s2.job key).isSome = true) := by
    rw [h2'] at hb
    rw [show b = .ready from hb, State.job, ha2.coll, show s.coll.jobs.find key = none from hj]
    decide
  rw [if_neg hno]
  extract_lets s3 j s4 _ v ps u
  have h3 : s3.coll = s.coll ∧ (s3.entry w e.seq).isSome = true := by
    have he2 : s2.entry w e.seq = some e := (State.entry_congr ha2.cmd w e.seq).trans he
    unfold s3
    split
    · obtain ⟨e', he'⟩ := State.entry_hitStatus (h := d.srcH) he2
      exact ⟨State.hitStatus_coll.trans ha2.coll, by rw [he']; rfl⟩
    · exact ⟨ha2.coll, by rw [he2]; rfl⟩
  refine ⟨v, (congrArg (fun c : CollState => c.gathers + 1) h3.1 :), ?_, h3.2, fun h0 => if_pos h0, fun h0 => ⟨u, ?_, if_neg h0⟩⟩
  · exact congrArg Option.isSome (Tab.find_insert_self ..)
  · exact .foldl fun _ _ => (Carries.ofMails (.foldl fun _ _ _ => State.sendJob_mails)).trans State.takeGather_carries

/-! ### Agree and scalar records (R340) -/

theorem State.agreeOut_starts (he : s.entry w e.seq = some e) (hj : s.job (recKey w e.seq) = none) :
    ∃ u : State, u.coll.agrees = s.coll.agrees + 1 ∧
      (e.seq < 2 ^ 32 → ((u.job (recKey w e.seq)).isSome = true ∨ (u.entry w e.seq).map QEntry.unit = some true)) ∧
      s.agreeOut w e = u.openInbox := by
  generalize hr : s.agreeOut w e = r
  unfold State.agreeOut at hr
  extract_lets d key j s1 _ v bs u at hr
  rw [if_neg (by rw [hj]; decide)] at hr
  have hu : Carries key v u := .ite State.takeAgree_carries (.ofMails State.sendJob_mails)
  have hv : (v.job key).isSome = true := congrArg Option.isSome (Tab.find_insert_self ..)
  have hve : (v.entry w e.seq).isSome = true := congrArg Option.isSome he
  have hc : v.coll.agrees = s.coll.agrees + 1 := rfl
  clear_value u v
  exact ⟨u, (congrArg Prod.fst hu.started).trans hc, fun hq => hu.started_or_done hv hve hq, hr.symm⟩

theorem State.agreeOut_idle (hj : (s.job (recKey w e.seq)).isSome = true) : s.agreeOut w e = s := if_pos hj

theorem State.scalarOut_starts (he : s.entry w e.seq = some e) (hj : s.job (recKey w e.seq) = none) :
    ∃ u : State, u.coll.scalars = s.coll.scalars + 1 ∧
      (e.seq < 2 ^ 32 → ((u.job (recKey w e.seq)).isSome = true ∨ (u.entry w e.seq).map QEntry.unit = some true)) ∧
      s.scalarOut w e = u.openInbox := by
  generalize hr : s.scalarOut w e = r
  unfold State.scalarOut at hr
  extract_lets d key j counts bs s1 _ v at hr
  rw [if_neg (by rw [hj]; decide)] at hr
  generalize hw : (if d.last = true then v.scalarCounts key j counts else v) = a at hr
  have ha : Carries key v a := by
    rw [← hw]
    exact .ite State.scalarCounts_carries (.refl key v)
  have hu : Carries key v (a.scalarValues key j d.count bs) := ha.trans State.scalarValues_carries
  have hv : (v.job key).isSome = true := congrArg Option.isSome (Tab.find_insert_self ..)
  have hve : (v.entry w e.seq).isSome = true := congrArg Option.isSome he
  have hc : v.coll.scalars = s.coll.scalars + 1 := rfl
  generalize a.scalarValues key j d.count bs = u at hr hu
  clear_value v
  exact ⟨u, (congrArg (·.2.1) hu.started).trans hc, fun hq => hu.started_or_done hv hve hq, hr.symm⟩

theorem State.scalarOut_idle (hj : (s.job (recKey w e.seq)).isSome = true) : s.scalarOut w e = s := if_pos hj

theorem State.running_congr (h : t.cmd = s.cmd) : t.running = s.running := by
  unfold State.running
  simp only [State.win, h]

theorem State.adding_congr (h : t.cmd = s.cmd) (e : QEntry) : t.adding e = s.adding e := by rw [State.adding, State.adding, State.running_congr h]

theorem exec_collectiveOpen (w : Fin 8) (q : Nat) (s : State) :
    exec (.collectiveOpen w q) s = onColl w q 0 s fun s e => (s.openSpan w e).unitDone w e.seq 0 0 := rfl

theorem exec_collectiveReduce (w : Fin 8) (q : Nat) (s : State) : exec (.collectiveReduce w q) s = onColl w q 1 s fun s e => s.reduce w e := rfl

theorem exec_collectiveGather (w : Fin 8) (q : Nat) (s : State) : exec (.collectiveGather w q) s = onColl w q 2 s fun s e => s.gatherOut w e := rfl

theorem exec_agree (w : Fin 8) (q : Nat) (s : State) : exec (.agree w q) s = onColl w q 3 s fun s e => s.agreeOut w e := rfl

theorem exec_scalar (w : Fin 8) (q : Nat) (s : State) : exec (.scalar w q) s = onColl w q 4 s fun s e => s.scalarOut w e := rfl

/-- Settles O19: the wait for equal epochs leaves jobs, spans and windows; then each record starts by the law of its op, and until then it only waits. -/
theorem collectiveRecordsStart : Obligations.CollectiveRecordsStart := by
  unfold Obligations.CollectiveRecordsStart
  refine ⟨?_, ?_, ?_, ?_, ?_, ?_, ?_, ?_, ?_, ?_, ?_, ?_, ?_, ?_, ?_, ?_, ?_, ?_, ?_, ?_, ?_, ?_⟩
  · intro s w q e he hd hu hs hk ho hg
    refine ⟨_, (exec_collectiveOpen w _ s).trans (onColl_runs he hd hu hs hk ho hg), ?_⟩
    have hw := s.epochWait_waits (e.step.getD 0)
    generalize (s.epochWait (e.step.getD 0)).1 = v at hw
    have hseq := State.entry_seq he
    obtain ⟨x, hx, hnew⟩ := State.openSpan_opens (s := v) (w := w) (e := e)
    have hentry : (v.openSpan w e).entry w e.seq = some e := by
      rw [State.entry_congr State.openSpan_cmd, hw.entry, hseq, he]
    refine ⟨?_, x, hx, fun hn => ?_⟩
    · rw [← hseq]
      exact State.entry_unitDone hentry
    · obtain ⟨h1, h2, h3, h4, h5⟩ := hnew (by rw [hw.spans]; exact hn)
      exact ⟨h1, h2, h3, h4, h5.trans hseq⟩
  · intro s w q e he hd hu hs hk ho hg
    have hw := s.epochWait_waits (e.step.getD 0)
    exact ⟨_, (exec_collectiveOpen w _ s).trans (onColl_waits he hd hu hs hk ho hg), rfl, hw.spans, hw.jobs, hw.cmd⟩
  · intro s w q e x he hd hu hs hk ho hg hx ha hj
    refine ⟨_, (exec_collectiveReduce w _ s).trans (onColl_runs he hd hu hs hk ho hg), ?_⟩
    have hw := s.epochWait_waits (e.step.getD 0)
    obtain rfl := State.entry_seq he
    exact State.reduce_starts ((congrArg (Tab.find · _) hw.spans).trans hx) ((State.adding_congr hw.cmd e).trans ha) ((hw.job _).trans hj)
  · intro s w q e he hd hu hs hk ho hg h
    have hw := s.epochWait_waits (e.step.getD 0)
    obtain rfl := State.entry_seq he
    have hidle : (s.epochWait (e.step.getD 0)).1.reduce w e = (s.epochWait (e.step.getD 0)).1 := by
      refine State.reduce_idle ?_
      rw [hw.spans, State.adding_congr hw.cmd, hw.job]
      exact h
    exact ⟨_, (exec_collectiveReduce w _ s).trans (onColl_runs he hd hu hs hk ho hg), hidle, by rw [hidle, hw.spans], by rw [hidle, hw.jobs], by rw [hidle, hw.cmd]⟩
  · intro s w q e he hd hu hs hk ho hg
    have hw := s.epochWait_waits (e.step.getD 0)
    exact ⟨_, (exec_collectiveReduce w _ s).trans (onColl_waits he hd hu hs hk ho hg), rfl, hw.spans, hw.jobs, hw.cmd⟩
  · intro s w q e he hd hu hs hk ho hg hj ha hb hp
    refine ⟨_, (exec_collectiveGather w _ s).trans (onColl_runs he hd hu hs hk ho hg), ?_⟩
    have hw := s.epochWait_waits (e.step.getD 0)
    obtain rfl := State.entry_seq he
    obtain ⟨v, hcount, -, hentry, hempty, -⟩ := State.gatherOut_starts ((hw.entry _ _).trans he) ha hb ((hw.job _).trans hj)
    rw [hempty hp]
    obtain ⟨f, hf⟩ := Option.isSome_iff_exists.1 hentry
    have hf' : (v.dropJob (recKey w e.seq)).entry w e.seq = some f := hf
    exact ⟨hcount.trans (congrArg (· + 1) (hw.coll_eq (·.gathers))), State.entry_unitDone hf'⟩
  · intro s w q e he hd hu hs hk ho hg hj ha hb hp
    refine ⟨_, (exec_collectiveGather w _ s).trans (onColl_runs he hd hu hs hk ho hg), ?_⟩
    have hw := s.epochWait_waits (e.step.getD 0)
    obtain rfl := State.entry_seq he
    obtain ⟨v, hcount, hjob, hentry, -, hpart⟩ := State.gatherOut_starts ((hw.entry _ _).trans he) ha hb ((hw.job _).trans hj)
    obtain ⟨u, hu', heq⟩ := hpart hp
    refine ⟨u, ?_, fun hq => hu'.started_or_done hjob hentry hq, heq⟩
    exact (congrArg (·.2.2) hu'.started).trans (hcount.trans (congrArg (· + 1) (hw.coll_eq (·.gathers))))
  · intro s w q e he hd hu hs hk ho hg h
    refine ⟨_, (exec_collectiveGather w _ s).trans (onColl_runs he hd hu hs hk ho hg), ?_⟩
    have hw := s.epochWait_waits (e.step.getD 0)
    obtain rfl := State.entry_seq he
    have ha : AsksOnly (s.epochWait (e.step.getD 0)).1 ((s.epochWait (e.step.getD 0)).1.gatherOut w e) :=
      State.gatherOut_waits (h.imp_right fun h => h.imp_right fun h => by rw [hw.job]; exact h)
    exact ⟨(congrArg CollState.gathers ha.coll).trans (hw.coll_eq (·.gathers)), (congrArg CollState.jobs ha.coll).trans hw.jobs,
      ha.mem.trans (congrArg TierState.mem hw.tier), ha.cmd.trans hw.cmd⟩
  · intro s w q e he hd hu hs hk ho hg
    have hw := s.epochWait_waits (e.step.getD 0)
    exact ⟨_, (exec_collectiveGather w _ s).trans (onColl_waits he hd hu hs hk ho hg), rfl, hw.spans, hw.jobs, hw.cmd⟩
  · intro s w q e he hd hu hs hk ho hg hj
    refine ⟨_, (exec_agree w _ s).trans (onColl_runs he hd hu hs hk ho hg), ?_⟩
    have hw := s.epochWait_waits (e.step.getD 0)
    obtain rfl := State.entry_seq he
    obtain ⟨u, hcount, hrec, heq⟩ := State.agreeOut_starts ((hw.entry _ _).trans he) ((hw.job _).trans hj)
    exact ⟨u, hcount.trans (congrArg (· + 1) (hw.coll_eq (·.agrees))), hrec, heq⟩
  · intro s w q e he hd hu hs hk ho hg hj
    have hw := s.epochWait_waits (e.step.getD 0)
    obtain rfl := State.entry_seq he
    have hidle := State.agreeOut_idle (s := (s.epochWait (e.step.getD 0)).1) (w := w) (e := e) (by rw [hw.job]; exact hj)
    exact ⟨_, (exec_agree w _ s).trans (onColl_runs he hd hu hs hk ho hg), hidle, by rw [hidle, hw.jobs], by rw [hidle, hw.cmd]⟩
  · intro s w q e he hd hu hs hk ho hg
    have hw := s.epochWait_waits (e.step.getD 0)
    exact ⟨_, (exec_agree w _ s).trans (onColl_waits he hd hu hs hk ho hg), rfl, hw.spans, hw.jobs, hw.cmd⟩
  · intro s w q e he hd hu hs hk ho hg hj
    refine ⟨_, (exec_scalar w _ s).trans (onColl_runs he hd hu hs hk ho hg), ?_⟩
    have hw := s.epochWait_waits (e.step.getD 0)
    obtain rfl := State.entry_seq he
    obtain ⟨u, hcount, hrec, heq⟩ := State.scalarOut_starts ((hw.entry _ _).trans he) ((hw.job _).trans hj)
    exact ⟨u, hcount.trans (congrArg (· + 1) (hw.coll_eq (·.scalars))), hrec, heq⟩
  · intro s w q e he hd hu hs hk ho hg hj
    have hw := s.epochWait_waits (e.step.getD 0)
    obtain rfl := State.entry_seq he
    have hidle := State.scalarOut_idle (s := (s.epochWait (e.step.getD 0)).1) (w := w) (e := e) (by rw [hw.job]; exact hj)
    exact ⟨_, (exec_scalar w _ s).trans (onColl_runs he hd hu hs hk ho hg), hidle, by rw [hidle, hw.jobs], by rw [hidle, hw.cmd]⟩
  · intro s w q e he hd hu hs hk ho hg
    have hw := s.epochWait_waits (e.step.getD 0)
    exact ⟨_, (exec_scalar w _ s).trans (onColl_waits he hd hu hs hk ho hg), rfl, hw.spans, hw.jobs, hw.cmd⟩
  · exact fun s h => ⟨_, rfl, State.sumEvict_evicts h⟩
  · exact fun s h => ⟨_, congrArg Host.Outcome.next (State.sumEvict_idle h), rfl⟩
  · exact fun s w q h => ⟨_, onUnit_idle h, rfl⟩
  · exact fun s w q h => ⟨_, onUnit_idle h, rfl⟩
  · exact fun s w q h => ⟨_, onUnit_idle h, rfl⟩
  · exact fun s w q h => ⟨_, onUnit_idle h, rfl⟩
  · exact fun s w q h => ⟨_, onUnit_idle h, rfl⟩

end Sys2Proof.Machine
end

section
/-! SUPPORT. The life of a group: capability frames, messages of this module's mode, member failure, views and survivors (R329, R343, R344, R350,
R351, R505). -/
namespace Sys2Proof.Machine

variable {s t u v : State} {k n d w : Nat} {m : Msg}

/-! ### Capability frames (R329, R330) -/

theorem State.tryActive_leaves (s : State) : (∃ r, s.tryActive.coll = { s.coll with restart := r }) ∧ s.tryActive.out = s.out := by
  unfold State.tryActive
  extract_lets behind
  split
  · exact ⟨⟨_, rfl⟩, rfl⟩
  · exact ⟨⟨_, rfl⟩, rfl⟩

/-- Is a capability frame due? -/
def State.CapDue (s : State) : Prop :=
  s.coll.capAt = none ∨ ∃ f, s.coll.capAt = some f ∧ ((s.rd Obj.groupState = 1 ∧ 1000 * ms ≤ s.now - f) ∨ s.capBody ≠ s.coll.capLast)

theorem State.msg_parts {a b c d e : Nat} {x : Bytes} : (s.msg a b c d e x).mtype = a ∧ (s.msg a b c d e x).body = x := ⟨rfl, rfl⟩

/-- A frame that is due goes to every other member. -/
theorem State.capFrame_sends (hb : s.bitmap ≠ 0) (hd : s.CapDue) :
    (∀ d ∈ s.others, ∃ a : Msg, a.mtype = 0x01 ∧ a.body = s.capBody ∧ Out.message (s.rd Obj.planPod) d a ∈ s.capFrame.out) ∧
      s.capFrame.coll.capAt = some s.now ∧ s.capFrame.coll.capLast = s.capBody := by
  unfold State.capFrame
  extract_lets body due a
  have hdue : due = true := by
    unfold due
    rcases hd with h | ⟨f, h, h' | h'⟩
    · rw [h]
    · rw [h]
      simp only [h'.1, h'.2, beq_self_eq_true, decide_true, Bool.and_self, Bool.true_or]
    · rw [h]
      have hne : (body != s.coll.capLast) = true := bne_iff_ne.2 h'
      simp only [hne, Bool.or_true]
  have hno : ¬ (s.bitmap = 0 ∨ ¬ due = true) := by
    rw [hdue]
    exact fun h => h.elim hb fun h => h rfl
  rw [if_neg hno]
  have ha : Mails s a := s.sendAll_mails _
  have hout : ∀ d ∈ s.others, Out.message (s.rd Obj.planPod) d (s.msg 0x01 0 (s.rd Obj.lastCommittedStep) 0 32 body) ∈ a.out := fun d hd =>
    State.sendAll_out hd
  clear_value a
  refine ⟨fun d hd => ⟨s.msg 0x01 0 (s.rd Obj.lastCommittedStep) 0 32 body, State.msg_parts.1, State.msg_parts.2, hout d hd⟩, ?_, rfl⟩
  exact congrArg some (ha.within.now_eq (by decide))

theorem State.capFrame_idle (h : s.bitmap = 0 ∨ ∃ f, s.coll.capAt = some f ∧ ¬ (s.rd Obj.groupState = 1 ∧ 1000 * ms ≤ s.now - f) ∧
    s.capBody = s.coll.capLast) : s.capFrame = s := by
  unfold State.capFrame
  extract_lets body due
  have hno : s.bitmap = 0 ∨ ¬ due = true := by
    refine h.imp_right fun ⟨f, hf, hn, hl⟩ => ?_
    unfold due
    rw [hf]
    have hl' : (body != s.coll.capLast) = false := bne_eq_false_iff_eq.2 hl
    simp only [hl', Bool.or_false, Bool.and_eq_true, beq_iff_eq, decide_eq_true_eq]
    exact hn
  exact if_pos hno

/-! ### Messages of this module's mode (R332, R349) -/

/-- What a message of this module's mode finds: the stall may have ended, and nothing else has changed. -/
structure Resumes (s t : State) : Prop where
  waits : Waits s t
  clears : Clears s t
  active : s.rd Obj.groupState = 2 → t.rd Obj.groupState = 2

theorem State.endStall_active (h : s.rd Obj.groupState = 2) : s.endStall.rd Obj.groupState = 2 := by
  unfold State.endStall
  extract_lets a b
  have ha : a.rd Obj.groupState = 2 := by
    unfold a
    split
    · exact (State.rd_wr_ne (by decide)).trans h
    · exact h
  have hb : b.rd Obj.groupState = 2 := by
    unfold b
    rw [if_neg (by rw [ha]; decide)]
    exact ha
  clear_value b
  exact hb

theorem State.resumeReduces_resumes : Resumes s s.resumeReduces := by
  unfold State.resumeReduces
  split
  · exact ⟨State.endStall_waits, State.endStall_clears, State.endStall_active⟩
  · exact ⟨.refl s, .refl s, id⟩

theorem State.onMode_same (hm : s.sameMode m = true) (f : State → State) : ∃ v, s.onMode m f = f v ∧ Resumes s v := by
  obtain ⟨a, e, ha⟩ : ∃ a : State, a = { s with coll := { s.coll with differing := s.coll.differing.erase m.src } } ∧ Resumes s a :=
    ⟨_, rfl, ⟨rfl, rfl, rfl, rfl⟩, ⟨rfl, fun _ _ => rfl, rfl, fun _ => id⟩, id⟩
  have hr : Resumes a a.resumeReduces := State.resumeReduces_resumes
  refine ⟨a.resumeReduces, ?_, ha.waits.trans hr.waits, ha.clears.trans hr.clears, hr.active ∘ ha.active⟩
  unfold State.onMode
  rw [if_pos hm, e]

theorem sameMode_of (he : m.epoch = s.rd Obj.modeEpoch) (hd : m.digest = s.modeCrc) : s.sameMode m = true := by
  rw [State.sameMode, he, hd]
  simp

theorem State.onGroup_now {f : State → State} (hm : s.fromMember m = true) (hn : m.step = s.abortTarget) : s.onGroup m f = s.onMode m f := by
  unfold State.onGroup
  rw [if_neg (not_not_intro hm), if_pos hn]

theorem State.onGroup_next {f : State → State} (hm : s.fromMember m = true) (hn : m.step = s.abortTarget + 1)
    (he : m.epoch = (s.rd Obj.modeEpoch + 1) % 2 ^ 32) : s.onGroup m f = f s := by
  unfold State.onGroup
  have h : m.step = s.abortTarget + 1 ∧ (s.sameMode m = true ∨ m.epoch = (s.rd Obj.modeEpoch + 1) % 2 ^ 32) := ⟨hn, .inr he⟩
  rw [if_neg (not_not_intro hm), if_neg (by omega), if_pos h]

theorem State.onGroup_other {f : State → State} (h : s.fromMember m = false ∨ (m.step ≠ s.abortTarget ∧ m.step ≠ s.abortTarget + 1)) :
    s.onGroup m f = s := by
  unfold State.onGroup
  by_cases hm : s.fromMember m = true
  · obtain ⟨h1, h2⟩ := h.resolve_left (by rw [hm]; decide)
    rw [if_neg (not_not_intro hm), if_neg h1, if_neg (fun h => h2 h.1)]
  · exact if_pos hm

/-! ### Member failure (R343, R344) -/

theorem State.sendView_mails {view : Nat} : Mails s (s.sendView view) := .foldl fun v d _ => by
  split
  · exact .refl v
  · exact v.send_mails ..

/-- A failed member is noted, and a transfer from it goes on from another member or is dropped. -/
theorem State.noteFailed_leaves (s : State) (m : Nat) : ∃ x,
    State.donorFailed { s with coll := { s.coll with failed := setIns s.coll.failed m } } m =
      { s with coll := { s.coll with failed := setIns s.coll.failed m, transfer := x } } := by
  unfold State.donorFailed
  split
  · exact ⟨_, rfl⟩
  · split
    · exact ⟨_, rfl⟩
    · exact ⟨_, rfl⟩

theorem memberFailed_may {m : Nat} (hg : s.rd Obj.groupState = 2 ∨ s.rd Obj.groupState = 3) (hf : s.coll.failed.contains m = false) :
    ¬ (s.rd Obj.groupState ≠ 2 ∧ s.rd Obj.groupState ≠ 3 ∨ s.coll.failed.contains m = true) := by
  rintro (⟨h1, h2⟩ | h)
  · exact hg.elim h1 h2
  · rw [hf] at h
    cases h

/-- The step is aborted for the first member that fails, and a view procedure starts. -/
theorem State.memberFailed_begins {m : Nat} (hg : s.rd Obj.groupState = 2 ∨ s.rd Obj.groupState = 3) (hf : s.coll.failed.contains m = false)
    (hv : s.coll.view = none) :
    (s.memberFailed m).coll.failed.contains m = true ∧ (s.memberFailed m).cmd.stepNow = none ∧
      (∃ v, (s.memberFailed m).coll.view = some v ∧ v.start = s.now ∧ v.shape = s.bitmap) ∧
      (s.memberFailed m).rd Obj.memberFailures = min (s.rd Obj.memberFailures + 1) (2 ^ 32 - 1) ∧
      ∀ w : Fin 8, (s.win w).owner ≠ none → ((s.memberFailed m).win w).state = .halted := by
  unfold State.memberFailed
  rw [if_neg (memberFailed_may hg hf)]
  extract_lets _ a _ _ b own y _
  obtain ⟨x, hx⟩ := s.noteFailed_leaves m
  have ha : a.cmd = s.cmd ∧ a.now = s.now ∧ (∀ k, a.rd k = s.rd k) ∧ a.coll = { s.coll with failed := setIns s.coll.failed m, transfer := x } := by
    unfold a
    rw [hx]
    exact ⟨rfl, rfl, fun _ => rfl, rfl⟩
  clear_value a
  obtain ⟨hcmd, hnow, hrd, hcoll⟩ := ha
  split
  · next h =>
    rw [hcoll] at h
    exact absurd (hv.symm.trans h) nofun
  have hab : Clears a (a.abortStep 0x94) := State.abortStep_clears
  obtain ⟨hstep, -, -⟩ := State.abortStep_aborts (u := a) (cause := 0x94)
  have hhalt : ∀ w : Fin 8, (s.win w).owner ≠ none → ((a.abortStep 0x94).win w).state = .halted := fun w hw =>
    State.abortStep_halts w.isLt (by rw [State.win_congr hcmd]; exact hw)
  have hb : b.cmd = (a.abortStep 0x94).cmd ∧ b.coll = (a.abortStep 0x94).coll ∧ b.now = s.now ∧ b.bitmap = s.bitmap ∧
      b.rd Obj.memberFailures = min (s.rd Obj.memberFailures + 1) (2 ^ 32 - 1) := by
    refine ⟨State.countSat_cmd .., State.countSat_coll .., (State.countSat_now ..).trans (hab.now.trans hnow), ?_, ?_⟩
    · rw [State.bitmap, State.rd_countSat_ne (by decide), hab.rd_eq, hrd, State.bitmap]
    · rw [State.rd_countSat_self, hab.rd_eq, hrd]
  obtain ⟨hbcmd, hbcoll, hbnow, hbmap, hbfail⟩ := hb
  have hfailed : b.coll.failed.contains m = true := by
    rw [hbcoll, hab.coll_eq (·.failed), hcoll]
    exact List.contains_iff_mem.2 (mem_setIns_self _ _)
  generalize a.abortStep 0x94 = aborted at hstep hhalt hbcmd
  clear_value b
  obtain ⟨c, e, hc⟩ : ∃ c : State, c = { b with coll := { b.coll with view := some y } } ∧ (c.coll.failed.contains m = true ∧ c.cmd = b.cmd ∧
    c.coll.view = some y ∧ c.rd Obj.memberFailures = b.rd Obj.memberFailures) := ⟨_, rfl, hfailed, rfl, rfl, rfl⟩
  rw [← e]
  obtain ⟨hcfailed, hccmd, hcview, hcfail⟩ := hc
  have hm : Mails c (c.sendView own) := State.sendView_mails
  have hmcmd : (c.sendView own).cmd = aborted.cmd := hm.cmd_eq.trans (hccmd.trans hbcmd)
  refine ⟨?_, ?_, ⟨y, (hm.coll_eq (·.view)).trans hcview, hbnow, hbmap⟩, ?_, fun w hw => ?_⟩
  · rw [hm.coll_eq (·.failed)]
    exact hcfailed
  · rw [hmcmd, hstep]
  · rw [hm.rd_eq, hcfail, hbfail]
  · rw [State.win_congr hmcmd]
    exact hhalt w hw

/-- A view procedure that runs takes in a further member that fails. -/
theorem State.memberFailed_joins {m : Nat} {v : ViewRun} (hg : s.rd Obj.groupState = 2 ∨ s.rd Obj.groupState = 3)
    (hf : s.coll.failed.contains m = false) (hv : s.coll.view = some v) :
    (s.memberFailed m).coll.failed.contains m = true ∧ (∃ y, (s.memberFailed m).coll.view = some y ∧ y.start = v.start ∧ y.shape = v.shape) ∧
      (s.memberFailed m).cmd.stepNow = s.cmd.stepNow := by
  unfold State.memberFailed
  rw [if_neg (memberFailed_may hg hf)]
  extract_lets _ a own
  obtain ⟨x, hx⟩ := s.noteFailed_leaves m
  have ha : a.cmd = s.cmd ∧ a.coll = { s.coll with failed := setIns s.coll.failed m, transfer := x } := by
    unfold a
    rw [hx]
    exact ⟨rfl, rfl⟩
  clear_value a
  obtain ⟨hcmd, hcoll⟩ := ha
  split
  · next v' h =>
    rw [hcoll] at h
    obtain rfl : v = v' := Option.some.inj (hv.symm.trans h)
    have hfailed : a.coll.failed.contains m = true := by
      rw [hcoll]
      exact List.contains_iff_mem.2 (mem_setIns_self _ _)
    obtain ⟨c, e, hc⟩ : ∃ c : State, c = { a with coll := { a.coll with view := some { v with own := own } } } ∧
      (c.coll.failed.contains m = true ∧ c.cmd = a.cmd ∧ c.coll.view = some { v with own := own }) := ⟨_, rfl, hfailed, rfl, rfl⟩
    rw [← e]
    obtain ⟨hcfailed, hccmd, hcview⟩ := hc
    have hm : Mails c (c.sendView own) := State.sendView_mails
    refine ⟨?_, ⟨_, (hm.coll_eq (·.view)).trans hcview, rfl, rfl⟩, ?_⟩
    · rw [hm.coll_eq (·.failed)]
      exact hcfailed
    · rw [hm.cmd_eq, hccmd, hcmd]
  · next h =>
    rw [hcoll] at h
    exact absurd (hv.symm.trans h) nofun

theorem State.memberFailed_known {m : Nat} (hf : s.coll.failed.contains m = true) : s.memberFailed m = s := if_pos (.inr hf)

/-- A failure leaves the capability frames held. -/
theorem State.memberFailed_peers {m : Nat} : (s.memberFailed m).coll.peers = s.coll.peers := by
  unfold State.memberFailed
  split
  · rfl
  extract_lets _ a own _ b own' y _
  obtain ⟨x, hx⟩ := s.noteFailed_leaves m
  have ha : a.coll.peers = s.coll.peers := by
    unfold a
    rw [hx]
  clear_value a
  split
  · next v _ =>
    obtain ⟨c, e, hc⟩ : ∃ c : State, c = { a with coll := { a.coll with view := some { v with own := own } } } ∧ c.coll.peers = a.coll.peers :=
      ⟨_, rfl, rfl⟩
    rw [← e]
    exact ((State.sendView_mails (s := c) (view := own)).coll_eq (·.peers)).trans (hc.trans ha)
  · have hab : Clears a (a.abortStep 0x94) := State.abortStep_clears
    have hb : b.coll.peers = a.coll.peers := (congrArg CollState.peers (State.countSat_coll ..)).trans (hab.coll_eq (·.peers))
    clear_value b
    obtain ⟨c, e, hc⟩ : ∃ c : State, c = { b with coll := { b.coll with view := some y } } ∧ c.coll.peers = b.coll.peers := ⟨_, rfl, rfl⟩
    rw [← e]
    exact ((State.sendView_mails (s := c) (view := own')).coll_eq (·.peers)).trans (hc.trans (hb.trans ha))

/-! ### Survivors (R344, R350, R351, R355) -/

/-- The objects a survivors set settles, and the count of failures. -/
def survivorObjs : List Nat := [Obj.groupMembers, Obj.modeEpoch, Obj.memberFailures]

/-- `t` comes of `s` by bringing the members level: what a survivors set settled stands, no step and no span begins, and what was put out stays. -/
structure Levels (s t : State) : Prop where
  objs : ∀ k ∈ survivorObjs, t.rd k = s.rd k
  view : t.coll.view = s.coll.view
  idle : s.cmd.stepNow = none → t.cmd.stepNow = none
  spans : s.spans = [] → t.spans = []
  out : ∀ o ∈ s.out, o ∈ t.out

namespace Levels

theorem refl (s : State) : Levels s s := ⟨fun _ _ => rfl, rfl, id, id, fun _ => id⟩

theorem trans (h : Levels s t) (h' : Levels t u) : Levels s u :=
  ⟨fun k hk => (h'.objs k hk).trans (h.objs k hk), h'.view.trans h.view, h'.idle ∘ h.idle, h'.spans ∘ h.spans,
    fun o ho => h'.out o (h.out o ho)⟩

theorem ofMails (h : Mails s t) : Levels s t :=
  ⟨fun k hk => h.rd_eq (by revert k; decide) (by revert k; decide) (by revert k; decide), h.coll_eq (·.view),
    fun hs => (congrArg CmdState.stepNow h.cmd_eq).trans hs, fun hs => (h.within.spans_eq (by decide)).trans hs, h.out⟩

theorem raise {code : Nat} {ps : List Bytes} (hc : 256 ≤ code ∧ code < 4096 := by decide) : Levels s (s.raise code ps) :=
  ⟨fun k hk => State.rd_raise (by revert k; decide) hc, congrArg CollState.view (State.raise_coll ..),
    fun hs => (congrArg CmdState.stepNow (State.raise_cmd ..)).trans hs, fun hs => (State.raise_spans ..).trans hs, s.raise_tells _ _⟩

theorem wr {x : Nat} (hk : k ∉ survivorObjs := by decide) : Levels s (s.wr k x) :=
  ⟨fun _ hi => State.rd_wr_ne (fun e => hk (e ▸ hi)), rfl, id, id, fun _ => id⟩

theorem abort {cause : Nat} : Levels s (s.abortStep cause) :=
  have h : Clears s (s.abortStep cause) := State.abortStep_clears
  have ha := State.abortStep_aborts (u := s) (cause := cause)
  ⟨fun k hk => h.objs k (by revert k; decide), h.coll_eq (·.view), fun _ => ha.1, fun _ => ha.2.1, h.out⟩

end Levels

theorem State.rollbackVerdict_levels : Levels s s.rollbackVerdict := by
  unfold State.rollbackVerdict
  extract_lets a
  have h1 : Levels s (s.wr Obj.lastVerdict 3) := .wr
  have h2 : Levels (s.wr Obj.lastVerdict 3) ((s.wr Obj.lastVerdict 3).countSat Obj.digestRepairs 1) := .wr
  have ha : Levels s a := (h1.trans h2).trans .abort
  exact ha.trans .raise

theorem State.levelUp_levels : Levels s s.levelUp := by
  unfold State.levelUp
  extract_lets top holders
  split
  · exact .refl s
  · exact .ofMails (.foldl fun v m _ => v.sendState_mails m)

theorem State.donateAgain_levels : Levels s s.donateAgain := by
  unfold State.donateAgain
  split
  · split
    · exact .refl s
    · split
      · split
        · exact .ofMails (.foldl fun v m _ => v.sendState_mails m)
        · exact .refl s
      · exact State.rollbackVerdict_levels
  · exact .refl s

theorem State.applyShape_levels : Levels s s.applyShape := by
  have h (v : State) {a b c d x y z r : Nat} (ha : a ∉ survivorObjs) (hb : b ∉ survivorObjs) (hc : c ∉ survivorObjs) (hd : d ∉ survivorObjs) :
      Levels v ((((v.wr a x).wr b y).wr c z).wr d r) :=
    ((((Levels.wr ha).trans (.wr hb)).trans (.wr hc)).trans (.wr hd))
  unfold State.applyShape
  split
  · exact h s (by decide) (by decide) (by decide) (by decide)
  · exact h s (by decide) (by decide) (by decide) (by decide)

/-- The group shrinks to the set, in the next epoch, and the view procedure is over. -/
theorem State.shrink_settles (s : State) (set : Nat) :
    (s.shrink set).rd Obj.groupMembers = set ∧ (s.shrink set).rd Obj.modeEpoch = s.rd Obj.modeEpoch + 1 ∧
      (s.shrink set).rd Obj.memberFailures = s.rd Obj.memberFailures ∧ (s.shrink set).coll.view = none ∧
      (s.cmd.stepNow = none → (s.shrink set).cmd.stepNow = none) ∧ (s.spans = [] → (s.shrink set).spans = []) ∧
      ∀ o ∈ s.out, o ∈ (s.shrink set).out := by
  unfold State.shrink
  extract_lets gone a _ b c
  have ha : Levels ((s.wr Obj.groupMembers set).wr Obj.modeEpoch (s.rd Obj.modeEpoch + 1)) a := State.applyShape_levels
  have hmem : a.rd Obj.groupMembers = set := by
    rw [ha.objs _ (by decide), State.rd_wr_ne (by decide), State.rd_wr_self]
  have hepoch : a.rd Obj.modeEpoch = s.rd Obj.modeEpoch + 1 := by
    rw [ha.objs _ (by decide), State.rd_wr_self]
  have hfail : a.rd Obj.memberFailures = s.rd Obj.memberFailures := by
    rw [ha.objs _ (by decide), State.rd_wr_ne (by decide), State.rd_wr_ne (by decide)]
  have hidle : s.cmd.stepNow = none → a.cmd.stepNow = none := ha.idle
  have hspans : s.spans = [] → a.spans = [] := ha.spans
  have hout : ∀ o ∈ s.out, o ∈ a.out := ha.out
  clear ha
  clear_value a
  have hb : b.coll.view = none ∧ (∀ k, b.rd k = a.rd k) ∧ b.cmd = a.cmd ∧ b.spans = a.spans ∧ b.out = a.out := ⟨rfl, fun _ => rfl, rfl, rfl, rfl⟩
  clear_value b
  obtain ⟨hbview, hbrd, hbcmd, hbspans, hbout⟩ := hb
  have hc : Levels b c := .raise
  have hl : Levels b c.levelUp.donateAgain := (hc.trans State.levelUp_levels).trans State.donateAgain_levels
  clear_value c
  generalize c.levelUp.donateAgain = r at hl
  refine ⟨?_, ?_, ?_, hl.view.trans hbview, fun h => hl.idle ?_, fun h => hl.spans ?_, fun o ho => hl.out o ?_⟩
  · rw [hl.objs _ (by decide), hbrd, hmem]
  · rw [hl.objs _ (by decide), hbrd, hepoch]
  · rw [hl.objs _ (by decide), hbrd, hfail]
  · rw [hbcmd, hidle h]
  · rw [hbspans, hspans h]
  · rw [hbout]
    exact hout o ho

/-- This half stops: it is a minority, and the view procedure is over. -/
theorem State.goMinority_stops (s : State) :
    s.goMinority.rd Obj.groupState = 4 ∧ (∀ k ∈ survivorObjs, s.goMinority.rd k = s.rd k) ∧ s.goMinority.coll.view = none ∧
      s.goMinority.cmd = s.cmd ∧ s.goMinority.spans = s.spans ∧ (∀ o ∈ s.out, o ∈ s.goMinority.out) ∧
      s.goMinority.rd (Obj.occurrences (Ev.minority / 256 - 1) (Ev.minority % 256)) =
        (s.rd (Obj.occurrences (Ev.minority / 256 - 1) (Ev.minority % 256)) + 1) % 2 ^ 32 := by
  unfold State.goMinority
  extract_lets _ a
  have ha : a.coll.view = none ∧ (∀ k, a.rd k = s.rd k) ∧ a.cmd = s.cmd ∧ a.spans = s.spans ∧ a.out = s.out := ⟨rfl, fun _ => rfl, rfl, rfl, rfl⟩
  clear_value a
  obtain ⟨hview, hrd, hcmd, hspans, hout⟩ := ha
  have hr : Levels a ((a.wr Obj.groupState 4).raise Ev.minority []) := Levels.trans .wr .raise
  refine ⟨?_, fun k hk => (hr.objs k hk).trans (hrd k), hr.view.trans hview, ?_, ?_, fun o ho => hr.out o (by rwa [hout]), ?_⟩
  · rw [State.rd_raise (by decide) (by decide), State.rd_wr_self]
  · rw [State.raise_cmd]
    exact hcmd
  · rw [State.raise_spans]
    exact hspans
  · rw [State.rd_raise_occurrences (by decide) (by decide), State.rd_wr_ne (by decide), hrd]

/-- A survivors set that names more than half of the members, or just half with the anchor, shrinks the group. -/
theorem State.adoptIn_shrinks {set shape : Nat} (ho : set >>> s.ownModule % 2 = 1)
    (h : (membersOf shape).length < 2 * (membersOf (set &&& shape)).length ∨
      ((membersOf shape).length = 2 * (membersOf (set &&& shape)).length ∧ set >>> (membersOf shape).headD 0 % 2 = 1)) :
    s.adoptIn set shape = s.shrink (set &&& shape) := by
  unfold State.adoptIn
  extract_lets k n anchor
  have h' : n < 2 * k ∨ (n = 2 * k ∧ set >>> anchor % 2 = 1) := h
  rw [if_neg (by omega), if_pos h']

/-- Any other that names this module leaves it in the minority. -/
theorem State.adoptIn_stops {set shape : Nat} (ho : set >>> s.ownModule % 2 = 1)
    (h : 2 * (membersOf (set &&& shape)).length < (membersOf shape).length ∨
      ((membersOf shape).length = 2 * (membersOf (set &&& shape)).length ∧ set >>> (membersOf shape).headD 0 % 2 ≠ 1)) :
    s.adoptIn set shape = s.goMinority := by
  unfold State.adoptIn
  extract_lets k n anchor
  have h' : ¬ (n < 2 * k ∨ (n = 2 * k ∧ set >>> anchor % 2 = 1)) := by
    have h'' : 2 * k < n ∨ (n = 2 * k ∧ set >>> anchor % 2 ≠ 1) := h
    omega
  rw [if_neg (by omega), if_neg h']

/-- A survivors set keeps what was put out; one that names this module ends the view procedure and starts no step. -/
theorem State.adoptIn_ends (s : State) (set shape : Nat) : (∀ o ∈ s.out, o ∈ (s.adoptIn set shape).out) ∧
    (set >>> s.ownModule % 2 = 1 → (s.adoptIn set shape).coll.view = none ∧
      (s.adoptIn set shape).rd Obj.memberFailures = s.rd Obj.memberFailures ∧
      (s.cmd.stepNow = none → (s.adoptIn set shape).cmd.stepNow = none) ∧ (s.spans = [] → (s.adoptIn set shape).spans = [])) := by
  unfold State.adoptIn
  split
  · next h => exact ⟨fun _ => id, fun h' => by omega⟩
  extract_lets k n anchor
  split
  · obtain ⟨-, -, hfail, hview, hidle, hspans, hout⟩ := s.shrink_settles (set &&& shape)
    exact ⟨hout, fun _ => ⟨hview, hfail, hidle, hspans⟩⟩
  · obtain ⟨-, hobjs, hview, hcmd, hspans, hout, -⟩ := s.goMinority_stops
    exact ⟨hout, fun _ => ⟨hview, hobjs _ (by decide), fun h => by rw [hcmd, h], fun h => by rw [hspans, h]⟩⟩

theorem State.adopt_runs {set : Nat} {v : ViewRun} (hv : s.coll.view = some v) : s.adopt set = s.adoptIn set v.shape := by
  unfold State.adopt
  rw [hv]

end Sys2Proof.Machine
end

section
/-! SUPPORT. O21: members join, fail and shrink. -/
namespace Sys2Proof.Machine

variable {s t u : State} {m : Msg} {v : ViewRun} {set : Nat}

/-! ### Joining (R329, R330) -/

theorem exec_capabilitySend_sends (hb : s.bitmap ≠ 0) (hd : s.CapDue) : ∃ t, exec .capabilitySend s = .next t ∧
    (∀ d ∈ s.others, ∃ a : Msg, a.mtype = 0x01 ∧ a.body = s.capBody ∧ Out.message (s.rd Obj.planPod) d a ∈ t.out) ∧
    t.coll.capAt = some s.now ∧ t.coll.capLast = s.capBody := by
  refine ⟨s.capFrame.tryActive, rfl, ?_⟩
  obtain ⟨⟨r, hr⟩, hout⟩ := s.capFrame.tryActive_leaves
  rw [hr, hout]
  exact State.capFrame_sends hb hd

theorem State.joinWait_tells (hg : s.rd Obj.groupState = 1) (ht : s.coll.joinTold = false)
    (hm : (s.others.filter fun m => (s.coll.peers.find m).isNone) ≠ []) (hn : 10000 * ms ≤ s.now - s.coll.joinFrom) :
    ∃ ps, s.joinWait = State.raise { s with coll := { s.coll with joinTold := true } } Ev.joinWait ps := by
  refine ⟨_, if_neg ?_⟩
  rintro (h | h | h | h)
  · exact h hg
  · rw [ht] at h
    cases h
  · exact hm h
  · exact Nat.not_lt.2 hn h

theorem State.joinWait_idle (h : s.rd Obj.groupState ≠ 1 ∨ s.coll.joinTold = true ∨
    (s.others.filter fun m => (s.coll.peers.find m).isNone) = [] ∨ s.now - s.coll.joinFrom < 10000 * ms) : s.joinWait = s := if_pos h

theorem State.capNotes_coll {n : Nat} {p : Peer} : (s.capNotes n p).coll = s.coll := by
  unfold State.capNotes
  extract_lets a b
  have ha : a.coll = s.coll := by
    unfold a
    split
    · exact State.raiseOnce_coll ..
    · rfl
  have hb : b.coll = a.coll := by
    unfold b
    split
    · exact (State.wr_coll ..).trans (State.raiseOnce_coll ..)
    · rfl
  clear_value b
  split <;> exact hb.trans ha

theorem State.joinTransfers_mails : Mails s s.joinTransfers := by
  unfold State.joinTransfers
  extract_lets n
  split
  · exact .refl s
  · exact .foldl fun v d _ => v.sendState_mails d

/-- A capability frame is held, whatever it brings about. -/
theorem State.msgCapability_held (hp : m.pod = s.rd Obj.planPod) (hg : m.group = s.rd Obj.groupId) (hm : s.isMember m.src = true)
    (ho : m.src ≠ s.ownModule) : (s.msgCapability m).coll.peers.find m.src = some (peerOf m.body s.now) := by
  have hcond : m.pod = s.rd Obj.planPod ∧ m.group = s.rd Obj.groupId ∧ s.isMember m.src = true ∧ m.src ≠ s.ownModule := ⟨hp, hg, hm, ho⟩
  unfold State.msgCapability
  rw [if_neg (not_not_intro hcond)]
  extract_lets p _ a b
  have ha : a.coll.peers.find m.src = some p := Tab.find_insert_self ..
  have hb : b.coll = a.coll := State.capNotes_coll
  clear_value b
  split
  · rw [State.memberFailed_peers, hb]
    exact ha
  · obtain ⟨⟨r, hr⟩, -⟩ := b.joinTransfers.tryActive_leaves
    rw [hr]
    exact (congrArg (Tab.find · m.src) ((State.joinTransfers_mails (s := b)).coll_eq (·.peers))).trans (by rw [hb]; exact ha)

theorem State.msgCapability_other (h : m.pod ≠ s.rd Obj.planPod ∨ m.group ≠ s.rd Obj.groupId ∨ s.isMember m.src = false ∨ m.src = s.ownModule) :
    s.msgCapability m = s := by
  have hcond : ¬ (m.pod = s.rd Obj.planPod ∧ m.group = s.rd Obj.groupId ∧ s.isMember m.src = true ∧ m.src ≠ s.ownModule) := by
    rintro ⟨h1, h2, h3, h4⟩
    rcases h with h | h | h | h
    · exact h h1
    · exact h h2
    · rw [h3] at h
      cases h
    · exact h4 h
  exact if_pos hcond

/-! ### Members that fail (R343, R344) -/

theorem State.failDetect_fails {m : Nat} (hm : s.isMember m = true) (ho : m ≠ s.ownModule) (hp : s.paceFresh m = false) :
    s.failDetect m = s.memberFailed m :=
  have h : s.isMember m = true ∧ m ≠ s.ownModule ∧ ¬ s.paceFresh m = true := ⟨hm, ho, by rw [hp]; decide⟩
  if_pos h

theorem State.failDetect_idle {m : Nat}
    (h : s.isMember m = false ∨ m = s.ownModule ∨ s.paceFresh m = true ∨ s.coll.failed.contains m = true) : s.failDetect m = s := by
  unfold State.failDetect
  split
  · next h' =>
    obtain ⟨h1, h2, h3⟩ := h'
    rcases h with h | h | h | h
    · rw [h] at h1
      cases h1
    · exact absurd h h2
    · exact absurd h h3
    · exact State.memberFailed_known h
  · rfl

theorem State.memberTimeout_fails {m : Nat} (hm : s.isMember m = true) (ho : m ≠ s.ownModule) (hd : s.dataLate m = true)
    (hf : s.coll.failed.contains m = false) : s.memberTimeout m = (s.raise Ev.memberTimeout [p16 m]).memberFailed m :=
  have h : s.isMember m = true ∧ m ≠ s.ownModule ∧ s.dataLate m = true ∧ ¬ s.coll.failed.contains m = true := ⟨hm, ho, hd, by rw [hf]; decide⟩
  if_pos h

theorem State.memberTimeout_idle {m : Nat}
    (h : s.isMember m = false ∨ m = s.ownModule ∨ s.dataLate m = false ∨ s.coll.failed.contains m = true) : s.memberTimeout m = s := by
  refine if_neg ?_
  rintro ⟨h1, h2, h3, h4⟩
  rcases h with h | h | h | h
  · rw [h] at h1
    cases h1
  · exact h2 h
  · rw [h] at h3
    cases h3
  · exact h4 h

/-! ### Views and survivors (R350, R351) -/

/-- The set the leader sends: the modules that every view it has of a module of its own view names. -/
def State.survivors (s : State) (v : ViewRun) : Nat := (s.coll.views.filter fun x => v.own >>> x.1 % 2 == 1).foldl (fun b x => b &&& x.2) v.own

/-- The survivors set goes to every module it names. -/
def State.sendSurvivors (s : State) (set : Nat) : State :=
  (membersOf set).foldl (fun s m => if m = s.ownModule then s else s.send m (s.msg 0x03 0 s.groupStep 0 64 (le 64 set))) s

theorem State.leaderDecide_decides (hv : s.coll.view = some v) (hl : (membersOf v.own).head? = some s.ownModule)
    (hn : 2 * s.rd Obj.failDetectMs * ms ≤ s.now - v.start) :
    s.leaderDecide = (s.sendSurvivors (s.survivors v)).adopt (s.survivors v) := by
  unfold State.leaderDecide
  rw [hv]
  dsimp only
  have h : ¬ ((membersOf v.own).head? ≠ some s.ownModule ∨ s.now - v.start < 2 * s.rd Obj.failDetectMs * ms) :=
    fun h => h.elim (· hl) (Nat.not_lt.2 hn)
  exact if_neg h

theorem State.leaderDecide_idle (hv : s.coll.view = some v)
    (h : (membersOf v.own).head? ≠ some s.ownModule ∨ s.now - v.start < 2 * s.rd Obj.failDetectMs * ms) : s.leaderDecide = s := by
  unfold State.leaderDecide
  rw [hv]
  exact if_pos h

theorem State.leaderDecide_none (hv : s.coll.view = none) : s.leaderDecide = s := by
  unfold State.leaderDecide
  rw [hv]

theorem sendSurvivor_mails (u : State) (m : Nat) :
    Mails u (if m = u.ownModule then u else u.send m (u.msg 0x03 0 u.groupStep 0 64 (le 64 set))) := by
  split
  · exact .refl u
  · exact u.send_mails ..

theorem State.sendSurvivors_mails : Mails s (s.sendSurvivors set) := .foldl fun u m _ => sendSurvivor_mails u m

theorem State.sendSurvivors_out {d : Nat} (hd : d ∈ membersOf set) (ho : d ≠ s.ownModule) :
    ∃ a : Msg, a.mtype = 0x03 ∧ a.body = le 64 set ∧ Out.message (s.rd Obj.planPod) d a ∈ (s.sendSurvivors set).out := by
  obtain ⟨o, hmem, a, hty, hbody, rfl⟩ := Mails.foldl_out (s := s)
    (P := fun o => ∃ a : Msg, a.mtype = 0x03 ∧ a.body = le 64 set ∧ o = Out.message (s.rd Obj.planPod) d a)
    (fun u m _ => sendSurvivor_mails (set := set) u m) hd (fun u hu => by
      have hown : u.ownModule = s.ownModule := hu.rd_eq
      rw [hown, if_neg ho]
      exact ⟨_, u.send_out d _, _, State.msg_parts.1, State.msg_parts.2, by rw [hu.rd_eq]⟩)
  exact ⟨a, hty, hbody, hmem⟩

theorem State.viewTimeout_stops (hv : s.coll.view = some v) (hn : 4 * s.rd Obj.failDetectMs * ms ≤ s.now - v.start) :
    s.viewTimeout = s.goMinority := by
  unfold State.viewTimeout
  rw [hv]
  exact if_neg (Nat.not_lt.2 hn)

theorem State.viewTimeout_idle (hv : s.coll.view = some v) (hn : s.now - v.start < 4 * s.rd Obj.failDetectMs * ms) : s.viewTimeout = s := by
  unfold State.viewTimeout
  rw [hv]
  exact if_pos hn

theorem State.viewTimeout_none (hv : s.coll.view = none) : s.viewTimeout = s := by
  unfold State.viewTimeout
  rw [hv]

theorem Resumes.ownModule (h : Resumes s t) : t.ownModule = s.ownModule := h.clears.rd_eq

theorem Resumes.bitmap (h : Resumes s t) : t.bitmap = s.bitmap := h.clears.rd_eq

theorem Resumes.view (h : Resumes s t) : t.coll.view = s.coll.view := h.waits.coll_eq (·.view)

/-- A survivors message of the current step and this module's mode is adopted by the view procedure that runs, or starts where none does. -/
theorem exec_msgSurvivors_now (hm : s.fromMember m = true) (hn : m.step = s.abortTarget) (he : m.epoch = s.rd Obj.modeEpoch)
    (hd : m.digest = s.modeCrc) : ∃ u, Resumes s u ∧ exec (.msgSurvivors m) s =
      .next (if u.coll.view.isSome then u.adopt (unle (m.body.take 64)) else u.adoptUnseen (unle (m.body.take 64))) := by
  obtain ⟨u, hu, hr⟩ := State.onMode_same (sameMode_of he hd) (fun s =>
    if s.coll.view.isSome then s.adopt (unle (m.body.take 64)) else s.adoptUnseen (unle (m.body.take 64)))
  exact ⟨u, hr, congrArg Host.Outcome.next ((State.onGroup_now hm hn).trans hu)⟩

theorem State.adoptUnseen_runs (hg : s.rd Obj.groupState = 2) (ho : set >>> s.ownModule % 2 = 1)
    (ha : s.members.all (fun x => set >>> x % 2 == 1) = false) :
    s.adoptUnseen set = ((s.abortStep 0x94).countSat Obj.memberFailures 1).adoptIn set s.bitmap := by
  refine if_neg ?_
  rintro (⟨h, -⟩ | h | h)
  · exact h hg
  · omega
  · rw [ha] at h
    cases h

/-! ### Aborts of other members (R505) -/

/-- An abort of the current step and this module's mode ends the step. -/
theorem State.collMsg_aborts (hm : s.fromMember m = true) (hty : m.mtype = 0x04) (hn : m.step = s.abortTarget) (he : m.epoch = s.rd Obj.modeEpoch)
    (hd : m.digest = s.modeCrc) (hs : s.cmd.stepNow.isSome = true) : ∃ u c, Resumes s u ∧ s.collMsg m = u.abortStep c := by
  obtain ⟨u, hu, hr⟩ := State.onMode_same (sameMode_of he hd) (fun s =>
    if m.mtype = 0x04 then (if s.cmd.stepNow.isSome then s.abortStep (abortCause m) else s)
    else match s.jobOf m with
      | none => s.keepMsg m
      | some key => s.onMsg key (s.rankOf m.src) m)
  refine ⟨u, abortCause m, hr, ?_⟩
  unfold State.collMsg
  rw [if_neg (not_not_intro hm), if_neg (by omega), if_neg (not_not_intro hn)]
  refine Eq.trans hu ?_
  rw [if_pos hty, if_pos (by rw [hr.waits.cmd]; exact hs)]

theorem State.collMsg_kept (hm : s.fromMember m = true) (hn : m.step = s.abortTarget + 1) : s.collMsg m = s.keepMsg m := by
  unfold State.collMsg
  rw [if_neg (not_not_intro hm), if_pos hn]

theorem State.collMsg_other (h : s.fromMember m = false ∨ (m.step ≠ s.abortTarget ∧ m.step ≠ s.abortTarget + 1)) : s.collMsg m = s := by
  unfold State.collMsg
  by_cases hm : s.fromMember m = true
  · obtain ⟨h1, h2⟩ := h.resolve_left (by rw [hm]; decide)
    rw [if_neg (not_not_intro hm), if_neg h2, if_pos h1]
  · exact if_pos hm

theorem State.msgAbort_collMsg (h : s.fromMember m = false ∨ m.step ≠ s.rd Obj.lastCommittedStep) : s.msgAbort m = s.collMsg m := by
  refine if_neg ?_
  rintro ⟨h1, h2, -⟩
  rcases h with h | h
  · rw [h1] at h
    cases h
  · exact h h2

theorem State.msgAbort_levels (hm : s.fromMember m = true) (hl : m.step = s.rd Obj.lastCommittedStep) (ht : m.step ≠ s.abortTarget) :
    s.msgAbort m = (s.abortStep (abortCause m)).levelUp :=
  have h : s.fromMember m = true ∧ m.step = s.rd Obj.lastCommittedStep ∧ m.step ≠ s.abortTarget := ⟨hm, hl, ht⟩
  if_pos h

/-- Members are brought level by messages alone. -/
theorem State.levelUp_mails : Mails s s.levelUp := by
  unfold State.levelUp
  extract_lets top holders
  split
  · exact .refl s
  · exact .foldl fun v m _ => v.sendState_mails m

/-- Settles O21: each command by the branch its conditions choose; a failed member by what the abort, the view and its sending leave, a survivors set
by the group it settles. -/
theorem membersJoinFailAndShrink : Obligations.MembersJoinFailAndShrink := by
  unfold Obligations.MembersJoinFailAndShrink
  refine ⟨?_, ?_, ?_, ?_, ?_, ?_, ?_, ?_, ?_, ?_, ?_, ?_, ?_, ?_, ?_, ?_, ?_, ?_, ?_, ?_, ?_, ?_, ?_, ?_, ?_, ?_, ?_, ?_, ?_, ?_⟩
  · exact fun s hb hc => exec_capabilitySend_sends hb (.inl hc)
  · exact fun s f hb hc h => exec_capabilitySend_sends hb (.inr ⟨f, hc, h⟩)
  · intro s h
    have hidle := State.capFrame_idle h
    obtain ⟨⟨r, hr⟩, hout⟩ := s.tryActive_leaves
    exact ⟨s.tryActive, congrArg (fun v : State => Host.Outcome.next v.tryActive) hidle, rfl, by rw [hr], hout⟩
  · intro s hg ht hm hn
    obtain ⟨ps, h⟩ := State.joinWait_tells hg ht hm hn
    refine ⟨_, congrArg Host.Outcome.next h, State.raise_coll .., State.rd_raise_occurrences (by decide) (by decide), ?_⟩
    exact (State.rd_raise (by decide) (by decide)).trans hg
  · exact fun s h => ⟨_, congrArg Host.Outcome.next (State.joinWait_idle h), rfl⟩
  · exact fun s m hp hg hm ho => ⟨_, rfl, State.msgCapability_held hp hg hm ho⟩
  · exact fun s m h => ⟨_, congrArg Host.Outcome.next (State.msgCapability_other h), rfl⟩
  · exact fun s m hm ho hg hf hv hp =>
      ⟨_, congrArg Host.Outcome.next (State.failDetect_fails hm ho hp), State.memberFailed_begins hg hf hv⟩
  · intro s m hm ho hg hf hv hd
    refine ⟨_, congrArg Host.Outcome.next (State.memberTimeout_fails hm ho hd hf), ?_⟩
    have hrd : ∀ k, eventKey k = false → (s.raise Ev.memberTimeout [p16 m]).rd k = s.rd k := fun k hk => State.rd_raise hk (by decide)
    have h := State.memberFailed_begins (s := s.raise Ev.memberTimeout [p16 m]) (m := m) (by rw [hrd _ (by decide)]; exact hg)
      (by rw [State.raise_coll]; exact hf) (by rw [State.raise_coll]; exact hv)
    rw [State.raise_now, State.bitmap, hrd _ (by decide), hrd _ (by decide)] at h
    simp only [State.win_raise] at h
    exact h
  · exact fun s m v hm ho hg hf hv hp =>
      ⟨_, congrArg Host.Outcome.next (State.failDetect_fails hm ho hp), State.memberFailed_joins hg hf hv⟩
  · exact fun s m h => ⟨_, congrArg Host.Outcome.next (State.failDetect_idle h), rfl⟩
  · intro s m v hm ho hg hf hv hd
    refine ⟨_, congrArg Host.Outcome.next (State.memberTimeout_fails hm ho hd hf), ?_⟩
    have hrd : ∀ k, eventKey k = false → (s.raise Ev.memberTimeout [p16 m]).rd k = s.rd k := fun k hk => State.rd_raise hk (by decide)
    have h := State.memberFailed_joins (s := s.raise Ev.memberTimeout [p16 m]) (m := m) (v := v) (by rw [hrd _ (by decide)]; exact hg)
      (by rw [State.raise_coll]; exact hf) (by rw [State.raise_coll]; exact hv)
    rwa [State.raise_cmd] at h
  · exact fun s m h => ⟨_, congrArg Host.Outcome.next (State.memberTimeout_idle h), rfl⟩
  · intro s m hm hn he hd
    obtain ⟨u, hu, hr⟩ := State.onMode_same (sameMode_of he hd)
      (fun s => { s with coll := { s.coll with views := s.coll.views.insert m.src (unle (m.body.take 64)) } })
    refine ⟨_, congrArg Host.Outcome.next ((State.onGroup_now hm hn).trans hu), Tab.find_insert_self .., ?_⟩
    exact hr.waits.jobs
  · exact fun s m hm hn he => ⟨_, congrArg Host.Outcome.next (State.onGroup_next hm hn he), rfl⟩
  · exact fun s m h => ⟨_, congrArg Host.Outcome.next (State.onGroup_other h), rfl⟩
  · intro s v set hv hl hn hset
    have hset' : s.survivors v = set := hset.symm
    refine ⟨_, congrArg Host.Outcome.next (State.leaderDecide_decides hv hl hn), ?_⟩
    rw [hset']
    have hm : Mails s (s.sendSurvivors set) := State.sendSurvivors_mails
    have hout : ∀ d ∈ membersOf set, d ≠ s.ownModule →
        ∃ a : Msg, a.mtype = 0x03 ∧ a.body = le 64 set ∧ Out.message (s.rd Obj.planPod) d a ∈ (s.sendSurvivors set).out := fun d hd ho =>
      State.sendSurvivors_out hd ho
    generalize s.sendSurvivors set = a at hm hout
    have hown : a.ownModule = s.ownModule := hm.rd_eq
    rw [State.adopt_runs ((hm.coll_eq (·.view)).trans hv)]
    obtain ⟨hkept, hends⟩ := a.adoptIn_ends set v.shape
    refine ⟨fun d hd ho => ?_, fun h => (hends (by rw [hown]; exact h)).1⟩
    obtain ⟨b, hty, hbody, hmem⟩ := hout d hd ho
    exact ⟨b, hty, hbody, hkept _ hmem⟩
  · exact fun s v hv h => ⟨_, congrArg Host.Outcome.next (State.leaderDecide_idle hv h), rfl⟩
  · exact fun s hv => ⟨_, congrArg Host.Outcome.next (State.leaderDecide_none hv), rfl⟩
  · intro s m v set hm hn he hd hv hset ho h
    obtain ⟨u, hr, hu⟩ := exec_msgSurvivors_now hm hn he hd
    have huv : u.coll.view = some v := hr.view.trans hv
    rw [huv, Option.isSome_some, if_pos rfl, ← hset, State.adopt_runs huv,
      State.adoptIn_shrinks (by rw [hr.ownModule]; exact ho) h] at hu
    obtain ⟨hmembers, hepoch, -, hview, -⟩ := u.shrink_settles (set &&& v.shape)
    exact ⟨_, hu, hmembers, hepoch.trans (congrArg (· + 1) hr.clears.rd_eq), hview⟩
  · intro s m v set hm hn he hd hv hset ho h
    obtain ⟨u, hr, hu⟩ := exec_msgSurvivors_now hm hn he hd
    have huv : u.coll.view = some v := hr.view.trans hv
    rw [huv, Option.isSome_some, if_pos rfl, ← hset, State.adopt_runs huv,
      State.adoptIn_stops (by rw [hr.ownModule]; exact ho) h] at hu
    obtain ⟨hstate, hobjs, hview, -⟩ := u.goMinority_stops
    exact ⟨_, hu, hstate, (hobjs _ (by decide)).trans hr.clears.rd_eq, hview⟩
  · intro s m set hm hn he hd hv hset ho hg ha
    obtain ⟨u, hr, hu⟩ := exec_msgSurvivors_now hm hn he hd
    have hmem : u.members = s.members := congrArg membersOf hr.bitmap
    rw [hr.view.trans hv, Option.isSome_none, if_neg (by decide), ← hset,
      State.adoptUnseen_runs (hr.active hg) (by rw [hr.ownModule]; exact ho) (by rw [hmem]; exact ha)] at hu
    have hab : Clears u (u.abortStep 0x94) := State.abortStep_clears
    obtain ⟨hstep, hspans, -⟩ := State.abortStep_aborts (u := u) (cause := 0x94)
    have hown : ((u.abortStep 0x94).countSat Obj.memberFailures 1).ownModule = s.ownModule := by
      rw [State.ownModule, State.rd_countSat_ne (by decide), hab.rd_eq]
      exact hr.ownModule
    obtain ⟨-, hends⟩ := ((u.abortStep 0x94).countSat Obj.memberFailures 1).adoptIn_ends set u.bitmap
    obtain ⟨hview, hfail, hidle, hnospan⟩ := hends (by rw [hown]; exact ho)
    refine ⟨_, hu, hidle ((congrArg CmdState.stepNow (State.countSat_cmd ..)).trans hstep), hnospan ((State.countSat_spans ..).trans hspans), ?_, hview⟩
    rw [hfail, State.rd_countSat_self, hab.rd_eq, hr.clears.rd_eq]
  · exact fun s m h => ⟨_, congrArg Host.Outcome.next (State.onGroup_other h), rfl⟩
  · intro s v hv hn
    obtain ⟨hstate, -, hview, -, -, -, hocc⟩ := s.goMinority_stops
    exact ⟨_, congrArg Host.Outcome.next (State.viewTimeout_stops hv hn), hstate, hview, hocc⟩
  · exact fun s v hv hn => ⟨_, congrArg Host.Outcome.next (State.viewTimeout_idle hv hn), rfl⟩
  · exact fun s hv => ⟨_, congrArg Host.Outcome.next (State.viewTimeout_none hv), rfl⟩
  · intro s m hm ht hl he hd hs
    obtain ⟨u, c, hr, h⟩ := State.collMsg_aborts (m := { m with mtype := 0x04, step := unle (m.body.take 8) }) hm rfl ht he hd hs
    refine ⟨_, congrArg Host.Outcome.next ((State.msgAbort_collMsg (.inr hl)).trans h), ?_⟩
    obtain ⟨hstep, hspans, -⟩ := State.abortStep_aborts (u := u) (cause := c)
    exact ⟨hstep, hspans, fun w hw => State.abortStep_halts w.isLt (by rw [State.win_congr hr.waits.cmd]; exact hw)⟩
  · intro s m hm hl ht
    refine ⟨_, congrArg Host.Outcome.next
      (State.msgAbort_levels (m := { m with mtype := 0x04, step := unle (m.body.take 8) }) hm hl ht), ?_⟩
    generalize abortCause _ = c
    obtain ⟨hstep, hspans, -⟩ := State.abortStep_aborts (u := s) (cause := c)
    have hm : Mails (s.abortStep c) (s.abortStep c).levelUp := State.levelUp_mails
    refine ⟨(congrArg CmdState.stepNow hm.cmd_eq).trans hstep, (hm.within.spans_eq (by decide)).trans hspans, fun w hw => ?_⟩
    rw [State.win_congr hm.cmd_eq]
    exact State.abortStep_halts w.isLt hw
  · intro s m hm ht hl
    exact ⟨_, congrArg Host.Outcome.next ((State.msgAbort_collMsg (m := { m with mtype := 0x04, step := unle (m.body.take 8) }) (.inr hl)).trans
      (State.collMsg_kept hm ht)), rfl⟩
  · intro s m h
    have h1 := State.msgAbort_collMsg (s := s) (m := { m with mtype := 0x04, step := unle (m.body.take 8) }) (h.imp_right fun h => h.2.2)
    have h2 := State.collMsg_other (s := s) (m := { m with mtype := 0x04, step := unle (m.body.take 8) }) (h.imp_right fun h => ⟨h.1, h.2.1⟩)
    exact ⟨_, congrArg Host.Outcome.next (h1.trans h2), rfl⟩

end Sys2Proof.Machine
end
